-- ==== Sys2Proof/Word.lean ====
section
/-!
DEFINITION. The widths the manual uses: bytes, 32-bit registers (R11), 64-bit pairs and the
16-bit identities of R35.
-/

namespace Sys2Proof

/-- A byte of any of the memories. -/
abbrev Byte := BitVec 8

/-- A register or a Round word (R11). -/
abbrev Word := BitVec 32

/-- A pair of registers under WIDE. -/
abbrev DWord := BitVec 64

/-- A mailbox identity: chip in bits 15–13, source in bits 7–0 (R35). -/
abbrev Ident := BitVec 16

end Sys2Proof
end

