-- ==== Sys2Proof/Syntax.lean ====
section
/-!
DEFINITION. The commands of the block: one constructor per row of spec/opcode_table.json, in the table's
order, with the operands the row's rule gives it. Commands that name an agent carry its identity (R35).
-/

namespace Sys2Proof

/-- Operation or element size of an engine instruction (Table ISA-2). -/
inductive Size where
  | word | half | byte | wide
  deriving DecidableEq, Repr

/-- The four spaces of an engine (Table ISA-11). -/
inductive Space where
  | engineLocal | district | image | port
  deriving DecidableEq, Repr

/-- Repeat prefix (Table ISA-2). -/
inductive Rep where
  | once | rep | repz
  deriving DecidableEq, Repr

/-- A general register number. -/
abbrev GReg := Fin 16

/-- A signed immediate with the width of its encoding and its EXT prefix (R85). -/
inductive Imm where
  | i8 (v : BitVec 8) (ext : Bool)
  | i16 (v : BitVec 16) (ext : Bool)
  | i32 (v : BitVec 32)
  deriving DecidableEq, Repr

/-- A displacement with the width of its encoding (R84). -/
inductive Disp where
  | d0
  | d8 (v : BitVec 8)
  | d16 (v : BitVec 16)
  | d32 (v : BitVec 32)
  deriving DecidableEq, Repr

/-- An atomic operation (R94); the compare value is given where one is compared. -/
inductive AtomOp where
  | swp | fadd | fand | fior | fxor
  | cas (compare : Nat)
  deriving DecidableEq, Repr

/-- An access that an abandoned instruction had sent out of the engine (R124). -/
inductive Access where
  | load (space : Space) (addr : Nat) (bytes : Nat)
  | atomic (addr : Nat) (bytes : Nat) (op : AtomOp) (value : Nat)
  | lease (handle : Nat)
  | release (handle : Nat)
  deriving DecidableEq, Repr

/-- What an entry finds at the return address when it abandons an instruction (R123, R124, R127). -/
structure Abandon where
  accesses : List Access
  deriving DecidableEq, Repr

/-- A unit with configuration transactions (R70), and its instance. -/
inductive TxnUnit where
  | xing | ave | rnd (d : Nat) | eth (n : Nat) | sru (d : Nat)
  deriving DecidableEq, Repr

/-- A message (Table AVE-3); LEN is the length of the payload. -/
structure Msg where
  dest : Nat
  src : Nat
  type : Nat
  sub : Nat
  flowv : Bool
  flow : Nat
  seq : Nat
  payload : List (BitVec 32)
  deriving DecidableEq, Repr

/-- An entry of the spare table (Table AVE-9). -/
structure SpareEntry where
  slot : Nat
  valid : Bool
  owner : Nat
  deriving DecidableEq, Repr

/-- A reference message (Table AVE-9). LINE_TIME is seconds, nanoseconds and 2^-16 ns. -/
structure RefMsg where
  cycle : Nat
  master : Nat
  rank : Nat
  coldstart : Bool
  sgen : Nat
  rcrc : Nat
  claimsSeen : Nat
  sec : Nat
  ns : Nat
  sub : Nat
  timeInfo : Nat
  spare : List SpareEntry
  deriving DecidableEq, Repr

/-- A chip of the ring map with the medium delay of the link from its W1 onward (R205). -/
structure RingChip where
  chip : Nat
  medium : Nat
  linked : Bool
  cold : Bool
  rank : Nat
  deriving DecidableEq, Repr

/-- A spare-slot claim or release (R199, R200). -/
structure Claim where
  node : Nat
  slot : Nat
  release : Bool
  deriving DecidableEq, Repr

/-- What a step of link training brings (Table AVE-17): lanes with their clock or block lock, the skew in
picoseconds, the peer, the least round trip of 16 echoes in FCLK cycles, the ring map the chips agreed on with
its closing, or a failed step. -/
inductive TrainStep where
  | clockRecovery (lanes : BitVec 4)
  | blockLock (lanes : BitVec 4)
  | deskew (ps : Nat)
  | peer (chip port : Nat) (cold : Bool) (rank : Nat)
  | echoes (least : Nat)
  | map (chips : List RingChip) (complete broken : Bool)
  | failed
  deriving DecidableEq, Repr

/-- What a relay meets on its port (R206, R207): a reference message, a claim, or a frame of ring-scope slot
`k` with its first beat's offset from the expected cycle and whether it passed its check. -/
inductive RelayFrame where
  | ref (m : RefMsg)
  | claim (c : Claim)
  | slot (k : Nat) (offset : Int) (ok : Bool) (msgs : List Msg)
  deriving DecidableEq, Repr

/-- A frame on a CAN bus as a receive object takes it (Table CAN-4); the data has as many bytes as the DLC and
the format give. -/
structure CanFrame where
  id : BitVec 29
  ide : Bool
  rtr : Bool
  fdf : Bool
  dlc : BitVec 4
  brs : Bool
  esi : Bool
  data : List (BitVec 8)
  deriving DecidableEq, Repr

/-- What a controller meets on its bus (R290, R311, Table CAN-17): an error, or the recessive FDF or res bit of a
frame outside its format. -/
inductive CanError where
  | stuff | form | ack | bitRecessive | bitDominant | crc | formatBit
  deriving DecidableEq, Repr

/-- Where a bus error is met: in the data phase or not, the loop delay where the frame has measured it, and the CCLK cycle
of the bit at which the line reads otherwise than sent (R294). -/
structure ErrorSpot where
  data : Bool
  tdc : Option Nat
  point : Nat
  deriving DecidableEq, Repr

/-- What a serial line's RX ball brings (R320–R322): the start bit of a character, or its end with the last stop bit. -/
inductive SerialRx where
  | startBit
  | char (data : BitVec 8)
  deriving DecidableEq, Repr

/-- A frame on a through-path port: its bytes after the SFD, and the errors that the PHY sees in it (R277, R281). -/
structure ThruRx where
  bytes : List Byte
  align : Bool
  symbols : Nat
  deriving DecidableEq, Repr

/-- How a transmit attempt ends (R309). -/
inductive Attempt where
  | success | lost | error
  deriving DecidableEq, Repr

/-- An error that has arisen in storage and that an access meets: in a 64-bit word of a district's SRAM, single-bit or
uncorrectable (R151), or an uncorrectable one in a point's line (R378). -/
inductive Upset where
  | sram (district word : Nat) (fatal : Bool)
  | point (p : Nat)
  deriving DecidableEq, Repr

/-- A BAR2 read: how many bytes, and the storage errors that have arisen by then (R455, R151). -/
structure Bar2Span where
  bytes : Nat
  upsets : List Upset
  deriving DecidableEq, Repr

/-- An error that an MRAM read meets in a 64-bit word of its row: corrected, or uncorrectable (R515). -/
structure MramFault where
  word : Nat
  fatal : Bool
  deriving DecidableEq, Repr

/-- How the island's self-test ends (R478). -/
inductive SelfTest where
  | pass | lockstep | sram | readback | rom
  deriving DecidableEq, Repr

/-- What the island's memories meet in a cycle (Table SAFE-9): nothing, corrected errors of its SRAM, an
uncorrectable one, or an uncorrectable read of the selected set. -/
inductive IslandErr where
  | none
  | corrected (k : Nat)
  | sram
  | mram
  deriving DecidableEq, Repr

/-- An error that a Round word meets on its way into a station: corrected, or uncorrectable (R167). -/
structure RingFault where
  station : Nat
  word : Nat
  fatal : Bool
  deriving DecidableEq, Repr

/-- A command of the block, by the rows of spec/opcode_table.json. -/
inductive Instr where
  /-- ABSENT_WINDOW_ACCESS (R5): An access by any path to the register window of an absent unit reads 0x0000_0000
  and ignores writes. -/
  | absentWindowAccess (who : Ident) (a : Nat) (write : Bool)
  /-- REGISTER_WRITE (R12): A write to a register that has no row of its own takes effect under its access codes,
  with sub-word writes and reserved encodings setting CFG_ERR. -/
  | registerWrite (who : Ident) (a n v : Nat)
  /-- SHADOW_WRITE (R73): The holder's write to a register of a unit with an OPEN configuration transaction goes
  to the shadow copy, and a write by anyone else is discarded. -/
  | shadowWrite (who : Ident) (a : Nat) (v : Word)
  /-- POWER_ON_RESET (R52): The release of PORST_N after all supplies are valid resets every unit except the
  island and enters BOOT. -/
  | powerOnReset
  /-- RESET_PIN (R529): RESET_N held low long enough passes its filter and resets the device with cause PIN. -/
  | resetPin (ns : Nat)
  /-- BROWN_OUT (R512): CORE_RESET asserts on VDD_CORE below 0.68 V and holds the device in reset with cause
  BROWNOUT. -/
  | brownOut
  /-- SUPERVISOR_LOCKSTEP_MISMATCH (R52): The two supervisor cores disagree and the device is reset. -/
  | supervisorLockstepMismatch
  /-- SUPERVISOR_WATCHDOG_EXPIRY (R52): The supervisor watchdog expires and the device is reset. -/
  | supervisorWatchdogExpiry
  /-- PERST_N (R454): PCIe fundamental reset acts as a function-level reset of every host function 0-6. -/
  | perstN
  /-- HOT_RESET (R454): A PCIe hot reset acts as a function-level reset of every host function 0-6. -/
  | hotReset
  /-- FUNCTION_LEVEL_RESET (R454): A function-level reset rolls back the function's transactions, releases its
  pins, reclaims its leases and discards its pending interrupts. -/
  | functionLevelReset (f : Nat)
  /-- CLOCK_LOSS_OF_LOCK (R24): Loss of lock or source in a clock domain clears its LOCK bit, sets LOSS, flushes
  and holds its dual-clock queues and notifies the supervisor; FCLK loss resets the device. -/
  | clockLossOfLock (k : Nat)
  /-- CLOCK_LOCK_RETURN (R24): Lock returns in a domain and its dual-clock queues are released. -/
  | clockLockReturn (k : Nat)
  /-- FORCED_LOAD (R50): An XCLK, MCLK or CCLK loss lasting more than 1 ms in COMMISSION or later forces the
  device to LOAD and sets FORCED and FORCE_CAUSE. -/
  | forcedLoad (k : Nat)
  /-- SYNCHRONISER_ACKNOWLEDGE (R27): The acknowledge of an event toggle returns to the source, and a held or
  merged event then crosses. -/
  | synchroniserAcknowledge (l : Nat)
  /-- BOOT_ATTEMPT (R55): The boot stage reads an image from the next source of BOOT_SEL and authenticates it,
  starting it or moving to the next source or WAIT_PUSH. -/
  | bootAttempt (flash : List Byte) (readError : Bool)
  /-- HOST_PUSH (R57): A write of 1 to SYS_BOOT_CTRL.GO authenticates the image in the BAR2 boot window, or is
  ignored and counted outside WAIT_PUSH. -/
  | hostPush (who : Ident)
  /-- SUPERVISOR_START (R43): Supervisor firmware starts, clears the SRAMs, trains DRAM and the device enters
  LOAD. -/
  | supervisorStart
  /-- ENTER_LOAD (R65): Mode command ENTER_LOAD takes every port down, flushes queued frames and moves the device
  to LOAD. -/
  | enterLoad (who : Ident) (tag arg : Nat)
  /-- ENTER_COMMISSION (R65): Mode command ENTER_COMMISSION moves the device to COMMISSION, or returns WRONG_STATE
  while a configuration transaction is open. -/
  | enterCommission (who : Ident) (tag arg : Nat)
  /-- ENTER_COMMISSION_COMPLETE (R333): A pending ENTER_COMMISSION completes once a package command is done and
  the ports are up listen-only, writing its final result. -/
  | enterCommissionComplete
  /-- ENTER_RUN (R45): Mode command ENTER_RUN from COMMISSION is accepted as PENDING, or refused in other modes.
  -/
  | enterRun (who : Ident) (tag arg : Nat)
  /-- ENTER_RUN_EVALUATION (R191): At integration or after 64 Avenue cycles, the conditions of R45 are evaluated
  and all ports go active together at the next cycle start. -/
  | enterRunEvaluation
  /-- SAFE_ACK (R47): Mode command SAFE_ACK leaves SAFE_HOLD for RUN or DEGRADED once the island reports an
  acknowledged stop and a fresh guard cycle. -/
  | safeAck (who : Ident) (tag arg : Nat)
  /-- SOFT_RESET (R65): Mode command SOFT_RESET with ARG 0xA5A5 resets the device and records SOFT. -/
  | softReset (who : Ident) (tag arg : Nat)
  /-- SAFE_STOP_REPORT (R478): The island's report of a safe stop executed moves the device from RUN or DEGRADED
  to SAFE_HOLD. -/
  | safeStopReport
  /-- BEGIN (R71): BEGIN on a *_TXN_CTRL register opens a configuration transaction under a lease in the writer's
  name. -/
  | begin (u : TxnUnit) (who : Ident)
  /-- COMMIT (R75): COMMIT validates a configuration shadow and schedules it for the unit's commit boundary,
  returning PENDING, OK, BUSY or a refusal. -/
  | commit (u : TxnUnit) (who : Ident)
  /-- ROLLBACK (R74): ROLLBACK by the holder, or by the supervisor, discards an OPEN shadow and releases its
  lease. -/
  | rollback (u : TxnUnit) (who : Ident)
  /-- TXN_APPLY (R75): A committed configuration shadow is applied at its unit's boundary, the final OK is written
  and the lease released. -/
  | txnApply (u : TxnUnit)
  /-- NOP (R87): Instruction NOP does nothing for one cycle. -/
  | nop (e : Nat)
  /-- MOV (R90): Instruction MOV copies a register or pair. -/
  | mov (e : Nat) (wide : Bool) (d a : GReg)
  /-- MOVI (R90): Instruction MOVI loads an extended immediate. -/
  | movi (e : Nat) (wide : Bool) (d : GReg) (imm : Imm)
  /-- ADD (R90): Instruction ADD adds two registers modulo 2^N. -/
  | add (e : Nat) (wide : Bool) (d a b : GReg)
  /-- SUB (R90): Instruction SUB subtracts two registers modulo 2^N. -/
  | sub (e : Nat) (wide : Bool) (d a b : GReg)
  /-- ADDC (R90): Instruction ADDC adds and writes the carry to gc. -/
  | addc (e : Nat) (wide : Bool) (d c a b : GReg)
  /-- SUBB (R90): Instruction SUBB subtracts and writes the borrow to gc. -/
  | subb (e : Nat) (wide : Bool) (d c a b : GReg)
  /-- ADDV (R90): Instruction ADDV adds and writes signed overflow to gc. -/
  | addv (e : Nat) (wide : Bool) (d c a b : GReg)
  /-- SUBV (R90): Instruction SUBV subtracts and writes signed overflow to gc. -/
  | subv (e : Nat) (wide : Bool) (d c a b : GReg)
  /-- MUL (R90): Instruction MUL multiplies, keeping the low N bits. -/
  | mul (e : Nat) (wide : Bool) (d a b : GReg)
  /-- MULH (R90): Instruction MULH gives the high half of a signed product. -/
  | mulh (e : Nat) (wide : Bool) (d a b : GReg)
  /-- MULHU (R90): Instruction MULHU gives the high half of an unsigned product. -/
  | mulhu (e : Nat) (wide : Bool) (d a b : GReg)
  /-- DIV (R90): Instruction DIV divides signed values with defined results for zero and overflow. -/
  | div (e : Nat) (wide : Bool) (d a b : GReg)
  /-- DIVU (R90): Instruction DIVU divides unsigned values, giving all ones for a zero divisor. -/
  | divu (e : Nat) (wide : Bool) (d a b : GReg)
  /-- REM (R90): Instruction REM gives the signed remainder. -/
  | rem (e : Nat) (wide : Bool) (d a b : GReg)
  /-- REMU (R90): Instruction REMU gives the unsigned remainder. -/
  | remu (e : Nat) (wide : Bool) (d a b : GReg)
  /-- SATADD (R90): Instruction SATADD adds with signed saturation. -/
  | satadd (e : Nat) (wide : Bool) (d a b : GReg)
  /-- NEG (R90): Instruction NEG negates a register. -/
  | neg (e : Nat) (wide : Bool) (d a : GReg)
  /-- NEGV (R90): Instruction NEGV negates and flags overflow in gc. -/
  | negv (e : Nat) (wide : Bool) (d c a : GReg)
  /-- ADDI (R90): Instruction ADDI adds an immediate. -/
  | addi (e : Nat) (wide : Bool) (d a : GReg) (imm : Imm)
  /-- ANDI (R90): Instruction ANDI ANDs with an immediate. -/
  | andi (e : Nat) (wide : Bool) (d a : GReg) (imm : BitVec 16) (ext : Bool)
  /-- ORI (R90): Instruction ORI ORs with an immediate. -/
  | ori (e : Nat) (wide : Bool) (d a : GReg) (imm : BitVec 16) (ext : Bool)
  /-- XORI (R90): Instruction XORI XORs with an immediate. -/
  | xori (e : Nat) (wide : Bool) (d a : GReg) (imm : BitVec 16) (ext : Bool)
  /-- SHLI (R90): Instruction SHLI shifts left by an 8-bit count. -/
  | shli (e : Nat) (wide : Bool) (d a : GReg) (k : BitVec 8)
  /-- SHRI (R90): Instruction SHRI shifts right logically by an 8-bit count. -/
  | shri (e : Nat) (wide : Bool) (d a : GReg) (k : BitVec 8)
  /-- SARI (R90): Instruction SARI shifts right arithmetically by an 8-bit count. -/
  | sari (e : Nat) (wide : Bool) (d a : GReg) (k : BitVec 8)
  /-- ROLI (R90): Instruction ROLI rotates left by an 8-bit count. -/
  | roli (e : Nat) (wide : Bool) (d a : GReg) (k : BitVec 8)
  /-- ROTI (R90): Instruction ROTI rotates right by an 8-bit count. -/
  | roti (e : Nat) (wide : Bool) (d a : GReg) (k : BitVec 8)
  /-- MULI (R90): Instruction MULI multiplies by an immediate. -/
  | muli (e : Nat) (wide : Bool) (d a : GReg) (imm : BitVec 16) (ext : Bool)
  /-- CEQI (R90): Instruction CEQI compares for equality with an immediate. -/
  | ceqi (e : Nat) (wide : Bool) (d a : GReg) (imm : BitVec 16) (ext : Bool)
  /-- CLTI (R90): Instruction CLTI compares signed less-than with an immediate. -/
  | clti (e : Nat) (wide : Bool) (d a : GReg) (imm : BitVec 16) (ext : Bool)
  /-- CLTUI (R90): Instruction CLTUI compares unsigned less-than with an immediate. -/
  | cltui (e : Nat) (wide : Bool) (d a : GReg) (imm : BitVec 16) (ext : Bool)
  /-- SATADDI (R90): Instruction SATADDI adds an immediate with saturation. -/
  | sataddi (e : Nat) (wide : Bool) (d a : GReg) (imm : BitVec 16) (ext : Bool)
  /-- AND (R90): Instruction AND. -/
  | and (e : Nat) (wide : Bool) (d a b : GReg)
  /-- OR (R90): Instruction OR. -/
  | or (e : Nat) (wide : Bool) (d a b : GReg)
  /-- XOR (R90): Instruction XOR. -/
  | xor (e : Nat) (wide : Bool) (d a b : GReg)
  /-- ANDN (R90): Instruction ANDN ANDs with the complement of gb. -/
  | andn (e : Nat) (wide : Bool) (d a b : GReg)
  /-- NOT (R90): Instruction NOT complements a register. -/
  | not (e : Nat) (wide : Bool) (d a : GReg)
  /-- SHL (R90): Instruction SHL shifts left by a register count. -/
  | shl (e : Nat) (wide : Bool) (d a b : GReg)
  /-- SHR (R90): Instruction SHR shifts right logically by a register count. -/
  | shr (e : Nat) (wide : Bool) (d a b : GReg)
  /-- SAR (R90): Instruction SAR shifts right arithmetically by a register count. -/
  | sar (e : Nat) (wide : Bool) (d a b : GReg)
  /-- ROL (R90): Instruction ROL rotates left by a register count. -/
  | rol (e : Nat) (wide : Bool) (d a b : GReg)
  /-- ROT (R90): Instruction ROT rotates right by a register count. -/
  | rot (e : Nat) (wide : Bool) (d a b : GReg)
  /-- CEQ (R90): Instruction CEQ writes 1 when equal. -/
  | ceq (e : Nat) (wide : Bool) (d a b : GReg)
  /-- CNE (R90): Instruction CNE writes 1 when not equal. -/
  | cne (e : Nat) (wide : Bool) (d a b : GReg)
  /-- CLT (R90): Instruction CLT writes 1 when signed less. -/
  | clt (e : Nat) (wide : Bool) (d a b : GReg)
  /-- CLTU (R90): Instruction CLTU writes 1 when unsigned less. -/
  | cltu (e : Nat) (wide : Bool) (d a b : GReg)
  /-- CGE (R90): Instruction CGE writes 1 when signed greater or equal. -/
  | cge (e : Nat) (wide : Bool) (d a b : GReg)
  /-- CGEU (R90): Instruction CGEU writes 1 when unsigned greater or equal. -/
  | cgeu (e : Nat) (wide : Bool) (d a b : GReg)
  /-- SEL (R90): Instruction SEL selects ga or gb by gc. -/
  | sel (e : Nat) (wide : Bool) (d c a b : GReg)
  /-- BFX (R92): Instruction BFX extracts a bit field. -/
  | bfx (e : Nat) (wide : Bool) (d a : GReg) (field : BitVec 16)
  /-- BFI (R92): Instruction BFI inserts a bit field. -/
  | bfi (e : Nat) (wide : Bool) (d a : GReg) (field : BitVec 16)
  /-- CLZ (R92): Instruction CLZ counts leading zeros. -/
  | clz (e : Nat) (wide : Bool) (d a : GReg)
  /-- POPC (R92): Instruction POPC counts one bits. -/
  | popc (e : Nat) (wide : Bool) (d a : GReg)
  /-- BSWAP (R92): Instruction BSWAP reverses byte order. -/
  | bswap (e : Nat) (wide : Bool) (d a : GReg)
  /-- LD (R93): Instruction LD loads and zero-extends an element from a space, raising ABSENT, ACCESS, ALIGN or
  STACK when its checks fail. -/
  | ld (e : Nat) (size : Size) (sp : Option Space) (d b : GReg) (disp : Disp)
  /-- LDS (R93): Instruction LDS loads and sign-extends an element. -/
  | lds (e : Nat) (size : Size) (sp : Option Space) (d b : GReg) (disp : Disp)
  /-- ST (R93): Instruction ST stores an element, posting it outside LOCAL. -/
  | st (e : Nat) (size : Size) (sp : Option Space) (g b : GReg) (disp : Disp)
  /-- STI (R93): Instruction STI stores an immediate. -/
  | sti (e : Nat) (size : Size) (sp : Option Space) (b : GReg) (disp imm : BitVec 32)
  /-- LEA (R93): Instruction LEA computes an address without access. -/
  | lea (e : Nat) (d b : GReg) (disp : BitVec 32)
  /-- B (R95): Instruction B branches always. -/
  | b (e : Nat) (disp : Disp)
  /-- BZ (R95): Instruction BZ branches when ga is 0. -/
  | bz (e : Nat) (a : GReg) (disp : Disp)
  /-- BNZ (R95): Instruction BNZ branches when ga is nonzero. -/
  | bnz (e : Nat) (a : GReg) (disp : Disp)
  /-- CALL (R95): Instruction CALL writes the return address to g14 and branches. -/
  | call (e : Nat) (disp : Disp)
  /-- BR (R95): Instruction BR sets PC to ga. -/
  | br (e : Nat) (a : GReg)
  /-- CALLR (R95): Instruction CALLR branches to ga and writes the return address to g14. -/
  | callr (e : Nat) (a : GReg)
  /-- RET (R112): Instruction RET sets PC to g14. -/
  | ret (e : Nat)
  /-- MOVS (R96): String instruction MOVS copies elements, repeated under REP and yielding to events between
  elements. -/
  | movs (e : Nat) (size : Size) (rep : Rep) (sp : Option Space) (ds : Space)
  /-- FILL (R96): String instruction FILL stores ga into successive elements. -/
  | fill (e : Nat) (size : Size) (rep : Rep) (sp : Option Space) (a : GReg)
  /-- SCAN (R96): String instruction SCAN compares elements with ga. -/
  | scan (e : Nat) (size : Size) (rep : Rep) (sp : Option Space) (d a : GReg)
  /-- CMPS (R96): String instruction CMPS compares source and destination elements. -/
  | cmps (e : Nat) (size : Size) (rep : Rep) (sp : Option Space) (d : GReg) (ds : Space)
  /-- CRCS (R98): String instruction CRCS folds elements into a CRC with a table entry. -/
  | crcs (e : Nat) (size : Size) (rep : Rep) (sp : Option Space) (d : GReg) (table : BitVec 8)
  /-- STMP (R100): Instruction STMP captures the district time repeater. -/
  | stmp (e : Nat) (wide : Bool) (d : GReg)
  /-- TSQP (R362): Instruction TSQP pushes an entry into the district time-stamp queue, writing OK or NO_RESOURCE.
  -/
  | tsqp (e : Nat) (d a b : GReg)
  /-- SRUP (R100): Instruction SRUP hands a 20-byte sample record to the reduction unit, writing OK or BUSY. -/
  | srup (e : Nat) (d a : GReg)
  /-- RNDRD (R161): Instruction RNDRD reads a Round word as this station last saw it. -/
  | rndrd (e : Nat) (d : GReg) (word : BitVec 8)
  /-- RNDWR (R161): Instruction RNDWR posts a pending write of a Round word for the next passage. -/
  | rndwr (e : Nat) (a : GReg) (word : BitVec 8)
  /-- RNDOP (R161): Instruction RNDOP posts a commons operation, merging with or replacing a pending one. -/
  | rndop (e : Nat) (a : GReg) (field : BitVec 16)
  /-- WAIT (R140): Instruction WAIT enters candle wait once posted stores drain. -/
  | wait (e : Nat)
  /-- EVT (R101): Instruction EVT sets an event line of an engine of the same district. -/
  | evt (e : Nat) (a : GReg) (line : BitVec 8)
  /-- FENCE (R101): Instruction FENCE waits until every posted store, EVT and DBELL of this engine has completed.
  -/
  | fence (e : Nat)
  /-- DBELL (R101): Instruction DBELL rings a doorbell bit of a receiver identity, locally or on another chip. -/
  | dbell (e : Nat) (a : GReg) (b : BitVec 8)
  /-- SWP (R94): Atomic SWP swaps a district memory element. -/
  | swp (e : Nat) (wide : Bool) (d a b : GReg)
  /-- CAS (R94): Atomic CAS compares with gd and swaps. -/
  | cas (e : Nat) (wide : Bool) (d a b : GReg)
  /-- FADD (R94): Atomic FADD fetches and adds. -/
  | fadd (e : Nat) (wide : Bool) (d a b : GReg)
  /-- FAND (R94): Atomic FAND fetches and ANDs. -/
  | fand (e : Nat) (wide : Bool) (d a b : GReg)
  /-- FOR (R94): Atomic FOR fetches and ORs. -/
  | fetchOr (e : Nat) (wide : Bool) (d a b : GReg)
  /-- FXOR (R94): Atomic FXOR fetches and XORs. -/
  | fxor (e : Nat) (wide : Bool) (d a b : GReg)
  /-- CASX (R94): Atomic CASX compares with an immediate and swaps. -/
  | casx (e : Nat) (wide : Bool) (d a b : GReg) (disp imm : BitVec 32)
  /-- MFS (R80): Instruction MFS reads a special register. -/
  | mfs (e : Nat) (d : GReg) (n : Fin 16)
  /-- MTS (R80): Instruction MTS writes a special register, clearing pending lines or discarding a held result. -/
  | mts (e : Nat) (n : Fin 16) (a : GReg)
  /-- RETE (R129): Instruction RETE pops the innermost entry record, restoring g13, level and PC. -/
  | rete (e : Nat)
  /-- TRAP (R110): Instruction TRAP raises BREAK with its code. -/
  | trap (e : Nat) (code : BitVec 8)
  /-- LEASE (R148): Instruction LEASE requests an explicit lease of a LOCK region, checkpoint area or Round slice.
  -/
  | lease (e : Nat) (d a : GReg)
  /-- RELEASE (R148): Instruction RELEASE gives up an explicit lease. -/
  | release (e : Nat) (d a : GReg)
  /-- ILLEGAL (R108): An encoding that breaks a rule raises ILLEGAL with a REASON and BYTE and changes nothing
  else. -/
  | illegal (e : Nat)
  /-- FETCH_ACCESS (R113): An instruction fetch needing bytes at or above 0x1_0000 raises ACCESS with FETCH set.
  -/
  | fetchAccess (e : Nat)
  /-- POSTED_STORE_COMPLETION (R535): A posted store reaches its target and takes effect, or is refused by the
  target's state. -/
  | postedStoreCompletion (e k : Nat)
  /-- HELD_RESULT_ARRIVAL (R124): The result of an access sent by an abandoned instruction arrives and is written
  into the held-result slot. -/
  | heldResultArrival (e k : Nat)
  /-- EVENT_LINE_ARRIVAL (R120): An event line reaches the engine boundary, setting EVT_PEND or merging with a
  pending arrival. -/
  | eventLineArrival (e n : Nat)
  /-- EVENT_ENTRY (R122): An asynchronous entry becomes due and the engine enters the WATCH, LEASE, posted-ACCESS
  or event-line handler. -/
  | eventEntry (e : Nat) (ab : Option Abandon)
  /-- WATCHDOG_EXPIRY (R143): The engine watchdog count reaches 0 and makes WATCH pending, halting the engine on a
  second expiry without a kick. -/
  | watchdogExpiry (e : Nat)
  /-- CE_WDOG_KICK (R143): A write of 0x4C41 to CE_WDOG_KICK reloads the watchdog, and any other key sets CFG_ERR.
  -/
  | ceWdogKick (who : Ident) (e : Nat) (key : BitVec 16)
  /-- CE_WDOG (R143): A CE_WDOG write with EN = 1 reloads the count from the PERIOD written. -/
  | ceWdog (who : Ident) (e : Nat) (v : Word)
  /-- ENGINE_START (R146): CE_CTRL.RUN changing from 0 to 1 starts the engine at vector 0x00 in its initial state.
  -/
  | engineStart (who : Ident) (e : Nat)
  /-- ENGINE_HOLD_RESET (R146): CE_CTRL.RUN changing from 1 to 0 holds the engine in RESET, clears its entry stack
  and reclaims its leases. -/
  | engineHoldReset (who : Ident) (e : Nat)
  /-- LEASE_MESSAGE (R148): A cross-district LEASE request or reply message is served at its gateway. -/
  | leaseMessage (m : Msg)
  /-- ROUND_START (R159): The header sends word 0 and the Round frame passes every station, which applies its
  pending writes and operations. -/
  | roundStart (d : Nat) (errors : List RingFault)
  /-- ROUND_RUN (R165): RND_CTRL.RUN = 1 starts the Round at the next phase point or after 16 cycles. -/
  | roundRun (d : Nat)
  /-- ROUND_STOP (R165): RND_CTRL.RUN = 0 in LOAD lets the current Round return and starts no other. -/
  | roundStop (d : Nat) (who : Ident)
  /-- AVENUE_CYCLE_START (R170): An Avenue cycle starts, with the reference window, measurements, offset
  correction and scheduled applications. -/
  | avenueCycleStart
  /-- STATIC_SLOT (R171): At a slot's action point its owner sends its frame, packing messages in order until the
  gate closes. -/
  | staticSlot (k : Nat)
  /-- SLOT_FRAME_RECEIPT (R173): A node receives a whole slot frame and accepts, corrects or discards it under the
  window and check rules. -/
  | slotFrameReceipt (off : Int) (bad : Bool)
  /-- CLAIM_MINISLOT (R178): A claim mini-slot carries at most one CLAIM message of its chip. -/
  | claimMinislot (c : Nat)
  /-- DYNAMIC_OFFER (R179): A dynamic-segment offer lets a local node send a pending dynamic message or passes
  idle. -/
  | dynamicOffer
  /-- REF (R192): A reference message is held, used for integration, offset measurement, spare table and claim
  results. -/
  | ref (m : RefMsg) (port : Nat)
  /-- CLAIM (R200): A CLAIM message reaches the master's supervisor for evaluation. -/
  | claim (c : Claim)
  /-- ENGINE (R181): An ENGINE message is written to the RX ring and fires AVE_RX on its engine. -/
  | engine (m : Msg)
  /-- SLICE (R183): A SLICE message is written as pending writes of station 14, or rejected whole. -/
  | slice (m : Msg)
  /-- FRAME (R212): A FRAME message enters classification as a frame of source 43. -/
  | frame (m : Msg)
  /-- IMAGE (R399): An IMAGE message carries a remote image request or reply. -/
  | image (m : Msg)
  /-- MAILBOX (R468): A MAILBOX message carries a remote send, doorbell or outcome. -/
  | mailbox (m : Msg)
  /-- LANTERN (R432): A LANTERN message brings a district's station-word record to the supervisor for path 1
  checks. -/
  | lantern (m : Msg)
  /-- SUPER (R449): A SUPER message carries a member's state between chips as the Wilern heartbeat. -/
  | super (m : Msg)
  /-- AVE_GW_PTR (R181): A write of a gateway ring pointer offers TX messages or returns RX entries, or is
  discarded with CFG_ERR. -/
  | aveGwPtr (d q : Nat) (v : Word)
  /-- COLDSTART_TIMEOUT (R190): A cold-start node's listening time-out starts its counter and sends a COLDSTART
  reference message. -/
  | coldstartTimeout
  /-- COLDSTART_CHECK_END (R190): Cycle 0 ends without mismatch and the cold-start node becomes INTEGRATED as time
  master. -/
  | coldstartCheckEnd
  /-- REFERENCE_MISS (R193): An expected reference message is missing, leading to takeover, ISOLATED or counts. -/
  | referenceMiss
  /-- REINT (R198): AVE_CTRL.REINT puts an integrated follower into REINTEGRATING. -/
  | reint
  /-- WILERN_ENABLE (R204): Setting AVE_CTRL.Wn_EN starts link training of a Wilern port. -/
  | wilernEnable (n : Nat)
  /-- TRAINING_STEP_DONE (R204): A training step completes, leading to UP and ring-map exchange, ERROR, or DOWN.
  -/
  | trainingStepDone (n : Nat) (t : TrainStep)
  /-- TRAINING_RETRY (R204): Training of a DOWN port is retried every 1 ms while enabled. -/
  | trainingRetry (n : Nat)
  /-- WILERN_LINK_DOWN (R209): A lane loses lock or blocks fail and the link goes DOWN, marking the ring map
  BROKEN. -/
  | wilernLinkDown (n : Nat)
  /-- RELAY_FRAME (R206): A relay forwards a REF, CLAIM or ring-scope frame cut-through out of the other port. -/
  | relayFrame (n origin : Nat) (f : RelayFrame)
  /-- AVE_CLAIM (R199): A write of AVE_CLAIM checks a spare-slot claim and queues it as PENDING. -/
  | aveClaim (slot l : Nat) (who : Ident)
  /-- AVE_CLAIM_RELEASE (R200): A write of AVE_CLAIM with RELEASE queues the release of an owned spare. -/
  | aveClaimRelease (slot l : Nat) (who : Ident)
  /-- CLAIM_EVALUATION (R200): The master evaluates held releases and claims when it builds the reference message.
  -/
  | claimEvaluation
  /-- CLAIM_TIMEOUT (R201): No evaluating reference message within 16 cycles completes the claim as BUSY. -/
  | claimTimeout
  /-- RECEIVE_FRAME (R258): A frame is received at a port MAC and counted, or discarded as runt, oversize, FCS
  error or MAC control. -/
  | receiveFrame (n : Nat) (bs : List Byte) (align : Bool) (symbols : Nat)
  /-- ETH_RX_SOF (R288): The last SFD bit of a received frame fires ETH_RX_SOF and a stamp push when STAMPQ is
  set. -/
  | ethRxSof (n : Nat)
  /-- ETH_TX_SOF (R288): The last SFD bit of a sent frame fires ETH_TX_SOF and a stamp push when STAMPQ is set. -/
  | ethTxSof (n : Nat)
  /-- CLASSIFICATION (R225): A frame passes the classification steps and its copies are admitted to queues or
  dropped. -/
  | classification
  /-- COPY_ENQUEUE (R233): An admitted copy is enqueued once classification has ended and its last byte is written
  with a good FCS. -/
  | copyEnqueue
  /-- DESTINATION_CHOICE (R237): A destination that can take a frame chooses a queue by strict priority, deficit
  round robin and gates, and delivers or drops the head copy. -/
  | destinationChoice (dest : Nat)
  /-- TRANSMIT_END (R215): The last byte of a copy passes to the egress MAC and the copy ends. -/
  | transmitEnd (n : Nat)
  /-- GATE_EVENT (R243): A gate control list entry starts and opens or closes gates of a port. -/
  | gateEvent (n : Nat)
  /-- GATE_WINDOW_CLOSE (R245): A TT copy not started when its window closes is dropped as GATE_MISSED. -/
  | gateWindowClose (q : Nat)
  /-- SPILL_WRITE_DONE (R241): A copy's write to the spill store completes and its cells are freed. -/
  | spillWriteDone (q : Nat)
  /-- SPILL_READ_BACK (R241): Spilled copies are read back in order once the queue falls below LIMIT/2. -/
  | spillReadBack (q : Nat)
  /-- OLD_GENERATION_RETIRE (R224): The old generation retires once its frames in flight reach 0. -/
  | oldGenerationRetire
  /-- BANK_SYNC_DONE (R224): The spare bank agrees with the newest generation and SYNC becomes 1. -/
  | bankSyncDone
  /-- XING_TBL_READ (R219): Table command READ loads DATA0-3 from the shadow, newest or old generation. -/
  | xingTblRead (who : Ident)
  /-- XING_TBL_WRITE (R219): Table command WRITE places DATA0-3 in the holder's shadow, or is refused. -/
  | xingTblWrite (who : Ident)
  /-- LAMPLIGHTER_EXAMINE (R252): The Lamplighter examines one cell, marking or freeing orphans and reclaimed
  cells and checking the free count at round end. -/
  | lamplighterExamine
  /-- PORT_ENABLE (R263): ETH_CTRL.EN = 1 enables a port. -/
  | portEnable (n : Nat) (who : Ident)
  /-- PORT_DISABLE (R263): ETH_CTRL.EN = 0 forces LINK to 0, prunes the port and flushes its copies without hold.
  -/
  | portDisable (n : Nat) (who : Ident)
  /-- LINK_UP (R262): A port declares its link up, ending a running hold and firing ETH_LINK. -/
  | linkUp (n speed : Nat)
  /-- LINK_DOWN (R284): A port declares its link down, cuts off its transmission, starts the hold and moves LAG
  buckets. -/
  | linkDown (n : Nat)
  /-- HOLD_EXPIRY (R286): The link hold expires with the link down and the port's copies are flushed as
  LINK_FLUSH. -/
  | holdExpiry (n : Nat)
  /-- PLCA_CYCLE (R264): The coordinator sends a beacon and transmit opportunities follow in order. -/
  | plcaCycle (n : Nat)
  /-- TRANSMIT_OPPORTUNITY (R264): A PLCA node's opportunity comes and it sends chosen copies or lets it pass. -/
  | transmitOpportunity (n : Nat)
  /-- BEACON_RECEIPT (R264): A beacon is received, bringing a follower's link up or counting an error at a
  coordinator. -/
  | beaconReceipt (n : Nat)
  /-- BEACON_TIMEOUT (R264): A follower receives no beacon for 2^BEACON_TO ms and its link goes down. -/
  | beaconTimeout (n : Nat)
  /-- COLLISION (R265): A collision on a T1S port is counted and the frame deferred, retried or dropped. -/
  | collision (n : Nat) (late : Bool)
  /-- BACKOFF_EXPIRY (R265): The CSMA/CD back-off of a port ends and the frame is attempted again. -/
  | backoffExpiry (n : Nat)
  /-- RX_HEAD (R267): A write of RX_HEAD returns receive descriptors and ends their cell leases. -/
  | rxHead (n e v : Nat)
  /-- RX_CTRL (R267): A write of RX_CTRL sets the receive ring's engine and enable. -/
  | rxCtrl (n e : Nat) (v : Word)
  /-- TX_TAIL (R272): A write of TX_TAIL offers transmit descriptors and makes the writer their holder. -/
  | txTail (n e v : Nat)
  /-- TX_DESCRIPTOR (R272): The port block takes a transmit descriptor, tests it, segments it under LSO and hands
  the frame to the Crossing. -/
  | txDescriptor (d : Nat)
  /-- ALLOC (R268): A write of a length to ALLOC allocates cells under a lease in the engine's name. -/
  | alloc (n e : Nat) (v : Word)
  /-- APT_A (R271): A write of APT_A or APT_B selects the frame and window shown in an aperture. -/
  | aptA (n e l : Nat) (b : Bool) (v : Word)
  /-- THRU_FRAME (R277): A frame received on a through-path port is forwarded, looped back or dropped at fixed
  delay. -/
  | thruFrame (n : Nat) (rx : ThruRx)
  /-- PATCH_WINDOW_LOAD (R278): A patch window load completes once the addressed bytes have been received. -/
  | patchWindowLoad (e : Nat)
  /-- PATCH_ARRIVAL (R279): A window store reaches the patch logic and is applied or discarded as late. -/
  | patchArrival (n p : Nat) (bs : List Byte)
  /-- ETH_SNAP (R283): A write of GO to ETH_SNAP copies all 48 counters into the snapshot. -/
  | ethSnap (n : Nat) (who : Ident)
  /-- CAN_ENABLE (R295): CAN_CTRL.EN = 1 starts integration toward LISTEN or NORMAL. -/
  | canEnable (n : Nat) (who : Ident)
  /-- CAN_DISABLE (R296): CAN_CTRL.EN = 0 makes the controller OFF at the end of the frame in progress. -/
  | canDisable (n : Nat) (who : Ident)
  /-- INTEGRATION_DONE (R295): Eleven consecutive recessive bits complete integration. -/
  | integrationDone (n : Nat)
  /-- CAN_SOF (R314): A hard synchronisation at start of frame fires CAN_SOF and increments SOF_CNT. -/
  | canSof (n : Nat)
  /-- FRAME_VALID (R300): A received frame is valid and updates its receive object directly or through the pending
  buffer. -/
  | frameValid (n : Nat) (f : CanFrame)
  /-- OBJECT_WORD0_READ (R302): An engine read of word 0 of a receive object takes its read lock or reports
  LOCKED. -/
  | objectWord0Read (e n o : Nat)
  /-- OBJECT_WORD19_READ (R302): A holder's read of word 19 releases the object lock and applies any pending
  frame. -/
  | objectWord19Read (e n o : Nat)
  /-- CAN_RXID (R299): A write of CAN_RXID sets an object's identifier and clears its NEW, LOST and pending
  buffer. -/
  | canRxid (n o : Nat) (v : Word) (who : Ident)
  /-- TX_REQUEST (R307): TX_REQUEST makes a transmit object PENDING, or fails it with BAD_ARG. -/
  | txRequest (n t : Nat) (who : Ident)
  /-- TX_CANCEL (R310): TX_CANCEL cancels a PENDING object or marks an ACTIVE one CANCEL_REQ. -/
  | txCancel (n t : Nat) (who : Ident)
  /-- BOFF_RECOVER (R313): BOFF_RECOVER starts bus-off recovery. -/
  | boffRecover (n : Nat) (who : Ident)
  /-- ARBITRATION_CHOICE (R308): The controller chooses the PENDING object that would win arbitration for the next
  attempt. -/
  | arbitrationChoice (n : Nat)
  /-- ATTEMPT_END (R309): A transmit attempt ends in success, lost arbitration or error. -/
  | attemptEnd (n : Nat) (how : Attempt) (tdc : Option Nat)
  /-- BUS_ERROR (R311): A bus error changes TEC or REC and confinement state, possibly entering bus-off. -/
  | busError (n : Nat) (err : CanError) (spot : ErrorSpot) (exempt : Bool) (more : Nat)
  /-- RECOVERY_DONE (R313): The 128th occurrence of 11 recessive bits ends bus-off recovery. -/
  | recoveryDone (n : Nat)
  /-- SER_ENABLE (R319): SER_CTRL.EN changes and the line's OPSTATE follows. -/
  | serEnable (n : Nat) (en : Bool) (who : Ident)
  /-- CHARACTER_RECEIVED (R320): A received character is stored with its flags or dropped when the ring is full.
  -/
  | characterReceived (n : Nat) (part : SerialRx) (parity frame brk : Bool)
  /-- SER_TX_TAIL (R320): A write of the serial TX_TAIL offers bytes for transmission. -/
  | serTxTail (n e v : Nat)
  /-- SER_RX_HEAD (R320): A write of the serial RX_HEAD returns receive entries. -/
  | serRxHead (n e v : Nat)
  /-- CHARACTER_SENT (R321): A character's last stop bit leaves and the next byte or DE fall follows. -/
  | characterSent (n : Nat)
  /-- GAP_T15 (R322): The Modbus gap timer reaches T15 and fires SER_GAP. -/
  | gapT15 (n : Nat)
  /-- GAP_T35 (R322): The Modbus gap timer reaches T35, fires SER_GAP and marks the next character FIRST. -/
  | gapT35 (n : Nat)
  /-- SSI_START (R323): CMD SSI_START begins an SSI transfer. -/
  | ssiStart (n e : Nat)
  /-- SSI_TRANSFER_DONE (R323): An SSI transfer ends, writing SSI_DATA and firing SER_DATA. -/
  | ssiTransferDone (n : Nat) (bits : Word)
  /-- WURQ (R324): CMD WURQ drives the IO-Link wake-up request. -/
  | wurq (n e : Nat) (v : Word)
  /-- PKG_LOAD (R330): SYS_PKG_CMD LOAD authenticates and checks a package or program load. -/
  | pkgLoad (who : Ident) (e role tag : Nat)
  /-- PKG_LOAD_COMPLETE (R331): A passing load writes the engines' SRAM, starts them together and writes OK. -/
  | pkgLoadComplete
  /-- PKG_UNLOAD (R332): SYS_PKG_CMD UNLOAD stops and clears an instance's engines. -/
  | pkgUnload (who : Ident) (e tag : Nat)
  /-- INIT (R342): Time command INIT sets a domain's value and makes it UNSET. -/
  | timeInit (x tag : Nat) (who : Ident)
  /-- STEP (R343): Time command STEP adds an offset to a domain and makes it SET. -/
  | timeStep (x tag : Nat) (who : Ident)
  /-- RATE (R344): Time command RATE sets a SOFTWARE domain's rate and ends its holdover. -/
  | timeRate (x tag : Nat) (who : Ident)
  /-- LOCK (R348): Time command LOCK sets LOCKED on a SOFTWARE domain. -/
  | timeLock (x tag : Nat) (who : Ident)
  /-- UNLOCK (R348): Time command UNLOCK clears LOCKED on a SOFTWARE domain. -/
  | timeUnlock (x tag : Nat) (who : Ident)
  /-- SWITCH (R351): Time command SWITCH makes a domain active without stepping line time. -/
  | timeSwitch (x tag : Nat) (who : Ident)
  /-- SNAP (R356): Time command SNAP latches line time and both domains. -/
  | timeSnap (tag : Nat) (who : Ident)
  /-- TIME_CFG (R354): A write of TIME_CFG that changes TREF_25 relocks TCLK in LOAD or is refused outside it. -/
  | timeCfg (v : Word) (who : Ident)
  /-- TIME_DOM_CFG (R349): A write of a domain's configuration takes effect at once or at its next measurement. -/
  | timeDomCfg (x : Nat) (v : Word)
  /-- SOFTWARE_HOLDOVER_TIMEOUT (R348): A SOFTWARE domain without a RATE command for MISS_LIMIT x 250 ms enters
  HOLDOVER. -/
  | softwareHoldoverTimeout (x : Nat)
  /-- PPS_EDGE (R365): An edge on a PPS input captures line time, fires TIME_PPS and gives a measurement, or
  counts as BAD. -/
  | ppsEdge (n : Nat) (falling : Bool)
  /-- PPS_MISSING_MEASUREMENT (R346): 1.001 s without a valid PPS edge counts a missing measurement. -/
  | ppsMissingMeasurement (x : Nat)
  /-- TCLK_LOCK_RETURN (R354): TCLK lock returns, line time resumes from D0's repeater and both domains become
  UNSET. -/
  | tclkLockReturn
  /-- REPEATER_REFRESH (R358): Every 1 µs the time base refreshes each district's time repeater. -/
  | repeaterRefresh
  /-- TSQ_RELEASE (R364): A write of N to TSQ_RELEASE releases the N oldest queue entries. -/
  | tsqRelease (d : Nat) (v : Word) (who : Ident)
  /-- TIME_OUT_ARM (R366): A write of a pulse output's CTRL with MODE nonzero arms it. -/
  | timeOutArm (k : Nat) (v : Word)
  /-- PULSE_LEADING_EDGE (R366): A pulse output's leading edge is produced and fires TIME_PULSE, or is missed. -/
  | pulseLeadingEdge (k : Nat)
  /-- PULSE_TRAILING_EDGE (R366): A pulse output's trailing edge falls WIDTH ns after the leading edge. -/
  | pulseTrailingEdge (k : Nat)
  /-- DIRECT_WRITE (R381): A direct point write is applied to the image with any copy-on-write and LAST update. -/
  | directWrite (who : Ident) (p v : Nat)
  /-- WRITE_SET_ADD (R384): A write under an OPEN transaction adds a version to its write set. -/
  | writeSetAdd (who : Ident) (p v : Nat)
  /-- BAR2_READ (R455): A host BAR2 read returns memory, image or curve data. -/
  | bar2Read (who : Ident) (a : Nat) (x : Bar2Span)
  /-- BAR2_WRITE (R455): A host BAR2 write reaches its memory under the mode conditions or is refused. -/
  | bar2Write (who : Ident) (a n v : Nat)
  /-- CLEAR_SWEEP_DONE (R377): The image clear sweep completes and IMG_STAT.READY becomes 1. -/
  | clearSweepDone
  /-- IMG_BEGIN (R383): IMG_TXN BEGIN opens an image transaction in the lowest free slot. -/
  | imgBegin (who : Ident) (recipe : Bool)
  /-- IMG_COMMIT (R385): IMG_TXN COMMIT is queued for processing of its slot. -/
  | imgCommit (who : Ident) (t : Nat)
  /-- COMMIT_PROCESSING (R385): A COMMIT is processed through checks, copies and its commit point, or refused. -/
  | commitProcessing (whole : Bool)
  /-- SETTLE_COMPLETE (R385): A committed slot's PEND versions are rewritten and the slot becomes FREE. -/
  | settleComplete (t : Nat)
  /-- IMG_ROLLBACK (R390): IMG_TXN ROLLBACK discards a write set and frees the slot. -/
  | imgRollback (who : Ident) (t : Nat)
  /-- PIN (R392): IMG_PIN PIN pins a snapshot of a point range. -/
  | pin (who : Ident)
  /-- UNPIN (R393): IMG_PIN UNPIN releases a pin. -/
  | unpin (who : Ident) (k : Nat)
  /-- COW_RECORDS_FREED (R393): Copy-on-write records that served only a released pin return to the free count. -/
  | cowRecordsFreed
  /-- COW_WAIT_TIMEOUT (R396): A write or commit waiting for copy-on-write records is discarded or refused after
  WAIT_US. -/
  | cowWaitTimeout
  /-- SAMPLE_PROCESSING (R405): The reduction unit takes a sample from its input queue, tests it and integrates,
  curves, ends and exports it. -/
  | sampleProcessing (d : Nat) (ecc : Bool)
  /-- EXPORT (R417): SRU_CMD EXPORT writes a ledger entry's export points. -/
  | sruExport (who : Ident) (d n : Nat)
  /-- CLEAR (R417): SRU_CMD CLEAR makes a ledger entry IDLE with all fields 0. -/
  | clear (who : Ident) (d n : Nat)
  /-- LATCH (R417): SRU_CMD LATCH copies a ledger entry into SRU_LATCH0-77. -/
  | latch (who : Ident) (d n : Nat)
  /-- SRU_EOS_Q_READ (R413): A read of SRU_EOS_Q returns and removes the oldest end-of-step entry. -/
  | sruEosQRead (who : Ident) (d : Nat)
  /-- SRU_CTRL (R405): A write of SRU_CTRL.EN enables or disables sample processing between samples. -/
  | sruCtrl (who : Ident) (d : Nat) (en : Bool)
  /-- SELF_CHECK_FAILURE (R419): A datapath self-check failure sets FAULT and discards all later samples. -/
  | selfCheckFailure (d : Nat)
  /-- PAIR (R421): Twin command PAIR forms a pair, stops the spares and makes it PAIRED. -/
  | pair (who : Ident) (tag : Nat)
  /-- UNPAIR (R422): Twin command UNPAIR dissolves a pair in LOAD. -/
  | unpair (who : Ident) (tag : Nat)
  /-- RESYNC (R426): Twin command RESYNC resets a flow's context in every consumer. -/
  | resync (who : Ident) (tag : Nat)
  /-- RECLAIM (R436): Twin command RECLAIM reclaims one lease from its holder. -/
  | reclaim (who : Ident) (tag : Nat)
  /-- FAIL (R433): Twin command FAIL declares a member failed at once. -/
  | fail (who : Ident) (tag : Nat)
  /-- CKPT_LOAD (R441): Twin command CKPT_LOAD copies the MRAM checkpoint back into a slot's area. -/
  | ckptLoad (who : Ident) (tag : Nat)
  /-- HEARTBEAT_PERIOD_END (R431): A path 2 heartbeat period ends and a member without a pulse counts a miss,
  possibly being declared failed. -/
  | heartbeatPeriodEnd
  /-- RECLAIM_COMPLETE (R434): The failed member's reclaim completes, it is put in RESET and a spare is started or
  the pair degraded. -/
  | reclaimComplete (p m : Nat)
  /-- JOIN (R443): A write of GO to RED_JOIN by a RESTORING spare makes the pair PAIRED. -/
  | join (e : Nat)
  /-- RESTORE_TIMEOUT (R444): A spare not joined within RESTORE_MS is failed and the pair becomes SINGLE. -/
  | restoreTimeout (p m : Nat)
  /-- CHECKPOINT_COPY (R441): At each MRAM_100MS interval the supervisor copies new valid checkpoints to MRAM. -/
  | checkpointCopy
  /-- PROXY_SERIAL_FLUSH (R446): One character time after the last entry the port block writes a serial proxy IN
  record. -/
  | proxySerialFlush (d k : Nat)
  /-- WILERN_HEARTBEAT_TIMEOUT (R449): Missing SUPER messages for 3 x W1 cycles make the remote member failed. -/
  | wilernHeartbeatTimeout (p : Nat)
  /-- HOST_TX_DESCRIPTOR (R461): The Crossing takes a host transmit descriptor, tests it and classifies the frame
  as source 42. -/
  | hostTxDescriptor
  /-- MBX_HRX_HEAD (R459): The owner's write of MBX_HRX_HEAD returns host receive descriptors. -/
  | mbxHrxHead (who : Ident) (v : Word)
  /-- MBX_HTX_TAIL (R461): The owner's write of MBX_HTX_TAIL offers host transmit descriptors. -/
  | mbxHtxTail (who : Ident) (v : Word)
  /-- MBX_HOST_CFG (R451): A write of MBX_HOST_CFG sets functions and frame rings, refused outside LOAD for NFN.
  -/
  | mbxHostCfg (who : Ident) (v : Word)
  /-- MBX_SUP_NOTE (R457): The supervisor's write of MBX_SUP_NOTE makes SUP_NOTE pending. -/
  | mbxSupNote (who : Ident) (v : Word)
  /-- SPI_WRITE (R462): A management SPI write command writes BAR0 words as host function 7. -/
  | spiWrite (cmd : BitVec 8) (a : Nat) (words : List Word) (cut : Bool)
  /-- SPI_READ (R462): A management SPI read command shifts out BAR0 words as host function 7. -/
  | spiRead (cmd : BitVec 8) (a n : Nat) (cut : Bool)
  /-- OPEN (R466): MBX_CMD OPEN makes the writer holder of a free channel. -/
  | mbxOpen (who : Ident) (c depth dbit : Nat) (any : Bool) (allow : Ident)
  /-- CLOSE (R466): MBX_CMD CLOSE frees the holder's channel, revoking queued messages. -/
  | close (who : Ident) (c : Nat)
  /-- REVOKE (R466): MBX_CMD REVOKE by the supervisor frees a channel, revoking queued messages. -/
  | revoke (who : Ident) (c : Nat)
  /-- SEND (R467): A write of MBX_SEND sends a message to a channel, which queues it and rings its doorbell or
  refuses it. -/
  | send (who : Ident) (c len : Nat) (remote : Option Nat)
  /-- ACK (R469): The holder's write of MBX_CHACK removes the oldest message and returns its code to the sender.
  -/
  | ack (who : Ident) (c : Nat) (code : BitVec 16)
  /-- MBX_ABORT (R470): The supervisor's write of MBX_ABORT ends an outstanding send with REVOKED. -/
  | mbxAbort (who : Ident) (k : Nat)
  /-- MBX_RING (R472): A write of MBX_RING rings a doorbell bit of a receiver. -/
  | mbxRing (who t : Ident) (b : Nat)
  /-- MBX_DBMASK (R472): A write of MBX_DBMASK that unmasks a pending doorbell fires MBX_DBELL or DBf. -/
  | mbxDbmask (who : Ident) (v : Word)
  /-- ISLAND_SELF_TEST_DONE (R478): The island's self-test completes and it enters NOCONFIG or FAULT. -/
  | islandSelfTestDone (how : SelfTest)
  /-- ISLAND_CYCLE (R479): Each 1 ms island cycle applies messages, evaluates demands and envelope, drives STO,
  sends PDUs and writes the mirror. -/
  | islandCycle (readback : BitVec 8) (err : IslandErr)
  /-- SAFE_INPUT_SAMPLE (R484): Safe inputs and seals are sampled every 100 µs and filtered. -/
  | safeInputSample (seals : BitVec 16) (a b : BitVec 8)
  /-- MODE_MESSAGE (R486): A mode message from the supervisor reaches channel 63. -/
  | modeMessage
  /-- PERMIT_TIMEOUT (R486): 20 ms without a mode message is a demand with ramp. -/
  | permitTimeout
  /-- MODE_LINE_BOOT (R486): The mode line showing BOOT or reset de-energises every STO output by hardware. -/
  | modeLineBoot
  /-- STAGE (R482): Download message STAGE writes data into the island's staging buffer. -/
  | stage
  /-- STORE (R482): Download message STORE writes a parameter set to safety MRAM and reads it back. -/
  | store (readback : Bool)
  /-- BLACK_CHANNEL_PDU (R499): A black-channel PDU from BC_ID reaches the island. -/
  | blackChannelPdu (valid up : Bool) (speed : BitVec 32) (sto : Bool)
  /-- CONNECTION_LOSS (R500): WDG_MS without a valid PDU loses a connection, a demand with ramp in RELEASED. -/
  | connectionLoss (c : Nat)
  /-- PDU_RESEND (R476): A PDU refused with BUSY is offered again every 100 µs until the cycle ends. -/
  | pduResend (c : Nat)
  /-- CHANNEL_REOPEN (R474): The island reopens a revoked channel within 1 ms. -/
  | channelReopen
  /-- DARK_TEST (R493): An energised STO output is dark-tested every DARK_S seconds and its read-back checked. -/
  | darkTest (k : Nat) (lowA lowB : Bool)
  /-- ISLAND_WATCHDOG (R501): An island cycle not completed within 1.1 ms de-energises every STO by hardware and
  latches FAULT. -/
  | islandWatchdog
  /-- OSC (R501): SAFE_OSC stops, STO is de-energised by hardware and FAULT latched. -/
  | osc
  /-- LOCKSTEP (R501): An island lockstep mismatch latches FAULT. -/
  | lockstep
  /-- SAFE_LOW_STORE_BLOCK (R502): VDD_SAFE below 3.10 V refuses STORE with NV_LOWV. -/
  | safeLowStoreBlock (low : Bool)
  /-- BROWNOUT (R502): VDD_SAFE below 3.00 V for 10 µs de-energises every STO and enters FAULT. -/
  | brownout
  /-- ISLAND_RESET (R502): VDD_SAFE below 2.70 V holds the island in reset with its pads high-impedance. -/
  | islandReset
  /-- ISLAND_RESET_RELEASE (R502): VDD_SAFE above 3.00 V for 10 ms releases the island into INIT. -/
  | islandResetRelease
  /-- SUPPLY_MONITOR_ASSERT (R509): CORE_LOW, IO_LOW or NV_LOW asserts, blocking NV writes and raising PWR_WARN.
  -/
  | supplyMonitorAssert (m : Nat)
  /-- BLOCK_RELEASE (R510): All three monitors clean for 100 µs release BLOCK. -/
  | blockRelease
  /-- VMON_UPDATE (R509): Measured supply voltages are updated every 100 µs. -/
  | vmonUpdate (core sram nv io : BitVec 12)
  /-- READ (R517): NV command READ loads an MRAM row into NV_DATA0-15. -/
  | nvRead (who : Ident) (errs : List MramFault)
  /-- WRITE (R517): NV command WRITE writes NV_DATA0-15 into an MRAM row. -/
  | nvWrite (who : Ident)
  /-- COPY (R517): NV command COPY copies rows from the boot window to MRAM. -/
  | nvCopy (who : Ident) (rows : Nat)
  /-- ROW_WRITE_DONE (R514): An MRAM row write completes atomically and the next row of a command may start. -/
  | rowWriteDone
  /-- OTP_KEY (R520): NV command OTP_KEY programs a key slot hash. -/
  | otpKey (who : Ident)
  /-- OTP_REVOKE (R520): NV command OTP_REVOKE revokes a key slot. -/
  | otpRevoke (who : Ident)
  /-- OTP_FLOOR (R520): NV command OTP_FLOOR raises a security floor. -/
  | otpFloor (who : Ident)
  /-- OTP_PROGRAM_DONE (R520): An OTP program completes and the command writes its result. -/
  | otpProgramDone
  /-- BYPASS (R525): JTAG instruction BYPASS. -/
  | bypass
  /-- IDCODE (R525): JTAG instruction IDCODE. -/
  | idcode
  /-- SAMPLE_PRELOAD (R525): JTAG instruction SAMPLE/PRELOAD, accepted only while PORST_N is low. -/
  | samplePreload
  /-- EXTEST (R525): JTAG instruction EXTEST, accepted only while PORST_N is low. -/
  | extest
  /-- JTAG_TRST_N (R525): JTAG_TRST_N low holds the test logic reset. -/
  | jtagTrstN (low : Bool)
  /-- REGISTER_READ (R12): A register read returns current values, clears the RC fields whose bytes it returns
  whole, and latches the paired high register of TSQ_RPT_LO, IMG_EPOCH_LO and the like. -/
  | registerRead (who : Ident) (a n : Nat)
  /-- PORST_N (R529): PORST_N driven low puts and holds the device in reset until its release. -/
  | porstN
  /-- CORE_RESET_RELEASE (R512): VDD_CORE above 0.715 V for 1 ms releases CORE_RESET, and with PORST_N high the
  device leaves reset and enters BOOT. -/
  | coreResetRelease
  /-- WURQ_END (R324): 6,400 CCLK cycles after a WURQ the line releases TX and DE from the wake-up request. -/
  | wurqEnd (n : Nat)
  /-- SSI_PAUSE_END (R323): T35 µs after the last SSI clock edge the pause ends and SSI_BUSY falls, so a new
  SSI_START is accepted. -/
  | ssiPauseEnd (n : Nat)
  /-- RX_IDLE_TIME (R321): With HALF = 1 in UART mode, once the RX ball has been idle for one character time the
  bytes waiting in the transmit ring start to be sent. -/
  | rxIdleTime (n : Nat)
  /-- ENCODER_SAMPLE (R495): Encoder inputs A, B and Z are sampled every 10 ns, counting edges and detecting the
  ENC fault of simultaneous A and B changes or a wrong count between Z edges. -/
  | encoderSample (n : Nat) (a b z : Bool)
  /-- SLEWING_END (R350): When the difference between line time and the active domain falls to 1 ns SLEWING
  clears, and when it reaches 0 EXACT sets. -/
  | slewingEnd
  deriving DecidableEq, Repr

end Sys2Proof
end

