-- ==== Sys2Proof/Config.lean ====
section
/-!
DEFINITION. What an implementation fixes: the three variants of Table SCOPE-1 with the numbers that
differ between them, and the constants without a body for what the manual leaves to another standard or
leaves open. Nothing can be proved about a constant without a body but what holds of every value.
-/

namespace Sys2Proof

/-- The variants of R1. -/
inductive Variant where
  | ixd7240 | ixd7220 | ixd7210
  deriving DecidableEq, Repr

namespace Variant

/-- Districts present (Table SCOPE-1). -/
def districts : Variant → Nat
  | ixd7240 => 8 | ixd7220 => 4 | ixd7210 => 2

/-- Engines present: twelve per district (R32). -/
def engines (v : Variant) : Nat := 12 * v.districts

/-- SYS_CAP0–3 at stepping A2 (Table SCOPE-6). -/
def cap : Variant → Nat → Nat
  | ixd7240, 0 => 0x05FF0CFF | ixd7240, 1 => 0xFFFFFFFF | ixd7240, 2 => 0xFFFFFFFF | ixd7240, 3 => 0x0012194F
  | ixd7220, 0 => 0x030F0C0F | ixd7220, 1 => 0x3F0FFFFF | ixd7220, 2 => 0x00FF00FF | ixd7220, 3 => 0x00121820
  | ixd7210, 0 => 0x00000C03 | ixd7210, 1 => 0x010300FF | ixd7210, 2 => 0x00FF00FF | ixd7210, 3 => 0x00121710
  | _, _ => 0

/-- Ethernet port `n` is present (SYS_CAP1 and SYS_CAP3[1:0]). -/
def hasPort (v : Variant) (n : Nat) : Bool :=
  if n < 32 then (v.cap 1).testBit n else if n < 34 then (v.cap 3).testBit (n - 32) else false

/-- CAN controller `n` is present (SYS_CAP2[15:0]). -/
def hasCan (v : Variant) (n : Nat) : Bool := n < 16 && (v.cap 2).testBit n

/-- Serial line `n` is present (SYS_CAP2[31:16]). -/
def hasSer (v : Variant) (n : Nat) : Bool := n < 16 && (v.cap 2).testBit (16 + n)

/-- Wilern ports are present. -/
def hasWilern : Variant → Bool
  | ixd7240 => true | _ => false

/-- Reduction units are present. -/
def hasSru : Variant → Bool
  | ixd7210 => false | _ => true

/-- The safety island is present. -/
def hasIsland : Variant → Bool
  | ixd7210 => false | _ => true

/-- Twin pairs are supported, within the chip at least. -/
def hasTwin : Variant → Bool
  | ixd7210 => false | _ => true

/-- Twin pairs: 48, 24 or none (R420). -/
def pairs : Variant → Nat
  | ixd7240 => 48 | ixd7220 => 24 | ixd7210 => 0

/-- Process-image points (R368). -/
def points : Variant → Nat
  | ixd7240 => 33554432 | ixd7220 => 16777216 | ixd7210 => 8388608

/-- Image transaction slots (R383). -/
def imgSlots : Variant → Nat
  | ixd7240 => 64 | ixd7220 => 32 | ixd7210 => 16

/-- Copy-on-write records (Table IMG-3). -/
def cowRecords : Variant → Nat
  | ixd7240 => 8388608 | ixd7220 => 4194304 | ixd7210 => 6291456

end Variant

namespace Config

/-- The value the manual leaves open, one for each draw of the state's counter `free`. -/
opaque freeValue : Nat → Nat

/-- SHA-384 of a string of bytes (R59); its definition is another standard's. -/
opaque sha384 : List Byte → Nat

/-- Validity of an ECDSA P-384 signature over SHA-384 (R59): public key, message, signature. -/
opaque ecdsaP384 : List Byte → List Byte → List Byte → Bool

/-- Hash of key slot 0, Kolwald's key, from manufacture (R520). -/
opaque kolwaldKey : Nat

/-- The twin pair that owns a flow, as the supervisor learned it from interface descriptions (R427). -/
opaque flowPair : Nat → Option Nat

/-- The SECDED check bits of an Avenue beat, over its data bits and bits [2:0] of its sideband (Table AVE-2). -/
opaque beatEcc : Nat → Nat

/-- The bytes of a safety PDU under its profile (R499): profile, safety address, the safe data byte to the drive,
and the draw that stands for the profile's running state. -/
opaque bcPdu : Nat → Nat → Nat → Nat → List Byte

end Config

end Sys2Proof
end

