-- ==== Sys2Proof/Machine/Regs.lean ====
section
/-!
DEFINITION. The register map: the BAR0 offset of every register (Table ARCH-8 and the unit chapters), the
fields of each, and one row per register with its access codes (Table SCOPE-8) and its reset value. The
offsets and fields are those of the field tables of the unit chapters, under the manual's own names.
-/

namespace Sys2Proof.Machine

/-- A field of a register: its offset, lowest bit and width. -/
structure Fld where
  reg : Nat
  lo : Nat
  width : Nat
  deriving DecidableEq, Repr

/-- The window of engine `e` (R32, Tables ARCH-8 and ARCH-9). -/
def engBase (e : Nat) : Nat := 0x1010000 + (e / 12) * 0x100000 + (e % 12) * 0x1000

/-- The control block of an image identity (R397): 0–7 host functions, 8 the supervisor, 16 + e engine e.
An engine's block lies in IMAGE space only; the model keys it above the 64 MiB of BAR0. -/
def imgBlk (b : Nat) : Nat := if b < 16 then 0x701000 + b * 0x80 else 0x5000000 + b * 0x80

/-- 00_scope.md R3: Presence of districts, reduction units, safety island and twin support -/
def Reg.SYS_CAP0 : Nat := 0x10
/-- 00_scope.md R3: Presence of Ethernet ports P0–P31 -/
def Reg.SYS_CAP1 : Nat := 0x14
/-- 00_scope.md R3: Presence of CAN controllers and serial lines -/
def Reg.SYS_CAP2 : Nat := 0x18
/-- 00_scope.md R3: Ports P32–P33, Wilern ports, memory size and stepping -/
def Reg.SYS_CAP3 : Nat := 0x1c
/-- 00_scope.md R6: First access to an absent unit's window -/
def Reg.SYS_ABSENT_HIT : Nat := 0x20
/-- 01_architecture.md R24: Clock lock status and loss record -/
def Reg.SYS_CLK_STAT : Nat := 0x24
/-- 02_modes_and_startup.md R42: Current mode and mode status -/
def Reg.SYS_MODE : Nat := 0x30
/-- 02_modes_and_startup.md R54: Causes of resets since power-on -/
def Reg.SYS_RESET_CAUSE : Nat := 0x40
/-- 02_modes_and_startup.md R57: Boot progress and outcome -/
def Reg.SYS_BOOT_STAT : Nat := 0x44
/-- 02_modes_and_startup.md R57: Host push start -/
def Reg.SYS_BOOT_CTRL : Nat := 0x48
/-- 02_modes_and_startup.md R62: Mode command -/
def Reg.SYS_MODE_CMD : Nat := 0x34
/-- 02_modes_and_startup.md R65: Outcome of the last executed mode command -/
def Reg.SYS_MODE_RESULT : Nat := 0x38
/-- 02_modes_and_startup.md R66: WRONG_STATE outcomes -/
def Reg.SYS_WRONG_STATE_CNT : Nat := 0x3c
/-- 02_modes_and_startup.md R70: Configuration transaction verb and state -/
def Reg.XING_TXN_CTRL : Nat := 0x300010
/-- 02_modes_and_startup.md R70: Configuration transaction verb and state -/
def Reg.AVE_TXN_CTRL : Nat := 0x600010
/-- 02_modes_and_startup.md R70: Configuration transaction verb and state -/
def Reg.RND_TXN_CTRL (d : Nat) : Nat := 0x1000010 + d * 0x100000
/-- 02_modes_and_startup.md R70: Configuration transaction verb and state -/
def Reg.ETH_TXN_CTRL (n : Nat) : Nat := 0x400010 + n * 0x1000
/-- 02_modes_and_startup.md R70: Configuration transaction verb and state -/
def Reg.SRU_TXN_CTRL (d : Nat) : Nat := 0x1020010 + d * 0x100000
/-- 02_modes_and_startup.md R70: Outcome of the last verb -/
def Reg.XING_TXN_STAT : Nat := 0x300014
/-- 02_modes_and_startup.md R70: Outcome of the last verb -/
def Reg.AVE_TXN_STAT : Nat := 0x600014
/-- 02_modes_and_startup.md R70: Outcome of the last verb -/
def Reg.RND_TXN_STAT (d : Nat) : Nat := 0x1000014 + d * 0x100000
/-- 02_modes_and_startup.md R70: Outcome of the last verb -/
def Reg.ETH_TXN_STAT (n : Nat) : Nat := 0x400014 + n * 0x1000
/-- 02_modes_and_startup.md R70: Outcome of the last verb -/
def Reg.SRU_TXN_STAT (d : Nat) : Nat := 0x1020014 + d * 0x100000
/-- 03_engine_instructions.md R99: Polynomial of CRC table entry k -/
def Reg.CE_CRC_POLY (e : Nat) (k : Nat) : Nat := engBase e + 0x100 + k * 0x8
/-- 03_engine_instructions.md R99: Width and bit order of CRC table entry k -/
def Reg.CE_CRC_CFG (e : Nat) (k : Nat) : Nat := engBase e + 0x104 + k * 0x8
/-- 04_engine_control_and_events.md R118: Source of event line n -/
def Reg.CE_EVT_SEL (e : Nat) (k : Nat) : Nat := engBase e + 0x200 + k * 0x4
/-- 04_engine_control_and_events.md R121: Event merges at the engine boundary -/
def Reg.CE_EVT_OVR (e : Nat) : Nat := engBase e + 0xc
/-- 04_engine_control_and_events.md R138: Address or target of the last fault -/
def Reg.CE_FAULT_ADDR (e : Nat) : Nat := engBase e + 0x8
/-- 04_engine_control_and_events.md R143: Engine watchdog configuration -/
def Reg.CE_WDOG (e : Nat) : Nat := engBase e + 0x18
/-- 04_engine_control_and_events.md R143: Watchdog reload -/
def Reg.CE_WDOG_KICK (e : Nat) : Nat := engBase e + 0x1c
/-- 04_engine_control_and_events.md R144: Lower bound of the stack window -/
def Reg.CE_STACK_BASE (e : Nat) : Nat := engBase e + 0x10
/-- 04_engine_control_and_events.md R144: Upper bound of the stack window -/
def Reg.CE_STACK_LIMIT (e : Nat) : Nat := engBase e + 0x14
/-- 04_engine_control_and_events.md R146: Engine run control -/
def Reg.CE_CTRL (e : Nat) : Nat := engBase e + 0x0
/-- 04_engine_control_and_events.md R146: Engine state, level and halt cause -/
def Reg.CE_STAT (e : Nat) : Nat := engBase e + 0x4
/-- 04_engine_control_and_events.md R149: First reclaimed lease -/
def Reg.CE_LEASE_LOST (e : Nat) : Nat := engBase e + 0x20
/-- 04_engine_control_and_events.md R149: Reclaim count and explicit leases held -/
def Reg.CE_LEASE_STAT (e : Nat) : Nat := engBase e + 0x24
/-- 05_district_round.md R151: District SRAM errors and refused writes -/
def Reg.RND_SRAM_ERR (d : Nat) : Nat := 0x100001c + d * 0x100000
/-- 05_district_round.md R155: Bounds of LOCK region r -/
def Reg.RND_LOCK (d : Nat) (r : Nat) : Nat := 0x1000300 + d * 0x100000 + r * 0x4
/-- 05_district_round.md R155: Holder of LOCK region r -/
def Reg.RND_LOCK_HOLD (d : Nat) (r : Nat) : Nat := 0x1000400 + d * 0x100000 + r * 0x4
/-- 05_district_round.md R157: Ethernet ports P0–P31 bound to this district -/
def Reg.RND_BIND_ETH0 (d : Nat) : Nat := 0x1000020 + d * 0x100000
/-- 05_district_round.md R157: Ethernet ports P32–P33 bound to this district -/
def Reg.RND_BIND_ETH1 (d : Nat) : Nat := 0x1000024 + d * 0x100000
/-- 05_district_round.md R157: CAN controllers and serial lines bound to this district -/
def Reg.RND_BIND_CS (d : Nat) : Nat := 0x1000028 + d * 0x100000
/-- 05_district_round.md R164: Owner of data slice word w -/
def Reg.RND_SLICE (d : Nat) (w : Nat) : Nat := 0x1000100 + d * 0x100000 + w * 0x4
/-- 05_district_round.md R164: Comparison and clearing of commons word w -/
def Reg.RND_COMMON_CFG (d : Nat) (w : Nat) : Nat := 0x1000200 + d * 0x100000 + w * 0x4
/-- 05_district_round.md R164: Result of commons word w in the last completed Round -/
def Reg.RND_COMMON_RES (d : Nat) (w : Nat) : Nat := 0x1000240 + d * 0x100000 + w * 0x4
/-- 05_district_round.md R164: Frame word w as it left the header at the last start -/
def Reg.RND_FRAME (d : Nat) (w : Nat) : Nat := 0x1000800 + d * 0x100000 + w * 0x4
/-- 05_district_round.md R166: Round run control -/
def Reg.RND_CTRL (d : Nat) : Nat := 0x1000000 + d * 0x100000
/-- 05_district_round.md R166: Round state and generation -/
def Reg.RND_STAT (d : Nat) : Nat := 0x1000004 + d * 0x100000
/-- 05_district_round.md R166: Round period and phase -/
def Reg.RND_PERIOD (d : Nat) : Nat := 0x1000008 + d * 0x100000
/-- 05_district_round.md R167: Round fault counters -/
def Reg.RND_FAULT (d : Nat) : Nat := 0x1000018 + d * 0x100000
/-- 06_avenue_backbone.md R183: Bounds of ring q of the gateway of Dd (q = 0 TX ring 0, 1 TX ring 1, 2 RX ring) -/
def Reg.AVE_GW_RING (d : Nat) (q : Nat) : Nat := 0x601000 + d * 0x100 + q * 0x4
/-- 06_avenue_backbone.md R183: Ring pointers -/
def Reg.AVE_GW_PTR (d : Nat) (q : Nat) : Nat := 0x601010 + d * 0x100 + q * 0x4
/-- 06_avenue_backbone.md R183: Slice forward entry j of the gateway of Dd -/
def Reg.AVE_GW_FWD (d : Nat) (j : Nat) : Nat := 0x601040 + d * 0x100 + j * 0x4
/-- 06_avenue_backbone.md R183: Gateway discards -/
def Reg.AVE_GW_CNT (d : Nat) : Nat := 0x601080 + d * 0x100
/-- 06_avenue_backbone.md R187: Cycle length and segments -/
def Reg.AVE_SCHED : Nat := 0x600008
/-- 06_avenue_backbone.md R187: Cycle of application -/
def Reg.AVE_APPLY : Nat := 0x60000c
/-- 06_avenue_backbone.md R187: Owner and scope of static slot k -/
def Reg.AVE_SLOT (k : Nat) : Nat := 0x600100 + k * 0x4
/-- 06_avenue_backbone.md R202: Spare-slot claim -/
def Reg.AVE_CLAIM : Nat := 0x600030
/-- 06_avenue_backbone.md R202: Outcome of the last claim -/
def Reg.AVE_CLAIM_STAT : Nat := 0x600034
/-- 06_avenue_backbone.md R202: Entry i of the spare table -/
def Reg.AVE_SPARE_OWN (i : Nat) : Nat := 0x600200 + i * 0x4
/-- 06_avenue_backbone.md R209: State of Wilern port Wn -/
def Reg.AVE_WLN_STAT (n : Nat) : Nat := 0x600800 + n * 0x80
/-- 06_avenue_backbone.md R209: Ring map summary -/
def Reg.AVE_RING_STAT : Nat := 0x600050
/-- 06_avenue_backbone.md R209: Wilern enables and forced re-integration -/
def Reg.AVE_CTRL : Nat := 0x600000
/-- 06_avenue_backbone.md R209: Avenue state and flags -/
def Reg.AVE_STAT : Nat := 0x600004
/-- 06_avenue_backbone.md R209: Chip number and start-up roles -/
def Reg.AVE_ID : Nat := 0x600018
/-- 06_avenue_backbone.md R209: Current cycle number -/
def Reg.AVE_CYCLE_NUM : Nat := 0x60001c
/-- 06_avenue_backbone.md R209: Last offset and rate -/
def Reg.AVE_OFFSET : Nat := 0x600020
/-- 06_avenue_backbone.md R209: Reference and frame faults -/
def Reg.AVE_CNT0 : Nat := 0x600040
/-- 06_avenue_backbone.md R209: Delivery and ring faults -/
def Reg.AVE_CNT1 : Nat := 0x600044
/-- 07_crossing_switch.md R256: Crossing status -/
def Reg.XING_STAT : Nat := 0x300004
/-- 07_crossing_switch.md R256: Table generations -/
def Reg.XING_GEN_STAT : Nat := 0x300008
/-- 07_crossing_switch.md R256: Table access address -/
def Reg.XING_TBL_ADDR : Nat := 0x300020
/-- 07_crossing_switch.md R256: Table access command -/
def Reg.XING_TBL_CMD : Nat := 0x300024
/-- 07_crossing_switch.md R256: Table entry word i, i = 0–3 -/
def Reg.XING_TBL_DATA (i : Nat) : Nat := 0x300030 + i * 0x4
/-- 07_crossing_switch.md R256: Free cells -/
def Reg.XING_BUF_STAT : Nat := 0x300040
/-- 07_crossing_switch.md R256: Buffer reserves -/
def Reg.XING_BUF_CFG : Nat := 0x300044
/-- 07_crossing_switch.md R256: Leased cells -/
def Reg.XING_BUF_LEASE : Nat := 0x300048
/-- 07_crossing_switch.md R256: Lamplighter reclaims -/
def Reg.XING_LAMP_STAT : Nat := 0x300050
/-- 07_crossing_switch.md R256: Lamplighter rounds and stale uses -/
def Reg.XING_LAMP_ROUND : Nat := 0x300054
/-- 07_crossing_switch.md R256: Redundancy flow duplicates discarded -/
def Reg.XING_DUP_DROP : Nat := 0x300058
/-- 07_crossing_switch.md R256: Alley target -/
def Reg.XING_ALLEY : Nat := 0x300060
/-- 07_crossing_switch.md R256: Last drop -/
def Reg.XING_DROP_LAST : Nat := 0x300070
/-- 07_crossing_switch.md R256: Drops of reason r -/
def Reg.XING_DROP (r : Nat) : Nat := 0x300100 + r * 0x4
/-- 07_crossing_switch.md R256: State of group g -/
def Reg.XING_LAG_STAT (g : Nat) : Nat := 0x300080 + g * 0x4
/-- 07_crossing_switch.md R256: Occupancy of queue Qq -/
def Reg.XING_QDEPTH (q : Nat) : Nat := 0x301000 + q * 0x4
/-- 08_ethernet_ports.md R261: Port enable -/
def Reg.ETH_CTRL (n : Nat) : Nat := 0x400000 + n * 0x1000
/-- 08_ethernet_ports.md R261: Link and forwarding state -/
def Reg.ETH_STAT (n : Nat) : Nat := 0x400004 + n * 0x1000
/-- 08_ethernet_ports.md R261: Speed, framing and role -/
def Reg.ETH_CFG (n : Nat) : Nat := 0x400008 + n * 0x1000
/-- 08_ethernet_ports.md R261: Link hold time -/
def Reg.ETH_HOLD (n : Nat) : Nat := 0x400018 + n * 0x1000
/-- 08_ethernet_ports.md R265: PLCA parameters -/
def Reg.ETH_PLCA (n : Nat) : Nat := 0x40000c + n * 0x1000
/-- 08_ethernet_ports.md R280: Through-path pairing -/
def Reg.ETH_THRU (n : Nat) : Nat := 0x40001c + n * 0x1000
/-- 08_ethernet_ports.md R283: Counter snapshot -/
def Reg.ETH_SNAP (n : Nat) : Nat := 0x400030 + n * 0x1000
/-- 08_ethernet_ports.md R283: Half-range flags -/
def Reg.ETH_CNT_HALF0 (n : Nat) : Nat := 0x400034 + n * 0x1000
/-- 08_ethernet_ports.md R283: Half-range flags -/
def Reg.ETH_CNT_HALF1 (n : Nat) : Nat := 0x400038 + n * 0x1000
/-- 08_ethernet_ports.md R283: Half-range interrupt enables -/
def Reg.ETH_CNT_IEN0 (n : Nat) : Nat := 0x40003c + n * 0x1000
/-- 08_ethernet_ports.md R283: Half-range interrupt enables -/
def Reg.ETH_CNT_IEN1 (n : Nat) : Nat := 0x400040 + n * 0x1000
/-- 08_ethernet_ports.md R283: Live and snapshot value of counter i -/
def Reg.ETH_CNT (n : Nat) (i : Nat) : Nat := 0x400100 + n * 0x1000 + i * 0x4
/-- 08_ethernet_ports.md R283: Live and snapshot value of counter i -/
def Reg.ETH_SNAP_CNT (n : Nat) (i : Nat) : Nat := 0x400200 + n * 0x1000 + i * 0x4
/-- 09_can_fd_controllers.md R316: Controller enable -/
def Reg.CAN_CTRL (n : Nat) : Nat := 0x500000 + n * 0x1000
/-- 09_can_fd_controllers.md R316: Nominal bit timing -/
def Reg.CAN_NBT (n : Nat) : Nat := 0x50000c + n * 0x1000
/-- 09_can_fd_controllers.md R316: Data bit timing and delay compensation -/
def Reg.CAN_DBT (n : Nat) : Nat := 0x500010 + n * 0x1000
/-- 09_can_fd_controllers.md R316: Frame formats and stamping -/
def Reg.CAN_CFG (n : Nat) : Nat := 0x500008 + n * 0x1000
/-- 09_can_fd_controllers.md R316: Operating and confinement state -/
def Reg.CAN_STAT (n : Nat) : Nat := 0x500004 + n * 0x1000
/-- 09_can_fd_controllers.md R316: Error counters -/
def Reg.CAN_ECNT (n : Nat) : Nat := 0x500014 + n * 0x1000
/-- 09_can_fd_controllers.md R316: Controller command -/
def Reg.CAN_CMD (n : Nat) : Nat := 0x500018 + n * 0x1000
/-- 09_can_fd_controllers.md R316: Outcome of the last command -/
def Reg.CAN_CMD_RES (n : Nat) : Nat := 0x50001c + n * 0x1000
/-- 09_can_fd_controllers.md R316: Measured loop delay -/
def Reg.CAN_TDC_STAT (n : Nat) : Nat := 0x500020 + n * 0x1000
/-- 09_can_fd_controllers.md R316: Last bus error -/
def Reg.CAN_ERRLOG (n : Nat) : Nat := 0x500024 + n * 0x1000
/-- 09_can_fd_controllers.md R316: Frame counters -/
def Reg.CAN_CNT0 (n : Nat) : Nat := 0x500028 + n * 0x1000
/-- 09_can_fd_controllers.md R316: Frame counters -/
def Reg.CAN_CNT1 (n : Nat) : Nat := 0x50002c + n * 0x1000
/-- 09_can_fd_controllers.md R316: Start-of-frame counter -/
def Reg.CAN_SOF_CNT (n : Nat) : Nat := 0x500030 + n * 0x1000
/-- 09_can_fd_controllers.md R316: Identifier of receive object o -/
def Reg.CAN_RXID (n : Nat) (o : Nat) : Nat := 0x500400 + n * 0x1000 + o * 0x4
/-- 10_serial_lines.md R325: Line enable -/
def Reg.SER_CTRL (n : Nat) : Nat := 0x580000 + n * 0x400
/-- 10_serial_lines.md R325: Line state -/
def Reg.SER_STAT (n : Nat) : Nat := 0x580004 + n * 0x400
/-- 10_serial_lines.md R325: Mode and framing -/
def Reg.SER_CFG (n : Nat) : Nat := 0x580008 + n * 0x400
/-- 10_serial_lines.md R325: Bit time -/
def Reg.SER_RATE (n : Nat) : Nat := 0x58000c + n * 0x400
/-- 10_serial_lines.md R325: Gap thresholds -/
def Reg.SER_GAP (n : Nat) : Nat := 0x580010 + n * 0x400
/-- 10_serial_lines.md R325: Driver-enable timing -/
def Reg.SER_DE (n : Nat) : Nat := 0x580014 + n * 0x400
/-- 10_serial_lines.md R325: Character faults -/
def Reg.SER_CNT (n : Nat) : Nat := 0x580018 + n * 0x400
/-- 11_protocol_packages.md R328: Package load command -/
def Reg.SYS_PKG_CMD : Nat := 0x80
/-- 11_protocol_packages.md R328: Outcome of the last package command -/
def Reg.SYS_PKG_RES : Nat := 0x84
/-- 11_protocol_packages.md R328: Instance held by engine e -/
def Reg.SYS_PKG_ENG (e : Nat) : Nat := 0x400 + e * 0x4
/-- 12_time_base.md R356: Time-base command -/
def Reg.TIME_CMD : Nat := 0x200000
/-- 12_time_base.md R356: Outcome of the last command -/
def Reg.TIME_CMD_RES : Nat := 0x200004
/-- 12_time_base.md R356: Line time state -/
def Reg.TIME_STAT : Nat := 0x200008
/-- 12_time_base.md R356: Reference, switching and slew -/
def Reg.TIME_CFG : Nat := 0x20000c
/-- 12_time_base.md R356: Command argument i, i = 0–3 -/
def Reg.TIME_ARG (i : Nat) : Nat := 0x200010 + i * 0x4
/-- 12_time_base.md R356: Source and servo of domain x (0 A, 1 B) -/
def Reg.TIME_DOM_CFG (x : Nat) : Nat := 0x200040 + x * 0x40
/-- 12_time_base.md R356: State of domain x -/
def Reg.TIME_DOM_STAT (x : Nat) : Nat := 0x200044 + x * 0x40
/-- 12_time_base.md R356: Rate and last offset of domain x -/
def Reg.TIME_DOM_RATE_LO (x : Nat) : Nat := 0x200048 + x * 0x40
/-- 12_time_base.md R356: Rate and last offset of domain x -/
def Reg.TIME_DOM_RATE_HI (x : Nat) : Nat := 0x20004c + x * 0x40
/-- 12_time_base.md R356: Rate and last offset of domain x -/
def Reg.TIME_DOM_OFFSET (x : Nat) : Nat := 0x200050 + x * 0x40
/-- 12_time_base.md R356: Snapshot of line time (v = 0), Domain A (v = 1) and Domain B (v = 2) -/
def Reg.TIME_SNAP_SEC_LO (v : Nat) : Nat := 0x200100 + v * 0x10
/-- 12_time_base.md R356: Snapshot of line time (v = 0), Domain A (v = 1) and Domain B (v = 2) -/
def Reg.TIME_SNAP_SEC_HI (v : Nat) : Nat := 0x200104 + v * 0x10
/-- 12_time_base.md R356: Snapshot of line time (v = 0), Domain A (v = 1) and Domain B (v = 2) -/
def Reg.TIME_SNAP_NS (v : Nat) : Nat := 0x200108 + v * 0x10
/-- 12_time_base.md R356: Snapshot of line time (v = 0), Domain A (v = 1) and Domain B (v = 2) -/
def Reg.TIME_SNAP_SUB (v : Nat) : Nat := 0x20010c + v * 0x10
/-- 12_time_base.md R358: Repeater value -/
def Reg.TSQ_RPT_LO (d : Nat) : Nat := 0x1030000 + d * 0x100000
/-- 12_time_base.md R358: Repeater value -/
def Reg.TSQ_RPT_HI (d : Nat) : Nat := 0x1030004 + d * 0x100000
/-- 12_time_base.md R364: Queue pointers -/
def Reg.TSQ_STAT (d : Nat) : Nat := 0x1030010 + d * 0x100000
/-- 12_time_base.md R364: Release of entries -/
def Reg.TSQ_RELEASE (d : Nat) : Nat := 0x1030014 + d * 0x100000
/-- 12_time_base.md R364: Dropped pushes -/
def Reg.TSQ_OVF (d : Nat) : Nat := 0x1030018 + d * 0x100000
/-- 12_time_base.md R365: PPS input n -/
def Reg.TIME_PPS_CFG (n : Nat) : Nat := 0x200200 + n * 0x10
/-- 12_time_base.md R365: PPS input n -/
def Reg.TIME_PPS_CAP_NS (n : Nat) : Nat := 0x200204 + n * 0x10
/-- 12_time_base.md R365: PPS input n -/
def Reg.TIME_PPS_CAP_SEC (n : Nat) : Nat := 0x200208 + n * 0x10
/-- 12_time_base.md R365: PPS input n -/
def Reg.TIME_PPS_CNT (n : Nat) : Nat := 0x20020c + n * 0x10
/-- 12_time_base.md R367: Output k -/
def Reg.TIME_OUT_CTRL (k : Nat) : Nat := 0x200300 + k * 0x20
/-- 12_time_base.md R367: Output k -/
def Reg.TIME_OUT_START_NS (k : Nat) : Nat := 0x200304 + k * 0x20
/-- 12_time_base.md R367: Output k -/
def Reg.TIME_OUT_START_SEC (k : Nat) : Nat := 0x200308 + k * 0x20
/-- 12_time_base.md R367: Output k -/
def Reg.TIME_OUT_PERIOD (k : Nat) : Nat := 0x20030c + k * 0x20
/-- 12_time_base.md R367: Output k -/
def Reg.TIME_OUT_WIDTH (k : Nat) : Nat := 0x200310 + k * 0x20
/-- 13_process_image.md R400: Image controller state -/
def Reg.IMG_STAT : Nat := 0x700000
/-- 13_process_image.md R400: Current epoch -/
def Reg.IMG_EPOCH_LO : Nat := 0x700008
/-- 13_process_image.md R400: Current epoch -/
def Reg.IMG_EPOCH_HI : Nat := 0x70000c
/-- 13_process_image.md R400: Wait for copy-on-write records -/
def Reg.IMG_COW_WAIT : Nat := 0x700010
/-- 13_process_image.md R400: Free copy-on-write records -/
def Reg.IMG_COW_STAT : Nat := 0x700014
/-- 13_process_image.md R400: Refused and lost writes -/
def Reg.IMG_ERR : Nat := 0x700018
/-- 13_process_image.md R400: Discarded duplicates -/
def Reg.IMG_DUP : Nat := 0x70001c
/-- 13_process_image.md R400: Commit outcomes -/
def Reg.IMG_TXN_CNT : Nat := 0x700020
/-- 13_process_image.md R400: Image base second of R371 -/
def Reg.IMG_BASE_SEC_LO : Nat := 0x700030
/-- 13_process_image.md R400: Image base second of R371 -/
def Reg.IMG_BASE_SEC_HI : Nat := 0x700034
/-- 13_process_image.md R400: State of transaction slot t -/
def Reg.IMG_SLOT (t : Nat) : Nat := 0x700100 + t * 0x4
/-- 13_process_image.md R400: Pin k -/
def Reg.IMG_PIN_FIRST (k : Nat) : Nat := 0x700300 + k * 0x10
/-- 13_process_image.md R400: Pin k -/
def Reg.IMG_PIN_COUNT (k : Nat) : Nat := 0x700304 + k * 0x10
/-- 13_process_image.md R400: Pin k -/
def Reg.IMG_PIN_EPOCH (k : Nat) : Nat := 0x700308 + k * 0x10
/-- 13_process_image.md R400: Pin k -/
def Reg.IMG_PIN_HOLDER (k : Nat) : Nat := 0x70030c + k * 0x10
/-- 13_process_image.md R400: Control block words of Table IMG-6, at the offsets shown from the block base of R397, reset value 0x0000_0000 except IMG_RES, which resets to 0x0200_0000. -/
def Reg.IMG_STAGE_LO (b : Nat) : Nat := imgBlk b + 0x0
/-- 13_process_image.md R400: Control block words of Table IMG-6, at the offsets shown from the block base of R397, reset value 0x0000_0000 except IMG_RES, which resets to 0x0200_0000. -/
def Reg.IMG_STAGE_HI (b : Nat) : Nat := imgBlk b + 0x4
/-- 13_process_image.md R400: Control block words of Table IMG-6, at the offsets shown from the block base of R397, reset value 0x0000_0000 except IMG_RES, which resets to 0x0200_0000. -/
def Reg.IMG_FLOWSEQ (b : Nat) : Nat := imgBlk b + 0x8
/-- 13_process_image.md R400: Control block words of Table IMG-6, at the offsets shown from the block base of R397, reset value 0x0000_0000 except IMG_RES, which resets to 0x0200_0000. -/
def Reg.IMG_VIEW (b : Nat) : Nat := imgBlk b + 0xc
/-- 13_process_image.md R400: Control block words of Table IMG-6, at the offsets shown from the block base of R397, reset value 0x0000_0000 except IMG_RES, which resets to 0x0200_0000. -/
def Reg.IMG_TXN_SEL (b : Nat) : Nat := imgBlk b + 0x10
/-- 13_process_image.md R400: Control block words of Table IMG-6, at the offsets shown from the block base of R397, reset value 0x0000_0000 except IMG_RES, which resets to 0x0200_0000. -/
def Reg.IMG_TXN (b : Nat) : Nat := imgBlk b + 0x14
/-- 13_process_image.md R400: Control block words of Table IMG-6, at the offsets shown from the block base of R397, reset value 0x0000_0000 except IMG_RES, which resets to 0x0200_0000. -/
def Reg.IMG_PIN (b : Nat) : Nat := imgBlk b + 0x18
/-- 13_process_image.md R400: Control block words of Table IMG-6, at the offsets shown from the block base of R397, reset value 0x0000_0000 except IMG_RES, which resets to 0x0200_0000. -/
def Reg.IMG_ARG0 (b : Nat) : Nat := imgBlk b + 0x1c
/-- 13_process_image.md R400: Control block words of Table IMG-6, at the offsets shown from the block base of R397, reset value 0x0000_0000 except IMG_RES, which resets to 0x0200_0000. -/
def Reg.IMG_ARG1 (b : Nat) : Nat := imgBlk b + 0x20
/-- 13_process_image.md R400: Control block words of Table IMG-6, at the offsets shown from the block base of R397, reset value 0x0000_0000 except IMG_RES, which resets to 0x0200_0000. -/
def Reg.IMG_RES (b : Nat) : Nat := imgBlk b + 0x24
/-- 13_process_image.md R400: Control block words of Table IMG-6, at the offsets shown from the block base of R397, reset value 0x0000_0000 except IMG_RES, which resets to 0x0200_0000. -/
def Reg.IMG_RES_EPOCH_LO (b : Nat) : Nat := imgBlk b + 0x28
/-- 13_process_image.md R400: Control block words of Table IMG-6, at the offsets shown from the block base of R397, reset value 0x0000_0000 except IMG_RES, which resets to 0x0200_0000. -/
def Reg.IMG_RES_EPOCH_HI (b : Nat) : Nat := imgBlk b + 0x2c
/-- 13_process_image.md R400: Control block words of Table IMG-6, at the offsets shown from the block base of R397, reset value 0x0000_0000 except IMG_RES, which resets to 0x0200_0000. -/
def Reg.IMG_LATCH (b : Nat) (k : Nat) : Nat := imgBlk b + 0x40 + k * 0x4
/-- 14_reduction_units.md R419: Unit enable -/
def Reg.SRU_CTRL (d : Nat) : Nat := 0x1020000 + d * 0x100000
/-- 14_reduction_units.md R419: Unit state -/
def Reg.SRU_STAT (d : Nat) : Nat := 0x1020004 + d * 0x100000
/-- 14_reduction_units.md R419: Export block -/
def Reg.SRU_EXPORT (d : Nat) : Nat := 0x1020018 + d * 0x100000
/-- 14_reduction_units.md R419: Least spacing of a channel's samples -/
def Reg.SRU_MINDT (d : Nat) : Nat := 0x102001c + d * 0x100000
/-- 14_reduction_units.md R419: Round slice group j -/
def Reg.SRU_IN (d : Nat) (j : Nat) : Nat := 0x1020020 + d * 0x100000 + j * 0x4
/-- 14_reduction_units.md R419: Sample counters -/
def Reg.SRU_CNT0 (d : Nat) : Nat := 0x1020040 + d * 0x100000
/-- 14_reduction_units.md R419: Sample counters -/
def Reg.SRU_CNT1 (d : Nat) : Nat := 0x1020044 + d * 0x100000
/-- 14_reduction_units.md R419: Sample counters -/
def Reg.SRU_CNT2 (d : Nat) : Nat := 0x1020048 + d * 0x100000
/-- 14_reduction_units.md R419: Sample counters -/
def Reg.SRU_CNT3 (d : Nat) : Nat := 0x102004c + d * 0x100000
/-- 14_reduction_units.md R419: End-of-step queue head -/
def Reg.SRU_EOS_Q (d : Nat) : Nat := 0x1020050 + d * 0x100000
/-- 14_reduction_units.md R419: Ledger command -/
def Reg.SRU_CMD (d : Nat) : Nat := 0x1020060 + d * 0x100000
/-- 14_reduction_units.md R419: Outcome of the last command -/
def Reg.SRU_CMD_RES (d : Nat) : Nat := 0x1020064 + d * 0x100000
/-- 14_reduction_units.md R419: Parameter set s -/
def Reg.SRU_PS_W0 (d : Nat) (s : Nat) : Nat := 0x1020100 + d * 0x100000 + s * 0x40
/-- 14_reduction_units.md R419: Parameter set s -/
def Reg.SRU_PS_W1 (d : Nat) (s : Nat) : Nat := 0x1020104 + d * 0x100000 + s * 0x40
/-- 14_reduction_units.md R419: Parameter set s -/
def Reg.SRU_PS_W2 (d : Nat) (s : Nat) : Nat := 0x1020108 + d * 0x100000 + s * 0x40
/-- 14_reduction_units.md R419: Parameter set s -/
def Reg.SRU_PS_W3 (d : Nat) (s : Nat) : Nat := 0x102010c + d * 0x100000 + s * 0x40
/-- 14_reduction_units.md R419: Parameter set s -/
def Reg.SRU_PS_W4 (d : Nat) (s : Nat) : Nat := 0x1020110 + d * 0x100000 + s * 0x40
/-- 14_reduction_units.md R419: Parameter set s -/
def Reg.SRU_PS_W5 (d : Nat) (s : Nat) : Nat := 0x1020114 + d * 0x100000 + s * 0x40
/-- 14_reduction_units.md R419: Parameter set s -/
def Reg.SRU_PS_W6 (d : Nat) (s : Nat) : Nat := 0x1020118 + d * 0x100000 + s * 0x40
/-- 14_reduction_units.md R419: Parameter set s -/
def Reg.SRU_PS_W7 (d : Nat) (s : Nat) : Nat := 0x102011c + d * 0x100000 + s * 0x40
/-- 14_reduction_units.md R419: Parameter set s -/
def Reg.SRU_PS_W8 (d : Nat) (s : Nat) : Nat := 0x1020120 + d * 0x100000 + s * 0x40
/-- 14_reduction_units.md R419: Parameter set s -/
def Reg.SRU_PS_W9 (d : Nat) (s : Nat) : Nat := 0x1020124 + d * 0x100000 + s * 0x40
/-- 14_reduction_units.md R419: Latched ledger values -/
def Reg.SRU_LATCH (d : Nat) (i : Nat) : Nat := 0x1020800 + d * 0x100000 + i * 0x4
/-- 14_reduction_units.md R419: Summary of all units, BAR0 offset 0x0078_0000, reset value 0x0000_0000. -/
def Reg.SRU_GSTAT : Nat := 0x780000
/-- 15_redundancy.md R449: Heartbeat and restoration settings -/
def Reg.RED_CFG : Nat := 0x800000
/-- 15_redundancy.md R449: Pair summary -/
def Reg.RED_STAT : Nat := 0x800004
/-- 15_redundancy.md R449: Twin command -/
def Reg.RED_CMD : Nat := 0x800010
/-- 15_redundancy.md R449: Outcome of the last command -/
def Reg.RED_CMD_RES : Nat := 0x80001c
/-- 15_redundancy.md R449: Redundancy counters -/
def Reg.RED_CNT0 : Nat := 0x800020
/-- 15_redundancy.md R449: Redundancy counters -/
def Reg.RED_CNT1 : Nat := 0x800024
/-- 15_redundancy.md R449: Redundancy counters -/
def Reg.RED_CNT2 : Nat := 0x800028
/-- 15_redundancy.md R449: Last declaration -/
def Reg.RED_LAST : Nat := 0x80002c
/-- 15_redundancy.md R449: Role of the reading engine -/
def Reg.RED_SELF : Nat := 0x800030
/-- 15_redundancy.md R449: Join request -/
def Reg.RED_JOIN : Nat := 0x800034
/-- 15_redundancy.md R449: PRP and HSR discard -/
def Reg.RED_PRP_CFG : Nat := 0x800040
/-- 15_redundancy.md R449: PRP and HSR discard -/
def Reg.RED_PRP_STAT : Nat := 0x800044
/-- 15_redundancy.md R449: Configuration and state of pair p -/
def Reg.RED_PAIR (p : Nat) : Nat := 0x800100 + p * 0x8
/-- 15_redundancy.md R449: Configuration and state of pair p -/
def Reg.RED_PSTAT (p : Nat) : Nat := 0x800104 + p * 0x8
/-- 15_redundancy.md R449: Checkpoint area of slot m of pair p -/
def Reg.RED_CKPT (p : Nat) (m : Nat) : Nat := 0x800400 + p * 0x8 + m * 0x4
/-- 15_redundancy.md R449: Heartbeat state of engine e -/
def Reg.RED_LANT (e : Nat) : Nat := 0x800800 + e * 0x4
/-- 15_redundancy.md R449: Flow of slice forward entry j of the gateway of Dd -/
def Reg.RED_GWFLOW (d : Nat) (j : Nat) : Nat := 0x801000 + d * 0x40 + j * 0x4
/-- 15_redundancy.md R449: Flow of slice forward entry j of the gateway of Dd -/
def Reg.RED_PROXY (d : Nat) (i : Nat) : Nat := 0x801200 + d * 0x40 + i * 0x4
/-- 16_host_and_mailboxes.md R458: Pending sources 0–31 and 32–63 -/
def Reg.MBX_IRQ_PEND0 : Nat := 0x100040
/-- 16_host_and_mailboxes.md R458: Pending sources 0–31 and 32–63 -/
def Reg.MBX_IRQ_PEND1 : Nat := 0x100044
/-- 16_host_and_mailboxes.md R458: Route of source s -/
def Reg.MBX_IRQ_ROUTE (s : Nat) : Nat := 0x100100 + s * 0x4
/-- 16_host_and_mailboxes.md R458: Supervisor notice -/
def Reg.MBX_SUP_NOTE : Nat := 0x100048
/-- 16_host_and_mailboxes.md R461: Functions and frame rings -/
def Reg.MBX_HOST_CFG : Nat := 0x100000
/-- 16_host_and_mailboxes.md R461: Ring pointers -/
def Reg.MBX_HRX_TAIL : Nat := 0x100010
/-- 16_host_and_mailboxes.md R461: Ring pointers -/
def Reg.MBX_HRX_HEAD : Nat := 0x100014
/-- 16_host_and_mailboxes.md R461: Ring pointers -/
def Reg.MBX_HTX_HEAD : Nat := 0x100018
/-- 16_host_and_mailboxes.md R461: Ring pointers -/
def Reg.MBX_HTX_TAIL : Nat := 0x10001c
/-- 16_host_and_mailboxes.md R461: BAR2 faults -/
def Reg.MBX_HOST_STAT : Nat := 0x100020
/-- 16_host_and_mailboxes.md R462: Management SPI faults -/
def Reg.MBX_SPI_ERR : Nat := 0x100024
/-- 16_host_and_mailboxes.md R470: Abort of an outstanding send -/
def Reg.MBX_ABORT : Nat := 0x100400
/-- 17_safety_island.md R504: Island state and progress -/
def Reg.SAFE_STAT : Nat := 0x900000
/-- 17_safety_island.md R504: Seal inputs -/
def Reg.SAFE_SEAL : Nat := 0x900004
/-- 17_safety_island.md R504: Safe input states -/
def Reg.SAFE_IN : Nat := 0x900008
/-- 17_safety_island.md R504: STO outputs -/
def Reg.SAFE_STO : Nat := 0x90000c
/-- 17_safety_island.md R504: Last fault -/
def Reg.SAFE_FAULT : Nat := 0x900010
/-- 17_safety_island.md R504: Speeds of axis k -/
def Reg.SAFE_AX_V1 (k : Nat) : Nat := 0x900020 + k * 0x8
/-- 17_safety_island.md R504: Speeds of axis k -/
def Reg.SAFE_AX_V2 (k : Nat) : Nat := 0x900024 + k * 0x8
/-- 18_power_and_nv.md R512: Monitor state and warnings -/
def Reg.PWR_STAT : Nat := 0xa00000
/-- 18_power_and_nv.md R512: Measured supplies -/
def Reg.PWR_VMON0 : Nat := 0xa00004
/-- 18_power_and_nv.md R512: Measured supplies -/
def Reg.PWR_VMON1 : Nat := 0xa00008
/-- 18_power_and_nv.md R520: NV command -/
def Reg.NV_CMD : Nat := 0xa00100
/-- 18_power_and_nv.md R520: Outcome of the last command -/
def Reg.NV_RES : Nat := 0xa00104
/-- 18_power_and_nv.md R520: Arguments and progress -/
def Reg.NV_ADDR : Nat := 0xa00108
/-- 18_power_and_nv.md R520: Arguments and progress -/
def Reg.NV_SRC : Nat := 0xa0010c
/-- 18_power_and_nv.md R520: Arguments and progress -/
def Reg.NV_PROG : Nat := 0xa00110
/-- 18_power_and_nv.md R520: MRAM errors -/
def Reg.NV_ERR : Nat := 0xa00114
/-- 18_power_and_nv.md R520: OTP contents -/
def Reg.NV_OTP_STAT : Nat := 0xa00118
/-- 18_power_and_nv.md R520: Row data word i, i = 0–15 -/
def Reg.NV_DATA (i : Nat) : Nat := 0xa00140 + i * 0x4
/-- 15_redundancy.md R449: Twin command argument 0 -/
def Reg.RED_ARG0 : Nat := 0x800014
/-- 15_redundancy.md R449: Twin command argument 1 -/
def Reg.RED_ARG1 : Nat := 0x800018
/-- 16_host_and_mailboxes.md R465: Message to send -/
def Reg.MBX_SDATA (k : Nat) (i : Nat) : Nat := 0x110000 + k * 0x200 + i * 0x4
/-- 16_host_and_mailboxes.md R465: Send command -/
def Reg.MBX_SEND (k : Nat) : Nat := 0x110100 + k * 0x200
/-- 16_host_and_mailboxes.md R465: Redundancy flow of the sender -/
def Reg.MBX_SFLOW (k : Nat) : Nat := 0x110104 + k * 0x200
/-- 16_host_and_mailboxes.md R465: Outcome of the last send -/
def Reg.MBX_SEND_RES (k : Nat) : Nat := 0x110108 + k * 0x200
/-- 16_host_and_mailboxes.md R465: Channel command -/
def Reg.MBX_CMD (k : Nat) : Nat := 0x11010c + k * 0x200
/-- 16_host_and_mailboxes.md R465: Outcome of the last channel command -/
def Reg.MBX_CMD_RES (k : Nat) : Nat := 0x110110 + k * 0x200
/-- 16_host_and_mailboxes.md R465: Doorbells pending -/
def Reg.MBX_DB (k : Nat) : Nat := 0x110114 + k * 0x200
/-- 16_host_and_mailboxes.md R465: Doorbell masks -/
def Reg.MBX_DBMASK (k : Nat) : Nat := 0x110118 + k * 0x200
/-- 16_host_and_mailboxes.md R465: Doorbell ring -/
def Reg.MBX_RING (k : Nat) : Nat := 0x11011c + k * 0x200

def Fld.SYS_CAP0_DISTRICT_MASK : Fld := ⟨Reg.SYS_CAP0, 0, 8⟩
def Fld.SYS_CAP0_ENG_PER_DISTRICT : Fld := ⟨Reg.SYS_CAP0, 8, 8⟩
def Fld.SYS_CAP0_RED_MASK : Fld := ⟨Reg.SYS_CAP0, 16, 8⟩
def Fld.SYS_CAP0_SAFE : Fld := ⟨Reg.SYS_CAP0, 24, 1⟩
def Fld.SYS_CAP0_TWIN : Fld := ⟨Reg.SYS_CAP0, 25, 2⟩
def Fld.SYS_CAP1_ETH_MASK : Fld := ⟨Reg.SYS_CAP1, 0, 32⟩
def Fld.SYS_CAP2_CAN_MASK : Fld := ⟨Reg.SYS_CAP2, 0, 16⟩
def Fld.SYS_CAP2_SER_MASK : Fld := ⟨Reg.SYS_CAP2, 16, 16⟩
def Fld.SYS_CAP3_ETH_HI_MASK : Fld := ⟨Reg.SYS_CAP3, 0, 2⟩
def Fld.SYS_CAP3_WILERN_MASK : Fld := ⟨Reg.SYS_CAP3, 2, 2⟩
def Fld.SYS_CAP3_DRAM_GIB : Fld := ⟨Reg.SYS_CAP3, 4, 4⟩
def Fld.SYS_CAP3_IMG_POINTS_LOG2 : Fld := ⟨Reg.SYS_CAP3, 8, 8⟩
def Fld.SYS_CAP3_STEP_MINOR : Fld := ⟨Reg.SYS_CAP3, 16, 4⟩
def Fld.SYS_CAP3_STEP_MAJOR : Fld := ⟨Reg.SYS_CAP3, 20, 4⟩
def Fld.SYS_ABSENT_HIT_OFFSET : Fld := ⟨Reg.SYS_ABSENT_HIT, 0, 26⟩
def Fld.SYS_ABSENT_HIT_WRITE : Fld := ⟨Reg.SYS_ABSENT_HIT, 26, 1⟩
def Fld.SYS_ABSENT_HIT_MULTI : Fld := ⟨Reg.SYS_ABSENT_HIT, 27, 1⟩
def Fld.SYS_ABSENT_HIT_VALID : Fld := ⟨Reg.SYS_ABSENT_HIT, 31, 1⟩
def Fld.SYS_CLK_STAT_XCLK_LOCK : Fld := ⟨Reg.SYS_CLK_STAT, 0, 1⟩
def Fld.SYS_CLK_STAT_TCLK_LOCK : Fld := ⟨Reg.SYS_CLK_STAT, 1, 1⟩
def Fld.SYS_CLK_STAT_HCLK_LOCK : Fld := ⟨Reg.SYS_CLK_STAT, 2, 1⟩
def Fld.SYS_CLK_STAT_MCLK_LOCK : Fld := ⟨Reg.SYS_CLK_STAT, 3, 1⟩
def Fld.SYS_CLK_STAT_CCLK_LOCK : Fld := ⟨Reg.SYS_CLK_STAT, 4, 1⟩
def Fld.SYS_CLK_STAT_SCLK_OK : Fld := ⟨Reg.SYS_CLK_STAT, 5, 1⟩
def Fld.SYS_CLK_STAT_XCLK_LOSS : Fld := ⟨Reg.SYS_CLK_STAT, 8, 1⟩
def Fld.SYS_CLK_STAT_TCLK_LOSS : Fld := ⟨Reg.SYS_CLK_STAT, 9, 1⟩
def Fld.SYS_CLK_STAT_HCLK_LOSS : Fld := ⟨Reg.SYS_CLK_STAT, 10, 1⟩
def Fld.SYS_CLK_STAT_MCLK_LOSS : Fld := ⟨Reg.SYS_CLK_STAT, 11, 1⟩
def Fld.SYS_CLK_STAT_CCLK_LOSS : Fld := ⟨Reg.SYS_CLK_STAT, 12, 1⟩
def Fld.SYS_CLK_STAT_SCLK_LOSS : Fld := ⟨Reg.SYS_CLK_STAT, 13, 1⟩
def Fld.SYS_CLK_STAT_DISCARD_CNT : Fld := ⟨Reg.SYS_CLK_STAT, 16, 16⟩
def Fld.SYS_MODE_MODE : Fld := ⟨Reg.SYS_MODE, 0, 3⟩
def Fld.SYS_MODE_TWIN_MISSING : Fld := ⟨Reg.SYS_MODE, 3, 1⟩
def Fld.SYS_MODE_CMD_BUSY : Fld := ⟨Reg.SYS_MODE, 4, 1⟩
def Fld.SYS_MODE_FORCED : Fld := ⟨Reg.SYS_MODE, 5, 1⟩
def Fld.SYS_MODE_PREV_MODE : Fld := ⟨Reg.SYS_MODE, 8, 3⟩
def Fld.SYS_MODE_FORCE_CAUSE : Fld := ⟨Reg.SYS_MODE, 16, 4⟩
def Fld.SYS_MODE_TRANS_CNT : Fld := ⟨Reg.SYS_MODE, 20, 12⟩
def Fld.SYS_RESET_CAUSE_POR : Fld := ⟨Reg.SYS_RESET_CAUSE, 0, 1⟩
def Fld.SYS_RESET_CAUSE_PIN : Fld := ⟨Reg.SYS_RESET_CAUSE, 1, 1⟩
def Fld.SYS_RESET_CAUSE_BROWNOUT : Fld := ⟨Reg.SYS_RESET_CAUSE, 2, 1⟩
def Fld.SYS_RESET_CAUSE_FCLK_LOSS : Fld := ⟨Reg.SYS_RESET_CAUSE, 3, 1⟩
def Fld.SYS_RESET_CAUSE_SUP_LOCKSTEP : Fld := ⟨Reg.SYS_RESET_CAUSE, 4, 1⟩
def Fld.SYS_RESET_CAUSE_SUP_WDOG : Fld := ⟨Reg.SYS_RESET_CAUSE, 5, 1⟩
def Fld.SYS_RESET_CAUSE_SOFT : Fld := ⟨Reg.SYS_RESET_CAUSE, 6, 1⟩
def Fld.SYS_BOOT_STAT_BOOT_SEL : Fld := ⟨Reg.SYS_BOOT_STAT, 0, 2⟩
def Fld.SYS_BOOT_STAT_SOURCE : Fld := ⟨Reg.SYS_BOOT_STAT, 2, 2⟩
def Fld.SYS_BOOT_STAT_STAGE : Fld := ⟨Reg.SYS_BOOT_STAT, 4, 4⟩
def Fld.SYS_BOOT_STAT_RESULT : Fld := ⟨Reg.SYS_BOOT_STAT, 8, 16⟩
def Fld.SYS_BOOT_STAT_REASON : Fld := ⟨Reg.SYS_BOOT_STAT, 24, 4⟩
def Fld.SYS_BOOT_STAT_ATTEMPTS : Fld := ⟨Reg.SYS_BOOT_STAT, 28, 4⟩
def Fld.SYS_BOOT_CTRL_GO : Fld := ⟨Reg.SYS_BOOT_CTRL, 0, 1⟩
def Fld.SYS_MODE_CMD_CMD : Fld := ⟨Reg.SYS_MODE_CMD, 0, 8⟩
def Fld.SYS_MODE_CMD_TAG : Fld := ⟨Reg.SYS_MODE_CMD, 8, 8⟩
def Fld.SYS_MODE_CMD_ARG : Fld := ⟨Reg.SYS_MODE_CMD, 16, 16⟩
def Fld.SYS_MODE_RESULT_CODE : Fld := ⟨Reg.SYS_MODE_RESULT, 0, 16⟩
def Fld.SYS_MODE_RESULT_TAG : Fld := ⟨Reg.SYS_MODE_RESULT, 16, 8⟩
def Fld.SYS_MODE_RESULT_DONE : Fld := ⟨Reg.SYS_MODE_RESULT, 24, 1⟩
def Fld.SYS_MODE_RESULT_LOST : Fld := ⟨Reg.SYS_MODE_RESULT, 25, 1⟩
def Fld.SYS_MODE_RESULT_CFG_ERR : Fld := ⟨Reg.SYS_MODE_RESULT, 26, 1⟩
def Fld.SYS_WRONG_STATE_CNT_COUNT : Fld := ⟨Reg.SYS_WRONG_STATE_CNT, 0, 16⟩
def Fld.SYS_WRONG_STATE_CNT_LAST_SRC : Fld := ⟨Reg.SYS_WRONG_STATE_CNT, 16, 8⟩
def Fld.SYS_WRONG_STATE_CNT_LAST_CHIP : Fld := ⟨Reg.SYS_WRONG_STATE_CNT, 24, 3⟩
def Fld.XING_TXN_CTRL_VERB : Fld := ⟨Reg.XING_TXN_CTRL, 0, 2⟩
def Fld.XING_TXN_CTRL_STATE : Fld := ⟨Reg.XING_TXN_CTRL, 2, 2⟩
def Fld.XING_TXN_CTRL_HOLDER : Fld := ⟨Reg.XING_TXN_CTRL, 16, 16⟩
def Fld.AVE_TXN_CTRL_VERB : Fld := ⟨Reg.AVE_TXN_CTRL, 0, 2⟩
def Fld.AVE_TXN_CTRL_STATE : Fld := ⟨Reg.AVE_TXN_CTRL, 2, 2⟩
def Fld.AVE_TXN_CTRL_HOLDER : Fld := ⟨Reg.AVE_TXN_CTRL, 16, 16⟩
def Fld.RND_TXN_CTRL_VERB (d : Nat) : Fld := ⟨Reg.RND_TXN_CTRL d, 0, 2⟩
def Fld.RND_TXN_CTRL_STATE (d : Nat) : Fld := ⟨Reg.RND_TXN_CTRL d, 2, 2⟩
def Fld.RND_TXN_CTRL_HOLDER (d : Nat) : Fld := ⟨Reg.RND_TXN_CTRL d, 16, 16⟩
def Fld.ETH_TXN_CTRL_VERB (n : Nat) : Fld := ⟨Reg.ETH_TXN_CTRL n, 0, 2⟩
def Fld.ETH_TXN_CTRL_STATE (n : Nat) : Fld := ⟨Reg.ETH_TXN_CTRL n, 2, 2⟩
def Fld.ETH_TXN_CTRL_HOLDER (n : Nat) : Fld := ⟨Reg.ETH_TXN_CTRL n, 16, 16⟩
def Fld.SRU_TXN_CTRL_VERB (d : Nat) : Fld := ⟨Reg.SRU_TXN_CTRL d, 0, 2⟩
def Fld.SRU_TXN_CTRL_STATE (d : Nat) : Fld := ⟨Reg.SRU_TXN_CTRL d, 2, 2⟩
def Fld.SRU_TXN_CTRL_HOLDER (d : Nat) : Fld := ⟨Reg.SRU_TXN_CTRL d, 16, 16⟩
def Fld.XING_TXN_STAT_RESULT : Fld := ⟨Reg.XING_TXN_STAT, 0, 16⟩
def Fld.XING_TXN_STAT_REQUESTER : Fld := ⟨Reg.XING_TXN_STAT, 16, 16⟩
def Fld.AVE_TXN_STAT_RESULT : Fld := ⟨Reg.AVE_TXN_STAT, 0, 16⟩
def Fld.AVE_TXN_STAT_REQUESTER : Fld := ⟨Reg.AVE_TXN_STAT, 16, 16⟩
def Fld.RND_TXN_STAT_RESULT (d : Nat) : Fld := ⟨Reg.RND_TXN_STAT d, 0, 16⟩
def Fld.RND_TXN_STAT_REQUESTER (d : Nat) : Fld := ⟨Reg.RND_TXN_STAT d, 16, 16⟩
def Fld.ETH_TXN_STAT_RESULT (n : Nat) : Fld := ⟨Reg.ETH_TXN_STAT n, 0, 16⟩
def Fld.ETH_TXN_STAT_REQUESTER (n : Nat) : Fld := ⟨Reg.ETH_TXN_STAT n, 16, 16⟩
def Fld.SRU_TXN_STAT_RESULT (d : Nat) : Fld := ⟨Reg.SRU_TXN_STAT d, 0, 16⟩
def Fld.SRU_TXN_STAT_REQUESTER (d : Nat) : Fld := ⟨Reg.SRU_TXN_STAT d, 16, 16⟩
def Fld.CE_CRC_POLY_POLY (e : Nat) (k : Nat) : Fld := ⟨Reg.CE_CRC_POLY e k, 0, 32⟩
def Fld.CE_CRC_CFG_WIDTH (e : Nat) (k : Nat) : Fld := ⟨Reg.CE_CRC_CFG e k, 0, 2⟩
def Fld.CE_CRC_CFG_REFLECT (e : Nat) (k : Nat) : Fld := ⟨Reg.CE_CRC_CFG e k, 2, 1⟩
def Fld.CE_EVT_SEL_KIND (e : Nat) (k : Nat) : Fld := ⟨Reg.CE_EVT_SEL e k, 0, 8⟩
def Fld.CE_EVT_SEL_INDEX (e : Nat) (k : Nat) : Fld := ⟨Reg.CE_EVT_SEL e k, 8, 8⟩
def Fld.CE_EVT_OVR_COUNT (e : Nat) : Fld := ⟨Reg.CE_EVT_OVR e, 0, 16⟩
def Fld.CE_EVT_OVR_LAST_LINE (e : Nat) : Fld := ⟨Reg.CE_EVT_OVR e, 16, 5⟩
def Fld.CE_FAULT_ADDR_ADDR (e : Nat) : Fld := ⟨Reg.CE_FAULT_ADDR e, 0, 32⟩
def Fld.CE_WDOG_PERIOD (e : Nat) : Fld := ⟨Reg.CE_WDOG e, 0, 24⟩
def Fld.CE_WDOG_EN (e : Nat) : Fld := ⟨Reg.CE_WDOG e, 24, 1⟩
def Fld.CE_WDOG_WAIT_STOP (e : Nat) : Fld := ⟨Reg.CE_WDOG e, 25, 1⟩
def Fld.CE_WDOG_KICK_KEY (e : Nat) : Fld := ⟨Reg.CE_WDOG_KICK e, 0, 16⟩
def Fld.CE_STACK_BASE_BASE (e : Nat) : Fld := ⟨Reg.CE_STACK_BASE e, 0, 16⟩
def Fld.CE_STACK_LIMIT_LIMIT (e : Nat) : Fld := ⟨Reg.CE_STACK_LIMIT e, 0, 17⟩
def Fld.CE_CTRL_RUN (e : Nat) : Fld := ⟨Reg.CE_CTRL e, 0, 1⟩
def Fld.CE_STAT_STATE (e : Nat) : Fld := ⟨Reg.CE_STAT e, 0, 2⟩
def Fld.CE_STAT_DEPTH (e : Nat) : Fld := ⟨Reg.CE_STAT e, 2, 4⟩
def Fld.CE_STAT_LEVEL (e : Nat) : Fld := ⟨Reg.CE_STAT e, 6, 6⟩
def Fld.CE_STAT_HALT_CAUSE (e : Nat) : Fld := ⟨Reg.CE_STAT e, 12, 4⟩
def Fld.CE_STAT_CFG_ERR (e : Nat) : Fld := ⟨Reg.CE_STAT e, 31, 1⟩
def Fld.CE_LEASE_LOST_HANDLE (e : Nat) : Fld := ⟨Reg.CE_LEASE_LOST e, 0, 32⟩
def Fld.CE_LEASE_STAT_COUNT (e : Nat) : Fld := ⟨Reg.CE_LEASE_STAT e, 0, 8⟩
def Fld.CE_LEASE_STAT_HELD (e : Nat) : Fld := ⟨Reg.CE_LEASE_STAT e, 8, 5⟩
def Fld.RND_SRAM_ERR_CORR (d : Nat) : Fld := ⟨Reg.RND_SRAM_ERR d, 0, 16⟩
def Fld.RND_SRAM_ERR_UNCORR (d : Nat) : Fld := ⟨Reg.RND_SRAM_ERR d, 16, 8⟩
def Fld.RND_SRAM_ERR_LOCK_REFUSED (d : Nat) : Fld := ⟨Reg.RND_SRAM_ERR d, 24, 8⟩
def Fld.RND_LOCK_BASE (d : Nat) (r : Nat) : Fld := ⟨Reg.RND_LOCK d r, 0, 14⟩
def Fld.RND_LOCK_SIZE (d : Nat) (r : Nat) : Fld := ⟨Reg.RND_LOCK d r, 14, 15⟩
def Fld.RND_LOCK_ENFORCE (d : Nat) (r : Nat) : Fld := ⟨Reg.RND_LOCK d r, 29, 1⟩
def Fld.RND_LOCK_HOLD_HOLDER (d : Nat) (r : Nat) : Fld := ⟨Reg.RND_LOCK_HOLD d r, 0, 16⟩
def Fld.RND_LOCK_HOLD_HELD (d : Nat) (r : Nat) : Fld := ⟨Reg.RND_LOCK_HOLD d r, 16, 1⟩
def Fld.RND_BIND_ETH0_ETH (d : Nat) : Fld := ⟨Reg.RND_BIND_ETH0 d, 0, 32⟩
def Fld.RND_BIND_ETH1_ETH_HI (d : Nat) : Fld := ⟨Reg.RND_BIND_ETH1 d, 0, 2⟩
def Fld.RND_BIND_CS_CAN (d : Nat) : Fld := ⟨Reg.RND_BIND_CS d, 0, 16⟩
def Fld.RND_BIND_CS_SER (d : Nat) : Fld := ⟨Reg.RND_BIND_CS d, 16, 16⟩
def Fld.RND_SLICE_OWNER (d : Nat) (w : Nat) : Fld := ⟨Reg.RND_SLICE d w, 0, 5⟩
def Fld.RND_COMMON_CFG_SIGNED (d : Nat) (w : Nat) : Fld := ⟨Reg.RND_COMMON_CFG d w, 0, 1⟩
def Fld.RND_COMMON_CFG_CLEAR (d : Nat) (w : Nat) : Fld := ⟨Reg.RND_COMMON_CFG d w, 1, 2⟩
def Fld.RND_COMMON_RES_VALUE (d : Nat) (w : Nat) : Fld := ⟨Reg.RND_COMMON_RES d w, 0, 32⟩
def Fld.RND_FRAME_VALUE (d : Nat) (w : Nat) : Fld := ⟨Reg.RND_FRAME d w, 0, 32⟩
def Fld.RND_CTRL_RUN (d : Nat) : Fld := ⟨Reg.RND_CTRL d, 0, 1⟩
def Fld.RND_STAT_RUNNING (d : Nat) : Fld := ⟨Reg.RND_STAT d, 0, 1⟩
def Fld.RND_STAT_SYNCED (d : Nat) : Fld := ⟨Reg.RND_STAT d, 1, 1⟩
def Fld.RND_STAT_GEN (d : Nat) : Fld := ⟨Reg.RND_STAT d, 8, 8⟩
def Fld.RND_STAT_CFG_ERR (d : Nat) : Fld := ⟨Reg.RND_STAT d, 31, 1⟩
def Fld.RND_PERIOD_PERIOD (d : Nat) : Fld := ⟨Reg.RND_PERIOD d, 0, 12⟩
def Fld.RND_PERIOD_PHASE (d : Nat) : Fld := ⟨Reg.RND_PERIOD d, 12, 12⟩
def Fld.RND_PERIOD_SYNC (d : Nat) : Fld := ⟨Reg.RND_PERIOD d, 24, 1⟩
def Fld.RND_FAULT_RING_CORR (d : Nat) : Fld := ⟨Reg.RND_FAULT d, 0, 8⟩
def Fld.RND_FAULT_RING_POISON (d : Nat) : Fld := ⟨Reg.RND_FAULT d, 8, 8⟩
def Fld.RND_FAULT_OP_OVR (d : Nat) : Fld := ⟨Reg.RND_FAULT d, 16, 8⟩
def Fld.RND_FAULT_DISCARD (d : Nat) : Fld := ⟨Reg.RND_FAULT d, 24, 8⟩
def Fld.AVE_GW_RING_BASE (d : Nat) (q : Nat) : Fld := ⟨Reg.AVE_GW_RING d q, 0, 14⟩
def Fld.AVE_GW_RING_SIZE (d : Nat) (q : Nat) : Fld := ⟨Reg.AVE_GW_RING d q, 14, 14⟩
def Fld.AVE_GW_PTR_HEAD (d : Nat) (q : Nat) : Fld := ⟨Reg.AVE_GW_PTR d q, 0, 16⟩
def Fld.AVE_GW_PTR_TAIL (d : Nat) (q : Nat) : Fld := ⟨Reg.AVE_GW_PTR d q, 16, 16⟩
def Fld.AVE_GW_FWD_FIRST (d : Nat) (j : Nat) : Fld := ⟨Reg.AVE_GW_FWD d j, 0, 6⟩
def Fld.AVE_GW_FWD_COUNT (d : Nat) (j : Nat) : Fld := ⟨Reg.AVE_GW_FWD d j, 6, 6⟩
def Fld.AVE_GW_FWD_DEST (d : Nat) (j : Nat) : Fld := ⟨Reg.AVE_GW_FWD d j, 12, 8⟩
def Fld.AVE_GW_FWD_DFIRST (d : Nat) (j : Nat) : Fld := ⟨Reg.AVE_GW_FWD d j, 20, 6⟩
def Fld.AVE_GW_CNT_FWD_DROP (d : Nat) : Fld := ⟨Reg.AVE_GW_CNT d, 0, 8⟩
def Fld.AVE_GW_CNT_SLICE_REJ (d : Nat) : Fld := ⟨Reg.AVE_GW_CNT d, 8, 8⟩
def Fld.AVE_GW_CNT_TX_BAD (d : Nat) : Fld := ⟨Reg.AVE_GW_CNT d, 16, 8⟩
def Fld.AVE_GW_CNT_RX_FULL (d : Nat) : Fld := ⟨Reg.AVE_GW_CNT d, 24, 8⟩
def Fld.AVE_SCHED_LEN8 : Fld := ⟨Reg.AVE_SCHED, 0, 13⟩
def Fld.AVE_SCHED_NSTATIC : Fld := ⟨Reg.AVE_SCHED, 13, 7⟩
def Fld.AVE_SCHED_NMINI : Fld := ⟨Reg.AVE_SCHED, 20, 11⟩
def Fld.AVE_APPLY_APPLY_CYCLE : Fld := ⟨Reg.AVE_APPLY, 0, 32⟩
def Fld.AVE_SLOT_OWNER (k : Nat) : Fld := ⟨Reg.AVE_SLOT k, 0, 8⟩
def Fld.AVE_SLOT_SCOPE (k : Nat) : Fld := ⟨Reg.AVE_SLOT k, 8, 1⟩
def Fld.AVE_SLOT_SPARE (k : Nat) : Fld := ⟨Reg.AVE_SLOT k, 9, 1⟩
def Fld.AVE_CLAIM_SLOT : Fld := ⟨Reg.AVE_CLAIM, 0, 6⟩
def Fld.AVE_CLAIM_LOCAL : Fld := ⟨Reg.AVE_CLAIM, 8, 4⟩
def Fld.AVE_CLAIM_RELEASE : Fld := ⟨Reg.AVE_CLAIM, 12, 1⟩
def Fld.AVE_CLAIM_STAT_RESULT : Fld := ⟨Reg.AVE_CLAIM_STAT, 0, 16⟩
def Fld.AVE_CLAIM_STAT_SLOT : Fld := ⟨Reg.AVE_CLAIM_STAT, 16, 6⟩
def Fld.AVE_CLAIM_STAT_DONE : Fld := ⟨Reg.AVE_CLAIM_STAT, 24, 1⟩
def Fld.AVE_CLAIM_STAT_LOST : Fld := ⟨Reg.AVE_CLAIM_STAT, 25, 1⟩
def Fld.AVE_SPARE_OWN_SLOT (i : Nat) : Fld := ⟨Reg.AVE_SPARE_OWN i, 0, 6⟩
def Fld.AVE_SPARE_OWN_VALID (i : Nat) : Fld := ⟨Reg.AVE_SPARE_OWN i, 6, 1⟩
def Fld.AVE_SPARE_OWN_OWNER (i : Nat) : Fld := ⟨Reg.AVE_SPARE_OWN i, 8, 8⟩
def Fld.AVE_WLN_STAT_STATE (n : Nat) : Fld := ⟨Reg.AVE_WLN_STAT n, 0, 2⟩
def Fld.AVE_WLN_STAT_LANE_LOCK (n : Nat) : Fld := ⟨Reg.AVE_WLN_STAT n, 2, 4⟩
def Fld.AVE_WLN_STAT_PEER_CHIP (n : Nat) : Fld := ⟨Reg.AVE_WLN_STAT n, 8, 3⟩
def Fld.AVE_WLN_STAT_PEER_PORT (n : Nat) : Fld := ⟨Reg.AVE_WLN_STAT n, 11, 1⟩
def Fld.AVE_WLN_STAT_PEER_COLD (n : Nat) : Fld := ⟨Reg.AVE_WLN_STAT n, 12, 1⟩
def Fld.AVE_WLN_STAT_PEER_RANK (n : Nat) : Fld := ⟨Reg.AVE_WLN_STAT n, 13, 2⟩
def Fld.AVE_WLN_STAT_MEDIUM (n : Nat) : Fld := ⟨Reg.AVE_WLN_STAT n, 16, 8⟩
def Fld.AVE_WLN_STAT_DOWN_CNT (n : Nat) : Fld := ⟨Reg.AVE_WLN_STAT n, 24, 8⟩
def Fld.AVE_RING_STAT_DRING : Fld := ⟨Reg.AVE_RING_STAT, 0, 14⟩
def Fld.AVE_RING_STAT_NCHIPS : Fld := ⟨Reg.AVE_RING_STAT, 16, 4⟩
def Fld.AVE_RING_STAT_COMPLETE : Fld := ⟨Reg.AVE_RING_STAT, 20, 1⟩
def Fld.AVE_RING_STAT_BROKEN : Fld := ⟨Reg.AVE_RING_STAT, 21, 1⟩
def Fld.AVE_RING_STAT_COLD_CNT : Fld := ⟨Reg.AVE_RING_STAT, 22, 2⟩
def Fld.AVE_CTRL_W0_EN : Fld := ⟨Reg.AVE_CTRL, 0, 1⟩
def Fld.AVE_CTRL_W1_EN : Fld := ⟨Reg.AVE_CTRL, 1, 1⟩
def Fld.AVE_CTRL_REINT : Fld := ⟨Reg.AVE_CTRL, 2, 1⟩
def Fld.AVE_STAT_STATE : Fld := ⟨Reg.AVE_STAT, 0, 3⟩
def Fld.AVE_STAT_MASTER : Fld := ⟨Reg.AVE_STAT, 3, 1⟩
def Fld.AVE_STAT_RING_MISMATCH : Fld := ⟨Reg.AVE_STAT, 4, 1⟩
def Fld.AVE_STAT_CHIP_DUP : Fld := ⟨Reg.AVE_STAT, 5, 1⟩
def Fld.AVE_STAT_COLD_EXCESS : Fld := ⟨Reg.AVE_STAT, 6, 1⟩
def Fld.AVE_STAT_CFG_ERR : Fld := ⟨Reg.AVE_STAT, 7, 1⟩
def Fld.AVE_STAT_SGEN : Fld := ⟨Reg.AVE_STAT, 8, 8⟩
def Fld.AVE_STAT_MASTER_ID : Fld := ⟨Reg.AVE_STAT, 16, 8⟩
def Fld.AVE_ID_CHIP : Fld := ⟨Reg.AVE_ID, 0, 3⟩
def Fld.AVE_ID_COLD : Fld := ⟨Reg.AVE_ID, 8, 1⟩
def Fld.AVE_ID_RANK : Fld := ⟨Reg.AVE_ID, 16, 2⟩
def Fld.AVE_CYCLE_NUM_CYCLE : Fld := ⟨Reg.AVE_CYCLE_NUM, 0, 32⟩
def Fld.AVE_OFFSET_OFF : Fld := ⟨Reg.AVE_OFFSET, 0, 8⟩
def Fld.AVE_OFFSET_RATE : Fld := ⟨Reg.AVE_OFFSET, 8, 24⟩
def Fld.AVE_CNT0_REF_MISS : Fld := ⟨Reg.AVE_CNT0, 0, 8⟩
def Fld.AVE_CNT0_OFF_LIMIT : Fld := ⟨Reg.AVE_CNT0, 8, 8⟩
def Fld.AVE_CNT0_WINDOW : Fld := ⟨Reg.AVE_CNT0, 16, 8⟩
def Fld.AVE_CNT0_CHECK : Fld := ⟨Reg.AVE_CNT0, 24, 8⟩
def Fld.AVE_CNT1_RX_DROP : Fld := ⟨Reg.AVE_CNT1, 0, 8⟩
def Fld.AVE_CNT1_BAD_DEST : Fld := ⟨Reg.AVE_CNT1, 8, 8⟩
def Fld.AVE_CNT1_RING_SINGLE : Fld := ⟨Reg.AVE_CNT1, 16, 8⟩
def Fld.AVE_CNT1_RING_LOST : Fld := ⟨Reg.AVE_CNT1, 24, 8⟩
def Fld.XING_STAT_FATAL : Fld := ⟨Reg.XING_STAT, 0, 1⟩
def Fld.XING_STAT_SHADOW_OVF : Fld := ⟨Reg.XING_STAT, 1, 1⟩
def Fld.XING_STAT_CFG_ERR : Fld := ⟨Reg.XING_STAT, 31, 1⟩
def Fld.XING_GEN_STAT_CUR : Fld := ⟨Reg.XING_GEN_STAT, 0, 8⟩
def Fld.XING_GEN_STAT_OLD_LIVE : Fld := ⟨Reg.XING_GEN_STAT, 8, 1⟩
def Fld.XING_GEN_STAT_SYNC : Fld := ⟨Reg.XING_GEN_STAT, 9, 1⟩
def Fld.XING_GEN_STAT_OLD_INFLIGHT : Fld := ⟨Reg.XING_GEN_STAT, 10, 22⟩
def Fld.XING_TBL_ADDR_TABLE : Fld := ⟨Reg.XING_TBL_ADDR, 0, 4⟩
def Fld.XING_TBL_ADDR_OLD : Fld := ⟨Reg.XING_TBL_ADDR, 4, 1⟩
def Fld.XING_TBL_ADDR_INDEX : Fld := ⟨Reg.XING_TBL_ADDR, 8, 16⟩
def Fld.XING_TBL_CMD_OP : Fld := ⟨Reg.XING_TBL_CMD, 0, 2⟩
def Fld.XING_TBL_CMD_DONE : Fld := ⟨Reg.XING_TBL_CMD, 2, 1⟩
def Fld.XING_TBL_CMD_RESULT : Fld := ⟨Reg.XING_TBL_CMD, 16, 16⟩
def Fld.XING_TBL_DATA_DATA (i : Nat) : Fld := ⟨Reg.XING_TBL_DATA i, 0, 32⟩
def Fld.XING_BUF_STAT_FREE : Fld := ⟨Reg.XING_BUF_STAT, 0, 16⟩
def Fld.XING_BUF_STAT_MIN_FREE : Fld := ⟨Reg.XING_BUF_STAT, 16, 16⟩
def Fld.XING_BUF_CFG_HI_RESERVE : Fld := ⟨Reg.XING_BUF_CFG, 0, 16⟩
def Fld.XING_BUF_CFG_ALLEY_MIN : Fld := ⟨Reg.XING_BUF_CFG, 16, 16⟩
def Fld.XING_BUF_LEASE_LEASED : Fld := ⟨Reg.XING_BUF_LEASE, 0, 16⟩
def Fld.XING_LAMP_STAT_ORPHAN : Fld := ⟨Reg.XING_LAMP_STAT, 0, 16⟩
def Fld.XING_LAMP_STAT_LEASE_FREED : Fld := ⟨Reg.XING_LAMP_STAT, 16, 16⟩
def Fld.XING_LAMP_ROUND_ROUND : Fld := ⟨Reg.XING_LAMP_ROUND, 0, 24⟩
def Fld.XING_LAMP_ROUND_STALE_USE : Fld := ⟨Reg.XING_LAMP_ROUND, 24, 8⟩
def Fld.XING_DUP_DROP_COUNT : Fld := ⟨Reg.XING_DUP_DROP, 0, 32⟩
def Fld.XING_ALLEY_EN : Fld := ⟨Reg.XING_ALLEY, 0, 1⟩
def Fld.XING_ALLEY_TARGET : Fld := ⟨Reg.XING_ALLEY, 1, 6⟩
def Fld.XING_ALLEY_QUEUE : Fld := ⟨Reg.XING_ALLEY, 7, 9⟩
def Fld.XING_DROP_LAST_REASON : Fld := ⟨Reg.XING_DROP_LAST, 0, 8⟩
def Fld.XING_DROP_LAST_SOURCE : Fld := ⟨Reg.XING_DROP_LAST, 8, 6⟩
def Fld.XING_DROP_LAST_QUEUE : Fld := ⟨Reg.XING_DROP_LAST, 16, 9⟩
def Fld.XING_DROP_LAST_VALID : Fld := ⟨Reg.XING_DROP_LAST, 31, 1⟩
def Fld.XING_DROP_COUNT (r : Nat) : Fld := ⟨Reg.XING_DROP r, 0, 32⟩
def Fld.XING_LAG_STAT_UP (g : Nat) : Fld := ⟨Reg.XING_LAG_STAT g, 0, 8⟩
def Fld.XING_LAG_STAT_MOVES (g : Nat) : Fld := ⟨Reg.XING_LAG_STAT g, 8, 8⟩
def Fld.XING_QDEPTH_CELLS (q : Nat) : Fld := ⟨Reg.XING_QDEPTH q, 0, 16⟩
def Fld.XING_QDEPTH_FRAMES (q : Nat) : Fld := ⟨Reg.XING_QDEPTH q, 16, 15⟩
def Fld.XING_QDEPTH_SPILLED (q : Nat) : Fld := ⟨Reg.XING_QDEPTH q, 31, 1⟩
def Fld.ETH_CTRL_EN (n : Nat) : Fld := ⟨Reg.ETH_CTRL n, 0, 1⟩
def Fld.ETH_STAT_LINK (n : Nat) : Fld := ⟨Reg.ETH_STAT n, 0, 1⟩
def Fld.ETH_STAT_SPEED_ACT (n : Nat) : Fld := ⟨Reg.ETH_STAT n, 1, 2⟩
def Fld.ETH_STAT_ACTIVE (n : Nat) : Fld := ⟨Reg.ETH_STAT n, 3, 1⟩
def Fld.ETH_STAT_HOLDING (n : Nat) : Fld := ⟨Reg.ETH_STAT n, 4, 1⟩
def Fld.ETH_STAT_FLUSHED (n : Nat) : Fld := ⟨Reg.ETH_STAT n, 5, 1⟩
def Fld.ETH_STAT_THRU_FWD (n : Nat) : Fld := ⟨Reg.ETH_STAT n, 6, 1⟩
def Fld.ETH_STAT_LOOPED (n : Nat) : Fld := ⟨Reg.ETH_STAT n, 7, 1⟩
def Fld.ETH_STAT_PLCA_OK (n : Nat) : Fld := ⟨Reg.ETH_STAT n, 8, 1⟩
def Fld.ETH_STAT_CFG_ERR (n : Nat) : Fld := ⟨Reg.ETH_STAT n, 31, 1⟩
def Fld.ETH_CFG_SPEED (n : Nat) : Fld := ⟨Reg.ETH_CFG n, 0, 2⟩
def Fld.ETH_CFG_AN (n : Nat) : Fld := ⟨Reg.ETH_CFG n, 2, 1⟩
def Fld.ETH_CFG_SERDES (n : Nat) : Fld := ⟨Reg.ETH_CFG n, 3, 1⟩
def Fld.ETH_CFG_MAXLEN (n : Nat) : Fld := ⟨Reg.ETH_CFG n, 4, 14⟩
def Fld.ETH_CFG_STAMPQ (n : Nat) : Fld := ⟨Reg.ETH_CFG n, 18, 1⟩
def Fld.ETH_CFG_T1S_MODE (n : Nat) : Fld := ⟨Reg.ETH_CFG n, 19, 2⟩
def Fld.ETH_HOLD_HOLD_MS (n : Nat) : Fld := ⟨Reg.ETH_HOLD n, 0, 10⟩
def Fld.ETH_PLCA_NODE_ID (n : Nat) : Fld := ⟨Reg.ETH_PLCA n, 0, 8⟩
def Fld.ETH_PLCA_NODE_CNT (n : Nat) : Fld := ⟨Reg.ETH_PLCA n, 8, 8⟩
def Fld.ETH_PLCA_TO_TIMER (n : Nat) : Fld := ⟨Reg.ETH_PLCA n, 16, 8⟩
def Fld.ETH_PLCA_BURST_CNT (n : Nat) : Fld := ⟨Reg.ETH_PLCA n, 24, 4⟩
def Fld.ETH_PLCA_BEACON_TO (n : Nat) : Fld := ⟨Reg.ETH_PLCA n, 28, 4⟩
def Fld.ETH_THRU_PARTNER (n : Nat) : Fld := ⟨Reg.ETH_THRU n, 0, 6⟩
def Fld.ETH_THRU_EN (n : Nat) : Fld := ⟨Reg.ETH_THRU n, 6, 1⟩
def Fld.ETH_THRU_LOOP (n : Nat) : Fld := ⟨Reg.ETH_THRU n, 7, 1⟩
def Fld.ETH_SNAP_GO (n : Nat) : Fld := ⟨Reg.ETH_SNAP n, 0, 1⟩
def Fld.ETH_SNAP_DONE (n : Nat) : Fld := ⟨Reg.ETH_SNAP n, 1, 1⟩
def Fld.ETH_CNT_HALF0_HALF (n : Nat) : Fld := ⟨Reg.ETH_CNT_HALF0 n, 0, 32⟩
def Fld.ETH_CNT_HALF1_HALF (n : Nat) : Fld := ⟨Reg.ETH_CNT_HALF1 n, 0, 16⟩
def Fld.ETH_CNT_IEN0_IEN (n : Nat) : Fld := ⟨Reg.ETH_CNT_IEN0 n, 0, 32⟩
def Fld.ETH_CNT_IEN1_IEN (n : Nat) : Fld := ⟨Reg.ETH_CNT_IEN1 n, 0, 16⟩
def Fld.ETH_CNT_COUNT (n : Nat) (i : Nat) : Fld := ⟨Reg.ETH_CNT n i, 0, 32⟩
def Fld.ETH_SNAP_CNT_COUNT (n : Nat) (i : Nat) : Fld := ⟨Reg.ETH_SNAP_CNT n i, 0, 32⟩
def Fld.CAN_CTRL_EN (n : Nat) : Fld := ⟨Reg.CAN_CTRL n, 0, 1⟩
def Fld.CAN_NBT_NBRP (n : Nat) : Fld := ⟨Reg.CAN_NBT n, 0, 8⟩
def Fld.CAN_NBT_NTSEG1 (n : Nat) : Fld := ⟨Reg.CAN_NBT n, 8, 8⟩
def Fld.CAN_NBT_NTSEG2 (n : Nat) : Fld := ⟨Reg.CAN_NBT n, 16, 7⟩
def Fld.CAN_NBT_NSJW (n : Nat) : Fld := ⟨Reg.CAN_NBT n, 23, 7⟩
def Fld.CAN_NBT_TRIPLE (n : Nat) : Fld := ⟨Reg.CAN_NBT n, 30, 1⟩
def Fld.CAN_DBT_DBRP (n : Nat) : Fld := ⟨Reg.CAN_DBT n, 0, 5⟩
def Fld.CAN_DBT_DTSEG1 (n : Nat) : Fld := ⟨Reg.CAN_DBT n, 5, 5⟩
def Fld.CAN_DBT_DTSEG2 (n : Nat) : Fld := ⟨Reg.CAN_DBT n, 10, 4⟩
def Fld.CAN_DBT_DSJW (n : Nat) : Fld := ⟨Reg.CAN_DBT n, 14, 4⟩
def Fld.CAN_DBT_TDC_EN (n : Nat) : Fld := ⟨Reg.CAN_DBT n, 18, 1⟩
def Fld.CAN_DBT_TDCO (n : Nat) : Fld := ⟨Reg.CAN_DBT n, 19, 6⟩
def Fld.CAN_CFG_FD_EN (n : Nat) : Fld := ⟨Reg.CAN_CFG n, 0, 1⟩
def Fld.CAN_CFG_PXE (n : Nat) : Fld := ⟨Reg.CAN_CFG n, 1, 1⟩
def Fld.CAN_CFG_STAMPQ (n : Nat) : Fld := ⟨Reg.CAN_CFG n, 2, 1⟩
def Fld.CAN_STAT_OPSTATE (n : Nat) : Fld := ⟨Reg.CAN_STAT n, 0, 2⟩
def Fld.CAN_STAT_CONF (n : Nat) : Fld := ⟨Reg.CAN_STAT n, 2, 2⟩
def Fld.CAN_STAT_WARN (n : Nat) : Fld := ⟨Reg.CAN_STAT n, 4, 1⟩
def Fld.CAN_STAT_RECOVERING (n : Nat) : Fld := ⟨Reg.CAN_STAT n, 5, 1⟩
def Fld.CAN_STAT_CFG_ERR (n : Nat) : Fld := ⟨Reg.CAN_STAT n, 31, 1⟩
def Fld.CAN_ECNT_TEC (n : Nat) : Fld := ⟨Reg.CAN_ECNT n, 0, 9⟩
def Fld.CAN_ECNT_REC (n : Nat) : Fld := ⟨Reg.CAN_ECNT n, 16, 8⟩
def Fld.CAN_CMD_CMD (n : Nat) : Fld := ⟨Reg.CAN_CMD n, 0, 8⟩
def Fld.CAN_CMD_OBJ (n : Nat) : Fld := ⟨Reg.CAN_CMD n, 8, 5⟩
def Fld.CAN_CMD_RES_RESULT (n : Nat) : Fld := ⟨Reg.CAN_CMD_RES n, 0, 16⟩
def Fld.CAN_CMD_RES_CMD (n : Nat) : Fld := ⟨Reg.CAN_CMD_RES n, 16, 8⟩
def Fld.CAN_CMD_RES_DONE (n : Nat) : Fld := ⟨Reg.CAN_CMD_RES n, 24, 1⟩
def Fld.CAN_CMD_RES_LOST (n : Nat) : Fld := ⟨Reg.CAN_CMD_RES n, 25, 1⟩
def Fld.CAN_TDC_STAT_TDCV (n : Nat) : Fld := ⟨Reg.CAN_TDC_STAT n, 0, 6⟩
def Fld.CAN_ERRLOG_CODE (n : Nat) : Fld := ⟨Reg.CAN_ERRLOG n, 0, 3⟩
def Fld.CAN_ERRLOG_PHASE (n : Nat) : Fld := ⟨Reg.CAN_ERRLOG n, 3, 1⟩
def Fld.CAN_ERRLOG_DIR (n : Nat) : Fld := ⟨Reg.CAN_ERRLOG n, 4, 1⟩
def Fld.CAN_ERRLOG_COUNT (n : Nat) : Fld := ⟨Reg.CAN_ERRLOG n, 16, 16⟩
def Fld.CAN_CNT0_RX_OK (n : Nat) : Fld := ⟨Reg.CAN_CNT0 n, 0, 16⟩
def Fld.CAN_CNT0_TX_OK (n : Nat) : Fld := ⟨Reg.CAN_CNT0 n, 16, 16⟩
def Fld.CAN_CNT1_NOMATCH (n : Nat) : Fld := ⟨Reg.CAN_CNT1 n, 0, 8⟩
def Fld.CAN_CNT1_LOST (n : Nat) : Fld := ⟨Reg.CAN_CNT1 n, 8, 8⟩
def Fld.CAN_CNT1_PEX (n : Nat) : Fld := ⟨Reg.CAN_CNT1 n, 16, 8⟩
def Fld.CAN_CNT1_BUSOFF (n : Nat) : Fld := ⟨Reg.CAN_CNT1 n, 24, 8⟩
def Fld.CAN_SOF_CNT_COUNT (n : Nat) : Fld := ⟨Reg.CAN_SOF_CNT n, 0, 16⟩
def Fld.CAN_RXID_ID (n : Nat) (o : Nat) : Fld := ⟨Reg.CAN_RXID n o, 0, 29⟩
def Fld.CAN_RXID_IDE (n : Nat) (o : Nat) : Fld := ⟨Reg.CAN_RXID n o, 29, 1⟩
def Fld.CAN_RXID_EN (n : Nat) (o : Nat) : Fld := ⟨Reg.CAN_RXID n o, 30, 1⟩
def Fld.CAN_RXID_IE (n : Nat) (o : Nat) : Fld := ⟨Reg.CAN_RXID n o, 31, 1⟩
def Fld.SER_CTRL_EN (n : Nat) : Fld := ⟨Reg.SER_CTRL n, 0, 1⟩
def Fld.SER_STAT_OPSTATE (n : Nat) : Fld := ⟨Reg.SER_STAT n, 0, 2⟩
def Fld.SER_STAT_SSI_BUSY (n : Nat) : Fld := ⟨Reg.SER_STAT n, 2, 1⟩
def Fld.SER_STAT_CFG_ERR (n : Nat) : Fld := ⟨Reg.SER_STAT n, 31, 1⟩
def Fld.SER_CFG_MODE (n : Nat) : Fld := ⟨Reg.SER_CFG n, 0, 3⟩
def Fld.SER_CFG_DATA (n : Nat) : Fld := ⟨Reg.SER_CFG n, 3, 2⟩
def Fld.SER_CFG_PARITY (n : Nat) : Fld := ⟨Reg.SER_CFG n, 5, 2⟩
def Fld.SER_CFG_STOP (n : Nat) : Fld := ⟨Reg.SER_CFG n, 7, 1⟩
def Fld.SER_CFG_HALF (n : Nat) : Fld := ⟨Reg.SER_CFG n, 8, 1⟩
def Fld.SER_CFG_ECHO (n : Nat) : Fld := ⟨Reg.SER_CFG n, 9, 1⟩
def Fld.SER_CFG_COM (n : Nat) : Fld := ⟨Reg.SER_CFG n, 10, 2⟩
def Fld.SER_CFG_RX_THRESH (n : Nat) : Fld := ⟨Reg.SER_CFG n, 12, 10⟩
def Fld.SER_CFG_GRAY (n : Nat) : Fld := ⟨Reg.SER_CFG n, 22, 1⟩
def Fld.SER_CFG_SSI_BITS (n : Nat) : Fld := ⟨Reg.SER_CFG n, 23, 5⟩
def Fld.SER_RATE_BITLEN16 (n : Nat) : Fld := ⟨Reg.SER_RATE n, 0, 23⟩
def Fld.SER_GAP_T15 (n : Nat) : Fld := ⟨Reg.SER_GAP n, 0, 16⟩
def Fld.SER_GAP_T35 (n : Nat) : Fld := ⟨Reg.SER_GAP n, 16, 16⟩
def Fld.SER_DE_LEAD (n : Nat) : Fld := ⟨Reg.SER_DE n, 0, 12⟩
def Fld.SER_DE_LAG (n : Nat) : Fld := ⟨Reg.SER_DE n, 16, 12⟩
def Fld.SER_CNT_PAR_ERR (n : Nat) : Fld := ⟨Reg.SER_CNT n, 0, 8⟩
def Fld.SER_CNT_FRM_ERR (n : Nat) : Fld := ⟨Reg.SER_CNT n, 8, 8⟩
def Fld.SER_CNT_RX_OVR (n : Nat) : Fld := ⟨Reg.SER_CNT n, 16, 8⟩
def Fld.SER_CNT_GAP15 (n : Nat) : Fld := ⟨Reg.SER_CNT n, 24, 8⟩
def Fld.SYS_PKG_CMD_OP : Fld := ⟨Reg.SYS_PKG_CMD, 0, 2⟩
def Fld.SYS_PKG_CMD_ENGINE : Fld := ⟨Reg.SYS_PKG_CMD, 4, 8⟩
def Fld.SYS_PKG_CMD_ROLE : Fld := ⟨Reg.SYS_PKG_CMD, 12, 4⟩
def Fld.SYS_PKG_CMD_TAG : Fld := ⟨Reg.SYS_PKG_CMD, 16, 8⟩
def Fld.SYS_PKG_RES_RESULT : Fld := ⟨Reg.SYS_PKG_RES, 0, 16⟩
def Fld.SYS_PKG_RES_TAG : Fld := ⟨Reg.SYS_PKG_RES, 16, 8⟩
def Fld.SYS_PKG_RES_DONE : Fld := ⟨Reg.SYS_PKG_RES, 24, 1⟩
def Fld.SYS_PKG_RES_LOST : Fld := ⟨Reg.SYS_PKG_RES, 25, 1⟩
def Fld.SYS_PKG_ENG_PKG_ID (e : Nat) : Fld := ⟨Reg.SYS_PKG_ENG e, 0, 16⟩
def Fld.SYS_PKG_ENG_ROLE (e : Nat) : Fld := ⟨Reg.SYS_PKG_ENG e, 16, 4⟩
def Fld.SYS_PKG_ENG_INDEX (e : Nat) : Fld := ⟨Reg.SYS_PKG_ENG e, 20, 4⟩
def Fld.SYS_PKG_ENG_FIRST (e : Nat) : Fld := ⟨Reg.SYS_PKG_ENG e, 24, 8⟩
def Fld.TIME_CMD_CMD : Fld := ⟨Reg.TIME_CMD, 0, 8⟩
def Fld.TIME_CMD_DOM : Fld := ⟨Reg.TIME_CMD, 8, 1⟩
def Fld.TIME_CMD_TAG : Fld := ⟨Reg.TIME_CMD, 16, 8⟩
def Fld.TIME_CMD_RES_RESULT : Fld := ⟨Reg.TIME_CMD_RES, 0, 16⟩
def Fld.TIME_CMD_RES_TAG : Fld := ⟨Reg.TIME_CMD_RES, 16, 8⟩
def Fld.TIME_CMD_RES_DONE : Fld := ⟨Reg.TIME_CMD_RES, 24, 1⟩
def Fld.TIME_CMD_RES_LOST : Fld := ⟨Reg.TIME_CMD_RES, 25, 1⟩
def Fld.TIME_STAT_ACTIVE : Fld := ⟨Reg.TIME_STAT, 0, 1⟩
def Fld.TIME_STAT_SLEWING : Fld := ⟨Reg.TIME_STAT, 1, 1⟩
def Fld.TIME_STAT_EXACT : Fld := ⟨Reg.TIME_STAT, 2, 1⟩
def Fld.TIME_STAT_TCLK_LOST : Fld := ⟨Reg.TIME_STAT, 3, 1⟩
def Fld.TIME_STAT_FREE : Fld := ⟨Reg.TIME_STAT, 4, 1⟩
def Fld.TIME_STAT_LINE_STEPS : Fld := ⟨Reg.TIME_STAT, 8, 8⟩
def Fld.TIME_STAT_SWITCHES : Fld := ⟨Reg.TIME_STAT, 16, 8⟩
def Fld.TIME_STAT_CFG_ERR : Fld := ⟨Reg.TIME_STAT, 31, 1⟩
def Fld.TIME_CFG_TREF_25 : Fld := ⟨Reg.TIME_CFG, 0, 1⟩
def Fld.TIME_CFG_AUTO_SWITCH : Fld := ⟨Reg.TIME_CFG, 1, 1⟩
def Fld.TIME_CFG_SLEW_PPM : Fld := ⟨Reg.TIME_CFG, 2, 8⟩
def Fld.TIME_CFG_UTC_OFFSET : Fld := ⟨Reg.TIME_CFG, 16, 16⟩
def Fld.TIME_ARG_ARG (i : Nat) : Fld := ⟨Reg.TIME_ARG i, 0, 32⟩
def Fld.TIME_DOM_CFG_SRC (x : Nat) : Fld := ⟨Reg.TIME_DOM_CFG x, 0, 2⟩
def Fld.TIME_DOM_CFG_AUTO_STEP (x : Nat) : Fld := ⟨Reg.TIME_DOM_CFG x, 2, 1⟩
def Fld.TIME_DOM_CFG_KP (x : Nat) : Fld := ⟨Reg.TIME_DOM_CFG x, 3, 4⟩
def Fld.TIME_DOM_CFG_KI (x : Nat) : Fld := ⟨Reg.TIME_DOM_CFG x, 7, 4⟩
def Fld.TIME_DOM_CFG_LOCK_NS (x : Nat) : Fld := ⟨Reg.TIME_DOM_CFG x, 11, 16⟩
def Fld.TIME_DOM_CFG_MISS_LIMIT (x : Nat) : Fld := ⟨Reg.TIME_DOM_CFG x, 27, 4⟩
def Fld.TIME_DOM_STAT_STATE (x : Nat) : Fld := ⟨Reg.TIME_DOM_STAT x, 0, 2⟩
def Fld.TIME_DOM_STAT_LOCKED (x : Nat) : Fld := ⟨Reg.TIME_DOM_STAT x, 2, 1⟩
def Fld.TIME_DOM_STAT_HOLDOVER (x : Nat) : Fld := ⟨Reg.TIME_DOM_STAT x, 3, 1⟩
def Fld.TIME_DOM_STAT_ACTIVE (x : Nat) : Fld := ⟨Reg.TIME_DOM_STAT x, 4, 1⟩
def Fld.TIME_DOM_STAT_GOOD (x : Nat) : Fld := ⟨Reg.TIME_DOM_STAT x, 8, 8⟩
def Fld.TIME_DOM_STAT_MISS (x : Nat) : Fld := ⟨Reg.TIME_DOM_STAT x, 16, 8⟩
def Fld.TIME_DOM_RATE_LO_RATE (x : Nat) : Fld := ⟨Reg.TIME_DOM_RATE_LO x, 0, 32⟩
def Fld.TIME_DOM_RATE_HI_RATE (x : Nat) : Fld := ⟨Reg.TIME_DOM_RATE_HI x, 0, 8⟩
def Fld.TIME_DOM_OFFSET_OFFSET (x : Nat) : Fld := ⟨Reg.TIME_DOM_OFFSET x, 0, 32⟩
def Fld.TIME_SNAP_SEC_LO_SEC (v : Nat) : Fld := ⟨Reg.TIME_SNAP_SEC_LO v, 0, 32⟩
def Fld.TIME_SNAP_SEC_HI_SEC (v : Nat) : Fld := ⟨Reg.TIME_SNAP_SEC_HI v, 0, 16⟩
def Fld.TIME_SNAP_NS_NS (v : Nat) : Fld := ⟨Reg.TIME_SNAP_NS v, 0, 30⟩
def Fld.TIME_SNAP_SUB_SUB (v : Nat) : Fld := ⟨Reg.TIME_SNAP_SUB v, 0, 16⟩
def Fld.TSQ_RPT_LO_QNS (d : Nat) : Fld := ⟨Reg.TSQ_RPT_LO d, 0, 32⟩
def Fld.TSQ_RPT_HI_SEC (d : Nat) : Fld := ⟨Reg.TSQ_RPT_HI d, 0, 32⟩
def Fld.TSQ_STAT_HEAD (d : Nat) : Fld := ⟨Reg.TSQ_STAT d, 0, 10⟩
def Fld.TSQ_STAT_TAIL (d : Nat) : Fld := ⟨Reg.TSQ_STAT d, 10, 10⟩
def Fld.TSQ_STAT_COUNT (d : Nat) : Fld := ⟨Reg.TSQ_STAT d, 20, 11⟩
def Fld.TSQ_STAT_CFG_ERR (d : Nat) : Fld := ⟨Reg.TSQ_STAT d, 31, 1⟩
def Fld.TSQ_RELEASE_N (d : Nat) : Fld := ⟨Reg.TSQ_RELEASE d, 0, 11⟩
def Fld.TSQ_OVF_DROPS (d : Nat) : Fld := ⟨Reg.TSQ_OVF d, 0, 16⟩
def Fld.TIME_PPS_CFG_EN (n : Nat) : Fld := ⟨Reg.TIME_PPS_CFG n, 0, 1⟩
def Fld.TIME_PPS_CFG_EDGE (n : Nat) : Fld := ⟨Reg.TIME_PPS_CFG n, 1, 1⟩
def Fld.TIME_PPS_CAP_NS_NS (n : Nat) : Fld := ⟨Reg.TIME_PPS_CAP_NS n, 0, 30⟩
def Fld.TIME_PPS_CAP_NS_OVR (n : Nat) : Fld := ⟨Reg.TIME_PPS_CAP_NS n, 30, 1⟩
def Fld.TIME_PPS_CAP_NS_VALID (n : Nat) : Fld := ⟨Reg.TIME_PPS_CAP_NS n, 31, 1⟩
def Fld.TIME_PPS_CAP_SEC_SEC (n : Nat) : Fld := ⟨Reg.TIME_PPS_CAP_SEC n, 0, 32⟩
def Fld.TIME_PPS_CNT_GOOD (n : Nat) : Fld := ⟨Reg.TIME_PPS_CNT n, 0, 16⟩
def Fld.TIME_PPS_CNT_BAD (n : Nat) : Fld := ⟨Reg.TIME_PPS_CNT n, 16, 16⟩
def Fld.TIME_OUT_CTRL_MODE (k : Nat) : Fld := ⟨Reg.TIME_OUT_CTRL k, 0, 2⟩
def Fld.TIME_OUT_CTRL_POL (k : Nat) : Fld := ⟨Reg.TIME_OUT_CTRL k, 2, 1⟩
def Fld.TIME_OUT_CTRL_MISSED (k : Nat) : Fld := ⟨Reg.TIME_OUT_CTRL k, 31, 1⟩
def Fld.TIME_OUT_START_NS_NS (k : Nat) : Fld := ⟨Reg.TIME_OUT_START_NS k, 0, 30⟩
def Fld.TIME_OUT_START_SEC_SEC (k : Nat) : Fld := ⟨Reg.TIME_OUT_START_SEC k, 0, 32⟩
def Fld.TIME_OUT_PERIOD_PERIOD (k : Nat) : Fld := ⟨Reg.TIME_OUT_PERIOD k, 0, 32⟩
def Fld.TIME_OUT_WIDTH_WIDTH (k : Nat) : Fld := ⟨Reg.TIME_OUT_WIDTH k, 0, 32⟩
def Fld.IMG_STAT_READY : Fld := ⟨Reg.IMG_STAT, 0, 1⟩
def Fld.IMG_STAT_COMMITTING : Fld := ⟨Reg.IMG_STAT, 1, 1⟩
def Fld.IMG_STAT_OPEN : Fld := ⟨Reg.IMG_STAT, 8, 7⟩
def Fld.IMG_STAT_PINS : Fld := ⟨Reg.IMG_STAT, 16, 4⟩
def Fld.IMG_STAT_CFG_ERR : Fld := ⟨Reg.IMG_STAT, 31, 1⟩
def Fld.IMG_EPOCH_LO_EPOCH : Fld := ⟨Reg.IMG_EPOCH_LO, 0, 32⟩
def Fld.IMG_EPOCH_HI_EPOCH : Fld := ⟨Reg.IMG_EPOCH_HI, 0, 32⟩
def Fld.IMG_COW_WAIT_WAIT_US : Fld := ⟨Reg.IMG_COW_WAIT, 0, 20⟩
def Fld.IMG_COW_STAT_FREE : Fld := ⟨Reg.IMG_COW_STAT, 0, 24⟩
def Fld.IMG_ERR_COW_DROP : Fld := ⟨Reg.IMG_ERR, 0, 8⟩
def Fld.IMG_ERR_TXN_REFUSED : Fld := ⟨Reg.IMG_ERR, 8, 8⟩
def Fld.IMG_ERR_ECC : Fld := ⟨Reg.IMG_ERR, 16, 8⟩
def Fld.IMG_ERR_WSET_OVF : Fld := ⟨Reg.IMG_ERR, 24, 8⟩
def Fld.IMG_DUP_COUNT : Fld := ⟨Reg.IMG_DUP, 0, 32⟩
def Fld.IMG_TXN_CNT_COMMITS : Fld := ⟨Reg.IMG_TXN_CNT, 0, 16⟩
def Fld.IMG_TXN_CNT_CONFLICTS : Fld := ⟨Reg.IMG_TXN_CNT, 16, 16⟩
def Fld.IMG_BASE_SEC_LO_SEC : Fld := ⟨Reg.IMG_BASE_SEC_LO, 0, 32⟩
def Fld.IMG_BASE_SEC_HI_SEC : Fld := ⟨Reg.IMG_BASE_SEC_HI, 0, 16⟩
def Fld.IMG_SLOT_STATE (t : Nat) : Fld := ⟨Reg.IMG_SLOT t, 0, 2⟩
def Fld.IMG_SLOT_RECIPE (t : Nat) : Fld := ⟨Reg.IMG_SLOT t, 2, 1⟩
def Fld.IMG_SLOT_OVF (t : Nat) : Fld := ⟨Reg.IMG_SLOT t, 3, 1⟩
def Fld.IMG_SLOT_HOLDER (t : Nat) : Fld := ⟨Reg.IMG_SLOT t, 16, 16⟩
def Fld.IMG_PIN_FIRST_FIRST (k : Nat) : Fld := ⟨Reg.IMG_PIN_FIRST k, 0, 25⟩
def Fld.IMG_PIN_FIRST_HELD (k : Nat) : Fld := ⟨Reg.IMG_PIN_FIRST k, 31, 1⟩
def Fld.IMG_PIN_COUNT_COUNT (k : Nat) : Fld := ⟨Reg.IMG_PIN_COUNT k, 0, 26⟩
def Fld.IMG_PIN_EPOCH_EPOCH (k : Nat) : Fld := ⟨Reg.IMG_PIN_EPOCH k, 0, 32⟩
def Fld.IMG_PIN_HOLDER_HOLDER (k : Nat) : Fld := ⟨Reg.IMG_PIN_HOLDER k, 0, 16⟩
def Fld.IMG_STAGE_LO_STAMP (b : Nat) : Fld := ⟨Reg.IMG_STAGE_LO b, 0, 32⟩
def Fld.IMG_STAGE_HI_STAMP (b : Nat) : Fld := ⟨Reg.IMG_STAGE_HI b, 0, 16⟩
def Fld.IMG_STAGE_HI_QUALITY (b : Nat) : Fld := ⟨Reg.IMG_STAGE_HI b, 16, 8⟩
def Fld.IMG_STAGE_HI_USER (b : Nat) : Fld := ⟨Reg.IMG_STAGE_HI b, 24, 5⟩
def Fld.IMG_STAGE_HI_AUTO (b : Nat) : Fld := ⟨Reg.IMG_STAGE_HI b, 30, 1⟩
def Fld.IMG_FLOWSEQ_FLOW (b : Nat) : Fld := ⟨Reg.IMG_FLOWSEQ b, 0, 12⟩
def Fld.IMG_FLOWSEQ_FLOWV (b : Nat) : Fld := ⟨Reg.IMG_FLOWSEQ b, 12, 1⟩
def Fld.IMG_FLOWSEQ_SEQ (b : Nat) : Fld := ⟨Reg.IMG_FLOWSEQ b, 16, 16⟩
def Fld.IMG_VIEW_PIN (b : Nat) : Fld := ⟨Reg.IMG_VIEW b, 0, 3⟩
def Fld.IMG_VIEW_SNAP (b : Nat) : Fld := ⟨Reg.IMG_VIEW b, 3, 1⟩
def Fld.IMG_VIEW_CHIP (b : Nat) : Fld := ⟨Reg.IMG_VIEW b, 4, 3⟩
def Fld.IMG_VIEW_REMOTE (b : Nat) : Fld := ⟨Reg.IMG_VIEW b, 7, 1⟩
def Fld.IMG_TXN_SEL_SLOT (b : Nat) : Fld := ⟨Reg.IMG_TXN_SEL b, 0, 6⟩
def Fld.IMG_TXN_SEL_SEL (b : Nat) : Fld := ⟨Reg.IMG_TXN_SEL b, 6, 1⟩
def Fld.IMG_TXN_VERB (b : Nat) : Fld := ⟨Reg.IMG_TXN b, 0, 2⟩
def Fld.IMG_TXN_RECIPE (b : Nat) : Fld := ⟨Reg.IMG_TXN b, 2, 1⟩
def Fld.IMG_TXN_SLOT (b : Nat) : Fld := ⟨Reg.IMG_TXN b, 8, 6⟩
def Fld.IMG_PIN_VERB (b : Nat) : Fld := ⟨Reg.IMG_PIN b, 0, 2⟩
def Fld.IMG_PIN_PIN (b : Nat) : Fld := ⟨Reg.IMG_PIN b, 4, 3⟩
def Fld.IMG_ARG0_FIRST (b : Nat) : Fld := ⟨Reg.IMG_ARG0 b, 0, 25⟩
def Fld.IMG_ARG1_COUNT (b : Nat) : Fld := ⟨Reg.IMG_ARG1 b, 0, 26⟩
def Fld.IMG_RES_RESULT (b : Nat) : Fld := ⟨Reg.IMG_RES b, 0, 16⟩
def Fld.IMG_RES_SLOT (b : Nat) : Fld := ⟨Reg.IMG_RES b, 16, 6⟩
def Fld.IMG_RES_PIN (b : Nat) : Fld := ⟨Reg.IMG_RES b, 22, 3⟩
def Fld.IMG_RES_DONE (b : Nat) : Fld := ⟨Reg.IMG_RES b, 25, 1⟩
def Fld.IMG_RES_LOST (b : Nat) : Fld := ⟨Reg.IMG_RES b, 26, 1⟩
def Fld.IMG_RES_ERR (b : Nat) : Fld := ⟨Reg.IMG_RES b, 27, 1⟩
def Fld.IMG_RES_DUP (b : Nat) : Fld := ⟨Reg.IMG_RES b, 28, 1⟩
def Fld.IMG_RES_EPOCH_LO_EPOCH (b : Nat) : Fld := ⟨Reg.IMG_RES_EPOCH_LO b, 0, 32⟩
def Fld.IMG_RES_EPOCH_HI_EPOCH (b : Nat) : Fld := ⟨Reg.IMG_RES_EPOCH_HI b, 0, 32⟩
def Fld.IMG_LATCH_LATCH (b : Nat) (k : Nat) : Fld := ⟨Reg.IMG_LATCH b k, 0, 32⟩
def Fld.SRU_CTRL_EN (d : Nat) : Fld := ⟨Reg.SRU_CTRL d, 0, 1⟩
def Fld.SRU_STAT_INQ (d : Nat) : Fld := ⟨Reg.SRU_STAT d, 0, 7⟩
def Fld.SRU_STAT_STALL (d : Nat) : Fld := ⟨Reg.SRU_STAT d, 7, 1⟩
def Fld.SRU_STAT_FAULT (d : Nat) : Fld := ⟨Reg.SRU_STAT d, 8, 1⟩
def Fld.SRU_STAT_EOSQ (d : Nat) : Fld := ⟨Reg.SRU_STAT d, 9, 7⟩
def Fld.SRU_STAT_CFG_ERR (d : Nat) : Fld := ⟨Reg.SRU_STAT d, 31, 1⟩
def Fld.SRU_EXPORT_BASE64 (d : Nat) : Fld := ⟨Reg.SRU_EXPORT d, 0, 19⟩
def Fld.SRU_EXPORT_EN (d : Nat) : Fld := ⟨Reg.SRU_EXPORT d, 19, 1⟩
def Fld.SRU_MINDT_MIN_DT (d : Nat) : Fld := ⟨Reg.SRU_MINDT d, 0, 20⟩
def Fld.SRU_IN_FIRST (d : Nat) (j : Nat) : Fld := ⟨Reg.SRU_IN d j, 0, 6⟩
def Fld.SRU_IN_EN (d : Nat) (j : Nat) : Fld := ⟨Reg.SRU_IN d j, 6, 1⟩
def Fld.SRU_CNT0_NOT_OWNED (d : Nat) : Fld := ⟨Reg.SRU_CNT0 d, 0, 8⟩
def Fld.SRU_CNT0_BAD (d : Nat) : Fld := ⟨Reg.SRU_CNT0 d, 8, 8⟩
def Fld.SRU_CNT0_NO_STEP (d : Nat) : Fld := ⟨Reg.SRU_CNT0 d, 16, 8⟩
def Fld.SRU_CNT0_ENDED_IGN (d : Nat) : Fld := ⟨Reg.SRU_CNT0 d, 24, 8⟩
def Fld.SRU_CNT1_STALE (d : Nat) : Fld := ⟨Reg.SRU_CNT1 d, 0, 16⟩
def Fld.SRU_CNT1_SLICE_DROP (d : Nat) : Fld := ⟨Reg.SRU_CNT1 d, 16, 8⟩
def Fld.SRU_CNT1_EOS_DROP (d : Nat) : Fld := ⟨Reg.SRU_CNT1 d, 24, 8⟩
def Fld.SRU_CNT2_ACCEPTED (d : Nat) : Fld := ⟨Reg.SRU_CNT2 d, 0, 32⟩
def Fld.SRU_CNT3_GAP (d : Nat) : Fld := ⟨Reg.SRU_CNT3 d, 0, 8⟩
def Fld.SRU_CNT3_LEDGER_ECC (d : Nat) : Fld := ⟨Reg.SRU_CNT3 d, 8, 8⟩
def Fld.SRU_CNT3_OFF_DROP (d : Nat) : Fld := ⟨Reg.SRU_CNT3 d, 16, 8⟩
def Fld.SRU_CNT3_FAULT_IGN (d : Nat) : Fld := ⟨Reg.SRU_CNT3 d, 24, 8⟩
def Fld.SRU_EOS_Q_CHANNEL (d : Nat) : Fld := ⟨Reg.SRU_EOS_Q d, 0, 17⟩
def Fld.SRU_EOS_Q_END (d : Nat) : Fld := ⟨Reg.SRU_EOS_Q d, 17, 2⟩
def Fld.SRU_EOS_Q_VALID (d : Nat) : Fld := ⟨Reg.SRU_EOS_Q d, 31, 1⟩
def Fld.SRU_CMD_OP (d : Nat) : Fld := ⟨Reg.SRU_CMD d, 0, 2⟩
def Fld.SRU_CMD_CHAN (d : Nat) : Fld := ⟨Reg.SRU_CMD d, 16, 14⟩
def Fld.SRU_CMD_RES_RESULT (d : Nat) : Fld := ⟨Reg.SRU_CMD_RES d, 0, 16⟩
def Fld.SRU_CMD_RES_DONE (d : Nat) : Fld := ⟨Reg.SRU_CMD_RES d, 24, 1⟩
def Fld.SRU_CMD_RES_LOST (d : Nat) : Fld := ⟨Reg.SRU_CMD_RES d, 25, 1⟩
def Fld.SRU_PS_W0_DIR (d : Nat) (s : Nat) : Fld := ⟨Reg.SRU_PS_W0 d s, 0, 2⟩
def Fld.SRU_PS_W0_CUT_EN (d : Nat) (s : Nat) : Fld := ⟨Reg.SRU_PS_W0 d s, 2, 1⟩
def Fld.SRU_PS_W0_TAPER_EN (d : Nat) (s : Nat) : Fld := ⟨Reg.SRU_PS_W0 d s, 3, 1⟩
def Fld.SRU_PS_W0_MAXT_EN (d : Nat) (s : Nat) : Fld := ⟨Reg.SRU_PS_W0 d s, 4, 1⟩
def Fld.SRU_PS_W0_HIST_EN (d : Nat) (s : Nat) : Fld := ⟨Reg.SRU_PS_W0 d s, 5, 1⟩
def Fld.SRU_PS_W0_BIN_SHIFT (d : Nat) (s : Nat) : Fld := ⟨Reg.SRU_PS_W0 d s, 6, 5⟩
def Fld.SRU_PS_W0_HQ_SHIFT (d : Nat) (s : Nat) : Fld := ⟨Reg.SRU_PS_W0 d s, 11, 5⟩
def Fld.SRU_PS_W1_CUT_V (d : Nat) (s : Nat) : Fld := ⟨Reg.SRU_PS_W1 d s, 0, 32⟩
def Fld.SRU_PS_W2_TAPER_I (d : Nat) (s : Nat) : Fld := ⟨Reg.SRU_PS_W2 d s, 0, 31⟩
def Fld.SRU_PS_W3_MAX_TIME (d : Nat) (s : Nat) : Fld := ⟨Reg.SRU_PS_W3 d s, 0, 32⟩
def Fld.SRU_PS_W4_DV_TH (d : Nat) (s : Nat) : Fld := ⟨Reg.SRU_PS_W4 d s, 0, 32⟩
def Fld.SRU_PS_W5_DI_TH (d : Nat) (s : Nat) : Fld := ⟨Reg.SRU_PS_W5 d s, 0, 32⟩
def Fld.SRU_PS_W6_DT_TH (d : Nat) (s : Nat) : Fld := ⟨Reg.SRU_PS_W6 d s, 0, 16⟩
def Fld.SRU_PS_W6_MAX_GAP (d : Nat) (s : Nat) : Fld := ⟨Reg.SRU_PS_W6 d s, 16, 16⟩
def Fld.SRU_PS_W7_HIST_VLO (d : Nat) (s : Nat) : Fld := ⟨Reg.SRU_PS_W7 d s, 0, 32⟩
def Fld.SRU_PS_W8_DVDT_WIN (d : Nat) (s : Nat) : Fld := ⟨Reg.SRU_PS_W8 d s, 0, 32⟩
def Fld.SRU_PS_W9_EXP_PERIOD (d : Nat) (s : Nat) : Fld := ⟨Reg.SRU_PS_W9 d s, 0, 32⟩
def Fld.SRU_LATCH_DATA (d : Nat) (i : Nat) : Fld := ⟨Reg.SRU_LATCH d i, 0, 32⟩
def Fld.SRU_GSTAT_EOS : Fld := ⟨Reg.SRU_GSTAT, 0, 8⟩
def Fld.SRU_GSTAT_FAULT : Fld := ⟨Reg.SRU_GSTAT, 8, 8⟩
def Fld.RED_CFG_HB_US : Fld := ⟨Reg.RED_CFG, 0, 14⟩
def Fld.RED_CFG_KEEP_HALTED : Fld := ⟨Reg.RED_CFG, 14, 1⟩
def Fld.RED_CFG_RESTORE_MS : Fld := ⟨Reg.RED_CFG, 16, 8⟩
def Fld.RED_CFG_MRAM_100MS : Fld := ⟨Reg.RED_CFG, 24, 8⟩
def Fld.RED_STAT_PAIRED : Fld := ⟨Reg.RED_STAT, 0, 6⟩
def Fld.RED_STAT_SINGLE : Fld := ⟨Reg.RED_STAT, 6, 6⟩
def Fld.RED_STAT_RESTORING : Fld := ⟨Reg.RED_STAT, 12, 6⟩
def Fld.RED_STAT_LOST : Fld := ⟨Reg.RED_STAT, 18, 6⟩
def Fld.RED_STAT_CFG_ERR : Fld := ⟨Reg.RED_STAT, 31, 1⟩
def Fld.RED_CMD_CMD : Fld := ⟨Reg.RED_CMD, 0, 8⟩
def Fld.RED_CMD_TAG : Fld := ⟨Reg.RED_CMD, 8, 8⟩
def Fld.RED_CMD_RES_RESULT : Fld := ⟨Reg.RED_CMD_RES, 0, 16⟩
def Fld.RED_CMD_RES_TAG : Fld := ⟨Reg.RED_CMD_RES, 16, 8⟩
def Fld.RED_CMD_RES_DONE : Fld := ⟨Reg.RED_CMD_RES, 24, 1⟩
def Fld.RED_CMD_RES_LOST : Fld := ⟨Reg.RED_CMD_RES, 25, 1⟩
def Fld.RED_CNT0_DUP : Fld := ⟨Reg.RED_CNT0, 0, 16⟩
def Fld.RED_CNT0_RESYNC : Fld := ⟨Reg.RED_CNT0, 16, 8⟩
def Fld.RED_CNT0_DIVERGE : Fld := ⟨Reg.RED_CNT0, 24, 8⟩
def Fld.RED_CNT1_NOTAG : Fld := ⟨Reg.RED_CNT1, 0, 8⟩
def Fld.RED_CNT1_PATH1_FAULT : Fld := ⟨Reg.RED_CNT1, 8, 8⟩
def Fld.RED_CNT1_DECLARED : Fld := ⟨Reg.RED_CNT1, 16, 8⟩
def Fld.RED_CNT1_RESTORE_FAIL : Fld := ⟨Reg.RED_CNT1, 24, 8⟩
def Fld.RED_CNT2_PROXY_DROP : Fld := ⟨Reg.RED_CNT2, 0, 16⟩
def Fld.RED_CNT2_PROXY_REFUSED : Fld := ⟨Reg.RED_CNT2, 16, 16⟩
def Fld.RED_LAST_ENGINE : Fld := ⟨Reg.RED_LAST, 0, 7⟩
def Fld.RED_LAST_CAUSE : Fld := ⟨Reg.RED_LAST, 8, 3⟩
def Fld.RED_LAST_PAIR : Fld := ⟨Reg.RED_LAST, 16, 6⟩
def Fld.RED_LAST_SLOT : Fld := ⟨Reg.RED_LAST, 22, 1⟩
def Fld.RED_SELF_ROLE : Fld := ⟨Reg.RED_SELF, 0, 2⟩
def Fld.RED_SELF_PAIR : Fld := ⟨Reg.RED_SELF, 2, 6⟩
def Fld.RED_SELF_SLOT : Fld := ⟨Reg.RED_SELF, 8, 1⟩
def Fld.RED_SELF_TWIN : Fld := ⟨Reg.RED_SELF, 9, 7⟩
def Fld.RED_SELF_JRES : Fld := ⟨Reg.RED_SELF, 16, 16⟩
def Fld.RED_JOIN_GO : Fld := ⟨Reg.RED_JOIN, 0, 1⟩
def Fld.RED_PRP_CFG_FORGET_MS : Fld := ⟨Reg.RED_PRP_CFG, 0, 10⟩
def Fld.RED_PRP_STAT_ENTRIES : Fld := ⟨Reg.RED_PRP_STAT, 0, 12⟩
def Fld.RED_PRP_STAT_OVERWRITE : Fld := ⟨Reg.RED_PRP_STAT, 16, 16⟩
def Fld.RED_PAIR_CFG (p : Nat) : Fld := ⟨Reg.RED_PAIR p, 0, 32⟩
def Fld.RED_PSTAT_STATE (p : Nat) : Fld := ⟨Reg.RED_PSTAT p, 0, 3⟩
def Fld.RED_PSTAT_FAILED0 (p : Nat) : Fld := ⟨Reg.RED_PSTAT p, 3, 1⟩
def Fld.RED_PSTAT_FAILED1 (p : Nat) : Fld := ⟨Reg.RED_PSTAT p, 4, 1⟩
def Fld.RED_PSTAT_SPARE0_OUT (p : Nat) : Fld := ⟨Reg.RED_PSTAT p, 5, 1⟩
def Fld.RED_PSTAT_SPARE1_OUT (p : Nat) : Fld := ⟨Reg.RED_PSTAT p, 6, 1⟩
def Fld.RED_PSTAT_REMOTE (p : Nat) : Fld := ⟨Reg.RED_PSTAT p, 7, 1⟩
def Fld.RED_PSTAT_RESTORE_10US (p : Nat) : Fld := ⟨Reg.RED_PSTAT p, 16, 16⟩
def Fld.RED_CKPT_BASE (p : Nat) (m : Nat) : Fld := ⟨Reg.RED_CKPT p m, 0, 14⟩
def Fld.RED_CKPT_SIZE (p : Nat) (m : Nat) : Fld := ⟨Reg.RED_CKPT p m, 14, 14⟩
def Fld.RED_CKPT_BUF (p : Nat) (m : Nat) : Fld := ⟨Reg.RED_CKPT p m, 28, 4⟩
def Fld.RED_LANT_MISS1 (e : Nat) : Fld := ⟨Reg.RED_LANT e, 0, 4⟩
def Fld.RED_LANT_MISS2 (e : Nat) : Fld := ⟨Reg.RED_LANT e, 4, 4⟩
def Fld.RED_LANT_FAULT (e : Nat) : Fld := ⟨Reg.RED_LANT e, 8, 1⟩
def Fld.RED_LANT_MON (e : Nat) : Fld := ⟨Reg.RED_LANT e, 9, 1⟩
def Fld.RED_LANT_FAILED (e : Nat) : Fld := ⟨Reg.RED_LANT e, 10, 1⟩
def Fld.RED_GWFLOW_FLOW (d : Nat) (j : Nat) : Fld := ⟨Reg.RED_GWFLOW d j, 0, 12⟩
def Fld.RED_GWFLOW_EN (d : Nat) (j : Nat) : Fld := ⟨Reg.RED_GWFLOW d j, 12, 1⟩
def Fld.RED_PROXY_UNIT (d : Nat) (i : Nat) : Fld := ⟨Reg.RED_PROXY d i, 0, 5⟩
def Fld.RED_PROXY_KIND (d : Nat) (i : Nat) : Fld := ⟨Reg.RED_PROXY d i, 5, 1⟩
def Fld.RED_PROXY_DIR (d : Nat) (i : Nat) : Fld := ⟨Reg.RED_PROXY d i, 6, 1⟩
def Fld.RED_PROXY_EN (d : Nat) (i : Nat) : Fld := ⟨Reg.RED_PROXY d i, 7, 1⟩
def Fld.RED_PROXY_FIRST (d : Nat) (i : Nat) : Fld := ⟨Reg.RED_PROXY d i, 8, 6⟩
def Fld.RED_PROXY_FLOW (d : Nat) (i : Nat) : Fld := ⟨Reg.RED_PROXY d i, 14, 12⟩
def Fld.MBX_IRQ_PEND0_PEND : Fld := ⟨Reg.MBX_IRQ_PEND0, 0, 32⟩
def Fld.MBX_IRQ_PEND1_PEND : Fld := ⟨Reg.MBX_IRQ_PEND1, 0, 32⟩
def Fld.MBX_IRQ_ROUTE_VEC (s : Nat) : Fld := ⟨Reg.MBX_IRQ_ROUTE s, 0, 6⟩
def Fld.MBX_IRQ_ROUTE_EN (s : Nat) : Fld := ⟨Reg.MBX_IRQ_ROUTE s, 8, 1⟩
def Fld.MBX_IRQ_ROUTE_FN (s : Nat) : Fld := ⟨Reg.MBX_IRQ_ROUTE s, 9, 3⟩
def Fld.MBX_SUP_NOTE_NOTE : Fld := ⟨Reg.MBX_SUP_NOTE, 0, 32⟩
def Fld.MBX_HOST_CFG_NFN : Fld := ⟨Reg.MBX_HOST_CFG, 0, 3⟩
def Fld.MBX_HOST_CFG_HRING_FN : Fld := ⟨Reg.MBX_HOST_CFG, 8, 3⟩
def Fld.MBX_HOST_CFG_HRING_EN : Fld := ⟨Reg.MBX_HOST_CFG, 11, 1⟩
def Fld.MBX_HRX_TAIL_TAIL : Fld := ⟨Reg.MBX_HRX_TAIL, 0, 11⟩
def Fld.MBX_HRX_HEAD_HEAD : Fld := ⟨Reg.MBX_HRX_HEAD, 0, 11⟩
def Fld.MBX_HTX_HEAD_HEAD : Fld := ⟨Reg.MBX_HTX_HEAD, 0, 11⟩
def Fld.MBX_HTX_TAIL_TAIL : Fld := ⟨Reg.MBX_HTX_TAIL, 0, 11⟩
def Fld.MBX_HOST_STAT_BAR2_MISS : Fld := ⟨Reg.MBX_HOST_STAT, 0, 16⟩
def Fld.MBX_HOST_STAT_BAR2_REFUSED : Fld := ⟨Reg.MBX_HOST_STAT, 16, 15⟩
def Fld.MBX_HOST_STAT_CFG_ERR : Fld := ⟨Reg.MBX_HOST_STAT, 31, 1⟩
def Fld.MBX_SPI_ERR_COUNT : Fld := ⟨Reg.MBX_SPI_ERR, 0, 8⟩
def Fld.MBX_ABORT_BLOCK : Fld := ⟨Reg.MBX_ABORT, 0, 7⟩
def Fld.SAFE_STAT_STATE : Fld := ⟨Reg.SAFE_STAT, 0, 3⟩
def Fld.SAFE_STAT_PE : Fld := ⟨Reg.SAFE_STAT, 3, 1⟩
def Fld.SAFE_STAT_PERMIT : Fld := ⟨Reg.SAFE_STAT, 4, 1⟩
def Fld.SAFE_STAT_EXECUTED : Fld := ⟨Reg.SAFE_STAT, 5, 1⟩
def Fld.SAFE_STAT_ACKED : Fld := ⟨Reg.SAFE_STAT, 6, 1⟩
def Fld.SAFE_STAT_CYCLES_DONE : Fld := ⟨Reg.SAFE_STAT, 7, 1⟩
def Fld.SAFE_STAT_SET : Fld := ⟨Reg.SAFE_STAT, 8, 4⟩
def Fld.SAFE_STAT_SET_VALID : Fld := ⟨Reg.SAFE_STAT, 12, 1⟩
def Fld.SAFE_STAT_BC_UP : Fld := ⟨Reg.SAFE_STAT, 16, 16⟩
def Fld.SAFE_SEAL_RAW : Fld := ⟨Reg.SAFE_SEAL, 0, 16⟩
def Fld.SAFE_SEAL_FAULT : Fld := ⟨Reg.SAFE_SEAL, 16, 1⟩
def Fld.SAFE_IN_STATE : Fld := ⟨Reg.SAFE_IN, 0, 16⟩
def Fld.SAFE_IN_OWED : Fld := ⟨Reg.SAFE_IN, 16, 8⟩
def Fld.SAFE_STO_DRIVE : Fld := ⟨Reg.SAFE_STO, 0, 8⟩
def Fld.SAFE_STO_READBACK : Fld := ⟨Reg.SAFE_STO, 8, 8⟩
def Fld.SAFE_STO_OFF : Fld := ⟨Reg.SAFE_STO, 16, 4⟩
def Fld.SAFE_FAULT_CODE : Fld := ⟨Reg.SAFE_FAULT, 0, 8⟩
def Fld.SAFE_FAULT_DETAIL : Fld := ⟨Reg.SAFE_FAULT, 8, 8⟩
def Fld.SAFE_FAULT_LATCHED : Fld := ⟨Reg.SAFE_FAULT, 16, 1⟩
def Fld.SAFE_FAULT_ECC_CORR : Fld := ⟨Reg.SAFE_FAULT, 24, 8⟩
def Fld.SAFE_AX_V1_SPEED (k : Nat) : Fld := ⟨Reg.SAFE_AX_V1 k, 0, 32⟩
def Fld.SAFE_AX_V2_SPEED (k : Nat) : Fld := ⟨Reg.SAFE_AX_V2 k, 0, 32⟩
def Fld.PWR_STAT_CORE_LOW : Fld := ⟨Reg.PWR_STAT, 0, 1⟩
def Fld.PWR_STAT_IO_LOW : Fld := ⟨Reg.PWR_STAT, 1, 1⟩
def Fld.PWR_STAT_NV_LOW : Fld := ⟨Reg.PWR_STAT, 2, 1⟩
def Fld.PWR_STAT_BLOCK : Fld := ⟨Reg.PWR_STAT, 3, 1⟩
def Fld.PWR_STAT_WARN : Fld := ⟨Reg.PWR_STAT, 8, 1⟩
def Fld.PWR_STAT_WARN_CNT : Fld := ⟨Reg.PWR_STAT, 16, 8⟩
def Fld.PWR_STAT_CFG_ERR : Fld := ⟨Reg.PWR_STAT, 31, 1⟩
def Fld.PWR_VMON0_CORE : Fld := ⟨Reg.PWR_VMON0, 0, 12⟩
def Fld.PWR_VMON0_SRAM : Fld := ⟨Reg.PWR_VMON0, 16, 12⟩
def Fld.PWR_VMON1_NV : Fld := ⟨Reg.PWR_VMON1, 0, 12⟩
def Fld.PWR_VMON1_IO : Fld := ⟨Reg.PWR_VMON1, 16, 12⟩
def Fld.NV_CMD_OP : Fld := ⟨Reg.NV_CMD, 0, 4⟩
def Fld.NV_CMD_ROWS : Fld := ⟨Reg.NV_CMD, 8, 17⟩
def Fld.NV_RES_RESULT : Fld := ⟨Reg.NV_RES, 0, 16⟩
def Fld.NV_RES_DONE : Fld := ⟨Reg.NV_RES, 24, 1⟩
def Fld.NV_RES_LOST : Fld := ⟨Reg.NV_RES, 25, 1⟩
def Fld.NV_ADDR_ADDR : Fld := ⟨Reg.NV_ADDR, 0, 22⟩
def Fld.NV_SRC_SRC : Fld := ⟨Reg.NV_SRC, 0, 21⟩
def Fld.NV_PROG_ROWS : Fld := ⟨Reg.NV_PROG, 0, 17⟩
def Fld.NV_ERR_CORR : Fld := ⟨Reg.NV_ERR, 0, 16⟩
def Fld.NV_ERR_UNCORR : Fld := ⟨Reg.NV_ERR, 16, 8⟩
def Fld.NV_OTP_STAT_VALID : Fld := ⟨Reg.NV_OTP_STAT, 0, 4⟩
def Fld.NV_OTP_STAT_REVOKED : Fld := ⟨Reg.NV_OTP_STAT, 4, 4⟩
def Fld.NV_OTP_STAT_DAMAGED : Fld := ⟨Reg.NV_OTP_STAT, 8, 4⟩
def Fld.NV_OTP_STAT_FLOOR_SUP : Fld := ⟨Reg.NV_OTP_STAT, 12, 6⟩
def Fld.NV_OTP_STAT_FLOOR_ENG : Fld := ⟨Reg.NV_OTP_STAT, 18, 6⟩
def Fld.NV_OTP_STAT_FLOOR_PKG : Fld := ⟨Reg.NV_OTP_STAT, 24, 6⟩
def Fld.NV_DATA_DATA (i : Nat) : Fld := ⟨Reg.NV_DATA i, 0, 32⟩
def Fld.RED_ARG0_ARG : Fld := ⟨Reg.RED_ARG0, 0, 32⟩
def Fld.RED_ARG1_ARG : Fld := ⟨Reg.RED_ARG1, 0, 32⟩
def Fld.MBX_SDATA_DATA (k : Nat) (i : Nat) : Fld := ⟨Reg.MBX_SDATA k i, 0, 32⟩
def Fld.MBX_SEND_CH (k : Nat) : Fld := ⟨Reg.MBX_SEND k, 0, 6⟩
def Fld.MBX_SEND_LEN (k : Nat) : Fld := ⟨Reg.MBX_SEND k, 8, 9⟩
def Fld.MBX_SEND_CHIP (k : Nat) : Fld := ⟨Reg.MBX_SEND k, 17, 3⟩
def Fld.MBX_SEND_REMOTE (k : Nat) : Fld := ⟨Reg.MBX_SEND k, 20, 1⟩
def Fld.MBX_SFLOW_FLOW (k : Nat) : Fld := ⟨Reg.MBX_SFLOW k, 0, 12⟩
def Fld.MBX_SFLOW_FLOWV (k : Nat) : Fld := ⟨Reg.MBX_SFLOW k, 12, 1⟩
def Fld.MBX_SFLOW_SEQ (k : Nat) : Fld := ⟨Reg.MBX_SFLOW k, 16, 16⟩
def Fld.MBX_SEND_RES_RESULT (k : Nat) : Fld := ⟨Reg.MBX_SEND_RES k, 0, 16⟩
def Fld.MBX_SEND_RES_DONE (k : Nat) : Fld := ⟨Reg.MBX_SEND_RES k, 24, 1⟩
def Fld.MBX_SEND_RES_LOST (k : Nat) : Fld := ⟨Reg.MBX_SEND_RES k, 25, 1⟩
def Fld.MBX_SEND_RES_DUP (k : Nat) : Fld := ⟨Reg.MBX_SEND_RES k, 26, 1⟩
def Fld.MBX_CMD_OP (k : Nat) : Fld := ⟨Reg.MBX_CMD k, 0, 2⟩
def Fld.MBX_CMD_DEPTH (k : Nat) : Fld := ⟨Reg.MBX_CMD k, 2, 2⟩
def Fld.MBX_CMD_CH (k : Nat) : Fld := ⟨Reg.MBX_CMD k, 4, 6⟩
def Fld.MBX_CMD_DBIT (k : Nat) : Fld := ⟨Reg.MBX_CMD k, 10, 5⟩
def Fld.MBX_CMD_ANY (k : Nat) : Fld := ⟨Reg.MBX_CMD k, 15, 1⟩
def Fld.MBX_CMD_ALLOW (k : Nat) : Fld := ⟨Reg.MBX_CMD k, 16, 16⟩
def Fld.MBX_CMD_RES_RESULT (k : Nat) : Fld := ⟨Reg.MBX_CMD_RES k, 0, 16⟩
def Fld.MBX_CMD_RES_DONE (k : Nat) : Fld := ⟨Reg.MBX_CMD_RES k, 24, 1⟩
def Fld.MBX_CMD_RES_LOST (k : Nat) : Fld := ⟨Reg.MBX_CMD_RES k, 25, 1⟩
def Fld.MBX_DB_PEND (k : Nat) : Fld := ⟨Reg.MBX_DB k, 0, 32⟩
def Fld.MBX_DBMASK_MASK (k : Nat) : Fld := ⟨Reg.MBX_DBMASK k, 0, 32⟩
def Fld.MBX_RING_TARGET (k : Nat) : Fld := ⟨Reg.MBX_RING k, 0, 16⟩
def Fld.MBX_RING_BIT (k : Nat) : Fld := ⟨Reg.MBX_RING k, 16, 5⟩

/-- One row of the register map. `dims` gives the stride and the count of each index; the masks collect the bits
of one access code of Table SCOPE-8, and `rc` lists the RC fields by lowest bit and width. -/
structure RegRow where
  base : Nat
  dims : List (Nat × Nat)
  rw : Nat
  w1c : Nat
  rc : List (Nat × Nat)
  wo : Nat
  ro : Nat
  reset : Nat
  deriving DecidableEq, Repr

/-- Rows of the register map, part 1. -/
def regRows1 : List RegRow :=
  [/- SYS_CAP0 -/ { base := 0x10, dims := [], rw := 0x0, w1c := 0x0, rc := [], wo := 0x0, ro := 0x7ffffff, reset := 0x0 },
   /- SYS_CAP1 -/ { base := 0x14, dims := [], rw := 0x0, w1c := 0x0, rc := [], wo := 0x0, ro := 0xffffffff, reset := 0x0 },
   /- SYS_CAP2 -/ { base := 0x18, dims := [], rw := 0x0, w1c := 0x0, rc := [], wo := 0x0, ro := 0xffffffff, reset := 0x0 },
   /- SYS_CAP3 -/ { base := 0x1c, dims := [], rw := 0x0, w1c := 0x0, rc := [], wo := 0x0, ro := 0xffffff, reset := 0x0 },
   /- SYS_ABSENT_HIT -/ { base := 0x20, dims := [], rw := 0x0, w1c := 0x88000000, rc := [], wo := 0x0, ro := 0x7ffffff, reset := 0x0 },
   /- SYS_CLK_STAT -/ { base := 0x24, dims := [], rw := 0x0, w1c := 0x3f00, rc := [(16, 16)], wo := 0x0, ro := 0x3f, reset := 0x0 },
   /- SYS_MODE -/ { base := 0x30, dims := [], rw := 0x0, w1c := 0x0, rc := [], wo := 0x0, ro := 0xffff073f, reset := 0x0 },
   /- SYS_RESET_CAUSE -/ { base := 0x40, dims := [], rw := 0x0, w1c := 0x7f, rc := [], wo := 0x0, ro := 0x0, reset := 0x1 },
   /- SYS_BOOT_STAT -/ { base := 0x44, dims := [], rw := 0x0, w1c := 0x0, rc := [], wo := 0x0, ro := 0xffffffff, reset := 0x0 },
   /- SYS_BOOT_CTRL -/ { base := 0x48, dims := [], rw := 0x0, w1c := 0x0, rc := [], wo := 0x1, ro := 0x0, reset := 0x0 },
   /- SYS_MODE_CMD -/ { base := 0x34, dims := [], rw := 0x0, w1c := 0x0, rc := [], wo := 0xffffffff, ro := 0x0, reset := 0x0 },
   /- SYS_MODE_RESULT -/ { base := 0x38, dims := [], rw := 0x0, w1c := 0x6000000, rc := [], wo := 0x0, ro := 0x1ffffff, reset := 0x0 },
   /- SYS_WRONG_STATE_CNT -/ { base := 0x3c, dims := [], rw := 0x0, w1c := 0x0, rc := [(0, 16)], wo := 0x0, ro := 0x7ff0000, reset := 0x0 },
   /- XING_TXN_CTRL -/ { base := 0x300010, dims := [], rw := 0x0, w1c := 0x0, rc := [], wo := 0x3, ro := 0xffff000c, reset := 0x0 },
   /- AVE_TXN_CTRL -/ { base := 0x600010, dims := [], rw := 0x0, w1c := 0x0, rc := [], wo := 0x3, ro := 0xffff000c, reset := 0x0 },
   /- RND_TXN_CTRL -/ { base := 0x1000010, dims := [(0x100000, 8)], rw := 0x0, w1c := 0x0, rc := [], wo := 0x3, ro := 0xffff000c, reset := 0x0 },
   /- ETH_TXN_CTRL -/ { base := 0x400010, dims := [(0x1000, 34)], rw := 0x0, w1c := 0x0, rc := [], wo := 0x3, ro := 0xffff000c, reset := 0x0 },
   /- SRU_TXN_CTRL -/ { base := 0x1020010, dims := [(0x100000, 8)], rw := 0x0, w1c := 0x0, rc := [], wo := 0x3, ro := 0xffff000c, reset := 0x0 },
   /- XING_TXN_STAT -/ { base := 0x300014, dims := [], rw := 0x0, w1c := 0x0, rc := [], wo := 0x0, ro := 0xffffffff, reset := 0x0 },
   /- AVE_TXN_STAT -/ { base := 0x600014, dims := [], rw := 0x0, w1c := 0x0, rc := [], wo := 0x0, ro := 0xffffffff, reset := 0x0 },
   /- RND_TXN_STAT -/ { base := 0x1000014, dims := [(0x100000, 8)], rw := 0x0, w1c := 0x0, rc := [], wo := 0x0, ro := 0xffffffff, reset := 0x0 },
   /- ETH_TXN_STAT -/ { base := 0x400014, dims := [(0x1000, 34)], rw := 0x0, w1c := 0x0, rc := [], wo := 0x0, ro := 0xffffffff, reset := 0x0 },
   /- SRU_TXN_STAT -/ { base := 0x1020014, dims := [(0x100000, 8)], rw := 0x0, w1c := 0x0, rc := [], wo := 0x0, ro := 0xffffffff, reset := 0x0 },
   /- CE_CRC_POLY -/ { base := 0x1010100, dims := [(0x100000, 8), (0x1000, 12), (0x8, 4)], rw := 0xffffffff, w1c := 0x0, rc := [], wo := 0x0, ro := 0x0, reset := 0x0 }]

/-- Rows of the register map, part 2. -/
def regRows2 : List RegRow :=
  [/- CE_CRC_CFG -/ { base := 0x1010104, dims := [(0x100000, 8), (0x1000, 12), (0x8, 4)], rw := 0x7, w1c := 0x0, rc := [], wo := 0x0, ro := 0x0, reset := 0x0 },
   /- CE_EVT_SEL -/ { base := 0x1010200, dims := [(0x100000, 8), (0x1000, 12), (0x4, 32)], rw := 0xffff, w1c := 0x0, rc := [], wo := 0x0, ro := 0x0, reset := 0x0 },
   /- CE_EVT_OVR -/ { base := 0x101000c, dims := [(0x100000, 8), (0x1000, 12)], rw := 0x0, w1c := 0x0, rc := [(0, 16)], wo := 0x0, ro := 0x1f0000, reset := 0x0 },
   /- CE_FAULT_ADDR -/ { base := 0x1010008, dims := [(0x100000, 8), (0x1000, 12)], rw := 0x0, w1c := 0x0, rc := [], wo := 0x0, ro := 0xffffffff, reset := 0x0 },
   /- CE_WDOG -/ { base := 0x1010018, dims := [(0x100000, 8), (0x1000, 12)], rw := 0x3ffffff, w1c := 0x0, rc := [], wo := 0x0, ro := 0x0, reset := 0x0 },
   /- CE_WDOG_KICK -/ { base := 0x101001c, dims := [(0x100000, 8), (0x1000, 12)], rw := 0x0, w1c := 0x0, rc := [], wo := 0xffff, ro := 0x0, reset := 0x0 },
   /- CE_STACK_BASE -/ { base := 0x1010010, dims := [(0x100000, 8), (0x1000, 12)], rw := 0xffff, w1c := 0x0, rc := [], wo := 0x0, ro := 0x0, reset := 0x0 },
   /- CE_STACK_LIMIT -/ { base := 0x1010014, dims := [(0x100000, 8), (0x1000, 12)], rw := 0x1ffff, w1c := 0x0, rc := [], wo := 0x0, ro := 0x0, reset := 0x10000 },
   /- CE_CTRL -/ { base := 0x1010000, dims := [(0x100000, 8), (0x1000, 12)], rw := 0x1, w1c := 0x0, rc := [], wo := 0x0, ro := 0x0, reset := 0x0 },
   /- CE_STAT -/ { base := 0x1010004, dims := [(0x100000, 8), (0x1000, 12)], rw := 0x0, w1c := 0x80000000, rc := [], wo := 0x0, ro := 0xffff, reset := 0x800 },
   /- CE_LEASE_LOST -/ { base := 0x1010020, dims := [(0x100000, 8), (0x1000, 12)], rw := 0x0, w1c := 0x0, rc := [], wo := 0x0, ro := 0xffffffff, reset := 0x0 },
   /- CE_LEASE_STAT -/ { base := 0x1010024, dims := [(0x100000, 8), (0x1000, 12)], rw := 0x0, w1c := 0x0, rc := [(0, 8)], wo := 0x0, ro := 0x1f00, reset := 0x0 },
   /- RND_SRAM_ERR -/ { base := 0x100001c, dims := [(0x100000, 8)], rw := 0x0, w1c := 0x0, rc := [(0, 16), (16, 8), (24, 8)], wo := 0x0, ro := 0x0, reset := 0x0 },
   /- RND_LOCK -/ { base := 0x1000300, dims := [(0x100000, 8), (0x4, 64)], rw := 0x3fffffff, w1c := 0x0, rc := [], wo := 0x0, ro := 0x0, reset := 0x0 },
   /- RND_LOCK_HOLD -/ { base := 0x1000400, dims := [(0x100000, 8), (0x4, 64)], rw := 0x0, w1c := 0x0, rc := [], wo := 0x0, ro := 0x1ffff, reset := 0x0 },
   /- RND_BIND_ETH0 -/ { base := 0x1000020, dims := [(0x100000, 8)], rw := 0xffffffff, w1c := 0x0, rc := [], wo := 0x0, ro := 0x0, reset := 0x0 },
   /- RND_BIND_ETH1 -/ { base := 0x1000024, dims := [(0x100000, 8)], rw := 0x3, w1c := 0x0, rc := [], wo := 0x0, ro := 0x0, reset := 0x0 },
   /- RND_BIND_CS -/ { base := 0x1000028, dims := [(0x100000, 8)], rw := 0xffffffff, w1c := 0x0, rc := [], wo := 0x0, ro := 0x0, reset := 0x0 },
   /- RND_SLICE -/ { base := 0x1000100, dims := [(0x100000, 8), (0x4, 64)], rw := 0x1f, w1c := 0x0, rc := [], wo := 0x0, ro := 0x0, reset := 0x0 },
   /- RND_COMMON_CFG -/ { base := 0x1000200, dims := [(0x100000, 8), (0x4, 16)], rw := 0x7, w1c := 0x0, rc := [], wo := 0x0, ro := 0x0, reset := 0x0 },
   /- RND_COMMON_RES -/ { base := 0x1000240, dims := [(0x100000, 8), (0x4, 16)], rw := 0x0, w1c := 0x0, rc := [], wo := 0x0, ro := 0xffffffff, reset := 0x0 },
   /- RND_FRAME -/ { base := 0x1000800, dims := [(0x100000, 8), (0x4, 64)], rw := 0x0, w1c := 0x0, rc := [], wo := 0x0, ro := 0xffffffff, reset := 0x0 },
   /- RND_CTRL -/ { base := 0x1000000, dims := [(0x100000, 8)], rw := 0x1, w1c := 0x0, rc := [], wo := 0x0, ro := 0x0, reset := 0x0 },
   /- RND_STAT -/ { base := 0x1000004, dims := [(0x100000, 8)], rw := 0x0, w1c := 0x80000000, rc := [], wo := 0x0, ro := 0xff03, reset := 0x0 }]

/-- Rows of the register map, part 3. -/
def regRows3 : List RegRow :=
  [/- RND_PERIOD -/ { base := 0x1000008, dims := [(0x100000, 8)], rw := 0x1ffffff, w1c := 0x0, rc := [], wo := 0x0, ro := 0x0, reset := 0x1000190 },
   /- RND_FAULT -/ { base := 0x1000018, dims := [(0x100000, 8)], rw := 0x0, w1c := 0x0, rc := [(0, 8), (8, 8), (16, 8), (24, 8)], wo := 0x0, ro := 0x0, reset := 0x0 },
   /- AVE_GW_RING -/ { base := 0x601000, dims := [(0x100, 8), (0x4, 3)], rw := 0xfffffff, w1c := 0x0, rc := [], wo := 0x0, ro := 0x0, reset := 0x0 },
   /- AVE_GW_PTR -/ { base := 0x601010, dims := [(0x100, 8), (0x4, 3)], rw := 0xffffffff, w1c := 0x0, rc := [], wo := 0x0, ro := 0x0, reset := 0x0 },
   /- AVE_GW_FWD -/ { base := 0x601040, dims := [(0x100, 8), (0x4, 16)], rw := 0x3ffffff, w1c := 0x0, rc := [], wo := 0x0, ro := 0x0, reset := 0x0 },
   /- AVE_GW_CNT -/ { base := 0x601080, dims := [(0x100, 8)], rw := 0x0, w1c := 0x0, rc := [(0, 8), (8, 8), (16, 8), (24, 8)], wo := 0x0, ro := 0x0, reset := 0x0 },
   /- AVE_SCHED -/ { base := 0x600008, dims := [], rw := 0x7fffffff, w1c := 0x0, rc := [], wo := 0x0, ro := 0x0, reset := 0x9640320 },
   /- AVE_APPLY -/ { base := 0x60000c, dims := [], rw := 0xffffffff, w1c := 0x0, rc := [], wo := 0x0, ro := 0x0, reset := 0x0 },
   /- AVE_SLOT -/ { base := 0x600100, dims := [(0x4, 64)], rw := 0x3ff, w1c := 0x0, rc := [], wo := 0x0, ro := 0x0, reset := 0xff },
   /- AVE_CLAIM -/ { base := 0x600030, dims := [], rw := 0x0, w1c := 0x0, rc := [], wo := 0x1f3f, ro := 0x0, reset := 0x0 },
   /- AVE_CLAIM_STAT -/ { base := 0x600034, dims := [], rw := 0x0, w1c := 0x2000000, rc := [], wo := 0x0, ro := 0x13fffff, reset := 0x0 },
   /- AVE_SPARE_OWN -/ { base := 0x600200, dims := [(0x4, 16)], rw := 0x0, w1c := 0x0, rc := [], wo := 0x0, ro := 0xff7f, reset := 0xff00 },
   /- AVE_WLN_STAT -/ { base := 0x600800, dims := [(0x80, 2)], rw := 0x0, w1c := 0x0, rc := [(24, 8)], wo := 0x0, ro := 0xff7f3f, reset := 0x0 },
   /- AVE_RING_STAT -/ { base := 0x600050, dims := [], rw := 0x0, w1c := 0x0, rc := [], wo := 0x0, ro := 0xff3fff, reset := 0x510000 },
   /- AVE_CTRL -/ { base := 0x600000, dims := [], rw := 0x3, w1c := 0x0, rc := [], wo := 0x4, ro := 0x0, reset := 0x0 },
   /- AVE_STAT -/ { base := 0x600004, dims := [], rw := 0x0, w1c := 0x80, rc := [], wo := 0x0, ro := 0xffff7f, reset := 0x0 },
   /- AVE_ID -/ { base := 0x600018, dims := [], rw := 0x30107, w1c := 0x0, rc := [], wo := 0x0, ro := 0x0, reset := 0x100 },
   /- AVE_CYCLE_NUM -/ { base := 0x60001c, dims := [], rw := 0x0, w1c := 0x0, rc := [], wo := 0x0, ro := 0xffffffff, reset := 0x0 },
   /- AVE_OFFSET -/ { base := 0x600020, dims := [], rw := 0x0, w1c := 0x0, rc := [], wo := 0x0, ro := 0xffffffff, reset := 0x0 },
   /- AVE_CNT0 -/ { base := 0x600040, dims := [], rw := 0x0, w1c := 0x0, rc := [(0, 8), (8, 8), (16, 8), (24, 8)], wo := 0x0, ro := 0x0, reset := 0x0 },
   /- AVE_CNT1 -/ { base := 0x600044, dims := [], rw := 0x0, w1c := 0x0, rc := [(0, 8), (8, 8), (16, 8), (24, 8)], wo := 0x0, ro := 0x0, reset := 0x0 },
   /- XING_STAT -/ { base := 0x300004, dims := [], rw := 0x0, w1c := 0x80000000, rc := [], wo := 0x0, ro := 0x3, reset := 0x0 },
   /- XING_GEN_STAT -/ { base := 0x300008, dims := [], rw := 0x0, w1c := 0x0, rc := [], wo := 0x0, ro := 0xffffffff, reset := 0x200 },
   /- XING_TBL_ADDR -/ { base := 0x300020, dims := [], rw := 0xffff1f, w1c := 0x0, rc := [], wo := 0x0, ro := 0x0, reset := 0x0 }]

/-- Rows of the register map, part 4. -/
def regRows4 : List RegRow :=
  [/- XING_TBL_CMD -/ { base := 0x300024, dims := [], rw := 0x0, w1c := 0x0, rc := [], wo := 0x3, ro := 0xffff0004, reset := 0x4 },
   /- XING_TBL_DATA -/ { base := 0x300030, dims := [(0x4, 4)], rw := 0xffffffff, w1c := 0x0, rc := [], wo := 0x0, ro := 0x0, reset := 0x0 },
   /- XING_BUF_STAT -/ { base := 0x300040, dims := [], rw := 0x0, w1c := 0x0, rc := [(16, 16)], wo := 0x0, ro := 0xffff, reset := 0x80008000 },
   /- XING_BUF_CFG -/ { base := 0x300044, dims := [], rw := 0xffffffff, w1c := 0x0, rc := [], wo := 0x0, ro := 0x0, reset := 0x10000100 },
   /- XING_BUF_LEASE -/ { base := 0x300048, dims := [], rw := 0x0, w1c := 0x0, rc := [], wo := 0x0, ro := 0xffff, reset := 0x0 },
   /- XING_LAMP_STAT -/ { base := 0x300050, dims := [], rw := 0x0, w1c := 0x0, rc := [(0, 16), (16, 16)], wo := 0x0, ro := 0x0, reset := 0x0 },
   /- XING_LAMP_ROUND -/ { base := 0x300054, dims := [], rw := 0x0, w1c := 0x0, rc := [(24, 8)], wo := 0x0, ro := 0xffffff, reset := 0x0 },
   /- XING_DUP_DROP -/ { base := 0x300058, dims := [], rw := 0x0, w1c := 0x0, rc := [(0, 32)], wo := 0x0, ro := 0x0, reset := 0x0 },
   /- XING_ALLEY -/ { base := 0x300060, dims := [], rw := 0xffff, w1c := 0x0, rc := [], wo := 0x0, ro := 0x0, reset := 0x0 },
   /- XING_DROP_LAST -/ { base := 0x300070, dims := [], rw := 0x0, w1c := 0x80000000, rc := [], wo := 0x0, ro := 0x1ff3fff, reset := 0x0 },
   /- XING_DROP -/ { base := 0x300100, dims := [(0x4, 20)], rw := 0x0, w1c := 0x0, rc := [(0, 32)], wo := 0x0, ro := 0x0, reset := 0x0 },
   /- XING_LAG_STAT -/ { base := 0x300080, dims := [(0x4, 8)], rw := 0x0, w1c := 0x0, rc := [(8, 8)], wo := 0x0, ro := 0xff, reset := 0x0 },
   /- XING_QDEPTH -/ { base := 0x301000, dims := [(0x4, 512)], rw := 0x0, w1c := 0x0, rc := [], wo := 0x0, ro := 0xffffffff, reset := 0x0 },
   /- ETH_CTRL -/ { base := 0x400000, dims := [(0x1000, 34)], rw := 0x1, w1c := 0x0, rc := [], wo := 0x0, ro := 0x0, reset := 0x0 },
   /- ETH_STAT -/ { base := 0x400004, dims := [(0x1000, 34)], rw := 0x0, w1c := 0x80000000, rc := [], wo := 0x0, ro := 0x1ff, reset := 0x0 },
   /- ETH_CFG -/ { base := 0x400008, dims := [(0x1000, 34)], rw := 0x1fffff, w1c := 0x0, rc := [], wo := 0x0, ro := 0x0, reset := 0x0 },
   /- ETH_HOLD -/ { base := 0x400018, dims := [(0x1000, 34)], rw := 0x3ff, w1c := 0x0, rc := [], wo := 0x0, ro := 0x0, reset := 0x32 },
   /- ETH_PLCA -/ { base := 0x40000c, dims := [(0x1000, 34)], rw := 0xffffffff, w1c := 0x0, rc := [], wo := 0x0, ro := 0x0, reset := 0x40200801 },
   /- ETH_THRU -/ { base := 0x40001c, dims := [(0x1000, 34)], rw := 0xff, w1c := 0x0, rc := [], wo := 0x0, ro := 0x0, reset := 0x0 },
   /- ETH_SNAP -/ { base := 0x400030, dims := [(0x1000, 34)], rw := 0x0, w1c := 0x0, rc := [], wo := 0x1, ro := 0x2, reset := 0x2 },
   /- ETH_CNT_HALF0 -/ { base := 0x400034, dims := [(0x1000, 34)], rw := 0x0, w1c := 0xffffffff, rc := [], wo := 0x0, ro := 0x0, reset := 0x0 },
   /- ETH_CNT_HALF1 -/ { base := 0x400038, dims := [(0x1000, 34)], rw := 0x0, w1c := 0xffff, rc := [], wo := 0x0, ro := 0x0, reset := 0x0 },
   /- ETH_CNT_IEN0 -/ { base := 0x40003c, dims := [(0x1000, 34)], rw := 0xffffffff, w1c := 0x0, rc := [], wo := 0x0, ro := 0x0, reset := 0x0 },
   /- ETH_CNT_IEN1 -/ { base := 0x400040, dims := [(0x1000, 34)], rw := 0xffff, w1c := 0x0, rc := [], wo := 0x0, ro := 0x0, reset := 0x0 }]

/-- Rows of the register map, part 5. -/
def regRows5 : List RegRow :=
  [/- ETH_CNT -/ { base := 0x400100, dims := [(0x1000, 34), (0x4, 48)], rw := 0x0, w1c := 0x0, rc := [], wo := 0x0, ro := 0xffffffff, reset := 0x0 },
   /- ETH_SNAP_CNT -/ { base := 0x400200, dims := [(0x1000, 34), (0x4, 48)], rw := 0x0, w1c := 0x0, rc := [], wo := 0x0, ro := 0xffffffff, reset := 0x0 },
   /- CAN_CTRL -/ { base := 0x500000, dims := [(0x1000, 16)], rw := 0x1, w1c := 0x0, rc := [], wo := 0x0, ro := 0x0, reset := 0x0 },
   /- CAN_NBT -/ { base := 0x50000c, dims := [(0x1000, 16)], rw := 0x7fffffff, w1c := 0x0, rc := [], wo := 0x0, ro := 0x0, reset := 0xf9f7e00 },
   /- CAN_DBT -/ { base := 0x500010, dims := [(0x1000, 16)], rw := 0x1ffffff, w1c := 0x0, rc := [], wo := 0x0, ro := 0x0, reset := 0x26780 },
   /- CAN_CFG -/ { base := 0x500008, dims := [(0x1000, 16)], rw := 0x7, w1c := 0x0, rc := [], wo := 0x0, ro := 0x0, reset := 0x3 },
   /- CAN_STAT -/ { base := 0x500004, dims := [(0x1000, 16)], rw := 0x0, w1c := 0x80000000, rc := [], wo := 0x0, ro := 0x3f, reset := 0x0 },
   /- CAN_ECNT -/ { base := 0x500014, dims := [(0x1000, 16)], rw := 0x0, w1c := 0x0, rc := [], wo := 0x0, ro := 0xff01ff, reset := 0x0 },
   /- CAN_CMD -/ { base := 0x500018, dims := [(0x1000, 16)], rw := 0x0, w1c := 0x0, rc := [], wo := 0x1fff, ro := 0x0, reset := 0x0 },
   /- CAN_CMD_RES -/ { base := 0x50001c, dims := [(0x1000, 16)], rw := 0x0, w1c := 0x2000000, rc := [], wo := 0x0, ro := 0x1ffffff, reset := 0x1000000 },
   /- CAN_TDC_STAT -/ { base := 0x500020, dims := [(0x1000, 16)], rw := 0x0, w1c := 0x0, rc := [], wo := 0x0, ro := 0x3f, reset := 0x0 },
   /- CAN_ERRLOG -/ { base := 0x500024, dims := [(0x1000, 16)], rw := 0x0, w1c := 0x0, rc := [(16, 16)], wo := 0x0, ro := 0x1f, reset := 0x0 },
   /- CAN_CNT0 -/ { base := 0x500028, dims := [(0x1000, 16)], rw := 0x0, w1c := 0x0, rc := [(0, 16), (16, 16)], wo := 0x0, ro := 0x0, reset := 0x0 },
   /- CAN_CNT1 -/ { base := 0x50002c, dims := [(0x1000, 16)], rw := 0x0, w1c := 0x0, rc := [(0, 8), (8, 8), (16, 8), (24, 8)], wo := 0x0, ro := 0x0, reset := 0x0 },
   /- CAN_SOF_CNT -/ { base := 0x500030, dims := [(0x1000, 16)], rw := 0x0, w1c := 0x0, rc := [], wo := 0x0, ro := 0xffff, reset := 0x0 },
   /- CAN_RXID -/ { base := 0x500400, dims := [(0x1000, 16), (0x4, 256)], rw := 0xffffffff, w1c := 0x0, rc := [], wo := 0x0, ro := 0x0, reset := 0x0 },
   /- SER_CTRL -/ { base := 0x580000, dims := [(0x400, 16)], rw := 0x1, w1c := 0x0, rc := [], wo := 0x0, ro := 0x0, reset := 0x0 },
   /- SER_STAT -/ { base := 0x580004, dims := [(0x400, 16)], rw := 0x0, w1c := 0x80000000, rc := [], wo := 0x0, ro := 0x7, reset := 0x0 },
   /- SER_CFG -/ { base := 0x580008, dims := [(0x400, 16)], rw := 0xfffffff, w1c := 0x0, rc := [], wo := 0x0, ro := 0x0, reset := 0x10028 },
   /- SER_RATE -/ { base := 0x58000c, dims := [(0x400, 16)], rw := 0x7fffff, w1c := 0x0, rc := [], wo := 0x0, ro := 0x0, reset := 0x10469 },
   /- SER_GAP -/ { base := 0x580010, dims := [(0x400, 16)], rw := 0xffffffff, w1c := 0x0, rc := [], wo := 0x0, ro := 0x0, reset := 0x7d5035b },
   /- SER_DE -/ { base := 0x580014, dims := [(0x400, 16)], rw := 0xfff0fff, w1c := 0x0, rc := [], wo := 0x0, ro := 0x0, reset := 0x500050 },
   /- SER_CNT -/ { base := 0x580018, dims := [(0x400, 16)], rw := 0x0, w1c := 0x0, rc := [(0, 8), (8, 8), (16, 8), (24, 8)], wo := 0x0, ro := 0x0, reset := 0x0 },
   /- SYS_PKG_CMD -/ { base := 0x80, dims := [], rw := 0x0, w1c := 0x0, rc := [], wo := 0xfffff3, ro := 0x0, reset := 0x0 }]

/-- Rows of the register map, part 6. -/
def regRows6 : List RegRow :=
  [/- SYS_PKG_RES -/ { base := 0x84, dims := [], rw := 0x0, w1c := 0x2000000, rc := [], wo := 0x0, ro := 0x1ffffff, reset := 0x1000000 },
   /- SYS_PKG_ENG -/ { base := 0x400, dims := [(0x4, 96)], rw := 0x0, w1c := 0x0, rc := [], wo := 0x0, ro := 0xffffffff, reset := 0x0 },
   /- TIME_CMD -/ { base := 0x200000, dims := [], rw := 0x0, w1c := 0x0, rc := [], wo := 0xff01ff, ro := 0x0, reset := 0x0 },
   /- TIME_CMD_RES -/ { base := 0x200004, dims := [], rw := 0x0, w1c := 0x2000000, rc := [], wo := 0x0, ro := 0x1ffffff, reset := 0x1000000 },
   /- TIME_STAT -/ { base := 0x200008, dims := [], rw := 0x0, w1c := 0x80000000, rc := [], wo := 0x0, ro := 0xffff1f, reset := 0x10 },
   /- TIME_CFG -/ { base := 0x20000c, dims := [], rw := 0xffff03ff, w1c := 0x0, rc := [], wo := 0x0, ro := 0x0, reset := 0x323 },
   /- TIME_ARG -/ { base := 0x200010, dims := [(0x4, 4)], rw := 0xffffffff, w1c := 0x0, rc := [], wo := 0x0, ro := 0x0, reset := 0x0 },
   /- TIME_DOM_CFG -/ { base := 0x200040, dims := [(0x40, 2)], rw := 0x7fffffff, w1c := 0x0, rc := [], wo := 0x0, ro := 0x0, reset := 0x20019314 },
   /- TIME_DOM_STAT -/ { base := 0x200044, dims := [(0x40, 2)], rw := 0x0, w1c := 0x0, rc := [], wo := 0x0, ro := 0xffff1f, reset := 0x0 },
   /- TIME_DOM_RATE_LO -/ { base := 0x200048, dims := [(0x40, 2)], rw := 0x0, w1c := 0x0, rc := [], wo := 0x0, ro := 0xffffffff, reset := 0x0 },
   /- TIME_DOM_RATE_HI -/ { base := 0x20004c, dims := [(0x40, 2)], rw := 0x0, w1c := 0x0, rc := [], wo := 0x0, ro := 0xff, reset := 0x0 },
   /- TIME_DOM_OFFSET -/ { base := 0x200050, dims := [(0x40, 2)], rw := 0x0, w1c := 0x0, rc := [], wo := 0x0, ro := 0xffffffff, reset := 0x0 },
   /- TIME_SNAP_SEC_LO -/ { base := 0x200100, dims := [(0x10, 3)], rw := 0x0, w1c := 0x0, rc := [], wo := 0x0, ro := 0xffffffff, reset := 0x0 },
   /- TIME_SNAP_SEC_HI -/ { base := 0x200104, dims := [(0x10, 3)], rw := 0x0, w1c := 0x0, rc := [], wo := 0x0, ro := 0xffff, reset := 0x0 },
   /- TIME_SNAP_NS -/ { base := 0x200108, dims := [(0x10, 3)], rw := 0x0, w1c := 0x0, rc := [], wo := 0x0, ro := 0x3fffffff, reset := 0x0 },
   /- TIME_SNAP_SUB -/ { base := 0x20010c, dims := [(0x10, 3)], rw := 0x0, w1c := 0x0, rc := [], wo := 0x0, ro := 0xffff, reset := 0x0 },
   /- TSQ_RPT_LO -/ { base := 0x1030000, dims := [(0x100000, 8)], rw := 0x0, w1c := 0x0, rc := [], wo := 0x0, ro := 0xffffffff, reset := 0x0 },
   /- TSQ_RPT_HI -/ { base := 0x1030004, dims := [(0x100000, 8)], rw := 0x0, w1c := 0x0, rc := [], wo := 0x0, ro := 0xffffffff, reset := 0x0 },
   /- TSQ_STAT -/ { base := 0x1030010, dims := [(0x100000, 8)], rw := 0x0, w1c := 0x80000000, rc := [], wo := 0x0, ro := 0x7fffffff, reset := 0x0 },
   /- TSQ_RELEASE -/ { base := 0x1030014, dims := [(0x100000, 8)], rw := 0x0, w1c := 0x0, rc := [], wo := 0x7ff, ro := 0x0, reset := 0x0 },
   /- TSQ_OVF -/ { base := 0x1030018, dims := [(0x100000, 8)], rw := 0x0, w1c := 0x0, rc := [(0, 16)], wo := 0x0, ro := 0x0, reset := 0x0 },
   /- TIME_PPS_CFG -/ { base := 0x200200, dims := [(0x10, 2)], rw := 0x3, w1c := 0x0, rc := [], wo := 0x0, ro := 0x0, reset := 0x0 },
   /- TIME_PPS_CAP_NS -/ { base := 0x200204, dims := [(0x10, 2)], rw := 0x0, w1c := 0x40000000, rc := [(31, 1)], wo := 0x0, ro := 0x3fffffff, reset := 0x0 },
   /- TIME_PPS_CAP_SEC -/ { base := 0x200208, dims := [(0x10, 2)], rw := 0x0, w1c := 0x0, rc := [], wo := 0x0, ro := 0xffffffff, reset := 0x0 }]

/-- Rows of the register map, part 7. -/
def regRows7 : List RegRow :=
  [/- TIME_PPS_CNT -/ { base := 0x20020c, dims := [(0x10, 2)], rw := 0x0, w1c := 0x0, rc := [(16, 16)], wo := 0x0, ro := 0xffff, reset := 0x0 },
   /- TIME_OUT_CTRL -/ { base := 0x200300, dims := [(0x20, 4)], rw := 0x7, w1c := 0x80000000, rc := [], wo := 0x0, ro := 0x0, reset := 0x0 },
   /- TIME_OUT_START_NS -/ { base := 0x200304, dims := [(0x20, 4)], rw := 0x3fffffff, w1c := 0x0, rc := [], wo := 0x0, ro := 0x0, reset := 0x0 },
   /- TIME_OUT_START_SEC -/ { base := 0x200308, dims := [(0x20, 4)], rw := 0xffffffff, w1c := 0x0, rc := [], wo := 0x0, ro := 0x0, reset := 0x0 },
   /- TIME_OUT_PERIOD -/ { base := 0x20030c, dims := [(0x20, 4)], rw := 0xffffffff, w1c := 0x0, rc := [], wo := 0x0, ro := 0x0, reset := 0x0 },
   /- TIME_OUT_WIDTH -/ { base := 0x200310, dims := [(0x20, 4)], rw := 0xffffffff, w1c := 0x0, rc := [], wo := 0x0, ro := 0x0, reset := 0x0 },
   /- IMG_STAT -/ { base := 0x700000, dims := [], rw := 0x0, w1c := 0x80000000, rc := [], wo := 0x0, ro := 0xf7f03, reset := 0x0 },
   /- IMG_EPOCH_LO -/ { base := 0x700008, dims := [], rw := 0x0, w1c := 0x0, rc := [], wo := 0x0, ro := 0xffffffff, reset := 0x0 },
   /- IMG_EPOCH_HI -/ { base := 0x70000c, dims := [], rw := 0x0, w1c := 0x0, rc := [], wo := 0x0, ro := 0xffffffff, reset := 0x0 },
   /- IMG_COW_WAIT -/ { base := 0x700010, dims := [], rw := 0xfffff, w1c := 0x0, rc := [], wo := 0x0, ro := 0x0, reset := 0x3e8 },
   /- IMG_COW_STAT -/ { base := 0x700014, dims := [], rw := 0x0, w1c := 0x0, rc := [], wo := 0x0, ro := 0xffffff, reset := 0x0 },
   /- IMG_ERR -/ { base := 0x700018, dims := [], rw := 0x0, w1c := 0x0, rc := [(0, 8), (8, 8), (16, 8), (24, 8)], wo := 0x0, ro := 0x0, reset := 0x0 },
   /- IMG_DUP -/ { base := 0x70001c, dims := [], rw := 0x0, w1c := 0x0, rc := [(0, 32)], wo := 0x0, ro := 0x0, reset := 0x0 },
   /- IMG_TXN_CNT -/ { base := 0x700020, dims := [], rw := 0x0, w1c := 0x0, rc := [(0, 16), (16, 16)], wo := 0x0, ro := 0x0, reset := 0x0 },
   /- IMG_BASE_SEC_LO -/ { base := 0x700030, dims := [], rw := 0xffffffff, w1c := 0x0, rc := [], wo := 0x0, ro := 0x0, reset := 0x0 },
   /- IMG_BASE_SEC_HI -/ { base := 0x700034, dims := [], rw := 0xffff, w1c := 0x0, rc := [], wo := 0x0, ro := 0x0, reset := 0x0 },
   /- IMG_SLOT -/ { base := 0x700100, dims := [(0x4, 64)], rw := 0x0, w1c := 0x0, rc := [], wo := 0x0, ro := 0xffff000f, reset := 0x0 },
   /- IMG_PIN_FIRST -/ { base := 0x700300, dims := [(0x10, 8)], rw := 0x0, w1c := 0x0, rc := [], wo := 0x0, ro := 0x81ffffff, reset := 0x0 },
   /- IMG_PIN_COUNT -/ { base := 0x700304, dims := [(0x10, 8)], rw := 0x0, w1c := 0x0, rc := [], wo := 0x0, ro := 0x3ffffff, reset := 0x0 },
   /- IMG_PIN_EPOCH -/ { base := 0x700308, dims := [(0x10, 8)], rw := 0x0, w1c := 0x0, rc := [], wo := 0x0, ro := 0xffffffff, reset := 0x0 },
   /- IMG_PIN_HOLDER -/ { base := 0x70030c, dims := [(0x10, 8)], rw := 0x0, w1c := 0x0, rc := [], wo := 0x0, ro := 0xffff, reset := 0x0 },
   /- IMG_STAGE_LO -/ { base := 0x701000, dims := [(0x80, 9)], rw := 0xffffffff, w1c := 0x0, rc := [], wo := 0x0, ro := 0x0, reset := 0x0 },
   /- IMG_STAGE_HI -/ { base := 0x701004, dims := [(0x80, 9)], rw := 0x5fffffff, w1c := 0x0, rc := [], wo := 0x0, ro := 0x0, reset := 0x0 },
   /- IMG_FLOWSEQ -/ { base := 0x701008, dims := [(0x80, 9)], rw := 0xffff1fff, w1c := 0x0, rc := [], wo := 0x0, ro := 0x0, reset := 0x0 }]

/-- Rows of the register map, part 8. -/
def regRows8 : List RegRow :=
  [/- IMG_VIEW -/ { base := 0x70100c, dims := [(0x80, 9)], rw := 0xff, w1c := 0x0, rc := [], wo := 0x0, ro := 0x0, reset := 0x0 },
   /- IMG_TXN_SEL -/ { base := 0x701010, dims := [(0x80, 9)], rw := 0x7f, w1c := 0x0, rc := [], wo := 0x0, ro := 0x0, reset := 0x0 },
   /- IMG_TXN -/ { base := 0x701014, dims := [(0x80, 9)], rw := 0x0, w1c := 0x0, rc := [], wo := 0x3f07, ro := 0x0, reset := 0x0 },
   /- IMG_PIN -/ { base := 0x701018, dims := [(0x80, 9)], rw := 0x0, w1c := 0x0, rc := [], wo := 0x73, ro := 0x0, reset := 0x0 },
   /- IMG_ARG0 -/ { base := 0x70101c, dims := [(0x80, 9)], rw := 0x1ffffff, w1c := 0x0, rc := [], wo := 0x0, ro := 0x0, reset := 0x0 },
   /- IMG_ARG1 -/ { base := 0x701020, dims := [(0x80, 9)], rw := 0x3ffffff, w1c := 0x0, rc := [], wo := 0x0, ro := 0x0, reset := 0x0 },
   /- IMG_RES -/ { base := 0x701024, dims := [(0x80, 9)], rw := 0x0, w1c := 0xc000000, rc := [], wo := 0x0, ro := 0x13ffffff, reset := 0x2000000 },
   /- IMG_RES_EPOCH_LO -/ { base := 0x701028, dims := [(0x80, 9)], rw := 0x0, w1c := 0x0, rc := [], wo := 0x0, ro := 0xffffffff, reset := 0x0 },
   /- IMG_RES_EPOCH_HI -/ { base := 0x70102c, dims := [(0x80, 9)], rw := 0x0, w1c := 0x0, rc := [], wo := 0x0, ro := 0xffffffff, reset := 0x0 },
   /- IMG_LATCH -/ { base := 0x701040, dims := [(0x80, 9), (0x4, 4)], rw := 0x0, w1c := 0x0, rc := [], wo := 0x0, ro := 0xffffffff, reset := 0x0 },
   /- SRU_CTRL -/ { base := 0x1020000, dims := [(0x100000, 8)], rw := 0x1, w1c := 0x0, rc := [], wo := 0x0, ro := 0x0, reset := 0x0 },
   /- SRU_STAT -/ { base := 0x1020004, dims := [(0x100000, 8)], rw := 0x0, w1c := 0x80000000, rc := [], wo := 0x0, ro := 0xffff, reset := 0x0 },
   /- SRU_EXPORT -/ { base := 0x1020018, dims := [(0x100000, 8)], rw := 0xfffff, w1c := 0x0, rc := [], wo := 0x0, ro := 0x0, reset := 0x0 },
   /- SRU_MINDT -/ { base := 0x102001c, dims := [(0x100000, 8)], rw := 0xfffff, w1c := 0x0, rc := [], wo := 0x0, ro := 0x0, reset := 0x3e8 },
   /- SRU_IN -/ { base := 0x1020020, dims := [(0x100000, 8), (0x4, 8)], rw := 0x7f, w1c := 0x0, rc := [], wo := 0x0, ro := 0x0, reset := 0x0 },
   /- SRU_CNT0 -/ { base := 0x1020040, dims := [(0x100000, 8)], rw := 0x0, w1c := 0x0, rc := [(0, 8), (8, 8), (16, 8), (24, 8)], wo := 0x0, ro := 0x0, reset := 0x0 },
   /- SRU_CNT1 -/ { base := 0x1020044, dims := [(0x100000, 8)], rw := 0x0, w1c := 0x0, rc := [(0, 16), (16, 8), (24, 8)], wo := 0x0, ro := 0x0, reset := 0x0 },
   /- SRU_CNT2 -/ { base := 0x1020048, dims := [(0x100000, 8)], rw := 0x0, w1c := 0x0, rc := [], wo := 0x0, ro := 0xffffffff, reset := 0x0 },
   /- SRU_CNT3 -/ { base := 0x102004c, dims := [(0x100000, 8)], rw := 0x0, w1c := 0x0, rc := [(0, 8), (8, 8), (16, 8), (24, 8)], wo := 0x0, ro := 0x0, reset := 0x0 },
   /- SRU_EOS_Q -/ { base := 0x1020050, dims := [(0x100000, 8)], rw := 0x0, w1c := 0x0, rc := [(31, 1)], wo := 0x0, ro := 0x7ffff, reset := 0x0 },
   /- SRU_CMD -/ { base := 0x1020060, dims := [(0x100000, 8)], rw := 0x0, w1c := 0x0, rc := [], wo := 0x3fff0003, ro := 0x0, reset := 0x0 },
   /- SRU_CMD_RES -/ { base := 0x1020064, dims := [(0x100000, 8)], rw := 0x0, w1c := 0x2000000, rc := [], wo := 0x0, ro := 0x100ffff, reset := 0x1000000 },
   /- SRU_PS_W0 -/ { base := 0x1020100, dims := [(0x100000, 8), (0x40, 16)], rw := 0xffff, w1c := 0x0, rc := [], wo := 0x0, ro := 0x0, reset := 0x0 },
   /- SRU_PS_W1 -/ { base := 0x1020104, dims := [(0x100000, 8), (0x40, 16)], rw := 0xffffffff, w1c := 0x0, rc := [], wo := 0x0, ro := 0x0, reset := 0x0 }]

/-- Rows of the register map, part 9. -/
def regRows9 : List RegRow :=
  [/- SRU_PS_W2 -/ { base := 0x1020108, dims := [(0x100000, 8), (0x40, 16)], rw := 0x7fffffff, w1c := 0x0, rc := [], wo := 0x0, ro := 0x0, reset := 0x0 },
   /- SRU_PS_W3 -/ { base := 0x102010c, dims := [(0x100000, 8), (0x40, 16)], rw := 0xffffffff, w1c := 0x0, rc := [], wo := 0x0, ro := 0x0, reset := 0x0 },
   /- SRU_PS_W4 -/ { base := 0x1020110, dims := [(0x100000, 8), (0x40, 16)], rw := 0xffffffff, w1c := 0x0, rc := [], wo := 0x0, ro := 0x0, reset := 0x0 },
   /- SRU_PS_W5 -/ { base := 0x1020114, dims := [(0x100000, 8), (0x40, 16)], rw := 0xffffffff, w1c := 0x0, rc := [], wo := 0x0, ro := 0x0, reset := 0x0 },
   /- SRU_PS_W6 -/ { base := 0x1020118, dims := [(0x100000, 8), (0x40, 16)], rw := 0xffffffff, w1c := 0x0, rc := [], wo := 0x0, ro := 0x0, reset := 0x0 },
   /- SRU_PS_W7 -/ { base := 0x102011c, dims := [(0x100000, 8), (0x40, 16)], rw := 0xffffffff, w1c := 0x0, rc := [], wo := 0x0, ro := 0x0, reset := 0x0 },
   /- SRU_PS_W8 -/ { base := 0x1020120, dims := [(0x100000, 8), (0x40, 16)], rw := 0xffffffff, w1c := 0x0, rc := [], wo := 0x0, ro := 0x0, reset := 0x0 },
   /- SRU_PS_W9 -/ { base := 0x1020124, dims := [(0x100000, 8), (0x40, 16)], rw := 0xffffffff, w1c := 0x0, rc := [], wo := 0x0, ro := 0x0, reset := 0x0 },
   /- SRU_LATCH -/ { base := 0x1020800, dims := [(0x100000, 8), (0x4, 78)], rw := 0x0, w1c := 0x0, rc := [], wo := 0x0, ro := 0xffffffff, reset := 0x0 },
   /- SRU_GSTAT -/ { base := 0x780000, dims := [], rw := 0x0, w1c := 0x0, rc := [], wo := 0x0, ro := 0xffff, reset := 0x0 },
   /- RED_CFG -/ { base := 0x800000, dims := [], rw := 0xffff7fff, w1c := 0x0, rc := [], wo := 0x0, ro := 0x0, reset := 0xa140064 },
   /- RED_STAT -/ { base := 0x800004, dims := [], rw := 0x0, w1c := 0x80000000, rc := [], wo := 0x0, ro := 0xffffff, reset := 0x0 },
   /- RED_CMD -/ { base := 0x800010, dims := [], rw := 0x0, w1c := 0x0, rc := [], wo := 0xffff, ro := 0x0, reset := 0x0 },
   /- RED_CMD_RES -/ { base := 0x80001c, dims := [], rw := 0x0, w1c := 0x2000000, rc := [], wo := 0x0, ro := 0x1ffffff, reset := 0x1000000 },
   /- RED_CNT0 -/ { base := 0x800020, dims := [], rw := 0x0, w1c := 0x0, rc := [(0, 16), (16, 8), (24, 8)], wo := 0x0, ro := 0x0, reset := 0x0 },
   /- RED_CNT1 -/ { base := 0x800024, dims := [], rw := 0x0, w1c := 0x0, rc := [(0, 8), (8, 8), (16, 8), (24, 8)], wo := 0x0, ro := 0x0, reset := 0x0 },
   /- RED_CNT2 -/ { base := 0x800028, dims := [], rw := 0x0, w1c := 0x0, rc := [(0, 16), (16, 16)], wo := 0x0, ro := 0x0, reset := 0x0 },
   /- RED_LAST -/ { base := 0x80002c, dims := [], rw := 0x0, w1c := 0x0, rc := [], wo := 0x0, ro := 0x7f077f, reset := 0x0 },
   /- RED_SELF -/ { base := 0x800030, dims := [], rw := 0x0, w1c := 0x0, rc := [], wo := 0x0, ro := 0xffffffff, reset := 0x0 },
   /- RED_JOIN -/ { base := 0x800034, dims := [], rw := 0x0, w1c := 0x0, rc := [], wo := 0x1, ro := 0x0, reset := 0x0 },
   /- RED_PRP_CFG -/ { base := 0x800040, dims := [], rw := 0x3ff, w1c := 0x0, rc := [], wo := 0x0, ro := 0x0, reset := 0x190 },
   /- RED_PRP_STAT -/ { base := 0x800044, dims := [], rw := 0x0, w1c := 0x0, rc := [(16, 16)], wo := 0x0, ro := 0xfff, reset := 0x0 },
   /- RED_PAIR -/ { base := 0x800100, dims := [(0x8, 48)], rw := 0x0, w1c := 0x0, rc := [], wo := 0x0, ro := 0xffffffff, reset := 0x0 },
   /- RED_PSTAT -/ { base := 0x800104, dims := [(0x8, 48)], rw := 0x0, w1c := 0x0, rc := [], wo := 0x0, ro := 0xffff00ff, reset := 0x0 }]

/-- Rows of the register map, part 10. -/
def regRows10 : List RegRow :=
  [/- RED_CKPT -/ { base := 0x800400, dims := [(0x8, 48), (0x4, 2)], rw := 0xffffffff, w1c := 0x0, rc := [], wo := 0x0, ro := 0x0, reset := 0x0 },
   /- RED_LANT -/ { base := 0x800800, dims := [(0x4, 96)], rw := 0x0, w1c := 0x0, rc := [], wo := 0x0, ro := 0x7ff, reset := 0x0 },
   /- RED_GWFLOW -/ { base := 0x801000, dims := [(0x40, 8), (0x4, 16)], rw := 0x1fff, w1c := 0x0, rc := [], wo := 0x0, ro := 0x0, reset := 0x0 },
   /- RED_PROXY -/ { base := 0x801200, dims := [(0x40, 8), (0x4, 8)], rw := 0x3ffffff, w1c := 0x0, rc := [], wo := 0x0, ro := 0x0, reset := 0x0 },
   /- MBX_IRQ_PEND0 -/ { base := 0x100040, dims := [], rw := 0x0, w1c := 0xffffffff, rc := [], wo := 0x0, ro := 0x0, reset := 0x0 },
   /- MBX_IRQ_PEND1 -/ { base := 0x100044, dims := [], rw := 0x0, w1c := 0xffffffff, rc := [], wo := 0x0, ro := 0x0, reset := 0x0 },
   /- MBX_IRQ_ROUTE -/ { base := 0x100100, dims := [(0x4, 64)], rw := 0xf3f, w1c := 0x0, rc := [], wo := 0x0, ro := 0x0, reset := 0x0 },
   /- MBX_SUP_NOTE -/ { base := 0x100048, dims := [], rw := 0xffffffff, w1c := 0x0, rc := [], wo := 0x0, ro := 0x0, reset := 0x0 },
   /- MBX_HOST_CFG -/ { base := 0x100000, dims := [], rw := 0xf07, w1c := 0x0, rc := [], wo := 0x0, ro := 0x0, reset := 0x1 },
   /- MBX_HRX_TAIL -/ { base := 0x100010, dims := [], rw := 0x0, w1c := 0x0, rc := [], wo := 0x0, ro := 0x7ff, reset := 0x0 },
   /- MBX_HRX_HEAD -/ { base := 0x100014, dims := [], rw := 0x7ff, w1c := 0x0, rc := [], wo := 0x0, ro := 0x0, reset := 0x0 },
   /- MBX_HTX_HEAD -/ { base := 0x100018, dims := [], rw := 0x0, w1c := 0x0, rc := [], wo := 0x0, ro := 0x7ff, reset := 0x0 },
   /- MBX_HTX_TAIL -/ { base := 0x10001c, dims := [], rw := 0x7ff, w1c := 0x0, rc := [], wo := 0x0, ro := 0x0, reset := 0x0 },
   /- MBX_HOST_STAT -/ { base := 0x100020, dims := [], rw := 0x0, w1c := 0x80000000, rc := [(0, 16), (16, 15)], wo := 0x0, ro := 0x0, reset := 0x0 },
   /- MBX_SPI_ERR -/ { base := 0x100024, dims := [], rw := 0x0, w1c := 0x0, rc := [(0, 8)], wo := 0x0, ro := 0x0, reset := 0x0 },
   /- MBX_ABORT -/ { base := 0x100400, dims := [], rw := 0x0, w1c := 0x0, rc := [], wo := 0x7f, ro := 0x0, reset := 0x0 },
   /- SAFE_STAT -/ { base := 0x900000, dims := [], rw := 0x0, w1c := 0x0, rc := [], wo := 0x0, ro := 0xffff1fff, reset := 0x0 },
   /- SAFE_SEAL -/ { base := 0x900004, dims := [], rw := 0x0, w1c := 0x0, rc := [], wo := 0x0, ro := 0x1ffff, reset := 0x0 },
   /- SAFE_IN -/ { base := 0x900008, dims := [], rw := 0x0, w1c := 0x0, rc := [], wo := 0x0, ro := 0xffffff, reset := 0x0 },
   /- SAFE_STO -/ { base := 0x90000c, dims := [], rw := 0x0, w1c := 0x0, rc := [], wo := 0x0, ro := 0xfffff, reset := 0x0 },
   /- SAFE_FAULT -/ { base := 0x900010, dims := [], rw := 0x0, w1c := 0x0, rc := [], wo := 0x0, ro := 0xff01ffff, reset := 0x0 },
   /- SAFE_AX_V1 -/ { base := 0x900020, dims := [(0x8, 4)], rw := 0x0, w1c := 0x0, rc := [], wo := 0x0, ro := 0xffffffff, reset := 0x0 },
   /- SAFE_AX_V2 -/ { base := 0x900024, dims := [(0x8, 4)], rw := 0x0, w1c := 0x0, rc := [], wo := 0x0, ro := 0xffffffff, reset := 0x0 },
   /- PWR_STAT -/ { base := 0xa00000, dims := [], rw := 0x0, w1c := 0x80000100, rc := [(16, 8)], wo := 0x0, ro := 0xf, reset := 0x0 }]

/-- Rows of the register map, part 11. -/
def regRows11 : List RegRow :=
  [/- PWR_VMON0 -/ { base := 0xa00004, dims := [], rw := 0x0, w1c := 0x0, rc := [], wo := 0x0, ro := 0xfff0fff, reset := 0x0 },
   /- PWR_VMON1 -/ { base := 0xa00008, dims := [], rw := 0x0, w1c := 0x0, rc := [], wo := 0x0, ro := 0xfff0fff, reset := 0x0 },
   /- NV_CMD -/ { base := 0xa00100, dims := [], rw := 0x0, w1c := 0x0, rc := [], wo := 0x1ffff0f, ro := 0x0, reset := 0x0 },
   /- NV_RES -/ { base := 0xa00104, dims := [], rw := 0x0, w1c := 0x2000000, rc := [], wo := 0x0, ro := 0x100ffff, reset := 0x1000000 },
   /- NV_ADDR -/ { base := 0xa00108, dims := [], rw := 0x3fffff, w1c := 0x0, rc := [], wo := 0x0, ro := 0x0, reset := 0x0 },
   /- NV_SRC -/ { base := 0xa0010c, dims := [], rw := 0x1fffff, w1c := 0x0, rc := [], wo := 0x0, ro := 0x0, reset := 0x0 },
   /- NV_PROG -/ { base := 0xa00110, dims := [], rw := 0x0, w1c := 0x0, rc := [], wo := 0x0, ro := 0x1ffff, reset := 0x0 },
   /- NV_ERR -/ { base := 0xa00114, dims := [], rw := 0x0, w1c := 0x0, rc := [(0, 16), (16, 8)], wo := 0x0, ro := 0x0, reset := 0x0 },
   /- NV_OTP_STAT -/ { base := 0xa00118, dims := [], rw := 0x0, w1c := 0x0, rc := [], wo := 0x0, ro := 0x3fffffff, reset := 0x0 },
   /- NV_DATA -/ { base := 0xa00140, dims := [(0x4, 16)], rw := 0xffffffff, w1c := 0x0, rc := [], wo := 0x0, ro := 0x0, reset := 0x0 },
   /- RED_ARG0 -/ { base := 0x800014, dims := [], rw := 0xffffffff, w1c := 0x0, rc := [], wo := 0x0, ro := 0x0, reset := 0x0 },
   /- RED_ARG1 -/ { base := 0x800018, dims := [], rw := 0xffffffff, w1c := 0x0, rc := [], wo := 0x0, ro := 0x0, reset := 0x0 },
   /- MBX_SDATA -/ { base := 0x110000, dims := [(0x200, 113), (0x4, 64)], rw := 0xffffffff, w1c := 0x0, rc := [], wo := 0x0, ro := 0x0, reset := 0x0 },
   /- MBX_SEND -/ { base := 0x110100, dims := [(0x200, 113)], rw := 0x0, w1c := 0x0, rc := [], wo := 0x1fff3f, ro := 0x0, reset := 0x0 },
   /- MBX_SFLOW -/ { base := 0x110104, dims := [(0x200, 113)], rw := 0xffff1fff, w1c := 0x0, rc := [], wo := 0x0, ro := 0x0, reset := 0x0 },
   /- MBX_SEND_RES -/ { base := 0x110108, dims := [(0x200, 113)], rw := 0x0, w1c := 0x2000000, rc := [], wo := 0x0, ro := 0x500ffff, reset := 0x1000000 },
   /- MBX_CMD -/ { base := 0x11010c, dims := [(0x200, 113)], rw := 0x0, w1c := 0x0, rc := [], wo := 0xffffffff, ro := 0x0, reset := 0x0 },
   /- MBX_CMD_RES -/ { base := 0x110110, dims := [(0x200, 113)], rw := 0x0, w1c := 0x2000000, rc := [], wo := 0x0, ro := 0x100ffff, reset := 0x1000000 },
   /- MBX_DB -/ { base := 0x110114, dims := [(0x200, 113)], rw := 0x0, w1c := 0xffffffff, rc := [], wo := 0x0, ro := 0x0, reset := 0x0 },
   /- MBX_DBMASK -/ { base := 0x110118, dims := [(0x200, 113)], rw := 0xffffffff, w1c := 0x0, rc := [], wo := 0x0, ro := 0x0, reset := 0xffffffff },
   /- MBX_RING -/ { base := 0x11011c, dims := [(0x200, 113)], rw := 0x0, w1c := 0x0, rc := [], wo := 0x1fffff, ro := 0x0, reset := 0x0 }]

/-- The register map. -/
def regRows : List RegRow :=
  regRows1 ++ regRows2 ++ regRows3 ++ regRows4 ++ regRows5 ++ regRows6 ++ regRows7 ++ regRows8 ++ regRows9 ++ regRows10 ++ regRows11

/-- An offset relative to a row's base is one of the row's registers. -/
def dimsHit : List (Nat × Nat) → Nat → Bool
  | [], off => off == 0
  | (stride, count) :: rest, off => decide (off / stride < count) && dimsHit rest (off % stride)

/-- The row is that of a BAR0 offset. -/
def RegRow.hits (r : RegRow) (a : Nat) : Bool := decide (r.base ≤ a) && dimsHit r.dims (a - r.base)

/-- The row of a BAR0 offset. -/
def regRow (a : Nat) : Option RegRow := regRows.find? (·.hits a)

/-- The rows whose registers do not reset to 0: base, dimensions and reset value, part 1. -/
def resetRows1 : List (Nat × List (Nat × Nat) × Nat) :=
  [/- SYS_RESET_CAUSE -/ (0x40, [], 0x1),
   /- CE_STACK_LIMIT -/ (0x1010014, [(0x100000, 8), (0x1000, 12)], 0x10000),
   /- CE_STAT -/ (0x1010004, [(0x100000, 8), (0x1000, 12)], 0x800),
   /- RND_PERIOD -/ (0x1000008, [(0x100000, 8)], 0x1000190),
   /- AVE_SCHED -/ (0x600008, [], 0x9640320),
   /- AVE_SLOT -/ (0x600100, [(0x4, 64)], 0xff),
   /- AVE_SPARE_OWN -/ (0x600200, [(0x4, 16)], 0xff00),
   /- AVE_RING_STAT -/ (0x600050, [], 0x510000),
   /- AVE_ID -/ (0x600018, [], 0x100),
   /- XING_GEN_STAT -/ (0x300008, [], 0x200),
   /- XING_TBL_CMD -/ (0x300024, [], 0x4),
   /- XING_BUF_STAT -/ (0x300040, [], 0x80008000),
   /- XING_BUF_CFG -/ (0x300044, [], 0x10000100),
   /- ETH_HOLD -/ (0x400018, [(0x1000, 34)], 0x32),
   /- ETH_PLCA -/ (0x40000c, [(0x1000, 34)], 0x40200801),
   /- ETH_SNAP -/ (0x400030, [(0x1000, 34)], 0x2),
   /- CAN_NBT -/ (0x50000c, [(0x1000, 16)], 0xf9f7e00),
   /- CAN_DBT -/ (0x500010, [(0x1000, 16)], 0x26780),
   /- CAN_CFG -/ (0x500008, [(0x1000, 16)], 0x3),
   /- CAN_CMD_RES -/ (0x50001c, [(0x1000, 16)], 0x1000000),
   /- SER_CFG -/ (0x580008, [(0x400, 16)], 0x10028)]

/-- The rows whose registers do not reset to 0, part 2. -/
def resetRows2 : List (Nat × List (Nat × Nat) × Nat) :=
  [/- SER_RATE -/ (0x58000c, [(0x400, 16)], 0x10469),
   /- SER_GAP -/ (0x580010, [(0x400, 16)], 0x7d5035b),
   /- SER_DE -/ (0x580014, [(0x400, 16)], 0x500050),
   /- SYS_PKG_RES -/ (0x84, [], 0x1000000),
   /- TIME_CMD_RES -/ (0x200004, [], 0x1000000),
   /- TIME_STAT -/ (0x200008, [], 0x10),
   /- TIME_CFG -/ (0x20000c, [], 0x323),
   /- TIME_DOM_CFG -/ (0x200040, [(0x40, 2)], 0x20019314),
   /- IMG_COW_WAIT -/ (0x700010, [], 0x3e8),
   /- IMG_RES -/ (0x701024, [(0x80, 9)], 0x2000000),
   /- SRU_MINDT -/ (0x102001c, [(0x100000, 8)], 0x3e8),
   /- SRU_CMD_RES -/ (0x1020064, [(0x100000, 8)], 0x1000000),
   /- RED_CFG -/ (0x800000, [], 0xa140064),
   /- RED_CMD_RES -/ (0x80001c, [], 0x1000000),
   /- RED_PRP_CFG -/ (0x800040, [], 0x190),
   /- MBX_HOST_CFG -/ (0x100000, [], 0x1),
   /- NV_RES -/ (0xa00104, [], 0x1000000),
   /- MBX_SEND_RES -/ (0x110108, [(0x200, 113)], 0x1000000),
   /- MBX_CMD_RES -/ (0x110110, [(0x200, 113)], 0x1000000),
   /- MBX_DBMASK -/ (0x110118, [(0x200, 113)], 0xffffffff)]

/-- What a register resets to by its row: 0 where no row of these holds it. -/
def rowReset (a : Nat) : Nat :=
  match (resetRows1 ++ resetRows2).find? fun r => decide (r.1 ≤ a) && dimsHit r.2.1 (a - r.1) with
  | some r => r.2.2
  | none => 0

/-- Reset contents of the CRC table (Table ISA-10): polynomial. -/
def crcPolyReset : Nat → Nat
  | 0 => 0x04C11DB7 | 1 => 0x1EDC6F41 | 2 => 0x8005 | 3 => 0x1021 | _ => 0

/-- Reset contents of the CRC table (Table ISA-10): width and bit order. -/
def crcCfgReset : Nat → Nat
  | 0 => 6 | 1 => 6 | 2 => 5 | 3 => 1 | _ => 0

/-- Reset value of ETH_CFG by port type. -/
def ethCfgReset (n : Nat) : Nat :=
  if n < 24 then 0x5EE6 else if n < 26 then 0x5EE3 else 0x5EE0

/-- The value of a register right after a reset: the heading that defines the register gives it; the
capability registers, the CRC table, ETH_CFG, IMG_COW_STAT and the first interrupt route have a rule of
their own, and an engine's image control block resets as the others do. -/
def regReset (v : Variant) (a : Nat) : Word :=
  BitVec.ofNat 32 <|
    if a = Reg.SYS_CAP0 then v.cap 0
    else if a = Reg.SYS_CAP1 then v.cap 1
    else if a = Reg.SYS_CAP2 then v.cap 2
    else if a = Reg.SYS_CAP3 then v.cap 3
    else if a = Reg.IMG_COW_STAT then v.cowRecords
    else if a = Reg.MBX_IRQ_ROUTE 0 then 0x100
    else if a = Reg.NV_OTP_STAT then 1
    else if 0x5000000 ≤ a then (if a % 0x80 = 0x24 then 0x02000000 else 0)
    else if 0x1000000 ≤ a ∧ (a / 0x10000) % 0x10 = 1 ∧ (a % 0x1000) / 0x100 = 1 then
      (if a % 8 = 0 then crcPolyReset ((a % 0x100) / 8) else crcCfgReset ((a % 0x100) / 8))
    else if 0x400000 ≤ a ∧ a < 0x422000 ∧ a % 0x1000 = 8 then ethCfgReset ((a - 0x400000) / 0x1000)
    else rowReset a

end Sys2Proof.Machine
end

