-- ==== Sys2Proof/Machine/Store.lean ====
section
/-!
DEFINITION. The one sparse container of the model: a list of (key, value) pairs. Its canonical form has
keys strictly rising and no entry equal to what an unlisted key reads as, so that equal contents are
equal data. Registers, byte memories and the units that exist in many copies are held in it.
-/

namespace Sys2Proof.Machine

/-- A sparse map from numbers to values. -/
abbrev Store (V : Type) := List (Nat × V)

namespace Store

variable {V : Type}

/-- The value at a key; an unlisted key reads as `dflt` says. -/
def get (dflt : Nat → V) : Store V → Nat → V
  | [], k => dflt k
  | (a, v) :: rest, k => if a = k then v else get dflt rest k

/-- The store without the entries of one key. -/
def erase : Store V → Nat → Store V
  | [], _ => []
  | (a, v) :: rest, k => if a = k then erase rest k else (a, v) :: erase rest k

/-- The store with one entry put in its place in the order. -/
def insert : Store V → Nat → V → Store V
  | [], k, v => [(k, v)]
  | (a, x) :: rest, k, v =>
    if a < k then (a, x) :: insert rest k v
    else if a = k then (k, v) :: rest
    else (k, v) :: (a, x) :: rest

/-- The store after a write: a value equal to the unlisted one leaves no entry. -/
def set [DecidableEq V] (dflt : Nat → V) (st : Store V) (k : Nat) (v : V) : Store V :=
  if v = dflt k then erase st k else insert st k v

/-- Every key of the store lies above `lo` (given as one more than the last key seen). -/
def above (lo : Nat) : Store V → Bool
  | [] => true
  | (a, _) :: rest => decide (lo ≤ a) && above (a + 1) rest

/-- The canonical form. -/
def wf [DecidableEq V] (dflt : Nat → V) (st : Store V) : Bool :=
  above 0 st && st.all fun p => decide (p.2 ≠ dflt p.1)

/-- `n` consecutive entries from a key on. -/
def getList (dflt : Nat → V) (st : Store V) (k : Nat) : Nat → List V
  | 0 => []
  | n + 1 => get dflt st k :: getList dflt st (k + 1) n

/-- A list of values written from a key on, in ascending order. -/
def setList [DecidableEq V] (dflt : Nat → V) (st : Store V) (k : Nat) : List V → Store V
  | [] => st
  | v :: vs => setList dflt (set dflt st k v) (k + 1) vs

end Store

/-- A byte memory; a byte nothing has written reads 0 (log entry 4). -/
abbrev Mem := Store Byte

namespace Mem

/-- What an unlisted byte reads as. -/
def dflt (_ : Nat) : Byte := 0

/-- One byte. -/
def read (m : Mem) (a : Nat) : Byte := Store.get dflt m a

/-- One byte written. -/
def write (m : Mem) (a : Nat) (b : Byte) : Mem := Store.set dflt m a b

/-- `n` bytes from an address on, the first the least significant (the device is little-endian). -/
def readLE (m : Mem) (a : Nat) : Nat → Nat
  | 0 => 0
  | n + 1 => (m.read a).toNat + 256 * readLE m (a + 1) n

/-- The low `n` bytes of a value stored from an address on, least significant first. -/
def writeLE (m : Mem) (a : Nat) : Nat → Nat → Mem
  | 0, _ => m
  | n + 1, v => writeLE (m.write a (BitVec.ofNat 8 v)) (a + 1) n (v / 256)

/-- A list of bytes stored from an address on. -/
def writeBytes (m : Mem) (a : Nat) : List Byte → Mem
  | [] => m
  | b :: bs => writeBytes (m.write a b) (a + 1) bs

/-- `n` bytes read from an address on. -/
def readBytes (m : Mem) (a : Nat) : Nat → List Byte
  | 0 => []
  | n + 1 => m.read a :: readBytes m (a + 1) n

/-- The canonical form of a memory. -/
abbrev wf (m : Mem) : Prop := Store.wf dflt m = true

end Mem

end Sys2Proof.Machine
end

