-- ==== Sys2Proof/Machine/State.lean ====
section
/-!
DEFINITION. The state of the block as plain data: the registers in one store keyed by their BAR0 offset, the
units that no register shows in structures of their own, the queue of waiting commands, and the machine
right after reset. Each field's docstring names the rule of the spec that gives it.
-/

namespace Sys2Proof.Machine

/-! ### Leases (R147) -/

/-- A lease: its handle's parts and the identity that holds it. -/
structure Lease where
  type : Nat
  district : Nat
  index : Nat
  holder : Ident
  deriving DecidableEq, Repr

/-! ### Engines -/

/-- The result of a held access: the data or code that arrived, or a refusal at the target (R124, R535). -/
inductive HeldResult where
  | value (v : Nat)
  | refused
  deriving DecidableEq, Repr

/-- One access of an abandoned instruction and its result once it has arrived (R124). -/
structure Held where
  access : Access
  result : Option HeldResult
  /-- The result comes from another district or chip as a message (R148, R399). -/
  remote : Bool := false
  deriving DecidableEq, Repr

/-- One record of the entry stack (R116), with the vector it was pushed for and the bits a chained
entry repeats (R129). -/
structure Record where
  vector : Nat
  retPC : Word
  cause : Word
  g13 : Word
  level : Nat
  abandoned : Bool
  yield : Bool
  held : List Held
  /-- Bit HELD of the entry (Table EVT-6). -/
  heldBit : Bool := false
  deriving DecidableEq, Repr

/-- What the last RETE left for the instruction at the return address, until one issues (R124, R129). -/
structure Returned where
  abandoned : Bool
  yield : Bool
  held : List Held
  heldBit : Bool := false
  deriving DecidableEq, Repr

/-- One entry of the posted-store queue (R104): a store, an EVT or a DBELL. -/
inductive Posted where
  | store (space : Space) (addr bytes value : Nat)
  | doorbell (target : Ident) (bit : Nat)
  deriving DecidableEq, Repr

/-- A posted store that its target refused: the ACCESS entry that is due (R535). -/
structure RefusedStore where
  space : Space
  addr : Nat
  bytes : Nat
  deriving DecidableEq, Repr

/-- A cross-district LEASE or RELEASE in progress (R148). -/
structure LeaseWait where
  handle : Nat
  release : Bool
  gd : GReg
  len : Nat
  deriving DecidableEq, Repr

/-- A load that waits for bytes a port has yet to receive (R278), or for a reply of another chip's image controller
(R399): its destination, width and address. -/
structure LoadWait where
  space : Space := .port
  d : GReg
  wide : Bool
  signed : Bool
  addr : Nat
  bytes : Nat
  len : Nat
  deriving DecidableEq, Repr

/-- An engine's state beside its CE registers (R77–R80, R104, R114–R149). -/
structure Engine where
  /-- g1–g15; g0 is never stored (R77). -/
  g : Store Word := []
  pc : Word := 0
  evtPend : Word := 0
  evtMask : Word := 0
  leaseId : Word := 0
  /-- Cycle in which each pending line arrived (R120). -/
  arrival : Store Nat := []
  /-- Entry stack, innermost record first (R116). -/
  stack : List Record := []
  returned : Option Returned := none
  /-- Posted-store queue, oldest first, at most 8 (R104). -/
  posted : List Posted := []
  refused : List RefusedStore := []
  watchPending : Bool := false
  leasePending : Bool := false
  /-- Watchdog count in FCLK cycles (R143). -/
  wdCount : Nat := 0
  /-- The watchdog has expired since the last kick (R139). -/
  wdExpired : Bool := false
  leaseWait : Option LeaseWait := none
  /-- Engine data SRAM and instruction SRAM (Table ISA-11). -/
  data : Mem := []
  instr : Mem := []
  /-- A load from a patch window that waits for its bytes (R278). -/
  loadWait : Option LoadWait := none
  /-- A repeated string instruction stands at the program counter between two elements (R131). -/
  midRep : Bool := false
  /-- The watchdog has been reloaded since it last reached 0 (R143). -/
  wdArmed : Bool := false
  /-- Accesses sent on this chip whose results are discarded when they arrive (R125, R139, R146). -/
  orphans : List Access := []
  /-- Accesses that another district or chip serves, whose results are discarded when they arrive (R125, R139,
  R146). -/
  dropped : List Access := []
  deriving DecidableEq, Repr

/-! ### Districts and the Round (chapter 05) -/

/-- Operation of RNDOP on a commons word (R100). -/
inductive RndOp where
  | or | xor | add | min | max
  deriving DecidableEq, Repr

/-- A pending commons operation of a station (R161). -/
structure PendOp where
  op : RndOp
  value : Word
  deriving DecidableEq, Repr

/-- The words of a Round frame in passage: as they stand, the poisoned ones and the written ones (R167, R182). -/
structure Passage where
  words : Store Word
  poison : List Nat
  marks : List Nat
  deriving DecidableEq, Repr

/-- A frame in passage: the cycle of its start, its words, and the errors they meet on the ring (R159, R167). -/
structure Flight where
  start : Nat
  pass : Passage
  errors : List RingFault
  deriving DecidableEq, Repr

/-- A district beside its RND registers: its SRAM and its Round. Words of a station are keyed
station × 64 + word. -/
structure District where
  sram : Mem := []
  /-- 8-byte words of the SRAM that hold an uncorrectable error, and those that hold a single-bit error (R151). -/
  bad : List Nat := []
  soft : List Nat := []
  /-- Words the header sends at the next start (R159). -/
  frame : Store Word := []
  /-- The frame between its start and the header (R159). -/
  flight : Option Flight := none
  /-- Words as they last left each station in a cycle before this one, and those that leave one in this cycle (R161). -/
  seen : Store Word := []
  leaving : Store Word := []
  /-- Pending writes of each station (R161). -/
  pendW : Store (Option Word) := []
  /-- Pending operations of each station (R161). -/
  pendOp : Store (Option PendOp) := []
  /-- Writes and operations that a station has taken at its deadline and applies in the passage under way (R161). -/
  takenW : Store (Option Word) := []
  takenOp : Store (Option PendOp) := []
  /-- Number of the next Round (R160). -/
  round : Nat := 0
  /-- Cycle of the next scheduled start (R165). -/
  due : Option Nat := none
  /-- Cycle of the last start. -/
  lastStart : Nat := 0
  /-- A table applied at the start that is due moves the phase point (R165). -/
  moved : Bool := false
  /-- Station words 1–15 that the gateway recorded at the last passage, with ROUND and GEN first (R169). -/
  record : List Word := []
  deriving DecidableEq, Repr

/-! ### The Avenue (chapter 06) -/

/-- This chip's claim in progress: the claim, the cycle number it was sent in and the FCLK cycle in which its write
was held (R199, R201). -/
structure ClaimReq where
  claim : Claim
  sent : Option Nat
  filed : Nat := 0
  deriving DecidableEq, Repr

/-- A frame of a ring slot that a relay holds for the next cycle (R207). -/
structure Replay where
  slot : Nat
  port : Nat
  copies : Nat
  msgs : List Msg
  deriving DecidableEq, Repr

/-- A slot frame on the chip's Avenue: its slot, the cycle of its action point and its messages (R171–R174). -/
structure AirFrame where
  slot : Nat
  at' : Nat
  msgs : List Msg
  deriving DecidableEq, Repr

/-- A beat with its sideband (Table AVE-2). -/
structure AveBeat where
  data : List Byte
  mark : Nat
  msg : Bool
  ecc : Nat
  fcrc : Nat
  deriving DecidableEq, Repr

/-- What the supervisor's reference window carries until the chip's nodes hold it, and the cycle of that; the master
holds its own message then (R174, R192). -/
structure LocalRef where
  at' : Nat
  own : Option RefMsg
  deriving DecidableEq, Repr

/-- Training of a Wilern port: the steps of Table AVE-17 that have ended, and the cycle in which the next one began. -/
structure Training where
  step : Nat := 0
  began : Nat := 0
  deriving DecidableEq, Repr

/-- The Avenue beside its registers. -/
structure Avenue where
  /-- The cycle counter has started (R188). -/
  started : Bool := false
  /-- FCLK cycle of the current cycle's start, and the current cycle's length (R196). -/
  cycleStart : Nat := 0
  len : Nat := 6400
  /-- The schedule applied in this cycle changes the cycle length, which moves the phase points (R165). -/
  moved : Bool := false
  /-- Accumulator of R196, in units of 2^-30. -/
  acc : Int := 0
  /-- Last master reference message held (R192). -/
  held : Option RefMsg := none
  /-- The message in this chip's reference window that its nodes have yet to hold (R192). -/
  window : Option LocalRef := none
  /-- LINE_TIME and TIME_INFO as read when the next message was built (R200, R353). -/
  built : Option (Nat × Nat) := none
  /-- A valid reference message of the followed master was held in this cycle, or one was counted missing. -/
  seen : Bool := false
  missed : Bool := false
  /-- Consecutive messages of one master while integrating (R189). -/
  integrating : Nat := 0
  /-- Consecutive misses (R193). -/
  misses : Nat := 0
  /-- Consecutive cycles with |off| above 6, and messages with |off| at most 2 (R198). -/
  offBig : Nat := 0
  offSmall : Nat := 0
  /-- End of a cold-start node's listening (R190). -/
  timeoutAt : Option Nat := none
  /-- In ISOLATED the time-out has passed, and the next cycle start sends the cold-start message (R195). -/
  coldDue : Bool := false
  /-- Cycle of each Wilern port's next training attempt (R204). -/
  retryAt : Store Nat := []
  /-- Training of each port, and the ports whose link has come UP in this cycle (R204, R209). -/
  training : Store Training := []
  fresh : List Nat := []
  /-- Start-up has begun (R188). -/
  begun : Bool := false
  /-- The ring map in ring order (R205). -/
  map : List RingChip := []
  /-- Messages a node's unit has queued for its slots and offers, by local ID (R171, R179). -/
  queues : Store (List Msg) := []
  /-- Advances of each TX ring's TAIL that a slot may still have to look past, newest first: FCLK cycle and TAIL, the
  last being the value before them. By district × 2 + ring (R181). -/
  tails : Store (List (Nat × Nat)) := []
  /-- SLICE captures each gateway has queued, at most 32 (R182). -/
  fwd : Store (List Msg) := []
  /-- Gateways that have sent their LANTERN message in this cycle (R180). -/
  lanternSent : List Nat := []
  /-- Local ID the next dynamic offer goes to, and the cycle from which it may be made (R179). -/
  turn : Nat := 0
  dynFree : Nat := 0
  /-- Slots whose action point has passed in this cycle, and frames that the chip's nodes have yet to hold. -/
  slotDone : List Nat := []
  air : List AirFrame := []
  /-- Messages of the dynamic segment with the cycles in which the chip's nodes hold them (R174). -/
  dynAir : List (Nat × Msg) := []
  /-- This chip's claim, and the claims held by the master (R199, R200). -/
  claim : Option ClaimReq := none
  claims : List Claim := []
  /-- The master's spare table and CLAIMS_SEEN for its next reference message, and the table in force. -/
  spare : List SpareEntry := []
  claimsSeen : Nat := 0
  spareNow : List SpareEntry := []
  /-- Cycles for which each chip has been absent from the ring map (R202). -/
  absentFor : Store Nat := []
  /-- Ring frames held for replay in the next cycle, and those replayed in this one (R207). -/
  replayNext : List Replay := []
  replay : List Replay := []
  /-- Cycle in which a pending ENTER_RUN was written, in a STATE of start-up (R191). -/
  runAsked : Option Nat := none
  /-- ENTER_RUN has succeeded and takes effect at the next cycle start (R45). -/
  runNext : Bool := false
  deriving DecidableEq, Repr

/-! ### The time base (chapter 12) -/

/-- A time value: its whole length since second 0, in units of 2^-48 ns (R340, R341). -/
abbrev Instant := Nat

/-- A time domain beside its registers (R341–R349). -/
structure Domain where
  value : Instant := 0
  /-- Rate and servo integral, in units of 2^-48 ns per ns (R341, R347). -/
  rate : Int := 0
  integ : Int := 0
  /-- The configuration in force; the register holds the last one written (R349). -/
  live : Word := 0x20019314
  /-- Cycle from which the next missing measurement or RATE period counts (R346, R348). -/
  since : Nat := 0
  /-- A measurement has been taken since the domain became UNSET or its SRC changed (R347). -/
  measured : Bool := false
  deriving DecidableEq, Repr

/-- A time repeater, in quarter nanoseconds of line time modulo 2^32 s (R357); while it is stopped, the
refreshed value it waits for (R358). -/
structure Repeater where
  value : Nat := 0
  held : Option Nat := none
  deriving DecidableEq, Repr

/-- A refresh on its way to the repeaters: the cycle it arrives in, its value, and whether it is a step
refresh (R358). -/
structure Refresh where
  arrives : Nat
  value : Nat
  step : Bool
  deriving DecidableEq, Repr

/-- A PPS input beside its registers: the cycle of the last valid edge since EN was set (R365). -/
structure PpsIn where
  last : Option Nat := none
  deriving DecidableEq, Repr

/-- A pulse output as armed (R366): its next leading edge and its open pulse's trailing edge. -/
structure PulseOut where
  periodic : Bool := false
  activeLow : Bool := false
  period : Nat := 0
  width : Nat := 0
  next : Option Instant := none
  trail : Option Instant := none
  /-- START, the first edge of the grid. -/
  start : Instant := 0
  deriving DecidableEq, Repr

/-- A district's time-stamp queue (R361): its entries' words by entry × 4 + word, and the number of the next
push. -/
structure Tsq where
  entries : Store Word := []
  push : Nat := 0
  deriving DecidableEq, Repr

/-- The time base beside its registers. -/
structure TimeBase where
  line : Instant := 0
  domains : Store Domain := []
  /-- Quarter nanoseconds of FCLK that no TCLK cycle has taken up yet. -/
  phase : Nat := 0
  /-- What each domain read at the last local cycle start (R345). -/
  recorded : Store Int := []
  /-- The active domain entered HOLDOVER or OFF in the last TCLK cycle (R351). -/
  switchDue : Bool := false
  /-- Line time stepped in the last TCLK cycle (R358). -/
  stepDue : Bool := false
  /-- Cycle of the next repeater refresh (R358). -/
  refreshAt : Nat := 0
  refreshes : List Refresh := []
  repeaters : Store Repeater := []
  pps : Store PpsIn := []
  outs : Store PulseOut := []
  tsq : Store Tsq := []
  deriving DecidableEq, Repr

/-! ### Redundancy (chapter 15) -/

/-- A consumer's context of one flow (R425): the highest number accepted, the record of the 64 numbers up to it,
and the digests of the copies accepted among the 16 highest (R427). -/
structure FlowCtx where
  high : Nat
  record : BitVec 64
  digests : List (Nat × Nat)
  deriving DecidableEq, Repr

/-- An entry of the PRP and HSR discard table (R429): source address, sequence number, group (0 PRP, 1 HSR),
port and the cycle it was made in. -/
structure PrpEntry where
  sa : Nat
  seq : Nat
  group : Nat
  port : Nat
  at' : Nat
  deriving DecidableEq, Repr

/-- A slot of a twin pair (R420): the engine now in it, its cold spare, and until when a started spare may join. -/
structure PairSlot where
  engine : Option Nat := none
  spare : Option Nat := none
  /-- Cycle of the declaration and of the join time-out while the slot is being restored (R444). -/
  declared : Nat := 0
  joinBy : Option Nat := none
  /-- GEN of the last checkpoint copied to MRAM (R441). -/
  copied : Option Nat := none
  /-- The engine that the spare replaced (R442), and whether the slot has joined again since it failed (R449). -/
  was : Option Nat := none
  joined : Bool := false
  /-- The reclaim that follows its declaration is under way (R434). -/
  reclaiming : Bool := false
  deriving DecidableEq, Repr

/-- A twin pair beside its registers. -/
structure Pair where
  slot0 : PairSlot := {}
  slot1 : PairSlot := {}
  /-- Chip of a remote member in slot 1 (R449), and the Avenue cycles since its last SUPER message. -/
  remote : Option Nat := none
  silent : Nat := 0
  deriving DecidableEq, Repr

/-- Monitoring of an engine (R430–R433): a pulse in this period of path 2, the LANTERN and the FAULT last seen on
path 1, and whether LANTERN has changed in the current window. -/
structure Beat where
  pulse : Bool := false
  lantern : Nat := 0
  changed : Bool := false
  fault : Bool := false
  deriving DecidableEq, Repr

/-- A proxy entry's running state (R446): its next SEQ. -/
structure Proxy where
  seq : Nat := 0
  /-- Serial entries gathered for the next IN record. -/
  gathered : List Nat := []
  /-- Cycle of the last entry gathered. -/
  last : Nat := 0
  deriving DecidableEq, Repr

/-- A proxy record on its way to station 13: its district, first word and words (R446). -/
structure ProxyRecord where
  first : Nat
  words : List Word
  deriving DecidableEq, Repr

/-- The redundancy unit beside its registers. -/
structure Redundancy where
  /-- Contexts by consumer × 4,096 + flow: 0 the Crossing, 1 the image controller, 2 the mailbox unit, 3 the port
  block, 8 + d the gateway of district d. -/
  flows : Store (Option FlowCtx) := []
  prp : List PrpEntry := []
  pairs : Store Pair := []
  beats : Store Beat := []
  /-- JRES of each engine (Table RED-15). -/
  jres : Store Nat := []
  /-- Monitoring runs; the start of the current path 2 period; Avenue cycles of the current path 1 window. -/
  monitoring : Bool := false
  periodStart : Nat := 0
  windowCycles : Nat := 0
  /-- Districts with a LANTERN message held in their current window. -/
  heard : List Nat := []
  proxies : Store Proxy := []
  /-- Records that wait for station 13, by district, at most 16. -/
  records : Store (List ProxyRecord) := []
  /-- Cycle of the last MRAM checkpoint examination (R441). -/
  mramAt : Nat := 0
  deriving DecidableEq, Repr

/-! ### The Crossing (chapter 07) -/

/-- A table entry: DATA0–DATA3 (R218). -/
structure Entry where
  d0 : Word := 0
  d1 : Word := 0
  d2 : Word := 0
  d3 : Word := 0
  deriving DecidableEq, Repr

/-- What a cell of the buffer is in; a cell not listed is FREE (R215). -/
inductive Cell where
  /-- Part of the frame of a number. -/
  | held (frame : Nat)
  /-- Unreferenced: an orphan, or reclaimed under R217; marked by the Lamplighter (R253). -/
  | lost (reclaimed marked : Bool)
  deriving DecidableEq, Repr

/-- A descriptor's destination, VID and PRIO for a DIRECT frame (R232). -/
structure Direct where
  dest : Nat
  vid : Nat
  prio : Nat
  deriving DecidableEq, Repr

/-- A frame in the cell buffer: received, in flight or leased (R214–R216). -/
structure Frame where
  cells : List Nat
  len : Nat
  source : Nat
  /-- VID and PRIO, from the control word of source 43 or from classification. -/
  vid : Nat := 0
  prio : Nat := 0
  direct : Option Direct := none
  /-- Flow and SEQ that the descriptor or the FRAME header carries. -/
  tag : Option (Nat × Nat) := none
  /-- Flow and SEQ of classification. -/
  flow : Option (Nat × Nat) := none
  gen : Nat := 0
  /-- Copies that have not ended, those of them that hold the cells, and leases (R215, R216). -/
  copies : Nat := 0
  refs : Nat := 0
  leases : Nat := 0
  /-- District and entry of its receive stamp, or its loss (R269). -/
  stamp : Option (Nat × Nat) := none
  stampLost : Bool := false
  /-- Cycle in which the whole frame stood ready for its classification (R226). -/
  ready : Nat := 0
  /-- The supervisor has reclaimed a lease of the frame: the Lamplighter frees its cells (R217). -/
  reclaimed : Bool := false
  deriving DecidableEq, Repr

/-- A copy of a frame for one destination. -/
structure Copy where
  frame : Nat
  dest : Nat
  queue : Nat
  alley : Bool
  size : Nat
  cells : Nat
  gen : Nat
  enqueued : Nat
  /-- Line time of its enqueue, which fixes its window in a TT queue (R245), and its place in its queue's order (R236). -/
  joined : Instant := 0
  seq : Nat := 0
  deriving DecidableEq, Repr

/-- A copy in the spill store: its frame's bytes once the write has completed (R241). -/
structure Spilled where
  copy : Copy
  frame : Frame
  bytes : Option (List Byte)
  deriving DecidableEq, Repr

/-- A queue: its copies on chip and in spill, oldest first, and its deficit (R236, R237). -/
structure Queue where
  copies : List Copy := []
  spill : List Spilled := []
  deficit : Nat := 0
  deriving DecidableEq, Repr

/-- A gate schedule in force (R243): the gates and lengths in ns of its entries. -/
structure GateSched where
  enabled : Bool := false
  base : Instant := 0
  cycle : Nat := 0
  list : List (Nat × Nat) := []
  deriving DecidableEq, Repr

/-- A port's schedules with the instants from which they are in force, oldest first; before the first every gate is
open (R243, R246). -/
structure Gates where
  line : List (Instant × GateSched) := []
  deriving DecidableEq, Repr

/-- A meter's bucket (R230): its level in units of 10^-8 bit when it was last used, and that cycle. -/
structure Meter where
  level : Nat
  at' : Nat
  deriving DecidableEq, Repr

/-- The Crossing beside its registers. -/
structure Crossing where
  /-- Newest generation, old generation and shadow, by table × 65,536 + index. -/
  tables : Store Entry := []
  old : Store Entry := []
  shadow : Store (Option Entry) := []
  cells : Store Cell := []
  /-- The 8 MiB of the cells, by cell × 256 + byte. -/
  buffer : Mem := []
  /-- Frames by number, and the next number. -/
  frames : Store (Option Frame) := []
  nextFrame : Nat := 0
  /-- Frames received and not yet classified, oldest first, and the source whose frame was classified last (R226). -/
  arrived : List Nat := []
  lastSource : Nat := 0
  /-- Number of the next copy enqueued (R236). -/
  nextSeq : Nat := 0
  /-- First cells of reclaimed leases, with their last holders (R217). -/
  stale : List (Nat × Ident) := []
  /-- Copies admitted and not yet enqueued, with whether they go to spill. -/
  admitted : List (Copy × Bool) := []
  queues : Store Queue := []
  /-- Queue last served, by destination × 8 + level (R237). -/
  turn : Store Nat := []
  /-- Bytes of the spill store in use (R240). -/
  spillUsed : Nat := 0
  gates : Store Gates := []
  meters : Store (Option Meter) := []
  oldMeters : Store (Option Meter) := []
  /-- Member of each bucket, by group × 64 + bucket (R249). -/
  buckets : Store Nat := []
  /-- The Lamplighter's next cell (R252). -/
  lamp : Nat := 0
  /-- Entries the last commit changed, and the end of the spare bank's synchronisation (R224). -/
  changed : Nat := 0
  syncAt : Nat := 0
  /-- XCLK cycle of the drop that XING_DROP_LAST records (R256). -/
  dropAt : Option Nat := none
  deriving DecidableEq, Repr

/-! ### Ethernet ports (chapter 08) -/

/-- The frame current on a through-path port (R277–R280): its bytes as received, the port it leaves on (none
when it is discarded), its patches in the order applied, the link's speed, the bytes forwarded, the cycle of
its SFD, and whether it has left or was cut off. -/
structure ThruFrame where
  bytes : List Byte
  output : Option Nat
  patches : List (Nat × List Byte)
  speed : Nat
  keep : Nat
  began : Nat
  sent : Bool
  deriving DecidableEq, Repr

/-- A port beside its registers: the frame interface of its PORT range (Table ETH-8), its transmitter and its
10BASE-T1S state. -/
structure Port where
  rxTail : Nat := 0
  rxHead : Nat := 0
  rxCtrl : Word := 0
  txHead : Nat := 0
  txTail : Nat := 0
  rxDesc : Store Word := []
  txDesc : Store Word := []
  /-- Engine that offered each transmit descriptor (R272). -/
  holder : Store Nat := []
  /-- Handle and result of each engine's last ALLOC (R268). -/
  alloc : Store Word := []
  allocRes : Store Nat := []
  patchFrame : Nat := 0
  aptA : Store Word := []
  aptB : Store Word := []
  /-- Outstanding receive descriptors whose lease has ended already: handed over or reclaimed (R267). -/
  handed : List Nat := []
  /-- The copy in transmission, and the frames sent in the current opportunity (R264). -/
  sending : Option Copy := none
  burst : Nat := 0
  /-- End of the link hold (R284). -/
  holdUntil : Option Nat := none
  thru : Option ThruFrame := none
  /-- Through-path frames before the current one whose last byte has yet to leave (R277). -/
  leaving : List ThruFrame := []
  /-- A reception begun by its start of frame is in progress (R261). -/
  receiving : Bool := false
  /-- Consecutive beacons heard, and the cycle of the last (R264). -/
  beacons : Nat := 0
  lastBeacon : Nat := 0
  /-- Collisions of the frame in transmission, the end of its back-off, and whether it waits for its next attempt
  (R264, R265). -/
  attempts : Nat := 0
  backoff : Option Nat := none
  deferred : Bool := false
  /-- Opportunities since the last beacon (R264). -/
  opp : Nat := 0
  /-- Stamp of the last receive start of frame: its entry, or its loss (R269). -/
  stamp : Option (Nat × Nat) := none
  stampLost : Bool := false
  deriving DecidableEq, Repr

/-! ### CAN FD controllers (chapter 09) -/

/-- A frame in an object's pending buffer: words 1–19 and its LOST mark (R302). -/
structure CanPend where
  words : List Word
  lost : Bool
  deriving DecidableEq, Repr

/-- A receive object (Table CAN-4): word 0's fields, words 1–19 and the pending buffer. -/
structure RxObj where
  new : Bool := false
  lost : Bool := false
  updates : Nat := 0
  words : List Word := []
  pend : Option CanPend := none
  deriving DecidableEq, Repr

/-- A transmit object (Table CAN-5): word 0's fields, SOF_CNT, and words 1, 2 and 4–19 by number. -/
structure TxObj where
  state : Nat := 0
  first : Bool := false
  cancelReq : Bool := false
  attempts : Nat := 0
  sofCnt : Nat := 0
  words : Store Word := []
  deriving DecidableEq, Repr

/-- A controller beside its registers. -/
structure Can where
  rx : Store RxObj := []
  tx : Store TxObj := []
  /-- A frame is in progress on the bus since its start of frame (R296), or 11 recessive bits are waited for after a
  protocol exception in it (R290). -/
  busy : Bool := false
  excepted : Bool := false
  /-- The object chosen for the next attempt (R308). -/
  chosen : Option Nat := none
  /-- Updates validated in this cycle, oldest first (R300, R304). -/
  due : List (Nat × List Word) := []
  /-- SOF_CNT of the start of frame that its line holds (R27, R315). -/
  sofHeld : Nat := 0
  /-- Stamp of the last start of frame: its entry, or its loss (R315). -/
  stamp : Option Nat := none
  stampLost : Bool := false
  /-- End of intermission and suspend transmission (R309). -/
  suspendUntil : Nat := 0
  deriving DecidableEq, Repr

/-! ### Serial lines (chapter 10) -/

/-- A line beside its registers: its PORT range (Table SER-2), its transmitter and its gap timer. -/
structure Serial where
  rx : Store Word := []
  tx : Mem := []
  rxTail : Nat := 0
  rxHead : Nat := 0
  txHead : Nat := 0
  txTail : Nat := 0
  cmdRes : Nat := 0
  ssiData : Word := 0
  ssiCnt : Nat := 0
  /-- The next character carries FIRST, or OVR (Table SER-3). -/
  first : Bool := false
  ovr : Bool := false
  /-- A character is being sent, and the cycle of its start bit; the DE ball; when DE falls; and whether SER_DATA is due
  with its fall (R321, R325). -/
  sending : Bool := false
  txFrom : Nat := 0
  de : Bool := false
  deFall : Option Nat := none
  dataDue : Bool := false
  /-- A character is being received; whether it carries GAP15; and whether it began while DE was high (R321, R322). -/
  receiving : Bool := false
  rxGap15 : Bool := false
  rxDe : Bool := false
  /-- Cycle of the last stop bit received (R321). -/
  lastRx : Nat := 0
  /-- Cycle at which the gap timer started, and the thresholds it has reached (R322). -/
  gapFrom : Option Nat := none
  gap15 : Bool := false
  gap35 : Bool := false
  /-- Cycle an SSI transfer began in, and of its last clock edge (R323). -/
  ssi : Option Nat := none
  pause : Option Nat := none
  /-- End of a wake-up request, which drives TX low (R324). -/
  wurq : Option Nat := none
  deriving DecidableEq, Repr

/-! ### Power and non-volatile memory (chapter 18), packages (chapter 11), pins (chapter 19) -/

/-- An NV command in progress (R517): its OP and address, the rows still to write with the bytes of a WRITE or
the boot-window offset of a COPY, and the cycle in which the current row or program started. -/
structure NvJob where
  op : Nat
  addr : Nat
  src : Nat
  rows : Nat
  data : List Byte
  hash : Nat
  started : Nat
  /-- The next row has not started: the MRAM writes a row of the supervisor (R518). -/
  waits : Bool := false
  /-- The errors that a READ meets. -/
  errs : List MramFault := []
  deriving DecidableEq, Repr

/-- A row that the supervisor writes to MRAM for a slot's checkpoint copy; the last one of a copy carries the GEN that it
completes (R441). -/
structure SupRow where
  pair : Nat
  slot : Nat
  addr : Nat
  data : List Byte
  gen : Option Nat
  deriving DecidableEq, Repr

/-- The supervisor's rows in order, and the cycle in which the first started (R518). -/
structure SupRows where
  rows : List SupRow := []
  started : Option Nat := none
  deriving DecidableEq, Repr

/-- A package or program load that has passed its checks (R331): the instance and each engine's images. -/
structure PkgJob where
  pkgId : Nat
  role : Nat
  first : Nat
  tag : Nat
  images : List (List Byte × List Byte)
  deriving DecidableEq, Repr

/-- The JTAG port (R525): the instruction in force, 0 BYPASS, 1 IDCODE, 2 SAMPLE/PRELOAD, 3 EXTEST, and the
JTAG_TRST_N ball low. -/
structure Jtag where
  instr : Nat := 1
  trstLow : Bool := true
  deriving DecidableEq, Repr

/-! ### The process image (chapter 13) -/

/-- A version of a point (Table IMG-1). -/
structure Ver where
  value : Nat
  stamp : Nat
  quality : Nat
  user : Nat
  deriving DecidableEq, Repr

/-- What a reader takes of a point: nothing since the clear, an uncorrectable error (R378), or a version. -/
inductive Slotted where
  | unset
  | lost
  | version (v : Ver)
  deriving DecidableEq, Repr

/-- A version slot of a point's line (Table IMG-2): what it holds, PEND with the transaction slot TXN, and CUR. -/
structure VerSlot where
  held : Slotted := .unset
  txn : Option Nat := none
  cur : Bool := false
  deriving DecidableEq, Repr

/-- A point: the two slots of its line, the epoch of its current version, LAST, and whether the line has an uncorrectable
error (R370, R373, R378). -/
structure Point where
  slot0 : VerSlot := {}
  slot1 : VerSlot := {}
  last : Nat := 0
  lost : Bool := false
  deriving DecidableEq, Repr

/-- A version to be written; AUTO takes its stamp when it is applied (R380). -/
structure Write where
  ver : Ver
  auto : Bool
  deriving DecidableEq, Repr

/-- A copy-on-write record and the pins it serves (R395). -/
structure CowRec where
  point : Nat
  old : Slotted
  pins : List Nat
  deriving DecidableEq, Repr

/-- A transaction slot's begin epoch and journal (R373, R384). -/
structure ImgTxn where
  begin : Nat := 0
  set : Store (Option Write) := []
  deriving DecidableEq, Repr

/-- A command that changes or ends an epoch (R374), with the flow and number of a COMMIT. -/
inductive ImgCmd where
  | begin (recipe : Bool)
  | commit (slot : Nat) (flow : Option (Nat × Nat))
  | rollback (slot : Nat)
  | pin (first count : Nat)
  | unpin (k : Nat)
  deriving DecidableEq, Repr

/-- What an identity asks of the image controller and still waits (R396). -/
inductive ImgReq where
  | write (p : Nat) (w : Write) (flow : Option (Nat × Nat))
  /-- A version for the write set of the slot that TXN_SEL named (R384). -/
  | add (t p : Nat) (w : Write)
  | cmd (c : ImgCmd)
  deriving DecidableEq, Repr

/-- A request that waits, and since when. -/
structure ImgWait where
  who : Ident
  req : ImgReq
  since : Nat
  deriving DecidableEq, Repr

/-- The COMMIT in processing (Table IMG-4): its checks have passed in the cycle named; a direct write has landed
on a point of its set (R386); its lease is being reclaimed (R390). -/
structure ImgRun where
  who : Ident
  slot : Nat
  flow : Option (Nat × Nat)
  since : Nat
  hit : Bool
  reclaimed : Bool := false
  deriving DecidableEq, Repr

/-- The image controller beside its registers. -/
structure Image where
  points : Store Point := []
  epoch : Nat := 0
  txns : Store ImgTxn := []
  /-- Epoch of each pin. -/
  pins : Store Nat := []
  cow : List CowRec := []
  /-- Records of released pins that have not returned to the free count (R393). -/
  freed : Nat := 0
  /-- Slots, and pins from 64 on, that the age limit has ended, with their last holder (R374). -/
  aged : Store (Option Ident) := []
  /-- Requests behind a write that waits for a record, and commands in their order. -/
  waiting : List ImgWait := []
  cmds : List (Ident × ImgCmd) := []
  /-- Cycle from which the next command may be processed, 64 after the last (R374). -/
  nextCmd : Nat := 0
  run : Option ImgRun := none
  deriving DecidableEq, Repr

/-! ### Reduction units (chapter 14) -/

/-- A ledger entry (R401, R406–R412). Times are whole stamps in quarter nanoseconds. -/
structure Ledger where
  /-- 0 IDLE, 1 RUNNING, 2 ENDED, 3 FAULTED. -/
  state : Nat := 0
  step : Nat := 0
  pset : Nat := 0
  qacc : Int := 0
  eacc : Int := 0
  qsat : Bool := false
  esat : Bool := false
  hsat : Bool := false
  gap : Bool := false
  bins : Store Nat := []
  residue : Nat := 0
  samples : Nat := 0
  vmin : Nat := 0
  vmax : Nat := 0
  tmax : Int := 0
  start : Int := 0
  anchorV : Nat := 0
  anchorT : Int := 0
  dvdt : Int := 0
  /-- The last accepted sample. -/
  volt : Nat := 0
  curr : Int := 0
  temp : Int := 0
  stamp : Int := 0
  /-- The last sample kept in the curve, the next record and the wrap (R411). -/
  keptV : Nat := 0
  keptI : Int := 0
  keptT : Int := 0
  curveIdx : Nat := 0
  wrapped : Bool := false
  endCode : Nat := 0
  /-- The taper test is armed (R412). -/
  armed : Bool := false
  /-- Stamp of the step's last periodic export (R414). -/
  exported : Option Int := none
  deriving DecidableEq, Repr

/-- A reduction unit beside its registers: the ledger, the input queue of sample records, the end-of-step queue
(channel and END) and whether SRU_READY is owed (R403). -/
structure Sru where
  ledger : Store Ledger := []
  inq : List (List Word) := []
  eosq : List (Nat × Nat) := []
  owed : Bool := false
  /-- Cycle from which the next sample may be processed, 64 after the last (R416). -/
  nextSample : Nat := 0
  deriving DecidableEq, Repr

/-! ### Mailboxes (chapter 16) -/

/-- A queued message: the stamped sender, the island's send slot it came from, and its bytes (R468). -/
structure MbxMsg where
  src : Ident
  slot : Nat
  data : List Byte
  deriving DecidableEq, Repr

/-- A channel (R464). -/
structure Channel where
  holder : Option Ident := none
  depth : Nat := 0
  dbit : Nat := 0
  any : Bool := false
  allow : Ident := 0
  queue : List MbxMsg := []
  deriving DecidableEq, Repr

/-! ### The safety island (chapter 17) -/

/-- A filtered input: its filtered level, and the consecutive samples that differ from it (R480, R484). -/
structure Filtered where
  level : Bool := false
  run : Nat := 0
  deriving DecidableEq, Repr

/-- A safe input: its channels, the sample since which it is discrepant, its latched fault, the cycle since which
it is open or its ACK is held closed, and an open phase of 10 ms behind it (R484, R485). -/
structure SafeIn where
  a : Filtered := {}
  b : Filtered := {}
  disc : Option Nat := none
  fault : Bool := false
  openFrom : Option Nat := none
  opened : Bool := false
  heldFrom : Option Nat := none
  deriving DecidableEq, Repr

/-- An encoder: its count, the inputs last sampled, the count at the last rising Z edge, its fault, and the
counts of the last 100 cycles, newest first (R495, R496). -/
structure Encoder where
  count : Int := 0
  a : Bool := false
  b : Bool := false
  z : Bool := false
  atZ : Option Int := none
  fault : Bool := false
  past : List Int := []
  deriving DecidableEq, Repr

/-- An axis: torque-off, the stop's start and speed, consecutive standstill checks, and the cycle since which the
speeds differ (R488–R497). -/
structure Axis where
  off : Bool := true
  t0 : Nat := 0
  v0 : Nat := 0
  still : Nat := 0
  disc : Option Nat := none
  /-- A speed discrepancy that has become a fault. -/
  fault : Bool := false
  /-- Cycle of the last dark test. -/
  dark : Nat := 0
  deriving DecidableEq, Repr

/-- A connection and its send slot: up, the cycle of the last valid PDU, the drive's speed and STO; an outstanding
send, and a PDU refused with BUSY that is offered again (R476, R500). -/
structure Conn where
  up : Bool := false
  valid : Nat := 0
  speed : Int := 0
  sto : Bool := false
  pending : Bool := false
  result : Nat := 0
  resend : Option (List Byte) := none
  sent : Nat := 0
  /-- Sample at which the PDU was last offered (R476). -/
  offered : Nat := 0
  deriving DecidableEq, Repr

/-- What the island has received and applies in its next cycle (R479). -/
inductive IslandMsg where
  | mode (code : Nat)
  | pdu (c : Nat) (valid up : Bool) (speed : Int) (sto : Bool)
  deriving DecidableEq, Repr

/-- The safety island. Its time is counted in its own cycles of 1 ms and samples of 100 µs. -/
structure Island where
  /-- Held in reset by its supply, and VDD_SAFE below 3.10 V (R502). -/
  reset : Bool := false
  low : Bool := false
  state : Nat := 0
  cycles : Nat := 0
  samples : Nat := 0
  /-- Safety MRAM, 256 KiB, and the staging buffer (R482). -/
  mram : Mem := []
  staging : Mem := []
  /-- Bytes of the selected set while a valid one is in force, and its number. -/
  set : List Byte := []
  number : Nat := 0
  seals : Store Filtered := []
  inputs : Store SafeIn := []
  encoders : Store Encoder := []
  axes : Store Axis := []
  conns : Store Conn := []
  inbox : List IslandMsg := []
  /-- Last mode named and its cycle; a mode line that showed BOOT or reset (R486). -/
  permit : Option (Nat × Nat) := none
  line : Bool := false
  /-- A connection was lost, the mode messages timed out, or the seals changed, since the last cycle. -/
  lost : Bool := false
  timeout : Bool := false
  reseal : Bool := false
  /-- Inputs that owe a guard cycle, bit by bit; an acknowledgement since the stop; a stop since the release. -/
  owed : Nat := 0
  acked : Bool := false
  executed : Bool := false
  /-- Levels driven on STO0A, STO0B, STO1A, … by bit, and the read-back. -/
  drive : Nat := 0
  readback : Nat := 0
  /-- SAFE_FAULT_N is high. -/
  faultN : Bool := false
  code : Nat := 0
  detail : Nat := 0
  ecc : Nat := 0
  /-- The doorbell block of identity 0xF8 (R472). -/
  doorbells : Word := 0
  /-- The last report of a safe stop executed has not been taken up by the supervisor (R478). -/
  report : Bool := false
  deriving DecidableEq, Repr

/-! ### Outputs and notices -/

/-- What leaves the block at its pins, ports and links, in the order it left. -/
inductive Out where
  /-- An MSI-X message of a function's vector (R458). -/
  | msix (fn vec : Nat)
  /-- A reference message: its 64-byte payload in the local window, and on the enabled Wilern ports too when `ring` is
  set (R192). -/
  | refMsg (ring : Bool) (payload : List Byte)
  /-- A slot frame of this chip, sent on the ring too when `ring` is set (R171, R173, R206). -/
  | slotFrame (slot : Nat) (ring : Bool) (beats : List AveBeat)
  /-- A message sent in the dynamic segment (R173, R179). -/
  | dynamicMsg (node : Nat) (beats : List AveBeat)
  /-- A claim in this chip's mini-slot (R178). -/
  | claimMsg (c : Claim)
  /-- A frame, claim or reference message forwarded out of a Wilern port (R206). -/
  | relayed (port : Nat) (f : RelayFrame)
  /-- A pulse output's ball takes its active or inactive level (R366). -/
  | pulse (k : Nat) (high : Bool)
  /-- A frame that leaves a port, DA to FCS (R235). -/
  | frame (port : Nat) (bytes : List Byte)
  /-- A port's transmission is cut off (R284). -/
  | cutOff (port : Nat)
  /-- A PLCA beacon (R264). -/
  | beacon (port : Nat)
  /-- A CAN frame whose sending succeeded: its object's words 1, 2 and 4–19 (R309). -/
  | canFrame (n : Nat) (words : List Word)
  /-- The acknowledgement of a frame received (R299), and an error frame (Table CAN-2). -/
  | canAck (n : Nat)
  | canErrorFrame (n : Nat)
  /-- A character that a serial line has sent (R321). -/
  | character (n : Nat) (data : Nat)
  /-- A serial line's DE ball, and its TX ball under a wake-up request. -/
  | driver (n : Nat) (de txLow : Bool)
  /-- The clock on the TX ball of an SSI line: falling edges one bit time apart, the bit time in sixteenths of a CCLK
  cycle; then it stays high (R323). -/
  | ssiClock (n falls bit16 : Nat)
  /-- What a read returns to an agent outside the engines: a register, or bytes of BAR2. -/
  | readData (who : Ident) (addr value : Nat)
  /-- Bytes shifted out on the management SPI after 0xA5 (R462). -/
  | spiData (bytes : List Byte)
  /-- The levels of the STO outputs and of SAFE_FAULT_N (R493, R501). -/
  | sto (drive : Nat) (faultN : Bool)
  deriving DecidableEq, Repr

/-- A notice to the supervisor's firmware. -/
inductive Notice where
  /-- A clock domain lost its lock or its source (R24). -/
  | clockLoss (domain : Nat)
  /-- An engine halted (R139). -/
  | engineHalt (engine : Nat)
  /-- District SRAM met an uncorrectable error (R151). -/
  | sramError (district : Nat)
  /-- STATE left INTEGRATED or REINTEGRATING (R195). -/
  | avenueIntegration
  /-- The time base: LOCKED, HOLDOVER or the active domain changed (R348, R351). -/
  | timeBase
  /-- A fatal Crossing error (R254). -/
  | crossingFatal
  /-- A supply monitor asserted: PWR_WARN (R511). -/
  | powerWarning (monitor : Nat)
  /-- MRAM met an uncorrectable error (R515). -/
  | nvError
  /-- A point's storage met an uncorrectable error (R378). -/
  | imageError (point : Nat)
  /-- A ledger met an uncorrectable error (R419). -/
  | reductionError (district : Nat)
  /-- A member was declared failed (R434). -/
  | declared (engine : Nat)
  /-- The island rang doorbell bit 0 at a change of its state (R475). -/
  | islandState (state : Nat)
  deriving DecidableEq, Repr

/-! ### Within one FCLK cycle -/

/-- A message that a send of the present cycle has queued: its channel, its sender and send slot, and the flow it
carries with that flow's context before it (R471). -/
structure SentNow where
  channel : Nat
  src : Ident
  slot : Nat
  flow : Option Nat
  ctx : Option FlowCtx
  deriving DecidableEq, Repr

/-- What the present FCLK cycle has brought so far; it is empty again when the next one starts. The rules for events
that meet in one cycle (R7, R13, R14, R64) rest on it. -/
structure Now where
  /-- Bits that hardware has set, by register (R13). -/
  sets : Store Word := []
  /-- Counters raised: the value before, and by how much, by register × 32 + lowest bit (R14). -/
  raised : Store (Option (Nat × Nat)) := []
  /-- SYS_ABSENT_HIT before the first access to an absent window, and the accesses since, oldest first (R7). -/
  absentFrom : Word := 0
  absents : List (Nat × Bool) := []
  /-- Command registers that have taken a command (R64). -/
  commands : List Nat := []
  /-- Reads of word 0 of a receive object by the holder of its lock: the lock's index and the holder (R304). -/
  objReads : List (Nat × Ident) := []
  /-- Event lines that have reached an engine's boundary: the engine and the line (R120). -/
  lines : List (Nat × Nat) := []
  /-- Engines whose SRUP has put a sample into their district's queue (R403). -/
  samplers : List Nat := []
  /-- Mailbox messages queued, channels opened, and what channels and queues that ended held (R471). -/
  sent : List SentNow := []
  opened : List (Nat × Ident) := []
  ended : List (Nat × Channel) := []
  /-- The NV command, and whether it is new, and the supervisor's rows whose start BLOCK has refused (R519). -/
  lowv : Option (NvJob × Bool) := none
  lowvRows : List SupRow := []
  deriving DecidableEq, Repr

/-! ### The whole -/

/-- A mode command that has been accepted and not finished (R62–R65). -/
structure ModeCmd where
  cmd : Nat
  tag : Nat
  who : Ident
  deriving DecidableEq, Repr

/-- A host function's read: at BAR2 or at BAR0, its offset and its bytes. -/
structure HostRead where
  who : Ident
  bar2 : Bool
  addr : Nat
  bytes : Nat
  deriving DecidableEq, Repr

/-- The block's state. -/
structure State where
  /-- Commands waiting, first in, first out. -/
  pending : List Instr := []
  /-- The part this chip is (R1); no command changes it. -/
  variant : Variant := .ixd7240
  /-- FCLK cycles since the model's start. -/
  cycle : Nat := 0
  /-- What the present cycle has brought (R7, R13, R14, R64). -/
  now : Now := {}
  /-- Free values drawn so far (log entry 6). -/
  free : Nat := 0
  /-- Registers by BAR0 offset. -/
  regs : Store Word := []
  /-- Shadow copies of open configuration transactions, by BAR0 offset (R73). -/
  shadow : Store (Option Word) := []
  /-- Leases held (R147). -/
  leases : List Lease := []
  /-- Held in reset by PORST_N low or by CORE_RESET (R512, R529). -/
  porstLow : Bool := false
  coreReset : Bool := false
  /-- Mode command in progress (R64, R65). -/
  modeCmd : Option ModeCmd := none
  /-- BOOT_SEL balls (R55). -/
  bootSel : Nat := 3
  /-- Boot window of BAR2 (R57). -/
  bootMem : Mem := []
  /-- Event lines of the synchronisers (R27), by kind × 64 + index: 0 acknowledged, 1 not, 2 + c not, with an event
  held since cycle c. -/
  syncs : Store Nat := []
  /-- Events merged at each line's source (R27). -/
  merges : Store Nat := []
  /-- Engines 0–95. -/
  engines : Store Engine := []
  /-- MSI-X table words by function × 256 + vector × 4 + word; an unlisted entry is masked (R457). -/
  msixTab : Store Word := []
  /-- MSI-X pending-bit arrays by function × 64 + vector (R457). -/
  msixPba : Store Bool := []
  /-- Districts D0–D7. -/
  districts : Store District := []
  /-- The Avenue. -/
  ave : Avenue := {}
  /-- The time base. -/
  tb : TimeBase := {}
  /-- The redundancy unit. -/
  red : Redundancy := {}
  /-- The Crossing. -/
  xing : Crossing := {}
  /-- Ports P0–P33. -/
  ports : Store Port := []
  /-- Port whose transmit ring each district's port block served last (R272). -/
  txTurn : Store Nat := []
  /-- The host buffer area (R455, R459). -/
  hostMem : Mem := []
  /-- Controllers C0–C15. -/
  cans : Store Can := []
  /-- Lines S0–S15. -/
  serials : Store Serial := []
  /-- General MRAM (R513). -/
  mram : Mem := []
  /-- Hashes of key slots 1–3 (R520). -/
  keyHash : Store Nat := []
  /-- NV command in progress (R517). -/
  nv : Option NvJob := none
  sup : SupRows := {}
  /-- Package load in progress (R331). -/
  pkg : Option PkgJob := none
  /-- The JTAG port (R525). -/
  jtag : Jtag := {}
  /-- The image controller. -/
  img : Image := {}
  /-- Reads of host functions that wait for earlier writes of theirs, oldest first (R453). -/
  hostReads : List HostRead := []
  /-- The curve store, by offset (R410). -/
  curve : Mem := []
  /-- Reduction units of D0–D7. -/
  srus : Store Sru := []
  /-- Mailbox channels 0–63. -/
  channels : Store Channel := []
  /-- The safety island. -/
  island : Island := {}
  /-- High registers latched by a read of their low register, by offset (R12). -/
  latch : Store Word := []
  /-- Cycle since which a clock domain has lost its lock or source, by its bit of SYS_CLK_STAT (R24, R50). -/
  clockLost : Store (Option Nat) := []
  /-- PCIe functions in effect since the last PERST_N or hot reset (R451). -/
  nfn : Nat := 1
  /-- Notices to the supervisor, newest first. -/
  notices : List Notice := []
  /-- Outputs, newest first. -/
  out : List Out := []
  deriving DecidableEq, Repr

/-- The machine right after reset, with no command waiting. -/
def State.reset : State := {}

/-- Why a run stops with a fault. No command of this block does: each has an effect, and one that finds
nothing to do leaves the state as it is (log entry 7). Safe: nothing is claimed of a fault. -/
inductive Fault where
  deriving DecidableEq, Repr

/-- Why a command is refused. -/
inductive Refusal where
  /-- The command has no meaning in the model yet; answered by its arm of the dispatch alone. Safe: the
  run stops. -/
  | notModelled (mnemonic : String)
  deriving DecidableEq, Repr

/-- What a command answers. -/
abbrev Answer := Host.Outcome State Fault Refusal

end Sys2Proof.Machine
end

