-- ==== Sys2Proof/Machine/Ops.lean ====
section
/-!
DEFINITION. The named operations of the model over registers, memories, leases, interrupts, events and
modes. Every meaning is written over these, and a register that the spec hard-wires is so here.
-/

namespace Sys2Proof.Machine

/-! ### Fields of a word -/

/-- Bits `lo` to `lo + width - 1` of a word, as a number. -/
def fieldGet (w : Word) (lo width : Nat) : Nat := (w.extractLsb' lo width).toNat

/-- A word with one field replaced; the value is taken modulo the field's size. -/
def fieldSet (w : Word) (lo width v : Nat) : Word :=
  (w &&& ~~~(BitVec.ofNat 32 (2 ^ width - 1) <<< lo)) ||| (BitVec.ofNat 32 (v % 2 ^ width) <<< lo)

/-- One bit as a number. -/
def bit (b : Bool) : Nat := if b then 1 else 0

/-- A number as a signed `n`-bit integer. -/
def toSigned (n x : Nat) : Int := if x % 2 ^ n < 2 ^ (n - 1) then (x % 2 ^ n : Nat) else (x % 2 ^ n : Nat) - (2 ^ n : Nat)

/-- A signed integer as an `n`-bit number. -/
def ofSigned (n : Nat) (x : Int) : Nat := (x % (2 ^ n : Nat)).toNat

/-- One more, staying at `max`. -/
def satAdd (max x k : Nat) : Nat := min max (x + k)

/-! ### Registers -/

namespace State

/-- A register's value; one that nothing has written holds its reset value. -/
def reg (s : State) (a : Nat) : Word := Store.get (regReset s.variant) s.regs a

/-- A register written. -/
def setReg (s : State) (a : Nat) (v : Word) : State :=
  { s with regs := Store.set (regReset s.variant) s.regs a v }

/-- A field's value. -/
def fld (s : State) (f : Fld) : Nat := fieldGet (s.reg f.reg) f.lo f.width

/-- A field written. -/
def setFld (s : State) (f : Fld) (v : Nat) : State :=
  s.setReg f.reg (fieldSet (s.reg f.reg) f.lo f.width v)

/-- A one-bit field. -/
def flag (s : State) (f : Fld) : Bool := s.fld f != 0

/-- Bits of a register that hardware sets in this cycle: a clear that meets them loses (R13). -/
def stampSet (s : State) (a : Nat) (w : Word) : State :=
  { s with now := { s.now with sets := Store.set (fun _ => 0) s.now.sets a (Store.get (fun _ => 0) s.now.sets a ||| w) } }

/-- Bits of a register that hardware has set in this cycle. -/
def setNow (s : State) (a : Nat) : Word := Store.get (fun _ => 0) s.now.sets a

/-- A counter is raised by `k` in this cycle from the value it holds: a read that meets it returns the value before
(R14). -/
def stampRaise (s : State) (f : Fld) (k : Nat) : State :=
  let key := f.reg * 32 + f.lo
  let r : Nat × Nat :=
    match Store.get (fun _ => none) s.now.raised key with
    | some p => (p.1, p.2 + k)
    | none => (s.fld f, k)
  { s with now := { s.now with raised := Store.set (fun _ => none) s.now.raised key (some r) } }

/-- A one-bit field written by hardware. -/
def setFlag (s : State) (f : Fld) (b : Bool) : State :=
  (s.setFld f (bit b)).stampSet f.reg (BitVec.ofNat 32 (bit b) <<< f.lo)

/-- A counter raised by `k`, staying at its greatest value. -/
def count (s : State) (f : Fld) (k : Nat := 1) : State :=
  (s.stampRaise f k).setFld f (satAdd (2 ^ f.width - 1) (s.fld f) k)

/-- A counter raised by `k`, wrapping. -/
def countWrap (s : State) (f : Fld) (k : Nat := 1) : State := s.setFld f (s.fld f + k)

/-- A counter that is a whole register, wrapping (the 32-bit counters). -/
def countReg (s : State) (a : Nat) (k : Nat := 1) : State := s.setReg a (s.reg a + BitVec.ofNat 32 k)

/-- A free value, and the state that has drawn it (log entry 6). -/
def drawn (s : State) : Nat := Config.freeValue s.free

/-- The state after one draw. -/
def draw (s : State) : State := { s with free := s.free + 1 }

/-- An output added. -/
def emit (s : State) (o : Out) : State := { s with out := o :: s.out }

/-- The device is held in reset (R512, R529). -/
def inReset (s : State) : Bool := s.porstLow || s.coreReset

/-- A notice to the supervisor added. -/
def notify (s : State) (n : Notice) : State := { s with notices := n :: s.notices }

/-- The command register at an offset has taken a command in this cycle. -/
def took (s : State) (a : Nat) : Bool := s.now.commands.contains a

/-- The command register at an offset executes one command at a time: one written while it is busy, or in the cycle
that has brought it another, is not executed and sets LOST (R64; the order within a cycle is that of log entry 1). -/
def oneAtATime (s : State) (a : Nat) (busy : Bool) (lost : Fld) (f : State → State) : State :=
  if busy || s.took a then s.setFlag lost true
  else f { s with now := { s.now with commands := a :: s.now.commands } }

/-! ### When a command acts -/

/-- What a command does while the device is out of reset; in reset its units stand still (R52). -/
def live (s : State) (f : State → State) : State := if s.inReset then s else f s

/-- The clock of a domain is lost, by the domain's bit of SYS_CLK_STAT (R24). -/
def clockGone (s : State) (k : Nat) : Bool := (Store.get (fun _ => none) s.clockLost k).isSome

/-- What a command does in a domain that has its clock. -/
def clocked (s : State) (k : Nat) (f : State → State) : State :=
  s.live fun s => if s.clockGone k then s else f s

/-- A transfer through a queue into or out of a domain: while the clock is lost it is discarded and counted (R24). -/
def through (s : State) (k : Nat) (f : State → State) : State :=
  if s.clockGone k then s.count Fld.SYS_CLK_STAT_DISCARD_CNT else f s

/-- What is offered to such a queue from outside. -/
def offered (s : State) (k : Nat) (f : State → State) : State := s.live fun s => s.through k f

/-! ### Event lines between domains (R27) -/

/-- State of an event line. -/
def syncLine (s : State) (l : Nat) : Nat := Store.get (fun _ => 0) s.syncs l

/-- State of an event line written. -/
def setSyncLine (s : State) (l v : Nat) : State := { s with syncs := Store.set (fun _ => 0) s.syncs l v }

/-- An event is raised on a line: it crosses; behind an unacknowledged one it is held; behind a held one it merges. -/
def raiseLine (s : State) (l : Nat) (cross : State → State) : State :=
  if s.syncLine l = 0 then cross (s.setSyncLine l 1)
  else if s.syncLine l = 1 then s.setSyncLine l (2 + s.cycle)
  else { s with merges := Store.set (fun _ => 0) s.merges l (Store.get (fun _ => 0) s.merges l + 1) }

/-- Quarter nanoseconds since a held event was raised: its stamp is that of its raising. -/
def heldFor (s : State) (l : Nat) : Nat := 5 * (s.cycle - (s.syncLine l - 2))

/-! ### Identities (R35) -/

/-- This chip's number (R34, AVE_ID.CHIP). -/
def chip (s : State) : Nat := s.fld Fld.AVE_ID_CHIP

/-- The identity of a source of this chip. -/
def ident (s : State) (src : Nat) : Ident := BitVec.ofNat 16 (s.chip * 8192 + src)

end State

/-- Source byte of an identity (Table ARCH-7). -/
def Ident.src (i : Ident) : Nat := i.toNat % 256

/-- Chip of an identity. -/
def Ident.chip (i : Ident) : Nat := i.toNat / 8192

/-- A host function 0–7. -/
def Ident.isHost (i : Ident) : Bool := decide (Ident.src i < 8)

/-- An engine. -/
def Ident.isEngine (i : Ident) : Bool := decide (0x10 ≤ Ident.src i ∧ Ident.src i < 0x70)

/-- The engine's number. -/
def Ident.engine (i : Ident) : Nat := Ident.src i - 0x10

/-- The supervisor's firmware. -/
def Ident.isSup (i : Ident) : Bool := Ident.src i == 0xF0

/-- The identity is one of Table ARCH-7: bits 12–8 are 0 and its source is listed. -/
def Ident.listed (i : Ident) : Bool :=
  i.toNat / 256 % 32 == 0 &&
    (Ident.isHost i || Ident.isEngine i || decide (0xD0 ≤ Ident.src i ∧ Ident.src i < 0xD8) || Ident.src i == 0xE0 ||
      Ident.src i == 0xE1 || Ident.src i == 0xF0 || Ident.src i == 0xF1 || Ident.src i == 0xF8)

/-- The safety island. -/
def Ident.isIsland (i : Ident) : Bool := Ident.src i == 0xF8

/-! ### Result codes (Table SCOPE-9) -/

namespace Code
def ok : Nat := 0x0000
def pending : Nat := 0x0001
def busy : Nat := 0x0002
def badArg : Nat := 0x0003
def absent : Nat := 0x0004
def wrongState : Nat := 0x0005
def conflict : Nat := 0x0006
def noResource : Nat := 0x0007
def revoked : Nat := 0x0008
def nvLowv : Nat := 0x0009
def authFail : Nat := 0x000A
def stale : Nat := 0x000B
def internal : Nat := 0x00FF
end Code

/-- Rank of a failing condition in the order of R18. -/
def Code.rank (c : Nat) : Nat :=
  if c = Code.absent then 1 else if c = Code.authFail then 2 else if c = Code.badArg then 3
  else if c = Code.wrongState then 4 else if c = Code.stale then 5 else if c = Code.nvLowv then 6
  else if c = Code.busy then 7 else if c = Code.noResource then 8 else if c = Code.conflict then 9
  else if c = Code.revoked then 10 else if c = Code.internal then 11 else 0

/-- The first condition that holds, of a list written in the order of R18; OK when none does. -/
def firstCode : List (Bool × Nat) → Nat
  | [] => Code.ok
  | (b, c) :: rest => if b then c else firstCode rest

namespace State

/-- A WRONG_STATE counted with its requester (R66). -/
def wrongState (s : State) (who : Ident) : State :=
  ((s.count Fld.SYS_WRONG_STATE_CNT_COUNT).setFld Fld.SYS_WRONG_STATE_CNT_LAST_SRC (Ident.src who)).setFld
    Fld.SYS_WRONG_STATE_CNT_LAST_CHIP (Ident.chip who)

/-- A refusal with a code: only WRONG_STATE leaves a count (R19, R66). -/
def countCode (s : State) (who : Ident) (c : Nat) : State :=
  if c = Code.wrongState then s.wrongState who else s

/-! ### Absent windows (R5–R7) -/

/-- What an access to an absent unit's window makes of SYS_ABSENT_HIT (R6). -/
def absentCapture (s : State) (a : Nat) (write : Bool) : State :=
  if s.flag Fld.SYS_ABSENT_HIT_VALID then s.setFlag Fld.SYS_ABSENT_HIT_MULTI true
  else
    ((s.setFld Fld.SYS_ABSENT_HIT_OFFSET a).setFlag Fld.SYS_ABSENT_HIT_WRITE write).setFlag Fld.SYS_ABSENT_HIT_VALID true

/-- An access to an absent unit's window is recorded, and kept for a clear that meets it in this cycle (R7). -/
def absentHit (s : State) (a : Nat) (write : Bool) : State :=
  let from' := if s.now.absents.isEmpty then s.reg Reg.SYS_ABSENT_HIT else s.now.absentFrom
  { s with now := { s.now with absentFrom := from', absents := s.now.absents ++ [(a, write)] } }.absentCapture a write

/-- A write to SYS_ABSENT_HIT: the clear comes before the accesses of its cycle, which are captured anew (R7). -/
def clearAbsent (s : State) (v : Word) : State :=
  let clears := v &&& 0x88000000
  if s.now.absents.isEmpty then s.setReg Reg.SYS_ABSENT_HIT (s.reg Reg.SYS_ABSENT_HIT &&& ~~~clears)
  else if !v.getLsbD 31 then
    -- MULTI alone is cleared: a setting of this cycle wins (R13)
    s.setReg Reg.SYS_ABSENT_HIT (s.reg Reg.SYS_ABSENT_HIT &&& ~~~(clears &&& ~~~s.setNow Reg.SYS_ABSENT_HIT))
  else
    let w := s.now.absentFrom &&& ~~~clears
    let s := { s with now := { s.now with absentFrom := w } }.setReg Reg.SYS_ABSENT_HIT w
    s.now.absents.foldl (fun s p => s.absentCapture p.1 p.2) s

/-! ### Modes (R42) -/

/-- The current mode. -/
def mode (s : State) : Nat := s.fld Fld.SYS_MODE_MODE

/-- A transition: PREV_MODE, TRANS_CNT and the mode; FORCED tells of the last transition only (Table MODE-2). -/
def setMode (s : State) (m : Nat) : State :=
  ((((s.setFld Fld.SYS_MODE_PREV_MODE s.mode).setFld Fld.SYS_MODE_MODE m).countWrap
    Fld.SYS_MODE_TRANS_CNT).setFlag Fld.SYS_MODE_FORCED false).setFld Fld.SYS_MODE_FORCE_CAUSE 0

end State

namespace Mode
def boot : Nat := 0
def load : Nat := 1
def commission : Nat := 2
def run : Nat := 3
def degraded : Nat := 4
def safeHold : Nat := 5
end Mode

namespace State

/-! ### Leases (R147) -/

/-- The lease of a resource, if it is held. -/
def leaseOf (s : State) (type district index : Nat) : Option Lease :=
  s.leases.find? fun l => l.type == type && l.district == district && l.index == index

/-- A lease taken. -/
def addLease (s : State) (l : Lease) : State := { s with leases := l :: s.leases }

/-- The lease of a resource released. -/
def dropLease (s : State) (type district index : Nat) : State :=
  { s with leases := s.leases.filter fun l => !(l.type == type && l.district == district && l.index == index) }

end State

/-- A lease's handle (R147). -/
def Lease.handle (l : Lease) : Nat := l.type * 0x10000000 + l.district * 0x1000000 + l.index

/-! ### Engines -/

/-- An engine none of whose state has changed. -/
def engineDflt (_ : Nat) : Engine := {}

namespace State

/-- Engine `e`. -/
def eng (s : State) (e : Nat) : Engine := Store.get engineDflt s.engines e

/-- Engine `e` replaced. -/
def setEng (s : State) (e : Nat) (x : Engine) : State :=
  { s with engines := Store.set engineDflt s.engines e x }

/-- Engine `e` is present (R32). -/
def hasEngine (s : State) (e : Nat) : Bool := decide (e < s.variant.engines)

/-- CE_STAT.STATE of an engine: 0 RESET, 1 RUN, 2 CANDLE, 3 HALTED. -/
def engState (s : State) (e : Nat) : Nat := s.fld (Fld.CE_STAT_STATE e)

/-- The engine's level (R114). -/
def level (s : State) (e : Nat) : Nat := s.fld (Fld.CE_STAT_LEVEL e)

/-- An event line reaches the engine boundary (R120). -/
def lineArrives (s : State) (e n : Nat) : State :=
  if s.engState e = 0 then s
  else
    let s : State := { s with now := { s.now with lines := (e, n) :: s.now.lines } }
    let x := s.eng e
    if x.evtPend.getLsbD n then
      (s.count (Fld.CE_EVT_OVR_COUNT e)).setFld (Fld.CE_EVT_OVR_LAST_LINE e) n
    else
      s.setEng e { x with
        evtPend := x.evtPend ||| (1#32 <<< n)
        arrival := Store.set (fun _ => 0) x.arrival n s.cycle }

/-- Port `n` is bound to district `d` (R156). -/
def boundPort (s : State) (d n : Nat) : Bool :=
  s.variant.hasPort n &&
    (if n < 32 then (s.reg (Reg.RND_BIND_ETH0 d)).getLsbD n else (s.reg (Reg.RND_BIND_ETH1 d)).getLsbD (n - 32))

/-- CAN controller `n` is bound to district `d` (R156). -/
def boundCan (s : State) (d n : Nat) : Bool :=
  s.variant.hasCan n && (s.reg (Reg.RND_BIND_CS d)).getLsbD n

/-- Serial line `n` is bound to district `d` (R156). -/
def boundSer (s : State) (d n : Nat) : Bool :=
  s.variant.hasSer n && (s.reg (Reg.RND_BIND_CS d)).getLsbD (16 + n)

/-- The district a unit is bound to, if any. -/
def districtOf (s : State) (bound : State → Nat → Nat → Bool) (n : Nat) : Option Nat :=
  (List.range s.variant.districts).find? fun d => bound s d n

/-- A source of a kind that belongs to a port, a controller or a line is heard only where it is bound (R119). -/
def heardIn (s : State) (kind index d : Nat) : Bool :=
  if 1 ≤ kind ∧ kind ≤ 6 then s.boundPort d index
  else if 8 ≤ kind ∧ kind ≤ 0x0B then s.boundCan d index
  else if 0x0C ≤ kind ∧ kind ≤ 0x0D then s.boundSer d index
  else true

end State

/-- The engine and line whose CE_EVT_SEL lies at an offset. -/
def evtSelAt (a : Nat) : Option (Nat × Nat) :=
  if 0x1010000 ≤ a ∧ a < 0x1800000 then
    let d := (a - 0x1000000) / 0x100000
    let o := (a - 0x1000000) % 0x100000
    if 0x10000 ≤ o ∧ o < 0x1C000 ∧ 0x200 ≤ o % 0x1000 ∧ o % 0x1000 < 0x280 then
      some (d * 12 + (o - 0x10000) / 0x1000, (o % 0x1000 - 0x200) / 4)
    else none
  else none

namespace State

/-- The lines that select a source, of the engines that `pick` names. -/
def selectors (s : State) (kind index : Nat) (pick : Nat → Bool) : List (Nat × Nat) :=
  s.regs.filterMap fun p =>
    match evtSelAt p.1 with
    | some (e, n) =>
      if p.2.toNat = kind + 256 * index ∧ s.hasEngine e ∧ pick e ∧ s.heardIn kind index (e / 12) then some (e, n)
      else none
    | none => none

/-- A source fires: every line that selects it, in the engines named, is set (R118). No line selects a
source in its reset state, so the lines are those of listed registers. -/
def fireIn (s : State) (kind index : Nat) (pick : Nat → Bool) : State :=
  (s.selectors kind index pick).foldl (fun s p => s.lineArrives p.1 p.2) s

/-- A source fires in every district that hears it. -/
def fire (s : State) (kind index : Nat) : State := s.fireIn kind index fun _ => true

/-- A source of district `d` fires. -/
def fireDistrict (s : State) (kind index d : Nat) : State := s.fireIn kind index fun e => e / 12 == d

/-- A source that concerns one engine fires. -/
def fireEngine (s : State) (kind index e : Nat) : State := s.fireIn kind index fun x => x == e

/-! ### Interrupts (R457, R458) -/

/-- A word of the MSI-X table; entries are masked until their table is written (log entry 8). -/
def msixWord (s : State) (k : Nat) : Word :=
  Store.get (fun k => if k % 4 = 3 then 1 else 0) s.msixTab k

/-- The MSI-X entry of a function is signalled: a masked one is left pending. -/
def signalMsix (s : State) (fn vec : Nat) : State :=
  if (s.msixWord (fn * 256 + vec * 4 + 3)).getLsbD 0 then
    { s with msixPba := Store.set (fun _ => false) s.msixPba (fn * 64 + vec) true }
  else s.emit (.msix fn vec)

/-- The register and bit of an interrupt source. -/
def irqReg (src : Nat) : Nat := if src < 32 then Reg.MBX_IRQ_PEND0 else Reg.MBX_IRQ_PEND1

/-- The function a source is routed to: a doorbell always goes to its own (R458). -/
def irqFn (s : State) (src : Nat) : Nat :=
  if 8 ≤ src ∧ src < 16 then src - 8 else s.fld (Fld.MBX_IRQ_ROUTE_FN src)

/-- A source event: the pending bit is set, and its first setting is signalled when the route is enabled. -/
def raiseIrq (s : State) (src : Nat) : State :=
  let a := irqReg src
  let s := s.stampSet a (1#32 <<< (src % 32))
  if (s.reg a).getLsbD (src % 32) then s
  else
    let s1 := s.setReg a (s.reg a ||| (1#32 <<< (src % 32)))
    if s.flag (Fld.MBX_IRQ_ROUTE_EN src) then
      let fn := s.irqFn src
      if fn = 7 ∨ s.nfn ≤ fn then s1
      else s1.signalMsix fn (s.fld (Fld.MBX_IRQ_ROUTE_VEC src))
    else s1

/-! ### Writes from outside (R24, R56) -/

/-- What a PCIe function sends crosses HCLK (R20, R24); the management SPI, function 7, does not. -/
def overHclk (s : State) (who : Ident) (f : State → State) : State :=
  if Ident.isHost who && decide (Ident.src who < 7) then s.through 2 f else f s

/-- What a write to a window does: in BOOT the host reaches the SYS and the PWR and NV windows only. -/
def served (s : State) (who : Ident) (f : State → State) : State :=
  s.live fun s => s.overHclk who fun s => if Ident.isHost who && s.mode == Mode.boot then s else f s

end State

/-- The state a meaning goes on to. -/
def after : Answer → State → State
  | .next t, _ => t
  | _, s => s

end Sys2Proof.Machine
end

