-- ==== Sys2Proof/Machine/Engine.lean ====
section
/-!
DEFINITION. An engine's control: its registers, the entry stack, taking an exception or an event (R112–R141)
and the return from one, halting, and what it is for an instruction to issue.
-/

namespace Sys2Proof.Machine

namespace State

/-! ### Registers of an engine (R77, R78) -/

/-- A general register; g0 reads 0. -/
def greg (s : State) (e : Nat) (r : GReg) : Word :=
  if r = 0 then 0 else Store.get (fun _ => 0) (s.eng e).g r.val

/-- A general register written; a write to g0 is discarded. -/
def setGreg (s : State) (e : Nat) (r : GReg) (v : Word) : State :=
  if r = 0 then s else s.setEng e { s.eng e with g := Store.set (fun _ => 0) (s.eng e).g r.val v }

/-- An operand as a number: a register, or under WIDE the pair that an even register names. Pair 0 reads 0. -/
def rd (s : State) (e : Nat) (wide : Bool) (r : GReg) : Nat :=
  if wide then
    if r = 0 then 0 else (s.greg e r).toNat + 2 ^ 32 * (s.greg e (r + 1)).toNat
  else (s.greg e r).toNat

/-- A result written modulo 2^32, or under WIDE modulo 2^64 to a pair. A write to pair 0 is discarded. -/
def wr (s : State) (e : Nat) (wide : Bool) (r : GReg) (v : Nat) : State :=
  if wide then
    if r = 0 then s
    else (s.setGreg e r (BitVec.ofNat 32 v)).setGreg e (r + 1) (BitVec.ofNat 32 (v / 2 ^ 32))
  else s.setGreg e r (BitVec.ofNat 32 v)

/-- The program counter. -/
def pc (s : State) (e : Nat) : Word := (s.eng e).pc

/-- The program counter written; what the last RETE left is used up. -/
def goto (s : State) (e : Nat) (a : Word) : State :=
  s.setEng e { s.eng e with pc := a, returned := none, midRep := false }

/-- The next instruction follows. -/
def advance (s : State) (e len : Nat) : State := s.goto e (s.pc e + BitVec.ofNat 32 len)

/-! ### Which entry is due (R121, R136) -/

/-- Vector of the innermost record; 0 with an empty stack. -/
def innermost (s : State) (e : Nat) : Nat :=
  match (s.eng e).stack with
  | [] => 0
  | r :: _ => r.vector

/-- An event line is eligible (R121); at levels 62 and 63 no line interrupts (Table EVT-1). -/
def eligible (s : State) (e n : Nat) : Bool :=
  let x := s.eng e
  x.evtPend.getLsbD n && !x.evtMask.getLsbD n && decide (n < s.level e ∧ s.level e ≤ 32) &&
    decide (x.stack.length < 8)

/-- The lowest eligible line. -/
def eligibleLine (s : State) (e : Nat) : Option Nat := (List.range 32).find? fun n => s.eligible e n

/-- A pending LEASE is entered unless a LEASE or WATCH handler runs (Table EVT-1). -/
def leaseDue (s : State) (e : Nat) : Bool := (s.eng e).leasePending && decide (s.level e ≤ 32)

/-- The engine is in RUN or CANDLE state, where entries are taken (R121, R141). -/
def awake (s : State) (e : Nat) : Bool := s.engState e == 1 || s.engState e == 2

/-- An asynchronous entry is due (R122). -/
def entryDue (s : State) (e : Nat) : Bool :=
  s.awake e &&
    ((s.eng e).watchPending || s.leaseDue e || !(s.eng e).refused.isEmpty || (s.eligibleLine e).isSome)

/-- An instruction of engine `e` may issue: the engine is present and in RUN state, no asynchronous entry
is due (R122) and no LEASE or patch-window load of it is under way. -/
def ready (s : State) (e : Nat) : Bool :=
  s.hasEngine e && s.engState e == 1 && !s.entryDue e && (s.eng e).leaseWait.isNone &&
    (s.eng e).loadWait.isNone

/-! ### Halting (R139) -/

/-- The accesses held whose results have not arrived: those of this chip, or the remote ones. -/
def awaited (remote : Bool) (held : List Held) : List Access :=
  held.filterMap fun h => if h.result.isNone && h.remote == remote then some h.access else none

/-- What an engine holds for the instruction it has returned to and for its entry stack. -/
def allHeld (x : Engine) : List Held :=
  (match x.returned with | some r => r.held | none => []) ++ x.stack.flatMap (·.held)

/-- Accesses sent, on this chip, whose results have not arrived: the returned instruction's and the stack's. -/
def outstandingHeld (x : Engine) : List Access := awaited false (allHeld x)

/-- The remote request that the engine's own instruction waits for. -/
def waitedFor (x : Engine) : List Access :=
  (match x.leaseWait with
   | some w => [if w.release then .release w.handle else .lease w.handle]
   | none => []) ++
  match x.loadWait with
  | some w => if w.space = .image then [.load .image w.addr w.bytes] else []
  | none => []

/-- From now on the results of what the engine has sent are discarded when they arrive (R139, R146). -/
def discardSent (x : Engine) : Engine :=
  { x with
    orphans := x.orphans ++ outstandingHeld x
    dropped := x.dropped ++ awaited true (allHeld x) ++ waitedFor x }

/-- The engine halts with a cause: entry stack and held results stay as they are, and no result is written any
more (R139). -/
def halt (s : State) (e cause : Nat) : State :=
  (((s.setEng e (discardSent (s.eng e))).setFld (Fld.CE_STAT_STATE e) 3).setFld
    (Fld.CE_STAT_HALT_CAUSE e) cause).notify (.engineHalt e)

/-! ### Entering a handler (R116, R122, R134) -/

/-- The entry: a record is pushed, the level is set where the entry sets one, and the handler's slot follows. -/
def enter (s : State) (e : Nat) (r : Record) (level : Option Nat) : State :=
  let s1 := s.setEng e { s.eng e with
    stack := { r with g13 := s.greg e 13, level := s.level e } :: (s.eng e).stack
    pc := BitVec.ofNat 32 (r.vector * 0x10)
    returned := none
    midRep := false }
  let s2 := s1.setFld (Fld.CE_STAT_STATE e) 1
  match level with
  | some l => s2.setFld (Fld.CE_STAT_LEVEL e) l
  | none => s2

/-- An exception is raised: the engine halts in the cases of R139, and otherwise enters its handler. -/
def raiseEntry (s : State) (e : Nat) (r : Record) (level : Option Nat) (haltsIn : Nat → Bool) : State :=
  if haltsIn (s.innermost e) then s.halt e 1
  else if 8 ≤ (s.eng e).stack.length then s.halt e 2
  else s.enter e r level

/-- A record without an abandoned instruction. -/
def plainRecord (vector : Nat) (cause : Nat) (retPC : Word) : Record :=
  { vector := vector, retPC := retPC, cause := BitVec.ofNat 32 cause, g13 := 0, level := 0,
    abandoned := false, yield := false, held := [] }

/-- A synchronous exception: ABSENT, ACCESS, ALIGN and STACK also write CE_FAULT_ADDR (R138). -/
def exception (s : State) (e vector cause : Nat) (retPC : Word) : State :=
  s.raiseEntry e (plainRecord vector cause retPC) none fun v => decide (1 ≤ v ∧ v ≤ 6)

/-- The address register of a fault is written (R138). -/
def faultAddr (s : State) (e addr : Nat) : State :=
  s.setReg (Reg.CE_FAULT_ADDR e) (BitVec.ofNat 32 addr)

end State

/-- Code of a space in EXC_CAUSE (Table EVT-8). -/
def spaceCode : Space → Nat
  | .engineLocal => 0 | .district => 1 | .image => 2 | .port => 3

/-- Code of an element size in EXC_CAUSE (Table EVT-8). -/
def elemCode (bytes : Nat) : Nat :=
  if bytes = 1 then 0 else if bytes = 2 then 1 else if bytes = 4 then 2 else 3

/-- The fields of EXC_CAUSE for vectors 0x02–0x05 (Table EVT-8). -/
structure FaultInfo where
  space : Space
  write : Bool
  noMem : Bool
  fetch : Bool
  posted : Bool
  bytes : Nat
  deriving DecidableEq, Repr

/-- EXC_CAUSE of an access that failed. -/
def FaultInfo.cause (f : FaultInfo) (vector : Nat) : Nat :=
  vector + 0x100 * spaceCode f.space + 0x400 * bit f.write + 0x800 * bit f.noMem + 0x1000 * bit f.fetch +
    0x2000 * (if f.noMem || f.fetch then 0 else elemCode f.bytes) + 0x10000 * bit f.posted

/-- The vectors of Table EVT-7. -/
inductive Exc where
  | illegal | absent | access | align | stack | watch | brk | lease
  deriving DecidableEq, Repr

/-- Vector number. -/
def Exc.vector : Exc → Nat
  | .illegal => 1 | .absent => 2 | .access => 3 | .align => 4 | .stack => 5 | .watch => 6 | .brk => 7 | .lease => 8

namespace State

/-- A failing access raises its exception; it returns to the faulting instruction (R135). -/
def accessFault (s : State) (e : Nat) (x : Exc) (f : FaultInfo) (addr : Nat) : State :=
  let s1 := s.exception e x.vector (f.cause x.vector) (s.pc e)
  if s1.engState e = 3 then s1 else s1.faultAddr e addr

/-- A fault of an instruction without a memory operand (Table EVT-8, NOMEM). -/
def noMemFault (s : State) (e : Nat) (x : Exc) (target : Nat) : State :=
  s.accessFault e x
    { space := .engineLocal, write := false, noMem := true, fetch := false, posted := false, bytes := 4 } target

/-- ILLEGAL with its reason and byte (R110). -/
def illegal (s : State) (e reason byte : Nat) : State :=
  s.exception e 1 (1 + 0x100 * reason + 0x10000 * byte) (s.pc e)

/-! ### Asynchronous entries (R122–R128) -/

/-- Bits ABANDONED, HELD, YIELD and CHAINED of an event entry (Table EVT-6). -/
def eventBits (abandoned held yield chained : Bool) : Nat :=
  0x100 * bit abandoned + 0x200 * bit held + 0x400 * bit yield + 0x800 * bit chained

/-- An abandoned instruction with the accesses it had sent. -/
def abandonedWith (yield : Bool) (held : List Held) : Returned :=
  { abandoned := true, yield := yield, held := held, heldBit := !held.isEmpty }

/-- What an entry finds at the return address: an instruction that waits for the result the last RETE left, a
LEASE or a load under way, a repeated string instruction between elements, or the instruction that the command
says it abandons; else nothing. -/
def foundAt (s : State) (e : Nat) (ab : Option Returned) : Returned :=
  let x := s.eng e
  match x.returned with
  | some ⟨_, y, h :: hs, _⟩ => abandonedWith y (h :: hs)
  | _ =>
    match x.leaseWait, x.loadWait with
    | some w, _ =>
      abandonedWith false [{ access := if w.release then .release w.handle else .lease w.handle, result := none, remote := true }]
    | none, some w =>
      abandonedWith false [{ access := .load w.space w.addr w.bytes, result := none, remote := w.space == .image }]
    | none, none =>
      match ab with
      | some r => if s.engState e = 1 then { r with yield := r.yield || x.midRep } else { abandoned := false, yield := false, held := [] }
      | none => { abandoned := x.midRep, yield := x.midRep, held := [] }

/-- The record of an asynchronous entry. -/
def asyncRecord (s : State) (e vector cause : Nat) (f : Returned) : Record :=
  { vector := vector, retPC := s.pc e, cause := BitVec.ofNat 32 cause, g13 := 0, level := 0,
    abandoned := f.abandoned, yield := f.yield, held := f.held, heldBit := f.heldBit }

/-- The LEASE or load under way is given over to the record that holds its result. -/
def clearWait (s : State) (e : Nat) : State := s.setEng e { s.eng e with leaseWait := none, loadWait := none }

/-- The entry that is due is taken: WATCH, then LEASE, then an ACCESS for a refused posted store, then the
lowest eligible line (R122, R136). The WATCH entry reloads the watchdog (R143). `f` is what it finds at the return
address. -/
def takeEntry (s0 : State) (e : Nat) (f : Returned) (chained : Bool) : State :=
  let s := s0.clearWait e
  let x := s.eng e
  if x.watchPending then
    (s.setEng e { x with watchPending := false
                         wdCount := s.fld (Fld.CE_WDOG_PERIOD e) * 256
                         wdArmed := true }).raiseEntry e
      (s.asyncRecord e 6 (6 + 0x100 * bit f.abandoned) f) (some 63) fun v => v == 6
  else if s.leaseDue e then
    (s.setEng e { x with leasePending := false }).raiseEntry e
      (s.asyncRecord e 8
        (8 + 0x100 * bit f.abandoned + 0x10000 * s.fld (Fld.CE_LEASE_STAT_COUNT e)) f)
      (some 62) fun _ => false
  else
    match x.refused with
    | r :: rest =>
      let s1 := (s.setEng e { x with refused := rest }).raiseEntry e
        (s.asyncRecord e 3
          ((FaultInfo.mk r.space true false false true r.bytes).cause 3) f) none
        fun v => decide (1 ≤ v ∧ v ≤ 6)
      if s1.engState e = 3 then s1 else s1.faultAddr e r.addr
    | [] =>
      match s.eligibleLine e with
      | some n =>
        let delay := min 0xFFFF (s.cycle - Store.get (fun _ => 0) x.arrival n)
        (s.setEng e { x with
            evtPend := x.evtPend &&& ~~~(1#32 <<< n)
            arrival := Store.erase x.arrival n }).enter e
          (s.asyncRecord e (0x10 + n)
            (0x10 + n + eventBits f.abandoned f.heldBit f.yield chained + 0x10000 * delay) f)
          (some n)
      | none => s0

/-! ### Returning (R129) -/

/-- The innermost record is popped; a LEASE handler that returns with reclaims uncounted makes LEASE pending
again (R149). -/
def popRecord (s : State) (e : Nat) : State :=
  match (s.eng e).stack with
  | [] => s
  | r :: rest =>
    let s1 := s.setEng e { s.eng e with
      stack := rest
      pc := r.retPC
      returned := some { abandoned := r.abandoned, yield := r.yield, held := r.held, heldBit := r.heldBit }
      leasePending := (s.eng e).leasePending ||
        (r.vector == 8 && s.fld (Fld.CE_LEASE_STAT_COUNT e) != 0) }
    (s1.setGreg e 13 r.g13).setFld (Fld.CE_STAT_LEVEL e) r.level

/-! ### Run control (R146) -/

/-- RUN 0 to 1: the engine starts at vector 0x00 in its initial state. -/
def startEngine (s : State) (e : Nat) : State :=
  let x := s.eng e
  let s1 := s.setEng e { x with
    g := [], pc := 0, evtPend := 0, evtMask := 0xFFFFFFFF, leaseId := 0, arrival := [], stack := []
    returned := none, refused := [], watchPending := false, leasePending := false, leaseWait := none
    loadWait := none, wdExpired := false, midRep := false }
  ((s1.setFld (Fld.CE_STAT_STATE e) 1).setFld (Fld.CE_STAT_LEVEL e) 32).setFld (Fld.CE_STAT_HALT_CAUSE e) 0

/-- RUN 1 to 0: issue stops and the entry stack, EVT_PEND and the watchdog count are cleared. Posted stores and
accesses already sent stay to complete, and the leases are reclaimed by the supervisor. -/
def stopEngine (s : State) (e : Nat) : State :=
  let x := if s.engState e = 3 then s.eng e else discardSent (s.eng e)
  let s1 := s.setEng e { x with
    evtPend := 0, arrival := [], stack := [], returned := none, refused := [], watchPending := false
    leasePending := false, leaseWait := none, loadWait := none, wdCount := 0, wdExpired := false
    wdArmed := false, midRep := false }
  (s1.setFld (Fld.CE_STAT_STATE e) 0).setFld (Fld.CE_STAT_LEVEL e) 32

/-- A lease held by an engine is reclaimed: CE_LEASE_LOST and CE_LEASE_STAT record it, and an engine that
runs gets a LEASE entry (R149). While a LEASE handler runs, none is added until its RETE. -/
def recordReclaim (s : State) (e handle : Nat) : State :=
  let s1 := if s.fld (Fld.CE_LEASE_STAT_COUNT e) = 0 then s.setReg (Reg.CE_LEASE_LOST e) (BitVec.ofNat 32 handle) else s
  let s2 := s1.count (Fld.CE_LEASE_STAT_COUNT e)
  if s2.awake e && !((s2.eng e).stack.any fun r => r.vector == 8) then
    s2.setEng e { s2.eng e with leasePending := true }
  else s2

/-! ### Stores the register map refuses (R535) -/

/-- A store of an engine of this chip to offset `a` of the register aperture is refused: an ACCESS entry is
due. A refused write of anyone else is ignored. -/
def refuseStore (s : State) (who : Ident) (a : Nat) : State :=
  if Ident.isEngine who ∧ Ident.chip who = s.chip then
    let e := Ident.engine who
    s.setEng e { s.eng e with
      refused := (s.eng e).refused ++ [{ space := .district, addr := 0x40000000 + a, bytes := 4 }] }
  else s

/-! ### Watchdog (R143) -/

/-- The count is reloaded by a kick. -/
def kickWatchdog (s : State) (e period : Nat) : State :=
  s.setEng e { s.eng e with wdCount := period * 256, wdExpired := false, wdArmed := true }

end State

end Sys2Proof.Machine
end

