-- ==== Sys2Proof/Machine/Operands.lean ====
section
/-!
DEFINITION. The operand forms of the engine instructions: sizes, immediates, displacements, the length of
an encoding (Table ISA-3), the rule on pairs under WIDE (R78, reason PAIR) and what it is to issue.
-/

namespace Sys2Proof.Machine

/-- Bytes of an element (R93). -/
def sizeBytes : Size → Nat
  | .word => 4 | .half => 2 | .byte => 1 | .wide => 8

/-- A size prefix takes a byte, and the default size has none. -/
def sizePrefix : Size → Nat
  | .word => 0 | _ => 1

/-- A space prefix takes a byte when it is present. -/
def spacePrefix (sp : Option Space) : Nat := bit sp.isSome

/-- The space of a memory operand: LOCAL without a prefix. -/
def spaceOf (sp : Option Space) : Space := sp.getD .engineLocal

/-- Operation width N (Table ISA-6). -/
def opBits (wide : Bool) : Nat := if wide then 64 else 32

/-- A signed immediate extended to N bits: zero-extended under EXT (R85). -/
def immValue (n : Nat) : Imm → Nat
  | .i8 v ext => if ext then v.toNat else ofSigned n v.toInt
  | .i16 v ext => if ext then v.toNat else ofSigned n v.toInt
  | .i32 v => ofSigned n v.toInt

/-- Bytes of an IM8, IM16 or IM32 instruction with its EXT prefix. -/
def immLen : Imm → Nat
  | .i8 _ ext => 3 + bit ext
  | .i16 _ ext => 4 + bit ext
  | .i32 _ => 6

/-- Prefix bytes of an immediate: EXT. -/
def immPrefix : Imm → Nat
  | .i8 _ ext => bit ext
  | .i16 _ ext => bit ext
  | .i32 _ => 0

/-- A displacement, sign-extended (R84). -/
def dispValue : Disp → Int
  | .d0 => 0 | .d8 v => v.toInt | .d16 v => v.toInt | .d32 v => v.toInt

/-- Bytes of a MEM0, MEM8, MEM16 or MEM32 instruction without prefixes. -/
def dispLen : Disp → Nat
  | .d0 => 2 | .d8 _ => 3 | .d16 _ => 4 | .d32 _ => 6

/-- A base register plus a displacement, modulo 2^32 (R84). -/
def effAddr (base : Word) (disp : Int) : Nat := (base + BitVec.ofInt 32 disp).toNat

/-- An odd register named as a 64-bit operand. -/
def oddReg (r : GReg) : Bool := r.val % 2 == 1

/-- The first operand byte that names an odd register, of a list of operands with the index of their byte. -/
def pairByte : List (GReg × Nat) → Option Nat
  | [] => none
  | (r, b) :: rest => if oddReg r then some b else pairByte rest

/-- A check of Table ISA-13 that an instruction fails: REASON, BYTE, and the number of its bytes that the decoder
has needed by then (R109). -/
structure Bad where
  reason : Nat
  byte : Nat
  need : Nat
  deriving DecidableEq, Repr

/-- The encoding of an instruction: its length with its prefixes, and the first check it fails. -/
structure Form where
  len : Nat
  bad : Option Bad
  deriving DecidableEq, Repr

/-- An encoding whose operands can fail no check. -/
def plainForm (len : Nat) : Form := { len := len, bad := none }

/-- The first check of a list that fails. -/
def firstBad : List (Bool × Bad) → Option Bad
  | [] => none
  | (c, b) :: rest => if c then some b else firstBad rest

/-- The PAIR check under WIDE: the operands are listed with the index of their operand byte, prefixes included. -/
def pairBad (wide : Bool) (need : Nat) (pairs : List (GReg × Nat)) : Option Bad :=
  if wide then (pairByte pairs).map fun b => { reason := 0xB, byte := b, need := need } else none

/-- An encoding of `len` bytes whose operand bytes end before `need`, with the pairs it names under WIDE. -/
def pairForm (wide : Bool) (need len : Nat) (pairs : List (GReg × Nat)) : Form :=
  { len := len, bad := pairBad wide need pairs }

namespace State

/-- The fetch of a byte at or above 0x1_0000 raises ACCESS with FETCH (R111, R113). -/
def fetchFault (s : State) (e : Nat) : State :=
  s.accessFault e .access
    { space := .engineLocal, write := false, noMem := false, fetch := true, posted := false, bytes := 4 }
    (max (s.pc e).toNat 0x10000)

/-- The encoding stands wholly in instruction SRAM as far as its first `n` bytes. -/
def fetched (s : State) (e n : Nat) : Bool := decide ((s.pc e).toNat + n ≤ 0x10000)

/-- An instruction issues: it raises ACCESS when a byte that its checks, or its execution, need lies outside
instruction SRAM, ILLEGAL when it fails a check, and runs otherwise (R108, R111). -/
def issue (s : State) (e : Nat) (f : Form) (body : State → State) : State :=
  if s.ready e then
    match f.bad with
    | some b => if s.fetched e b.need then s.illegal e b.reason b.byte else s.fetchFault e
    | none => if s.fetched e f.len then body s else s.fetchFault e
  else s

end State

end Sys2Proof.Machine
end

