-- ==== Sys2Proof/Machine/Flags.lean ====
section
/-!
DEFINITION. The arithmetic of Table ISA-6 over N-bit numbers: carries, borrows and overflows (the machine
has no flags and writes them to gc), division with its corners, saturation, shifts, bit fields and the CRC step.
-/

namespace Sys2Proof.Machine

namespace Alu

/-- M: all ones. -/
def ones (n : Nat) : Nat := 2 ^ n - 1

/-- The most negative value, 2^(N-1). -/
def minSigned (n : Nat) : Nat := 2 ^ (n - 1)

/-- 1 when an unsigned sum does not fit (ADDC). -/
def carry (n a b : Nat) : Bool := decide (ones n < a + b)

/-- 1 when an unsigned difference is negative (SUBB). -/
def borrow (a b : Nat) : Bool := decide (a < b)

/-- A signed result does not fit N bits (ADDV, SUBV). -/
def overflow (n : Nat) (t : Int) : Bool :=
  decide ((2 ^ (n - 1) : Nat) ≤ t) || decide (t < -((2 ^ (n - 1) : Nat) : Int))

def add (n a b : Nat) : Nat := (a + b) % 2 ^ n
def sub (n a b : Nat) : Nat := (a + (2 ^ n - b % 2 ^ n)) % 2 ^ n
def mul (n a b : Nat) : Nat := a * b % 2 ^ n
def mulh (n a b : Nat) : Nat := ofSigned n ((toSigned n a * toSigned n b) / (2 ^ n : Nat))
def mulhu (n a b : Nat) : Nat := a * b / 2 ^ n

/-- DIV with the corners of Table ISA-7. -/
def div (n a b : Nat) : Nat :=
  if b = 0 then ones n
  else if a = minSigned n ∧ b = ones n then a
  else ofSigned n ((toSigned n a).tdiv (toSigned n b))

/-- REM with the corners of Table ISA-7. -/
def rem (n a b : Nat) : Nat :=
  if b = 0 then a
  else if a = minSigned n ∧ b = ones n then 0
  else ofSigned n ((toSigned n a).tmod (toSigned n b))

def divu (n a b : Nat) : Nat := if b = 0 then ones n else a / b
def remu (a b : Nat) : Nat := if b = 0 then a else a % b

/-- SATADD. -/
def satadd (n a b : Nat) : Nat :=
  let t := toSigned n a + toSigned n b
  if ((2 ^ (n - 1) - 1 : Nat) : Int) < t then 2 ^ (n - 1) - 1
  else if t < -((2 ^ (n - 1) : Nat) : Int) then minSigned n
  else ofSigned n t

def neg (n a : Nat) : Nat := sub n 0 a
def not (n a : Nat) : Nat := ones n - a % 2 ^ n
def andn (n a b : Nat) : Nat := a &&& not n b

def shl (n a g : Nat) : Nat := if n ≤ g then 0 else a * 2 ^ g % 2 ^ n
def shr (n a g : Nat) : Nat := if n ≤ g then 0 else a / 2 ^ g
def sar (n a g : Nat) : Nat :=
  if n ≤ g then (if toSigned n a < 0 then ones n else 0) else ofSigned n (toSigned n a / (2 ^ g : Nat))
def rol (n a g : Nat) : Nat := (a * 2 ^ (g % n) % 2 ^ n) ||| (a / 2 ^ (n - g % n))
def ror (n a g : Nat) : Nat := (a / 2 ^ (g % n)) ||| (a * 2 ^ (n - g % n) % 2 ^ n)

/-- BFX (R92): field16 holds LSB in bits 5–0 and WIDTH in bits 12–6. -/
def bfx (n a : Nat) (field : BitVec 16) : Nat :=
  let lsb := field.toNat % 64
  let width := field.toNat / 64 % 128
  if width = 0 ∨ n ≤ lsb then 0 else a / 2 ^ lsb % 2 ^ (min width (n - lsb))

/-- BFI (R92): the field of D is replaced by the low bits of A. -/
def bfi (n d a : Nat) (field : BitVec 16) : Nat :=
  let lsb := field.toNat % 64
  let width := field.toNat / 64 % 128
  if width = 0 ∨ n ≤ lsb then d
  else
    let m := (2 ^ (min width (n - lsb)) - 1) * 2 ^ lsb
    (d &&& not n m) ||| (a * 2 ^ lsb % 2 ^ n &&& m)

/-- Leading zeros of an N-bit number. -/
def clz (n a : Nat) : Nat :=
  match n with
  | 0 => 0
  | k + 1 => if a.testBit k then 0 else 1 + clz k a

/-- One bits of an N-bit number. -/
def popc (n a : Nat) : Nat :=
  match n with
  | 0 => 0
  | k + 1 => bit (a.testBit k) + popc k a

/-- The `k` low bytes in reverse order. -/
def bswap (k a : Nat) : Nat :=
  match k with
  | 0 => 0
  | j + 1 => (a % 256) * 256 ^ j + bswap j (a / 256)

/-- The low `w` bits in reverse order (R98). -/
def reverse (w p : Nat) : Nat :=
  match w with
  | 0 => 0
  | j + 1 => bit (p.testBit 0) * 2 ^ j + reverse j (p / 2)

/-- `k` bit steps of a reflected CRC. -/
def crcReflected (k rp c : Nat) : Nat :=
  match k with
  | 0 => c
  | j + 1 => crcReflected j rp (if c.testBit 0 then (c / 2) ^^^ rp else c / 2)

/-- `k` bit steps of a CRC with the most significant bit first. -/
def crcForward (k w p c : Nat) : Nat :=
  match k with
  | 0 => c
  | j + 1 => crcForward j w p (if c.testBit (w - 1) then (c * 2 ^^^ p) % 2 ^ w else c * 2 % 2 ^ w)

/-- crc_step (R98) for a table entry of width `w`. -/
def crcStep (w : Nat) (reflect : Bool) (poly c b : Nat) : Nat :=
  let p := poly % 2 ^ w
  let c := c % 2 ^ w
  if reflect then crcReflected 8 (reverse w p) (c ^^^ b)
  else crcForward 8 w p (c ^^^ (b * 2 ^ (w - 8)))

end Alu

namespace State

/-- Width in bits that CE_CRC_CFG.WIDTH encodes: 0b00 8, 0b01 16, 0b10 32 (Table ISA-9). -/
def crcWidth (s : State) (e k : Nat) : Nat :=
  let w := s.fld (Fld.CE_CRC_CFG_WIDTH e k)
  if w = 0 then 8 else if w = 1 then 16 else 32

/-- crc_step with entry `k` of engine `e`'s table. -/
def crcByte (s : State) (e k : Nat) (c : Nat) (b : Byte) : Nat :=
  Alu.crcStep (s.crcWidth e k) (s.flag (Fld.CE_CRC_CFG_REFLECT e k)) (s.reg (Reg.CE_CRC_POLY e k)).toNat c b.toNat

end State

end Sys2Proof.Machine
end

