-- ==== Sys2Proof/Machine/Round.lean ====
section
/-!
DEFINITION. A district's SRAM with its LOCK regions (R150–R155), and its Round: the passage of a frame, the
phase points and the pending writes of the stations (R159–R169).
-/

namespace Sys2Proof.Machine

/-- A district none of whose state has changed. -/
def districtDflt (_ : Nat) : District := {}

/-- An error that a Round word meets on its way into a station (R167). -/
abbrev RingError := RingFault

namespace State

/-- District `d`. -/
def dist (s : State) (d : Nat) : District := Store.get districtDflt s.districts d

/-- District `d` replaced. -/
def setDist (s : State) (d : Nat) (x : District) : State :=
  { s with districts := Store.set districtDflt s.districts d x }

/-! ### District SRAM (R150–R155) -/

/-- Size of a district's SRAM. -/
def sramSize : Nat := 0x400000

/-- A LOCK region is enabled, enforced and held, and the `n` bytes from `a` touch it. -/
def lockedBy (s : State) (d a n r : Nat) : Option Ident :=
  let base := s.fld (Fld.RND_LOCK_BASE d r) * 256
  let size := s.fld (Fld.RND_LOCK_SIZE d r) * 256
  if size ≠ 0 ∧ s.flag (Fld.RND_LOCK_ENFORCE d r) ∧ s.flag (Fld.RND_LOCK_HOLD_HELD d r) ∧
      a < base + size ∧ base < a + n then
    some (BitVec.ofNat 16 (s.fld (Fld.RND_LOCK_HOLD_HOLDER d r)))
  else none

/-- The `n` bytes from `a` touch a held checkpoint area, which is enforced (R437). -/
def inCheckpoint (s : State) (l : Lease) (d a n : Nat) : Bool :=
  let f := s.reg (Reg.RED_CKPT (l.index / 2) (l.index % 2))
  l.type == 5 && l.district == d &&
    decide (a < (fieldGet f 0 14 + fieldGet f 14 14) * 256 ∧ fieldGet f 0 14 * 256 < a + n)

/-- A write of `n` bytes at `a` of district `d` is permitted to an identity (R154): the supervisor's always,
and anyone's where no held and enforced region of another holder is touched. -/
def sramWritable (s : State) (d a n : Nat) (who : Ident) : Bool :=
  Ident.isSup who || (((List.range 64).all fun r =>
    match s.lockedBy d a n r with
    | some h => h == who
    | none => true) && s.leases.all fun l => !s.inCheckpoint l d a n || l.holder == who)

/-- An 8-byte word of the SRAM lies in the `n` bytes from `a` in part, and whole. -/
def wordMeets (a n w : Nat) : Bool := decide (w * 8 < a + n ∧ a < w * 8 + 8)
def wordWhole (a n w : Nat) : Bool := decide (a ≤ w * 8 ∧ w * 8 + 8 ≤ a + n)

/-- A read meets an uncorrectable error (R151). -/
def sramBad (s : State) (d a n : Nat) : Bool := (s.dist d).bad.any (wordMeets a n)

/-- Bytes of a district's SRAM, little-endian. -/
def sramRead (s : State) (d a n : Nat) : Nat := (s.dist d).sram.readLE a n

/-- The single-bit errors that an access of `n` bytes at `a` meets are corrected, written back and counted (R151). -/
def sramScrub (s : State) (d a n : Nat) : State :=
  let hit := ((s.dist d).soft.filter (wordMeets a n)).length
  if hit = 0 then s
  else (s.setDist d { s.dist d with soft := (s.dist d).soft.filter fun w => !wordMeets a n w }).count (Fld.RND_SRAM_ERR_CORR d) hit

/-- The words that a store of `n` bytes at `a` covers whole lose their errors; it is merged into the others (R151). -/
def sramClean (s : State) (d a n : Nat) : State :=
  let x := s.dist d
  (s.setDist d { x with
    bad := x.bad.filter fun w => !wordWhole a n w
    soft := x.soft.filter fun w => !wordWhole a n w }).sramScrub d a n

/-- Bytes stored into a district's SRAM. -/
def sramStore (s : State) (d a n v : Nat) : State :=
  let s := s.sramClean d a n
  s.setDist d { s.dist d with sram := (s.dist d).sram.writeLE a n v }

/-- A write by an agent that is no engine: a refused one is discarded and counted (R154). -/
def sramAgentStore (s : State) (d a n v : Nat) (who : Ident) : State :=
  if s.sramWritable d a n who then s.sramStore d a n v else s.count (Fld.RND_SRAM_ERR_LOCK_REFUSED d)

/-- A list of bytes stored by such an agent, as one write. -/
def sramAgentBytes (s : State) (d a : Nat) (bs : List Byte) (who : Ident) : State :=
  if s.sramWritable d a bs.length who then
    let s := s.sramClean d a bs.length
    s.setDist d { s.dist d with sram := (s.dist d).sram.writeBytes a bs }
  else s.count (Fld.RND_SRAM_ERR_LOCK_REFUSED d)

/-- A read met an uncorrectable error: counted, and the supervisor is told (R151). -/
def sramErrorSeen (s : State) (d : Nat) : State :=
  (s.count (Fld.RND_SRAM_ERR_UNCORR d)).notify (.sramError d)

/-! ### Phase points (R165) -/

/-- The next phase point of district `d` at or after cycle `t`: on the grid of the cycle in progress, whose points a
correction does not move (R197), and then on the grid of the next. -/
def phasePoint (s : State) (d t : Nat) : Nat :=
  let p := s.fld (Fld.RND_PERIOD_PERIOD d)
  let phase := s.fld (Fld.RND_PERIOD_PHASE d)
  let k := (t - (s.ave.cycleStart + phase) + (p - 1)) / p
  if phase + k * p < s.fld Fld.AVE_SCHED_LEN8 * 8 then s.ave.cycleStart + phase + k * p
  else
    let next := s.ave.cycleStart + s.ave.len + phase
    next + (t - next + (p - 1)) / p * p

/-- The Round stays on the phase points: SYNC is set, the Avenue runs, and the cycle length is a multiple
of PERIOD. -/
def onPoints (s : State) (d : Nat) : Bool :=
  s.flag (Fld.RND_PERIOD_SYNC d) && s.ave.started &&
    s.fld Fld.AVE_SCHED_LEN8 * 8 % s.fld (Fld.RND_PERIOD_PERIOD d) == 0

/-- The phase point moves: the next start falls at the first one at or after the current start plus 160. -/
def phaseMoveIn (s : State) (d : Nat) : State :=
  let x := s.dist d
  if x.due.isSome && s.flag (Fld.RND_PERIOD_SYNC d) && s.ave.started then
    (s.setDist d { x with due := some (s.phasePoint d (max s.cycle (x.lastStart + 160))) }).setFlag (Fld.RND_STAT_SYNCED d) (s.onPoints d)
  else s

/-- A phase move of every district. -/
def phaseMove (s : State) : State := (List.range 8).foldl phaseMoveIn s

/-- A correction of the cycle's length moves its end, and with it the starts that lie behind it (R197). -/
def setAveLen (s : State) (len : Nat) : State :=
  let old := s.ave.len
  let s := { s with ave := { s.ave with len := len } }
  (List.range 8).foldl (fun (s : State) d =>
    match (s.dist d).due with
    | some t =>
      if s.onPoints d && decide (s.ave.cycleStart + s.fld Fld.AVE_SCHED_LEN8 * 8 ≤ t ∨ s.ave.cycleStart + old ≤ t) then
        s.setDist d { s.dist d with due := some (t + len - old) }
      else s
    | none => s) s

/-! ### Run control (R165) -/

/-- RND_CTRL.RUN becomes 1: the first start is scheduled, and SYNCED tells whether the starts stay on the points. -/
def roundRun (s : State) (d : Nat) : State :=
  let first := if s.flag (Fld.RND_PERIOD_SYNC d) && s.ave.started then s.phasePoint d (s.cycle + 1) else s.cycle + 16
  (((s.setFlag (Fld.RND_CTRL_RUN d) true).setFlag (Fld.RND_STAT_RUNNING d) true).setFlag (Fld.RND_STAT_SYNCED d)
    (s.onPoints d)).setDist d { s.dist d with due := some first }

/-- RND_CTRL.RUN becomes 0 in LOAD: no other Round starts; pending writes and the words stay. -/
def roundStop (s : State) (d : Nat) : State :=
  (((s.setFlag (Fld.RND_CTRL_RUN d) false).setFlag (Fld.RND_STAT_RUNNING d) false).setFlag (Fld.RND_STAT_SYNCED d)
    false).setDist d { s.dist d with due := none }

/-! ### Pending writes and operations of stations (R161) -/

/-- A pending write of station `st` to word `w` replaces an earlier one. -/
def pendWrite (s : State) (d st w : Nat) (v : Word) : State :=
  s.setDist d { s.dist d with pendW := Store.set (fun _ => none) (s.dist d).pendW (st * 64 + w) (some v) }

end State

/-- One operation of RNDOP (R162): ADD wraps, MIN and MAX compare as the word's SIGNED says. -/
def RndOp.apply (op : RndOp) (signed : Bool) (a b : Word) : Word :=
  match op with
  | .or => a ||| b
  | .xor => a ^^^ b
  | .add => a + b
  | .min => if (if signed then decide (a.toInt ≤ b.toInt) else decide (a.toNat ≤ b.toNat)) then a else b
  | .max => if (if signed then decide (a.toInt ≤ b.toInt) else decide (a.toNat ≤ b.toNat)) then b else a

namespace State

/-- The least or greatest value of a commons word, or 0, as CLEAR says; none sends the word on as returned
(Table RND-12). -/
def commonsClear (s : State) (d w : Nat) : Option Word :=
  let signed := s.flag (Fld.RND_COMMON_CFG_SIGNED d (w - 48))
  match s.fld (Fld.RND_COMMON_CFG_CLEAR d (w - 48)) with
  | 1 => some 0
  | 2 => some (if signed then 0x80000000 else 0)
  | 3 => some (if signed then 0x7FFFFFFF else 0xFFFFFFFF)
  | _ => none

/-- A pending commons operation: the same OP merges its operand, another replaces it and counts OP_OVR. -/
def pendOperation (s : State) (d st w : Nat) (op : RndOp) (v : Word) : State :=
  let x := s.dist d
  let put (s : State) (p : PendOp) : State :=
    s.setDist d { s.dist d with pendOp := Store.set (fun _ => none) (s.dist d).pendOp (st * 64 + w) (some p) }
  match Store.get (fun _ => none) x.pendOp (st * 64 + w) with
  | some p =>
    if p.op = op then put s { op := op, value := op.apply (s.flag (Fld.RND_COMMON_CFG_SIGNED d (w - 48))) p.value v }
    else put (s.count (Fld.RND_FAULT_OP_OVR d)) { op := op, value := v }
  | none => put s { op := op, value := v }

/-- Owner of slice word `w` of district `d`: 0 none, 1–15 a station, 31 LEASED (Table RND-11). -/
def sliceOwner (s : State) (d w : Nat) : Nat := s.fld (Fld.RND_SLICE_OWNER d w)

/-- Station `st` of district `d` may write word `w` (Table RND-10 for engines, R161 for hardware stations). -/
def mayWriteWord (s : State) (d st w : Nat) : Bool :=
  if w = 0 then false
  else if w < 16 then st == w
  else if w < 48 then
    let o := s.sliceOwner d w
    if o = 31 then
      match s.leaseOf 7 d w with
      | some l => decide (1 ≤ st ∧ st ≤ 12) && l.holder == s.ident (0x10 + d * 12 + (st - 1))
      | none => false
    else o == st
  else false

/-- The station words 13–15 that the hardware units write: LANTERN counts while the unit is healthy, and holds
with FAULT set in an internal fault (Table RND-9). -/
def unitWord (old : Word) (fault : Bool) : Word :=
  if fault then fieldSet old 8 1 1
  else fieldSet (fieldSet old 8 1 0) 0 8 (fieldGet old 0 8 + 1)

/-- Reduction unit of district `d`. -/
def sru (s : State) (d : Nat) : Sru := Store.get (fun _ => {}) s.srus d

/-- Reduction unit of district `d` replaced. -/
def setSru (s : State) (d : Nat) (x : Sru) : State := { s with srus := Store.set (fun _ => {}) s.srus d x }

/-- The unit waits for an image write (R415). -/
def sruStall (s : State) (d : Nat) : Bool := s.img.waiting.any fun w => w.who == s.ident (0xD0 + d)

/-- STATUS of station 15's word: input queue full, end-of-step entries held, STALL (R419). -/
def sruStatus (s : State) (d : Nat) (w : Word) : Word :=
  fieldSet w 9 7 (bit (decide (64 ≤ (s.sru d).inq.length)) + 2 * bit (!(s.sru d).eosq.isEmpty) + 4 * bit (s.sruStall d))

/-- A word of the passage. -/
def passWord (p : Passage) (w : Nat) : Word := Store.get (fun _ => 0) p.words w

/-- Station `st` of district `d` is one of an engine in RESET, which passes every word unchanged (R166). -/
def quiet (s : State) (d st : Nat) : Bool := decide (1 ≤ st ∧ st ≤ 12) && s.engState (d * 12 + (st - 1)) == 0

/-- Entries of a store of one station, and the others. -/
def ofStation {V : Type} (st : Nat) (x : Store V) : Store V := x.filter fun p => p.1 / 64 == st
def notOf {V : Type} (st : Nat) (x : Store V) : Store V := x.filter fun p => p.1 / 64 != st

/-- Pending writes and operations of a station are discarded (R166). -/
def clearStation (s : State) (d st : Nat) : State :=
  let x := s.dist d
  s.setDist d { x with
    pendW := notOf st x.pendW, pendOp := notOf st x.pendOp, takenW := notOf st x.takenW, takenOp := notOf st x.takenOp }

/-- The deadline of a passage at station `st`: what is pending is applied in it, and what is issued from now on in the
next (R161). A hardware station's writes to words that it may not write are discarded and counted. -/
def takePending (s : State) (d st : Nat) : State :=
  let x := s.dist d
  let mine := ofStation st x.pendW
  let good (p : Nat × Option Word) : Bool :=
    decide (st < 13) || (decide (16 ≤ p.1 % 64 ∧ p.1 % 64 < 48) && s.mayWriteWord d st (p.1 % 64))
  let s := if mine.all good then s else s.count (Fld.RND_FAULT_DISCARD d) (mine.filter fun p => !good p).length
  s.setDist d { s.dist d with
    pendW := notOf st x.pendW, pendOp := notOf st x.pendOp
    takenW := mine.filter good, takenOp := ofStation st x.pendOp }

/-- What station `st` writes to word `w` as it passes: a hardware unit its status word, and any station what it took at
its deadline, while the word is its own (R164). -/
def stationWrite (s : State) (d st w : Nat) (old : Word) : Option Word :=
  if s.quiet d st then none
  else if 13 ≤ st ∧ w = st ∧ !(st == 15 && !s.variant.hasSru) then
    let v := unitWord old (st == 15 && s.flag (Fld.SRU_STAT_FAULT d))
    some (if st = 15 then s.sruStatus d v else v)
  else
    match Store.get (fun _ => none) (s.dist d).takenW (st * 64 + w) with
    | some v => if s.mayWriteWord d st w then some v else none
    | none => none

/-- Word `w` passes station `st`: an error is corrected or poisons it, the station's write and operation are applied,
and the station sees the word as it leaves. -/
def passStation (d st : Nat) (errors : List RingError) (sp : State × Passage) (w : Nat) : State × Passage :=
  let s := sp.1
  let p := sp.2
  let hit := errors.filter fun x => x.station == st && x.word == w
  let s := if hit.any fun x => !x.fatal then s.count (Fld.RND_FAULT_RING_CORR d) else s
  let p := if hit.any fun x => x.fatal then { p with poison := w :: p.poison.filter (· != w) } else p
  let p := match s.stationWrite d st w (passWord p w) with
    | some v => { words := Store.set (fun _ => 0) p.words w v, poison := p.poison.filter (· != w), marks := w :: p.marks }
    | none => p
  let x := s.dist d
  let key := st * 64 + w
  let p := match Store.get (fun _ => none) x.takenOp key with
    | some o =>
      if s.quiet d st || p.poison.contains w then p
      else { p with words := Store.set (fun _ => 0) p.words w
                      (o.op.apply (s.flag (Fld.RND_COMMON_CFG_SIGNED d (w - 48))) (passWord p w) o.value) }
    | none => p
  (s.setDist d { x with
    takenW := Store.erase x.takenW key
    takenOp := Store.erase x.takenOp key
    leaving := if p.poison.contains w then x.leaving else Store.set (fun _ => 0) x.leaving key (passWord p w) }, p)

/-- The words that left stations in the last cycle are seen there from now on. -/
def showLeft (s : State) (d : Nat) : State :=
  let x := s.dist d
  s.setDist d { x with
    seen := x.leaving.foldl (fun st q => Store.set (fun _ => 0) st q.1 q.2) x.seen
    leaving := [] }

/-- Word 0 of a start (Table RND-9). -/
def headerWord (s : State) (d : Nat) : Word :=
  BitVec.ofNat 32 ((s.dist d).round % 2 ^ 16 + 2 ^ 16 * s.fld (Fld.RND_STAT_GEN d) +
    2 ^ 24 * bit (s.ave.started && s.phasePoint d s.cycle == s.cycle))

/-- The words the header sends at a start: word 0, the commons as CLEAR says, the others as they came back. -/
def headerFrame (s : State) (d : Nat) : Store Word :=
  let base := Store.set (fun _ => 0) (s.dist d).frame 0 (s.headerWord d)
  ((List.range 16).map (· + 48)).foldl (fun f w =>
    match s.commonsClear d w with
    | some v => Store.set (fun _ => 0) f w v
    | none => f) base

/-- RND_FRAME shows the words as they left the header. -/
def showFrame (s : State) (d : Nat) (f : Store Word) : State :=
  (List.range 64).foldl (fun s w => s.setReg (Reg.RND_FRAME d w) (Store.get (fun _ => 0) f w)) s

/-- Word `w` is back at the header: a poisoned one is counted and becomes 0, and a commons word is latched (R162,
R167). -/
def headerReturn (d w : Nat) (sp : State × Passage) : State × Passage :=
  let s := sp.1
  let p := sp.2
  let bad := p.poison.contains w
  let s := if bad then s.count (Fld.RND_FAULT_RING_POISON d) else s
  let p := if bad then { p with words := Store.set (fun _ => 0) p.words w 0 } else p
  (if 48 ≤ w then s.setReg (Reg.RND_COMMON_RES d (w - 48)) (passWord p w) else s, p)

/-- Words 1–15 as the gateway records them when the frame passes station 14 (R169): word 15 is the previous
Round's, as it stands before station 15. -/
def gatewayRecord (p : Passage) : List Word :=
  passWord p 0 :: (List.range 15).map fun i => passWord p (i + 1)

/-- The schedule of the next start, after one in this cycle: the next phase point, or PERIOD later. -/
def nextStart (s : State) (d : Nat) : Nat :=
  if s.onPoints d then s.phasePoint d (s.cycle + 1) else s.cycle + s.fld (Fld.RND_PERIOD_PERIOD d)

end State

end Sys2Proof.Machine
end

