-- ==== Sys2Proof/Machine/Avenue.lean ====
section
/-!
DEFINITION. The Avenue's operations: nodes and slots, the frames that owners pack (R170–R183), the reference
message and the counter's correction (R188–R198), spare slots (R199–R202) and the ring map (R205, R209).
-/

namespace Sys2Proof.Machine

/-- Beats a message takes: its 8-byte header and its payload, padded (R175). -/
def msgBeats (m : Msg) : Nat := (8 + 4 * m.payload.length + 31) / 32

/-- Chip of a node ID (R34). -/
def nodeChip (n : Nat) : Nat := n / 16

namespace State

/-- Node ID of a local ID of this chip. -/
def aveNode (s : State) (l : Nat) : Nat := s.chip * 16 + l

/-- The Avenue replaced. -/
def setAve (s : State) (a : Avenue) : State := { s with ave := a }

/-- The live cycle length in FCLK cycles. -/
def aveLen (s : State) : Nat := s.fld Fld.AVE_SCHED_LEN8 * 8

/-- Claim mini-slots (R178). -/
def claimSlots (s : State) : Nat :=
  if s.flag Fld.AVE_CTRL_W0_EN || s.flag Fld.AVE_CTRL_W1_EN then 8 else 1

/-- A local ID names a present node of this chip (Table ARCH-6). -/
def hasLocal (s : State) (l : Nat) : Bool :=
  if l < 8 then decide (l < s.variant.districts)
  else if l ≤ 10 then true
  else if l ≤ 12 then s.variant.hasWilern
  else false

/-- AVE_STAT.STATE (Table AVE-13). -/
def aveState (s : State) : Nat := s.fld Fld.AVE_STAT_STATE

/-- A change of STATE; leaving INTEGRATED or REINTEGRATING is told to the supervisor (R195). -/
def setAveState (s : State) (n : Nat) : State :=
  let s1 := s.setFld Fld.AVE_STAT_STATE n
  if (s.aveState = 4 ∨ s.aveState = 5) ∧ n ≠ s.aveState then s1.notify .avenueIntegration else s1

/-! ### Slots (R171, R180, R187) -/

/-- A slot is ring-scope; it acts as LOCAL while there is one claim mini-slot (Table AVE-12). -/
def slotRing (s : State) (k : Nat) : Bool := s.flag (Fld.AVE_SLOT_SCOPE k) && decide (s.claimSlots = 8)

/-- Owner of a spare slot as the table in force grants it; 0xFF free. -/
def spareOwner (t : List SpareEntry) (k : Nat) : Nat :=
  match t.find? fun x => x.valid && x.slot == k with
  | some x => x.owner
  | none => 0xFF

/-- Owner of static slot `k` in this cycle. -/
def slotOwner (s : State) (k : Nat) : Nat :=
  if s.flag (Fld.AVE_SLOT_SPARE k) then spareOwner s.ave.spareNow k else s.fld (Fld.AVE_SLOT_OWNER k)

/-- This chip may send in a slot of the scope: ring scope needs INTEGRATED and agreeing schedules (R187, R195,
R198); LOCAL slots run while the counter does. -/
def maySend (s : State) (ring : Bool) : Bool :=
  s.ave.started && (!ring || (s.aveState == 4 && !s.flag Fld.AVE_STAT_RING_MISMATCH))

/-- A node of this chip owns a static slot of the live schedule, of ring scope if asked. -/
def ownsSlot (s : State) (l : Nat) (ring : Bool) : Bool :=
  (List.range (s.fld Fld.AVE_SCHED_NSTATIC)).any fun k => s.slotOwner k == s.aveNode l && (!ring || s.slotRing k)

/-- Messages a node has queued. -/
def nodeQueue (s : State) (l : Nat) : List Msg := Store.get (fun _ => []) s.ave.queues l

/-- A node's queue replaced. -/
def setNodeQueue (s : State) (l : Nat) (q : List Msg) : State :=
  s.setAve { s.ave with queues := Store.set (fun _ => []) s.ave.queues l q }

/-- A message queued by a unit of this chip for its node's next slot. -/
def queueMsg (s : State) (l : Nat) (m : Msg) : State := s.setNodeQueue l (s.nodeQueue l ++ [m])

end State

/-- The messages from the front of a queue that fit the beats left; none is taken past one that does not
fit (R180). Answers those taken, the rest and the beats left. -/
def takeFit : Nat → List Msg → List Msg × List Msg × Nat
  | left, [] => ([], [], left)
  | left, m :: rest =>
    if msgBeats m ≤ left then
      let t := takeFit (left - msgBeats m) rest
      (m :: t.1, t.2.1, t.2.2)
    else ([], m :: rest, left)

namespace State

/-! ### Gateway rings (R181) -/

/-- Base address of a ring, and its size in bytes: a ring past the end of the SRAM is disabled (log entry 12). Of ring `q` of the gateway of `d`. -/
def ringBase (s : State) (d q : Nat) : Nat := s.fld (Fld.AVE_GW_RING_BASE d q) * 256
def ringBytes (s : State) (d q : Nat) : Nat :=
  let n := s.fld (Fld.AVE_GW_RING_SIZE d q) * 256
  if s.ringBase d q + n ≤ sramSize then n else 0

/-- Beats between two ring pointers, which run modulo 2^16. -/
def beatsBetween (head tail : Nat) : Nat := (tail + 65536 - head) % 65536

/-- Byte `i` from beat `p` of a ring, wrapping at the ring's end. -/
def ringByte (s : State) (d q p i : Nat) : Nat :=
  ((s.dist d).sram.read (s.ringBase d q + (p * 32 + i) % s.ringBytes d q)).toNat

/-- A word from a ring. -/
def ringWord (s : State) (d q p i : Nat) : Word :=
  BitVec.ofNat 32 (s.ringByte d q p i + 2 ^ 8 * s.ringByte d q p (i + 1) + 2 ^ 16 * s.ringByte d q p (i + 2) +
    2 ^ 24 * s.ringByte d q p (i + 3))

/-- The message whose image begins at beat `p` of a ring (Table AVE-3), with SRC rewritten. -/
def ringMsg (s : State) (d q p : Nat) : Msg :=
  let a := (s.ringWord d q p 0).toNat
  let b := (s.ringWord d q p 4).toNat
  let len := (a / 2 ^ 24 + 2 ^ 8 * b) % 2 ^ 11
  { dest := a % 256, src := s.aveNode d, type := a / 2 ^ 16 % 16, sub := a / 2 ^ 20 % 16
    flowv := b.testBit 3, flow := b / 16 % 2 ^ 12, seq := b / 2 ^ 16
    payload := (List.range len).map fun i => s.ringWord d q p (8 + 4 * i) }

/-- The gateway discards a TX ring message: its TYPE is no ENGINE or SLICE, its LEN exceeds R175, or it lies
in ring 0 and is bound for another chip. -/
def txBad (s : State) (q : Nat) (m : Msg) : Bool :=
  !(m.type == 3 || m.type == 4) || decide (1150 < m.payload.length) ||
    (nodeChip m.dest != s.chip && (q == 0 || decide (510 < m.payload.length)))

/-- Advances of TAIL up to the first that is 24 cycles old at cycle `now`: no later slot looks past that one. -/
def keepTails (now : Nat) : List (Nat × Nat) → List (Nat × Nat)
  | [] => []
  | x :: rest => if x.1 + 24 ≤ now then [x] else x :: keepTails now rest

/-- TAIL of TX ring `q` is advanced in this cycle. -/
def noteTail (s : State) (d q tail : Nat) : State :=
  let k := d * 2 + q
  let old := Store.get (fun _ => []) s.ave.tails k
  let old := if old.isEmpty then [(0, s.fld (Fld.AVE_GW_PTR_TAIL d q))] else old
  s.setAve { s.ave with tails := Store.set (fun _ => []) s.ave.tails k ((s.cycle, tail) :: keepTails s.cycle old) }

/-- TAIL as it stood 24 cycles before this action point (R181). -/
def slotTail (s : State) (d q : Nat) : Nat :=
  let l := Store.get (fun _ => []) s.ave.tails (d * 2 + q)
  match l.find? fun x => decide (x.1 + 24 ≤ s.cycle) with
  | some x => x.2
  | none => match l.getLast? with
    | some x => x.2
    | none => s.fld (Fld.AVE_GW_PTR_TAIL d q)

/-- Beats of TX ring `q` that are eligible for the slot of this action point. -/
def eligibleBeats (s : State) (d q : Nat) : Nat :=
  let tail := s.fld (Fld.AVE_GW_PTR_TAIL d q)
  beatsBetween (s.fld (Fld.AVE_GW_PTR_HEAD d q)) tail - beatsBetween (s.slotTail d q) tail

/-- Messages taken from the given beats of TX ring `q` while they fit: those taken, and the state with HEAD
advanced. -/
def takeRing (d q : Nat) : Nat → Nat → Nat → State → List Msg × State
  | 0, _, _, s => ([], s)
  | fuel + 1, beats, left, s =>
    let head := s.fld (Fld.AVE_GW_PTR_HEAD d q)
    if s.ringBytes d q = 0 ∨ beats = 0 then ([], s)
    else
      let m := s.ringMsg d q head
      let s' := s.setFld (Fld.AVE_GW_PTR_HEAD d q) (head + msgBeats m)
      if s.txBad q m then takeRing d q fuel (beats - msgBeats m) left (s'.count (Fld.AVE_GW_CNT_TX_BAD d))
      else if msgBeats m ≤ left then
        let t := takeRing d q fuel (beats - msgBeats m) (left - msgBeats m) s'
        (m :: t.1, t.2)
      else ([], s)

/-- The LANTERN message of a gateway: ROUND and GEN, then words 1–15 (R169, R180). -/
def lanternMsg (s : State) (d : Nat) : Msg :=
  { dest := s.aveNode 10, src := s.aveNode d, type := 9, sub := 0, flowv := false, flow := 0, seq := 0
    payload := (s.dist d).record }

/-- The frame of a gateway in one of its slots, packed in the order of R180. -/
def gatewayFrame (s : State) (d : Nat) (ring : Bool) : List Msg × State :=
  let budget := if ring then 64 else 144
  let first := !s.ave.lanternSent.contains d && !(s.dist d).record.isEmpty
  let a := if first then [s.lanternMsg d] else []
  let left := budget - (a.map msgBeats).sum
  let f := takeFit left (Store.get (fun _ => []) s.ave.fwd d)
  let s := s.setAve { s.ave with
    fwd := Store.set (fun _ => []) s.ave.fwd d f.2.1
    lanternSent := if first then d :: s.ave.lanternSent else s.ave.lanternSent }
  let r1 := if ring then takeRing d 1 (s.eligibleBeats d 1) (s.eligibleBeats d 1) f.2.2 s
    else ([], s)
  let left := f.2.2 - (r1.1.map msgBeats).sum
  let s := r1.2
  let r0 := takeRing d 0 (s.eligibleBeats d 0) (s.eligibleBeats d 0) left s
  let left := left - (r0.1.map msgBeats).sum
  let q := takeFit left (r0.2.nodeQueue d)
  (a ++ f.1 ++ r1.1 ++ r0.1 ++ q.1, r0.2.setNodeQueue d q.2.1)

/-- The frame of the owner of a slot, a node of this chip. The other nodes have messages for other chips alone. -/
def nodeFrame (s : State) (l : Nat) (ring : Bool) : List Msg × State :=
  if l < 8 then s.gatewayFrame l ring
  else if ring then
    let q := takeFit 64 (s.nodeQueue l)
    (q.1, s.setNodeQueue l q.2.1)
  else ([], s)

/-- Received bytes of a message image, padded to whole beats. -/
def msgBytes (m : Msg) : List Byte :=
  let h := m.dest + 2 ^ 8 * m.src + 2 ^ 16 * m.type + 2 ^ 20 * m.sub + 2 ^ 24 * m.payload.length +
    2 ^ 35 * bit m.flowv + 2 ^ 36 * m.flow + 2 ^ 48 * m.seq
  let words := BitVec.ofNat 32 h :: BitVec.ofNat 32 (h / 2 ^ 32) :: m.payload
  let bs := words.flatMap fun w => (List.range 4).map fun i => BitVec.ofNat 8 (w.toNat / 256 ^ i)
  bs ++ List.replicate (msgBeats m * 32 - bs.length) 0

/-- Bytes of a 256-bit beat. -/
def beatSize : Nat := 32

/-- FCRC over the data of a frame (R173). -/
def frameCrc (bs : List Byte) : Nat :=
  ((bs.map (·.toNat)).foldl (fun c b => Alu.crcStep 32 true 0x1EDC6F41 c b) 0xFFFFFFFF) ^^^ 0xFFFFFFFF

/-- The beats of a frame with their sideband: MARK tells the first and the last beat, MSG the header of a message,
and the last beat carries FCRC (R173, Table AVE-2). -/
def frameBeats (msgs : List Msg) : List AveBeat :=
  let bs := msgs.flatMap msgBytes
  let n := bs.length / beatSize
  let heads := msgs.foldl (fun (r : List Nat × Nat) m => (r.1 ++ [r.2], r.2 + msgBeats m)) ([], 0)
  (List.range n).map fun i =>
    let d := (bs.drop (i * beatSize)).take beatSize
    let mark := bit (i == 0) + 2 * bit (i + 1 == n)
    let head := heads.1.contains i
    { data := d, mark := mark, msg := head
      ecc := Config.beatEcc (d.foldr (fun b v => v * 256 + b.toNat) 0 * 8 + mark + 4 * bit head) % 2 ^ 10
      fcrc := if i + 1 = n then frameCrc bs else 0 }

/-- Identity under which a gateway writes: it holds no lease, so any region held and enforced refuses it. -/
def gatewayIdent : Ident := 0xFFFF

/-- Bytes written to a ring from beat `p` on, wrapping, as one write (R154). -/
def ringStore (s : State) (d q p : Nat) (bs : List Byte) : State :=
  let at' (i : Nat) : Nat := s.ringBase d q + (p * 32 + i) % s.ringBytes d q
  if (List.range bs.length).all fun i => s.sramWritable d (at' i) 1 gatewayIdent then
    s.setDist d { s.dist d with
      sram := bs.zipIdx.foldl (fun m b => m.write (at' b.2) b.1) (s.dist d).sram }
  else s.count (Fld.RND_SRAM_ERR_LOCK_REFUSED d)

/-! ### The counter (R189, R190, R196) -/

/-- Listening time of a cold-start node: 2 × LEN + ID × S (R190). -/
def listenTime (s : State) : Nat :=
  let up := s.fld (Fld.AVE_WLN_STAT_STATE 0) = 2 ∨ s.fld (Fld.AVE_WLN_STAT_STATE 1) = 2
  let dring := if up then s.fld Fld.AVE_RING_STAT_DRING else 0
  2 * s.aveLen + s.aveNode 10 * max 160 ((dring + 22 + 7) / 8)

/-- A cold-start node starts its listening. -/
def startListening (s : State) : State :=
  if s.flag Fld.AVE_ID_COLD then s.setAve { s.ave with timeoutAt := some (s.cycle + s.listenTime) } else s

/-- Start-up begins at the first entry to COMMISSION after reset (R188). -/
def aveBegin (s : State) : State :=
  if s.ave.begun then s
  else ((s.setAve { s.ave with begun := true }).setAveState 1).startListening

/-- The counter is started or set: its cycle start lies at `at`. A phase move (R165). -/
def setCycleStart (s : State) (at' : Nat) : State :=
  (s.setAve { s.ave with started := true, cycleStart := at', len := s.aveLen }).phaseMove

/-- The signed rate of R196, held in AVE_OFFSET. -/
def aveRate (s : State) : Int := toSigned 24 (s.fld Fld.AVE_OFFSET_RATE)

end State

/-- Clamp to a range. -/
def clampInt (lo hi x : Int) : Int := max lo (min hi x)

namespace State

/-- What R196 makes of the accumulator at a rate: its new value and adj. -/
def correction (s : State) (rate : Int) : Int × Int :=
  let acc := s.ave.acc + rate * (s.aveLen : Int)
  (acc - acc / 2 ^ 30 * 2 ^ 30, acc / 2 ^ 30)

/-- Length of a cycle that is corrected by an amount. -/
def corrected (s : State) (adj : Int) : Nat := ((s.aveLen : Int) + clampInt (-8) 8 adj).toNat

/-- A valid message with an offset corrects the current cycle (R196). -/
def correct (s : State) (off : Int) : State :=
  let rate := clampInt (-214748) 214748 (s.aveRate + off * 2 ^ 28 / (s.aveLen : Int))
  let c := s.correction rate
  (((s.setAve { s.ave with acc := c.1 }).setAveLen (s.corrected (c.2 + off))).setFld Fld.AVE_OFFSET_RATE
    (ofSigned 24 rate)).setFld Fld.AVE_OFFSET_OFF (ofSigned 8 off)

/-- The length of a cycle as it stands until a valid message comes: adj alone, and none on the master. -/
def expectLen (s : State) : State :=
  if s.flag Fld.AVE_STAT_MASTER then s.setAveLen s.aveLen
  else s.setAveLen (s.corrected (s.correction s.aveRate).2)

/-- A cycle without a valid message ends: adj alone is taken from the accumulator. -/
def endUncorrected (s : State) : State :=
  if s.flag Fld.AVE_STAT_MASTER || s.ave.seen then s
  else s.setAve { s.ave with acc := (s.correction s.aveRate).1 }

/-! ### The ring map (R205) -/

/-- The map in force: this chip alone while no port is UP. -/
def ringMap (s : State) : List RingChip :=
  if s.ave.map.isEmpty then
    [{ chip := s.chip, medium := 0, linked := false, cold := s.flag Fld.AVE_ID_COLD, rank := s.fld Fld.AVE_ID_RANK }]
  else s.ave.map

/-- A chip is in the ring map. -/
def chipInMap (s : State) (c : Nat) : Bool := s.ringMap.any fun x => x.chip == c

/-- Sum of the hop delays of `n` links from position `i` of the ring onward. -/
def hopSum (m : List RingChip) (i : Nat) : Nat → Nat
  | 0 => 0
  | n + 1 => (match m[i % m.length]? with | some x => 96 + x.medium | none => 0) + hopSum m (i + 1) n

/-- Path delay P of a message of chip `c` that arrives on W0 (`port` 0), on W1 (1) or on this chip (R206). -/
def pathDelay (s : State) (c port : Nat) : Nat :=
  let m := s.ringMap
  let i := m.findIdx fun x => x.chip == c
  let j := m.findIdx fun x => x.chip == s.chip
  if port = 0 then hopSum m i ((j + m.length - i) % m.length)
  else if port = 1 then hopSum m j ((i + m.length - j) % m.length)
  else 0

/-- This chip's number is carried by another chip of the map too (R205). -/
def chipDoubled (s : State) : Bool :=
  s.flag Fld.AVE_STAT_CHIP_DUP && decide (2 ≤ (s.ringMap.filter fun x => x.chip == s.chip).length)

/-- No chip cold-starts with COLD_EXCESS, and a chip whose number another carries does not integrate (R205). -/
def coldBarred (s : State) : Bool := s.flag Fld.AVE_STAT_COLD_EXCESS || s.chipDoubled

/-- AVE_RING_STAT and the flags of AVE_STAT follow a map (R205). -/
def showMap (s : State) (m : List RingChip) (complete broken : Bool) : State :=
  let s := s.setAve { s.ave with map := m }
  let s := s.setFld Fld.AVE_RING_STAT_DRING ((m.filter (·.linked)).map fun x => 96 + x.medium).sum
  let s := s.setFld Fld.AVE_RING_STAT_NCHIPS m.length
  let s := s.setFlag Fld.AVE_RING_STAT_COMPLETE complete
  let s := s.setFlag Fld.AVE_RING_STAT_BROKEN broken
  let cold := (m.filter (·.cold)).length
  let s := s.setFld Fld.AVE_RING_STAT_COLD_CNT (min 3 cold)
  let s := s.setFlag Fld.AVE_STAT_COLD_EXCESS (decide (3 < cold))
  s.setFlag Fld.AVE_STAT_CHIP_DUP (decide ((m.map (·.chip)).dedup.length < m.length))

/-! ### The ring schedule (R187) -/

/-- CRC-32C (entry 1 of Table ISA-10) of a list of bytes. -/
def crc32c (bs : List Nat) : Nat :=
  (bs.foldl (fun c b => Alu.crcStep 32 true 0x1EDC6F41 c b) 0xFFFFFFFF) ^^^ 0xFFFFFFFF

/-- Little-endian bytes of a word. -/
def wordBytes (w : Word) : List Nat := (List.range 4).map fun i => w.toNat / 256 ^ i % 256

/-- RCRC over AVE_SCHED and the ring-scope slots. -/
def rcrc (s : State) : Nat :=
  crc32c (wordBytes (s.reg Reg.AVE_SCHED) ++
    (List.range (s.fld Fld.AVE_SCHED_NSTATIC)).flatMap fun k =>
      if s.flag (Fld.AVE_SLOT_SCOPE k) then wordBytes (s.reg (Reg.AVE_SLOT k)) else [])

/-! ### Spare slots (R199–R202) -/

/-- The spare slots of the live schedule, ascending. -/
def spareSlots (s : State) : List Nat :=
  (List.range (s.fld Fld.AVE_SCHED_NSTATIC)).filter fun k => s.flag (Fld.AVE_SLOT_SPARE k)

/-- The spare table of the live schedule with the owners of a table. -/
def spareTable (s : State) (t : List SpareEntry) : List SpareEntry :=
  s.spareSlots.map fun k => { slot := k, valid := true, owner := spareOwner t k }

/-- An owner entered for a slot. -/
def setOwner (t : List SpareEntry) (k o : Nat) : List SpareEntry :=
  t.map fun x => if x.slot = k then { x with owner := o } else x

/-- The master's evaluation of one release: it frees the slot if the releasing chip's node owns it. -/
def evalRelease (t : List SpareEntry) (c : Claim) : List SpareEntry :=
  if spareOwner t c.slot = c.node then setOwner t c.slot 0xFF else t

/-- The master's evaluation of one claim: a named slot that is free, or the lowest free spare. -/
def evalClaim (t : List SpareEntry) (c : Claim) : List SpareEntry :=
  if c.slot = 0x3F then
    match t.find? fun x => x.owner == 0xFF with
    | some x => setOwner t x.slot c.node
    | none => t
  else if (t.any fun x => x.slot == c.slot && x.owner == 0xFF) then setOwner t c.slot c.node
  else t

/-- Releases first, then claims in ascending claimant node ID. -/
def evalClaims (t : List SpareEntry) (cs : List Claim) : List SpareEntry :=
  let t1 := (cs.filter (·.release)).foldl evalRelease t
  ((cs.filter fun c => !c.release).insertionSort fun a b => a.node ≤ b.node).foldl evalClaim t1

/-- AVE_SPARE_OWN mirrors the table held (R202). -/
def mirrorSpare (s : State) (t : List SpareEntry) : State :=
  (List.range 16).foldl (fun s i =>
    match t[i]? with
    | some x =>
      s.setReg (Reg.AVE_SPARE_OWN i) (BitVec.ofNat 32 (x.slot % 64 + 64 * bit x.valid + 256 * (x.owner % 256)))
    | none => s.setReg (Reg.AVE_SPARE_OWN i) 0xFF00) s

/-- The outcome of this chip's claim. -/
def claimResult (s : State) (code slot : Nat) : State :=
  let s := s.setAve { s.ave with claim := none }
  let s := s.setFld Fld.AVE_CLAIM_STAT_RESULT code
  let s := s.setFld Fld.AVE_CLAIM_STAT_SLOT slot
  s.setFlag Fld.AVE_CLAIM_STAT_DONE true

/-- This chip's claim is completed from a reference message with its CLAIMS_SEEN bit set (R201). -/
def completeClaim (s : State) (m : RefMsg) : State :=
  match s.ave.claim with
  | some q =>
    if q.sent.isSome ∧ m.claimsSeen.testBit s.chip then
      if q.claim.release then s.claimResult Code.ok q.claim.slot
      else if q.claim.slot = 0x3F then
        match m.spare.find? fun x => x.owner == q.claim.node && spareOwner s.ave.spareNow x.slot != q.claim.node with
        | some x => s.claimResult Code.ok x.slot
        | none => s.claimResult Code.noResource 0
      else if spareOwner m.spare q.claim.slot = q.claim.node then s.claimResult Code.ok q.claim.slot
      else s.claimResult Code.busy 0
    else s
  | none => s

/-- A reference message is held: its table is mirrored, this chip's claim may complete, and RING_MISMATCH
tells whether the schedules agree (R187, R201, R202). -/
def holdRef (s : State) (m : RefMsg) : State :=
  let s := s.setAve { s.ave with held := some m, seen := true }
  let s := s.completeClaim m
  let s := s.mirrorSpare m.spare
  s.setFlag Fld.AVE_STAT_RING_MISMATCH (m.rcrc != s.rcrc)

end State

end Sys2Proof.Machine
end

