-- ==== Sys2Proof/Machine/Txn.lean ====
section
/-!
DEFINITION. What every configuration transaction shares (R70–R76): the registers a unit shadows, the verb
and outcome registers, the lease, rolling back and applying a shadow. The units' own validation and what
follows an application stand with the units.
-/

namespace Sys2Proof.Machine

/-- The unit's *_TXN_CTRL register; *_TXN_STAT follows it (R70). -/
def txnCtrl : TxnUnit → Nat
  | .xing => Reg.XING_TXN_CTRL
  | .ave => Reg.AVE_TXN_CTRL
  | .rnd d => Reg.RND_TXN_CTRL d
  | .eth n => Reg.ETH_TXN_CTRL n
  | .sru d => Reg.SRU_TXN_CTRL d

/-- DISTRICT and INDEX of the transaction's lease (Table MODE-19). -/
def txnLease : TxnUnit → Nat × Nat
  | .xing => (0, 0)
  | .ave => (0, 0x010000)
  | .rnd d => (d, 0x020000)
  | .eth n => (0, 0x030000 + n)
  | .sru d => (d, 0x040000)

/-- The unit and instance that a TYPE 0x8 lease names. -/
def txnOfLease (district index : Nat) : TxnUnit :=
  if index = 0 then .xing
  else if index = 0x010000 then .ave
  else if index = 0x020000 then .rnd district
  else if index = 0x040000 then .sru district
  else .eth (index % 256)

/-- The instance is present on this part. -/
def txnPresent (v : Variant) : TxnUnit → Bool
  | .xing => true
  | .ave => true
  | .rnd d => decide (d < v.districts)
  | .eth n => v.hasPort n
  | .sru d => v.hasSru && decide (d < v.districts)

/-- A register offset lies in a block. -/
def inBlock (a lo len : Nat) : Bool := decide (lo ≤ a ∧ a < lo + len)

/-- The register is a configuration register that the unit's transaction shadows (R184, R217, R163, R259,
R418). -/
def txnCovers : TxnUnit → Nat → Bool
  | .xing, a => a == Reg.XING_BUF_CFG || a == Reg.XING_ALLEY
  | .ave, a =>
    a == Reg.AVE_SCHED || a == Reg.AVE_APPLY || a == Reg.AVE_ID || inBlock a (Reg.AVE_SLOT 0) 0x100 ||
      (inBlock a 0x601000 0x800 && (a % 0x100 < 0x0C || inBlock (a % 0x100) 0x40 0x20))
  | .rnd d, a =>
    a == Reg.RND_PERIOD d || inBlock a (Reg.RND_BIND_ETH0 d) 0xC || inBlock a (Reg.RND_SLICE d 16) 0x80 ||
      inBlock a (Reg.RND_COMMON_CFG d 0) 0x40 || inBlock a (Reg.RND_LOCK d 0) 0x100
  | .eth n, a => a == Reg.ETH_CFG n || a == Reg.ETH_PLCA n || a == Reg.ETH_HOLD n || a == Reg.ETH_THRU n
  | .sru d, a =>
    a == Reg.SRU_EXPORT d || a == Reg.SRU_MINDT d || inBlock a (Reg.SRU_IN d 0) 0x20 ||
      inBlock a (Reg.SRU_PS_W0 d 0) 0x400

/-- The transaction that shadows a register, if one does. -/
def txnAt (a : Nat) : Option TxnUnit :=
  if 0x300000 ≤ a ∧ a < 0x400000 then (if txnCovers .xing a then some .xing else none)
  else if 0x400000 ≤ a ∧ a < 0x422000 then
    (if txnCovers (.eth ((a - 0x400000) / 0x1000)) a then some (.eth ((a - 0x400000) / 0x1000)) else none)
  else if 0x600000 ≤ a ∧ a < 0x700000 then (if txnCovers .ave a then some .ave else none)
  else if 0x1000000 ≤ a ∧ a < 0x1800000 then
    let d := (a - 0x1000000) / 0x100000
    if txnCovers (.rnd d) a then some (.rnd d) else if txnCovers (.sru d) a then some (.sru d) else none
  else none

namespace State

/-! ### Verb and outcome -/

/-- STATE of a transaction: 0 IDLE, 1 OPEN, 2 APPLYING. -/
def txnState (s : State) (u : TxnUnit) : Nat := fieldGet (s.reg (txnCtrl u)) 2 2

/-- Identity of the holder. -/
def txnHolder (s : State) (u : TxnUnit) : Ident := BitVec.ofNat 16 (fieldGet (s.reg (txnCtrl u)) 16 16)

/-- STATE and HOLDER written; VERB reads 0. -/
def setTxn (s : State) (u : TxnUnit) (state : Nat) (holder : Ident) : State :=
  s.setReg (txnCtrl u) (BitVec.ofNat 32 (state * 4 + holder.toNat * 65536))

/-- The outcome of a verb. -/
def txnResult (s : State) (u : TxnUnit) (who : Ident) (code : Nat) : State :=
  (s.setReg (txnCtrl u + 4) (BitVec.ofNat 32 (code + who.toNat * 65536))).countCode who code

/-- A transaction of any unit is open: OPEN or APPLYING (R70). -/
def anyTxnOpen (s : State) : Bool :=
  s.txnState .xing != 0 || s.txnState .ave != 0 ||
    (List.range 8).any (fun d => s.txnState (.rnd d) != 0 || s.txnState (.sru d) != 0) ||
    (List.range 34).any fun n => s.txnState (.eth n) != 0

/-! ### Shadows (R73) -/

/-- The shadow's value of a register, or the live one where the holder has written none. -/
def shadowReg (s : State) (a : Nat) : Word := (Store.get (fun _ => none) s.shadow a).getD (s.reg a)

/-- A shadowed register written. -/
def setShadow (s : State) (a : Nat) (v : Word) : State :=
  { s with shadow := Store.set (fun _ => none) s.shadow a (some v) }

/-- A field of the shadow. -/
def shadowFld (s : State) (f : Fld) : Nat := fieldGet (s.shadowReg f.reg) f.lo f.width

/-- The unit's shadow without its contents. -/
def clearShadow (s : State) (u : TxnUnit) : State :=
  { s with shadow := s.shadow.filter fun p => !txnCovers u p.1 }

/-- The unit's shadow becomes live. -/
def applyShadow (s : State) (u : TxnUnit) : State :=
  (s.shadow.foldl (fun s p =>
    if txnCovers u p.1 then (match p.2 with | some v => s.setReg p.1 v | none => s) else s) s).clearShadow u

/-! ### Ends -/

/-- The transaction becomes IDLE and its lease is released. -/
def closeTxn (s : State) (u : TxnUnit) : State :=
  (s.setTxn u 0 0).dropLease 8 (txnLease u).1 (txnLease u).2

/-- The end of an application: the final OK is written where RESULT still holds the COMMIT's PENDING (R75). -/
def endApply (s : State) (u : TxnUnit) : State :=
  let who := s.txnHolder u
  let stat := s.reg (txnCtrl u + 4)
  let s1 := s.closeTxn u
  if stat = BitVec.ofNat 32 (Code.pending + who.toNat * 65536) then s1.txnResult u who Code.ok else s1

end State

end Sys2Proof.Machine
end

