-- ==== Sys2Proof/Machine/ModeOps.lean ====
section
/-!
DEFINITION. The outcome of mode commands (R62–R66), shared by the commands and the events that finish them.
-/

namespace Sys2Proof.Machine

namespace State

/-- SYS_MODE_RESULT written for a command; every outcome raises the mode-result vector (R65). -/
def modeResult (s : State) (who : Ident) (tag code : Nat) (done : Bool) : State :=
  ((((s.setFld Fld.SYS_MODE_RESULT_CODE code).setFld Fld.SYS_MODE_RESULT_TAG tag).setFlag
    Fld.SYS_MODE_RESULT_DONE done).countCode who code).raiseIrq 0

/-- A mode command is taken up: PENDING, and CMD_BUSY stands until its end (R64, R65). -/
def beginMode (s : State) (c : ModeCmd) : State :=
  ({ s with modeCmd := some c }.setFlag Fld.SYS_MODE_CMD_BUSY true).modeResult c.who c.tag Code.pending false

/-- The end of the mode command in progress, with its final code. -/
def endMode (s : State) (code : Nat) : State :=
  match s.modeCmd with
  | some c =>
    ({ s with modeCmd := none }.setFlag Fld.SYS_MODE_CMD_BUSY false).modeResult c.who c.tag code true
  | none => s

/-- RUN, or DEGRADED while a twin is missing (R45, R47). -/
def runMode (s : State) : Nat := if s.flag Fld.SYS_MODE_TWIN_MISSING then Mode.degraded else Mode.run

end State

end Sys2Proof.Machine
end

