-- ==== Sys2Proof/Machine/Time.lean ====
section
/-!
DEFINITION. The time base: domains and their servo, line time, the district repeaters, the time-stamp queues,
the PPS inputs and the pulse outputs (R340–R367), and the loss of the TCLK domain (R354).
-/

namespace Sys2Proof.Machine

/-! ### Time values (R340) -/

namespace Instant

/-- One nanosecond, one second, and the modulus of SEC. -/
def nano : Nat := 2 ^ 48
def second : Nat := 1000000000 * nano
def modulus : Nat := 2 ^ 48 * second

/-- A value of SEC, NS and SUB. -/
def mk (sec ns sub : Nat) : Instant := (sec * second + ns * nano + sub * 2 ^ 32) % modulus

/-- The parts of a value. -/
def sec (t : Instant) : Nat := t / second
def ns (t : Instant) : Nat := t / nano % 1000000000
def sub (t : Instant) : Nat := t / 2 ^ 32 % 2 ^ 16

/-- A value moved by a signed offset, in units of 2^-48 ns, wrapping. -/
def shift (t : Instant) (d : Int) : Instant := ((t + d) % (modulus : Int)).toNat

/-- A value in quarter nanoseconds, modulo 2^32 s (Table TIME-13). -/
def quarters (t : Instant) : Nat := t / 2 ^ 46 % (4000000000 * 2 ^ 32)

end Instant

/-- Quarter nanoseconds in a second and the modulus of a repeater (R357). -/
def qnsSecond : Nat := 4000000000
def repeaterModulus : Nat := qnsSecond * 2 ^ 32

/-- Limit of RATE and of the servo integral: 1,000 ppm (R341). -/
def rateLimit : Int := 281474976711

/-- Cycles of FCLK in a number of microseconds. -/
def usCycles (us : Nat) : Nat := us * 800

/-- A domain none of whose state has changed. -/
def domainDflt (_ : Nat) : Domain := {}

namespace State

/-- The time base replaced. -/
def setTb (s : State) (t : TimeBase) : State := { s with tb := t }

/-- Domain `x`: 0 A, 1 B. -/
def dom (s : State) (x : Nat) : Domain := Store.get domainDflt s.tb.domains x

/-- Domain `x` replaced; RATE is shown in its registers (Table TIME-11). -/
def setDom (s : State) (x : Nat) (d : Domain) : State :=
  let s := s.setTb { s.tb with domains := Store.set domainDflt s.tb.domains x d }
  (s.setReg (Reg.TIME_DOM_RATE_LO x) (BitVec.ofInt 32 d.rate)).setReg (Reg.TIME_DOM_RATE_HI x)
    (BitVec.ofNat 32 (ofSigned 40 d.rate / 2 ^ 32))

/-- STATE of a domain: 0 OFF, 1 UNSET, 2 SET. -/
def domState (s : State) (x : Nat) : Nat := s.fld (Fld.TIME_DOM_STAT_STATE x)

/-- The active domain. -/
def activeDom (s : State) : Nat := s.fld Fld.TIME_STAT_ACTIVE

/-- The other of two domains. -/
def otherDom (x : Nat) : Nat := 1 - x

/-- ACTIVE of the domains: the active one drives line time unless it is OFF (R350, Table TIME-10). -/
def showActive (s : State) : State :=
  [0, 1].foldl (fun s x => s.setFlag (Fld.TIME_DOM_STAT_ACTIVE x) (s.activeDom == x && s.domState x != 0)) s

/-- A domain made active (R351). -/
def setActive (s : State) (x : Nat) : State := (s.setFld Fld.TIME_STAT_ACTIVE x).showActive

/-- A change of LOCKED or HOLDOVER is told to the supervisor (R348). -/
def setLocked (s : State) (x : Nat) (b : Bool) : State :=
  if s.flag (Fld.TIME_DOM_STAT_LOCKED x) = b then s
  else (s.setFlag (Fld.TIME_DOM_STAT_LOCKED x) b).notify .timeBase

/-- HOLDOVER set or cleared; entering it clears LOCKED and may lead to a switch (R348, R351). -/
def setHoldover (s : State) (x : Nat) (b : Bool) : State :=
  if s.flag (Fld.TIME_DOM_STAT_HOLDOVER x) = b then s
  else
    let s1 := (s.setFlag (Fld.TIME_DOM_STAT_HOLDOVER x) b).notify .timeBase
    if b then
      let s2 := s1.setLocked x false
      if s2.activeDom = x then s2.setTb { s2.tb with switchDue := true } else s2
    else s1

/-! ### Live configuration of a domain (R349) -/

/-- Fields of the configuration in force. -/
def liveSrc (s : State) (x : Nat) : Nat := fieldGet (s.dom x).live 0 2
def liveAutoStep (s : State) (x : Nat) : Bool := fieldGet (s.dom x).live 2 1 == 1
def liveKp (s : State) (x : Nat) : Nat := fieldGet (s.dom x).live 3 4
def liveKi (s : State) (x : Nat) : Nat := fieldGet (s.dom x).live 7 4
def liveLockNs (s : State) (x : Nat) : Nat := fieldGet (s.dom x).live 11 16
def liveMissLimit (s : State) (x : Nat) : Nat := fieldGet (s.dom x).live 27 4

/-- The written configuration takes effect: a change of SRC clears LOCKED, integ and GOOD; OFFSET is 0 for
SOFTWARE (Table TIME-11). -/
def applyDomCfg (s : State) (x : Nat) : State :=
  let w := s.reg (Reg.TIME_DOM_CFG x)
  let d := s.dom x
  if fieldGet w 0 2 = fieldGet d.live 0 2 then s.setDom x { d with live := w }
  else
    let s1 := ((s.setDom x { d with live := w, integ := 0, since := s.cycle, measured := false }).setLocked x false).setFld
      (Fld.TIME_DOM_STAT_GOOD x) 0
    if fieldGet w 0 2 = 0 then s1.setReg (Reg.TIME_DOM_OFFSET x) 0 else s1

/-! ### Line time (R350) -/

/-- TCLK is lost (R354). -/
def tclkLost (s : State) : Bool := s.flag Fld.TIME_STAT_TCLK_LOST

/-- Repeater of a district. -/
def repeater (s : State) (d : Nat) : Repeater := Store.get (fun _ => {}) s.tb.repeaters d

/-- A repeater replaced. -/
def setRepeater (s : State) (d : Nat) (r : Repeater) : State :=
  s.setTb { s.tb with repeaters := Store.set (fun _ => {}) s.tb.repeaters d r }

/-- Line time read through a repeater, with the upper part of SEC from the time base (R353). -/
def repeaterTime (s : State) (d : Nat) : Instant :=
  let r := (s.repeater d).value
  Instant.mk (Instant.sec s.tb.line / 2 ^ 32 * 2 ^ 32 + r / qnsSecond) (r % qnsSecond / 4) (r % 4 * 2 ^ 14)

/-- Line time as the users of the time base see it: during a loss of TCLK, what a repeater runs on to (R354). -/
def lineTime (s : State) : Instant := if s.tclkLost then s.repeaterTime 0 else s.tb.line

/-- Difference of the active domain and line time. -/
def slew (s : State) : Int := ((s.dom s.activeDom).value : Int) - (s.tb.line : Int)

/-- SLEWING and EXACT follow the difference. -/
def showSlew (s : State) : State :=
  if s.domState s.activeDom = 0 then
    (s.setFlag Fld.TIME_STAT_SLEWING false).setFlag Fld.TIME_STAT_EXACT false
  else
    (s.setFlag Fld.TIME_STAT_SLEWING (decide ((Instant.nano : Int) < s.slew.natAbs))).setFlag Fld.TIME_STAT_EXACT
      (decide (s.slew = 0))

/-! ### Pulse outputs (R366, R367) -/

/-- Output `k`. -/
def pulseOut (s : State) (k : Nat) : PulseOut := Store.get (fun _ => {}) s.tb.outs k

/-- Output `k` replaced. -/
def setPulseOut (s : State) (k : Nat) (o : PulseOut) : State :=
  s.setTb { s.tb with outs := Store.set (fun _ => {}) s.tb.outs k o }

/-- The first edge of an output's grid from `first` on that is at or after `t`. -/
def gridFrom (first period t : Nat) : Instant :=
  if t ≤ first then first
  else first + (t - first + (period * Instant.nano - 1)) / (period * Instant.nano) * (period * Instant.nano)

/-- The next leading edge lies before `t`: it is missed; a SINGLE output's pulse is lost, and a PERIODIC one
goes on at its first edge at or after `t` (R367). -/
def missEdges (s : State) (k t : Nat) : State :=
  let o := s.pulseOut k
  match o.next with
  | some n =>
    if n < t then
      (s.setPulseOut k { o with next := if o.periodic then some (gridFrom n o.period t) else none }).setFlag
        (Fld.TIME_OUT_CTRL_MISSED k) true
    else s
  | none => s

/-- The balls of the outputs are driven in COMMISSION and later modes (R366). -/
def drivePulse (s : State) (k : Nat) (active : Bool) : State :=
  if s.mode ≤ Mode.load then s else s.emit (.pulse k (active != (s.pulseOut k).activeLow))

/-- A step of line time from `old` passes over edges (R367). Forward, an output whose next edge is passed goes on at
least 1 µs later; backward, a PERIODIC one goes on with the first edge of its grid that is 1 µs ahead. -/
def stepOutputs (s : State) (old : Instant) : State :=
  let later := s.tb.line + 1000 * Instant.nano
  (List.range 4).foldl (fun s k =>
    let o := s.pulseOut k
    match o.next with
    | some n =>
      if n ≤ s.tb.line then s.missEdges k later
      else if s.tb.line < old ∧ o.periodic then
        let s1 := s.setPulseOut k { o with next := some (gridFrom o.start o.period later) }
        if gridFrom o.start o.period s.tb.line < later then s1.setFlag (Fld.TIME_OUT_CTRL_MISSED k) true else s1
      else s
    | none => s) s

/-! ### Steps (R343, R350) -/

/-- Line time is placed at a value: a step of line time. -/
def stepLine (s : State) (t : Instant) : State :=
  ((s.setTb { s.tb with line := t, stepDue := true }).countWrap Fld.TIME_STAT_LINE_STEPS).stepOutputs s.tb.line

/-- R343 permits a step of domain `x`. -/
def mayStep (s : State) (x : Nat) : Bool :=
  s.domState x == 1 && !(s.activeDom == x && decide (Mode.run ≤ s.mode))

/-- The domain steps by an offset and becomes SET; line time steps with the active domain. -/
def stepDomain (s : State) (x : Nat) (d : Int) : State :=
  let s1 := (s.setDom x { s.dom x with value := Instant.shift (s.dom x).value d }).setFld
    (Fld.TIME_DOM_STAT_STATE x) 2
  if s.activeDom = x then s1.stepLine (Instant.shift s1.tb.line d) else s1

/-! ### Measurements (R345–R348) -/

/-- TIME_DOM_OFFSET: whole nanoseconds, saturating. -/
def showOffset (s : State) (x : Nat) (off : Int) : State :=
  s.setReg (Reg.TIME_DOM_OFFSET x)
    (BitVec.ofInt 32 (max (-2147483647) (min 2147483647 (off.tdiv Instant.nano))))

/-- The servo of R347: the fractional frequency `f` corrects the integral and the rate. -/
def servo (s : State) (x : Nat) (f : Int) : State :=
  let d := s.dom x
  let clamp (v : Int) : Int := max (-rateLimit) (min rateLimit v)
  let integ := clamp (d.integ - f.tdiv (2 ^ s.liveKi x))
  s.setDom x { d with integ := integ, rate := clamp (integ - f.tdiv (2 ^ s.liveKp x)) }

/-- LOCKED and GOOD after a measurement that ran the servo (R348). -/
def judgeLock (s : State) (x : Nat) (off : Int) : State :=
  let lim := s.liveLockNs x * Instant.nano
  if off.natAbs ≤ lim then
    let s1 := s.count (Fld.TIME_DOM_STAT_GOOD x)
    if 8 ≤ s1.fld (Fld.TIME_DOM_STAT_GOOD x) then s1.setLocked x true else s1
  else
    let s1 := s.setFld (Fld.TIME_DOM_STAT_GOOD x) 0
    if 4 * lim < off.natAbs then s1.setLocked x false else s1

/-- A measurement of the hardware source `src`: the offset in units of 2^-48 ns, and the interval in quarter
nanoseconds. A configuration written meanwhile takes effect first, and one that names another source ends
the matter. -/
def measure (s0 : State) (x src : Nat) (off : Int) (interval : Nat) : State :=
  if s0.domState x = 0 ∨ s0.liveSrc x ≠ src then s0
  else
    let s := s0.applyDomCfg x
    if s.liveSrc x ≠ src then s
    else
      let s := ((s.setFld (Fld.TIME_DOM_STAT_MISS x) 0).setHoldover x false).showOffset x off
      let first := !(s.dom x).measured
      let s := s.setDom x { s.dom x with measured := true }
      if first && s.liveAutoStep x && s.mayStep x then s.stepDomain x (-off)
      else (s.servo x ((off * 4).tdiv interval)).judgeLock x off

/-- A missing measurement of the hardware source `src` (R347, R348). -/
def missMeasurement (s0 : State) (x src : Nat) : State :=
  if s0.domState x = 0 ∨ s0.liveSrc x ≠ src then s0
  else
    let s := s0.applyDomCfg x
    if s.liveSrc x ≠ src then s
    else
      let s := s.count (Fld.TIME_DOM_STAT_MISS x)
      if s.liveMissLimit x ≤ s.fld (Fld.TIME_DOM_STAT_MISS x) then s.setHoldover x true else s

/-- At a local cycle start, `ago` cycles back, the time base records the domains, read through D0's repeater (R345). -/
def recordDomains (s : State) (ago : Nat) : State :=
  s.setTb { s.tb with recorded := [0, 1].foldl (fun r x =>
    Store.set (fun _ => 0) r x ((s.repeaterTime 0 : Int) - (ago : Int) * 5 * 2 ^ 46 + ((s.dom x).value : Int) -
      (s.tb.line : Int))) s.tb.recorded }

/-- The measurement of a cycle with a valid reference message: its LINE_TIME and the offset of R196. -/
def avenueMeasure (s : State) (t : Instant) (off : Int) : State :=
  [0, 1].foldl (fun s x =>
    s.measure x 1 (Store.get (fun _ => 0) s.tb.recorded x - (t : Int) + off * 5 * 2 ^ 46)
      (s.fld Fld.AVE_SCHED_LEN8 * 8 * 5)) s

/-- The missing measurement of a cycle without one. -/
def avenueMiss (s : State) : State := [0, 1].foldl (fun s x => s.missMeasurement x 1) s

/-! ### Switching (R351) -/

/-- A domain other than the active one becomes active. -/
def switchTo (s : State) (x : Nat) : State :=
  ((s.setActive x).countWrap Fld.TIME_STAT_SWITCHES).notify .timeBase

/-- The automatic switch, in the TCLK cycle after the active domain entered HOLDOVER or OFF. -/
def autoSwitch (s : State) : State :=
  if s.tb.switchDue then
    let s1 := s.setTb { s.tb with switchDue := false }
    if s1.flag Fld.TIME_CFG_AUTO_SWITCH && s1.flag (Fld.TIME_DOM_STAT_LOCKED (otherDom s1.activeDom)) then
      s1.switchTo (otherDom s1.activeDom)
    else s1
  else s

/-! ### The clocks (R341, R350, R357, R358) -/

/-- What a domain adds in a TCLK cycle. -/
def domInc (s : State) (x : Nat) : Int := 4 * Instant.nano + 4 * (s.dom x).rate

/-- A running domain advances. -/
def advanceDom (s : State) (x : Nat) : State :=
  if s.domState x = 0 then s
  else s.setDom x { s.dom x with value := Instant.shift (s.dom x).value (s.domInc x) }

/-- Greatest slew in a TCLK cycle. -/
def slewMax (s : State) : Int := (4 * s.fld Fld.TIME_CFG_SLEW_PPM * 2 ^ 48 / 1000000 : Nat)

/-- What line time adds in a TCLK cycle. -/
def lineInc (s : State) : Int :=
  if s.domState s.activeDom = 0 then 4 * Instant.nano
  else s.domInc s.activeDom + max (-s.slewMax) (min s.slewMax s.slew)

/-- A refresh is sent to every repeater, in advance by the mean latency of 13.625 ns, and arrives after it. -/
def sendRefresh (s : State) (step : Bool) : State :=
  s.setTb { s.tb with
    refreshes := s.tb.refreshes ++
      [{ arrives := s.cycle + 11, value := Instant.quarters (s.tb.line + 109 * 2 ^ 45), step := step }] }

/-- One TCLK cycle. -/
def tclkCycle (s0 : State) : State :=
  let s := s0.autoSwitch
  let s := if s.tb.stepDue then (s.setTb { s.tb with stepDue := false }).sendRefresh true else s
  let line := Instant.shift s.tb.line s.lineInc
  let s := ((s.advanceDom 0).advanceDom 1)
  (s.setTb { s.tb with line := line }).showSlew

/-- A repeater's FCLK cycle: five units on, or stopped until the refreshed value passes. -/
def repeaterCycle (r : Repeater) : Repeater :=
  match r.held with
  | none => { r with value := (r.value + 5) % repeaterModulus }
  | some h =>
    if r.value < h + 5 then { value := (h + 5) % repeaterModulus, held := none }
    else { r with held := some (h + 5) }

/-- A refresh reaches a repeater. -/
def takeRefresh (v : Nat) (step : Bool) (r : Repeater) : Repeater :=
  if step || decide (r.value ≤ v) then { value := v, held := none } else { r with held := some v }

/-- A function over every repeater: the districts' and, as number 8, the image controller's (R380). -/
def mapRepeaters (s : State) (f : Repeater → Repeater) : State :=
  (List.range s.variant.districts ++ [8]).foldl (fun s d => s.setRepeater d (f (s.repeater d))) s

/-- Refreshes that arrive in this cycle reach the repeaters. -/
def takeRefreshes (s : State) : State :=
  let due := s.tb.refreshes.filter fun r => decide (r.arrives ≤ s.cycle)
  let s1 := s.setTb { s.tb with refreshes := s.tb.refreshes.filter fun r => decide (s.cycle < r.arrives) }
  due.foldl (fun s r => s.mapRepeaters (takeRefresh r.value r.step)) s1

/-- The time base's part of one FCLK cycle: the repeaters advance, and TCLK cycles follow as 5 of its 16
quarter nanoseconds pass (log entry 1). -/
def timeCycle (s : State) : State :=
  let s := (s.mapRepeaters repeaterCycle).takeRefreshes
  let p := s.tb.phase + 5
  if s.tclkLost then s
  else if 16 ≤ p then (s.setTb { s.tb with phase := p - 16 }).tclkCycle
  else s.setTb { s.tb with phase := p }

/-! ### Time-stamp queues (R361–R364) -/

/-- Queue of district `d`. -/
def tsqOf (s : State) (d : Nat) : Tsq := Store.get (fun _ => {}) s.tb.tsq d

/-- Queue of district `d` replaced. -/
def setTsq (s : State) (d : Nat) (q : Tsq) : State :=
  s.setTb { s.tb with tsq := Store.set (fun _ => {}) s.tb.tsq d q }

/-- HOLDOVER of an entry (Table TIME-16). -/
def stampHoldover (s : State) : Bool :=
  !s.flag (Fld.TIME_DOM_STAT_LOCKED s.activeDom) || s.flag (Fld.TIME_DOM_STAT_HOLDOVER s.activeDom) || s.tclkLost

/-- A push is offered to the queue of district `d`; answers whether it was written. A dropped one takes a PUSH
number too, counts and fires TSQ_OVF (R363). -/
def tsqPush (s : State) (d kind index cnt qns sec : Nat) (corr : Bool) : State × Bool :=
  let q := s.tsqOf d
  let n := q.push
  if s.fld (Fld.TSQ_STAT_COUNT d) < 1024 then
    let t := s.fld (Fld.TSQ_STAT_TAIL d)
    let w3 := n + 2 ^ 16 * bit corr + 2 ^ 17 * s.activeDom + 2 ^ 18 * bit s.stampHoldover +
      2 ^ 19 * s.fld Fld.TIME_STAT_SLEWING
    let s1 := s.setTsq d {
      push := (n + 1) % 2 ^ 16
      entries := Store.setList (fun _ => 0) q.entries (t * 4)
        [BitVec.ofNat 32 qns, BitVec.ofNat 32 sec, BitVec.ofNat 32 (kind + 2 ^ 8 * index + 2 ^ 16 * cnt),
          BitVec.ofNat 32 w3] }
    ((s1.setFld (Fld.TSQ_STAT_TAIL d) (t + 1)).setFld (Fld.TSQ_STAT_COUNT d)
      (s.fld (Fld.TSQ_STAT_COUNT d) + 1), true)
  else
    (((s.setTsq d { q with push := (n + 1) % 2 ^ 16 }).count (Fld.TSQ_OVF_DROPS d)).fireDistrict 0x16 0 d, false)

/-- A hardware push: the repeater's value less the path latency `u` of the source (R362). -/
def tsqHardware (s : State) (d kind index cnt u : Nat) : State × Bool :=
  let t := ((s.repeater d).value + repeaterModulus - u) % repeaterModulus
  s.tsqPush d kind index cnt (t % qnsSecond) (t / qnsSecond) true

/-! ### Loss of TCLK (R354) -/

/-- TCLK loses lock: the domains stop, refreshes under way are lost, and the outputs take their inactive level. -/
def tclkLoss (s : State) : State :=
  if s.tclkLost then s
  else
    let s := (((s.setFld (Fld.TIME_DOM_STAT_STATE 0) 0).setFld (Fld.TIME_DOM_STAT_STATE 1) 0).setFlag
      Fld.TIME_STAT_TCLK_LOST true).showActive
    let s := s.setTb { s.tb with refreshes := [], stepDue := false, switchDue := false }
    let s := (List.range 4).foldl (fun s k =>
      if (s.pulseOut k).trail.isSome then (s.setPulseOut k { s.pulseOut k with trail := none }).drivePulse k false
      else s) s
    s.showSlew

/-- A domain after the return of TCLK: UNSET, at line time, with its RATE and integ. The missing measurements that
fell while it was OFF are past; those of a PPS source go on at every 1.001 s. -/
def restoreDom (s : State) (x : Nat) : State :=
  let d := s.dom x
  let gap := usCycles 1001000
  let since := if 2 ≤ s.liveSrc x then d.since + (s.cycle - d.since) / gap * gap else d.since
  ((s.setDom x { d with value := s.tb.line, since := since, measured := false }).setFld (Fld.TIME_DOM_STAT_STATE x) 1).showActive

/-- TCLK lock returns: line time resumes from D0's repeater, 20.5 ns on. -/
def tclkReturn (s : State) : State :=
  let t := (s.repeaterTime 0 + 41 * 2 ^ 47) % Instant.modulus
  let s := (s.setTb { s.tb with line := t, phase := 0, refreshAt := s.cycle }).setFlag Fld.TIME_STAT_TCLK_LOST false
  let s := (List.range 4).foldl (fun s k => s.missEdges k (s.tb.line + 1)) s
  ((s.restoreDom 0).restoreDom 1).showSlew

/-! ### Commands (R355) -/

/-- The outcome of a time command. -/
def timeResult (s : State) (who : Ident) (tag code : Nat) : State :=
  (((s.setFld Fld.TIME_CMD_RES_RESULT code).setFld Fld.TIME_CMD_RES_TAG tag).setFlag
    Fld.TIME_CMD_RES_DONE true).countCode who code

/-- A write of TIME_CMD: executed when DONE is 1 and no other was in this cycle. `codes` are the refusals in the order of
R18; with TCLK lost a BAD_ARG among them comes first, and otherwise the command is WRONG_STATE. -/
def timeCommand (s : State) (who : Ident) (tag : Nat) (codes : List (Bool × Nat)) (body : State → State) : State :=
  s.oneAtATime Reg.TIME_CMD (!s.flag Fld.TIME_CMD_RES_DONE) Fld.TIME_CMD_RES_LOST fun s =>
    let c := firstCode codes
    let c := if s.tclkLost && c != Code.badArg then Code.wrongState else c
    if c = Code.ok then (body s).timeResult who tag c else s.timeResult who tag c

/-- An argument register. -/
def timeArg (s : State) (i : Nat) : Nat := (s.reg (Reg.TIME_ARG i)).toNat

/-- The time value of INIT's arguments (Table TIME-3). -/
def initValue (s : State) : Instant :=
  Instant.mk (s.timeArg 1 + 2 ^ 32 * (s.timeArg 2 % 2 ^ 16)) (s.timeArg 0 % 2 ^ 30) 0

/-- The offset of STEP's arguments: signed whole nanoseconds plus an unsigned SUB, in units of 2^-48 ns. -/
def stepOffset (s : State) : Int :=
  toSigned 64 (s.timeArg 0 + 2 ^ 32 * s.timeArg 1) * 2 ^ 48 + (s.timeArg 2 % 2 ^ 16 * 2 ^ 32 : Nat)

/-- The rate of RATE's arguments. -/
def rateArg (s : State) : Int := toSigned 40 (s.timeArg 0 + 2 ^ 32 * (s.timeArg 1 % 2 ^ 8))

/-- INIT's effect (R342, R350). -/
def initDomain (s : State) (x : Nat) : State :=
  let off := s.domState x = 0
  let v := s.initValue
  let s := ((s.setDom x { s.dom x with value := v, rate := 0, integ := 0, since := s.cycle, measured := false }).setFld
    (Fld.TIME_DOM_STAT_STATE x) 1).showActive
  let s := (s.setLocked x false).setHoldover x false
  let s := (s.setFld (Fld.TIME_DOM_STAT_GOOD x) 0).setFld (Fld.TIME_DOM_STAT_MISS x) 0
  let s := if s.activeDom = x ∧ off then (s.stepLine v).setFlag Fld.TIME_STAT_FREE false else s
  s.showSlew

/-- A snapshot of a time value (Table TIME-12). -/
def snapshot (s : State) (v : Nat) (t : Instant) : State :=
  (((s.setReg (Reg.TIME_SNAP_SEC_LO v) (BitVec.ofNat 32 (Instant.sec t))).setReg (Reg.TIME_SNAP_SEC_HI v)
    (BitVec.ofNat 32 (Instant.sec t / 2 ^ 32))).setReg (Reg.TIME_SNAP_NS v) (BitVec.ofNat 32 (Instant.ns t))).setReg
    (Reg.TIME_SNAP_SUB v) (BitVec.ofNat 32 (Instant.sub t))

/-- A domain as SNAP sees it: an OFF one is 0. -/
def domSnap (s : State) (x : Nat) : Instant := if s.domState x = 0 then 0 else (s.dom x).value

end State

/-! ### The commands -/

/-- INIT (R342): a domain takes a value and becomes UNSET. -/
def execTimeInit (x tag : Nat) (who : Ident) (s : State) : Answer :=
  .next (s.served who fun s => (s.timeCommand who tag
    [(decide (999999999 < s.timeArg 0 % 2 ^ 30), Code.badArg),
      (s.activeDom == x && s.domState x != 0, Code.wrongState)]
    fun s => s.initDomain x))

/-- STEP (R343). -/
def execTimeStep (x tag : Nat) (who : Ident) (s : State) : Answer :=
  .next (s.served who fun s => (s.timeCommand who tag [(!s.mayStep x, Code.wrongState)] fun s => (s.stepDomain x s.stepOffset).showSlew))

/-- RATE (R344, R348): the rate of a SOFTWARE domain; it ends a holdover. -/
def execTimeRate (x tag : Nat) (who : Ident) (s : State) : Answer :=
  .next (s.served who fun s => (s.timeCommand who tag
    [(decide (rateLimit < s.rateArg ∨ s.rateArg < -rateLimit), Code.badArg),
      (s.domState x == 0 || s.liveSrc x != 0, Code.wrongState)]
    fun s => (s.setDom x { s.dom x with rate := s.rateArg, since := s.cycle }).setHoldover x false))

/-- LOCK (R348). -/
def execTimeLock (x tag : Nat) (who : Ident) (s : State) : Answer :=
  .next (s.served who fun s => (s.timeCommand who tag
    [(s.domState x == 0 || s.liveSrc x != 0 || s.flag (Fld.TIME_DOM_STAT_HOLDOVER x), Code.wrongState)]
    fun s => s.setLocked x true))

/-- UNLOCK (R348). -/
def execTimeUnlock (x tag : Nat) (who : Ident) (s : State) : Answer :=
  .next (s.served who fun s => (s.timeCommand who tag [(s.domState x == 0 || s.liveSrc x != 0, Code.wrongState)]
    fun s => s.setLocked x false))

/-- SWITCH (R351): no step of line time. -/
def execTimeSwitch (x tag : Nat) (who : Ident) (s : State) : Answer :=
  .next (s.served who fun s => (s.timeCommand who tag [(s.domState x == 0, Code.wrongState)]
    fun s => if s.activeDom = x then s else (s.switchTo x).showSlew))

/-- SNAP (R356, Table TIME-3): line time and both domains are latched. -/
def execTimeSnap (tag : Nat) (who : Ident) (s : State) : Answer :=
  .next (s.served who fun s => (s.timeCommand who tag [] fun s =>
    ((s.snapshot 0 s.tb.line).snapshot 1 (s.domSnap 0)).snapshot 2 (s.domSnap 1)))

/-- TIME_CFG (Table TIME-7): a reserved SLEW_PPM discards the write; a change of TREF_25 is refused outside
LOAD, and in LOAD relocks TCLK, which is a loss of it (R24, R354). -/
def execTimeCfg (v : Word) (who : Ident) (s : State) : Answer :=
  .next (s.served who fun s => (
    let slew := fieldGet v 2 8
    let change := fieldGet v 0 1 != s.fld Fld.TIME_CFG_TREF_25
    if slew = 0 ∨ 200 < slew then s.setFlag Fld.TIME_STAT_CFG_ERR true
    else if change ∧ s.mode ≠ Mode.load then s.wrongState who
    else
      let s1 := s.setReg Reg.TIME_CFG (v &&& 0xFFFF03FF)
      if change then
        (((s1.tclkLoss.setFlag Fld.SYS_CLK_STAT_TCLK_LOCK false).setFlag Fld.SYS_CLK_STAT_TCLK_LOSS true).notify
          (.clockLoss 1))
      else s1))

/-- TIME_DOM_CFG (R349): in force at once while the domain is OFF or its source SOFTWARE, else at its next
measurement. -/
def execTimeDomCfg (x : Nat) (v : Word) (s : State) : Answer :=
  .next (s.live fun s => (
    if fieldGet v 11 16 = 0 ∨ fieldGet v 27 4 = 0 then s.setFlag Fld.TIME_STAT_CFG_ERR true
    else
      let s1 := s.setReg (Reg.TIME_DOM_CFG x) (v &&& 0x7FFFFFFF)
      if s.domState x = 0 ∨ s.liveSrc x = 0 then s1.applyDomCfg x else s1))

/-- SOFTWARE_HOLDOVER_TIMEOUT (R348): MISS_LIMIT × 250 ms without a RATE command. -/
def execSoftwareHoldoverTimeout (x : Nat) (s : State) : Answer :=
  .next (s.live fun s => (
    if s.domState x ≠ 0 ∧ s.liveSrc x = 0 ∧ (s.dom x).since + s.liveMissLimit x * usCycles 250000 ≤ s.cycle then
      s.setHoldover x true
    else s))

/-- EN of input `n` is set: the next edge is valid, and the counting of missing measurements runs from here (R346,
R365). -/
def State.enablePps (s : State) (n : Nat) : State :=
  [0, 1].foldl (fun (s : State) x => if s.liveSrc x = 2 + n then s.setDom x { s.dom x with since := s.cycle } else s)
    (s.setTb { s.tb with pps := Store.set (fun _ => {}) s.tb.pps n {} })

/-- An edge of the selected polarity has crossed to the time base, raised `old` quarter nanoseconds ago (R27): it is
valid as the first after EN was set or 0.999 s after the last valid one; any other is counted in BAD (R365). -/
def State.ppsCross (s : State) (n old : Nat) : State :=
  if s.tclkLost || !s.flag (Fld.TIME_PPS_CFG_EN n) then s
  else
    let p := Store.get (fun _ => {}) s.tb.pps n
    let at' := s.cycle - old / 5
    let late : Int := -((14 * Instant.nano + old * 2 ^ 46 : Nat) : Int)
    let valid := match p.last with
      | none => true
      | some t => decide (t + usCycles 999000 ≤ at')
    if valid then
      let t := Instant.shift s.tb.line late
      let s1 := s.setTb { s.tb with pps := Store.set (fun _ => {}) s.tb.pps n { last := some at' } }
      let s1 := if s1.flag (Fld.TIME_PPS_CAP_NS_VALID n) then s1.setFlag (Fld.TIME_PPS_CAP_NS_OVR n) true else s1
      let s1 := (s1.setFld (Fld.TIME_PPS_CAP_NS_NS n) (Instant.ns t)).setFlag (Fld.TIME_PPS_CAP_NS_VALID n) true
      let s1 := s1.setReg (Reg.TIME_PPS_CAP_SEC n) (BitVec.ofNat 32 (Instant.sec t))
      let s1 := (s1.countWrap (Fld.TIME_PPS_CNT_GOOD n)).fire 0x14 n
      [0, 1].foldl (fun s x =>
        if s.liveSrc x = 2 + n ∧ s.domState x ≠ 0 then
          let s := s.setDom x { s.dom x with since := at' }
          let ns := Instant.ns (Instant.shift (s.dom x).value late)
          let off : Int := if ns < 500000000 then ns else (ns : Int) - 1000000000
          s.measure x (2 + n) (off * Instant.nano) qnsSecond
        else s) s1
    else s.count (Fld.TIME_PPS_CNT_BAD n)

/-- PPS_EDGE (R365): an edge of the selected polarity on an enabled input passes the input's synchroniser (R27). -/
def execPpsEdge (n : Nat) (falling : Bool) (s : State) : Answer :=
  .next (s.live fun s => (
    if s.tclkLost || !s.flag (Fld.TIME_PPS_CFG_EN n) || falling != s.flag (Fld.TIME_PPS_CFG_EDGE n) then s
    else s.raiseLine (0x14 * 64 + n) fun s => s.ppsCross n 0))

/-- PPS_MISSING_MEASUREMENT (R346): 1.001 s without a valid edge. -/
def execPpsMissingMeasurement (x : Nat) (s : State) : Answer :=
  .next (s.live fun s => (
    if s.domState x ≠ 0 ∧ 2 ≤ s.liveSrc x ∧ (s.dom x).since + usCycles 1001000 ≤ s.cycle then
      (s.setDom x { s.dom x with since := (s.dom x).since + usCycles 1001000 }).missMeasurement x (s.liveSrc x)
    else s))

/-- TCLK_LOCK_RETURN (R354, R24). -/
def execTclkLockReturn (s : State) : Answer :=
  .next (s.live fun s => (if s.tclkLost then s.tclkReturn.setFlag Fld.SYS_CLK_STAT_TCLK_LOCK true else s))

/-- REPEATER_REFRESH (R358): every 1 µs of TCLK. -/
def execRepeaterRefresh (s : State) : Answer :=
  .next (s.live fun s => (
    if s.tclkLost = false ∧ s.tb.refreshAt ≤ s.cycle then
      (s.setTb { s.tb with refreshAt := s.tb.refreshAt + usCycles 1 }).sendRefresh false
    else s))

/-- TSQ_RELEASE (R364): the N oldest entries are released; an engine of another district is refused. -/
def execTsqRelease (d : Nat) (v : Word) (who : Ident) (s : State) : Answer :=
  .next (s.served who fun s => (
    let n := fieldGet v 0 11
    if s.variant.districts ≤ d then s.absentHit (Reg.TSQ_RELEASE d) true
    else if Ident.isEngine who && !(Ident.engine who / 12 == d && Ident.chip who == s.chip) then
      s.refuseStore who (Reg.TSQ_RELEASE d)
    else if n = 0 ∨ s.fld (Fld.TSQ_STAT_COUNT d) < n then s.setFlag (Fld.TSQ_STAT_CFG_ERR d) true
    else (s.setFld (Fld.TSQ_STAT_HEAD d) (s.fld (Fld.TSQ_STAT_HEAD d) + n)).setFld (Fld.TSQ_STAT_COUNT d)
      (s.fld (Fld.TSQ_STAT_COUNT d) - n)))

/-- An output's parameters break Table TIME-21. -/
def pulseBad (s : State) (k mode : Nat) : Bool :=
  let p := (s.reg (Reg.TIME_OUT_PERIOD k)).toNat
  let w := (s.reg (Reg.TIME_OUT_WIDTH k)).toNat
  mode == 3 || (mode != 0 && decide (w < 4)) || (mode == 2 && decide (p < 8 ∨ 4000000000 < p ∨ p < w + 4))

/-- TIME_OUT_ARM: a write of TIME_OUT_CTRL. It clears MISSED as W1C; with MODE 0 the output goes off, and
otherwise it is armed with START, PERIOD and WIDTH (R366). An edge earlier than 1 µs on is missed (R367). -/
def execTimeOutArm (k : Nat) (v : Word) (s : State) : Answer :=
  .next (s.live fun s => (
    let mode := fieldGet v 0 2
    if pulseBad s k mode then s.setFlag Fld.TIME_STAT_CFG_ERR true
    else
      let s1 := (s.setFld (Fld.TIME_OUT_CTRL_MODE k) mode).setFld (Fld.TIME_OUT_CTRL_POL k) (fieldGet v 2 1)
      let s1 := if v.getLsbD 31 then s1.setFlag (Fld.TIME_OUT_CTRL_MISSED k) false else s1
      let low := fieldGet v 2 1 == 1
      if mode = 0 then (s1.setPulseOut k { activeLow := low }).drivePulse k false
      else
        let sec := Instant.sec s.lineTime / 2 ^ 32 * 2 ^ 32 + s.fld (Fld.TIME_OUT_START_SEC_SEC k)
        let first := Instant.mk sec (s.fld (Fld.TIME_OUT_START_NS_NS k)) 0
        let s2 := s1.setPulseOut k {
          periodic := mode == 2, activeLow := low, period := (s.reg (Reg.TIME_OUT_PERIOD k)).toNat
          width := (s.reg (Reg.TIME_OUT_WIDTH k)).toNat, next := some first, trail := none, start := first }
        (s2.drivePulse k false).missEdges k (s.lineTime + 1000 * Instant.nano)))

/-- PULSE_LEADING_EDGE (R366): line time has reached the next edge; while TCLK is lost it is missed (R354). -/
def execPulseLeadingEdge (k : Nat) (s : State) : Answer :=
  .next (s.live fun s => (
    let o := s.pulseOut k
    match o.next with
    | some n =>
      if n ≤ s.lineTime then
        let after := if o.periodic then some (n + o.period * Instant.nano) else none
        if s.tclkLost then
          (s.setPulseOut k { o with next := after }).setFlag (Fld.TIME_OUT_CTRL_MISSED k) true
        else
          ((s.setPulseOut k { o with next := after, trail := some (n + o.width * Instant.nano) }).drivePulse k
            true).fire 0x15 k
      else s
    | none => s))

/-- PULSE_TRAILING_EDGE (R366). -/
def execPulseTrailingEdge (k : Nat) (s : State) : Answer :=
  .next (s.live fun s => (
    let o := s.pulseOut k
    match o.trail with
    | some t => if t ≤ s.lineTime then (s.setPulseOut k { o with trail := none }).drivePulse k false else s
    | none => s))

/-- SLEWING_END (R350): SLEWING and EXACT follow the difference of the active domain and line time. -/
def execSlewingEnd (s : State) : Answer := .next (s.live fun s => s.showSlew)

end Sys2Proof.Machine
end

