-- ==== Sys2Proof/Machine/AveCycle.lean ====
section
/-!
DEFINITION. The Avenue's commands up to the frames: cycle starts, reference messages, integration and
mastership (R186–R198), spare-slot claims (R199–R202), the Wilern links (R203–R209) and the gateway pointers.
-/

namespace Sys2Proof.Machine

/-- Local ID of the supervisor (Table ARCH-6). -/
def aveSuper : Nat := 10

namespace State

/-- Node ID of this chip's supervisor. -/
def ownNode (s : State) : Nat := s.aveNode aveSuper

/-- This chip's supervisor is time master. -/
def isMaster (s : State) : Bool := s.flag Fld.AVE_STAT_MASTER

/-- Mastership and the followed master. -/
def setMaster (s : State) (own : Bool) (node : Nat) : State :=
  (s.setFlag Fld.AVE_STAT_MASTER own).setFld Fld.AVE_STAT_MASTER_ID node

/-! ### Validation of a schedule (R185) -/

/-- A field of a configuration, live or shadow, as `rd` gives its registers. -/
def rdFld (rd : Nat → Word) (f : Fld) : Nat := fieldGet (rd f.reg) f.lo f.width

/-- An OWNER encoding is reserved: local IDs 13–15, absent nodes of this chip, 0x80–0xFE (Table AVE-12). -/
def ownerBad (s : State) (chip o : Nat) : Bool :=
  o != 0xFF && (decide (0x80 ≤ o) || decide (13 ≤ o % 16) || (nodeChip o == chip && !s.hasLocal (o % 16)))

/-- Some slot of the schedule is owned by a node. -/
def slotOwned (rd : Nat → Word) (node : Nat) : Bool :=
  (List.range (rdFld rd Fld.AVE_SCHED_NSTATIC)).any fun k => rdFld rd (Fld.AVE_SLOT_OWNER k) == node

/-- An enabled forward entry lies outside words 16–47 at either end, or its COUNT is reserved (item 8). -/
def fwdBad (rd : Nat → Word) (d j : Nat) : Bool :=
  let n := rdFld rd (Fld.AVE_GW_FWD_COUNT d j)
  let a := rdFld rd (Fld.AVE_GW_FWD_FIRST d j)
  let b := rdFld rd (Fld.AVE_GW_FWD_DFIRST d j)
  n != 0 && decide (32 < n ∨ a < 16 ∨ 47 < a ∨ b < 16 ∨ 47 < b ∨ 48 < a + n ∨ 48 < b + n)

/-- DS + 8 × mini-slots of a schedule. -/
def dynStart (rd : Nat → Word) : Nat := 80 + 160 * rdFld rd Fld.AVE_SCHED_NSTATIC

/-- Items 1–5 and 8 of R185 hold; `apply` is off for a live schedule, whose APPLY_CYCLE lies behind. -/
def aveGood (s : State) (rd : Nat → Word) (apply : Bool) : Bool :=
  let len := 8 * rdFld rd Fld.AVE_SCHED_LEN8
  let ns := rdFld rd Fld.AVE_SCHED_NSTATIC
  let nm := rdFld rd Fld.AVE_SCHED_NMINI
  let chip := rdFld rd Fld.AVE_ID_CHIP
  let slots := List.range ns
  let spare (k : Nat) : Bool := rdFld rd (Fld.AVE_SLOT_SPARE k) == 1
  let ring (k : Nat) : Bool := rdFld rd (Fld.AVE_SLOT_SCOPE k) == 1
  let own (k : Nat) : Nat := rdFld rd (Fld.AVE_SLOT_OWNER k)
  let spares := slots.filter spare
  let dring := s.fld Fld.AVE_RING_STAT_DRING
  decide (200 ≤ len / 8 ∧ len / 8 ≤ 6400 ∧ 8 ≤ ns ∧ ns ≤ 64 ∧ nm ≤ 1024) &&
    decide (dynStart rd + 8 * nm ≤ len) &&
    decide (spares.length ≤ 16) && (spares.all fun k => ring k && own k == 0xFF) &&
    (spares.isEmpty || s.claimSlots != 8 || decide (8 ≤ nm)) &&
    ((List.range s.variant.districts).all fun l => slotOwned rd (chip * 16 + l)) &&
    slotOwned rd (chip * 16 + aveSuper) &&
    (slots.all fun k => own k == 0xFF ||
      ((ring k || nodeChip (own k) == chip) && own k % 16 != 11 && own k % 16 != 12)) &&
    (s.claimSlots != 8 || !(slots.any ring) ||
      ((slots.all fun k => !ring k || decide (80 + 160 * k + 132 + dring + 16 ≤ len)) &&
        decide (dynStart rd + 64 + dring + 64 ≤ len))) &&
    (!apply || rdFld rd Fld.AVE_APPLY_APPLY_CYCLE == 0 ||
      decide (s.fld Fld.AVE_CYCLE_NUM_CYCLE + 2 ≤ rdFld rd Fld.AVE_APPLY_APPLY_CYCLE)) &&
    ((List.range 64).all fun k => !s.ownerBad chip (own k)) &&
    ((List.range 8).all fun d =>
      ((List.range 3).all fun q => decide (rdFld rd (Fld.AVE_GW_RING_SIZE d q) ≤ 8192)) &&
        (List.range 8).all fun j => !fwdBad rd d j)

/-- The code of a COMMIT of the AVE shadow: BAD_ARG for items 1–5 and 8, WRONG_STATE for 6 and 7. -/
def aveCommitCode (s : State) : Nat :=
  let rd := s.shadowReg
  let ring := (List.range (rdFld rd Fld.AVE_SCHED_NSTATIC)).any fun k => rdFld rd (Fld.AVE_SLOT_SCOPE k) == 1
  firstCode
    [(!s.aveGood rd true, Code.badArg),
      (s.claimSlots == 8 && ring && !s.flag Fld.AVE_RING_STAT_COMPLETE, Code.wrongState),
      (rdFld rd Fld.AVE_ID_CHIP != s.chip && s.aveState != 0, Code.wrongState),
      ((rdFld rd Fld.AVE_ID_COLD != s.fld Fld.AVE_ID_COLD || rdFld rd Fld.AVE_ID_RANK != s.fld Fld.AVE_ID_RANK) &&
        s.mode != Mode.load, Code.wrongState)]

/-! ### Applying a schedule (R186, R190) -/

/-- The pointers of a ring begin anew. -/
def resetRing (s : State) (d q : Nat) : State :=
  (s.setReg (Reg.AVE_GW_PTR d q) 0).setAve { s.ave with
    tails := if q < 2 then Store.set (fun _ => []) s.ave.tails (d * 2 + q) [] else s.ave.tails }

/-- Rings whose bounds a commit changes begin anew. -/
def resetRings (s : State) (old : Nat → Word) : State :=
  (List.range 8).foldl (fun s d => (List.range 3).foldl (fun s q =>
    if s.reg (Reg.AVE_GW_RING d q) = old (Reg.AVE_GW_RING d q) then s else s.resetRing d q) s) s

/-- The ring map's entry for this chip, and COLD_CNT and COLD_EXCESS, follow a change of its COLD and RANK (R205). -/
def remapOwn (s : State) : State :=
  let m := s.ave.map.map fun x =>
    if x.chip = s.chip then { x with cold := s.flag Fld.AVE_ID_COLD, rank := s.fld Fld.AVE_ID_RANK } else x
  let s := s.setAve { s.ave with map := m }
  let cold := (s.ringMap.filter (·.cold)).length
  (s.setFld Fld.AVE_RING_STAT_COLD_CNT (min 3 cold)).setFlag Fld.AVE_STAT_COLD_EXCESS (decide (3 < cold))

/-- A change of COLD takes effect at its application (R190). -/
def coldChange (s : State) (was : Bool) : State :=
  if s.flag Fld.AVE_ID_COLD = was then s
  else if was then s.setAve { s.ave with timeoutAt := none, coldDue := false }
  else if s.aveState = 1 ∨ s.aveState = 6 then s.startListening else s

/-- The committed schedule becomes live: SGEN rises, spares it no longer marks are released, and a change of
LEN is a phase move at the cycle start (R165). -/
def applyAve (s0 : State) : State :=
  let s := (s0.applyShadow .ave).countWrap Fld.AVE_STAT_SGEN
  let s := (s.resetRings s0.reg).remapOwn.coldChange (s0.flag Fld.AVE_ID_COLD)
  let s := s.setAve { s.ave with
    spare := s.spareTable s.ave.spare
    spareNow := s.ave.spareNow.filter fun x => s.flag (Fld.AVE_SLOT_SPARE x.slot) }
  let s := s.setFlag Fld.AVE_STAT_RING_MISMATCH
    (match s.ave.held with | some m => m.rcrc != s.rcrc | none => false)
  let s := if s.aveLen = s0.aveLen then s
    else if s.ave.started then s.setAve { s.ave with moved := true }
    else s.setAve { s.ave with len := s.aveLen }
  s.endApply .ave

/-- A committed schedule applies at the start of cycle `n` (R186). -/
def aveAppliesAt (s : State) (n : Nat) : Bool :=
  s.shadowFld Fld.AVE_APPLY_APPLY_CYCLE == 0 || s.shadowFld Fld.AVE_APPLY_APPLY_CYCLE == n % 2 ^ Fld.AVE_CYCLE_NUM_CYCLE.width

/-- The committed schedule applies at the start of cycle `n`, if it is due then. -/
def applyAveAt (s : State) (n : Nat) : State :=
  if s.txnState .ave = 2 ∧ s.aveAppliesAt n then s.applyAve else s

/-- The length of the cycle that starts, and the phase move of a new cycle length (R165, R196). -/
def startLen (s : State) : State :=
  let moved := s.ave.moved
  let s := s.setAve { s.ave with moved := false, len := s.aveLen }
  (if moved then s.phaseMove else s).expectLen

/-! ### The reference message this chip sends (R192, R353) -/

/-- TIME_INFO (Table TIME-2). -/
def timeInfo (s : State) : Nat :=
  let x := s.activeDom
  s.fld (Fld.TIME_DOM_STAT_LOCKED x) + 2 * x + 4 * s.fld (Fld.TIME_DOM_STAT_HOLDOVER x) +
    8 * s.fld Fld.TIME_STAT_SLEWING + 2 ^ 8 * s.fld Fld.TIME_STAT_LINE_STEPS +
    2 ^ 16 * s.fld Fld.TIME_CFG_UTC_OFFSET

/-- The message for the next cycle start is built 64 cycles before it: LINE_TIME is D0's repeater and 80 ns (R200,
R353). -/
def buildRef (s : State) : State :=
  if s.ave.started ∧ s.cycle + 64 = s.ave.cycleStart + s.ave.len then
    s.setAve { s.ave with built := some ((s.repeaterTime 0 + 80 * Instant.nano) % Instant.modulus, s.timeInfo) }
  else s

/-- The master's message for the cycle that starts now; a cold-start message has had no cycle to be built in. -/
def masterMsg (s : State) (cold : Bool) : RefMsg :=
  let b := s.ave.built.getD (s.repeaterTime 0, s.timeInfo)
  { cycle := s.fld Fld.AVE_CYCLE_NUM_CYCLE, master := s.ownNode, rank := s.fld Fld.AVE_ID_RANK, coldstart := cold
    sgen := s.fld Fld.AVE_STAT_SGEN, rcrc := s.rcrc, claimsSeen := s.ave.claimsSeen
    sec := Instant.sec b.1, ns := Instant.ns b.1, sub := Instant.sub b.1, timeInfo := b.2, spare := s.ave.spare }

/-- A number as `n` bytes, low first. -/
def leBytes (n v : Nat) : List Byte := (List.range n).map fun i => BitVec.ofNat 8 (v / 256 ^ i)

/-- The 64-byte payload of a reference message (Table AVE-9). -/
def refPayload (m : RefMsg) : List Byte :=
  leBytes 4 m.cycle ++ leBytes 1 m.master ++ leBytes 1 m.rank ++ leBytes 1 (bit m.coldstart) ++ leBytes 1 m.sgen ++
    leBytes 4 m.rcrc ++ leBytes 1 m.claimsSeen ++ leBytes 3 0 ++ leBytes 2 m.sub ++ leBytes 4 m.ns ++ leBytes 6 m.sec ++
    leBytes 4 m.timeInfo ++ (List.range 16).flatMap fun i =>
      match m.spare[i]? with
      | some x => leBytes 2 (x.slot % 64 + 64 * bit x.valid + 256 * (x.owner % 256))
      | none => leBytes 2 0xFF00

/-- A message goes out in the reference window; the chip's nodes hold it 18 cycles later (R174, R192). -/
def showRef (s : State) (ring : Bool) (m : RefMsg) (own : Option RefMsg) : State :=
  (s.emit (.refMsg ring (refPayload m))).setAve { s.ave with window := some { at' := s.cycle + 18, own := own } }

/-- The chip's nodes hold the message of its window: the master holds its own, and AVE_CYCLE fires (R192). -/
def holdWindow (s : State) : State :=
  match s.ave.window with
  | some w =>
    if w.at' ≤ s.cycle then
      let s := s.setAve { s.ave with window := none }
      let s := match w.own with
        | some m => s.holdRef m
        | none => s
      s.fire 0x12 0
    else s
  | none => s

/-- The master sends its message, here and on the enabled Wilern ports. -/
def sendMaster (s : State) (cold : Bool) : State :=
  let m := s.masterMsg cold
  let s1 := s.showRef true m (some m)
  s1.setAve { s1.ave with claimsSeen := 0, built := none }

/-- A cold-start node's time-out: the counter starts in this cycle, and the cold-start message goes out (R190). The
node is master from cycle 1 on. -/
def coldStart (s : State) : State :=
  let s := s.setAve { s.ave with timeoutAt := none, coldDue := false, acc := 0, misses := 0, built := none }
  let s := (s.setFld Fld.AVE_CYCLE_NUM_CYCLE 0).setCycleStart s.cycle
  let s := (s.setMaster false s.ownNode).setAveState 3
  (s.setAve { s.ave with spare := s.spareTable [] }).sendMaster true

/-- Cycle 0 has ended without a mismatch: the node is time master (R190), unless its number is doubled (R205). -/
def endColdStart (s : State) : State :=
  if s.chipDoubled then s else (s.setMaster true s.ownNode).setAveState 4

/-! ### Cycle start -/

/-- Releases of spares whose owner's chip has been absent from the master's ring map for 3 cycles (R202). -/
def releaseAbsent (s : State) : State :=
  let absent := (List.range 8).foldl (fun t c =>
    Store.set (fun _ => 0) t c (if s.chipInMap c then 0 else Store.get (fun _ => 0) t c + 1)) s.ave.absentFor
  s.setAve { s.ave with
    absentFor := absent
    spare := s.ave.spare.map fun x =>
      if x.owner ≠ 0xFF ∧ 3 ≤ Store.get (fun _ => 0) absent (nodeChip x.owner) then { x with owner := 0xFF } else x }

/-- Ring frames of other chips in the cycle that ends: one valid copy, or none (R207, log entry 14). -/
def countRing (s : State) : State :=
  if s.claimSlots = 8 ∧ (s.aveState = 4 ∨ s.aveState = 5) then
    (List.range (s.fld Fld.AVE_SCHED_NSTATIC)).foldl (fun s k =>
      let o := s.slotOwner k
      if s.slotRing k && o != 0xFF && nodeChip o != s.chip && s.chipInMap (nodeChip o) then
        match s.ave.replayNext.find? fun r => r.slot == k with
        | some r =>
          if r.copies = 1 ∧ s.fld (Fld.AVE_WLN_STAT_STATE 0) = 2 ∧ s.fld (Fld.AVE_WLN_STAT_STATE 1) = 2 ∧
              s.ave.fresh.isEmpty then
            s.count Fld.AVE_CNT1_RING_SINGLE
          else s
        | none => s.count Fld.AVE_CNT1_RING_LOST
      else s) s
  else s

/-- The cycle that ends: its correction, its measurement and its ring frames. -/
def endCycle (s : State) : State :=
  let s := s.endUncorrected
  let s := if s.isMaster || !s.ave.seen then s.avenueMiss else s
  s.countRing

/-- A pending ENTER_RUN that has passed its conditions takes effect (R45). -/
def startRun (s : State) : State :=
  if s.ave.runNext then
    ((s.setAve { s.ave with runNext := false }).setMode s.runMode).endMode Code.ok
  else s

/-- What the supervisor sends in its reference window: the master its message, another chip a copy of the last one it
holds with its own cycle number (R192). -/
def openCycle (s : State) : State :=
  if s.isMaster then s.releaseAbsent.sendMaster false
  else
    match s.ave.held with
    | some m => s.showRef false { m with cycle := s.fld Fld.AVE_CYCLE_NUM_CYCLE } none
    | none => s

/-- An Avenue cycle starts. -/
def aveCycleStart (s : State) : State :=
  let start := s.ave.cycleStart + s.ave.len
  let s := s.endCycle
  let s := if s.aveState = 3 then s.endColdStart else s
  let s := s.countWrap Fld.AVE_CYCLE_NUM_CYCLE
  let s := s.setAve { s.ave with
    cycleStart := start, seen := false, missed := false, lanternSent := [], slotDone := [], fresh := []
    spareNow := (match s.ave.held with | some m => m.spare | none => [])
    replay := s.ave.replayNext, replayNext := [] }
  let s := (s.applyAveAt (s.fld Fld.AVE_CYCLE_NUM_CYCLE)).startLen
  let s := (s.recordDomains 0).startRun
  if s.ave.coldDue && !s.coldBarred then s.coldStart else s.openCycle

end State

/-! ### Reference messages (R189–R196) -/

namespace State

/-- LINE_TIME of a message. -/
def refTime (m : RefMsg) : Instant := Instant.mk m.sec m.ns m.sub

/-- The chip takes the message's cycle as its own: its cycle start lay `p` cycles ago, and the domains' values of then
are recorded (R189, R345). -/
def takeCycle (s : State) (m : RefMsg) (p : Nat) : State :=
  (((s.setFld Fld.AVE_CYCLE_NUM_CYCLE m.cycle).setCycleStart (s.cycle - p)).recordDomains p)

/-- The chip takes the message's cycle as its own and follows its master (R189); the message measures (R345). -/
def integrateOn (s : State) (m : RefMsg) (p : Nat) : State :=
  let s := s.takeCycle m p
  let s := s.setAve { s.ave with timeoutAt := none, coldDue := false, misses := 0, offBig := 0, offSmall := 0 }
  (((s.setMaster false m.master).setAveState 2).holdRef m).avenueMeasure (refTime m) 0

/-- The chip goes back to listening, for the whole time-out if it is a cold-start node; it sends no reference
message meanwhile (R190). -/
def listenAgain (s : State) : State :=
  (((s.setMaster false (s.fld Fld.AVE_STAT_MASTER_ID)).setAveState 1).setAve
    { s.ave with held := none, window := none }).startListening

/-- A message counts as missing once in a cycle: mastership and isolation follow the number (R193, R195). -/
def missRef (s : State) : State :=
  if s.ave.missed then s
  else
    let n := s.ave.misses + 1
    let s := (s.setAve { s.ave with misses := n, missed := true, offBig := 0, offSmall := 0 }).count Fld.AVE_CNT0_REF_MISS
    let r := s.fld Fld.AVE_ID_RANK
    if s.aveState = 4 ∧ r ≠ 0 ∧ n = 3 * r then
      let s := s.setMaster true s.ownNode
      s.setAve { s.ave with misses := 0, spare := (match s.ave.held with | some m => m.spare | none => s.spareTable []) }
    else if 12 ≤ n then (s.setAveState 6).startListening
    else s

/-- A valid message of the followed master, with its offset. -/
def followRef (s : State) (m : RefMsg) (off : Int) : State :=
  let s := (s.setAve { s.ave with misses := 0 }).holdRef m
  (s.correct off).avenueMeasure (refTime m) off

/-- |off| above 6 in two consecutive cycles leads from INTEGRATED to REINTEGRATING; `big` is their number (R198). -/
def judgeOff (s : State) (big : Nat) : State :=
  let s := s.setAve { s.ave with offBig := big, offSmall := 0, integrating := 0 }
  if 2 ≤ big ∧ s.aveState = 4 then (s.setAveState 5).setAve { s.ave with offBig := 0 } else s

/-- A message in INTEGRATED; one with |off| above 8 counts as missing (R196, R198). -/
def refIntegrated (s : State) (m : RefMsg) (off : Int) : State :=
  let big := s.ave.offBig + 1
  if 8 < off.natAbs then
    if s.ave.missed then s else ((s.count Fld.AVE_CNT0_OFF_LIMIT).missRef).judgeOff big
  else (s.followRef m off).judgeOff (if 6 < off.natAbs then big else 0)

/-- A message in REINTEGRATING: the first sets the cycle start, and two in a row within ±2 end the state. -/
def refReintegrating (s : State) (m : RefMsg) (p : Nat) (off : Int) : State :=
  if s.ave.integrating = 0 then
    let s := s.takeCycle m p
    ((s.setAve { s.ave with integrating := 1, offSmall := 0, misses := 0 }).holdRef m).avenueMeasure (refTime m) 0
  else if 8 < off.natAbs then (s.count Fld.AVE_CNT0_OFF_LIMIT).missRef
  else
    let s := s.followRef m off
    let small := if off.natAbs ≤ 2 then s.ave.offSmall + 1 else 0
    let s := s.setAve { s.ave with offSmall := small }
    if 2 ≤ small then s.setAveState 4 else s

/-- The message comes from the master this chip follows, or from one it turns to: the sender of rank r after
3 × r misses (R194). -/
def follows (s : State) (m : RefMsg) : Bool :=
  m.master == s.fld Fld.AVE_STAT_MASTER_ID || (m.rank != 0 && decide (3 * m.rank ≤ s.ave.misses))

/-- A reference message of another chip whose first beat arrives now on a Wilern port. Only the first valid
copy of a cycle counts (R208), and a chip whose number another chip carries does not integrate (R205). -/
def takeRef (s : State) (m : RefMsg) (port : Nat) : State :=
  let p := s.pathDelay (nodeChip m.master) port
  let off : Int := (s.cycle : Int) - ((s.ave.cycleStart + p : Nat) : Int)
  if s.chipDoubled then s
  else if s.aveState = 1 ∨ s.aveState = 6 then s.integrateOn m p
  else if s.aveState = 2 then
    if m.master ≠ s.fld Fld.AVE_STAT_MASTER_ID then
      (if m.coldstart then s.listenAgain else if s.ave.misses ≠ 0 then s.integrateOn m p else s)
    else if s.ave.seen then s
    else if s.ave.misses = 0 ∧ off.natAbs ≤ 2 then (s.setAveState 4).followRef m off
    else s.integrateOn m p
  else if s.aveState = 3 then
    (if m.master ≠ s.ownNode ∨ some m ≠ s.ave.held then s.listenAgain else s)
  else if s.aveState = 4 ∨ s.aveState = 5 then
    if s.isMaster then (if m.master = s.ownNode then s else s.integrateOn m p)
    else if !s.follows m then s
    else if s.ave.seen then s
    else
      let s := s.setMaster false m.master
      if s.aveState = 4 then s.refIntegrated m off else s.refReintegrating m p off
  else s

end State

/-- A port's link is UP and in use: one that comes UP while the counter runs is used from the next cycle start (R209). -/
def State.wilernUsed (s : State) (n : Nat) : Bool :=
  s.fld (Fld.AVE_WLN_STAT_STATE n) == 2 && !s.ave.fresh.contains n

/-- REF: a reference message's first beat arrives on W0 (`port` 0) or W1 (1). -/
def execRef (m : RefMsg) (port : Nat) (s : State) : Answer :=
  .next (s.live fun s => if port < 2 ∧ !s.wilernUsed port then s else s.takeRef m port)

/-- REFERENCE_MISS (R193): no valid message of the followed master was held around its expected arrival. -/
def execReferenceMiss (s : State) : Answer :=
  .next (s.live fun s => (
    let c := nodeChip (s.fld Fld.AVE_STAT_MASTER_ID)
    let late := s.ave.cycleStart + max (s.pathDelay c 0) (s.pathDelay c 1) + 8
    if (s.aveState = 2 ∨ s.aveState = 4 ∨ s.aveState = 5) ∧ s.isMaster = false ∧ s.ave.seen = false ∧
        late < s.cycle then s.missRef
    else s))

/-- COLDSTART_TIMEOUT (R190, R195): the listening ends without a reference message; an ISOLATED chip sends at
its next cycle start. -/
def execColdstartTimeout (s : State) : Answer :=
  .next (s.live fun s => (
    match s.ave.timeoutAt with
    | some t =>
      if t ≤ s.cycle ∧ !s.coldBarred then
        if s.aveState = 1 then s.coldStart
        else if s.aveState = 6 then s.setAve { s.ave with timeoutAt := none, coldDue := true }
        else s
      else s
    | none => s))

/-- COLDSTART_CHECK_END (R190): cycle 0 has ended without a mismatch. -/
def execColdstartCheckEnd (s : State) : Answer :=
  .next (s.live fun s => (if s.aveState = 3 ∧ s.ave.cycleStart + s.ave.len ≤ s.cycle then s.endColdStart else s))

/-- REINT: AVE_CTRL.REINT puts an INTEGRATED follower into REINTEGRATING (R198, Table AVE-20). -/
def execReint (s : State) : Answer :=
  .next (s.live fun s => (
    if s.aveState = 4 ∧ s.isMaster = false then
      (s.setAveState 5).setAve { s.ave with integrating := 0, offSmall := 0 }
    else s))

/-! ### Claims (R178, R199–R201) -/

namespace State

/-- A claim or release that the chip's own checks pass is PENDING; the codes are those of R199 in R18's order. -/
def fileClaim (s : State) (who : Ident) (slot l : Nat) (release : Bool) : State :=
  if Ident.isEngine who then s.refuseStore who Reg.AVE_CLAIM
  else s.oneAtATime Reg.AVE_CLAIM s.ave.claim.isSome Fld.AVE_CLAIM_STAT_LOST fun s =>
    let code := firstCode
      [(decide (l < 13) && !s.hasLocal l, Code.absent),
        (decide (13 ≤ l) || !(slot == 0x3F && !release || s.spareSlots.contains slot), Code.badArg),
        (s.aveState != 4, Code.wrongState)]
    if code = Code.ok then
      let s := s.setAve { s.ave with
        claim := some { claim := { node := s.aveNode l, slot := slot, release := release }, sent := none, filed := s.cycle } }
      (s.setFld Fld.AVE_CLAIM_STAT_RESULT Code.pending).setFlag Fld.AVE_CLAIM_STAT_DONE false
    else ((s.setFld Fld.AVE_CLAIM_STAT_RESULT code).setFlag Fld.AVE_CLAIM_STAT_DONE true).countCode who code

/-- The master's supervisor holds a claim for its next evaluation. A chip sends one claim in a cycle: a second copy
of it is discarded (R178, R207). -/
def takeClaim (s : State) (c : Claim) : State :=
  if s.isMaster && !(s.ave.claims.any fun x => nodeChip x.node == nodeChip c.node) then s.setAve { s.ave with claims := s.ave.claims ++ [c] } else s

end State

/-- AVE_CLAIM: a claim of a named spare, or of any with SLOT 0x3F. -/
def execAveClaim (slot l : Nat) (who : Ident) (s : State) : Answer := .next (s.served who fun s => (s.fileClaim who slot l false))

/-- AVE_CLAIM with RELEASE. -/
def execAveClaimRelease (slot l : Nat) (who : Ident) (s : State) : Answer := .next (s.served who fun s => (s.fileClaim who slot l true))

/-- CLAIM_MINISLOT `c`: the chip's own mini-slot carries its pending claim if its write was held by DS − 16
(R178, R187, R199). -/
def execClaimMinislot (c : Nat) (s : State) : Answer :=
  .next (s.live fun s => (
    match s.ave.claim with
    | some q =>
      if c = s.chip ∧ c < s.claimSlots ∧ s.ave.started ∧ s.aveState = 4 ∧ s.flag Fld.AVE_STAT_RING_MISMATCH = false ∧
          q.sent = none ∧ q.filed + 16 ≤ s.ave.cycleStart + State.dynStart s.reg ∧
          s.cycle = s.ave.cycleStart + State.dynStart s.reg + 8 * c then
        let s := s.setAve { s.ave with claim := some { q with sent := some (s.fld Fld.AVE_CYCLE_NUM_CYCLE) } }
        (s.emit (.claimMsg q.claim)).takeClaim q.claim
      else s
    | none => s))

/-- CLAIM: a message reaches the supervisor; the master's evaluates it (R200). -/
def execClaim (c : Claim) (s : State) : Answer := .next (s.live fun s => (s.takeClaim c))

/-- CLAIM_EVALUATION (R200): the master evaluates the claims it holds for its next message, 64 cycles before its
cycle start. -/
def execClaimEvaluation (s : State) : Answer :=
  .next (s.live fun s => (
    if s.isMaster ∧ s.cycle + 64 = s.ave.cycleStart + s.ave.len then
      s.setAve { s.ave with
        spare := State.evalClaims s.ave.spare s.ave.claims
        claimsSeen := s.ave.claims.foldl (fun m c => m ||| 2 ^ nodeChip c.node) s.ave.claimsSeen
        claims := [] }
    else s))

/-- CLAIM_TIMEOUT (R201): 16 cycles after sending, the claim ends as BUSY. -/
def execClaimTimeout (s : State) : Answer :=
  .next (s.live fun s => (
    match s.ave.claim with
    | some q =>
      match q.sent with
      | some n =>
        if 16 ≤ (s.fld Fld.AVE_CYCLE_NUM_CYCLE + 2 ^ 32 - n) % 2 ^ 32 then s.claimResult Code.busy 0 else s
      | none => s
    | none => s))

/-! ### Wilern links (R204–R209) -/

namespace State

/-- The port's enable bit. -/
def wilernEnabled (s : State) (n : Nat) : Bool :=
  if n = 0 then s.flag Fld.AVE_CTRL_W0_EN else s.flag Fld.AVE_CTRL_W1_EN

/-- A port's link state. -/
def wilernState (s : State) (n : Nat) : Nat := s.fld (Fld.AVE_WLN_STAT_STATE n)

/-- The port goes DOWN; training is tried again in 1 ms. -/
def wilernDown (s : State) (n : Nat) : State :=
  ((s.setFld (Fld.AVE_WLN_STAT_STATE n) 0).setFld (Fld.AVE_WLN_STAT_LANE_LOCK n) 0).setAve
    { s.ave with retryAt := Store.set (fun _ => 0) s.ave.retryAt n (s.cycle + usCycles 1000) }

/-- Item 4 of R185 holds for the live schedule with a ring delay. -/
def ringFits (s : State) (dring : Nat) : Bool :=
  let slots := (List.range (s.fld Fld.AVE_SCHED_NSTATIC)).filter fun k => s.flag (Fld.AVE_SLOT_SCOPE k)
  slots.isEmpty || ((slots.all fun k => decide (80 + 160 * k + 132 + dring + 16 ≤ s.aveLen)) &&
    decide (dynStart s.reg + 64 + dring + 64 ≤ s.aveLen))

/-- DRING if the links of this port had a medium delay. -/
def dringWith (s : State) (n medium : Nat) : Nat :=
  let j := if n = 1 then s.chip else s.fld (Fld.AVE_WLN_STAT_PEER_CHIP n)
  ((s.ringMap.map fun x => if x.chip = j then 96 + medium else if x.linked then 96 + x.medium else 0)).sum

/-- Training of a port. -/
def training (s : State) (n : Nat) : Training := Store.get (fun _ => {}) s.ave.training n

/-- A port stands before a step of Table AVE-17, counted from 0. -/
def setTraining (s : State) (n step : Nat) : State :=
  s.setAve { s.ave with training := Store.set (fun _ => {}) s.ave.training n { step := step, began := s.cycle } }

/-- Training of a port starts. -/
def startTraining (s : State) (n : Nat) : State := (s.setTraining n 0).setFld (Fld.AVE_WLN_STAT_STATE n) 1

/-- The port is UP: in use at once on a chip whose counter has not started, else from the next cycle start (R209). -/
def wilernUp (s : State) (n : Nat) : State :=
  (s.setFld (Fld.AVE_WLN_STAT_STATE n) 2).setAve
    { s.ave with fresh := if s.ave.started then n :: s.ave.fresh else s.ave.fresh }

/-- Place of a step in Table AVE-17. -/
def trainOrder : TrainStep → Option Nat
  | .clockRecovery _ => some 0 | .blockLock _ => some 1 | .deskew _ => some 2 | .peer _ _ _ _ => some 3
  | .echoes _ => some 4 | .map _ _ _ => none | .failed => none

/-- A step of training ends: within its limit the next one begins, else the port returns to DOWN. -/
def trainStep (s : State) (n : Nat) : TrainStep → State
  | .clockRecovery lanes =>
    if lanes = 0xF ∧ s.cycle ≤ (s.training n).began + usCycles 200 then s.setTraining n 1 else s.wilernDown n
  | .blockLock lanes =>
    if lanes = 0xF ∧ s.cycle ≤ (s.training n).began + usCycles 100 then
      (s.setFld (Fld.AVE_WLN_STAT_LANE_LOCK n) 0xF).setTraining n 2
    else s.wilernDown n
  | .deskew ps => if ps ≤ 20000 then s.setTraining n 3 else s.wilernDown n
  | .peer c p cold rank =>
    ((((s.setFld (Fld.AVE_WLN_STAT_PEER_CHIP n) c).setFld (Fld.AVE_WLN_STAT_PEER_PORT n) p).setFlag
      (Fld.AVE_WLN_STAT_PEER_COLD n) cold).setFld (Fld.AVE_WLN_STAT_PEER_RANK n) rank).setTraining n 4
  | .echoes least =>
    let medium := (least - 192 + 1) / 2
    if 255 < medium then s.setFld (Fld.AVE_WLN_STAT_STATE n) 3
    else
      let s := s.setFld (Fld.AVE_WLN_STAT_MEDIUM n) medium
      if s.ringFits (s.dringWith n medium) then s.wilernUp n else s.setFld (Fld.AVE_WLN_STAT_STATE n) 3
  | .map chips complete broken => s.showMap chips complete broken
  | .failed => s.wilernDown n

/-- A map of this chip alone (R205). -/
def aloneMap (s : State) (broken : Bool) : State :=
  let cold := s.fld Fld.AVE_ID_COLD
  let s := s.setAve { s.ave with map := [] }
  let s := (s.setFld Fld.AVE_RING_STAT_DRING 0).setFld Fld.AVE_RING_STAT_NCHIPS 1
  let s := (s.setFlag Fld.AVE_RING_STAT_COMPLETE true).setFlag Fld.AVE_RING_STAT_BROKEN broken
  ((s.setFld Fld.AVE_RING_STAT_COLD_CNT cold).setFlag Fld.AVE_STAT_COLD_EXCESS false).setFlag
    Fld.AVE_STAT_CHIP_DUP false

end State

/-- WILERN_ENABLE (R204): Wn_EN is set, and training starts in every mode but BOOT. -/
def execWilernEnable (n : Nat) (s : State) : Answer :=
  .next (s.live fun s => (
    if s.variant.hasWilern && decide (n < 2) then
      let s1 := if n = 0 then s.setFlag Fld.AVE_CTRL_W0_EN true else s.setFlag Fld.AVE_CTRL_W1_EN true
      if s.mode ≠ Mode.boot ∧ s.wilernState n = 0 then s1.startTraining n else s1
    else s))

/-- TRAINING_STEP_DONE (Table AVE-17): a step of a port in training, or the ring map of one that is UP. -/
def execTrainingStepDone (n : Nat) (t : TrainStep) (s : State) : Answer :=
  .next (s.live fun s => (
    match t with
    | .map _ _ _ => if s.wilernState n = 2 then s.trainStep n t else s
    | .failed => if s.wilernState n = 1 then s.trainStep n t else s
    | _ => if s.wilernState n = 1 ∧ State.trainOrder t = some (s.training n).step then s.trainStep n t else s))

/-- TRAINING_RETRY (R204): a DOWN port that is enabled is trained again every 1 ms. -/
def execTrainingRetry (n : Nat) (s : State) : Answer :=
  .next (s.live fun s => (
    if s.wilernEnabled n ∧ s.mode ≠ Mode.boot ∧ s.wilernState n = 0 ∧
        Store.get (fun _ => 0) s.ave.retryAt n ≤ s.cycle then
      s.startTraining n
    else s))

/-- A link that is UP goes DOWN (R209). -/
def State.wilernLoss (s : State) (n : Nat) : State :=
  if s.wilernState n = 2 then
    let s1 := (s.wilernDown n).count (Fld.AVE_WLN_STAT_DOWN_CNT n)
    if s1.wilernState (1 - n) = 2 then s1.setFlag Fld.AVE_RING_STAT_BROKEN true else s1.aloneMap true
  else s

/-- WILERN_LINK_DOWN (R209). -/
def execWilernLinkDown (n : Nat) (s : State) : Answer := .next (s.live fun s => s.wilernLoss n)

namespace State

/-- A valid copy of a ring frame, for replay in the next cycle. -/
def holdReplay (s : State) (k port : Nat) (msgs : List Msg) : State :=
  if s.ave.replayNext.any fun r => r.slot == k then
    s.setAve { s.ave with replayNext := s.ave.replayNext.map fun r =>
      if r.slot = k ∧ r.port ≠ port then { r with copies := 2 } else r }
  else s.setAve { s.ave with replayNext := s.ave.replayNext ++ [{ slot := k, port := port, copies := 1, msgs := msgs }] }

/-- The check of a ring frame at the relay (R207). -/
def checkRelay (s : State) (port : Nat) : RelayFrame → State
  | .slot k off ok msgs =>
    if 8 < off.natAbs then s.count Fld.AVE_CNT0_WINDOW
    else if !ok then s.count Fld.AVE_CNT0_CHECK
    else s.holdReplay k port msgs
  | _ => s

end State

/-- RELAY_FRAME (R206, R207): a frame of chip `origin` arrives on port `n`; it goes out of the other port, but
not towards its origin, and a slot frame is checked and kept for its replay. -/
def execRelayFrame (n origin : Nat) (f : RelayFrame) (s : State) : Answer :=
  .next (s.live fun s => (
    if !s.wilernUsed n ∨ origin = s.chip then s
    else
      let o := 1 - n
      let s1 :=
        if s.wilernUsed o ∧ s.fld (Fld.AVE_WLN_STAT_PEER_CHIP o) ≠ origin then s.emit (.relayed o f)
        else s
      s1.checkRelay n f))

/-! ### Gateway pointers (Table AVE-6) -/

/-- AVE_GW_PTR: TAIL of a TX ring or HEAD of the RX ring moves, unless it would pass the other pointer. -/
def execAveGwPtr (d q : Nat) (v : Word) (s : State) : Answer :=
  .next (s.live fun s => (
    let head := s.fld (Fld.AVE_GW_PTR_HEAD d q)
    let tail := s.fld (Fld.AVE_GW_PTR_TAIL d q)
    if s.variant.districts ≤ d then s.absentHit (Reg.AVE_GW_PTR d q) true
    else if q < 2 then
      if State.beatsBetween head (fieldGet v 16 16) ≤ s.ringBytes d q / 32 then
        (s.noteTail d q (fieldGet v 16 16)).setFld (Fld.AVE_GW_PTR_TAIL d q) (fieldGet v 16 16)
      else s.setFlag Fld.AVE_STAT_CFG_ERR true
    else if State.beatsBetween head (fieldGet v 0 16) ≤ State.beatsBetween head tail then
      s.setFld (Fld.AVE_GW_PTR_HEAD d q) (fieldGet v 0 16)
    else s.setFlag Fld.AVE_STAT_CFG_ERR true))

end Sys2Proof.Machine
end

