-- ==== Sys2Proof/Machine/Flow.lean ====
section
/-!
DEFINITION. Duplicate discard: the sequence contexts of flows (R424–R427) that the Crossing, the image
controller, the gateways, the port block and the mailbox unit keep, and the PRP and HSR table (R429).
-/

namespace Sys2Proof.Machine

/-! ### Checksums over bytes -/

/-- CRC-32C, entry 1 of Table ISA-10, with start and final XOR 0xFFFF_FFFF. -/
def crc32cBytes (bs : List Nat) : Nat :=
  (bs.foldl (fun c b => Alu.crcStep 32 true 0x1EDC6F41 c b) 0xFFFFFFFF) ^^^ 0xFFFFFFFF

/-- The Ethernet frame check sequence: CRC-32, entry 0 of Table ISA-10. -/
def ethCrc (bs : List Nat) : Nat :=
  (bs.foldl (fun c b => Alu.crcStep 32 true 0x04C11DB7 c b) 0xFFFFFFFF) ^^^ 0xFFFFFFFF

/-- Little-endian bytes of a list of words. -/
def wordsBytes (ws : List Word) : List Nat := ws.flatMap fun w => (List.range 4).map fun i => w.toNat / 256 ^ i % 256

/-! ### One context (R425) -/

/-- What a consumer makes of a copy. -/
structure Judgement where
  accept : Bool
  ctx : FlowCtx
  resync : Bool
  deriving DecidableEq, Repr

/-- A context that begins with one accepted number. -/
def freshCtx (s digest : Nat) : FlowCtx := { high := s, record := 1, digests := [(s, digest)] }

/-- The digests of the 16 highest numbers up to `h`. -/
def keepDigests (h : Nat) (ds : List (Nat × Nat)) : List (Nat × Nat) :=
  ds.filter fun p => decide ((h + 65536 - p.1) % 65536 < 16)

/-- The decision of R425 on a copy with number `s`. -/
def judgeCopy (c : FlowCtx) (s digest : Nat) : Judgement :=
  let a := (s + 65536 - c.high) % 65536
  if a = 0 then ⟨false, c, false⟩
  else if a ≤ 32768 then
    ⟨true, { high := s, record := (c.record <<< a) ||| 1, digests := keepDigests s ((s, digest) :: c.digests) }, false⟩
  else
    let b := 65536 - a
    if b < 64 then
      if c.record.getLsbD b then ⟨false, c, false⟩
      else
        ⟨true, { c with record := c.record ||| (1#64 <<< b)
                        digests := keepDigests c.high ((s, digest) :: c.digests) }, false⟩
    else if b < 16384 then ⟨false, c, false⟩
    else ⟨true, freshCtx s digest, true⟩

namespace State

/-- The redundancy unit replaced. -/
def setRed (s : State) (r : Redundancy) : State := { s with red := r }

/-- Context of a flow at a consumer. -/
def flowCtx (s : State) (consumer flow : Nat) : Option FlowCtx :=
  Store.get (fun _ => none) s.red.flows (consumer * 4096 + flow)

/-- A context replaced. -/
def setFlowCtx (s : State) (consumer flow : Nat) (c : Option FlowCtx) : State :=
  s.setRed { s.red with flows := Store.set (fun _ => none) s.red.flows (consumer * 4096 + flow) c }

/-! ### Pairs -/

/-- Pair `p`. -/
def pair (s : State) (p : Nat) : Pair := Store.get (fun _ => {}) s.red.pairs p

/-- Pair `p` replaced. -/
def setPair (s : State) (p : Nat) (x : Pair) : State :=
  s.setRed { s.red with pairs := Store.set (fun _ => {}) s.red.pairs p x }

/-- Slot `m` of a pair. -/
def pairSlot (s : State) (p m : Nat) : PairSlot := if m = 0 then (s.pair p).slot0 else (s.pair p).slot1

/-- Slot `m` of a pair replaced. -/
def setPairSlot (s : State) (p m : Nat) (x : PairSlot) : State :=
  s.setPair p (if m = 0 then { s.pair p with slot0 := x } else { s.pair p with slot1 := x })

/-- RED_NOTE fires on the engine of a slot, on this chip. -/
def redNote (s : State) (p m : Nat) : State :=
  match (s.pairSlot p m).engine with
  | some e => if m = 1 ∧ (s.pair p).remote.isSome then s else s.fireEngine 0x1C 0 e
  | none => s

/-- A copy discarded whose digest differs from the kept one's: DIVERGE, and RED_NOTE on both members (R427). -/
def divergence (s : State) (flow : Nat) : State :=
  let s1 := s.count Fld.RED_CNT0_DIVERGE
  match Config.flowPair flow with
  | some p => (s1.redNote p 0).redNote p 1
  | none => s1

/-- A consumer judges a copy: whether it is accepted, and the state with the context and its counts. -/
def judge (s : State) (consumer flow seq digest : Nat) : Bool × State :=
  match s.flowCtx consumer flow with
  | none => (true, s.setFlowCtx consumer flow (some (freshCtx seq digest)))
  | some c =>
    let j := judgeCopy c seq digest
    let s1 := s.setFlowCtx consumer flow (some j.ctx)
    let s2 := if j.resync then s1.count Fld.RED_CNT0_RESYNC else s1
    if j.accept then (true, s2)
    else if c.digests.any fun p => p.1 == seq && p.2 != digest then (false, s2.divergence flow)
    else (false, s2)

/-- A duplicate at a gateway, the port block or the mailbox unit is counted in RED_CNT0.DUP (Table RED-2). -/
def judgeCounted (s : State) (consumer flow seq digest : Nat) : Bool × State :=
  let j := s.judge consumer flow seq digest
  if j.1 then j else (false, j.2.count Fld.RED_CNT0_DUP)

/-- RESYNC: the flow's context is reset in every consumer (R426). -/
def resetFlow (s : State) (flow : Nat) : State :=
  s.setRed { s.red with flows := s.red.flows.filter fun p => p.1 % 4096 != flow }

/-! ### PRP and HSR (R429) -/

/-- RED_PRP_STAT shows the number of entries. -/
def showPrp (s : State) (t : List PrpEntry) : State :=
  (s.setRed { s.red with prp := t }).setFld Fld.RED_PRP_STAT_ENTRIES t.length

/-- Entries not yet older than FORGET_MS. -/
def prpLive (s : State) : List PrpEntry :=
  s.red.prp.filter fun x => decide (s.cycle < x.at' + s.fld Fld.RED_PRP_CFG_FORGET_MS * 800000)

/-- Step 3 judges a key: it is a duplicate of an entry of another port of the group, or it is entered. -/
def prpJudge (s : State) (sa seq group port : Nat) : Bool × State :=
  let t := s.prpLive
  if t.any fun x => x.sa == sa && x.seq == seq && x.group == group && x.port != port then (false, s.showPrp t)
  else
    let e : PrpEntry := { sa := sa, seq := seq, group := group, port := port, at' := s.cycle }
    if 2048 ≤ t.length then (true, (s.showPrp (t.drop 1 ++ [e])).count Fld.RED_PRP_STAT_OVERWRITE)
    else (true, s.showPrp (t ++ [e]))

end State

end Sys2Proof.Machine
end

