-- ==== Sys2Proof/Machine/Power.lean ====
section
/-!
DEFINITION. Supply monitors, the general MRAM, NV commands and the one-time-programmable array (chapter 18), and
the JTAG instructions (R525).
-/

namespace Sys2Proof.Machine

/-- The command writes rows (WRITE, COPY). -/
def NvJob.writesRows (j : NvJob) : Bool := j.op == 2 || j.op == 3

namespace State

/-- A write to a register of a unit that host functions and the supervisor may write: an engine's store is
refused, and anyone else's is discarded. -/
def hostWrite (s : State) (who : Ident) (a : Nat) (body : State → State) : State :=
  if Ident.isEngine who then s.refuseStore who a
  else if Ident.isHost who ∨ Ident.isSup who ∨ (Ident.src who = 0xF1 ∧ s.mode = Mode.boot) then s.overHclk who body
  else s

/-! ### Monitors (R509–R511) -/

/-- Field of monitor 0 CORE_LOW, 1 IO_LOW or 2 NV_LOW. -/
def monitorFld : Nat → Fld
  | 0 => Fld.PWR_STAT_CORE_LOW | 1 => Fld.PWR_STAT_IO_LOW | _ => Fld.PWR_STAT_NV_LOW

/-- NV writes are blocked (R510). -/
def nvBlocked (s : State) : Bool := s.flag Fld.PWR_STAT_BLOCK

/-! ### The NV commands (R517) -/

/-- NV_RES written; LOST stays. -/
def nvResult (s : State) (code : Nat) (done : Bool) : State :=
  (s.setFld Fld.NV_RES_RESULT code).setFlag Fld.NV_RES_DONE done

/-- A command is executed only when DONE is 1 and no other was in this cycle; otherwise LOST is set. -/
def nvCommand (s : State) (who : Ident) (body : State → State) : State :=
  s.hostWrite who Reg.NV_CMD fun s => s.oneAtATime Reg.NV_CMD (!s.flag Fld.NV_RES_DONE) Fld.NV_RES_LOST body

/-- A refused command's final result. -/
def nvRefuse (s : State) (who : Ident) (code : Nat) : State := (s.nvResult code true).countCode who code

/-- A command that writes is taken up. -/
def nvStart (s : State) (j : NvJob) : State := ({ s with nv := some j }.nvResult Code.pending false).setReg Reg.NV_PROG 0

/-- A row of an NV command is being written. -/
def nvRowGoes (s : State) : Bool := s.nv.any fun j => j.writesRows && !j.waits

/-- The command in progress ends. -/
def nvEnd (s : State) (code : Nat) : State := { s with nv := none }.nvResult code true

/-- BLOCK refuses the start of a command's row or program (R510); a release in the same cycle comes first (R519). -/
def nvLow (s : State) (j : NvJob) : State := { s with now := { s.now with lowv := some (j, false) } }.nvEnd Code.nvLowv

/-- BLOCK refuses the start of the supervisor's rows (R441). -/
def supLow (s : State) : State := { s with sup := {}, now := { s.now with lowvRows := s.sup.rows } }

/-- Bytes of NV_DATA0–15. -/
def nvData (s : State) : List Byte :=
  (List.range 64).map fun i => (s.reg (Reg.NV_DATA (i / 4))).extractLsb' (8 * (i % 4)) 8

/-- A list of 64 bytes loaded into NV_DATA0–15. -/
def loadNvData (s : State) (bs : List Byte) : State :=
  (List.range 16).foldl (fun s i =>
    s.setReg (Reg.NV_DATA i) (BitVec.ofNat 32
      ((List.range 4).foldl (fun v j => v + ((bs[4 * i + j]?).getD 0).toNat * 256 ^ j) 0))) s

/-- NV_ADDR. -/
def nvAddr (s : State) : Nat := s.fld Fld.NV_ADDR_ADDR

/-- A host function writes MRAM only in LOAD. -/
def hostOutsideLoad (s : State) (who : Ident) : Bool := Ident.isHost who && s.mode != Mode.load

/-- One row written. -/
def writeRow (s : State) (a : Nat) (bs : List Byte) : State := { s with mram := s.mram.writeBytes a bs }

/-- Bytes of the row that an NV command writes next. -/
def nvRow (s : State) (j : NvJob) : List Byte := if j.op = 2 then j.data else s.bootMem.readBytes j.src 64

/-- While no row is being written the next one starts: the supervisor's first, else the command's (R518). Under BLOCK the
supervisor's copies are abandoned and the command ends (R441, R510). -/
def startRow (s : State) : State :=
  if s.sup.started.isSome ∨ s.nvRowGoes then s
  else
    let s1 := if s.nvBlocked ∧ !s.sup.rows.isEmpty then s.supLow else s
    if !s1.sup.rows.isEmpty then { s1 with sup := { s1.sup with started := some s.cycle } }
    else
      match s1.nv with
      | some j =>
        if !j.writesRows then s1
        else if s.nvBlocked then s1.nvLow j
        else { s1 with nv := some { j with waits := false, started := s.cycle } }
      | none => s1

/-- The supervisor offers rows: one of a command that would start in this cycle lets them go first. -/
def offerRows (s : State) (rows : List SupRow) : State :=
  let s1 := { s with sup := { s.sup with rows := s.sup.rows ++ rows } }
  match s.nv with
  | some j =>
    if j.writesRows ∧ j.started = s.cycle ∧ !rows.isEmpty then { s1 with nv := some { j with waits := true } }.startRow
    else s1.startRow
  | none => s1.startRow

/-- A command that writes is taken up, or refused with its code; the release of BLOCK in this cycle comes first (R519). -/
def nvTake (s : State) (who : Ident) (code : Nat) (j : NvJob) : State :=
  if code = Code.ok then (s.nvStart j).startRow
  else if code = Code.nvLowv then { s with now := { s.now with lowv := some (j, true) } }.nvRefuse who code
  else s.nvRefuse who code

/-- The row of an NV command is written; its next row waits to start. -/
def endNvRow (s : State) (j : NvJob) : State :=
  let s := (s.writeRow j.addr (s.nvRow j)).setReg Reg.NV_PROG (s.reg Reg.NV_PROG + 1)
  if j.rows ≤ 1 then s.nvEnd Code.ok
  else { s with nv := some { j with addr := j.addr + 64, src := j.src + 64, rows := j.rows - 1, waits := true } }

/-- BLOCK rises: a row or a program that would start in this cycle is refused (R519). -/
def refuseStarts (s : State) : State :=
  let s1 := if s.sup.started = some s.cycle then s.supLow else s
  match s1.nv with
  | some j => if j.op ≠ 1 ∧ (j.waits ∨ j.started = s.cycle) ∧ s1.sup.started.isNone then s1.nvLow j else s1
  | none => s1

/-- BLOCK falls: a row or a program whose start it has refused in this cycle proceeds (R519). -/
def startsAgain (s : State) : State :=
  let s1 := { s with sup := { s.sup with rows := s.sup.rows ++ s.now.lowvRows } }
  let s2 := match s.now.lowv with
    | some (j, isNew) =>
      let j := { j with waits := j.writesRows, started := s.cycle }
      if isNew then s1.nvStart j else { s1 with nv := some j }.nvResult Code.pending false
    | none => s1
  { s2 with now := { s2.now with lowv := none, lowvRows := [] } }.startRow

/-- The supervisor's first row is written; the last of a copy completes it. -/
def endSupRow (s : State) : State :=
  match s.sup.rows with
  | r :: rest =>
    let s1 := { s.writeRow r.addr r.data with sup := { rows := rest } }
    match r.gen with
    | some g => s1.setPairSlot r.pair r.slot { s1.pairSlot r.pair r.slot with copied := some g }
    | none => s1
  | [] => s

/-! ### The OTP array (R520) -/

/-- Bits of NV_OTP_STAT. -/
def slotValid (s : State) (k : Nat) : Bool := (s.reg Reg.NV_OTP_STAT).getLsbD k
def slotRevoked (s : State) (k : Nat) : Bool := (s.reg Reg.NV_OTP_STAT).getLsbD (4 + k)
def slotDamaged (s : State) (k : Nat) : Bool := (s.reg Reg.NV_OTP_STAT).getLsbD (8 + k)

/-- A bit of NV_OTP_STAT programmed. -/
def setOtp (s : State) (i : Nat) : State := s.setReg Reg.NV_OTP_STAT (s.reg Reg.NV_OTP_STAT ||| (1#32 <<< i))

/-- A floor: 0 supervisor, 1 engine program, 2 package. -/
def floorFld : Nat → Fld
  | 0 => Fld.NV_OTP_STAT_FLOOR_SUP | 1 => Fld.NV_OTP_STAT_FLOOR_ENG | _ => Fld.NV_OTP_STAT_FLOOR_PKG

/-- Hash of a key slot. -/
def slotHash (s : State) (k : Nat) : Nat := if k = 0 then Config.kolwaldKey else Store.get (fun _ => 0) s.keyHash k

/-- A key slot is one that R59 item 2 lets pass. -/
def slotUsable (s : State) (k : Nat) : Bool := s.slotValid k && !s.slotRevoked k && !s.slotDamaged k

end State

/-! ### The commands -/

/-- Monitor 0 CORE_LOW, 1 IO_LOW or 2 NV_LOW asserts. -/
def execSupplyMonitorAssert (m : Nat) (s : State) : Answer :=
  .next (if m < 3 ∧ !s.flag (State.monitorFld m) then
    (((((s.setFlag (State.monitorFld m) true).setFlag Fld.PWR_STAT_BLOCK true).setFlag Fld.PWR_STAT_WARN true).count
      Fld.PWR_STAT_WARN_CNT).notify (.powerWarning m)).refuseStarts
  else s)

/-- All three monitors have been clean for 100 µs: their common release. -/
def execBlockRelease (s : State) : Answer :=
  .next (((((s.setFlag Fld.PWR_STAT_CORE_LOW false).setFlag Fld.PWR_STAT_IO_LOW false).setFlag Fld.PWR_STAT_NV_LOW
    false).setFlag Fld.PWR_STAT_BLOCK false).startsAgain)

/-- The measured supplies in mV. -/
def execVmonUpdate (core sram nv io : BitVec 12) (s : State) : Answer :=
  .next ((((s.setFld Fld.PWR_VMON0_CORE core.toNat).setFld Fld.PWR_VMON0_SRAM sram.toNat).setFld Fld.PWR_VMON1_NV
    nv.toNat).setFld Fld.PWR_VMON1_IO io.toNat)

/-- NV command READ, with the errors its row's words meet. -/
def execNvRead (who : Ident) (errs : List MramFault) (s : State) : Answer :=
  .next (s.live fun s => (s.nvCommand who fun s =>
    if s.nvAddr % 64 ≠ 0 then s.nvRefuse who Code.badArg
    else { s with nv := some { op := 1, addr := s.nvAddr, src := 0, rows := 0, data := [], hash := 0, started := s.cycle
                               errs := errs } }.nvResult Code.pending false))

/-- A READ ends, 100 ns after its start (Table PWR-6, R515). -/
def State.endNvRead (s : State) : State :=
  match s.nv with
  | some j =>
    if j.op ≠ 1 ∨ s.cycle < j.started + 80 then s
    else
      let bad (w : Nat) : Bool := j.errs.any fun e => e.fatal && e.word == w
      let bs := (s.mram.readBytes j.addr 64).zipIdx.map fun p => if bad (p.2 / 8) then 0xFF#8 else p.1
      let s := j.errs.foldl (fun s e =>
        if e.fatal then (s.count Fld.NV_ERR_UNCORR).notify .nvError else s.count Fld.NV_ERR_CORR) s
      (s.loadNvData bs).nvEnd (if (List.range 8).any bad then Code.internal else Code.ok)
  | none => s

/-- NV command WRITE. -/
def execNvWrite (who : Ident) (s : State) : Answer :=
  .next (s.live fun s => (s.nvCommand who fun s =>
    let code := firstCode
      [(s.nvAddr % 64 != 0, Code.badArg), (s.hostOutsideLoad who, Code.wrongState), (s.nvBlocked, Code.nvLowv)]
    s.nvTake who code { op := 2, addr := s.nvAddr, src := 0, rows := 1, data := s.nvData, hash := 0, started := s.cycle
                        waits := true }))

/-- NV command COPY of `rows` rows. -/
def execNvCopy (who : Ident) (rows : Nat) (s : State) : Answer :=
  .next (s.live fun s => (s.nvCommand who fun s =>
    let src := s.fld Fld.NV_SRC_SRC
    let code := firstCode
      [(s.nvAddr % 64 != 0 || rows == 0 || decide (32768 < rows) || src % 64 != 0 ||
          decide (0x200000 < src + rows * 64) || decide (0x400000 < s.nvAddr + rows * 64), Code.badArg),
        (s.hostOutsideLoad who || decide (Mode.load < s.mode), Code.wrongState), (s.nvBlocked, Code.nvLowv)]
    s.nvTake who code { op := 3, addr := s.nvAddr, src := src, rows := rows, data := [], hash := 0, started := s.cycle
                        waits := true }))

/-- The row write in progress completes, 1.2 µs after its start, and the next row starts, or is refused under BLOCK. -/
def execRowWriteDone (s : State) : Answer :=
  .next (s.live fun s => (match s.sup.started with
    | some t => if s.cycle < t + 960 then s else s.endSupRow.startRow
    | none =>
      match s.nv with
      | some j => if !j.writesRows ∨ j.waits ∨ s.cycle < j.started + 960 then s else (s.endNvRow j).startRow
      | none => s))

/-- NV command OTP_KEY: NV_DATA0–11 are the hash of the slot NV_ADDR[1:0]. -/
def execOtpKey (who : Ident) (s : State) : Answer :=
  .next (s.live fun s => (s.nvCommand who fun s =>
    let k := s.nvAddr % 4
    let code := firstCode
      [(k == 0, Code.badArg), (s.mode != Mode.load || s.slotValid k || s.slotDamaged k, Code.wrongState),
        (s.nvBlocked, Code.nvLowv)]
    let hash := (s.nvData.take 48).foldl (fun v b => v * 256 + b.toNat) 0
    s.nvTake who code { op := 4, addr := k, src := 0, rows := 0, data := [], hash := hash, started := s.cycle }))

/-- NV command OTP_REVOKE. -/
def execOtpRevoke (who : Ident) (s : State) : Answer :=
  .next (s.live fun s => (s.nvCommand who fun s =>
    let k := s.nvAddr % 4
    let code := firstCode
      [(k == 0, Code.badArg), (s.mode != Mode.load || !s.slotValid k || s.slotRevoked k, Code.wrongState),
        (s.nvBlocked, Code.nvLowv)]
    s.nvTake who code { op := 5, addr := k, src := 0, rows := 0, data := [], hash := 0, started := s.cycle }))

/-- NV command OTP_FLOOR: floor NV_ADDR[9:8] is raised to NV_ADDR[5:0]. -/
def execOtpFloor (who : Ident) (s : State) : Answer :=
  .next (s.live fun s => (s.nvCommand who fun s =>
    let i := s.nvAddr / 256 % 4
    let v := s.nvAddr % 64
    let now := s.fld (State.floorFld i)
    let code := firstCode
      [(i == 3 || decide (v < now), Code.badArg), (s.mode != Mode.load, Code.wrongState),
        (s.nvBlocked && v != now, Code.nvLowv)]
    if code = Code.ok ∧ v = now then s.nvResult Code.ok true
    else s.nvTake who code { op := 6, addr := i, src := v, rows := 0, data := [], hash := 0, started := s.cycle }))

/-- An OTP program completes, 200 µs after its start. -/
def execOtpProgramDone (s : State) : Answer :=
  .next (s.live fun s => (match s.nv with
    | some j =>
      if j.op < 4 ∨ s.cycle < j.started + 160000 then s
      else
        let s :=
          if j.op = 4 then { s with keyHash := Store.set (fun _ => 0) s.keyHash j.addr j.hash }.setOtp j.addr
          else if j.op = 5 then s.setOtp (4 + j.addr)
          else s.setFld (State.floorFld j.addr) j.src
        s.nvEnd Code.ok
    | none => s))

/-! ### JTAG (R525) -/

/-- A JTAG instruction takes effect unless JTAG_TRST_N holds the test logic reset; one other than BYPASS and
IDCODE acts as BYPASS unless PORST_N is low. -/
def jtagInstr (s : State) (k : Nat) : State :=
  if s.jtag.trstLow then s
  else { s with jtag := { s.jtag with instr := if k < 2 ∨ s.porstLow then k else 0 } }

/-- JTAG instruction BYPASS. -/
def execBypass (s : State) : Answer := .next (jtagInstr s 0)

/-- JTAG instruction IDCODE. -/
def execIdcode (s : State) : Answer := .next (jtagInstr s 1)

/-- JTAG instruction SAMPLE/PRELOAD. -/
def execSamplePreload (s : State) : Answer := .next (jtagInstr s 2)

/-- JTAG instruction EXTEST. -/
def execExtest (s : State) : Answer := .next (jtagInstr s 3)

/-- The JTAG_TRST_N ball; low holds the test logic reset, whose instruction is IDCODE. -/
def execJtagTrstN (low : Bool) (s : State) : Answer :=
  .next { s with jtag := { instr := if low then 1 else s.jtag.instr, trstLow := low } }

end Sys2Proof.Machine
end

