-- ==== Sys2Proof/Machine/Xing.lean ====
section
/-!
DEFINITION. The Crossing's operations: cells and frames (R214–R217), tables and generations (R218–R224),
gates (R243–R246), link aggregation (R247–R249), queues (R236–R241) and the classification (R225–R235).
-/

namespace Sys2Proof.Machine

namespace State

/-- The Crossing replaced. -/
def setXing (s : State) (x : Crossing) : State := { s with xing := x }

/-! ### Numbers (R210, R211) -/

/-- A destination or source number is reserved on this chip. -/
def destReserved (s : State) (n : Nat) : Bool :=
  if n < 34 then !s.variant.hasPort n
  else if n < 42 then decide (s.variant.districts ≤ n - 34)
  else if n = 42 then false
  else if n < 51 then !s.variant.hasWilern || n == 43 + s.chip
  else decide (58 < n)

/-! ### Cells (R214, R215) -/

/-- Length of the free list. -/
def freeCells (s : State) : Nat := s.fld Fld.XING_BUF_STAT_FREE

/-- FREE written, and MIN_FREE with it. -/
def setFree (s : State) (n : Nat) : State :=
  (s.setFld Fld.XING_BUF_STAT_FREE n).setFld Fld.XING_BUF_STAT_MIN_FREE (min n (s.fld Fld.XING_BUF_STAT_MIN_FREE))

/-- The `n`-th free cell, of a list of the others in ascending order. -/
def nthFree : Nat → List Nat → Nat
  | n, [] => n
  | n, a :: rest => if a ≤ n then nthFree (n + 1) rest else n

/-- A cell taken from the free list for a frame. Which one is free to the manual (log entry 19). -/
def takeCell (s : State) (f : Nat) : Nat × State :=
  let c := nthFree (s.drawn % max 1 s.freeCells) (s.xing.cells.map (·.1))
  let s1 := s.draw
  (c, (s1.setXing { s1.xing with cells := Store.insert s1.xing.cells c (.held f) }).setFree (s.freeCells - 1))

/-- Cells taken one after the other. -/
def takeCells (f : Nat) : Nat → State → List Nat × State
  | 0, s => ([], s)
  | n + 1, s =>
    let t := s.takeCell f
    let r := takeCells f n t.2
    (t.1 :: r.1, r.2)

/-- A fatal error (R254). -/
def xingFatal (s : State) : State := (s.setFlag Fld.XING_STAT_FATAL true).notify .crossingFatal

/-- Cells given back to the free list; pushing one that is FREE already is a fatal error (R254). -/
def giveCells (s : State) (cs : List Nat) : State :=
  let used := cs.filter fun c => s.xing.cells.any fun p => p.1 == c
  let s1 := (s.setXing { s.xing with cells := s.xing.cells.filter fun p => !cs.contains p.1 }).setFree
    (s.freeCells + used.length)
  if used.length = cs.length then s1 else s1.xingFatal

/-- Cells left to the Lamplighter: unreferenced, and marked RECLAIMED if their lease was (R217, R253). -/
def loseCells (s : State) (cs : List Nat) (reclaimed : Bool) : State :=
  s.setXing { s.xing with cells := cs.foldl (fun m c => Store.insert m c (.lost reclaimed false)) s.xing.cells }

/-! ### Frames -/

/-- Frame of a number. -/
def frame (s : State) (f : Nat) : Option Frame := Store.get (fun _ => none) s.xing.frames f

/-- A frame replaced, or removed. -/
def setFrame (s : State) (f : Nat) (x : Option Frame) : State :=
  s.setXing { s.xing with frames := Store.set (fun _ => none) s.xing.frames f x }

end State

/-- Address in the buffer of byte `i` of a frame. -/
def Frame.addr (x : Frame) (i : Nat) : Nat := (x.cells[i / 256]?).getD 0 * 256 + i % 256

namespace State

/-- Bytes `i` to `i + n - 1` of a frame. -/
def frameBytesFrom (s : State) (x : Frame) (i n : Nat) : List Byte :=
  (List.range n).map fun k => s.xing.buffer.read (x.addr (i + k))

/-- The whole frame, DA to FCS. -/
def frameBytes (s : State) (x : Frame) : List Byte := s.frameBytesFrom x 0 x.len

/-- One byte of a frame as a number; 0 beyond its end. -/
def frameByte (s : State) (x : Frame) (i : Nat) : Nat := if i < x.len then (s.xing.buffer.read (x.addr i)).toNat else 0

/-- Bytes written into a frame from offset `i` on. -/
def frameWrite (s : State) (x : Frame) (i : Nat) (bs : List Byte) : State :=
  s.setXing { s.xing with buffer := bs.zipIdx.foldl (fun m b => m.write (x.addr (i + b.2)) b.1) s.xing.buffer }

/-- Cells a length takes. -/
def cellsFor (n : Nat) : Nat := (n + 255) / 256

/-- A new frame with fresh cells for `n` bytes. -/
def newFrame (s : State) (n : Nat) (x : Frame) : Nat × State :=
  let f := s.xing.nextFrame
  let t := takeCells f (cellsFor n) s
  let s1 := t.2.setXing { t.2.xing with nextFrame := f + 1 }
  (f, s1.setFrame f (some { x with cells := t.1, len := n }))

/-- A frame of these bytes, written into fresh cells. -/
def storeFrame (s : State) (bs : List Byte) (x : Frame) : Nat × State :=
  let t := s.newFrame bs.length x
  match t.2.frame t.1 with
  | some y => (t.1, t.2.frameWrite y 0 bs)
  | none => t

/-- Newest generation number. -/
def curGen (s : State) : Nat := s.fld Fld.XING_GEN_STAT_CUR

/-- The last copy of a frame has ended: it leaves the old generation's count (R224). -/
def leaveFlight (s : State) (gen : Nat) : State :=
  if s.flag Fld.XING_GEN_STAT_OLD_LIVE ∧ gen ≠ s.curGen then
    s.setFld Fld.XING_GEN_STAT_OLD_INFLIGHT (s.fld Fld.XING_GEN_STAT_OLD_INFLIGHT - 1)
  else s

/-- Cells whose last reference has ended return to the free list, those of a reclaimed frame through the Lamplighter;
a frame without copies, cells or leases is gone. -/
def settleFrame (s : State) (f : Nat) : State :=
  match s.frame f with
  | some x =>
    if x.refs = 0 ∧ x.leases = 0 then
      let s1 := if x.reclaimed then s.loseCells x.cells true else s.giveCells x.cells
      if x.copies = 0 then s1.setFrame f none else s1.setFrame f (some { x with cells := [] })
    else s
  | none => s

/-- A copy's reference to the cells ends. -/
def dropRef (s : State) (f : Nat) : State :=
  match s.frame f with
  | some x => (s.setFrame f (some { x with refs := x.refs - 1 })).settleFrame f
  | none => s

/-- A copy ends; `onChip` when it still holds the cells. -/
def endCopy (s : State) (f : Nat) (onChip : Bool) : State :=
  match s.frame f with
  | some x =>
    let y := { x with copies := x.copies - 1, refs := if onChip then x.refs - 1 else x.refs }
    let s1 := s.setFrame f (some y)
    (if y.copies = 0 then s1.leaveFlight x.gen else s1).settleFrame f
  | none => s

/-! ### Drops (R255, R256) -/

/-- A drop under a reason code, with its source and queue. Of several drops in one XCLK cycle (five of them take eight
FCLK cycles) the one recorded is that with the lowest code. -/
def drop (s : State) (reason source queue : Nat) : State :=
  let s1 := if reason = 5 then s.count (Fld.XING_DUP_DROP_COUNT) else s.count (Fld.XING_DROP_COUNT reason)
  let now := s.cycle * 5 / 8
  if s.xing.dropAt = some now ∧ s.fld Fld.XING_DROP_LAST_REASON < reason then s1.setFlag Fld.XING_DROP_LAST_VALID true
  else
    ((s1.setXing { s1.xing with dropAt := some now }).setReg Reg.XING_DROP_LAST
      (BitVec.ofNat 32 (reason + 2 ^ 8 * source + 2 ^ 16 * queue))).setFlag Fld.XING_DROP_LAST_VALID true

/-- A frame dropped before its queues are known. -/
def dropFrame (s : State) (f reason : Nat) : State :=
  match s.frame f with
  | some x => (s.drop reason x.source 0x1FF).endCopy f true
  | none => s

/-! ### Tables (R218–R224) -/

/-- An entry of the newest generation. -/
def tbl (s : State) (t i : Nat) : Entry := Store.get (fun _ => {}) s.xing.tables (t * 65536 + i)

/-- An entry of a generation. -/
def tblOf (s : State) (gen t i : Nat) : Entry :=
  if gen = s.curGen then s.tbl t i else Store.get (fun _ => {}) s.xing.old (t * 65536 + i)

end State

/-- Greatest number of entries of a table (Table XING-3); 0 for a reserved table. -/
def tableSize : Nat → Nat
  | 0 => 44 | 1 => 4096 | 2 => 65536 | 3 => 256 | 4 => 512 | 5 => 512 | 6 => 4096 | 7 => 256 | 8 => 8
  | 9 => 2176 | 10 => 34 | _ => 0

/-- A mask of two words. -/
def Entry.mask (e : Entry) : Nat := e.d0.toNat + 2 ^ 32 * e.d1.toNat

/-- Port of member `m` of a LAG entry. -/
def Entry.member (e : Entry) (m : Nat) : Nat :=
  fieldGet (if m < 4 then e.d1 else e.d2) (m % 4 * 8) 6

/-- Enabled members, ascending. -/
def Entry.members (e : Entry) : List Nat := (List.range 8).filter fun m => e.d0.getLsbD m

/-! ### Keys and hashes (R229, R248) -/

/-- Bytes of a number, most significant first. -/
def bytesBE : Nat → Nat → List Nat
  | 0, _ => []
  | n + 1, v => v / 256 ^ n % 256 :: bytesBE n v

/-- Bucket of a key: a 48-bit address and a VID. -/
def fwdBucket (da vid : Nat) : Nat := crc32cBytes (bytesBE 6 da ++ bytesBE 2 vid) % 2 ^ 14

/-- Bucket of a flow for link aggregation. -/
def lagBucket (da sa vid etype tag : Nat) : Nat :=
  crc32cBytes (bytesBE 6 da ++ bytesBE 6 sa ++ bytesBE 2 vid ++ bytesBE 2 etype ++ bytesBE 2 tag) % 64

namespace State

/-! ### Validation of a shadow (R221) -/

/-- The tables as they would be after a commit. -/
def merged (s : State) : Store Entry :=
  s.xing.shadow.foldl (fun t p =>
    match p.2 with
    | some e => Store.set (fun _ => {}) t p.1 e
    | none => t) s.xing.tables

/-- An entry of the tables after a commit. -/
def mtbl (m : Store Entry) (t i : Nat) : Entry := Store.get (fun _ => {}) m (t * 65536 + i)

/-- A mask names only numbers of this chip. -/
def maskGood (s : State) (v : Nat) : Bool := (List.range 64).all fun n => !v.testBit n || !s.destReserved n

/-- Item 1 for one entry: reserved encodings, ranges and numbers. -/
def entryGood (s : State) (t i : Nat) (e : Entry) : Bool :=
  match t with
  | 0 => decide (fieldGet e.d0 19 3 ≤ 3) && decide (i < 34 ∨ 41 < i ∨ fieldGet e.d1 0 16 ≤ 32768) &&
      (if i = 43 then s.variant.hasWilern else !s.destReserved i)
  | 1 => s.maskGood e.mask
  | 2 => fieldGet e.d2 8 1 == 1 || !s.destReserved (fieldGet e.d2 0 8)
  | 3 => s.maskGood e.mask
  | 5 =>
    decide (fieldGet e.d0 0 6 ≤ 50) && !s.destReserved (fieldGet e.d0 0 6) &&
      decide (1 ≤ fieldGet e.d1 0 16 ∧ fieldGet e.d1 0 16 ≤ 32768 ∧ 64 ≤ fieldGet e.d2 0 16)
  | 6 => fieldGet e.d0 1 2 != 3
  | 7 => decide (1 ≤ e.d1.toNat ∧ e.d1.toNat ≤ 10000000 ∧ 64 ≤ fieldGet e.d2 0 24)
  | 8 => (List.range 8).all fun m => s.variant.hasPort (e.member m)
  | 10 => decide (fieldGet e.d0 0 7 ≤ 64) && decide (fieldGet e.d1 0 30 ≤ 999999999) && s.variant.hasPort i
  | _ => true

/-- Item 2: a VALID FWD entry lies in its key's bucket. -/
def fwdGood (k : Nat) (e : Entry) : Bool :=
  let da := e.d0.toNat + 2 ^ 32 * fieldGet e.d1 0 16
  fieldGet e.d1 28 1 == 0 || fwdBucket da (fieldGet e.d1 16 12) == (k % 65536) / 4

/-- The key of a VALID FWD entry. -/
def fwdKeys (m : Store Entry) : List (Word × Nat) :=
  m.filterMap fun p =>
    if p.1 / 65536 = 2 ∧ fieldGet p.2.d1 28 1 = 1 then some (p.2.d0, fieldGet p.2.d1 0 28) else none

/-- Item 3: a VALID QMAP entry names an enabled queue of its destination. -/
def qmapGood (m : Store Entry) (k : Nat) (e : Entry) : Bool :=
  let dest := k % 65536 / 8
  let q := mtbl m 5 (fieldGet e.d0 0 9)
  fieldGet e.d0 9 1 == 0 || (decide (dest < 51) && fieldGet q.d0 14 1 == 1 && fieldGet q.d0 0 6 == dest)

/-- Item 4: a queue enabled now keeps its DEST, and TT and SPILL are not both 1. -/
def queueGood (s : State) (k : Nat) (e : Entry) : Bool :=
  let q := s.tbl 5 (k % 65536)
  !(fieldGet e.d0 12 1 == 1 && fieldGet e.d0 13 1 == 1) &&
    (fieldGet q.d0 14 1 == 0 || fieldGet q.d0 0 6 == fieldGet e.d0 0 6)

/-- Ports that the groups name as enabled members, with their group. -/
def lagPorts (m : Store Entry) : List (Nat × Nat) :=
  (List.range 8).flatMap fun g => (mtbl m 8 g).members.map fun i => ((mtbl m 8 g).member i, g)

/-- Item 5. -/
def lagGood (m : Store Entry) : Bool :=
  let ps := lagPorts m
  decide ((ps.map (·.1)).dedup.length = ps.length) &&
    (ps.all fun p => fieldGet (mtbl m 0 p.1).d0 22 1 == 1 && fieldGet (mtbl m 0 p.1).d0 23 3 == p.2) &&
    (List.range 34).all fun n => fieldGet (mtbl m 0 n).d0 22 1 == 0 || ps.any fun p => p.1 == n

/-- Item 6. -/
def gateGood (m : Store Entry) (n : Nat) : Bool :=
  let e := mtbl m 10 n
  let len := fieldGet e.d0 0 7
  fieldGet e.d0 7 1 == 0 ||
    (decide (1 ≤ len ∧ len ≤ 64 ∧ 0 < fieldGet e.d1 0 30) &&
      (List.range len).all fun i => decide (0 < fieldGet (mtbl m 9 (n * 64 + i)).d1 0 24))

/-- Item 7, and the reserved encodings of XING_ALLEY. -/
def alleyGood (s : State) (m : Store Entry) : Bool :=
  let t := s.shadowFld Fld.XING_ALLEY_TARGET
  let q := mtbl m 5 (s.shadowFld Fld.XING_ALLEY_QUEUE)
  (decide (t < 34) || t == 42) && !s.destReserved t &&
    (s.shadowFld Fld.XING_ALLEY_EN == 0 || (fieldGet q.d0 14 1 == 1 && fieldGet q.d0 0 6 == t))

/-- Items 1–7 of R221. -/
def xingGood (s : State) : Bool :=
  let m := s.merged
  (s.xing.shadow.all fun p =>
    match p.2 with
    | some e =>
      s.entryGood (p.1 / 65536) (p.1 % 65536) e && (p.1 / 65536 != 5 || s.queueGood p.1 e)
    | none => true) &&
    (m.all fun p => (p.1 / 65536 != 2 || fwdGood p.1 p.2) && (p.1 / 65536 != 4 || qmapGood m p.1 p.2)) &&
    decide ((fwdKeys m).dedup.length = (fwdKeys m).length) && lagGood m &&
    ((List.range 34).all fun n => gateGood m n) && s.alleyGood m

/-! ### Gates (R243–R246) -/

/-- The schedule a port's GATE and GCL entries give, with the upper part of SEC from line time. -/
def schedOf (s : State) (m : Store Entry) (n : Nat) : GateSched :=
  let e := mtbl m 10 n
  { enabled := fieldGet e.d0 7 1 == 1
    base := Instant.mk (Instant.sec s.lineTime / 2 ^ 32 * 2 ^ 32 + e.d3.toNat) (fieldGet e.d2 0 30) 0
    cycle := fieldGet e.d1 0 30
    list := (List.range (fieldGet e.d0 0 7)).map fun i =>
      let g := mtbl m 9 (n * 64 + i)
      (fieldGet g.d0 0 8, fieldGet g.d1 0 24) }

end State

/-- A schedule's cycle as intervals: start in ns, end in ns and gates; what overruns the cycle is cut, and the
last entry lasts to its end (R243). -/
def GateSched.intervals (g : GateSched) : List (Nat × Nat × Nat) :=
  let rec go (t : Nat) : List (Nat × Nat) → List (Nat × Nat × Nat)
    | [] => []
    | [(gates, _)] => [(t, g.cycle, gates)]
    | (gates, n) :: rest => (t, min g.cycle (t + n), gates) :: go (t + n) rest
  (go 0 g.list).filter fun x => decide (x.1 < g.cycle)

/-- Position of an instant in its cycle, in units of 2^-48 ns. -/
def GateSched.phase (g : GateSched) (t : Instant) : Nat :=
  (((t : Int) - (g.base : Int)) % (max 1 (g.cycle * Instant.nano) : Nat)).toNat

/-- A gate is open at an instant. -/
def GateSched.isOpen (g : GateSched) (gate : Nat) (t : Instant) : Bool :=
  let p := g.phase t
  !g.enabled || g.intervals.any fun x =>
    x.2.2.testBit gate && decide (x.1 * Instant.nano ≤ p ∧ p < x.2.1 * Instant.nano)

/-- The intervals of two cycles from the one that holds an instant, as instants. -/
def GateSched.ahead (g : GateSched) (t : Instant) : List (Instant × Instant × Nat) :=
  let start := t - g.phase t
  [0, 1, 2].flatMap fun k => g.intervals.map fun x =>
    (start + (k * g.cycle + x.1) * Instant.nano, start + (k * g.cycle + x.2.1) * Instant.nano, x.2.2)

/-- The next closing instant of a gate that is open at an instant; none when it never closes (R244). -/
def GateSched.closes (g : GateSched) (gate : Nat) (t : Instant) : Option Instant :=
  if g.enabled then
    match (g.ahead t).find? fun x => decide (t < x.2.1) && !x.2.2.testBit gate with
    | some x => some (max t x.1)
    | none => none
  else none

/-- The next opening instant of a gate that is closed. -/
def GateSched.opens (g : GateSched) (gate : Nat) (t : Instant) : Option Instant :=
  match (g.ahead t).find? fun x => decide (t < x.2.1) && x.2.2.testBit gate with
  | some x => some (max t x.1)
  | none => none

namespace State

/-- Schedules of port `n`. -/
def gates (s : State) (n : Nat) : Gates := Store.get (fun _ => {}) s.xing.gates n

/-- The schedule in force at a port at an instant. -/
def schedAt (s : State) (n : Nat) (t : Instant) : GateSched :=
  match ((s.gates n).line.filter fun p => decide (p.1 ≤ t)).getLast? with
  | some p => p.2
  | none => {}

/-- The schedule in force at a port now. -/
def sched (s : State) (n : Nat) : GateSched := s.schedAt n s.lineTime

/-- The schedules of a port from an instant on: each with its start and, but for the last, its end. -/
def schedsFrom (s : State) (n : Nat) (t : Instant) : List (Instant × GateSched × Option Instant) :=
  let later := (s.gates n).line.filter fun p => decide (t < p.1)
  let starts := (t, s.schedAt n t) :: later
  starts.zipIdx.map fun x => (x.1.1, x.1.2, (later[x.2]?).map (·.1))

/-- An instant of a schedule's time that lies before its end, or at its start. -/
def within (start : Instant) (stop : Option Instant) (u : Instant) : Option Instant :=
  if stop.all fun e => decide (u < e) then some (max start u) else none

/-- The first instant from `t` on at which a gate of a port is open. -/
def gateOpens (s : State) (n gate : Nat) (t : Instant) : Option Instant :=
  (s.schedsFrom n t).findSome? fun x =>
    if x.2.1.isOpen gate x.1 then some x.1 else (x.2.1.opens gate x.1).bind (within x.1 x.2.2)

/-- The first instant from `t` on at which it is closed. -/
def gateCloses (s : State) (n gate : Nat) (t : Instant) : Option Instant :=
  (s.schedsFrom n t).findSome? fun x =>
    if !x.2.1.isOpen gate x.1 then some x.1 else (x.2.1.closes gate x.1).bind (within x.1 x.2.2)

/-- The end of the window of a copy enqueued at `t`: of the open interval in progress then, or of the next one (R245). -/
def ttWindow (s : State) (n gate : Nat) (t : Instant) : Option Instant :=
  (s.gateOpens n gate t).bind (s.gateCloses n gate)

/-- A committed GATE or GCL change of a port: it takes effect with its first cycle start at or after 1 µs from now, one
that sets ENABLE = 0 at once; a change still to come that would follow it is overtaken (R246). -/
def changeGates (s : State) (m : Store Entry) (n : Nat) : State :=
  let g := s.schedOf m n
  let after := s.lineTime + 1000 * Instant.nano
  let start :=
    if !g.enabled then s.lineTime
    else if g.phase after = 0 then after else after + (g.cycle * Instant.nano - g.phase after)
  let x : Gates := { line := ((s.gates n).line.filter fun p => decide (p.1 < start)) ++ [(start, g)] }
  s.setXing { s.xing with gates := Store.set (fun _ => {}) s.xing.gates n x }

/-! ### Link aggregation (R247–R249) -/

/-- A port's link is up. -/
def linkUp (s : State) (n : Nat) : Bool := s.flag (Fld.ETH_STAT_LINK n)

/-- Members of a group that are up. -/
def lagUp (s : State) (g : Nat) : List Nat := (s.tbl 8 g).members.filter fun m => s.linkUp ((s.tbl 8 g).member m)

/-- Home of a bucket. -/
def lagHome (e : Entry) (b : Nat) : Nat := (e.members[b % max 1 e.members.length]?).getD 0

/-- Member a bucket is assigned to. -/
def lagAssigned (s : State) (g b : Nat) : Nat := Store.get (fun _ => 0) s.xing.buckets (g * 64 + b)

/-- A bucket assigned. -/
def assignBucket (s : State) (g b m : Nat) : State :=
  s.setXing { s.xing with buckets := Store.set (fun _ => 0) s.xing.buckets (g * 64 + b) m }

/-- XING_LAG_STAT.UP follows the links. -/
def showLag (s : State) (g : Nat) : State :=
  s.setFld (Fld.XING_LAG_STAT_UP g) (((s.lagUp g).map fun m => 2 ^ m).sum)

/-- A commit changes a group: every bucket goes to its home. -/
def resetLag (s : State) (g : Nat) : State :=
  ((List.range 64).foldl (fun s b => s.assignBucket g b (lagHome (s.tbl 8 g) b)) s).showLag g

/-- A member has gone down: its buckets go to the up members in turn. -/
def lagDown (s : State) (g m : Nat) : State :=
  let mine := (List.range 64).filter fun b => s.lagAssigned g b == m
  let up := s.lagUp g
  let s1 := if mine.isEmpty || up.isEmpty then s else (s.count (Fld.XING_LAG_STAT_MOVES g))
  if up.isEmpty then s1
  else mine.zipIdx.foldl (fun s p => s.assignBucket g p.1 ((up[p.2 % up.length]?).getD 0)) s1

/-- A member has come up: the buckets whose home it is move back. -/
def lagReturn (s : State) (g m : Nat) : State :=
  let mine := (List.range 64).filter fun b => lagHome (s.tbl 8 g) b == m && s.lagAssigned g b != m
  let s1 := if mine.isEmpty then s else s.count (Fld.XING_LAG_STAT_MOVES g)
  mine.foldl (fun s b => s.assignBucket g b m) s1

/-- A port's link has changed: its group's buckets move. -/
def lagLink (s : State) (n : Nat) (up : Bool) : State :=
  (List.range 8).foldl (fun s g =>
    let e := s.tbl 8 g
    match e.members.find? fun m => e.member m == n with
    | some m => ((if up then s.lagReturn g m else s.lagDown g m)).showLag g
    | none => s) s

/-! ### Generations (R222) -/

/-- Frames in flight that were classified under a generation. -/
def inFlight (s : State) (gen : Nat) : Nat :=
  (s.xing.frames.filter fun p =>
    match p.2 with
    | some x => x.gen == gen && decide (0 < x.copies) && !s.xing.arrived.contains p.1
    | none => false).length

/-- Entries and registers in the shadow (R220). -/
def xingShadowSize (s : State) : Nat :=
  s.xing.shadow.length + (s.shadow.filter fun p => txnCovers .xing p.1).length

/-- The flip: the shadow becomes the newest generation. -/
def flip (s0 : State) : State :=
  let m := s0.merged
  let touched (t : Nat) (i : Nat) : Bool := s0.xing.shadow.any fun p => p.1 == t * 65536 + i
  let old := s0.curGen
  let n := s0.xingShadowSize
  let newFlows := s0.xing.shadow.filterMap fun p =>
    match p.2 with
    | some e =>
      if p.1 / 65536 = 6 ∧ fieldGet e.d0 0 1 = 1 ∧ fieldGet (s0.tbl 6 (p.1 % 65536)).d0 0 1 = 0 then some (p.1 % 65536)
      else none
    | none => none
  let s := s0.setFld Fld.XING_GEN_STAT_OLD_INFLIGHT (s0.inFlight old)
  let s := s.setXing { s.xing with
    old := s.xing.tables, tables := m, shadow := [], oldMeters := s.xing.meters, meters := [], changed := n }
  let s := (s.countWrap Fld.XING_GEN_STAT_CUR).applyShadow .xing
  let s := (s.setFlag Fld.XING_GEN_STAT_OLD_LIVE true).setFlag Fld.XING_GEN_STAT_SYNC false
  let s := newFlows.foldl (fun s f => s.setFlowCtx 0 f none) s
  let s := (List.range 8).foldl (fun s g => if touched 8 g && mtbl m 8 g != s0.tbl 8 g then s.resetLag g else s) s
  (List.range 34).foldl (fun s p =>
    if touched 10 p || (List.range 64).any fun i => touched 9 (p * 64 + i) then s.changeGates m p else s) s

/-- The code of a COMMIT, in the order of the Crossing's own chapter: after an overflow NO_RESOURCE whatever else holds
(R220), and BUSY only for a shadow that passes R221 (R222). -/
def xingCommitCode (s : State) : Nat :=
  firstCode
    [(s.flag Fld.XING_STAT_SHADOW_OVF, Code.noResource), (!s.xingGood, Code.badArg),
      (s.flag Fld.XING_GEN_STAT_OLD_LIVE || !s.flag Fld.XING_GEN_STAT_SYNC, Code.busy)]

/-! ### Frames as bytes -/

/-- Two bytes of a frame, most significant first. -/
def frame16 (s : State) (x : Frame) (i : Nat) : Nat := s.frameByte x i * 256 + s.frameByte x (i + 1)

/-- Six bytes of a frame, most significant first. -/
def frame48 (s : State) (x : Frame) (i : Nat) : Nat :=
  (List.range 6).foldl (fun v k => v * 256 + s.frameByte x (i + k)) 0

/-- The frame carries a 0x8100 tag as its first EtherType. -/
def isTagged (s : State) (x : Frame) : Bool := s.frame16 x 12 == 0x8100

/-- Offset of the EtherType after any 0x8100 tag. -/
def etherOffset (s : State) (x : Frame) : Nat := if s.isTagged x then 16 else 12

/-- The EtherType after any tag. -/
def etherType (s : State) (x : Frame) : Nat := s.frame16 x (s.etherOffset x)

/-- The received FCS, as the digest of R427. -/
def frameDigest (s : State) (x : Frame) : Nat :=
  (List.range 4).foldl (fun v k => v * 256 + s.frameByte x (x.len - 4 + k)) 0

/-- The LSDU size of a frame (log entry 17): the bytes after the EtherType, up to the FCS. -/
def lsduSize (s : State) (x : Frame) : Nat := x.len - 4 - (s.etherOffset x + 2)

/-- Sequence number of a valid redundancy control trailer (R429): LAN 0xA or 0xB. -/
def prpTrailer (s : State) (x : Frame) (lan : Option Nat) : Option Nat :=
  let o := x.len - 10
  let w := s.frame16 x (o + 2)
  let side : Bool := match lan with
    | some l => w / 4096 == l
    | none => w / 4096 == 0xA || w / 4096 == 0xB
  if 24 ≤ x.len ∧ s.frame16 x (o + 4) = 0x88FB ∧ w % 4096 = s.lsduSize x ∧ side then
    some (s.frame16 x o)
  else none

/-- Sequence number of an HSR tag. -/
def hsrTag (s : State) (x : Frame) : Option Nat := if s.frame16 x 12 = 0x892F then some (s.frame16 x 16) else none

/-- Sequence number of an R-TAG after any VLAN tag (R428). -/
def rTag (s : State) (x : Frame) : Option Nat :=
  if s.etherType x = 0xF1C1 then some (s.frame16 x (s.etherOffset x + 4)) else none

/-! ### Classification (Table XING-2) -/

/-- What the forwarding lookup finds (R229). -/
structure Lookup where
  drop : Bool
  mask : Nat
  prio : Option Nat
  mirror : Bool
  flow : Option Nat
  tag : Nat
  filter : Option Nat
  deriving DecidableEq, Repr

/-- Step 4: the four ways of the key's bucket are compared at once. -/
def lookup (s : State) (da vid : Nat) : Lookup :=
  let b := fwdBucket da vid
  let hit := ([0, 1, 2, 3].map fun w => s.tbl 2 (4 * b + w)).find? fun e =>
    fieldGet e.d1 28 1 == 1 && e.d0.toNat + 2 ^ 32 * fieldGet e.d1 0 16 == da && fieldGet e.d1 16 12 == vid
  match hit with
  | some e =>
    { drop := fieldGet e.d2 13 1 == 1
      mask := if fieldGet e.d2 8 1 = 1 then (s.tbl 3 (fieldGet e.d2 0 8)).mask else 2 ^ fieldGet e.d2 0 8
      prio := if fieldGet e.d2 12 1 = 1 then some (fieldGet e.d2 9 3) else none
      mirror := fieldGet e.d2 14 1 == 1
      flow := if fieldGet e.d2 15 1 = 1 then some (fieldGet e.d2 16 12) else none
      tag := fieldGet e.d3 0 16
      filter := if fieldGet e.d3 24 1 = 1 then some (fieldGet e.d3 16 8) else none }
  | none =>
    let v := s.tbl 1 vid
    { drop := fieldGet v.d3 10 1 == 1, mask := (s.tbl 3 (fieldGet v.d3 2 8)).mask
      prio := none, mirror := false, flow := none, tag := 0, filter := none }

/-- The source's bit in masks: a LAG member's is its group's (R227, R232). -/
def sourceBit (s : State) (src : Nat) : Nat :=
  let p := s.tbl 0 src
  if src < 34 ∧ fieldGet p.d0 22 1 = 1 then 51 + fieldGet p.d0 23 3 else src

/-- Step 2: VID and priority, or none when the frame is dropped. -/
def vlanStep (s : State) (x : Frame) : Option (Nat × Nat) :=
  let p := s.tbl 0 x.source
  let tagged := s.isTagged x
  let tci := s.frame16 x 14
  let prioTag := tagged && tci % 4096 == 0
  let vid := if x.source = 43 then x.vid else if tagged ∧ tci % 4096 ≠ 0 then tci % 4096 else fieldGet p.d0 0 12
  let prio := if x.source = 43 then x.prio
    else if fieldGet p.d0 15 1 = 1 ∧ tagged then tci / 2 ^ 13 else fieldGet p.d0 12 3
  let v := s.tbl 1 vid
  let form := if tagged && !prioTag then fieldGet p.d0 17 1 == 1 else fieldGet p.d0 16 1 == 1
  if !form || vid == 0xFFF || fieldGet v.d3 11 1 == 0 ||
      (fieldGet p.d0 18 1 == 1 && !v.mask.testBit (s.sourceBit x.source)) then none
  else some (vid, prio)

/-- Step 3: the PRP and HSR discard of a frame from a port with RMODE. -/
def prpStep (s : State) (x : Frame) : Bool × State :=
  let mode := if x.source < 34 then fieldGet (s.tbl 0 x.source).d0 19 3 else 0
  let key := if mode = 1 then (s.prpTrailer x (some 0xA)).map fun q => (q, 0)
    else if mode = 2 then (s.prpTrailer x (some 0xB)).map fun q => (q, 0)
    else if mode = 3 then (s.hsrTag x).map fun q => (q, 1)
    else none
  match key with
  | some (q, g) => s.prpJudge (s.frame48 x 6) q g x.source
  | none => (true, s)

/-- A bucket's level now: it fills at CIR up to CBS, and is full when its generation begins (R230). -/
def meterLevel (s : State) (i : Nat) (e : Entry) : Nat :=
  let full := fieldGet e.d2 0 24 * 800000000
  match Store.get (fun _ => none) s.xing.meters i with
  | some m => min full (m.level + (s.cycle - m.at') * e.d1.toNat * 125)
  | none => full

/-- Step 5: the stream filter answers a drop reason, or none. -/
def filterStep (s : State) (i len : Nat) : Option Nat × State :=
  let e := s.tbl 7 i
  let sdu := fieldGet e.d0 0 14
  if sdu ≠ 0 ∧ sdu < len then (some 2, s)
  else if fieldGet e.d0 14 1 = 0 then (none, s)
  else
    let lvl := s.meterLevel i e
    let need := len * 800000000
    if need ≤ lvl then
      (none, s.setXing { s.xing with
        meters := Store.set (fun _ => none) s.xing.meters i (some { level := lvl - need, at' := s.cycle }) })
    else (some 3, s)

/-- The flow a frame carries (Table RED-2), and whether its FLOW entry finds no tag (NOTAG). -/
def flowOf (s : State) (x : Frame) (fwd : Option Nat) : Option (Nat × Nat) × Bool :=
  if x.direct.isSome || x.source == 43 then (x.tag, false)
  else
    match fwd with
    | none => (none, false)
    | some f =>
      match (if 34 ≤ x.source then x.tag else none) with
      | some (_, q) => (some (f, q), false)
      | none =>
        let e := s.tbl 6 f
        if fieldGet e.d0 0 1 = 0 then (none, false)
        else
          let q := match fieldGet e.d0 1 2 with
            | 0 => s.rTag x
            | 1 => s.prpTrailer x none
            | _ => s.hsrTag x
          match q with
          | some q => (some (f, q), false)
          | none => (none, true)

/-! ### Queues (R236–R238) -/

/-- Queue `q`. -/
def queue (s : State) (q : Nat) : Queue := Store.get (fun _ => {}) s.xing.queues q

/-- Copies of a queue that ports are sending: they have not ended (R215). -/
def sendingOf (s : State) (q : Nat) : List Copy :=
  s.ports.filterMap fun p => match p.2.sending with
    | some c => if c.queue = q then some c else none
    | none => none

/-- XING_QDEPTH of one of the 512 queues: a copy counts until it ends (R238). -/
def showDepth (s : State) (q : Nat) : State :=
  let x := s.queue q
  let cs := x.copies ++ s.sendingOf q
  if q < 512 then
    s.setReg (Reg.XING_QDEPTH q)
      (BitVec.ofNat 32 (min 0xFFFF ((cs.map (·.cells)).sum) + 2 ^ 16 * min 0x7FFF cs.length +
        2 ^ 31 * bit (!x.spill.isEmpty)))
  else s

/-- Queue `q` replaced; XING_QDEPTH follows. -/
def setQueue (s : State) (q : Nat) (x : Queue) : State :=
  (s.setXing { s.xing with queues := Store.set (fun _ => {}) s.xing.queues q x }).showDepth q

/-- Cells that a queue's copies reference, those admitted to it and those being sent included. -/
def queueCells (s : State) (q : Nat) : Nat :=
  ((s.queue q).copies.map (·.cells)).sum + ((s.sendingOf q).map (·.cells)).sum +
    ((s.xing.admitted.filter fun p => p.1.queue == q && !p.2).map fun p => p.1.cells).sum

/-- Bytes of the spill store: the first half of its DRAM area (R240, Table ARCH-10). -/
def spillSize (s : State) : Nat :=
  match s.variant with
  | .ixd7240 => 268435456 | .ixd7220 => 134217728 | .ixd7210 => 268435456

/-- Bytes that a spilled copy takes. -/
def spillBytes (len : Nat) : Nat := (len + 16 + 255) / 256 * 256

/-- Copies leave untagged from a port (R235). -/
def untagged (s : State) (gen vid n : Nat) : Bool :=
  let v := s.tblOf gen 1 vid
  if n < 32 then v.d2.getLsbD n else v.d3.getLsbD (n - 32)

/-- Length of a frame after egress editing at a port (R233, R428). -/
def editedLen (s : State) (x : Frame) (n : Nat) : Nat :=
  let base := if s.isTagged x then x.len - 4 else x.len
  let tag := if s.untagged x.gen x.vid n then 0 else 4
  let e := match x.flow with | some p => s.tblOf x.gen 6 p.1 | none => {}
  let strip := if fieldGet e.d0 3 1 = 1 ∧ (s.rTag x).isSome then 6 else 0
  let encode := if fieldGet e.d0 4 1 = 1 then 6 else 0
  base + tag + encode - strip

/-- In COMMISSION a port sends frames of IEEE 1588 and 802.1AS and of LLDP alone (R68). -/
def modeBars (s : State) (x : Frame) (dest : Nat) : Bool :=
  decide (dest < 34) && s.mode == Mode.commission && s.etherType x != 0x88F7 && s.etherType x != 0x88CC

/-- Queue `q` is the Alley queue of a destination (R250): its SPILL and TT are ignored (R251). -/
def isAlleyQueue (s : State) (q dest : Nat) : Bool :=
  s.flag Fld.XING_ALLEY_EN && s.fld Fld.XING_ALLEY_QUEUE == q && s.fld Fld.XING_ALLEY_TARGET == dest

/-- Spill holds copies of a queue, those admitted to it included: the copies behind them go there too (R236, R241). -/
def spillHolds (s : State) (q : Nat) : Bool :=
  !(s.queue q).spill.isEmpty || s.xing.admitted.any fun p => p.1.queue == q && p.2

/-- MAXLEN in force on a port: at 10 and 100 Mbit/s a P0–P23 port has the range up to 2,000 (Table ETH-1). -/
def maxLen (s : State) (n : Nat) : Nat :=
  let m := s.fld (Fld.ETH_CFG_MAXLEN n)
  if n < 24 ∧ s.fld (Fld.ETH_STAT_SPEED_ACT n) ≤ 1 then min m 2000 else m

/-- Step 9 for one copy: it is admitted, to spill if need be, or dropped. -/
def offerCopy (s : State) (f dest : Nat) : State :=
  match s.frame f with
  | none => s
  | some x =>
    let q := fieldGet (s.tblOf x.gen 4 (dest * 8 + x.prio)).d0 0 9
    let e := s.tbl 5 q
    let n := x.cells.length
    let spill := fieldGet e.d0 13 1 = 1 ∧ !s.isAlleyQueue q dest
    let copy : Copy := { frame := f, dest := dest, queue := q, alley := false, size := x.len, cells := n
                         gen := x.gen, enqueued := 0 }
    let beyond := fieldGet e.d1 0 16 < s.queueCells q + n
    if s.modeBars x dest then s.drop 0x08 x.source q
    else if dest < 34 ∧ s.maxLen dest < s.editedLen x dest then s.drop 0x11 x.source q
    else if fieldGet e.d0 6 3 < 6 ∧ s.freeCells < s.fld Fld.XING_BUF_CFG_HI_RESERVE then s.drop 0x09 x.source q
    else if beyond ∨ (spill ∧ s.spillHolds q) then
      if spill then
        if s.spillSize < s.xing.spillUsed + spillBytes x.len then s.drop 0x0E x.source q
        else
          (s.setXing { s.xing with
            admitted := s.xing.admitted ++ [(copy, true)], spillUsed := s.xing.spillUsed + spillBytes x.len }).setFrame f
            (some { x with copies := x.copies + 1, refs := x.refs + 1 })
      else s.drop 0x0A x.source q
    else
      (s.setXing { s.xing with admitted := s.xing.admitted ++ [(copy, false)] }).setFrame f
        (some { x with copies := x.copies + 1, refs := x.refs + 1 })

/-- Step 7: the Alley copy. -/
def alleyStep (s : State) (f : Nat) : State :=
  match s.frame f with
  | none => s
  | some x =>
    let q := s.fld Fld.XING_ALLEY_QUEUE
    let e := s.tbl 5 q
    let n := x.cells.length
    if s.freeCells < s.fld Fld.XING_BUF_CFG_ALLEY_MIN ∨ fieldGet e.d1 0 16 < s.queueCells q + n then
      s.drop 0x12 x.source 0x1FF
    else
      (s.setXing { s.xing with admitted := s.xing.admitted ++
        [({ frame := f, dest := s.fld Fld.XING_ALLEY_TARGET, queue := q, alley := true, size := x.len, cells := n
            gen := x.gen, enqueued := 0 }, false)] }).setFrame f
        (some { x with copies := x.copies + 1, refs := x.refs + 1 })

/-- Step 8: the destinations left after pruning, and those lost as AVE_NA. -/
def destinations (s : State) (x : Frame) (l : Lookup) : List Nat × List Nat :=
  let direct := x.direct.isSome
  let bits := match x.direct with
    | some d => [d.dest]
    | none => (List.range 64).filter fun n => l.mask.testBit n
  let hairpin := fieldGet (s.tbl 0 x.source).d0 27 1 == 1
  let b1 := if direct || hairpin then bits else bits.filter fun n => n != x.source && n != s.sourceBit x.source
  let b2 := if direct then b1 else b1.filter fun n => (s.tbl 1 x.vid).mask.testBit n
  let bucket := lagBucket (s.frame48 x 0) (s.frame48 x 6) x.vid (s.etherType x) (if direct then 0 else l.tag)
  let b3 := b2.filterMap fun n =>
    if 51 ≤ n ∧ n ≤ 58 then
      let g := n - 51
      if (s.lagUp g).isEmpty then none else some ((s.tbl 8 g).member (s.lagAssigned g bucket))
    else some n
  let b4 := b3.dedup.filter fun n =>
    (decide (34 ≤ n) || (s.flag (Fld.ETH_CTRL_EN n) && !s.flag (Fld.ETH_THRU_EN n))) &&
      fieldGet (s.tbl 4 (n * 8 + x.prio)).d0 9 1 == 1
  let na (n : Nat) : Bool := decide (43 ≤ n ∧ n ≤ 50) && (!s.chipInMap (n - 43) || decide (2036 < x.len))
  (b4.filter fun n => !na n, b4.filter na)

/-- Steps 6 to 9 of a frame whose lookup is done. -/
def classifyTail (s : State) (f : Nat) (x : Frame) (l : Lookup) : State :=
  let fl := s.flowOf x l.flow
  let s := if fl.2 then s.count Fld.RED_CNT1_NOTAG else s
  let j := match fl.1 with
    | some p => s.judge 0 p.1 p.2 (s.frameDigest x)
    | none => (true, s)
  if !j.1 then j.2.dropFrame f 0x05
  else
    let y := { x with flow := fl.1 }
    let s := j.2.setFrame f (some y)
    let mirror := fieldGet (s.tbl 0 x.source).d0 26 1 == 1 || l.mirror
    let s := if x.direct.isNone && s.flag Fld.XING_ALLEY_EN && mirror then s.alleyStep f else s
    let d := s.destinations y l
    let s := d.2.foldl (fun s _ => s.drop 0x0F x.source 0x1FF) s
    if d.1.isEmpty then s.dropFrame f 0x07
    else (d.1.foldl (fun s n => s.offerCopy f n) s).endCopy f true

/-- A frame passes the classification (R225). Its own copy, held while it is classified, ends with it. -/
def classify (s : State) (f : Nat) : State :=
  match s.frame f with
  | none => s
  | some x0 =>
    let x := { x0 with gen := s.curGen }
    let s := s.setFrame f (some x)
    if s.flag Fld.XING_STAT_FATAL then s.dropFrame f 0x13
    else
      match x.direct with
      | some d =>
        let y := { x with vid := d.vid, prio := d.prio }
        (s.setFrame f (some y)).classifyTail f y
          { drop := false, mask := 0, prio := none, mirror := false, flow := none, tag := 0, filter := none }
      | none =>
        match s.vlanStep x with
        | none => s.dropFrame f 0x01
        | some (vid, prio) =>
          let x := { x with vid := vid, prio := prio }
          let p := (s.setFrame f (some x)).prpStep x
          if !p.1 then p.2.dropFrame f 0x04
          else
            let s := p.2
            let l := s.lookup (s.frame48 x 0) vid
            if l.drop then s.dropFrame f 0x06
            else
              let x := { x with prio := l.prio.getD x.prio }
              let s := s.setFrame f (some x)
              let t := match l.filter with
                | some i => s.filterStep i x.len
                | none => (none, s)
              match t.1 with
              | some r => t.2.dropFrame f r
              | none => t.2.classifyTail f x l

/-- A frame of these bytes enters the Crossing (step 1): it is stored and waits for its classification, or is
dropped as FATAL or, when it finds the free list empty, as BUF_FULL (R226). -/
def offerFrame (s : State) (bs : List Byte) (x : Frame) : State :=
  if s.flag Fld.XING_STAT_FATAL then s.drop 0x13 x.source 0x1FF
  else if s.freeCells < cellsFor bs.length then (s.setFld Fld.XING_BUF_STAT_MIN_FREE 0).drop 0x09 x.source 0x1FF
  else
    let t := s.storeFrame bs { x with copies := 1, refs := 1, ready := s.cycle }
    t.2.setXing { t.2.xing with arrived := t.2.xing.arrived ++ [t.1] }

end State

end Sys2Proof.Machine
end

