-- ==== Sys2Proof/Machine/Eth.lean ====
section
/-!
DEFINITION. The Ethernet ports at the MAC and the link (R257–R265, R281–R288): counters, reception, links with
their hold, 10BASE-T1S and the settings transaction.
-/

namespace Sys2Proof.Machine

/-- A port none of whose state has changed. -/
def portDflt (_ : Nat) : Port := {}

namespace State

/-- Port `n`. -/
def port (s : State) (n : Nat) : Port := Store.get portDflt s.ports n

/-- Port `n` replaced. -/
def setPort (s : State) (n : Nat) (x : Port) : State := { s with ports := Store.set portDflt s.ports n x }

/-! ### Who may write (R259) -/

/-- A write to a unit's window by `who`: the supervisor and host functions always, an engine only of the
district the unit is bound to (any other engine's store is refused), and nobody else. -/
def unitWrite (s : State) (who : Ident) (bound : State → Nat → Nat → Bool) (n a : Nat) (body : State → State) : State :=
  if Ident.isEngine who then
    if bound s (Ident.engine who / 12) n ∧ Ident.chip who = s.chip then body s else s.refuseStore who a
  else if Ident.isHost who ∨ Ident.isSup who then body s
  else s

/-! ### Counters (R281, R282) -/

/-- Counter `i` of port `n` raised; a change of bit 31 sets its half-range flag, and one that was clear raises
the port's interrupt where it is enabled. -/
def ethCount (s : State) (n i : Nat) (k : Nat := 1) : State :=
  let a := Reg.ETH_CNT n i
  let v := s.reg a + BitVec.ofNat 32 k
  let h := if i < 32 then Reg.ETH_CNT_HALF0 n else Reg.ETH_CNT_HALF1 n
  let ien := if i < 32 then Reg.ETH_CNT_IEN0 n else Reg.ETH_CNT_IEN1 n
  let s1 := s.setReg a v
  if v.getLsbD 31 = (s.reg a).getLsbD 31 then s1
  else
    let s2 := (s1.setReg h (s1.reg h ||| (1#32 <<< (i % 32)))).stampSet h (1#32 <<< (i % 32))
    if (s.reg ien).getLsbD (i % 32) ∧ !(s.reg h).getLsbD (i % 32) then s2.raiseIrq (16 + n) else s2

/-! ### Activity (R263, R67, R68) -/

/-- A 10BASE-T1S port. -/
def isT1s (n : Nat) : Bool := decide (26 ≤ n ∧ n < 34)

/-- T1S_MODE: 0 follower, 1 coordinator, 2 CSMA/CD. -/
def t1sMode (s : State) (n : Nat) : Nat := s.fld (Fld.ETH_CFG_T1S_MODE n)

/-- ETH_STAT.ACTIVE. -/
def ethActive (s : State) (n : Nat) : Bool :=
  s.variant.hasPort n && s.flag (Fld.ETH_CTRL_EN n) && s.linkUp n && decide (Mode.commission ≤ s.mode)

/-- The port may transmit: a 10BASE-T1S port only receives in COMMISSION (Table MODE-15). -/
def ethMaySend (s : State) (n : Nat) : Bool := s.ethActive n && !(isT1s n && s.mode == Mode.commission)

/-- The port is in through-path mode (R276). -/
def isThru (s : State) (n : Nat) : Bool := s.flag (Fld.ETH_THRU_EN n)

/-! ### Frames in counters -/

end State

/-- Size bin of a length, 0–6 (Table ETH-14). -/
def sizeBin (l : Nat) : Nat :=
  if l < 65 then 0 else if l < 128 then 1 else if l < 256 then 2 else if l < 512 then 3
  else if l < 1024 then 4 else if l < 1519 then 5 else 6

/-- Cast of a DA: 0 individual, 1 group, 2 broadcast. -/
def castOf (bs : List Byte) : Nat :=
  if (bs.take 6).all (· == 0xFF#8) then 2 else if ((bs.head?).getD 0).getLsbD 0 then 1 else 0

/-- Two bytes of a list of bytes, most significant first. -/
def wire16 (bs : List Byte) (i : Nat) : Nat := ((bs[i]?).getD 0).toNat * 256 + ((bs[i + 1]?).getD 0).toNat

/-- Bytes of a number, most significant first, as bytes. -/
def bytesOf (n v : Nat) : List Byte := (bytesBE n v).map (BitVec.ofNat 8)

/-- Four FCS bytes of a frame's other bytes, in wire order. -/
def fcsBytes (bs : List Byte) : List Byte :=
  let c := ethCrc (bs.map (·.toNat))
  (List.range 4).map fun i => BitVec.ofNat 8 (c / 256 ^ i)

/-- The FCS of a whole frame is good. -/
def goodFcs (bs : List Byte) : Bool := bs.drop (bs.length - 4) == fcsBytes (bs.take (bs.length - 4))

namespace State

/-- The counters of a good frame received, from RX_OK to RX_TAGGED. -/
def countRx (s : State) (n : Nat) (bs : List Byte) : State :=
  let s := ((s.ethCount n 0).ethCount n 1 bs.length).ethCount n (2 + castOf bs)
  let s := s.ethCount n (5 + sizeBin bs.length)
  if wire16 bs 12 = 0x8100 then s.ethCount n 19 else s

/-- The counters of a frame sent complete. -/
def countTx (s : State) (n : Nat) (bs : List Byte) : State :=
  (((s.ethCount n 20).ethCount n 21 bs.length).ethCount n (22 + castOf bs)).ethCount n (25 + sizeBin bs.length)

/-- What the MAC makes of a received frame (R258): counted and discarded, or good. A frame with an alignment error
is counted in RX_ALIGN_ERR too at 10 and 100 Mbit/s, and code errors inside it in RX_SYMBOL_ERR. -/
def macReceive (s : State) (n : Nat) (bs : List Byte) (align : Bool) (symbols : Nat) : State × Bool :=
  let good := goodFcs bs && !align
  let s := if symbols = 0 then s else s.ethCount n 17 symbols
  if bs.length < 64 then (s.ethCount n (if good then 14 else 15), false)
  else if s.maxLen n < bs.length then (s.ethCount n 16, false)
  else if !good then
    let s := s.ethCount n 12
    (if align ∧ s.fld (Fld.ETH_STAT_SPEED_ACT n) ≤ 1 then s.ethCount n 13 else s, false)
  else
    let s := s.countRx n bs
    if wire16 bs 12 = 0x8808 then (s.ethCount n 18, false) else (s, true)

/-! ### Copies -/

/-- A copy is dropped under a reason; `onChip` when it still holds its cells. -/
def dropCopy (s : State) (c : Copy) (reason : Nat) (onChip : Bool) : State :=
  match s.frame c.frame with
  | some x => (s.drop reason x.source c.queue).endCopy c.frame onChip
  | none => s

/-- A spilled copy leaves the spill store. -/
def freeSpill (s : State) (x : Spilled) : State :=
  s.setXing { s.xing with spillUsed := s.xing.spillUsed - spillBytes x.copy.size }

/-- Queues that hold copies for a destination, ascending. -/
def queuesOf (s : State) (dest : Nat) : List Nat :=
  (s.xing.queues.filter fun p =>
    p.2.copies.any (fun c => c.dest == dest) || p.2.spill.any fun x => x.copy.dest == dest).map (·.1)

/-- Every copy for a destination is dropped as LINK_FLUSH: those of its queues, on chip and in spill, and those
admitted and not yet enqueued. -/
def flushDest (s : State) (dest : Nat) : State :=
  let s := (s.queuesOf dest).foldl (fun s q =>
    let x := s.queue q
    let s := s.setQueue q { copies := x.copies.filter (·.dest != dest)
                            spill := x.spill.filter (·.copy.dest != dest), deficit := 0 }
    let s := (x.copies.filter (·.dest == dest)).foldl (fun s c => s.dropCopy c 0x0D true) s
    (x.spill.filter (·.copy.dest == dest)).foldl (fun s y =>
      (s.freeSpill y).dropCopy y.copy 0x0D y.bytes.isNone) s) s
  let adm := s.xing.admitted
  let s := s.setXing { s.xing with admitted := adm.filter (·.1.dest != dest) }
  (adm.filter (·.1.dest == dest)).foldl (fun s p =>
    let s := if p.2 then s.setXing { s.xing with spillUsed := s.xing.spillUsed - spillBytes p.1.size } else s
    s.dropCopy p.1 0x0D true) s

/-! ### Residence (R234, R285, R286) -/

/-- The head copy of a queue has to go: its port is disabled, has flushed or has no queues in through-path mode
(R287), or it has stayed too long. -/
def headReason (s : State) (q : Nat) (c : Copy) : Option Nat :=
  let e := s.tbl 5 q
  let maxRes := fieldGet e.d1 16 16
  if c.dest < 34 ∧ (!s.flag (Fld.ETH_CTRL_EN c.dest) || s.flag (Fld.ETH_STAT_FLUSHED c.dest) || s.isThru c.dest) then some 0x0D
  else if maxRes ≠ 0 ∧ maxRes * 12800 < s.cycle - c.enqueued then some 0x0B
  else none

/-- Heads of a queue that have to go are dropped, one after the other. -/
def settleHeads (q : Nat) : Nat → State → State
  | 0, s => s
  | n + 1, s =>
    match (s.queue q).copies with
    | [] => s
    | c :: rest =>
      match s.headReason q c with
      | some r => settleHeads q n ((s.setQueue q { s.queue q with copies := rest }).dropCopy c r true)
      | none => s

/-- The heads of a queue settled. -/
def settleQueue (s : State) (q : Nat) : State := settleHeads q (s.queue q).copies.length s

/-- A queue settled where a copy other than `was` has become its head. -/
def settleHead (s : State) (q : Nat) (was : Option Copy) : State :=
  if (s.queue q).copies.head? = was then s else s.settleQueue q

/-! ### Transmission cut off -/

/-- The copy in transmission is taken from the port. -/
def clearSending (s : State) (n : Nat) : State :=
  let s1 := s.setPort n { s.port n with sending := none, attempts := 0, backoff := none, deferred := false }
  match (s.port n).sending with
  | some c => s1.showDepth c.queue
  | none => s1

/-- A frame in transmission is cut off: TX_ABORT, and its copy ends. -/
def cutOff (s : State) (n : Nat) : State :=
  match (s.port n).sending with
  | some c => (((s.clearSending n).ethCount n 32).endCopy c.frame true).emit (.cutOff n)
  | none => s

/-- Through-path frames of port `m` on their way to output `n` are cut off there. -/
def cutThruFrom (s : State) (n m : Nat) : State :=
  let cut (t : ThruFrame) : Bool := t.output == some n && !t.sent
  let p := s.port m
  let s1 := p.leaving.foldl (fun s t => if cut t then s.emit (.cutOff n) else s)
    (s.setPort m { p with leaving := p.leaving.filter fun t => !cut t })
  match p.thru with
  | some t =>
    if cut t then (s1.setPort m { s1.port m with thru := some { t with sent := true } }).emit (.cutOff n) else s1
  | none => s1

/-- Through-path frames on their way to an output are cut off there (R277). -/
def cutThru (s : State) (n : Nat) : State := s.ports.foldl (fun s p => s.cutThruFrom n p.1) s

/-! ### Links (R262, R284–R287) -/

/-- The hold of a port expires with its link down. -/
def expireHold (s : State) (n : Nat) : State :=
  let s := (s.setPort n { s.port n with holdUntil := none }).setFlag (Fld.ETH_STAT_HOLDING n) false
  (((s.flushDest n).setFlag (Fld.ETH_STAT_FLUSHED n) true).ethCount n 45).fire 6 n

/-- The link is up at a speed: a hold ends and the queues drain, and buckets return to the member. -/
def linkRise (s : State) (n speed : Nat) : State :=
  let s := ((s.setFlag (Fld.ETH_STAT_LINK n) true).setFld (Fld.ETH_STAT_SPEED_ACT n) speed).setFlag
    (Fld.ETH_STAT_HOLDING n) false
  let s := (s.setFlag (Fld.ETH_STAT_FLUSHED n) false).setPort n { s.port n with holdUntil := none }
  let s := (s.lagLink n true).fire 6 n
  (s.queuesOf n).foldl (fun s q => s.settleQueue q) s

/-- LINK falls: LINK_DOWN, ETH_LINK, and the LAG buckets move; a reception ends. -/
def linkFall (s : State) (n : Nat) : State :=
  ((((s.setPort n { s.port n with receiving := false }).setFlag (Fld.ETH_STAT_LINK n) false).ethCount n 44).lagLink n false).fire 6 n

/-- An enabled port declares its link down: outside through-path mode a frame in transmission is cut off and the
hold begins, and with HOLD_MS 0 it expires at once. -/
def linkLoss (s : State) (n : Nat) : State :=
  if s.linkUp n then
    let s := (s.linkFall n).cutThru n
    if s.isThru n then s
    else
      let s := (s.cutOff n).setFlag (Fld.ETH_STAT_HOLDING n) true
      let ms := s.fld (Fld.ETH_HOLD_HOLD_MS n)
      if ms = 0 then s.expireHold n
      else s.setPort n { s.port n with holdUntil := some (s.cycle + ms * 800000) }
  else s

/-- A CSMA/CD port's LINK is 1 while EN is 1, in every mode (R265). -/
def csmaLink (s : State) (n : Nat) : Bool := isT1s n && s.t1sMode n == 2 && s.flag (Fld.ETH_CTRL_EN n)

/-- A link without hold ends: the port is disabled, or the device enters LOAD (R263, R287). -/
def linkEnd (s : State) (n : Nat) : State :=
  let s := if s.linkUp n && !s.csmaLink n then s.linkFall n else s
  let s := ((s.cutThru n).cutOff n).setPort n
    { s.port n with holdUntil := none, beacons := 0, burst := 0, sending := none, attempts := 0, backoff := none
                    deferred := false, receiving := false }
  (((s.setFlag (Fld.ETH_STAT_HOLDING n) false).setFlag (Fld.ETH_STAT_FLUSHED n) false)).flushDest n

/-- A coordinator's link is up while the port is enabled from COMMISSION on (R264), a CSMA/CD port's while it is
enabled (R265). -/
def t1sOwnLink (s : State) (n : Nat) : State :=
  if s.variant.hasPort n ∧ isT1s n ∧ s.t1sMode n ≠ 0 ∧ s.flag (Fld.ETH_CTRL_EN n) ∧ !s.linkUp n ∧
      (s.csmaLink n ∨ Mode.commission ≤ s.mode) then s.linkRise n 0
  else s

/-- A speed the settings allow: 1000BASE-X runs at 1000 Mbit/s alone (Table ETH-1). -/
def speedAllowed (s : State) (n speed : Nat) : Bool :=
  if s.flag (Fld.ETH_CFG_SERDES n) then speed == 2
  else if s.flag (Fld.ETH_CFG_AN n) then decide (speed ≤ s.fld (Fld.ETH_CFG_SPEED n))
  else speed == s.fld (Fld.ETH_CFG_SPEED n)

/-! ### The register (Table ETH-3) -/

/-- A direction from port `n` to its partner forwards (R276). -/
def thruForwards (s : State) (n : Nat) : Bool :=
  let p := s.fld (Fld.ETH_THRU_PARTNER n)
  s.isThru n && s.isThru p && s.fld (Fld.ETH_THRU_PARTNER p) == n && s.linkUp n && s.linkUp p &&
    s.fld (Fld.ETH_STAT_SPEED_ACT n) == s.fld (Fld.ETH_STAT_SPEED_ACT p) &&
    (s.fld (Fld.ETH_STAT_SPEED_ACT n) == 1 || s.fld (Fld.ETH_STAT_SPEED_ACT n) == 2) && decide (Mode.run ≤ s.mode)

/-- Frames received on the port leave on its own output (R277). -/
def thruLoops (s : State) (n : Nat) : Bool :=
  s.isThru n && s.flag (Fld.ETH_THRU_LOOP n) && s.linkUp n && !s.linkUp (s.fld (Fld.ETH_THRU_PARTNER n))

/-- ETH_STAT as it reads: ACTIVE, THRU_FWD, LOOPED and PLCA_OK follow from the state. -/
def ethStat (s : State) (n : Nat) : Word :=
  let w := s.reg (Reg.ETH_STAT n)
  let w := fieldSet w 3 1 (bit (s.ethActive n))
  let w := fieldSet w 6 1 (bit (s.thruForwards n))
  let w := fieldSet w 7 1 (bit (s.thruLoops n))
  fieldSet w 8 1 (bit (isT1s n && s.linkUp n &&
    (s.t1sMode n == 0 || (s.t1sMode n == 1 && decide (Mode.run ≤ s.mode)))))

/-! ### Stamps (R269, R362, Table TIME-15) -/

/-- Latency of a receive or transmit start of frame, in quarter nanoseconds. -/
def sofLatency (s : State) (n : Nat) (tx : Bool) : Nat :=
  let v := s.fld (Fld.ETH_STAT_SPEED_ACT n)
  if n < 16 then
    if tx then (if v = 2 then 49 else if v = 1 then 145 else 385)
    else if v = 2 then 995 else if v = 1 then 1610 else 5650
  else if n < 24 then (if tx then 171 else 395)
  else if n < 26 then (if tx then 245 else 514)
  else if tx then 835 else 3570

/-- A start of frame fires its source, and with STAMPQ pushes its stamp: the entry's district and index, or its
loss; an event that was held is that much older. -/
def startOfFrame (s : State) (n : Nat) (tx : Bool) (held : Nat) : State × Option (Nat × Option Nat) :=
  let kind := if tx then 2 else 1
  let s := s.fire kind n
  if s.flag (Fld.ETH_CFG_STAMPQ n) then
    match s.districtOf State.boundPort n with
    | some d =>
      let i := s.fld (Fld.TSQ_STAT_TAIL d)
      let t := s.tsqHardware d kind n 0 (s.sofLatency n tx + held)
      (t.1, some (d, if t.2 then some i else none))
    | none => (s, none)
  else (s, none)

/-- A receive start of frame crosses to FCLK. -/
def rxSof (s : State) (n held : Nat) : State :=
  let r := s.startOfFrame n false held
  match r.2 with
  | some (d, i) => r.1.setPort n { r.1.port n with stamp := i.map fun i => (d, i), stampLost := i.isNone }
  | none => r.1.setPort n { r.1.port n with stamp := none, stampLost := false }

/-! ### The settings transaction (R260, R261) -/

/-- The shadow's settings of a port hold no value that R260 refuses. -/
def ethGood (s : State) (n : Nat) : Bool :=
  let g (f : Fld) := s.shadowFld f
  let speed := g (Fld.ETH_CFG_SPEED n)
  let maxlen := g (Fld.ETH_CFG_MAXLEN n)
  let t1s := g (Fld.ETH_CFG_T1S_MODE n)
  let node := g (Fld.ETH_PLCA_NODE_ID n)
  let partner := g (Fld.ETH_THRU_PARTNER n)
  let thru := g (Fld.ETH_THRU_EN n) == 1
  let kind :=
    if n < 24 then
      decide (speed ≤ 2) && (decide (16 ≤ n) || g (Fld.ETH_CFG_SERDES n) == 0) && t1s == 0 &&
        !(g (Fld.ETH_CFG_SERDES n) == 1 && speed != 2) && decide (64 ≤ maxlen ∧ maxlen ≤ 9216) &&
        (speed == 2 || decide (maxlen ≤ 2000)) &&
        (!thru || (partner != n && decide (partner < 24) && s.variant.hasPort partner && (speed == 1 || speed == 2)))
    else if n < 26 then
      speed == 3 && g (Fld.ETH_CFG_AN n) == 0 && g (Fld.ETH_CFG_SERDES n) == 0 && t1s == 0 &&
        decide (64 ≤ maxlen ∧ maxlen ≤ 9216) && !thru
    else
      speed == 0 && g (Fld.ETH_CFG_AN n) == 0 && g (Fld.ETH_CFG_SERDES n) == 0 &&
        decide (64 ≤ maxlen ∧ maxlen ≤ 2000) && !thru && (decide (t1s < 2) || (t1s == 2 && decide (n < 28))) &&
        decide (node ≤ 31) && decide (1 ≤ g (Fld.ETH_PLCA_NODE_CNT n) ∧ g (Fld.ETH_PLCA_NODE_CNT n) ≤ 32) &&
        g (Fld.ETH_PLCA_TO_TIMER n) != 0 && decide (g (Fld.ETH_PLCA_BEACON_TO n) ≤ 10) &&
        !(t1s == 1 && node != 0) && !(t1s == 0 && node == 0)
  kind && decide (g (Fld.ETH_HOLD_HOLD_MS n) ≤ 1000) && decide (partner < 24)

/-- The settings of a port become live: a change of SPEED, AN, SERDES or T1S_MODE restarts the link, and entering
through-path mode flushes the port's copies. -/
def applyEth (s0 : State) (n : Nat) : State :=
  let link (w : Word) : Nat × Nat := (fieldGet w 0 4, fieldGet w 19 2)
  let wasThru := s0.isThru n
  let s := s0.applyShadow (.eth n)
  let s := if link (s0.reg (Reg.ETH_CFG n)) ≠ link (s.reg (Reg.ETH_CFG n)) then
      let t := s.linkLoss n
      (t.setPort n { t.port n with beacons := 0 }).t1sOwnLink n
    else s
  if !wasThru ∧ s.isThru n then
    (((s.setPort n { s.port n with holdUntil := none }).setFlag (Fld.ETH_STAT_HOLDING n) false).setFlag
      (Fld.ETH_STAT_FLUSHED n) false).flushDest n
  else s

end State

namespace ThruFrame

/-- ns of a byte, and of the path's delay. -/
def byteNs (t : ThruFrame) : Nat := if t.speed = 2 then 8 else 80
def delayNs (t : ThruFrame) : Nat := if t.speed = 2 then 640 else 1280

/-- FCLK cycles since the SFD, five quarter nanoseconds each, compared with a time in ns. -/
def past (t : ThruFrame) (now ns : Nat) : Bool := decide (4 * ns ≤ 5 * (now - t.began))

/-- The frame is still being received, or still leaving its output. -/
def busy (t : ThruFrame) (now : Nat) : Bool :=
  !t.past now (t.byteNs * t.bytes.length) || (t.output.isSome && !t.sent)

end ThruFrame

namespace State

/-- The port is idle: no frame is in progress on it, in reception, in transmission or on the through-path. -/
def ethIdle (s : State) (n : Nat) : Bool :=
  let p := s.port n
  p.sending.isNone && !p.receiving && p.leaving.isEmpty && !p.thru.any fun t => t.busy s.cycle

end State

/-! ### The commands -/

/-- ETH_CTRL.EN = 1. -/
def execPortEnable (n : Nat) (who : Ident) (s : State) : Answer :=
  .next (s.served who fun s => (if s.variant.hasPort n then
    s.unitWrite who State.boundPort n (Reg.ETH_CTRL n) fun s => (s.setFlag (Fld.ETH_CTRL_EN n) true).t1sOwnLink n
  else s.absentHit (Reg.ETH_CTRL n) true))

/-- ETH_CTRL.EN = 0. -/
def execPortDisable (n : Nat) (who : Ident) (s : State) : Answer :=
  .next (s.served who fun s => (if s.variant.hasPort n then
    s.unitWrite who State.boundPort n (Reg.ETH_CTRL n) fun s =>
      if s.flag (Fld.ETH_CTRL_EN n) then (s.setFlag (Fld.ETH_CTRL_EN n) false).linkEnd n else s
  else s.absentHit (Reg.ETH_CTRL n) true))

/-- The link of P0–P25 is declared up at a speed. -/
def execLinkUp (n speed : Nat) (s : State) : Answer :=
  .next (s.live fun s => (if s.variant.hasPort n ∧ n < 26 ∧ s.flag (Fld.ETH_CTRL_EN n) ∧ !s.linkUp n ∧ Mode.commission ≤ s.mode ∧
      s.speedAllowed n speed then s.linkRise n speed
    else s))

/-- The link of P0–P25 is declared down. -/
def execLinkDown (n : Nat) (s : State) : Answer :=
  .next (s.live fun s => (if s.variant.hasPort n ∧ n < 26 then s.linkLoss n else s))

/-- A hold expires once the XCLK cycle of its end is past: a link that returns in that cycle comes first (R286). -/
def execHoldExpiry (n : Nat) (s : State) : Answer :=
  .next (s.live fun s => (match (s.port n).holdUntil with
    | some t => if t * 5 / 8 < s.cycle * 5 / 8 then s.expireHold n else s
    | none => s))

/-- A frame is received at a MAC, DA to FCS. -/
def execReceiveFrame (n : Nat) (bs : List Byte) (align : Bool) (symbols : Nat) (s : State) : Answer :=
  .next (s.offered 0 fun s => (if s.ethActive n ∧ !s.isThru n then
    let p := s.port n
    let r := (s.setPort n { p with stamp := none, stampLost := false, receiving := false }).macReceive n bs align symbols
    if r.2 then
      r.1.offerFrame bs { cells := [], len := bs.length, source := n, stamp := p.stamp, stampLost := p.stampLost }
    else r.1
  else s))

/-- The last SFD bit of a received frame: a reception at the MAC is in progress from here on. -/
def execEthRxSof (n : Nat) (s : State) : Answer :=
  .next (s.clocked 0 fun s => (if s.ethActive n then
    (s.setPort n { s.port n with receiving := !s.isThru n }).raiseLine (1 * 64 + n) fun s => s.rxSof n 0 else s))

/-- The last SFD bit of a sent frame. -/
def execEthTxSof (n : Nat) (s : State) : Answer :=
  .next (s.clocked 0 fun s => (if s.ethMaySend n then s.raiseLine (2 * 64 + n) fun s => (s.startOfFrame n true 0).1 else s))

/-- ETH_SNAP.GO. -/
def execEthSnap (n : Nat) (who : Ident) (s : State) : Answer :=
  .next (s.served who fun s => (if s.variant.hasPort n then
    s.unitWrite who State.boundPort n (Reg.ETH_SNAP n) fun s =>
      ((List.range 48).foldl (fun s i => s.setReg (Reg.ETH_SNAP_CNT n i) (s.reg (Reg.ETH_CNT n i))) s).setFlag
        (Fld.ETH_SNAP_DONE n) true
  else s.absentHit (Reg.ETH_SNAP n) true))

/-! ### 10BASE-T1S (R264, R265) -/

/-- The coordinator sends a beacon; its opportunities follow. -/
def execPlcaCycle (n : Nat) (s : State) : Answer :=
  .next (s.clocked 0 fun s => (if State.isT1s n ∧ s.t1sMode n = 1 ∧ s.ethMaySend n then
    (s.setPort n { s.port n with opp := 0, burst := 0 }).emit (.beacon n)
  else s))

/-- Cycles of a follower's beacon time-out. -/
def beaconTime (s : State) (n : Nat) : Nat := 2 ^ s.fld (Fld.ETH_PLCA_BEACON_TO n) * 800000

/-- A beacon is received. -/
def execBeaconReceipt (n : Nat) (s : State) : Answer :=
  .next (s.clocked 0 fun s => (if s.variant.hasPort n ∧ State.isT1s n ∧ s.flag (Fld.ETH_CTRL_EN n) ∧ Mode.commission ≤ s.mode then
    if s.t1sMode n = 1 then s.ethCount n 42
    else if s.t1sMode n = 0 then
      let p := s.port n
      let k := if s.cycle < p.lastBeacon + beaconTime s n then p.beacons + 1 else 1
      let s1 := s.setPort n { p with beacons := min 2 k, lastBeacon := s.cycle, opp := 0, burst := 0 }
      if 2 ≤ k ∧ !s.linkUp n then s1.linkRise n 0 else s1
    else s
  else s))

/-- A follower has received no beacon for 2^BEACON_TO ms. -/
def execBeaconTimeout (n : Nat) (s : State) : Answer :=
  .next (s.clocked 0 fun s => (if State.isT1s n ∧ s.t1sMode n = 0 ∧ s.linkUp n ∧ (s.port n).lastBeacon + beaconTime s n ≤ s.cycle then
    let t := (s.linkLoss n).ethCount n 42
    t.setPort n { t.port n with beacons := 0 }
  else s))

/-- A frame given up after 16 attempts or a late collision: its copy ends. -/
def giveUp (s : State) (n : Nat) : State :=
  match (s.port n).sending with
  | some c => (s.clearSending n).endCopy c.frame true
  | none => s

/-- A collision on a port that sends: counted; the frame is given up after 16 attempts, or when a CSMA/CD collision
comes later than 512 bit times into it; else it waits, under CSMA/CD for a back-off drawn from the port's
generator (a free value), under PLCA for the next opportunity. -/
def execCollision (n : Nat) (late : Bool) (s : State) : Answer :=
  .next (s.clocked 0 fun s => (
    let p := s.port n
    if s.ethMaySend n ∧ State.isT1s n ∧ p.sending.isSome ∧ !p.deferred then
      let k := p.attempts + 1
      if s.t1sMode n = 2 then
        let s := s.ethCount n 39
        if late then giveUp (s.ethCount n 40) n
        else if 16 ≤ k then giveUp (s.ethCount n 41) n
        else
          (s.setPort n { s.port n with
            attempts := k, deferred := true
            backoff := some (s.cycle + s.drawn % 2 ^ min k 10 * 40960) }).draw
      else
        let s := s.ethCount n 43
        if 16 ≤ k then giveUp (s.ethCount n 41) n
        else s.setPort n { s.port n with attempts := k, deferred := true }
    else s))

/-- A CSMA/CD back-off ends and the frame is attempted again. -/
def execBackoffExpiry (n : Nat) (s : State) : Answer :=
  .next (s.clocked 0 fun s => (match (s.port n).backoff with
    | some t =>
      if t ≤ s.cycle ∧ s.ethMaySend n then s.setPort n { s.port n with backoff := none, deferred := false } else s
    | none => s))

end Sys2Proof.Machine
end

