-- ==== Sys2Proof/Machine/Lso.lean ====
section
/-!
DEFINITION. Large-send segmentation (R273–R275) as a function on the bytes of a frame.
-/

namespace Sys2Proof.Machine

namespace Lso

/-- Byte `i` of a frame; 0 beyond its end. -/
def at' (bs : List Nat) (i : Nat) : Nat := (bs[i]?).getD 0

/-- Two bytes, most significant first. -/
def at16 (bs : List Nat) (i : Nat) : Nat := at' bs i * 256 + at' bs (i + 1)

/-- Four bytes, most significant first. -/
def at32 (bs : List Nat) (i : Nat) : Nat := at16 bs i * 65536 + at16 bs (i + 2)

/-- Bytes replaced from an offset on. -/
def put (bs : List Nat) (i : Nat) (v : List Nat) : List Nat := bs.take i ++ v ++ bs.drop (i + v.length)

/-- Big-endian bytes. -/
def be : Nat → Nat → List Nat
  | 0, _ => []
  | n + 1, v => v / 256 ^ n % 256 :: be n v

/-- Sum of 16-bit words, an odd last byte padded with zero. -/
def sum16 : List Nat → Nat
  | [] => 0
  | [a] => a * 256
  | a :: b :: rest => a * 256 + b + sum16 rest

/-- One's complement checksum of a sum. -/
def fold16 (n : Nat) : Nat :=
  let a := n % 65536 + n / 65536
  let b := a % 65536 + a / 65536
  65535 - (b % 65536 + b / 65536)

/-- What a TCP template holds (R273): offsets of its network and TCP headers, its version and its length. -/
structure Tcp where
  net : Nat
  tcp : Nat
  v6 : Bool
  header : Nat
  deriving DecidableEq, Repr

/-- The frame holds what R273 asks for, and its parts. -/
def parse (bs : List Nat) : Option Tcp :=
  let net := if at16 bs 12 = 0x8100 then 18 else 14
  let et := at16 bs (net - 2)
  if et = 0x0800 then
    let ihl := at' bs net % 16
    let tcp := net + ihl * 4
    let off := at' bs (tcp + 12) / 16
    if at' bs net / 16 = 4 ∧ 5 ≤ ihl ∧ at16 bs (net + 6) % 16384 = 0 ∧ at' bs (net + 9) = 6 ∧ 5 ≤ off then
      some { net := net, tcp := tcp, v6 := false, header := tcp + off * 4 }
    else none
  else if et = 0x86DD then
    let tcp := net + 40
    let off := at' bs (tcp + 12) / 16
    if at' bs net / 16 = 6 ∧ at' bs (net + 6) = 6 ∧ 5 ≤ off then
      some { net := net, tcp := tcp, v6 := true, header := tcp + off * 4 }
    else none
  else none

/-- The TCP frame and its MSS are accepted. -/
def tcpGood (bs : List Nat) (mss : Nat) : Bool :=
  match parse bs with
  | some t => decide (t.header < bs.length ∧ bs.length - t.header ≤ 65535 ∧ 1 ≤ mss ∧ t.header + mss ≤ 9212)
  | none => false

/-- The record train and its MSS are accepted (R274). -/
def trainGood (bs : List Nat) (hdr off mss : Nat) : Bool :=
  decide (14 ≤ hdr ∧ off + 2 ≤ hdr ∧ hdr < bs.length ∧ bs.length - hdr ≤ 65535 ∧ 1 ≤ mss ∧ hdr + mss ≤ 9212)

/-- A payload cut into parts of `mss` bytes. -/
def parts (mss : Nat) : Nat → List Nat → List (List Nat)
  | 0, _ => []
  | n + 1, p => if p.length ≤ mss then [p] else p.take mss :: parts mss n (p.drop mss)

/-- Segment `k` of `n` of a TCP frame with a part of the payload. -/
def tcpSegment (bs : List Nat) (t : Tcp) (mss n k : Nat) (part : List Nat) : List Nat :=
  let h := bs.take t.header
  let ipLen := t.header - t.net + part.length
  let tcpLen := t.header - t.tcp + part.length
  let h := if t.v6 then put h (t.net + 4) (be 2 (ipLen - 40))
    else
      let a := put (put h (t.net + 2) (be 2 ipLen)) (t.net + 4) (be 2 ((at16 bs (t.net + 4) + k) % 65536))
      let b := put a (t.net + 10) [0, 0]
      put b (t.net + 10) (be 2 (fold16 (sum16 ((b.take t.tcp).drop t.net))))
  let h := put h (t.tcp + 4) (be 4 ((at32 bs (t.tcp + 4) + k * mss) % 2 ^ 32))
  let fl := at' bs (t.tcp + 13)
  let f1 := if k = 0 then fl else fl - (if fl.testBit 7 then 128 else 0)
  let f2 := if k + 1 = n then f1 else f1 - (if f1.testBit 3 then 8 else 0) - (if f1.testBit 0 then 1 else 0)
  let h := put (put h (t.tcp + 13) [f2]) (t.tcp + 16) [0, 0]
  let pseudo := if t.v6 then sum16 ((h.take (t.net + 40)).drop (t.net + 8)) + tcpLen / 65536 + tcpLen % 65536 + 6
    else sum16 ((h.take (t.net + 20)).drop (t.net + 12)) + 6 + tcpLen
  put h (t.tcp + 16) (be 2 (fold16 (pseudo + sum16 (h.drop t.tcp ++ part)))) ++ part

/-- The segments of a TCP frame, without padding and FCS. -/
def tcpSegments (bs : List Nat) (mss : Nat) : List (List Nat) :=
  match parse bs with
  | some t =>
    let ps := parts mss bs.length (bs.drop t.header)
    ps.zipIdx.map fun p => tcpSegment bs t mss ps.length p.2 p.1
  | none => []

/-- The segments of a record train. -/
def trainSegments (bs : List Nat) (hdr off mss : Nat) : List (List Nat) :=
  (parts mss bs.length (bs.drop hdr)).zipIdx.map fun p =>
    put (bs.take hdr) off (be 2 ((at16 bs off + p.2) % 65536)) ++ p.1

end Lso

end Sys2Proof.Machine
end

