-- ==== Sys2Proof/Machine/PortIf.lean ====
section
/-!
DEFINITION. The engines' frame interface in the PORT ranges of Ethernet ports (R266–R275), deliveries to
districts and to the host rings (R460, R461), and the through-path with its patch window (R276–R280).
-/

namespace Sys2Proof.Machine

namespace State

/-- A store of engine `e` to PORT space is refused by the port block: an ACCESS entry is due (R535). -/
def refusePort (s : State) (e addr bytes : Nat) : State :=
  s.setEng e { s.eng e with refused := (s.eng e).refused ++ [{ space := .port, addr := addr, bytes := bytes }] }

/-- Engine `e` is one of the district the port is bound to. -/
def ownsPort (s : State) (e n : Nat) : Bool := s.hasEngine e && s.boundPort (e / 12) n

/-- The control words of a port's range return to 0 (R266). -/
def resetWords (s : State) (n : Nat) : State :=
  s.setPort n { s.port n with
    rxTail := 0, rxHead := 0, rxCtrl := 0, txHead := 0, txTail := 0, alloc := [], allocRes := [], patchFrame := 0
    aptA := [], aptB := [], handed := [], holder := [] }

/-! ### Cell leases (R216) -/

/-- Frame that a cell belongs to. -/
def frameOfCell (s : State) (c : Nat) : Option Nat :=
  match s.xing.cells.find? fun p => p.1 == c with
  | some (_, .held f) => some f
  | _ => none

/-- The engine holds the lease of a cell. -/
def holdsCell (s : State) (e c : Nat) : Bool :=
  s.leases.any fun l => l.type == 1 && l.index == c && l.holder == s.ident (0x10 + e)

/-- Cells of the frame that starts with a cell. -/
def cellsOfLease (s : State) (c : Nat) : Nat :=
  match s.frameOfCell c with
  | some f => (match s.frame f with | some x => x.cells.length | none => 0)
  | none => 0

/-- Cells that the engines of a district hold. -/
def leasedBy (s : State) (d : Nat) : Nat :=
  ((s.leases.filter fun l => l.type == 1 && Ident.isEngine l.holder && Ident.engine l.holder / 12 == d).map
    fun l => s.cellsOfLease l.index).sum

/-- XING_BUF_LEASE.LEASED: cells of frames that an engine holds. -/
def leasedCells (s : State) : Nat :=
  (s.xing.frames.map fun p => match p.2 with | some x => if x.leases = 0 then 0 else x.cells.length | none => 0).sum

/-- `n` more cells would exceed the district's LEASE_CAP. -/
def beyondCap (s : State) (d n : Nat) : Bool :=
  let cap := fieldGet (s.tbl 0 (34 + d)).d1 0 16
  cap != 0 && decide (cap < s.leasedBy d + n)

/-- A cell lease of an engine is taken on a frame. -/
def takeCellLease (s : State) (e f : Nat) : State :=
  match s.frame f with
  | some x =>
    let c := (x.cells.head?).getD 0
    let who := s.ident (0x10 + e)
    let s1 := s.setFrame f (some { x with leases := x.leases + 1 })
    (s1.setXing { s1.xing with stale := s1.xing.stale.filter fun p => p != (c, who) }).addLease
      { type := 1, district := 0, index := c, holder := who }
  | none => s

/-- The lease of an engine on a cell, without its entry in the frame. -/
def dropCellLease (s : State) (e c : Nat) : State :=
  { s with leases := s.leases.filter fun l => !(l.type == 1 && l.index == c && l.holder == s.ident (0x10 + e)) }

/-- Outstanding receive descriptors that name a cell in the rings of a district, from TAIL back to HEAD. -/
def outstanding (s : State) (n : Nat) : List Nat :=
  let p := s.port n
  (List.range ((p.rxTail + 256 - p.rxHead) % 256)).map fun i => (p.rxHead + i) % 256

/-- The descriptors of a district's rings that name a cell have their lease ended. -/
def markHanded (s : State) (d c : Nat) : State :=
  (List.range 34).foldl (fun s n =>
    if s.boundPort d n then
      let p := s.port n
      let mine := (s.outstanding n).filter fun i =>
        fieldGet (Store.get (fun _ => 0) p.rxDesc (i * 4)) 0 15 == c && !p.handed.contains i
      s.setPort n { p with handed := p.handed ++ mine }
    else s) s

/-- A cell lease of an engine ends, and its cells with it where nothing else holds them. -/
def endCellLease (s : State) (e c : Nat) : State :=
  let s1 := s.dropCellLease e c
  match s.frameOfCell c with
  | some f =>
    match s.frame f with
    | some x => (s1.setFrame f (some { x with leases := x.leases - 1 })).settleFrame f
    | none => s1
  | none => s1

/-! ### Delivery to a district (R267) -/

/-- RX_CTRL.EN. -/
def rxEnabled (s : State) (n : Nat) : Bool := (s.port n).rxCtrl.getLsbD 4

/-- The receive ring for a copy of a source. -/
def rxRing (s : State) (d src : Nat) : Option Nat :=
  if src < 34 ∧ s.boundPort d src ∧ s.rxEnabled src then some src
  else (List.range 34).find? fun n => s.boundPort d n && s.rxEnabled n

end State

/-- Words 0–2 of a receive descriptor, with its CELL (Table ETH-9). -/
def rxWords (x : Frame) (tagged : Bool) (cell : Nat) : List Word :=
  [BitVec.ofNat 32 (cell + 2 ^ 16 * (x.len % 2 ^ 14) + 2 ^ 31),
    BitVec.ofNat 32 (x.source + 2 ^ 8 * x.vid + 2 ^ 20 * x.prio + 2 ^ 23 * bit tagged),
    BitVec.ofNat 32 (match x.flow with | some (f, q) => f + 2 ^ 12 + 2 ^ 16 * q | none => 0)]

namespace State

/-- Word 3 of a district's receive descriptor, and whether the frame's stamp was lost. -/
def stampWord (s : State) (d : Nat) (x : Frame) : Word × Bool :=
  match x.stamp with
  | some (dd, i) => (if dd = d then BitVec.ofNat 32 (i % 1024 + 2 ^ 10) else 0, false)
  | none =>
    if x.stampLost ∧ s.boundPort d x.source then (BitVec.ofNat 32 (2 ^ 11), true) else (0, false)

/-- A copy for district `d` is written to a receive ring, or dropped as RING_FULL. -/
def deliverDistrict (s : State) (d : Nat) (c : Copy) : State :=
  match s.frame c.frame with
  | none => s
  | some x =>
    match s.rxRing d x.source with
    | none => s.dropCopy c 0x10 true
    | some n =>
      let p := s.port n
      if (p.rxTail + 1) % 256 = p.rxHead ∨ s.beyondCap d x.cells.length then s.dropCopy c 0x10 true
      else
        let i := p.rxTail
        let e := d * 12 + p.rxCtrl.toNat % 16
        let st := s.stampWord d x
        let ws := rxWords x (s.isTagged x) ((x.cells.head?).getD 0) ++ [st.1]
        let s := (s.takeCellLease e c.frame).setPort n { p with
          rxDesc := Store.setList (fun _ => 0) p.rxDesc (i * 4) ws
          rxTail := (i + 1) % 256, handed := p.handed.filter (· != i) }
        let s := if st.2 then s.ethCount x.source 47 else s
        ((s.ethCount n 46).fire 3 n).endCopy c.frame true

/-! ### Delivery to the host (R460) -/

/-- A copy for the host is written to the next receive buffer, or dropped as RING_FULL. -/
def deliverHost (s : State) (c : Copy) : State :=
  match s.frame c.frame with
  | none => s
  | some x =>
    let t := s.fld Fld.MBX_HRX_TAIL_TAIL
    if !s.flag Fld.MBX_HOST_CFG_HRING_EN ∨ (t + 1) % 2048 = s.fld Fld.MBX_HRX_HEAD_HEAD then s.dropCopy c 0x10 true
    -- the buffers lie in DRAM: while MCLK is lost the transfer is discarded (R24)
    else if s.clockGone 3 then (s.through 3 id).endCopy c.frame true
    else
      let ws := rxWords x (s.isTagged x) 0 ++ [0]
      let m := s.hostMem.writeBytes (0x100000 + t * 0x4000) (s.frameBytes x)
      let m := m.writeBytes (t * 16) (ws.flatMap fun w => (List.range 4).map fun k => w.extractLsb' (8 * k) 8)
      ((({ s with hostMem := m }.setFld Fld.MBX_HRX_TAIL_TAIL ((t + 1) % 2048)).raiseIrq 2)).endCopy c.frame true

/-! ### Hand-over (R272–R275) -/

/-- Padding to 60 bytes and the FCS. -/
def padFcs (bs : List Byte) : List Byte :=
  let p := bs ++ List.replicate (60 - bs.length) 0#8
  p ++ fcsBytes p

/-- A frame whose lease an engine gives up is handed to the Crossing with its bytes. It keeps its cells, with one
more where the FCS needs it, unless something else refers to them: then it takes cells of its own. -/
def handOver (s : State) (e c : Nat) (bs : List Byte) (y : Frame) : State :=
  match s.frameOfCell c with
  | none => s
  | some f =>
    match s.frame f with
    | none => s
    | some x =>
      let more := cellsFor bs.length - x.cells.length
      let spare := x.cells.drop (cellsFor bs.length)
      if x.refs = 0 ∧ x.copies = 0 ∧ x.leases = 1 ∧ more ≤ s.freeCells ∧ !s.flag Fld.XING_STAT_FATAL then
        let t := takeCells f more ((s.dropCellLease e c).giveCells spare)
        let z := { y with
          cells := x.cells.take (cellsFor bs.length) ++ t.1, len := bs.length, copies := 1, refs := 1, ready := s.cycle }
        let s := (t.2.setFrame f (some z)).frameWrite z 0 bs
        s.setXing { s.xing with arrived := s.xing.arrived ++ [f] }
      else (s.offerFrame bs y).endCellLease e c

/-- A word of a transmit descriptor of port `n`. -/
def txWord (s : State) (n i w : Nat) : Word := Store.get (fun _ => 0) (s.port n).txDesc (i * 8 + w)

end State

/-- A transmit descriptor's words (Table ETH-10). -/
structure TxDesc where
  w0 : Word
  w1 : Word
  w2 : Word
  w3 : Word
  w4 : Word
  deriving DecidableEq, Repr

namespace TxDesc
def len (t : TxDesc) : Nat := fieldGet t.w0 0 17
def own (t : TxDesc) : Bool := fieldGet t.w0 31 1 == 1
def cell (t : TxDesc) : Nat := fieldGet t.w1 0 15
def dest (t : TxDesc) : Nat := fieldGet t.w2 0 6
def direct (t : TxDesc) : Bool := fieldGet t.w2 6 1 == 1
def lso (t : TxDesc) : Bool := fieldGet t.w2 7 1 == 1
def vid (t : TxDesc) : Nat := fieldGet t.w2 8 12
def prio (t : TxDesc) : Nat := fieldGet t.w2 20 3
def flow (t : TxDesc) : Nat := fieldGet t.w3 0 12
def flowv (t : TxDesc) : Bool := fieldGet t.w3 12 1 == 1
def seq (t : TxDesc) : Nat := fieldGet t.w3 16 16
def mss (t : TxDesc) : Nat := fieldGet t.w4 0 14
def mode (t : TxDesc) : Nat := fieldGet t.w4 14 2
def hdr (t : TxDesc) : Nat := fieldGet t.w4 16 8
def off (t : TxDesc) : Nat := fieldGet t.w4 24 8

/-- The frame that the `k`-th segment of a descriptor becomes. -/
def frame (t : TxDesc) (source k : Nat) : Frame :=
  { cells := [], len := 0, source := source
    direct := if t.direct then some { dest := t.dest, vid := t.vid, prio := t.prio } else none
    tag := if t.flowv then some (t.flow, (t.seq + k) % 65536) else none }

/-- Segments of a frame under LSO, without padding and FCS. -/
def segments (t : TxDesc) (bs : List Nat) : List (List Nat) :=
  if t.mode = 0 then Lso.tcpSegments bs t.mss else Lso.trainSegments bs t.hdr t.off t.mss

/-- The frame is one that LSO accepts (R273, R274). -/
def lsoGood (t : TxDesc) (bs : List Nat) : Bool :=
  if t.mode = 0 then Lso.tcpGood bs t.mss else if t.mode = 1 then Lso.trainGood bs t.hdr t.off t.mss else false

/-- Cells that a list of segments needs (R275). -/
def segCells (segs : List (List Nat)) : Nat := (segs.map fun b => State.cellsFor (b.length + 4)).sum

end TxDesc

namespace State

/-- DEST of a DIRECT descriptor is refused. -/
def badDest (s : State) (t : TxDesc) : Bool := t.direct && (decide (50 < t.dest) || s.destReserved t.dest)

/-- The outcome of an engine's descriptor (Table ETH-11). -/
def txCode (s : State) (e : Nat) (t : TxDesc) (bs : List Nat) : Nat :=
  if !s.holdsCell e t.cell then Code.stale
  else if !t.own ∨ (!t.lso ∧ (t.len < 14 ∨ 9212 < t.len)) ∨ s.cellsOfLease t.cell * 256 < t.len ∨ s.badDest t ∨
      (t.lso ∧ !t.lsoGood bs) then Code.badArg
  else if t.lso ∧ s.freeCells - s.fld Fld.XING_BUF_CFG_HI_RESERVE < TxDesc.segCells (t.segments bs) then
    Code.noResource
  else Code.ok

/-- A descriptor completes: OWN cleared, RESULT and SEGS written, TX_HEAD advanced, TX_REFUSED counted for a
refusal, and ETH_TX_DONE fires. -/
def completeTx (s : State) (n i code segs : Nat) : State :=
  let p := s.port n
  let d := Store.set (fun _ => 0) p.txDesc (i * 8) (s.txWord n i 0 &&& 0x7FFFFFFF#32)
  let d := Store.set (fun _ => 0) d (i * 8 + 5) (BitVec.ofNat 32 (code + 65536 * segs))
  let s := s.setPort n { p with txDesc := d, txHead := (i + 1) % 128 }
  (if code = Code.ok then s else s.ethCount n 38).fire 4 n

/-- The handle of a cell that engine `e` names was reclaimed from it, and it has taken no lease there since (R217). -/
def reclaimedCell (s : State) (e c : Nat) : Bool := s.xing.stale.contains (c, s.ident (0x10 + e))

/-- The port block takes the descriptor at TX_HEAD of a ring. -/
def takeTx (s : State) (d n : Nat) : State :=
  let i := (s.port n).txHead
  let e := Store.get (fun _ => 0) (s.port n).holder i
  let t : TxDesc := ⟨s.txWord n i 0, s.txWord n i 1, s.txWord n i 2, s.txWord n i 3, s.txWord n i 4⟩
  let bytes : List Byte := match s.frameOfCell t.cell with
    | some f => (match s.frame f with | some x => s.frameBytesFrom x 0 t.len | none => [])
    | none => []
  let bs := bytes.map (·.toNat)
  let code := s.txCode e t bs
  if code = Code.ok then
    if t.lso then
      let segs := t.segments bs
      let s1 := segs.zipIdx.foldl (fun s g =>
        (s.offerFrame (padFcs (g.1.map (BitVec.ofNat 8))) (t.frame (34 + d) g.2)).ethCount n 37) s
      ((s1.endCellLease e t.cell).markHanded d t.cell).completeTx n i Code.ok segs.length
    else ((s.markHanded d t.cell).handOver e t.cell (padFcs bytes) (t.frame (34 + d) 0)).completeTx n i Code.ok 1
  else
    let s1 := if code = Code.stale ∧ s.reclaimedCell e t.cell then s.count Fld.XING_LAMP_ROUND_STALE_USE else s
    s1.completeTx n i code 0

/-- The ring that a district's port block serves next: rings with descriptors offered, in rotation. -/
def nextRing (s : State) (d : Nat) : Option Nat :=
  let last := Store.get (fun _ => 0) s.txTurn d
  let waits := (List.range 34).filter fun n => s.boundPort d n && (s.port n).txHead != (s.port n).txTail
  match waits.find? fun n => decide (last < n) with
  | some n => some n
  | none => waits.head?

end State

/-! ### The commands of the frame interface -/

/-- A write of RX_HEAD by an engine: descriptors are returned and their leases end. -/
def execRxHead (n e v : Nat) (s : State) : Answer :=
  .next (s.live fun s => (if s.ownsPort e n then
    let p := s.port n
    let h := v % 256
    let k := (h + 256 - p.rxHead) % 256
    if k ≤ (p.rxTail + 256 - p.rxHead) % 256 then
      let s1 := (List.range k).foldl (fun s j =>
        let i := (p.rxHead + j) % 256
        if p.handed.contains i then s
        else
          let c := fieldGet (Store.get (fun _ => 0) p.rxDesc (i * 4)) 0 15
          match s.leases.find? fun l => l.type == 1 && l.index == c && Ident.isEngine l.holder &&
              Ident.engine l.holder / 12 == e / 12 with
          | some l => s.endCellLease (Ident.engine l.holder) c
          | none => s) s
      s1.setPort n { s1.port n with
        rxHead := h
        handed := p.handed.filter fun i => decide (k ≤ (i + 256 - p.rxHead) % 256) }
    else s.setFlag (Fld.ETH_STAT_CFG_ERR n) true
  else s))

/-- A write of RX_CTRL by an engine; ENGINE 12–15 is refused. -/
def execRxCtrl (n e : Nat) (v : Word) (s : State) : Answer :=
  .next (s.live fun s => (if s.ownsPort e n then
    if 12 ≤ v.toNat % 16 then s.refusePort e (n * 0x10000 + 8) 4
    else s.setPort n { s.port n with rxCtrl := v &&& 0x1F#32 }
  else s))

/-- A write of TX_TAIL by an engine: it holds the descriptors it passes. -/
def execTxTail (n e v : Nat) (s : State) : Answer :=
  .next (s.live fun s => (if s.ownsPort e n then
    let p := s.port n
    let k := (v % 128 + 128 - p.txTail) % 128
    s.setPort n { p with
      txTail := v % 128
      holder := (List.range k).foldl (fun h j => Store.set (fun _ => 0) h ((p.txTail + j) % 128) e) p.holder }
  else s))

/-- The port block of district `d` takes its next transmit descriptor. -/
def execTxDescriptor (d : Nat) (s : State) : Answer :=
  .next (s.offered 0 fun s => (match s.nextRing d with
    | some n => { s with txTurn := Store.set (fun _ => 0) s.txTurn d n }.takeTx d n
    | none => s))

/-- A write of a length to ALLOC by an engine (R268). -/
def execAlloc (n e : Nat) (v : Word) (s : State) : Answer :=
  .next (s.live fun s => (if s.ownsPort e n then
    let l := e % 12
    let k := State.cellsFor v.toNat
    let code :=
      if v.toNat < 1 ∨ 65791 < v.toNat then Code.badArg
      else if s.beyondCap (e / 12) k ∨ s.freeCells < s.fld Fld.XING_BUF_CFG_HI_RESERVE + k ∨
        s.flag Fld.XING_STAT_FATAL then Code.noResource
      else Code.ok
    if code = Code.ok then
      let t := s.newFrame v.toNat { cells := [], len := 0, source := 34 + e / 12 }
      let s1 := t.2.takeCellLease e t.1
      let cell := match t.2.frame t.1 with | some x => (x.cells.head?).getD 0 | none => 0
      s1.setPort n { s1.port n with
        alloc := Store.set (fun _ => 0) (s1.port n).alloc l (BitVec.ofNat 32 (0x10000000 + cell))
        allocRes := Store.set (fun _ => 0) (s1.port n).allocRes l code }
    else
      s.setPort n { s.port n with
        alloc := Store.set (fun _ => 0) (s.port n).alloc l 0
        allocRes := Store.set (fun _ => 0) (s.port n).allocRes l code }
  else s))

/-- A write of APT_A (`b` false) or APT_B of local engine `l` by engine `e` (R271). -/
def execAptA (n e l : Nat) (b : Bool) (v : Word) (s : State) : Answer :=
  .next (s.live fun s => (if s.ownsPort e n then
    if l ≠ e % 12 ∨ 4 < fieldGet v 16 3 then s.refusePort e (n * 0x10000 + 0x40 + 8 * l + (if b then 4 else 0)) 4
    else
      let p := s.port n
      let w := (v &&& 0x77FFF#32) ||| 0x10000000#32
      s.setPort n (if b then { p with aptB := Store.set (fun _ => 0) p.aptB l w }
        else { p with aptA := Store.set (fun _ => 0) p.aptA l w })
  else s))

/-- The Crossing takes the next host transmit descriptor (R461). -/
def execHostTxDescriptor (s : State) : Answer :=
  .next (s.offered 0 fun s => (
    let i := s.fld Fld.MBX_HTX_HEAD_HEAD
    if s.flag Fld.MBX_HOST_CFG_HRING_EN ∧ i ≠ s.fld Fld.MBX_HTX_TAIL_TAIL then
      let a := 0x10000 + i * 32
      let w (k : Nat) : Word := BitVec.ofNat 32 (s.hostMem.readLE (a + 4 * k) 4)
      let t : TxDesc := ⟨w 0, w 1, w 2, w 3, w 4⟩
      let k := State.cellsFor (max 60 t.len + 4)
      let code :=
        if !t.own ∨ t.lso ∨ t.len < 14 ∨ 9212 < t.len ∨ s.badDest t then Code.badArg
        else if s.freeCells < s.fld Fld.XING_BUF_CFG_HI_RESERVE + k then Code.noResource
        else Code.ok
      let s1 := if code = Code.ok then
        s.offerFrame (State.padFcs (s.hostMem.readBytes (0x2100000 + i * 0x4000) t.len)) (t.frame 42 0)
      else s
      let m := (s1.hostMem.writeLE a 4 (t.w0 &&& 0x7FFFFFFF#32).toNat).writeLE (a + 20) 4
        (code + 65536 * (if code = Code.ok then 1 else 0))
      ({ s1 with hostMem := m }.setFld Fld.MBX_HTX_HEAD_HEAD ((i + 1) % 2048)).raiseIrq 3
    else s))

/-! ### The through-path (R276–R280) -/

namespace ThruFrame

/-- The bytes that leave: patched, with the FCS recomputed when a patch was applied and inverted when the
received one was bad; cut at MAXLEN with an invalid FCS. -/
def sentBytes (t : ThruFrame) : List Byte :=
  let body := t.bytes.take (t.bytes.length - 4)
  let patched := t.patches.foldl (fun b p => b.take p.1 ++ p.2 ++ b.drop (p.1 + p.2.length)) t.bytes
  if t.keep < t.bytes.length then
    let b := patched.take (t.keep - 4)
    b ++ (fcsBytes b).map (~~~ ·)
  else if t.patches.isEmpty then t.bytes
  else
    let b := patched.take body.length
    b ++ (if goodFcs t.bytes then fcsBytes b else (fcsBytes b).map (~~~ ·))

end ThruFrame

namespace State

/-- A through-path frame of port `n` whose last byte has left is counted and sent. -/
def leaveThru (s : State) (n : Nat) (t : ThruFrame) : State :=
  match t.output with
  | some o =>
    let s := s.countTx o t.sentBytes
    (if o = n then s else s.ethCount o 33).emit (.frame o t.sentBytes)
  | none => s

/-- The last byte of a through-path frame has left by now. -/
def thruDue (s : State) (t : ThruFrame) : Bool :=
  t.output.isSome && !t.sent && t.past s.cycle (t.delayNs + t.byteNs * t.keep)

/-- The through-path frames of port `n` whose last byte has left are counted and sent, oldest first. -/
def finishThru (s : State) (n : Nat) : State :=
  let p := s.port n
  let s1 := (p.leaving.filter s.thruDue).foldl (fun s t => s.leaveThru n t)
    (s.setPort n { p with leaving := p.leaving.filter fun t => !s.thruDue t })
  match p.thru with
  | some t =>
    if s.thruDue t then (s1.setPort n { s1.port n with thru := some { t with sent := true } }).leaveThru n t else s1
  | none => s1

/-- Every through-path frame that is due leaves. -/
def finishThrus (s : State) : State := s.ports.foldl (fun s p => s.finishThru p.1) s

end State

/-- The output that a frame received on a through-path port leaves by: the partner's, or the port's own in
loop-back (R276, R277). -/
def State.thruOutput (s : State) (n : Nat) : Option Nat :=
  if s.thruForwards n then some (s.fld (Fld.ETH_THRU_PARTNER n)) else if s.thruLoops n then some n else none

/-- The mode keeps a looped frame from its output (R68). -/
def State.thruBarred (s : State) (bs : List Byte) : Bool :=
  let ty := if wire16 bs 12 = 0x8100 then wire16 bs 16 else wire16 bs 12
  s.mode == Mode.commission && ty != 0x88F7 && ty != 0x88CC

/-- The SFD of a frame received on a through-path port, with the bytes that follow it and the errors the PHY sees in
it (R277, R281). The one before it leaves its output in full. -/
def execThruFrame (n : Nat) (rx : ThruRx) (s : State) : Answer :=
  .next (s.clocked 0 fun s => (if s.ethActive n ∧ s.isThru n then
    let s := s.finishThru n
    let maxlen := s.maxLen n
    let way := s.thruOutput n
    let out := if s.thruBarred rx.bytes then none else way
    let s := (s.macReceive n rx.bytes rx.align rx.symbols).1
    let s := if way.isNone then s.ethCount n 34 else if out.isNone then s.drop 0x08 n 0x1FF else s
    let p := s.port n
    s.setPort n { p with
      patchFrame := (p.patchFrame + 1) % 256
      leaving := p.leaving ++ (match p.thru with
        | some t => if t.output.isSome && !t.sent then [t] else []
        | none => [])
      thru := some { bytes := rx.bytes, output := out, patches := [], speed := s.fld (Fld.ETH_STAT_SPEED_ACT n)
                     keep := min maxlen rx.bytes.length, began := s.cycle, sent := false } }
  else s))

/-- A window store reaches the patch logic (R279). -/
def execPatchArrival (n p : Nat) (bs : List Byte) (s : State) : Answer :=
  .next (s.offered 0 fun s => (if s.variant.hasPort n ∧ s.isThru n then
    match (s.port n).thru with
    | some t =>
      if t.output.isSome ∧ !t.sent ∧ p + bs.length ≤ t.bytes.length ∧
          5 * (s.cycle - t.began) + 64 ≤ 4 * (t.delayNs + t.byteNs * p) then
        (s.setPort n { s.port n with thru := some { t with patches := t.patches ++ [(p, bs)] } }).ethCount n 35
      else (s.ethCount n 36).fire 5 n
    | none => (s.ethCount n 36).fire 5 n
  else s))

namespace State

/-- Bytes `p` to `p + n - 1` of the current frame as received, once they have been received or the frame has
ended (R278); positions beyond its end read 0. -/
def windowBytes (s : State) (port p n : Nat) : Option Nat :=
  match (s.port port).thru with
  | some t =>
    let ready :=
      if p + n ≤ t.bytes.length then t.past s.cycle (t.byteNs * (p + n) + 30)
      else t.past s.cycle (t.byteNs * t.bytes.length)
    if ready then
      some ((List.range n).foldl (fun v k => v + ((t.bytes[p + k]?).getD 0).toNat * 256 ^ k) 0)
    else none
  | none => none

/-- A load's value is written to its destination and the next instruction follows. -/
def finishLoad (s : State) (e : Nat) (w : LoadWait) (v : Nat) : State :=
  let x := if w.signed then ofSigned (if w.wide then 64 else 32) (toSigned (8 * w.bytes) v) else v
  ((s.setEng e { s.eng e with loadWait := none }).wr e w.wide w.d x).advance e w.len

end State

/-- A patch-window load of engine `e` completes once its bytes are there. -/
def execPatchWindowLoad (e : Nat) (s : State) : Answer :=
  .next (s.live fun s => (match (s.eng e).loadWait with
    | some w =>
      if w.space ≠ .port ∨ s.engState e = 3 then s else
      match s.windowBytes (w.addr / 0x10000) (w.addr % 0x10000 - 0x4000) w.bytes with
      | some v => s.finishLoad e w v
      | none => s
    | none => s))

end Sys2Proof.Machine
end

