-- ==== Sys2Proof/Machine/Proxy.lean ====
section
/-!
DEFINITION. Proxy records towards the Round (R445, R446): what the port block queues for station 13 when a unit
of the district receives.
-/

namespace Sys2Proof.Machine

namespace State

/-- Running state of proxy entry `i` of district `d`. -/
def proxy (s : State) (d i : Nat) : Proxy := Store.get (fun _ => {}) s.red.proxies (d * 8 + i)

/-- Running state of a proxy entry replaced. -/
def setProxy (s : State) (d i : Nat) (x : Proxy) : State :=
  s.setRed { s.red with proxies := Store.set (fun _ => {}) s.red.proxies (d * 8 + i) x }

/-- Entries of district `d` that name a unit in a direction: kind 0 CAN, 1 serial; direction 0 IN, 1 OUT. -/
def proxies (s : State) (d kind unit dir : Nat) : List Nat :=
  (List.range 8).filter fun i =>
    s.flag (Fld.RED_PROXY_EN d i) && s.fld (Fld.RED_PROXY_KIND d i) == kind && s.fld (Fld.RED_PROXY_UNIT d i) == unit &&
      s.fld (Fld.RED_PROXY_DIR d i) == dir

/-- Records of a district that wait for station 13. -/
def records (s : State) (d : Nat) : List ProxyRecord := Store.get (fun _ => []) s.red.records d

/-- A record with its SEQ joins the queue of 16, or is dropped (R446). -/
def queueRecord (s : State) (d i : Nat) (head : Nat) (words : List Word) : State :=
  let x := s.proxy d i
  let s1 := s.setProxy d i { x with seq := (x.seq + 1) % 65536, gathered := [] }
  if 16 ≤ (s.records d).length then s1.count Fld.RED_CNT2_PROXY_DROP
  else
    s1.setRed { s1.red with
      records := Store.set (fun _ => []) s1.red.records d
        (s.records d ++ [{ first := s.fld (Fld.RED_PROXY_FIRST d i)
                           words := BitVec.ofNat 32 (x.seq + head * 65536) :: words }]) }

/-- A CAN update validated on a controller: one IN record for each entry (Table RED-8). -/
def proxyCan (s : State) (d n obj : Nat) (words : List Word) : State :=
  (s.proxies d 0 n 0).foldl (fun s i => s.queueRecord d i obj words) s

/-- Receive entries two per word, the lower first, in 15 words. -/
def pairWords (es : List Nat) : List Word :=
  (List.range 15).map fun k => BitVec.ofNat 32 ((es[2 * k]?).getD 0 + 65536 * (es[2 * k + 1]?).getD 0)

/-- The entries a serial proxy has gathered leave as one IN record. -/
def flushProxy (s : State) (d i : Nat) : State :=
  let es := (s.proxy d i).gathered
  if es.isEmpty then s else s.queueRecord d i es.length (pairWords es)

/-- A receive entry of a line whose character time is `char`: it is gathered, behind the record of what came a
character time or more before it, and the 30th sends the record. -/
def proxySerial (s : State) (d n char entry : Nat) : State :=
  (s.proxies d 1 n 0).foldl (fun s i =>
    let s := if (s.proxy d i).last + char ≤ s.cycle then s.flushProxy d i else s
    let x := s.proxy d i
    let y := { x with gathered := x.gathered ++ [entry], last := s.cycle }
    let s1 := s.setProxy d i y
    if 30 ≤ y.gathered.length then s1.flushProxy d i else s1) s

end State

end Sys2Proof.Machine
end

