-- ==== Sys2Proof/Machine/Can.lean ====
section
/-!
DEFINITION. The CAN FD controllers (chapter 09): operating state, receive objects and their read lock, transmit
objects, error confinement and commands. The changes of TEC and REC are those of ISO 11898-1 (log entry 29).
-/

namespace Sys2Proof.Machine

/-- Data bytes of a DLC (Table CAN-1). -/
def canLen (fdf : Bool) (dlc : Nat) : Nat :=
  if dlc ≤ 8 then dlc
  else if fdf then
    match dlc with
    | 9 => 12 | 10 => 16 | 11 => 20 | 12 => 24 | 13 => 32 | 14 => 48 | _ => 64
  else 8

/-- Data bytes of a frame; a remote frame has none. -/
def canFrameLen (f : CanFrame) : Nat := if f.rtr then 0 else canLen f.fdf f.dlc.toNat

/-- Sixteen data words of a list of bytes. -/
def canData (bs : List Byte) : List Word :=
  (List.range 16).map fun k => BitVec.ofNat 32
    ((List.range 4).foldl (fun v j => v + ((bs[4 * k + j]?).getD 0).toNat * 256 ^ j) 0)

namespace State

/-- Controller `n`. -/
def can (s : State) (n : Nat) : Can := Store.get (fun _ => {}) s.cans n

/-- Controller `n` replaced. -/
def setCan (s : State) (n : Nat) (x : Can) : State := { s with cans := Store.set (fun _ => {}) s.cans n x }

/-- Receive object `o`. -/
def rxObj (s : State) (n o : Nat) : RxObj := Store.get (fun _ => {}) (s.can n).rx o

/-- Receive object `o` replaced. -/
def setRxObj (s : State) (n o : Nat) (x : RxObj) : State :=
  s.setCan n { s.can n with rx := Store.set (fun _ => {}) (s.can n).rx o x }

/-- Transmit object `t`. -/
def txObj (s : State) (n t : Nat) : TxObj := Store.get (fun _ => {}) (s.can n).tx t

/-- Transmit object `t` replaced. -/
def setTxObj (s : State) (n t : Nat) (x : TxObj) : State :=
  s.setCan n { s.can n with tx := Store.set (fun _ => {}) (s.can n).tx t x }

/-- Engine `e` is one of the district the controller is bound to. -/
def ownsCan (s : State) (e n : Nat) : Bool := s.hasEngine e && s.boundCan (e / 12) n

/-! ### Operating state (R295, R296) -/

/-- OPSTATE: 0 OFF, 1 INTEGRATING, 2 LISTEN, 3 NORMAL. -/
def canOp (s : State) (n : Nat) : Nat := s.fld (Fld.CAN_STAT_OPSTATE n)

/-- CONF is BUS_OFF. -/
def busOff (s : State) (n : Nat) : Bool := s.fld (Fld.CAN_STAT_CONF n) == 2

/-- The state that EN and the mode ask for. -/
def canTarget (s : State) (n : Nat) : Nat :=
  if !s.flag (Fld.CAN_CTRL_EN n) ∨ s.mode < Mode.commission then 0 else if s.mode = Mode.commission then 2 else 3

/-- Bit times of the two phases in CCLK cycles (R291). -/
def nominalBit (s : State) (n : Nat) : Nat :=
  (s.fld (Fld.CAN_NBT_NTSEG1 n) + s.fld (Fld.CAN_NBT_NTSEG2 n) + 3) * (s.fld (Fld.CAN_NBT_NBRP n) + 1)

/-- Data bit time in CCLK cycles. -/
def dataBit (s : State) (n : Nat) : Nat :=
  (s.fld (Fld.CAN_DBT_DTSEG1 n) + s.fld (Fld.CAN_DBT_DTSEG2 n) + 3) * (s.fld (Fld.CAN_DBT_DBRP n) + 1)

/-- OPSTATE written; every change fires CAN_STATE, and OFF abandons a recovery (R313). -/
def setCanOp (s : State) (n op : Nat) : State :=
  if s.canOp n = op then s
  else
    let s0 := if op = 3 then s else s.setCan n { s.can n with chosen := none }
    let s1 := s0.setFld (Fld.CAN_STAT_OPSTATE n) op
    (if op = 0 then s1.setFlag (Fld.CAN_STAT_RECOVERING n) false else s1).fire 0x0B n

/-- OPSTATE follows EN and the mode as far as the frame in progress lets it. -/
def canFollow (s : State) (n : Nat) : State :=
  let now := s.canOp n
  let t := s.canTarget n
  if now = 0 then
    if t = 0 then s
    else if s.nominalBit n < s.dataBit n then s.setFlag (Fld.CAN_STAT_CFG_ERR n) true
    else s.setCanOp n 1
  else if now = 1 then (if t = 0 then s.setCanOp n 0 else s)
  else if (s.can n).busy ∧ !s.busOff n then s
  else s.setCanOp n t

/-- The object on the bus. -/
def activeObj (s : State) (n : Nat) : Option Nat := (List.range 32).find? fun t => (s.txObj n t).state == 2

/-- ENTER_LOAD: a frame being sent is cut off and its object is PENDING again, or CANCELLED where its cancel was
requested; a frame being received is lost, and OFF follows at once. -/
def canLoad (s : State) (n : Nat) : State :=
  let s1 := match s.activeObj n with
    | some t =>
      let x := s.txObj n t
      if x.cancelReq then (s.setTxObj n t { x with state := 4, cancelReq := false }).fire 0x0A n
      else s.setTxObj n t { x with state := 1 }
    | none => s
  (s1.setCan n { s1.can n with busy := false, excepted := false }).setCanOp n 0

/-! ### Error confinement (R311) -/

/-- TEC and REC written, and CONF and WARN with them; any change fires CAN_STATE. -/
def setErr (s : State) (n tec rec' : Nat) : State :=
  let conf := if s.busOff n then 2 else if 255 < tec then 2 else if 128 ≤ tec ∨ 128 ≤ rec' then 1 else 0
  let warn := decide (96 ≤ tec ∨ 96 ≤ rec')
  let changed := s.fld (Fld.CAN_STAT_CONF n) != conf || s.flag (Fld.CAN_STAT_WARN n) != warn
  let s1 := (s.setFld (Fld.CAN_ECNT_TEC n) tec).setFld (Fld.CAN_ECNT_REC n) rec'
  let s2 := (s1.setFld (Fld.CAN_STAT_CONF n) conf).setFlag (Fld.CAN_STAT_WARN n) warn
  let s3 := if conf = 2 ∧ !s.busOff n then s2.count (Fld.CAN_CNT1_BUSOFF n) else s2
  if changed then s3.fire 0x0B n else s3

/-- A frame was sent well: TEC falls by one. -/
def goodTx (s : State) (n : Nat) : State :=
  if s.canOp n = 3 then s.setErr n (s.fld (Fld.CAN_ECNT_TEC n) - 1) (s.fld (Fld.CAN_ECNT_REC n)) else s

/-- A frame was received well: REC falls by one, from above 127 to 127. -/
def goodRx (s : State) (n : Nat) : State :=
  if s.canOp n = 3 then
    s.setErr n (s.fld (Fld.CAN_ECNT_TEC n)) (min 127 (s.fld (Fld.CAN_ECNT_REC n) - 1))
  else s

/-! ### Receive objects (R299–R305) -/

/-- The lock of a receive object: its holder. -/
def lockHolder (s : State) (n o : Nat) : Option Ident :=
  (s.leases.find? fun l => l.type == 4 && l.index == n * 256 + o).map (·.holder)

/-- An update is applied to an object (R300, R301). -/
def applyRx (s : State) (n o : Nat) (words : List Word) (lost : Bool) : State :=
  let x := s.rxObj n o
  let s1 := s.setRxObj n o { x with new := true, lost := lost, updates := (x.updates + 1) % 65536, words := words }
  let s2 := s1.count (Fld.CAN_CNT0_RX_OK n)
  if s2.flag (Fld.CAN_RXID_IE n o) then s2.fire 0x09 n else s2

/-- A frame for an object: to its pending buffer while it is locked, else applied. -/
def updateRx (s : State) (n o : Nat) (words : List Word) : State :=
  let x := s.rxObj n o
  if (s.lockHolder n o).isSome then
    let s1 := s.setRxObj n o { x with pend := some { words := words, lost := x.pend.isSome } }
    if x.pend.isSome then s1.count (Fld.CAN_CNT1_LOST n) else s1
  else
    let s1 := s.applyRx n o words x.new
    if x.new then s1.count (Fld.CAN_CNT1_LOST n) else s1

/-- The updates of an object that this cycle has brought are applied, oldest first (R300). -/
def applyDue (s : State) (n o : Nat) : State :=
  let x := s.can n
  (x.due.filter (·.1 == o)).foldl (fun s p => s.updateRx n o p.2)
    (s.setCan n { x with due := x.due.filter (·.1 != o) })

/-- Every update that the past cycle brought to controller `n` is applied. -/
def settleCan (s : State) (n : Nat) : State :=
  (s.can n).due.foldl (fun s p => s.updateRx n p.1 p.2) (s.setCan n { s.can n with due := [] })

/-- The updates that the past cycle brought to the controllers are applied. -/
def settleCans (s : State) : State := s.cans.foldl (fun s p => s.settleCan p.1) s

/-- The lock is released: NEW and LOST become 0, and a buffered frame is applied (R302). -/
def releaseRx (s : State) (n o : Nat) : State :=
  let s1 := { s with leases := s.leases.filter fun l => !(l.type == 4 && l.index == n * 256 + o) }
  let x := s1.rxObj n o
  let s2 := s1.setRxObj n o { x with new := false, lost := false, pend := none }
  match x.pend with
  | some p => s2.applyRx n o p.words p.lost
  | none => s2

/-- Word `w` of a receive object as an engine reads it. -/
def rxWord (s : State) (e n o w : Nat) : Word :=
  let x := s.rxObj n o
  if w = 0 then
    let other := match s.lockHolder n o with | some h => h != s.ident (0x10 + e) | none => false
    BitVec.ofNat 32 (bit x.new + 2 * bit x.lost + 4 * bit other + 8 * bit x.pend.isSome + 65536 * x.updates)
  else (x.words[w - 1]?).getD 0

/-- Engine `e` takes the lock of an object. -/
def lockRx (s : State) (e n o : Nat) : State :=
  s.addLease { type := 4, district := e / 12, index := n * 256 + o, holder := s.ident (0x10 + e) }

/-- A read of word 0 meets an update of the same cycle: on an unlocked object the update comes first (R304). -/
def openRx (s : State) (n o : Nat) : State := if (s.lockHolder n o).isNone then s.applyDue n o else s

/-- A read that includes a byte of word 0 takes the lock of an unlocked object; the holder's takes nothing new. -/
def touchWord0 (s : State) (e n o : Nat) : State :=
  match s.lockHolder n o with
  | none => (s.openRx n o).lockRx e n o
  | some h =>
    if h = s.ident (0x10 + e) then { s with now := { s.now with objReads := s.now.objReads ++ [(n * 256 + o, h)] } }
    else s

/-- A read by the holder that includes a byte of word 19 releases the lock; an update of the same cycle is then applied
directly (R304). -/
def touchWord19 (s : State) (e n o : Nat) : State :=
  if s.lockHolder n o = some (s.ident (0x10 + e)) then (s.releaseRx n o).applyDue n o else s

/-- The reclaim of a lock. The holder's read of word 0 in the same cycle comes after it, as an ordinary read (R304). -/
def reclaimRx (s : State) (i : Nat) (holder : Ident) : State :=
  let s1 := s.releaseRx (i / 256) (i % 256)
  if s.now.objReads.contains (i, holder) then s1.lockRx (Ident.engine holder) (i / 256) (i % 256) else s1

end State

/-- Words 1–19 of a frame received, with its stamp and its start-of-frame count (Table CAN-4). -/
def canFrameWords (f : CanFrame) (stamp : Option Nat) (lost : Bool) (sof : Nat) : List Word :=
  let id := if f.ide then f.id.toNat else f.id.toNat % 2048
  [BitVec.ofNat 32 (id + 2 ^ 29 * bit f.ide + 2 ^ 30 * bit f.rtr + 2 ^ 31 * bit f.fdf),
    BitVec.ofNat 32 (f.dlc.toNat + 16 * bit f.brs + 32 * bit f.esi + 64 * canFrameLen f +
      2 ^ 16 * (match stamp with | some i => i % 1024 + 1024 | none => 0) + 2 ^ 27 * bit lost),
    BitVec.ofNat 32 sof] ++ canData (f.data.take (canFrameLen f))

namespace State

/-- The form of a frame is one that the controllers implement (R289): bit-rate switching and ESI in FD frames alone,
no FD remote frame, and the data bytes its DLC gives. -/
def listedForm (f : CanFrame) : Bool :=
  (f.fdf || (!f.brs && !f.esi)) && !(f.fdf && f.rtr) && f.data.length == canFrameLen f

/-- The lowest enabled object of a frame's identifier. -/
def rxMatch (s : State) (n : Nat) (f : CanFrame) : Option Nat :=
  (List.range 256).find? fun o =>
    s.flag (Fld.CAN_RXID_EN n o) && s.flag (Fld.CAN_RXID_IDE n o) == f.ide &&
      s.fld (Fld.CAN_RXID_ID n o) == (if f.ide then f.id.toNat else f.id.toNat % 2048)

/-! ### Transmit objects (R306–R310) -/

/-- A word of a transmit object as it reads (Table CAN-5). -/
def txObjWord (s : State) (n t w : Nat) : Word :=
  let x := s.txObj n t
  if w = 0 then
    BitVec.ofNat 32 (x.state + 8 * bit x.first + 64 * bit x.cancelReq + 256 * x.attempts)
  else if w = 3 then BitVec.ofNat 32 x.sofCnt
  else Store.get (fun _ => 0) x.words w

/-- The object's words hold a request that R307 refuses. -/
def txBadArg (s : State) (n t : Nat) : Bool :=
  let w := s.txObjWord n t 1
  w.getLsbD 31 && (!s.flag (Fld.CAN_CFG_FD_EN n) || w.getLsbD 30)

/-- An object becomes SENT, CANCELLED or FAILED: CAN_TX fires. -/
def endTx (s : State) (n t state : Nat) : State :=
  (s.setTxObj n t { s.txObj n t with state := state, first := false, cancelReq := false }).fire 0x0A n

/-- TX_REQUEST of an object: its code and what follows (R307). -/
def txRequest (s : State) (n t : Nat) : Nat × State :=
  let x := s.txObj n t
  if s.txBadArg n t then (Code.badArg, s.endTx n t 5)
  else if x.state = 1 ∨ x.state = 2 then (Code.wrongState, s)
  else (Code.ok, s.setTxObj n t { x with state := 1, attempts := 0 })

/-- TX_CANCEL of an object (R310). -/
def txCancel (s : State) (n t : Nat) : Nat × State :=
  let x := s.txObj n t
  if x.state = 1 then (Code.ok, s.endTx n t 4)
  else if x.state = 2 then (Code.pending, s.setTxObj n t { x with cancelReq := true })
  else (Code.wrongState, s)

/-- Arbitration field of an object as a number: the lower wins (R308). -/
def arbKey (s : State) (n t : Nat) : Nat :=
  let w := s.txObjWord n t 1
  let id := fieldGet w 0 29
  let rtr := bit (w.getLsbD 30)
  if w.getLsbD 29 then id / 2 ^ 18 * 2 ^ 21 + 2 ^ 20 + 2 ^ 19 + id % 2 ^ 18 * 2 + rtr
  else id % 2 ^ 11 * 2 ^ 21 + rtr * 2 ^ 20

/-- The better of two objects: the lower key, then the lower number. -/
def betterObj (s : State) (n : Nat) (best : Option Nat) (t : Nat) : Option Nat :=
  match best with
  | none => some t
  | some b => if s.arbKey n t < s.arbKey n b then some t else some b

/-- The PENDING object for the next attempt: one marked FIRST, else the one that wins arbitration. -/
def txChoice (s : State) (n : Nat) : Option Nat :=
  let ps := (List.range 32).filter fun t => (s.txObj n t).state == 1
  match ps.find? fun t => (s.txObj n t).first with
  | some t => some t
  | none => ps.foldl (fun b t => s.betterObj n b t) none

/-- An attempt of an object ends without success: CANCELLED, FAILED or PENDING again (R309, R310). -/
def failAttempt (s : State) (n t : Nat) (first : Bool) : State :=
  let x := s.txObj n t
  if x.cancelReq then s.endTx n t 4
  else if (s.txObjWord n t 2).getLsbD 5 then s.endTx n t 5
  else s.setTxObj n t { x with state := 1, first := first }

/-- The frame in progress has ended: intermission, and a change of state that waited for it. -/
def frameEnd (s : State) (n : Nat) (suspend : Bool) : State :=
  let bits := if suspend ∧ s.fld (Fld.CAN_STAT_CONF n) = 1 then 11 else 3
  (s.setCan n { s.can n with busy := false, suspendUntil := s.cycle + bits * s.nominalBit n * 10 }).canFollow n

/-- Eleven recessive bits: the bus is idle. -/
def busIdle (s : State) (n : Nat) : State :=
  (s.setCan n { s.can n with busy := false, excepted := false }).canFollow n

/-- The object chosen for the next attempt, while it is PENDING. -/
def chosenObj (s : State) (n : Nat) : Option Nat := (s.can n).chosen.filter fun t => (s.txObj n t).state == 1

/-- The chosen object's attempt starts: it is ACTIVE from its start of frame, which increments ATTEMPTS (R308). -/
def startAttempt (s : State) (n : Nat) : State :=
  match s.chosenObj n with
  | some t =>
    let x := s.txObj n t
    let s := s.setCan n { s.can n with chosen := none }
    s.setTxObj n t { x with state := 2, first := false, attempts := satAdd 255 x.attempts 1 }
  | none => s

/-- The loop delay measured in an FD frame sent with BRS = 1 under TDC_EN, in CCLK cycles (R294). -/
def measureTdc (s : State) (n t : Nat) (tdc : Option Nat) : State :=
  match tdc with
  | some d =>
    if (s.txObjWord n t 1).getLsbD 31 ∧ (s.txObjWord n t 2).getLsbD 4 ∧ s.flag (Fld.CAN_DBT_TDC_EN n) then
      s.setFld (Fld.CAN_TDC_STAT_TDCV n) (min 63 d)
    else s
  | none => s

/-- CCLK cycles after a transmitted data bit's start at which it is checked: the secondary sample point under TDC_EN,
else the data-phase sample point (R291, R294). -/
def checkPoint (s : State) (n : Nat) : Nat :=
  if s.flag (Fld.CAN_DBT_TDC_EN n) then s.fld (Fld.CAN_TDC_STAT_TDCV n) + s.fld (Fld.CAN_DBT_TDCO n)
  else (s.fld (Fld.CAN_DBT_DTSEG1 n) + 2) * (s.fld (Fld.CAN_DBT_DBRP n) + 1)

/-- A write to an object's word in PORT space: `none` where it is refused (R306). -/
def writeTxWord (s : State) (n t w : Nat) (v : Word) : Option State :=
  let x := s.txObj n t
  if w = 3 then none
  else if w = 0 then
    match fieldGet v 4 2 with
    | 1 => some (s.txRequest n t).2
    | 2 => some (s.txCancel n t).2
    | 3 => some (s.setFlag (Fld.CAN_STAT_CFG_ERR n) true)
    | _ => some s
  else if x.state = 1 ∨ x.state = 2 then none
  else
    let v := if w = 2 then v &&& 0x3F#32 else v
    some (s.setTxObj n t { x with words := Store.set (fun _ => 0) x.words w v })

/-- An outcome of CAN_CMD (Table CAN-7). -/
def canResult (s : State) (n cmd code : Nat) (who : Ident) : State :=
  let lost := s.fld (Fld.CAN_CMD_RES_LOST n)
  (s.setReg (Reg.CAN_CMD_RES n) (BitVec.ofNat 32 (code + 65536 * cmd + 2 ^ 24 + 2 ^ 25 * lost))).countCode who code

/-- A command written to CAN_CMD by an identity that may write it: executed when DONE is 1 and no other was in this cycle
(R316). -/
def canCommand (s : State) (who : Ident) (n : Nat) (f : State → State) : State :=
  if s.variant.hasCan n then
    s.unitWrite who State.boundCan n (Reg.CAN_CMD n) fun s =>
      s.oneAtATime (Reg.CAN_CMD n) (!s.flag (Fld.CAN_CMD_RES_DONE n)) (Fld.CAN_CMD_RES_LOST n) f
  else s.absentHit (Reg.CAN_CMD n) true

/-- The objects of a controller return to 0 (R298). -/
def resetCan (s : State) (n : Nat) : State := s.setCan n { s.can n with rx := [], tx := [], chosen := none, due := [] }

end State

/-! ### The commands -/

/-- CAN_CTRL.EN = 1. -/
def execCanEnable (n : Nat) (who : Ident) (s : State) : Answer :=
  .next (s.served who fun s => (if s.variant.hasCan n then
    s.unitWrite who State.boundCan n (Reg.CAN_CTRL n) fun s => (s.setFlag (Fld.CAN_CTRL_EN n) true).canFollow n
  else s.absentHit (Reg.CAN_CTRL n) true))

/-- CAN_CTRL.EN = 0. -/
def execCanDisable (n : Nat) (who : Ident) (s : State) : Answer :=
  .next (s.served who fun s => (if s.variant.hasCan n then
    s.unitWrite who State.boundCan n (Reg.CAN_CTRL n) fun s => (s.setFlag (Fld.CAN_CTRL_EN n) false).canFollow n
  else s.absentHit (Reg.CAN_CTRL n) true))

/-- Eleven consecutive recessive bits end the integration, and the wait after a protocol exception (R290). -/
def execIntegrationDone (n : Nat) (s : State) : Answer :=
  .next (s.clocked 4 fun s => (if s.canOp n = 1 then (s.setCan n { s.can n with busy := false }).setCanOp n (s.canTarget n)
    else if (s.can n).excepted then s.busIdle n else s))

/-- A start of frame crosses to FCLK (R314, R315), with its count: it fires CAN_SOF and pushes its stamp. -/
def canSof (s : State) (n held cnt : Nat) : State :=
  let s := s.fire 0x08 n
  match (if s.flag (Fld.CAN_CFG_STAMPQ n) then s.districtOf State.boundCan n else none) with
  | some d =>
    let i := s.fld (Fld.TSQ_STAT_TAIL d)
    let t := s.tsqHardware d 8 n cnt (61 + held)
    t.1.setCan n { t.1.can n with stamp := if t.2 then some i else none, stampLost := !t.2 }
  | none => s.setCan n { s.can n with stamp := none, stampLost := false }

/-- A hard synchronisation at start of frame: it is counted in its CCLK cycle, and starts the chosen object's
attempt. -/
def execCanSof (n : Nat) (s : State) : Answer :=
  .next (s.clocked 4 fun s => (if s.variant.hasCan n ∧ 2 ≤ s.canOp n then
    let s := (s.startAttempt n).countWrap (Fld.CAN_SOF_CNT_COUNT n)
    let cnt := s.fld (Fld.CAN_SOF_CNT_COUNT n)
    let s := match s.activeObj n with
      | some t => s.setTxObj n t { s.txObj n t with sofCnt := cnt }
      | none => s
    let x := s.can n
    (s.setCan n { x with
      busy := true, stamp := none, stampLost := false
      sofHeld := if s.syncLine (8 * 64 + n) = 1 then cnt else x.sofHeld }).raiseLine (8 * 64 + n)
      fun s => canSof s n 0 cnt
  else s))

/-- A received frame is valid. In NORMAL it is acknowledged on the bus; in bus-off only its end is seen (R311). -/
def execFrameValid (n : Nat) (f : CanFrame) (s : State) : Answer :=
  .next (s.live fun s => if !s.variant.hasCan n then s else s.through 4 fun s =>
    (if s.busOff n then (if (s.can n).busy then s.frameEnd n false else s)
  else if 2 ≤ s.canOp n ∧ !(s.can n).excepted ∧ (s.activeObj n).isNone ∧
      (!f.fdf || s.flag (Fld.CAN_CFG_FD_EN n)) ∧ State.listedForm f then
    let words := canFrameWords f (s.can n).stamp (s.can n).stampLost (s.fld (Fld.CAN_SOF_CNT_COUNT n))
    let s := if s.canOp n = 3 then s.emit (.canAck n) else s
    let s := s.goodRx n
    let s := match s.rxMatch n f with
      | some o =>
        let s := match s.districtOf State.boundCan n with
          | some d => s.proxyCan d n o words
          | none => s
        s.setCan n { s.can n with due := (s.can n).due ++ [(o, words)] }
      | none => s.count (Fld.CAN_CNT1_NOMATCH n)
    s.frameEnd n false
  else s))

/-- An engine's read reaches word 0 of a receive object. -/
def execObjectWord0Read (e n o : Nat) (s : State) : Answer :=
  .next (s.live fun s => (if s.ownsCan e n ∧ o < 256 then s.touchWord0 e n o else s))

/-- An engine's read reaches word 19 of a receive object. -/
def execObjectWord19Read (e n o : Nat) (s : State) : Answer :=
  .next (s.live fun s => (if s.ownsCan e n ∧ o < 256 then s.touchWord19 e n o else s))

/-- A write of CAN_RXID (R299); a base identifier with bits above bit 10 is a reserved encoding. -/
def execCanRxid (n o : Nat) (v : Word) (who : Ident) (s : State) : Answer :=
  .next (s.served who fun s => (if s.variant.hasCan n then
    let o := o % 256
    s.unitWrite who State.boundCan n (Reg.CAN_RXID n o) fun s =>
      if !v.getLsbD 29 ∧ fieldGet v 11 18 ≠ 0 then s.setFlag (Fld.CAN_STAT_CFG_ERR n) true
      else
        (s.setReg (Reg.CAN_RXID n o) v).setRxObj n o { s.rxObj n o with new := false, lost := false, pend := none }
  else s.absentHit (Reg.CAN_RXID n (o % 256)) true))

/-- CAN_CMD TX_REQUEST. -/
def execTxRequest (n t : Nat) (who : Ident) (s : State) : Answer :=
  .next (s.served who fun s => s.canCommand who n fun s =>
    (s.txRequest n (t % 32)).2.canResult n 2 (s.txRequest n (t % 32)).1 who)

/-- CAN_CMD TX_CANCEL. -/
def execTxCancel (n t : Nat) (who : Ident) (s : State) : Answer :=
  .next (s.served who fun s => s.canCommand who n fun s =>
    (s.txCancel n (t % 32)).2.canResult n 3 (s.txCancel n (t % 32)).1 who)

/-- CAN_CMD BOFF_RECOVER (R313). -/
def execBoffRecover (n : Nat) (who : Ident) (s : State) : Answer :=
  .next (s.served who fun s => s.canCommand who n fun s =>
    if s.busOff n ∧ !s.flag (Fld.CAN_STAT_RECOVERING n) ∧ s.flag (Fld.CAN_CTRL_EN n) ∧ Mode.commission ≤ s.mode then
      ((s.setFlag (Fld.CAN_STAT_RECOVERING n) true).fire 0x0B n).canResult n 1 Code.ok who
    else s.canResult n 1 Code.wrongState who)

/-- The choice of the object for the next attempt, from the last bit of intermission or suspend transmission on. -/
def execArbitrationChoice (n : Nat) (s : State) : Answer :=
  .next (s.clocked 4 fun s => (if s.canOp n = 3 ∧ !s.busOff n ∧ !(s.can n).busy ∧ (s.activeObj n).isNone ∧
      (s.chosenObj n).isNone ∧ (s.can n).suspendUntil ≤ s.cycle + s.nominalBit n * 10 then
    s.setCan n { s.can n with chosen := s.txChoice n }
  else s))

/-- A transmit attempt ends. `tdc` is the loop delay measured in the frame, in CCLK cycles, where it came so far
(R294). -/
def execAttemptEnd (n : Nat) (how : Attempt) (tdc : Option Nat) (s : State) : Answer :=
  .next (s.clocked 4 fun s => (match s.activeObj n with
    | some t =>
      let s := if how = .lost then s else s.measureTdc n t tdc
      match how with
      | .success =>
        let ws := [1, 2, 4, 5, 6, 7, 8, 9, 10, 11, 12, 13, 14, 15, 16, 17, 18, 19].map fun w => s.txObjWord n t w
        ((((s.endTx n t 3).count (Fld.CAN_CNT0_TX_OK n)).emit (.canFrame n ws)).goodTx n).frameEnd n true
      | .lost => s.failAttempt n t false
      | .error => (s.failAttempt n t false).frameEnd n true
    -- the object was refused while its frame was on the bus (R307)
    | none => if (s.can n).busy ∧ how ≠ .lost then s.frameEnd n true else s))

/-- A bit of the data phase that the controller transmits reads back otherwise `point` CCLK cycles after its start: a
bit error only at the point where it is checked (R294). -/
def State.unchecked (s : State) (n : Nat) (err : CanError) (data : Bool) (point : Nat) : Bool :=
  data && (err == .bitRecessive || err == .bitDominant) && (s.activeObj n).isSome && point != s.checkPoint n

/-- A bus error: it is logged, and in NORMAL it is signalled and raises TEC by 8 at a transmitter or REC by 1 at a
receiver, and by `more` further steps of 8 for dominant bits after the error flag; an exempt one of ISO 11898-1 leaves
TEC. A recessive bit outside the format of a frame received is a protocol exception under PXE: 11 recessive bits are
waited for (R290). -/
def execBusError (n : Nat) (err : CanError) (spot : ErrorSpot) (exempt : Bool) (more : Nat) (s : State) : Answer :=
  .next (s.clocked 4 fun s => (if s.busOff n then (if (s.can n).busy then s.frameEnd n false else s)
  else if s.variant.hasCan n ∧ 2 ≤ s.canOp n ∧ !(s.can n).excepted then
    let active := s.activeObj n
    let s := match active with
      | some t => s.measureTdc n t spot.tdc
      | none => s
    if err = .formatBit ∧ s.flag (Fld.CAN_CFG_PXE n) ∧ active.isNone then
      let s := s.count (Fld.CAN_CNT1_PEX n)
      s.setCan n { s.can n with busy := true, excepted := true }
    else if s.unchecked n err spot.data spot.point then s
    else
      let s := if s.canOp n = 3 then s.emit (.canErrorFrame n) else s
      let code := match err with
        | .stuff => 1 | .form => 2 | .ack => 3 | .bitRecessive => 4 | .bitDominant => 5 | .crc => 6 | .formatBit => 2
      let s := (((s.setFld (Fld.CAN_ERRLOG_CODE n) code).setFlag (Fld.CAN_ERRLOG_PHASE n) spot.data).setFlag
        (Fld.CAN_ERRLOG_DIR n) active.isSome).count (Fld.CAN_ERRLOG_COUNT n)
      let tec := s.fld (Fld.CAN_ECNT_TEC n)
      let rec' := s.fld (Fld.CAN_ECNT_REC n)
      let s :=
        if s.canOp n ≠ 3 then s
        else if active.isSome then s.setErr n (min 511 (tec + (if exempt then 0 else 8) + 8 * more)) rec'
        else s.setErr n tec (min 255 (rec' + (if exempt then 0 else 1) + 8 * more))
      match active with
      | some t => if s.busOff n then (s.failAttempt n t true).frameEnd n false else s
      | none => s.frameEnd n false
  else s))

/-- The 128th occurrence of 11 recessive bits ends the recovery; the bus is idle. -/
def execRecoveryDone (n : Nat) (s : State) : Answer :=
  .next (s.clocked 4 fun s => (if s.flag (Fld.CAN_STAT_RECOVERING n) then
    ((((((s.setFlag (Fld.CAN_STAT_RECOVERING n) false).setFld (Fld.CAN_STAT_CONF n) 0).setFlag (Fld.CAN_STAT_WARN n)
      false).setFld (Fld.CAN_ECNT_TEC n) 0).setFld (Fld.CAN_ECNT_REC n) 0).fire 0x0B n).busIdle n
  else s))

end Sys2Proof.Machine
end

