-- ==== Sys2Proof/Machine/Image.lean ====
section
/-!
DEFINITION. The process image (chapter 13): points and their versions, epochs, direct writes, transactions,
pins and copy-on-write records, and the requests of other chips.
-/

namespace Sys2Proof.Machine

/-- Control block of an identity of this chip (R397): host functions 0–7, the supervisor 8, engine e 16 + e. -/
def imgBlock (who : Ident) : Nat :=
  if Ident.isHost who then Ident.src who else if Ident.isEngine who then 16 + Ident.engine who else 8

/-- A version's 16 bytes as a number, with ERR, SNAP_MISS and SET (Table IMG-1). -/
def Slotted.shown (x : Slotted) (miss : Bool) : Nat :=
  (match x with
    | .unset => 0
    | .lost => 2 ^ 125
    | .version v =>
      v.value + 2 ^ 64 * v.stamp + 2 ^ 112 * v.quality + 2 ^ 120 * v.user + 2 ^ 127) + 2 ^ 126 * bit miss

/-! ### The line of a point (R370, R389) -/

/-- Slot 0 holds the current version: pending of a committed transaction, or CUR with no such version beside it. -/
def Point.inSlot0 (x : Point) : Bool := x.slot0.txn.isSome || (x.slot0.cur && x.slot1.txn.isNone)

/-- Slot 1 holds the current version. -/
def Point.inSlot1 (x : Point) : Bool := x.slot1.txn.isSome || x.slot1.cur

/-- The current version. -/
def Point.cur (x : Point) : Slotted :=
  if x.lost then .lost else if x.inSlot0 then x.slot0.held else if x.inSlot1 then x.slot1.held else .unset

/-- The previous version. -/
def Point.prev (x : Point) : Slotted :=
  if x.lost then .lost else if x.inSlot0 then x.slot1.held else if x.inSlot1 then x.slot0.held else .unset

/-- A pending version of a committed transaction is settled: CUR = 1 there, and 0 in the other slot. -/
def Point.settled (x : Point) : Point :=
  if x.slot0.txn.isSome then
    { x with slot0 := { x.slot0 with txn := none, cur := true }, slot1 := { x.slot1 with txn := none, cur := false } }
  else if x.slot1.txn.isSome then
    { x with slot1 := { x.slot1 with txn := none, cur := true }, slot0 := { x.slot0 with cur := false } }
  else x

/-- A version is written into the slot that does not hold the current one, pending under a transaction slot or with
CUR = 1; a line with an error has both slots rewritten, its previous version dropped and the error cleared (R378,
R381, R389). -/
def Point.written (x : Point) (v : Ver) (txn : Option Nat) (e : Nat) : Point :=
  let y := x.settled
  let new : VerSlot := { held := .version v, txn := txn, cur := txn.isNone }
  let old : VerSlot := { held := x.cur, cur := txn.isSome && (y.inSlot0 || y.inSlot1) }
  if y.inSlot0 then { slot0 := old, slot1 := new, last := e } else { slot0 := new, slot1 := old, last := e }

namespace State

/-! ### Points, pins and slots -/

/-- The image controller replaced. -/
def setImg (s : State) (x : Image) : State := { s with img := x }

/-- Point `p`. -/
def point (s : State) (p : Nat) : Point := Store.get (fun _ => {}) s.img.points p

/-- Point `p` replaced. -/
def setPoint (s : State) (p : Nat) (x : Point) : State :=
  s.setImg { s.img with points := Store.set (fun _ => {}) s.img.points p x }

/-- Slot `t`: its state, 0 FREE, 1 OPEN, 2 APPLYING, 3 SETTLING. -/
def imgSlot (s : State) (t : Nat) : Nat := s.fld (Fld.IMG_SLOT_STATE t)

/-- Holder of slot `t`. -/
def imgHolder (s : State) (t : Nat) : Ident := BitVec.ofNat 16 (s.fld (Fld.IMG_SLOT_HOLDER t))

/-- Begin epoch and journal of slot `t`. -/
def imgTxn (s : State) (t : Nat) : ImgTxn := Store.get (fun _ => {}) s.img.txns t

/-- Begin epoch and journal of slot `t` replaced. -/
def setImgTxn (s : State) (t : Nat) (x : ImgTxn) : State :=
  s.setImg { s.img with txns := Store.set (fun _ => {}) s.img.txns t x }

/-- Pin `k` is held. -/
def pinHeld (s : State) (k : Nat) : Bool := s.flag (Fld.IMG_PIN_FIRST_HELD k)

/-- Holder of pin `k`. -/
def pinHolder (s : State) (k : Nat) : Ident := BitVec.ofNat 16 (s.fld (Fld.IMG_PIN_HOLDER_HOLDER k))

/-- Whole epoch of pin `k`. -/
def pinEpoch (s : State) (k : Nat) : Nat := Store.get (fun _ => 0) s.img.pins k

/-- Point `p` lies in the range of held pin `k`. -/
def pinCovers (s : State) (k p : Nat) : Bool :=
  let first := s.fld (Fld.IMG_PIN_FIRST_FIRST k)
  s.pinHeld k && decide (first ≤ p ∧ p < first + s.fld (Fld.IMG_PIN_COUNT_COUNT k))

/-- IMG_STAT shows how many slots are OPEN or APPLYING and how many pins are held. -/
def showImg (s : State) : State :=
  let n := ((List.range 64).filter fun t => s.imgSlot t == 1 || s.imgSlot t == 2).length
  let k := ((List.range 8).filter s.pinHeld).length
  (s.setFld Fld.IMG_STAT_OPEN n).setFld Fld.IMG_STAT_PINS k

/-- E rises by one, or to a value (R373). -/
def setEpoch (s : State) (e : Nat) : State :=
  ((s.setImg { s.img with epoch := e }).setReg Reg.IMG_EPOCH_LO (BitVec.ofNat 32 e)).setReg Reg.IMG_EPOCH_HI
    (BitVec.ofNat 32 (e / 2 ^ 32))

/-! ### Results (R398) -/

/-- A command is taken up: RES reads PENDING. -/
def imgPending (s : State) (b : Nat) : State :=
  ((s.setFld (Fld.IMG_RES_RESULT b) Code.pending).setFlag (Fld.IMG_RES_DONE b) false).setFlag (Fld.IMG_RES_DUP b) false

/-- The final result; IMG_DONE fires for an engine. -/
def imgDone (s : State) (who : Ident) (code : Nat) : State :=
  let b := imgBlock who
  let s1 := ((s.setFld (Fld.IMG_RES_RESULT b) code).setFlag (Fld.IMG_RES_DONE b) true).countCode who code
  if Ident.isEngine who then s1.fireEngine 0x1A 0 (Ident.engine who) else s1

/-- RES_EPOCH written. -/
def imgResEpoch (s : State) (who : Ident) (e : Nat) : State :=
  (s.setReg (Reg.IMG_RES_EPOCH_LO (imgBlock who)) (BitVec.ofNat 32 e)).setReg (Reg.IMG_RES_EPOCH_HI (imgBlock who))
    (BitVec.ofNat 32 (e / 2 ^ 32))

/-- RES.ERR: a write of the identity was refused or dropped. A unit, and an identity of another chip, has no block. -/
def imgErr (s : State) (who : Ident) : State :=
  if Ident.chip who == s.chip && (Ident.isHost who || Ident.isEngine who || Ident.isSup who) then s.setFlag (Fld.IMG_RES_ERR (imgBlock who)) true
  else s

/-- TXN_SEL.SEL is cleared if it names the slot. -/
def unselect (s : State) (who : Ident) (t : Nat) : State :=
  let b := imgBlock who
  if s.fld (Fld.IMG_TXN_SEL_SLOT b) = t then s.setFlag (Fld.IMG_TXN_SEL_SEL b) false else s

/-! ### Copy-on-write (R395) -/

/-- Records of `p` serve pin `k`. -/
def cowOf (s : State) (k p : Nat) : Option CowRec := s.img.cow.find? fun r => r.point == p && r.pins.contains k

/-- The held pins for which a write to `p` must first copy its previous version. -/
def cowNeed (s : State) (p : Nat) : List Nat :=
  (List.range 8).filter fun k => s.pinCovers k p && decide (s.pinEpoch k < (s.point p).last) && (s.cowOf k p).isNone

/-- The copy is made, in one record for all those pins. -/
def cowCopy (s : State) (p : Nat) : State :=
  let ks := s.cowNeed p
  if ks.isEmpty then s
  else
    (s.setImg { s.img with cow := { point := p, old := (s.point p).prev, pins := ks } :: s.img.cow }).setFld
      Fld.IMG_COW_STAT_FREE (s.fld Fld.IMG_COW_STAT_FREE - 1)

/-- A record is free, or none is needed. -/
def cowReady (s : State) (p : Nat) : Bool := (s.cowNeed p).isEmpty || decide (0 < s.fld Fld.IMG_COW_STAT_FREE)

/-! ### Writing a point (R371, R380, R381) -/

/-- STAMP of an instant (R371). -/
def imgStamp (s : State) (t : Instant) : Nat :=
  let base : Int := s.fld Fld.IMG_BASE_SEC_LO_SEC + 2 ^ 32 * s.fld Fld.IMG_BASE_SEC_HI_SEC
  let sec : Int := Instant.sec t
  ofSigned 48 ((sec - base) * 1000000000 + Instant.ns t)

/-- The version that is written: AUTO takes line time through the controller's own repeater (R380). -/
def stamped (s : State) (w : Write) : Ver :=
  if w.auto then { w.ver with stamp := s.imgStamp (s.repeaterTime 8) } else w.ver

/-- The version takes the place of the current one, which stays as the previous (R381); one of a COMMIT stays pending
under its slot until it is settled. -/
def putVersion (s : State) (p : Nat) (v : Ver) (txn : Option Nat) (e : Nat) : State :=
  s.setPoint p ((s.point p).written v txn e)

/-- The versions still pending under a slot are settled. -/
def settleTxn (s : State) (t : Nat) : State :=
  s.setImg { s.img with points := s.img.points.map fun p =>
    (p.1, if p.2.slot0.txn = some t ∨ p.2.slot1.txn = some t then p.2.settled else p.2) }

/-- A direct write is applied: copies, the version, LAST, and the conflict of a commit in processing (R386). -/
def applyWrite (s : State) (p : Nat) (w : Write) : State :=
  let s1 := (s.cowCopy p).putVersion p (s.stamped w) none s.img.epoch
  match s1.img.run with
  | some r =>
    if (Store.get (fun _ => none) (s1.imgTxn r.slot).set p).isSome then
      s1.setImg { s1.img with run := some { r with hit := true } }
    else s1
  | none => s1

/-- Digest of a direct write: the CRC-32C of its point and version, without a stamp that AUTO gives (R427, log
entry 36). -/
def writeDigest (p : Nat) (w : Write) : Nat :=
  let n := p + 2 ^ 32 * (w.ver.value + 2 ^ 64 * (if w.auto then 0 else w.ver.stamp) + 2 ^ 112 * w.ver.quality +
    2 ^ 120 * w.ver.user)
  crc32cBytes ((List.range 20).map fun i => n / 256 ^ i % 256)

/-- A direct write is tried: judged if it carries a flow (R382), and applied unless it must wait for a record. -/
def tryWrite (s : State) (p : Nat) (w : Write) (flow : Option (Nat × Nat)) : Option State :=
  let j := match flow with
    | some f => s.judge 1 f.1 f.2 (writeDigest p w)
    | none => (true, s)
  if !j.1 then some (j.2.count Fld.IMG_DUP_COUNT)
  else if s.cowReady p then some (j.2.applyWrite p w)
  else none

/-! ### Ends of slots and pins -/

/-- A slot is freed with its journal and its lease. -/
def freeSlot (s : State) (t : Nat) : State :=
  ((s.setImgTxn t {}).setReg (Reg.IMG_SLOT t) 0).dropLease 2 0 t

/-- The write set is discarded (R390). -/
def rollbackSlot (s : State) (t : Nat) : State :=
  let who := s.imgHolder t
  ((s.freeSlot t).unselect who t).showImg

/-- A pin is released; records that served it alone wait to return to the free count (R393). -/
def releasePin (s : State) (k : Nat) : State :=
  let rest := s.img.cow.map fun r => { r with pins := r.pins.filter (· != k) }
  let keep := rest.filter fun r => !r.pins.isEmpty
  let s := s.setImg { s.img with
    cow := keep
    freed := s.img.freed + (rest.length - keep.length)
    pins := Store.erase s.img.pins k }
  (((s.setReg (Reg.IMG_PIN_FIRST k) 0).setReg (Reg.IMG_PIN_COUNT k) 0).setReg (Reg.IMG_PIN_EPOCH k) 0).setReg
    (Reg.IMG_PIN_HOLDER k) 0

/-- A slot or pin ended by age is remembered for its holder (R374). -/
def markAged (s : State) (key : Nat) (who : Option Ident) : State :=
  s.setImg { s.img with aged := Store.set (fun _ => none) s.img.aged key who }

/-- A slot or pin was ended by age and held by the writer. -/
def isAged (s : State) (key : Nat) (who : Ident) : Bool := Store.get (fun _ => none) s.img.aged key == some who

/-- The age limit of R374: pins and open transactions 2^30 epochs behind end. -/
def ageOut (s : State) : State :=
  let s := (List.range 8).foldl (fun s k =>
    if s.pinHeld k && decide (s.pinEpoch k + 2 ^ 30 ≤ s.img.epoch) then
      (s.markAged (64 + k) (some (s.pinHolder k))).releasePin k
    else s) s
  ((List.range 64).foldl (fun s t =>
    if s.imgSlot t == 1 && decide ((s.imgTxn t).begin + 2 ^ 30 ≤ s.img.epoch) then
      (s.markAged t (some (s.imgHolder t))).rollbackSlot t
    else s) s).showImg

/-- Every pin of an identity is released, and its OPEN transactions are rolled back if asked (R53, R393). -/
def endImgOf (s : State) (who : Ident) (txns : Bool) : State :=
  let s := (List.range 8).foldl (fun s k => if s.pinHeld k && s.pinHolder k == who then s.releasePin k else s) s
  ((List.range 64).foldl (fun s t =>
    if txns && s.imgSlot t == 1 && s.imgHolder t == who then s.rollbackSlot t else s) s).showImg

/-! ### Commands, one at a time (R374) -/

/-- BEGIN (R383); one of a recipe is refused in SAFE_HOLD (R51). -/
def runBegin (s : State) (who : Ident) (recipe : Bool) : State :=
  let b := imgBlock who
  if recipe && s.mode == Mode.safeHold then s.imgDone who Code.wrongState else
  match (List.range s.variant.imgSlots).find? fun t => s.imgSlot t == 0 with
  | some t =>
    let e := s.img.epoch
    let s := ((s.setImgTxn t { begin := e }).markAged t none).setReg (Reg.IMG_SLOT t)
      (BitVec.ofNat 32 (1 + 4 * bit recipe + 65536 * who.toNat))
    let s := s.addLease { type := 2, district := 0, index := t, holder := who }
    let s := ((s.setFld (Fld.IMG_RES_SLOT b) t).imgResEpoch who e).setReg (Reg.IMG_TXN_SEL b) (BitVec.ofNat 32 (64 + t))
    ((s.setEpoch (e + 1)).ageOut).imgDone who Code.ok
  | none =>
    if (List.range s.variant.imgSlots).any fun t => s.imgSlot t == 3 then s.imgDone who Code.busy
    else s.imgDone who Code.noResource

/-- ROLLBACK (R390). -/
def runRollback (s : State) (who : Ident) (t : Nat) : State :=
  let s := s.setFld (Fld.IMG_RES_SLOT (imgBlock who)) t
  let code := firstCode
    [(decide (s.variant.imgSlots ≤ t), Code.badArg),
      (s.isAged t who, Code.stale),
      (s.imgSlot t != 1 || (s.imgHolder t != who && !Ident.isSup who), Code.wrongState)]
  if code = Code.ok then (s.rollbackSlot t).imgDone who code else s.imgDone who code

/-- PIN (R392). -/
def runPin (s : State) (who : Ident) (first count : Nat) : State :=
  if s.variant.points < first + count then s.imgDone who Code.badArg
  else
    match (List.range 8).find? fun k => !s.pinHeld k with
    | some k =>
      let e := s.img.epoch
      let n := if count = 0 then s.variant.points else count
      let f := if count = 0 then 0 else first
      let s := (s.setImg { s.img with pins := Store.set (fun _ => 0) s.img.pins k e }).markAged (64 + k) none
      let s := (s.setReg (Reg.IMG_PIN_FIRST k) (BitVec.ofNat 32 (f + 2 ^ 31))).setReg (Reg.IMG_PIN_COUNT k)
        (BitVec.ofNat 32 n)
      let s := (s.setReg (Reg.IMG_PIN_EPOCH k) (BitVec.ofNat 32 e)).setReg (Reg.IMG_PIN_HOLDER k)
        (BitVec.ofNat 32 who.toNat)
      let s := (s.setFld (Fld.IMG_RES_PIN (imgBlock who)) k).imgResEpoch who e
      ((s.setEpoch (e + 1)).ageOut).imgDone who Code.ok
    | none => s.imgDone who Code.noResource

/-- UNPIN (R393). -/
def runUnpin (s : State) (who : Ident) (k : Nat) : State :=
  let s := s.setFld (Fld.IMG_RES_PIN (imgBlock who)) k
  if s.isAged (64 + k) who then s.imgDone who Code.stale
  else if !s.pinHeld k || (s.pinHolder k != who && !Ident.isSup who) then s.imgDone who Code.wrongState
  else ((s.releasePin k).showImg).imgDone who Code.ok

/-- A command but COMMIT is processed. -/
def runImgCmd (s : State) (who : Ident) : ImgCmd → State
  | .begin recipe => s.runBegin who recipe
  | .commit _ _ => s
  | .rollback t => s.runRollback who t
  | .pin first count => s.runPin who first count
  | .unpin k => s.runUnpin who k

/-- The next command may be processed: no COMMIT is in processing, and the last one started 64 FCLK cycles ago or
more (R374). -/
def cmdFree (s : State) : Bool := s.img.run.isNone && decide (s.img.nextCmd ≤ s.cycle)

/-- The command at the front is processed when it may be; a COMMIT waits for its processing. -/
def runCmds (s : State) : State :=
  match s.img.cmds with
  | [] => s
  | (_, .commit _ _) :: _ => s
  | (w, c) :: rest =>
    if s.cmdFree then (s.setImg { s.img with cmds := rest, nextCmd := s.cycle + 64 }).runImgCmd w c else s

/-- A command reaches the controller: it is processed at once unless another is before it. -/
def reachCmd (s : State) (who : Ident) (c : ImgCmd) : State :=
  (s.setImg { s.img with cmds := s.img.cmds ++ [(who, c)] }).runCmds

/-- A version is added to the write set of slot `t`, which TXN_SEL named (R384). -/
def addToSet (s : State) (who : Ident) (t p : Nat) (w : Write) : State :=
  let x := s.imgTxn t
  if s.imgSlot t ≠ 1 ∨ s.imgHolder t ≠ who then (s.imgErr who).count Fld.IMG_ERR_TXN_REFUSED
  else if (Store.get (fun _ => none) x.set p).isNone ∧ 65536 ≤ x.set.length then
    (s.count Fld.IMG_ERR_WSET_OVF).setFlag (Fld.IMG_SLOT_OVF t) true
  else s.setImgTxn t { x with set := Store.set (fun _ => none) x.set p (some w) }

/-! ### Requests behind a waiting write or a command (R381, R396) -/

/-- A request is tried; none when it must wait. -/
def tryReq (s : State) (who : Ident) : ImgReq → Option State
  | .write p w f => s.tryWrite p w f
  | .add t p w => some (s.addToSet who t p w)
  | .cmd c => some (s.reachCmd who c)

/-- A command of the identity is still to be processed or in processing. -/
def ownCmd (s : State) (who : Ident) : Bool :=
  s.img.run.any (fun r => r.who == who) || s.img.cmds.any fun c => c.1 == who

/-- A request of an identity: behind its own waiting requests and commands, else it is tried (R381). -/
def request (s : State) (who : Ident) (r : ImgReq) : State :=
  let wait := s.setImg { s.img with waiting := s.img.waiting ++ [{ who := who, req := r, since := s.cycle }] }
  if (s.img.waiting.any fun w => w.who == who) || s.ownCmd who then wait
  else
    match s.tryReq who r with
    | some s' => s'
    | none => wait

/-- The waiting requests are tried again, each identity's in order; `drop` names those that end unapplied. A
request that stood behind another begins its own wait. -/
def retry (drop : ImgWait → Bool) (s : State) (kept : List ImgWait) (seen : List Ident) : List ImgWait → State
  | [] => s.setImg { s.img with waiting := kept }
  | w :: rest =>
    if kept.any fun k => k.who == w.who then retry drop s (kept ++ [w]) seen rest
    else if s.ownCmd w.who then retry drop s (kept ++ [{ w with since := s.cycle }]) (w.who :: seen) rest
    else
      let behind := seen.contains w.who
      if !behind && drop w then
        retry drop ((s.count Fld.IMG_ERR_COW_DROP).imgErr w.who) kept (w.who :: seen) rest
      else
        match s.tryReq w.who w.req with
        | some s' => retry drop s' kept (w.who :: seen) rest
        | none => retry drop s (kept ++ [if behind then { w with since := s.cycle } else w]) (w.who :: seen) rest

/-- The lease of slot `t` is reclaimed (R390): OPEN is rolled back, APPLYING runs to its end first. -/
def reclaimSlot (s : State) (t : Nat) : State :=
  if s.imgSlot t = 1 then s.rollbackSlot t
  else
    match s.img.run with
    | some r => if r.slot = t then s.setImg { s.img with run := some { r with reclaimed := true } } else s
    | none => s

/-- Nothing of an identity waits. -/
def imgIdle (s : State) (who : Ident) : Bool := !(s.img.waiting.any fun w => w.who == who)

/-! ### Stores of an identity (R379, R384, R399) -/

/-- The version that the writer's STAGE gives a value. -/
def stagedWrite (s : State) (b v : Nat) : Write :=
  { ver := { value := v
             stamp := s.fld (Fld.IMG_STAGE_LO_STAMP b) + 2 ^ 32 * s.fld (Fld.IMG_STAGE_HI_STAMP b)
             quality := s.fld (Fld.IMG_STAGE_HI_QUALITY b)
             user := s.fld (Fld.IMG_STAGE_HI_USER b) }
    auto := s.flag (Fld.IMG_STAGE_HI_AUTO b) }

/-- FLOW and SEQ of a write or COMMIT that carries them. -/
def carriedFlow (s : State) (b : Nat) : Option (Nat × Nat) :=
  if s.flag (Fld.IMG_FLOWSEQ_FLOWV b) then some (s.fld (Fld.IMG_FLOWSEQ_FLOW b), s.fld (Fld.IMG_FLOWSEQ_SEQ b)) else none

/-- SEQ advances after a write or COMMIT that carries a flow. -/
def advanceSeq (s : State) (b : Nat) : State :=
  if s.flag (Fld.IMG_FLOWSEQ_FLOWV b) then s.countWrap (Fld.IMG_FLOWSEQ_SEQ b) else s

/-- A remote access can be carried: the chip is in the ring map and the controller owns a ring-scope slot. -/
def remoteOpen (s : State) (chip : Nat) : Bool := s.chipInMap chip && s.ownsSlot 9 true

/-- The IMAGE message of a request (log entry 37): SUB 0 a load, 1 a write, 2 a reply. -/
def imageMsg (s : State) (chip sub : Nat) (flow : Option (Nat × Nat)) (words : List Word) : Msg :=
  { dest := chip * 16 + 9, src := s.aveNode 9, type := 6, sub := sub, flowv := flow.isSome
    flow := (flow.getD (0, 0)).1, seq := (flow.getD (0, 0)).2, payload := words }

/-- A number as `n` words, low first. -/
def numWords (n v : Nat) : List Word := (List.range n).map fun i => BitVec.ofNat 32 (v / 2 ^ (32 * i))

/-- Words as a number, low first. -/
def wordsNum (ws : List Word) : Nat := ws.foldr (fun w n => w.toNat + 2 ^ 32 * n) 0

/-- A remote direct write leaves as an IMAGE message (R399). -/
def remoteWrite (s : State) (who : Ident) (p v : Nat) : State :=
  let b := imgBlock who
  let c := s.fld (Fld.IMG_VIEW_CHIP b)
  if s.remoteOpen c then
    let w := s.stagedWrite b v
    (s.queueMsg 9 (s.imageMsg c 1 (s.carriedFlow b)
      (BitVec.ofNat 32 p :: BitVec.ofNat 32 (who.toNat + 65536 * bit w.auto) ::
        numWords 4 (w.ver.value + 2 ^ 64 * w.ver.stamp + 2 ^ 112 * w.ver.quality + 2 ^ 120 * w.ver.user)))).advanceSeq b
  else s.imgErr who

/-- A store or BAR2 write of the form of R379. -/
def imgStore (s : State) (who : Ident) (p v : Nat) : State :=
  let b := imgBlock who
  if s.flag (Fld.IMG_VIEW_REMOTE b) && !Ident.isSup who then s.remoteWrite who p v
  else if s.variant.points ≤ p then s
  else if s.flag (Fld.IMG_TXN_SEL_SEL b) then
    s.request who (.add (s.fld (Fld.IMG_TXN_SEL_SLOT b)) p (s.stagedWrite b v))
  else (s.request who (.write p (s.stagedWrite b v) (s.carriedFlow b))).advanceSeq b

/-! ### Reading (R375, R376, R394) -/

/-- What a read takes: the version, SNAP_MISS, and the state with a free value drawn for a stamp that AUTO has yet
to give. -/
def readPoint (s : State) (who : Ident) (p : Nat) : Slotted × Bool × State :=
  let b := imgBlock who
  let t := s.fld (Fld.IMG_TXN_SEL_SLOT b)
  let x := s.point p
  let own := if s.flag (Fld.IMG_TXN_SEL_SEL b) && s.imgSlot t == 1 && s.imgHolder t == who then
      Store.get (fun _ => none) (s.imgTxn t).set p
    else none
  match own with
  | some w =>
    if w.auto then (.version { w.ver with stamp := s.drawn % 2 ^ 48 }, false, s.draw) else (.version w.ver, false, s)
  | none =>
    if s.flag (Fld.IMG_VIEW_SNAP b) then
      let k := s.fld (Fld.IMG_VIEW_PIN b)
      if s.pinCovers k p then
        if x.last ≤ s.pinEpoch k then (x.cur, false, s)
        else
          match s.cowOf k p with
          | some r => (r.old, false, s)
          | none => (x.prev, false, s)
      else (x.cur, true, s)
    else (x.cur, false, s)

/-- A read that took `x` of a point met its line's uncorrectable error (R378). -/
def sawLost (s : State) (p : Nat) (x : Slotted) : State :=
  if (s.point p).lost ∧ x = .lost then (s.count Fld.IMG_ERR_ECC).notify (.imageError p) else s

/-- The 16 bytes a local read returns, as a number; an engine's read also fills its latches (R376). -/
def imgRead (s : State) (who : Ident) (p : Nat) : Nat × State :=
  let r := s.readPoint who p
  let n := r.1.shown r.2.1
  let s1 := r.2.2.sawLost p r.1
  (n, if Ident.isEngine who then
        (List.range 4).foldl (fun s k => s.setReg (Reg.IMG_LATCH (imgBlock who) k) (BitVec.ofNat 32 (n / 2 ^ (32 * k)))) s1
      else s1)

/-- An identity's reads go to another chip (R399). -/
def readsRemote (s : State) (who : Ident) : Bool := s.flag (Fld.IMG_VIEW_REMOTE (imgBlock who)) && !Ident.isSup who

/-- A remote read's request leaves, carrying the reader, its offset and its size. -/
def askRemote (s : State) (who : Ident) (p off bytes : Nat) : State :=
  let c := s.fld (Fld.IMG_VIEW_CHIP (imgBlock who))
  s.queueMsg 9 (s.imageMsg c 0 none
    [BitVec.ofNat 32 p, BitVec.ofNat 32 (who.toNat + 65536 * off + 2 ^ 24 * bytes)])

/-! ### COMMIT (R385–R391) -/

/-- Digest of a COMMIT: over its write set in ascending points. -/
def commitDigest (s : State) (t : Nat) : Nat :=
  (s.imgTxn t).set.foldl (fun n p => match p.2 with
    | some w => crc32cBytes ((List.range 8).map fun i => (n + 2 ^ 32 * writeDigest p.1 w) / 256 ^ i % 256)
    | none => n) 0

/-- A COMMIT ends with a code; the commands behind it follow, and what its identity wrote after it. -/
def endCommit (s : State) (who : Ident) (code : Nat) : State :=
  let s := (s.setImg { s.img with run := none }).setFlag Fld.IMG_STAT_COMMITTING false
  let s := (s.imgDone who code).showImg
  let s := s.runCmds
  s.retry (fun _ => false) [] [] s.img.waiting

/-- A cycle of the controller: a command that waited for its turn is processed, and what its identity wrote after it
follows. -/
def imgCycle (s : State) : State :=
  if s.img.cmds.isEmpty || !s.cmdFree then s
  else
    let s1 := s.runCmds
    s1.retry (fun _ => false) [] [] s1.img.waiting

/-- The COMMIT leaves its slot OPEN, or rolled back when its lease is being reclaimed (R390). -/
def refuseCommit (s : State) (r : ImgRun) (code : Nat) : State :=
  (if r.reclaimed then s.rollbackSlot r.slot else s.setFld (Fld.IMG_SLOT_STATE r.slot) 1).endCommit r.who code

/-- The COMMIT conflicts and ends its transaction (R386). -/
def conflictCommit (s : State) (who : Ident) (t : Nat) : State :=
  ((s.rollbackSlot t).count Fld.IMG_TXN_CNT_CONFLICTS).endCommit who Code.conflict

/-- Checks 1–5 of R385 on the COMMIT at the front. -/
def checkCommit (s : State) : State :=
  match s.img.cmds with
  | (who, .commit t flow) :: rest =>
    let s := (s.setImg { s.img with cmds := rest, nextCmd := s.cycle + 64 }).setFld (Fld.IMG_RES_SLOT (imgBlock who)) t
    if s.variant.imgSlots ≤ t then s.endCommit who Code.badArg
    else if s.isAged t who then s.endCommit who Code.stale
    else if s.imgSlot t ≠ 1 ∨ s.imgHolder t ≠ who ∨
        (s.flag (Fld.IMG_SLOT_RECIPE t) ∧ s.mode = Mode.safeHold) then
      s.endCommit who Code.wrongState
    else
      let j := match flow with
        | some f => s.judge 1 f.1 f.2 (s.commitDigest t)
        | none => (true, s)
      if !j.1 then
        ((((j.2.count Fld.IMG_DUP_COUNT).rollbackSlot t).setFlag (Fld.IMG_RES_DUP (imgBlock who)) true).imgResEpoch
          who 0).endCommit who Code.ok
      else if s.flag (Fld.IMG_SLOT_OVF t) then s.endCommit who Code.noResource
      else if (s.imgTxn t).set.any fun p => decide ((s.imgTxn t).begin < (s.point p.1).last) then s.conflictCommit who t
      else
        let s := (s.setFld (Fld.IMG_SLOT_STATE t) 2).setFlag Fld.IMG_STAT_COMMITTING true
        (s.setImg { s.img with
          run := some { who := who, slot := t, flow := flow, since := s.cycle, hit := false } }).showImg
  | _ => s

/-- Records that the copies of a commit take. -/
def commitNeed (s : State) (t : Nat) : Nat :=
  ((s.imgTxn t).set.filter fun p => !(s.cowNeed p.1).isEmpty).length

/-- The commit point: E rises, and every version of the set becomes current with it (Table IMG-4). -/
def commitPoint (s : State) (r : ImgRun) : State :=
  let e := s.img.epoch + 1
  let s := match r.flow with
    | some f => (s.judge 1 f.1 f.2 (s.commitDigest r.slot)).2
    | none => s
  let set := (s.imgTxn r.slot).set
  let s := set.foldl (fun s p => s.cowCopy p.1) s
  let s := set.foldl (fun s p => match p.2 with
    | some w => s.putVersion p.1 (s.stamped w) (some r.slot) e
    | none => s) s
  let s := (s.setEpoch e).setFld (Fld.IMG_SLOT_STATE r.slot) 3
  let s := (s.dropLease 2 0 r.slot).count Fld.IMG_TXN_CNT_COMMITS
  ((s.imgResEpoch r.who e).ageOut).endCommit r.who Code.ok

/-- The COMMIT in processing goes on to its commit point, conflicts, or waits for records (R386, R388). -/
def finishCommit (s : State) : State :=
  match s.img.run with
  | some r =>
    if r.hit then s.conflictCommit r.who r.slot
    else if s.fld Fld.IMG_COW_STAT_FREE < s.commitNeed r.slot then s
    else s.commitPoint r
  | none => s

/-! ### Commands written to a block (R398) -/

/-- A command is written: executed only when DONE is 1, and no other was in this cycle. SEQ advances after a COMMIT
(R391). -/
def imgCommand (s : State) (who : Ident) (c : ImgCmd) : State :=
  let b := imgBlock who
  s.oneAtATime (Reg.IMG_RES b) (!s.flag (Fld.IMG_RES_DONE b)) (Fld.IMG_RES_LOST b) fun s =>
    let s1 := (s.imgPending b).request who (.cmd c)
    match c with
    | .commit _ _ => s1.advanceSeq b
    | _ => s1

/-- IMG_COW_WAIT in FCLK cycles. -/
def cowWait (s : State) : Nat := s.fld Fld.IMG_COW_WAIT_WAIT_US * 800

end State

/-- DIRECT_WRITE (R381): a store or BAR2 write with TXN_SEL.SEL = 0. -/
def execDirectWrite (who : Ident) (p v : Nat) (s : State) : Answer :=
  .next (s.served who fun s => (if s.flag (Fld.IMG_TXN_SEL_SEL (imgBlock who)) && !s.readsRemote who then s else s.imgStore who p (v % 2 ^ 64)))

/-- WRITE_SET_ADD (R384): a store or BAR2 write with TXN_SEL.SEL = 1. -/
def execWriteSetAdd (who : Ident) (p v : Nat) (s : State) : Answer :=
  .next (s.served who fun s => (if s.flag (Fld.IMG_TXN_SEL_SEL (imgBlock who)) && !s.readsRemote who && decide (p < s.variant.points) then
    s.imgStore who p (v % 2 ^ 64) else s))

/-- CLEAR_SWEEP_DONE (R377). -/
def execClearSweepDone (s : State) : Answer :=
  .next (s.live fun s => (if s.mode = Mode.boot then s else s.setFlag Fld.IMG_STAT_READY true))

/-- IMG_BEGIN (R383). -/
def execImgBegin (who : Ident) (recipe : Bool) (s : State) : Answer := .next (s.served who fun s => (s.imgCommand who (.begin recipe)))

/-- IMG_COMMIT (R385): the COMMIT waits for its processing. -/
def execImgCommit (who : Ident) (t : Nat) (s : State) : Answer :=
  .next (s.served who fun s => s.imgCommand who (.commit t (s.carriedFlow (imgBlock who))))

/-- COMMIT_PROCESSING (Table IMG-4): the checks, and the rest up to the commit point when `whole` is set. -/
def execCommitProcessing (whole : Bool) (s : State) : Answer :=
  .next (s.live fun s => (
    let s1 := if s.cmdFree then s.checkCommit else s
    if whole then s1.finishCommit else s1))

/-- SETTLE_COMPLETE (R385, R389): the slot is FREE. -/
def execSettleComplete (t : Nat) (s : State) : Answer :=
  .next (s.live fun s => (if s.imgSlot t = 3 then (s.settleTxn t).freeSlot t else s))

/-- IMG_ROLLBACK (R390). -/
def execImgRollback (who : Ident) (t : Nat) (s : State) : Answer := .next (s.served who fun s => (s.imgCommand who (.rollback t)))

/-- PIN (R392), with the range in ARG0 and ARG1. -/
def execPin (who : Ident) (s : State) : Answer :=
  .next (s.served who fun s => (
    let b := imgBlock who
    s.imgCommand who (.pin (s.fld (Fld.IMG_ARG0_FIRST b)) (s.fld (Fld.IMG_ARG1_COUNT b)))))

/-- UNPIN (R393). -/
def execUnpin (who : Ident) (k : Nat) (s : State) : Answer := .next (s.served who fun s => (s.imgCommand who (.unpin k)))

/-- COW_RECORDS_FREED (R393): the records of released pins are free, and what waits for them goes on. -/
def execCowRecordsFreed (s : State) : Answer :=
  .next (s.live fun s => (
    let s1 := (s.setFld Fld.IMG_COW_STAT_FREE (s.fld Fld.IMG_COW_STAT_FREE + s.img.freed)).setImg
      { s.img with freed := 0 }
    s1.retry (fun _ => false) [] [] s1.img.waiting))

/-- COW_WAIT_TIMEOUT (R388, R396): what has waited for records longer than WAIT_US ends. -/
def execCowWaitTimeout (s : State) : Answer :=
  .next (s.live fun s => (
    let due (since : Nat) : Bool := decide (since + s.cowWait ≤ s.cycle)
    let s1 := match s.img.run with
      | some r =>
        if !r.hit && due r.since && decide (s.fld Fld.IMG_COW_STAT_FREE < s.commitNeed r.slot) then
          s.refuseCommit r Code.noResource
        else s
      | none => s
    s1.retry (fun w => due w.since && (match w.req with | .write _ _ _ => true | .add _ _ _ | .cmd _ => false)) [] []
      s1.img.waiting))

end Sys2Proof.Machine
end

