-- ==== Sys2Proof/Machine/Mailbox.lean ====
section
/-!
DEFINITION. Mailbox channels, sends and doorbells (R464–R472), interrupts and frame-ring pointers of the host
interface (R451–R461).
-/

namespace Sys2Proof.Machine

/-- Identity block of an identity (R465): host functions 0–7, engines 16 + e, the supervisor 112. -/
def mbxBlock (who : Ident) : Nat :=
  if Ident.isHost who then Ident.src who else if Ident.isEngine who then 16 + Ident.engine who else 112

/-- Source byte of a block's identity. -/
def blockSrc (k : Nat) : Nat := if k < 16 then k else if k < 112 then k else 0xF0

/-- Every connection is lost, which the island records (R474, R500). -/
def Island.loseAll (i : Island) : Island :=
  let up := (List.range 16).any fun c => (Store.get (fun _ => ({} : Conn)) i.conns c).up
  let i := { i with
    conns := (List.range 16).foldl (fun st c =>
      Store.set (fun _ => {}) st c { Store.get (fun _ => ({} : Conn)) st c with up := false }) i.conns }
  if up then { i with lost := true, code := 0x23, detail := 0 } else i

namespace State

/-- Channel `c`. -/
def channel (s : State) (c : Nat) : Channel := Store.get (fun _ => {}) s.channels c

/-- Channel `c` replaced. -/
def setChannel (s : State) (c : Nat) (x : Channel) : State :=
  { s with channels := Store.set (fun _ => {}) s.channels c x }

/-- CFG_ERR of the MBX unit. -/
def mbxErr (s : State) : State := s.setFlag Fld.MBX_HOST_STAT_CFG_ERR true

/-! ### Doorbells (R472) -/

/-- A source byte names a receiver of this chip; the supervisor's boot stage is active in BOOT only (Table ARCH-7). -/
def hasReceiver (s : State) (src : Nat) : Bool :=
  decide (src < 8) || (decide (0x10 ≤ src ∧ src < 0x70) && s.hasEngine (src - 0x10)) || src == 0xF0 ||
    (src == 0xF1 && s.mode == Mode.boot) || (src == 0xF8 && s.variant.hasIsland)

/-- An identity may send: it is a host function, an engine of this chip or its supervisor, and no other is ever
stamped (R35). -/
def mayStamp (s : State) (who : Ident) : Bool :=
  Ident.listed who && Ident.chip who == s.chip &&
    (Ident.isHost who || (Ident.isEngine who && s.hasEngine (Ident.engine who)) || Ident.isSup who)

/-- A pending doorbell of a block is unmasked. -/
def bellDue (s : State) (k : Nat) : Bool := (s.reg (Reg.MBX_DB k) &&& ~~~(s.reg (Reg.MBX_DBMASK k))) != 0

/-- MBX_DBELL or DBf follows the change from no unmasked pending doorbell to one. -/
def bellChange (s : State) (k : Nat) (before : Bool) : State :=
  if !before && s.bellDue k then
    if k < 8 then s.raiseIrq (8 + k) else if 16 ≤ k ∧ k < 112 then s.fireEngine 0x1B 0 (k - 16) else s
  else s

/-- A doorbell bit of a receiver of this chip is rung; a pending one merges. -/
def ringLocal (s : State) (src b : Nat) : State :=
  if src = 0xF8 then
    s.through 5 fun s => { s with island := { s.island with doorbells := s.island.doorbells ||| (1#32 <<< b) } }
  else
    let k := mbxBlock (BitVec.ofNat 16 src)
    ((s.stampSet (Reg.MBX_DB k) (1#32 <<< b)).setReg (Reg.MBX_DB k)
      (s.reg (Reg.MBX_DB k) ||| (1#32 <<< b))).bellChange k (s.bellDue k)

/-- A target identity is present: on this chip, or on another of the ring that the supervisor's ring-scope slots
reach (R101). -/
def targetPresent (s : State) (t : Ident) : Bool :=
  t.toNat / 256 % 32 == 0 &&
    (if Ident.chip t = s.chip then s.hasReceiver (Ident.src t)
     else decide (Ident.src t < 8 ∨ (0x10 ≤ Ident.src t ∧ Ident.src t < 0x70) ∨ Ident.src t = 0xF0 ∨
        Ident.src t = 0xF8) && s.chipInMap (Ident.chip t) && s.ownsSlot 10 true)

/-- A MAILBOX message of this chip's supervisor node (log entry 45): SUB 0 a send, 1 its outcome, 2 a ring. -/
def mailMsg (s : State) (chip sub : Nat) (flow : Option (Nat × Nat)) (words : List Word) : Msg :=
  { dest := chip * 16 + 10, src := s.aveNode 10, type := 7, sub := sub, flowv := flow.isSome
    flow := (flow.getD (0, 0)).1, seq := (flow.getD (0, 0)).2, payload := words }

/-- A doorbell bit of a present target is rung, here or on its chip. -/
def ring (s : State) (t : Ident) (b : Nat) : State :=
  if Ident.chip t = s.chip then s.ringLocal (Ident.src t) b
  else s.queueMsg 10 (s.mailMsg (Ident.chip t) 2 none [BitVec.ofNat 32 (t.toNat + 65536 * b)])

/-! ### Ends of sends (R467–R470) -/

/-- The outcome of an island's send slot (R475, R476). -/
def islandOutcome (s : State) (slot code : Nat) : State :=
  let c : Conn := Store.get (fun _ => {}) s.island.conns slot
  { s with island := { s.island with
    conns := Store.set (fun _ => {}) s.island.conns slot { c with pending := false, result := code } } }

/-- The final result of a sender: in its block, in the island's slot, or to its chip. -/
def finishSend (s : State) (src : Ident) (slot code : Nat) (dup : Bool) : State :=
  if Ident.chip src ≠ s.chip then
    s.queueMsg 10 (s.mailMsg (Ident.chip src) 1 none
      [BitVec.ofNat 32 (src.toNat + 65536 * bit dup), BitVec.ofNat 32 code])
  else if Ident.isIsland src then (s.islandOutcome slot code).countCode src code
  else
    let k := mbxBlock src
    (((s.setFld (Fld.MBX_SEND_RES_RESULT k) code).setFlag (Fld.MBX_SEND_RES_DONE k) true).setFlag
      (Fld.MBX_SEND_RES_DUP k) dup).countCode src code

/-- What a channel, or its queue, held when it ended in this cycle; an acknowledgement of the cycle comes before
(R471). -/
def noteEnded (s : State) (c : Nat) (x : Channel) : State :=
  { s with now := { s.now with ended := (c, x) :: s.now.ended } }

/-- A message of channel `c` that a send of this cycle has queued. -/
def sentNow (s : State) (c : Nat) (m : MbxMsg) : Option SentNow :=
  s.now.sent.find? fun x => x.channel == c && x.src == m.src && x.slot == m.slot

/-- A channel becomes FREE and its lease ends: its messages end REVOKED, and a send of this cycle comes after and
meets WRONG_STATE (R466, R471). -/
def freeChannel (s : State) (c : Nat) : State :=
  let x := s.channel c
  let s := ((s.setChannel c {}).dropLease 6 0 c).noteEnded c x
  let s := if x.holder.any (fun h => Ident.isIsland h) && decide (c < 62) then { s with island := s.island.loseAll } else s
  x.queue.foldl (fun s m =>
    s.finishSend m.src m.slot (if (s.sentNow c m).isSome then Code.wrongState else Code.revoked) false) s

/-! ### Sending (R467, R468) -/

/-- The island shows program-enable in its mirror. -/
def programEnable (s : State) : Bool := s.flag Fld.SAFE_STAT_PE

/-- The refusal of a send to a channel of this chip, or OK. -/
def sendCode (s : State) (who : Ident) (c : Nat) : Nat :=
  let x := s.channel c
  let open' := x.holder.isSome
  let island := x.holder.any fun h => Ident.isIsland h
  firstCode
    [(open' && !(x.any || x.allow == who), Code.authFail),
      (island && x.any && !Ident.isHost who, Code.authFail),
      (!open' || (island && Ident.isHost who && !(s.mode == Mode.commission && s.programEnable)), Code.wrongState),
      (decide (x.depth ≤ x.queue.length), Code.busy)]

/-- CRC-32C over a message's bytes (R427). -/
def mailDigest (bs : List Byte) : Nat := crc32cBytes (bs.map (·.toNat))

/-- Order of the senders, and of those who open a channel, within a cycle (R471). -/
def sendRank (who : Ident) : Nat :=
  if Ident.isSup who then 0
  else if Ident.isHost who then 1 + Ident.src who
  else if Ident.isEngine who then 16 + Ident.engine who
  else 200

/-- A message of this cycle gives its place in a full channel up to a sender before it, and ends BUSY (R471). -/
def givePlace (s : State) (who : Ident) (c : Nat) : State :=
  let x := s.channel c
  let later := x.queue.filter fun m => (s.sentNow c m).isSome && decide (sendRank who < sendRank m.src)
  match later.getLast? with
  | some m =>
    let s1 := s.setChannel c { x with queue := x.queue.erase m }
    let s2 := match s.sentNow c m with
      | some ⟨_, _, _, some f, ctx⟩ => s1.setFlowCtx 2 f ctx
      | _ => s1
    s2.finishSend m.src m.slot Code.busy false
  | none => s

/-- A message reaches its channel: refused, with a WRONG_STATE counted (R66), discarded as a duplicate, or queued with
its doorbell rung. Answers the code and whether it was a duplicate. -/
def arrive (s : State) (who : Ident) (slot c : Nat) (bs : List Byte) (flow : Option (Nat × Nat)) : Nat × Bool × State :=
  let s := if s.sendCode who c = Code.busy then s.givePlace who c else s
  let code := s.sendCode who c
  if code ≠ Code.ok then (code, false, s.countCode who code)
  else
    let j := match flow with
      | some f => s.judgeCounted 2 f.1 f.2 (mailDigest bs)
      | none => (true, s)
    if !j.1 then (Code.ok, true, j.2)
    else
      let x := j.2.channel c
      let sent : SentNow :=
        { channel := c, src := who, slot := slot, flow := flow.map (·.1), ctx := flow.bind fun f => s.flowCtx 2 f.1 }
      let s := j.2.setChannel c { x with queue := x.queue ++ [{ src := who, slot := slot, data := bs }] }
      let s := { s with now := { s.now with sent := sent :: s.now.sent } }
      (Code.pending, false,
        match x.holder with
        | some h => s.ringLocal (Ident.src h) x.dbit
        | none => s)

/-- Words of a byte string, four bytes a word. -/
def bytesWords (bs : List Byte) : List Word :=
  (List.range ((bs.length + 3) / 4)).map fun i => BitVec.ofNat 32
    ((List.range 4).foldl (fun v j => v + ((bs[4 * i + j]?).getD 0).toNat * 256 ^ j) 0)

/-- Bytes of MBX_SDATA of a block. -/
def sdata (s : State) (k n : Nat) : List Byte :=
  (List.range n).map fun i => (s.reg (Reg.MBX_SDATA k (i / 4))).extractLsb' (8 * (i % 4)) 8

/-- FLOW and SEQ that a block's send carries. -/
def sendFlow (s : State) (k : Nat) : Option (Nat × Nat) :=
  if s.flag (Fld.MBX_SFLOW_FLOWV k) then some (s.fld (Fld.MBX_SFLOW_FLOW k), s.fld (Fld.MBX_SFLOW_SEQ k)) else none

/-- RESULT of a send that has left its block. -/
def showSend (s : State) (who : Ident) (code : Nat) (dup : Bool) : State :=
  let k := mbxBlock who
  let s1 := (s.setFld (Fld.MBX_SEND_RES_RESULT k) code).setFlag (Fld.MBX_SEND_RES_DONE k) (code != Code.pending)
  s1.setFlag (Fld.MBX_SEND_RES_DUP k) dup

/-- A write of MBX_SEND. -/
def send (s : State) (who : Ident) (c len : Nat) (remote : Option Nat) : State :=
  let k := mbxBlock who
  if 256 < len then s.mbxErr
  else s.oneAtATime (Reg.MBX_SEND k) (s.fld (Fld.MBX_SEND_RES_DONE k) == 0) (Fld.MBX_SEND_RES_LOST k) fun s =>
    let flow := s.sendFlow k
    let bs := s.sdata k len
    let s := if flow.isSome then s.countWrap (Fld.MBX_SFLOW_SEQ k) else s
    match remote with
    | some chip =>
      if !s.variant.hasWilern || !s.chipInMap chip then s.showSend who Code.absent false
      else
        (s.queueMsg 10 (s.mailMsg chip 0 flow
          (BitVec.ofNat 32 (who.toNat + 65536 * c) :: BitVec.ofNat 32 len :: bytesWords bs))).showSend who Code.pending false
    | none =>
      let r := s.arrive who 0 c bs flow
      r.2.2.showSend who r.1 r.2.1

/-! ### Commands (R466) -/

/-- Outcome of MBX_CMD. -/
def mbxResult (s : State) (who : Ident) (code : Nat) : State :=
  ((s.setFld (Fld.MBX_CMD_RES_RESULT (mbxBlock who)) code).setFlag (Fld.MBX_CMD_RES_DONE (mbxBlock who)) true).countCode who code

/-- A command of an identity that has a block (R465) is executed only when DONE is 1. -/
def mbxCommand (s : State) (who : Ident) (f : State → State) : State :=
  let k := mbxBlock who
  if s.mayStamp who then
    s.oneAtATime (Reg.MBX_CMD k) (!s.flag (Fld.MBX_CMD_RES_DONE k)) (Fld.MBX_CMD_RES_LOST k) f
  else s

/-- A holder takes a FREE channel. -/
def takeChannel (s : State) (who : Ident) (c depth dbit : Nat) (any : Bool) (allow : Ident) : State :=
  ({ s with now := { s.now with opened := (c, who) :: s.now.opened } }.setChannel c { holder := some who, depth := depth, dbit := dbit, any := any, allow := allow, queue := [] }).addLease
    { type := 6, district := 0, index := c, holder := who }

/-- The end of a channel, or of its oldest message, in this cycle, that an acknowledgement of its holder comes before
(R471). -/
def endedFor (s : State) (who : Ident) (c : Nat) : Option (Nat × Channel) :=
  s.now.ended.find? fun x => x.1 == c && x.2.holder == some who && !x.2.queue.isEmpty

/-- The holder's acknowledgement (R469). -/
def ackChannel (s : State) (who : Ident) (c code : Nat) : State :=
  let q := s.endedFor who c
  let x := (q.map (·.2)).getD (s.channel c)
  match x.queue with
  | m :: rest =>
    if x.holder = some who ∧ code ≠ Code.pending then
      (match q with
        | some y => { s with now := { s.now with ended := s.now.ended.erase y } }
        | none => s.setChannel c { x with queue := rest }).finishSend m.src m.slot code false
    else s.mbxErr
  | [] => s.mbxErr

/-- Messages of a sender removed from every queue. -/
def dropMessages (s : State) (src : Ident) : State :=
  (List.range 64).foldl (fun s c =>
    let x := s.channel c
    let s := match x.queue with
      | m :: _ => if m.src = src then s.noteEnded c { x with queue := [m] } else s
      | [] => s
    s.setChannel c { x with queue := x.queue.filter fun m => m.src != src }) s

/-- OPEN (R466): of the OPENs of one cycle, the first in order succeeds and the others are BUSY (R471). -/
def openChannel (s : State) (who : Ident) (c depth dbit : Nat) (any : Bool) (allow : Ident) : State :=
  let take (s : State) : State := (s.takeChannel who c depth dbit any allow).mbxResult who Code.ok
  match (s.channel c).holder with
  | none => take s
  | some h =>
    if s.now.opened.contains (c, h) ∧ sendRank who < sendRank h then take ((s.freeChannel c).mbxResult h Code.busy)
    else s.mbxResult who Code.busy

/-! ### Frame rings (R459–R461) -/

/-- Owner of the frame rings. -/
def ringOwner (s : State) (who : Ident) : Bool := Ident.isHost who && Ident.src who == s.fld Fld.MBX_HOST_CFG_HRING_FN

end State

/-- OPEN (R466). -/
def execOpen (who : Ident) (c depth dbit : Nat) (any : Bool) (allow : Ident) (s : State) : Answer :=
  .next (s.served who fun s => (s.mbxCommand who fun s =>
    s.openChannel who (c % 64) (depth % 4 + 1) (dbit % 32) any allow))

/-- CLOSE (R466). -/
def execClose (who : Ident) (c : Nat) (s : State) : Answer :=
  .next (s.served who fun s => (s.mbxCommand who fun s =>
    if (s.channel (c % 64)).holder = some who then (s.freeChannel (c % 64)).mbxResult who Code.ok
    else s.mbxResult who Code.wrongState))

/-- REVOKE (R466). -/
def execRevoke (who : Ident) (c : Nat) (s : State) : Answer :=
  .next (s.served who fun s => (s.mbxCommand who fun s =>
    if !Ident.isSup who then s.mbxResult who Code.authFail
    else if (s.channel (c % 64)).holder.isNone then s.mbxResult who Code.wrongState
    else (s.freeChannel (c % 64)).mbxResult who Code.ok))

/-- SEND (R467): `remote` names the chip of a REMOTE send. -/
def execSend (who : Ident) (c len : Nat) (remote : Option Nat) (s : State) : Answer :=
  .next (s.served who fun s => (if s.mayStamp who then s.send who (c % 64) len remote else s))

/-- ACK (R469). -/
def execAck (who : Ident) (c : Nat) (code : BitVec 16) (s : State) : Answer :=
  .next (s.served who fun s => (s.ackChannel who (c % 64) code.toNat))

/-- MBX_ABORT (R470). -/
def execMbxAbort (who : Ident) (k : Nat) (s : State) : Answer :=
  .next (s.served who fun s => (
    if !Ident.isSup who then s.mbxErr
    else if !decide (k < 8 ∨ (16 ≤ k ∧ k ≤ 112)) then s.mbxErr
    else if s.fld (Fld.MBX_SEND_RES_DONE k) = 0 then
      let src := s.ident (blockSrc k)
      (s.dropMessages src).finishSend src 0 Code.revoked false
    else s))

/-- MBX_RING (R472). -/
def execMbxRing (who t : Ident) (b : Nat) (s : State) : Answer :=
  .next (s.served who fun s => (if (Ident.isHost who || Ident.isSup who) && s.targetPresent t then s.ring t (b % 32) else s.mbxErr))

/-- MBX_DBMASK (R472). -/
def execMbxDbmask (who : Ident) (v : Word) (s : State) : Answer :=
  .next (s.served who fun s => (
    let k := mbxBlock who
    (s.setReg (Reg.MBX_DBMASK k) v).bellChange k (s.bellDue k)))

/-- MBX_SUP_NOTE (R457). -/
def execMbxSupNote (who : Ident) (v : Word) (s : State) : Answer :=
  .next (s.served who fun s => (
    if Ident.isSup who then (s.setReg Reg.MBX_SUP_NOTE v).raiseIrq 4
    else if Ident.isEngine who then s.refuseStore who Reg.MBX_SUP_NOTE
    else s.mbxErr))

/-- MBX_HRX_HEAD (R459). -/
def execMbxHrxHead (who : Ident) (v : Word) (s : State) : Answer :=
  .next (s.served who fun s => (
    let head := s.fld Fld.MBX_HRX_HEAD_HEAD
    let out := (s.fld Fld.MBX_HRX_TAIL_TAIL + 2048 - head) % 2048
    if s.ringOwner who && decide ((fieldGet v 0 11 + 2048 - head) % 2048 ≤ out) then
      s.setFld Fld.MBX_HRX_HEAD_HEAD (fieldGet v 0 11)
    else s.mbxErr))

/-- MBX_HTX_TAIL (R461). -/
def execMbxHtxTail (who : Ident) (v : Word) (s : State) : Answer :=
  .next (s.served who fun s => (
    let tail := s.fld Fld.MBX_HTX_TAIL_TAIL
    let out := (tail + 2048 - s.fld Fld.MBX_HTX_HEAD_HEAD) % 2048
    if s.ringOwner who && decide ((fieldGet v 0 11 + 2048 - tail) % 2048 ≤ 2047 - out) then
      s.setFld Fld.MBX_HTX_TAIL_TAIL (fieldGet v 0 11)
    else s.mbxErr))

/-- MBX_HOST_CFG (R451): a reserved NFN discards the write; outside LOAD a change of NFN is ignored and counted; a
change of HRING_EN returns the pointers to 0. -/
def execMbxHostCfg (who : Ident) (v : Word) (s : State) : Answer :=
  .next (s.served who fun s => (
    if fieldGet v 0 3 = 0 then s.mbxErr
    else
      let load := s.mode == Mode.load
      let old := s.fld Fld.MBX_HOST_CFG_NFN
      let s1 := if load then s.setFld Fld.MBX_HOST_CFG_NFN (fieldGet v 0 3)
        else if fieldGet v 0 3 = old then s else s.wrongState who
      let s2 := s1.setFld Fld.MBX_HOST_CFG_HRING_FN (fieldGet v 8 3)
      if s2.fld Fld.MBX_HOST_CFG_HRING_EN = fieldGet v 11 1 then s2
      else
        ((((s2.setFld Fld.MBX_HOST_CFG_HRING_EN (fieldGet v 11 1)).setReg Reg.MBX_HRX_TAIL 0).setReg
          Reg.MBX_HRX_HEAD 0).setReg Reg.MBX_HTX_HEAD 0).setReg Reg.MBX_HTX_TAIL 0))

end Sys2Proof.Machine
end

