-- ==== Sys2Proof/Machine/Reclaim.lean ====
section
/-!
DEFINITION. Leases given and taken: explicit leases of engines (R147, R148) and the reclaim of every kind
(Table RED-5), and what a reset of a host function or the stop of an engine ends with it.
-/

namespace Sys2Proof.Machine

namespace State

/-! ### Configuration transactions -/

/-- The shadow is discarded and the lease released (R74). -/
def rollbackTxn (s : State) (u : TxnUnit) : State :=
  let s1 := (s.clearShadow u).closeTxn u
  if u = .xing then (s1.setXing { s1.xing with shadow := [] }).setFlag Fld.XING_STAT_SHADOW_OVF false else s1

/-! ### Explicit leases -/

/-- LOCK region `r` shows its holder (Table RND-3). -/
def showLock (s : State) (d r : Nat) (who : Option Ident) : State :=
  s.setReg (Reg.RND_LOCK_HOLD d r)
    (match who with | some w => BitVec.ofNat 32 (w.toNat + 2 ^ 16) | none => 0)

/-- Checkpoint area `i` belongs to district `d`, and engine `e` may lease it: the engine in the slot, or its spare
while the pair is RESTORING (R437). -/
def mayCheckpoint (s : State) (d i e : Nat) : Bool :=
  let p := i / 2
  let m := s.pairSlot p (i % 2)
  decide (e / 12 = d) &&
    (m.engine == some e || (m.spare == some e && s.fld (Fld.RED_PSTAT_STATE p) == 3 && m.joinBy.isSome))

/-- The index of an explicit lease is in range (R148, R152, R164, R437). -/
def leaseRange (s : State) (type d i : Nat) : Bool :=
  if type = 3 then decide (i < 64) && s.fld (Fld.RND_LOCK_SIZE d i) != 0
  else if type = 5 then
    decide (i < 2 * s.variant.pairs) && s.fld (Fld.RED_PSTAT_STATE (i / 2)) != 0 &&
      ((s.pairSlot (i / 2) (i % 2)).engine.any fun e => e / 12 == d)
  else decide (16 ≤ i ∧ i < 48) && s.sliceOwner d i == 31

/-- Type, district and index of a handle (R147). -/
def handleParts (h : Nat) : Nat × Nat × Nat := (h / 2 ^ 28 % 16, h / 2 ^ 24 % 16, h % 2 ^ 24)

/-- Explicit leases an engine holds (CE_LEASE_STAT.HELD). -/
def explicitHeld (s : State) (e : Nat) : Nat :=
  (s.leases.filter fun l => (l.type == 3 || l.type == 5 || l.type == 7) && l.holder == s.ident (0x10 + e)).length

/-- CE_LEASE_STAT.HELD follows the leases. -/
def showHeld (s : State) (e : Nat) : State := s.setFld (Fld.CE_LEASE_STAT_HELD e) (s.explicitHeld e)

/-- The outcome of LEASE by engine `e` (Table EVT-18). -/
def leaseCode (s : State) (e h : Nat) : Nat :=
  let p := handleParts h
  let held := s.leaseOf p.1 p.2.1 p.2.2
  let mine := held.any fun l => l.holder == s.ident (0x10 + e)
  let type := p.1 == 3 || p.1 == 5 || p.1 == 7
  firstCode
    [(!type || !s.leaseRange p.1 p.2.1 p.2.2, Code.badArg),
      (mine, Code.wrongState),
      (held.isSome || (p.1 == 5 && !s.mayCheckpoint p.2.1 p.2.2 e), Code.busy),
      (decide (16 ≤ s.explicitHeld e), Code.noResource)]

/-- LEASE is served: the code, and the state with a lease granted. -/
def takeLease (s : State) (e h : Nat) : Nat × State :=
  let p := handleParts h
  let code := s.leaseCode e h
  if code = Code.ok then
    let who := s.ident (0x10 + e)
    let s1 := s.addLease { type := p.1, district := p.2.1, index := p.2.2, holder := who }
    (code, (if p.1 = 3 then s1.showLock p.2.1 p.2.2 (some who) else s1).showHeld e)
  else (code, s)

/-- RELEASE is served (Table EVT-18). -/
def giveLease (s : State) (e h : Nat) : Nat × State :=
  let p := handleParts h
  let type := p.1 == 3 || p.1 == 5 || p.1 == 7
  let mine := (s.leaseOf p.1 p.2.1 p.2.2).any fun l => l.holder == s.ident (0x10 + e)
  let code := firstCode [(!type || !s.leaseRange p.1 p.2.1 p.2.2, Code.badArg), (!mine, Code.wrongState)]
  if code = Code.ok then
    let s1 := s.dropLease p.1 p.2.1 p.2.2
    (code, (if p.1 = 3 then s1.showLock p.2.1 p.2.2 none else s1).showHeld e)
  else (code, s)

/-! ### Reclaim (Table RED-5) -/

/-- A cell lease is reclaimed (R217): its handle is stale, its holder's descriptors hold nothing more, and with its
frame's last reference its cells wait for the Lamplighter, marked. -/
def reclaimCell (s : State) (l : Lease) : State :=
  let s1 := { s with leases := s.leases.filter (· ≠ l) }
  let s1 := s1.setXing { s1.xing with stale := (l.index, l.holder) :: s1.xing.stale.filter (· != (l.index, l.holder)) }
  match s1.frameOfCell l.index with
  | some f =>
    match s1.frame f with
    | some x =>
      ((s1.markHanded (Ident.engine l.holder / 12) l.index).setFrame f
        (some { x with leases := x.leases - 1, reclaimed := true })).settleFrame f
    | none => s1
  | none => s1

/-- The resource of a lease is free again, its unit's state as Table RED-5 says. -/
def reclaimEffect (s : State) (l : Lease) : State :=
  if l.type = 1 then s.reclaimCell l
  else if l.type = 2 then s.reclaimSlot l.index
  else if l.type = 3 then (s.dropLease 3 l.district l.index).showLock l.district l.index none
  else if l.type = 4 then s.reclaimRx l.index l.holder
  else if l.type = 5 then s.dropLease 5 l.district l.index
  else if l.type = 6 then s.freeChannel l.index
  else if l.type = 7 then
    let s1 := s.dropLease 7 l.district l.index
    let st := Ident.engine l.holder % 12 + 1
    if Ident.isEngine l.holder then
      s1.setDist l.district { s1.dist l.district with
        pendW := Store.erase (s1.dist l.district).pendW (st * 64 + l.index)
        takenW := Store.erase (s1.dist l.district).takenW (st * 64 + l.index) }
    else s1
  else
    let u := txnOfLease l.district l.index
    if s.txnState u = 1 then s.rollbackTxn u else s

/-- A lease is reclaimed by the supervisor; an engine that held it is told (R149). -/
def reclaim (s : State) (l : Lease) : State :=
  let s1 := s.reclaimEffect l
  if Ident.isEngine l.holder ∧ Ident.chip l.holder = s.chip then
    ((s1.recordReclaim (Ident.engine l.holder) l.handle)).showHeld (Ident.engine l.holder)
  else s1

/-- Every lease of an identity is reclaimed. -/
def reclaimAll (s : State) (who : Ident) : State :=
  (s.leases.filter fun l => l.holder == who).foldl (fun s l => s.reclaim l) s

/-! ### The stop of an engine, and resets of host functions -/

/-- CE_CTRL.RUN from 1 to 0: the engine stops, its leases are reclaimed and its pins and doorbells end (R146, R393,
R472); its station discards its pending writes (R166). -/
def holdEngine (s : State) (e : Nat) : State :=
  let who := s.ident (0x10 + e)
  let s1 := (((s.setFlag (Fld.CE_CTRL_RUN e) false).stopEngine e).clearStation (e / 12) (e % 12 + 1)).reclaimAll who
  ((s1.endImgOf who false).setReg (Reg.MBX_DB (16 + e)) 0).setReg (Reg.MBX_DBMASK (16 + e)) 0xFFFFFFFF

/-- CE_CTRL.RUN from 0 to 1 (R146). -/
def runEngine (s : State) (e : Nat) : State := (s.setFlag (Fld.CE_CTRL_RUN e) true).startEngine e

/-- A write of CE_CTRL or CE_WDOG by an identity that may make it (Table EVT-14). -/
def runControl (s : State) (who : Ident) (e : Nat) (f : State → State) : State :=
  if !s.hasEngine e then s.absentHit (Reg.CE_CTRL e) true
  else if Ident.isEngine who then s.refuseStore who (Reg.CE_CTRL e)
  else if Ident.isSup who ∨ s.mode = Mode.load then f s
  else s.wrongState who

/-- A function-level reset of host function `f` (R53, R390, R393, R454): its transactions, pins, leases, pending
interrupt messages and doorbells end. -/
def resetFunction (s : State) (f : Nat) : State :=
  let who := s.ident f
  let s := (s.endImgOf who true).reclaimAll who
  let s := { s with msixPba := s.msixPba.filter (fun p => p.1 / 64 != f)
                    hostReads := s.hostReads.filter fun r => r.who != who }
  (s.setReg (Reg.MBX_DB f) 0).setReg (Reg.MBX_DBMASK f) 0xFFFFFFFF

/-- A host-interface reset: functions 0–6 are reset at once (R454). -/
def resetFunctions (s : State) : State := (List.range 7).foldl (fun s f => s.resetFunction f) s

/-- PERST_N or a hot reset: NFN takes effect besides (R451). -/
def resetHost (s : State) : State := { s with nfn := s.fld Fld.MBX_HOST_CFG_NFN }.resetFunctions

end State

/-- FUNCTION_LEVEL_RESET (R454). -/
def execFunctionLevelReset (f : Nat) (s : State) : Answer := .next (s.live fun s => (if f < 7 then s.resetFunction f else s))

/-- PERST_N (R454). -/
def execPerstN (s : State) : Answer := .next (s.live fun s => s.resetHost)

/-- HOT_RESET (R454). -/
def execHotReset (s : State) : Answer := .next (s.live fun s => s.resetHost)

/-- ENGINE_START: CE_CTRL.RUN from 0 to 1 (R146), by the supervisor in any mode and a host in LOAD (R145). -/
def execEngineStart (who : Ident) (e : Nat) (s : State) : Answer :=
  .next (s.served who fun s => (s.runControl who e fun s => if s.flag (Fld.CE_CTRL_RUN e) then s else s.runEngine e))

/-- ENGINE_HOLD_RESET: CE_CTRL.RUN from 1 to 0 (R146). -/
def execEngineHoldReset (who : Ident) (e : Nat) (s : State) : Answer :=
  .next (s.served who fun s => (s.runControl who e fun s => if s.flag (Fld.CE_CTRL_RUN e) then s.holdEngine e else s))

end Sys2Proof.Machine
end

