-- ==== Sys2Proof/Machine/Packages.lean ====
section
/-!
DEFINITION. Images and their authentication (R58–R61), manifests and program descriptors (R326–R328), and the
package commands (R329–R333).
-/

namespace Sys2Proof.Machine

/-! ### Image headers (Table MODE-10) -/

/-- `n` bytes of an image from an offset, least significant first; bytes past its end read 0. -/
def imgAt (b : List Byte) (o : Nat) : Nat → Nat
  | 0 => 0
  | n + 1 => ((b[o]?).getD 0).toNat + 256 * imgAt b (o + 1) n

/-- Fields of the header. -/
def imgType (b : List Byte) : Nat := imgAt b 6 1
def keySlot (b : List Byte) : Nat := imgAt b 7 1
def imgLen (b : List Byte) : Nat := imgAt b 8 4
def imgVersion (b : List Byte) : Nat := imgAt b 0xC 4
def imgEntry (b : List Byte) : Nat := imgAt b 0x10 4

/-- Greatest IMG_LEN of a TYPE; 0 for a reserved one. -/
def maxLen (t : Nat) : Nat := if t = 1 ∨ t = 3 then 0x100000 else if t = 2 then 0x20040 else 0

/-- Bytes of an image's payload. -/
def payload (b : List Byte) : List Byte := (b.drop 0x100).take (imgLen b)

/-- Every header field lies in its range, and the zero ranges are 0 (R59 item 1). -/
def headerOk (b : List Byte) : Bool :=
  decide (keySlot b ≤ 3 ∧ imgVersion b ≤ 63 ∧ 0 < imgLen b ∧ imgLen b % 64 = 0 ∧ imgLen b ≤ maxLen (imgType b) ∧
    imgEntry b < imgLen b) && imgAt b 0x14 12 == 0 && imgAt b 0x81 31 == 0

/-! ### Payload layouts (R326–R328) -/

/-- A program descriptor: ILEN and DLEN in order. -/
def programOk (b : List Byte) : Bool :=
  let i := imgAt b 0x100 4
  let d := imgAt b 0x104 4
  decide (i % 64 = 0 ∧ d % 64 = 0 ∧ i ≤ 65536 ∧ d ≤ 65536 ∧ 64 ≤ i ∧ 64 + i + d = imgLen b) && imgAt b 0x108 56 == 0

/-- Offset of role entry r and of section entry k in the image. -/
def roleAt (r : Nat) : Nat := 0x110 + 16 * r
def sectAt (k : Nat) : Nat := 0x150 + 16 * k

/-- Role entries and section entries. -/
def roles (b : List Byte) : Nat := imgAt b 0x102 1
def sects (b : List Byte) : Nat := imgAt b 0x103 1

/-- A role entry within Table PKG-2. -/
def roleOk (b : List Byte) (r : Nat) : Bool :=
  let o := roleAt r
  decide (1 ≤ imgAt b o 1 ∧ imgAt b o 1 ≤ 4 ∧ 1 ≤ imgAt b (o + 1) 1 ∧ imgAt b (o + 1) 1 ≤ 12 ∧
    imgAt b (o + 2) 1 < 64 ∧ imgAt b (o + 3) 1 < 8) && imgAt b (o + 0xB) 5 == 0

/-- Section k of the instance is one of a role: bit r − 1 of ROLE_MASK. -/
def sectOf (b : List Byte) (code k : Nat) : Bool := (imgAt b (sectAt k + 12) 1).testBit (code - 1)

/-- A section entry within R327, its images inside the payload. -/
def sectOk (b : List Byte) (k : Nat) : Bool :=
  let o := sectAt k
  let i := imgAt b (o + 4) 4
  let d := imgAt b (o + 8) 4
  decide (i % 64 = 0 ∧ d % 64 = 0 ∧ i ≤ 65536 ∧ d ≤ 65536 ∧ imgAt b o 4 + i + d ≤ imgLen b ∧
    imgAt b (o + 13) 1 ≤ 11) && imgAt b (o + 14) 2 == 0

/-- Sections of a role that take an INDEX. -/
def takers (b : List Byte) (code i : Nat) : List Nat :=
  (List.range (sects b)).filter fun k => sectOf b code k && imgAt b (sectAt k + 13) 1 == i

/-- Every INDEX below ENGINES is taken once, and none above it. -/
def takersOk (b : List Byte) (r : Nat) : Bool :=
  let code := imgAt b (roleAt r) 1
  let n := imgAt b (roleAt r + 1) 1
  (List.range 12).all fun i => (takers b code i).length == bit (decide (i < n))

/-- A package manifest in order. -/
def manifestOk (b : List Byte) : Bool :=
  let id := imgAt b 0x100 2
  decide (0x150 ≤ imgLen b ∧ id ≠ 0 ∧ id ≠ 0xFFFF ∧ 1 ≤ roles b ∧ roles b ≤ 4 ∧ 1 ≤ sects b ∧ sects b ≤ 16 ∧
      imgAt b 0x108 4 + imgAt b 0x10C 4 ≤ imgLen b) &&
    ((List.range 4).all fun r => if r < roles b then roleOk b r && takersOk b r else imgAt b (roleAt r) 16 == 0) &&
    ((List.range 16).all fun k => if k < sects b then sectOk b k else imgAt b (sectAt k) 16 == 0)

/-- The role entry of a role code. -/
def roleOf (b : List Byte) (code : Nat) : Option Nat :=
  (List.range (min 4 (roles b))).find? fun r => imgAt b (roleAt r) 1 == code

/-! ### Authentication (R59, R60) -/

namespace State

/-- Item 1, as its REASON: 0 when it passes. -/
def layoutReason (b : List Byte) : Nat :=
  if imgAt b 0 4 ≠ 0x31445849 ∨ imgAt b 4 2 ≠ 1 then 1
  else if headerOk b && (imgType b != 2 || programOk b) && (imgType b != 3 || manifestOk b) then 0 else 2

/-- Item 2. -/
def keyOk (s : State) (b : List Byte) : Bool :=
  (imgType b == 2 || keySlot b == 0) && s.slotUsable (keySlot b) &&
    Config.sha384 ((b.drop 0x20).take 97) == s.slotHash (keySlot b)

/-- The result code and the REASON of an authentication, made in the order of R59. -/
def authenticate (s : State) (b : List Byte) : Nat × Nat :=
  if layoutReason b ≠ 0 then (Code.badArg, layoutReason b)
  else if !s.keyOk b then (Code.authFail, 3)
  else if !Config.ecdsaP384 ((b.drop 0x20).take 97) (b.take 0xA0 ++ payload b) ((b.drop 0xA0).take 96) then
    (Code.authFail, 4)
  else if imgVersion b < s.fld (floorFld (imgType b - 1)) then (Code.authFail, 5)
  else (Code.ok, 0)

/-- An image as it stands in a memory: its header and as many bytes as IMG_LEN gives. -/
def imageAt (m : Mem) : List Byte := m.readBytes 0 (0x100 + min 0x100000 (m.readLE 8 4))

/-! ### The package commands -/

/-- SYS_PKG_RES written; LOST stays. The package result raises its interrupt. -/
def pkgResult (s : State) (code tag : Nat) (done : Bool) : State :=
  (((s.setFld Fld.SYS_PKG_RES_RESULT code).setFld Fld.SYS_PKG_RES_TAG tag).setFlag Fld.SYS_PKG_RES_DONE done).raiseIrq 1

/-- A command that may be written and finds DONE = 1, with no other in this cycle, is executed (R329). -/
def pkgCommand (s : State) (who : Ident) (f : State → State) : State :=
  s.hostWrite who Reg.SYS_PKG_CMD fun s =>
    s.oneAtATime Reg.SYS_PKG_CMD (!s.flag Fld.SYS_PKG_RES_DONE) Fld.SYS_PKG_RES_LOST f

/-- The end of a package command that has its code. -/
def pkgEnd (s : State) (who : Ident) (code tag : Nat) : State := (s.pkgResult code tag true).countCode who code

/-- An engine of this part whose district is absent. -/
def absentEngine (s : State) (e : Nat) : Bool := decide (e < 96) && !s.hasEngine e

/-- Engines of the instance that a LOAD asks for. -/
def instEngines (b : List Byte) (role : Nat) : Nat :=
  if imgType b = 3 ∧ layoutReason b = 0 then
    match roleOf b role with
    | some r => imgAt b (roleAt r + 1) 1
    | none => 1
  else 1

/-- Instruction and data image of an engine of the instance: the data image follows the instruction image. -/
def engineImages (b : List Byte) (role i : Nat) : List Byte × List Byte :=
  let p := payload b
  if imgType b = 2 then
    let n := imgAt b 0x100 4
    ((p.drop 64).take n, (p.drop (64 + n)).take (imgAt b 0x104 4))
  else
    match takers b role i with
    | k :: _ =>
      let o := imgAt b (sectAt k) 4
      let n := imgAt b (sectAt k + 4) 4
      ((p.drop o).take n, (p.drop (o + n)).take (imgAt b (sectAt k + 8) 4))
    | [] => ([], [])

/-- The first failing code of a LOAD (R330). -/
def loadCode (s : State) (b : List Byte) (e role : Nat) : Nat :=
  let n := instEngines b role
  let range := (List.range n).map (e + ·)
  let auth := (s.authenticate b).1
  if range.any s.absentEngine then Code.absent
  else if auth ≠ Code.ok then auth
  else firstCode
    [(decide ((imgType b ≠ 2 ∧ imgType b ≠ 3) ∨ imgEntry b ≠ 0 ∨ 95 < e ∨ (imgType b = 2 ∧ role ≠ 0)) ||
        (imgType b == 3 && (roleOf b role).isNone) || decide (e / 12 ≠ (e + n - 1) / 12) ||
        range.any (fun k => s.reg (Reg.SYS_PKG_ENG k) != 0), Code.badArg),
      (s.mode != Mode.load, Code.wrongState)]

/-- SRAMs of an engine loaded whole, the rest of them zero. -/
def loadEngine (s : State) (e : Nat) (i d : List Byte) : State :=
  s.setEng e { s.eng e with instr := Mem.writeBytes [] 0 i, data := Mem.writeBytes [] 0 d }

/-- A passing LOAD ends (R331): the engines stop, are loaded and named, and start together. -/
def finishPkgLoad (s : State) (j : PkgJob) : State :=
  let n := j.images.length
  let s := (List.range n).foldl (fun (s : State) i =>
    if s.flag (Fld.CE_CTRL_RUN (j.first + i)) then s.holdEngine (j.first + i) else s) s
  let s := j.images.zipIdx.foldl (fun (s : State) p =>
    (s.loadEngine (j.first + p.2) p.1.1 p.1.2).setReg (Reg.SYS_PKG_ENG (j.first + p.2))
      (BitVec.ofNat 32 (j.pkgId + 2 ^ 16 * j.role + 2 ^ 20 * p.2 + 2 ^ 24 * j.first))) s
  let s := (List.range n).foldl (fun (s : State) i => s.runEngine (j.first + i)) s
  ({ s with pkg := none }).pkgResult Code.ok j.tag true

/-- An ENTER_COMMISSION that waited for a package command is executed (R333). -/
def afterPkg (s : State) : State :=
  match s.modeCmd with
  | some c => if c.cmd = 2 ∧ s.anyTxnOpen then s.endMode Code.wrongState else s
  | none => s

/-- Engines whose instance starts at an engine. -/
def sameLoad (s : State) (e : Nat) : List Nat :=
  (List.range 96).filter fun k => s.reg (Reg.SYS_PKG_ENG k) != 0 && s.fld (Fld.SYS_PKG_ENG_FIRST k) == e

end State

/-- PKG_LOAD (R329, R330): the image in the boot window for an instance of a role at engine `e`. -/
def execPkgLoad (who : Ident) (e role tag : Nat) (s : State) : Answer :=
  .next (s.live fun s => (s.pkgCommand who fun s =>
    let b := State.imageAt s.bootMem
    let code := s.loadCode b e role
    if code ≠ Code.ok then s.pkgEnd who code tag
    else
      let id := if imgType b = 2 then 0xFFFF else imgAt b 0x100 2
      let job : PkgJob := { pkgId := id, role := role, first := e, tag := tag,
                            images := (List.range (State.instEngines b role)).map (State.engineImages b role) }
      ({ s with pkg := some job }).pkgResult Code.pending tag false))

/-- PKG_LOAD_COMPLETE (R331). -/
def execPkgLoadComplete (s : State) : Answer :=
  .next (s.live fun s => (match s.pkg with | some j => (s.finishPkgLoad j).afterPkg | none => s))

/-- PKG_UNLOAD (R332). -/
def execPkgUnload (who : Ident) (e tag : Nat) (s : State) : Answer :=
  .next (s.live fun s => (s.pkgCommand who fun s =>
    let first := s.reg (Reg.SYS_PKG_ENG e) != 0 && s.fld (Fld.SYS_PKG_ENG_FIRST e) == e && decide (e < 96)
    let code := firstCode
      [(s.absentEngine e, Code.absent), (!first, Code.badArg), (s.mode != Mode.load, Code.wrongState)]
    if code ≠ Code.ok then s.pkgEnd who code tag
    else
      ((s.sameLoad e).foldl (fun (s : State) k =>
        ((if s.flag (Fld.CE_CTRL_RUN k) then s.holdEngine k else s).loadEngine k [] []).setReg (Reg.SYS_PKG_ENG k) 0)
        s).pkgResult Code.ok tag true))

end Sys2Proof.Machine
end

