-- ==== Sys2Proof/Machine/Boot.lean ====
section
/-!
DEFINITION. Boot (R55–R57): the boot stage's attempts, host pushes, and the start of the supervisor firmware.
-/

namespace Sys2Proof.Machine

namespace State

/-! ### Sources (Table MODE-6) -/

/-- Sources that the boot stage tries before it waits for a push: 0 MRAM, 1 QSPI flash. -/
def bootOrder : Nat → List Nat
  | 0 => [0]
  | 1 => [1]
  | 2 => []
  | _ => [0, 1]

/-- WAIT_PUSH: every source has failed, or there is none; SOURCE keeps the source last tried (Table MODE-8). -/
def waitPush (s : State) : State := s.setFld Fld.SYS_BOOT_STAT_STAGE 4

/-- The outcome of an attempt from a source (R55, R59): a supervisor image that authenticates is started. -/
def bootOutcome (s : State) (src code reason : Nat) : State :=
  let s := ((s.setFld Fld.SYS_BOOT_STAT_SOURCE src).setFld Fld.SYS_BOOT_STAT_RESULT code).setFld
    Fld.SYS_BOOT_STAT_REASON reason
  if code = Code.ok then s.setFld Fld.SYS_BOOT_STAT_STAGE 3 else s

/-- The result of reading an image: an image of another TYPE is no supervisor image, a field out of its range. -/
def bootCheck (s : State) (b : List Byte) : Nat × Nat :=
  if layoutReason b = 0 ∧ imgType b ≠ 1 then (Code.badArg, 2) else s.authenticate b

/-- An attempt counted. -/
def attempt (s : State) : State := s.count Fld.SYS_BOOT_STAT_ATTEMPTS

/-- The boot stage tries its next source; with none left it waits for a push. BOOT_SEL is sampled first. -/
def bootAttempt (s : State) (flash : List Byte) (readError : Bool) : State :=
  let stage := s.fld Fld.SYS_BOOT_STAT_STAGE
  if s.mode ≠ Mode.boot ∨ s.inReset ∨ stage = 3 ∨ stage = 4 then s
  else
    let s := if stage = 0 then s.setFld Fld.SYS_BOOT_STAT_BOOT_SEL s.bootSel else s
    let order := bootOrder (s.fld Fld.SYS_BOOT_STAT_BOOT_SEL)
    let k := s.fld Fld.SYS_BOOT_STAT_ATTEMPTS
    match order[k]? with
    | none => s.waitPush
    | some src =>
      let s := (s.attempt).setFld Fld.SYS_BOOT_STAT_STAGE 1
      let s :=
        if readError then
          let s := if src = 0 then (s.count Fld.NV_ERR_UNCORR).notify .nvError else s
          (s.draw).bootOutcome src (if s.drawn % 2 = 0 then Code.authFail else Code.badArg) 6
        else
          let r := s.bootCheck (if src = 0 then imageAt s.mram else flash)
          s.bootOutcome src r.1 r.2
      if s.fld Fld.SYS_BOOT_STAT_STAGE = 3 ∨ k + 1 < order.length then s else s.waitPush

/-- GO written in WAIT_PUSH: the image of the boot window is tried; a failure waits for another push (R55, R57). -/
def hostPush (s : State) (who : Ident) : State :=
  if s.fld Fld.SYS_BOOT_STAT_STAGE ≠ 4 then s.wrongState who
  else
    let s := s.attempt
    let r := s.bootCheck (imageAt s.bootMem)
    s.bootOutcome 2 r.1 r.2

/-- Supervisor firmware starts (Table MODE-7): engine and district SRAM are cleared and the device enters LOAD. -/
def startSupervisor (s : State) : State :=
  if s.mode = Mode.boot ∧ s.fld Fld.SYS_BOOT_STAT_STAGE = 3 ∧ !s.inReset then
    let s := (List.range 96).foldl (fun (s : State) e => s.loadEngine e [] []) s
    ((List.range 8).foldl (fun (s : State) d => s.setDist d { s.dist d with sram := [], bad := [], soft := [] }) s).setMode Mode.load
  else s

end State

/-- BOOT_ATTEMPT (R55): what the QSPI flash holds, and whether the read meets an error. -/
def execBootAttempt (flash : List Byte) (readError : Bool) (s : State) : Answer :=
  .next (s.live fun s => (s.bootAttempt flash readError))

/-- HOST_PUSH (R57): SYS_BOOT_CTRL.GO. -/
def execHostPush (who : Ident) (s : State) : Answer :=
  .next (s.live fun s => (s.hostWrite who Reg.SYS_BOOT_CTRL fun s => s.hostPush who))

/-- SUPERVISOR_START (R43). -/
def execSupervisorStart (s : State) : Answer := .next (s.live fun s => s.startSupervisor)

end Sys2Proof.Machine
end

