-- ==== Sys2Proof/Machine/Reduction.lean ====
section
/-!
DEFINITION. The reduction units (chapter 14): the input queue, the tests and integration of a sample, the curve
store, end of step, exports to the image and the ledger commands.
-/

namespace Sys2Proof.Machine

/-- A sample with its full stamp in quarter nanoseconds (R402, R404). -/
structure Sample where
  channel : Nat
  newStep : Bool
  pset : Nat
  bad : Bool
  volt : Nat
  curr : Int
  temp : Int
  at' : Int
  deriving DecidableEq, Repr

/-- Quarter nanoseconds in a second. -/
def qnsPerSecond : Nat := 4000000000

/-- Clamp to ±(2^(n-1) - 1). -/
def clampBits (n : Nat) (x : Int) : Int := clampInt (-((2 ^ (n - 1) : Nat) - 1)) ((2 ^ (n - 1) : Nat) - 1) x

/-- Charge exported, before its clamp (R407). -/
def chargeOf (qacc : Int) : Int := (qacc * 2 ^ 16).tdiv (8 * 10 ^ 9)

/-- Energy exported, before its clamp (R407). -/
def energyOf (eacc : Int) : Int := (eacc * 2 ^ 16).tdiv (8 * 10 ^ 15)

namespace State

/-! ### Parameter sets -/

/-- Word `w` of parameter set `p`. -/
def psWord (s : State) (d p w : Nat) : Nat := (s.reg (Reg.SRU_PS_W0 d p + 4 * w)).toNat

/-- Bits of a parameter word. -/
def psFld (s : State) (d p w lo width : Nat) : Nat := fieldGet (s.reg (Reg.SRU_PS_W0 d p + 4 * w)) lo width

/-! ### Ledger -/

/-- Ledger entry `n`. -/
def ledger (s : State) (d n : Nat) : Ledger := Store.get (fun _ => {}) (s.sru d).ledger n

/-- Ledger entry `n` replaced. -/
def setLedger (s : State) (d n : Nat) (x : Ledger) : State :=
  s.setSru d { s.sru d with ledger := Store.set (fun _ => {}) (s.sru d).ledger n x }

/-- SRU_STAT and SRU_GSTAT show the queues (R419, Table SRU-16). -/
def showSru (s : State) (d : Nat) : State :=
  let x := s.sru d
  let s1 := (s.setFld (Fld.SRU_STAT_INQ d) x.inq.length).setFld (Fld.SRU_STAT_EOSQ d) x.eosq.length
  let g := fieldGet (s1.reg Reg.SRU_GSTAT) d 1
  if g = bit (!x.eosq.isEmpty) then s1
  else s1.setReg Reg.SRU_GSTAT (fieldSet (s1.reg Reg.SRU_GSTAT) d 1 (bit (!x.eosq.isEmpty)))

/-! ### Samples (R403–R405) -/

/-- A record as a sample: its second is the one nearest to the district's repeater (R404). -/
def sampleOf (s : State) (d : Nat) (ws : List Word) : Sample :=
  let w (i : Nat) : Nat := ((ws[i]?).getD 0).toNat
  let sec : Nat := Instant.sec (s.repeaterTime d)
  let full : Int := (sec : Int) + toSigned 16 (w 4 % 65536 + 65536 - sec % 65536)
  { channel := w 0 % 2 ^ 17, newStep := w 0 / 2 ^ 17 % 2 == 1, pset := w 0 / 2 ^ 18 % 16
    bad := w 0 / 2 ^ 22 != 0 || decide (3999999999 < w 3)
    volt := w 1, curr := toSigned 32 (w 2), temp := toSigned 16 (w 4 / 65536)
    at' := full * qnsPerSecond + w 3 }

/-- SRUP of engine `e`: a record joins the queue of 64, before those of later engines of the same cycle, or is BUSY
(R403). -/
def offerSample (s : State) (e : Nat) (ws : List Word) : Nat × State :=
  let d := e / 12
  let x := s.sru d
  if 64 ≤ x.inq.length then (Code.busy, s.setSru d { x with owed := true })
  else
    let k := x.inq.length - (s.now.samplers.filter fun f => f / 12 == d && decide (e < f)).length
    let s := s.setSru d { x with inq := x.inq.take k ++ ws :: x.inq.drop k }
    (Code.ok, { s with now := { s.now with samplers := e :: s.now.samplers } }.showSru d)

/-- Group `j` captures its five words of a passage that marks the last (R403). -/
def captureGroup (d : Nat) (p : Passage) (s : State) (j : Nat) : State :=
  let f := s.fld (Fld.SRU_IN_FIRST d j)
  if s.flag (Fld.SRU_IN_EN d j) && p.marks.contains (f + 4) then
    let x := s.sru d
    if 64 ≤ x.inq.length then s.count (Fld.SRU_CNT1_SLICE_DROP d)
    else (s.setSru d { x with inq := x.inq ++ [(List.range 5).map fun i => passWord p (f + i)] }).showSru d
  else s

/-- The groups capture in ascending order. -/
def captureGroups (s : State) (d : Nat) (p : Passage) : State := (List.range 8).foldl (captureGroup d p) s

/-! ### Curve store (R410, R411) -/

/-- A record of the curve, as four words. -/
def curveRecord (l : Ledger) (x : Sample) (ends gap timed : Bool) : List Word :=
  let etime : Nat := min 0xFFFFFFFF ((x.at' - l.start) / 40000).toNat
  [BitVec.ofNat 32 x.volt, BitVec.ofInt 32 x.curr, BitVec.ofNat 32 etime,
    BitVec.ofNat 32 (ofSigned 16 x.temp + 2 ^ 16 * (l.step % 256) + 2 ^ 24 * bit x.newStep + 2 ^ 25 * bit ends +
      2 ^ 26 * bit gap + 2 ^ 27 * bit timed)]

/-- The record is written at CURVE_IDX, which advances. -/
def keepCurve (s : State) (l : Ledger) (x : Sample) (ends gap timed : Bool) : Ledger × State :=
  let a := x.channel * 0x4000 + l.curveIdx * 16
  let bs := wordsBytes (curveRecord l x ends gap timed)
  let s := s.through 3 fun s => { s with curve := s.curve.writeBytes a (bs.map fun b => BitVec.ofNat 8 b) }
  ({ l with
      curveIdx := (l.curveIdx + 1) % 1024
      wrapped := l.wrapped || l.curveIdx == 1023
      keptV := x.volt, keptI := x.curr, keptT := x.at' }, s)

/-! ### Exports (R414, R415) -/

/-- VALUE of offset `k` (Table SRU-4); a FAULTED entry exports 0 but for its state (R417). -/
def exportValue (l : Ledger) (k : Nat) : Nat :=
  if l.state = 3 then (if k = 6 then 3 * 2 ^ 16 else 0)
  else if k = 0 then ofSigned 64 (clampBits 64 (chargeOf l.qacc))
  else if k = 1 then ofSigned 64 (clampBits 64 (energyOf l.eacc))
  else if k = 2 then l.vmin + 2 ^ 32 * l.vmax
  else if k = 3 then (l.stamp - l.start).toNat / 4 % 2 ^ 48
  else if k = 4 then l.volt + 2 ^ 32 * ofSigned 32 l.curr
  else if k = 5 then ofSigned 32 l.dvdt + 2 ^ 32 * ofSigned 16 l.temp + 2 ^ 48 * ofSigned 16 l.tmax
  else if k = 6 then
    l.step + 2 ^ 16 * l.state + 2 ^ 18 * l.endCode + 2 ^ 20 * l.pset + 2 ^ 24 * l.curveIdx + 2 ^ 34 * bit l.wrapped +
      2 ^ 35 * bit l.qsat + 2 ^ 36 * bit l.esat + 2 ^ 37 * bit l.hsat + 2 ^ 38 * bit l.gap + 2 ^ 40 * l.samples
  else
    let b (m : Nat) : Nat := Store.get (fun _ => 0) l.bins (4 * (k - 8) + m)
    b 0 + 2 ^ 16 * b 1 + 2 ^ 32 * b 2 + 2 ^ 48 * b 3

/-- Offsets written: 0–6, and 8–39 with the histogram. -/
def exportOffsets (hist : Bool) : List Nat := List.range 7 ++ (if hist then (List.range 32).map (· + 8) else [])

/-- An export: direct writes of the unit's identity in ascending offsets, all with the entry's last stamp, which the
next periodic export is measured from (R414). -/
def exportEntry (s0 : State) (d n : Nat) (hist : Bool) : State :=
  let l := s0.ledger d n
  let s := if l.state = 1 then s0.setLedger d n { l with exported := some l.stamp } else s0
  let base : Int := s.fld Fld.IMG_BASE_SEC_LO_SEC + 2 ^ 32 * s.fld Fld.IMG_BASE_SEC_HI_SEC
  let stamp := ofSigned 48 (l.stamp / 4 - base * 1000000000)
  let q := bit (l.qsat || l.esat || l.hsat) + 2 * bit l.gap + 4 * bit (l.state == 2)
  (exportOffsets hist).foldl (fun s k =>
    s.request (s.ident (0xD0 + d))
      (.write (64 * (s.fld (Fld.SRU_EXPORT_BASE64 d) + n) + k)
        { ver := { value := exportValue l k, stamp := stamp, quality := q, user := 0 }, auto := false } none)) s

/-! ### Step start and integration (R406, R407) -/

/-- The entry as a new step sets it up; TMAX, which R406 does not name, stays (log entry 42). -/
def startStep (l : Ledger) (x : Sample) : Ledger :=
  { state := 1, step := (l.step + 1) % 65536, pset := x.pset, vmin := x.volt, vmax := x.volt, tmax := l.tmax
    start := x.at', anchorV := x.volt, anchorT := x.at', keptV := x.volt, keptI := x.curr, keptT := x.at' }

/-- The interval from the previous sample: the entry, whether it was a gap, and dQ. -/
def integrate (maxGap : Nat) (l : Ledger) (x : Sample) : Ledger × Bool × Int :=
  let dq := x.at' - l.stamp
  if maxGap ≠ 0 ∧ ((maxGap * 4000000 : Nat) : Int) < dq then ({ l with gap := true }, true, 0)
  else
    let qa := l.qacc + (l.curr + x.curr) * dq
    let ea := l.eacc + ((l.volt : Int) * l.curr + (x.volt : Int) * x.curr) * dq
    let qc := clampBits 96 qa
    let ec := clampBits 96 ea
    ({ l with
        qacc := qc, eacc := ec
        qsat := l.qsat || qc != qa || clampBits 64 (chargeOf qc) != chargeOf qc
        esat := l.esat || ec != ea || clampBits 64 (energyOf ec) != energyOf ec }, false,
      ((l.curr + x.curr) * dq * 2 ^ 16).tdiv (8 * 10 ^ 9))

/-- The histogram takes an interval's charge (R409). -/
def addHist (vlo shift hq : Nat) (l : Ledger) (volt : Nat) (dQ : Int) : Ledger :=
  let k := (volt - vlo) / 2 ^ shift
  if vlo ≤ volt ∧ k < 128 then
    let r := l.residue + dQ.natAbs
    let n := Store.get (fun _ => 0) l.bins k + r / 2 ^ (hq + 16)
    { l with bins := Store.set (fun _ => 0) l.bins k (min n 65535), hsat := l.hsat || decide (65535 < n)
             residue := r % 2 ^ (hq + 16) }
  else l

/-- The slope is updated by a sample (R408). -/
def slopeDue (win : Nat) (l : Ledger) (x : Sample) : Bool := decide (((win * 4000000 : Nat) : Int) ≤ x.at' - l.anchorT)

/-- The slope since the anchor; `free` stands where no time has passed (log entry 43). -/
def slopeOf (l : Ledger) (x : Sample) (free : Nat) : Int :=
  if x.at' = l.anchorT then clampBits 32 (toSigned 32 free)
  else clampBits 32 ((((x.volt : Int) - l.anchorV) * qnsPerSecond).tdiv (x.at' - l.anchorT))

/-- Extremes and slope (R408). -/
def extremes (win : Nat) (l : Ledger) (x : Sample) (free : Nat) : Ledger :=
  let slope := slopeDue win l x
  { l with
    vmin := min l.vmin x.volt, vmax := max l.vmax x.volt, samples := min (2 ^ 24 - 1) (l.samples + 1)
    volt := x.volt, curr := x.curr, temp := x.temp, tmax := max l.tmax x.temp, stamp := x.at'
    dvdt := if slope then slopeOf l x free else l.dvdt
    anchorV := if slope then x.volt else l.anchorV
    anchorT := if slope then x.at' else l.anchorT }

/-- The end of step that a sample meets: 0 none, 1 CUTOFF, 2 TAPER, 3 MAXTIME (R412). -/
def stepEnd (s : State) (d : Nat) (l : Ledger) (x : Sample) : Nat :=
  let ps := s.psFld d l.pset
  let dir := ps 0 0 2
  if ps 0 2 1 = 1 ∧ ((dir = 0 ∧ ps 1 0 32 ≤ x.volt) ∨ (dir = 1 ∧ x.volt ≤ ps 1 0 32)) then 1
  else if ps 0 3 1 = 1 ∧ l.armed ∧ x.curr.natAbs ≤ ps 2 0 31 then 2
  else if ps 0 4 1 = 1 ∧ ((ps 3 0 32 * 4000000 : Nat) : Int) ≤ x.at' - l.start then 3
  else 0

/-- The entry's state after the end test; a sample above TAPER_I arms the taper test. -/
def endStep (s : State) (d : Nat) (l : Ledger) (x : Sample) : Ledger × Nat :=
  let l := { l with armed := l.armed || decide (s.psFld d l.pset 2 0 31 < x.curr.natAbs) }
  let e := s.stepEnd d l x
  (if e = 0 then l else { l with state := 2, endCode := e }, e)

/-- DT_TH is due, and another case of R411 keeps the sample. -/
def keepCases (s : State) (d : Nat) (l : Ledger) (x : Sample) (ends gap : Bool) : Bool × Bool :=
  let ps := s.psFld d l.pset
  let dt := ps 6 0 16
  (decide (dt ≠ 0 ∧ ((dt * 40000000 : Nat) : Int) ≤ x.at' - l.keptT),
    x.newStep || ends || gap ||
      decide (ps 4 0 32 ≠ 0 ∧ ps 4 0 32 < ((x.volt : Int) - l.keptV).natAbs) ||
      decide (ps 5 0 32 ≠ 0 ∧ ps 5 0 32 < (x.curr - l.keptI).natAbs))

/-- End of step is detected: the queue of 64 takes it, and SRU_EOS fires (R413). -/
def stepEnded (s : State) (d channel e : Nat) : State :=
  let x := s.sru d
  let s1 := if 64 ≤ x.eosq.length then s.count (Fld.SRU_CNT1_EOS_DROP d)
    else (s.setSru d { x with eosq := x.eosq ++ [(channel, e)] }).showSru d
  s1.fireDistrict 0x18 0 d

/-- An accepted sample (R406–R414). -/
def acceptSample (s : State) (d n : Nat) (x : Sample) : State :=
  let s := s.countReg (Reg.SRU_CNT2 d)
  let l0 := s.ledger d n
  let r := if x.newStep then (startStep l0 x, false, 0)
    else integrate (s.psFld d l0.pset 6 16 16) l0 x
  let s := if r.2.1 then s.count (Fld.SRU_CNT3_GAP d) else s
  let ps := s.psFld d r.1.pset
  let hist := ps 0 5 1 == 1
  let l := if hist && !x.newStep && !r.2.1 then addHist (ps 7 0 32) (ps 0 6 5) (ps 0 11 5) r.1 x.volt r.2.2 else r.1
  let noTime := slopeDue (ps 8 0 32) l x && x.at' == l.anchorT
  let l := extremes (ps 8 0 32) l x s.drawn
  let s := if noTime then s.draw else s
  let e := s.endStep d l x
  let keep := s.keepCases d e.1 x (e.2 != 0) r.2.1
  let c := if keep.1 || keep.2 then s.keepCurve e.1 x (e.2 != 0) r.2.1 (!keep.2) else (e.1, s)
  let period := ps 9 0 32
  let due := decide (period ≠ 0 ∧ ((period * 4000000 : Nat) : Int) ≤ x.at' - c.1.exported.getD c.1.start)
  let periodic := e.2 == 0 && due
  let s := c.2.setLedger d n c.1
  let s := if e.2 = 0 then s else s.stepEnded d x.channel e.2
  if s.flag (Fld.SRU_EXPORT_EN d) then
    if e.2 ≠ 0 then s.exportEntry d n hist else if periodic then s.exportEntry d n false else s
  else s

/-- The ledger entry meets an uncorrectable error: FAULTED, with a STEP nothing gives (R419, log entry 42). -/
def faultEntry (s : State) (d n : Nat) : State :=
  (((s.setLedger d n { state := 3, step := s.drawn % 65536 }).draw).count (Fld.SRU_CNT3_LEDGER_ECC d)).notify
    (.reductionError d)

/-- The tests of Table SRU-2 on an entry that was read. -/
def testEntry (s : State) (d n : Nat) (x : Sample) : State :=
  let l := s.ledger d n
  if (l.state = 1 ∨ l.state = 2) ∧ x.at' < l.stamp + ((s.fld (Fld.SRU_MINDT_MIN_DT d) * 4 : Nat) : Int) then
    s.count (Fld.SRU_CNT1_STALE d)
  else if l.state = 0 ∧ x.newStep = false then s.count (Fld.SRU_CNT0_NO_STEP d)
  else if l.state = 2 ∧ x.newStep = false then s.count (Fld.SRU_CNT0_ENDED_IGN d)
  else if l.state = 3 ∧ x.newStep = false then s.count (Fld.SRU_CNT3_FAULT_IGN d)
  else s.acceptSample d n x

/-- A sample leaves the queue and is tested in order (Table SRU-2). -/
def takeSample (s : State) (d : Nat) (ecc : Bool) (ws : List Word) : State :=
  let x := s.sampleOf d ws
  if s.fld (Fld.SRU_CTRL_EN d) = 0 ∨ s.flag (Fld.SRU_STAT_FAULT d) then s.count (Fld.SRU_CNT3_OFF_DROP d)
  else if x.channel / 16384 ≠ d then s.count (Fld.SRU_CNT0_NOT_OWNED d)
  else if x.bad then s.count (Fld.SRU_CNT0_BAD d)
  else
    let n := x.channel % 16384
    (if ecc then s.faultEntry d n else s).testEntry d n x

/-- The host, the supervisor and the district's engines write the window; another engine's write is refused. -/
def sruWriter (s : State) (who : Ident) (d : Nat) : Bool :=
  Ident.isHost who || Ident.isSup who || (Ident.isEngine who && Ident.engine who / 12 == d && Ident.chip who == s.chip)

/-- A ledger command, done at once with its code; refused to an engine of another district (R417, R418). -/
def ledgerCommand (s : State) (who : Ident) (d : Nat) (code : Nat) (f : State → State) : State :=
  if !s.variant.hasSru || !decide (d < s.variant.districts) then s.absentHit (Reg.SRU_CMD d) true
  else if !s.sruWriter who d then s.refuseStore who (Reg.SRU_CMD d)
  else s.oneAtATime (Reg.SRU_CMD d) (!s.flag (Fld.SRU_CMD_RES_DONE d)) (Fld.SRU_CMD_RES_LOST d) fun s =>
    ((if code = Code.ok then f s else s).setFld (Fld.SRU_CMD_RES_RESULT d) code).countCode who code

/-- Words of a LATCH: offsets 0–6, low word first, and the 128 bins, two a word (R417). -/
def latchWords (l : Ledger) : List Word :=
  (List.range 7).flatMap (fun k => numWords 2 (exportValue l k)) ++
    (List.range 32).flatMap fun j => numWords 2 (exportValue l (8 + j))

/-- SRU_EOS_Q read: the oldest entry is returned and removed (Table SRU-11). -/
def takeEos (s : State) (d : Nat) : Word × State :=
  match (s.sru d).eosq with
  | (c, e) :: rest =>
    (BitVec.ofNat 32 (c + 2 ^ 17 * e + 2 ^ 31), (s.setSru d { s.sru d with eosq := rest }).showSru d)
  | [] => (0, s)

/-! ### Validation of a configuration (R418) -/

/-- A set has a reserved encoding, or its histogram passes 2^32. -/
def psBad (rd : Nat → Word) (d p : Nat) : Bool :=
  let w (i : Nat) : Word := rd (Reg.SRU_PS_W0 d p + 4 * i)
  let shift := fieldGet (w 0) 6 5
  fieldGet (w 0) 0 2 == 3 || decide (24 < shift) || decide (2 ^ 32 < (w 7).toNat + 128 * 2 ^ shift)

/-- The configuration passes R418. -/
def sruGood (s : State) (rd : Nat → Word) (d : Nat) : Bool :=
  let en (j : Nat) : Bool := rdFld rd (Fld.SRU_IN_EN d j) == 1
  let f (j : Nat) : Nat := rdFld rd (Fld.SRU_IN_FIRST d j)
  decide (rdFld rd (Fld.SRU_MINDT_MIN_DT d) ≤ 1000000) &&
    (rdFld rd (Fld.SRU_EXPORT_EN d) == 0 ||
      decide ((rdFld rd (Fld.SRU_EXPORT_BASE64 d) + 16384) * 64 ≤ s.variant.points)) &&
    ((List.range 8).all fun j => !en j || (decide (16 ≤ f j ∧ f j ≤ 43) &&
      (List.range j).all fun i => !en i || decide (f i + 5 ≤ f j ∨ f j + 5 ≤ f i))) &&
    (List.range 16).all fun p => !psBad rd d p

end State

/-- SAMPLE_PROCESSING (R405): the next sample of a unit that does not wait; `ecc` tells that its ledger entry meets
an uncorrectable error. -/
def execSampleProcessing (d : Nat) (ecc : Bool) (s : State) : Answer :=
  .next (s.live fun s => (
    let x := s.sru d
    match x.inq with
    | [] => s
    | ws :: rest =>
      if s.sruStall d ∨ s.cycle < x.nextSample then s
      else
        let ready := x.owed && decide (rest.length ≤ 32)
        let s1 := (s.setSru d { x with inq := rest, owed := x.owed && !ready, nextSample := s.cycle + 64 }).showSru d
        (if ready then s1.fireDistrict 0x19 0 d else s1).takeSample d ecc ws))

/-- EXPORT (R417). -/
def execExport (who : Ident) (d n : Nat) (s : State) : Answer :=
  .next (s.served who fun s => (s.ledgerCommand who d (if s.flag (Fld.SRU_EXPORT_EN d) then Code.ok else Code.wrongState)
    fun s => s.exportEntry d n true))

/-- CLEAR (R417). -/
def execClear (who : Ident) (d n : Nat) (s : State) : Answer :=
  .next (s.served who fun s => (s.ledgerCommand who d Code.ok fun s => s.setLedger d n {}))

/-- LATCH (R417). -/
def execLatch (who : Ident) (d n : Nat) (s : State) : Answer :=
  .next (s.served who fun s => (s.ledgerCommand who d Code.ok fun s =>
    (State.latchWords (s.ledger d n)).zipIdx.foldl (fun s w => s.setReg (Reg.SRU_LATCH d w.2) w.1) s))

/-- SRU_EOS_Q_READ (R413). -/
def execSruEosQRead (who : Ident) (d : Nat) (s : State) : Answer :=
  .next (s.served who fun s => (
    if !s.variant.hasSru || !decide (d < s.variant.districts) then
      (s.absentHit (Reg.SRU_EOS_Q d) false).emit (.readData who (Reg.SRU_EOS_Q d) 0)
    else
      let r := s.takeEos d
      r.2.emit (.readData who (Reg.SRU_EOS_Q d) r.1.toNat)))

/-- SRU_CTRL (R405): EN is applied between samples. -/
def execSruCtrl (who : Ident) (d : Nat) (en : Bool) (s : State) : Answer :=
  .next (s.served who fun s => (
    if !s.variant.hasSru || !decide (d < s.variant.districts) then s.absentHit (Reg.SRU_CTRL d) true
    else if s.sruWriter who d then s.setFlag (Fld.SRU_CTRL_EN d) en
    else s.refuseStore who (Reg.SRU_CTRL d)))

/-- SELF_CHECK_FAILURE (R419). -/
def execSelfCheckFailure (d : Nat) (s : State) : Answer :=
  .next (s.live fun s => (
    if s.variant.hasSru && decide (d < s.variant.districts) then
      (s.setFlag (Fld.SRU_STAT_FAULT d) true).setReg Reg.SRU_GSTAT (fieldSet (s.reg Reg.SRU_GSTAT) (8 + d) 1 1)
    else s))

end Sys2Proof.Machine
end

