-- ==== Sys2Proof/Machine/Serial.lean ====
section
/-!
DEFINITION. The serial lines (chapter 10): operating state, rings, driver enable, Modbus gaps, SSI and the
IO-Link wake-up request.
-/

namespace Sys2Proof.Machine

namespace State

/-- Line `n`. -/
def ser (s : State) (n : Nat) : Serial := Store.get (fun _ => {}) s.serials n

/-- Line `n` replaced. -/
def setSer (s : State) (n : Nat) (x : Serial) : State :=
  { s with serials := Store.set (fun _ => {}) s.serials n x }

/-- Engine `e` is one of the district the line is bound to. -/
def ownsSer (s : State) (e n : Nat) : Bool := s.hasEngine e && s.boundSer (e / 12) n

/-- MODE: 0 UART, 1 MODBUS, 2 SSI, 3 IOLINK. -/
def serMode (s : State) (n : Nat) : Nat := s.fld (Fld.SER_CFG_MODE n)

/-- OPSTATE: 0 OFF, 1 LISTEN, 2 ACTIVE. -/
def serOp (s : State) (n : Nat) : Nat := s.fld (Fld.SER_STAT_OPSTATE n)

/-- Bit time in sixteenths of a CCLK cycle (R318). -/
def serBit16 (s : State) (n : Nat) : Nat :=
  if s.serMode n = 3 then
    match s.fld (Fld.SER_CFG_COM n) with
    | 1 => 266667 | 2 => 33333 | _ => 5556
  else s.fld (Fld.SER_RATE_BITLEN16 n)

/-- Data bits of a character. -/
def serData (s : State) (n : Nat) : Nat := if s.serMode n = 3 then 8 else 5 + s.fld (Fld.SER_CFG_DATA n)

/-- A character's time in FCLK cycles: start bit, data, parity and stop bits. -/
def charTime (s : State) (n : Nat) : Nat :=
  let bits := if s.serMode n = 3 then 11
    else 1 + s.serData n + bit (s.fld (Fld.SER_CFG_PARITY n) != 0) + 1 + s.fld (Fld.SER_CFG_STOP n)
  bits * s.serBit16 n * 10 / 16

/-- T15 and T35 in FCLK cycles. -/
def t15 (s : State) (n : Nat) : Nat := s.fld (Fld.SER_GAP_T15 n) * 800
def t35 (s : State) (n : Nat) : Nat := s.fld (Fld.SER_GAP_T35 n) * 800

/-- Entries and bytes outstanding (R320). -/
def rxCount (s : State) (n : Nat) : Nat := ((s.ser n).rxTail + 1024 - (s.ser n).rxHead) % 1024
def txCount (s : State) (n : Nat) : Nat := ((s.ser n).txTail + 1792 - (s.ser n).txHead) % 1792

/-- The line drives DE for its characters: HALF, or IOLINK. -/
def usesDe (s : State) (n : Nat) : Bool := s.flag (Fld.SER_CFG_HALF n) || s.serMode n == 3

/-- The DE ball takes a level. -/
def driveDe (s : State) (n : Nat) (de : Bool) : State :=
  if (s.ser n).de = de then s
  else (s.setSer n { s.ser n with de := de, deFall := none }).emit (.driver n de (s.ser n).wurq.isSome)

/-- With HALF the RX ball must have been idle: one character time, in MODBUS T35 (R321). -/
def rxIdle (s : State) (n : Nat) : Bool :=
  let x := s.ser n
  !s.flag (Fld.SER_CFG_HALF n) ||
    (!x.receiving && decide (x.lastRx + (if s.serMode n = 1 then s.t35 n else s.charTime n) ≤ s.cycle))

/-- The gap timer starts at the end of a stop bit. -/
def startGap (s : State) (n : Nat) : State :=
  if s.serMode n = 1 then s.setSer n { s.ser n with gapFrom := some s.cycle, gap15 := false, gap35 := false } else s

/-- The gap timer has reached a threshold by now, or had when a start bit was sent (R322). -/
def gapReached (s : State) (n limit : Nat) : Bool :=
  let x := s.ser n
  match x.gapFrom with
  | some t => decide (t + limit ≤ if x.sending then min s.cycle x.txFrom else s.cycle)
  | none => false

/-- The gap timer reaches a threshold: SER_GAP crosses. -/
def fireGap (s : State) (n : Nat) : State := s.raiseLine (0x0C * 64 + n) fun s => s.fire 0x0C n

/-- The thresholds that the gap timer has reached and not signalled (R322). -/
def passGaps (s : State) (n : Nat) : State :=
  let s1 := if !(s.ser n).gap15 ∧ s.gapReached n (s.t15 n) then
      (s.setSer n { s.ser n with gap15 := true }).fireGap n
    else s
  if !(s1.ser n).gap35 ∧ s1.gapReached n (s1.t35 n) then
    (s1.setSer n { s1.ser n with gap35 := true, first := true }).fireGap n
  else s1

/-- Transmission begins when the line may send, a byte waits and nothing is being sent; where the line drives DE and DE
is low, it rises LEAD before the start bit. -/
def serKick (s : State) (n : Nat) : State :=
  let x := s.ser n
  if s.serOp n = 2 ∧ s.serMode n ≠ 2 ∧ s.txCount n ≠ 0 ∧ !x.sending ∧ x.wurq.isNone ∧ s.rxIdle n then
    let lead := if s.usesDe n ∧ !x.de then s.fld (Fld.SER_DE_LEAD n) * 10 else 0
    let s1 := s.setSer n { x with sending := true, txFrom := s.cycle + lead, deFall := none, dataDue := false }
    if s.usesDe n then s1.driveDe n true else s1
  else s

/-- DE falls, and SER_DATA fires where it waited for that (R325). -/
def fallDe (s : State) (n : Nat) : State :=
  let due := (s.ser n).dataDue
  let s1 := (s.setSer n { s.ser n with deFall := none, dataDue := false }).driveDe n false
  if due then s1.fire 0x0D n else s1

/-- A line that is no longer ACTIVE ends its wake-up request at once, and drops DE when no character is under way. -/
def serQuiet (s : State) (n : Nat) : State :=
  let s1 := s.setSer n { s.ser n with wurq := none }
  if (s.ser n).sending then s1 else s1.fallDe n

/-- OPSTATE follows EN and the mode (R319). -/
def serFollow (s : State) (n : Nat) : State :=
  let t := if !s.flag (Fld.SER_CTRL_EN n) ∨ s.mode < Mode.commission then 0 else if s.mode = Mode.commission then 1 else 2
  if s.serOp n = t then s
  else
    let s1 := s.setFld (Fld.SER_STAT_OPSTATE n) t
    let s1 := if t = 0 then s1.setSer n { s1.ser n with gapFrom := none } else s1.setSer n { s1.ser n with first := true }
    let s1 := if t = 2 then s1 else s1.serQuiet n
    let s1 := if s1.serMode n = 2 then s1.driveDe n (t == 2) else s1
    s1.serKick n

/-- ENTER_LOAD cuts off at once what is being sent or received, and drops DE. -/
def serLoad (s : State) (n : Nat) : State :=
  let x := s.ser n
  ((s.setSer n { x with
    sending := false, deFall := none, dataDue := false, wurq := none, gapFrom := none, receiving := false, ssi := none
    pause := if x.ssi.isSome then some s.cycle else x.pause }).driveDe n false).setFld (Fld.SER_STAT_OPSTATE n) 0

/-- DE falls where its time has come. -/
def serCycle (s : State) (n : Nat) : State :=
  match (s.ser n).deFall with
  | some t => if t ≤ s.cycle then s.fallDe n else s
  | none => s

/-- One cycle of every line. -/
def serCycles (s : State) : State := s.serials.foldl (fun s p => s.serCycle p.1) s

/-- Bytes appended to the transmit ring. -/
def appendTx (s : State) (n : Nat) (bs : List Nat) : State :=
  let x := s.ser n
  let m := bs.zipIdx.foldl (fun m b => m.write ((x.txTail + b.2) % 1792) (BitVec.ofNat 8 b.1)) x.tx
  (s.setSer n { x with tx := m, txTail := (x.txTail + bs.length) % 1792 }).serKick n

/-- The buffers and control words of a line return to 0 (R320). -/
def resetSer (s : State) (n : Nat) : State :=
  s.setSer n { s.ser n with rx := [], tx := [], rxTail := 0, rxHead := 0, txHead := 0, txTail := 0, cmdRes := 0
                            ssiData := 0, ssiCnt := 0 }

/-- CMD_RES written. -/
def serResult (s : State) (n e code : Nat) : State :=
  (s.setSer n { s.ser n with cmdRes := code }).countCode (s.ident (0x10 + e)) code

end State

/-- A Gray code of `n` bits as a number. -/
def fromGray : Nat → Nat → Nat
  | 0, _ => 0
  | n + 1, g => g ^^^ fromGray n (g / 2)

/-! ### The commands -/

/-- A write of SER_CTRL.EN. -/
def execSerEnable (n : Nat) (en : Bool) (who : Ident) (s : State) : Answer :=
  .next (s.served who fun s => (if s.variant.hasSer n then
    s.unitWrite who State.boundSer n (Reg.SER_CTRL n) fun s => (s.setFlag (Fld.SER_CTRL_EN n) en).serFollow n
  else s.absentHit (Reg.SER_CTRL n) true))

/-- A start bit on the RX ball: the thresholds that the gap timer has reached come first, and the timer is cleared
(R322). -/
def State.rxStart (s : State) (n : Nat) : State :=
  let s := s.passGaps n
  let gap := s.gapReached n (s.t15 n) && !s.gapReached n (s.t35 n)
  s.setSer n { s.ser n with receiving := true, rxGap15 := gap, rxDe := (s.ser n).de, gapFrom := none }

/-- An entry for the receive ring (Table SER-3). -/
def State.serEntry (s : State) (n : Nat) (data : Byte) (parity frame brk : Bool) : Nat :=
  let x := s.ser n
  data.toNat % 2 ^ s.serData n + 2 ^ 8 * bit parity + 2 ^ 9 * bit frame + 2 ^ 10 * bit brk + 2 ^ 11 * bit x.rxGap15 +
    2 ^ 12 * bit x.first + 2 ^ 13 * bit x.ovr

/-- A character received is counted by its flags, and stored unless the ring is full (R320). -/
def State.rxStore (s : State) (n : Nat) (data : Byte) (parity frame brk : Bool) : State :=
  let entry := s.serEntry n data parity frame brk
  let s := if parity then s.count (Fld.SER_CNT_PAR_ERR n) else s
  let s := if frame then s.count (Fld.SER_CNT_FRM_ERR n) else s
  let s := if (s.ser n).rxGap15 then s.count (Fld.SER_CNT_GAP15 n) else s
  let x := s.ser n
  if s.rxCount n = 1023 then (s.count (Fld.SER_CNT_RX_OVR n)).setSer n { x with first := false, ovr := true }
  else
    let s := s.setSer n { x with
      rx := Store.set (fun _ => 0) x.rx x.rxTail (BitVec.ofNat 32 entry)
      rxTail := (x.rxTail + 1) % 1024, first := false, ovr := false }
    let s := if s.rxCount n = s.fld (Fld.SER_CFG_RX_THRESH n) then s.fire 0x0D n else s
    match s.districtOf State.boundSer n with
    | some d => s.proxySerial d n (s.charTime n) entry
    | none => s

/-- A character on the RX ball: its start bit on a line that receives, or its end. One that met DE high is discarded
unless ECHO is 1; one under way when the line goes OFF or LISTEN is completed (R319, R321). -/
def execCharacterReceived (n : Nat) (part : SerialRx) (parity frame brk : Bool) (s : State) : Answer :=
  .next (s.live fun s => if !s.variant.hasSer n ∨ s.serMode n = 2 then s else
    match part with
    | .startBit => if s.clockGone 4 ∨ s.serOp n = 0 then s else s.rxStart n
    | .char data =>
      if !(s.ser n).receiving then s
      else s.through 4 fun s =>
        let x := s.ser n
        let keep := (!x.rxDe && !x.de) || s.flag (Fld.SER_CFG_ECHO n)
        let s := (s.setSer n { x with receiving := false, lastRx := s.cycle }).startGap n
        if keep then
          s.rxStore n data (parity && (s.serMode n == 3 || s.fld (Fld.SER_CFG_PARITY n) != 0)) (frame || brk) brk
        else s)

/-- A write of TX_TAIL by an engine. -/
def execSerTxTail (n e v : Nat) (s : State) : Answer :=
  .next (s.live fun s => (if s.ownsSer e n then
    let t := v % 2048
    let k := (t + 1792 - (s.ser n).txTail) % 1792
    if 1792 ≤ t ∨ 1791 - s.txCount n < k then s.setFlag (Fld.SER_STAT_CFG_ERR n) true
    else (s.setSer n { s.ser n with txTail := t }).serKick n
  else s))

/-- A write of RX_HEAD by an engine. -/
def execSerRxHead (n e v : Nat) (s : State) : Answer :=
  .next (s.live fun s => (if s.ownsSer e n then
    let h := v % 1024
    if s.rxCount n < (h + 1024 - (s.ser n).rxHead) % 1024 then s.setFlag (Fld.SER_STAT_CFG_ERR n) true
    else s.setSer n { s.ser n with rxHead := h }
  else s))

/-- The last stop bit of the character in transmission leaves, its time after the start bit: the next byte follows, or DE
falls LAG later, at once on a line that is no longer ACTIVE. -/
def execCharacterSent (n : Nat) (s : State) : Answer :=
  .next (s.clocked 4 fun s => (
    let x := s.ser n
    if x.sending ∧ x.txFrom + s.charTime n ≤ s.cycle then
      let s := s.emit (.character n ((x.tx.read x.txHead).toNat % 2 ^ s.serData n))
      let s := (s.setSer n { x with txHead := (x.txHead + 1) % 1792, sending := false }).startGap n
      let empty := s.txCount n == 0
      if !empty ∧ s.serOp n = 2 then s.setSer n { s.ser n with sending := true, txFrom := s.cycle, gapFrom := none }
      else
        let half := s.flag (Fld.SER_CFG_HALF n)
        let s := if empty ∧ !half then s.fire 0x0D n else s
        if s.usesDe n then
          let s := s.setSer n { s.ser n with dataDue := empty && half }
          if s.serOp n = 2 then s.setSer n { s.ser n with deFall := some (s.cycle + s.fld (Fld.SER_DE_LAG n) * 10) }
          else s.fallDe n
        else s
    else s))

/-- The gap timer reaches T15. -/
def execGapT15 (n : Nat) (s : State) : Answer :=
  .next (s.clocked 4 fun s => (
    if s.serMode n = 1 ∧ 1 ≤ s.serOp n ∧ !(s.ser n).gap15 ∧ s.gapReached n (s.t15 n) then
      (s.setSer n { s.ser n with gap15 := true }).fireGap n
    else s))

/-- The gap timer reaches T35: the next character carries FIRST, and bytes that waited for the gap are sent. -/
def execGapT35 (n : Nat) (s : State) : Answer :=
  .next (s.clocked 4 fun s => (
    if s.serMode n = 1 ∧ 1 ≤ s.serOp n ∧ !(s.ser n).gap35 ∧ s.gapReached n (s.t35 n) then
      ((s.setSer n { s.ser n with gap35 := true, first := true }).fireGap n).serKick n
    else s))

/-- With HALF outside MODBUS mode the RX ball has been idle for one character time. -/
def execRxIdleTime (n : Nat) (s : State) : Answer :=
  .next (s.clocked 4 fun s => (if s.variant.hasSer n ∧ s.serMode n ≠ 1 ∧ s.flag (Fld.SER_CFG_HALF n) then s.serKick n else s))

/-- CMD SSI_START (R323): the clock's first falling edge latches the encoder, SSI_BITS more follow. -/
def execSsiStart (n e : Nat) (s : State) : Answer :=
  .next (s.live fun s => (if s.ownsSer e n then
    if s.serMode n ≠ 2 ∨ s.serOp n ≠ 2 then s.serResult n e Code.wrongState
    else if s.flag (Fld.SER_STAT_SSI_BUSY n) then s.serResult n e Code.busy
    else
      ((((s.setSer n { s.ser n with ssi := some s.cycle, pause := none }).setFlag (Fld.SER_STAT_SSI_BUSY n) true).emit
        (.ssiClock n (s.fld (Fld.SER_CFG_SSI_BITS n) + 2) (s.serBit16 n))).fireGap n).serResult n e Code.pending
  else s))

/-- An SSI transfer ends with the bits sampled, most significant first, at its last clock edge or later. -/
def execSsiTransferDone (n : Nat) (bits : Word) (s : State) : Answer :=
  .next (s.live fun s => (
    let x := s.ser n
    let k := s.fld (Fld.SER_CFG_SSI_BITS n) + 1
    match x.ssi with
    | some t =>
      let last := t + k * s.serBit16 n * 10 / 16
      if last ≤ s.cycle then s.through 4 fun s =>
        let raw := bits.toNat % 2 ^ k
        let v := if s.flag (Fld.SER_CFG_GRAY n) then fromGray k raw else raw
        (s.setSer n { x with ssi := none, pause := some last, ssiData := BitVec.ofNat 32 v
                             ssiCnt := (x.ssiCnt + 1) % 65536, cmdRes := Code.ok }).fire 0x0D n
      else s
    | none => s))

/-- The pause after an SSI transfer ends, T35 after its last clock edge. -/
def execSsiPauseEnd (n : Nat) (s : State) : Answer :=
  .next (s.clocked 4 fun s => (match (s.ser n).pause with
    | some t =>
      if t + s.t35 n ≤ s.cycle then
        (s.setSer n { s.ser n with pause := none }).setFlag (Fld.SER_STAT_SSI_BUSY n) false
      else s
    | none => s))

/-- CMD WURQ (R324): `v` is the word written, whose bits [1:0] name the command (Table SER-2). -/
def execWurq (n e : Nat) (v : Word) (s : State) : Answer :=
  .next (s.live fun s => (if s.ownsSer e n ∧ fieldGet v 0 2 = 2 then
    let x := s.ser n
    if s.serMode n ≠ 3 ∨ s.serOp n ≠ 2 then s.serResult n e Code.wrongState
    else if x.sending ∨ x.receiving ∨ x.wurq.isSome then s.serResult n e Code.busy
    else
      ((s.setSer n { x with wurq := some (s.cycle + 64000), de := true, deFall := none }).emit
        (.driver n true true)).serResult n e Code.ok
  else s))

/-- The wake-up request ends after 6,400 CCLK cycles. -/
def execWurqEnd (n : Nat) (s : State) : Answer :=
  .next (s.clocked 4 fun s => (match (s.ser n).wurq with
    | some t => if t ≤ s.cycle then ((s.setSer n { s.ser n with wurq := none }).fallDe n).serKick n else s
    | none => s))

end Sys2Proof.Machine
end

