-- ==== Sys2Proof/Machine/XingRows.lean ====
section
/-!
DEFINITION. The Crossing's commands: classification, queues and their scheduler (R233–R246), spill (R241),
generations (R224), table access (R219) and the Lamplighter (R252–R254), with the ports' transmissions.
-/

namespace Sys2Proof.Machine

namespace State

/-! ### Egress (R235) -/

/-- The bytes a copy leaves with: untagged or with one tag of its VID and PRIO, its R-TAG stripped or added
under its flow's entry, and the FCS recomputed. An Alley copy leaves as received. -/
def egressBytes (s : State) (x : Frame) (c : Copy) : List Byte :=
  let bs := s.frameBytes x
  if c.alley then bs
  else
    let tagged := wire16 bs 12 == 0x8100
    let addrs := bs.take 12
    let rest := (bs.take (bs.length - 4)).drop (if tagged then 16 else 12)
    let e := match x.flow with | some p => s.tblOf c.gen 6 p.1 | none => {}
    let rest := if fieldGet e.d0 3 1 = 1 ∧ wire16 rest 0 = 0xF1C1 then rest.drop 6 else rest
    let rest := match x.flow with
      | some (_, q) => if fieldGet e.d0 4 1 = 1 then bytesOf 2 0xF1C1 ++ bytesOf 2 0 ++ bytesOf 2 q ++ rest else rest
      | none => rest
    let tag := if s.untagged c.gen x.vid c.dest then [] else bytesOf 2 0x8100 ++ bytesOf 2 (x.prio * 8192 + x.vid)
    let body := addrs ++ tag ++ rest
    body ++ fcsBytes body

/-! ### Delivery -/

/-- The FRAME message of a copy for chip `k` (R212). -/
def frameMsg (s : State) (x : Frame) (k : Nat) : Msg :=
  let ctl := BitVec.ofNat 32 (x.vid + 2 ^ 12 * x.prio + 2 ^ 15 * x.source + 2 ^ 21 * x.len)
  let bs := s.frameBytes x
  let word (i : Nat) : Word := BitVec.ofNat 32
    ((List.range 4).foldl (fun v j => v + ((bs[4 * i + j]?).getD 0).toNat * 256 ^ j) 0)
  { dest := k * 16 + 8, src := s.aveNode 8, type := 5, sub := 0, flowv := x.flow.isSome
    flow := (x.flow.map (·.1)).getD 0, seq := (x.flow.map (·.2)).getD 0
    payload := ctl :: (List.range ((x.len + 3) / 4)).map word }

/-- A copy chosen for its destination is delivered; a port begins to send it. -/
def deliver (s : State) (c : Copy) : State :=
  if c.dest < 34 then
    (s.setPort c.dest { s.port c.dest with sending := some c, attempts := 0, deferred := false }).showDepth c.queue
  else if c.dest < 42 then s.deliverDistrict (c.dest - 34) c
  else if c.dest = 42 then s.deliverHost c
  else
    match s.frame c.frame with
    | some x => (s.queueMsg 8 (s.frameMsg x (c.dest - 43))).endCopy c.frame true
    | none => s

/-! ### The scheduler (R237, R244) -/

/-- Byte time of a port's link, in tenths of a nanosecond. -/
def byteTenths (s : State) (n : Nat) : Nat :=
  match s.fld (Fld.ETH_STAT_SPEED_ACT n) with
  | 3 => 8 | 2 => 80 | 1 => 800 | _ => 8000

/-- A head copy's gate is open and it fits before the gate next closes. -/
def gatePasses (s : State) (q : Nat) (c : Copy) : Bool :=
  if c.dest < 34 then
    let g := s.sched c.dest
    let gate := fieldGet (s.tbl 5 q).d0 9 3
    let t := s.lineTime
    !g.enabled ||
      (g.isOpen gate t &&
        (match g.closes gate t with
          | some u => decide (t + (c.size + 20) * s.byteTenths c.dest * Instant.nano / 10 ≤ u)
          | none => true))
  else true

/-- The head copy of a queue, if the queue is one of a destination's and eligible; a copy in spill before it holds it
back (R236). -/
def eligibleHead (s : State) (q dest : Nat) : Option Copy :=
  match (s.queue q).copies with
  | c :: _ =>
    if c.dest = dest ∧ s.gatePasses q c ∧ !((s.queue q).spill.any fun y => decide (y.copy.seq < c.seq)) then some c
    else none
  | [] => none

/-- LEVEL and QUANTUM of a queue. -/
def qLevel (s : State) (q : Nat) : Nat := fieldGet (s.tbl 5 q).d0 6 3
def qQuantum (s : State) (q : Nat) : Nat := fieldGet (s.tbl 5 q).d2 0 16

/-- The queue after `q` in a rotation. -/
def nextInTurn (qs : List Nat) (q : Nat) : Nat :=
  match qs.find? fun x => decide (q < x) with
  | some x => x
  | none => (qs.head?).getD 0

/-- The head of a queue is taken. -/
def takeHead (s : State) (q : Nat) : State :=
  let x := s.queue q
  let y := { x with copies := x.copies.drop 1 }
  s.setQueue q (if y.copies.isEmpty ∧ y.spill.isEmpty then { y with deficit := 0 } else y)

/-- Deficit round robin over the eligible queues `qs` of one level, from queue `q` on: the copy it sends. -/
def roundRobin (qs : List Nat) (dest key : Nat) : Nat → Nat → State → Option (Copy × State)
  | 0, _, _ => none
  | n + 1, q, s =>
    match s.eligibleHead q dest with
    | none => roundRobin qs dest key n (nextInTurn qs q) s
    | some c =>
      let x := s.queue q
      if x.deficit < c.size then
        roundRobin qs dest key n (nextInTurn qs q) (s.setQueue q { x with deficit := x.deficit + s.qQuantum q })
      else
        let s1 := (s.setQueue q { x with deficit := x.deficit - c.size }).takeHead q
        some (c, s1.setXing { s1.xing with turn := Store.set (fun _ => 0) s1.xing.turn key q })

/-- The scheduler's choice among a destination's queues, strict priority first; the Alley queue comes last. -/
def choose (s : State) (dest : Nat) : Option (Copy × State) :=
  let eligible := (s.queuesOf dest).filter fun q => (s.eligibleHead q dest).isSome
  let ready := eligible.filter fun q => !s.isAlleyQueue q dest
  match [7, 6, 5, 4, 3, 2, 1, 0].find? fun l => ready.any fun q => s.qLevel q == l with
  | some l =>
    let qs := ready.filter fun q => s.qLevel q == l
    let key := dest * 8 + l
    let last := Store.get (fun _ => 0) s.xing.turn key
    let first := if qs.contains last then last else nextInTurn qs last
    roundRobin qs dest key (1100 * (qs.length + 1)) first s
  | none =>
    match eligible.head? with
    | some q => (s.eligibleHead q dest).map fun c => (c, s.takeHead q)
    | none => none

/-- A destination other than a port has room: a chip destination while fewer than eight FRAME messages wait at
the Crossing's node (log entry 26). -/
def hasRoom (s : State) (dest : Nat) : Bool :=
  if dest < 43 then true else decide ((s.nodeQueue 8).length < 8)

/-- The mode keeps a copy from leaving its port (R68). -/
def copyBarred (s : State) (c : Copy) : Bool :=
  match s.frame c.frame with
  | some x => s.modeBars x c.dest
  | none => false

/-- A destination takes its next copy, if a queue has one for it; one that the mode bars is dropped at egress. -/
def serve (s : State) (dest : Nat) : State :=
  match s.choose dest with
  | some (c, s1) => (if s1.copyBarred c then s1.dropCopy c 0x08 true else s1.deliver c).settleQueue c.queue
  | none => s

/-- A port's MAC can accept a new frame; under PLCA only within its opportunity's burst. -/
def macFree (s : State) (n : Nat) : Bool :=
  s.ethMaySend n && !s.isThru n && (s.port n).sending.isNone

/-! ### Enqueue (R233, R241, R245) -/

/-- The oldest admitted copy is enqueued, on chip or in spill. -/
def enqueue (s : State) : State :=
  match s.xing.admitted with
  | [] => s
  | (c, spill) :: rest =>
    let c := { c with enqueued := s.cycle, joined := s.lineTime, seq := s.xing.nextSeq }
    let s := s.setXing { s.xing with admitted := rest, nextSeq := s.xing.nextSeq + 1 }
    let q := s.queue c.queue
    if spill then
      match s.frame c.frame with
      | some x => s.setQueue c.queue { q with spill := q.spill ++ [{ copy := c, frame := x, bytes := none }] }
      | none => s
    else (s.setQueue c.queue { q with copies := q.copies ++ [c] }).settleHead c.queue q.copies.head?

/-- A copy of a queue read back from spill takes its place in the queue's order (R236). -/
def rejoin (s : State) (q : Nat) (c : Copy) : State :=
  let x := s.queue q
  s.setQueue q { x with
    copies := (x.copies.filter fun y => decide (y.seq < c.seq)) ++ c :: x.copies.filter fun y => !decide (y.seq < c.seq) }

/-- The oldest copy of a queue whose write to spill is under way has been written: its cells are freed. While MCLK is
lost the transfer is discarded (R24), and the copy with it (log entry 92). -/
def spillWritten (s : State) (q : Nat) : State :=
  let x := s.queue q
  match x.spill.find? fun y => y.bytes.isNone with
  | some y =>
    match s.frame y.copy.frame with
    | some f =>
      if s.clockGone 3 then
        ((s.through 3 id).setQueue q { x with spill := x.spill.filter (· != y) }).freeSpill y |>.dropCopy y.copy 0x0E true
      else
      let bs := s.frameBytes f
      let mark (z : Spilled) : Spilled := if z == y then { z with bytes := some bs } else z
      (s.setQueue q { x with spill := x.spill.map mark }).dropRef y.copy.frame
    | none => s
  | none => s

/-- The oldest spilled copy of a queue is read back into fresh cells: into its own frame where the cells of that
are gone, else into a frame of its own; without free cells it is dropped. -/
def readBack (s : State) (q : Nat) : State :=
  let x := s.queue q
  match x.spill with
  | y :: rest =>
    match y.bytes with
    | some bs =>
      if s.queueCells q < fieldGet (s.tbl 5 q).d1 0 16 / 2 then
        let s := (s.setQueue q { x with spill := rest }).freeSpill y
        if s.clockGone 3 then (s.through 3 id).dropCopy y.copy 0x0E false
        else if s.freeCells < cellsFor bs.length ∨ s.flag Fld.XING_STAT_FATAL then s.dropCopy y.copy 0x0E false
        else
          match s.frame y.copy.frame with
          | some f =>
            let s :=
              if f.refs = 0 ∧ f.leases = 0 then
                let t := takeCells y.copy.frame (cellsFor bs.length) s
                let z := { f with cells := t.1, refs := 1 }
                let s := (t.2.setFrame y.copy.frame (some z)).frameWrite z 0 bs
                s.rejoin q y.copy
              else
                let t := s.storeFrame bs { f with cells := [], copies := 1, refs := 1, leases := 0 }
                let s := t.2.setFrame y.copy.frame (some { f with copies := f.copies - 1 })
                let s := if s.flag Fld.XING_GEN_STAT_OLD_LIVE ∧ f.gen ≠ s.curGen ∧ 1 < f.copies then
                  s.setFld Fld.XING_GEN_STAT_OLD_INFLIGHT (s.fld Fld.XING_GEN_STAT_OLD_INFLIGHT + 1)
                else s
                s.rejoin q { y.copy with frame := t.1 }
            s.settleHead q x.copies.head?
          | none => s
      else s
    | none => s
  | [] => s

/-! ### Table access (R219) -/

/-- XING_TBL_CMD after a command. -/
def tblResult (s : State) (who : Ident) (code : Nat) : State :=
  (s.setReg Reg.XING_TBL_CMD (BitVec.ofNat 32 (4 + 65536 * code))).countCode who code

/-- DATA0–DATA3 as an entry, and an entry loaded into them. -/
def tblData (s : State) : Entry :=
  ⟨s.reg (Reg.XING_TBL_DATA 0), s.reg (Reg.XING_TBL_DATA 1), s.reg (Reg.XING_TBL_DATA 2), s.reg (Reg.XING_TBL_DATA 3)⟩

/-- An entry loaded into DATA0–DATA3. -/
def loadTblData (s : State) (e : Entry) : State :=
  (((s.setReg (Reg.XING_TBL_DATA 0) e.d0).setReg (Reg.XING_TBL_DATA 1) e.d1).setReg (Reg.XING_TBL_DATA 2) e.d2).setReg
    (Reg.XING_TBL_DATA 3) e.d3

/-- `who` holds the OPEN transaction of the tables. -/
def holdsXing (s : State) (who : Ident) : Bool := s.txnState .xing == 1 && s.txnHolder .xing == who

/-! ### The Lamplighter -/

/-- A lost cell is examined: it is marked, or freed and counted when it was marked before. -/
def examine (s : State) (c : Nat) : State :=
  match s.xing.cells.find? fun p => p.1 == c with
  | some (_, .lost r true) =>
    let s1 := (s.setXing { s.xing with cells := Store.erase s.xing.cells c }).setFree (s.freeCells + 1)
    s1.count (if r then Fld.XING_LAMP_STAT_LEASE_FREED else Fld.XING_LAMP_STAT_ORPHAN)
  | some (_, .lost r false) => s.setXing { s.xing with cells := Store.insert s.xing.cells c (.lost r true) }
  | _ => s

/-- The next cell, and at the end of a round the count of free cells against the free list. -/
def lampNext (s : State) : State :=
  if s.xing.lamp + 1 < 32768 then s.setXing { s.xing with lamp := s.xing.lamp + 1 }
  else
    let s1 := (s.setXing { s.xing with lamp := 0 }).countWrap Fld.XING_LAMP_ROUND_ROUND
    if 32768 - s1.xing.cells.length = s1.freeCells then s1 else s1.xingFatal

end State

/-! ### The commands -/

/-- Source of a frame, and the cycle in which it was ready. -/
def State.sourceOf (s : State) (f : Nat) : Nat := match s.frame f with | some x => x.source | none => 0
def State.readyOf (s : State) (f : Nat) : Nat := match s.frame f with | some x => x.ready | none => 0

/-- The frame whose classification starts next: the oldest, or, of those ready in its cycle, the one whose source
follows the last in rotation (R226). -/
def State.nextArrived (s : State) : Option Nat :=
  match s.xing.arrived with
  | [] => none
  | f :: rest =>
    let turn (g : Nat) : Nat := (s.sourceOf g + 44 - (s.xing.lastSource + 1) % 44) % 44
    some ((rest.filter fun g => s.readyOf g == s.readyOf f).foldl (fun b g => if turn g < turn b then g else b) f)

/-- The next frame is classified. -/
def execClassification (s : State) : Answer :=
  .next (s.clocked 0 fun s => (match s.nextArrived with
    | none => s
    | some f =>
      (s.setXing { s.xing with arrived := s.xing.arrived.filter (· != f), lastSource := s.sourceOf f }).classify f))

/-- The oldest admitted copy is enqueued. -/
def execCopyEnqueue (s : State) : Answer := .next (s.clocked 0 fun s => s.enqueue)

/-- A destination that can take a frame makes its choice. A port under PLCA sends here the further frames of its
opportunity; one that finds none ends it. -/
def execDestinationChoice (dest : Nat) (s : State) : Answer :=
  .next (s.clocked 0 fun s => (
    if dest < 34 then
      if s.macFree dest then
        if State.isT1s dest ∧ s.t1sMode dest ≠ 2 then
          if (s.port dest).burst = 0 then s
          else
            let s1 := (s.setPort dest { s.port dest with burst := (s.port dest).burst - 1 }).serve dest
            if (s1.port dest).sending.isSome then s1 else s1.setPort dest { s1.port dest with burst := 0 }
        else s.serve dest
      else s
    else if s.hasRoom dest then s.serve dest else s))

/-- A transmit opportunity of a PLCA port's ring, counted from the beacon in every mode where the port is active: the
node's own lets it send (R264). A coordinator that sends no beacon has no opportunities. -/
def execTransmitOpportunity (n : Nat) (s : State) : Answer :=
  .next (s.clocked 0 fun s => (
    let p := s.port n
    if State.isT1s n ∧ s.ethActive n ∧ (s.t1sMode n = 0 ∨
        (s.t1sMode n = 1 ∧ s.ethMaySend n ∧ p.opp < s.fld (Fld.ETH_PLCA_NODE_CNT n))) then
      let s1 := s.setPort n { p with opp := p.opp + 1, burst := 0 }
      if p.opp = s.fld (Fld.ETH_PLCA_NODE_ID n) ∧ s.ethMaySend n then
        let burst := s.fld (Fld.ETH_PLCA_BURST_CNT n)
        if p.sending.isSome then s1.setPort n { s1.port n with deferred := false, burst := burst }
        else
          let s2 := s1.serve n
          if (s2.port n).sending.isSome then s2.setPort n { s2.port n with burst := burst } else s2
      else s1
    else s))

/-- The last byte of the copy in transmission passes to the egress MAC: it is sent, and the copy ends. -/
def execTransmitEnd (n : Nat) (s : State) : Answer :=
  .next (s.clocked 0 fun s => (
    let p := s.port n
    match p.sending with
    | some c =>
      if p.deferred then s
      else
        match s.frame c.frame with
        | some x =>
          let bs := s.egressBytes x c
          (((s.clearSending n).countTx n bs).emit (.frame n bs)).endCopy c.frame true
        | none => s.clearSending n
    | none => s))

/-- A copy's window may still rest on a schedule of its port that ended at `t`. -/
def State.looksBack (s : State) (n : Nat) (t : Instant) : Bool :=
  s.xing.queues.any fun p => (p.2.copies ++ p.2.spill.map (·.copy)).any fun c => c.dest == n && decide (c.joined < t)

/-- An entry of a port's gate control list starts. The gates follow line time; a committed schedule whose first
cycle has started takes the place of those before it (R246), once no copy's window looks back to them. -/
def execGateEvent (n : Nat) (s : State) : Answer :=
  .next (s.clocked 0 fun s => (
    let past := (s.gates n).line.filter fun p => decide (p.1 ≤ s.lineTime)
    match past.getLast? with
    | some p =>
      let kept : Gates := { line := p :: (s.gates n).line.filter fun p => !decide (p.1 ≤ s.lineTime) }
      if s.looksBack n p.1 then s
      else s.setXing { s.xing with gates := Store.set (fun _ => {}) s.xing.gates n kept }
    | none => s))

/-- The window of a copy of a queue that is time-triggered now has closed (R223, R245). -/
def State.windowClosed (s : State) (q : Nat) (c : Copy) : Bool :=
  let e := s.tbl 5 q
  fieldGet e.d0 12 1 == 1 && !c.alley && !s.isAlleyQueue q c.dest && decide (c.dest < 34) &&
    (s.ttWindow c.dest (fieldGet e.d0 9 3) c.joined).any fun t => decide (t ≤ s.lineTime)

/-- Copies of a TT queue whose window has closed are dropped (R245). -/
def execGateWindowClose (q : Nat) (s : State) : Answer :=
  .next (s.clocked 0 fun s => (
    let x := s.queue q
    let closed : Copy → Bool := s.windowClosed q
    ((x.copies.filter closed).foldl (fun s c => s.dropCopy c 0x0C true)
      (s.setQueue q { x with copies := x.copies.filter fun c => !closed c })).settleHead q x.copies.head?))

/-- A queue's oldest write to spill completes. -/
def execSpillWriteDone (q : Nat) (s : State) : Answer := .next (s.clocked 0 fun s => (s.spillWritten q))

/-- A queue's oldest spilled copy is read back. -/
def execSpillReadBack (q : Nat) (s : State) : Answer := .next (s.clocked 0 fun s => (s.readBack q))

/-- The old generation retires (R224). -/
def execOldGenerationRetire (s : State) : Answer :=
  .next (s.clocked 0 fun s => (if s.flag Fld.XING_GEN_STAT_OLD_LIVE ∧ s.fld Fld.XING_GEN_STAT_OLD_INFLIGHT = 0 then
    (s.setXing { s.xing with old := [], oldMeters := [], syncAt := s.cycle + (s.xing.changed * 8 + 4) / 5 }).setFlag
      Fld.XING_GEN_STAT_OLD_LIVE false
  else s))

/-- The spare bank agrees with the newest generation. -/
def execBankSyncDone (s : State) : Answer :=
  .next (s.clocked 0 fun s => (if !s.flag Fld.XING_GEN_STAT_OLD_LIVE ∧ s.xing.syncAt ≤ s.cycle then
    s.setFlag Fld.XING_GEN_STAT_SYNC true
  else s))

/-- Table command READ. -/
def execXingTblRead (who : Ident) (s : State) : Answer :=
  .next (s.served who fun s => (
    let t := s.fld Fld.XING_TBL_ADDR_TABLE
    let i := s.fld Fld.XING_TBL_ADDR_INDEX
    let old := s.flag Fld.XING_TBL_ADDR_OLD
    if tableSize t ≤ i then s.tblResult who Code.badArg
    else if s.holdsXing who then
      (s.loadTblData ((Store.get (fun _ => none) s.xing.shadow (t * 65536 + i)).getD (s.tbl t i))).tblResult who Code.ok
    else if old ∧ !s.flag Fld.XING_GEN_STAT_OLD_LIVE then s.tblResult who Code.stale
    else
      (s.loadTblData (if old then Store.get (fun _ => {}) s.xing.old (t * 65536 + i) else s.tbl t i)).tblResult who
        Code.ok))

/-- Table command WRITE. -/
def execXingTblWrite (who : Ident) (s : State) : Answer :=
  .next (s.served who fun s => (
    let t := s.fld Fld.XING_TBL_ADDR_TABLE
    let i := s.fld Fld.XING_TBL_ADDR_INDEX
    let k := t * 65536 + i
    if tableSize t ≤ i then s.tblResult who Code.badArg
    else if !s.holdsXing who then (s.setFlag Fld.XING_STAT_CFG_ERR true).tblResult who Code.wrongState
    else if 8192 ≤ s.xingShadowSize ∧ (Store.get (fun _ => none) s.xing.shadow k).isNone then
      (s.setFlag Fld.XING_STAT_SHADOW_OVF true).tblResult who Code.noResource
    else
      (s.setXing { s.xing with shadow := Store.set (fun _ => none) s.xing.shadow k (some s.tblData) }).tblResult who
        Code.ok))

/-- The Lamplighter examines the next cell. -/
def execLamplighterExamine (s : State) : Answer := .next (s.clocked 0 fun s => ((s.examine s.xing.lamp).lampNext))

end Sys2Proof.Machine
end

