-- ==== Sys2Proof/Machine/Commit.lean ====
section
/-!
DEFINITION. Configuration transactions (R70–R76): the verbs, what COMMIT validates for each unit, the
application at the unit's boundary, and writes to the shadow (R73).
-/

namespace Sys2Proof.Machine

namespace State

/-! ### Rights and errors of a unit -/

/-- An engine of this chip that the unit's window refuses: ports to other districts' engines (R259), RND and SRU
windows of other districts (R163, R418). -/
def txnRefuses (s : State) (u : TxnUnit) (who : Ident) : Bool :=
  Ident.isEngine who && (match u with
    | .xing => false
    | .ave => false
    | .rnd d => Ident.engine who / 12 != d
    | .sru d => Ident.engine who / 12 != d
    | .eth n => !s.boundPort (Ident.engine who / 12) n)

/-- The unit's CFG_ERR. -/
def txnErr (s : State) : TxnUnit → State
  | .xing => s.setFlag Fld.XING_STAT_CFG_ERR true
  | .ave => s.setFlag Fld.AVE_STAT_CFG_ERR true
  | .rnd d => s.setFlag (Fld.RND_STAT_CFG_ERR d) true
  | .eth n => s.setFlag (Fld.ETH_STAT_CFG_ERR n) true
  | .sru d => s.setFlag (Fld.SRU_STAT_CFG_ERR d) true

/-- A verb or a shadowed write of an identity reaches the unit, if the unit is present and the identity may write. -/
def txnReach (s : State) (u : TxnUnit) (who : Ident) (a : Nat) (f : State → State) : State :=
  if !txnPresent s.variant u then s.absentHit a true
  else if s.txnRefuses u who then s.refuseStore who a
  else f s

/-! ### Round tables (R153, R157, R166) -/

/-- Bindings of a district: ports 0–33, controllers from 64, lines from 96. -/
def bindings (rd : Nat → Word) (d : Nat) : List Nat :=
  ((List.range 32).filter fun n => (rd (Reg.RND_BIND_ETH0 d)).getLsbD n) ++
    (((List.range 2).filter fun n => (rd (Reg.RND_BIND_ETH1 d)).getLsbD n).map (· + 32)) ++
    (((List.range 32).filter fun n => (rd (Reg.RND_BIND_CS d)).getLsbD n).map (· + 64))

/-- Registers of a district as they will be once an application under way has ended. -/
def comingReg (s : State) (d : Nat) : Nat → Word := if s.txnState (.rnd d) = 2 then s.shadowReg else s.reg

/-- A binding is one of another district, live or APPLYING (R157). -/
def boundElsewhere (s : State) (rd : Nat → Word) (d : Nat) : Bool :=
  (List.range s.variant.districts).any fun k =>
    k != d && ((bindings rd d).any fun u => (bindings s.reg k).contains u || (bindings (s.comingReg k) k).contains u)

/-- Bounds of an enabled LOCK region of a configuration, in units of 256 bytes. -/
def lockSpan (rd : Nat → Word) (d r : Nat) : Nat × Nat := (rdFld rd (Fld.RND_LOCK_BASE d r), rdFld rd (Fld.RND_LOCK_SIZE d r))

/-- Enabled regions lie within 4 MiB and do not overlap (R153). -/
def locksGood (rd : Nat → Word) (d : Nat) : Bool :=
  (List.range 64).all fun r =>
    let x := lockSpan rd d r
    x.2 == 0 || (decide (x.1 + x.2 ≤ 16384) && (List.range r).all fun q =>
      let y := lockSpan rd d q
      y.2 == 0 || decide (x.1 + x.2 ≤ y.1 ∨ y.1 + y.2 ≤ x.1))

/-- A Round table passes R166 but for its bindings. -/
def rndGood (rd : Nat → Word) (d : Nat) : Bool :=
  let p := rdFld rd (Fld.RND_PERIOD_PERIOD d)
  decide (160 ≤ p ∧ p ≤ 4000) && decide (rdFld rd (Fld.RND_PERIOD_PHASE d) < p) && locksGood rd d &&
    (List.range 32).all fun i =>
      let o := rdFld rd (Fld.RND_SLICE_OWNER d (i + 16))
      decide (o ≤ 15) || o == 31

/-- The code of a COMMIT of district `d`'s table. -/
def rndCommitCode (s : State) (d : Nat) : Nat :=
  firstCode
    [(!rndGood s.shadowReg d || s.boundElsewhere s.shadowReg d, Code.badArg),
      (bindings s.shadowReg d != bindings s.reg d && s.mode != Mode.load, Code.wrongState)]

/-- Pending writes and operations that the table no longer permits are discarded and counted (R166). -/
def dropPending (s : State) (d : Nat) : State :=
  let x := s.dist d
  let good (k : Nat) : Bool := s.mayWriteWord d (k / 64) (k % 64)
  let gone := (x.pendW.filter fun p => !good p.1).length
  (s.setDist d { x with pendW := x.pendW.filter fun p => good p.1 }).count (Fld.RND_FAULT_DISCARD d) gone

/-- Leases of regions that are disabled and of slices no longer LEASED are reclaimed (R153, R164). -/
def reclaimTables (s : State) (d : Nat) : State :=
  (s.leases.filter fun l => l.district == d &&
    ((l.type == 3 && s.fld (Fld.RND_LOCK_SIZE d l.index) == 0) || (l.type == 7 && s.sliceOwner d l.index != 31))).foldl
    (fun s l => s.reclaim l) s

/-- Units whose binding has changed begin anew, and a controller's object locks are reclaimed (R266, R298, R320). -/
def rebind (s : State) (old new : List Nat) : State :=
  (List.range 34 ++ (List.range 32).map (· + 64)).foldl (fun (s : State) u =>
    if old.contains u == new.contains u then s
    else if u < 34 then s.resetWords u
    else if u < 80 then
      (s.leases.filter fun (l : Lease) => l.type == 4 && l.index / 256 == u - 64).foldl State.reclaim (s.resetCan (u - 64))
    else s.resetSer (u - 80)) s

/-- The committed Round table becomes live; one that moves the phase point tells the start that is due (R165). -/
def applyRnd (s0 : State) (d : Nat) : State :=
  let s := (s0.applyShadow (.rnd d)).countWrap (Fld.RND_STAT_GEN d)
  let s := ((s.dropPending d).reclaimTables d).rebind (bindings s0.reg d) (bindings s.reg d)
  let moved := s.fld (Fld.RND_PERIOD_PERIOD d) != s0.fld (Fld.RND_PERIOD_PERIOD d) ||
    s.fld (Fld.RND_PERIOD_PHASE d) != s0.fld (Fld.RND_PERIOD_PHASE d)
  let s := s.setFlag (Fld.RND_STAT_SYNCED d) (s.flag (Fld.RND_CTRL_RUN d) && s.onPoints d)
  let s := if moved && (s.dist d).due.isSome then s.setDist d { s.dist d with moved := true } else s
  s.endApply (.rnd d)

/-! ### Verbs -/

/-- The code of a COMMIT by the holder of an OPEN transaction. -/
def commitCode (s : State) : TxnUnit → Nat
  | .xing => s.xingCommitCode
  | .ave => s.aveCommitCode
  | .rnd d => s.rndCommitCode d
  | .eth n => if s.ethGood n then Code.ok else Code.badArg
  | .sru d => if s.sruGood s.shadowReg d then Code.ok else Code.badArg

/-- The unit's boundary is here (Table MODE-18). -/
def atBoundary (s : State) : TxnUnit → Bool
  | .xing => true
  | .ave => !s.ave.started
  | .rnd d => (s.dist d).due.isNone && (s.dist d).flight.isNone
  | .eth n => s.ethIdle n
  | .sru _ => true

/-- A committed shadow is applied. -/
def applyTxn (s : State) : TxnUnit → State
  | .xing => s
  | .ave => s.applyAve
  | .rnd d => s.applyRnd d
  | .eth n => (s.applyEth n).endApply (.eth n)
  | .sru d => (s.applyShadow (.sru d)).endApply (.sru d)

/-- The boundary falls in this cycle: it is here, or a start that it waits for is due (R75). -/
def boundaryNow (s : State) (u : TxnUnit) : Bool :=
  s.atBoundary u || (match u with
    | .ave => s.ave.started && decide (s.ave.cycleStart + s.ave.len ≤ s.cycle) &&
        s.aveAppliesAt (s.fld Fld.AVE_CYCLE_NUM_CYCLE + 1)
    | .rnd d => (s.dist d).flight.isNone && (s.dist d).due.any fun t => decide (t ≤ s.cycle)
    | _ => false)

/-- An application that falls in the cycle of a verb comes before it (R75). -/
def applyFirst (s : State) (u : TxnUnit) : State := if s.txnState u = 2 ∧ s.boundaryNow u then s.applyTxn u else s

/-- BEGIN (R71). -/
def beginTxn (s : State) (u : TxnUnit) (who : Ident) : State :=
  let code := firstCode [(s.mode == Mode.boot, Code.wrongState), (s.txnState u != 0, Code.busy)]
  if code = Code.ok then
    let l := txnLease u
    ((s.setTxn u 1 who).addLease { type := 8, district := l.1, index := l.2, holder := who }).txnResult u who code
  else s.txnResult u who code

/-- COMMIT (R74, R75). -/
def commitTxn (s : State) (u : TxnUnit) (who : Ident) : State :=
  if s.txnState u ≠ 1 ∨ s.txnHolder u ≠ who then s.txnResult u who Code.wrongState
  else
    let code := s.commitCode u
    if code ≠ Code.ok then s.txnResult u who code
    else if u = .xing then (s.flip.closeTxn u).txnResult u who Code.ok
    else
      let s1 := (s.setTxn u 2 who).txnResult u who Code.pending
      if s1.atBoundary u then s1.applyTxn u else s1

/-- ROLLBACK (R74). -/
def rollback (s : State) (u : TxnUnit) (who : Ident) : State :=
  if s.txnState u = 1 ∧ (s.txnHolder u = who ∨ Ident.isSup who) then (s.rollbackTxn u).txnResult u who Code.ok
  else s.txnResult u who Code.wrongState

/-! ### The shadow (R73, R220) -/

/-- The register is one of the gateway of an absent district. -/
def gatewayGone (v : Variant) (a : Nat) : Bool :=
  decide (0x601000 ≤ a ∧ a < 0x601800 ∧ v.districts ≤ (a - 0x601000) / 0x100)

/-- Bits of present units in a binding register (R156). -/
def boundMask (v : Variant) (a : Nat) : Word :=
  let d := (a - Reg.RND_BIND_ETH0 0) / 0x100000
  if a = Reg.RND_BIND_ETH0 d then BitVec.ofNat 32 (v.cap 1)
  else if a = Reg.RND_BIND_ETH1 d then BitVec.ofNat 32 (v.cap 3 % 4)
  else if a = Reg.RND_BIND_CS d then BitVec.ofNat 32 (v.cap 2)
  else 0xFFFFFFFF

/-- Bits of a register that writes may set; those of absent units in a binding register read 0. -/
def writeMask (v : Variant) (a : Nat) : Word :=
  match regRow a with
  | some r => BitVec.ofNat 32 r.rw &&& boundMask v a
  | none => 0

/-- The Crossing's shadow is full for a register that is not in it. -/
def shadowFull (s : State) (u : TxnUnit) (a : Nat) : Bool :=
  u == .xing && decide (8192 ≤ s.xingShadowSize) && !(s.shadow.any fun p => p.1 == a)

/-- A write to a shadowed register: the holder's goes to the shadow, and any other is discarded with CFG_ERR. -/
def writeShadow (s : State) (u : TxnUnit) (who : Ident) (a : Nat) (v : Word) : State :=
  if s.txnState u = 1 ∧ s.txnHolder u = who then
    if s.shadowFull u a then s.setFlag Fld.XING_STAT_SHADOW_OVF true else s.setShadow a (v &&& writeMask s.variant a)
  else s.txnErr u

/-! ### Run control of the Round (R165, R166) -/

/-- RND_CTRL.RUN becomes 0 in LOAD: a frame in passage comes back, and no other starts; a table that waits is applied
at once when none is in passage. -/
def stopRound (s : State) (d : Nat) : State :=
  let s := s.roundStop d
  if s.txnState (.rnd d) = 2 ∧ (s.dist d).flight.isNone then s.applyRnd d else s

end State

/-- ROUND_RUN: RND_CTRL.RUN is written 1 (R165); a running Round goes on. -/
def execRoundRun (d : Nat) (s : State) : Answer :=
  .next (s.live fun s => (if s.variant.districts ≤ d then s.absentHit (Reg.RND_CTRL d) true
  else if s.flag (Fld.RND_CTRL_RUN d) then s else s.roundRun d))

/-- ROUND_STOP: RND_CTRL.RUN is written 0; outside LOAD the write is ignored and counted (R165). An engine of another
district is refused (R163). -/
def execRoundStop (d : Nat) (who : Ident) (s : State) : Answer :=
  .next (s.served who fun s => s.txnReach (.rnd d) who (Reg.RND_CTRL d) fun s =>
    if s.mode = Mode.load then s.stopRound d else s.wrongState who)

/-- BEGIN (R71). -/
def execBegin (u : TxnUnit) (who : Ident) (s : State) : Answer :=
  .next (s.served who fun s => (s.txnReach u who (txnCtrl u) fun s => (s.applyFirst u).beginTxn u who))

/-- COMMIT (R75). -/
def execCommit (u : TxnUnit) (who : Ident) (s : State) : Answer :=
  .next (s.served who fun s => (s.txnReach u who (txnCtrl u) fun s => (s.applyFirst u).commitTxn u who))

/-- ROLLBACK (R74). -/
def execRollback (u : TxnUnit) (who : Ident) (s : State) : Answer :=
  .next (s.served who fun s => (s.txnReach u who (txnCtrl u) fun s => (s.applyFirst u).rollback u who))

/-- TXN_APPLY (R75): a committed shadow is applied at its unit's boundary, once the boundary is here. An Avenue
schedule and a Round table that wait for a start apply there. -/
def execTxnApply (u : TxnUnit) (s : State) : Answer :=
  .next (s.live fun s => (if s.txnState u = 2 ∧ s.atBoundary u then s.applyTxn u else s))

/-- SHADOW_WRITE (R73): a write to a register that a configuration transaction shadows. -/
def execShadowWrite (who : Ident) (a : Nat) (v : Word) (s : State) : Answer :=
  .next (s.served who fun s => (
    match txnAt a with
    | some u =>
      if State.gatewayGone s.variant a then s.absentHit a true
      else s.txnReach u who a fun s => s.writeShadow u who a v
    | none => s))

end Sys2Proof.Machine
end

