-- ==== Sys2Proof/Machine/EngineAlu.lean ====
section
/-!
DEFINITION. Meanings of the arithmetic, logic, shift, compare and bit instructions (R90–R92), of the moves
and of the branches (R95). An instruction that may not issue leaves the state as it is.
-/

namespace Sys2Proof.Machine

namespace State

/-- Three-register form of class OP2: gd and ga in O1, gb in O2. -/
def alu3 (s : State) (e : Nat) (wide : Bool) (d a b : GReg) (f : Nat → Nat → Nat → Nat) : State :=
  s.issue e (pairForm wide (3 + bit wide) (3 + bit wide) [(d, 1 + bit wide), (a, 1 + bit wide), (b, 2 + bit wide)]) fun s =>
    (s.wr e wide d (f (opBits wide) (s.rd e wide a) (s.rd e wide b))).advance e (3 + bit wide)

/-- Four-register form with the second destination gc in O2, written last (R79). -/
def alu4 (s : State) (e : Nat) (wide : Bool) (d c a b : GReg) (f : Nat → Nat → Nat → Nat)
    (g : Nat → Nat → Nat → Bool) : State :=
  s.issue e (pairForm wide (3 + bit wide) (3 + bit wide) [(d, 1 + bit wide), (a, 1 + bit wide), (b, 2 + bit wide)]) fun s =>
    ((s.wr e wide d (f (opBits wide) (s.rd e wide a) (s.rd e wide b))).setGreg e c
      (BitVec.ofNat 32 (bit (g (opBits wide) (s.rd e wide a) (s.rd e wide b))))).advance e (3 + bit wide)

/-- Two-register form of class OP1. -/
def alu2 (s : State) (e : Nat) (wide : Bool) (d a : GReg) (f : Nat → Nat → Nat) : State :=
  s.issue e (pairForm wide (2 + bit wide) (2 + bit wide) [(d, 1 + bit wide), (a, 1 + bit wide)]) fun s =>
    (s.wr e wide d (f (opBits wide) (s.rd e wide a))).advance e (2 + bit wide)

/-- Register and signed immediate. -/
def aluImm (s : State) (e : Nat) (wide : Bool) (d a : GReg) (imm : Imm) (f : Nat → Nat → Nat → Nat) : State :=
  s.issue e (pairForm wide (2 + bit wide + immPrefix imm) (immLen imm + bit wide)
    [(d, 1 + bit wide + immPrefix imm), (a, 1 + bit wide + immPrefix imm)]) fun s =>
    (s.wr e wide d (f (opBits wide) (s.rd e wide a) (immValue (opBits wide) imm))).advance e (immLen imm + bit wide)

/-- Shift or rotate by an 8-bit count. -/
def shiftImm (s : State) (e : Nat) (wide : Bool) (d a : GReg) (k : BitVec 8) (f : Nat → Nat → Nat → Nat) : State :=
  s.issue e (pairForm wide (2 + bit wide) (3 + bit wide) [(d, 1 + bit wide), (a, 1 + bit wide)]) fun s =>
    (s.wr e wide d (f (opBits wide) (s.rd e wide a) k.toNat)).advance e (3 + bit wide)

/-- Shift or rotate by a register count: gb is a single 32-bit register. -/
def shiftReg (s : State) (e : Nat) (wide : Bool) (d a b : GReg) (f : Nat → Nat → Nat → Nat) : State :=
  s.issue e (pairForm wide (3 + bit wide) (3 + bit wide) [(d, 1 + bit wide), (a, 1 + bit wide)]) fun s =>
    (s.wr e wide d (f (opBits wide) (s.rd e wide a) (s.greg e b).toNat)).advance e (3 + bit wide)

/-- Compare: 0 or 1 into the single register gd, which may be odd under WIDE. -/
def compare (s : State) (e : Nat) (wide : Bool) (d a b : GReg) (f : Nat → Nat → Nat → Bool) : State :=
  s.issue e (pairForm wide (3 + bit wide) (3 + bit wide) [(a, 1 + bit wide), (b, 2 + bit wide)]) fun s =>
    (s.setGreg e d (BitVec.ofNat 32 (bit (f (opBits wide) (s.rd e wide a) (s.rd e wide b))))).advance e (3 + bit wide)

/-- Compare with a 16-bit immediate. -/
def compareImm (s : State) (e : Nat) (wide : Bool) (d a : GReg) (imm : Imm) (f : Nat → Nat → Nat → Bool) : State :=
  s.issue e (pairForm wide (2 + bit wide + immPrefix imm) (immLen imm + bit wide) [(a, 1 + bit wide + immPrefix imm)]) fun s =>
    (s.setGreg e d
      (BitVec.ofNat 32 (bit (f (opBits wide) (s.rd e wide a) (immValue (opBits wide) imm))))).advance e
        (immLen imm + bit wide)

/-- BFX and BFI: field16 with bits 15–13 zero, or ILLEGAL IMM_RSV at the field's high byte (R92, R110). -/
def bitField (s : State) (e : Nat) (wide : Bool) (d a : GReg) (field : BitVec 16)
    (f : Nat → Nat → Nat → BitVec 16 → Nat) : State :=
  let len := 4 + bit wide
  let bad : Option Bad :=
    if 0x2000 ≤ field.toNat then some { reason := 0x8, byte := 3 + bit wide, need := len }
    else pairBad wide len [(d, 1 + bit wide), (a, 1 + bit wide)]
  s.issue e { len := len, bad := bad } fun s =>
    (s.wr e wide d (f (opBits wide) (s.rd e wide d) (s.rd e wide a) field)).advance e len

/-- A branch that is taken: the target is the next instruction's address plus the displacement (R95). -/
def branch (s : State) (e len : Nat) (disp : Int) : State :=
  s.goto e (s.pc e + BitVec.ofNat 32 len + BitVec.ofInt 32 disp)

end State

/-- NOP (R87). -/
def execNop (e : Nat) (s : State) : Answer :=
  .next (s.issue e (plainForm 2) fun s => s.advance e 2)

/-- MOV (R90). -/
def execMov (e : Nat) (wide : Bool) (d a : GReg) (s : State) : Answer :=
  .next (s.alu2 e wide d a fun _ a => a)

/-- MOVI (R90, R85). -/
def execMovi (e : Nat) (wide : Bool) (d : GReg) (imm : Imm) (s : State) : Answer :=
  .next (s.issue e (pairForm wide (2 + bit wide + immPrefix imm) (immLen imm + bit wide) [(d, 1 + bit wide + immPrefix imm)]) fun s =>
    (s.wr e wide d (immValue (opBits wide) imm)).advance e (immLen imm + bit wide))

/-- ADD (R90). -/
def execAdd (e : Nat) (wide : Bool) (d a b : GReg) (s : State) : Answer :=
  .next (s.alu3 e wide d a b Alu.add)

/-- SUB (R90). -/
def execSub (e : Nat) (wide : Bool) (d a b : GReg) (s : State) : Answer :=
  .next (s.alu3 e wide d a b Alu.sub)

/-- ADDC: the carry goes to gc (R90). -/
def execAddc (e : Nat) (wide : Bool) (d c a b : GReg) (s : State) : Answer :=
  .next (s.alu4 e wide d c a b Alu.add Alu.carry)

/-- SUBB: the borrow goes to gc (R90). -/
def execSubb (e : Nat) (wide : Bool) (d c a b : GReg) (s : State) : Answer :=
  .next (s.alu4 e wide d c a b Alu.sub fun _ a b => Alu.borrow a b)

/-- ADDV: signed overflow goes to gc (R90). -/
def execAddv (e : Nat) (wide : Bool) (d c a b : GReg) (s : State) : Answer :=
  .next (s.alu4 e wide d c a b Alu.add fun n a b => Alu.overflow n (toSigned n a + toSigned n b))

/-- SUBV: signed overflow goes to gc (R90). -/
def execSubv (e : Nat) (wide : Bool) (d c a b : GReg) (s : State) : Answer :=
  .next (s.alu4 e wide d c a b Alu.sub fun n a b => Alu.overflow n (toSigned n a - toSigned n b))

/-- MUL (R90, R91). -/
def execMul (e : Nat) (wide : Bool) (d a b : GReg) (s : State) : Answer :=
  .next (s.alu3 e wide d a b Alu.mul)

/-- MULH (R90, R91). -/
def execMulh (e : Nat) (wide : Bool) (d a b : GReg) (s : State) : Answer :=
  .next (s.alu3 e wide d a b Alu.mulh)

/-- MULHU (R90, R91). -/
def execMulhu (e : Nat) (wide : Bool) (d a b : GReg) (s : State) : Answer :=
  .next (s.alu3 e wide d a b Alu.mulhu)

/-- DIV (R90, R91). -/
def execDiv (e : Nat) (wide : Bool) (d a b : GReg) (s : State) : Answer :=
  .next (s.alu3 e wide d a b Alu.div)

/-- DIVU (R90, R91). -/
def execDivu (e : Nat) (wide : Bool) (d a b : GReg) (s : State) : Answer :=
  .next (s.alu3 e wide d a b Alu.divu)

/-- REM (R90, R91). -/
def execRem (e : Nat) (wide : Bool) (d a b : GReg) (s : State) : Answer :=
  .next (s.alu3 e wide d a b Alu.rem)

/-- REMU (R90, R91). -/
def execRemu (e : Nat) (wide : Bool) (d a b : GReg) (s : State) : Answer :=
  .next (s.alu3 e wide d a b fun _ a b => Alu.remu a b)

/-- SATADD (R90, R91). -/
def execSatadd (e : Nat) (wide : Bool) (d a b : GReg) (s : State) : Answer :=
  .next (s.alu3 e wide d a b Alu.satadd)

/-- NEG (R90). -/
def execNeg (e : Nat) (wide : Bool) (d a : GReg) (s : State) : Answer :=
  .next (s.alu2 e wide d a Alu.neg)

/-- NEGV: 1 to gc for the most negative operand (R90). -/
def execNegv (e : Nat) (wide : Bool) (d c a : GReg) (s : State) : Answer :=
  .next (s.issue e (pairForm wide (3 + bit wide) (3 + bit wide) [(d, 1 + bit wide), (a, 1 + bit wide)]) fun s =>
    ((s.wr e wide d (Alu.neg (opBits wide) (s.rd e wide a))).setGreg e c
      (BitVec.ofNat 32 (bit (s.rd e wide a == Alu.minSigned (opBits wide))))).advance e (3 + bit wide))

/-- ADDI with simm16 or simm32 (R90). -/
def execAddi (e : Nat) (wide : Bool) (d a : GReg) (imm : Imm) (s : State) : Answer :=
  .next (s.aluImm e wide d a imm Alu.add)

/-- ANDI (R90). -/
def execAndi (e : Nat) (wide : Bool) (d a : GReg) (imm : BitVec 16) (ext : Bool) (s : State) : Answer :=
  .next (s.aluImm e wide d a (.i16 imm ext) fun _ a b => a &&& b)

/-- ORI (R90). -/
def execOri (e : Nat) (wide : Bool) (d a : GReg) (imm : BitVec 16) (ext : Bool) (s : State) : Answer :=
  .next (s.aluImm e wide d a (.i16 imm ext) fun _ a b => a ||| b)

/-- XORI (R90). -/
def execXori (e : Nat) (wide : Bool) (d a : GReg) (imm : BitVec 16) (ext : Bool) (s : State) : Answer :=
  .next (s.aluImm e wide d a (.i16 imm ext) fun _ a b => a ^^^ b)

/-- SHLI by an 8-bit count (R90). -/
def execShli (e : Nat) (wide : Bool) (d a : GReg) (k : BitVec 8) (s : State) : Answer :=
  .next (s.shiftImm e wide d a k Alu.shl)

/-- SHRI by an 8-bit count (R90). -/
def execShri (e : Nat) (wide : Bool) (d a : GReg) (k : BitVec 8) (s : State) : Answer :=
  .next (s.shiftImm e wide d a k Alu.shr)

/-- SARI by an 8-bit count (R90). -/
def execSari (e : Nat) (wide : Bool) (d a : GReg) (k : BitVec 8) (s : State) : Answer :=
  .next (s.shiftImm e wide d a k Alu.sar)

/-- ROLI by an 8-bit count (R90). -/
def execRoli (e : Nat) (wide : Bool) (d a : GReg) (k : BitVec 8) (s : State) : Answer :=
  .next (s.shiftImm e wide d a k Alu.rol)

/-- ROTI by an 8-bit count (R90). -/
def execRoti (e : Nat) (wide : Bool) (d a : GReg) (k : BitVec 8) (s : State) : Answer :=
  .next (s.shiftImm e wide d a k Alu.ror)

/-- MULI (R90). -/
def execMuli (e : Nat) (wide : Bool) (d a : GReg) (imm : BitVec 16) (ext : Bool) (s : State) : Answer :=
  .next (s.aluImm e wide d a (.i16 imm ext) Alu.mul)

/-- CEQI (R90). -/
def execCeqi (e : Nat) (wide : Bool) (d a : GReg) (imm : BitVec 16) (ext : Bool) (s : State) : Answer :=
  .next (s.compareImm e wide d a (.i16 imm ext) fun _ a b => a == b)

/-- CLTI (R90). -/
def execClti (e : Nat) (wide : Bool) (d a : GReg) (imm : BitVec 16) (ext : Bool) (s : State) : Answer :=
  .next (s.compareImm e wide d a (.i16 imm ext) fun n a b => decide (toSigned n a < toSigned n b))

/-- CLTUI (R90). -/
def execCltui (e : Nat) (wide : Bool) (d a : GReg) (imm : BitVec 16) (ext : Bool) (s : State) : Answer :=
  .next (s.compareImm e wide d a (.i16 imm ext) fun _ a b => decide (a < b))

/-- SATADDI (R90). -/
def execSataddi (e : Nat) (wide : Bool) (d a : GReg) (imm : BitVec 16) (ext : Bool) (s : State) : Answer :=
  .next (s.aluImm e wide d a (.i16 imm ext) Alu.satadd)

/-- AND (R90). -/
def execAnd (e : Nat) (wide : Bool) (d a b : GReg) (s : State) : Answer :=
  .next (s.alu3 e wide d a b fun _ a b => a &&& b)

/-- OR (R90). -/
def execOr (e : Nat) (wide : Bool) (d a b : GReg) (s : State) : Answer :=
  .next (s.alu3 e wide d a b fun _ a b => a ||| b)

/-- XOR (R90). -/
def execXor (e : Nat) (wide : Bool) (d a b : GReg) (s : State) : Answer :=
  .next (s.alu3 e wide d a b fun _ a b => a ^^^ b)

/-- ANDN (R90). -/
def execAndn (e : Nat) (wide : Bool) (d a b : GReg) (s : State) : Answer :=
  .next (s.alu3 e wide d a b Alu.andn)

/-- NOT (R90). -/
def execNot (e : Nat) (wide : Bool) (d a : GReg) (s : State) : Answer :=
  .next (s.alu2 e wide d a Alu.not)

/-- SHL by a register count (R90). -/
def execShl (e : Nat) (wide : Bool) (d a b : GReg) (s : State) : Answer :=
  .next (s.shiftReg e wide d a b Alu.shl)

/-- SHR by a register count (R90). -/
def execShr (e : Nat) (wide : Bool) (d a b : GReg) (s : State) : Answer :=
  .next (s.shiftReg e wide d a b Alu.shr)

/-- SAR by a register count (R90). -/
def execSar (e : Nat) (wide : Bool) (d a b : GReg) (s : State) : Answer :=
  .next (s.shiftReg e wide d a b Alu.sar)

/-- ROL by a register count (R90). -/
def execRol (e : Nat) (wide : Bool) (d a b : GReg) (s : State) : Answer :=
  .next (s.shiftReg e wide d a b Alu.rol)

/-- ROT by a register count (R90). -/
def execRot (e : Nat) (wide : Bool) (d a b : GReg) (s : State) : Answer :=
  .next (s.shiftReg e wide d a b Alu.ror)

/-- CEQ (R90). -/
def execCeq (e : Nat) (wide : Bool) (d a b : GReg) (s : State) : Answer :=
  .next (s.compare e wide d a b fun _ a b => a == b)

/-- CNE (R90). -/
def execCne (e : Nat) (wide : Bool) (d a b : GReg) (s : State) : Answer :=
  .next (s.compare e wide d a b fun _ a b => a != b)

/-- CLT (R90). -/
def execClt (e : Nat) (wide : Bool) (d a b : GReg) (s : State) : Answer :=
  .next (s.compare e wide d a b fun n a b => decide (toSigned n a < toSigned n b))

/-- CLTU (R90). -/
def execCltu (e : Nat) (wide : Bool) (d a b : GReg) (s : State) : Answer :=
  .next (s.compare e wide d a b fun _ a b => decide (a < b))

/-- CGE (R90). -/
def execCge (e : Nat) (wide : Bool) (d a b : GReg) (s : State) : Answer :=
  .next (s.compare e wide d a b fun n a b => decide (toSigned n b ≤ toSigned n a))

/-- CGEU (R90). -/
def execCgeu (e : Nat) (wide : Bool) (d a b : GReg) (s : State) : Answer :=
  .next (s.compare e wide d a b fun _ a b => decide (b ≤ a))

/-- SEL (R90). -/
def execSel (e : Nat) (wide : Bool) (d c a b : GReg) (s : State) : Answer :=
  .next (s.issue e (pairForm wide (3 + bit wide) (3 + bit wide) [(d, 1 + bit wide), (a, 2 + bit wide), (b, 2 + bit wide)]) fun s =>
    (s.wr e wide d (if s.greg e c ≠ 0 then s.rd e wide a else s.rd e wide b)).advance e (3 + bit wide))

/-- BFX (R92). -/
def execBfx (e : Nat) (wide : Bool) (d a : GReg) (field : BitVec 16) (s : State) : Answer :=
  .next (s.bitField e wide d a field fun n _ a f => Alu.bfx n a f)

/-- BFI (R92). -/
def execBfi (e : Nat) (wide : Bool) (d a : GReg) (field : BitVec 16) (s : State) : Answer :=
  .next (s.bitField e wide d a field fun n d a f => Alu.bfi n d a f)

/-- CLZ (R92). -/
def execClz (e : Nat) (wide : Bool) (d a : GReg) (s : State) : Answer :=
  .next (s.alu2 e wide d a Alu.clz)

/-- POPC (R92). -/
def execPopc (e : Nat) (wide : Bool) (d a : GReg) (s : State) : Answer :=
  .next (s.alu2 e wide d a Alu.popc)

/-- BSWAP (R92). -/
def execBswap (e : Nat) (wide : Bool) (d a : GReg) (s : State) : Answer :=
  .next (s.alu2 e wide d a fun n a => Alu.bswap (n / 8) a)

/-- LEA: gb + disp32, and no access (R93). -/
def execLea (e : Nat) (d b : GReg) (disp : BitVec 32) (s : State) : Answer :=
  .next (s.issue e (plainForm 6) fun s =>
    (s.setGreg e d (s.greg e b + disp)).advance e 6)

/-- B (R95). -/
def execB (e : Nat) (disp : Disp) (s : State) : Answer :=
  .next (s.issue e (plainForm (dispLen disp)) fun s => s.branch e (dispLen disp) (dispValue disp))

/-- BZ (R95). -/
def execBz (e : Nat) (a : GReg) (disp : Disp) (s : State) : Answer :=
  .next (s.issue e (plainForm (dispLen disp)) fun s =>
    if s.greg e a = 0 then s.branch e (dispLen disp) (dispValue disp) else s.advance e (dispLen disp))

/-- BNZ (R95). -/
def execBnz (e : Nat) (a : GReg) (disp : Disp) (s : State) : Answer :=
  .next (s.issue e (plainForm (dispLen disp)) fun s =>
    if s.greg e a ≠ 0 then s.branch e (dispLen disp) (dispValue disp) else s.advance e (dispLen disp))

/-- CALL (R95, R112). -/
def execCall (e : Nat) (disp : Disp) (s : State) : Answer :=
  .next (s.issue e (plainForm (dispLen disp)) fun s =>
    (s.setGreg e 14 (s.pc e + BitVec.ofNat 32 (dispLen disp))).branch e (dispLen disp) (dispValue disp))

/-- BR (R95). -/
def execBr (e : Nat) (a : GReg) (s : State) : Answer :=
  .next (s.issue e (plainForm 2) fun s => s.goto e (s.greg e a))

/-- CALLR reads ga before it writes g14 (R95). -/
def execCallr (e : Nat) (a : GReg) (s : State) : Answer :=
  .next (s.issue e (plainForm 2) fun s =>
    (s.setGreg e 14 (s.pc e + 2)).goto e (s.greg e a))

/-- RET behaves as BR g14 (R112). -/
def execRet (e : Nat) (s : State) : Answer :=
  .next (s.issue e (plainForm 2) fun s => s.goto e (s.greg e 14))

end Sys2Proof.Machine
end

