-- ==== Sys2Proof/Machine/Redundancy.lean ====
section
/-!
DEFINITION. Twins, spares and fail-over (chapter 15): pairs and their states, heartbeat monitoring on both paths,
the declaration of a failure with its reclaim and the start of a spare, checkpoints in MRAM and the twin commands.
-/

namespace Sys2Proof.Machine

namespace State

/-! ### States of a pair (R422) -/

/-- RED_PSTAT.STATE of a pair (Table RED-1). -/
def pairState (s : State) (p : Nat) : Nat := s.fld (Fld.RED_PSTAT_STATE p)

/-- FAILEDm and SPAREm_OUT of a slot. -/
def failedFld (p m : Nat) : Fld := if m = 0 then Fld.RED_PSTAT_FAILED0 p else Fld.RED_PSTAT_FAILED1 p
def spareOutFld (p m : Nat) : Fld := if m = 0 then Fld.RED_PSTAT_SPARE0_OUT p else Fld.RED_PSTAT_SPARE1_OUT p

/-- Slot `m` of pair `p` lies on another chip (R449). -/
def isRemote (s : State) (p m : Nat) : Bool := m == 1 && (s.pair p).remote.isSome

/-- Pairs of a state. -/
def pairsIn (s : State) (st : Nat) : Nat := ((List.range s.variant.pairs).filter fun p => s.pairState p == st).length

/-- A pair lacks a member: it is SINGLE, RESTORING or LOST, or a declaration is under way. -/
def twinMissing (s : State) : Bool :=
  (List.range s.variant.pairs).any fun p =>
    decide (2 ≤ s.pairState p) || (s.pair p).slot0.reclaiming || (s.pair p).slot1.reclaiming

/-- RED_STAT and TWIN_MISSING follow the pairs, and the mode moves between RUN and DEGRADED (R44, R48). -/
def followTwins (s : State) : State :=
  let s := (((s.setFld Fld.RED_STAT_PAIRED (s.pairsIn 1)).setFld Fld.RED_STAT_SINGLE (s.pairsIn 2)).setFld
    Fld.RED_STAT_RESTORING (s.pairsIn 3)).setFld Fld.RED_STAT_LOST (s.pairsIn 4)
  let m := s.twinMissing
  let s := s.setFlag Fld.SYS_MODE_TWIN_MISSING m
  if m ∧ s.mode = Mode.run then s.setMode Mode.degraded
  else if !m ∧ s.mode = Mode.degraded then s.setMode Mode.run
  else s

/-- A pair takes a state. -/
def setPairState (s : State) (p st : Nat) : State := (s.setFld (Fld.RED_PSTAT_STATE p) st).followTwins

/-- The slot's member is in force. -/
def inForce (s : State) (p m : Nat) : Bool := s.pairState p != 0 && !s.flag (failedFld p m)

/-- The slot's cold spare may be started. -/
def spareOf (s : State) (p m : Nat) : Option Nat :=
  if s.flag (spareOutFld p m) || s.isRemote p m then none else (s.pairSlot p m).spare

/-- Slots of every pair. -/
def slots (s : State) : List (Nat × Nat) := (List.range s.variant.pairs).flatMap fun p => [(p, 0), (p, 1)]

/-- ROLE of an engine in a slot: 1 MEMBER, 2 SPARE, 3 RESTORING, 0 none (Table RED-15). -/
def roleIn (s : State) (e : Nat) (q : Nat × Nat) : Nat :=
  let x := s.pairSlot q.1 q.2
  if s.pairState q.1 = 0 ∨ s.isRemote q.1 q.2 then 0
  else if x.engine = some e then (if s.inForce q.1 q.2 then 1 else if x.joinBy.isSome then 3 else 0)
  else if s.spareOf q.1 q.2 = some e then 2
  else 0

/-- The slot an engine has a role in. -/
def roleSlot (s : State) (e : Nat) : Option (Nat × Nat) := s.slots.find? fun q => s.roleIn e q != 0

/-- RED_SELF as an engine reads it. -/
def redSelf (s : State) (e : Nat) : Word :=
  let jres := Store.get (fun _ => 0) s.red.jres e
  match s.roleSlot e with
  | some q =>
    BitVec.ofNat 32 (s.roleIn e q + 4 * q.1 + 2 ^ 8 * q.2 + 2 ^ 9 * ((s.pairSlot q.1 (1 - q.2)).engine.getD 0) + 2 ^ 16 * jres)
  | none => BitVec.ofNat 32 (2 ^ 16 * jres)

/-! ### Monitoring (R430–R433) -/

/-- Monitoring of engine `e`. -/
def beat (s : State) (e : Nat) : Beat := Store.get (fun _ => {}) s.red.beats e

/-- Monitoring of an engine replaced. -/
def setBeat (s : State) (e : Nat) (b : Beat) : State :=
  s.setRed { s.red with beats := Store.set (fun _ => {}) s.red.beats e b }

/-- An engine is monitored: a member, or a spare in RUN or CANDLE state (R430). -/
def monitored (s : State) (e : Nat) : Bool :=
  s.red.monitoring && (match s.roleSlot e with
    | some q => s.roleIn e q == 1 || s.awake e
    | none => false)

/-- Monitored engines, ascending. -/
def monitoredEngines (s : State) : List Nat := (List.range s.variant.engines).filter fun e => s.monitored e

/-- A pulse on the engine's lantern line (R168, R431). -/
def lanternPulse (s : State) (e : Nat) : State := (s.setBeat e { s.beat e with pulse := true }).setFld (Fld.RED_LANT_MISS2 e) 0

/-- Length of a heartbeat period in cycles, and of a path 1 window in Avenue cycles (R431, R432). -/
def heartbeat (s : State) : Nat := s.fld Fld.RED_CFG_HB_US * 800
def window1 (s : State) : Nat := (s.heartbeat + s.aveLen - 1) / s.aveLen

/-- MON of every engine's register follows the monitoring. -/
def showMon (s : State) : State :=
  (List.range s.variant.engines).foldl (fun s e =>
    if s.flag (Fld.RED_LANT_MON e) = s.monitored e then s else s.setFlag (Fld.RED_LANT_MON e) (s.monitored e)) s

/-- Monitoring starts, at an ENTER_COMMISSION (R421), with no misses. -/
def startMonitoring (s : State) : State :=
  let s := (List.range s.variant.engines).foldl (fun s e =>
    ((s.setFld (Fld.RED_LANT_MISS1 e) 0).setFld (Fld.RED_LANT_MISS2 e) 0).setBeat e
      { s.beat e with pulse := false, changed := false }) s
  let s := s.red.pairs.foldl (fun s q => s.setPair q.1 { s.pair q.1 with silent := 0 }) s
  (s.setRed { s.red with monitoring := true, periodStart := s.cycle, windowCycles := 0, heard := [] }).showMon

/-- Monitoring ends with the return to LOAD. -/
def stopMonitoring (s : State) : State := (s.setRed { s.red with monitoring := false }).showMon

/-! ### Declaring a member failed (R434) -/

/-- Steps 1 and 2 of a declaration. -/
def declareSlot (s : State) (p m cause : Nat) : State :=
  let x := s.pairSlot p m
  let e := x.engine.getD 0
  let s := s.setFlag (failedFld p m) true
  let s := s.setReg Reg.RED_LAST (BitVec.ofNat 32 (e + 2 ^ 8 * cause + 2 ^ 16 * p + 2 ^ 22 * m))
  let s := (s.count Fld.RED_CNT1_DECLARED).notify (.declared e)
  let s := if s.inForce p (1 - m) && !s.isRemote p (1 - m) then s.redNote p (1 - m) else s
  let s := s.setPairSlot p m { x with declared := s.cycle, joinBy := none, joined := false, reclaiming := !s.isRemote p m }
  if s.isRemote p m then
    if s.inForce p 0 then s.setPairState p 2
    else (s.setPairSlot p 0 { s.pairSlot p 0 with joinBy := none }).setPairState p 4
  else ((s.setFlag (Fld.RED_LANT_FAILED e) true).setFlag (Fld.RED_LANT_MON e) false).followTwins

/-- A started spare fails in its turn (R444). -/
def failSpare (s : State) (p m cause : Nat) : State := (s.count Fld.RED_CNT1_RESTORE_FAIL).declareSlot p m cause

/-- What R433 makes of an engine: its fault report is shown, and the CAUSE of a declaration, or 0. -/
def causeOf (s : State) (e : Nat) : Nat :=
  let one := decide (3 ≤ s.fld (Fld.RED_LANT_MISS1 e))
  let two := decide (3 ≤ s.fld (Fld.RED_LANT_MISS2 e))
  let fault := s.flag (Fld.RED_LANT_FAULT e)
  if one && two then 1 else if two && fault then 2 else if one && fault then 3 else 0

/-- An engine's fault report: HALTED, or FAULT in its station word (R433). -/
def faultReport (s : State) (e : Nat) : Bool := s.engState e == 3 || (s.beat e).fault

/-- One monitored engine is judged. -/
def judgeEngine (s : State) (e : Nat) : State :=
  let s := if s.flag (Fld.RED_LANT_FAULT e) = s.faultReport e then s else s.setFlag (Fld.RED_LANT_FAULT e) (s.faultReport e)
  let cause := s.causeOf e
  if cause = 0 then s
  else
    match s.roleSlot e with
    | some q =>
      if s.roleIn e q = 1 then s.declareSlot q.1 q.2 cause
      else if s.roleIn e q = 3 then s.failSpare q.1 q.2 cause
      else (s.setFlag (spareOutFld q.1 q.2) true).setFlag (Fld.RED_LANT_FAILED e) true
    | none => s

/-- Every monitored engine is judged. -/
def judgeBeats (s : State) : State :=
  if s.red.monitoring then (s.monitoredEngines.foldl (fun s e => s.judgeEngine e) s).showMon else s

/-- A heartbeat period of path 2 ends (R431). -/
def endPeriod (s : State) : State :=
  let s1 := s.monitoredEngines.foldl (fun s e =>
    let s1 := if (s.beat e).pulse then s else s.setFld (Fld.RED_LANT_MISS2 e) (min 15 (s.fld (Fld.RED_LANT_MISS2 e) + 1))
    s1.setBeat e { s1.beat e with pulse := false }) s
  (s1.setRed { s1.red with periodStart := s1.red.periodStart + s1.heartbeat }).judgeBeats

/-- A LANTERN message of district `d`: ROUND and GEN, then station words 1–15 (R169, R432). -/
def takeLantern (s : State) (d : Nat) (words : List Word) : State :=
  let s := (List.range 12).foldl (fun s i =>
    let e := d * 12 + i
    let w := (words[i + 1]?).getD 0
    let b := s.beat e
    let new := fieldGet w 0 8
    let s := s.setBeat e { b with lantern := new, changed := b.changed || new != b.lantern, fault := w.getLsbD 8 }
    if new = b.lantern then s else s.setFld (Fld.RED_LANT_MISS1 e) 0) s
  (s.setRed { s.red with heard := d :: s.red.heard.filter (· != d) }).judgeBeats

/-- A window of path 1 ends (R432). -/
def endWindow (s : State) : State :=
  let es := s.monitoredEngines
  let s := ((List.range s.variant.districts).filter fun d => (es.any fun e => e / 12 == d) && !s.red.heard.contains d).foldl
    (fun s _ => s.count Fld.RED_CNT1_PATH1_FAULT) s
  let s := es.foldl (fun s e =>
    if (s.beat e).changed && s.red.heard.contains (e / 12) then s
    else s.setFld (Fld.RED_LANT_MISS1 e) (min 15 (s.fld (Fld.RED_LANT_MISS1 e) + 1))) s
  let s := (List.range s.variant.engines).foldl (fun s e =>
    if (s.beat e).changed then s.setBeat e { s.beat e with changed := false } else s) s
  (s.setRed { s.red with heard := [], windowCycles := 0 }).judgeBeats

/-! ### Pairs across chips (R449) -/

/-- A SUPER message's word for a remote pair: its number, the local member failed, and joined since (log entry 51). -/
def superWord (s : State) (p : Nat) : Word :=
  BitVec.ofNat 32 (p + 2 ^ 6 * bit (s.flag (failedFld p 0)) + 2 ^ 7 * bit (s.pairSlot p 0).joined)

/-- Pairs whose slot 1 lies on a chip. -/
def pairsWith (s : State) (chip : Nat) : List Nat :=
  (List.range s.variant.pairs).filter fun p => s.pairState p != 0 && (s.pair p).remote == some chip

/-- Each Avenue cycle queues one SUPER message for each chip with a remote member. -/
def sendSupers (s : State) : State :=
  let s := s.setNodeQueue aveSuper ((s.nodeQueue aveSuper).filter fun m => m.type != 0xA)
  (List.range 8).foldl (fun s c =>
    let ps := s.pairsWith c
    if ps.isEmpty then s
    else s.queueMsg aveSuper
      { dest := c * 16 + aveSuper, src := s.ownNode, type := 0xA, sub := 0, flowv := false, flow := 0, seq := 0
        payload := ps.map fun p => s.superWord p }) s

/-- An Avenue cycle begins, for the redundancy unit: windows, SUPER messages and their silence. -/
def redCycle (s : State) : State :=
  let s := if s.red.monitoring then s.setRed { s.red with windowCycles := s.red.windowCycles + 1 } else s
  let s := if s.red.monitoring && decide (s.window1 ≤ s.red.windowCycles) then s.endWindow else s
  if s.red.pairs.any fun q => q.2.remote.isSome then
    let s := if s.red.monitoring then
        s.red.pairs.foldl (fun s q =>
          s.setPair q.1 { s.pair q.1 with silent := (s.pair q.1).silent + bit q.2.remote.isSome }) s
      else s
    s.sendSupers
  else s

/-- A word of a SUPER message from a chip; a LOST pair stays LOST (R422). -/
def takeSuper (s : State) (chip : Nat) (w : Word) : State :=
  let p := fieldGet w 0 6
  if s.pairState p = 0 ∨ (s.pair p).remote ≠ some chip then s
  else
    let s := s.setPair p { s.pair p with silent := 0 }
    if w.getLsbD 6 then (if s.inForce p 1 then s.declareSlot p 1 6 else s)
    else if w.getLsbD 7 && s.flag (failedFld p 1) && s.pairState p != 4 then
      ((s.setFlag (failedFld p 1) false).redNote p 0).setPairState p (if s.inForce p 0 then 1 else 2)
    else s

/-! ### Reclaim and spare (R434, R442) -/

/-- Cell leases of outstanding receive descriptors pass from a failed engine to its spare (Table RED-5). -/
def passCells (s : State) (e x : Nat) : State :=
  let cells := (List.range 34).flatMap fun n =>
    if s.boundPort (e / 12) n && (s.port n).rxCtrl.toNat % 16 == e % 12 then
      ((s.outstanding n).filter fun i => !(s.port n).handed.contains i).map fun i =>
        fieldGet (Store.get (fun _ => 0) (s.port n).rxDesc (i * 4)) 0 15
    else []
  { s with leases := s.leases.map fun l =>
      if l.type == 1 && l.holder == s.ident (0x10 + e) && cells.contains l.index then
        { l with holder := s.ident (0x10 + x) }
      else l }

/-- Registers of engine `e` that its spare takes over. -/
def copiedRegs (e : Nat) : List Nat :=
  (List.range 32).map (Reg.CE_EVT_SEL e) ++ [Reg.CE_STACK_BASE e, Reg.CE_STACK_LIMIT e] ++
    (List.range 4).map (Reg.CE_CRC_POLY e) ++ (List.range 4).map (Reg.CE_CRC_CFG e) ++ [Reg.CE_WDOG e]

/-- The spare `x` of slot `m` starts in place of the slot's engine. -/
def startSpare (s : State) (p m x : Nat) : State :=
  let slot := s.pairSlot p m
  let e := slot.engine.getD 0
  let s := ((copiedRegs e).zip (copiedRegs x)).foldl (fun s q => s.setReg q.2 (s.reg q.1)) s
  let s := if s.flag (Fld.CE_WDOG_EN x) then s.kickWatchdog x (s.fld (Fld.CE_WDOG_PERIOD x)) else s
  let s := (List.range 34).foldl (fun s n =>
    if s.boundPort (e / 12) n && (s.port n).rxCtrl.toNat % 16 == e % 12 then
      s.setPort n { s.port n with rxCtrl := fieldSet (s.port n).rxCtrl 0 4 (x % 12) }
    else s) s
  let s := s.runEngine x
  let s := s.setPairSlot p m { slot with
    engine := some x, was := some e, reclaiming := false
    joinBy := some (s.cycle + s.fld Fld.RED_CFG_RESTORE_MS * 800000) }
  let s := s.setReg (Reg.RED_PAIR p) (fieldSet (s.reg (Reg.RED_PAIR p)) (8 * m) 7 x)
  let s := ((s.setFlag (spareOutFld p m) true).setFld (Fld.RED_LANT_MISS1 x) 0).setFld (Fld.RED_LANT_MISS2 x) 0
  ((s.setBeat x { s.beat x with pulse := false, changed := false, fault := false }).setPairState p 3).showMon

/-- No spare can be started: SINGLE, or LOST with the other slot failed too, which ends a restoration there. -/
def endSingle (s : State) (p m : Nat) : State :=
  let s := s.setPairSlot p m { s.pairSlot p m with reclaiming := false }
  if s.inForce p (1 - m) then s.setPairState p 2
  else (s.setPairSlot p (1 - m) { s.pairSlot p (1 - m) with joinBy := none }).setPairState p 4

/-- Steps 3 to 5 of R434: every lease is reclaimed, but one that a COMMIT under way still needs; then the engine is
put in RESET and its spare started. -/
def completeReclaim (s : State) (p m : Nat) : State :=
  let slot := s.pairSlot p m
  let e := slot.engine.getD 0
  let who := s.ident (0x10 + e)
  let s := match s.spareOf p m with
    | some x => s.passCells e x
    | none => s
  let s := s.reclaimAll who
  if s.leases.any fun l => l.holder == who then s
  else
    let s := if s.engState e = 3 ∧ s.flag Fld.RED_CFG_KEEP_HALTED then s else s.holdEngine e
    match s.spareOf p m with
    | some x => s.startSpare p m x
    | none => s.endSingle p m

/-- Engine that the gateway delivers an ENGINE message to: the spare that replaced the one its SUB names (R442). -/
def deliveredTo (s : State) (e : Nat) : Nat :=
  match s.slots.find? fun q => s.pairState q.1 != 0 && !s.isRemote q.1 q.2 && (s.pairSlot q.1 q.2).was == some e with
  | some q => ((s.pairSlot q.1 q.2).engine).getD e
  | none => e

/-! ### Joining (R443, R444) -/

/-- A write of GO to RED_JOIN by engine `e`; one after its time is too late (R444). -/
def join (s : State) (e : Nat) : State :=
  let res (s : State) (code : Nat) : State :=
    (s.setRed { s.red with jres := Store.set (fun _ => 0) s.red.jres e code }).countCode (s.ident (0x10 + e)) code
  match s.roleSlot e with
  | some q =>
    if s.roleIn e q = 3 then
      let x := s.pairSlot q.1 q.2
      if x.joinBy.any fun t => decide (t < s.cycle) then res (s.failSpare q.1 q.2 5) Code.wrongState else
      let s := s.setPairSlot q.1 q.2 { x with joinBy := none, joined := true }
      let s := s.setFlag (failedFld q.1 q.2) false
      let s := s.setFld (Fld.RED_PSTAT_RESTORE_10US q.1) (min 0xFFFF ((s.cycle - x.declared) / 8000))
      let s := if s.isRemote q.1 (1 - q.2) then s else s.redNote q.1 (1 - q.2)
      let st := if s.inForce q.1 (1 - q.2) then 1 else if (s.pairSlot q.1 (1 - q.2)).joinBy.isSome then 3 else 2
      res (s.setPairState q.1 st) Code.ok
    else res s Code.wrongState
  | none => res s Code.wrongState

/-! ### Checkpoints (R438–R441) -/

/-- Base, length and buffer size of a checkpoint area in bytes. -/
def ckptArea (s : State) (p m : Nat) : Nat × Nat × Nat :=
  (s.fld (Fld.RED_CKPT_BASE p m) * 256, s.fld (Fld.RED_CKPT_SIZE p m) * 256, s.fld (Fld.RED_CKPT_BUF p m) * 4096)

/-- The area meets R440 in its district, beside the areas of formed pairs. -/
def ckptGood (s : State) (p m d : Nat) : Bool :=
  let a := s.ckptArea p m
  let journal := a.2.1 - 0x100 - 2 * a.2.2
  decide (a.2.2 ≠ 0 ∧ 0x100 + 2 * a.2.2 ≤ a.2.1 ∧ a.1 + a.2.1 ≤ sramSize ∧ 4096 ≤ journal ∧ journal ≤ 1048576) &&
    s.slots.all fun q =>
      let b := s.ckptArea q.1 q.2
      s.pairState q.1 == 0 || s.isRemote q.1 q.2 || ((s.pairSlot q.1 q.2).engine.getD 0) / 12 != d ||
        decide (a.1 + a.2.1 ≤ b.1 ∨ b.1 + b.2.1 ≤ a.1)

/-- A checkpoint of a memory is valid: header at `a`, buffer at `buf` of the buffer ACTIVE names, at most `max`
bytes (R438). -/
def ckptValid (m : Mem) (a : Nat) (buf : Nat → Nat) (max : Nat) : Bool :=
  let act := m.readLE (a + 4) 4
  let len := m.readLE (a + 0x14 + 0x20 * act) 4
  m.readLE a 4 == 0x31504B43 && decide (act ≤ 1 ∧ len ≤ max) &&
    crc32cBytes ((m.readBytes (buf act) len).map (·.toNat)) == m.readLE (a + 0x18 + 0x20 * act) 4

/-- District of a slot, and the slot's MRAM address (R441). -/
def slotDistrict (s : State) (p m : Nat) : Nat := ((s.pairSlot p m).engine.getD 0) / 12
def ckptMram (p m : Nat) : Nat := 0x200000 + (2 * p + m) * 0x10000

/-- The 64-byte rows of a checkpoint copy: the active buffer, then the header with its first row last (R441). -/
def copyRows (s : State) (p m act gen : Nat) : List SupRow :=
  let a := s.ckptArea p m
  let sram := (s.dist (s.slotDistrict p m)).sram
  let row (src dst i : Nat) : SupRow :=
    { pair := p, slot := m, addr := dst + 64 * i, data := sram.readBytes (src + 64 * i) 64, gen := none }
  (List.range (a.2.2 / 64)).map (row (a.1 + 0x100 + act * a.2.2) (ckptMram p m + 0x100)) ++
    [1, 2, 3].map (row a.1 (ckptMram p m)) ++ [{ row a.1 (ckptMram p m) 0 with gen := some gen }]

/-- The supervisor offers the rows of a valid new checkpoint for MRAM, unless a copy of the slot still waits. -/
def copyCheckpoint (s : State) (p m : Nat) : State :=
  let a := s.ckptArea p m
  let sram := (s.dist (s.slotDistrict p m)).sram
  let buf (x : Nat) : Nat := a.1 + 0x100 + x * a.2.2
  let act := sram.readLE (a.1 + 4) 4
  let gen := sram.readLE (a.1 + 0x10 + 0x20 * act) 4
  if ckptValid sram a.1 buf a.2.2 && (s.pairSlot p m).copied != some gen && decide (a.2.2 ≤ 61184) && !s.nvBlocked &&
      !s.sup.rows.any (fun r => r.pair == p && r.slot == m) then
    s.offerRows (s.copyRows p m act gen)
  else s

/-- The MRAM copy of a slot is valid. -/
def mramValid (s : State) (p m : Nat) : Bool :=
  ckptValid s.mram (ckptMram p m) (fun _ => ckptMram p m + 0x100) (min 61184 (s.ckptArea p m).2.2)

/-- CKPT_LOAD: the copy returns to buffer A with ACTIVE 0, JPOS 0 and a journal of zeros. -/
def loadCheckpoint (s : State) (p m : Nat) : State :=
  let a := s.ckptArea p m
  let d := s.slotDistrict p m
  let src := ckptMram p m
  let act := s.mram.readLE (src + 4) 4
  let desc := s.mram.readBytes (src + 0x10 + 0x20 * act) 16
  let clear : Mem := (s.dist d).sram.filter fun q => !decide (a.1 ≤ q.1 ∧ q.1 < a.1 + a.2.1)
  let mem := ((clear.writeLE a.1 4 0x31504B43).writeBytes (a.1 + 0x10) desc).writeBytes (a.1 + 0x100)
    (s.mram.readBytes (src + 0x100) (s.mram.readLE (src + 0x14 + 0x20 * act) 4))
  s.setDist d { s.dist d with sram := mem }

/-! ### Twin commands (Table RED-3) -/

/-- A write of RED_CMD: a command is executed only when DONE is 1 (R64). -/
def redCommand (s : State) (who : Ident) (tag : Nat) (body : State → Nat × State) : State :=
  if !s.variant.hasTwin then s.absentHit Reg.RED_CMD true
  else s.hostWrite who Reg.RED_CMD fun s =>
    s.oneAtATime Reg.RED_CMD (!s.flag Fld.RED_CMD_RES_DONE) Fld.RED_CMD_RES_LOST fun s =>
      let r := body s
      ((r.2.setFld Fld.RED_CMD_RES_RESULT r.1).setFld Fld.RED_CMD_RES_TAG tag).countCode who r.1

/-- The arguments of PAIR: the engines of both slots and their spares. -/
def pairArgs (s : State) : (Nat × Option Nat) × (Nat × Option Nat) :=
  let a := s.reg Reg.RED_ARG0
  ((fieldGet a 0 7, if a.getLsbD 23 then some (fieldGet a 16 7) else none),
    (fieldGet a 8 7, if a.getLsbD 31 then some (fieldGet a 24 7) else none))

/-- PKG_ID, ROLE and INDEX of the instance that an engine holds. -/
def instanceOf (s : State) (e : Nat) : Nat := fieldGet (s.reg (Reg.SYS_PKG_ENG e)) 0 24

/-- An engine belongs to a formed pair. -/
def inPair (s : State) (e : Nat) : Bool :=
  s.slots.any fun q => s.pairState q.1 != 0 && !s.isRemote q.1 q.2 &&
    ((s.pairSlot q.1 q.2).engine == some e || (s.pairSlot q.1 q.2).spare == some e || (s.pairSlot q.1 q.2).was == some e)

/-- PAIR of R421 is refused with BAD_ARG. -/
def pairBad (s : State) (p : Nat) (remote : Option Nat) : Bool :=
  let a := s.pairArgs
  let es := a.1.1 :: a.1.2.toList ++ (if remote.isSome then [] else a.2.1 :: a.2.2.toList)
  decide (s.variant.pairs ≤ p) || s.pairState p != 0 || (es.any fun e => !s.hasEngine e || s.inPair e) ||
    decide (es.dedup.length < es.length) || (remote.isNone && a.1.1 / 12 == a.2.1 / 12) || remote == some s.chip ||
    (a.1.2.any fun x => x / 12 != a.1.1 / 12) || (remote.isNone && a.2.2.any fun x => x / 12 != a.2.1 / 12) ||
    (es.any fun e => s.fld (Fld.SYS_PKG_ENG_PKG_ID e) == 0 || s.instanceOf e != s.instanceOf a.1.1 ||
      (s.fld (Fld.SYS_PKG_ENG_PKG_ID e) == 0xFFFF && (s.eng e).instr != (s.eng a.1.1).instr)) ||
    !s.ckptGood p 0 (a.1.1 / 12) || (remote.isNone && !s.ckptGood p 1 (a.2.1 / 12))

/-- A pair is formed. -/
def formPair (s : State) (p : Nat) (remote : Option Nat) : State :=
  let a := s.pairArgs
  let spares := a.1.2.toList ++ (if remote.isSome then [] else a.2.2.toList)
  let s := spares.foldl (fun s x => s.holdEngine x) s
  let s := s.setPair p
    { slot0 := { engine := some a.1.1, spare := a.1.2 }
      slot1 := { engine := some a.2.1, spare := if remote.isSome then none else a.2.2 }, remote := remote }
  let s := (s.setReg (Reg.RED_PAIR p) (s.reg Reg.RED_ARG0)).setReg (Reg.RED_PSTAT p)
    (BitVec.ofNat 32 (1 + 2 ^ 7 * bit remote.isSome))
  ((spares ++ [a.1.1] ++ (if remote.isSome then [] else [a.2.1])).foldl (fun s e => s.setReg (Reg.RED_LANT e) 0) s).followTwins

/-- A pair is dissolved; its engines go to RESET. -/
def dissolve (s : State) (p : Nat) : State :=
  let x := s.pair p
  let es := x.slot0.engine.toList ++ x.slot0.spare.toList ++ x.slot0.was.toList ++
    (if x.remote.isSome then [] else x.slot1.engine.toList ++ x.slot1.spare.toList ++ x.slot1.was.toList)
  let s := es.dedup.foldl (fun s e => if s.hasEngine e then s.holdEngine e else s) s
  (((s.setPair p {}).setReg (Reg.RED_PAIR p) 0).setReg (Reg.RED_PSTAT p) 0).followTwins

/-- Pair number of RED_ARG1, and its slot for FAIL and CKPT_LOAD. -/
def argPair (s : State) : Nat := fieldGet (s.reg Reg.RED_ARG1) 0 6
def argSlot (s : State) : Nat := fieldGet (s.reg Reg.RED_ARG1) 16 1

end State

/-- PAIR (R420, R421). -/
def execPair (who : Ident) (tag : Nat) (s : State) : Answer :=
  .next (s.served who fun s => (s.redCommand who tag fun s =>
    let p := s.argPair
    let remote := if (s.reg Reg.RED_ARG1).getLsbD 9 then some (fieldGet (s.reg Reg.RED_ARG1) 6 3) else none
    let code := firstCode
      [(remote.isSome && !s.variant.hasWilern, Code.absent), (s.pairBad p remote, Code.badArg),
        (s.mode != Mode.load, Code.wrongState)]
    (code, if code = Code.ok then s.formPair p remote else s)))

/-- UNPAIR (Table RED-3). -/
def execUnpair (who : Ident) (tag : Nat) (s : State) : Answer :=
  .next (s.served who fun s => (s.redCommand who tag fun s =>
    let code := firstCode [(decide (s.variant.pairs ≤ s.argPair), Code.badArg), (s.mode != Mode.load, Code.wrongState)]
    (code, if code = Code.ok then s.dissolve s.argPair else s)))

/-- RESYNC (R426). -/
def execResync (who : Ident) (tag : Nat) (s : State) : Answer :=
  .next (s.served who fun s => (s.redCommand who tag fun s => (Code.ok, s.resetFlow (fieldGet (s.reg Reg.RED_ARG1) 0 12))))

/-- RECLAIM (R436). -/
def execReclaim (who : Ident) (tag : Nat) (s : State) : Answer :=
  .next (s.served who fun s => (s.redCommand who tag fun s =>
    let h := (s.reg Reg.RED_ARG0).toNat
    let q := State.handleParts h
    if q.1 = 0 ∨ 8 < q.1 then (Code.badArg, s)
    else
      match s.leaseOf q.1 q.2.1 q.2.2 with
      | some l => (Code.ok, s.reclaim l)
      | none => (Code.wrongState, s)))

/-- FAIL (R433). -/
def execFail (who : Ident) (tag : Nat) (s : State) : Answer :=
  .next (s.served who fun s => (s.redCommand who tag fun s =>
    let code := firstCode
      [(decide (s.variant.pairs ≤ s.argPair), Code.badArg),
        (s.mode == Mode.load || !s.inForce s.argPair s.argSlot, Code.wrongState)]
    (code, if code = Code.ok then s.declareSlot s.argPair s.argSlot 4 else s)))

/-- CKPT_LOAD (R441). -/
def execCkptLoad (who : Ident) (tag : Nat) (s : State) : Answer :=
  .next (s.served who fun s => (s.redCommand who tag fun s =>
    let code := firstCode
      [(decide (s.variant.pairs ≤ s.argPair ∨ 32 ≤ 2 * s.argPair + s.argSlot) || s.pairState s.argPair == 0 ||
          s.isRemote s.argPair s.argSlot || !s.mramValid s.argPair s.argSlot, Code.badArg),
        (s.mode != Mode.load, Code.wrongState)]
    (code, if code = Code.ok then s.loadCheckpoint s.argPair s.argSlot else s)))

/-- HEARTBEAT_PERIOD_END (R431), once the period has passed. -/
def execHeartbeatPeriodEnd (s : State) : Answer :=
  .next (s.live fun s => (if s.red.monitoring && decide (s.red.periodStart + s.heartbeat ≤ s.cycle) then s.endPeriod else s))

/-- RECLAIM_COMPLETE (R434): the reclaim after a declaration completes. -/
def execReclaimComplete (p m : Nat) (s : State) : Answer :=
  .next (s.live fun s => (if (s.pairSlot p m).reclaiming then s.completeReclaim p m else s))

/-- JOIN (R443): engine `e` writes GO to RED_JOIN. -/
def execJoin (e : Nat) (s : State) : Answer :=
  .next (s.live fun s => (if s.variant.hasTwin && s.hasEngine e then s.join e else s))

/-- RESTORE_TIMEOUT (R444), once the time of slot `m` has passed. -/
def execRestoreTimeout (p m : Nat) (s : State) : Answer :=
  .next (s.live fun s => (if (s.pairSlot p m).joinBy.any fun t => decide (t ≤ s.cycle) then s.failSpare p m 5 else s))

/-- CHECKPOINT_COPY (R441), at the interval of MRAM_100MS. -/
def execCheckpointCopy (s : State) : Answer :=
  .next (s.live fun s => (
    let every := s.fld Fld.RED_CFG_MRAM_100MS * 80000000
    if every ≠ 0 ∧ s.red.mramAt + every ≤ s.cycle then
      let s := s.setRed { s.red with mramAt := s.cycle }
      (s.slots.filter fun q => s.pairState q.1 != 0 && !s.isRemote q.1 q.2 && decide (2 * q.1 + q.2 < 32)).foldl
        (fun s q => s.copyCheckpoint q.1 q.2) s
    else s))

/-- PROXY_SERIAL_FLUSH (R446): one character time after the last entry that entry `k` of district `d` gathered. -/
def execProxySerialFlush (d k : Nat) (s : State) : Answer :=
  .next (s.live fun s => (
    let x := s.proxy d k
    if !x.gathered.isEmpty && decide (x.last + s.charTime (s.fld (Fld.RED_PROXY_UNIT d k)) ≤ s.cycle) then s.flushProxy d k
    else s))

/-- WILERN_HEARTBEAT_TIMEOUT (R449). -/
def execWilernHeartbeatTimeout (p : Nat) (s : State) : Answer :=
  .next (s.live fun s => (
    match (s.pair p).remote with
    | some c =>
      if s.red.monitoring && s.inForce p 1 && (decide (3 * s.window1 ≤ (s.pair p).silent) || !s.chipInMap c) then s.declareSlot p 1 6 else s
    | none => s))

end Sys2Proof.Machine
end

