-- ==== Sys2Proof/Machine/Starts.lean ====
section
/-!
DEFINITION. The starts of the two schedules: a Round with its captures at the gateway, the port block and the
reduction unit (R159, R182, R403, R447), and an Avenue cycle (R170).
-/

namespace Sys2Proof.Machine

namespace State

/-- The front proxy record of a district becomes pending writes of station 13 (R446). -/
def loadRecord (s : State) (d : Nat) : State :=
  match s.records d with
  | r :: rest =>
    let s := s.setRed { s.red with records := Store.set (fun _ => []) s.red.records d rest }
    r.words.zipIdx.foldl (fun s w => s.pendWrite d 13 (r.first + w.2) w.1) s
  | [] => s

/-- Forward entry `j` captures its group of a passage that marks the last word (R182), with its flow (R424). -/
def captureForward (d : Nat) (p : Passage) (s : State) (j : Nat) : State :=
  let n := s.fld (Fld.AVE_GW_FWD_COUNT d j)
  let a := s.fld (Fld.AVE_GW_FWD_FIRST d j)
  if n ≠ 0 ∧ p.marks.contains (a + n - 1) then
    let q : List Msg := Store.get (fun _ => []) s.ave.fwd d
    if 32 ≤ q.length then s.count (Fld.AVE_GW_CNT_FWD_DROP d)
    else
      let words := (List.range n).map fun i => passWord p (a + i)
      let en := s.flag (Fld.RED_GWFLOW_EN d j)
      let m : Msg :=
        { dest := s.fld (Fld.AVE_GW_FWD_DEST d j), src := s.aveNode d, type := 4, sub := 0, flowv := en
          flow := if en then s.fld (Fld.RED_GWFLOW_FLOW d j) else 0
          seq := if en then fieldGet (passWord p a) 0 16 else 0
          payload := BitVec.ofNat 32 (s.fld (Fld.AVE_GW_FWD_DFIRST d j) + 2 ^ 8 * n) :: words }
      s.setAve { s.ave with fwd := Store.set (fun _ => []) s.ave.fwd d (q ++ [m]) }
  else s

/-- Number of a PROXY_REFUSED record. -/
def proxyRefused (s : State) : State := s.count Fld.RED_CNT2_PROXY_REFUSED

/-- A CAN OUT record that was accepted (R447): TX_CANCEL, or the object's words and TX_REQUEST. -/
def applyCanOut (s : State) (d n : Nat) (words : List Word) : State :=
  let w := (words[0]?).getD 0
  let t := fieldGet w 16 5
  let st := (s.txObj n t).state
  if !s.boundCan d n then s.proxyRefused
  else if w.getLsbD 21 then
    let r := s.txCancel n t
    if r.1 = Code.wrongState then s.proxyRefused else r.2
  else if st = 1 ∨ st = 2 then s.proxyRefused
  else
    let ks : List Nat := [1, 2] ++ (List.range 16).map (· + 4)
    let s := ks.zipIdx.foldl (fun (s : State) q =>
      (s.writeTxWord n t q.1 ((words[q.2 + 1]?).getD 0)).getD s) s
    let r := s.txRequest n t
    if r.1 = Code.ok then r.2 else r.2.proxyRefused

/-- A serial OUT record that was accepted: its bytes join the transmit ring when they fit. -/
def applySerOut (s : State) (d n : Nat) (words : List Word) : State :=
  let k := fieldGet ((words[0]?).getD 0) 16 6
  let bs := (wordsBytes (words.drop 1)).take k
  if s.boundSer d n && s.serMode n != 2 && decide (1 ≤ k ∧ k ≤ 60 ∧ s.txCount n + k ≤ 1791) then s.appendTx n bs
  else s.proxyRefused

/-- OUT entry `i` takes its record of a passage that marks the last word, and judges it (R447). -/
def captureOut (d : Nat) (p : Passage) (s : State) (i : Nat) : State :=
  let ser := s.flag (Fld.RED_PROXY_KIND d i)
  let a := s.fld (Fld.RED_PROXY_FIRST d i)
  let n := if ser then 16 else 19
  if s.flag (Fld.RED_PROXY_EN d i) && s.flag (Fld.RED_PROXY_DIR d i) && p.marks.contains (a + n - 1) then
    let words := (List.range n).map fun k => passWord p (a + k)
    let j := s.judgeCounted 3 (s.fld (Fld.RED_PROXY_FLOW d i)) (fieldGet (passWord p a) 0 16) (crc32cBytes (wordsBytes words))
    let unit := s.fld (Fld.RED_PROXY_UNIT d i)
    if j.1 then (if ser then j.2.applySerOut d unit words else j.2.applyCanOut d unit words) else j.2
  else s

/-- A Round starts: a table that waits for the start applies, and the header sends its words on their way (Table RND-8).
An application that moves the phase point puts the next start 160 cycles later at the earliest (R165). -/
def roundStart (s : State) (d : Nat) (errors : List RingError) : State :=
  let s := if s.txnState (.rnd d) = 2 then s.applyRnd d else s
  let s := s.loadRecord d
  let f := s.headerFrame d
  let moved := (s.dist d).moved && s.flag (Fld.RND_PERIOD_SYNC d) && s.ave.started
  let due := if moved then s.phasePoint d (s.cycle + 160) else s.nextStart d
  ((s.showFrame d f).setDist d { s.dist d with
    round := (s.dist d).round + 1, lastStart := s.cycle, moved := false, due := some due
    flight := some { start := s.cycle, pass := { words := f, poison := [], marks := [] }, errors := errors }
  }).fireDistrict 0x10 0 d

/-- The frame is back at the header whole: the hardware units capture from its passage (R182, R403, R447), and a table
that waited while the Round was stopped applies (R166). -/
def roundReturn (s : State) (d : Nat) (p : Passage) : State :=
  let s := s.setDist d { s.dist d with frame := p.words, flight := none }
  let s := (List.range 8).foldl (captureForward d p) s
  let s := (List.range 8).foldl (captureOut d p) s
  let s := s.captureGroups d p
  if s.txnState (.rnd d) = 2 ∧ (s.dist d).due.isNone then s.applyRnd d else s

/-- The words of a frame in cycle `t` after its start: each passes the station that it has reached. -/
def passCycle (d t : Nat) (errors : List RingError) (sp : State × Passage) : State × Passage :=
  (List.range 15).foldl (fun sp i =>
    if 2 * (i + 1) ≤ t ∧ t < 2 * (i + 1) + 64 then passStation d (i + 1) errors sp (t - 2 * (i + 1)) else sp) sp

/-- A cycle of the frame in passage (Table RND-8): station deadlines, words past stations, RND_STATION where word 63
has passed, the gateway's record, and words back at the header. -/
def roundCycle (s : State) (d : Nat) : State :=
  let s := if (s.dist d).leaving.isEmpty then s else s.showLeft d
  match (s.dist d).flight with
  | none => s
  | some f =>
    let t := s.cycle - f.start
    let s := if t % 2 = 1 ∧ t < 30 then s.takePending d ((t + 1) / 2) else s
    let r := passCycle d t f.errors (s, f.pass)
    let s := if t % 2 = 0 ∧ 66 ≤ t ∧ t ≤ 88 then r.1.fireEngine 0x11 0 (d * 12 + (t - 64) / 2 - 1) else r.1
    let s := if t = 43 then s.setDist d { s.dist d with record := gatewayRecord r.2 } else s
    let r := if 32 ≤ t ∧ t < 96 then headerReturn d (t - 32) (s, r.2) else (s, r.2)
    if 95 ≤ t then r.1.roundReturn d r.2
    else r.1.setDist d { r.1.dist d with flight := some { f with pass := r.2 } }

/-- A cycle of every Round. -/
def roundCycles (s : State) : State := s.districts.foldl (fun s p => s.roundCycle p.1) s

/-- Units follow a change of mode (R264, R265, R296, R319). -/
def followMode (s : State) : State :=
  let s := (List.range 34).foldl (fun (s : State) n => s.t1sOwnLink n) s
  let s := (List.range 16).foldl (fun (s : State) n => if s.variant.hasCan n then s.canFollow n else s) s
  (List.range 16).foldl (fun (s : State) n => if s.variant.hasSer n then s.serFollow n else s) s

/-- An Avenue cycle starts, and with it a RUN that waited for it: every port goes active together (R45). -/
def startCycle (s : State) : State :=
  let t := s.aveCycleStart.redCycle
  if t.mode = s.mode then t else t.followMode

end State

/-- ROUND_START (R159, R165), in the cycle that is due, once the frame before it is back; `errors` are those that words
meet on the ring (R167). -/
def execRoundStart (d : Nat) (errors : List RingFault) (s : State) : Answer :=
  .next (s.live fun s =>
    if (s.dist d).flight.isNone && (s.dist d).due.any (fun t => decide (t ≤ s.cycle)) then s.roundStart d errors else s)

/-- AVENUE_CYCLE_START (R170): the counter has run through the current cycle's length. -/
def execAvenueCycleStart (s : State) : Answer :=
  .next (s.live fun s => (if s.ave.started && decide (s.ave.cycleStart + s.ave.len ≤ s.cycle) then s.startCycle else s))

end Sys2Proof.Machine
end

