-- ==== Sys2Proof/Machine/Messages.lean ====
section
/-!
DEFINITION. Slot frames and dynamic messages on the Avenue, and what every node does with a message it holds
(R171–R183, R148, R212, R399, R432, R449, R468).
-/

namespace Sys2Proof.Machine

/-- The first held access without a result that is this one gets it; `remote` when the result came as a message. -/
def fillFirst (a : Access) (remote : Bool) (r : HeldResult) : List Held → Option (List Held)
  | [] => none
  | h :: rest =>
    if h.access = a ∧ h.remote = remote ∧ h.result = none then some ({ h with result := some r } :: rest)
    else (fillFirst a remote r rest).map (h :: ·)

/-- The outermost record that holds the access gets its result, whose access left the engine first. -/
def fillRecords (a : Access) (remote : Bool) (r : HeldResult) : List Record → Option (List Record)
  | [] => none
  | x :: rest =>
    match fillRecords a remote r rest with
    | some xs => some (x :: xs)
    | none => (fillFirst a remote r x.held).map fun hs => { x with held := hs } :: rest

namespace State

/-! ### Results that come back to an engine (R124) -/

/-- The result of an access that an abandoned instruction of the engine had sent is held for it, the access that
left first before the others; none where no abandoned instruction awaits it. -/
def heldResult (s : State) (e : Nat) (a : Access) (remote : Bool) (r : HeldResult) : Option State :=
  let x := s.eng e
  match fillRecords a remote r x.stack with
  | some xs => some (s.setEng e { x with stack := xs })
  | none =>
    (x.returned.bind fun q => (fillFirst a remote r q.held).map fun hs => { q with held := hs }).map fun q =>
      s.setEng e { x with returned := some q }

/-- A result that was served elsewhere reaches engine `e`: it is discarded where the engine's access has been given
up, held where an abandoned instruction sent it, and else goes to the instruction under way. -/
def resultArrives (s : State) (e : Nat) (a : Access) (r : HeldResult) (finish : State → State) : State :=
  let x := s.eng e
  if x.dropped.contains a then s.setEng e { x with dropped := x.dropped.erase a }
  else if s.engState e = 3 then s
  else (s.heldResult e a true r).getD (finish s)

/-- LEASE or RELEASE ends with its code (R148). -/
def finishLease (s : State) (e : Nat) (gd : GReg) (len handle : Nat) (release : Bool) (code : Nat) : State :=
  let s := s.setEng e { s.eng e with
    leaseWait := none
    leaseId := if code = Code.ok ∧ !release then BitVec.ofNat 32 handle else (s.eng e).leaseId }
  ((s.setGreg e gd (BitVec.ofNat 32 code)).advance e len).countCode (s.ident (0x10 + e)) code

/-! ### LEASE messages (log entry 56) -/

/-- The access that a LEASE or RELEASE is. -/
def leaseAccess (handle : Nat) (release : Bool) : Access := if release then .release handle else .lease handle

/-- A request of engine `e` leaves its district's gateway for the one of district `d`. -/
def sendLease (s : State) (e d handle : Nat) (release : Bool) : State :=
  s.queueMsg (e / 12)
    { dest := s.aveNode d, src := s.aveNode (e / 12), type := 8, sub := 0, flowv := false, flow := 0, seq := 0
      payload := [BitVec.ofNat 32 (e + 2 ^ 16 * bit release), BitVec.ofNat 32 handle] }

/-- A request or a reply at the gateway of district `d`. A request of an engine that has been put in RESET since is
served all the same (R146). -/
def takeLeaseMsg (s : State) (d : Nat) (m : Msg) : State :=
  let w := (m.payload[0]?).getD 0
  let e := fieldGet w 0 16
  let release := w.getLsbD 16
  let h := ((m.payload[1]?).getD 0).toNat
  if m.sub = 0 then
    if (handleParts h).2.1 ≠ d then s
    else
      let r := if release then s.giveLease e h else s.takeLease e h
      r.2.queueMsg d { m with dest := m.src, src := s.aveNode d, sub := 1, payload := [w, BitVec.ofNat 32 h, BitVec.ofNat 32 r.1] }
  else
    let code := ((m.payload[2]?).getD 0).toNat
    s.resultArrives e (leaseAccess h release) (.value code) fun s =>
      match (s.eng e).leaseWait with
      | some x => if x.handle = h ∧ x.release = release then s.finishLease e x.gd x.len h release code else s
      | none => s

/-! ### ENGINE and SLICE (R181, R183) -/

/-- An ENGINE message at the gateway of district `d`. -/
def takeEngineMsg (s : State) (d : Nat) (m : Msg) : State :=
  if 11 < m.sub then s.count Fld.AVE_CNT1_BAD_DEST
  else
    let head := s.fld (Fld.AVE_GW_PTR_HEAD d 2)
    let tail := s.fld (Fld.AVE_GW_PTR_TAIL d 2)
    if s.ringBytes d 2 / 32 < beatsBetween head tail + msgBeats m then
      (s.count Fld.AVE_CNT1_RX_DROP).count (Fld.AVE_GW_CNT_RX_FULL d)
    else
      ((s.ringStore d 2 tail (msgBytes m)).setFld (Fld.AVE_GW_PTR_TAIL d 2) (tail + msgBeats m)).fireEngine 0x13 0
        (s.deliveredTo (d * 12 + m.sub))

/-- A SLICE message at the gateway of district `d`: a duplicate of its flow is discarded first (Table RED-2). -/
def takeSlice (s : State) (d : Nat) (m : Msg) : State :=
  let j := if m.flowv then s.judgeCounted (8 + d) m.flow m.seq (crc32cBytes (wordsBytes m.payload)) else (true, s)
  if !j.1 then j.2
  else
    let s := j.2
    let w := (m.payload[0]?).getD 0
    let first := fieldGet w 0 6
    let n := fieldGet w 8 6
    if decide (n < m.payload.length) && (List.range n).all fun i =>
        decide (16 ≤ first + i ∧ first + i < 48) && s.sliceOwner d (first + i) == 14 then
      (List.range n).foldl (fun s i => s.pendWrite d 14 (first + i) ((m.payload[i + 1]?).getD 0)) s
    else s.count (Fld.AVE_GW_CNT_SLICE_REJ d)

/-! ### FRAME (R212) -/

/-- A FRAME message enters classification as a frame of source 43; it crosses to XCLK (R24). -/
def takeFrameMsg (s : State) (m : Msg) : State :=
  s.through 0 fun s =>
  let w := (m.payload[0]?).getD 0
  let bs := ((wordsBytes (m.payload.drop 1)).take (fieldGet w 21 11)).map fun b => BitVec.ofNat 8 b
  -- a frame that finds no cells is dropped at the buffer, which counts as a message refused (R177)
  let s := if s.flag Fld.XING_STAT_FATAL ∨ s.freeCells < cellsFor bs.length then s.count Fld.AVE_CNT1_RX_DROP else s
  s.offerFrame bs
    { cells := [], len := bs.length, source := 43, vid := fieldGet w 0 12, prio := fieldGet w 12 3
      tag := if m.flowv then some (m.flow, m.seq) else none }

/-! ### IMAGE (R399) -/

/-- The bytes of a version that an access takes. -/
def takeBytes (n off bytes : Nat) : Nat := n / 2 ^ (8 * off) % 2 ^ (8 * bytes)

/-- A reply reaches the engine whose load waits for it, and its latches (R376). -/
def takeReply (s : State) (e p off bytes n : Nat) : State :=
  let s := (List.range 4).foldl (fun s k =>
    s.setReg (Reg.IMG_LATCH (16 + e) k) (BitVec.ofNat 32 (n / 2 ^ (32 * k)))) s
  s.resultArrives e (.load .image (p * 16 + off) bytes) (.value (takeBytes n off bytes)) fun s =>
    match (s.eng e).loadWait with
    | some w =>
      if w.space = .image ∧ w.addr = p * 16 + off ∧ w.bytes = bytes then s.finishLoad e w (takeBytes n off bytes) else s
    | none => s

/-- An IMAGE message at the image controller: a load of a point's current version, a direct write, or a reply. -/
def takeImage (s : State) (m : Msg) : State :=
  let p := ((m.payload[0]?).getD 0).toNat
  let w := (m.payload[1]?).getD 0
  let who : Ident := BitVec.ofNat 16 (fieldGet w 0 16)
  let n := wordsNum (m.payload.drop 2)
  if m.sub = 0 then
    let s := s.sawLost p (s.point p).cur
    s.queueMsg 9 (s.imageMsg (nodeChip m.src) 2 none
      (BitVec.ofNat 32 p :: w :: numWords 4 ((s.point p).cur.shown false)))
  else if m.sub = 1 then
    if s.variant.points ≤ p then s
    else
      s.request who (.write p
        { ver := { value := n % 2 ^ 64, stamp := n / 2 ^ 64 % 2 ^ 48, quality := n / 2 ^ 112 % 2 ^ 8, user := n / 2 ^ 120 % 2 ^ 5 }
          auto := w.getLsbD 16 } (if m.flowv then some (m.flow, m.seq) else none))
  else if m.sub = 2 then
    let off := fieldGet w 16 8
    let bytes := fieldGet w 24 8
    if Ident.isEngine who then s.takeReply (Ident.engine who) p off bytes n
    else s.emit (.readData who (0x120000000 + p * 16 + off) (takeBytes n off bytes))
  else s

/-! ### MAILBOX (R468, log entry 45) -/

/-- A MAILBOX message at the mailbox unit: a send, the outcome of one still outstanding here, or a ring. -/
def takeMail (s : State) (m : Msg) : State :=
  let w := (m.payload[0]?).getD 0
  let who : Ident := BitVec.ofNat 16 (fieldGet w 0 16)
  if m.sub = 0 then
    let bs := ((wordsBytes (m.payload.drop 2)).take ((m.payload[1]?).getD 0).toNat).map fun b => BitVec.ofNat 8 b
    if !Ident.listed who || Ident.chip who != nodeChip m.src then s
    else
      let r := s.arrive who 0 (fieldGet w 16 6) bs (if m.flowv then some (m.flow, m.seq) else none)
      if r.1 = Code.pending then r.2.2 else r.2.2.finishSend who 0 r.1 r.2.1
  else if m.sub = 1 then
    if Ident.chip who = s.chip ∧ s.fld (Fld.MBX_SEND_RES_DONE (mbxBlock who)) = 0 then
      s.finishSend who 0 ((m.payload[1]?).getD 0).toNat (w.getLsbD 16)
    else s
  else if m.sub = 2 && s.hasReceiver (Ident.src who) then s.ringLocal (Ident.src who) (fieldGet w 16 5)
  else s

/-! ### Delivery (R176) -/

/-- Local ID `l` accepts messages of a type (Table AVE-4). -/
def accepts (l type : Nat) : Bool :=
  if type = 1 ∨ type = 7 then true
  else if type = 2 ∨ type = 9 then l == 10
  else if type = 3 ∨ type = 4 then decide (l < 8)
  else if type = 5 then l == 8 || decide (l < 8)
  else if type = 6 then l == 9 || decide (l < 8)
  else if type = 8 ∨ type = 0xA then l == 10 || decide (l < 8)
  else false

/-- What the node named by DEST does with a message it accepts; messages that carry nothing for it do nothing. -/
def takeMsg (s : State) (l : Nat) (m : Msg) : State :=
  if m.type = 3 then s.takeEngineMsg l m
  else if m.type = 4 then s.takeSlice l m
  else if m.type = 5 then (if l = 8 then s.takeFrameMsg m else s)
  else if m.type = 6 then (if l = 9 then s.takeImage m else s)
  else if m.type = 7 then (if l = 10 then s.takeMail m else s)
  else if m.type = 8 then (if l < 8 then s.takeLeaseMsg l m else s)
  else if m.type = 9 then
    (if m.src % 16 < 8 ∧ nodeChip m.src = s.chip then s.takeLantern (m.src % 16) m.payload else s)
  else if m.type = 0xA then (if l = 10 then m.payload.foldl (fun s w => s.takeSuper (nodeChip m.src) w) s else s)
  else s

/-- The chip's nodes hold a message: one for another chip is ignored. -/
def deliverMsg (s : State) (m : Msg) : State :=
  if 0x80 ≤ m.dest then s.count Fld.AVE_CNT1_BAD_DEST
  else if nodeChip m.dest ≠ s.chip then s
  else if !s.hasLocal (m.dest % 16) || !accepts (m.dest % 16) m.type then s.count Fld.AVE_CNT1_BAD_DEST
  else s.takeMsg (m.dest % 16) m

/-- A message of one type comes in. -/
def arriveMsg (s : State) (type : Nat) (m : Msg) : State := if m.type = type then s.deliverMsg m else s

/-! ### Slots (R171) -/

/-- The action point of slot `k` in the current cycle. -/
def actionPoint (s : State) (k : Nat) : Nat := s.ave.cycleStart + 80 + 160 * k

/-- A frame goes onto the chip's Avenue. -/
def putOnAir (s : State) (k : Nat) (msgs : List Msg) : State :=
  s.setAve { s.ave with air := s.ave.air ++ [{ slot := k, at' := s.cycle, msgs := msgs }] }

/-- The transmitter of slot `k` sends: the owner on this chip, or the relay that replays another chip's frame. -/
def sendSlot (s : State) (k : Nat) : State :=
  let s := s.setAve { s.ave with slotDone := k :: s.ave.slotDone }
  let o := s.slotOwner k
  let ring := s.slotRing k
  if o ≠ 0xFF ∧ nodeChip o = s.chip then
    if s.maySend ring && s.hasLocal (o % 16) then
      let f := s.nodeFrame (o % 16) ring
      if f.1.isEmpty then f.2 else (f.2.emit (.slotFrame k ring (frameBeats f.1))).putOnAir k f.1
    else s
  else
    match s.ave.replay.find? fun r => r.slot == k with
    | some r => if s.aveState = 6 then s else s.putOnAir k r.msgs
    | none => s

/-! ### Dynamic segment (R178, R179) -/

/-- First offer and end of the dynamic segment of the current cycle. -/
def firstOffer (s : State) : Nat := s.ave.cycleStart + dynStart s.reg + 8 * s.claimSlots
def dynEnd (s : State) : Nat := s.ave.cycleStart + dynStart s.reg + 8 * s.fld Fld.AVE_SCHED_NMINI

/-- Cycle of the next offer, and the local ID it goes to: each segment begins with 0. -/
def nextOffer (s : State) : Nat × Nat :=
  if s.ave.dynFree < s.firstOffer then (s.firstOffer, 0) else (s.ave.dynFree, s.ave.turn)

/-- The message that a node sends at an offer: the front one of a gateway's TX ring 0. -/
def pickOffer (s : State) (l : Nat) : Option (Msg × State) :=
  if l < 8 ∧ l < s.variant.districts then
    let n := beatsBetween (s.fld (Fld.AVE_GW_PTR_HEAD l 0)) (s.fld (Fld.AVE_GW_PTR_TAIL l 0))
    let m := s.ringMsg l 0 (s.fld (Fld.AVE_GW_PTR_HEAD l 0))
    if s.ringBytes l 0 = 0 ∨ n = 0 then none
    else if s.txBad 0 m then none
    else some (m, s.setFld (Fld.AVE_GW_PTR_HEAD l 0) (s.fld (Fld.AVE_GW_PTR_HEAD l 0) + msgBeats m))
  else none

/-- Messages at the front of TX ring 0 that the gateway discards (R181). -/
def dropBad (l : Nat) : Nat → State → State
  | 0, s => s
  | fuel + 1, s =>
    let head := s.fld (Fld.AVE_GW_PTR_HEAD l 0)
    let m := s.ringMsg l 0 head
    if l < 8 ∧ s.ringBytes l 0 ≠ 0 ∧ head ≠ s.fld (Fld.AVE_GW_PTR_TAIL l 0) ∧ s.txBad 0 m then
      dropBad l fuel ((s.setFld (Fld.AVE_GW_PTR_HEAD l 0) (head + msgBeats m)).count (Fld.AVE_GW_CNT_TX_BAD l))
    else s

/-- An offer is made: a message whose last beat would leave after DE − 16 is not started. -/
def offer (s : State) : State :=
  let q := s.nextOffer
  let l := q.2
  let idle (s : State) : State := s.setAve { s.ave with turn := (l + 1) % 13, dynFree := q.1 + 8 }
  let s := dropBad l (beatsBetween (s.fld (Fld.AVE_GW_PTR_HEAD l 0)) (s.fld (Fld.AVE_GW_PTR_TAIL l 0))) s
  match s.pickOffer l with
  | some (m, s') =>
    if q.1 + msgBeats m ≤ s.dynEnd - 15 then
      -- a message of b beats is held b + 15 cycles after its first beat (R174)
      (s'.setAve { s'.ave with
        turn := (l + 1) % 13, dynFree := q.1 + 8 * ((msgBeats m + 15) / 8)
        dynAir := s'.ave.dynAir ++ [(q.1 + msgBeats m + 15, m)] }).emit (.dynamicMsg (s.aveNode l) (frameBeats [m]))
    else idle s
  | none => idle s

/-- Messages of the dynamic segment whose cycle has come are held (R174). -/
def holdDynamic (s : State) : State :=
  let now := s.ave.dynAir.filter fun p => decide (p.1 ≤ s.cycle)
  now.foldl (fun s p => s.deliverMsg p.2)
    (if now.isEmpty then s else s.setAve { s.ave with dynAir := s.ave.dynAir.filter fun p => !decide (p.1 ≤ s.cycle) })

end State

/-- STATIC_SLOT: the action point of slot `k` (R171). -/
def execStaticSlot (k : Nat) (s : State) : Answer :=
  .next (s.live fun s => (if s.ave.started && decide (k < s.fld Fld.AVE_SCHED_NSTATIC) && s.cycle == s.actionPoint k &&
    !s.ave.slotDone.contains k then s.sendSlot k else s))

/-- SLOT_FRAME_RECEIPT (R172–R174): the chip's nodes hold the oldest frame on the Avenue, whose first beat came `off`
cycles from the action point; `bad` when a beat is uncorrectable, the gate closed on it or FCRC fails. -/
def execSlotFrameReceipt (off : Int) (bad : Bool) (s : State) : Answer :=
  .next (s.live fun s => (
    match s.ave.air with
    | f :: rest =>
      if s.cycle < f.at' + (f.msgs.map msgBeats).sum + 15 then s
      else
        let s := s.setAve { s.ave with air := rest }
        if 8 < off.natAbs then s.count Fld.AVE_CNT0_WINDOW
        else if bad then s.count Fld.AVE_CNT0_CHECK
        else f.msgs.foldl (fun s m => s.deliverMsg m) s
    | [] => s))

/-- DYNAMIC_OFFER (R179), on a mini-slot boundary of the segment. -/
def execDynamicOffer (s : State) : Answer :=
  .next (s.live fun s => (if s.ave.started && decide (s.nextOffer.1 ≤ s.cycle ∧ s.cycle < s.dynEnd) then s.offer else s))

/-- ENGINE (R181). -/
def execEngine (m : Msg) (s : State) : Answer := .next (s.live fun s => (s.arriveMsg 3 m))

/-- SLICE (R183). -/
def execSlice (m : Msg) (s : State) : Answer := .next (s.live fun s => (s.arriveMsg 4 m))

/-- FRAME (R212). -/
def execFrame (m : Msg) (s : State) : Answer := .next (s.live fun s => (s.arriveMsg 5 m))

/-- IMAGE (R399). -/
def execImage (m : Msg) (s : State) : Answer := .next (s.live fun s => (s.arriveMsg 6 m))

/-- MAILBOX (R468). -/
def execMailbox (m : Msg) (s : State) : Answer := .next (s.live fun s => (s.arriveMsg 7 m))

/-- LEASE_MESSAGE (R148). -/
def execLeaseMessage (m : Msg) (s : State) : Answer := .next (s.live fun s => (s.arriveMsg 8 m))

/-- LANTERN (R432). -/
def execLantern (m : Msg) (s : State) : Answer := .next (s.live fun s => (s.arriveMsg 9 m))

/-- SUPER (R449). -/
def execSuper (m : Msg) (s : State) : Answer := .next (s.live fun s => (s.arriveMsg 0xA m))

end Sys2Proof.Machine
end

