-- ==== Sys2Proof/Machine/Island.lean ====
section
/-!
DEFINITION. The safety island's parameter set, seals, inputs, encoders and speeds, its messages and its mirror
(R473–R486, R493–R501). What one cycle decides stands in IslandCycle.
-/

namespace Sys2Proof.Machine

/-! ### The parameter set (R482, R483) -/

/-- Bytes of a parameter set. -/
def setLen : Nat := 0x25C

/-- `n` bytes of a set from an offset, least significant first. -/
def setAt (b : List Byte) (o : Nat) : Nat → Nat
  | 0 => 0
  | n + 1 => ((b[o]?).getD 0).toNat + 256 * setAt b (o + 1) n

/-- A field of `n` bytes lies in a range. -/
def setIn (b : List Byte) (o n lo hi : Nat) : Bool := decide (lo ≤ setAt b o n ∧ setAt b o n ≤ hi)

/-- Bytes that the layout gives as 0. -/
def setZero (b : List Byte) (o n : Nat) : Bool := setAt b o n == 0

/-- Offsets of INPUT n, AXIS k and CONN c. -/
def inputAt (n : Nat) : Nat := 0x018 + 8 * n
def axisAt (k : Nat) : Nat := 0x058 + 64 * k
def connAt (c : Nat) : Nat := 0x158 + 16 * c

/-- KIND of an input: 1 GUARD, 2 ESTOP, 3 ACK. -/
def inputKind (b : List Byte) (n : Nat) : Nat := setAt b (inputAt n) 1

/-- An axis is enabled. -/
def axisOn (b : List Byte) (k : Nat) : Bool := setAt b (axisAt k) 1 == 1

/-- Table SAFE-5 holds of an input. -/
def inputOk (b : List Byte) (n : Nat) : Bool :=
  let o := inputAt n
  setIn b o 1 0 3 && setIn b (o + 1) 1 0 1 && setIn b (o + 2) 1 1 50 && setIn b (o + 3) 1 0 1 &&
    setIn b (o + 4) 2 1 500 && setZero b (o + 6) 2

/-- Table SAFE-6 holds of an axis. -/
def axisOk (b : List Byte) (k : Nat) : Bool :=
  let o := axisAt k
  setIn b o 1 0 1 && setIn b (o + 1) 1 0 3 && (setIn b (o + 2) 1 0 3 || setIn b (o + 2) 1 0x10 0x1F) &&
    setIn b (o + 3) 1 1 100 && setIn b (o + 16) 4 1 0xFFFFFFFF && setIn b (o + 24) 4 0 1000 &&
    setIn b (o + 28) 4 1 60000 && setIn b (o + 36) 1 1 255 && setZero b (o + 37) 3 && setIn b (o + 44) 2 1 1000 &&
    setIn b (o + 46) 2 1 3600 && setZero b (o + 48) 16

/-- Table SAFE-7 holds of a connection. -/
def connOk (b : List Byte) (c : Nat) : Bool :=
  let o := connAt c
  setIn b o 1 0 3 && setIn b (o + 1) 1 0 3 && setIn b (o + 2) 2 1 1000 && setZero b (o + 8) 8

/-- The head of Table SAFE-3 within its ranges; BC_ID names an engine (R35). -/
def headOk (b : List Byte) : Bool :=
  setIn b 0x00C 1 1 255 && setIn b 0x00D 1 0 61 && setIn b 0x00E 1 0 61 && setAt b 0x00D 1 != setAt b 0x00E 1 &&
    setZero b 0x00F 1 && setIn b 0x010 1 0x10 0x6F && setAt b 0x011 1 % 32 == 0 && setZero b 0x012 6

/-- Item 3 of R483. -/
def kindsOk (b : List Byte) : Bool :=
  let kinds := (List.range 8).map (inputKind b)
  kinds.count 3 == 1 && decide (0 < kinds.count 1) &&
    (List.range 8).all fun n => !(setAt b 0x00C 1).testBit n || inputKind b n == 1

/-- Encoders that the enabled axes name, as first source and as second. -/
def encodersUsed (b : List Byte) : List Nat :=
  (List.range 4).flatMap fun k =>
    if axisOn b k then
      setAt b (axisAt k + 1) 1 :: (if setAt b (axisAt k + 2) 1 < 4 then [setAt b (axisAt k + 2) 1] else [])
    else []

/-- Item 4 of R483. -/
def sourcesOk (b : List Byte) : Bool :=
  (encodersUsed b).Nodup &&
    (List.range 4).all fun k =>
      let s2 := setAt b (axisAt k + 2) 1
      !axisOn b k || decide (s2 < 4) || setAt b (connAt (s2 - 0x10)) 1 != 0

/-- Item 1 of R483 for a seal selection. -/
def setHeld (b : List Byte) (sel : Nat) : Bool :=
  setAt b 0 4 == 0x31534653 && setAt b 5 1 == 1 && setAt b 6 2 == 0x025C &&
    setAt b 0x258 4 == crc32cBytes ((b.take 0x258).map (·.toNat)) && setAt b 4 1 == sel

/-- Code of an invalid set, 0x11 SET_CRC or 0x12 SET_FIELD; 0 for a valid one (R483). -/
def setCode (b : List Byte) (sel : Nat) : Nat :=
  if !setHeld b sel then 0x11
  else if headOk b && (List.range 8).all (inputOk b) && (List.range 4).all (axisOk b) &&
      (List.range 16).all (connOk b) && kindsOk b && sourcesOk b then 0
  else 0x12

/-! ### Filters, seals and inputs (R480, R484, R485) -/

/-- One sample of a filtered input: the level changes after `n` consecutive samples that differ from it. -/
def Filtered.take (f : Filtered) (n : Nat) (x : Bool) : Filtered :=
  if x = f.level then { f with run := 0 }
  else if n ≤ f.run + 1 then { level := x, run := 0 }
  else { f with run := f.run + 1 }

/-- A seal's filtered level. -/
def Island.seal (i : Island) (k : Nat) : Bool := (Store.get (fun _ => ({} : Filtered)) i.seals k).level

/-- Pair k reads 1. -/
def Island.pairOn (i : Island) (k : Nat) : Bool := i.seal (2 * k) && !i.seal (2 * k + 1)

/-- A seal fault (R480): a pair that reads alike, or a pair 5–7 that reads 1. -/
def Island.sealFault (i : Island) : Bool :=
  (List.range 8).any fun k => i.seal (2 * k) == i.seal (2 * k + 1) || (decide (5 ≤ k) && i.pairOn k)

/-- Program-enable. -/
def Island.pe (i : Island) : Bool := i.pairOn 0

/-- The selected set, SET[3:0] of pairs 1–4. -/
def Island.selected (i : Island) : Nat :=
  (List.range 4).foldl (fun v k => v + if i.pairOn (1 + k) then 2 ^ k else 0) 0

/-- Input n. -/
def Island.input (i : Island) (n : Nat) : SafeIn := Store.get (fun _ => {}) i.inputs n

/-- Input n replaced. -/
def Island.setInput (i : Island) (n : Nat) (x : SafeIn) : Island :=
  { i with inputs := Store.set (fun _ => {}) i.inputs n x }

/-- State of an input: 0 CLOSED, 1 OPEN, 2 DISCREPANT, 3 FAULT (R484). -/
def inputState (antivalent : Bool) (x : SafeIn) : Nat :=
  if x.fault then 3
  else
    let b := x.b.level != antivalent
    if x.a.level && b then 0 else if !x.a.level && !b then 1 else 2

/-- MODE 1 of an input. -/
def antivalent (b : List Byte) (n : Nat) : Bool := setAt b (inputAt n + 1) 1 == 1

/-- State of input n under the set in force. -/
def Island.inState (i : Island) (n : Nat) : Nat := inputState (antivalent i.set n) (i.input n)

/-- One sample of an input at sample `t` (R484): the channels are filtered, a discrepancy that has lasted longer than
DISC_MS becomes a fault, and both channels open end one. -/
def sampleInput (b : List Byte) (n t : Nat) (x : SafeIn) (a bb : Bool) : SafeIn :=
  let f := setAt b (inputAt n + 2) 1
  let y := { x with a := x.a.take f a, b := x.b.take f bb }
  let st := inputState (antivalent b n) { y with fault := false }
  let y := if st = 1 then { y with fault := false } else y
  if st = 2 then
    match y.disc with
    | none => { y with disc := some t }
    | some t0 => if setAt b (inputAt n + 4) 2 * 10 < t - t0 then { y with fault := true } else y
  else { y with disc := none }

/-- Progress of a guard cycle and of an acknowledgement at a sample, from the state before it (R485): `openFrom` is
the start of the open phase, or for an ACK input the end of the closed one; `opened` says that the phase was long
enough, or that an acknowledgement has ended. -/
def phaseInput (b : List Byte) (n t before : Nat) (x : SafeIn) : SafeIn :=
  let st := inputState (antivalent b n) x
  if inputKind b n = 3 then
    if st = 3 then { x with heldFrom := none, openFrom := none }
    else if st = 0 then
      if before = 0 ∧ x.heldFrom.isSome then x else { x with heldFrom := some t, openFrom := none }
    else
      let x := if x.heldFrom.isSome ∧ x.openFrom.isNone then { x with openFrom := some t } else x
      if st = 1 then
        match x.heldFrom, x.openFrom with
        | some t0, some t1 =>
          { x with heldFrom := none, openFrom := none, opened := x.opened || decide (1000 ≤ t1 - t0 ∧ t1 - t0 ≤ 30000) }
        | _, _ => x
      else x
  else if st = 3 then { x with openFrom := none, opened := false }
  else if st = 1 then
    match x.openFrom with
    | none => { x with openFrom := some t }
    | some t0 => { x with opened := x.opened || decide (100 ≤ t - t0) }
  else if st = 0 then { x with openFrom := none, opened := false }
  else
    match x.openFrom with
    | some t0 => { x with openFrom := none, opened := x.opened || decide (100 ≤ t - t0) }
    | none => x

/-- A guard cycle of an input ends with this sample: it reads CLOSED after an open phase of at least 10 ms. -/
def cycleEnds (b : List Byte) (n t : Nat) (x y : SafeIn) : Bool :=
  inputState (antivalent b n) y == 0 &&
    (x.opened || x.openFrom.any fun t0 => decide (100 ≤ t - t0))

/-- One sample of every input under the set in force; a new fault is recorded (R484). -/
def Island.sampleInputs (i : Island) (a b : BitVec 8) : Island :=
  if i.set.isEmpty then i
  else
    (List.range 8).foldl (fun i n =>
      if inputKind i.set n = 0 then i
      else
        let x := i.input n
        let before := inputState (antivalent i.set n) x
        let y := sampleInput i.set n i.samples x (a.getLsbD n) (b.getLsbD n)
        let done := inputKind i.set n == 1 && cycleEnds i.set n i.samples x y
        let z := phaseInput i.set n i.samples before y
        let i := i.setInput n z
        let i := if done then { i with owed := i.owed &&& (0xFF ^^^ 2 ^ n) } else i
        if y.fault && !x.fault then { i with code := 0x20, detail := n } else i) i

/-! ### Encoders and speeds (R495, R496) -/

/-- Encoder n. -/
def Island.enc (i : Island) (n : Nat) : Encoder := Store.get (fun _ => {}) i.encoders n

/-- Encoder n replaced. -/
def Island.setEnc (i : Island) (n : Nat) (x : Encoder) : Island :=
  { i with encoders := Store.set (fun _ => {}) i.encoders n x }

/-- Place of an A and B pair in the ×4 sequence, A leading when the count rises. -/
def quadrature (a b : Bool) : Int := if a then (if b then 2 else 1) else if b then 3 else 0

/-- One sample of an encoder whose axis checks `rev` counts between index pulses. -/
def Encoder.take (x : Encoder) (rev : Nat) (a b z : Bool) : Encoder :=
  let both := a != x.a && b != x.b
  let step : Int := (quadrature a b - quadrature x.a x.b) % 4
  let count := if both then x.count else if step = 1 then x.count + 1 else if step = 3 then x.count - 1 else x.count
  let rise := z && !x.z
  let wrong := rise && rev != 0 &&
    x.atZ.any fun c => decide (4 < ((count - c).natAbs - (rev : Int)).natAbs)
  { x with count := count, a := a, b := b, z := z, atZ := if rise then some count else x.atZ
           fault := x.fault || both || wrong }

/-- Speed of an encoder over WIN_MS (R496). -/
def Encoder.speed (x : Encoder) (win : Nat) : Int := Int.tdiv ((x.count - x.past.getD win 0) * 1000) win

/-- Connection c. -/
def Island.conn (i : Island) (c : Nat) : Conn := Store.get (fun _ => {}) i.conns c

/-- Connection c replaced. -/
def Island.setConn (i : Island) (c : Nat) (x : Conn) : Island :=
  { i with conns := Store.set (fun _ => {}) i.conns c x }

/-- Axis k. -/
def Island.axis (i : Island) (k : Nat) : Axis := Store.get (fun _ => {}) i.axes k

/-- Axis k replaced. -/
def Island.setAxis (i : Island) (k : Nat) (x : Axis) : Island :=
  { i with axes := Store.set (fun _ => {}) i.axes k x }

/-- First speed of axis k. -/
def Island.v1 (i : Island) (k : Nat) : Int :=
  (i.enc (setAt i.set (axisAt k + 1) 1)).speed (setAt i.set (axisAt k + 3) 1)

/-- Second speed of axis k after SCALE2, while it is valid. -/
def Island.v2 (i : Island) (k : Nat) : Option Int :=
  let src := setAt i.set (axisAt k + 2) 1
  let scale : Int := setAt i.set (axisAt k + 8) 4
  if src < 4 then some (Int.tdiv ((i.enc src).speed (setAt i.set (axisAt k + 3) 1) * scale) 65536)
  else if (i.conn (src - 0x10)).up then some (Int.tdiv ((i.conn (src - 0x10)).speed * scale) 65536)
  else none

/-- Monitored speed of axis k. -/
def Island.speed (i : Island) (k : Nat) : Nat :=
  match i.v2 k with
  | some v => max (i.v1 k).natAbs v.natAbs
  | none => (i.v1 k).natAbs

/-- Envelope limit `dt` ms after t0 (R489). -/
def envelope (v0 tol decel react dt : Nat) : Nat :=
  if dt ≤ react then v0 + tol else tol + (v0 - decel * (dt - react) / 1000)

/-- Limit of axis k in the current cycle. -/
def Island.limit (i : Island) (k : Nat) : Nat :=
  let x := i.axis k
  envelope x.v0 (setAt i.set (axisAt k + 20) 4) (setAt i.set (axisAt k + 16) 4) (setAt i.set (axisAt k + 24) 4)
    (i.cycles - x.t0)

/-- A fault code is recorded. -/
def Island.record (i : Island) (code detail : Nat) : Island := { i with code := code, detail := detail }

/-! ### Permit (R486) -/

/-- Mode named by the last message while it is no more than 20 ms old. -/
def Island.named (i : Island) : Option Nat :=
  match i.permit with
  | some (m, t) => if i.cycles - t ≤ 20 then some m else none
  | none => none

/-- The permit is present. -/
def Island.permitted (i : Island) : Bool :=
  !i.line && i.named.any fun m => m == Mode.commission || m == Mode.run || m == Mode.degraded

/-! ### The island in the device -/

namespace State

/-- The island works: present and not held in reset by its supply. -/
def hasIsland (s : State) : Bool := s.variant.hasIsland && !s.island.reset

/-- The island replaced. -/
def setIsland (s : State) (i : Island) : State := { s with island := i }

/-- The mode line shows BOOT or reset (R54). -/
def modeLine (s : State) : Bool := s.inReset || s.mode == Mode.boot

/-- Identity of the island. -/
def islandId (s : State) : Ident := s.ident 0xF8

/-- What the pads show: STO drive, and SAFE_FAULT_N high. -/
def showSto (s : State) : State := s.emit (.sto s.island.drive s.island.faultN)

/-- The hardware path takes every STO output off. -/
def stoOff (s : State) : State := (s.setIsland { s.island with drive := 0 }).showSto

/-- SAFE_FAULT_N is high in a state (R501); the mode line overrides it (R54). -/
def faultHigh (st : Nat) (line : Bool) : Bool := st != 1 && st != 6 && !line

/-- The island enters a state: SAFE_FAULT_N follows, and the doorbell of R475 rings. -/
def islandTo (s : State) (st : Nat) : State :=
  if s.island.state = st then s
  else
    let s1 := s.setIsland { s.island with state := st, faultN := faultHigh st (s.island.line || s.modeLine) }
    let s2 := s1.notify (.islandState st)
    if s.inReset then s2 else s2.ringLocal 0xF0 0

/-- FAULT, latched, with its code (R501): every STO output is off and SAFE_FAULT_N low. -/
def islandFault (s : State) (code detail : Nat) : State :=
  let i := s.island.record code detail
  ((s.setIsland { i with drive := 0, faultN := false }).islandTo 6).showSto

/-- Island channel `c` is opened where it is FREE (R474). -/
def openIsland (s : State) (c : Nat) (any : Bool) (allow : Ident) : State :=
  if (s.channel c).holder.isSome || s.inReset then s else s.takeChannel s.islandId c 4 0 any allow

/-- Channels 62 and 63, and the black-channel channel while a valid set is in force. -/
def openIslandChannels (s : State) : State :=
  let s := (s.openIsland 63 false (s.ident 0xF0)).openIsland 62 true 0
  if s.island.set.isEmpty then s
  else s.openIsland (setAt s.island.set 0x00D 1) false (BitVec.ofNat 16 (setAt s.island.set 0x010 2))

/-- A channel of the island's. -/
def heldByIsland (s : State) (c : Nat) : Bool := (s.channel c).holder.any fun h => Ident.isIsland h

/-- The oldest message of an island's channel. -/
def islandMail (s : State) (c : Nat) : Option MbxMsg := if s.heldByIsland c then (s.channel c).queue.head? else none

/-- The island acknowledges the oldest message of a channel. -/
def islandAck (s : State) (c code : Nat) : State := s.ackChannel s.islandId c code

/-! ### The mirror (Tables SAFE-10 to SAFE-15) -/

/-- SAFE_STAT. -/
def mirrorStat (i : Island) : Word :=
  let valid := if i.set.isEmpty then !i.sealFault && setCode (i.mram.readBytes (i.selected * 0x1000) setLen) i.selected == 0
    else true
  let done := i.owed == 0 && i.state != 4 && i.state != 5
  let up := (List.range 16).foldl (fun v c => v + if (i.conn c).up then 2 ^ c else 0) 0
  BitVec.ofNat 32 (i.state + 8 * bit i.pe + 16 * bit i.permitted + 32 * bit i.executed + 64 * bit i.acked +
    128 * bit done + 256 * i.selected + 4096 * bit valid + 65536 * up)

/-- The mirror is written whole. -/
def writeMirror (s : State) : State :=
  let i := s.island
  let raw := (List.range 16).foldl (fun v k => v + if i.seal k then 2 ^ k else 0) 0
  let ins := (List.range 8).foldl (fun v n => v + (if inputKind i.set n = 0 then 0 else i.inState n) * 4 ^ n) 0
  let off := (List.range 4).foldl (fun v k => v + if (i.axis k).off then 2 ^ k else 0) 0
  let s := s.setReg Reg.SAFE_STAT (mirrorStat i)
  let s := s.setReg Reg.SAFE_SEAL (BitVec.ofNat 32 (raw + 65536 * bit i.sealFault))
  let s := s.setReg Reg.SAFE_IN (BitVec.ofNat 32 (ins + 65536 * i.owed))
  let s := s.setReg Reg.SAFE_STO (BitVec.ofNat 32 (i.drive + 256 * i.readback + 65536 * off))
  let s := s.setReg Reg.SAFE_FAULT
    (BitVec.ofNat 32 (i.code + 256 * i.detail + 65536 * bit (i.state == 6) + 2 ^ 24 * (i.ecc % 256)))
  (List.range 4).foldl (fun s k =>
    let on := axisOn i.set k
    (s.setReg (Reg.SAFE_AX_V1 k) (if on then BitVec.ofInt 32 (i.v1 k) else 0)).setReg (Reg.SAFE_AX_V2 k)
      (if on then BitVec.ofInt 32 ((i.v2 k).getD 0) else 0)) s

end State

end Sys2Proof.Machine
end

