-- ==== Sys2Proof/Machine/IslandCycle.lean ====
section
/-!
DEFINITION. The island's cycle (R477–R493, R497–R502) and its rows: messages, samples, supply and clock events.
-/

namespace Sys2Proof.Machine

namespace Island

/-! ### Demands and faults (R484, R486, R491) -/

/-- A GUARD or ESTOP input that is not CLOSED. -/
def demanding (i : Island) (n : Nat) : Bool :=
  (inputKind i.set n == 1 || inputKind i.set n == 2) && i.inState n != 0

/-- Seals that no longer stand for the set in force (R481). -/
def sealChange (i : Island) : Bool := i.sealFault || i.pe || i.selected != i.number

/-- A demand without ramp. -/
def hardDemand (i : Island) : Bool :=
  i.line || i.named == some Mode.load ||
    (List.range 8).any fun n => i.demanding n && setAt i.set (inputAt n + 3) 1 == 1

/-- A demand with ramp; a seal change, a lost connection and SAFE_HOLD are one in RELEASED alone. -/
def softDemand (i : Island) : Bool :=
  i.timeout || i.named.isNone || (List.range 8).any i.demanding ||
    (i.state == 4 && (i.lost || i.sealChange || i.named == some Mode.safeHold))

/-- Axis fault of an enabled axis and its code with detail (R495, R497). -/
def axisFault (i : Island) (k : Nat) : Option (Nat × Nat) :=
  let e1 := setAt i.set (axisAt k + 1) 1
  let e2 := setAt i.set (axisAt k + 2) 1
  if !axisOn i.set k then none
  else if (i.enc e1).fault then some (0x21, e1)
  else if e2 < 4 ∧ (i.enc e2).fault then some (0x21, e2)
  else if (i.axis k).fault then some (0x22, k)
  else none

/-- An enabled axis has a fault. -/
def anyFault (i : Island) : Bool := (List.range 4).any fun k => (i.axisFault k).isSome

/-- The two speeds of each enabled axis are compared (R497). -/
def compareSpeeds (i : Island) : Island :=
  (List.range 4).foldl (fun i k =>
    if axisOn i.set k then
      let x := i.axis k
      let far := match i.v2 k with
        | some v => decide (setAt i.set (axisAt k + 40) 4 < (i.v1 k - v).natAbs)
        | none => false
      if far then
        match x.disc with
        | none => i.setAxis k { x with disc := some i.cycles, fault := false }
        | some t =>
          let long := decide (setAt i.set (axisAt k + 44) 2 < i.cycles - t)
          let i := i.setAxis k { x with fault := long }
          if long && !x.fault then i.record 0x22 k else i
      else i.setAxis k { x with disc := none, fault := false }
    else i) i

/-- The encoder faults of the enabled axes are recorded (R495, R501). -/
def recordEncoders (i : Island) : Island :=
  (encodersUsed i.set).foldl (fun i n => if (i.enc n).fault then i.record 0x21 n else i) i

/-! ### Entering states (R477, R481, R485) -/

/-- Every axis is torque-off. -/
def allOff (i : Island) : Island := (List.range 4).foldl (fun i k => i.setAxis k { i.axis k with off := true }) i

/-- GUARD inputs of a property, as bits. -/
def guards (i : Island) (f : Nat → Bool) : Nat :=
  (List.range 8).foldl (fun v n => v + if inputKind i.set n == 1 && f n then 2 ^ n else 0) 0

/-- STOPPED, from NOCONFIG or from another state. -/
def toStopped (i : Island) (fresh : Bool) : Island :=
  let owed := i.guards fun n => fresh || (setAt i.set 0x00C 1).testBit n || i.inState n != 0
  { i.allOff with state := 2, acked := false, owed := owed }

/-- NOCONFIG: no set is in force; a seal fault is recorded (R480). -/
def toNoConfig (i : Island) : Island :=
  let i := if i.sealFault then i.record 0x10 0 else i
  { i.allOff with state := 1, set := [], inputs := [], conns := [], reseal := false, owed := 0, acked := false }

/-- A stop has been executed (R478). -/
def executedStop (i : Island) : Island := { i.toStopped false with executed := true, report := true }

/-! ### What each state decides -/

/-- NOCONFIG (R480, R481, R483). -/
def noConfigStep (i : Island) : Island :=
  if i.sealFault then i.record 0x10 0
  else
    let b := i.mram.readBytes (i.selected * 0x1000) setLen
    let c := setCode b i.selected
    if c ≠ 0 then i.record c 0
    else if i.pe then i
    else
      let j := { i with set := b, number := i.selected, inputs := [], reseal := false, lost := false
                        conns := (List.range 16).foldl (fun st k =>
                          Store.set (fun _ => {}) st k { ({} : Conn) with valid := i.cycles }) [] }
      j.toStopped true

/-- STOPPED (R481, R485); `ack` is an acknowledgement that has just ended. -/
def stoppedStep (i : Island) (ack : Bool) : Island :=
  if i.sealChange then i.toNoConfig
  else
    let quiet := !(i.hardDemand || i.softDemand || i.anyFault) && i.owed == 0
    let i := if quiet && ack then { i with acked := true } else i
    if quiet && i.acked then { i with state := 3 } else i

/-- Every connection with a profile is up. -/
def allUp (i : Island) : Bool := (List.range 16).all fun c => setAt i.set (connAt c) 1 == 0 || (i.conn c).up

/-- READY (R481, R487, R492). -/
def readyStep (i : Island) : Island :=
  if i.sealChange then i.toNoConfig
  else if i.hardDemand || i.softDemand || i.anyFault then i.toStopped false
  else if i.permitted && i.allUp then
    (List.range 4).foldl (fun i k =>
      if axisOn i.set k then i.setAxis k { i.axis k with off := false, dark := i.cycles, still := 0 } else i)
      { i with state := 4, executed := false, acked := false }
  else i

/-- One axis at a check in STOPPING: the first test of R490 that is met makes it torque-off. -/
def stopAxis (i : Island) (k : Nat) : Island :=
  let x := i.axis k
  if !axisOn i.set k || x.off then i
  else
    let v := i.speed k
    let still := if v ≤ setAt i.set (axisAt k + 32) 4 then x.still + 1 else 0
    let off := i.setAxis k { x with off := true }
    if i.cycles = x.t0 ∧ setAt i.set (axisAt k + 12) 4 < x.v0 then off.record 0x25 k
    else if i.limit k < v then off.record 0x24 k
    else
      match i.axisFault k with
      | some (c, d) => off.record c d
      | none =>
        if setAt i.set (axisAt k + 36) 1 ≤ still ∨ setAt i.set (axisAt k + 28) 4 ≤ i.cycles - x.t0 then off
        else i.setAxis k { x with still := still }

/-- STOPPING (R490, R491, R481). -/
def stoppingStep (i : Island) : Island :=
  let i := if i.sealChange then { i with reseal := true } else i
  let i := if i.hardDemand then i.allOff else (List.range 4).foldl stopAxis i
  if (List.range 4).all fun k => !axisOn i.set k || (i.axis k).off then
    if i.reseal then { i.toNoConfig with executed := true } else i.executedStop
  else i

/-- RELEASED (R488, R491). -/
def releasedStep (i : Island) : Island :=
  if i.hardDemand then i.executedStop
  else if i.softDemand || i.anyFault then
    let i := (List.range 4).foldl (fun i k =>
      match i.axisFault k with
      | some (c, d) => (i.setAxis k { i.axis k with off := true, t0 := i.cycles }).record c d
      | none =>
        if axisOn i.set k then i.setAxis k { i.axis k with t0 := i.cycles, v0 := i.speed k, still := 0 } else i)
      { i with state := 5, reseal := i.sealChange }
    i.stoppingStep
  else i

/-- What the cycle decides. -/
def evaluate (i : Island) : Island :=
  let ack := (List.range 8).any fun n => inputKind i.set n == 3 && (i.input n).opened
  let i := (List.range 8).foldl (fun i n =>
    if inputKind i.set n = 3 ∧ (i.input n).opened then i.setInput n { i.input n with opened := false } else i) i
  let i := i.compareSpeeds.recordEncoders
  let j :=
    if i.state = 1 then i.noConfigStep
    else if i.state = 2 then i.stoppedStep ack
    else if i.state = 3 then i.readyStep
    else if i.state = 4 then i.releasedStep
    else if i.state = 5 then i.stoppingStep
    else i
  { j with lost := false, encoders := (List.range 4).foldl (fun st n =>
      Store.set (fun _ => {}) st n { Store.get (fun _ => ({} : Encoder)) st n with fault := false }) j.encoders }

/-! ### Steps of the cycle (R479) -/

/-- A new cycle: the encoders' counts are kept for 100 of them. -/
def startCycle (i : Island) (line : Bool) (readback : Nat) : Island :=
  { i with
    cycles := i.cycles + 1
    line := i.line || line
    readback := readback
    encoders := (List.range 4).foldl (fun st n =>
      let x : Encoder := Store.get (fun _ => {}) st n
      Store.set (fun _ => {}) st n { x with past := (x.count :: x.past).take 101 }) i.encoders }

/-- A message received before the cycle. -/
def applyMsg (i : Island) : IslandMsg → Island
  | .mode m =>
    { i with permit := some (m, i.cycles), timeout := false
             report := i.report || (i.state == 2 && (m == Mode.run || m == Mode.degraded)) }
  | .pdu c valid up speed sto =>
    if valid && setAt i.set (connAt c) 1 != 0 && decide (c < 16) then
      let x := i.conn c
      i.setConn c { x with valid := i.cycles, up := x.up || up, speed := speed, sto := sto }
    else i

/-- Every message received before the cycle. -/
def applyInbox (i : Island) : Island := { i.inbox.foldl applyMsg i with inbox := [] }

/-- STO drive of the state and the axes (Table SAFE-1, R493, R494), and SAFE_FAULT_N (R501). -/
def driveOf (i : Island) : Nat :=
  if (i.state == 4 || i.state == 5) && !i.line then
    (List.range 4).foldl (fun v k => v + if axisOn i.set k && !(i.axis k).off then 3 * 4 ^ k else 0) 0
  else 0

/-- The outputs are driven. -/
def driveAll (i : Island) : Island :=
  { i with drive := i.driveOf, faultN := State.faultHigh i.state i.line }

/-- Safe data byte to the drive of connection `c` (Table SAFE-8, R487–R490). -/
def safeData (i : Island) (c : Nat) : Nat :=
  let off := (i.axis (setAt i.set (connAt c + 1) 1)).off
  if i.state = 4 then 1 else if i.state = 5 ∧ !off then 3 else 0

end Island

namespace State

/-- A PDU is offered to BC_TX_CH (R475, R476). -/
def offerPdu (s : State) (c : Nat) (bs : List Byte) : State :=
  let r := s.arrive s.islandId c (setAt s.island.set 0x00E 1 % 64) bs none
  let s := r.2.2
  let x := { s.island.conn c with offered := s.island.samples }
  if r.1 = Code.pending then
    s.setIsland (s.island.setConn c { x with pending := true, result := Code.pending, sent := s.island.cycles, resend := none })
  else
    s.setIsland (s.island.setConn c { x with result := r.1, resend := if r.1 = Code.busy then some bs else none })

/-- The cycle's PDUs, in ascending connection number; those of the cycle before that were still refused are
dropped. -/
def sendPdus (s : State) : State :=
  (List.range 16).foldl (fun (s : State) c =>
    let i := s.island
    let x := i.conn c
    let s := s.setIsland (i.setConn c { x with resend := none })
    if setAt i.set (connAt c) 1 = 0 ∨ x.pending ∨ s.inReset then s
    else
      let bs := BitVec.ofNat 8 c ::
        (Config.bcPdu (setAt i.set (connAt c) 1) (setAt i.set (connAt c + 4) 4) (i.safeData c) s.free).take 255
      (s.draw).offerPdu c bs) s

/-- What follows when the cycle's decision changed the state. -/
def settleIsland (s : State) (i : Island) : State :=
  (s.setIsland { i with state := s.island.state }).islandTo i.state

/-- A whole cycle without a fault of the island's own. -/
def islandWork (s : State) : State :=
  let i := ((s.island.applyInbox).evaluate).driveAll
  let s := s.settleIsland i
  let s := s.showSto.sendPdus
  s.setIsland { s.island with line := s.modeLine }

/-- One cycle (R479), with what the memories met and the STO read-back. -/
def islandCycle (s : State) (readback : Nat) (err : IslandErr) : State :=
  let i := s.island.startCycle s.modeLine readback
  let s := s.setIsland i
  let s :=
    if i.state = 6 then s.setIsland { i with inbox := [] }
    else if readback ≠ i.drive then s.islandFault 0x06 (((List.range 8).find? fun k => readback.testBit k != i.drive.testBit k).getD 0 / 2)
    else
      match err with
      | .sram => s.islandFault 0x02 0
      | .mram => if i.state = 1 then s.islandFault 0x07 i.selected else s.islandWork
      | .corrected k => (s.setIsland { i with ecc := (i.ecc + k) % 256 }).islandWork
      | .none => s.islandWork
  if s.inReset then s else s.openIslandChannels.writeMirror

/-- The island rows act while the island works. -/
def islandRow (s : State) (f : State → State) : State := if s.hasIsland then f s else s

/-- A mode message (R486): the oldest message of channel 63, or the supervisor's next one with the mode. -/
def modeMessage (s : State) : State :=
  match s.islandMail 63 with
  | some m =>
    match m.data with
    | b :: c :: _ =>
      if b = 0x10 then
        (s.setIsland { s.island with inbox := s.island.inbox ++ [.mode c.toNat] }).islandAck 63 Code.ok
      else s.islandAck 63 Code.badArg
    | _ => s.islandAck 63 Code.badArg
  | none =>
    if s.heldByIsland 63 && !s.modeLine then
      s.through 5 fun s => s.setIsland { s.island with inbox := s.island.inbox ++ [.mode s.mode] }
    else s

/-- WRONG_STATE of Table SAFE-4. -/
def downloadClosed (s : State) : Bool := !(s.island.state == 1 && s.island.pe)

/-- STAGE (Table SAFE-4). -/
def stage (s : State) (data : List Byte) : State :=
  let off := setAt data 2 2
  let bytes := data.drop 4
  let code := firstCode
    [(decide (data.length < 4 ∨ off % 4 ≠ 0 ∨ setLen < off + bytes.length), Code.badArg), (s.downloadClosed, Code.wrongState)]
  let s := if code = Code.ok then s.setIsland { s.island with staging := s.island.staging.writeBytes off bytes } else s
  s.islandAck 62 code

/-- STORE (Table SAFE-4): the rows are written, read back and checked. -/
def storeSet (s : State) (data : List Byte) (readback : Bool) : State :=
  let n := setAt data 1 1
  let b := s.island.staging.readBytes 0 setLen
  let code := firstCode
    [(decide (data.length < 2 ∨ 16 ≤ n) || setCode b s.island.selected != 0, Code.badArg),
      (s.downloadClosed, Code.wrongState), (s.island.low, Code.nvLowv)]
  if code = Code.ok then
    let s := s.setIsland { s.island with mram := s.island.mram.writeBytes (n * 0x1000) b }
    s.islandAck 62 (if readback then Code.ok else Code.internal)
  else s.islandAck 62 code

/-- A download message of a kind is taken up; one of neither kind is out of range. -/
def download (s : State) (kind : Byte) (f : List Byte → State) : State :=
  match s.islandMail 62 with
  | some m =>
    match m.data with
    | b :: _ => if b = kind then f m.data else if b = 1 ∨ b = 2 then s else s.islandAck 62 Code.badArg
    | [] => s.islandAck 62 Code.badArg
  | none => s

/-- The watchdog of connection `c` expires (R500): a connection that is up is lost, and a send that has waited as long
ends with REVOKED (R475, R476). -/
def loseConnection (s : State) (c : Nat) : State :=
  let x := s.island.conn c
  let wdg := setAt s.island.set (connAt c + 2) 2
  let late := x.pending && decide (wdg ≤ s.island.cycles - x.sent)
  let lost := x.up && (late || decide (wdg ≤ s.island.cycles - x.valid))
  if setAt s.island.set (connAt c) 1 ≠ 0 ∧ (lost || late) then
    let i := s.island.setConn c { x with
      up := false, pending := false, resend := none, result := if x.pending then Code.revoked else x.result }
    let s := s.setIsland (if lost then { i.record 0x23 c with lost := true } else i)
    let tx := setAt s.island.set 0x00E 1 % 64
    let q := s.channel tx
    s.setChannel tx { q with queue := q.queue.filter fun m => !(m.src == s.islandId && m.slot == c) }
  else s

/-- The island after its supply monitor's reset: safety MRAM keeps its sets. -/
def freshIsland (s : State) (held : Bool) : State :=
  let s1 := s.setIsland { ({} : Island) with
    mram := s.island.mram, reset := held, low := s.island.low, faultN := !held && faultHigh 0 s.modeLine }
  let s2 := [Reg.SAFE_STAT, Reg.SAFE_SEAL, Reg.SAFE_IN, Reg.SAFE_STO, Reg.SAFE_FAULT].foldl (fun (s : State) a => s.setReg a 0) s1
  ((List.range 4).foldl (fun (s : State) k => (s.setReg (Reg.SAFE_AX_V1 k) 0).setReg (Reg.SAFE_AX_V2 k) 0) s2).showSto

end State

/-- ISLAND_SELF_TEST_DONE (R478). -/
def execIslandSelfTestDone (how : SelfTest) (s : State) : Answer :=
  .next (s.islandRow fun s =>
    if s.island.state ≠ 0 then s
    else
      match how with
      | .pass => s.islandTo 1
      | .lockstep => s.islandFault 0x01 0
      | .sram => s.islandFault 0x02 0
      | .readback => s.islandFault 0x06 0
      | .rom => (s.draw).islandFault (s.drawn % 256) 0)

/-- ISLAND_CYCLE (R479). -/
def execIslandCycle (readback : BitVec 8) (err : IslandErr) (s : State) : Answer :=
  .next (s.islandRow fun s => s.islandCycle readback.toNat err)

/-- SAFE_INPUT_SAMPLE (R480, R484). -/
def execSafeInputSample (seals : BitVec 16) (a b : BitVec 8) (s : State) : Answer :=
  .next (s.islandRow fun s =>
    let i := { s.island with
      samples := s.island.samples + 1
      seals := (List.range 16).foldl (fun st k =>
        Store.set (fun _ => {}) st k ((Store.get (fun _ => ({} : Filtered)) st k).take 10 (seals.getLsbD k))) s.island.seals }
    s.setIsland (i.sampleInputs a b))

/-- ENCODER_SAMPLE (R495). -/
def execEncoderSample (n : Nat) (a b z : Bool) (s : State) : Answer :=
  .next (s.islandRow fun s =>
    if n < 4 then
      let i := s.island
      let k := (List.range 4).find? fun k => axisOn i.set k && setAt i.set (axisAt k + 1) 1 == n
      let rev := match k with | some k => setAt i.set (axisAt k + 4) 4 | none => 0
      s.setIsland (i.setEnc n ((i.enc n).take rev a b z))
    else s)

/-- MODE_MESSAGE (R486). -/
def execModeMessage (s : State) : Answer := .next (s.islandRow fun s => if s.inReset then s else s.modeMessage)

/-- PERMIT_TIMEOUT (R486). -/
def execPermitTimeout (s : State) : Answer :=
  .next (s.islandRow fun s =>
    if s.island.permit.all fun p => decide (20 ≤ s.island.cycles - p.2) then
      s.setIsland { s.island with timeout := true }
    else s)

/-- MODE_LINE_BOOT (R54, R486). -/
def execModeLineBoot (s : State) : Answer :=
  .next (s.islandRow fun s =>
    if s.modeLine then (s.setIsland { s.island with line := true, drive := 0, faultN := false }).showSto else s)

/-- STAGE (R482). -/
def execStage (s : State) : Answer := .next (s.islandRow fun s => s.download 1 fun d => s.stage d)

/-- STORE (R482, R483). -/
def execStore (readback : Bool) (s : State) : Answer := .next (s.islandRow fun s => s.download 2 fun d => s.storeSet d readback)

/-- BLACK_CHANNEL_PDU (R499): the oldest message of BC_RX_CH, with what its profile makes of it. -/
def execBlackChannelPdu (valid up : Bool) (speed : BitVec 32) (sto : Bool) (s : State) : Answer :=
  .next (s.islandRow fun s =>
    let c := setAt s.island.set 0x00D 1 % 64
    if s.island.set.isEmpty then s
    else
      match s.islandMail c with
      | some m =>
        let s := s.islandAck c Code.ok
        s.setIsland { s.island with
          inbox := s.island.inbox ++ [.pdu (setAt m.data 0 1) valid up speed.toInt sto] }
      | none => s)

/-- CONNECTION_LOSS (R500). -/
def execConnectionLoss (c : Nat) (s : State) : Answer := .next (s.islandRow fun s => s.loseConnection c)

/-- PDU_RESEND (R476): a PDU that met BUSY is offered again, 100 µs after its last offer. -/
def execPduResend (c : Nat) (s : State) : Answer :=
  .next (s.islandRow fun s =>
    match (s.island.conn c).resend with
    | some bs => if s.inReset ∨ s.island.samples ≤ (s.island.conn c).offered then s else s.offerPdu c bs
    | none => s)

/-- CHANNEL_REOPEN (R474). -/
def execChannelReopen (s : State) : Answer := .next (s.islandRow fun s => s.openIslandChannels)

/-- The off-pulses of a dark test of output `k`: channel A goes low and high again, then channel B (R493). -/
def State.darkPulses (s : State) (k : Nat) : State :=
  let i := s.island
  (((s.emit (.sto (i.drive - 2 ^ (2 * k)) i.faultN)).showSto).emit (.sto (i.drive - 2 ^ (2 * k + 1)) i.faultN)).showSto

/-- DARK_TEST (R493): what the read-backs showed in the tests of channels A and B of output `k`. -/
def execDarkTest (k : Nat) (lowA lowB : Bool) (s : State) : Answer :=
  .next (s.islandRow fun s =>
    let x := s.island.axis k
    if s.island.drive.testBit (2 * k) && decide (setAt s.island.set (axisAt k + 46) 2 * 1000 ≤ s.island.cycles - x.dark) then
      let s := s.darkPulses k
      if lowA && lowB then s.setIsland (s.island.setAxis k { x with dark := s.island.cycles })
      else s.islandFault 0x06 k
    else s)

/-- ISLAND_WATCHDOG (R501). -/
def execIslandWatchdog (s : State) : Answer := .next (s.islandRow fun s => s.islandFault 0x03 0)

/-- OSC (R501, R502): the loss shows in SYS_CLK_STAT too, and the supervisor learns of it (R24). -/
def execOsc (s : State) : Answer :=
  .next (s.islandRow fun s =>
    let s := { s with clockLost := Store.set (fun _ => none) s.clockLost 5 (some s.cycle) }
    (((s.setFlag Fld.SYS_CLK_STAT_SCLK_OK false).setFlag Fld.SYS_CLK_STAT_SCLK_LOSS true).notify (.clockLoss 5)).islandFault 0x04 0)

/-- LOCKSTEP (R501). -/
def execLockstep (s : State) : Answer := .next (s.islandRow fun s => s.islandFault 0x01 0)

/-- SAFE_LOW_STORE_BLOCK (R502): VDD_SAFE falls below 3.10 V, or rises above it. -/
def execSafeLowStoreBlock (low : Bool) (s : State) : Answer :=
  .next (s.islandRow fun s => s.setIsland { s.island with low := low })

/-- BROWNOUT (R502). -/
def execBrownout (s : State) : Answer := .next (s.islandRow fun s => s.islandFault 0x05 0)

/-- ISLAND_RESET (R502). -/
def execIslandReset (s : State) : Answer := .next (s.islandRow fun s => s.freshIsland true)

/-- ISLAND_RESET_RELEASE (R502). -/
def execIslandResetRelease (s : State) : Answer :=
  .next (if s.variant.hasIsland && s.island.reset then s.freshIsland false else s)

end Sys2Proof.Machine
end

