-- ==== Sys2Proof/Machine/Modes.lean ====
section
/-!
DEFINITION. The mode commands (R42–R51, R62–R66), the resets of the device (R52, R454, R512, R529) and its clock
domains (R24, R27, R50).
-/

namespace Sys2Proof.Machine

namespace State

/-! ### Mode commands (R62–R65) -/


/-- A command's argument is the one its row names (R63), and then its own conditions hold. -/
def argChecked (s : State) (who : Ident) (tag arg : Nat) (f : State → State) : State :=
  if arg ≠ 0 then s.modeResult who tag Code.badArg true else f s

/-- A command that the mode refuses. -/
def modeRefuse (s : State) (who : Ident) (tag : Nat) : State := s.modeResult who tag Code.wrongState true

/-- A command that waits meets a change of the mode under it (R49): it is evaluated against the new mode. -/
def modeOverrun (s : State) : State :=
  match s.modeCmd with
  | some _ => (s.setAve { s.ave with runAsked := none, runNext := false }).endMode Code.wrongState
  | none => s

/-- LOAD is entered: every port goes down and its frames are flushed (R65, R287, R296, R319, R421). -/
def enterLoad (s : State) : State :=
  let s := s.setMode Mode.load
  let s := (List.range 34).foldl (fun (s : State) n => if s.variant.hasPort n then s.linkEnd n else s) s
  let s := (List.range 16).foldl (fun (s : State) n => if s.variant.hasCan n then s.canLoad n else s) s
  let s := (List.range 16).foldl (fun (s : State) n => if s.variant.hasSer n then s.serLoad n else s) s
  s.stopMonitoring

/-- COMMISSION is entered: the Avenue starts up, monitoring runs and the ports come up listen-only. -/
def enterCommission (s : State) : State :=
  let s := (s.setMode Mode.commission).aveBegin
  (if s.red.monitoring then s else s.startMonitoring).followMode

/-! ### ENTER_RUN (R45, R191) -/

/-- Engines that live Round tables name as owners of a slice word. -/
def namedEngines (s : State) : List Nat :=
  (List.range s.variant.districts).flatMap fun d =>
    (List.range 32).filterMap fun i =>
      let o := s.sliceOwner d (i + 16)
      if 1 ≤ o ∧ o ≤ 12 then some (d * 12 + o - 1) else none

/-- Conditions 3 and 4 of R45 fail. -/
def runBadArg (s : State) : Bool :=
  !s.aveGood s.reg false || (List.range s.variant.districts).any (fun d => !rndGood s.reg d || s.boundElsewhere s.reg d) ||
    s.namedEngines.any fun e => s.reg (Reg.SYS_PKG_ENG e) == 0

/-- The code of ENTER_RUN's conditions. -/
def runCode (s : State) : Nat :=
  firstCode
    [(s.runBadArg, Code.badArg), (s.anyTxnOpen || s.aveState != 4 || s.mode != Mode.commission, Code.wrongState)]

/-- STATE is one of start-up: LISTEN, INTEGRATING or COLDSTART. -/
def startingUp (s : State) : Bool := s.aveState == 1 || s.aveState == 2 || s.aveState == 3

/-- The conditions are due: a command written in start-up waits until the chip has entered INTEGRATED, from which
alone REINTEGRATING follows, or until 64 Avenue cycles have passed since (R191). -/
def runDue (s : State) : Bool :=
  (s.modeCmd.any fun c => c.cmd == 3) && !s.ave.runNext &&
    (match s.ave.runAsked with
      | some t => s.aveState == 4 || s.aveState == 5 || decide (t + 64 * s.aveLen ≤ s.cycle)
      | none => true)

/-! ### Reset (R52) -/

/-- What a reset meets in the MRAM and the OTP array (R512, R514, R519, R520): the row write in progress completes, no
other row starts, one of this cycle included, and an interrupted key program damages its slot. -/
def nvInterrupted (s : State) : State :=
  let s := if s.sup.started.any (decide <| · < s.cycle) then s.endSupRow else s
  match s.nv with
  | some j =>
    if s.cycle ≤ j.started then s
    else if j.writesRows then (if j.waits then s else s.writeRow j.addr (s.nvRow j))
    else if j.op = 4 then s.setOtp (8 + j.addr)
    else s
  | none => s

/-- The island across a reset of the rest: the mailbox unit's channels are free, which loses its connections. -/
def islandThrough (s : State) : Island :=
  let held := (List.range 62).any fun c => s.heldByIsland c
  let i := if held then s.island.loseAll else s.island
  { i with
    conns := (List.range 16).foldl (fun st c =>
      let x : Conn := Store.get (fun _ => {}) st c
      Store.set (fun _ => {}) st c (if x.pending then { x with pending := false, result := Code.revoked } else x)) i.conns
    doorbells := 0 }

/-- Mirror registers keep what the island wrote last. -/
def mirrorRegs : List Nat :=
  [Reg.SAFE_STAT, Reg.SAFE_SEAL, Reg.SAFE_IN, Reg.SAFE_STO, Reg.SAFE_FAULT] ++
    (List.range 4).flatMap fun k => [Reg.SAFE_AX_V1 k, Reg.SAFE_AX_V2 k]

/-- Every unit but the island returns to its reset values and the device is in BOOT; `cause` is the bit of
SYS_RESET_CAUSE, and bit 0 clears the others. MRAM, the OTP array and the monitors stay. -/
def deviceReset (s0 : State) (cause : Nat) : State :=
  let s := s0.nvInterrupted
  let causes := if cause = 0 then 1 else s.reg Reg.SYS_RESET_CAUSE ||| (1#32 <<< cause)
  let r : State := { State.reset with
    pending := s.pending, variant := s.variant, cycle := s.cycle, free := s.free, out := s.out, notices := s.notices
    bootSel := s.bootSel, mram := s.mram, keyHash := s.keyHash, jtag := s.jtag, porstLow := s.porstLow
    coreReset := s.coreReset, island := s.islandThrough }
  let r := mirrorRegs.foldl (fun (r : State) a => r.setReg a (s.reg a)) r
  ((r.setReg Reg.SYS_RESET_CAUSE causes).setReg Reg.NV_OTP_STAT (s.reg Reg.NV_OTP_STAT)).setReg Reg.PWR_STAT
    (s.reg Reg.PWR_STAT &&& 0xF)

/-- A reset cause acts unless the device is held in reset already. -/
def resetBy (s : State) (cause : Nat) : State := if s.inReset then s else s.deviceReset cause

/-! ### Clock domains (R24): 0 XCLK, 1 TCLK, 2 HCLK, 3 MCLK, 4 CCLK, 5 SCLK, 6 FCLK -/

/-- LOCK and LOSS bits of a domain. -/
def clockBits (s : State) (k : Nat) (lock : Bool) (loss : Bool) : State :=
  let w := s.reg Reg.SYS_CLK_STAT
  let w := if lock then w ||| (1#32 <<< k) else w &&& ~~~(1#32 <<< k)
  if loss then (s.setReg Reg.SYS_CLK_STAT (w ||| (1#32 <<< (8 + k)))).stampSet Reg.SYS_CLK_STAT (1#32 <<< (8 + k))
  else s.setReg Reg.SYS_CLK_STAT w

/-- A domain loses lock or source: its bits, the event, and what its units do. -/
def clockLoss (s : State) (k : Nat) : State :=
  if s.inReset then s
  else if k = 6 then s.deviceReset 3
  else if 6 < k ∨ !(s.reg Reg.SYS_CLK_STAT).getLsbD k then s
  else
    let s := ({ s with clockLost := Store.set (fun _ => none) s.clockLost k (some s.cycle) }.clockBits k false true).notify
      (.clockLoss k)
    -- the transmit queues of the Wilern ports lie in XCLK (R209)
    if k = 0 then (s.wilernLoss 0).wilernLoss 1
    else if k = 1 then s.tclkLoss else if k = 2 then s.resetFunctions else s

/-- Lock returns, or is there for the first time. TCLK_LOCK_RETURN has what the time base does. -/
def clockReturn (s : State) (k : Nat) : State :=
  if s.inReset ∨ 5 < k then s
  else { s with clockLost := Store.set (fun _ => none) s.clockLost k none }.clockBits k true false

/-- Domain whose loss is FORCE_CAUSE: 1 XCLK, 2 MCLK, 3 CCLK. -/
def forceCause : Nat → Nat
  | 0 => 1 | 3 => 2 | 4 => 3 | _ => 0

/-- The loss of a domain has lasted more than 1 ms in COMMISSION or later. -/
def forceDue (s : State) (k : Nat) : Bool :=
  forceCause k != 0 && decide (Mode.commission ≤ s.mode) &&
    (Store.get (fun _ => none) s.clockLost k).any fun t => decide (t + 800000 < s.cycle)

/-- A forced transition to LOAD (R50). -/
def forceLoad (s : State) (k : Nat) : State :=
  ((s.enterLoad.setFlag Fld.SYS_MODE_FORCED true).setFld Fld.SYS_MODE_FORCE_CAUSE (forceCause k)).modeOverrun

/-- The island's report of a safe stop executed is taken up (R46, R478): it moves RUN or DEGRADED to SAFE_HOLD. -/
def takeReport (s : State) : State :=
  let s := s.setIsland { s.island with report := false }
  if s.mode = Mode.run ∨ s.mode = Mode.degraded then s.setMode Mode.safeHold else s

/-- The automatic transitions that are due: they come before a mode command (R49). -/
def automatic (s : State) : State :=
  let s := if s.island.report && (s.mode == Mode.run || s.mode == Mode.degraded) then s.takeReport else s
  [0, 3, 4].foldl (fun (s : State) k => if s.forceDue k then s.forceLoad k else s) s

/-- A mode command that may be written and meets no other is executed (R64), in the mode that the automatic
transitions due leave. -/
def modeCommand (s : State) (who : Ident) (f : State → State) : State :=
  s.hostWrite who Reg.SYS_MODE_CMD fun s =>
    s.oneAtATime Reg.SYS_MODE_CMD (s.flag Fld.SYS_MODE_CMD_BUSY) Fld.SYS_MODE_RESULT_LOST fun s => f s.automatic

/-- A held event of a line crosses (R27). -/
def crossHeld (s : State) (l : Nat) : State :=
  let old := s.heldFor l
  let s := s.setSyncLine l 1
  let n := l % 64
  if l / 64 = 1 then s.rxSof n old
  else if l / 64 = 2 then (s.startOfFrame n true old).1
  else if l / 64 = 8 then canSof s n old (s.can n).sofHeld
  else if l / 64 = 0x0C then s.fire 0x0C n
  else if l / 64 = 0x14 then s.ppsCross n old
  else s

end State

/-! ### Commands -/

/-- ENTER_LOAD. -/
def execEnterLoad (who : Ident) (tag arg : Nat) (s : State) : Answer :=
  .next (s.live fun s => (s.modeCommand who fun s => s.argChecked who tag arg fun s =>
    if s.mode ≤ Mode.load then s.modeRefuse who tag else s.enterLoad.modeResult who tag Code.ok true))

/-- ENTER_COMMISSION. -/
def execEnterCommission (who : Ident) (tag arg : Nat) (s : State) : Answer :=
  .next (s.live fun s => (s.modeCommand who fun s => s.argChecked who tag arg fun s =>
    if s.mode = Mode.boot ∨ s.mode = Mode.commission ∨ s.mode = Mode.safeHold ∨ s.anyTxnOpen then s.modeRefuse who tag
    else if s.mode = Mode.load then s.beginMode { cmd := 2, tag := tag, who := who }
    else s.enterCommission.modeResult who tag Code.ok true))

/-- ENTER_COMMISSION_COMPLETE (R65, R333). -/
def execEnterCommissionComplete (s : State) : Answer :=
  .next (s.live fun s => (if (s.modeCmd.any fun c => c.cmd == 2) && s.flag Fld.SYS_PKG_RES_DONE then
    if s.mode = Mode.load then s.enterCommission.endMode Code.ok else s.endMode Code.wrongState
  else s))

/-- ENTER_RUN. -/
def execEnterRun (who : Ident) (tag arg : Nat) (s : State) : Answer :=
  .next (s.live fun s => (s.modeCommand who fun s => s.argChecked who tag arg fun s =>
    if s.mode ≠ Mode.commission then s.modeRefuse who tag
    else
      let s := s.beginMode { cmd := 3, tag := tag, who := who }
      s.setAve { s.ave with runAsked := if s.startingUp then some s.cycle else none, runNext := false }))

/-- ENTER_RUN_EVALUATION (R45, R191): a command that passes takes effect at the next Avenue cycle start. -/
def execEnterRunEvaluation (s : State) : Answer :=
  .next (s.live fun s => (if s.runDue then
    let code := s.runCode
    let s := s.setAve { s.ave with runAsked := none, runNext := code == Code.ok }
    if code = Code.ok then s else s.endMode code
  else s))

/-- SAFE_ACK (R47): READY is the island's report of an acknowledged stop and a fresh guard cycle. A part without the
island answers ABSENT before all else (R8, R18). -/
def execSafeAck (who : Ident) (tag arg : Nat) (s : State) : Answer :=
  .next (s.live fun s => (s.modeCommand who fun s =>
    if !s.variant.hasIsland then s.modeResult who tag Code.absent true
    else s.argChecked who tag arg fun s =>
    if s.mode = Mode.safeHold ∧ s.fld Fld.SAFE_STAT_STATE = 3 then (s.setMode s.runMode).modeResult who tag Code.ok true
    else s.modeRefuse who tag))

/-- SOFT_RESET. -/
def execSoftReset (who : Ident) (tag arg : Nat) (s : State) : Answer :=
  .next (s.live fun s => (s.modeCommand who fun s =>
    if arg = 0xA5A5 then s.deviceReset 6 else s.modeResult who tag Code.badArg true))

/-- SAFE_STOP_REPORT (R46, R478): a report moves RUN or DEGRADED to SAFE_HOLD. -/
def execSafeStopReport (s : State) : Answer :=
  .next (s.live fun s => if s.island.report then s.takeReport else s)

/-! ### Resets -/

/-- POWER_ON_RESET (R52): PORST_N is released. -/
def execPowerOnReset (s : State) : Answer :=
  .next (if s.porstLow then { s with porstLow := false }.deviceReset 0 else s)

/-- PORST_N driven low (R529): the device is held in reset. -/
def execPorstN (s : State) : Answer :=
  .next (if s.porstLow then s else { s.deviceReset 0 with porstLow := true })

/-- RESET_PIN (R529): a low pulse of `ns` nanoseconds passes the filter from 840 on; from 800 it may. -/
def execResetPin (ns : Nat) (s : State) : Answer :=
  .next (if ns < 800 then s
  else if 840 ≤ ns then s.resetBy 1
  else if s.drawn % 2 = 0 then s.draw else s.draw.resetBy 1)

/-- BROWN_OUT (R512): CORE_RESET asserts. -/
def execBrownOut (s : State) : Answer :=
  .next (if s.coreReset then s else { s.deviceReset 2 with coreReset := true })

/-- CORE_RESET_RELEASE (R512). -/
def execCoreResetRelease (s : State) : Answer := .next { s with coreReset := false }

/-- SUPERVISOR_LOCKSTEP_MISMATCH (R52). -/
def execSupervisorLockstepMismatch (s : State) : Answer := .next (s.live fun s => (s.resetBy 4))

/-- SUPERVISOR_WATCHDOG_EXPIRY (R52). -/
def execSupervisorWatchdogExpiry (s : State) : Answer := .next (s.live fun s => (s.resetBy 5))

/-! ### Clocks -/

/-- CLOCK_LOSS_OF_LOCK (R24). -/
def execClockLossOfLock (k : Nat) (s : State) : Answer := .next (s.clockLoss k)

/-- CLOCK_LOCK_RETURN (R24). -/
def execClockLockReturn (k : Nat) (s : State) : Answer := .next (s.clockReturn k)

/-- FORCED_LOAD (R50). -/
def execForcedLoad (k : Nat) (s : State) : Answer := .next (s.live fun s => (if s.forceDue k then s.forceLoad k else s))

/-- SYNCHRONISER_ACKNOWLEDGE (R27) of event line `l`. -/
def execSynchroniserAcknowledge (l : Nat) (s : State) : Answer :=
  .next (s.live fun s => (if s.syncLine l = 0 then s else if s.syncLine l = 1 then s.setSyncLine l 0 else s.crossHeld l))

end Sys2Proof.Machine
end

