-- ==== Sys2Proof/Machine/RegAccess.lean ====
section
/-!
DEFINITION. Register accesses by offset (R5–R7, R11–R15, R37–R40): which unit's window an offset lies in, who may
write it, what a write does, what a read returns and clears.
-/

namespace Sys2Proof.Machine

/-- The window of BAR0 that an offset lies in (Tables ARCH-8 and ARCH-9). -/
inductive Window where
  | sys | mbx | time | xing
  /-- Identity block of engine `e` in the mailbox unit (R465). -/
  | mbxEngine (e : Nat)
  | eth (n : Nat)
  | can (n : Nat)
  | ser (n : Nat)
  | ave
  /-- Registers of the gateway of district `d` (R181). -/
  | gateway (d : Nat)
  | wilern | img | sruAll | red | safe | pwr
  | rnd (d : Nat)
  | ce (e : Nat)
  | sru (d : Nat)
  | tsq (d : Nat)
  /-- No window: it behaves as one of an absent unit (R38). -/
  | hole
  deriving DecidableEq, Repr

/-- Window of a district (Table ARCH-9), by offset from the district's base. -/
def districtWindow (d o : Nat) : Window :=
  if o < 0x10000 then .rnd d
  else if o < 0x1C000 then .ce (d * 12 + (o - 0x10000) / 0x1000)
  else if 0x20000 ≤ o ∧ o < 0x30000 then .sru d
  else if 0x30000 ≤ o ∧ o < 0x40000 then .tsq d
  else .hole

/-- The window of an offset. -/
def windowOf (a : Nat) : Window :=
  if a < 0x100000 then .sys
  else if 0x112000 ≤ a ∧ a < 0x11E000 then .mbxEngine ((a - 0x112000) / 0x200)
  else if a < 0x200000 then .mbx
  else if a < 0x300000 then .time
  else if a < 0x400000 then .xing
  else if a < 0x422000 then .eth ((a - 0x400000) / 0x1000)
  else if 0x500000 ≤ a ∧ a < 0x510000 then .can ((a - 0x500000) / 0x1000)
  else if 0x580000 ≤ a ∧ a < 0x584000 then .ser ((a - 0x580000) / 0x400)
  else if 0x600800 ≤ a ∧ a < 0x600900 then .wilern
  else if 0x601000 ≤ a ∧ a < 0x601800 then .gateway ((a - 0x601000) / 0x100)
  else if 0x600000 ≤ a ∧ a < 0x700000 then .ave
  else if 0x700000 ≤ a ∧ a < 0x780000 then .img
  else if 0x780000 ≤ a ∧ a < 0x800000 then .sruAll
  else if 0x800000 ≤ a ∧ a < 0x900000 then .red
  else if 0x900000 ≤ a ∧ a < 0xA00000 then .safe
  else if 0xA00000 ≤ a ∧ a < 0xB00000 then .pwr
  else if 0x1000000 ≤ a ∧ a < 0x1800000 then
    districtWindow ((a - 0x1000000) / 0x100000) ((a - 0x1000000) % 0x100000)
  else .hole

/-- The window's unit is present on the variant. -/
def Window.present (v : Variant) : Window → Bool
  | .eth n => v.hasPort n
  | .can n => v.hasCan n
  | .ser n => v.hasSer n
  | .wilern => v.hasWilern
  | .sruAll => v.hasSru
  | .safe => v.hasIsland
  | .rnd d => decide (d < v.districts)
  | .ce e => decide (e < v.engines)
  | .sru d => v.hasSru && decide (d < v.districts)
  | .tsq d => decide (d < v.districts)
  | .mbxEngine e => decide (e < v.engines)
  | .gateway d => decide (d < v.districts)
  | .red => v.hasTwin
  | .hole => false
  | .sys | .mbx | .time | .xing | .ave | .img | .pwr => true

/-- A register is there on the variant: its unit is present, and ETH_PLCA follows R5 on P0–P25 (R265). -/
def regHere (v : Variant) (a : Nat) : Bool :=
  (windowOf a).present v && !(List.range 26).any fun n => a / 4 == Reg.ETH_PLCA n / 4

/-- Windows that are served in BOOT (R56). -/
def Window.inBoot : Window → Bool
  | .sys | .pwr => true
  | _ => false

/-- A field of a word as a number shorter to write. -/
def wbits (v : Word) (lo n : Nat) : Nat := fieldGet v lo n

namespace State

/-- The sticky CFG_ERR of a window's unit (R11, R15); the islands of read-only registers have none. -/
def windowErr (s : State) : Window → State
  | .sys => s.setFlag Fld.SYS_MODE_RESULT_CFG_ERR true
  | .mbx | .mbxEngine _ => s.mbxErr
  | .time => s.setFlag Fld.TIME_STAT_CFG_ERR true
  | .xing => s.setFlag Fld.XING_STAT_CFG_ERR true
  | .eth n => s.setFlag (Fld.ETH_STAT_CFG_ERR n) true
  | .can n => s.setFlag (Fld.CAN_STAT_CFG_ERR n) true
  | .ser n => s.setFlag (Fld.SER_STAT_CFG_ERR n) true
  | .ave | .gateway _ | .wilern => s.setFlag Fld.AVE_STAT_CFG_ERR true
  | .img => s.setFlag Fld.IMG_STAT_CFG_ERR true
  | .red => s.setFlag Fld.RED_STAT_CFG_ERR true
  | .pwr => s.setFlag Fld.PWR_STAT_CFG_ERR true
  | .rnd d => s.setFlag (Fld.RND_STAT_CFG_ERR d) true
  | .ce e => s.setFlag (Fld.CE_STAT_CFG_ERR e) true
  | .sru d => s.setFlag (Fld.SRU_STAT_CFG_ERR d) true
  | .tsq d => s.setFlag (Fld.TSQ_STAT_CFG_ERR d) true
  | .sruAll | .safe | .hole => s

/-! ### Who may write (R40, R145) -/

/-- Identity block of the mailbox unit at an offset, and the offset in it; 0xF000 is an engine's own (R465). -/
def mbxBlockAt (who : Ident) (a : Nat) : Option (Nat × Nat) :=
  if 0x110000 ≤ a ∧ a < 0x11E200 then some ((a - 0x110000) / 0x200, (a - 0x110000) % 0x200)
  else if 0x10F000 ≤ a ∧ a < 0x10F200 ∧ Ident.isEngine who then some (mbxBlock who, a - 0x10F000)
  else none

/-- Control block of the image controller at an offset, and the offset in it (R397). -/
def imgBlockAt (a : Nat) : Option (Nat × Nat) :=
  if 0x701000 ≤ a ∧ a < 0x701480 then some ((a - 0x701000) / 0x80, (a - 0x701000) % 0x80) else none

/-- The offset lies in the block of another identity. -/
def foreignBlock (who : Ident) (a : Nat) : Bool :=
  (match mbxBlockAt who a with | some p => p.1 != mbxBlock who | none => false) ||
    (match imgBlockAt a with | some p => p.1 != imgBlock who | none => false)

/-- An engine may write a register of the engine block of engine `k` (Table EVT-14). -/
def ceWritable (e k a : Nat) : Bool := k == e && a != Reg.CE_CTRL k && a != Reg.CE_WDOG k

/-- An engine of this chip may write a register. -/
def engineMayWrite (s : State) (e a : Nat) : Bool :=
  match windowOf a with
  | .sys => a != Reg.SYS_MODE_CMD && a != Reg.SYS_PKG_CMD
  | .mbx => a != Reg.MBX_SUP_NOTE && !foreignBlock (s.ident (0x10 + e)) a
  | .mbxEngine _ | .img => !foreignBlock (s.ident (0x10 + e)) a
  | .ave => a != Reg.AVE_CLAIM
  | .red => a != Reg.RED_CMD
  | .pwr => a != Reg.NV_CMD
  | .eth n => s.boundPort (e / 12) n
  | .can n => s.boundCan (e / 12) n
  | .ser n => s.boundSer (e / 12) n
  | .rnd d | .sru d | .tsq d => d == e / 12
  | .ce k => ceWritable e k a
  | .time | .xing | .gateway _ | .wilern | .sruAll | .safe | .hole => true

/-- An identity may write a register. -/
def mayWriteReg (s : State) (who : Ident) (a : Nat) : Bool :=
  !Ident.isEngine who || !regHere s.variant a || s.engineMayWrite (Ident.engine who) a

/-! ### Writes -/

/-- A write under the access codes of a row (Table SCOPE-8); a bit that hardware has set in this cycle is not cleared
(R13). -/
def writeRow' (s : State) (r : RegRow) (a : Nat) (v : Word) : State :=
  let old := s.reg a
  let rw := BitVec.ofNat 32 r.rw
  let w1c := BitVec.ofNat 32 r.w1c
  s.setReg a ((old &&& ~~~rw &&& ~~~(v &&& w1c &&& ~~~s.setNow a)) ||| (v &&& rw))

/-- A write to a register with no effect beyond its access codes. -/
def writePlain (s : State) (a : Nat) (v : Word) : State :=
  match regRow a with
  | some r => s.writeRow' r a v
  | none => s

/-- A write that is accepted only when `ok` holds, and else discarded with CFG_ERR (R15). -/
def writeChecked (s : State) (a : Nat) (v : Word) (ok : Bool) : State :=
  if ok then s.writePlain a v else s.windowErr (windowOf a)

/-- A write accepted only in LOAD, and else counted (R66). -/
def writeInLoad (s : State) (who : Ident) (a : Nat) (v : Word) (ok : Bool) : State :=
  if !ok then s.windowErr (windowOf a)
  else if s.mode = Mode.load then s.writePlain a v
  else s.wrongState who

/-- A verb written to a *_TXN_CTRL register. -/
def writeVerb (s : State) (u : TxnUnit) (who : Ident) (v : Word) : State :=
  match wbits v 0 2 with
  | 1 => after (execBegin u who s) s
  | 2 => after (execCommit u who s) s
  | 3 => after (execRollback u who s) s
  | _ => s

/-- SYS registers. -/
def writeSys (s : State) (who : Ident) (a : Nat) (v : Word) : State :=
  if a = Reg.SYS_MODE_CMD then
    let tag := wbits v 8 8
    let arg := wbits v 16 16
    match wbits v 0 8 with
    | 1 => after (execEnterLoad who tag arg s) s
    | 2 => after (execEnterCommission who tag arg s) s
    | 3 => after (execEnterRun who tag arg s) s
    | 4 => after (execSafeAck who tag arg s) s
    | 5 => after (execSoftReset who tag arg s) s
    | _ => s.windowErr .sys
  else if a = Reg.SYS_PKG_CMD then
    match wbits v 0 2 with
    | 1 => after (execPkgLoad who (wbits v 4 8) (wbits v 12 4) (wbits v 16 8) s) s
    | 2 => after (execPkgUnload who (wbits v 4 8) (wbits v 16 8) s) s
    | _ => s.windowErr .sys
  else if a = Reg.SYS_BOOT_CTRL then
    if v.getLsbD 0 then after (execHostPush who s) s else s
  else if a = Reg.SYS_ABSENT_HIT then s.clearAbsent v
  else s.writePlain a v

/-- A word of a function's MSI-X table written: unmasking a pending entry sends it (R458, log entry 8). -/
def writeMsix (s : State) (fn i : Nat) (v : Word) : State :=
  let k := fn * 256 + i
  let p := fn * 64 + i / 4
  let v := if i % 4 = 3 then v &&& 1 else v
  let s1 := { s with msixTab := Store.set (fun k => if k % 4 = 3 then 1 else 0) s.msixTab k v }
  if i % 4 = 3 ∧ !v.getLsbD 0 ∧ Store.get (fun _ => false) s.msixPba p then
    { s1 with msixPba := Store.set (fun _ => false) s1.msixPba p false }.emit (.msix fn (i / 4))
  else s1

/-- A register of the writer's own identity block (Table MBX-10). -/
def writeMbxBlock (s : State) (who : Ident) (k o : Nat) (v : Word) : State :=
  if o = 0x100 then
    after (execSend who (wbits v 0 6) (wbits v 8 9) (if v.getLsbD 20 then some (wbits v 17 3) else none) s) s
  else if o = 0x10C then
    let c := wbits v 4 6
    match wbits v 0 2 with
    | 1 => after (execOpen who c (wbits v 2 2) (wbits v 10 5) (v.getLsbD 15) (v.extractLsb' 16 16) s) s
    | 2 => after (execClose who c s) s
    | 3 => after (execRevoke who c s) s
    | _ => s.mbxErr
  else if o = 0x118 then after (execMbxDbmask who v s) s
  else if o = 0x11C then after (execMbxRing who (v.extractLsb' 0 16) (wbits v 16 5) s) s
  else s.writePlain (0x110000 + k * 0x200 + o) v

/-- MBX registers. -/
def writeMbx (s : State) (who : Ident) (a : Nat) (v : Word) : State :=
  match mbxBlockAt who a with
  | some (k, o) => s.writeMbxBlock who k o v
  | none =>
    if 0x120000 ≤ a ∧ a < 0x128000 then
      if a % 0x200 = 0x104 then after (execAck who ((a - 0x120000) / 0x200) (v.extractLsb' 0 16) s) s else s
    else if 0x108000 ≤ a ∧ a < 0x108400 then
      if Ident.isHost who && decide (Ident.src who < 7) then s.writeMsix (Ident.src who) ((a - 0x108000) / 4) v else s
    else if a = Reg.MBX_HOST_CFG then after (execMbxHostCfg who v s) s
    else if a = Reg.MBX_HRX_HEAD then after (execMbxHrxHead who v s) s
    else if a = Reg.MBX_HTX_TAIL then after (execMbxHtxTail who v s) s
    else if a = Reg.MBX_SUP_NOTE then after (execMbxSupNote who v s) s
    else if a = Reg.MBX_ABORT then after (execMbxAbort who (wbits v 0 7) s) s
    else s.writePlain a v

/-- TIME registers. -/
def writeTime (s : State) (who : Ident) (a : Nat) (v : Word) : State :=
  if a = Reg.TIME_CMD then
    let x := wbits v 8 1
    let tag := wbits v 16 8
    match wbits v 0 8 with
    | 1 => after (execTimeInit x tag who s) s
    | 2 => after (execTimeStep x tag who s) s
    | 3 => after (execTimeRate x tag who s) s
    | 4 => after (execTimeLock x tag who s) s
    | 5 => after (execTimeUnlock x tag who s) s
    | 6 => after (execTimeSwitch x tag who s) s
    | 7 => after (execTimeSnap tag who s) s
    | _ => s.windowErr .time
  else if a = Reg.TIME_CFG then after (execTimeCfg v who s) s
  else if a = Reg.TIME_DOM_CFG 0 then after (execTimeDomCfg 0 v s) s
  else if a = Reg.TIME_DOM_CFG 1 then after (execTimeDomCfg 1 v s) s
  else
    let k := (a - 0x200300) / 0x20
    let n := (a - 0x200200) / 0x10
    if 0x200300 ≤ a ∧ k < 4 ∧ a = Reg.TIME_OUT_CTRL k then after (execTimeOutArm k v s) s
    else if 0x200300 ≤ a ∧ k < 4 ∧ a = Reg.TIME_OUT_START_NS k then
      s.writeChecked a v (decide (wbits v 0 30 ≤ 999999999))
    else if 0x200200 ≤ a ∧ n < 2 ∧ a = Reg.TIME_PPS_CFG n then
      (if v.getLsbD 0 && !s.flag (Fld.TIME_PPS_CFG_EN n) then s.enablePps n else s).writePlain a v
    else s.writePlain a v

/-- XING registers. -/
def writeXing (s : State) (who : Ident) (a : Nat) (v : Word) : State :=
  if a = Reg.XING_TXN_CTRL then s.writeVerb .xing who v
  else if a = Reg.XING_TBL_CMD then
    match wbits v 0 2 with
    | 1 => after (execXingTblRead who s) s
    | 2 => after (execXingTblWrite who s) s
    | _ => s.windowErr .xing
  else if (a = Reg.XING_TBL_ADDR ∨ (List.range 4).any fun i => a == Reg.XING_TBL_DATA i) ∧
      s.txnState .xing = 1 ∧ s.txnHolder .xing ≠ who then s.windowErr .xing
  else if a = Reg.XING_TBL_ADDR ∧ 0xA < wbits v 0 4 then s.windowErr .xing
  else s.writePlain a v

/-- Registers of port `n`. -/
def writeEth (s : State) (who : Ident) (n a : Nat) (v : Word) : State :=
  if a = Reg.ETH_CTRL n then
    if v.getLsbD 0 then after (execPortEnable n who s) s else after (execPortDisable n who s) s
  else if a = Reg.ETH_TXN_CTRL n then s.writeVerb (.eth n) who v
  else if a = Reg.ETH_SNAP n then (if v.getLsbD 0 then after (execEthSnap n who s) s else s)
  else s.writePlain a v

/-- A value of CAN_NBT outside the limits of R292. -/
def nbtBad (v : Word) : Bool :=
  let seg1 := wbits v 8 8 + 1
  let seg2 := wbits v 16 7 + 1
  let bit := (1 + seg1 + seg2) * (wbits v 0 8 + 1)
  decide (seg1 < 2 ∨ seg1 < wbits v 23 7 + 1 ∨ seg2 < wbits v 23 7 + 1 ∨ bit < 80 ∨ 8000 < bit ∨
    (v.getLsbD 30 ∧ bit < 640))

/-- A value of CAN_DBT outside the limits of R292. -/
def dbtBad (v : Word) : Bool :=
  let seg1 := wbits v 5 5 + 1
  let seg2 := wbits v 10 4 + 1
  decide (seg1 < 2 ∨ seg1 < wbits v 14 4 + 1 ∨ seg2 < wbits v 14 4 + 1 ∨
    (1 + seg1 + seg2) * (wbits v 0 5 + 1) < 10)

/-- Registers of controller `n`; the bit timing is accepted while OFF (R297). -/
def writeCan (s : State) (who : Ident) (n a : Nat) (v : Word) : State :=
  if a = Reg.CAN_CTRL n then
    if v.getLsbD 0 then after (execCanEnable n who s) s else after (execCanDisable n who s) s
  else if a = Reg.CAN_CFG n ∨ a = Reg.CAN_NBT n ∨ a = Reg.CAN_DBT n then
    if (a = Reg.CAN_NBT n ∧ nbtBad v) ∨ (a = Reg.CAN_DBT n ∧ dbtBad v) then s.windowErr (.can n)
    else if s.canOp n = 0 then s.writePlain a v
    else s.wrongState who
  else if a = Reg.CAN_CMD n then
    match wbits v 0 8 with
    | 1 => after (execBoffRecover n who s) s
    | 2 => after (execTxRequest n (wbits v 8 5) who s) s
    | 3 => after (execTxCancel n (wbits v 8 5) who s) s
    | _ => s.windowErr (.can n)
  else if Reg.CAN_RXID n 0 ≤ a ∧ a ≤ Reg.CAN_RXID n 255 then
    after (execCanRxid n ((a - Reg.CAN_RXID n 0) / 4) v who s) s
  else s.writePlain a v

/-- A value of SER_CFG or SER_RATE with a reserved encoding. -/
def serReserved (n a : Nat) (v : Word) : Bool :=
  if a = Reg.SER_CFG n then
    decide (4 ≤ wbits v 0 3) || wbits v 5 2 == 3 || wbits v 12 10 == 0 || (wbits v 0 3 == 3 && wbits v 10 2 == 0)
  else if a = Reg.SER_RATE n then decide (wbits v 0 23 < 107 ∨ 4266667 < wbits v 0 23)
  else false

/-- Registers of line `n`; the configuration is accepted while OFF (R319). -/
def writeSer (s : State) (who : Ident) (n a : Nat) (v : Word) : State :=
  if a = Reg.SER_CTRL n then after (execSerEnable n (v.getLsbD 0) who s) s
  else if a = Reg.SER_CFG n ∨ a = Reg.SER_RATE n ∨ a = Reg.SER_GAP n ∨ a = Reg.SER_DE n then
    if serReserved n a v then s.windowErr (.ser n)
    else if s.serOp n = 0 then s.writePlain a v
    else s.wrongState who
  else s.writePlain a v

/-- Wn_EN written. -/
def writeWilernEn (s : State) (n : Nat) (en : Bool) : State :=
  if en then after (execWilernEnable n s) s
  else s.setFlag (if n = 0 then Fld.AVE_CTRL_W0_EN else Fld.AVE_CTRL_W1_EN) false

/-- AVE registers. -/
def writeAve (s : State) (who : Ident) (a : Nat) (v : Word) : State :=
  if a = Reg.AVE_TXN_CTRL then s.writeVerb .ave who v
  else if a = Reg.AVE_CTRL then
    let s1 := (s.writeWilernEn 0 (v.getLsbD 0)).writeWilernEn 1 (v.getLsbD 1)
    if v.getLsbD 2 then after (execReint s1) s1 else s1
  else if a = Reg.AVE_CLAIM then
    if v.getLsbD 12 then after (execAveClaimRelease (wbits v 0 6) (wbits v 8 4) who s) s
    else after (execAveClaim (wbits v 0 6) (wbits v 8 4) who s) s
  else
    let d := (a - 0x601000) / 0x100
    let q := ((a - 0x601000) % 0x100 - 0x10) / 4
    if 0x601000 ≤ a ∧ d < 8 ∧ q < 3 ∧ a = Reg.AVE_GW_PTR d q then after (execAveGwPtr d q v s) s
    else s.writePlain a v

/-- A register of an identity's image control block (Table IMG-6). -/
def writeImgBlock (s : State) (who : Ident) (o : Nat) (v : Word) : State :=
  if o = 0x14 then
    match wbits v 0 2 with
    | 1 => after (execImgBegin who (v.getLsbD 2) s) s
    | 2 => after (execImgCommit who (wbits v 8 6) s) s
    | 3 => after (execImgRollback who (wbits v 8 6) s) s
    | _ => s
  else if o = 0x18 then
    match wbits v 0 2 with
    | 1 => after (execPin who s) s
    | 2 => after (execUnpin who (wbits v 4 3) s) s
    | _ => s
  else
    match regRow (0x701000 + o) with
    | some r => s.writeRow' r (imgBlk (imgBlock who) + o) v
    | none => s

/-- IMG registers. -/
def writeImg (s : State) (who : Ident) (a : Nat) (v : Word) : State :=
  match imgBlockAt a with
  | some (_, o) => s.writeImgBlock who o v
  | none =>
    if a = Reg.IMG_COW_WAIT then s.writeChecked a v (decide (wbits v 0 20 ≤ 1000000))
    else if a = Reg.IMG_BASE_SEC_LO ∨ a = Reg.IMG_BASE_SEC_HI then s.writeInLoad who a v true
    else s.writePlain a v

/-- Registers of the reduction unit of district `d`. -/
def writeSru (s : State) (who : Ident) (d a : Nat) (v : Word) : State :=
  if a = Reg.SRU_CTRL d then after (execSruCtrl who d (v.getLsbD 0) s) s
  else if a = Reg.SRU_TXN_CTRL d then s.writeVerb (.sru d) who v
  else if a = Reg.SRU_CMD d then
    match wbits v 0 2 with
    | 1 => after (execExport who d (wbits v 16 14) s) s
    | 2 => after (execClear who d (wbits v 16 14) s) s
    | 3 => after (execLatch who d (wbits v 16 14) s) s
    | _ => s.windowErr (.sru d)
  else s.writePlain a v

/-- RED registers (R449). -/
def writeRed (s : State) (who : Ident) (a : Nat) (v : Word) : State :=
  if a = Reg.RED_CMD then
    let tag := wbits v 8 8
    match wbits v 0 8 with
    | 1 => after (execPair who tag s) s
    | 2 => after (execUnpair who tag s) s
    | 3 => after (execResync who tag s) s
    | 4 => after (execReclaim who tag s) s
    | 5 => after (execFail who tag s) s
    | 6 => after (execCkptLoad who tag s) s
    | _ => s.windowErr .red
  else if a = Reg.RED_CFG then
    s.writeInLoad who a v (decide (1 ≤ wbits v 0 14 ∧ wbits v 0 14 ≤ 10000 ∧ wbits v 16 8 ≠ 0))
  else if a = Reg.RED_JOIN then
    if v.getLsbD 0 && Ident.isEngine who then after (execJoin (Ident.engine who) s) s else s
  else if a = Reg.RED_PRP_CFG then s.writeChecked a v (decide (1 ≤ wbits v 0 10 ∧ wbits v 0 10 ≤ 1000))
  else if Reg.RED_CKPT 0 0 ≤ a ∧ a ≤ Reg.RED_CKPT 47 1 then
    s.writeChecked a v (s.mode == Mode.load && s.fld (Fld.RED_PSTAT_STATE ((a - Reg.RED_CKPT 0 0) / 8)) == 0 &&
      wbits v 28 4 != 0)
  else if Reg.RED_GWFLOW 0 0 ≤ a ∧ a < Reg.RED_PROXY 7 0 + 0x40 then s.writeInLoad who a v true
  else s.writePlain a v

/-- PWR and NV registers. -/
def writePwr (s : State) (who : Ident) (a : Nat) (v : Word) : State :=
  if a = Reg.NV_CMD then
    match wbits v 0 4 with
    | 1 => after (execNvRead who [] s) s
    | 2 => after (execNvWrite who s) s
    | 3 => after (execNvCopy who (wbits v 8 17) s) s
    | 4 => after (execOtpKey who s) s
    | 5 => after (execOtpRevoke who s) s
    | 6 => after (execOtpFloor who s) s
    | _ => s.windowErr .pwr
  else s.writePlain a v

/-- Round registers of district `d`. -/
def writeRnd (s : State) (who : Ident) (d a : Nat) (v : Word) : State :=
  if a = Reg.RND_CTRL d then
    if v.getLsbD 0 then after (execRoundRun d s) s else after (execRoundStop d who s) s
  else if a = Reg.RND_TXN_CTRL d then s.writeVerb (.rnd d) who v
  else s.writePlain a v

/-- An event source that a line may select: a listed kind with an index in its range that names a present unit
(Table EVT-3). -/
def evtSource (v : Variant) (kind index : Nat) : Bool :=
  if 1 ≤ kind ∧ kind ≤ 6 then v.hasPort index
  else if 8 ≤ kind ∧ kind ≤ 0x0B then v.hasCan index
  else if kind = 0x0C ∨ kind = 0x0D then v.hasSer index
  else if kind = 0x14 then decide (index < 2)
  else if kind = 0x15 then decide (index < 4)
  else if kind = 0x18 ∨ kind = 0x19 then index == 0 && v.hasSru
  else index == 0 && (kind == 0 || decide (0x10 ≤ kind ∧ kind ≤ 0x13) || kind == 0x16 ||
    decide (0x1A ≤ kind ∧ kind ≤ 0x1C))

/-- A write of CE_WDOG that its writer may make (R143). -/
def writeWdog (s : State) (e : Nat) (v : Word) : State :=
  if v.getLsbD 24 && wbits v 0 24 == 0 then s.windowErr (.ce e)
  else
    let s1 := s.writePlain (Reg.CE_WDOG e) v
    if v.getLsbD 24 then s1.kickWatchdog e (wbits v 0 24) else s1

/-- A write of CE_WDOG_KICK (R143). -/
def writeKick (s : State) (e : Nat) (v : Word) : State :=
  if wbits v 0 16 = 0x4C41 then s.kickWatchdog e (s.fld (Fld.CE_WDOG_PERIOD e)) else s.windowErr (.ce e)

/-- Registers of engine `e`. -/
def writeCe (s : State) (who : Ident) (e a : Nat) (v : Word) : State :=
  if a = Reg.CE_CTRL e then
    if v.getLsbD 0 then after (execEngineStart who e s) s else after (execEngineHoldReset who e s) s
  else if a = Reg.CE_WDOG e then s.runControl who e fun s => s.writeWdog e v
  else if a = Reg.CE_WDOG_KICK e then s.writeKick e v
  else if Reg.CE_EVT_SEL e 0 ≤ a ∧ a ≤ Reg.CE_EVT_SEL e 31 then
    s.writeChecked a v (evtSource s.variant (wbits v 0 8) (wbits v 8 8))
  else if Reg.CE_CRC_POLY e 0 ≤ a ∧ a < Reg.CE_EVT_SEL e 0 ∧ a % 8 = 4 then s.writeChecked a v (wbits v 0 2 != 3)
  else s.writePlain a v

/-- Time-stamp queue registers of district `d`; entries are read-only (R361). -/
def writeTsq (s : State) (who : Ident) (d a : Nat) (v : Word) : State :=
  if a = Reg.TSQ_RELEASE d then after (execTsqRelease d v who s) s
  else if 0x34000 ≤ a % 0x100000 ∧ a % 0x100000 < 0x38000 then s.windowErr (.tsq d)
  else s.writePlain a v

/-- A register of a present unit is written by an identity that may write it. -/
def writeWindow (s : State) (who : Ident) (a : Nat) (v : Word) : State :=
  match txnAt a with
  | some u => s.writeShadow u who a v
  | none =>
    match windowOf a with
    | .sys => s.writeSys who a v
    | .mbx | .mbxEngine _ => s.writeMbx who a v
    | .time => s.writeTime who a v
    | .xing => s.writeXing who a v
    | .eth n => s.writeEth who n a v
    | .can n => s.writeCan who n a v
    | .ser n => s.writeSer who n a v
    | .ave | .gateway _ => s.writeAve who a v
    | .img => s.writeImg who a v
    | .red => s.writeRed who a v
    | .pwr => s.writePwr who a v
    | .rnd d => s.writeRnd who d a v
    | .ce e => s.writeCe who e a v
    | .sru d => s.writeSru who d a v
    | .tsq d => s.writeTsq who d a v
    | .wilern | .sruAll | .safe => s.writePlain a v
    | .hole => s

/-- A register write: `n` bytes of the register at `a`, from byte `lo` on. One that covers less than the register is
discarded with CFG_ERR (R11); one to an absent window is recorded (R6); one that its writer may not make is
refused, and one to another identity's block sets CFG_ERR too. -/
def writeReg (s : State) (who : Ident) (a lo n : Nat) (v : Word) : State :=
  s.live fun s =>
    let w := windowOf a
    if Ident.isHost who && s.mode == Mode.boot && !w.inBoot then s
    else if !regHere s.variant a then s.absentHit (a + lo) true
    else if foreignBlock who a then
      (s.windowErr w).refuseStore who a
    else if !s.mayWriteReg who a then s.refuseStore who a
    else if n < 4 then s.windowErr w
    else s.writeWindow who a v

/-! ### Reads -/

/-- A register under its readable bits. -/
def readable (r : RegRow) : Word :=
  BitVec.ofNat 32 (r.rw ||| r.w1c ||| r.ro) |||
    r.rc.foldl (fun w f => w ||| fieldSet 0 f.1 f.2 (2 ^ f.2 - 1)) 0

/-- High half of a pair whose low half latches it. -/
def latched (s : State) (a : Nat) : Word := Store.get (fun _ => 0) s.latch a

/-- Words of a channel's window (Table MBX-11); another identity than the holder reads 0 (R469). -/
def channelWord (s : State) (who : Ident) (c o : Nat) : Word :=
  let x := s.channel c
  if x.holder ≠ some who then 0
  else if o = 0x108 then BitVec.ofNat 32 (1 + 2 * x.queue.length + 65536 * who.toNat)
  else
    match x.queue with
    | m :: _ =>
      if o < 0x100 then ((bytesWords m.data)[o / 4]?).getD 0
      else if o = 0x100 then BitVec.ofNat 32 (m.src.toNat + 65536 * m.data.length)
      else 0
    | [] => 0

/-- MBX words beside the plain registers. -/
def mbxWord (s : State) (who : Ident) (a : Nat) : Word :=
  match mbxBlockAt who a with
  | some (k, o) =>
    if 8 ≤ k ∧ k < 16 then 0
    else
      match regRow (0x110000 + k * 0x200 + o) with
      | some r => s.reg (0x110000 + k * 0x200 + o) &&& readable r
      | none => 0
  | none =>
    if 0x120000 ≤ a ∧ a < 0x128000 then s.channelWord who ((a - 0x120000) / 0x200) (a % 0x200)
    else if 0x108000 ≤ a ∧ a < 0x108400 then
      if Ident.isHost who && decide (Ident.src who < 7) then s.msixWord (Ident.src who * 256 + (a - 0x108000) / 4) else 0
    else if 0x108400 ≤ a ∧ a < 0x108408 then
      if Ident.isHost who && decide (Ident.src who < 7) then
        BitVec.ofNat 32 (((List.range 32).map fun i =>
          2 ^ i * bit (Store.get (fun _ => false) s.msixPba (Ident.src who * 64 + (a - 0x108400) * 8 + i))).sum)
      else 0
    else
      match regRow a with
      | some r => s.reg a &&& readable r
      | none => 0

/-- A plain register as it reads. -/
def plainWord (s : State) (a : Nat) : Word :=
  match regRow a with
  | some r => s.reg a &&& readable r
  | none => 0

/-- TIME words: while TCLK is lost only TIME_STAT and TIME_CMD_RES read (R354). -/
def timeWord (s : State) (a : Nat) : Word :=
  if s.tclkLost ∧ a ≠ Reg.TIME_STAT ∧ a ≠ Reg.TIME_CMD_RES then 0
  else if a = Reg.TIME_DOM_RATE_LO 0 ∨ a = Reg.TIME_DOM_RATE_LO 1 then
    BitVec.ofNat 32 (ofSigned 40 (s.dom ((a - Reg.TIME_DOM_RATE_LO 0) / 0x40)).rate)
  else if a = Reg.TIME_DOM_RATE_HI 0 ∨ a = Reg.TIME_DOM_RATE_HI 1 then s.latched a
  else if a = Reg.TIME_PPS_CAP_SEC 0 ∨ a = Reg.TIME_PPS_CAP_SEC 1 then s.latched a
  else s.plainWord a

/-- Time-stamp queue words of district `d`: the repeater, the entries and the registers. -/
def tsqWord (s : State) (d a : Nat) : Word :=
  let o := a % 0x100000
  if o = 0x30000 then BitVec.ofNat 32 ((s.repeater d).value % qnsSecond)
  else if o = 0x30004 then s.latched a
  else if 0x34000 ≤ o ∧ o < 0x38000 then Store.get (fun _ => 0) (s.tsqOf d).entries ((o - 0x34000) / 4)
  else s.plainWord a

/-- The word that a reader sees at an offset. -/
def peek (s : State) (who : Ident) (a : Nat) : Word :=
  match txnAt a with
  | some u => if s.txnState u = 1 ∧ s.txnHolder u = who then s.shadowReg a else s.plainWord a
  | none =>
    match windowOf a with
    | .mbx | .mbxEngine _ => s.mbxWord who a
    | .time => s.timeWord a
    | .tsq d => s.tsqWord d a
    | .eth n => if a = Reg.ETH_STAT n then s.ethStat n else s.plainWord a
    | .xing => if a = Reg.XING_BUF_LEASE then BitVec.ofNat 32 s.leasedCells else s.plainWord a
    | .img =>
      if a = Reg.IMG_EPOCH_HI ∨ (imgBlockAt a).any fun p => p.2 == 0x2C then s.latched a else s.plainWord a
    | .red =>
      if a = Reg.RED_SELF then (if Ident.isEngine who then s.redSelf (Ident.engine who) else 0)
      else if a = Reg.RED_PRP_STAT then fieldSet (s.plainWord a) 0 12 s.prpLive.length
      else s.plainWord a
    | .ce e =>
      if a = Reg.CE_STAT e then fieldSet (s.plainWord a) 2 4 (s.eng e).stack.length else s.plainWord a
    | .sru d =>
      if a = Reg.SRU_EOS_Q d then (s.takeEos d).1
      else if a = Reg.SRU_STAT d then fieldSet (s.plainWord a) 7 1 (bit (s.sruStall d))
      else s.plainWord a
    | .hole => 0
    | _ => s.plainWord a

/-- What a read of a low register latches, with the value (R12). -/
def latchOf (s : State) (a : Nat) : Option (Nat × Word) :=
  match windowOf a with
  | .time =>
    if a = Reg.TIME_DOM_RATE_LO 0 ∨ a = Reg.TIME_DOM_RATE_LO 1 then
      some (a + 4, BitVec.ofNat 32 (ofSigned 40 (s.dom ((a - Reg.TIME_DOM_RATE_LO 0) / 0x40)).rate / 2 ^ 32))
    else if a = Reg.TIME_PPS_CAP_NS 0 ∨ a = Reg.TIME_PPS_CAP_NS 1 then some (a + 4, s.reg (a + 4))
    else none
  | .tsq d =>
    if a % 0x100000 = 0x30000 then some (a + 4, BitVec.ofNat 32 ((s.repeater d).value / qnsSecond)) else none
  | .img =>
    if a = Reg.IMG_EPOCH_LO ∨ (imgBlockAt a).any fun p => p.2 == 0x28 then some (a + 4, s.reg (a + 4)) else none
  | _ => none

/-- By how much a counter has been raised in this cycle, with its value before (R14). -/
def raisedNow (s : State) (a : Nat) (f : Nat × Nat) : Option (Nat × Nat) := Store.get (fun _ => none) s.now.raised (a * 32 + f.1)

/-- An RC field is cleared when the read returns every byte of it (R11): what this cycle has added stays (R14);
MIN_FREE becomes FREE. -/
def clearRc (s : State) (a lo n : Nat) (f : Nat × Nat) : State :=
  if lo ≤ f.1 / 8 ∧ (f.1 + f.2 - 1) / 8 < lo + n then
    if a = Reg.XING_BUF_STAT then s.setReg a (fieldSet (s.reg a) f.1 f.2 (s.fld Fld.XING_BUF_STAT_FREE))
    else
      match s.raisedNow a f with
      | some p =>
        { s with now := { s.now with
          raised := Store.set (fun _ => none) s.now.raised (a * 32 + f.1) (some (0, p.2)) } }.setReg a
          (fieldSet (s.reg a) f.1 f.2 (min (2 ^ f.2 - 1) p.2))
      | none => s.setReg a (fieldSet (s.reg a) f.1 f.2 0)
  else s

/-- The word a read returns: an RC counter raised in this cycle stands at its value before (R14). -/
def beforeRaises (s : State) (a : Nat) (w : Word) : Word :=
  match regRow a with
  | some r => r.rc.foldl (fun w f =>
      match s.raisedNow a f with
      | some p => fieldSet w f.1 f.2 p.1
      | none => w) w
  | none => w

/-- What a read of `n` bytes from byte `lo` of the register at `a` changes. -/
def afterRead (s : State) (a lo n : Nat) : State :=
  let s1 := match s.latchOf a with
    | some p => { s with latch := Store.set (fun _ => 0) s.latch p.1 p.2 }
    | none => s
  match windowOf a with
  | .time =>
    if s.tclkLost then s
    else match regRow a with
      | some r => r.rc.foldl (fun s f => s.clearRc a lo n f) s1
      | none => s1
  | .sru d =>
    if a = Reg.SRU_EOS_Q d then (if lo + n = 4 then (s1.takeEos d).2 else s1)
    else match regRow a with
      | some r => r.rc.foldl (fun s f => s.clearRc a lo n f) s1
      | none => s1
  | _ =>
    match regRow a with
    | some r => r.rc.foldl (fun s f => s.clearRc a lo n f) s1
    | none => s1

/-- A register read: the word that holds the bytes read, and the state after it. -/
def readReg (s : State) (who : Ident) (a lo n : Nat) : Word × State :=
  let w := windowOf a
  if s.inReset ∨ (Ident.isHost who && s.mode == Mode.boot && !w.inBoot) then (0, s)
  else if !regHere s.variant a then (0, s.absentHit (a + lo) false)
  else (s.beforeRaises a (s.peek who a), s.afterRead a lo n)

/-! ### Accesses of several bytes (R40) -/

end State

/-- The registers that `n` bytes at `a` touch, in ascending order: each register's offset, the first byte of it and
their number. -/
def regParts (a n : Nat) : List (Nat × Nat × Nat) :=
  (List.range ((a % 4 + n + 3) / 4)).map fun i =>
    let r := a / 4 * 4 + 4 * i
    (r, max a r - r, min (a + n) (r + 4) - max a r)

namespace State

/-- A read of `n` bytes, little-endian. -/
def readRegs (s : State) (who : Ident) (a n : Nat) : Nat × State :=
  (regParts a n).foldl (fun p q =>
    let r := p.2.readReg who q.1 q.2.1 q.2.2
    (p.1 + r.1.toNat / 256 ^ q.2.1 % 256 ^ q.2.2 * 256 ^ (q.1 + q.2.1 - a), r.2)) (0, s)

/-- A write of `n` bytes of `v`. -/
def writeRegs (s : State) (who : Ident) (a n v : Nat) : State :=
  (regParts a n).foldl (fun s q =>
    s.writeReg who q.1 q.2.1 q.2.2 (BitVec.ofNat 32 (v / 256 ^ (q.1 + q.2.1 - a)))) s

/-- The balls of the management SPI: MSPI_INT_N is low while an enabled source routed to function 7 is pending
(R458). -/
def mspiInt (s : State) : Bool :=
  (List.range 64).any fun n =>
    (s.reg (irqReg n)).getLsbD (n % 32) && s.flag (Fld.MBX_IRQ_ROUTE_EN n) && s.irqFn n == 7

end State

/-! ### The commands -/

/-- ABSENT_WINDOW_ACCESS (R5, R6): an access to the window of an absent unit changes SYS_ABSENT_HIT alone. -/
def execAbsentWindowAccess (who : Ident) (a : Nat) (write : Bool) (s : State) : Answer :=
  .next (s.served who fun s => if regHere s.variant a then s else s.absentHit a write)

/-- REGISTER_WRITE (R12): a write of `n` bytes of `v` at offset `a`. -/
def execRegisterWrite (who : Ident) (a n v : Nat) (s : State) : Answer :=
  .next (s.live fun s => s.overHclk who fun s => s.writeRegs who a n v)

/-- CE_WDOG (R143, R145). -/
def execCeWdog (who : Ident) (e : Nat) (v : Word) (s : State) : Answer :=
  .next (s.served who fun s =>
    if Ident.isEngine who then s.refuseStore who (Reg.CE_WDOG e) else s.runControl who e fun s => s.writeWdog e v)

/-- CE_WDOG_KICK (R143, R145): another engine's write is refused. -/
def execCeWdogKick (who : Ident) (e : Nat) (key : BitVec 16) (s : State) : Answer :=
  .next (s.served who fun s =>
    if !s.hasEngine e then s.absentHit (Reg.CE_WDOG_KICK e) true
    else if !s.mayWriteReg who (Reg.CE_WDOG_KICK e) then s.refuseStore who (Reg.CE_WDOG_KICK e)
    else s.writeKick e (key.setWidth 32))

end Sys2Proof.Machine
end

