-- ==== Sys2Proof/Machine/EngineMem.lean ====
section
/-!
DEFINITION. The four spaces of an engine (R93, R102–R105, R158, R535): the checks at issue, what a load finds at
its target, what a store does there, the posted-store queue, and the results of accesses held for an abandoned
instruction (R124).
-/

namespace Sys2Proof.Machine

/-- Which kind of unit a PORT range belongs to (Table RND-7). -/
inductive PortKind where
  | eth | can | ser
  deriving DecidableEq, Repr

/-- The unit of a PORT address, and the offset in its range. -/
def portAt (a : Nat) : Option (PortKind × Nat × Nat) :=
  if a < 0x220000 then some (.eth, a / 0x10000, a % 0x10000)
  else if 0x1000000 ≤ a ∧ a < 0x1100000 then some (.can, (a - 0x1000000) / 0x10000, a % 0x10000)
  else if 0x2000000 ≤ a ∧ a < 0x2010000 then some (.ser, (a - 0x2000000) / 0x1000, a % 0x1000)
  else none

/-- Size of a unit's range. -/
def PortKind.size : PortKind → Nat
  | .ser => 0x1000 | _ => 0x10000

/-- The parts of the ranges (Tables ETH-7, CAN-3 and SER-2). -/
inductive PortPart where
  | control | rxRing | txRing | patch | aptA | aptB
  | rxObj | txObj | maps
  | serRx | serTx | serCtl
  deriving DecidableEq, Repr

/-- The part that an offset lies in. -/
def portPart (k : PortKind) (o : Nat) : Option PortPart :=
  match k with
  | .eth =>
    if o < 0x100 then some .control
    else if 0x1000 ≤ o ∧ o < 0x2000 then some .rxRing
    else if 0x2000 ≤ o ∧ o < 0x3000 then some .txRing
    else if 0x4000 ≤ o ∧ o < 0x4800 then some .patch
    else if 0x8000 ≤ o ∧ o < 0xC000 then some .aptA
    else if 0xC000 ≤ o ∧ o < 0x10000 then some .aptB
    else none
  | .can =>
    if o < 0x5000 then some .rxObj
    else if 0x8000 ≤ o ∧ o < 0x8A00 then some .txObj
    else if 0xA000 ≤ o ∧ o < 0xA044 then some .maps
    else none
  | .ser =>
    if o < 0x800 then some .serRx
    else if o < 0xF00 then some .serTx
    else if o < 0xF20 then some .serCtl
    else none

/-- Bytes `o` to `o + n - 1` of a sequence of words given by offset. -/
def spanBytes (word : Nat → Word) (o n : Nat) : Nat :=
  (List.range n).foldl (fun v k =>
    v + (word ((o + k) / 4 * 4)).toNat / 256 ^ ((o + k) % 4) % 256 * 256 ^ k) 0

/-- A word with the `n` bytes from byte `lo` replaced by the low bytes of `v`. -/
def mergeBytes (old : Word) (lo n v : Nat) : Word := fieldSet old (8 * lo) (8 * n) v

namespace State

/-- The identity of an engine of this chip. -/
def engIdent (s : State) (e : Nat) : Ident := s.ident (0x10 + e)

/-! ### Apertures (R270, R271) -/

/-- APT_A or APT_B of engine `e` in the range of port `n`. -/
def aptWord (s : State) (e n : Nat) (b : Bool) : Word :=
  Store.get (fun _ => 0) (if b then (s.port n).aptB else (s.port n).aptA) (e % 12)

/-- The frame that an aperture shows, while its cells are leased to the engine. -/
def aptFrame (s : State) (e n : Nat) (b : Bool) : Option Frame :=
  let c := fieldGet (s.aptWord e n b) 0 15
  if s.holdsCell e c then (s.frameOfCell c).bind s.frame else none

/-- Byte of the frame at aperture offset `x`. -/
def aptByte (s : State) (e n : Nat) (b : Bool) (x : Nat) : Nat := fieldGet (s.aptWord e n b) 16 3 * 0x4000 + x

/-- Bytes `x` to `x + k - 1` of an aperture lie in a frame. -/
def aptOk (s : State) (e n : Nat) (b : Bool) (x k : Nat) : Bool :=
  match s.aptFrame e n b with
  | some f => decide (s.aptByte e n b x + k ≤ f.cells.length * 256)
  | none => false

/-! ### Checks at issue (R102, R103) -/

/-- Engine `e` may write the control word at offset `w` (Table ETH-8); words that are not listed ignore a write. -/
def ctlWritable (e w : Nat) : Bool :=
  if w = 0 ∨ w = 0xC ∨ w = 0x18 ∨ w = 0x1C then false
  else if 0x40 ≤ w ∧ w < 0xA0 then (w - 0x40) / 8 == e % 12
  else true

/-- A control word of a serial line may be accessed (Table SER-2). -/
def serAllowed (write : Bool) (w : Nat) : Bool :=
  if write then w == 0xF04 || w == 0xF0C || w == 0xF10 else w != 0xF10

/-- An access in a part of a PORT range is one that its table allows. -/
def partOk (s : State) (e n o k : Nat) (write : Bool) : PortPart → Bool
  | .control => !write || (regParts o k).all fun q => ctlWritable e q.1
  | .rxRing | .txRing | .serTx => true
  | .patch => s.isThru n
  | .aptA => s.aptOk e n false (o - 0x8000) k
  | .aptB => s.aptOk e n true (o - 0xC000) k
  | .rxObj | .maps | .serRx => !write
  | .txObj => !write || (regParts (o - 0x8000) k).all fun q => q.1 % 0x50 != 12
  | .serCtl => (regParts o k).all fun q => serAllowed write q.1

/-- The unit of a PORT range is present, and bound to the engine's district. -/
def portPresent (s : State) (n : Nat) : PortKind → Bool
  | .eth => s.variant.hasPort n | .can => s.variant.hasCan n | .ser => s.variant.hasSer n

def portOwned (s : State) (e n : Nat) : PortKind → Bool
  | .eth => s.ownsPort e n | .can => s.ownsCan e n | .ser => s.ownsSer e n

/-- Checks of an access in PORT space (R158). -/
def checkPort (s : State) (e a n : Nat) (write : Bool) : Option Exc :=
  match portAt a with
  | none => some .access
  | some (k, u, o) =>
    if k.size < o + n then some .access
    else if !s.portPresent u k then some .absent
    else if !s.portOwned e u k then some .access
    else
      match portPart k o with
      | none => some .access
      | some p =>
        if portPart k (o + n - 1) = some p ∧ s.partOk e u o n write p then none else some .access

/-- Checks of an access in LOCAL; `stack` when its base is g15 (R144). -/
def checkLocal (s : State) (e a n : Nat) (write stack : Bool) : Option Exc :=
  if !(decide (a + n ≤ 0x10000) || (decide (0x10000 ≤ a ∧ a + n ≤ 0x20000) && !write)) then some .access
  else if stack && !decide (s.fld (Fld.CE_STACK_BASE_BASE e) ≤ a ∧ a + n ≤ s.fld (Fld.CE_STACK_LIMIT_LIMIT e)) then
    some .stack
  else none

/-- Checks of an access in DISTRICT: the SRAM, or the register aperture with the engine's write rights (R40). -/
def checkDistrict (s : State) (e a n : Nat) (write : Bool) : Option Exc :=
  if a + n ≤ sramSize then none
  else if 0x40000000 ≤ a ∧ a + n ≤ 0x44000000 then
    if !write || (regParts (a - 0x40000000) n).all fun q => s.mayWriteReg (s.engIdent e) q.1 then none
    else some .access
  else some .access

/-- Checks of an access in IMAGE (R379, R397). -/
def checkImage (s : State) (a n : Nat) (write : Bool) : Option Exc :=
  if a + n ≤ s.variant.points * 16 then
    if write && a % 16 != 0 then some .access else if a % n != 0 then some .align else none
  else if 0x40000000 ≤ a ∧ a + n ≤ 0x40000080 then (if a % n != 0 then some .align else none)
  else some .access

/-- The checks of an access of `n` bytes: the exception it raises, in the order ABSENT, ACCESS, ALIGN, STACK. -/
def check (s : State) (e : Nat) (sp : Space) (a n : Nat) (write stack : Bool) : Option Exc :=
  match sp with
  | .engineLocal => s.checkLocal e a n write stack
  | .district => s.checkDistrict e a n write
  | .image => s.checkImage a n write
  | .port => s.checkPort e a n write

/-- The value of a store to a control word is one that raises ACCESS: ENGINE 12–15, or WIN above 4 (Table ETH-8). -/
def badValue (s : State) (e a n v : Nat) : Bool :=
  match portAt a with
  | some (.eth, u, o) =>
    decide (o < 0x100) && (regParts o n).any fun q =>
      let x := v / 256 ^ (q.1 + q.2.1 - o)
      if q.1 = 8 then decide (12 ≤ (mergeBytes (s.port u).rxCtrl q.2.1 q.2.2 x).toNat % 16)
      else if 0x40 ≤ q.1 ∧ q.1 < 0xA0 then
        decide (4 < fieldGet (mergeBytes (s.aptWord e u (q.1 % 8 == 4)) q.2.1 q.2.2 x) 16 3)
      else false
  | _ => false

/-- An access through an aperture of a PORT range. -/
def inAperture (sp : Space) (a : Nat) : Bool :=
  match sp, portAt a with
  | .port, some (.eth, _, o) => decide (0x8000 ≤ o)
  | _, _ => false

/-! ### Reads at the target -/

end State

/-- What a load finds at its target: its value, a refusal, or data that has yet to come. -/
inductive Loaded where
  | value (v : Nat) (s : State)
  | refused (s : State)
  | later (s : State)

namespace State

/-- The aperture shows the window of another identity's channel, which an engine may not read (R469). -/
def foreignChannel (s : State) (e a : Nat) : Bool :=
  decide (0x120000 ≤ a ∧ a < 0x128000) &&
    (s.channel ((a - 0x120000) / 0x200)).holder != some (s.engIdent e)

/-- A load from district space (R40, R151). -/
def loadDistrict (s : State) (e a n : Nat) : Loaded :=
  if a < sramSize then
    let s := s.sramScrub (e / 12) a n
    if s.sramBad (e / 12) a n then .refused (s.sramErrorSeen (e / 12)) else .value (s.sramRead (e / 12) a n) s
  else
    let b := a - 0x40000000
    if (regParts b n).any fun q => s.foreignChannel e q.1 then .refused s
    else .value (s.readRegs (s.engIdent e) b n).1 (s.readRegs (s.engIdent e) b n).2

/-- A word of an engine's image control block (Table IMG-6). -/
def imgBlockWord (s : State) (b o : Nat) : Word :=
  if o = 0x2C then s.latched (Reg.IMG_RES_EPOCH_HI b)
  else
    match regRow (0x701000 + o) with
    | some r => s.reg (imgBlk b + o) &&& readable r
    | none => 0

/-- A load of `n` bytes of an engine's image control block: one that reads RES_EPOCH_LO latches RES_EPOCH_HI. -/
def loadImgBlock (s : State) (e o n : Nat) : Loaded :=
  let s1 := if o < 0x2C ∧ 0x28 < o + n then
      { s with latch := Store.set (fun _ => 0) s.latch (Reg.IMG_RES_EPOCH_HI (16 + e)) (s.reg (Reg.IMG_RES_EPOCH_HI (16 + e))) }
    else s
  .value (spanBytes (s1.imgBlockWord (16 + e)) o n) s1

/-- The latches of an engine take 16 bytes (R376). -/
def latchPoint (s : State) (e v : Nat) : State :=
  (List.range 4).foldl (fun s k => s.setReg (Reg.IMG_LATCH (16 + e) k) (BitVec.ofNat 32 (v / 2 ^ (32 * k)))) s

/-- A load from image space (R375, R397, R399). -/
def loadImage (s : State) (e a n : Nat) : Loaded :=
  let who := s.engIdent e
  if 0x40000000 ≤ a then s.loadImgBlock e (a - 0x40000000) n
  else if s.readsRemote who then
    if s.remoteOpen (s.fld (Fld.IMG_VIEW_CHIP (16 + e))) then .later (s.askRemote who (a / 16) (a % 16) n)
    else .value (takeBytes (2 ^ 125) (a % 16) n) ((s.latchPoint e (2 ^ 125)).imgErr who)
  else .value (takeBytes (s.imgRead who (a / 16)).1 (a % 16) n) (s.imgRead who (a / 16)).2

/-- A control word of a port (Table ETH-8). -/
def ctlWord (s : State) (e n w : Nat) : Word :=
  let p := s.port n
  if w = 0 then BitVec.ofNat 32 p.rxTail
  else if w = 4 then BitVec.ofNat 32 p.rxHead
  else if w = 8 then p.rxCtrl
  else if w = 0xC then BitVec.ofNat 32 p.txHead
  else if w = 0x10 then BitVec.ofNat 32 p.txTail
  else if w = 0x14 then Store.get (fun _ => 0) p.alloc (e % 12)
  else if w = 0x18 then BitVec.ofNat 32 (Store.get (fun _ => 0) p.allocRes (e % 12))
  else if w = 0x1C then BitVec.ofNat 32 p.patchFrame
  else if 0x40 ≤ w ∧ w < 0xA0 then
    Store.get (fun _ => 0) (if w % 8 = 4 then p.aptB else p.aptA) ((w - 0x40) / 8)
  else 0

/-- A word of the NEW and LOST bitmaps or of SOF_CNT (Table CAN-3). -/
def canMapWord (s : State) (n o : Nat) : Word :=
  if o = 0xA040 then BitVec.ofNat 32 (s.fld (Fld.CAN_SOF_CNT_COUNT n) % 65536)
  else
    let lost := 0xA020 ≤ o
    let first := (o - (if lost then 0xA020 else 0xA000)) * 8
    BitVec.ofNat 32 (((List.range 32).map fun i =>
      let x := s.rxObj n (first + i)
      2 ^ i * bit (if lost then x.lost else x.new)).sum)

/-- A control word of a serial line (Table SER-2). -/
def serWord (s : State) (n w : Nat) : Word :=
  let x := s.ser n
  if w = 0xF00 then BitVec.ofNat 32 x.rxTail
  else if w = 0xF04 then BitVec.ofNat 32 x.rxHead
  else if w = 0xF08 then BitVec.ofNat 32 x.txHead
  else if w = 0xF0C then BitVec.ofNat 32 x.txTail
  else if w = 0xF14 then BitVec.ofNat 32 x.cmdRes
  else if w = 0xF18 then x.ssiData
  else if w = 0xF1C then BitVec.ofNat 32 x.ssiCnt
  else 0

/-- Two receive entries of a serial line as a word. -/
def serRxWord (s : State) (n o : Nat) : Word :=
  let x (i : Nat) : Nat := (Store.get (fun _ => 0) (s.ser n).rx i).toNat % 65536
  BitVec.ofNat 32 (x (o / 2) + 65536 * x (o / 2 + 1))

/-- The effect of a read on the locks of the receive objects whose words 0 or 19 it includes (R302). -/
def touchObjects (s : State) (e n o k : Nat) : State :=
  (regParts o k).foldl (fun s q =>
    if q.1 % 0x50 = 0 then s.touchWord0 e n (q.1 / 0x50)
    else if q.1 % 0x50 = 76 then s.touchWord19 e n (q.1 / 0x50)
    else s) s

/-- Updates of this cycle to the unlocked objects whose word 0 a read includes come before it (R304). -/
def openObjects (s : State) (n o k : Nat) : State :=
  (regParts o k).foldl (fun s q => if q.1 % 0x50 = 0 then s.openRx n (q.1 / 0x50) else s) s

/-- Bytes as a number, the first the least significant. -/
def bytesNat (bs : List Byte) : Nat := bs.foldr (fun b v => b.toNat + 256 * v) 0

/-- A load through an aperture. -/
def loadApt (s : State) (e n : Nat) (b : Bool) (x k : Nat) : Loaded :=
  match s.aptFrame e n b with
  | some f => .value (bytesNat (s.frameBytesFrom f (s.aptByte e n b x) k)) s
  | none => .refused s

/-- A load from a part of unit `n`'s PORT range. -/
def loadPart (s : State) (e n o k : Nat) : PortPart → Loaded
  | .control => .value (spanBytes (s.ctlWord e n) o k) s
  | .rxRing => .value (spanBytes (fun w => Store.get (fun _ => 0) (s.port n).rxDesc ((w - 0x1000) / 4)) o k) s
  | .txRing => .value (spanBytes (fun w => Store.get (fun _ => 0) (s.port n).txDesc ((w - 0x2000) / 4)) o k) s
  | .patch =>
    match s.windowBytes n (o - 0x4000) k with
    | some v => .value v s
    | none => .later s
  | .aptA => s.loadApt e n false (o - 0x8000) k
  | .aptB => s.loadApt e n true (o - 0xC000) k
  | .rxObj =>
    let s := s.openObjects n o k
    .value (spanBytes (fun w => s.rxWord e n (w / 0x50) (w % 0x50 / 4)) o k) (s.touchObjects e n o k)
  | .txObj => .value (spanBytes (fun w => s.txObjWord n ((w - 0x8000) / 0x50) ((w - 0x8000) % 0x50 / 4)) o k) s
  | .maps => .value (spanBytes (s.canMapWord n) o k) s
  | .serRx => .value (spanBytes (s.serRxWord n) o k) s
  | .serTx => .value ((s.ser n).tx.readLE (o - 0x800) k) s
  | .serCtl => .value (spanBytes (s.serWord n) o k) s

/-- A load from PORT space. -/
def loadPort (s : State) (e a n : Nat) : Loaded :=
  match portAt a with
  | some (k, u, o) =>
    match portPart k o with
    | some p => s.loadPart e u o n p
    | none => .refused s
  | none => .refused s

/-- A byte of an engine's own memories: data SRAM, then instruction SRAM. -/
def localByte (s : State) (e a : Nat) : Byte :=
  if a < 0x10000 then (s.eng e).data.read a else (s.eng e).instr.read (a - 0x10000)

/-- `n` bytes of an engine's own memories. -/
def localRead (s : State) (e a n : Nat) : Nat := bytesNat ((List.range n).map fun k => s.localByte e (a + k))

/-- A load that has passed its checks, at its target. -/
def loadAt (s : State) (e : Nat) (sp : Space) (a n : Nat) : Loaded :=
  match sp with
  | .engineLocal => .value (s.localRead e a n) s
  | .district => s.loadDistrict e a n
  | .image => s.loadImage e a n
  | .port => s.loadPort e a n

/-! ### Stores at the target -/

/-- A posted store is refused: an ACCESS entry is due at an engine that runs (R535). -/
def refusePosted (s : State) (e : Nat) (sp : Space) (a n : Nat) : State :=
  if s.awake e then
    s.setEng e { s.eng e with refused := (s.eng e).refused ++ [{ space := sp, addr := a, bytes := n }] }
  else s

/-- A control word of a port is written (Table ETH-8). -/
def putCtl (s : State) (e n w lo k v : Nat) : State :=
  let m (old : Word) : Word := mergeBytes old lo k v
  if w = 4 then after (execRxHead n e (m (s.ctlWord e n w)).toNat s) s
  else if w = 8 then after (execRxCtrl n e (m (s.ctlWord e n w)) s) s
  else if w = 0x10 then after (execTxTail n e (m (s.ctlWord e n w)).toNat s) s
  else if w = 0x14 then after (execAlloc n e (m 0) s) s
  else if 0x40 ≤ w ∧ w < 0xA0 then
    after (execAptA n e ((w - 0x40) / 8) (w % 8 == 4) (m (s.ctlWord e n w)) s) s
  else s

/-- A control word of a serial line is written (Table SER-2). -/
def putSer (s : State) (e n w lo k v : Nat) : State :=
  let m (old : Word) : Word := mergeBytes old lo k v
  if w = 0xF04 then after (execSerRxHead n e (m (s.serWord n w)).toNat s) s
  else if w = 0xF0C then after (execSerTxTail n e (m (s.serWord n w)).toNat s) s
  else if w = 0xF10 then
    let cmd := (m 0).toNat % 4
    if cmd = 1 then after (execSsiStart n e s) s
    else if cmd = 2 then after (execWurq n e (m 0) s) s
    else s
  else s

/-- A store to transmit objects of a controller: refused whole where it touches words 1, 2 or 4–19 of one that is
PENDING or ACTIVE (R306). -/
def storeTxObj (s : State) (e n o k v : Nat) (a : Nat) : State :=
  let parts := regParts (o - 0x8000) k
  if parts.any fun q => q.1 % 0x50 != 0 && ((s.txObj n (q.1 / 0x50)).state == 1 || (s.txObj n (q.1 / 0x50)).state == 2) then
    s.refusePosted e .port a k
  else
    let put (s : State) (q : Nat × Nat × Nat) : State :=
      let t := q.1 / 0x50
      let w := q.1 % 0x50 / 4
      let old := if w = 0 then 0 else s.txObjWord n t w
      (s.writeTxWord n t w (mergeBytes old q.2.1 q.2.2 (v / 256 ^ (q.1 + q.2.1 - (o - 0x8000))))).getD s
    (parts.filter fun q => q.1 % 0x50 == 0).foldl put ((parts.filter fun q => q.1 % 0x50 != 0).foldl put s)

/-- The low `n` bytes of a value. -/
def natBytes (n v : Nat) : List Byte := (List.range n).map fun k => BitVec.ofNat 8 (v / 256 ^ k)

/-- A store through an aperture whose frame is still leased. -/
def storeApt (s : State) (e n : Nat) (b : Bool) (x k v : Nat) : State :=
  match s.aptFrame e n b with
  | some f => if s.aptOk e n b x k then s.frameWrite f (s.aptByte e n b x) (natBytes k v) else s
  | none => s

/-- A store to a part of unit `n`'s PORT range, at address `a`. -/
def storePart (s : State) (e n o k v : Nat) (a : Nat) : PortPart → State
  | .control => (regParts o k).foldl (fun s q => s.putCtl e n q.1 q.2.1 q.2.2 (v / 256 ^ (q.1 + q.2.1 - o))) s
  | .rxRing =>
    (regParts o k).foldl (fun s q =>
      let i := (q.1 - 0x1000) / 4
      let p := s.port n
      let w := mergeBytes (Store.get (fun _ => 0) p.rxDesc i) q.2.1 q.2.2 (v / 256 ^ (q.1 + q.2.1 - o))
      s.setPort n { p with rxDesc := Store.set (fun _ => 0) p.rxDesc i w }) s
  | .txRing =>
    (regParts o k).foldl (fun s q =>
      let i := (q.1 - 0x2000) / 4
      let p := s.port n
      let w := mergeBytes (Store.get (fun _ => 0) p.txDesc i) q.2.1 q.2.2 (v / 256 ^ (q.1 + q.2.1 - o))
      s.setPort n { p with txDesc := Store.set (fun _ => 0) p.txDesc i w }) s
  | .patch => after (execPatchArrival n (o - 0x4000) (natBytes k v) s) s
  | .aptA => s.storeApt e n false (o - 0x8000) k v
  | .aptB => s.storeApt e n true (o - 0xC000) k v
  | .txObj => s.storeTxObj e n o k v a
  | .serTx => s.setSer n { s.ser n with tx := (s.ser n).tx.writeLE (o - 0x800) k v }
  | .serCtl => (regParts o k).foldl (fun s q => s.putSer e n q.1 q.2.1 q.2.2 (v / 256 ^ (q.1 + q.2.1 - o))) s
  | .rxObj | .maps | .serRx => s

/-- A store to PORT space, where the unit is still bound to the engine's district. -/
def storePort (s : State) (e a n v : Nat) : State :=
  match portAt a with
  | some (k, u, o) =>
    match portPart k o with
    | some p => if s.portOwned e u k then s.storePart e u o n v a p else s
    | none => s
  | none => s

/-- A store to image space: a point, or the engine's control block (R379, R397). -/
def storeImage (s : State) (e a n v : Nat) : State :=
  let who := s.engIdent e
  if 0x40000000 ≤ a then
    (regParts (a - 0x40000000) n).foldl (fun s q =>
      if q.2.2 < 4 then s.setFlag Fld.IMG_STAT_CFG_ERR true
      else s.writeImgBlock who q.1 (BitVec.ofNat 32 (v / 256 ^ (q.1 - (a - 0x40000000))))) s
  else s.imgStore who (a / 16) (v % 256 ^ n)

/-- A store to district space (R154). -/
def storeDistrict (s : State) (e a n v : Nat) : State :=
  if a < sramSize then
    if s.sramWritable (e / 12) a n (s.engIdent e) then s.sramStore (e / 12) a n v else s.refusePosted e .district a n
  else s.writeRegs (s.engIdent e) (a - 0x40000000) n v

/-- A store at its target. -/
def storeAt (s : State) (e : Nat) (sp : Space) (a n v : Nat) : State :=
  match sp with
  | .engineLocal => s.setEng e { s.eng e with data := (s.eng e).data.writeLE a n v }
  | .district => s.storeDistrict e a n v
  | .image => s.storeImage e a n v
  | .port => s.storePort e a n v

/-! ### The posted-store queue (R104) -/

/-- An entry of the queue of engine `e` takes its effect. -/
def applyPosted (e : Nat) (s : State) : Posted → State
  | .store sp a n v => s.storeAt e sp a n v
  | .doorbell t b => s.ring t b

/-- The entries that `f` names complete, in issue order. -/
def drain (s : State) (e : Nat) (f : Posted → Bool) : State :=
  ((s.eng e).posted.filter f).foldl (applyPosted e)
    (s.setEng e { s.eng e with posted := (s.eng e).posted.filter fun p => !f p })

end State

/-- The entry is a store to a space. -/
def Posted.inSpace (sp : Space) : Posted → Bool
  | .store q _ _ _ => q == sp
  | .doorbell _ _ => false

/-- Two entries are ordered: stores to one space, or doorbells. -/
def Posted.ordered : Posted → Posted → Bool
  | .store p _ _ _, .store q _ _ _ => p == q
  | .doorbell _ _, .doorbell _ _ => true
  | _, _ => false

namespace State

/-- Entry `k` of the queue completes, unless one that goes before it still waits. -/
def completePosted (s : State) (e k : Nat) : State :=
  let ps := (s.eng e).posted
  match ps[k]? with
  | some p =>
    if (ps.take k).any (·.ordered p) then s
    else applyPosted e (s.setEng e { s.eng e with posted := ps.eraseIdx k }) p
  | none => s

/-- The queue has room for an entry: its oldest completes if it is full. -/
def makeRoom (s : State) (e : Nat) : State := if 8 ≤ (s.eng e).posted.length then s.completePosted e 0 else s

/-- An entry joins the queue. -/
def post (s : State) (e : Nat) (p : Posted) : State :=
  s.setEng e { s.eng e with posted := (s.eng e).posted ++ [p] }

/-- Before an access through an aperture, the engine's earlier stores to PORT space take effect (R271). -/
def settle (s : State) (e : Nat) (sp : Space) (a : Nat) : State :=
  if inAperture sp a then s.drain e (·.inSpace .port) else s

/-! ### Held results (R124) -/

end State

/-- What a re-executed instruction finds held for an access of it. -/
inductive Take where
  | fresh | waiting
  | got (v : Nat)
  | refused (a : Access)

/-- An access is a load from outside the engine. -/
def isLoad : Access → Bool
  | .load _ _ _ => true
  | _ => false

/-- An access is an atomic operation. -/
def isAtomic : Access → Bool
  | .atomic _ _ _ _ => true
  | _ => false

namespace State

/-- The `k`-th held access of the instruction at the return address, if it is one that `fits`. -/
def takeHeld (s : State) (e k : Nat) (fits : Access → Bool) : Take :=
  match (s.eng e).returned.bind fun r => r.held[k]? with
  | some h =>
    if fits h.access then
      match h.result with
      | none => .waiting
      | some (.value v) => .got v
      | some .refused => .refused h.access
    else .fresh
  | none => .fresh

/-- ACCESS for an access that its target refused, at the address first sent. -/
def refusedFault (s : State) (e : Nat) (write : Bool) : Access → State
  | .load sp a n =>
    s.accessFault e .access { space := sp, write := write, noMem := false, fetch := false, posted := false, bytes := n } a
  | .atomic a n _ _ =>
    s.accessFault e .access { space := .district, write := true, noMem := false, fetch := false, posted := false, bytes := n } a
  | .lease _ | .release _ => s

/-! ### Loads and stores of an instruction -/

/-- A load whose destination and width `w` gives: it takes its held result, or is checked, waits for the earlier
stores to its space, and reads. -/
def loadInstr (s0 : State) (e : Nat) (w : LoadWait) (stack : Bool) : State :=
  match s0.takeHeld e 0 isLoad with
  | .waiting => s0
  | .got v => s0.finishLoad e w v
  | .refused a => s0.refusedFault e false a
  | .fresh =>
    let s := s0.settle e w.space w.addr
    if s.entryDue e then s
    else
      let f : FaultInfo := { space := w.space, write := false, noMem := false, fetch := false, posted := false, bytes := w.bytes }
      match s.check e w.space w.addr w.bytes false stack with
      | some x => s.accessFault e x f w.addr
      | none =>
        let s1 := s.drain e (·.inSpace w.space)
        if s1.entryDue e then s1
        else
          match s1.loadAt e w.space w.addr w.bytes with
          | .value v s2 => s2.finishLoad e w v
          | .refused s2 => s2.accessFault e .access f w.addr
          | .later s2 => s2.setEng e { s2.eng e with loadWait := some w }

/-- A write at issue to another identity's block sets CFG_ERR of its unit (R397, R465). -/
def markForeign (s : State) (e a n : Nat) (sp : Space) : State :=
  if sp = .district ∧ 0x40000000 ≤ a then
    (regParts (a - 0x40000000) n).foldl (fun s q =>
      if foreignBlock (s.engIdent e) q.1 then s.windowErr (windowOf q.1) else s) s
  else s

/-- A store's checks: the exception it raises. -/
def checkStore (s : State) (e : Nat) (sp : Space) (a n v : Nat) (stack : Bool) : Option Exc :=
  match s.check e sp a n true stack with
  | some x => some x
  | none => if sp = .port ∧ s.badValue e a n v then some .access else none

/-- A store that has passed its checks takes effect in LOCAL, or is posted. -/
def putStore (s : State) (e : Nat) (sp : Space) (a n v : Nat) : State :=
  if sp = .engineLocal then s.storeAt e sp a n v else s.post e (.store sp a n (v % 256 ^ n))

/-- A store of `n` bytes. -/
def storeInstr (s0 : State) (e : Nat) (sp : Space) (a n v : Nat) (stack : Bool) (len : Nat) : State :=
  let s := s0.settle e sp a
  if s.entryDue e then s
  else
    match s.checkStore e sp a n v stack with
    | some x =>
      (s.markForeign e a n sp).accessFault e x
        { space := sp, write := true, noMem := false, fetch := false, posted := false, bytes := n } a
    | none =>
      let s1 := if sp = .engineLocal then s else s.makeRoom e
      if s1.entryDue e then s1 else (s1.putStore e sp a n v).advance e len

/-! ### Atomic operations (R94) -/

end State

/-- What an atomic operation writes over `old`; none where a compare fails. -/
def atomResult (op : AtomOp) (n old a : Nat) : Option Nat :=
  match op with
  | .swp => some a
  | .fadd => some ((old + a) % 256 ^ n)
  | .fand => some (old &&& a)
  | .fior => some (old ||| a)
  | .fxor => some (old ^^^ a)
  | .cas c => if old = c then some a else none

namespace State

/-- An atomic operation at its target: refused in a held and enforced region, or by an uncorrectable error. -/
def atomicAt (s : State) (e a n : Nat) (op : AtomOp) (v : Nat) : Loaded :=
  let d := e / 12
  let s := s.sramScrub d a n
  if s.sramBad d a n then .refused (s.sramErrorSeen d)
  else if !s.sramWritable d a n (s.engIdent e) then .refused s
  else
    let old := s.sramRead d a n
    match atomResult op n old v with
    | some x => .value old (s.sramStore d a n x)
    | none => .value old s

/-- An instruction of the atomic group: `d` takes the old value. -/
def atomicInstr (s : State) (e : Nat) (wide : Bool) (d : GReg) (a : Nat) (op : AtomOp) (v len : Nat) : State :=
  let n := if wide then 8 else 4
  let f : FaultInfo := { space := .district, write := true, noMem := false, fetch := false, posted := false, bytes := n }
  match s.takeHeld e 0 isAtomic with
  | .waiting => s
  | .got old => (s.wr e wide d old).advance e len
  | .refused x => s.refusedFault e true x
  | .fresh =>
    if sramSize < a + n then s.accessFault e .access f a
    else
      let s1 := s.drain e (·.inSpace .district)
      if s1.entryDue e then s1
      else
        match s1.atomicAt e a n op v with
        | .value old s2 => (s2.wr e wide d old).advance e len
        | .refused s2 => s2.accessFault e .access f a
        | .later s2 => s2

end State

end Sys2Proof.Machine
end

