-- ==== Sys2Proof/Machine/Fetch.lean ====
section
/-!
DEFINITION. The decoder's checks of the bytes at the program counter (R81–R89, R109–R111): the opcode maps of
Tables ISA-4 and ISA-5, the checks of Table ISA-13 in their order, and the meanings of ILLEGAL and FETCH_ACCESS.
-/

namespace Sys2Proof.Machine

/-- A nibble of an operand byte. -/
inductive Nib where
  | o1hi | o1lo | o2hi | o2lo
  deriving DecidableEq, Repr

/-- What a row of an opcode map says of its instruction: two operand bytes or one, the bytes of displacement and
immediate, the reserved bits of each, the accepted prefixes, the pairs it names under WIDE, and its special
rules. -/
structure OpRow where
  two : Bool := false
  disp : Nat := 0
  imm : Nat := 0
  rsv1 : Nat := 0
  rsv2 : Nat := 0
  rsvImm : Nat := 0
  wide : Bool := false
  narrow : Bool := false
  ext : Bool := false
  rep : Bool := false
  repz : Bool := false
  space : Bool := false
  atomic : Bool := false
  pairs : List Nib := []
  strRegs : List Nib := []
  string : Bool := false
  ds : Bool := false
  rndop : Bool := false
  special : Nat := 0
  deriving DecidableEq, Repr

/-- Bytes after the prefixes and the escape: the opcode, the operand bytes, displacement and immediate
(Table ISA-3). -/
def OpRow.bytes (r : OpRow) : Nat := 2 + bit r.two + r.disp + r.imm

/-- Class OP2 with gb in O2 under WIDE. -/
def rowOp2 (pairs : List Nib) : OpRow := { two := true, rsv2 := 0x0F, wide := true, pairs := pairs }

/-- Class OP1 with gd and ga. -/
def rowOp1 : OpRow := { wide := true, pairs := [.o1hi, .o1lo] }

/-- An immediate form with gd and ga. -/
def rowImm (n : Nat) (ext : Bool) : OpRow := { imm := n, wide := true, ext := ext, pairs := [.o1hi, .o1lo] }

/-- MEM0, MEM8, MEM16 or MEM32, by the opcode's low two bits. -/
def memDisp (op : Nat) : Nat := if op % 4 = 3 then 4 else op % 4

/-- Class BR16 or BR32, by the opcode's lowest bit. -/
def rowBranch (op rsv : Nat) : OpRow := { disp := if op % 2 = 0 then 2 else 4, rsv1 := rsv }

/-- A string instruction. -/
def rowStr (rsv : Nat) (regs : List Nib) (ds repz : Bool) : OpRow :=
  { rsv1 := rsv, narrow := true, rep := true, repz := repz, space := true, strRegs := regs, string := true, ds := ds }

/-- Table ISA-4: the primary opcodes. -/
def primary (op : Nat) : Option OpRow :=
  if op = 0x01 then some { rsv1 := 0xFF }
  else if op = 0x02 then some rowOp1
  else if op = 0x03 then some { imm := 1, rsv1 := 0x0F, wide := true, ext := true, pairs := [.o1hi] }
  else if op = 0x04 then some { imm := 2, rsv1 := 0x0F, wide := true, ext := true, pairs := [.o1hi] }
  else if op = 0x05 then some { imm := 4, rsv1 := 0x0F, wide := true, pairs := [.o1hi] }
  else if op < 0x10 then none
  else if op ≤ 0x11 then some (rowOp2 [.o1hi, .o1lo, .o2hi])
  else if op ≤ 0x15 then some { two := true, wide := true, pairs := [.o1hi, .o1lo, .o2hi] }
  else if op ≤ 0x1D then some (rowOp2 [.o1hi, .o1lo, .o2hi])
  else if op = 0x1E then some rowOp1
  else if op = 0x1F then some { two := true, rsv2 := 0xF0, wide := true, pairs := [.o1hi, .o1lo] }
  else if op = 0x20 then some (rowImm 2 true)
  else if op = 0x21 then some (rowImm 4 false)
  else if op ≤ 0x24 then some (rowImm 2 true)
  else if op ≤ 0x29 then some (rowImm 1 false)
  else if op = 0x2A then some (rowImm 2 true)
  else if op ≤ 0x2D then some { rowImm 2 true with pairs := [.o1lo] }
  else if op = 0x2E then some (rowImm 2 true)
  else if op < 0x30 then none
  else if op ≤ 0x33 then some (rowOp2 [.o1hi, .o1lo, .o2hi])
  else if op = 0x34 then some rowOp1
  else if op ≤ 0x39 then some (rowOp2 [.o1hi, .o1lo])
  else if op < 0x40 then none
  else if op ≤ 0x45 then some (rowOp2 [.o1lo, .o2hi])
  else if op = 0x46 then some { two := true, wide := true, pairs := [.o1hi, .o2hi, .o2lo] }
  else if op < 0x50 then none
  else if op ≤ 0x51 then some { rowImm 2 false with rsvImm := 0xE000 }
  else if op ≤ 0x54 then some rowOp1
  else if op < 0x60 then none
  else if op ≤ 0x63 then some { disp := memDisp op, wide := true, narrow := true, space := true, pairs := [.o1hi] }
  else if op ≤ 0x67 then some { disp := memDisp op, narrow := true, space := true }
  else if op ≤ 0x6B then some { disp := memDisp op, wide := true, narrow := true, space := true, pairs := [.o1hi] }
  else if op = 0x6C then some { disp := 4, imm := 4, rsv1 := 0xF0, wide := true, narrow := true, space := true }
  else if op = 0x6D then some { disp := 4 }
  else if op < 0x70 then none
  else if op ≤ 0x71 then some (rowBranch op 0xFF)
  else if op ≤ 0x75 then some (rowBranch op 0xF0)
  else if op ≤ 0x77 then some (rowBranch op 0xFF)
  else if op ≤ 0x79 then some { rsv1 := 0xF0 }
  else if op = 0x7A then some { rsv1 := 0xFF }
  else if op < 0x80 then none
  else if op = 0x80 then some (rowStr 0xFC [] true false)
  else if op = 0x81 then some (rowStr 0xF0 [.o1lo] false false)
  else if op = 0x82 then some (rowStr 0 [.o1hi, .o1lo] false true)
  else if op = 0x83 then some (rowStr 0x0C [.o1hi] true true)
  else if op = 0x84 then some { rowStr 0x0F [.o1hi] false false with imm := 1, rsvImm := 0xFC }
  else if op < 0x90 then none
  else if op = 0x90 then some { rsv1 := 0x0F, wide := true, pairs := [.o1hi] }
  else if op = 0x91 then some { two := true, rsv2 := 0x0F }
  else if op = 0x92 then some {}
  else if op = 0x93 then some { imm := 1, rsv1 := 0x0F, rsvImm := 0xC0 }
  else if op = 0x94 then some { imm := 1, rsv1 := 0xF0, rsvImm := 0xC0 }
  else if op = 0x95 then some { imm := 2, rsv1 := 0xF0, rsvImm := 0xF8C0, rndop := true }
  else if op < 0xA0 then none
  else if op = 0xA0 ∨ op = 0xA2 then some { rsv1 := 0xFF }
  else if op = 0xA1 ∨ op = 0xA3 then some { imm := 1, rsv1 := 0xF0, rsvImm := 0xE0 }
  else none

/-- Table ISA-5: the secondary opcodes. -/
def secondary (op : Nat) : Option OpRow :=
  if op = 0 then none
  else if op ≤ 6 then
    some { two := true, rsv2 := 0x0F, wide := true, space := true, atomic := true, pairs := [.o1hi, .o2hi] }
  else if op = 7 then
    some { two := true, disp := 4, imm := 4, rsv2 := 0x0F, wide := true, space := true, atomic := true
           pairs := [.o1hi, .o2hi] }
  else if op = 0x10 then some { special := 1 }
  else if op = 0x11 then some { special := 2 }
  else if op = 0x12 then some { rsv1 := 0xFF }
  else if op = 0x13 then some { imm := 1, rsv1 := 0xFF }
  else if op = 0x14 ∨ op = 0x15 then some {}
  else none

/-- A prefix byte. -/
def isPrefix (b : Nat) : Bool := decide (0xE0 ≤ b ∧ b ≤ 0xEF)

/-- Class of a prefix (Table ISA-2): size, repeat, lock, space, immediate; 0 for a reserved byte. -/
def prefixClass (b : Nat) : Nat :=
  if b ≤ 0xE2 then 1
  else if b = 0xE4 ∨ b = 0xE5 then 2
  else if b = 0xE6 then 3
  else if 0xE8 ≤ b ∧ b ≤ 0xEB then 4
  else if b = 0xEC then 5
  else 0

/-- What the decoder makes of the bytes at the program counter. -/
inductive Decoded where
  | illegal (reason byte : Nat)
  | outside
  | valid (len : Nat)
  deriving DecidableEq, Repr

/-- The prefixes of an instruction, or the failure of one: the byte at `k`, with `k` prefixes before it. A byte
outside instruction SRAM is none. -/
def prefixes (fetch : Nat → Option Nat) : Nat → Nat → List Nat → Except Decoded (List Nat)
  | 0, _, seen => .ok seen
  | fuel + 1, k, seen =>
    match fetch k with
    | none => .error .outside
    | some b =>
      if !isPrefix b then .ok seen
      else if prefixClass b = 0 then .error (.illegal 0x1 k)
      else if seen.any fun p => prefixClass p == prefixClass b then .error (.illegal 0x2 k)
      else if k = 4 then .error (.illegal 0x3 k)
      else prefixes fetch fuel (k + 1) (seen ++ [b])

/-- Value of a nibble. -/
def Nib.of (o1 o2 : Nat) : Nib → Nat
  | .o1hi => o1 / 16 | .o1lo => o1 % 16 | .o2hi => o2 / 16 | .o2lo => o2 % 16

/-- A nibble stands in O2. -/
def Nib.second : Nib → Bool
  | .o2hi => true | .o2lo => true | _ => false

/-- The lowest-addressed operand byte of two that fails; `at'` is the index of O1. -/
def failByte (at' : Nat) (b1 b2 : Bool) : Option Nat :=
  if b1 then some at' else if b2 then some (at' + 1) else none

/-- Check OPERAND_RSV. -/
def operandRsv (r : OpRow) (at' o1 o2 : Nat) : Option Nat :=
  let str := r.strRegs.any fun n => decide (10 ≤ n.of o1 o2 ∧ n.of o1 o2 ≤ 12)
  let sn := (r.special == 1 && decide (5 < o1 % 16)) ||
    (r.special == 2 && (decide (o1 / 16 = 0) || decide (4 < o1 / 16)))
  failByte at' (o1 &&& r.rsv1 != 0 || str || sn) (o2 &&& r.rsv2 != 0)

/-- Check IMM_RSV: the immediate as a number; `at'` is the index of its first byte. -/
def immRsv (r : OpRow) (at' imm : Nat) : Option Nat :=
  failByte at' (imm &&& r.rsvImm &&& 0xFF != 0)
    (imm &&& r.rsvImm &&& 0xFF00 != 0 || (r.rndop && decide (5 ≤ imm / 256 % 8)))

/-- Checks PREFIX_NA, SPACE_NA and LOCK_RULE of one prefix byte. -/
def prefixFails (r : OpRow) (b : Nat) : Option Nat :=
  if b = 0xE0 then (if r.wide then none else some 0x9)
  else if b ≤ 0xE2 then (if r.narrow then none else some 0x9)
  else if b = 0xE4 then (if r.rep then none else some 0x9)
  else if b = 0xE5 then (if r.repz then none else some 0x9)
  else if b = 0xE6 then (if r.atomic then none else some 0xC)
  else if b = 0xEC then (if r.ext then none else some 0x9)
  else if !r.space ∨ (r.string ∧ b = 0xEA) ∨ (r.atomic ∧ b ≠ 0xE9) then some 0xA
  else none

/-- The first prefix that fails one of the checks 0x9, 0xA and 0xC. -/
def firstPrefix (r : OpRow) : List Nat → Nat → Option (Nat × Nat)
  | [], _ => none
  | b :: rest, k =>
    match prefixFails r b with
    | some x => some (x, k)
    | none => firstPrefix r rest (k + 1)

/-- The applicability checks in their order; `o` is the index of O1. -/
def applicability (r : OpRow) (ps : List Nat) (o o1 : Nat) : Option (Nat × Nat) :=
  match firstPrefix r ps 0 with
  | some x => some x
  | none =>
    if r.atomic ∧ !ps.contains 0xE9 then some (0xA, o - 1)
    else if r.atomic ∧ !ps.contains 0xE6 then some (0xC, o - 1)
    else if r.ds ∧ o1 % 4 = 2 then some (0xA, o)
    else none

/-- Check PAIR. -/
def pairCheck (r : OpRow) (ps : List Nat) (at' o1 o2 : Nat) : Option Nat :=
  if ps.contains 0xE0 then
    failByte at' (r.pairs.any fun n => !n.second && n.of o1 o2 % 2 == 1)
      (r.pairs.any fun n => n.second && n.of o1 o2 % 2 == 1)
  else none

/-- The immediate's bytes from index `k` on, as a number; none when one lies outside instruction SRAM. -/
def fetchLE (fetch : Nat → Option Nat) (k : Nat) : Nat → Option Nat
  | 0 => some 0
  | n + 1 =>
    match fetch k, fetchLE fetch (k + 1) n with
    | some b, some v => some (b + 256 * v)
    | _, _ => none

/-- The checks from the operand bytes on; `o` is the index of O1. -/
def checkOperands (fetch : Nat → Option Nat) (r : OpRow) (ps : List Nat) (o : Nat) : Decoded :=
  let len := o - 1 + r.bytes
  if 15 < len then .illegal 0x6 15
  else
    match fetch o, (if r.two then fetch (o + 1) else some 0) with
    | some o1, some o2 =>
      match operandRsv r o o1 o2 with
      | some b => .illegal 0x7 b
      | none =>
        let at' := o + 1 + bit r.two + r.disp
        match (if r.rsvImm = 0 then some 0 else fetchLE fetch at' r.imm) with
        | none => .outside
        | some imm =>
          match immRsv r at' imm with
          | some b => .illegal 0x8 b
          | none =>
            match applicability r ps o o1 with
            | some (x, b) => .illegal x b
            | none =>
              match pairCheck r ps o o1 o2 with
              | some b => .illegal 0xB b
              | none => if (fetch (len - 1)).isSome then .valid len else .outside
    | _, _ => .outside

/-- The checks of Table ISA-13 over the bytes from the program counter on. -/
def decodeBytes (fetch : Nat → Option Nat) : Decoded :=
  match prefixes fetch 5 0 [] with
  | .error x => x
  | .ok ps =>
    let k := ps.length
    match fetch k with
    | none => .outside
    | some 0xFF =>
      match fetch (k + 1) with
      | none => .outside
      | some op =>
        match secondary op with
        | none => .illegal 0x5 (k + 1)
        | some r => checkOperands fetch r ps (k + 2)
    | some op =>
      match primary op with
      | none => .illegal 0x4 k
      | some r => checkOperands fetch r ps (k + 1)

namespace State

/-- Byte `k` from the program counter on, in instruction SRAM (R111). -/
def fetchByte (s : State) (e k : Nat) : Option Nat :=
  if (s.pc e).toNat + k < 0x10000 then some ((s.eng e).instr.read ((s.pc e).toNat + k)).toNat else none

/-- What stands at the program counter. -/
def decoded (s : State) (e : Nat) : Decoded := decodeBytes (s.fetchByte e)

end State

/-- ILLEGAL: the encoding at the program counter breaks a rule (R108–R110). -/
def execIllegal (e : Nat) (s : State) : Answer :=
  .next (if s.ready e then
    match s.decoded e with
    | .illegal reason byte => s.illegal e reason byte
    | _ => s
  else s)

/-- FETCH_ACCESS: the instruction at the program counter needs a byte at or above 0x1_0000 (R111, R113). -/
def execFetchAccess (e : Nat) (s : State) : Answer :=
  .next (if s.ready e then
    match s.decoded e with
    | .outside => s.fetchFault e
    | _ => s
  else s)

end Sys2Proof.Machine
end

