-- ==== Sys2Proof/Machine/Opcodes.lean ====
section
/-!
DEFINITION. The instruction that the bytes at the program counter spell (R81–R89, Tables ISA-4 and ISA-5), and what
an event that arrives during it finds (Table ISA-12, R123, R126).
-/

namespace Sys2Proof.Machine

/-- The parts of an encoding (R81): displacement and immediate as the numbers their bytes spell. -/
structure Parts where
  prefixes : List Nat
  escape : Bool
  op : Nat
  o1 : Nat
  o2 : Nat
  disp : Nat
  imm : Nat
  deriving DecidableEq, Repr

namespace Parts

/-- The prefix is present. -/
def has (p : Parts) (b : Nat) : Bool := p.prefixes.contains b

/-- WIDE. -/
def wide (p : Parts) : Bool := p.has 0xE0

/-- EXT. -/
def ext (p : Parts) : Bool := p.has 0xEC

/-- The size prefix (Table ISA-2). -/
def size (p : Parts) : Size :=
  if p.has 0xE0 then .wide else if p.has 0xE1 then .half else if p.has 0xE2 then .byte else .word

/-- The repeat prefix. -/
def rep (p : Parts) : Rep := if p.has 0xE4 then .rep else if p.has 0xE5 then .repz else .once

/-- The space prefix. -/
def space (p : Parts) : Option Space :=
  if p.has 0xE8 then some .engineLocal
  else if p.has 0xE9 then some .district
  else if p.has 0xEA then some .image
  else if p.has 0xEB then some .port
  else none

/-- A nibble as a register number. -/
def reg (p : Parts) (n : Nib) : GReg := ⟨n.of p.o1 p.o2 % 16, Nat.mod_lt _ (by decide)⟩

/-- Nibble O1[7:4]. -/
def x (p : Parts) : GReg := p.reg .o1hi

/-- Nibble O1[3:0]. -/
def y (p : Parts) : GReg := p.reg .o1lo

/-- Nibble O2[7:4]. -/
def z (p : Parts) : GReg := p.reg .o2hi

/-- Nibble O2[3:0]. -/
def w (p : Parts) : GReg := p.reg .o2lo

/-- Destination space of a string instruction, O1[1:0] (R83). -/
def ds (p : Parts) : Space :=
  if p.o1 % 4 = 0 then .engineLocal else if p.o1 % 4 = 1 then .district else if p.o1 % 4 = 2 then .image else .port

/-- The immediate as 8, 16 or 32 bits. -/
def i8 (p : Parts) : BitVec 8 := BitVec.ofNat 8 p.imm
def i16 (p : Parts) : BitVec 16 := BitVec.ofNat 16 p.imm
def i32 (p : Parts) : BitVec 32 := BitVec.ofNat 32 p.imm

/-- The displacement as 16 or 32 bits. -/
def d16 (p : Parts) : BitVec 16 := BitVec.ofNat 16 p.disp
def d32 (p : Parts) : BitVec 32 := BitVec.ofNat 32 p.disp

/-- The displacement of MEM0, MEM8, MEM16 or MEM32, by the opcode's low two bits. -/
def mem (p : Parts) : Disp :=
  if p.op % 4 = 0 then .d0
  else if p.op % 4 = 1 then .d8 (BitVec.ofNat 8 p.disp)
  else if p.op % 4 = 2 then .d16 p.d16
  else .d32 p.d32

/-- The displacement of BR16 or BR32, by the opcode's lowest bit. -/
def branch (p : Parts) : Disp := if p.op % 2 = 0 then .d16 p.d16 else .d32 p.d32

/-- Table ISA-4: the instruction of a primary opcode. -/
def primary (e : Nat) (p : Parts) : Nat → Option Instr
  | 0x01 => some (.nop e)
  | 0x02 => some (.mov e p.wide p.x p.y)
  | 0x03 => some (.movi e p.wide p.x (.i8 p.i8 p.ext))
  | 0x04 => some (.movi e p.wide p.x (.i16 p.i16 p.ext))
  | 0x05 => some (.movi e p.wide p.x (.i32 p.i32))
  | 0x10 => some (.add e p.wide p.x p.y p.z)
  | 0x11 => some (.sub e p.wide p.x p.y p.z)
  | 0x12 => some (.addc e p.wide p.x p.w p.y p.z)
  | 0x13 => some (.subb e p.wide p.x p.w p.y p.z)
  | 0x14 => some (.addv e p.wide p.x p.w p.y p.z)
  | 0x15 => some (.subv e p.wide p.x p.w p.y p.z)
  | 0x16 => some (.mul e p.wide p.x p.y p.z)
  | 0x17 => some (.mulh e p.wide p.x p.y p.z)
  | 0x18 => some (.mulhu e p.wide p.x p.y p.z)
  | 0x19 => some (.div e p.wide p.x p.y p.z)
  | 0x1A => some (.divu e p.wide p.x p.y p.z)
  | 0x1B => some (.rem e p.wide p.x p.y p.z)
  | 0x1C => some (.remu e p.wide p.x p.y p.z)
  | 0x1D => some (.satadd e p.wide p.x p.y p.z)
  | 0x1E => some (.neg e p.wide p.x p.y)
  | 0x1F => some (.negv e p.wide p.x p.w p.y)
  | 0x20 => some (.addi e p.wide p.x p.y (.i16 p.i16 p.ext))
  | 0x21 => some (.addi e p.wide p.x p.y (.i32 p.i32))
  | 0x22 => some (.andi e p.wide p.x p.y p.i16 p.ext)
  | 0x23 => some (.ori e p.wide p.x p.y p.i16 p.ext)
  | 0x24 => some (.xori e p.wide p.x p.y p.i16 p.ext)
  | 0x25 => some (.shli e p.wide p.x p.y p.i8)
  | 0x26 => some (.shri e p.wide p.x p.y p.i8)
  | 0x27 => some (.sari e p.wide p.x p.y p.i8)
  | 0x28 => some (.roli e p.wide p.x p.y p.i8)
  | 0x29 => some (.roti e p.wide p.x p.y p.i8)
  | 0x2A => some (.muli e p.wide p.x p.y p.i16 p.ext)
  | 0x2B => some (.ceqi e p.wide p.x p.y p.i16 p.ext)
  | 0x2C => some (.clti e p.wide p.x p.y p.i16 p.ext)
  | 0x2D => some (.cltui e p.wide p.x p.y p.i16 p.ext)
  | 0x2E => some (.sataddi e p.wide p.x p.y p.i16 p.ext)
  | 0x30 => some (.and e p.wide p.x p.y p.z)
  | 0x31 => some (.or e p.wide p.x p.y p.z)
  | 0x32 => some (.xor e p.wide p.x p.y p.z)
  | 0x33 => some (.andn e p.wide p.x p.y p.z)
  | 0x34 => some (.not e p.wide p.x p.y)
  | 0x35 => some (.shl e p.wide p.x p.y p.z)
  | 0x36 => some (.shr e p.wide p.x p.y p.z)
  | 0x37 => some (.sar e p.wide p.x p.y p.z)
  | 0x38 => some (.rol e p.wide p.x p.y p.z)
  | 0x39 => some (.rot e p.wide p.x p.y p.z)
  | 0x40 => some (.ceq e p.wide p.x p.y p.z)
  | 0x41 => some (.cne e p.wide p.x p.y p.z)
  | 0x42 => some (.clt e p.wide p.x p.y p.z)
  | 0x43 => some (.cltu e p.wide p.x p.y p.z)
  | 0x44 => some (.cge e p.wide p.x p.y p.z)
  | 0x45 => some (.cgeu e p.wide p.x p.y p.z)
  | 0x46 => some (.sel e p.wide p.x p.y p.z p.w)
  | 0x50 => some (.bfx e p.wide p.x p.y p.i16)
  | 0x51 => some (.bfi e p.wide p.x p.y p.i16)
  | 0x52 => some (.clz e p.wide p.x p.y)
  | 0x53 => some (.popc e p.wide p.x p.y)
  | 0x54 => some (.bswap e p.wide p.x p.y)
  | 0x60 => some (.ld e p.size p.space p.x p.y p.mem)
  | 0x61 => some (.ld e p.size p.space p.x p.y p.mem)
  | 0x62 => some (.ld e p.size p.space p.x p.y p.mem)
  | 0x63 => some (.ld e p.size p.space p.x p.y p.mem)
  | 0x64 => some (.lds e p.size p.space p.x p.y p.mem)
  | 0x65 => some (.lds e p.size p.space p.x p.y p.mem)
  | 0x66 => some (.lds e p.size p.space p.x p.y p.mem)
  | 0x67 => some (.lds e p.size p.space p.x p.y p.mem)
  | 0x68 => some (.st e p.size p.space p.x p.y p.mem)
  | 0x69 => some (.st e p.size p.space p.x p.y p.mem)
  | 0x6A => some (.st e p.size p.space p.x p.y p.mem)
  | 0x6B => some (.st e p.size p.space p.x p.y p.mem)
  | 0x6C => some (.sti e p.size p.space p.y p.d32 p.i32)
  | 0x6D => some (.lea e p.x p.y p.d32)
  | 0x70 => some (.b e p.branch)
  | 0x71 => some (.b e p.branch)
  | 0x72 => some (.bz e p.y p.branch)
  | 0x73 => some (.bz e p.y p.branch)
  | 0x74 => some (.bnz e p.y p.branch)
  | 0x75 => some (.bnz e p.y p.branch)
  | 0x76 => some (.call e p.branch)
  | 0x77 => some (.call e p.branch)
  | 0x78 => some (.br e p.y)
  | 0x79 => some (.callr e p.y)
  | 0x7A => some (.ret e)
  | 0x80 => some (.movs e p.size p.rep p.space p.ds)
  | 0x81 => some (.fill e p.size p.rep p.space p.y)
  | 0x82 => some (.scan e p.size p.rep p.space p.x p.y)
  | 0x83 => some (.cmps e p.size p.rep p.space p.x p.ds)
  | 0x84 => some (.crcs e p.size p.rep p.space p.x p.i8)
  | 0x90 => some (.stmp e p.wide p.x)
  | 0x91 => some (.tsqp e p.x p.y p.z)
  | 0x92 => some (.srup e p.x p.y)
  | 0x93 => some (.rndrd e p.x p.i8)
  | 0x94 => some (.rndwr e p.y p.i8)
  | 0x95 => some (.rndop e p.y p.i16)
  | 0xA0 => some (.wait e)
  | 0xA1 => some (.evt e p.y p.i8)
  | 0xA2 => some (.fence e)
  | 0xA3 => some (.dbell e p.y p.i8)
  | _ => none

/-- Table ISA-5: the instruction of a secondary opcode. -/
def secondary (e : Nat) (p : Parts) : Nat → Option Instr
  | 0x01 => some (.swp e p.wide p.x p.z p.y)
  | 0x02 => some (.cas e p.wide p.x p.z p.y)
  | 0x03 => some (.fadd e p.wide p.x p.z p.y)
  | 0x04 => some (.fand e p.wide p.x p.z p.y)
  | 0x05 => some (.fetchOr e p.wide p.x p.z p.y)
  | 0x06 => some (.fxor e p.wide p.x p.z p.y)
  | 0x07 => some (.casx e p.wide p.x p.z p.y p.d32 p.i32)
  | 0x10 => some (.mfs e p.x p.y)
  | 0x11 => some (.mts e p.x p.y)
  | 0x12 => some (.rete e)
  | 0x13 => some (.trap e p.i8)
  | 0x14 => some (.lease e p.x p.y)
  | 0x15 => some (.release e p.x p.y)
  | _ => none

/-- The instruction of an encoding, issued by engine `e`. -/
def instr (e : Nat) (p : Parts) : Option Instr := if p.escape then p.secondary e p.op else p.primary e p.op

end Parts

/-- The bytes from index `k` on as one little-endian number. -/
def bytesLE (byte : Nat → Nat) (k : Nat) : Nat → Nat
  | 0 => 0
  | n + 1 => byte k + 256 * bytesLE byte (k + 1) n

/-- The parts that follow the opcode, at index `k`: O1, O2, the displacement and the immediate. -/
def partsAfter (byte : Nat → Nat) (ps : List Nat) (escape : Bool) (k : Nat) (r : OpRow) : Parts :=
  let d := k + 2 + bit r.two
  { prefixes := ps, escape := escape, op := byte k, o1 := byte (k + 1), o2 := if r.two then byte (k + 2) else 0
    disp := bytesLE byte d r.disp, imm := bytesLE byte (d + r.disp) r.imm }

/-- The parts of the encoding whose bytes `fetch` gives; none where its prefixes or its opcode are undefined. -/
def partsOf (fetch : Nat → Option Nat) : Option Parts :=
  let byte k := (fetch k).getD 0
  match prefixes fetch 5 0 [] with
  | .error _ => none
  | .ok ps =>
    let k := ps.length
    if byte k = 0xFF then (secondary (byte (k + 1))).map (partsAfter byte ps true (k + 1))
    else (primary (byte k)).map (partsAfter byte ps false k)

/-- The instruction that the bytes spell, where they break no rule of the encoding (R108). -/
def instrOf (e : Nat) (fetch : Nat → Option Nat) : Option Instr :=
  match decodeBytes fetch with
  | .valid _ => (partsOf fetch).bind (Parts.instr e)
  | _ => none

namespace State

/-- The instruction at the program counter. -/
def instrAt (s : State) (e : Nat) : Option Instr := instrOf e (s.fetchByte e)

/-- The reads and requests that an instruction sends out of its engine, in their order (R124). -/
def accessesOf (s : State) (e : Nat) : Instr → List Access
  | .ld _ size sp _ b disp => outside (spaceOf sp) (effAddr (s.greg e b) (dispValue disp)) (sizeBytes size)
  | .lds _ size sp _ b disp => outside (spaceOf sp) (effAddr (s.greg e b) (dispValue disp)) (sizeBytes size)
  | .movs _ size _ sp _ => outside (spaceOf sp) (s.greg e 10).toNat (sizeBytes size)
  | .scan _ size _ sp _ _ => outside (spaceOf sp) (s.greg e 10).toNat (sizeBytes size)
  | .crcs _ size _ sp _ _ => outside (spaceOf sp) (s.greg e 10).toNat (sizeBytes size)
  | .cmps _ size _ sp _ ds =>
    outside (spaceOf sp) (s.greg e 10).toNat (sizeBytes size) ++ outside ds (s.greg e 11).toNat (sizeBytes size)
  | .swp _ w _ a b => atomic w a b .swp
  | .cas _ w d a b => atomic w a b (.cas (s.rd e w d))
  | .fadd _ w _ a b => atomic w a b .fadd
  | .fand _ w _ a b => atomic w a b .fand
  | .fetchOr _ w _ a b => atomic w a b .fior
  | .fxor _ w _ a b => atomic w a b .fxor
  | .casx _ w _ a b disp imm =>
    [.atomic (effAddr (s.greg e b) disp.toInt) (opBits w / 8) (.cas (ofSigned (opBits w) imm.toInt)) (s.rd e w a)]
  | .lease _ _ a => [.lease (s.greg e a).toNat]
  | .release _ _ a => [.release (s.greg e a).toNat]
  | _ => []
where
  outside (sp : Space) (a n : Nat) : List Access := if sp = .engineLocal then [] else [.load sp a n]
  atomic (w : Bool) (a b : GReg) (op : AtomOp) : List Access :=
    [.atomic (s.greg e b).toNat (opBits w / 8) op (s.rd e w a)]

/-- A repeated string instruction with elements still to come: an entry finds it between elements (R127). -/
def yields (s : State) (e : Nat) (i : Instr) : Bool :=
  let more (r : Rep) : Bool := r != .once && s.greg e 12 != 0
  match i with
  | .movs _ _ r _ _ => more r
  | .fill _ _ r _ _ => more r
  | .scan _ _ r _ _ _ => more r
  | .cmps _ _ r _ _ _ => more r
  | .crcs _ _ r _ _ _ => more r
  | _ => false

/-- A store outside LOCAL waits for room in the posted-store queue. -/
def waitsForRoom (s : State) (e : Nat) (sp : Space) : Bool :=
  sp != .engineLocal && decide (8 ≤ (s.eng e).posted.length)

/-- The last column of Table ISA-12: an event that arrives during the instruction finds it abandoned. Every other
instruction completes, and TRAP does not issue. -/
def abandons (s : State) (e : Nat) (i : Instr) : Bool :=
  !(s.accessesOf e i).isEmpty || s.yields e i ||
  match i with
  | .mul _ w _ _ _ => w
  | .muli _ w _ _ _ _ => w
  | .mulh _ _ _ _ _ => true
  | .mulhu _ _ _ _ _ => true
  | .div _ _ _ _ _ => true
  | .divu _ _ _ _ _ => true
  | .rem _ _ _ _ _ => true
  | .remu _ _ _ _ _ => true
  | .st _ _ sp _ _ _ => s.waitsForRoom e (spaceOf sp)
  | .sti _ _ sp _ _ _ => s.waitsForRoom e (spaceOf sp)
  | .fill _ _ _ sp _ => s.waitsForRoom e (spaceOf sp)
  | .movs _ _ _ _ ds => s.waitsForRoom e ds
  | .fence _ => !(s.eng e).posted.isEmpty
  | _ => false

end State

end Sys2Proof.Machine
end

