-- ==== Sys2Proof/Machine/EngineExec.lean ====
section
/-!
DEFINITION. Meanings of the instructions that reach memory, the district and the machine: loads and stores (R93),
strings (R96–R98), time, Round and reduction (R100), the system instructions (R101), the atomic group (R94) and
the special registers, and of what happens to an engine from outside (R120–R149, R535).
-/

namespace Sys2Proof.Machine

/-- Prefix bytes of a memory operand: size and space. -/
def memPrefix (size : Size) (sp : Option Space) : Nat := sizePrefix size + spacePrefix sp

/-! ### Loads and stores (R93) -/

/-- LD. -/
def execLd (e : Nat) (size : Size) (sp : Option Space) (d b : GReg) (disp : Disp) (s : State) : Answer :=
  .next (s.issue e
    (pairForm (size == .wide) (memPrefix size sp + 2) (memPrefix size sp + dispLen disp) [(d, memPrefix size sp + 1)]) fun s =>
    s.loadInstr e
      { space := spaceOf sp, d := d, wide := size == .wide, signed := false
        addr := effAddr (s.greg e b) (dispValue disp), bytes := sizeBytes size
        len := memPrefix size sp + dispLen disp } (b == 15))

/-- LDS: WIDE is not accepted. -/
def execLds (e : Nat) (size : Size) (sp : Option Space) (d b : GReg) (disp : Disp) (s : State) : Answer :=
  .next (s.issue e
    { len := memPrefix size sp + dispLen disp
      bad := if size = .wide then some { reason := 0x9, byte := 0, need := memPrefix size sp + 2 } else none } fun s =>
    s.loadInstr e
      { space := spaceOf sp, d := d, wide := false, signed := true
        addr := effAddr (s.greg e b) (dispValue disp), bytes := sizeBytes size
        len := memPrefix size sp + dispLen disp } (b == 15))

/-- ST. -/
def execSt (e : Nat) (size : Size) (sp : Option Space) (g b : GReg) (disp : Disp) (s : State) : Answer :=
  .next (s.issue e
    (pairForm (size == .wide) (memPrefix size sp + 2) (memPrefix size sp + dispLen disp) [(g, memPrefix size sp + 1)]) fun s =>
    s.storeInstr e (spaceOf sp) (effAddr (s.greg e b) (dispValue disp)) (sizeBytes size)
      (s.rd e (size == .wide) g) (b == 15) (memPrefix size sp + dispLen disp))

/-- STI: the immediate is sign-extended to 64 bits under WIDE. -/
def execSti (e : Nat) (size : Size) (sp : Option Space) (b : GReg) (disp imm : BitVec 32) (s : State) : Answer :=
  .next (s.issue e (plainForm (memPrefix size sp + 10)) fun s =>
    s.storeInstr e (spaceOf sp) (effAddr (s.greg e b) disp.toInt) (sizeBytes size)
      (ofSigned 64 imm.toInt) (b == 15) (memPrefix size sp + 10))

/-! ### Strings (R96, R97, R131) -/

/-- A repeat prefix takes a byte. -/
def repPrefix : Rep → Nat
  | .once => 0 | _ => 1

/-- Prefix bytes of a string instruction: size, repeat, space. -/
def strPrefix (size : Size) (rep : Rep) (sp : Option Space) : Nat :=
  sizePrefix size + repPrefix rep + spacePrefix sp

/-- A register that a string instruction may not name as gd or ga (R83). -/
def stringReg (r : GReg) : Bool := decide (10 ≤ r.val ∧ r.val ≤ 12)

/-- What an element read brings: its value, or an instruction that stops there. -/
inductive Elem where
  | value (v : Nat) (s : State)
  | stop (s : State)

namespace State

/-- A string instruction issues: it is judged as Table ISA-13 says, and one that repeats and finds g12 = 0 ends. -/
def stringIssue (s : State) (e : Nat) (size : Size) (sp : Option Space) (rep : Rep) (repz : Bool) (regs : List GReg)
    (ds : Option Space) (badImm : Bool) (len : Nat) (body : State → State) : State :=
  let p := strPrefix size rep sp
  let bad : Option Bad := firstBad
    [(regs.any stringReg, { reason := 0x7, byte := p + 1, need := p + 2 }),
     (badImm, { reason := 0x8, byte := p + 2, need := len }),
     (size == .wide, { reason := 0x9, byte := 0, need := len }),
     (rep == .repz && !repz, { reason := 0x9, byte := sizePrefix size, need := len }),
     (sp == some .image, { reason := 0xA, byte := sizePrefix size + repPrefix rep, need := len }),
     (ds == some .image, { reason := 0xA, byte := p + 1, need := len })]
  s.issue e { len := len, bad := bad } fun s =>
    if rep ≠ .once ∧ s.greg e 12 = 0 then s.advance e len else body s

/-- An element has been done: the instruction ends, or stands before its next element. -/
def endElement (s : State) (e : Nat) (rep : Rep) (unequal : Bool) (len : Nat) : State :=
  if rep = .repz ∧ unequal then s.advance e len
  else if rep ≠ .once ∧ s.greg e 12 ≠ 0 then
    s.setEng e { s.eng e with returned := none, midRep := true }
  else s.advance e len

/-- A register stepped by an element. -/
def stepReg (s : State) (e : Nat) (r : GReg) (by' : Nat) : State := s.setGreg e r (s.greg e r + BitVec.ofNat 32 by')

/-- The count falls by one, wrapping. -/
def stepCount (s : State) (e : Nat) : State := s.setGreg e 12 (s.greg e 12 - 1)

/-- The exception of an element's access; `dest` when it is the destination's. -/
def elemFault (s : State) (e : Nat) (sp : Space) (a n : Nat) (dest : Bool) (x : Exc) : State :=
  s.accessFault e x { space := sp, write := dest, noMem := false, fetch := false, posted := false, bytes := n } a

/-- The check of an element's read, which one that is held has passed. -/
def checkElem (s : State) (e : Nat) (sp : Space) (a n k : Nat) : Option Exc :=
  if sp = .engineLocal then s.check e sp a n false false
  else match s.takeHeld e k isLoad with
    | .fresh => s.check e sp a n false false
    | _ => none

/-- An element's read that has passed its check: from the held result, or behind the earlier stores to its space. -/
def readElem (s : State) (e : Nat) (sp : Space) (a n k : Nat) (dest : Bool) : Elem :=
  if sp = .engineLocal then .value (s.localRead e a n) s
  else
    match s.takeHeld e k isLoad with
    | .waiting => .stop s
    | .got v => .value v s
    | .refused x => .stop (s.refusedFault e dest x)
    | .fresh =>
      let s1 := s.drain e (·.inSpace sp)
      if s1.entryDue e then .stop s1
      else
        match s1.loadAt e sp a n with
        | .value v s2 => .value v s2
        | .refused s2 => .stop (s2.elemFault e sp a n dest .access)
        | .later s2 => .stop s2

/-- The source read of an element, and what follows. -/
def withSource (s0 : State) (e : Nat) (sp : Space) (n : Nat) (f : Nat → State → State) : State :=
  let a := (s0.greg e 10).toNat
  let s := s0.settle e sp a
  if s.entryDue e then s
  else
    match s.checkElem e sp a n 0 with
    | some x => s.elemFault e sp a n false x
    | none =>
      match s.readElem e sp a n 0 false with
      | .stop s1 => s1
      | .value v s1 => f v s1

/-- One element of MOVS. -/
def movsElement (s0 : State) (e : Nat) (sp ds : Space) (n : Nat) (rep : Rep) (len : Nat) : State :=
  let a := (s0.greg e 10).toNat
  let b := (s0.greg e 11).toNat
  let s := (s0.settle e sp a).settle e ds b
  if s.entryDue e then s
  else
    match s.checkElem e sp a n 0 with
    | some x => s.elemFault e sp a n false x
    | none =>
      match s.checkStore e ds b n 0 false with
      | some x => (s.markForeign e b n ds).elemFault e ds b n true x
      | none =>
        let s1 := if ds = .engineLocal then s else s.makeRoom e
        if s1.entryDue e then s1
        else
          match s1.readElem e sp a n 0 false with
          | .stop s2 => s2
          | .value v s2 =>
            match s2.checkStore e ds b n v false with
            | some x => s2.elemFault e ds b n true x
            | none =>
              ((((s2.putStore e ds b n v).stepReg e 10 n).stepReg e 11 n).stepCount e).endElement e rep false len

/-- One element of FILL. -/
def fillElement (s0 : State) (e : Nat) (sp : Space) (n : Nat) (a : GReg) (rep : Rep) (len : Nat) : State :=
  let b := (s0.greg e 11).toNat
  let v := (s0.greg e a).toNat
  let s := s0.settle e sp b
  if s.entryDue e then s
  else
    match s.checkStore e sp b n v false with
    | some x => (s.markForeign e b n sp).elemFault e sp b n true x
    | none =>
      let s1 := if sp = .engineLocal then s else s.makeRoom e
      if s1.entryDue e then s1
      else (((s1.putStore e sp b n v).stepReg e 11 n).stepCount e).endElement e rep false len

/-- A compare's result is written to gd, and the element ends. -/
def endCompare (s : State) (e : Nat) (d : GReg) (equal : Bool) (rep : Rep) (len : Nat) : State :=
  let s := (s.setGreg e d (BitVec.ofNat 32 (bit equal))).stepCount e
  s.endElement e rep (s.greg e d == 0) len

/-- One element of SCAN. -/
def scanElement (s : State) (e : Nat) (sp : Space) (n : Nat) (d a : GReg) (rep : Rep) (len : Nat) : State :=
  let w := (s.greg e a).toNat % 256 ^ n
  s.withSource e sp n fun v s => (s.stepReg e 10 n).endCompare e d (v == w) rep len

/-- One element of CMPS: both reads are checked before either is made. -/
def cmpsElement (s0 : State) (e : Nat) (sp ds : Space) (n : Nat) (d : GReg) (rep : Rep) (len : Nat) : State :=
  let a := (s0.greg e 10).toNat
  let b := (s0.greg e 11).toNat
  let k := bit (sp != .engineLocal)
  let s := (s0.settle e sp a).settle e ds b
  if s.entryDue e then s
  else
    match s.checkElem e sp a n 0 with
    | some x => s.elemFault e sp a n false x
    | none =>
      match s.checkElem e ds b n k with
      | some x => s.elemFault e ds b n true x
      | none =>
        match s.readElem e sp a n 0 false with
        | .stop s1 => s1
        | .value v s1 =>
          match s1.readElem e ds b n k true with
          | .stop s2 => s2
          | .value w s2 => ((s2.stepReg e 10 n).stepReg e 11 n).endCompare e d (v == w) rep len

/-- One element of CRCS with entry `t` of the table. -/
def crcsElement (s : State) (e : Nat) (sp : Space) (n : Nat) (d : GReg) (t : Nat) (rep : Rep) (len : Nat) : State :=
  s.withSource e sp n fun v s =>
    let c := (natBytes n v).foldl (fun c b => s.crcByte e t c b) (s.greg e d).toNat
    (((s.setGreg e d (BitVec.ofNat 32 c)).stepReg e 10 n).stepCount e).endElement e rep false len

end State

/-- MOVS. -/
def execMovs (e : Nat) (size : Size) (rep : Rep) (sp : Option Space) (ds : Space) (s : State) : Answer :=
  .next (s.stringIssue e size sp rep false [] (some ds) false (strPrefix size rep sp + 2) fun s =>
    s.movsElement e (spaceOf sp) ds (sizeBytes size) rep (strPrefix size rep sp + 2))

/-- FILL. -/
def execFill (e : Nat) (size : Size) (rep : Rep) (sp : Option Space) (a : GReg) (s : State) : Answer :=
  .next (s.stringIssue e size sp rep false [a] none false (strPrefix size rep sp + 2) fun s =>
    s.fillElement e (spaceOf sp) (sizeBytes size) a rep (strPrefix size rep sp + 2))

/-- SCAN. -/
def execScan (e : Nat) (size : Size) (rep : Rep) (sp : Option Space) (d a : GReg) (s : State) : Answer :=
  .next (s.stringIssue e size sp rep true [d, a] none false (strPrefix size rep sp + 2) fun s =>
    s.scanElement e (spaceOf sp) (sizeBytes size) d a rep (strPrefix size rep sp + 2))

/-- CMPS. -/
def execCmps (e : Nat) (size : Size) (rep : Rep) (sp : Option Space) (d : GReg) (ds : Space) (s : State) : Answer :=
  .next (s.stringIssue e size sp rep true [d] (some ds) false (strPrefix size rep sp + 2) fun s =>
    s.cmpsElement e (spaceOf sp) ds (sizeBytes size) d rep (strPrefix size rep sp + 2))

/-- CRCS: bits 7–2 of table8 must be 0 (R98). -/
def execCrcs (e : Nat) (size : Size) (rep : Rep) (sp : Option Space) (d : GReg) (table : BitVec 8) (s : State) : Answer :=
  .next (s.stringIssue e size sp rep false [d] none (decide (4 ≤ table.toNat)) (strPrefix size rep sp + 3) fun s =>
    s.crcsElement e (spaceOf sp) (sizeBytes size) d table.toNat rep (strPrefix size rep sp + 3))

/-! ### Time, Round and reduction (R100) -/

namespace State

/-- What the district's repeater holds in the next cycle, in which STMP and TSQP take it. -/
def nextRepeater (s : State) (d : Nat) : Nat :=
  ((({ s with cycle := s.cycle + 1 } : State).timeCycle).repeater d).value

end State

/-- STMP. -/
def execStmp (e : Nat) (wide : Bool) (d : GReg) (s : State) : Answer :=
  .next (s.issue e (pairForm wide (2 + bit wide) (2 + bit wide) [(d, 1 + bit wide)]) fun s =>
    let v := s.nextRepeater (e / 12)
    (s.wr e wide d (v % qnsSecond + 2 ^ 32 * (v / qnsSecond))).advance e (2 + bit wide))

/-- TSQP (R362, R363). -/
def execTsqp (e : Nat) (d a b : GReg) (s : State) : Answer :=
  .next (s.issue e (plainForm 3) fun s =>
    let v := s.nextRepeater (e / 12)
    let q := (s.greg e a).toNat
    let sec := (v / qnsSecond + 2 ^ 32 - bit (decide (v % qnsSecond < q))) % 2 ^ 32
    let r := s.tsqPush (e / 12) 0 (fieldGet (s.greg e b) 0 8) (fieldGet (s.greg e b) 8 16) q sec false
    (r.1.setGreg e d (BitVec.ofNat 32 (if r.2 then Code.ok else Code.noResource))).advance e 3)

/-- SRUP: a record wholly in data SRAM; on a variant without reduction units it raises ABSENT. -/
def execSrup (e : Nat) (d a : GReg) (s : State) : Answer :=
  .next (s.issue e (plainForm 2) fun s =>
    let p := (s.greg e a).toNat
    if !s.variant.hasSru then s.noMemFault e .absent p
    else if 0x10000 < p + 20 then s.noMemFault e .access p
    else
      let r := s.offerSample e
        ((List.range 5).map fun i => BitVec.ofNat 32 ((s.eng e).data.readLE (p + 4 * i) 4))
      (r.2.setGreg e d (BitVec.ofNat 32 r.1)).advance e 2)

/-- Station of an engine on its district's ring (R33). -/
def station (e : Nat) : Nat := e % 12 + 1

/-- An IM8 encoding whose immediate has a reserved bit set, or not. -/
def byteForm (bad : Bool) : Form :=
  { len := 3, bad := if bad then some { reason := 0x8, byte := 2, need := 3 } else none }

/-- RNDRD: the word as this station last saw it. -/
def execRndrd (e : Nat) (d : GReg) (word : BitVec 8) (s : State) : Answer :=
  .next (s.issue e (byteForm (decide (64 ≤ word.toNat))) fun s =>
    (s.setGreg e d (Store.get (fun _ => 0) (s.dist (e / 12)).seen (station e * 64 + word.toNat))).advance e 3)

namespace State

/-- The station's word as its engine last wrote it: the pending write, else the word as it last left the station
(log entry 73). -/
def ownWord (s : State) (e : Nat) : Word :=
  let x := s.dist (e / 12)
  let key := station e * 64 + station e
  match (Store.get (fun _ => none) x.pendW key).or (Store.get (fun _ => none) x.takenW key) with
  | some v => v
  | none => (x.leaving.lookup key).getD (Store.get (fun _ => 0) x.seen key)

end State

/-- RNDWR (R161); one that changes LANTERN of the station's own word sends a pulse (R168). -/
def execRndwr (e : Nat) (a : GReg) (word : BitVec 8) (s : State) : Answer :=
  .next (s.issue e (byteForm (decide (64 ≤ word.toNat))) fun s =>
    let w := word.toNat
    if !s.mayWriteWord (e / 12) (station e) w then s.noMemFault e .access w
    else
      let v := s.greg e a
      let s1 := s.pendWrite (e / 12) (station e) w v
      (if w = station e ∧ fieldGet v 0 8 ≠ fieldGet (s.ownWord e) 0 8 then s1.lanternPulse e else s1).advance e 3)

/-- OP of RNDOP; 5–7 are reserved. -/
def rndOp : Nat → Option RndOp
  | 0 => some .or | 1 => some .xor | 2 => some .add | 3 => some .min | 4 => some .max | _ => none

/-- RNDOP (R161): field16 holds the word in bits 5–0 and OP in bits 10–8. -/
def execRndop (e : Nat) (a : GReg) (field : BitVec 16) (s : State) : Answer :=
  let f := field.toNat
  let op := rndOp (f / 256)
  let bad : Option Bad :=
    if f / 64 % 4 ≠ 0 then some { reason := 0x8, byte := 2, need := 4 }
    else if op.isNone then some { reason := 0x8, byte := 3, need := 4 }
    else none
  .next (s.issue e { len := 4, bad := bad } fun s =>
    if f % 64 < 48 then s.noMemFault e .access (f % 64)
    else (s.pendOperation (e / 12) (station e) (f % 64) (op.getD .or) (s.greg e a)).advance e 4)

/-! ### System instructions (R101) -/

/-- WAIT (R140): posted stores drain, and the clock stops unless an entry is due. -/
def execWait (e : Nat) (s : State) : Answer :=
  .next (s.issue e (plainForm 2) fun s =>
    let s1 := (s.drain e fun _ => true).advance e 2
    if s1.entryDue e then s1 else s1.setFld (Fld.CE_STAT_STATE e) 2)

/-- EVT: a line of an engine of the same district. -/
def execEvt (e : Nat) (a : GReg) (line : BitVec 8) (s : State) : Answer :=
  .next (s.issue e (byteForm (decide (32 ≤ line.toNat))) fun s =>
    let l := (s.greg e a).toNat
    if 11 < l then s.noMemFault e .access l
    else (s.advance e 3).lineArrives (e / 12 * 12 + l) line.toNat)

/-- FENCE: it completes when every posted store and DBELL of the engine has, unless a refusal of one makes an entry
due. -/
def execFence (e : Nat) (s : State) : Answer :=
  .next (s.issue e (plainForm 2) fun s =>
    let s1 := s.drain e fun _ => true
    if s1.entryDue e then s1 else s1.advance e 2)

/-- DBELL: a posted ring of a present receiver. -/
def execDbell (e : Nat) (a : GReg) (b : BitVec 8) (s : State) : Answer :=
  .next (s.issue e (byteForm (decide (32 ≤ b.toNat))) fun s =>
    let t : Ident := (s.greg e a).setWidth 16
    if !s.targetPresent t then s.noMemFault e .absent t.toNat
    else
      let s1 := s.makeRoom e
      if s1.entryDue e then s1 else (s1.post e (.doorbell t b.toNat)).advance e 3)

/-! ### The atomic group (R94) -/

namespace State

/-- SWP to FXOR: the address is gb, and ga the operand. -/
def atomic3 (s : State) (e : Nat) (wide : Bool) (d a b : GReg) (op : State → AtomOp) : State :=
  s.issue e (pairForm wide (6 + bit wide) (6 + bit wide) [(d, 4 + bit wide), (a, 5 + bit wide)]) fun s =>
    s.atomicInstr e wide d (s.greg e b).toNat (op s) (s.rd e wide a) (6 + bit wide)

end State

/-- SWP. -/
def execSwp (e : Nat) (wide : Bool) (d a b : GReg) (s : State) : Answer :=
  .next (s.atomic3 e wide d a b fun _ => .swp)

/-- CAS: D is read before the write of the old value. -/
def execCas (e : Nat) (wide : Bool) (d a b : GReg) (s : State) : Answer :=
  .next (s.atomic3 e wide d a b fun s => .cas (s.rd e wide d))

/-- FADD. -/
def execFadd (e : Nat) (wide : Bool) (d a b : GReg) (s : State) : Answer :=
  .next (s.atomic3 e wide d a b fun _ => .fadd)

/-- FAND. -/
def execFand (e : Nat) (wide : Bool) (d a b : GReg) (s : State) : Answer :=
  .next (s.atomic3 e wide d a b fun _ => .fand)

/-- FOR. -/
def execFor (e : Nat) (wide : Bool) (d a b : GReg) (s : State) : Answer :=
  .next (s.atomic3 e wide d a b fun _ => .fior)

/-- FXOR. -/
def execFxor (e : Nat) (wide : Bool) (d a b : GReg) (s : State) : Answer :=
  .next (s.atomic3 e wide d a b fun _ => .fxor)

/-- CASX: the immediate, sign-extended under WIDE, is compared. -/
def execCasx (e : Nat) (wide : Bool) (d a b : GReg) (disp imm : BitVec 32) (s : State) : Answer :=
  .next (s.issue e (pairForm wide (6 + bit wide) (14 + bit wide) [(d, 4 + bit wide), (a, 5 + bit wide)]) fun s =>
    s.atomicInstr e wide d (effAddr (s.greg e b) disp.toInt) (.cas (ofSigned (opBits wide) imm.toInt))
      (s.rd e wide a) (14 + bit wide))

/-! ### Special registers and control (R80, R116, R125) -/

/-- An MFS or MTS whose special register is not accepted, or is (R80). -/
def specialForm (bad : Bool) (byte : Nat) : Form :=
  { len := 3, bad := if bad then some { reason := 0x7, byte := byte, need := 3 } else none }

/-- MFS. -/
def execMfs (e : Nat) (d : GReg) (n : Fin 16) (s : State) : Answer :=
  .next (s.issue e (specialForm (decide (5 < n.val)) 2) fun s =>
    let x := s.eng e
    let v : Word :=
      if n.val = 0 then x.pc
      else if n.val = 1 then x.evtPend
      else if n.val = 2 then x.evtMask
      else if n.val = 3 then (match x.stack with | r :: _ => r.cause | [] => 0)
      else if n.val = 4 then (match x.stack with | r :: _ => r.retPC | [] => 0)
      else x.leaseId
    (s.setGreg e d v).advance e 3)

namespace State

/-- MTS clears a pending line; the clear loses to an arrival in the same cycle, whose cycle then stands (R120). -/
def clearLine (s : State) (e n : Nat) : State :=
  let x := s.eng e
  if s.now.lines.contains (e, n) then
    s.setEng e { x with arrival := Store.set (fun _ => 0) x.arrival n s.cycle }
  else
    s.setEng e { x with evtPend := x.evtPend &&& ~~~(1#32 <<< n), arrival := Store.erase x.arrival n }

/-- A special register written (Table ISA-1). MTS to EXC_PC discards the held result of the innermost record; an
access of it that has yet to arrive is still performed (R125). -/
def putSpecial (s : State) (e n : Nat) (v : Word) : State :=
  let x := s.eng e
  if n = 1 then
    (List.range 32).foldl (fun s n => if v.getLsbD n then s.clearLine e n else s) s
  else if n = 2 then s.setEng e { x with evtMask := v }
  else
    match x.stack with
    | r :: rest =>
      if n = 3 then s.setEng e { x with stack := { r with cause := v } :: rest }
      else
        s.setEng e { x with
          stack := { r with retPC := v, held := [] } :: rest
          orphans := x.orphans ++ awaited false r.held
          dropped := x.dropped ++ awaited true r.held }
    | [] => s

end State

/-- MTS. -/
def execMts (e : Nat) (n : Fin 16) (a : GReg) (s : State) : Answer :=
  .next (s.issue e (specialForm (decide (n.val = 0 ∨ 4 < n.val)) 2) fun s =>
    (s.putSpecial e n.val (s.greg e a)).advance e 3)

/-- RETE (R129): the innermost record is popped; an entry due at the restored level is chained at once. -/
def execRete (e : Nat) (s : State) : Answer :=
  .next (s.issue e (plainForm 3) fun s =>
    if (s.eng e).stack.isEmpty then s.illegal e 0xD 1
    else
      let s1 := s.popRecord e
      if s1.entryDue e then
        match (s1.eng e).returned with
        | some f => s1.takeEntry e f true
        | none => s1
      else s1)

/-- TRAP (R110): BREAK, which returns to the instruction after it. -/
def execTrap (e : Nat) (code : BitVec 8) (s : State) : Answer :=
  .next (s.issue e (plainForm 4) fun s => s.exception e 7 (7 + 2 ^ 24 * code.toNat) (s.pc e + 4))

/-! ### LEASE and RELEASE (R148) -/

/-- An access is a LEASE or RELEASE request. -/
def isLeaseReq (release : Bool) : Access → Bool
  | .lease _ => !release
  | .release _ => release
  | _ => false

namespace State

/-- The resource of a handle is absent: its district, or twins. -/
def leaseAbsent (s : State) (h : Nat) : Bool :=
  decide (s.variant.districts ≤ (handleParts h).2.1) || ((handleParts h).1 == 5 && s.variant.pairs == 0)

/-- The request is served in another district, over the Avenue. -/
def leaseAway (e h : Nat) : Bool :=
  let p := handleParts h
  (p.1 == 3 || p.1 == 5 || p.1 == 7) && p.2.1 != e / 12

/-- The Avenue carries a request to the district of a handle and its reply. -/
def leaseOpen (s : State) (e h : Nat) : Bool :=
  s.ave.started && s.ownsSlot (e / 12) false && s.ownsSlot (handleParts h).2.1 false

/-- The handle of a held request. -/
def heldHandle (s : State) (e : Nat) : Nat :=
  match (s.eng e).returned with
  | some r =>
    match r.held[0]? with
    | some h =>
      match h.access with
      | .lease x => x
      | .release x => x
      | _ => 0
    | none => 0
  | none => 0

/-- LEASE or RELEASE of the handle in ga. -/
def leaseInstr (s : State) (e : Nat) (gd ga : GReg) (release : Bool) : State :=
  match s.takeHeld e 0 (isLeaseReq release) with
  | .waiting => s
  | .got code => s.finishLease e gd 3 (s.heldHandle e) release code
  | .refused _ => s
  | .fresh =>
    let h := (s.greg e ga).toNat
    if s.leaseAbsent h then s.noMemFault e .absent h
    else if leaseAway e h then
      if s.leaseOpen e h then
        (s.setEng e { s.eng e with leaseWait := some { handle := h, release := release, gd := gd, len := 3 } }).sendLease
          e (handleParts h).2.1 h release
      else s.finishLease e gd 3 h release Code.busy
    else
      let r := if release then s.giveLease e h else s.takeLease e h
      r.2.finishLease e gd 3 h release r.1

end State

/-- LEASE. -/
def execLease (e : Nat) (d a : GReg) (s : State) : Answer :=
  .next (s.issue e (plainForm 3) fun s => s.leaseInstr e d a false)

/-- RELEASE. -/
def execRelease (e : Nat) (d a : GReg) (s : State) : Answer :=
  .next (s.issue e (plainForm 3) fun s => s.leaseInstr e d a true)

/-! ### Accesses sent by an abandoned instruction (R124) -/

namespace State

/-- An access that may have left the engine: it has passed its checks, and lies outside LOCAL. -/
def sendable (s : State) (e : Nat) : Access → Bool
  | .load sp a n => sp != .engineLocal && [1, 2, 4, 8].contains n && (s.check e sp a n false false).isNone
  | .atomic a n _ _ => (n == 4 || n == 8) && decide (a + n ≤ sramSize)
  | .lease h | .release h => !s.leaseAbsent h

/-- An access leaves the engine, behind the earlier stores to its space; what another district or chip serves goes
out as a message. -/
def sendAccess (e : Nat) (p : List Held × State) (x : Access) : List Held × State :=
  let s := p.2
  let keep (r : Option HeldResult) (remote : Bool) (s : State) : List Held × State :=
    (p.1 ++ [{ access := x, result := r, remote := remote }], s)
  match x with
  | .load sp a n =>
    let s1 := s.drain e (·.inSpace sp)
    if sp = .image ∧ a < 0x40000000 ∧ s1.readsRemote (s1.engIdent e) then
      match s1.loadAt e sp a n with
      | .value v s2 => keep (some (.value v)) true s2
      | .refused s2 => keep (some .refused) true s2
      | .later s2 => keep none true s2
    else keep none false s1
  | .atomic _ _ _ _ => keep none false (s.drain e (·.inSpace .district))
  | .lease h =>
    if leaseAway e h then
      if s.leaseOpen e h then keep none true (s.sendLease e (handleParts h).2.1 h false)
      else keep (some (.value Code.busy)) true s
    else keep none false s
  | .release h =>
    if leaseAway e h then
      if s.leaseOpen e h then keep none true (s.sendLease e (handleParts h).2.1 h true)
      else keep (some (.value Code.busy)) true s
    else keep none false s

/-- The instruction at the program counter is abandoned (R123, R124): of the accesses that it sends, those that the
command says had left go out. Nothing of the command counts where the instruction completes (Table ISA-12), or where
the state tells what is abandoned. -/
def abandon (s : State) (e : Nat) (ab : Option Abandon) : Option Returned × State :=
  let x := s.eng e
  match ab with
  | some a =>
    if s.engState e = 1 ∧ x.leaseWait.isNone ∧ x.loadWait.isNone ∧
        x.returned.all (fun r => r.held.isEmpty) = true then
      match (s.instrAt e).filter (s.abandons e) with
      | some i =>
        let sent := (s.accessesOf e i).filter fun x => a.accesses.contains x && s.sendable e x
        let p := sent.foldl (sendAccess e) ([], s)
        (some (abandonedWith (s.yields e i) p.1), p.2)
      | none => (none, s)
    else (none, s)
  | none => (none, s)

/-- An access sent on this chip is performed at its target; none while its data has yet to come. -/
def performAccess (s : State) (e : Nat) : Access → Option (HeldResult × State)
  | .load sp a n =>
    if sp = .image ∧ a < 0x40000000 then
      some (.value (takeBytes (s.imgRead (s.engIdent e) (a / 16)).1 (a % 16) n), (s.imgRead (s.engIdent e) (a / 16)).2)
    else
      match s.loadAt e sp a n with
      | .value v s1 => some (.value v, s1)
      | .refused s1 => some (.refused, s1)
      | .later _ => none
  | .atomic a n op v =>
    match s.atomicAt e a n op v with
    | .value old s1 => some (.value old, s1)
    | .refused s1 => some (.refused, s1)
    | .later _ => none
  | .lease h => some (.value (s.takeLease e h).1, (s.takeLease e h).2)
  | .release h => some (.value (s.giveLease e h).1, (s.giveLease e h).2)

end State

/-- HELD_RESULT_ARRIVAL: the `k`-th access still under way is performed, and its result is held; one whose result
was discarded is performed all the same. -/
def execHeldResultArrival (e k : Nat) (s : State) : Answer :=
  .next (s.live fun s =>
    let x := s.eng e
    let held := if s.engState e = 3 then [] else State.outstandingHeld x
    match held[k]? with
    | some a =>
      match s.performAccess e a with
      | some (r, s1) => (s1.heldResult e a false r).getD s1
      | none => s
    | none =>
      match x.orphans[k - held.length]? with
      | some a =>
        match (s.setEng e { x with orphans := x.orphans.eraseIdx (k - held.length) }).performAccess e a with
        | some (_, s1) => s1
        | none => s
      | none => s)

/-- POSTED_STORE_COMPLETION: entry `k` of the queue reaches its target. -/
def execPostedStoreCompletion (e k : Nat) (s : State) : Answer :=
  .next (s.live fun s => s.completePosted e k)

/-- EVENT_LINE_ARRIVAL (R120). -/
def execEventLineArrival (e n : Nat) (s : State) : Answer :=
  .next (s.live fun s => if s.hasEngine e ∧ n < 32 then s.lineArrives e n else s)

/-- EVENT_ENTRY (R122): the entry that is due is taken. -/
def execEventEntry (e : Nat) (ab : Option Abandon) (s : State) : Answer :=
  .next (s.live fun s =>
    if s.hasEngine e ∧ s.entryDue e then
      let p := s.abandon e ab
      p.2.takeEntry e (p.2.foundAt e p.1) false
    else s)

/-- WATCHDOG_EXPIRY (R143, R139): the count has reached 0. -/
def execWatchdogExpiry (e : Nat) (s : State) : Answer :=
  .next (s.live fun s =>
    let x := s.eng e
    if s.awake e ∧ s.flag (Fld.CE_WDOG_EN e) ∧ x.wdArmed ∧ x.wdCount = 0 then
      let s1 := s.setEng e { x with wdArmed := false, wdExpired := true, watchPending := true }
      if x.wdExpired then s1.halt e 3 else s1
    else s)

end Sys2Proof.Machine
end

