-- ==== Sys2Proof/Machine/HostIf.lean ====
section
/-!
DEFINITION. What the host reaches beside its registers: BAR2 (R455, R456) and the management SPI (R462). In the
record of outputs a BAR2 offset stands with 0x1_0000_0000 added, to tell it from a BAR0 offset.
-/

namespace Sys2Proof.Machine

/-- A range of BAR2 (Table MBX-1), with the offset in it. -/
inductive Bar2 where
  | boot (o : Nat)
  | sram (d o : Nat)
  | instr (e o : Nat)
  | data (e o : Nat)
  | host (o : Nat)
  | image (p o : Nat)
  | curve (o : Nat)
  | miss
  deriving DecidableEq, Repr

/-- Bytes of the host buffer area. -/
def hostBytes : Variant → Nat
  | .ixd7220 => 0x8000000
  | _ => 0x10000000

/-- Bytes of the curve store. -/
def curveBytes : Variant → Nat
  | .ixd7240 => 0x80000000
  | .ixd7220 => 0x40000000
  | .ixd7210 => 0

/-- The range of a BAR2 offset; the parts of an absent unit are none. -/
def bar2At (v : Variant) (a : Nat) : Bar2 :=
  if a < 0x200000 then .boot a
  else if 0x2000000 ≤ a ∧ a < 0x4000000 then
    if (a - 0x2000000) / 0x400000 < v.districts then .sram ((a - 0x2000000) / 0x400000) (a % 0x400000) else .miss
  else if 0x4000000 ≤ a ∧ a < 0x4C00000 then
    if (a - 0x4000000) / 0x20000 < v.engines then
      if a % 0x20000 < 0x10000 then .instr ((a - 0x4000000) / 0x20000) (a % 0x10000)
      else .data ((a - 0x4000000) / 0x20000) (a % 0x10000)
    else .miss
  else if 0x10000000 ≤ a ∧ a < 0x10000000 + hostBytes v then .host (a - 0x10000000)
  else if 0x20000000 ≤ a ∧ a < 0x20000000 + v.points * 16 then .image ((a - 0x20000000) / 16) (a % 16)
  else if 0x40000000 ≤ a ∧ a < 0x40000000 + curveBytes v then .curve (a - 0x40000000)
  else .miss

namespace State

/-- What a BAR2 access answers a host with. -/
def bar2Data (s : State) (who : Ident) (a v : Nat) : State := s.emit (.readData who (0x100000000 + a) v)

/-- A BAR2 access that finds nothing (R455). -/
def bar2Miss (s : State) : State := s.count Fld.MBX_HOST_STAT_BAR2_MISS

/-- A BAR2 write that a condition refuses (R455). -/
def bar2Refused (s : State) : State := (s.count Fld.MBX_HOST_STAT_BAR2_REFUSED).mbxErr

/-- The boot window is open in BOOT and LOAD. -/
def bootOpen (s : State) : Bool := s.mode == Mode.boot || s.mode == Mode.load

/-- Bytes of an SRAM read by the host: the words that hold an uncorrectable error read all ones (R151, R456). -/
def sramHostBytes (s : State) (d o n : Nat) : Nat :=
  (List.range n).foldl (fun v i =>
    v + 256 ^ i * (if s.sramBad d (o + i) 1 then 0xFF else ((s.dist d).sram.read (o + i)).toNat)) 0

/-- Bytes of the image window: each point whole. A remote reader's points are asked for (R375, R399). -/
def imageBytes (s : State) (who : Ident) (a n : Nat) : State :=
  if s.readsRemote who then
    if s.remoteOpen (s.fld (Fld.IMG_VIEW_CHIP (imgBlock who))) then s.askRemote who (a / 16) (a % 16) n
    else (s.imgErr who).bar2Data who (0x20000000 + a) (2 ^ 125 / 256 ^ (a % 16) % 256 ^ n)
  else
    let r := (List.range ((a % 16 + n + 15) / 16)).foldl (fun (r : Nat × State) i =>
      let q := r.2.imgRead who (a / 16 + i)
      (r.1 + q.1 * 2 ^ (128 * i), q.2)) (0, s)
    r.2.bar2Data who (0x20000000 + a) (r.1 / 256 ^ (a % 16) % 256 ^ n)

/-- A read of DRAM beside the image: while MCLK is lost the transfer is discarded, and what the read returns is a free
value (R24, log entry 92). -/
def dramRead (s : State) (who : Ident) (a v n : Nat) : State :=
  if s.clockGone 3 then (s.through 3 id).draw.bar2Data who a (s.drawn % 256 ^ n) else s.bar2Data who a v

/-- A BAR2 read of `n` bytes. What the boot window reads as outside BOOT and LOAD is a free value (log entry 72). -/
def bar2Read (s : State) (who : Ident) (a n : Nat) : State :=
  match bar2At s.variant a with
  | .boot o =>
    if s.bootOpen then s.bar2Data who a (s.bootMem.readLE o n) else s.draw.bar2Data who a (s.drawn % 256 ^ n)
  | .sram d o =>
    let s := s.sramScrub d o n
    let s1 := if s.sramBad d o n then s.sramErrorSeen d else s
    s1.bar2Data who a (s.sramHostBytes d o n)
  | .instr e o => s.bar2Data who a ((s.eng e).instr.readLE o n)
  | .data e o => s.bar2Data who a ((s.eng e).data.readLE o n)
  | .host o => s.dramRead who a (s.hostMem.readLE o n) n
  | .image p o => s.imageBytes who (p * 16 + o) n
  | .curve o => s.dramRead who a (s.curve.readLE o n) n
  | .miss => s.bar2Miss.bar2Data who a 0

/-- A write of 1, 2, 4 or 8 bytes at offset 0 of a point is a store to it; any other is discarded (R379). -/
def bar2Point (s : State) (who : Ident) (p o n v : Nat) : State :=
  if o = 0 ∧ (n = 1 ∨ n = 2 ∨ n = 4 ∨ n = 8) then s.imgStore who p (v % 256 ^ n)
  else s.setFlag Fld.IMG_STAT_CFG_ERR true

/-- A BAR2 write of `n` bytes. -/
def bar2Write (s : State) (who : Ident) (a n v : Nat) : State :=
  match bar2At s.variant a with
  | .boot o => if s.bootOpen then { s with bootMem := s.bootMem.writeLE o n v } else s.bar2Refused
  | .sram d o =>
    if s.sramWritable d o n who then s.sramStore d o n v
    else (s.count (Fld.RND_SRAM_ERR_LOCK_REFUSED d)).bar2Refused
  | .data e o =>
    if s.mode = Mode.load ∧ !s.flag (Fld.CE_CTRL_RUN e) then
      s.setEng e { s.eng e with data := (s.eng e).data.writeLE o n v }
    else s.bar2Refused
  | .host o => s.through 3 fun s => { s with hostMem := s.hostMem.writeLE o n v }
  | .image p o => s.bar2Point who p o n v
  | .instr _ _ => s.bar2Refused
  | .curve _ => s.bar2Refused
  | .miss => s.bar2Miss

/-- A read is answered. -/
def answerRead (s : State) (r : HostRead) : State :=
  if r.bar2 then s.bar2Read r.who r.addr r.bytes
  else (s.readRegs r.who r.addr r.bytes).2.emit (.readData r.who r.addr (s.readRegs r.who r.addr r.bytes).1)

/-! ### The management SPI (R462) -/

/-- The identity of the management SPI: host function 7. -/
def spiIdent (s : State) : Ident := s.ident 7

/-- A transaction is discarded from a point on. -/
def spiError (s : State) : State := s.count Fld.MBX_SPI_ERR_COUNT

/-- Words of a write, in ascending offsets. -/
def spiWrites (s : State) (a : Nat) : List Word → State
  | [] => s
  | w :: ws => (s.writeReg s.spiIdent a 0 4 w).spiWrites (a + 4) ws

/-- `n` words of a read, most significant byte first, after those that have been shifted out. -/
def spiReads (s : State) (a : Nat) (out : List Byte) : Nat → List Byte × State
  | 0 => (out, s)
  | n + 1 =>
    let r := s.readReg s.spiIdent a 0 4
    r.2.spiReads (a + 4)
      (out ++ [r.1.extractLsb' 24 8, r.1.extractLsb' 16 8, r.1.extractLsb' 8 8, r.1.extractLsb' 0 8]) n

end State

/-- A PCIe function in effect: BAR2 is not reachable for any other identity (R452, R462). -/
def State.pcieFunction (s : State) (who : Ident) : Bool :=
  Ident.isHost who && Ident.chip who == s.chip && decide (Ident.src who < s.nfn)

/-- A host function's read is answered after every earlier write of it has taken effect, and after its earlier reads
(R453). -/
def State.hostRead (s : State) (r : HostRead) : State :=
  if Ident.isHost r.who ∧ (!s.imgIdle r.who ∨ s.hostReads.any (fun q => q.who == r.who)) then
    { s with hostReads := s.hostReads ++ [r] }
  else s.answerRead r

/-- The reads whose writes have taken effect are answered, each function's in order. -/
def State.answerReads (s : State) : State :=
  s.hostReads.foldl (fun s r => s.hostRead r) { s with hostReads := [] }

/-- Storage errors that have arisen by the time of an access (R151, R378). -/
def State.upset (s : State) : Upset → State
  | .sram d w fatal =>
    if s.variant.districts ≤ d then s
    else if fatal then s.setDist d { s.dist d with bad := (s.dist d).bad ++ [w] }
    else s.setDist d { s.dist d with soft := (s.dist d).soft ++ [w] }
  | .point p => if s.variant.points ≤ p then s else s.setPoint p { s.point p with lost := true }

/-- BAR2_READ (R455, R456): some bytes at an offset, after the storage errors that have arisen by then. -/
def execBar2Read (who : Ident) (a : Nat) (x : Bar2Span) (s : State) : Answer :=
  .next (s.live fun s => (x.upsets.foldl State.upset s).overHclk who fun s =>
    if s.pcieFunction who then s.hostRead { who := who, bar2 := true, addr := a, bytes := x.bytes } else s)

/-- REGISTER_READ (R12): a read of `n` bytes at offset `a`. -/
def execRegisterRead (who : Ident) (a n : Nat) (s : State) : Answer :=
  .next (s.live fun s => s.overHclk who fun s => s.hostRead { who := who, bar2 := false, addr := a, bytes := n })

/-- BAR2_WRITE (R455): the `n` low bytes of `v` at an offset. -/
def execBar2Write (who : Ident) (a n v : Nat) (s : State) : Answer :=
  .next (s.live fun s => s.overHclk who fun s => if s.pcieFunction who then s.bar2Write who a n v else s)

/-- SPI_WRITE (R462): the command byte, the offset and whole words; `cut` tells that CS_N rose inside a further
word. A command byte that is not 0x02 or 0x03 is an error. -/
def execSpiWrite (cmd : BitVec 8) (a : Nat) (words : List Word) (cut : Bool) (s : State) : Answer :=
  .next (s.live fun s =>
    if cmd ≠ 2 ∨ a % 4 ≠ 0 then s.spiError
    else if cut then (s.spiWrites a words).spiError
    else s.spiWrites a words)

/-- SPI_READ (R462): `n` words; the device shifts out 0xA5 and the words, after any bytes of 0x00. -/
def execSpiRead (cmd : BitVec 8) (a n : Nat) (cut : Bool) (s : State) : Answer :=
  .next (s.live fun s =>
    if cmd ≠ 3 ∨ a % 4 ≠ 0 then s.spiError
    else
      let r := s.spiReads a [0xA5] n
      if cut then (r.2.emit (.spiData r.1)).spiError else r.2.emit (.spiData r.1))

end Sys2Proof.Machine
end

