-- ==== Sys2Proof/Machine/Dispatch.lean ====
section
/-!
DEFINITION. One arm per command, each one call of its meaning.
-/

namespace Sys2Proof.Machine

def exec (i : Instr) (s : State) : Host.Outcome State Fault Refusal :=
  match i with
  | .absentWindowAccess who a write => Sys2Proof.Machine.execAbsentWindowAccess who a write s
  | .registerWrite who a n v => Sys2Proof.Machine.execRegisterWrite who a n v s
  | .shadowWrite who a v => Sys2Proof.Machine.execShadowWrite who a v s
  | .powerOnReset => Sys2Proof.Machine.execPowerOnReset s
  | .resetPin ns => Sys2Proof.Machine.execResetPin ns s
  | .brownOut => Sys2Proof.Machine.execBrownOut s
  | .supervisorLockstepMismatch => Sys2Proof.Machine.execSupervisorLockstepMismatch s
  | .supervisorWatchdogExpiry => Sys2Proof.Machine.execSupervisorWatchdogExpiry s
  | .perstN => Sys2Proof.Machine.execPerstN s
  | .hotReset => Sys2Proof.Machine.execHotReset s
  | .functionLevelReset f => Sys2Proof.Machine.execFunctionLevelReset f s
  | .clockLossOfLock k => Sys2Proof.Machine.execClockLossOfLock k s
  | .clockLockReturn k => Sys2Proof.Machine.execClockLockReturn k s
  | .forcedLoad k => Sys2Proof.Machine.execForcedLoad k s
  | .synchroniserAcknowledge l => Sys2Proof.Machine.execSynchroniserAcknowledge l s
  | .bootAttempt flash readError => Sys2Proof.Machine.execBootAttempt flash readError s
  | .hostPush who => Sys2Proof.Machine.execHostPush who s
  | .supervisorStart => Sys2Proof.Machine.execSupervisorStart s
  | .enterLoad who tag arg => Sys2Proof.Machine.execEnterLoad who tag arg s
  | .enterCommission who tag arg => Sys2Proof.Machine.execEnterCommission who tag arg s
  | .enterCommissionComplete => Sys2Proof.Machine.execEnterCommissionComplete s
  | .enterRun who tag arg => Sys2Proof.Machine.execEnterRun who tag arg s
  | .enterRunEvaluation => Sys2Proof.Machine.execEnterRunEvaluation s
  | .safeAck who tag arg => Sys2Proof.Machine.execSafeAck who tag arg s
  | .softReset who tag arg => Sys2Proof.Machine.execSoftReset who tag arg s
  | .safeStopReport => Sys2Proof.Machine.execSafeStopReport s
  | .begin u who => Sys2Proof.Machine.execBegin u who s
  | .commit u who => Sys2Proof.Machine.execCommit u who s
  | .rollback u who => Sys2Proof.Machine.execRollback u who s
  | .txnApply u => Sys2Proof.Machine.execTxnApply u s
  | .nop e => Sys2Proof.Machine.execNop e s
  | .mov e wide d a => Sys2Proof.Machine.execMov e wide d a s
  | .movi e wide d imm => Sys2Proof.Machine.execMovi e wide d imm s
  | .add e wide d a b => Sys2Proof.Machine.execAdd e wide d a b s
  | .sub e wide d a b => Sys2Proof.Machine.execSub e wide d a b s
  | .addc e wide d c a b => Sys2Proof.Machine.execAddc e wide d c a b s
  | .subb e wide d c a b => Sys2Proof.Machine.execSubb e wide d c a b s
  | .addv e wide d c a b => Sys2Proof.Machine.execAddv e wide d c a b s
  | .subv e wide d c a b => Sys2Proof.Machine.execSubv e wide d c a b s
  | .mul e wide d a b => Sys2Proof.Machine.execMul e wide d a b s
  | .mulh e wide d a b => Sys2Proof.Machine.execMulh e wide d a b s
  | .mulhu e wide d a b => Sys2Proof.Machine.execMulhu e wide d a b s
  | .div e wide d a b => Sys2Proof.Machine.execDiv e wide d a b s
  | .divu e wide d a b => Sys2Proof.Machine.execDivu e wide d a b s
  | .rem e wide d a b => Sys2Proof.Machine.execRem e wide d a b s
  | .remu e wide d a b => Sys2Proof.Machine.execRemu e wide d a b s
  | .satadd e wide d a b => Sys2Proof.Machine.execSatadd e wide d a b s
  | .neg e wide d a => Sys2Proof.Machine.execNeg e wide d a s
  | .negv e wide d c a => Sys2Proof.Machine.execNegv e wide d c a s
  | .addi e wide d a imm => Sys2Proof.Machine.execAddi e wide d a imm s
  | .andi e wide d a imm ext => Sys2Proof.Machine.execAndi e wide d a imm ext s
  | .ori e wide d a imm ext => Sys2Proof.Machine.execOri e wide d a imm ext s
  | .xori e wide d a imm ext => Sys2Proof.Machine.execXori e wide d a imm ext s
  | .shli e wide d a k => Sys2Proof.Machine.execShli e wide d a k s
  | .shri e wide d a k => Sys2Proof.Machine.execShri e wide d a k s
  | .sari e wide d a k => Sys2Proof.Machine.execSari e wide d a k s
  | .roli e wide d a k => Sys2Proof.Machine.execRoli e wide d a k s
  | .roti e wide d a k => Sys2Proof.Machine.execRoti e wide d a k s
  | .muli e wide d a imm ext => Sys2Proof.Machine.execMuli e wide d a imm ext s
  | .ceqi e wide d a imm ext => Sys2Proof.Machine.execCeqi e wide d a imm ext s
  | .clti e wide d a imm ext => Sys2Proof.Machine.execClti e wide d a imm ext s
  | .cltui e wide d a imm ext => Sys2Proof.Machine.execCltui e wide d a imm ext s
  | .sataddi e wide d a imm ext => Sys2Proof.Machine.execSataddi e wide d a imm ext s
  | .and e wide d a b => Sys2Proof.Machine.execAnd e wide d a b s
  | .or e wide d a b => Sys2Proof.Machine.execOr e wide d a b s
  | .xor e wide d a b => Sys2Proof.Machine.execXor e wide d a b s
  | .andn e wide d a b => Sys2Proof.Machine.execAndn e wide d a b s
  | .not e wide d a => Sys2Proof.Machine.execNot e wide d a s
  | .shl e wide d a b => Sys2Proof.Machine.execShl e wide d a b s
  | .shr e wide d a b => Sys2Proof.Machine.execShr e wide d a b s
  | .sar e wide d a b => Sys2Proof.Machine.execSar e wide d a b s
  | .rol e wide d a b => Sys2Proof.Machine.execRol e wide d a b s
  | .rot e wide d a b => Sys2Proof.Machine.execRot e wide d a b s
  | .ceq e wide d a b => Sys2Proof.Machine.execCeq e wide d a b s
  | .cne e wide d a b => Sys2Proof.Machine.execCne e wide d a b s
  | .clt e wide d a b => Sys2Proof.Machine.execClt e wide d a b s
  | .cltu e wide d a b => Sys2Proof.Machine.execCltu e wide d a b s
  | .cge e wide d a b => Sys2Proof.Machine.execCge e wide d a b s
  | .cgeu e wide d a b => Sys2Proof.Machine.execCgeu e wide d a b s
  | .sel e wide d c a b => Sys2Proof.Machine.execSel e wide d c a b s
  | .bfx e wide d a field => Sys2Proof.Machine.execBfx e wide d a field s
  | .bfi e wide d a field => Sys2Proof.Machine.execBfi e wide d a field s
  | .clz e wide d a => Sys2Proof.Machine.execClz e wide d a s
  | .popc e wide d a => Sys2Proof.Machine.execPopc e wide d a s
  | .bswap e wide d a => Sys2Proof.Machine.execBswap e wide d a s
  | .ld e size sp d b disp => Sys2Proof.Machine.execLd e size sp d b disp s
  | .lds e size sp d b disp => Sys2Proof.Machine.execLds e size sp d b disp s
  | .st e size sp g b disp => Sys2Proof.Machine.execSt e size sp g b disp s
  | .sti e size sp b disp imm => Sys2Proof.Machine.execSti e size sp b disp imm s
  | .lea e d b disp => Sys2Proof.Machine.execLea e d b disp s
  | .b e disp => Sys2Proof.Machine.execB e disp s
  | .bz e a disp => Sys2Proof.Machine.execBz e a disp s
  | .bnz e a disp => Sys2Proof.Machine.execBnz e a disp s
  | .call e disp => Sys2Proof.Machine.execCall e disp s
  | .br e a => Sys2Proof.Machine.execBr e a s
  | .callr e a => Sys2Proof.Machine.execCallr e a s
  | .ret e => Sys2Proof.Machine.execRet e s
  | .movs e size rep sp ds => Sys2Proof.Machine.execMovs e size rep sp ds s
  | .fill e size rep sp a => Sys2Proof.Machine.execFill e size rep sp a s
  | .scan e size rep sp d a => Sys2Proof.Machine.execScan e size rep sp d a s
  | .cmps e size rep sp d ds => Sys2Proof.Machine.execCmps e size rep sp d ds s
  | .crcs e size rep sp d table => Sys2Proof.Machine.execCrcs e size rep sp d table s
  | .stmp e wide d => Sys2Proof.Machine.execStmp e wide d s
  | .tsqp e d a b => Sys2Proof.Machine.execTsqp e d a b s
  | .srup e d a => Sys2Proof.Machine.execSrup e d a s
  | .rndrd e d word => Sys2Proof.Machine.execRndrd e d word s
  | .rndwr e a word => Sys2Proof.Machine.execRndwr e a word s
  | .rndop e a field => Sys2Proof.Machine.execRndop e a field s
  | .wait e => Sys2Proof.Machine.execWait e s
  | .evt e a line => Sys2Proof.Machine.execEvt e a line s
  | .fence e => Sys2Proof.Machine.execFence e s
  | .dbell e a b => Sys2Proof.Machine.execDbell e a b s
  | .swp e wide d a b => Sys2Proof.Machine.execSwp e wide d a b s
  | .cas e wide d a b => Sys2Proof.Machine.execCas e wide d a b s
  | .fadd e wide d a b => Sys2Proof.Machine.execFadd e wide d a b s
  | .fand e wide d a b => Sys2Proof.Machine.execFand e wide d a b s
  | .fetchOr e wide d a b => Sys2Proof.Machine.execFor e wide d a b s
  | .fxor e wide d a b => Sys2Proof.Machine.execFxor e wide d a b s
  | .casx e wide d a b disp imm => Sys2Proof.Machine.execCasx e wide d a b disp imm s
  | .mfs e d n => Sys2Proof.Machine.execMfs e d n s
  | .mts e n a => Sys2Proof.Machine.execMts e n a s
  | .rete e => Sys2Proof.Machine.execRete e s
  | .trap e code => Sys2Proof.Machine.execTrap e code s
  | .lease e d a => Sys2Proof.Machine.execLease e d a s
  | .release e d a => Sys2Proof.Machine.execRelease e d a s
  | .illegal e => Sys2Proof.Machine.execIllegal e s
  | .fetchAccess e => Sys2Proof.Machine.execFetchAccess e s
  | .postedStoreCompletion e k => Sys2Proof.Machine.execPostedStoreCompletion e k s
  | .heldResultArrival e k => Sys2Proof.Machine.execHeldResultArrival e k s
  | .eventLineArrival e n => Sys2Proof.Machine.execEventLineArrival e n s
  | .eventEntry e ab => Sys2Proof.Machine.execEventEntry e ab s
  | .watchdogExpiry e => Sys2Proof.Machine.execWatchdogExpiry e s
  | .ceWdogKick who e key => Sys2Proof.Machine.execCeWdogKick who e key s
  | .ceWdog who e v => Sys2Proof.Machine.execCeWdog who e v s
  | .engineStart who e => Sys2Proof.Machine.execEngineStart who e s
  | .engineHoldReset who e => Sys2Proof.Machine.execEngineHoldReset who e s
  | .leaseMessage m => Sys2Proof.Machine.execLeaseMessage m s
  | .roundStart d errors => Sys2Proof.Machine.execRoundStart d errors s
  | .roundRun d => Sys2Proof.Machine.execRoundRun d s
  | .roundStop d who => Sys2Proof.Machine.execRoundStop d who s
  | .avenueCycleStart => Sys2Proof.Machine.execAvenueCycleStart s
  | .staticSlot k => Sys2Proof.Machine.execStaticSlot k s
  | .slotFrameReceipt off bad => Sys2Proof.Machine.execSlotFrameReceipt off bad s
  | .claimMinislot c => Sys2Proof.Machine.execClaimMinislot c s
  | .dynamicOffer => Sys2Proof.Machine.execDynamicOffer s
  | .ref m port => Sys2Proof.Machine.execRef m port s
  | .claim c => Sys2Proof.Machine.execClaim c s
  | .engine m => Sys2Proof.Machine.execEngine m s
  | .slice m => Sys2Proof.Machine.execSlice m s
  | .frame m => Sys2Proof.Machine.execFrame m s
  | .image m => Sys2Proof.Machine.execImage m s
  | .mailbox m => Sys2Proof.Machine.execMailbox m s
  | .lantern m => Sys2Proof.Machine.execLantern m s
  | .super m => Sys2Proof.Machine.execSuper m s
  | .aveGwPtr d q v => Sys2Proof.Machine.execAveGwPtr d q v s
  | .coldstartTimeout => Sys2Proof.Machine.execColdstartTimeout s
  | .coldstartCheckEnd => Sys2Proof.Machine.execColdstartCheckEnd s
  | .referenceMiss => Sys2Proof.Machine.execReferenceMiss s
  | .reint => Sys2Proof.Machine.execReint s
  | .wilernEnable n => Sys2Proof.Machine.execWilernEnable n s
  | .trainingStepDone n t => Sys2Proof.Machine.execTrainingStepDone n t s
  | .trainingRetry n => Sys2Proof.Machine.execTrainingRetry n s
  | .wilernLinkDown n => Sys2Proof.Machine.execWilernLinkDown n s
  | .relayFrame n origin f => Sys2Proof.Machine.execRelayFrame n origin f s
  | .aveClaim slot l who => Sys2Proof.Machine.execAveClaim slot l who s
  | .aveClaimRelease slot l who => Sys2Proof.Machine.execAveClaimRelease slot l who s
  | .claimEvaluation => Sys2Proof.Machine.execClaimEvaluation s
  | .claimTimeout => Sys2Proof.Machine.execClaimTimeout s
  | .receiveFrame n bs align symbols => Sys2Proof.Machine.execReceiveFrame n bs align symbols s
  | .ethRxSof n => Sys2Proof.Machine.execEthRxSof n s
  | .ethTxSof n => Sys2Proof.Machine.execEthTxSof n s
  | .classification => Sys2Proof.Machine.execClassification s
  | .copyEnqueue => Sys2Proof.Machine.execCopyEnqueue s
  | .destinationChoice dest => Sys2Proof.Machine.execDestinationChoice dest s
  | .transmitEnd n => Sys2Proof.Machine.execTransmitEnd n s
  | .gateEvent n => Sys2Proof.Machine.execGateEvent n s
  | .gateWindowClose q => Sys2Proof.Machine.execGateWindowClose q s
  | .spillWriteDone q => Sys2Proof.Machine.execSpillWriteDone q s
  | .spillReadBack q => Sys2Proof.Machine.execSpillReadBack q s
  | .oldGenerationRetire => Sys2Proof.Machine.execOldGenerationRetire s
  | .bankSyncDone => Sys2Proof.Machine.execBankSyncDone s
  | .xingTblRead who => Sys2Proof.Machine.execXingTblRead who s
  | .xingTblWrite who => Sys2Proof.Machine.execXingTblWrite who s
  | .lamplighterExamine => Sys2Proof.Machine.execLamplighterExamine s
  | .portEnable n who => Sys2Proof.Machine.execPortEnable n who s
  | .portDisable n who => Sys2Proof.Machine.execPortDisable n who s
  | .linkUp n speed => Sys2Proof.Machine.execLinkUp n speed s
  | .linkDown n => Sys2Proof.Machine.execLinkDown n s
  | .holdExpiry n => Sys2Proof.Machine.execHoldExpiry n s
  | .plcaCycle n => Sys2Proof.Machine.execPlcaCycle n s
  | .transmitOpportunity n => Sys2Proof.Machine.execTransmitOpportunity n s
  | .beaconReceipt n => Sys2Proof.Machine.execBeaconReceipt n s
  | .beaconTimeout n => Sys2Proof.Machine.execBeaconTimeout n s
  | .collision n late => Sys2Proof.Machine.execCollision n late s
  | .backoffExpiry n => Sys2Proof.Machine.execBackoffExpiry n s
  | .rxHead n e v => Sys2Proof.Machine.execRxHead n e v s
  | .rxCtrl n e v => Sys2Proof.Machine.execRxCtrl n e v s
  | .txTail n e v => Sys2Proof.Machine.execTxTail n e v s
  | .txDescriptor d => Sys2Proof.Machine.execTxDescriptor d s
  | .alloc n e v => Sys2Proof.Machine.execAlloc n e v s
  | .aptA n e l b v => Sys2Proof.Machine.execAptA n e l b v s
  | .thruFrame n rx => Sys2Proof.Machine.execThruFrame n rx s
  | .patchWindowLoad e => Sys2Proof.Machine.execPatchWindowLoad e s
  | .patchArrival n p bs => Sys2Proof.Machine.execPatchArrival n p bs s
  | .ethSnap n who => Sys2Proof.Machine.execEthSnap n who s
  | .canEnable n who => Sys2Proof.Machine.execCanEnable n who s
  | .canDisable n who => Sys2Proof.Machine.execCanDisable n who s
  | .integrationDone n => Sys2Proof.Machine.execIntegrationDone n s
  | .canSof n => Sys2Proof.Machine.execCanSof n s
  | .frameValid n f => Sys2Proof.Machine.execFrameValid n f s
  | .objectWord0Read e n o => Sys2Proof.Machine.execObjectWord0Read e n o s
  | .objectWord19Read e n o => Sys2Proof.Machine.execObjectWord19Read e n o s
  | .canRxid n o v who => Sys2Proof.Machine.execCanRxid n o v who s
  | .txRequest n t who => Sys2Proof.Machine.execTxRequest n t who s
  | .txCancel n t who => Sys2Proof.Machine.execTxCancel n t who s
  | .boffRecover n who => Sys2Proof.Machine.execBoffRecover n who s
  | .arbitrationChoice n => Sys2Proof.Machine.execArbitrationChoice n s
  | .attemptEnd n how tdc => Sys2Proof.Machine.execAttemptEnd n how tdc s
  | .busError n err spot exempt more => Sys2Proof.Machine.execBusError n err spot exempt more s
  | .recoveryDone n => Sys2Proof.Machine.execRecoveryDone n s
  | .serEnable n en who => Sys2Proof.Machine.execSerEnable n en who s
  | .characterReceived n part parity frame brk => Sys2Proof.Machine.execCharacterReceived n part parity frame brk s
  | .serTxTail n e v => Sys2Proof.Machine.execSerTxTail n e v s
  | .serRxHead n e v => Sys2Proof.Machine.execSerRxHead n e v s
  | .characterSent n => Sys2Proof.Machine.execCharacterSent n s
  | .gapT15 n => Sys2Proof.Machine.execGapT15 n s
  | .gapT35 n => Sys2Proof.Machine.execGapT35 n s
  | .ssiStart n e => Sys2Proof.Machine.execSsiStart n e s
  | .ssiTransferDone n bits => Sys2Proof.Machine.execSsiTransferDone n bits s
  | .wurq n e v => Sys2Proof.Machine.execWurq n e v s
  | .pkgLoad who e role tag => Sys2Proof.Machine.execPkgLoad who e role tag s
  | .pkgLoadComplete => Sys2Proof.Machine.execPkgLoadComplete s
  | .pkgUnload who e tag => Sys2Proof.Machine.execPkgUnload who e tag s
  | .timeInit x tag who => Sys2Proof.Machine.execTimeInit x tag who s
  | .timeStep x tag who => Sys2Proof.Machine.execTimeStep x tag who s
  | .timeRate x tag who => Sys2Proof.Machine.execTimeRate x tag who s
  | .timeLock x tag who => Sys2Proof.Machine.execTimeLock x tag who s
  | .timeUnlock x tag who => Sys2Proof.Machine.execTimeUnlock x tag who s
  | .timeSwitch x tag who => Sys2Proof.Machine.execTimeSwitch x tag who s
  | .timeSnap tag who => Sys2Proof.Machine.execTimeSnap tag who s
  | .timeCfg v who => Sys2Proof.Machine.execTimeCfg v who s
  | .timeDomCfg x v => Sys2Proof.Machine.execTimeDomCfg x v s
  | .softwareHoldoverTimeout x => Sys2Proof.Machine.execSoftwareHoldoverTimeout x s
  | .ppsEdge n falling => Sys2Proof.Machine.execPpsEdge n falling s
  | .ppsMissingMeasurement x => Sys2Proof.Machine.execPpsMissingMeasurement x s
  | .tclkLockReturn => Sys2Proof.Machine.execTclkLockReturn s
  | .repeaterRefresh => Sys2Proof.Machine.execRepeaterRefresh s
  | .tsqRelease d v who => Sys2Proof.Machine.execTsqRelease d v who s
  | .timeOutArm k v => Sys2Proof.Machine.execTimeOutArm k v s
  | .pulseLeadingEdge k => Sys2Proof.Machine.execPulseLeadingEdge k s
  | .pulseTrailingEdge k => Sys2Proof.Machine.execPulseTrailingEdge k s
  | .directWrite who p v => Sys2Proof.Machine.execDirectWrite who p v s
  | .writeSetAdd who p v => Sys2Proof.Machine.execWriteSetAdd who p v s
  | .bar2Read who a x => Sys2Proof.Machine.execBar2Read who a x s
  | .bar2Write who a n v => Sys2Proof.Machine.execBar2Write who a n v s
  | .clearSweepDone => Sys2Proof.Machine.execClearSweepDone s
  | .imgBegin who recipe => Sys2Proof.Machine.execImgBegin who recipe s
  | .imgCommit who t => Sys2Proof.Machine.execImgCommit who t s
  | .commitProcessing whole => Sys2Proof.Machine.execCommitProcessing whole s
  | .settleComplete t => Sys2Proof.Machine.execSettleComplete t s
  | .imgRollback who t => Sys2Proof.Machine.execImgRollback who t s
  | .pin who => Sys2Proof.Machine.execPin who s
  | .unpin who k => Sys2Proof.Machine.execUnpin who k s
  | .cowRecordsFreed => Sys2Proof.Machine.execCowRecordsFreed s
  | .cowWaitTimeout => Sys2Proof.Machine.execCowWaitTimeout s
  | .sampleProcessing d ecc => Sys2Proof.Machine.execSampleProcessing d ecc s
  | .sruExport who d n => Sys2Proof.Machine.execExport who d n s
  | .clear who d n => Sys2Proof.Machine.execClear who d n s
  | .latch who d n => Sys2Proof.Machine.execLatch who d n s
  | .sruEosQRead who d => Sys2Proof.Machine.execSruEosQRead who d s
  | .sruCtrl who d en => Sys2Proof.Machine.execSruCtrl who d en s
  | .selfCheckFailure d => Sys2Proof.Machine.execSelfCheckFailure d s
  | .pair who tag => Sys2Proof.Machine.execPair who tag s
  | .unpair who tag => Sys2Proof.Machine.execUnpair who tag s
  | .resync who tag => Sys2Proof.Machine.execResync who tag s
  | .reclaim who tag => Sys2Proof.Machine.execReclaim who tag s
  | .fail who tag => Sys2Proof.Machine.execFail who tag s
  | .ckptLoad who tag => Sys2Proof.Machine.execCkptLoad who tag s
  | .heartbeatPeriodEnd => Sys2Proof.Machine.execHeartbeatPeriodEnd s
  | .reclaimComplete p m => Sys2Proof.Machine.execReclaimComplete p m s
  | .join e => Sys2Proof.Machine.execJoin e s
  | .restoreTimeout p m => Sys2Proof.Machine.execRestoreTimeout p m s
  | .checkpointCopy => Sys2Proof.Machine.execCheckpointCopy s
  | .proxySerialFlush d k => Sys2Proof.Machine.execProxySerialFlush d k s
  | .wilernHeartbeatTimeout p => Sys2Proof.Machine.execWilernHeartbeatTimeout p s
  | .hostTxDescriptor => Sys2Proof.Machine.execHostTxDescriptor s
  | .mbxHrxHead who v => Sys2Proof.Machine.execMbxHrxHead who v s
  | .mbxHtxTail who v => Sys2Proof.Machine.execMbxHtxTail who v s
  | .mbxHostCfg who v => Sys2Proof.Machine.execMbxHostCfg who v s
  | .mbxSupNote who v => Sys2Proof.Machine.execMbxSupNote who v s
  | .spiWrite cmd a words cut => Sys2Proof.Machine.execSpiWrite cmd a words cut s
  | .spiRead cmd a n cut => Sys2Proof.Machine.execSpiRead cmd a n cut s
  | .mbxOpen who c depth dbit any allow => Sys2Proof.Machine.execOpen who c depth dbit any allow s
  | .close who c => Sys2Proof.Machine.execClose who c s
  | .revoke who c => Sys2Proof.Machine.execRevoke who c s
  | .send who c len remote => Sys2Proof.Machine.execSend who c len remote s
  | .ack who c code => Sys2Proof.Machine.execAck who c code s
  | .mbxAbort who k => Sys2Proof.Machine.execMbxAbort who k s
  | .mbxRing who t b => Sys2Proof.Machine.execMbxRing who t b s
  | .mbxDbmask who v => Sys2Proof.Machine.execMbxDbmask who v s
  | .islandSelfTestDone how => Sys2Proof.Machine.execIslandSelfTestDone how s
  | .islandCycle readback err => Sys2Proof.Machine.execIslandCycle readback err s
  | .safeInputSample seals a b => Sys2Proof.Machine.execSafeInputSample seals a b s
  | .modeMessage => Sys2Proof.Machine.execModeMessage s
  | .permitTimeout => Sys2Proof.Machine.execPermitTimeout s
  | .modeLineBoot => Sys2Proof.Machine.execModeLineBoot s
  | .stage => Sys2Proof.Machine.execStage s
  | .store readback => Sys2Proof.Machine.execStore readback s
  | .blackChannelPdu valid up speed sto => Sys2Proof.Machine.execBlackChannelPdu valid up speed sto s
  | .connectionLoss c => Sys2Proof.Machine.execConnectionLoss c s
  | .pduResend c => Sys2Proof.Machine.execPduResend c s
  | .channelReopen => Sys2Proof.Machine.execChannelReopen s
  | .darkTest k lowA lowB => Sys2Proof.Machine.execDarkTest k lowA lowB s
  | .islandWatchdog => Sys2Proof.Machine.execIslandWatchdog s
  | .osc => Sys2Proof.Machine.execOsc s
  | .lockstep => Sys2Proof.Machine.execLockstep s
  | .safeLowStoreBlock low => Sys2Proof.Machine.execSafeLowStoreBlock low s
  | .brownout => Sys2Proof.Machine.execBrownout s
  | .islandReset => Sys2Proof.Machine.execIslandReset s
  | .islandResetRelease => Sys2Proof.Machine.execIslandResetRelease s
  | .supplyMonitorAssert m => Sys2Proof.Machine.execSupplyMonitorAssert m s
  | .blockRelease => Sys2Proof.Machine.execBlockRelease s
  | .vmonUpdate core sram nv io => Sys2Proof.Machine.execVmonUpdate core sram nv io s
  | .nvRead who errs => Sys2Proof.Machine.execNvRead who errs s
  | .nvWrite who => Sys2Proof.Machine.execNvWrite who s
  | .nvCopy who rows => Sys2Proof.Machine.execNvCopy who rows s
  | .rowWriteDone => Sys2Proof.Machine.execRowWriteDone s
  | .otpKey who => Sys2Proof.Machine.execOtpKey who s
  | .otpRevoke who => Sys2Proof.Machine.execOtpRevoke who s
  | .otpFloor who => Sys2Proof.Machine.execOtpFloor who s
  | .otpProgramDone => Sys2Proof.Machine.execOtpProgramDone s
  | .bypass => Sys2Proof.Machine.execBypass s
  | .idcode => Sys2Proof.Machine.execIdcode s
  | .samplePreload => Sys2Proof.Machine.execSamplePreload s
  | .extest => Sys2Proof.Machine.execExtest s
  | .jtagTrstN low => Sys2Proof.Machine.execJtagTrstN low s
  | .registerRead who a n => Sys2Proof.Machine.execRegisterRead who a n s
  | .porstN => Sys2Proof.Machine.execPorstN s
  | .coreResetRelease => Sys2Proof.Machine.execCoreResetRelease s
  | .wurqEnd n => Sys2Proof.Machine.execWurqEnd n s
  | .ssiPauseEnd n => Sys2Proof.Machine.execSsiPauseEnd n s
  | .rxIdleTime n => Sys2Proof.Machine.execRxIdleTime n s
  | .encoderSample n a b z => Sys2Proof.Machine.execEncoderSample n a b z s
  | .slewingEnd => Sys2Proof.Machine.execSlewingEnd s

end Sys2Proof.Machine
end

