-- ==== Sys2Proof/Machine/Tick.lean ====
section
/-!
DEFINITION. One FCLK cycle, which passes when no command waits (log entry 1): the repeaters and the time base
advance, watchdogs count, what the last cycle brought is past, and what is due by a kept count of cycles happens.
-/

namespace Sys2Proof.Machine

/-- A watchdog counts in this cycle (R142, R143). -/
def State.wdCounts (s : State) (e : Nat) : Bool :=
  s.flag (Fld.CE_WDOG_EN e) && (s.engState e == 1 || (s.engState e == 2 && !s.flag (Fld.CE_WDOG_WAIT_STOP e)))

/-- One cycle of every watchdog. -/
def State.watchdogs (s : State) : State :=
  s.engines.foldl (fun (s : State) p =>
    if s.wdCounts p.1 ∧ 0 < p.2.wdCount then s.setEng p.1 { s.eng p.1 with wdCount := (s.eng p.1).wdCount - 1 } else s) s

/-- One FCLK cycle. In reset only the count of cycles goes on. -/
def State.tick (s : State) : State :=
  let s1 : State := { s with cycle := s.cycle + 1, now := {} }
  s1.live fun s => s.settleCans.timeCycle.watchdogs.buildRef.roundCycles.holdWindow.holdDynamic.serCycles.finishThrus.judgeBeats.imgCycle.endNvRead.answerReads

end Sys2Proof.Machine
end

