-- ==== Sys2Proof/Safety.lean ====
section
/-!
DEFINITION. What counts as a safe run: every step answers a next state.
-/

namespace Sys2Proof.Machine

/-- A run of `k` steps neither faults nor is refused. -/
def Safe (k : Nat) (s : State) : Prop := ∃ t, Sys2Proof.core.run k s = .next t

/-- The instruction memory, the data memory and the registers of an engine are in canonical form. -/
def Engine.wf (x : Engine) : Prop :=
  x.data.wf ∧ x.instr.wf ∧ Store.wf (fun _ => (0 : Word)) x.g = true

/-- The block's memories are in canonical form: registers, the memories of engines, the districts' SRAMs, the transmit
rings of the serial lines, the Crossing's frame buffer, MRAM, the boot window, host memory, the curve store, and the
island's safety MRAM and staging buffer. -/
def State.memWf (s : State) : Prop :=
  Store.wf (regReset s.variant) s.regs = true ∧ (∀ e, (s.eng e).wf) ∧ (∀ d, (s.dist d).sram.wf) ∧ (∀ n, (s.ser n).tx.wf) ∧
    s.xing.buffer.wf ∧ s.mram.wf ∧ s.bootMem.wf ∧ s.hostMem.wf ∧ s.curve.wf ∧ s.island.mram.wf ∧ s.island.staging.wf

/-- What the identity sends reaches the block: a PCIe function's crosses HCLK (R24). -/
def State.reaches (s : State) (who : Ident) : Bool := !(Ident.isHost who && decide (Ident.src who < 7) && s.clockGone 2)

/-- The block is out of reset, and it serves what the identity writes: in BOOT a host reaches SYS and PWR alone (R56). -/
def State.serves (s : State) (who : Ident) : Bool :=
  !s.inReset && s.reaches who && !(Ident.isHost who && s.mode == Mode.boot)

/-- No automatic transition is due (R49). -/
def State.noTransition (s : State) : Bool :=
  !(s.island.report && (s.mode == Mode.run || s.mode == Mode.degraded)) && !([0, 3, 4].any s.forceDue)

/-- Nothing of the identity's image accesses or reads waits, so its next read is answered at once (R453). -/
def State.readsAtOnce (s : State) (who : Ident) : Bool := s.imgIdle who && !(s.hostReads.any fun q => q.who == who)

/-- The block is out of reset, and a host function or the supervisor asks: what an engine may not command (R40). -/
def State.asks (s : State) (who : Ident) : Bool :=
  !s.inReset && s.reaches who && (Ident.isHost who || Ident.isSup who)

end Sys2Proof.Machine
end

