-- ==== Sys2Proof/Certificates/Slice0/Obligations.lean ====
section
/-!
DEFINITION. The statements about this block. Each docstring names the rules of spec/ that its statement follows; one
that rests on the model's own choice says so and names the log entry.
-/

open Sys2Proof Sys2Proof.Machine

/-! ### Engine instructions: arithmetic, logic, branches -/

/-- R79, R90 (ADD, SUB, MUL, MULH, MULHU, DIV, DIVU, REM, REMU, SATADD; ADDC, SUBB, ADDV, SUBV, NEGV): the N-bit result
of each goes to gd and the next instruction follows; N is 64 under WIDE. Where there is a second destination it gets 0
or 1 and is written last. -/
def Obligations.Arithmetic : Prop :=
  (∀ (s : State) (e : Nat) (wide : Bool) (d a b : GReg),
    s.ready e = true → s.fetched e (3 + bit wide) = true →
    (wide = true → oddReg d = false ∧ oddReg a = false ∧ oddReg b = false) →
    let n := opBits wide
    let x := s.rd e wide a
    let y := s.rd e wide b
    let sx := toSigned n x
    let sy := toSigned n y
    let runs (i : Instr) (v : Int) : Prop :=
      exec i s = .next ((s.wr e wide d (v % (2 ^ n : Nat)).toNat).advance e (3 + bit wide))
    runs (.add e wide d a b) (x + y) ∧
    runs (.sub e wide d a b) (x - y) ∧
    runs (.mul e wide d a b) (x * y) ∧
    runs (.mulh e wide d a b) (sx * sy / (2 ^ n : Nat)) ∧
    runs (.mulhu e wide d a b) ((x * y / 2 ^ n : Nat) : Int) ∧
    runs (.div e wide d a b)
      (if y = 0 then ((2 ^ n - 1 : Nat) : Int) else if x = 2 ^ (n - 1) ∧ sy = -1 then (x : Int) else sx.tdiv sy) ∧
    runs (.divu e wide d a b) (if y = 0 then ((2 ^ n - 1 : Nat) : Int) else ((x / y : Nat) : Int)) ∧
    runs (.rem e wide d a b)
      (if y = 0 then (x : Int) else if x = 2 ^ (n - 1) ∧ sy = -1 then 0 else sx - sy * sx.tdiv sy) ∧
    runs (.remu e wide d a b) (if y = 0 then (x : Int) else ((x % y : Nat) : Int)) ∧
    runs (.satadd e wide d a b)
      (if ((2 ^ (n - 1) : Nat) : Int) - 1 < sx + sy then ((2 ^ (n - 1) : Nat) : Int) - 1
        else if sx + sy < -((2 ^ (n - 1) : Nat) : Int) then ((2 ^ (n - 1) : Nat) : Int)
        else sx + sy)) ∧
  (∀ (s : State) (e : Nat) (wide : Bool) (d c a b : GReg),
    s.ready e = true → s.fetched e (3 + bit wide) = true →
    (wide = true → oddReg d = false ∧ oddReg a = false ∧ oddReg b = false) →
    let n := opBits wide
    let x := s.rd e wide a
    let y := s.rd e wide b
    let sx := toSigned n x
    let sy := toSigned n y
    let fits (t : Int) : Prop := -((2 ^ (n - 1) : Nat) : Int) ≤ t ∧ t < ((2 ^ (n - 1) : Nat) : Int)
    let runs (i : Instr) (v : Int) (one : Prop) : Prop :=
      ∃ w : Word, (w = 1 ↔ one) ∧ (w = 0 ↔ ¬one) ∧
        exec i s = .next (((s.wr e wide d (v % (2 ^ n : Nat)).toNat).setGreg e c w).advance e (3 + bit wide))
    runs (.addc e wide d c a b) (x + y) (2 ^ n ≤ x + y) ∧
    runs (.subb e wide d c a b) (x - y) (x < y) ∧
    runs (.addv e wide d c a b) (x + y) (¬fits (sx + sy)) ∧
    runs (.subv e wide d c a b) (x - y) (¬fits (sx - sy)) ∧
    runs (.negv e wide d c a) (-x) (x = 2 ^ (n - 1)))

/-- R90 (MOV, NEG, NOT, AND, OR, XOR, ANDN, SEL; CEQ, CNE, CLT, CLTU, CGE, CGEU and the immediate compares): a compare
writes 1 or 0 to the single register gd, which may be odd under WIDE. -/
def Obligations.LogicAndCompares : Prop :=
  (∀ (s : State) (e : Nat) (wide : Bool) (d c a b : GReg),
    s.ready e = true → s.fetched e (3 + bit wide) = true →
    (wide = true → oddReg d = false ∧ oddReg a = false ∧ oddReg b = false) →
    let n := opBits wide
    let x := s.rd e wide a
    let y := s.rd e wide b
    let runs (i : Instr) (v len : Nat) : Prop := exec i s = .next ((s.wr e wide d v).advance e (len + bit wide))
    runs (.mov e wide d a) x 2 ∧
    runs (.neg e wide d a) ((2 ^ n - x) % 2 ^ n) 2 ∧
    runs (.not e wide d a) (2 ^ n - 1 - x) 2 ∧
    runs (.and e wide d a b) (x &&& y) 3 ∧
    runs (.or e wide d a b) (x ||| y) 3 ∧
    runs (.xor e wide d a b) (x ^^^ y) 3 ∧
    runs (.andn e wide d a b) (x &&& (2 ^ n - 1 - y)) 3 ∧
    runs (.sel e wide d c a b) (if s.greg e c = 0 then y else x) 3) ∧
  (∀ (s : State) (e : Nat) (wide : Bool) (d a b : GReg) (imm : BitVec 16) (ext : Bool),
    s.ready e = true → s.fetched e (4 + bit ext + bit wide) = true →
    (wide = true → oddReg a = false ∧ oddReg b = false) →
    let n := opBits wide
    let x := s.rd e wide a
    let y := s.rd e wide b
    let z := immValue n (.i16 imm ext)
    let runs (i : Instr) (holds : Prop) (len : Nat) : Prop :=
      (holds → exec i s = .next ((s.setGreg e d 1).advance e len)) ∧
      (¬holds → exec i s = .next ((s.setGreg e d 0).advance e len))
    runs (.ceq e wide d a b) (x = y) (3 + bit wide) ∧
    runs (.cne e wide d a b) (x ≠ y) (3 + bit wide) ∧
    runs (.clt e wide d a b) (toSigned n x < toSigned n y) (3 + bit wide) ∧
    runs (.cltu e wide d a b) (x < y) (3 + bit wide) ∧
    runs (.cge e wide d a b) (toSigned n y ≤ toSigned n x) (3 + bit wide) ∧
    runs (.cgeu e wide d a b) (y ≤ x) (3 + bit wide) ∧
    runs (.ceqi e wide d a imm ext) (x = z) (4 + bit ext + bit wide) ∧
    runs (.clti e wide d a imm ext) (toSigned n x < toSigned n z) (4 + bit ext + bit wide) ∧
    runs (.cltui e wide d a imm ext) (x < z) (4 + bit ext + bit wide))

/-- R90 (SHL, SHR, SAR, ROL, ROT and their immediate forms): the count is a single register or 8 bits, and counts
of N and more give what Table ISA-7 gives. -/
def Obligations.ShiftsAndRotates : Prop :=
  ∀ (s : State) (e : Nat) (wide : Bool) (d a b : GReg) (k : BitVec 8),
    s.ready e = true → s.fetched e (3 + bit wide) = true →
    (wide = true → oddReg d = false ∧ oddReg a = false) →
    let n := opBits wide
    let x := s.rd e wide a
    let runs (i : Instr) (v : Nat) : Prop := exec i s = .next ((s.wr e wide d v).advance e (3 + bit wide))
    let shl (g : Nat) : Nat := if n ≤ g then 0 else x <<< g % 2 ^ n
    let shr (g : Nat) : Nat := if n ≤ g then 0 else x >>> g
    let sar (g : Nat) : Nat :=
      if n ≤ g then (if toSigned n x < 0 then 2 ^ n - 1 else 0)
      else (toSigned n x / (2 ^ g : Nat) % (2 ^ n : Nat)).toNat
    let rol (g : Nat) : Nat := (x <<< (g % n) % 2 ^ n) ||| (x >>> (n - g % n))
    let rot (g : Nat) : Nat := (x >>> (g % n)) ||| (x <<< (n - g % n) % 2 ^ n)
    let g := (s.greg e b).toNat
    runs (.shl e wide d a b) (shl g) ∧ runs (.shli e wide d a k) (shl k.toNat) ∧
    runs (.shr e wide d a b) (shr g) ∧ runs (.shri e wide d a k) (shr k.toNat) ∧
    runs (.sar e wide d a b) (sar g) ∧ runs (.sari e wide d a k) (sar k.toNat) ∧
    runs (.rol e wide d a b) (rol g) ∧ runs (.roli e wide d a k) (rol k.toNat) ∧
    runs (.rot e wide d a b) (rot g) ∧ runs (.roti e wide d a k) (rot k.toNat)

/-- R85, R90 (MOVI, ADDI, ANDI, ORI, XORI, MULI, SATADDI): the signed immediate is sign-extended to N bits, or
zero-extended under EXT, and takes the place of B. -/
def Obligations.ImmediateForms : Prop :=
  ∀ (s : State) (e : Nat) (wide : Bool) (d a : GReg) (imm : Imm) (v : BitVec 16) (ext : Bool),
    s.ready e = true → s.fetched e (immLen imm + bit wide) = true → s.fetched e (4 + bit ext + bit wide) = true →
    (wide = true → oddReg d = false ∧ oddReg a = false) →
    let n := opBits wide
    let x := s.rd e wide a
    let extended (i : Imm) : Nat :=
      match i with
      | .i8 w z => if z then w.toNat else (w.toInt % (2 ^ n : Nat)).toNat
      | .i16 w z => if z then w.toNat else (w.toInt % (2 ^ n : Nat)).toNat
      | .i32 w => (w.toInt % (2 ^ n : Nat)).toNat
    let y := extended (.i16 v ext)
    let t := toSigned n x + toSigned n y
    let runs (i : Instr) (r : Nat) : Prop := exec i s = .next ((s.wr e wide d r).advance e (4 + bit ext + bit wide))
    exec (.movi e wide d imm) s = .next ((s.wr e wide d (extended imm)).advance e (immLen imm + bit wide)) ∧
    exec (.addi e wide d a imm) s =
      .next ((s.wr e wide d ((x + extended imm) % 2 ^ n)).advance e (immLen imm + bit wide)) ∧
    runs (.andi e wide d a v ext) (x &&& y) ∧
    runs (.ori e wide d a v ext) (x ||| y) ∧
    runs (.xori e wide d a v ext) (x ^^^ y) ∧
    runs (.muli e wide d a v ext) (x * y % 2 ^ n) ∧
    runs (.sataddi e wide d a v ext)
      (if ((2 ^ (n - 1) : Nat) : Int) - 1 < t then 2 ^ (n - 1) - 1
        else if t < -((2 ^ (n - 1) : Nat) : Int) then 2 ^ (n - 1)
        else (t % (2 ^ n : Nat)).toNat)

/-- R92 (BFX, BFI, CLZ, POPC, BSWAP), bit by bit; a field with a bit of 15–13 set is ILLEGAL, IMM_RSV (Table ISA-13). -/
def Obligations.BitInstructions : Prop :=
  ∀ (s : State) (e : Nat) (wide : Bool) (d a : GReg) (field : BitVec 16),
    s.ready e = true → s.fetched e (4 + bit wide) = true →
    (wide = true → oddReg d = false ∧ oddReg a = false) →
    let n := opBits wide
    let x := s.rd e wide a
    let y := s.rd e wide d
    let lsb := field.toNat % 64
    let width := field.toNat / 64 % 128
    (0x2000 ≤ field.toNat →
      exec (.bfx e wide d a field) s = .next (s.illegal e 8 (3 + bit wide)) ∧
      exec (.bfi e wide d a field) s = .next (s.illegal e 8 (3 + bit wide))) ∧
    (field.toNat < 0x2000 → ∃ v, exec (.bfx e wide d a field) s = .next ((s.wr e wide d v).advance e (4 + bit wide)) ∧
      ∀ k, k < n → v.testBit k = (decide (k < width ∧ lsb + k < n) && x.testBit (lsb + k))) ∧
    (field.toNat < 0x2000 → ∃ v, exec (.bfi e wide d a field) s = .next ((s.wr e wide d v).advance e (4 + bit wide)) ∧
      ∀ k, k < n → v.testBit k = if lsb ≤ k ∧ k < lsb + width then x.testBit (k - lsb) else y.testBit k) ∧
    (∃ v, exec (.clz e wide d a) s = .next ((s.wr e wide d v).advance e (2 + bit wide)) ∧
      v ≤ n ∧ (∀ k, k < n → n - v ≤ k → x.testBit k = false) ∧ (v < n → x.testBit (n - v - 1) = true)) ∧
    (∃ v, exec (.popc e wide d a) s = .next ((s.wr e wide d v).advance e (2 + bit wide)) ∧
      v = ((List.range n).filter fun k => x.testBit k).length) ∧
    (∃ v, exec (.bswap e wide d a) s = .next ((s.wr e wide d v).advance e (2 + bit wide)) ∧
      ∀ k, k < n / 8 → v / 256 ^ k % 256 = x / 256 ^ (n / 8 - 1 - k) % 256)

/-- R84, R93, R95, R112 (NOP, LEA, B, BZ, BNZ, CALL, BR, CALLR, RET): addresses wrap modulo 2^32, a target is the
next instruction's address plus the displacement, and CALL and CALLR write the return address to g14. -/
def Obligations.BranchesAndAddresses : Prop :=
  ∀ (s : State) (e : Nat) (d a b : GReg) (disp : Disp) (far : BitVec 32),
    s.ready e = true → s.fetched e 6 = true →
    let next (len : Nat) : Word := s.pc e + BitVec.ofNat 32 len
    let target : Word := next (dispLen disp) + BitVec.ofInt 32 (dispValue disp)
    exec (.nop e) s = .next (s.goto e (next 2)) ∧
    exec (.lea e d b far) s = .next ((s.setGreg e d (s.greg e b + far)).goto e (next 6)) ∧
    exec (.b e disp) s = .next (s.goto e target) ∧
    exec (.bz e a disp) s = .next (s.goto e (if s.greg e a = 0 then target else next (dispLen disp))) ∧
    exec (.bnz e a disp) s = .next (s.goto e (if s.greg e a = 0 then next (dispLen disp) else target)) ∧
    exec (.call e disp) s = .next ((s.setGreg e 14 (next (dispLen disp))).goto e target) ∧
    exec (.br e a) s = .next (s.goto e (s.greg e a)) ∧
    exec (.callr e a) s = .next ((s.setGreg e 14 (next 2)).goto e (s.greg e a)) ∧
    exec (.ret e) s = .next (s.goto e (s.greg e 14))

/-- R78, R77: g0 and pair 0 read 0 and discard a write, g1 included; an even gn names the pair gn+1:gn with the low word
in gn; a write of one register leaves the others. An odd register named as a 64-bit operand does not execute. -/
def Obligations.RegisterFile : Prop :=
  ∀ (s : State) (e : Nat) (r q : GReg) (v : Word) (x : Nat),
    s.greg e 0 = 0 ∧ s.setGreg e 0 v = s ∧ s.rd e true 0 = 0 ∧ s.wr e true 0 x = s ∧
    (r ≠ 0 → oddReg r = false →
      s.rd e true r = (s.greg e (r + 1)).toNat * 2 ^ 32 + (s.greg e r).toNat) ∧
    (r ≠ 0 → (s.setGreg e r v).greg e r = v) ∧
    (q ≠ r → (s.setGreg e r v).greg e q = s.greg e q) ∧
    (r ≠ 0 → oddReg r = false →
      (s.wr e true r x).rd e true r = x % 2 ^ 64 ∧
      (s.wr e true r x).greg e r = BitVec.ofNat 32 x ∧ (s.wr e true r x).greg e (r + 1) = BitVec.ofNat 32 (x / 2 ^ 32)) ∧
    (∀ (d b : GReg), oddReg r = true → s.ready e = true → s.fetched e 4 = true →
      exec (.add e true r d b) s = .next (s.illegal e 0xB 2))

/-- The frames of the instructions of Table ISA-6's operations and of the branches (R112, R95): only gd (the pair under
WIDE), gc where the instruction has a second destination, g14 where a branch calls, the program counter and what the
last RETE left there change, in the one engine. -/
def Obligations.InstructionFrames : Prop :=
  (∀ (s t : State) (e : Nat) (wide ext : Bool) (d c a b : GReg) (imm : Imm) (v : BitVec 16) (k : BitVec 8) (i : Instr),
    let plain := [Instr.add e wide d a b, .sub e wide d a b, .mul e wide d a b, .mulh e wide d a b, .mulhu e wide d a b,
      .div e wide d a b, .divu e wide d a b, .rem e wide d a b, .remu e wide d a b, .satadd e wide d a b,
      .mov e wide d a, .neg e wide d a, .not e wide d a, .and e wide d a b, .or e wide d a b, .xor e wide d a b,
      .andn e wide d a b, .sel e wide d c a b, .shl e wide d a b, .shr e wide d a b, .sar e wide d a b,
      .rol e wide d a b, .rot e wide d a b, .shli e wide d a k, .shri e wide d a k, .sari e wide d a k,
      .roli e wide d a k, .roti e wide d a k, .movi e wide d imm, .addi e wide d a imm, .andi e wide d a v ext,
      .ori e wide d a v ext, .xori e wide d a v ext, .muli e wide d a v ext, .sataddi e wide d a v ext,
      .bfx e wide d a v, .bfi e wide d a v, .clz e wide d a, .popc e wide d a, .bswap e wide d a,
      .ceq e wide d a b, .cne e wide d a b, .clt e wide d a b, .cltu e wide d a b, .cge e wide d a b, .cgeu e wide d a b,
      .ceqi e wide d a v ext, .clti e wide d a v ext, .cltui e wide d a v ext]
    let double := [Instr.addc e wide d c a b, .subb e wide d c a b, .addv e wide d c a b, .subv e wide d c a b,
      .negv e wide d c a]
    i ∈ plain ++ double →
    s.ready e = true → s.fetched e 15 = true → v.toNat < 0x2000 →
    (wide = true → oddReg d = false ∧ oddReg a = false ∧ oddReg b = false) →
    exec i s = .next t →
    t = { s with engines := t.engines } ∧
    (∀ x, x ≠ e → t.eng x = s.eng x) ∧
    t.eng e = { s.eng e with g := (t.eng e).g, pc := (t.eng e).pc, returned := none, midRep := false } ∧
    (∀ r : GReg, r ≠ d → ¬(wide = true ∧ r = d + 1) → (i ∈ plain ∨ r ≠ c) → t.greg e r = s.greg e r)) ∧
  (∀ (s t : State) (e : Nat) (a : GReg) (disp : Disp) (i : Instr),
    i ∈ [Instr.nop e, .b e disp, .bz e a disp, .bnz e a disp, .br e a, .ret e, .call e disp, .callr e a] →
    s.ready e = true → s.fetched e 6 = true → exec i s = .next t →
    t = { s with engines := t.engines } ∧
    (∀ x, x ≠ e → t.eng x = s.eng x) ∧
    t.eng e = { s.eng e with g := (t.eng e).g, pc := (t.eng e).pc, returned := none, midRep := false } ∧
    (∀ r : GReg, r ≠ 14 → t.greg e r = s.greg e r) ∧
    (i ≠ .call e disp → i ≠ .callr e a → (t.eng e).g = (s.eng e).g))

/-! ### Engine instructions: memory -/

/-- R93, R102 (LD, LDS, ST, STI in LOCAL): a load takes its bytes, least significant first, zero- or sign-extended; a
store changes the stored bytes of data SRAM alone, at the address its operands give, and a load no byte at all. -/
def Obligations.LocalMemory : Prop :=
  (∀ (s : State) (e : Nat) (size : Size) (g b : GReg) (disp : Disp) (far imm : BitVec 32),
    let len := sizePrefix size + dispLen disp
    let a := effAddr (s.greg e b) (dispValue disp)
    let a' := effAddr (s.greg e b) far.toInt
    let n := sizeBytes size
    let wide := size == .wide
    let mem := (s.eng e).data
    let inWindow (a : Nat) : Prop :=
      b = 15 → s.fld (Fld.CE_STACK_BASE_BASE e) ≤ a ∧ a + n ≤ s.fld (Fld.CE_STACK_LIMIT_LIMIT e)
    let becomes (i : Instr) (u : State) : Prop :=
      ∃ t, exec i s = .next t ∧ t = { s with engines := t.engines } ∧ ∀ x, t.eng x = u.eng x
    s.ready e = true → s.fetched e len = true → (wide = true → oddReg g = false) →
    a + n ≤ 0x10000 → inWindow a → (s.eng e).returned = none → (s.eng e).posted = [] →
    becomes (.ld e size none g b disp) ((s.wr e wide g (mem.readLE a n)).advance e len) ∧
    (wide = false →
      becomes (.lds e size none g b disp)
        ((s.wr e false g (ofSigned 32 (toSigned (8 * n) (mem.readLE a n)))).advance e len)) ∧
    becomes (.st e size none g b disp)
      ((s.setEng e { s.eng e with data := mem.writeLE a n (s.rd e wide g) }).advance e len) ∧
    (s.fetched e (sizePrefix size + 10) = true → a' + n ≤ 0x10000 → inWindow a' →
      becomes (.sti e size none b far imm)
        ((s.setEng e { s.eng e with data := mem.writeLE a' n (imm.toInt % (2 ^ 64 : Nat)).toNat }).advance e
          (sizePrefix size + 10)))) ∧
  (∀ (s t : State) (e : Nat) (size : Size) (g b : GReg) (disp : Disp),
    let a := effAddr (s.greg e b) (dispValue disp)
    let n := sizeBytes size
    s.ready e = true → s.fetched e 15 = true → (size = .wide → oddReg g = false) →
    a + n ≤ 0x10000 → b ≠ 15 → (s.eng e).returned = none → (s.eng e).posted = [] →
    (exec (.st e size none g b disp) s = .next t →
      t = { s with engines := t.engines } ∧ (∀ x, x ≠ e → t.eng x = s.eng x) ∧
      (t.eng e).g = (s.eng e).g ∧ (t.eng e).instr = (s.eng e).instr ∧ (t.eng e).posted = [] ∧
      (∀ x, x < a ∨ a + n ≤ x → (t.eng e).data.read x = (s.eng e).data.read x) ∧
      (t.eng e).data.readLE a n = s.rd e (size == .wide) g % 256 ^ n) ∧
    (exec (.ld e size none g b disp) s = .next t →
      t = { s with engines := t.engines } ∧ (∀ x, x ≠ e → t.eng x = s.eng x) ∧
      (t.eng e).data = (s.eng e).data ∧ (t.eng e).instr = (s.eng e).instr ∧
      (∀ r : GReg, r ≠ g → ¬(size = .wide ∧ r = g + 1) → t.greg e r = s.greg e r)))

/-- R104, R535 (POSTED_STORE_COMPLETION): a store outside LOCAL is posted when the queue has room, changes nothing at its
target at issue, and the instruction completes; it changes its target when it completes, after every earlier posted
store of its space; in a LOCK region held by another it changes nothing and an ACCESS entry is due. -/
def Obligations.PostedStores : Prop :=
  (∀ (s : State) (e : Nat) (size : Size) (sp : Space) (g b : GReg) (disp : Disp),
    let len := sizePrefix size + 1 + dispLen disp
    let a := effAddr (s.greg e b) (dispValue disp)
    let n := sizeBytes size
    let v := s.rd e (size == .wide) g
    sp ≠ .engineLocal → s.ready e = true → s.fetched e len = true → (size = .wide → oddReg g = false) →
    s.checkStore e sp a n v (b == 15) = none → State.inAperture sp a = false → (s.eng e).posted.length < 8 →
    exec (.st e size (some sp) g b disp) s =
      .next ((s.setEng e { s.eng e with posted := (s.eng e).posted ++ [.store sp a n (v % 256 ^ n)] }).advance e len)) ∧
  (∀ (s : State) (e k a n v : Nat),
    s.inReset = false → (s.eng e).posted[k]? = some (.store .district a n v) → a + n ≤ 0x400000 →
    let rest : State := s.setEng e { s.eng e with posted := (s.eng e).posted.eraseIdx k }
    ((((s.eng e).posted.take k).any fun p => p.inSpace .district) = true →
      exec (.postedStoreCompletion e k) s = .next s) ∧
    ((((s.eng e).posted.take k).any fun p => p.inSpace .district) = false → 0 < n →
      (rest.sramWritable (e / 12) a n (rest.engIdent e) = true →
        ∃ t, exec (.postedStoreCompletion e k) s = .next t ∧
          (t.dist (e / 12)).sram = (s.dist (e / 12)).sram.writeLE a n v ∧ t.eng e = rest.eng e) ∧
      (rest.sramWritable (e / 12) a n (rest.engIdent e) = false → s.awake e = true →
        ∃ t, exec (.postedStoreCompletion e k) s = .next t ∧
          t.dist (e / 12) = s.dist (e / 12) ∧ t.entryDue e = true ∧
          (t.eng e).refused = (s.eng e).refused ++ [{ space := .district, addr := a, bytes := n }])))

/-- R102, R103, R138 (checks at issue): the exception of a failing LOCAL or IMAGE access, with the first of ABSENT,
ACCESS, ALIGN and STACK that applies; the memory of the engine stays as it was. -/
def Obligations.AccessChecks : Prop :=
  ∀ (s : State) (e : Nat) (g b : GReg) (disp : Disp),
    let a := effAddr (s.greg e b) (dispValue disp)
    s.ready e = true → s.fetched e 15 = true → (s.eng e).returned = none → (s.eng e).stack = [] →
    let faults (i : Instr) (vector cause : Nat) : Prop :=
      ∃ t, exec i s = .next t ∧ (t.eng e).pc = BitVec.ofNat 32 (vector * 16) ∧
        (t.eng e).data = (s.eng e).data ∧ t.greg e g = s.greg e g ∧
        t.reg (Reg.CE_FAULT_ADDR e) = BitVec.ofNat 32 a ∧
        ∃ r, (t.eng e).stack = [r] ∧ r.retPC = s.pc e ∧ r.cause = BitVec.ofNat 32 (vector + cause)
    -- a store into instruction SRAM, or beyond LOCAL, whatever the stack window
    (0x10000 < a + 4 → faults (.st e .word none g b disp) 3 (0x400 + 0x4000)) ∧
    -- a load beyond LOCAL
    (0x20000 < a + 4 → faults (.ld e .word none g b disp) 3 0x4000) ∧
    -- a base of g15 outside the stack window, inside LOCAL
    (b = 15 → a + 4 ≤ 0x10000 → a < s.fld (Fld.CE_STACK_BASE_BASE e) →
      faults (.ld e .word none g b disp) 5 0x4000) ∧
    -- a misaligned load inside IMAGE, and one that is both misaligned and outside
    (a + 4 ≤ s.variant.points * 16 → a % 4 ≠ 0 → faults (.ld e .word (some .image) g b disp) 4 (0x200 + 0x4000)) ∧
    (s.variant.points * 16 < a + 4 → a < 0x40000000 → faults (.ld e .word (some .image) g b disp) 3 (0x200 + 0x4000))

/-- R94 (SWP, CAS, CASX, FADD, FAND, FOR, FXOR): the old element goes to gd, the new one to district SRAM, as one
operation. -/
def Obligations.AtomicGroup : Prop :=
  ∀ (s : State) (e : Nat) (wide : Bool) (d a b : GReg) (disp imm : BitVec 32),
    let n := if wide then 8 else 4
    let x := s.rd e wide a
    let dist := e / 12
    s.ready e = true → s.fetched e (14 + bit wide) = true → (wide = true → oddReg d = false ∧ oddReg a = false) →
    (s.eng e).returned = none → (s.eng e).posted = [] →
    let runs (i : Instr) (p len : Nat) (new : Nat → Nat) : Prop :=
      p + n ≤ 0x400000 → s.sramBad dist p n = false → s.sramWritable dist p n (s.engIdent e) = true →
      let old := s.sramRead dist p n
      ∃ t, exec i s = .next t ∧ t.rd e wide d = (if d = 0 then 0 else old) ∧
        t.sramRead dist p n = new old % 256 ^ n ∧ t.pc e = s.pc e + BitVec.ofNat 32 len ∧
        (∀ y, y < p ∨ p + n ≤ y → (t.dist dist).sram.read y = (s.dist dist).sram.read y)
    let p := (s.greg e b).toNat
    runs (.swp e wide d a b) p (6 + bit wide) (fun _ => x) ∧
    runs (.fadd e wide d a b) p (6 + bit wide) (fun old => old + x) ∧
    runs (.fand e wide d a b) p (6 + bit wide) (fun old => old &&& x) ∧
    runs (.fetchOr e wide d a b) p (6 + bit wide) (fun old => old ||| x) ∧
    runs (.fxor e wide d a b) p (6 + bit wide) (fun old => old ^^^ x) ∧
    runs (.cas e wide d a b) p (6 + bit wide) (fun old => if old = s.rd e wide d then x else old) ∧
    runs (.casx e wide d a b disp imm) (s.greg e b + disp).toNat (14 + bit wide)
      (fun old => if old = (imm.toInt % (2 ^ opBits wide : Nat)).toNat then x else old)

/-- R96, R97 (MOVS, FILL, SCAN, CMPS, CRCS): one element in LOCAL; without a repeat prefix the instruction ends, and
under REP with g12 = 0 no element is done. -/
def Obligations.StringElements : Prop :=
  ∀ (s : State) (e : Nat) (d a : GReg) (k : Nat),
    s.ready e = true → s.fetched e 15 = true → (s.eng e).returned = none →
    stringReg d = false → stringReg a = false → k < 4 →
    let from' := (s.greg e 10).toNat
    let to' := (s.greg e 11).toNat
    let mem := (s.eng e).data
    let ended (t : State) (len : Nat) : Prop :=
      t.greg e 12 = s.greg e 12 - 1 ∧ t.pc e = s.pc e + BitVec.ofNat 32 len
    from' + 4 ≤ 0x10000 → to' + 4 ≤ 0x10000 →
    (∃ t, exec (.movs e .word .once none .engineLocal) s = .next t ∧ ended t 2 ∧
      (t.eng e).data = mem.writeLE to' 4 (mem.readLE from' 4) ∧
      t.greg e 10 = s.greg e 10 + 4 ∧ t.greg e 11 = s.greg e 11 + 4) ∧
    (∃ t, exec (.fill e .half .once none a) s = .next t ∧ ended t 3 ∧
      (t.eng e).data = mem.writeLE to' 2 (s.greg e a).toNat ∧ t.greg e 10 = s.greg e 10 ∧
      t.greg e 11 = s.greg e 11 + 2) ∧
    (∃ t, exec (.scan e .byte .once none d a) s = .next t ∧ ended t 3 ∧ (t.eng e).data = mem ∧
      (d ≠ 0 → t.greg e d = if mem.readLE from' 1 = (s.greg e a).toNat % 256 then 1 else 0) ∧
      t.greg e 10 = s.greg e 10 + 1 ∧ t.greg e 11 = s.greg e 11) ∧
    (∃ t, exec (.cmps e .word .once none d .engineLocal) s = .next t ∧ ended t 2 ∧ (t.eng e).data = mem ∧
      (d ≠ 0 → t.greg e d = if mem.readLE from' 4 = mem.readLE to' 4 then 1 else 0) ∧
      t.greg e 10 = s.greg e 10 + 4 ∧ t.greg e 11 = s.greg e 11 + 4) ∧
    (∃ t, exec (.crcs e .byte .once none d (BitVec.ofNat 8 k)) s = .next t ∧ ended t 4 ∧ (t.eng e).data = mem ∧
      (d ≠ 0 → (t.greg e d).toNat = s.crcByte e k (s.greg e d).toNat (mem.read from')) ∧
      t.greg e 10 = s.greg e 10 + 1) ∧
    (s.greg e 12 = 0 → exec (.movs e .word .rep none .engineLocal) s = .next (s.advance e 3)) ∧
    (s.greg e 12 ≠ 0 → s.greg e 12 ≠ 1 → ∃ t, exec (.movs e .word .rep none .engineLocal) s = .next t ∧
      t.pc e = s.pc e ∧ t.greg e 12 = s.greg e 12 - 1 ∧ t.greg e 10 = s.greg e 10 + 4)

/-- R98, Table ISA-10: the four check values over "123456789", from the tables at reset. -/
def Obligations.CrcCheckValues : Prop :=
  ∀ e, e < 96 →
    let text : List Byte := [0x31, 0x32, 0x33, 0x34, 0x35, 0x36, 0x37, 0x38, 0x39]
    let fold (k c : Nat) : Nat := text.foldl (fun c b => State.reset.crcByte e k c b) c
    fold 0 0xFFFFFFFF ^^^ 0xFFFFFFFF = 0xCBF43926 ∧ fold 1 0xFFFFFFFF ^^^ 0xFFFFFFFF = 0xE3069283 ∧
    fold 2 0xFFFF = 0x4B37 ∧ fold 3 0xFFFF = 0x29B1

/-! ### Engine instructions: district, system, events -/

/-- R100, R161, R362, R403 (STMP, TSQP, SRUP, RNDRD): the time repeater one cycle after issue, an entry of the time-stamp
queue or NO_RESOURCE, a sample taken, before those of later engines of the same cycle, or BUSY, and a Round word as the
station last saw it. -/
def Obligations.DistrictInstructions : Prop :=
  ∀ (s : State) (e : Nat) (d a b : GReg) (w : BitVec 8),
    let dist := e / 12
    let p := (s.greg e a).toNat
    s.ready e = true → s.fetched e 3 = true → d ≠ 0 →
    (∃ t, exec (.stmp e false d) s = .next t ∧
      t.greg e d = BitVec.ofNat 32 (s.nextRepeater dist % 4000000000) ∧ t.pc e = s.pc e + 2) ∧
    (s.fld (Fld.TSQ_STAT_COUNT dist) < 1024 →
      ∃ t, exec (.tsqp e d a b) s = .next t ∧ t.greg e d = 0 ∧ t.pc e = s.pc e + 3 ∧
        t.fld (Fld.TSQ_STAT_COUNT dist) = s.fld (Fld.TSQ_STAT_COUNT dist) + 1) ∧
    (1024 ≤ s.fld (Fld.TSQ_STAT_COUNT dist) →
      ∃ t, exec (.tsqp e d a b) s = .next t ∧ t.fld (Fld.TSQ_STAT_COUNT dist) = s.fld (Fld.TSQ_STAT_COUNT dist)) ∧
    (s.variant.hasSru = true → p + 20 ≤ 0x10000 → (s.sru dist).inq.length < 64 →
      ∃ t, exec (.srup e d a) s = .next t ∧ t.greg e d = 0 ∧ t.pc e = s.pc e + 2 ∧
        let inq := (s.sru dist).inq
        let k := inq.length - (s.now.samplers.filter fun f => f / 12 == dist && decide (e < f)).length
        (t.sru dist).inq = inq.take k ++
          [[0, 4, 8, 12, 16].map fun k => BitVec.ofNat 32 ((s.eng e).data.readLE (p + k) 4)] ++ inq.drop k) ∧
    (s.variant.hasSru = true → p + 20 ≤ 0x10000 → 64 ≤ (s.sru dist).inq.length →
      ∃ t, exec (.srup e d a) s = .next t ∧ t.greg e d = 2 ∧ (t.sru dist).inq = (s.sru dist).inq) ∧
    (w.toNat < 64 →
      exec (.rndrd e d w) s =
        .next ((s.setGreg e d
          (Store.get (fun _ => 0) (s.dist dist).seen ((e % 12 + 1) * 64 + w.toNat))).advance e 3))

/-- R161, R162 (RNDWR, RNDOP): the word waits for the next passage; an operation merges with a pending one of the
same kind and replaces one of another kind, counted. -/
def Obligations.RoundWrites : Prop :=
  ∀ (s : State) (e : Nat) (a : GReg) (w : BitVec 8) (k : Nat),
    let dist := e / 12
    let st := e % 12 + 1
    let v := s.greg e a
    s.ready e = true → s.fetched e 4 = true →
    (w.toNat < 64 → s.mayWriteWord dist st w.toNat = true →
      ∃ t, exec (.rndwr e a w) s = .next t ∧ t.pc e = s.pc e + 3 ∧
        Store.get (fun _ => none) (t.dist dist).pendW (st * 64 + w.toNat) = some v) ∧
    (48 ≤ k → k < 64 →
      let slot (x : State) := Store.get (fun _ => none) (x.dist dist).pendOp (st * 64 + k)
      (slot s = none → ∃ t, exec (.rndop e a (BitVec.ofNat 16 (k + 0x200))) s = .next t ∧ t.pc e = s.pc e + 4 ∧
        slot t = some { op := .add, value := v }) ∧
      (∀ y, slot s = some { op := .add, value := y } →
        ∃ t, exec (.rndop e a (BitVec.ofNat 16 (k + 0x200))) s = .next t ∧
          slot t = some { op := .add, value := y + v } ∧
            t.fld (Fld.RND_FAULT_OP_OVR dist) = s.fld (Fld.RND_FAULT_OP_OVR dist)) ∧
      (∀ y, slot s = some { op := .or, value := y } → s.fld (Fld.RND_FAULT_OP_OVR dist) = 0 →
        ∃ t, exec (.rndop e a (BitVec.ofNat 16 (k + 0x200))) s = .next t ∧
          slot t = some { op := .add, value := v } ∧ t.fld (Fld.RND_FAULT_OP_OVR dist) = 1))

/-- R101, R140 (WAIT, EVT, FENCE, DBELL) and R110 (TRAP). -/
def Obligations.SystemInstructions : Prop :=
  ∀ (s : State) (e : Nat) (a : GReg) (line b code : BitVec 8),
    s.ready e = true → s.fetched e 4 = true → e < 96 →
    ((s.eng e).posted = [] →
      (∃ t, exec (.wait e) s = .next t ∧ t.engState e = 2 ∧ t.pc e = s.pc e + 2) ∧
      (∃ t, exec (.fence e) s = .next t ∧ t.pc e = s.pc e + 2 ∧ t = { s with engines := t.engines })) ∧
    (line.toNat < 32 → (s.greg e a).toNat < 12 →
      let x := e / 12 * 12 + (s.greg e a).toNat
      s.engState x ≠ 0 →
      ∃ t, exec (.evt e a line) s = .next t ∧ (t.eng x).evtPend.getLsbD line.toNat = true ∧ t.pc e = s.pc e + 3) ∧
    (b.toNat < 32 → s.targetPresent ((s.greg e a).setWidth 16) = true → (s.eng e).posted.length < 8 →
      ∃ t, exec (.dbell e a b) s = .next t ∧ t.pc e = s.pc e + 3 ∧
        (t.eng e).posted = (s.eng e).posted ++ [.doorbell ((s.greg e a).setWidth 16) b.toNat]) ∧
    ((s.eng e).stack.length < 8 → (s.innermost e = 0 ∨ 7 ≤ s.innermost e) →
      ∃ t r, exec (.trap e code) s = .next t ∧ (t.eng e).stack = r :: (s.eng e).stack ∧
        t.pc e = 0x70 ∧ r.retPC = s.pc e + 4 ∧ r.cause = BitVec.ofNat 32 (7 + 2 ^ 24 * code.toNat) ∧
        t.level e = s.level e)

/-- R80, R120, R125, R129 (MFS, MTS): the special registers of Table ISA-1; an MTS that clears a pending line loses to an
arrival of the same cycle. -/
def Obligations.SpecialRegisters : Prop :=
  ∀ (s : State) (e : Nat) (d a : GReg),
    s.ready e = true → s.fetched e 3 = true →
    let x := s.eng e
    let reads (n : Fin 16) (v : Word) : Prop := exec (.mfs e d n) s = .next ((s.setGreg e d v).advance e 3)
    let v := s.greg e a
    reads 0 x.pc ∧ reads 1 x.evtPend ∧ reads 2 x.evtMask ∧ reads 5 x.leaseId ∧
    (∀ r rest, x.stack = r :: rest →
      reads 3 r.cause ∧ reads 4 r.retPC ∧
      (∃ t, exec (.mts e 3 a) s = .next t ∧ (t.eng e).stack = { r with cause := v } :: rest) ∧
      (∃ t, exec (.mts e 4 a) s = .next t ∧ (t.eng e).stack = { r with retPC := v, held := [] } :: rest)) ∧
    (∃ t, exec (.mts e 1 a) s = .next t ∧ t.pc e = s.pc e + 3 ∧ ∀ n, n < 32 →
      (t.eng e).evtPend.getLsbD n = (x.evtPend.getLsbD n && !(v.getLsbD n && !s.now.lines.contains (e, n)))) ∧
    exec (.mts e 2 a) s = .next ((s.setEng e { x with evtMask := v }).advance e 3) ∧
    (∀ n : Fin 16, 5 < n.val → exec (.mfs e d n) s = .next (s.illegal e 7 2)) ∧
    (∀ n : Fin 16, n.val = 0 ∨ 4 < n.val → exec (.mts e n a) s = .next (s.illegal e 7 2))

/-- R147, R148 (LEASE, RELEASE of this district's resources): the code goes to gd, a granted handle to LEASE_ID, and a
LOCK region granted to one is refused with BUSY to the next. -/
def Obligations.Leases : Prop :=
  ∀ (s : State) (e : Nat) (d a : GReg),
    let h := (s.greg e a).toNat
    let p := State.handleParts h
    s.ready e = true → s.fetched e 3 = true → (s.eng e).returned = none →
    d ≠ 0 → p.1 = 3 → p.2.1 = e / 12 → s.leaseRange 3 p.2.1 p.2.2 = true →
    (s.leaseOf 3 p.2.1 p.2.2 = none → s.explicitHeld e < 16 →
      ∃ t, exec (.lease e d a) s = .next t ∧ t.greg e d = 0 ∧ (t.eng e).leaseId = s.greg e a ∧
        t.leases = { type := 3, district := p.2.1, index := p.2.2, holder := s.ident (0x10 + e) } :: s.leases) ∧
    (∀ l, s.leaseOf 3 p.2.1 p.2.2 = some l → l.holder ≠ s.ident (0x10 + e) →
      ∃ t, exec (.lease e d a) s = .next t ∧ t.greg e d = 2 ∧ t.leases = s.leases ∧ (t.eng e).leaseId = (s.eng e).leaseId) ∧
    (∀ l, s.leaseOf 3 p.2.1 p.2.2 = some l → l.holder = s.ident (0x10 + e) →
      ∃ t, exec (.release e d a) s = .next t ∧ t.greg e d = 0 ∧ t.leaseOf 3 p.2.1 p.2.2 = none)

/-- R108, R110, R113 (ILLEGAL, FETCH_ACCESS): the decoder's verdict on the bytes at the program counter is recorded in
EXC_CAUSE, the saved PC is the instruction's first byte, and no register, memory or other engine changes. -/
def Obligations.DecoderExceptions : Prop :=
  ∀ (s : State) (e : Nat),
    s.ready e = true → (s.eng e).stack = [] →
    let entered (t : State) (vector cause : Nat) : Prop :=
      (∃ r, (t.eng e).stack = [r] ∧ r.retPC = s.pc e ∧ r.cause = BitVec.ofNat 32 cause ∧ r.g13 = s.greg e 13) ∧
      t.pc e = BitVec.ofNat 32 (vector * 16) ∧ (t.eng e).g = (s.eng e).g ∧ (t.eng e).data = (s.eng e).data ∧
      (∀ x, x ≠ e → t.eng x = s.eng x)
    (∀ reason byte, s.decoded e = .illegal reason byte →
      ∃ t, exec (.illegal e) s = .next t ∧ entered t 1 (1 + 0x100 * reason + 0x10000 * byte)) ∧
    (s.decoded e = .outside →
      ∃ t, exec (.fetchAccess e) s = .next t ∧ entered t 3 0x1003 ∧
        t.reg (Reg.CE_FAULT_ADDR e) = BitVec.ofNat 32 (max (s.pc e).toNat 0x10000)) ∧
    (∀ n, s.decoded e = .valid n → exec (.illegal e) s = .next s ∧ exec (.fetchAccess e) s = .next s)

/-- R81, R82, R87, R88, R108, R109, Table ISA-13: words of Tables ISA-4 and ISA-5 spell their instructions; the prefix
checks come first, at the first byte that fails, with the lowest reason; the LENGTH check comes before every check of
operands; an odd register named as a 64-bit operand under WIDE raises ILLEGAL at its operand byte, and the instruction
changes no register. -/
def Obligations.DecodingChecks : Prop :=
  (∀ (fetch : Nat → Option Nat) (b : Nat),
    (fetch 0 = some b → b = 0xE3 ∨ b = 0xE7 ∨ 0xED ≤ b ∧ b ≤ 0xEF → decodeBytes fetch = .illegal 1 0) ∧
    (∀ c, fetch 0 = some b → fetch 1 = some c → 0xE0 ≤ b → b ≤ 0xE2 → 0xE0 ≤ c → c ≤ 0xE2 →
      decodeBytes fetch = .illegal 2 1) ∧
    (fetch 0 = some 0xE9 → fetch 1 = some 0xE6 → fetch 2 = some 0xE0 → fetch 3 = some 0xE4 → fetch 4 = some 0xEC →
      decodeBytes fetch = .illegal 3 4) ∧
    (fetch 0 = some 0xE4 → fetch 1 = some 0xE9 → fetch 2 = some 0xE6 → fetch 3 = some 0xE0 → fetch 4 = some 0xFF →
      fetch 5 = some 7 → decodeBytes fetch = .illegal 6 15) ∧
    (fetch 0 = none → decodeBytes fetch = .outside) ∧
    (fetch 0 = some b → b < 0xE0 → primary b = none → decodeBytes fetch = .illegal 4 0)) ∧
  (∀ (s : State) (e : Nat) (d a b : GReg),
    s.ready e = true → s.fetched e 4 = true → (s.eng e).stack = [] →
    let faults (i : Instr) (byte : Nat) : Prop :=
      exec i s = .next (s.illegal e 0xB byte) ∧
        ((s.illegal e 0xB byte).eng e).g = (s.eng e).g ∧ ((s.illegal e 0xB byte).eng e).pc = 0x10
    (oddReg d = true → faults (.add e true d a b) 2 ∧ faults (.mov e true d a) 2 ∧ faults (.div e true d a b) 2) ∧
    (oddReg d = false → oddReg a = false → oddReg b = true →
      faults (.add e true d a b) 3 ∧ faults (.addc e true d a a b) 3) ∧
    (oddReg a = true → faults (.ceq e true d a b) 2)) ∧
  (∀ e,
    let spells (bytes : List Nat) (i : Instr) : Prop := instrOf e (fun k => bytes[k]?) = some i
    spells [0x10, 0x12, 0x30] (.add e false 1 2 3) ∧ spells [0x11, 0x12, 0x30] (.sub e false 1 2 3) ∧
    spells [0xE0, 0x16, 0x24, 0x60] (.mul e true 2 4 6) ∧ spells [0x46, 0x12, 0x34] (.sel e false 1 2 3 4) ∧
    spells [0xE9, 0x61, 0x12, 0x04] (.ld e .word (some .district) 1 2 (.d8 4)) ∧
    spells [0xE4, 0x80, 0x01] (.movs e .word .rep none .district) ∧
    spells [0x2B, 0x12, 0xFF, 0xFE] (.ceqi e false 1 2 0xFEFF false) ∧
    spells [0xE9, 0xE6, 0xFF, 0x01, 0x12, 0x30] (.swp e false 1 3 2) ∧ spells [0xFF, 0x14, 0x12] (.lease e 1 2) ∧
    spells [0xFF, 0x15, 0x12] (.release e 1 2))

/-- R120, R121, R122, R123 (EVENT_LINE_ARRIVAL, EVENT_ENTRY): an arrival sets its pending bit, a second one is counted as
a merge, and the lowest eligible line is entered with its number as the level. An instruction that Table ISA-12 lets
complete is not entered as abandoned, whatever accesses the entry names. -/
def Obligations.EventEntry : Prop :=
  ∀ (s : State) (e n : Nat),
    s.inReset = false → s.hasEngine e = true → n < 32 → s.engState e = 1 →
    ((s.eng e).evtPend.getLsbD n = false →
      ∃ t, exec (.eventLineArrival e n) s = .next t ∧ (t.eng e).evtPend = (s.eng e).evtPend ||| (1#32 <<< n)) ∧
    ((s.eng e).evtPend.getLsbD n = true → s.fld (Fld.CE_EVT_OVR_COUNT e) < 0xFFFF →
      ∃ t, exec (.eventLineArrival e n) s = .next t ∧
        t.fld (Fld.CE_EVT_OVR_COUNT e) = s.fld (Fld.CE_EVT_OVR_COUNT e) + 1 ∧ t.fld (Fld.CE_EVT_OVR_LAST_LINE e) = n ∧
        t.eng e = s.eng e) ∧
    (s.eligibleLine e = some n → (s.eng e).watchPending = false → s.leaseDue e = false → (s.eng e).refused = [] →
      (s.eng e).returned = none → (s.eng e).leaseWait = none → (s.eng e).loadWait = none → (s.eng e).midRep = false →
      ∃ t r, exec (.eventEntry e none) s = .next t ∧ (t.eng e).stack = r :: (s.eng e).stack ∧
        r.retPC = s.pc e ∧ r.g13 = s.greg e 13 ∧ r.level = s.level e ∧ r.vector = 0x10 + n ∧ r.abandoned = false ∧
        t.pc e = BitVec.ofNat 32 ((0x10 + n) * 16) ∧ t.level e = n ∧
        (t.eng e).evtPend = (s.eng e).evtPend &&& ~~~(1#32 <<< n)) ∧
    (∀ ab i, s.instrAt e = some i →
      i ∈ [Instr.nop e, .ret e, .wait e] ∨ (∃ d a b, i = .add e false d a b ∨ i = .sub e false d a b) ∨
        (∃ d b disp, i = .ld e .word none d b disp) →
      exec (.eventEntry e (some ab)) s = exec (.eventEntry e none) s)

/-- R129 (EVENT_ENTRY, RETE): what an entry saved, the return restores: after any entry of an event line, with its
handler's g13 changed at will, RETE brings back the entry stack, PC, g13 and the level, unless another entry is due. -/
def Obligations.EntryAndReturn : Prop :=
  ∀ (s : State) (e n : Nat) (v : Word),
    s.inReset = false → s.hasEngine e = true → s.engState e = 1 → s.eligibleLine e = some n →
    (s.eng e).watchPending = false → (s.eng e).leasePending = false → (s.eng e).refused = [] →
    (s.eng e).returned = none → (s.eng e).leaseWait = none → (s.eng e).loadWait = none → (s.eng e).midRep = false →
    ∃ t, exec (.eventEntry e none) s = .next t ∧
      (t.ready e = true → ((t.setGreg e 13 v).popRecord e).entryDue e = false →
        ∃ u, exec (.rete e) (t.setGreg e 13 v) = .next u ∧
          (u.eng e).stack = (s.eng e).stack ∧ u.pc e = s.pc e ∧ u.greg e 13 = s.greg e 13 ∧ u.level e = s.level e % 64)

/-- R129 (RETE) on a state with a record and nothing due afterwards; R130: with DEPTH = 0 it raises ILLEGAL, NO_ENTRY,
BYTE 1. -/
def Obligations.Return : Prop :=
  ∀ (s : State) (e : Nat),
    s.ready e = true → s.fetched e 3 = true →
    ((s.eng e).stack = [] → exec (.rete e) s = .next (s.illegal e 0xD 1)) ∧
    (∀ r rest, (s.eng e).stack = r :: rest → (s.popRecord e).entryDue e = false →
      ∃ t, exec (.rete e) s = .next t ∧ (t.eng e).stack = rest ∧ t.pc e = r.retPC ∧ t.greg e 13 = r.g13 ∧
        t.level e = r.level % 64)

/-- R124 (HELD_RESULT_ARRIVAL): the first access of the innermost record that still waits is performed once, and its
result is held; a HALTED engine's stay as they are (R139). R139, R143 (WATCHDOG_EXPIRY): the first expiry makes WATCH
pending, and a second one without a kick halts the engine with cause 3. -/
def Obligations.HeldResultsAndWatchdog : Prop :=
  ∀ (s : State) (e a n : Nat) (r : Record) (rest : List Record),
    s.inReset = false →
    (s.engState e ≠ 3 → (s.eng e).returned = none → (s.eng e).stack = r :: rest →
      r.held = [⟨.load .district a n, none, false⟩] → (∀ q ∈ rest, ∀ h ∈ q.held, h.result ≠ none) →
      a + n ≤ 0x400000 → 0 < n → s.sramBad (e / 12) a n = false →
      ∃ t, exec (.heldResultArrival e 0) s = .next t ∧
        (t.eng e).stack =
          { r with held := [⟨.load .district a n, some (.value (s.sramRead (e / 12) a n)), false⟩] } :: rest) ∧
    (s.engState e = 3 → (s.eng e).orphans = [] → ∀ k, exec (.heldResultArrival e k) s = .next s) ∧
    (s.awake e = true → s.flag (Fld.CE_WDOG_EN e) = true → (s.eng e).wdArmed = true → (s.eng e).wdCount = 0 →
      ∃ t, exec (.watchdogExpiry e) s = .next t ∧
        ((s.eng e).wdExpired = false → (t.eng e).watchPending = true ∧ t.engState e = s.engState e) ∧
        ((s.eng e).wdExpired = true → t.engState e = 3 ∧ t.fld (Fld.CE_STAT_HALT_CAUSE e) = 3))

/-- R139, R134: an ABSENT, ACCESS, ALIGN or STACK exception raised while a handler of vectors 0x01 to 0x06 runs halts
the engine with cause 1; a ninth entry halts it with cause 2; the entry stack and the registers stay for inspection, and
the results still to come are discarded. Cause 1 where both hold is the model's choice (log entry 94). -/
def Obligations.Halting : Prop :=
  ∀ (s : State) (e vector cause : Nat) (pc : Word),
    let kept (t : State) : Prop :=
      t.eng e = { s.eng e with orphans := (t.eng e).orphans, dropped := (t.eng e).dropped }
    (1 ≤ s.innermost e → s.innermost e ≤ 6 →
      (s.exception e vector cause pc).engState e = 3 ∧ (s.exception e vector cause pc).fld (Fld.CE_STAT_HALT_CAUSE e) = 1 ∧
      kept (s.exception e vector cause pc)) ∧
    (s.innermost e = 0 ∨ 6 < s.innermost e → 8 ≤ (s.eng e).stack.length →
      (s.exception e vector cause pc).engState e = 3 ∧ (s.exception e vector cause pc).fld (Fld.CE_STAT_HALT_CAUSE e) = 2 ∧
      kept (s.exception e vector cause pc))

/-! ### Registers, transactions, engine control -/

/-- R5, R6 (ABSENT_WINDOW_ACCESS): the first access to an absent window is recorded in SYS_ABSENT_HIT, a later one sets
MULTI, and nothing else changes; a clear of VALID that meets the access in one cycle leaves the new capture (R7). R11,
R12 (REGISTER_WRITE, REGISTER_READ), for every SYS register without a row of its own: a whole write acts under the
access codes, but clears no bit that hardware set in this cycle (R13), a sub-word one is discarded with CFG_ERR, and a
read returns the readable bits, an RC counter without what the cycle has added, and leaves that alone in it (R14). A
host function's read waits for its earlier accesses (R453). -/
def Obligations.RegisterAccess : Prop :=
  ∀ (s : State) (who : Ident) (a n v : Nat) (w : Bool),
    (s.serves who = true → (windowOf a).present s.variant = false → a < 2 ^ 26 →
      ∃ t, exec (.absentWindowAccess who a w) s = .next t ∧ (∀ r, r ≠ Reg.SYS_ABSENT_HIT → t.reg r = s.reg r) ∧
        t.flag Fld.SYS_ABSENT_HIT_VALID = true ∧
        (s.flag Fld.SYS_ABSENT_HIT_VALID = false →
          t.fld Fld.SYS_ABSENT_HIT_OFFSET = a ∧ t.flag Fld.SYS_ABSENT_HIT_WRITE = w) ∧
        (s.flag Fld.SYS_ABSENT_HIT_VALID = true →
          t.fld Fld.SYS_ABSENT_HIT_OFFSET = s.fld Fld.SYS_ABSENT_HIT_OFFSET ∧
            t.flag Fld.SYS_ABSENT_HIT_MULTI = true) ∧
        (s.now.absents = [] → Ident.isEngine who = false → ∃ u,
          exec (.registerWrite who Reg.SYS_ABSENT_HIT 4 (0x80000000 + 0x08000000 * (v % 2))) t = .next u ∧
          u.flag Fld.SYS_ABSENT_HIT_VALID = true ∧ u.fld Fld.SYS_ABSENT_HIT_OFFSET = a ∧
          u.flag Fld.SYS_ABSENT_HIT_WRITE = w ∧
          u.flag Fld.SYS_ABSENT_HIT_MULTI = (s.flag Fld.SYS_ABSENT_HIT_MULTI && v % 2 == 0))) ∧
    (s.inReset = false → s.reaches who = true → Ident.isEngine who = false → a % 4 = 0 → a < 0x100000 →
      a ≠ Reg.SYS_MODE_CMD → a ≠ Reg.SYS_PKG_CMD → a ≠ Reg.SYS_BOOT_CTRL → ∀ r, regRow a = some r →
      (a ≠ Reg.SYS_ABSENT_HIT → ∃ t, exec (.registerWrite who a 4 v) s = .next t ∧
        t.reg a = (s.reg a &&& ~~~(BitVec.ofNat 32 r.rw) &&&
            ~~~(BitVec.ofNat 32 v &&& BitVec.ofNat 32 r.w1c &&& ~~~s.setNow a)) |||
          (BitVec.ofNat 32 v &&& BitVec.ofNat 32 r.rw) ∧
        ∀ a', a' ≠ a → t.reg a' = s.reg a') ∧
      (a = Reg.SYS_ABSENT_HIT → s.now.absents = [] → ∃ t, exec (.registerWrite who a 4 v) s = .next t ∧
        t.reg a = s.reg a &&& ~~~(BitVec.ofNat 32 v &&& 0x88000000) ∧ ∀ a', a' ≠ a → t.reg a' = s.reg a') ∧
      (∀ k, 0 < n → k + n ≤ 4 → n < 4 → ∃ t, exec (.registerWrite who (a + k) n v) s = .next t ∧
        t.flag Fld.SYS_MODE_RESULT_CFG_ERR = true ∧ ∀ a', a' ≠ Reg.SYS_MODE_RESULT → t.reg a' = s.reg a') ∧
      (s.readsAtOnce who = true → ∃ t x, exec (.registerRead who a 4) s = .next t ∧
        t.out = .readData who a x :: s.out ∧
        ((∀ f ∈ r.rc, s.raisedNow a f = none) → x = (s.reg a &&& State.readable r).toNat) ∧
        (∀ f ∈ r.rc, f.1 + f.2 ≤ 32 → s.raisedNow a f = none → fieldGet (t.reg a) f.1 f.2 = 0) ∧
        (∀ f ∈ r.rc, f.1 + f.2 ≤ 32 → ∀ p, s.raisedNow a f = some p →
          x / 2 ^ f.1 % 2 ^ f.2 = p.1 % 2 ^ f.2 ∧ fieldGet (t.reg a) f.1 f.2 = min (2 ^ f.2 - 1) p.2) ∧
        ∀ a', a' ≠ a → t.reg a' = s.reg a') ∧
      (s.readsAtOnce who = false → Ident.isHost who = true →
        exec (.registerRead who a 4) s =
          .next { s with hostReads := s.hostReads ++ [{ who := who, bar2 := false, addr := a, bytes := 4 }] }))

/-- R143, R145, R146 (CE_WDOG, CE_WDOG_KICK, ENGINE_START, ENGINE_HOLD_RESET): the watchdog's period and count, the
initial state an engine starts in, and what its stop leaves when it holds no lease. -/
def Obligations.EngineControl : Prop :=
  ∀ (s : State) (who : Ident) (e : Nat) (v : Word) (key : BitVec 16),
    s.serves who = true → s.hasEngine e = true → Ident.isEngine who = false →
    (Ident.isSup who = true ∨ s.mode = 1) →
    (v.getLsbD 24 = true → (v.setWidth 24).toNat ≠ 0 →
      ∃ t, exec (.ceWdog who e v) s = .next t ∧ t.fld (Fld.CE_WDOG_PERIOD e) = (v.setWidth 24).toNat ∧
        t.flag (Fld.CE_WDOG_EN e) = true ∧ (t.eng e).wdCount = 256 * (v.setWidth 24).toNat) ∧
    (v.getLsbD 24 = true → (v.setWidth 24).toNat = 0 →
      ∃ t, exec (.ceWdog who e v) s = .next t ∧ t.flag (Fld.CE_STAT_CFG_ERR e) = true ∧
        t.reg (Reg.CE_WDOG e) = s.reg (Reg.CE_WDOG e) ∧ t.eng e = s.eng e) ∧
    (key = 0x4C41 → ∃ t, exec (.ceWdogKick who e key) s = .next t ∧
        (t.eng e).wdCount = 256 * s.fld (Fld.CE_WDOG_PERIOD e) ∧ (t.eng e).wdExpired = false) ∧
    (key ≠ 0x4C41 → ∃ t, exec (.ceWdogKick who e key) s = .next t ∧ t.flag (Fld.CE_STAT_CFG_ERR e) = true ∧
        t.eng e = s.eng e) ∧
    (s.flag (Fld.CE_CTRL_RUN e) = false →
      ∃ t, exec (.engineStart who e) s = .next t ∧ t.engState e = 1 ∧ t.level e = 32 ∧ t.pc e = 0 ∧
        (∀ r, t.greg e r = 0) ∧ (t.eng e).stack = [] ∧ (t.eng e).evtPend = 0 ∧ (t.eng e).evtMask = 0xFFFFFFFF ∧
        (t.eng e).instr = (s.eng e).instr ∧ (t.eng e).data = (s.eng e).data) ∧
    (s.flag (Fld.CE_CTRL_RUN e) = true → (∀ l ∈ s.leases, l.holder ≠ s.ident (0x10 + e)) →
      ∃ t, exec (.engineHoldReset who e) s = .next t ∧ t.engState e = 0 ∧ t.flag (Fld.CE_CTRL_RUN e) = false ∧
        (t.eng e).stack = [] ∧ (t.eng e).evtPend = 0 ∧ (t.eng e).wdCount = 0 ∧ (t.eng e).posted = (s.eng e).posted ∧
        (t.eng e).data = (s.eng e).data ∧ t.reg (Reg.MBX_DB (16 + e)) = 0)

/-- R70–R75 (BEGIN, COMMIT, ROLLBACK, TXN_APPLY, SHADOW_WRITE): an open transaction holds its lease and its shadow; a
commit is refused, waits for its boundary or takes effect; a rollback leaves no shadow and no lease. An application that
falls in the cycle of a verb comes before it. -/
def Obligations.Transactions : Prop :=
  ∀ (s : State) (who : Ident) (u : TxnUnit) (a : Nat) (v : Word),
    s.serves who = true → txnPresent s.variant u = true → s.txnRefuses u who = false →
    let lease (t : State) := t.leaseOf 8 (txnLease u).1 (txnLease u).2
    let stat (t : State) (code : Nat) (w : Ident) : Prop := t.reg (txnCtrl u + 4) = BitVec.ofNat 32 (code + 65536 * w.toNat)
    let unapplied : Prop := s.txnState u = 2 → s.boundaryNow u = false
    (s.mode ≠ 0 → s.txnState u = 0 → ∃ t l, exec (.begin u who) s = .next t ∧ t.txnState u = 1 ∧ t.txnHolder u = who ∧
      lease t = some l ∧ l.holder = who ∧ stat t 0 who ∧ t.shadow = s.shadow) ∧
    (s.mode ≠ 0 → s.txnState u ≠ 0 → unapplied → ∃ t, exec (.begin u who) s = .next t ∧ t.txnState u = s.txnState u ∧
      t.txnHolder u = s.txnHolder u ∧ stat t 2 who ∧ t.leases = s.leases) ∧
    (s.txnState u = 1 → s.txnHolder u = who → s.commitCode u ≠ 0 →
      ∃ t, exec (.commit u who) s = .next t ∧ stat t (s.commitCode u) who ∧ t.txnState u = 1 ∧ t.shadow = s.shadow) ∧
    (∀ d, u = .rnd d → s.txnState u = 1 → s.txnHolder u = who → s.commitCode u = 0 → (s.dist d).due ≠ none →
      ∃ t, exec (.commit u who) s = .next t ∧ stat t 1 who ∧ t.txnState u = 2 ∧ t.shadow = s.shadow) ∧
    (s.txnHolder u ≠ who → unapplied →
      ∃ t, exec (.commit u who) s = .next t ∧ stat t 5 who ∧ t.txnState u = s.txnState u ∧ t.shadow = s.shadow) ∧
    (∀ d, u = .sru d → s.mode ≠ 0 → s.txnState u = 2 →
      ∃ t l, exec (.begin u who) s = .next t ∧ t.txnState u = 1 ∧ t.txnHolder u = who ∧ lease t = some l ∧
        l.holder = who ∧ stat t 0 who) ∧
    (s.txnState u = 1 → (s.txnHolder u = who ∨ Ident.isSup who = true) →
      ∃ t, exec (.rollback u who) s = .next t ∧ t.txnState u = 0 ∧ lease t = none ∧ stat t 0 who ∧
        ∀ p ∈ t.shadow, txnCovers u p.1 = false) ∧
    (∀ d, u = .sru d → s.txnState u = 2 → stat s 1 (s.txnHolder u) → s.shadow = [(a, some v)] → txnCovers u a = true →
      ∃ t, exec (.txnApply u) s = .next t ∧ t.reg a = v ∧ t.txnState u = 0 ∧ lease t = none ∧ t.shadow = [] ∧
        stat t 0 (s.txnHolder u)) ∧
    (txnAt a = some u → State.gatewayGone s.variant a = false → s.txnState u = 1 → s.txnHolder u = who →
      s.shadowFull u a = false →
      ∃ t, exec (.shadowWrite who a v) s = .next t ∧ t.shadowReg a = v &&& State.writeMask s.variant a ∧ t.regs = s.regs) ∧
    (txnAt a = some u → State.gatewayGone s.variant a = true →
      ∃ t, exec (.shadowWrite who a v) s = .next t ∧ t = s.absentHit a true) ∧
    (txnAt a = some u → State.gatewayGone s.variant a = false → s.txnHolder u ≠ who →
      ∃ t, exec (.shadowWrite who a v) s = .next t ∧ t.shadow = s.shadow ∧ t.reg a = s.reg a ∧ t = s.txnErr u)

/-! ### Resets, clocks, modes -/

/-- R52, R512, R529 (POWER_ON_RESET, PORST_N, BROWN_OUT, CORE_RESET_RELEASE, RESET_PIN, SUPERVISOR_LOCKSTEP_MISMATCH,
SUPERVISOR_WATCHDOG_EXPIRY, SOFT_RESET) and R24's loss of FCLK: every reset brings the device to BOOT with its cause
recorded; MRAM, the key hashes and the variant stay. -/
def Obligations.DeviceResets : Prop :=
  ∀ (s : State) (who : Ident) (tag ns : Nat),
    s.nv = none → s.sup.started = none →
    let cold (i : Instr) (cause : Word) (low held : Bool) : Prop :=
      ∃ t, exec i s = .next t ∧ t.mode = 0 ∧ t.engines = [] ∧ t.leases = [] ∧ t.shadow = [] ∧ t.mram = s.mram ∧
        t.keyHash = s.keyHash ∧ t.variant = s.variant ∧ t.reg Reg.SYS_RESET_CAUSE = cause ∧ t.porstLow = low ∧
        t.coreReset = held
    let old := s.reg Reg.SYS_RESET_CAUSE
    (s.porstLow = true → cold .powerOnReset 1 false s.coreReset) ∧
    (s.porstLow = false → cold .porstN 1 true s.coreReset) ∧
    (s.coreReset = false → cold .brownOut (old ||| 4) s.porstLow true) ∧
    (s.coreReset = true → s.porstLow = false →
      ∃ t, exec .coreResetRelease s = .next t ∧ t.inReset = false ∧ t.mode = s.mode) ∧
    (s.inReset = false →
      (840 ≤ ns → cold (.resetPin ns) (old ||| 2) false false) ∧
      (ns < 800 → exec (.resetPin ns) s = .next s) ∧
      (800 ≤ ns → ns < 840 → ∃ t, exec (.resetPin ns) s = .next t ∧ t.free = s.free + 1) ∧
      cold (.clockLossOfLock 6) (old ||| 8) false false ∧
      cold .supervisorLockstepMismatch (old ||| 0x10) false false ∧
      cold .supervisorWatchdogExpiry (old ||| 0x20) false false ∧
      (s.asks who = true → s.flag Fld.SYS_MODE_CMD_BUSY = false → s.took Reg.SYS_MODE_CMD = false →
        s.noTransition = true → cold (.softReset who tag 0xA5A5) (old ||| 0x40) false false))

/-- R454 (PERST_N, HOT_RESET, FUNCTION_LEVEL_RESET), R24, R27, R50 (CLOCK_LOSS_OF_LOCK, CLOCK_LOCK_RETURN, FORCED_LOAD,
SYNCHRONISER_ACKNOWLEDGE). -/
def Obligations.HostResetsAndClocks : Prop :=
  ∀ (s : State) (f k l : Nat),
    s.inReset = false →
    let ended (t : State) (f : Nat) : Prop := t.reg (Reg.MBX_DB f) = 0 ∧ t.reg (Reg.MBX_DBMASK f) = 0xFFFFFFFF
    (f < 7 → ∃ t, exec (.functionLevelReset f) s = .next t ∧ ended t f ∧ ∀ p ∈ t.msixPba, p.1 / 64 ≠ f) ∧
    (s.leases = [] → f < 7 →
      (∃ t, exec .perstN s = .next t ∧ ended t f ∧ t.nfn = s.fld Fld.MBX_HOST_CFG_NFN) ∧
      (∃ t, exec .hotReset s = .next t ∧ ended t f ∧ t.nfn = s.fld Fld.MBX_HOST_CFG_NFN)) ∧
    (k < 6 → k ≠ 1 → k ≠ 2 → (s.reg Reg.SYS_CLK_STAT).getLsbD k = true →
      ∃ t, exec (.clockLossOfLock k) s = .next t ∧ (t.reg Reg.SYS_CLK_STAT).getLsbD k = false ∧
        (t.reg Reg.SYS_CLK_STAT).getLsbD (8 + k) = true ∧ t.clockGone k = true ∧
        .clockLoss k ∈ t.notices) ∧
    (k < 6 → ∃ t, exec (.clockLockReturn k) s = .next t ∧ (t.reg Reg.SYS_CLK_STAT).getLsbD k = true ∧
      t.clockGone k = false) ∧
    (s.forceDue k = true → ∃ t, exec (.forcedLoad k) s = .next t ∧ t.flag Fld.SYS_MODE_FORCED = true ∧
      t.fld Fld.SYS_MODE_FORCE_CAUSE = (if k = 0 then 1 else if k = 3 then 2 else 3)) ∧
    (s.syncLine l = 1 → ∃ t, exec (.synchroniserAcknowledge l) s = .next t ∧ t.syncLine l = 0) ∧
    (s.syncLine l = 0 → exec (.synchroniserAcknowledge l) s = .next s) ∧
    (1 < s.syncLine l → l / 64 = 0x0C → ∃ t, exec (.synchroniserAcknowledge l) s = .next t ∧ t.syncLine l = 1)

/-- R8, R45, R47, R49, R62–R66, R333, R478 (ENTER_LOAD, ENTER_COMMISSION, ENTER_COMMISSION_COMPLETE, ENTER_RUN,
ENTER_RUN_EVALUATION, SAFE_ACK, SAFE_STOP_REPORT): the mode each leaves and the code, tag and DONE of its result. An
automatic transition that is due comes before the command, and a second command of a cycle only sets LOST. -/
def Obligations.ModeCommands : Prop :=
  ∀ (s : State) (who : Ident) (tag arg : Nat),
    s.asks who = true → tag < 256 →
    let result (t : State) (code : Nat) (done : Bool) : Prop :=
      t.fld Fld.SYS_MODE_RESULT_CODE = code ∧ t.flag Fld.SYS_MODE_RESULT_DONE = done
    let left (t : State) (mode code : Nat) (done : Bool) : Prop :=
      t.mode = mode ∧ result t code done ∧ t.fld Fld.SYS_MODE_RESULT_TAG = tag ∧ t.flag Fld.SYS_MODE_CMD_BUSY = !done
    (s.flag Fld.SYS_MODE_CMD_BUSY = false → s.took Reg.SYS_MODE_CMD = false → s.noTransition = true →
      (1 < s.mode → s.modeCmd = none → ∃ t, exec (.enterLoad who tag 0) s = .next t ∧ left t 1 0 true) ∧
      (s.mode ≤ 1 → ∃ t, exec (.enterLoad who tag 0) s = .next t ∧ left t s.mode 5 true) ∧
      (arg ≠ 0 →
        (∃ t, exec (.enterLoad who tag arg) s = .next t ∧ left t s.mode 3 true) ∧
        (∃ t, exec (.enterCommission who tag arg) s = .next t ∧ left t s.mode 3 true) ∧
        (∃ t, exec (.enterRun who tag arg) s = .next t ∧ left t s.mode 3 true) ∧
        (s.variant.hasIsland = true → ∃ t, exec (.safeAck who tag arg) s = .next t ∧ left t s.mode 3 true)) ∧
      (s.mode = 1 → s.anyTxnOpen = false → ∃ t, exec (.enterCommission who tag 0) s = .next t ∧ left t 1 1 false) ∧
      ((s.mode = 3 ∨ s.mode = 4) → s.anyTxnOpen = false →
        ∃ t, exec (.enterCommission who tag 0) s = .next t ∧ left t 2 0 true) ∧
      (s.anyTxnOpen = true → ∃ t, exec (.enterCommission who tag 0) s = .next t ∧ left t s.mode 5 true) ∧
      (s.mode = 2 → ∃ t, exec (.enterRun who tag 0) s = .next t ∧ left t 2 1 false) ∧
      (s.mode ≠ 2 → ∃ t, exec (.enterRun who tag 0) s = .next t ∧ left t s.mode 5 true) ∧
      (s.variant.hasIsland = true → s.mode = 5 → s.fld Fld.SAFE_STAT_STATE = 3 →
        ∃ t, exec (.safeAck who tag 0) s = .next t ∧
          left t (if s.flag Fld.SYS_MODE_TWIN_MISSING then 4 else 3) 0 true) ∧
      (s.variant.hasIsland = true → s.mode ≠ 5 → ∃ t, exec (.safeAck who tag 0) s = .next t ∧ left t s.mode 5 true) ∧
      (s.variant.hasIsland = false → ∃ t, exec (.safeAck who tag arg) s = .next t ∧ left t s.mode 4 true)) ∧
    (s.flag Fld.SYS_MODE_CMD_BUSY = true ∨ s.took Reg.SYS_MODE_CMD = true →
      ∃ t, exec (.enterLoad who tag 0) s = .next t ∧ t.mode = s.mode ∧ t.flag Fld.SYS_MODE_RESULT_LOST = true) ∧
    (s.flag Fld.SYS_MODE_CMD_BUSY = false → s.took Reg.SYS_MODE_CMD = false → s.island.report = true →
      (s.mode = 3 ∨ s.mode = 4) → (∀ k, s.forceDue k = false) →
      ∃ t, exec (.enterCommission who tag 0) s = .next t ∧ left t 5 5 true) ∧
    (∀ c, s.modeCmd = some c → c.cmd = 2 → s.flag Fld.SYS_PKG_RES_DONE = true → s.mode = 1 →
      ∃ t, exec .enterCommissionComplete s = .next t ∧ result t 0 true ∧ t.mode = 2) ∧
    (s.runDue = true → s.runCode ≠ 0 →
      ∃ t, exec .enterRunEvaluation s = .next t ∧ result t s.runCode true ∧ t.mode = s.mode ∧ t.modeCmd = none) ∧
    (s.runDue = true → s.runCode = 0 →
      ∃ t, exec .enterRunEvaluation s = .next t ∧ t.ave.runNext = true ∧ t.mode = s.mode ∧ t.modeCmd = s.modeCmd) ∧
    (s.island.report = true → (s.mode = 3 ∨ s.mode = 4) →
      ∃ t, exec .safeStopReport s = .next t ∧ t.mode = 5 ∧ t.fld Fld.SYS_MODE_PREV_MODE = s.mode ∧
        t.fld Fld.SYS_MODE_TRANS_CNT = (s.fld Fld.SYS_MODE_TRANS_CNT + 1) % 4096)

/-- R43, R55, R57, R59 (BOOT_ATTEMPT, HOST_PUSH, SUPERVISOR_START) and R329–R332 (PKG_LOAD, PKG_LOAD_COMPLETE,
PKG_UNLOAD). -/
def Obligations.BootAndPackages : Prop :=
  ∀ (s : State) (who : Ident) (flash : List Byte) (e role tag : Nat),
    s.inReset = false → tag < 256 →
    let booted (t : State) (src : Nat) (r : Nat × Nat) : Prop :=
      t.fld Fld.SYS_BOOT_STAT_SOURCE = src ∧ t.fld Fld.SYS_BOOT_STAT_RESULT = r.1 % 65536 ∧
      t.fld Fld.SYS_BOOT_STAT_REASON = r.2 % 16 ∧
      t.fld Fld.SYS_BOOT_STAT_ATTEMPTS = min 15 (s.fld Fld.SYS_BOOT_STAT_ATTEMPTS + 1)
    let done (t : State) (code : Nat) (d : Bool) : Prop :=
      t.fld Fld.SYS_PKG_RES_RESULT = code ∧ t.fld Fld.SYS_PKG_RES_TAG = tag ∧ t.flag Fld.SYS_PKG_RES_DONE = d
    (s.mode = 0 → s.fld Fld.SYS_BOOT_STAT_STAGE = 0 → s.bootSel = 3 → s.fld Fld.SYS_BOOT_STAT_ATTEMPTS = 0 →
      ∃ t, exec (.bootAttempt flash false) s = .next t ∧ booted t 0 (s.bootCheck (State.imageAt s.mram)) ∧
        t.fld Fld.SYS_BOOT_STAT_STAGE = if (s.bootCheck (State.imageAt s.mram)).1 = 0 then 3 else 1) ∧
    (s.mode = 0 → s.fld Fld.SYS_BOOT_STAT_STAGE = 0 → s.bootSel = 2 →
      ∃ t, exec (.bootAttempt flash false) s = .next t ∧
        t.fld Fld.SYS_BOOT_STAT_SOURCE = s.fld Fld.SYS_BOOT_STAT_SOURCE ∧ t.fld Fld.SYS_BOOT_STAT_STAGE = 4) ∧
    (s.asks who = true → s.fld Fld.SYS_BOOT_STAT_STAGE = 4 →
      ∃ t, exec (.hostPush who) s = .next t ∧ booted t 2 (s.bootCheck (State.imageAt s.bootMem)) ∧
        t.fld Fld.SYS_BOOT_STAT_STAGE = if (s.bootCheck (State.imageAt s.bootMem)).1 = 0 then 3 else 4) ∧
    (s.mode = 0 → s.fld Fld.SYS_BOOT_STAT_STAGE = 3 →
      ∃ t, exec .supervisorStart s = .next t ∧ t.mode = 1 ∧ (∀ x, x < 96 → (t.eng x).instr = [] ∧ (t.eng x).data = []) ∧
        ∀ d, d < 8 → (t.dist d).sram = []) ∧
    (s.asks who = true → (s.flag Fld.SYS_PKG_RES_DONE = false ∨ s.took Reg.SYS_PKG_CMD = true) →
      ∃ t, exec (.pkgUnload who e tag) s = .next t ∧ t.flag Fld.SYS_PKG_RES_LOST = true ∧ t.engines = s.engines) ∧
    (s.asks who = true → s.flag Fld.SYS_PKG_RES_DONE = true → s.took Reg.SYS_PKG_CMD = false →
      let code := s.loadCode (State.imageAt s.bootMem) e role
      ∃ t, exec (.pkgLoad who e role tag) s = .next t ∧ done t (if code = 0 then 1 else code % 65536) (code != 0) ∧
        t.engines = s.engines ∧ (code = 0 → ∃ j, t.pkg = some j ∧ j.first = e ∧ j.role = role)) ∧
    (∀ j instr data, s.pkg = some j → j.images = [(instr, data)] → j.first = e → e < 96 → s.modeCmd = none →
      s.flag (Fld.CE_CTRL_RUN e) = false → j.tag = tag →
      ∃ t, exec .pkgLoadComplete s = .next t ∧ done t 0 true ∧ t.pkg = none ∧ t.engState e = 1 ∧ t.pc e = 0 ∧
        (t.eng e).instr = Mem.writeBytes [] 0 instr ∧ (t.eng e).data = Mem.writeBytes [] 0 data) ∧
    (s.asks who = true → s.flag Fld.SYS_PKG_RES_DONE = true → s.took Reg.SYS_PKG_CMD = false → s.mode = 1 →
      s.hasEngine e = true →
      s.reg (Reg.SYS_PKG_ENG e) ≠ 0 → s.fld (Fld.SYS_PKG_ENG_FIRST e) = e → s.sameLoad e = [e] →
      s.flag (Fld.CE_CTRL_RUN e) = false →
      ∃ t, exec (.pkgUnload who e tag) s = .next t ∧ done t 0 true ∧ t.reg (Reg.SYS_PKG_ENG e) = 0 ∧
        (t.eng e).instr = [] ∧ (t.eng e).data = [])

/-- R159, R161, R163, R165 (ROUND_RUN, ROUND_STOP, ROUND_START): the schedule of the first start, the stop, and a Round,
whose frame is then in passage; a write of a station's own word that is pending at the station's deadline leaves the
station in that passage, and the station sees it. -/
def Obligations.Rounds : Prop :=
  ∀ (s : State) (who : Ident) (d st : Nat) (v : Word),
    s.inReset = false → d < 8 → d < s.variant.districts →
    (s.flag (Fld.RND_CTRL_RUN d) = false →
      ∃ t, exec (.roundRun d) s = .next t ∧ t.flag (Fld.RND_STAT_RUNNING d) = true ∧
        (s.flag (Fld.RND_PERIOD_SYNC d) = false → (t.dist d).due = some (s.cycle + 16)) ∧
        (t.dist d).pendW = (s.dist d).pendW ∧ (t.dist d).frame = (s.dist d).frame) ∧
    (s.serves who = true → s.txnRefuses (.rnd d) who = false → s.mode = 1 → s.txnState (.rnd d) ≠ 2 →
      ∃ t, exec (.roundStop d who) s = .next t ∧ t.flag (Fld.RND_STAT_RUNNING d) = false ∧ (t.dist d).due = none ∧
        (t.dist d).pendW = (s.dist d).pendW ∧ (t.dist d).frame = (s.dist d).frame) ∧
    (s.serves who = true → s.txnRefuses (.rnd d) who = false → s.mode ≠ 1 →
      ∃ t, exec (.roundStop d who) s = .next t ∧ t.dist d = s.dist d ∧
        t.fld Fld.SYS_WRONG_STATE_CNT_COUNT = min 65535 (s.fld Fld.SYS_WRONG_STATE_CNT_COUNT + 1)) ∧
    (s.serves who = true → s.txnRefuses (.rnd d) who = true →
      ∃ t, exec (.roundStop d who) s = .next t ∧ t.dist d = s.dist d ∧ t.regs = s.regs) ∧
    (∀ x, (s.dist d).due = some x → s.cycle < x → exec (.roundStart d []) s = .next s) ∧
    ((s.dist d).flight ≠ none → exec (.roundStart d []) s = .next s) ∧
    (∀ x, (s.dist d).due = some x → x ≤ s.cycle → (s.dist d).flight = none → s.txnState (.rnd d) ≠ 2 →
      s.records d = [] →
      ∃ t, exec (.roundStart d []) s = .next t ∧ (t.dist d).round = (s.dist d).round + 1 ∧
        (t.dist d).due.isSome = true ∧ (t.dist d).pendW = (s.dist d).pendW ∧
        ∃ f, (t.dist d).flight = some f ∧ f.start = s.cycle ∧ State.passWord f.pass 0 = s.headerWord d) ∧
    (∀ p, (s.dist d).pendW = [(st * 64 + st, some v)] → (s.dist d).pendOp = [] → 1 ≤ st → st ≤ 12 →
      s.engState (d * 12 + (st - 1)) ≠ 0 →
      let r := State.passStation d st [] (s.takePending d st, p) st
      State.passWord r.2 st = v ∧ Store.get (fun _ => 0) (r.1.dist d).leaving (st * 64 + st) = v ∧
        (r.1.dist d).pendW = [] ∧ (r.1.dist d).takenW = [])

/-! ### Supplies, non-volatile memory, JTAG, host windows -/

/-- R509–R511, R514, R517–R520 (SUPPLY_MONITOR_ASSERT, BLOCK_RELEASE, VMON_UPDATE, READ, WRITE, COPY, ROW_WRITE_DONE,
OTP_KEY, OTP_REVOKE, OTP_FLOOR, OTP_PROGRAM_DONE), a READ's end in the cycle that is due, a supervisor's row before the
command's, and BLOCK's edges before a start of their cycle. -/
def Obligations.PowerAndNonVolatile : Prop :=
  ∀ (s : State) (who : Ident) (m rows : Nat) (core sram nv io : BitVec 12),
    s.inReset = false →
    let result (t : State) (code : Nat) (done : Bool) : Prop :=
      t.fld Fld.NV_RES_RESULT = code ∧ t.flag Fld.NV_RES_DONE = done
    let starts (i : Instr) (op : Nat) : Prop :=
      ∃ t j, exec i s = .next t ∧ t.nv = some j ∧ j.op = op ∧ j.started = s.cycle ∧ result t 1 false ∧ t.mram = s.mram
    let refused (i : Instr) (code : Nat) : Prop :=
      ∃ t, exec i s = .next t ∧ t.nv = s.nv ∧ result t code true ∧ t.mram = s.mram
    (m < 3 → s.flag (State.monitorFld m) = false →
      ∃ t, exec (.supplyMonitorAssert m) s = .next t ∧ t.flag (State.monitorFld m) = true ∧ t.nvBlocked = true ∧
        t.flag Fld.PWR_STAT_WARN = true ∧ t.fld Fld.PWR_STAT_WARN_CNT = min 255 (s.fld Fld.PWR_STAT_WARN_CNT + 1) ∧
        t.notices = .powerWarning m :: s.notices ∧
        ∀ j, s.nv = some j → j.op ≠ 1 → j.started = s.cycle → s.sup.started = none → t.nv = none ∧ result t 9 true) ∧
    (m < 3 → s.flag (State.monitorFld m) = true → exec (.supplyMonitorAssert m) s = .next s) ∧
    (∃ t, exec .blockRelease s = .next t ∧ t.nvBlocked = false ∧ (∀ m, m < 3 → t.flag (State.monitorFld m) = false) ∧
      ∀ j, s.now.lowv = some (j, true) → j.op = 2 → s.sup = {} → s.now.lowvRows = [] →
        result t 1 false ∧ ∃ k, t.nv = some k ∧ k.addr = j.addr ∧ k.data = j.data ∧ k.waits = false ∧
          k.started = s.cycle) ∧
    (∃ t, exec (.vmonUpdate core sram nv io) s = .next t ∧ t.fld Fld.PWR_VMON0_CORE = core.toNat ∧
      t.fld Fld.PWR_VMON0_SRAM = sram.toNat ∧ t.fld Fld.PWR_VMON1_NV = nv.toNat ∧ t.fld Fld.PWR_VMON1_IO = io.toNat) ∧
    (∀ j, s.nv = some j → j.op = 1 → j.errs = [] → j.started + 80 ≤ s.cycle →
      let t := s.endNvRead
      t.nvData = s.mram.readBytes j.addr 64 ∧ t.nv = none ∧ result t 0 true ∧ t.mram = s.mram) ∧
    (s.asks who = true → (s.flag Fld.NV_RES_DONE = false ∨ s.took Reg.NV_CMD = true) →
      ∃ t, exec (.nvWrite who) s = .next t ∧ t.nv = s.nv ∧ t.mram = s.mram ∧ t.flag Fld.NV_RES_LOST = true) ∧
    (s.asks who = true → s.flag Fld.NV_RES_DONE = true → s.took Reg.NV_CMD = false →
      (s.nvAddr % 64 = 0 → starts (.nvRead who []) 1) ∧
      (s.nvAddr % 64 ≠ 0 → refused (.nvRead who []) 3 ∧ refused (.nvWrite who) 3 ∧ refused (.nvCopy who rows) 3) ∧
      (s.nvAddr % 64 = 0 → s.hostOutsideLoad who = false →
        (s.nvBlocked = false → starts (.nvWrite who) 2) ∧ (s.nvBlocked = true → refused (.nvWrite who) 9)) ∧
      (s.nvAddr % 64 = 0 → s.mode = 1 → s.nvBlocked = false → 0 < rows → s.fld Fld.NV_SRC_SRC % 64 = 0 →
        s.fld Fld.NV_SRC_SRC + rows * 64 ≤ 0x200000 → s.nvAddr + rows * 64 ≤ 0x400000 → starts (.nvCopy who rows) 3) ∧
      (s.mode = 1 → s.nvBlocked = false → s.nvAddr % 4 ≠ 0 →
        (s.slotValid (s.nvAddr % 4) = false → s.slotDamaged (s.nvAddr % 4) = false → starts (.otpKey who) 4) ∧
        (s.slotValid (s.nvAddr % 4) = true → refused (.otpKey who) 5) ∧
        (s.slotValid (s.nvAddr % 4) = true → s.slotRevoked (s.nvAddr % 4) = false → starts (.otpRevoke who) 5)) ∧
      (s.mode = 1 → s.nvBlocked = false → s.nvAddr / 256 % 4 ≠ 3 →
        (s.fld (State.floorFld (s.nvAddr / 256 % 4)) < s.nvAddr % 64 → starts (.otpFloor who) 6) ∧
        (s.nvAddr % 64 < s.fld (State.floorFld (s.nvAddr / 256 % 4)) → refused (.otpFloor who) 3))) ∧
    (∀ r t0, s.sup = { rows := [r], started := some t0 } → t0 + 960 ≤ s.cycle → r.gen = none → r.data.length = 64 →
      ∃ t, exec .rowWriteDone s = .next t ∧ t.mram.readBytes r.addr 64 = r.data ∧ t.sup = {} ∧
        ∀ j, s.nv = some j → j.op = 2 → j.waits = true → s.nvBlocked = false →
          t.nv = some { j with waits := false, started := s.cycle }) ∧
    (∀ j, s.nv = some j → s.sup.started = none → j.waits = false → j.started + 960 ≤ s.cycle →
      (j.op = 2 → j.rows = 1 → j.data.length = 64 →
        ∃ t, exec .rowWriteDone s = .next t ∧ t.mram.readBytes j.addr 64 = j.data ∧ t.nv = none ∧ result t 0 true) ∧
      (j.op = 3 → 1 < j.rows → s.nvBlocked = false →
        ∃ t k, exec .rowWriteDone s = .next t ∧ t.nv = some k ∧ k.rows = j.rows - 1 ∧ k.addr = j.addr + 64 ∧
          t.mram.readBytes j.addr 64 = s.bootMem.readBytes j.src 64)) ∧
    (∀ j, s.nv = some j → j.started + 160000 ≤ s.cycle →
      (j.op = 4 → j.addr < 4 → ∃ t, exec .otpProgramDone s = .next t ∧ t.slotValid j.addr = true ∧
        (0 < j.addr → t.slotHash j.addr = j.hash) ∧ result t 0 true) ∧
      (j.op = 5 → j.addr < 4 → ∃ t, exec .otpProgramDone s = .next t ∧ t.slotRevoked j.addr = true ∧ result t 0 true) ∧
      (j.op = 6 → j.src < 64 → ∃ t, exec .otpProgramDone s = .next t ∧ t.fld (State.floorFld j.addr) = j.src ∧
        result t 0 true))

/-- R525 (BYPASS, IDCODE, SAMPLE/PRELOAD, EXTEST, JTAG_TRST_N), R455 (BAR2_READ, BAR2_WRITE in the boot window and the
data SRAM of an engine), R462 (SPI_READ, SPI_WRITE). -/
def Obligations.PinsAndHostWindows : Prop :=
  ∀ (s : State) (who : Ident) (low : Bool) (a n v : Nat) (w : Word),
    let instr (i : Instr) (k : Nat) : Prop := ∃ t, exec i s = .next t ∧ t.jtag.instr = k ∧ t = { s with jtag := t.jtag }
    (s.jtag.trstLow = false → instr .bypass 0 ∧ instr .idcode 1 ∧
      instr .samplePreload (if s.porstLow then 2 else 0) ∧ instr .extest (if s.porstLow then 3 else 0)) ∧
    (s.jtag.trstLow = true → instr .bypass s.jtag.instr ∧ instr .extest s.jtag.instr) ∧
    (∃ t, exec (.jtagTrstN low) s = .next t ∧ t.jtag.trstLow = low ∧ (low = true → t.jtag.instr = 1)) ∧
    (s.inReset = false → s.reaches who = true → s.pcieFunction who = true → s.readsAtOnce who = true →
      a + n ≤ 0x200000 →
      (s.mode ≤ 1 →
        (∃ t, exec (.bar2Write who a n v) s = .next t ∧ t.bootMem.readLE a n = v % 256 ^ n ∧
          ∀ x, x < a ∨ a + n ≤ x → t.bootMem.read x = s.bootMem.read x) ∧
        (0 < n → ∃ t, exec (.bar2Read who a ⟨n, []⟩) s = .next t ∧
          t.out = .readData who (0x100000000 + a) (s.bootMem.readLE a n) :: s.out)) ∧
      (1 < s.mode → 0 < n →
        (∃ t, exec (.bar2Write who a n v) s = .next t ∧ t.bootMem = s.bootMem ∧
          t.fld Fld.MBX_HOST_STAT_BAR2_REFUSED = min 32767 (s.fld Fld.MBX_HOST_STAT_BAR2_REFUSED + 1)) ∧
        (∃ t x, exec (.bar2Read who a ⟨n, []⟩) s = .next t ∧ t.out = .readData who (0x100000000 + a) x :: s.out ∧
          x < 256 ^ n ∧ t.bootMem = s.bootMem ∧ t.regs = s.regs))) ∧
    (∀ e, s.inReset = false → s.reaches who = true → s.pcieFunction who = true → s.hasEngine e = true → s.mode = 1 →
      s.flag (Fld.CE_CTRL_RUN e) = false →
      a + n ≤ 0x10000 → 0 < n →
      ∃ t, exec (.bar2Write who (0x4010000 + e * 0x20000 + a) n v) s = .next t ∧
        (t.eng e).data = (s.eng e).data.writeLE a n v ∧ (t.eng e).instr = (s.eng e).instr) ∧
    (s.inReset = false → a % 4 = 0 → a < 0x100000 → a ≠ Reg.SYS_MODE_CMD → a ≠ Reg.SYS_PKG_CMD → a ≠ Reg.SYS_BOOT_CTRL →
      a ≠ Reg.SYS_ABSENT_HIT → ∀ r, regRow a = some r →
      (∃ t, exec (.spiWrite 2 a [w] false) s = .next t ∧
        t.reg a = (s.reg a &&& ~~~(BitVec.ofNat 32 r.rw) &&& ~~~(w &&& BitVec.ofNat 32 r.w1c &&& ~~~s.setNow a)) |||
          (w &&& BitVec.ofNat 32 r.rw)) ∧
      ((∀ f ∈ r.rc, s.raisedNow a f = none) → ∃ t, exec (.spiRead 3 a 1 false) s = .next t ∧
        let x := s.reg a &&& State.readable r
        t.out = .spiData [0xA5, x.extractLsb' 24 8, x.extractLsb' 16 8, x.extractLsb' 8 8, x.extractLsb' 0 8] :: s.out))

/-! ### The Avenue -/

/-- R170, R189, R190, R192, R193, R198, R205, R209 (AVENUE_CYCLE_START, COLDSTART_TIMEOUT, COLDSTART_CHECK_END, REF,
REFERENCE_MISS, REINT): the counter advances by one length, and the master's message goes out and is held 18 cycles
later; a cold start counts from cycle 0 and makes its node master at the cycle's end; a listening chip takes the
message's cycle; a follower holds the message; misses lead to a takeover by rank and at twelve to isolation. -/
def Obligations.AvenueCycles : Prop :=
  ∀ (s : State) (m : RefMsg) (port : Nat),
    s.inReset = false →
    let cycleNum (t : State) := t.fld Fld.AVE_CYCLE_NUM_CYCLE
    let sends (t : State) (ring : Bool) (r : RefMsg) (own : Option RefMsg) : Prop :=
      Out.refMsg ring (State.refPayload r) ∈ t.out ∧ t.ave.window = some { at' := s.cycle + 18, own := own }
    let used : Prop := port < 2 → s.wilernUsed port = true
    (s.ave.started = true → s.ave.cycleStart + s.ave.len ≤ s.cycle → s.ave.coldDue = false → s.txnState .ave ≠ 2 →
      ∃ t, exec .avenueCycleStart s = .next t ∧ t.ave.cycleStart = s.ave.cycleStart + s.ave.len ∧
        cycleNum t = (cycleNum s + 1) % 2 ^ 32 ∧
        (s.isMaster = true → s.aveState = 4 → ∃ r, sends t true r (some r) ∧ r.cycle = cycleNum t ∧ r.coldstart = false) ∧
        (∀ h, s.isMaster = false → s.aveState = 4 → s.ave.held = some h →
          sends t false { h with cycle := cycleNum t } none)) ∧
    (∀ w r, s.ave.window = some w → w.own = some r →
      (w.at' ≤ s.cycle → s.holdWindow.ave.held = some r ∧ s.holdWindow.ave.window = none) ∧
      (s.cycle < w.at' → s.holdWindow = s)) ∧
    (s.cycle < s.ave.cycleStart + s.ave.len → exec .avenueCycleStart s = .next s) ∧
    (∀ x, s.aveState = 1 → s.ave.timeoutAt = some x → x ≤ s.cycle →
      (s.coldBarred = false → ∃ t r, exec .coldstartTimeout s = .next t ∧ t.aveState = 3 ∧ t.isMaster = false ∧
        cycleNum t = 0 ∧ t.ave.cycleStart = s.cycle ∧ t.ave.started = true ∧ sends t true r (some r) ∧
        r.coldstart = true) ∧
      (s.coldBarred = true → exec .coldstartTimeout s = .next s)) ∧
    (s.aveState = 3 → s.ave.cycleStart + s.ave.len ≤ s.cycle →
      (s.chipDoubled = false →
        ∃ t, exec .coldstartCheckEnd s = .next t ∧ t.aveState = 4 ∧ t.isMaster = true ∧ t.ave = s.ave) ∧
      (s.chipDoubled = true → exec .coldstartCheckEnd s = .next s)) ∧
    (s.aveState = 1 → s.chipDoubled = false → used →
      ∃ t, exec (.ref m port) s = .next t ∧ t.aveState = 2 ∧ cycleNum t = m.cycle % 2 ^ 32 ∧ t.ave.held = some m ∧
        t.isMaster = false ∧ t.ave.cycleStart = s.cycle - s.pathDelay (nodeChip m.master) port) ∧
    (s.aveState = 4 → s.chipDoubled = false → used → s.isMaster = false → s.ave.seen = false →
      m.master = s.fld Fld.AVE_STAT_MASTER_ID →
      ((s.cycle : Int) - ((s.ave.cycleStart + s.pathDelay (nodeChip m.master) port : Nat) : Int)).natAbs ≤ 6 →
      ∃ t, exec (.ref m port) s = .next t ∧ t.ave.held = some m ∧ t.ave.misses = 0 ∧ t.aveState = 4 ∧
        t.ave.offBig = 0) ∧
    (s.aveState = 4 → s.isMaster = false → s.ave.seen = false → s.ave.missed = false →
      (∀ p, p < 2 → s.ave.cycleStart + s.pathDelay (nodeChip (s.fld Fld.AVE_STAT_MASTER_ID)) p + 8 < s.cycle) →
      let r := s.fld Fld.AVE_ID_RANK
      ∃ t, exec .referenceMiss s = .next t ∧
        (r ≠ 0 → s.ave.misses + 1 = 3 * r → t.isMaster = true ∧ t.ave.misses = 0 ∧ t.aveState = 4) ∧
        (¬(r ≠ 0 ∧ s.ave.misses + 1 = 3 * r) → t.isMaster = false ∧ t.ave.misses = s.ave.misses + 1 ∧
          t.aveState = if 12 ≤ s.ave.misses + 1 then 6 else 4)) ∧
    (port < 2 → s.wilernUsed port = false → exec (.ref m port) s = .next s) ∧
    (s.aveState = 4 → s.isMaster = false → ∃ t, exec .reint s = .next t ∧ t.aveState = 5) ∧
    (s.isMaster = true → exec .reint s = .next s)

/-- R204–R209 (WILERN_ENABLE, TRAINING_STEP_DONE, TRAINING_RETRY, WILERN_LINK_DOWN, RELAY_FRAME): training goes through
the steps of Table AVE-17 in their order; a link that comes UP while the counter runs is not used in that cycle. -/
def Obligations.WilernLinks : Prop :=
  ∀ (s : State) (n origin k least ps : Nat) (off : Int) (msgs : List Msg) (f : RelayFrame),
    s.inReset = false → n < 2 →
    let medium := (least - 192 + 1) / 2
    let step := (s.training n).step
    let began := (s.training n).began
    let trained (i : TrainStep) (j : Nat) : Prop :=
      ∃ t, exec (.trainingStepDone n i) s = .next t ∧ t.wilernState n = 1 ∧
        t.training n = { step := j, began := s.cycle }
    (s.variant.hasWilern = true → s.mode ≠ 0 → s.wilernState n = 0 →
      ∃ t, exec (.wilernEnable n) s = .next t ∧ t.wilernState n = 1 ∧ t.wilernEnabled n = true ∧
        t.training n = { step := 0, began := s.cycle }) ∧
    (s.wilernState n = 1 →
      (step = 0 → s.cycle ≤ began + 160000 → trained (.clockRecovery 0xF) 1) ∧
      (step = 1 → s.cycle ≤ began + 80000 → trained (.blockLock 0xF) 2 ∧
        ∃ t, exec (.trainingStepDone n (.blockLock 0xF)) s = .next t ∧ t.fld (Fld.AVE_WLN_STAT_LANE_LOCK n) = 0xF) ∧
      (step = 2 → ps ≤ 20000 → trained (.deskew ps) 3) ∧
      (step ≠ 4 → exec (.trainingStepDone n (.echoes least)) s = .next s) ∧
      (∃ t, exec (.trainingStepDone n .failed) s = .next t ∧ t.wilernState n = 0) ∧
      (step = 4 → 255 < medium →
        ∃ t, exec (.trainingStepDone n (.echoes least)) s = .next t ∧ t.wilernState n = 3) ∧
      (step = 4 → medium ≤ 255 → ∃ t, exec (.trainingStepDone n (.echoes least)) s = .next t ∧
        t.fld (Fld.AVE_WLN_STAT_MEDIUM n) = medium ∧ (t.wilernState n = 2 ∨ t.wilernState n = 3) ∧
        (s.ave.started = true → t.wilernUsed n = false))) ∧
    (s.wilernEnabled n = true → s.mode ≠ 0 → s.wilernState n = 0 →
      (Store.get (fun _ => 0) s.ave.retryAt n ≤ s.cycle →
        ∃ t, exec (.trainingRetry n) s = .next t ∧ t.wilernState n = 1) ∧
      (s.cycle < Store.get (fun _ => 0) s.ave.retryAt n → exec (.trainingRetry n) s = .next s)) ∧
    (s.wilernState n = 2 → ∃ t, exec (.wilernLinkDown n) s = .next t ∧ t.wilernState n = 0 ∧
      t.fld (Fld.AVE_WLN_STAT_DOWN_CNT n) = min 255 (s.fld (Fld.AVE_WLN_STAT_DOWN_CNT n) + 1) ∧
      t.flag Fld.AVE_RING_STAT_BROKEN = true ∧ Store.get (fun _ => 0) t.ave.retryAt n = s.cycle + 800000) ∧
    (s.wilernUsed n = true → s.wilernUsed (1 - n) = true → origin ≠ s.chip →
      s.fld (Fld.AVE_WLN_STAT_PEER_CHIP (1 - n)) ≠ origin →
      (∃ t, exec (.relayFrame n origin f) s = .next t ∧ t.out = .relayed (1 - n) f :: s.out) ∧
      (off.natAbs ≤ 8 → ∃ t, exec (.relayFrame n origin (.slot k off true msgs)) s = .next t ∧
        ∃ r ∈ t.ave.replayNext, r.slot = k)) ∧
    exec (.relayFrame n s.chip f) s = .next s

/-- R199–R202 (AVE_CLAIM, AVE_CLAIM_RELEASE, CLAIM_MINISLOT, CLAIM, CLAIM_EVALUATION, CLAIM_TIMEOUT): a claim is
PENDING, sent once in its chip's mini-slot of a cycle whose DS − 16 its write has made, granted 64 cycles before a cycle
start where the named spare is free, and BUSY after 16 cycles. That a second copy of a chip's claim is discarded is the
model's reading (log entry 87). -/
def Obligations.SpareSlotClaims : Prop :=
  ∀ (s : State) (who : Ident) (slot l f : Nat) (c : Claim),
    s.serves who = true → Ident.isEngine who = false → s.took Reg.AVE_CLAIM = false →
    let result (t : State) (code : Nat) (done : Bool) : Prop :=
      t.fld Fld.AVE_CLAIM_STAT_RESULT = code ∧ t.flag Fld.AVE_CLAIM_STAT_DONE = done
    let files (i : Instr) (release : Bool) : Prop :=
      ∃ t, exec i s = .next t ∧ result t 1 false ∧
        t.ave.claim = some { claim := { node := s.aveNode l, slot := slot, release := release }, sent := none
                             filed := s.cycle }
    (s.ave.claim = none → l < 13 → s.hasLocal l = true → s.spareSlots.contains slot = true →
      (s.aveState = 4 → files (.aveClaim slot l who) false ∧ files (.aveClaimRelease slot l who) true) ∧
      (s.aveState ≠ 4 → ∃ t, exec (.aveClaim slot l who) s = .next t ∧ result t 5 true ∧ t.ave = s.ave)) ∧
    (s.ave.claim.isSome = true →
      ∃ t, exec (.aveClaim slot l who) s = .next t ∧ t.flag Fld.AVE_CLAIM_STAT_LOST = true ∧ t.ave = s.ave) ∧
    (s.ave.claim = some { claim := c, sent := none, filed := f } → s.chip < s.claimSlots → s.ave.started = true →
      s.aveState = 4 → s.flag Fld.AVE_STAT_RING_MISMATCH = false →
      (f + 16 ≤ s.ave.cycleStart + State.dynStart s.reg →
        s.cycle = s.ave.cycleStart + State.dynStart s.reg + 8 * s.chip →
          (∀ x ∈ s.ave.claims, nodeChip x.node ≠ nodeChip c.node) →
        ∃ t, exec (.claimMinislot s.chip) s = .next t ∧ t.out = .claimMsg c :: s.out ∧
          t.ave.claim = some { claim := c, sent := some (s.fld Fld.AVE_CYCLE_NUM_CYCLE), filed := f } ∧
          t.ave.claims = if s.isMaster then s.ave.claims ++ [c] else s.ave.claims) ∧
      (s.cycle ≠ s.ave.cycleStart + State.dynStart s.reg + 8 * s.chip → exec (.claimMinislot s.chip) s = .next s) ∧
      (s.ave.cycleStart + State.dynStart s.reg < f + 16 → exec (.claimMinislot s.chip) s = .next s)) ∧
    (s.isMaster = true →
      ((∀ x ∈ s.ave.claims, nodeChip x.node ≠ nodeChip c.node) →
        ∃ t, exec (.claim c) s = .next t ∧ t.ave.claims = s.ave.claims ++ [c]) ∧
      ((∃ x ∈ s.ave.claims, nodeChip x.node = nodeChip c.node) → exec (.claim c) s = .next s) ∧
      (s.cycle + 64 ≠ s.ave.cycleStart + s.ave.len → exec .claimEvaluation s = .next s) ∧
      (s.cycle + 64 = s.ave.cycleStart + s.ave.len → s.ave.claims = [c] → c.release = false → c.slot ≠ 0x3F →
        (∃ x ∈ s.ave.spare, x.slot = c.slot ∧ x.valid = true ∧ x.owner = 0xFF) →
        ∃ t, exec .claimEvaluation s = .next t ∧ t.ave.claims = [] ∧ State.spareOwner t.ave.spare c.slot = c.node ∧
          t.ave.claimsSeen.testBit (nodeChip c.node) = true)) ∧
    (∀ n, s.ave.claim = some { claim := c, sent := some n, filed := f } →
      16 ≤ (s.fld Fld.AVE_CYCLE_NUM_CYCLE + 2 ^ 32 - n) % 2 ^ 32 →
      ∃ t, exec .claimTimeout s = .next t ∧ t.ave.claim = none ∧ result t 2 true)

/-- R171, R173, R174, R178–R181 (STATIC_SLOT, SLOT_FRAME_RECEIPT, DYNAMIC_OFFER, AVE_GW_PTR): an owner sends its waiting
message at its action point, once; a frame outside the window is counted and discarded; an offer is used or passes, and
its message of b beats is held b + 15 cycles later. -/
def Obligations.SlotsAndOffers : Prop :=
  ∀ (s : State) (k d q : Nat) (m : Msg) (off : Int) (v : Word),
    s.inReset = false →
    (s.ave.started = true → k < s.fld Fld.AVE_SCHED_NSTATIC → s.cycle = s.actionPoint k →
      s.ave.slotDone.contains k = false → s.slotOwner k ≠ 0xFF → nodeChip (s.slotOwner k) = s.chip →
      8 ≤ s.slotOwner k % 16 → s.hasLocal (s.slotOwner k % 16) = true → s.slotRing k = true → s.maySend true = true →
      s.nodeQueue (s.slotOwner k % 16) = [m] → msgBeats m ≤ 64 →
      ∃ t, exec (.staticSlot k) s = .next t ∧ t.out = .slotFrame k true (State.frameBeats [m]) :: s.out ∧
        t.nodeQueue (s.slotOwner k % 16) = [] ∧ t.ave.slotDone = k :: s.ave.slotDone ∧
        t.ave.air = s.ave.air ++ [{ slot := k, at' := s.cycle, msgs := [m] }]) ∧
    (s.ave.slotDone.contains k = true → exec (.staticSlot k) s = .next s) ∧
    (∀ f rest, s.ave.air = f :: rest → f.msgs = [m] → f.at' + msgBeats m + 15 ≤ s.cycle →
      let gone : State := s.setAve { s.ave with air := rest }
      (8 < off.natAbs → ∀ bad, ∃ t, exec (.slotFrameReceipt off bad) s = .next t ∧ t.ave = gone.ave ∧
        t.fld Fld.AVE_CNT0_WINDOW = min 255 (s.fld Fld.AVE_CNT0_WINDOW + 1)) ∧
      (off.natAbs ≤ 8 → ∃ t, exec (.slotFrameReceipt off true) s = .next t ∧ t.ave = gone.ave ∧
        t.fld Fld.AVE_CNT0_CHECK = min 255 (s.fld Fld.AVE_CNT0_CHECK + 1)) ∧
      (off.natAbs ≤ 8 → m.type = 3 → exec (.slotFrameReceipt off false) s = exec (.engine m) gone)) ∧
    (s.ave.started = true → s.nextOffer.1 ≤ s.cycle → s.cycle < s.dynEnd →
      (8 ≤ s.nextOffer.2 → ∃ t, exec .dynamicOffer s = .next t ∧ t.ave.turn = (s.nextOffer.2 + 1) % 13 ∧
        t.ave.dynFree = s.nextOffer.1 + 8 ∧ t.out = s.out) ∧
      (∀ s', s.pickOffer s.nextOffer.2 = some (m, s') → s.nextOffer.1 + msgBeats m ≤ s.dynEnd - 15 →
        ∃ t, exec .dynamicOffer s = .next t ∧
          Out.dynamicMsg (s.aveNode s.nextOffer.2) (State.frameBeats [m]) ∈ t.out ∧
          t.ave.turn = (s.nextOffer.2 + 1) % 13 ∧
          t.ave.dynAir = s.ave.dynAir ++ [(s.nextOffer.1 + msgBeats m + 15, m)])) ∧
    (∀ c, s.ave.dynAir = [(c, m)] → c ≤ s.cycle →
      s.holdDynamic = (s.setAve { s.ave with dynAir := [] }).deliverMsg m) ∧
    (d < 8 → d < s.variant.districts → q < 2 →
      State.beatsBetween (s.fld (Fld.AVE_GW_PTR_HEAD d q)) (v.toNat / 65536) ≤ s.ringBytes d q / 32 →
      ∃ t, exec (.aveGwPtr d q v) s = .next t ∧ t.fld (Fld.AVE_GW_PTR_TAIL d q) = v.toNat / 65536 ∧
        t.fld (Fld.AVE_GW_PTR_HEAD d q) = s.fld (Fld.AVE_GW_PTR_HEAD d q)) ∧
    (d < 8 → d < s.variant.districts → q < 2 →
      s.ringBytes d q / 32 < State.beatsBetween (s.fld (Fld.AVE_GW_PTR_HEAD d q)) (v.toNat / 65536) →
      ∃ t, exec (.aveGwPtr d q v) s = .next t ∧ t.flag Fld.AVE_STAT_CFG_ERR = true ∧
        t.reg (Reg.AVE_GW_PTR d q) = s.reg (Reg.AVE_GW_PTR d q))

/-- R148, R181, R183, R399, R432, R449, R468 (ENGINE, SLICE, IMAGE, MAILBOX, LANTERN, SUPER, LEASE_MESSAGE) and R212
(FRAME): what the node named by DEST does with a message of each type. -/
def Obligations.AvenueMessages : Prop :=
  ∀ (s : State) (m : Msg) (w x y : Word) (d : Nat),
    s.inReset = false → nodeChip m.dest = s.chip → m.dest < 0x80 → d < s.variant.districts → d < 8 →
    (m.type = 3 → m.dest % 16 = d → m.sub ≤ 11 →
      let head := s.fld (Fld.AVE_GW_PTR_HEAD d 2)
      let tail := s.fld (Fld.AVE_GW_PTR_TAIL d 2)
      (State.beatsBetween head tail + msgBeats m ≤ s.ringBytes d 2 / 32 →
        ∃ t, exec (.engine m) s = .next t ∧ t.fld (Fld.AVE_GW_PTR_TAIL d 2) = (tail + msgBeats m) % 65536) ∧
      (s.ringBytes d 2 / 32 < State.beatsBetween head tail + msgBeats m →
        ∃ t, exec (.engine m) s = .next t ∧ t.fld (Fld.AVE_GW_PTR_TAIL d 2) = tail ∧
          t.fld Fld.AVE_CNT1_RX_DROP = min 255 (s.fld Fld.AVE_CNT1_RX_DROP + 1))) ∧
    (m.type = 4 → m.dest % 16 = d → m.flowv = false → m.payload = [w, x] → fieldGet w 8 6 = 1 →
      let first := fieldGet w 0 6
      (16 ≤ first → first < 48 → s.sliceOwner d first = 14 →
        ∃ t, exec (.slice m) s = .next t ∧ Store.get (fun _ => none) (t.dist d).pendW (14 * 64 + first) = some x) ∧
      (48 ≤ first → ∃ t, exec (.slice m) s = .next t ∧ (t.dist d).pendW = (s.dist d).pendW ∧
        t.fld (Fld.AVE_GW_CNT_SLICE_REJ d) = min 255 (s.fld (Fld.AVE_GW_CNT_SLICE_REJ d) + 1))) ∧
    (m.type = 5 → m.dest % 16 = 8 → m.payload = [w, x] → 4 ≤ fieldGet w 21 11 →
      (s.clockGone 0 = false → s.flag Fld.XING_STAT_FATAL = false → 1 ≤ s.freeCells →
        ∃ t, exec (.frame m) s = .next t ∧ t.xing.arrived = s.xing.arrived ++ [s.xing.nextFrame] ∧
          t.freeCells + 1 = s.freeCells) ∧
      (s.clockGone 0 = true → ∃ t, exec (.frame m) s = .next t ∧ t.xing = s.xing ∧
        t.fld Fld.SYS_CLK_STAT_DISCARD_CNT = min 65535 (s.fld Fld.SYS_CLK_STAT_DISCARD_CNT + 1))) ∧
    (m.type = 6 → m.dest % 16 = 9 → m.sub = 0 → m.payload = [w, x] →
      ∃ t r, exec (.image m) s = .next t ∧ t.nodeQueue 9 = s.nodeQueue 9 ++ [r] ∧ r.sub = 2 ∧
        r.payload.take 2 = [w, x] ∧ r.payload.length = 6) ∧
    (m.type = 7 → m.dest % 16 = 10 → m.sub = 2 → m.payload = [w] → Ident.isHost (w.setWidth 16) = true →
      ∃ t, exec (.mailbox m) s = .next t ∧
        (t.reg (Reg.MBX_DB (Ident.src (w.setWidth 16)))).getLsbD (fieldGet w 16 5) = true) ∧
    (m.type = 8 → m.dest % 16 = d → m.sub = 1 → m.payload = [w, x, y] → w.getLsbD 16 = false →
      s.engState (fieldGet w 0 16) ≠ 3 → (s.eng (fieldGet w 0 16)).dropped = [] →
      (s.eng (fieldGet w 0 16)).returned = none → (∀ q ∈ (s.eng (fieldGet w 0 16)).stack, q.held = []) →
      ∀ lw, (s.eng (fieldGet w 0 16)).leaseWait = some lw → lw.handle = x.toNat → lw.release = false → lw.gd ≠ 0 →
      ∃ t, exec (.leaseMessage m) s = .next t ∧ t.greg (fieldGet w 0 16) lw.gd = y ∧
        (t.eng (fieldGet w 0 16)).leaseWait = none ∧ (y = 0 → (t.eng (fieldGet w 0 16)).leaseId = x)) ∧
    (m.type = 9 → m.dest % 16 = 10 → m.src = s.chip * 16 + d → m.payload = [w, x] →
      ∃ t, exec (.lantern m) s = .next t ∧ (t.beat (d * 12)).lantern = fieldGet x 0 8 ∧
        (t.beat (d * 12)).fault = x.getLsbD 8 ∧ d ∈ t.red.heard) ∧
    (m.type = 0xA → m.dest % 16 = 10 → m.payload = [w] → w.getLsbD 6 = false → w.getLsbD 7 = false →
      s.pairState (fieldGet w 0 6) ≠ 0 → (s.pair (fieldGet w 0 6)).remote = some (nodeChip m.src) →
      ∃ t, exec (.super m) s = .next t ∧ (t.pair (fieldGet w 0 6)).silent = 0 ∧ t.regs = s.regs)

/-! ### The Crossing -/

/-- R68, R215, R225, R228, R231, R233, R235, R237, R241, R243, R245, R246, R255 (CLASSIFICATION, COPY_ENQUEUE,
DESTINATION_CHOICE, TRANSMIT_END, GATE_EVENT, GATE_WINDOW_CLOSE, SPILL_WRITE_DONE, SPILL_READ_BACK): the way of a
frame from its arrival to its last byte, and its drops with their reason codes. -/
def Obligations.CrossingFrames : Prop :=
  ∀ (s : State) (f q n : Nat) (x : Frame) (d : Direct) (c : Copy) (y : Spilled),
    s.inReset = false → s.clockGone 0 = false → q < 512 → n < 34 →
    let dropped (t : State) (r : Nat) : Prop :=
      t.fld (Fld.XING_DROP_COUNT r) = min (2 ^ 32 - 1) (s.fld (Fld.XING_DROP_COUNT r) + 1)
    (s.nextArrived = some f → s.frame f = some x → s.flag Fld.XING_STAT_FATAL = false →
      let rest := s.xing.arrived.filter (· != f)
      (x.direct = none → s.vlanStep x = none → x.source < 256 →
        ∃ t, exec .classification s = .next t ∧ t.xing.arrived = rest ∧ t.xing.admitted = s.xing.admitted ∧ dropped t 1 ∧
          ((s.xing.dropAt = some (s.cycle * 5 / 8) → 1 ≤ s.fld Fld.XING_DROP_LAST_REASON) →
            t.reg Reg.XING_DROP_LAST = BitVec.ofNat 32 (1 + 2 ^ 8 * x.source + 2 ^ 16 * 0x1FF + 2 ^ 31))) ∧
      (let qm := (s.tbl 4 (d.dest * 8 + d.prio)).d0
       let qn := fieldGet qm 0 9
       let e := s.tbl 5 qn
       x.direct = some d → x.tag = none → 34 ≤ d.dest → d.dest < 43 → fieldGet qm 9 1 = 1 →
       s.fld Fld.XING_BUF_CFG_HI_RESERVE ≤ s.freeCells → fieldGet e.d0 13 1 = 0 →
       s.queueCells qn + x.cells.length ≤ fieldGet e.d1 0 16 →
        ∃ t k, exec .classification s = .next t ∧ t.xing.arrived = rest ∧
          t.xing.admitted = s.xing.admitted ++ [(k, false)] ∧ k.frame = f ∧ k.dest = d.dest ∧ k.queue = qn)) ∧
    (∀ rest, s.xing.admitted = (c, false) :: rest → c.queue < 512 → (s.queue c.queue).copies = [] →
      fieldGet (s.tbl 5 c.queue).d1 16 16 = 0 →
      (c.dest < 34 → s.flag (Fld.ETH_CTRL_EN c.dest) = true ∧ s.flag (Fld.ETH_STAT_FLUSHED c.dest) = false ∧
        s.isThru c.dest = false) →
      ∃ t, exec .copyEnqueue s = .next t ∧ t.xing.admitted = rest ∧
        (t.queue c.queue).copies = [{ c with enqueued := s.cycle, joined := s.lineTime, seq := s.xing.nextSeq }]) ∧
    (s.queuesOf n = [q] → (s.queue q).copies = [c] → (s.queue q).spill = [] → c.dest = n → c.queue = q →
      s.isAlleyQueue q n = false → s.gatePasses q c = true → c.size ≤ (s.queue q).deficit → s.macFree n = true →
      State.isT1s n = false →
      (s.copyBarred c = false →
        ∃ t, exec (.destinationChoice n) s = .next t ∧ (t.port n).sending = some c ∧ (t.queue q).copies = []) ∧
      (s.copyBarred c = true → ∃ t, exec (.destinationChoice n) s = .next t ∧ (t.port n).sending = none ∧
        (t.queue q).copies = [] ∧ dropped t 0x08)) ∧
    (s.queuesOf 42 = [] → exec (.destinationChoice 42) s = .next s) ∧
    ((s.port n).sending = some c → (s.port n).deferred = false → s.frame c.frame = some x →
      ∃ t, exec (.transmitEnd n) s = .next t ∧ Out.frame n (s.egressBytes x c) ∈ t.out ∧ (t.port n).sending = none) ∧
    (∀ g u h v, (s.gates n).line = [(u, g), (v, h)] → u ≤ v →
      (v ≤ s.lineTime → s.sched n = h ∧
        (s.looksBack n v = false → ∃ t, exec (.gateEvent n) s = .next t ∧ (t.gates n).line = [(v, h)]) ∧
        (s.looksBack n v = true → exec (.gateEvent n) s = .next s)) ∧
      (s.lineTime < v → (u ≤ s.lineTime → s.sched n = g) ∧
        ∃ t, exec (.gateEvent n) s = .next t ∧ t.gates n = s.gates n)) ∧
    ((s.queue q).copies = [c] → s.windowClosed q c = true → s.frame c.frame = some x →
      ∃ t, exec (.gateWindowClose q) s = .next t ∧ (t.queue q).copies = [] ∧ dropped t 0x0C) ∧
    (s.clockGone 3 = false → (s.queue q).spill = [y] → s.frame y.copy.frame = some x →
      (y.bytes = none →
        ∃ t, exec (.spillWriteDone q) s = .next t ∧ (t.queue q).spill = [{ y with bytes := some (s.frameBytes x) }]) ∧
      (∀ bs, y.bytes = some bs → s.queueCells q < fieldGet (s.tbl 5 q).d1 0 16 / 2 →
        (s.freeCells < State.cellsFor bs.length →
          ∃ t, exec (.spillReadBack q) s = .next t ∧ (t.queue q).spill = [] ∧ dropped t 0x0E) ∧
        (State.cellsFor bs.length ≤ s.freeCells → s.flag Fld.XING_STAT_FATAL = false → x.refs = 0 → x.leases = 0 →
          (s.queue q).copies = [] → 34 ≤ y.copy.dest → fieldGet (s.tbl 5 q).d1 16 16 = 0 →
          ∃ t, exec (.spillReadBack q) s = .next t ∧ (t.queue q).spill = [] ∧ (t.queue q).copies = [y.copy])))

/-- R216, R219, R220, R224, R252, R254 (OLD_GENERATION_RETIRE, BANK_SYNC_DONE, XING_TBL_READ, XING_TBL_WRITE,
LAMPLIGHTER_EXAMINE): a table command reads the generation and writes the shadow under a transaction alone, and a lost
cell is freed at its second examination. -/
def Obligations.CrossingTables : Prop :=
  ∀ (s : State) (who : Ident) (r : Bool),
    s.inReset = false →
    let i := s.fld Fld.XING_TBL_ADDR_INDEX
    let k := s.fld Fld.XING_TBL_ADDR_TABLE
    let result (t : State) (code : Nat) : Prop := t.reg Reg.XING_TBL_CMD = BitVec.ofNat 32 (4 + 65536 * code)
    (s.clockGone 0 = false → s.flag Fld.XING_GEN_STAT_OLD_LIVE = true →
      (s.fld Fld.XING_GEN_STAT_OLD_INFLIGHT = 0 →
        ∃ t, exec .oldGenerationRetire s = .next t ∧ t.flag Fld.XING_GEN_STAT_OLD_LIVE = false ∧ t.xing.old = []) ∧
      (s.fld Fld.XING_GEN_STAT_OLD_INFLIGHT ≠ 0 → exec .oldGenerationRetire s = .next s) ∧
      exec .bankSyncDone s = .next s) ∧
    (s.clockGone 0 = false → s.flag Fld.XING_GEN_STAT_OLD_LIVE = false → s.xing.syncAt ≤ s.cycle →
      ∃ t, exec .bankSyncDone s = .next t ∧ t.flag Fld.XING_GEN_STAT_SYNC = true) ∧
    (s.serves who = true → i < tableSize k → s.holdsXing who = false → s.flag Fld.XING_TBL_ADDR_OLD = false →
      ∃ t, exec (.xingTblRead who) s = .next t ∧ result t 0 ∧ t.tblData = s.tbl k i ∧ t.xing = s.xing) ∧
    (s.serves who = true → tableSize k ≤ i →
      (∃ t, exec (.xingTblRead who) s = .next t ∧ result t 3 ∧ t.xing = s.xing) ∧
      (∃ t, exec (.xingTblWrite who) s = .next t ∧ result t 3 ∧ t.xing = s.xing)) ∧
    (s.serves who = true → i < tableSize k → s.holdsXing who = false →
      ∃ t, exec (.xingTblWrite who) s = .next t ∧ result t 5 ∧ t.flag Fld.XING_STAT_CFG_ERR = true ∧ t.xing = s.xing) ∧
    (s.serves who = true → i < tableSize k → s.holdsXing who = true → s.xingShadowSize < 8192 →
      ∃ t, exec (.xingTblWrite who) s = .next t ∧ result t 0 ∧ t.xing.tables = s.xing.tables ∧
        Store.get (fun _ => none) t.xing.shadow (k * 65536 + i) = some s.tblData) ∧
    (s.clockGone 0 = false → s.xing.lamp + 1 < 32768 →
      let found := s.xing.cells.find? fun p => p.1 == s.xing.lamp
      (found = none → ∃ t, exec .lamplighterExamine s = .next t ∧ t.xing.lamp = s.xing.lamp + 1 ∧
        t.xing.cells = s.xing.cells ∧ t.freeCells = s.freeCells) ∧
      (found = some (s.xing.lamp, .lost r false) → ∃ t, exec .lamplighterExamine s = .next t ∧
        t.xing.lamp = s.xing.lamp + 1 ∧ t.freeCells = s.freeCells ∧
        t.xing.cells = Store.insert s.xing.cells s.xing.lamp (.lost r true)) ∧
      (found = some (s.xing.lamp, .lost r true) → s.freeCells < 32768 → ∃ t, exec .lamplighterExamine s = .next t ∧
        t.xing.lamp = s.xing.lamp + 1 ∧ t.freeCells = s.freeCells + 1 ∧
        t.xing.cells = Store.erase s.xing.cells s.xing.lamp))

/-! ### Ethernet ports -/

/-- R257, R258, R264, R265, R269, R282–R288 (RECEIVE_FRAME, ETH_RX_SOF, ETH_TX_SOF, PORT_ENABLE, PORT_DISABLE, LINK_UP,
LINK_DOWN, HOLD_EXPIRY, ETH_SNAP, PLCA_CYCLE, TRANSMIT_OPPORTUNITY, BEACON_RECEIPT, BEACON_TIMEOUT, COLLISION,
BACKOFF_EXPIRY). -/
def Obligations.EthernetPorts : Prop :=
  ∀ (s : State) (who : Ident) (n speed u : Nat) (bs : List Byte) (c : Copy),
    s.inReset = false → s.variant.hasPort n = true → n < 34 →
    let cnt (t : State) (i : Nat) : Word := t.reg (Reg.ETH_CNT n i)
    let p := s.port n
    let en (t : State) : Bool := t.flag (Fld.ETH_CTRL_EN n)
    (s.clockGone 0 = false → s.ethActive n = true → s.isThru n = false → bs.length ≤ s.maxLen n →
      (64 ≤ bs.length → goodFcs bs = true → wire16 bs 12 ≠ 0x8808 → s.flag Fld.XING_STAT_FATAL = false →
        State.cellsFor bs.length ≤ s.freeCells →
        ∃ t, exec (.receiveFrame n bs false 0) s = .next t ∧ cnt t 0 = cnt s 0 + 1 ∧
          t.xing.arrived = s.xing.arrived ++ [s.xing.nextFrame]) ∧
      (64 ≤ bs.length → goodFcs bs = false →
        ∃ t, exec (.receiveFrame n bs false 0) s = .next t ∧ cnt t 12 = cnt s 12 + 1 ∧ t.xing = s.xing) ∧
      (bs.length < 64 → goodFcs bs = true →
        ∃ t, exec (.receiveFrame n bs false 0) s = .next t ∧ cnt t 14 = cnt s 14 + 1 ∧ t.xing = s.xing)) ∧
    (s.clockGone 0 = false → s.ethActive n = true → s.flag (Fld.ETH_CFG_STAMPQ n) = false → s.syncLine (64 + n) = 0 →
      ∃ t, exec (.ethRxSof n) s = .next t ∧ (t.port n).stamp = none ∧ (t.port n).stampLost = false ∧
        t.syncLine (64 + n) = 1) ∧
    (s.clockGone 0 = false → s.ethMaySend n = true → s.syncLine (128 + n) = 0 →
      ∃ t, exec (.ethTxSof n) s = .next t ∧ t.syncLine (128 + n) = 1) ∧
    (s.ethActive n = false → exec (.ethRxSof n) s = .next s ∧ exec (.ethTxSof n) s = .next s) ∧
    (s.asks who = true → s.serves who = true →
      (∃ t, exec (.portEnable n who) s = .next t ∧ en t = true) ∧
      (∃ t, exec (.portDisable n who) s = .next t ∧ en t = false ∧ (en s = true → t.linkUp n = false)) ∧
      (∃ t, exec (.ethSnap n who) s = .next t ∧ t.flag (Fld.ETH_SNAP_DONE n) = true ∧
        ∀ i, i < 48 → t.reg (Reg.ETH_SNAP_CNT n i) = cnt s i)) ∧
    (n < 26 → en s = true → s.linkUp n = false → Mode.commission ≤ s.mode → s.speedAllowed n speed = true →
      ∃ t, exec (.linkUp n speed) s = .next t ∧ t.linkUp n = true ∧ t.fld (Fld.ETH_STAT_SPEED_ACT n) = speed ∧
        t.flag (Fld.ETH_STAT_HOLDING n) = false ∧ t.flag (Fld.ETH_STAT_FLUSHED n) = false) ∧
    (n < 26 → s.linkUp n = true → s.isThru n = false →
      let ms := s.fld (Fld.ETH_HOLD_HOLD_MS n)
      ∃ t, exec (.linkDown n) s = .next t ∧ t.linkUp n = false ∧ cnt t 44 = cnt s 44 + 1 ∧
        (ms = 0 → t.flag (Fld.ETH_STAT_FLUSHED n) = true ∧ t.flag (Fld.ETH_STAT_HOLDING n) = false) ∧
        (ms ≠ 0 → t.flag (Fld.ETH_STAT_HOLDING n) = true ∧ (t.port n).holdUntil = some (s.cycle + ms * 800000))) ∧
    (p.holdUntil = some u →
      (u * 5 / 8 < s.cycle * 5 / 8 → ∃ t, exec (.holdExpiry n) s = .next t ∧ t.flag (Fld.ETH_STAT_HOLDING n) = false ∧
        t.flag (Fld.ETH_STAT_FLUSHED n) = true ∧ (t.port n).holdUntil = none ∧ cnt t 45 = cnt s 45 + 1) ∧
      (s.cycle * 5 / 8 ≤ u * 5 / 8 → exec (.holdExpiry n) s = .next s)) ∧
    (s.clockGone 0 = false → State.isT1s n = true →
      (s.t1sMode n = 1 → s.ethMaySend n = true →
        ∃ t, exec (.plcaCycle n) s = .next t ∧ (t.port n).opp = 0 ∧ t.out = .beacon n :: s.out) ∧
      (s.t1sMode n = 1 → s.ethMaySend n = true → p.opp < s.fld (Fld.ETH_PLCA_NODE_CNT n) →
        (p.opp ≠ s.fld (Fld.ETH_PLCA_NODE_ID n) →
          ∃ t, exec (.transmitOpportunity n) s = .next t ∧ (t.port n).opp = p.opp + 1 ∧ (t.port n).burst = 0) ∧
        (p.opp = s.fld (Fld.ETH_PLCA_NODE_ID n) → p.sending = some c →
          ∃ t, exec (.transmitOpportunity n) s = .next t ∧ (t.port n).opp = p.opp + 1 ∧ (t.port n).deferred = false ∧
            (t.port n).burst = s.fld (Fld.ETH_PLCA_BURST_CNT n))) ∧
      (s.t1sMode n = 0 → s.ethActive n = true → p.opp ≠ s.fld (Fld.ETH_PLCA_NODE_ID n) →
        ∃ t, exec (.transmitOpportunity n) s = .next t ∧ (t.port n).opp = p.opp + 1 ∧ (t.port n).burst = 0) ∧
      (en s = true → Mode.commission ≤ s.mode →
        (s.t1sMode n = 1 → ∃ t, exec (.beaconReceipt n) s = .next t ∧ cnt t 42 = cnt s 42 + 1) ∧
        (s.t1sMode n = 0 → ∃ t, exec (.beaconReceipt n) s = .next t ∧ (t.port n).lastBeacon = s.cycle ∧
          (t.port n).opp = 0 ∧
          (s.cycle < p.lastBeacon + beaconTime s n → 1 ≤ p.beacons → s.linkUp n = false → t.linkUp n = true))) ∧
      (s.t1sMode n = 0 → s.linkUp n = true →
        (p.lastBeacon + beaconTime s n ≤ s.cycle →
          ∃ t, exec (.beaconTimeout n) s = .next t ∧ t.linkUp n = false ∧ (t.port n).beacons = 0 ∧
            cnt t 42 = cnt s 42 + 1) ∧
        (s.cycle < p.lastBeacon + beaconTime s n → exec (.beaconTimeout n) s = .next s)) ∧
      (s.ethMaySend n = true → p.sending = some c → p.deferred = false →
        (s.t1sMode n = 2 → p.attempts + 1 < 16 →
          ∃ t k, exec (.collision n false) s = .next t ∧ (t.port n).deferred = true ∧ (t.port n).attempts = p.attempts + 1 ∧
            k < 2 ^ min (p.attempts + 1) 10 ∧ (t.port n).backoff = some (s.cycle + k * 40960) ∧ cnt t 39 = cnt s 39 + 1) ∧
        (s.t1sMode n = 2 → ∃ t, exec (.collision n true) s = .next t ∧ (t.port n).sending = none ∧
          cnt t 40 = cnt s 40 + 1) ∧
        (s.t1sMode n ≠ 2 → p.attempts + 1 < 16 → ∀ late, ∃ t, exec (.collision n late) s = .next t ∧
          (t.port n).deferred = true ∧ (t.port n).sending = some c ∧ cnt t 43 = cnt s 43 + 1) ∧
        (16 ≤ p.attempts + 1 → ∃ t, exec (.collision n false) s = .next t ∧ (t.port n).sending = none ∧
          cnt t 41 = cnt s 41 + 1)) ∧
      (s.ethMaySend n = true → p.backoff = some u →
        (u ≤ s.cycle → ∃ t, exec (.backoffExpiry n) s = .next t ∧ (t.port n).backoff = none ∧
          (t.port n).deferred = false) ∧
        (s.cycle < u → exec (.backoffExpiry n) s = .next s)))

/-- R216, R266–R268, R271–R279, R461 (RX_HEAD, RX_CTRL, TX_TAIL, TX_DESCRIPTOR, ALLOC, APT_A, THRU_FRAME,
PATCH_WINDOW_LOAD, PATCH_ARRIVAL, HOST_TX_DESCRIPTOR): the frame interface of an engine of the port's district, the
through-path's patches, and the host's descriptor ring. -/
def Obligations.FrameInterface : Prop :=
  ∀ (s : State) (n e v d f : Nat) (w : Word) (x : Frame) (bs : List Byte) (g : ThruFrame),
    s.inReset = false → n < 34 →
    let p := s.port n
    let waiting := (p.rxTail + 256 - p.rxHead) % 256
    (s.ownsPort e n = true →
      (waiting < (v % 256 + 256 - p.rxHead) % 256 → ∃ t, exec (.rxHead n e v) s = .next t ∧ (t.port n).rxHead = p.rxHead ∧
        t.flag (Fld.ETH_STAT_CFG_ERR n) = true) ∧
      ((v % 256 + 256 - p.rxHead) % 256 ≤ waiting →
        ∃ t, exec (.rxHead n e v) s = .next t ∧ (t.port n).rxHead = v % 256 ∧
          (∀ l, p.handed = [] → (v % 256 + 256 - p.rxHead) % 256 = 1 → s.leases = [l] → l.type = 1 → p.rxHead < 256 →
            l.index = fieldGet (Store.get (fun _ => 0) p.rxDesc (p.rxHead * 4)) 0 15 → Ident.isEngine l.holder = true →
            Ident.engine l.holder / 12 = e / 12 → l.holder = s.ident (0x10 + Ident.engine l.holder) → t.leases = [])) ∧
      (w.toNat % 16 < 12 → ∃ t, exec (.rxCtrl n e w) s = .next t ∧ (t.port n).rxCtrl = w &&& 0x1F#32) ∧
      (12 ≤ w.toNat % 16 → ∃ t, exec (.rxCtrl n e w) s = .next t ∧ t.ports = s.ports ∧ (t.eng e).refused =
        (s.eng e).refused ++ [{ space := .port, addr := n * 0x10000 + 8, bytes := 4 }]) ∧
      (∃ t, exec (.txTail n e v) s = .next t ∧ (t.port n).txTail = v % 128 ∧ (t.port n).txDesc = p.txDesc) ∧
      (fieldGet w 16 3 ≤ 4 → ∀ b, ∃ t, exec (.aptA n e (e % 12) b w) s = .next t ∧
        Store.get (fun _ => 0) (if b then (t.port n).aptB else (t.port n).aptA) (e % 12) =
          (w &&& 0x77FFF#32) ||| 0x10000000#32) ∧
      (4 < fieldGet w 16 3 → ∀ l b, ∃ t, exec (.aptA n e l b w) s = .next t ∧ t.ports = s.ports ∧
        (t.eng e).refused.length = (s.eng e).refused.length + 1) ∧
      (1 ≤ w.toNat → w.toNat ≤ 65791 → s.beyondCap (e / 12) (State.cellsFor w.toNat) = false →
        s.fld Fld.XING_BUF_CFG_HI_RESERVE + State.cellsFor w.toNat ≤ s.freeCells → s.flag Fld.XING_STAT_FATAL = false →
        ∃ t cell, exec (.alloc n e w) s = .next t ∧ Store.get (fun _ => 0) (t.port n).allocRes (e % 12) = 0 ∧
          Store.get (fun _ => 0) (t.port n).alloc (e % 12) = BitVec.ofNat 32 (0x10000000 + cell) ∧
          t.leases = { type := 1, district := 0, index := cell, holder := s.ident (0x10 + e) } :: s.leases) ∧
      (65791 < w.toNat → ∃ t, exec (.alloc n e w) s = .next t ∧ t.leases = s.leases ∧ t.xing = s.xing ∧
        Store.get (fun _ => 0) (t.port n).allocRes (e % 12) = 3 ∧ Store.get (fun _ => 0) (t.port n).alloc (e % 12) = 0)) ∧
    (s.ownsPort e n = false → exec (.rxHead n e v) s = .next s ∧ exec (.alloc n e w) s = .next s) ∧
    (s.clockGone 0 = false →
      let i := p.txHead
      let holder := Store.get (fun _ => 0) p.holder i
      let desc : TxDesc := ⟨s.txWord n i 0, s.txWord n i 1, s.txWord n i 2, s.txWord n i 3, s.txWord n i 4⟩
      (s.nextRing d = none → exec (.txDescriptor d) s = .next s) ∧
      (s.nextRing d = some n → s.holdsCell holder desc.cell = false →
        ∃ t, exec (.txDescriptor d) s = .next t ∧ (t.port n).txHead = (i + 1) % 128 ∧ t.txWord n i 5 = 0xB#32 ∧
          t.txWord n i 0 = s.txWord n i 0 &&& 0x7FFFFFFF#32 ∧
          t.reg (Reg.ETH_CNT n 38) = s.reg (Reg.ETH_CNT n 38) + 1) ∧
      (s.nextRing d = some n → desc.lso = false → s.txCode holder desc [] = Code.ok → s.frameOfCell desc.cell = some f →
        s.frame f = some x → x.refs = 0 → x.copies = 0 → x.leases = 1 → s.flag Fld.XING_STAT_FATAL = false →
        State.cellsFor (max 60 desc.len + 4) ≤ x.cells.length →
        ∃ t, exec (.txDescriptor d) s = .next t ∧ (t.port n).txHead = (i + 1) % 128 ∧ t.txWord n i 5 = 0x10000#32 ∧
          t.xing.arrived = s.xing.arrived ++ [f])) ∧
    (s.clockGone 0 = false → s.ethActive n = true → s.isThru n = true → p.leaving = [] → ∀ align symbols,
      (p.thru = none →
        ∃ t g, exec (.thruFrame n ⟨bs, align, symbols⟩) s = .next t ∧ (t.port n).patchFrame = (p.patchFrame + 1) % 256 ∧
          (t.port n).leaving = [] ∧ (t.port n).thru = some g ∧ g.bytes = bs ∧ g.patches = [] ∧ g.sent = false ∧
          g.output = if s.thruBarred bs then none else s.thruOutput n) ∧
      (p.thru = some g → g.output.isSome = true → g.sent = false → s.thruDue g = false →
        ∃ t, exec (.thruFrame n ⟨bs, align, symbols⟩) s = .next t ∧ (t.port n).leaving = [g] ∧
          (t.port n).patchFrame = (p.patchFrame + 1) % 256)) ∧
    (s.clockGone 0 = false → s.variant.hasPort n = true → s.isThru n = true →
      (p.thru = none → ∃ t, exec (.patchArrival n v bs) s = .next t ∧ (t.port n).thru = none ∧
        t.reg (Reg.ETH_CNT n 36) = s.reg (Reg.ETH_CNT n 36) + 1) ∧
      (∀ o, p.thru = some g → g.output = some o → g.sent = false → v + bs.length ≤ g.bytes.length →
        5 * (s.cycle - g.began) + 64 ≤ 4 * (g.delayNs + g.byteNs * v) →
        ∃ t, exec (.patchArrival n v bs) s = .next t ∧
          (t.port n).thru = some { g with patches := g.patches ++ [(v, bs)] } ∧
          t.reg (Reg.ETH_CNT n 35) = s.reg (Reg.ETH_CNT n 35) + 1)) ∧
    (∀ l, (s.eng e).loadWait = some l → l.space = .port → l.d.val ≠ 0 →
      let got := s.windowBytes (l.addr / 0x10000) (l.addr % 0x10000 - 0x4000) l.bytes
      (got = none ∨ s.engState e = 3 → exec (.patchWindowLoad e) s = .next s) ∧
      (∀ k, s.engState e ≠ 3 → got = some k → l.signed = false → l.wide = false →
        ∃ t, exec (.patchWindowLoad e) s = .next t ∧ (t.eng e).loadWait = none ∧ t.rd e false l.d = k % 2 ^ 32 ∧
          t.pc e = s.pc e + BitVec.ofNat 32 l.len)) ∧
    (s.clockGone 0 = false → s.flag Fld.MBX_HOST_CFG_HRING_EN = true →
      s.fld Fld.MBX_HTX_HEAD_HEAD ≠ s.fld Fld.MBX_HTX_TAIL_TAIL →
      let a := 0x10000 + s.fld Fld.MBX_HTX_HEAD_HEAD * 32
      ∃ t, exec .hostTxDescriptor s = .next t ∧ t.fld Fld.MBX_HTX_HEAD_HEAD = (s.fld Fld.MBX_HTX_HEAD_HEAD + 1) % 2048 ∧
        (s.hostMem.readLE a 4 % 2 ^ 17 < 14 → t.hostMem.readLE (a + 20) 4 = 3 ∧ t.xing = s.xing))

/-! ### CAN FD and serial lines -/

/-- R295, R296, R310–R313 (CAN_ENABLE, CAN_DISABLE, INTEGRATION_DONE, CAN_SOF, CAN_RXID, TX_REQUEST, TX_CANCEL,
BOFF_RECOVER, ARBITRATION_CHOICE, ATTEMPT_END, BUS_ERROR, RECOVERY_DONE). The steps of TEC and REC are those of
ISO 11898-1 (log entry 29). -/
def Obligations.CanControl : Prop :=
  ∀ (s : State) (n k more point d : Nat) (tdc : Option Nat) (v : Word) (who : Ident),
    s.inReset = false → s.variant.hasCan n = true → k < 32 →
    let result (t : State) (cmd code : Nat) : Prop :=
      t.fld (Fld.CAN_CMD_RES_RESULT n) = code ∧ t.fld (Fld.CAN_CMD_RES_CMD n) = cmd ∧ t.flag (Fld.CAN_CMD_RES_DONE n) = true
    let tec := s.fld (Fld.CAN_ECNT_TEC n)
    let rec' := s.fld (Fld.CAN_ECNT_REC n)
    (s.asks who = true → s.serves who = true →
      (s.canOp n = 0 → Mode.commission ≤ s.mode →
        (s.dataBit n ≤ s.nominalBit n →
          ∃ t, exec (.canEnable n who) s = .next t ∧ t.flag (Fld.CAN_CTRL_EN n) = true ∧ t.canOp n = 1) ∧
        (s.nominalBit n < s.dataBit n →
          ∃ t, exec (.canEnable n who) s = .next t ∧ t.flag (Fld.CAN_STAT_CFG_ERR n) = true ∧ t.canOp n = 0)) ∧
      ((s.can n).busy = false → ∃ t, exec (.canDisable n who) s = .next t ∧ t.flag (Fld.CAN_CTRL_EN n) = false ∧
        t.canOp n = 0) ∧
      (v.getLsbD 29 = false → fieldGet v 11 18 ≠ 0 → ∃ t, exec (.canRxid n k v who) s = .next t ∧
        t.flag (Fld.CAN_STAT_CFG_ERR n) = true ∧ t.reg (Reg.CAN_RXID n k) = s.reg (Reg.CAN_RXID n k)) ∧
      (v.getLsbD 29 = true ∨ fieldGet v 11 18 = 0 → ∃ t, exec (.canRxid n k v who) s = .next t ∧
        t.reg (Reg.CAN_RXID n k) = v ∧ (t.rxObj n k).new = false ∧ (t.rxObj n k).pend = none) ∧
      (s.flag (Fld.CAN_CMD_RES_DONE n) = false ∨ s.took (Reg.CAN_CMD n) = true → ∃ t,
        exec (.txRequest n k who) s = .next t ∧ t.cans = s.cans ∧ t.flag (Fld.CAN_CMD_RES_LOST n) = true) ∧
      (s.flag (Fld.CAN_CMD_RES_DONE n) = true → s.took (Reg.CAN_CMD n) = false →
      (s.txBadArg n k = true → ∃ t, exec (.txRequest n k who) s = .next t ∧ (t.txObj n k).state = 5 ∧ result t 2 3) ∧
      ((s.txObj n k).state = 0 →
        (s.txBadArg n k = false → ∃ t, exec (.txRequest n k who) s = .next t ∧ (t.txObj n k).state = 1 ∧ result t 2 0) ∧
        (∃ t, exec (.txCancel n k who) s = .next t ∧ t.cans = s.cans ∧ result t 3 5)) ∧
      ((s.txObj n k).state = 1 →
        (s.txBadArg n k = false → ∃ t, exec (.txRequest n k who) s = .next t ∧ t.cans = s.cans ∧ result t 2 5) ∧
        (∃ t, exec (.txCancel n k who) s = .next t ∧ (t.txObj n k).state = 4 ∧ result t 3 0)) ∧
      ((s.txObj n k).state = 2 → ∃ t, exec (.txCancel n k who) s = .next t ∧ (t.txObj n k).cancelReq = true ∧
        (t.txObj n k).state = 2 ∧ result t 3 1) ∧
      (s.busOff n = true → s.flag (Fld.CAN_STAT_RECOVERING n) = false → s.flag (Fld.CAN_CTRL_EN n) = true →
        Mode.commission ≤ s.mode → ∃ t, exec (.boffRecover n who) s = .next t ∧
        t.flag (Fld.CAN_STAT_RECOVERING n) = true ∧ result t 1 0) ∧
      (s.busOff n = false → ∃ t, exec (.boffRecover n who) s = .next t ∧ result t 1 5 ∧ t.cans = s.cans))) ∧
    (s.clockGone 4 = false →
      (s.canOp n = 1 → ∃ t, exec (.integrationDone n) s = .next t ∧ t.canOp n = s.canTarget n) ∧
      (s.canOp n ≠ 1 → (s.can n).excepted = false → exec (.integrationDone n) s = .next s) ∧
      (s.canOp n ≠ 1 → (s.can n).excepted = true → ∃ t, exec (.integrationDone n) s = .next t ∧
        (t.can n).excepted = false ∧ (t.can n).busy = false) ∧
      (2 ≤ s.canOp n → s.syncLine (512 + n) = 0 → s.flag (Fld.CAN_CFG_STAMPQ n) = false →
        ∃ t, exec (.canSof n) s = .next t ∧ (t.can n).busy = true ∧ (t.can n).stamp = none ∧
          t.fld (Fld.CAN_SOF_CNT_COUNT n) = (s.fld (Fld.CAN_SOF_CNT_COUNT n) + 1) % 65536) ∧
      (2 ≤ s.canOp n → s.syncLine (512 + n) ≠ 0 → ∃ t, exec (.canSof n) s = .next t ∧
        t.fld (Fld.CAN_SOF_CNT_COUNT n) = (s.fld (Fld.CAN_SOF_CNT_COUNT n) + 1) % 65536) ∧
      (2 ≤ s.canOp n → s.chosenObj n = some k → ∃ t, exec (.canSof n) s = .next t ∧ (t.txObj n k).state = 2 ∧
        (t.txObj n k).attempts = min 255 ((s.txObj n k).attempts + 1)) ∧
      (s.canOp n = 3 → s.busOff n = false → (s.can n).busy = false → s.activeObj n = none →
        s.chosenObj n = none → (s.can n).suspendUntil ≤ s.cycle + s.nominalBit n * 10 → s.txChoice n = some k →
        ∃ t, exec (.arbitrationChoice n) s = .next t ∧ (t.can n).chosen = some k ∧ ∀ j, t.txObj n j = s.txObj n j) ∧
      (s.activeObj n = some k →
        (∃ t ws, exec (.attemptEnd n .success tdc) s = .next t ∧ (t.txObj n k).state = 3 ∧ Out.canFrame n ws ∈ t.out ∧
          (t.can n).busy = false ∧
          (tdc = none → t.fld (Fld.CAN_TDC_STAT_TDCV n) = s.fld (Fld.CAN_TDC_STAT_TDCV n)) ∧
          (tdc = some d → (s.txObjWord n k 1).getLsbD 31 = true → (s.txObjWord n k 2).getLsbD 4 = true →
            s.flag (Fld.CAN_DBT_TDC_EN n) = true → t.fld (Fld.CAN_TDC_STAT_TDCV n) = min 63 d)) ∧
        ((s.txObj n k).cancelReq = false → (s.txObjWord n k 2).getLsbD 5 = false →
          (∃ t, exec (.attemptEnd n .lost tdc) s = .next t ∧ (t.txObj n k).state = 1) ∧
          (∃ t, exec (.attemptEnd n .error tdc) s = .next t ∧ (t.txObj n k).state = 1 ∧ (t.can n).busy = false)) ∧
        ((s.txObj n k).cancelReq = false → (s.txObjWord n k 2).getLsbD 5 = true →
          ∃ t, exec (.attemptEnd n .lost tdc) s = .next t ∧ (t.txObj n k).state = 5) ∧
        ((s.txObj n k).cancelReq = true → ∃ t, exec (.attemptEnd n .error tdc) s = .next t ∧ (t.txObj n k).state = 4)) ∧
      (2 ≤ s.canOp n → s.busOff n = false → (s.can n).excepted = true → ∀ err data exempt,
        exec (.busError n err ⟨data, tdc, point⟩ exempt more) s = .next s) ∧
      (2 ≤ s.canOp n → s.busOff n = false → (s.can n).excepted = false →
        (s.activeObj n = some k → point ≠ s.checkPoint n →
          exec (.busError n .bitDominant ⟨true, none, point⟩ false more) s = .next s) ∧
        (s.flag (Fld.CAN_CFG_PXE n) = true → s.activeObj n = none →
          ∃ t, exec (.busError n .formatBit ⟨false, tdc, point⟩ false more) s = .next t ∧ (t.can n).excepted = true ∧
          t.fld (Fld.CAN_CNT1_PEX n) = min 255 (s.fld (Fld.CAN_CNT1_PEX n) + 1) ∧ t.fld (Fld.CAN_ECNT_TEC n) = tec) ∧
        (∃ t, exec (.busError n .crc ⟨true, tdc, point⟩ false more) s = .next t ∧ t.fld (Fld.CAN_ERRLOG_CODE n) = 6 ∧
          t.flag (Fld.CAN_ERRLOG_PHASE n) = true ∧ t.flag (Fld.CAN_ERRLOG_DIR n) = (s.activeObj n).isSome ∧
          (s.canOp n = 3 → s.activeObj n = some k → t.fld (Fld.CAN_ECNT_TEC n) = min 511 (tec + 8 + 8 * more) ∧
            t.fld (Fld.CAN_ECNT_REC n) = rec' ∧ (255 < tec + 8 + 8 * more → t.busOff n = true)) ∧
          (s.canOp n = 3 → s.activeObj n = none → t.fld (Fld.CAN_ECNT_TEC n) = tec ∧
            t.fld (Fld.CAN_ECNT_REC n) = min 255 (rec' + 1 + 8 * more)))) ∧
      (s.flag (Fld.CAN_STAT_RECOVERING n) = true → ∃ t, exec (.recoveryDone n) s = .next t ∧
        t.flag (Fld.CAN_STAT_RECOVERING n) = false ∧ t.fld (Fld.CAN_STAT_CONF n) = 0 ∧ t.fld (Fld.CAN_ECNT_TEC n) = 0 ∧
        t.fld (Fld.CAN_ECNT_REC n) = 0))

/-- R300–R304 (FRAME_VALID, OBJECT_WORD0_READ, OBJECT_WORD19_READ): a frame updates the object its identifier names,
or waits in the object's buffer while an engine holds its lock; the read of word 19 releases the lock. The updates of a
cycle are held until its end or the read of word 0 (log entry 1). -/
def Obligations.CanObjects : Prop :=
  ∀ (s : State) (n o e : Nat) (f : CanFrame) (ws : List Word),
    s.inReset = false → s.variant.hasCan n = true → o < 256 →
    let x := s.rxObj n o
    let words := canFrameWords f (s.can n).stamp (s.can n).stampLost (s.fld (Fld.CAN_SOF_CNT_COUNT n))
    let me := s.ident (0x10 + e)
    let updated : RxObj := { new := true, lost := x.new, updates := (x.updates + 1) % 65536, words := ws, pend := x.pend }
    (s.clockGone 4 = false → 2 ≤ s.canOp n → s.busOff n = false → (s.can n).excepted = false →
      s.activeObj n = none → f.fdf = false → State.listedForm f = true →
      (s.canOp n = 3 → ∃ t, exec (.frameValid n f) s = .next t ∧ Out.canAck n ∈ t.out) ∧
      (s.rxMatch n f = none → ∃ t, exec (.frameValid n f) s = .next t ∧ (t.can n).busy = false ∧
        (t.can n).rx = (s.can n).rx ∧ t.fld (Fld.CAN_CNT1_NOMATCH n) = min 255 (s.fld (Fld.CAN_CNT1_NOMATCH n) + 1)) ∧
      (s.rxMatch n f = some o → ∃ t, exec (.frameValid n f) s = .next t ∧ (t.can n).busy = false ∧
        (t.can n).rx = (s.can n).rx ∧ (t.can n).due = (s.can n).due ++ [(o, words)])) ∧
    ((s.can n).due = [(o, ws)] →
      (s.lockHolder n o = none → (s.settleCan n).rxObj n o = updated ∧
        (s.ownsCan e n = true → ∃ t, exec (.objectWord0Read e n o) s = .next t ∧ t.rxObj n o = updated ∧
          t.lockHolder n o = some me)) ∧
      ((s.lockHolder n o).isSome = true →
        (s.settleCan n).rxObj n o = { x with pend := some { words := ws, lost := x.pend.isSome } })) ∧
    (s.ownsCan e n = true → (∀ p ∈ (s.can n).due, p.1 ≠ o) →
      (s.lockHolder n o = none → ∃ t, exec (.objectWord0Read e n o) s = .next t ∧ t.lockHolder n o = some me ∧
        ∀ j, t.rxObj n j = s.rxObj n j) ∧
      (∀ h, s.lockHolder n o = some h → h ≠ me →
        exec (.objectWord0Read e n o) s = .next s ∧ exec (.objectWord19Read e n o) s = .next s) ∧
      (s.lockHolder n o = some me → ∃ t, exec (.objectWord0Read e n o) s = .next t ∧ t.cans = s.cans ∧
        t.leases = s.leases) ∧
      (s.lockHolder n o = some me → ∃ t, exec (.objectWord19Read e n o) s = .next t ∧
        t.lockHolder n o = none ∧ (t.rxObj n o).pend = none ∧
        (x.pend = none → t.rxObj n o = { x with new := false, lost := false }) ∧
        (∀ p, x.pend = some p → (t.rxObj n o).words = p.words ∧ (t.rxObj n o).new = true ∧
          (t.rxObj n o).lost = p.lost))) ∧
    (s.ownsCan e n = false → exec (.objectWord0Read e n o) s = .next s ∧ exec (.objectWord19Read e n o) s = .next s)

/-- R319–R324 (SER_ENABLE, CHARACTER_RECEIVED, SER_TX_TAIL, SER_RX_HEAD, CHARACTER_SENT, GAP_T15, GAP_T35,
RX_IDLE_TIME, SSI_START, SSI_TRANSFER_DONE, SSI_PAUSE_END, WURQ, WURQ_END). -/
def Obligations.SerialLines : Prop :=
  ∀ (s : State) (n e v u : Nat) (who : Ident) (data : Byte) (bits w : Word),
    s.inReset = false → s.variant.hasSer n = true →
    let x := s.ser n
    (s.asks who = true → s.serves who = true →
      (∃ t, exec (.serEnable n false who) s = .next t ∧ t.flag (Fld.SER_CTRL_EN n) = false ∧ t.serOp n = 0) ∧
      (∃ t, exec (.serEnable n true who) s = .next t ∧ t.flag (Fld.SER_CTRL_EN n) = true ∧
        (s.mode = Mode.commission → t.serOp n = 1) ∧ (Mode.commission < s.mode → t.serOp n = 2))) ∧
    (s.clockGone 4 = false → s.serMode n ≠ 2 → 1 ≤ s.serOp n →
      (x.gapFrom = none → ∃ t, exec (.characterReceived n .startBit false false false) s = .next t ∧ (t.ser n).receiving = true ∧
        (t.ser n).rxGap15 = false ∧ (t.ser n).rxDe = x.de) ∧
      (s.serMode n = 1 → x.gapFrom = some u → x.sending = false → u + s.t15 n ≤ s.cycle → s.cycle < u + s.t35 n →
        ∃ t, exec (.characterReceived n .startBit false false false) s = .next t ∧ (t.ser n).receiving = true ∧ (t.ser n).rxGap15 = true ∧
          (t.ser n).gapFrom = none)) ∧
    (s.clockGone 4 = false → s.serMode n ≠ 2 → x.receiving = true →
      (x.de = true ∨ x.rxDe = true → s.flag (Fld.SER_CFG_ECHO n) = false →
        ∃ t, exec (.characterReceived n (.char data) false false false) s = .next t ∧ (t.ser n).receiving = false ∧
          (t.ser n).lastRx = s.cycle ∧ (t.ser n).rxTail = x.rxTail ∧ (t.ser n).rx = x.rx) ∧
      (x.de = false → x.rxDe = false →
      (s.rxCount n ≠ 1023 →
        ∃ t, exec (.characterReceived n (.char data) false false false) s = .next t ∧
          (t.ser n).rxTail = (x.rxTail + 1) % 1024 ∧
          Store.get (fun _ => 0) (t.ser n).rx x.rxTail = BitVec.ofNat 32 (data.toNat % 2 ^ s.serData n +
            2 ^ 11 * bit x.rxGap15 + 2 ^ 12 * bit x.first + 2 ^ 13 * bit x.ovr) ∧
          (t.ser n).ovr = false ∧ (t.ser n).first = false ∧ (t.ser n).lastRx = s.cycle ∧ (t.ser n).receiving = false) ∧
      (s.rxCount n = 1023 → ∃ t, exec (.characterReceived n (.char data) false false false) s = .next t ∧
        (t.ser n).rxTail = x.rxTail ∧ (t.ser n).ovr = true ∧
        t.fld (Fld.SER_CNT_RX_OVR n) = min 255 (s.fld (Fld.SER_CNT_RX_OVR n) + 1)))) ∧
    (s.serOp n = 0 → exec (.characterReceived n .startBit false false false) s = .next s) ∧
    (x.receiving = false → exec (.characterReceived n (.char data) false false false) s = .next s) ∧
    (s.ownsSer e n = true →
      (v % 2048 < 1792 → (v % 2048 + 1792 - x.txTail) % 1792 ≤ 1791 - s.txCount n →
        ∃ t, exec (.serTxTail n e v) s = .next t ∧ (t.ser n).txTail = v % 2048 ∧ (t.ser n).tx = x.tx) ∧
      (1792 ≤ v % 2048 → ∃ t, exec (.serTxTail n e v) s = .next t ∧ t.serials = s.serials ∧
        t.flag (Fld.SER_STAT_CFG_ERR n) = true) ∧
      ((v % 1024 + 1024 - x.rxHead) % 1024 ≤ s.rxCount n → ∃ t, exec (.serRxHead n e v) s = .next t ∧
        (t.ser n).rxHead = v % 1024) ∧
      (s.rxCount n < (v % 1024 + 1024 - x.rxHead) % 1024 → ∃ t, exec (.serRxHead n e v) s = .next t ∧
        t.serials = s.serials ∧ t.flag (Fld.SER_STAT_CFG_ERR n) = true) ∧
      (s.serMode n ≠ 2 → ∃ t, exec (.ssiStart n e) s = .next t ∧ (t.ser n).cmdRes = 5 ∧ (t.ser n).ssi = x.ssi) ∧
      (s.serMode n = 2 → s.serOp n = 2 →
        (s.flag (Fld.SER_STAT_SSI_BUSY n) = true → ∃ t, exec (.ssiStart n e) s = .next t ∧ (t.ser n).cmdRes = Code.busy ∧
          (t.ser n).ssi = x.ssi) ∧
        (s.flag (Fld.SER_STAT_SSI_BUSY n) = false → ∃ t, exec (.ssiStart n e) s = .next t ∧ (t.ser n).cmdRes = 1 ∧
          (t.ser n).ssi = some s.cycle ∧ t.flag (Fld.SER_STAT_SSI_BUSY n) = true ∧
          Out.ssiClock n (s.fld (Fld.SER_CFG_SSI_BITS n) + 2) (s.serBit16 n) ∈ t.out)) ∧
      (fieldGet w 0 2 = 2 → s.serMode n ≠ 3 → ∃ t, exec (.wurq n e w) s = .next t ∧ (t.ser n).cmdRes = 5 ∧ (t.ser n).wurq = x.wurq) ∧
      (fieldGet w 0 2 = 2 → s.serMode n = 3 → s.serOp n = 2 → x.sending = false → x.receiving = false → x.wurq = none →
        ∃ t, exec (.wurq n e w) s = .next t ∧ (t.ser n).cmdRes = 0 ∧ (t.ser n).wurq = some (s.cycle + 64000) ∧
          (t.ser n).de = true ∧ t.out = .driver n true true :: s.out)) ∧
    (s.clockGone 4 = false →
      (x.sending = true → x.txFrom + s.charTime n ≤ s.cycle → ∃ t, exec (.characterSent n) s = .next t ∧
        (t.ser n).txHead = (x.txHead + 1) % 1792 ∧
        Out.character n ((x.tx.read x.txHead).toNat % 2 ^ s.serData n) ∈ t.out ∧
        (x.txTail = (x.txHead + 1) % 1792 → (t.ser n).sending = false)) ∧
      (x.sending = false ∨ s.cycle < x.txFrom + s.charTime n → exec (.characterSent n) s = .next s) ∧
      (x.gapFrom = some u → x.sending = false → s.serMode n = 1 → 1 ≤ s.serOp n →
        (x.gap15 = false → u + s.t15 n ≤ s.cycle → ∃ t, exec (.gapT15 n) s = .next t ∧ (t.ser n).gap15 = true) ∧
        (s.cycle < u + s.t15 n → exec (.gapT15 n) s = .next s) ∧
        (x.gap35 = false → u + s.t35 n ≤ s.cycle →
          ∃ t, exec (.gapT35 n) s = .next t ∧ (t.ser n).gap35 = true ∧ (t.ser n).first = true) ∧
        (s.cycle < u + s.t35 n → exec (.gapT35 n) s = .next s)) ∧
      (s.serMode n ≠ 1 → s.flag (Fld.SER_CFG_HALF n) = true → s.serOp n = 2 →
        (s.serMode n ≠ 2 → s.txCount n ≠ 0 → x.sending = false → x.wurq = none → s.rxIdle n = true →
          ∃ t, exec (.rxIdleTime n) s = .next t ∧ (t.ser n).sending = true ∧ (t.ser n).de = true) ∧
        (s.txCount n = 0 → exec (.rxIdleTime n) s = .next s)) ∧
      (∀ k, k = s.fld (Fld.SER_CFG_SSI_BITS n) + 1 → x.ssi = some u → s.flag (Fld.SER_CFG_GRAY n) = false →
        u + k * s.serBit16 n * 10 / 16 ≤ s.cycle →
        ∃ t, exec (.ssiTransferDone n bits) s = .next t ∧ (t.ser n).ssi = none ∧ (t.ser n).cmdRes = 0 ∧
          (t.ser n).ssiCnt = (x.ssiCnt + 1) % 65536 ∧ (t.ser n).ssiData = BitVec.ofNat 32 (bits.toNat % 2 ^ k) ∧
          (t.ser n).pause = some (u + k * s.serBit16 n * 10 / 16)) ∧
      (x.pause = some u →
        (u + s.t35 n ≤ s.cycle → ∃ t, exec (.ssiPauseEnd n) s = .next t ∧ (t.ser n).pause = none ∧
          t.flag (Fld.SER_STAT_SSI_BUSY n) = false) ∧
        (s.cycle < u + s.t35 n → exec (.ssiPauseEnd n) s = .next s)) ∧
      (x.wurq = some u →
        (u ≤ s.cycle → ∃ t, exec (.wurqEnd n) s = .next t ∧ (t.ser n).wurq = none ∧ (s.txCount n = 0 →
          (t.ser n).de = false)) ∧
        (s.cycle < u → exec (.wurqEnd n) s = .next s)))

/-! ### Time -/

/-- R341–R344, R348, R350, R351, R355, R356 (INIT, STEP, RATE, LOCK, UNLOCK, SWITCH, SNAP): a time command executes when
DONE is 1, no other was in the same cycle and TCLK runs; it is refused with the code of its failing condition, and is
lost while another is in progress. -/
def Obligations.TimeCommands : Prop :=
  ∀ (s : State) (x tag : Nat) (who : Ident),
    s.serves who = true → x < 2 → tag < 256 →
    let ends (i : Instr) (code : Nat) (post : State → Prop) : Prop :=
      ∃ t, exec i s = .next t ∧ t.fld Fld.TIME_CMD_RES_RESULT = code ∧ t.fld Fld.TIME_CMD_RES_TAG = tag ∧
        t.flag Fld.TIME_CMD_RES_DONE = true ∧ post t
    let same (t : State) : Prop := t.tb = s.tb
    let all : List Instr := [.timeInit x tag who, .timeStep x tag who, .timeRate x tag who, .timeLock x tag who,
      .timeUnlock x tag who, .timeSwitch x tag who, .timeSnap tag who]
    (s.flag Fld.TIME_CMD_RES_DONE = false ∨ s.took Reg.TIME_CMD = true → ∀ i ∈ all,
      ∃ t, exec i s = .next t ∧ t.flag Fld.TIME_CMD_RES_LOST = true ∧ same t) ∧
    (s.flag Fld.TIME_CMD_RES_DONE = true → s.took Reg.TIME_CMD = false → s.tclkLost = true →
      (∀ i ∈ all, i ≠ .timeInit x tag who → i ≠ .timeRate x tag who → ends i 5 same) ∧
      ends (.timeInit x tag who) (if 999999999 < s.timeArg 0 % 2 ^ 30 then 3 else 5) same ∧
      ends (.timeRate x tag who) (if rateLimit < s.rateArg ∨ s.rateArg < -rateLimit then 3 else 5) same) ∧
    (s.flag Fld.TIME_CMD_RES_DONE = true → s.took Reg.TIME_CMD = false → s.tclkLost = false →
      (999999999 < s.timeArg 0 % 2 ^ 30 → ends (.timeInit x tag who) 3 same) ∧
      (s.timeArg 0 % 2 ^ 30 ≤ 999999999 → s.activeDom = x → s.domState x ≠ 0 → ends (.timeInit x tag who) 5 same) ∧
      (s.timeArg 0 % 2 ^ 30 ≤ 999999999 → s.activeDom ≠ x ∨ s.domState x = 0 →
        ends (.timeInit x tag who) 0 fun t => t.domState x = 1 ∧ (t.dom x).value = s.initValue ∧ (t.dom x).rate = 0 ∧
          (t.dom x).integ = 0 ∧ (s.activeDom = x → t.tb.line = s.initValue ∧ t.flag Fld.TIME_STAT_FREE = false)) ∧
      (s.mayStep x = false → ends (.timeStep x tag who) 5 same) ∧
      (s.mayStep x = true → ends (.timeStep x tag who) 0 fun t =>
        t.domState x = 2 ∧ (t.dom x).value = Instant.shift (s.dom x).value s.stepOffset ∧
          (s.activeDom = x → t.tb.line = Instant.shift s.tb.line s.stepOffset) ∧
          (s.activeDom ≠ x → t.tb.line = s.tb.line)) ∧
      (rateLimit < s.rateArg ∨ s.rateArg < -rateLimit → ends (.timeRate x tag who) 3 same) ∧
      (-rateLimit ≤ s.rateArg → s.rateArg ≤ rateLimit → s.domState x = 0 ∨ s.liveSrc x ≠ 0 →
        ends (.timeRate x tag who) 5 same) ∧
      (-rateLimit ≤ s.rateArg → s.rateArg ≤ rateLimit → s.domState x ≠ 0 → s.liveSrc x = 0 →
        ends (.timeRate x tag who) 0 fun t => (t.dom x).rate = s.rateArg ∧ t.flag (Fld.TIME_DOM_STAT_HOLDOVER x) = false) ∧
      (s.domState x ≠ 0 → s.liveSrc x = 0 →
        (s.flag (Fld.TIME_DOM_STAT_HOLDOVER x) = false → ends (.timeLock x tag who) 0 fun t =>
          t.flag (Fld.TIME_DOM_STAT_LOCKED x) = true ∧ same t) ∧
        (s.flag (Fld.TIME_DOM_STAT_HOLDOVER x) = true → ends (.timeLock x tag who) 5 same) ∧
        (ends (.timeUnlock x tag who) 0 fun t => t.flag (Fld.TIME_DOM_STAT_LOCKED x) = false ∧ same t)) ∧
      (s.domState x = 0 → ends (.timeLock x tag who) 5 same ∧ ends (.timeUnlock x tag who) 5 same ∧
        ends (.timeSwitch x tag who) 5 same) ∧
      (s.domState x ≠ 0 → s.activeDom ≠ x → ends (.timeSwitch x tag who) 0 fun t => t.activeDom = x ∧ same t ∧
        t.fld Fld.TIME_STAT_SWITCHES = (s.fld Fld.TIME_STAT_SWITCHES + 1) % 256) ∧
      (ends (.timeSnap tag who) 0 fun t => same t ∧
        (∀ v d, (v = 0 ∧ d = s.tb.line) ∨ (v = 1 ∧ d = s.domSnap 0) ∨ (v = 2 ∧ d = s.domSnap 1) →
          t.reg (Reg.TIME_SNAP_SEC_LO v) = BitVec.ofNat 32 (Instant.sec d) ∧
          t.reg (Reg.TIME_SNAP_SEC_HI v) = BitVec.ofNat 32 (Instant.sec d / 2 ^ 32) ∧
          t.reg (Reg.TIME_SNAP_NS v) = BitVec.ofNat 32 (Instant.ns d) ∧
          t.reg (Reg.TIME_SNAP_SUB v) = BitVec.ofNat 32 (Instant.sub d))))

/-- R345, R346, R348–R350, R354, R358, R364–R367 (TIME_CFG, TIME_DOM_CFG, SOFTWARE_HOLDOVER_TIMEOUT, PPS_EDGE,
PPS_MISSING_MEASUREMENT, TCLK_LOCK_RETURN, REPEATER_REFRESH, TSQ_RELEASE, TIME_OUT_ARM, PULSE_LEADING_EDGE,
PULSE_TRAILING_EDGE, SLEWING_END). -/
def Obligations.TimeEvents : Prop :=
  ∀ (s : State) (x n d k u : Nat) (v : Word) (who : Ident),
    s.inReset = false → x < 2 → n < 2 → d < 8 → k < 4 →
    let o := s.pulseOut k
    (s.serves who = true →
      let slew := fieldGet v 2 8
      (slew = 0 ∨ 200 < slew → ∃ t, exec (.timeCfg v who) s = .next t ∧ t.flag Fld.TIME_STAT_CFG_ERR = true ∧
        t.reg Reg.TIME_CFG = s.reg Reg.TIME_CFG) ∧
      (1 ≤ slew → slew ≤ 200 → fieldGet v 0 1 = s.fld Fld.TIME_CFG_TREF_25 → ∃ t, exec (.timeCfg v who) s = .next t ∧
        t.reg Reg.TIME_CFG = v &&& 0xFFFF03FF#32 ∧ t.tb = s.tb) ∧
      (1 ≤ slew → slew ≤ 200 → fieldGet v 0 1 ≠ s.fld Fld.TIME_CFG_TREF_25 →
        (s.mode ≠ Mode.load → ∃ t, exec (.timeCfg v who) s = .next t ∧ t.reg Reg.TIME_CFG = s.reg Reg.TIME_CFG ∧
          t.fld Fld.SYS_WRONG_STATE_CNT_LAST_SRC = Ident.src who) ∧
        (s.mode = Mode.load → ∃ t, exec (.timeCfg v who) s = .next t ∧ t.tclkLost = true ∧
          t.reg Reg.TIME_CFG = v &&& 0xFFFF03FF#32))) ∧
    (fieldGet v 11 16 = 0 ∨ fieldGet v 27 4 = 0 → ∃ t, exec (.timeDomCfg x v) s = .next t ∧
      t.flag Fld.TIME_STAT_CFG_ERR = true ∧ t.tb = s.tb) ∧
    (fieldGet v 11 16 ≠ 0 → fieldGet v 27 4 ≠ 0 → ∃ t, exec (.timeDomCfg x v) s = .next t ∧
      t.reg (Reg.TIME_DOM_CFG x) = v &&& 0x7FFFFFFF#32 ∧
      (s.domState x = 0 ∨ s.liveSrc x = 0 → (t.dom x).live = v &&& 0x7FFFFFFF#32) ∧
      (s.domState x ≠ 0 → s.liveSrc x ≠ 0 → t.tb = s.tb)) ∧
    (s.domState x ≠ 0 → s.liveSrc x = 0 →
      let due := (s.dom x).since + s.liveMissLimit x * 200000000
      (due ≤ s.cycle → ∃ t, exec (.softwareHoldoverTimeout x) s = .next t ∧ t.flag (Fld.TIME_DOM_STAT_HOLDOVER x) = true) ∧
      (s.cycle < due → exec (.softwareHoldoverTimeout x) s = .next s)) ∧
    (s.tclkLost = false → s.flag (Fld.TIME_PPS_CFG_EN n) = true →
      let edge := s.flag (Fld.TIME_PPS_CFG_EDGE n)
      let last := (Store.get (fun _ => {}) s.tb.pps n : PpsIn).last
      exec (.ppsEdge n (!edge)) s = .next s ∧
      (s.syncLine (1280 + n) = 1 → ∃ t, exec (.ppsEdge n edge) s = .next t ∧ t.tb = s.tb ∧
        t.syncLine (1280 + n) = 2 + s.cycle) ∧
      (s.syncLine (1280 + n) = 0 → last = none → ∃ t, exec (.ppsEdge n edge) s = .next t ∧
        t.flag (Fld.TIME_PPS_CAP_NS_VALID n) = true ∧
        t.fld (Fld.TIME_PPS_CNT_GOOD n) = (s.fld (Fld.TIME_PPS_CNT_GOOD n) + 1) % 65536 ∧
        t.fld (Fld.TIME_PPS_CAP_NS_NS n) = Instant.ns (Instant.shift s.tb.line (-(14 * Instant.nano : Nat)))) ∧
      (s.syncLine (1280 + n) = 0 → last = some u → s.cycle < u + 799200000 → ∃ t, exec (.ppsEdge n edge) s = .next t ∧
        t.tb = s.tb ∧
        t.fld (Fld.TIME_PPS_CNT_BAD n) = min 65535 (s.fld (Fld.TIME_PPS_CNT_BAD n) + 1))) ∧
    (s.domState x ≠ 0 → 2 ≤ s.liveSrc x → s.reg (Reg.TIME_DOM_CFG x) = (s.dom x).live →
      ((s.dom x).since + 800800000 ≤ s.cycle → ∃ t, exec (.ppsMissingMeasurement x) s = .next t ∧
        t.fld (Fld.TIME_DOM_STAT_MISS x) = min 255 (s.fld (Fld.TIME_DOM_STAT_MISS x) + 1) ∧
        (s.liveMissLimit x ≤ s.fld (Fld.TIME_DOM_STAT_MISS x) + 1 →
          t.flag (Fld.TIME_DOM_STAT_HOLDOVER x) = true)) ∧
      (s.cycle < (s.dom x).since + 800800000 → exec (.ppsMissingMeasurement x) s = .next s)) ∧
    (s.tclkLost = true → ∃ t, exec .tclkLockReturn s = .next t ∧ t.tclkLost = false ∧ t.domState x = 1 ∧
      t.tb.line = (s.repeaterTime 0 + 41 * 2 ^ 47) % Instant.modulus ∧ (t.dom x).value = t.tb.line) ∧
    (s.tclkLost = false → exec .tclkLockReturn s = .next s ∧
      (s.tb.refreshAt ≤ s.cycle → ∃ t r, exec .repeaterRefresh s = .next t ∧ t.tb.refreshes = s.tb.refreshes ++ [r] ∧
        r.value = Instant.quarters (s.tb.line + 109 * 2 ^ 45) ∧ t.tb.refreshAt = s.tb.refreshAt + 800)) ∧
    (s.asks who = true → s.serves who = true → d < s.variant.districts →
      let count := s.fld (Fld.TSQ_STAT_COUNT d)
      (1 ≤ fieldGet v 0 11 → fieldGet v 0 11 ≤ count → ∃ t, exec (.tsqRelease d v who) s = .next t ∧
        t.fld (Fld.TSQ_STAT_COUNT d) = count - fieldGet v 0 11 ∧
        t.fld (Fld.TSQ_STAT_HEAD d) = (s.fld (Fld.TSQ_STAT_HEAD d) + fieldGet v 0 11) % 1024) ∧
      (count < fieldGet v 0 11 → ∃ t, exec (.tsqRelease d v who) s = .next t ∧ t.flag (Fld.TSQ_STAT_CFG_ERR d) = true ∧
        t.fld (Fld.TSQ_STAT_COUNT d) = count)) ∧
    (pulseBad s k (fieldGet v 0 2) = true → ∃ t, exec (.timeOutArm k v) s = .next t ∧ t.tb = s.tb ∧
      t.flag Fld.TIME_STAT_CFG_ERR = true) ∧
    (fieldGet v 0 2 = 0 → ∃ t, exec (.timeOutArm k v) s = .next t ∧ (t.pulseOut k).next = none ∧
      (t.pulseOut k).trail = none ∧ t.fld (Fld.TIME_OUT_CTRL_MODE k) = 0) ∧
    (let first := Instant.mk (Instant.sec s.lineTime / 2 ^ 32 * 2 ^ 32 + s.fld (Fld.TIME_OUT_START_SEC_SEC k))
       (s.fld (Fld.TIME_OUT_START_NS_NS k)) 0
     pulseBad s k (fieldGet v 0 2) = false → fieldGet v 0 2 ≠ 0 → s.lineTime + 1000 * Instant.nano ≤ first →
       ∃ t, exec (.timeOutArm k v) s = .next t ∧ (t.pulseOut k).next = some first ∧ (t.pulseOut k).trail = none ∧
         (t.pulseOut k).periodic = (fieldGet v 0 2 == 2)) ∧
    (o.next = some u →
      (s.lineTime < u → exec (.pulseLeadingEdge k) s = .next s) ∧
      (u ≤ s.lineTime → s.tclkLost = false → ∃ t, exec (.pulseLeadingEdge k) s = .next t ∧
        (t.pulseOut k).trail = some (u + o.width * Instant.nano) ∧
        (t.pulseOut k).next = (if o.periodic then some (u + o.period * Instant.nano) else none) ∧
        (Mode.load < s.mode → t.out = .pulse k (!o.activeLow) :: s.out)) ∧
      (u ≤ s.lineTime → s.tclkLost = true → ∃ t, exec (.pulseLeadingEdge k) s = .next t ∧
        (t.pulseOut k).trail = o.trail ∧ t.flag (Fld.TIME_OUT_CTRL_MISSED k) = true ∧ t.out = s.out)) ∧
    (o.trail = some u →
      (s.lineTime < u → exec (.pulseTrailingEdge k) s = .next s) ∧
      (u ≤ s.lineTime → ∃ t, exec (.pulseTrailingEdge k) s = .next t ∧ (t.pulseOut k).trail = none ∧
        (Mode.load < s.mode → t.out = .pulse k o.activeLow :: s.out))) ∧
    (s.domState s.activeDom ≠ 0 → ∃ t, exec .slewingEnd s = .next t ∧ t.tb = s.tb ∧
      t.flag Fld.TIME_STAT_SLEWING = decide ((Instant.nano : Int) < s.slew.natAbs) ∧
      t.flag Fld.TIME_STAT_EXACT = decide (s.slew = 0))

/-! ### The process image -/

/-- R370, R373, R377, R379, R381–R398 (DIRECT_WRITE, WRITE_SET_ADD, CLEAR_SWEEP_DONE, IMG_BEGIN, IMG_COMMIT,
COMMIT_PROCESSING, SETTLE_COMPLETE, IMG_ROLLBACK, PIN, UNPIN, COW_RECORDS_FREED, COW_WAIT_TIMEOUT): the commands of one
identity on a controller in which nothing else waits. -/
def Obligations.ProcessImage : Prop :=
  ∀ (s : State) (who : Ident) (p v k : Nat) (recipe : Bool) (w : Write),
    s.serves who = true → s.img.run = none → s.img.waiting = [] → s.img.cmds = [] → s.img.nextCmd ≤ s.cycle →
    k < s.variant.imgSlots →
    let b := imgBlock who
    let sel := s.flag (Fld.IMG_TXN_SEL_SEL b)
    let slot := s.fld (Fld.IMG_TXN_SEL_SLOT b)
    let done := s.flag (Fld.IMG_RES_DONE b)
    let ends (i : Instr) (code : Nat) (post : State → Prop) : Prop :=
      ∃ t, exec i s = .next t ∧ t.fld (Fld.IMG_RES_RESULT b) = code ∧ t.flag (Fld.IMG_RES_DONE b) = true ∧ post t
    let wrote (t : State) (v : Ver) (e : Nat) : Prop := (t.point p).cur = .version v ∧
      (t.point p).prev = (s.point p).cur ∧ (t.point p).last = e ∧ (t.point p).lost = false
    let refused (t : State) : Prop := t.img = { s.img with nextCmd := s.cycle + 64 }
    (s.readsRemote who = false → sel = false →
      (p < s.variant.points → s.carriedFlow b = none →
        (s.cowNeed p = [] → ∃ t, exec (.directWrite who p v) s = .next t ∧
          wrote t (s.stamped (s.stagedWrite b (v % 2 ^ 64))) s.img.epoch ∧
          ∀ q, q ≠ p → t.point q = s.point q) ∧
        (s.cowNeed p ≠ [] → s.fld Fld.IMG_COW_STAT_FREE = 0 → ∃ t, exec (.directWrite who p v) s = .next t ∧
          t.img.points = s.img.points ∧ t.img.waiting.length = 1)) ∧
      (s.variant.points ≤ p → exec (.directWrite who p v) s = .next s)) ∧
    (s.readsRemote who = false → sel = true → p < s.variant.points →
      (s.imgSlot slot = 1 → s.imgHolder slot = who → (s.imgTxn slot).set.length < 65536 →
        ∃ t, exec (.writeSetAdd who p v) s = .next t ∧ t.img.points = s.img.points ∧
          Store.get (fun _ => none) (t.imgTxn slot).set p = some (s.stagedWrite b (v % 2 ^ 64))) ∧
      (s.imgSlot slot ≠ 1 ∨ s.imgHolder slot ≠ who → ∃ t, exec (.writeSetAdd who p v) s = .next t ∧ t.img = s.img ∧
        t.fld Fld.IMG_ERR_TXN_REFUSED = min 255 (s.fld Fld.IMG_ERR_TXN_REFUSED + 1))) ∧
    (s.mode ≠ Mode.boot → ∃ t, exec .clearSweepDone s = .next t ∧ t.flag Fld.IMG_STAT_READY = true) ∧
    (done = false ∨ s.took (Reg.IMG_RES b) = true →
      ∀ i ∈ [Instr.imgBegin who recipe, .imgCommit who k, .imgRollback who k, .pin who, .unpin who k],
      ∃ t, exec i s = .next t ∧ t.flag (Fld.IMG_RES_LOST b) = true ∧ t.img = s.img) ∧
    (done = true → s.took (Reg.IMG_RES b) = false →
      (s.mode = Mode.safeHold → ends (.imgBegin who true) 5 refused) ∧
      (∀ n, ((List.range s.variant.imgSlots).find? fun t => s.imgSlot t == 0) = some n →
        recipe = false ∨ s.mode ≠ Mode.safeHold →
        ends (.imgBegin who recipe) 0 fun t => t.imgSlot n = 1 ∧ t.imgHolder n = who ∧
          t.imgTxn n = { begin := s.img.epoch } ∧ t.img.epoch = s.img.epoch + 1 ∧ t.fld (Fld.IMG_RES_SLOT b) = n) ∧
      ((∀ n, n < s.variant.imgSlots → s.imgSlot n ≠ 0 ∧ s.imgSlot n ≠ 3) →
        recipe = false ∨ s.mode ≠ Mode.safeHold → ends (.imgBegin who recipe) 7 refused) ∧
      (∃ t, exec (.imgCommit who k) s = .next t ∧ t.img.cmds = [(who, .commit k (s.carriedFlow b))] ∧
        t.fld (Fld.IMG_RES_RESULT b) = 1 ∧ t.flag (Fld.IMG_RES_DONE b) = false) ∧
      (s.isAged k who = false → s.imgSlot k = 1 → s.imgHolder k = who →
        ends (.imgRollback who k) 0 fun t => t.imgSlot k = 0 ∧ t.imgTxn k = {} ∧ t.img.points = s.img.points) ∧
      (s.isAged k who = false → s.imgSlot k ≠ 1 → ends (.imgRollback who k) 5 refused) ∧
      (∀ n, ((List.range 8).find? fun k => !s.pinHeld k) = some n → s.fld (Fld.IMG_ARG1_COUNT b) ≠ 0 →
        s.fld (Fld.IMG_ARG0_FIRST b) + s.fld (Fld.IMG_ARG1_COUNT b) ≤ s.variant.points →
        ends (.pin who) 0 fun t => t.pinHeld n = true ∧ t.pinHolder n = who ∧ t.pinEpoch n = s.img.epoch ∧
          t.img.epoch = s.img.epoch + 1 ∧ t.fld (Fld.IMG_RES_PIN b) = n) ∧
      (s.variant.points < s.fld (Fld.IMG_ARG0_FIRST b) + s.fld (Fld.IMG_ARG1_COUNT b) →
        ends (.pin who) 3 refused) ∧
      (k < 8 → s.isAged (64 + k) who = false →
        (s.pinHeld k = true → s.pinHolder k = who → ends (.unpin who k) 0 fun t => t.pinHeld k = false) ∧
        (s.pinHeld k = false → ends (.unpin who k) 5 refused))) ∧
    (s.imgSlot k = 3 → ∃ t, exec (.settleComplete k) s = .next t ∧ t.imgSlot k = 0 ∧
      ∀ q, (t.point q).cur = (s.point q).cur) ∧
    (s.imgSlot k ≠ 3 → exec (.settleComplete k) s = .next s) ∧
    (∃ t, exec .cowRecordsFreed s = .next t ∧ t.img.freed = 0 ∧
      t.fld Fld.IMG_COW_STAT_FREE = (s.fld Fld.IMG_COW_STAT_FREE + s.img.freed) % 2 ^ 24) ∧
    (let front := s.setImg { s.img with cmds := [(who, .commit k none)] }
     let set := (s.imgTxn k).set
     s.isAged k who = false → s.imgSlot k = 1 → s.imgHolder k = who → s.flag (Fld.IMG_SLOT_RECIPE k) = false →
     s.flag (Fld.IMG_SLOT_OVF k) = false →
      ((set.any fun q => decide ((s.imgTxn k).begin < (s.point q.1).last)) = true →
        ∃ t, exec (.commitProcessing false) front = .next t ∧ t.imgSlot k = 0 ∧ t.img.points = s.img.points ∧
          t.fld (Fld.IMG_RES_RESULT b) = 6) ∧
      ((set.any fun q => decide ((s.imgTxn k).begin < (s.point q.1).last)) = false →
        ∃ t r, exec (.commitProcessing false) front = .next t ∧ t.imgSlot k = 2 ∧ t.img.run = some r ∧ r.slot = k ∧
          r.who = who ∧ t.flag Fld.IMG_STAT_COMMITTING = true ∧ t.img.points = s.img.points) ∧
      (set = [(p, some w)] → (s.point p).last ≤ (s.imgTxn k).begin → s.cowNeed p = [] →
        ∃ t, exec (.commitProcessing true) front = .next t ∧ t.imgSlot k = 3 ∧ t.img.epoch = s.img.epoch + 1 ∧
          wrote t (s.stamped w) (s.img.epoch + 1) ∧
          t.fld (Fld.IMG_RES_RESULT b) = 0)) ∧
    (∀ c, c.since + s.fld Fld.IMG_COW_WAIT_WAIT_US * 800 ≤ s.cycle → c.req = .write p w none →
      ∃ t, exec .cowWaitTimeout (s.setImg { s.img with waiting := [c] }) = .next t ∧ t.img.waiting = [] ∧
        t.img.points = s.img.points ∧ t.fld Fld.IMG_ERR_COW_DROP = min 255 (s.fld Fld.IMG_ERR_COW_DROP + 1))

/-! ### The reduction units -/

/-- R403, R405, R406, R413–R419 (SAMPLE_PROCESSING, EXPORT, CLEAR, LATCH, SRU_EOS_Q_READ, SRU_CTRL,
SELF_CHECK_FAILURE). That the next periodic export is measured from a commanded one too is the model's reading
(log entry 90). -/
def Obligations.ReductionUnits : Prop :=
  ∀ (s : State) (who : Ident) (d n c e : Nat) (en : Bool) (ws : List Word),
    s.inReset = false → s.variant.hasSru = true → d < s.variant.districts → n < 16384 →
    let x := s.sru d
    let y := s.sampleOf d ws
    let l := s.ledger d (y.channel % 16384)
    let done (t : State) (code : Nat) : Prop := t.fld (Fld.SRU_CMD_RES_RESULT d) = code
    (x.inq = [] → exec (.sampleProcessing d false) s = .next s) ∧
    (s.sruStall d = true ∨ s.cycle < x.nextSample → exec (.sampleProcessing d false) s = .next s) ∧
    (∀ rest, x.inq = ws :: rest → s.sruStall d = false → x.nextSample ≤ s.cycle →
      let takes (post : State → Prop) : Prop :=
        ∃ t, exec (.sampleProcessing d false) s = .next t ∧ (t.sru d).inq = rest ∧ post t
      (s.fld (Fld.SRU_CTRL_EN d) = 0 → takes fun t => (t.sru d).ledger = x.ledger ∧
        t.fld (Fld.SRU_CNT3_OFF_DROP d) = min 255 (s.fld (Fld.SRU_CNT3_OFF_DROP d) + 1)) ∧
      (s.fld (Fld.SRU_CTRL_EN d) = 1 → s.flag (Fld.SRU_STAT_FAULT d) = false →
        (y.channel / 16384 ≠ d → takes fun t => (t.sru d).ledger = x.ledger ∧
          t.fld (Fld.SRU_CNT0_NOT_OWNED d) = min 255 (s.fld (Fld.SRU_CNT0_NOT_OWNED d) + 1)) ∧
        (y.channel / 16384 = d → y.bad = true → takes fun t => (t.sru d).ledger = x.ledger ∧
          t.fld (Fld.SRU_CNT0_BAD d) = min 255 (s.fld (Fld.SRU_CNT0_BAD d) + 1)) ∧
        (y.channel / 16384 = d → y.bad = false → l.state = 0 → y.newStep = false → takes fun t =>
          (t.sru d).ledger = x.ledger ∧ t.fld (Fld.SRU_CNT0_NO_STEP d) = min 255 (s.fld (Fld.SRU_CNT0_NO_STEP d) + 1)) ∧
        (y.channel / 16384 = d → y.bad = false → l.state = 0 → y.newStep = true → takes fun t =>
          t.reg (Reg.SRU_CNT2 d) = s.reg (Reg.SRU_CNT2 d) + 1 ∧
          (let l' := t.ledger d (y.channel % 16384)
           l'.volt = y.volt ∧ l'.curr = y.curr ∧ l'.stamp = y.at' ∧ l'.start = y.at' ∧ l'.step = (l.step + 1) % 65536 ∧
            l'.samples = 1 ∧ l'.vmin = y.volt ∧ l'.vmax = y.volt)))) ∧
    (s.asks who = true → s.serves who = true →
      (∃ t, exec (.sruCtrl who d en) s = .next t ∧ t.flag (Fld.SRU_CTRL_EN d) = en) ∧
      (s.fld (Fld.SRU_CMD_RES_DONE d) = 0 ∨ s.took (Reg.SRU_CMD d) = true →
        ∀ i ∈ [Instr.sruExport who d n, .clear who d n, .latch who d n],
        ∃ t, exec i s = .next t ∧ t.flag (Fld.SRU_CMD_RES_LOST d) = true ∧ t.sru d = x) ∧
      (s.fld (Fld.SRU_CMD_RES_DONE d) = 1 → s.took (Reg.SRU_CMD d) = false →
        (∃ t, exec (.clear who d n) s = .next t ∧ done t 0 ∧ t.ledger d n = {}) ∧
        (∃ t, exec (.latch who d n) s = .next t ∧ done t 0 ∧ t.sru d = x ∧
          ∀ i w, (State.latchWords (s.ledger d n))[i]? = some w → t.reg (Reg.SRU_LATCH d i) = w) ∧
        (s.flag (Fld.SRU_EXPORT_EN d) = false → ∃ t, exec (.sruExport who d n) s = .next t ∧ done t 5 ∧ t.img = s.img) ∧
        (s.flag (Fld.SRU_EXPORT_EN d) = true → s.img.waiting = [] →
          s.ownCmd (s.ident (0xD0 + d)) = false → (∀ k, k < 8 → s.pinHeld k = false) →
          ∃ t, exec (.sruExport who d n) s = .next t ∧ done t 0 ∧ (t.sru d).inq = x.inq ∧ (t.sru d).eosq = x.eosq ∧
            (∀ m, m ≠ n → t.ledger d m = s.ledger d m) ∧
            t.ledger d n = (if (s.ledger d n).state = 1 then
              { s.ledger d n with exported := some (s.ledger d n).stamp } else s.ledger d n) ∧
            ∀ k ∈ State.exportOffsets true, ∃ v, (t.point (64 * (s.fld (Fld.SRU_EXPORT_BASE64 d) + n) + k)).cur = .version v ∧
              v.value = State.exportValue (s.ledger d n) k))) ∧
    (s.serves who = true → ∀ rest, x.eosq = (c, e) :: rest → ∃ t, exec (.sruEosQRead who d) s = .next t ∧
      (t.sru d).eosq = rest ∧
      t.out = .readData who (Reg.SRU_EOS_Q d) (BitVec.ofNat 32 (c + 2 ^ 17 * e + 2 ^ 31)).toNat :: s.out) ∧
    (∃ t, exec (.selfCheckFailure d) s = .next t ∧ t.flag (Fld.SRU_STAT_FAULT d) = true ∧ t.sru d = x)

/-! ### Twins and fail-over -/

/-- R420, R421, R426, R433, R434, R436, R439, R441 and Table RED-3 (PAIR, UNPAIR, RESYNC, RECLAIM, FAIL, CKPT_LOAD). -/
def Obligations.TwinCommands : Prop :=
  ∀ (s : State) (who : Ident) (tag e : Nat),
    s.asks who = true → s.serves who = true → s.variant.hasTwin = true → tag < 256 →
    let p := s.argPair
    let m := s.argSlot
    let ends (i : Instr) (code : Nat) (post : State → Prop) : Prop :=
      ∃ t, exec i s = .next t ∧ t.fld Fld.RED_CMD_RES_RESULT = code ∧ t.fld Fld.RED_CMD_RES_TAG = tag ∧
        t.flag Fld.RED_CMD_RES_DONE = true ∧ post t
    let same (t : State) : Prop := t.red = s.red
    let all : List Instr := [.pair who tag, .unpair who tag, .resync who tag, .reclaim who tag, .fail who tag,
      .ckptLoad who tag]
    (s.flag Fld.RED_CMD_RES_DONE = false ∨ s.took Reg.RED_CMD = true → ∀ i ∈ all,
      ∃ t, exec i s = .next t ∧ t.flag Fld.RED_CMD_RES_LOST = true ∧ same t) ∧
    (s.flag Fld.RED_CMD_RES_DONE = true → s.took Reg.RED_CMD = false →
      ((s.reg Reg.RED_ARG1).getLsbD 9 = false →
        (s.pairBad p none = true → ends (.pair who tag) 3 same) ∧
        (s.pairBad p none = false → s.mode ≠ Mode.load → ends (.pair who tag) 5 same) ∧
        (s.pairBad p none = false → s.mode = Mode.load → s.leases = [] → ends (.pair who tag) 0 fun t =>
          t.pairState p = 1 ∧ t.reg (Reg.RED_PAIR p) = s.reg Reg.RED_ARG0 ∧ t.inForce p 0 = true ∧ t.inForce p 1 = true ∧
            (t.pairSlot p 0).engine = some (fieldGet (s.reg Reg.RED_ARG0) 0 7) ∧
            (t.pairSlot p 1).engine = some (fieldGet (s.reg Reg.RED_ARG0) 8 7))) ∧
      (s.variant.pairs ≤ p → ends (.unpair who tag) 3 same ∧ ends (.fail who tag) 3 same ∧
        ends (.ckptLoad who tag) 3 same) ∧
      (p < s.variant.pairs → s.mode = Mode.load → s.leases = [] → ends (.unpair who tag) 0 fun t =>
        t.pairState p = 0 ∧ t.pair p = {} ∧ t.reg (Reg.RED_PAIR p) = 0) ∧
      (p < s.variant.pairs → s.mode ≠ Mode.load → ends (.unpair who tag) 5 same) ∧
      (ends (.resync who tag) 0 fun t => (∀ k, t.flowCtx k (fieldGet (s.reg Reg.RED_ARG1) 0 12) = none) ∧
        ∀ k f, f < 4096 → f ≠ fieldGet (s.reg Reg.RED_ARG1) 0 12 → t.flowCtx k f = s.flowCtx k f) ∧
      (let h := State.handleParts (s.reg Reg.RED_ARG0).toNat
       (h.1 = 0 ∨ 8 < h.1 → ends (.reclaim who tag) 3 same) ∧
       (1 ≤ h.1 → h.1 ≤ 8 → s.leaseOf h.1 h.2.1 h.2.2 = none → ends (.reclaim who tag) 5 same) ∧
       (∀ l, h.1 = 3 → h.2.1 < 8 → h.2.2 < 64 → s.leaseOf 3 h.2.1 h.2.2 = some l → ends (.reclaim who tag) 0 fun t =>
         t.leaseOf 3 h.2.1 h.2.2 = none)) ∧
      (p < s.variant.pairs → s.mode = Mode.load ∨ s.inForce p m = false → ends (.fail who tag) 5 same) ∧
      (p < s.variant.pairs → s.mode ≠ Mode.load → s.inForce p m = true → (s.pairSlot p m).engine = some e →
        s.hasEngine e = true → ends (.fail who tag) 0 fun t => t.flag (State.failedFld p m) = true ∧
          t.inForce p m = false ∧ t.fld Fld.RED_CNT1_DECLARED = min 255 (s.fld Fld.RED_CNT1_DECLARED + 1)) ∧
      (p < s.variant.pairs → 2 * p + m < 32 → s.mramValid p m = false → ends (.ckptLoad who tag) 3 same) ∧
      (p < s.variant.pairs → 2 * p + m < 32 → s.pairState p ≠ 0 → s.isRemote p m = false → s.mramValid p m = true →
        s.mode = Mode.load → s.fld (Fld.RED_CKPT_SIZE p m) ≠ 0 → ends (.ckptLoad who tag) 0 fun t =>
          (t.dist (s.slotDistrict p m)).sram.readLE (s.ckptArea p m).1 4 = 0x31504B43 ∧
            (t.dist (s.slotDistrict p m)).sram.readLE ((s.ckptArea p m).1 + 4) 4 = 0 ∧ t.mram = s.mram))

/-- R431, R434, R438, R440–R446, R449 (HEARTBEAT_PERIOD_END, RECLAIM_COMPLETE, JOIN, RESTORE_TIMEOUT, CHECKPOINT_COPY,
PROXY_SERIAL_FLUSH, WILERN_HEARTBEAT_TIMEOUT). -/
def Obligations.TwinEvents : Prop :=
  ∀ (s : State) (p m e d k u : Nat),
    s.inReset = false → p < s.variant.pairs → m < 2 → d < s.variant.districts → k < 8 →
    let x := s.pairSlot p m
    let due := s.red.periodStart + s.heartbeat
    (s.red.monitoring = true →
      (s.cycle < due → exec .heartbeatPeriodEnd s = .next s) ∧
      (due ≤ s.cycle → s.monitoredEngines = [e] → ∃ t, exec .heartbeatPeriodEnd s = .next t ∧ t.red.periodStart = due ∧
        (t.beat e).pulse = false ∧ t.fld (Fld.RED_LANT_MISS2 e) =
          if (s.beat e).pulse then s.fld (Fld.RED_LANT_MISS2 e) else min 15 (s.fld (Fld.RED_LANT_MISS2 e) + 1))) ∧
    (s.red.monitoring = false → exec .heartbeatPeriodEnd s = .next s) ∧
    (x.reclaiming = false → exec (.reclaimComplete p m) s = .next s) ∧
    (x.reclaiming = true → s.leases = [] → x.engine = some e → s.hasEngine e = true → s.spareOf p m = none →
      ∃ t, exec (.reclaimComplete p m) s = .next t ∧ (t.pairSlot p m).reclaiming = false ∧
        t.pairState p = if s.inForce p (1 - m) then 2 else 4) ∧
    (s.variant.hasTwin = true → s.hasEngine e = true →
      (s.roleSlot e = none → ∃ t, exec (.join e) s = .next t ∧ t.red.pairs = s.red.pairs ∧
        Store.get (fun _ => 0) t.red.jres e = 5) ∧
      (s.roleSlot e = some (p, m) → s.roleIn e (p, m) = 3 → s.inForce p (1 - m) = true → x.joinBy = some u →
        (u < s.cycle → ∃ t, exec (.join e) s = .next t ∧ t.flag (State.failedFld p m) = true ∧
          (t.pairSlot p m).joinBy = none ∧ Store.get (fun _ => 0) t.red.jres e = 5) ∧
        (s.cycle ≤ u → ∃ t, exec (.join e) s = .next t ∧ t.pairState p = 1 ∧ t.flag (State.failedFld p m) = false ∧
          (t.pairSlot p m).joinBy = none ∧ Store.get (fun _ => 0) t.red.jres e = 0))) ∧
    (x.joinBy = some u →
      (s.cycle < u → exec (.restoreTimeout p m) s = .next s) ∧
      (u ≤ s.cycle → x.engine = some e → s.hasEngine e = true → ∃ t, exec (.restoreTimeout p m) s = .next t ∧
        t.flag (State.failedFld p m) = true ∧ (t.pairSlot p m).joinBy = none ∧
        t.fld Fld.RED_CNT1_RESTORE_FAIL = min 255 (s.fld Fld.RED_CNT1_RESTORE_FAIL + 1))) ∧
    (let every := s.fld Fld.RED_CFG_MRAM_100MS * 80000000
     let a := s.ckptArea p m
     let sram := (s.dist (s.slotDistrict p m)).sram
     let act := sram.readLE (a.1 + 4) 4
     let gen := sram.readLE (a.1 + 0x10 + 0x20 * act) 4
     (every = 0 ∨ s.cycle < s.red.mramAt + every → exec .checkpointCopy s = .next s) ∧
     (every ≠ 0 → s.red.mramAt + every ≤ s.cycle →
       (s.slots.filter fun q => s.pairState q.1 != 0 && !s.isRemote q.1 q.2 && decide (2 * q.1 + q.2 < 32)) = [(p, m)] →
       State.ckptValid sram a.1 (fun x => a.1 + 0x100 + x * a.2.2) a.2.2 = true → x.copied ≠ some gen → a.2.2 ≤ 61184 →
       s.nvBlocked = false → s.nv = none → s.sup = {} →
       ∃ t, exec .checkpointCopy s = .next t ∧ t.red.mramAt = s.cycle ∧
         t.sup = { rows := s.copyRows p m act gen, started := some s.cycle } ∧ t.mram = s.mram)) ∧
    (let y := s.proxy d k
     let ends := y.last + s.charTime (s.fld (Fld.RED_PROXY_UNIT d k))
     (y.gathered = [] ∨ s.cycle < ends → exec (.proxySerialFlush d k) s = .next s) ∧
     (y.gathered ≠ [] → ends ≤ s.cycle → (s.records d).length < 16 → ∃ t r, exec (.proxySerialFlush d k) s = .next t ∧
       t.records d = s.records d ++ [r] ∧ r.first = s.fld (Fld.RED_PROXY_FIRST d k) ∧ (t.proxy d k).gathered = [] ∧
       (t.proxy d k).seq = (y.seq + 1) % 65536)) ∧
    (∀ c, (s.pair p).remote = some c → s.red.monitoring = true → s.inForce p 1 = true → 3 * s.window1 ≤ (s.pair p).silent →
      ∃ t, exec (.wilernHeartbeatTimeout p) s = .next t ∧ t.flag (Fld.RED_PSTAT_FAILED1 p) = true ∧
        t.pairState p = if s.inForce p 0 then 2 else 4) ∧
    ((s.pair p).remote = none ∨ s.red.monitoring = false → exec (.wilernHeartbeatTimeout p) s = .next s)

/-! ### Mailboxes and the host interface -/

/-- R457, R459, R461, R465–R472, R451 (OPEN, CLOSE, REVOKE, SEND, ACK, MBX_ABORT, MBX_RING, MBX_DBMASK, MBX_SUP_NOTE,
MBX_HRX_HEAD, MBX_HTX_TAIL, MBX_HOST_CFG), where no other opening, send or end of the same cycle competes (R471). -/
def Obligations.MailboxesAndRings : Prop :=
  ∀ (s : State) (who target : Ident) (c k b depth len : Nat) (any : Bool) (v : Word) (code : BitVec 16) (m : MbxMsg),
    s.serves who = true → c < 64 →
    let own := mbxBlock who
    let x := s.channel c
    let err (t : State) : Prop := t.flag Fld.MBX_HOST_STAT_CFG_ERR = true ∧ t.channels = s.channels
    let ends (i : Instr) (r : Nat) (post : State → Prop) : Prop :=
      ∃ t, exec i s = .next t ∧ t.fld (Fld.MBX_CMD_RES_RESULT own) = r ∧ t.flag (Fld.MBX_CMD_RES_DONE own) = true ∧ post t
    let same (t : State) : Prop := t.channels = s.channels
    (s.mayStamp who = true → s.flag (Fld.MBX_CMD_RES_DONE own) = false ∨ s.took (Reg.MBX_CMD own) = true →
      ∀ i ∈ [Instr.mbxOpen who c depth b any target, .close who c, .revoke who c],
        ∃ t, exec i s = .next t ∧ t.flag (Fld.MBX_CMD_RES_LOST own) = true ∧ same t) ∧
    (s.mayStamp who = true → s.flag (Fld.MBX_CMD_RES_DONE own) = true → s.took (Reg.MBX_CMD own) = false →
      (x.holder = none → ends (.mbxOpen who c depth b any target) 0 fun t =>
        t.channel c = { holder := some who, depth := depth % 4 + 1, dbit := b % 32, any := any, allow := target, queue := [] } ∧
        t.leaseOf 6 0 c = some { type := 6, district := 0, index := c, holder := who }) ∧
      (x.holder.isSome = true → s.now.opened = [] → ends (.mbxOpen who c depth b any target) 2 same) ∧
      (x.holder = some who → ends (.close who c) 0 fun t => t.channel c = {} ∧ t.leaseOf 6 0 c = none) ∧
      (x.holder ≠ some who → ends (.close who c) 5 same) ∧
      (Ident.isSup who = false → ends (.revoke who c) 0xA same) ∧
      (Ident.isSup who = true → x.holder.isSome = true → ends (.revoke who c) 0 fun t => t.channel c = {}) ∧
      (Ident.isSup who = true → x.holder = none → ends (.revoke who c) 5 same)) ∧
    (s.mayStamp who = false → exec (.send who c len none) s = .next s) ∧
    (s.mayStamp who = true →
    (256 < len → ∃ t, exec (.send who c len none) s = .next t ∧ err t) ∧
    (len ≤ 256 → s.fld (Fld.MBX_SEND_RES_DONE own) = 0 ∨ s.took (Reg.MBX_SEND own) = true →
      ∃ t, exec (.send who c len none) s = .next t ∧ same t ∧
      t.flag (Fld.MBX_SEND_RES_LOST own) = true) ∧
    (len ≤ 256 → s.fld (Fld.MBX_SEND_RES_DONE own) = 1 → s.took (Reg.MBX_SEND own) = false → s.sendFlow own = none →
      (s.sendCode who c = Code.ok → ∃ t, exec (.send who c len none) s = .next t ∧
        (t.channel c).queue = x.queue ++ [{ src := who, slot := 0, data := s.sdata own len }] ∧
        t.fld (Fld.MBX_SEND_RES_RESULT own) = 1 ∧ t.fld (Fld.MBX_SEND_RES_DONE own) = 0) ∧
      (s.sendCode who c ≠ Code.ok → s.now.sent = [] → ∃ t, exec (.send who c len none) s = .next t ∧ same t ∧
        t.fld (Fld.MBX_SEND_RES_RESULT own) = s.sendCode who c ∧ t.fld (Fld.MBX_SEND_RES_DONE own) = 1))) ∧
    (s.now.ended = [] →
    (x.holder = some who → code ≠ 1 → ∀ rest, x.queue = m :: rest → Ident.chip m.src = s.chip →
      Ident.isIsland m.src = false → ∃ t, exec (.ack who c code) s = .next t ∧ (t.channel c).queue = rest ∧
        t.fld (Fld.MBX_SEND_RES_RESULT (mbxBlock m.src)) = code.toNat ∧
        t.fld (Fld.MBX_SEND_RES_DONE (mbxBlock m.src)) = 1) ∧
    (x.holder ≠ some who ∨ x.queue = [] ∨ code = 1 → ∃ t, exec (.ack who c code) s = .next t ∧ err t)) ∧
    (Ident.isSup who = false → ∃ t, exec (.mbxAbort who k) s = .next t ∧ err t) ∧
    (Ident.isSup who = true → k < 8 ∨ (16 ≤ k ∧ k ≤ 112) → s.fld (Fld.MBX_SEND_RES_DONE k) = 0 →
      ∃ t, exec (.mbxAbort who k) s = .next t ∧ t.fld (Fld.MBX_SEND_RES_RESULT k) = 8 ∧
        t.fld (Fld.MBX_SEND_RES_DONE k) = 1 ∧ ∀ y ∈ (t.channel c).queue, y.src ≠ s.ident (blockSrc k)) ∧
    (s.asks who = true → s.targetPresent target = true → Ident.chip target = s.chip → Ident.src target < 8 →
      ∃ t, exec (.mbxRing who target b) s = .next t ∧ t.reg (Reg.MBX_DB (Ident.src target)) =
        s.reg (Reg.MBX_DB (Ident.src target)) ||| (1#32 <<< (b % 32))) ∧
    (s.targetPresent target = false → ∃ t, exec (.mbxRing who target b) s = .next t ∧ err t) ∧
    (∃ t, exec (.mbxDbmask who v) s = .next t ∧ t.reg (Reg.MBX_DBMASK own) = v) ∧
    (Ident.isSup who = true → ∃ t, exec (.mbxSupNote who v) s = .next t ∧ t.reg Reg.MBX_SUP_NOTE = v ∧
      (t.reg Reg.MBX_IRQ_PEND0).getLsbD 4 = true) ∧
    (Ident.isHost who = true → ∃ t, exec (.mbxSupNote who v) s = .next t ∧ err t ∧
      t.reg Reg.MBX_SUP_NOTE = s.reg Reg.MBX_SUP_NOTE) ∧
    (let head := s.fld Fld.MBX_HRX_HEAD_HEAD
     let tail := s.fld Fld.MBX_HTX_TAIL_TAIL
     let new := fieldGet v 0 11
     (s.ringOwner who = true →
       ((new + 2048 - head) % 2048 ≤ (s.fld Fld.MBX_HRX_TAIL_TAIL + 2048 - head) % 2048 →
         ∃ t, exec (.mbxHrxHead who v) s = .next t ∧ t.fld Fld.MBX_HRX_HEAD_HEAD = new) ∧
       ((new + 2048 - tail) % 2048 ≤ 2047 - (tail + 2048 - s.fld Fld.MBX_HTX_HEAD_HEAD) % 2048 →
         ∃ t, exec (.mbxHtxTail who v) s = .next t ∧ t.fld Fld.MBX_HTX_TAIL_TAIL = new)) ∧
     (s.ringOwner who = false →
       (∃ t, exec (.mbxHrxHead who v) s = .next t ∧ err t ∧ t.fld Fld.MBX_HRX_HEAD_HEAD = head) ∧
       (∃ t, exec (.mbxHtxTail who v) s = .next t ∧ err t ∧ t.fld Fld.MBX_HTX_TAIL_TAIL = tail))) ∧
    (fieldGet v 0 3 = 0 → ∃ t, exec (.mbxHostCfg who v) s = .next t ∧ err t ∧
      t.reg Reg.MBX_HOST_CFG = s.reg Reg.MBX_HOST_CFG) ∧
    (fieldGet v 0 3 ≠ 0 → ∃ t, exec (.mbxHostCfg who v) s = .next t ∧
      t.fld Fld.MBX_HOST_CFG_NFN = (if s.mode = Mode.load then fieldGet v 0 3 else s.fld Fld.MBX_HOST_CFG_NFN) ∧
      t.fld Fld.MBX_HOST_CFG_HRING_FN = fieldGet v 8 3 ∧ t.fld Fld.MBX_HOST_CFG_HRING_EN = fieldGet v 11 1 ∧
      (s.fld Fld.MBX_HOST_CFG_HRING_EN ≠ fieldGet v 11 1 → t.reg Reg.MBX_HRX_HEAD = 0 ∧ t.reg Reg.MBX_HRX_TAIL = 0 ∧
        t.reg Reg.MBX_HTX_HEAD = 0 ∧ t.reg Reg.MBX_HTX_TAIL = 0))

/-! ### The safety island -/

/-- R474–R480, R482–R484, R486, R491, R493–R495, R499–R502 (every row of the island): its fault reactions, its samples,
its messages and its cycle. The code of a ROM error is a free value (log entry 62). -/
def Obligations.SafetyIsland : Prop :=
  ∀ (s : State) (c k n u : Nat) (la lb za zb zz valid up : Bool) (seals : BitVec 16) (pa pb rb : BitVec 8)
    (speed : BitVec 32) (err : IslandErr) (m : MbxMsg) (rest : List MbxMsg) (bs : List Byte),
    s.hasIsland = true → c < 16 → k < 4 → n < 4 →
    let i := s.island
    let faults (j : Instr) (post : Nat → Nat → Prop) : Prop :=
      ∃ t, exec j s = .next t ∧ t.island.state = 6 ∧ t.island.drive = 0 ∧ t.island.faultN = false ∧
        t.out.head? = some (.sto 0 false) ∧ post t.island.code t.island.detail
    let code (x y : Nat) (a b : Nat) : Prop := a = x ∧ b = y
    let sent (t : State) (x : Nat) : Prop := t.fld (Fld.MBX_SEND_RES_RESULT (mbxBlock m.src)) = x
    let mine (ch : Nat) : Prop := s.now.ended = [] ∧ (s.channel ch).holder = some s.islandId ∧
      (s.channel ch).queue = m :: rest ∧ Ident.chip m.src = s.chip ∧ Ident.isIsland m.src = false
    (i.state = 0 → (∃ t, exec (.islandSelfTestDone .pass) s = .next t ∧ t.island.state = 1 ∧ t.island.drive = i.drive) ∧
      faults (.islandSelfTestDone .lockstep) (code 1 0) ∧ faults (.islandSelfTestDone .sram) (code 2 0) ∧
      faults (.islandSelfTestDone .readback) (code 6 0) ∧ faults (.islandSelfTestDone .rom) (fun x y => x < 256 ∧ y = 0)) ∧
    (i.state ≠ 0 → exec (.islandSelfTestDone .pass) s = .next s) ∧
    faults .islandWatchdog (code 3 0) ∧ faults .lockstep (code 1 0) ∧ faults .brownout (code 5 0) ∧
    faults .osc (code 4 0) ∧
    (i.state = 6 → ∃ t, exec (.islandCycle rb err) s = .next t ∧ t.island.state = 6 ∧ t.island.drive = i.drive ∧
      t.island.inbox = [] ∧ t.island.cycles = i.cycles + 1) ∧
    (i.state ≠ 6 → rb.toNat ≠ i.drive → faults (.islandCycle rb err) fun x _ => x = 6) ∧
    (i.state ≠ 6 → rb.toNat = i.drive → faults (.islandCycle rb .sram) (code 2 0)) ∧
    (i.state = 1 → rb.toNat = i.drive → i.sealFault = true → ∃ t, exec (.islandCycle rb .none) s = .next t ∧
      t.island.state = 1 ∧ t.island.code = 0x10 ∧ t.island.drive = 0 ∧ t.island.cycles = i.cycles + 1) ∧
    (i.state = 4 → rb.toNat = i.drive → i.line = true → ∃ t, exec (.islandCycle rb .none) s = .next t ∧
      t.island.state = 2 ∧ t.island.executed = true ∧ t.island.drive = 0) ∧
    (∃ t, exec (.safeInputSample seals pa pb) s = .next t ∧ t.island.samples = i.samples + 1 ∧
      ∀ q, q < 16 → (Store.get (fun _ => {}) t.island.seals q : Filtered) =
        (Store.get (fun _ => {}) i.seals q).take 10 (seals.getLsbD q)) ∧
    (∃ t, exec (.encoderSample n za zb zz) s = .next t ∧
      ((i.enc n).a ≠ za → (i.enc n).b ≠ zb → (t.island.enc n).fault = true ∧ (t.island.enc n).count = (i.enc n).count) ∧
      ((i.enc n).a = false → (i.enc n).b = false → za = true → zb = false →
        (t.island.enc n).count = (i.enc n).count + 1)) ∧
    (s.inReset = false →
      (s.islandMail 63 = none → s.heldByIsland 63 = true → s.modeLine = false → s.clockGone 5 = false →
        ∃ t, exec .modeMessage s = .next t ∧
        t.island = { i with inbox := i.inbox ++ [.mode s.mode] }) ∧
      (mine 63 → m.data = [0x10, pa] → ∃ t, exec .modeMessage s = .next t ∧
        t.island.inbox = i.inbox ++ [.mode pa.toNat] ∧ (t.channel 63).queue = rest ∧ sent t 0)) ∧
    (i.permit = none → ∃ t, exec .permitTimeout s = .next t ∧ t.island.timeout = true) ∧
    (∀ x, i.permit = some (x, u) →
      (20 ≤ i.cycles - u → ∃ t, exec .permitTimeout s = .next t ∧ t.island.timeout = true) ∧
      (i.cycles - u < 20 → exec .permitTimeout s = .next s)) ∧
    (s.modeLine = true → ∃ t, exec .modeLineBoot s = .next t ∧ t.island.line = true ∧ t.out = .sto 0 false :: s.out) ∧
    (s.modeLine = false → exec .modeLineBoot s = .next s) ∧
    (mine 62 → m.data.length ≥ 4 →
      let off := setAt m.data 2 2
      let bytes := m.data.drop 4
      (m.data.head? = some 1 → off % 4 = 0 → off + bytes.length ≤ setLen →
        (i.state = 1 → i.pe = true → ∃ t, exec .stage s = .next t ∧
          t.island.staging.readBytes off bytes.length = bytes ∧ (t.channel 62).queue = rest ∧ sent t 0) ∧
        (i.state ≠ 1 → ∃ t, exec .stage s = .next t ∧ t.island = i ∧ sent t 5)) ∧
      (m.data.head? = some 2 → setAt m.data 1 1 < 16 → setCode (i.staging.readBytes 0 setLen) i.selected = 0 →
        (i.state = 1 → i.pe = true → i.low = false → ∃ t, exec (.store true) s = .next t ∧
          t.island.mram.readBytes (setAt m.data 1 1 * 0x1000) setLen = i.staging.readBytes 0 setLen ∧ sent t 0) ∧
        (i.state = 1 → i.pe = true → i.low = true → ∃ t, exec (.store true) s = .next t ∧ t.island = i ∧ sent t 9))) ∧
    (i.set = [] → exec (.blackChannelPdu valid up speed la) s = .next s) ∧
    (let ch := setAt i.set 0x00D 1 % 64
     i.set ≠ [] → (s.islandMail ch = none → exec (.blackChannelPdu valid up speed la) s = .next s) ∧
      (mine ch → ∃ t, exec (.blackChannelPdu valid up speed la) s = .next t ∧ sent t 0 ∧
        t.island.inbox = i.inbox ++ [.pdu (setAt m.data 0 1) valid up speed.toInt la])) ∧
    ((i.conn c).up = false → (i.conn c).pending = false → exec (.connectionLoss c) s = .next s) ∧
    ((i.conn c).pending = true → setAt i.set (connAt c) 1 ≠ 0 → setAt i.set (connAt c + 2) 2 ≤ i.cycles - (i.conn c).sent →
      ∃ t, exec (.connectionLoss c) s = .next t ∧ (t.island.conn c).up = false ∧ (t.island.conn c).pending = false ∧
        (t.island.conn c).result = Code.revoked ∧ ((i.conn c).up = false → t.island.code = i.code)) ∧
    ((i.conn c).up = true → setAt i.set (connAt c) 1 ≠ 0 → setAt i.set (connAt c + 2) 2 ≤ i.cycles - (i.conn c).valid →
      ∃ t, exec (.connectionLoss c) s = .next t ∧ (t.island.conn c).up = false ∧ t.island.lost = true ∧
        t.island.code = 0x23 ∧ t.island.detail = c) ∧
    ((i.conn c).resend = none → exec (.pduResend c) s = .next s) ∧
    ((i.conn c).resend = some bs → i.samples ≤ (i.conn c).offered → exec (.pduResend c) s = .next s) ∧
    ((i.conn c).resend = some bs → s.inReset = false → (i.conn c).offered < i.samples →
      let r := s.sendCode s.islandId (setAt i.set 0x00E 1 % 64)
      (r = Code.ok → ∃ t, exec (.pduResend c) s = .next t ∧ (t.island.conn c).pending = true ∧
        (t.island.conn c).resend = none) ∧
      (r = Code.busy → s.now.sent = [] → ∃ t, exec (.pduResend c) s = .next t ∧ (t.island.conn c).resend = some bs ∧
        (t.island.conn c).result = Code.busy)) ∧
    (s.inReset = false → (s.channel 63).holder = none → ∃ t, exec .channelReopen s = .next t ∧
      (t.channel 63).holder = some s.islandId ∧ (t.channel 63).depth = 4) ∧
    (let due := setAt i.set (axisAt k + 46) 2 * 1000
     i.drive.testBit (2 * k) = true → due ≤ i.cycles - (i.axis k).dark →
      (∃ t, exec (.darkTest k true true) s = .next t ∧ (t.island.axis k).dark = i.cycles ∧ t.island.drive = i.drive) ∧
      faults (.darkTest k false lb) (code 6 k) ∧ faults (.darkTest k true false) (code 6 k)) ∧
    (i.drive.testBit (2 * k) = false → exec (.darkTest k la lb) s = .next s) ∧
    (∃ t, exec (.safeLowStoreBlock la) s = .next t ∧ t.island = { i with low := la }) ∧
    (∃ t, exec .islandReset s = .next t ∧ t.island.reset = true ∧ t.island.state = 0 ∧ t.island.mram = i.mram ∧
      t.reg Reg.SAFE_STAT = 0 ∧ t.out = .sto 0 false :: s.out ∧
      ∃ w, exec .islandResetRelease t = .next w ∧ w.island.reset = false ∧ w.island.state = 0 ∧ w.island.mram = i.mram)

/-! ### The block as a whole -/

/-- A step runs the command in front of the queue on the rest of the state and the queue's rest, and every command
completes in every state; on an empty queue a cycle passes (log entry 1, the model's choice). -/
def Obligations.StepRunsTheFront : Prop :=
  (∀ (s : State) (c : Instr) (rest : List Instr),
    step { s with pending := c :: rest } = exec c { s with pending := rest }) ∧
  (∀ (c : Instr) (s : State), ∃ t, exec c s = .next t) ∧
  (∀ s : State, s.pending = [] → step s = .next s.tick)

/-- What reset leaves (R52, R54, R99, R188, R350, R377, R425, R478): the device in BOOT with its units at their reset
values, and no command waiting. That memory lists nothing is the model's choice (log entry 4). -/
def Obligations.AfterReset : Prop :=
  let s := State.reset
  s.pending = [] ∧ s.memWf ∧ s.mode = 0 ∧ s.inReset = false ∧ s.leases = [] ∧ s.shadow = [] ∧
  s.fld Fld.SYS_BOOT_STAT_STAGE = 0 ∧ s.flag Fld.SYS_MODE_CMD_BUSY = false ∧
  (∀ e, e < 96 → s.engState e = 0 ∧ s.flag (Fld.CE_CTRL_RUN e) = false) ∧
  (∀ e, e < 96 → s.reg (Reg.CE_CRC_POLY e 0) = 0x04C11DB7#32) ∧
  (∀ d, d < 8 → s.flag (Fld.RND_STAT_RUNNING d) = false) ∧ s.aveState = 0 ∧
  s.tb.line = 0 ∧ s.flag Fld.TIME_STAT_FREE = true ∧ s.activeDom = 0 ∧ s.domState 0 = 0 ∧ s.domState 1 = 0 ∧
  (∀ n, n < 34 → s.flag (Fld.ETH_CTRL_EN n) = false) ∧
  (∀ n, n < 16 → s.flag (Fld.CAN_CTRL_EN n) = false ∧ s.flag (Fld.SER_CTRL_EN n) = false) ∧
  s.flag Fld.IMG_STAT_READY = false ∧ (∀ k f, s.flowCtx k f = none) ∧ (∀ p, p < 32 → s.pairState p = 0) ∧
  s.island.state = 0 ∧ s.island.drive = 0

/-- The memories of the block keep their canonical form (registers, the memories and general registers of engines, the
districts' SRAMs, the transmit rings of the serial lines, the Crossing's frame buffer, MRAM, boot window, host memory,
curve store, and the island's safety MRAM and staging buffer), whatever command runs and on a cycle; the variant never
changes, and a step takes one command off the queue and adds none. -/
def Obligations.StepsKeepTheForm : Prop :=
  ∀ s t : State, s.memWf → step s = .next t →
    t.memWf ∧ t.variant = s.variant ∧ t.pending = s.pending.tail ∧
    t.cycle = if s.pending = [] then s.cycle + 1 else s.cycle

/-- What the commands of each family leave alone: every part of the block outside the parts named here; the
instructions leave the SRAMs of every engine and the registers of every other engine as they were. A reset, a mode
command, the whole-device reclaims and what stores into memory are not in these lists. -/
def Obligations.CommandFrames : Prop :=
  ∀ s t : State,
  (∀ (e : Nat) (wide ext : Bool) (d c a b : GReg) (imm : Imm) (v : BitVec 16) (k : BitVec 8) (n : Fin 16) (disp : Disp)
      (far : BitVec 32) (i : Instr),
    i ∈ [Instr.nop e, .mov e wide d a, .movi e wide d imm, .add e wide d a b, .sub e wide d a b, .addc e wide d c a b,
      .subb e wide d c a b, .addv e wide d c a b, .subv e wide d c a b, .mul e wide d a b, .mulh e wide d a b,
      .mulhu e wide d a b, .div e wide d a b, .divu e wide d a b, .rem e wide d a b, .remu e wide d a b,
      .satadd e wide d a b, .neg e wide d a, .negv e wide d c a, .addi e wide d a imm, .andi e wide d a v ext,
      .ori e wide d a v ext, .xori e wide d a v ext, .shli e wide d a k, .shri e wide d a k, .sari e wide d a k,
      .roli e wide d a k, .roti e wide d a k, .muli e wide d a v ext, .ceqi e wide d a v ext, .clti e wide d a v ext,
      .cltui e wide d a v ext, .sataddi e wide d a v ext, .and e wide d a b, .or e wide d a b, .xor e wide d a b,
      .andn e wide d a b, .not e wide d a, .shl e wide d a b, .shr e wide d a b, .sar e wide d a b, .rol e wide d a b,
      .rot e wide d a b, .ceq e wide d a b, .cne e wide d a b, .clt e wide d a b, .cltu e wide d a b, .cge e wide d a b,
      .cgeu e wide d a b, .sel e wide d c a b, .bfx e wide d a v, .bfi e wide d a v, .clz e wide d a, .popc e wide d a,
      .bswap e wide d a, .lea e d b far, .b e disp, .bz e a disp, .bnz e a disp, .call e disp, .br e a, .callr e a,
      .ret e, .stmp e wide d, .rndrd e d k, .evt e a k, .mfs e d n, .mts e n a, .rete e, .trap e k, .illegal e,
      .fetchAccess e, .watchdogExpiry e, .tsqp e d a b, .srup e d a, .rndwr e a k, .rndop e a v, .lease e d a,
      .release e d a] →
    exec i s = .next t →
    t = { s with now := t.now, regs := t.regs, engines := t.engines, notices := t.notices, tb := t.tb, srus := t.srus
                 districts := t.districts, red := t.red, leases := t.leases, ave := t.ave } ∧
    (∀ x, (t.eng x).data = (s.eng x).data ∧ (t.eng x).instr = (s.eng x).instr) ∧
    (∀ x, x ≠ e → (t.eng x).g = (s.eng x).g)) ∧
  (∀ (who : Ident) (e n : Nat) (v : Word) (key : BitVec 16) (i : Instr),
    i ∈ [Instr.ceWdog who e v, .ceWdogKick who e key, .engineStart who e, .eventLineArrival e n] → exec i s = .next t →
    t = { s with now := t.now, regs := t.regs, engines := t.engines }) ∧
  (∀ (who : Ident) (x n d k tag : Nat) (v : Word) (falling : Bool) (i : Instr),
    i ∈ [Instr.timeInit x tag who, .timeStep x tag who, .timeRate x tag who, .timeLock x tag who, .timeUnlock x tag who,
      .timeSwitch x tag who, .timeSnap tag who, .timeDomCfg x v, .softwareHoldoverTimeout x, .ppsEdge n falling,
      .ppsMissingMeasurement x, .tclkLockReturn, .timeOutArm k v, .pulseLeadingEdge k, .pulseTrailingEdge k,
      .slewingEnd, .tsqRelease d v who] → exec i s = .next t →
    t = { s with now := t.now, regs := t.regs, engines := t.engines, tb := t.tb, notices := t.notices, out := t.out
                 syncs := t.syncs, merges := t.merges }) ∧
  (∀ (who : Ident) (n e o k more : Nat) (tdc : Option Nat) (v : Word) (f : CanFrame) (how : Attempt) (err : CanError) (spot : ErrorSpot)
      (exempt : Bool) (i : Instr),
    i ∈ [Instr.canEnable n who, .canDisable n who, .integrationDone n, .frameValid n f, .objectWord0Read e n o,
      .objectWord19Read e n o, .canRxid n o v who, .txRequest n k who, .txCancel n k who, .boffRecover n who,
      .arbitrationChoice n, .attemptEnd n how tdc, .busError n err spot exempt more, .recoveryDone n] →
        exec i s = .next t →
    t = { s with now := t.now, regs := t.regs, engines := t.engines, cans := t.cans, leases := t.leases, red := t.red, out := t.out }) ∧
  (∀ (who : Ident) (n e v : Nat) (en parity frame brk : Bool) (part : SerialRx) (bits w : Word) (i : Instr),
    i ∈ [Instr.serEnable n en who, .characterReceived n part parity frame brk, .serTxTail n e v, .serRxHead n e v,
      .characterSent n, .ssiStart n e, .ssiTransferDone n bits, .ssiPauseEnd n, .wurq n e w, .wurqEnd n,
      .rxIdleTime n] → exec i s = .next t →
    t = { s with now := t.now, regs := t.regs, engines := t.engines, serials := t.serials, red := t.red, out := t.out
                 syncs := t.syncs, merges := t.merges }) ∧
  (∀ (who : Ident) (p v k : Nat) (recipe whole : Bool) (i : Instr),
    i ∈ [Instr.writeSetAdd who p v, .clearSweepDone, .imgBegin who recipe, .imgCommit who k, .commitProcessing whole,
      .settleComplete k, .imgRollback who k, .pin who, .unpin who k, .cowRecordsFreed, .cowWaitTimeout] →
    exec i s = .next t →
    t = { s with now := t.now, regs := t.regs, engines := t.engines, img := t.img, leases := t.leases, shadow := t.shadow
                 red := t.red, xing := t.xing }) ∧
  (∀ (who : Ident) (n origin slot l port : Nat) (c : Claim) (f : RelayFrame) (step : TrainStep) (i : Instr),
    i ∈ [Instr.claim c, .claimMinislot n, .claimEvaluation, .claimTimeout, .coldstartCheckEnd, .referenceMiss, .reint,
      .wilernEnable n, .trainingStepDone n step, .trainingRetry n, .wilernLinkDown n, .relayFrame n origin f,
      .aveClaim slot l who, .aveClaimRelease slot l who] → exec i s = .next t →
    t = { s with now := t.now, regs := t.regs, engines := t.engines, ave := t.ave, notices := t.notices, out := t.out }) ∧
  (∀ (who : Ident) (n q : Nat) (i : Instr),
    i ∈ [Instr.copyEnqueue, .gateEvent n, .gateWindowClose q, .spillWriteDone q, .spillReadBack q, .oldGenerationRetire,
      .bankSyncDone, .xingTblRead who, .xingTblWrite who, .lamplighterExamine] → exec i s = .next t →
    t = { s with now := t.now, regs := t.regs, xing := t.xing, shadow := t.shadow, leases := t.leases, free := t.free
                 notices := t.notices }) ∧
  (∀ (n e l v : Nat) (b : Bool) (w : Word) (i : Instr),
    i ∈ [Instr.txTail n e v, .rxCtrl n e w, .aptA n e l b w, .rxHead n e v, .alloc n e w, .plcaCycle n, .backoffExpiry n] →
    exec i s = .next t →
    t = { s with now := t.now, regs := t.regs, engines := t.engines, ports := t.ports, xing := t.xing, leases := t.leases
                 free := t.free, notices := t.notices, out := t.out }) ∧
  (∀ (who : Ident) (d n : Nat) (en : Bool) (i : Instr),
    i ∈ [Instr.clear who d n, .latch who d n, .sruCtrl who d en, .sruEosQRead who d, .selfCheckFailure d] →
    exec i s = .next t → t = { s with now := t.now, regs := t.regs, engines := t.engines, srus := t.srus, out := t.out }) ∧
  (∀ (who allow : Ident) (c depth b : Nat) (any : Bool) (v : Word) (i : Instr),
    i ∈ [Instr.mbxOpen who c depth b any allow, .mbxHrxHead who v, .mbxHtxTail who v, .mbxHostCfg who v, .mbxSupNote who v,
      .mbxDbmask who v] → exec i s = .next t →
    t = { s with now := t.now, regs := t.regs, engines := t.engines, leases := t.leases, channels := t.channels
                 ave := t.ave, island := t.island, msixPba := t.msixPba, out := t.out }) ∧
  (∀ (seals : BitVec 16) (pa pb : BitVec 8) (n : Nat) (za zb zz la lb low : Bool) (how : SelfTest) (i : Instr),
    i ∈ [Instr.safeInputSample seals pa pb, .permitTimeout, .encoderSample n za zb zz, .modeLineBoot, .safeLowStoreBlock low,
      .darkTest n la lb, .islandWatchdog, .lockstep, .brownout, .islandSelfTestDone how, .islandReset,
      .islandResetRelease] → exec i s = .next t →
    t = { s with now := t.now, regs := t.regs, engines := t.engines, island := t.island, msixPba := t.msixPba, mram := t.mram
                 notices := t.notices, out := t.out, free := t.free }) ∧
  (∀ (who : Ident) (m rows : Nat) (core sram nv io : BitVec 12) (errs : List MramFault) (low : Bool) (i : Instr),
    i ∈ [Instr.nvRead who errs, .nvWrite who, .nvCopy who rows, .rowWriteDone, .otpKey who, .otpRevoke who, .otpFloor who,
      .otpProgramDone, .supplyMonitorAssert m, .blockRelease, .vmonUpdate core sram nv io, .bypass, .idcode,
      .samplePreload, .extest, .jtagTrstN low] → exec i s = .next t →
    t = { s with now := t.now, regs := t.regs, engines := t.engines, nv := t.nv, sup := t.sup, red := t.red, mram := t.mram
                 keyHash := t.keyHash
                 jtag := t.jtag, notices := t.notices })
end

