-- ==== Sys2Proof/Laws/State.lean ====
section
/-!
SUPPORT. What each update of the state leaves in each field: one lemma per field and update, true by unfolding the
record.
-/

namespace Sys2Proof.Machine.State

@[simp] theorem setReg_pending (s : State) (a : Nat) (v : Word) : (s.setReg a v).pending = s.pending := rfl
@[simp] theorem setReg_variant (s : State) (a : Nat) (v : Word) : (s.setReg a v).variant = s.variant := rfl
@[simp] theorem setReg_now (s : State) (a : Nat) (v : Word) : (s.setReg a v).now = s.now := rfl
@[simp] theorem setReg_sup (s : State) (a : Nat) (v : Word) : (s.setReg a v).sup = s.sup := rfl
@[simp] theorem setReg_hostReads (s : State) (a : Nat) (v : Word) : (s.setReg a v).hostReads = s.hostReads := rfl
@[simp] theorem setReg_cycle (s : State) (a : Nat) (v : Word) : (s.setReg a v).cycle = s.cycle := rfl
@[simp] theorem setReg_free (s : State) (a : Nat) (v : Word) : (s.setReg a v).free = s.free := rfl
@[simp] theorem setReg_shadow (s : State) (a : Nat) (v : Word) : (s.setReg a v).shadow = s.shadow := rfl
@[simp] theorem setReg_leases (s : State) (a : Nat) (v : Word) : (s.setReg a v).leases = s.leases := rfl
@[simp] theorem setReg_porstLow (s : State) (a : Nat) (v : Word) : (s.setReg a v).porstLow = s.porstLow := rfl
@[simp] theorem setReg_coreReset (s : State) (a : Nat) (v : Word) : (s.setReg a v).coreReset = s.coreReset := rfl
@[simp] theorem setReg_modeCmd (s : State) (a : Nat) (v : Word) : (s.setReg a v).modeCmd = s.modeCmd := rfl
@[simp] theorem setReg_bootSel (s : State) (a : Nat) (v : Word) : (s.setReg a v).bootSel = s.bootSel := rfl
@[simp] theorem setReg_bootMem (s : State) (a : Nat) (v : Word) : (s.setReg a v).bootMem = s.bootMem := rfl
@[simp] theorem setReg_syncs (s : State) (a : Nat) (v : Word) : (s.setReg a v).syncs = s.syncs := rfl
@[simp] theorem setReg_merges (s : State) (a : Nat) (v : Word) : (s.setReg a v).merges = s.merges := rfl
@[simp] theorem setReg_engines (s : State) (a : Nat) (v : Word) : (s.setReg a v).engines = s.engines := rfl
@[simp] theorem setReg_msixTab (s : State) (a : Nat) (v : Word) : (s.setReg a v).msixTab = s.msixTab := rfl
@[simp] theorem setReg_msixPba (s : State) (a : Nat) (v : Word) : (s.setReg a v).msixPba = s.msixPba := rfl
@[simp] theorem setReg_districts (s : State) (a : Nat) (v : Word) : (s.setReg a v).districts = s.districts := rfl
@[simp] theorem setReg_ave (s : State) (a : Nat) (v : Word) : (s.setReg a v).ave = s.ave := rfl
@[simp] theorem setReg_tb (s : State) (a : Nat) (v : Word) : (s.setReg a v).tb = s.tb := rfl
@[simp] theorem setReg_red (s : State) (a : Nat) (v : Word) : (s.setReg a v).red = s.red := rfl
@[simp] theorem setReg_xing (s : State) (a : Nat) (v : Word) : (s.setReg a v).xing = s.xing := rfl
@[simp] theorem setReg_ports (s : State) (a : Nat) (v : Word) : (s.setReg a v).ports = s.ports := rfl
@[simp] theorem setReg_txTurn (s : State) (a : Nat) (v : Word) : (s.setReg a v).txTurn = s.txTurn := rfl
@[simp] theorem setReg_hostMem (s : State) (a : Nat) (v : Word) : (s.setReg a v).hostMem = s.hostMem := rfl
@[simp] theorem setReg_cans (s : State) (a : Nat) (v : Word) : (s.setReg a v).cans = s.cans := rfl
@[simp] theorem setReg_serials (s : State) (a : Nat) (v : Word) : (s.setReg a v).serials = s.serials := rfl
@[simp] theorem setReg_mram (s : State) (a : Nat) (v : Word) : (s.setReg a v).mram = s.mram := rfl
@[simp] theorem setReg_keyHash (s : State) (a : Nat) (v : Word) : (s.setReg a v).keyHash = s.keyHash := rfl
@[simp] theorem setReg_nv (s : State) (a : Nat) (v : Word) : (s.setReg a v).nv = s.nv := rfl
@[simp] theorem setReg_pkg (s : State) (a : Nat) (v : Word) : (s.setReg a v).pkg = s.pkg := rfl
@[simp] theorem setReg_jtag (s : State) (a : Nat) (v : Word) : (s.setReg a v).jtag = s.jtag := rfl
@[simp] theorem setReg_img (s : State) (a : Nat) (v : Word) : (s.setReg a v).img = s.img := rfl
@[simp] theorem setReg_curve (s : State) (a : Nat) (v : Word) : (s.setReg a v).curve = s.curve := rfl
@[simp] theorem setReg_srus (s : State) (a : Nat) (v : Word) : (s.setReg a v).srus = s.srus := rfl
@[simp] theorem setReg_channels (s : State) (a : Nat) (v : Word) : (s.setReg a v).channels = s.channels := rfl
@[simp] theorem setReg_island (s : State) (a : Nat) (v : Word) : (s.setReg a v).island = s.island := rfl
@[simp] theorem setReg_latch (s : State) (a : Nat) (v : Word) : (s.setReg a v).latch = s.latch := rfl
@[simp] theorem setReg_clockLost (s : State) (a : Nat) (v : Word) : (s.setReg a v).clockLost = s.clockLost := rfl
@[simp] theorem setReg_nfn (s : State) (a : Nat) (v : Word) : (s.setReg a v).nfn = s.nfn := rfl
@[simp] theorem setReg_notices (s : State) (a : Nat) (v : Word) : (s.setReg a v).notices = s.notices := rfl
@[simp] theorem setReg_out (s : State) (a : Nat) (v : Word) : (s.setReg a v).out = s.out := rfl

@[simp] theorem setFld_pending (s : State) (f : Fld) (v : Nat) : (s.setFld f v).pending = s.pending := rfl
@[simp] theorem setFld_variant (s : State) (f : Fld) (v : Nat) : (s.setFld f v).variant = s.variant := rfl
@[simp] theorem setFld_now (s : State) (f : Fld) (v : Nat) : (s.setFld f v).now = s.now := rfl
@[simp] theorem setFld_sup (s : State) (f : Fld) (v : Nat) : (s.setFld f v).sup = s.sup := rfl
@[simp] theorem setFld_hostReads (s : State) (f : Fld) (v : Nat) : (s.setFld f v).hostReads = s.hostReads := rfl
@[simp] theorem setFld_cycle (s : State) (f : Fld) (v : Nat) : (s.setFld f v).cycle = s.cycle := rfl
@[simp] theorem setFld_free (s : State) (f : Fld) (v : Nat) : (s.setFld f v).free = s.free := rfl
@[simp] theorem setFld_shadow (s : State) (f : Fld) (v : Nat) : (s.setFld f v).shadow = s.shadow := rfl
@[simp] theorem setFld_leases (s : State) (f : Fld) (v : Nat) : (s.setFld f v).leases = s.leases := rfl
@[simp] theorem setFld_porstLow (s : State) (f : Fld) (v : Nat) : (s.setFld f v).porstLow = s.porstLow := rfl
@[simp] theorem setFld_coreReset (s : State) (f : Fld) (v : Nat) : (s.setFld f v).coreReset = s.coreReset := rfl
@[simp] theorem setFld_modeCmd (s : State) (f : Fld) (v : Nat) : (s.setFld f v).modeCmd = s.modeCmd := rfl
@[simp] theorem setFld_bootSel (s : State) (f : Fld) (v : Nat) : (s.setFld f v).bootSel = s.bootSel := rfl
@[simp] theorem setFld_bootMem (s : State) (f : Fld) (v : Nat) : (s.setFld f v).bootMem = s.bootMem := rfl
@[simp] theorem setFld_syncs (s : State) (f : Fld) (v : Nat) : (s.setFld f v).syncs = s.syncs := rfl
@[simp] theorem setFld_merges (s : State) (f : Fld) (v : Nat) : (s.setFld f v).merges = s.merges := rfl
@[simp] theorem setFld_engines (s : State) (f : Fld) (v : Nat) : (s.setFld f v).engines = s.engines := rfl
@[simp] theorem setFld_msixTab (s : State) (f : Fld) (v : Nat) : (s.setFld f v).msixTab = s.msixTab := rfl
@[simp] theorem setFld_msixPba (s : State) (f : Fld) (v : Nat) : (s.setFld f v).msixPba = s.msixPba := rfl
@[simp] theorem setFld_districts (s : State) (f : Fld) (v : Nat) : (s.setFld f v).districts = s.districts := rfl
@[simp] theorem setFld_ave (s : State) (f : Fld) (v : Nat) : (s.setFld f v).ave = s.ave := rfl
@[simp] theorem setFld_tb (s : State) (f : Fld) (v : Nat) : (s.setFld f v).tb = s.tb := rfl
@[simp] theorem setFld_red (s : State) (f : Fld) (v : Nat) : (s.setFld f v).red = s.red := rfl
@[simp] theorem setFld_xing (s : State) (f : Fld) (v : Nat) : (s.setFld f v).xing = s.xing := rfl
@[simp] theorem setFld_ports (s : State) (f : Fld) (v : Nat) : (s.setFld f v).ports = s.ports := rfl
@[simp] theorem setFld_txTurn (s : State) (f : Fld) (v : Nat) : (s.setFld f v).txTurn = s.txTurn := rfl
@[simp] theorem setFld_hostMem (s : State) (f : Fld) (v : Nat) : (s.setFld f v).hostMem = s.hostMem := rfl
@[simp] theorem setFld_cans (s : State) (f : Fld) (v : Nat) : (s.setFld f v).cans = s.cans := rfl
@[simp] theorem setFld_serials (s : State) (f : Fld) (v : Nat) : (s.setFld f v).serials = s.serials := rfl
@[simp] theorem setFld_mram (s : State) (f : Fld) (v : Nat) : (s.setFld f v).mram = s.mram := rfl
@[simp] theorem setFld_keyHash (s : State) (f : Fld) (v : Nat) : (s.setFld f v).keyHash = s.keyHash := rfl
@[simp] theorem setFld_nv (s : State) (f : Fld) (v : Nat) : (s.setFld f v).nv = s.nv := rfl
@[simp] theorem setFld_pkg (s : State) (f : Fld) (v : Nat) : (s.setFld f v).pkg = s.pkg := rfl
@[simp] theorem setFld_jtag (s : State) (f : Fld) (v : Nat) : (s.setFld f v).jtag = s.jtag := rfl
@[simp] theorem setFld_img (s : State) (f : Fld) (v : Nat) : (s.setFld f v).img = s.img := rfl
@[simp] theorem setFld_curve (s : State) (f : Fld) (v : Nat) : (s.setFld f v).curve = s.curve := rfl
@[simp] theorem setFld_srus (s : State) (f : Fld) (v : Nat) : (s.setFld f v).srus = s.srus := rfl
@[simp] theorem setFld_channels (s : State) (f : Fld) (v : Nat) : (s.setFld f v).channels = s.channels := rfl
@[simp] theorem setFld_island (s : State) (f : Fld) (v : Nat) : (s.setFld f v).island = s.island := rfl
@[simp] theorem setFld_latch (s : State) (f : Fld) (v : Nat) : (s.setFld f v).latch = s.latch := rfl
@[simp] theorem setFld_clockLost (s : State) (f : Fld) (v : Nat) : (s.setFld f v).clockLost = s.clockLost := rfl
@[simp] theorem setFld_nfn (s : State) (f : Fld) (v : Nat) : (s.setFld f v).nfn = s.nfn := rfl
@[simp] theorem setFld_notices (s : State) (f : Fld) (v : Nat) : (s.setFld f v).notices = s.notices := rfl
@[simp] theorem setFld_out (s : State) (f : Fld) (v : Nat) : (s.setFld f v).out = s.out := rfl

@[simp] theorem setFlag_pending (s : State) (f : Fld) (b : Bool) : (s.setFlag f b).pending = s.pending := rfl
@[simp] theorem setFlag_variant (s : State) (f : Fld) (b : Bool) : (s.setFlag f b).variant = s.variant := rfl
@[simp] theorem setFlag_sup (s : State) (f : Fld) (b : Bool) : (s.setFlag f b).sup = s.sup := rfl
@[simp] theorem setFlag_hostReads (s : State) (f : Fld) (b : Bool) : (s.setFlag f b).hostReads = s.hostReads := rfl
@[simp] theorem setFlag_cycle (s : State) (f : Fld) (b : Bool) : (s.setFlag f b).cycle = s.cycle := rfl
@[simp] theorem setFlag_free (s : State) (f : Fld) (b : Bool) : (s.setFlag f b).free = s.free := rfl
@[simp] theorem setFlag_shadow (s : State) (f : Fld) (b : Bool) : (s.setFlag f b).shadow = s.shadow := rfl
@[simp] theorem setFlag_leases (s : State) (f : Fld) (b : Bool) : (s.setFlag f b).leases = s.leases := rfl
@[simp] theorem setFlag_porstLow (s : State) (f : Fld) (b : Bool) : (s.setFlag f b).porstLow = s.porstLow := rfl
@[simp] theorem setFlag_coreReset (s : State) (f : Fld) (b : Bool) : (s.setFlag f b).coreReset = s.coreReset := rfl
@[simp] theorem setFlag_modeCmd (s : State) (f : Fld) (b : Bool) : (s.setFlag f b).modeCmd = s.modeCmd := rfl
@[simp] theorem setFlag_bootSel (s : State) (f : Fld) (b : Bool) : (s.setFlag f b).bootSel = s.bootSel := rfl
@[simp] theorem setFlag_bootMem (s : State) (f : Fld) (b : Bool) : (s.setFlag f b).bootMem = s.bootMem := rfl
@[simp] theorem setFlag_syncs (s : State) (f : Fld) (b : Bool) : (s.setFlag f b).syncs = s.syncs := rfl
@[simp] theorem setFlag_merges (s : State) (f : Fld) (b : Bool) : (s.setFlag f b).merges = s.merges := rfl
@[simp] theorem setFlag_engines (s : State) (f : Fld) (b : Bool) : (s.setFlag f b).engines = s.engines := rfl
@[simp] theorem setFlag_msixTab (s : State) (f : Fld) (b : Bool) : (s.setFlag f b).msixTab = s.msixTab := rfl
@[simp] theorem setFlag_msixPba (s : State) (f : Fld) (b : Bool) : (s.setFlag f b).msixPba = s.msixPba := rfl
@[simp] theorem setFlag_districts (s : State) (f : Fld) (b : Bool) : (s.setFlag f b).districts = s.districts := rfl
@[simp] theorem setFlag_ave (s : State) (f : Fld) (b : Bool) : (s.setFlag f b).ave = s.ave := rfl
@[simp] theorem setFlag_tb (s : State) (f : Fld) (b : Bool) : (s.setFlag f b).tb = s.tb := rfl
@[simp] theorem setFlag_red (s : State) (f : Fld) (b : Bool) : (s.setFlag f b).red = s.red := rfl
@[simp] theorem setFlag_xing (s : State) (f : Fld) (b : Bool) : (s.setFlag f b).xing = s.xing := rfl
@[simp] theorem setFlag_ports (s : State) (f : Fld) (b : Bool) : (s.setFlag f b).ports = s.ports := rfl
@[simp] theorem setFlag_txTurn (s : State) (f : Fld) (b : Bool) : (s.setFlag f b).txTurn = s.txTurn := rfl
@[simp] theorem setFlag_hostMem (s : State) (f : Fld) (b : Bool) : (s.setFlag f b).hostMem = s.hostMem := rfl
@[simp] theorem setFlag_cans (s : State) (f : Fld) (b : Bool) : (s.setFlag f b).cans = s.cans := rfl
@[simp] theorem setFlag_serials (s : State) (f : Fld) (b : Bool) : (s.setFlag f b).serials = s.serials := rfl
@[simp] theorem setFlag_mram (s : State) (f : Fld) (b : Bool) : (s.setFlag f b).mram = s.mram := rfl
@[simp] theorem setFlag_keyHash (s : State) (f : Fld) (b : Bool) : (s.setFlag f b).keyHash = s.keyHash := rfl
@[simp] theorem setFlag_nv (s : State) (f : Fld) (b : Bool) : (s.setFlag f b).nv = s.nv := rfl
@[simp] theorem setFlag_pkg (s : State) (f : Fld) (b : Bool) : (s.setFlag f b).pkg = s.pkg := rfl
@[simp] theorem setFlag_jtag (s : State) (f : Fld) (b : Bool) : (s.setFlag f b).jtag = s.jtag := rfl
@[simp] theorem setFlag_img (s : State) (f : Fld) (b : Bool) : (s.setFlag f b).img = s.img := rfl
@[simp] theorem setFlag_curve (s : State) (f : Fld) (b : Bool) : (s.setFlag f b).curve = s.curve := rfl
@[simp] theorem setFlag_srus (s : State) (f : Fld) (b : Bool) : (s.setFlag f b).srus = s.srus := rfl
@[simp] theorem setFlag_channels (s : State) (f : Fld) (b : Bool) : (s.setFlag f b).channels = s.channels := rfl
@[simp] theorem setFlag_island (s : State) (f : Fld) (b : Bool) : (s.setFlag f b).island = s.island := rfl
@[simp] theorem setFlag_latch (s : State) (f : Fld) (b : Bool) : (s.setFlag f b).latch = s.latch := rfl
@[simp] theorem setFlag_clockLost (s : State) (f : Fld) (b : Bool) : (s.setFlag f b).clockLost = s.clockLost := rfl
@[simp] theorem setFlag_nfn (s : State) (f : Fld) (b : Bool) : (s.setFlag f b).nfn = s.nfn := rfl
@[simp] theorem setFlag_notices (s : State) (f : Fld) (b : Bool) : (s.setFlag f b).notices = s.notices := rfl
@[simp] theorem setFlag_out (s : State) (f : Fld) (b : Bool) : (s.setFlag f b).out = s.out := rfl

@[simp] theorem count_pending (s : State) (f : Fld) (k : Nat) : (s.count f k).pending = s.pending := rfl
@[simp] theorem count_variant (s : State) (f : Fld) (k : Nat) : (s.count f k).variant = s.variant := rfl
@[simp] theorem count_sup (s : State) (f : Fld) (k : Nat) : (s.count f k).sup = s.sup := rfl
@[simp] theorem count_hostReads (s : State) (f : Fld) (k : Nat) : (s.count f k).hostReads = s.hostReads := rfl
@[simp] theorem count_cycle (s : State) (f : Fld) (k : Nat) : (s.count f k).cycle = s.cycle := rfl
@[simp] theorem count_free (s : State) (f : Fld) (k : Nat) : (s.count f k).free = s.free := rfl
@[simp] theorem count_shadow (s : State) (f : Fld) (k : Nat) : (s.count f k).shadow = s.shadow := rfl
@[simp] theorem count_leases (s : State) (f : Fld) (k : Nat) : (s.count f k).leases = s.leases := rfl
@[simp] theorem count_porstLow (s : State) (f : Fld) (k : Nat) : (s.count f k).porstLow = s.porstLow := rfl
@[simp] theorem count_coreReset (s : State) (f : Fld) (k : Nat) : (s.count f k).coreReset = s.coreReset := rfl
@[simp] theorem count_modeCmd (s : State) (f : Fld) (k : Nat) : (s.count f k).modeCmd = s.modeCmd := rfl
@[simp] theorem count_bootSel (s : State) (f : Fld) (k : Nat) : (s.count f k).bootSel = s.bootSel := rfl
@[simp] theorem count_bootMem (s : State) (f : Fld) (k : Nat) : (s.count f k).bootMem = s.bootMem := rfl
@[simp] theorem count_syncs (s : State) (f : Fld) (k : Nat) : (s.count f k).syncs = s.syncs := rfl
@[simp] theorem count_merges (s : State) (f : Fld) (k : Nat) : (s.count f k).merges = s.merges := rfl
@[simp] theorem count_engines (s : State) (f : Fld) (k : Nat) : (s.count f k).engines = s.engines := rfl
@[simp] theorem count_msixTab (s : State) (f : Fld) (k : Nat) : (s.count f k).msixTab = s.msixTab := rfl
@[simp] theorem count_msixPba (s : State) (f : Fld) (k : Nat) : (s.count f k).msixPba = s.msixPba := rfl
@[simp] theorem count_districts (s : State) (f : Fld) (k : Nat) : (s.count f k).districts = s.districts := rfl
@[simp] theorem count_ave (s : State) (f : Fld) (k : Nat) : (s.count f k).ave = s.ave := rfl
@[simp] theorem count_tb (s : State) (f : Fld) (k : Nat) : (s.count f k).tb = s.tb := rfl
@[simp] theorem count_red (s : State) (f : Fld) (k : Nat) : (s.count f k).red = s.red := rfl
@[simp] theorem count_xing (s : State) (f : Fld) (k : Nat) : (s.count f k).xing = s.xing := rfl
@[simp] theorem count_ports (s : State) (f : Fld) (k : Nat) : (s.count f k).ports = s.ports := rfl
@[simp] theorem count_txTurn (s : State) (f : Fld) (k : Nat) : (s.count f k).txTurn = s.txTurn := rfl
@[simp] theorem count_hostMem (s : State) (f : Fld) (k : Nat) : (s.count f k).hostMem = s.hostMem := rfl
@[simp] theorem count_cans (s : State) (f : Fld) (k : Nat) : (s.count f k).cans = s.cans := rfl
@[simp] theorem count_serials (s : State) (f : Fld) (k : Nat) : (s.count f k).serials = s.serials := rfl
@[simp] theorem count_mram (s : State) (f : Fld) (k : Nat) : (s.count f k).mram = s.mram := rfl
@[simp] theorem count_keyHash (s : State) (f : Fld) (k : Nat) : (s.count f k).keyHash = s.keyHash := rfl
@[simp] theorem count_nv (s : State) (f : Fld) (k : Nat) : (s.count f k).nv = s.nv := rfl
@[simp] theorem count_pkg (s : State) (f : Fld) (k : Nat) : (s.count f k).pkg = s.pkg := rfl
@[simp] theorem count_jtag (s : State) (f : Fld) (k : Nat) : (s.count f k).jtag = s.jtag := rfl
@[simp] theorem count_img (s : State) (f : Fld) (k : Nat) : (s.count f k).img = s.img := rfl
@[simp] theorem count_curve (s : State) (f : Fld) (k : Nat) : (s.count f k).curve = s.curve := rfl
@[simp] theorem count_srus (s : State) (f : Fld) (k : Nat) : (s.count f k).srus = s.srus := rfl
@[simp] theorem count_channels (s : State) (f : Fld) (k : Nat) : (s.count f k).channels = s.channels := rfl
@[simp] theorem count_island (s : State) (f : Fld) (k : Nat) : (s.count f k).island = s.island := rfl
@[simp] theorem count_latch (s : State) (f : Fld) (k : Nat) : (s.count f k).latch = s.latch := rfl
@[simp] theorem count_clockLost (s : State) (f : Fld) (k : Nat) : (s.count f k).clockLost = s.clockLost := rfl
@[simp] theorem count_nfn (s : State) (f : Fld) (k : Nat) : (s.count f k).nfn = s.nfn := rfl
@[simp] theorem count_notices (s : State) (f : Fld) (k : Nat) : (s.count f k).notices = s.notices := rfl
@[simp] theorem count_out (s : State) (f : Fld) (k : Nat) : (s.count f k).out = s.out := rfl

@[simp] theorem countWrap_pending (s : State) (f : Fld) (k : Nat) : (s.countWrap f k).pending = s.pending := rfl
@[simp] theorem countWrap_variant (s : State) (f : Fld) (k : Nat) : (s.countWrap f k).variant = s.variant := rfl
@[simp] theorem countWrap_sup (s : State) (f : Fld) (k : Nat) : (s.countWrap f k).sup = s.sup := rfl
@[simp] theorem countWrap_hostReads (s : State) (f : Fld) (k : Nat) : (s.countWrap f k).hostReads = s.hostReads := rfl
@[simp] theorem countWrap_cycle (s : State) (f : Fld) (k : Nat) : (s.countWrap f k).cycle = s.cycle := rfl
@[simp] theorem countWrap_free (s : State) (f : Fld) (k : Nat) : (s.countWrap f k).free = s.free := rfl
@[simp] theorem countWrap_shadow (s : State) (f : Fld) (k : Nat) : (s.countWrap f k).shadow = s.shadow := rfl
@[simp] theorem countWrap_leases (s : State) (f : Fld) (k : Nat) : (s.countWrap f k).leases = s.leases := rfl
@[simp] theorem countWrap_porstLow (s : State) (f : Fld) (k : Nat) : (s.countWrap f k).porstLow = s.porstLow := rfl
@[simp] theorem countWrap_coreReset (s : State) (f : Fld) (k : Nat) : (s.countWrap f k).coreReset = s.coreReset := rfl
@[simp] theorem countWrap_modeCmd (s : State) (f : Fld) (k : Nat) : (s.countWrap f k).modeCmd = s.modeCmd := rfl
@[simp] theorem countWrap_bootSel (s : State) (f : Fld) (k : Nat) : (s.countWrap f k).bootSel = s.bootSel := rfl
@[simp] theorem countWrap_bootMem (s : State) (f : Fld) (k : Nat) : (s.countWrap f k).bootMem = s.bootMem := rfl
@[simp] theorem countWrap_syncs (s : State) (f : Fld) (k : Nat) : (s.countWrap f k).syncs = s.syncs := rfl
@[simp] theorem countWrap_merges (s : State) (f : Fld) (k : Nat) : (s.countWrap f k).merges = s.merges := rfl
@[simp] theorem countWrap_engines (s : State) (f : Fld) (k : Nat) : (s.countWrap f k).engines = s.engines := rfl
@[simp] theorem countWrap_msixTab (s : State) (f : Fld) (k : Nat) : (s.countWrap f k).msixTab = s.msixTab := rfl
@[simp] theorem countWrap_msixPba (s : State) (f : Fld) (k : Nat) : (s.countWrap f k).msixPba = s.msixPba := rfl
@[simp] theorem countWrap_districts (s : State) (f : Fld) (k : Nat) : (s.countWrap f k).districts = s.districts := rfl
@[simp] theorem countWrap_ave (s : State) (f : Fld) (k : Nat) : (s.countWrap f k).ave = s.ave := rfl
@[simp] theorem countWrap_tb (s : State) (f : Fld) (k : Nat) : (s.countWrap f k).tb = s.tb := rfl
@[simp] theorem countWrap_red (s : State) (f : Fld) (k : Nat) : (s.countWrap f k).red = s.red := rfl
@[simp] theorem countWrap_xing (s : State) (f : Fld) (k : Nat) : (s.countWrap f k).xing = s.xing := rfl
@[simp] theorem countWrap_ports (s : State) (f : Fld) (k : Nat) : (s.countWrap f k).ports = s.ports := rfl
@[simp] theorem countWrap_txTurn (s : State) (f : Fld) (k : Nat) : (s.countWrap f k).txTurn = s.txTurn := rfl
@[simp] theorem countWrap_hostMem (s : State) (f : Fld) (k : Nat) : (s.countWrap f k).hostMem = s.hostMem := rfl
@[simp] theorem countWrap_cans (s : State) (f : Fld) (k : Nat) : (s.countWrap f k).cans = s.cans := rfl
@[simp] theorem countWrap_serials (s : State) (f : Fld) (k : Nat) : (s.countWrap f k).serials = s.serials := rfl
@[simp] theorem countWrap_mram (s : State) (f : Fld) (k : Nat) : (s.countWrap f k).mram = s.mram := rfl
@[simp] theorem countWrap_keyHash (s : State) (f : Fld) (k : Nat) : (s.countWrap f k).keyHash = s.keyHash := rfl
@[simp] theorem countWrap_nv (s : State) (f : Fld) (k : Nat) : (s.countWrap f k).nv = s.nv := rfl
@[simp] theorem countWrap_pkg (s : State) (f : Fld) (k : Nat) : (s.countWrap f k).pkg = s.pkg := rfl
@[simp] theorem countWrap_jtag (s : State) (f : Fld) (k : Nat) : (s.countWrap f k).jtag = s.jtag := rfl
@[simp] theorem countWrap_img (s : State) (f : Fld) (k : Nat) : (s.countWrap f k).img = s.img := rfl
@[simp] theorem countWrap_curve (s : State) (f : Fld) (k : Nat) : (s.countWrap f k).curve = s.curve := rfl
@[simp] theorem countWrap_srus (s : State) (f : Fld) (k : Nat) : (s.countWrap f k).srus = s.srus := rfl
@[simp] theorem countWrap_channels (s : State) (f : Fld) (k : Nat) : (s.countWrap f k).channels = s.channels := rfl
@[simp] theorem countWrap_island (s : State) (f : Fld) (k : Nat) : (s.countWrap f k).island = s.island := rfl
@[simp] theorem countWrap_latch (s : State) (f : Fld) (k : Nat) : (s.countWrap f k).latch = s.latch := rfl
@[simp] theorem countWrap_clockLost (s : State) (f : Fld) (k : Nat) : (s.countWrap f k).clockLost = s.clockLost := rfl
@[simp] theorem countWrap_nfn (s : State) (f : Fld) (k : Nat) : (s.countWrap f k).nfn = s.nfn := rfl
@[simp] theorem countWrap_notices (s : State) (f : Fld) (k : Nat) : (s.countWrap f k).notices = s.notices := rfl
@[simp] theorem countWrap_out (s : State) (f : Fld) (k : Nat) : (s.countWrap f k).out = s.out := rfl

@[simp] theorem draw_pending (s : State) : (s.draw).pending = s.pending := rfl
@[simp] theorem draw_variant (s : State) : (s.draw).variant = s.variant := rfl
@[simp] theorem draw_now (s : State) : (s.draw).now = s.now := rfl
@[simp] theorem draw_sup (s : State) : (s.draw).sup = s.sup := rfl
@[simp] theorem draw_hostReads (s : State) : (s.draw).hostReads = s.hostReads := rfl
@[simp] theorem draw_cycle (s : State) : (s.draw).cycle = s.cycle := rfl
@[simp] theorem draw_regs (s : State) : (s.draw).regs = s.regs := rfl
@[simp] theorem draw_shadow (s : State) : (s.draw).shadow = s.shadow := rfl
@[simp] theorem draw_leases (s : State) : (s.draw).leases = s.leases := rfl
@[simp] theorem draw_porstLow (s : State) : (s.draw).porstLow = s.porstLow := rfl
@[simp] theorem draw_coreReset (s : State) : (s.draw).coreReset = s.coreReset := rfl
@[simp] theorem draw_modeCmd (s : State) : (s.draw).modeCmd = s.modeCmd := rfl
@[simp] theorem draw_bootSel (s : State) : (s.draw).bootSel = s.bootSel := rfl
@[simp] theorem draw_bootMem (s : State) : (s.draw).bootMem = s.bootMem := rfl
@[simp] theorem draw_syncs (s : State) : (s.draw).syncs = s.syncs := rfl
@[simp] theorem draw_merges (s : State) : (s.draw).merges = s.merges := rfl
@[simp] theorem draw_engines (s : State) : (s.draw).engines = s.engines := rfl
@[simp] theorem draw_msixTab (s : State) : (s.draw).msixTab = s.msixTab := rfl
@[simp] theorem draw_msixPba (s : State) : (s.draw).msixPba = s.msixPba := rfl
@[simp] theorem draw_districts (s : State) : (s.draw).districts = s.districts := rfl
@[simp] theorem draw_ave (s : State) : (s.draw).ave = s.ave := rfl
@[simp] theorem draw_tb (s : State) : (s.draw).tb = s.tb := rfl
@[simp] theorem draw_red (s : State) : (s.draw).red = s.red := rfl
@[simp] theorem draw_xing (s : State) : (s.draw).xing = s.xing := rfl
@[simp] theorem draw_ports (s : State) : (s.draw).ports = s.ports := rfl
@[simp] theorem draw_txTurn (s : State) : (s.draw).txTurn = s.txTurn := rfl
@[simp] theorem draw_hostMem (s : State) : (s.draw).hostMem = s.hostMem := rfl
@[simp] theorem draw_cans (s : State) : (s.draw).cans = s.cans := rfl
@[simp] theorem draw_serials (s : State) : (s.draw).serials = s.serials := rfl
@[simp] theorem draw_mram (s : State) : (s.draw).mram = s.mram := rfl
@[simp] theorem draw_keyHash (s : State) : (s.draw).keyHash = s.keyHash := rfl
@[simp] theorem draw_nv (s : State) : (s.draw).nv = s.nv := rfl
@[simp] theorem draw_pkg (s : State) : (s.draw).pkg = s.pkg := rfl
@[simp] theorem draw_jtag (s : State) : (s.draw).jtag = s.jtag := rfl
@[simp] theorem draw_img (s : State) : (s.draw).img = s.img := rfl
@[simp] theorem draw_curve (s : State) : (s.draw).curve = s.curve := rfl
@[simp] theorem draw_srus (s : State) : (s.draw).srus = s.srus := rfl
@[simp] theorem draw_channels (s : State) : (s.draw).channels = s.channels := rfl
@[simp] theorem draw_island (s : State) : (s.draw).island = s.island := rfl
@[simp] theorem draw_latch (s : State) : (s.draw).latch = s.latch := rfl
@[simp] theorem draw_clockLost (s : State) : (s.draw).clockLost = s.clockLost := rfl
@[simp] theorem draw_nfn (s : State) : (s.draw).nfn = s.nfn := rfl
@[simp] theorem draw_notices (s : State) : (s.draw).notices = s.notices := rfl
@[simp] theorem draw_out (s : State) : (s.draw).out = s.out := rfl

@[simp] theorem emit_pending (s : State) (o : Out) : (s.emit o).pending = s.pending := rfl
@[simp] theorem emit_variant (s : State) (o : Out) : (s.emit o).variant = s.variant := rfl
@[simp] theorem emit_now (s : State) (o : Out) : (s.emit o).now = s.now := rfl
@[simp] theorem emit_sup (s : State) (o : Out) : (s.emit o).sup = s.sup := rfl
@[simp] theorem emit_hostReads (s : State) (o : Out) : (s.emit o).hostReads = s.hostReads := rfl
@[simp] theorem emit_cycle (s : State) (o : Out) : (s.emit o).cycle = s.cycle := rfl
@[simp] theorem emit_free (s : State) (o : Out) : (s.emit o).free = s.free := rfl
@[simp] theorem emit_regs (s : State) (o : Out) : (s.emit o).regs = s.regs := rfl
@[simp] theorem emit_shadow (s : State) (o : Out) : (s.emit o).shadow = s.shadow := rfl
@[simp] theorem emit_leases (s : State) (o : Out) : (s.emit o).leases = s.leases := rfl
@[simp] theorem emit_porstLow (s : State) (o : Out) : (s.emit o).porstLow = s.porstLow := rfl
@[simp] theorem emit_coreReset (s : State) (o : Out) : (s.emit o).coreReset = s.coreReset := rfl
@[simp] theorem emit_modeCmd (s : State) (o : Out) : (s.emit o).modeCmd = s.modeCmd := rfl
@[simp] theorem emit_bootSel (s : State) (o : Out) : (s.emit o).bootSel = s.bootSel := rfl
@[simp] theorem emit_bootMem (s : State) (o : Out) : (s.emit o).bootMem = s.bootMem := rfl
@[simp] theorem emit_syncs (s : State) (o : Out) : (s.emit o).syncs = s.syncs := rfl
@[simp] theorem emit_merges (s : State) (o : Out) : (s.emit o).merges = s.merges := rfl
@[simp] theorem emit_engines (s : State) (o : Out) : (s.emit o).engines = s.engines := rfl
@[simp] theorem emit_msixTab (s : State) (o : Out) : (s.emit o).msixTab = s.msixTab := rfl
@[simp] theorem emit_msixPba (s : State) (o : Out) : (s.emit o).msixPba = s.msixPba := rfl
@[simp] theorem emit_districts (s : State) (o : Out) : (s.emit o).districts = s.districts := rfl
@[simp] theorem emit_ave (s : State) (o : Out) : (s.emit o).ave = s.ave := rfl
@[simp] theorem emit_tb (s : State) (o : Out) : (s.emit o).tb = s.tb := rfl
@[simp] theorem emit_red (s : State) (o : Out) : (s.emit o).red = s.red := rfl
@[simp] theorem emit_xing (s : State) (o : Out) : (s.emit o).xing = s.xing := rfl
@[simp] theorem emit_ports (s : State) (o : Out) : (s.emit o).ports = s.ports := rfl
@[simp] theorem emit_txTurn (s : State) (o : Out) : (s.emit o).txTurn = s.txTurn := rfl
@[simp] theorem emit_hostMem (s : State) (o : Out) : (s.emit o).hostMem = s.hostMem := rfl
@[simp] theorem emit_cans (s : State) (o : Out) : (s.emit o).cans = s.cans := rfl
@[simp] theorem emit_serials (s : State) (o : Out) : (s.emit o).serials = s.serials := rfl
@[simp] theorem emit_mram (s : State) (o : Out) : (s.emit o).mram = s.mram := rfl
@[simp] theorem emit_keyHash (s : State) (o : Out) : (s.emit o).keyHash = s.keyHash := rfl
@[simp] theorem emit_nv (s : State) (o : Out) : (s.emit o).nv = s.nv := rfl
@[simp] theorem emit_pkg (s : State) (o : Out) : (s.emit o).pkg = s.pkg := rfl
@[simp] theorem emit_jtag (s : State) (o : Out) : (s.emit o).jtag = s.jtag := rfl
@[simp] theorem emit_img (s : State) (o : Out) : (s.emit o).img = s.img := rfl
@[simp] theorem emit_curve (s : State) (o : Out) : (s.emit o).curve = s.curve := rfl
@[simp] theorem emit_srus (s : State) (o : Out) : (s.emit o).srus = s.srus := rfl
@[simp] theorem emit_channels (s : State) (o : Out) : (s.emit o).channels = s.channels := rfl
@[simp] theorem emit_island (s : State) (o : Out) : (s.emit o).island = s.island := rfl
@[simp] theorem emit_latch (s : State) (o : Out) : (s.emit o).latch = s.latch := rfl
@[simp] theorem emit_clockLost (s : State) (o : Out) : (s.emit o).clockLost = s.clockLost := rfl
@[simp] theorem emit_nfn (s : State) (o : Out) : (s.emit o).nfn = s.nfn := rfl
@[simp] theorem emit_notices (s : State) (o : Out) : (s.emit o).notices = s.notices := rfl

@[simp] theorem notify_pending (s : State) (n : Notice) : (s.notify n).pending = s.pending := rfl
@[simp] theorem notify_variant (s : State) (n : Notice) : (s.notify n).variant = s.variant := rfl
@[simp] theorem notify_now (s : State) (n : Notice) : (s.notify n).now = s.now := rfl
@[simp] theorem notify_sup (s : State) (n : Notice) : (s.notify n).sup = s.sup := rfl
@[simp] theorem notify_hostReads (s : State) (n : Notice) : (s.notify n).hostReads = s.hostReads := rfl
@[simp] theorem notify_cycle (s : State) (n : Notice) : (s.notify n).cycle = s.cycle := rfl
@[simp] theorem notify_free (s : State) (n : Notice) : (s.notify n).free = s.free := rfl
@[simp] theorem notify_regs (s : State) (n : Notice) : (s.notify n).regs = s.regs := rfl
@[simp] theorem notify_shadow (s : State) (n : Notice) : (s.notify n).shadow = s.shadow := rfl
@[simp] theorem notify_leases (s : State) (n : Notice) : (s.notify n).leases = s.leases := rfl
@[simp] theorem notify_porstLow (s : State) (n : Notice) : (s.notify n).porstLow = s.porstLow := rfl
@[simp] theorem notify_coreReset (s : State) (n : Notice) : (s.notify n).coreReset = s.coreReset := rfl
@[simp] theorem notify_modeCmd (s : State) (n : Notice) : (s.notify n).modeCmd = s.modeCmd := rfl
@[simp] theorem notify_bootSel (s : State) (n : Notice) : (s.notify n).bootSel = s.bootSel := rfl
@[simp] theorem notify_bootMem (s : State) (n : Notice) : (s.notify n).bootMem = s.bootMem := rfl
@[simp] theorem notify_syncs (s : State) (n : Notice) : (s.notify n).syncs = s.syncs := rfl
@[simp] theorem notify_merges (s : State) (n : Notice) : (s.notify n).merges = s.merges := rfl
@[simp] theorem notify_engines (s : State) (n : Notice) : (s.notify n).engines = s.engines := rfl
@[simp] theorem notify_msixTab (s : State) (n : Notice) : (s.notify n).msixTab = s.msixTab := rfl
@[simp] theorem notify_msixPba (s : State) (n : Notice) : (s.notify n).msixPba = s.msixPba := rfl
@[simp] theorem notify_districts (s : State) (n : Notice) : (s.notify n).districts = s.districts := rfl
@[simp] theorem notify_ave (s : State) (n : Notice) : (s.notify n).ave = s.ave := rfl
@[simp] theorem notify_tb (s : State) (n : Notice) : (s.notify n).tb = s.tb := rfl
@[simp] theorem notify_red (s : State) (n : Notice) : (s.notify n).red = s.red := rfl
@[simp] theorem notify_xing (s : State) (n : Notice) : (s.notify n).xing = s.xing := rfl
@[simp] theorem notify_ports (s : State) (n : Notice) : (s.notify n).ports = s.ports := rfl
@[simp] theorem notify_txTurn (s : State) (n : Notice) : (s.notify n).txTurn = s.txTurn := rfl
@[simp] theorem notify_hostMem (s : State) (n : Notice) : (s.notify n).hostMem = s.hostMem := rfl
@[simp] theorem notify_cans (s : State) (n : Notice) : (s.notify n).cans = s.cans := rfl
@[simp] theorem notify_serials (s : State) (n : Notice) : (s.notify n).serials = s.serials := rfl
@[simp] theorem notify_mram (s : State) (n : Notice) : (s.notify n).mram = s.mram := rfl
@[simp] theorem notify_keyHash (s : State) (n : Notice) : (s.notify n).keyHash = s.keyHash := rfl
@[simp] theorem notify_nv (s : State) (n : Notice) : (s.notify n).nv = s.nv := rfl
@[simp] theorem notify_pkg (s : State) (n : Notice) : (s.notify n).pkg = s.pkg := rfl
@[simp] theorem notify_jtag (s : State) (n : Notice) : (s.notify n).jtag = s.jtag := rfl
@[simp] theorem notify_img (s : State) (n : Notice) : (s.notify n).img = s.img := rfl
@[simp] theorem notify_curve (s : State) (n : Notice) : (s.notify n).curve = s.curve := rfl
@[simp] theorem notify_srus (s : State) (n : Notice) : (s.notify n).srus = s.srus := rfl
@[simp] theorem notify_channels (s : State) (n : Notice) : (s.notify n).channels = s.channels := rfl
@[simp] theorem notify_island (s : State) (n : Notice) : (s.notify n).island = s.island := rfl
@[simp] theorem notify_latch (s : State) (n : Notice) : (s.notify n).latch = s.latch := rfl
@[simp] theorem notify_clockLost (s : State) (n : Notice) : (s.notify n).clockLost = s.clockLost := rfl
@[simp] theorem notify_nfn (s : State) (n : Notice) : (s.notify n).nfn = s.nfn := rfl
@[simp] theorem notify_out (s : State) (n : Notice) : (s.notify n).out = s.out := rfl

@[simp] theorem setEng_pending (s : State) (e : Nat) (x : Engine) : (s.setEng e x).pending = s.pending := rfl
@[simp] theorem setEng_variant (s : State) (e : Nat) (x : Engine) : (s.setEng e x).variant = s.variant := rfl
@[simp] theorem setEng_now (s : State) (e : Nat) (x : Engine) : (s.setEng e x).now = s.now := rfl
@[simp] theorem setEng_sup (s : State) (e : Nat) (x : Engine) : (s.setEng e x).sup = s.sup := rfl
@[simp] theorem setEng_hostReads (s : State) (e : Nat) (x : Engine) : (s.setEng e x).hostReads = s.hostReads := rfl
@[simp] theorem setEng_cycle (s : State) (e : Nat) (x : Engine) : (s.setEng e x).cycle = s.cycle := rfl
@[simp] theorem setEng_free (s : State) (e : Nat) (x : Engine) : (s.setEng e x).free = s.free := rfl
@[simp] theorem setEng_regs (s : State) (e : Nat) (x : Engine) : (s.setEng e x).regs = s.regs := rfl
@[simp] theorem setEng_shadow (s : State) (e : Nat) (x : Engine) : (s.setEng e x).shadow = s.shadow := rfl
@[simp] theorem setEng_leases (s : State) (e : Nat) (x : Engine) : (s.setEng e x).leases = s.leases := rfl
@[simp] theorem setEng_porstLow (s : State) (e : Nat) (x : Engine) : (s.setEng e x).porstLow = s.porstLow := rfl
@[simp] theorem setEng_coreReset (s : State) (e : Nat) (x : Engine) : (s.setEng e x).coreReset = s.coreReset := rfl
@[simp] theorem setEng_modeCmd (s : State) (e : Nat) (x : Engine) : (s.setEng e x).modeCmd = s.modeCmd := rfl
@[simp] theorem setEng_bootSel (s : State) (e : Nat) (x : Engine) : (s.setEng e x).bootSel = s.bootSel := rfl
@[simp] theorem setEng_bootMem (s : State) (e : Nat) (x : Engine) : (s.setEng e x).bootMem = s.bootMem := rfl
@[simp] theorem setEng_syncs (s : State) (e : Nat) (x : Engine) : (s.setEng e x).syncs = s.syncs := rfl
@[simp] theorem setEng_merges (s : State) (e : Nat) (x : Engine) : (s.setEng e x).merges = s.merges := rfl
@[simp] theorem setEng_msixTab (s : State) (e : Nat) (x : Engine) : (s.setEng e x).msixTab = s.msixTab := rfl
@[simp] theorem setEng_msixPba (s : State) (e : Nat) (x : Engine) : (s.setEng e x).msixPba = s.msixPba := rfl
@[simp] theorem setEng_districts (s : State) (e : Nat) (x : Engine) : (s.setEng e x).districts = s.districts := rfl
@[simp] theorem setEng_ave (s : State) (e : Nat) (x : Engine) : (s.setEng e x).ave = s.ave := rfl
@[simp] theorem setEng_tb (s : State) (e : Nat) (x : Engine) : (s.setEng e x).tb = s.tb := rfl
@[simp] theorem setEng_red (s : State) (e : Nat) (x : Engine) : (s.setEng e x).red = s.red := rfl
@[simp] theorem setEng_xing (s : State) (e : Nat) (x : Engine) : (s.setEng e x).xing = s.xing := rfl
@[simp] theorem setEng_ports (s : State) (e : Nat) (x : Engine) : (s.setEng e x).ports = s.ports := rfl
@[simp] theorem setEng_txTurn (s : State) (e : Nat) (x : Engine) : (s.setEng e x).txTurn = s.txTurn := rfl
@[simp] theorem setEng_hostMem (s : State) (e : Nat) (x : Engine) : (s.setEng e x).hostMem = s.hostMem := rfl
@[simp] theorem setEng_cans (s : State) (e : Nat) (x : Engine) : (s.setEng e x).cans = s.cans := rfl
@[simp] theorem setEng_serials (s : State) (e : Nat) (x : Engine) : (s.setEng e x).serials = s.serials := rfl
@[simp] theorem setEng_mram (s : State) (e : Nat) (x : Engine) : (s.setEng e x).mram = s.mram := rfl
@[simp] theorem setEng_keyHash (s : State) (e : Nat) (x : Engine) : (s.setEng e x).keyHash = s.keyHash := rfl
@[simp] theorem setEng_nv (s : State) (e : Nat) (x : Engine) : (s.setEng e x).nv = s.nv := rfl
@[simp] theorem setEng_pkg (s : State) (e : Nat) (x : Engine) : (s.setEng e x).pkg = s.pkg := rfl
@[simp] theorem setEng_jtag (s : State) (e : Nat) (x : Engine) : (s.setEng e x).jtag = s.jtag := rfl
@[simp] theorem setEng_img (s : State) (e : Nat) (x : Engine) : (s.setEng e x).img = s.img := rfl
@[simp] theorem setEng_curve (s : State) (e : Nat) (x : Engine) : (s.setEng e x).curve = s.curve := rfl
@[simp] theorem setEng_srus (s : State) (e : Nat) (x : Engine) : (s.setEng e x).srus = s.srus := rfl
@[simp] theorem setEng_channels (s : State) (e : Nat) (x : Engine) : (s.setEng e x).channels = s.channels := rfl
@[simp] theorem setEng_island (s : State) (e : Nat) (x : Engine) : (s.setEng e x).island = s.island := rfl
@[simp] theorem setEng_latch (s : State) (e : Nat) (x : Engine) : (s.setEng e x).latch = s.latch := rfl
@[simp] theorem setEng_clockLost (s : State) (e : Nat) (x : Engine) : (s.setEng e x).clockLost = s.clockLost := rfl
@[simp] theorem setEng_nfn (s : State) (e : Nat) (x : Engine) : (s.setEng e x).nfn = s.nfn := rfl
@[simp] theorem setEng_notices (s : State) (e : Nat) (x : Engine) : (s.setEng e x).notices = s.notices := rfl
@[simp] theorem setEng_out (s : State) (e : Nat) (x : Engine) : (s.setEng e x).out = s.out := rfl

@[simp] theorem setDist_pending (s : State) (d : Nat) (x : District) : (s.setDist d x).pending = s.pending := rfl
@[simp] theorem setDist_variant (s : State) (d : Nat) (x : District) : (s.setDist d x).variant = s.variant := rfl
@[simp] theorem setDist_now (s : State) (d : Nat) (x : District) : (s.setDist d x).now = s.now := rfl
@[simp] theorem setDist_sup (s : State) (d : Nat) (x : District) : (s.setDist d x).sup = s.sup := rfl
@[simp] theorem setDist_hostReads (s : State) (d : Nat) (x : District) : (s.setDist d x).hostReads = s.hostReads := rfl
@[simp] theorem setDist_cycle (s : State) (d : Nat) (x : District) : (s.setDist d x).cycle = s.cycle := rfl
@[simp] theorem setDist_free (s : State) (d : Nat) (x : District) : (s.setDist d x).free = s.free := rfl
@[simp] theorem setDist_regs (s : State) (d : Nat) (x : District) : (s.setDist d x).regs = s.regs := rfl
@[simp] theorem setDist_shadow (s : State) (d : Nat) (x : District) : (s.setDist d x).shadow = s.shadow := rfl
@[simp] theorem setDist_leases (s : State) (d : Nat) (x : District) : (s.setDist d x).leases = s.leases := rfl
@[simp] theorem setDist_porstLow (s : State) (d : Nat) (x : District) : (s.setDist d x).porstLow = s.porstLow := rfl
@[simp] theorem setDist_coreReset (s : State) (d : Nat) (x : District) : (s.setDist d x).coreReset = s.coreReset := rfl
@[simp] theorem setDist_modeCmd (s : State) (d : Nat) (x : District) : (s.setDist d x).modeCmd = s.modeCmd := rfl
@[simp] theorem setDist_bootSel (s : State) (d : Nat) (x : District) : (s.setDist d x).bootSel = s.bootSel := rfl
@[simp] theorem setDist_bootMem (s : State) (d : Nat) (x : District) : (s.setDist d x).bootMem = s.bootMem := rfl
@[simp] theorem setDist_syncs (s : State) (d : Nat) (x : District) : (s.setDist d x).syncs = s.syncs := rfl
@[simp] theorem setDist_merges (s : State) (d : Nat) (x : District) : (s.setDist d x).merges = s.merges := rfl
@[simp] theorem setDist_engines (s : State) (d : Nat) (x : District) : (s.setDist d x).engines = s.engines := rfl
@[simp] theorem setDist_msixTab (s : State) (d : Nat) (x : District) : (s.setDist d x).msixTab = s.msixTab := rfl
@[simp] theorem setDist_msixPba (s : State) (d : Nat) (x : District) : (s.setDist d x).msixPba = s.msixPba := rfl
@[simp] theorem setDist_ave (s : State) (d : Nat) (x : District) : (s.setDist d x).ave = s.ave := rfl
@[simp] theorem setDist_tb (s : State) (d : Nat) (x : District) : (s.setDist d x).tb = s.tb := rfl
@[simp] theorem setDist_red (s : State) (d : Nat) (x : District) : (s.setDist d x).red = s.red := rfl
@[simp] theorem setDist_xing (s : State) (d : Nat) (x : District) : (s.setDist d x).xing = s.xing := rfl
@[simp] theorem setDist_ports (s : State) (d : Nat) (x : District) : (s.setDist d x).ports = s.ports := rfl
@[simp] theorem setDist_txTurn (s : State) (d : Nat) (x : District) : (s.setDist d x).txTurn = s.txTurn := rfl
@[simp] theorem setDist_hostMem (s : State) (d : Nat) (x : District) : (s.setDist d x).hostMem = s.hostMem := rfl
@[simp] theorem setDist_cans (s : State) (d : Nat) (x : District) : (s.setDist d x).cans = s.cans := rfl
@[simp] theorem setDist_serials (s : State) (d : Nat) (x : District) : (s.setDist d x).serials = s.serials := rfl
@[simp] theorem setDist_mram (s : State) (d : Nat) (x : District) : (s.setDist d x).mram = s.mram := rfl
@[simp] theorem setDist_keyHash (s : State) (d : Nat) (x : District) : (s.setDist d x).keyHash = s.keyHash := rfl
@[simp] theorem setDist_nv (s : State) (d : Nat) (x : District) : (s.setDist d x).nv = s.nv := rfl
@[simp] theorem setDist_pkg (s : State) (d : Nat) (x : District) : (s.setDist d x).pkg = s.pkg := rfl
@[simp] theorem setDist_jtag (s : State) (d : Nat) (x : District) : (s.setDist d x).jtag = s.jtag := rfl
@[simp] theorem setDist_img (s : State) (d : Nat) (x : District) : (s.setDist d x).img = s.img := rfl
@[simp] theorem setDist_curve (s : State) (d : Nat) (x : District) : (s.setDist d x).curve = s.curve := rfl
@[simp] theorem setDist_srus (s : State) (d : Nat) (x : District) : (s.setDist d x).srus = s.srus := rfl
@[simp] theorem setDist_channels (s : State) (d : Nat) (x : District) : (s.setDist d x).channels = s.channels := rfl
@[simp] theorem setDist_island (s : State) (d : Nat) (x : District) : (s.setDist d x).island = s.island := rfl
@[simp] theorem setDist_latch (s : State) (d : Nat) (x : District) : (s.setDist d x).latch = s.latch := rfl
@[simp] theorem setDist_clockLost (s : State) (d : Nat) (x : District) : (s.setDist d x).clockLost = s.clockLost := rfl
@[simp] theorem setDist_nfn (s : State) (d : Nat) (x : District) : (s.setDist d x).nfn = s.nfn := rfl
@[simp] theorem setDist_notices (s : State) (d : Nat) (x : District) : (s.setDist d x).notices = s.notices := rfl
@[simp] theorem setDist_out (s : State) (d : Nat) (x : District) : (s.setDist d x).out = s.out := rfl

@[simp] theorem setSru_pending (s : State) (d : Nat) (x : Sru) : (s.setSru d x).pending = s.pending := rfl
@[simp] theorem setSru_variant (s : State) (d : Nat) (x : Sru) : (s.setSru d x).variant = s.variant := rfl
@[simp] theorem setSru_now (s : State) (d : Nat) (x : Sru) : (s.setSru d x).now = s.now := rfl
@[simp] theorem setSru_sup (s : State) (d : Nat) (x : Sru) : (s.setSru d x).sup = s.sup := rfl
@[simp] theorem setSru_hostReads (s : State) (d : Nat) (x : Sru) : (s.setSru d x).hostReads = s.hostReads := rfl
@[simp] theorem setSru_cycle (s : State) (d : Nat) (x : Sru) : (s.setSru d x).cycle = s.cycle := rfl
@[simp] theorem setSru_free (s : State) (d : Nat) (x : Sru) : (s.setSru d x).free = s.free := rfl
@[simp] theorem setSru_regs (s : State) (d : Nat) (x : Sru) : (s.setSru d x).regs = s.regs := rfl
@[simp] theorem setSru_shadow (s : State) (d : Nat) (x : Sru) : (s.setSru d x).shadow = s.shadow := rfl
@[simp] theorem setSru_leases (s : State) (d : Nat) (x : Sru) : (s.setSru d x).leases = s.leases := rfl
@[simp] theorem setSru_porstLow (s : State) (d : Nat) (x : Sru) : (s.setSru d x).porstLow = s.porstLow := rfl
@[simp] theorem setSru_coreReset (s : State) (d : Nat) (x : Sru) : (s.setSru d x).coreReset = s.coreReset := rfl
@[simp] theorem setSru_modeCmd (s : State) (d : Nat) (x : Sru) : (s.setSru d x).modeCmd = s.modeCmd := rfl
@[simp] theorem setSru_bootSel (s : State) (d : Nat) (x : Sru) : (s.setSru d x).bootSel = s.bootSel := rfl
@[simp] theorem setSru_bootMem (s : State) (d : Nat) (x : Sru) : (s.setSru d x).bootMem = s.bootMem := rfl
@[simp] theorem setSru_syncs (s : State) (d : Nat) (x : Sru) : (s.setSru d x).syncs = s.syncs := rfl
@[simp] theorem setSru_merges (s : State) (d : Nat) (x : Sru) : (s.setSru d x).merges = s.merges := rfl
@[simp] theorem setSru_engines (s : State) (d : Nat) (x : Sru) : (s.setSru d x).engines = s.engines := rfl
@[simp] theorem setSru_msixTab (s : State) (d : Nat) (x : Sru) : (s.setSru d x).msixTab = s.msixTab := rfl
@[simp] theorem setSru_msixPba (s : State) (d : Nat) (x : Sru) : (s.setSru d x).msixPba = s.msixPba := rfl
@[simp] theorem setSru_districts (s : State) (d : Nat) (x : Sru) : (s.setSru d x).districts = s.districts := rfl
@[simp] theorem setSru_ave (s : State) (d : Nat) (x : Sru) : (s.setSru d x).ave = s.ave := rfl
@[simp] theorem setSru_tb (s : State) (d : Nat) (x : Sru) : (s.setSru d x).tb = s.tb := rfl
@[simp] theorem setSru_red (s : State) (d : Nat) (x : Sru) : (s.setSru d x).red = s.red := rfl
@[simp] theorem setSru_xing (s : State) (d : Nat) (x : Sru) : (s.setSru d x).xing = s.xing := rfl
@[simp] theorem setSru_ports (s : State) (d : Nat) (x : Sru) : (s.setSru d x).ports = s.ports := rfl
@[simp] theorem setSru_txTurn (s : State) (d : Nat) (x : Sru) : (s.setSru d x).txTurn = s.txTurn := rfl
@[simp] theorem setSru_hostMem (s : State) (d : Nat) (x : Sru) : (s.setSru d x).hostMem = s.hostMem := rfl
@[simp] theorem setSru_cans (s : State) (d : Nat) (x : Sru) : (s.setSru d x).cans = s.cans := rfl
@[simp] theorem setSru_serials (s : State) (d : Nat) (x : Sru) : (s.setSru d x).serials = s.serials := rfl
@[simp] theorem setSru_mram (s : State) (d : Nat) (x : Sru) : (s.setSru d x).mram = s.mram := rfl
@[simp] theorem setSru_keyHash (s : State) (d : Nat) (x : Sru) : (s.setSru d x).keyHash = s.keyHash := rfl
@[simp] theorem setSru_nv (s : State) (d : Nat) (x : Sru) : (s.setSru d x).nv = s.nv := rfl
@[simp] theorem setSru_pkg (s : State) (d : Nat) (x : Sru) : (s.setSru d x).pkg = s.pkg := rfl
@[simp] theorem setSru_jtag (s : State) (d : Nat) (x : Sru) : (s.setSru d x).jtag = s.jtag := rfl
@[simp] theorem setSru_img (s : State) (d : Nat) (x : Sru) : (s.setSru d x).img = s.img := rfl
@[simp] theorem setSru_curve (s : State) (d : Nat) (x : Sru) : (s.setSru d x).curve = s.curve := rfl
@[simp] theorem setSru_channels (s : State) (d : Nat) (x : Sru) : (s.setSru d x).channels = s.channels := rfl
@[simp] theorem setSru_island (s : State) (d : Nat) (x : Sru) : (s.setSru d x).island = s.island := rfl
@[simp] theorem setSru_latch (s : State) (d : Nat) (x : Sru) : (s.setSru d x).latch = s.latch := rfl
@[simp] theorem setSru_clockLost (s : State) (d : Nat) (x : Sru) : (s.setSru d x).clockLost = s.clockLost := rfl
@[simp] theorem setSru_nfn (s : State) (d : Nat) (x : Sru) : (s.setSru d x).nfn = s.nfn := rfl
@[simp] theorem setSru_notices (s : State) (d : Nat) (x : Sru) : (s.setSru d x).notices = s.notices := rfl
@[simp] theorem setSru_out (s : State) (d : Nat) (x : Sru) : (s.setSru d x).out = s.out := rfl

@[simp] theorem setAve_pending (s : State) (x : Avenue) : (s.setAve x).pending = s.pending := rfl
@[simp] theorem setAve_variant (s : State) (x : Avenue) : (s.setAve x).variant = s.variant := rfl
@[simp] theorem setAve_now (s : State) (x : Avenue) : (s.setAve x).now = s.now := rfl
@[simp] theorem setAve_sup (s : State) (x : Avenue) : (s.setAve x).sup = s.sup := rfl
@[simp] theorem setAve_hostReads (s : State) (x : Avenue) : (s.setAve x).hostReads = s.hostReads := rfl
@[simp] theorem setAve_cycle (s : State) (x : Avenue) : (s.setAve x).cycle = s.cycle := rfl
@[simp] theorem setAve_free (s : State) (x : Avenue) : (s.setAve x).free = s.free := rfl
@[simp] theorem setAve_regs (s : State) (x : Avenue) : (s.setAve x).regs = s.regs := rfl
@[simp] theorem setAve_shadow (s : State) (x : Avenue) : (s.setAve x).shadow = s.shadow := rfl
@[simp] theorem setAve_leases (s : State) (x : Avenue) : (s.setAve x).leases = s.leases := rfl
@[simp] theorem setAve_porstLow (s : State) (x : Avenue) : (s.setAve x).porstLow = s.porstLow := rfl
@[simp] theorem setAve_coreReset (s : State) (x : Avenue) : (s.setAve x).coreReset = s.coreReset := rfl
@[simp] theorem setAve_modeCmd (s : State) (x : Avenue) : (s.setAve x).modeCmd = s.modeCmd := rfl
@[simp] theorem setAve_bootSel (s : State) (x : Avenue) : (s.setAve x).bootSel = s.bootSel := rfl
@[simp] theorem setAve_bootMem (s : State) (x : Avenue) : (s.setAve x).bootMem = s.bootMem := rfl
@[simp] theorem setAve_syncs (s : State) (x : Avenue) : (s.setAve x).syncs = s.syncs := rfl
@[simp] theorem setAve_merges (s : State) (x : Avenue) : (s.setAve x).merges = s.merges := rfl
@[simp] theorem setAve_engines (s : State) (x : Avenue) : (s.setAve x).engines = s.engines := rfl
@[simp] theorem setAve_msixTab (s : State) (x : Avenue) : (s.setAve x).msixTab = s.msixTab := rfl
@[simp] theorem setAve_msixPba (s : State) (x : Avenue) : (s.setAve x).msixPba = s.msixPba := rfl
@[simp] theorem setAve_districts (s : State) (x : Avenue) : (s.setAve x).districts = s.districts := rfl
@[simp] theorem setAve_tb (s : State) (x : Avenue) : (s.setAve x).tb = s.tb := rfl
@[simp] theorem setAve_red (s : State) (x : Avenue) : (s.setAve x).red = s.red := rfl
@[simp] theorem setAve_xing (s : State) (x : Avenue) : (s.setAve x).xing = s.xing := rfl
@[simp] theorem setAve_ports (s : State) (x : Avenue) : (s.setAve x).ports = s.ports := rfl
@[simp] theorem setAve_txTurn (s : State) (x : Avenue) : (s.setAve x).txTurn = s.txTurn := rfl
@[simp] theorem setAve_hostMem (s : State) (x : Avenue) : (s.setAve x).hostMem = s.hostMem := rfl
@[simp] theorem setAve_cans (s : State) (x : Avenue) : (s.setAve x).cans = s.cans := rfl
@[simp] theorem setAve_serials (s : State) (x : Avenue) : (s.setAve x).serials = s.serials := rfl
@[simp] theorem setAve_mram (s : State) (x : Avenue) : (s.setAve x).mram = s.mram := rfl
@[simp] theorem setAve_keyHash (s : State) (x : Avenue) : (s.setAve x).keyHash = s.keyHash := rfl
@[simp] theorem setAve_nv (s : State) (x : Avenue) : (s.setAve x).nv = s.nv := rfl
@[simp] theorem setAve_pkg (s : State) (x : Avenue) : (s.setAve x).pkg = s.pkg := rfl
@[simp] theorem setAve_jtag (s : State) (x : Avenue) : (s.setAve x).jtag = s.jtag := rfl
@[simp] theorem setAve_img (s : State) (x : Avenue) : (s.setAve x).img = s.img := rfl
@[simp] theorem setAve_curve (s : State) (x : Avenue) : (s.setAve x).curve = s.curve := rfl
@[simp] theorem setAve_srus (s : State) (x : Avenue) : (s.setAve x).srus = s.srus := rfl
@[simp] theorem setAve_channels (s : State) (x : Avenue) : (s.setAve x).channels = s.channels := rfl
@[simp] theorem setAve_island (s : State) (x : Avenue) : (s.setAve x).island = s.island := rfl
@[simp] theorem setAve_latch (s : State) (x : Avenue) : (s.setAve x).latch = s.latch := rfl
@[simp] theorem setAve_clockLost (s : State) (x : Avenue) : (s.setAve x).clockLost = s.clockLost := rfl
@[simp] theorem setAve_nfn (s : State) (x : Avenue) : (s.setAve x).nfn = s.nfn := rfl
@[simp] theorem setAve_notices (s : State) (x : Avenue) : (s.setAve x).notices = s.notices := rfl
@[simp] theorem setAve_out (s : State) (x : Avenue) : (s.setAve x).out = s.out := rfl

@[simp] theorem setTb_pending (s : State) (x : TimeBase) : (s.setTb x).pending = s.pending := rfl
@[simp] theorem setTb_variant (s : State) (x : TimeBase) : (s.setTb x).variant = s.variant := rfl
@[simp] theorem setTb_now (s : State) (x : TimeBase) : (s.setTb x).now = s.now := rfl
@[simp] theorem setTb_sup (s : State) (x : TimeBase) : (s.setTb x).sup = s.sup := rfl
@[simp] theorem setTb_hostReads (s : State) (x : TimeBase) : (s.setTb x).hostReads = s.hostReads := rfl
@[simp] theorem setTb_cycle (s : State) (x : TimeBase) : (s.setTb x).cycle = s.cycle := rfl
@[simp] theorem setTb_free (s : State) (x : TimeBase) : (s.setTb x).free = s.free := rfl
@[simp] theorem setTb_regs (s : State) (x : TimeBase) : (s.setTb x).regs = s.regs := rfl
@[simp] theorem setTb_shadow (s : State) (x : TimeBase) : (s.setTb x).shadow = s.shadow := rfl
@[simp] theorem setTb_leases (s : State) (x : TimeBase) : (s.setTb x).leases = s.leases := rfl
@[simp] theorem setTb_porstLow (s : State) (x : TimeBase) : (s.setTb x).porstLow = s.porstLow := rfl
@[simp] theorem setTb_coreReset (s : State) (x : TimeBase) : (s.setTb x).coreReset = s.coreReset := rfl
@[simp] theorem setTb_modeCmd (s : State) (x : TimeBase) : (s.setTb x).modeCmd = s.modeCmd := rfl
@[simp] theorem setTb_bootSel (s : State) (x : TimeBase) : (s.setTb x).bootSel = s.bootSel := rfl
@[simp] theorem setTb_bootMem (s : State) (x : TimeBase) : (s.setTb x).bootMem = s.bootMem := rfl
@[simp] theorem setTb_syncs (s : State) (x : TimeBase) : (s.setTb x).syncs = s.syncs := rfl
@[simp] theorem setTb_merges (s : State) (x : TimeBase) : (s.setTb x).merges = s.merges := rfl
@[simp] theorem setTb_engines (s : State) (x : TimeBase) : (s.setTb x).engines = s.engines := rfl
@[simp] theorem setTb_msixTab (s : State) (x : TimeBase) : (s.setTb x).msixTab = s.msixTab := rfl
@[simp] theorem setTb_msixPba (s : State) (x : TimeBase) : (s.setTb x).msixPba = s.msixPba := rfl
@[simp] theorem setTb_districts (s : State) (x : TimeBase) : (s.setTb x).districts = s.districts := rfl
@[simp] theorem setTb_ave (s : State) (x : TimeBase) : (s.setTb x).ave = s.ave := rfl
@[simp] theorem setTb_red (s : State) (x : TimeBase) : (s.setTb x).red = s.red := rfl
@[simp] theorem setTb_xing (s : State) (x : TimeBase) : (s.setTb x).xing = s.xing := rfl
@[simp] theorem setTb_ports (s : State) (x : TimeBase) : (s.setTb x).ports = s.ports := rfl
@[simp] theorem setTb_txTurn (s : State) (x : TimeBase) : (s.setTb x).txTurn = s.txTurn := rfl
@[simp] theorem setTb_hostMem (s : State) (x : TimeBase) : (s.setTb x).hostMem = s.hostMem := rfl
@[simp] theorem setTb_cans (s : State) (x : TimeBase) : (s.setTb x).cans = s.cans := rfl
@[simp] theorem setTb_serials (s : State) (x : TimeBase) : (s.setTb x).serials = s.serials := rfl
@[simp] theorem setTb_mram (s : State) (x : TimeBase) : (s.setTb x).mram = s.mram := rfl
@[simp] theorem setTb_keyHash (s : State) (x : TimeBase) : (s.setTb x).keyHash = s.keyHash := rfl
@[simp] theorem setTb_nv (s : State) (x : TimeBase) : (s.setTb x).nv = s.nv := rfl
@[simp] theorem setTb_pkg (s : State) (x : TimeBase) : (s.setTb x).pkg = s.pkg := rfl
@[simp] theorem setTb_jtag (s : State) (x : TimeBase) : (s.setTb x).jtag = s.jtag := rfl
@[simp] theorem setTb_img (s : State) (x : TimeBase) : (s.setTb x).img = s.img := rfl
@[simp] theorem setTb_curve (s : State) (x : TimeBase) : (s.setTb x).curve = s.curve := rfl
@[simp] theorem setTb_srus (s : State) (x : TimeBase) : (s.setTb x).srus = s.srus := rfl
@[simp] theorem setTb_channels (s : State) (x : TimeBase) : (s.setTb x).channels = s.channels := rfl
@[simp] theorem setTb_island (s : State) (x : TimeBase) : (s.setTb x).island = s.island := rfl
@[simp] theorem setTb_latch (s : State) (x : TimeBase) : (s.setTb x).latch = s.latch := rfl
@[simp] theorem setTb_clockLost (s : State) (x : TimeBase) : (s.setTb x).clockLost = s.clockLost := rfl
@[simp] theorem setTb_nfn (s : State) (x : TimeBase) : (s.setTb x).nfn = s.nfn := rfl
@[simp] theorem setTb_notices (s : State) (x : TimeBase) : (s.setTb x).notices = s.notices := rfl
@[simp] theorem setTb_out (s : State) (x : TimeBase) : (s.setTb x).out = s.out := rfl

@[simp] theorem setRed_pending (s : State) (x : Redundancy) : (s.setRed x).pending = s.pending := rfl
@[simp] theorem setRed_variant (s : State) (x : Redundancy) : (s.setRed x).variant = s.variant := rfl
@[simp] theorem setRed_now (s : State) (x : Redundancy) : (s.setRed x).now = s.now := rfl
@[simp] theorem setRed_sup (s : State) (x : Redundancy) : (s.setRed x).sup = s.sup := rfl
@[simp] theorem setRed_hostReads (s : State) (x : Redundancy) : (s.setRed x).hostReads = s.hostReads := rfl
@[simp] theorem setRed_cycle (s : State) (x : Redundancy) : (s.setRed x).cycle = s.cycle := rfl
@[simp] theorem setRed_free (s : State) (x : Redundancy) : (s.setRed x).free = s.free := rfl
@[simp] theorem setRed_regs (s : State) (x : Redundancy) : (s.setRed x).regs = s.regs := rfl
@[simp] theorem setRed_shadow (s : State) (x : Redundancy) : (s.setRed x).shadow = s.shadow := rfl
@[simp] theorem setRed_leases (s : State) (x : Redundancy) : (s.setRed x).leases = s.leases := rfl
@[simp] theorem setRed_porstLow (s : State) (x : Redundancy) : (s.setRed x).porstLow = s.porstLow := rfl
@[simp] theorem setRed_coreReset (s : State) (x : Redundancy) : (s.setRed x).coreReset = s.coreReset := rfl
@[simp] theorem setRed_modeCmd (s : State) (x : Redundancy) : (s.setRed x).modeCmd = s.modeCmd := rfl
@[simp] theorem setRed_bootSel (s : State) (x : Redundancy) : (s.setRed x).bootSel = s.bootSel := rfl
@[simp] theorem setRed_bootMem (s : State) (x : Redundancy) : (s.setRed x).bootMem = s.bootMem := rfl
@[simp] theorem setRed_syncs (s : State) (x : Redundancy) : (s.setRed x).syncs = s.syncs := rfl
@[simp] theorem setRed_merges (s : State) (x : Redundancy) : (s.setRed x).merges = s.merges := rfl
@[simp] theorem setRed_engines (s : State) (x : Redundancy) : (s.setRed x).engines = s.engines := rfl
@[simp] theorem setRed_msixTab (s : State) (x : Redundancy) : (s.setRed x).msixTab = s.msixTab := rfl
@[simp] theorem setRed_msixPba (s : State) (x : Redundancy) : (s.setRed x).msixPba = s.msixPba := rfl
@[simp] theorem setRed_districts (s : State) (x : Redundancy) : (s.setRed x).districts = s.districts := rfl
@[simp] theorem setRed_ave (s : State) (x : Redundancy) : (s.setRed x).ave = s.ave := rfl
@[simp] theorem setRed_tb (s : State) (x : Redundancy) : (s.setRed x).tb = s.tb := rfl
@[simp] theorem setRed_xing (s : State) (x : Redundancy) : (s.setRed x).xing = s.xing := rfl
@[simp] theorem setRed_ports (s : State) (x : Redundancy) : (s.setRed x).ports = s.ports := rfl
@[simp] theorem setRed_txTurn (s : State) (x : Redundancy) : (s.setRed x).txTurn = s.txTurn := rfl
@[simp] theorem setRed_hostMem (s : State) (x : Redundancy) : (s.setRed x).hostMem = s.hostMem := rfl
@[simp] theorem setRed_cans (s : State) (x : Redundancy) : (s.setRed x).cans = s.cans := rfl
@[simp] theorem setRed_serials (s : State) (x : Redundancy) : (s.setRed x).serials = s.serials := rfl
@[simp] theorem setRed_mram (s : State) (x : Redundancy) : (s.setRed x).mram = s.mram := rfl
@[simp] theorem setRed_keyHash (s : State) (x : Redundancy) : (s.setRed x).keyHash = s.keyHash := rfl
@[simp] theorem setRed_nv (s : State) (x : Redundancy) : (s.setRed x).nv = s.nv := rfl
@[simp] theorem setRed_pkg (s : State) (x : Redundancy) : (s.setRed x).pkg = s.pkg := rfl
@[simp] theorem setRed_jtag (s : State) (x : Redundancy) : (s.setRed x).jtag = s.jtag := rfl
@[simp] theorem setRed_img (s : State) (x : Redundancy) : (s.setRed x).img = s.img := rfl
@[simp] theorem setRed_curve (s : State) (x : Redundancy) : (s.setRed x).curve = s.curve := rfl
@[simp] theorem setRed_srus (s : State) (x : Redundancy) : (s.setRed x).srus = s.srus := rfl
@[simp] theorem setRed_channels (s : State) (x : Redundancy) : (s.setRed x).channels = s.channels := rfl
@[simp] theorem setRed_island (s : State) (x : Redundancy) : (s.setRed x).island = s.island := rfl
@[simp] theorem setRed_latch (s : State) (x : Redundancy) : (s.setRed x).latch = s.latch := rfl
@[simp] theorem setRed_clockLost (s : State) (x : Redundancy) : (s.setRed x).clockLost = s.clockLost := rfl
@[simp] theorem setRed_nfn (s : State) (x : Redundancy) : (s.setRed x).nfn = s.nfn := rfl
@[simp] theorem setRed_notices (s : State) (x : Redundancy) : (s.setRed x).notices = s.notices := rfl
@[simp] theorem setRed_out (s : State) (x : Redundancy) : (s.setRed x).out = s.out := rfl

@[simp] theorem setXing_pending (s : State) (x : Crossing) : (s.setXing x).pending = s.pending := rfl
@[simp] theorem setXing_variant (s : State) (x : Crossing) : (s.setXing x).variant = s.variant := rfl
@[simp] theorem setXing_now (s : State) (x : Crossing) : (s.setXing x).now = s.now := rfl
@[simp] theorem setXing_sup (s : State) (x : Crossing) : (s.setXing x).sup = s.sup := rfl
@[simp] theorem setXing_hostReads (s : State) (x : Crossing) : (s.setXing x).hostReads = s.hostReads := rfl
@[simp] theorem setXing_cycle (s : State) (x : Crossing) : (s.setXing x).cycle = s.cycle := rfl
@[simp] theorem setXing_free (s : State) (x : Crossing) : (s.setXing x).free = s.free := rfl
@[simp] theorem setXing_regs (s : State) (x : Crossing) : (s.setXing x).regs = s.regs := rfl
@[simp] theorem setXing_shadow (s : State) (x : Crossing) : (s.setXing x).shadow = s.shadow := rfl
@[simp] theorem setXing_leases (s : State) (x : Crossing) : (s.setXing x).leases = s.leases := rfl
@[simp] theorem setXing_porstLow (s : State) (x : Crossing) : (s.setXing x).porstLow = s.porstLow := rfl
@[simp] theorem setXing_coreReset (s : State) (x : Crossing) : (s.setXing x).coreReset = s.coreReset := rfl
@[simp] theorem setXing_modeCmd (s : State) (x : Crossing) : (s.setXing x).modeCmd = s.modeCmd := rfl
@[simp] theorem setXing_bootSel (s : State) (x : Crossing) : (s.setXing x).bootSel = s.bootSel := rfl
@[simp] theorem setXing_bootMem (s : State) (x : Crossing) : (s.setXing x).bootMem = s.bootMem := rfl
@[simp] theorem setXing_syncs (s : State) (x : Crossing) : (s.setXing x).syncs = s.syncs := rfl
@[simp] theorem setXing_merges (s : State) (x : Crossing) : (s.setXing x).merges = s.merges := rfl
@[simp] theorem setXing_engines (s : State) (x : Crossing) : (s.setXing x).engines = s.engines := rfl
@[simp] theorem setXing_msixTab (s : State) (x : Crossing) : (s.setXing x).msixTab = s.msixTab := rfl
@[simp] theorem setXing_msixPba (s : State) (x : Crossing) : (s.setXing x).msixPba = s.msixPba := rfl
@[simp] theorem setXing_districts (s : State) (x : Crossing) : (s.setXing x).districts = s.districts := rfl
@[simp] theorem setXing_ave (s : State) (x : Crossing) : (s.setXing x).ave = s.ave := rfl
@[simp] theorem setXing_tb (s : State) (x : Crossing) : (s.setXing x).tb = s.tb := rfl
@[simp] theorem setXing_red (s : State) (x : Crossing) : (s.setXing x).red = s.red := rfl
@[simp] theorem setXing_ports (s : State) (x : Crossing) : (s.setXing x).ports = s.ports := rfl
@[simp] theorem setXing_txTurn (s : State) (x : Crossing) : (s.setXing x).txTurn = s.txTurn := rfl
@[simp] theorem setXing_hostMem (s : State) (x : Crossing) : (s.setXing x).hostMem = s.hostMem := rfl
@[simp] theorem setXing_cans (s : State) (x : Crossing) : (s.setXing x).cans = s.cans := rfl
@[simp] theorem setXing_serials (s : State) (x : Crossing) : (s.setXing x).serials = s.serials := rfl
@[simp] theorem setXing_mram (s : State) (x : Crossing) : (s.setXing x).mram = s.mram := rfl
@[simp] theorem setXing_keyHash (s : State) (x : Crossing) : (s.setXing x).keyHash = s.keyHash := rfl
@[simp] theorem setXing_nv (s : State) (x : Crossing) : (s.setXing x).nv = s.nv := rfl
@[simp] theorem setXing_pkg (s : State) (x : Crossing) : (s.setXing x).pkg = s.pkg := rfl
@[simp] theorem setXing_jtag (s : State) (x : Crossing) : (s.setXing x).jtag = s.jtag := rfl
@[simp] theorem setXing_img (s : State) (x : Crossing) : (s.setXing x).img = s.img := rfl
@[simp] theorem setXing_curve (s : State) (x : Crossing) : (s.setXing x).curve = s.curve := rfl
@[simp] theorem setXing_srus (s : State) (x : Crossing) : (s.setXing x).srus = s.srus := rfl
@[simp] theorem setXing_channels (s : State) (x : Crossing) : (s.setXing x).channels = s.channels := rfl
@[simp] theorem setXing_island (s : State) (x : Crossing) : (s.setXing x).island = s.island := rfl
@[simp] theorem setXing_latch (s : State) (x : Crossing) : (s.setXing x).latch = s.latch := rfl
@[simp] theorem setXing_clockLost (s : State) (x : Crossing) : (s.setXing x).clockLost = s.clockLost := rfl
@[simp] theorem setXing_nfn (s : State) (x : Crossing) : (s.setXing x).nfn = s.nfn := rfl
@[simp] theorem setXing_notices (s : State) (x : Crossing) : (s.setXing x).notices = s.notices := rfl
@[simp] theorem setXing_out (s : State) (x : Crossing) : (s.setXing x).out = s.out := rfl

@[simp] theorem setPort_pending (s : State) (n : Nat) (x : Port) : (s.setPort n x).pending = s.pending := rfl
@[simp] theorem setPort_variant (s : State) (n : Nat) (x : Port) : (s.setPort n x).variant = s.variant := rfl
@[simp] theorem setPort_now (s : State) (n : Nat) (x : Port) : (s.setPort n x).now = s.now := rfl
@[simp] theorem setPort_sup (s : State) (n : Nat) (x : Port) : (s.setPort n x).sup = s.sup := rfl
@[simp] theorem setPort_hostReads (s : State) (n : Nat) (x : Port) : (s.setPort n x).hostReads = s.hostReads := rfl
@[simp] theorem setPort_cycle (s : State) (n : Nat) (x : Port) : (s.setPort n x).cycle = s.cycle := rfl
@[simp] theorem setPort_free (s : State) (n : Nat) (x : Port) : (s.setPort n x).free = s.free := rfl
@[simp] theorem setPort_regs (s : State) (n : Nat) (x : Port) : (s.setPort n x).regs = s.regs := rfl
@[simp] theorem setPort_shadow (s : State) (n : Nat) (x : Port) : (s.setPort n x).shadow = s.shadow := rfl
@[simp] theorem setPort_leases (s : State) (n : Nat) (x : Port) : (s.setPort n x).leases = s.leases := rfl
@[simp] theorem setPort_porstLow (s : State) (n : Nat) (x : Port) : (s.setPort n x).porstLow = s.porstLow := rfl
@[simp] theorem setPort_coreReset (s : State) (n : Nat) (x : Port) : (s.setPort n x).coreReset = s.coreReset := rfl
@[simp] theorem setPort_modeCmd (s : State) (n : Nat) (x : Port) : (s.setPort n x).modeCmd = s.modeCmd := rfl
@[simp] theorem setPort_bootSel (s : State) (n : Nat) (x : Port) : (s.setPort n x).bootSel = s.bootSel := rfl
@[simp] theorem setPort_bootMem (s : State) (n : Nat) (x : Port) : (s.setPort n x).bootMem = s.bootMem := rfl
@[simp] theorem setPort_syncs (s : State) (n : Nat) (x : Port) : (s.setPort n x).syncs = s.syncs := rfl
@[simp] theorem setPort_merges (s : State) (n : Nat) (x : Port) : (s.setPort n x).merges = s.merges := rfl
@[simp] theorem setPort_engines (s : State) (n : Nat) (x : Port) : (s.setPort n x).engines = s.engines := rfl
@[simp] theorem setPort_msixTab (s : State) (n : Nat) (x : Port) : (s.setPort n x).msixTab = s.msixTab := rfl
@[simp] theorem setPort_msixPba (s : State) (n : Nat) (x : Port) : (s.setPort n x).msixPba = s.msixPba := rfl
@[simp] theorem setPort_districts (s : State) (n : Nat) (x : Port) : (s.setPort n x).districts = s.districts := rfl
@[simp] theorem setPort_ave (s : State) (n : Nat) (x : Port) : (s.setPort n x).ave = s.ave := rfl
@[simp] theorem setPort_tb (s : State) (n : Nat) (x : Port) : (s.setPort n x).tb = s.tb := rfl
@[simp] theorem setPort_red (s : State) (n : Nat) (x : Port) : (s.setPort n x).red = s.red := rfl
@[simp] theorem setPort_xing (s : State) (n : Nat) (x : Port) : (s.setPort n x).xing = s.xing := rfl
@[simp] theorem setPort_txTurn (s : State) (n : Nat) (x : Port) : (s.setPort n x).txTurn = s.txTurn := rfl
@[simp] theorem setPort_hostMem (s : State) (n : Nat) (x : Port) : (s.setPort n x).hostMem = s.hostMem := rfl
@[simp] theorem setPort_cans (s : State) (n : Nat) (x : Port) : (s.setPort n x).cans = s.cans := rfl
@[simp] theorem setPort_serials (s : State) (n : Nat) (x : Port) : (s.setPort n x).serials = s.serials := rfl
@[simp] theorem setPort_mram (s : State) (n : Nat) (x : Port) : (s.setPort n x).mram = s.mram := rfl
@[simp] theorem setPort_keyHash (s : State) (n : Nat) (x : Port) : (s.setPort n x).keyHash = s.keyHash := rfl
@[simp] theorem setPort_nv (s : State) (n : Nat) (x : Port) : (s.setPort n x).nv = s.nv := rfl
@[simp] theorem setPort_pkg (s : State) (n : Nat) (x : Port) : (s.setPort n x).pkg = s.pkg := rfl
@[simp] theorem setPort_jtag (s : State) (n : Nat) (x : Port) : (s.setPort n x).jtag = s.jtag := rfl
@[simp] theorem setPort_img (s : State) (n : Nat) (x : Port) : (s.setPort n x).img = s.img := rfl
@[simp] theorem setPort_curve (s : State) (n : Nat) (x : Port) : (s.setPort n x).curve = s.curve := rfl
@[simp] theorem setPort_srus (s : State) (n : Nat) (x : Port) : (s.setPort n x).srus = s.srus := rfl
@[simp] theorem setPort_channels (s : State) (n : Nat) (x : Port) : (s.setPort n x).channels = s.channels := rfl
@[simp] theorem setPort_island (s : State) (n : Nat) (x : Port) : (s.setPort n x).island = s.island := rfl
@[simp] theorem setPort_latch (s : State) (n : Nat) (x : Port) : (s.setPort n x).latch = s.latch := rfl
@[simp] theorem setPort_clockLost (s : State) (n : Nat) (x : Port) : (s.setPort n x).clockLost = s.clockLost := rfl
@[simp] theorem setPort_nfn (s : State) (n : Nat) (x : Port) : (s.setPort n x).nfn = s.nfn := rfl
@[simp] theorem setPort_notices (s : State) (n : Nat) (x : Port) : (s.setPort n x).notices = s.notices := rfl
@[simp] theorem setPort_out (s : State) (n : Nat) (x : Port) : (s.setPort n x).out = s.out := rfl

@[simp] theorem setCan_pending (s : State) (n : Nat) (x : Can) : (s.setCan n x).pending = s.pending := rfl
@[simp] theorem setCan_variant (s : State) (n : Nat) (x : Can) : (s.setCan n x).variant = s.variant := rfl
@[simp] theorem setCan_now (s : State) (n : Nat) (x : Can) : (s.setCan n x).now = s.now := rfl
@[simp] theorem setCan_sup (s : State) (n : Nat) (x : Can) : (s.setCan n x).sup = s.sup := rfl
@[simp] theorem setCan_hostReads (s : State) (n : Nat) (x : Can) : (s.setCan n x).hostReads = s.hostReads := rfl
@[simp] theorem setCan_cycle (s : State) (n : Nat) (x : Can) : (s.setCan n x).cycle = s.cycle := rfl
@[simp] theorem setCan_free (s : State) (n : Nat) (x : Can) : (s.setCan n x).free = s.free := rfl
@[simp] theorem setCan_regs (s : State) (n : Nat) (x : Can) : (s.setCan n x).regs = s.regs := rfl
@[simp] theorem setCan_shadow (s : State) (n : Nat) (x : Can) : (s.setCan n x).shadow = s.shadow := rfl
@[simp] theorem setCan_leases (s : State) (n : Nat) (x : Can) : (s.setCan n x).leases = s.leases := rfl
@[simp] theorem setCan_porstLow (s : State) (n : Nat) (x : Can) : (s.setCan n x).porstLow = s.porstLow := rfl
@[simp] theorem setCan_coreReset (s : State) (n : Nat) (x : Can) : (s.setCan n x).coreReset = s.coreReset := rfl
@[simp] theorem setCan_modeCmd (s : State) (n : Nat) (x : Can) : (s.setCan n x).modeCmd = s.modeCmd := rfl
@[simp] theorem setCan_bootSel (s : State) (n : Nat) (x : Can) : (s.setCan n x).bootSel = s.bootSel := rfl
@[simp] theorem setCan_bootMem (s : State) (n : Nat) (x : Can) : (s.setCan n x).bootMem = s.bootMem := rfl
@[simp] theorem setCan_syncs (s : State) (n : Nat) (x : Can) : (s.setCan n x).syncs = s.syncs := rfl
@[simp] theorem setCan_merges (s : State) (n : Nat) (x : Can) : (s.setCan n x).merges = s.merges := rfl
@[simp] theorem setCan_engines (s : State) (n : Nat) (x : Can) : (s.setCan n x).engines = s.engines := rfl
@[simp] theorem setCan_msixTab (s : State) (n : Nat) (x : Can) : (s.setCan n x).msixTab = s.msixTab := rfl
@[simp] theorem setCan_msixPba (s : State) (n : Nat) (x : Can) : (s.setCan n x).msixPba = s.msixPba := rfl
@[simp] theorem setCan_districts (s : State) (n : Nat) (x : Can) : (s.setCan n x).districts = s.districts := rfl
@[simp] theorem setCan_ave (s : State) (n : Nat) (x : Can) : (s.setCan n x).ave = s.ave := rfl
@[simp] theorem setCan_tb (s : State) (n : Nat) (x : Can) : (s.setCan n x).tb = s.tb := rfl
@[simp] theorem setCan_red (s : State) (n : Nat) (x : Can) : (s.setCan n x).red = s.red := rfl
@[simp] theorem setCan_xing (s : State) (n : Nat) (x : Can) : (s.setCan n x).xing = s.xing := rfl
@[simp] theorem setCan_ports (s : State) (n : Nat) (x : Can) : (s.setCan n x).ports = s.ports := rfl
@[simp] theorem setCan_txTurn (s : State) (n : Nat) (x : Can) : (s.setCan n x).txTurn = s.txTurn := rfl
@[simp] theorem setCan_hostMem (s : State) (n : Nat) (x : Can) : (s.setCan n x).hostMem = s.hostMem := rfl
@[simp] theorem setCan_serials (s : State) (n : Nat) (x : Can) : (s.setCan n x).serials = s.serials := rfl
@[simp] theorem setCan_mram (s : State) (n : Nat) (x : Can) : (s.setCan n x).mram = s.mram := rfl
@[simp] theorem setCan_keyHash (s : State) (n : Nat) (x : Can) : (s.setCan n x).keyHash = s.keyHash := rfl
@[simp] theorem setCan_nv (s : State) (n : Nat) (x : Can) : (s.setCan n x).nv = s.nv := rfl
@[simp] theorem setCan_pkg (s : State) (n : Nat) (x : Can) : (s.setCan n x).pkg = s.pkg := rfl
@[simp] theorem setCan_jtag (s : State) (n : Nat) (x : Can) : (s.setCan n x).jtag = s.jtag := rfl
@[simp] theorem setCan_img (s : State) (n : Nat) (x : Can) : (s.setCan n x).img = s.img := rfl
@[simp] theorem setCan_curve (s : State) (n : Nat) (x : Can) : (s.setCan n x).curve = s.curve := rfl
@[simp] theorem setCan_srus (s : State) (n : Nat) (x : Can) : (s.setCan n x).srus = s.srus := rfl
@[simp] theorem setCan_channels (s : State) (n : Nat) (x : Can) : (s.setCan n x).channels = s.channels := rfl
@[simp] theorem setCan_island (s : State) (n : Nat) (x : Can) : (s.setCan n x).island = s.island := rfl
@[simp] theorem setCan_latch (s : State) (n : Nat) (x : Can) : (s.setCan n x).latch = s.latch := rfl
@[simp] theorem setCan_clockLost (s : State) (n : Nat) (x : Can) : (s.setCan n x).clockLost = s.clockLost := rfl
@[simp] theorem setCan_nfn (s : State) (n : Nat) (x : Can) : (s.setCan n x).nfn = s.nfn := rfl
@[simp] theorem setCan_notices (s : State) (n : Nat) (x : Can) : (s.setCan n x).notices = s.notices := rfl
@[simp] theorem setCan_out (s : State) (n : Nat) (x : Can) : (s.setCan n x).out = s.out := rfl

@[simp] theorem setSer_pending (s : State) (n : Nat) (x : Serial) : (s.setSer n x).pending = s.pending := rfl
@[simp] theorem setSer_variant (s : State) (n : Nat) (x : Serial) : (s.setSer n x).variant = s.variant := rfl
@[simp] theorem setSer_now (s : State) (n : Nat) (x : Serial) : (s.setSer n x).now = s.now := rfl
@[simp] theorem setSer_sup (s : State) (n : Nat) (x : Serial) : (s.setSer n x).sup = s.sup := rfl
@[simp] theorem setSer_hostReads (s : State) (n : Nat) (x : Serial) : (s.setSer n x).hostReads = s.hostReads := rfl
@[simp] theorem setSer_cycle (s : State) (n : Nat) (x : Serial) : (s.setSer n x).cycle = s.cycle := rfl
@[simp] theorem setSer_free (s : State) (n : Nat) (x : Serial) : (s.setSer n x).free = s.free := rfl
@[simp] theorem setSer_regs (s : State) (n : Nat) (x : Serial) : (s.setSer n x).regs = s.regs := rfl
@[simp] theorem setSer_shadow (s : State) (n : Nat) (x : Serial) : (s.setSer n x).shadow = s.shadow := rfl
@[simp] theorem setSer_leases (s : State) (n : Nat) (x : Serial) : (s.setSer n x).leases = s.leases := rfl
@[simp] theorem setSer_porstLow (s : State) (n : Nat) (x : Serial) : (s.setSer n x).porstLow = s.porstLow := rfl
@[simp] theorem setSer_coreReset (s : State) (n : Nat) (x : Serial) : (s.setSer n x).coreReset = s.coreReset := rfl
@[simp] theorem setSer_modeCmd (s : State) (n : Nat) (x : Serial) : (s.setSer n x).modeCmd = s.modeCmd := rfl
@[simp] theorem setSer_bootSel (s : State) (n : Nat) (x : Serial) : (s.setSer n x).bootSel = s.bootSel := rfl
@[simp] theorem setSer_bootMem (s : State) (n : Nat) (x : Serial) : (s.setSer n x).bootMem = s.bootMem := rfl
@[simp] theorem setSer_syncs (s : State) (n : Nat) (x : Serial) : (s.setSer n x).syncs = s.syncs := rfl
@[simp] theorem setSer_merges (s : State) (n : Nat) (x : Serial) : (s.setSer n x).merges = s.merges := rfl
@[simp] theorem setSer_engines (s : State) (n : Nat) (x : Serial) : (s.setSer n x).engines = s.engines := rfl
@[simp] theorem setSer_msixTab (s : State) (n : Nat) (x : Serial) : (s.setSer n x).msixTab = s.msixTab := rfl
@[simp] theorem setSer_msixPba (s : State) (n : Nat) (x : Serial) : (s.setSer n x).msixPba = s.msixPba := rfl
@[simp] theorem setSer_districts (s : State) (n : Nat) (x : Serial) : (s.setSer n x).districts = s.districts := rfl
@[simp] theorem setSer_ave (s : State) (n : Nat) (x : Serial) : (s.setSer n x).ave = s.ave := rfl
@[simp] theorem setSer_tb (s : State) (n : Nat) (x : Serial) : (s.setSer n x).tb = s.tb := rfl
@[simp] theorem setSer_red (s : State) (n : Nat) (x : Serial) : (s.setSer n x).red = s.red := rfl
@[simp] theorem setSer_xing (s : State) (n : Nat) (x : Serial) : (s.setSer n x).xing = s.xing := rfl
@[simp] theorem setSer_ports (s : State) (n : Nat) (x : Serial) : (s.setSer n x).ports = s.ports := rfl
@[simp] theorem setSer_txTurn (s : State) (n : Nat) (x : Serial) : (s.setSer n x).txTurn = s.txTurn := rfl
@[simp] theorem setSer_hostMem (s : State) (n : Nat) (x : Serial) : (s.setSer n x).hostMem = s.hostMem := rfl
@[simp] theorem setSer_cans (s : State) (n : Nat) (x : Serial) : (s.setSer n x).cans = s.cans := rfl
@[simp] theorem setSer_mram (s : State) (n : Nat) (x : Serial) : (s.setSer n x).mram = s.mram := rfl
@[simp] theorem setSer_keyHash (s : State) (n : Nat) (x : Serial) : (s.setSer n x).keyHash = s.keyHash := rfl
@[simp] theorem setSer_nv (s : State) (n : Nat) (x : Serial) : (s.setSer n x).nv = s.nv := rfl
@[simp] theorem setSer_pkg (s : State) (n : Nat) (x : Serial) : (s.setSer n x).pkg = s.pkg := rfl
@[simp] theorem setSer_jtag (s : State) (n : Nat) (x : Serial) : (s.setSer n x).jtag = s.jtag := rfl
@[simp] theorem setSer_img (s : State) (n : Nat) (x : Serial) : (s.setSer n x).img = s.img := rfl
@[simp] theorem setSer_curve (s : State) (n : Nat) (x : Serial) : (s.setSer n x).curve = s.curve := rfl
@[simp] theorem setSer_srus (s : State) (n : Nat) (x : Serial) : (s.setSer n x).srus = s.srus := rfl
@[simp] theorem setSer_channels (s : State) (n : Nat) (x : Serial) : (s.setSer n x).channels = s.channels := rfl
@[simp] theorem setSer_island (s : State) (n : Nat) (x : Serial) : (s.setSer n x).island = s.island := rfl
@[simp] theorem setSer_latch (s : State) (n : Nat) (x : Serial) : (s.setSer n x).latch = s.latch := rfl
@[simp] theorem setSer_clockLost (s : State) (n : Nat) (x : Serial) : (s.setSer n x).clockLost = s.clockLost := rfl
@[simp] theorem setSer_nfn (s : State) (n : Nat) (x : Serial) : (s.setSer n x).nfn = s.nfn := rfl
@[simp] theorem setSer_notices (s : State) (n : Nat) (x : Serial) : (s.setSer n x).notices = s.notices := rfl
@[simp] theorem setSer_out (s : State) (n : Nat) (x : Serial) : (s.setSer n x).out = s.out := rfl

@[simp] theorem setImg_pending (s : State) (x : Image) : (s.setImg x).pending = s.pending := rfl
@[simp] theorem setImg_variant (s : State) (x : Image) : (s.setImg x).variant = s.variant := rfl
@[simp] theorem setImg_now (s : State) (x : Image) : (s.setImg x).now = s.now := rfl
@[simp] theorem setImg_sup (s : State) (x : Image) : (s.setImg x).sup = s.sup := rfl
@[simp] theorem setImg_hostReads (s : State) (x : Image) : (s.setImg x).hostReads = s.hostReads := rfl
@[simp] theorem setImg_cycle (s : State) (x : Image) : (s.setImg x).cycle = s.cycle := rfl
@[simp] theorem setImg_free (s : State) (x : Image) : (s.setImg x).free = s.free := rfl
@[simp] theorem setImg_regs (s : State) (x : Image) : (s.setImg x).regs = s.regs := rfl
@[simp] theorem setImg_shadow (s : State) (x : Image) : (s.setImg x).shadow = s.shadow := rfl
@[simp] theorem setImg_leases (s : State) (x : Image) : (s.setImg x).leases = s.leases := rfl
@[simp] theorem setImg_porstLow (s : State) (x : Image) : (s.setImg x).porstLow = s.porstLow := rfl
@[simp] theorem setImg_coreReset (s : State) (x : Image) : (s.setImg x).coreReset = s.coreReset := rfl
@[simp] theorem setImg_modeCmd (s : State) (x : Image) : (s.setImg x).modeCmd = s.modeCmd := rfl
@[simp] theorem setImg_bootSel (s : State) (x : Image) : (s.setImg x).bootSel = s.bootSel := rfl
@[simp] theorem setImg_bootMem (s : State) (x : Image) : (s.setImg x).bootMem = s.bootMem := rfl
@[simp] theorem setImg_syncs (s : State) (x : Image) : (s.setImg x).syncs = s.syncs := rfl
@[simp] theorem setImg_merges (s : State) (x : Image) : (s.setImg x).merges = s.merges := rfl
@[simp] theorem setImg_engines (s : State) (x : Image) : (s.setImg x).engines = s.engines := rfl
@[simp] theorem setImg_msixTab (s : State) (x : Image) : (s.setImg x).msixTab = s.msixTab := rfl
@[simp] theorem setImg_msixPba (s : State) (x : Image) : (s.setImg x).msixPba = s.msixPba := rfl
@[simp] theorem setImg_districts (s : State) (x : Image) : (s.setImg x).districts = s.districts := rfl
@[simp] theorem setImg_ave (s : State) (x : Image) : (s.setImg x).ave = s.ave := rfl
@[simp] theorem setImg_tb (s : State) (x : Image) : (s.setImg x).tb = s.tb := rfl
@[simp] theorem setImg_red (s : State) (x : Image) : (s.setImg x).red = s.red := rfl
@[simp] theorem setImg_xing (s : State) (x : Image) : (s.setImg x).xing = s.xing := rfl
@[simp] theorem setImg_ports (s : State) (x : Image) : (s.setImg x).ports = s.ports := rfl
@[simp] theorem setImg_txTurn (s : State) (x : Image) : (s.setImg x).txTurn = s.txTurn := rfl
@[simp] theorem setImg_hostMem (s : State) (x : Image) : (s.setImg x).hostMem = s.hostMem := rfl
@[simp] theorem setImg_cans (s : State) (x : Image) : (s.setImg x).cans = s.cans := rfl
@[simp] theorem setImg_serials (s : State) (x : Image) : (s.setImg x).serials = s.serials := rfl
@[simp] theorem setImg_mram (s : State) (x : Image) : (s.setImg x).mram = s.mram := rfl
@[simp] theorem setImg_keyHash (s : State) (x : Image) : (s.setImg x).keyHash = s.keyHash := rfl
@[simp] theorem setImg_nv (s : State) (x : Image) : (s.setImg x).nv = s.nv := rfl
@[simp] theorem setImg_pkg (s : State) (x : Image) : (s.setImg x).pkg = s.pkg := rfl
@[simp] theorem setImg_jtag (s : State) (x : Image) : (s.setImg x).jtag = s.jtag := rfl
@[simp] theorem setImg_curve (s : State) (x : Image) : (s.setImg x).curve = s.curve := rfl
@[simp] theorem setImg_srus (s : State) (x : Image) : (s.setImg x).srus = s.srus := rfl
@[simp] theorem setImg_channels (s : State) (x : Image) : (s.setImg x).channels = s.channels := rfl
@[simp] theorem setImg_island (s : State) (x : Image) : (s.setImg x).island = s.island := rfl
@[simp] theorem setImg_latch (s : State) (x : Image) : (s.setImg x).latch = s.latch := rfl
@[simp] theorem setImg_clockLost (s : State) (x : Image) : (s.setImg x).clockLost = s.clockLost := rfl
@[simp] theorem setImg_nfn (s : State) (x : Image) : (s.setImg x).nfn = s.nfn := rfl
@[simp] theorem setImg_notices (s : State) (x : Image) : (s.setImg x).notices = s.notices := rfl
@[simp] theorem setImg_out (s : State) (x : Image) : (s.setImg x).out = s.out := rfl

@[simp] theorem setIsland_pending (s : State) (x : Island) : (s.setIsland x).pending = s.pending := rfl
@[simp] theorem setIsland_variant (s : State) (x : Island) : (s.setIsland x).variant = s.variant := rfl
@[simp] theorem setIsland_now (s : State) (x : Island) : (s.setIsland x).now = s.now := rfl
@[simp] theorem setIsland_sup (s : State) (x : Island) : (s.setIsland x).sup = s.sup := rfl
@[simp] theorem setIsland_hostReads (s : State) (x : Island) : (s.setIsland x).hostReads = s.hostReads := rfl
@[simp] theorem setIsland_cycle (s : State) (x : Island) : (s.setIsland x).cycle = s.cycle := rfl
@[simp] theorem setIsland_free (s : State) (x : Island) : (s.setIsland x).free = s.free := rfl
@[simp] theorem setIsland_regs (s : State) (x : Island) : (s.setIsland x).regs = s.regs := rfl
@[simp] theorem setIsland_shadow (s : State) (x : Island) : (s.setIsland x).shadow = s.shadow := rfl
@[simp] theorem setIsland_leases (s : State) (x : Island) : (s.setIsland x).leases = s.leases := rfl
@[simp] theorem setIsland_porstLow (s : State) (x : Island) : (s.setIsland x).porstLow = s.porstLow := rfl
@[simp] theorem setIsland_coreReset (s : State) (x : Island) : (s.setIsland x).coreReset = s.coreReset := rfl
@[simp] theorem setIsland_modeCmd (s : State) (x : Island) : (s.setIsland x).modeCmd = s.modeCmd := rfl
@[simp] theorem setIsland_bootSel (s : State) (x : Island) : (s.setIsland x).bootSel = s.bootSel := rfl
@[simp] theorem setIsland_bootMem (s : State) (x : Island) : (s.setIsland x).bootMem = s.bootMem := rfl
@[simp] theorem setIsland_syncs (s : State) (x : Island) : (s.setIsland x).syncs = s.syncs := rfl
@[simp] theorem setIsland_merges (s : State) (x : Island) : (s.setIsland x).merges = s.merges := rfl
@[simp] theorem setIsland_engines (s : State) (x : Island) : (s.setIsland x).engines = s.engines := rfl
@[simp] theorem setIsland_msixTab (s : State) (x : Island) : (s.setIsland x).msixTab = s.msixTab := rfl
@[simp] theorem setIsland_msixPba (s : State) (x : Island) : (s.setIsland x).msixPba = s.msixPba := rfl
@[simp] theorem setIsland_districts (s : State) (x : Island) : (s.setIsland x).districts = s.districts := rfl
@[simp] theorem setIsland_ave (s : State) (x : Island) : (s.setIsland x).ave = s.ave := rfl
@[simp] theorem setIsland_tb (s : State) (x : Island) : (s.setIsland x).tb = s.tb := rfl
@[simp] theorem setIsland_red (s : State) (x : Island) : (s.setIsland x).red = s.red := rfl
@[simp] theorem setIsland_xing (s : State) (x : Island) : (s.setIsland x).xing = s.xing := rfl
@[simp] theorem setIsland_ports (s : State) (x : Island) : (s.setIsland x).ports = s.ports := rfl
@[simp] theorem setIsland_txTurn (s : State) (x : Island) : (s.setIsland x).txTurn = s.txTurn := rfl
@[simp] theorem setIsland_hostMem (s : State) (x : Island) : (s.setIsland x).hostMem = s.hostMem := rfl
@[simp] theorem setIsland_cans (s : State) (x : Island) : (s.setIsland x).cans = s.cans := rfl
@[simp] theorem setIsland_serials (s : State) (x : Island) : (s.setIsland x).serials = s.serials := rfl
@[simp] theorem setIsland_mram (s : State) (x : Island) : (s.setIsland x).mram = s.mram := rfl
@[simp] theorem setIsland_keyHash (s : State) (x : Island) : (s.setIsland x).keyHash = s.keyHash := rfl
@[simp] theorem setIsland_nv (s : State) (x : Island) : (s.setIsland x).nv = s.nv := rfl
@[simp] theorem setIsland_pkg (s : State) (x : Island) : (s.setIsland x).pkg = s.pkg := rfl
@[simp] theorem setIsland_jtag (s : State) (x : Island) : (s.setIsland x).jtag = s.jtag := rfl
@[simp] theorem setIsland_img (s : State) (x : Island) : (s.setIsland x).img = s.img := rfl
@[simp] theorem setIsland_curve (s : State) (x : Island) : (s.setIsland x).curve = s.curve := rfl
@[simp] theorem setIsland_srus (s : State) (x : Island) : (s.setIsland x).srus = s.srus := rfl
@[simp] theorem setIsland_channels (s : State) (x : Island) : (s.setIsland x).channels = s.channels := rfl
@[simp] theorem setIsland_latch (s : State) (x : Island) : (s.setIsland x).latch = s.latch := rfl
@[simp] theorem setIsland_clockLost (s : State) (x : Island) : (s.setIsland x).clockLost = s.clockLost := rfl
@[simp] theorem setIsland_nfn (s : State) (x : Island) : (s.setIsland x).nfn = s.nfn := rfl
@[simp] theorem setIsland_notices (s : State) (x : Island) : (s.setIsland x).notices = s.notices := rfl
@[simp] theorem setIsland_out (s : State) (x : Island) : (s.setIsland x).out = s.out := rfl

@[simp] theorem setChannel_pending (s : State) (c : Nat) (x : Channel) : (s.setChannel c x).pending = s.pending := rfl
@[simp] theorem setChannel_variant (s : State) (c : Nat) (x : Channel) : (s.setChannel c x).variant = s.variant := rfl
@[simp] theorem setChannel_now (s : State) (c : Nat) (x : Channel) : (s.setChannel c x).now = s.now := rfl
@[simp] theorem setChannel_sup (s : State) (c : Nat) (x : Channel) : (s.setChannel c x).sup = s.sup := rfl
@[simp] theorem setChannel_hostReads (s : State) (c : Nat) (x : Channel) : (s.setChannel c x).hostReads = s.hostReads := rfl
@[simp] theorem setChannel_cycle (s : State) (c : Nat) (x : Channel) : (s.setChannel c x).cycle = s.cycle := rfl
@[simp] theorem setChannel_free (s : State) (c : Nat) (x : Channel) : (s.setChannel c x).free = s.free := rfl
@[simp] theorem setChannel_regs (s : State) (c : Nat) (x : Channel) : (s.setChannel c x).regs = s.regs := rfl
@[simp] theorem setChannel_shadow (s : State) (c : Nat) (x : Channel) : (s.setChannel c x).shadow = s.shadow := rfl
@[simp] theorem setChannel_leases (s : State) (c : Nat) (x : Channel) : (s.setChannel c x).leases = s.leases := rfl
@[simp] theorem setChannel_porstLow (s : State) (c : Nat) (x : Channel) : (s.setChannel c x).porstLow = s.porstLow := rfl
@[simp] theorem setChannel_coreReset (s : State) (c : Nat) (x : Channel) : (s.setChannel c x).coreReset = s.coreReset := rfl
@[simp] theorem setChannel_modeCmd (s : State) (c : Nat) (x : Channel) : (s.setChannel c x).modeCmd = s.modeCmd := rfl
@[simp] theorem setChannel_bootSel (s : State) (c : Nat) (x : Channel) : (s.setChannel c x).bootSel = s.bootSel := rfl
@[simp] theorem setChannel_bootMem (s : State) (c : Nat) (x : Channel) : (s.setChannel c x).bootMem = s.bootMem := rfl
@[simp] theorem setChannel_syncs (s : State) (c : Nat) (x : Channel) : (s.setChannel c x).syncs = s.syncs := rfl
@[simp] theorem setChannel_merges (s : State) (c : Nat) (x : Channel) : (s.setChannel c x).merges = s.merges := rfl
@[simp] theorem setChannel_engines (s : State) (c : Nat) (x : Channel) : (s.setChannel c x).engines = s.engines := rfl
@[simp] theorem setChannel_msixTab (s : State) (c : Nat) (x : Channel) : (s.setChannel c x).msixTab = s.msixTab := rfl
@[simp] theorem setChannel_msixPba (s : State) (c : Nat) (x : Channel) : (s.setChannel c x).msixPba = s.msixPba := rfl
@[simp] theorem setChannel_districts (s : State) (c : Nat) (x : Channel) : (s.setChannel c x).districts = s.districts := rfl
@[simp] theorem setChannel_ave (s : State) (c : Nat) (x : Channel) : (s.setChannel c x).ave = s.ave := rfl
@[simp] theorem setChannel_tb (s : State) (c : Nat) (x : Channel) : (s.setChannel c x).tb = s.tb := rfl
@[simp] theorem setChannel_red (s : State) (c : Nat) (x : Channel) : (s.setChannel c x).red = s.red := rfl
@[simp] theorem setChannel_xing (s : State) (c : Nat) (x : Channel) : (s.setChannel c x).xing = s.xing := rfl
@[simp] theorem setChannel_ports (s : State) (c : Nat) (x : Channel) : (s.setChannel c x).ports = s.ports := rfl
@[simp] theorem setChannel_txTurn (s : State) (c : Nat) (x : Channel) : (s.setChannel c x).txTurn = s.txTurn := rfl
@[simp] theorem setChannel_hostMem (s : State) (c : Nat) (x : Channel) : (s.setChannel c x).hostMem = s.hostMem := rfl
@[simp] theorem setChannel_cans (s : State) (c : Nat) (x : Channel) : (s.setChannel c x).cans = s.cans := rfl
@[simp] theorem setChannel_serials (s : State) (c : Nat) (x : Channel) : (s.setChannel c x).serials = s.serials := rfl
@[simp] theorem setChannel_mram (s : State) (c : Nat) (x : Channel) : (s.setChannel c x).mram = s.mram := rfl
@[simp] theorem setChannel_keyHash (s : State) (c : Nat) (x : Channel) : (s.setChannel c x).keyHash = s.keyHash := rfl
@[simp] theorem setChannel_nv (s : State) (c : Nat) (x : Channel) : (s.setChannel c x).nv = s.nv := rfl
@[simp] theorem setChannel_pkg (s : State) (c : Nat) (x : Channel) : (s.setChannel c x).pkg = s.pkg := rfl
@[simp] theorem setChannel_jtag (s : State) (c : Nat) (x : Channel) : (s.setChannel c x).jtag = s.jtag := rfl
@[simp] theorem setChannel_img (s : State) (c : Nat) (x : Channel) : (s.setChannel c x).img = s.img := rfl
@[simp] theorem setChannel_curve (s : State) (c : Nat) (x : Channel) : (s.setChannel c x).curve = s.curve := rfl
@[simp] theorem setChannel_srus (s : State) (c : Nat) (x : Channel) : (s.setChannel c x).srus = s.srus := rfl
@[simp] theorem setChannel_island (s : State) (c : Nat) (x : Channel) : (s.setChannel c x).island = s.island := rfl
@[simp] theorem setChannel_latch (s : State) (c : Nat) (x : Channel) : (s.setChannel c x).latch = s.latch := rfl
@[simp] theorem setChannel_clockLost (s : State) (c : Nat) (x : Channel) : (s.setChannel c x).clockLost = s.clockLost := rfl
@[simp] theorem setChannel_nfn (s : State) (c : Nat) (x : Channel) : (s.setChannel c x).nfn = s.nfn := rfl
@[simp] theorem setChannel_notices (s : State) (c : Nat) (x : Channel) : (s.setChannel c x).notices = s.notices := rfl
@[simp] theorem setChannel_out (s : State) (c : Nat) (x : Channel) : (s.setChannel c x).out = s.out := rfl

@[simp] theorem addLease_pending (s : State) (l : Lease) : (s.addLease l).pending = s.pending := rfl
@[simp] theorem addLease_variant (s : State) (l : Lease) : (s.addLease l).variant = s.variant := rfl
@[simp] theorem addLease_now (s : State) (l : Lease) : (s.addLease l).now = s.now := rfl
@[simp] theorem addLease_sup (s : State) (l : Lease) : (s.addLease l).sup = s.sup := rfl
@[simp] theorem addLease_hostReads (s : State) (l : Lease) : (s.addLease l).hostReads = s.hostReads := rfl
@[simp] theorem addLease_cycle (s : State) (l : Lease) : (s.addLease l).cycle = s.cycle := rfl
@[simp] theorem addLease_free (s : State) (l : Lease) : (s.addLease l).free = s.free := rfl
@[simp] theorem addLease_regs (s : State) (l : Lease) : (s.addLease l).regs = s.regs := rfl
@[simp] theorem addLease_shadow (s : State) (l : Lease) : (s.addLease l).shadow = s.shadow := rfl
@[simp] theorem addLease_porstLow (s : State) (l : Lease) : (s.addLease l).porstLow = s.porstLow := rfl
@[simp] theorem addLease_coreReset (s : State) (l : Lease) : (s.addLease l).coreReset = s.coreReset := rfl
@[simp] theorem addLease_modeCmd (s : State) (l : Lease) : (s.addLease l).modeCmd = s.modeCmd := rfl
@[simp] theorem addLease_bootSel (s : State) (l : Lease) : (s.addLease l).bootSel = s.bootSel := rfl
@[simp] theorem addLease_bootMem (s : State) (l : Lease) : (s.addLease l).bootMem = s.bootMem := rfl
@[simp] theorem addLease_syncs (s : State) (l : Lease) : (s.addLease l).syncs = s.syncs := rfl
@[simp] theorem addLease_merges (s : State) (l : Lease) : (s.addLease l).merges = s.merges := rfl
@[simp] theorem addLease_engines (s : State) (l : Lease) : (s.addLease l).engines = s.engines := rfl
@[simp] theorem addLease_msixTab (s : State) (l : Lease) : (s.addLease l).msixTab = s.msixTab := rfl
@[simp] theorem addLease_msixPba (s : State) (l : Lease) : (s.addLease l).msixPba = s.msixPba := rfl
@[simp] theorem addLease_districts (s : State) (l : Lease) : (s.addLease l).districts = s.districts := rfl
@[simp] theorem addLease_ave (s : State) (l : Lease) : (s.addLease l).ave = s.ave := rfl
@[simp] theorem addLease_tb (s : State) (l : Lease) : (s.addLease l).tb = s.tb := rfl
@[simp] theorem addLease_red (s : State) (l : Lease) : (s.addLease l).red = s.red := rfl
@[simp] theorem addLease_xing (s : State) (l : Lease) : (s.addLease l).xing = s.xing := rfl
@[simp] theorem addLease_ports (s : State) (l : Lease) : (s.addLease l).ports = s.ports := rfl
@[simp] theorem addLease_txTurn (s : State) (l : Lease) : (s.addLease l).txTurn = s.txTurn := rfl
@[simp] theorem addLease_hostMem (s : State) (l : Lease) : (s.addLease l).hostMem = s.hostMem := rfl
@[simp] theorem addLease_cans (s : State) (l : Lease) : (s.addLease l).cans = s.cans := rfl
@[simp] theorem addLease_serials (s : State) (l : Lease) : (s.addLease l).serials = s.serials := rfl
@[simp] theorem addLease_mram (s : State) (l : Lease) : (s.addLease l).mram = s.mram := rfl
@[simp] theorem addLease_keyHash (s : State) (l : Lease) : (s.addLease l).keyHash = s.keyHash := rfl
@[simp] theorem addLease_nv (s : State) (l : Lease) : (s.addLease l).nv = s.nv := rfl
@[simp] theorem addLease_pkg (s : State) (l : Lease) : (s.addLease l).pkg = s.pkg := rfl
@[simp] theorem addLease_jtag (s : State) (l : Lease) : (s.addLease l).jtag = s.jtag := rfl
@[simp] theorem addLease_img (s : State) (l : Lease) : (s.addLease l).img = s.img := rfl
@[simp] theorem addLease_curve (s : State) (l : Lease) : (s.addLease l).curve = s.curve := rfl
@[simp] theorem addLease_srus (s : State) (l : Lease) : (s.addLease l).srus = s.srus := rfl
@[simp] theorem addLease_channels (s : State) (l : Lease) : (s.addLease l).channels = s.channels := rfl
@[simp] theorem addLease_island (s : State) (l : Lease) : (s.addLease l).island = s.island := rfl
@[simp] theorem addLease_latch (s : State) (l : Lease) : (s.addLease l).latch = s.latch := rfl
@[simp] theorem addLease_clockLost (s : State) (l : Lease) : (s.addLease l).clockLost = s.clockLost := rfl
@[simp] theorem addLease_nfn (s : State) (l : Lease) : (s.addLease l).nfn = s.nfn := rfl
@[simp] theorem addLease_notices (s : State) (l : Lease) : (s.addLease l).notices = s.notices := rfl
@[simp] theorem addLease_out (s : State) (l : Lease) : (s.addLease l).out = s.out := rfl

@[simp] theorem setSyncLine_pending (s : State) (l v : Nat) : (s.setSyncLine l v).pending = s.pending := rfl
@[simp] theorem setSyncLine_variant (s : State) (l v : Nat) : (s.setSyncLine l v).variant = s.variant := rfl
@[simp] theorem setSyncLine_now (s : State) (l v : Nat) : (s.setSyncLine l v).now = s.now := rfl
@[simp] theorem setSyncLine_sup (s : State) (l v : Nat) : (s.setSyncLine l v).sup = s.sup := rfl
@[simp] theorem setSyncLine_hostReads (s : State) (l v : Nat) : (s.setSyncLine l v).hostReads = s.hostReads := rfl
@[simp] theorem setSyncLine_cycle (s : State) (l v : Nat) : (s.setSyncLine l v).cycle = s.cycle := rfl
@[simp] theorem setSyncLine_free (s : State) (l v : Nat) : (s.setSyncLine l v).free = s.free := rfl
@[simp] theorem setSyncLine_regs (s : State) (l v : Nat) : (s.setSyncLine l v).regs = s.regs := rfl
@[simp] theorem setSyncLine_shadow (s : State) (l v : Nat) : (s.setSyncLine l v).shadow = s.shadow := rfl
@[simp] theorem setSyncLine_leases (s : State) (l v : Nat) : (s.setSyncLine l v).leases = s.leases := rfl
@[simp] theorem setSyncLine_porstLow (s : State) (l v : Nat) : (s.setSyncLine l v).porstLow = s.porstLow := rfl
@[simp] theorem setSyncLine_coreReset (s : State) (l v : Nat) : (s.setSyncLine l v).coreReset = s.coreReset := rfl
@[simp] theorem setSyncLine_modeCmd (s : State) (l v : Nat) : (s.setSyncLine l v).modeCmd = s.modeCmd := rfl
@[simp] theorem setSyncLine_bootSel (s : State) (l v : Nat) : (s.setSyncLine l v).bootSel = s.bootSel := rfl
@[simp] theorem setSyncLine_bootMem (s : State) (l v : Nat) : (s.setSyncLine l v).bootMem = s.bootMem := rfl
@[simp] theorem setSyncLine_merges (s : State) (l v : Nat) : (s.setSyncLine l v).merges = s.merges := rfl
@[simp] theorem setSyncLine_engines (s : State) (l v : Nat) : (s.setSyncLine l v).engines = s.engines := rfl
@[simp] theorem setSyncLine_msixTab (s : State) (l v : Nat) : (s.setSyncLine l v).msixTab = s.msixTab := rfl
@[simp] theorem setSyncLine_msixPba (s : State) (l v : Nat) : (s.setSyncLine l v).msixPba = s.msixPba := rfl
@[simp] theorem setSyncLine_districts (s : State) (l v : Nat) : (s.setSyncLine l v).districts = s.districts := rfl
@[simp] theorem setSyncLine_ave (s : State) (l v : Nat) : (s.setSyncLine l v).ave = s.ave := rfl
@[simp] theorem setSyncLine_tb (s : State) (l v : Nat) : (s.setSyncLine l v).tb = s.tb := rfl
@[simp] theorem setSyncLine_red (s : State) (l v : Nat) : (s.setSyncLine l v).red = s.red := rfl
@[simp] theorem setSyncLine_xing (s : State) (l v : Nat) : (s.setSyncLine l v).xing = s.xing := rfl
@[simp] theorem setSyncLine_ports (s : State) (l v : Nat) : (s.setSyncLine l v).ports = s.ports := rfl
@[simp] theorem setSyncLine_txTurn (s : State) (l v : Nat) : (s.setSyncLine l v).txTurn = s.txTurn := rfl
@[simp] theorem setSyncLine_hostMem (s : State) (l v : Nat) : (s.setSyncLine l v).hostMem = s.hostMem := rfl
@[simp] theorem setSyncLine_cans (s : State) (l v : Nat) : (s.setSyncLine l v).cans = s.cans := rfl
@[simp] theorem setSyncLine_serials (s : State) (l v : Nat) : (s.setSyncLine l v).serials = s.serials := rfl
@[simp] theorem setSyncLine_mram (s : State) (l v : Nat) : (s.setSyncLine l v).mram = s.mram := rfl
@[simp] theorem setSyncLine_keyHash (s : State) (l v : Nat) : (s.setSyncLine l v).keyHash = s.keyHash := rfl
@[simp] theorem setSyncLine_nv (s : State) (l v : Nat) : (s.setSyncLine l v).nv = s.nv := rfl
@[simp] theorem setSyncLine_pkg (s : State) (l v : Nat) : (s.setSyncLine l v).pkg = s.pkg := rfl
@[simp] theorem setSyncLine_jtag (s : State) (l v : Nat) : (s.setSyncLine l v).jtag = s.jtag := rfl
@[simp] theorem setSyncLine_img (s : State) (l v : Nat) : (s.setSyncLine l v).img = s.img := rfl
@[simp] theorem setSyncLine_curve (s : State) (l v : Nat) : (s.setSyncLine l v).curve = s.curve := rfl
@[simp] theorem setSyncLine_srus (s : State) (l v : Nat) : (s.setSyncLine l v).srus = s.srus := rfl
@[simp] theorem setSyncLine_channels (s : State) (l v : Nat) : (s.setSyncLine l v).channels = s.channels := rfl
@[simp] theorem setSyncLine_island (s : State) (l v : Nat) : (s.setSyncLine l v).island = s.island := rfl
@[simp] theorem setSyncLine_latch (s : State) (l v : Nat) : (s.setSyncLine l v).latch = s.latch := rfl
@[simp] theorem setSyncLine_clockLost (s : State) (l v : Nat) : (s.setSyncLine l v).clockLost = s.clockLost := rfl
@[simp] theorem setSyncLine_nfn (s : State) (l v : Nat) : (s.setSyncLine l v).nfn = s.nfn := rfl
@[simp] theorem setSyncLine_notices (s : State) (l v : Nat) : (s.setSyncLine l v).notices = s.notices := rfl
@[simp] theorem setSyncLine_out (s : State) (l v : Nat) : (s.setSyncLine l v).out = s.out := rfl

@[simp] theorem setShadow_pending (s : State) (a : Nat) (v : Word) : (s.setShadow a v).pending = s.pending := rfl
@[simp] theorem setShadow_variant (s : State) (a : Nat) (v : Word) : (s.setShadow a v).variant = s.variant := rfl
@[simp] theorem setShadow_now (s : State) (a : Nat) (v : Word) : (s.setShadow a v).now = s.now := rfl
@[simp] theorem setShadow_sup (s : State) (a : Nat) (v : Word) : (s.setShadow a v).sup = s.sup := rfl
@[simp] theorem setShadow_hostReads (s : State) (a : Nat) (v : Word) : (s.setShadow a v).hostReads = s.hostReads := rfl
@[simp] theorem setShadow_cycle (s : State) (a : Nat) (v : Word) : (s.setShadow a v).cycle = s.cycle := rfl
@[simp] theorem setShadow_free (s : State) (a : Nat) (v : Word) : (s.setShadow a v).free = s.free := rfl
@[simp] theorem setShadow_regs (s : State) (a : Nat) (v : Word) : (s.setShadow a v).regs = s.regs := rfl
@[simp] theorem setShadow_leases (s : State) (a : Nat) (v : Word) : (s.setShadow a v).leases = s.leases := rfl
@[simp] theorem setShadow_porstLow (s : State) (a : Nat) (v : Word) : (s.setShadow a v).porstLow = s.porstLow := rfl
@[simp] theorem setShadow_coreReset (s : State) (a : Nat) (v : Word) : (s.setShadow a v).coreReset = s.coreReset := rfl
@[simp] theorem setShadow_modeCmd (s : State) (a : Nat) (v : Word) : (s.setShadow a v).modeCmd = s.modeCmd := rfl
@[simp] theorem setShadow_bootSel (s : State) (a : Nat) (v : Word) : (s.setShadow a v).bootSel = s.bootSel := rfl
@[simp] theorem setShadow_bootMem (s : State) (a : Nat) (v : Word) : (s.setShadow a v).bootMem = s.bootMem := rfl
@[simp] theorem setShadow_syncs (s : State) (a : Nat) (v : Word) : (s.setShadow a v).syncs = s.syncs := rfl
@[simp] theorem setShadow_merges (s : State) (a : Nat) (v : Word) : (s.setShadow a v).merges = s.merges := rfl
@[simp] theorem setShadow_engines (s : State) (a : Nat) (v : Word) : (s.setShadow a v).engines = s.engines := rfl
@[simp] theorem setShadow_msixTab (s : State) (a : Nat) (v : Word) : (s.setShadow a v).msixTab = s.msixTab := rfl
@[simp] theorem setShadow_msixPba (s : State) (a : Nat) (v : Word) : (s.setShadow a v).msixPba = s.msixPba := rfl
@[simp] theorem setShadow_districts (s : State) (a : Nat) (v : Word) : (s.setShadow a v).districts = s.districts := rfl
@[simp] theorem setShadow_ave (s : State) (a : Nat) (v : Word) : (s.setShadow a v).ave = s.ave := rfl
@[simp] theorem setShadow_tb (s : State) (a : Nat) (v : Word) : (s.setShadow a v).tb = s.tb := rfl
@[simp] theorem setShadow_red (s : State) (a : Nat) (v : Word) : (s.setShadow a v).red = s.red := rfl
@[simp] theorem setShadow_xing (s : State) (a : Nat) (v : Word) : (s.setShadow a v).xing = s.xing := rfl
@[simp] theorem setShadow_ports (s : State) (a : Nat) (v : Word) : (s.setShadow a v).ports = s.ports := rfl
@[simp] theorem setShadow_txTurn (s : State) (a : Nat) (v : Word) : (s.setShadow a v).txTurn = s.txTurn := rfl
@[simp] theorem setShadow_hostMem (s : State) (a : Nat) (v : Word) : (s.setShadow a v).hostMem = s.hostMem := rfl
@[simp] theorem setShadow_cans (s : State) (a : Nat) (v : Word) : (s.setShadow a v).cans = s.cans := rfl
@[simp] theorem setShadow_serials (s : State) (a : Nat) (v : Word) : (s.setShadow a v).serials = s.serials := rfl
@[simp] theorem setShadow_mram (s : State) (a : Nat) (v : Word) : (s.setShadow a v).mram = s.mram := rfl
@[simp] theorem setShadow_keyHash (s : State) (a : Nat) (v : Word) : (s.setShadow a v).keyHash = s.keyHash := rfl
@[simp] theorem setShadow_nv (s : State) (a : Nat) (v : Word) : (s.setShadow a v).nv = s.nv := rfl
@[simp] theorem setShadow_pkg (s : State) (a : Nat) (v : Word) : (s.setShadow a v).pkg = s.pkg := rfl
@[simp] theorem setShadow_jtag (s : State) (a : Nat) (v : Word) : (s.setShadow a v).jtag = s.jtag := rfl
@[simp] theorem setShadow_img (s : State) (a : Nat) (v : Word) : (s.setShadow a v).img = s.img := rfl
@[simp] theorem setShadow_curve (s : State) (a : Nat) (v : Word) : (s.setShadow a v).curve = s.curve := rfl
@[simp] theorem setShadow_srus (s : State) (a : Nat) (v : Word) : (s.setShadow a v).srus = s.srus := rfl
@[simp] theorem setShadow_channels (s : State) (a : Nat) (v : Word) : (s.setShadow a v).channels = s.channels := rfl
@[simp] theorem setShadow_island (s : State) (a : Nat) (v : Word) : (s.setShadow a v).island = s.island := rfl
@[simp] theorem setShadow_latch (s : State) (a : Nat) (v : Word) : (s.setShadow a v).latch = s.latch := rfl
@[simp] theorem setShadow_clockLost (s : State) (a : Nat) (v : Word) : (s.setShadow a v).clockLost = s.clockLost := rfl
@[simp] theorem setShadow_nfn (s : State) (a : Nat) (v : Word) : (s.setShadow a v).nfn = s.nfn := rfl
@[simp] theorem setShadow_notices (s : State) (a : Nat) (v : Word) : (s.setShadow a v).notices = s.notices := rfl
@[simp] theorem setShadow_out (s : State) (a : Nat) (v : Word) : (s.setShadow a v).out = s.out := rfl

@[simp] theorem dropLease_pending (s : State) (t d i : Nat) : (s.dropLease t d i).pending = s.pending := rfl
@[simp] theorem dropLease_variant (s : State) (t d i : Nat) : (s.dropLease t d i).variant = s.variant := rfl
@[simp] theorem dropLease_now (s : State) (t d i : Nat) : (s.dropLease t d i).now = s.now := rfl
@[simp] theorem dropLease_sup (s : State) (t d i : Nat) : (s.dropLease t d i).sup = s.sup := rfl
@[simp] theorem dropLease_hostReads (s : State) (t d i : Nat) : (s.dropLease t d i).hostReads = s.hostReads := rfl
@[simp] theorem dropLease_cycle (s : State) (t d i : Nat) : (s.dropLease t d i).cycle = s.cycle := rfl
@[simp] theorem dropLease_free (s : State) (t d i : Nat) : (s.dropLease t d i).free = s.free := rfl
@[simp] theorem dropLease_regs (s : State) (t d i : Nat) : (s.dropLease t d i).regs = s.regs := rfl
@[simp] theorem dropLease_shadow (s : State) (t d i : Nat) : (s.dropLease t d i).shadow = s.shadow := rfl
@[simp] theorem dropLease_porstLow (s : State) (t d i : Nat) : (s.dropLease t d i).porstLow = s.porstLow := rfl
@[simp] theorem dropLease_coreReset (s : State) (t d i : Nat) : (s.dropLease t d i).coreReset = s.coreReset := rfl
@[simp] theorem dropLease_modeCmd (s : State) (t d i : Nat) : (s.dropLease t d i).modeCmd = s.modeCmd := rfl
@[simp] theorem dropLease_bootSel (s : State) (t d i : Nat) : (s.dropLease t d i).bootSel = s.bootSel := rfl
@[simp] theorem dropLease_bootMem (s : State) (t d i : Nat) : (s.dropLease t d i).bootMem = s.bootMem := rfl
@[simp] theorem dropLease_syncs (s : State) (t d i : Nat) : (s.dropLease t d i).syncs = s.syncs := rfl
@[simp] theorem dropLease_merges (s : State) (t d i : Nat) : (s.dropLease t d i).merges = s.merges := rfl
@[simp] theorem dropLease_engines (s : State) (t d i : Nat) : (s.dropLease t d i).engines = s.engines := rfl
@[simp] theorem dropLease_msixTab (s : State) (t d i : Nat) : (s.dropLease t d i).msixTab = s.msixTab := rfl
@[simp] theorem dropLease_msixPba (s : State) (t d i : Nat) : (s.dropLease t d i).msixPba = s.msixPba := rfl
@[simp] theorem dropLease_districts (s : State) (t d i : Nat) : (s.dropLease t d i).districts = s.districts := rfl
@[simp] theorem dropLease_ave (s : State) (t d i : Nat) : (s.dropLease t d i).ave = s.ave := rfl
@[simp] theorem dropLease_tb (s : State) (t d i : Nat) : (s.dropLease t d i).tb = s.tb := rfl
@[simp] theorem dropLease_red (s : State) (t d i : Nat) : (s.dropLease t d i).red = s.red := rfl
@[simp] theorem dropLease_xing (s : State) (t d i : Nat) : (s.dropLease t d i).xing = s.xing := rfl
@[simp] theorem dropLease_ports (s : State) (t d i : Nat) : (s.dropLease t d i).ports = s.ports := rfl
@[simp] theorem dropLease_txTurn (s : State) (t d i : Nat) : (s.dropLease t d i).txTurn = s.txTurn := rfl
@[simp] theorem dropLease_hostMem (s : State) (t d i : Nat) : (s.dropLease t d i).hostMem = s.hostMem := rfl
@[simp] theorem dropLease_cans (s : State) (t d i : Nat) : (s.dropLease t d i).cans = s.cans := rfl
@[simp] theorem dropLease_serials (s : State) (t d i : Nat) : (s.dropLease t d i).serials = s.serials := rfl
@[simp] theorem dropLease_mram (s : State) (t d i : Nat) : (s.dropLease t d i).mram = s.mram := rfl
@[simp] theorem dropLease_keyHash (s : State) (t d i : Nat) : (s.dropLease t d i).keyHash = s.keyHash := rfl
@[simp] theorem dropLease_nv (s : State) (t d i : Nat) : (s.dropLease t d i).nv = s.nv := rfl
@[simp] theorem dropLease_pkg (s : State) (t d i : Nat) : (s.dropLease t d i).pkg = s.pkg := rfl
@[simp] theorem dropLease_jtag (s : State) (t d i : Nat) : (s.dropLease t d i).jtag = s.jtag := rfl
@[simp] theorem dropLease_img (s : State) (t d i : Nat) : (s.dropLease t d i).img = s.img := rfl
@[simp] theorem dropLease_curve (s : State) (t d i : Nat) : (s.dropLease t d i).curve = s.curve := rfl
@[simp] theorem dropLease_srus (s : State) (t d i : Nat) : (s.dropLease t d i).srus = s.srus := rfl
@[simp] theorem dropLease_channels (s : State) (t d i : Nat) : (s.dropLease t d i).channels = s.channels := rfl
@[simp] theorem dropLease_island (s : State) (t d i : Nat) : (s.dropLease t d i).island = s.island := rfl
@[simp] theorem dropLease_latch (s : State) (t d i : Nat) : (s.dropLease t d i).latch = s.latch := rfl
@[simp] theorem dropLease_clockLost (s : State) (t d i : Nat) : (s.dropLease t d i).clockLost = s.clockLost := rfl
@[simp] theorem dropLease_nfn (s : State) (t d i : Nat) : (s.dropLease t d i).nfn = s.nfn := rfl
@[simp] theorem dropLease_notices (s : State) (t d i : Nat) : (s.dropLease t d i).notices = s.notices := rfl
@[simp] theorem dropLease_out (s : State) (t d i : Nat) : (s.dropLease t d i).out = s.out := rfl

end Sys2Proof.Machine.State
end

