-- ==== Sys2Proof/Laws/Store.lean ====
section
/-!
SUPPORT. Laws of the sparse container: a read after a write, and the canonical form. The same for byte memories.
-/

namespace Sys2Proof.Machine

namespace Store

variable {V : Type} {dflt : Nat → V}

theorem get_erase_same (st : Store V) (k : Nat) : get dflt (erase st k) k = dflt k := by
  induction st with
  | nil => rfl
  | cons p rest ih =>
    obtain ⟨a, v⟩ := p
    by_cases h : a = k <;> simp [erase, get, h, ih]

theorem get_erase_ne (st : Store V) {k k' : Nat} (h : k' ≠ k) : get dflt (erase st k) k' = get dflt st k' := by
  induction st with
  | nil => rfl
  | cons p rest ih =>
    obtain ⟨a, v⟩ := p
    by_cases ha : a = k
    · subst ha; simp [erase, get, ih, Ne.symm h]
    · simp only [erase, ha, if_false, get]; split <;> simp_all

theorem get_insert_same (st : Store V) (k : Nat) (v : V) : get dflt (insert st k v) k = v := by
  induction st with
  | nil => simp [insert, get]
  | cons p rest ih =>
    obtain ⟨a, x⟩ := p
    simp only [insert]
    split
    · rename_i hlt; simp [get, Nat.ne_of_lt hlt, ih]
    · split <;> simp [get]

theorem get_insert_ne (st : Store V) {k k' : Nat} (v : V) (h : k' ≠ k) :
    get dflt (insert st k v) k' = get dflt st k' := by
  induction st with
  | nil => simp [insert, get, Ne.symm h]
  | cons p rest ih =>
    obtain ⟨a, x⟩ := p
    simp only [insert]
    split
    · simp only [get, ih]
    · split
      · rename_i ha; subst ha; simp [get, Ne.symm h]
      · simp [get, Ne.symm h]

/-- What a write leaves is what the next read of the key finds. -/
@[simp] theorem get_set_same [DecidableEq V] (st : Store V) (k : Nat) (v : V) : get dflt (set dflt st k v) k = v := by
  unfold set
  split
  · rename_i h; rw [get_erase_same, h]
  · exact get_insert_same st k v

/-- A write leaves every other key alone. -/
theorem get_set_ne [DecidableEq V] (st : Store V) {k k' : Nat} (v : V) (h : k' ≠ k) :
    get dflt (set dflt st k v) k' = get dflt st k' := by
  unfold set
  split
  · exact get_erase_ne st h
  · exact get_insert_ne st v h

theorem get_set [DecidableEq V] (st : Store V) (k k' : Nat) (v : V) :
    get dflt (set dflt st k v) k' = if k' = k then v else get dflt st k' := by
  by_cases h : k' = k
  · subst h; simp
  · simp [h, get_set_ne st v h]

theorem above_mono {st : Store V} {lo lo' : Nat} (h : lo' ≤ lo) (ha : above lo st = true) : above lo' st = true := by
  cases st with
  | nil => rfl
  | cons p rest =>
    obtain ⟨a, v⟩ := p
    simp only [above, Bool.and_eq_true, decide_eq_true_eq] at ha ⊢
    exact ⟨Nat.le_trans h ha.1, ha.2⟩

theorem above_erase {st : Store V} {lo k : Nat} (ha : above lo st = true) : above lo (erase st k) = true := by
  induction st generalizing lo with
  | nil => rfl
  | cons p rest ih =>
    obtain ⟨a, v⟩ := p
    simp only [above, Bool.and_eq_true, decide_eq_true_eq] at ha
    simp only [erase]
    split
    · exact ih (above_mono (by omega) ha.2)
    · simp only [above, Bool.and_eq_true, decide_eq_true_eq]; exact ⟨ha.1, ih ha.2⟩

theorem above_insert {st : Store V} {lo k : Nat} {v : V} (hk : lo ≤ k) (ha : above lo st = true) :
    above lo (insert st k v) = true := by
  induction st generalizing lo with
  | nil => simp [insert, above, hk]
  | cons p rest ih =>
    obtain ⟨a, x⟩ := p
    simp only [above, Bool.and_eq_true, decide_eq_true_eq] at ha
    simp only [insert]
    split
    · simp only [above, Bool.and_eq_true, decide_eq_true_eq]
      exact ⟨ha.1, ih (by omega) ha.2⟩
    · split
      · rename_i h; subst h
        simp only [above, Bool.and_eq_true, decide_eq_true_eq]; exact ha
      · simp only [above, Bool.and_eq_true, decide_eq_true_eq]
        exact ⟨hk, by omega, ha.2⟩

theorem all_erase {st : Store V} {k : Nat} {p : Nat × V → Bool} (h : st.all p = true) : (erase st k).all p = true := by
  induction st with
  | nil => rfl
  | cons q rest ih =>
    obtain ⟨a, v⟩ := q
    simp only [List.all_cons, Bool.and_eq_true] at h
    simp only [erase]
    split
    · exact ih h.2
    · simp only [List.all_cons, Bool.and_eq_true]; exact ⟨h.1, ih h.2⟩

theorem all_insert {st : Store V} {k : Nat} {v : V} {p : Nat × V → Bool} (hv : p (k, v) = true) (h : st.all p = true) :
    (insert st k v).all p = true := by
  induction st with
  | nil => simp [insert, hv]
  | cons q rest ih =>
    obtain ⟨a, x⟩ := q
    simp only [List.all_cons, Bool.and_eq_true] at h
    simp only [insert]
    split
    · simp only [List.all_cons, Bool.and_eq_true]; exact ⟨h.1, ih h.2⟩
    · split <;> simp only [List.all_cons, Bool.and_eq_true]
      · exact ⟨hv, h.2⟩
      · exact ⟨hv, h.1, h.2⟩

/-- A write keeps the canonical form. -/
theorem wf_set [DecidableEq V] {st : Store V} (k : Nat) (v : V) (h : wf dflt st = true) :
    wf dflt (set dflt st k v) = true := by
  simp only [wf, Bool.and_eq_true] at h ⊢
  unfold set
  split
  · exact ⟨above_erase h.1, all_erase h.2⟩
  · rename_i hv
    exact ⟨above_insert (Nat.zero_le k) h.1, all_insert (by simpa using hv) h.2⟩

/-- So does an erasure. -/
theorem wf_erase [DecidableEq V] {st : Store V} (k : Nat) (h : wf dflt st = true) : wf dflt (erase st k) = true := by
  simp only [wf, Bool.and_eq_true] at h ⊢
  exact ⟨above_erase h.1, all_erase h.2⟩

theorem above_filter {st : Store V} {lo : Nat} (p : Nat × V → Bool) (ha : above lo st = true) :
    above lo (st.filter p) = true := by
  induction st generalizing lo with
  | nil => rfl
  | cons q st ih =>
    obtain ⟨k, v⟩ := q
    simp only [above, Bool.and_eq_true] at ha
    cases hp : p (k, v) with
    | true => simp only [List.filter_cons, hp, if_true, above, Bool.and_eq_true]; exact ⟨ha.1, ih ha.2⟩
    | false =>
      simp only [List.filter_cons, hp, Bool.false_eq_true, if_false]
      exact above_mono (by have := ha.1; simp at this; omega) (ih ha.2)

/-- Entries may be removed. -/
theorem wf_filter [DecidableEq V] {st : Store V} (p : Nat × V → Bool) (h : wf dflt st = true) :
    wf dflt (st.filter p) = true := by
  simp only [wf, Bool.and_eq_true] at h ⊢
  refine ⟨above_filter p h.1, ?_⟩
  simp only [List.all_eq_true] at h ⊢
  exact fun q hq => h.2 q (List.mem_of_mem_filter hq)

theorem wf_setList [DecidableEq V] (vs : List V) {st : Store V} (k : Nat) (h : wf dflt st = true) :
    wf dflt (setList dflt st k vs) = true := by
  induction vs generalizing st k with
  | nil => exact h
  | cons v vs ih => exact ih (k + 1) (wf_set k v h)

end Store

namespace Mem

theorem read_write_same (m : Mem) (a : Nat) (b : Byte) : (m.write a b).read a = b :=
  Store.get_set_same m a b

theorem read_write_ne (m : Mem) {a a' : Nat} (b : Byte) (h : a' ≠ a) : (m.write a b).read a' = m.read a' :=
  Store.get_set_ne m b h

theorem wf_write {m : Mem} (a : Nat) (b : Byte) (h : m.wf) : (m.write a b).wf := Store.wf_set a b h

theorem wf_writeLE (n : Nat) {m : Mem} (a v : Nat) (h : m.wf) : (m.writeLE a n v).wf := by
  induction n generalizing m a v with
  | zero => exact h
  | succ n ih => exact ih (a + 1) (v / 256) (wf_write a _ h)

theorem wf_writeBytes (bs : List Byte) {m : Mem} (a : Nat) (h : m.wf) : (m.writeBytes a bs).wf := by
  induction bs generalizing m a with
  | nil => exact h
  | cons b bs ih => exact ih (a + 1) (wf_write a b h)

/-- Bytes outside the written ones read as before. -/
theorem read_writeLE_outside (n : Nat) (m : Mem) (a v : Nat) {x : Nat} (h : x < a ∨ a + n ≤ x) :
    (m.writeLE a n v).read x = m.read x := by
  induction n generalizing m a v with
  | zero => rfl
  | succ n ih =>
    simp only [writeLE]
    rw [ih (m.write a _) (a + 1) (v / 256) (by omega), read_write_ne m _ (by omega)]

/-- A stored value reads back modulo its size. -/
theorem readLE_writeLE (n : Nat) (m : Mem) (a v : Nat) : (m.writeLE a n v).readLE a n = v % 256 ^ n := by
  induction n generalizing m a v with
  | zero => simp [readLE, Nat.mod_one]
  | succ n ih =>
    simp only [writeLE, readLE]
    rw [ih, read_writeLE_outside n _ (a + 1) _ (by omega), read_write_same]
    simp only [BitVec.toNat_ofNat, Nat.reducePow]
    rw [Nat.pow_succ', Nat.mod_mul]

/-- Bytes outside a stored list read as before. -/
theorem read_writeBytes_outside (bs : List Byte) (m : Mem) (a : Nat) {x : Nat} (h : x < a ∨ a + bs.length ≤ x) :
    (m.writeBytes a bs).read x = m.read x := by
  induction bs generalizing m a with
  | nil => rfl
  | cons b bs ih =>
    simp only [List.length_cons] at h
    simp only [writeBytes]
    rw [ih (m.write a b) (a + 1) (by omega), read_write_ne m b (by omega)]

/-- A stored list of bytes reads back. -/
theorem readBytes_writeBytes (bs : List Byte) (m : Mem) (a : Nat) : (m.writeBytes a bs).readBytes a bs.length = bs := by
  induction bs generalizing m a with
  | nil => rfl
  | cons b bs ih =>
    simp only [writeBytes, List.length_cons, readBytes]
    rw [read_writeBytes_outside bs _ (a + 1) (by omega), read_write_same, ih]

/-- Reading a range depends on its bytes alone. -/
theorem readBytes_congr {m m' : Mem} {a : Nat} (n : Nat) (h : ∀ x, a ≤ x → x < a + n → m.read x = m'.read x) :
    m.readBytes a n = m'.readBytes a n := by
  induction n generalizing a with
  | zero => rfl
  | succ n ih =>
    simp only [readBytes]
    rw [h a (by omega) (by omega), ih fun x h1 h2 => h x (by omega) (by omega)]

end Mem

end Sys2Proof.Machine
end

