-- ==== Sys2Proof/Laws/Regs.lean ====
section
/-!
SUPPORT. Laws of registers, fields and the units held in stores: a read after a write of the same, and of another.
-/

namespace Sys2Proof.Machine

/-! ### Fields of a word -/

/-- A bit of a word with a field replaced. -/
theorem getLsbD_fieldSet (w : Word) (lo width v i : Nat) :
    (fieldSet w lo width v).getLsbD i =
      (decide (i < 32) && if lo ≤ i ∧ i < lo + width then v.testBit (i - lo) else w.getLsbD i) := by
  unfold fieldSet
  simp only [BitVec.getLsbD_or, BitVec.getLsbD_and, BitVec.getLsbD_not, BitVec.getLsbD_shiftLeft, BitVec.getLsbD_ofNat,
    Nat.testBit_two_pow_sub_one, Nat.testBit_mod_two_pow]
  by_cases h32 : i < 32
  · by_cases hlo : i < lo
    · have : ¬(lo ≤ i) := by omega
      simp [h32, hlo, this]
    · have h1 : lo ≤ i := by omega
      have h2 : i - lo < 32 := by omega
      by_cases hw : i < lo + width
      · have h3 : i - lo < width := by omega
        simp [h32, hlo, h1, h2, h3, hw]
      · have h3 : ¬(i - lo < width) := by omega
        simp [h32, hlo, h1, h2, h3, hw]
  · have : w.getLsbD i = false := BitVec.getLsbD_of_ge w i (by omega)
    simp [h32, this]

theorem testBit_fieldGet (w : Word) (lo width i : Nat) :
    (fieldGet w lo width).testBit i = (decide (i < width) && w.getLsbD (lo + i)) := by
  simp only [fieldGet, BitVec.testBit_toNat, BitVec.getLsbD_extractLsb']

theorem fieldGet_fieldSet_same (w : Word) (lo width v : Nat) (h : lo + width ≤ 32) :
    fieldGet (fieldSet w lo width v) lo width = v % 2 ^ width := by
  apply Nat.eq_of_testBit_eq
  intro i
  rw [testBit_fieldGet, getLsbD_fieldSet, Nat.testBit_mod_two_pow]
  by_cases hi : i < width
  · have h1 : lo + i < 32 := by omega
    simp [hi, h1]
  · simp [hi]

theorem fieldGet_fieldSet_apart (w : Word) (lo width v lo' width' : Nat) (h : lo + width ≤ lo' ∨ lo' + width' ≤ lo) :
    fieldGet (fieldSet w lo width v) lo' width' = fieldGet w lo' width' := by
  apply Nat.eq_of_testBit_eq
  intro i
  rw [testBit_fieldGet, testBit_fieldGet, getLsbD_fieldSet]
  by_cases hi : i < width'
  · have h1 : ¬(lo ≤ lo' + i ∧ lo' + i < lo + width) := by omega
    by_cases h32 : lo' + i < 32
    · simp [hi, h1, h32]
    · have : w.getLsbD (lo' + i) = false := BitVec.getLsbD_of_ge w _ (by omega)
      simp [h32, this]
  · simp [hi]

/-- Two fields share no bit. -/
def Fld.apart (f g : Fld) : Prop := f.reg ≠ g.reg ∨ f.lo + f.width ≤ g.lo ∨ g.lo + g.width ≤ f.lo

namespace State

/-! ### Registers -/

@[simp] theorem reg_setReg_same (s : State) (a : Nat) (v : Word) : (s.setReg a v).reg a = v :=
  Store.get_set_same s.regs a v

theorem reg_setReg_ne (s : State) {a a' : Nat} (v : Word) (h : a' ≠ a) : (s.setReg a v).reg a' = s.reg a' :=
  Store.get_set_ne s.regs v h

theorem reg_setFld_ne (s : State) {f : Fld} {a : Nat} (v : Nat) (h : a ≠ f.reg) : (s.setFld f v).reg a = s.reg a :=
  reg_setReg_ne s _ h

theorem fld_setFld_same (s : State) (f : Fld) (v : Nat) (h : f.lo + f.width ≤ 32) :
    (s.setFld f v).fld f = v % 2 ^ f.width := by
  simp only [fld, setFld, reg_setReg_same]
  exact fieldGet_fieldSet_same _ _ _ _ h

theorem fld_setFld_apart (s : State) {f g : Fld} (v : Nat) (h : f.apart g) : (s.setFld f v).fld g = s.fld g := by
  by_cases hr : g.reg = f.reg
  · have h' := h.resolve_left (fun hn => hn hr.symm)
    simp only [fld, setFld, hr, reg_setReg_same]
    exact fieldGet_fieldSet_apart _ _ _ _ _ _ h'
  · simp only [fld, setFld, reg_setReg_ne s _ hr]

theorem fld_setReg_ne (s : State) {a : Nat} {g : Fld} (v : Word) (h : g.reg ≠ a) : (s.setReg a v).fld g = s.fld g := by
  simp only [fld, reg_setReg_ne s v h]

/-- What the cycle has set is beside the registers. -/
@[simp] theorem fld_stampSet (s : State) (a : Nat) (w : Word) (f : Fld) : (s.stampSet a w).fld f = s.fld f := rfl

theorem flag_setFlag_same (s : State) (f : Fld) (b : Bool) (h : f.lo + f.width ≤ 32) (hw : f.width = 1) :
    (s.setFlag f b).flag f = b := by
  cases b <;> simp [flag, setFlag, fld_setFld_same s f _ h, hw, bit]

theorem flag_setFlag_apart (s : State) {f g : Fld} (b : Bool) (h : f.apart g) : (s.setFlag f b).flag g = s.flag g := by
  simp only [flag, setFlag, fld_stampSet, fld_setFld_apart s _ h]

/-- A register read looks at the registers and the variant alone. -/
theorem reg_congr {s t : State} (hr : t.regs = s.regs) (hv : t.variant = s.variant) (a : Nat) : t.reg a = s.reg a := by
  simp [reg, hr, hv]

theorem fld_congr {s t : State} (hr : t.regs = s.regs) (hv : t.variant = s.variant) (f : Fld) : t.fld f = s.fld f := by
  simp [fld, reg_congr hr hv]

/-! ### Units -/

@[simp] theorem eng_setEng_same (s : State) (e : Nat) (x : Engine) : (s.setEng e x).eng e = x :=
  Store.get_set_same s.engines e x

theorem eng_setEng_ne (s : State) {e e' : Nat} (x : Engine) (h : e' ≠ e) : (s.setEng e x).eng e' = s.eng e' :=
  Store.get_set_ne s.engines x h

@[simp] theorem eng_setReg (s : State) (a : Nat) (v : Word) (e : Nat) : (s.setReg a v).eng e = s.eng e := rfl
@[simp] theorem eng_setFld (s : State) (f : Fld) (v e : Nat) : (s.setFld f v).eng e = s.eng e := rfl
@[simp] theorem reg_setEng (s : State) (e : Nat) (x : Engine) (a : Nat) : (s.setEng e x).reg a = s.reg a := rfl
@[simp] theorem fld_setEng (s : State) (e : Nat) (x : Engine) (f : Fld) : (s.setEng e x).fld f = s.fld f := rfl
@[simp] theorem flag_setEng (s : State) (e : Nat) (x : Engine) (f : Fld) : (s.setEng e x).flag f = s.flag f := rfl
@[simp] theorem fld_notify (s : State) (n : Notice) (f : Fld) : (s.notify n).fld f = s.fld f := rfl
@[simp] theorem fld_emit (s : State) (o : Out) (f : Fld) : (s.emit o).fld f = s.fld f := rfl
@[simp] theorem eng_notify (s : State) (n : Notice) (e : Nat) : (s.notify n).eng e = s.eng e := rfl
@[simp] theorem eng_emit (s : State) (o : Out) (e : Nat) : (s.emit o).eng e = s.eng e := rfl

@[simp] theorem dist_setDist_same (s : State) (d : Nat) (x : District) : (s.setDist d x).dist d = x :=
  Store.get_set_same s.districts d x

theorem dist_setDist_ne (s : State) {d d' : Nat} (x : District) (h : d' ≠ d) : (s.setDist d x).dist d' = s.dist d' :=
  Store.get_set_ne s.districts x h

@[simp] theorem port_setPort_same (s : State) (n : Nat) (x : Port) : (s.setPort n x).port n = x :=
  Store.get_set_same s.ports n x

@[simp] theorem can_setCan_same (s : State) (n : Nat) (x : Can) : (s.setCan n x).can n = x :=
  Store.get_set_same s.cans n x

@[simp] theorem ser_setSer_same (s : State) (n : Nat) (x : Serial) : (s.setSer n x).ser n = x :=
  Store.get_set_same s.serials n x

@[simp] theorem channel_setChannel_same (s : State) (c : Nat) (x : Channel) : (s.setChannel c x).channel c = x :=
  Store.get_set_same s.channels c x

end State

end Sys2Proof.Machine
end

