-- ==== Sys2Proof/Machine/Pins.lean ====
section
/-!
DEFINITION. The states of the pins (R67, Table MODE-15) as what they are of the state: the mode, the reset and the
island's outputs. The levels of a line in use (frames, characters, pulses) stand in the record of outputs.
-/

namespace Sys2Proof.Machine

/-- The groups of Table MODE-15. -/
inductive PinGroup where
  | phy | serdes | t1s | canTx | serialTx | pulse | wilern | pcie | qspi | managementSpi | sto | safeFault
  deriving DecidableEq, Repr

/-- What a group of pins does. -/
inductive PinState where
  /-- High-impedance, or a transmitter that is off. -/
  | off
  | active
  /-- Link up; only the frames of R68 are sent. -/
  | timeFramesOnly
  /-- Receiving alone: no beacon, no acknowledge or error frame, TX idle or recessive and DE low. -/
  | receiveOnly
  /-- Active once the endpoint is ready for link training (R56). -/
  | afterLinkTraining
  /-- Active while the device boots from the flash. -/
  | whileBooting
  /-- STO outputs de-energised. -/
  | deEnergised
  /-- As the island drives them: the STO outputs by bit, and SAFE_FAULT_N. -/
  | island (drive : Nat) (faultN : Bool)
  deriving DecidableEq, Repr

namespace State

/-- Table MODE-15: the state of a group of pins. -/
def pins (s : State) (g : PinGroup) : PinState :=
  let m := if s.inReset then Mode.boot else s.mode
  let byIsland := PinState.island s.island.drive s.island.faultN
  let network (inLoad inCommission : PinState) : PinState :=
    if m = Mode.boot then .off else if m = Mode.load then inLoad else if m = Mode.commission then inCommission else .active
  match g with
  | .phy | .serdes => network .off .timeFramesOnly
  | .t1s | .canTx | .serialTx => network .off .receiveOnly
  | .pulse => network .off .active
  | .wilern => network .active .active
  | .pcie => if m = Mode.boot then .afterLinkTraining else .active
  | .qspi => if m = Mode.boot then .whileBooting else .off
  | .managementSpi => .active
  | .sto => if m = Mode.boot ∨ m = Mode.load ∨ m = Mode.safeHold then .deEnergised else byIsland
  | .safeFault => if m = Mode.boot then .off else byIsland

/-- The TX ball of a serial line (Tables SER-1 and MODE-15): high-impedance until COMMISSION, idle high unless the line is
ACTIVE; DE stands in the line's state. -/
def serialTxBall (s : State) (n : Nat) : PinState :=
  match s.pins .serialTx with
  | .off => .off
  | _ => if s.fld (Fld.SER_STAT_OPSTATE n) = 2 then .active else .receiveOnly

/-- The CAN TX ball of a controller (Table CAN-2): high-impedance until COMMISSION, then driven recessive unless the
controller is in NORMAL; INTEGRATING sends nothing yet. -/
def canTxBall (s : State) (n : Nat) : PinState :=
  match s.pins .canTx with
  | .off => .off
  | _ => if s.fld (Fld.CAN_STAT_OPSTATE n) = 3 then .active else .receiveOnly

end State

end Sys2Proof.Machine
end

