-- ==== Sys2Proof/WellFormed.lean ====
section
/-!
DEFINITION. The commands whose operands name something the table's rows can name: numbers of units within the
largest variant (R1), and values within their fields. No meaning rests on it: a command that is not well-formed
finds no such unit and leaves the state as it is (log entry 7).
-/

namespace Sys2Proof

/-- Engines 0–95 (R32). -/
def isEngine (e : Nat) : Bool := decide (e < 96)
/-- Districts D0–D7. -/
def isDistrict (d : Nat) : Bool := decide (d < 8)
/-- Ports P0–P33. -/
def isPort (n : Nat) : Bool := decide (n < 34)
/-- Controllers C0–C15. -/
def isCan (n : Nat) : Bool := decide (n < 16)
/-- Lines S0–S15. -/
def isSerial (n : Nat) : Bool := decide (n < 16)
/-- Wilern ports W0 and W1. -/
def isWilern (n : Nat) : Bool := decide (n < 2)
/-- Event lines, doorbell bits and CAN transmit objects. -/
def isLine (n : Nat) : Bool := decide (n < 32)
/-- Mailbox channels 0–63. -/
def isChannel (c : Nat) : Bool := decide (c < 64)
/-- Offsets of BAR0. -/
def isOffset (a : Nat) : Bool := decide (a < 0x4000000)
/-- 32-bit values. -/
def isWord (v : Nat) : Bool := decide (v < 2 ^ 32)
/-- Engines of a district. -/
def isStation (l : Nat) : Bool := decide (l < 12)
/-- Time domains A and B, and PPS inputs. -/
def isDomain (x : Nat) : Bool := decide (x < 2)
/-- Clock domains of SYS_CLK_STAT, and FCLK. -/
def isClock (k : Nat) : Bool := decide (k < 7)
/-- Twin pairs. -/
def isPair (p : Nat) : Bool := decide (p < 48)
/-- Members of a pair. -/
def isMember (m : Nat) : Bool := decide (m < 2)
/-- Physical functions 0–6. -/
def isFunction (f : Nat) : Bool := decide (f < 7)
/-- Image transaction slots. -/
def isTxn (t : Nat) : Bool := decide (t < 64)
/-- Points of the process image. -/
def isPoint (p : Nat) : Bool := decide (p < 33554432)
/-- Bytes of a register access (R12). -/
def isAccess (n : Nat) : Bool := n == 1 || n == 2 || n == 4

/-- Chips of a ring (R178). -/
def isChip (c : Nat) : Bool := decide (c < 8)
/-- Static slots of the schedule; in a claim 63 names any spare (Table AVE-14). -/
def isSlot (k : Nat) : Bool := decide (k < 64)
/-- Rings of a gateway: two TX rings and the RX ring. -/
def isRing (q : Nat) : Bool := decide (q < 3)
/-- Destinations of the Crossing that take copies: ports, districts, the host and chips (Table XING-1). -/
def isDestination (d : Nat) : Bool := decide (d < 51)
/-- Queues of the Crossing. -/
def isQueue (q : Nat) : Bool := decide (q < 512)
/-- Receive objects of a CAN controller (R299). -/
def isRxObject (o : Nat) : Bool := decide (o < 256)
/-- Pulse outputs, axes with their STO outputs, and encoders. -/
def isQuad (k : Nat) : Bool := decide (k < 4)
/-- Pins of the process image, and proxy entries of a district. -/
def isPin (k : Nat) : Bool := decide (k < 8)
/-- Ledger entries of a reduction unit. -/
def isLedger (n : Nat) : Bool := decide (n < 16384)
/-- Identity blocks of the mailbox unit. -/
def isBlock (k : Nat) : Bool := decide (k < 113)
/-- Connections of the safety island. -/
def isConnection (c : Nat) : Bool := decide (c < 16)
/-- Supply monitors. -/
def isMonitor (m : Nat) : Bool := decide (m < 3)
/-- Tags of a command. -/
def isTag (t : Nat) : Bool := decide (t < 256)
/-- Local IDs of nodes, and roles of a package. -/
def isNibble (n : Nat) : Bool := decide (n < 16)
/-- Synchronised event lines: kinds of 64, up to the PPS inputs' (R27). -/
def isSync (l : Nat) : Bool := decide (l < 1344)
/-- Units with a configuration transaction. -/
def isUnit : TxnUnit → Bool
  | .xing => true
  | .ave => true
  | .rnd d => isDistrict d
  | .eth n => isPort n
  | .sru d => isDistrict d

/-- A well-formed command. -/
def wellFormed (i : Instr) : Bool :=
  match i with
  | .absentWindowAccess _ a _ => isOffset a
  | .registerWrite _ a n v => isOffset a && isWord v && isAccess n
  | .shadowWrite _ a _ => isOffset a
  | .powerOnReset => true
  | .resetPin _ => true
  | .brownOut => true
  | .supervisorLockstepMismatch => true
  | .supervisorWatchdogExpiry => true
  | .perstN => true
  | .hotReset => true
  | .functionLevelReset f => isFunction f
  | .clockLossOfLock k => isClock k
  | .clockLockReturn k => isClock k
  | .forcedLoad k => isClock k
  | .synchroniserAcknowledge l => isSync l
  | .bootAttempt _ _ => true
  | .hostPush _ => true
  | .supervisorStart => true
  | .enterLoad _ tag _ => isTag tag
  | .enterCommission _ tag _ => isTag tag
  | .enterCommissionComplete => true
  | .enterRun _ tag _ => isTag tag
  | .enterRunEvaluation => true
  | .safeAck _ tag _ => isTag tag
  | .softReset _ tag _ => isTag tag
  | .safeStopReport => true
  | .begin u _ => isUnit u
  | .commit u _ => isUnit u
  | .rollback u _ => isUnit u
  | .txnApply u => isUnit u
  | .nop e => isEngine e
  | .mov e _ _ _ => isEngine e
  | .movi e _ _ _ => isEngine e
  | .add e _ _ _ _ => isEngine e
  | .sub e _ _ _ _ => isEngine e
  | .addc e _ _ _ _ _ => isEngine e
  | .subb e _ _ _ _ _ => isEngine e
  | .addv e _ _ _ _ _ => isEngine e
  | .subv e _ _ _ _ _ => isEngine e
  | .mul e _ _ _ _ => isEngine e
  | .mulh e _ _ _ _ => isEngine e
  | .mulhu e _ _ _ _ => isEngine e
  | .div e _ _ _ _ => isEngine e
  | .divu e _ _ _ _ => isEngine e
  | .rem e _ _ _ _ => isEngine e
  | .remu e _ _ _ _ => isEngine e
  | .satadd e _ _ _ _ => isEngine e
  | .neg e _ _ _ => isEngine e
  | .negv e _ _ _ _ => isEngine e
  | .addi e _ _ _ _ => isEngine e
  | .andi e _ _ _ _ _ => isEngine e
  | .ori e _ _ _ _ _ => isEngine e
  | .xori e _ _ _ _ _ => isEngine e
  | .shli e _ _ _ _ => isEngine e
  | .shri e _ _ _ _ => isEngine e
  | .sari e _ _ _ _ => isEngine e
  | .roli e _ _ _ _ => isEngine e
  | .roti e _ _ _ _ => isEngine e
  | .muli e _ _ _ _ _ => isEngine e
  | .ceqi e _ _ _ _ _ => isEngine e
  | .clti e _ _ _ _ _ => isEngine e
  | .cltui e _ _ _ _ _ => isEngine e
  | .sataddi e _ _ _ _ _ => isEngine e
  | .and e _ _ _ _ => isEngine e
  | .or e _ _ _ _ => isEngine e
  | .xor e _ _ _ _ => isEngine e
  | .andn e _ _ _ _ => isEngine e
  | .not e _ _ _ => isEngine e
  | .shl e _ _ _ _ => isEngine e
  | .shr e _ _ _ _ => isEngine e
  | .sar e _ _ _ _ => isEngine e
  | .rol e _ _ _ _ => isEngine e
  | .rot e _ _ _ _ => isEngine e
  | .ceq e _ _ _ _ => isEngine e
  | .cne e _ _ _ _ => isEngine e
  | .clt e _ _ _ _ => isEngine e
  | .cltu e _ _ _ _ => isEngine e
  | .cge e _ _ _ _ => isEngine e
  | .cgeu e _ _ _ _ => isEngine e
  | .sel e _ _ _ _ _ => isEngine e
  | .bfx e _ _ _ _ => isEngine e
  | .bfi e _ _ _ _ => isEngine e
  | .clz e _ _ _ => isEngine e
  | .popc e _ _ _ => isEngine e
  | .bswap e _ _ _ => isEngine e
  | .ld e _ _ _ _ _ => isEngine e
  | .lds e _ _ _ _ _ => isEngine e
  | .st e _ _ _ _ _ => isEngine e
  | .sti e _ _ _ _ _ => isEngine e
  | .lea e _ _ _ => isEngine e
  | .b e _ => isEngine e
  | .bz e _ _ => isEngine e
  | .bnz e _ _ => isEngine e
  | .call e _ => isEngine e
  | .br e _ => isEngine e
  | .callr e _ => isEngine e
  | .ret e => isEngine e
  | .movs e _ _ _ _ => isEngine e
  | .fill e _ _ _ _ => isEngine e
  | .scan e _ _ _ _ _ => isEngine e
  | .cmps e _ _ _ _ _ => isEngine e
  | .crcs e _ _ _ _ _ => isEngine e
  | .stmp e _ _ => isEngine e
  | .tsqp e _ _ _ => isEngine e
  | .srup e _ _ => isEngine e
  | .rndrd e _ _ => isEngine e
  | .rndwr e _ _ => isEngine e
  | .rndop e _ _ => isEngine e
  | .wait e => isEngine e
  | .evt e _ _ => isEngine e
  | .fence e => isEngine e
  | .dbell e _ _ => isEngine e
  | .swp e _ _ _ _ => isEngine e
  | .cas e _ _ _ _ => isEngine e
  | .fadd e _ _ _ _ => isEngine e
  | .fand e _ _ _ _ => isEngine e
  | .fetchOr e _ _ _ _ => isEngine e
  | .fxor e _ _ _ _ => isEngine e
  | .casx e _ _ _ _ _ _ => isEngine e
  | .mfs e _ _ => isEngine e
  | .mts e _ _ => isEngine e
  | .rete e => isEngine e
  | .trap e _ => isEngine e
  | .lease e _ _ => isEngine e
  | .release e _ _ => isEngine e
  | .illegal e => isEngine e
  | .fetchAccess e => isEngine e
  | .postedStoreCompletion e _ => isEngine e
  | .heldResultArrival e _ => isEngine e
  | .eventLineArrival e n => isEngine e && isLine n
  | .eventEntry e _ => isEngine e
  | .watchdogExpiry e => isEngine e
  | .ceWdogKick _ e _ => isEngine e
  | .ceWdog _ e _ => isEngine e
  | .engineStart _ e => isEngine e
  | .engineHoldReset _ e => isEngine e
  | .leaseMessage _ => true
  | .roundStart d _ => isDistrict d
  | .roundRun d => isDistrict d
  | .roundStop d _ => isDistrict d
  | .avenueCycleStart => true
  | .staticSlot k => isSlot k
  | .slotFrameReceipt _ _ => true
  | .claimMinislot c => isChip c
  | .dynamicOffer => true
  | .ref _ port => isWilern port
  | .claim _ => true
  | .engine _ => true
  | .slice _ => true
  | .frame _ => true
  | .image _ => true
  | .mailbox _ => true
  | .lantern _ => true
  | .super _ => true
  | .aveGwPtr d q _ => isDistrict d && isRing q
  | .coldstartTimeout => true
  | .coldstartCheckEnd => true
  | .referenceMiss => true
  | .reint => true
  | .wilernEnable n => isWilern n
  | .trainingStepDone n _ => isWilern n
  | .trainingRetry n => isWilern n
  | .wilernLinkDown n => isWilern n
  | .relayFrame n o _ => isWilern n && isChip o
  | .aveClaim k l _ => isSlot k && isNibble l
  | .aveClaimRelease k l _ => isSlot k && isNibble l
  | .claimEvaluation => true
  | .claimTimeout => true
  | .receiveFrame n _ _ _ => isPort n
  | .ethRxSof n => isPort n
  | .ethTxSof n => isPort n
  | .classification => true
  | .copyEnqueue => true
  | .destinationChoice d => isDestination d
  | .transmitEnd n => isPort n
  | .gateEvent n => isPort n
  | .gateWindowClose q => isQueue q
  | .spillWriteDone q => isQueue q
  | .spillReadBack q => isQueue q
  | .oldGenerationRetire => true
  | .bankSyncDone => true
  | .xingTblRead _ => true
  | .xingTblWrite _ => true
  | .lamplighterExamine => true
  | .portEnable n _ => isPort n
  | .portDisable n _ => isPort n
  | .linkUp n _ => isPort n
  | .linkDown n => isPort n
  | .holdExpiry n => isPort n
  | .plcaCycle n => isPort n
  | .transmitOpportunity n => isPort n
  | .beaconReceipt n => isPort n
  | .beaconTimeout n => isPort n
  | .collision n _ => isPort n
  | .backoffExpiry n => isPort n
  | .rxHead n e v => isPort n && isEngine e && isWord v
  | .rxCtrl n e _ => isPort n && isEngine e
  | .txTail n e v => isPort n && isEngine e && isWord v
  | .txDescriptor d => isDistrict d
  | .alloc n e _ => isPort n && isEngine e
  | .aptA n e l _ _ => isPort n && isEngine e && isStation l
  | .thruFrame n _ => isPort n
  | .patchWindowLoad e => isEngine e
  | .patchArrival n _ _ => isPort n
  | .ethSnap n _ => isPort n
  | .canEnable n _ => isCan n
  | .canDisable n _ => isCan n
  | .integrationDone n => isCan n
  | .canSof n => isCan n
  | .frameValid n _ => isCan n
  | .objectWord0Read e n o => isEngine e && isCan n && isRxObject o
  | .objectWord19Read e n o => isEngine e && isCan n && isRxObject o
  | .canRxid n o _ _ => isCan n && isRxObject o
  | .txRequest n t _ => isCan n && isLine t
  | .txCancel n t _ => isCan n && isLine t
  | .boffRecover n _ => isCan n
  | .arbitrationChoice n => isCan n
  | .attemptEnd n _ _ => isCan n
  | .busError n _ _ _ _ => isCan n
  | .recoveryDone n => isCan n
  | .serEnable n _ _ => isSerial n
  | .characterReceived n part parity frame brk =>
    isSerial n && (part != .startBit || !(parity || frame || brk))
  | .serTxTail n e v => isSerial n && isEngine e && isWord v
  | .serRxHead n e v => isSerial n && isEngine e && isWord v
  | .characterSent n => isSerial n
  | .gapT15 n => isSerial n
  | .gapT35 n => isSerial n
  | .ssiStart n e => isSerial n && isEngine e
  | .ssiTransferDone n _ => isSerial n
  | .wurq n e v => isSerial n && isEngine e && v.toNat % 4 == 2
  | .pkgLoad _ e role tag => isEngine e && isNibble role && isTag tag
  | .pkgLoadComplete => true
  | .pkgUnload _ e tag => isEngine e && isTag tag
  | .timeInit x tag _ => isDomain x && isTag tag
  | .timeStep x tag _ => isDomain x && isTag tag
  | .timeRate x tag _ => isDomain x && isTag tag
  | .timeLock x tag _ => isDomain x && isTag tag
  | .timeUnlock x tag _ => isDomain x && isTag tag
  | .timeSwitch x tag _ => isDomain x && isTag tag
  | .timeSnap tag _ => isTag tag
  | .timeCfg _ _ => true
  | .timeDomCfg x _ => isDomain x
  | .softwareHoldoverTimeout x => isDomain x
  | .ppsEdge n _ => isDomain n
  | .ppsMissingMeasurement x => isDomain x
  | .tclkLockReturn => true
  | .repeaterRefresh => true
  | .tsqRelease d _ _ => isDistrict d
  | .timeOutArm k _ => isQuad k
  | .pulseLeadingEdge k => isQuad k
  | .pulseTrailingEdge k => isQuad k
  | .directWrite _ p _ => isPoint p
  | .writeSetAdd _ p _ => isPoint p
  | .bar2Read _ a _ => isWord a
  | .bar2Write _ a _ _ => isWord a
  | .clearSweepDone => true
  | .imgBegin _ _ => true
  | .imgCommit _ t => isTxn t
  | .commitProcessing _ => true
  | .settleComplete t => isTxn t
  | .imgRollback _ t => isTxn t
  | .pin _ => true
  | .unpin _ k => isPin k
  | .cowRecordsFreed => true
  | .cowWaitTimeout => true
  | .sampleProcessing d _ => isDistrict d
  | .sruExport _ d n => isDistrict d && isLedger n
  | .clear _ d n => isDistrict d && isLedger n
  | .latch _ d n => isDistrict d && isLedger n
  | .sruEosQRead _ d => isDistrict d
  | .sruCtrl _ d _ => isDistrict d
  | .selfCheckFailure d => isDistrict d
  | .pair _ tag => isTag tag
  | .unpair _ tag => isTag tag
  | .resync _ tag => isTag tag
  | .reclaim _ tag => isTag tag
  | .fail _ tag => isTag tag
  | .ckptLoad _ tag => isTag tag
  | .heartbeatPeriodEnd => true
  | .reclaimComplete p m => isPair p && isMember m
  | .join e => isEngine e
  | .restoreTimeout p m => isPair p && isMember m
  | .checkpointCopy => true
  | .proxySerialFlush d k => isDistrict d && isPin k
  | .wilernHeartbeatTimeout p => isPair p
  | .hostTxDescriptor => true
  | .mbxHrxHead _ _ => true
  | .mbxHtxTail _ _ => true
  | .mbxHostCfg _ _ => true
  | .mbxSupNote _ _ => true
  | .spiWrite _ a _ _ => isWord a
  | .spiRead _ a _ _ => isWord a
  | .mbxOpen _ c _ _ _ _ => isChannel c
  | .close _ c => isChannel c
  | .revoke _ c => isChannel c
  | .send _ c _ _ => isChannel c
  | .ack _ c _ => isChannel c
  | .mbxAbort _ k => isBlock k
  | .mbxRing _ _ b => isLine b
  | .mbxDbmask _ _ => true
  | .islandSelfTestDone _ => true
  | .islandCycle _ _ => true
  | .safeInputSample _ _ _ => true
  | .modeMessage => true
  | .permitTimeout => true
  | .modeLineBoot => true
  | .stage => true
  | .store _ => true
  | .blackChannelPdu _ _ _ _ => true
  | .connectionLoss c => isConnection c
  | .pduResend c => isConnection c
  | .channelReopen => true
  | .darkTest k _ _ => isQuad k
  | .islandWatchdog => true
  | .osc => true
  | .lockstep => true
  | .safeLowStoreBlock _ => true
  | .brownout => true
  | .islandReset => true
  | .islandResetRelease => true
  | .supplyMonitorAssert m => isMonitor m
  | .blockRelease => true
  | .vmonUpdate _ _ _ _ => true
  | .nvRead _ _ => true
  | .nvWrite _ => true
  | .nvCopy _ _ => true
  | .rowWriteDone => true
  | .otpKey _ => true
  | .otpRevoke _ => true
  | .otpFloor _ => true
  | .otpProgramDone => true
  | .bypass => true
  | .idcode => true
  | .samplePreload => true
  | .extest => true
  | .jtagTrstN _ => true
  | .registerRead _ a n => isOffset a && isAccess n
  | .porstN => true
  | .coreResetRelease => true
  | .wurqEnd n => isSerial n
  | .ssiPauseEnd n => isSerial n
  | .rxIdleTime n => isSerial n
  | .encoderSample n _ _ _ => isQuad n
  | .slewingEnd => true

end Sys2Proof
end

