-- ==== Sys2Proof/Tests/Slice0.lean ====
section
/-!
SUPPORT. Tests by evaluation. Every theorem named `witness_…` shows a state and operands that meet the hypotheses of
the statement it is named after, and where that is short, that what the statement says holds there; the tests of
single commands take what they expect from the rules of spec/ that they name.
-/

namespace Sys2Proof.Tests

-- One evaluation at a time: each takes a thread with a large stack.
set_option Elab.async false

open Sys2Proof.Machine

/-- The command answered a next state for which `p` holds. -/
def ends (o : Answer) (p : State → Bool) : Bool :=
  match o with
  | .next t => p t
  | _ => false

/-- The state after reset with fields set. -/
def set (s : State) (l : List (Fld × Nat)) : State := l.foldl (fun s p => s.setFld p.1 p.2) s

/-- The state after reset in a mode. -/
def inMode (m : Nat) : State := State.reset.setFld Fld.SYS_MODE_MODE m

/-- Host function 0, the supervisor's firmware, and the engine of a number. -/
def host : Ident := 0
def sup : Ident := 0xF0
def engineId (e : Nat) : Ident := BitVec.ofNat 16 (0x10 + e)

/-- A running engine outside every handler, in LOAD. -/
def run (e : Nat) : State := set (inMode 1) [(Fld.CE_STAT_STATE e, 1), (Fld.CE_STAT_LEVEL e, 32)]

/-- Registers of a running engine. -/
def regs (e : Nat) (l : List (GReg × Word)) : State := l.foldl (fun s p => s.setGreg e p.1 p.2) (run e)

/-- The same with its memories, queues and special registers changed. -/
def like (s : State) (e : Nat) (f : Engine → Engine) : State := s.setEng e (f (s.eng e))

/-! ### Engine instructions -/

/-- The state of the arithmetic witnesses: g2 = 0x80000000 and g4 = 0xFFFFFFFF, with the pairs g3:g2 and g5:g4. -/
def alu : State := regs 5 [(2, 0x80000000), (3, 1), (4, 0xFFFFFFFF), (5, 0), (6, 33)]

theorem witness_arithmetic :
    (alu.ready 5 = true ∧ alu.fetched 5 4 = true ∧
      (oddReg 8 = false ∧ oddReg 2 = false ∧ oddReg 4 = false)) ∧
    -- Table ISA-7: −2^31 / −1, a division by 0, and sums that wrap or saturate
    ends (exec (.div 5 false 8 2 4) alu) (fun t => t.greg 5 8 == 0x80000000) = true ∧
    ends (exec (.rem 5 false 8 2 4) alu) (fun t => t.greg 5 8 == 0) = true ∧
    ends (exec (.divu 5 false 8 2 5) alu) (fun t => t.greg 5 8 == 0xFFFFFFFF) = true ∧
    ends (exec (.add 5 true 8 2 4) alu) (fun t => t.greg 5 8 == 0x7FFFFFFF && t.greg 5 9 == 2) = true ∧
    ends (exec (.satadd 5 false 8 2 4) alu) (fun t => t.greg 5 8 == 0x80000000) = true ∧
    ends (exec (.mulhu 5 false 8 2 4) alu) (fun t => t.greg 5 8 == 0x7FFFFFFF) = true ∧
    ends (exec (.mulh 5 false 8 2 4) alu) (fun t => t.greg 5 8 == 0) = true ∧
    ends (exec (.addc 5 false 8 9 2 4) alu) (fun t => t.greg 5 8 == 0x7FFFFFFF && t.greg 5 9 == 1) = true ∧
    ends (exec (.subb 5 false 8 8 2 4) alu) (fun t => t.greg 5 8 == 1) = true ∧
    ends (exec (.addv 5 false 8 9 2 4) alu) (fun t => t.greg 5 9 == 1) = true ∧
    ends (exec (.negv 5 false 8 9 2) alu) (fun t => t.greg 5 8 == 0x80000000 && t.greg 5 9 == 1) = true := by decide

theorem witness_logicAndCompares :
    (alu.ready 5 = true ∧ alu.fetched 5 4 = true ∧ alu.fetched 5 6 = true ∧
      (oddReg 8 = false ∧ oddReg 2 = false ∧ oddReg 4 = false)) ∧
    ends (exec (.andn 5 false 8 4 2) alu) (fun t => t.greg 5 8 == 0x7FFFFFFF) = true ∧
    ends (exec (.sel 5 false 8 5 2 4) alu) (fun t => t.greg 5 8 == 0xFFFFFFFF) = true ∧
    ends (exec (.clt 5 false 9 2 4) alu) (fun t => t.greg 5 9 == 1) = true ∧
    ends (exec (.cltu 5 true 9 4 2) alu) (fun t => t.greg 5 9 == 1) = true ∧
    ends (exec (.ceqi 5 false 9 4 0xFFFF false) alu) (fun t => t.greg 5 9 == 1 && t.pc 5 == 4) = true ∧
    ends (exec (.ceqi 5 false 9 4 0xFFFF true) alu) (fun t => t.greg 5 9 == 0 && t.pc 5 == 5) = true := by decide

theorem witness_shiftsAndRotates :
    (alu.ready 5 = true ∧ alu.fetched 5 4 = true ∧ (oddReg 8 = false ∧ oddReg 2 = false)) ∧
    ends (exec (.shl 5 false 8 2 6) alu) (fun t => t.greg 5 8 == 0) = true ∧
    ends (exec (.sar 5 false 8 2 6) alu) (fun t => t.greg 5 8 == 0xFFFFFFFF) = true ∧
    ends (exec (.rol 5 false 8 2 6) alu) (fun t => t.greg 5 8 == 1) = true ∧
    ends (exec (.roti 5 true 8 2 33) alu) (fun t => t.greg 5 8 == 0 && t.greg 5 9 == 0xC0000000) = true := by decide

theorem witness_immediateForms :
    (alu.ready 5 = true ∧ alu.fetched 5 (immLen (.i32 0) + 1) = true ∧ alu.fetched 5 6 = true ∧
      (oddReg 8 = false ∧ oddReg 2 = false)) ∧
    ends (exec (.movi 5 true 8 (.i8 0x80 false)) alu) (fun t => t.greg 5 8 == 0xFFFFFF80 && t.greg 5 9 == 0xFFFFFFFF) = true ∧
    ends (exec (.movi 5 false 8 (.i8 0x80 true)) alu) (fun t => t.greg 5 8 == 0x80) = true ∧
    ends (exec (.addi 5 false 8 2 (.i16 0xFFFF false)) alu) (fun t => t.greg 5 8 == 0x7FFFFFFF) = true := by decide

theorem witness_bitInstructions :
    (alu.ready 5 = true ∧ alu.fetched 5 5 = true ∧ (0x1FFF#16).toNat < 0x2000 ∧ (oddReg 8 = false ∧ oddReg 2 = false)) ∧
    0x2000 ≤ (0x2000#16).toNat ∧ ends (exec (.bfi 5 true 8 2 0x2000) alu) (fun t => (t.eng 5).stack.map (·.cause) == [0x40801]) = true ∧
    ends (exec (.bfx 5 false 8 4 (4 * 64 + 30)) alu) (fun t => t.greg 5 8 == 3) = true ∧
    ends (exec (.clz 5 true 8 2) alu) (fun t => t.greg 5 8 == 31 && t.greg 5 9 == 0) = true ∧
    ends (exec (.popc 5 false 8 4) alu) (fun t => t.greg 5 8 == 32) = true ∧
    ends (exec (.bswap 5 false 8 2) alu) (fun t => t.greg 5 8 == 0x80) = true := by decide

theorem witness_branchesAndAddresses :
    (alu.ready 5 = true ∧ alu.fetched 5 6 = true) ∧
    ends (exec (.b 5 (.d16 0x7C)) alu) (fun t => t.pc 5 == 0x80) = true ∧
    ends (exec (.call 5 (.d16 0xFFFA)) alu) (fun t => t.pc 5 == 0xFFFFFFFE && t.greg 5 14 == 4) = true ∧
    ends (exec (.bz 5 5 (.d16 0x10)) alu) (fun t => t.pc 5 == 0x14) = true ∧
    ends (exec (.callr 5 14) (alu.setGreg 5 14 0x40)) (fun t => t.pc 5 == 0x40 && t.greg 5 14 == 2) = true := by decide

theorem witness_registerFile :
    ((2 : GReg) ≠ 0 ∧ (3 : GReg) ≠ 2 ∧ oddReg 2 = false ∧ oddReg 3 = true ∧ alu.ready 5 = true ∧ alu.fetched 5 4 = true) ∧
    alu.rd 5 true 2 = 0x180000000 := by decide

theorem witness_instructionFrames :
    (alu.ready 5 = true ∧ alu.fetched 5 15 = true ∧ (0x1FFF#16).toNat < 0x2000 ∧ alu.fetched 5 6 = true ∧
      (oddReg 8 = false ∧ oddReg 2 = false ∧ oddReg 4 = false)) ∧
    ends (exec (.add 5 true 8 2 4) alu) (fun t => t.greg 5 9 == 2) = true ∧
    ends (exec (.br 5 2) alu) (fun t => t.pc 5 == 0x80000000) = true := by decide

/-- Engine 5 with bytes 1, 2, 3, 0x84 at 0x100 of its data SRAM, and addresses in g2, g10 and g11. -/
def mem : State :=
  like (regs 5 [(2, 0x100), (4, 0xAABBCCDD), (10, 0x100), (11, 0x200), (12, 3), (15, 0x40)]) 5 fun x =>
    { x with data := Mem.writeBytes [] 0x100 [1, 2, 3, 0x84] }

theorem witness_localMemory :
    (mem.ready 5 = true ∧ mem.fetched 5 15 = true ∧ effAddr (mem.greg 5 2) 0 + 8 ≤ 0x10000 ∧ (2 : GReg) ≠ 15 ∧
      oddReg 4 = false ∧ (mem.eng 5).returned = none ∧ (mem.eng 5).posted = []) ∧
    -- the stack window of a base in g15
    (mem.fld (Fld.CE_STACK_BASE_BASE 5) ≤ 0x40 ∧ 0x44 ≤ mem.fld (Fld.CE_STACK_LIMIT_LIMIT 5)) ∧
    ends (exec (.lds 5 .word none 8 2 .d0) mem) (fun t => t.greg 5 8 == 0x84030201) = true ∧
    ends (exec (.lds 5 .byte none 8 2 (.d8 3)) mem) (fun t => t.greg 5 8 == 0xFFFFFF84) = true ∧
    ends (exec (.ld 5 .half none 8 2 (.d8 2)) mem) (fun t => t.greg 5 8 == 0x8403) = true ∧
    ends (exec (.st 5 .half none 4 2 .d0) mem) (fun t => (t.eng 5).data.readLE 0x100 4 == 0x8403CCDD) = true ∧
    ends (exec (.sti 5 .wide none 2 0 0xFFFFFFFE) mem) (fun t =>
      (t.eng 5).data.readLE 0x100 8 == 0xFFFFFFFFFFFFFFFE) = true := by decide

/-- Engine 5 with the address of district SRAM in g2 and posted stores. -/
def sram (q : List Posted) : State :=
  like ((regs 5 [(2, 0x1000), (4, 0xAABBCCDD), (8, 0x11)]).setDist 0
    { sram := Mem.writeBytes [] 0x1000 [0x11], bad := [] }) 5 fun x => { x with posted := q }

theorem witness_postedStores :
    (Space.district ≠ .engineLocal ∧ (sram []).ready 5 = true ∧ (sram []).fetched 5 3 = true ∧ oddReg 4 = false ∧
      (sram []).checkStore 5 .district 0x1000 4 0xAABBCCDD false = none ∧ State.inAperture .district 0x1000 = false ∧
      ((sram []).eng 5).posted.length < 8) ∧
    ends (exec (.st 5 .word (some .district) 4 2 .d0) (sram [])) (fun t =>
      (t.eng 5).posted == [.store .district 0x1000 4 0xAABBCCDD] && (t.dist 0).sram.read 0x1000 == 0x11) = true ∧
    (let s := sram [.store .district 0x1000 4 7]
     s.inReset = false ∧ (s.eng 5).posted[0]? = some (.store .district 0x1000 4 7) ∧
      ((s.eng 5).posted.take 0).any (fun p => p.inSpace .district) = false ∧
      (s.setEng 5 { s.eng 5 with posted := [] }).sramWritable 0 0x1000 4 (s.engIdent 5) = true ∧
      ends (exec (.postedStoreCompletion 5 0) s) (fun t => (t.dist 0).sram.readLE 0x1000 4 == 7) = true) ∧
    -- behind an earlier store of its space it waits; in a LOCK region that another holds it is refused (R535)
    (let s := sram [.store .district 0x1000 4 7, .store .district 0x2000 4 8]
     ((s.eng 5).posted.take 1).any (fun p => p.inSpace .district) = true) ∧
    (let s := set (sram [.store .district 0x1000 4 7]) [(Fld.RND_LOCK_BASE 0 0, 0x10), (Fld.RND_LOCK_SIZE 0 0, 1),
       (Fld.RND_LOCK_ENFORCE 0 0, 1), (Fld.RND_LOCK_HOLD_HELD 0 0, 1), (Fld.RND_LOCK_HOLD_HOLDER 0 0, 0x16)]
     s.awake 5 = true ∧ ends (exec (.postedStoreCompletion 5 0) s) (fun t =>
       (t.dist 0).sram.read 0x1000 == 0x11 && (t.eng 5).refused == [⟨.district, 0x1000, 4⟩]) = true) := by decide

theorem witness_accessChecks :
    (mem.ready 5 = true ∧ mem.fetched 5 15 = true ∧ (mem.eng 5).returned = none ∧ (mem.eng 5).stack = []) ∧
    -- across the end of data SRAM, beyond LOCAL, and below the stack window
    (0x10000 < effAddr (mem.greg 5 2) (dispValue (.d32 0xFEFE)) + 4 ∧
      0x20000 < effAddr (mem.greg 5 2) (dispValue (.d32 0x1FEFE)) + 4) ∧
    ends (exec (.st 5 .word none 4 2 (.d32 0xFEFE)) mem) (fun t => t.pc 5 == 0x30 &&
      t.reg (Reg.CE_FAULT_ADDR 5) == 0xFFFE && (t.eng 5).stack.map (·.cause) == [0x4403]) = true ∧
    ends (exec (.ld 5 .word none 4 2 (.d32 0x1FEFE)) mem) (fun t => t.pc 5 == 0x30 && t.greg 5 4 == 0xAABBCCDD) = true ∧
    (let s := set mem [(Fld.CE_STACK_BASE_BASE 5, 0x80)]
     effAddr (s.greg 5 15) 0 < s.fld (Fld.CE_STACK_BASE_BASE 5) ∧
     ends (exec (.ld 5 .word none 4 15 .d0) s) (fun t => t.pc 5 == 0x50) = true) ∧
    ends (exec (.ld 5 .word (some .image) 4 2 (.d8 2)) mem) (fun t => t.pc 5 == 0x40 &&
      (t.eng 5).stack.map (·.cause) == [0x4204]) = true ∧
    (mem.variant.points * 16 < effAddr (mem.greg 5 2) (dispValue (.d32 0x20000000)) + 4) ∧
    ends (exec (.ld 5 .word (some .image) 4 2 (.d32 0x20000000)) mem) (fun t => t.pc 5 == 0x30) = true := by decide

theorem witness_atomicGroup :
    ((sram []).ready 5 = true ∧ (sram []).fetched 5 15 = true ∧ (oddReg 8 = false ∧ oddReg 4 = false) ∧
      ((sram []).eng 5).returned = none ∧ ((sram []).eng 5).posted = [] ∧ 0x1000 + 8 ≤ 0x400000 ∧
      (sram []).sramBad 0 0x1000 8 = false ∧ (sram []).sramWritable 0 0x1000 8 ((sram []).engIdent 5) = true) ∧
    ends (exec (.fadd 5 false 8 4 2) (sram [])) (fun t =>
      t.greg 5 8 == 0x11 && t.sramRead 0 0x1000 4 == 0xAABBCCEE) = true ∧
    ends (exec (.cas 5 false 8 4 2) (sram [])) (fun t =>
      t.greg 5 8 == 0x11 && t.sramRead 0 0x1000 4 == 0xAABBCCDD) = true ∧
    ends (exec (.cas 5 false 4 8 2) (sram [])) (fun t => t.greg 5 4 == 0x11 && t.sramRead 0 0x1000 4 == 0x11) = true ∧
    ends (exec (.casx 5 true 8 4 2 0 0x11) (sram [])) (fun t => t.sramRead 0 0x1000 8 == 0xAABBCCDD) = true := by decide

theorem witness_stringElements :
    (mem.ready 5 = true ∧ mem.fetched 5 15 = true ∧ (mem.eng 5).returned = none ∧
      stringReg 8 = false ∧ stringReg 4 = false ∧ (3 : Nat) < 4 ∧ (mem.greg 5 10).toNat + 4 ≤ 0x10000 ∧
      (mem.greg 5 11).toNat + 4 ≤ 0x10000 ∧ (8 : GReg) ≠ 0 ∧ mem.greg 5 12 ≠ 0 ∧ mem.greg 5 12 ≠ 1 ∧
      (mem.setGreg 5 12 0).greg 5 12 = 0) ∧
    ends (exec (.movs 5 .word .rep none .engineLocal) mem) (fun t =>
      t.pc 5 == 0 && t.greg 5 12 == 2 && (t.eng 5).data.readLE 0x200 4 == 0x84030201) = true ∧
    ends (exec (.scan 5 .byte .once none 8 10) (mem.setGreg 5 10 0x103)) (fun t => t.greg 5 8 == 0) = true := by decide

theorem witness_stringElements_crc :
    ends (exec (.crcs 5 .byte .once none 8 2) mem) (fun t =>
      (t.greg 5 8).toNat == mem.crcByte 5 2 0 1 && t.greg 5 10 == 0x101) = true := by decide

theorem witness_crcCheckValues : (95 : Nat) < 96 ∧ State.reset.crcByte 5 3 0xFFFF 0x31 = 0xC782 := by decide

theorem witness_districtInstructions :
    (let s := regs 5 [(2, 0x100)]
     s.ready 5 = true ∧ s.fetched 5 3 = true ∧ (8 : GReg) ≠ 0 ∧ s.fld (Fld.TSQ_STAT_COUNT 0) < 1024 ∧
      s.variant.hasSru = true ∧ (s.greg 5 2).toNat + 20 ≤ 0x10000 ∧ (s.sru 0).inq.length < 64 ∧ (63#8).toNat < 64 ∧
      ends (exec (.tsqp 5 8 2 2) s) (fun t => t.fld (Fld.TSQ_STAT_COUNT 0) == 1 && t.pc 5 == 3) = true ∧
      ends (exec (.srup 5 8 2) s) (fun t => (t.sru 0).inq == [[0, 0, 0, 0, 0]]) = true ∧
      -- engine 11 of the same district has put its sample first, in this cycle
      ends (exec (.srup 5 8 2) { s.setSru 0 { inq := [[9]] } with now := { samplers := [11] } }) (fun t =>
        (t.sru 0).inq == [[0, 0, 0, 0, 0], [9]]) = true) ∧
    1024 ≤ (set (run 5) [(Fld.TSQ_STAT_COUNT 0, 1024)]).fld (Fld.TSQ_STAT_COUNT 0) ∧
    64 ≤ (((run 5).setSru 0 { inq := List.replicate 64 [] }).sru 0).inq.length := by decide

/-- Engine 5 with a pending operation on commons word 48 of its station. -/
def commons (o : Option PendOp) : State :=
  (regs 5 [(2, 7)]).setDist 0 { pendOp := Store.set (fun _ => none) [] (6 * 64 + 48) o }

theorem witness_roundWrites :
    ((commons none).ready 5 = true ∧ (commons none).fetched 5 4 = true ∧ (commons none).mayWriteWord 0 6 6 = true ∧
      (commons none).mayWriteWord 0 6 20 = false ∧ Store.get (fun _ => none) ((commons none).dist 0).pendOp (6 * 64 + 48) = none ∧
      (commons none).fld (Fld.RND_FAULT_OP_OVR 0) = 0) ∧
    ends (exec (.rndwr 5 2 6) (commons none)) (fun t =>
      Store.get (fun _ => none) (t.dist 0).pendW (6 * 64 + 6) == some 7) = true ∧
    ends (exec (.rndop 5 2 (48 + 0x200)) (commons (some ⟨.add, 5⟩))) (fun t =>
      Store.get (fun _ => none) (t.dist 0).pendOp (6 * 64 + 48) == some ⟨.add, 12⟩) = true ∧
    ends (exec (.rndop 5 2 (48 + 0x200)) (commons (some ⟨.or, 5⟩))) (fun t =>
      Store.get (fun _ => none) (t.dist 0).pendOp (6 * 64 + 48) == some ⟨.add, 7⟩ &&
        t.fld (Fld.RND_FAULT_OP_OVR 0) == 1) = true := by decide

theorem witness_systemInstructions :
    (let s := set (regs 5 [(2, 3)]) [(Fld.CE_STAT_STATE 3, 2)]
     s.ready 5 = true ∧ s.fetched 5 4 = true ∧ (s.eng 5).posted = [] ∧ (31#8).toNat < 32 ∧ (s.greg 5 2).toNat < 12 ∧
      s.engState 3 ≠ 0 ∧ s.targetPresent ((s.greg 5 2).setWidth 16) = true ∧ (s.eng 5).stack.length < 8 ∧
      s.innermost 5 = 0 ∧
      ends (exec (.evt 5 2 31) s) (fun t => (t.eng 3).evtPend == 0x80000000) = true ∧
      ends (exec (.wait 5) s) (fun t => t.engState 5 == 2) = true ∧
      ends (exec (.dbell 5 2 9) s) (fun t => (t.eng 5).posted == [.doorbell 3 9]) = true ∧
      ends (exec (.trap 5 0xAB) s) (fun t => t.pc 5 == 0x70 && t.level 5 == 32 &&
        (t.eng 5).stack.map (fun r => (r.retPC, r.cause)) == [(4, 0xAB000007)]) = true) := by decide

/-- A saved entry, and one whose load of district SRAM has yet to arrive. -/
def record : Record :=
  { retPC := 0x40, cause := 1, g13 := 9, level := 32, vector := 1, held := [], abandoned := false, yield := false }
def waiting : Record := { record with vector := 0x13, held := [⟨.load .district 0x1000 4, none, false⟩] }

theorem witness_specialRegisters :
    (let s := like (regs 5 [(2, 0x55)]) 5 fun x => { x with stack := [record], evtPend := 0x0F, evtMask := 0xFF }
     s.ready 5 = true ∧ s.fetched 5 3 = true ∧ (s.eng 5).stack = record :: [] ∧ (5 : Nat) < (6 : Fin 16).val ∧
      ends (exec (.mfs 5 8 4) s) (fun t => t.greg 5 8 == 0x40) = true ∧
      ends (exec (.mts 5 1 2) s) (fun t => (t.eng 5).evtPend == 0x0A) = true ∧
      ends (exec (.mts 5 1 2) { s with now := { lines := [(5, 2)] } }) (fun t => (t.eng 5).evtPend == 0x0E) = true ∧
      ends (exec (.mts 5 4 2) s) (fun t => (t.eng 5).stack.map (·.retPC) == [0x55]) = true) := by decide

/-- Engine 5 with the handle of LOCK region 63 of its district in g2. -/
def lock (l : List Lease) : State := { set (regs 5 [(2, 0x3000003F)]) [(Fld.RND_LOCK_SIZE 0 63, 1)] with leases := l }

theorem witness_leases :
    (let p := State.handleParts 0x3000003F
     (lock []).ready 5 = true ∧ (lock []).fetched 5 3 = true ∧ ((lock []).eng 5).returned = none ∧ (8 : GReg) ≠ 0 ∧
      p.1 = 3 ∧ p.2.1 = 0 ∧ (lock []).leaseRange 3 p.2.1 p.2.2 = true ∧ (lock []).leaseOf 3 p.2.1 p.2.2 = none ∧
      (lock []).explicitHeld 5 < 16) ∧
    ends (exec (.lease 5 8 2) (lock [])) (fun t => t.greg 5 8 == 0 && (t.eng 5).leaseId == 0x3000003F) = true ∧
    ((0x14 : Ident) ≠ (lock []).ident (0x10 + 5) ∧ (0x15 : Ident) = (lock []).ident (0x10 + 5)) ∧
    ends (exec (.lease 5 8 2) (lock [⟨3, 0, 63, 0x14⟩])) (fun t => t.greg 5 8 == 2) = true ∧
    ends (exec (.release 5 8 2) (lock [⟨3, 0, 63, 0x15⟩])) (fun t => t.greg 5 8 == 0 && t.leases == []) = true := by decide

/-- Engine 5 with bytes of code at 0. -/
def code (bs : List Byte) : State := like (run 5) 5 fun x => { x with instr := Mem.writeBytes [] 0 bs }

theorem witness_decoderExceptions :
    ((code []).ready 5 = true ∧ ((code []).eng 5).stack = []) ∧
    -- a reserved prefix, a fetch beyond instruction SRAM, and NOP
    ((code [0xE3]).decoded 5 = .illegal 1 0 ∧
      (like (run 5) 5 fun x => { x with pc := 0xFFFFFFF0 }).decoded 5 = .outside ∧ (code [1, 0]).decoded 5 = .valid 2) ∧
    ends (exec (.illegal 5) (code [0xE3])) (fun t => t.pc 5 == 0x10 &&
      (t.eng 5).stack.map (·.cause) == [0x101]) = true ∧
    ends (exec (.fetchAccess 5) (like (run 5) 5 fun x => { x with pc := 0x10000 })) (fun t => t.pc 5 == 0x30 &&
      t.reg (Reg.CE_FAULT_ADDR 5) == 0x10000) = true ∧
    ends (exec (.illegal 5) (code [1, 0])) (fun t => t == code [1, 0]) = true := by decide

/-- A decoder's view of a list of bytes. -/
def bytes (l : List Nat) (k : Nat) : Option Nat := l[k]?

theorem witness_decodingChecks :
    (bytes [0xE0, 0xE1] 0 = some 0xE0 ∧ decodeBytes (bytes [0xE0, 0xE1]) = .illegal 2 1) ∧
    decodeBytes (bytes [0xE9, 0xE6, 0xE0, 0xE4, 0xEC]) = .illegal 3 4 ∧
    decodeBytes (bytes [0xE4, 0xE9, 0xE6, 0xE0, 0xFF, 7]) = .illegal 6 15 ∧
    (primary 0xDF = none ∧ decodeBytes (bytes [0xDF]) = .illegal 4 0) ∧
    (alu.ready 5 = true ∧ alu.fetched 5 4 = true ∧ (alu.eng 5).stack = [] ∧ oddReg 3 = true ∧ oddReg 2 = false) ∧
    ends (exec (.add 5 true 2 2 3) alu) (fun t => (t.eng 5).stack.map (·.cause) == [0x30B01]) = true ∧
    instrOf 95 (bytes [0x11, 0x12, 0x30]) = some (.sub 95 false 1 2 3) := by decide

/-- Engine 5 running below level 32 with lines pending. -/
def events (pend : Word) : State := like (run 5) 5 fun x => { x with evtPend := pend, pc := 0x40 }

theorem witness_eventEntry :
    (let s := events 8
     s.inReset = false ∧ s.hasEngine 5 = true ∧ (3 : Nat) < 32 ∧ s.engState 5 = 1 ∧ s.eligibleLine 5 = some 3 ∧
      ((s.eng 5).watchPending = false ∧ s.leaseDue 5 = false ∧ (s.eng 5).leasePending = false ∧ (s.eng 5).refused = [] ∧
        (s.eng 5).returned = none ∧ (s.eng 5).leaseWait = none ∧ (s.eng 5).loadWait = none ∧ (s.eng 5).midRep = false) ∧
      (s.eng 5).evtPend.getLsbD 3 = true ∧ s.fld (Fld.CE_EVT_OVR_COUNT 5) < 0xFFFF ∧
      ends (exec (.eventLineArrival 5 3) s) (fun t => t.fld (Fld.CE_EVT_OVR_COUNT 5) == 1) = true ∧
      ends (exec (.eventEntry 5 none) s) (fun t => t.pc 5 == 0x130 && t.level 5 == 3 && (t.eng 5).evtPend == 0) = true) ∧
    ((events 0).eng 5).evtPend.getLsbD 31 = false ∧
    (let s := like (events 8) 5 fun x => { x with pc := 0, instr := Mem.writeBytes [] 0 [1, 0] }
     s.instrAt 5 = some (.nop 5) ∧
      ends (exec (.eventEntry 5 (some { accesses := [.load .district 0x1000 4] })) s) (fun t => (t.eng 5).stack.all fun r => !r.abandoned) = true) := by decide

theorem witness_entryAndReturn :
    ends (exec (.eventEntry 5 none) (events 8)) (fun t =>
      t.ready 5 && !((t.setGreg 5 13 77).popRecord 5).entryDue 5 &&
        ends (exec (.rete 5) (t.setGreg 5 13 77)) fun u => u.pc 5 == 0x40 && u.greg 5 13 == 0 && u.level 5 == 32) = true := by
  decide

theorem witness_return :
    (let s := like (run 5) 5 fun x => { x with stack := [record] }
     s.ready 5 = true ∧ s.fetched 5 3 = true ∧ (s.popRecord 5).entryDue 5 = false ∧
      ends (exec (.rete 5) s) (fun t => t.pc 5 == 0x40 && t.greg 5 13 == 9 && (t.eng 5).stack == []) = true) ∧
    ends (exec (.rete 5) (run 5)) (fun t => (t.eng 5).stack.map (·.cause) == [0x10D01]) = true := by decide

theorem witness_heldResultsAndWatchdog :
    (let s := like (sram []) 5 fun x => { x with stack := [waiting] }
     s.inReset = false ∧ s.engState 5 ≠ 3 ∧ (s.eng 5).returned = none ∧ (s.eng 5).stack = waiting :: [] ∧ 0x1000 + 4 ≤ 0x400000 ∧
      s.sramBad 0 0x1000 4 = false ∧
      ends (exec (.heldResultArrival 5 0) s) (fun t =>
        (t.eng 5).stack.flatMap (fun r => r.held.map (·.result)) == [some (.value 0x11)]) = true) ∧
    (let s := set (like (sram []) 5 fun x => { x with stack := [waiting] }) [(Fld.CE_STAT_STATE 5, 3)]
     s.engState 5 = 3 ∧ (s.eng 5).orphans = [] ∧ ends (exec (.heldResultArrival 5 0) s) (fun t => t == s) = true) ∧
    (let s := like (set (run 5) [(Fld.CE_WDOG_EN 5, 1)]) 5 fun x => { x with wdArmed := true }
     s.awake 5 = true ∧ s.flag (Fld.CE_WDOG_EN 5) = true ∧ (s.eng 5).wdArmed = true ∧ (s.eng 5).wdCount = 0 ∧
      ends (exec (.watchdogExpiry 5) s) (fun t => (t.eng 5).watchPending && t.engState 5 == 1) = true ∧
      ends (exec (.watchdogExpiry 5) (like s 5 fun x => { x with wdExpired := true })) (fun t =>
        t.engState 5 == 3 && t.fld (Fld.CE_STAT_HALT_CAUSE 5) == 3) = true) := by decide

theorem witness_halting :
    (let s := like (run 5) 5 fun x => { x with stack := [record] }
     1 ≤ s.innermost 5 ∧ s.innermost 5 ≤ 6 ∧ (s.exception 5 3 0 0).engState 5 = 3) ∧
    (let s := like (run 5) 5 fun x => { x with stack := List.replicate 8 waiting }
     6 < s.innermost 5 ∧ 8 ≤ (s.eng 5).stack.length ∧
      (s.exception 5 3 0 0).fld (Fld.CE_STAT_HALT_CAUSE 5) = 2) := by decide

/-! ### Registers, transactions, resets, modes -/

theorem witness_registerAccess :
    -- the windows of a small part: port P33 is absent
    (let s : State := { inMode 1 with variant := .ixd7210 }
     s.serves host = true ∧ (windowOf 0x421000).present s.variant = false ∧ 0x421000 < 2 ^ 26 ∧
      s.flag Fld.SYS_ABSENT_HIT_VALID = false ∧ (s.setFld Fld.SYS_ABSENT_HIT_VALID 1).flag Fld.SYS_ABSENT_HIT_VALID = true ∧
      ends (exec (.absentWindowAccess host 0x421000 true) s) (fun t =>
        t.fld Fld.SYS_ABSENT_HIT_OFFSET == 0x421000 && t.flag Fld.SYS_ABSENT_HIT_WRITE &&
          -- VALID written with 1 in the same cycle, before or after the access, leaves the new capture
          ends (exec (.registerWrite host Reg.SYS_ABSENT_HIT 4 0x88000000) t) fun u =>
            u.flag Fld.SYS_ABSENT_HIT_VALID && u.fld Fld.SYS_ABSENT_HIT_OFFSET == 0x421000) = true ∧
      s.now.absents = []) ∧
    (let s := inMode 1
     s.inReset = false ∧ s.reaches host = true ∧ s.readsAtOnce host = true ∧ Ident.isEngine host = false ∧ Reg.SYS_RESET_CAUSE % 4 = 0 ∧ Reg.SYS_RESET_CAUSE < 0x100000 ∧
      Reg.SYS_RESET_CAUSE ≠ Reg.SYS_MODE_CMD ∧ Reg.SYS_RESET_CAUSE ≠ Reg.SYS_PKG_CMD ∧
      Reg.SYS_RESET_CAUSE ≠ Reg.SYS_BOOT_CTRL ∧ Reg.SYS_RESET_CAUSE ≠ Reg.SYS_ABSENT_HIT ∧
      (regRow Reg.SYS_RESET_CAUSE).isSome = true ∧ (regRow Reg.SYS_ABSENT_HIT).isSome = true ∧ 2 + 2 ≤ 4 ∧
      -- a bit that hardware has set in this cycle is not cleared
      ends (exec (.registerWrite host Reg.SYS_RESET_CAUSE 4 1) (s.stampSet Reg.SYS_RESET_CAUSE 1)) (fun t =>
        t.reg Reg.SYS_RESET_CAUSE == 1) = true ∧
      ends (exec (.registerWrite host Reg.SYS_RESET_CAUSE 4 1) s) (fun t => t.reg Reg.SYS_RESET_CAUSE == 0) = true ∧
      ends (exec (.registerWrite host (Reg.SYS_RESET_CAUSE + 2) 2 1) s) (fun t =>
        t.flag Fld.SYS_MODE_RESULT_CFG_ERR && t.reg Reg.SYS_RESET_CAUSE == 1) = true) ∧
    -- a counter that this cycle has raised: the read returns the value before, and 1 is left
    (let s := (set (inMode 1) [(Fld.SYS_WRONG_STATE_CNT_COUNT, 6)]).count Fld.SYS_WRONG_STATE_CNT_COUNT
     (regRow Reg.SYS_WRONG_STATE_CNT).isSome = true ∧ s.readsAtOnce host = true ∧ s.raisedNow Reg.SYS_WRONG_STATE_CNT (0, 16) = some (6, 1) ∧
      ends (exec (.registerRead host Reg.SYS_WRONG_STATE_CNT 4) s) (fun t =>
        t.out == [.readData host Reg.SYS_WRONG_STATE_CNT 6] && t.fld Fld.SYS_WRONG_STATE_CNT_COUNT == 1) = true) ∧
    (let s : State := { inMode 1 with hostReads := [{ who := host, bar2 := true, addr := 0, bytes := 4 }] }
     s.readsAtOnce host = false ∧ Ident.isHost host = true ∧
      ends (exec (.registerRead host Reg.SYS_RESET_CAUSE 4) s) (fun t => t.hostReads.length == 2) = true) := by decide +kernel

theorem witness_engineControl :
    (let s := inMode 1
     s.serves sup = true ∧ s.hasEngine 95 = true ∧ Ident.isEngine sup = false ∧ Ident.isSup sup = true ∧
      (0x1000002#32).getLsbD 24 = true ∧ ((0x1000002#32).setWidth 24).toNat ≠ 0 ∧ ((0x1000000#32).setWidth 24).toNat = 0 ∧
      s.flag (Fld.CE_CTRL_RUN 95) = false ∧
      ends (exec (.ceWdogKick sup 95 0x4C41) (set s [(Fld.CE_WDOG_PERIOD 95, 2)])) (fun t =>
        (t.eng 95).wdCount == 512 && !(t.eng 95).wdExpired) = true ∧
      ends (exec (.ceWdog sup 95 0x1000002) s) (fun t => (t.eng 95).wdCount == 512) = true ∧
      ends (exec (.ceWdogKick sup 95 0) s) (fun t => t.flag (Fld.CE_STAT_CFG_ERR 95)) = true ∧
      ends (exec (.engineStart sup 95) s) (fun t => t.engState 95 == 1 && t.level 95 == 32) = true) ∧
    (let s := set (inMode 1) [(Fld.CE_CTRL_RUN 95, 1), (Fld.CE_STAT_STATE 95, 1)]
     s.flag (Fld.CE_CTRL_RUN 95) = true ∧ (∀ l ∈ s.leases, l.holder ≠ s.ident (0x10 + 95)) ∧
      ends (exec (.engineHoldReset sup 95) s) (fun t => t.engState 95 == 0) = true) := by decide +kernel

/-- A transaction of a unit in a state, held by the host. -/
def txn (u : TxnUnit) (state : Nat) : State := (inMode 1).setTxn u state host

theorem witness_transactions :
    ((inMode 1).serves host = true ∧ txnPresent .ixd7240 (.rnd 7) = true ∧ (inMode 1).txnRefuses (.rnd 7) host = false ∧
      (inMode 1).mode ≠ 0 ∧ (inMode 1).txnState (.rnd 7) = 0 ∧
      ends (exec (.begin (.rnd 7) host) (inMode 1)) (fun t => t.txnState (.rnd 7) == 1 && t.leases.length == 1) = true) ∧
    ((txn (.rnd 7) 1).txnState (.rnd 7) ≠ 0 ∧ (txn (.rnd 7) 1).txnState (.rnd 7) = 1 ∧ (txn (.rnd 7) 1).txnHolder (.rnd 7) = host ∧
      (txn (.rnd 7) 1).txnHolder (.rnd 7) ≠ sup ∧ (txn (.rnd 7) 1).commitCode (.rnd 7) = 0) ∧
    -- a COMMIT that falls due with its Round is applied before the BEGIN of its cycle, which is granted
    (let s := (txn (.sru 7) 2)
     s.txnState (.sru 7) = 2 ∧ s.boundaryNow (.sru 7) = true ∧
      ends (exec (.begin (.sru 7) host) s) (fun t => t.txnState (.sru 7) == 1) = true) ∧
    (let s := (txn (.rnd 7) 2).setDist 7 { due := some 5 }
     s.txnState (.rnd 7) ≠ 0 ∧ s.boundaryNow (.rnd 7) = false ∧
      ends (exec (.begin (.rnd 7) host) s) (fun t => t.txnState (.rnd 7) == 2) = true) ∧
    (let s := (txn (.rnd 7) 1).setDist 7 { due := some 5 }
     (s.dist 7).due ≠ none ∧ s.commitCode (.rnd 7) = 0 ∧
      ends (exec (.commit (.rnd 7) host) s) (fun t => t.txnState (.rnd 7) == 2) = true) ∧
    -- a COMMIT that is refused: a period of 0
    (let s : State := { txn (.rnd 7) 1 with shadow := [(Reg.RND_PERIOD 7, some 0)] }
     s.commitCode (.rnd 7) ≠ 0 ∧ ends (exec (.commit (.rnd 7) host) s) (fun t => t.txnState (.rnd 7) == 1) = true ∧
      ends (exec (.rollback (.rnd 7) host) s) (fun t => t.txnState (.rnd 7) == 0 && t.shadow == []) = true) ∧
    (txnAt (Reg.RND_PERIOD 7) = some (.rnd 7) ∧ (txn (.rnd 7) 1).shadowFull (.rnd 7) (Reg.RND_PERIOD 7) = false ∧
      ends (exec (.shadowWrite host (Reg.RND_PERIOD 7) 200) (txn (.rnd 7) 1)) (fun t =>
        t.shadowReg (Reg.RND_PERIOD 7) == 200 && t.reg (Reg.RND_PERIOD 7) != 200) = true ∧
      State.gatewayGone .ixd7240 (Reg.RND_PERIOD 7) = false) ∧
    -- the gateway of a district that the variant lacks
    (let s : State := { inMode 1 with variant := .ixd7210 }
     s.serves host = true ∧ txnPresent s.variant .ave = true ∧ s.txnRefuses .ave host = false ∧
      txnAt (Reg.AVE_GW_RING 7 0) = some .ave ∧ State.gatewayGone s.variant (Reg.AVE_GW_RING 7 0) = true ∧
      ends (exec (.shadowWrite host (Reg.AVE_GW_RING 7 0) 1) s) (fun t => t.flag Fld.SYS_ABSENT_HIT_VALID) = true) := by
  decide +kernel

theorem witness_transactions_apply :
    (let s : State := { (txn (.sru 0) 2).setReg (txnCtrl (.sru 0) + 4) 1 with
       shadow := [(Reg.SRU_EXPORT 0, some 7)] }
     s.txnState (.sru 0) = 2 ∧ s.reg (txnCtrl (.sru 0) + 4) = BitVec.ofNat 32 (1 + 65536 * (s.txnHolder (.sru 0)).toNat) ∧
      txnCovers (.sru 0) (Reg.SRU_EXPORT 0) = true ∧
      ends (exec (.txnApply (.sru 0)) s) (fun t => t.reg (Reg.SRU_EXPORT 0) == 7 && t.txnState (.sru 0) == 0) = true) := by
  decide +kernel

theorem witness_deviceResets :
    (let s := inMode 3
     s.nv = none ∧ s.sup.started = none ∧ s.porstLow = false ∧ s.coreReset = false ∧ s.inReset = false ∧
      s.asks sup = true ∧ s.flag Fld.SYS_MODE_CMD_BUSY = false ∧ s.took Reg.SYS_MODE_CMD = false ∧ s.noTransition = true ∧
      ends (exec .porstN s) (fun t => t.mode == 0 && t.reg Reg.SYS_RESET_CAUSE == 1 && t.porstLow) = true ∧
      ends (exec (.resetPin 840) s) (fun t => t.mode == 0 && (t.reg Reg.SYS_RESET_CAUSE).getLsbD 1) = true ∧
      ends (exec (.resetPin 799) s) (fun t => t.mode == 3) = true ∧
      (800 ≤ 839 ∧ 839 < 840) ∧
      ends (exec (.softReset sup 1 0xA5A5) s) (fun t => t.mode == 0 && (t.reg Reg.SYS_RESET_CAUSE).getLsbD 6) = true) ∧
    (let s : State := { inMode 3 with coreReset := true }
     ends (exec .coreResetRelease s) (fun t => !t.inReset) = true) ∧
    (let s : State := { inMode 3 with porstLow := true }
     ends (exec .powerOnReset s) (fun t => !t.inReset && t.mode == 0) = true) := by decide +kernel

theorem witness_hostResetsAndClocks :
    (let s := (inMode 3).setReg Reg.SYS_CLK_STAT 0x3F
     s.inReset = false ∧ (6 : Nat) < 7 ∧ s.leases = [] ∧ (5 : Nat) < 6 ∧ (s.reg Reg.SYS_CLK_STAT).getLsbD 5 = true ∧
      ends (exec (.functionLevelReset 6) s) (fun t => t.reg (Reg.MBX_DBMASK 6) == 0xFFFFFFFF) = true ∧
      ends (exec (.clockLossOfLock 5) s) (fun t => t.clockGone 5 && (t.reg Reg.SYS_CLK_STAT).getLsbD 13) = true ∧
      ends (exec (.clockLockReturn 5) { s with clockLost := [(5, some 0)] }) (fun t => !t.clockGone 5) = true) ∧
    (let s : State := { inMode 3 with clockLost := [(3, some 0)], cycle := 800001 }
     s.forceDue 3 = true ∧ ends (exec (.forcedLoad 3) s) (fun t => t.mode == 1 && t.fld Fld.SYS_MODE_FORCE_CAUSE == 2) = true) ∧
    (let s : State := { inMode 3 with syncs := [(0x0C * 64, 9), (0x0C * 64 + 1, 1)] }
     s.syncLine (0x0C * 64 + 1) = 1 ∧ s.syncLine 0 = 0 ∧ 1 < s.syncLine (0x0C * 64) ∧ 0x0C * 64 / 64 = 0x0C ∧
      ends (exec (.synchroniserAcknowledge (0x0C * 64)) s) (fun t => t.syncLine (0x0C * 64) == 1) = true) := by decide +kernel

theorem witness_modeCommands :
    -- LOAD from RUN, COMMISSION from LOAD, RUN from COMMISSION, and a wrong argument
    ((inMode 3).asks host = true ∧ (255 : Nat) < 256 ∧ (inMode 3).flag Fld.SYS_MODE_CMD_BUSY = false ∧
      (inMode 3).took Reg.SYS_MODE_CMD = false ∧ (inMode 3).noTransition = true ∧ (inMode 3).variant.hasIsland = true ∧
      1 < (inMode 3).mode ∧
      (inMode 3).modeCmd = none ∧ (inMode 1).mode ≤ 1 ∧ (inMode 1).anyTxnOpen = false ∧ (txn .xing 1).anyTxnOpen = true ∧
      (inMode 2).mode = 2 ∧ (inMode 5).mode = 5) ∧
    ends (exec (.enterLoad host 255 0) (inMode 3)) (fun t => t.mode == 1 && t.flag Fld.SYS_MODE_RESULT_DONE) = true ∧
    ends (exec (.enterLoad host 255 9) (inMode 3)) (fun t => t.mode == 3 && t.fld Fld.SYS_MODE_RESULT_CODE == 3) = true ∧
    ends (exec (.enterCommission host 7 0) (inMode 1)) (fun t => t.flag Fld.SYS_MODE_CMD_BUSY && t.mode == 1) = true ∧
    ends (exec (.enterRun host 7 0) (inMode 2)) (fun t => t.fld Fld.SYS_MODE_RESULT_CODE == 1) = true ∧
    (let s := set (inMode 5) [(Fld.SAFE_STAT_STATE, 3)]
     s.fld Fld.SAFE_STAT_STATE = 3 ∧ ends (exec (.safeAck host 7 0) s) (fun t => t.mode == 3) = true) ∧
    -- a variant without the island, a second command in one cycle, a safe stop reported in the command's cycle
    (let s : State := { inMode 3 with variant := .ixd7210 }
     s.variant.hasIsland = false ∧ s.asks host = true ∧
      ends (exec (.safeAck host 7 9) s) (fun t => t.mode == 3 && t.fld Fld.SYS_MODE_RESULT_CODE == 4) = true) ∧
    ends (exec (.enterLoad host 7 0) (inMode 3)) (fun t => t.took Reg.SYS_MODE_CMD &&
      ends (exec (.enterLoad host 8 0) t) fun u => u.mode == 1 && u.flag Fld.SYS_MODE_RESULT_LOST) = true ∧
    (let s : State := { inMode 3 with island := { report := true } }
     s.island.report = true ∧ (List.range 6).all (fun k => !s.forceDue k) = true ∧
      ends (exec (.enterCommission host 7 0) s) (fun t => t.mode == 5 && t.fld Fld.SYS_MODE_RESULT_CODE == 5) = true) ∧
    (let s := set (inMode 3) [(Fld.SYS_MODE_CMD_BUSY, 1)]
     s.flag Fld.SYS_MODE_CMD_BUSY = true ∧
      ends (exec (.enterLoad host 7 0) s) (fun t => t.mode == 3 && t.flag Fld.SYS_MODE_RESULT_LOST) = true) := by decide +kernel

/-- Owners of the slots that R185 asks for: the gateways of a small part and its supervisor. -/
def owners : List (Fld × Nat) := [(Fld.AVE_SLOT_OWNER 0, 0), (Fld.AVE_SLOT_OWNER 1, 1), (Fld.AVE_SLOT_OWNER 2, 10)]

theorem witness_modeCommands_later :
    (let s : State := { set (inMode 1) [(Fld.SYS_PKG_RES_DONE, 1)] with modeCmd := some ⟨2, 7, host⟩ }
     s.flag Fld.SYS_PKG_RES_DONE = true ∧ s.mode = 1 ∧
      ends (exec .enterCommissionComplete s) (fun t => t.mode == 2 && t.flag Fld.SYS_MODE_RESULT_DONE) = true) ∧
    (let s : State := { inMode 1 with modeCmd := some ⟨3, 7, host⟩ }
     s.runDue = true ∧ s.runCode ≠ 0 ∧ ends (exec .enterRunEvaluation s) (fun t => t.modeCmd == none) = true) ∧
    (let s : State := { set (inMode 2) ((Fld.AVE_STAT_STATE, 4) :: owners) with modeCmd := some ⟨3, 7, host⟩, variant := .ixd7210 }
     s.runDue = true ∧ s.runCode = 0) ∧
    (let s : State := { inMode 3 with island := { report := true } }
     s.island.report = true ∧ s.mode = 3 ∧
      ends (exec .safeStopReport s) (fun t => t.mode == 5 && t.fld Fld.SYS_MODE_PREV_MODE == 3) = true) := by decide +kernel

theorem witness_bootAndPackages :
    (let s := State.reset
     s.inReset = false ∧ s.mode = 0 ∧ s.fld Fld.SYS_BOOT_STAT_STAGE = 0 ∧ s.bootSel = 3 ∧ s.fld Fld.SYS_BOOT_STAT_ATTEMPTS = 0) ∧
    (let s : State := { State.reset with bootSel := 2 }
     s.bootSel = 2 ∧ ends (exec (.bootAttempt [] false) s) (fun t => t.fld Fld.SYS_BOOT_STAT_STAGE == 4) = true) ∧
    (let s := set State.reset [(Fld.SYS_BOOT_STAT_STAGE, 4)]
     s.asks host = true ∧ s.fld Fld.SYS_BOOT_STAT_STAGE = 4) ∧
    (let s := set State.reset [(Fld.SYS_BOOT_STAT_STAGE, 3)]
     s.fld Fld.SYS_BOOT_STAT_STAGE = 3 ∧ ends (exec .supervisorStart s) (fun t => t.mode == 1) = true) ∧
    (let s := set (inMode 1) [(Fld.SYS_PKG_RES_DONE, 1)]
     s.asks host = true ∧ s.flag Fld.SYS_PKG_RES_DONE = true ∧ s.took Reg.SYS_PKG_CMD = false ∧ (7 : Nat) < 256) ∧
    (let s : State := { inMode 1 with
       pkg := some { pkgId := 1, role := 0, first := 95, tag := 7, images := [([1, 0], [9])] } }
     s.modeCmd = none ∧ s.flag (Fld.CE_CTRL_RUN 95) = false ∧ (95 : Nat) < 96 ∧
      ends (exec .pkgLoadComplete s) (fun t => t.engState 95 == 1 && (t.eng 95).data.read 0 == 9) = true) ∧
    (let s := (set (inMode 1) [(Fld.SYS_PKG_RES_DONE, 1), (Fld.SYS_PKG_ENG_FIRST 95, 95)])
     s.asks host = true ∧ s.mode = 1 ∧ s.hasEngine 95 = true ∧ s.reg (Reg.SYS_PKG_ENG 95) ≠ 0 ∧
      s.fld (Fld.SYS_PKG_ENG_FIRST 95) = 95 ∧ s.sameLoad 95 = [95] ∧ s.flag (Fld.CE_CTRL_RUN 95) = false) := by decide +kernel

theorem witness_rounds :
    ((inMode 1).inReset = false ∧ (7 : Nat) < 8 ∧ (inMode 1).flag (Fld.RND_CTRL_RUN 7) = false ∧
      (set (inMode 1) [(Fld.RND_PERIOD_SYNC 7, 0)]).flag (Fld.RND_PERIOD_SYNC 7) = false ∧ (inMode 1).serves host = true ∧ (inMode 1).mode = 1 ∧ (inMode 3).mode ≠ 1) ∧
    ends (exec (.roundRun 7) (inMode 1)) (fun t => (t.dist 7).due == some 16) = true ∧
    ends (exec (.roundStop 7 host) (inMode 3)) (fun t => t.fld Fld.SYS_WRONG_STATE_CNT_COUNT == 1) = true ∧
    (let s := (set (inMode 3) [(Fld.CE_STAT_STATE 95, 1)]).setDist 7 { due := some 0, pendW := [(12 * 64 + 12, some 5)] }
     (s.dist 7).due = some 0 ∧ 0 ≤ s.cycle ∧ (s.dist 7).flight = none ∧ s.txnState (.rnd 7) ≠ 2 ∧ s.records 7 = [] ∧
      ends (exec (.roundStart 7 []) s) (fun t => (t.dist 7).flight.isSome && (t.dist 7).round == 1 &&
        -- and nothing starts while it is in passage
        ends (exec (.roundStart 7 []) t) fun u => u == t) = true ∧
      s.txnRefuses (.rnd 7) host = false ∧ s.txnRefuses (.rnd 7) (engineId 5) = true ∧ s.serves (engineId 5) = true ∧
      State.passWord (State.passStation 7 12 [] (s.takePending 7 12, { words := [], poison := [], marks := [] }) 12).2 12 = 5 ∧
      (s.dist 7).pendW = [(12 * 64 + 12, some 5)] ∧ (s.dist 7).pendOp = [] ∧ 1 ≤ 12 ∧ s.engState (7 * 12 + (12 - 1)) ≠ 0) ∧
    (let s := (inMode 3).setDist 7 { due := some 1 }
     (s.dist 7).due = some 1 ∧ s.cycle < 1) := by decide +kernel

/-! ### Supplies, non-volatile memory, pins -/

/-- LOAD with the NV result done, an address and bits of NV_OTP_STAT. -/
def nv (addr otp : Nat) : State :=
  (set (inMode 1) [(Fld.NV_RES_DONE, 1), (Fld.NV_ADDR_ADDR, addr)]).setReg Reg.NV_OTP_STAT (BitVec.ofNat 32 otp)

/-- The job of an NV command in progress. -/
def job (op addr src rows cycle : Nat) : State :=
  { inMode 1 with cycle := cycle, nv := some { op := op, addr := addr, src := src, rows := rows,
                                               data := List.replicate 64 7, hash := 9, started := 0 } }

theorem witness_powerAndNonVolatile :
    ((inMode 1).inReset = false ∧ (2 : Nat) < 3 ∧ (inMode 1).flag (State.monitorFld 2) = false ∧
      ends (exec (.supplyMonitorAssert 2) (inMode 1)) (fun t => t.nvBlocked && t.flag Fld.PWR_STAT_NV_LOW && t.fld Fld.PWR_STAT_WARN_CNT == 1) = true ∧
      ((inMode 1).setFlag (State.monitorFld 1) true).flag (State.monitorFld 1) = true ∧
      ends (exec .blockRelease (set (inMode 1) [(Fld.PWR_STAT_BLOCK, 1)])) (fun t => !t.nvBlocked) = true) ∧
    -- BLOCK's rise refuses the WRITE of its cycle, and its fall in that cycle starts it
    (let s := (nv 64 1)
     ends (exec (.nvWrite sup) s) (fun t => t.nv.any (fun j => j.op == 2 && j.started == t.cycle) && t.sup.started.isNone &&
       ends (exec (.supplyMonitorAssert 2) t) fun u => u.nv.isNone && u.fld Fld.NV_RES_RESULT == 9 &&
         ends (exec .blockRelease u) fun v => v.nv.isSome && v.fld Fld.NV_RES_RESULT == 1) = true ∧
     ends (exec (.nvWrite sup) (set s [(Fld.PWR_STAT_BLOCK, 1)])) (fun u =>
       (u.now.lowv.any fun p => p.2 && p.1.op == 2) && u.now.lowvRows.isEmpty && u.sup == ({} : SupRows) &&
         ends (exec .blockRelease u) fun v => v.nv.any (fun k => k.addr == 64 && !k.waits) && v.fld Fld.NV_RES_RESULT == 1) =
       true) ∧
    ((nv 64 1).asks sup = true ∧ (nv 64 1).flag Fld.NV_RES_DONE = true ∧ (nv 64 1).nvAddr % 64 = 0 ∧ (nv 65 1).nvAddr % 64 ≠ 0 ∧
      (nv 64 1).took Reg.NV_CMD = false ∧ (nv 64 1).hostOutsideLoad sup = false ∧ (nv 64 1).nvBlocked = false ∧ (nv 64 1).mode = 1 ∧
      (set (nv 64 1) [(Fld.PWR_STAT_BLOCK, 1)]).nvBlocked = true ∧ (nv 64 1).fld Fld.NV_SRC_SRC % 64 = 0 ∧
      (nv 64 1).fld Fld.NV_SRC_SRC + 1 * 64 ≤ 0x200000 ∧ (nv 64 1).nvAddr + 1 * 64 ≤ 0x400000) ∧
    ends (exec (.nvRead sup []) { nv 64 1 with mram := Mem.writeBytes [] 64 [0x5A] }) (fun t =>
      t.fld Fld.NV_RES_RESULT == 1 && t.nv.any (fun j => j.op == 1 && j.errs.isEmpty && j.started == 0) &&
      ({ t with cycle := 80 } : State).endNvRead.reg (Reg.NV_DATA 0) == 0x5A) = true ∧
    ends (exec (.nvWrite sup) (nv 64 1)) (fun t => t.nv.isSome && t.fld Fld.NV_RES_RESULT == 1) = true ∧
    ends (exec (.nvWrite sup) (set (nv 64 1) [(Fld.PWR_STAT_BLOCK, 1)])) (fun t => t.fld Fld.NV_RES_RESULT == 9) = true ∧
    -- key slot 3, which is blank; slot 1 when it is valid; a floor that rises and one that would fall
    ((nv 3 1).nvAddr % 4 ≠ 0 ∧ (nv 3 1).slotValid 3 = false ∧ (nv 3 1).slotDamaged 3 = false ∧ (nv 1 3).slotValid 1 = true ∧
      (nv 1 3).slotRevoked 1 = false ∧
      ends (exec (.otpKey sup) (nv 3 1)) (fun t => t.nv.isSome) = true ∧
      ends (exec (.otpKey sup) (nv 1 3)) (fun t => t.fld Fld.NV_RES_RESULT == 5) = true) ∧
    (let s := set (nv (2 * 256 + 5) 1) [(Fld.NV_OTP_STAT_FLOOR_PKG, 4)]
     s.nvAddr / 256 % 4 ≠ 3 ∧ s.fld (State.floorFld (s.nvAddr / 256 % 4)) < s.nvAddr % 64 ∧
      ends (exec (.otpFloor sup) s) (fun t => t.nv.isSome) = true) := by decide +kernel

/-- A row of the supervisor in progress, with a WRITE waiting behind it. -/
def supFirst : State :=
  let s := job 2 128 0 1 960
  { s with sup := { rows := [⟨0, 0, 64, List.replicate 64 3, none⟩], started := some 0 }
           nv := s.nv.map fun j => { j with waits := true } }

theorem witness_powerAndNonVolatile_ends :
    (let s := job 2 128 0 1 960
     (∃ j, s.nv = some j ∧ s.sup.started = none ∧ j.waits = false ∧ j.started + 960 ≤ s.cycle ∧ j.op = 2 ∧ j.rows = 1 ∧
        j.data.length = 64) ∧
      ends (exec .rowWriteDone s) (fun t => t.mram.read 191 == 7 && t.nv.isNone) = true) ∧
    -- a row of the supervisor comes first; the command's row starts when it ends
    (let s := supFirst
     s.sup = { rows := [⟨0, 0, 64, List.replicate 64 3, none⟩], started := some 0 } ∧ 0 + 960 ≤ s.cycle ∧ s.nvBlocked = false ∧
      (∃ j, s.nv = some j ∧ j.op = 2 ∧ j.waits = true) ∧
      ends (exec .rowWriteDone s) (fun t => t.mram.read 64 == 3 && t.mram.read 128 == 0 &&
        t.nv.any fun j => !j.waits && j.started == 960) = true) ∧
    (let s := job 3 128 0 2 960
     (∃ j, s.nv = some j ∧ j.op = 3 ∧ 1 < j.rows) ∧ s.nvBlocked = false ∧
      ends (exec .rowWriteDone s) (fun t => t.nv.any fun j => j.rows == 1 && j.addr == 192) = true) ∧
    (let s := job 4 3 0 0 160000
     (∃ j, s.nv = some j ∧ j.started + 160000 ≤ s.cycle ∧ j.op = 4 ∧ j.addr < 4) ∧
      ends (exec .otpProgramDone s) (fun t => t.slotValid 3 && t.slotHash 3 == 9) = true) ∧
    (let s := job 6 0 63 0 160000
     (∃ j, s.nv = some j ∧ j.op = 6 ∧ j.src < 64) ∧
      ends (exec .otpProgramDone s) (fun t => t.fld Fld.NV_OTP_STAT_FLOOR_SUP == 63) = true) :=
  ⟨⟨⟨_, rfl, by decide⟩, by decide +kernel⟩,
    ⟨by decide +kernel, by decide +kernel, by decide +kernel, ⟨_, rfl, by decide⟩, by decide +kernel⟩,
    ⟨⟨_, rfl, by decide⟩, by decide +kernel, by decide +kernel⟩,
    ⟨⟨_, rfl, by decide⟩, by decide +kernel⟩, ⟨⟨_, rfl, by decide⟩, by decide +kernel⟩⟩

theorem witness_pinsAndHostWindows :
    ({ instr := 1, trstLow := false } : Jtag).trstLow = false ∧ (inMode 1).jtag.trstLow = true ∧
    ends (exec .extest { inMode 1 with jtag := { trstLow := false }, porstLow := true }) (fun t => t.jtag.instr == 3) = true ∧
    ((inMode 1).inReset = false ∧ 0x1FFFFC + 4 ≤ 0x200000 ∧ (inMode 1).mode ≤ 1 ∧ 1 < (inMode 2).mode) ∧
    ((inMode 1).reaches host = true ∧ (inMode 1).pcieFunction host = true ∧ (inMode 1).readsAtOnce host = true ∧
      (inMode 2).reaches host = true ∧ (inMode 2).pcieFunction host = true ∧ (inMode 2).readsAtOnce host = true) ∧
    ends (exec (.bar2Write host 0x1FFFFC 4 7) (inMode 1)) (fun t => t.bootMem.read 0x1FFFFC == 7) = true ∧
    ends (exec (.bar2Read host 0 ⟨4, []⟩) (inMode 2)) (fun t => match t.out with | [.readData w x _] => w == host && x == 4294967296 | _ => false) = true ∧
    ((inMode 1).hasEngine 95 = true ∧ (inMode 1).flag (Fld.CE_CTRL_RUN 95) = false ∧ 0xFFFC + 4 ≤ 0x10000) ∧
    ends (exec (.bar2Write host (0x4010000 + 95 * 0x20000 + 0xFFFC) 4 7) (inMode 1)) (fun t =>
      (t.eng 95).data.read 0xFFFC == 7) = true ∧
    (Reg.SYS_RESET_CAUSE % 4 = 0 ∧ Reg.SYS_RESET_CAUSE < 0x100000 ∧ (regRow Reg.SYS_RESET_CAUSE).isSome = true ∧
      Reg.SYS_RESET_CAUSE ≠ Reg.SYS_MODE_CMD ∧ Reg.SYS_RESET_CAUSE ≠ Reg.SYS_PKG_CMD ∧
      Reg.SYS_RESET_CAUSE ≠ Reg.SYS_BOOT_CTRL ∧ Reg.SYS_RESET_CAUSE ≠ Reg.SYS_ABSENT_HIT) ∧
    ends (exec (.spiRead 3 Reg.SYS_RESET_CAUSE 1 false) (inMode 1)) (fun t => t.out == [.spiData [0xA5, 0, 0, 0, 1]]) = true ∧
    ends (exec (.spiWrite 2 Reg.SYS_RESET_CAUSE [1] false) (inMode 1)) (fun t => t.reg Reg.SYS_RESET_CAUSE == 0) = true := by
  decide +kernel

/-! ### The Avenue -/

/-- An Avenue in a state, master or not, with its counter started at cycle 0 and the block's count at `now`. -/
def ave (state master now : Nat) (f : Avenue → Avenue := id) : State :=
  { set (inMode 3) [(Fld.AVE_STAT_STATE, state), (Fld.AVE_STAT_MASTER, master)] with
    cycle := now, ave := f { started := true } }

/-- A reference message of node 0x1A. -/
def refMsg : RefMsg :=
  { cycle := 9, master := 0x1A, rank := 1, coldstart := false, sgen := 0, rcrc := 0, claimsSeen := 0, sec := 0, ns := 0
    sub := 0, timeInfo := 0, spare := [] }

theorem witness_avenueCycles :
    (let s := ave 4 0 6400
     s.inReset = false ∧ s.ave.started = true ∧ s.ave.cycleStart + s.ave.len ≤ s.cycle ∧ s.ave.coldDue = false ∧
      s.txnState .ave ≠ 2 ∧ s.isMaster = false ∧ s.aveState = 4) ∧
    -- the master's message is held by its own nodes 18 cycles later; a follower passes on what it holds
    ((ave 4 1 6400).isMaster = true ∧ ends (exec .avenueCycleStart (ave 4 1 6400)) (fun t =>
      t.ave.window.any (fun w => w.at' == 6418 && w.own.any fun r => r.cycle == 1) &&
        ({ t with cycle := 6417 } : State).holdWindow.ave.held.isNone &&
        ({ t with cycle := 6418 } : State).holdWindow.ave.held.any fun r => r.cycle == 1) = true) ∧
    (let s := ave 4 0 6400 fun a => { a with held := some refMsg }
     s.ave.held = some refMsg ∧ ends (exec .avenueCycleStart s) (fun t =>
       t.out.contains (.refMsg false (State.refPayload { refMsg with cycle := 1 })) && t.ave.window.any fun w => w.own.isNone) =
       true) ∧
    ((ave 4 0 6399).cycle < (ave 4 0 6399).ave.cycleStart + (ave 4 0 6399).ave.len) ∧
    (let s := ave 1 0 100 fun a => { a with started := false, timeoutAt := some 100 }
     s.aveState = 1 ∧ s.ave.timeoutAt = some 100 ∧ 100 ≤ s.cycle ∧ s.coldBarred = false ∧
      (set s [(Fld.AVE_STAT_COLD_EXCESS, 1)]).coldBarred = true ∧
      ends (exec .coldstartTimeout s) (fun t => t.aveState == 3 && !t.isMaster && t.ave.cycleStart == 100) = true) ∧
    ((ave 3 1 6400).aveState = 3 ∧ (ave 3 1 6400).chipDoubled = false ∧
      ends (exec .coldstartCheckEnd (ave 3 0 6400)) (fun t => t.aveState == 4 && t.isMaster) = true ∧
      (set (ave 3 0 6400 fun a => { a with map := List.replicate 2 ⟨0, 0, true, false, 0⟩ })
        [(Fld.AVE_STAT_CHIP_DUP, 1)]).chipDoubled = true) ∧
    (let s := ave 1 0 50
     s.chipDoubled = false ∧ s.wilernUsed 0 = false ∧
      ends (exec (.ref refMsg 2) s) (fun t => t.aveState == 2 && t.fld Fld.AVE_CYCLE_NUM_CYCLE == 9) = true) ∧
    (let s := set (ave 4 0 6) [(Fld.AVE_STAT_MASTER_ID, 0x1A)]
     s.isMaster = false ∧ s.ave.seen = false ∧ refMsg.master = s.fld Fld.AVE_STAT_MASTER_ID ∧
      ((s.cycle : Int) - ((s.ave.cycleStart + s.pathDelay (nodeChip refMsg.master) 2 : Nat) : Int)).natAbs ≤ 6 ∧
      ends (exec (.ref refMsg 2) s) (fun t => t.ave.held == some refMsg) = true) ∧
    (let s := set (ave 4 0 1000 fun a => { a with misses := 2 }) [(Fld.AVE_ID_RANK, 1)]
     s.ave.missed = false ∧
      (∀ p, p < 2 → s.ave.cycleStart + s.pathDelay (nodeChip (s.fld Fld.AVE_STAT_MASTER_ID)) p + 8 < s.cycle) ∧
      s.ave.misses + 1 = 3 * s.fld Fld.AVE_ID_RANK ∧
      ends (exec .referenceMiss s) (fun t => t.isMaster && t.ave.misses == 0) = true) ∧
    ends (exec .referenceMiss (set (ave 4 0 1000 fun a => { a with misses := 11 }) [(Fld.AVE_ID_RANK, 0)])) (fun t =>
      t.aveState == 6) = true ∧
    ends (exec .reint (ave 4 0 5)) (fun t => t.aveState == 5) = true ∧
    (set (ave 4 0 5) [(Fld.AVE_WLN_STAT_STATE 1, 2)]).wilernUsed 1 = true := by decide +kernel

theorem witness_wilernLinks :
    ((inMode 1).inReset = false ∧ (1 : Nat) < 2 ∧ (inMode 1).variant.hasWilern = true ∧ (inMode 1).mode ≠ 0 ∧
      (inMode 1).wilernState 1 = 0 ∧ ends (exec (.wilernEnable 1) (inMode 1)) (fun t => t.wilernState 1 == 1) = true) ∧
    (let s := set (inMode 1) [(Fld.AVE_WLN_STAT_STATE 1, 1)]
     let at' (k : Nat) : State := { s with ave := { training := [(0, { step := k }), (1, { step := k })] } }
     s.wilernState 1 = 1 ∧ 255 < (703 - 192 + 1) / 2 ∧ (702 - 192 + 1) / 2 ≤ 255 ∧
      ((s.training 1).step = 0 ∧ ((at' 1).training 1).step = 1 ∧ ((at' 2).training 1).step = 2 ∧
        ((at' 4).training 1).step = 4 ∧ (at' 4).wilernState 1 = 1 ∧ s.cycle ≤ (s.training 1).began + 80000) ∧
      ends (exec (.trainingStepDone 1 (.clockRecovery 0xF)) s) (fun t => (t.training 1).step == 1) = true ∧
      ends (exec (.trainingStepDone 1 (.deskew 20000)) (at' 2)) (fun t => (t.training 1).step == 3) = true ∧
      ends (exec (.trainingStepDone 1 (.echoes 703)) (at' 4)) (fun t => t.wilernState 1 == 3) = true ∧
      ends (exec (.trainingStepDone 1 (.echoes 702)) (at' 4)) (fun t => t.fld (Fld.AVE_WLN_STAT_MEDIUM 1) == 255) = true ∧
      ends (exec (.trainingStepDone 1 (.echoes 300)) { at' 4 with ave := { (at' 4).ave with started := true } }) (fun t =>
        t.wilernState 1 == 2 && !t.wilernUsed 1) = true ∧
      ends (exec (.trainingStepDone 1 (.echoes 702)) s) (fun t => t.wilernState 1 == 1) = true ∧
      ends (exec (.trainingStepDone 1 (.blockLock 0xF)) (at' 1)) (fun t => t.fld (Fld.AVE_WLN_STAT_LANE_LOCK 1) == 15) = true) ∧
    (let s : State := { set (inMode 1) [(Fld.AVE_CTRL_W1_EN, 1)] with ave := { retryAt := [(1, 1)] } }
     s.wilernEnabled 1 = true ∧ s.cycle < Store.get (fun _ => 0) s.ave.retryAt 1 ∧
      ends (exec (.trainingRetry 1) { s with cycle := 1 }) (fun t => t.wilernState 1 == 1) = true) ∧
    (let s := set (inMode 3) [(Fld.AVE_WLN_STAT_STATE 0, 2), (Fld.AVE_WLN_STAT_STATE 1, 2)]
     s.wilernState 1 = 2 ∧ s.wilernUsed 0 = true ∧ s.wilernUsed 1 = true ∧ 5 ≠ s.chip ∧ s.fld (Fld.AVE_WLN_STAT_PEER_CHIP 0) ≠ 5 ∧ (-8 : Int).natAbs ≤ 8 ∧
      ends (exec (.relayFrame 1 5 (.slot 3 (-8) true [])) s) (fun t =>
        t.out == [.relayed 0 (.slot 3 (-8) true [])] && t.ave.replayNext.any fun r => r.slot == 3) = true ∧
      ends (exec (.wilernLinkDown 1) s) (fun t => t.wilernState 1 == 0 && t.fld (Fld.AVE_WLN_STAT_DOWN_CNT 1) == 1) = true) := by
  decide +kernel

/-- Spare slot 3, free. -/
def spare (f : Avenue → Avenue := id) : State :=
  set (ave 4 1 50 fun a => f { a with spare := [⟨3, true, 0xFF⟩] }) [(Fld.AVE_SLOT_SPARE 3, 1)]

/-- This chip's claim for it. -/
def claim3 : Claim := { node := 9, slot := 3, release := false }

theorem witness_spareSlotClaims :
    (spare.serves sup = true ∧ Ident.isEngine sup = false ∧ spare.ave.claim = none ∧ (9 : Nat) < 13 ∧ spare.hasLocal 9 = true ∧
      spare.spareSlots.contains 3 = true ∧ spare.aveState = 4 ∧ (ave 1 0 0).aveState ≠ 4) ∧
    ends (exec (.aveClaim 3 9 sup) spare) (fun t => t.ave.claim == some ⟨claim3, none, 50⟩) = true ∧
    spare.took Reg.AVE_CLAIM = false ∧
    (let s : State := { spare fun a => { a with claim := some ⟨claim3, none, 50⟩ } with cycle := 80 + 160 * 32 }
     s.cycle = s.ave.cycleStart + State.dynStart s.reg + 8 * s.chip ∧ s.aveState = 4 ∧
      ends (exec (.claimMinislot 0) { s with cycle := s.cycle + 1 }) (fun t => t.out == []) = true ∧
      s.ave.claim.isSome = true ∧ s.chip < s.claimSlots ∧ s.ave.started = true ∧ s.flag Fld.AVE_STAT_RING_MISMATCH = false ∧
      ends (exec (.aveClaim 3 9 sup) s) (fun t => t.flag Fld.AVE_CLAIM_STAT_LOST) = true ∧
      50 + 16 ≤ s.ave.cycleStart + State.dynStart s.reg ∧ s.ave.cycleStart + State.dynStart s.reg < 5185 + 16 ∧
      (∀ x ∈ s.ave.claims, nodeChip x.node ≠ nodeChip claim3.node) ∧
      ends (exec (.claimMinislot 0) s) (fun t => t.out == [.claimMsg claim3] && t.ave.claims == [claim3]) = true) ∧
    (let s : State := { spare fun a => { a with claim := some ⟨claim3, none, 5185⟩ } with cycle := 80 + 160 * 32 }
     s.cycle = s.ave.cycleStart + State.dynStart s.reg + 8 * s.chip ∧
     ends (exec (.claimMinislot 0) s) (fun t => t.out == [] && t.ave.claims == []) = true) ∧
    (let s : State := { spare fun a => { a with claims := [claim3] } with cycle := 6400 - 64 }
     s.cycle + 64 = s.ave.cycleStart + s.ave.len ∧
      ends (exec .claimEvaluation { s with cycle := 6400 - 63 }) (fun t => t.ave.claims == [claim3]) = true ∧
      s.isMaster = true ∧ (∃ x ∈ s.ave.claims, nodeChip x.node = nodeChip claim3.node) ∧ s.ave.claims = [claim3] ∧ claim3.release = false ∧ claim3.slot ≠ 0x3F ∧
      (∃ x ∈ s.ave.spare, x.slot = claim3.slot ∧ x.valid = true ∧ x.owner = 0xFF) ∧
      ends (exec .claimEvaluation s) (fun t => State.spareOwner t.ave.spare 3 == 9) = true) ∧
    (let s := set (spare fun a => { a with claim := some ⟨claim3, some 0xFFFFFFF5, 0⟩ }) [(Fld.AVE_CYCLE_NUM_CYCLE, 5)]
     16 ≤ (s.fld Fld.AVE_CYCLE_NUM_CYCLE + 2 ^ 32 - 0xFFFFFFF5) % 2 ^ 32 ∧
      ends (exec .claimTimeout s) (fun t => t.ave.claim == none && t.fld Fld.AVE_CLAIM_STAT_RESULT == 2) = true) := by
  decide +kernel

/-- A message of one beat. -/
def msg (dest type sub : Nat) (payload : List (BitVec 32)) : Msg :=
  { dest := dest, src := 0x1A, type := type, sub := sub, flowv := false, flow := 0, seq := 0, payload := payload }

theorem witness_slotsAndOffers :
    (let s := set (ave 4 0 (80 + 160 * 2) fun a => { a with queues := [(9, [msg 0x19 6 0 []])] })
       [(Fld.AVE_SLOT_OWNER 2, 9), (Fld.AVE_SLOT_SCOPE 2, 1), (Fld.AVE_CTRL_W0_EN, 1)]
     s.inReset = false ∧ s.ave.started = true ∧ 2 < s.fld Fld.AVE_SCHED_NSTATIC ∧ s.cycle = s.actionPoint 2 ∧
      s.ave.slotDone.contains 2 = false ∧ s.slotOwner 2 ≠ 0xFF ∧ nodeChip (s.slotOwner 2) = s.chip ∧ 8 ≤ s.slotOwner 2 % 16 ∧
      s.hasLocal (s.slotOwner 2 % 16) = true ∧ s.slotRing 2 = true ∧ s.maySend true = true ∧
      s.nodeQueue (s.slotOwner 2 % 16) = [msg 0x19 6 0 []] ∧ msgBeats (msg 0x19 6 0 []) ≤ 64) ∧
    ((ave 4 0 0 fun a => { a with slotDone := [2] }).ave.slotDone.contains 2 = true) ∧
    (let f : AirFrame := ⟨2, 0, [msg 0x00 3 0 []]⟩
     let s := ave 4 0 16 fun a => { a with air := [f] }
     s.ave.air = f :: [] ∧ f.msgs = [msg 0x00 3 0 []] ∧ f.at' + msgBeats (msg 0x00 3 0 []) + 15 ≤ s.cycle ∧
      8 < (-9 : Int).natAbs ∧ (8 : Int).natAbs ≤ 8 ∧ (msg 0x00 3 0 []).type = 3 ∧
      ends (exec (.slotFrameReceipt (-9) false) s) (fun t => t.fld Fld.AVE_CNT0_WINDOW == 1) = true ∧
      ends (exec (.slotFrameReceipt 8 true) s) (fun t => t.fld Fld.AVE_CNT0_CHECK == 1 && t.ave.air == []) = true) ∧
    (let s := ave 4 0 6000 fun a => { a with dynFree := 6000, turn := 8 }
     s.nextOffer.1 ≤ s.cycle ∧ s.cycle < s.dynEnd ∧ 8 ≤ s.nextOffer.2 ∧
      ends (exec .dynamicOffer s) (fun t => t.ave.turn == 9 && t.out == []) = true) ∧
    ((7 : Nat) < 8 ∧ (1 : Nat) < 2 ∧ State.beatsBetween ((inMode 1).fld (Fld.AVE_GW_PTR_HEAD 7 1)) 0 ≤ (inMode 1).ringBytes 7 1 / 32 ∧
      (inMode 1).ringBytes 7 1 / 32 < State.beatsBetween ((inMode 1).fld (Fld.AVE_GW_PTR_HEAD 7 1)) 1 ∧
      ends (exec (.aveGwPtr 7 1 0x10000) (inMode 1)) (fun t => t.flag Fld.AVE_STAT_CFG_ERR) = true) := by decide +kernel

/-- A gateway's TX ring 0 with one ENGINE message to node 0x01 in it. -/
def offer : State :=
  (set (ave 4 0 6000 fun a => { a with dynFree := 6000, turn := 0 })
    [(Fld.AVE_GW_RING_SIZE 0 0, 1), (Fld.AVE_GW_PTR_TAIL 0 0, 1)]).setDist 0 { sram := Mem.writeBytes [] 0 [0x01, 0, 3] }

theorem witness_slotsAndOffers_used :
    offer.ave.started = true ∧ offer.nextOffer.1 ≤ offer.cycle ∧ offer.cycle < offer.dynEnd ∧
    ((offer.pickOffer offer.nextOffer.2).any fun p => p.1 == { msg 0x01 3 0 [] with src := 0 }) = true ∧
    offer.nextOffer.1 + 1 ≤ offer.dynEnd - 15 ∧
    ends (exec .dynamicOffer offer) (fun t => t.ave.turn == 1 &&
      t.out.any (fun o => match o with | .dynamicMsg n bs => n == 0 && bs.length == 1 | _ => false) &&
      t.ave.dynAir.map (fun p => (p.1, p.2.type)) == [(offer.nextOffer.1 + 1 + 15, 3)]) = true ∧
    (let s := ave 4 0 6016 fun a => { a with dynAir := [(6016, msg 0x09 6 0 [0, 5])] }
     s.ave.dynAir = [(6016, msg 0x09 6 0 [0, 5])] ∧ 6016 ≤ s.cycle ∧ s.holdDynamic.ave.dynAir = []) := by decide +kernel

theorem witness_avenueMessages :
    ((inMode 1).inReset = false ∧ nodeChip 0x07 = (inMode 1).chip ∧ (0x07 : Nat) < 0x80 ∧ 7 < (inMode 1).variant.districts ∧
      (7 : Nat) < 8 ∧ 0x07 % 16 = 7) ∧
    -- ENGINE: room in the RX ring of gateway 7, and none
    (let s := set (inMode 1) [(Fld.AVE_GW_RING_SIZE 7 2, 1)]
     State.beatsBetween (s.fld (Fld.AVE_GW_PTR_HEAD 7 2)) (s.fld (Fld.AVE_GW_PTR_TAIL 7 2)) + 1 ≤ s.ringBytes 7 2 / 32 ∧
      ends (exec (.engine (msg 7 3 11 [])) s) (fun t => t.fld (Fld.AVE_GW_PTR_TAIL 7 2) == 1) = true ∧
      ends (exec (.engine (msg 7 3 11 [])) (inMode 1)) (fun t => t.fld Fld.AVE_CNT1_RX_DROP == 1) = true) ∧
    -- SLICE: one word from 16 on, owned by station 14, and a word the gateway may not write
    (let s := set (inMode 3) [(Fld.RND_SLICE_OWNER 7 16, 14)]
     fieldGet (16 + 1 * 256) 8 6 = 1 ∧ fieldGet (16 + 1 * 256) 0 6 = 16 ∧ s.sliceOwner 7 16 = 14 ∧
      48 ≤ fieldGet (48 + 1 * 256) 0 6 ∧
      ends (exec (.slice (msg 7 4 0 [16 + 256, 5])) s) (fun t =>
        Store.get (fun _ => none) (t.dist 7).pendW (14 * 64 + 16) == some 5) = true ∧
      ends (exec (.slice (msg 7 4 0 [48 + 256, 5])) s) (fun t => t.fld (Fld.AVE_GW_CNT_SLICE_REJ 7) == 1) = true) ∧
    -- FRAME of four bytes
    (0x08 % 16 = 8 ∧ 4 ≤ fieldGet (4 * 2 ^ 21) 21 11 ∧ (inMode 1).clockGone 0 = false ∧
      (inMode 1).flag Fld.XING_STAT_FATAL = false ∧ 1 ≤ (inMode 1).freeCells ∧
      ends (exec (.frame (msg 8 5 0 [4 * 2 ^ 21, 5])) (inMode 1)) (fun t => t.xing.arrived == [0]) = true ∧
      ({ inMode 1 with clockLost := [(0, some 0)] } : State).clockGone 0 = true) ∧
    -- IMAGE, MAILBOX, LANTERN, SUPER
    (0x09 % 16 = 9 ∧ ends (exec (.image (msg 9 6 0 [0, 5])) (inMode 1)) (fun t =>
      (t.nodeQueue 9).map (·.sub) == [2]) = true) ∧
    (0x0A % 16 = 10 ∧ Ident.isHost ((6#32).setWidth 16) = true ∧
      ends (exec (.mailbox (msg 10 7 2 [6 + 31 * 2 ^ 16])) (inMode 1)) (fun t => t.reg (Reg.MBX_DB 6) == 0x80000000) = true) ∧
    ends (exec (.lantern { msg 10 9 0 [0, 0x105] with src := 7 }) (inMode 1)) (fun t =>
      (t.beat 84).lantern == 5 && (t.beat 84).fault && t.red.heard.contains 7) = true ∧
    (let s := (set (inMode 3) [(Fld.RED_PSTAT_STATE 47, 1)]).setPair 47 { remote := some 1, silent := 9 }
     (47#32).getLsbD 6 = false ∧ (47#32).getLsbD 7 = false ∧ s.pairState (fieldGet 47 0 6) ≠ 0 ∧
      (s.pair (fieldGet 47 0 6)).remote = some (nodeChip 0x1A) ∧
      ends (exec (.super (msg 10 0xA 0 [47])) s) (fun t => (t.pair 47).silent == 0) = true) := by decide +kernel

theorem witness_avenueMessages_lease :
    (let s := like (run 84) 84 fun x =>
       { x with leaseWait := some { handle := 0x3000003F, release := false, gd := 8, len := 3 } }
     (84#32).getLsbD 16 = false ∧ (s.eng (fieldGet 84 0 16)).leaseWait.isSome = true ∧ (0x3000003F#32).toNat = 0x3000003F ∧
      (8 : GReg) ≠ 0 ∧ ends (exec (.leaseMessage (msg 7 8 1 [84, 0x3000003F, 0])) s) (fun t =>
        (t.eng 84).leaseId == 0x3000003F && t.greg 84 8 == 0 && (t.eng 84).leaseWait == none) = true) := by decide +kernel

/-! ### The Crossing -/

/-- Schedules whose gates are open for the whole cycle, and for half of it. -/
def g : GateSched := { enabled := true, base := 0, cycle := 100, list := [(255, 100)] }
def g' : GateSched := { enabled := true, base := 0, cycle := 100, list := [(255, 50), (0, 50)] }

/-- A Crossing with frame 0 of one cell. -/
def frame0 : Frame := { cells := [0], len := 64, source := 0, copies := 1, refs := 1 }
def copy0 (dest : Nat) : Copy :=
  { frame := 0, dest := dest, queue := 5, alley := false, size := 64, cells := 1, gen := 0, enqueued := 0 }
def xing (f : Crossing → Crossing) (l : List (Fld × Nat) := []) : State :=
  { set (inMode 3) l with
    xing := f { frames := [(0, some frame0)], nextFrame := 1, cells := [(0, .held 0)] } }

theorem witness_crossingFrames_arrival :
    -- a table without a VLAN drops; a DIRECT frame to gateway 34 is admitted to the queue of its map
    (let s := xing fun x => { x with arrived := [0], frames := [(0, some { frame0 with copies := 0, refs := 0 })] }
     s.inReset = false ∧ s.clockGone 0 = false ∧ s.nextArrived = some 0 ∧ s.frame 0 = some { frame0 with copies := 0, refs := 0 } ∧
      s.flag Fld.XING_STAT_FATAL = false ∧ s.vlanStep frame0 = none ∧ ends (exec .classification s) (fun t =>
        t.fld (Fld.XING_DROP_COUNT 1) == 1 && t.xing.arrived == []) = true) ∧
    (let d : Direct := { dest := 42, vid := 1, prio := 7 }
     let s := xing fun x => { x with
       arrived := [0], frames := [(0, some { frame0 with copies := 0, refs := 0, direct := some d })]
       tables := [(4 * 65536 + 42 * 8 + 7, { d0 := 511 + 512 }), (5 * 65536 + 511, { d1 := 8 })] }
     let e := s.tbl 5 511
     34 ≤ d.dest ∧ d.dest < 43 ∧ fieldGet (s.tbl 4 (d.dest * 8 + d.prio)).d0 9 1 = 1 ∧
      fieldGet (s.tbl 4 (d.dest * 8 + d.prio)).d0 0 9 = 511 ∧ s.fld Fld.XING_BUF_CFG_HI_RESERVE ≤ s.freeCells ∧
      fieldGet e.d0 13 1 = 0 ∧ s.queueCells 511 + frame0.cells.length ≤ fieldGet e.d1 0 16 ∧
      ends (exec .classification s) (fun t => t.xing.admitted.map (fun k => (k.1.queue, k.1.dest)) == [(511, 42)]) = true) := by
  decide +kernel

theorem witness_crossingFrames :
    (let s := xing fun x => { x with admitted := [(copy0 42, false)] }
     s.xing.admitted = (copy0 42, false) :: [] ∧ (copy0 42).queue < 512 ∧ (s.queue 5).copies = [] ∧
      fieldGet (s.tbl 5 5).d1 16 16 = 0 ∧ fieldGet (s.tbl 5 5).d0 12 1 = 0 ∧
      ends (exec .copyEnqueue s) (fun t => (t.queue 5).copies.length == 1 && t.xing.admitted == []) = true) ∧
    (let s := xing (fun x => { x with queues := [(5, { copies := [copy0 1], deficit := 64 })] })
       [(Fld.ETH_CTRL_EN 1, 1), (Fld.ETH_STAT_LINK 1, 1)]
     s.queuesOf 1 = [5] ∧ (copy0 1).dest = 1 ∧ (copy0 1).alley = false ∧ s.gatePasses 5 (copy0 1) = true ∧
      (copy0 1).size ≤ (s.queue 5).deficit ∧ s.macFree 1 = true ∧ State.isT1s 1 = false ∧ s.queuesOf 42 = [] ∧
      ends (exec (.destinationChoice 1) s) (fun t => (t.port 1).sending == some (copy0 1)) = true) ∧
    (let s := (xing id).setPort 33 { sending := some (copy0 33) }
     (s.port 33).sending = some (copy0 33) ∧ (s.port 33).deferred = false ∧ s.frame 0 = some frame0 ∧
      ends (exec (.transmitEnd 33) s) (fun t => (t.port 33).sending == none && t.out.length == 1) = true) ∧
    (let s := xing fun x => { x with gates := [(33, { line := [(0, g), (0, g')] })] }
     (s.gates 33).line = [(0, g), (0, g')] ∧ 0 ≤ s.lineTime ∧ s.looksBack 33 0 = false ∧
      ends (exec (.gateEvent 33) s) (fun t => (t.gates 33).line == [(0, g')] && t.sched 33 == g') = true) ∧
    (let s := xing fun x => { x with gates := [(33, { line := [(0, g), (1, g')] })] }
     s.lineTime < 1 ∧ s.sched 33 = g) ∧
    (let s := xing fun x => { x with gates := [(33, { line := [(0, g), (0, g')] })], queues := [(5, { copies := [copy0 33] })] }
     s.looksBack 33 1 = true) ∧
    -- a copy of a time-triggered queue whose gate never opens again after the gates of its line time
    (let s : State := { xing (fun x => { x with
       queues := [(5, { copies := [copy0 1] })], gates := [(1, { line := [(0, g')] })]
       tables := [(5 * 65536 + 5, { d0 := 0x1000 })] }) with tb := { line := 200 * 2 ^ 48 } }
     (s.queue 5).copies = [copy0 1] ∧ s.windowClosed 5 (copy0 1) = true ∧ s.frame 0 = some frame0 ∧
      ends (exec (.gateWindowClose 5) s) (fun t => t.fld (Fld.XING_DROP_COUNT 0x0C) == 1) = true) ∧
    (let y : Spilled := { copy := copy0 42, frame := frame0, bytes := none }
     let s := xing fun x => { x with queues := [(5, { spill := [y] })] }
     (s.queue 5).spill = [y] ∧ ends (exec (.spillWriteDone 5) s) (fun t =>
       (t.queue 5).spill.map (fun z => z.bytes.isSome) == [true]) = true) := by decide +kernel

/-- A copy in spill, with room in its queue and a number of free cells. -/
def spilled (free : Nat) : State :=
  xing (fun x => { x with
    queues := [(5, { spill := [{ copy := copy0 42, frame := frame0, bytes := some (List.replicate 64 0) }] })]
    frames := [(0, some { frame0 with refs := 0 })], tables := [(5 * 65536 + 5, { d1 := 8 })] })
    [(Fld.XING_BUF_STAT_FREE, free)]

theorem witness_crossingFrames_readBack :
    ((spilled 1).queueCells 5 < fieldGet ((spilled 1).tbl 5 5).d1 0 16 / 2 ∧ (spilled 0).freeCells < State.cellsFor 64 ∧
      State.cellsFor 64 ≤ (spilled 1).freeCells ∧ (spilled 1).flag Fld.XING_STAT_FATAL = false ∧
      ((spilled 1).queue 5).copies = [] ∧ 34 ≤ (copy0 42).dest ∧ fieldGet ((spilled 1).tbl 5 5).d1 16 16 = 0) ∧
    ends (exec (.spillReadBack 5) (spilled 0)) (fun t => t.fld (Fld.XING_DROP_COUNT 0x0E) == 1) = true := by decide +kernel

/-- The table commands' state: an index, a table, and the transaction of the tables held by the host or not. -/
def table (i k state : Nat) : State :=
  set ((inMode 1).setTxn .xing state host) [(Fld.XING_TBL_ADDR_INDEX, i), (Fld.XING_TBL_ADDR_TABLE, k)]

theorem witness_crossingTables :
    (let s := set (inMode 1) [(Fld.XING_GEN_STAT_OLD_LIVE, 1)]
     s.clockGone 0 = false ∧ s.flag Fld.XING_GEN_STAT_OLD_LIVE = true ∧ s.fld Fld.XING_GEN_STAT_OLD_INFLIGHT = 0 ∧
      (set s [(Fld.XING_GEN_STAT_OLD_INFLIGHT, 1)]).fld Fld.XING_GEN_STAT_OLD_INFLIGHT ≠ 0 ∧
      ends (exec .oldGenerationRetire s) (fun t => !t.flag Fld.XING_GEN_STAT_OLD_LIVE) = true) ∧
    ((inMode 1).flag Fld.XING_GEN_STAT_OLD_LIVE = false ∧ (inMode 1).xing.syncAt ≤ (inMode 1).cycle ∧
      ends (exec .bankSyncDone (set (inMode 1) [(Fld.XING_GEN_STAT_SYNC, 0)])) (fun t => t.flag Fld.XING_GEN_STAT_SYNC) = true) ∧
    ((table 33 10 0).serves host = true ∧ 33 < tableSize 10 ∧ (table 33 10 0).holdsXing host = false ∧
      (table 33 10 0).flag Fld.XING_TBL_ADDR_OLD = false ∧ tableSize 10 ≤ 34 ∧ (table 33 10 1).holdsXing host = true ∧
      (table 33 10 1).xingShadowSize < 8192) ∧
    ends (exec (.xingTblRead host) (table 34 10 0)) (fun t => t.reg Reg.XING_TBL_CMD == 0x30004) = true ∧
    ends (exec (.xingTblWrite host) (table 33 10 0)) (fun t => t.reg Reg.XING_TBL_CMD == 0x50004) = true ∧
    ends (exec (.xingTblWrite host) (set (table 33 10 1) [(⟨Reg.XING_TBL_DATA 0, 0, 32⟩, 7)])) (fun t =>
      Store.get (fun _ => none) t.xing.shadow (10 * 65536 + 33) == some { d0 := 7 }) = true ∧
    (let s := xing (fun x => { x with cells := [(3, .lost false true)], lamp := 3 }) [(Fld.XING_BUF_STAT_FREE, 32767)]
     s.xing.lamp + 1 < 32768 ∧ (s.xing.cells.find? fun p => p.1 == 3) = some (3, .lost false true) ∧ s.freeCells < 32768 ∧
      ends (exec .lamplighterExamine s) (fun t => t.freeCells == 32768 && t.xing.cells == []) = true) ∧
    (let s := xing (fun x => { x with cells := [(3, .lost false false)], lamp := 3 })
     (s.xing.cells.find? fun p => p.1 == 3) = some (3, .lost false false)) ∧
    ((inMode 1).xing.cells.find? fun p => p.1 == 0) = none := by decide +kernel

/-! ### Ethernet ports -/

/-- A port that is enabled with its link up, in RUN. -/
def port (n : Nat) (l : List (Fld × Nat) := []) (f : Port → Port := id) : State :=
  (set (inMode 3) ([(Fld.ETH_CTRL_EN n, 1), (Fld.ETH_STAT_LINK n, 1)] ++ l)).setPort n (f {})

/-- A frame of 64 bytes whose FCS is right. -/
def good : List Byte := List.replicate 60 0 ++ fcsBytes (List.replicate 60 0)

theorem witness_ethernetPorts :
    ((port 25).inReset = false ∧ (port 25).variant.hasPort 25 = true ∧ (port 25).clockGone 0 = false ∧
      (port 25).ethActive 25 = true ∧ (port 25).isThru 25 = false ∧ good.length ≤ (port 25).maxLen 25 ∧
      64 ≤ good.length ∧ goodFcs good = true ∧ wire16 good 12 ≠ 0x8808 ∧ (port 25).flag Fld.XING_STAT_FATAL = false ∧
      State.cellsFor good.length ≤ (port 25).freeCells ∧ goodFcs (List.replicate 64 0) = false ∧ (port 25).ethMaySend 25 = true ∧
      (port 25).flag (Fld.ETH_CFG_STAMPQ 25) = false ∧ (port 25).syncLine (64 + 25) = 0 ∧ (port 25).syncLine (128 + 25) = 0 ∧
      (inMode 3).ethActive 25 = false ∧ (port 25).asks sup = true ∧ (port 25).serves sup = true) ∧
    ends (exec (.receiveFrame 25 (List.replicate 64 0) false 0) (port 25)) (fun t => t.reg (Reg.ETH_CNT 25 12) == 1) = true ∧
    ends (exec (.ethRxSof 25) (port 25)) (fun t => t.syncLine (64 + 25) == 1) = true ∧
    ends (exec (.portDisable 25 sup) (port 25)) (fun t => !t.linkUp 25) = true ∧
    (let s := set (inMode 3) [(Fld.ETH_CTRL_EN 25, 1)]
     s.flag (Fld.ETH_CTRL_EN 25) = true ∧ s.linkUp 25 = false ∧ s.speedAllowed 25 3 = true ∧ Mode.commission ≤ s.mode ∧
      ends (exec (.linkUp 25 3) s) (fun t => t.linkUp 25 && t.fld (Fld.ETH_STAT_SPEED_ACT 25) == 3) = true) ∧
    ends (exec (.linkDown 25) (set (port 25) [(Fld.ETH_HOLD_HOLD_MS 25, 0)])) (fun t => t.flag (Fld.ETH_STAT_FLUSHED 25)) = true ∧
    ends (exec (.linkDown 25) (set (port 25) [(Fld.ETH_HOLD_HOLD_MS 25, 2)])) (fun t =>
      (t.port 25).holdUntil == some 1600000) = true ∧
    (let s : State := { port 25 [] fun p => { p with holdUntil := some 0 } with cycle := 2 }
     (s.port 25).holdUntil = some 0 ∧ 0 * 5 / 8 < s.cycle * 5 / 8 ∧ 1 * 5 / 8 ≤ 0 * 5 / 8 ∧
      ends (exec (.holdExpiry 25) { s with cycle := 1 }) (fun t => !t.flag (Fld.ETH_STAT_FLUSHED 25)) = true ∧
      ends (exec (.holdExpiry 25) s) (fun t =>
        t.flag (Fld.ETH_STAT_FLUSHED 25) && t.reg (Reg.ETH_CNT 25 45) == 1) = true) ∧
    ends (exec (.ethSnap 25 sup) (set (port 25) [(⟨Reg.ETH_CNT 25 47, 0, 32⟩, 9)])) (fun t =>
      t.reg (Reg.ETH_SNAP_CNT 25 47) == 9) = true := by decide +kernel

theorem witness_ethernetPorts_t1s :
    (let s := port 33 [(Fld.ETH_CFG_T1S_MODE 33, 1)]
     State.isT1s 33 = true ∧ s.t1sMode 33 = 1 ∧ s.ethMaySend 33 = true ∧ (s.port 33).opp < s.fld (Fld.ETH_PLCA_NODE_CNT 33) ∧
      (s.port 33).opp ≠ (set s [(Fld.ETH_PLCA_NODE_ID 33, 7)]).fld (Fld.ETH_PLCA_NODE_ID 33) ∧
      ends (exec (.plcaCycle 33) s) (fun t => t.out == [.beacon 33]) = true ∧
      ends (exec (.transmitOpportunity 33) (set s [(Fld.ETH_PLCA_NODE_ID 33, 7)])) (fun t => (t.port 33).opp == 1) = true) ∧
    (let s := port 33 [(Fld.ETH_CFG_T1S_MODE 33, 1), (Fld.ETH_PLCA_NODE_ID 33, 0)] fun p => { p with sending := some (copy0 33), deferred := true }
     (s.port 33).opp = s.fld (Fld.ETH_PLCA_NODE_ID 33) ∧ (s.port 33).sending = some (copy0 33) ∧
      ends (exec (.transmitOpportunity 33) s) (fun t => !(t.port 33).deferred) = true) ∧
    (let s := set (port 33 [(Fld.ETH_CFG_T1S_MODE 33, 0)] fun p => { p with beacons := 1 }) [(Fld.ETH_STAT_LINK 33, 0)]
     s.cycle < (s.port 33).lastBeacon + beaconTime s 33 ∧ 1 ≤ (s.port 33).beacons ∧ s.linkUp 33 = false ∧
      ends (exec (.beaconReceipt 33) s) (fun t => t.linkUp 33) = true) ∧
    (let s : State := { port 33 [(Fld.ETH_CFG_T1S_MODE 33, 0)] with cycle := 102400000 }
     s.t1sMode 33 = 0 ∧ s.linkUp 33 = true ∧ (s.port 33).lastBeacon + beaconTime s 33 ≤ s.cycle ∧
      ends (exec (.beaconTimeout 33) s) (fun t => !t.linkUp 33) = true) ∧
    (let s := port 33 [(Fld.ETH_CFG_T1S_MODE 33, 2)] fun p => { p with sending := some (copy0 33), attempts := 14 }
     (s.port 33).deferred = false ∧ s.t1sMode 33 = 2 ∧ (s.port 33).attempts + 1 < 16 ∧
      ends (exec (.collision 33 true) s) (fun t => (t.port 33).sending == none) = true) ∧
    -- the coordinator's own opportunity and a collision in it; a follower counts without sending
    (let s := port 33 [(Fld.ETH_CFG_T1S_MODE 33, 1)] fun p => { p with sending := some (copy0 33) }
     s.t1sMode 33 ≠ 2 ∧ (s.port 33).attempts + 1 < 16 ∧
      ends (exec (.collision 33 false) s) (fun t => (t.port 33).deferred && t.reg (Reg.ETH_CNT 33 43) == 1) = true) ∧
    (let s := port 33 [(Fld.ETH_CFG_T1S_MODE 33, 0), (Fld.ETH_PLCA_NODE_ID 33, 7)]
     s.t1sMode 33 = 0 ∧ s.ethActive 33 = true ∧ (s.port 33).opp ≠ s.fld (Fld.ETH_PLCA_NODE_ID 33) ∧
      ends (exec (.transmitOpportunity 33) s) (fun t => (t.port 33).opp == 1) = true) ∧
    (let s := port 33 [(Fld.ETH_CFG_T1S_MODE 33, 1)] fun p => { p with sending := some (copy0 33), attempts := 15 }
     16 ≤ (s.port 33).attempts + 1 ∧ s.t1sMode 33 ≠ 2 ∧ ends (exec (.collision 33 false) s) (fun t => t.reg (Reg.ETH_CNT 33 41) == 1) = true) ∧
    (let s := port 33 [(Fld.ETH_CFG_T1S_MODE 33, 2)] fun p => { p with backoff := some 0, deferred := true }
     (s.port 33).backoff = some 0 ∧
      ends (exec (.backoffExpiry 33) s) (fun t => (t.port 33).backoff == none && !(t.port 33).deferred) = true) := by decide +kernel

/-- A port bound to district 0. -/
def bound (n : Nat) (f : Port → Port := id) (l : List (Fld × Nat) := []) : State :=
  (port n l f).setReg (if n < 32 then Reg.RND_BIND_ETH0 0 else Reg.RND_BIND_ETH1 0) (1#32 <<< (n % 32))

theorem witness_frameInterface :
    (let s := bound 33 fun p => { p with rxTail := 1, rxHead := 255 }
     s.ownsPort 11 33 = true ∧ (bound 33).ownsPort 12 33 = false ∧
      (3 % 256 + 256 - (s.port 33).rxHead) % 256 > ((s.port 33).rxTail + 256 - (s.port 33).rxHead) % 256 ∧
      ends (exec (.rxHead 33 11 3) s) (fun t => t.flag (Fld.ETH_STAT_CFG_ERR 33)) = true ∧
      ends (exec (.rxHead 33 11 1) s) (fun t => (t.port 33).rxHead == 1) = true) ∧
    ((11#32).toNat % 16 < 12 ∧ 12 ≤ (12#32).toNat % 16 ∧ fieldGet 0x40000 16 3 ≤ 4 ∧ 4 < fieldGet 0x50000 16 3 ∧
      ends (exec (.rxCtrl 33 11 12) (bound 33)) (fun t => (t.eng 11).refused == [⟨.port, 0x210008, 4⟩]) = true ∧
      ends (exec (.txTail 33 11 129) (bound 33)) (fun t => (t.port 33).txTail == 1) = true ∧
      ends (exec (.aptA 33 11 11 false 0x40000) (bound 33)) (fun t =>
        Store.get (fun _ => 0) (t.port 33).aptA 11 == 0x10040000) = true) ∧
    (1 ≤ (256#32).toNat ∧ (256#32).toNat ≤ 65791 ∧ 65791 < (65792#32).toNat ∧ (bound 33).beyondCap 0 (State.cellsFor 256) = false ∧
      (bound 33).fld Fld.XING_BUF_CFG_HI_RESERVE + State.cellsFor 256 ≤ (bound 33).freeCells ∧
      (bound 33).flag Fld.XING_STAT_FATAL = false ∧
      ends (exec (.alloc 33 11 65792) (bound 33)) (fun t => Store.get (fun _ => 0) (t.port 33).allocRes 11 == 3) = true) := by
  decide +kernel

/-- The transmit ring of P33 with one descriptor offered by engine 3, for a frame in cell 0, and that frame's lease. -/
def ring (l : List Lease) : State :=
  let s := bound 33 (fun p => { p with txTail := 1, holder := [(0, 3)], txDesc := [(0, 0x8000003C)] })
  { s with leases := l, xing := { frames := [(0, some { frame0 with copies := 0, refs := 0, leases := 1 })], nextFrame := 1
                                  cells := [(0, .held 0)] } }

theorem witness_frameInterface_rings :
    ((ring []).nextRing 0 = some 33 ∧ (ring []).nextRing 1 = none ∧
      (let desc : TxDesc := ⟨(ring []).txWord 33 0 0, (ring []).txWord 33 0 1, (ring []).txWord 33 0 2, (ring []).txWord 33 0 3,
         (ring []).txWord 33 0 4⟩
       (ring []).holdsCell 3 desc.cell = false ∧ desc.lso = false ∧ (ring []).frameOfCell desc.cell = some 0) ∧
      ends (exec (.txDescriptor 0) (ring [])) (fun t => t.txWord 33 0 5 == 0xB && (t.port 33).txHead == 1) = true) ∧
    (let s := port 24 [(Fld.ETH_THRU_EN 24, 1)]
     s.isThru 24 = true ∧ (s.port 24).thru = none ∧
      (s.port 24).leaving = [] ∧ s.ethActive 24 = true ∧
      ends (exec (.thruFrame 24 ⟨[1, 2], false, 0⟩) s) (fun t => (t.port 24).patchFrame == 1 && (t.port 24).thru.isSome) = true ∧
      ends (exec (.patchArrival 24 0 [9]) s) (fun t => t.reg (Reg.ETH_CNT 24 36) == 1) = true) ∧
    (let g : ThruFrame := { bytes := List.replicate 64 0, output := some 25, patches := [], speed := 1, keep := 64, began := 0, sent := false }
     let s := port 24 [(Fld.ETH_THRU_EN 24, 1)] fun p => { p with thru := some g }
     5 * (s.cycle - g.began) + 64 ≤ 4 * (g.delayNs + g.byteNs * 60) ∧ 60 + [9#8].length ≤ g.bytes.length ∧
      -- the next frame's SFD comes before this one has left
      g.output.isSome = true ∧ g.sent = false ∧ s.thruDue g = false ∧
      ends (exec (.thruFrame 24 ⟨[1, 2], false, 0⟩) s) (fun t => (t.port 24).leaving == [g] && (t.port 24).patchFrame == 1) = true ∧
      ends (exec (.patchArrival 24 60 [9]) s) (fun t => (t.port 24).thru.map (·.patches) == some [(60, [9])]) = true) ∧
    (let g : ThruFrame := { bytes := [7, 8], output := none, patches := [], speed := 2, keep := 2, began := 0, sent := false }
     let s : State := { like ((run 3).setPort 24 { thru := some g }) 3 fun x => { x with
       loadWait := some { d := 8, wide := false, signed := false, addr := 24 * 0x10000 + 0x4001, bytes := 1, len := 7 } } with
       cycle := 1000 }
     (s.eng 3).loadWait.isSome = true ∧ s.engState 3 ≠ 3 ∧ s.windowBytes 24 1 1 = some 8 ∧ s.windowBytes 25 1 1 = none ∧ (8 : GReg).val ≠ 0 ∧
      ends (exec (.patchWindowLoad 3) s) (fun t => t.greg 3 8 == 8 && t.pc 3 == 7) = true) ∧
    (let s := set (inMode 3) [(Fld.MBX_HOST_CFG_HRING_EN, 1), (Fld.MBX_HTX_TAIL_TAIL, 0), (Fld.MBX_HTX_HEAD_HEAD, 2047)]
     s.flag Fld.MBX_HOST_CFG_HRING_EN = true ∧ s.fld Fld.MBX_HTX_HEAD_HEAD ≠ s.fld Fld.MBX_HTX_TAIL_TAIL ∧
      s.hostMem.readLE (0x10000 + 2047 * 32) 4 % 2 ^ 17 < 14 ∧
      ends (exec .hostTxDescriptor s) (fun t => t.fld Fld.MBX_HTX_HEAD_HEAD == 0 &&
        t.hostMem.readLE (0x10000 + 2047 * 32 + 20) 4 == 3) = true) := by decide +kernel

/-! ### CAN FD and serial lines -/

/-- Controller 15 in an operating state, in RUN, bound to district 0. -/
def canIn (op : Nat) (l : List (Fld × Nat) := []) (f : Can → Can := id) : State :=
  ((set (inMode 3) ([(Fld.CAN_CTRL_EN 15, 1), (Fld.CAN_STAT_OPSTATE 15, op)] ++ l)).setReg (Reg.RND_BIND_CS 0) 0x8000).setCan 15 (f {})

/-- The same with transmit object 31 in a state. -/
def canTx (op state : Nat) (l : List (Fld × Nat) := []) (ws : Store Word := []) (cancel : Bool := false) : State :=
  canIn op l fun x => { x with tx := [(31, { state := state, cancelReq := cancel, words := ws })] }

theorem witness_canControl_commands :
    ((canIn 0).inReset = false ∧ (canIn 0).variant.hasCan 15 = true ∧ (canIn 0).asks sup = true ∧ (canIn 0).serves sup = true ∧
      (canIn 0).canOp 15 = 0 ∧ Mode.commission ≤ (canIn 0).mode ∧ (canIn 0).dataBit 15 ≤ (canIn 0).nominalBit 15 ∧
      ends (exec (.canEnable 15 sup) (canIn 0)) (fun t => t.canOp 15 == 1) = true) ∧
    (let s := canIn 0 [(Fld.CAN_DBT_DBRP 15, 31)]
     s.nominalBit 15 < s.dataBit 15 ∧
      ends (exec (.canEnable 15 sup) s) (fun t => t.flag (Fld.CAN_STAT_CFG_ERR 15) && t.canOp 15 == 0) = true) ∧
    (((canIn 3).can 15).busy = false ∧ ends (exec (.canDisable 15 sup) (canIn 3)) (fun t => t.canOp 15 == 0) = true) ∧
    ((0x800#32).getLsbD 29 = false ∧ fieldGet 0x800 11 18 ≠ 0 ∧ fieldGet 0x400007FF 11 18 = 0 ∧ (0x20000800#32).getLsbD 29 = true ∧
      ends (exec (.canRxid 15 31 0x800 sup) (canIn 3)) (fun t => t.flag (Fld.CAN_STAT_CFG_ERR 15)) = true ∧
      ends (exec (.canRxid 15 31 0x20000800 sup) (canIn 3)) (fun t => t.reg (Reg.CAN_RXID 15 31) == 0x20000800) = true) ∧
    ((canIn 3).flag (Fld.CAN_CMD_RES_DONE 15) = true ∧ (canIn 3).took (Reg.CAN_CMD 15) = false ∧
      -- a second command of one cycle only sets LOST
      ends (exec (.txRequest 15 31 sup) (canIn 3)) (fun t => t.took (Reg.CAN_CMD 15) &&
        ends (exec (.txCancel 15 31 sup) t) fun u => (u.txObj 15 31).state == 1 && u.flag (Fld.CAN_CMD_RES_LOST 15)) = true ∧
      ((canIn 3).txObj 15 31).state = 0 ∧ (canIn 3).txBadArg 15 31 = false ∧ ((canTx 3 1).txObj 15 31).state = 1 ∧
      ((canTx 3 2).txObj 15 31).state = 2 ∧ (canTx 3 0 [] [(1, 0xC0000000)]).txBadArg 15 31 = true ∧
      ends (exec (.txRequest 15 31 sup) (canIn 3)) (fun t => (t.txObj 15 31).state == 1) = true ∧
      ends (exec (.txRequest 15 31 sup) (canTx 3 0 [] [(1, 0xC0000000)])) (fun t => (t.txObj 15 31).state == 5) = true ∧
      ends (exec (.txCancel 15 31 sup) (canTx 3 1)) (fun t => (t.txObj 15 31).state == 4) = true ∧
      ends (exec (.txCancel 15 31 sup) (canTx 3 2)) (fun t => (t.txObj 15 31).cancelReq) = true) ∧
    ((canIn 3 [(Fld.CAN_STAT_CONF 15, 2)]).busOff 15 = true ∧ (canIn 3).busOff 15 = false ∧
      (canIn 3 [(Fld.CAN_STAT_CONF 15, 2)]).flag (Fld.CAN_STAT_RECOVERING 15) = false ∧
      (canIn 3 [(Fld.CAN_STAT_CONF 15, 2)]).flag (Fld.CAN_CTRL_EN 15) = true ∧
      ends (exec (.boffRecover 15 sup) (canIn 3 [(Fld.CAN_STAT_CONF 15, 2)])) (fun t =>
        t.flag (Fld.CAN_STAT_RECOVERING 15)) = true) := by decide +kernel

theorem witness_canControl_bus :
    ((canIn 1).clockGone 4 = false ∧ (canIn 1).canOp 15 = 1 ∧
      ends (exec (.integrationDone 15) (canIn 1)) (fun t => t.canOp 15 == 3) = true) ∧
    (let s := canIn 3 [] fun x => { x with excepted := true, busy := true }
     s.canOp 15 ≠ 1 ∧ (s.can 15).excepted = true ∧ ((canIn 3).can 15).excepted = false ∧
      ends (exec (.busError 15 .crc ⟨true, none, 0⟩ false 0) s) (fun t => t == s) = true ∧
      ends (exec (.integrationDone 15) s) (fun t => !(t.can 15).busy) = true) ∧
    (2 ≤ (canIn 2).canOp 15 ∧ (canIn 2).syncLine (512 + 15) = 0 ∧ (canIn 2).flag (Fld.CAN_CFG_STAMPQ 15) = false ∧
      ends (exec (.canSof 15) (canIn 2 [(Fld.CAN_SOF_CNT_COUNT 15, 65535)])) (fun t => t.fld (Fld.CAN_SOF_CNT_COUNT 15) == 0) = true ∧
      -- a start of frame that its line merges is counted too
      (let s : State := { canIn 2 with syncs := [(512 + 15, 2)] }
       s.syncLine (512 + 15) ≠ 0 ∧ ends (exec (.canSof 15) s) (fun t => t.fld (Fld.CAN_SOF_CNT_COUNT 15) == 1) = true)) ∧
    ((canTx 3 1).canOp 15 = 3 ∧ (canTx 3 1).busOff 15 = false ∧ ((canTx 3 1).can 15).busy = false ∧
      (canTx 3 1).activeObj 15 = none ∧ (canTx 3 1).chosenObj 15 = none ∧
      ((canTx 3 1).can 15).suspendUntil ≤ (canTx 3 1).cycle + (canTx 3 1).nominalBit 15 * 10 ∧
      (canTx 3 1).txChoice 15 = some 31 ∧
      -- the choice leaves the object PENDING; its start of frame makes it ACTIVE
      ends (exec (.arbitrationChoice 15) (canTx 3 1)) (fun t => (t.txObj 15 31).state == 1 && t.chosenObj 15 == some 31 &&
        ends (exec (.canSof 15) t) fun u => (u.txObj 15 31).state == 2 && (u.txObj 15 31).attempts == 1) = true) ∧
    ((canTx 3 2).activeObj 15 = some 31 ∧ ((canTx 3 2).txObj 15 31).cancelReq = false ∧
      ((canTx 3 2).txObjWord 15 31 2).getLsbD 5 = false ∧ ((canTx 3 2 [] [(2, 32)]).txObjWord 15 31 2).getLsbD 5 = true ∧
      ((canTx 3 2 [] [] true).txObj 15 31).cancelReq = true ∧
      ends (exec (.attemptEnd 15 .success none) (canTx 3 2)) (fun t => (t.txObj 15 31).state == 3 && t.out.length == 1) = true ∧
      (let s := canTx 3 2 [(Fld.CAN_DBT_TDC_EN 15, 1)] [(1, 0x80000000), (2, 16)]
       (s.txObjWord 15 31 1).getLsbD 31 = true ∧ (s.txObjWord 15 31 2).getLsbD 4 = true ∧
        s.flag (Fld.CAN_DBT_TDC_EN 15) = true ∧
        ends (exec (.attemptEnd 15 .success (some 70)) s) (fun t => t.fld (Fld.CAN_TDC_STAT_TDCV 15) == 63) = true ∧
        5 ≠ s.checkPoint 15 ∧ ends (exec (.busError 15 .bitDominant ⟨true, none, 5⟩ false 0) s) (fun t => t == s) = true) ∧
      ends (exec (.attemptEnd 15 .lost none) (canTx 3 2)) (fun t => (t.txObj 15 31).state == 1) = true ∧
      ends (exec (.attemptEnd 15 .lost none) (canTx 3 2 [] [(2, 32)])) (fun t => (t.txObj 15 31).state == 5) = true ∧
      ends (exec (.attemptEnd 15 .error none) (canTx 3 2 [] [] true)) (fun t => (t.txObj 15 31).state == 4) = true) := by
  decide +kernel

theorem witness_canControl_errors :
    ((canIn 3 [(Fld.CAN_CFG_PXE 15, 1)]).flag (Fld.CAN_CFG_PXE 15) = true ∧
      ends (exec (.busError 15 .formatBit ⟨false, none, 0⟩ false 0) (canIn 3 [(Fld.CAN_CFG_PXE 15, 1)])) (fun t =>
        (t.can 15).excepted && t.fld (Fld.CAN_CNT1_PEX 15) == 1) = true ∧
      -- R311: TEC 248 and 8 more is BUS_OFF; a receiver's REC stops at 255
      ends (exec (.busError 15 .crc ⟨true, none, 0⟩ false 0) (canTx 3 2 [(Fld.CAN_ECNT_TEC 15, 248)])) (fun t => t.busOff 15) = true ∧
      ends (exec (.busError 15 .crc ⟨true, none, 0⟩ false 1) (canIn 3 [(Fld.CAN_ECNT_REC 15, 250)])) (fun t =>
        t.fld (Fld.CAN_ECNT_REC 15) == 255) = true) ∧
    (let s := canIn 3 [(Fld.CAN_STAT_CONF 15, 2), (Fld.CAN_STAT_RECOVERING 15, 1), (Fld.CAN_ECNT_TEC 15, 300)]
     s.flag (Fld.CAN_STAT_RECOVERING 15) = true ∧
      ends (exec (.recoveryDone 15) s) (fun t => t.fld (Fld.CAN_STAT_CONF 15) == 0 && t.fld (Fld.CAN_ECNT_TEC 15) == 0) = true) := by
  decide +kernel

/-- A data frame with base identifier 0 and one byte, and an object that receives it. -/
def can0 : CanFrame := { id := 0, ide := false, rtr := false, fdf := false, dlc := 1, brs := false, esi := false, data := [7] }
def canRx (l : List Lease) (x : RxObj) : State :=
  { canIn 2 [(Fld.CAN_RXID_EN 15 255, 1)] fun c => { c with rx := [(255, x)] } with leases := l }

theorem witness_canObjects :
    (let s := canRx [] { new := true }
     s.inReset = false ∧ s.variant.hasCan 15 = true ∧ s.clockGone 4 = false ∧ 2 ≤ s.canOp 15 ∧ s.busOff 15 = false ∧
      (s.can 15).excepted = false ∧ State.listedForm can0 = true ∧ s.activeObj 15 = none ∧ can0.fdf = false ∧ (canIn 2).rxMatch 15 can0 = none ∧ s.rxMatch 15 can0 = some 255 ∧
      s.lockHolder 15 255 = none ∧
      ends (exec (.frameValid 15 can0) (canIn 2)) (fun t => t.fld (Fld.CAN_CNT1_NOMATCH 15) == 1) = true ∧
      ends (exec (.frameValid 15 can0) s) (fun t => (t.can 15).due.map (·.1) == [255] &&
        ((t.settleCan 15).rxObj 15 255).lost && ((t.settleCan 15).rxObj 15 255).updates == 1) = true ∧
      (canIn 3).canOp 15 = 3 ∧ ends (exec (.frameValid 15 can0) (canIn 3)) (fun t => t.out == [.canAck 15]) = true ∧
      (∀ p ∈ (s.can 15).due, p.1 ≠ 255) ∧
      s.ownsCan 11 15 = true ∧ s.ownsCan 12 15 = false ∧
      ends (exec (.objectWord0Read 11 15 255) s) (fun t => t.lockHolder 15 255 == some (engineId 11)) = true) ∧
    -- an update of the cycle in which word 0 is read comes before the lock
    (let s := canIn 2 [(Fld.CAN_RXID_EN 15 255, 1)] fun c => { c with due := [(255, [5])] }
     (s.can 15).due = [(255, [5])] ∧ s.lockHolder 15 255 = none ∧
      ends (exec (.objectWord0Read 11 15 255) s) (fun t => (t.rxObj 15 255).words == [5] && (t.can 15).due == []) = true) ∧
    (let s := canRx [{ type := 4, district := 0, index := 15 * 256 + 255, holder := engineId 11 }]
       { pend := some { words := [9], lost := true } }
     (s.lockHolder 15 255).isSome = true ∧ s.lockHolder 15 255 = some (s.ident (0x10 + 11)) ∧
      (s.rxObj 15 255).pend = some { words := [9], lost := true } ∧ engineId 11 ≠ s.ident (0x10 + 10) ∧
      ends (exec (.frameValid 15 can0) s) (fun t => (((t.settleCan 15).rxObj 15 255).pend.map (·.lost)) == some true) = true ∧
      ends (exec (.objectWord19Read 11 15 255) s) (fun t => (t.rxObj 15 255).words == [9] && t.leases == []) = true) := by
  decide +kernel

/-- Line 15 in an operating state, in RUN, bound to district 0. -/
def line (op : Nat) (l : List (Fld × Nat) := []) (f : Serial → Serial := id) : State :=
  ((set (inMode 3) ([(Fld.SER_CTRL_EN 15, 1), (Fld.SER_STAT_OPSTATE 15, op)] ++ l)).setReg (Reg.RND_BIND_CS 0) 0x80000000).setSer 15 (f {})

theorem witness_serialLines :
    ((line 1).inReset = false ∧ (line 1).variant.hasSer 15 = true ∧ (line 1).asks sup = true ∧ (line 1).serves sup = true ∧
      Mode.commission < (line 1).mode ∧ (inMode 2).mode = Mode.commission ∧
      ends (exec (.serEnable 15 true sup) (line 1)) (fun t => t.serOp 15 == 2) = true ∧
      ends (exec (.serEnable 15 true sup) (inMode 2)) (fun t => t.serOp 15 == 1) = true) ∧
    ((line 1).clockGone 4 = false ∧ (line 1).serMode 15 = 0 ∧ 1 ≤ (line 1).serOp 15 ∧ ((line 1).ser 15).de = false ∧
      (line 1).rxCount 15 ≠ 1023 ∧ ((line 1).ser 15).gapFrom = none ∧ (line 0).serOp 15 = 0 ∧
      (line 1 [] fun x => { x with rxTail := 1023 }).rxCount 15 = 1023 ∧
      ((line 1).ser 15).receiving = false ∧ ends (exec (.characterReceived 15 .startBit false false false) (line 1)) (fun t =>
        (t.ser 15).receiving && !(t.ser 15).rxDe && ends (exec (.characterReceived 15 (.char 9) false false false) t) fun u =>
          (u.ser 15).rxTail == 1 && !(u.ser 15).receiving) = true ∧
      (let s := line 1 [] fun x => { x with rxTail := 1023, receiving := true }
       (s.ser 15).receiving = true ∧ (s.ser 15).rxDe = false ∧
        ends (exec (.characterReceived 15 (.char 9) false false false) s) (fun t =>
          (t.ser 15).ovr && t.fld (Fld.SER_CNT_RX_OVR 15) == 1) = true) ∧
      -- a character that the line's own driver has met
      (let s := line 1 [] fun x => { x with receiving := true, rxDe := true }
       (s.ser 15).rxDe = true ∧ s.flag (Fld.SER_CFG_ECHO 15) = false ∧
        ends (exec (.characterReceived 15 (.char 9) false false false) s) (fun t => (t.ser 15).rxTail == 0 && !(t.ser 15).receiving) = true)) ∧
    -- a start bit between T15 and T35 of the last stop bit
    (let s : State := { line 1 [(Fld.SER_CFG_MODE 15, 1), (Fld.SER_GAP_T15 15, 1), (Fld.SER_GAP_T35 15, 2)] fun x =>
       { x with gapFrom := some 0 } with cycle := 800 }
     s.serMode 15 = 1 ∧ (s.ser 15).gapFrom = some 0 ∧ (s.ser 15).sending = false ∧ 0 + s.t15 15 ≤ s.cycle ∧
      s.cycle < 0 + s.t35 15 ∧
      ends (exec (.characterReceived 15 .startBit false false false) s) (fun t => (t.ser 15).rxGap15 && (t.ser 15).gapFrom == none) = true) ∧
    ((line 1).ownsSer 11 15 = true ∧ (1791 + 1792 - ((line 1).ser 15).txTail) % 1792 ≤ 1791 - (line 1).txCount 15 ∧
      (1023 + 1024 - ((line 1).ser 15).rxHead) % 1024 > (line 1).rxCount 15 ∧
      ends (exec (.serTxTail 15 11 1791) (line 1)) (fun t => (t.ser 15).txTail == 1791) = true ∧
      ends (exec (.serTxTail 15 11 1792) (line 1)) (fun t => t.flag (Fld.SER_STAT_CFG_ERR 15)) = true ∧
      ends (exec (.serRxHead 15 11 1023) (line 1)) (fun t => t.flag (Fld.SER_STAT_CFG_ERR 15)) = true ∧
      ends (exec (.serRxHead 15 11 1023) (line 1 [] fun x => { x with rxTail := 1023 })) (fun t => t.rxCount 15 == 0) = true) ∧
    (let s := line 2 [(Fld.SER_CFG_MODE 15, 2)]
     s.serMode 15 = 2 ∧ s.serOp 15 = 2 ∧ s.flag (Fld.SER_STAT_SSI_BUSY 15) = false ∧
      (set s [(Fld.SER_STAT_SSI_BUSY 15, 1)]).flag (Fld.SER_STAT_SSI_BUSY 15) = true ∧
      ends (exec (.ssiStart 15 11) s) (fun t => (t.ser 15).ssi == some 0) = true ∧
      ends (exec (.ssiStart 15 11) (line 2)) (fun t => (t.ser 15).cmdRes == 5) = true) ∧
    (let s := line 2 [(Fld.SER_CFG_MODE 15, 3)]
     s.serMode 15 = 3 ∧ s.serOp 15 = 2 ∧ (s.ser 15).sending = false ∧ (s.ser 15).receiving = false ∧ (s.ser 15).wurq = none ∧
      (line 2).serMode 15 ≠ 3 ∧ ends (exec (.wurq 15 11 2) s) (fun t => (t.ser 15).wurq == some 64000 && (t.ser 15).de) = true) := by decide +kernel

theorem witness_serialLines_events :
    -- a character of six data bits
    (let s : State := { line 2 [] fun x => { x with sending := true, txHead := 1791, tx := [(1791, 0x41)] } with cycle := 10000000 }
     (s.ser 15).txFrom + s.charTime 15 ≤ s.cycle ∧ (s.ser 15).sending = true ∧ (s.ser 15).txTail = ((s.ser 15).txHead + 1) % 1792 ∧ ((line 2).ser 15).sending = false ∧
      ends (exec (.characterSent 15) s) (fun t => t.out.head? == some (.character 15 1) && !(t.ser 15).sending) = true) ∧
    (let s : State := { line 1 [(Fld.SER_CFG_MODE 15, 1), (Fld.SER_GAP_T15 15, 1), (Fld.SER_GAP_T35 15, 2)] fun x =>
       { x with gapFrom := some 0 } with cycle := 1600 }
     (s.ser 15).gapFrom = some 0 ∧ s.serMode 15 = 1 ∧ 1 ≤ s.serOp 15 ∧ (s.ser 15).gap15 = false ∧ 0 + s.t15 15 ≤ s.cycle ∧
      (s.ser 15).gap35 = false ∧ 0 + s.t35 15 ≤ s.cycle ∧ ({ s with cycle := 799 } : State).cycle < 0 + s.t15 15 ∧
      ends (exec (.gapT15 15) s) (fun t => (t.ser 15).gap15) = true ∧
      ends (exec (.gapT35 15) s) (fun t => (t.ser 15).first) = true) ∧
    (let s : State := { line 2 [(Fld.SER_CFG_HALF 15, 1)] fun x => { x with txTail := 1 } with cycle := 10000000 }
     s.serMode 15 ≠ 1 ∧ s.serMode 15 ≠ 2 ∧ s.flag (Fld.SER_CFG_HALF 15) = true ∧ s.txCount 15 ≠ 0 ∧ s.rxIdle 15 = true ∧ (line 2).txCount 15 = 0 ∧
      ends (exec (.rxIdleTime 15) s) (fun t => (t.ser 15).sending && (t.ser 15).de) = true) ∧
    (let s : State := { line 2 [(Fld.SER_CFG_MODE 15, 2), (Fld.SER_CFG_SSI_BITS 15, 3)] fun x => { x with ssi := some 0 } with
       cycle := 10000000 }
     4 = s.fld (Fld.SER_CFG_SSI_BITS 15) + 1 ∧ (s.ser 15).ssi = some 0 ∧ s.flag (Fld.SER_CFG_GRAY 15) = false ∧
      0 + 4 * s.serBit16 15 * 10 / 16 ≤ s.cycle ∧
      ends (exec (.ssiTransferDone 15 0x1F) s) (fun t => (t.ser 15).ssiData == 0xF && (t.ser 15).pause == some (0 + 4 * s.serBit16 15 * 10 / 16)) = true) ∧
    (let s : State := { line 2 [(Fld.SER_GAP_T35 15, 1), (Fld.SER_STAT_SSI_BUSY 15, 1)] fun x => { x with pause := some 0 } with cycle := 800 }
     (s.ser 15).pause = some 0 ∧ 0 + s.t35 15 ≤ s.cycle ∧
      ends (exec (.ssiPauseEnd 15) s) (fun t => !t.flag (Fld.SER_STAT_SSI_BUSY 15)) = true) ∧
    (let s : State := { line 2 [(Fld.SER_CFG_MODE 15, 3)] fun x => { x with wurq := some 64000, de := true } with cycle := 64000 }
     (s.ser 15).wurq = some 64000 ∧ s.txCount 15 = 0 ∧
      ends (exec (.wurqEnd 15) s) (fun t => (t.ser 15).wurq == none && !(t.ser 15).de) = true) := by decide +kernel

/-! ### Time -/

/-- RUN with domain 1 in a state and its source SOFTWARE or another. -/
def clock (state : Nat) (l : List (Fld × Nat) := []) (f : TimeBase → TimeBase := id) (live : Word := 0x20019314) : State :=
  let s := set (inMode 3) ([(Fld.TIME_DOM_STAT_STATE 1, state)] ++ l)
  s.setTb (f { s.tb with domains := [(1, { live := live })] })

theorem witness_timeCommands :
    ((clock 1).serves sup = true ∧ (clock 1).flag Fld.TIME_CMD_RES_DONE = true ∧ (clock 1).took Reg.TIME_CMD = false ∧
      (clock 1).tclkLost = false ∧
      -- a second command of one cycle, and the argument that is tested before the loss of TCLK
      ends (exec (.timeSnap 7 sup) (clock 1)) (fun t => t.took Reg.TIME_CMD &&
        ends (exec (.timeSnap 8 sup) t) fun u => u.flag Fld.TIME_CMD_RES_LOST && u.fld Fld.TIME_CMD_RES_TAG == 7) = true ∧
      ends (exec (.timeInit 1 0 sup) (clock 1 [(Fld.TIME_STAT_TCLK_LOST, 1), (⟨Reg.TIME_ARG 0, 0, 32⟩, 1000000000)])) (fun t =>
        t.fld Fld.TIME_CMD_RES_RESULT == 3) = true ∧
      (clock 1 [(Fld.TIME_STAT_TCLK_LOST, 1)]).tclkLost = true ∧
      (clock 1 [(Fld.TIME_CMD_RES_DONE, 0)]).flag Fld.TIME_CMD_RES_DONE = false ∧
      ends (exec (.timeSnap 7 sup) (clock 1 [(Fld.TIME_CMD_RES_DONE, 0)])) (fun t => t.flag Fld.TIME_CMD_RES_LOST) = true ∧
      ends (exec (.timeLock 1 255 sup) (clock 1 [(Fld.TIME_STAT_TCLK_LOST, 1)])) (fun t =>
        t.fld Fld.TIME_CMD_RES_RESULT == 5 && t.fld Fld.TIME_CMD_RES_TAG == 255) = true) ∧
    (let s := clock 0 [(⟨Reg.TIME_ARG 0, 0, 32⟩, 999999999), (⟨Reg.TIME_ARG 1, 0, 32⟩, 5)]
     s.timeArg 0 % 2 ^ 30 ≤ 999999999 ∧ s.domState 1 = 0 ∧ s.activeDom ≠ 1 ∧ s.domState 0 = 0 ∧
      999999999 < (clock 0 [(⟨Reg.TIME_ARG 0, 0, 32⟩, 1000000000)]).timeArg 0 % 2 ^ 30 ∧
      (clock 1 [(Fld.TIME_STAT_ACTIVE, 1)]).activeDom = 1 ∧ (clock 1).domState 1 ≠ 0 ∧
      ends (exec (.timeInit 1 0 sup) s) (fun t => t.domState 1 == 1 && Instant.sec (t.dom 1).value == 5) = true ∧
      ends (exec (.timeInit 0 0 sup) s) (fun t => Instant.ns t.tb.line == 999999999) = true ∧
      ends (exec (.timeInit 1 0 sup) (clock 0 [(⟨Reg.TIME_ARG 0, 0, 32⟩, 1000000000)])) (fun t =>
        t.fld Fld.TIME_CMD_RES_RESULT == 3) = true) ∧
    (let s := clock 1 [(⟨Reg.TIME_ARG 0, 0, 32⟩, 100)]
     s.mayStep 1 = true ∧ (clock 2).mayStep 1 = false ∧ s.activeDom ≠ 1 ∧
      ends (exec (.timeStep 1 0 sup) s) (fun t => t.domState 1 == 2 && Instant.ns (t.dom 1).value == 100) = true ∧
      ends (exec (.timeStep 1 0 sup) (clock 2)) (fun t => t.fld Fld.TIME_CMD_RES_RESULT == 5) = true) ∧
    (let s := clock 2 [(⟨Reg.TIME_ARG 0, 0, 32⟩, 0xFFFFFFFF), (⟨Reg.TIME_ARG 1, 0, 32⟩, 0xFF)]
     s.rateArg ≤ rateLimit ∧ -rateLimit ≤ s.rateArg ∧ s.domState 1 ≠ 0 ∧ s.liveSrc 1 = 0 ∧
      rateLimit < (clock 2 [(⟨Reg.TIME_ARG 1, 0, 32⟩, 0x7F)]).rateArg ∧
      (clock 2 [(⟨Reg.TIME_ARG 1, 0, 32⟩, 0x80)]).rateArg < -rateLimit ∧ (clock 2 [] id 0x20019315).liveSrc 1 ≠ 0 ∧
      ends (exec (.timeRate 1 0 sup) s) (fun t => (t.dom 1).rate == -1) = true ∧
      ends (exec (.timeRate 1 0 sup) (clock 2 [] id 0x20019315)) (fun t => t.fld Fld.TIME_CMD_RES_RESULT == 5) = true) ∧
    ((clock 2).flag (Fld.TIME_DOM_STAT_HOLDOVER 1) = false ∧
      (clock 2 [(Fld.TIME_DOM_STAT_HOLDOVER 1, 1)]).flag (Fld.TIME_DOM_STAT_HOLDOVER 1) = true ∧
      ends (exec (.timeLock 1 0 sup) (clock 2)) (fun t => t.flag (Fld.TIME_DOM_STAT_LOCKED 1)) = true ∧
      ends (exec (.timeLock 1 0 sup) (clock 2 [(Fld.TIME_DOM_STAT_HOLDOVER 1, 1)])) (fun t =>
        t.fld Fld.TIME_CMD_RES_RESULT == 5) = true ∧
      ends (exec (.timeUnlock 1 0 sup) (clock 2)) (fun t => t.fld Fld.TIME_CMD_RES_RESULT == 0) = true ∧
      ends (exec (.timeSwitch 1 0 sup) (clock 2 [(Fld.TIME_STAT_SWITCHES, 255)])) (fun t =>
        t.activeDom == 1 && t.fld Fld.TIME_STAT_SWITCHES == 0) = true ∧
      ends (exec (.timeSwitch 1 0 sup) (clock 0)) (fun t => t.fld Fld.TIME_CMD_RES_RESULT == 5) = true ∧
      ends (exec (.timeSnap 0 sup) (clock 2 [] fun b => { b with line := 3 * Instant.second + 2 ^ 32 })) (fun t =>
        t.reg (Reg.TIME_SNAP_SEC_LO 0) == 3 && t.reg (Reg.TIME_SNAP_SUB 0) == 1) = true) := by decide +kernel

theorem witness_timeEvents :
    ((clock 1).inReset = false ∧ fieldGet 0 2 8 = 0 ∧ 200 < fieldGet (201 * 4) 2 8 ∧ fieldGet (200 * 4) 2 8 = 200 ∧
      (clock 1).fld Fld.TIME_CFG_TREF_25 = 1 ∧ fieldGet 801 0 1 = 1 ∧ fieldGet 4 0 1 ≠ 1 ∧ (clock 1).mode ≠ Mode.load ∧
      (inMode 1).mode = Mode.load ∧
      ends (exec (.timeCfg (201 * 4) sup) (clock 1)) (fun t => t.flag Fld.TIME_STAT_CFG_ERR) = true ∧
      ends (exec (.timeCfg 801 sup) (clock 1)) (fun t => t.reg Reg.TIME_CFG == 801) = true ∧
      ends (exec (.timeCfg 4 sup) (clock 1)) (fun t => t.reg Reg.TIME_CFG == (clock 1).reg Reg.TIME_CFG) = true ∧
      ends (exec (.timeCfg 4 sup) (inMode 1)) (fun t => t.tclkLost) = true) ∧
    (fieldGet 0x800 11 16 ≠ 0 ∧ fieldGet 0x800 27 4 = 0 ∧ fieldGet 0x8000800 27 4 ≠ 0 ∧
      ends (exec (.timeDomCfg 1 0x800) (clock 1)) (fun t => t.flag Fld.TIME_STAT_CFG_ERR) = true ∧
      ends (exec (.timeDomCfg 1 0x8000800) (clock 1)) (fun t => (t.dom 1).live == 0x8000800) = true ∧
      ends (exec (.timeDomCfg 1 0x8000800) (clock 1 [] id 0x20019315)) (fun t => (t.dom 1).live == 0x20019315) = true) ∧
    (let s : State := { clock 2 [] id 0x8000800 with cycle := 200000000 }
     s.domState 1 ≠ 0 ∧ s.liveSrc 1 = 0 ∧ (s.dom 1).since + s.liveMissLimit 1 * 200000000 ≤ s.cycle ∧
      ends (exec (.softwareHoldoverTimeout 1) s) (fun t => t.flag (Fld.TIME_DOM_STAT_HOLDOVER 1)) = true) ∧
    (let s := clock 1 [(Fld.TIME_PPS_CFG_EN 1, 1)]
     s.flag (Fld.TIME_PPS_CFG_EN 1) = true ∧ s.syncLine (1280 + 1) = 0 ∧
      ends (exec (.ppsEdge 1 (s.flag (Fld.TIME_PPS_CFG_EDGE 1))) { s with syncs := [(1281, 1)] }) (fun t =>
        t.syncLine 1281 == 2 && t.fld (Fld.TIME_PPS_CNT_GOOD 1) == 0) = true ∧ (Store.get (fun _ => {}) s.tb.pps 1 : PpsIn).last = none ∧
      ends (exec (.ppsEdge 1 (s.flag (Fld.TIME_PPS_CFG_EDGE 1))) s) (fun t => t.fld (Fld.TIME_PPS_CAP_NS_NS 1) == 999999986) = true ∧
      ends (exec (.ppsEdge 1 (s.flag (Fld.TIME_PPS_CFG_EDGE 1))) (s.setTb { s.tb with pps := [(1, { last := some 0 })] })) (fun t =>
        t.fld (Fld.TIME_PPS_CNT_BAD 1) == 1) = true) ∧
    (let s : State := { clock 2 [(⟨Reg.TIME_DOM_CFG 1, 0, 32⟩, 0x8000802)] id 0x8000802 with cycle := 800800000 }
     2 ≤ s.liveSrc 1 ∧ s.reg (Reg.TIME_DOM_CFG 1) = (s.dom 1).live ∧ (s.dom 1).since + 800800000 ≤ s.cycle ∧
      s.liveMissLimit 1 ≤ s.fld (Fld.TIME_DOM_STAT_MISS 1) + 1 ∧
      ends (exec (.ppsMissingMeasurement 1) s) (fun t => t.flag (Fld.TIME_DOM_STAT_HOLDOVER 1)) = true) ∧
    (ends (exec .tclkLockReturn (clock 2 [(Fld.TIME_STAT_TCLK_LOST, 1)])) (fun t =>
        !t.tclkLost && t.domState 1 == 1 && t.tb.line == 41 * 2 ^ 47) = true ∧
      (clock 2).tb.refreshAt ≤ (clock 2).cycle ∧
      ends (exec .repeaterRefresh (clock 2)) (fun t => t.tb.refreshes.map (·.value) == [54]) = true) ∧
    (let s := clock 2 [(Fld.TSQ_STAT_COUNT 7, 2), (Fld.TSQ_STAT_HEAD 7, 1023)]
     s.asks sup = true ∧ 1 ≤ fieldGet 1 0 11 ∧ fieldGet 1 0 11 ≤ s.fld (Fld.TSQ_STAT_COUNT 7) ∧
      s.fld (Fld.TSQ_STAT_COUNT 7) < fieldGet 3 0 11 ∧
      ends (exec (.tsqRelease 7 1 sup) s) (fun t => t.fld (Fld.TSQ_STAT_HEAD 7) == 0 && t.fld (Fld.TSQ_STAT_COUNT 7) == 1) = true ∧
      ends (exec (.tsqRelease 7 3 sup) s) (fun t => t.flag (Fld.TSQ_STAT_CFG_ERR 7)) = true) := by decide +kernel

/-- Pulse output 3 with its parameters set, and as armed. -/
def pulse (o : PulseOut) (l : List (Fld × Nat) := []) (line : Instant := 0) : State :=
  clock 0 ([(⟨Reg.TIME_OUT_WIDTH 3, 0, 32⟩, 4), (⟨Reg.TIME_OUT_PERIOD 3, 0, 32⟩, 8), (Fld.TIME_OUT_START_NS_NS 3, 1000)] ++ l)
    fun b => { b with outs := [(3, o)], line := line }

theorem witness_timeEvents_outputs :
    (pulseBad (clock 0) 3 1 = true ∧ pulseBad (pulse {}) 3 2 = false ∧ fieldGet 0 0 2 = 0 ∧ fieldGet 2 0 2 ≠ 0 ∧
      (pulse {}).lineTime + 1000 * Instant.nano ≤ Instant.mk (Instant.sec (pulse {}).lineTime / 2 ^ 32 * 2 ^ 32 +
        (pulse {}).fld (Fld.TIME_OUT_START_SEC_SEC 3)) ((pulse {}).fld (Fld.TIME_OUT_START_NS_NS 3)) 0 ∧
      ends (exec (.timeOutArm 3 1) (clock 0)) (fun t => t.flag Fld.TIME_STAT_CFG_ERR) = true ∧
      ends (exec (.timeOutArm 3 0) (pulse { next := some 0 })) (fun t => (t.pulseOut 3).next == none) = true ∧
      ends (exec (.timeOutArm 3 2) (pulse {})) (fun t => (t.pulseOut 3).next == some (1000 * Instant.nano)) = true) ∧
    (let s := pulse { next := some 5, periodic := true, period := 8, width := 4 } [] 5
     (s.pulseOut 3).next = some 5 ∧ 5 ≤ s.lineTime ∧ s.tclkLost = false ∧ Mode.load < s.mode ∧
      ends (exec (.pulseLeadingEdge 3) s) (fun t => t.out == [.pulse 3 true] &&
        (t.pulseOut 3).trail == some (5 + 4 * Instant.nano)) = true ∧
      ends (exec (.pulseLeadingEdge 3) (pulse { next := some 0 } [(Fld.TIME_STAT_TCLK_LOST, 1)])) (fun t =>
        t.flag (Fld.TIME_OUT_CTRL_MISSED 3)) = true ∧
      (pulse { next := some 6 } [] 5).lineTime < 6) ∧
    (let s := pulse { trail := some 5 } [] 5
     (s.pulseOut 3).trail = some 5 ∧ 5 ≤ s.lineTime ∧
      ends (exec (.pulseTrailingEdge 3) s) (fun t => t.out == [.pulse 3 false]) = true) ∧
    (let s := set (clock 2 [] fun b => { b with line := 2 }) [(Fld.TIME_STAT_ACTIVE, 1)]
     s.domState s.activeDom ≠ 0 ∧ ends (exec .slewingEnd s) (fun t => !t.flag Fld.TIME_STAT_EXACT) = true) := by decide +kernel

/-! ### The process image and the reduction units -/

/-- The image controller in RUN. -/
def img (l : List (Fld × Nat) := []) (f : Image → Image := id) : State :=
  let s := set (inMode 3) l
  s.setImg (f s.img)

def ver (v : Nat) : Ver := { value := v, stamp := 0, quality := 0, user := 0 }

/-- Slot 63 open, of function 0, with one version of point 9 in its set. -/
def openSlot (l : List (Fld × Nat) := []) (f : Image → Image := id) : State :=
  img ([(Fld.IMG_SLOT_STATE 63, 1), (Fld.IMG_TXN_SEL_SEL 0, 1), (Fld.IMG_TXN_SEL_SLOT 0, 63)] ++ l) fun x =>
    f { x with txns := [(63, { set := [(9, some { ver := ver 5, auto := false })] })] }

/-- A pin of function 0 over points 0–15 at epoch 0, and point 9 written since. -/
def pinned (l : List (Fld × Nat) := []) : State :=
  img ([(Fld.IMG_PIN_FIRST_HELD 7, 1), (Fld.IMG_PIN_COUNT_COUNT 7, 16)] ++ l) fun x =>
    { x with points := [(9, { slot0 := { held := .version (ver 1) }, slot1 := { held := .version (ver 2), cur := true }
                              last := 1 })] }

theorem witness_processImage_writes :
    ((img).serves host = true ∧ (img).img.run = none ∧ (img).img.waiting = [] ∧ (img).img.cmds = [] ∧ (img).img.nextCmd ≤ (img).cycle ∧ 63 < (img).variant.imgSlots ∧
      (img).readsRemote host = false ∧ (img).flag (Fld.IMG_TXN_SEL_SEL 0) = false ∧ 9 < (img).variant.points ∧
      (img).carriedFlow 0 = none ∧ (img).cowNeed 9 = [] ∧ (pinned).cowNeed 9 = [7] ∧
      (pinned [(Fld.IMG_COW_STAT_FREE, 0)]).fld Fld.IMG_COW_STAT_FREE = 0 ∧
      ends (exec (.directWrite host 9 4) (img)) (fun t => (t.point 9).cur == .version (ver 4)) = true ∧
      ((pinned).point 9).cur = .version (ver 2) ∧ ((pinned).point 9).prev = .version (ver 1) ∧
      ends (exec (.directWrite host 9 4) (pinned [(Fld.IMG_COW_STAT_FREE, 0)])) (fun t => t.img.waiting.length == 1) = true) ∧
    ((openSlot).flag (Fld.IMG_TXN_SEL_SEL 0) = true ∧ (openSlot).imgSlot 63 = 1 ∧ (openSlot).imgHolder 63 = host ∧
      ((openSlot).imgTxn 63).set.length < 65536 ∧ (openSlot [(Fld.IMG_SLOT_STATE 63, 2)]).imgSlot 63 ≠ 1 ∧
      ends (exec (.writeSetAdd host 8 4) (openSlot)) (fun t => (t.imgTxn 63).set.length == 2) = true ∧
      ends (exec (.writeSetAdd host 8 4) (openSlot [(Fld.IMG_SLOT_STATE 63, 2)])) (fun t =>
        t.fld Fld.IMG_ERR_TXN_REFUSED == 1) = true ∧
      ends (exec .clearSweepDone (img)) (fun t => t.flag Fld.IMG_STAT_READY) = true) := by decide +kernel

theorem witness_processImage_commands :
    ((img [(Fld.IMG_RES_DONE 0, 0)]).flag (Fld.IMG_RES_DONE 0) = false ∧ (img).flag (Fld.IMG_RES_DONE 0) = true ∧
      (img).took (Reg.IMG_RES 0) = false ∧ (img).mode ≠ Mode.safeHold ∧
      ends (exec (.imgBegin host true) (inMode 5)) (fun t => t.fld (Fld.IMG_RES_RESULT 0) == 5 && t.img.nextCmd == 64) = true ∧
      ends (exec (.imgBegin host true) (img)) (fun t => t.took (Reg.IMG_RES 0) &&
        ends (exec (.pin host) t) fun u => u.flag (Fld.IMG_RES_LOST 0) && u.img == t.img) = true ∧
      ((List.range (img).variant.imgSlots).find? fun t => (img).imgSlot t == 0) = some 0 ∧
      ends (exec (.imgBegin host true) (img [(Fld.IMG_RES_DONE 0, 0)])) (fun t => t.flag (Fld.IMG_RES_LOST 0)) = true ∧
      ends (exec (.imgBegin host true) (img)) (fun t => t.imgSlot 0 == 1 && t.img.epoch == 1) = true ∧
      ends (exec (.imgCommit host 63) (openSlot)) (fun t => t.img.cmds.length == 1 && t.fld (Fld.IMG_RES_RESULT 0) == 1) = true) ∧
    (let full := set (img) ((List.range 64).map fun t => (Fld.IMG_SLOT_STATE t, 2))
     (List.range full.variant.imgSlots).all (fun n => full.imgSlot n != 0 && full.imgSlot n != 3) = true ∧
      ends (exec (.imgBegin host true) full) (fun t => t.fld (Fld.IMG_RES_RESULT 0) == 7) = true) ∧
    ((openSlot).isAged 63 host = false ∧ (img).imgSlot 63 ≠ 1 ∧
      ends (exec (.imgRollback host 63) (openSlot)) (fun t => t.imgSlot 63 == 0 && t.img.txns == []) = true ∧
      ends (exec (.imgRollback host 63) (img)) (fun t => t.fld (Fld.IMG_RES_RESULT 0) == 5) = true) ∧
    (let s := img [(Fld.IMG_ARG1_COUNT 0, 16)]
     ((List.range 8).find? fun k => !s.pinHeld k) = some 0 ∧ s.fld (Fld.IMG_ARG1_COUNT 0) ≠ 0 ∧
      s.fld (Fld.IMG_ARG0_FIRST 0) + s.fld (Fld.IMG_ARG1_COUNT 0) ≤ s.variant.points ∧
      ends (exec (.pin host) s) (fun t => t.pinHeld 0 && t.img.epoch == 1) = true) ∧
    (let s := img [(Fld.IMG_ARG0_FIRST 0, (img).variant.points - 1), (Fld.IMG_ARG1_COUNT 0, 2)]
     s.variant.points < s.fld (Fld.IMG_ARG0_FIRST 0) + s.fld (Fld.IMG_ARG1_COUNT 0) ∧
      ends (exec (.pin host) s) (fun t => t.fld (Fld.IMG_RES_RESULT 0) == 3) = true) ∧
    ((pinned).isAged (64 + 7) host = false ∧ (pinned).pinHeld 7 = true ∧ (pinned).pinHolder 7 = host ∧ (img).pinHeld 7 = false ∧
      ends (exec (.unpin host 7) (pinned)) (fun t => !t.pinHeld 7) = true ∧
      ends (exec (.unpin host 7) (img)) (fun t => t.fld (Fld.IMG_RES_RESULT 0) == 5) = true) := by decide +kernel

theorem witness_processImage_commit :
    ((openSlot [(Fld.IMG_SLOT_STATE 63, 3)]).imgSlot 63 = 3 ∧
      ends (exec (.settleComplete 63) (openSlot [(Fld.IMG_SLOT_STATE 63, 3)])) (fun t => t.imgSlot 63 == 0) = true ∧
      ends (exec .cowRecordsFreed (img [(Fld.IMG_COW_STAT_FREE, 7)] fun x => { x with freed := 2 })) (fun t =>
        t.fld Fld.IMG_COW_STAT_FREE == 9 && t.img.freed == 0) = true) ∧
    (let at1 (s : State) : State := s.setImg { s.img with cmds := [(host, .commit 63 none)] }
     let s := openSlot
     let late := openSlot [] fun x => { x with points := [(9, { last := 1 })] }
     s.flag (Fld.IMG_SLOT_RECIPE 63) = false ∧ s.flag (Fld.IMG_SLOT_OVF 63) = false ∧
      ((late.imgTxn 63).set.any fun q => decide ((late.imgTxn 63).begin < (late.point q.1).last)) = true ∧
      ((s.imgTxn 63).set.any fun q => decide ((s.imgTxn 63).begin < (s.point q.1).last)) = false ∧
      (s.imgTxn 63).set = [(9, some { ver := ver 5, auto := false })] ∧ s.cowNeed 9 = [] ∧
      (s.point 9).last ≤ (s.imgTxn 63).begin ∧
      ends (exec (.commitProcessing false) (at1 late)) (fun t => t.fld (Fld.IMG_RES_RESULT 0) == 6 && t.imgSlot 63 == 0) = true ∧
      ends (exec (.commitProcessing false) (at1 s)) (fun t => t.imgSlot 63 == 2 && t.img.run.isSome) = true ∧
      ends (exec (.commitProcessing true) (at1 s)) (fun t => t.imgSlot 63 == 3 &&
        (t.point 9).cur == .version (ver 5) && (t.point 9).last == 1) = true) ∧
    (let w : Write := { ver := ver 4, auto := false }
     let c : ImgWait := { who := host, req := .write 9 w none, since := 0 }
     let s : State := { img with cycle := 10000000 }
     c.since + s.fld Fld.IMG_COW_WAIT_WAIT_US * 800 ≤ s.cycle ∧
      ends (exec .cowWaitTimeout (s.setImg { s.img with waiting := [c] })) (fun t =>
        t.fld Fld.IMG_ERR_COW_DROP == 1 && t.img.waiting == []) = true) := by decide +kernel

/-- Unit 7 with a sample record in its queue: channel 5 of district 7 with NEW_STEP, 3,000 volts and 2 of current. -/
def sru (w0 : Word) (l : List (Fld × Nat) := []) : State :=
  (set (inMode 3) ([(Fld.SRU_CTRL_EN 7, 1)] ++ l)).setSru 7 { inq := [[w0, 3000, 2, 40, 0]], eosq := [(0x1C005, 3)] }

theorem witness_reductionUnits :
    ((sru 0).inReset = false ∧ (sru 0).variant.hasSru = true ∧ 7 < (sru 0).variant.districts ∧
      ((sru 0).sru 7).nextSample ≤ (sru 0).cycle ∧
      ((sru 0).setSru 7 { (sru 0).sru 7 with nextSample := 1 }).cycle < 1 ∧ ((sru 0).sru 7).inq = [0, 3000, 2, 40, 0] :: [] ∧ (sru 0).sruStall 7 = false ∧ ((inMode 3).sru 7).inq = [] ∧
      (sru 0).fld (Fld.SRU_CTRL_EN 7) = 1 ∧ (sru 0).flag (Fld.SRU_STAT_FAULT 7) = false ∧
      (sru 0 [(Fld.SRU_CTRL_EN 7, 0)]).fld (Fld.SRU_CTRL_EN 7) = 0 ∧
      ((sru 0).sampleOf 7 [0, 3000, 2, 40, 0]).channel / 16384 ≠ 7 ∧
      ((sru 0).sampleOf 7 [0x45C005, 3000, 2, 40, 0]).bad = true ∧
      ((sru 0).sampleOf 7 [0x1C005, 3000, 2, 40, 0]).newStep = false ∧
      ends (exec (.sampleProcessing 7 false) (sru 0 [(Fld.SRU_CTRL_EN 7, 0)])) (fun t => t.fld (Fld.SRU_CNT3_OFF_DROP 7) == 1) = true ∧
      ends (exec (.sampleProcessing 7 false) (sru 0)) (fun t => t.fld (Fld.SRU_CNT0_NOT_OWNED 7) == 1) = true ∧
      ends (exec (.sampleProcessing 7 false) (sru 0x45C005)) (fun t => t.fld (Fld.SRU_CNT0_BAD 7) == 1) = true ∧
      ends (exec (.sampleProcessing 7 false) (sru 0x1C005)) (fun t => t.fld (Fld.SRU_CNT0_NO_STEP 7) == 1) = true) ∧
    (let y := (sru 0).sampleOf 7 [0x3C005, 3000, 2, 40, 0]
     y.channel / 16384 = 7 ∧ y.bad = false ∧ ((sru 0).ledger 7 5).state = 0 ∧ y.newStep = true ∧ y.channel % 16384 = 5 ∧
      ends (exec (.sampleProcessing 7 false) (sru 0x3C005)) (fun t =>
        (t.ledger 7 5).volt == 3000 && (t.ledger 7 5).step == 1 && (t.ledger 7 5).stamp == 40) = true) := by decide +kernel

theorem witness_reductionUnits_commands :
    ((sru 0).asks sup = true ∧ (sru 0).serves sup = true ∧ (sru 0).fld (Fld.SRU_CMD_RES_DONE 7) = 1 ∧
      (sru 0 [(Fld.SRU_CMD_RES_DONE 7, 0)]).fld (Fld.SRU_CMD_RES_DONE 7) = 0 ∧
      (sru 0).took (Reg.SRU_CMD 7) = false ∧ (sru 0).flag (Fld.SRU_EXPORT_EN 7) = false ∧
      ends (exec (.sruCtrl sup 7 false) (sru 0)) (fun t => !t.flag (Fld.SRU_CTRL_EN 7)) = true ∧
      ends (exec (.sruExport sup 7 5) (sru 0 [(Fld.SRU_CMD_RES_DONE 7, 0)])) (fun t => t.flag (Fld.SRU_CMD_RES_LOST 7)) = true ∧
      ends (exec (.clear sup 7 16383) ((sru 0).setLedger 7 16383 { state := 2 })) (fun t => t.ledger 7 16383 == {}) = true ∧
      ends (exec (.latch sup 7 5) ((sru 0).setLedger 7 5 { step := 3 })) (fun t =>
        (State.latchWords { step := 3 })[0]? == some (t.reg (Reg.SRU_LATCH 7 0))) = true ∧
      ends (exec (.sruExport sup 7 5) (sru 0)) (fun t => t.fld (Fld.SRU_CMD_RES_RESULT 7) == 5) = true) ∧
    (let s := sru 0 [(Fld.SRU_EXPORT_EN 7, 1)]
     s.flag (Fld.SRU_EXPORT_EN 7) = true ∧ s.img.waiting = [] ∧ s.ownCmd (s.ident (0xD0 + 7)) = false ∧ (List.range 8).all (fun k => !s.pinHeld k) = true ∧
      ends (exec (.sruExport sup 7 5) s) (fun t => t.fld (Fld.SRU_CMD_RES_RESULT 7) == 0 &&
        (State.exportOffsets true).all fun k => match (t.point (64 * 5 + k)).cur with | .version _ => true | _ => false) = true ∧
      ends (exec (.sruExport sup 7 5) (s.setLedger 7 5 { state := 1, stamp := 9 })) (fun t =>
        t.ledger 7 5 == { state := 1, stamp := 9, exported := some 9 }) = true) ∧
    (((sru 0).sru 7).eosq = (0x1C005, 3) :: [] ∧
      ends (exec (.sruEosQRead sup 7) (sru 0)) (fun t => (t.sru 7).eosq == []) = true ∧
      ends (exec (.selfCheckFailure 7) (sru 0)) (fun t => t.flag (Fld.SRU_STAT_FAULT 7)) = true) := by decide +kernel

/-! ### Twins -/

/-- LOAD with a fresh instance of package 7 in engines 0 and 12, and areas for pair 0. -/
def twin (mode : Nat) (l : List (Fld × Nat) := []) (f : Pair → Pair := id) : State :=
  let s := set (inMode mode) ([(Fld.SYS_PKG_ENG_PKG_ID 0, 7), (Fld.SYS_PKG_ENG_PKG_ID 12, 7), (⟨Reg.RED_ARG0, 0, 32⟩, 0xC00)] ++
    ([0, 1].flatMap fun m => [(Fld.RED_CKPT_SIZE 0 m, 0x31), (Fld.RED_CKPT_BUF 0 m, 1)]) ++ l)
  s.setPair 0 (f {})

/-- Pair 0 formed of engines 0 and 12. -/
def formed (mode : Nat) (l : List (Fld × Nat) := []) (x : PairSlot := { engine := some 0 }) : State :=
  twin mode ([(Fld.RED_PSTAT_STATE 0, 1)] ++ l) fun _ => { slot0 := x, slot1 := { engine := some 12 } }

theorem witness_twinCommands :
    ((twin 1).asks host = true ∧ (twin 1).serves host = true ∧ (twin 1).variant.hasTwin = true ∧
      (twin 1).flag Fld.RED_CMD_RES_DONE = true ∧ (twin 1).took Reg.RED_CMD = false ∧ (twin 1 [(Fld.RED_CMD_RES_DONE, 0)]).flag Fld.RED_CMD_RES_DONE = false ∧
      ends (exec (.pair host 255) (twin 1 [(Fld.RED_CMD_RES_DONE, 0)])) (fun t => t.flag Fld.RED_CMD_RES_LOST) = true) ∧
    (((twin 1).reg Reg.RED_ARG1).getLsbD 9 = false ∧ (twin 1).pairBad 0 none = false ∧ (twin 1).mode = Mode.load ∧
      (twin 1).leases = [] ∧ (formed 1).pairBad 0 none = true ∧ (twin 3).pairBad 0 none = false ∧ (twin 3).mode ≠ Mode.load ∧
      ends (exec (.pair host 255) (twin 1)) (fun t => t.pairState 0 == 1 && t.inForce 0 1 && t.fld Fld.RED_CMD_RES_TAG == 255) = true ∧
      ends (exec (.pair host 0) (formed 1)) (fun t => t.fld Fld.RED_CMD_RES_RESULT == 3) = true ∧
      ends (exec (.pair host 0) (twin 3)) (fun t => t.fld Fld.RED_CMD_RES_RESULT == 5) = true) ∧
    ((twin 1).variant.pairs ≤ (twin 1 [(⟨Reg.RED_ARG1, 0, 6⟩, 63)]).argPair ∧ (twin 1).argPair < (twin 1).variant.pairs ∧
      ends (exec (.unpair host 0) (twin 1 [(⟨Reg.RED_ARG1, 0, 6⟩, 63)])) (fun t => t.fld Fld.RED_CMD_RES_RESULT == 3) = true ∧
      ends (exec (.unpair host 0) (formed 1)) (fun t => t.pairState 0 == 0 && t.pair 0 == {}) = true ∧
      ends (exec (.unpair host 0) (formed 3)) (fun t => t.fld Fld.RED_CMD_RES_RESULT == 5) = true ∧
      ends (exec (.resync host 0) (twin 3)) (fun t => t.fld Fld.RED_CMD_RES_RESULT == 0) = true) ∧
    (let l : Lease := { type := 3, district := 7, index := 63, holder := engineId 90 }
     let s : State := { twin 3 [(⟨Reg.RED_ARG0, 0, 32⟩, 0x3700003F)] with leases := [l] }
     State.handleParts (s.reg Reg.RED_ARG0).toNat = (3, 7, 63) ∧ s.leaseOf 3 7 63 = some l ∧
      (State.handleParts 0x8000000).1 = 0 ∧ (State.handleParts 0x90000000).1 = 9 ∧
      ends (exec (.reclaim host 0) s) (fun t => t.leases == []) = true ∧
      ends (exec (.reclaim host 0) (twin 3)) (fun t => t.fld Fld.RED_CMD_RES_RESULT == 3) = true ∧
      ends (exec (.reclaim host 0) (twin 3 [(⟨Reg.RED_ARG0, 0, 32⟩, 0x80000000)])) (fun t => t.fld Fld.RED_CMD_RES_RESULT == 5) = true) := by
  decide +kernel

/-- Bytes of a valid empty checkpoint: its magic. -/
def ckpt (a : Nat) : Mem := Mem.writeLE [] a 4 0x31504B43

theorem witness_twinCommands_failOver :
    ((formed 3).mode ≠ Mode.load ∧ (formed 3).inForce 0 0 = true ∧ ((formed 3).pairSlot 0 0).engine = some 0 ∧
      (formed 3).hasEngine 0 = true ∧ (twin 3).inForce 0 0 = false ∧ (formed 3).argSlot = 0 ∧
      ends (exec (.fail host 0) (formed 3)) (fun t => !t.inForce 0 0 && t.fld Fld.RED_CNT1_DECLARED == 1) = true ∧
      ends (exec (.fail host 0) (twin 3)) (fun t => t.fld Fld.RED_CMD_RES_RESULT == 5) = true) ∧
    (let s : State := { formed 1 with mram := ckpt 0x200000 }
     s.pairState 0 ≠ 0 ∧ s.isRemote 0 0 = false ∧ s.mramValid 0 0 = true ∧ (formed 1).mramValid 0 0 = false ∧
      s.fld (Fld.RED_CKPT_SIZE 0 0) ≠ 0 ∧ s.argPair = 0 ∧
      ends (exec (.ckptLoad host 0) s) (fun t => (t.dist 0).sram.readLE 0 4 == 0x31504B43) = true ∧
      ends (exec (.ckptLoad host 0) (formed 1)) (fun t => t.fld Fld.RED_CMD_RES_RESULT == 3) = true) := by decide +kernel

theorem witness_twinEvents :
    (let s := formed 3 [(Fld.RED_PSTAT_FAILED1 0, 1)]
     let s : State := { s with red := { s.red with monitoring := true }, cycle := 10000000 }
     s.inReset = false ∧ s.red.monitoring = true ∧ s.red.periodStart + s.heartbeat ≤ s.cycle ∧ s.monitoredEngines = [0] ∧
      ends (exec .heartbeatPeriodEnd s) (fun t => t.fld (Fld.RED_LANT_MISS2 0) == 1) = true ∧
      ({ s with cycle := 0 } : State).cycle < s.red.periodStart + s.heartbeat ∧ (formed 3).red.monitoring = false) ∧
    (let s := formed 3 [(Fld.RED_PSTAT_FAILED0 0, 1)] { engine := some 0, reclaiming := true }
     (s.pairSlot 0 0).reclaiming = true ∧ s.leases = [] ∧ (s.pairSlot 0 0).engine = some 0 ∧ s.hasEngine 0 = true ∧
      s.spareOf 0 0 = none ∧ ((formed 3).pairSlot 0 0).reclaiming = false ∧
      ends (exec (.reclaimComplete 0 0) s) (fun t => t.pairState 0 == 2 && !(t.pairSlot 0 0).reclaiming) = true) ∧
    (let s := formed 3 [(Fld.RED_PSTAT_FAILED0 0, 1)] { engine := some 0, joinBy := some 5 }
     s.roleSlot 0 = some (0, 0) ∧ s.roleIn 0 (0, 0) = 3 ∧ s.inForce 0 (1 - 0) = true ∧ s.roleSlot 1 = none ∧
      (s.pairSlot 0 0).joinBy = some 5 ∧
      ends (exec (.join 0) s) (fun t => t.pairState 0 == 1 && !t.flag (State.failedFld 0 0)) = true ∧
      ends (exec (.join 0) { s with cycle := 6 }) (fun t => t.flag (State.failedFld 0 0) &&
        Store.get (fun _ => 0) t.red.jres 0 == 5) = true ∧
      ends (exec (.join 1) s) (fun t => Store.get (fun _ => 0) t.red.jres 1 == 5) = true ∧
      ends (exec (.restoreTimeout 0 0) { s with cycle := 5 }) (fun t => t.fld Fld.RED_CNT1_RESTORE_FAIL == 1) = true) ∧
    (let s := twin 3 [(Fld.RED_PSTAT_STATE 0, 1), (Fld.RED_CKPT_BUF 0 0, 0), (Fld.RED_CFG_MRAM_100MS, 1)] fun _ =>
       { slot0 := { engine := some 0 }, remote := some 1 }
     let s : State := { (s.setDist 0 { s.dist 0 with sram := ckpt 0 }) with cycle := 80000000 }
     let every := s.fld Fld.RED_CFG_MRAM_100MS * 80000000
     let a := s.ckptArea 0 0
     every ≠ 0 ∧ s.red.mramAt + every ≤ s.cycle ∧ a.2.2 ≤ 61184 ∧ s.nvBlocked = false ∧
      (s.slots.filter fun q => s.pairState q.1 != 0 && !s.isRemote q.1 q.2 && decide (2 * q.1 + q.2 < 32)) = [(0, 0)] ∧
      State.ckptValid (s.dist (s.slotDistrict 0 0)).sram a.1 (fun x => a.1 + 0x100 + x * a.2.2) a.2.2 = true ∧
      (s.pairSlot 0 0).copied ≠ some ((s.dist (s.slotDistrict 0 0)).sram.readLE 0x10 4) ∧
      s.nv = none ∧ s.sup = {} ∧
      ends (exec .checkpointCopy s) (fun t => t.red.mramAt == 80000000 && t.sup.started == some 80000000 &&
        t.sup.rows.map (·.addr) == (s.copyRows 0 0 0 0).map (·.addr) && t.mram == s.mram) = true) ∧
    (let s := twin 3 [(Fld.RED_PSTAT_STATE 0, 1)] fun _ => { slot0 := { engine := some 0 }, remote := some 1, silent := 3000000 }
     let s : State := { s with red := { s.red with monitoring := true } }
     (s.pair 0).remote = some 1 ∧ s.red.monitoring = true ∧ s.inForce 0 1 = true ∧ 3 * s.window1 ≤ (s.pair 0).silent ∧ (formed 3).red.records = [] ∧
      ((formed 3).pair 0).remote = none ∧
      ends (exec (.wilernHeartbeatTimeout 0) s) (fun t => t.pairState 0 == 2 && t.flag (Fld.RED_PSTAT_FAILED1 0)) = true) ∧
    (let s := (formed 3).setProxy 7 7 { gathered := [1], last := 0 }
     let s : State := { s with cycle := 10000000 }
     (s.proxy 7 7).gathered ≠ [] ∧ (s.proxy 7 7).last + s.charTime (s.fld (Fld.RED_PROXY_UNIT 7 7)) ≤ s.cycle ∧
      (s.records 7).length < 16 ∧
      ends (exec (.proxySerialFlush 7 7) s) (fun t => (t.records 7).length == 1 && (t.proxy 7 7).seq == 1) = true) := by
  decide +kernel

/-! ### Mailboxes and the safety island -/

/-- Channel 63 held by engine 95, with messages waiting. -/
def mbx (l : List (Fld × Nat) := []) (q : List MbxMsg := []) (holder : Option Ident := some (engineId 95)) : State :=
  { (set (inMode 3) l).setChannel 63 { holder := holder, depth := 4, any := true, queue := q } with
    leases := match holder with | some h => [{ type := 6, district := 0, index := 63, holder := h }] | none => [] }

theorem witness_mailboxesAndRings :
    ((mbx).serves host = true ∧ (mbx).mayStamp host = true ∧ (mbx).mayStamp sup = true ∧ (mbx).mayStamp (engineId 95) = true ∧
      (mbx).mayStamp 8 = false ∧ (mbx).took (Reg.MBX_CMD 0) = false ∧ (mbx).took (Reg.MBX_SEND 0) = false ∧
      (mbx).now.opened = [] ∧ (mbx).now.sent = [] ∧ (mbx).now.ended = [] ∧ (mbx).flag (Fld.MBX_CMD_RES_DONE 0) = true ∧
      (mbx [(Fld.MBX_CMD_RES_DONE 0, 0)]).flag (Fld.MBX_CMD_RES_DONE 0) = false ∧ ((mbx).channel 63).holder = some (engineId 95) ∧
      ((inMode 3).channel 63).holder = none ∧ Ident.isSup host = false ∧ Ident.isSup sup = true ∧
      ends (exec (.mbxOpen host 63 3 31 true 5) (inMode 3)) (fun t => (t.channel 63).depth == 4 && (t.leaseOf 6 0 63).isSome) = true ∧
      ends (exec (.mbxOpen host 63 3 31 true 5) (mbx)) (fun t => t.fld (Fld.MBX_CMD_RES_RESULT 0) == 2) = true ∧
      ends (exec (.mbxOpen host 63 3 31 true 5) (mbx [(Fld.MBX_CMD_RES_DONE 0, 0)])) (fun t =>
        t.flag (Fld.MBX_CMD_RES_LOST 0)) = true ∧
      ends (exec (.close (engineId 95) 63) (mbx)) (fun t => t.channel 63 == {} && t.leases == []) = true ∧
      ends (exec (.close host 63) (mbx)) (fun t => t.fld (Fld.MBX_CMD_RES_RESULT 0) == 5) = true ∧
      ends (exec (.revoke host 63) (mbx)) (fun t => t.fld (Fld.MBX_CMD_RES_RESULT 0) == 0xA) = true ∧
      ends (exec (.revoke sup 63) (mbx)) (fun t => t.channel 63 == {}) = true ∧
      ends (exec (.revoke sup 63) (inMode 3)) (fun t => t.fld (Fld.MBX_CMD_RES_RESULT 112) == 5) = true) ∧
    ((mbx).fld (Fld.MBX_SEND_RES_DONE 0) = 1 ∧ (mbx [(Fld.MBX_SEND_RES_DONE 0, 0)]).fld (Fld.MBX_SEND_RES_DONE 0) = 0 ∧
      (mbx).sendFlow 0 = none ∧ (mbx).sendCode host 63 = Code.ok ∧ (inMode 3).sendCode host 63 ≠ Code.ok ∧
      ends (exec (.send host 63 257 none) (mbx)) (fun t => t.flag Fld.MBX_HOST_STAT_CFG_ERR) = true ∧
      ends (exec (.send host 63 4 none) (mbx [(Fld.MBX_SEND_RES_DONE 0, 0)])) (fun t => t.flag (Fld.MBX_SEND_RES_LOST 0)) = true ∧
      ends (exec (.send host 63 4 none) (mbx [(⟨Reg.MBX_SDATA 0 0, 0, 32⟩, 0x04030201)])) (fun t =>
        (t.channel 63).queue == [{ src := host, slot := 0, data := [1, 2, 3, 4] }] &&
          t.fld (Fld.MBX_SEND_RES_RESULT 0) == 1) = true ∧
      ends (exec (.send host 63 4 none) (inMode 3)) (fun t => t.fld (Fld.MBX_SEND_RES_RESULT 0) == 5) = true) := by decide +kernel

theorem witness_mailboxesAndRings_ends :
    (let m : MbxMsg := { src := host, slot := 0, data := [1] }
     let s := mbx [(Fld.MBX_SEND_RES_DONE 0, 0)] [m]
     (s.channel 63).holder = some (engineId 95) ∧ (3#16) ≠ 1 ∧ (s.channel 63).queue = m :: [] ∧ Ident.chip m.src = s.chip ∧
      Ident.isIsland m.src = false ∧ s.fld (Fld.MBX_SEND_RES_DONE 0) = 0 ∧
      ends (exec (.ack (engineId 95) 63 3) s) (fun t => (t.channel 63).queue == [] && t.fld (Fld.MBX_SEND_RES_RESULT 0) == 3) = true ∧
      ends (exec (.ack (engineId 95) 63 1) s) (fun t => t.flag Fld.MBX_HOST_STAT_CFG_ERR) = true ∧
      ends (exec (.mbxAbort host 0) s) (fun t => t.flag Fld.MBX_HOST_STAT_CFG_ERR) = true ∧
      ends (exec (.mbxAbort sup 0) s) (fun t => t.fld (Fld.MBX_SEND_RES_RESULT 0) == 8 && (t.channel 63).queue == []) = true) ∧
    ((inMode 3).asks host = true ∧ (inMode 3).targetPresent 7 = true ∧ Ident.chip 7 = (inMode 3).chip ∧ Ident.src 7 < 8 ∧
      (inMode 3).targetPresent 8 = false ∧
      ends (exec (.mbxRing host 7 31) (inMode 3)) (fun t => t.reg (Reg.MBX_DB 7) == 0x80000000) = true ∧
      ends (exec (.mbxRing host 8 31) (inMode 3)) (fun t => t.flag Fld.MBX_HOST_STAT_CFG_ERR) = true ∧
      ends (exec (.mbxDbmask host 9) (inMode 3)) (fun t => t.reg (Reg.MBX_DBMASK 0) == 9) = true ∧
      ends (exec (.mbxSupNote sup 9) (inMode 3)) (fun t => (t.reg Reg.MBX_IRQ_PEND0).getLsbD 4) = true ∧
      ends (exec (.mbxSupNote host 9) (inMode 3)) (fun t => t.flag Fld.MBX_HOST_STAT_CFG_ERR) = true) ∧
    (let s := set (inMode 3) [(Fld.MBX_HRX_TAIL_TAIL, 2047)]
     s.ringOwner host = true ∧ s.ringOwner 1 = false ∧ (2047 + 2048 - s.fld Fld.MBX_HRX_HEAD_HEAD) % 2048 ≤ 2047 ∧
      ends (exec (.mbxHrxHead host 2047) s) (fun t => t.fld Fld.MBX_HRX_HEAD_HEAD == 2047) = true ∧
      ends (exec (.mbxHtxTail host 2047) s) (fun t => t.fld Fld.MBX_HTX_TAIL_TAIL == 2047) = true ∧
      ends (exec (.mbxHtxTail 1 2047) s) (fun t => t.flag Fld.MBX_HOST_STAT_CFG_ERR) = true) ∧
    (fieldGet 0x801 0 3 = 1 ∧ fieldGet 0x800 0 3 = 0 ∧
      ends (exec (.mbxHostCfg host 0x800) (inMode 3)) (fun t => t.flag Fld.MBX_HOST_STAT_CFG_ERR) = true ∧
      ends (exec (.mbxHostCfg host 0x802) (set (inMode 1) [(Fld.MBX_HRX_TAIL_TAIL, 3)])) (fun t =>
        t.fld Fld.MBX_HOST_CFG_NFN == 2 && t.reg Reg.MBX_HRX_TAIL == 0) = true) := by decide +kernel

/-- The island in a state, in RUN. -/
def isle (f : Island → Island) : State := { inMode 3 with island := f {} }

/-- Seals with program-enable or without, and set 0. -/
def sealed (pe : Bool) : Store Filtered :=
  (List.range 16).foldl (fun st k => Store.set (fun _ => {}) st k { level := k % 2 == (if pe && k / 2 == 0 then 0 else 1) }) []

/-- Code and detail of the island's fault, and its outputs off. -/
def faulted (c d : Nat) (t : State) : Bool :=
  t.island.state == 6 && t.island.drive == 0 && t.island.code == c && t.island.detail == d && t.out.head? == some (.sto 0 false)

theorem witness_safetyIsland_faults :
    ((isle id).hasIsland = true ∧ (isle id).island.state = 0 ∧ (isle fun i => { i with state := 1 }).island.state ≠ 0 ∧
      ends (exec (.islandSelfTestDone .pass) (isle id)) (fun t => t.island.state == 1) = true ∧
      ends (exec (.islandSelfTestDone .lockstep) (isle id)) (faulted 1 0) = true ∧
      ends (exec (.islandSelfTestDone .sram) (isle id)) (faulted 2 0) = true ∧
      ends (exec (.islandSelfTestDone .readback) (isle id)) (faulted 6 0) = true ∧
      ends (exec .islandWatchdog (isle id)) (faulted 3 0) = true ∧ ends (exec .lockstep (isle id)) (faulted 1 0) = true ∧
      ends (exec .brownout (isle id)) (faulted 5 0) = true ∧ ends (exec .osc (isle id)) (faulted 4 0) = true) ∧
    ((isle fun i => { i with state := 6 }).island.state = 6 ∧ (0#8).toNat = (isle id).island.drive ∧ (4#8).toNat ≠ (isle id).island.drive ∧
      (isle fun i => { i with state := 1 }).island.sealFault = true ∧
      ends (exec (.islandCycle 0 .none) (isle fun i => { i with state := 6, inbox := [.mode 1] })) (fun t => t.island.inbox == []) = true ∧
      ends (exec (.islandCycle 4 .none) (isle fun i => { i with state := 1 })) (faulted 6 1) = true ∧
      ends (exec (.islandCycle 0 .sram) (isle fun i => { i with state := 1 })) (faulted 2 0) = true ∧
      ends (exec (.islandCycle 0 .none) (isle fun i => { i with state := 1 })) (fun t => t.island.code == 0x10) = true ∧
      ends (exec (.islandCycle 0 .none) (isle fun i => { i with state := 4, line := true })) (fun t =>
        t.island.state == 2 && t.island.executed) = true) := by decide +kernel

theorem witness_safetyIsland_inputs :
    (ends (exec (.safeInputSample 1 0 0) (isle fun i => { i with seals := [(0, { run := 9 })] })) (fun t =>
        t.island.seal 0 && t.island.samples == 1) = true ∧
      ends (exec (.encoderSample 3 true true false) (isle id)) (fun t => (t.island.enc 3).fault) = true ∧
      ends (exec (.encoderSample 3 true false false) (isle id)) (fun t => (t.island.enc 3).count == 1) = true) ∧
    (let own (q : List MbxMsg) : State := (isle id).setChannel 63 { holder := some (isle id).islandId, depth := 4, queue := q }
     let m : MbxMsg := { src := 0xF1, slot := 0, data := [0x10, 3] }
     (own []).islandMail 63 = none ∧ (own []).clockGone 5 = false ∧ (own [m]).now.ended = [] ∧ ((own [m]).channel 63).holder = some (own [m]).islandId ∧ (own []).heldByIsland 63 = true ∧ (own []).modeLine = false ∧ (own []).inReset = false ∧
      ((own [m]).channel 63).queue = m :: [] ∧ Ident.chip m.src = (own [m]).chip ∧ Ident.isIsland m.src = false ∧
      ends (exec .modeMessage (own [])) (fun t => t.island.inbox == [.mode 3]) = true ∧
      ends (exec .modeMessage (own [m])) (fun t => t.island.inbox == [.mode 3] && (t.channel 63).queue == []) = true) ∧
    ((isle id).island.permit = none ∧
      ends (exec .permitTimeout (isle fun i => { i with permit := some (3, 0), cycles := 20 })) (fun t => t.island.timeout) = true ∧
      ends (exec .permitTimeout (isle fun i => { i with permit := some (3, 0), cycles := 19 })) (fun t => !t.island.timeout) = true ∧
      (inMode 0).modeLine = true ∧ (isle id).modeLine = false ∧
      ends (exec .modeLineBoot (inMode 0)) (fun t => t.island.line && t.out.head? == some (.sto 0 false)) = true) := by decide +kernel

/-- A valid parameter set 0 by Tables SAFE-3 to SAFE-7 without its CRC: input 0 a guard, input 1 the acknowledgement, nothing
enabled, and every other field at the least value of its range. -/
@[irreducible] def setBody : List Byte :=
  let fields : List (Nat × Byte) := [(0, 0x53), (1, 0x46), (2, 0x53), (3, 0x31), (5, 1), (6, 0x5C), (7, 0x02), (0x00C, 1),
      (0x00E, 1), (0x010, 0x10), (inputAt 0, 1), (inputAt 1, 3)] ++
    (List.range 8).flatMap (fun n => [(inputAt n + 2, 1), (inputAt n + 4, 1)]) ++
    (List.range 4).flatMap (fun k => [3, 16, 28, 36, 44, 46].map fun o => (axisAt k + o, 1)) ++
    (List.range 16).map fun c => (connAt c + 2, 1)
  (List.range 0x258).map fun o => ((fields.find? fun p => p.1 == o).map (·.2)).getD 0

/-- The CRC with its running value computed at each byte. -/
def crcForced : List Nat → Nat → Nat
  | [], c => c
  | b :: bs, 0 => crcForced bs (Alu.crcStep 32 true 0x1EDC6F41 0 b)
  | b :: bs, c + 1 => crcForced bs (Alu.crcStep 32 true 0x1EDC6F41 (c + 1) b)

theorem crcForced_eq (bs : List Nat) (c : Nat) :
    bs.foldl (fun c b => Alu.crcStep 32 true 0x1EDC6F41 c b) c = crcForced bs c := by
  induction bs generalizing c with
  | nil => cases c <;> rfl
  | cons b bs ih => cases c <;> simp only [List.foldl_cons, ih, crcForced]

/-- A download message in channel 62, in NOCONFIG with program-enable. -/
def load (data : List Byte) (f : Island → Island := id) : State :=
  (isle fun i => f { i with state := 1, seals := sealed true }).setChannel 62
    { holder := some (isle id).islandId, depth := 4, any := true, queue := [{ src := host, slot := 0, data := data }] }

theorem witness_safetyIsland_download :
    (let d : List Byte := [1, 0, 0x58, 2, 9]
     (load d).island.state = 1 ∧ (load d).island.pe = true ∧ 4 ≤ d.length ∧ d.head? = some 1 ∧ setAt d 2 2 % 4 = 0 ∧
      setAt d 2 2 + (d.drop 4).length ≤ setLen ∧
      ends (exec .stage (load d)) (fun t => t.island.staging.read 0x258 == 9 && t.fld (Fld.MBX_SEND_RES_RESULT 0) == 0) = true ∧
      ends (exec .stage (load d fun i => { i with state := 2 })) (fun t => t.fld (Fld.MBX_SEND_RES_RESULT 0) == 5) = true) := by
  decide +kernel

/-- The set with its CRC. -/
def setBytes : List Byte := setBody ++ [0x7b, 0x1b, 0x2e, 0xe4]

theorem crc_forced (bs : List Nat) : crc32cBytes bs = crcForced bs 0xFFFFFFFF ^^^ 0xFFFFFFFF := by
  unfold crc32cBytes
  rw [crcForced_eq]

theorem setBody_length : setBody.length = 0x258 := by
  unfold setBody
  rw [List.length_map, List.length_range]

theorem setBytes_held : setHeld setBytes 0 = true := by
  have h : crc32cBytes ((setBytes.take 0x258).map (·.toNat)) = 3828226939 := by
    have e : setBytes.take 0x258 = setBody := by
      unfold setBytes
      exact List.take_left' setBody_length
    rw [e, crc_forced]
    decide +kernel
  have k : setAt setBytes 0x258 4 = 3828226939 := by decide +kernel
  have m : (setAt setBytes 0 4 == 0x31534653 && setAt setBytes 5 1 == 1 && setAt setBytes 6 2 == 0x025C) = true := by
    decide +kernel
  have n : (setAt setBytes 4 1 == 0) = true := by decide +kernel
  unfold setHeld
  rw [m, h, k, n]
  rfl

theorem setBytes_fields : (headOk setBytes && (List.range 8).all (inputOk setBytes) && (List.range 4).all (axisOk setBytes) &&
    (List.range 16).all (connOk setBytes) && kindsOk setBytes && sourcesOk setBytes) = true := by decide +kernel

theorem setBytes_code : setCode setBytes 0 = 0 := by
  unfold setCode
  simp only [setBytes_held, setBytes_fields, Bool.not_true, Bool.false_eq_true, if_false, if_true]

theorem staged_setBytes : (Mem.writeBytes [] 0 setBytes).readBytes 0 setLen = setBytes := by
  have h := Mem.readBytes_writeBytes setBytes [] 0
  have n : setBytes.length = setLen := by
    simp only [setBytes, List.length_append, setBody_length, setLen, List.length_cons, List.length_nil]
  rw [n] at h
  exact h

/-- The island with that set staged. -/
def staged : Island := { state := 1, seals := sealed true, staging := Mem.writeBytes [] 0 setBytes }

theorem witness_safetyIsland_store :
    (load [2, 15] fun _ => staged).island = staged ∧ staged.state = 1 ∧ staged.pe = true ∧ staged.low = false ∧
      setAt [2, 15] 1 1 < 16 ∧ setCode (staged.staging.readBytes 0 setLen) staged.selected = 0 := by
  refine ⟨rfl, rfl, by decide +kernel, rfl, by decide, ?_⟩
  have e : staged.staging = Mem.writeBytes [] 0 setBytes := rfl
  have f : staged.selected = 0 := by decide +kernel
  rw [e, staged_setBytes, f, setBytes_code]

theorem witness_safetyIsland_connections :
    (let one (n : Nat) (v : Byte) : List Byte := (List.replicate setLen 0).set n v
     let i : Island := { set := (one (connAt 15) 1).set (connAt 15 + 2) 5, cycles := 5, conns := [(15, { up := true })] }
     let s := isle fun _ => i
     (isle id).island.set = [] ∧ i.set ≠ [] ∧ (i.conn 15).up = true ∧ setAt i.set (connAt 15) 1 ≠ 0 ∧
      setAt i.set (connAt 15 + 2) 2 ≤ i.cycles - (i.conn 15).valid ∧ ((isle id).island.conn 15).up = false ∧ s.islandMail 0 = none ∧
      ends (exec (.connectionLoss 15) s) (fun t => t.island.code == 0x23 && t.island.detail == 15 && t.island.lost) = true ∧
      ((isle id).island.conn 15).pending = false ∧
      (let j : Island := { i with conns := [(15, { pending := true })] }
       (j.conn 15).pending = true ∧ (j.conn 15).up = false ∧ setAt j.set (connAt 15 + 2) 2 ≤ j.cycles - (j.conn 15).sent ∧
        ends (exec (.connectionLoss 15) (isle fun _ => j)) (fun t => (t.island.conn 15).result == Code.revoked &&
          !(t.island.conn 15).pending && t.island.code == j.code) = true) ∧
      (let m : MbxMsg := { src := host, slot := 0, data := [15] }
       ends (exec (.blackChannelPdu true true 7 false) (s.setChannel 0 { holder := some s.islandId, queue := [m] })) (fun t =>
         t.island.inbox == [.pdu 15 true true 7 false]) = true)) ∧
    (let s := isle fun i => { i with conns := [(15, { resend := some [1] })], samples := 1 }
     let chan (d : Nat) : State := s.setChannel 0 { holder := some host, depth := d, any := true }
     (s.island.conn 15).resend = some [1] ∧ (s.island.conn 15).offered < s.island.samples ∧ (chan 0).now.sent = [] ∧
      s.inReset = false ∧ ((isle id).island.conn 15).resend = none ∧
      (chan 4).sendCode s.islandId (setAt s.island.set 0x00E 1 % 64) = Code.ok ∧
      (chan 0).sendCode s.islandId (setAt s.island.set 0x00E 1 % 64) = Code.busy ∧
      ends (exec (.pduResend 15) (chan 4)) (fun t => (t.island.conn 15).pending) = true ∧
      ends (exec (.pduResend 15) (chan 0)) (fun t => (t.island.conn 15).result == Code.busy) = true ∧
      (s.channel 63).holder = none ∧ ends (exec .channelReopen s) (fun t => (t.channel 63).depth == 4) = true) := by decide +kernel

theorem witness_safetyIsland_supply :
    (let s := isle fun i => { i with set := List.replicate setLen 0, drive := 0x40 }
     s.island.drive.testBit (2 * 3) = true ∧ setAt s.island.set (axisAt 3 + 46) 2 * 1000 ≤ s.island.cycles - (s.island.axis 3).dark ∧
      (isle id).island.drive.testBit (2 * 3) = false ∧
      ends (exec (.darkTest 3 true true) s) (fun t => t.island.drive == 0x40) = true ∧
      ends (exec (.darkTest 3 false true) s) (faulted 6 3) = true ∧
      ends (exec (.darkTest 3 true false) s) (faulted 6 3) = true ∧
      ends (exec (.safeLowStoreBlock true) s) (fun t => t.island.low) = true ∧
      ends (exec .islandReset s) (fun t => t.island.reset && ends (exec .islandResetRelease t) fun w => !w.island.reset) = true) := by
  decide +kernel

/-! ### The block as a whole -/

theorem witness_stepRunsTheFront :
    (inMode 3).pending = [] ∧ ends (step (inMode 3)) (fun t => t.cycle == 1) = true ∧
      ends (step { inMode 3 with pending := [.osc, .brownout] }) (fun t => t.pending == [.brownout] && t.island.code == 4) = true := by
  decide +kernel

theorem witness_stepsKeepTheForm : ({ inMode 3 with pending := [.osc] } : State).memWf ∧
    ends (step { inMode 3 with pending := [.osc] }) (fun t => t.pending == [] && t.cycle == 0) = true :=
  ⟨⟨by have h : Store.wf (regReset (inMode 3).variant) (inMode 3).regs = true := by decide +kernel
       exact h,
    fun _ => ⟨rfl, rfl, rfl⟩, fun _ => rfl, fun _ => rfl, rfl, rfl, rfl, rfl, rfl, rfl, rfl⟩, by decide +kernel⟩

/-- One command of each family of `CommandFrames` that answers a next state. -/
theorem witness_commandFrames :
    ([Instr.nop 0, .ceWdog host 0 0, .timeSnap 0 host, .canEnable 0 host, .serEnable 0 true host, .clearSweepDone, .claimTimeout,
        .copyEnqueue, .txTail 0 0 0, .clear host 0 0, .mbxDbmask host 0, .brownout, .blockRelease].all fun i =>
      ends (exec i (inMode 3)) fun t => t.pending == []) = true := by decide +kernel

/-- A command of a wrong number for each check of WellFormed, which it refuses, and the same with the greatest number it
takes. -/
theorem test_wellFormed :
    ([Instr.nop 96, .roundRun 8, .linkDown 34, .canSof 16, .gapT15 16, .wilernEnable 2, .eventLineArrival 0 32, .close host 64,
        .registerRead host 0x4000000 4, .bar2Read host (2 ^ 32) ⟨4, []⟩, .aptA 0 0 12 false 0, .ppsEdge 2 false, .clockLossOfLock 7,
        .restoreTimeout 48 0, .restoreTimeout 0 2, .functionLevelReset 7, .settleComplete 64, .directWrite host 33554432 0,
        .registerRead host 0 3, .claimMinislot 8, .staticSlot 64, .aveGwPtr 0 3 0, .destinationChoice 51, .spillReadBack 512,
        .canRxid 0 256 0 host, .darkTest 4 true true, .unpin host 8, .clear host 0 16384, .mbxAbort sup 113, .connectionLoss 16,
        .supplyMonitorAssert 3, .pair host 256, .pkgLoad host 0 16 0, .synchroniserAcknowledge 1344,
        .wurq 0 0 1, .characterReceived 0 .startBit true false false, .begin (.rnd 8) host].any wellFormed) = false ∧
    ([Instr.nop 95, .roundRun 7, .linkDown 33, .canSof 15, .gapT15 15, .wilernEnable 1, .eventLineArrival 0 31, .close host 63,
        .registerRead host 0x3FFFFFF 4, .bar2Read host (2 ^ 32 - 1) ⟨4, []⟩, .aptA 0 0 11 false 0, .ppsEdge 1 false, .clockLossOfLock 6,
        .restoreTimeout 47 0, .restoreTimeout 0 1, .functionLevelReset 6, .settleComplete 63, .directWrite host 33554431 0,
        .registerRead host 0 2, .claimMinislot 7, .staticSlot 63, .aveGwPtr 0 2 0, .destinationChoice 50, .spillReadBack 511,
        .canRxid 0 255 0 host, .darkTest 3 true true, .unpin host 7, .clear host 0 16383, .mbxAbort sup 112, .connectionLoss 15,
        .supplyMonitorAssert 2, .pair host 255, .pkgLoad host 0 15 0, .synchroniserAcknowledge 1343,
        .wurq 0 0 2, .characterReceived 0 (.char 9) true false false, .begin (.rnd 7) host].all wellFormed) = true := by decide +kernel

/-- Reset values that the register tables give: SYS_MODE, TIME_CFG (chapter 12), SER_CFG of S15 (chapter 10), ETH_CFG of P23,
P25 and P33 (chapter 08), AVE_SCHED (chapter 06). -/
theorem test_resetValues :
    State.reset.reg Reg.TIME_CFG = 0x323 ∧ State.reset.reg (Reg.SER_CFG 15) = 0x10028 ∧
      State.reset.reg (Reg.ETH_CFG 23) = 0x5EE6 ∧ State.reset.reg (Reg.ETH_CFG 25) = 0x5EE3 ∧
      State.reset.reg (Reg.ETH_CFG 33) = 0x5EE0 ∧ State.reset.reg Reg.AVE_SCHED = 0x09640320 ∧
      State.reset.reg Reg.TIME_CMD_RES = 0x1000000 := by decide +kernel

/-- No row gives bits, so no word spells a command. -/
theorem test_decodeTableWord : decodeTableWord 32 0x12345678 = none ∧
    (State.reset.withFetchWord 32 0x12345678).pending = [] := by decide +kernel
end Sys2Proof.Tests
end

section
/-!
PROOF. O27: the record of absent windows (R5–R7), and what a write and a read of a SYS register do (R11–R14, R453).
-/

namespace Sys2Proof.Machine

/-! ### Offsets of the SYS window -/

theorem windowOf_sys {a : Nat} (h : a < 0x100000) : windowOf a = .sys := if_pos h

/-- No transaction shadows a SYS register. -/
theorem txnAt_sys {a : Nat} (h : a < 0x100000) : txnAt a = none := by
  unfold txnAt
  repeat rw [if_neg (by omega)]

/-- The SYS window is present on every part, and ETH_PLCA lies elsewhere. -/
theorem regHere_sys (v : Variant) {a : Nat} (h : a < 0x100000) : regHere v a = true := by
  have hPlca (n : Nat) : (a / 4 == Reg.ETH_PLCA n / 4) = false := by
    simp only [Reg.ETH_PLCA, beq_eq_false_iff_ne]; omega
  simp [regHere, windowOf_sys h, Window.present, hPlca]

theorem regHere_of_windowAbsent {v : Variant} {a : Nat} (h : (windowOf a).present v = false) : regHere v a = false := by
  simp [regHere, h]

/-- SYS registers lie in no identity's block. -/
theorem foreignBlock_sys (who : Ident) {a : Nat} (h : a < 0x100000) : State.foreignBlock who a = false := by
  have hMbx : State.mbxBlockAt who a = none := by
    unfold State.mbxBlockAt; rw [if_neg (by omega), if_neg (by omega)]
  have hImg : State.imgBlockAt a = none := if_neg (by omega)
  simp [State.foreignBlock, hMbx, hImg]

/-- An access that stays within one word touches that register alone. -/
theorem regParts_within {a k n : Nat} (ha : a % 4 = 0) (hn : 0 < n) (hk : k + n ≤ 4) :
    regParts (a + k) n = [(a, k, n)] := by
  have hCount : ((a + k) % 4 + n + 3) / 4 = 1 := by omega
  have hReg : (a + k) / 4 * 4 = a := by omega
  have hLen : min (a + k + n) (a + 4) - (a + k) = n := by omega
  simp [regParts, hCount, hReg, hLen]

/-- The rows of the SYS window have one RC counter at most. -/
theorem rc_length_of_sysRow : ∀ r ∈ regRows, r.base < 0x100000 → r.rc.length ≤ 1 := by decide +kernel

theorem rc_of_regRow_sys {a : Nat} {r : RegRow} (hr : regRow a = some r) (h : a < 0x100000) :
    r.rc = [] ∨ ∃ g, r.rc = [g] := by
  have hHits : r.hits a = true := List.find?_some (p := fun q : RegRow => q.hits a) hr
  simp only [RegRow.hits, Bool.and_eq_true, decide_eq_true_eq] at hHits
  have hLen := rc_length_of_sysRow r (List.mem_of_find?_eq_some hr) (by omega)
  rwa [Nat.le_one_iff_eq_zero_or_eq_one, List.length_eq_zero_iff, List.length_eq_one_iff] at hLen

theorem fieldGet_eq_div_mod (w : Word) (lo width : Nat) : fieldGet w lo width = w.toNat / 2 ^ lo % 2 ^ width := by
  rw [fieldGet, BitVec.extractLsb'_toNat, Nat.shiftRight_eq_div_pow]

namespace State

/-! ### When an access takes effect -/

theorem live_of_running {s : State} (h : s.inReset = false) (f : State → State) : s.live f = f s := by simp [live, h]

theorem overHclk_of_reaches {s : State} {who : Ident} (h : s.reaches who = true) (f : State → State) :
    s.overHclk who f = f s := by
  simp only [reaches, Bool.not_eq_true', Bool.and_eq_false_imp] at h
  unfold overHclk
  split
  · rename_i hPcie; simp [through, h hPcie]
  · rfl

theorem served_of_serves {s : State} {who : Ident} (h : s.serves who = true) (f : State → State) :
    s.served who f = f s := by
  simp only [serves, Bool.and_eq_true, Bool.not_eq_true'] at h
  obtain ⟨⟨hRun, hReach⟩, hBoot⟩ := h
  simp only [served, live_of_running hRun, overHclk_of_reaches hReach, hBoot, Bool.false_eq_true, if_false]

/-! ### Flags -/

@[simp] theorem reg_stampSet (s : State) (a a' : Nat) (w : Word) : (s.stampSet a w).reg a' = s.reg a' := rfl

theorem reg_setFlag_ne (s : State) {f : Fld} {a : Nat} (b : Bool) (h : a ≠ f.reg) : (s.setFlag f b).reg a = s.reg a :=
  reg_setFld_ne s _ h

theorem fld_setFlag_apart (s : State) {f g : Fld} (b : Bool) (h : f.apart g) : (s.setFlag f b).fld g = s.fld g :=
  fld_setFld_apart s _ h

theorem flag_setFld_apart (s : State) {f g : Fld} (v : Nat) (h : f.apart g) : (s.setFld f v).flag g = s.flag g := by
  simp only [flag, fld_setFld_apart s v h]

/-- A one-bit field is its bit. -/
theorem flag_eq_getLsbD (s : State) {f : Fld} (h : f.width = 1) : s.flag f = (s.reg f.reg).getLsbD f.lo := by
  have hBit : (s.fld f).testBit 0 = (s.reg f.reg).getLsbD f.lo := by
    rw [fld, testBit_fieldGet, h]; simp
  have hLt : s.fld f < 2 := by
    have := ((s.reg f.reg).extractLsb' f.lo f.width).isLt
    rw [h] at this
    simpa [fld, fieldGet, h] using this
  rw [← hBit, Nat.testBit_zero, flag]
  generalize s.fld f = x at hLt
  interval_cases x <;> rfl

/-! ### The record of absent windows (R6, R7) -/

theorem absentCapture_reg_ne (s : State) (a : Nat) (w : Bool) {r : Nat} (h : r ≠ Reg.SYS_ABSENT_HIT) :
    (s.absentCapture a w).reg r = s.reg r := by
  unfold absentCapture
  split
  · exact reg_setFlag_ne s _ h
  · rw [reg_setFlag_ne _ _ h, reg_setFlag_ne _ _ h, reg_setFld_ne _ _ h]

/-- VALID is 0: the access is captured, and MULTI stays. -/
theorem absentCapture_first {s : State} {a : Nat} (w : Bool) (hv : s.flag Fld.SYS_ABSENT_HIT_VALID = false)
    (ha : a < 2 ^ 26) :
    (s.absentCapture a w).flag Fld.SYS_ABSENT_HIT_VALID = true ∧
      (s.absentCapture a w).fld Fld.SYS_ABSENT_HIT_OFFSET = a ∧
      (s.absentCapture a w).flag Fld.SYS_ABSENT_HIT_WRITE = w ∧
      (s.absentCapture a w).flag Fld.SYS_ABSENT_HIT_MULTI = s.flag Fld.SYS_ABSENT_HIT_MULTI := by
  simp only [absentCapture, hv, Bool.false_eq_true, if_false]
  refine ⟨flag_setFlag_same _ _ _ (by decide) rfl, ?_, ?_, ?_⟩
  · rw [fld_setFlag_apart _ _ (.inr (.inr (by decide))), fld_setFlag_apart _ _ (.inr (.inr (by decide))),
      fld_setFld_same _ _ _ (by decide)]
    exact Nat.mod_eq_of_lt ha
  · rw [flag_setFlag_apart _ _ (.inr (.inr (by decide)))]
    exact flag_setFlag_same _ _ _ (by decide) rfl
  · rw [flag_setFlag_apart _ _ (.inr (.inr (by decide))), flag_setFlag_apart _ _ (.inr (.inl (by decide))),
      flag_setFld_apart _ _ (.inr (.inl (by decide)))]

/-- VALID is 1: the capture is kept, and MULTI is set. -/
theorem absentCapture_later {s : State} (a : Nat) (w : Bool) (hv : s.flag Fld.SYS_ABSENT_HIT_VALID = true) :
    (s.absentCapture a w).flag Fld.SYS_ABSENT_HIT_VALID = true ∧
      (s.absentCapture a w).fld Fld.SYS_ABSENT_HIT_OFFSET = s.fld Fld.SYS_ABSENT_HIT_OFFSET ∧
      (s.absentCapture a w).flag Fld.SYS_ABSENT_HIT_MULTI = true := by
  simp only [absentCapture, hv, if_true]
  refine ⟨?_, fld_setFlag_apart _ _ (.inr (.inr (by decide))), flag_setFlag_same _ _ _ (by decide) rfl⟩
  rw [flag_setFlag_apart _ _ (.inr (.inl (by decide))), hv]

/-- The state in which an access to an absent window meets the register: what the cycle has brought is beside it. -/
def absentNoted (s : State) (a : Nat) (w : Bool) : State :=
  { s with now := { s.now with
      absentFrom := if s.now.absents.isEmpty then s.reg Reg.SYS_ABSENT_HIT else s.now.absentFrom
      absents := s.now.absents ++ [(a, w)] } }

theorem absentHit_eq (s : State) (a : Nat) (w : Bool) : s.absentHit a w = (s.absentNoted a w).absentCapture a w := rfl

@[simp] theorem absentNoted_reg (s : State) (a : Nat) (w : Bool) (r : Nat) : (s.absentNoted a w).reg r = s.reg r := rfl
@[simp] theorem absentNoted_fld (s : State) (a : Nat) (w : Bool) (f : Fld) : (s.absentNoted a w).fld f = s.fld f := rfl
@[simp] theorem absentNoted_flag (s : State) (a : Nat) (w : Bool) (f : Fld) : (s.absentNoted a w).flag f = s.flag f := rfl

theorem absentHit_reg_ne (s : State) (a : Nat) (w : Bool) {r : Nat} (h : r ≠ Reg.SYS_ABSENT_HIT) :
    (s.absentHit a w).reg r = s.reg r := by
  rw [absentHit_eq, absentCapture_reg_ne _ _ _ h, absentNoted_reg]

theorem absentHit_valid (s : State) {a : Nat} (w : Bool) (ha : a < 2 ^ 26) :
    (s.absentHit a w).flag Fld.SYS_ABSENT_HIT_VALID = true := by
  rw [absentHit_eq]
  cases hv : s.flag Fld.SYS_ABSENT_HIT_VALID with
  | false => exact (absentCapture_first w (by simpa using hv) ha).1
  | true => exact (absentCapture_later a w (by simpa using hv)).1

theorem absentCapture_inReset (s : State) (a : Nat) (w : Bool) : (s.absentCapture a w).inReset = s.inReset := by
  unfold absentCapture; split <;> rfl

theorem absentCapture_reaches (s : State) (a : Nat) (w : Bool) (who : Ident) :
    (s.absentCapture a w).reaches who = s.reaches who := by
  unfold absentCapture; split <;> rfl

theorem absentCapture_absents (s : State) (a : Nat) (w : Bool) :
    (s.absentCapture a w).now.absents = s.now.absents := by
  unfold absentCapture; split <;> rfl

theorem absentCapture_absentFrom (s : State) (a : Nat) (w : Bool) :
    (s.absentCapture a w).now.absentFrom = s.now.absentFrom := by
  unfold absentCapture; split <;> rfl

theorem absentHit_inReset (s : State) (a : Nat) (w : Bool) : (s.absentHit a w).inReset = s.inReset :=
  absentCapture_inReset (s.absentNoted a w) a w

theorem absentHit_reaches (s : State) (a : Nat) (w : Bool) (who : Ident) :
    (s.absentHit a w).reaches who = s.reaches who :=
  absentCapture_reaches (s.absentNoted a w) a w who

/-- The register and its record of before the cycle's first access after a clear that leaves `x`. -/
def absentCleared (s : State) (x : Word) : State :=
  { s with now := { s.now with absentFrom := x } }.setReg Reg.SYS_ABSENT_HIT x

/-- A clear of VALID that meets the first access of its cycle: the register of before the access is cleared, and the
access is captured anew (R7). -/
theorem clearAbsent_absentHit {s : State} (a : Nat) (w : Bool) {v : Word} (h0 : s.now.absents = [])
    (hv : v.getLsbD 31 = true) :
    (s.absentHit a w).clearAbsent v =
      ((s.absentHit a w).absentCleared (s.reg Reg.SYS_ABSENT_HIT &&& ~~~(v &&& 0x88000000))).absentCapture a w := by
  have hAbsents : (s.absentHit a w).now.absents = [(a, w)] := by
    simp [absentHit_eq, absentCapture_absents, absentNoted, h0]
  have hFrom : (s.absentHit a w).now.absentFrom = s.reg Reg.SYS_ABSENT_HIT := by
    simp [absentHit_eq, absentCapture_absentFrom, absentNoted, h0]
  simp [clearAbsent, absentCleared, hAbsents, hFrom, hv]

/-- Of the flags, a clear of VALID leaves MULTI alone, where it is not cleared too. -/
theorem absentCleared_flags (s t : State) {v : Word} (hv : v.getLsbD 31 = true) :
    let u := t.absentCleared (s.reg Reg.SYS_ABSENT_HIT &&& ~~~(v &&& 0x88000000))
    u.flag Fld.SYS_ABSENT_HIT_VALID = false ∧
      u.flag Fld.SYS_ABSENT_HIT_MULTI = (s.flag Fld.SYS_ABSENT_HIT_MULTI && !v.getLsbD 27) := by
  have hReg (x : Word) : (t.absentCleared x).reg Reg.SYS_ABSENT_HIT = x := reg_setReg_same _ _ _
  refine ⟨?_, ?_⟩
  · rw [flag_eq_getLsbD _ rfl]
    simp [Fld.SYS_ABSENT_HIT_VALID, hReg, hv]
  · rw [flag_eq_getLsbD _ rfl, flag_eq_getLsbD _ rfl]
    simp [Fld.SYS_ABSENT_HIT_MULTI, hReg]

/-! ### Writes of a SYS register (R11) -/

/-- A write within one SYS register, of an identity that is no engine. -/
theorem exec_registerWrite_sys {s : State} {who : Ident} {a k n : Nat} (v : Nat) (hRun : s.inReset = false)
    (hReach : s.reaches who = true) (hEng : Ident.isEngine who = false) (h4 : a % 4 = 0) (ha : a < 0x100000)
    (hn : 0 < n) (hk : k + n ≤ 4) :
    exec (.registerWrite who (a + k) n v) s =
      .next (if n < 4 then s.windowErr .sys else s.writeSys who a (BitVec.ofNat 32 v)) := by
  have hMay : s.mayWriteReg who a = true := by simp [mayWriteReg, hEng]
  simp [exec, execRegisterWrite, live_of_running hRun, overHclk_of_reaches hReach, writeRegs, regParts_within h4 hn hk,
    writeReg, windowOf_sys ha, Window.inBoot, regHere_sys s.variant ha, foreignBlock_sys who ha, hMay, writeWindow,
    txnAt_sys ha]

theorem writeSys_plain (s : State) (who : Ident) {a : Nat} (v : Word) (hMode : a ≠ Reg.SYS_MODE_CMD)
    (hPkg : a ≠ Reg.SYS_PKG_CMD) (hBoot : a ≠ Reg.SYS_BOOT_CTRL) (hHit : a ≠ Reg.SYS_ABSENT_HIT) :
    s.writeSys who a v = s.writePlain a v := by
  rw [writeSys, if_neg hMode, if_neg hPkg, if_neg hBoot, if_neg hHit]

theorem writeSys_absentHit (s : State) (who : Ident) (v : Word) :
    s.writeSys who Reg.SYS_ABSENT_HIT v = s.clearAbsent v := rfl

theorem writePlain_of_row {s : State} {a : Nat} {r : RegRow} (v : Word) (hr : regRow a = some r) :
    s.writePlain a v = s.writeRow' r a v := by
  simp only [writePlain, hr]

theorem clearAbsent_noAccess {s : State} (v : Word) (h0 : s.now.absents = []) :
    s.clearAbsent v = s.setReg Reg.SYS_ABSENT_HIT (s.reg Reg.SYS_ABSENT_HIT &&& ~~~(v &&& 0x88000000)) := by
  simp [clearAbsent, h0]

/-! ### Reads of a SYS register (R12, R14) -/

theorem latchOf_sys (s : State) {a : Nat} (h : a < 0x100000) : s.latchOf a = none := by
  simp only [latchOf, windowOf_sys h]

theorem peek_sys (s : State) (who : Ident) {a : Nat} (h : a < 0x100000) : s.peek who a = s.plainWord a := by
  simp only [peek, txnAt_sys h, windowOf_sys h]

theorem plainWord_of_row {s : State} {a : Nat} {r : RegRow} (hr : regRow a = some r) :
    s.plainWord a = s.reg a &&& readable r := by
  simp only [plainWord, hr]

theorem afterRead_sys (s : State) {a : Nat} {r : RegRow} (lo n : Nat) (h : a < 0x100000) (hr : regRow a = some r) :
    s.afterRead a lo n = r.rc.foldl (fun s f => s.clearRc a lo n f) s := by
  simp only [afterRead, latchOf_sys s h, windowOf_sys h, hr]

theorem readReg_sys {s : State} {who : Ident} {a : Nat} (lo n : Nat) (hRun : s.inReset = false) (h : a < 0x100000) :
    s.readReg who a lo n = (s.beforeRaises a (s.plainWord a), s.afterRead a lo n) := by
  simp [readReg, hRun, windowOf_sys h, Window.inBoot, regHere_sys s.variant h, peek_sys s who h]

theorem readsAtOnce_iff (s : State) (who : Ident) :
    s.readsAtOnce who = true ↔ ¬((!s.imgIdle who) = true ∨ s.hostReads.any (fun q => q.who == who) = true) := by
  rw [readsAtOnce, not_or, Bool.and_eq_true, Bool.not_eq_true', Bool.not_eq_true', Bool.not_eq_true, Bool.not_eq_false]

/-- A word read that nothing holds back is answered at once. -/
theorem exec_registerRead_sys {s : State} {who : Ident} {a : Nat} (hRun : s.inReset = false)
    (hReach : s.reaches who = true) (h4 : a % 4 = 0) (ha : a < 0x100000) (hNow : s.readsAtOnce who = true) :
    exec (.registerRead who a 4) s =
      .next ((s.afterRead a 0 4).emit (.readData who a (s.beforeRaises a (s.plainWord a)).toNat)) := by
  have hParts : regParts a 4 = [(a, 0, 4)] := regParts_within (k := 0) h4 (by decide) (by decide)
  have hAll (w : Word) : w.toNat % 4294967296 = w.toNat := Nat.mod_eq_of_lt w.isLt
  have hFree : ¬((!s.imgIdle who) = true ∨ s.hostReads.any (fun q => q.who == who) = true) := by
    rwa [readsAtOnce_iff] at hNow
  simp only [exec, execRegisterRead, live_of_running hRun, overHclk_of_reaches hReach, hostRead]
  rw [if_neg fun h => hFree h.2]
  simp [answerRead, readRegs, hParts, readReg_sys 0 4 hRun ha, hAll]

/-- A host's read waits behind what its earlier accesses have left (R453). -/
theorem exec_registerRead_waits {s : State} {who : Ident} (a n : Nat) (hRun : s.inReset = false)
    (hReach : s.reaches who = true) (hNow : s.readsAtOnce who = false) (hHost : Ident.isHost who = true) :
    exec (.registerRead who a n) s =
      .next { s with hostReads := s.hostReads ++ [{ who := who, bar2 := false, addr := a, bytes := n }] } := by
  have hWaits : (!s.imgIdle who) = true ∨ s.hostReads.any (fun q => q.who == who) = true := by
    by_contra h
    rw [← readsAtOnce_iff, hNow] at h
    exact Bool.false_ne_true h
  simp only [exec, execRegisterRead, live_of_running hRun, overHclk_of_reaches hReach, hostRead]
  rw [if_pos ⟨hHost, hWaits⟩]

theorem clearRc_reg_ne (s : State) {a a' : Nat} (lo n : Nat) (f : Nat × Nat) (h : a' ≠ a) :
    (s.clearRc a lo n f).reg a' = s.reg a' := by
  unfold clearRc
  split
  · split
    · exact reg_setReg_ne s _ h
    · split
      · exact reg_setReg_ne _ _ h
      · exact reg_setReg_ne s _ h
  · rfl

theorem clearRc_out (s : State) (a lo n : Nat) (f : Nat × Nat) : (s.clearRc a lo n f).out = s.out := by
  unfold clearRc
  split
  · split
    · rfl
    · split <;> rfl
  · rfl

/-- After a read of the whole register a counter holds what this cycle has added (R14). -/
theorem clearRc_whole {s : State} {a : Nat} {f : Nat × Nat} (ha : a ≠ Reg.XING_BUF_STAT) (h32 : f.1 + f.2 ≤ 32) :
    fieldGet ((s.clearRc a 0 4 f).reg a) f.1 f.2 = (s.raisedNow a f).elim 0 fun p => min (2 ^ f.2 - 1) p.2 := by
  have hPow : 0 < 2 ^ f.2 := Nat.two_pow_pos _
  rw [clearRc, if_pos ⟨Nat.zero_le _, by omega⟩, if_neg ha]
  cases s.raisedNow a f with
  | none => simp [fieldGet_fieldSet_same _ _ _ _ h32]
  | some p =>
    simp only [reg_setReg_same, fieldGet_fieldSet_same _ _ _ _ h32]
    exact Nat.mod_eq_of_lt (by omega)

/-- A read of a whole SYS register leaves in its counter what this cycle has added, and every other register alone. -/
theorem afterRead_sys_spec (s : State) {a : Nat} {r : RegRow} (h : a < 0x100000) (hr : regRow a = some r) :
    (s.afterRead a 0 4).out = s.out ∧ (∀ a', a' ≠ a → (s.afterRead a 0 4).reg a' = s.reg a') ∧
      ∀ f ∈ r.rc, f.1 + f.2 ≤ 32 →
        fieldGet ((s.afterRead a 0 4).reg a) f.1 f.2 = (s.raisedNow a f).elim 0 fun p => min (2 ^ f.2 - 1) p.2 := by
  have hXing : a ≠ Reg.XING_BUF_STAT := by rintro rfl; exact absurd h (by decide)
  rw [afterRead_sys s 0 4 h hr]
  obtain h0 | ⟨g, hg⟩ := rc_of_regRow_sys hr h
  · simp [h0]
  · simp only [hg, List.mem_singleton, forall_eq, List.foldl_cons, List.foldl_nil]
    exact ⟨clearRc_out s a 0 4 g, fun a' ha' => clearRc_reg_ne s 0 4 g ha', clearRc_whole hXing⟩

/-- The word a read returns has a counter raised in this cycle at its value before, and is else the register. -/
theorem beforeRaises_sys_spec (s : State) {a : Nat} {r : RegRow} (w : Word) (h : a < 0x100000)
    (hr : regRow a = some r) :
    ((∀ f ∈ r.rc, s.raisedNow a f = none) → s.beforeRaises a w = w) ∧
      ∀ f ∈ r.rc, f.1 + f.2 ≤ 32 → ∀ p, s.raisedNow a f = some p →
        fieldGet (s.beforeRaises a w) f.1 f.2 = p.1 % 2 ^ f.2 := by
  obtain h0 | ⟨g, hg⟩ := rc_of_regRow_sys hr h
  · simp [beforeRaises, hr, h0]
  · simp only [beforeRaises, hr, hg, List.mem_singleton, forall_eq, List.foldl_cons, List.foldl_nil]
    exact ⟨fun hn => by rw [hn], fun h32 p hp => by rw [hp]; exact fieldGet_fieldSet_same _ _ _ _ h32⟩

/-! ### The commands -/

/-- An access to an absent window is recorded. -/
theorem exec_absentWindowAccess {s : State} {who : Ident} {a : Nat} (w : Bool) (hServes : s.serves who = true)
    (hAbsent : (windowOf a).present s.variant = false) :
    exec (.absentWindowAccess who a w) s = .next (s.absentHit a w) := by
  simp [exec, execAbsentWindowAccess, served_of_serves hServes, regHere_of_windowAbsent hAbsent]

/-- A clear of VALID, and of MULTI where `v` has bit 27, in the cycle of the first access leaves the access captured. -/
theorem clearAbsent_meets_access {s : State} {a : Nat} (w : Bool) {v : Word} (ha : a < 2 ^ 26)
    (h0 : s.now.absents = []) (hv : v.getLsbD 31 = true) :
    let u := (s.absentHit a w).clearAbsent v
    u.flag Fld.SYS_ABSENT_HIT_VALID = true ∧ u.fld Fld.SYS_ABSENT_HIT_OFFSET = a ∧
      u.flag Fld.SYS_ABSENT_HIT_WRITE = w ∧
      u.flag Fld.SYS_ABSENT_HIT_MULTI = (s.flag Fld.SYS_ABSENT_HIT_MULTI && !v.getLsbD 27) := by
  obtain ⟨hValid, hMulti⟩ := absentCleared_flags s (s.absentHit a w) hv
  rw [clearAbsent_absentHit a w h0 hv, ← hMulti]
  exact absentCapture_first w hValid ha

/-- A word written under the access codes (R11, R13). -/
theorem writeSys_word (s : State) (who : Ident) {a : Nat} {r : RegRow} (v : Word) (hMode : a ≠ Reg.SYS_MODE_CMD)
    (hPkg : a ≠ Reg.SYS_PKG_CMD) (hBoot : a ≠ Reg.SYS_BOOT_CTRL) (hHit : a ≠ Reg.SYS_ABSENT_HIT)
    (hr : regRow a = some r) :
    let t := s.writeSys who a v
    t.reg a = (s.reg a &&& ~~~(BitVec.ofNat 32 r.rw) &&& ~~~(v &&& BitVec.ofNat 32 r.w1c &&& ~~~s.setNow a)) |||
        (v &&& BitVec.ofNat 32 r.rw) ∧
      ∀ a', a' ≠ a → t.reg a' = s.reg a' := by
  rw [writeSys_plain s who v hMode hPkg hBoot hHit, writePlain_of_row v hr]
  exact ⟨reg_setReg_same s _ _, fun a' ha' => reg_setReg_ne s _ ha'⟩

/-- A part of a register written sets CFG_ERR and nothing else (R11). -/
theorem windowErr_sys (s : State) :
    (s.windowErr .sys).flag Fld.SYS_MODE_RESULT_CFG_ERR = true ∧
      ∀ a', a' ≠ Reg.SYS_MODE_RESULT → (s.windowErr .sys).reg a' = s.reg a' :=
  ⟨flag_setFlag_same s _ _ (by decide) rfl, fun _ h => reg_setFlag_ne s _ h⟩

end State

/-- The word that clears VALID, and MULTI with an odd `v`. -/
theorem clearWord_bits (v : Nat) :
    (BitVec.ofNat 32 (0x80000000 + 0x08000000 * (v % 2))).getLsbD 31 = true ∧
      (!(BitVec.ofNat 32 (0x80000000 + 0x08000000 * (v % 2))).getLsbD 27) = (v % 2 == 0) := by
  rcases Nat.mod_two_eq_zero_or_one v with h | h <;> rw [h] <;> decide

open State

/-- R5–R7: an access to an absent window and a clear that meets it in its cycle. -/
theorem absentAccess_spec (s : State) (who : Ident) (a v : Nat) (w : Bool) (hServes : s.serves who = true)
    (hAbsent : (windowOf a).present s.variant = false) (ha : a < 2 ^ 26) :
    ∃ t, exec (.absentWindowAccess who a w) s = .next t ∧ (∀ r, r ≠ Reg.SYS_ABSENT_HIT → t.reg r = s.reg r) ∧
      t.flag Fld.SYS_ABSENT_HIT_VALID = true ∧
      (s.flag Fld.SYS_ABSENT_HIT_VALID = false →
        t.fld Fld.SYS_ABSENT_HIT_OFFSET = a ∧ t.flag Fld.SYS_ABSENT_HIT_WRITE = w) ∧
      (s.flag Fld.SYS_ABSENT_HIT_VALID = true →
        t.fld Fld.SYS_ABSENT_HIT_OFFSET = s.fld Fld.SYS_ABSENT_HIT_OFFSET ∧
          t.flag Fld.SYS_ABSENT_HIT_MULTI = true) ∧
      (s.now.absents = [] → Ident.isEngine who = false → ∃ u,
        exec (.registerWrite who Reg.SYS_ABSENT_HIT 4 (0x80000000 + 0x08000000 * (v % 2))) t = .next u ∧
        u.flag Fld.SYS_ABSENT_HIT_VALID = true ∧ u.fld Fld.SYS_ABSENT_HIT_OFFSET = a ∧
        u.flag Fld.SYS_ABSENT_HIT_WRITE = w ∧
        u.flag Fld.SYS_ABSENT_HIT_MULTI = (s.flag Fld.SYS_ABSENT_HIT_MULTI && v % 2 == 0)) := by
  refine ⟨s.absentHit a w, exec_absentWindowAccess w hServes hAbsent, fun r hr => absentHit_reg_ne s a w hr,
    absentHit_valid s w ha, fun hFirst => ?_, fun hLater => ?_, fun h0 hEng => ?_⟩
  · obtain ⟨-, hOffset, hWrite, -⟩ := absentCapture_first (s := s.absentNoted a w) w hFirst ha
    exact ⟨hOffset, hWrite⟩
  · exact (absentCapture_later (s := s.absentNoted a w) a w hLater).2
  · simp only [serves, Bool.and_eq_true, Bool.not_eq_true'] at hServes
    obtain ⟨⟨hRun, hReach⟩, -⟩ := hServes
    obtain ⟨hClears, hMulti⟩ := clearWord_bits v
    refine ⟨_, exec_registerWrite_sys (k := 0) _ ((absentHit_inReset s a w).trans hRun)
      ((absentHit_reaches s a w who).trans hReach) hEng rfl (by decide) (by decide) (by decide), ?_⟩
    rw [← hMulti]
    exact clearAbsent_meets_access w ha h0 hClears

/-- R12, R14: a word read that nothing holds back. -/
theorem registerRead_spec (s : State) (who : Ident) (a : Nat) (r : RegRow) (hRun : s.inReset = false)
    (hReach : s.reaches who = true) (h4 : a % 4 = 0) (ha : a < 0x100000) (hr : regRow a = some r)
    (hNow : s.readsAtOnce who = true) :
    ∃ t x, exec (.registerRead who a 4) s = .next t ∧ t.out = .readData who a x :: s.out ∧
      ((∀ f ∈ r.rc, s.raisedNow a f = none) → x = (s.reg a &&& readable r).toNat) ∧
      (∀ f ∈ r.rc, f.1 + f.2 ≤ 32 → s.raisedNow a f = none → fieldGet (t.reg a) f.1 f.2 = 0) ∧
      (∀ f ∈ r.rc, f.1 + f.2 ≤ 32 → ∀ p, s.raisedNow a f = some p →
        x / 2 ^ f.1 % 2 ^ f.2 = p.1 % 2 ^ f.2 ∧ fieldGet (t.reg a) f.1 f.2 = min (2 ^ f.2 - 1) p.2) ∧
      ∀ a', a' ≠ a → t.reg a' = s.reg a' := by
  obtain ⟨hOut, hOther, hCounter⟩ := afterRead_sys_spec s ha hr
  obtain ⟨hWord, hBefore⟩ := beforeRaises_sys_spec s (s.plainWord a) ha hr
  refine ⟨_, _, exec_registerRead_sys hRun hReach h4 ha hNow, congrArg (_ :: ·) hOut, fun hNone => ?_,
    fun f hf h32 hNone => ?_, fun f hf h32 p hp => ⟨?_, ?_⟩, hOther⟩
  · rw [hWord hNone, plainWord_of_row hr]
  · exact (hCounter f hf h32).trans (by rw [hNone]; rfl)
  · rw [← fieldGet_eq_div_mod, hBefore f hf h32 p hp]
  · exact (hCounter f hf h32).trans (by rw [hp]; rfl)

end Sys2Proof.Machine

open Sys2Proof Sys2Proof.Machine Sys2Proof.Machine.State

/-- Settles O27: an absent access is one capture of SYS_ABSENT_HIT, and a SYS access is one write or read of its row. -/
theorem registerAccess : Obligations.RegisterAccess := by
  intro s who a n v w
  refine ⟨absentAccess_spec s who a v w, ?_⟩
  intro hRun hReach hEng h4 ha hMode hPkg hBoot r hr
  have hWrite (k n : Nat) := exec_registerWrite_sys (k := k) (n := n) v hRun hReach hEng h4 ha
  refine ⟨fun hHit => ?_, fun hHit h0 => ?_, fun k hn hk hSub => ?_,
    registerRead_spec s who a r hRun hReach h4 ha hr, exec_registerRead_waits a 4 hRun hReach⟩
  · exact ⟨_, hWrite 0 4 (by decide) (by decide), writeSys_word s who _ hMode hPkg hBoot hHit hr⟩
  · subst hHit
    refine ⟨_, hWrite 0 4 (by decide) (by decide), ?_⟩
    rw [if_neg (by decide), writeSys_absentHit, clearAbsent_noAccess _ h0]
    exact ⟨reg_setReg_same s _ _, fun a' ha' => reg_setReg_ne s _ ha'⟩
  · refine ⟨_, hWrite k n hn hk, ?_⟩
    rw [if_pos hSub]
    exact windowErr_sys s
end

section
/-!
SUPPORT. The registers of an engine (R77, R78): a read after a write of the same register, of another and of a pair;
and what an instruction with operand pairs is to issue (R108, R110).
-/

namespace Sys2Proof.Machine

/-! ### Even registers -/

/-- An even register is not the last, so the register above it is not g0. -/
theorem succ_ne_zero_of_even {r : GReg} (h : oddReg r = false) : r + 1 ≠ 0 := by
  revert h; revert r; decide

theorem ne_succ_greg (r : GReg) : r ≠ r + 1 := by
  revert r; decide

theorem pairByte_cons_odd {r : GReg} (b : Nat) (rest : List (GReg × Nat)) (h : oddReg r = true) :
    pairByte ((r, b) :: rest) = some b := if_pos h

theorem pairByte_cons_even {r : GReg} (b : Nat) (rest : List (GReg × Nat)) (h : oddReg r = false) :
    pairByte ((r, b) :: rest) = pairByte rest := by
  simp [pairByte, h]

/-- Two even registers pass the PAIR check, and without WIDE any do. -/
theorem pairBad_two_even {wide : Bool} {d a : GReg} (need i j : Nat)
    (hEven : wide = true → oddReg d = false ∧ oddReg a = false) : pairBad wide need [(d, i), (a, j)] = none := by
  cases wide with
  | false => rfl
  | true =>
    obtain ⟨hd, ha⟩ := hEven rfl
    rw [pairBad, if_pos rfl, pairByte_cons_even _ _ hd, pairByte_cons_even _ _ ha]
    rfl

/-- An odd register that comes first fails the PAIR check under WIDE at its byte. -/
theorem pairBad_first_odd {d : GReg} (need b : Nat) (rest : List (GReg × Nat)) (h : oddReg d = true) :
    pairBad true need ((d, b) :: rest) = some { reason := 0xB, byte := b, need := need } := by
  rw [pairBad, if_pos rfl, pairByte_cons_odd _ _ h, Option.map_some]

namespace State

/-! ### Single registers -/

@[simp] theorem greg_zero (s : State) (e : Nat) : s.greg e 0 = 0 := if_pos rfl

@[simp] theorem setGreg_zero (s : State) (e : Nat) (v : Word) : s.setGreg e 0 v = s := if_pos rfl

theorem greg_setGreg_same (s : State) (e : Nat) {r : GReg} (v : Word) (h : r ≠ 0) : (s.setGreg e r v).greg e r = v := by
  simp [greg, setGreg, h]

theorem greg_setGreg_ne (s : State) (e : Nat) {q r : GReg} (v : Word) (h : q ≠ r) :
    (s.setGreg e r v).greg e q = s.greg e q := by
  by_cases hr : r = 0
  · rw [hr, setGreg_zero]
  · have hKey : q.val ≠ r.val := fun hv => h (Fin.ext hv)
    simp only [greg, setGreg, if_neg hr, eng_setEng_same, Store.get_set_ne _ _ hKey]

/-! ### Pairs -/

@[simp] theorem rd_pair_zero (s : State) (e : Nat) : s.rd e true 0 = 0 := rfl

@[simp] theorem wr_pair_zero (s : State) (e x : Nat) : s.wr e true 0 x = s := rfl

theorem rd_pair (s : State) (e : Nat) {r : GReg} (h : r ≠ 0) :
    s.rd e true r = (s.greg e (r + 1)).toNat * 2 ^ 32 + (s.greg e r).toNat := by
  rw [rd, if_pos rfl, if_neg h, Nat.add_comm, Nat.mul_comm]

theorem wr_pair (s : State) (e x : Nat) {r : GReg} (h : r ≠ 0) :
    s.wr e true r x = (s.setGreg e r (BitVec.ofNat 32 x)).setGreg e (r + 1) (BitVec.ofNat 32 (x / 2 ^ 32)) := by
  rw [wr, if_pos rfl, if_neg h]

/-- The low word of a pair written stands in the register that names it. -/
theorem greg_wr_low (s : State) (e x : Nat) {r : GReg} (h : r ≠ 0) :
    (s.wr e true r x).greg e r = BitVec.ofNat 32 x := by
  rw [wr_pair s e x h, greg_setGreg_ne _ e _ (ne_succ_greg r), greg_setGreg_same s e _ h]

/-- The high word of a pair written stands in the register above. -/
theorem greg_wr_high (s : State) (e x : Nat) {r : GReg} (h : r ≠ 0) (hEven : oddReg r = false) :
    (s.wr e true r x).greg e (r + 1) = BitVec.ofNat 32 (x / 2 ^ 32) := by
  rw [wr_pair s e x h, greg_setGreg_same _ e _ (succ_ne_zero_of_even hEven)]

/-- A pair written reads back modulo 2^64. -/
theorem rd_wr_pair (s : State) (e x : Nat) {r : GReg} (h : r ≠ 0) (hEven : oddReg r = false) :
    (s.wr e true r x).rd e true r = x % 2 ^ 64 := by
  rw [rd_pair _ e h, greg_wr_low s e x h, greg_wr_high s e x h hEven, BitVec.toNat_ofNat, BitVec.toNat_ofNat]
  omega

/-! ### Issue -/

/-- Bytes that stand in instruction SRAM do so with all before them. -/
theorem fetched_of_le {s : State} {e m n : Nat} (h : s.fetched e n = true) (hmn : m ≤ n) : s.fetched e m = true := by
  simp only [fetched, decide_eq_true_eq] at h ⊢
  omega

theorem issue_runs {s : State} {e : Nat} {f : Form} (body : State → State) (hReady : s.ready e = true)
    (hBad : f.bad = none) (hFetched : s.fetched e f.len = true) : s.issue e f body = body s := by
  simp only [issue, hReady, hBad, hFetched, if_true]

theorem issue_illegal {s : State} {e : Nat} {f : Form} {b : Bad} (body : State → State) (hReady : s.ready e = true)
    (hBad : f.bad = some b) (hFetched : s.fetched e b.need = true) : s.issue e f body = s.illegal e b.reason b.byte := by
  simp only [issue, hReady, hBad, hFetched, if_true]

/-- An odd gd of a three-register form fails the PAIR check at the first operand byte. -/
theorem alu3_odd_dest {s : State} {e : Nat} {d : GReg} (a b : GReg) (f : Nat → Nat → Nat → Nat)
    (hOdd : oddReg d = true) (hReady : s.ready e = true) (hFetched : s.fetched e 4 = true) :
    s.alu3 e true d a b f = s.illegal e 0xB 2 :=
  issue_illegal (b := { reason := 0xB, byte := 2, need := 4 }) _ hReady (pairBad_first_odd _ _ _ hOdd) hFetched

/-- A two-register form whose operands may be named runs its operation. -/
theorem alu2_runs {s : State} {e : Nat} {wide : Bool} {d a : GReg} (f : Nat → Nat → Nat) (hReady : s.ready e = true)
    (hFetched : s.fetched e (2 + bit wide) = true) (hEven : wide = true → oddReg d = false ∧ oddReg a = false) :
    s.alu2 e wide d a f = (s.wr e wide d (f (opBits wide) (s.rd e wide a))).advance e (2 + bit wide) :=
  issue_runs _ hReady (pairBad_two_even _ _ _ hEven) hFetched

/-- A field16 with bits 15–13 clear, and operands that may be named: the bit-field instruction runs. -/
theorem bitField_runs {s : State} {e : Nat} {wide : Bool} {d a : GReg} {field : BitVec 16}
    (f : Nat → Nat → Nat → BitVec 16 → Nat) (hReady : s.ready e = true) (hFetched : s.fetched e (4 + bit wide) = true)
    (hEven : wide = true → oddReg d = false ∧ oddReg a = false) (hField : field.toNat < 0x2000) :
    s.bitField e wide d a field f =
      (s.wr e wide d (f (opBits wide) (s.rd e wide d) (s.rd e wide a) field)).advance e (4 + bit wide) := by
  simp only [bitField, if_neg (Nat.not_le.2 hField)]
  exact issue_runs _ hReady (pairBad_two_even _ _ _ hEven) hFetched

/-- A field16 with a bit of 15–13 set raises ILLEGAL, IMM_RSV, at its high byte, before the operands are checked. -/
theorem bitField_reserved {s : State} {e : Nat} {wide : Bool} (d a : GReg) {field : BitVec 16}
    (f : Nat → Nat → Nat → BitVec 16 → Nat) (hReady : s.ready e = true) (hFetched : s.fetched e (4 + bit wide) = true)
    (hField : 0x2000 ≤ field.toNat) : s.bitField e wide d a field f = s.illegal e 8 (3 + bit wide) := by
  simp only [bitField, if_pos hField]
  exact issue_illegal (b := { reason := 8, byte := 3 + bit wide, need := 4 + bit wide }) _ hReady rfl hFetched

end State

end Sys2Proof.Machine
end

section
/-!
PROOF. O5 and O7: the bit instructions (R92), bit by bit and byte by byte, and the register file (R78).
-/

namespace Sys2Proof.Machine.Alu

/-! ### Bit fields -/

theorem testBit_not (n a k : Nat) : (not n a).testBit k = (decide (k < n) && !a.testBit k) := by
  have hLt : a % 2 ^ n < 2 ^ n := Nat.mod_lt _ (Nat.two_pow_pos n)
  have hSucc : not n a = 2 ^ n - (a % 2 ^ n + 1) := by rw [not, ones, Nat.sub_sub, Nat.add_comm 1]
  rw [hSucc, Nat.testBit_two_pow_sub_succ hLt, Nat.testBit_mod_two_pow]
  by_cases hk : k < n <;> simp [hk]

/-- The ones of a field of `width` bits from `lsb` on. -/
theorem testBit_fieldMask (width lsb k : Nat) :
    ((2 ^ width - 1) * 2 ^ lsb).testBit k = decide (lsb ≤ k ∧ k < lsb + width) := by
  rw [Nat.testBit_mul_two_pow, Nat.testBit_two_pow_sub_one, ← Bool.decide_and, decide_eq_decide]
  omega

/-- BFX takes the field's bits below bit N, and zeros. -/
theorem testBit_bfx (n a : Nat) (field : BitVec 16) (k : Nat) :
    let lsb := field.toNat % 64
    let width := field.toNat / 64 % 128
    (bfx n a field).testBit k = (decide (k < width ∧ lsb + k < n) && a.testBit (lsb + k)) := by
  simp only [bfx]
  generalize field.toNat % 64 = lsb
  generalize field.toNat / 64 % 128 = width
  split
  case isTrue hEmpty =>
    have hOut : ¬(k < width ∧ lsb + k < n) := by omega
    simp [hOut]
  case isFalse =>
    have hIn : k < min width (n - lsb) ↔ k < width ∧ lsb + k < n := by omega
    rw [Nat.testBit_mod_two_pow, Nat.testBit_div_two_pow, decide_eq_decide.2 hIn, Nat.add_comm k lsb]

/-- BFI replaces the field's bits below bit N, and keeps the others. -/
theorem testBit_bfi {n : Nat} (d a : Nat) (field : BitVec 16) {k : Nat} (hk : k < n) :
    let lsb := field.toNat % 64
    let width := field.toNat / 64 % 128
    (bfi n d a field).testBit k = if lsb ≤ k ∧ k < lsb + width then a.testBit (k - lsb) else d.testBit k := by
  simp only [bfi]
  generalize field.toNat % 64 = lsb
  generalize field.toNat / 64 % 128 = width
  split
  case isTrue hEmpty => rw [if_neg (by omega)]
  case isFalse =>
    have hMask : lsb ≤ k ∧ k < lsb + min width (n - lsb) ↔ lsb ≤ k ∧ k < lsb + width := by omega
    rw [Nat.testBit_or, Nat.testBit_and, Nat.testBit_and, testBit_not, testBit_fieldMask, Nat.testBit_mod_two_pow,
      Nat.testBit_mul_two_pow]
    simp only [hMask]
    by_cases hIn : lsb ≤ k ∧ k < lsb + width <;> simp [hIn, hk]

/-! ### Leading zeros -/

theorem clz_le (n a : Nat) : clz n a ≤ n := by
  induction n with
  | zero => exact Nat.le_refl 0
  | succ n ih => rw [clz]; split <;> omega

/-- Only zeros stand above the leading one. -/
theorem testBit_above_clz {n a k : Nat} (hk : k < n) (h : n - clz n a ≤ k) : a.testBit k = false := by
  induction n with
  | zero => omega
  | succ n ih =>
    rw [clz] at h
    cases hTop : a.testBit n with
    | true => simp [hTop] at h; omega
    | false =>
      simp only [hTop, Bool.false_eq_true, if_false] at h
      obtain rfl | hk' : k = n ∨ k < n := by omega
      · exact hTop
      · exact ih hk' (by omega)

/-- Below the leading zeros stands a one, unless all bits are zeros. -/
theorem testBit_below_clz {n a : Nat} (h : clz n a < n) : a.testBit (n - clz n a - 1) = true := by
  induction n with
  | zero => omega
  | succ n ih =>
    rw [clz] at h ⊢
    cases hTop : a.testBit n with
    | true => simp [hTop]
    | false =>
      simp only [hTop, Bool.false_eq_true, if_false] at h ⊢
      have hSame : n + 1 - (1 + clz n a) - 1 = n - clz n a - 1 := by omega
      rw [hSame]
      exact ih (by omega)

/-! ### Ones -/

theorem popc_eq_length_filter (n a : Nat) : popc n a = ((List.range n).filter fun k => a.testBit k).length := by
  induction n with
  | zero => rfl
  | succ n ih =>
    rw [popc, ih, List.range_succ, List.filter_append, List.length_append, Nat.add_comm]
    cases h : a.testBit n <;> simp [h, bit]

/-! ### Bytes in reverse -/

theorem bswap_lt (k a : Nat) : bswap k a < 256 ^ k := by
  induction k generalizing a with
  | zero => exact Nat.one_pos
  | succ k ih =>
    have hByte : a % 256 * 256 ^ k ≤ 255 * 256 ^ k := Nat.mul_le_mul_right _ (by omega)
    have hRest := ih (a / 256)
    rw [bswap, Nat.pow_succ]
    omega

/-- Byte `i` of `k` is byte `k - 1 - i` of the operand. -/
theorem byte_bswap {k i : Nat} (a : Nat) (hi : i < k) :
    bswap k a / 256 ^ i % 256 = a / 256 ^ (k - 1 - i) % 256 := by
  induction k generalizing a with
  | zero => omega
  | succ k ih =>
    have hPos : 0 < 256 ^ i := Nat.pow_pos (by decide)
    rw [bswap, Nat.add_sub_cancel]
    obtain rfl | hLow : i = k ∨ i < k := by omega
    · rw [Nat.mul_comm, Nat.mul_add_div hPos, Nat.div_eq_of_lt (bswap_lt i _)]
      simp
    · have hAbove : a % 256 * 256 ^ k = 256 ^ i * (256 * (256 ^ (k - 1 - i) * (a % 256))) := by
        rw [← Nat.mul_assoc 256, ← Nat.pow_succ', ← Nat.mul_assoc, ← Nat.pow_add, Nat.mul_comm]
        congr 2
        omega
      have hShift : a / 256 / 256 ^ (k - 1 - i) = a / 256 ^ (k - i) := by
        rw [Nat.div_div_eq_div_mul, ← Nat.pow_succ']
        congr 2
        omega
      rw [hAbove, Nat.mul_add_div hPos, Nat.mul_add_mod, ih (a / 256) hLow, hShift]

end Sys2Proof.Machine.Alu

open Sys2Proof Sys2Proof.Machine Sys2Proof.Machine.State Sys2Proof.Machine.Alu

/-- Settles O5: each instruction issues and writes its function's result, whose bits the laws of `Alu` give. -/
theorem bitInstructions : Obligations.BitInstructions := by
  intro s e wide d a field hReady hFetched hEven
  have hFetched2 : s.fetched e (2 + bit wide) = true := fetched_of_le hFetched (by omega)
  refine ⟨fun hField => ⟨?_, ?_⟩, fun hField => ⟨_, ?_, fun k _ => testBit_bfx _ _ field k⟩,
    fun hField => ⟨_, ?_, fun k hk => testBit_bfi _ _ field hk⟩,
    ⟨_, ?_, clz_le _ _, fun k hk h => testBit_above_clz hk h, testBit_below_clz⟩,
    ⟨_, ?_, popc_eq_length_filter _ _⟩, ⟨_, ?_, fun k hk => byte_bswap _ hk⟩⟩
  · exact congrArg Host.Outcome.next (bitField_reserved d a _ hReady hFetched hField)
  · exact congrArg Host.Outcome.next (bitField_reserved d a _ hReady hFetched hField)
  · exact congrArg Host.Outcome.next (bitField_runs _ hReady hFetched hEven hField)
  · exact congrArg Host.Outcome.next (bitField_runs _ hReady hFetched hEven hField)
  · exact congrArg Host.Outcome.next (alu2_runs _ hReady hFetched2 hEven)
  · exact congrArg Host.Outcome.next (alu2_runs _ hReady hFetched2 hEven)
  · exact congrArg Host.Outcome.next (alu2_runs _ hReady hFetched2 hEven)

/-- Settles O7: g0 and pair 0 are constants 0, every other register and pair reads back what was written, and ADD's PAIR
check stands before its execution. -/
theorem registerFile : Obligations.RegisterFile := by
  intro s e r q v x
  refine ⟨greg_zero s e, setGreg_zero s e v, rd_pair_zero s e, wr_pair_zero s e x, fun h _ => rd_pair s e h,
    greg_setGreg_same s e v, greg_setGreg_ne s e v, fun h hEven => ?_, fun d b hOdd hReady hFetched => ?_⟩
  · exact ⟨rd_wr_pair s e x h hEven, greg_wr_low s e x h, greg_wr_high s e x h hEven⟩
  · exact congrArg Host.Outcome.next (alu3_odd_dest d b Alu.add hOdd hReady hFetched)
end

section
/-!
SUPPORT. Control transfer: an instruction without operand checks issues, where a branch goes (R95), and what popping the
innermost record brings back (R129).
-/

namespace Sys2Proof.Machine

/-- No displacement form is longer than MEM32 (Table ISA-3). -/
theorem dispLen_le_six (disp : Disp) : dispLen disp ≤ 6 := by
  cases disp <;> simp [dispLen]

namespace State

/-! ### A general register beside the rest of its engine -/

@[simp] theorem pc_setGreg (s : State) (e : Nat) (r : GReg) (v : Word) : (s.setGreg e r v).pc e = s.pc e := by
  by_cases hr : r = 0
  · rw [hr, setGreg_zero]
  · simp [pc, setGreg, hr]

@[simp] theorem stack_setGreg (s : State) (e : Nat) (r : GReg) (v : Word) :
    ((s.setGreg e r v).eng e).stack = (s.eng e).stack := by
  by_cases hr : r = 0
  · rw [hr, setGreg_zero]
  · simp [setGreg, hr]

@[simp] theorem greg_setFld (s : State) (e : Nat) (f : Fld) (v : Nat) (r : GReg) :
    (s.setFld f v).greg e r = s.greg e r := rfl

@[simp] theorem pc_setFld (s : State) (e : Nat) (f : Fld) (v : Nat) : (s.setFld f v).pc e = s.pc e := rfl

@[simp] theorem pc_setEng (s : State) (e : Nat) (x : Engine) : (s.setEng e x).pc e = x.pc := by
  rw [pc, eng_setEng_same]

/-- The level is a field of six bits. -/
theorem level_setFld (s : State) (e l : Nat) : (s.setFld (Fld.CE_STAT_LEVEL e) l).level e = l % 64 :=
  fld_setFld_same s (Fld.CE_STAT_LEVEL e) l (show 6 + 6 ≤ 32 by decide)

/-! ### Issue and branches -/

/-- An encoding that can fail no check runs when at least its bytes stand in instruction SRAM. -/
theorem issue_plainForm {s : State} {e len n : Nat} (body : State → State) (hReady : s.ready e = true)
    (hFetched : s.fetched e n = true) (hLen : len ≤ n) : s.issue e (plainForm len) body = body s :=
  issue_runs body hReady rfl (fetched_of_le hFetched hLen)

/-- A register written before a branch does not move its target. -/
theorem branch_setGreg (s : State) (e : Nat) (r : GReg) (v : Word) (len : Nat) (disp : Int) :
    (s.setGreg e r v).branch e len disp =
      (s.setGreg e r v).goto e (s.pc e + BitVec.ofNat 32 len + BitVec.ofInt 32 disp) := by
  rw [branch, pc_setGreg]

/-- A register written does not move the next instruction's address. -/
theorem advance_setGreg (s : State) (e : Nat) (r : GReg) (v : Word) (len : Nat) :
    (s.setGreg e r v).advance e len = (s.setGreg e r v).goto e (s.pc e + BitVec.ofNat 32 len) := by
  rw [advance, pc_setGreg]

/-- A conditional branch goes to one of two addresses. -/
theorem branch_or_advance (s : State) (e len : Nat) (disp : Int) (c : Prop) [Decidable c] :
    (if c then s.branch e len disp else s.advance e len) =
      s.goto e (if c then s.pc e + BitVec.ofNat 32 len + BitVec.ofInt 32 disp else s.pc e + BitVec.ofNat 32 len) :=
  (apply_ite (s.goto e) c _ _).symm

/-! ### Popping a record (R129) -/

section

variable {s : State} {e : Nat} {r : Record} {rest : List Record}

/-- What the pop writes, as one update of the engine, then g13, then the level. -/
theorem popRecord_cons (h : (s.eng e).stack = r :: rest) :
    ∃ x : Engine, x.stack = rest ∧ x.pc = r.retPC ∧
      s.popRecord e = ((s.setEng e x).setGreg e 13 r.g13).setFld (Fld.CE_STAT_LEVEL e) r.level := by
  rw [popRecord, h]
  exact ⟨_, rfl, rfl, rfl⟩

theorem stack_popRecord (h : (s.eng e).stack = r :: rest) : ((s.popRecord e).eng e).stack = rest := by
  obtain ⟨x, hStack, -, hPop⟩ := popRecord_cons h
  simp [hPop, hStack]

theorem pc_popRecord (h : (s.eng e).stack = r :: rest) : (s.popRecord e).pc e = r.retPC := by
  obtain ⟨x, -, hPc, hPop⟩ := popRecord_cons h
  simp [hPop, hPc]

theorem g13_popRecord (h : (s.eng e).stack = r :: rest) : (s.popRecord e).greg e 13 = r.g13 := by
  obtain ⟨x, -, -, hPop⟩ := popRecord_cons h
  rw [hPop, greg_setFld, greg_setGreg_same _ _ _ (by decide)]

theorem level_popRecord (h : (s.eng e).stack = r :: rest) : (s.popRecord e).level e = r.level % 64 := by
  obtain ⟨x, -, -, hPop⟩ := popRecord_cons h
  rw [hPop, level_setFld]

end

end State

end Sys2Proof.Machine
end

section
/-!
PROOF. O6 and O24: the branches, CALL, RET and LEA (R93, R95, R112), and RETE (R129, R130).
-/

open Sys2Proof Sys2Proof.Machine Sys2Proof.Machine.State

/-- Settles O6: none of these instructions can fail a check, so each issues; the target is taken from PC as it stood
before g14 was written. -/
theorem branchesAndAddresses : Obligations.BranchesAndAddresses := by
  intro s e d a b disp far hReady hFetched
  have hRun (len : Nat) (hLen : len ≤ 6) (body : State → State) :
      Host.Outcome.next (s.issue e (plainForm len) body) = (.next (body s) : Answer) :=
    congrArg Host.Outcome.next (issue_plainForm body hReady hFetched hLen)
  have hDisp := dispLen_le_six disp
  refine ⟨hRun 2 (by decide) _, (hRun 6 le_rfl _).trans ?lea, hRun _ hDisp _, (hRun _ hDisp _).trans ?bz,
    (hRun _ hDisp _).trans ?bnz, (hRun _ hDisp _).trans ?call, hRun 2 (by decide) _, hRun 2 (by decide) _,
    hRun 2 (by decide) _⟩
  case lea => rw [advance_setGreg]
  case bz => rw [branch_or_advance]
  case bnz => rw [branch_or_advance, ite_not]
  case call => rw [branch_setGreg]

/-- Settles O24: with an empty stack RETE issues as ILLEGAL; with a record and nothing due it ends in the state that
popping the record leaves. -/
theorem reteReturn : Obligations.Return := by
  intro s e hReady hFetched
  have hIssue (body : State → State) : s.issue e (plainForm 3) body = body s :=
    issue_plainForm body hReady hFetched le_rfl
  refine ⟨fun hEmpty => ?_, fun r rest hStack hDue => ⟨s.popRecord e, ?_, stack_popRecord hStack, pc_popRecord hStack,
    g13_popRecord hStack, level_popRecord hStack⟩⟩
  · refine congrArg Host.Outcome.next ((hIssue _).trans (if_pos ?_))
    rw [hEmpty, List.isEmpty_nil]
  · refine congrArg Host.Outcome.next ((hIssue _).trans ((if_neg ?_).trans (if_neg ?_)))
    · simp [hStack]
    · simp [hDue]
end

section
/-!
PROOF. O35: the supply monitors (R509–R511), the rows of MRAM and their order (R514, R518, R519), the NV commands (R517)
and the OTP array (R520).
-/

namespace Sys2Proof.Machine

namespace Mem

theorem length_readBytes (m : Mem) (a n : Nat) : (m.readBytes a n).length = n := by
  induction n generalizing a with
  | zero => rfl
  | succ n ih => exact congrArg (· + 1) (ih (a + 1))

/-- A row that is written reads back. -/
theorem readBytes_writeRow (m : Mem) (a : Nat) {bs : List Byte} (h : bs.length = 64) :
    (m.writeBytes a bs).readBytes a 64 = bs := h ▸ readBytes_writeBytes bs m a

end Mem

namespace State

/-! ### Fields that an update does not reach -/

theorem fld_of_reg {s t : State} {f : Fld} (h : t.reg f.reg = s.reg f.reg) : t.fld f = s.fld f := by
  simp only [fld, h]

theorem flag_of_reg {s t : State} {f : Fld} (h : t.reg f.reg = s.reg f.reg) : t.flag f = s.flag f := by
  simp only [flag, fld_of_reg h]

theorem fld_count_same (s : State) (f : Fld) (k : Nat) (h : f.lo + f.width ≤ 32) :
    (s.count f k).fld f = min (2 ^ f.width - 1) (s.fld f + k) := by
  have hMax := Nat.two_pow_pos f.width
  rw [count, fld_setFld_same _ _ _ h]
  exact Nat.mod_eq_of_lt (Nat.lt_of_le_of_lt (Nat.min_le_left _ _) (by omega))

theorem flag_count_apart (s : State) {f g : Fld} (k : Nat) (h : f.apart g) : (s.count f k).flag g = s.flag g :=
  flag_setFld_apart (s.stampRaise f k) _ h

theorem reg_count_ne (s : State) {f : Fld} {a : Nat} (k : Nat) (h : a ≠ f.reg) : (s.count f k).reg a = s.reg a :=
  reg_setFld_ne (s.stampRaise f k) _ h

@[simp] theorem flag_notify (s : State) (n : Notice) (f : Fld) : (s.notify n).flag f = s.flag f := rfl

/-! ### NV_RES -/

/-- NV_RES holds a result. -/
def NvAnswer (t : State) (code : Nat) (done : Bool) : Prop :=
  t.fld Fld.NV_RES_RESULT = code ∧ t.flag Fld.NV_RES_DONE = done

theorem NvAnswer.of_reg {s t : State} {code : Nat} {done : Bool} (ha : s.NvAnswer code done)
    (h : t.reg Reg.NV_RES = s.reg Reg.NV_RES) : t.NvAnswer code done :=
  ⟨(fld_of_reg h).trans ha.1, (flag_of_reg h).trans ha.2⟩

theorem reg_nvResult_ne (s : State) (code : Nat) (done : Bool) {a : Nat} (h : a ≠ Reg.NV_RES) :
    (s.nvResult code done).reg a = s.reg a := by
  rw [nvResult, reg_setFlag_ne _ _ h, reg_setFld_ne _ _ h]

theorem nvResult_answers (s : State) {code : Nat} (done : Bool) (h : code < 65536) :
    (s.nvResult code done).NvAnswer code done := by
  refine ⟨?_, flag_setFlag_same _ _ _ (by decide) rfl⟩
  rw [nvResult, fld_setFlag_apart _ _ (.inr (by decide)), fld_setFld_same _ _ _ (by decide)]
  exact Nat.mod_eq_of_lt h

@[simp] theorem nvEnd_nv (s : State) (code : Nat) : (s.nvEnd code).nv = none := rfl
@[simp] theorem nvEnd_mram (s : State) (code : Nat) : (s.nvEnd code).mram = s.mram := rfl

theorem reg_nvEnd_ne (s : State) (code : Nat) {a : Nat} (h : a ≠ Reg.NV_RES) : (s.nvEnd code).reg a = s.reg a :=
  reg_nvResult_ne { s with nv := none } code true h

theorem nvEnd_answers (s : State) {code : Nat} (h : code < 65536) : (s.nvEnd code).NvAnswer code true :=
  nvResult_answers { s with nv := none } true h

@[simp] theorem nvStart_nv (s : State) (j : NvJob) : (s.nvStart j).nv = some j := rfl
@[simp] theorem nvStart_mram (s : State) (j : NvJob) : (s.nvStart j).mram = s.mram := rfl
@[simp] theorem nvStart_cycle (s : State) (j : NvJob) : (s.nvStart j).cycle = s.cycle := rfl
@[simp] theorem nvStart_sup (s : State) (j : NvJob) : (s.nvStart j).sup = s.sup := rfl

theorem nvStart_answers (s : State) (j : NvJob) : (s.nvStart j).NvAnswer 1 false :=
  (nvResult_answers { s with nv := some j } false (by decide : 1 < 65536)).of_reg (reg_setReg_ne _ _ (by decide))

theorem nvBlocked_of_reg {s t : State} (h : t.reg Reg.PWR_STAT = s.reg Reg.PWR_STAT) : t.nvBlocked = s.nvBlocked :=
  flag_of_reg h

@[simp] theorem nvBlocked_nvStart (s : State) (j : NvJob) : (s.nvStart j).nvBlocked = s.nvBlocked :=
  nvBlocked_of_reg ((reg_setReg_ne _ _ (by decide)).trans (reg_nvResult_ne _ _ _ (by decide)))

/-! ### The start of a row (R518) -/

/-- Under BLOCK the supervisor's rows are given up, and nothing else. -/
theorem supLow_of_block_frame {s s1 : State} (h : (if s.nvBlocked ∧ !s.sup.rows.isEmpty then s.supLow else s) = s1) :
    s1.nv = s.nv ∧ s1.mram = s.mram ∧ ∀ a, s1.reg a = s.reg a := by
  subst h
  split <;> exact ⟨rfl, rfl, fun _ => rfl⟩

/-- A start reaches NV_RES alone among the registers, and no byte of the memory. -/
theorem startRow_frame (s : State) :
    s.startRow.mram = s.mram ∧ ∀ {a}, a ≠ Reg.NV_RES → s.startRow.reg a = s.reg a := by
  unfold startRow
  dsimp only
  generalize hFirst : (if s.nvBlocked ∧ !s.sup.rows.isEmpty then s.supLow else s) = s1
  obtain ⟨-, hMram, hReg⟩ := supLow_of_block_frame hFirst
  split
  · exact ⟨rfl, fun _ => rfl⟩
  · split
    · exact ⟨hMram, fun _ => hReg _⟩
    · split
      · split
        · exact ⟨hMram, fun _ => hReg _⟩
        · split
          · exact ⟨hMram, fun h => (reg_nvEnd_ne _ _ h).trans (hReg _)⟩
          · exact ⟨hMram, fun _ => hReg _⟩
      · exact ⟨hMram, fun _ => hReg _⟩

@[simp] theorem startRow_mram (s : State) : s.startRow.mram = s.mram := (startRow_frame s).1

/-- Without BLOCK either nothing starts, or the supervisor's row does, or the command's. -/
theorem startRow_unblocked {s : State} (h : s.nvBlocked = false) : ∃ sup nv, s.startRow = { s with sup := sup, nv := nv } ∧
    (nv = s.nv ∨ ∃ j, s.nv = some j ∧ nv = some { j with waits := false, started := s.cycle }) := by
  unfold startRow
  simp only [h, Bool.false_eq_true, false_and, if_false]
  split
  · exact ⟨s.sup, s.nv, rfl, .inl rfl⟩
  · split
    · exact ⟨_, s.nv, rfl, .inl rfl⟩
    · split
      · rename_i j hj
        split
        · exact ⟨s.sup, s.nv, rfl, .inl rfl⟩
        · exact ⟨s.sup, _, rfl, .inr ⟨j, hj, rfl⟩⟩
      · exact ⟨s.sup, s.nv, rfl, .inl rfl⟩

/-- With no row of the supervisor there, a command's row that waits starts. -/
theorem startRow_command {s : State} {j : NvJob} (hBlock : s.nvBlocked = false) (hSup : s.sup = {}) (hNv : s.nv = some j)
    (hRows : j.writesRows = true) (hWaits : j.waits = true) :
    s.startRow = { s with nv := some { j with waits := false, started := s.cycle } } := by
  simp [startRow, nvRowGoes, hBlock, hSup, hNv, hRows, hWaits]

/-- With no row of the supervisor there, none starts. -/
theorem startRow_sup_empty {s : State} (h : s.sup = {}) : s.startRow.sup = {} := by
  unfold startRow
  simp only [h, List.isEmpty_nil, Bool.not_true, Bool.false_eq_true, and_false, if_false]
  split
  · exact h
  · split
    · split
      · exact h
      · split
        · exact h
        · rfl
    · exact h

/-- With no command there, the supervisor's rows alone are concerned. -/
theorem startRow_no_command {s : State} (h : s.nv = none) :
    s.startRow.nv = none ∧ ∀ a, s.startRow.reg a = s.reg a := by
  unfold startRow
  dsimp only
  generalize hFirst : (if s.nvBlocked ∧ !s.sup.rows.isEmpty then s.supLow else s) = s1
  obtain ⟨hNv, -, hReg⟩ := supLow_of_block_frame hFirst
  rw [h] at hNv
  split
  · exact ⟨h, fun _ => rfl⟩
  · split
    · exact ⟨hNv, hReg⟩
    · rw [hNv]
      exact ⟨hNv, hReg⟩

/-! ### A command taken up or refused (R517) -/

/-- The command starts, and NV_RES reads PENDING. -/
def NvStarts (s : State) (i : Instr) (op : Nat) : Prop :=
  ∃ t j, exec i s = .next t ∧ t.nv = some j ∧ j.op = op ∧ j.started = s.cycle ∧ t.NvAnswer 1 false ∧ t.mram = s.mram

/-- The command is refused with a code. -/
def NvRefused (s : State) (i : Instr) (code : Nat) : Prop :=
  ∃ t, exec i s = .next t ∧ t.nv = s.nv ∧ t.NvAnswer code true ∧ t.mram = s.mram

/-- The cycle has brought NV_CMD a command. -/
def nvTaken (s : State) : State := { s with now := { s.now with commands := Reg.NV_CMD :: s.now.commands } }

@[simp] theorem nvTaken_mram (s : State) : s.nvTaken.mram = s.mram := rfl

theorem startRow_nvStart {s : State} {j : NvJob} (hBlock : s.nvBlocked = false) (hStarted : j.started = s.cycle) :
    ∃ k, (s.nvStart j).startRow.nv = some k ∧ k.op = j.op ∧ k.started = s.cycle ∧
      (s.nvStart j).startRow.NvAnswer 1 false := by
  obtain ⟨sup, nv, hEq, hNv⟩ := startRow_unblocked (s := s.nvStart j) (by simpa using hBlock)
  have hAns : ({ s.nvStart j with sup := sup, nv := nv } : State).NvAnswer 1 false := nvStart_answers s j
  rw [hEq]
  rcases hNv with rfl | ⟨k, hk, rfl⟩
  · exact ⟨j, rfl, rfl, hStarted, hAns⟩
  · obtain rfl : j = k := Option.some.inj hk
    exact ⟨_, rfl, rfl, rfl, hAns⟩

theorem wrongState_reg_ne (s : State) (who : Ident) {a : Nat} (h : a ≠ Reg.SYS_WRONG_STATE_CNT) :
    (s.wrongState who).reg a = s.reg a := by
  rw [wrongState, reg_setFld_ne _ _ h, reg_setFld_ne _ _ h, reg_count_ne _ _ h]

theorem countCode_frame (s : State) (who : Ident) (code : Nat) : (s.countCode who code).nv = s.nv ∧
    (s.countCode who code).mram = s.mram ∧
    ∀ {a}, a ≠ Reg.SYS_WRONG_STATE_CNT → (s.countCode who code).reg a = s.reg a := by
  unfold countCode
  split
  · exact ⟨by simp [wrongState], by simp [wrongState], wrongState_reg_ne s who⟩
  · exact ⟨rfl, rfl, fun _ => rfl⟩

/-- A refusal leaves the command in progress and the memory; only WRONG_STATE counts besides (R19). -/
theorem nvRefuse_spec (s : State) (who : Ident) {code : Nat} (h : code < 65536) :
    (s.nvRefuse who code).nv = s.nv ∧ (s.nvRefuse who code).NvAnswer code true ∧ (s.nvRefuse who code).mram = s.mram := by
  obtain ⟨hNv, hMram, hReg⟩ := countCode_frame (s.nvResult code true) who code
  exact ⟨hNv, (nvResult_answers s true h).of_reg (hReg (by decide)), hMram⟩

/-- A command whose conditions all pass starts. -/
theorem nvTake_ok {s : State} {i : Instr} {who : Ident} {code : Nat} {j : NvJob}
    (hExec : exec i s = .next (s.nvTaken.nvTake who code j)) (hCode : code = Code.ok) (hBlock : s.nvBlocked = false)
    (hStarted : j.started = s.cycle) : s.NvStarts i j.op := by
  obtain ⟨k, hNv, hOp, hCycle, hAns⟩ := startRow_nvStart (s := s.nvTaken) hBlock hStarted
  rw [nvTake, if_pos hCode] at hExec
  exact ⟨_, k, hExec, hNv, hOp, hCycle, hAns, by simp⟩

/-- A command that fails a condition is refused with its code. -/
theorem nvTake_refuses {s : State} {i : Instr} {who : Ident} {code code' : Nat} {j : NvJob}
    (hExec : exec i s = .next (s.nvTaken.nvTake who code' j)) (hCode : code' = code) (hOk : code ≠ Code.ok)
    (hLt : code < 65536) : s.NvRefused i code := by
  subst hCode
  rw [nvTake, if_neg hOk] at hExec
  split at hExec
  all_goals exact ⟨_, hExec, nvRefuse_spec _ who hLt⟩

/-- Who may command the unit reaches NV_CMD. -/
theorem nvCommand_of_asks {s : State} {who : Ident} (h : s.asks who = true) (body : State → State) :
    s.live (fun s => s.nvCommand who body) = s.oneAtATime Reg.NV_CMD (!s.flag Fld.NV_RES_DONE) Fld.NV_RES_LOST body := by
  simp only [asks, Bool.and_eq_true, Bool.not_eq_true', Bool.or_eq_true] at h
  obtain ⟨⟨hRun, hReach⟩, hWho⟩ := h
  have hEngine : Ident.isEngine who = false := by
    simp only [Ident.isHost, Ident.isSup, Ident.isEngine, decide_eq_true_eq, beq_iff_eq, decide_eq_false_iff_not] at hWho ⊢
    omega
  rw [live_of_running hRun, nvCommand, hostWrite, hEngine, if_neg Bool.false_ne_true,
    if_pos (hWho.imp_right .inl), overHclk_of_reaches hReach]

theorem nvCommand_lost {s : State} {who : Ident} (hAsks : s.asks who = true)
    (hBusy : s.flag Fld.NV_RES_DONE = false ∨ s.took Reg.NV_CMD = true) (body : State → State) :
    s.live (fun s => s.nvCommand who body) = s.setFlag Fld.NV_RES_LOST true := by
  rw [nvCommand_of_asks hAsks, oneAtATime, if_pos (by simpa using hBusy)]

section
variable {s : State} {who : Ident} (hAsks : s.asks who = true) (hDone : s.flag Fld.NV_RES_DONE = true)
  (hTook : s.took Reg.NV_CMD = false)
include hAsks hDone hTook

theorem nvCommand_runs (body : State → State) : s.live (fun s => s.nvCommand who body) = body s.nvTaken := by
  rw [nvCommand_of_asks hAsks, oneAtATime, hDone, hTook]
  rfl

theorem exec_nvRead : exec (.nvRead who []) s = .next (if s.nvAddr % 64 ≠ 0 then s.nvTaken.nvRefuse who Code.badArg
    else { s.nvTaken with nv := some { op := 1, addr := s.nvAddr, src := 0, rows := 0, data := [], hash := 0,
                                       started := s.cycle } }.nvResult Code.pending false) :=
  congrArg Host.Outcome.next (nvCommand_runs hAsks hDone hTook _)

theorem exec_nvWrite : exec (.nvWrite who) s = .next (s.nvTaken.nvTake who
    (firstCode
      [(s.nvAddr % 64 != 0, Code.badArg), (s.hostOutsideLoad who, Code.wrongState), (s.nvBlocked, Code.nvLowv)])
    { op := 2, addr := s.nvAddr, src := 0, rows := 1, data := s.nvData, hash := 0, started := s.cycle, waits := true }) :=
  congrArg Host.Outcome.next (nvCommand_runs hAsks hDone hTook _)

theorem exec_nvCopy (rows : Nat) : exec (.nvCopy who rows) s = .next (s.nvTaken.nvTake who
    (firstCode
      [(s.nvAddr % 64 != 0 || rows == 0 || decide (32768 < rows) || s.fld Fld.NV_SRC_SRC % 64 != 0 ||
          decide (0x200000 < s.fld Fld.NV_SRC_SRC + rows * 64) || decide (0x400000 < s.nvAddr + rows * 64), Code.badArg),
        (s.hostOutsideLoad who || decide (Mode.load < s.mode), Code.wrongState), (s.nvBlocked, Code.nvLowv)])
    { op := 3, addr := s.nvAddr, src := s.fld Fld.NV_SRC_SRC, rows := rows, data := [], hash := 0, started := s.cycle,
      waits := true }) :=
  congrArg Host.Outcome.next (nvCommand_runs hAsks hDone hTook _)

theorem exec_otpKey : exec (.otpKey who) s = .next (s.nvTaken.nvTake who
    (firstCode
      [(s.nvAddr % 4 == 0, Code.badArg),
        (s.mode != Mode.load || s.slotValid (s.nvAddr % 4) || s.slotDamaged (s.nvAddr % 4), Code.wrongState),
        (s.nvBlocked, Code.nvLowv)])
    { op := 4, addr := s.nvAddr % 4, src := 0, rows := 0, data := [],
      hash := (s.nvData.take 48).foldl (fun v b => v * 256 + b.toNat) 0, started := s.cycle }) :=
  congrArg Host.Outcome.next (nvCommand_runs hAsks hDone hTook _)

theorem exec_otpRevoke : exec (.otpRevoke who) s = .next (s.nvTaken.nvTake who
    (firstCode
      [(s.nvAddr % 4 == 0, Code.badArg),
        (s.mode != Mode.load || !s.slotValid (s.nvAddr % 4) || s.slotRevoked (s.nvAddr % 4), Code.wrongState),
        (s.nvBlocked, Code.nvLowv)])
    { op := 5, addr := s.nvAddr % 4, src := 0, rows := 0, data := [], hash := 0, started := s.cycle }) :=
  congrArg Host.Outcome.next (nvCommand_runs hAsks hDone hTook _)

/-- A floor given its own value needs no program; any other goes the way of the commands. -/
theorem exec_otpFloor (hNew : s.nvAddr % 64 ≠ s.fld (floorFld (s.nvAddr / 256 % 4))) :
    exec (.otpFloor who) s = .next (s.nvTaken.nvTake who
      (firstCode
        [(s.nvAddr / 256 % 4 == 3 || decide (s.nvAddr % 64 < s.fld (floorFld (s.nvAddr / 256 % 4))), Code.badArg),
          (s.mode != Mode.load, Code.wrongState),
          (s.nvBlocked && s.nvAddr % 64 != s.fld (floorFld (s.nvAddr / 256 % 4)), Code.nvLowv)])
      { op := 6, addr := s.nvAddr / 256 % 4, src := s.nvAddr % 64, rows := 0, data := [], hash := 0,
        started := s.cycle }) :=
  congrArg Host.Outcome.next ((nvCommand_runs hAsks hDone hTook _).trans (if_neg fun h => hNew h.2))

theorem nvRead_starts (hRow : s.nvAddr % 64 = 0) : s.NvStarts (.nvRead who []) 1 := by
  have hExec := exec_nvRead hAsks hDone hTook
  rw [if_neg (not_not.mpr hRow)] at hExec
  exact ⟨_, _, hExec, rfl, rfl, rfl, nvResult_answers _ _ (by decide), rfl⟩

/-- READ, WRITE and COPY take aligned rows only. -/
theorem row_unaligned (rows : Nat) (hRow : s.nvAddr % 64 ≠ 0) :
    s.NvRefused (.nvRead who []) 3 ∧ s.NvRefused (.nvWrite who) 3 ∧ s.NvRefused (.nvCopy who rows) 3 := by
  have hRead := exec_nvRead hAsks hDone hTook
  rw [if_pos hRow] at hRead
  exact ⟨⟨_, hRead, nvRefuse_spec _ who (by decide)⟩,
    nvTake_refuses (exec_nvWrite hAsks hDone hTook) (by simp [firstCode, hRow, Code.badArg]) (by decide) (by decide),
    nvTake_refuses (exec_nvCopy hAsks hDone hTook rows) (by simp [firstCode, hRow, Code.badArg]) (by decide) (by decide)⟩

theorem nvWrite_spec (hRow : s.nvAddr % 64 = 0) (hWho : s.hostOutsideLoad who = false) :
    (s.nvBlocked = false → s.NvStarts (.nvWrite who) 2) ∧ (s.nvBlocked = true → s.NvRefused (.nvWrite who) 9) := by
  have hExec := exec_nvWrite hAsks hDone hTook
  exact ⟨fun hBlock => nvTake_ok hExec (by simp [firstCode, hRow, hWho, hBlock]) hBlock rfl,
    fun hBlock => nvTake_refuses hExec (by simp [firstCode, hRow, hWho, hBlock, Code.nvLowv]) (by decide) (by decide)⟩

theorem nvCopy_starts {rows : Nat} (hRow : s.nvAddr % 64 = 0) (hMode : s.mode = 1) (hBlock : s.nvBlocked = false)
    (hRows : 0 < rows) (hSrc : s.fld Fld.NV_SRC_SRC % 64 = 0) (hSrcEnd : s.fld Fld.NV_SRC_SRC + rows * 64 ≤ 0x200000)
    (hEnd : s.nvAddr + rows * 64 ≤ 0x400000) : s.NvStarts (.nvCopy who rows) 3 := by
  have hFew : rows ≤ 32768 := by omega
  exact nvTake_ok (exec_nvCopy hAsks hDone hTook rows)
    (by simp [firstCode, hostOutsideLoad, Mode.load, hMode, hRow, hBlock, hRows.ne', hSrc, hSrcEnd, hEnd, hFew]) hBlock rfl

theorem otpKey_spec (hMode : s.mode = 1) (hBlock : s.nvBlocked = false) (hSlot : s.nvAddr % 4 ≠ 0) :
    (s.slotValid (s.nvAddr % 4) = false → s.slotDamaged (s.nvAddr % 4) = false → s.NvStarts (.otpKey who) 4) ∧
    (s.slotValid (s.nvAddr % 4) = true → s.NvRefused (.otpKey who) 5) := by
  have hExec := exec_otpKey hAsks hDone hTook
  exact ⟨fun hValid hDamaged => nvTake_ok hExec
      (by simp [firstCode, Mode.load, hMode, hBlock, hSlot, hValid, hDamaged]) hBlock rfl,
    fun hValid => nvTake_refuses hExec (by simp [firstCode, Code.wrongState, hSlot, hValid]) (by decide) (by decide)⟩

theorem otpRevoke_starts (hMode : s.mode = 1) (hBlock : s.nvBlocked = false) (hSlot : s.nvAddr % 4 ≠ 0)
    (hValid : s.slotValid (s.nvAddr % 4) = true) (hRevoked : s.slotRevoked (s.nvAddr % 4) = false) :
    s.NvStarts (.otpRevoke who) 5 :=
  nvTake_ok (exec_otpRevoke hAsks hDone hTook)
    (by simp [firstCode, Mode.load, hMode, hBlock, hSlot, hValid, hRevoked]) hBlock rfl

theorem otpFloor_spec (hMode : s.mode = 1) (hBlock : s.nvBlocked = false) (hFloor : s.nvAddr / 256 % 4 ≠ 3) :
    (s.fld (floorFld (s.nvAddr / 256 % 4)) < s.nvAddr % 64 → s.NvStarts (.otpFloor who) 6) ∧
    (s.nvAddr % 64 < s.fld (floorFld (s.nvAddr / 256 % 4)) → s.NvRefused (.otpFloor who) 3) := by
  refine ⟨fun hAbove => nvTake_ok (exec_otpFloor hAsks hDone hTook hAbove.ne') ?_ hBlock rfl,
    fun hBelow => nvTake_refuses (exec_otpFloor hAsks hDone hTook hBelow.ne) ?_ (by decide) (by decide)⟩
  · simp [firstCode, Mode.load, hMode, hBlock, hFloor, hAbove.le]
  · simp [firstCode, Code.badArg, hBelow]

end

/-- A command beside another sets LOST and does nothing else. -/
theorem nvWrite_lost {s : State} {who : Ident} (hAsks : s.asks who = true)
    (hBusy : s.flag Fld.NV_RES_DONE = false ∨ s.took Reg.NV_CMD = true) :
    exec (.nvWrite who) s = .next (s.setFlag Fld.NV_RES_LOST true) :=
  congrArg Host.Outcome.next (nvCommand_lost hAsks hBusy _)

/-! ### The monitors (R509–R511, R519) -/

/-- What the assertion of a monitor sets, before a start of its cycle is refused. -/
def monitorSet (s : State) (m : Nat) : State :=
  ((((s.setFlag (monitorFld m) true).setFlag Fld.PWR_STAT_BLOCK true).setFlag Fld.PWR_STAT_WARN true).count
    Fld.PWR_STAT_WARN_CNT).notify (.powerWarning m)

@[simp] theorem monitorSet_nv (s : State) (m : Nat) : (s.monitorSet m).nv = s.nv := by
  simp [monitorSet]
@[simp] theorem monitorSet_sup (s : State) (m : Nat) : (s.monitorSet m).sup = s.sup := by
  simp [monitorSet]
@[simp] theorem monitorSet_cycle (s : State) (m : Nat) : (s.monitorSet m).cycle = s.cycle := by
  simp [monitorSet]
@[simp] theorem monitorSet_notices (s : State) (m : Nat) : (s.monitorSet m).notices = .powerWarning m :: s.notices := by
  simp [monitorSet, notify]

theorem exec_supplyMonitorAssert {s : State} {m : Nat} (hm : m < 3) (hClear : s.flag (monitorFld m) = false) :
    exec (.supplyMonitorAssert m) s = .next (s.monitorSet m).refuseStarts :=
  congrArg Host.Outcome.next (if_pos ⟨hm, by simp [hClear]⟩)

theorem exec_supplyMonitorAssert_again {s : State} {m : Nat} (hSet : s.flag (monitorFld m) = true) :
    exec (.supplyMonitorAssert m) s = .next s :=
  congrArg Host.Outcome.next (if_neg (by simp [hSet]))

/-- The monitors are bits 0 to 2 of PWR_STAT. -/
theorem monitorFld_bits (m : Nat) :
    (monitorFld m).reg = Reg.PWR_STAT ∧ (monitorFld m).lo < 3 ∧ (monitorFld m).width = 1 := by
  match m with
  | 0 => decide
  | 1 => decide
  | n + 2 => exact ⟨rfl, (by decide : 2 < 3), rfl⟩

theorem apart_monitorFld (m : Nat) {f : Fld} (h : 3 ≤ f.lo) : f.apart (monitorFld m) := by
  obtain ⟨-, hLo, hWidth⟩ := monitorFld_bits m
  exact .inr (.inr (by omega))

theorem monitorFld_apart (m : Nat) {f : Fld} (h : 3 ≤ f.lo) : (monitorFld m).apart f := by
  obtain ⟨-, hLo, hWidth⟩ := monitorFld_bits m
  exact .inr (.inl (by omega))

theorem monitorSet_spec (s : State) (m : Nat) :
    (s.monitorSet m).flag (monitorFld m) = true ∧ (s.monitorSet m).nvBlocked = true ∧
    (s.monitorSet m).flag Fld.PWR_STAT_WARN = true ∧
    (s.monitorSet m).fld Fld.PWR_STAT_WARN_CNT = min 255 (s.fld Fld.PWR_STAT_WARN_CNT + 1) := by
  obtain ⟨-, hLo, hWidth⟩ := monitorFld_bits m
  unfold nvBlocked monitorSet
  refine ⟨?monitor, ?block, ?warn, ?count⟩
  case monitor =>
    rw [flag_notify, flag_count_apart _ _ (apart_monitorFld m (by decide)),
      flag_setFlag_apart _ _ (apart_monitorFld m (by decide)), flag_setFlag_apart _ _ (apart_monitorFld m (by decide)),
      flag_setFlag_same _ _ _ (by omega) hWidth]
  case block =>
    rw [flag_notify, flag_count_apart _ _ (.inr (by decide)), flag_setFlag_apart _ _ (.inr (by decide)),
      flag_setFlag_same _ _ _ (by decide) rfl]
  case warn =>
    rw [flag_notify, flag_count_apart _ _ (.inr (by decide)), flag_setFlag_same _ _ _ (by decide) rfl]
  case count =>
    rw [fld_notify, fld_count_same _ _ _ (by decide), fld_setFlag_apart _ _ (.inr (by decide)),
      fld_setFlag_apart _ _ (.inr (by decide)), fld_setFlag_apart _ _ (monitorFld_apart m (by decide))]
    rfl

/-- The refusal of a start reaches NV_RES alone among the registers, and notifies no one. -/
theorem refuseStarts_frame (s : State) :
    (∀ a, a ≠ Reg.NV_RES → s.refuseStarts.reg a = s.reg a) ∧ s.refuseStarts.notices = s.notices := by
  have hSup : (∀ a, a ≠ Reg.NV_RES → (if s.sup.started = some s.cycle then s.supLow else s).reg a = s.reg a) ∧
      (if s.sup.started = some s.cycle then s.supLow else s).notices = s.notices := by
    split <;> exact ⟨fun _ _ => rfl, rfl⟩
  unfold refuseStarts
  dsimp only
  generalize (if s.sup.started = some s.cycle then s.supLow else s) = s1 at hSup ⊢
  obtain ⟨hReg, hNotices⟩ := hSup
  split
  · split
    · exact ⟨fun a h => (reg_nvEnd_ne _ _ h).trans (hReg a h), hNotices⟩
    · exact ⟨hReg, hNotices⟩
  · exact ⟨hReg, hNotices⟩

/-- BLOCK ends a command that would start in its cycle. -/
theorem refuseStarts_ends {s : State} {j : NvJob} (hNv : s.nv = some j) (hOp : j.op ≠ 1) (hStarted : j.started = s.cycle)
    (hSup : s.sup.started = none) : s.refuseStarts = s.nvLow j := by
  simp [refuseStarts, hNv, hOp, hStarted, hSup]

theorem nvLow_answers (s : State) (j : NvJob) : (s.nvLow j).NvAnswer 9 true := nvEnd_answers _ (by decide)

/-- R511: an assertion is noted and notified, and BLOCK ends a command of its cycle. -/
theorem monitorAssert_spec {s : State} {m : Nat} (hm : m < 3) (hClear : s.flag (monitorFld m) = false) :
    ∃ t, exec (.supplyMonitorAssert m) s = .next t ∧ t.flag (monitorFld m) = true ∧ t.nvBlocked = true ∧
      t.flag Fld.PWR_STAT_WARN = true ∧ t.fld Fld.PWR_STAT_WARN_CNT = min 255 (s.fld Fld.PWR_STAT_WARN_CNT + 1) ∧
      t.notices = .powerWarning m :: s.notices ∧
      ∀ j, s.nv = some j → j.op ≠ 1 → j.started = s.cycle → s.sup.started = none → t.nv = none ∧ t.NvAnswer 9 true := by
  obtain ⟨hMonitor, hBlock, hWarn, hCount⟩ := monitorSet_spec s m
  obtain ⟨hReg, hNotices⟩ := refuseStarts_frame (s.monitorSet m)
  have hPwr := hReg Reg.PWR_STAT (by decide)
  refine ⟨_, exec_supplyMonitorAssert hm hClear, (flag_of_reg ?_).trans hMonitor, (nvBlocked_of_reg hPwr).trans hBlock,
    (flag_of_reg hPwr).trans hWarn, (fld_of_reg hPwr).trans hCount, hNotices.trans (monitorSet_notices s m),
    fun j hNv hOp hStarted hSup => ?_⟩
  · rw [(monitorFld_bits m).1, hPwr]
  · rw [refuseStarts_ends (j := j) ((monitorSet_nv s m).trans hNv) hOp (hStarted.trans (monitorSet_cycle s m).symm)
      ((congrArg SupRows.started (monitorSet_sup s m)).trans hSup)]
    exact ⟨nvEnd_nv _ _, nvLow_answers _ j⟩

/-- What the common release clears, before the starts that BLOCK has refused in its cycle. -/
def monitorsReleased (s : State) : State :=
  (((s.setFlag Fld.PWR_STAT_CORE_LOW false).setFlag Fld.PWR_STAT_IO_LOW false).setFlag Fld.PWR_STAT_NV_LOW false).setFlag
    Fld.PWR_STAT_BLOCK false

theorem monitorsReleased_spec (s : State) :
    s.monitorsReleased.nvBlocked = false ∧ ∀ m, m < 3 → s.monitorsReleased.flag (monitorFld m) = false := by
  unfold nvBlocked monitorsReleased
  refine ⟨flag_setFlag_same _ _ _ (by decide) rfl, fun m hm => ?_⟩
  rw [flag_setFlag_apart _ _ (apart_monitorFld m (by decide))]
  match m, hm with
  | 0, _ =>
    rw [flag_setFlag_apart _ _ (.inr (by decide)), flag_setFlag_apart _ _ (.inr (by decide))]
    exact flag_setFlag_same _ _ _ (by decide) rfl
  | 1, _ =>
    rw [flag_setFlag_apart _ _ (.inr (by decide))]
    exact flag_setFlag_same _ _ _ (by decide) rfl
  | 2, _ => exact flag_setFlag_same _ _ _ (by decide) rfl

@[simp] theorem setFlag_lowv (s : State) (f : Fld) (b : Bool) : (s.setFlag f b).now.lowv = s.now.lowv := rfl
@[simp] theorem setFlag_lowvRows (s : State) (f : Fld) (b : Bool) : (s.setFlag f b).now.lowvRows = s.now.lowvRows := rfl

/-- The supervisor's rows that BLOCK has refused are offered again. -/
def offerRefused (s : State) : State := { s with sup := { s.sup with rows := s.sup.rows ++ s.now.lowvRows } }

/-- No start is refused in this cycle any more. -/
def forgetRefused (s : State) : State := { s with now := { s.now with lowv := none, lowvRows := [] } }

@[simp] theorem reg_offerRefused (s : State) (a : Nat) : s.offerRefused.reg a = s.reg a := rfl
@[simp] theorem reg_forgetRefused (s : State) (a : Nat) : s.forgetRefused.reg a = s.reg a := rfl

@[simp] theorem nv_forgetRefused (s : State) : s.forgetRefused.nv = s.nv := rfl
@[simp] theorem sup_forgetRefused (s : State) : s.forgetRefused.sup = s.sup := rfl
@[simp] theorem cycle_forgetRefused (s : State) : s.forgetRefused.cycle = s.cycle := rfl
@[simp] theorem cycle_offerRefused (s : State) : s.offerRefused.cycle = s.cycle := rfl
@[simp] theorem nvBlocked_forgetRefused (s : State) : s.forgetRefused.nvBlocked = s.nvBlocked := rfl
@[simp] theorem nvBlocked_offerRefused (s : State) : s.offerRefused.nvBlocked = s.nvBlocked := rfl

theorem startsAgain_none {s : State} (h : s.now.lowv = none) :
    s.startsAgain = s.offerRefused.forgetRefused.startRow := by
  simp only [startsAgain, offerRefused, forgetRefused, h]

/-- A new command is taken up. -/
theorem startsAgain_new {s : State} {j : NvJob} (h : s.now.lowv = some (j, true)) :
    s.startsAgain =
      (s.offerRefused.nvStart { j with waits := j.writesRows, started := s.cycle }).forgetRefused.startRow := by
  simp only [startsAgain, offerRefused, forgetRefused, h, if_true]

/-- A command that was in progress goes on. -/
theorem startsAgain_old {s : State} {j : NvJob} (h : s.now.lowv = some (j, false)) :
    s.startsAgain = ({ s.offerRefused with nv := some { j with waits := j.writesRows, started := s.cycle } }.nvResult
      Code.pending false).forgetRefused.startRow := by
  simp only [startsAgain, offerRefused, forgetRefused, h, Bool.false_eq_true, if_false]

/-- The starts after a release leave the registers outside NV_RES and NV_PROG. -/
theorem reg_startsAgain_ne (s : State) {a : Nat} (hRes : a ≠ Reg.NV_RES) (hProg : a ≠ Reg.NV_PROG) :
    s.startsAgain.reg a = s.reg a := by
  rcases hLow : s.now.lowv with - | ⟨j, - | -⟩
  · rw [startsAgain_none hLow, (startRow_frame _).2 hRes, reg_forgetRefused, reg_offerRefused]
  · rw [startsAgain_old hLow, (startRow_frame _).2 hRes, reg_forgetRefused, reg_nvResult_ne _ _ _ hRes]
    rfl
  · rw [startsAgain_new hLow, (startRow_frame _).2 hRes, reg_forgetRefused, nvStart, reg_setReg_ne _ _ hProg,
      reg_nvResult_ne _ _ _ hRes]
    rfl

/-- A WRITE that BLOCK has refused in this cycle starts (R519). -/
theorem startsAgain_write {s : State} {j : NvJob} (hBlock : s.nvBlocked = false) (hLow : s.now.lowv = some (j, true))
    (hOp : j.op = 2) (hSup : s.sup = {}) (hRows : s.now.lowvRows = []) :
    s.startsAgain.NvAnswer 1 false ∧ s.startsAgain.nv = some { j with waits := false, started := s.cycle } := by
  have hWrites : j.writesRows = true := by simp [NvJob.writesRows, hOp]
  have hOffer : s.offerRefused.sup = {} := by simp [offerRefused, hSup, hRows]
  rw [startsAgain_new hLow, startRow_command (j := { j with waits := j.writesRows, started := s.cycle })
    (by simpa using hBlock) (by simpa using hOffer) (by simp) hWrites hWrites]
  exact ⟨nvStart_answers s.offerRefused _, by simp⟩

theorem blockRelease_spec (s : State) :
    ∃ t, exec .blockRelease s = .next t ∧ t.nvBlocked = false ∧ (∀ m, m < 3 → t.flag (monitorFld m) = false) ∧
      ∀ j, s.now.lowv = some (j, true) → j.op = 2 → s.sup = {} → s.now.lowvRows = [] →
        t.NvAnswer 1 false ∧ ∃ k, t.nv = some k ∧ k.addr = j.addr ∧ k.data = j.data ∧ k.waits = false ∧
          k.started = s.cycle := by
  obtain ⟨hBlock, hMonitors⟩ := monitorsReleased_spec s
  have hPwr := reg_startsAgain_ne s.monitorsReleased (a := Reg.PWR_STAT) (by decide) (by decide)
  refine ⟨s.monitorsReleased.startsAgain, rfl, (nvBlocked_of_reg hPwr).trans hBlock,
    fun m hm => (flag_of_reg ?_).trans (hMonitors m hm), fun j hLow hOp hSup hRows => ?_⟩
  · rw [(monitorFld_bits m).1, hPwr]
  · obtain ⟨hAns, hNv⟩ := startsAgain_write (j := j) hBlock (by simpa [monitorsReleased] using hLow) hOp
      (by simpa [monitorsReleased] using hSup) (by simpa [monitorsReleased] using hRows)
    exact ⟨hAns, _, hNv, rfl, rfl, rfl, by simp [monitorsReleased]⟩

theorem vmonUpdate_spec (s : State) (core sram nv io : BitVec 12) :
    ∃ t, exec (.vmonUpdate core sram nv io) s = .next t ∧ t.fld Fld.PWR_VMON0_CORE = core.toNat ∧
      t.fld Fld.PWR_VMON0_SRAM = sram.toNat ∧ t.fld Fld.PWR_VMON1_NV = nv.toNat ∧ t.fld Fld.PWR_VMON1_IO = io.toNat := by
  have hSet (u : State) (f : Fld) (v : BitVec 12) (hw : f.width = 12) (h : f.lo + f.width ≤ 32) :
      (u.setFld f v.toNat).fld f = v.toNat := by
    rw [fld_setFld_same _ _ _ h, hw]
    exact Nat.mod_eq_of_lt v.isLt
  refine ⟨_, rfl, ?_, ?_, ?_, hSet _ _ _ rfl (by decide)⟩
  · rw [fld_setFld_apart _ _ (.inl (by decide)), fld_setFld_apart _ _ (.inl (by decide)),
      fld_setFld_apart _ _ (.inr (by decide)), hSet _ _ _ rfl (by decide)]
  · rw [fld_setFld_apart _ _ (.inl (by decide)), fld_setFld_apart _ _ (.inl (by decide)), hSet _ _ _ rfl (by decide)]
  · rw [fld_setFld_apart _ _ (.inr (by decide)), hSet _ _ _ rfl (by decide)]

/-! ### The end of a READ (R514) -/

/-- Words written to registers in a row: each reads back. -/
theorem reg_foldl_setReg (s : State) {a : Nat → Nat} (ha : a.Injective) (f : Nat → Word) {k n : Nat} (h : k < n) :
    ((List.range n).foldl (fun s i => s.setReg (a i) (f i)) s).reg (a k) = f k := by
  induction n with
  | zero => omega
  | succ n ih =>
    rw [List.range_succ, List.foldl_append, List.foldl_cons, List.foldl_nil]
    by_cases hk : k = n
    · rw [hk, reg_setReg_same]
    · rw [reg_setReg_ne _ _ (ha.ne hk), ih (by omega)]

theorem mram_foldl_setReg (s : State) (a : Nat → Nat) (f : Nat → Word) (is : List Nat) :
    (is.foldl (fun s i => s.setReg (a i) (f i)) s).mram = s.mram := by
  induction is generalizing s with
  | nil => rfl
  | cons i is ih => exact ih _

theorem foldl_range_four {α : Type} (f : α → Nat → α) (x : α) :
    (List.range 4).foldl f x = f (f (f (f x 0) 1) 2) 3 := rfl

/-- A byte of the word that four bytes make, the first the lowest. -/
theorem byte_of_word (b : Nat → Byte) {m : Nat} (h : m < 4) :
    (BitVec.ofNat 32 ((List.range 4).foldl (fun v j => v + (b j).toNat * 256 ^ j) 0)).extractLsb' (8 * m) 8 = b m := by
  have h0 := (b 0).isLt
  have h1 := (b 1).isLt
  have h2 := (b 2).isLt
  have h3 := (b 3).isLt
  apply BitVec.eq_of_toNat_eq
  rw [foldl_range_four, BitVec.extractLsb'_toNat, BitVec.toNat_ofNat, Nat.shiftRight_eq_div_pow]
  interval_cases m <;> norm_num only <;> omega

/-- 64 bytes loaded into NV_DATA0–15 are what it holds. -/
theorem nvData_loadNvData (s : State) {bs : List Byte} (h : bs.length = 64) : (s.loadNvData bs).nvData = bs := by
  have hInj : Function.Injective Reg.NV_DATA := fun i k hik => by simp only [Reg.NV_DATA] at hik; omega
  apply List.ext_getElem (by simp [nvData, h])
  intro i _ hi
  simp only [nvData, List.getElem_map, List.getElem_range, loadNvData]
  rw [reg_foldl_setReg s hInj _ (by omega),
    byte_of_word (fun j => (bs[4 * (i / 4) + j]?).getD 0) (Nat.mod_lt i (by decide)), Nat.div_add_mod,
    List.getElem?_eq_getElem hi, Option.getD_some]

theorem nvData_nvEnd (s : State) (code : Nat) : (s.nvEnd code).nvData = s.nvData := by
  unfold nvData
  refine List.map_congr_left fun i _ => ?_
  rw [reg_nvEnd_ne _ _ (by simp only [Reg.NV_DATA, Reg.NV_RES]; omega)]

theorem loadNvData_mram (s : State) (bs : List Byte) : (s.loadNvData bs).mram = s.mram :=
  mram_foldl_setReg s Reg.NV_DATA _ _

/-- A READ without errors ends with its row in NV_DATA0–15. -/
theorem endNvRead_clean {s : State} {j : NvJob} (hNv : s.nv = some j) (hOp : j.op = 1) (hErrs : j.errs = [])
    (hDue : j.started + 80 ≤ s.cycle) : s.endNvRead = (s.loadNvData (s.mram.readBytes j.addr 64)).nvEnd Code.ok := by
  simp [endNvRead, hNv, hOp, hErrs, Nat.not_lt.mpr hDue, List.zipIdx_map_fst]

theorem endNvRead_spec {s : State} {j : NvJob} (hNv : s.nv = some j) (hOp : j.op = 1) (hErrs : j.errs = [])
    (hDue : j.started + 80 ≤ s.cycle) : s.endNvRead.nvData = s.mram.readBytes j.addr 64 ∧ s.endNvRead.nv = none ∧
      s.endNvRead.NvAnswer 0 true ∧ s.endNvRead.mram = s.mram := by
  rw [endNvRead_clean hNv hOp hErrs hDue]
  exact ⟨(nvData_nvEnd _ _).trans (nvData_loadNvData s (Mem.length_readBytes _ _ _)), nvEnd_nv _ _,
    nvEnd_answers _ (by decide), (nvEnd_mram _ _).trans (loadNvData_mram _ _)⟩

/-! ### The end of a row (R514, R518) -/

theorem exec_rowWriteDone_sup {s : State} {t0 : Nat} (hRun : s.inReset = false) (hSup : s.sup.started = some t0)
    (hDue : t0 + 960 ≤ s.cycle) : exec .rowWriteDone s = .next s.endSupRow.startRow := by
  change execRowWriteDone s = _
  simp only [execRowWriteDone, live_of_running hRun, hSup, Nat.not_lt.mpr hDue, if_false]

theorem exec_rowWriteDone_command {s : State} {j : NvJob} (hRun : s.inReset = false) (hSup : s.sup.started = none)
    (hNv : s.nv = some j) (hRows : j.writesRows = true) (hWaits : j.waits = false) (hDue : j.started + 960 ≤ s.cycle) :
    exec .rowWriteDone s = .next (s.endNvRow j).startRow := by
  change execRowWriteDone s = _
  simp [execRowWriteDone, live_of_running hRun, hSup, hNv, hRows, hWaits, Nat.not_lt.mpr hDue]

/-- The supervisor's only row. -/
theorem endSupRow_single {s : State} {r : SupRow} {t0 : Nat} (hSup : s.sup = { rows := [r], started := some t0 })
    (hGen : r.gen = none) : s.endSupRow = { s with mram := s.mram.writeBytes r.addr r.data, sup := {} } := by
  simp [endSupRow, writeRow, hSup, hGen]

theorem rowWriteDone_sup {s : State} {r : SupRow} {t0 : Nat} (hRun : s.inReset = false)
    (hSup : s.sup = { rows := [r], started := some t0 }) (hDue : t0 + 960 ≤ s.cycle) (hGen : r.gen = none)
    (hLen : r.data.length = 64) :
    ∃ t, exec .rowWriteDone s = .next t ∧ t.mram.readBytes r.addr 64 = r.data ∧ t.sup = {} ∧
      ∀ j, s.nv = some j → j.op = 2 → j.waits = true → s.nvBlocked = false →
        t.nv = some { j with waits := false, started := s.cycle } := by
  have hExec := exec_rowWriteDone_sup hRun (congrArg SupRows.started hSup) hDue
  rw [endSupRow_single hSup hGen] at hExec
  refine ⟨_, hExec, ?_, startRow_sup_empty rfl, fun j hNv hOp hWaits hBlock => ?_⟩
  · rw [startRow_mram]
    exact Mem.readBytes_writeRow s.mram r.addr hLen
  · rw [startRow_command (s := { s with mram := s.mram.writeBytes r.addr r.data, sup := {} }) hBlock rfl hNv
      (by simp [NvJob.writesRows, hOp]) hWaits]

/-- The last row of a command ends it. -/
theorem rowWriteDone_last {s : State} {j : NvJob} (hRun : s.inReset = false) (hNv : s.nv = some j)
    (hSup : s.sup.started = none) (hWaits : j.waits = false) (hDue : j.started + 960 ≤ s.cycle) (hOp : j.op = 2)
    (hRows : j.rows = 1) (hLen : j.data.length = 64) :
    ∃ t, exec .rowWriteDone s = .next t ∧ t.mram.readBytes j.addr 64 = j.data ∧ t.nv = none ∧ t.NvAnswer 0 true := by
  have hExec := exec_rowWriteDone_command hRun hSup hNv (by simp [NvJob.writesRows, hOp]) hWaits hDue
  rw [endNvRow, if_pos hRows.le, nvRow, if_pos hOp] at hExec
  obtain ⟨hNone, hReg⟩ := startRow_no_command (s := nvEnd _ Code.ok) (nvEnd_nv _ _)
  refine ⟨_, hExec, ?_, hNone, (nvEnd_answers _ (by decide)).of_reg (hReg _)⟩
  rw [startRow_mram]
  exact Mem.readBytes_writeRow s.mram j.addr hLen

/-- A row that is not the command's last. -/
theorem endNvRow_next (s : State) {j : NvJob} (hRows : 1 < j.rows) :
    (s.endNvRow j).nv = some { j with addr := j.addr + 64, src := j.src + 64, rows := j.rows - 1, waits := true } ∧
      (s.endNvRow j).mram = s.mram.writeBytes j.addr (s.nvRow j) ∧ (s.endNvRow j).nvBlocked = s.nvBlocked := by
  rw [endNvRow, if_neg (Nat.not_le.mpr hRows)]
  exact ⟨rfl, rfl, nvBlocked_of_reg (reg_setReg_ne (s.writeRow j.addr (s.nvRow j)) _ (by decide))⟩

/-- A COPY goes on to its next row. -/
theorem rowWriteDone_next {s : State} {j : NvJob} (hRun : s.inReset = false) (hNv : s.nv = some j)
    (hSup : s.sup.started = none) (hWaits : j.waits = false) (hDue : j.started + 960 ≤ s.cycle) (hOp : j.op = 3)
    (hRows : 1 < j.rows) (hBlock : s.nvBlocked = false) :
    ∃ t k, exec .rowWriteDone s = .next t ∧ t.nv = some k ∧ k.rows = j.rows - 1 ∧ k.addr = j.addr + 64 ∧
      t.mram.readBytes j.addr 64 = s.bootMem.readBytes j.src 64 := by
  have hExec := exec_rowWriteDone_command hRun hSup hNv (by simp [NvJob.writesRows, hOp]) hWaits hDue
  have hCopy : s.nvRow j = s.bootMem.readBytes j.src 64 := if_neg (by omega)
  obtain ⟨hNext, hMram, hStill⟩ := endNvRow_next s hRows
  have hRead : (s.endNvRow j).startRow.mram.readBytes j.addr 64 = s.bootMem.readBytes j.src 64 := by
    rw [startRow_mram, hMram, hCopy]
    exact Mem.readBytes_writeRow s.mram j.addr (Mem.length_readBytes _ _ _)
  obtain ⟨sup, nv, hStart, hWhich⟩ := startRow_unblocked (hStill.trans hBlock)
  have hAfter : (s.endNvRow j).startRow.nv = nv := by rw [hStart]
  rcases hWhich with hSame | ⟨k, hk, hStarted⟩
  · exact ⟨_, _, hExec, hAfter.trans (hSame.trans hNext), rfl, rfl, hRead⟩
  · obtain rfl := Option.some.inj (hNext.symm.trans hk)
    exact ⟨_, _, hExec, hAfter.trans hStarted, rfl, rfl, hRead⟩

/-! ### The end of a program of the OTP array (R520) -/

theorem exec_otpProgramDone {s : State} {j : NvJob} (hRun : s.inReset = false) (hNv : s.nv = some j) (hOp : 4 ≤ j.op)
    (hDue : j.started + 160000 ≤ s.cycle) :
    exec .otpProgramDone s = .next ((
      if j.op = 4 then { s with keyHash := Store.set (fun _ => 0) s.keyHash j.addr j.hash }.setOtp j.addr
      else if j.op = 5 then s.setOtp (4 + j.addr)
      else s.setFld (floorFld j.addr) j.src).nvEnd Code.ok) := by
  change execOtpProgramDone s = _
  simp only [execOtpProgramDone, live_of_running hRun, hNv, Nat.not_lt.mpr hOp, Nat.not_lt.mpr hDue, or_self, if_false]

/-- A programmed bit stays set when the command ends. -/
theorem otpBit_nvEnd_setOtp (s : State) {i : Nat} (code : Nat) (h : i < 32) :
    (((s.setOtp i).nvEnd code).reg Reg.NV_OTP_STAT).getLsbD i = true := by
  rw [reg_nvEnd_ne _ _ (by decide), setOtp, reg_setReg_same]
  simp [h]

theorem floorFld_bits (k : Nat) :
    (floorFld k).reg = Reg.NV_OTP_STAT ∧ (floorFld k).lo + (floorFld k).width ≤ 32 ∧ (floorFld k).width = 6 := by
  match k with
  | 0 => decide
  | 1 => decide
  | n + 2 => exact ⟨rfl, (by decide : 24 + 6 ≤ 32), rfl⟩

theorem otpProgramDone_spec {s : State} {j : NvJob} (hRun : s.inReset = false) (hNv : s.nv = some j)
    (hDue : j.started + 160000 ≤ s.cycle) :
    (j.op = 4 → j.addr < 4 → ∃ t, exec .otpProgramDone s = .next t ∧ t.slotValid j.addr = true ∧
      (0 < j.addr → t.slotHash j.addr = j.hash) ∧ t.NvAnswer 0 true) ∧
    (j.op = 5 → j.addr < 4 → ∃ t, exec .otpProgramDone s = .next t ∧ t.slotRevoked j.addr = true ∧ t.NvAnswer 0 true) ∧
    (j.op = 6 → j.src < 64 → ∃ t, exec .otpProgramDone s = .next t ∧ t.fld (floorFld j.addr) = j.src ∧
      t.NvAnswer 0 true) := by
  refine ⟨fun hOp hSlot => ⟨_, exec_otpProgramDone hRun hNv (by omega) hDue, ?_, ?_, nvEnd_answers _ (by decide)⟩,
    fun hOp hSlot => ⟨_, exec_otpProgramDone hRun hNv (by omega) hDue, ?_, nvEnd_answers _ (by decide)⟩,
    fun hOp hSrc => ⟨_, exec_otpProgramDone hRun hNv (by omega) hDue, ?_, nvEnd_answers _ (by decide)⟩⟩
  · rw [if_pos hOp]
    exact otpBit_nvEnd_setOtp _ _ (by omega)
  · intro hPos
    rw [if_pos hOp, slotHash, if_neg hPos.ne']
    exact Store.get_set_same _ _ _
  · rw [if_neg (by omega), if_pos hOp]
    exact otpBit_nvEnd_setOtp _ _ (by omega)
  · obtain ⟨hReg, hFits, hWidth⟩ := floorFld_bits j.addr
    rw [if_neg (by omega), if_neg (by omega), fld_of_reg (reg_nvEnd_ne _ _ (by rw [hReg]; decide)),
      fld_setFld_same _ _ _ hFits, hWidth]
    exact Nat.mod_eq_of_lt hSrc

end State
end Sys2Proof.Machine

open Sys2Proof Sys2Proof.Machine Sys2Proof.Machine.State

/-- Settles O35. The edges of BLOCK and the completions each have a lemma; a command's lemmas say that its one condition
list (R18) gives OK or the code refused with. -/
theorem powerAndNonVolatile : Obligations.PowerAndNonVolatile := by
  intro s who m rows core sram nv io hRun result starts refused
  refine ⟨monitorAssert_spec, fun _ => exec_supplyMonitorAssert_again, blockRelease_spec s,
    vmonUpdate_spec s core sram nv io, fun j => endNvRead_spec, ?lost, ?commands,
    fun r t0 => rowWriteDone_sup hRun, ?rowDone, fun j => otpProgramDone_spec hRun⟩
  case lost =>
    exact fun hAsks hBusy => ⟨_, nvWrite_lost hAsks hBusy, rfl, rfl, flag_setFlag_same _ _ _ (by decide) rfl⟩
  case commands =>
    intro hAsks hDone hTook
    exact ⟨nvRead_starts hAsks hDone hTook, row_unaligned hAsks hDone hTook rows, nvWrite_spec hAsks hDone hTook,
      nvCopy_starts hAsks hDone hTook,
      fun hMode hBlock hSlot =>
        have ⟨hBlank, hProgrammed⟩ := otpKey_spec hAsks hDone hTook hMode hBlock hSlot
        ⟨hBlank, hProgrammed, otpRevoke_starts hAsks hDone hTook hMode hBlock hSlot⟩,
      otpFloor_spec hAsks hDone hTook⟩
  case rowDone =>
    exact fun j hNv hSup hWaits hDue =>
      ⟨rowWriteDone_last hRun hNv hSup hWaits hDue, rowWriteDone_next hRun hNv hSup hWaits hDue⟩
end

section
/-!
SUPPORT. What an operation of the model may change: a list of parts of the block, with the canonical form of the memories.
-/

namespace Sys2Proof.Machine

/-- The parts of the block beside its variant, its queue of commands and its count of cycles. The SRAMs and the general
registers of the engines are parts of their own beside `engines`. -/
inductive Part where
  | now | free | regs | shadow | leases | porstLow | coreReset | modeCmd | bootSel | bootMem | syncs | merges | engines
  | sram | gregs | msixTab | msixPba | districts | ave | tb | red | xing | ports | txTurn | hostMem | cans | serials | mram
  | keyHash | nv | sup | pkg | jtag | img | hostReads | curve | srus | channels | island | latch | clockLost | nfn | notices
  | out
  deriving DecidableEq

/-- A part is the same in two states. -/
def Part.same (s t : State) : Part → Prop
  | .now => t.now = s.now
  | .free => t.free = s.free
  | .regs => t.regs = s.regs
  | .shadow => t.shadow = s.shadow
  | .leases => t.leases = s.leases
  | .porstLow => t.porstLow = s.porstLow
  | .coreReset => t.coreReset = s.coreReset
  | .modeCmd => t.modeCmd = s.modeCmd
  | .bootSel => t.bootSel = s.bootSel
  | .bootMem => t.bootMem = s.bootMem
  | .syncs => t.syncs = s.syncs
  | .merges => t.merges = s.merges
  | .engines => t.engines = s.engines
  | .sram => ∀ e, (t.eng e).data = (s.eng e).data ∧ (t.eng e).instr = (s.eng e).instr
  | .gregs => ∀ e, (t.eng e).g = (s.eng e).g
  | .msixTab => t.msixTab = s.msixTab
  | .msixPba => t.msixPba = s.msixPba
  | .districts => t.districts = s.districts
  | .ave => t.ave = s.ave
  | .tb => t.tb = s.tb
  | .red => t.red = s.red
  | .xing => t.xing = s.xing
  | .ports => t.ports = s.ports
  | .txTurn => t.txTurn = s.txTurn
  | .hostMem => t.hostMem = s.hostMem
  | .cans => t.cans = s.cans
  | .serials => t.serials = s.serials
  | .mram => t.mram = s.mram
  | .keyHash => t.keyHash = s.keyHash
  | .nv => t.nv = s.nv
  | .sup => t.sup = s.sup
  | .pkg => t.pkg = s.pkg
  | .jtag => t.jtag = s.jtag
  | .img => t.img = s.img
  | .hostReads => t.hostReads = s.hostReads
  | .curve => t.curve = s.curve
  | .srus => t.srus = s.srus
  | .channels => t.channels = s.channels
  | .island => t.island = s.island
  | .latch => t.latch = s.latch
  | .clockLost => t.clockLost = s.clockLost
  | .nfn => t.nfn = s.nfn
  | .notices => t.notices = s.notices
  | .out => t.out = s.out

theorem Part.same_refl (s : State) (p : Part) : p.same s s := by
  cases p <;> simp [Part.same]

theorem Part.same_trans {s t u : State} {p : Part} (h : p.same s t) (h' : p.same t u) : p.same s u := by
  cases p
  case sram => exact fun e => ⟨(h' e).1.trans (h e).1, (h' e).2.trans (h e).2⟩
  case gregs => exact fun e => (h' e).trans (h e)
  all_goals exact Eq.trans h' h

/-- `t` comes from `s` by changes within the parts listed: the memories keep their canonical form, and the variant, the
queue and the count of cycles stay. -/
structure Keeps (F : List Part) (s t : State) : Prop where
  form : s.memWf → t.memWf
  variant : t.variant = s.variant
  pending : t.pending = s.pending
  cycle : t.cycle = s.cycle
  frame : ∀ p, F.contains p = false → p.same s t

/-- Every part of one list stands in another. -/
def Part.within (G F : List Part) : Bool := G.all F.contains
end Sys2Proof.Machine
end
section
/-!
SUPPORT. `Keeps` composes, and the operations that write one part of the state keep the others.
-/

namespace Sys2Proof.Machine

theorem Part.contains_of_within {F G : List Part} {p : Part} (h : Part.within G F = true) (hp : F.contains p = false) :
    G.contains p = false := by
  rw [Bool.eq_false_iff] at hp ⊢
  intro hG
  rw [within, List.all_eq_true] at h
  exact hp (h p (by simpa using hG))

namespace Keeps

variable {F G : List Part} {r s t : State}

theorem refl : Keeps F s s := ⟨id, rfl, rfl, rfl, fun p _ => p.same_refl s⟩

/-- What changes parts of a list goes on from what changes parts of a longer one. -/
theorem andThen (h : Keeps F r s) (hF : Part.within G F = true) (h' : Keeps G s t) : Keeps F r t :=
  ⟨h'.form ∘ h.form, h'.variant.trans h.variant, h'.pending.trans h.pending, h'.cycle.trans h.cycle,
    fun p hp => Part.same_trans (h.frame p hp) (h'.frame p (Part.contains_of_within hF hp))⟩

/-- A state that is named on the way. -/
theorem bind (ht : Keeps F r s → Keeps F r t) (h : Keeps F r s) : Keeps F r t := ht h

theorem ite {c : Prop} [Decidable c] (hs : Keeps F r s) (ht : Keeps F r t) : Keeps F r (if c then s else t) := by
  split
  · exact hs
  · exact ht

theorem foldl {α : Type} {f : State → α → State} {l : List α} (h : Keeps F r s)
    (hf : ∀ s a, Keeps F r s → Keeps F r (f s a)) : Keeps F r (l.foldl f s) := by
  induction l generalizing s with
  | nil => exact h
  | cons a l ih => exact ih (hf s a h)

theorem getD {o : Option State} (ho : ∀ t, o = some t → Keeps F r t) (h : Keeps F r s) : Keeps F r (o.getD s) := by
  cases o with
  | none => exact h
  | some t => exact ho t rfl

/-- An answer, where it is a next state. -/
theorem after {a : Answer} (ha : ∀ t, a = .next t → Keeps F r t) (h : Keeps F r s) :
    Keeps F r (Machine.after a s) := by
  cases a with
  | next t => exact ha t rfl
  | _ => exact h

end Keeps
end Sys2Proof.Machine
end
section
/-!
SUPPORT. What the island decides in its cycle leaves its memories, its MRAM and the staged set, as they were.
-/

namespace Sys2Proof.Machine.Island

/-- The island's memories are these two. -/
structure Mems (m n : Mem) (i : Island) : Prop where
  mram : i.mram = m
  staging : i.staging = n

namespace Mems

variable {m n : Mem} {i j : Island}

theorem self : i.Mems i.mram i.staging := ⟨rfl, rfl⟩

theorem ite {c : Prop} [Decidable c] (hi : i.Mems m n) (hj : j.Mems m n) : (if c then i else j).Mems m n := by
  split
  · exact hi
  · exact hj

theorem foldl {α : Type} {f : Island → α → Island} {l : List α} (h : i.Mems m n)
    (hf : ∀ j a, j.Mems m n → (f j a).Mems m n) : (l.foldl f i).Mems m n := by
  induction l generalizing i with
  | nil => exact h
  | cons a l ih => exact ih (hf i a h)

theorem record {code detail : Nat} (h : i.Mems m n) : (i.record code detail).Mems m n := ⟨h.mram, h.staging⟩

theorem setAxis {k : Nat} {x : Axis} (h : i.Mems m n) : (i.setAxis k x).Mems m n := ⟨h.mram, h.staging⟩

theorem setConn {c : Nat} {x : Conn} (h : i.Mems m n) : (i.setConn c x).Mems m n := ⟨h.mram, h.staging⟩

theorem setInput {k : Nat} {x : SafeIn} (h : i.Mems m n) : (i.setInput k x).Mems m n := ⟨h.mram, h.staging⟩

theorem allOff (h : i.Mems m n) : i.allOff.Mems m n := .foldl h fun _ _ h => .setAxis h

theorem toStopped {fresh : Bool} (h : i.Mems m n) : (i.toStopped fresh).Mems m n :=
  have hOff := h.allOff
  ⟨hOff.mram, hOff.staging⟩

theorem executedStop (h : i.Mems m n) : i.executedStop.Mems m n :=
  have hStopped := h.toStopped (fresh := false)
  ⟨hStopped.mram, hStopped.staging⟩

theorem toNoConfig (h : i.Mems m n) : i.toNoConfig.Mems m n := by
  have hOff : (if i.sealFault then i.record 0x10 0 else i).allOff.Mems m n := .allOff (.ite (.record h) h)
  exact ⟨hOff.mram, hOff.staging⟩

theorem loseAll (h : i.Mems m n) : i.loseAll.Mems m n := .ite ⟨h.mram, h.staging⟩ ⟨h.mram, h.staging⟩

theorem compareSpeeds (h : i.Mems m n) : i.compareSpeeds.Mems m n := by
  refine .foldl h fun i k h => .ite (.ite ?_ (.setAxis h)) h
  split
  · exact .setAxis h
  · exact .ite (.record (.setAxis h)) (.setAxis h)

theorem recordEncoders (h : i.Mems m n) : i.recordEncoders.Mems m n := .foldl h fun _ _ h => .ite (.record h) h

theorem noConfigStep (h : i.Mems m n) : i.noConfigStep.Mems m n :=
  .ite (.record h) (.ite (.record h) (.ite h (.toStopped ⟨h.mram, h.staging⟩)))

theorem stoppedStep {ack : Bool} (h : i.Mems m n) : (i.stoppedStep ack).Mems m n := by
  unfold Island.stoppedStep
  have hAcked {c : Prop} [Decidable c] : (if c then { i with acked := true } else i).Mems m n :=
    .ite ⟨h.mram, h.staging⟩ h
  exact .ite (.toNoConfig h) (.ite ⟨hAcked.mram, hAcked.staging⟩ hAcked)

theorem readyStep (h : i.Mems m n) : i.readyStep.Mems m n :=
  .ite (.toNoConfig h) (.ite (.toStopped h)
    (.ite (.foldl ⟨h.mram, h.staging⟩ fun _ _ h => .ite (.setAxis h) h) h))

theorem stopAxis {k : Nat} (h : i.Mems m n) : (i.stopAxis k).Mems m n := by
  refine .ite h (.ite (.record (.setAxis h)) (.ite (.record (.setAxis h)) ?_))
  split
  · exact .record (.setAxis h)
  · exact .ite (.setAxis h) (.setAxis h)

theorem stoppingStep (h : i.Mems m n) : i.stoppingStep.Mems m n := by
  unfold Island.stoppingStep
  have hReseal {c : Prop} [Decidable c] : (if c then { i with reseal := true } else i).Mems m n :=
    .ite ⟨h.mram, h.staging⟩ h
  have hStop {j : Island} (hj : j.Mems m n) :
      (if j.hardDemand then j.allOff else (List.range 4).foldl Island.stopAxis j).Mems m n :=
    .ite hj.allOff (.foldl hj fun _ _ h => h.stopAxis)
  have hSealed := (hStop (hReseal (c := i.sealChange))).toNoConfig
  exact .ite (.ite ⟨hSealed.mram, hSealed.staging⟩ (hStop hReseal).executedStop) (hStop hReseal)

theorem releasedStep (h : i.Mems m n) : i.releasedStep.Mems m n := by
  refine .ite (.executedStop h) (.ite (.stoppingStep (.foldl ⟨h.mram, h.staging⟩ fun i k h => ?_)) h)
  split
  · exact .record (.setAxis h)
  · exact .ite (.setAxis h) h

/-- The step of the state that the island is in. -/
theorem stateStep {ack : Bool} (h : i.Mems m n) : (if i.state = 1 then i.noConfigStep
    else if i.state = 2 then i.stoppedStep ack else if i.state = 3 then i.readyStep
    else if i.state = 4 then i.releasedStep else if i.state = 5 then i.stoppingStep else i).Mems m n :=
  .ite h.noConfigStep (.ite h.stoppedStep (.ite h.readyStep (.ite h.releasedStep (.ite h.stoppingStep h))))

theorem evaluate (h : i.Mems m n) : i.evaluate.Mems m n := by
  unfold Island.evaluate
  have hSpeeds : ((List.range 8).foldl (fun i n => if inputKind i.set n = 3 ∧ (i.input n).opened then
      i.setInput n { i.input n with opened := false } else i) i).compareSpeeds.recordEncoders.Mems m n :=
    .recordEncoders (.compareSpeeds (.foldl h fun _ _ h => .ite (.setInput h) h))
  dsimp only
  generalize Island.recordEncoders _ = j at hSpeeds ⊢
  have hStep := hSpeeds.stateStep (ack := (List.range 8).any fun n => inputKind i.set n == 3 && (i.input n).opened)
  exact ⟨hStep.mram, hStep.staging⟩

theorem applyMsg {x : IslandMsg} (h : i.Mems m n) : (i.applyMsg x).Mems m n := by
  cases x with
  | mode x => exact ⟨h.mram, h.staging⟩
  | pdu c valid up speed sto => exact .ite (.setConn h) h

theorem applyInbox (h : i.Mems m n) : i.applyInbox.Mems m n := by
  have hInbox : (i.inbox.foldl Island.applyMsg i).Mems m n := .foldl h fun _ _ h => h.applyMsg
  exact ⟨hInbox.mram, hInbox.staging⟩

theorem driveAll (h : i.Mems m n) : i.driveAll.Mems m n := ⟨h.mram, h.staging⟩

theorem sampleInputs {a b : BitVec 8} (h : i.Mems m n) : (i.sampleInputs a b).Mems m n := by
  refine .ite h (.foldl h fun i k h => .ite h ?_)
  have hInput {z : SafeIn} {c : Prop} [Decidable c] {v : Nat} :
      (if c then { i.setInput k z with owed := v } else i.setInput k z).Mems m n :=
    .ite ⟨h.mram, h.staging⟩ (.setInput h)
  exact .ite ⟨hInput.mram, hInput.staging⟩ hInput

end Mems
end Sys2Proof.Machine.Island
end

section
/-!
SUPPORT. `Keeps` for the updates of one part of the state. An update of a memory has the canonical form as a side condition.
-/

namespace Sys2Proof.Machine

/-- A list of parts that stands in a list that stands in another. -/
theorem Part.sub {G G' F : List Part} (h : Part.within G F = true) (h' : Part.within G' G = true) :
    Part.within G' F = true := by
  rw [within, List.all_eq_true] at *
  exact fun p hp => h p (by simpa using h' p hp)

/-- The state that a load goes on with. -/
def Loaded.state : Loaded → State
  | .value _ s => s
  | .refused s => s
  | .later s => s

/-- The state that an element's read goes on with. -/
def Elem.state : Elem → State
  | .value _ s => s
  | .stop s => s

/-- Bytes written one by one at addresses that follow a rule. -/
theorem Mem.wf_foldl_write {α : Type} {at' : α → Nat} {b : α → Byte} {l : List α} {m : Mem} (h : m.wf) :
    (l.foldl (fun m x => m.write (at' x) (b x)) m).wf := by
  induction l generalizing m with
  | nil => exact h
  | cons x l ih => exact ih (Mem.wf_write _ _ h)

theorem State.memWf.eng {s : State} (h : s.memWf) (e : Nat) : (s.eng e).wf := by
  obtain ⟨-, hEng, -⟩ := h
  exact hEng e

theorem State.memWf.dist {s : State} (h : s.memWf) (d : Nat) : (s.dist d).sram.wf := by
  obtain ⟨-, -, hDist, -⟩ := h
  exact hDist d

theorem State.memWf.ser {s : State} (h : s.memWf) (n : Nat) : (s.ser n).tx.wf := by
  obtain ⟨-, -, -, hSer, -⟩ := h
  exact hSer n

namespace Keeps

variable {F : List Part} {r s t u : State}

theorem trans (h : Keeps F r s) (h' : Keeps F s t) : Keeps F r t :=
  ⟨h'.form ∘ h.form, h'.variant.trans h.variant, h'.pending.trans h.pending, h'.cycle.trans h.cycle,
    fun p hp => Part.same_trans (h.frame p hp) (h'.frame p hp)⟩

/-! ### The states of answers, options, pairs and loads -/

theorem ofNext (ht : (.next u : Answer) = .next t) (h : Keeps F r u) : Keeps F r t := by cases ht; exact h

theorem ofSome (ht : Option.some u = Option.some t) (h : Keeps F r u) : Keeps F r t := by cases ht; exact h

section
variable {α β : Type}

theorem ofSomePair {a : α} {p : α × State} (ht : Option.some (a, u) = Option.some p) (h : Keeps F r u) : Keeps F r p.2 := by
  cases ht; exact h

theorem ofSnd {p : α × State} {a : α} (h : Keeps F r p.2) (hp : p = (a, t)) : Keeps F r t := by rw [hp] at h; exact h

theorem ofFst {p : State × α} {a : α} (h : Keeps F r p.1) (hp : p = (t, a)) : Keeps F r t := by rw [hp] at h; exact h

theorem ofValue {l : Loaded} {v : Nat} (h : Keeps F r l.state) (hl : l = .value v t) : Keeps F r t := by
  rw [hl] at h; exact h

theorem ofRefused {l : Loaded} (h : Keeps F r l.state) (hl : l = .refused t) : Keeps F r t := by rw [hl] at h; exact h

theorem ofLater {l : Loaded} (h : Keeps F r l.state) (hl : l = .later t) : Keeps F r t := by rw [hl] at h; exact h

theorem ofElemValue {x : Elem} {v : Nat} (h : Keeps F r x.state) (hx : x = .value v t) : Keeps F r t := by
  rw [hx] at h; exact h

theorem ofElemStop {x : Elem} (h : Keeps F r x.state) (hx : x = .stop t) : Keeps F r t := by rw [hx] at h; exact h

theorem ite_snd {c : Prop} [Decidable c] {p q : α × State} (hp : Keeps F r p.2) (hq : Keeps F r q.2) :
    Keeps F r (if c then p else q).2 := by
  split
  · exact hp
  · exact hq

theorem ite_fst {c : Prop} [Decidable c] {p q : State × α} (hp : Keeps F r p.1) (hq : Keeps F r q.1) :
    Keeps F r (if c then p else q).1 := by
  split
  · exact hp
  · exact hq

theorem foldl_snd {f : α × State → β → α × State} {l : List β} {p : α × State} (h : Keeps F r p.2)
    (hf : ∀ p b, Keeps F r p.2 → Keeps F r (f p b).2) : Keeps F r (l.foldl f p).2 := by
  induction l generalizing p with
  | nil => exact h
  | cons b l ih => exact ih (hf p b h)

theorem foldl_fst {f : State × α → β → State × α} {l : List β} {p : State × α} (h : Keeps F r p.1)
    (hf : ∀ p b, Keeps F r p.1 → Keeps F r (f p b).1) : Keeps F r (l.foldl f p).1 := by
  induction l generalizing p with
  | nil => exact h
  | cons b l ih => exact ih (hf p b h)

end

/-! ### Updates of parts without a memory -/

theorem with_now {x : Now} (h : Keeps F r s)
    (hF : Part.within [.now] F) : Keeps F r { s with now := x } :=
  h.andThen hF ⟨id, rfl, rfl, rfl, fun p hp => by cases p <;> simp [Part.same, State.eng] at hp ⊢⟩

theorem with_free {x : Nat} (h : Keeps F r s)
    (hF : Part.within [.free] F) : Keeps F r { s with free := x } :=
  h.andThen hF ⟨id, rfl, rfl, rfl, fun p hp => by cases p <;> simp [Part.same, State.eng] at hp ⊢⟩

theorem with_out {x : List Out} (h : Keeps F r s)
    (hF : Part.within [.out] F) : Keeps F r { s with out := x } :=
  h.andThen hF ⟨id, rfl, rfl, rfl, fun p hp => by cases p <;> simp [Part.same, State.eng] at hp ⊢⟩

theorem with_notices {x : List Notice} (h : Keeps F r s)
    (hF : Part.within [.notices] F) : Keeps F r { s with notices := x } :=
  h.andThen hF ⟨id, rfl, rfl, rfl, fun p hp => by cases p <;> simp [Part.same, State.eng] at hp ⊢⟩

theorem with_syncs {x : Store Nat} (h : Keeps F r s)
    (hF : Part.within [.syncs] F) : Keeps F r { s with syncs := x } :=
  h.andThen hF ⟨id, rfl, rfl, rfl, fun p hp => by cases p <;> simp [Part.same, State.eng] at hp ⊢⟩

theorem with_merges {x : Store Nat} (h : Keeps F r s)
    (hF : Part.within [.merges] F) : Keeps F r { s with merges := x } :=
  h.andThen hF ⟨id, rfl, rfl, rfl, fun p hp => by cases p <;> simp [Part.same, State.eng] at hp ⊢⟩

theorem with_leases {x : List Lease} (h : Keeps F r s)
    (hF : Part.within [.leases] F) : Keeps F r { s with leases := x } :=
  h.andThen hF ⟨id, rfl, rfl, rfl, fun p hp => by cases p <;> simp [Part.same, State.eng] at hp ⊢⟩

theorem with_msixPba {x : Store Bool} (h : Keeps F r s)
    (hF : Part.within [.msixPba] F) : Keeps F r { s with msixPba := x } :=
  h.andThen hF ⟨id, rfl, rfl, rfl, fun p hp => by cases p <;> simp [Part.same, State.eng] at hp ⊢⟩

theorem with_ave {x : Avenue} (h : Keeps F r s)
    (hF : Part.within [.ave] F) : Keeps F r { s with ave := x } :=
  h.andThen hF ⟨id, rfl, rfl, rfl, fun p hp => by cases p <;> simp [Part.same, State.eng] at hp ⊢⟩

theorem with_srus {x : Store Sru} (h : Keeps F r s)
    (hF : Part.within [.srus] F) : Keeps F r { s with srus := x } :=
  h.andThen hF ⟨id, rfl, rfl, rfl, fun p hp => by cases p <;> simp [Part.same, State.eng] at hp ⊢⟩

theorem with_shadow {x : Store (Option Word)} (h : Keeps F r s)
    (hF : Part.within [.shadow] F) : Keeps F r { s with shadow := x } :=
  h.andThen hF ⟨id, rfl, rfl, rfl, fun p hp => by cases p <;> simp [Part.same, State.eng] at hp ⊢⟩

theorem with_modeCmd {x : Option ModeCmd} (h : Keeps F r s)
    (hF : Part.within [.modeCmd] F) : Keeps F r { s with modeCmd := x } :=
  h.andThen hF ⟨id, rfl, rfl, rfl, fun p hp => by cases p <;> simp [Part.same, State.eng] at hp ⊢⟩

theorem with_tb {x : TimeBase} (h : Keeps F r s)
    (hF : Part.within [.tb] F) : Keeps F r { s with tb := x } :=
  h.andThen hF ⟨id, rfl, rfl, rfl, fun p hp => by cases p <;> simp [Part.same, State.eng] at hp ⊢⟩

theorem with_red {x : Redundancy} (h : Keeps F r s)
    (hF : Part.within [.red] F) : Keeps F r { s with red := x } :=
  h.andThen hF ⟨id, rfl, rfl, rfl, fun p hp => by cases p <;> simp [Part.same, State.eng] at hp ⊢⟩

theorem with_nv {x : Option NvJob} (h : Keeps F r s)
    (hF : Part.within [.nv] F) : Keeps F r { s with nv := x } :=
  h.andThen hF ⟨id, rfl, rfl, rfl, fun p hp => by cases p <;> simp [Part.same, State.eng] at hp ⊢⟩

theorem with_now_sup {x : Now} {y : SupRows} (h : Keeps F r s)
    (hF : Part.within [.now, .sup] F) : Keeps F r { s with now := x, sup := y } :=
  h.andThen hF ⟨id, rfl, rfl, rfl, fun p hp => by cases p <;> simp [Part.same, State.eng] at hp ⊢⟩

theorem with_sup {x : SupRows} (h : Keeps F r s)
    (hF : Part.within [.sup] F) : Keeps F r { s with sup := x } :=
  h.andThen hF ⟨id, rfl, rfl, rfl, fun p hp => by cases p <;> simp [Part.same, State.eng] at hp ⊢⟩

theorem with_keyHash {x : Store Nat} (h : Keeps F r s)
    (hF : Part.within [.keyHash] F) : Keeps F r { s with keyHash := x } :=
  h.andThen hF ⟨id, rfl, rfl, rfl, fun p hp => by cases p <;> simp [Part.same, State.eng] at hp ⊢⟩

theorem with_jtag {x : Jtag} (h : Keeps F r s)
    (hF : Part.within [.jtag] F) : Keeps F r { s with jtag := x } :=
  h.andThen hF ⟨id, rfl, rfl, rfl, fun p hp => by cases p <;> simp [Part.same, State.eng] at hp ⊢⟩

theorem with_ports {x : Store Port} (h : Keeps F r s)
    (hF : Part.within [.ports] F) : Keeps F r { s with ports := x } :=
  h.andThen hF ⟨id, rfl, rfl, rfl, fun p hp => by cases p <;> simp [Part.same, State.eng] at hp ⊢⟩

theorem with_txTurn {x : Store Nat} (h : Keeps F r s)
    (hF : Part.within [.txTurn] F) : Keeps F r { s with txTurn := x } :=
  h.andThen hF ⟨id, rfl, rfl, rfl, fun p hp => by cases p <;> simp [Part.same, State.eng] at hp ⊢⟩

theorem with_cans {x : Store Can} (h : Keeps F r s)
    (hF : Part.within [.cans] F) : Keeps F r { s with cans := x } :=
  h.andThen hF ⟨id, rfl, rfl, rfl, fun p hp => by cases p <;> simp [Part.same, State.eng] at hp ⊢⟩

theorem with_img {x : Image} (h : Keeps F r s)
    (hF : Part.within [.img] F) : Keeps F r { s with img := x } :=
  h.andThen hF ⟨id, rfl, rfl, rfl, fun p hp => by cases p <;> simp [Part.same, State.eng] at hp ⊢⟩

theorem with_channels {x : Store Channel} (h : Keeps F r s)
    (hF : Part.within [.channels] F) : Keeps F r { s with channels := x } :=
  h.andThen hF ⟨id, rfl, rfl, rfl, fun p hp => by cases p <;> simp [Part.same, State.eng] at hp ⊢⟩

theorem with_msixPba_hostReads {x : Store Bool} {y : List HostRead} (h : Keeps F r s)
    (hF : Part.within [.msixPba, .hostReads] F) : Keeps F r { s with msixPba := x, hostReads := y } :=
  h.andThen hF ⟨id, rfl, rfl, rfl, fun p hp => by cases p <;> simp [Part.same, State.eng] at hp ⊢⟩

theorem with_nfn {x : Nat} (h : Keeps F r s)
    (hF : Part.within [.nfn] F) : Keeps F r { s with nfn := x } :=
  h.andThen hF ⟨id, rfl, rfl, rfl, fun p hp => by cases p <;> simp [Part.same, State.eng] at hp ⊢⟩

theorem with_pkg {x : Option PkgJob} (h : Keeps F r s)
    (hF : Part.within [.pkg] F) : Keeps F r { s with pkg := x } :=
  h.andThen hF ⟨id, rfl, rfl, rfl, fun p hp => by cases p <;> simp [Part.same, State.eng] at hp ⊢⟩

theorem with_clockLost {x : Store (Option Nat)} (h : Keeps F r s)
    (hF : Part.within [.clockLost] F) : Keeps F r { s with clockLost := x } :=
  h.andThen hF ⟨id, rfl, rfl, rfl, fun p hp => by cases p <;> simp [Part.same, State.eng] at hp ⊢⟩

theorem with_porstLow {x : Bool} (h : Keeps F r s)
    (hF : Part.within [.porstLow] F) : Keeps F r { s with porstLow := x } :=
  h.andThen hF ⟨id, rfl, rfl, rfl, fun p hp => by cases p <;> simp [Part.same, State.eng] at hp ⊢⟩

theorem with_coreReset {x : Bool} (h : Keeps F r s)
    (hF : Part.within [.coreReset] F) : Keeps F r { s with coreReset := x } :=
  h.andThen hF ⟨id, rfl, rfl, rfl, fun p hp => by cases p <;> simp [Part.same, State.eng] at hp ⊢⟩

theorem with_msixTab {x : Store Word} (h : Keeps F r s)
    (hF : Part.within [.msixTab] F) : Keeps F r { s with msixTab := x } :=
  h.andThen hF ⟨id, rfl, rfl, rfl, fun p hp => by cases p <;> simp [Part.same, State.eng] at hp ⊢⟩

theorem with_latch {x : Store Word} (h : Keeps F r s)
    (hF : Part.within [.latch] F) : Keeps F r { s with latch := x } :=
  h.andThen hF ⟨id, rfl, rfl, rfl, fun p hp => by cases p <;> simp [Part.same, State.eng] at hp ⊢⟩

theorem with_hostReads {x : List HostRead} (h : Keeps F r s)
    (hF : Part.within [.hostReads] F) : Keeps F r { s with hostReads := x } :=
  h.andThen hF ⟨id, rfl, rfl, rfl, fun p hp => by cases p <;> simp [Part.same, State.eng] at hp ⊢⟩
/-! ### Updates of the memories -/

theorem setReg {a : Nat} {v : Word} (h : Keeps F r s) (hF : Part.within [.regs] F) :
    Keeps F r (s.setReg a v) := by
  refine h.andThen hF ⟨?_, rfl, rfl, rfl, fun p hp => by cases p <;> simp [Part.same, State.eng] at hp ⊢⟩
  rintro ⟨hRegs, hRest⟩
  exact ⟨Store.wf_set a v hRegs, hRest⟩

/-- A byte memory of the state replaced. -/
theorem with_mram {m : Mem} (h : Keeps F r s) (hm : s.mram.wf → m.wf) (hF : Part.within [.mram] F) :
    Keeps F r { s with mram := m } := by
  refine h.andThen hF ⟨?_, rfl, rfl, rfl, fun p hp => by cases p <;> simp [Part.same, State.eng] at hp ⊢⟩
  rintro ⟨h1, h2, h3, h4, h5, h6, hRest⟩
  exact ⟨h1, h2, h3, h4, h5, hm h6, hRest⟩

theorem with_bootMem {m : Mem} (h : Keeps F r s) (hm : s.bootMem.wf → m.wf)
    (hF : Part.within [.bootMem] F) : Keeps F r { s with bootMem := m } := by
  refine h.andThen hF ⟨?_, rfl, rfl, rfl, fun p hp => by cases p <;> simp [Part.same, State.eng] at hp ⊢⟩
  rintro ⟨h1, h2, h3, h4, h5, h6, h7, hRest⟩
  exact ⟨h1, h2, h3, h4, h5, h6, hm h7, hRest⟩

theorem with_hostMem {m : Mem} (h : Keeps F r s) (hm : s.hostMem.wf → m.wf)
    (hF : Part.within [.hostMem] F) : Keeps F r { s with hostMem := m } := by
  refine h.andThen hF ⟨?_, rfl, rfl, rfl, fun p hp => by cases p <;> simp [Part.same, State.eng] at hp ⊢⟩
  rintro ⟨h1, h2, h3, h4, h5, h6, h7, h8, hRest⟩
  exact ⟨h1, h2, h3, h4, h5, h6, h7, hm h8, hRest⟩

theorem with_curve {m : Mem} (h : Keeps F r s) (hm : s.curve.wf → m.wf)
    (hF : Part.within [.curve] F) : Keeps F r { s with curve := m } := by
  refine h.andThen hF ⟨?_, rfl, rfl, rfl, fun p hp => by cases p <;> simp [Part.same, State.eng] at hp ⊢⟩
  rintro ⟨h1, h2, h3, h4, h5, h6, h7, h8, h9, hRest⟩
  exact ⟨h1, h2, h3, h4, h5, h6, h7, h8, hm h9, hRest⟩

/-- An engine replaced by one in canonical form. -/
theorem setEngMem {e : Nat} {x : Engine} (h : Keeps F r s) (hx : (s.eng e).wf → x.wf)
    (hF : Part.within [.engines, .sram, .gregs] F) : Keeps F r (s.setEng e x) := by
  refine h.andThen hF ⟨?_, rfl, rfl, rfl, fun p hp => by cases p <;> simp [Part.same, State.eng] at hp ⊢⟩
  rintro ⟨hRegs, hEng, hRest⟩
  refine ⟨hRegs, fun e' => ?_, hRest⟩
  by_cases he : e' = e
  · rw [he, State.eng_setEng_same]; exact hx (hEng e)
  · rw [State.eng_setEng_ne s x he]; exact hEng e'

/-- The SRAMs of an engine replaced. -/
theorem setEngData {e : Nat} {x : Engine} (h : Keeps F r s) (hx : (s.eng e).wf → x.wf)
    (hG : x.g = (s.eng e).g)
    (hF : Part.within [.engines, .sram] F) : Keeps F r (s.setEng e x) := by
  have hAll : Keeps [.engines, .sram, .gregs] s (s.setEng e x) := setEngMem .refl hx rfl
  refine h.andThen hF ⟨hAll.form, rfl, rfl, rfl, fun p hp => ?_⟩
  by_cases hs : p = .gregs
  · subst hs
    intro e'
    by_cases he : e' = e
    · rw [he, State.eng_setEng_same]; exact hG
    · rw [State.eng_setEng_ne s x he]
  · exact hAll.frame p (by cases p <;> simp at hp hs ⊢)

/-- The general registers of an engine replaced. -/
theorem setEngRegs {e : Nat} {x : Engine} (h : Keeps F r s) (hx : (s.eng e).wf → x.wf)
    (hMem : x.data = (s.eng e).data ∧ x.instr = (s.eng e).instr)
    (hF : Part.within [.engines, .gregs] F) : Keeps F r (s.setEng e x) := by
  have hAll : Keeps [.engines, .sram, .gregs] s (s.setEng e x) := setEngMem .refl hx rfl
  refine h.andThen hF ⟨hAll.form, rfl, rfl, rfl, fun p hp => ?_⟩
  by_cases hs : p = .sram
  · subst hs
    intro e'
    by_cases he : e' = e
    · rw [he, State.eng_setEng_same]; exact hMem
    · rw [State.eng_setEng_ne s x he]; exact ⟨rfl, rfl⟩
  · exact hAll.frame p (by cases p <;> simp at hp hs ⊢)

/-- An engine of which neither a memory nor a general register is replaced. -/
theorem setEng {e : Nat} {x : Engine} (h : Keeps F r s)
    (hx : x.data = (s.eng e).data ∧ x.instr = (s.eng e).instr ∧ x.g = (s.eng e).g)
    (hF : Part.within [.engines] F) : Keeps F r (s.setEng e x) := by
  obtain ⟨hData, hInstr, hG⟩ := hx
  have hAll : Keeps [.engines, .gregs] s (s.setEng e x) :=
    setEngRegs .refl (by unfold Engine.wf; rw [hData, hInstr, hG]; exact id) ⟨hData, hInstr⟩ rfl
  refine h.andThen hF ⟨hAll.form, rfl, rfl, rfl, fun p hp => ?_⟩
  by_cases hs : p = .gregs
  · subst hs
    intro e'
    by_cases he : e' = e
    · rw [he, State.eng_setEng_same]; exact hG
    · rw [State.eng_setEng_ne s x he]
  · exact hAll.frame p (by cases p <;> simp at hp hs ⊢)

/-- A district replaced by one whose SRAM is in canonical form. -/
theorem setDistSram {d : Nat} {x : District} (h : Keeps F r s) (hx : (s.dist d).sram.wf → x.sram.wf)
    (hF : Part.within [.districts] F) : Keeps F r (s.setDist d x) := by
  refine h.andThen hF ⟨?_, rfl, rfl, rfl, fun p hp => by cases p <;> simp [Part.same, State.eng] at hp ⊢⟩
  rintro ⟨h1, h2, hDist, hRest⟩
  refine ⟨h1, h2, fun d' => ?_, hRest⟩
  by_cases hd : d' = d
  · rw [hd, State.dist_setDist_same]; exact hx (hDist d)
  · rw [State.dist_setDist_ne s x hd]; exact hDist d'

/-- A district replaced by one with the same SRAM. -/
theorem setDist {d : Nat} {x : District} (h : Keeps F r s) (hx : x.sram = (s.dist d).sram)
    (hF : Part.within [.districts] F) : Keeps F r (s.setDist d x) :=
  h.setDistSram (by rw [hx]; exact id) hF

/-- A serial line replaced by one whose transmit ring is in canonical form. -/
theorem setSerTx {n : Nat} {x : Serial} (h : Keeps F r s) (hx : (s.ser n).tx.wf → x.tx.wf)
    (hF : Part.within [.serials] F) : Keeps F r (s.setSer n x) := by
  refine h.andThen hF ⟨?_, rfl, rfl, rfl, fun p hp => by cases p <;> simp [Part.same, State.eng] at hp ⊢⟩
  rintro ⟨h1, h2, h3, hSer, hRest⟩
  refine ⟨h1, h2, h3, fun n' => ?_, hRest⟩
  by_cases hn : n' = n
  · rw [hn, State.ser_setSer_same]; exact hx (hSer n)
  · have hOther : (s.setSer n x).ser n' = s.ser n' := Store.get_set_ne s.serials x hn
    rw [hOther]; exact hSer n'

/-- A serial line replaced by one with the same transmit ring. -/
theorem setSer {n : Nat} {x : Serial} (h : Keeps F r s) (hx : x.tx = (s.ser n).tx)
    (hF : Part.within [.serials] F) : Keeps F r (s.setSer n x) :=
  h.setSerTx (by rw [hx]; exact id) hF

/-- The Crossing replaced by one whose frame buffer is in canonical form. -/
theorem setXingBuffer {x : Crossing} (h : Keeps F r s) (hx : s.xing.buffer.wf → x.buffer.wf)
    (hF : Part.within [.xing] F) : Keeps F r (s.setXing x) := by
  refine h.andThen hF ⟨?_, rfl, rfl, rfl, fun p hp => by cases p <;> simp [Part.same, State.eng] at hp ⊢⟩
  rintro ⟨h1, h2, h3, h4, hBuffer, hRest⟩
  exact ⟨h1, h2, h3, h4, hx hBuffer, hRest⟩

/-- The Crossing replaced by one with the same frame buffer. -/
theorem setXing {x : Crossing} (h : Keeps F r s) (hx : x.buffer = s.xing.buffer)
    (hF : Part.within [.xing] F) : Keeps F r (s.setXing x) :=
  h.setXingBuffer (by rw [hx]; exact id) hF

/-- The island replaced by one whose memories are in canonical form. -/
theorem setIslandMem {i : Island} (h : Keeps F r s)
    (hi : s.island.mram.wf → s.island.staging.wf → i.mram.wf ∧ i.staging.wf)
    (hF : Part.within [.island] F) : Keeps F r (s.setIsland i) := by
  refine h.andThen hF ⟨?_, rfl, rfl, rfl, fun p hp => by cases p <;> simp [Part.same, State.eng] at hp ⊢⟩
  rintro ⟨h1, h2, h3, h4, h5, h6, h7, h8, h9, hMram, hStaging⟩
  exact ⟨h1, h2, h3, h4, h5, h6, h7, h8, h9, hi hMram hStaging⟩

/-- The island replaced by one with the same memories. -/
theorem setIsland {i : Island} (h : Keeps F r s)
    (hi : i.Mems s.island.mram s.island.staging)
    (hF : Part.within [.island] F) : Keeps F r (s.setIsland i) :=
  h.setIslandMem (fun hMram hStaging => by rw [hi.mram, hi.staging]; exact ⟨hMram, hStaging⟩) hF

theorem with_island {i : Island} (h : Keeps F r s)
    (hi : i.Mems s.island.mram s.island.staging)
    (hF : Part.within [.island] F) : Keeps F r { s with island := i } := .setIsland h hi hF

end Keeps
end Sys2Proof.Machine
end

section
/-!
SUPPORT. What each operation and each command of the model may change, and that it keeps the memories' canonical form: one
lemma per definition, its proof the definition's own composition of others.
-/

set_option Elab.async false

namespace Sys2Proof.Machine.Keeps

variable {F : List Part} {r s : State}

theorem setFld {f : Fld} {v : ℕ} (h : Keeps F r s)
    (hF : Part.within [.regs] F) : Keeps F r (s.setFld f v) :=
  h.andThen hF (.setReg .refl rfl)

theorem stampSet {a : ℕ} {w : Word} (h : Keeps F r s)
    (hF : Part.within [.now] F) : Keeps F r (s.stampSet a w) :=
  h.andThen hF (.with_now .refl rfl)

theorem stampRaise {f : Fld} {k : ℕ} (h : Keeps F r s)
    (hF : Part.within [.now] F) : Keeps F r (s.stampRaise f k) :=
  h.andThen hF (.with_now .refl rfl)

theorem setFlag {f : Fld} {b : Bool} (h : Keeps F r s)
    (hF : Part.within [.now, .regs] F) : Keeps F r (s.setFlag f b) :=
  h.andThen hF (.stampSet (.setFld .refl rfl) rfl)

theorem count {f : Fld} {k : ℕ} (h : Keeps F r s)
    (hF : Part.within [.now, .regs] F) : Keeps F r (s.count f k) :=
  h.andThen hF (.setFld (.stampRaise .refl rfl) rfl)

theorem countWrap {f : Fld} {k : ℕ} (h : Keeps F r s)
    (hF : Part.within [.regs] F) : Keeps F r (s.countWrap f k) :=
  h.andThen hF (.setFld .refl rfl)

theorem countReg {a k : ℕ} (h : Keeps F r s)
    (hF : Part.within [.regs] F) : Keeps F r (s.countReg a k) :=
  h.andThen hF (.setReg .refl rfl)

theorem draw (h : Keeps F r s)
    (hF : Part.within [.free] F) : Keeps F r (s.draw) :=
  h.andThen hF (.with_free .refl rfl)

theorem emit {o : Out} (h : Keeps F r s)
    (hF : Part.within [.out] F) : Keeps F r (s.emit o) :=
  h.andThen hF (.with_out .refl rfl)

theorem notify {n : Notice} (h : Keeps F r s)
    (hF : Part.within [.notices] F) : Keeps F r (s.notify n) :=
  h.andThen hF (.with_notices .refl rfl)

theorem oneAtATime {a : ℕ} {busy : Bool} {lost : Fld} {f : State → State} (h
    : Keeps F r s) (hf : ∀ u, Keeps F r u → Keeps F r (f u))
    (hF : Part.within [.now, .regs] F) : Keeps F r (s.oneAtATime a busy lost f) :=
  .ite (.setFlag h (hF := Part.sub hF rfl)) (hf _ (.with_now h (hF := Part.sub hF rfl)))

theorem live {f : State → State} (h : Keeps F r s) (hf : ∀ u, Keeps F r u → Keeps F r (f u))
     : Keeps F r (s.live f) :=
  .ite h (hf _ h)

theorem clocked {k : ℕ} {f : State → State} (h : Keeps F r s) (hf : ∀ u, Keeps F r u → Keeps F r (f u))
     : Keeps F r (s.clocked k f) :=
  .live h (fun _ h1 => .ite h1 (hf _ h1))

theorem through {k : ℕ} {f : State → State} (h : Keeps F r s) (hf : ∀ u, Keeps F r u → Keeps F r (f u))
    (hF : Part.within [.now, .regs] F) : Keeps F r (s.through k f) :=
  .ite (.count h (hF := Part.sub hF rfl)) (hf _ h)

theorem offered {k : ℕ} {f : State → State} (h : Keeps F r s) (hf : ∀ u, Keeps F r u → Keeps F r (f u))
    (hF : Part.within [.now, .regs] F) : Keeps F r (s.offered k f) :=
  .live h (fun _ h1 => .through h1 (fun _ h2 => hf _ h2) (hF := Part.sub hF rfl))

theorem setSyncLine {l v : ℕ} (h : Keeps F r s)
    (hF : Part.within [.syncs] F) : Keeps F r (s.setSyncLine l v) :=
  h.andThen hF (.with_syncs .refl rfl)

theorem raiseLine {l : ℕ} {cross : State → State} (h : Keeps F r s) (hcross : ∀ u, Keeps F r u → Keeps F r (cross u))
    (hF : Part.within [.syncs, .merges] F) : Keeps F r (s.raiseLine l cross) := by
  unfold State.raiseLine
  refine .ite ?_ ?_
  · exact hcross _ (.setSyncLine h (hF := Part.sub hF rfl))
  · exact .ite (.setSyncLine h (hF := Part.sub hF rfl)) (.with_merges h (hF := Part.sub hF rfl))

theorem wrongState {who : Ident} (h : Keeps F r s)
    (hF : Part.within [.now, .regs] F) : Keeps F r (s.wrongState who) :=
  h.andThen hF (.setFld (.setFld (.count .refl rfl) rfl) rfl)

theorem countCode {who : Ident} {c : ℕ} (h : Keeps F r s)
    (hF : Part.within [.now, .regs] F) : Keeps F r (s.countCode who c) :=
  h.andThen hF (.ite (.wrongState .refl rfl) .refl)

theorem absentCapture {a : ℕ} {write : Bool} (h : Keeps F r s)
    (hF : Part.within [.now, .regs] F) : Keeps F r (s.absentCapture a write) :=
  h.andThen hF (.ite (.setFlag .refl rfl) (.setFlag (.setFlag (.setFld .refl rfl) rfl) rfl))

theorem absentHit {a : ℕ} {write : Bool} (h : Keeps F r s)
    (hF : Part.within [.now, .regs] F) : Keeps F r (s.absentHit a write) :=
  h.andThen hF (.absentCapture (.with_now .refl rfl) rfl)

theorem clearAbsent {v : Word} (h : Keeps F r s)
    (hF : Part.within [.now, .regs] F) : Keeps F r (s.clearAbsent v) := by
  refine h.andThen hF ?_
  unfold State.clearAbsent
  dsimp only
  refine .ite ?_ ?_
  · exact .setReg .refl rfl
  · exact .ite (.setReg .refl rfl) (.foldl ((.setReg (.with_now .refl rfl) rfl)) (fun _ _ h2 => .absentCapture h2 rfl))

theorem setMode {m : ℕ} (h : Keeps F r s)
    (hF : Part.within [.now, .regs] F) : Keeps F r (s.setMode m) :=
  h.andThen hF (.setFld (.setFlag (.countWrap (.setFld (.setFld .refl rfl) rfl) rfl) rfl) rfl)

theorem addLease {l : Lease} (h : Keeps F r s)
    (hF : Part.within [.leases] F) : Keeps F r (s.addLease l) :=
  h.andThen hF (.with_leases .refl rfl)

theorem dropLease {type district index : ℕ} (h : Keeps F r s)
    (hF : Part.within [.leases] F) : Keeps F r (s.dropLease type district index) :=
  h.andThen hF (.with_leases .refl rfl)

theorem lineArrives {e n : ℕ} (h : Keeps F r s)
    (hF : Part.within [.now, .regs, .engines] F) : Keeps F r (s.lineArrives e n) :=
  h.andThen hF (.ite .refl (.bind (fun h1 => .ite (.setFld (.count h1 rfl) rfl) (.setEng h1 ⟨rfl, rfl, rfl⟩ rfl))
      (.with_now .refl rfl)))

theorem fireIn {kind index : ℕ} {pick : ℕ → Bool} (h : Keeps F r s)
    (hF : Part.within [.now, .regs, .engines] F) : Keeps F r (s.fireIn kind index pick) :=
  h.andThen hF (.foldl .refl (fun _ _ h1 => .lineArrives h1 rfl))

theorem fire {kind index : ℕ} (h : Keeps F r s)
    (hF : Part.within [.now, .regs, .engines] F) : Keeps F r (s.fire kind index) :=
  h.andThen hF (.fireIn .refl rfl)

theorem fireDistrict {kind index d : ℕ} (h : Keeps F r s)
    (hF : Part.within [.now, .regs, .engines] F) : Keeps F r (s.fireDistrict kind index d) :=
  h.andThen hF (.fireIn .refl rfl)

theorem fireEngine {kind index e : ℕ} (h : Keeps F r s)
    (hF : Part.within [.now, .regs, .engines] F) : Keeps F r (s.fireEngine kind index e) :=
  h.andThen hF (.fireIn .refl rfl)

theorem signalMsix {fn vec : ℕ} (h : Keeps F r s)
    (hF : Part.within [.msixPba, .out] F) : Keeps F r (s.signalMsix fn vec) :=
  h.andThen hF (.ite (.with_msixPba .refl rfl) (.emit .refl rfl))

theorem raiseIrq {src : ℕ} (h : Keeps F r s)
    (hF : Part.within [.now, .regs, .msixPba, .out] F) : Keeps F r (s.raiseIrq src) :=
  h.andThen hF (.bind (fun h1 => .ite h1 (.bind (fun h2 => .ite (.ite h2 (.signalMsix h2 rfl)) h2) (.setReg h1 rfl)))
      (.stampSet .refl rfl))

theorem overHclk {who : Ident} {f : State → State} (h : Keeps F r s) (hf : ∀ u, Keeps F r u → Keeps F r (f u))
    (hF : Part.within [.now, .regs] F) : Keeps F r (s.overHclk who f) :=
  .ite (.through h (fun _ h1 => hf _ h1) (hF := Part.sub hF rfl)) (hf _ h)

theorem served {who : Ident} {f : State → State} (h : Keeps F r s) (hf : ∀ u, Keeps F r u → Keeps F r (f u))
    (hF : Part.within [.now, .regs] F) : Keeps F r (s.served who f) :=
  .live h (fun _ h1 => .overHclk h1 (fun _ h2 => .ite h2 (hf _ h2)) (hF := Part.sub hF rfl))

theorem setGreg {e : ℕ} {x : GReg} {v : Word} (h : Keeps F r s) (hF : Part.within [.engines, .gregs] F) :
    Keeps F r (s.setGreg e x v) :=
  h.andThen hF (.ite .refl (.setEngRegs .refl
      (fun ⟨hData, hInstr, hG⟩ => ⟨hData, hInstr, Store.wf_set _ _ hG⟩) ⟨rfl, rfl⟩ rfl))

theorem wr {e : ℕ} {wide : Bool} {r' : GReg} {v : ℕ} (h : Keeps F r s)
    (hF : Part.within [.engines, .gregs] F) : Keeps F r (s.wr e wide r' v) :=
  h.andThen hF (.ite (.ite .refl (.setGreg (.setGreg .refl rfl) rfl)) (.setGreg .refl rfl))

theorem goto {e : ℕ} {a : Word} (h : Keeps F r s)
    (hF : Part.within [.engines] F) : Keeps F r (s.goto e a) :=
  h.andThen hF (.setEng .refl ⟨rfl, rfl, rfl⟩ rfl)

theorem advance {e len : ℕ} (h : Keeps F r s)
    (hF : Part.within [.engines] F) : Keeps F r (s.advance e len) :=
  h.andThen hF (.goto .refl rfl)

theorem halt {e cause : ℕ} (h : Keeps F r s)
    (hF : Part.within [.regs, .engines, .notices] F) : Keeps F r (s.halt e cause) :=
  h.andThen hF (.notify (.setFld (.setFld (.setEng .refl ⟨rfl, rfl, rfl⟩ rfl) rfl) rfl) rfl)

theorem enter {e : ℕ} {r' : Record} {level : Option ℕ} (h : Keeps F r s)
    (hF : Part.within [.regs, .engines] F) : Keeps F r (s.enter e r' level) := by
  refine h.andThen hF ?_
  unfold State.enter
  dsimp only
  split
  · exact .setFld ((.setFld ((.setEng .refl ⟨rfl, rfl, rfl⟩ rfl)) rfl)) rfl
  · exact (.setFld ((.setEng .refl ⟨rfl, rfl, rfl⟩ rfl)) rfl)

theorem raiseEntry {e : ℕ} {r' : Record} {level : Option ℕ} {haltsIn : ℕ → Bool} (h : Keeps F r s)
    (hF : Part.within [.regs, .engines, .notices] F) : Keeps F r (s.raiseEntry e r' level haltsIn) :=
  h.andThen hF (.ite (.halt .refl rfl) (.ite (.halt .refl rfl) (.enter .refl rfl)))

theorem exception {e vector cause : ℕ} {retPC : Word} (h : Keeps F r s)
    (hF : Part.within [.regs, .engines, .notices] F) : Keeps F r (s.exception e vector cause retPC) :=
  h.andThen hF (.raiseEntry .refl rfl)

theorem faultAddr {e addr : ℕ} (h : Keeps F r s)
    (hF : Part.within [.regs] F) : Keeps F r (s.faultAddr e addr) :=
  h.andThen hF (.setReg .refl rfl)

theorem accessFault {e : ℕ} {x : Exc} {f : FaultInfo} {addr : ℕ} (h : Keeps F r s)
    (hF : Part.within [.regs, .engines, .notices] F) : Keeps F r (s.accessFault e x f addr) :=
  h.andThen hF (.bind (fun h1 => .ite h1 (.faultAddr h1 rfl)) (.exception .refl rfl))

theorem noMemFault {e : ℕ} {x : Exc} {target : ℕ} (h : Keeps F r s)
    (hF : Part.within [.regs, .engines, .notices] F) : Keeps F r (s.noMemFault e x target) :=
  h.andThen hF (.accessFault .refl rfl)

theorem illegal {e reason byte : ℕ} (h : Keeps F r s)
    (hF : Part.within [.regs, .engines, .notices] F) : Keeps F r (s.illegal e reason byte) :=
  h.andThen hF (.exception .refl rfl)

theorem clearWait {e : ℕ} (h : Keeps F r s)
    (hF : Part.within [.engines] F) : Keeps F r (s.clearWait e) :=
  h.andThen hF (.setEng .refl ⟨rfl, rfl, rfl⟩ rfl)

theorem takeEntry {e : ℕ} {f : Returned} {chained : Bool} (h : Keeps F r s)
    (hF : Part.within [.regs, .engines, .notices] F) : Keeps F r (s.takeEntry e f chained) := by
  refine h.andThen hF ?_
  unfold State.takeEntry
  dsimp only
  refine .ite ?_ ?_
  · exact .raiseEntry (.setEng ((.clearWait .refl rfl)) ⟨rfl, rfl, rfl⟩ rfl) rfl
  · refine .ite ?_ ?_
    · exact .raiseEntry (.setEng ((.clearWait .refl rfl)) ⟨rfl, rfl, rfl⟩ rfl) rfl
    · split
      · exact .bind (fun h2 => .ite h2 (.faultAddr h2 rfl)) (.raiseEntry (.setEng
          ((.clearWait .refl rfl)) ⟨rfl, rfl, rfl⟩ rfl) rfl)
      · split
        · exact .enter (.setEng ((.clearWait .refl rfl)) ⟨rfl, rfl, rfl⟩ rfl) rfl
        · exact .refl

theorem popRecord {e : ℕ} (h : Keeps F r s)
    (hF : Part.within [.regs, .engines, .gregs] F) : Keeps F r (s.popRecord e) := by
  refine h.andThen hF ?_
  unfold State.popRecord
  dsimp only
  split
  · exact .refl
  · exact .setFld (.setGreg ((.setEng .refl ⟨rfl, rfl, rfl⟩ rfl)) rfl) rfl

theorem startEngine {e : ℕ} (h : Keeps F r s) (hF : Part.within [.regs, .engines, .gregs] F) :
    Keeps F r (s.startEngine e) :=
  h.andThen hF (.setFld (.setFld (.setFld (.setEngRegs .refl
      (fun ⟨hData, hInstr, _⟩ => ⟨hData, hInstr, rfl⟩) ⟨rfl, rfl⟩ rfl) rfl) rfl) rfl)

theorem stopEngine {e : ℕ} (h : Keeps F r s) (hF : Part.within [.regs, .engines] F) :
    Keeps F r (s.stopEngine e) := by
  refine h.andThen hF (.setFld (.setFld (.setEng .refl ?_ rfl) rfl) rfl)
  by_cases hHalted : s.engState e = 3
  · rw [if_pos hHalted]; exact ⟨rfl, rfl, rfl⟩
  · rw [if_neg hHalted]; exact ⟨rfl, rfl, rfl⟩

theorem recordReclaim {e handle : ℕ} (h : Keeps F r s)
    (hF : Part.within [.now, .regs, .engines] F) : Keeps F r (s.recordReclaim e handle) :=
  h.andThen hF (.bind (fun h2 => .ite (.setEng h2 ⟨rfl, rfl, rfl⟩ rfl) h2) (.count ((.ite
      (.setReg .refl rfl) .refl)) rfl))

theorem refuseStore {who : Ident} {a : ℕ} (h : Keeps F r s)
    (hF : Part.within [.engines] F) : Keeps F r (s.refuseStore who a) :=
  h.andThen hF (.ite (.setEng .refl ⟨rfl, rfl, rfl⟩ rfl) .refl)

theorem kickWatchdog {e period : ℕ} (h : Keeps F r s)
    (hF : Part.within [.engines] F) : Keeps F r (s.kickWatchdog e period) :=
  h.andThen hF (.setEng .refl ⟨rfl, rfl, rfl⟩ rfl)

theorem fetchFault {e : ℕ} (h : Keeps F r s)
    (hF : Part.within [.regs, .engines, .notices] F) : Keeps F r (s.fetchFault e) :=
  h.andThen hF (.accessFault .refl rfl)

theorem issue {e : ℕ} {f : Form} {body : State → State} (h
    : Keeps F r s) (hbody : ∀ u, Keeps F r u → Keeps F r (body u))
    (hF : Part.within [.regs, .engines, .notices] F) : Keeps F r (s.issue e f body) := by
  unfold State.issue
  refine .ite ?_ ?_
  · split
    · exact .ite (.illegal h (hF := Part.sub hF rfl)) (.fetchFault h (hF := Part.sub hF rfl))
    · exact .ite (hbody _ h) (.fetchFault h (hF := Part.sub hF rfl))
  · exact h

theorem sramScrub {d a n : ℕ} (h : Keeps F r s)
    (hF : Part.within [.now, .regs, .districts] F) : Keeps F r (s.sramScrub d a n) :=
  h.andThen hF (.ite .refl (.count (.setDist .refl rfl rfl) rfl))

theorem sramClean {d a n : ℕ} (h : Keeps F r s)
    (hF : Part.within [.now, .regs, .districts] F) : Keeps F r (s.sramClean d a n) :=
  h.andThen hF (.sramScrub (.setDist .refl rfl rfl) rfl)

theorem sramStore {d a n v : ℕ} (h : Keeps F r s) (hF : Part.within [.now, .regs, .districts] F) :
    Keeps F r (s.sramStore d a n v) :=
  h.andThen hF ((Keeps.sramClean .refl rfl).setDistSram (Mem.wf_writeLE n a v) rfl)

theorem sramAgentStore {d a n v : ℕ} {who : Ident} (h : Keeps F r s)
    (hF : Part.within [.now, .regs, .districts] F) : Keeps F r (s.sramAgentStore d a n v who) :=
  h.andThen hF (.ite (.sramStore .refl rfl) (.count .refl rfl))

theorem sramAgentBytes {d a : ℕ} {bs : List Byte} {who : Ident} (h : Keeps F r s)
    (hF : Part.within [.now, .regs, .districts] F) :
    Keeps F r (s.sramAgentBytes d a bs who) :=
  h.andThen hF (.ite ((Keeps.sramClean .refl rfl).setDistSram (Mem.wf_writeBytes bs a) rfl) (.count .refl rfl))

theorem sramErrorSeen {d : ℕ} (h : Keeps F r s)
    (hF : Part.within [.now, .regs, .notices] F) : Keeps F r (s.sramErrorSeen d) :=
  h.andThen hF (.notify (.count .refl rfl) rfl)

theorem phaseMoveIn {d : ℕ} (h : Keeps F r s)
    (hF : Part.within [.now, .regs, .districts] F) : Keeps F r (s.phaseMoveIn d) :=
  h.andThen hF (.ite (.setFlag (.setDist .refl rfl rfl) rfl) .refl)

theorem phaseMove (h : Keeps F r s)
    (hF : Part.within [.now, .regs, .districts] F) : Keeps F r (s.phaseMove) :=
  h.andThen hF (.foldl .refl (fun _ _ h1 => .phaseMoveIn h1 rfl))

theorem setAveLen {len : ℕ} (h : Keeps F r s)
    (hF : Part.within [.districts, .ave] F) : Keeps F r (s.setAveLen len) := by
  refine h.andThen hF ?_
  unfold State.setAveLen
  dsimp only
  exact .foldl ((.with_ave .refl rfl)) (fun _ _ h2 => by
    split
    · exact .ite (.setDist h2 rfl rfl) h2
    · exact h2)

theorem roundRun {d : ℕ} (h : Keeps F r s)
    (hF : Part.within [.now, .regs, .districts] F) : Keeps F r (s.roundRun d) :=
  h.andThen hF (.setDist (.setFlag (.setFlag (.setFlag .refl rfl) rfl) rfl) rfl rfl)

theorem roundStop {d : ℕ} (h : Keeps F r s)
    (hF : Part.within [.now, .regs, .districts] F) : Keeps F r (s.roundStop d) :=
  h.andThen hF (.setDist (.setFlag (.setFlag (.setFlag .refl rfl) rfl) rfl) rfl rfl)

theorem pendWrite {d st w : ℕ} {v : Word} (h : Keeps F r s)
    (hF : Part.within [.districts] F) : Keeps F r (s.pendWrite d st w v) :=
  h.andThen hF (.setDist .refl rfl rfl)

theorem pendOperation {d st w : ℕ} {op : RndOp} {v : Word} (h : Keeps F r s)
    (hF : Part.within [.now, .regs, .districts] F) : Keeps F r (s.pendOperation d st w op v) := by
  refine h.andThen hF ?_
  unfold State.pendOperation
  dsimp only
  split
  · exact .ite (.setDist .refl rfl rfl) (.setDist (.count .refl rfl) rfl rfl)
  · exact .setDist .refl rfl rfl

theorem setSru {d : ℕ} {x : Sru} (h : Keeps F r s)
    (hF : Part.within [.srus] F) : Keeps F r (s.setSru d x) :=
  h.andThen hF (.with_srus .refl rfl)

theorem clearStation {d st : ℕ} (h : Keeps F r s)
    (hF : Part.within [.districts] F) : Keeps F r (s.clearStation d st) :=
  h.andThen hF (.setDist .refl rfl rfl)

theorem takePending {d st : ℕ} (h : Keeps F r s)
    (hF : Part.within [.now, .regs, .districts] F) : Keeps F r (s.takePending d st) :=
  h.andThen hF (.setDist ((.ite .refl (.count .refl rfl))) rfl rfl)

theorem showLeft {d : ℕ} (h : Keeps F r s)
    (hF : Part.within [.districts] F) : Keeps F r (s.showLeft d) :=
  h.andThen hF (.setDist .refl rfl rfl)

theorem showFrame {d : ℕ} {f : Store Word} (h : Keeps F r s)
    (hF : Part.within [.regs] F) : Keeps F r (s.showFrame d f) :=
  h.andThen hF (.foldl .refl (fun _ _ h1 => .setReg h1 rfl))

theorem setAve {a : Avenue} (h : Keeps F r s)
    (hF : Part.within [.ave] F) : Keeps F r (s.setAve a) :=
  h.andThen hF (.with_ave .refl rfl)

theorem setAveState {n : ℕ} (h : Keeps F r s)
    (hF : Part.within [.regs, .notices] F) : Keeps F r (s.setAveState n) :=
  h.andThen hF (.bind (fun h1 => .ite (.notify h1 rfl) h1) (.setFld .refl rfl))

theorem setNodeQueue {l : ℕ} {q : List Msg} (h : Keeps F r s)
    (hF : Part.within [.ave] F) : Keeps F r (s.setNodeQueue l q) :=
  h.andThen hF (.setAve .refl rfl)

theorem queueMsg {l : ℕ} {m : Msg} (h : Keeps F r s)
    (hF : Part.within [.ave] F) : Keeps F r (s.queueMsg l m) :=
  h.andThen hF (.setNodeQueue .refl rfl)

theorem noteTail {d q tail : ℕ} (h : Keeps F r s)
    (hF : Part.within [.ave] F) : Keeps F r (s.noteTail d q tail) :=
  h.andThen hF (.setAve .refl rfl)

theorem takeRing {d q n beats left : Nat} (h : Keeps F r s) (hF : Part.within [.now, .regs] F) :
    Keeps F r (State.takeRing d q n beats left s).2 := by
  refine h.andThen hF ?_
  clear h
  induction n generalizing s beats left with
  | zero => exact .refl
  | succ n ih =>
    exact .ite_snd .refl (.ite_snd ((Keeps.count (.setFld .refl rfl) rfl).trans ih)
      (.ite_snd ((Keeps.setFld .refl rfl).trans ih) .refl))

theorem gatewayFrame {d : ℕ} {ring : Bool} (h : Keeps F r s)
    (hF : Part.within [.now, .regs, .ave] F) : Keeps F r (s.gatewayFrame d ring).2 :=
  h.andThen hF (.setNodeQueue (.takeRing ((.ite_snd (.takeRing ((.setAve .refl rfl)) rfl)
      ((.setAve .refl rfl)))) rfl) rfl)

theorem nodeFrame {l : ℕ} {ring : Bool} (h : Keeps F r s)
    (hF : Part.within [.now, .regs, .ave] F) : Keeps F r (s.nodeFrame l ring).2 := by
  refine h.andThen hF ?_
  unfold State.nodeFrame
  dsimp only
  refine .ite_snd ?_ ?_
  · exact .gatewayFrame .refl rfl
  · refine .ite_snd ?_ ?_
    · exact .setNodeQueue .refl rfl
    · exact .refl

theorem ringStore {d q p : ℕ} {bs : List Byte} (h : Keeps F r s) (hF : Part.within [.now, .regs, .districts] F) :
    Keeps F r (s.ringStore d q p bs) :=
  h.andThen hF (.ite (.setDistSram .refl Mem.wf_foldl_write rfl) (.count .refl rfl))

theorem startListening (h : Keeps F r s)
    (hF : Part.within [.ave] F) : Keeps F r (s.startListening) :=
  h.andThen hF (.ite (.setAve .refl rfl) .refl)

theorem aveBegin (h : Keeps F r s)
    (hF : Part.within [.regs, .ave, .notices] F) : Keeps F r (s.aveBegin) :=
  h.andThen hF (.ite .refl (.startListening (.setAveState (.setAve .refl rfl) rfl) rfl))

theorem setCycleStart {at' : ℕ} (h : Keeps F r s)
    (hF : Part.within [.now, .regs, .districts, .ave] F) : Keeps F r (s.setCycleStart at') :=
  h.andThen hF (.phaseMove (.setAve .refl rfl) rfl)

theorem correct {off : ℤ} (h : Keeps F r s)
    (hF : Part.within [.regs, .districts, .ave] F) : Keeps F r (s.correct off) :=
  h.andThen hF (.setFld (.setFld (.setAveLen (.setAve .refl rfl) rfl) rfl) rfl)

theorem expectLen (h : Keeps F r s)
    (hF : Part.within [.districts, .ave] F) : Keeps F r (s.expectLen) :=
  h.andThen hF (.ite (.setAveLen .refl rfl) (.setAveLen .refl rfl))

theorem endUncorrected (h : Keeps F r s)
    (hF : Part.within [.ave] F) : Keeps F r (s.endUncorrected) :=
  h.andThen hF (.ite .refl (.setAve .refl rfl))

theorem showMap {m : List RingChip} {complete broken : Bool} (h : Keeps F r s)
    (hF : Part.within [.now, .regs, .ave] F) : Keeps F r (s.showMap m complete broken) :=
  h.andThen hF (.setFlag ((.setFlag ((.setFld ((.setFlag ((.setFlag ((.setFld ((.setFld
      ((.setAve .refl rfl)) rfl)) rfl)) rfl)) rfl)) rfl)) rfl)) rfl)

theorem mirrorSpare {t' : List SpareEntry} (h : Keeps F r s)
    (hF : Part.within [.regs] F) : Keeps F r (s.mirrorSpare t') := by
  refine h.andThen hF ?_
  unfold State.mirrorSpare
  exact .foldl .refl (fun _ _ h1 => by
    split
    · exact .setReg h1 rfl
    · exact .setReg h1 rfl)

theorem claimResult {code slot : ℕ} (h : Keeps F r s)
    (hF : Part.within [.now, .regs, .ave] F) : Keeps F r (s.claimResult code slot) :=
  h.andThen hF (.setFlag ((.setFld ((.setFld ((.setAve .refl rfl)) rfl)) rfl)) rfl)

theorem completeClaim {m : RefMsg} (h : Keeps F r s)
    (hF : Part.within [.now, .regs, .ave] F) : Keeps F r (s.completeClaim m) := by
  refine h.andThen hF ?_
  unfold State.completeClaim
  split
  · refine .ite ?_ ?_
    · refine .ite ?_ ?_
      · exact .claimResult .refl rfl
      · refine .ite ?_ ?_
        · split
          · exact .claimResult .refl rfl
          · exact .claimResult .refl rfl
        · exact .ite (.claimResult .refl rfl) (.claimResult .refl rfl)
    · exact .refl
  · exact .refl

theorem holdRef {m : RefMsg} (h : Keeps F r s)
    (hF : Part.within [.now, .regs, .ave] F) : Keeps F r (s.holdRef m) :=
  h.andThen hF (.setFlag ((.mirrorSpare ((.completeClaim ((.setAve .refl rfl)) rfl)) rfl)) rfl)

theorem setTxn {u : TxnUnit} {state : ℕ} {holder : Ident} (h : Keeps F r s)
    (hF : Part.within [.regs] F) : Keeps F r (s.setTxn u state holder) :=
  h.andThen hF (.setReg .refl rfl)

theorem txnResult {u : TxnUnit} {who : Ident} {code : ℕ} (h : Keeps F r s)
    (hF : Part.within [.now, .regs] F) : Keeps F r (s.txnResult u who code) :=
  h.andThen hF (.countCode (.setReg .refl rfl) rfl)

theorem setShadow {a : ℕ} {v : Word} (h : Keeps F r s)
    (hF : Part.within [.shadow] F) : Keeps F r (s.setShadow a v) :=
  h.andThen hF (.with_shadow .refl rfl)

theorem clearShadow {u : TxnUnit} (h : Keeps F r s)
    (hF : Part.within [.shadow] F) : Keeps F r (s.clearShadow u) :=
  h.andThen hF (.with_shadow .refl rfl)

theorem applyShadow {u : TxnUnit} (h : Keeps F r s)
    (hF : Part.within [.regs, .shadow] F) : Keeps F r (s.applyShadow u) := by
  refine h.andThen hF ?_
  unfold State.applyShadow
  exact .clearShadow (.foldl .refl (fun _ _ h1 => .ite (by
    split
    · exact .setReg h1 rfl
    · exact h1) h1)) rfl

theorem closeTxn {u : TxnUnit} (h : Keeps F r s)
    (hF : Part.within [.regs, .leases] F) : Keeps F r (s.closeTxn u) :=
  h.andThen hF (.dropLease (.setTxn .refl rfl) rfl)

theorem endApply {u : TxnUnit} (h : Keeps F r s)
    (hF : Part.within [.now, .regs, .leases] F) : Keeps F r (s.endApply u) :=
  h.andThen hF (.bind (fun h1 => .ite (.txnResult h1 rfl) h1) (.closeTxn .refl rfl))

theorem modeResult {who : Ident} {tag code : ℕ} {done : Bool} (h : Keeps F r s)
    (hF : Part.within [.now, .regs, .msixPba, .out] F) : Keeps F r (s.modeResult who tag code done) :=
  h.andThen hF (.raiseIrq (.countCode (.setFlag (.setFld (.setFld .refl rfl) rfl) rfl) rfl) rfl)

theorem beginMode {c : ModeCmd} (h : Keeps F r s)
    (hF : Part.within [.now, .regs, .modeCmd, .msixPba, .out] F) : Keeps F r (s.beginMode c) :=
  h.andThen hF (.modeResult (.setFlag (.with_modeCmd .refl rfl) rfl) rfl)

theorem endMode {code : ℕ} (h : Keeps F r s)
    (hF : Part.within [.now, .regs, .modeCmd, .msixPba, .out] F) : Keeps F r (s.endMode code) := by
  refine h.andThen hF ?_
  unfold State.endMode
  split
  · exact .modeResult (.setFlag (.with_modeCmd .refl rfl) rfl) rfl
  · exact .refl

theorem setTb {t' : TimeBase} (h : Keeps F r s)
    (hF : Part.within [.tb] F) : Keeps F r (s.setTb t') :=
  h.andThen hF (.with_tb .refl rfl)

theorem setDom {x : ℕ} {d : Domain} (h : Keeps F r s)
    (hF : Part.within [.regs, .tb] F) : Keeps F r (s.setDom x d) :=
  h.andThen hF (.setReg (.setReg ((.setTb .refl rfl)) rfl) rfl)

theorem showActive (h : Keeps F r s)
    (hF : Part.within [.now, .regs] F) : Keeps F r (s.showActive) :=
  h.andThen hF (.foldl .refl (fun _ _ h1 => .setFlag h1 rfl))

theorem setActive {x : ℕ} (h : Keeps F r s)
    (hF : Part.within [.now, .regs] F) : Keeps F r (s.setActive x) :=
  h.andThen hF (.showActive (.setFld .refl rfl) rfl)

theorem setLocked {x : ℕ} {b : Bool} (h : Keeps F r s)
    (hF : Part.within [.now, .regs, .notices] F) : Keeps F r (s.setLocked x b) :=
  h.andThen hF (.ite .refl (.notify (.setFlag .refl rfl) rfl))

theorem setHoldover {x : ℕ} {b : Bool} (h : Keeps F r s)
    (hF : Part.within [.now, .regs, .tb, .notices] F) : Keeps F r (s.setHoldover x b) := by
  refine h.andThen hF ?_
  unfold State.setHoldover
  dsimp only
  refine .ite ?_ ?_
  · exact .refl
  · exact .bind (fun h1 => .ite (.bind (fun h2 => .ite (.setTb h2 rfl) h2) (.setLocked h1 rfl)) h1) (.notify
      (.setFlag .refl rfl) rfl)

theorem applyDomCfg {x : ℕ} (h : Keeps F r s)
    (hF : Part.within [.now, .regs, .tb, .notices] F) : Keeps F r (s.applyDomCfg x) := by
  refine h.andThen hF ?_
  unfold State.applyDomCfg
  dsimp only
  refine .ite ?_ ?_
  · exact .setDom .refl rfl
  · exact .bind (fun h1 => .ite (.setReg h1 rfl) h1) (.setFld (.setLocked (.setDom .refl rfl) rfl) rfl)

theorem setRepeater {d : ℕ} {r' : Repeater} (h : Keeps F r s)
    (hF : Part.within [.tb] F) : Keeps F r (s.setRepeater d r') :=
  h.andThen hF (.setTb .refl rfl)

theorem showSlew (h : Keeps F r s)
    (hF : Part.within [.now, .regs] F) : Keeps F r (s.showSlew) :=
  h.andThen hF (.ite (.setFlag (.setFlag .refl rfl) rfl) (.setFlag (.setFlag .refl rfl) rfl))

theorem setPulseOut {k : ℕ} {o : PulseOut} (h : Keeps F r s)
    (hF : Part.within [.tb] F) : Keeps F r (s.setPulseOut k o) :=
  h.andThen hF (.setTb .refl rfl)

theorem missEdges {k t' : ℕ} (h : Keeps F r s)
    (hF : Part.within [.now, .regs, .tb] F) : Keeps F r (s.missEdges k t') := by
  refine h.andThen hF ?_
  unfold State.missEdges
  dsimp only
  split
  · exact .ite (.setFlag (.setPulseOut .refl rfl) rfl) .refl
  · exact .refl

theorem drivePulse {k : ℕ} {active : Bool} (h : Keeps F r s)
    (hF : Part.within [.out] F) : Keeps F r (s.drivePulse k active) :=
  h.andThen hF (.ite .refl (.emit .refl rfl))

theorem stepOutputs {old : Instant} (h : Keeps F r s)
    (hF : Part.within [.now, .regs, .tb] F) : Keeps F r (s.stepOutputs old) := by
  refine h.andThen hF ?_
  unfold State.stepOutputs
  dsimp only
  exact .foldl .refl (fun _ _ h1 => by
    split
    · exact .ite (.missEdges h1 rfl) (.ite (.bind (fun h2 => .ite (.setFlag h2 rfl) h2) (.setPulseOut h1 rfl)) h1)
    · exact h1)

theorem stepLine {t' : Instant} (h : Keeps F r s)
    (hF : Part.within [.now, .regs, .tb] F) : Keeps F r (s.stepLine t') :=
  h.andThen hF (.stepOutputs (.countWrap (.setTb .refl rfl) rfl) rfl)

theorem stepDomain {x : ℕ} {d : ℤ} (h : Keeps F r s)
    (hF : Part.within [.now, .regs, .tb] F) : Keeps F r (s.stepDomain x d) :=
  h.andThen hF (.bind (fun h1 => .ite (.stepLine h1 rfl) h1) (.setFld (.setDom .refl rfl) rfl))

theorem showOffset {x : ℕ} {off : ℤ} (h : Keeps F r s)
    (hF : Part.within [.regs] F) : Keeps F r (s.showOffset x off) :=
  h.andThen hF (.setReg .refl rfl)

theorem servo {x : ℕ} {f : ℤ} (h : Keeps F r s)
    (hF : Part.within [.regs, .tb] F) : Keeps F r (s.servo x f) :=
  h.andThen hF (.setDom .refl rfl)

theorem judgeLock {x : ℕ} {off : ℤ} (h : Keeps F r s)
    (hF : Part.within [.now, .regs, .notices] F) : Keeps F r (s.judgeLock x off) := by
  refine h.andThen hF ?_
  unfold State.judgeLock
  dsimp only
  refine .ite ?_ ?_
  · exact .bind (fun h1 => .ite (.setLocked h1 rfl) h1) (.count .refl rfl)
  · exact .bind (fun h1 => .ite (.setLocked h1 rfl) h1) (.setFld .refl rfl)

theorem measure {x src : ℕ} {off : ℤ} {interval : ℕ} (h : Keeps F r s)
    (hF : Part.within [.now, .regs, .tb, .notices] F) : Keeps F r (s.measure x src off interval) := by
  refine h.andThen hF ?_
  unfold State.measure
  dsimp only
  refine .ite ?_ ?_
  · exact .refl
  · exact .bind (fun h1 => by
      refine .ite ?_ ?_
      · exact h1
      · exact .bind (fun h3 => .ite (.stepDomain h3 rfl) (.judgeLock (.servo h3 rfl) rfl)) (.setDom ((.showOffset
          (.setHoldover (.setFld h1 rfl) rfl) rfl)) rfl))
      (.applyDomCfg .refl rfl)

theorem missMeasurement {x src : ℕ} (h : Keeps F r s)
    (hF : Part.within [.now, .regs, .tb, .notices] F) : Keeps F r (s.missMeasurement x src) := by
  refine h.andThen hF ?_
  unfold State.missMeasurement
  dsimp only
  refine .ite ?_ ?_
  · exact .refl
  · exact .bind (fun h1 => .ite h1 (.bind (fun h2 => .ite (.setHoldover h2 rfl) h2) (.count h1 rfl)))
      (.applyDomCfg .refl rfl)

theorem recordDomains {ago : ℕ} (h : Keeps F r s)
    (hF : Part.within [.tb] F) : Keeps F r (s.recordDomains ago) :=
  h.andThen hF (.setTb .refl rfl)

theorem avenueMeasure {t' : Instant} {off : ℤ} (h : Keeps F r s)
    (hF : Part.within [.now, .regs, .tb, .notices] F) : Keeps F r (s.avenueMeasure t' off) :=
  h.andThen hF (.foldl .refl (fun _ _ h1 => .measure h1 rfl))

theorem avenueMiss (h : Keeps F r s)
    (hF : Part.within [.now, .regs, .tb, .notices] F) : Keeps F r (s.avenueMiss) :=
  h.andThen hF (.foldl .refl (fun _ _ h1 => .missMeasurement h1 rfl))

theorem switchTo {x : ℕ} (h : Keeps F r s)
    (hF : Part.within [.now, .regs, .notices] F) : Keeps F r (s.switchTo x) :=
  h.andThen hF (.notify (.countWrap (.setActive .refl rfl) rfl) rfl)

theorem autoSwitch (h : Keeps F r s)
    (hF : Part.within [.now, .regs, .tb, .notices] F) : Keeps F r (s.autoSwitch) :=
  h.andThen hF (.ite (.bind (fun h1 => .ite (.switchTo h1 rfl) h1) (.setTb .refl rfl)) .refl)

theorem advanceDom {x : ℕ} (h : Keeps F r s)
    (hF : Part.within [.regs, .tb] F) : Keeps F r (s.advanceDom x) :=
  h.andThen hF (.ite .refl (.setDom .refl rfl))

theorem sendRefresh {step : Bool} (h : Keeps F r s)
    (hF : Part.within [.tb] F) : Keeps F r (s.sendRefresh step) :=
  h.andThen hF (.setTb .refl rfl)

theorem tclkCycle (h : Keeps F r s)
    (hF : Part.within [.now, .regs, .tb, .notices] F) : Keeps F r (s.tclkCycle) :=
  h.andThen hF (.bind (fun h1 => .showSlew (.setTb ((.advanceDom (.advanceDom ((.ite (.sendRefresh
      (.setTb h1 rfl) rfl) h1)) rfl) rfl)) rfl) rfl) (.autoSwitch .refl rfl))

theorem mapRepeaters {f : Repeater → Repeater} (h : Keeps F r s)
    (hF : Part.within [.tb] F) : Keeps F r (s.mapRepeaters f) :=
  h.andThen hF (.foldl .refl (fun _ _ h1 => .setRepeater h1 rfl))

theorem takeRefreshes (h : Keeps F r s)
    (hF : Part.within [.tb] F) : Keeps F r (s.takeRefreshes) :=
  h.andThen hF (.foldl ((.setTb .refl rfl)) (fun _ _ h2 => .mapRepeaters h2 rfl))

theorem timeCycle (h : Keeps F r s)
    (hF : Part.within [.now, .regs, .tb, .notices] F) : Keeps F r (s.timeCycle) :=
  h.andThen hF (.bind (fun h1 => .ite h1 (.ite (.tclkCycle (.setTb h1 rfl) rfl) (.setTb h1 rfl))) (.takeRefreshes
      (.mapRepeaters .refl rfl) rfl))

theorem setTsq {d : ℕ} {q : Tsq} (h : Keeps F r s)
    (hF : Part.within [.tb] F) : Keeps F r (s.setTsq d q) :=
  h.andThen hF (.setTb .refl rfl)

theorem tsqPush {d kind index cnt qns sec : ℕ} {corr : Bool} (h : Keeps F r s)
    (hF : Part.within [.now, .regs, .engines, .tb] F) : Keeps F r (s.tsqPush d kind index cnt qns sec corr).1 := by
  refine h.andThen hF ?_
  unfold State.tsqPush
  dsimp only
  refine .ite_fst ?_ ?_
  · exact .setFld (.setFld ((.setTsq .refl rfl)) rfl) rfl
  · exact .fireDistrict (.count (.setTsq .refl rfl) rfl) rfl

theorem tsqHardware {d kind index cnt u : ℕ} (h : Keeps F r s)
    (hF : Part.within [.now, .regs, .engines, .tb] F) : Keeps F r (s.tsqHardware d kind index cnt u).1 :=
  h.andThen hF (.tsqPush .refl rfl)

theorem tclkLoss (h : Keeps F r s)
    (hF : Part.within [.now, .regs, .tb, .out] F) : Keeps F r (s.tclkLoss) := by
  refine h.andThen hF ?_
  unfold State.tclkLoss
  dsimp only
  refine .ite ?_ ?_
  · exact .refl
  · exact .showSlew ((.foldl ((.setTb ((.showActive (.setFlag (.setFld (.setFld .refl rfl) rfl) rfl) rfl)) rfl))
      (fun _ _ h4 => .ite (.drivePulse (.setPulseOut h4 rfl) rfl) h4))) rfl

theorem restoreDom {x : ℕ} (h : Keeps F r s)
    (hF : Part.within [.now, .regs, .tb] F) : Keeps F r (s.restoreDom x) :=
  h.andThen hF (.showActive (.setFld (.setDom .refl rfl) rfl) rfl)

theorem tclkReturn (h : Keeps F r s)
    (hF : Part.within [.now, .regs, .tb] F) : Keeps F r (s.tclkReturn) :=
  h.andThen hF (.showSlew (.restoreDom (.restoreDom ((.foldl ((.setFlag (.setTb .refl rfl) rfl))
      (fun _ _ h3 => .missEdges h3 rfl))) rfl) rfl) rfl)

theorem timeResult {who : Ident} {tag code : ℕ} (h : Keeps F r s)
    (hF : Part.within [.now, .regs] F) : Keeps F r (s.timeResult who tag code) :=
  h.andThen hF (.countCode (.setFlag (.setFld (.setFld .refl rfl) rfl) rfl) rfl)

theorem timeCommand {who : Ident} {tag : ℕ} {codes : List (Bool × ℕ)} {body : State → State} (h
    : Keeps F r s) (hbody : ∀ u, Keeps F r u → Keeps F r (body u))
    (hF : Part.within [.now, .regs] F) : Keeps F r (s.timeCommand who tag codes body) :=
  .oneAtATime h (fun _ h1 => .ite (.timeResult (hbody _ h1) (hF := Part.sub hF rfl)) (.timeResult h1
      (hF := Part.sub hF rfl))) (hF := Part.sub hF rfl)

theorem initDomain {x : ℕ} (h : Keeps F r s)
    (hF : Part.within [.now, .regs, .tb, .notices] F) : Keeps F r (s.initDomain x) :=
  h.andThen hF (.bind (fun h3 => .showSlew ((.ite (.setFlag (.stepLine h3 rfl) rfl) h3)) rfl) (.setFld (.setFld
      ((.setHoldover (.setLocked ((.showActive (.setFld (.setDom .refl rfl) rfl) rfl)) rfl) rfl)) rfl) rfl))

theorem snapshot {v : ℕ} {t' : Instant} (h : Keeps F r s)
    (hF : Part.within [.regs] F) : Keeps F r (s.snapshot v t') :=
  h.andThen hF (.setReg (.setReg (.setReg (.setReg .refl rfl) rfl) rfl) rfl)

theorem execTimeInit {x tag : ℕ} {who : Ident} (h : Keeps F r s)
    {t : State} (ht : execTimeInit x tag who s = .next t) (hF : Part.within [.now, .regs, .tb, .notices] F)
        : Keeps F r t :=
  h.andThen hF (.ofNext ht (.served .refl (fun _ h1 => .timeCommand h1 (fun _ h2 => .initDomain h2 rfl) rfl) rfl))

theorem execTimeStep {x tag : ℕ} {who : Ident} (h : Keeps F r s)
    {t : State} (ht : execTimeStep x tag who s = .next t) (hF : Part.within [.now, .regs, .tb] F) : Keeps F r t :=
  h.andThen hF (.ofNext ht (.served .refl (fun _ h1 => .timeCommand h1 (fun _ h2 => .showSlew
      (.stepDomain h2 rfl) rfl) rfl) rfl))

theorem execTimeRate {x tag : ℕ} {who : Ident} (h : Keeps F r s)
    {t : State} (ht : execTimeRate x tag who s = .next t) (hF : Part.within [.now, .regs, .tb, .notices] F)
        : Keeps F r t :=
  h.andThen hF (.ofNext ht (.served .refl (fun _ h1 => .timeCommand h1 (fun _ h2 => .setHoldover
      (.setDom h2 rfl) rfl) rfl) rfl))

theorem execTimeLock {x tag : ℕ} {who : Ident} (h : Keeps F r s)
    {t : State} (ht : execTimeLock x tag who s = .next t) (hF : Part.within [.now, .regs, .notices] F) : Keeps F r t :=
  h.andThen hF (.ofNext ht (.served .refl (fun _ h1 => .timeCommand h1 (fun _ h2 => .setLocked h2 rfl) rfl) rfl))

theorem execTimeUnlock {x tag : ℕ} {who : Ident} (h : Keeps F r s)
    {t : State} (ht : execTimeUnlock x tag who s = .next t) (hF : Part.within [.now, .regs, .notices] F)
        : Keeps F r t :=
  h.andThen hF (.ofNext ht (.served .refl (fun _ h1 => .timeCommand h1 (fun _ h2 => .setLocked h2 rfl) rfl) rfl))

theorem execTimeSwitch {x tag : ℕ} {who : Ident} (h : Keeps F r s)
    {t : State} (ht : execTimeSwitch x tag who s = .next t) (hF : Part.within [.now, .regs, .notices] F)
        : Keeps F r t :=
  h.andThen hF (.ofNext ht (.served .refl (fun _ h1 => .timeCommand h1 (fun _ h2 => .ite h2 (.showSlew
      (.switchTo h2 rfl) rfl)) rfl) rfl))

theorem execTimeSnap {tag : ℕ} {who : Ident} (h : Keeps F r s)
    {t : State} (ht : execTimeSnap tag who s = .next t) (hF : Part.within [.now, .regs] F) : Keeps F r t :=
  h.andThen hF (.ofNext ht (.served .refl (fun _ h1 => .timeCommand h1 (fun _ h2 => .snapshot (.snapshot
      (.snapshot h2 rfl) rfl) rfl) rfl) rfl))

theorem execTimeCfg {v : Word} {who : Ident} (h : Keeps F r s)
    {t : State} (ht : execTimeCfg v who s = .next t) (hF : Part.within [.now, .regs, .tb, .notices, .out] F)
        : Keeps F r t :=
  h.andThen hF (.ofNext ht (.served .refl (fun _ h1 => .ite (.setFlag h1 rfl) (.ite (.wrongState h1 rfl) (.bind
      (fun h2 => .ite (.notify (.setFlag (.setFlag (.tclkLoss h2 rfl) rfl) rfl) rfl) h2) (.setReg h1 rfl)))) rfl))

theorem execTimeDomCfg {x : ℕ} {v : Word} (h : Keeps F r s)
    {t : State} (ht : execTimeDomCfg x v s = .next t) (hF : Part.within [.now, .regs, .tb, .notices] F) : Keeps F r t :=
  h.andThen hF (.ofNext ht (.live .refl (fun _ h1 => .ite (.setFlag h1 rfl) (.bind (fun h2 => .ite
      (.applyDomCfg h2 rfl) h2) (.setReg h1 rfl)))))

theorem execSoftwareHoldoverTimeout {x : ℕ} (h : Keeps F r s)
    {t : State} (ht : execSoftwareHoldoverTimeout x s = .next t) (hF : Part.within [.now, .regs, .tb, .notices] F)
        : Keeps F r t :=
  h.andThen hF (.ofNext ht (.live .refl (fun _ h1 => .ite (.setHoldover h1 rfl) h1)))

theorem enablePps {n : ℕ} (h : Keeps F r s)
    (hF : Part.within [.regs, .tb] F) : Keeps F r (s.enablePps n) :=
  h.andThen hF (.foldl (.setTb .refl rfl) (fun _ _ h1 => .ite (.setDom h1 rfl) h1))

theorem ppsCross {n old : ℕ} (h : Keeps F r s)
    (hF : Part.within [.now, .regs, .engines, .tb, .notices] F) : Keeps F r (s.ppsCross n old) := by
  refine h.andThen hF ?_
  unfold State.ppsCross
  dsimp only
  refine .ite ?_ ?_
  · exact .refl
  · refine .ite ?_ ?_
    · exact .bind (fun h1 => .foldl ((.fire (.countWrap ((.setReg ((.setFlag (.setFld ((.ite
        (.setFlag h1 rfl) h1)) rfl) rfl)) rfl)) rfl) rfl)) (fun _ _ h6 => .ite (.measure ((.setDom h6 rfl)) rfl) h6))
            (.setTb .refl rfl)
    · exact .count .refl rfl

theorem execPpsEdge {n : ℕ} {falling : Bool} (h : Keeps F r s)
    {t : State} (ht : execPpsEdge n falling s = .next t)
        (hF : Part.within [.now, .regs, .syncs, .merges, .engines, .tb, .notices] F) : Keeps F r t :=
  h.andThen hF (.ofNext ht (.live .refl (fun _ h1 => .ite h1 (.raiseLine h1 (fun _ h2 => .ppsCross h2 rfl) rfl))))

theorem execPpsMissingMeasurement {x : ℕ} (h : Keeps F r s)
    {t : State} (ht : execPpsMissingMeasurement x s = .next t) (hF : Part.within [.now, .regs, .tb, .notices] F)
        : Keeps F r t :=
  h.andThen hF (.ofNext ht (.live .refl (fun _ h1 => .ite (.missMeasurement (.setDom h1 rfl) rfl) h1)))

theorem execTclkLockReturn (h : Keeps F r s)
    {t : State} (ht : execTclkLockReturn s = .next t) (hF : Part.within [.now, .regs, .tb] F) : Keeps F r t :=
  h.andThen hF (.ofNext ht (.live .refl (fun _ h1 => .ite (.setFlag (.tclkReturn h1 rfl) rfl) h1)))

theorem execRepeaterRefresh (h : Keeps F r s)
    {t : State} (ht : execRepeaterRefresh s = .next t) (hF : Part.within [.tb] F) : Keeps F r t :=
  h.andThen hF (.ofNext ht (.live .refl (fun _ h1 => .ite (.sendRefresh (.setTb h1 rfl) rfl) h1)))

theorem execTsqRelease {d : ℕ} {v : Word} {who : Ident} (h : Keeps F r s)
    {t : State} (ht : execTsqRelease d v who s = .next t) (hF : Part.within [.now, .regs, .engines] F) : Keeps F r t :=
  h.andThen hF (.ofNext ht (.served .refl (fun _ h1 => .ite (.absentHit h1 rfl) (.ite (.refuseStore h1 rfl) (.ite
      (.setFlag h1 rfl) (.setFld (.setFld h1 rfl) rfl)))) rfl))

theorem execTimeOutArm {k : ℕ} {v : Word} (h : Keeps F r s)
    {t : State} (ht : execTimeOutArm k v s = .next t) (hF : Part.within [.now, .regs, .tb, .out] F) : Keeps F r t :=
  h.andThen hF (.ofNext ht (.live .refl (fun _ h1 => .ite (.setFlag h1 rfl) (.bind (fun h2 => .bind (fun h3 => .ite
      (.drivePulse (.setPulseOut h3 rfl) rfl) (.missEdges (.drivePulse ((.setPulseOut h3 rfl)) rfl) rfl)) (.ite
          (.setFlag h2 rfl) h2)) (.setFld (.setFld h1 rfl) rfl)))))

theorem execPulseLeadingEdge {k : ℕ} (h : Keeps F r s)
    {t : State} (ht : execPulseLeadingEdge k s = .next t) (hF : Part.within [.now, .regs, .engines, .tb, .out] F)
        : Keeps F r t := by
  refine h.andThen hF (.ofNext ht ?_)
  dsimp only
  exact .live .refl (fun _ h1 => by
    split
    · exact .ite (.ite (.setFlag (.setPulseOut h1 rfl) rfl) (.fire (.drivePulse (.setPulseOut h1 rfl) rfl) rfl)) h1
    · exact h1)

theorem execPulseTrailingEdge {k : ℕ} (h : Keeps F r s)
    {t : State} (ht : execPulseTrailingEdge k s = .next t) (hF : Part.within [.tb, .out] F) : Keeps F r t := by
  refine h.andThen hF (.ofNext ht ?_)
  dsimp only
  exact .live .refl (fun _ h1 => by
    split
    · exact .ite (.drivePulse (.setPulseOut h1 rfl) rfl) h1
    · exact h1)

theorem execSlewingEnd (h : Keeps F r s)
    {t : State} (ht : execSlewingEnd s = .next t) (hF : Part.within [.now, .regs] F) : Keeps F r t :=
  h.andThen hF (.ofNext ht (.live .refl (fun _ h1 => .showSlew h1 rfl)))

theorem setMaster {own : Bool} {node : ℕ} (h : Keeps F r s)
    (hF : Part.within [.now, .regs] F) : Keeps F r (s.setMaster own node) :=
  h.andThen hF (.setFld (.setFlag .refl rfl) rfl)

theorem resetRing {d q : ℕ} (h : Keeps F r s)
    (hF : Part.within [.regs, .ave] F) : Keeps F r (s.resetRing d q) :=
  h.andThen hF (.setAve (.setReg .refl rfl) rfl)

theorem resetRings {old : ℕ → Word} (h : Keeps F r s)
    (hF : Part.within [.regs, .ave] F) : Keeps F r (s.resetRings old) :=
  h.andThen hF (.foldl .refl (fun _ _ h1 => .foldl h1 (fun _ _ h2 => .ite h2 (.resetRing h2 rfl))))

theorem remapOwn (h : Keeps F r s)
    (hF : Part.within [.now, .regs, .ave] F) : Keeps F r (s.remapOwn) :=
  h.andThen hF (.setFlag (.setFld ((.setAve .refl rfl)) rfl) rfl)

theorem coldChange {was : Bool} (h : Keeps F r s)
    (hF : Part.within [.ave] F) : Keeps F r (s.coldChange was) :=
  h.andThen hF (.ite .refl (.ite (.setAve .refl rfl) (.ite (.startListening .refl rfl) .refl)))

theorem applyAve (h : Keeps F r s)
    (hF : Part.within [.now, .regs, .shadow, .leases, .ave] F) : Keeps F r (s.applyAve) :=
  h.andThen hF (.bind (fun h4 => .endApply ((.ite h4 (.ite (.setAve h4 rfl) (.setAve h4 rfl)))) rfl) (.setFlag
      ((.setAve ((.coldChange (.remapOwn (.resetRings ((.countWrap
          (.applyShadow .refl rfl) rfl)) rfl) rfl) rfl)) rfl)) rfl))

theorem applyAveAt {n : ℕ} (h : Keeps F r s)
    (hF : Part.within [.now, .regs, .shadow, .leases, .ave] F) : Keeps F r (s.applyAveAt n) :=
  h.andThen hF (.ite (.applyAve .refl rfl) .refl)

theorem startLen (h : Keeps F r s)
    (hF : Part.within [.now, .regs, .districts, .ave] F) : Keeps F r (s.startLen) :=
  h.andThen hF (.bind (fun h1 => .expectLen (.ite (.phaseMove h1 rfl) h1) rfl) (.setAve .refl rfl))

theorem buildRef (h : Keeps F r s)
    (hF : Part.within [.ave] F) : Keeps F r (s.buildRef) :=
  h.andThen hF (.ite (.setAve .refl rfl) .refl)

theorem showRef {ring : Bool} {m : RefMsg} {own : Option RefMsg} (h : Keeps F r s)
    (hF : Part.within [.ave, .out] F) : Keeps F r (s.showRef ring m own) :=
  h.andThen hF (.setAve (.emit .refl rfl) rfl)

theorem holdWindow (h : Keeps F r s)
    (hF : Part.within [.now, .regs, .engines, .ave] F) : Keeps F r (s.holdWindow) := by
  refine h.andThen hF ?_
  unfold State.holdWindow
  dsimp only
  split
  · exact .ite (.fire ((by
      split
      · exact .holdRef ((.setAve .refl rfl)) rfl
      · exact (.setAve .refl rfl))) rfl) .refl
  · exact .refl

theorem sendMaster {cold : Bool} (h : Keeps F r s)
    (hF : Part.within [.ave, .out] F) : Keeps F r (s.sendMaster cold) :=
  h.andThen hF (.setAve ((.showRef .refl rfl)) rfl)

theorem coldStart (h : Keeps F r s)
    (hF : Part.within [.now, .regs, .districts, .ave, .notices, .out] F) : Keeps F r (s.coldStart) :=
  h.andThen hF (.sendMaster (.setAve ((.setAveState (.setMaster ((.setCycleStart (.setFld
      ((.setAve .refl rfl)) rfl) rfl)) rfl) rfl)) rfl) rfl)

theorem endColdStart (h : Keeps F r s)
    (hF : Part.within [.now, .regs, .notices] F) : Keeps F r (s.endColdStart) :=
  h.andThen hF (.ite .refl (.setAveState (.setMaster .refl rfl) rfl))

theorem releaseAbsent (h : Keeps F r s)
    (hF : Part.within [.ave] F) : Keeps F r (s.releaseAbsent) :=
  h.andThen hF (.setAve .refl rfl)

theorem countRing (h : Keeps F r s)
    (hF : Part.within [.now, .regs] F) : Keeps F r (s.countRing) := by
  refine h.andThen hF ?_
  unfold State.countRing
  dsimp only
  refine .ite ?_ ?_
  · exact .foldl .refl (fun _ _ h1 => .ite (by
    split
    · exact .ite (.count h1 rfl) h1
    · exact .count h1 rfl) h1)
  · exact .refl

theorem endCycle (h : Keeps F r s)
    (hF : Part.within [.now, .regs, .ave, .tb, .notices] F) : Keeps F r (s.endCycle) :=
  h.andThen hF (.bind (fun h1 => .countRing ((.ite (.avenueMiss h1 rfl) h1)) rfl) (.endUncorrected .refl rfl))

theorem startRun (h : Keeps F r s)
    (hF : Part.within [.now, .regs, .modeCmd, .msixPba, .ave, .out] F) : Keeps F r (s.startRun) :=
  h.andThen hF (.ite (.endMode (.setMode (.setAve .refl rfl) rfl) rfl) .refl)

theorem openCycle (h : Keeps F r s)
    (hF : Part.within [.ave, .out] F) : Keeps F r (s.openCycle) := by
  refine h.andThen hF ?_
  unfold State.openCycle
  refine .ite ?_ ?_
  · exact .sendMaster (.releaseAbsent .refl rfl) rfl
  · split
    · exact .showRef .refl rfl
    · exact .refl

theorem aveCycleStart (h : Keeps F r s)
    (hF : Part.within [.now, .regs, .shadow, .leases, .modeCmd, .msixPba, .districts, .ave, .tb, .notices, .out] F)
        : Keeps F r (s.aveCycleStart) :=
  h.andThen hF (.bind (fun h1 => .bind (fun h6 => .ite (.coldStart h6 rfl) (.openCycle h6 rfl)) (.startRun
      (.recordDomains ((.startLen (.applyAveAt ((.setAve ((.countWrap ((.ite
          (.endColdStart h1 rfl) h1)) rfl)) rfl)) rfl) rfl)) rfl) rfl)) (.endCycle .refl rfl))

theorem takeCycle {m : RefMsg} {p : ℕ} (h : Keeps F r s)
    (hF : Part.within [.now, .regs, .districts, .ave, .tb] F) : Keeps F r (s.takeCycle m p) :=
  h.andThen hF (.recordDomains (.setCycleStart (.setFld .refl rfl) rfl) rfl)

theorem integrateOn {m : RefMsg} {p : ℕ} (h : Keeps F r s)
    (hF : Part.within [.now, .regs, .districts, .ave, .tb, .notices] F) : Keeps F r (s.integrateOn m p) :=
  h.andThen hF (.avenueMeasure (.holdRef (.setAveState (.setMaster ((.setAve
      ((.takeCycle .refl rfl)) rfl)) rfl) rfl) rfl) rfl)

theorem listenAgain (h : Keeps F r s)
    (hF : Part.within [.now, .regs, .ave, .notices] F) : Keeps F r (s.listenAgain) :=
  h.andThen hF (.startListening (.setAve (.setAveState (.setMaster .refl rfl) rfl) rfl) rfl)

theorem missRef (h : Keeps F r s)
    (hF : Part.within [.now, .regs, .ave, .notices] F) : Keeps F r (s.missRef) := by
  refine h.andThen hF ?_
  unfold State.missRef
  dsimp only
  refine .ite ?_ ?_
  · exact .refl
  · exact .bind (fun h1 => .ite (.setAve ((.setMaster h1 rfl)) rfl) (.ite (.startListening
      (.setAveState h1 rfl) rfl) h1)) (.count (.setAve .refl rfl) rfl)

theorem followRef {m : RefMsg} {off : ℤ} (h : Keeps F r s)
    (hF : Part.within [.now, .regs, .districts, .ave, .tb, .notices] F) : Keeps F r (s.followRef m off) :=
  h.andThen hF (.avenueMeasure (.correct ((.holdRef (.setAve .refl rfl) rfl)) rfl) rfl)

theorem judgeOff {big : ℕ} (h : Keeps F r s)
    (hF : Part.within [.regs, .ave, .notices] F) : Keeps F r (s.judgeOff big) :=
  h.andThen hF (.bind (fun h1 => .ite (.setAve (.setAveState h1 rfl) rfl) h1) (.setAve .refl rfl))

theorem refIntegrated {m : RefMsg} {off : ℤ} (h : Keeps F r s)
    (hF : Part.within [.now, .regs, .districts, .ave, .tb, .notices] F) : Keeps F r (s.refIntegrated m off) :=
  h.andThen hF (.ite (.ite .refl (.judgeOff (.missRef (.count .refl rfl) rfl) rfl)) (.judgeOff
      (.followRef .refl rfl) rfl))

theorem refReintegrating {m : RefMsg} {p : ℕ} {off : ℤ} (h : Keeps F r s)
    (hF : Part.within [.now, .regs, .districts, .ave, .tb, .notices] F) : Keeps F r (s.refReintegrating m p off) := by
  refine h.andThen hF ?_
  unfold State.refReintegrating
  dsimp only
  refine .ite ?_ ?_
  · exact .avenueMeasure (.holdRef (.setAve ((.takeCycle .refl rfl)) rfl) rfl) rfl
  · refine .ite ?_ ?_
    · exact .missRef (.count .refl rfl) rfl
    · exact .bind (fun h2 => .ite (.setAveState h2 rfl) h2) (.setAve ((.followRef .refl rfl)) rfl)

theorem takeRef {m : RefMsg} {port : ℕ} (h : Keeps F r s)
    (hF : Part.within [.now, .regs, .districts, .ave, .tb, .notices] F) : Keeps F r (s.takeRef m port) := by
  refine h.andThen hF ?_
  unfold State.takeRef
  dsimp only
  refine .ite ?_ ?_
  · exact .refl
  · refine .ite ?_ ?_
    · exact .integrateOn .refl rfl
    · refine .ite ?_ ?_
      · refine .ite ?_ ?_
        · exact .ite (.listenAgain .refl rfl) (.ite (.integrateOn .refl rfl) .refl)
        · exact .ite .refl (.ite (.followRef (.setAveState .refl rfl) rfl) (.integrateOn .refl rfl))
      · refine .ite ?_ ?_
        · exact .ite (.listenAgain .refl rfl) .refl
        · refine .ite ?_ ?_
          · refine .ite ?_ ?_
            · exact .ite .refl (.integrateOn .refl rfl)
            · refine .ite ?_ ?_
              · exact .refl
              · exact .ite .refl (.bind (fun h1 => .ite (.refIntegrated h1 rfl) (.refReintegrating h1 rfl))
                  (.setMaster .refl rfl))
          · exact .refl

theorem execRef {m : RefMsg} {port : ℕ} (h : Keeps F r s)
    {t : State} (ht : execRef m port s = .next t) (hF : Part.within [.now, .regs, .districts, .ave, .tb, .notices] F)
        : Keeps F r t :=
  h.andThen hF (.ofNext ht (.live .refl (fun _ h1 => .ite h1 (.takeRef h1 rfl))))

theorem execReferenceMiss (h : Keeps F r s)
    {t : State} (ht : execReferenceMiss s = .next t) (hF : Part.within [.now, .regs, .ave, .notices] F) : Keeps F r t :=
  h.andThen hF (.ofNext ht (.live .refl (fun _ h1 => .ite (.missRef h1 rfl) h1)))

theorem execColdstartTimeout (h : Keeps F r s)
    {t : State} (ht : execColdstartTimeout s = .next t)
        (hF : Part.within [.now, .regs, .districts, .ave, .notices, .out] F) : Keeps F r t := by
  refine h.andThen hF (.ofNext ht ?_)
  dsimp only
  exact .live .refl (fun _ h1 => by
    split
    · exact .ite (.ite (.coldStart h1 rfl) (.ite (.setAve h1 rfl) h1)) h1
    · exact h1)

theorem execColdstartCheckEnd (h : Keeps F r s)
    {t : State} (ht : execColdstartCheckEnd s = .next t) (hF : Part.within [.now, .regs, .notices] F) : Keeps F r t :=
  h.andThen hF (.ofNext ht (.live .refl (fun _ h1 => .ite (.endColdStart h1 rfl) h1)))

theorem execReint (h : Keeps F r s)
    {t : State} (ht : execReint s = .next t) (hF : Part.within [.regs, .ave, .notices] F) : Keeps F r t :=
  h.andThen hF (.ofNext ht (.live .refl (fun _ h1 => .ite (.setAve (.setAveState h1 rfl) rfl) h1)))

theorem fileClaim {who : Ident} {slot l : ℕ} {release : Bool} (h : Keeps F r s)
    (hF : Part.within [.now, .regs, .engines, .ave] F) : Keeps F r (s.fileClaim who slot l release) := by
  refine h.andThen hF ?_
  unfold State.fileClaim
  dsimp only
  refine .ite ?_ ?_
  · exact .refuseStore .refl rfl
  · exact .oneAtATime .refl (fun _ h1 => .ite (.setFlag (.setFld ((.setAve h1 rfl)) rfl) rfl) (.countCode (.setFlag
      (.setFld h1 rfl) rfl) rfl)) rfl

theorem takeClaim {c : Claim} (h : Keeps F r s)
    (hF : Part.within [.ave] F) : Keeps F r (s.takeClaim c) :=
  h.andThen hF (.ite (.setAve .refl rfl) .refl)

theorem execAveClaim {slot l : ℕ} {who : Ident} (h : Keeps F r s)
    {t : State} (ht : execAveClaim slot l who s = .next t) (hF : Part.within [.now, .regs, .engines, .ave] F)
        : Keeps F r t :=
  h.andThen hF (.ofNext ht (.served .refl (fun _ h1 => .fileClaim h1 rfl) rfl))

theorem execAveClaimRelease {slot l : ℕ} {who : Ident} (h : Keeps F r s)
    {t : State} (ht : execAveClaimRelease slot l who s = .next t) (hF : Part.within [.now, .regs, .engines, .ave] F)
        : Keeps F r t :=
  h.andThen hF (.ofNext ht (.served .refl (fun _ h1 => .fileClaim h1 rfl) rfl))

theorem execClaimMinislot {c : ℕ} (h : Keeps F r s)
    {t : State} (ht : execClaimMinislot c s = .next t) (hF : Part.within [.ave, .out] F) : Keeps F r t := by
  refine h.andThen hF (.ofNext ht ?_)
  dsimp only
  exact .live .refl (fun _ h1 => by
    split
    · exact .ite (.takeClaim (.emit ((.setAve h1 rfl)) rfl) rfl) h1
    · exact h1)

theorem execClaim {c : Claim} (h : Keeps F r s)
    {t : State} (ht : execClaim c s = .next t) (hF : Part.within [.ave] F) : Keeps F r t :=
  h.andThen hF (.ofNext ht (.live .refl (fun _ h1 => .takeClaim h1 rfl)))

theorem execClaimEvaluation (h : Keeps F r s)
    {t : State} (ht : execClaimEvaluation s = .next t) (hF : Part.within [.ave] F) : Keeps F r t :=
  h.andThen hF (.ofNext ht (.live .refl (fun _ h1 => .ite (.setAve h1 rfl) h1)))

theorem execClaimTimeout (h : Keeps F r s)
    {t : State} (ht : execClaimTimeout s = .next t) (hF : Part.within [.now, .regs, .ave] F) : Keeps F r t := by
  refine h.andThen hF (.ofNext ht ?_)
  exact .live .refl (fun _ h1 => by
    split
    · split
      · exact .ite (.claimResult h1 rfl) h1
      · exact h1
    · exact h1)

theorem wilernDown {n : ℕ} (h : Keeps F r s)
    (hF : Part.within [.regs, .ave] F) : Keeps F r (s.wilernDown n) :=
  h.andThen hF (.setAve (.setFld (.setFld .refl rfl) rfl) rfl)

theorem setTraining {n step : ℕ} (h : Keeps F r s)
    (hF : Part.within [.ave] F) : Keeps F r (s.setTraining n step) :=
  h.andThen hF (.setAve .refl rfl)

theorem startTraining {n : ℕ} (h : Keeps F r s)
    (hF : Part.within [.regs, .ave] F) : Keeps F r (s.startTraining n) :=
  h.andThen hF (.setFld (.setTraining .refl rfl) rfl)

theorem wilernUp {n : ℕ} (h : Keeps F r s)
    (hF : Part.within [.regs, .ave] F) : Keeps F r (s.wilernUp n) :=
  h.andThen hF (.setAve (.setFld .refl rfl) rfl)

theorem trainStep {n : ℕ} {x' : TrainStep} (h : Keeps F r s)
    (hF : Part.within [.now, .regs, .ave] F) : Keeps F r (s.trainStep n x') := by
  refine h.andThen hF ?_
  unfold State.trainStep
  dsimp only
  split
  · exact .ite (.setTraining .refl rfl) (.wilernDown .refl rfl)
  · exact .ite (.setTraining (.setFld .refl rfl) rfl) (.wilernDown .refl rfl)
  · exact .ite (.setTraining .refl rfl) (.wilernDown .refl rfl)
  · exact .setTraining (.setFld (.setFlag (.setFld (.setFld .refl rfl) rfl) rfl) rfl) rfl
  · exact .ite (.setFld .refl rfl) (.bind (fun h1 => .ite (.wilernUp h1 rfl) (.setFld h1 rfl)) (.setFld .refl rfl))
  · exact .showMap .refl rfl
  · exact .wilernDown .refl rfl

theorem aloneMap {broken : Bool} (h : Keeps F r s)
    (hF : Part.within [.now, .regs, .ave] F) : Keeps F r (s.aloneMap broken) :=
  h.andThen hF (.setFlag (.setFlag (.setFld ((.setFlag (.setFlag ((.setFld (.setFld
      ((.setAve .refl rfl)) rfl) rfl)) rfl) rfl)) rfl) rfl) rfl)

theorem execWilernEnable {n : ℕ} (h : Keeps F r s)
    {t : State} (ht : execWilernEnable n s = .next t) (hF : Part.within [.now, .regs, .ave] F) : Keeps F r t :=
  h.andThen hF (.ofNext ht (.live .refl (fun _ h1 => .ite (.bind (fun h2 => .ite (.startTraining h2 rfl) h2) (.ite
      (.setFlag h1 rfl) (.setFlag h1 rfl))) h1)))

theorem execTrainingStepDone {n : ℕ} {t' : TrainStep} (h : Keeps F r s)
    {t : State} (ht : execTrainingStepDone n t' s = .next t) (hF : Part.within [.now, .regs, .ave] F)
        : Keeps F r t := by
  refine h.andThen hF (.ofNext ht ?_)
  exact .live .refl (fun _ h1 => by
    split
    · exact .ite (.trainStep h1 rfl) h1
    · exact .ite (.trainStep h1 rfl) h1
    · exact .ite (.trainStep h1 rfl) h1)

theorem execTrainingRetry {n : ℕ} (h : Keeps F r s)
    {t : State} (ht : execTrainingRetry n s = .next t) (hF : Part.within [.regs, .ave] F) : Keeps F r t :=
  h.andThen hF (.ofNext ht (.live .refl (fun _ h1 => .ite (.startTraining h1 rfl) h1)))

theorem wilernLoss {n : ℕ} (h : Keeps F r s)
    (hF : Part.within [.now, .regs, .ave] F) : Keeps F r (s.wilernLoss n) :=
  h.andThen hF (.ite (.bind (fun h1 => .ite (.setFlag h1 rfl) (.aloneMap h1 rfl)) (.count
      (.wilernDown .refl rfl) rfl)) .refl)

theorem execWilernLinkDown {n : ℕ} (h : Keeps F r s)
    {t : State} (ht : execWilernLinkDown n s = .next t) (hF : Part.within [.now, .regs, .ave] F) : Keeps F r t :=
  h.andThen hF (.ofNext ht (.live .refl (fun _ h1 => .wilernLoss h1 rfl)))

theorem holdReplay {k port : ℕ} {msgs : List Msg} (h : Keeps F r s)
    (hF : Part.within [.ave] F) : Keeps F r (s.holdReplay k port msgs) :=
  h.andThen hF (.ite (.setAve .refl rfl) (.setAve .refl rfl))

theorem checkRelay {port : ℕ} {x' : RelayFrame} (h : Keeps F r s)
    (hF : Part.within [.now, .regs, .ave] F) : Keeps F r (s.checkRelay port x') := by
  refine h.andThen hF ?_
  unfold State.checkRelay
  split
  · exact .ite (.count .refl rfl) (.ite (.count .refl rfl) (.holdReplay .refl rfl))
  · exact .refl

theorem execRelayFrame {n origin : ℕ} {f : RelayFrame} (h : Keeps F r s)
    {t : State} (ht : execRelayFrame n origin f s = .next t) (hF : Part.within [.now, .regs, .ave, .out] F)
        : Keeps F r t :=
  h.andThen hF (.ofNext ht (.live .refl (fun _ h1 => .ite h1 (.checkRelay ((.ite (.emit h1 rfl) h1)) rfl))))

theorem execAveGwPtr {d q : ℕ} {v : Word} (h : Keeps F r s)
    {t : State} (ht : execAveGwPtr d q v s = .next t) (hF : Part.within [.now, .regs, .ave] F) : Keeps F r t :=
  h.andThen hF (.ofNext ht (.live .refl (fun _ h1 => .ite (.absentHit h1 rfl) (.ite (.ite (.setFld
      (.noteTail h1 rfl) rfl) (.setFlag h1 rfl)) (.ite (.setFld h1 rfl) (.setFlag h1 rfl))))))

theorem setRed {r' : Redundancy} (h : Keeps F r s)
    (hF : Part.within [.red] F) : Keeps F r (s.setRed r') :=
  h.andThen hF (.with_red .refl rfl)

theorem setFlowCtx {consumer flow : ℕ} {c : Option FlowCtx} (h : Keeps F r s)
    (hF : Part.within [.red] F) : Keeps F r (s.setFlowCtx consumer flow c) :=
  h.andThen hF (.setRed .refl rfl)

theorem setPair {p : ℕ} {x : Pair} (h : Keeps F r s)
    (hF : Part.within [.red] F) : Keeps F r (s.setPair p x) :=
  h.andThen hF (.setRed .refl rfl)

theorem setPairSlot {p m : ℕ} {x : PairSlot} (h : Keeps F r s)
    (hF : Part.within [.red] F) : Keeps F r (s.setPairSlot p m x) :=
  h.andThen hF (.setPair .refl rfl)

theorem redNote {p m : ℕ} (h : Keeps F r s)
    (hF : Part.within [.now, .regs, .engines] F) : Keeps F r (s.redNote p m) := by
  refine h.andThen hF ?_
  unfold State.redNote
  split
  · exact .ite .refl (.fireEngine .refl rfl)
  · exact .refl

theorem divergence {flow : ℕ} (h : Keeps F r s)
    (hF : Part.within [.now, .regs, .engines] F) : Keeps F r (s.divergence flow) := by
  refine h.andThen hF ?_
  unfold State.divergence
  dsimp only
  split
  · exact .redNote (.redNote ((.count .refl rfl)) rfl) rfl
  · exact (.count .refl rfl)

theorem judge {consumer flow seq digest : ℕ} (h : Keeps F r s)
    (hF : Part.within [.now, .regs, .engines, .red] F) : Keeps F r (s.judge consumer flow seq digest).2 := by
  refine h.andThen hF ?_
  unfold State.judge
  dsimp only
  split
  · exact .setFlowCtx .refl rfl
  · refine .ite_snd ?_ ?_
    · exact (.ite (.count ((.setFlowCtx .refl rfl)) rfl) ((.setFlowCtx .refl rfl)))
    · refine .ite_snd ?_ ?_
      · exact .divergence ((.ite (.count ((.setFlowCtx .refl rfl)) rfl) ((.setFlowCtx .refl rfl)))) rfl
      · exact (.ite (.count ((.setFlowCtx .refl rfl)) rfl) ((.setFlowCtx .refl rfl)))

theorem judgeCounted {consumer flow seq digest : ℕ} (h : Keeps F r s)
    (hF : Part.within [.now, .regs, .engines, .red] F) : Keeps F r (s.judgeCounted consumer flow seq digest).2 := by
  refine h.andThen hF ?_
  unfold State.judgeCounted
  dsimp only
  refine .ite_snd ?_ ?_
  · exact .judge .refl rfl
  · exact .count (.judge .refl rfl) rfl

theorem resetFlow {flow : ℕ} (h : Keeps F r s)
    (hF : Part.within [.red] F) : Keeps F r (s.resetFlow flow) :=
  h.andThen hF (.setRed .refl rfl)

theorem showPrp {t' : List PrpEntry} (h : Keeps F r s)
    (hF : Part.within [.regs, .red] F) : Keeps F r (s.showPrp t') :=
  h.andThen hF (.setFld (.setRed .refl rfl) rfl)

theorem prpJudge {sa seq group port : ℕ} (h : Keeps F r s)
    (hF : Part.within [.now, .regs, .red] F) : Keeps F r (s.prpJudge sa seq group port).2 := by
  refine h.andThen hF ?_
  unfold State.prpJudge
  dsimp only
  refine .ite_snd ?_ ?_
  · exact .showPrp .refl rfl
  · refine .ite_snd ?_ ?_
    · exact .count (.showPrp .refl rfl) rfl
    · exact .showPrp .refl rfl

theorem hostWrite {who : Ident} {a : ℕ} {body : State → State} (h
    : Keeps F r s) (hbody : ∀ u, Keeps F r u → Keeps F r (body u))
    (hF : Part.within [.now, .regs, .engines] F) : Keeps F r (s.hostWrite who a body) := by
  unfold State.hostWrite
  refine .ite ?_ ?_
  · exact .refuseStore h (hF := Part.sub hF rfl)
  · exact .ite (.overHclk h (fun _ h1 => hbody _ h1) (hF := Part.sub hF rfl)) h

theorem nvResult {code : ℕ} {done : Bool} (h : Keeps F r s)
    (hF : Part.within [.now, .regs] F) : Keeps F r (s.nvResult code done) :=
  h.andThen hF (.setFlag (.setFld .refl rfl) rfl)

theorem nvCommand {who : Ident} {body : State → State} (h : Keeps F r s) (hbody : ∀ u, Keeps F r u → Keeps F r (body u))
    (hF : Part.within [.now, .regs, .engines] F) : Keeps F r (s.nvCommand who body) :=
  .hostWrite h (fun _ h1 => .oneAtATime h1 (fun _ h2 => hbody _ h2) (hF := Part.sub hF rfl)) (hF := Part.sub hF rfl)

theorem nvRefuse {who : Ident} {code : ℕ} (h : Keeps F r s)
    (hF : Part.within [.now, .regs] F) : Keeps F r (s.nvRefuse who code) :=
  h.andThen hF (.countCode (.nvResult .refl rfl) rfl)

theorem nvStart {j : NvJob} (h : Keeps F r s)
    (hF : Part.within [.now, .regs, .nv] F) : Keeps F r (s.nvStart j) :=
  h.andThen hF (.setReg (.nvResult (.with_nv .refl rfl) rfl) rfl)

theorem nvEnd {code : ℕ} (h : Keeps F r s)
    (hF : Part.within [.now, .regs, .nv] F) : Keeps F r (s.nvEnd code) :=
  h.andThen hF (.nvResult (.with_nv .refl rfl) rfl)

theorem nvLow {j : NvJob} (h : Keeps F r s)
    (hF : Part.within [.now, .regs, .nv] F) : Keeps F r (s.nvLow j) :=
  h.andThen hF (.nvEnd (.with_now .refl rfl) rfl)

theorem supLow (h : Keeps F r s)
    (hF : Part.within [.now, .sup] F) : Keeps F r (s.supLow) :=
  h.andThen hF (.with_now_sup .refl rfl)

theorem loadNvData {bs : List Byte} (h : Keeps F r s)
    (hF : Part.within [.regs] F) : Keeps F r (s.loadNvData bs) :=
  h.andThen hF (.foldl .refl (fun _ _ h1 => .setReg h1 rfl))

theorem writeRow {a : ℕ} {bs : List Byte} (h : Keeps F r s) (hF : Part.within [.mram] F) :
    Keeps F r (s.writeRow a bs) :=
  h.andThen hF (.with_mram .refl (Mem.wf_writeBytes bs a) rfl)

theorem startRow (h : Keeps F r s)
    (hF : Part.within [.now, .regs, .nv, .sup] F) : Keeps F r (s.startRow) := by
  refine h.andThen hF ?_
  unfold State.startRow
  dsimp only
  refine .ite ?_ ?_
  · exact .refl
  · refine .ite ?_ ?_
    · exact .with_sup ((.ite (.supLow .refl rfl) .refl)) rfl
    · split
      · refine .ite ?_ ?_
        · exact (.ite (.supLow .refl rfl) .refl)
        · exact .ite (.nvLow ((.ite (.supLow .refl rfl) .refl)) rfl) (.with_nv ((.ite (.supLow .refl rfl) .refl)) rfl)
      · exact (.ite (.supLow .refl rfl) .refl)

theorem offerRows {rows : List SupRow} (h : Keeps F r s) (hF : Part.within [.now, .regs, .nv, .sup] F) :
    Keeps F r (s.offerRows rows) := by
  refine h.andThen hF ?_
  have hRows : Keeps [.now, .regs, .nv,
      .sup] s { s with sup := { s.sup with rows := s.sup.rows ++ rows } } := .with_sup .refl rfl
  unfold State.offerRows
  dsimp only
  split
  · exact .ite (.startRow (.with_nv hRows rfl) rfl) (.startRow hRows rfl)
  · exact .startRow hRows rfl

theorem nvTake {who : Ident} {code : ℕ} {j : NvJob} (h : Keeps F r s)
    (hF : Part.within [.now, .regs, .nv, .sup] F) : Keeps F r (s.nvTake who code j) :=
  h.andThen hF (.ite (.startRow (.nvStart .refl rfl) rfl) (.ite (.nvRefuse (.with_now .refl rfl) rfl)
      (.nvRefuse .refl rfl)))

theorem endNvRow {j : NvJob} (h : Keeps F r s)
    (hF : Part.within [.now, .regs, .mram, .nv] F) : Keeps F r (s.endNvRow j) :=
  h.andThen hF (.bind (fun h1 => .ite (.nvEnd h1 rfl) (.with_nv h1 rfl)) (.setReg (.writeRow .refl rfl) rfl))

theorem refuseStarts (h : Keeps F r s)
    (hF : Part.within [.now, .regs, .nv, .sup] F) : Keeps F r (s.refuseStarts) := by
  refine h.andThen hF ?_
  unfold State.refuseStarts
  dsimp only
  split
  · exact .ite (.nvLow ((.ite (.supLow .refl rfl) .refl)) rfl) ((.ite (.supLow .refl rfl) .refl))
  · exact (.ite (.supLow .refl rfl) .refl)

theorem startsAgain (h : Keeps F r s) (hF : Part.within [.now, .regs, .nv, .sup] F) : Keeps F r s.startsAgain := by
  refine h.andThen hF ?_
  have hRows : Keeps [.now, .regs, .nv,
      .sup] s { s with sup := { s.sup with rows := s.sup.rows ++ s.now.lowvRows } } := .with_sup .refl rfl
  unfold State.startsAgain
  generalize { s with sup := { s.sup with rows := s.sup.rows ++ s.now.lowvRows } } = s1 at hRows
  refine .startRow (.with_now ?_ rfl) rfl
  split
  · exact .ite (.nvStart hRows rfl) (.nvResult (.with_nv hRows rfl) rfl)
  · exact hRows

theorem endSupRow (h : Keeps F r s)
    (hF : Part.within [.red, .mram, .sup] F) : Keeps F r (s.endSupRow) := by
  refine h.andThen hF ?_
  unfold State.endSupRow
  dsimp only
  split
  · split
    · exact .setPairSlot ((.with_sup ((.writeRow .refl rfl)) rfl)) rfl
    · exact (.with_sup ((.writeRow .refl rfl)) rfl)
  · exact .refl

theorem setOtp {i : ℕ} (h : Keeps F r s)
    (hF : Part.within [.regs] F) : Keeps F r (s.setOtp i) :=
  h.andThen hF (.setReg .refl rfl)

theorem execSupplyMonitorAssert {m : ℕ} (h : Keeps F r s)
    {t : State} (ht : execSupplyMonitorAssert m s = .next t) (hF : Part.within [.now, .regs, .nv, .sup, .notices] F)
        : Keeps F r t :=
  h.andThen hF (.ofNext ht (.ite (.refuseStarts (.notify (.count (.setFlag (.setFlag
      (.setFlag .refl rfl) rfl) rfl) rfl) rfl) rfl) .refl))

theorem execBlockRelease (h : Keeps F r s)
    {t : State} (ht : execBlockRelease s = .next t) (hF : Part.within [.now, .regs, .nv, .sup] F) : Keeps F r t :=
  h.andThen hF (.ofNext ht (.startsAgain (.setFlag (.setFlag (.setFlag (.setFlag .refl rfl) rfl) rfl) rfl) rfl))

theorem execVmonUpdate {core sram nv io : BitVec 12} (h : Keeps F r s)
    {t : State} (ht : execVmonUpdate core sram nv io s = .next t) (hF : Part.within [.regs] F) : Keeps F r t :=
  h.andThen hF (.ofNext ht (.setFld (.setFld (.setFld (.setFld .refl rfl) rfl) rfl) rfl))

theorem execNvRead {who : Ident} {errs : List MramFault} (h : Keeps F r s)
    {t : State} (ht : execNvRead who errs s = .next t) (hF : Part.within [.now, .regs, .engines, .nv] F)
        : Keeps F r t :=
  h.andThen hF (.ofNext ht (.live .refl (fun _ h1 => .nvCommand h1 (fun _ h2 => .ite (.nvRefuse h2 rfl) (.nvResult
      (.with_nv h2 rfl) rfl)) rfl)))

theorem endNvRead (h : Keeps F r s)
    (hF : Part.within [.now, .regs, .nv, .notices] F) : Keeps F r (s.endNvRead) := by
  refine h.andThen hF ?_
  unfold State.endNvRead
  dsimp only
  split
  · refine .ite ?_ ?_
    · exact .refl
    · exact .nvEnd (.loadNvData ((.foldl .refl (fun _ _ h2 => .ite (.notify (.count h2 rfl) rfl)
        (.count h2 rfl)))) rfl) rfl
  · exact .refl

theorem execNvWrite {who : Ident} (h : Keeps F r s)
    {t : State} (ht : execNvWrite who s = .next t) (hF : Part.within [.now, .regs, .engines, .nv, .sup] F)
        : Keeps F r t :=
  h.andThen hF (.ofNext ht (.live .refl (fun _ h1 => .nvCommand h1 (fun _ h2 => .nvTake h2 rfl) rfl)))

theorem execNvCopy {who : Ident} {rows : ℕ} (h : Keeps F r s)
    {t : State} (ht : execNvCopy who rows s = .next t) (hF : Part.within [.now, .regs, .engines, .nv, .sup] F)
        : Keeps F r t :=
  h.andThen hF (.ofNext ht (.live .refl (fun _ h1 => .nvCommand h1 (fun _ h2 => .nvTake h2 rfl) rfl)))

theorem execRowWriteDone (h : Keeps F r s)
    {t : State} (ht : execRowWriteDone s = .next t) (hF : Part.within [.now, .regs, .red, .mram, .nv, .sup] F)
        : Keeps F r t := by
  refine h.andThen hF (.ofNext ht ?_)
  exact .live .refl (fun _ h1 => by
    split
    · exact .ite h1 (.startRow (.endSupRow h1 rfl) rfl)
    · split
      · exact .ite h1 (.startRow (.endNvRow h1 rfl) rfl)
      · exact h1)

theorem execOtpKey {who : Ident} (h : Keeps F r s)
    {t : State} (ht : execOtpKey who s = .next t) (hF : Part.within [.now, .regs, .engines, .nv, .sup] F)
        : Keeps F r t :=
  h.andThen hF (.ofNext ht (.live .refl (fun _ h1 => .nvCommand h1 (fun _ h2 => .nvTake h2 rfl) rfl)))

theorem execOtpRevoke {who : Ident} (h : Keeps F r s)
    {t : State} (ht : execOtpRevoke who s = .next t) (hF : Part.within [.now, .regs, .engines, .nv, .sup] F)
        : Keeps F r t :=
  h.andThen hF (.ofNext ht (.live .refl (fun _ h1 => .nvCommand h1 (fun _ h2 => .nvTake h2 rfl) rfl)))

theorem execOtpFloor {who : Ident} (h : Keeps F r s)
    {t : State} (ht : execOtpFloor who s = .next t) (hF : Part.within [.now, .regs, .engines, .nv, .sup] F)
        : Keeps F r t :=
  h.andThen hF (.ofNext ht (.live .refl (fun _ h1 => .nvCommand h1 (fun _ h2 => .ite (.nvResult h2 rfl)
      (.nvTake h2 rfl)) rfl)))

theorem execOtpProgramDone (h : Keeps F r s)
    {t : State} (ht : execOtpProgramDone s = .next t) (hF : Part.within [.now, .regs, .keyHash, .nv] F)
        : Keeps F r t := by
  refine h.andThen hF (.ofNext ht ?_)
  dsimp only
  exact .live .refl (fun _ h1 => by
    split
    · exact .ite h1 (.nvEnd ((.ite (.setOtp (.with_keyHash h1 rfl) rfl) (.ite (.setOtp h1 rfl) (.setFld h1 rfl)))) rfl)
    · exact h1)

theorem jtagInstr {k : ℕ} (h : Keeps F r s)
    (hF : Part.within [.jtag] F) : Keeps F r (jtagInstr s k) :=
  h.andThen hF (.ite .refl (.with_jtag .refl rfl))

theorem execBypass (h : Keeps F r s)
    {t : State} (ht : execBypass s = .next t) (hF : Part.within [.jtag] F) : Keeps F r t :=
  h.andThen hF (.ofNext ht (.jtagInstr .refl rfl))

theorem execIdcode (h : Keeps F r s)
    {t : State} (ht : execIdcode s = .next t) (hF : Part.within [.jtag] F) : Keeps F r t :=
  h.andThen hF (.ofNext ht (.jtagInstr .refl rfl))

theorem execSamplePreload (h : Keeps F r s)
    {t : State} (ht : execSamplePreload s = .next t) (hF : Part.within [.jtag] F) : Keeps F r t :=
  h.andThen hF (.ofNext ht (.jtagInstr .refl rfl))

theorem execExtest (h : Keeps F r s)
    {t : State} (ht : execExtest s = .next t) (hF : Part.within [.jtag] F) : Keeps F r t :=
  h.andThen hF (.ofNext ht (.jtagInstr .refl rfl))

theorem execJtagTrstN {low : Bool} (h : Keeps F r s)
    {t : State} (ht : execJtagTrstN low s = .next t) (hF : Part.within [.jtag] F) : Keeps F r t :=
  h.andThen hF (.ofNext ht (.with_jtag .refl rfl))

theorem setFree {n : ℕ} (h : Keeps F r s)
    (hF : Part.within [.regs] F) : Keeps F r (s.setFree n) :=
  h.andThen hF (.setFld (.setFld .refl rfl) rfl)

theorem takeCell {f : ℕ} (h : Keeps F r s)
    (hF : Part.within [.free, .regs, .xing] F) : Keeps F r (s.takeCell f).2 :=
  h.andThen hF (.setFree (.setXing ((.draw .refl rfl)) rfl rfl) rfl)

theorem takeCells {f n : Nat} (h : Keeps F r s) (hF : Part.within [.free, .regs, .xing] F) :
    Keeps F r (State.takeCells f n s).2 := by
  refine h.andThen hF ?_
  clear h
  induction n generalizing s with
  | zero => exact .refl
  | succ n ih => exact (Keeps.takeCell .refl rfl).trans ih

theorem xingFatal (h : Keeps F r s)
    (hF : Part.within [.now, .regs, .notices] F) : Keeps F r (s.xingFatal) :=
  h.andThen hF (.notify (.setFlag .refl rfl) rfl)

theorem giveCells {cs : List ℕ} (h : Keeps F r s)
    (hF : Part.within [.now, .regs, .xing, .notices] F) : Keeps F r (s.giveCells cs) :=
  h.andThen hF (.bind (fun h1 => .ite h1 (.xingFatal h1 rfl)) (.setFree (.setXing .refl rfl rfl) rfl))

theorem loseCells {cs : List ℕ} {reclaimed : Bool} (h : Keeps F r s)
    (hF : Part.within [.xing] F) : Keeps F r (s.loseCells cs reclaimed) :=
  h.andThen hF (.setXing .refl rfl rfl)

theorem setFrame {f : ℕ} {x : Option Frame} (h : Keeps F r s)
    (hF : Part.within [.xing] F) : Keeps F r (s.setFrame f x) :=
  h.andThen hF (.setXing .refl rfl rfl)

theorem frameWrite {x : Frame} {i : ℕ} {bs : List Byte} (h : Keeps F r s) (hF : Part.within [.xing] F) :
    Keeps F r (s.frameWrite x i bs) :=
  h.andThen hF (.setXingBuffer .refl Mem.wf_foldl_write rfl)

theorem newFrame {n : ℕ} {x : Frame} (h : Keeps F r s)
    (hF : Part.within [.free, .regs, .xing] F) : Keeps F r (s.newFrame n x).2 :=
  h.andThen hF (.setFrame ((.setXing (.takeCells .refl rfl) rfl rfl)) rfl)

theorem storeFrame {bs : List Byte} {x : Frame} (h : Keeps F r s)
    (hF : Part.within [.free, .regs, .xing] F) : Keeps F r (s.storeFrame bs x).2 := by
  refine h.andThen hF ?_
  unfold State.storeFrame
  dsimp only
  split
  · exact .frameWrite (.newFrame .refl rfl) rfl
  · exact .newFrame .refl rfl

theorem leaveFlight {gen : ℕ} (h : Keeps F r s)
    (hF : Part.within [.regs] F) : Keeps F r (s.leaveFlight gen) :=
  h.andThen hF (.ite (.setFld .refl rfl) .refl)

theorem settleFrame {f : ℕ} (h : Keeps F r s)
    (hF : Part.within [.now, .regs, .xing, .notices] F) : Keeps F r (s.settleFrame f) := by
  refine h.andThen hF ?_
  unfold State.settleFrame
  dsimp only
  split
  · refine .ite ?_ ?_
    · exact .bind (fun h1 => .ite (.setFrame h1 rfl) (.setFrame h1 rfl)) (.ite (.loseCells .refl rfl)
        (.giveCells .refl rfl))
    · exact .refl
  · exact .refl

theorem dropRef {f : ℕ} (h : Keeps F r s)
    (hF : Part.within [.now, .regs, .xing, .notices] F) : Keeps F r (s.dropRef f) := by
  refine h.andThen hF ?_
  unfold State.dropRef
  split
  · exact .settleFrame (.setFrame .refl rfl) rfl
  · exact .refl

theorem endCopy {f : ℕ} {onChip : Bool} (h : Keeps F r s)
    (hF : Part.within [.now, .regs, .xing, .notices] F) : Keeps F r (s.endCopy f onChip) := by
  refine h.andThen hF ?_
  unfold State.endCopy
  dsimp only
  split
  · exact .bind (fun h1 => .settleFrame (.ite (.leaveFlight h1 rfl) h1) rfl) (.setFrame .refl rfl)
  · exact .refl

theorem drop {reason source queue : ℕ} (h : Keeps F r s)
    (hF : Part.within [.now, .regs, .xing] F) : Keeps F r (s.drop reason source queue) :=
  h.andThen hF (.bind (fun h1 => .ite (.setFlag h1 rfl) (.setFlag (.setReg (.setXing h1 rfl rfl) rfl) rfl)) (.ite
      (.count .refl rfl) (.count .refl rfl)))

theorem dropFrame {f reason : ℕ} (h : Keeps F r s)
    (hF : Part.within [.now, .regs, .xing, .notices] F) : Keeps F r (s.dropFrame f reason) := by
  refine h.andThen hF ?_
  unfold State.dropFrame
  split
  · exact .endCopy (.drop .refl rfl) rfl
  · exact .refl

theorem changeGates {m : Store Entry} {n : ℕ} (h : Keeps F r s)
    (hF : Part.within [.xing] F) : Keeps F r (s.changeGates m n) :=
  h.andThen hF (.setXing .refl rfl rfl)

theorem assignBucket {g b m : ℕ} (h : Keeps F r s)
    (hF : Part.within [.xing] F) : Keeps F r (s.assignBucket g b m) :=
  h.andThen hF (.setXing .refl rfl rfl)

theorem showLag {g : ℕ} (h : Keeps F r s)
    (hF : Part.within [.regs] F) : Keeps F r (s.showLag g) :=
  h.andThen hF (.setFld .refl rfl)

theorem resetLag {g : ℕ} (h : Keeps F r s)
    (hF : Part.within [.regs, .xing] F) : Keeps F r (s.resetLag g) :=
  h.andThen hF (.showLag (.foldl .refl (fun _ _ h1 => .assignBucket h1 rfl)) rfl)

theorem lagDown {g m : ℕ} (h : Keeps F r s)
    (hF : Part.within [.now, .regs, .xing] F) : Keeps F r (s.lagDown g m) :=
  h.andThen hF (.bind (fun h1 => .ite h1 (.foldl h1 (fun _ _ h2 => .assignBucket h2 rfl))) (.ite .refl
      (.count .refl rfl)))

theorem lagReturn {g m : ℕ} (h : Keeps F r s)
    (hF : Part.within [.now, .regs, .xing] F) : Keeps F r (s.lagReturn g m) :=
  h.andThen hF (.foldl ((.ite .refl (.count .refl rfl))) (fun _ _ h2 => .assignBucket h2 rfl))

theorem lagLink {n : ℕ} {up : Bool} (h : Keeps F r s)
    (hF : Part.within [.now, .regs, .xing] F) : Keeps F r (s.lagLink n up) := by
  refine h.andThen hF ?_
  unfold State.lagLink
  dsimp only
  exact .foldl .refl (fun _ _ h1 => by
    split
    · exact .showLag (.ite (.lagReturn h1 rfl) (.lagDown h1 rfl)) rfl
    · exact h1)

theorem flip (h : Keeps F r s)
    (hF : Part.within [.now, .regs, .shadow, .red, .xing] F) : Keeps F r (s.flip) :=
  h.andThen hF (.foldl ((.foldl ((.foldl ((.setFlag (.setFlag ((.applyShadow (.countWrap ((.setXing
      ((.setFld .refl rfl)) rfl rfl)) rfl) rfl)) rfl) rfl)) (fun _ _ h6 => .setFlowCtx h6 rfl))) (fun _ _ h7 => .ite
          (.resetLag h7 rfl) h7))) (fun _ _ h7 => .ite (.changeGates h7 rfl) h7))

theorem prpStep {x : Frame} (h : Keeps F r s)
    (hF : Part.within [.now, .regs, .red] F) : Keeps F r (s.prpStep x).2 := by
  refine h.andThen hF ?_
  unfold State.prpStep
  dsimp only
  split
  · exact .prpJudge .refl rfl
  · exact .refl

theorem filterStep {i len : ℕ} (h : Keeps F r s)
    (hF : Part.within [.xing] F) : Keeps F r (s.filterStep i len).2 := by
  refine h.andThen hF ?_
  unfold State.filterStep
  dsimp only
  refine .ite_snd ?_ ?_
  · exact .refl
  · refine .ite_snd ?_ ?_
    · exact .refl
    · refine .ite_snd ?_ ?_
      · exact .setXing .refl rfl rfl
      · exact .refl

theorem showDepth {q : ℕ} (h : Keeps F r s)
    (hF : Part.within [.regs] F) : Keeps F r (s.showDepth q) :=
  h.andThen hF (.ite (.setReg .refl rfl) .refl)

theorem setQueue {q : ℕ} {x : Queue} (h : Keeps F r s)
    (hF : Part.within [.regs, .xing] F) : Keeps F r (s.setQueue q x) :=
  h.andThen hF (.showDepth (.setXing .refl rfl rfl) rfl)

theorem offerCopy {f dest : ℕ} (h : Keeps F r s)
    (hF : Part.within [.now, .regs, .xing] F) : Keeps F r (s.offerCopy f dest) := by
  refine h.andThen hF ?_
  unfold State.offerCopy
  dsimp only
  split
  · exact .refl
  · refine .ite ?_ ?_
    · exact .drop .refl rfl
    · refine .ite ?_ ?_
      · exact .drop .refl rfl
      · refine .ite ?_ ?_
        · exact .drop .refl rfl
        · refine .ite ?_ ?_
          · exact .ite (.ite (.drop .refl rfl) (.setFrame (.setXing .refl rfl rfl) rfl)) (.drop .refl rfl)
          · exact .setFrame (.setXing .refl rfl rfl) rfl

theorem alleyStep {f : ℕ} (h : Keeps F r s)
    (hF : Part.within [.now, .regs, .xing] F) : Keeps F r (s.alleyStep f) := by
  refine h.andThen hF ?_
  unfold State.alleyStep
  dsimp only
  split
  · exact .refl
  · exact .ite (.drop .refl rfl) (.setFrame (.setXing .refl rfl rfl) rfl)

theorem classifyTail {f : ℕ} {x : Frame} {l : State.Lookup} (h : Keeps F r s)
    (hF : Part.within [.now, .regs, .engines, .red, .xing, .notices] F) : Keeps F r (s.classifyTail f x l) := by
  refine h.andThen hF ?_
  unfold State.classifyTail
  dsimp only
  refine .ite ?_ ?_
  · exact .dropFrame (by
    split
    · exact .judge ((.ite (.count .refl rfl) .refl)) rfl
    · exact (.ite (.count .refl rfl) .refl)) rfl
  · exact .bind (fun h2 => .bind (fun h4 => .ite (.dropFrame h4 rfl) (.endCopy (.foldl h4
      (fun _ _ h5 => .offerCopy h5 rfl)) rfl)) (.foldl ((.ite (.alleyStep h2 rfl) h2)) (fun _ _ h5 => .drop h5 rfl)))
          (.setFrame (by
    split
    · exact .judge ((.ite (.count .refl rfl) .refl)) rfl
    · exact (.ite (.count .refl rfl) .refl)) rfl)

theorem classify {f : ℕ} (h : Keeps F r s)
    (hF : Part.within [.now, .regs, .engines, .red, .xing, .notices] F) : Keeps F r (s.classify f) := by
  refine h.andThen hF ?_
  unfold State.classify
  dsimp only
  split
  · exact .refl
  · refine .ite ?_ ?_
    · exact .dropFrame ((.setFrame .refl rfl)) rfl
    · split
      · exact .classifyTail (.setFrame ((.setFrame .refl rfl)) rfl) rfl
      · split
        · exact .dropFrame ((.setFrame .refl rfl)) rfl
        · refine .ite ?_ ?_
          · exact .dropFrame (.prpStep (.setFrame ((.setFrame .refl rfl)) rfl) rfl) rfl
          · refine .ite ?_ ?_
            · exact .dropFrame ((.prpStep (.setFrame ((.setFrame .refl rfl)) rfl) rfl)) rfl
            · split
              · exact .dropFrame (by
                  split
                  · exact .filterStep ((.setFrame ((.prpStep (.setFrame ((.setFrame .refl rfl)) rfl) rfl)) rfl)) rfl
                  · exact (.setFrame ((.prpStep (.setFrame ((.setFrame .refl rfl)) rfl) rfl)) rfl)) rfl
              · exact .classifyTail (by
                  split
                  · exact .filterStep ((.setFrame ((.prpStep (.setFrame ((.setFrame .refl rfl)) rfl) rfl)) rfl)) rfl
                  · exact (.setFrame ((.prpStep (.setFrame ((.setFrame .refl rfl)) rfl) rfl)) rfl)) rfl

theorem offerFrame {bs : List Byte} {x : Frame} (h : Keeps F r s)
    (hF : Part.within [.now, .free, .regs, .xing] F) : Keeps F r (s.offerFrame bs x) :=
  h.andThen hF (.ite (.drop .refl rfl) (.ite (.drop (.setFld .refl rfl) rfl) (.setXing
      (.storeFrame .refl rfl) rfl rfl)))

theorem setPort {n : ℕ} {x : Port} (h : Keeps F r s)
    (hF : Part.within [.ports] F) : Keeps F r (s.setPort n x) :=
  h.andThen hF (.with_ports .refl rfl)

theorem unitWrite {who : Ident} {bound : State → ℕ → ℕ → Bool} {n a : ℕ} {body : State → State} (h
    : Keeps F r s) (hbody : ∀ u, Keeps F r u → Keeps F r (body u))
    (hF : Part.within [.engines] F) : Keeps F r (s.unitWrite who bound n a body) :=
  .ite (.ite (hbody _ h) (.refuseStore h (hF := Part.sub hF rfl))) (.ite (hbody _ h) h)

theorem ethCount {n i k : ℕ} (h : Keeps F r s)
    (hF : Part.within [.now, .regs, .msixPba, .out] F) : Keeps F r (s.ethCount n i k) :=
  h.andThen hF (.bind (fun h1 => .ite h1 (.bind (fun h2 => .ite (.raiseIrq h2 rfl) h2) (.stampSet
      (.setReg h1 rfl) rfl))) (.setReg .refl rfl))

theorem countRx {n : ℕ} {bs : List Byte} (h : Keeps F r s)
    (hF : Part.within [.now, .regs, .msixPba, .out] F) : Keeps F r (s.countRx n bs) :=
  h.andThen hF (.bind (fun h2 => .ite (.ethCount h2 rfl) h2) (.ethCount ((.ethCount (.ethCount
      (.ethCount .refl rfl) rfl) rfl)) rfl))

theorem countTx {n : ℕ} {bs : List Byte} (h : Keeps F r s)
    (hF : Part.within [.now, .regs, .msixPba, .out] F) : Keeps F r (s.countTx n bs) :=
  h.andThen hF (.ethCount (.ethCount (.ethCount (.ethCount .refl rfl) rfl) rfl) rfl)

theorem macReceive {n : ℕ} {bs : List Byte} {align : Bool} {symbols : ℕ} (h : Keeps F r s)
    (hF : Part.within [.now, .regs, .msixPba, .out] F) : Keeps F r (s.macReceive n bs align symbols).1 := by
  refine h.andThen hF ?_
  unfold State.macReceive
  dsimp only
  refine .ite_fst ?_ ?_
  · exact .ethCount ((.ite .refl (.ethCount .refl rfl))) rfl
  · refine .ite_fst ?_ ?_
    · exact .ethCount ((.ite .refl (.ethCount .refl rfl))) rfl
    · refine .ite_fst ?_ ?_
      · exact .ite (.ethCount ((.ethCount ((.ite .refl (.ethCount .refl rfl))) rfl)) rfl) ((.ethCount ((.ite .refl
          (.ethCount .refl rfl))) rfl))
      · refine .ite_fst ?_ ?_
        · exact .ethCount ((.countRx ((.ite .refl (.ethCount .refl rfl))) rfl)) rfl
        · exact (.countRx ((.ite .refl (.ethCount .refl rfl))) rfl)

theorem dropCopy {c : Copy} {reason : ℕ} {onChip : Bool} (h : Keeps F r s)
    (hF : Part.within [.now, .regs, .xing, .notices] F) : Keeps F r (s.dropCopy c reason onChip) := by
  refine h.andThen hF ?_
  unfold State.dropCopy
  split
  · exact .endCopy (.drop .refl rfl) rfl
  · exact .refl

theorem freeSpill {x : Spilled} (h : Keeps F r s)
    (hF : Part.within [.xing] F) : Keeps F r (s.freeSpill x) :=
  h.andThen hF (.setXing .refl rfl rfl)

theorem flushDest {dest : ℕ} (h : Keeps F r s)
    (hF : Part.within [.now, .regs, .xing, .notices] F) : Keeps F r (s.flushDest dest) :=
  h.andThen hF (.foldl ((.setXing ((.foldl .refl (fun _ _ h2 => .foldl ((.foldl ((.setQueue h2 rfl))
      (fun _ _ h5 => .dropCopy h5 rfl))) (fun _ _ h5 => .dropCopy (.freeSpill h5 rfl) rfl)))) rfl rfl))
          (fun _ _ h3 => .dropCopy ((.ite (.setXing h3 rfl rfl) h3)) rfl))

theorem settleHeads {q n : Nat} (h : Keeps F r s) (hF : Part.within [.now, .regs, .xing, .notices] F) :
    Keeps F r (State.settleHeads q n s) := by
  refine h.andThen hF ?_
  clear h
  induction n generalizing s with
  | zero => exact .refl
  | succ n ih =>
    unfold State.settleHeads
    split
    · exact .refl
    · split
      · exact (Keeps.dropCopy (.setQueue .refl rfl) rfl).trans ih
      · exact .refl

theorem settleQueue {q : ℕ} (h : Keeps F r s)
    (hF : Part.within [.now, .regs, .xing, .notices] F) : Keeps F r (s.settleQueue q) :=
  h.andThen hF (.settleHeads .refl rfl)

theorem settleHead {q : ℕ} {was : Option Copy} (h : Keeps F r s)
    (hF : Part.within [.now, .regs, .xing, .notices] F) : Keeps F r (s.settleHead q was) :=
  h.andThen hF (.ite .refl (.settleQueue .refl rfl))

theorem clearSending {n : ℕ} (h : Keeps F r s)
    (hF : Part.within [.regs, .ports] F) : Keeps F r (s.clearSending n) := by
  refine h.andThen hF ?_
  unfold State.clearSending
  dsimp only
  split
  · exact .showDepth ((.setPort .refl rfl)) rfl
  · exact (.setPort .refl rfl)

theorem cutOff {n : ℕ} (h : Keeps F r s)
    (hF : Part.within [.now, .regs, .msixPba, .xing, .ports, .notices, .out] F) : Keeps F r (s.cutOff n) := by
  refine h.andThen hF ?_
  unfold State.cutOff
  split
  · exact .emit (.endCopy (.ethCount (.clearSending .refl rfl) rfl) rfl) rfl
  · exact .refl

theorem cutThruFrom {n m : ℕ} (h : Keeps F r s)
    (hF : Part.within [.ports, .out] F) : Keeps F r (s.cutThruFrom n m) := by
  refine h.andThen hF ?_
  unfold State.cutThruFrom
  dsimp only
  split
  · refine .ite ?_ ?_
    · exact .emit (.setPort ((.foldl (.setPort .refl rfl) (fun _ _ h2 => .ite (.emit h2 rfl) h2))) rfl) rfl
    · exact (.foldl (.setPort .refl rfl) (fun _ _ h2 => .ite (.emit h2 rfl) h2))
  · exact (.foldl (.setPort .refl rfl) (fun _ _ h2 => .ite (.emit h2 rfl) h2))

theorem cutThru {n : ℕ} (h : Keeps F r s)
    (hF : Part.within [.ports, .out] F) : Keeps F r (s.cutThru n) :=
  h.andThen hF (.foldl .refl (fun _ _ h1 => .cutThruFrom h1 rfl))

theorem expireHold {n : ℕ} (h : Keeps F r s)
    (hF : Part.within [.now, .regs, .engines, .msixPba, .xing, .ports, .notices, .out] F)
        : Keeps F r (s.expireHold n) :=
  h.andThen hF (.fire (.ethCount (.setFlag (.flushDest ((.setFlag (.setPort .refl rfl) rfl)) rfl) rfl) rfl) rfl)

theorem linkRise {n speed : ℕ} (h : Keeps F r s)
    (hF : Part.within [.now, .regs, .engines, .xing, .ports, .notices] F) : Keeps F r (s.linkRise n speed) :=
  h.andThen hF (.foldl ((.fire (.lagLink ((.setPort (.setFlag ((.setFlag (.setFld
      (.setFlag .refl rfl) rfl) rfl)) rfl) rfl)) rfl) rfl)) (fun _ _ h4 => .settleQueue h4 rfl))

theorem linkFall {n : ℕ} (h : Keeps F r s)
    (hF : Part.within [.now, .regs, .engines, .msixPba, .xing, .ports, .out] F) : Keeps F r (s.linkFall n) :=
  h.andThen hF (.fire (.lagLink (.ethCount (.setFlag (.setPort .refl rfl) rfl) rfl) rfl) rfl)

theorem linkLoss {n : ℕ} (h : Keeps F r s)
    (hF : Part.within [.now, .regs, .engines, .msixPba, .xing, .ports, .notices, .out] F)
        : Keeps F r (s.linkLoss n) := by
  refine h.andThen hF ?_
  unfold State.linkLoss
  dsimp only
  refine .ite ?_ ?_
  · exact .bind (fun h1 => .ite h1 (.bind (fun h2 => .ite (.expireHold h2 rfl) (.setPort h2 rfl)) (.setFlag
      (.cutOff h1 rfl) rfl))) (.cutThru (.linkFall .refl rfl) rfl)
  · exact .refl

theorem linkEnd {n : ℕ} (h : Keeps F r s)
    (hF : Part.within [.now, .regs, .engines, .msixPba, .xing, .ports, .notices, .out] F) : Keeps F r (s.linkEnd n) :=
  h.andThen hF (.flushDest (.setFlag (.setFlag ((.setPort (.cutOff (.cutThru ((.ite
      (.linkFall .refl rfl) .refl)) rfl) rfl) rfl)) rfl) rfl) rfl)

theorem t1sOwnLink {n : ℕ} (h : Keeps F r s)
    (hF : Part.within [.now, .regs, .engines, .xing, .ports, .notices] F) : Keeps F r (s.t1sOwnLink n) :=
  h.andThen hF (.ite (.linkRise .refl rfl) .refl)

theorem startOfFrame {n : ℕ} {tx : Bool} {held : ℕ} (h : Keeps F r s)
    (hF : Part.within [.now, .regs, .engines, .tb] F) : Keeps F r (s.startOfFrame n tx held).1 := by
  refine h.andThen hF ?_
  unfold State.startOfFrame
  dsimp only
  refine .ite_fst ?_ ?_
  · split
    · exact .tsqHardware ((.fire .refl rfl)) rfl
    · exact (.fire .refl rfl)
  · exact (.fire .refl rfl)

theorem rxSof {n held : ℕ} (h : Keeps F r s)
    (hF : Part.within [.now, .regs, .engines, .tb, .ports] F) : Keeps F r (s.rxSof n held) := by
  refine h.andThen hF ?_
  unfold State.rxSof
  dsimp only
  split
  · exact .setPort (.startOfFrame .refl rfl) rfl
  · exact .setPort (.startOfFrame .refl rfl) rfl

theorem applyEth {n : ℕ} (h : Keeps F r s)
    (hF : Part.within [.now, .regs, .shadow, .engines, .msixPba, .xing, .ports, .notices, .out] F)
        : Keeps F r (s.applyEth n) :=
  h.andThen hF (.bind (fun h1 => .bind (fun h2 => .ite (.flushDest (.setFlag (.setFlag
      (.setPort h2 rfl) rfl) rfl) rfl) h2) (.ite (.t1sOwnLink (.setPort ((.linkLoss h1 rfl)) rfl) rfl) h1))
          (.applyShadow .refl rfl))

theorem execPortEnable {n : ℕ} {who : Ident} (h : Keeps F r s)
    {t : State} (ht : execPortEnable n who s = .next t)
        (hF : Part.within [.now, .regs, .engines, .xing, .ports, .notices] F) : Keeps F r t :=
  h.andThen hF (.ofNext ht (.served .refl (fun _ h1 => .ite (.unitWrite h1 (fun _ h2 => .t1sOwnLink
      (.setFlag h2 rfl) rfl) rfl) (.absentHit h1 rfl)) rfl))

theorem execPortDisable {n : ℕ} {who : Ident} (h : Keeps F r s)
    {t : State} (ht : execPortDisable n who s = .next t)
        (hF : Part.within [.now, .regs, .engines, .msixPba, .xing, .ports, .notices, .out] F) : Keeps F r t :=
  h.andThen hF (.ofNext ht (.served .refl (fun _ h1 => .ite (.unitWrite h1 (fun _ h2 => .ite (.linkEnd
      (.setFlag h2 rfl) rfl) h2) rfl) (.absentHit h1 rfl)) rfl))

theorem execLinkUp {n speed : ℕ} (h : Keeps F r s)
    {t : State} (ht : execLinkUp n speed s = .next t)
        (hF : Part.within [.now, .regs, .engines, .xing, .ports, .notices] F) : Keeps F r t :=
  h.andThen hF (.ofNext ht (.live .refl (fun _ h1 => .ite (.linkRise h1 rfl) h1)))

theorem execLinkDown {n : ℕ} (h : Keeps F r s)
    {t : State} (ht : execLinkDown n s = .next t)
        (hF : Part.within [.now, .regs, .engines, .msixPba, .xing, .ports, .notices, .out] F) : Keeps F r t :=
  h.andThen hF (.ofNext ht (.live .refl (fun _ h1 => .ite (.linkLoss h1 rfl) h1)))

theorem execHoldExpiry {n : ℕ} (h : Keeps F r s)
    {t : State} (ht : execHoldExpiry n s = .next t)
        (hF : Part.within [.now, .regs, .engines, .msixPba, .xing, .ports, .notices, .out] F) : Keeps F r t := by
  refine h.andThen hF (.ofNext ht ?_)
  exact .live .refl (fun _ h1 => by
    split
    · exact .ite (.expireHold h1 rfl) h1
    · exact h1)

theorem execReceiveFrame {n : ℕ} {bs : List Byte} {align : Bool} {symbols : ℕ} (h : Keeps F r s)
    {t : State} (ht : execReceiveFrame n bs align symbols s = .next t)
        (hF : Part.within [.now, .free, .regs, .msixPba, .xing, .ports, .out] F) : Keeps F r t :=
  h.andThen hF (.ofNext ht (.offered .refl (fun _ h1 => .ite (.ite (.offerFrame (.macReceive
      (.setPort h1 rfl) rfl) rfl) (.macReceive (.setPort h1 rfl) rfl)) h1) rfl))

theorem execEthRxSof {n : ℕ} (h : Keeps F r s)
    {t : State} (ht : execEthRxSof n s = .next t)
        (hF : Part.within [.now, .regs, .syncs, .merges, .engines, .tb, .ports] F) : Keeps F r t :=
  h.andThen hF (.ofNext ht (.clocked .refl (fun _ h1 => .ite (.raiseLine (.setPort h1 rfl)
      (fun _ h2 => .rxSof h2 rfl) rfl) h1)))

theorem execEthTxSof {n : ℕ} (h : Keeps F r s)
    {t : State} (ht : execEthTxSof n s = .next t) (hF : Part.within [.now, .regs, .syncs, .merges, .engines, .tb] F)
        : Keeps F r t :=
  h.andThen hF (.ofNext ht (.clocked .refl (fun _ h1 => .ite (.raiseLine h1
      (fun _ h2 => .startOfFrame h2 rfl) rfl) h1)))

theorem execEthSnap {n : ℕ} {who : Ident} (h : Keeps F r s)
    {t : State} (ht : execEthSnap n who s = .next t) (hF : Part.within [.now, .regs, .engines] F) : Keeps F r t :=
  h.andThen hF (.ofNext ht (.served .refl (fun _ h1 => .ite (.unitWrite h1 (fun _ h2 => .setFlag (.foldl h2
      (fun _ _ h3 => .setReg h3 rfl)) rfl) rfl) (.absentHit h1 rfl)) rfl))

theorem execPlcaCycle {n : ℕ} (h : Keeps F r s)
    {t : State} (ht : execPlcaCycle n s = .next t) (hF : Part.within [.ports, .out] F) : Keeps F r t :=
  h.andThen hF (.ofNext ht (.clocked .refl (fun _ h1 => .ite (.emit (.setPort h1 rfl) rfl) h1)))

theorem execBeaconReceipt {n : ℕ} (h : Keeps F r s)
    {t : State} (ht : execBeaconReceipt n s = .next t)
        (hF : Part.within [.now, .regs, .engines, .msixPba, .xing, .ports, .notices, .out] F) : Keeps F r t :=
  h.andThen hF (.ofNext ht (.clocked .refl (fun _ h1 => .ite (.ite (.ethCount h1 rfl) (.ite (.bind (fun h2 => .ite
      (.linkRise h2 rfl) h2) (.setPort h1 rfl)) h1)) h1)))

theorem execBeaconTimeout {n : ℕ} (h : Keeps F r s)
    {t : State} (ht : execBeaconTimeout n s = .next t)
        (hF : Part.within [.now, .regs, .engines, .msixPba, .xing, .ports, .notices, .out] F) : Keeps F r t :=
  h.andThen hF (.ofNext ht (.clocked .refl (fun _ h1 => .ite (.setPort ((.ethCount (.linkLoss h1 rfl) rfl)) rfl) h1)))

theorem giveUp {n : ℕ} (h : Keeps F r s)
    (hF : Part.within [.now, .regs, .xing, .ports, .notices] F) : Keeps F r (giveUp s n) := by
  refine h.andThen hF ?_
  unfold Machine.giveUp
  split
  · exact .endCopy (.clearSending .refl rfl) rfl
  · exact .refl

theorem execCollision {n : ℕ} {late : Bool} (h : Keeps F r s)
    {t : State} (ht : execCollision n late s = .next t)
        (hF : Part.within [.now, .free, .regs, .msixPba, .xing, .ports, .notices, .out] F) : Keeps F r t :=
  h.andThen hF (.ofNext ht (.clocked .refl (fun _ h1 => .ite (.ite (.bind (fun h2 => .ite (.giveUp
      (.ethCount h2 rfl) rfl) (.ite (.giveUp (.ethCount h2 rfl) rfl) (.draw (.setPort h2 rfl) rfl)))
          (.ethCount h1 rfl)) (.bind (fun h2 => .ite (.giveUp (.ethCount h2 rfl) rfl) (.setPort h2 rfl))
              (.ethCount h1 rfl))) h1)))

theorem execBackoffExpiry {n : ℕ} (h : Keeps F r s)
    {t : State} (ht : execBackoffExpiry n s = .next t) (hF : Part.within [.ports] F) : Keeps F r t := by
  refine h.andThen hF (.ofNext ht ?_)
  dsimp only
  exact .clocked .refl (fun _ h1 => by
    split
    · exact .ite (.setPort h1 rfl) h1
    · exact h1)

theorem refusePort {e addr bytes : ℕ} (h : Keeps F r s)
    (hF : Part.within [.engines] F) : Keeps F r (s.refusePort e addr bytes) :=
  h.andThen hF (.setEng .refl ⟨rfl, rfl, rfl⟩ rfl)

theorem resetWords {n : ℕ} (h : Keeps F r s)
    (hF : Part.within [.ports] F) : Keeps F r (s.resetWords n) :=
  h.andThen hF (.setPort .refl rfl)

theorem takeCellLease {e f : ℕ} (h : Keeps F r s)
    (hF : Part.within [.leases, .xing] F) : Keeps F r (s.takeCellLease e f) := by
  refine h.andThen hF ?_
  unfold State.takeCellLease
  dsimp only
  split
  · exact .addLease (.setXing ((.setFrame .refl rfl)) rfl rfl) rfl
  · exact .refl

theorem dropCellLease {e c : ℕ} (h : Keeps F r s)
    (hF : Part.within [.leases] F) : Keeps F r (s.dropCellLease e c) :=
  h.andThen hF (.with_leases .refl rfl)

theorem markHanded {d c : ℕ} (h : Keeps F r s)
    (hF : Part.within [.ports] F) : Keeps F r (s.markHanded d c) :=
  h.andThen hF (.foldl .refl (fun _ _ h1 => .ite (.setPort h1 rfl) h1))

theorem endCellLease {e c : ℕ} (h : Keeps F r s)
    (hF : Part.within [.now, .regs, .leases, .xing, .notices] F) : Keeps F r (s.endCellLease e c) := by
  refine h.andThen hF ?_
  unfold State.endCellLease
  dsimp only
  split
  · split
    · exact .settleFrame (.setFrame ((.dropCellLease .refl rfl)) rfl) rfl
    · exact (.dropCellLease .refl rfl)
  · exact (.dropCellLease .refl rfl)

theorem deliverDistrict {d : ℕ} {c : Copy} (h : Keeps F r s)
    (hF : Part.within [.now, .regs, .leases, .engines, .msixPba, .xing, .ports, .notices, .out] F)
        : Keeps F r (s.deliverDistrict d c) := by
  refine h.andThen hF ?_
  unfold State.deliverDistrict
  dsimp only
  split
  · exact .refl
  · split
    · exact .dropCopy .refl rfl
    · refine .ite ?_ ?_
      · exact .dropCopy .refl rfl
      · exact .bind (fun h1 => .endCopy (.fire (.ethCount ((.ite (.ethCount h1 rfl) h1)) rfl) rfl) rfl) (.setPort
          (.takeCellLease .refl rfl) rfl)

theorem deliverHost {c : Copy} (h : Keeps F r s)
    (hF : Part.within [.now, .regs, .msixPba, .xing, .hostMem, .notices, .out] F) :
    Keeps F r (s.deliverHost c) := by
  refine h.andThen hF ?_
  unfold State.deliverHost
  dsimp only
  split
  · exact .refl
  · refine .ite (.dropCopy .refl rfl) (.ite (.endCopy (.through .refl (fun _ h1 => h1) rfl) rfl) ?_)
    exact .endCopy (.raiseIrq (.setFld (.with_hostMem .refl (fun hm => Mem.wf_writeBytes _ _
        (Mem.wf_writeBytes _ _ hm)) rfl) rfl) rfl) rfl

theorem handOver {e c : ℕ} {bs : List Byte} {y : Frame} (h : Keeps F r s)
    (hF : Part.within [.now, .free, .regs, .leases, .xing, .notices] F) : Keeps F r (s.handOver e c bs y) := by
  refine h.andThen hF ?_
  unfold State.handOver
  dsimp only
  split
  · exact .refl
  · split
    · exact .refl
    · refine .ite ?_ ?_
      · exact .setXing ((.frameWrite (.setFrame (.takeCells (.giveCells
          (.dropCellLease .refl rfl) rfl) rfl) rfl) rfl)) rfl rfl
      · exact .endCellLease (.offerFrame .refl rfl) rfl

theorem completeTx {n i code segs : ℕ} (h : Keeps F r s)
    (hF : Part.within [.now, .regs, .engines, .msixPba, .ports, .out] F) : Keeps F r (s.completeTx n i code segs) :=
  h.andThen hF (.bind (fun h1 => .fire (.ite h1 (.ethCount h1 rfl)) rfl) (.setPort .refl rfl))

theorem takeTx {d n : ℕ} (h : Keeps F r s)
    (hF : Part.within [.now, .free, .regs, .leases, .engines, .msixPba, .xing, .ports, .notices, .out] F)
        : Keeps F r (s.takeTx d n) := by
  refine h.andThen hF ?_
  unfold State.takeTx
  dsimp only
  refine .ite ?_ ?_
  · refine .ite ?_ ?_
    · exact .completeTx (.markHanded (.endCellLease ((.foldl .refl (fun _ _ h2 => .ethCount
        (.offerFrame h2 rfl) rfl))) rfl) rfl) rfl
    · exact .completeTx (.handOver (.markHanded .refl rfl) rfl) rfl
  · exact .completeTx ((.ite (.count .refl rfl) .refl)) rfl

theorem execRxHead {n e v : ℕ} (h : Keeps F r s)
    {t : State} (ht : execRxHead n e v s = .next t)
        (hF : Part.within [.now, .regs, .leases, .xing, .ports, .notices] F) : Keeps F r t := by
  refine h.andThen hF (.ofNext ht ?_)
  dsimp only
  exact .live .refl (fun _ h1 => .ite (.ite (.setPort ((.foldl h1 (fun _ _ h3 => .ite h3 (by
    split
    · exact .endCellLease h3 rfl
    · exact h3)))) rfl) (.setFlag h1 rfl)) h1)

theorem execRxCtrl {n e : ℕ} {v : Word} (h : Keeps F r s)
    {t : State} (ht : execRxCtrl n e v s = .next t) (hF : Part.within [.engines, .ports] F) : Keeps F r t :=
  h.andThen hF (.ofNext ht (.live .refl (fun _ h1 => .ite (.ite (.refusePort h1 rfl) (.setPort h1 rfl)) h1)))

theorem execTxTail {n e v : ℕ} (h : Keeps F r s)
    {t : State} (ht : execTxTail n e v s = .next t) (hF : Part.within [.ports] F) : Keeps F r t :=
  h.andThen hF (.ofNext ht (.live .refl (fun _ h1 => .ite (.setPort h1 rfl) h1)))

theorem execTxDescriptor {d : ℕ} (h : Keeps F r s)
    {t : State} (ht : execTxDescriptor d s = .next t)
        (hF : Part.within [.now, .free, .regs, .leases, .engines, .msixPba, .xing, .ports, .txTurn, .notices, .out] F)
            : Keeps F r t := by
  refine h.andThen hF (.ofNext ht ?_)
  exact .offered .refl (fun _ h1 => by
    split
    · exact .takeTx (.with_txTurn h1 rfl) rfl
    · exact h1) rfl

theorem execAlloc {n e : ℕ} {v : Word} (h : Keeps F r s)
    {t : State} (ht : execAlloc n e v s = .next t) (hF : Part.within [.free, .regs, .leases, .xing, .ports] F)
        : Keeps F r t :=
  h.andThen hF (.ofNext ht (.live .refl (fun _ h1 => .ite (.ite (.setPort ((.takeCellLease
      (.newFrame h1 rfl) rfl)) rfl) (.setPort h1 rfl)) h1)))

theorem execAptA {n e l : ℕ} {b : Bool} {v : Word} (h : Keeps F r s)
    {t : State} (ht : execAptA n e l b v s = .next t) (hF : Part.within [.engines, .ports] F) : Keeps F r t :=
  h.andThen hF (.ofNext ht (.live .refl (fun _ h1 => .ite (.ite (.refusePort h1 rfl) (.setPort h1 rfl)) h1)))

theorem execHostTxDescriptor (h : Keeps F r s) {t : State} (ht : execHostTxDescriptor s = .next t)
    (hF : Part.within [.now, .free, .regs, .msixPba, .xing, .hostMem, .out] F) : Keeps F r t := by
  refine h.andThen hF (.ofNext ht (.offered .refl (fun u h1 => .ite (.raiseIrq (.setFld ?_ rfl) rfl) h1) rfl))
  exact .with_hostMem (.ite (.offerFrame h1 rfl) h1) (fun hm => Mem.wf_writeLE _ _ _ (Mem.wf_writeLE _ _ _ hm)) rfl

theorem leaveThru {n : ℕ} {t' : ThruFrame} (h : Keeps F r s)
    (hF : Part.within [.now, .regs, .msixPba, .out] F) : Keeps F r (s.leaveThru n t') := by
  refine h.andThen hF ?_
  unfold State.leaveThru
  dsimp only
  split
  · exact .bind (fun h1 => .emit (.ite h1 (.ethCount h1 rfl)) rfl) (.countTx .refl rfl)
  · exact .refl

theorem finishThru {n : ℕ} (h : Keeps F r s)
    (hF : Part.within [.now, .regs, .msixPba, .ports, .out] F) : Keeps F r (s.finishThru n) := by
  refine h.andThen hF ?_
  unfold State.finishThru
  dsimp only
  split
  · refine .ite ?_ ?_
    · exact .leaveThru (.setPort ((.foldl (.setPort .refl rfl) (fun _ _ h2 => .leaveThru h2 rfl))) rfl) rfl
    · exact (.foldl (.setPort .refl rfl) (fun _ _ h2 => .leaveThru h2 rfl))
  · exact (.foldl (.setPort .refl rfl) (fun _ _ h2 => .leaveThru h2 rfl))

theorem finishThrus (h : Keeps F r s)
    (hF : Part.within [.now, .regs, .msixPba, .ports, .out] F) : Keeps F r (s.finishThrus) :=
  h.andThen hF (.foldl .refl (fun _ _ h1 => .finishThru h1 rfl))

theorem execThruFrame {n : ℕ} {rx : ThruRx} (h : Keeps F r s)
    {t : State} (ht : execThruFrame n rx s = .next t)
        (hF : Part.within [.now, .regs, .msixPba, .xing, .ports, .out] F) : Keeps F r t :=
  h.andThen hF (.ofNext ht (.clocked .refl (fun _ h1 => .ite (.bind (fun h3 => .setPort ((.ite (.ethCount h3 rfl)
      (.ite (.drop h3 rfl) h3))) rfl) (.macReceive ((.finishThru h1 rfl)) rfl)) h1)))

theorem execPatchArrival {n p : ℕ} {bs : List Byte} (h : Keeps F r s)
    {t : State} (ht : execPatchArrival n p bs s = .next t)
        (hF : Part.within [.now, .regs, .engines, .msixPba, .ports, .out] F) : Keeps F r t := by
  refine h.andThen hF (.ofNext ht ?_)
  dsimp only
  exact .offered .refl (fun _ h1 => .ite (by
    split
    · exact .ite (.ethCount (.setPort h1 rfl) rfl) (.fire (.ethCount h1 rfl) rfl)
    · exact .fire (.ethCount h1 rfl) rfl) h1) rfl

theorem finishLoad {e : ℕ} {w : LoadWait} {v : ℕ} (h : Keeps F r s)
    (hF : Part.within [.engines, .gregs] F) : Keeps F r (s.finishLoad e w v) :=
  h.andThen hF (.advance (.wr (.setEng .refl ⟨rfl, rfl, rfl⟩ rfl) rfl) rfl)

theorem execPatchWindowLoad {e : ℕ} (h : Keeps F r s)
    {t : State} (ht : execPatchWindowLoad e s = .next t) (hF : Part.within [.engines, .gregs] F) : Keeps F r t := by
  refine h.andThen hF (.ofNext ht ?_)
  exact .live .refl (fun _ h1 => by
    split
    · refine .ite ?_ ?_
      · exact h1
      · split
        · exact .finishLoad h1 rfl
        · exact h1
    · exact h1)

theorem setProxy {d i : ℕ} {x : Proxy} (h : Keeps F r s)
    (hF : Part.within [.red] F) : Keeps F r (s.setProxy d i x) :=
  h.andThen hF (.setRed .refl rfl)

theorem queueRecord {d i head : ℕ} {words : List Word} (h : Keeps F r s)
    (hF : Part.within [.now, .regs, .red] F) : Keeps F r (s.queueRecord d i head words) :=
  h.andThen hF (.bind (fun h1 => .ite (.count h1 rfl) (.setRed h1 rfl)) (.setProxy .refl rfl))

theorem proxyCan {d n obj : ℕ} {words : List Word} (h : Keeps F r s)
    (hF : Part.within [.now, .regs, .red] F) : Keeps F r (s.proxyCan d n obj words) :=
  h.andThen hF (.foldl .refl (fun _ _ h1 => .queueRecord h1 rfl))

theorem flushProxy {d i : ℕ} (h : Keeps F r s)
    (hF : Part.within [.now, .regs, .red] F) : Keeps F r (s.flushProxy d i) :=
  h.andThen hF (.ite .refl (.queueRecord .refl rfl))

theorem proxySerial {d n char entry : ℕ} (h : Keeps F r s)
    (hF : Part.within [.now, .regs, .red] F) : Keeps F r (s.proxySerial d n char entry) :=
  h.andThen hF (.foldl .refl (fun _ _ h1 => .bind (fun h3 => .ite (.flushProxy h3 rfl) h3) (.setProxy ((.ite
      (.flushProxy h1 rfl) h1)) rfl)))

theorem setCan {n : ℕ} {x : Can} (h : Keeps F r s)
    (hF : Part.within [.cans] F) : Keeps F r (s.setCan n x) :=
  h.andThen hF (.with_cans .refl rfl)

theorem setRxObj {n o : ℕ} {x : RxObj} (h : Keeps F r s)
    (hF : Part.within [.cans] F) : Keeps F r (s.setRxObj n o x) :=
  h.andThen hF (.setCan .refl rfl)

theorem setTxObj {n t' : ℕ} {x : TxObj} (h : Keeps F r s)
    (hF : Part.within [.cans] F) : Keeps F r (s.setTxObj n t' x) :=
  h.andThen hF (.setCan .refl rfl)

theorem setCanOp {n op : ℕ} (h : Keeps F r s)
    (hF : Part.within [.now, .regs, .engines, .cans] F) : Keeps F r (s.setCanOp n op) := by
  refine h.andThen hF ?_
  unfold State.setCanOp
  dsimp only
  refine .ite ?_ ?_
  · exact .refl
  · exact .bind (fun h2 => .fire (.ite (.setFlag h2 rfl) h2) rfl) (.setFld ((.ite .refl (.setCan .refl rfl))) rfl)

theorem canFollow {n : ℕ} (h : Keeps F r s)
    (hF : Part.within [.now, .regs, .engines, .cans] F) : Keeps F r (s.canFollow n) := by
  refine h.andThen hF ?_
  unfold State.canFollow
  dsimp only
  refine .ite ?_ ?_
  · exact .ite .refl (.ite (.setFlag .refl rfl) (.setCanOp .refl rfl))
  · exact .ite (.ite (.setCanOp .refl rfl) .refl) (.ite .refl (.setCanOp .refl rfl))

theorem canLoad {n : ℕ} (h : Keeps F r s)
    (hF : Part.within [.now, .regs, .engines, .cans] F) : Keeps F r (s.canLoad n) := by
  refine h.andThen hF ?_
  unfold State.canLoad
  dsimp only
  exact .setCanOp (.setCan ((by
    split
    · exact .ite (.fire (.setTxObj .refl rfl) rfl) (.setTxObj .refl rfl)
    · exact .refl)) rfl) rfl

theorem setErr {n tec rec' : ℕ} (h : Keeps F r s)
    (hF : Part.within [.now, .regs, .engines] F) : Keeps F r (s.setErr n tec rec') :=
  h.andThen hF (.bind (fun h2 => .bind (fun h3 => .ite (.fire h3 rfl) h3) (.ite (.count h2 rfl) h2)) (.setFlag
      (.setFld ((.setFld (.setFld .refl rfl) rfl)) rfl) rfl))

theorem goodTx {n : ℕ} (h : Keeps F r s)
    (hF : Part.within [.now, .regs, .engines] F) : Keeps F r (s.goodTx n) :=
  h.andThen hF (.ite (.setErr .refl rfl) .refl)

theorem goodRx {n : ℕ} (h : Keeps F r s)
    (hF : Part.within [.now, .regs, .engines] F) : Keeps F r (s.goodRx n) :=
  h.andThen hF (.ite (.setErr .refl rfl) .refl)

theorem applyRx {n o : ℕ} {words : List Word} {lost : Bool} (h : Keeps F r s)
    (hF : Part.within [.now, .regs, .engines, .cans] F) : Keeps F r (s.applyRx n o words lost) :=
  h.andThen hF (.bind (fun h2 => .ite (.fire h2 rfl) h2) (.count ((.setRxObj .refl rfl)) rfl))

theorem updateRx {n o : ℕ} {words : List Word} (h : Keeps F r s)
    (hF : Part.within [.now, .regs, .engines, .cans] F) : Keeps F r (s.updateRx n o words) := by
  refine h.andThen hF ?_
  unfold State.updateRx
  dsimp only
  refine .ite ?_ ?_
  · exact .bind (fun h1 => .ite (.count h1 rfl) h1) (.setRxObj .refl rfl)
  · exact .bind (fun h1 => .ite (.count h1 rfl) h1) (.applyRx .refl rfl)

theorem applyDue {n o : ℕ} (h : Keeps F r s)
    (hF : Part.within [.now, .regs, .engines, .cans] F) : Keeps F r (s.applyDue n o) :=
  h.andThen hF (.foldl (.setCan .refl rfl) (fun _ _ h1 => .updateRx h1 rfl))

theorem settleCan {n : ℕ} (h : Keeps F r s)
    (hF : Part.within [.now, .regs, .engines, .cans] F) : Keeps F r (s.settleCan n) :=
  h.andThen hF (.foldl (.setCan .refl rfl) (fun _ _ h1 => .updateRx h1 rfl))

theorem settleCans (h : Keeps F r s)
    (hF : Part.within [.now, .regs, .engines, .cans] F) : Keeps F r (s.settleCans) :=
  h.andThen hF (.foldl .refl (fun _ _ h1 => .settleCan h1 rfl))

theorem releaseRx {n o : ℕ} (h : Keeps F r s)
    (hF : Part.within [.now, .regs, .leases, .engines, .cans] F) : Keeps F r (s.releaseRx n o) := by
  refine h.andThen hF ?_
  unfold State.releaseRx
  dsimp only
  split
  · exact .applyRx ((.setRxObj ((.with_leases .refl rfl)) rfl)) rfl
  · exact (.setRxObj ((.with_leases .refl rfl)) rfl)

theorem lockRx {e n o : ℕ} (h : Keeps F r s)
    (hF : Part.within [.leases] F) : Keeps F r (s.lockRx e n o) :=
  h.andThen hF (.addLease .refl rfl)

theorem openRx {n o : ℕ} (h : Keeps F r s)
    (hF : Part.within [.now, .regs, .engines, .cans] F) : Keeps F r (s.openRx n o) :=
  h.andThen hF (.ite (.applyDue .refl rfl) .refl)

theorem touchWord0 {e n o : ℕ} (h : Keeps F r s)
    (hF : Part.within [.now, .regs, .leases, .engines, .cans] F) : Keeps F r (s.touchWord0 e n o) := by
  refine h.andThen hF ?_
  unfold State.touchWord0
  dsimp only
  split
  · exact .lockRx (.openRx .refl rfl) rfl
  · exact .ite (.with_now .refl rfl) .refl

theorem touchWord19 {e n o : ℕ} (h : Keeps F r s)
    (hF : Part.within [.now, .regs, .leases, .engines, .cans] F) : Keeps F r (s.touchWord19 e n o) :=
  h.andThen hF (.ite (.applyDue (.releaseRx .refl rfl) rfl) .refl)

theorem reclaimRx {i : ℕ} {holder : Ident} (h : Keeps F r s)
    (hF : Part.within [.now, .regs, .leases, .engines, .cans] F) : Keeps F r (s.reclaimRx i holder) :=
  h.andThen hF (.bind (fun h1 => .ite (.lockRx h1 rfl) h1) (.releaseRx .refl rfl))

theorem endTx {n t' state : ℕ} (h : Keeps F r s)
    (hF : Part.within [.now, .regs, .engines, .cans] F) : Keeps F r (s.endTx n t' state) :=
  h.andThen hF (.fire (.setTxObj .refl rfl) rfl)

theorem txRequest {n t' : ℕ} (h : Keeps F r s)
    (hF : Part.within [.now, .regs, .engines, .cans] F) : Keeps F r (s.txRequest n t').2 := by
  refine h.andThen hF ?_
  unfold State.txRequest
  dsimp only
  refine .ite_snd ?_ ?_
  · exact .endTx .refl rfl
  · refine .ite_snd ?_ ?_
    · exact .refl
    · exact .setTxObj .refl rfl

theorem txCancel {n t' : ℕ} (h : Keeps F r s)
    (hF : Part.within [.now, .regs, .engines, .cans] F) : Keeps F r (s.txCancel n t').2 := by
  refine h.andThen hF ?_
  unfold State.txCancel
  dsimp only
  refine .ite_snd ?_ ?_
  · exact .endTx .refl rfl
  · refine .ite_snd ?_ ?_
    · exact .setTxObj .refl rfl
    · exact .refl

theorem failAttempt {n t' : ℕ} {first : Bool} (h : Keeps F r s)
    (hF : Part.within [.now, .regs, .engines, .cans] F) : Keeps F r (s.failAttempt n t' first) :=
  h.andThen hF (.ite (.endTx .refl rfl) (.ite (.endTx .refl rfl) (.setTxObj .refl rfl)))

theorem frameEnd {n : ℕ} {suspend : Bool} (h : Keeps F r s)
    (hF : Part.within [.now, .regs, .engines, .cans] F) : Keeps F r (s.frameEnd n suspend) :=
  h.andThen hF (.canFollow (.setCan .refl rfl) rfl)

theorem busIdle {n : ℕ} (h : Keeps F r s)
    (hF : Part.within [.now, .regs, .engines, .cans] F) : Keeps F r (s.busIdle n) :=
  h.andThen hF (.canFollow (.setCan .refl rfl) rfl)

theorem startAttempt {n : ℕ} (h : Keeps F r s)
    (hF : Part.within [.cans] F) : Keeps F r (s.startAttempt n) := by
  refine h.andThen hF ?_
  unfold State.startAttempt
  dsimp only
  split
  · exact .setTxObj ((.setCan .refl rfl)) rfl
  · exact .refl

theorem measureTdc {n t' : ℕ} {tdc : Option ℕ} (h : Keeps F r s)
    (hF : Part.within [.regs] F) : Keeps F r (s.measureTdc n t' tdc) := by
  refine h.andThen hF ?_
  unfold State.measureTdc
  split
  · exact .ite (.setFld .refl rfl) .refl
  · exact .refl

theorem writeTxWord {n t' w : ℕ} {v : Word} (h : Keeps F r s)
    {t : State} (ht : s.writeTxWord n t' w v = some t) (hF : Part.within [.now, .regs, .engines, .cans] F)
        : Keeps F r t := by
  refine h.andThen hF ?_
  unfold State.writeTxWord at ht
  dsimp only at ht
  split at ht
  · exact nomatch ht
  · split at ht
    · split at ht
      · exact .ofSome ht (.txRequest .refl rfl)
      · exact .ofSome ht (.txCancel .refl rfl)
      · exact .ofSome ht (.setFlag .refl rfl)
      · exact .ofSome ht .refl
    · split at ht
      · exact nomatch ht
      · exact .ofSome ht (.setTxObj .refl rfl)

theorem canResult {n cmd code : ℕ} {who : Ident} (h : Keeps F r s)
    (hF : Part.within [.now, .regs] F) : Keeps F r (s.canResult n cmd code who) :=
  h.andThen hF (.countCode (.setReg .refl rfl) rfl)

theorem canCommand {who : Ident} {n : ℕ} {f : State → State} (h : Keeps F r s) (hf : ∀ u, Keeps F r u → Keeps F r (f u))
    (hF : Part.within [.now, .regs, .engines] F) : Keeps F r (s.canCommand who n f) := by
  unfold State.canCommand
  refine .ite ?_ ?_
  · exact .unitWrite h (fun _ h1 => .oneAtATime h1 (fun _ h2 => hf _ h2) (hF := Part.sub hF rfl))
      (hF := Part.sub hF rfl)
  · exact .absentHit h (hF := Part.sub hF rfl)

theorem resetCan {n : ℕ} (h : Keeps F r s)
    (hF : Part.within [.cans] F) : Keeps F r (s.resetCan n) :=
  h.andThen hF (.setCan .refl rfl)

theorem execCanEnable {n : ℕ} {who : Ident} (h : Keeps F r s)
    {t : State} (ht : execCanEnable n who s = .next t) (hF : Part.within [.now, .regs, .engines, .cans] F)
        : Keeps F r t :=
  h.andThen hF (.ofNext ht (.served .refl (fun _ h1 => .ite (.unitWrite h1 (fun _ h2 => .canFollow
      (.setFlag h2 rfl) rfl) rfl) (.absentHit h1 rfl)) rfl))

theorem execCanDisable {n : ℕ} {who : Ident} (h : Keeps F r s)
    {t : State} (ht : execCanDisable n who s = .next t) (hF : Part.within [.now, .regs, .engines, .cans] F)
        : Keeps F r t :=
  h.andThen hF (.ofNext ht (.served .refl (fun _ h1 => .ite (.unitWrite h1 (fun _ h2 => .canFollow
      (.setFlag h2 rfl) rfl) rfl) (.absentHit h1 rfl)) rfl))

theorem execIntegrationDone {n : ℕ} (h : Keeps F r s)
    {t : State} (ht : execIntegrationDone n s = .next t) (hF : Part.within [.now, .regs, .engines, .cans] F)
        : Keeps F r t :=
  h.andThen hF (.ofNext ht (.clocked .refl (fun _ h1 => .ite (.setCanOp (.setCan h1 rfl) rfl) (.ite
      (.busIdle h1 rfl) h1))))

theorem canSof {n held cnt : ℕ} (h : Keeps F r s)
    (hF : Part.within [.now, .regs, .engines, .tb, .cans] F) : Keeps F r (canSof s n held cnt) := by
  refine h.andThen hF ?_
  unfold Machine.canSof
  dsimp only
  split
  · exact .setCan (.tsqHardware ((.fire .refl rfl)) rfl) rfl
  · exact .setCan ((.fire .refl rfl)) rfl

theorem execCanSof {n : ℕ} (h : Keeps F r s)
    {t : State} (ht : execCanSof n s = .next t)
        (hF : Part.within [.now, .regs, .syncs, .merges, .engines, .tb, .cans] F) : Keeps F r t := by
  refine h.andThen hF (.ofNext ht ?_)
  dsimp only
  exact .clocked .refl (fun _ h1 => .ite (.raiseLine (.setCan ((by
    split
    · exact .setTxObj ((.countWrap (.startAttempt h1 rfl) rfl)) rfl
    · exact (.countWrap (.startAttempt h1 rfl) rfl))) rfl) (fun _ h4 => .canSof h4 rfl) rfl) h1)

theorem execFrameValid {n : ℕ} {f : CanFrame} (h : Keeps F r s)
    {t : State} (ht : execFrameValid n f s = .next t) (hF : Part.within [.now, .regs, .engines, .red, .cans, .out] F)
        : Keeps F r t := by
  refine h.andThen hF (.ofNext ht ?_)
  dsimp only
  exact .live .refl (fun _ h1 => .ite h1 (.through h1 (fun _ h2 => .ite (.ite (.frameEnd h2 rfl) h2) (.ite (.frameEnd
      ((by
    split
    · exact .setCan ((by
        split
        · exact .proxyCan ((.goodRx ((.ite (.emit h2 rfl) h2)) rfl)) rfl
        · exact (.goodRx ((.ite (.emit h2 rfl) h2)) rfl))) rfl
    · exact .count ((.goodRx ((.ite (.emit h2 rfl) h2)) rfl)) rfl)) rfl) h2)) rfl))

theorem execObjectWord0Read {e n o : ℕ} (h : Keeps F r s)
    {t : State} (ht : execObjectWord0Read e n o s = .next t)
        (hF : Part.within [.now, .regs, .leases, .engines, .cans] F) : Keeps F r t :=
  h.andThen hF (.ofNext ht (.live .refl (fun _ h1 => .ite (.touchWord0 h1 rfl) h1)))

theorem execObjectWord19Read {e n o : ℕ} (h : Keeps F r s)
    {t : State} (ht : execObjectWord19Read e n o s = .next t)
        (hF : Part.within [.now, .regs, .leases, .engines, .cans] F) : Keeps F r t :=
  h.andThen hF (.ofNext ht (.live .refl (fun _ h1 => .ite (.touchWord19 h1 rfl) h1)))

theorem execCanRxid {n o : ℕ} {v : Word} {who : Ident} (h : Keeps F r s)
    {t : State} (ht : execCanRxid n o v who s = .next t) (hF : Part.within [.now, .regs, .engines, .cans] F)
        : Keeps F r t :=
  h.andThen hF (.ofNext ht (.served .refl (fun _ h1 => .ite (.unitWrite h1 (fun _ h2 => .ite (.setFlag h2 rfl)
      (.setRxObj (.setReg h2 rfl) rfl)) rfl) (.absentHit h1 rfl)) rfl))

theorem execTxRequest {n t' : ℕ} {who : Ident} (h : Keeps F r s)
    {t : State} (ht : execTxRequest n t' who s = .next t) (hF : Part.within [.now, .regs, .engines, .cans] F)
        : Keeps F r t :=
  h.andThen hF (.ofNext ht (.served .refl (fun _ h1 => .canCommand h1 (fun _ h2 => .canResult
      (.txRequest h2 rfl) rfl) rfl) rfl))

theorem execTxCancel {n t' : ℕ} {who : Ident} (h : Keeps F r s)
    {t : State} (ht : execTxCancel n t' who s = .next t) (hF : Part.within [.now, .regs, .engines, .cans] F)
        : Keeps F r t :=
  h.andThen hF (.ofNext ht (.served .refl (fun _ h1 => .canCommand h1 (fun _ h2 => .canResult
      (.txCancel h2 rfl) rfl) rfl) rfl))

theorem execBoffRecover {n : ℕ} {who : Ident} (h : Keeps F r s)
    {t : State} (ht : execBoffRecover n who s = .next t) (hF : Part.within [.now, .regs, .engines] F) : Keeps F r t :=
  h.andThen hF (.ofNext ht (.served .refl (fun _ h1 => .canCommand h1 (fun _ h2 => .ite (.canResult (.fire
      (.setFlag h2 rfl) rfl) rfl) (.canResult h2 rfl)) rfl) rfl))

theorem execArbitrationChoice {n : ℕ} (h : Keeps F r s)
    {t : State} (ht : execArbitrationChoice n s = .next t) (hF : Part.within [.cans] F) : Keeps F r t :=
  h.andThen hF (.ofNext ht (.clocked .refl (fun _ h1 => .ite (.setCan h1 rfl) h1)))

theorem execAttemptEnd {n : ℕ} {how : Attempt} {tdc : Option ℕ} (h : Keeps F r s)
    {t : State} (ht : execAttemptEnd n how tdc s = .next t) (hF : Part.within [.now, .regs, .engines, .cans, .out] F)
        : Keeps F r t := by
  refine h.andThen hF (.ofNext ht ?_)
  dsimp only
  exact .clocked .refl (fun _ h1 => by
    split
    · split
      · exact .frameEnd (.goodTx (.emit (.count (.endTx ((.ite h1 (.measureTdc h1 rfl))) rfl) rfl) rfl) rfl) rfl
      · exact .failAttempt ((.ite h1 (.measureTdc h1 rfl))) rfl
      · exact .frameEnd (.failAttempt ((.ite h1 (.measureTdc h1 rfl))) rfl) rfl
    · exact .ite (.frameEnd h1 rfl) h1)

theorem execBusError {n : ℕ} {err : CanError} {spot : ErrorSpot} {exempt : Bool} {more : ℕ} (h : Keeps F r s)
    {t : State} (ht : execBusError n err spot exempt more s = .next t)
        (hF : Part.within [.now, .regs, .engines, .cans, .out] F) : Keeps F r t := by
  refine h.andThen hF (.ofNext ht ?_)
  dsimp only
  exact .clocked .refl (fun _ h1 => .ite (.ite (.frameEnd h1 rfl) h1) (.ite (by
    refine .ite ?_ ?_
    · exact .setCan ((.count ((by
        split
        · exact .measureTdc h1 rfl
        · exact h1)) rfl)) rfl
    · refine .ite ?_ ?_
      · exact (by
          split
          · exact .measureTdc h1 rfl
          · exact h1)
      · split
        · refine .ite ?_ ?_
          · exact .frameEnd (.failAttempt ((.ite ((.count (.setFlag (.setFlag (.setFld ((.ite (.emit ((by
            split
            · exact .measureTdc h1 rfl
            · exact h1)) rfl) ((by
            split
            · exact .measureTdc h1 rfl
            · exact h1)))) rfl) rfl) rfl) rfl)) (.ite (.setErr ((.count (.setFlag (.setFlag (.setFld ((.ite (.emit ((by
            split
            · exact .measureTdc h1 rfl
            · exact h1)) rfl) ((by
            split
            · exact .measureTdc h1 rfl
            · exact h1)))) rfl) rfl) rfl) rfl)) rfl) (.setErr ((.count (.setFlag (.setFlag (.setFld ((.ite (.emit ((by
            split
            · exact .measureTdc h1 rfl
            · exact h1)) rfl) ((by
            split
            · exact .measureTdc h1 rfl
            · exact h1)))) rfl) rfl) rfl) rfl)) rfl)))) rfl) rfl
          · exact (.ite ((.count (.setFlag (.setFlag (.setFld ((.ite (.emit ((by
            split
            · exact .measureTdc h1 rfl
            · exact h1)) rfl) ((by
            split
            · exact .measureTdc h1 rfl
            · exact h1)))) rfl) rfl) rfl) rfl)) (.ite (.setErr ((.count (.setFlag (.setFlag (.setFld ((.ite (.emit ((by
            split
            · exact .measureTdc h1 rfl
            · exact h1)) rfl) ((by
            split
            · exact .measureTdc h1 rfl
            · exact h1)))) rfl) rfl) rfl) rfl)) rfl) (.setErr ((.count (.setFlag (.setFlag (.setFld ((.ite (.emit ((by
            split
            · exact .measureTdc h1 rfl
            · exact h1)) rfl) ((by
            split
            · exact .measureTdc h1 rfl
            · exact h1)))) rfl) rfl) rfl) rfl)) rfl)))
        · exact .frameEnd ((.ite ((.count (.setFlag (.setFlag (.setFld ((.ite (.emit ((by
            split
            · exact .measureTdc h1 rfl
            · exact h1)) rfl) ((by
            split
            · exact .measureTdc h1 rfl
            · exact h1)))) rfl) rfl) rfl) rfl)) (.ite (.setErr ((.count (.setFlag (.setFlag (.setFld ((.ite (.emit ((by
            split
            · exact .measureTdc h1 rfl
            · exact h1)) rfl) ((by
            split
            · exact .measureTdc h1 rfl
            · exact h1)))) rfl) rfl) rfl) rfl)) rfl) (.setErr ((.count (.setFlag (.setFlag (.setFld ((.ite (.emit ((by
            split
            · exact .measureTdc h1 rfl
            · exact h1)) rfl) ((by
            split
            · exact .measureTdc h1 rfl
            · exact h1)))) rfl) rfl) rfl) rfl)) rfl)))) rfl) h1))

theorem execRecoveryDone {n : ℕ} (h : Keeps F r s)
    {t : State} (ht : execRecoveryDone n s = .next t) (hF : Part.within [.now, .regs, .engines, .cans] F)
        : Keeps F r t :=
  h.andThen hF (.ofNext ht (.clocked .refl (fun _ h1 => .ite (.busIdle (.fire (.setFld (.setFld (.setFlag (.setFld
      (.setFlag h1 rfl) rfl) rfl) rfl) rfl) rfl) rfl) h1)))

theorem setImg {x : Image} (h : Keeps F r s)
    (hF : Part.within [.img] F) : Keeps F r (s.setImg x) :=
  h.andThen hF (.with_img .refl rfl)

theorem setPoint {p : ℕ} {x : Point} (h : Keeps F r s)
    (hF : Part.within [.img] F) : Keeps F r (s.setPoint p x) :=
  h.andThen hF (.setImg .refl rfl)

theorem setImgTxn {t' : ℕ} {x : ImgTxn} (h : Keeps F r s)
    (hF : Part.within [.img] F) : Keeps F r (s.setImgTxn t' x) :=
  h.andThen hF (.setImg .refl rfl)

theorem showImg (h : Keeps F r s)
    (hF : Part.within [.regs] F) : Keeps F r (s.showImg) :=
  h.andThen hF (.setFld (.setFld .refl rfl) rfl)

theorem setEpoch {e : ℕ} (h : Keeps F r s)
    (hF : Part.within [.regs, .img] F) : Keeps F r (s.setEpoch e) :=
  h.andThen hF (.setReg (.setReg (.setImg .refl rfl) rfl) rfl)

theorem imgPending {b : ℕ} (h : Keeps F r s)
    (hF : Part.within [.now, .regs] F) : Keeps F r (s.imgPending b) :=
  h.andThen hF (.setFlag (.setFlag (.setFld .refl rfl) rfl) rfl)

theorem imgDone {who : Ident} {code : ℕ} (h : Keeps F r s)
    (hF : Part.within [.now, .regs, .engines] F) : Keeps F r (s.imgDone who code) :=
  h.andThen hF (.bind (fun h1 => .ite (.fireEngine h1 rfl) h1) (.countCode (.setFlag (.setFld .refl rfl) rfl) rfl))

theorem imgResEpoch {who : Ident} {e : ℕ} (h : Keeps F r s)
    (hF : Part.within [.regs] F) : Keeps F r (s.imgResEpoch who e) :=
  h.andThen hF (.setReg (.setReg .refl rfl) rfl)

theorem imgErr {who : Ident} (h : Keeps F r s)
    (hF : Part.within [.now, .regs] F) : Keeps F r (s.imgErr who) :=
  h.andThen hF (.ite (.setFlag .refl rfl) .refl)

theorem unselect {who : Ident} {t' : ℕ} (h : Keeps F r s)
    (hF : Part.within [.now, .regs] F) : Keeps F r (s.unselect who t') :=
  h.andThen hF (.ite (.setFlag .refl rfl) .refl)

theorem cowCopy {p : ℕ} (h : Keeps F r s)
    (hF : Part.within [.regs, .img] F) : Keeps F r (s.cowCopy p) :=
  h.andThen hF (.ite .refl (.setFld (.setImg .refl rfl) rfl))

theorem putVersion {p : ℕ} {v : Ver} {txn : Option ℕ} {e : ℕ} (h : Keeps F r s)
    (hF : Part.within [.img] F) : Keeps F r (s.putVersion p v txn e) :=
  h.andThen hF (.setPoint .refl rfl)

theorem settleTxn {t' : ℕ} (h : Keeps F r s)
    (hF : Part.within [.img] F) : Keeps F r (s.settleTxn t') :=
  h.andThen hF (.setImg .refl rfl)

theorem applyWrite {p : ℕ} {w : Write} (h : Keeps F r s)
    (hF : Part.within [.regs, .img] F) : Keeps F r (s.applyWrite p w) := by
  refine h.andThen hF ?_
  unfold State.applyWrite
  dsimp only
  split
  · exact .ite (.setImg ((.putVersion (.cowCopy .refl rfl) rfl)) rfl) ((.putVersion (.cowCopy .refl rfl) rfl))
  · exact (.putVersion (.cowCopy .refl rfl) rfl)

/-- A write that has been judged is dropped, applied or kept waiting. -/
theorem judgedWrite {p : ℕ} {w : Write} {c : Prop} [Decidable c] {j : Bool × State} (h : Keeps F r j.2) {t : State}
    (ht : (if !j.1 then some (j.2.count Fld.IMG_DUP_COUNT) else if c then some (j.2.applyWrite p w) else none) = some t)
    (hF : Part.within [.now, .regs, .engines, .red, .img] F) : Keeps F r t := by
  refine h.andThen hF ?_
  split at ht
  · exact .ofSome ht (.count .refl rfl)
  · split at ht
    · exact .ofSome ht (.applyWrite .refl rfl)
    · nomatch ht

theorem tryWrite {p : ℕ} {w : Write} {flow : Option (ℕ × ℕ)} (h : Keeps F r s) {t : State}
    (ht : s.tryWrite p w flow = some t) (hF : Part.within [.now, .regs, .engines, .red, .img] F) : Keeps F r t := by
  refine h.andThen hF ?_
  cases flow with
  | none => exact judgedWrite (j := (true, s)) (w := w) (p := p) (c := s.cowReady p) .refl ht rfl
  | some f =>
    exact judgedWrite (j := s.judge 1 f.1 f.2 (State.writeDigest p w)) (w := w) (p := p) (c := s.cowReady p)
        (.judge .refl rfl) ht rfl

theorem freeSlot {t' : ℕ} (h : Keeps F r s)
    (hF : Part.within [.regs, .leases, .img] F) : Keeps F r (s.freeSlot t') :=
  h.andThen hF (.dropLease (.setReg (.setImgTxn .refl rfl) rfl) rfl)

theorem rollbackSlot {t' : ℕ} (h : Keeps F r s)
    (hF : Part.within [.now, .regs, .leases, .img] F) : Keeps F r (s.rollbackSlot t') :=
  h.andThen hF (.showImg (.unselect (.freeSlot .refl rfl) rfl) rfl)

theorem releasePin {k : ℕ} (h : Keeps F r s)
    (hF : Part.within [.regs, .img] F) : Keeps F r (s.releasePin k) :=
  h.andThen hF (.setReg (.setReg (.setReg (.setReg ((.setImg .refl rfl)) rfl) rfl) rfl) rfl)

theorem markAged {key : ℕ} {who : Option Ident} (h : Keeps F r s)
    (hF : Part.within [.img] F) : Keeps F r (s.markAged key who) :=
  h.andThen hF (.setImg .refl rfl)

theorem ageOut (h : Keeps F r s)
    (hF : Part.within [.now, .regs, .leases, .img] F) : Keeps F r (s.ageOut) :=
  h.andThen hF (.showImg (.foldl ((.foldl .refl (fun _ _ h2 => .ite (.releasePin (.markAged h2 rfl) rfl) h2)))
      (fun _ _ h2 => .ite (.rollbackSlot (.markAged h2 rfl) rfl) h2)) rfl)

theorem endImgOf {who : Ident} {txns : Bool} (h : Keeps F r s)
    (hF : Part.within [.now, .regs, .leases, .img] F) : Keeps F r (s.endImgOf who txns) :=
  h.andThen hF (.showImg (.foldl ((.foldl .refl (fun _ _ h2 => .ite (.releasePin h2 rfl) h2))) (fun _ _ h2 => .ite
      (.rollbackSlot h2 rfl) h2)) rfl)

theorem runBegin {who : Ident} {recipe : Bool} (h : Keeps F r s)
    (hF : Part.within [.now, .regs, .leases, .engines, .img] F) : Keeps F r (s.runBegin who recipe) := by
  refine h.andThen hF ?_
  unfold State.runBegin
  dsimp only
  refine .ite ?_ ?_
  · exact .imgDone .refl rfl
  · split
    · exact .imgDone (.ageOut (.setEpoch ((.setReg (.imgResEpoch (.setFld ((.addLease ((.setReg (.markAged
        (.setImgTxn .refl rfl) rfl) rfl)) rfl)) rfl) rfl) rfl)) rfl) rfl) rfl
    · exact .ite (.imgDone .refl rfl) (.imgDone .refl rfl)

theorem runRollback {who : Ident} {t' : ℕ} (h : Keeps F r s)
    (hF : Part.within [.now, .regs, .leases, .engines, .img] F) : Keeps F r (s.runRollback who t') :=
  h.andThen hF (.bind (fun h1 => .ite (.imgDone (.rollbackSlot h1 rfl) rfl) (.imgDone h1 rfl)) (.setFld .refl rfl))

theorem runPin {who : Ident} {first count : ℕ} (h : Keeps F r s)
    (hF : Part.within [.now, .regs, .leases, .engines, .img] F) : Keeps F r (s.runPin who first count) := by
  refine h.andThen hF ?_
  unfold State.runPin
  dsimp only
  refine .ite ?_ ?_
  · exact .imgDone .refl rfl
  · split
    · exact .imgDone (.ageOut (.setEpoch ((.imgResEpoch (.setFld ((.setReg (.setReg ((.setReg (.setReg ((.markAged
        (.setImg .refl rfl) rfl)) rfl) rfl)) rfl) rfl)) rfl) rfl)) rfl) rfl) rfl
    · exact .imgDone .refl rfl

theorem runUnpin {who : Ident} {k : ℕ} (h : Keeps F r s)
    (hF : Part.within [.now, .regs, .engines, .img] F) : Keeps F r (s.runUnpin who k) :=
  h.andThen hF (.bind (fun h1 => .ite (.imgDone h1 rfl) (.ite (.imgDone h1 rfl) (.imgDone (.showImg
      (.releasePin h1 rfl) rfl) rfl))) (.setFld .refl rfl))

theorem runImgCmd {who : Ident} {x' : ImgCmd} (h : Keeps F r s)
    (hF : Part.within [.now, .regs, .leases, .engines, .img] F) : Keeps F r (s.runImgCmd who x') := by
  refine h.andThen hF ?_
  unfold State.runImgCmd
  split
  · exact .runBegin .refl rfl
  · exact .refl
  · exact .runRollback .refl rfl
  · exact .runPin .refl rfl
  · exact .runUnpin .refl rfl

theorem runCmds (h : Keeps F r s)
    (hF : Part.within [.now, .regs, .leases, .engines, .img] F) : Keeps F r (s.runCmds) := by
  refine h.andThen hF ?_
  unfold State.runCmds
  dsimp only
  split
  · exact .refl
  · exact .refl
  · exact .ite (.runImgCmd (.setImg .refl rfl) rfl) .refl

theorem reachCmd {who : Ident} {c : ImgCmd} (h : Keeps F r s)
    (hF : Part.within [.now, .regs, .leases, .engines, .img] F) : Keeps F r (s.reachCmd who c) :=
  h.andThen hF (.runCmds (.setImg .refl rfl) rfl)

theorem addToSet {who : Ident} {t' p : ℕ} {w : Write} (h : Keeps F r s)
    (hF : Part.within [.now, .regs, .img] F) : Keeps F r (s.addToSet who t' p w) :=
  h.andThen hF (.ite (.count (.imgErr .refl rfl) rfl) (.ite (.setFlag (.count .refl rfl) rfl) (.setImgTxn .refl rfl)))

theorem tryReq {who : Ident} {x' : ImgReq} (h : Keeps F r s)
    {t : State} (ht : s.tryReq who x' = some t) (hF : Part.within [.now, .regs, .leases, .engines, .red, .img] F)
        : Keeps F r t := by
  refine h.andThen hF ?_
  unfold State.tryReq at ht
  split at ht
  · exact .tryWrite .refl ht rfl
  · exact .ofSome ht (.addToSet .refl rfl)
  · exact .ofSome ht (.reachCmd .refl rfl)

theorem request {who : Ident} {r' : ImgReq} (h : Keeps F r s)
    (hF : Part.within [.now, .regs, .leases, .engines, .red, .img] F) : Keeps F r (s.request who r') := by
  refine h.andThen hF ?_
  unfold State.request
  dsimp only
  refine .ite ?_ ?_
  · exact (.setImg .refl rfl)
  · split
    · exact (.tryReq .refl (by assumption) rfl)
    · exact (.setImg .refl rfl)

theorem retry {drop : ImgWait → Bool} {kept ws : List ImgWait} {seen : List Ident} (h : Keeps F r s)
    (hF : Part.within [.now, .regs, .leases, .engines, .red, .img] F) :
    Keeps F r (State.retry drop s kept seen ws) := by
  refine h.andThen hF ?_
  clear h
  induction ws generalizing s kept seen with
  | nil => exact .setImg .refl rfl
  | cons w ws ih =>
    refine .ite ih (.ite ih (.ite ((Keeps.imgErr (.count .refl rfl) rfl).trans ih) ?_))
    split
    · exact (Keeps.tryReq .refl (by assumption) rfl).trans ih
    · exact ih

theorem reclaimSlot {t' : ℕ} (h : Keeps F r s)
    (hF : Part.within [.now, .regs, .leases, .img] F) : Keeps F r (s.reclaimSlot t') := by
  refine h.andThen hF ?_
  unfold State.reclaimSlot
  dsimp only
  refine .ite ?_ ?_
  · exact .rollbackSlot .refl rfl
  · split
    · exact .ite (.setImg .refl rfl) .refl
    · exact .refl

theorem advanceSeq {b : ℕ} (h : Keeps F r s)
    (hF : Part.within [.regs] F) : Keeps F r (s.advanceSeq b) :=
  h.andThen hF (.ite (.countWrap .refl rfl) .refl)

theorem remoteWrite {who : Ident} {p v : ℕ} (h : Keeps F r s)
    (hF : Part.within [.now, .regs, .ave] F) : Keeps F r (s.remoteWrite who p v) :=
  h.andThen hF (.ite (.advanceSeq (.queueMsg .refl rfl) rfl) (.imgErr .refl rfl))

theorem imgStore {who : Ident} {p v : ℕ} (h : Keeps F r s)
    (hF : Part.within [.now, .regs, .leases, .engines, .ave, .red, .img] F) : Keeps F r (s.imgStore who p v) :=
  h.andThen hF (.ite (.remoteWrite .refl rfl) (.ite .refl (.ite (.request .refl rfl) (.advanceSeq
      (.request .refl rfl) rfl))))

theorem readPoint {who : Ident} {p : ℕ} (h : Keeps F r s)
    (hF : Part.within [.free] F) : Keeps F r (s.readPoint who p).2.2 := by
  refine h.andThen hF ?_
  unfold State.readPoint
  dsimp only
  split
  · split
    · exact .draw .refl rfl
    · exact .refl
  · split
    · split
      · split
        · exact .refl
        · split
          · exact .refl
          · exact .refl
      · exact .refl
    · exact .refl

theorem sawLost {p : ℕ} {x : Slotted} (h : Keeps F r s)
    (hF : Part.within [.now, .regs, .notices] F) : Keeps F r (s.sawLost p x) :=
  h.andThen hF (.ite (.notify (.count .refl rfl) rfl) .refl)

theorem imgRead {who : Ident} {p : ℕ} (h : Keeps F r s)
    (hF : Part.within [.now, .free, .regs, .notices] F) : Keeps F r (s.imgRead who p).2 :=
  h.andThen hF (.ite (.foldl ((.sawLost (.readPoint .refl rfl) rfl)) (fun _ _ h2 => .setReg h2 rfl)) ((.sawLost
      (.readPoint .refl rfl) rfl)))

theorem askRemote {who : Ident} {p off bytes : ℕ} (h : Keeps F r s)
    (hF : Part.within [.ave] F) : Keeps F r (s.askRemote who p off bytes) :=
  h.andThen hF (.queueMsg .refl rfl)

theorem endCommit {who : Ident} {code : ℕ} (h : Keeps F r s)
    (hF : Part.within [.now, .regs, .leases, .engines, .red, .img] F) : Keeps F r (s.endCommit who code) :=
  h.andThen hF (.retry ((.runCmds ((.showImg (.imgDone ((.setFlag (.setImg .refl rfl) rfl)) rfl) rfl)) rfl)) rfl)

theorem imgCycle (h : Keeps F r s)
    (hF : Part.within [.now, .regs, .leases, .engines, .red, .img] F) : Keeps F r (s.imgCycle) :=
  h.andThen hF (.ite .refl (.retry ((.runCmds .refl rfl)) rfl))

theorem refuseCommit {r' : ImgRun} {code : ℕ} (h : Keeps F r s)
    (hF : Part.within [.now, .regs, .leases, .engines, .red, .img] F) : Keeps F r (s.refuseCommit r' code) :=
  h.andThen hF (.endCommit (.ite (.rollbackSlot .refl rfl) (.setFld .refl rfl)) rfl)

theorem conflictCommit {who : Ident} {t' : ℕ} (h : Keeps F r s)
    (hF : Part.within [.now, .regs, .leases, .engines, .red, .img] F) : Keeps F r (s.conflictCommit who t') :=
  h.andThen hF (.endCommit (.count (.rollbackSlot .refl rfl) rfl) rfl)

theorem checkCommit (h : Keeps F r s)
    (hF : Part.within [.now, .regs, .leases, .engines, .red, .img] F) : Keeps F r (s.checkCommit) := by
  refine h.andThen hF ?_
  unfold State.checkCommit
  dsimp only
  split
  · refine .ite ?_ ?_
    · exact .endCommit ((.setFld (.setImg .refl rfl) rfl)) rfl
    · refine .ite ?_ ?_
      · exact .endCommit ((.setFld (.setImg .refl rfl) rfl)) rfl
      · refine .ite ?_ ?_
        · exact .endCommit ((.setFld (.setImg .refl rfl) rfl)) rfl
        · refine .ite ?_ ?_
          · exact .endCommit (.imgResEpoch (.setFlag (.rollbackSlot (.count (by
              split
              · exact .judge ((.setFld (.setImg .refl rfl) rfl)) rfl
              · exact (.setFld (.setImg .refl rfl) rfl)) rfl) rfl) rfl) rfl) rfl
          · refine .ite ?_ ?_
            · exact .endCommit ((.setFld (.setImg .refl rfl) rfl)) rfl
            · refine .ite ?_ ?_
              · exact .conflictCommit ((.setFld (.setImg .refl rfl) rfl)) rfl
              · exact .showImg (.setImg ((.setFlag (.setFld ((.setFld (.setImg .refl rfl) rfl)) rfl) rfl)) rfl) rfl
  · exact .refl

theorem commitPoint {r' : ImgRun} (h : Keeps F r s)
    (hF : Part.within [.now, .regs, .leases, .engines, .red, .img] F) : Keeps F r (s.commitPoint r') := by
  refine h.andThen hF ?_
  unfold State.commitPoint
  dsimp only
  exact .endCommit (.ageOut (.imgResEpoch ((.count (.dropLease ((.setFld (.setEpoch ((.foldl ((.foldl ((by
    split
    · exact .judge .refl rfl
    · exact .refl)) (fun _ _ h3 => .cowCopy h3 rfl))) (fun _ _ h4 => by
    split
    · exact .putVersion h4 rfl
    · exact h4))) rfl) rfl)) rfl) rfl)) rfl) rfl) rfl

theorem finishCommit (h : Keeps F r s)
    (hF : Part.within [.now, .regs, .leases, .engines, .red, .img] F) : Keeps F r (s.finishCommit) := by
  refine h.andThen hF ?_
  unfold State.finishCommit
  split
  · exact .ite (.conflictCommit .refl rfl) (.ite .refl (.commitPoint .refl rfl))
  · exact .refl

theorem imgCommand {who : Ident} {c : ImgCmd} (h : Keeps F r s)
    (hF : Part.within [.now, .regs, .leases, .engines, .red, .img] F) : Keeps F r (s.imgCommand who c) := by
  refine h.andThen hF ?_
  unfold State.imgCommand
  dsimp only
  exact .oneAtATime .refl (fun _ h1 => by
    split
    · exact .advanceSeq ((.request (.imgPending h1 rfl) rfl)) rfl
    · exact (.request (.imgPending h1 rfl) rfl)) rfl

theorem execDirectWrite {who : Ident} {p v : ℕ} (h : Keeps F r s)
    {t : State} (ht : execDirectWrite who p v s = .next t)
        (hF : Part.within [.now, .regs, .leases, .engines, .ave, .red, .img] F) : Keeps F r t :=
  h.andThen hF (.ofNext ht (.served .refl (fun _ h1 => .ite h1 (.imgStore h1 rfl)) rfl))

/-- A write-set entry names a point of this chip: its unit is not a remote view. -/
theorem execWriteSetAdd {who : Ident} {p v : ℕ} (h : Keeps F r s) {t : State}
    (ht : execWriteSetAdd who p v s = .next t) (hF : Part.within [.now, .regs, .leases, .engines, .red, .img] F)
        : Keeps F r t := by
  refine h.andThen hF (.ofNext ht (.served .refl (fun u h1 => ?_) rfl))
  split
  · next hGuard =>
    simp only [State.readsRemote, Bool.and_eq_true, Bool.not_eq_true', decide_eq_true_eq] at hGuard
    obtain ⟨⟨hSel, hLocal⟩, hPoint⟩ := hGuard
    unfold State.imgStore
    simp only [hLocal, Bool.false_eq_true, if_false, if_neg (Nat.not_le.mpr hPoint), hSel, if_true]
    exact .request h1 rfl
  · exact h1

theorem execClearSweepDone (h : Keeps F r s)
    {t : State} (ht : execClearSweepDone s = .next t) (hF : Part.within [.now, .regs] F) : Keeps F r t :=
  h.andThen hF (.ofNext ht (.live .refl (fun _ h1 => .ite h1 (.setFlag h1 rfl))))

theorem execImgBegin {who : Ident} {recipe : Bool} (h : Keeps F r s)
    {t : State} (ht : execImgBegin who recipe s = .next t)
        (hF : Part.within [.now, .regs, .leases, .engines, .red, .img] F) : Keeps F r t :=
  h.andThen hF (.ofNext ht (.served .refl (fun _ h1 => .imgCommand h1 rfl) rfl))

theorem execImgCommit {who : Ident} {t' : ℕ} (h : Keeps F r s)
    {t : State} (ht : execImgCommit who t' s = .next t)
        (hF : Part.within [.now, .regs, .leases, .engines, .red, .img] F) : Keeps F r t :=
  h.andThen hF (.ofNext ht (.served .refl (fun _ h1 => .imgCommand h1 rfl) rfl))

theorem execCommitProcessing {whole : Bool} (h : Keeps F r s)
    {t : State} (ht : execCommitProcessing whole s = .next t)
        (hF : Part.within [.now, .regs, .leases, .engines, .red, .img] F) : Keeps F r t :=
  h.andThen hF (.ofNext ht (.live .refl (fun _ h1 => .bind (fun h2 => .ite (.finishCommit h2 rfl) h2) (.ite
      (.checkCommit h1 rfl) h1))))

theorem execSettleComplete {t' : ℕ} (h : Keeps F r s)
    {t : State} (ht : execSettleComplete t' s = .next t) (hF : Part.within [.regs, .leases, .img] F) : Keeps F r t :=
  h.andThen hF (.ofNext ht (.live .refl (fun _ h1 => .ite (.freeSlot (.settleTxn h1 rfl) rfl) h1)))

theorem execImgRollback {who : Ident} {t' : ℕ} (h : Keeps F r s)
    {t : State} (ht : execImgRollback who t' s = .next t)
        (hF : Part.within [.now, .regs, .leases, .engines, .red, .img] F) : Keeps F r t :=
  h.andThen hF (.ofNext ht (.served .refl (fun _ h1 => .imgCommand h1 rfl) rfl))

theorem execPin {who : Ident} (h : Keeps F r s)
    {t : State} (ht : execPin who s = .next t) (hF : Part.within [.now, .regs, .leases, .engines, .red, .img] F)
        : Keeps F r t :=
  h.andThen hF (.ofNext ht (.served .refl (fun _ h1 => .imgCommand h1 rfl) rfl))

theorem execUnpin {who : Ident} {k : ℕ} (h : Keeps F r s)
    {t : State} (ht : execUnpin who k s = .next t) (hF : Part.within [.now, .regs, .leases, .engines, .red, .img] F)
        : Keeps F r t :=
  h.andThen hF (.ofNext ht (.served .refl (fun _ h1 => .imgCommand h1 rfl) rfl))

theorem execCowRecordsFreed (h : Keeps F r s)
    {t : State} (ht : execCowRecordsFreed s = .next t)
        (hF : Part.within [.now, .regs, .leases, .engines, .red, .img] F) : Keeps F r t :=
  h.andThen hF (.ofNext ht (.live .refl (fun _ h1 => .retry ((.setImg (.setFld h1 rfl) rfl)) rfl)))

theorem execCowWaitTimeout (h : Keeps F r s)
    {t : State} (ht : execCowWaitTimeout s = .next t)
        (hF : Part.within [.now, .regs, .leases, .engines, .red, .img] F) : Keeps F r t := by
  refine h.andThen hF (.ofNext ht ?_)
  dsimp only
  exact .live .refl (fun _ h1 => .retry ((by
    split
    · exact .ite (.refuseCommit h1 rfl) h1
    · exact h1)) rfl)

theorem setChannel {c : ℕ} {x : Channel} (h : Keeps F r s)
    (hF : Part.within [.channels] F) : Keeps F r (s.setChannel c x) :=
  h.andThen hF (.with_channels .refl rfl)

theorem mbxErr (h : Keeps F r s)
    (hF : Part.within [.now, .regs] F) : Keeps F r (s.mbxErr) :=
  h.andThen hF (.setFlag .refl rfl)

theorem bellChange {k : ℕ} {before : Bool} (h : Keeps F r s)
    (hF : Part.within [.now, .regs, .engines, .msixPba, .out] F) : Keeps F r (s.bellChange k before) :=
  h.andThen hF (.ite (.ite (.raiseIrq .refl rfl) (.ite (.fireEngine .refl rfl) .refl)) .refl)

theorem ringLocal {src b : ℕ} (h : Keeps F r s) (hF : Part.within [.now, .regs, .engines, .msixPba, .island, .out] F)
    : Keeps F r (s.ringLocal src b) :=
  h.andThen hF (.ite (.through .refl (fun _ h1 => .with_island h1 ⟨rfl, rfl⟩ rfl) rfl) (.bellChange (.setReg
      (.stampSet .refl rfl) rfl) rfl))

theorem ring {t' : Ident} {b : ℕ} (h : Keeps F r s)
    (hF : Part.within [.now, .regs, .engines, .msixPba, .ave, .island, .out] F) : Keeps F r (s.ring t' b) :=
  h.andThen hF (.ite (.ringLocal .refl rfl) (.queueMsg .refl rfl))

theorem islandOutcome {slot code : ℕ} (h : Keeps F r s) (hF : Part.within [.island] F) :
    Keeps F r (s.islandOutcome slot code) :=
  h.andThen hF (.with_island .refl ⟨rfl, rfl⟩ rfl)

theorem finishSend {src : Ident} {slot code : ℕ} {dup : Bool} (h : Keeps F r s)
    (hF : Part.within [.now, .regs, .ave, .island] F) : Keeps F r (s.finishSend src slot code dup) := by
  refine h.andThen hF ?_
  unfold State.finishSend
  dsimp only
  refine .ite ?_ ?_
  · exact .queueMsg .refl rfl
  · exact .ite (.countCode (.islandOutcome .refl rfl) rfl) (.countCode (.setFlag (.setFlag
      (.setFld .refl rfl) rfl) rfl) rfl)

theorem noteEnded {c : ℕ} {x : Channel} (h : Keeps F r s)
    (hF : Part.within [.now] F) : Keeps F r (s.noteEnded c x) :=
  h.andThen hF (.with_now .refl rfl)

theorem freeChannel {c : ℕ} (h : Keeps F r s) (hF : Part.within [.now, .regs, .leases, .ave, .channels, .island] F)
    : Keeps F r (s.freeChannel c) := by
  refine h.andThen hF (.foldl ?_ fun _ _ h1 => .finishSend h1 rfl)
  have hEnded : Keeps [.now, .regs, .leases, .ave, .channels, .island] s
      (((s.setChannel c {}).dropLease 6 0 c).noteEnded c (s.channel c)) :=
    .noteEnded (.dropLease (.setChannel .refl rfl) rfl) rfl
  exact .ite (.with_island hEnded (.loseAll .self) rfl) hEnded

theorem givePlace {who : Ident} {c : ℕ} (h : Keeps F r s)
    (hF : Part.within [.now, .regs, .ave, .red, .channels, .island] F) : Keeps F r (s.givePlace who c) := by
  refine h.andThen hF ?_
  unfold State.givePlace
  dsimp only
  split
  · exact .finishSend ((by
      split
      · exact .setFlowCtx ((.setChannel .refl rfl)) rfl
      · exact (.setChannel .refl rfl))) rfl
  · exact .refl

/-- A message that has been judged joins its channel's queue. -/
theorem queued {c b : ℕ} {sent : SentNow} {x : Channel} {holder : Option Ident}
    (h : Keeps F r s) (hF : Part.within [.now, .regs, .engines, .msixPba, .ave, .red, .channels, .island, .out] F) :
    Keeps F r (match holder with
      | some h => { s.setChannel c x with now := { (s.setChannel c x).now with sent := sent ::
          (s.setChannel c x).now.sent } }.ringLocal
          (Ident.src h) b
      | none => { s.setChannel c x with now := { (s.setChannel c x).now with sent := sent ::
          (s.setChannel c x).now.sent } }) := by
  refine h.andThen hF ?_
  have hSent : Keeps [.now, .regs, .engines, .msixPba, .ave, .red, .channels, .island, .out] s
      { s.setChannel c x with now := { (s.setChannel c x).now with sent := sent :: (s.setChannel c x).now.sent } } :=
    .with_now (.setChannel .refl rfl) rfl
  split
  · exact .ringLocal hSent rfl
  · exact hSent

theorem arrive {who : Ident} {slot c : ℕ} {bs : List Byte} {flow : Option (ℕ × ℕ)} (h : Keeps F r s)
    (hF : Part.within [.now, .regs, .engines, .msixPba, .ave, .red, .channels, .island, .out] F)
        : Keeps F r (s.arrive who slot c bs flow).2.2 := by
  refine h.andThen hF ?_
  unfold State.arrive
  have hPlace : Keeps [.now, .regs, .engines, .msixPba, .ave, .red, .channels, .island, .out] s
      (if s.sendCode who c = Code.busy then s.givePlace who c else s) :=
    .ite (.givePlace .refl rfl) .refl
  dsimp only
  generalize (if s.sendCode who c = Code.busy then s.givePlace who c else s) = s1 at hPlace
  split
  · exact .countCode hPlace rfl
  · cases flow with
    | none => exact queued hPlace rfl
    | some f =>
      dsimp only
      split
      · exact .judgeCounted hPlace rfl
      · exact queued (.judgeCounted hPlace rfl) rfl

theorem showSend {who : Ident} {code : ℕ} {dup : Bool} (h : Keeps F r s)
    (hF : Part.within [.now, .regs] F) : Keeps F r (s.showSend who code dup) :=
  h.andThen hF (.setFlag ((.setFlag (.setFld .refl rfl) rfl)) rfl)

theorem send {who : Ident} {c len : ℕ} {remote : Option ℕ} (h : Keeps F r s)
    (hF : Part.within [.now, .regs, .engines, .msixPba, .ave, .red, .channels, .island, .out] F)
        : Keeps F r (s.send who c len remote) := by
  refine h.andThen hF ?_
  unfold State.send
  dsimp only
  refine .ite ?_ ?_
  · exact .mbxErr .refl rfl
  · exact .oneAtATime .refl (fun _ h1 => by
    split
    · exact .ite (.showSend ((.ite (.countWrap h1 rfl) h1)) rfl) (.showSend (.queueMsg ((.ite
        (.countWrap h1 rfl) h1)) rfl) rfl)
    · exact .showSend (.arrive ((.ite (.countWrap h1 rfl) h1)) rfl) rfl) rfl

theorem mbxResult {who : Ident} {code : ℕ} (h : Keeps F r s)
    (hF : Part.within [.now, .regs] F) : Keeps F r (s.mbxResult who code) :=
  h.andThen hF (.countCode (.setFlag (.setFld .refl rfl) rfl) rfl)

theorem mbxCommand {who : Ident} {f : State → State} (h : Keeps F r s) (hf : ∀ u, Keeps F r u → Keeps F r (f u))
    (hF : Part.within [.now, .regs] F) : Keeps F r (s.mbxCommand who f) :=
  .ite (.oneAtATime h (fun _ h1 => hf _ h1) (hF := Part.sub hF rfl)) h

theorem takeChannel {who : Ident} {c depth dbit : ℕ} {any : Bool} {allow : Ident} (h : Keeps F r s)
    (hF : Part.within [.now, .leases, .channels] F) : Keeps F r (s.takeChannel who c depth dbit any allow) :=
  h.andThen hF (.addLease (.setChannel (.with_now .refl rfl) rfl) rfl)

theorem ackChannel {who : Ident} {c code : ℕ} (h : Keeps F r s)
    (hF : Part.within [.now, .regs, .ave, .channels, .island] F) : Keeps F r (s.ackChannel who c code) := by
  refine h.andThen hF ?_
  unfold State.ackChannel
  dsimp only
  split
  · refine .ite ?_ ?_
    · exact .finishSend (by
      split
      · exact .with_now .refl rfl
      · exact .setChannel .refl rfl) rfl
    · exact .mbxErr .refl rfl
  · exact .mbxErr .refl rfl

theorem dropMessages {src : Ident} (h : Keeps F r s)
    (hF : Part.within [.now, .channels] F) : Keeps F r (s.dropMessages src) := by
  refine h.andThen hF ?_
  unfold State.dropMessages
  dsimp only
  exact .foldl .refl (fun _ _ h1 => .setChannel ((by
    split
    · exact .ite (.noteEnded h1 rfl) h1
    · exact h1)) rfl)

theorem openChannel {who : Ident} {c depth dbit : ℕ} {any : Bool} {allow : Ident} (h : Keeps F r s)
    (hF : Part.within [.now, .regs, .leases, .ave, .channels, .island] F)
        : Keeps F r (s.openChannel who c depth dbit any allow) := by
  refine h.andThen hF ?_
  unfold State.openChannel
  dsimp only
  split
  · exact .mbxResult (.takeChannel .refl rfl) rfl
  · exact .ite (.mbxResult (.takeChannel (.mbxResult (.freeChannel .refl rfl) rfl) rfl) rfl) (.mbxResult .refl rfl)

theorem execOpen {who : Ident} {c depth dbit : ℕ} {any : Bool} {allow : Ident} (h : Keeps F r s)
    {t : State} (ht : execOpen who c depth dbit any allow s = .next t)
        (hF : Part.within [.now, .regs, .leases, .ave, .channels, .island] F) : Keeps F r t :=
  h.andThen hF (.ofNext ht (.served .refl (fun _ h1 => .mbxCommand h1 (fun _ h2 => .openChannel h2 rfl) rfl) rfl))

theorem execClose {who : Ident} {c : ℕ} (h : Keeps F r s)
    {t : State} (ht : execClose who c s = .next t)
        (hF : Part.within [.now, .regs, .leases, .ave, .channels, .island] F) : Keeps F r t :=
  h.andThen hF (.ofNext ht (.served .refl (fun _ h1 => .mbxCommand h1 (fun _ h2 => .ite (.mbxResult
      (.freeChannel h2 rfl) rfl) (.mbxResult h2 rfl)) rfl) rfl))

theorem execRevoke {who : Ident} {c : ℕ} (h : Keeps F r s)
    {t : State} (ht : execRevoke who c s = .next t)
        (hF : Part.within [.now, .regs, .leases, .ave, .channels, .island] F) : Keeps F r t :=
  h.andThen hF (.ofNext ht (.served .refl (fun _ h1 => .mbxCommand h1 (fun _ h2 => .ite (.mbxResult h2 rfl) (.ite
      (.mbxResult h2 rfl) (.mbxResult (.freeChannel h2 rfl) rfl))) rfl) rfl))

theorem execSend {who : Ident} {c len : ℕ} {remote : Option ℕ} (h : Keeps F r s)
    {t : State} (ht : execSend who c len remote s = .next t)
        (hF : Part.within [.now, .regs, .engines, .msixPba, .ave, .red, .channels, .island, .out] F) : Keeps F r t :=
  h.andThen hF (.ofNext ht (.served .refl (fun _ h1 => .ite (.send h1 rfl) h1) rfl))

theorem execAck {who : Ident} {c : ℕ} {code : BitVec 16} (h : Keeps F r s)
    {t : State} (ht : execAck who c code s = .next t) (hF : Part.within [.now, .regs, .ave, .channels, .island] F)
        : Keeps F r t :=
  h.andThen hF (.ofNext ht (.served .refl (fun _ h1 => .ackChannel h1 rfl) rfl))

theorem execMbxAbort {who : Ident} {k : ℕ} (h : Keeps F r s)
    {t : State} (ht : execMbxAbort who k s = .next t) (hF : Part.within [.now, .regs, .ave, .channels, .island] F)
        : Keeps F r t :=
  h.andThen hF (.ofNext ht (.served .refl (fun _ h1 => .ite (.mbxErr h1 rfl) (.ite (.mbxErr h1 rfl) (.ite
      (.finishSend (.dropMessages h1 rfl) rfl) h1))) rfl))

theorem execMbxRing {who t' : Ident} {b : ℕ} (h : Keeps F r s)
    {t : State} (ht : execMbxRing who t' b s = .next t)
        (hF : Part.within [.now, .regs, .engines, .msixPba, .ave, .island, .out] F) : Keeps F r t :=
  h.andThen hF (.ofNext ht (.served .refl (fun _ h1 => .ite (.ring h1 rfl) (.mbxErr h1 rfl)) rfl))

theorem execMbxDbmask {who : Ident} {v : Word} (h : Keeps F r s)
    {t : State} (ht : execMbxDbmask who v s = .next t) (hF : Part.within [.now, .regs, .engines, .msixPba, .out] F)
        : Keeps F r t :=
  h.andThen hF (.ofNext ht (.served .refl (fun _ h1 => .bellChange (.setReg h1 rfl) rfl) rfl))

theorem execMbxSupNote {who : Ident} {v : Word} (h : Keeps F r s)
    {t : State} (ht : execMbxSupNote who v s = .next t) (hF : Part.within [.now, .regs, .engines, .msixPba, .out] F)
        : Keeps F r t :=
  h.andThen hF (.ofNext ht (.served .refl (fun _ h1 => .ite (.raiseIrq (.setReg h1 rfl) rfl) (.ite
      (.refuseStore h1 rfl) (.mbxErr h1 rfl))) rfl))

theorem execMbxHrxHead {who : Ident} {v : Word} (h : Keeps F r s)
    {t : State} (ht : execMbxHrxHead who v s = .next t) (hF : Part.within [.now, .regs] F) : Keeps F r t :=
  h.andThen hF (.ofNext ht (.served .refl (fun _ h1 => .ite (.setFld h1 rfl) (.mbxErr h1 rfl)) rfl))

theorem execMbxHtxTail {who : Ident} {v : Word} (h : Keeps F r s)
    {t : State} (ht : execMbxHtxTail who v s = .next t) (hF : Part.within [.now, .regs] F) : Keeps F r t :=
  h.andThen hF (.ofNext ht (.served .refl (fun _ h1 => .ite (.setFld h1 rfl) (.mbxErr h1 rfl)) rfl))

theorem execMbxHostCfg {who : Ident} {v : Word} (h : Keeps F r s)
    {t : State} (ht : execMbxHostCfg who v s = .next t) (hF : Part.within [.now, .regs] F) : Keeps F r t :=
  h.andThen hF (.ofNext ht (.served .refl (fun _ h1 => .ite (.mbxErr h1 rfl) (.bind (fun h3 => .ite h3 (.setReg
      (.setReg (.setReg (.setReg (.setFld h3 rfl) rfl) rfl) rfl) rfl)) (.setFld ((.ite (.setFld h1 rfl) (.ite h1
          (.wrongState h1 rfl)))) rfl))) rfl))

theorem rollbackTxn {u : TxnUnit} (h : Keeps F r s)
    (hF : Part.within [.now, .regs, .shadow, .leases, .xing] F) : Keeps F r (s.rollbackTxn u) :=
  h.andThen hF (.bind (fun h1 => .ite (.setFlag (.setXing h1 rfl rfl) rfl) h1) (.closeTxn (.clearShadow .refl rfl) rfl))

theorem showLock {d r' : ℕ} {who : Option Ident} (h : Keeps F r s)
    (hF : Part.within [.regs] F) : Keeps F r (s.showLock d r' who) :=
  h.andThen hF (.setReg .refl rfl)

theorem showHeld {e : ℕ} (h : Keeps F r s)
    (hF : Part.within [.regs] F) : Keeps F r (s.showHeld e) :=
  h.andThen hF (.setFld .refl rfl)

theorem takeLease {e h' : ℕ} (h : Keeps F r s)
    (hF : Part.within [.regs, .leases] F) : Keeps F r (s.takeLease e h').2 := by
  refine h.andThen hF ?_
  unfold State.takeLease
  dsimp only
  refine .ite_snd ?_ ?_
  · exact .showHeld (.ite (.showLock ((.addLease .refl rfl)) rfl) ((.addLease .refl rfl))) rfl
  · exact .refl

theorem giveLease {e h' : ℕ} (h : Keeps F r s)
    (hF : Part.within [.regs, .leases] F) : Keeps F r (s.giveLease e h').2 := by
  refine h.andThen hF ?_
  unfold State.giveLease
  dsimp only
  refine .ite_snd ?_ ?_
  · exact .showHeld (.ite (.showLock ((.dropLease .refl rfl)) rfl) ((.dropLease .refl rfl))) rfl
  · exact .refl

theorem reclaimCell {l : Lease} (h : Keeps F r s)
    (hF : Part.within [.now, .regs, .leases, .xing, .ports, .notices] F) : Keeps F r (s.reclaimCell l) := by
  refine h.andThen hF ?_
  unfold State.reclaimCell
  dsimp only
  split
  · split
    · exact .settleFrame (.setFrame (.markHanded ((.setXing ((.with_leases .refl rfl)) rfl rfl)) rfl) rfl) rfl
    · exact (.setXing ((.with_leases .refl rfl)) rfl rfl)
  · exact (.setXing ((.with_leases .refl rfl)) rfl rfl)

theorem reclaimEffect {l : Lease} (h : Keeps F r s)
    (hF : Part.within [.now, .regs, .shadow, .leases, .engines, .districts, .ave, .xing, .ports, .cans, .img,
        .channels, .island, .notices] F) : Keeps F r (s.reclaimEffect l) := by
  refine h.andThen hF ?_
  unfold State.reclaimEffect
  dsimp only
  refine .ite ?_ ?_
  · exact .reclaimCell .refl rfl
  · refine .ite ?_ ?_
    · exact .reclaimSlot .refl rfl
    · refine .ite ?_ ?_
      · exact .showLock (.dropLease .refl rfl) rfl
      · refine .ite ?_ ?_
        · exact .reclaimRx .refl rfl
        · refine .ite ?_ ?_
          · exact .dropLease .refl rfl
          · refine .ite ?_ ?_
            · exact .freeChannel .refl rfl
            · exact .ite (.bind (fun h1 => .ite (.setDist h1 rfl rfl) h1) (.dropLease .refl rfl)) (.ite
                (.rollbackTxn .refl rfl) .refl)

theorem reclaim {l : Lease} (h : Keeps F r s)
    (hF : Part.within [.now, .regs, .shadow, .leases, .engines, .districts, .ave, .xing, .ports, .cans, .img,
        .channels, .island, .notices] F) : Keeps F r (s.reclaim l) :=
  h.andThen hF (.bind (fun h1 => .ite (.showHeld (.recordReclaim h1 rfl) rfl) h1) (.reclaimEffect .refl rfl))

theorem reclaimAll {who : Ident} (h : Keeps F r s)
    (hF : Part.within [.now, .regs, .shadow, .leases, .engines, .districts, .ave, .xing, .ports, .cans, .img,
        .channels, .island, .notices] F) : Keeps F r (s.reclaimAll who) :=
  h.andThen hF (.foldl .refl (fun _ _ h1 => .reclaim h1 rfl))

theorem holdEngine {e : ℕ} (h : Keeps F r s)
    (hF : Part.within [.now, .regs, .shadow, .leases, .engines, .districts, .ave, .xing, .ports, .cans, .img,
        .channels, .island, .notices] F) : Keeps F r (s.holdEngine e) :=
  h.andThen hF (.setReg (.setReg (.endImgOf ((.reclaimAll (.clearStation (.stopEngine
      (.setFlag .refl rfl) rfl) rfl) rfl)) rfl) rfl) rfl)

theorem runEngine {e : ℕ} (h : Keeps F r s)
    (hF : Part.within [.now, .regs, .engines, .gregs] F) : Keeps F r (s.runEngine e) :=
  h.andThen hF (.startEngine (.setFlag .refl rfl) rfl)

theorem runControl {who : Ident} {e : ℕ} {f : State → State} (h : Keeps F r s) (hf : ∀ u, Keeps F r u → Keeps F r (f u))
    (hF : Part.within [.now, .regs, .engines] F) : Keeps F r (s.runControl who e f) := by
  unfold State.runControl
  refine .ite ?_ ?_
  · exact .absentHit h (hF := Part.sub hF rfl)
  · exact .ite (.refuseStore h (hF := Part.sub hF rfl)) (.ite (hf _ h) (.wrongState h (hF := Part.sub hF rfl)))

theorem resetFunction {f : ℕ} (h : Keeps F r s)
    (hF : Part.within [.now, .regs, .shadow, .leases, .engines, .msixPba, .districts, .ave, .xing, .ports, .cans,
        .img, .hostReads, .channels, .island, .notices] F) : Keeps F r (s.resetFunction f) :=
  h.andThen hF (.setReg (.setReg ((.with_msixPba_hostReads ((.reclaimAll (.endImgOf .refl rfl) rfl)) rfl)) rfl) rfl)

theorem resetFunctions (h : Keeps F r s)
    (hF : Part.within [.now, .regs, .shadow, .leases, .engines, .msixPba, .districts, .ave, .xing, .ports, .cans,
        .img, .hostReads, .channels, .island, .notices] F) : Keeps F r (s.resetFunctions) :=
  h.andThen hF (.foldl .refl (fun _ _ h1 => .resetFunction h1 rfl))

theorem resetHost (h : Keeps F r s)
    (hF : Part.within [.now, .regs, .shadow, .leases, .engines, .msixPba, .districts, .ave, .xing, .ports, .cans,
        .img, .hostReads, .channels, .island, .nfn, .notices] F) : Keeps F r (s.resetHost) :=
  h.andThen hF (.resetFunctions (.with_nfn .refl rfl) rfl)

theorem execFunctionLevelReset {f : ℕ} (h : Keeps F r s)
    {t : State} (ht : execFunctionLevelReset f s = .next t)
        (hF : Part.within [.now, .regs, .shadow, .leases, .engines, .msixPba, .districts, .ave, .xing, .ports, .cans,
            .img, .hostReads, .channels, .island, .notices] F) : Keeps F r t :=
  h.andThen hF (.ofNext ht (.live .refl (fun _ h1 => .ite (.resetFunction h1 rfl) h1)))

theorem execPerstN (h : Keeps F r s)
    {t : State} (ht : execPerstN s = .next t)
        (hF : Part.within [.now, .regs, .shadow, .leases, .engines, .msixPba, .districts, .ave, .xing, .ports, .cans,
            .img, .hostReads, .channels, .island, .nfn, .notices] F) : Keeps F r t :=
  h.andThen hF (.ofNext ht (.live .refl (fun _ h1 => .resetHost h1 rfl)))

theorem execHotReset (h : Keeps F r s)
    {t : State} (ht : execHotReset s = .next t)
        (hF : Part.within [.now, .regs, .shadow, .leases, .engines, .msixPba, .districts, .ave, .xing, .ports, .cans,
            .img, .hostReads, .channels, .island, .nfn, .notices] F) : Keeps F r t :=
  h.andThen hF (.ofNext ht (.live .refl (fun _ h1 => .resetHost h1 rfl)))

theorem execEngineStart {who : Ident} {e : ℕ} (h : Keeps F r s)
    {t : State} (ht : execEngineStart who e s = .next t) (hF : Part.within [.now, .regs, .engines, .gregs] F)
        : Keeps F r t :=
  h.andThen hF (.ofNext ht (.served .refl (fun _ h1 => .runControl h1 (fun _ h2 => .ite h2
      (.runEngine h2 rfl)) rfl) rfl))

theorem execEngineHoldReset {who : Ident} {e : ℕ} (h : Keeps F r s)
    {t : State} (ht : execEngineHoldReset who e s = .next t)
        (hF : Part.within [.now, .regs, .shadow, .leases, .engines, .districts, .ave, .xing, .ports, .cans, .img,
            .channels, .island, .notices] F) : Keeps F r t :=
  h.andThen hF (.ofNext ht (.served .refl (fun _ h1 => .runControl h1 (fun _ h2 => .ite
      (.holdEngine h2 rfl) h2) rfl) rfl))

theorem pkgResult {code tag : ℕ} {done : Bool} (h : Keeps F r s)
    (hF : Part.within [.now, .regs, .msixPba, .out] F) : Keeps F r (s.pkgResult code tag done) :=
  h.andThen hF (.raiseIrq (.setFlag (.setFld (.setFld .refl rfl) rfl) rfl) rfl)

theorem pkgCommand {who : Ident} {f : State → State} (h : Keeps F r s) (hf : ∀ u, Keeps F r u → Keeps F r (f u))
    (hF : Part.within [.now, .regs, .engines] F) : Keeps F r (s.pkgCommand who f) :=
  .hostWrite h (fun _ h1 => .oneAtATime h1 (fun _ h2 => hf _ h2) (hF := Part.sub hF rfl)) (hF := Part.sub hF rfl)

theorem pkgEnd {who : Ident} {code tag : ℕ} (h : Keeps F r s)
    (hF : Part.within [.now, .regs, .msixPba, .out] F) : Keeps F r (s.pkgEnd who code tag) :=
  h.andThen hF (.countCode (.pkgResult .refl rfl) rfl)

theorem loadEngine {e : ℕ} {i d : List Byte} (h : Keeps F r s) (hF : Part.within [.engines, .sram] F) :
    Keeps F r (s.loadEngine e i d) := by
  refine h.andThen hF (.setEngData .refl (fun ⟨_, _, hG⟩ => ⟨?_, ?_, hG⟩) rfl rfl)
  · exact Mem.wf_writeBytes d 0 rfl
  · exact Mem.wf_writeBytes i 0 rfl

theorem finishPkgLoad {j : PkgJob} (h : Keeps F r s)
    (hF : Part.within [.now, .regs, .shadow, .leases, .engines, .sram, .gregs, .msixPba, .districts, .ave, .xing,
        .ports, .cans, .pkg, .img, .channels, .island, .notices, .out] F) : Keeps F r (s.finishPkgLoad j) :=
  h.andThen hF (.pkgResult (.with_pkg ((.foldl ((.foldl ((.foldl .refl (fun _ _ h2 => .ite (.holdEngine h2 rfl) h2)))
      (fun _ _ h3 => .setReg (.loadEngine h3 rfl) rfl))) (fun _ _ h4 => .runEngine h4 rfl))) rfl) rfl)

theorem afterPkg (h : Keeps F r s)
    (hF : Part.within [.now, .regs, .modeCmd, .msixPba, .out] F) : Keeps F r (s.afterPkg) := by
  refine h.andThen hF ?_
  unfold State.afterPkg
  split
  · exact .ite (.endMode .refl rfl) .refl
  · exact .refl

theorem execPkgLoad {who : Ident} {e role tag : ℕ} (h : Keeps F r s)
    {t : State} (ht : execPkgLoad who e role tag s = .next t)
        (hF : Part.within [.now, .regs, .engines, .msixPba, .pkg, .out] F) : Keeps F r t :=
  h.andThen hF (.ofNext ht (.live .refl (fun _ h1 => .pkgCommand h1 (fun _ h2 => .ite (.pkgEnd h2 rfl) (.pkgResult
      (.with_pkg h2 rfl) rfl)) rfl)))

theorem execPkgLoadComplete (h : Keeps F r s)
    {t : State} (ht : execPkgLoadComplete s = .next t)
        (hF : Part.within [.now, .regs, .shadow, .leases, .modeCmd, .engines, .sram, .gregs, .msixPba, .districts,
            .ave, .xing, .ports, .cans, .pkg, .img, .channels, .island, .notices, .out] F) : Keeps F r t := by
  refine h.andThen hF (.ofNext ht ?_)
  exact .live .refl (fun _ h1 => by
    split
    · exact .afterPkg (.finishPkgLoad h1 rfl) rfl
    · exact h1)

theorem execPkgUnload {who : Ident} {e tag : ℕ} (h : Keeps F r s)
    {t : State} (ht : execPkgUnload who e tag s = .next t)
        (hF : Part.within [.now, .regs, .shadow, .leases, .engines, .sram, .msixPba, .districts, .ave, .xing, .ports,
            .cans, .img, .channels, .island, .notices, .out] F) : Keeps F r t :=
  h.andThen hF (.ofNext ht (.live .refl (fun _ h1 => .pkgCommand h1 (fun _ h2 => .ite (.pkgEnd h2 rfl) (.pkgResult
      (.foldl h2 (fun _ _ h3 => .setReg (.loadEngine (.ite (.holdEngine h3 rfl) h3) rfl) rfl)) rfl)) rfl)))

theorem waitPush (h : Keeps F r s)
    (hF : Part.within [.regs] F) : Keeps F r (s.waitPush) :=
  h.andThen hF (.setFld .refl rfl)

theorem bootOutcome {src code reason : ℕ} (h : Keeps F r s)
    (hF : Part.within [.regs] F) : Keeps F r (s.bootOutcome src code reason) :=
  h.andThen hF (.bind (fun h1 => .ite (.setFld h1 rfl) h1) (.setFld (.setFld (.setFld .refl rfl) rfl) rfl))

theorem attempt (h : Keeps F r s)
    (hF : Part.within [.now, .regs] F) : Keeps F r (s.attempt) :=
  h.andThen hF (.count .refl rfl)

theorem bootAttempt {flash : List Byte} {readError : Bool} (h : Keeps F r s)
    (hF : Part.within [.now, .free, .regs, .notices] F) : Keeps F r (s.bootAttempt flash readError) := by
  refine h.andThen hF ?_
  unfold State.bootAttempt
  dsimp only
  refine .ite ?_ ?_
  · exact .refl
  · split
    · exact .waitPush ((.ite (.setFld .refl rfl) .refl)) rfl
    · exact .bind (fun h2 => .bind (fun h3 => .ite h3 (.waitPush h3 rfl)) (.ite (.bootOutcome (.draw ((.ite (.notify
        (.count h2 rfl) rfl) h2)) rfl) rfl) (.bootOutcome h2 rfl))) (.setFld (.attempt ((.ite
            (.setFld .refl rfl) .refl)) rfl) rfl)

theorem hostPush {who : Ident} (h : Keeps F r s)
    (hF : Part.within [.now, .regs] F) : Keeps F r (s.hostPush who) :=
  h.andThen hF (.ite (.wrongState .refl rfl) (.bootOutcome ((.attempt .refl rfl)) rfl))

theorem startSupervisor (h : Keeps F r s) (hF : Part.within [.now, .regs, .engines, .sram, .districts] F)
    : Keeps F r s.startSupervisor := by
  refine h.andThen hF (.ite (.setMode (.foldl
      (.foldl .refl fun _ _ h1 => .loadEngine h1 rfl) fun _ _ h1 => ?_) rfl) .refl)
  exact .setDistSram h1 (fun _ => rfl) rfl

theorem execBootAttempt {flash : List Byte} {readError : Bool} (h : Keeps F r s)
    {t : State} (ht : execBootAttempt flash readError s = .next t) (hF : Part.within [.now, .free, .regs, .notices] F)
        : Keeps F r t :=
  h.andThen hF (.ofNext ht (.live .refl (fun _ h1 => .bootAttempt h1 rfl)))

theorem execHostPush {who : Ident} (h : Keeps F r s)
    {t : State} (ht : execHostPush who s = .next t) (hF : Part.within [.now, .regs, .engines] F) : Keeps F r t :=
  h.andThen hF (.ofNext ht (.live .refl (fun _ h1 => .hostWrite h1 (fun _ h2 => .hostPush h2 rfl) rfl)))

theorem execSupervisorStart (h : Keeps F r s)
    {t : State} (ht : execSupervisorStart s = .next t) (hF : Part.within [.now, .regs, .engines, .sram, .districts] F)
        : Keeps F r t :=
  h.andThen hF (.ofNext ht (.live .refl (fun _ h1 => .startSupervisor h1 rfl)))

theorem setLedger {d n : ℕ} {x : Ledger} (h : Keeps F r s)
    (hF : Part.within [.srus] F) : Keeps F r (s.setLedger d n x) :=
  h.andThen hF (.setSru .refl rfl)

theorem showSru {d : ℕ} (h : Keeps F r s)
    (hF : Part.within [.regs] F) : Keeps F r (s.showSru d) :=
  h.andThen hF (.bind (fun h1 => .ite h1 (.setReg h1 rfl)) (.setFld (.setFld .refl rfl) rfl))

theorem offerSample {e : ℕ} {ws : List Word} (h : Keeps F r s)
    (hF : Part.within [.now, .regs, .srus] F) : Keeps F r (s.offerSample e ws).2 := by
  refine h.andThen hF ?_
  unfold State.offerSample
  dsimp only
  refine .ite_snd ?_ ?_
  · exact .setSru .refl rfl
  · exact .showSru (.with_now ((.setSru .refl rfl)) rfl) rfl

theorem captureGroup {d : ℕ} {p : Passage} {j : ℕ} (h : Keeps F r s)
    (hF : Part.within [.now, .regs, .srus] F) : Keeps F r (State.captureGroup d p s j) :=
  h.andThen hF (.ite (.ite (.count .refl rfl) (.showSru (.setSru .refl rfl) rfl)) .refl)

theorem captureGroups {d : ℕ} {p : Passage} (h : Keeps F r s)
    (hF : Part.within [.now, .regs, .srus] F) : Keeps F r (s.captureGroups d p) :=
  h.andThen hF (.foldl .refl (fun _ _ h1 => .captureGroup h1 rfl))

theorem keepCurve {l : Ledger} {x : Sample} {ends gap timed : Bool} (h : Keeps F r s)
    (hF : Part.within [.now, .regs, .curve] F) :
    Keeps F r (s.keepCurve l x ends gap timed).2 :=
  h.andThen hF (.through .refl (fun _ h1 => .with_curve h1 (Mem.wf_writeBytes _ _) rfl) rfl)

theorem exportEntry {d n : ℕ} {hist : Bool} (h : Keeps F r s)
    (hF : Part.within [.now, .regs, .leases, .engines, .red, .img, .srus] F) : Keeps F r (s.exportEntry d n hist) :=
  h.andThen hF (.foldl ((.ite (.setLedger .refl rfl) .refl)) (fun _ _ h2 => .request h2 rfl))

theorem stepEnded {d channel e : ℕ} (h : Keeps F r s)
    (hF : Part.within [.now, .regs, .engines, .srus] F) : Keeps F r (s.stepEnded d channel e) :=
  h.andThen hF (.fireDistrict ((.ite (.count .refl rfl) (.showSru (.setSru .refl rfl) rfl))) rfl)

theorem acceptSample {d n : ℕ} {x : Sample} (h : Keeps F r s)
    (hF : Part.within [.now, .free, .regs, .leases, .engines, .red, .img, .curve, .srus] F)
        : Keeps F r (s.acceptSample d n x) :=
  h.andThen hF (.bind (fun h1 => .bind (fun h2 => .bind (fun h3 => .bind (fun h4 => .bind (fun h5 => .ite (.ite
      (.exportEntry h5 rfl) (.ite (.exportEntry h5 rfl) h5)) h5) (.ite h4 (.stepEnded h4 rfl))) (.setLedger (.ite_snd
          (.keepCurve h3 rfl) h3) rfl)) (.ite (.draw h2 rfl) h2)) (.ite (.count h1 rfl) h1)) (.countReg .refl rfl))

theorem faultEntry {d n : ℕ} (h : Keeps F r s)
    (hF : Part.within [.now, .free, .regs, .srus, .notices] F) : Keeps F r (s.faultEntry d n) :=
  h.andThen hF (.notify (.count (.draw (.setLedger .refl rfl) rfl) rfl) rfl)

theorem testEntry {d n : ℕ} {x : Sample} (h : Keeps F r s)
    (hF : Part.within [.now, .free, .regs, .leases, .engines, .red, .img, .curve, .srus] F)
        : Keeps F r (s.testEntry d n x) := by
  refine h.andThen hF ?_
  unfold State.testEntry
  dsimp only
  refine .ite ?_ ?_
  · exact .count .refl rfl
  · exact .ite (.count .refl rfl) (.ite (.count .refl rfl) (.ite (.count .refl rfl) (.acceptSample .refl rfl)))

theorem takeSample {d : ℕ} {ecc : Bool} {ws : List Word} (h : Keeps F r s)
    (hF : Part.within [.now, .free, .regs, .leases, .engines, .red, .img, .curve, .srus, .notices] F)
        : Keeps F r (s.takeSample d ecc ws) := by
  refine h.andThen hF ?_
  unfold State.takeSample
  dsimp only
  refine .ite ?_ ?_
  · exact .count .refl rfl
  · exact .ite (.count .refl rfl) (.ite (.count .refl rfl) (.testEntry (.ite (.faultEntry .refl rfl) .refl) rfl))

theorem ledgerCommand {who : Ident} {d code : ℕ} {f : State → State} (h
    : Keeps F r s) (hf : ∀ u, Keeps F r u → Keeps F r (f u))
    (hF : Part.within [.now, .regs, .engines] F) : Keeps F r (s.ledgerCommand who d code f) := by
  unfold State.ledgerCommand
  refine .ite ?_ ?_
  · exact .absentHit h (hF := Part.sub hF rfl)
  · refine .ite ?_ ?_
    · exact .refuseStore h (hF := Part.sub hF rfl)
    · exact .oneAtATime h (fun _ h1 => .countCode (.setFld (.ite (hf _ h1) h1) (hF := Part.sub hF rfl))
        (hF := Part.sub hF rfl)) (hF := Part.sub hF rfl)

theorem takeEos {d : ℕ} (h : Keeps F r s)
    (hF : Part.within [.regs, .srus] F) : Keeps F r (s.takeEos d).2 := by
  refine h.andThen hF ?_
  unfold State.takeEos
  dsimp only
  split
  · exact .showSru (.setSru .refl rfl) rfl
  · exact .refl

theorem execSampleProcessing {d : ℕ} {ecc : Bool} (h : Keeps F r s)
    {t : State} (ht : execSampleProcessing d ecc s = .next t)
        (hF : Part.within [.now, .free, .regs, .leases, .engines, .red, .img, .curve, .srus, .notices] F)
            : Keeps F r t := by
  refine h.andThen hF (.ofNext ht ?_)
  dsimp only
  exact .live .refl (fun _ h1 => by
    split
    · exact h1
    · exact .ite h1 (.bind (fun h2 => .takeSample (.ite (.fireDistrict h2 rfl) h2) rfl) (.showSru
        (.setSru h1 rfl) rfl)))

theorem execExport {who : Ident} {d n : ℕ} (h : Keeps F r s)
    {t : State} (ht : execExport who d n s = .next t)
        (hF : Part.within [.now, .regs, .leases, .engines, .red, .img, .srus] F) : Keeps F r t :=
  h.andThen hF (.ofNext ht (.served .refl (fun _ h1 => .ledgerCommand h1 (fun _ h2 => .exportEntry h2 rfl) rfl) rfl))

theorem execClear {who : Ident} {d n : ℕ} (h : Keeps F r s)
    {t : State} (ht : execClear who d n s = .next t) (hF : Part.within [.now, .regs, .engines, .srus] F)
        : Keeps F r t :=
  h.andThen hF (.ofNext ht (.served .refl (fun _ h1 => .ledgerCommand h1 (fun _ h2 => .setLedger h2 rfl) rfl) rfl))

theorem execLatch {who : Ident} {d n : ℕ} (h : Keeps F r s)
    {t : State} (ht : execLatch who d n s = .next t) (hF : Part.within [.now, .regs, .engines] F) : Keeps F r t :=
  h.andThen hF (.ofNext ht (.served .refl (fun _ h1 => .ledgerCommand h1 (fun _ h2 => .foldl h2
      (fun _ _ h3 => .setReg h3 rfl)) rfl) rfl))

theorem execSruEosQRead {who : Ident} {d : ℕ} (h : Keeps F r s)
    {t : State} (ht : execSruEosQRead who d s = .next t) (hF : Part.within [.now, .regs, .srus, .out] F)
        : Keeps F r t :=
  h.andThen hF (.ofNext ht (.served .refl (fun _ h1 => .ite (.emit (.absentHit h1 rfl) rfl) (.emit
      (.takeEos h1 rfl) rfl)) rfl))

theorem execSruCtrl {who : Ident} {d : ℕ} {en : Bool} (h : Keeps F r s)
    {t : State} (ht : execSruCtrl who d en s = .next t) (hF : Part.within [.now, .regs, .engines] F) : Keeps F r t :=
  h.andThen hF (.ofNext ht (.served .refl (fun _ h1 => .ite (.absentHit h1 rfl) (.ite (.setFlag h1 rfl)
      (.refuseStore h1 rfl))) rfl))

theorem execSelfCheckFailure {d : ℕ} (h : Keeps F r s)
    {t : State} (ht : execSelfCheckFailure d s = .next t) (hF : Part.within [.now, .regs] F) : Keeps F r t :=
  h.andThen hF (.ofNext ht (.live .refl (fun _ h1 => .ite (.setReg (.setFlag h1 rfl) rfl) h1)))

theorem driveDe {n : ℕ} {de : Bool} (h : Keeps F r s)
    (hF : Part.within [.serials, .out] F) : Keeps F r (s.driveDe n de) :=
  h.andThen hF (.ite .refl (.emit (.setSer .refl rfl rfl) rfl))

theorem startGap {n : ℕ} (h : Keeps F r s)
    (hF : Part.within [.serials] F) : Keeps F r (s.startGap n) :=
  h.andThen hF (.ite (.setSer .refl rfl rfl) .refl)

theorem fireGap {n : ℕ} (h : Keeps F r s)
    (hF : Part.within [.now, .regs, .syncs, .merges, .engines] F) : Keeps F r (s.fireGap n) :=
  h.andThen hF (.raiseLine .refl (fun _ h1 => .fire h1 rfl) rfl)

theorem passGaps {n : ℕ} (h : Keeps F r s)
    (hF : Part.within [.now, .regs, .syncs, .merges, .engines, .serials] F) : Keeps F r (s.passGaps n) :=
  h.andThen hF (.bind (fun h1 => .ite (.fireGap (.setSer h1 rfl rfl) rfl) h1) (.ite (.fireGap
      (.setSer .refl rfl rfl) rfl) .refl))

theorem serKick {n : ℕ} (h : Keeps F r s)
    (hF : Part.within [.serials, .out] F) : Keeps F r (s.serKick n) :=
  h.andThen hF (.ite (.bind (fun h1 => .ite (.driveDe h1 rfl) h1) (.setSer .refl rfl rfl)) .refl)

theorem fallDe {n : ℕ} (h : Keeps F r s)
    (hF : Part.within [.now, .regs, .engines, .serials, .out] F) : Keeps F r (s.fallDe n) :=
  h.andThen hF (.bind (fun h1 => .ite (.fire h1 rfl) h1) (.driveDe (.setSer .refl rfl rfl) rfl))

theorem serQuiet {n : ℕ} (h : Keeps F r s)
    (hF : Part.within [.now, .regs, .engines, .serials, .out] F) : Keeps F r (s.serQuiet n) :=
  h.andThen hF (.bind (fun h1 => .ite h1 (.fallDe h1 rfl)) (.setSer .refl rfl rfl))

theorem serFollow {n : ℕ} (h : Keeps F r s)
    (hF : Part.within [.now, .regs, .engines, .serials, .out] F) : Keeps F r (s.serFollow n) := by
  refine h.andThen hF ?_
  unfold State.serFollow
  dsimp only
  refine .ite ?_ ?_
  · exact .refl
  · exact .bind (fun h1 => .bind (fun h2 => .bind (fun h3 => .serKick ((.ite (.driveDe h3 rfl) h3)) rfl) (.ite h2
      (.serQuiet h2 rfl))) (.ite (.setSer h1 rfl rfl) (.setSer h1 rfl rfl))) (.setFld .refl rfl)

theorem serLoad {n : ℕ} (h : Keeps F r s)
    (hF : Part.within [.regs, .serials, .out] F) : Keeps F r (s.serLoad n) :=
  h.andThen hF (.setFld (.driveDe (.setSer .refl rfl rfl) rfl) rfl)

theorem serCycle {n : ℕ} (h : Keeps F r s)
    (hF : Part.within [.now, .regs, .engines, .serials, .out] F) : Keeps F r (s.serCycle n) := by
  refine h.andThen hF ?_
  unfold State.serCycle
  split
  · exact .ite (.fallDe .refl rfl) .refl
  · exact .refl

theorem serCycles (h : Keeps F r s)
    (hF : Part.within [.now, .regs, .engines, .serials, .out] F) : Keeps F r (s.serCycles) :=
  h.andThen hF (.foldl .refl (fun _ _ h1 => .serCycle h1 rfl))

theorem appendTx {n : ℕ} {bs : List ℕ} (h : Keeps F r s) (hF : Part.within [.serials, .out] F) :
    Keeps F r (s.appendTx n bs) :=
  h.andThen hF (.serKick (.setSerTx .refl Mem.wf_foldl_write rfl) rfl)

theorem resetSer {n : ℕ} (h : Keeps F r s) (hF : Part.within [.serials] F) : Keeps F r (s.resetSer n) :=
  h.andThen hF (.setSerTx .refl (fun _ => rfl) rfl)

theorem serResult {n e code : ℕ} (h : Keeps F r s)
    (hF : Part.within [.now, .regs, .serials] F) : Keeps F r (s.serResult n e code) :=
  h.andThen hF (.countCode (.setSer .refl rfl rfl) rfl)

theorem execSerEnable {n : ℕ} {en : Bool} {who : Ident} (h : Keeps F r s)
    {t : State} (ht : execSerEnable n en who s = .next t) (hF : Part.within [.now, .regs, .engines, .serials, .out] F)
        : Keeps F r t :=
  h.andThen hF (.ofNext ht (.served .refl (fun _ h1 => .ite (.unitWrite h1 (fun _ h2 => .serFollow
      (.setFlag h2 rfl) rfl) rfl) (.absentHit h1 rfl)) rfl))

theorem rxStart {n : ℕ} (h : Keeps F r s)
    (hF : Part.within [.now, .regs, .syncs, .merges, .engines, .serials] F) : Keeps F r (s.rxStart n) :=
  h.andThen hF (.setSer ((.passGaps .refl rfl)) rfl rfl)

theorem rxStore {n : ℕ} {data : Byte} {parity frame brk : Bool} (h : Keeps F r s)
    (hF : Part.within [.now, .regs, .engines, .red, .serials] F) : Keeps F r (s.rxStore n data parity frame brk) := by
  refine h.andThen hF ?_
  unfold State.rxStore
  dsimp only
  refine .ite ?_ ?_
  · exact .setSer (.count ((.ite (.count ((.ite (.count ((.ite (.count .refl rfl) .refl)) rfl) ((.ite
      (.count .refl rfl) .refl)))) rfl) ((.ite (.count ((.ite (.count .refl rfl) .refl)) rfl) ((.ite
          (.count .refl rfl) .refl)))))) rfl) rfl rfl
  · split
    · exact .proxySerial ((.ite (.fire ((.setSer ((.ite (.count ((.ite (.count ((.ite (.count .refl rfl) .refl)) rfl)
        ((.ite (.count .refl rfl) .refl)))) rfl) ((.ite (.count ((.ite (.count .refl rfl) .refl)) rfl) ((.ite
            (.count .refl rfl) .refl)))))) rfl rfl)) rfl) ((.setSer ((.ite (.count ((.ite (.count ((.ite
                (.count .refl rfl) .refl)) rfl) ((.ite (.count .refl rfl) .refl)))) rfl) ((.ite (.count ((.ite
                    (.count .refl rfl) .refl)) rfl) ((.ite (.count .refl rfl) .refl)))))) rfl rfl)))) rfl
    · exact (.ite (.fire ((.setSer ((.ite (.count ((.ite (.count ((.ite (.count .refl rfl) .refl)) rfl) ((.ite
        (.count .refl rfl) .refl)))) rfl) ((.ite (.count ((.ite (.count .refl rfl) .refl)) rfl) ((.ite
            (.count .refl rfl) .refl)))))) rfl rfl)) rfl) ((.setSer ((.ite (.count ((.ite (.count ((.ite
                (.count .refl rfl) .refl)) rfl) ((.ite (.count .refl rfl) .refl)))) rfl) ((.ite (.count ((.ite
                    (.count .refl rfl) .refl)) rfl) ((.ite (.count .refl rfl) .refl)))))) rfl rfl)))

theorem execCharacterReceived {n : ℕ} {part : SerialRx} {parity frame brk : Bool} (h : Keeps F r s)
    {t : State} (ht : execCharacterReceived n part parity frame brk s = .next t)
        (hF : Part.within [.now, .regs, .syncs, .merges, .engines, .red, .serials] F) : Keeps F r t := by
  refine h.andThen hF (.ofNext ht ?_)
  dsimp only
  exact .live .refl (fun _ h1 => .ite h1 (by
    split
    · exact .ite h1 (.rxStart h1 rfl)
    · refine .ite ?_ ?_
      · exact h1
      · exact .through h1 (fun _ h2 => .bind (fun h3 => .ite (.rxStore h3 rfl) h3) (.startGap
          (.setSer h2 rfl rfl) rfl)) rfl))

theorem execSerTxTail {n e v : ℕ} (h : Keeps F r s)
    {t : State} (ht : execSerTxTail n e v s = .next t) (hF : Part.within [.now, .regs, .serials, .out] F)
        : Keeps F r t :=
  h.andThen hF (.ofNext ht (.live .refl (fun _ h1 => .ite (.ite (.setFlag h1 rfl) (.serKick
      (.setSer h1 rfl rfl) rfl)) h1)))

theorem execSerRxHead {n e v : ℕ} (h : Keeps F r s)
    {t : State} (ht : execSerRxHead n e v s = .next t) (hF : Part.within [.now, .regs, .serials] F) : Keeps F r t :=
  h.andThen hF (.ofNext ht (.live .refl (fun _ h1 => .ite (.ite (.setFlag h1 rfl) (.setSer h1 rfl rfl)) h1)))

theorem execCharacterSent {n : ℕ} (h : Keeps F r s)
    {t : State} (ht : execCharacterSent n s = .next t) (hF : Part.within [.now, .regs, .engines, .serials, .out] F)
        : Keeps F r t :=
  h.andThen hF (.ofNext ht (.clocked .refl (fun _ h1 => .ite (.bind (fun h3 => by
    refine .ite ?_ ?_
    · exact .setSer h3 (by exact rfl) rfl
    · exact .bind (fun h4 => .ite (.bind (fun h5 => .ite (.setSer h5 (by exact rfl) rfl) (.fallDe h5 rfl))
        (.setSer h4 (by exact rfl) rfl)) h4)
        (.ite (.fire h3 rfl) h3))
    (.startGap (.setSer ((.emit h1 rfl)) (by exact rfl) rfl) rfl)) h1)))

theorem execGapT15 {n : ℕ} (h : Keeps F r s)
    {t : State} (ht : execGapT15 n s = .next t)
        (hF : Part.within [.now, .regs, .syncs, .merges, .engines, .serials] F) : Keeps F r t :=
  h.andThen hF (.ofNext ht (.clocked .refl (fun _ h1 => .ite (.fireGap (.setSer h1 rfl rfl) rfl) h1)))

theorem execGapT35 {n : ℕ} (h : Keeps F r s)
    {t : State} (ht : execGapT35 n s = .next t)
        (hF : Part.within [.now, .regs, .syncs, .merges, .engines, .serials, .out] F) : Keeps F r t :=
  h.andThen hF (.ofNext ht (.clocked .refl (fun _ h1 => .ite (.serKick (.fireGap (.setSer h1 rfl rfl) rfl) rfl) h1)))

theorem execRxIdleTime {n : ℕ} (h : Keeps F r s)
    {t : State} (ht : execRxIdleTime n s = .next t) (hF : Part.within [.serials, .out] F) : Keeps F r t :=
  h.andThen hF (.ofNext ht (.clocked .refl (fun _ h1 => .ite (.serKick h1 rfl) h1)))

theorem execSsiStart {n e : ℕ} (h : Keeps F r s)
    {t : State} (ht : execSsiStart n e s = .next t)
        (hF : Part.within [.now, .regs, .syncs, .merges, .engines, .serials, .out] F) : Keeps F r t :=
  h.andThen hF (.ofNext ht (.live .refl (fun _ h1 => .ite (.ite (.serResult h1 rfl) (.ite (.serResult h1 rfl)
      (.serResult (.fireGap (.emit (.setFlag (.setSer h1 rfl rfl) rfl) rfl) rfl) rfl))) h1)))

theorem execSsiTransferDone {n : ℕ} {bits : Word} (h : Keeps F r s) {t : State}
    (ht : execSsiTransferDone n bits s = .next t) (hF : Part.within [.now, .regs, .engines, .serials] F)
        : Keeps F r t := by
  refine h.andThen hF (.ofNext ht (.ite .refl ?_))
  dsimp only
  split
  · exact .ite (.ite (.count .refl rfl) (.fire (.setSer .refl rfl rfl) rfl)) .refl
  · exact .refl

theorem execSsiPauseEnd {n : ℕ} (h : Keeps F r s)
    {t : State} (ht : execSsiPauseEnd n s = .next t) (hF : Part.within [.now, .regs, .serials] F) : Keeps F r t := by
  refine h.andThen hF (.ofNext ht ?_)
  dsimp only
  exact .clocked .refl (fun _ h1 => by
    split
    · exact .ite (.setFlag (.setSer h1 rfl rfl) rfl) h1
    · exact h1)

theorem execWurq {n e : ℕ} {v : Word} (h : Keeps F r s)
    {t : State} (ht : execWurq n e v s = .next t) (hF : Part.within [.now, .regs, .serials, .out] F) : Keeps F r t :=
  h.andThen hF (.ofNext ht (.live .refl (fun _ h1 => .ite (.ite (.serResult h1 rfl) (.ite (.serResult h1 rfl)
      (.serResult (.emit (.setSer h1 rfl rfl) rfl) rfl))) h1)))

theorem execWurqEnd {n : ℕ} (h : Keeps F r s)
    {t : State} (ht : execWurqEnd n s = .next t) (hF : Part.within [.now, .regs, .engines, .serials, .out] F)
        : Keeps F r t := by
  refine h.andThen hF (.ofNext ht ?_)
  dsimp only
  exact .clocked .refl (fun _ h1 => by
    split
    · exact .ite (.serKick (.fallDe (.setSer h1 rfl rfl) rfl) rfl) h1
    · exact h1)

theorem deliver {c : Copy} (h : Keeps F r s)
    (hF : Part.within [.now, .regs, .leases, .engines, .msixPba, .ave, .xing, .ports, .hostMem, .notices, .out] F)
        : Keeps F r (s.deliver c) := by
  refine h.andThen hF ?_
  unfold State.deliver
  dsimp only
  refine .ite ?_ ?_
  · exact .showDepth (.setPort .refl rfl) rfl
  · refine .ite ?_ ?_
    · exact .deliverDistrict .refl rfl
    · refine .ite ?_ ?_
      · exact .deliverHost .refl rfl
      · split
        · exact .endCopy (.queueMsg .refl rfl) rfl
        · exact .refl

theorem takeHead {q : ℕ} (h : Keeps F r s)
    (hF : Part.within [.regs, .xing] F) : Keeps F r (s.takeHead q) :=
  h.andThen hF (.setQueue .refl rfl)

theorem roundRobin {qs : List Nat} {dest key n q : Nat} (h : Keeps F r s) {p : Copy × State}
    (ht : State.roundRobin qs dest key n q s = some p) (hF : Part.within [.regs, .xing] F) : Keeps F r p.2 := by
  refine h.andThen hF ?_
  clear h
  induction n generalizing s q with
  | zero => nomatch ht
  | succ n ih =>
    unfold State.roundRobin at ht
    split at ht
    · exact ih ht
    · dsimp only at ht
      split at ht
      · exact (Keeps.setQueue .refl rfl).trans (ih ht)
      · exact .ofSomePair ht (.setXing (.takeHead (.setQueue .refl rfl) rfl) rfl rfl)

theorem choose {dest : Nat} (h : Keeps F r s) {p : Copy × State} (ht : s.choose dest = some p)
    (hF : Part.within [.regs, .xing] F) : Keeps F r p.2 := by
  refine h.andThen hF ?_
  unfold State.choose at ht
  dsimp only at ht
  split at ht
  · exact .roundRobin .refl ht rfl
  · split at ht
    · obtain ⟨c, -, rfl⟩ := Option.map_eq_some_iff.mp ht
      exact .takeHead .refl rfl
    · nomatch ht

theorem serve {dest : ℕ} (h : Keeps F r s)
    (hF : Part.within [.now, .regs, .leases, .engines, .msixPba, .ave, .xing, .ports, .hostMem, .notices, .out] F)
        : Keeps F r (s.serve dest) := by
  refine h.andThen hF ?_
  unfold State.serve
  split
  · next hChoice =>
    have hChosen := Keeps.choose (F := [.now, .regs, .leases, .engines, .msixPba, .ave, .xing, .ports, .hostMem,
        .notices, .out]) .refl hChoice rfl
    exact .settleQueue (.ite (.dropCopy hChosen rfl) (.deliver hChosen rfl)) rfl
  · exact .refl

theorem enqueue (h : Keeps F r s)
    (hF : Part.within [.now, .regs, .xing, .notices] F) : Keeps F r (s.enqueue) := by
  refine h.andThen hF ?_
  unfold State.enqueue
  dsimp only
  split
  · exact .refl
  · refine .ite ?_ ?_
    · split
      · exact .setQueue ((.setXing .refl rfl rfl)) rfl
      · exact (.setXing .refl rfl rfl)
    · exact .settleHead (.setQueue ((.setXing .refl rfl rfl)) rfl) rfl

theorem rejoin {q : ℕ} {c : Copy} (h : Keeps F r s)
    (hF : Part.within [.regs, .xing] F) : Keeps F r (s.rejoin q c) :=
  h.andThen hF (.setQueue .refl rfl)

theorem spillWritten {q : ℕ} (h : Keeps F r s)
    (hF : Part.within [.now, .regs, .xing, .notices] F) : Keeps F r (s.spillWritten q) := by
  refine h.andThen hF ?_
  unfold State.spillWritten
  dsimp only
  split
  · split
    · refine .ite ?_ ?_
      · exact .dropCopy (.freeSpill (.setQueue (.through .refl (fun _ h1 => h1) rfl) rfl) rfl) rfl
      · exact .dropRef (.setQueue .refl rfl) rfl
    · exact .refl
  · exact .refl

theorem readBack {q : ℕ} (h : Keeps F r s)
    (hF : Part.within [.now, .free, .regs, .xing, .notices] F) : Keeps F r (s.readBack q) := by
  refine h.andThen hF ?_
  unfold State.readBack
  dsimp only
  split
  · split
    · refine .ite ?_ ?_
      · refine .ite ?_ ?_
        · exact .dropCopy (.through ((.freeSpill (.setQueue .refl rfl) rfl)) (fun _ h2 => h2) rfl) rfl
        · refine .ite ?_ ?_
          · exact .dropCopy ((.freeSpill (.setQueue .refl rfl) rfl)) rfl
          · split
            · exact .settleHead ((.ite (.rejoin ((.frameWrite (.setFrame (.takeCells ((.freeSpill
                (.setQueue .refl rfl) rfl)) rfl) rfl) rfl)) rfl) (.bind (fun h3 => .rejoin ((.ite
                    (.setFld h3 rfl) h3)) rfl) (.setFrame (.storeFrame ((.freeSpill
                        (.setQueue .refl rfl) rfl)) rfl) rfl)))) rfl
            · exact (.freeSpill (.setQueue .refl rfl) rfl)
      · exact .refl
    · exact .refl
  · exact .refl

theorem tblResult {who : Ident} {code : ℕ} (h : Keeps F r s)
    (hF : Part.within [.now, .regs] F) : Keeps F r (s.tblResult who code) :=
  h.andThen hF (.countCode (.setReg .refl rfl) rfl)

theorem loadTblData {e : Entry} (h : Keeps F r s)
    (hF : Part.within [.regs] F) : Keeps F r (s.loadTblData e) :=
  h.andThen hF (.setReg (.setReg (.setReg (.setReg .refl rfl) rfl) rfl) rfl)

theorem examine {c : ℕ} (h : Keeps F r s)
    (hF : Part.within [.now, .regs, .xing] F) : Keeps F r (s.examine c) := by
  refine h.andThen hF ?_
  unfold State.examine
  dsimp only
  split
  · exact .count ((.setFree (.setXing .refl rfl rfl) rfl)) rfl
  · exact .setXing .refl rfl rfl
  · exact .refl

theorem lampNext (h : Keeps F r s)
    (hF : Part.within [.now, .regs, .xing, .notices] F) : Keeps F r (s.lampNext) :=
  h.andThen hF (.ite (.setXing .refl rfl rfl) (.bind (fun h1 => .ite h1 (.xingFatal h1 rfl)) (.countWrap
      (.setXing .refl rfl rfl) rfl)))

theorem execClassification (h : Keeps F r s)
    {t : State} (ht : execClassification s = .next t)
        (hF : Part.within [.now, .regs, .engines, .red, .xing, .notices] F) : Keeps F r t := by
  refine h.andThen hF (.ofNext ht ?_)
  dsimp only
  exact .clocked .refl (fun _ h1 => by
    split
    · exact h1
    · exact .classify (.setXing h1 rfl rfl) rfl)

theorem execCopyEnqueue (h : Keeps F r s)
    {t : State} (ht : execCopyEnqueue s = .next t) (hF : Part.within [.now, .regs, .xing, .notices] F) : Keeps F r t :=
  h.andThen hF (.ofNext ht (.clocked .refl (fun _ h1 => .enqueue h1 rfl)))

theorem execDestinationChoice {dest : ℕ} (h : Keeps F r s)
    {t : State} (ht : execDestinationChoice dest s = .next t)
        (hF : Part.within [.now, .regs, .leases, .engines, .msixPba, .ave, .xing, .ports, .hostMem, .notices, .out] F)
            : Keeps F r t :=
  h.andThen hF (.ofNext ht (.clocked .refl (fun _ h1 => .ite (.ite (.ite (.ite h1 (.bind (fun h2 => .ite h2
      (.setPort h2 rfl)) (.serve (.setPort h1 rfl) rfl))) (.serve h1 rfl)) h1) (.ite (.serve h1 rfl) h1))))

theorem execTransmitOpportunity {n : ℕ} (h : Keeps F r s)
    {t : State} (ht : execTransmitOpportunity n s = .next t)
        (hF : Part.within [.now, .regs, .leases, .engines, .msixPba, .ave, .xing, .ports, .hostMem, .notices, .out] F)
            : Keeps F r t :=
  h.andThen hF (.ofNext ht (.clocked .refl (fun _ h1 => .ite (.bind (fun h2 => .ite (.ite (.setPort h2 rfl) (.bind
      (fun h3 => .ite (.setPort h3 rfl) h3) (.serve h2 rfl))) h2) (.setPort h1 rfl)) h1)))

theorem execTransmitEnd {n : ℕ} (h : Keeps F r s)
    {t : State} (ht : execTransmitEnd n s = .next t)
        (hF : Part.within [.now, .regs, .msixPba, .xing, .ports, .notices, .out] F) : Keeps F r t := by
  refine h.andThen hF (.ofNext ht ?_)
  dsimp only
  exact .clocked .refl (fun _ h1 => by
    split
    · refine .ite ?_ ?_
      · exact h1
      · split
        · exact .endCopy (.emit (.countTx (.clearSending h1 rfl) rfl) rfl) rfl
        · exact .clearSending h1 rfl
    · exact h1)

theorem execGateEvent {n : ℕ} (h : Keeps F r s)
    {t : State} (ht : execGateEvent n s = .next t) (hF : Part.within [.xing] F) : Keeps F r t := by
  refine h.andThen hF (.ofNext ht ?_)
  dsimp only
  exact .clocked .refl (fun _ h1 => by
    split
    · exact .ite h1 (.setXing h1 rfl rfl)
    · exact h1)

theorem execGateWindowClose {q : ℕ} (h : Keeps F r s)
    {t : State} (ht : execGateWindowClose q s = .next t) (hF : Part.within [.now, .regs, .xing, .notices] F)
        : Keeps F r t :=
  h.andThen hF (.ofNext ht (.clocked .refl (fun _ h1 => .settleHead (.foldl (.setQueue h1 rfl)
      (fun _ _ h2 => .dropCopy h2 rfl)) rfl)))

theorem execSpillWriteDone {q : ℕ} (h : Keeps F r s)
    {t : State} (ht : execSpillWriteDone q s = .next t) (hF : Part.within [.now, .regs, .xing, .notices] F)
        : Keeps F r t :=
  h.andThen hF (.ofNext ht (.clocked .refl (fun _ h1 => .spillWritten h1 rfl)))

theorem execSpillReadBack {q : ℕ} (h : Keeps F r s)
    {t : State} (ht : execSpillReadBack q s = .next t) (hF : Part.within [.now, .free, .regs, .xing, .notices] F)
        : Keeps F r t :=
  h.andThen hF (.ofNext ht (.clocked .refl (fun _ h1 => .readBack h1 rfl)))

theorem execOldGenerationRetire (h : Keeps F r s)
    {t : State} (ht : execOldGenerationRetire s = .next t) (hF : Part.within [.now, .regs, .xing] F) : Keeps F r t :=
  h.andThen hF (.ofNext ht (.clocked .refl (fun _ h1 => .ite (.setFlag (.setXing h1 rfl rfl) rfl) h1)))

theorem execBankSyncDone (h : Keeps F r s)
    {t : State} (ht : execBankSyncDone s = .next t) (hF : Part.within [.now, .regs] F) : Keeps F r t :=
  h.andThen hF (.ofNext ht (.clocked .refl (fun _ h1 => .ite (.setFlag h1 rfl) h1)))

theorem execXingTblRead {who : Ident} (h : Keeps F r s)
    {t : State} (ht : execXingTblRead who s = .next t) (hF : Part.within [.now, .regs] F) : Keeps F r t :=
  h.andThen hF (.ofNext ht (.served .refl (fun _ h1 => .ite (.tblResult h1 rfl) (.ite (.tblResult
      (.loadTblData h1 rfl) rfl) (.ite (.tblResult h1 rfl) (.tblResult (.loadTblData h1 rfl) rfl)))) rfl))

theorem execXingTblWrite {who : Ident} (h : Keeps F r s)
    {t : State} (ht : execXingTblWrite who s = .next t) (hF : Part.within [.now, .regs, .xing] F) : Keeps F r t :=
  h.andThen hF (.ofNext ht (.served .refl (fun _ h1 => .ite (.tblResult h1 rfl) (.ite (.tblResult
      (.setFlag h1 rfl) rfl) (.ite (.tblResult (.setFlag h1 rfl) rfl) (.tblResult (.setXing h1 rfl rfl) rfl)))) rfl))

theorem execLamplighterExamine (h : Keeps F r s)
    {t : State} (ht : execLamplighterExamine s = .next t) (hF : Part.within [.now, .regs, .xing, .notices] F)
        : Keeps F r t :=
  h.andThen hF (.ofNext ht (.clocked .refl (fun _ h1 => .lampNext (.examine h1 rfl) rfl)))

theorem txnErr {x' : TxnUnit} (h : Keeps F r s)
    (hF : Part.within [.now, .regs] F) : Keeps F r (s.txnErr x') := by
  refine h.andThen hF ?_
  unfold State.txnErr
  split
  · exact .setFlag .refl rfl
  · exact .setFlag .refl rfl
  · exact .setFlag .refl rfl
  · exact .setFlag .refl rfl
  · exact .setFlag .refl rfl

theorem txnReach {u : TxnUnit} {who : Ident} {a : ℕ} {f : State → State} (h
    : Keeps F r s) (hf : ∀ u, Keeps F r u → Keeps F r (f u))
    (hF : Part.within [.now, .regs, .engines] F) : Keeps F r (s.txnReach u who a f) :=
  .ite (.absentHit h (hF := Part.sub hF rfl)) (.ite (.refuseStore h (hF := Part.sub hF rfl)) (hf _ h))

theorem dropPending {d : ℕ} (h : Keeps F r s)
    (hF : Part.within [.now, .regs, .districts] F) : Keeps F r (s.dropPending d) :=
  h.andThen hF (.count (.setDist .refl rfl rfl) rfl)

theorem reclaimTables {d : ℕ} (h : Keeps F r s)
    (hF : Part.within [.now, .regs, .shadow, .leases, .engines, .districts, .ave, .xing, .ports, .cans, .img,
        .channels, .island, .notices] F) : Keeps F r (s.reclaimTables d) :=
  h.andThen hF (.foldl .refl (fun _ _ h1 => .reclaim h1 rfl))

theorem rebind {old new : List ℕ} (h : Keeps F r s)
    (hF : Part.within [.now, .regs, .shadow, .leases, .engines, .districts, .ave, .xing, .ports, .cans, .serials,
        .img, .channels, .island, .notices] F) : Keeps F r (s.rebind old new) :=
  h.andThen hF (.foldl .refl (fun _ _ h1 => .ite h1 (.ite (.resetWords h1 rfl) (.ite (.foldl (.resetCan h1 rfl)
      (fun _ _ h2 => .reclaim h2 rfl)) (.resetSer h1 rfl)))))

theorem applyRnd {d : ℕ} (h : Keeps F r s)
    (hF : Part.within [.now, .regs, .shadow, .leases, .engines, .districts, .ave, .xing, .ports, .cans, .serials,
        .img, .channels, .island, .notices] F) : Keeps F r (s.applyRnd d) :=
  h.andThen hF (.bind (fun h3 => .endApply ((.ite (.setDist h3 rfl rfl) h3)) rfl) (.setFlag ((.rebind (.reclaimTables
      (.dropPending ((.countWrap (.applyShadow .refl rfl) rfl)) rfl) rfl) rfl)) rfl))

theorem applyTxn {x' : TxnUnit} (h : Keeps F r s)
    (hF : Part.within [.now, .regs, .shadow, .leases, .engines, .msixPba, .districts, .ave, .xing, .ports, .cans,
        .serials, .img, .channels, .island, .notices, .out] F) : Keeps F r (s.applyTxn x') := by
  refine h.andThen hF ?_
  unfold State.applyTxn
  split
  · exact .refl
  · exact .applyAve .refl rfl
  · exact .applyRnd .refl rfl
  · exact .endApply (.applyEth .refl rfl) rfl
  · exact .endApply (.applyShadow .refl rfl) rfl

theorem applyFirst {u : TxnUnit} (h : Keeps F r s)
    (hF : Part.within [.now, .regs, .shadow, .leases, .engines, .msixPba, .districts, .ave, .xing, .ports, .cans,
        .serials, .img, .channels, .island, .notices, .out] F) : Keeps F r (s.applyFirst u) :=
  h.andThen hF (.ite (.applyTxn .refl rfl) .refl)

theorem beginTxn {u : TxnUnit} {who : Ident} (h : Keeps F r s)
    (hF : Part.within [.now, .regs, .leases] F) : Keeps F r (s.beginTxn u who) :=
  h.andThen hF (.ite (.txnResult (.addLease (.setTxn .refl rfl) rfl) rfl) (.txnResult .refl rfl))

theorem commitTxn {u : TxnUnit} {who : Ident} (h : Keeps F r s)
    (hF : Part.within [.now, .regs, .shadow, .leases, .engines, .msixPba, .districts, .ave, .red, .xing, .ports,
        .cans, .serials, .img, .channels, .island, .notices, .out] F) : Keeps F r (s.commitTxn u who) := by
  refine h.andThen hF ?_
  unfold State.commitTxn
  dsimp only
  refine .ite ?_ ?_
  · exact .txnResult .refl rfl
  · refine .ite ?_ ?_
    · exact .txnResult .refl rfl
    · refine .ite ?_ ?_
      · exact .txnResult (.closeTxn (.flip .refl rfl) rfl) rfl
      · exact .bind (fun h1 => .ite (.applyTxn h1 rfl) h1) (.txnResult (.setTxn .refl rfl) rfl)

theorem rollback {u : TxnUnit} {who : Ident} (h : Keeps F r s)
    (hF : Part.within [.now, .regs, .shadow, .leases, .xing] F) : Keeps F r (s.rollback u who) :=
  h.andThen hF (.ite (.txnResult (.rollbackTxn .refl rfl) rfl) (.txnResult .refl rfl))

theorem writeShadow {u : TxnUnit} {who : Ident} {a : ℕ} {v : Word} (h : Keeps F r s)
    (hF : Part.within [.now, .regs, .shadow] F) : Keeps F r (s.writeShadow u who a v) :=
  h.andThen hF (.ite (.ite (.setFlag .refl rfl) (.setShadow .refl rfl)) (.txnErr .refl rfl))

theorem stopRound {d : ℕ} (h : Keeps F r s)
    (hF : Part.within [.now, .regs, .shadow, .leases, .engines, .districts, .ave, .xing, .ports, .cans, .serials,
        .img, .channels, .island, .notices] F) : Keeps F r (s.stopRound d) :=
  h.andThen hF (.bind (fun h1 => .ite (.applyRnd h1 rfl) h1) (.roundStop .refl rfl))

theorem execRoundRun {d : ℕ} (h : Keeps F r s)
    {t : State} (ht : execRoundRun d s = .next t) (hF : Part.within [.now, .regs, .districts] F) : Keeps F r t :=
  h.andThen hF (.ofNext ht (.live .refl (fun _ h1 => .ite (.absentHit h1 rfl) (.ite h1 (.roundRun h1 rfl)))))

theorem execRoundStop {d : ℕ} {who : Ident} (h : Keeps F r s)
    {t : State} (ht : execRoundStop d who s = .next t)
        (hF : Part.within [.now, .regs, .shadow, .leases, .engines, .districts, .ave, .xing, .ports, .cans, .serials,
            .img, .channels, .island, .notices] F) : Keeps F r t :=
  h.andThen hF (.ofNext ht (.served .refl (fun _ h1 => .txnReach h1 (fun _ h2 => .ite (.stopRound h2 rfl)
      (.wrongState h2 rfl)) rfl) rfl))

theorem execBegin {u : TxnUnit} {who : Ident} (h : Keeps F r s)
    {t : State} (ht : execBegin u who s = .next t)
        (hF : Part.within [.now, .regs, .shadow, .leases, .engines, .msixPba, .districts, .ave, .xing, .ports, .cans,
            .serials, .img, .channels, .island, .notices, .out] F) : Keeps F r t :=
  h.andThen hF (.ofNext ht (.served .refl (fun _ h1 => .txnReach h1 (fun _ h2 => .beginTxn
      (.applyFirst h2 rfl) rfl) rfl) rfl))

theorem execCommit {u : TxnUnit} {who : Ident} (h : Keeps F r s)
    {t : State} (ht : execCommit u who s = .next t)
        (hF : Part.within [.now, .regs, .shadow, .leases, .engines, .msixPba, .districts, .ave, .red, .xing, .ports,
            .cans, .serials, .img, .channels, .island, .notices, .out] F) : Keeps F r t :=
  h.andThen hF (.ofNext ht (.served .refl (fun _ h1 => .txnReach h1 (fun _ h2 => .commitTxn
      (.applyFirst h2 rfl) rfl) rfl) rfl))

theorem execRollback {u : TxnUnit} {who : Ident} (h : Keeps F r s)
    {t : State} (ht : execRollback u who s = .next t)
        (hF : Part.within [.now, .regs, .shadow, .leases, .engines, .msixPba, .districts, .ave, .xing, .ports, .cans,
            .serials, .img, .channels, .island, .notices, .out] F) : Keeps F r t :=
  h.andThen hF (.ofNext ht (.served .refl (fun _ h1 => .txnReach h1 (fun _ h2 => .rollback
      (.applyFirst h2 rfl) rfl) rfl) rfl))

theorem execTxnApply {u : TxnUnit} (h : Keeps F r s)
    {t : State} (ht : execTxnApply u s = .next t)
        (hF : Part.within [.now, .regs, .shadow, .leases, .engines, .msixPba, .districts, .ave, .xing, .ports, .cans,
            .serials, .img, .channels, .island, .notices, .out] F) : Keeps F r t :=
  h.andThen hF (.ofNext ht (.live .refl (fun _ h1 => .ite (.applyTxn h1 rfl) h1)))

theorem execShadowWrite {who : Ident} {a : ℕ} {v : Word} (h : Keeps F r s)
    {t : State} (ht : execShadowWrite who a v s = .next t) (hF : Part.within [.now, .regs, .shadow, .engines] F)
        : Keeps F r t := by
  refine h.andThen hF (.ofNext ht ?_)
  exact .served .refl (fun _ h1 => by
    split
    · exact .ite (.absentHit h1 rfl) (.txnReach h1 (fun _ h2 => .writeShadow h2 rfl) rfl)
    · exact h1) rfl

theorem alu3 {e : ℕ} {wide : Bool} {d a b : GReg} {f : ℕ → ℕ → ℕ → ℕ} (h : Keeps F r s)
    (hF : Part.within [.regs, .engines, .gregs, .notices] F) : Keeps F r (s.alu3 e wide d a b f) :=
  h.andThen hF (.issue .refl (fun _ h1 => .advance (.wr h1 rfl) rfl) rfl)

theorem alu4 {e : ℕ} {wide : Bool} {d c a b : GReg} {f : ℕ → ℕ → ℕ → ℕ} {g : ℕ → ℕ → ℕ → Bool} (h : Keeps F r s)
    (hF : Part.within [.regs, .engines, .gregs, .notices] F) : Keeps F r (s.alu4 e wide d c a b f g) :=
  h.andThen hF (.issue .refl (fun _ h1 => .advance (.setGreg (.wr h1 rfl) rfl) rfl) rfl)

theorem alu2 {e : ℕ} {wide : Bool} {d a : GReg} {f : ℕ → ℕ → ℕ} (h : Keeps F r s)
    (hF : Part.within [.regs, .engines, .gregs, .notices] F) : Keeps F r (s.alu2 e wide d a f) :=
  h.andThen hF (.issue .refl (fun _ h1 => .advance (.wr h1 rfl) rfl) rfl)

theorem aluImm {e : ℕ} {wide : Bool} {d a : GReg} {imm : Imm} {f : ℕ → ℕ → ℕ → ℕ} (h : Keeps F r s)
    (hF : Part.within [.regs, .engines, .gregs, .notices] F) : Keeps F r (s.aluImm e wide d a imm f) :=
  h.andThen hF (.issue .refl (fun _ h1 => .advance (.wr h1 rfl) rfl) rfl)

theorem shiftImm {e : ℕ} {wide : Bool} {d a : GReg} {k : BitVec 8} {f : ℕ → ℕ → ℕ → ℕ} (h : Keeps F r s)
    (hF : Part.within [.regs, .engines, .gregs, .notices] F) : Keeps F r (s.shiftImm e wide d a k f) :=
  h.andThen hF (.issue .refl (fun _ h1 => .advance (.wr h1 rfl) rfl) rfl)

theorem shiftReg {e : ℕ} {wide : Bool} {d a b : GReg} {f : ℕ → ℕ → ℕ → ℕ} (h : Keeps F r s)
    (hF : Part.within [.regs, .engines, .gregs, .notices] F) : Keeps F r (s.shiftReg e wide d a b f) :=
  h.andThen hF (.issue .refl (fun _ h1 => .advance (.wr h1 rfl) rfl) rfl)

theorem compare {e : ℕ} {wide : Bool} {d a b : GReg} {f : ℕ → ℕ → ℕ → Bool} (h : Keeps F r s)
    (hF : Part.within [.regs, .engines, .gregs, .notices] F) : Keeps F r (s.compare e wide d a b f) :=
  h.andThen hF (.issue .refl (fun _ h1 => .advance (.setGreg h1 rfl) rfl) rfl)

theorem compareImm {e : ℕ} {wide : Bool} {d a : GReg} {imm : Imm} {f : ℕ → ℕ → ℕ → Bool} (h : Keeps F r s)
    (hF : Part.within [.regs, .engines, .gregs, .notices] F) : Keeps F r (s.compareImm e wide d a imm f) :=
  h.andThen hF (.issue .refl (fun _ h1 => .advance (.setGreg h1 rfl) rfl) rfl)

theorem bitField {e : ℕ} {wide : Bool} {d a : GReg} {field : BitVec 16} {f : ℕ → ℕ → ℕ → BitVec 16 → ℕ} (h
    : Keeps F r s)
    (hF : Part.within [.regs, .engines, .gregs, .notices] F) : Keeps F r (s.bitField e wide d a field f) :=
  h.andThen hF (.issue .refl (fun _ h1 => .advance (.wr h1 rfl) rfl) rfl)

theorem branch {e len : ℕ} {disp : ℤ} (h : Keeps F r s)
    (hF : Part.within [.engines] F) : Keeps F r (s.branch e len disp) :=
  h.andThen hF (.goto .refl rfl)

theorem execNop {e : ℕ} (h : Keeps F r s)
    {t : State} (ht : execNop e s = .next t) (hF : Part.within [.regs, .engines, .notices] F) : Keeps F r t :=
  h.andThen hF (.ofNext ht (.issue .refl (fun _ h1 => .advance h1 rfl) rfl))

theorem execMov {e : ℕ} {wide : Bool} {d a : GReg} (h : Keeps F r s)
    {t : State} (ht : execMov e wide d a s = .next t) (hF : Part.within [.regs, .engines, .gregs, .notices] F)
        : Keeps F r t :=
  h.andThen hF (.ofNext ht (.alu2 .refl rfl))

theorem execMovi {e : ℕ} {wide : Bool} {d : GReg} {imm : Imm} (h : Keeps F r s)
    {t : State} (ht : execMovi e wide d imm s = .next t) (hF : Part.within [.regs, .engines, .gregs, .notices] F)
        : Keeps F r t :=
  h.andThen hF (.ofNext ht (.issue .refl (fun _ h1 => .advance (.wr h1 rfl) rfl) rfl))

theorem execAdd {e : ℕ} {wide : Bool} {d a b : GReg} (h : Keeps F r s)
    {t : State} (ht : execAdd e wide d a b s = .next t) (hF : Part.within [.regs, .engines, .gregs, .notices] F)
        : Keeps F r t :=
  h.andThen hF (.ofNext ht (.alu3 .refl rfl))

theorem execSub {e : ℕ} {wide : Bool} {d a b : GReg} (h : Keeps F r s)
    {t : State} (ht : execSub e wide d a b s = .next t) (hF : Part.within [.regs, .engines, .gregs, .notices] F)
        : Keeps F r t :=
  h.andThen hF (.ofNext ht (.alu3 .refl rfl))

theorem execAddc {e : ℕ} {wide : Bool} {d c a b : GReg} (h : Keeps F r s)
    {t : State} (ht : execAddc e wide d c a b s = .next t) (hF : Part.within [.regs, .engines, .gregs, .notices] F)
        : Keeps F r t :=
  h.andThen hF (.ofNext ht (.alu4 .refl rfl))

theorem execSubb {e : ℕ} {wide : Bool} {d c a b : GReg} (h : Keeps F r s)
    {t : State} (ht : execSubb e wide d c a b s = .next t) (hF : Part.within [.regs, .engines, .gregs, .notices] F)
        : Keeps F r t :=
  h.andThen hF (.ofNext ht (.alu4 .refl rfl))

theorem execAddv {e : ℕ} {wide : Bool} {d c a b : GReg} (h : Keeps F r s)
    {t : State} (ht : execAddv e wide d c a b s = .next t) (hF : Part.within [.regs, .engines, .gregs, .notices] F)
        : Keeps F r t :=
  h.andThen hF (.ofNext ht (.alu4 .refl rfl))

theorem execSubv {e : ℕ} {wide : Bool} {d c a b : GReg} (h : Keeps F r s)
    {t : State} (ht : execSubv e wide d c a b s = .next t) (hF : Part.within [.regs, .engines, .gregs, .notices] F)
        : Keeps F r t :=
  h.andThen hF (.ofNext ht (.alu4 .refl rfl))

theorem execMul {e : ℕ} {wide : Bool} {d a b : GReg} (h : Keeps F r s)
    {t : State} (ht : execMul e wide d a b s = .next t) (hF : Part.within [.regs, .engines, .gregs, .notices] F)
        : Keeps F r t :=
  h.andThen hF (.ofNext ht (.alu3 .refl rfl))

theorem execMulh {e : ℕ} {wide : Bool} {d a b : GReg} (h : Keeps F r s)
    {t : State} (ht : execMulh e wide d a b s = .next t) (hF : Part.within [.regs, .engines, .gregs, .notices] F)
        : Keeps F r t :=
  h.andThen hF (.ofNext ht (.alu3 .refl rfl))

theorem execMulhu {e : ℕ} {wide : Bool} {d a b : GReg} (h : Keeps F r s)
    {t : State} (ht : execMulhu e wide d a b s = .next t) (hF : Part.within [.regs, .engines, .gregs, .notices] F)
        : Keeps F r t :=
  h.andThen hF (.ofNext ht (.alu3 .refl rfl))

theorem execDiv {e : ℕ} {wide : Bool} {d a b : GReg} (h : Keeps F r s)
    {t : State} (ht : execDiv e wide d a b s = .next t) (hF : Part.within [.regs, .engines, .gregs, .notices] F)
        : Keeps F r t :=
  h.andThen hF (.ofNext ht (.alu3 .refl rfl))

theorem execDivu {e : ℕ} {wide : Bool} {d a b : GReg} (h : Keeps F r s)
    {t : State} (ht : execDivu e wide d a b s = .next t) (hF : Part.within [.regs, .engines, .gregs, .notices] F)
        : Keeps F r t :=
  h.andThen hF (.ofNext ht (.alu3 .refl rfl))

theorem execRem {e : ℕ} {wide : Bool} {d a b : GReg} (h : Keeps F r s)
    {t : State} (ht : execRem e wide d a b s = .next t) (hF : Part.within [.regs, .engines, .gregs, .notices] F)
        : Keeps F r t :=
  h.andThen hF (.ofNext ht (.alu3 .refl rfl))

theorem execRemu {e : ℕ} {wide : Bool} {d a b : GReg} (h : Keeps F r s)
    {t : State} (ht : execRemu e wide d a b s = .next t) (hF : Part.within [.regs, .engines, .gregs, .notices] F)
        : Keeps F r t :=
  h.andThen hF (.ofNext ht (.alu3 .refl rfl))

theorem execSatadd {e : ℕ} {wide : Bool} {d a b : GReg} (h : Keeps F r s)
    {t : State} (ht : execSatadd e wide d a b s = .next t) (hF : Part.within [.regs, .engines, .gregs, .notices] F)
        : Keeps F r t :=
  h.andThen hF (.ofNext ht (.alu3 .refl rfl))

theorem execNeg {e : ℕ} {wide : Bool} {d a : GReg} (h : Keeps F r s)
    {t : State} (ht : execNeg e wide d a s = .next t) (hF : Part.within [.regs, .engines, .gregs, .notices] F)
        : Keeps F r t :=
  h.andThen hF (.ofNext ht (.alu2 .refl rfl))

theorem execNegv {e : ℕ} {wide : Bool} {d c a : GReg} (h : Keeps F r s)
    {t : State} (ht : execNegv e wide d c a s = .next t) (hF : Part.within [.regs, .engines, .gregs, .notices] F)
        : Keeps F r t :=
  h.andThen hF (.ofNext ht (.issue .refl (fun _ h1 => .advance (.setGreg (.wr h1 rfl) rfl) rfl) rfl))

theorem execAddi {e : ℕ} {wide : Bool} {d a : GReg} {imm : Imm} (h : Keeps F r s)
    {t : State} (ht : execAddi e wide d a imm s = .next t) (hF : Part.within [.regs, .engines, .gregs, .notices] F)
        : Keeps F r t :=
  h.andThen hF (.ofNext ht (.aluImm .refl rfl))

theorem execAndi {e : ℕ} {wide : Bool} {d a : GReg} {imm : BitVec 16} {ext : Bool} (h : Keeps F r s)
    {t : State} (ht : execAndi e wide d a imm ext s = .next t)
        (hF : Part.within [.regs, .engines, .gregs, .notices] F) : Keeps F r t :=
  h.andThen hF (.ofNext ht (.aluImm .refl rfl))

theorem execOri {e : ℕ} {wide : Bool} {d a : GReg} {imm : BitVec 16} {ext : Bool} (h : Keeps F r s)
    {t : State} (ht : execOri e wide d a imm ext s = .next t) (hF : Part.within [.regs, .engines, .gregs, .notices] F)
        : Keeps F r t :=
  h.andThen hF (.ofNext ht (.aluImm .refl rfl))

theorem execXori {e : ℕ} {wide : Bool} {d a : GReg} {imm : BitVec 16} {ext : Bool} (h : Keeps F r s)
    {t : State} (ht : execXori e wide d a imm ext s = .next t)
        (hF : Part.within [.regs, .engines, .gregs, .notices] F) : Keeps F r t :=
  h.andThen hF (.ofNext ht (.aluImm .refl rfl))

theorem execShli {e : ℕ} {wide : Bool} {d a : GReg} {k : BitVec 8} (h : Keeps F r s)
    {t : State} (ht : execShli e wide d a k s = .next t) (hF : Part.within [.regs, .engines, .gregs, .notices] F)
        : Keeps F r t :=
  h.andThen hF (.ofNext ht (.shiftImm .refl rfl))

theorem execShri {e : ℕ} {wide : Bool} {d a : GReg} {k : BitVec 8} (h : Keeps F r s)
    {t : State} (ht : execShri e wide d a k s = .next t) (hF : Part.within [.regs, .engines, .gregs, .notices] F)
        : Keeps F r t :=
  h.andThen hF (.ofNext ht (.shiftImm .refl rfl))

theorem execSari {e : ℕ} {wide : Bool} {d a : GReg} {k : BitVec 8} (h : Keeps F r s)
    {t : State} (ht : execSari e wide d a k s = .next t) (hF : Part.within [.regs, .engines, .gregs, .notices] F)
        : Keeps F r t :=
  h.andThen hF (.ofNext ht (.shiftImm .refl rfl))

theorem execRoli {e : ℕ} {wide : Bool} {d a : GReg} {k : BitVec 8} (h : Keeps F r s)
    {t : State} (ht : execRoli e wide d a k s = .next t) (hF : Part.within [.regs, .engines, .gregs, .notices] F)
        : Keeps F r t :=
  h.andThen hF (.ofNext ht (.shiftImm .refl rfl))

theorem execRoti {e : ℕ} {wide : Bool} {d a : GReg} {k : BitVec 8} (h : Keeps F r s)
    {t : State} (ht : execRoti e wide d a k s = .next t) (hF : Part.within [.regs, .engines, .gregs, .notices] F)
        : Keeps F r t :=
  h.andThen hF (.ofNext ht (.shiftImm .refl rfl))

theorem execMuli {e : ℕ} {wide : Bool} {d a : GReg} {imm : BitVec 16} {ext : Bool} (h : Keeps F r s)
    {t : State} (ht : execMuli e wide d a imm ext s = .next t)
        (hF : Part.within [.regs, .engines, .gregs, .notices] F) : Keeps F r t :=
  h.andThen hF (.ofNext ht (.aluImm .refl rfl))

theorem execCeqi {e : ℕ} {wide : Bool} {d a : GReg} {imm : BitVec 16} {ext : Bool} (h : Keeps F r s)
    {t : State} (ht : execCeqi e wide d a imm ext s = .next t)
        (hF : Part.within [.regs, .engines, .gregs, .notices] F) : Keeps F r t :=
  h.andThen hF (.ofNext ht (.compareImm .refl rfl))

theorem execClti {e : ℕ} {wide : Bool} {d a : GReg} {imm : BitVec 16} {ext : Bool} (h : Keeps F r s)
    {t : State} (ht : execClti e wide d a imm ext s = .next t)
        (hF : Part.within [.regs, .engines, .gregs, .notices] F) : Keeps F r t :=
  h.andThen hF (.ofNext ht (.compareImm .refl rfl))

theorem execCltui {e : ℕ} {wide : Bool} {d a : GReg} {imm : BitVec 16} {ext : Bool} (h : Keeps F r s)
    {t : State} (ht : execCltui e wide d a imm ext s = .next t)
        (hF : Part.within [.regs, .engines, .gregs, .notices] F) : Keeps F r t :=
  h.andThen hF (.ofNext ht (.compareImm .refl rfl))

theorem execSataddi {e : ℕ} {wide : Bool} {d a : GReg} {imm : BitVec 16} {ext : Bool} (h : Keeps F r s)
    {t : State} (ht : execSataddi e wide d a imm ext s = .next t)
        (hF : Part.within [.regs, .engines, .gregs, .notices] F) : Keeps F r t :=
  h.andThen hF (.ofNext ht (.aluImm .refl rfl))

theorem execAnd {e : ℕ} {wide : Bool} {d a b : GReg} (h : Keeps F r s)
    {t : State} (ht : execAnd e wide d a b s = .next t) (hF : Part.within [.regs, .engines, .gregs, .notices] F)
        : Keeps F r t :=
  h.andThen hF (.ofNext ht (.alu3 .refl rfl))

theorem execOr {e : ℕ} {wide : Bool} {d a b : GReg} (h : Keeps F r s)
    {t : State} (ht : execOr e wide d a b s = .next t) (hF : Part.within [.regs, .engines, .gregs, .notices] F)
        : Keeps F r t :=
  h.andThen hF (.ofNext ht (.alu3 .refl rfl))

theorem execXor {e : ℕ} {wide : Bool} {d a b : GReg} (h : Keeps F r s)
    {t : State} (ht : execXor e wide d a b s = .next t) (hF : Part.within [.regs, .engines, .gregs, .notices] F)
        : Keeps F r t :=
  h.andThen hF (.ofNext ht (.alu3 .refl rfl))

theorem execAndn {e : ℕ} {wide : Bool} {d a b : GReg} (h : Keeps F r s)
    {t : State} (ht : execAndn e wide d a b s = .next t) (hF : Part.within [.regs, .engines, .gregs, .notices] F)
        : Keeps F r t :=
  h.andThen hF (.ofNext ht (.alu3 .refl rfl))

theorem execNot {e : ℕ} {wide : Bool} {d a : GReg} (h : Keeps F r s)
    {t : State} (ht : execNot e wide d a s = .next t) (hF : Part.within [.regs, .engines, .gregs, .notices] F)
        : Keeps F r t :=
  h.andThen hF (.ofNext ht (.alu2 .refl rfl))

theorem execShl {e : ℕ} {wide : Bool} {d a b : GReg} (h : Keeps F r s)
    {t : State} (ht : execShl e wide d a b s = .next t) (hF : Part.within [.regs, .engines, .gregs, .notices] F)
        : Keeps F r t :=
  h.andThen hF (.ofNext ht (.shiftReg .refl rfl))

theorem execShr {e : ℕ} {wide : Bool} {d a b : GReg} (h : Keeps F r s)
    {t : State} (ht : execShr e wide d a b s = .next t) (hF : Part.within [.regs, .engines, .gregs, .notices] F)
        : Keeps F r t :=
  h.andThen hF (.ofNext ht (.shiftReg .refl rfl))

theorem execSar {e : ℕ} {wide : Bool} {d a b : GReg} (h : Keeps F r s)
    {t : State} (ht : execSar e wide d a b s = .next t) (hF : Part.within [.regs, .engines, .gregs, .notices] F)
        : Keeps F r t :=
  h.andThen hF (.ofNext ht (.shiftReg .refl rfl))

theorem execRol {e : ℕ} {wide : Bool} {d a b : GReg} (h : Keeps F r s)
    {t : State} (ht : execRol e wide d a b s = .next t) (hF : Part.within [.regs, .engines, .gregs, .notices] F)
        : Keeps F r t :=
  h.andThen hF (.ofNext ht (.shiftReg .refl rfl))

theorem execRot {e : ℕ} {wide : Bool} {d a b : GReg} (h : Keeps F r s)
    {t : State} (ht : execRot e wide d a b s = .next t) (hF : Part.within [.regs, .engines, .gregs, .notices] F)
        : Keeps F r t :=
  h.andThen hF (.ofNext ht (.shiftReg .refl rfl))

theorem execCeq {e : ℕ} {wide : Bool} {d a b : GReg} (h : Keeps F r s)
    {t : State} (ht : execCeq e wide d a b s = .next t) (hF : Part.within [.regs, .engines, .gregs, .notices] F)
        : Keeps F r t :=
  h.andThen hF (.ofNext ht (.compare .refl rfl))

theorem execCne {e : ℕ} {wide : Bool} {d a b : GReg} (h : Keeps F r s)
    {t : State} (ht : execCne e wide d a b s = .next t) (hF : Part.within [.regs, .engines, .gregs, .notices] F)
        : Keeps F r t :=
  h.andThen hF (.ofNext ht (.compare .refl rfl))

theorem execClt {e : ℕ} {wide : Bool} {d a b : GReg} (h : Keeps F r s)
    {t : State} (ht : execClt e wide d a b s = .next t) (hF : Part.within [.regs, .engines, .gregs, .notices] F)
        : Keeps F r t :=
  h.andThen hF (.ofNext ht (.compare .refl rfl))

theorem execCltu {e : ℕ} {wide : Bool} {d a b : GReg} (h : Keeps F r s)
    {t : State} (ht : execCltu e wide d a b s = .next t) (hF : Part.within [.regs, .engines, .gregs, .notices] F)
        : Keeps F r t :=
  h.andThen hF (.ofNext ht (.compare .refl rfl))

theorem execCge {e : ℕ} {wide : Bool} {d a b : GReg} (h : Keeps F r s)
    {t : State} (ht : execCge e wide d a b s = .next t) (hF : Part.within [.regs, .engines, .gregs, .notices] F)
        : Keeps F r t :=
  h.andThen hF (.ofNext ht (.compare .refl rfl))

theorem execCgeu {e : ℕ} {wide : Bool} {d a b : GReg} (h : Keeps F r s)
    {t : State} (ht : execCgeu e wide d a b s = .next t) (hF : Part.within [.regs, .engines, .gregs, .notices] F)
        : Keeps F r t :=
  h.andThen hF (.ofNext ht (.compare .refl rfl))

theorem execSel {e : ℕ} {wide : Bool} {d c a b : GReg} (h : Keeps F r s)
    {t : State} (ht : execSel e wide d c a b s = .next t) (hF : Part.within [.regs, .engines, .gregs, .notices] F)
        : Keeps F r t :=
  h.andThen hF (.ofNext ht (.issue .refl (fun _ h1 => .advance (.wr h1 rfl) rfl) rfl))

theorem execBfx {e : ℕ} {wide : Bool} {d a : GReg} {field : BitVec 16} (h : Keeps F r s)
    {t : State} (ht : execBfx e wide d a field s = .next t) (hF : Part.within [.regs, .engines, .gregs, .notices] F)
        : Keeps F r t :=
  h.andThen hF (.ofNext ht (.bitField .refl rfl))

theorem execBfi {e : ℕ} {wide : Bool} {d a : GReg} {field : BitVec 16} (h : Keeps F r s)
    {t : State} (ht : execBfi e wide d a field s = .next t) (hF : Part.within [.regs, .engines, .gregs, .notices] F)
        : Keeps F r t :=
  h.andThen hF (.ofNext ht (.bitField .refl rfl))

theorem execClz {e : ℕ} {wide : Bool} {d a : GReg} (h : Keeps F r s)
    {t : State} (ht : execClz e wide d a s = .next t) (hF : Part.within [.regs, .engines, .gregs, .notices] F)
        : Keeps F r t :=
  h.andThen hF (.ofNext ht (.alu2 .refl rfl))

theorem execPopc {e : ℕ} {wide : Bool} {d a : GReg} (h : Keeps F r s)
    {t : State} (ht : execPopc e wide d a s = .next t) (hF : Part.within [.regs, .engines, .gregs, .notices] F)
        : Keeps F r t :=
  h.andThen hF (.ofNext ht (.alu2 .refl rfl))

theorem execBswap {e : ℕ} {wide : Bool} {d a : GReg} (h : Keeps F r s)
    {t : State} (ht : execBswap e wide d a s = .next t) (hF : Part.within [.regs, .engines, .gregs, .notices] F)
        : Keeps F r t :=
  h.andThen hF (.ofNext ht (.alu2 .refl rfl))

theorem execLea {e : ℕ} {d b : GReg} {disp : BitVec 32} (h : Keeps F r s)
    {t : State} (ht : execLea e d b disp s = .next t) (hF : Part.within [.regs, .engines, .gregs, .notices] F)
        : Keeps F r t :=
  h.andThen hF (.ofNext ht (.issue .refl (fun _ h1 => .advance (.setGreg h1 rfl) rfl) rfl))

theorem execB {e : ℕ} {disp : Disp} (h : Keeps F r s)
    {t : State} (ht : execB e disp s = .next t) (hF : Part.within [.regs, .engines, .notices] F) : Keeps F r t :=
  h.andThen hF (.ofNext ht (.issue .refl (fun _ h1 => .branch h1 rfl) rfl))

theorem execBz {e : ℕ} {a : GReg} {disp : Disp} (h : Keeps F r s)
    {t : State} (ht : execBz e a disp s = .next t) (hF : Part.within [.regs, .engines, .notices] F) : Keeps F r t :=
  h.andThen hF (.ofNext ht (.issue .refl (fun _ h1 => .ite (.branch h1 rfl) (.advance h1 rfl)) rfl))

theorem execBnz {e : ℕ} {a : GReg} {disp : Disp} (h : Keeps F r s)
    {t : State} (ht : execBnz e a disp s = .next t) (hF : Part.within [.regs, .engines, .notices] F) : Keeps F r t :=
  h.andThen hF (.ofNext ht (.issue .refl (fun _ h1 => .ite (.branch h1 rfl) (.advance h1 rfl)) rfl))

theorem execCall {e : ℕ} {disp : Disp} (h : Keeps F r s)
    {t : State} (ht : execCall e disp s = .next t) (hF : Part.within [.regs, .engines, .gregs, .notices] F)
        : Keeps F r t :=
  h.andThen hF (.ofNext ht (.issue .refl (fun _ h1 => .branch (.setGreg h1 rfl) rfl) rfl))

theorem execBr {e : ℕ} {a : GReg} (h : Keeps F r s)
    {t : State} (ht : execBr e a s = .next t) (hF : Part.within [.regs, .engines, .notices] F) : Keeps F r t :=
  h.andThen hF (.ofNext ht (.issue .refl (fun _ h1 => .goto h1 rfl) rfl))

theorem execCallr {e : ℕ} {a : GReg} (h : Keeps F r s)
    {t : State} (ht : execCallr e a s = .next t) (hF : Part.within [.regs, .engines, .gregs, .notices] F)
        : Keeps F r t :=
  h.andThen hF (.ofNext ht (.issue .refl (fun _ h1 => .goto (.setGreg h1 rfl) rfl) rfl))

theorem execRet {e : ℕ} (h : Keeps F r s)
    {t : State} (ht : execRet e s = .next t) (hF : Part.within [.regs, .engines, .notices] F) : Keeps F r t :=
  h.andThen hF (.ofNext ht (.issue .refl (fun _ h1 => .goto h1 rfl) rfl))

theorem followTwins (h : Keeps F r s)
    (hF : Part.within [.now, .regs] F) : Keeps F r (s.followTwins) :=
  h.andThen hF (.bind (fun h2 => .ite (.setMode h2 rfl) (.ite (.setMode h2 rfl) h2)) (.setFlag ((.setFld (.setFld
      (.setFld (.setFld .refl rfl) rfl) rfl) rfl)) rfl))

theorem setPairState {p st : ℕ} (h : Keeps F r s)
    (hF : Part.within [.now, .regs] F) : Keeps F r (s.setPairState p st) :=
  h.andThen hF (.followTwins (.setFld .refl rfl) rfl)

theorem setBeat {e : ℕ} {b : Beat} (h : Keeps F r s)
    (hF : Part.within [.red] F) : Keeps F r (s.setBeat e b) :=
  h.andThen hF (.setRed .refl rfl)

theorem lanternPulse {e : ℕ} (h : Keeps F r s)
    (hF : Part.within [.regs, .red] F) : Keeps F r (s.lanternPulse e) :=
  h.andThen hF (.setFld (.setBeat .refl rfl) rfl)

theorem showMon (h : Keeps F r s)
    (hF : Part.within [.now, .regs] F) : Keeps F r (s.showMon) :=
  h.andThen hF (.foldl .refl (fun _ _ h1 => .ite h1 (.setFlag h1 rfl)))

theorem startMonitoring (h : Keeps F r s)
    (hF : Part.within [.now, .regs, .red] F) : Keeps F r (s.startMonitoring) :=
  h.andThen hF (.showMon (.setRed ((.foldl ((.foldl .refl (fun _ _ h2 => .setBeat (.setFld
      (.setFld h2 rfl) rfl) rfl))) (fun _ _ h3 => .setPair h3 rfl))) rfl) rfl)

theorem stopMonitoring (h : Keeps F r s)
    (hF : Part.within [.now, .regs, .red] F) : Keeps F r (s.stopMonitoring) :=
  h.andThen hF (.showMon (.setRed .refl rfl) rfl)

theorem declareSlot {p m cause : ℕ} (h : Keeps F r s)
    (hF : Part.within [.now, .regs, .engines, .red, .notices] F) : Keeps F r (s.declareSlot p m cause) :=
  h.andThen hF (.bind (fun h3 => .bind (fun h5 => by
    refine .ite ?_ ?_
    · exact .ite (.setPairState h5 rfl) (.setPairState (.setPairSlot h5 rfl) rfl)
    · exact .followTwins (.setFlag (.setFlag h5 rfl) rfl) rfl)
    (.setPairSlot ((.ite (.redNote h3 rfl) h3)) rfl)) (.notify (.count ((.setReg ((.setFlag .refl rfl)) rfl)) rfl) rfl))

theorem failSpare {p m cause : ℕ} (h : Keeps F r s)
    (hF : Part.within [.now, .regs, .engines, .red, .notices] F) : Keeps F r (s.failSpare p m cause) :=
  h.andThen hF (.declareSlot (.count .refl rfl) rfl)

theorem judgeEngine {e : ℕ} (h : Keeps F r s)
    (hF : Part.within [.now, .regs, .engines, .red, .notices] F) : Keeps F r (s.judgeEngine e) := by
  refine h.andThen hF ?_
  unfold State.judgeEngine
  dsimp only
  refine .ite ?_ ?_
  · exact (.ite .refl (.setFlag .refl rfl))
  · split
    · refine .ite ?_ ?_
      · exact .declareSlot ((.ite .refl (.setFlag .refl rfl))) rfl
      · refine .ite ?_ ?_
        · exact .failSpare ((.ite .refl (.setFlag .refl rfl))) rfl
        · exact .setFlag (.setFlag ((.ite .refl (.setFlag .refl rfl))) rfl) rfl
    · exact (.ite .refl (.setFlag .refl rfl))

theorem judgeBeats (h : Keeps F r s)
    (hF : Part.within [.now, .regs, .engines, .red, .notices] F) : Keeps F r (s.judgeBeats) :=
  h.andThen hF (.ite (.showMon (.foldl .refl (fun _ _ h1 => .judgeEngine h1 rfl)) rfl) .refl)

theorem endPeriod (h : Keeps F r s)
    (hF : Part.within [.now, .regs, .engines, .red, .notices] F) : Keeps F r (s.endPeriod) :=
  h.andThen hF (.judgeBeats (.setRed ((.foldl .refl (fun _ _ h2 => .setBeat ((.ite h2
      (.setFld h2 rfl))) rfl))) rfl) rfl)

theorem takeLantern {d : ℕ} {words : List Word} (h : Keeps F r s)
    (hF : Part.within [.now, .regs, .engines, .red, .notices] F) : Keeps F r (s.takeLantern d words) :=
  h.andThen hF (.judgeBeats (.setRed ((.foldl .refl (fun _ _ h2 => .bind (fun h3 => .ite h3 (.setFld h3 rfl))
      (.setBeat h2 rfl)))) rfl) rfl)

theorem endWindow (h : Keeps F r s)
    (hF : Part.within [.now, .regs, .engines, .red, .notices] F) : Keeps F r (s.endWindow) :=
  h.andThen hF (.judgeBeats (.setRed ((.foldl ((.foldl ((.foldl .refl (fun _ _ h2 => .count h2 rfl)))
      (fun _ _ h3 => .ite h3 (.setFld h3 rfl)))) (fun _ _ h4 => .ite (.setBeat h4 rfl) h4))) rfl) rfl)

theorem sendSupers (h : Keeps F r s)
    (hF : Part.within [.ave] F) : Keeps F r (s.sendSupers) :=
  h.andThen hF (.foldl ((.setNodeQueue .refl rfl)) (fun _ _ h2 => .ite h2 (.queueMsg h2 rfl)))

theorem redCycle (h : Keeps F r s)
    (hF : Part.within [.now, .regs, .engines, .ave, .red, .notices] F) : Keeps F r (s.redCycle) :=
  h.andThen hF (.bind (fun h1 => .bind (fun h2 => .ite (.sendSupers ((.ite (.foldl h2
      (fun _ _ h4 => .setPair h4 rfl)) h2)) rfl) h2) (.ite (.endWindow h1 rfl) h1)) (.ite (.setRed .refl rfl) .refl))

theorem takeSuper {chip : ℕ} {w : Word} (h : Keeps F r s)
    (hF : Part.within [.now, .regs, .engines, .red, .notices] F) : Keeps F r (s.takeSuper chip w) := by
  refine h.andThen hF ?_
  unfold State.takeSuper
  dsimp only
  refine .ite ?_ ?_
  · exact .refl
  · exact .bind (fun h1 => .ite (.ite (.declareSlot h1 rfl) h1) (.ite (.setPairState (.redNote
      (.setFlag h1 rfl) rfl) rfl) h1)) (.setPair .refl rfl)

theorem passCells {e x : ℕ} (h : Keeps F r s)
    (hF : Part.within [.leases] F) : Keeps F r (s.passCells e x) :=
  h.andThen hF (.with_leases .refl rfl)

theorem startSpare {p m x : ℕ} (h : Keeps F r s)
    (hF : Part.within [.now, .regs, .engines, .gregs, .red, .ports] F) : Keeps F r (s.startSpare p m x) :=
  h.andThen hF (.bind (fun h1 => .showMon (.setPairState (.setBeat ((.setFld (.setFld (.setFlag ((.setReg
      ((.setPairSlot ((.runEngine ((.foldl ((.ite (.kickWatchdog h1 rfl) h1)) (fun _ _ h4 => .ite
          (.setPort h4 rfl) h4))) rfl)) rfl)) rfl)) rfl) rfl) rfl)) rfl) rfl) rfl) (.foldl .refl
              (fun _ _ h2 => .setReg h2 rfl)))

theorem endSingle {p m : ℕ} (h : Keeps F r s)
    (hF : Part.within [.now, .regs, .red] F) : Keeps F r (s.endSingle p m) :=
  h.andThen hF (.bind (fun h1 => .ite (.setPairState h1 rfl) (.setPairState (.setPairSlot h1 rfl) rfl))
      (.setPairSlot .refl rfl))

theorem completeReclaim {p m : ℕ} (h : Keeps F r s)
    (hF : Part.within [.now, .regs, .shadow, .leases, .engines, .gregs, .districts, .ave, .red, .xing, .ports, .cans,
        .img, .channels, .island, .notices] F) : Keeps F r (s.completeReclaim p m) := by
  refine h.andThen hF ?_
  unfold State.completeReclaim
  dsimp only
  refine .ite ?_ ?_
  · exact (.reclaimAll ((by
      split
      · exact .passCells .refl rfl
      · exact .refl)) rfl)
  · split
    · exact .startSpare ((.ite ((.reclaimAll ((by
        split
        · exact .passCells .refl rfl
        · exact .refl)) rfl)) (.holdEngine ((.reclaimAll ((by
        split
        · exact .passCells .refl rfl
        · exact .refl)) rfl)) rfl))) rfl
    · exact .endSingle ((.ite ((.reclaimAll ((by
        split
        · exact .passCells .refl rfl
        · exact .refl)) rfl)) (.holdEngine ((.reclaimAll ((by
        split
        · exact .passCells .refl rfl
        · exact .refl)) rfl)) rfl))) rfl

theorem join {e : ℕ} (h : Keeps F r s)
    (hF : Part.within [.now, .regs, .engines, .red, .notices] F) : Keeps F r (s.join e) := by
  refine h.andThen hF ?_
  unfold State.join
  dsimp only
  split
  · refine .ite ?_ ?_
    · refine .ite ?_ ?_
      · exact .countCode (.setRed (.failSpare .refl rfl) rfl) rfl
      · exact .bind (fun h3 => .countCode (.setRed (.setPairState ((.ite h3 (.redNote h3 rfl))) rfl) rfl) rfl)
          (.setFld ((.setFlag ((.setPairSlot .refl rfl)) rfl)) rfl)
    · exact .countCode (.setRed .refl rfl) rfl
  · exact .countCode (.setRed .refl rfl) rfl

theorem copyCheckpoint {p m : ℕ} (h : Keeps F r s)
    (hF : Part.within [.now, .regs, .nv, .sup] F) : Keeps F r (s.copyCheckpoint p m) :=
  h.andThen hF (.ite (.offerRows .refl rfl) .refl)

theorem loadCheckpoint {p m : ℕ} (h : Keeps F r s) (hF : Part.within [.districts] F) :
    Keeps F r (s.loadCheckpoint p m) :=
  h.andThen hF (.setDistSram .refl (fun hm =>
    Mem.wf_writeBytes _ _ (Mem.wf_writeBytes _ _ (Mem.wf_writeLE _ _ _ (Store.wf_filter _ hm)))) rfl)

theorem redCommand {who : Ident} {tag : ℕ} {body : State → ℕ × State} (h
    : Keeps F r s) (hbody : ∀ u, Keeps F r u → Keeps F r (body u).2)
    (hF : Part.within [.now, .regs, .engines] F) : Keeps F r (s.redCommand who tag body) := by
  unfold State.redCommand
  refine .ite ?_ ?_
  · exact .absentHit h (hF := Part.sub hF rfl)
  · exact .hostWrite h (fun _ h1 => .oneAtATime h1 (fun _ h2 => .countCode (.setFld (.setFld (hbody _ h2)
      (hF := Part.sub hF rfl)) (hF := Part.sub hF rfl)) (hF := Part.sub hF rfl)) (hF := Part.sub hF rfl))
          (hF := Part.sub hF rfl)

theorem formPair {p : ℕ} {remote : Option ℕ} (h : Keeps F r s)
    (hF : Part.within [.now, .regs, .shadow, .leases, .engines, .districts, .ave, .red, .xing, .ports, .cans, .img,
        .channels, .island, .notices] F) : Keeps F r (s.formPair p remote) :=
  h.andThen hF (.followTwins (.foldl ((.setReg (.setReg ((.setPair ((.foldl .refl
      (fun _ _ h2 => .holdEngine h2 rfl))) rfl)) rfl) rfl)) (fun _ _ h4 => .setReg h4 rfl)) rfl)

theorem dissolve {p : ℕ} (h : Keeps F r s)
    (hF : Part.within [.now, .regs, .shadow, .leases, .engines, .districts, .ave, .red, .xing, .ports, .cans, .img,
        .channels, .island, .notices] F) : Keeps F r (s.dissolve p) :=
  h.andThen hF (.followTwins (.setReg (.setReg (.setPair ((.foldl .refl (fun _ _ h2 => .ite
      (.holdEngine h2 rfl) h2))) rfl) rfl) rfl) rfl)

theorem execPair {who : Ident} {tag : ℕ} (h : Keeps F r s)
    {t : State} (ht : execPair who tag s = .next t)
        (hF : Part.within [.now, .regs, .shadow, .leases, .engines, .districts, .ave, .red, .xing, .ports, .cans,
            .img, .channels, .island, .notices] F) : Keeps F r t :=
  h.andThen hF (.ofNext ht (.served .refl (fun _ h1 => .redCommand h1 (fun _ h2 => .ite
      (.formPair h2 rfl) h2) rfl) rfl))

theorem execUnpair {who : Ident} {tag : ℕ} (h : Keeps F r s)
    {t : State} (ht : execUnpair who tag s = .next t)
        (hF : Part.within [.now, .regs, .shadow, .leases, .engines, .districts, .ave, .red, .xing, .ports, .cans,
            .img, .channels, .island, .notices] F) : Keeps F r t :=
  h.andThen hF (.ofNext ht (.served .refl (fun _ h1 => .redCommand h1 (fun _ h2 => .ite
      (.dissolve h2 rfl) h2) rfl) rfl))

theorem execResync {who : Ident} {tag : ℕ} (h : Keeps F r s)
    {t : State} (ht : execResync who tag s = .next t) (hF : Part.within [.now, .regs, .engines, .red] F)
        : Keeps F r t :=
  h.andThen hF (.ofNext ht (.served .refl (fun _ h1 => .redCommand h1 (fun _ h2 => .resetFlow h2 rfl) rfl) rfl))

theorem execReclaim {who : Ident} {tag : ℕ} (h : Keeps F r s)
    {t : State} (ht : execReclaim who tag s = .next t)
        (hF : Part.within [.now, .regs, .shadow, .leases, .engines, .districts, .ave, .xing, .ports, .cans, .img,
            .channels, .island, .notices] F) : Keeps F r t := by
  refine h.andThen hF (.ofNext ht ?_)
  dsimp only
  exact .served .refl (fun _ h1 => .redCommand h1 (fun _ h2 => .ite_snd h2 (by
    split
    · exact .reclaim h2 rfl
    · exact h2)) rfl) rfl

theorem execFail {who : Ident} {tag : ℕ} (h : Keeps F r s)
    {t : State} (ht : execFail who tag s = .next t) (hF : Part.within [.now, .regs, .engines, .red, .notices] F)
        : Keeps F r t :=
  h.andThen hF (.ofNext ht (.served .refl (fun _ h1 => .redCommand h1 (fun _ h2 => .ite
      (.declareSlot h2 rfl) h2) rfl) rfl))

theorem execCkptLoad {who : Ident} {tag : ℕ} (h : Keeps F r s)
    {t : State} (ht : execCkptLoad who tag s = .next t) (hF : Part.within [.now, .regs, .engines, .districts] F)
        : Keeps F r t :=
  h.andThen hF (.ofNext ht (.served .refl (fun _ h1 => .redCommand h1 (fun _ h2 => .ite
      (.loadCheckpoint h2 rfl) h2) rfl) rfl))

theorem execHeartbeatPeriodEnd (h : Keeps F r s)
    {t : State} (ht : execHeartbeatPeriodEnd s = .next t) (hF : Part.within [.now, .regs, .engines, .red, .notices] F)
        : Keeps F r t :=
  h.andThen hF (.ofNext ht (.live .refl (fun _ h1 => .ite (.endPeriod h1 rfl) h1)))

theorem execReclaimComplete {p m : ℕ} (h : Keeps F r s)
    {t : State} (ht : execReclaimComplete p m s = .next t)
        (hF : Part.within [.now, .regs, .shadow, .leases, .engines, .gregs, .districts, .ave, .red, .xing, .ports,
            .cans, .img, .channels, .island, .notices] F) : Keeps F r t :=
  h.andThen hF (.ofNext ht (.live .refl (fun _ h1 => .ite (.completeReclaim h1 rfl) h1)))

theorem execJoin {e : ℕ} (h : Keeps F r s)
    {t : State} (ht : execJoin e s = .next t) (hF : Part.within [.now, .regs, .engines, .red, .notices] F)
        : Keeps F r t :=
  h.andThen hF (.ofNext ht (.live .refl (fun _ h1 => .ite (.join h1 rfl) h1)))

theorem execRestoreTimeout {p m : ℕ} (h : Keeps F r s)
    {t : State} (ht : execRestoreTimeout p m s = .next t) (hF : Part.within [.now, .regs, .engines, .red, .notices] F)
        : Keeps F r t :=
  h.andThen hF (.ofNext ht (.live .refl (fun _ h1 => .ite (.failSpare h1 rfl) h1)))

theorem execCheckpointCopy (h : Keeps F r s)
    {t : State} (ht : execCheckpointCopy s = .next t) (hF : Part.within [.now, .regs, .red, .nv, .sup] F)
        : Keeps F r t :=
  h.andThen hF (.ofNext ht (.live .refl (fun _ h1 => .ite (.foldl ((.setRed h1 rfl))
      (fun _ _ h3 => .copyCheckpoint h3 rfl)) h1)))

theorem execProxySerialFlush {d k : ℕ} (h : Keeps F r s)
    {t : State} (ht : execProxySerialFlush d k s = .next t) (hF : Part.within [.now, .regs, .red] F) : Keeps F r t :=
  h.andThen hF (.ofNext ht (.live .refl (fun _ h1 => .ite (.flushProxy h1 rfl) h1)))

theorem execWilernHeartbeatTimeout {p : ℕ} (h : Keeps F r s)
    {t : State} (ht : execWilernHeartbeatTimeout p s = .next t)
        (hF : Part.within [.now, .regs, .engines, .red, .notices] F) : Keeps F r t := by
  refine h.andThen hF (.ofNext ht ?_)
  exact .live .refl (fun _ h1 => by
    split
    · exact .ite (.declareSlot h1 rfl) h1
    · exact h1)

theorem loadRecord {d : ℕ} (h : Keeps F r s)
    (hF : Part.within [.districts, .red] F) : Keeps F r (s.loadRecord d) := by
  refine h.andThen hF ?_
  unfold State.loadRecord
  dsimp only
  split
  · exact .foldl ((.setRed .refl rfl)) (fun _ _ h2 => .pendWrite h2 rfl)
  · exact .refl

theorem captureForward {d : ℕ} {p : Passage} {j : ℕ} (h : Keeps F r s)
    (hF : Part.within [.now, .regs, .ave] F) : Keeps F r (State.captureForward d p s j) :=
  h.andThen hF (.ite (.ite (.count .refl rfl) (.setAve .refl rfl)) .refl)

theorem proxyRefused (h : Keeps F r s)
    (hF : Part.within [.now, .regs] F) : Keeps F r (s.proxyRefused) :=
  h.andThen hF (.count .refl rfl)

theorem applyCanOut {d n : ℕ} {words : List Word} (h : Keeps F r s)
    (hF : Part.within [.now, .regs, .engines, .cans] F) : Keeps F r (s.applyCanOut d n words) := by
  refine h.andThen hF ?_
  unfold State.applyCanOut
  dsimp only
  refine .ite ?_ ?_
  · exact .proxyRefused .refl rfl
  · refine .ite ?_ ?_
    · exact .ite (.proxyRefused .refl rfl) (.txCancel .refl rfl)
    · refine .ite ?_ ?_
      · exact .proxyRefused .refl rfl
      · exact .bind (fun h1 => .ite (.txRequest h1 rfl) (.proxyRefused (.txRequest h1 rfl) rfl)) (.foldl .refl
          (fun _ _ h2 => .getD (fun _ ht => .writeTxWord h2 ht rfl) h2))

theorem applySerOut {d n : ℕ} {words : List Word} (h : Keeps F r s)
    (hF : Part.within [.now, .regs, .serials, .out] F) : Keeps F r (s.applySerOut d n words) :=
  h.andThen hF (.ite (.appendTx .refl rfl) (.proxyRefused .refl rfl))

theorem captureOut {d : ℕ} {p : Passage} {i : ℕ} (h : Keeps F r s)
    (hF : Part.within [.now, .regs, .engines, .red, .cans, .serials, .out] F)
        : Keeps F r (State.captureOut d p s i) := by
  refine h.andThen hF ?_
  unfold State.captureOut
  dsimp only
  refine .ite ?_ ?_
  · refine .ite ?_ ?_
    · exact .ite (.applySerOut (.judgeCounted .refl rfl) rfl) (.applyCanOut (.judgeCounted .refl rfl) rfl)
    · exact .judgeCounted .refl rfl
  · exact .refl

/-- The registers that show the Round frame leave the districts as they are. -/
theorem dist_showFrame (s : State) (d d' : ℕ) (f : Store Word) : (s.showFrame d f).dist d' = s.dist d' := by
  have hFrame : Keeps [.regs] s (s.showFrame d f) := .foldl .refl fun _ _ h1 => .setReg h1 rfl
  have hDistricts : (s.showFrame d f).districts = s.districts := hFrame.frame .districts rfl
  unfold State.dist
  rw [hDistricts]

theorem roundStart {d : ℕ} {errors : List RingError} (h : Keeps F r s)
    (hF : Part.within [.now, .regs, .shadow, .leases, .engines, .districts, .ave, .red, .xing, .ports, .cans,
        .serials, .img, .channels, .island, .notices] F) :
    Keeps F r (s.roundStart d errors) := by
  refine h.andThen hF ?_
  have hRecord : Keeps [.now, .regs, .shadow, .leases, .engines, .districts, .ave, .red, .xing, .ports, .cans,
      .serials, .img, .channels, .island, .notices] s ((if s.txnState
          (.rnd d) = 2 then s.applyRnd d else s).loadRecord d) :=
    .loadRecord (.ite (.applyRnd .refl rfl) .refl) rfl
  unfold State.roundStart
  dsimp only
  generalize (if s.txnState (.rnd d) = 2 then s.applyRnd d else s).loadRecord d = u at hRecord ⊢
  refine .fireDistrict (.setDist (.foldl hRecord fun _ _ h1 => .setReg h1 rfl) ?_ rfl) rfl
  exact (congrArg District.sram (dist_showFrame u d d _)).symm

theorem roundReturn {d : ℕ} {p : Passage} (h : Keeps F r s)
    (hF : Part.within [.now, .regs, .shadow, .leases, .engines, .districts, .ave, .red, .xing, .ports, .cans,
        .serials, .img, .srus, .channels, .island, .notices, .out] F) : Keeps F r (s.roundReturn d p) :=
  h.andThen hF (.bind (fun h4 => .ite (.applyRnd h4 rfl) h4) (.captureGroups ((.foldl ((.foldl
      ((.setDist .refl rfl rfl)) (fun _ _ h3 => .captureForward h3 rfl))) (fun _ _ h4 => .captureOut h4 rfl))) rfl))

theorem passStation {d st : ℕ} {errors : List RingError} {sp : State × Passage} {w : ℕ} (h : Keeps F r sp.1)
    (hF : Part.within [.now, .regs, .districts] F) : Keeps F r (State.passStation d st errors sp w).1 :=
  h.andThen hF (.setDist ((.ite (.count .refl rfl) .refl)) rfl rfl)

theorem passCycle {d n : Nat} {errors : List RingError} {sp : State × Passage} (h : Keeps F r sp.1)
    (hF : Part.within [.now, .regs, .districts] F) : Keeps F r (State.passCycle d n errors sp).1 :=
  h.andThen hF (.foldl_fst .refl fun _ _ h1 => .ite_fst (.passStation h1 rfl) h1)

theorem headerReturn {d w : ℕ} {sp : State × Passage} (h : Keeps F r sp.1)
    (hF : Part.within [.now, .regs] F) : Keeps F r (State.headerReturn d w sp).1 :=
  h.andThen hF (.ite (.setReg ((.ite (.count .refl rfl) .refl)) rfl) ((.ite (.count .refl rfl) .refl)))

theorem roundCycle {d : ℕ} (h : Keeps F r s)
    (hF : Part.within [.now, .regs, .shadow, .leases, .engines, .districts, .ave, .red, .xing, .ports, .cans,
        .serials, .img, .srus, .channels, .island, .notices, .out] F) : Keeps F r (s.roundCycle d) := by
  refine h.andThen hF ?_
  unfold State.roundCycle
  dsimp only
  split
  · exact (.ite .refl (.showLeft .refl rfl))
  · exact .bind (fun h2 => .bind (fun h3 => .bind (fun h4 => .ite (.roundReturn (.ite_fst
      (.headerReturn h4 rfl) h4) rfl) (.setDist (.ite_fst (.headerReturn h4 rfl) h4) rfl rfl)) (.ite
          (.setDist h3 rfl rfl) h3)) (.ite (.fireEngine (.passCycle h2 rfl) rfl) (.passCycle h2 rfl))) (.ite
              (.takePending ((.ite .refl (.showLeft .refl rfl))) rfl) ((.ite .refl (.showLeft .refl rfl))))

theorem roundCycles (h : Keeps F r s)
    (hF : Part.within [.now, .regs, .shadow, .leases, .engines, .districts, .ave, .red, .xing, .ports, .cans,
        .serials, .img, .srus, .channels, .island, .notices, .out] F) : Keeps F r (s.roundCycles) :=
  h.andThen hF (.foldl .refl (fun _ _ h1 => .roundCycle h1 rfl))

theorem followMode (h : Keeps F r s)
    (hF : Part.within [.now, .regs, .engines, .xing, .ports, .cans, .serials, .notices, .out] F)
        : Keeps F r (s.followMode) :=
  h.andThen hF (.foldl ((.foldl ((.foldl .refl (fun _ _ h2 => .t1sOwnLink h2 rfl))) (fun _ _ h3 => .ite
      (.canFollow h3 rfl) h3))) (fun _ _ h3 => .ite (.serFollow h3 rfl) h3))

theorem startCycle (h : Keeps F r s)
    (hF : Part.within [.now, .regs, .shadow, .leases, .modeCmd, .engines, .msixPba, .districts, .ave, .tb, .red,
        .xing, .ports, .cans, .serials, .notices, .out] F) : Keeps F r (s.startCycle) :=
  h.andThen hF (.bind (fun h1 => .ite h1 (.followMode h1 rfl)) (.redCycle (.aveCycleStart .refl rfl) rfl))

theorem execRoundStart {d : ℕ} {errors : List RingFault} (h : Keeps F r s)
    {t : State} (ht : execRoundStart d errors s = .next t)
        (hF : Part.within [.now, .regs, .shadow, .leases, .engines, .districts, .ave, .red, .xing, .ports, .cans,
            .serials, .img, .channels, .island, .notices] F) : Keeps F r t :=
  h.andThen hF (.ofNext ht (.live .refl (fun _ h1 => .ite (.roundStart h1 rfl) h1)))

theorem execAvenueCycleStart (h : Keeps F r s)
    {t : State} (ht : execAvenueCycleStart s = .next t)
        (hF : Part.within [.now, .regs, .shadow, .leases, .modeCmd, .engines, .msixPba, .districts, .ave, .tb, .red,
            .xing, .ports, .cans, .serials, .notices, .out] F) : Keeps F r t :=
  h.andThen hF (.ofNext ht (.live .refl (fun _ h1 => .ite (.startCycle h1 rfl) h1)))

theorem heldResult {e : Nat} {a : Access} {remote : Bool} {x : HeldResult} (h : Keeps F r s) {t : State}
    (ht : s.heldResult e a remote x = some t) (hF : Part.within [.engines] F) : Keeps F r t := by
  refine h.andThen hF ?_
  unfold State.heldResult at ht
  dsimp only at ht
  split at ht
  · exact .ofSome ht (.setEng .refl ⟨rfl, rfl, rfl⟩ rfl)
  · obtain ⟨q, -, rfl⟩ := Option.map_eq_some_iff.mp ht
    exact .setEng .refl ⟨rfl, rfl, rfl⟩ rfl

theorem resultArrives {e : ℕ} {a : Access} {x : HeldResult} {finish : State → State} (h : Keeps F r s)
    (hfinish : ∀ u, Keeps F r u → Keeps F r (finish u)) (hF : Part.within [.engines] F) :
    Keeps F r (s.resultArrives e a x finish) :=
  .ite (.setEng h ⟨rfl, rfl, rfl⟩ (hF := Part.sub hF rfl)) (.ite h (.getD (fun _ ht => .heldResult h ht
      (hF := Part.sub hF rfl)) (hfinish _ h)))

theorem finishLease {e : ℕ} {gd : GReg} {len handle : ℕ} {release : Bool} {code : ℕ} (h : Keeps F r s)
    (hF : Part.within [.now, .regs, .engines, .gregs] F) : Keeps F r (s.finishLease e gd len handle release code) :=
  h.andThen hF (.countCode (.advance (.setGreg ((.setEng .refl ⟨rfl, rfl, rfl⟩ rfl)) rfl) rfl) rfl)

theorem sendLease {e d handle : ℕ} {release : Bool} (h : Keeps F r s)
    (hF : Part.within [.ave] F) : Keeps F r (s.sendLease e d handle release) :=
  h.andThen hF (.queueMsg .refl rfl)

theorem takeLeaseMsg {d : ℕ} {m : Msg} (h : Keeps F r s)
    (hF : Part.within [.now, .regs, .leases, .engines, .gregs, .ave] F) : Keeps F r (s.takeLeaseMsg d m) := by
  refine h.andThen hF ?_
  unfold State.takeLeaseMsg
  dsimp only
  refine .ite ?_ ?_
  · exact .ite .refl (.queueMsg (.ite_snd (.giveLease .refl rfl) (.takeLease .refl rfl)) rfl)
  · exact .resultArrives .refl (fun _ h1 => by
    split
    · exact .ite (.finishLease h1 rfl) h1
    · exact h1) rfl

theorem takeEngineMsg {d : ℕ} {m : Msg} (h : Keeps F r s)
    (hF : Part.within [.now, .regs, .engines, .districts] F) : Keeps F r (s.takeEngineMsg d m) :=
  h.andThen hF (.ite (.count .refl rfl) (.ite (.count (.count .refl rfl) rfl) (.fireEngine (.setFld
      (.ringStore .refl rfl) rfl) rfl)))

theorem takeSlice {d : ℕ} {m : Msg} (h : Keeps F r s)
    (hF : Part.within [.now, .regs, .engines, .districts, .red] F) : Keeps F r (s.takeSlice d m) := by
  refine h.andThen hF ?_
  unfold State.takeSlice
  dsimp only
  refine .ite ?_ ?_
  · exact .ite_snd (.judgeCounted .refl rfl) .refl
  · exact .bind (fun h1 => .ite (.foldl h1 (fun _ _ h2 => .pendWrite h2 rfl)) (.count h1 rfl)) (.ite_snd
      (.judgeCounted .refl rfl) .refl)

theorem takeFrameMsg {m : Msg} (h : Keeps F r s)
    (hF : Part.within [.now, .free, .regs, .xing] F) : Keeps F r (s.takeFrameMsg m) :=
  h.andThen hF (.through .refl (fun _ h1 => .offerFrame ((.ite (.count h1 rfl) h1)) rfl) rfl)

theorem takeReply {e p off bytes n : ℕ} (h : Keeps F r s)
    (hF : Part.within [.regs, .engines, .gregs] F) : Keeps F r (s.takeReply e p off bytes n) := by
  refine h.andThen hF ?_
  unfold State.takeReply
  dsimp only
  exact .resultArrives ((.foldl .refl (fun _ _ h2 => .setReg h2 rfl))) (fun _ h2 => by
    split
    · exact .ite (.finishLoad h2 rfl) h2
    · exact h2) rfl

theorem takeImage {m : Msg} (h : Keeps F r s)
    (hF : Part.within [.now, .regs, .leases, .engines, .gregs, .ave, .red, .img, .notices, .out] F)
        : Keeps F r (s.takeImage m) := by
  refine h.andThen hF ?_
  unfold State.takeImage
  dsimp only
  refine .ite ?_ ?_
  · exact .queueMsg ((.sawLost .refl rfl)) rfl
  · exact .ite (.ite .refl (.request .refl rfl)) (.ite (.ite (.takeReply .refl rfl) (.emit .refl rfl)) .refl)

theorem takeMail {m : Msg} (h : Keeps F r s)
    (hF : Part.within [.now, .regs, .engines, .msixPba, .ave, .red, .channels, .island, .out] F)
        : Keeps F r (s.takeMail m) := by
  refine h.andThen hF ?_
  unfold State.takeMail
  dsimp only
  refine .ite ?_ ?_
  · exact .ite .refl (.ite (.arrive .refl rfl) (.finishSend (.arrive .refl rfl) rfl))
  · exact .ite (.ite (.finishSend .refl rfl) .refl) (.ite (.ringLocal .refl rfl) .refl)

theorem takeMsg {l : ℕ} {m : Msg} (h : Keeps F r s)
    (hF : Part.within [.now, .free, .regs, .leases, .engines, .gregs, .msixPba, .districts, .ave, .red, .xing, .img,
        .channels, .island, .notices, .out] F) : Keeps F r (s.takeMsg l m) := by
  refine h.andThen hF ?_
  unfold State.takeMsg
  refine .ite ?_ ?_
  · exact .takeEngineMsg .refl rfl
  · refine .ite ?_ ?_
    · exact .takeSlice .refl rfl
    · refine .ite ?_ ?_
      · exact .ite (.takeFrameMsg .refl rfl) .refl
      · refine .ite ?_ ?_
        · exact .ite (.takeImage .refl rfl) .refl
        · refine .ite ?_ ?_
          · exact .ite (.takeMail .refl rfl) .refl
          · refine .ite ?_ ?_
            · exact .ite (.takeLeaseMsg .refl rfl) .refl
            · refine .ite ?_ ?_
              · exact .ite (.takeLantern .refl rfl) .refl
              · exact .ite (.ite (.foldl .refl (fun _ _ h1 => .takeSuper h1 rfl)) .refl) .refl

theorem deliverMsg {m : Msg} (h : Keeps F r s)
    (hF : Part.within [.now, .free, .regs, .leases, .engines, .gregs, .msixPba, .districts, .ave, .red, .xing, .img,
        .channels, .island, .notices, .out] F) : Keeps F r (s.deliverMsg m) :=
  h.andThen hF (.ite (.count .refl rfl) (.ite .refl (.ite (.count .refl rfl) (.takeMsg .refl rfl))))

theorem arriveMsg {type : ℕ} {m : Msg} (h : Keeps F r s)
    (hF : Part.within [.now, .free, .regs, .leases, .engines, .gregs, .msixPba, .districts, .ave, .red, .xing, .img,
        .channels, .island, .notices, .out] F) : Keeps F r (s.arriveMsg type m) :=
  h.andThen hF (.ite (.deliverMsg .refl rfl) .refl)

theorem putOnAir {k : ℕ} {msgs : List Msg} (h : Keeps F r s)
    (hF : Part.within [.ave] F) : Keeps F r (s.putOnAir k msgs) :=
  h.andThen hF (.setAve .refl rfl)

theorem sendSlot {k : ℕ} (h : Keeps F r s)
    (hF : Part.within [.now, .regs, .ave, .out] F) : Keeps F r (s.sendSlot k) := by
  refine h.andThen hF ?_
  unfold State.sendSlot
  dsimp only
  refine .ite ?_ ?_
  · refine .ite ?_ ?_
    · exact .ite (.nodeFrame ((.setAve .refl rfl)) rfl) (.putOnAir (.emit (.nodeFrame
        ((.setAve .refl rfl)) rfl) rfl) rfl)
    · exact (.setAve .refl rfl)
  · split
    · exact .ite ((.setAve .refl rfl)) (.putOnAir ((.setAve .refl rfl)) rfl)
    · exact (.setAve .refl rfl)

theorem pickOffer {l : ℕ} (h : Keeps F r s)
    {p : Msg × State} (ht : s.pickOffer l = some p) (hF : Part.within [.regs] F) : Keeps F r p.2 := by
  refine h.andThen hF ?_
  unfold State.pickOffer at ht
  dsimp only at ht
  split at ht
  · split at ht
    · exact nomatch ht
    · split at ht
      · exact nomatch ht
      · exact .ofSomePair ht (.setFld .refl rfl)
  · exact nomatch ht

theorem dropBad {l n : Nat} (h : Keeps F r s) (hF : Part.within [.now, .regs] F) : Keeps F r (State.dropBad l n s) := by
  refine h.andThen hF ?_
  clear h
  induction n generalizing s with
  | zero => exact .refl
  | succ n ih => exact .ite ((Keeps.count (.setFld .refl rfl) rfl).trans ih) .refl

theorem offer (h : Keeps F r s) (hF : Part.within [.now, .regs, .ave, .out] F) : Keeps F r s.offer := by
  refine h.andThen hF ?_
  unfold State.offer
  dsimp only
  split
  · next hPick =>
    have hPicked := Keeps.pickOffer (F := [.now, .regs, .ave, .out]) (.dropBad .refl rfl) hPick rfl
    exact .ite (.emit (.setAve hPicked rfl) rfl) (.setAve (.dropBad .refl rfl) rfl)
  · exact .setAve (.dropBad .refl rfl) rfl

theorem holdDynamic (h : Keeps F r s)
    (hF : Part.within [.now, .free, .regs, .leases, .engines, .gregs, .msixPba, .districts, .ave, .red, .xing, .img,
        .channels, .island, .notices, .out] F) : Keeps F r (s.holdDynamic) :=
  h.andThen hF (.foldl (.ite .refl (.setAve .refl rfl)) (fun _ _ h1 => .deliverMsg h1 rfl))

theorem execStaticSlot {k : ℕ} (h : Keeps F r s)
    {t : State} (ht : execStaticSlot k s = .next t) (hF : Part.within [.now, .regs, .ave, .out] F) : Keeps F r t :=
  h.andThen hF (.ofNext ht (.live .refl (fun _ h1 => .ite (.sendSlot h1 rfl) h1)))

theorem execSlotFrameReceipt {off : ℤ} {bad : Bool} (h : Keeps F r s)
    {t : State} (ht : execSlotFrameReceipt off bad s = .next t)
        (hF : Part.within [.now, .free, .regs, .leases, .engines, .gregs, .msixPba, .districts, .ave, .red, .xing,
            .img, .channels, .island, .notices, .out] F) : Keeps F r t := by
  refine h.andThen hF (.ofNext ht ?_)
  dsimp only
  exact .live .refl (fun _ h1 => by
    split
    · refine .ite ?_ ?_
      · exact h1
      · exact .bind (fun h2 => .ite (.count h2 rfl) (.ite (.count h2 rfl) (.foldl h2
          (fun _ _ h3 => .deliverMsg h3 rfl)))) (.setAve h1 rfl)
    · exact h1)

theorem execDynamicOffer (h : Keeps F r s)
    {t : State} (ht : execDynamicOffer s = .next t) (hF : Part.within [.now, .regs, .ave, .out] F) : Keeps F r t :=
  h.andThen hF (.ofNext ht (.live .refl (fun _ h1 => .ite (.offer h1 rfl) h1)))

theorem execEngine {m : Msg} (h : Keeps F r s)
    {t : State} (ht : execEngine m s = .next t)
        (hF : Part.within [.now, .free, .regs, .leases, .engines, .gregs, .msixPba, .districts, .ave, .red, .xing,
            .img, .channels, .island, .notices, .out] F) : Keeps F r t :=
  h.andThen hF (.ofNext ht (.live .refl (fun _ h1 => .arriveMsg h1 rfl)))

theorem execSlice {m : Msg} (h : Keeps F r s)
    {t : State} (ht : execSlice m s = .next t)
        (hF : Part.within [.now, .free, .regs, .leases, .engines, .gregs, .msixPba, .districts, .ave, .red, .xing,
            .img, .channels, .island, .notices, .out] F) : Keeps F r t :=
  h.andThen hF (.ofNext ht (.live .refl (fun _ h1 => .arriveMsg h1 rfl)))

theorem execFrame {m : Msg} (h : Keeps F r s)
    {t : State} (ht : execFrame m s = .next t)
        (hF : Part.within [.now, .free, .regs, .leases, .engines, .gregs, .msixPba, .districts, .ave, .red, .xing,
            .img, .channels, .island, .notices, .out] F) : Keeps F r t :=
  h.andThen hF (.ofNext ht (.live .refl (fun _ h1 => .arriveMsg h1 rfl)))

theorem execImage {m : Msg} (h : Keeps F r s)
    {t : State} (ht : execImage m s = .next t)
        (hF : Part.within [.now, .free, .regs, .leases, .engines, .gregs, .msixPba, .districts, .ave, .red, .xing,
            .img, .channels, .island, .notices, .out] F) : Keeps F r t :=
  h.andThen hF (.ofNext ht (.live .refl (fun _ h1 => .arriveMsg h1 rfl)))

theorem execMailbox {m : Msg} (h : Keeps F r s)
    {t : State} (ht : execMailbox m s = .next t)
        (hF : Part.within [.now, .free, .regs, .leases, .engines, .gregs, .msixPba, .districts, .ave, .red, .xing,
            .img, .channels, .island, .notices, .out] F) : Keeps F r t :=
  h.andThen hF (.ofNext ht (.live .refl (fun _ h1 => .arriveMsg h1 rfl)))

theorem execLeaseMessage {m : Msg} (h : Keeps F r s)
    {t : State} (ht : execLeaseMessage m s = .next t)
        (hF : Part.within [.now, .free, .regs, .leases, .engines, .gregs, .msixPba, .districts, .ave, .red, .xing,
            .img, .channels, .island, .notices, .out] F) : Keeps F r t :=
  h.andThen hF (.ofNext ht (.live .refl (fun _ h1 => .arriveMsg h1 rfl)))

theorem execLantern {m : Msg} (h : Keeps F r s)
    {t : State} (ht : execLantern m s = .next t)
        (hF : Part.within [.now, .free, .regs, .leases, .engines, .gregs, .msixPba, .districts, .ave, .red, .xing,
            .img, .channels, .island, .notices, .out] F) : Keeps F r t :=
  h.andThen hF (.ofNext ht (.live .refl (fun _ h1 => .arriveMsg h1 rfl)))

theorem execSuper {m : Msg} (h : Keeps F r s)
    {t : State} (ht : execSuper m s = .next t)
        (hF : Part.within [.now, .free, .regs, .leases, .engines, .gregs, .msixPba, .districts, .ave, .red, .xing,
            .img, .channels, .island, .notices, .out] F) : Keeps F r t :=
  h.andThen hF (.ofNext ht (.live .refl (fun _ h1 => .arriveMsg h1 rfl)))

theorem showSto (h : Keeps F r s)
    (hF : Part.within [.out] F) : Keeps F r (s.showSto) :=
  h.andThen hF (.emit .refl rfl)

theorem stoOff (h : Keeps F r s)
    (hF : Part.within [.island, .out] F) : Keeps F r (s.stoOff) :=
  h.andThen hF (.showSto (.setIsland .refl ⟨rfl, rfl⟩ rfl) rfl)

theorem islandTo {st : ℕ} (h : Keeps F r s)
    (hF : Part.within [.now, .regs, .engines, .msixPba, .island, .notices, .out] F) : Keeps F r (s.islandTo st) :=
  h.andThen hF (.ite .refl (.bind (fun h2 => .ite h2 (.ringLocal h2 rfl)) (.notify
      ((.setIsland .refl ⟨rfl, rfl⟩ rfl)) rfl)))

theorem islandFault {code detail : ℕ} (h : Keeps F r s)
    (hF : Part.within [.now, .regs, .engines, .msixPba, .island, .notices, .out] F)
        : Keeps F r (s.islandFault code detail) :=
  h.andThen hF (.showSto (.islandTo (.setIsland .refl ⟨rfl, rfl⟩ rfl) rfl) rfl)

theorem openIsland {c : ℕ} {any : Bool} {allow : Ident} (h : Keeps F r s)
    (hF : Part.within [.now, .leases, .channels] F) : Keeps F r (s.openIsland c any allow) :=
  h.andThen hF (.ite .refl (.takeChannel .refl rfl))

theorem openIslandChannels (h : Keeps F r s)
    (hF : Part.within [.now, .leases, .channels] F) : Keeps F r (s.openIslandChannels) :=
  h.andThen hF (.bind (fun h1 => .ite h1 (.openIsland h1 rfl)) (.openIsland (.openIsland .refl rfl) rfl))

theorem islandAck {c code : ℕ} (h : Keeps F r s)
    (hF : Part.within [.now, .regs, .ave, .channels, .island] F) : Keeps F r (s.islandAck c code) :=
  h.andThen hF (.ackChannel .refl rfl)

theorem writeMirror (h : Keeps F r s)
    (hF : Part.within [.regs] F) : Keeps F r (s.writeMirror) :=
  h.andThen hF (.foldl ((.setReg ((.setReg ((.setReg ((.setReg ((.setReg .refl rfl)) rfl)) rfl)) rfl)) rfl))
      (fun _ _ h6 => .setReg (.setReg h6 rfl) rfl))

theorem offerPdu {c : ℕ} {bs : List Byte} (h : Keeps F r s)
    (hF : Part.within [.now, .regs, .engines, .msixPba, .ave, .red, .channels, .island, .out] F)
        : Keeps F r (s.offerPdu c bs) :=
  h.andThen hF (.bind (fun h1 => .ite (.setIsland h1 ⟨rfl, rfl⟩ rfl) (.setIsland h1 ⟨rfl, rfl⟩ rfl))
      (.arrive .refl rfl))

theorem sendPdus (h : Keeps F r s)
    (hF : Part.within [.now, .free, .regs, .engines, .msixPba, .ave, .red, .channels, .island, .out] F)
        : Keeps F r (s.sendPdus) :=
  h.andThen hF (.foldl .refl (fun _ _ h1 => .bind (fun h2 => .ite h2 (.offerPdu (.draw h2 rfl) rfl))
      (.setIsland h1 ⟨rfl, rfl⟩ rfl)))

theorem settleIsland {i : Island} (h : Keeps F r s) (hi : i.Mems s.island.mram s.island.staging)
    (hF : Part.within [.now, .regs, .engines, .msixPba, .island, .notices, .out] F) : Keeps F r (s.settleIsland i) :=
  h.andThen hF (.islandTo (.setIsland .refl ⟨hi.mram, hi.staging⟩ rfl) rfl)

theorem islandWork (h : Keeps F r s)
    (hF : Part.within [.now, .free, .regs, .engines, .msixPba, .ave, .red, .channels, .island, .notices, .out] F)
        : Keeps F r s.islandWork := by
  refine h.andThen hF ?_
  have hSent : Keeps [.now, .free, .regs, .engines, .msixPba, .ave, .red, .channels, .island, .notices, .out] s
      (s.settleIsland ((s.island.applyInbox).evaluate).driveAll).showSto.sendPdus :=
    .sendPdus (.showSto (.settleIsland .refl (.driveAll (.evaluate (.applyInbox .self))) rfl) rfl) rfl
  unfold State.islandWork
  dsimp only
  generalize State.sendPdus _ = u at hSent ⊢
  exact .setIsland hSent ⟨rfl, rfl⟩ rfl

theorem islandCycle {readback : ℕ} {err : IslandErr} (h : Keeps F r s)
    (hF : Part.within [.now, .free, .regs, .leases, .engines, .msixPba, .ave, .red, .channels, .island, .notices,
        .out] F) : Keeps F r (s.islandCycle readback err) := by
  refine h.andThen hF ?_
  unfold State.islandCycle
  dsimp only
  exact .bind (fun h2 => .ite h2 (.writeMirror (.openIslandChannels h2 rfl) rfl)) (.ite (.setIsland
      ((.setIsland .refl ⟨rfl, rfl⟩ rfl)) ⟨rfl, rfl⟩ rfl) (.ite (.islandFault
          ((.setIsland .refl ⟨rfl, rfl⟩ rfl)) rfl) (by
    split
    · exact .islandFault ((.setIsland .refl ⟨rfl, rfl⟩ rfl)) rfl
    · exact .ite (.islandFault ((.setIsland .refl ⟨rfl, rfl⟩ rfl)) rfl) (.islandWork
        ((.setIsland .refl ⟨rfl, rfl⟩ rfl)) rfl)
    · exact .islandWork (.setIsland ((.setIsland .refl ⟨rfl, rfl⟩ rfl)) ⟨rfl, rfl⟩ rfl) rfl
    · exact .islandWork ((.setIsland .refl ⟨rfl, rfl⟩ rfl)) rfl)))

theorem islandRow {f : State → State} (h : Keeps F r s) (hf : ∀ u, Keeps F r u → Keeps F r (f u))
     : Keeps F r (s.islandRow f) :=
  .ite (hf _ h) h

theorem modeMessage (h : Keeps F r s)
    (hF : Part.within [.now, .regs, .ave, .channels, .island] F) : Keeps F r (s.modeMessage) := by
  refine h.andThen hF ?_
  unfold State.modeMessage
  dsimp only
  split
  · split
    · exact .ite (.islandAck (.setIsland .refl ⟨rfl, rfl⟩ rfl) rfl) (.islandAck .refl rfl)
    · exact .islandAck .refl rfl
  · exact .ite (.through .refl (fun _ h1 => .setIsland h1 ⟨rfl, rfl⟩ rfl) rfl) .refl

theorem stage {data : List Byte} (h : Keeps F r s) (hF : Part.within [.now, .regs, .ave, .channels, .island] F)
    : Keeps F r (s.stage data) :=
  h.andThen hF (.islandAck (.ite (.setIslandMem .refl
      (fun hMram hStaging => ⟨hMram, Mem.wf_writeBytes _ _ hStaging⟩) rfl) .refl) rfl)

theorem storeSet {data : List Byte} {readback : Bool} (h : Keeps F r s)
    (hF : Part.within [.now, .regs, .ave, .channels, .island] F) :
    Keeps F r (s.storeSet data readback) := by
  refine h.andThen hF ?_
  unfold State.storeSet
  generalize s.island.staging.readBytes 0 setLen = b
  generalize setAt data 1 1 = n
  refine .ite (.islandAck (.setIslandMem .refl (fun hMram hStaging => ⟨?_, hStaging⟩) rfl) rfl) (.islandAck .refl rfl)
  exact Mem.wf_writeBytes b (n * 0x1000) hMram

theorem download {kind : Byte} {f : List Byte → State} (h : Keeps F r s) (hf : ∀ a0, Keeps F r (f a0))
    (hF : Part.within [.now, .regs, .ave, .channels, .island] F) : Keeps F r (s.download kind f) := by
  unfold State.download
  split
  · split
    · exact .ite (hf _) (.ite h (.islandAck h (hF := Part.sub hF rfl)))
    · exact .islandAck h (hF := Part.sub hF rfl)
  · exact h

theorem loseConnection {c : ℕ} (h : Keeps F r s) (hF : Part.within [.channels, .island] F)
    : Keeps F r (s.loseConnection c) := by
  refine h.andThen hF (.ite (.setChannel (.setIsland .refl ?_ rfl) rfl) .refl)
  dsimp only
  split <;> exact ⟨rfl, rfl⟩

theorem freshIsland {held : Bool} (h : Keeps F r s) (hF : Part.within [.regs, .island, .out] F)
    : Keeps F r (s.freshIsland held) := by
  refine h.andThen hF (.showSto (.foldl (.foldl ?_ fun _ _ h1 => .setReg h1 rfl) fun _ _ h1 => .setReg
      (.setReg h1 rfl) rfl) rfl)
  exact .setIslandMem .refl (fun hMram _ => ⟨hMram, rfl⟩) rfl

theorem execIslandSelfTestDone {how : SelfTest} (h : Keeps F r s)
    {t : State} (ht : execIslandSelfTestDone how s = .next t)
        (hF : Part.within [.now, .free, .regs, .engines, .msixPba, .island, .notices, .out] F) : Keeps F r t := by
  refine h.andThen hF (.ofNext ht ?_)
  exact .islandRow .refl (fun _ h1 => .ite h1 (by
    split
    · exact .islandTo h1 rfl
    · exact .islandFault h1 rfl
    · exact .islandFault h1 rfl
    · exact .islandFault h1 rfl
    · exact .islandFault (.draw h1 rfl) rfl))

theorem execIslandCycle {readback : BitVec 8} {err : IslandErr} (h : Keeps F r s)
    {t : State} (ht : execIslandCycle readback err s = .next t)
        (hF : Part.within [.now, .free, .regs, .leases, .engines, .msixPba, .ave, .red, .channels, .island, .notices,
            .out] F) : Keeps F r t :=
  h.andThen hF (.ofNext ht (.islandRow .refl (fun _ h1 => .islandCycle h1 rfl)))

theorem execSafeInputSample {seals : BitVec 16} {a b : BitVec 8} (h : Keeps F r s) {t : State}
    (ht : execSafeInputSample seals a b s = .next t) (hF : Part.within [.island] F) : Keeps F r t :=
  h.andThen hF (.ofNext ht (.islandRow .refl fun _ h1 => .setIsland h1 (.sampleInputs ⟨rfl, rfl⟩) rfl))

theorem execEncoderSample {n : ℕ} {a b z : Bool} (h : Keeps F r s)
    {t : State} (ht : execEncoderSample n a b z s = .next t) (hF : Part.within [.island] F) : Keeps F r t :=
  h.andThen hF (.ofNext ht (.islandRow .refl (fun _ h1 => .ite (.setIsland h1 ⟨rfl, rfl⟩ rfl) h1)))

theorem execModeMessage (h : Keeps F r s)
    {t : State} (ht : execModeMessage s = .next t) (hF : Part.within [.now, .regs, .ave, .channels, .island] F)
        : Keeps F r t :=
  h.andThen hF (.ofNext ht (.islandRow .refl (fun _ h1 => .ite h1 (.modeMessage h1 rfl))))

theorem execPermitTimeout (h : Keeps F r s)
    {t : State} (ht : execPermitTimeout s = .next t) (hF : Part.within [.island] F) : Keeps F r t :=
  h.andThen hF (.ofNext ht (.islandRow .refl (fun _ h1 => .ite (.setIsland h1 ⟨rfl, rfl⟩ rfl) h1)))

theorem execModeLineBoot (h : Keeps F r s)
    {t : State} (ht : execModeLineBoot s = .next t) (hF : Part.within [.island, .out] F) : Keeps F r t :=
  h.andThen hF (.ofNext ht (.islandRow .refl (fun _ h1 => .ite (.showSto (.setIsland h1 ⟨rfl, rfl⟩ rfl) rfl) h1)))

theorem execStage (h : Keeps F r s)
    {t : State} (ht : execStage s = .next t) (hF : Part.within [.now, .regs, .ave, .channels, .island] F)
        : Keeps F r t :=
  h.andThen hF (.ofNext ht (.islandRow .refl (fun _ h1 => .download h1 (fun _ => .stage h1 rfl) rfl)))

theorem execStore {readback : Bool} (h : Keeps F r s)
    {t : State} (ht : execStore readback s = .next t) (hF : Part.within [.now, .regs, .ave, .channels, .island] F)
        : Keeps F r t :=
  h.andThen hF (.ofNext ht (.islandRow .refl (fun _ h1 => .download h1 (fun _ => .storeSet h1 rfl) rfl)))

theorem execBlackChannelPdu {valid up : Bool} {speed : BitVec 32} {sto : Bool} (h : Keeps F r s)
    {t : State} (ht : execBlackChannelPdu valid up speed sto s = .next t)
        (hF : Part.within [.now, .regs, .ave, .channels, .island] F) : Keeps F r t := by
  refine h.andThen hF (.ofNext ht ?_)
  dsimp only
  exact .islandRow .refl (fun _ h1 => .ite h1 (by
    split
    · exact .setIsland ((.islandAck h1 rfl)) ⟨rfl, rfl⟩ rfl
    · exact h1))

theorem execConnectionLoss {c : ℕ} (h : Keeps F r s)
    {t : State} (ht : execConnectionLoss c s = .next t) (hF : Part.within [.channels, .island] F) : Keeps F r t :=
  h.andThen hF (.ofNext ht (.islandRow .refl (fun _ h1 => .loseConnection h1 rfl)))

theorem execPduResend {c : ℕ} (h : Keeps F r s)
    {t : State} (ht : execPduResend c s = .next t)
        (hF : Part.within [.now, .regs, .engines, .msixPba, .ave, .red, .channels, .island, .out] F) : Keeps F r t := by
  refine h.andThen hF (.ofNext ht ?_)
  exact .islandRow .refl (fun _ h1 => by
    split
    · exact .ite h1 (.offerPdu h1 rfl)
    · exact h1)

theorem execChannelReopen (h : Keeps F r s)
    {t : State} (ht : execChannelReopen s = .next t) (hF : Part.within [.now, .leases, .channels] F) : Keeps F r t :=
  h.andThen hF (.ofNext ht (.islandRow .refl (fun _ h1 => .openIslandChannels h1 rfl)))

theorem darkPulses {k : ℕ} (h : Keeps F r s)
    (hF : Part.within [.out] F) : Keeps F r (s.darkPulses k) :=
  h.andThen hF (.showSto (.emit (.showSto (.emit .refl rfl) rfl) rfl) rfl)

theorem execDarkTest {k : ℕ} {lowA lowB : Bool} (h : Keeps F r s)
    {t : State} (ht : execDarkTest k lowA lowB s = .next t)
        (hF : Part.within [.now, .regs, .engines, .msixPba, .island, .notices, .out] F) : Keeps F r t :=
  h.andThen hF (.ofNext ht (.islandRow .refl (fun _ h1 => .ite (.bind (fun h2 => .ite (.setIsland h2 ⟨rfl, rfl⟩ rfl)
      (.islandFault h2 rfl)) (.darkPulses h1 rfl)) h1)))

theorem execIslandWatchdog (h : Keeps F r s)
    {t : State} (ht : execIslandWatchdog s = .next t)
        (hF : Part.within [.now, .regs, .engines, .msixPba, .island, .notices, .out] F) : Keeps F r t :=
  h.andThen hF (.ofNext ht (.islandRow .refl (fun _ h1 => .islandFault h1 rfl)))

theorem execOsc (h : Keeps F r s)
    {t : State} (ht : execOsc s = .next t)
        (hF : Part.within [.now, .regs, .engines, .msixPba, .island, .clockLost, .notices, .out] F) : Keeps F r t :=
  h.andThen hF (.ofNext ht (.islandRow .refl (fun _ h1 => .islandFault (.notify (.setFlag (.setFlag
      ((.with_clockLost h1 rfl)) rfl) rfl) rfl) rfl)))

theorem execLockstep (h : Keeps F r s)
    {t : State} (ht : execLockstep s = .next t)
        (hF : Part.within [.now, .regs, .engines, .msixPba, .island, .notices, .out] F) : Keeps F r t :=
  h.andThen hF (.ofNext ht (.islandRow .refl (fun _ h1 => .islandFault h1 rfl)))

theorem execSafeLowStoreBlock {low : Bool} (h : Keeps F r s)
    {t : State} (ht : execSafeLowStoreBlock low s = .next t) (hF : Part.within [.island] F) : Keeps F r t :=
  h.andThen hF (.ofNext ht (.islandRow .refl (fun _ h1 => .setIsland h1 ⟨rfl, rfl⟩ rfl)))

theorem execBrownout (h : Keeps F r s)
    {t : State} (ht : execBrownout s = .next t)
        (hF : Part.within [.now, .regs, .engines, .msixPba, .island, .notices, .out] F) : Keeps F r t :=
  h.andThen hF (.ofNext ht (.islandRow .refl (fun _ h1 => .islandFault h1 rfl)))

theorem execIslandReset (h : Keeps F r s)
    {t : State} (ht : execIslandReset s = .next t) (hF : Part.within [.regs, .island, .out] F) : Keeps F r t :=
  h.andThen hF (.ofNext ht (.islandRow .refl (fun _ h1 => .freshIsland h1 rfl)))

theorem execIslandResetRelease (h : Keeps F r s)
    {t : State} (ht : execIslandResetRelease s = .next t) (hF : Part.within [.regs, .island, .out] F) : Keeps F r t :=
  h.andThen hF (.ofNext ht (.ite (.freshIsland .refl rfl) .refl))

theorem argChecked {who : Ident} {tag arg : ℕ} {f : State → State} (h
    : Keeps F r s) (hf : ∀ u, Keeps F r u → Keeps F r (f u))
    (hF : Part.within [.now, .regs, .msixPba, .out] F) : Keeps F r (s.argChecked who tag arg f) :=
  .ite (.modeResult h (hF := Part.sub hF rfl)) (hf _ h)

theorem modeRefuse {who : Ident} {tag : ℕ} (h : Keeps F r s)
    (hF : Part.within [.now, .regs, .msixPba, .out] F) : Keeps F r (s.modeRefuse who tag) :=
  h.andThen hF (.modeResult .refl rfl)

theorem modeOverrun (h : Keeps F r s)
    (hF : Part.within [.now, .regs, .modeCmd, .msixPba, .ave, .out] F) : Keeps F r (s.modeOverrun) := by
  refine h.andThen hF ?_
  unfold State.modeOverrun
  dsimp only
  split
  · exact .endMode (.setAve .refl rfl) rfl
  · exact .refl

theorem enterLoad (h : Keeps F r s)
    (hF : Part.within [.now, .regs, .engines, .msixPba, .red, .xing, .ports, .cans, .serials, .notices, .out] F)
        : Keeps F r (s.enterLoad) :=
  h.andThen hF (.stopMonitoring ((.foldl ((.foldl ((.foldl ((.setMode .refl rfl)) (fun _ _ h3 => .ite
      (.linkEnd h3 rfl) h3))) (fun _ _ h4 => .ite (.canLoad h4 rfl) h4))) (fun _ _ h5 => .ite
          (.serLoad h5 rfl) h5))) rfl)

theorem enterCommission (h : Keeps F r s)
    (hF : Part.within [.now, .regs, .engines, .ave, .red, .xing, .ports, .cans, .serials, .notices, .out] F)
        : Keeps F r s.enterCommission := by
  have hBegun : Keeps [.now, .regs, .engines, .ave, .red, .xing, .ports, .cans, .serials, .notices, .out] s
      (s.setMode Mode.commission).aveBegin := .aveBegin (.setMode .refl rfl) rfl
  refine h.andThen hF ?_
  unfold State.enterCommission
  exact .followMode (.ite hBegun (.startMonitoring hBegun rfl)) rfl

theorem nvInterrupted (h : Keeps F r s)
    (hF : Part.within [.regs, .red, .mram, .sup] F) : Keeps F r (s.nvInterrupted) := by
  refine h.andThen hF ?_
  unfold State.nvInterrupted
  dsimp only
  split
  · refine .ite ?_ ?_
    · exact (.ite (.endSupRow .refl rfl) .refl)
    · refine .ite ?_ ?_
      · exact .ite ((.ite (.endSupRow .refl rfl) .refl)) (.writeRow ((.ite (.endSupRow .refl rfl) .refl)) rfl)
      · exact .ite (.setOtp ((.ite (.endSupRow .refl rfl) .refl)) rfl) ((.ite (.endSupRow .refl rfl) .refl))
  · exact (.ite (.endSupRow .refl rfl) .refl)

theorem mems_islandThrough (s : State) : s.islandThrough.Mems s.island.mram s.island.staging := by
  unfold State.islandThrough
  generalize ((List.range 62).any fun c => s.heldByIsland c) = held
  have hKept : (if held then s.island.loseAll else s.island).Mems s.island.mram s.island.staging :=
    .ite (.loseAll .self) .self
  exact ⟨hKept.mram, hKept.staging⟩

/-- A reset may change every part of the block; the memories it keeps are MRAM and the island's. -/
theorem deviceReset {cause : Nat} (h : Keeps F r s)
    (hF : Part.within [.now, .free, .regs, .shadow, .leases, .porstLow, .coreReset, .modeCmd, .bootSel, .bootMem,
        .syncs, .merges, .engines, .sram, .gregs, .msixTab, .msixPba, .districts, .ave, .tb, .red, .xing, .ports,
            .txTurn, .hostMem, .cans, .serials, .mram, .keyHash, .nv, .sup, .pkg, .jtag, .img, .hostReads, .curve,
                .srus, .channels, .island, .latch, .clockLost, .nfn, .notices, .out] F) :
    Keeps F r (s.deviceReset cause) := by
  refine h.andThen hF (.setReg (.setReg (.setReg (.foldl ?_ fun _ _ h1 => .setReg h1 rfl) rfl) rfl) rfl)
  refine (Keeps.nvInterrupted .refl rfl).trans ⟨?_, rfl, rfl, rfl, fun p hp => by cases p <;> simp at hp⟩
  rintro ⟨-, -, -, -, -, hMram, -, -, -, hIsland, hStaging⟩
  have hThrough := mems_islandThrough s.nvInterrupted
  refine ⟨rfl, fun _ => ⟨rfl, rfl, rfl⟩, fun _ => rfl, fun _ => rfl, rfl, hMram, rfl, rfl, rfl, ?_, ?_⟩
  · exact hThrough.mram ▸ hIsland
  · exact hThrough.staging ▸ hStaging

theorem resetBy {cause : ℕ} (h : Keeps F r s)
    (hF : Part.within [.now, .free, .regs, .shadow, .leases, .porstLow, .coreReset, .modeCmd, .bootSel, .bootMem,
        .syncs, .merges, .engines, .sram, .gregs, .msixTab, .msixPba, .districts, .ave, .tb, .red, .xing, .ports,
            .txTurn, .hostMem, .cans, .serials, .mram, .keyHash, .nv, .sup, .pkg, .jtag, .img, .hostReads, .curve,
                .srus, .channels, .island, .latch, .clockLost, .nfn, .notices, .out] F) : Keeps F r (s.resetBy cause) :=
  h.andThen hF (.ite .refl (.deviceReset .refl rfl))

theorem clockBits {k : ℕ} {lock loss : Bool} (h : Keeps F r s)
    (hF : Part.within [.now, .regs] F) : Keeps F r (s.clockBits k lock loss) :=
  h.andThen hF (.ite (.stampSet (.setReg .refl rfl) rfl) (.setReg .refl rfl))

theorem clockLoss {k : ℕ} (h : Keeps F r s)
    (hF : Part.within [.now, .free, .regs, .shadow, .leases, .porstLow, .coreReset, .modeCmd, .bootSel, .bootMem,
        .syncs, .merges, .engines, .sram, .gregs, .msixTab, .msixPba, .districts, .ave, .tb, .red, .xing, .ports,
            .txTurn, .hostMem, .cans, .serials, .mram, .keyHash, .nv, .sup, .pkg, .jtag, .img, .hostReads, .curve,
                .srus, .channels, .island, .latch, .clockLost, .nfn, .notices, .out] F)
                    : Keeps F r (s.clockLoss k) := by
  refine h.andThen hF ?_
  unfold State.clockLoss
  dsimp only
  refine .ite ?_ ?_
  · exact .refl
  · refine .ite ?_ ?_
    · exact .deviceReset .refl rfl
    · refine .ite ?_ ?_
      · exact .refl
      · exact .bind (fun h1 => .ite (.wilernLoss (.wilernLoss h1 rfl) rfl) (.ite (.tclkLoss h1 rfl) (.ite
          (.resetFunctions h1 rfl) h1))) (.notify (.clockBits (.with_clockLost .refl rfl) rfl) rfl)

theorem clockReturn {k : ℕ} (h : Keeps F r s)
    (hF : Part.within [.now, .regs, .clockLost] F) : Keeps F r (s.clockReturn k) :=
  h.andThen hF (.ite .refl (.clockBits (.with_clockLost .refl rfl) rfl))

theorem forceLoad {k : ℕ} (h : Keeps F r s)
    (hF : Part.within [.now, .regs, .modeCmd, .engines, .msixPba, .ave, .red, .xing, .ports, .cans, .serials,
        .notices, .out] F) : Keeps F r (s.forceLoad k) :=
  h.andThen hF (.modeOverrun (.setFld (.setFlag (.enterLoad .refl rfl) rfl) rfl) rfl)

theorem takeReport (h : Keeps F r s)
    (hF : Part.within [.now, .regs, .island] F) : Keeps F r (s.takeReport) :=
  h.andThen hF (.bind (fun h1 => .ite (.setMode h1 rfl) h1) (.setIsland .refl ⟨rfl, rfl⟩ rfl))

theorem automatic (h : Keeps F r s)
    (hF : Part.within [.now, .regs, .modeCmd, .engines, .msixPba, .ave, .red, .xing, .ports, .cans, .serials, .island,
        .notices, .out] F) : Keeps F r (s.automatic) :=
  h.andThen hF (.foldl ((.ite (.takeReport .refl rfl) .refl)) (fun _ _ h2 => .ite (.forceLoad h2 rfl) h2))

theorem modeCommand {who : Ident} {f : State → State} (h : Keeps F r s) (hf : ∀ u, Keeps F r u → Keeps F r (f u))
    (hF : Part.within [.now, .regs, .modeCmd, .engines, .msixPba, .ave, .red, .xing, .ports, .cans, .serials, .island,
        .notices, .out] F) : Keeps F r (s.modeCommand who f) :=
  .hostWrite h (fun _ h1 => .oneAtATime h1 (fun _ h2 => hf _ (.automatic h2 (hF := Part.sub hF rfl)))
      (hF := Part.sub hF rfl)) (hF := Part.sub hF rfl)

theorem crossHeld {l : ℕ} (h : Keeps F r s)
    (hF : Part.within [.now, .regs, .syncs, .engines, .tb, .ports, .cans, .notices] F) : Keeps F r (s.crossHeld l) :=
  h.andThen hF (.bind (fun h1 => by
    refine .ite ?_ ?_
    · exact .rxSof h1 rfl
    · exact .ite (.startOfFrame h1 rfl) (.ite (.canSof h1 rfl) (.ite (.fire h1 rfl) (.ite (.ppsCross h1 rfl) h1))))
    (.setSyncLine .refl rfl))

theorem execEnterLoad {who : Ident} {tag arg : ℕ} (h : Keeps F r s)
    {t : State} (ht : execEnterLoad who tag arg s = .next t)
        (hF : Part.within [.now, .regs, .modeCmd, .engines, .msixPba, .ave, .red, .xing, .ports, .cans, .serials,
            .island, .notices, .out] F) : Keeps F r t :=
  h.andThen hF (.ofNext ht (.live .refl (fun _ h1 => .modeCommand h1 (fun _ h2 => .argChecked h2 (fun _ h3 => .ite
      (.modeRefuse h3 rfl) (.modeResult (.enterLoad h3 rfl) rfl)) rfl) rfl)))

theorem execEnterCommission {who : Ident} {tag arg : ℕ} (h : Keeps F r s)
    {t : State} (ht : execEnterCommission who tag arg s = .next t)
        (hF : Part.within [.now, .regs, .modeCmd, .engines, .msixPba, .ave, .red, .xing, .ports, .cans, .serials,
            .island, .notices, .out] F) : Keeps F r t :=
  h.andThen hF (.ofNext ht (.live .refl (fun _ h1 => .modeCommand h1 (fun _ h2 => .argChecked h2 (fun _ h3 => .ite
      (.modeRefuse h3 rfl) (.ite (.beginMode h3 rfl) (.modeResult (.enterCommission h3 rfl) rfl))) rfl) rfl)))

theorem execEnterCommissionComplete (h : Keeps F r s)
    {t : State} (ht : execEnterCommissionComplete s = .next t)
        (hF : Part.within [.now, .regs, .modeCmd, .engines, .msixPba, .ave, .red, .xing, .ports, .cans, .serials,
            .notices, .out] F) : Keeps F r t :=
  h.andThen hF (.ofNext ht (.live .refl (fun _ h1 => .ite (.ite (.endMode (.enterCommission h1 rfl) rfl)
      (.endMode h1 rfl)) h1)))

theorem execEnterRun {who : Ident} {tag arg : ℕ} (h : Keeps F r s)
    {t : State} (ht : execEnterRun who tag arg s = .next t)
        (hF : Part.within [.now, .regs, .modeCmd, .engines, .msixPba, .ave, .red, .xing, .ports, .cans, .serials,
            .island, .notices, .out] F) : Keeps F r t :=
  h.andThen hF (.ofNext ht (.live .refl (fun _ h1 => .modeCommand h1 (fun _ h2 => .argChecked h2 (fun _ h3 => .ite
      (.modeRefuse h3 rfl) (.setAve ((.beginMode h3 rfl)) rfl)) rfl) rfl)))

theorem execEnterRunEvaluation (h : Keeps F r s)
    {t : State} (ht : execEnterRunEvaluation s = .next t)
        (hF : Part.within [.now, .regs, .modeCmd, .msixPba, .ave, .out] F) : Keeps F r t :=
  h.andThen hF (.ofNext ht (.live .refl (fun _ h1 => .ite (.bind (fun h2 => .ite h2 (.endMode h2 rfl))
      (.setAve h1 rfl)) h1)))

theorem execSafeAck {who : Ident} {tag arg : ℕ} (h : Keeps F r s)
    {t : State} (ht : execSafeAck who tag arg s = .next t)
        (hF : Part.within [.now, .regs, .modeCmd, .engines, .msixPba, .ave, .red, .xing, .ports, .cans, .serials,
            .island, .notices, .out] F) : Keeps F r t :=
  h.andThen hF (.ofNext ht (.live .refl (fun _ h1 => .modeCommand h1 (fun _ h2 => .ite (.modeResult h2 rfl)
      (.argChecked h2 (fun _ h3 => .ite (.modeResult (.setMode h3 rfl) rfl) (.modeRefuse h3 rfl)) rfl)) rfl)))

theorem execSoftReset {who : Ident} {tag arg : ℕ} (h : Keeps F r s)
    {t : State} (ht : execSoftReset who tag arg s = .next t)
        (hF : Part.within [.now, .free, .regs, .shadow, .leases, .porstLow, .coreReset, .modeCmd, .bootSel, .bootMem,
            .syncs, .merges, .engines, .sram, .gregs, .msixTab, .msixPba, .districts, .ave, .tb, .red, .xing, .ports,
                .txTurn, .hostMem, .cans, .serials, .mram, .keyHash, .nv, .sup, .pkg, .jtag, .img, .hostReads, .curve,
                    .srus, .channels, .island, .latch, .clockLost, .nfn, .notices, .out] F) : Keeps F r t :=
  h.andThen hF (.ofNext ht (.live .refl (fun _ h1 => .modeCommand h1 (fun _ h2 => .ite (.deviceReset h2 rfl)
      (.modeResult h2 rfl)) rfl)))

theorem execSafeStopReport (h : Keeps F r s)
    {t : State} (ht : execSafeStopReport s = .next t) (hF : Part.within [.now, .regs, .island] F) : Keeps F r t :=
  h.andThen hF (.ofNext ht (.live .refl (fun _ h1 => .ite (.takeReport h1 rfl) h1)))

theorem execPowerOnReset (h : Keeps F r s)
    {t : State} (ht : execPowerOnReset s = .next t)
        (hF : Part.within [.now, .free, .regs, .shadow, .leases, .porstLow, .coreReset, .modeCmd, .bootSel, .bootMem,
            .syncs, .merges, .engines, .sram, .gregs, .msixTab, .msixPba, .districts, .ave, .tb, .red, .xing, .ports,
                .txTurn, .hostMem, .cans, .serials, .mram, .keyHash, .nv, .sup, .pkg, .jtag, .img, .hostReads, .curve,
                    .srus, .channels, .island, .latch, .clockLost, .nfn, .notices, .out] F) : Keeps F r t :=
  h.andThen hF (.ofNext ht (.ite (.deviceReset (.with_porstLow .refl rfl) rfl) .refl))

theorem execPorstN (h : Keeps F r s)
    {t : State} (ht : execPorstN s = .next t)
        (hF : Part.within [.now, .free, .regs, .shadow, .leases, .porstLow, .coreReset, .modeCmd, .bootSel, .bootMem,
            .syncs, .merges, .engines, .sram, .gregs, .msixTab, .msixPba, .districts, .ave, .tb, .red, .xing, .ports,
                .txTurn, .hostMem, .cans, .serials, .mram, .keyHash, .nv, .sup, .pkg, .jtag, .img, .hostReads, .curve,
                    .srus, .channels, .island, .latch, .clockLost, .nfn, .notices, .out] F) : Keeps F r t :=
  h.andThen hF (.ofNext ht (.ite .refl (.with_porstLow ((.deviceReset .refl rfl)) rfl)))

theorem execResetPin {ns : ℕ} (h : Keeps F r s)
    {t : State} (ht : execResetPin ns s = .next t)
        (hF : Part.within [.now, .free, .regs, .shadow, .leases, .porstLow, .coreReset, .modeCmd, .bootSel, .bootMem,
            .syncs, .merges, .engines, .sram, .gregs, .msixTab, .msixPba, .districts, .ave, .tb, .red, .xing, .ports,
                .txTurn, .hostMem, .cans, .serials, .mram, .keyHash, .nv, .sup, .pkg, .jtag, .img, .hostReads, .curve,
                    .srus, .channels, .island, .latch, .clockLost, .nfn, .notices, .out] F) : Keeps F r t :=
  h.andThen hF (.ofNext ht (.ite .refl (.ite (.resetBy .refl rfl) (.ite (.draw .refl rfl) (.resetBy
      (.draw .refl rfl) rfl)))))

theorem execBrownOut (h : Keeps F r s)
    {t : State} (ht : execBrownOut s = .next t)
        (hF : Part.within [.now, .free, .regs, .shadow, .leases, .porstLow, .coreReset, .modeCmd, .bootSel, .bootMem,
            .syncs, .merges, .engines, .sram, .gregs, .msixTab, .msixPba, .districts, .ave, .tb, .red, .xing, .ports,
                .txTurn, .hostMem, .cans, .serials, .mram, .keyHash, .nv, .sup, .pkg, .jtag, .img, .hostReads, .curve,
                    .srus, .channels, .island, .latch, .clockLost, .nfn, .notices, .out] F) : Keeps F r t :=
  h.andThen hF (.ofNext ht (.ite .refl (.with_coreReset ((.deviceReset .refl rfl)) rfl)))

theorem execCoreResetRelease (h : Keeps F r s)
    {t : State} (ht : execCoreResetRelease s = .next t) (hF : Part.within [.coreReset] F) : Keeps F r t :=
  h.andThen hF (.ofNext ht (.with_coreReset .refl rfl))

theorem execSupervisorLockstepMismatch (h : Keeps F r s)
    {t : State} (ht : execSupervisorLockstepMismatch s = .next t)
        (hF : Part.within [.now, .free, .regs, .shadow, .leases, .porstLow, .coreReset, .modeCmd, .bootSel, .bootMem,
            .syncs, .merges, .engines, .sram, .gregs, .msixTab, .msixPba, .districts, .ave, .tb, .red, .xing, .ports,
                .txTurn, .hostMem, .cans, .serials, .mram, .keyHash, .nv, .sup, .pkg, .jtag, .img, .hostReads, .curve,
                    .srus, .channels, .island, .latch, .clockLost, .nfn, .notices, .out] F) : Keeps F r t :=
  h.andThen hF (.ofNext ht (.live .refl (fun _ h1 => .resetBy h1 rfl)))

theorem execSupervisorWatchdogExpiry (h : Keeps F r s)
    {t : State} (ht : execSupervisorWatchdogExpiry s = .next t)
        (hF : Part.within [.now, .free, .regs, .shadow, .leases, .porstLow, .coreReset, .modeCmd, .bootSel, .bootMem,
            .syncs, .merges, .engines, .sram, .gregs, .msixTab, .msixPba, .districts, .ave, .tb, .red, .xing, .ports,
                .txTurn, .hostMem, .cans, .serials, .mram, .keyHash, .nv, .sup, .pkg, .jtag, .img, .hostReads, .curve,
                    .srus, .channels, .island, .latch, .clockLost, .nfn, .notices, .out] F) : Keeps F r t :=
  h.andThen hF (.ofNext ht (.live .refl (fun _ h1 => .resetBy h1 rfl)))

theorem execClockLossOfLock {k : ℕ} (h : Keeps F r s)
    {t : State} (ht : execClockLossOfLock k s = .next t)
        (hF : Part.within [.now, .free, .regs, .shadow, .leases, .porstLow, .coreReset, .modeCmd, .bootSel, .bootMem,
            .syncs, .merges, .engines, .sram, .gregs, .msixTab, .msixPba, .districts, .ave, .tb, .red, .xing, .ports,
                .txTurn, .hostMem, .cans, .serials, .mram, .keyHash, .nv, .sup, .pkg, .jtag, .img, .hostReads, .curve,
                    .srus, .channels, .island, .latch, .clockLost, .nfn, .notices, .out] F) : Keeps F r t :=
  h.andThen hF (.ofNext ht (.clockLoss .refl rfl))

theorem execClockLockReturn {k : ℕ} (h : Keeps F r s)
    {t : State} (ht : execClockLockReturn k s = .next t) (hF : Part.within [.now, .regs, .clockLost] F) : Keeps F r t :=
  h.andThen hF (.ofNext ht (.clockReturn .refl rfl))

theorem execForcedLoad {k : ℕ} (h : Keeps F r s)
    {t : State} (ht : execForcedLoad k s = .next t)
        (hF : Part.within [.now, .regs, .modeCmd, .engines, .msixPba, .ave, .red, .xing, .ports, .cans, .serials,
            .notices, .out] F) : Keeps F r t :=
  h.andThen hF (.ofNext ht (.live .refl (fun _ h1 => .ite (.forceLoad h1 rfl) h1)))

theorem execSynchroniserAcknowledge {l : ℕ} (h : Keeps F r s)
    {t : State} (ht : execSynchroniserAcknowledge l s = .next t)
        (hF : Part.within [.now, .regs, .syncs, .engines, .tb, .ports, .cans, .notices] F) : Keeps F r t :=
  h.andThen hF (.ofNext ht (.live .refl (fun _ h1 => .ite h1 (.ite (.setSyncLine h1 rfl) (.crossHeld h1 rfl)))))

theorem windowErr {x' : Window} (h : Keeps F r s)
    (hF : Part.within [.now, .regs] F) : Keeps F r (s.windowErr x') := by
  refine h.andThen hF ?_
  unfold State.windowErr
  split
  · exact .setFlag .refl rfl
  · exact .mbxErr .refl rfl
  · exact .mbxErr .refl rfl
  · exact .setFlag .refl rfl
  · exact .setFlag .refl rfl
  · exact .setFlag .refl rfl
  · exact .setFlag .refl rfl
  · exact .setFlag .refl rfl
  · exact .setFlag .refl rfl
  · exact .setFlag .refl rfl
  · exact .setFlag .refl rfl
  · exact .setFlag .refl rfl
  · exact .setFlag .refl rfl
  · exact .setFlag .refl rfl
  · exact .setFlag .refl rfl
  · exact .setFlag .refl rfl
  · exact .setFlag .refl rfl
  · exact .setFlag .refl rfl
  · exact .refl
  · exact .refl
  · exact .refl

theorem writeRow' {r' : RegRow} {a : ℕ} {v : Word} (h : Keeps F r s)
    (hF : Part.within [.regs] F) : Keeps F r (s.writeRow' r' a v) :=
  h.andThen hF (.setReg .refl rfl)

theorem writePlain {a : ℕ} {v : Word} (h : Keeps F r s)
    (hF : Part.within [.regs] F) : Keeps F r (s.writePlain a v) := by
  refine h.andThen hF ?_
  unfold State.writePlain
  split
  · exact .writeRow' .refl rfl
  · exact .refl

theorem writeChecked {a : ℕ} {v : Word} {ok : Bool} (h : Keeps F r s)
    (hF : Part.within [.now, .regs] F) : Keeps F r (s.writeChecked a v ok) :=
  h.andThen hF (.ite (.writePlain .refl rfl) (.windowErr .refl rfl))

theorem writeInLoad {who : Ident} {a : ℕ} {v : Word} {ok : Bool} (h : Keeps F r s)
    (hF : Part.within [.now, .regs] F) : Keeps F r (s.writeInLoad who a v ok) :=
  h.andThen hF (.ite (.windowErr .refl rfl) (.ite (.writePlain .refl rfl) (.wrongState .refl rfl)))

theorem writeVerb {u : TxnUnit} {who : Ident} {v : Word} (h : Keeps F r s)
    (hF : Part.within [.now, .regs, .shadow, .leases, .engines, .msixPba, .districts, .ave, .red, .xing, .ports,
        .cans, .serials, .img, .channels, .island, .notices, .out] F) : Keeps F r (s.writeVerb u who v) := by
  refine h.andThen hF ?_
  unfold State.writeVerb
  split
  · exact .after (fun _ ha => .execBegin .refl ha rfl) .refl
  · exact .after (fun _ ha => .execCommit .refl ha rfl) .refl
  · exact .after (fun _ ha => .execRollback .refl ha rfl) .refl
  · exact .refl

theorem writeSys {who : Ident} {a : ℕ} {v : Word} (h : Keeps F r s)
    (hF : Part.within [.now, .free, .regs, .shadow, .leases, .porstLow, .coreReset, .modeCmd, .bootSel, .bootMem,
        .syncs, .merges, .engines, .sram, .gregs, .msixTab, .msixPba, .districts, .ave, .tb, .red, .xing, .ports,
            .txTurn, .hostMem, .cans, .serials, .mram, .keyHash, .nv, .sup, .pkg, .jtag, .img, .hostReads, .curve,
                .srus, .channels, .island, .latch, .clockLost, .nfn, .notices, .out] F)
                    : Keeps F r (s.writeSys who a v) := by
  refine h.andThen hF ?_
  unfold State.writeSys
  dsimp only
  refine .ite ?_ ?_
  · split
    · exact .after (fun _ ha => .execEnterLoad .refl ha rfl) .refl
    · exact .after (fun _ ha => .execEnterCommission .refl ha rfl) .refl
    · exact .after (fun _ ha => .execEnterRun .refl ha rfl) .refl
    · exact .after (fun _ ha => .execSafeAck .refl ha rfl) .refl
    · exact .after (fun _ ha => .execSoftReset .refl ha rfl) .refl
    · exact .windowErr .refl rfl
  · refine .ite ?_ ?_
    · split
      · exact .after (fun _ ha => .execPkgLoad .refl ha rfl) .refl
      · exact .after (fun _ ha => .execPkgUnload .refl ha rfl) .refl
      · exact .windowErr .refl rfl
    · refine .ite ?_ ?_
      · exact .ite (.after (fun _ ha => .execHostPush .refl ha rfl) .refl) .refl
      · exact .ite (.clearAbsent .refl rfl) (.writePlain .refl rfl)

theorem writeMsix {fn i : ℕ} {v : Word} (h : Keeps F r s)
    (hF : Part.within [.msixTab, .msixPba, .out] F) : Keeps F r (s.writeMsix fn i v) :=
  h.andThen hF (.bind (fun h1 => .ite (.emit (.with_msixPba h1 rfl) rfl) h1) (.with_msixTab .refl rfl))

theorem writeMbxBlock {who : Ident} {k o : ℕ} {v : Word} (h : Keeps F r s)
    (hF : Part.within [.now, .regs, .leases, .engines, .msixPba, .ave, .red, .channels, .island, .out] F)
        : Keeps F r (s.writeMbxBlock who k o v) := by
  refine h.andThen hF ?_
  unfold State.writeMbxBlock
  dsimp only
  refine .ite ?_ ?_
  · exact .after (fun _ ha => .execSend .refl ha rfl) .refl
  · refine .ite ?_ ?_
    · split
      · exact .after (fun _ ha => .execOpen .refl ha rfl) .refl
      · exact .after (fun _ ha => .execClose .refl ha rfl) .refl
      · exact .after (fun _ ha => .execRevoke .refl ha rfl) .refl
      · exact .mbxErr .refl rfl
    · refine .ite ?_ ?_
      · exact .after (fun _ ha => .execMbxDbmask .refl ha rfl) .refl
      · exact .ite (.after (fun _ ha => .execMbxRing .refl ha rfl) .refl) (.writePlain .refl rfl)

theorem writeMbx {who : Ident} {a : ℕ} {v : Word} (h : Keeps F r s)
    (hF : Part.within [.now, .regs, .leases, .engines, .msixTab, .msixPba, .ave, .red, .channels, .island, .out] F)
        : Keeps F r (s.writeMbx who a v) := by
  refine h.andThen hF ?_
  unfold State.writeMbx
  split
  · exact .writeMbxBlock .refl rfl
  · refine .ite ?_ ?_
    · exact .ite (.after (fun _ ha => .execAck .refl ha rfl) .refl) .refl
    · refine .ite ?_ ?_
      · exact .ite (.writeMsix .refl rfl) .refl
      · refine .ite ?_ ?_
        · exact .after (fun _ ha => .execMbxHostCfg .refl ha rfl) .refl
        · refine .ite ?_ ?_
          · exact .after (fun _ ha => .execMbxHrxHead .refl ha rfl) .refl
          · refine .ite ?_ ?_
            · exact .after (fun _ ha => .execMbxHtxTail .refl ha rfl) .refl
            · refine .ite ?_ ?_
              · exact .after (fun _ ha => .execMbxSupNote .refl ha rfl) .refl
              · exact .ite (.after (fun _ ha => .execMbxAbort .refl ha rfl) .refl) (.writePlain .refl rfl)

theorem writeTime {who : Ident} {a : ℕ} {v : Word} (h : Keeps F r s)
    (hF : Part.within [.now, .regs, .tb, .notices, .out] F) : Keeps F r (s.writeTime who a v) := by
  refine h.andThen hF ?_
  unfold State.writeTime
  dsimp only
  refine .ite ?_ ?_
  · split
    · exact .after (fun _ ha => .execTimeInit .refl ha rfl) .refl
    · exact .after (fun _ ha => .execTimeStep .refl ha rfl) .refl
    · exact .after (fun _ ha => .execTimeRate .refl ha rfl) .refl
    · exact .after (fun _ ha => .execTimeLock .refl ha rfl) .refl
    · exact .after (fun _ ha => .execTimeUnlock .refl ha rfl) .refl
    · exact .after (fun _ ha => .execTimeSwitch .refl ha rfl) .refl
    · exact .after (fun _ ha => .execTimeSnap .refl ha rfl) .refl
    · exact .windowErr .refl rfl
  · refine .ite ?_ ?_
    · exact .after (fun _ ha => .execTimeCfg .refl ha rfl) .refl
    · refine .ite ?_ ?_
      · exact .after (fun _ ha => .execTimeDomCfg .refl ha rfl) .refl
      · refine .ite ?_ ?_
        · exact .after (fun _ ha => .execTimeDomCfg .refl ha rfl) .refl
        · refine .ite ?_ ?_
          · exact .after (fun _ ha => .execTimeOutArm .refl ha rfl) .refl
          · exact .ite (.writeChecked .refl rfl) (.ite (.writePlain (.ite (.enablePps .refl rfl) .refl) rfl)
              (.writePlain .refl rfl))

theorem writeXing {who : Ident} {a : ℕ} {v : Word} (h : Keeps F r s)
    (hF : Part.within [.now, .regs, .shadow, .leases, .engines, .msixPba, .districts, .ave, .red, .xing, .ports,
        .cans, .serials, .img, .channels, .island, .notices, .out] F) : Keeps F r (s.writeXing who a v) := by
  refine h.andThen hF ?_
  unfold State.writeXing
  refine .ite ?_ ?_
  · exact .writeVerb .refl rfl
  · refine .ite ?_ ?_
    · split
      · exact .after (fun _ ha => .execXingTblRead .refl ha rfl) .refl
      · exact .after (fun _ ha => .execXingTblWrite .refl ha rfl) .refl
      · exact .windowErr .refl rfl
    · exact .ite (.windowErr .refl rfl) (.ite (.windowErr .refl rfl) (.writePlain .refl rfl))

theorem writeEth {who : Ident} {n a : ℕ} {v : Word} (h : Keeps F r s)
    (hF : Part.within [.now, .regs, .shadow, .leases, .engines, .msixPba, .districts, .ave, .red, .xing, .ports,
        .cans, .serials, .img, .channels, .island, .notices, .out] F) : Keeps F r (s.writeEth who n a v) := by
  refine h.andThen hF ?_
  unfold State.writeEth
  refine .ite ?_ ?_
  · refine .ite ?_ ?_
    · exact .after (fun _ ha => .execPortEnable .refl ha rfl) .refl
    · exact .after (fun _ ha => .execPortDisable .refl ha rfl) .refl
  · refine .ite ?_ ?_
    · exact .writeVerb .refl rfl
    · exact .ite (.ite (.after (fun _ ha => .execEthSnap .refl ha rfl) .refl) .refl) (.writePlain .refl rfl)

theorem writeCan {who : Ident} {n a : ℕ} {v : Word} (h : Keeps F r s)
    (hF : Part.within [.now, .regs, .engines, .cans] F) : Keeps F r (s.writeCan who n a v) := by
  refine h.andThen hF ?_
  unfold State.writeCan
  refine .ite ?_ ?_
  · refine .ite ?_ ?_
    · exact .after (fun _ ha => .execCanEnable .refl ha rfl) .refl
    · exact .after (fun _ ha => .execCanDisable .refl ha rfl) .refl
  · refine .ite ?_ ?_
    · exact .ite (.windowErr .refl rfl) (.ite (.writePlain .refl rfl) (.wrongState .refl rfl))
    · refine .ite ?_ ?_
      · split
        · exact .after (fun _ ha => .execBoffRecover .refl ha rfl) .refl
        · exact .after (fun _ ha => .execTxRequest .refl ha rfl) .refl
        · exact .after (fun _ ha => .execTxCancel .refl ha rfl) .refl
        · exact .windowErr .refl rfl
      · exact .ite (.after (fun _ ha => .execCanRxid .refl ha rfl) .refl) (.writePlain .refl rfl)

theorem writeSer {who : Ident} {n a : ℕ} {v : Word} (h : Keeps F r s)
    (hF : Part.within [.now, .regs, .engines, .serials, .out] F) : Keeps F r (s.writeSer who n a v) := by
  refine h.andThen hF ?_
  unfold State.writeSer
  refine .ite ?_ ?_
  · exact .after (fun _ ha => .execSerEnable .refl ha rfl) .refl
  · exact .ite (.ite (.windowErr .refl rfl) (.ite (.writePlain .refl rfl) (.wrongState .refl rfl)))
      (.writePlain .refl rfl)

theorem writeWilernEn {n : ℕ} {en : Bool} (h : Keeps F r s)
    (hF : Part.within [.now, .regs, .ave] F) : Keeps F r (s.writeWilernEn n en) :=
  h.andThen hF (.ite (.after (fun _ ha => .execWilernEnable .refl ha rfl) .refl) (.setFlag .refl rfl))

theorem writeAve {who : Ident} {a : ℕ} {v : Word} (h : Keeps F r s)
    (hF : Part.within [.now, .regs, .shadow, .leases, .engines, .msixPba, .districts, .ave, .red, .xing, .ports,
        .cans, .serials, .img, .channels, .island, .notices, .out] F) : Keeps F r (s.writeAve who a v) := by
  refine h.andThen hF ?_
  unfold State.writeAve
  dsimp only
  refine .ite ?_ ?_
  · exact .writeVerb .refl rfl
  · refine .ite ?_ ?_
    · exact .bind (fun h1 => .ite (.after (fun _ ha => .execReint h1 ha rfl) h1) h1) (.writeWilernEn
        (.writeWilernEn .refl rfl) rfl)
    · refine .ite ?_ ?_
      · refine .ite ?_ ?_
        · exact .after (fun _ ha => .execAveClaimRelease .refl ha rfl) .refl
        · exact .after (fun _ ha => .execAveClaim .refl ha rfl) .refl
      · exact .ite (.after (fun _ ha => .execAveGwPtr .refl ha rfl) .refl) (.writePlain .refl rfl)

theorem writeImgBlock {who : Ident} {o : ℕ} {v : Word} (h : Keeps F r s)
    (hF : Part.within [.now, .regs, .leases, .engines, .red, .img] F) : Keeps F r (s.writeImgBlock who o v) := by
  refine h.andThen hF ?_
  unfold State.writeImgBlock
  refine .ite ?_ ?_
  · split
    · exact .after (fun _ ha => .execImgBegin .refl ha rfl) .refl
    · exact .after (fun _ ha => .execImgCommit .refl ha rfl) .refl
    · exact .after (fun _ ha => .execImgRollback .refl ha rfl) .refl
    · exact .refl
  · refine .ite ?_ ?_
    · split
      · exact .after (fun _ ha => .execPin .refl ha rfl) .refl
      · exact .after (fun _ ha => .execUnpin .refl ha rfl) .refl
      · exact .refl
    · split
      · exact .writeRow' .refl rfl
      · exact .refl

theorem writeImg {who : Ident} {a : ℕ} {v : Word} (h : Keeps F r s)
    (hF : Part.within [.now, .regs, .leases, .engines, .red, .img] F) : Keeps F r (s.writeImg who a v) := by
  refine h.andThen hF ?_
  unfold State.writeImg
  split
  · exact .writeImgBlock .refl rfl
  · exact .ite (.writeChecked .refl rfl) (.ite (.writeInLoad .refl rfl) (.writePlain .refl rfl))

theorem writeSru {who : Ident} {d a : ℕ} {v : Word} (h : Keeps F r s)
    (hF : Part.within [.now, .regs, .shadow, .leases, .engines, .msixPba, .districts, .ave, .red, .xing, .ports,
        .cans, .serials, .img, .srus, .channels, .island, .notices, .out] F) : Keeps F r (s.writeSru who d a v) := by
  refine h.andThen hF ?_
  unfold State.writeSru
  refine .ite ?_ ?_
  · exact .after (fun _ ha => .execSruCtrl .refl ha rfl) .refl
  · refine .ite ?_ ?_
    · exact .writeVerb .refl rfl
    · refine .ite ?_ ?_
      · split
        · exact .after (fun _ ha => .execExport .refl ha rfl) .refl
        · exact .after (fun _ ha => .execClear .refl ha rfl) .refl
        · exact .after (fun _ ha => .execLatch .refl ha rfl) .refl
        · exact .windowErr .refl rfl
      · exact .writePlain .refl rfl

theorem writeRed {who : Ident} {a : ℕ} {v : Word} (h : Keeps F r s)
    (hF : Part.within [.now, .regs, .shadow, .leases, .engines, .districts, .ave, .red, .xing, .ports, .cans, .img,
        .channels, .island, .notices] F) : Keeps F r (s.writeRed who a v) := by
  refine h.andThen hF ?_
  unfold State.writeRed
  dsimp only
  refine .ite ?_ ?_
  · split
    · exact .after (fun _ ha => .execPair .refl ha rfl) .refl
    · exact .after (fun _ ha => .execUnpair .refl ha rfl) .refl
    · exact .after (fun _ ha => .execResync .refl ha rfl) .refl
    · exact .after (fun _ ha => .execReclaim .refl ha rfl) .refl
    · exact .after (fun _ ha => .execFail .refl ha rfl) .refl
    · exact .after (fun _ ha => .execCkptLoad .refl ha rfl) .refl
    · exact .windowErr .refl rfl
  · refine .ite ?_ ?_
    · exact .writeInLoad .refl rfl
    · refine .ite ?_ ?_
      · exact .ite (.after (fun _ ha => .execJoin .refl ha rfl) .refl) .refl
      · refine .ite ?_ ?_
        · exact .writeChecked .refl rfl
        · exact .ite (.writeChecked .refl rfl) (.ite (.writeInLoad .refl rfl) (.writePlain .refl rfl))

theorem writePwr {who : Ident} {a : ℕ} {v : Word} (h : Keeps F r s)
    (hF : Part.within [.now, .regs, .engines, .nv, .sup] F) : Keeps F r (s.writePwr who a v) := by
  refine h.andThen hF ?_
  unfold State.writePwr
  refine .ite ?_ ?_
  · split
    · exact .after (fun _ ha => .execNvRead .refl ha rfl) .refl
    · exact .after (fun _ ha => .execNvWrite .refl ha rfl) .refl
    · exact .after (fun _ ha => .execNvCopy .refl ha rfl) .refl
    · exact .after (fun _ ha => .execOtpKey .refl ha rfl) .refl
    · exact .after (fun _ ha => .execOtpRevoke .refl ha rfl) .refl
    · exact .after (fun _ ha => .execOtpFloor .refl ha rfl) .refl
    · exact .windowErr .refl rfl
  · exact .writePlain .refl rfl

theorem writeRnd {who : Ident} {d a : ℕ} {v : Word} (h : Keeps F r s)
    (hF : Part.within [.now, .regs, .shadow, .leases, .engines, .msixPba, .districts, .ave, .red, .xing, .ports,
        .cans, .serials, .img, .channels, .island, .notices, .out] F) : Keeps F r (s.writeRnd who d a v) := by
  refine h.andThen hF ?_
  unfold State.writeRnd
  refine .ite ?_ ?_
  · refine .ite ?_ ?_
    · exact .after (fun _ ha => .execRoundRun .refl ha rfl) .refl
    · exact .after (fun _ ha => .execRoundStop .refl ha rfl) .refl
  · exact .ite (.writeVerb .refl rfl) (.writePlain .refl rfl)

theorem writeWdog {e : ℕ} {v : Word} (h : Keeps F r s)
    (hF : Part.within [.now, .regs, .engines] F) : Keeps F r (s.writeWdog e v) :=
  h.andThen hF (.ite (.windowErr .refl rfl) (.bind (fun h1 => .ite (.kickWatchdog h1 rfl) h1) (.writePlain .refl rfl)))

theorem writeKick {e : ℕ} {v : Word} (h : Keeps F r s)
    (hF : Part.within [.now, .regs, .engines] F) : Keeps F r (s.writeKick e v) :=
  h.andThen hF (.ite (.kickWatchdog .refl rfl) (.windowErr .refl rfl))

theorem writeCe {who : Ident} {e a : ℕ} {v : Word} (h : Keeps F r s)
    (hF : Part.within [.now, .regs, .shadow, .leases, .engines, .gregs, .districts, .ave, .xing, .ports, .cans, .img,
        .channels, .island, .notices] F) : Keeps F r (s.writeCe who e a v) := by
  refine h.andThen hF ?_
  unfold State.writeCe
  refine .ite ?_ ?_
  · refine .ite ?_ ?_
    · exact .after (fun _ ha => .execEngineStart .refl ha rfl) .refl
    · exact .after (fun _ ha => .execEngineHoldReset .refl ha rfl) .refl
  · refine .ite ?_ ?_
    · exact .runControl .refl (fun _ h1 => .writeWdog h1 rfl) rfl
    · refine .ite ?_ ?_
      · exact .writeKick .refl rfl
      · exact .ite (.writeChecked .refl rfl) (.ite (.writeChecked .refl rfl) (.writePlain .refl rfl))

theorem writeTsq {who : Ident} {d a : ℕ} {v : Word} (h : Keeps F r s)
    (hF : Part.within [.now, .regs, .engines] F) : Keeps F r (s.writeTsq who d a v) := by
  refine h.andThen hF ?_
  unfold State.writeTsq
  refine .ite ?_ ?_
  · exact .after (fun _ ha => .execTsqRelease .refl ha rfl) .refl
  · exact .ite (.windowErr .refl rfl) (.writePlain .refl rfl)

theorem writeWindow {who : Ident} {a : ℕ} {v : Word} (h : Keeps F r s)
    (hF : Part.within [.now, .free, .regs, .shadow, .leases, .porstLow, .coreReset, .modeCmd, .bootSel, .bootMem,
        .syncs, .merges, .engines, .sram, .gregs, .msixTab, .msixPba, .districts, .ave, .tb, .red, .xing, .ports,
            .txTurn, .hostMem, .cans, .serials, .mram, .keyHash, .nv, .sup, .pkg, .jtag, .img, .hostReads, .curve,
                .srus, .channels, .island, .latch, .clockLost, .nfn, .notices, .out] F)
                    : Keeps F r (s.writeWindow who a v) := by
  refine h.andThen hF ?_
  unfold State.writeWindow
  split
  · exact .writeShadow .refl rfl
  · split
    · exact .writeSys .refl rfl
    · exact .writeMbx .refl rfl
    · exact .writeMbx .refl rfl
    · exact .writeTime .refl rfl
    · exact .writeXing .refl rfl
    · exact .writeEth .refl rfl
    · exact .writeCan .refl rfl
    · exact .writeSer .refl rfl
    · exact .writeAve .refl rfl
    · exact .writeAve .refl rfl
    · exact .writeImg .refl rfl
    · exact .writeRed .refl rfl
    · exact .writePwr .refl rfl
    · exact .writeRnd .refl rfl
    · exact .writeCe .refl rfl
    · exact .writeSru .refl rfl
    · exact .writeTsq .refl rfl
    · exact .writePlain .refl rfl
    · exact .writePlain .refl rfl
    · exact .writePlain .refl rfl
    · exact .refl

theorem writeReg {who : Ident} {a lo n : ℕ} {v : Word} (h : Keeps F r s)
    (hF : Part.within [.now, .free, .regs, .shadow, .leases, .porstLow, .coreReset, .modeCmd, .bootSel, .bootMem,
        .syncs, .merges, .engines, .sram, .gregs, .msixTab, .msixPba, .districts, .ave, .tb, .red, .xing, .ports,
            .txTurn, .hostMem, .cans, .serials, .mram, .keyHash, .nv, .sup, .pkg, .jtag, .img, .hostReads, .curve,
                .srus, .channels, .island, .latch, .clockLost, .nfn, .notices, .out] F)
                    : Keeps F r (s.writeReg who a lo n v) :=
  h.andThen hF (.live .refl (fun _ h1 => .ite h1 (.ite (.absentHit h1 rfl) (.ite (.refuseStore
      (.windowErr h1 rfl) rfl) (.ite (.refuseStore h1 rfl) (.ite (.windowErr h1 rfl) (.writeWindow h1 rfl)))))))

theorem clearRc {a lo n : ℕ} {f : ℕ × ℕ} (h : Keeps F r s)
    (hF : Part.within [.now, .regs] F) : Keeps F r (s.clearRc a lo n f) := by
  refine h.andThen hF ?_
  unfold State.clearRc
  dsimp only
  refine .ite ?_ ?_
  · refine .ite ?_ ?_
    · exact .setReg .refl rfl
    · split
      · exact .setReg (.with_now .refl rfl) rfl
      · exact .setReg .refl rfl
  · exact .refl

theorem afterRead {a lo n : ℕ} (h : Keeps F r s)
    (hF : Part.within [.now, .regs, .srus, .latch] F) : Keeps F r (s.afterRead a lo n) := by
  refine h.andThen hF ?_
  unfold State.afterRead
  dsimp only
  split
  · refine .ite ?_ ?_
    · exact .refl
    · split
      · exact .foldl ((by
          split
          · exact .with_latch .refl rfl
          · exact .refl)) (fun _ _ h2 => .clearRc h2 rfl)
      · exact (by
          split
          · exact .with_latch .refl rfl
          · exact .refl)
  · refine .ite ?_ ?_
    · refine .ite ?_ ?_
      · exact .takeEos ((by
        split
        · exact .with_latch .refl rfl
        · exact .refl)) rfl
      · exact (by
        split
        · exact .with_latch .refl rfl
        · exact .refl)
    · split
      · exact .foldl ((by
          split
          · exact .with_latch .refl rfl
          · exact .refl)) (fun _ _ h2 => .clearRc h2 rfl)
      · exact (by
          split
          · exact .with_latch .refl rfl
          · exact .refl)
  · split
    · exact .foldl ((by
        split
        · exact .with_latch .refl rfl
        · exact .refl)) (fun _ _ h2 => .clearRc h2 rfl)
    · exact (by
        split
        · exact .with_latch .refl rfl
        · exact .refl)

theorem readReg {who : Ident} {a lo n : ℕ} (h : Keeps F r s)
    (hF : Part.within [.now, .regs, .srus, .latch] F) : Keeps F r (s.readReg who a lo n).2 := by
  refine h.andThen hF ?_
  unfold State.readReg
  dsimp only
  refine .ite_snd ?_ ?_
  · exact .refl
  · refine .ite_snd ?_ ?_
    · exact .absentHit .refl rfl
    · exact .afterRead .refl rfl

theorem readRegs {who : Ident} {a n : Nat} (h : Keeps F r s) (hF : Part.within [.now, .regs, .srus, .latch] F) :
    Keeps F r (s.readRegs who a n).2 :=
  h.andThen hF (.foldl_snd .refl fun _ _ h1 => .readReg h1 rfl)

theorem writeRegs {who : Ident} {a n v : ℕ} (h : Keeps F r s)
    (hF : Part.within [.now, .free, .regs, .shadow, .leases, .porstLow, .coreReset, .modeCmd, .bootSel, .bootMem,
        .syncs, .merges, .engines, .sram, .gregs, .msixTab, .msixPba, .districts, .ave, .tb, .red, .xing, .ports,
            .txTurn, .hostMem, .cans, .serials, .mram, .keyHash, .nv, .sup, .pkg, .jtag, .img, .hostReads, .curve,
                .srus, .channels, .island, .latch, .clockLost, .nfn, .notices, .out] F)
                    : Keeps F r (s.writeRegs who a n v) :=
  h.andThen hF (.foldl .refl (fun _ _ h1 => .writeReg h1 rfl))

theorem execAbsentWindowAccess {who : Ident} {a : ℕ} {write : Bool} (h : Keeps F r s)
    {t : State} (ht : execAbsentWindowAccess who a write s = .next t) (hF : Part.within [.now, .regs] F)
        : Keeps F r t :=
  h.andThen hF (.ofNext ht (.served .refl (fun _ h1 => .ite h1 (.absentHit h1 rfl)) rfl))

theorem execRegisterWrite {who : Ident} {a n v : ℕ} (h : Keeps F r s)
    {t : State} (ht : execRegisterWrite who a n v s = .next t)
        (hF : Part.within [.now, .free, .regs, .shadow, .leases, .porstLow, .coreReset, .modeCmd, .bootSel, .bootMem,
            .syncs, .merges, .engines, .sram, .gregs, .msixTab, .msixPba, .districts, .ave, .tb, .red, .xing, .ports,
                .txTurn, .hostMem, .cans, .serials, .mram, .keyHash, .nv, .sup, .pkg, .jtag, .img, .hostReads, .curve,
                    .srus, .channels, .island, .latch, .clockLost, .nfn, .notices, .out] F) : Keeps F r t :=
  h.andThen hF (.ofNext ht (.live .refl (fun _ h1 => .overHclk h1 (fun _ h2 => .writeRegs h2 rfl) rfl)))

theorem execCeWdog {who : Ident} {e : ℕ} {v : Word} (h : Keeps F r s)
    {t : State} (ht : execCeWdog who e v s = .next t) (hF : Part.within [.now, .regs, .engines] F) : Keeps F r t :=
  h.andThen hF (.ofNext ht (.served .refl (fun _ h1 => .ite (.refuseStore h1 rfl) (.runControl h1
      (fun _ h2 => .writeWdog h2 rfl) rfl)) rfl))

theorem execCeWdogKick {who : Ident} {e : ℕ} {key : BitVec 16} (h : Keeps F r s)
    {t : State} (ht : execCeWdogKick who e key s = .next t) (hF : Part.within [.now, .regs, .engines] F)
        : Keeps F r t :=
  h.andThen hF (.ofNext ht (.served .refl (fun _ h1 => .ite (.absentHit h1 rfl) (.ite (.refuseStore h1 rfl)
      (.writeKick h1 rfl))) rfl))

theorem refusedOrValue {u : State} {c : Prop} [Decidable c] {v : ℕ} (h : Keeps F r s) (h' : Keeps F r u) :
    Keeps F r (if c then Loaded.refused s else .value v u).state := by
  split
  · exact h
  · exact h'

theorem loadDistrict {e a n : ℕ} (h : Keeps F r s)
    (hF : Part.within [.now, .regs, .districts, .srus, .latch, .notices] F) :
    Keeps F r (s.loadDistrict e a n).state := by
  refine h.andThen hF ?_
  unfold State.loadDistrict
  by_cases ha : a < State.sramSize
  · rw [if_pos ha]
    dsimp only
    split
    · exact .sramErrorSeen (.sramScrub .refl rfl) rfl
    · exact .sramScrub .refl rfl
  · rw [if_neg ha]
    exact refusedOrValue .refl (.readRegs .refl rfl)

theorem loadImgBlock {e o n : ℕ} (h : Keeps F r s)
    (hF : Part.within [.latch] F) : Keeps F r (s.loadImgBlock e o n).state :=
  h.andThen hF ((.ite (.with_latch .refl rfl) .refl))

theorem latchPoint {e v : ℕ} (h : Keeps F r s)
    (hF : Part.within [.regs] F) : Keeps F r (s.latchPoint e v) :=
  h.andThen hF (.foldl .refl (fun _ _ h1 => .setReg h1 rfl))

theorem loadImage {e a n : ℕ} (h : Keeps F r s)
    (hF : Part.within [.now, .free, .regs, .ave, .latch, .notices] F) : Keeps F r (s.loadImage e a n).state := by
  refine h.andThen hF ?_
  unfold State.loadImage
  dsimp only
  split
  · exact .loadImgBlock .refl rfl
  · split
    · split
      · exact .askRemote .refl rfl
      · exact .imgErr (.latchPoint .refl rfl) rfl
    · exact .imgRead .refl rfl

theorem touchObjects {e n o k : ℕ} (h : Keeps F r s)
    (hF : Part.within [.now, .regs, .leases, .engines, .cans] F) : Keeps F r (s.touchObjects e n o k) :=
  h.andThen hF (.foldl .refl (fun _ _ h1 => .ite (.touchWord0 h1 rfl) (.ite (.touchWord19 h1 rfl) h1)))

theorem openObjects {n o k : ℕ} (h : Keeps F r s)
    (hF : Part.within [.now, .regs, .engines, .cans] F) : Keeps F r (s.openObjects n o k) :=
  h.andThen hF (.foldl .refl (fun _ _ h1 => .ite (.openRx h1 rfl) h1))

theorem loadApt {e n : ℕ} {b : Bool} {x k : ℕ} (h : Keeps F r s)
     : Keeps F r (s.loadApt e n b x k).state := by
  refine h.andThen (G := []) rfl ?_
  unfold State.loadApt
  split
  · exact .refl
  · exact .refl

theorem loadPart {e n o k : ℕ} {x' : PortPart} (h : Keeps F r s)
    (hF : Part.within [.now, .regs, .leases, .engines, .cans] F) : Keeps F r (s.loadPart e n o k x').state := by
  refine h.andThen hF ?_
  unfold State.loadPart
  dsimp only
  split
  · exact .refl
  · exact .refl
  · exact .refl
  · split
    · exact .refl
    · exact .refl
  · exact .loadApt .refl
  · exact .loadApt .refl
  · exact .touchObjects ((.openObjects .refl rfl)) rfl
  · exact .refl
  · exact .refl
  · exact .refl
  · exact .refl
  · exact .refl

theorem loadPort {e a n : ℕ} (h : Keeps F r s)
    (hF : Part.within [.now, .regs, .leases, .engines, .cans] F) : Keeps F r (s.loadPort e a n).state := by
  refine h.andThen hF ?_
  unfold State.loadPort
  split
  · split
    · exact .loadPart .refl rfl
    · exact .refl
  · exact .refl

theorem loadAt {e : ℕ} {sp : Space} {a n : ℕ} (h : Keeps F r s)
    (hF : Part.within [.now, .free, .regs, .leases, .engines, .districts, .ave, .cans, .srus, .latch, .notices] F)
        : Keeps F r (s.loadAt e sp a n).state := by
  refine h.andThen hF ?_
  unfold State.loadAt
  split
  · exact .refl
  · exact .loadDistrict .refl rfl
  · exact .loadImage .refl rfl
  · exact .loadPort .refl rfl

theorem refusePosted {e : ℕ} {sp : Space} {a n : ℕ} (h : Keeps F r s)
    (hF : Part.within [.engines] F) : Keeps F r (s.refusePosted e sp a n) :=
  h.andThen hF (.ite (.setEng .refl ⟨rfl, rfl, rfl⟩ rfl) .refl)

theorem putCtl {e n w lo k v : ℕ} (h : Keeps F r s)
    (hF : Part.within [.now, .free, .regs, .leases, .engines, .xing, .ports, .notices] F)
        : Keeps F r (s.putCtl e n w lo k v) := by
  refine h.andThen hF ?_
  unfold State.putCtl
  dsimp only
  refine .ite ?_ ?_
  · exact .after (fun _ ha => .execRxHead .refl ha rfl) .refl
  · refine .ite ?_ ?_
    · exact .after (fun _ ha => .execRxCtrl .refl ha rfl) .refl
    · refine .ite ?_ ?_
      · exact .after (fun _ ha => .execTxTail .refl ha rfl) .refl
      · refine .ite ?_ ?_
        · exact .after (fun _ ha => .execAlloc .refl ha rfl) .refl
        · exact .ite (.after (fun _ ha => .execAptA .refl ha rfl) .refl) .refl

theorem putSer {e n w lo k v : ℕ} (h : Keeps F r s)
    (hF : Part.within [.now, .regs, .syncs, .merges, .engines, .serials, .out] F)
        : Keeps F r (s.putSer e n w lo k v) := by
  refine h.andThen hF ?_
  unfold State.putSer
  dsimp only
  refine .ite ?_ ?_
  · exact .after (fun _ ha => .execSerRxHead .refl ha rfl) .refl
  · refine .ite ?_ ?_
    · exact .after (fun _ ha => .execSerTxTail .refl ha rfl) .refl
    · refine .ite ?_ ?_
      · refine .ite ?_ ?_
        · exact .after (fun _ ha => .execSsiStart .refl ha rfl) .refl
        · exact .ite (.after (fun _ ha => .execWurq .refl ha rfl) .refl) .refl
      · exact .refl

theorem storeTxObj {e n o k v a : ℕ} (h : Keeps F r s)
    (hF : Part.within [.now, .regs, .engines, .cans] F) : Keeps F r (s.storeTxObj e n o k v a) := by
  refine h.andThen hF ?_
  unfold State.storeTxObj
  dsimp only
  refine .ite ?_ ?_
  · exact .refusePosted .refl rfl
  · exact .foldl (.foldl .refl (fun _ _ h1 => .getD (fun _ ht => .writeTxWord h1 ht rfl) h1)) (fun _ _ h1 => .getD
      (fun _ ht => .writeTxWord h1 ht rfl) h1)

theorem storeApt {e n : ℕ} {b : Bool} {x k v : ℕ} (h : Keeps F r s)
    (hF : Part.within [.xing] F) : Keeps F r (s.storeApt e n b x k v) := by
  refine h.andThen hF ?_
  unfold State.storeApt
  split
  · exact .ite (.frameWrite .refl rfl) .refl
  · exact .refl

theorem storePart {e n o k v a : ℕ} {x' : PortPart} (h : Keeps F r s)
    (hF : Part.within [.now, .free, .regs, .leases, .syncs, .merges, .engines, .msixPba, .xing, .ports, .cans,
        .serials, .notices, .out] F) : Keeps F r (s.storePart e n o k v a x') := by
  refine h.andThen hF ?_
  unfold State.storePart
  dsimp only
  split
  · exact .foldl .refl (fun _ _ h1 => .putCtl h1 rfl)
  · exact .foldl .refl (fun _ _ h1 => .setPort h1 rfl)
  · exact .foldl .refl (fun _ _ h1 => .setPort h1 rfl)
  · exact .after (fun _ ha => .execPatchArrival .refl ha rfl) .refl
  · exact .storeApt .refl rfl
  · exact .storeApt .refl rfl
  · exact .storeTxObj .refl rfl
  · exact .setSerTx .refl (Mem.wf_writeLE _ _ _) rfl
  · exact .foldl .refl (fun _ _ h1 => .putSer h1 rfl)
  · exact .refl
  · exact .refl
  · exact .refl

theorem storePort {e a n v : ℕ} (h : Keeps F r s)
    (hF : Part.within [.now, .free, .regs, .leases, .syncs, .merges, .engines, .msixPba, .xing, .ports, .cans,
        .serials, .notices, .out] F) : Keeps F r (s.storePort e a n v) := by
  refine h.andThen hF ?_
  unfold State.storePort
  split
  · split
    · exact .ite (.storePart .refl rfl) .refl
    · exact .refl
  · exact .refl

theorem storeImage {e a n v : ℕ} (h : Keeps F r s)
    (hF : Part.within [.now, .regs, .leases, .engines, .ave, .red, .img] F) : Keeps F r (s.storeImage e a n v) :=
  h.andThen hF (.ite (.foldl .refl (fun _ _ h1 => .ite (.setFlag h1 rfl) (.writeImgBlock h1 rfl)))
      (.imgStore .refl rfl))

theorem storeDistrict {e a n v : ℕ} (h : Keeps F r s)
    (hF : Part.within [.now, .free, .regs, .shadow, .leases, .porstLow, .coreReset, .modeCmd, .bootSel, .bootMem,
        .syncs, .merges, .engines, .sram, .gregs, .msixTab, .msixPba, .districts, .ave, .tb, .red, .xing, .ports,
            .txTurn, .hostMem, .cans, .serials, .mram, .keyHash, .nv, .sup, .pkg, .jtag, .img, .hostReads, .curve,
                .srus, .channels, .island, .latch, .clockLost, .nfn, .notices, .out] F)
                    : Keeps F r (s.storeDistrict e a n v) :=
  h.andThen hF (.ite (.ite (.sramStore .refl rfl) (.refusePosted .refl rfl)) (.writeRegs .refl rfl))

theorem storeAt {e : ℕ} {sp : Space} {a n v : ℕ} (h : Keeps F r s)
    (hF : Part.within [.now, .free, .regs, .shadow, .leases, .porstLow, .coreReset, .modeCmd, .bootSel, .bootMem,
        .syncs, .merges, .engines, .sram, .gregs, .msixTab, .msixPba, .districts, .ave, .tb, .red, .xing, .ports,
            .txTurn, .hostMem, .cans, .serials, .mram, .keyHash, .nv, .sup, .pkg, .jtag, .img, .hostReads, .curve,
                .srus, .channels, .island, .latch, .clockLost, .nfn, .notices, .out] F)
                    : Keeps F r (s.storeAt e sp a n v) := by
  refine h.andThen hF ?_
  unfold State.storeAt
  dsimp only
  split
  · exact .setEngData .refl (fun ⟨hData, hInstr, hG⟩ => ⟨Mem.wf_writeLE _ _ _ hData, hInstr, hG⟩) rfl rfl
  · exact .storeDistrict .refl rfl
  · exact .storeImage .refl rfl
  · exact .storePort .refl rfl

theorem applyPosted {e : ℕ} {x' : Posted} (h : Keeps F r s)
    (hF : Part.within [.now, .free, .regs, .shadow, .leases, .porstLow, .coreReset, .modeCmd, .bootSel, .bootMem,
        .syncs, .merges, .engines, .sram, .gregs, .msixTab, .msixPba, .districts, .ave, .tb, .red, .xing, .ports,
            .txTurn, .hostMem, .cans, .serials, .mram, .keyHash, .nv, .sup, .pkg, .jtag, .img, .hostReads, .curve,
                .srus, .channels, .island, .latch, .clockLost, .nfn, .notices, .out] F)
                    : Keeps F r (State.applyPosted e s x') := by
  refine h.andThen hF ?_
  unfold State.applyPosted
  split
  · exact .storeAt .refl rfl
  · exact .ring .refl rfl

theorem drain {e : ℕ} {f : Posted → Bool} (h : Keeps F r s)
    (hF : Part.within [.now, .free, .regs, .shadow, .leases, .porstLow, .coreReset, .modeCmd, .bootSel, .bootMem,
        .syncs, .merges, .engines, .sram, .gregs, .msixTab, .msixPba, .districts, .ave, .tb, .red, .xing, .ports,
            .txTurn, .hostMem, .cans, .serials, .mram, .keyHash, .nv, .sup, .pkg, .jtag, .img, .hostReads, .curve,
                .srus, .channels, .island, .latch, .clockLost, .nfn, .notices, .out] F) : Keeps F r (s.drain e f) :=
  h.andThen hF (.foldl (.setEng .refl ⟨rfl, rfl, rfl⟩ rfl) (fun _ _ h1 => .applyPosted h1 rfl))

theorem completePosted {e k : ℕ} (h : Keeps F r s)
    (hF : Part.within [.now, .free, .regs, .shadow, .leases, .porstLow, .coreReset, .modeCmd, .bootSel, .bootMem,
        .syncs, .merges, .engines, .sram, .gregs, .msixTab, .msixPba, .districts, .ave, .tb, .red, .xing, .ports,
            .txTurn, .hostMem, .cans, .serials, .mram, .keyHash, .nv, .sup, .pkg, .jtag, .img, .hostReads, .curve,
                .srus, .channels, .island, .latch, .clockLost, .nfn, .notices, .out] F)
                    : Keeps F r (s.completePosted e k) := by
  refine h.andThen hF ?_
  unfold State.completePosted
  dsimp only
  split
  · exact .ite .refl (.applyPosted (.setEng .refl ⟨rfl, rfl, rfl⟩ rfl) rfl)
  · exact .refl

theorem makeRoom {e : ℕ} (h : Keeps F r s)
    (hF : Part.within [.now, .free, .regs, .shadow, .leases, .porstLow, .coreReset, .modeCmd, .bootSel, .bootMem,
        .syncs, .merges, .engines, .sram, .gregs, .msixTab, .msixPba, .districts, .ave, .tb, .red, .xing, .ports,
            .txTurn, .hostMem, .cans, .serials, .mram, .keyHash, .nv, .sup, .pkg, .jtag, .img, .hostReads, .curve,
                .srus, .channels, .island, .latch, .clockLost, .nfn, .notices, .out] F) : Keeps F r (s.makeRoom e) :=
  h.andThen hF (.ite (.completePosted .refl rfl) .refl)

theorem post {e : ℕ} {p : Posted} (h : Keeps F r s)
    (hF : Part.within [.engines] F) : Keeps F r (s.post e p) :=
  h.andThen hF (.setEng .refl ⟨rfl, rfl, rfl⟩ rfl)

theorem settle {e : ℕ} {sp : Space} {a : ℕ} (h : Keeps F r s)
    (hF : Part.within [.now, .free, .regs, .shadow, .leases, .porstLow, .coreReset, .modeCmd, .bootSel, .bootMem,
        .syncs, .merges, .engines, .sram, .gregs, .msixTab, .msixPba, .districts, .ave, .tb, .red, .xing, .ports,
            .txTurn, .hostMem, .cans, .serials, .mram, .keyHash, .nv, .sup, .pkg, .jtag, .img, .hostReads, .curve,
                .srus, .channels, .island, .latch, .clockLost, .nfn, .notices, .out] F) : Keeps F r (s.settle e sp a) :=
  h.andThen hF (.ite (.drain .refl rfl) .refl)

theorem refusedFault {e : ℕ} {write : Bool} {x' : Access} (h : Keeps F r s)
    (hF : Part.within [.regs, .engines, .notices] F) : Keeps F r (s.refusedFault e write x') := by
  refine h.andThen hF ?_
  unfold State.refusedFault
  split
  · exact .accessFault .refl rfl
  · exact .accessFault .refl rfl
  · exact .refl
  · exact .refl

theorem loadInstr {e : ℕ} {w : LoadWait} {stack : Bool} (h : Keeps F r s)
    (hF : Part.within [.now, .free, .regs, .shadow, .leases, .porstLow, .coreReset, .modeCmd, .bootSel, .bootMem,
        .syncs, .merges, .engines, .sram, .gregs, .msixTab, .msixPba, .districts, .ave, .tb, .red, .xing, .ports,
            .txTurn, .hostMem, .cans, .serials, .mram, .keyHash, .nv, .sup, .pkg, .jtag, .img, .hostReads, .curve,
                .srus, .channels, .island, .latch, .clockLost, .nfn, .notices, .out] F)
                    : Keeps F r (s.loadInstr e w stack) := by
  refine h.andThen hF ?_
  unfold State.loadInstr
  dsimp only
  split
  · exact .refl
  · exact .finishLoad .refl rfl
  · exact .refusedFault .refl rfl
  · refine .ite ?_ ?_
    · exact (.settle .refl rfl)
    · split
      · exact .accessFault ((.settle .refl rfl)) rfl
      · refine .ite ?_ ?_
        · exact (.drain ((.settle .refl rfl)) rfl)
        · split
          · exact .finishLoad ((.ofValue (.loadAt ((.drain ((.settle .refl rfl)) rfl)) rfl) (by assumption))) rfl
          · exact .accessFault ((.ofRefused (.loadAt ((.drain ((.settle .refl rfl)) rfl)) rfl) (by assumption))) rfl
          · exact .setEng ((.ofLater (.loadAt ((.drain ((.settle .refl rfl)) rfl)) rfl)
              (by assumption))) ⟨rfl, rfl, rfl⟩ rfl

theorem markForeign {e a n : ℕ} {sp : Space} (h : Keeps F r s)
    (hF : Part.within [.now, .regs] F) : Keeps F r (s.markForeign e a n sp) :=
  h.andThen hF (.ite (.foldl .refl (fun _ _ h1 => .ite (.windowErr h1 rfl) h1)) .refl)

theorem putStore {e : ℕ} {sp : Space} {a n v : ℕ} (h : Keeps F r s)
    (hF : Part.within [.now, .free, .regs, .shadow, .leases, .porstLow, .coreReset, .modeCmd, .bootSel, .bootMem,
        .syncs, .merges, .engines, .sram, .gregs, .msixTab, .msixPba, .districts, .ave, .tb, .red, .xing, .ports,
            .txTurn, .hostMem, .cans, .serials, .mram, .keyHash, .nv, .sup, .pkg, .jtag, .img, .hostReads, .curve,
                .srus, .channels, .island, .latch, .clockLost, .nfn, .notices, .out] F)
                    : Keeps F r (s.putStore e sp a n v) :=
  h.andThen hF (.ite (.storeAt .refl rfl) (.post .refl rfl))

theorem storeInstr {e : ℕ} {sp : Space} {a n v : ℕ} {stack : Bool} {len : ℕ} (h : Keeps F r s)
    (hF : Part.within [.now, .free, .regs, .shadow, .leases, .porstLow, .coreReset, .modeCmd, .bootSel, .bootMem,
        .syncs, .merges, .engines, .sram, .gregs, .msixTab, .msixPba, .districts, .ave, .tb, .red, .xing, .ports,
            .txTurn, .hostMem, .cans, .serials, .mram, .keyHash, .nv, .sup, .pkg, .jtag, .img, .hostReads, .curve,
                .srus, .channels, .island, .latch, .clockLost, .nfn, .notices, .out] F)
                    : Keeps F r (s.storeInstr e sp a n v stack len) := by
  refine h.andThen hF ?_
  unfold State.storeInstr
  dsimp only
  refine .ite ?_ ?_
  · exact (.settle .refl rfl)
  · split
    · exact .accessFault (.markForeign ((.settle .refl rfl)) rfl) rfl
    · exact .bind (fun h2 => .ite h2 (.advance (.putStore h2 rfl) rfl)) (.ite ((.settle .refl rfl)) (.makeRoom
        ((.settle .refl rfl)) rfl))

theorem atomicAt {e a n : ℕ} {op : AtomOp} {v : ℕ} (h : Keeps F r s)
    (hF : Part.within [.now, .regs, .districts, .notices] F) : Keeps F r (s.atomicAt e a n op v).state := by
  refine h.andThen hF ?_
  unfold State.atomicAt
  dsimp only
  split
  · exact .sramErrorSeen ((.sramScrub .refl rfl)) rfl
  · split
    · exact (.sramScrub .refl rfl)
    · split
      · exact .sramStore ((.sramScrub .refl rfl)) rfl
      · exact (.sramScrub .refl rfl)

theorem atomicInstr {e : ℕ} {wide : Bool} {d : GReg} {a : ℕ} {op : AtomOp} {v len : ℕ} (h : Keeps F r s)
    (hF : Part.within [.now, .free, .regs, .shadow, .leases, .porstLow, .coreReset, .modeCmd, .bootSel, .bootMem,
        .syncs, .merges, .engines, .sram, .gregs, .msixTab, .msixPba, .districts, .ave, .tb, .red, .xing, .ports,
            .txTurn, .hostMem, .cans, .serials, .mram, .keyHash, .nv, .sup, .pkg, .jtag, .img, .hostReads, .curve,
                .srus, .channels, .island, .latch, .clockLost, .nfn, .notices, .out] F)
                    : Keeps F r (s.atomicInstr e wide d a op v len) := by
  refine h.andThen hF ?_
  unfold State.atomicInstr
  dsimp only
  split
  · exact .refl
  · exact .advance (.wr .refl rfl) rfl
  · exact .refusedFault .refl rfl
  · refine .ite ?_ ?_
    · exact .accessFault .refl rfl
    · refine .ite ?_ ?_
      · exact (.drain .refl rfl)
      · split
        · exact .advance (.wr ((.ofValue (.atomicAt ((.drain .refl rfl)) rfl) (by assumption))) rfl) rfl
        · exact .accessFault ((.ofRefused (.atomicAt ((.drain .refl rfl)) rfl) (by assumption))) rfl
        · exact (.ofLater (.atomicAt ((.drain .refl rfl)) rfl) (by assumption))

theorem execIllegal {e : ℕ} (h : Keeps F r s)
    {t : State} (ht : execIllegal e s = .next t) (hF : Part.within [.regs, .engines, .notices] F) : Keeps F r t := by
  refine h.andThen hF (.ofNext ht ?_)
  refine .ite ?_ ?_
  · split
    · exact .illegal .refl rfl
    · exact .refl
  · exact .refl

theorem execFetchAccess {e : ℕ} (h : Keeps F r s)
    {t : State} (ht : execFetchAccess e s = .next t) (hF : Part.within [.regs, .engines, .notices] F)
        : Keeps F r t := by
  refine h.andThen hF (.ofNext ht ?_)
  refine .ite ?_ ?_
  · split
    · exact .fetchFault .refl rfl
    · exact .refl
  · exact .refl

theorem execLd {e : ℕ} {size : Size} {sp : Option Space} {d b : GReg} {disp : Disp} (h : Keeps F r s)
    {t : State} (ht : execLd e size sp d b disp s = .next t)
        (hF : Part.within [.now, .free, .regs, .shadow, .leases, .porstLow, .coreReset, .modeCmd, .bootSel, .bootMem,
            .syncs, .merges, .engines, .sram, .gregs, .msixTab, .msixPba, .districts, .ave, .tb, .red, .xing, .ports,
                .txTurn, .hostMem, .cans, .serials, .mram, .keyHash, .nv, .sup, .pkg, .jtag, .img, .hostReads, .curve,
                    .srus, .channels, .island, .latch, .clockLost, .nfn, .notices, .out] F) : Keeps F r t :=
  h.andThen hF (.ofNext ht (.issue .refl (fun _ h1 => .loadInstr h1 rfl) rfl))

theorem execLds {e : ℕ} {size : Size} {sp : Option Space} {d b : GReg} {disp : Disp} (h : Keeps F r s)
    {t : State} (ht : execLds e size sp d b disp s = .next t)
        (hF : Part.within [.now, .free, .regs, .shadow, .leases, .porstLow, .coreReset, .modeCmd, .bootSel, .bootMem,
            .syncs, .merges, .engines, .sram, .gregs, .msixTab, .msixPba, .districts, .ave, .tb, .red, .xing, .ports,
                .txTurn, .hostMem, .cans, .serials, .mram, .keyHash, .nv, .sup, .pkg, .jtag, .img, .hostReads, .curve,
                    .srus, .channels, .island, .latch, .clockLost, .nfn, .notices, .out] F) : Keeps F r t :=
  h.andThen hF (.ofNext ht (.issue .refl (fun _ h1 => .loadInstr h1 rfl) rfl))

theorem execSt {e : ℕ} {size : Size} {sp : Option Space} {g b : GReg} {disp : Disp} (h : Keeps F r s)
    {t : State} (ht : execSt e size sp g b disp s = .next t)
        (hF : Part.within [.now, .free, .regs, .shadow, .leases, .porstLow, .coreReset, .modeCmd, .bootSel, .bootMem,
            .syncs, .merges, .engines, .sram, .gregs, .msixTab, .msixPba, .districts, .ave, .tb, .red, .xing, .ports,
                .txTurn, .hostMem, .cans, .serials, .mram, .keyHash, .nv, .sup, .pkg, .jtag, .img, .hostReads, .curve,
                    .srus, .channels, .island, .latch, .clockLost, .nfn, .notices, .out] F) : Keeps F r t :=
  h.andThen hF (.ofNext ht (.issue .refl (fun _ h1 => .storeInstr h1 rfl) rfl))

theorem execSti {e : ℕ} {size : Size} {sp : Option Space} {b : GReg} {disp imm : BitVec 32} (h : Keeps F r s)
    {t : State} (ht : execSti e size sp b disp imm s = .next t)
        (hF : Part.within [.now, .free, .regs, .shadow, .leases, .porstLow, .coreReset, .modeCmd, .bootSel, .bootMem,
            .syncs, .merges, .engines, .sram, .gregs, .msixTab, .msixPba, .districts, .ave, .tb, .red, .xing, .ports,
                .txTurn, .hostMem, .cans, .serials, .mram, .keyHash, .nv, .sup, .pkg, .jtag, .img, .hostReads, .curve,
                    .srus, .channels, .island, .latch, .clockLost, .nfn, .notices, .out] F) : Keeps F r t :=
  h.andThen hF (.ofNext ht (.issue .refl (fun _ h1 => .storeInstr h1 rfl) rfl))

theorem stringIssue {e : ℕ} {size : Size} {sp : Option Space} {rep : Rep} {repz : Bool} {regs : List GReg} {ds : Option Space} {badImm : Bool} {len : ℕ} {body : State → State} (h : Keeps F r s) (hbody : ∀ u, Keeps F r u → Keeps F r (body u))
    (hF : Part.within [.regs, .engines, .notices] F)
        : Keeps F r (s.stringIssue e size sp rep repz regs ds badImm len body) :=
  .issue h (fun _ h1 => .ite (.advance h1 (hF := Part.sub hF rfl)) (hbody _ h1)) (hF := Part.sub hF rfl)

theorem endElement {e : ℕ} {rep : Rep} {unequal : Bool} {len : ℕ} (h : Keeps F r s)
    (hF : Part.within [.engines] F) : Keeps F r (s.endElement e rep unequal len) :=
  h.andThen hF (.ite (.advance .refl rfl) (.ite (.setEng .refl ⟨rfl, rfl, rfl⟩ rfl) (.advance .refl rfl)))

theorem stepReg {e : ℕ} {r' : GReg} {by' : ℕ} (h : Keeps F r s)
    (hF : Part.within [.engines, .gregs] F) : Keeps F r (s.stepReg e r' by') :=
  h.andThen hF (.setGreg .refl rfl)

theorem stepCount {e : ℕ} (h : Keeps F r s)
    (hF : Part.within [.engines, .gregs] F) : Keeps F r (s.stepCount e) :=
  h.andThen hF (.setGreg .refl rfl)

theorem elemFault {e : ℕ} {sp : Space} {a n : ℕ} {dest : Bool} {x : Exc} (h : Keeps F r s)
    (hF : Part.within [.regs, .engines, .notices] F) : Keeps F r (s.elemFault e sp a n dest x) :=
  h.andThen hF (.accessFault .refl rfl)

theorem readElem {e : ℕ} {sp : Space} {a n k : ℕ} {dest : Bool} (h : Keeps F r s)
    (hF : Part.within [.now, .free, .regs, .shadow, .leases, .porstLow, .coreReset, .modeCmd, .bootSel, .bootMem,
        .syncs, .merges, .engines, .sram, .gregs, .msixTab, .msixPba, .districts, .ave, .tb, .red, .xing, .ports,
            .txTurn, .hostMem, .cans, .serials, .mram, .keyHash, .nv, .sup, .pkg, .jtag, .img, .hostReads, .curve,
                .srus, .channels, .island, .latch, .clockLost, .nfn, .notices, .out] F)
                    : Keeps F r (s.readElem e sp a n k dest).state := by
  refine h.andThen hF ?_
  unfold State.readElem
  dsimp only
  split
  · exact .refl
  · split
    · exact .refl
    · exact .refl
    · exact .refusedFault .refl rfl
    · split
      · exact (.drain .refl rfl)
      · split
        · exact (.ofValue (.loadAt ((.drain .refl rfl)) rfl) (by assumption))
        · exact .elemFault ((.ofRefused (.loadAt ((.drain .refl rfl)) rfl) (by assumption))) rfl
        · exact (.ofLater (.loadAt ((.drain .refl rfl)) rfl) (by assumption))

theorem withSource {e : ℕ} {sp : Space} {n : ℕ} {f : ℕ → State → State} (h
    : Keeps F r s) (hf : ∀ a0 u, Keeps F r u → Keeps F r (f a0 u))
    (hF : Part.within [.now, .free, .regs, .shadow, .leases, .porstLow, .coreReset, .modeCmd, .bootSel, .bootMem,
        .syncs, .merges, .engines, .sram, .gregs, .msixTab, .msixPba, .districts, .ave, .tb, .red, .xing, .ports,
            .txTurn, .hostMem, .cans, .serials, .mram, .keyHash, .nv, .sup, .pkg, .jtag, .img, .hostReads, .curve,
                .srus, .channels, .island, .latch, .clockLost, .nfn, .notices, .out] F)
                    : Keeps F r (s.withSource e sp n f) := by
  unfold State.withSource
  refine .ite ?_ ?_
  · exact (.settle h (hF := Part.sub hF rfl))
  · split
    · exact .elemFault ((.settle h (hF := Part.sub hF rfl))) (hF := Part.sub hF rfl)
    · split
      · exact (.ofElemStop (.readElem ((.settle h (hF := Part.sub hF rfl))) (hF := Part.sub hF rfl)) (by assumption))
      · exact hf _ _ ((.ofElemValue (.readElem ((.settle h (hF := Part.sub hF rfl)))
          (hF := Part.sub hF rfl)) (by assumption)))

theorem movsElement {e : ℕ} {sp ds : Space} {n : ℕ} {rep : Rep} {len : ℕ} (h : Keeps F r s)
    (hF : Part.within [.now, .free, .regs, .shadow, .leases, .porstLow, .coreReset, .modeCmd, .bootSel, .bootMem,
        .syncs, .merges, .engines, .sram, .gregs, .msixTab, .msixPba, .districts, .ave, .tb, .red, .xing, .ports,
            .txTurn, .hostMem, .cans, .serials, .mram, .keyHash, .nv, .sup, .pkg, .jtag, .img, .hostReads, .curve,
                .srus, .channels, .island, .latch, .clockLost, .nfn, .notices, .out] F)
                    : Keeps F r (s.movsElement e sp ds n rep len) := by
  refine h.andThen hF ?_
  unfold State.movsElement
  dsimp only
  refine .ite ?_ ?_
  · exact (.settle (.settle .refl rfl) rfl)
  · split
    · exact .elemFault ((.settle (.settle .refl rfl) rfl)) rfl
    · split
      · exact .elemFault (.markForeign ((.settle (.settle .refl rfl) rfl)) rfl) rfl
      · refine .ite ?_ ?_
        · exact (.ite ((.settle (.settle .refl rfl) rfl)) (.makeRoom ((.settle (.settle .refl rfl) rfl)) rfl))
        · split
          · exact (.ofElemStop (.readElem ((.ite ((.settle (.settle .refl rfl) rfl)) (.makeRoom ((.settle
              (.settle .refl rfl) rfl)) rfl))) rfl) (by assumption))
          · split
            · exact .elemFault ((.ofElemValue (.readElem ((.ite ((.settle (.settle .refl rfl) rfl)) (.makeRoom
                ((.settle (.settle .refl rfl) rfl)) rfl))) rfl) (by assumption))) rfl
            · exact .endElement (.stepCount (.stepReg (.stepReg (.putStore ((.ofElemValue (.readElem ((.ite ((.settle
                (.settle .refl rfl) rfl)) (.makeRoom ((.settle (.settle .refl rfl) rfl)) rfl))) rfl)
                    (by assumption))) rfl) rfl) rfl) rfl) rfl

theorem fillElement {e : ℕ} {sp : Space} {n : ℕ} {a : GReg} {rep : Rep} {len : ℕ} (h : Keeps F r s)
    (hF : Part.within [.now, .free, .regs, .shadow, .leases, .porstLow, .coreReset, .modeCmd, .bootSel, .bootMem,
        .syncs, .merges, .engines, .sram, .gregs, .msixTab, .msixPba, .districts, .ave, .tb, .red, .xing, .ports,
            .txTurn, .hostMem, .cans, .serials, .mram, .keyHash, .nv, .sup, .pkg, .jtag, .img, .hostReads, .curve,
                .srus, .channels, .island, .latch, .clockLost, .nfn, .notices, .out] F)
                    : Keeps F r (s.fillElement e sp n a rep len) := by
  refine h.andThen hF ?_
  unfold State.fillElement
  dsimp only
  refine .ite ?_ ?_
  · exact (.settle .refl rfl)
  · split
    · exact .elemFault (.markForeign ((.settle .refl rfl)) rfl) rfl
    · exact .bind (fun h2 => .ite h2 (.endElement (.stepCount (.stepReg (.putStore h2 rfl) rfl) rfl) rfl)) (.ite
        ((.settle .refl rfl)) (.makeRoom ((.settle .refl rfl)) rfl))

theorem endCompare {e : ℕ} {d : GReg} {equal : Bool} {rep : Rep} {len : ℕ} (h : Keeps F r s)
    (hF : Part.within [.engines, .gregs] F) : Keeps F r (s.endCompare e d equal rep len) :=
  h.andThen hF (.endElement ((.stepCount (.setGreg .refl rfl) rfl)) rfl)

theorem scanElement {e : ℕ} {sp : Space} {n : ℕ} {d a : GReg} {rep : Rep} {len : ℕ} (h : Keeps F r s)
    (hF : Part.within [.now, .free, .regs, .shadow, .leases, .porstLow, .coreReset, .modeCmd, .bootSel, .bootMem,
        .syncs, .merges, .engines, .sram, .gregs, .msixTab, .msixPba, .districts, .ave, .tb, .red, .xing, .ports,
            .txTurn, .hostMem, .cans, .serials, .mram, .keyHash, .nv, .sup, .pkg, .jtag, .img, .hostReads, .curve,
                .srus, .channels, .island, .latch, .clockLost, .nfn, .notices, .out] F)
                    : Keeps F r (s.scanElement e sp n d a rep len) :=
  h.andThen hF (.withSource .refl (fun _ _ h1 => .endCompare (.stepReg h1 rfl) rfl) rfl)

theorem cmpsElement {e : ℕ} {sp ds : Space} {n : ℕ} {d : GReg} {rep : Rep} {len : ℕ} (h : Keeps F r s)
    (hF : Part.within [.now, .free, .regs, .shadow, .leases, .porstLow, .coreReset, .modeCmd, .bootSel, .bootMem,
        .syncs, .merges, .engines, .sram, .gregs, .msixTab, .msixPba, .districts, .ave, .tb, .red, .xing, .ports,
            .txTurn, .hostMem, .cans, .serials, .mram, .keyHash, .nv, .sup, .pkg, .jtag, .img, .hostReads, .curve,
                .srus, .channels, .island, .latch, .clockLost, .nfn, .notices, .out] F)
                    : Keeps F r (s.cmpsElement e sp ds n d rep len) := by
  refine h.andThen hF ?_
  unfold State.cmpsElement
  dsimp only
  refine .ite ?_ ?_
  · exact (.settle (.settle .refl rfl) rfl)
  · split
    · exact .elemFault ((.settle (.settle .refl rfl) rfl)) rfl
    · split
      · exact .elemFault ((.settle (.settle .refl rfl) rfl)) rfl
      · split
        · exact (.ofElemStop (.readElem ((.settle (.settle .refl rfl) rfl)) rfl) (by assumption))
        · split
          · exact (.ofElemStop (.readElem ((.ofElemValue (.readElem ((.settle (.settle .refl rfl) rfl)) rfl)
              (by assumption))) rfl) (by assumption))
          · exact .endCompare (.stepReg (.stepReg ((.ofElemValue (.readElem ((.ofElemValue (.readElem ((.settle
              (.settle .refl rfl) rfl)) rfl) (by assumption))) rfl) (by assumption))) rfl) rfl) rfl

theorem crcsElement {e : ℕ} {sp : Space} {n : ℕ} {d : GReg} {t' : ℕ} {rep : Rep} {len : ℕ} (h : Keeps F r s)
    (hF : Part.within [.now, .free, .regs, .shadow, .leases, .porstLow, .coreReset, .modeCmd, .bootSel, .bootMem,
        .syncs, .merges, .engines, .sram, .gregs, .msixTab, .msixPba, .districts, .ave, .tb, .red, .xing, .ports,
            .txTurn, .hostMem, .cans, .serials, .mram, .keyHash, .nv, .sup, .pkg, .jtag, .img, .hostReads, .curve,
                .srus, .channels, .island, .latch, .clockLost, .nfn, .notices, .out] F)
                    : Keeps F r (s.crcsElement e sp n d t' rep len) :=
  h.andThen hF (.withSource .refl (fun _ _ h1 => .endElement (.stepCount (.stepReg (.setGreg h1 rfl) rfl) rfl) rfl) rfl)

theorem execMovs {e : ℕ} {size : Size} {rep : Rep} {sp : Option Space} {ds : Space} (h : Keeps F r s)
    {t : State} (ht : execMovs e size rep sp ds s = .next t)
        (hF : Part.within [.now, .free, .regs, .shadow, .leases, .porstLow, .coreReset, .modeCmd, .bootSel, .bootMem,
            .syncs, .merges, .engines, .sram, .gregs, .msixTab, .msixPba, .districts, .ave, .tb, .red, .xing, .ports,
                .txTurn, .hostMem, .cans, .serials, .mram, .keyHash, .nv, .sup, .pkg, .jtag, .img, .hostReads, .curve,
                    .srus, .channels, .island, .latch, .clockLost, .nfn, .notices, .out] F) : Keeps F r t :=
  h.andThen hF (.ofNext ht (.stringIssue .refl (fun _ h1 => .movsElement h1 rfl) rfl))

theorem execFill {e : ℕ} {size : Size} {rep : Rep} {sp : Option Space} {a : GReg} (h : Keeps F r s)
    {t : State} (ht : execFill e size rep sp a s = .next t)
        (hF : Part.within [.now, .free, .regs, .shadow, .leases, .porstLow, .coreReset, .modeCmd, .bootSel, .bootMem,
            .syncs, .merges, .engines, .sram, .gregs, .msixTab, .msixPba, .districts, .ave, .tb, .red, .xing, .ports,
                .txTurn, .hostMem, .cans, .serials, .mram, .keyHash, .nv, .sup, .pkg, .jtag, .img, .hostReads, .curve,
                    .srus, .channels, .island, .latch, .clockLost, .nfn, .notices, .out] F) : Keeps F r t :=
  h.andThen hF (.ofNext ht (.stringIssue .refl (fun _ h1 => .fillElement h1 rfl) rfl))

theorem execScan {e : ℕ} {size : Size} {rep : Rep} {sp : Option Space} {d a : GReg} (h : Keeps F r s)
    {t : State} (ht : execScan e size rep sp d a s = .next t)
        (hF : Part.within [.now, .free, .regs, .shadow, .leases, .porstLow, .coreReset, .modeCmd, .bootSel, .bootMem,
            .syncs, .merges, .engines, .sram, .gregs, .msixTab, .msixPba, .districts, .ave, .tb, .red, .xing, .ports,
                .txTurn, .hostMem, .cans, .serials, .mram, .keyHash, .nv, .sup, .pkg, .jtag, .img, .hostReads, .curve,
                    .srus, .channels, .island, .latch, .clockLost, .nfn, .notices, .out] F) : Keeps F r t :=
  h.andThen hF (.ofNext ht (.stringIssue .refl (fun _ h1 => .scanElement h1 rfl) rfl))

theorem execCmps {e : ℕ} {size : Size} {rep : Rep} {sp : Option Space} {d : GReg} {ds : Space} (h : Keeps F r s)
    {t : State} (ht : execCmps e size rep sp d ds s = .next t)
        (hF : Part.within [.now, .free, .regs, .shadow, .leases, .porstLow, .coreReset, .modeCmd, .bootSel, .bootMem,
            .syncs, .merges, .engines, .sram, .gregs, .msixTab, .msixPba, .districts, .ave, .tb, .red, .xing, .ports,
                .txTurn, .hostMem, .cans, .serials, .mram, .keyHash, .nv, .sup, .pkg, .jtag, .img, .hostReads, .curve,
                    .srus, .channels, .island, .latch, .clockLost, .nfn, .notices, .out] F) : Keeps F r t :=
  h.andThen hF (.ofNext ht (.stringIssue .refl (fun _ h1 => .cmpsElement h1 rfl) rfl))

theorem execCrcs {e : ℕ} {size : Size} {rep : Rep} {sp : Option Space} {d : GReg} {table : BitVec 8} (h : Keeps F r s)
    {t : State} (ht : execCrcs e size rep sp d table s = .next t)
        (hF : Part.within [.now, .free, .regs, .shadow, .leases, .porstLow, .coreReset, .modeCmd, .bootSel, .bootMem,
            .syncs, .merges, .engines, .sram, .gregs, .msixTab, .msixPba, .districts, .ave, .tb, .red, .xing, .ports,
                .txTurn, .hostMem, .cans, .serials, .mram, .keyHash, .nv, .sup, .pkg, .jtag, .img, .hostReads, .curve,
                    .srus, .channels, .island, .latch, .clockLost, .nfn, .notices, .out] F) : Keeps F r t :=
  h.andThen hF (.ofNext ht (.stringIssue .refl (fun _ h1 => .crcsElement h1 rfl) rfl))

theorem execStmp {e : ℕ} {wide : Bool} {d : GReg} (h : Keeps F r s)
    {t : State} (ht : execStmp e wide d s = .next t) (hF : Part.within [.regs, .engines, .gregs, .notices] F)
        : Keeps F r t :=
  h.andThen hF (.ofNext ht (.issue .refl (fun _ h1 => .advance (.wr h1 rfl) rfl) rfl))

theorem execTsqp {e : ℕ} {d a b : GReg} (h : Keeps F r s)
    {t : State} (ht : execTsqp e d a b s = .next t)
        (hF : Part.within [.now, .regs, .engines, .gregs, .tb, .notices] F) : Keeps F r t :=
  h.andThen hF (.ofNext ht (.issue .refl (fun _ h1 => .advance (.setGreg (.tsqPush h1 rfl) rfl) rfl) rfl))

theorem execSrup {e : ℕ} {d a : GReg} (h : Keeps F r s)
    {t : State} (ht : execSrup e d a s = .next t)
        (hF : Part.within [.now, .regs, .engines, .gregs, .srus, .notices] F) : Keeps F r t :=
  h.andThen hF (.ofNext ht (.issue .refl (fun _ h1 => .ite (.noMemFault h1 rfl) (.ite (.noMemFault h1 rfl) (.advance
      (.setGreg (.offerSample h1 rfl) rfl) rfl))) rfl))

theorem execRndrd {e : ℕ} {d : GReg} {word : BitVec 8} (h : Keeps F r s)
    {t : State} (ht : execRndrd e d word s = .next t) (hF : Part.within [.regs, .engines, .gregs, .notices] F)
        : Keeps F r t :=
  h.andThen hF (.ofNext ht (.issue .refl (fun _ h1 => .advance (.setGreg h1 rfl) rfl) rfl))

theorem execRndwr {e : ℕ} {a : GReg} {word : BitVec 8} (h : Keeps F r s)
    {t : State} (ht : execRndwr e a word s = .next t)
        (hF : Part.within [.regs, .engines, .districts, .red, .notices] F) : Keeps F r t :=
  h.andThen hF (.ofNext ht (.issue .refl (fun _ h1 => .ite (.noMemFault h1 rfl) (.bind (fun h2 => .advance (.ite
      (.lanternPulse h2 rfl) h2) rfl) (.pendWrite h1 rfl))) rfl))

theorem execRndop {e : ℕ} {a : GReg} {field : BitVec 16} (h : Keeps F r s)
    {t : State} (ht : execRndop e a field s = .next t)
        (hF : Part.within [.now, .regs, .engines, .districts, .notices] F) : Keeps F r t :=
  h.andThen hF (.ofNext ht (.issue .refl (fun _ h1 => .ite (.noMemFault h1 rfl) (.advance
      (.pendOperation h1 rfl) rfl)) rfl))

theorem execWait {e : ℕ} (h : Keeps F r s)
    {t : State} (ht : execWait e s = .next t)
        (hF : Part.within [.now, .free, .regs, .shadow, .leases, .porstLow, .coreReset, .modeCmd, .bootSel, .bootMem,
            .syncs, .merges, .engines, .sram, .gregs, .msixTab, .msixPba, .districts, .ave, .tb, .red, .xing, .ports,
                .txTurn, .hostMem, .cans, .serials, .mram, .keyHash, .nv, .sup, .pkg, .jtag, .img, .hostReads, .curve,
                    .srus, .channels, .island, .latch, .clockLost, .nfn, .notices, .out] F) : Keeps F r t :=
  h.andThen hF (.ofNext ht (.issue .refl (fun _ h1 => .bind (fun h2 => .ite h2 (.setFld h2 rfl)) (.advance
      (.drain h1 rfl) rfl)) rfl))

theorem execEvt {e : ℕ} {a : GReg} {line : BitVec 8} (h : Keeps F r s)
    {t : State} (ht : execEvt e a line s = .next t) (hF : Part.within [.now, .regs, .engines, .notices] F)
        : Keeps F r t :=
  h.andThen hF (.ofNext ht (.issue .refl (fun _ h1 => .ite (.noMemFault h1 rfl) (.lineArrives
      (.advance h1 rfl) rfl)) rfl))

theorem execFence {e : ℕ} (h : Keeps F r s)
    {t : State} (ht : execFence e s = .next t)
        (hF : Part.within [.now, .free, .regs, .shadow, .leases, .porstLow, .coreReset, .modeCmd, .bootSel, .bootMem,
            .syncs, .merges, .engines, .sram, .gregs, .msixTab, .msixPba, .districts, .ave, .tb, .red, .xing, .ports,
                .txTurn, .hostMem, .cans, .serials, .mram, .keyHash, .nv, .sup, .pkg, .jtag, .img, .hostReads, .curve,
                    .srus, .channels, .island, .latch, .clockLost, .nfn, .notices, .out] F) : Keeps F r t :=
  h.andThen hF (.ofNext ht (.issue .refl (fun _ h1 => .bind (fun h2 => .ite h2 (.advance h2 rfl)) (.drain h1 rfl)) rfl))

theorem execDbell {e : ℕ} {a : GReg} {b : BitVec 8} (h : Keeps F r s)
    {t : State} (ht : execDbell e a b s = .next t)
        (hF : Part.within [.now, .free, .regs, .shadow, .leases, .porstLow, .coreReset, .modeCmd, .bootSel, .bootMem,
            .syncs, .merges, .engines, .sram, .gregs, .msixTab, .msixPba, .districts, .ave, .tb, .red, .xing, .ports,
                .txTurn, .hostMem, .cans, .serials, .mram, .keyHash, .nv, .sup, .pkg, .jtag, .img, .hostReads, .curve,
                    .srus, .channels, .island, .latch, .clockLost, .nfn, .notices, .out] F) : Keeps F r t :=
  h.andThen hF (.ofNext ht (.issue .refl (fun _ h1 => .ite (.noMemFault h1 rfl) (.bind (fun h2 => .ite h2 (.advance
      (.post h2 rfl) rfl)) (.makeRoom h1 rfl))) rfl))

theorem atomic3 {e : ℕ} {wide : Bool} {d a b : GReg} {op : State → AtomOp} (h : Keeps F r s)
    (hF : Part.within [.now, .free, .regs, .shadow, .leases, .porstLow, .coreReset, .modeCmd, .bootSel, .bootMem,
        .syncs, .merges, .engines, .sram, .gregs, .msixTab, .msixPba, .districts, .ave, .tb, .red, .xing, .ports,
            .txTurn, .hostMem, .cans, .serials, .mram, .keyHash, .nv, .sup, .pkg, .jtag, .img, .hostReads, .curve,
                .srus, .channels, .island, .latch, .clockLost, .nfn, .notices, .out] F)
                    : Keeps F r (s.atomic3 e wide d a b op) :=
  h.andThen hF (.issue .refl (fun _ h1 => .atomicInstr h1 rfl) rfl)

theorem execSwp {e : ℕ} {wide : Bool} {d a b : GReg} (h : Keeps F r s)
    {t : State} (ht : execSwp e wide d a b s = .next t)
        (hF : Part.within [.now, .free, .regs, .shadow, .leases, .porstLow, .coreReset, .modeCmd, .bootSel, .bootMem,
            .syncs, .merges, .engines, .sram, .gregs, .msixTab, .msixPba, .districts, .ave, .tb, .red, .xing, .ports,
                .txTurn, .hostMem, .cans, .serials, .mram, .keyHash, .nv, .sup, .pkg, .jtag, .img, .hostReads, .curve,
                    .srus, .channels, .island, .latch, .clockLost, .nfn, .notices, .out] F) : Keeps F r t :=
  h.andThen hF (.ofNext ht (.atomic3 .refl rfl))

theorem execCas {e : ℕ} {wide : Bool} {d a b : GReg} (h : Keeps F r s)
    {t : State} (ht : execCas e wide d a b s = .next t)
        (hF : Part.within [.now, .free, .regs, .shadow, .leases, .porstLow, .coreReset, .modeCmd, .bootSel, .bootMem,
            .syncs, .merges, .engines, .sram, .gregs, .msixTab, .msixPba, .districts, .ave, .tb, .red, .xing, .ports,
                .txTurn, .hostMem, .cans, .serials, .mram, .keyHash, .nv, .sup, .pkg, .jtag, .img, .hostReads, .curve,
                    .srus, .channels, .island, .latch, .clockLost, .nfn, .notices, .out] F) : Keeps F r t :=
  h.andThen hF (.ofNext ht (.atomic3 .refl rfl))

theorem execFadd {e : ℕ} {wide : Bool} {d a b : GReg} (h : Keeps F r s)
    {t : State} (ht : execFadd e wide d a b s = .next t)
        (hF : Part.within [.now, .free, .regs, .shadow, .leases, .porstLow, .coreReset, .modeCmd, .bootSel, .bootMem,
            .syncs, .merges, .engines, .sram, .gregs, .msixTab, .msixPba, .districts, .ave, .tb, .red, .xing, .ports,
                .txTurn, .hostMem, .cans, .serials, .mram, .keyHash, .nv, .sup, .pkg, .jtag, .img, .hostReads, .curve,
                    .srus, .channels, .island, .latch, .clockLost, .nfn, .notices, .out] F) : Keeps F r t :=
  h.andThen hF (.ofNext ht (.atomic3 .refl rfl))

theorem execFand {e : ℕ} {wide : Bool} {d a b : GReg} (h : Keeps F r s)
    {t : State} (ht : execFand e wide d a b s = .next t)
        (hF : Part.within [.now, .free, .regs, .shadow, .leases, .porstLow, .coreReset, .modeCmd, .bootSel, .bootMem,
            .syncs, .merges, .engines, .sram, .gregs, .msixTab, .msixPba, .districts, .ave, .tb, .red, .xing, .ports,
                .txTurn, .hostMem, .cans, .serials, .mram, .keyHash, .nv, .sup, .pkg, .jtag, .img, .hostReads, .curve,
                    .srus, .channels, .island, .latch, .clockLost, .nfn, .notices, .out] F) : Keeps F r t :=
  h.andThen hF (.ofNext ht (.atomic3 .refl rfl))

theorem execFor {e : ℕ} {wide : Bool} {d a b : GReg} (h : Keeps F r s)
    {t : State} (ht : execFor e wide d a b s = .next t)
        (hF : Part.within [.now, .free, .regs, .shadow, .leases, .porstLow, .coreReset, .modeCmd, .bootSel, .bootMem,
            .syncs, .merges, .engines, .sram, .gregs, .msixTab, .msixPba, .districts, .ave, .tb, .red, .xing, .ports,
                .txTurn, .hostMem, .cans, .serials, .mram, .keyHash, .nv, .sup, .pkg, .jtag, .img, .hostReads, .curve,
                    .srus, .channels, .island, .latch, .clockLost, .nfn, .notices, .out] F) : Keeps F r t :=
  h.andThen hF (.ofNext ht (.atomic3 .refl rfl))

theorem execFxor {e : ℕ} {wide : Bool} {d a b : GReg} (h : Keeps F r s)
    {t : State} (ht : execFxor e wide d a b s = .next t)
        (hF : Part.within [.now, .free, .regs, .shadow, .leases, .porstLow, .coreReset, .modeCmd, .bootSel, .bootMem,
            .syncs, .merges, .engines, .sram, .gregs, .msixTab, .msixPba, .districts, .ave, .tb, .red, .xing, .ports,
                .txTurn, .hostMem, .cans, .serials, .mram, .keyHash, .nv, .sup, .pkg, .jtag, .img, .hostReads, .curve,
                    .srus, .channels, .island, .latch, .clockLost, .nfn, .notices, .out] F) : Keeps F r t :=
  h.andThen hF (.ofNext ht (.atomic3 .refl rfl))

theorem execCasx {e : ℕ} {wide : Bool} {d a b : GReg} {disp imm : BitVec 32} (h : Keeps F r s)
    {t : State} (ht : execCasx e wide d a b disp imm s = .next t)
        (hF : Part.within [.now, .free, .regs, .shadow, .leases, .porstLow, .coreReset, .modeCmd, .bootSel, .bootMem,
            .syncs, .merges, .engines, .sram, .gregs, .msixTab, .msixPba, .districts, .ave, .tb, .red, .xing, .ports,
                .txTurn, .hostMem, .cans, .serials, .mram, .keyHash, .nv, .sup, .pkg, .jtag, .img, .hostReads, .curve,
                    .srus, .channels, .island, .latch, .clockLost, .nfn, .notices, .out] F) : Keeps F r t :=
  h.andThen hF (.ofNext ht (.issue .refl (fun _ h1 => .atomicInstr h1 rfl) rfl))

theorem execMfs {e : ℕ} {d : GReg} {n : Fin 16} (h : Keeps F r s)
    {t : State} (ht : execMfs e d n s = .next t) (hF : Part.within [.regs, .engines, .gregs, .notices] F)
        : Keeps F r t :=
  h.andThen hF (.ofNext ht (.issue .refl (fun _ h1 => .advance (.setGreg h1 rfl) rfl) rfl))

theorem clearLine {e n : ℕ} (h : Keeps F r s)
    (hF : Part.within [.engines] F) : Keeps F r (s.clearLine e n) :=
  h.andThen hF (.ite (.setEng .refl ⟨rfl, rfl, rfl⟩ rfl) (.setEng .refl ⟨rfl, rfl, rfl⟩ rfl))

theorem putSpecial {e n : ℕ} {v : Word} (h : Keeps F r s)
    (hF : Part.within [.engines] F) : Keeps F r (s.putSpecial e n v) := by
  refine h.andThen hF ?_
  unfold State.putSpecial
  dsimp only
  refine .ite ?_ ?_
  · exact .foldl .refl (fun _ _ h1 => .ite (.clearLine h1 rfl) h1)
  · refine .ite ?_ ?_
    · exact .setEng .refl ⟨rfl, rfl, rfl⟩ rfl
    · split
      · exact .ite (.setEng .refl ⟨rfl, rfl, rfl⟩ rfl) (.setEng .refl ⟨rfl, rfl, rfl⟩ rfl)
      · exact .refl

theorem execMts {e : ℕ} {n : Fin 16} {a : GReg} (h : Keeps F r s)
    {t : State} (ht : execMts e n a s = .next t) (hF : Part.within [.regs, .engines, .notices] F) : Keeps F r t :=
  h.andThen hF (.ofNext ht (.issue .refl (fun _ h1 => .advance (.putSpecial h1 rfl) rfl) rfl))

theorem execRete {e : ℕ} (h : Keeps F r s)
    {t : State} (ht : execRete e s = .next t) (hF : Part.within [.regs, .engines, .gregs, .notices] F)
        : Keeps F r t := by
  refine h.andThen hF (.ofNext ht ?_)
  dsimp only
  exact .issue .refl (fun _ h1 => .ite (.illegal h1 rfl) (by
    refine .ite ?_ ?_
    · split
      · exact .takeEntry ((.popRecord h1 rfl)) rfl
      · exact (.popRecord h1 rfl)
    · exact (.popRecord h1 rfl))) rfl

theorem execTrap {e : ℕ} {code : BitVec 8} (h : Keeps F r s)
    {t : State} (ht : execTrap e code s = .next t) (hF : Part.within [.regs, .engines, .notices] F) : Keeps F r t :=
  h.andThen hF (.ofNext ht (.issue .refl (fun _ h1 => .exception h1 rfl) rfl))

theorem leaseInstr {e : ℕ} {gd ga : GReg} {release : Bool} (h : Keeps F r s)
    (hF : Part.within [.now, .regs, .leases, .engines, .gregs, .ave, .notices] F)
        : Keeps F r (s.leaseInstr e gd ga release) := by
  refine h.andThen hF ?_
  unfold State.leaseInstr
  dsimp only
  split
  · exact .refl
  · exact .finishLease .refl rfl
  · exact .refl
  · refine .ite ?_ ?_
    · exact .noMemFault .refl rfl
    · refine .ite ?_ ?_
      · exact .ite (.sendLease (.setEng .refl ⟨rfl, rfl, rfl⟩ rfl) rfl) (.finishLease .refl rfl)
      · exact .finishLease (.ite_snd (.giveLease .refl rfl) (.takeLease .refl rfl)) rfl

theorem execLease {e : ℕ} {d a : GReg} (h : Keeps F r s)
    {t : State} (ht : execLease e d a s = .next t)
        (hF : Part.within [.now, .regs, .leases, .engines, .gregs, .ave, .notices] F) : Keeps F r t :=
  h.andThen hF (.ofNext ht (.issue .refl (fun _ h1 => .leaseInstr h1 rfl) rfl))

theorem execRelease {e : ℕ} {d a : GReg} (h : Keeps F r s)
    {t : State} (ht : execRelease e d a s = .next t)
        (hF : Part.within [.now, .regs, .leases, .engines, .gregs, .ave, .notices] F) : Keeps F r t :=
  h.andThen hF (.ofNext ht (.issue .refl (fun _ h1 => .leaseInstr h1 rfl) rfl))

theorem sendAccess {e : Nat} {p : List Held × State} {x : Access} (h : Keeps F r p.2)
    (hF : Part.within [.now, .free, .regs, .shadow, .leases, .porstLow, .coreReset, .modeCmd, .bootSel, .bootMem,
        .syncs, .merges, .engines, .sram, .gregs, .msixTab, .msixPba, .districts, .ave, .tb, .red, .xing, .ports,
            .txTurn, .hostMem, .cans, .serials, .mram, .keyHash, .nv, .sup, .pkg, .jtag, .img, .hostReads, .curve,
                .srus, .channels, .island, .latch, .clockLost, .nfn, .notices, .out] F)
                    : Keeps F r (State.sendAccess e p x).2 := by
  refine h.andThen hF ?_
  unfold State.sendAccess
  cases x with
  | load sp a n =>
    refine .ite_snd ?_ (.drain .refl rfl)
    split
    · exact .ofValue (.loadAt (.drain .refl rfl) rfl) (by assumption)
    · exact .ofRefused (.loadAt (.drain .refl rfl) rfl) (by assumption)
    · exact .ofLater (.loadAt (.drain .refl rfl) rfl) (by assumption)
  | atomic => exact .drain .refl rfl
  | lease => exact .ite_snd (.ite_snd (.sendLease .refl rfl) .refl) .refl
  | release => exact .ite_snd (.ite_snd (.sendLease .refl rfl) .refl) .refl

theorem abandon {e : ℕ} {ab : Option Abandon} (h : Keeps F r s)
    (hF : Part.within [.now, .free, .regs, .shadow, .leases, .porstLow, .coreReset, .modeCmd, .bootSel, .bootMem,
        .syncs, .merges, .engines, .sram, .gregs, .msixTab, .msixPba, .districts, .ave, .tb, .red, .xing, .ports,
            .txTurn, .hostMem, .cans, .serials, .mram, .keyHash, .nv, .sup, .pkg, .jtag, .img, .hostReads, .curve,
                .srus, .channels, .island, .latch, .clockLost, .nfn, .notices, .out] F)
                    : Keeps F r (s.abandon e ab).2 := by
  refine h.andThen hF ?_
  unfold State.abandon
  dsimp only
  split
  · refine .ite_snd ?_ ?_
    · split
      · exact .foldl_snd .refl (fun _ _ h1 => .sendAccess h1 rfl)
      · exact .refl
    · exact .refl
  · exact .refl

theorem performAccess {e : ℕ} {x' : Access} (h : Keeps F r s)
    {p : HeldResult × State} (ht : s.performAccess e x' = some p)
        (hF : Part.within [.now, .free, .regs, .leases, .engines, .districts, .ave, .cans, .srus, .latch, .notices] F)
            : Keeps F r p.2 := by
  refine h.andThen hF ?_
  unfold State.performAccess at ht
  split at ht
  · split at ht
    · exact .ofSomePair ht (.imgRead .refl rfl)
    · split at ht
      · exact .ofSomePair ht ((.ofValue (.loadAt .refl rfl) (by assumption)))
      · exact .ofSomePair ht ((.ofRefused (.loadAt .refl rfl) (by assumption)))
      · exact nomatch ht
  · split at ht
    · exact .ofSomePair ht ((.ofValue (.atomicAt .refl rfl) (by assumption)))
    · exact .ofSomePair ht ((.ofRefused (.atomicAt .refl rfl) (by assumption)))
    · exact nomatch ht
  · exact .ofSomePair ht (.takeLease .refl rfl)
  · exact .ofSomePair ht (.giveLease .refl rfl)

theorem execHeldResultArrival {e k : ℕ} (h : Keeps F r s) {t : State}
    (ht : execHeldResultArrival e k s = .next t)
        (hF : Part.within [.now, .free, .regs, .leases, .engines, .districts, .ave, .cans, .srus, .latch, .notices] F)
            : Keeps F r t := by
  refine h.andThen hF (.ofNext ht (.live .refl fun u h1 => ?_))
  dsimp only
  generalize (if u.engState e = 3 then [] else State.outstandingHeld (u.eng e)) = held
  split
  · split
    · next hp =>
      have hSent := Keeps.performAccess h1 hp rfl
      exact .getD (fun _ ht => .heldResult hSent ht rfl) hSent
    · exact h1
  · split
    · split
      · next hp => exact Keeps.performAccess (.setEng h1 (by exact ⟨rfl, rfl, rfl⟩) rfl) hp rfl
      · exact h1
    · exact h1

theorem execPostedStoreCompletion {e k : ℕ} (h : Keeps F r s)
    {t : State} (ht : execPostedStoreCompletion e k s = .next t)
        (hF : Part.within [.now, .free, .regs, .shadow, .leases, .porstLow, .coreReset, .modeCmd, .bootSel, .bootMem,
            .syncs, .merges, .engines, .sram, .gregs, .msixTab, .msixPba, .districts, .ave, .tb, .red, .xing, .ports,
                .txTurn, .hostMem, .cans, .serials, .mram, .keyHash, .nv, .sup, .pkg, .jtag, .img, .hostReads, .curve,
                    .srus, .channels, .island, .latch, .clockLost, .nfn, .notices, .out] F) : Keeps F r t :=
  h.andThen hF (.ofNext ht (.live .refl (fun _ h1 => .completePosted h1 rfl)))

theorem execEventLineArrival {e n : ℕ} (h : Keeps F r s)
    {t : State} (ht : execEventLineArrival e n s = .next t) (hF : Part.within [.now, .regs, .engines] F)
        : Keeps F r t :=
  h.andThen hF (.ofNext ht (.live .refl (fun _ h1 => .ite (.lineArrives h1 rfl) h1)))

theorem execEventEntry {e : ℕ} {ab : Option Abandon} (h : Keeps F r s)
    {t : State} (ht : execEventEntry e ab s = .next t)
        (hF : Part.within [.now, .free, .regs, .shadow, .leases, .porstLow, .coreReset, .modeCmd, .bootSel, .bootMem,
            .syncs, .merges, .engines, .sram, .gregs, .msixTab, .msixPba, .districts, .ave, .tb, .red, .xing, .ports,
                .txTurn, .hostMem, .cans, .serials, .mram, .keyHash, .nv, .sup, .pkg, .jtag, .img, .hostReads, .curve,
                    .srus, .channels, .island, .latch, .clockLost, .nfn, .notices, .out] F) : Keeps F r t :=
  h.andThen hF (.ofNext ht (.live .refl (fun _ h1 => .ite (.takeEntry (.abandon h1 rfl) rfl) h1)))

theorem execWatchdogExpiry {e : ℕ} (h : Keeps F r s)
    {t : State} (ht : execWatchdogExpiry e s = .next t) (hF : Part.within [.regs, .engines, .notices] F)
        : Keeps F r t :=
  h.andThen hF (.ofNext ht (.live .refl (fun _ h1 => .ite (.bind (fun h2 => .ite (.halt h2 rfl) h2)
      (.setEng h1 ⟨rfl, rfl, rfl⟩ rfl)) h1)))

theorem bar2Data {who : Ident} {a v : ℕ} (h : Keeps F r s)
    (hF : Part.within [.out] F) : Keeps F r (s.bar2Data who a v) :=
  h.andThen hF (.emit .refl rfl)

theorem bar2Miss (h : Keeps F r s)
    (hF : Part.within [.now, .regs] F) : Keeps F r (s.bar2Miss) :=
  h.andThen hF (.count .refl rfl)

theorem bar2Refused (h : Keeps F r s)
    (hF : Part.within [.now, .regs] F) : Keeps F r (s.bar2Refused) :=
  h.andThen hF (.mbxErr (.count .refl rfl) rfl)

theorem imageBytes {who : Ident} {a n : ℕ} (h : Keeps F r s)
    (hF : Part.within [.now, .free, .regs, .ave, .notices, .out] F) : Keeps F r (s.imageBytes who a n) := by
  refine h.andThen hF ?_
  unfold State.imageBytes
  dsimp only
  refine .ite ?_ ?_
  · exact .ite (.askRemote .refl rfl) (.bar2Data (.imgErr .refl rfl) rfl)
  · exact .bar2Data (.foldl_snd .refl (fun _ _ h1 => .imgRead h1 rfl)) rfl

theorem dramRead {who : Ident} {a v n : ℕ} (h : Keeps F r s)
    (hF : Part.within [.now, .free, .regs, .out] F) : Keeps F r (s.dramRead who a v n) :=
  h.andThen hF (.ite (.bar2Data (.draw (.through .refl (fun _ h1 => h1) rfl) rfl) rfl) (.bar2Data .refl rfl))

theorem bar2Read {who : Ident} {a n : ℕ} (h : Keeps F r s)
    (hF : Part.within [.now, .free, .regs, .districts, .ave, .notices, .out] F) : Keeps F r (s.bar2Read who a n) := by
  refine h.andThen hF ?_
  unfold State.bar2Read
  dsimp only
  split
  · exact .ite (.bar2Data .refl rfl) (.bar2Data (.draw .refl rfl) rfl)
  · exact .bind (fun h1 => .bar2Data ((.ite (.sramErrorSeen h1 rfl) h1)) rfl) (.sramScrub .refl rfl)
  · exact .bar2Data .refl rfl
  · exact .bar2Data .refl rfl
  · exact .dramRead .refl rfl
  · exact .imageBytes .refl rfl
  · exact .dramRead .refl rfl
  · exact .bar2Data (.bar2Miss .refl rfl) rfl

theorem bar2Point {who : Ident} {p o n v : ℕ} (h : Keeps F r s)
    (hF : Part.within [.now, .regs, .leases, .engines, .ave, .red, .img] F) : Keeps F r (s.bar2Point who p o n v) :=
  h.andThen hF (.ite (.imgStore .refl rfl) (.setFlag .refl rfl))

theorem bar2Write {who : Ident} {a n v : ℕ} (h : Keeps F r s)
    (hF : Part.within [.now, .regs, .leases, .bootMem, .engines, .sram, .districts, .ave, .red, .hostMem, .img] F)
        : Keeps F r (s.bar2Write who a n v) := by
  refine h.andThen hF ?_
  unfold State.bar2Write
  dsimp only
  split
  · exact .ite (.with_bootMem .refl (Mem.wf_writeLE _ _ _) rfl) (.bar2Refused .refl rfl)
  · exact .ite (.sramStore .refl rfl) (.bar2Refused (.count .refl rfl) rfl)
  · exact .ite (.setEngData .refl (fun ⟨hData, hInstr, hG⟩ => ⟨Mem.wf_writeLE _ _ _ hData, hInstr, hG⟩) rfl rfl)
      (.bar2Refused .refl rfl)
  · exact .through .refl (fun _ h1 => .with_hostMem h1 (Mem.wf_writeLE _ _ _) rfl) rfl
  · exact .bar2Point .refl rfl
  · exact .bar2Refused .refl rfl
  · exact .bar2Refused .refl rfl
  · exact .bar2Miss .refl rfl

theorem answerRead {r' : HostRead} (h : Keeps F r s)
    (hF : Part.within [.now, .free, .regs, .districts, .ave, .srus, .latch, .notices, .out] F)
        : Keeps F r (s.answerRead r') :=
  h.andThen hF (.ite (.bar2Read .refl rfl) (.emit (.readRegs .refl rfl) rfl))

theorem spiError (h : Keeps F r s)
    (hF : Part.within [.now, .regs] F) : Keeps F r (s.spiError) :=
  h.andThen hF (.count .refl rfl)

theorem spiWrites {a : Nat} {ws : List Word} (h : Keeps F r s)
    (hF : Part.within [.now, .free, .regs, .shadow, .leases, .porstLow, .coreReset, .modeCmd, .bootSel, .bootMem,
        .syncs, .merges, .engines, .sram, .gregs, .msixTab, .msixPba, .districts, .ave, .tb, .red, .xing, .ports,
            .txTurn, .hostMem, .cans, .serials, .mram, .keyHash, .nv, .sup, .pkg, .jtag, .img, .hostReads, .curve,
                .srus, .channels, .island, .latch, .clockLost, .nfn, .notices, .out] F) :
    Keeps F r (s.spiWrites a ws) := by
  refine h.andThen hF ?_
  clear h
  induction ws generalizing s a with
  | nil => exact .refl
  | cons w ws ih => exact (Keeps.writeReg .refl rfl).trans ih

theorem spiReads {a n : Nat} {out : List Byte} (h : Keeps F r s) (hF : Part.within [.now, .regs, .srus, .latch] F) :
    Keeps F r (s.spiReads a out n).2 := by
  refine h.andThen hF ?_
  clear h
  induction n generalizing s a out with
  | zero => exact .refl
  | succ n ih => exact (Keeps.readReg .refl rfl).trans ih

theorem hostRead {r' : HostRead} (h : Keeps F r s)
    (hF : Part.within [.now, .free, .regs, .districts, .ave, .hostReads, .srus, .latch, .notices, .out] F)
        : Keeps F r (s.hostRead r') :=
  h.andThen hF (.ite (.with_hostReads .refl rfl) (.answerRead .refl rfl))

theorem answerReads (h : Keeps F r s)
    (hF : Part.within [.now, .free, .regs, .districts, .ave, .hostReads, .srus, .latch, .notices, .out] F)
        : Keeps F r (s.answerReads) :=
  h.andThen hF (.foldl (.with_hostReads .refl rfl) (fun _ _ h1 => .hostRead h1 rfl))

theorem upset {x' : Upset} (h : Keeps F r s)
    (hF : Part.within [.districts, .img] F) : Keeps F r (s.upset x') := by
  refine h.andThen hF ?_
  unfold State.upset
  dsimp only
  split
  · exact .ite .refl (.ite (.setDist .refl rfl rfl) (.setDist .refl rfl rfl))
  · exact .ite .refl (.setPoint .refl rfl)

theorem execBar2Read {who : Ident} {a : ℕ} {x : Bar2Span} (h : Keeps F r s)
    {t : State} (ht : execBar2Read who a x s = .next t)
        (hF : Part.within [.now, .free, .regs, .districts, .ave, .img, .hostReads, .srus, .latch, .notices, .out] F)
            : Keeps F r t :=
  h.andThen hF (.ofNext ht (.live .refl (fun _ h1 => .overHclk (.foldl h1 (fun _ _ h2 => .upset h2 rfl))
      (fun _ h2 => .ite (.hostRead h2 rfl) h2) rfl)))

theorem execRegisterRead {who : Ident} {a n : ℕ} (h : Keeps F r s)
    {t : State} (ht : execRegisterRead who a n s = .next t)
        (hF : Part.within [.now, .free, .regs, .districts, .ave, .hostReads, .srus, .latch, .notices, .out] F)
            : Keeps F r t :=
  h.andThen hF (.ofNext ht (.live .refl (fun _ h1 => .overHclk h1 (fun _ h2 => .hostRead h2 rfl) rfl)))

theorem execBar2Write {who : Ident} {a n v : ℕ} (h : Keeps F r s)
    {t : State} (ht : execBar2Write who a n v s = .next t)
        (hF : Part.within [.now, .regs, .leases, .bootMem, .engines, .sram, .districts, .ave, .red, .hostMem, .img] F)
            : Keeps F r t :=
  h.andThen hF (.ofNext ht (.live .refl (fun _ h1 => .overHclk h1 (fun _ h2 => .ite (.bar2Write h2 rfl) h2) rfl)))

theorem execSpiWrite {cmd : BitVec 8} {a : ℕ} {words : List Word} {cut : Bool} (h : Keeps F r s)
    {t : State} (ht : execSpiWrite cmd a words cut s = .next t)
        (hF : Part.within [.now, .free, .regs, .shadow, .leases, .porstLow, .coreReset, .modeCmd, .bootSel, .bootMem,
            .syncs, .merges, .engines, .sram, .gregs, .msixTab, .msixPba, .districts, .ave, .tb, .red, .xing, .ports,
                .txTurn, .hostMem, .cans, .serials, .mram, .keyHash, .nv, .sup, .pkg, .jtag, .img, .hostReads, .curve,
                    .srus, .channels, .island, .latch, .clockLost, .nfn, .notices, .out] F) : Keeps F r t :=
  h.andThen hF (.ofNext ht (.live .refl (fun _ h1 => .ite (.spiError h1 rfl) (.ite (.spiError
      (.spiWrites h1 rfl) rfl) (.spiWrites h1 rfl)))))

theorem execSpiRead {cmd : BitVec 8} {a n : ℕ} {cut : Bool} (h : Keeps F r s)
    {t : State} (ht : execSpiRead cmd a n cut s = .next t) (hF : Part.within [.now, .regs, .srus, .latch, .out] F)
        : Keeps F r t :=
  h.andThen hF (.ofNext ht (.live .refl (fun _ h1 => .ite (.spiError h1 rfl) (.ite (.spiError (.emit
      (.spiReads h1 rfl) rfl) rfl) (.emit (.spiReads h1 rfl) rfl)))))

theorem watchdogs (h : Keeps F r s)
    (hF : Part.within [.engines] F) : Keeps F r (s.watchdogs) :=
  h.andThen hF (.foldl .refl (fun _ _ h1 => .ite (.setEng h1 ⟨rfl, rfl, rfl⟩ rfl) h1))

theorem absentNoted {a : ℕ} {w : Bool} (h : Keeps F r s)
    (hF : Part.within [.now] F) : Keeps F r (s.absentNoted a w) :=
  h.andThen hF (.with_now .refl rfl)

theorem absentCleared {x : Word} (h : Keeps F r s)
    (hF : Part.within [.now, .regs] F) : Keeps F r (s.absentCleared x) :=
  h.andThen hF (.setReg (.with_now .refl rfl) rfl)

theorem nvTaken (h : Keeps F r s)
    (hF : Part.within [.now] F) : Keeps F r (s.nvTaken) :=
  h.andThen hF (.with_now .refl rfl)

theorem monitorSet {m : ℕ} (h : Keeps F r s)
    (hF : Part.within [.now, .regs, .notices] F) : Keeps F r (s.monitorSet m) :=
  h.andThen hF (.notify (.count (.setFlag (.setFlag (.setFlag .refl rfl) rfl) rfl) rfl) rfl)

theorem monitorsReleased (h : Keeps F r s)
    (hF : Part.within [.now, .regs] F) : Keeps F r (s.monitorsReleased) :=
  h.andThen hF (.setFlag (.setFlag (.setFlag (.setFlag .refl rfl) rfl) rfl) rfl)

theorem offerRefused (h : Keeps F r s)
    (hF : Part.within [.sup] F) : Keeps F r (s.offerRefused) :=
  h.andThen hF (.with_sup .refl rfl)

theorem forgetRefused (h : Keeps F r s)
    (hF : Part.within [.now] F) : Keeps F r (s.forgetRefused) :=
  h.andThen hF (.with_now .refl rfl)

end Sys2Proof.Machine.Keeps
end

section
/-!
SUPPORT. The parts of the block that each command may change, and that a step keeps the memories' form.
-/

namespace Sys2Proof.Machine

/-- Every part of the block. -/
def Part.all : List Part :=
  [.now, .free, .regs, .shadow, .leases, .porstLow, .coreReset, .modeCmd, .bootSel, .bootMem, .syncs, .merges,
   .engines, .sram, .gregs, .msixTab, .msixPba, .districts, .ave, .tb, .red, .xing, .ports, .txTurn, .hostMem,
   .cans, .serials, .mram, .keyHash, .nv, .sup, .pkg, .jtag, .img, .hostReads, .curve, .srus, .channels, .island,
   .latch, .clockLost, .nfn, .notices, .out]

/-- The parts of the block that a command may change. -/
def commandParts : Instr → List Part
  | .absentWindowAccess .. | .bankSyncDone | .xingTblRead .. | .timeSnap .. | .clearSweepDone | .selfCheckFailure ..
    | .mbxHrxHead .. | .mbxHtxTail .. | .mbxHostCfg .. | .slewingEnd =>
    [.now, .regs]
  | .registerWrite .. | .powerOnReset | .resetPin .. | .brownOut | .supervisorLockstepMismatch
    | .supervisorWatchdogExpiry | .clockLossOfLock .. | .softReset .. | .ld .. | .lds .. | .st .. | .sti ..
    | .movs .. | .fill .. | .scan .. | .cmps .. | .crcs .. | .wait .. | .fence .. | .dbell .. | .swp .. | .cas ..
    | .fadd .. | .fand .. | .fetchOr .. | .fxor .. | .casx .. | .postedStoreCompletion .. | .eventEntry ..
    | .spiWrite .. | .porstN =>
    Part.all
  | .shadowWrite .. =>
    [.now, .regs, .shadow, .engines]
  | .perstN | .hotReset =>
    [.now, .regs, .shadow, .leases, .engines, .msixPba, .districts, .ave, .xing, .ports, .cans, .img,
    .hostReads, .channels, .island, .nfn, .notices]
  | .functionLevelReset .. =>
    [.now, .regs, .shadow, .leases, .engines, .msixPba, .districts, .ave, .xing, .ports, .cans, .img,
    .hostReads, .channels, .island, .notices]
  | .clockLockReturn .. =>
    [.now, .regs, .clockLost]
  | .forcedLoad .. | .enterCommissionComplete =>
    [.now, .regs, .modeCmd, .engines, .msixPba, .ave, .red, .xing, .ports, .cans, .serials, .notices, .out]
  | .synchroniserAcknowledge .. =>
    [.now, .regs, .syncs, .engines, .tb, .ports, .cans, .notices]
  | .bootAttempt .. =>
    [.now, .free, .regs, .notices]
  | .hostPush .. | .eventLineArrival .. | .ceWdogKick .. | .ceWdog .. | .ethSnap .. | .boffRecover ..
    | .tsqRelease .. | .latch .. | .sruCtrl .. =>
    [.now, .regs, .engines]
  | .supervisorStart =>
    [.now, .regs, .engines, .sram, .districts]
  | .enterLoad .. | .enterCommission .. | .enterRun .. | .safeAck .. =>
    [.now, .regs, .modeCmd, .engines, .msixPba, .ave, .red, .xing, .ports, .cans, .serials, .island, .notices,
    .out]
  | .enterRunEvaluation =>
    [.now, .regs, .modeCmd, .msixPba, .ave, .out]
  | .safeStopReport =>
    [.now, .regs, .island]
  | .begin .. | .rollback .. | .txnApply .. =>
    [.now, .regs, .shadow, .leases, .engines, .msixPba, .districts, .ave, .xing, .ports, .cans, .serials, .img,
    .channels, .island, .notices, .out]
  | .commit .. =>
    [.now, .regs, .shadow, .leases, .engines, .msixPba, .districts, .ave, .red, .xing, .ports, .cans, .serials,
    .img, .channels, .island, .notices, .out]
  | .nop .. | .b .. | .bz .. | .bnz .. | .br .. | .ret .. | .mts .. | .trap .. | .illegal .. | .fetchAccess ..
    | .watchdogExpiry .. =>
    [.regs, .engines, .notices]
  | .mov .. | .movi .. | .add .. | .sub .. | .addc .. | .subb .. | .addv .. | .subv .. | .mul .. | .mulh ..
    | .mulhu .. | .div .. | .divu .. | .rem .. | .remu .. | .satadd .. | .neg .. | .negv .. | .addi .. | .andi ..
    | .ori .. | .xori .. | .shli .. | .shri .. | .sari .. | .roli .. | .roti .. | .muli .. | .ceqi .. | .clti ..
    | .cltui .. | .sataddi .. | .and .. | .or .. | .xor .. | .andn .. | .not .. | .shl .. | .shr .. | .sar ..
    | .rol .. | .rot .. | .ceq .. | .cne .. | .clt .. | .cltu .. | .cge .. | .cgeu .. | .sel .. | .bfx .. | .bfi ..
    | .clz .. | .popc .. | .bswap .. | .lea .. | .call .. | .callr .. | .stmp .. | .rndrd .. | .mfs .. | .rete .. =>
    [.regs, .engines, .gregs, .notices]
  | .tsqp .. =>
    [.now, .regs, .engines, .gregs, .tb, .notices]
  | .srup .. =>
    [.now, .regs, .engines, .gregs, .srus, .notices]
  | .rndwr .. =>
    [.regs, .engines, .districts, .red, .notices]
  | .rndop .. =>
    [.now, .regs, .engines, .districts, .notices]
  | .evt .. =>
    [.now, .regs, .engines, .notices]
  | .lease .. | .release .. =>
    [.now, .regs, .leases, .engines, .gregs, .ave, .notices]
  | .heldResultArrival .. =>
    [.now, .free, .regs, .leases, .engines, .districts, .ave, .cans, .srus, .latch, .notices]
  | .engineStart .. =>
    [.now, .regs, .engines, .gregs]
  | .engineHoldReset .. | .reclaim .. =>
    [.now, .regs, .shadow, .leases, .engines, .districts, .ave, .xing, .ports, .cans, .img, .channels, .island,
    .notices]
  | .leaseMessage .. | .slotFrameReceipt .. | .engine .. | .slice .. | .frame .. | .image .. | .mailbox ..
    | .lantern .. | .super .. =>
    [.now, .free, .regs, .leases, .engines, .gregs, .msixPba, .districts, .ave, .red, .xing, .img, .channels,
    .island, .notices, .out]
  | .roundStart .. =>
    [.now, .regs, .shadow, .leases, .engines, .districts, .ave, .red, .xing, .ports, .cans, .serials, .img,
    .channels, .island, .notices]
  | .roundRun .. =>
    [.now, .regs, .districts]
  | .roundStop .. =>
    [.now, .regs, .shadow, .leases, .engines, .districts, .ave, .xing, .ports, .cans, .serials, .img, .channels,
    .island, .notices]
  | .avenueCycleStart =>
    [.now, .regs, .shadow, .leases, .modeCmd, .engines, .msixPba, .districts, .ave, .tb, .red, .xing, .ports,
    .cans, .serials, .notices, .out]
  | .staticSlot .. | .dynamicOffer | .relayFrame .. =>
    [.now, .regs, .ave, .out]
  | .claimMinislot .. =>
    [.ave, .out]
  | .ref .. =>
    [.now, .regs, .districts, .ave, .tb, .notices]
  | .claim .. | .claimEvaluation =>
    [.ave]
  | .aveGwPtr .. | .wilernEnable .. | .trainingStepDone .. | .wilernLinkDown .. | .claimTimeout =>
    [.now, .regs, .ave]
  | .coldstartTimeout =>
    [.now, .regs, .districts, .ave, .notices, .out]
  | .coldstartCheckEnd | .timeLock .. | .timeUnlock .. | .timeSwitch .. =>
    [.now, .regs, .notices]
  | .referenceMiss =>
    [.now, .regs, .ave, .notices]
  | .reint =>
    [.regs, .ave, .notices]
  | .trainingRetry .. =>
    [.regs, .ave]
  | .aveClaim .. | .aveClaimRelease .. =>
    [.now, .regs, .engines, .ave]
  | .receiveFrame .. =>
    [.now, .free, .regs, .msixPba, .xing, .ports, .out]
  | .ethRxSof .. =>
    [.now, .regs, .syncs, .merges, .engines, .tb, .ports]
  | .ethTxSof .. =>
    [.now, .regs, .syncs, .merges, .engines, .tb]
  | .classification =>
    [.now, .regs, .engines, .red, .xing, .notices]
  | .copyEnqueue | .gateWindowClose .. | .spillWriteDone .. | .lamplighterExamine =>
    [.now, .regs, .xing, .notices]
  | .destinationChoice .. | .transmitOpportunity .. =>
    [.now, .regs, .leases, .engines, .msixPba, .ave, .xing, .ports, .hostMem, .notices, .out]
  | .transmitEnd .. =>
    [.now, .regs, .msixPba, .xing, .ports, .notices, .out]
  | .gateEvent .. =>
    [.xing]
  | .spillReadBack .. =>
    [.now, .free, .regs, .xing, .notices]
  | .oldGenerationRetire | .xingTblWrite .. =>
    [.now, .regs, .xing]
  | .portEnable .. | .linkUp .. =>
    [.now, .regs, .engines, .xing, .ports, .notices]
  | .portDisable .. | .linkDown .. | .holdExpiry .. | .beaconReceipt .. | .beaconTimeout .. =>
    [.now, .regs, .engines, .msixPba, .xing, .ports, .notices, .out]
  | .plcaCycle .. =>
    [.ports, .out]
  | .collision .. =>
    [.now, .free, .regs, .msixPba, .xing, .ports, .notices, .out]
  | .backoffExpiry .. | .txTail .. =>
    [.ports]
  | .rxHead .. =>
    [.now, .regs, .leases, .xing, .ports, .notices]
  | .rxCtrl .. | .aptA .. =>
    [.engines, .ports]
  | .txDescriptor .. =>
    [.now, .free, .regs, .leases, .engines, .msixPba, .xing, .ports, .txTurn, .notices, .out]
  | .alloc .. =>
    [.free, .regs, .leases, .xing, .ports]
  | .thruFrame .. =>
    [.now, .regs, .msixPba, .xing, .ports, .out]
  | .patchWindowLoad .. =>
    [.engines, .gregs]
  | .patchArrival .. =>
    [.now, .regs, .engines, .msixPba, .ports, .out]
  | .canEnable .. | .canDisable .. | .integrationDone .. | .canRxid .. | .txRequest .. | .txCancel ..
    | .recoveryDone .. =>
    [.now, .regs, .engines, .cans]
  | .canSof .. =>
    [.now, .regs, .syncs, .merges, .engines, .tb, .cans]
  | .frameValid .. =>
    [.now, .regs, .engines, .red, .cans, .out]
  | .objectWord0Read .. | .objectWord19Read .. =>
    [.now, .regs, .leases, .engines, .cans]
  | .arbitrationChoice .. =>
    [.cans]
  | .attemptEnd .. | .busError .. =>
    [.now, .regs, .engines, .cans, .out]
  | .serEnable .. | .characterSent .. | .wurqEnd .. =>
    [.now, .regs, .engines, .serials, .out]
  | .characterReceived .. =>
    [.now, .regs, .syncs, .merges, .engines, .red, .serials]
  | .serTxTail .. | .wurq .. =>
    [.now, .regs, .serials, .out]
  | .serRxHead .. | .ssiPauseEnd .. =>
    [.now, .regs, .serials]
  | .gapT15 .. =>
    [.now, .regs, .syncs, .merges, .engines, .serials]
  | .gapT35 .. | .ssiStart .. =>
    [.now, .regs, .syncs, .merges, .engines, .serials, .out]
  | .ssiTransferDone .. =>
    [.now, .regs, .engines, .serials]
  | .pkgLoad .. =>
    [.now, .regs, .engines, .msixPba, .pkg, .out]
  | .pkgLoadComplete =>
    [.now, .regs, .shadow, .leases, .modeCmd, .engines, .sram, .gregs, .msixPba, .districts, .ave, .xing,
    .ports, .cans, .pkg, .img, .channels, .island, .notices, .out]
  | .pkgUnload .. =>
    [.now, .regs, .shadow, .leases, .engines, .sram, .msixPba, .districts, .ave, .xing, .ports, .cans, .img,
    .channels, .island, .notices, .out]
  | .timeInit .. | .timeRate .. | .timeDomCfg .. | .softwareHoldoverTimeout .. | .ppsMissingMeasurement .. =>
    [.now, .regs, .tb, .notices]
  | .timeStep .. | .tclkLockReturn =>
    [.now, .regs, .tb]
  | .timeCfg .. =>
    [.now, .regs, .tb, .notices, .out]
  | .ppsEdge .. =>
    [.now, .regs, .syncs, .merges, .engines, .tb, .notices]
  | .repeaterRefresh =>
    [.tb]
  | .timeOutArm .. =>
    [.now, .regs, .tb, .out]
  | .pulseLeadingEdge .. =>
    [.now, .regs, .engines, .tb, .out]
  | .pulseTrailingEdge .. =>
    [.tb, .out]
  | .directWrite .. =>
    [.now, .regs, .leases, .engines, .ave, .red, .img]
  | .writeSetAdd .. | .imgBegin .. | .imgCommit .. | .commitProcessing .. | .imgRollback .. | .pin .. | .unpin ..
    | .cowRecordsFreed | .cowWaitTimeout =>
    [.now, .regs, .leases, .engines, .red, .img]
  | .bar2Read .. =>
    [.now, .free, .regs, .districts, .ave, .img, .hostReads, .srus, .latch, .notices, .out]
  | .bar2Write .. =>
    [.now, .regs, .leases, .bootMem, .engines, .sram, .districts, .ave, .red, .hostMem, .img]
  | .settleComplete .. =>
    [.regs, .leases, .img]
  | .sampleProcessing .. =>
    [.now, .free, .regs, .leases, .engines, .red, .img, .curve, .srus, .notices]
  | .sruExport .. =>
    [.now, .regs, .leases, .engines, .red, .img, .srus]
  | .clear .. =>
    [.now, .regs, .engines, .srus]
  | .sruEosQRead .. =>
    [.now, .regs, .srus, .out]
  | .pair .. | .unpair .. =>
    [.now, .regs, .shadow, .leases, .engines, .districts, .ave, .red, .xing, .ports, .cans, .img, .channels,
    .island, .notices]
  | .resync .. =>
    [.now, .regs, .engines, .red]
  | .fail .. | .heartbeatPeriodEnd | .join .. | .restoreTimeout .. | .wilernHeartbeatTimeout .. =>
    [.now, .regs, .engines, .red, .notices]
  | .ckptLoad .. =>
    [.now, .regs, .engines, .districts]
  | .reclaimComplete .. =>
    [.now, .regs, .shadow, .leases, .engines, .gregs, .districts, .ave, .red, .xing, .ports, .cans, .img,
    .channels, .island, .notices]
  | .checkpointCopy =>
    [.now, .regs, .red, .nv, .sup]
  | .proxySerialFlush .. =>
    [.now, .regs, .red]
  | .hostTxDescriptor =>
    [.now, .free, .regs, .msixPba, .xing, .hostMem, .out]
  | .mbxSupNote .. | .mbxDbmask .. =>
    [.now, .regs, .engines, .msixPba, .out]
  | .spiRead .. =>
    [.now, .regs, .srus, .latch, .out]
  | .mbxOpen .. | .close .. | .revoke .. =>
    [.now, .regs, .leases, .ave, .channels, .island]
  | .send .. | .pduResend .. =>
    [.now, .regs, .engines, .msixPba, .ave, .red, .channels, .island, .out]
  | .ack .. | .mbxAbort .. | .modeMessage | .stage | .store .. | .blackChannelPdu .. =>
    [.now, .regs, .ave, .channels, .island]
  | .mbxRing .. =>
    [.now, .regs, .engines, .msixPba, .ave, .island, .out]
  | .islandSelfTestDone .. =>
    [.now, .free, .regs, .engines, .msixPba, .island, .notices, .out]
  | .islandCycle .. =>
    [.now, .free, .regs, .leases, .engines, .msixPba, .ave, .red, .channels, .island, .notices, .out]
  | .safeInputSample .. | .permitTimeout | .safeLowStoreBlock .. | .encoderSample .. =>
    [.island]
  | .modeLineBoot =>
    [.island, .out]
  | .connectionLoss .. =>
    [.channels, .island]
  | .channelReopen =>
    [.now, .leases, .channels]
  | .darkTest .. | .islandWatchdog | .lockstep | .brownout =>
    [.now, .regs, .engines, .msixPba, .island, .notices, .out]
  | .osc =>
    [.now, .regs, .engines, .msixPba, .island, .clockLost, .notices, .out]
  | .islandReset | .islandResetRelease =>
    [.regs, .island, .out]
  | .supplyMonitorAssert .. =>
    [.now, .regs, .nv, .sup, .notices]
  | .blockRelease =>
    [.now, .regs, .nv, .sup]
  | .vmonUpdate .. =>
    [.regs]
  | .nvRead .. =>
    [.now, .regs, .engines, .nv]
  | .nvWrite .. | .nvCopy .. | .otpKey .. | .otpRevoke .. | .otpFloor .. =>
    [.now, .regs, .engines, .nv, .sup]
  | .rowWriteDone =>
    [.now, .regs, .red, .mram, .nv, .sup]
  | .otpProgramDone =>
    [.now, .regs, .keyHash, .nv]
  | .bypass | .idcode | .samplePreload | .extest | .jtagTrstN .. =>
    [.jtag]
  | .registerRead .. =>
    [.now, .free, .regs, .districts, .ave, .hostReads, .srus, .latch, .notices, .out]
  | .coreResetRelease =>
    [.coreReset]
  | .rxIdleTime .. =>
    [.serials, .out]

theorem Part.within_self (F : List Part) : Part.within F F = true :=
  List.all_eq_true.mpr fun p hp => by simpa using hp

/-- A command changes no part beside its own, and the memories keep their form. -/
theorem exec_keeps {i : Instr} {s t : State} (ht : exec i s = .next t) : Keeps (commandParts i) s t := by
  cases i with
  | absentWindowAccess who a write => exact .execAbsentWindowAccess .refl ht (Part.within_self _)
  | registerWrite who a n v => exact .execRegisterWrite .refl ht (Part.within_self _)
  | shadowWrite who a v => exact .execShadowWrite .refl ht (Part.within_self _)
  | powerOnReset => exact .execPowerOnReset .refl ht (Part.within_self _)
  | resetPin ns => exact .execResetPin .refl ht (Part.within_self _)
  | brownOut => exact .execBrownOut .refl ht (Part.within_self _)
  | supervisorLockstepMismatch => exact .execSupervisorLockstepMismatch .refl ht (Part.within_self _)
  | supervisorWatchdogExpiry => exact .execSupervisorWatchdogExpiry .refl ht (Part.within_self _)
  | perstN => exact .execPerstN .refl ht (Part.within_self _)
  | hotReset => exact .execHotReset .refl ht (Part.within_self _)
  | functionLevelReset f => exact .execFunctionLevelReset .refl ht (Part.within_self _)
  | clockLossOfLock k => exact .execClockLossOfLock .refl ht (Part.within_self _)
  | clockLockReturn k => exact .execClockLockReturn .refl ht (Part.within_self _)
  | forcedLoad k => exact .execForcedLoad .refl ht (Part.within_self _)
  | synchroniserAcknowledge l => exact .execSynchroniserAcknowledge .refl ht (Part.within_self _)
  | bootAttempt flash readError => exact .execBootAttempt .refl ht (Part.within_self _)
  | hostPush who => exact .execHostPush .refl ht (Part.within_self _)
  | supervisorStart => exact .execSupervisorStart .refl ht (Part.within_self _)
  | enterLoad who tag arg => exact .execEnterLoad .refl ht (Part.within_self _)
  | enterCommission who tag arg => exact .execEnterCommission .refl ht (Part.within_self _)
  | enterCommissionComplete => exact .execEnterCommissionComplete .refl ht (Part.within_self _)
  | enterRun who tag arg => exact .execEnterRun .refl ht (Part.within_self _)
  | enterRunEvaluation => exact .execEnterRunEvaluation .refl ht (Part.within_self _)
  | safeAck who tag arg => exact .execSafeAck .refl ht (Part.within_self _)
  | softReset who tag arg => exact .execSoftReset .refl ht (Part.within_self _)
  | safeStopReport => exact .execSafeStopReport .refl ht (Part.within_self _)
  | begin u who => exact .execBegin .refl ht (Part.within_self _)
  | commit u who => exact .execCommit .refl ht (Part.within_self _)
  | rollback u who => exact .execRollback .refl ht (Part.within_self _)
  | txnApply u => exact .execTxnApply .refl ht (Part.within_self _)
  | nop e => exact .execNop .refl ht (Part.within_self _)
  | mov e wide d a => exact .execMov .refl ht (Part.within_self _)
  | movi e wide d imm => exact .execMovi .refl ht (Part.within_self _)
  | add e wide d a b => exact .execAdd .refl ht (Part.within_self _)
  | sub e wide d a b => exact .execSub .refl ht (Part.within_self _)
  | addc e wide d c a b => exact .execAddc .refl ht (Part.within_self _)
  | subb e wide d c a b => exact .execSubb .refl ht (Part.within_self _)
  | addv e wide d c a b => exact .execAddv .refl ht (Part.within_self _)
  | subv e wide d c a b => exact .execSubv .refl ht (Part.within_self _)
  | mul e wide d a b => exact .execMul .refl ht (Part.within_self _)
  | mulh e wide d a b => exact .execMulh .refl ht (Part.within_self _)
  | mulhu e wide d a b => exact .execMulhu .refl ht (Part.within_self _)
  | div e wide d a b => exact .execDiv .refl ht (Part.within_self _)
  | divu e wide d a b => exact .execDivu .refl ht (Part.within_self _)
  | rem e wide d a b => exact .execRem .refl ht (Part.within_self _)
  | remu e wide d a b => exact .execRemu .refl ht (Part.within_self _)
  | satadd e wide d a b => exact .execSatadd .refl ht (Part.within_self _)
  | neg e wide d a => exact .execNeg .refl ht (Part.within_self _)
  | negv e wide d c a => exact .execNegv .refl ht (Part.within_self _)
  | addi e wide d a imm => exact .execAddi .refl ht (Part.within_self _)
  | andi e wide d a imm ext => exact .execAndi .refl ht (Part.within_self _)
  | ori e wide d a imm ext => exact .execOri .refl ht (Part.within_self _)
  | xori e wide d a imm ext => exact .execXori .refl ht (Part.within_self _)
  | shli e wide d a k => exact .execShli .refl ht (Part.within_self _)
  | shri e wide d a k => exact .execShri .refl ht (Part.within_self _)
  | sari e wide d a k => exact .execSari .refl ht (Part.within_self _)
  | roli e wide d a k => exact .execRoli .refl ht (Part.within_self _)
  | roti e wide d a k => exact .execRoti .refl ht (Part.within_self _)
  | muli e wide d a imm ext => exact .execMuli .refl ht (Part.within_self _)
  | ceqi e wide d a imm ext => exact .execCeqi .refl ht (Part.within_self _)
  | clti e wide d a imm ext => exact .execClti .refl ht (Part.within_self _)
  | cltui e wide d a imm ext => exact .execCltui .refl ht (Part.within_self _)
  | sataddi e wide d a imm ext => exact .execSataddi .refl ht (Part.within_self _)
  | and e wide d a b => exact .execAnd .refl ht (Part.within_self _)
  | or e wide d a b => exact .execOr .refl ht (Part.within_self _)
  | xor e wide d a b => exact .execXor .refl ht (Part.within_self _)
  | andn e wide d a b => exact .execAndn .refl ht (Part.within_self _)
  | not e wide d a => exact .execNot .refl ht (Part.within_self _)
  | shl e wide d a b => exact .execShl .refl ht (Part.within_self _)
  | shr e wide d a b => exact .execShr .refl ht (Part.within_self _)
  | sar e wide d a b => exact .execSar .refl ht (Part.within_self _)
  | rol e wide d a b => exact .execRol .refl ht (Part.within_self _)
  | rot e wide d a b => exact .execRot .refl ht (Part.within_self _)
  | ceq e wide d a b => exact .execCeq .refl ht (Part.within_self _)
  | cne e wide d a b => exact .execCne .refl ht (Part.within_self _)
  | clt e wide d a b => exact .execClt .refl ht (Part.within_self _)
  | cltu e wide d a b => exact .execCltu .refl ht (Part.within_self _)
  | cge e wide d a b => exact .execCge .refl ht (Part.within_self _)
  | cgeu e wide d a b => exact .execCgeu .refl ht (Part.within_self _)
  | sel e wide d c a b => exact .execSel .refl ht (Part.within_self _)
  | bfx e wide d a field => exact .execBfx .refl ht (Part.within_self _)
  | bfi e wide d a field => exact .execBfi .refl ht (Part.within_self _)
  | clz e wide d a => exact .execClz .refl ht (Part.within_self _)
  | popc e wide d a => exact .execPopc .refl ht (Part.within_self _)
  | bswap e wide d a => exact .execBswap .refl ht (Part.within_self _)
  | ld e size sp d b disp => exact .execLd .refl ht (Part.within_self _)
  | lds e size sp d b disp => exact .execLds .refl ht (Part.within_self _)
  | st e size sp g b disp => exact .execSt .refl ht (Part.within_self _)
  | sti e size sp b disp imm => exact .execSti .refl ht (Part.within_self _)
  | lea e d b disp => exact .execLea .refl ht (Part.within_self _)
  | b e disp => exact .execB .refl ht (Part.within_self _)
  | bz e a disp => exact .execBz .refl ht (Part.within_self _)
  | bnz e a disp => exact .execBnz .refl ht (Part.within_self _)
  | call e disp => exact .execCall .refl ht (Part.within_self _)
  | br e a => exact .execBr .refl ht (Part.within_self _)
  | callr e a => exact .execCallr .refl ht (Part.within_self _)
  | ret e => exact .execRet .refl ht (Part.within_self _)
  | movs e size rep sp ds => exact .execMovs .refl ht (Part.within_self _)
  | fill e size rep sp a => exact .execFill .refl ht (Part.within_self _)
  | scan e size rep sp d a => exact .execScan .refl ht (Part.within_self _)
  | cmps e size rep sp d ds => exact .execCmps .refl ht (Part.within_self _)
  | crcs e size rep sp d table => exact .execCrcs .refl ht (Part.within_self _)
  | stmp e wide d => exact .execStmp .refl ht (Part.within_self _)
  | tsqp e d a b => exact .execTsqp .refl ht (Part.within_self _)
  | srup e d a => exact .execSrup .refl ht (Part.within_self _)
  | rndrd e d word => exact .execRndrd .refl ht (Part.within_self _)
  | rndwr e a word => exact .execRndwr .refl ht (Part.within_self _)
  | rndop e a field => exact .execRndop .refl ht (Part.within_self _)
  | wait e => exact .execWait .refl ht (Part.within_self _)
  | evt e a line => exact .execEvt .refl ht (Part.within_self _)
  | fence e => exact .execFence .refl ht (Part.within_self _)
  | dbell e a b => exact .execDbell .refl ht (Part.within_self _)
  | swp e wide d a b => exact .execSwp .refl ht (Part.within_self _)
  | cas e wide d a b => exact .execCas .refl ht (Part.within_self _)
  | fadd e wide d a b => exact .execFadd .refl ht (Part.within_self _)
  | fand e wide d a b => exact .execFand .refl ht (Part.within_self _)
  | fetchOr e wide d a b => exact .execFor .refl ht (Part.within_self _)
  | fxor e wide d a b => exact .execFxor .refl ht (Part.within_self _)
  | casx e wide d a b disp imm => exact .execCasx .refl ht (Part.within_self _)
  | mfs e d n => exact .execMfs .refl ht (Part.within_self _)
  | mts e n a => exact .execMts .refl ht (Part.within_self _)
  | rete e => exact .execRete .refl ht (Part.within_self _)
  | trap e code => exact .execTrap .refl ht (Part.within_self _)
  | lease e d a => exact .execLease .refl ht (Part.within_self _)
  | release e d a => exact .execRelease .refl ht (Part.within_self _)
  | illegal e => exact .execIllegal .refl ht (Part.within_self _)
  | fetchAccess e => exact .execFetchAccess .refl ht (Part.within_self _)
  | postedStoreCompletion e k => exact .execPostedStoreCompletion .refl ht (Part.within_self _)
  | heldResultArrival e k => exact .execHeldResultArrival .refl ht (Part.within_self _)
  | eventLineArrival e n => exact .execEventLineArrival .refl ht (Part.within_self _)
  | eventEntry e ab => exact .execEventEntry .refl ht (Part.within_self _)
  | watchdogExpiry e => exact .execWatchdogExpiry .refl ht (Part.within_self _)
  | ceWdogKick who e key => exact .execCeWdogKick .refl ht (Part.within_self _)
  | ceWdog who e v => exact .execCeWdog .refl ht (Part.within_self _)
  | engineStart who e => exact .execEngineStart .refl ht (Part.within_self _)
  | engineHoldReset who e => exact .execEngineHoldReset .refl ht (Part.within_self _)
  | leaseMessage m => exact .execLeaseMessage .refl ht (Part.within_self _)
  | roundStart d errors => exact .execRoundStart .refl ht (Part.within_self _)
  | roundRun d => exact .execRoundRun .refl ht (Part.within_self _)
  | roundStop d who => exact .execRoundStop .refl ht (Part.within_self _)
  | avenueCycleStart => exact .execAvenueCycleStart .refl ht (Part.within_self _)
  | staticSlot k => exact .execStaticSlot .refl ht (Part.within_self _)
  | slotFrameReceipt off bad => exact .execSlotFrameReceipt .refl ht (Part.within_self _)
  | claimMinislot c => exact .execClaimMinislot .refl ht (Part.within_self _)
  | dynamicOffer => exact .execDynamicOffer .refl ht (Part.within_self _)
  | ref m port => exact .execRef .refl ht (Part.within_self _)
  | claim c => exact .execClaim .refl ht (Part.within_self _)
  | engine m => exact .execEngine .refl ht (Part.within_self _)
  | slice m => exact .execSlice .refl ht (Part.within_self _)
  | frame m => exact .execFrame .refl ht (Part.within_self _)
  | image m => exact .execImage .refl ht (Part.within_self _)
  | mailbox m => exact .execMailbox .refl ht (Part.within_self _)
  | lantern m => exact .execLantern .refl ht (Part.within_self _)
  | super m => exact .execSuper .refl ht (Part.within_self _)
  | aveGwPtr d q v => exact .execAveGwPtr .refl ht (Part.within_self _)
  | coldstartTimeout => exact .execColdstartTimeout .refl ht (Part.within_self _)
  | coldstartCheckEnd => exact .execColdstartCheckEnd .refl ht (Part.within_self _)
  | referenceMiss => exact .execReferenceMiss .refl ht (Part.within_self _)
  | reint => exact .execReint .refl ht (Part.within_self _)
  | wilernEnable n => exact .execWilernEnable .refl ht (Part.within_self _)
  | trainingStepDone n t => exact .execTrainingStepDone .refl ht (Part.within_self _)
  | trainingRetry n => exact .execTrainingRetry .refl ht (Part.within_self _)
  | wilernLinkDown n => exact .execWilernLinkDown .refl ht (Part.within_self _)
  | relayFrame n origin f => exact .execRelayFrame .refl ht (Part.within_self _)
  | aveClaim slot l who => exact .execAveClaim .refl ht (Part.within_self _)
  | aveClaimRelease slot l who => exact .execAveClaimRelease .refl ht (Part.within_self _)
  | claimEvaluation => exact .execClaimEvaluation .refl ht (Part.within_self _)
  | claimTimeout => exact .execClaimTimeout .refl ht (Part.within_self _)
  | receiveFrame n bs align symbols => exact .execReceiveFrame .refl ht (Part.within_self _)
  | ethRxSof n => exact .execEthRxSof .refl ht (Part.within_self _)
  | ethTxSof n => exact .execEthTxSof .refl ht (Part.within_self _)
  | classification => exact .execClassification .refl ht (Part.within_self _)
  | copyEnqueue => exact .execCopyEnqueue .refl ht (Part.within_self _)
  | destinationChoice dest => exact .execDestinationChoice .refl ht (Part.within_self _)
  | transmitEnd n => exact .execTransmitEnd .refl ht (Part.within_self _)
  | gateEvent n => exact .execGateEvent .refl ht (Part.within_self _)
  | gateWindowClose q => exact .execGateWindowClose .refl ht (Part.within_self _)
  | spillWriteDone q => exact .execSpillWriteDone .refl ht (Part.within_self _)
  | spillReadBack q => exact .execSpillReadBack .refl ht (Part.within_self _)
  | oldGenerationRetire => exact .execOldGenerationRetire .refl ht (Part.within_self _)
  | bankSyncDone => exact .execBankSyncDone .refl ht (Part.within_self _)
  | xingTblRead who => exact .execXingTblRead .refl ht (Part.within_self _)
  | xingTblWrite who => exact .execXingTblWrite .refl ht (Part.within_self _)
  | lamplighterExamine => exact .execLamplighterExamine .refl ht (Part.within_self _)
  | portEnable n who => exact .execPortEnable .refl ht (Part.within_self _)
  | portDisable n who => exact .execPortDisable .refl ht (Part.within_self _)
  | linkUp n speed => exact .execLinkUp .refl ht (Part.within_self _)
  | linkDown n => exact .execLinkDown .refl ht (Part.within_self _)
  | holdExpiry n => exact .execHoldExpiry .refl ht (Part.within_self _)
  | plcaCycle n => exact .execPlcaCycle .refl ht (Part.within_self _)
  | transmitOpportunity n => exact .execTransmitOpportunity .refl ht (Part.within_self _)
  | beaconReceipt n => exact .execBeaconReceipt .refl ht (Part.within_self _)
  | beaconTimeout n => exact .execBeaconTimeout .refl ht (Part.within_self _)
  | collision n late => exact .execCollision .refl ht (Part.within_self _)
  | backoffExpiry n => exact .execBackoffExpiry .refl ht (Part.within_self _)
  | rxHead n e v => exact .execRxHead .refl ht (Part.within_self _)
  | rxCtrl n e v => exact .execRxCtrl .refl ht (Part.within_self _)
  | txTail n e v => exact .execTxTail .refl ht (Part.within_self _)
  | txDescriptor d => exact .execTxDescriptor .refl ht (Part.within_self _)
  | alloc n e v => exact .execAlloc .refl ht (Part.within_self _)
  | aptA n e l b v => exact .execAptA .refl ht (Part.within_self _)
  | thruFrame n rx => exact .execThruFrame .refl ht (Part.within_self _)
  | patchWindowLoad e => exact .execPatchWindowLoad .refl ht (Part.within_self _)
  | patchArrival n p bs => exact .execPatchArrival .refl ht (Part.within_self _)
  | ethSnap n who => exact .execEthSnap .refl ht (Part.within_self _)
  | canEnable n who => exact .execCanEnable .refl ht (Part.within_self _)
  | canDisable n who => exact .execCanDisable .refl ht (Part.within_self _)
  | integrationDone n => exact .execIntegrationDone .refl ht (Part.within_self _)
  | canSof n => exact .execCanSof .refl ht (Part.within_self _)
  | frameValid n f => exact .execFrameValid .refl ht (Part.within_self _)
  | objectWord0Read e n o => exact .execObjectWord0Read .refl ht (Part.within_self _)
  | objectWord19Read e n o => exact .execObjectWord19Read .refl ht (Part.within_self _)
  | canRxid n o v who => exact .execCanRxid .refl ht (Part.within_self _)
  | txRequest n t who => exact .execTxRequest .refl ht (Part.within_self _)
  | txCancel n t who => exact .execTxCancel .refl ht (Part.within_self _)
  | boffRecover n who => exact .execBoffRecover .refl ht (Part.within_self _)
  | arbitrationChoice n => exact .execArbitrationChoice .refl ht (Part.within_self _)
  | attemptEnd n how tdc => exact .execAttemptEnd .refl ht (Part.within_self _)
  | busError n err spot exempt more => exact .execBusError .refl ht (Part.within_self _)
  | recoveryDone n => exact .execRecoveryDone .refl ht (Part.within_self _)
  | serEnable n en who => exact .execSerEnable .refl ht (Part.within_self _)
  | characterReceived n part parity frame brk => exact .execCharacterReceived .refl ht (Part.within_self _)
  | serTxTail n e v => exact .execSerTxTail .refl ht (Part.within_self _)
  | serRxHead n e v => exact .execSerRxHead .refl ht (Part.within_self _)
  | characterSent n => exact .execCharacterSent .refl ht (Part.within_self _)
  | gapT15 n => exact .execGapT15 .refl ht (Part.within_self _)
  | gapT35 n => exact .execGapT35 .refl ht (Part.within_self _)
  | ssiStart n e => exact .execSsiStart .refl ht (Part.within_self _)
  | ssiTransferDone n bits => exact .execSsiTransferDone .refl ht (Part.within_self _)
  | wurq n e v => exact .execWurq .refl ht (Part.within_self _)
  | pkgLoad who e role tag => exact .execPkgLoad .refl ht (Part.within_self _)
  | pkgLoadComplete => exact .execPkgLoadComplete .refl ht (Part.within_self _)
  | pkgUnload who e tag => exact .execPkgUnload .refl ht (Part.within_self _)
  | timeInit x tag who => exact .execTimeInit .refl ht (Part.within_self _)
  | timeStep x tag who => exact .execTimeStep .refl ht (Part.within_self _)
  | timeRate x tag who => exact .execTimeRate .refl ht (Part.within_self _)
  | timeLock x tag who => exact .execTimeLock .refl ht (Part.within_self _)
  | timeUnlock x tag who => exact .execTimeUnlock .refl ht (Part.within_self _)
  | timeSwitch x tag who => exact .execTimeSwitch .refl ht (Part.within_self _)
  | timeSnap tag who => exact .execTimeSnap .refl ht (Part.within_self _)
  | timeCfg v who => exact .execTimeCfg .refl ht (Part.within_self _)
  | timeDomCfg x v => exact .execTimeDomCfg .refl ht (Part.within_self _)
  | softwareHoldoverTimeout x => exact .execSoftwareHoldoverTimeout .refl ht (Part.within_self _)
  | ppsEdge n falling => exact .execPpsEdge .refl ht (Part.within_self _)
  | ppsMissingMeasurement x => exact .execPpsMissingMeasurement .refl ht (Part.within_self _)
  | tclkLockReturn => exact .execTclkLockReturn .refl ht (Part.within_self _)
  | repeaterRefresh => exact .execRepeaterRefresh .refl ht (Part.within_self _)
  | tsqRelease d v who => exact .execTsqRelease .refl ht (Part.within_self _)
  | timeOutArm k v => exact .execTimeOutArm .refl ht (Part.within_self _)
  | pulseLeadingEdge k => exact .execPulseLeadingEdge .refl ht (Part.within_self _)
  | pulseTrailingEdge k => exact .execPulseTrailingEdge .refl ht (Part.within_self _)
  | directWrite who p v => exact .execDirectWrite .refl ht (Part.within_self _)
  | writeSetAdd who p v => exact .execWriteSetAdd .refl ht (Part.within_self _)
  | bar2Read who a x => exact .execBar2Read .refl ht (Part.within_self _)
  | bar2Write who a n v => exact .execBar2Write .refl ht (Part.within_self _)
  | clearSweepDone => exact .execClearSweepDone .refl ht (Part.within_self _)
  | imgBegin who recipe => exact .execImgBegin .refl ht (Part.within_self _)
  | imgCommit who t => exact .execImgCommit .refl ht (Part.within_self _)
  | commitProcessing whole => exact .execCommitProcessing .refl ht (Part.within_self _)
  | settleComplete t => exact .execSettleComplete .refl ht (Part.within_self _)
  | imgRollback who t => exact .execImgRollback .refl ht (Part.within_self _)
  | pin who => exact .execPin .refl ht (Part.within_self _)
  | unpin who k => exact .execUnpin .refl ht (Part.within_self _)
  | cowRecordsFreed => exact .execCowRecordsFreed .refl ht (Part.within_self _)
  | cowWaitTimeout => exact .execCowWaitTimeout .refl ht (Part.within_self _)
  | sampleProcessing d ecc => exact .execSampleProcessing .refl ht (Part.within_self _)
  | sruExport who d n => exact .execExport .refl ht (Part.within_self _)
  | clear who d n => exact .execClear .refl ht (Part.within_self _)
  | latch who d n => exact .execLatch .refl ht (Part.within_self _)
  | sruEosQRead who d => exact .execSruEosQRead .refl ht (Part.within_self _)
  | sruCtrl who d en => exact .execSruCtrl .refl ht (Part.within_self _)
  | selfCheckFailure d => exact .execSelfCheckFailure .refl ht (Part.within_self _)
  | pair who tag => exact .execPair .refl ht (Part.within_self _)
  | unpair who tag => exact .execUnpair .refl ht (Part.within_self _)
  | resync who tag => exact .execResync .refl ht (Part.within_self _)
  | reclaim who tag => exact .execReclaim .refl ht (Part.within_self _)
  | fail who tag => exact .execFail .refl ht (Part.within_self _)
  | ckptLoad who tag => exact .execCkptLoad .refl ht (Part.within_self _)
  | heartbeatPeriodEnd => exact .execHeartbeatPeriodEnd .refl ht (Part.within_self _)
  | reclaimComplete p m => exact .execReclaimComplete .refl ht (Part.within_self _)
  | join e => exact .execJoin .refl ht (Part.within_self _)
  | restoreTimeout p m => exact .execRestoreTimeout .refl ht (Part.within_self _)
  | checkpointCopy => exact .execCheckpointCopy .refl ht (Part.within_self _)
  | proxySerialFlush d k => exact .execProxySerialFlush .refl ht (Part.within_self _)
  | wilernHeartbeatTimeout p => exact .execWilernHeartbeatTimeout .refl ht (Part.within_self _)
  | hostTxDescriptor => exact .execHostTxDescriptor .refl ht (Part.within_self _)
  | mbxHrxHead who v => exact .execMbxHrxHead .refl ht (Part.within_self _)
  | mbxHtxTail who v => exact .execMbxHtxTail .refl ht (Part.within_self _)
  | mbxHostCfg who v => exact .execMbxHostCfg .refl ht (Part.within_self _)
  | mbxSupNote who v => exact .execMbxSupNote .refl ht (Part.within_self _)
  | spiWrite cmd a words cut => exact .execSpiWrite .refl ht (Part.within_self _)
  | spiRead cmd a n cut => exact .execSpiRead .refl ht (Part.within_self _)
  | mbxOpen who c depth dbit any allow => exact .execOpen .refl ht (Part.within_self _)
  | close who c => exact .execClose .refl ht (Part.within_self _)
  | revoke who c => exact .execRevoke .refl ht (Part.within_self _)
  | send who c len remote => exact .execSend .refl ht (Part.within_self _)
  | ack who c code => exact .execAck .refl ht (Part.within_self _)
  | mbxAbort who k => exact .execMbxAbort .refl ht (Part.within_self _)
  | mbxRing who t b => exact .execMbxRing .refl ht (Part.within_self _)
  | mbxDbmask who v => exact .execMbxDbmask .refl ht (Part.within_self _)
  | islandSelfTestDone how => exact .execIslandSelfTestDone .refl ht (Part.within_self _)
  | islandCycle readback err => exact .execIslandCycle .refl ht (Part.within_self _)
  | safeInputSample seals a b => exact .execSafeInputSample .refl ht (Part.within_self _)
  | modeMessage => exact .execModeMessage .refl ht (Part.within_self _)
  | permitTimeout => exact .execPermitTimeout .refl ht (Part.within_self _)
  | modeLineBoot => exact .execModeLineBoot .refl ht (Part.within_self _)
  | stage => exact .execStage .refl ht (Part.within_self _)
  | store readback => exact .execStore .refl ht (Part.within_self _)
  | blackChannelPdu valid up speed sto => exact .execBlackChannelPdu .refl ht (Part.within_self _)
  | connectionLoss c => exact .execConnectionLoss .refl ht (Part.within_self _)
  | pduResend c => exact .execPduResend .refl ht (Part.within_self _)
  | channelReopen => exact .execChannelReopen .refl ht (Part.within_self _)
  | darkTest k lowA lowB => exact .execDarkTest .refl ht (Part.within_self _)
  | islandWatchdog => exact .execIslandWatchdog .refl ht (Part.within_self _)
  | osc => exact .execOsc .refl ht (Part.within_self _)
  | lockstep => exact .execLockstep .refl ht (Part.within_self _)
  | safeLowStoreBlock low => exact .execSafeLowStoreBlock .refl ht (Part.within_self _)
  | brownout => exact .execBrownout .refl ht (Part.within_self _)
  | islandReset => exact .execIslandReset .refl ht (Part.within_self _)
  | islandResetRelease => exact .execIslandResetRelease .refl ht (Part.within_self _)
  | supplyMonitorAssert m => exact .execSupplyMonitorAssert .refl ht (Part.within_self _)
  | blockRelease => exact .execBlockRelease .refl ht (Part.within_self _)
  | vmonUpdate core sram nv io => exact .execVmonUpdate .refl ht (Part.within_self _)
  | nvRead who errs => exact .execNvRead .refl ht (Part.within_self _)
  | nvWrite who => exact .execNvWrite .refl ht (Part.within_self _)
  | nvCopy who rows => exact .execNvCopy .refl ht (Part.within_self _)
  | rowWriteDone => exact .execRowWriteDone .refl ht (Part.within_self _)
  | otpKey who => exact .execOtpKey .refl ht (Part.within_self _)
  | otpRevoke who => exact .execOtpRevoke .refl ht (Part.within_self _)
  | otpFloor who => exact .execOtpFloor .refl ht (Part.within_self _)
  | otpProgramDone => exact .execOtpProgramDone .refl ht (Part.within_self _)
  | bypass => exact .execBypass .refl ht (Part.within_self _)
  | idcode => exact .execIdcode .refl ht (Part.within_self _)
  | samplePreload => exact .execSamplePreload .refl ht (Part.within_self _)
  | extest => exact .execExtest .refl ht (Part.within_self _)
  | jtagTrstN low => exact .execJtagTrstN .refl ht (Part.within_self _)
  | registerRead who a n => exact .execRegisterRead .refl ht (Part.within_self _)
  | porstN => exact .execPorstN .refl ht (Part.within_self _)
  | coreResetRelease => exact .execCoreResetRelease .refl ht (Part.within_self _)
  | wurqEnd n => exact .execWurqEnd .refl ht (Part.within_self _)
  | ssiPauseEnd n => exact .execSsiPauseEnd .refl ht (Part.within_self _)
  | rxIdleTime n => exact .execRxIdleTime .refl ht (Part.within_self _)
  | encoderSample n a b z => exact .execEncoderSample .refl ht (Part.within_self _)
  | slewingEnd => exact .execSlewingEnd .refl ht (Part.within_self _)

/-! ### A step -/

/-- A cycle that passes: of variant, queue and count the last alone changes. -/
theorem tick_keeps (s : State) : Keeps Part.all { s with cycle := s.cycle + 1, now := {} } s.tick := by
  unfold State.tick
  exact .live .refl fun _ h => .answerReads (.endNvRead (.imgCycle (.judgeBeats (.finishThrus (.serCycles (.holdDynamic
    (.holdWindow (.roundCycles (.buildRef (.watchdogs (.timeCycle
        (.settleCans h rfl) rfl) rfl) rfl) rfl) rfl) rfl) rfl) rfl) rfl) rfl) rfl) rfl

theorem step_of_empty {s : State} (h : s.pending = []) : step s = .next s.tick := by
  unfold step
  rw [h]

theorem step_of_cons {s : State} {c : Instr} {rest : List Instr} (h : s.pending = c :: rest) :
    step s = exec c { s with pending := rest } := by
  unfold step
  rw [h]

end Sys2Proof.Machine
end

section
/-!
PROOF. O59: every step keeps the memories' canonical form and the variant, and takes one command off the queue.
-/

open Sys2Proof Sys2Proof.Machine Sys2Proof.Machine.State

/-- Settles O59: a command keeps the form by `exec_keeps`, from the lemma of each operation it is made of; a cycle by
`tick_keeps`. -/
theorem stepsKeepTheForm : Obligations.StepsKeepTheForm := by
  unfold Obligations.StepsKeepTheForm
  intro s t hForm ht
  cases hQueue : s.pending with
  | nil =>
    rw [step_of_empty hQueue] at ht
    cases ht
    have hTick := tick_keeps s
    exact ⟨hTick.form hForm, hTick.variant, hTick.pending.trans hQueue, by rw [if_pos rfl]; exact hTick.cycle⟩
  | cons c rest =>
    rw [step_of_cons hQueue] at ht
    have hExec := exec_keeps ht
    exact ⟨hExec.form hForm, hExec.variant, hExec.pending, by rw [if_neg (List.cons_ne_nil c rest)]; exact hExec.cycle⟩

end

section
/-!
PROOF. O57: a step runs the front of the queue, and every command answers.
-/

open Sys2Proof Sys2Proof.Machine Sys2Proof.Machine.State

/-- Settles O57. -/
theorem stepRunsTheFront : Obligations.StepRunsTheFront := by
  unfold Obligations.StepRunsTheFront
  refine ⟨fun s c rest => step_of_cons rfl, fun c s => ?_, fun s => step_of_empty⟩
  cases c <;> exact ⟨_, rfl⟩

end

section
/-!
SUPPORT. From `Keeps` to the frames of the commands' families; the registers of the engines that an instruction does not
run on.
-/

namespace Sys2Proof.Machine

/-- `s` with the parts listed taken from `t`. -/
def pick (F : List Part) (s t : State) : State :=
  { s with
    now := if F.contains .now then t.now else s.now
    free := if F.contains .free then t.free else s.free
    regs := if F.contains .regs then t.regs else s.regs
    shadow := if F.contains .shadow then t.shadow else s.shadow
    leases := if F.contains .leases then t.leases else s.leases
    porstLow := if F.contains .porstLow then t.porstLow else s.porstLow
    coreReset := if F.contains .coreReset then t.coreReset else s.coreReset
    modeCmd := if F.contains .modeCmd then t.modeCmd else s.modeCmd
    bootSel := if F.contains .bootSel then t.bootSel else s.bootSel
    bootMem := if F.contains .bootMem then t.bootMem else s.bootMem
    syncs := if F.contains .syncs then t.syncs else s.syncs
    merges := if F.contains .merges then t.merges else s.merges
    engines := if F.contains .engines then t.engines else s.engines
    msixTab := if F.contains .msixTab then t.msixTab else s.msixTab
    msixPba := if F.contains .msixPba then t.msixPba else s.msixPba
    districts := if F.contains .districts then t.districts else s.districts
    ave := if F.contains .ave then t.ave else s.ave
    tb := if F.contains .tb then t.tb else s.tb
    red := if F.contains .red then t.red else s.red
    xing := if F.contains .xing then t.xing else s.xing
    ports := if F.contains .ports then t.ports else s.ports
    txTurn := if F.contains .txTurn then t.txTurn else s.txTurn
    hostMem := if F.contains .hostMem then t.hostMem else s.hostMem
    cans := if F.contains .cans then t.cans else s.cans
    serials := if F.contains .serials then t.serials else s.serials
    mram := if F.contains .mram then t.mram else s.mram
    keyHash := if F.contains .keyHash then t.keyHash else s.keyHash
    nv := if F.contains .nv then t.nv else s.nv
    sup := if F.contains .sup then t.sup else s.sup
    pkg := if F.contains .pkg then t.pkg else s.pkg
    jtag := if F.contains .jtag then t.jtag else s.jtag
    img := if F.contains .img then t.img else s.img
    hostReads := if F.contains .hostReads then t.hostReads else s.hostReads
    curve := if F.contains .curve then t.curve else s.curve
    srus := if F.contains .srus then t.srus else s.srus
    channels := if F.contains .channels then t.channels else s.channels
    island := if F.contains .island then t.island else s.island
    latch := if F.contains .latch then t.latch else s.latch
    clockLost := if F.contains .clockLost then t.clockLost else s.clockLost
    nfn := if F.contains .nfn then t.nfn else s.nfn
    notices := if F.contains .notices then t.notices else s.notices
    out := if F.contains .out then t.out else s.out }

theorem pick_eq {α : Type} {c : Bool} {a b : α} (h : c = false → b = a) : b = if c then b else a := by
  cases c with
  | false => exact h rfl
  | true => rfl

/-- What changes the listed parts alone. -/
theorem Keeps.eq_pick {F : List Part} {s t : State} (h : Keeps F s t) : t = pick F s t := by
  cases s
  cases t
  rw [pick, State.mk.injEq]
  exact ⟨h.pending, h.variant, h.cycle, pick_eq (h.frame .now), pick_eq (h.frame .free), pick_eq (h.frame .regs),
    pick_eq (h.frame .shadow), pick_eq (h.frame .leases), pick_eq (h.frame .porstLow), pick_eq (h.frame .coreReset),
    pick_eq (h.frame .modeCmd), pick_eq (h.frame .bootSel), pick_eq (h.frame .bootMem), pick_eq (h.frame .syncs),
    pick_eq (h.frame .merges), pick_eq (h.frame .engines), pick_eq (h.frame .msixTab), pick_eq (h.frame .msixPba),
    pick_eq (h.frame .districts), pick_eq (h.frame .ave), pick_eq (h.frame .tb), pick_eq (h.frame .red), pick_eq
    (h.frame .xing), pick_eq (h.frame .ports), pick_eq (h.frame .txTurn), pick_eq (h.frame .hostMem), pick_eq
    (h.frame .cans), pick_eq (h.frame .serials), pick_eq (h.frame .mram), pick_eq (h.frame .keyHash), pick_eq
    (h.frame .nv), pick_eq (h.frame .sup), pick_eq (h.frame .pkg), pick_eq (h.frame .jtag), pick_eq (h.frame .img),
    pick_eq (h.frame .hostReads), pick_eq (h.frame .curve), pick_eq (h.frame .srus), pick_eq (h.frame .channels),
    pick_eq (h.frame .island), pick_eq (h.frame .latch), pick_eq (h.frame .clockLost), pick_eq (h.frame .nfn),
    pick_eq (h.frame .notices), pick_eq (h.frame .out)⟩

/-- A command changes no part outside those of its family. -/
theorem exec_keeps_of_mem {F : List Part} {l : List Instr} {i : Instr} {s t : State} (hi : i ∈ l)
    (hl : l.all (fun i => Part.within (commandParts i) F) = true) (ht : exec i s = .next t) : Keeps F s t :=
  Keeps.refl.andThen (List.all_eq_true.mp hl i hi) (exec_keeps ht)

/-! ### The general registers of the other engines -/

/-- The general registers of every engine but one are as they were. -/
def OtherRegs (e : Nat) (s t : State) : Prop := ∀ x, x ≠ e → (t.eng x).g = (s.eng x).g

namespace OtherRegs

variable {e : Nat} {r s t : State}

theorem refl : OtherRegs e s s := fun _ _ => rfl

/-- Nothing else than an engine's general registers changes them. -/
theorem step {F : List Part} (h : OtherRegs e r s) (hk : Keeps F s t) (hF : F.contains .gregs = false) :
    OtherRegs e r t :=
  fun x hx => (hk.frame .gregs hF x).trans (h x hx)

theorem ofNext {u : State} (ht : (.next u : Answer) = .next t)
    (h : OtherRegs e r u) : OtherRegs e r t := by cases ht; exact h

theorem ite {c : Prop} [Decidable c] (hs : OtherRegs e r s)
    (ht : OtherRegs e r t) : OtherRegs e r (if c then s else t) := by
  split
  · exact hs
  · exact ht

theorem setGreg {d : GReg} {v : Word} (h : OtherRegs e r s) : OtherRegs e r (s.setGreg e d v) := by
  intro x hx
  unfold State.setGreg
  split
  · exact h x hx
  · rw [State.eng_setEng_ne s _ hx]; exact h x hx

theorem goto {a : Word}
    (h : OtherRegs e r s) : OtherRegs e r (s.goto e a) := h.step (F := [.engines]) (.goto .refl rfl) rfl

theorem advance {len : Nat} (h : OtherRegs e r s) : OtherRegs e r (s.advance e len) := h.goto

theorem branch {len : Nat} {disp : Int} (h : OtherRegs e r s) : OtherRegs e r (s.branch e len disp) := h.goto

theorem wr {wide : Bool} {d : GReg} {v : Nat} (h : OtherRegs e r s) : OtherRegs e r (s.wr e wide d v) :=
  .ite (.ite h h.setGreg.setGreg) h.setGreg

theorem issue {f : Form} {body : State → State}
    (h : OtherRegs e r s) (hbody : ∀ u, OtherRegs e r u → OtherRegs e r (body u)) :
    OtherRegs e r (s.issue e f body) := by
  have hFault : OtherRegs e r (s.fetchFault e) := h.step (F := [.regs, .engines, .notices]) (.fetchFault .refl rfl) rfl
  refine .ite ?_ h
  split
  · exact .ite (h.step (F := [.regs, .engines, .notices]) (.illegal .refl rfl) rfl) hFault
  · exact .ite (hbody s h) hFault

section
variable {wide : Bool} {d c a b : GReg} {imm : Imm}

theorem alu2 {f : Nat → Nat → Nat} (h : OtherRegs e r s) : OtherRegs e r (s.alu2 e wide d a f) :=
  h.issue fun _ h => h.wr.advance

theorem alu3 {f : Nat → Nat → Nat → Nat} (h : OtherRegs e r s) : OtherRegs e r (s.alu3 e wide d a b f) :=
  h.issue fun _ h => h.wr.advance

theorem alu4 {f : Nat → Nat → Nat → Nat} {g : Nat → Nat → Nat → Bool} (h : OtherRegs e r s) :
    OtherRegs e r (s.alu4 e wide d c a b f g) :=
  h.issue fun _ h => h.wr.setGreg.advance

theorem aluImm {f : Nat → Nat → Nat → Nat} (h : OtherRegs e r s) : OtherRegs e r (s.aluImm e wide d a imm f) :=
  h.issue fun _ h => h.wr.advance

theorem shiftReg {f : Nat → Nat → Nat → Nat} (h : OtherRegs e r s) : OtherRegs e r (s.shiftReg e wide d a b f) :=
  h.issue fun _ h => h.wr.advance

theorem shiftImm {k : BitVec 8} {f : Nat → Nat → Nat → Nat}
    (h : OtherRegs e r s) : OtherRegs e r (s.shiftImm e wide d a k f) :=
  h.issue fun _ h => h.wr.advance

theorem compare {f : Nat → Nat → Nat → Bool} (h : OtherRegs e r s) : OtherRegs e r (s.compare e wide d a b f) :=
  h.issue fun _ h => h.setGreg.advance

theorem compareImm {f : Nat → Nat → Nat → Bool} (h : OtherRegs e r s) : OtherRegs e r (s.compareImm e wide d a imm f) :=
  h.issue fun _ h => h.setGreg.advance

theorem bitField {k : BitVec 16} {f : Nat → Nat → Nat → BitVec 16 → Nat} (h : OtherRegs e r s) :
    OtherRegs e r (s.bitField e wide d a k f) :=
  h.issue fun _ h => h.wr.advance

end

theorem popRecord (h : OtherRegs e r s) : OtherRegs e r (s.popRecord e) := by
  unfold State.popRecord
  split
  · exact h
  · exact (h.step (F := [.engines]) (.setEng .refl (by exact ⟨rfl, rfl, rfl⟩) rfl) rfl).setGreg.step (F := [.regs])
      (.setFld .refl rfl) rfl

/-- What RETE does where the entry stack holds a record, and where it holds none. -/
theorem returned (h : OtherRegs e r s) : OtherRegs e r
    (if (s.eng e).stack.isEmpty then s.illegal e 0xD 1
    else if (s.popRecord e).entryDue e then
      match ((s.popRecord e).eng e).returned with
      | some f => (s.popRecord e).takeEntry e f true
      | none => s.popRecord e
    else s.popRecord e) := by
  refine .ite (h.step (F := [.regs, .engines, .notices]) (.illegal .refl rfl) rfl) (.ite ?_ h.popRecord)
  split
  · exact h.popRecord.step (F := [.regs, .engines, .notices]) (.takeEntry .refl rfl) rfl
  · exact h.popRecord

theorem noMemFault {x : Exc} {a : Nat} (h : OtherRegs e r s) : OtherRegs e r (s.noMemFault e x a) :=
  h.step (F := [.regs, .engines, .notices]) (.noMemFault .refl rfl) rfl

theorem tsqPush {d k i c q n : Nat} {corr : Bool}
    (h : OtherRegs e r s) : OtherRegs e r (s.tsqPush d k i c q n corr).1 :=
  h.step (F := [.now, .regs, .engines, .tb]) (.tsqPush .refl rfl) rfl

theorem offerSample {ws : List Word} (h : OtherRegs e r s) : OtherRegs e r (s.offerSample e ws).2 :=
  h.step (F := [.now, .regs, .srus]) (.offerSample .refl rfl) rfl

theorem finishLease {d : GReg} {len handle code : Nat} {release : Bool} (h : OtherRegs e r s) :
    OtherRegs e r (s.finishLease e d len handle release code) :=
  (h.step (F := [.engines]) (.setEng .refl (by exact ⟨rfl, rfl, rfl⟩) rfl) rfl).setGreg.advance.step (F := [.now,
      .regs]) (.countCode .refl rfl) rfl

theorem leaseInstr {d a : GReg} {release : Bool}
    (h : OtherRegs e r s) : OtherRegs e r (s.leaseInstr e d a release) := by
  unfold State.leaseInstr
  split
  · exact h
  · exact h.finishLease
  · exact h
  · refine .ite h.noMemFault (.ite (.ite ?_ h.finishLease) (.finishLease ?_))
    · exact (h.step (F := [.engines]) (.setEng .refl (by exact ⟨rfl, rfl, rfl⟩) rfl) rfl).step (F := [.now, .regs,
        .leases, .engines, .ave, .notices]) (.sendLease .refl rfl) rfl
    · cases release
      · exact h.step (F := [.now, .regs, .leases, .engines, .ave, .notices]) (.takeLease .refl rfl) rfl
      · exact h.step (F := [.now, .regs, .leases, .engines, .ave, .notices]) (.giveLease .refl rfl) rfl

end OtherRegs

/-- An instruction of the first family leaves the general registers of the engines it does not run on. -/
theorem otherRegs_of_exec {s t : State} {e : Nat} {wide ext : Bool} {d c a b : GReg} {imm : Imm} {v : BitVec 16} {k : BitVec 8}
    {n : Fin 16} {disp : Disp} {far : BitVec 32} {i : Instr}
    (hi : i ∈ [Instr.nop e, .mov e wide d a, .movi e wide d imm, .add e wide d a b, .sub e wide d a b,
        .addc e wide d c a b,
      .subb e wide d c a b, .addv e wide d c a b, .subv e wide d c a b, .mul e wide d a b, .mulh e wide d a b,
      .mulhu e wide d a b, .div e wide d a b, .divu e wide d a b, .rem e wide d a b, .remu e wide d a b,
      .satadd e wide d a b, .neg e wide d a, .negv e wide d c a, .addi e wide d a imm, .andi e wide d a v ext,
      .ori e wide d a v ext, .xori e wide d a v ext, .shli e wide d a k, .shri e wide d a k, .sari e wide d a k,
      .roli e wide d a k, .roti e wide d a k, .muli e wide d a v ext, .ceqi e wide d a v ext, .clti e wide d a v ext,
      .cltui e wide d a v ext, .sataddi e wide d a v ext, .and e wide d a b, .or e wide d a b, .xor e wide d a b,
      .andn e wide d a b, .not e wide d a, .shl e wide d a b, .shr e wide d a b, .sar e wide d a b, .rol e wide d a b,
      .rot e wide d a b, .ceq e wide d a b, .cne e wide d a b, .clt e wide d a b, .cltu e wide d a b, .cge e wide d a b,
      .cgeu e wide d a b, .sel e wide d c a b, .bfx e wide d a v, .bfi e wide d a v, .clz e wide d a, .popc e wide d a,
      .bswap e wide d a, .lea e d b far, .b e disp, .bz e a disp, .bnz e a disp, .call e disp, .br e a, .callr e a,
      .ret e, .stmp e wide d, .rndrd e d k, .evt e a k, .mfs e d n, .mts e n a, .rete e, .trap e k, .illegal e,
      .fetchAccess e, .watchdogExpiry e, .tsqp e d a b, .srup e d a, .rndwr e a k, .rndop e a v, .lease e d a,
      .release e d a]) (ht : exec i s = .next t) :
    OtherRegs e s t := by
  have hs : OtherRegs e s s := .refl
  simp only [List.mem_cons, List.not_mem_nil, or_false] at hi
  rcases hi with rfl | rfl | rfl | rfl | rfl | rfl | rfl | rfl | rfl | rfl | rfl | rfl | rfl | rfl | rfl | rfl | rfl |
      rfl | rfl | rfl | rfl | rfl | rfl | rfl | rfl | rfl | rfl | rfl | rfl | rfl | rfl | rfl | rfl | rfl | rfl | rfl
      | rfl | rfl | rfl | rfl | rfl | rfl | rfl | rfl | rfl | rfl | rfl | rfl | rfl | rfl | rfl | rfl | rfl | rfl |
      rfl | rfl | rfl | rfl | rfl | rfl | rfl | rfl | rfl | rfl | rfl | rfl | rfl | rfl | rfl | rfl | rfl | rfl | rfl
      | rfl | rfl | rfl | rfl | rfl | rfl
  · exact .step hs (exec_keeps ht) rfl
  · exact .ofNext ht (.alu2 hs)
  · exact .ofNext ht (.issue hs fun _ h => .advance (.wr h))
  · exact .ofNext ht (.alu3 hs)
  · exact .ofNext ht (.alu3 hs)
  · exact .ofNext ht (.alu4 hs)
  · exact .ofNext ht (.alu4 hs)
  · exact .ofNext ht (.alu4 hs)
  · exact .ofNext ht (.alu4 hs)
  · exact .ofNext ht (.alu3 hs)
  · exact .ofNext ht (.alu3 hs)
  · exact .ofNext ht (.alu3 hs)
  · exact .ofNext ht (.alu3 hs)
  · exact .ofNext ht (.alu3 hs)
  · exact .ofNext ht (.alu3 hs)
  · exact .ofNext ht (.alu3 hs)
  · exact .ofNext ht (.alu3 hs)
  · exact .ofNext ht (.alu2 hs)
  · exact .ofNext ht (.issue hs fun _ h => .advance (.setGreg (.wr h)))
  · exact .ofNext ht (.aluImm hs)
  · exact .ofNext ht (.aluImm hs)
  · exact .ofNext ht (.aluImm hs)
  · exact .ofNext ht (.aluImm hs)
  · exact .ofNext ht (.shiftImm hs)
  · exact .ofNext ht (.shiftImm hs)
  · exact .ofNext ht (.shiftImm hs)
  · exact .ofNext ht (.shiftImm hs)
  · exact .ofNext ht (.shiftImm hs)
  · exact .ofNext ht (.aluImm hs)
  · exact .ofNext ht (.compareImm hs)
  · exact .ofNext ht (.compareImm hs)
  · exact .ofNext ht (.compareImm hs)
  · exact .ofNext ht (.aluImm hs)
  · exact .ofNext ht (.alu3 hs)
  · exact .ofNext ht (.alu3 hs)
  · exact .ofNext ht (.alu3 hs)
  · exact .ofNext ht (.alu3 hs)
  · exact .ofNext ht (.alu2 hs)
  · exact .ofNext ht (.shiftReg hs)
  · exact .ofNext ht (.shiftReg hs)
  · exact .ofNext ht (.shiftReg hs)
  · exact .ofNext ht (.shiftReg hs)
  · exact .ofNext ht (.shiftReg hs)
  · exact .ofNext ht (.compare hs)
  · exact .ofNext ht (.compare hs)
  · exact .ofNext ht (.compare hs)
  · exact .ofNext ht (.compare hs)
  · exact .ofNext ht (.compare hs)
  · exact .ofNext ht (.compare hs)
  · exact .ofNext ht (.issue hs fun _ h => .advance (.wr h))
  · exact .ofNext ht (.bitField hs)
  · exact .ofNext ht (.bitField hs)
  · exact .ofNext ht (.alu2 hs)
  · exact .ofNext ht (.alu2 hs)
  · exact .ofNext ht (.alu2 hs)
  · exact .ofNext ht (.issue hs fun _ h => .advance (.setGreg h))
  · exact .step hs (exec_keeps ht) rfl
  · exact .step hs (exec_keeps ht) rfl
  · exact .step hs (exec_keeps ht) rfl
  · exact .ofNext ht (.issue hs fun _ h => .branch (.setGreg h))
  · exact .step hs (exec_keeps ht) rfl
  · exact .ofNext ht (.issue hs fun _ h => .goto (.setGreg h))
  · exact .step hs (exec_keeps ht) rfl
  · exact .ofNext ht (.issue hs fun _ h => .advance (.wr h))
  · exact .ofNext ht (.issue hs fun _ h => .advance (.setGreg h))
  · exact .step hs (exec_keeps ht) rfl
  · exact .ofNext ht (.issue hs fun _ h => .advance (.setGreg h))
  · exact .step hs (exec_keeps ht) rfl
  · exact .ofNext ht (.issue hs fun _ h => .returned h)
  · exact .step hs (exec_keeps ht) rfl
  · exact .step hs (exec_keeps ht) rfl
  · exact .step hs (exec_keeps ht) rfl
  · exact .step hs (exec_keeps ht) rfl
  · exact .ofNext ht (.issue hs fun _ h => .advance (.setGreg h.tsqPush))
  · exact .ofNext ht (.issue hs fun _ h => .ite h.noMemFault (.ite h.noMemFault (.advance (.setGreg h.offerSample))))
  · exact .step hs (exec_keeps ht) rfl
  · exact .step hs (exec_keeps ht) rfl
  · exact .ofNext ht (.issue hs fun _ h => .leaseInstr h)
  · exact .ofNext ht (.issue hs fun _ h => .leaseInstr h)

end Sys2Proof.Machine
end

section
/-!
PROOF. O60: what the commands of each family leave alone.
-/

open Sys2Proof Sys2Proof.Machine Sys2Proof.Machine.State

/-- Settles O60: the parts that each command may change, `commandParts`, stand in its family's. -/
theorem commandFrames : Obligations.CommandFrames := by
  unfold Obligations.CommandFrames
  intro s t
  refine ⟨?_, ?_, ?_, ?_, ?_, ?_, ?_, ?_, ?_, ?_, ?_, ?_, ?_⟩
  · intro e wide ext d c a b imm v k n disp far i hi ht
    have hKeeps : Keeps [.now, .regs, .engines, .notices, .tb, .srus, .districts, .red, .leases, .ave, .gregs] s t := 
      exec_keeps_of_mem hi rfl ht
    exact ⟨hKeeps.eq_pick, hKeeps.frame .sram rfl, otherRegs_of_exec hi ht⟩
  · intro who e n v key i hi ht
    have hKeeps : Keeps [.now, .regs, .engines, .sram, .gregs] s t := exec_keeps_of_mem hi rfl ht
    exact hKeeps.eq_pick
  · intro who x n d k tag v falling i hi ht
    have hKeeps : Keeps [.now, .regs, .engines, .tb, .notices, .out, .syncs, .merges, .sram, .gregs] s t
        := exec_keeps_of_mem hi rfl ht
    exact hKeeps.eq_pick
  · intro who n e o k more tdc v f how err spot exempt i hi ht
    have hKeeps : Keeps [.now, .regs, .engines, .cans, .leases, .red, .out, .sram, .gregs] s t
        := exec_keeps_of_mem hi rfl ht
    exact hKeeps.eq_pick
  · intro who n e v en parity frame brk part bits w i hi ht
    have hKeeps : Keeps [.now, .regs, .engines, .serials, .red, .out, .syncs, .merges, .sram, .gregs] s t
        := exec_keeps_of_mem hi rfl ht
    exact hKeeps.eq_pick
  · intro who p v k recipe whole i hi ht
    have hKeeps : Keeps [.now, .regs, .engines, .img, .leases, .shadow, .red, .xing, .sram, .gregs] s t
        := exec_keeps_of_mem hi rfl ht
    exact hKeeps.eq_pick
  · intro who n origin slot l port c f step i hi ht
    have hKeeps : Keeps [.now, .regs, .engines, .ave, .notices, .out, .sram, .gregs] s t := exec_keeps_of_mem hi rfl ht
    exact hKeeps.eq_pick
  · intro who n q i hi ht
    have hKeeps : Keeps [.now, .regs, .xing, .shadow, .leases, .free, .notices, .sram, .gregs] s t
        := exec_keeps_of_mem hi rfl ht
    exact hKeeps.eq_pick
  · intro n e l v b w i hi ht
    have hKeeps : Keeps [.now, .regs, .engines, .ports, .xing, .leases, .free, .notices, .out, .sram, .gregs] s t
        := exec_keeps_of_mem hi rfl ht
    exact hKeeps.eq_pick
  · intro who d n en i hi ht
    have hKeeps : Keeps [.now, .regs, .engines, .srus, .out, .sram, .gregs] s t := exec_keeps_of_mem hi rfl ht
    exact hKeeps.eq_pick
  · intro who allow c depth b any v i hi ht
    have hKeeps : Keeps [.now, .regs, .engines, .leases, .channels, .ave, .island, .msixPba, .out, .sram, .gregs] s t
        := exec_keeps_of_mem hi rfl ht
    exact hKeeps.eq_pick
  · intro seals pa pb n za zb zz la lb low how i hi ht
    have hKeeps : Keeps [.now, .regs, .engines, .island, .msixPba, .mram, .notices, .out, .free, .sram, .gregs] s t
        := exec_keeps_of_mem hi rfl ht
    exact hKeeps.eq_pick
  · intro who m rows core sram nv io errs low i hi ht
    have hKeeps : Keeps [.now, .regs, .engines, .nv, .sup, .red, .mram, .keyHash, .jtag, .notices, .sram, .gregs] s t
        := exec_keeps_of_mem hi rfl ht
    exact hKeeps.eq_pick

end

section
/-!
PROOF. O58: what reset leaves.
-/

open Sys2Proof Sys2Proof.Machine Sys2Proof.Machine.State

/-- Settles O58: every value is read off `State.reset`, whose memories list nothing. -/
theorem afterReset : Obligations.AfterReset := by
  unfold Obligations.AfterReset
  have hForm : State.reset.memWf :=
    ⟨rfl, fun _ => ⟨rfl, rfl, rfl⟩, fun _ => rfl, fun _ => rfl, rfl, rfl, rfl, rfl, rfl, rfl, rfl⟩
  refine ⟨rfl, hForm, rfl, rfl, rfl, rfl, rfl, rfl, ?_, ?_, ?_, rfl, rfl, rfl, rfl, rfl, rfl, ?_, ?_, rfl, fun _ _ => rfl, ?_,
    rfl, rfl⟩
  all_goals decide

end

section
/-!
PROOF. O14: the four check values of the CRC tables at reset.
-/

namespace Sys2Proof.Machine.State

/-- Widths, reflections and polynomials of the four tables at reset, the same in every engine. -/
theorem crcTables_reset : ∀ e < 96,
    (List.range 4).map (fun k => (reset.crcWidth e k, reset.flag (Fld.CE_CRC_CFG_REFLECT e k),
      (reset.reg (Reg.CE_CRC_POLY e k)).toNat)) =
    [(32, true, 0x04C11DB7), (32, true, 0x1EDC6F41), (16, true, 0x8005), (16, false, 0x1021)] := by decide +kernel

end Sys2Proof.Machine.State
end
section

open Sys2Proof Sys2Proof.Machine Sys2Proof.Machine.State

/-- Settles O14: the tables are those of engine 0, and the check values are computed from them. -/
theorem crcCheckValues : Obligations.CrcCheckValues := by
  unfold Obligations.CrcCheckValues
  intro e he
  have hTables := crcTables_reset e he
  simp only [List.range_succ, List.range_zero, List.nil_append, List.cons_append, List.map_cons, List.map_nil, List.cons.injEq, Prod.mk.injEq, and_true] at hTables
  obtain ⟨⟨hW0, hR0, hP0⟩, ⟨hW1, hR1, hP1⟩, ⟨hW2, hR2, hP2⟩, hW3, hR3, hP3⟩ := hTables
  simp only [crcByte, hW0, hR0, hP0, hW1, hR1, hP1, hW2, hR2, hP2, hW3, hR3, hP3]
  decide +kernel

end

section
/-!
SUPPORT. What the forms of the arithmetic and logic instructions do where the engine may issue, the bytes stand in
instruction SRAM and the pairs that WIDE names are even.
-/

namespace Sys2Proof.Machine

/-- Even registers pass the PAIR check, and without WIDE any do. -/
theorem pairBad_even {wide : Bool} {pairs : List (GReg × Nat)} (need : Nat)
    (hEven : wide = true → ∀ p ∈ pairs, oddReg p.1 = false) : pairBad wide need pairs = none := by
  cases wide with
  | false => rfl
  | true =>
    rw [pairBad, if_pos rfl]
    induction pairs with
    | nil => rfl
    | cons p pairs ih =>
      obtain ⟨r, b⟩ := p
      rw [pairByte_cons_even b pairs (hEven rfl (r, b) (by simp))]
      exact ih fun _ q hq => hEven rfl q (by simp [hq])

theorem bit_le_one (b : Bool) : bit b ≤ 1 := by cases b <;> decide

theorem immLen_le_six (imm : Imm) : immLen imm ≤ 6 := by
  cases imm with
  | i8 v ext => have := bit_le_one ext; simp only [immLen]; omega
  | i16 v ext => have := bit_le_one ext; simp only [immLen]; omega
  | i32 v => exact Nat.le_refl 6

namespace State

variable {s : State} {e : Nat} {wide : Bool} {d c a b : GReg}

/-- A value read is one of N bits. -/
theorem rd_lt (s : State) (e : Nat) (wide : Bool) (r : GReg) : s.rd e wide r < 2 ^ opBits wide := by
  cases wide with
  | false => exact (s.greg e r).isLt
  | true =>
    have hLow := (s.greg e r).isLt
    have hHigh := (s.greg e (r + 1)).isLt
    simp only [rd, opBits, if_true]
    split <;> omega

theorem issue_pairForm {need len : Nat} {pairs : List (GReg × Nat)} (body : State → State) (hReady : s.ready e = true)
    (hFetched : s.fetched e len = true) (hEven : wide = true → ∀ p ∈ pairs, oddReg p.1 = false) :
    s.issue e (pairForm wide need len pairs) body = body s :=
  issue_runs body hReady (pairBad_even need hEven) hFetched

theorem alu3_runs (f : Nat → Nat → Nat → Nat) (hReady : s.ready e = true) (hFetched : s.fetched e (3 + bit wide) = true)
    (hEven : wide = true → oddReg d = false ∧ oddReg a = false ∧ oddReg b = false) :
    s.alu3 e wide d a b f =
      (s.wr e wide d (f (opBits wide) (s.rd e wide a) (s.rd e wide b))).advance e (3 + bit wide) :=
  issue_pairForm _ hReady hFetched (by simpa using hEven)

theorem alu4_runs (f : Nat → Nat → Nat → Nat) (g : Nat → Nat → Nat → Bool) (hReady : s.ready e = true)
    (hFetched : s.fetched e (3 + bit wide) = true)
    (hEven : wide = true → oddReg d = false ∧ oddReg a = false ∧ oddReg b = false) :
    s.alu4 e wide d c a b f g =
      ((s.wr e wide d (f (opBits wide) (s.rd e wide a) (s.rd e wide b))).setGreg e c
        (BitVec.ofNat 32 (bit (g (opBits wide) (s.rd e wide a) (s.rd e wide b))))).advance e (3 + bit wide) :=
  issue_pairForm _ hReady hFetched (by simpa using hEven)

theorem aluImm_runs {imm : Imm} (f : Nat → Nat → Nat → Nat) (hReady : s.ready e = true)
    (hFetched : s.fetched e (immLen imm + bit wide) = true) (hEven : wide = true → oddReg d = false ∧ oddReg a = false) :
    s.aluImm e wide d a imm f =
      (s.wr e wide d (f (opBits wide) (s.rd e wide a) (immValue (opBits wide) imm))).advance e (immLen imm + bit wide) :=
  issue_pairForm _ hReady hFetched (by simpa using hEven)

theorem shiftReg_runs (f : Nat → Nat → Nat → Nat) (hReady : s.ready e = true) (hFetched : s.fetched e (3 + bit wide) = true)
    (hEven : wide = true → oddReg d = false ∧ oddReg a = false) :
    s.shiftReg e wide d a b f =
      (s.wr e wide d (f (opBits wide) (s.rd e wide a) (s.greg e b).toNat)).advance e (3 + bit wide) :=
  issue_pairForm _ hReady hFetched (by simpa using hEven)

theorem shiftImm_runs {k : BitVec 8} (f : Nat → Nat → Nat → Nat) (hReady : s.ready e = true)
    (hFetched : s.fetched e (3 + bit wide) = true) (hEven : wide = true → oddReg d = false ∧ oddReg a = false) :
    s.shiftImm e wide d a k f =
      (s.wr e wide d (f (opBits wide) (s.rd e wide a) k.toNat)).advance e (3 + bit wide) :=
  issue_pairForm _ hReady hFetched (by simpa using hEven)

theorem compare_runs (f : Nat → Nat → Nat → Bool) (hReady : s.ready e = true) (hFetched : s.fetched e (3 + bit wide) = true)
    (hEven : wide = true → oddReg a = false ∧ oddReg b = false) :
    s.compare e wide d a b f =
      (s.setGreg e d (BitVec.ofNat 32 (bit (f (opBits wide) (s.rd e wide a) (s.rd e wide b))))).advance e (3 + bit wide) :=
  issue_pairForm _ hReady hFetched (by simpa using hEven)

theorem compareImm_runs {imm : Imm} (f : Nat → Nat → Nat → Bool) (hReady : s.ready e = true)
    (hFetched : s.fetched e (immLen imm + bit wide) = true) (hEven : wide = true → oddReg a = false) :
    s.compareImm e wide d a imm f =
      (s.setGreg e d (BitVec.ofNat 32 (bit (f (opBits wide) (s.rd e wide a) (immValue (opBits wide) imm))))).advance e
        (immLen imm + bit wide) :=
  issue_pairForm _ hReady hFetched (by simpa using hEven)

theorem exec_sel (hReady : s.ready e = true) (hFetched : s.fetched e (3 + bit wide) = true)
    (hEven : wide = true → oddReg d = false ∧ oddReg a = false ∧ oddReg b = false) :
    exec (.sel e wide d c a b) s = .next
      ((s.wr e wide d (if s.greg e c ≠ 0 then s.rd e wide a else s.rd e wide b)).advance e (3 + bit wide)) :=
  congrArg Host.Outcome.next (issue_pairForm _ hReady hFetched (by simpa using hEven))

theorem exec_negv (hReady : s.ready e = true) (hFetched : s.fetched e (3 + bit wide) = true)
    (hEven : wide = true → oddReg d = false ∧ oddReg a = false) :
    exec (.negv e wide d c a) s = .next
      (((s.wr e wide d (Alu.neg (opBits wide) (s.rd e wide a))).setGreg e c
        (BitVec.ofNat 32 (bit (s.rd e wide a == Alu.minSigned (opBits wide))))).advance e (3 + bit wide)) :=
  congrArg Host.Outcome.next (issue_pairForm _ hReady hFetched (by simpa using hEven))

theorem exec_movi {imm : Imm} (hReady : s.ready e = true) (hFetched : s.fetched e (immLen imm + bit wide) = true)
    (hEven : wide = true → oddReg d = false) :
    exec (.movi e wide d imm) s = .next
      ((s.wr e wide d (immValue (opBits wide) imm)).advance e (immLen imm + bit wide)) :=
  congrArg Host.Outcome.next (issue_pairForm _ hReady hFetched (by simpa using hEven))

end State

/-! ### The operations' values -/

theorem opBits_pos (wide : Bool) : 0 < opBits wide := by cases wide <;> decide

theorem two_pow_opBits (wide : Bool) : 2 ^ opBits wide = 2 * 2 ^ (opBits wide - 1) := by cases wide <;> rfl

theorem ofSigned_natCast (n x : Nat) : ofSigned n x = x % 2 ^ n := by
  rw [ofSigned, ← Int.natCast_mod, Int.toNat_natCast]

theorem ofSigned_of_lt {n x : Nat} (h : x < 2 ^ n) : ofSigned n x = x := by rw [ofSigned_natCast, Nat.mod_eq_of_lt h]

theorem ofSigned_sub_natCast {n y : Nat} (x : Nat) (hy : y < 2 ^ n) : ofSigned n ((x : Int) - y) = Alu.sub n x y := by
  have hSum : ((x + (2 ^ n - y) : Nat) : Int) = (x - y) + (2 ^ n : Nat) := by
    rw [Int.natCast_add, Int.natCast_sub hy.le]; omega
  have hShift : ((x : Int) - y) % (2 ^ n : Nat) = ((x + (2 ^ n - y) : Nat) : Int) % (2 ^ n : Nat) := by
    rw [hSum, Int.add_emod_right]
  rw [ofSigned, hShift, Alu.sub, Nat.mod_eq_of_lt hy, ← Int.natCast_mod, Int.toNat_natCast]

variable {wide : Bool} {x y : Nat}

theorem toSigned_of_lt (hx : x < 2 ^ opBits wide) :
    toSigned (opBits wide) x =
      if x < 2 ^ (opBits wide - 1) then (x : Int) else (x : Int) - (2 * 2 ^ (opBits wide - 1) : Nat) := by
  rw [toSigned, Nat.mod_eq_of_lt hx, two_pow_opBits]

theorem toSigned_eq_neg_one (hy : y < 2 ^ opBits wide) :
    toSigned (opBits wide) y = -1 ↔ y = Alu.ones (opBits wide) := by
  have hPos : 0 < 2 ^ (opBits wide - 1) := Nat.two_pow_pos _
  rw [toSigned_of_lt hy, Alu.ones, two_pow_opBits]
  rw [two_pow_opBits] at hy
  split <;> omega

theorem overflow_iff (n : Nat) (t : Int) :
    Alu.overflow n t = true ↔ ¬(-((2 ^ (n - 1) : Nat) : Int) ≤ t ∧ t < ((2 ^ (n - 1) : Nat) : Int)) := by
  rw [Alu.overflow, Bool.or_eq_true, decide_eq_true_eq, decide_eq_true_eq]
  omega

theorem carry_iff (n x y : Nat) : Alu.carry n x y = true ↔ 2 ^ n ≤ x + y := by
  have := Nat.two_pow_pos n
  rw [Alu.carry, Alu.ones, decide_eq_true_eq]
  omega

theorem satadd_eq : Alu.satadd (opBits wide) x y =
    ofSigned (opBits wide)
      (if ((2 ^ (opBits wide - 1) : Nat) : Int) - 1 < toSigned (opBits wide) x + toSigned (opBits wide) y then
        ((2 ^ (opBits wide - 1) : Nat) : Int) - 1
      else if toSigned (opBits wide) x + toSigned (opBits wide) y < -((2 ^ (opBits wide - 1) : Nat) : Int) then
        ((2 ^ (opBits wide - 1) : Nat) : Int)
      else toSigned (opBits wide) x + toSigned (opBits wide) y) := by
  have hPos : 0 < 2 ^ (opBits wide - 1) := Nat.two_pow_pos _
  have hPow := two_pow_opBits wide
  have hTop : (((2 ^ (opBits wide - 1) - 1 : Nat) : Int)) = ((2 ^ (opBits wide - 1) : Nat) : Int) - 1 := Int.natCast_sub hPos
  simp only [Alu.satadd, hTop]
  split
  · rw [← hTop, ofSigned_of_lt (by omega)]
  · split
    · rw [ofSigned_of_lt (by omega), Alu.minSigned]
    · rfl

theorem div_eq (hx : x < 2 ^ opBits wide) (hy : y < 2 ^ opBits wide) : Alu.div (opBits wide) x y =
    ofSigned (opBits wide)
      (if y = 0 then ((2 ^ opBits wide - 1 : Nat) : Int)
      else if x = 2 ^ (opBits wide - 1) ∧ toSigned (opBits wide) y = -1 then (x : Int)
      else (toSigned (opBits wide) x).tdiv (toSigned (opBits wide) y)) := by
  have hPos := Nat.two_pow_pos (opBits wide)
  by_cases h0 : y = 0
  · rw [Alu.div, if_pos h0, if_pos h0, ofSigned_of_lt (by omega), Alu.ones]
  rw [Alu.div, if_neg h0, if_neg h0]
  by_cases hCorner : x = 2 ^ (opBits wide - 1) ∧ toSigned (opBits wide) y = -1
  · rw [if_pos hCorner, if_pos ⟨hCorner.1, (toSigned_eq_neg_one hy).mp hCorner.2⟩, ofSigned_of_lt hx]
  · rw [if_neg hCorner, if_neg fun h => hCorner ⟨h.1, (toSigned_eq_neg_one hy).mpr h.2⟩]

theorem rem_eq (hx : x < 2 ^ opBits wide) (hy : y < 2 ^ opBits wide) : Alu.rem (opBits wide) x y =
    ofSigned (opBits wide)
      (if y = 0 then (x : Int)
      else if x = 2 ^ (opBits wide - 1) ∧ toSigned (opBits wide) y = -1 then 0
      else toSigned (opBits wide) x - toSigned (opBits wide) y * (toSigned (opBits wide) x).tdiv (toSigned (opBits wide) y)) := by
  by_cases h0 : y = 0
  · rw [Alu.rem, if_pos h0, if_pos h0, ofSigned_of_lt hx]
  rw [Alu.rem, if_neg h0, if_neg h0]
  by_cases hCorner : x = 2 ^ (opBits wide - 1) ∧ toSigned (opBits wide) y = -1
  · rw [if_pos hCorner, if_pos ⟨hCorner.1, (toSigned_eq_neg_one hy).mp hCorner.2⟩, ofSigned, Int.zero_emod, Int.toNat_zero]
  · rw [if_neg hCorner, if_neg fun h => hCorner ⟨h.1, (toSigned_eq_neg_one hy).mpr h.2⟩, Int.tmod_def]

theorem divu_eq (hx : x < 2 ^ opBits wide) : Alu.divu (opBits wide) x y =
    ofSigned (opBits wide) (if y = 0 then ((2 ^ opBits wide - 1 : Nat) : Int) else ((x / y : Nat) : Int)) := by
  have hPos := Nat.two_pow_pos (opBits wide)
  have hQuot : x / y ≤ x := Nat.div_le_self x y
  rw [Alu.divu]
  split
  · rw [ofSigned_of_lt (by omega), Alu.ones]
  · rw [ofSigned_of_lt (by omega)]

theorem remu_eq (hx : x < 2 ^ opBits wide) : Alu.remu x y =
    ofSigned (opBits wide) (if y = 0 then (x : Int) else ((x % y : Nat) : Int)) := by
  have hRem : x % y ≤ x := Nat.mod_le x y
  rw [Alu.remu]
  split
  · rw [ofSigned_of_lt hx]
  · rw [ofSigned_of_lt (by omega)]

theorem mulhu_eq (hx : x < 2 ^ opBits wide) (hy : y < 2 ^ opBits wide) :
    Alu.mulhu (opBits wide) x y = ofSigned (opBits wide) ((x * y / 2 ^ opBits wide : Nat) : Int) := by
  have hHigh : x * y / 2 ^ opBits wide < 2 ^ opBits wide := Nat.div_lt_of_lt_mul (Nat.mul_lt_mul'' hx hy)
  rw [ofSigned_of_lt hHigh, Alu.mulhu]

/-- A flag word is 1 or 0 as its condition holds or not. -/
theorem flagWord_spec {f : Bool} {p : Prop} (h : f = true ↔ p) :
    (BitVec.ofNat 32 (bit f) = 1 ↔ p) ∧ (BitVec.ofNat 32 (bit f) = 0 ↔ ¬p) := by
  rw [← h]
  cases f <;> decide

end Sys2Proof.Machine
end

section
/-!
PROOF. O1: the arithmetic operations.
-/

open Sys2Proof Sys2Proof.Machine Sys2Proof.Machine.State

/-- Settles O1: each instruction is its form's rule and its operation's value. -/
theorem arithmetic : Obligations.Arithmetic := by
  refine ⟨fun s e wide d a b hReady hFetched hEven => ?_, fun s e wide d c a b hReady hFetched hEven => ?_⟩
  · have hx := s.rd_lt e wide a
    have hy := s.rd_lt e wide b
    have hRun (f : Nat → Nat → Nat → Nat) {v : Int} (hv : f (opBits wide) (s.rd e wide a) (s.rd e wide b) = ofSigned (opBits wide) v) :
        (.next (s.alu3 e wide d a b f) : Answer) = .next ((s.wr e wide d (ofSigned (opBits wide) v)).advance e (3 + bit wide)) := by
      rw [alu3_runs f hReady hFetched hEven, hv]
    exact ⟨hRun Alu.add (ofSigned_natCast _ _).symm, hRun Alu.sub (ofSigned_sub_natCast _ hy).symm,
      hRun Alu.mul (ofSigned_natCast _ _).symm, hRun Alu.mulh rfl, hRun Alu.mulhu (mulhu_eq hx hy), hRun Alu.div (div_eq hx hy),
      hRun Alu.divu (divu_eq hx), hRun Alu.rem (rem_eq hx hy), hRun (fun _ => Alu.remu) (remu_eq hx), hRun Alu.satadd satadd_eq⟩
  · have hy := s.rd_lt e wide b
    have hRun (f : Nat → Nat → Nat → Nat) (g : Nat → Nat → Nat → Bool) {v : Int} {p : Prop}
        (hv : f (opBits wide) (s.rd e wide a) (s.rd e wide b) = ofSigned (opBits wide) v)
        (hp : g (opBits wide) (s.rd e wide a) (s.rd e wide b) = true ↔ p) :
        ∃ w : Word, (w = 1 ↔ p) ∧ (w = 0 ↔ ¬p) ∧ (.next (s.alu4 e wide d c a b f g) : Answer) =
          .next (((s.wr e wide d (ofSigned (opBits wide) v)).setGreg e c w).advance e (3 + bit wide)) := by
      obtain ⟨hOne, hZero⟩ := flagWord_spec hp
      exact ⟨_, hOne, hZero, by rw [alu4_runs f g hReady hFetched hEven, hv]⟩
    obtain ⟨hOne, hZero⟩ := flagWord_spec (f := s.rd e wide a == Alu.minSigned (opBits wide)) beq_iff_eq
    refine ⟨hRun Alu.add Alu.carry (ofSigned_natCast _ _).symm (carry_iff _ _ _),
      hRun Alu.sub (fun _ => Alu.borrow) (ofSigned_sub_natCast _ hy).symm decide_eq_true_iff,
      hRun Alu.add _ (ofSigned_natCast _ _).symm (overflow_iff _ _),
      hRun Alu.sub _ (ofSigned_sub_natCast _ hy).symm (overflow_iff _ _), _, hOne, hZero, ?_⟩
    rw [exec_negv hReady hFetched fun h => ⟨(hEven h).1, (hEven h).2.1⟩, Alu.neg, ← ofSigned_sub_natCast 0 (s.rd_lt e wide a),
      Int.natCast_zero, Int.zero_sub]
    rfl

end

section
/-!
PROOF. O2: moves, logic, selection and the compares.
-/

namespace Sys2Proof.Machine

theorem neg_eq {n x : Nat} (hx : x < 2 ^ n) : Alu.neg n x = (2 ^ n - x) % 2 ^ n := by
  rw [Alu.neg, Alu.sub, Nat.mod_eq_of_lt hx, Nat.zero_add]

theorem not_eq {n x : Nat} (hx : x < 2 ^ n) : Alu.not n x = 2 ^ n - 1 - x := by
  rw [Alu.not, Alu.ones, Nat.mod_eq_of_lt hx]

theorem andn_eq {n y : Nat} (x : Nat) (hy : y < 2 ^ n) : Alu.andn n x y = x &&& (2 ^ n - 1 - y) := by
  rw [Alu.andn, not_eq hy]

namespace State

/-- A compare's result is 1 where it holds and 0 where it does not. -/
theorem compared {s : State} {e len : Nat} {d : GReg} {i : Instr} {f : Bool} {p : Prop} (hf : f = true ↔ p)
    (hRun : exec i s = .next ((s.setGreg e d (BitVec.ofNat 32 (bit f))).advance e len)) :
    (p → exec i s = .next ((s.setGreg e d 1).advance e len)) ∧
      (¬p → exec i s = .next ((s.setGreg e d 0).advance e len)) := by
  refine ⟨fun hp => ?_, fun hp => ?_⟩
  · rw [hRun, hf.mpr hp]; rfl
  · rw [hRun, Bool.eq_false_iff.mpr (mt hf.mp hp)]; rfl

end State
end Sys2Proof.Machine

open Sys2Proof Sys2Proof.Machine Sys2Proof.Machine.State

/-- Settles O2. -/
theorem logicAndCompares : Obligations.LogicAndCompares := by
  refine ⟨fun s e wide d c a b hReady hFetched hEven => ?_, fun s e wide d a b imm ext hReady hFetched hEven => ?_⟩
  · have hx := s.rd_lt e wide a
    have hy := s.rd_lt e wide b
    have hTwo {f : Nat → Nat → Nat} {v : Nat} (hv : f (opBits wide) (s.rd e wide a) = v) :
        (.next (s.alu2 e wide d a f) : Answer) = .next ((s.wr e wide d v).advance e (2 + bit wide)) := by
      rw [alu2_runs f hReady (fetched_of_le hFetched (by omega)) fun h => ⟨(hEven h).1, (hEven h).2.1⟩, hv]
    have hThree {f : Nat → Nat → Nat → Nat} {v : Nat} (hv : f (opBits wide) (s.rd e wide a) (s.rd e wide b) = v) :
        (.next (s.alu3 e wide d a b f) : Answer) = .next ((s.wr e wide d v).advance e (3 + bit wide)) := by
      rw [alu3_runs f hReady hFetched hEven, hv]
    refine ⟨hTwo rfl, hTwo (neg_eq hx), hTwo (not_eq hx), hThree rfl, hThree rfl, hThree rfl, hThree (andn_eq _ hy), ?_⟩
    show exec (.sel e wide d c a b) s = _
    rw [exec_sel hReady hFetched hEven, ite_not]
  · have hThree {f : Nat → Nat → Nat → Bool} {p : Prop} {i : Instr}
        (hf : f (opBits wide) (s.rd e wide a) (s.rd e wide b) = true ↔ p) (hi : exec i s = .next (s.compare e wide d a b f)) :=
      compared (e := e) (len := 3 + bit wide) (d := d) hf
        (hi.trans (congrArg _ (compare_runs f hReady (fetched_of_le hFetched (by omega)) hEven)))
    have hImm {f : Nat → Nat → Nat → Bool} {p : Prop} {i : Instr}
        (hf : f (opBits wide) (s.rd e wide a) (immValue (opBits wide) (.i16 imm ext)) = true ↔ p)
        (hi : exec i s = .next (s.compareImm e wide d a (.i16 imm ext) f)) :=
      compared (e := e) (len := 4 + bit ext + bit wide) (d := d) hf
        (hi.trans (congrArg _ (compareImm_runs f hReady hFetched fun h => (hEven h).1)))
    exact ⟨hThree beq_iff_eq rfl, hThree bne_iff_ne rfl, hThree decide_eq_true_iff rfl, hThree decide_eq_true_iff rfl,
      hThree decide_eq_true_iff rfl, hThree decide_eq_true_iff rfl, hImm beq_iff_eq rfl, hImm decide_eq_true_iff rfl,
      hImm decide_eq_true_iff rfl⟩

end

section
/-!
PROOF. O3: shifts and rotates.
-/

namespace Sys2Proof.Machine

theorem shl_eq (n x g : Nat) : Alu.shl n x g = if n ≤ g then 0 else x <<< g % 2 ^ n := by
  rw [Alu.shl, Nat.shiftLeft_eq]

theorem shr_eq (n x g : Nat) : Alu.shr n x g = if n ≤ g then 0 else x >>> g := by
  rw [Alu.shr, Nat.shiftRight_eq_div_pow]

theorem rol_eq (n x g : Nat) : Alu.rol n x g = (x <<< (g % n) % 2 ^ n) ||| (x >>> (n - g % n)) := by
  rw [Alu.rol, Nat.shiftLeft_eq, Nat.shiftRight_eq_div_pow]

theorem ror_eq (n x g : Nat) : Alu.ror n x g = (x >>> (g % n)) ||| (x <<< (n - g % n) % 2 ^ n) := by
  rw [Alu.ror, Nat.shiftLeft_eq, Nat.shiftRight_eq_div_pow]

end Sys2Proof.Machine

open Sys2Proof Sys2Proof.Machine Sys2Proof.Machine.State

/-- Settles O3: the two forms give the same operation a count. -/
theorem shiftsAndRotates : Obligations.ShiftsAndRotates := by
  intro s e wide d a b k hReady hFetched hEven
  have hReg {f : Nat → Nat → Nat → Nat} {v : Nat} (hv : f (opBits wide) (s.rd e wide a) (s.greg e b).toNat = v) :
      (.next (s.shiftReg e wide d a b f) : Answer) = .next ((s.wr e wide d v).advance e (3 + bit wide)) := by
    rw [shiftReg_runs f hReady hFetched hEven, hv]
  have hImm {f : Nat → Nat → Nat → Nat} {v : Nat} (hv : f (opBits wide) (s.rd e wide a) k.toNat = v) :
      (.next (s.shiftImm e wide d a k f) : Answer) = .next ((s.wr e wide d v).advance e (3 + bit wide)) := by
    rw [shiftImm_runs f hReady hFetched hEven, hv]
  exact ⟨hReg (shl_eq _ _ _), hImm (shl_eq _ _ _), hReg (shr_eq _ _ _), hImm (shr_eq _ _ _), hReg rfl, hImm rfl,
    hReg (rol_eq _ _ _), hImm (rol_eq _ _ _), hReg (ror_eq _ _ _), hImm (ror_eq _ _ _)⟩

end

section
/-!
PROOF. O4: the immediate forms.
-/

namespace Sys2Proof.Machine

/-- SATADD as a choice of three numbers of N bits. -/
theorem satadd_cases (n x y : Nat) : Alu.satadd n x y =
    if ((2 ^ (n - 1) : Nat) : Int) - 1 < toSigned n x + toSigned n y then 2 ^ (n - 1) - 1
    else if toSigned n x + toSigned n y < -((2 ^ (n - 1) : Nat) : Int) then 2 ^ (n - 1)
    else ((toSigned n x + toSigned n y) % (2 ^ n : Nat)).toNat := by
  have hTop : (((2 ^ (n - 1) - 1 : Nat) : Int)) = ((2 ^ (n - 1) : Nat) : Int) - 1 := Int.natCast_sub (Nat.two_pow_pos _)
  simp only [Alu.satadd, hTop]
  rfl

end Sys2Proof.Machine

open Sys2Proof Sys2Proof.Machine Sys2Proof.Machine.State

/-- Settles O4: an immediate's value is its extension. -/
theorem immediateForms : Obligations.ImmediateForms := by
  intro s e wide d a imm v ext hReady hFetched hFetched16 hEven
  have hImm {f : Nat → Nat → Nat → Nat} {r : Nat}
      (hr : f (opBits wide) (s.rd e wide a) (immValue (opBits wide) (.i16 v ext)) = r) :
      (.next (s.aluImm e wide d a (.i16 v ext) f) : Answer) = .next ((s.wr e wide d r).advance e (4 + bit ext + bit wide)) := by
    rw [aluImm_runs (imm := .i16 v ext) f hReady hFetched16 hEven, hr]; rfl
  refine ⟨?_, ?_, hImm rfl, hImm rfl, hImm rfl, hImm rfl, hImm (satadd_cases _ _ _)⟩
  · rw [exec_movi hReady hFetched fun h => (hEven h).1]
    cases imm <;> rfl
  · show (.next (s.aluImm e wide d a imm Alu.add) : Answer) = _
    rw [aluImm_runs _ hReady hFetched hEven]
    cases imm <;> rfl

end

section
/-!
PROOF. O8: the frames of the arithmetic, logic, compare and branch instructions.
-/

namespace Sys2Proof.Machine

/-- Of the block one engine alone changes, and of it the general registers named alone. -/
structure WritesRegs (e : Nat) (W : GReg → Prop) (s t : State) : Prop where
  rest : t = { s with engines := t.engines }
  others : ∀ x, x ≠ e → t.eng x = s.eng x
  engine : t.eng e = { s.eng e with g := (t.eng e).g }
  regs : ∀ r, ¬W r → t.greg e r = s.greg e r

/-- What an instruction does that completes: the registers named, the program counter and what the last RETE left. -/
structure Completes (e : Nat) (W : GReg → Prop) (s t : State) : Prop where
  rest : t = { s with engines := t.engines }
  others : ∀ x, x ≠ e → t.eng x = s.eng x
  engine : t.eng e = { s.eng e with g := (t.eng e).g, pc := (t.eng e).pc, returned := none, midRep := false }
  regs : ∀ r, ¬W r → t.greg e r = s.greg e r

/-- The single register or the pair that a result goes to. -/
def Dest (wide : Bool) (d r : GReg) : Prop := r = d ∨ wide = true ∧ r = d + 1

variable {e : Nat} {W : GReg → Prop} {s t u : State}

namespace WritesRegs

theorem refl : WritesRegs e W s s := ⟨rfl, fun _ _ => rfl, rfl, fun _ _ => rfl⟩

theorem setGreg {d : GReg} {v : Word} (h : WritesRegs e W s t) (hd : W d) : WritesRegs e W s (t.setGreg e d v) := by
  obtain ⟨hRest, hOthers, hEngine, hRegs⟩ := h
  by_cases h0 : d = 0
  · rw [h0, State.setGreg_zero]; exact ⟨hRest, hOthers, hEngine, hRegs⟩
  · refine ⟨?_, fun x hx => ?_, ?_, fun r hr => ?_⟩
    · rw [State.setGreg, if_neg h0, hRest]; rfl
    · rw [State.setGreg, if_neg h0, State.eng_setEng_ne t _ hx]; exact hOthers x hx
    · rw [State.setGreg, if_neg h0, State.eng_setEng_same, hEngine]
    · rw [State.greg_setGreg_ne t e v fun hrd : r = d => hr (hrd ▸ hd)]; exact hRegs r hr

theorem wr {wide : Bool} {d : GReg} {v : Nat} (h : WritesRegs e W s t) (hd : ∀ r, Dest wide d r → W r) :
    WritesRegs e W s (t.wr e wide d v) := by
  unfold State.wr
  split
  · next hWide =>
    split
    · exact h
    · exact (h.setGreg (hd d (.inl rfl))).setGreg (hd _ (.inr ⟨hWide, rfl⟩))
  · exact h.setGreg (hd d (.inl rfl))

theorem goto {a : Word} (h : WritesRegs e W s t) : Completes e W s (t.goto e a) := by
  obtain ⟨hRest, hOthers, hEngine, hRegs⟩ := h
  refine ⟨?_, fun x hx => ?_, ?_, fun r hr => ?_⟩
  · rw [State.goto, hRest]; rfl
  · rw [State.goto, State.eng_setEng_ne t _ hx]; exact hOthers x hx
  · rw [State.goto, State.eng_setEng_same, hEngine]
  · rw [← hRegs r hr, State.greg, State.greg, State.goto, State.eng_setEng_same]

theorem advance {len : Nat} (h : WritesRegs e W s t) : Completes e W s (t.advance e len) := h.goto

theorem branch {len : Nat} {disp : Int} (h : WritesRegs e W s t) : Completes e W s (t.branch e len disp) := h.goto

end WritesRegs

namespace Completes

theorem ofNext (h : Completes e W s u) (ht : (.next u : Answer) = .next t) : Completes e W s t := by cases ht; exact h

theorem ite {c : Prop} [Decidable c] (h : Completes e W s t) (h' : Completes e W s u) :
    Completes e W s (if c then t else u) := by
  split
  · exact h
  · exact h'

section
variable {wide : Bool} {d c a b : GReg} {imm : Imm} (hReady : s.ready e = true) (hFetched : s.fetched e 15 = true)
  (hEven : wide = true → oddReg d = false ∧ oddReg a = false ∧ oddReg b = false)
include hReady hFetched

theorem issue {need len : Nat} {pairs : List (GReg × Nat)} {body : State → State} (hBody : Completes e W s (body s))
    (hLen : len ≤ 15) (hPairs : wide = true → ∀ p ∈ pairs, oddReg p.1 = false)
    (ht : (.next (s.issue e (pairForm wide need len pairs) body) : Answer) = .next t) : Completes e W s t := by
  rw [State.issue_pairForm body hReady (State.fetched_of_le hFetched hLen) hPairs] at ht
  exact hBody.ofNext ht

include hEven

theorem alu2 {f : Nat → Nat → Nat} (ht : (.next (s.alu2 e wide d a f) : Answer) = .next t) : Completes e (Dest wide d) s t :=
  issue hReady hFetched (WritesRegs.advance (.wr .refl fun _ => id)) (by have := bit_le_one wide; omega)
    (fun h => by simp [hEven h]) ht

theorem alu3 {f : Nat → Nat → Nat → Nat} (ht : (.next (s.alu3 e wide d a b f) : Answer) = .next t) :
    Completes e (Dest wide d) s t :=
  issue hReady hFetched (WritesRegs.advance (.wr .refl fun _ => id)) (by have := bit_le_one wide; omega)
    (fun h => by simp [hEven h]) ht

theorem alu4 {f : Nat → Nat → Nat → Nat} {g : Nat → Nat → Nat → Bool}
    (ht : (.next (s.alu4 e wide d c a b f g) : Answer) = .next t) : Completes e (fun r => Dest wide d r ∨ r = c) s t :=
  issue hReady hFetched (WritesRegs.advance (.setGreg (.wr .refl fun _ => .inl) (.inr rfl))) (by have := bit_le_one wide; omega)
    (fun h => by simp [hEven h]) ht

theorem negv (ht : exec (.negv e wide d c a) s = .next t) : Completes e (fun r => Dest wide d r ∨ r = c) s t :=
  issue hReady hFetched (WritesRegs.advance (.setGreg (.wr .refl fun _ => .inl) (.inr rfl))) (by have := bit_le_one wide; omega)
    (fun h => by simp [hEven h]) ht

theorem aluImm {f : Nat → Nat → Nat → Nat} (ht : (.next (s.aluImm e wide d a imm f) : Answer) = .next t) :
    Completes e (Dest wide d) s t :=
  issue hReady hFetched (WritesRegs.advance (.wr .refl fun _ => id))
    (by have := bit_le_one wide; have := immLen_le_six imm; omega) (fun h => by simp [hEven h]) ht

theorem movi (ht : exec (.movi e wide d imm) s = .next t) : Completes e (Dest wide d) s t :=
  issue hReady hFetched (WritesRegs.advance (.wr .refl fun _ => id))
    (by have := bit_le_one wide; have := immLen_le_six imm; omega) (fun h => by simp [hEven h]) ht

theorem sel (ht : exec (.sel e wide d c a b) s = .next t) : Completes e (Dest wide d) s t :=
  issue hReady hFetched (WritesRegs.advance (.wr .refl fun _ => id)) (by have := bit_le_one wide; omega)
    (fun h => by simp [hEven h]) ht

theorem shiftReg {f : Nat → Nat → Nat → Nat} (ht : (.next (s.shiftReg e wide d a b f) : Answer) = .next t) :
    Completes e (Dest wide d) s t :=
  issue hReady hFetched (WritesRegs.advance (.wr .refl fun _ => id)) (by have := bit_le_one wide; omega)
    (fun h => by simp [hEven h]) ht

theorem shiftImm {k : BitVec 8} {f : Nat → Nat → Nat → Nat} (ht : (.next (s.shiftImm e wide d a k f) : Answer) = .next t) :
    Completes e (Dest wide d) s t :=
  issue hReady hFetched (WritesRegs.advance (.wr .refl fun _ => id)) (by have := bit_le_one wide; omega)
    (fun h => by simp [hEven h]) ht

theorem compare {f : Nat → Nat → Nat → Bool} (ht : (.next (s.compare e wide d a b f) : Answer) = .next t) :
    Completes e (Dest wide d) s t :=
  issue hReady hFetched (WritesRegs.advance (.setGreg .refl (.inl rfl))) (by have := bit_le_one wide; omega)
    (fun h => by simp [hEven h]) ht

theorem compareImm {f : Nat → Nat → Nat → Bool} (ht : (.next (s.compareImm e wide d a imm f) : Answer) = .next t) :
    Completes e (Dest wide d) s t :=
  issue hReady hFetched (WritesRegs.advance (.setGreg .refl (.inl rfl)))
    (by have := bit_le_one wide; have := immLen_le_six imm; omega) (fun h => by simp [hEven h]) ht

theorem bitField {k : BitVec 16} {f : Nat → Nat → Nat → BitVec 16 → Nat} (hField : k.toNat < 0x2000)
    (ht : (.next (s.bitField e wide d a k f) : Answer) = .next t) : Completes e (Dest wide d) s t := by
  rw [State.bitField_runs f hReady (State.fetched_of_le hFetched (by have := bit_le_one wide; omega))
    (fun h => ⟨(hEven h).1, (hEven h).2.1⟩) hField] at ht
  exact (WritesRegs.advance (.wr .refl fun _ => id)).ofNext ht

end

theorem plainForm {body : State → State} {len : Nat} (hReady : s.ready e = true) (hFetched : s.fetched e 6 = true)
    (hLen : len ≤ 6) (hBody : Completes e W s (body s))
    (ht : (.next (s.issue e (plainForm len) body) : Answer) = .next t) : Completes e W s t := by
  rw [State.issue_plainForm body hReady hFetched hLen] at ht
  exact hBody.ofNext ht

end Completes

/-- The instructions of Table ISA-6 with one destination. -/
theorem completes_plain {wide ext : Bool} {d c a b : GReg} {imm : Imm} {v : BitVec 16} {k : BitVec 8} {i : Instr}
    (hi : i ∈ [Instr.add e wide d a b, .sub e wide d a b, .mul e wide d a b, .mulh e wide d a b, .mulhu e wide d a b,
      .div e wide d a b, .divu e wide d a b, .rem e wide d a b, .remu e wide d a b, .satadd e wide d a b,
      .mov e wide d a, .neg e wide d a, .not e wide d a, .and e wide d a b, .or e wide d a b, .xor e wide d a b,
      .andn e wide d a b, .sel e wide d c a b, .shl e wide d a b, .shr e wide d a b, .sar e wide d a b,
      .rol e wide d a b, .rot e wide d a b, .shli e wide d a k, .shri e wide d a k, .sari e wide d a k,
      .roli e wide d a k, .roti e wide d a k, .movi e wide d imm, .addi e wide d a imm, .andi e wide d a v ext,
      .ori e wide d a v ext, .xori e wide d a v ext, .muli e wide d a v ext, .sataddi e wide d a v ext,
      .bfx e wide d a v, .bfi e wide d a v, .clz e wide d a, .popc e wide d a, .bswap e wide d a,
      .ceq e wide d a b, .cne e wide d a b, .clt e wide d a b, .cltu e wide d a b, .cge e wide d a b, .cgeu e wide d a b,
      .ceqi e wide d a v ext, .clti e wide d a v ext, .cltui e wide d a v ext])
    (hReady : s.ready e = true) (hFetched : s.fetched e 15 = true) (hField : v.toNat < 0x2000)
    (hAll : wide = true → oddReg d = false ∧ oddReg a = false ∧ oddReg b = false) (ht : exec i s = .next t) :
    Completes e (Dest wide d) s t := by
  simp only [List.mem_cons, List.not_mem_nil, or_false] at hi
  rcases hi with rfl | rfl | rfl | rfl | rfl | rfl | rfl | rfl | rfl | rfl | rfl | rfl | rfl | rfl | rfl | rfl | rfl | rfl | rfl | rfl | rfl | rfl | rfl | rfl | rfl | rfl | rfl | rfl | rfl | rfl | rfl | rfl | rfl | rfl | rfl | rfl | rfl | rfl | rfl | rfl | rfl | rfl | rfl | rfl | rfl | rfl | rfl | rfl | rfl
  · exact .alu3 hReady hFetched hAll ht
  · exact .alu3 hReady hFetched hAll ht
  · exact .alu3 hReady hFetched hAll ht
  · exact .alu3 hReady hFetched hAll ht
  · exact .alu3 hReady hFetched hAll ht
  · exact .alu3 hReady hFetched hAll ht
  · exact .alu3 hReady hFetched hAll ht
  · exact .alu3 hReady hFetched hAll ht
  · exact .alu3 hReady hFetched hAll ht
  · exact .alu3 hReady hFetched hAll ht
  · exact .alu2 hReady hFetched hAll ht
  · exact .alu2 hReady hFetched hAll ht
  · exact .alu2 hReady hFetched hAll ht
  · exact .alu3 hReady hFetched hAll ht
  · exact .alu3 hReady hFetched hAll ht
  · exact .alu3 hReady hFetched hAll ht
  · exact .alu3 hReady hFetched hAll ht
  · exact .sel hReady hFetched hAll ht
  · exact .shiftReg hReady hFetched hAll ht
  · exact .shiftReg hReady hFetched hAll ht
  · exact .shiftReg hReady hFetched hAll ht
  · exact .shiftReg hReady hFetched hAll ht
  · exact .shiftReg hReady hFetched hAll ht
  · exact .shiftImm hReady hFetched hAll ht
  · exact .shiftImm hReady hFetched hAll ht
  · exact .shiftImm hReady hFetched hAll ht
  · exact .shiftImm hReady hFetched hAll ht
  · exact .shiftImm hReady hFetched hAll ht
  · exact .movi hReady hFetched hAll ht
  · exact .aluImm hReady hFetched hAll ht
  · exact .aluImm hReady hFetched hAll ht
  · exact .aluImm hReady hFetched hAll ht
  · exact .aluImm hReady hFetched hAll ht
  · exact .aluImm hReady hFetched hAll ht
  · exact .aluImm hReady hFetched hAll ht
  · exact .bitField hReady hFetched hAll hField ht
  · exact .bitField hReady hFetched hAll hField ht
  · exact .alu2 hReady hFetched hAll ht
  · exact .alu2 hReady hFetched hAll ht
  · exact .alu2 hReady hFetched hAll ht
  · exact .compare hReady hFetched hAll ht
  · exact .compare hReady hFetched hAll ht
  · exact .compare hReady hFetched hAll ht
  · exact .compare hReady hFetched hAll ht
  · exact .compare hReady hFetched hAll ht
  · exact .compare hReady hFetched hAll ht
  · exact .compareImm hReady hFetched hAll ht
  · exact .compareImm hReady hFetched hAll ht
  · exact .compareImm hReady hFetched hAll ht

/-- Those with a second destination. -/
theorem completes_double {wide : Bool} {d c a b : GReg} {i : Instr}
    (hi : i ∈ [Instr.addc e wide d c a b, .subb e wide d c a b, .addv e wide d c a b, .subv e wide d c a b,
      .negv e wide d c a])
    (hReady : s.ready e = true) (hFetched : s.fetched e 15 = true)
    (hAll : wide = true → oddReg d = false ∧ oddReg a = false ∧ oddReg b = false) (ht : exec i s = .next t) :
    Completes e (fun r => Dest wide d r ∨ r = c) s t := by
  simp only [List.mem_cons, List.not_mem_nil, or_false] at hi
  rcases hi with rfl | rfl | rfl | rfl | rfl
  · exact .alu4 hReady hFetched hAll ht
  · exact .alu4 hReady hFetched hAll ht
  · exact .alu4 hReady hFetched hAll ht
  · exact .alu4 hReady hFetched hAll ht
  · exact .negv hReady hFetched hAll ht

/-- The branches that do not call change no register. -/
theorem completes_branch {s t : State} {e : Nat} {a : GReg} {disp : Disp} {i : Instr}
    (hi : i ∈ [Instr.nop e, .b e disp, .bz e a disp, .bnz e a disp, .br e a, .ret e]) (hReady : s.ready e = true)
    (hFetched : s.fetched e 6 = true) (ht : exec i s = .next t) :
    Completes e (fun _ => False) s t ∧ (t.eng e).g = (s.eng e).g := by
  have hGoto {len : Nat} {body : State → State} (hLen : len ≤ 6) (target : Word) (hBody : body s = s.goto e target)
      (ht : (.next (s.issue e (plainForm len) body) : Answer) = .next t) :
      Completes e (fun _ => False) s t ∧ (t.eng e).g = (s.eng e).g := by
    rw [State.issue_plainForm body hReady hFetched hLen, hBody] at ht
    cases ht
    exact ⟨WritesRegs.goto .refl, by rw [State.goto, State.eng_setEng_same]⟩
  simp only [List.mem_cons, List.not_mem_nil, or_false] at hi
  rcases hi with rfl | rfl | rfl | rfl | rfl | rfl
  · exact hGoto (by decide) _ rfl ht
  · exact hGoto (dispLen_le_six disp) _ rfl ht
  · exact hGoto (dispLen_le_six disp) _ (State.branch_or_advance _ _ _ _ _) ht
  · exact hGoto (dispLen_le_six disp) _ (State.branch_or_advance _ _ _ _ _) ht
  · exact hGoto (by decide) _ rfl ht
  · exact hGoto (by decide) _ rfl ht

end Sys2Proof.Machine
end

section

open Sys2Proof Sys2Proof.Machine Sys2Proof.Machine.State

/-- Settles O8: an instruction of each form completes with the registers of its form written. -/
theorem instructionFrames : Obligations.InstructionFrames := by
  refine ⟨fun s t e wide ext d c a b imm v k i => ?_, fun s t e a disp i hi hReady hFetched ht => ?_⟩
  · intro plain double hi hReady hFetched hField hEven ht
    rcases List.mem_append.mp hi with hPlain | hDouble
    · obtain ⟨hRest, hOthers, hEngine, hRegs⟩ := completes_plain hPlain hReady hFetched hField hEven ht
      exact ⟨hRest, hOthers, hEngine, fun r hd hPair _ => hRegs r fun h => h.elim hd hPair⟩
    · obtain ⟨hRest, hOthers, hEngine, hRegs⟩ := completes_double hDouble hReady hFetched hEven ht
      refine ⟨hRest, hOthers, hEngine, fun r hd hPair hc => hRegs r fun h => h.elim (fun h => h.elim hd hPair) fun h => ?_⟩
      refine hc.elim (fun hPlain => ?_) fun hc => hc h
      simp only [double, List.mem_cons, List.not_mem_nil, or_false] at hDouble
      rcases hDouble with rfl | rfl | rfl | rfl | rfl <;> simp [plain] at hPlain
  · have hCalls : i ∈ [Instr.nop e, .b e disp, .bz e a disp, .bnz e a disp, .br e a, .ret e] ∨
        i = .call e disp ∨ i = .callr e a := by simpa [or_assoc] using hi
    rcases hCalls with hBranch | rfl | rfl
    · obtain ⟨⟨hRest, hOthers, hEngine, hRegs⟩, hSame⟩ := completes_branch hBranch hReady hFetched ht
      exact ⟨hRest, hOthers, hEngine, fun r _ => hRegs r id, fun _ _ => hSame⟩
    · obtain ⟨hRest, hOthers, hEngine, hRegs⟩ :=
        Completes.plainForm (W := (· = 14)) hReady hFetched (dispLen_le_six disp) (WritesRegs.branch (W := fun r => r = 14) (.setGreg .refl rfl)) ht
      exact ⟨hRest, hOthers, hEngine, hRegs, fun h _ => absurd rfl h⟩
    · obtain ⟨hRest, hOthers, hEngine, hRegs⟩ :=
        Completes.plainForm (W := (· = 14)) hReady hFetched (by decide) (WritesRegs.goto (W := fun r => r = 14) (.setGreg .refl rfl)) ht
      exact ⟨hRest, hOthers, hEngine, hRegs, fun _ h => absurd rfl h⟩

end

section
/-!
SUPPORT. Halting an engine and entering a handler: what of the engine and of its status changes.
-/

namespace Sys2Proof.Machine.State

variable {s : State} {e : Nat}

/-- The fields of a register lie apart when one ends before the other begins. -/
theorem apart_of_le {f g : Fld} (h : f.lo + f.width ≤ g.lo) : f.apart g := .inr (.inl h)

theorem apart_of_ge {f g : Fld} (h : g.lo + g.width ≤ f.lo) : f.apart g := .inr (.inr h)

@[simp] theorem setFld_eng (s : State) (f : Fld) (v x : Nat) : (s.setFld f v).eng x = s.eng x := rfl
@[simp] theorem setFlag_eng (s : State) (f : Fld) (b : Bool) (x : Nat) : (s.setFlag f b).eng x = s.eng x := rfl
@[simp] theorem setReg_eng (s : State) (a : Nat) (v : Word) (x : Nat) : (s.setReg a v).eng x = s.eng x := rfl
@[simp] theorem count_eng (s : State) (f : Fld) (k x : Nat) : (s.count f k).eng x = s.eng x := rfl
@[simp] theorem notify_eng (s : State) (n : Notice) (x : Nat) : (s.notify n).eng x = s.eng x := rfl
@[simp] theorem setEng_fld (s : State) (e : Nat) (x : Engine) (f : Fld) : (s.setEng e x).fld f = s.fld f := rfl
@[simp] theorem setEng_reg (s : State) (e : Nat) (x : Engine) (a : Nat) : (s.setEng e x).reg a = s.reg a := rfl
@[simp] theorem notify_fld (s : State) (n : Notice) (f : Fld) : (s.notify n).fld f = s.fld f := rfl

/-! ### Halting (R139) -/

theorem engState_halt (s : State) (e c : Nat) : (s.halt e c).engState e = 3 := by
  rw [engState, halt, notify_fld, fld_setFld_apart _ _ (apart_of_ge (show 0 + 2 ≤ 12 by decide)),
    fld_setFld_same _ _ _ (show 0 + 2 ≤ 32 by decide)]
  rfl

theorem haltCause_halt (s : State) (e : Nat) {c : Nat} (h : c < 16) : (s.halt e c).fld (Fld.CE_STAT_HALT_CAUSE e) = c := by
  rw [halt, notify_fld, fld_setFld_same _ _ _ (show 12 + 4 ≤ 32 by decide)]
  exact Nat.mod_eq_of_lt h

theorem eng_halt (s : State) (e c : Nat) : (s.halt e c).eng e =
    { s.eng e with orphans := ((s.halt e c).eng e).orphans, dropped := ((s.halt e c).eng e).dropped } := by
  have hEng : (s.halt e c).eng e = discardSent (s.eng e) := eng_setEng_same s e _
  rw [hEng]
  rfl

/-! ### Entering -/

/-- The engine as an entry leaves it. -/
theorem eng_enter (s : State) (e : Nat) (r : Record) (level : Option Nat) : (s.enter e r level).eng e =
    { s.eng e with
      stack := { r with g13 := s.greg e 13, level := s.level e } :: (s.eng e).stack
      pc := BitVec.ofNat 32 (r.vector * 0x10), returned := none, midRep := false } := by
  unfold enter
  cases level <;> exact eng_setEng_same s e _

theorem eng_enter_ne (s : State) {e x : Nat} (r : Record) (level : Option Nat) (h : x ≠ e) :
    (s.enter e r level).eng x = s.eng x := by
  unfold enter
  cases level <;> exact eng_setEng_ne s _ h

/-- A level that an entry sets, and none where it sets none. -/
theorem level_enter (s : State) (e : Nat) (r : Record) (level : Option Nat) :
    (s.enter e r level).level e = level.elim (s.level e) (· % 64) := by
  unfold enter
  cases level with
  | none => exact fld_setFld_apart _ _ (apart_of_le (show 0 + 2 ≤ 6 by decide))
  | some l => exact fld_setFld_same _ (Fld.CE_STAT_LEVEL e) l (show 6 + 6 ≤ 32 by decide)

theorem engState_enter (s : State) (e : Nat) (r : Record) (level : Option Nat) : (s.enter e r level).engState e = 1 := by
  unfold enter
  cases level with
  | none => exact fld_setFld_same _ (Fld.CE_STAT_STATE e) 1 (show 0 + 2 ≤ 32 by decide)
  | some l =>
    exact (fld_setFld_apart _ _ (apart_of_ge (show 0 + 2 ≤ 6 by decide))).trans
      (fld_setFld_same _ (Fld.CE_STAT_STATE e) 1 (show 0 + 2 ≤ 32 by decide))

theorem innermost_of_empty (h : (s.eng e).stack = []) : s.innermost e = 0 := by simp only [innermost, h]

/-- With an empty entry stack an exception enters its handler. -/
theorem exception_of_empty (v c : Nat) (pc : Word) (h : (s.eng e).stack = []) :
    s.exception e v c pc = s.enter e (plainRecord v c pc) none := by
  rw [exception, raiseEntry, innermost_of_empty h, if_neg (by decide), h, if_neg (by decide)]

/-- A fault of an access with an empty entry stack: the handler is entered and the address recorded. -/
theorem accessFault_of_empty (x : Exc) (f : FaultInfo) (a : Nat) (h : (s.eng e).stack = []) :
    s.accessFault e x f a =
      (s.enter e (plainRecord x.vector (f.cause x.vector) (s.pc e)) none).faultAddr e a := by
  rw [accessFault, exception_of_empty _ _ _ h]
  refine if_neg ?_
  rw [engState_enter]
  decide

end Sys2Proof.Machine.State
end

section
/-!
PROOF. O26: the two halts.
-/

open Sys2Proof Sys2Proof.Machine Sys2Proof.Machine.State

/-- Settles O26: the order in which the shared operation asks for the two causes. -/
theorem halting : Obligations.Halting := by
  intro s e vector cause pc
  refine ⟨fun hLow hHigh => ?_, fun hOut hFull => ?_⟩
  · have hHalt : s.exception e vector cause pc = s.halt e 1 := if_pos (decide_eq_true ⟨hLow, hHigh⟩)
    rw [hHalt]
    exact ⟨engState_halt s e 1, haltCause_halt s e (by decide), eng_halt s e 1⟩
  · have hIn : ¬(1 ≤ s.innermost e ∧ s.innermost e ≤ 6) := by omega
    have hHalt : s.exception e vector cause pc = s.halt e 2 := by
      rw [exception, raiseEntry, if_neg (by simpa using hIn), if_pos hFull]
    rw [hHalt]
    exact ⟨engState_halt s e 2, haltCause_halt s e (by decide), eng_halt s e 2⟩

end

section
/-!
PROOF. O20: what the decoder's verdicts raise.
-/

namespace Sys2Proof.Machine.State

variable {s : State} {e : Nat}

/-- What an exception's entry leaves of an engine whose entry stack was empty. -/
theorem enter_plain_spec (v c : Nat) (hEmpty : (s.eng e).stack = []) :
    let t := s.enter e (plainRecord v c (s.pc e)) none
    (∃ r, (t.eng e).stack = [r] ∧ r.retPC = s.pc e ∧ r.cause = BitVec.ofNat 32 c ∧ r.g13 = s.greg e 13) ∧
      t.pc e = BitVec.ofNat 32 (v * 16) ∧ (t.eng e).g = (s.eng e).g ∧ (t.eng e).data = (s.eng e).data ∧
      (∀ x, x ≠ e → t.eng x = s.eng x) := by
  have hEng := eng_enter s e (plainRecord v c (s.pc e)) none
  refine ⟨?_, ?_, ?_, ?_, fun x hx => eng_enter_ne s _ none hx⟩
  · rw [hEng, hEmpty]; exact ⟨_, rfl, rfl, rfl, rfl⟩
  · rw [pc, hEng]; rfl
  · rw [hEng]
  · rw [hEng]

theorem exec_illegal (hReady : s.ready e = true) : exec (.illegal e) s = .next
    (match s.decoded e with
    | .illegal reason byte => s.illegal e reason byte
    | _ => s) :=
  congrArg Host.Outcome.next (if_pos hReady)

theorem exec_fetchAccess (hReady : s.ready e = true) : exec (.fetchAccess e) s = .next
    (match s.decoded e with
    | .outside => s.fetchFault e
    | _ => s) :=
  congrArg Host.Outcome.next (if_pos hReady)

end Sys2Proof.Machine.State

open Sys2Proof Sys2Proof.Machine Sys2Proof.Machine.State

/-- Settles O20: each verdict is one entry. -/
theorem decoderExceptions : Obligations.DecoderExceptions := by
  intro s e hReady hEmpty
  refine ⟨fun reason byte hBytes => ⟨s.illegal e reason byte, by rw [exec_illegal hReady, hBytes], ?_⟩,
    fun hBytes => ⟨s.fetchFault e, by rw [exec_fetchAccess hReady, hBytes], ?_⟩, fun n hBytes => ⟨?_, ?_⟩⟩
  · rw [State.illegal, exception_of_empty _ _ _ hEmpty]
    exact enter_plain_spec 1 _ hEmpty
  · rw [fetchFault, accessFault_of_empty _ _ _ hEmpty]
    exact ⟨enter_plain_spec 3 _ hEmpty, reg_setReg_same _ _ _⟩
  · rw [exec_illegal hReady, hBytes]
  · rw [exec_fetchAccess hReady, hBytes]

end

section
/-!
PROOF. O18: the special registers.
-/

namespace Sys2Proof.Machine.State

variable {s : State} {e : Nat}

theorem issue_special_bad {byte : Nat} (body : State → State) (hReady : s.ready e = true)
    (hFetched : s.fetched e 3 = true) : s.issue e (specialForm true byte) body = s.illegal e 7 byte :=
  issue_illegal (b := { reason := 7, byte := byte, need := 3 }) body hReady rfl hFetched

theorem issue_special {byte : Nat} (body : State → State) (hReady : s.ready e = true) (hFetched : s.fetched e 3 = true) :
    s.issue e (specialForm false byte) body = body s :=
  issue_runs body hReady rfl hFetched

/-- Lines are cleared one by one: what each leaves of the pending bits, and that the arrivals of the cycle stay. -/
theorem evtPend_clearLines (s : State) (e : Nat) (v : Word) (l : List Nat) (hl : ∀ k ∈ l, k < 32) {n : Nat} (hn : n < 32) :
    let t := l.foldl (fun s n => if v.getLsbD n then s.clearLine e n else s) s
    t.now = s.now ∧ t.pc e = s.pc e ∧
      (t.eng e).evtPend.getLsbD n =
        ((s.eng e).evtPend.getLsbD n && !(decide (n ∈ l) && v.getLsbD n && !s.now.lines.contains (e, n))) := by
  induction l generalizing s with
  | nil => simp
  | cons k l ih =>
    have hk : k < 32 := hl k (by simp)
    have hStep : (if v.getLsbD k then s.clearLine e k else s).now = s.now ∧
        (if v.getLsbD k then s.clearLine e k else s).pc e = s.pc e ∧
        ((if v.getLsbD k then s.clearLine e k else s).eng e).evtPend.getLsbD n =
          ((s.eng e).evtPend.getLsbD n && !(decide (n = k) && v.getLsbD k && !s.now.lines.contains (e, k))) := by
      cases hv : v.getLsbD k with
      | false => simp
      | true =>
        rw [if_pos rfl, clearLine]
        cases hNow : s.now.lines.contains (e, k) with
        | true => simp [pc]
        | false =>
          refine ⟨rfl, by simp [pc], ?_⟩
          by_cases hnk : n = k
          · subst hnk; simp [hn]
          · have hApart : (s.eng e).evtPend[n] = true → n < k ∨ ¬n - k = 0 := fun _ => by omega
            simpa [hnk, hn] using hApart
    obtain ⟨hNow, hPc, hBit⟩ := hStep
    obtain ⟨ihNow, ihPc, ihBit⟩ := ih (if v.getLsbD k then s.clearLine e k else s) fun j hj => hl j (by simp [hj])
    refine ⟨ihNow.trans hNow, ihPc.trans hPc, ?_⟩
    rw [List.foldl_cons, ihBit, hBit, hNow]
    by_cases hnk : n = k
    · subst hnk
      cases s.now.lines.contains (e, n) <;> cases v.getLsbD n <;> simp
    · simp [hnk]

end Sys2Proof.Machine.State

open Sys2Proof Sys2Proof.Machine Sys2Proof.Machine.State

/-- Settles O18: MTS of the pending lines clears them one after the other (`evtPend_clearLines`). -/
theorem specialRegisters : Obligations.SpecialRegisters := by
  intro s e d a hReady hFetched
  have hMfs {n : Fin 16} (hn : ¬5 < n.val) {v : Word}
      (hv : (if n.val = 0 then (s.eng e).pc else if n.val = 1 then (s.eng e).evtPend
        else if n.val = 2 then (s.eng e).evtMask
        else if n.val = 3 then (match (s.eng e).stack with | r :: _ => r.cause | [] => 0)
        else if n.val = 4 then (match (s.eng e).stack with | r :: _ => r.retPC | [] => 0)
        else (s.eng e).leaseId) = v) : exec (.mfs e d n) s = .next ((s.setGreg e d v).advance e 3) := by
    rw [← hv, exec, execMfs, decide_eq_false hn, issue_special _ hReady hFetched] <;> rfl
  have hMts {n : Fin 16} (hn : ¬(n.val = 0 ∨ 4 < n.val)) :
      exec (.mts e n a) s = .next ((s.putSpecial e n.val (s.greg e a)).advance e 3) := by
    rw [exec, execMts, decide_eq_false hn, issue_special _ hReady hFetched]
  refine ⟨hMfs (by decide) rfl, hMfs (by decide) rfl, hMfs (by decide) rfl, hMfs (by decide) rfl, fun r rest hStack => ?_,
    ?_, hMts (by decide), fun n hn => ?_, fun n hn => ?_⟩
  · refine ⟨hMfs (by decide) (by rw [hStack]; rfl), hMfs (by decide) (by rw [hStack]; rfl), ⟨_, hMts (by decide), ?_⟩,
      ⟨_, hMts (by decide), ?_⟩⟩
    · simp [putSpecial, hStack, advance, goto]
    · simp [putSpecial, hStack, advance, goto]
  · refine ⟨_, hMts (by decide), ?_, fun n hn => ?_⟩
    · obtain ⟨-, hPc, -⟩ := evtPend_clearLines s e (s.greg e a) (List.range 32) (by simp) (n := 0) (by decide)
      simp only [putSpecial, advance, goto]
      rw [pc_setEng]
      exact congrArg (· + BitVec.ofNat 32 3) hPc
    · obtain ⟨-, -, hBit⟩ := evtPend_clearLines s e (s.greg e a) (List.range 32) (by simp) hn
      simp only [putSpecial, advance, goto, eng_setEng_same]
      refine hBit.trans ?_
      simp [hn]
  · rw [exec, execMfs, decide_eq_true hn, issue_special_bad _ hReady hFetched]
  · rw [exec, execMts, decide_eq_true hn, issue_special_bad _ hReady hFetched]

end

section
/-!
PROOF. O21: the decoding checks.
-/

namespace Sys2Proof.Machine

/-- A reserved prefix byte is refused where it stands first. -/
theorem decodeBytes_reserved_prefix {fetch : Nat → Option Nat} {b : Nat} (h0 : fetch 0 = some b)
    (hb : b = 0xE3 ∨ b = 0xE7 ∨ 0xED ≤ b ∧ b ≤ 0xEF) : decodeBytes fetch = .illegal 1 0 := by
  have hPrefix : isPrefix b = true := decide_eq_true (by omega)
  have hClass : prefixClass b = 0 := by
    unfold prefixClass
    repeat rw [if_neg (by omega)]
  simp [decodeBytes, prefixes, h0, hPrefix, hClass]

theorem decodeBytes_same_group {fetch : Nat → Option Nat} {b c : Nat} (h0 : fetch 0 = some b) (h1 : fetch 1 = some c)
    (hb : 0xE0 ≤ b) (hb' : b ≤ 0xE2) (hc : 0xE0 ≤ c) (hc' : c ≤ 0xE2) : decodeBytes fetch = .illegal 2 1 := by
  have hPrefix {x : Nat} (h : 0xE0 ≤ x) (h' : x ≤ 0xE2) : isPrefix x = true := decide_eq_true (by omega)
  have hClass {x : Nat} (h' : x ≤ 0xE2) : prefixClass x = 1 := if_pos h'
  simp [decodeBytes, prefixes, h0, h1, hPrefix hb hb', hPrefix hc hc', hClass hb', hClass hc']

/-- A primary opcode that the table does not define. -/
theorem decodeBytes_no_primary {fetch : Nat → Option Nat} {b : Nat} (h0 : fetch 0 = some b) (hb : b < 0xE0)
    (hNone : primary b = none) : decodeBytes fetch = .illegal 4 0 := by
  have hPrefix : isPrefix b = false := decide_eq_false (by omega)
  have hPrefixes : prefixes fetch 5 0 [] = .ok [] := by simp [prefixes, h0, hPrefix]
  have hSecond : b ≠ 0xFF := by omega
  simp only [decodeBytes, hPrefixes, List.length_nil, h0]
  rw [hNone]

namespace State

variable {s : State} {e : Nat} {d a b : GReg}

/-- An illegal encoding enters vector 0x01 and changes no general register. -/
theorem illegal_enters (reason byte : Nat) (hEmpty : (s.eng e).stack = []) :
    ((s.illegal e reason byte).eng e).g = (s.eng e).g ∧ ((s.illegal e reason byte).eng e).pc = 0x10 := by
  rw [State.illegal, exception_of_empty _ _ _ hEmpty, eng_enter]
  exact ⟨rfl, rfl⟩

/-- An odd register among those that WIDE makes pairs raises ILLEGAL, PAIR, at its byte. -/
theorem issue_pair_odd {need len n byte : Nat} {pairs : List (GReg × Nat)} (body : State → State) (hReady : s.ready e = true)
    (hFetched : s.fetched e n = true) (hNeed : need ≤ n) (hOdd : pairByte pairs = some byte) :
    s.issue e (pairForm true need len pairs) body = s.illegal e 0xB byte := by
  have hBad : (pairForm true need len pairs).bad = some { reason := 0xB, byte := byte, need := need } := by
    show Machine.pairBad true need pairs = _
    rw [Machine.pairBad, if_pos rfl, hOdd, Option.map_some]
  exact issue_illegal (b := { reason := 0xB, byte := byte, need := need }) body hReady hBad (fetched_of_le hFetched hNeed)

end State

/-- Bytes that pass the checks spell the instruction of their parts. -/
theorem instrOf_of_parts {e n : Nat} {bytes : List Nat} {p : Parts} {i : Instr}
    (hValid : decodeBytes (fun k => bytes[k]?) = .valid n) (hParts : partsOf (fun k => bytes[k]?) = some p)
    (hInstr : p.instr e = some i) : instrOf e (fun k => bytes[k]?) = some i := by
  rw [instrOf, hValid, hParts, Option.bind_some, hInstr]

/-- Words of Tables ISA-4 and ISA-5 and what they spell. -/
theorem instrOf_words (e : Nat) :
    let spells (bytes : List Nat) (i : Instr) : Prop := instrOf e (fun k => bytes[k]?) = some i
    spells [0x10, 0x12, 0x30] (.add e false 1 2 3) ∧ spells [0x11, 0x12, 0x30] (.sub e false 1 2 3) ∧
    spells [0xE0, 0x16, 0x24, 0x60] (.mul e true 2 4 6) ∧ spells [0x46, 0x12, 0x34] (.sel e false 1 2 3 4) ∧
    spells [0xE9, 0x61, 0x12, 0x04] (.ld e .word (some .district) 1 2 (.d8 4)) ∧
    spells [0xE4, 0x80, 0x01] (.movs e .word .rep none .district) ∧
    spells [0x2B, 0x12, 0xFF, 0xFE] (.ceqi e false 1 2 0xFEFF false) ∧
    spells [0xE9, 0xE6, 0xFF, 0x01, 0x12, 0x30] (.swp e false 1 3 2) ∧ spells [0xFF, 0x14, 0x12] (.lease e 1 2) ∧
    spells [0xFF, 0x15, 0x12] (.release e 1 2) :=
  ⟨instrOf_of_parts (n := 3) (p := ⟨[], false, 0x10, 0x12, 0x30, 0, 0⟩) (by decide) (by decide) rfl,
    instrOf_of_parts (n := 3) (p := ⟨[], false, 0x11, 0x12, 0x30, 0, 0⟩) (by decide) (by decide) rfl,
    instrOf_of_parts (n := 4) (p := ⟨[0xE0], false, 0x16, 0x24, 0x60, 0, 0⟩) (by decide) (by decide) rfl,
    instrOf_of_parts (n := 3) (p := ⟨[], false, 0x46, 0x12, 0x34, 0, 0⟩) (by decide) (by decide) rfl,
    instrOf_of_parts (n := 4) (p := ⟨[0xE9], false, 0x61, 0x12, 0, 4, 0⟩) (by decide) (by decide) rfl,
    instrOf_of_parts (n := 3) (p := ⟨[0xE4], false, 0x80, 1, 0, 0, 0⟩) (by decide) (by decide) rfl,
    instrOf_of_parts (n := 4) (p := ⟨[], false, 0x2B, 0x12, 0, 0, 0xFEFF⟩) (by decide) (by decide) rfl,
    instrOf_of_parts (n := 6) (p := ⟨[0xE9, 0xE6], true, 0x01, 0x12, 0x30, 0, 0⟩) (by decide) (by decide) rfl,
    instrOf_of_parts (n := 3) (p := ⟨[], true, 0x14, 0x12, 0, 0, 0⟩) (by decide) (by decide) rfl,
    instrOf_of_parts (n := 3) (p := ⟨[], true, 0x15, 0x12, 0, 0, 0⟩) (by decide) (by decide) rfl⟩

end Sys2Proof.Machine

open Sys2Proof Sys2Proof.Machine Sys2Proof.Machine.State

/-- Settles O21: the checks in their order, on the bytes or on the operands. -/
theorem decodingChecks : Obligations.DecodingChecks := by
  refine ⟨fun fetch b => ⟨decodeBytes_reserved_prefix, fun c h0 h1 hb hb' hc hc' => decodeBytes_same_group h0 h1 hb hb' hc hc',
      fun h0 h1 h2 h3 h4 => ?_, fun h0 h1 h2 h3 h4 h5 => ?_, fun h0 => ?_, decodeBytes_no_primary⟩,
    fun s e d a b hReady hFetched hEmpty => ?_, instrOf_words⟩
  · simp [decodeBytes, prefixes, h0, h1, h2, h3, h4, isPrefix, prefixClass]
  · simp [decodeBytes, prefixes, h0, h1, h2, h3, h4, h5, isPrefix, prefixClass, secondary, checkOperands, OpRow.bytes, bit]
  · simp [decodeBytes, prefixes, h0]
  · have hFault {i : Instr} {byte need len : Nat} {pairs : List (GReg × Nat)} {body : State → State} (hNeed : need ≤ 4)
        (hi : exec i s = .next (s.issue e (pairForm true need len pairs) body)) (hOdd : pairByte pairs = some byte) :
        exec i s = .next (s.illegal e 0xB byte) ∧ ((s.illegal e 0xB byte).eng e).g = (s.eng e).g ∧
          ((s.illegal e 0xB byte).eng e).pc = 0x10 :=
      ⟨by rw [hi, issue_pair_odd body hReady hFetched hNeed hOdd], illegal_enters 0xB byte hEmpty⟩
    refine ⟨fun hd => ?_, fun hd ha hb => ?_, fun ha => ?_⟩
    · have hOdd (rest : List (GReg × Nat)) := pairByte_cons_odd 2 rest hd
      exact ⟨hFault (by decide) rfl (hOdd _), hFault (by decide) rfl (hOdd _), hFault (by decide) rfl (hOdd _)⟩
    · have hOdd : pairByte [(d, 2), (a, 2), (b, 3)] = some 3 := by
        rw [pairByte_cons_even _ _ hd, pairByte_cons_even _ _ ha, pairByte_cons_odd _ _ hb]
      have hOdd' : pairByte [(d, 2), (a, 2), (b, 3)] = some 3 := hOdd
      exact ⟨hFault (by decide) rfl hOdd, hFault (by decide) rfl hOdd'⟩
    · exact hFault (by decide) rfl (pairByte_cons_odd 2 _ ha)

end

section
/-!
SUPPORT. The entry of an event line: what is found at the instruction, and the engine that the entry leaves.
-/

namespace Sys2Proof.Machine.State

variable {s : State} {e n : Nat}

/-- Nothing is abandoned, returned to or waited for at the engine's instruction. -/
def Unwaited (s : State) (e : Nat) : Prop :=
  (s.eng e).returned = none ∧ (s.eng e).leaseWait = none ∧ (s.eng e).loadWait = none ∧ (s.eng e).midRep = false

theorem foundAt_unwaited (h : s.Unwaited e) : s.foundAt e none = { abandoned := false, yield := false, held := [] } := by
  obtain ⟨hReturned, hLease, hLoad, hRep⟩ := h
  simp only [foundAt, hReturned, hLease, hLoad, hRep]

theorem eng_clearWait_unwaited (h : s.Unwaited e) : (s.clearWait e).eng e = s.eng e := by
  obtain ⟨-, hLease, hLoad, -⟩ := h
  rw [clearWait, eng_setEng_same]
  generalize s.eng e = x at hLease hLoad
  cases x
  simp only at hLease hLoad
  rw [hLease, hLoad]

@[simp] theorem clearWait_fld (s : State) (e : Nat) (f : Fld) : (s.clearWait e).fld f = s.fld f := rfl

/-- The lines eligible depend on the engine and its level alone. -/
theorem eligibleLine_congr {t : State} (hEng : t.eng e = s.eng e) (hLevel : t.level e = s.level e) :
    t.eligibleLine e = s.eligibleLine e := by
  have hEligible : t.eligible e = s.eligible e := by
    funext k
    rw [eligible, eligible, hEng, hLevel]
  rw [eligibleLine, eligibleLine, hEligible]

theorem eligibleLine_clearWait (h : s.Unwaited e) : (s.clearWait e).eligibleLine e = s.eligibleLine e :=
  eligibleLine_congr (eng_clearWait_unwaited h) rfl

theorem leaseDue_clearWait (h : s.Unwaited e) : (s.clearWait e).leaseDue e = s.leaseDue e := by
  rw [leaseDue, leaseDue, level, clearWait_fld, eng_clearWait_unwaited h, level]

/-- The engine's record and state, where the entry of line `n` is the one that is due. -/
theorem takeEntry_line {f : Returned} {chained : Bool} (hUnwaited : s.Unwaited e) (hLine : s.eligibleLine e = some n)
    (hWatch : (s.eng e).watchPending = false) (hLease : s.leaseDue e = false) (hRefused : (s.eng e).refused = []) :
    ∃ (u : State) (r : Record), s.takeEntry e f chained = u.enter e r (some n) ∧ u.eng e = { s.eng e with
        evtPend := (s.eng e).evtPend &&& ~~~(1#32 <<< n), arrival := (u.eng e).arrival } ∧
      u.level e = s.level e ∧ r.retPC = s.pc e ∧ r.vector = 0x10 + n ∧ r.abandoned = f.abandoned := by
  unfold takeEntry
  simp only [eng_clearWait_unwaited hUnwaited, hWatch, leaseDue_clearWait hUnwaited, hLease, hRefused,
    eligibleLine_clearWait hUnwaited, hLine, Bool.false_eq_true, if_false]
  refine ⟨_, _, rfl, ?_, ?_, ?_, rfl, rfl⟩
  · rw [eng_setEng_same]
  · rw [level, level, setEng_fld, clearWait_fld]
  · rw [asyncRecord, pc, eng_clearWait_unwaited hUnwaited]; rfl

/-- A line that is entered is below the level, and so one of the 32. -/
theorem lt_of_eligibleLine (h : s.eligibleLine e = some n) : n < 32 :=
  List.mem_range.mp (List.mem_of_find?_eq_some h)

theorem entryDue_of_line (hState : s.engState e = 1) (hLine : s.eligibleLine e = some n) : s.entryDue e = true := by
  simp [entryDue, awake, hState, hLine]

/-- EVENT_ENTRY that names no abandoned access. -/
theorem exec_eventEntry_none (hRun : s.inReset = false) (hEngine : s.hasEngine e = true) (hDue : s.entryDue e = true) :
    exec (.eventEntry e none) s = .next (s.takeEntry e (s.foundAt e none) false) := by
  simp [exec, execEventEntry, live_of_running hRun, hEngine, hDue, abandon]

/-- What the entry of line `n` leaves. -/
theorem eventEntry_spec (hRun : s.inReset = false) (hEngine : s.hasEngine e = true) (hState : s.engState e = 1)
    (hUnwaited : s.Unwaited e) (hLine : s.eligibleLine e = some n) (hWatch : (s.eng e).watchPending = false)
    (hLease : s.leaseDue e = false) (hRefused : (s.eng e).refused = []) :
    ∃ t r, exec (.eventEntry e none) s = .next t ∧ (t.eng e).stack = r :: (s.eng e).stack ∧
      r.retPC = s.pc e ∧ r.g13 = s.greg e 13 ∧ r.level = s.level e ∧ r.vector = 0x10 + n ∧ r.abandoned = false ∧
      t.pc e = BitVec.ofNat 32 ((0x10 + n) * 16) ∧ t.level e = n ∧
      (t.eng e).evtPend = (s.eng e).evtPend &&& ~~~(1#32 <<< n) := by
  obtain ⟨u, r, hEntry, hEng, hLevel, hPc, hVector, hAbandoned⟩ :=
    takeEntry_line (f := s.foundAt e none) (chained := false) hUnwaited hLine hWatch hLease hRefused
  have hG : u.greg e 13 = s.greg e 13 := by rw [State.greg, State.greg, hEng]
  refine ⟨_, { r with g13 := u.greg e 13, level := u.level e }, (exec_eventEntry_none hRun hEngine
    (entryDue_of_line hState hLine)).trans (congrArg _ hEntry), ?_, hPc, hG, hLevel, hVector, ?_, ?_, ?_, ?_⟩
  · rw [eng_enter, hEng]
  · rw [hAbandoned, foundAt_unwaited hUnwaited]
  · rw [pc, eng_enter, hVector]
  · rw [level_enter]
    exact Nat.mod_eq_of_lt (Nat.lt_trans (lt_of_eligibleLine hLine) (by decide))
  · rw [eng_enter, hEng]

/-! ### Arrivals -/

theorem exec_eventLineArrival (hRun : s.inReset = false) (hEngine : s.hasEngine e = true) (hn : n < 32) :
    exec (.eventLineArrival e n) s = .next (s.lineArrives e n) := by
  simp [exec, execEventLineArrival, live_of_running hRun, hEngine, hn]

theorem lineArrives_pends (hHeld : s.engState e ≠ 0) (hClear : (s.eng e).evtPend.getLsbD n = false) :
    ((s.lineArrives e n).eng e).evtPend = (s.eng e).evtPend ||| (1#32 <<< n) := by
  unfold lineArrives
  rw [if_neg hHeld]
  refine (congrArg (fun t : State => (t.eng e).evtPend) (if_neg (by rw [Bool.not_eq_true]; exact hClear))).trans ?_
  rw [eng_setEng_same]
  rfl

theorem lineArrives_merged (hHeld : s.engState e ≠ 0) (hSet : (s.eng e).evtPend.getLsbD n = true) :
    (s.lineArrives e n).fld (Fld.CE_EVT_OVR_COUNT e) = min 0xFFFF (s.fld (Fld.CE_EVT_OVR_COUNT e) + 1) ∧
      (s.lineArrives e n).fld (Fld.CE_EVT_OVR_LAST_LINE e) = n % 32 ∧ (s.lineArrives e n).eng e = s.eng e := by
  have hMerged : s.lineArrives e n =
      (State.count { s with now := { s.now with lines := (e, n) :: s.now.lines } } (Fld.CE_EVT_OVR_COUNT e)).setFld
        (Fld.CE_EVT_OVR_LAST_LINE e) n := by
    unfold lineArrives
    rw [if_neg hHeld]
    exact if_pos hSet
  rw [hMerged]
  refine ⟨?_, fld_setFld_same _ (Fld.CE_EVT_OVR_LAST_LINE e) n (show 16 + 5 ≤ 32 by decide), rfl⟩
  rw [fld_setFld_apart _ _ (apart_of_ge (show 0 + 16 ≤ 16 by decide)), fld_count_same _ _ _ (show 0 + 16 ≤ 32 by decide)]
  rfl

/-- An instruction that Table ISA-12 lets complete is not abandoned. -/
theorem abandon_of_completes {i : Instr} (ab : Option Abandon) (hi : s.instrAt e = some i) (h : s.abandons e i = false) :
    s.abandon e ab = (none, s) := by
  cases ab with
  | none => rfl
  | some a => simp [abandon, hi, h, Option.filter]

end Sys2Proof.Machine.State
end

section
/-!
PROOF. O22: arrivals and the entry of the lowest eligible line.
-/

open Sys2Proof Sys2Proof.Machine Sys2Proof.Machine.State

/-- Settles O22. -/
theorem eventEntry : Obligations.EventEntry := by
  intro s e n hRun hEngine hn hState
  have hHeld : s.engState e ≠ 0 := by rw [hState]; decide
  refine ⟨fun hClear => ?_, fun hSet hRoom => ?_, fun hLine hWatch hLease hRefused hRet hLw hDw hRep => ?_, fun ab i hi hForm => ?_⟩
  · refine ⟨_, exec_eventLineArrival hRun hEngine hn, ?_⟩
    exact lineArrives_pends hHeld hClear
  · refine ⟨_, exec_eventLineArrival hRun hEngine hn, ?_⟩
    obtain ⟨hCount, hLine, hEng⟩ := lineArrives_merged hHeld hSet
    refine ⟨?_, hLine.trans (Nat.mod_eq_of_lt (Nat.lt_of_lt_of_le hn (by decide))), hEng⟩
    rw [hCount]
    exact Nat.min_eq_right hRoom
  · exact eventEntry_spec hRun hEngine hState ⟨hRet, hLw, hDw, hRep⟩ hLine hWatch hLease hRefused
  · have hCompletes : s.abandons e i = false := by
      rcases hForm with h | ⟨d, a, b, rfl | rfl⟩ | ⟨d, b, disp, rfl⟩
      · simp only [List.mem_cons, List.not_mem_nil, or_false] at h
        rcases h with rfl | rfl | rfl <;> rfl
      · rfl
      · rfl
      · rfl
    simp only [exec, execEventEntry, live_of_running hRun, abandon_of_completes _ hi hCompletes]

end

section
/-!
PROOF. O23: an entry and its return.
-/

namespace Sys2Proof.Machine.State

variable {s : State} {e : Nat}

/-- A register write leaves the rest of its engine. -/
theorem eng_setGreg (s : State) (e : Nat) (d : GReg) (v : Word) :
    (s.setGreg e d v).eng e = { s.eng e with g := ((s.setGreg e d v).eng e).g } := by
  by_cases hd : d = 0
  · rw [hd, setGreg_zero]
  · rw [setGreg, if_neg hd, eng_setEng_same]

@[simp] theorem setGreg_fld (s : State) (e : Nat) (d : GReg) (v : Word) (f : Fld) : (s.setGreg e d v).fld f = s.fld f := by
  unfold setGreg
  split <;> rfl

@[simp] theorem setGreg_variant (s : State) (e : Nat) (d : GReg) (v : Word) : (s.setGreg e d v).variant = s.variant := by
  unfold setGreg
  split <;> rfl

/-- An engine may issue whatever its general registers hold. -/
theorem ready_setGreg (s : State) (e : Nat) (d : GReg) (v : Word) : (s.setGreg e d v).ready e = s.ready e := by
  have hEng := eng_setGreg s e d v
  have hEligible : (s.setGreg e d v).eligible e = s.eligible e := by
    funext k
    rw [eligible, eligible, level, level, setGreg_fld, hEng]
  have hLease : (s.setGreg e d v).leaseDue e = s.leaseDue e := by
    rw [leaseDue, leaseDue, level, level, setGreg_fld, hEng]
  have hDue : (s.setGreg e d v).entryDue e = s.entryDue e := by
    rw [entryDue, entryDue, awake, awake, engState, engState, setGreg_fld, eligibleLine, eligibleLine, hEligible, hLease, hEng]
  rw [ready, ready, hasEngine, hasEngine, setGreg_variant, engState, engState, setGreg_fld, hDue, hEng]

end Sys2Proof.Machine.State

open Sys2Proof Sys2Proof.Machine Sys2Proof.Machine.State

/-- Settles O23: the entry's record stands at the top (`eventEntry_spec`), and RETE pops it (`reteReturn`). -/
theorem entryAndReturn : Obligations.EntryAndReturn := by
  intro s e n v hRun hEngine hState hLine hWatch hPending hRefused hRet hLw hDw hRep
  have hLease : s.leaseDue e = false := by rw [leaseDue, hPending, Bool.false_and]
  obtain ⟨t, r, hEntry, hStack, hPc, hG, hLevel, -, -, hSlot, -, -⟩ :=
    eventEntry_spec hRun hEngine hState ⟨hRet, hLw, hDw, hRep⟩ hLine hWatch hLease hRefused
  refine ⟨t, hEntry, fun hReady hDue => ?_⟩
  have hn := lt_of_eligibleLine hLine
  have hFetched : (t.setGreg e 13 v).fetched e 3 = true := by
    rw [fetched, pc_setGreg, hSlot, BitVec.toNat_ofNat, decide_eq_true_eq]
    omega
  obtain ⟨u, hRete, hRest, hRetPc, hRetG, hRetLevel⟩ := (reteReturn (t.setGreg e 13 v) e
    ((ready_setGreg t e 13 v).trans hReady) hFetched).2 r (s.eng e).stack ((stack_setGreg t e 13 v).trans hStack) hDue
  exact ⟨u, hRete, hRest, hRetPc.trans hPc, hRetG.trans hG, by rw [hRetLevel, hLevel]⟩

end

section
/-!
SUPPORT. Two states that differ in how their engines are listed alone; the memory instructions' steps in LOCAL.
-/

namespace Sys2Proof.Machine

namespace State

/-- The engines of two states are the same, one by one, and so is everything else. -/
structure EngEq (s t : State) : Prop where
  rest : t = { s with engines := t.engines }
  eng : ∀ x, t.eng x = s.eng x

namespace EngEq

variable {s t u : State} {e : Nat}

theorem refl : EngEq s s := ⟨rfl, fun _ => rfl⟩

theorem trans (h : EngEq s t) (h' : EngEq t u) : EngEq s u := by
  refine ⟨?_, fun x => (h'.eng x).trans (h.eng x)⟩
  have hRest := h'.rest
  rw [h.rest] at hRest
  exact hRest

/-- An engine replaced by itself. -/
theorem setEng_self {x : Engine} (h : x = s.eng e) : EngEq s (s.setEng e x) := by
  refine ⟨rfl, fun y => ?_⟩
  by_cases hy : y = e
  · rw [hy, eng_setEng_same, h]
  · exact eng_setEng_ne s x hy

theorem setEng {x : Engine} (h : EngEq s t) : EngEq (s.setEng e x) (t.setEng e x) := by
  refine ⟨?_, fun y => ?_⟩
  · have hRest := h.rest
    unfold State.setEng
    rw [hRest]
  · by_cases hy : y = e
    · rw [hy, eng_setEng_same, eng_setEng_same]
    · rw [eng_setEng_ne s x hy, eng_setEng_ne t x hy]; exact h.eng y

theorem greg (h : EngEq s t) (x : Nat) (r : GReg) : t.greg x r = s.greg x r := by
  rw [State.greg, State.greg, h.eng]

theorem fld (h : EngEq s t) (f : Fld) : t.fld f = s.fld f := by rw [h.rest]; rfl

theorem setGreg {d : GReg} {v : Word} (h : EngEq s t) : EngEq (s.setGreg e d v) (t.setGreg e d v) := by
  unfold State.setGreg
  split
  · exact h
  · rw [h.eng]; exact h.setEng

theorem wr {wide : Bool} {d : GReg} {v : Nat} (h : EngEq s t) : EngEq (s.wr e wide d v) (t.wr e wide d v) := by
  unfold State.wr
  split
  · split
    · exact h
    · exact h.setGreg.setGreg
  · exact h.setGreg

theorem advance {len : Nat} (h : EngEq s t) : EngEq (s.advance e len) (t.advance e len) := by
  have hPc : t.pc e = s.pc e := by rw [State.pc, State.pc, h.eng]
  rw [State.advance, State.advance, State.goto, State.goto, hPc, h.eng]
  exact h.setEng

theorem entryDue (h : EngEq s t) : t.entryDue e = s.entryDue e := by
  rw [State.entryDue, State.entryDue, awake, awake, engState, engState, h.fld, h.eng, leaseDue, leaseDue, level, level, h.fld,
    h.eng, eligibleLine_congr (h.eng e) (h.fld _)]

end EngEq

variable {s : State} {e a n : Nat}

/-! ### An engine that may issue -/

theorem entryDue_of_ready (h : s.ready e = true) : s.entryDue e = false := by
  simp only [ready, Bool.and_eq_true, Bool.not_eq_true'] at h
  obtain ⟨⟨⟨-, hDue⟩, -⟩, -⟩ := h
  exact hDue

theorem loadWait_of_ready (h : s.ready e = true) : (s.eng e).loadWait = none := by
  simp only [ready, Bool.and_eq_true, Option.isNone_iff_eq_none] at h
  exact h.2

/-- Nothing is held for the instruction. -/
theorem takeHeld_fresh {k : Nat} {fits : Access → Bool} (h : (s.eng e).returned = none) :
    s.takeHeld e k fits = .fresh := by
  simp only [takeHeld, h, Option.bind_none]

theorem settle_plain {sp : Space} (h : inAperture sp a = false) : s.settle e sp a = s := by
  rw [settle, h]
  exact if_neg Bool.false_ne_true

@[simp] theorem settle_local (s : State) (e a : Nat) : s.settle e .engineLocal a = s := rfl

/-- With no posted store there is nothing to wait for. -/
theorem drain_engEq {f : Posted → Bool} (h : (s.eng e).posted = []) : EngEq s (s.drain e f) := by
  rw [drain, h]
  refine EngEq.setEng_self ?_
  rw [List.filter_nil, ← h]

/-! ### LOCAL -/

/-- The stack window holds the access, where the base is g15. -/
def InWindow (s : State) (e : Nat) (b : GReg) (a n : Nat) : Prop :=
  b = 15 → s.fld (Fld.CE_STACK_BASE_BASE e) ≤ a ∧ a + n ≤ s.fld (Fld.CE_STACK_LIMIT_LIMIT e)

theorem check_local_data {write stack : Bool} (ha : a + n ≤ 0x10000)
    (hStack : stack = true → s.fld (Fld.CE_STACK_BASE_BASE e) ≤ a ∧ a + n ≤ s.fld (Fld.CE_STACK_LIMIT_LIMIT e)) :
    s.check e .engineLocal a n write stack = none := by
  have hIn : decide (a + n ≤ 0x10000) = true := decide_eq_true ha
  have hWindow : (stack && !decide (s.fld (Fld.CE_STACK_BASE_BASE e) ≤ a ∧ a + n ≤ s.fld (Fld.CE_STACK_LIMIT_LIMIT e))) = false := by
    cases stack with
    | false => rfl
    | true => simp [hStack rfl]
  rw [check, checkLocal, hIn, hWindow]
  rfl

theorem check_local_window {write : Bool} {b : GReg} (ha : a + n ≤ 0x10000) (hWindow : s.InWindow e b a n) :
    s.check e .engineLocal a n write (b == 15) = none :=
  check_local_data ha fun h => hWindow (beq_iff_eq.mp h)

theorem checkStore_local {stack : Bool} {v : Nat} (h : s.check e .engineLocal a n true stack = none) :
    s.checkStore e .engineLocal a n v stack = none := by
  rw [checkStore, h]
  rfl

theorem bytesNat_map_range (f : Nat → Byte) (n : Nat) :
    bytesNat ((List.range (n + 1)).map f) = (f 0).toNat + 256 * bytesNat ((List.range n).map fun k => f (k + 1)) := by
  rw [List.range_succ_eq_map, List.map_cons, List.map_map]
  rfl

/-- Bytes read one by one are a number with the first the least significant. -/
theorem bytesNat_read (m : Mem) (a n : Nat) : bytesNat ((List.range n).map fun k => m.read (a + k)) = m.readLE a n := by
  induction n generalizing a with
  | zero => rfl
  | succ n ih =>
    rw [bytesNat_map_range, Mem.readLE, ← ih (a + 1)]
    simp only [Nat.add_zero, Nat.add_comm 1, Nat.add_assoc]

/-- A read of LOCAL below instruction SRAM reads data SRAM. -/
theorem localRead_data (h : a + n ≤ 0x10000) : s.localRead e a n = (s.eng e).data.readLE a n := by
  rw [localRead, ← bytesNat_read]
  congr 1
  refine List.map_congr_left fun k hk => ?_
  rw [List.mem_range] at hk
  exact if_pos (by omega)

/-- A load of data SRAM finishes at once. -/
theorem loadInstr_local {w : LoadWait} {b : GReg} (hReady : s.ready e = true) (hRet : (s.eng e).returned = none)
    (hPosted : (s.eng e).posted = []) (hSpace : w.space = .engineLocal) (ha : w.addr + w.bytes ≤ 0x10000)
    (hWindow : s.InWindow e b w.addr w.bytes) :
    EngEq ((s.wr e w.wide w.d (if w.signed then ofSigned (if w.wide then 64 else 32)
        (toSigned (8 * w.bytes) ((s.eng e).data.readLE w.addr w.bytes)) else (s.eng e).data.readLE w.addr w.bytes)).advance e w.len)
      (s.loadInstr e w (b == 15)) := by
  have hDrain : EngEq s (s.drain e (·.inSpace .engineLocal)) := drain_engEq hPosted
  have hWait : EngEq (s.drain e (·.inSpace .engineLocal))
      ((s.drain e (·.inSpace .engineLocal)).setEng e { (s.drain e (·.inSpace .engineLocal)).eng e with loadWait := none }) := by
    refine EngEq.setEng_self ?_
    rw [hDrain.eng, ← loadWait_of_ready hReady]
  have hDue := entryDue_of_ready hReady
  simp only [loadInstr, takeHeld_fresh hRet, hSpace, settle_local, hDue, Bool.false_eq_true, if_false,
    check_local_window ha hWindow, hDrain.entryDue, loadAt, finishLoad, localRead_data ha, hDrain.eng]
  rw [← hDrain.eng e]
  exact (hDrain.trans hWait).wr.advance

/-- A store to data SRAM is done at once. -/
theorem storeInstr_local {b : GReg} {v len : Nat} (hReady : s.ready e = true) (ha : a + n ≤ 0x10000)
    (hWindow : s.InWindow e b a n) :
    s.storeInstr e .engineLocal a n v (b == 15) len =
      (s.setEng e { s.eng e with data := (s.eng e).data.writeLE a n v }).advance e len := by
  have hDue := entryDue_of_ready hReady
  simp only [storeInstr, settle_local, hDue, Bool.false_eq_true, if_false, checkStore_local (check_local_window ha hWindow),
    if_true, putStore, storeAt]

theorem sizePrefix_le_one (size : Size) : sizePrefix size ≤ 1 := by cases size <;> decide

section
variable {size : Size} {sp : Option Space} {g b : GReg} {disp : Disp}

theorem exec_ld (hReady : s.ready e = true) (hFetched : s.fetched e (memPrefix size sp + dispLen disp) = true)
    (hEven : (size == .wide) = true → oddReg g = false) :
    exec (.ld e size sp g b disp) s = .next (s.loadInstr e
      { space := spaceOf sp, d := g, wide := size == .wide, signed := false
        addr := effAddr (s.greg e b) (dispValue disp), bytes := sizeBytes size
        len := memPrefix size sp + dispLen disp } (b == 15)) :=
  congrArg Host.Outcome.next (issue_pairForm _ hReady hFetched (by simpa using hEven))

theorem exec_lds (hReady : s.ready e = true) (hFetched : s.fetched e (memPrefix size sp + dispLen disp) = true)
    (hSize : size ≠ .wide) :
    exec (.lds e size sp g b disp) s = .next (s.loadInstr e
      { space := spaceOf sp, d := g, wide := false, signed := true
        addr := effAddr (s.greg e b) (dispValue disp), bytes := sizeBytes size
        len := memPrefix size sp + dispLen disp } (b == 15)) :=
  congrArg Host.Outcome.next (issue_runs _ hReady (if_neg hSize) hFetched)

theorem exec_st (hReady : s.ready e = true) (hFetched : s.fetched e (memPrefix size sp + dispLen disp) = true)
    (hEven : (size == .wide) = true → oddReg g = false) :
    exec (.st e size sp g b disp) s = .next (s.storeInstr e (spaceOf sp) (effAddr (s.greg e b) (dispValue disp))
      (sizeBytes size) (s.rd e (size == .wide) g) (b == 15) (memPrefix size sp + dispLen disp)) :=
  congrArg Host.Outcome.next (issue_pairForm _ hReady hFetched (by simpa using hEven))

theorem exec_sti {far imm : BitVec 32} (hReady : s.ready e = true) (hFetched : s.fetched e (memPrefix size sp + 10) = true) :
    exec (.sti e size sp b far imm) s = .next (s.storeInstr e (spaceOf sp) (effAddr (s.greg e b) far.toInt)
      (sizeBytes size) (ofSigned 64 imm.toInt) (b == 15) (memPrefix size sp + 10)) :=
  congrArg Host.Outcome.next (issue_plainForm _ hReady hFetched le_rfl)

end

end State
end Sys2Proof.Machine
end

section
/-!
PROOF. O9: loads and stores of LOCAL.
-/

namespace Sys2Proof.Machine.State

variable {s : State} {e : Nat} {size : Size} {g b : GReg} {disp : Disp}

/-- A load of data SRAM writes gd. -/
theorem ld_local (hReady : s.ready e = true) (hFetched : s.fetched e (sizePrefix size + dispLen disp) = true)
    (hEven : (size == .wide) = true → oddReg g = false)
    (ha : effAddr (s.greg e b) (dispValue disp) + sizeBytes size ≤ 0x10000)
    (hWindow : s.InWindow e b (effAddr (s.greg e b) (dispValue disp)) (sizeBytes size))
    (hRet : (s.eng e).returned = none) (hPosted : (s.eng e).posted = []) :
    ∃ t, exec (.ld e size none g b disp) s = .next t ∧
      EngEq ((s.wr e (size == .wide) g ((s.eng e).data.readLE (effAddr (s.greg e b) (dispValue disp)) (sizeBytes size))).advance
        e (sizePrefix size + dispLen disp)) t :=
  ⟨_, exec_ld (sp := none) hReady hFetched hEven, loadInstr_local
    (w := { space := .engineLocal, d := g, wide := size == .wide, signed := false, addr := effAddr (s.greg e b) (dispValue disp)
            bytes := sizeBytes size, len := sizePrefix size + dispLen disp })
    hReady hRet hPosted rfl ha hWindow⟩

theorem st_local (hReady : s.ready e = true) (hFetched : s.fetched e (sizePrefix size + dispLen disp) = true)
    (hEven : (size == .wide) = true → oddReg g = false)
    (ha : effAddr (s.greg e b) (dispValue disp) + sizeBytes size ≤ 0x10000)
    (hWindow : s.InWindow e b (effAddr (s.greg e b) (dispValue disp)) (sizeBytes size)) :
    exec (.st e size none g b disp) s = .next
      ((s.setEng e { s.eng e with
        data := (s.eng e).data.writeLE (effAddr (s.greg e b) (dispValue disp)) (sizeBytes size) (s.rd e (size == .wide) g)
        }).advance e (sizePrefix size + dispLen disp)) :=
  (exec_st (sp := none) hReady hFetched hEven).trans (congrArg _ (storeInstr_local hReady ha hWindow))

end Sys2Proof.Machine.State

open Sys2Proof Sys2Proof.Machine Sys2Proof.Machine.State

/-- Settles O9: a load ends in a register write, a store in a write of data SRAM; the frames follow. -/
theorem localMemory : Obligations.LocalMemory := by
  refine ⟨fun s e size g b disp far imm => ?_, fun s t e size g b disp => ?_⟩
  · intro len a a' n wide mem inWindow becomes hReady hFetched hEven ha hWindow hRet hPosted
    have hBecomes {i : Instr} {t u : State} (hu : u = { s with engines := u.engines }) (hi : exec i s = .next t)
        (h : EngEq u t) : becomes i u :=
      ⟨t, hi, by rw [h.rest, hu], h.eng⟩
    refine ⟨?_, fun hNarrow => ?_, ?_, fun hFar haFar hWindowFar => ?_⟩
    · obtain ⟨t, hi, h⟩ := ld_local hReady hFetched hEven ha hWindow hRet hPosted
      exact hBecomes (WritesRegs.advance (W := fun _ => True) (.wr .refl fun _ _ => trivial)).rest hi h
    · have hSize : size ≠ .wide := ne_of_beq_false hNarrow
      exact hBecomes (WritesRegs.advance (W := fun _ => True) (.wr .refl fun _ _ => trivial)).rest
        (exec_lds (sp := none) hReady hFetched hSize) (loadInstr_local
          (w := { space := .engineLocal, d := g, wide := false, signed := true, addr := a, bytes := n, len := len })
          hReady hRet hPosted rfl ha hWindow)
    · exact hBecomes rfl (st_local hReady hFetched hEven ha hWindow) .refl
    · refine hBecomes rfl (exec_sti (sp := none) hReady hFar) ?_
      rw [show spaceOf none = .engineLocal from rfl, storeInstr_local hReady haFar hWindowFar]
      exact .refl
  · intro a n hReady hFetched hEven ha hBase hRet hPosted
    have hWindow : s.InWindow e b a n := fun h => absurd h hBase
    have hLen : s.fetched e (sizePrefix size + dispLen disp) = true :=
      fetched_of_le hFetched (by have := sizePrefix_le_one size; have := dispLen_le_six disp; omega)
    have hEven' : (size == .wide) = true → oddReg g = false := fun h => hEven (beq_iff_eq.mp h)
    refine ⟨fun ht => ?_, fun ht => ?_⟩
    · rw [st_local hReady hLen hEven' ha hWindow] at ht
      cases ht
      refine ⟨rfl, fun x hx => ?_, ?_, ?_, ?_, fun x hx => ?_, ?_⟩
      · rw [advance, goto, eng_setEng_ne _ _ hx, eng_setEng_ne _ _ hx]
      all_goals rw [advance, goto, eng_setEng_same, eng_setEng_same]
      · exact hPosted
      · exact Mem.read_writeLE_outside n _ a _ hx
      · exact Mem.readLE_writeLE n _ a _
    · obtain ⟨u, hi, h⟩ := ld_local hReady hLen hEven' ha hWindow hRet hPosted
      rw [hi] at ht
      cases ht
      obtain ⟨hRest, hOthers, hEngine, hRegs⟩ :=
        WritesRegs.advance (s := s) (len := sizePrefix size + dispLen disp) (W := Dest (size == .wide) g)
          (.wr (v := (s.eng e).data.readLE a n) .refl fun _ h => h)
      refine ⟨by rw [h.rest, hRest], fun x hx => (h.eng x).trans (hOthers x hx), ?_, ?_, fun r hd hPair => ?_⟩
      · rw [h.eng, hEngine]
      · rw [h.eng, hEngine]
      · rw [h.greg]
        exact hRegs r fun hr => hr.elim hd fun hp => hPair ⟨beq_iff_eq.mp hp.1, hp.2⟩

end

section
/-!
PROOF. O10: posted stores.
-/

namespace Sys2Proof.Machine.State

variable {s : State} {e : Nat}

/-- A store outside LOCAL that passes its checks, with room in the queue, is posted. -/
theorem storeInstr_posts {sp : Space} {a n v len : Nat} {stack : Bool} (hSpace : sp ≠ .engineLocal) (hReady : s.ready e = true)
    (hCheck : s.checkStore e sp a n v stack = none) (hAperture : inAperture sp a = false) (hRoom : (s.eng e).posted.length < 8) :
    s.storeInstr e sp a n v stack len = (s.post e (.store sp a n (v % 256 ^ n))).advance e len := by
  have hDue := entryDue_of_ready hReady
  have hRoom' : ¬8 ≤ (s.eng e).posted.length := Nat.not_le.mpr hRoom
  simp only [storeInstr, settle_plain hAperture, hDue, Bool.false_eq_true, if_false, hCheck, hSpace, makeRoom, hRoom', putStore]

/-! ### Bytes of district SRAM -/

@[simp] theorem count_dist (s : State) (f : Fld) (k d : Nat) : (s.count f k).dist d = s.dist d := rfl

theorem sram_sramScrub (s : State) (d a n : Nat) : ((s.sramScrub d a n).dist d).sram = (s.dist d).sram := by
  unfold sramScrub
  dsimp only
  split
  · rfl
  · rw [count_dist, dist_setDist_same]

theorem sram_sramClean (s : State) (d a n : Nat) : ((s.sramClean d a n).dist d).sram = (s.dist d).sram := by
  rw [sramClean, sram_sramScrub, dist_setDist_same]

/-- A store to district SRAM changes its bytes. -/
theorem sram_sramStore (s : State) (d a n v : Nat) : ((s.sramStore d a n v).dist d).sram = (s.dist d).sram.writeLE a n v := by
  rw [sramStore, dist_setDist_same, sram_sramClean]

theorem eng_sramScrub (s : State) (d a n x : Nat) : (s.sramScrub d a n).eng x = s.eng x := by
  unfold sramScrub
  dsimp only
  split <;> rfl

theorem eng_sramStore (s : State) (d a n v x : Nat) : (s.sramStore d a n v).eng x = s.eng x :=
  eng_sramScrub _ d a n x

/-! ### Completions -/

theorem ordered_store_district (a n v : Nat) (q : Posted) : q.ordered (.store .district a n v) = q.inSpace .district := by
  cases q with
  | store p _ _ _ => rfl
  | doorbell _ _ => rfl

theorem completePosted_waits {k : Nat} {p : Posted} (hAt : (s.eng e).posted[k]? = some p)
    (hBefore : ((s.eng e).posted.take k).any (·.ordered p) = true) : s.completePosted e k = s := by
  simp only [completePosted, hAt, hBefore, if_true]

theorem completePosted_applies {k : Nat} {p : Posted} (hAt : (s.eng e).posted[k]? = some p)
    (hBefore : ((s.eng e).posted.take k).any (·.ordered p) = false) :
    s.completePosted e k = applyPosted e (s.setEng e { s.eng e with posted := (s.eng e).posted.eraseIdx k }) p := by
  simp only [completePosted, hAt, hBefore, Bool.false_eq_true, if_false]

/-- An ACCESS entry of a refused store is due at an engine that runs. -/
theorem entryDue_of_refused (hAwake : s.awake e = true) (hRefused : (s.eng e).refused ≠ []) : s.entryDue e = true := by
  have hSome : (s.eng e).refused.isEmpty = false := List.isEmpty_eq_false_iff.mpr hRefused
  rw [entryDue, hAwake, hSome, Bool.not_false, Bool.or_true, Bool.true_or, Bool.and_true]

end Sys2Proof.Machine.State

open Sys2Proof Sys2Proof.Machine Sys2Proof.Machine.State

/-- Settles O10: the store joins the queue; its completion asks for the earlier ones, then for the right to write. -/
theorem postedStores : Obligations.PostedStores := by
  refine ⟨fun s e size sp g b disp => ?_, fun s e k a n v => ?_⟩
  · intro len a n v hSpace hReady hFetched hEven hCheck hAperture hRoom
    have hEven' : (size == .wide) = true → oddReg g = false := fun h => hEven (beq_iff_eq.mp h)
    exact (exec_st (sp := some sp) hReady hFetched hEven').trans
      (congrArg _ (storeInstr_posts hSpace hReady hCheck hAperture hRoom))
  · intro hReset hAt ha rest
    have hExec : exec (.postedStoreCompletion e k) s = .next (s.completePosted e k) :=
      congrArg _ (live_of_running hReset _)
    have hOrder := funext (ordered_store_district a n v)
    refine ⟨fun hBefore => ?_, fun hBefore hn => ⟨fun hWrite => ?_, fun hWrite hAwake => ?_⟩⟩
    · rw [hExec, completePosted_waits hAt (by rw [hOrder]; exact hBefore)]
    all_goals
      have hStep : s.completePosted e k = rest.storeDistrict e a n v :=
        completePosted_applies hAt (by rw [hOrder]; exact hBefore)
      have hSram : a < sramSize := show a < 0x400000 by omega
    · refine ⟨_, hExec.trans (congrArg _ (hStep.trans ((if_pos hSram).trans (if_pos hWrite)))), ?_, ?_⟩
      · exact sram_sramStore rest (e / 12) a n v
      · exact eng_sramStore rest (e / 12) a n v e
    · have hRefuse : rest.refusePosted e .district a n =
          rest.setEng e { rest.eng e with refused := (rest.eng e).refused ++ [{ space := .district, addr := a, bytes := n }] } :=
        if_pos hAwake
      have hRest : rest.eng e = { s.eng e with posted := (s.eng e).posted.eraseIdx k } := eng_setEng_same s e _
      refine ⟨_, hExec.trans (congrArg _ (hStep.trans ((if_pos hSram).trans
        ((if_neg (by rw [hWrite]; decide)).trans hRefuse)))), rfl, ?_, ?_⟩
      · refine entryDue_of_refused hAwake ?_
        rw [eng_setEng_same]
        exact List.append_ne_nil_of_right_ne_nil _ (List.cons_ne_nil _ _)
      · rw [eng_setEng_same, hRest]

end

section
/-!
PROOF. O11: the exception of a failing access.
-/

namespace Sys2Proof.Machine.State

variable {s : State} {e : Nat}

/-- A load of a word that fails a check. -/
theorem loadInstr_faults {w : LoadWait} {stack : Bool} {x : Exc} (hReady : s.ready e = true) (hRet : (s.eng e).returned = none)
    (hAperture : inAperture w.space w.addr = false) (hCheck : s.check e w.space w.addr w.bytes false stack = some x) :
    s.loadInstr e w stack = s.accessFault e x
      { space := w.space, write := false, noMem := false, fetch := false, posted := false, bytes := w.bytes } w.addr := by
  have hDue := entryDue_of_ready hReady
  simp only [loadInstr, takeHeld_fresh hRet, settle_plain hAperture, hDue, Bool.false_eq_true, if_false, hCheck]

/-- A store in LOCAL that fails a check. -/
theorem storeInstr_faults {a n v len : Nat} {stack : Bool} {x : Exc} (hReady : s.ready e = true)
    (hCheck : s.check e .engineLocal a n true stack = some x) :
    s.storeInstr e .engineLocal a n v stack len = s.accessFault e x
      { space := .engineLocal, write := true, noMem := false, fetch := false, posted := false, bytes := n } a := by
  have hDue := entryDue_of_ready hReady
  have hMark : s.markForeign e a n .engineLocal = s := if_neg (fun h => nomatch h.1)
  simp only [storeInstr, settle_local, hDue, Bool.false_eq_true, if_false, checkStore, hCheck, hMark]

/-- LOCAL refuses a store beyond data SRAM, and a load beyond instruction SRAM. -/
theorem check_local_access {a n : Nat} {write stack : Bool} (hData : 0x10000 < a + n) (hInstr : write = true ∨ 0x20000 < a + n) :
    s.check e .engineLocal a n write stack = some .access := by
  have hOut : ¬a + n ≤ 0x10000 := Nat.not_le.mpr hData
  refine if_pos ?_
  rw [decide_eq_false hOut]
  cases hInstr with
  | inl hWrite => rw [hWrite, Bool.not_true, Bool.and_false]; rfl
  | inr hBeyond => rw [decide_eq_false (fun h => absurd h.2 (Nat.not_le.mpr hBeyond))]; rfl

/-- Below the stack window a base of g15 is refused. -/
theorem check_local_stack {a n : Nat} {write : Bool} (hData : a + n ≤ 0x10000) (hBelow : a < s.fld (Fld.CE_STACK_BASE_BASE e)) :
    s.check e .engineLocal a n write true = some .stack := by
  have hWindow : ¬(s.fld (Fld.CE_STACK_BASE_BASE e) ≤ a ∧ a + n ≤ s.fld (Fld.CE_STACK_LIMIT_LIMIT e)) :=
    fun h => absurd hBelow (Nat.not_lt.mpr h.1)
  simp only [check, checkLocal, decide_eq_true hData, Bool.true_or, Bool.not_true, Bool.false_eq_true, if_false,
    decide_eq_false hWindow, Bool.not_false, Bool.and_true, if_true]

theorem check_image_align {a n : Nat} {stack : Bool} (hIn : a + n ≤ s.variant.points * 16) (hAlign : a % n ≠ 0) :
    s.check e .image a n false stack = some .align := by
  simp only [check, checkImage, hIn, if_true, Bool.false_and, Bool.false_eq_true, if_false, bne_iff_ne, ne_eq, hAlign,
    not_false_eq_true]

theorem check_image_access {a n : Nat} {stack : Bool} (hOut : s.variant.points * 16 < a + n) (hBelow : a < 0x40000000) :
    s.check e .image a n false stack = some .access := by
  have hControl : ¬(0x40000000 ≤ a ∧ a + n ≤ 0x40000080) := fun h => absurd hBelow (Nat.not_lt.mpr h.1)
  simp only [check, checkImage, Nat.not_le.mpr hOut, hControl, if_false]

/-- What the fault of an access leaves, where the entry stack was empty. -/
theorem accessFault_spec (x : Exc) (f : FaultInfo) (a : Nat) (g : GReg) (hEmpty : (s.eng e).stack = []) :
    let t := s.accessFault e x f a
    (t.eng e).pc = BitVec.ofNat 32 (x.vector * 16) ∧ (t.eng e).data = (s.eng e).data ∧ t.greg e g = s.greg e g ∧
      t.reg (Reg.CE_FAULT_ADDR e) = BitVec.ofNat 32 a ∧
      ∃ r, (t.eng e).stack = [r] ∧ r.retPC = s.pc e ∧ r.cause = BitVec.ofNat 32 (f.cause x.vector) := by
  intro t
  obtain ⟨⟨r, hStack, hPc, hCause, -⟩, hVector, hRegs, hData, -⟩ := enter_plain_spec (s := s) x.vector (f.cause x.vector) hEmpty
  have hEng : t.eng e = (s.enter e (plainRecord x.vector (f.cause x.vector) (s.pc e)) none).eng e := by
    rw [show t = _ from accessFault_of_empty x f a hEmpty]; rfl
  refine ⟨?_, ?_, ?_, ?_, r, ?_, hPc, hCause⟩
  · rw [hEng]; exact hVector
  · rw [hEng, hData]
  · rw [greg, greg, hEng, hRegs]
  · rw [show t = _ from accessFault_of_empty x f a hEmpty]; exact reg_setReg_same _ _ _
  · rw [hEng, hStack]

end Sys2Proof.Machine.State

open Sys2Proof Sys2Proof.Machine Sys2Proof.Machine.State

/-- Settles O11: the check that fails first names the exception. -/
theorem accessChecks : Obligations.AccessChecks := by
  intro s e g b disp a hReady hFetched hRet hEmpty faults
  have hFault {i : Instr} {x : Exc} {f : FaultInfo} (hi : exec i s = .next (s.accessFault e x f a)) :
      ∃ t, exec i s = .next t ∧ (t.eng e).pc = BitVec.ofNat 32 (x.vector * 16) ∧
        (t.eng e).data = (s.eng e).data ∧ t.greg e g = s.greg e g ∧ t.reg (Reg.CE_FAULT_ADDR e) = BitVec.ofNat 32 a ∧
        ∃ r, (t.eng e).stack = [r] ∧ r.retPC = s.pc e ∧ r.cause = BitVec.ofNat 32 (f.cause x.vector) :=
    ⟨_, hi, accessFault_spec x f a g hEmpty⟩
  have hLen (sp : Option Space) : s.fetched e (memPrefix .word sp + dispLen disp) = true :=
    fetched_of_le hFetched (by have := dispLen_le_six disp; cases sp <;> (simp [memPrefix, sizePrefix, spacePrefix, bit]; omega))
  have hLoad {sp : Option Space} {x : Exc} (hAperture : inAperture (spaceOf sp) a = false)
      (hCheck : s.check e (spaceOf sp) a 4 false (b == 15) = some x) : exec (.ld e .word sp g b disp) s =
        .next (s.accessFault e x
          { space := spaceOf sp, write := false, noMem := false, fetch := false, posted := false, bytes := 4 } a) :=
    (exec_ld (size := .word) (sp := sp) hReady (hLen sp) (fun h => nomatch h)).trans
      (congrArg _ (loadInstr_faults hReady hRet hAperture hCheck))
  refine ⟨fun hOut => ?_, fun hOut => ?_, fun hBase hIn hBelow => ?_, fun hIn hAlign => ?_, fun hOut hBelow => ?_⟩
  · exact hFault ((exec_st (size := .word) (sp := none) hReady (hLen none) (fun h => nomatch h)).trans
      (congrArg _ (storeInstr_faults hReady (check_local_access hOut (.inl rfl)))))
  · exact hFault (hLoad (sp := none) rfl (check_local_access (by omega) (.inr hOut)))
  · exact hFault (hLoad (sp := none) rfl (by rw [hBase]; exact check_local_stack hIn hBelow))
  · exact hFault (hLoad (sp := some .image) rfl (check_image_align hIn hAlign))
  · exact hFault (hLoad (sp := some .image) rfl (check_image_access hOut hBelow))

end

section
/-!
SUPPORT. String instructions in LOCAL: the element of each, as register writes and a write of data SRAM.
-/

namespace Sys2Proof.Machine

namespace Alu

theorem reverse_lt (w p : Nat) : reverse w p < 2 ^ w := by
  induction w generalizing p with
  | zero => exact Nat.one_pos
  | succ j ih =>
    have hBit := bit_le_one (p.testBit 0)
    have hHead : bit (p.testBit 0) * 2 ^ j ≤ 1 * 2 ^ j := Nat.mul_le_mul_right _ hBit
    have := ih (p / 2)
    rw [reverse, Nat.pow_succ]
    omega

theorem crcForward_lt (k : Nat) {w p c : Nat} (h : c < 2 ^ w) : crcForward k w p c < 2 ^ w := by
  induction k generalizing c with
  | zero => exact h
  | succ j ih =>
    rw [crcForward]
    split <;> exact ih (Nat.mod_lt _ (Nat.two_pow_pos w))

theorem crcReflected_lt (k : Nat) {w rp c : Nat} (hp : rp < 2 ^ w) (h : c < 2 ^ w) : crcReflected k rp c < 2 ^ w := by
  induction k generalizing c with
  | zero => exact h
  | succ j ih =>
    have hHalf : c / 2 < 2 ^ w := (Nat.div_le_self c 2).trans_lt h
    rw [crcReflected]
    split
    · exact ih (Nat.xor_lt_two_pow hHalf hp)
    · exact ih hHalf

/-- The step of a CRC stays within its width. -/
theorem crcStep_lt {w : Nat} (r : Bool) (poly c : Nat) {b : Nat} (hw : 8 ≤ w) (hb : b < 256) : crcStep w r poly c b < 2 ^ w := by
  have hSplit : 2 ^ w = 256 * 2 ^ (w - 8) := by
    rw [show (256 : Nat) = 2 ^ 8 from rfl, ← Nat.pow_add, Nat.add_sub_cancel' hw]
  have hByte : b < 2 ^ w := hSplit ▸ hb.trans_le (Nat.le_mul_of_pos_right _ (Nat.two_pow_pos _))
  have hHigh : b * 2 ^ (w - 8) < 2 ^ w := hSplit ▸ (Nat.mul_lt_mul_right (Nat.two_pow_pos _)).mpr hb
  have hOld : c % 2 ^ w < 2 ^ w := Nat.mod_lt _ (Nat.two_pow_pos w)
  unfold crcStep
  split
  · exact crcReflected_lt 8 (reverse_lt w _) (Nat.xor_lt_two_pow hOld hByte)
  · exact crcForward_lt 8 (Nat.xor_lt_two_pow hOld hHigh)

end Alu

namespace State

variable {s : State} {e : Nat}

theorem crcByte_lt (s : State) (e k c : Nat) (b : Byte) : s.crcByte e k c b < 2 ^ 32 := by
  have hWidth : 8 ≤ s.crcWidth e k ∧ s.crcWidth e k ≤ 32 := by
    unfold crcWidth
    dsimp only
    split
    · decide
    · split <;> decide
  exact (Alu.crcStep_lt _ _ _ hWidth.1 b.isLt).trans_le (Nat.pow_le_pow_right (by decide) hWidth.2)

theorem natBytes_one (b : Byte) : natBytes 1 b.toNat = [b] := by simp [natBytes]

theorem readLE_one (m : Mem) (a : Nat) : m.readLE a 1 = (m.read a).toNat := by simp [Mem.readLE]

theorem natBytes_readLE_one (m : Mem) (a : Nat) : natBytes 1 (m.readLE a 1) = [m.read a] := by
  rw [readLE_one, natBytes_one]

/-! ### What register writes and the pc leave -/

@[simp] theorem data_setGreg (s : State) (e : Nat) (r : GReg) (v : Word) : ((s.setGreg e r v).eng e).data = (s.eng e).data := by
  rw [eng_setGreg]

@[simp] theorem data_advance (s : State) (e len : Nat) : ((s.advance e len).eng e).data = (s.eng e).data := by
  rw [advance, goto, eng_setEng_same]

@[simp] theorem greg_advance (s : State) (e len x : Nat) (r : GReg) : (s.advance e len).greg x r = s.greg x r := by
  rw [advance, goto, greg, greg]
  by_cases hx : x = e
  · rw [hx, eng_setEng_same]
  · rw [eng_setEng_ne s _ hx]

@[simp] theorem pc_advance (s : State) (e len : Nat) : (s.advance e len).pc e = s.pc e + BitVec.ofNat 32 len := by
  rw [advance, goto, pc, eng_setEng_same]

/-- A write of data SRAM. -/
def writeData (s : State) (e a n v : Nat) : State :=
  s.setEng e { s.eng e with data := (s.eng e).data.writeLE a n v }

@[simp] theorem data_writeData (s : State) (e a n v : Nat) :
    ((s.writeData e a n v).eng e).data = (s.eng e).data.writeLE a n v := by
  rw [writeData, eng_setEng_same]

@[simp] theorem greg_writeData (s : State) (e a n v : Nat) (r : GReg) : (s.writeData e a n v).greg e r = s.greg e r := by
  rw [writeData, greg, greg, eng_setEng_same]

@[simp] theorem pc_writeData (s : State) (e a n v : Nat) : (s.writeData e a n v).pc e = s.pc e := by
  rw [writeData, pc, pc, eng_setEng_same]

/-! ### Elements in LOCAL -/

/-- A string instruction whose form is valid, once or with elements left, runs its element. -/
theorem stringIssue_runs {size : Size} {rep : Rep} {repz : Bool} {regs : List GReg} {ds : Option Space} {len : Nat}
    (body : State → State) (hReady : s.ready e = true) (hFetched : s.fetched e len = true) (hRegs : regs.any stringReg = false)
    (hSize : size ≠ .wide) (hRep : rep ≠ .repz) (hDest : ds ≠ some .image) :
    s.stringIssue e size none rep repz regs ds false len body =
      if rep ≠ .once ∧ s.greg e 12 = 0 then s.advance e len else body s := by
  unfold stringIssue
  refine issue_runs _ hReady ?_ ?_
  · simp [firstBad, hRegs, hSize, hRep, hDest]
  · exact hFetched

theorem endElement_once (s : State) (e : Nat) (u : Bool) (len : Nat) : s.endElement e .once u len = s.advance e len := by
  rw [endElement, if_neg (fun h => nomatch h.1), if_neg (fun h => h.1 rfl)]

/-- The engine with elements left: it stays at its instruction. -/
def repeats (s : State) (e : Nat) : State := s.setEng e { s.eng e with returned := none, midRep := true }

@[simp] theorem greg_repeats (s : State) (e : Nat) (r : GReg) : (s.repeats e).greg e r = s.greg e r := by
  rw [repeats, greg, greg, eng_setEng_same]

@[simp] theorem pc_repeats (s : State) (e : Nat) : (s.repeats e).pc e = s.pc e := by
  rw [repeats, pc, pc, eng_setEng_same]

theorem endElement_repeats {len : Nat} (h : s.greg e 12 ≠ 0) : s.endElement e .rep false len = s.repeats e := by
  rw [endElement, if_neg (fun h => nomatch h.1), if_pos ⟨by decide, h⟩, repeats]

theorem readElem_local {a n k : Nat} {dest : Bool} (ha : a + n ≤ 0x10000) :
    s.readElem e .engineLocal a n k dest = .value ((s.eng e).data.readLE a n) s := by
  rw [readElem, if_pos rfl, localRead_data ha]

theorem checkElem_local {a n k : Nat} (ha : a + n ≤ 0x10000) : s.checkElem e .engineLocal a n k = none := by
  rw [checkElem, if_pos rfl]
  exact check_local_data ha (fun h => nomatch h)

theorem checkStore_local_data {a n v : Nat} (ha : a + n ≤ 0x10000) : s.checkStore e .engineLocal a n v false = none :=
  checkStore_local (check_local_data ha (fun h => nomatch h))

theorem putStore_local (s : State) (e a n v : Nat) : s.putStore e .engineLocal a n v = s.writeData e a n v := if_pos rfl

/-- One element of MOVS in data SRAM. -/
theorem movsElement_local {n len : Nat} {rep : Rep} (hReady : s.ready e = true)
    (hFrom : (s.greg e 10).toNat + n ≤ 0x10000) (hTo : (s.greg e 11).toNat + n ≤ 0x10000) :
    s.movsElement e .engineLocal .engineLocal n rep len =
      ((((s.writeData e (s.greg e 11).toNat n ((s.eng e).data.readLE (s.greg e 10).toNat n)).stepReg e 10 n).stepReg e 11
        n).stepCount e).endElement e rep false len := by
  have hDue := entryDue_of_ready hReady
  simp only [movsElement, settle_local, hDue, Bool.false_eq_true, if_false, checkElem_local hFrom, checkStore_local_data hTo, if_true,
    readElem_local hFrom, putStore_local]

theorem fillElement_local {n len : Nat} {a : GReg} {rep : Rep} (hReady : s.ready e = true)
    (hTo : (s.greg e 11).toNat + n ≤ 0x10000) :
    s.fillElement e .engineLocal n a rep len =
      (((s.writeData e (s.greg e 11).toNat n (s.greg e a).toNat).stepReg e 11 n).stepCount e).endElement e rep false len := by
  have hDue := entryDue_of_ready hReady
  simp only [fillElement, settle_local, hDue, Bool.false_eq_true, if_false, checkStore_local_data hTo, if_true, putStore_local]

theorem withSource_local {n : Nat} (f : Nat → State → State) (hReady : s.ready e = true)
    (hFrom : (s.greg e 10).toNat + n ≤ 0x10000) :
    s.withSource e .engineLocal n f = f ((s.eng e).data.readLE (s.greg e 10).toNat n) s := by
  have hDue := entryDue_of_ready hReady
  simp only [withSource, settle_local, hDue, Bool.false_eq_true, if_false, checkElem_local hFrom, readElem_local hFrom]

theorem scanElement_local {n len : Nat} {d a : GReg} {rep : Rep} (hReady : s.ready e = true)
    (hFrom : (s.greg e 10).toNat + n ≤ 0x10000) :
    s.scanElement e .engineLocal n d a rep len = (s.stepReg e 10 n).endCompare e d
      ((s.eng e).data.readLE (s.greg e 10).toNat n == (s.greg e a).toNat % 256 ^ n) rep len := by
  rw [scanElement, withSource_local _ hReady hFrom]

/-- One byte of CRCS in data SRAM. -/
theorem crcsElement_local {k len : Nat} {d : GReg} {rep : Rep} (hReady : s.ready e = true)
    (hFrom : (s.greg e 10).toNat + 1 ≤ 0x10000) :
    s.crcsElement e .engineLocal 1 d k rep len = (((s.setGreg e d (BitVec.ofNat 32
      (s.crcByte e k (s.greg e d).toNat ((s.eng e).data.read (s.greg e 10).toNat)))).stepReg e 10 1).stepCount e).endElement
        e rep false len := by
  rw [crcsElement, withSource_local _ hReady hFrom, natBytes_readLE_one]
  rfl

theorem cmpsElement_local {n len : Nat} {d : GReg} {rep : Rep} (hReady : s.ready e = true)
    (hFrom : (s.greg e 10).toNat + n ≤ 0x10000) (hTo : (s.greg e 11).toNat + n ≤ 0x10000) :
    s.cmpsElement e .engineLocal .engineLocal n d rep len =
      ((s.stepReg e 10 n).stepReg e 11 n).endCompare e d
        ((s.eng e).data.readLE (s.greg e 10).toNat n == (s.eng e).data.readLE (s.greg e 11).toNat n) rep len := by
  have hDue := entryDue_of_ready hReady
  simp only [cmpsElement, settle_local, hDue, Bool.false_eq_true, if_false, checkElem_local hFrom, checkElem_local hTo,
    readElem_local hFrom, readElem_local hTo]

theorem ofNat_bit_beq (x y : Nat) : BitVec.ofNat 32 (bit (x == y)) = if x = y then 1#32 else 0#32 := by
  by_cases h : x = y
  · rw [if_pos h, beq_iff_eq.mpr h]; rfl
  · rw [if_neg h, beq_eq_false_iff_ne.mpr h]; rfl

/-- A register that no string instruction uses as a pointer or a count. -/
theorem stringReg_ne {d : GReg} (h : stringReg d = false) : d ≠ 10 ∧ d ≠ 11 ∧ d ≠ 12 := by
  refine ⟨?_, ?_, ?_⟩ <;> (rintro rfl; exact absurd h (by decide))

end State
end Sys2Proof.Machine
end

section
/-!
PROOF. O13: one element of each string instruction.
-/

open Sys2Proof Sys2Proof.Machine Sys2Proof.Machine.State

/-- Settles O13: each element is a write of data SRAM or of gd, then the pointers, the count and the pc. -/
theorem stringElements : Obligations.StringElements := by
  intro s e d a k hReady hFetched hRet hd ha hk from' to' mem ended hFrom hTo
  obtain ⟨hd10, hd11, hd12⟩ := stringReg_ne hd
  have hd10' := hd10.symm
  have hd11' := hd11.symm
  have hd12' := hd12.symm
  have h10_11 : (10 : GReg) ≠ 11 := by decide
  have h10_12 : (10 : GReg) ≠ 12 := by decide
  have h11_12 : (11 : GReg) ≠ 12 := by decide
  have h10 : (10 : GReg) ≠ 0 := by decide
  have h11 : (11 : GReg) ≠ 0 := by decide
  have h12 : (12 : GReg) ≠ 0 := by decide
  have hLen {n : Nat} (h : n ≤ 15) : s.fetched e n = true := fetched_of_le hFetched h
  have hMovs (rep : Rep) (hRep : rep ≠ .repz) : exec (.movs e .word rep none .engineLocal) s = .next
      (if rep ≠ .once ∧ s.greg e 12 = 0 then s.advance e (repPrefix rep + 2) else
        (((((s.writeData e to' 4 (mem.readLE from' 4)).stepReg e 10 4).stepReg e 11 4).stepCount e).endElement e rep false
          (repPrefix rep + 2))) := by
    have hPrefix : strPrefix .word rep none = repPrefix rep := by simp [strPrefix, sizePrefix, spacePrefix, bit]
    refine congrArg Host.Outcome.next ?_
    rw [hPrefix, stringIssue_runs _ hReady (hLen (by cases rep <;> decide)) rfl (by decide) hRep (by decide)]
    exact if_congr Iff.rfl rfl (movsElement_local hReady hFrom hTo)
  have hOnce : ¬(Rep.once ≠ .once ∧ s.greg e 12 = 0) := fun h => h.1 rfl
  refine ⟨?_, ?_, ?_, ?_, ?_, fun hZero => ?_, fun hMore hLast => ?_⟩
  · rw [hMovs .once (by decide), if_neg hOnce, endElement_once]
    refine ⟨_, rfl, ⟨?_, ?_⟩, ?_, ?_, ?_⟩ <;>
      simp [stepReg, stepCount, greg_setGreg_ne, greg_setGreg_same, repPrefix]
    rfl
  · have hRun : exec (.fill e .half .once none a) s = .next
        ((((s.writeData e to' 2 (s.greg e a).toNat).stepReg e 11 2).stepCount e).endElement e .once false 3) :=
      congrArg Host.Outcome.next ((stringIssue_runs _ hReady (hLen (by decide)) (by simp [ha]) (by decide) (by decide)
        (by decide)).trans ((if_neg hOnce).trans (fillElement_local hReady (show to' + 2 ≤ 0x10000 by omega))))
    refine ⟨_, hRun.trans (congrArg _ (endElement_once _ _ _ _)), ⟨?_, ?_⟩, ?_, ?_, ?_⟩ <;>
      simp [stepReg, stepCount, greg_setGreg_ne, greg_setGreg_same]
    rfl
  · have hRun : exec (.scan e .byte .once none d a) s = .next
        ((s.stepReg e 10 1).endCompare e d (mem.readLE from' 1 == (s.greg e a).toNat % 256) .once 3) :=
      congrArg Host.Outcome.next ((stringIssue_runs _ hReady (hLen (by decide)) (by simp [ha, hd]) (by decide) (by decide)
        (by decide)).trans ((if_neg hOnce).trans (scanElement_local (n := 1) hReady (show from' + 1 ≤ 0x10000 by omega))))
    refine ⟨_, hRun.trans (congrArg _ (endElement_once _ _ _ _)), ⟨?_, ?_⟩, ?_, fun h0 => ?_, ?_, ?_⟩ <;>
      simp [stepReg, stepCount, greg_setGreg_ne, greg_setGreg_same, *]
    · rfl
    · exact ofNat_bit_beq _ _
  · have hRun : exec (.cmps e .word .once none d .engineLocal) s = .next
        (((s.stepReg e 10 4).stepReg e 11 4).endCompare e d (mem.readLE from' 4 == mem.readLE to' 4) .once 2) :=
      congrArg Host.Outcome.next ((stringIssue_runs _ hReady (hLen (by decide)) (by simp [hd]) (by decide) (by decide)
        (by decide)).trans ((if_neg hOnce).trans (cmpsElement_local hReady hFrom hTo)))
    refine ⟨_, hRun.trans (congrArg _ (endElement_once _ _ _ _)), ⟨?_, ?_⟩, ?_, fun h0 => ?_, ?_, ?_⟩ <;>
      simp [stepReg, stepCount, greg_setGreg_ne, greg_setGreg_same, *]
    · rfl
    · exact ofNat_bit_beq _ _
  · have hRun : exec (.crcs e .byte .once none d (BitVec.ofNat 8 k)) s = .next
        ((((s.setGreg e d (BitVec.ofNat 32 (s.crcByte e k (s.greg e d).toNat (mem.read from')))).stepReg e 10 1).stepCount
          e).endElement e .once false 4) := by
      have hTable : (BitVec.ofNat 8 k).toNat = k := Nat.mod_eq_of_lt (by omega)
      refine congrArg Host.Outcome.next ?_
      rw [hTable, decide_eq_false (Nat.not_le.mpr hk), stringIssue_runs _ hReady (hLen (by decide)) (by simp [hd]) (by decide)
        (by decide) (by decide), if_neg hOnce]
      exact crcsElement_local hReady (show from' + 1 ≤ 0x10000 by omega)
    refine ⟨_, hRun.trans (congrArg _ (endElement_once _ _ _ _)), ⟨?_, ?_⟩, ?_, fun h0 => ?_, ?_⟩ <;>
      simp [stepReg, stepCount, greg_setGreg_ne, greg_setGreg_same, *]
    · rfl
    · exact crcByte_lt _ _ _ _ _
  · rw [hMovs .rep (by decide), if_pos ⟨by decide, hZero⟩]
    rfl
  · refine ⟨_, hMovs .rep (by decide), ?_⟩
    rw [if_neg (fun h => hMore h.2), endElement_repeats]
    · refine ⟨?_, ?_, ?_⟩ <;> simp [stepReg, stepCount, greg_setGreg_ne, greg_setGreg_same]
    · simpa [stepReg, stepCount, greg_setGreg_ne, greg_setGreg_same, BitVec.sub_eq_iff_eq_add] using hLast

end

section
/-!
PROOF. O12 fails: an atomic instruction corrects the soft errors of its words before it asks whether it may write, and
the count of corrections is a register that a checkpoint lease with an index beyond the pairs of the device reads.
-/

namespace Sys2Proof.Machine.State

/-- Engine 5 with the address 253 of district SRAM in g2, a soft error in the word there, and a checkpoint lease whose
index names the register of the district's SRAM errors. -/
def aliasedLease : State :=
  { ((((reset.setFld (Fld.CE_STAT_STATE 5) 1).setFld (Fld.CE_STAT_LEVEL 5) 32).setGreg 5 2 253).setDist 0
      { reset.dist 0 with soft := [31] }) with
    leases := [{ type := 5, district := 0, index := 2 * 0xFFF83 + 1, holder := 0 }] }

/-- The checkpoint's register is the one that counts the corrections. -/
theorem aliasedLease_register : Reg.RED_CKPT ((2 * 0xFFF83 + 1) / 2) ((2 * 0xFFF83 + 1) % 2) = Reg.RND_SRAM_ERR 0 := by decide

theorem aliasedLease_ready : aliasedLease.ready 5 = true ∧ aliasedLease.fetched 5 14 = true ∧
    (aliasedLease.eng 5).returned = none ∧ (aliasedLease.eng 5).posted = [] := by decide

theorem aliasedLease_writable : (aliasedLease.greg 5 2).toNat + 4 ≤ 0x400000 ∧ aliasedLease.sramBad 0 253 4 = false ∧
    aliasedLease.sramWritable 0 253 4 (aliasedLease.engIdent 5) = true := by decide

/-- SWP enters the ACCESS handler. -/
def entersAccess (o : Answer) : Bool :=
  match o with
  | .next t => t.pc 5 == 0x30
  | _ => false

theorem aliasedLease_refused : entersAccess (exec (.swp 5 false 8 4 2) aliasedLease) = true := by decide

end Sys2Proof.Machine.State

open Sys2Proof Sys2Proof.Machine Sys2Proof.Machine.State

/-- Refutes O12: SWP counts the correction of the soft error at its word, so that the register read as the bounds of the
checkpoint becomes 1, the element lies in what is leased to another, and the write is refused with ACCESS. -/
theorem not_atomicGroup : ¬ Obligations.AtomicGroup := by
  intro h
  obtain ⟨hReady, hFetched, hReturned, hPosted⟩ := aliasedLease_ready
  obtain ⟨hIn, hBad, hWritable⟩ := aliasedLease_writable
  obtain ⟨hSwp, -⟩ := h aliasedLease 5 false 8 4 2 0 0 hReady hFetched (fun h => nomatch h) hReturned hPosted
  obtain ⟨t, hExec, -, -, hPc, -⟩ := hSwp hIn hBad hWritable
  have hRefused := aliasedLease_refused
  rw [hExec] at hRefused
  have hStart : aliasedLease.pc 5 = 0 := by decide
  have hAccess : t.pc 5 = 0x30 := beq_iff_eq.mp hRefused
  rw [hAccess, hStart] at hPc
  exact absurd hPc (by decide)

end

section
/-!
SUPPORT. The registers that event lines touch, and fields that no event reaches.
-/

namespace Sys2Proof.Machine.State

variable {s : State}

@[simp] theorem reg_notify (s : State) (n : Notice) (a : Nat) : (s.notify n).reg a = s.reg a := rfl

/-- A line's arrival touches the engine's merge register alone. -/
theorem reg_lineArrives (s : State) (e n : Nat) {a : Nat} (h : a ≠ Reg.CE_EVT_OVR e) : (s.lineArrives e n).reg a = s.reg a := by
  unfold lineArrives
  dsimp only
  split
  · rfl
  · split
    · exact (reg_setFld_ne _ _ h).trans (reg_count_ne (f := Fld.CE_EVT_OVR_COUNT e) _ _ h)
    · rfl

theorem reg_foldl_lineArrives (l : List (Nat × Nat)) (s : State) {a : Nat} (h : ∀ e, a ≠ Reg.CE_EVT_OVR e) :
    (l.foldl (fun s p => s.lineArrives p.1 p.2) s).reg a = s.reg a := by
  induction l generalizing s with
  | nil => rfl
  | cons p l ih => exact (ih _).trans (reg_lineArrives s p.1 p.2 (h p.1))

/-- A source that fires touches the engines' merge registers alone. -/
theorem reg_fireIn (s : State) (kind index : Nat) (pick : Nat → Bool) {a : Nat} (h : ∀ e, a ≠ Reg.CE_EVT_OVR e) :
    (s.fireIn kind index pick).reg a = s.reg a :=
  reg_foldl_lineArrives _ s h

theorem fld_fireIn (s : State) (kind index : Nat) (pick : Nat → Bool) {f : Fld} (h : ∀ e, f.reg ≠ Reg.CE_EVT_OVR e) :
    (s.fireIn kind index pick).fld f = s.fld f := by
  rw [fld, reg_fireIn s kind index pick h, fld]

theorem fld_fire (s : State) (kind index : Nat) {f : Fld} (h : ∀ e, f.reg ≠ Reg.CE_EVT_OVR e) :
    (s.fire kind index).fld f = s.fld f := fld_fireIn s kind index _ h

theorem fld_fireDistrict (s : State) (kind index d : Nat) {f : Fld} (h : ∀ e, f.reg ≠ Reg.CE_EVT_OVR e) :
    (s.fireDistrict kind index d).fld f = s.fld f := fld_fireIn s kind index _ h

/-- A register outside the engines' windows is no merge register. -/
theorem ne_mergeRegister {a : Nat} (h : a < 0x1010000 ∨ 0x1C000 ≤ a % 0x100000 ∨ a % 0x100000 < 0x10000) (e : Nat) :
    a ≠ Reg.CE_EVT_OVR e := by
  unfold Reg.CE_EVT_OVR engBase
  omega

theorem fld_count_apart (s : State) {f g : Fld} (k : Nat) (h : f.apart g) : (s.count f k).fld g = s.fld g :=
  fld_setFld_apart (s.stampRaise f k) _ h

end Sys2Proof.Machine.State
end

section
/-!
PROOF. O15 and O16: the instructions that reach the district's units and its Round.
-/

namespace Sys2Proof.Machine.State

variable {s : State} {e : Nat}

theorem greg_congr_eng {s t : State} {e : Nat} (h : t.eng e = s.eng e) (r : GReg) : t.greg e r = s.greg e r := by
  rw [greg, greg, h]

theorem pc_congr_eng {s t : State} {e : Nat} (h : t.eng e = s.eng e) : t.pc e = s.pc e := by rw [pc, pc, h]

/-- An IM8 form without reserved bits runs. -/
theorem issue_byteForm {bad : Bool} {n : Nat} (body : State → State) (hReady : s.ready e = true) (hFetched : s.fetched e n = true)
    (hLen : 3 ≤ n) (hGood : bad = false) : s.issue e (byteForm bad) body = body s := by
  subst hGood
  exact issue_runs (f := byteForm false) body hReady rfl (fetched_of_le hFetched hLen)

/-- The end of an instruction that writes one register: its value and the next instruction. -/
theorem ends_setGreg {d : GReg} (v : Word) (len : Nat) (hd : d ≠ 0) :
    ((s.setGreg e d v).advance e len).greg e d = v ∧ ((s.setGreg e d v).advance e len).pc e = s.pc e + BitVec.ofNat 32 len :=
  ⟨by rw [greg_advance, greg_setGreg_same _ _ _ hd], by rw [pc_advance, pc_setGreg]⟩

/-- The low word of a repeater's value is its part below the second. -/
theorem ofNat_repeater (v : Nat) : BitVec.ofNat 32 (v % qnsSecond + 2 ^ 32 * (v / qnsSecond)) = BitVec.ofNat 32 (v % 4000000000) := by
  refine BitVec.eq_of_toNat_eq ?_
  rw [BitVec.toNat_ofNat, BitVec.toNat_ofNat, Nat.add_mul_mod_self_left]
  rfl

/-! ### The time-stamp queue -/

theorem tsqPush_room {d kind index cnt qns sec : Nat} {corr : Bool} (h : s.fld (Fld.TSQ_STAT_COUNT d) < 1024) :
    let r := s.tsqPush d kind index cnt qns sec corr
    (∀ x, r.1.eng x = s.eng x) ∧ r.2 = true ∧
      r.1.fld (Fld.TSQ_STAT_COUNT d) = s.fld (Fld.TSQ_STAT_COUNT d) + 1 := by
  intro r
  have hr : r = s.tsqPush d kind index cnt qns sec corr := rfl
  rw [tsqPush, if_pos h] at hr
  rw [hr]
  refine ⟨fun x => rfl, rfl, ?_⟩
  rw [fld_setFld_same _ _ _ (show 20 + 11 ≤ 32 by decide)]
  exact Nat.mod_eq_of_lt (show _ < 2048 by omega)

theorem tsqPush_full {d kind index cnt qns sec : Nat} {corr : Bool} (h : 1024 ≤ s.fld (Fld.TSQ_STAT_COUNT d)) :
    let r := s.tsqPush d kind index cnt qns sec corr
    r.2 = false ∧ r.1.fld (Fld.TSQ_STAT_COUNT d) = s.fld (Fld.TSQ_STAT_COUNT d) := by
  intro r
  have hr : r = s.tsqPush d kind index cnt qns sec corr := rfl
  rw [tsqPush, if_neg (Nat.not_lt.mpr h)] at hr
  rw [hr]
  refine ⟨rfl, (fld_fireDistrict _ _ _ _ (ne_mergeRegister ?_)).trans (fld_count_apart _ _ (.inl ?_))⟩
  · simp only [Fld.TSQ_STAT_COUNT, Reg.TSQ_STAT]
    omega
  · simp only [Fld.TSQ_OVF_DROPS, Fld.TSQ_STAT_COUNT, Reg.TSQ_OVF, Reg.TSQ_STAT]
    omega

/-! ### Samples handed over -/

@[simp] theorem sru_setReg (s : State) (a : Nat) (v : Word) (d : Nat) : (s.setReg a v).sru d = s.sru d := rfl

theorem sru_showSru (s : State) (d x : Nat) : (s.showSru d).sru x = s.sru x := by
  unfold showSru
  dsimp only
  split <;> rfl

theorem eng_showSru (s : State) (d x : Nat) : (s.showSru d).eng x = s.eng x := by
  unfold showSru
  dsimp only
  split <;> rfl

@[simp] theorem sru_setSru_same (s : State) (d : Nat) (x : Sru) : (s.setSru d x).sru d = x := Store.get_set_same _ _ _

/-- A sample handed over goes before those of the district's later engines of the same cycle. -/
theorem offerSample_room {ws : List Word} (h : (s.sru (e / 12)).inq.length < 64) :
    let inq := (s.sru (e / 12)).inq
    let k := inq.length - (s.now.samplers.filter fun f => f / 12 == e / 12 && decide (e < f)).length
    let r := s.offerSample e ws
    r.1 = Code.ok ∧ (∀ x, r.2.eng x = s.eng x) ∧ (r.2.sru (e / 12)).inq = inq.take k ++ [ws] ++ inq.drop k := by
  intro inq k r
  have hr : r = s.offerSample e ws := rfl
  rw [offerSample, if_neg (Nat.not_le.mpr h)] at hr
  rw [hr]
  refine ⟨rfl, fun x => eng_showSru _ _ _, ?_⟩
  dsimp only
  rw [sru_showSru]
  refine (congrArg Sru.inq (sru_setSru_same _ _ _)).trans ?_
  rw [List.append_assoc, List.singleton_append]

theorem offerSample_full {ws : List Word} (h : 64 ≤ (s.sru (e / 12)).inq.length) :
    let r := s.offerSample e ws
    r.1 = Code.busy ∧ (r.2.sru (e / 12)).inq = (s.sru (e / 12)).inq := by
  intro r
  have hr : r = s.offerSample e ws := rfl
  rw [offerSample, if_pos h] at hr
  rw [hr]
  refine ⟨rfl, ?_⟩
  dsimp only
  rw [sru_setSru_same]

@[simp] theorem sru_setGreg (s : State) (e : Nat) (r : GReg) (v : Word) (d : Nat) : (s.setGreg e r v).sru d = s.sru d := by
  unfold setGreg
  split <;> rfl

@[simp] theorem sru_advance (s : State) (e len d : Nat) : (s.advance e len).sru d = s.sru d := rfl

@[simp] theorem fld_advance (s : State) (e len : Nat) (f : Fld) : (s.advance e len).fld f = s.fld f := rfl

/-! ### Round words -/

@[simp] theorem dist_advance (s : State) (e len d : Nat) : (s.advance e len).dist d = s.dist d := rfl

theorem pendW_pendWrite (s : State) (d st w : Nat) (v : Word) :
    Store.get (fun _ => none) ((s.pendWrite d st w v).dist d).pendW (st * 64 + w) = some v := by
  rw [pendWrite, dist_setDist_same, Store.get_set_same]

/-- The operation that waits in a station's word of the commons. -/
def pendingOp (s : State) (d st w : Nat) : Option PendOp := Store.get (fun _ => none) (s.dist d).pendOp (st * 64 + w)

/-- The operation of a station's word replaced. -/
def putOp (s : State) (d st w : Nat) (p : PendOp) : State :=
  s.setDist d { s.dist d with pendOp := Store.set (fun _ => none) (s.dist d).pendOp (st * 64 + w) (some p) }

@[simp] theorem pendingOp_putOp (s : State) (d st w : Nat) (p : PendOp) : (s.putOp d st w p).pendingOp d st w = some p := by
  rw [pendingOp, putOp, dist_setDist_same, Store.get_set_same]

theorem pendOperation_first {d st w : Nat} {op : RndOp} {v : Word} (h : s.pendingOp d st w = none) :
    s.pendOperation d st w op v = s.putOp d st w { op := op, value := v } := by
  rw [pendingOp] at h
  simp only [pendOperation, h]
  rfl

theorem pendOperation_merges {d st w : Nat} {op : RndOp} {v : Word} {p : PendOp} (h : s.pendingOp d st w = some p)
    (hOp : p.op = op) : s.pendOperation d st w op v = s.putOp d st w
      { op := op, value := op.apply (s.flag (Fld.RND_COMMON_CFG_SIGNED d (w - 48))) p.value v } := by
  rw [pendingOp] at h
  simp only [pendOperation, h, hOp, if_true]
  rfl

theorem pendOperation_replaces {d st w : Nat} {op : RndOp} {v : Word} {p : PendOp} (h : s.pendingOp d st w = some p)
    (hOp : p.op ≠ op) :
    s.pendOperation d st w op v = (s.count (Fld.RND_FAULT_OP_OVR d)).putOp d st w { op := op, value := v } := by
  rw [pendingOp] at h
  simp only [pendOperation, h, hOp, if_false]
  rfl

/-- RNDOP ADD of a commons word. -/
theorem exec_rndop_add {a : GReg} {k : Nat} (hReady : s.ready e = true) (hFetched : s.fetched e 4 = true) (hLow : 48 ≤ k)
    (hHigh : k < 64) : exec (.rndop e a (BitVec.ofNat 16 (k + 0x200))) s =
      .next ((s.pendOperation (e / 12) (e % 12 + 1) k .add (s.greg e a)).advance e 4) := by
  have hField : (BitVec.ofNat 16 (k + 0x200)).toNat = k + 0x200 := Nat.mod_eq_of_lt (by omega)
  have hOp : rndOp ((k + 0x200) / 256) = some .add := by rw [show (k + 0x200) / 256 = 2 by omega]; rfl
  refine congrArg Host.Outcome.next ?_
  rw [hField, hOp]
  refine (issue_runs _ hReady ?_ hFetched).trans ?_
  · rw [if_neg (by omega)]
    rfl
  · rw [show (k + 0x200) % 64 = k by omega, if_neg (by omega)]
    rfl

end Sys2Proof.Machine.State

open Sys2Proof Sys2Proof.Machine Sys2Proof.Machine.State

/-- Settles O15: each instruction ends in a register write after its unit has acted. -/
theorem districtInstructions : Obligations.DistrictInstructions := by
  intro s e d a b w dist p hReady hFetched hd
  have hTwo : s.fetched e 2 = true := fetched_of_le hFetched (by decide)
  have hRecord : ((List.range 5).map fun i => BitVec.ofNat 32 ((s.eng e).data.readLE (p + 4 * i) 4)) =
      [0, 4, 8, 12, 16].map fun k => BitVec.ofNat 32 ((s.eng e).data.readLE (p + k) 4) := rfl
  have hSrup (hSru : s.variant.hasSru = true) (hp : p + 20 ≤ 0x10000) : exec (.srup e d a) s = .next
      (((s.offerSample e ([0, 4, 8, 12, 16].map fun k => BitVec.ofNat 32 ((s.eng e).data.readLE (p + k) 4))).2.setGreg e d
        (BitVec.ofNat 32 (s.offerSample e ([0, 4, 8, 12, 16].map fun k =>
          BitVec.ofNat 32 ((s.eng e).data.readLE (p + k) 4))).1)).advance e 2) := by
    refine congrArg Host.Outcome.next ((issue_plainForm _ hReady hTwo le_rfl).trans ?_)
    dsimp only
    rw [hSru, Bool.not_true, if_neg Bool.false_ne_true, if_neg (Nat.not_lt.mpr hp), hRecord]
  refine ⟨?_, fun hRoom => ?_, fun hFull => ?_, fun hSru hp hRoom => ?_, fun hSru hp hFull => ?_, fun hw => ?_⟩
  · refine ⟨_, congrArg Host.Outcome.next (issue_pairForm _ hReady hTwo (fun h => nomatch h)), ?_⟩
    rw [← ofNat_repeater]
    exact ends_setGreg _ 2 hd
  · obtain ⟨hEng, hOk, hCount⟩ := tsqPush_room (s := s) (d := e / 12) (kind := 0) (index := fieldGet (s.greg e b) 0 8)
      (cnt := fieldGet (s.greg e b) 8 16) (qns := p) (corr := false) (sec := (s.nextRepeater (e / 12) / qnsSecond + 2 ^ 32 -
        bit (decide (s.nextRepeater (e / 12) % qnsSecond < p))) % 2 ^ 32) hRoom
    refine ⟨_, congrArg Host.Outcome.next (issue_plainForm _ hReady hFetched le_rfl), ?_, ?_, ?_⟩
    · rw [greg_advance, greg_setGreg_same _ _ _ hd, hOk]
      rfl
    · rw [pc_advance, pc_setGreg, pc_congr_eng (hEng e)]
      rfl
    · rw [fld_advance, setGreg_fld]
      exact hCount
  · obtain ⟨-, hCount⟩ := tsqPush_full (s := s) (d := e / 12) (kind := 0) (index := fieldGet (s.greg e b) 0 8)
      (cnt := fieldGet (s.greg e b) 8 16) (qns := p) (corr := false) (sec := (s.nextRepeater (e / 12) / qnsSecond + 2 ^ 32 -
        bit (decide (s.nextRepeater (e / 12) % qnsSecond < p))) % 2 ^ 32) hFull
    refine ⟨_, congrArg Host.Outcome.next (issue_plainForm _ hReady hFetched le_rfl), ?_⟩
    rw [fld_advance, setGreg_fld]
    exact hCount
  · obtain ⟨hOk, hEng, hQueue⟩ := offerSample_room (ws := [0, 4, 8, 12, 16].map fun k =>
      BitVec.ofNat 32 ((s.eng e).data.readLE (p + k) 4)) hRoom
    refine ⟨_, hSrup hSru hp, ?_, ?_, ?_⟩
    · rw [greg_advance, greg_setGreg_same _ _ _ hd, hOk]
      rfl
    · rw [pc_advance, pc_setGreg, pc_congr_eng (hEng e)]
      rfl
    · rw [sru_advance, sru_setGreg]
      exact hQueue
  · obtain ⟨hBusy, hQueue⟩ := offerSample_full (ws := [0, 4, 8, 12, 16].map fun k =>
      BitVec.ofNat 32 ((s.eng e).data.readLE (p + k) 4)) hFull
    refine ⟨_, hSrup hSru hp, ?_, ?_⟩
    · rw [greg_advance, greg_setGreg_same _ _ _ hd, hBusy]
      rfl
    · rw [sru_advance, sru_setGreg]
      exact hQueue
  · exact congrArg Host.Outcome.next (issue_byteForm _ hReady hFetched le_rfl (decide_eq_false (Nat.not_le.mpr hw)))

/-- Settles O16: a write and an operation each stand in the station's slot until the next passage. -/
theorem roundWrites : Obligations.RoundWrites := by
  intro s e a w k dist st v hReady hFetched
  refine ⟨fun hw hMay => ?_, fun hLow hHigh => ?_⟩
  · refine ⟨_, congrArg Host.Outcome.next (issue_byteForm _ hReady hFetched (by decide)
      (decide_eq_false (Nat.not_le.mpr hw))), ?_⟩
    dsimp only
    rw [show s.mayWriteWord (e / 12) (station e) w.toNat = true from hMay, Bool.not_true, if_neg Bool.false_ne_true]
    refine ⟨?_, ?_⟩
    · rw [pc_advance]
      split <;> rfl
    · rw [dist_advance]
      split <;> exact pendW_pendWrite s dist st w.toNat v
  · intro slot
    have hExec := exec_rndop_add (a := a) hReady hFetched hLow hHigh
    refine ⟨fun hNone => ?_, fun y hAdd => ?_, fun y hOr hZero => ?_⟩
    · rw [hExec, pendOperation_first hNone]
      exact ⟨_, rfl, pc_advance _ _ _, pendingOp_putOp _ _ _ _ _⟩
    · rw [hExec, pendOperation_merges hAdd rfl]
      exact ⟨_, rfl, pendingOp_putOp _ _ _ _ _, rfl⟩
    · rw [hExec, pendOperation_replaces (op := .add) hOr (fun h => nomatch h)]
      refine ⟨_, rfl, pendingOp_putOp _ _ _ _ _, ?_⟩
      exact (fld_count_same s (Fld.RND_FAULT_OP_OVR dist) 1 (show 16 + 8 ≤ 32 by decide)).trans (by rw [hZero]; rfl)

end

section
/-!
PROOF. O17: the system instructions.
-/

namespace Sys2Proof.Machine.State

variable {s : State} {e : Nat}

theorem entryDue_advance (s : State) (e len : Nat) : (s.advance e len).entryDue e = s.entryDue e := by
  simp [entryDue, awake, engState, leaseDue, level, eligibleLine, eligible, advance, goto] <;> rfl

/-- With no posted store left, draining changes nothing and no entry is due. -/
theorem drain_all_ready (hReady : s.ready e = true) (hPosted : (s.eng e).posted = []) :
    EngEq s (s.drain e fun _ => true) ∧ (s.drain e fun _ => true).entryDue e = false := by
  have hDrain : EngEq s (s.drain e fun _ => true) := drain_engEq hPosted
  exact ⟨hDrain, hDrain.entryDue.trans (entryDue_of_ready hReady)⟩

theorem exec_wait_spec (hReady : s.ready e = true) (hFetched : s.fetched e 2 = true) (hPosted : (s.eng e).posted = []) :
    exec (.wait e) s = .next (((s.drain e fun _ => true).advance e 2).setFld (Fld.CE_STAT_STATE e) 2) := by
  obtain ⟨-, hDue⟩ := drain_all_ready hReady hPosted
  refine congrArg Host.Outcome.next ((issue_plainForm _ hReady hFetched le_rfl).trans (if_neg ?_))
  rw [entryDue_advance, hDue]
  exact Bool.false_ne_true

theorem exec_fence_spec (hReady : s.ready e = true) (hFetched : s.fetched e 2 = true) (hPosted : (s.eng e).posted = []) :
    exec (.fence e) s = .next ((s.drain e fun _ => true).advance e 2) := by
  obtain ⟨-, hDue⟩ := drain_all_ready hReady hPosted
  refine congrArg Host.Outcome.next ((issue_plainForm _ hReady hFetched le_rfl).trans (if_neg ?_))
  rw [hDue]
  exact Bool.false_ne_true

/-- After its arrival a line is pending, whether it was before or not. -/
theorem lineArrives_pending {n : Nat} (hn : n < 32) (hHeld : s.engState e ≠ 0) :
    ((s.lineArrives e n).eng e).evtPend.getLsbD n = true := by
  cases hBit : (s.eng e).evtPend.getLsbD n with
  | false =>
    rw [lineArrives_pends hHeld hBit]
    simp [hn]
  | true =>
    obtain ⟨-, -, hEng⟩ := lineArrives_merged hHeld hBit
    rw [hEng, hBit]

theorem pc_lineArrives (s : State) (x n e : Nat) : (s.lineArrives x n).pc e = s.pc e := by
  unfold lineArrives
  dsimp only
  split
  · rfl
  · split
    · rfl
    · by_cases he : e = x
      · rw [he, pc, eng_setEng_same, pc]; rfl
      · rw [pc, eng_setEng_ne _ _ he, pc]; rfl

/-- An exception with room in the entry stack, outside the handlers 1 to 6, is entered. -/
theorem exception_enters (v c : Nat) (pc : Word) (hRoom : (s.eng e).stack.length < 8) (hOut : s.innermost e = 0 ∨ 7 ≤ s.innermost e) :
    s.exception e v c pc = s.enter e (plainRecord v c pc) none := by
  have hIn : ¬(1 ≤ s.innermost e ∧ s.innermost e ≤ 6) := by omega
  rw [exception, raiseEntry, if_neg (by simpa using hIn), if_neg (Nat.not_le.mpr hRoom)]

end Sys2Proof.Machine.State

open Sys2Proof Sys2Proof.Machine Sys2Proof.Machine.State

/-- Settles O17: WAIT and FENCE drain an empty queue; EVT, DBELL and TRAP are an arrival, a post and an entry. -/
theorem systemInstructions : Obligations.SystemInstructions := by
  intro s e a line b code hReady hFetched he
  have hTwo : s.fetched e 2 = true := fetched_of_le hFetched (by decide)
  refine ⟨fun hPosted => ?_, fun hLine hEngine => ?_, fun hBit hPresent hRoom => ?_, fun hStack hOut => ?_⟩
  · obtain ⟨hDrain, -⟩ := drain_all_ready hReady hPosted
    have hPc : (s.drain e fun _ => true).pc e = s.pc e := pc_congr_eng (hDrain.eng e)
    refine ⟨⟨_, exec_wait_spec hReady hTwo hPosted, ?_, ?_⟩, ⟨_, exec_fence_spec hReady hTwo hPosted, ?_, ?_⟩⟩
    · exact fld_setFld_same _ _ _ (show 0 + 2 ≤ 32 by decide)
    · refine (pc_advance _ e 2).trans ?_
      rw [hPc]
      rfl
    · rw [pc_advance, hPc]
      rfl
    · rw [advance, goto, hDrain.rest]
      rfl
  · intro x hHeld
    refine ⟨_, congrArg Host.Outcome.next ((issue_byteForm _ hReady hFetched (by decide)
      (decide_eq_false (Nat.not_le.mpr hLine))).trans (if_neg (Nat.not_lt.mpr (Nat.le_of_lt_succ hEngine)))), ?_, ?_⟩
    · exact lineArrives_pending hLine hHeld
    · rw [pc_lineArrives, pc_advance]
      rfl
  · have hDue := entryDue_of_ready hReady
    have hFits : ¬8 ≤ (s.eng e).posted.length := Nat.not_le.mpr hRoom
    refine ⟨(s.post e (.doorbell ((s.greg e a).setWidth 16) b.toNat)).advance e 3, congrArg Host.Outcome.next
      ((issue_byteForm _ hReady hFetched (by decide) (decide_eq_false (Nat.not_le.mpr hBit))).trans ?_), ?_, ?_⟩
    · simp only [hPresent, Bool.not_true, Bool.false_eq_true, if_false, makeRoom, hFits, hDue]
    · rw [pc_advance, post, pc, eng_setEng_same]
      rfl
    · rw [advance, goto, eng_setEng_same, post, eng_setEng_same]
  · have hEng := eng_enter s e (plainRecord 7 (7 + 2 ^ 24 * code.toNat) (s.pc e + 4)) none
    refine ⟨_, _, congrArg Host.Outcome.next ((issue_plainForm _ hReady hFetched le_rfl).trans
      (exception_enters _ _ _ hStack hOut)), by rw [hEng], ?_, rfl, rfl, level_enter s e _ none⟩
    rw [pc, hEng]
    rfl

end

section
/-!
PROOF. O19: LEASE and RELEASE of a LOCK region of the engine's own district.
-/

namespace Sys2Proof.Machine.State

variable {s : State} {e : Nat}

theorem hasEngine_of_ready (h : s.ready e = true) : s.hasEngine e = true := by
  simp only [ready, Bool.and_eq_true] at h
  obtain ⟨⟨⟨⟨hEngine, -⟩, -⟩, -⟩, -⟩ := h
  exact hEngine

theorem district_of_hasEngine (h : s.hasEngine e = true) : e / 12 < s.variant.districts := by
  have he : e < 12 * s.variant.districts := of_decide_eq_true h
  omega

theorem countCode_rest (s : State) (who : Ident) (c : Nat) :
    (∀ x, (s.countCode who c).eng x = s.eng x) ∧ (s.countCode who c).leases = s.leases := by
  unfold countCode
  split <;> exact ⟨fun _ => rfl, rfl⟩

@[simp] theorem leases_setGreg (s : State) (e : Nat) (r : GReg) (v : Word) : (s.setGreg e r v).leases = s.leases := by
  unfold setGreg
  split <;> rfl

theorem leaseId_setGreg (s : State) (e : Nat) (r : GReg) (v : Word) :
    ((s.setGreg e r v).eng e).leaseId = (s.eng e).leaseId := by rw [eng_setGreg]

/-- The end of a LEASE or RELEASE: its code, LEASE_ID, and no lease changed. -/
theorem finishLease_spec {d : GReg} (len h : Nat) (release : Bool) (code : Nat) (hd : d ≠ 0) :
    let t := s.finishLease e d len h release code
    t.greg e d = BitVec.ofNat 32 code ∧ t.leases = s.leases ∧
      (t.eng e).leaseId = if code = Code.ok ∧ !release then BitVec.ofNat 32 h else (s.eng e).leaseId := by
  intro t
  let u := s.setEng e { s.eng e with
    leaseWait := none
    leaseId := if code = Code.ok ∧ !release then BitVec.ofNat 32 h else (s.eng e).leaseId }
  obtain ⟨hEng, hLeases⟩ := countCode_rest ((u.setGreg e d (BitVec.ofNat 32 code)).advance e len) (s.ident (0x10 + e)) code
  have hU : t.eng e = ((u.setGreg e d (BitVec.ofNat 32 code)).advance e len).eng e := hEng e
  have hId : (u.eng e).leaseId = if code = Code.ok ∧ !release then BitVec.ofNat 32 h else (s.eng e).leaseId := by
    simp only [u, eng_setEng_same]
  refine ⟨?_, hLeases.trans (leases_setGreg u e d _), ?_⟩
  · rw [greg_congr_eng hU, greg_advance, greg_setGreg_same _ _ _ hd]
  · rw [hU, advance, goto, eng_setEng_same]
    exact (leaseId_setGreg u e d _).trans hId

/-- A handle of this district's LOCK regions is served here. -/
theorem leaseInstr_here {d a : GReg} {release : Bool} (hReady : s.ready e = true) (hReturned : (s.eng e).returned = none)
    (hType : (handleParts (s.greg e a).toNat).1 = 3) (hDistrict : (handleParts (s.greg e a).toNat).2.1 = e / 12) :
    s.leaseInstr e d a release =
      (if release then s.giveLease e (s.greg e a).toNat else s.takeLease e (s.greg e a).toNat).2.finishLease e d 3
        (s.greg e a).toNat release (if release then s.giveLease e (s.greg e a).toNat else s.takeLease e (s.greg e a).toNat).1 := by
  have hPresent := district_of_hasEngine (hasEngine_of_ready hReady)
  have hAbsent : s.leaseAbsent (s.greg e a).toNat = false := by
    rw [leaseAbsent, hType, hDistrict, decide_eq_false (Nat.not_le.mpr hPresent)]
    rfl
  have hHere : leaseAway e (s.greg e a).toNat = false := by simp [leaseAway, hType, hDistrict]
  simp only [leaseInstr, takeHeld_fresh hReturned, hAbsent, hHere, Bool.false_eq_true, if_false]

/-- A grant of a LOCK region adds its lease. -/
theorem takeLease_lock {h : Nat} (hType : (handleParts h).1 = 3) (hCode : s.leaseCode e h = Code.ok) :
    (s.takeLease e h).1 = Code.ok ∧ (s.takeLease e h).2.leases =
      { type := 3, district := (handleParts h).2.1, index := (handleParts h).2.2, holder := s.ident (0x10 + e) } :: s.leases ∧
      ∀ x, (s.takeLease e h).2.eng x = s.eng x := by
  simp only [takeLease, hCode, if_true, hType]
  refine ⟨trivial, rfl, fun x => ?_⟩
  rw [showHeld, setFld_eng, showLock, setReg_eng]
  rfl

theorem takeLease_refused {h : Nat} (hCode : s.leaseCode e h ≠ Code.ok) : s.takeLease e h = (s.leaseCode e h, s) := by
  rw [takeLease, if_neg hCode]

/-- No lease of a resource is left once it is dropped. -/
theorem leaseOf_dropLease (s : State) (type district index : Nat) :
    (s.dropLease type district index).leaseOf type district index = none := by
  rw [leaseOf, dropLease, List.find?_eq_none]
  intro l hl
  have hKept := (List.mem_filter.mp hl).2
  rw [Bool.not_eq_true'] at hKept
  rw [hKept]
  exact Bool.false_ne_true

end Sys2Proof.Machine.State

open Sys2Proof Sys2Proof.Machine Sys2Proof.Machine.State

/-- Settles O19: the code of the request decides, and only a grant or a release changes the leases. -/
theorem leases : Obligations.Leases := by
  intro s e d a h p hReady hFetched hReturned hd hType hDistrict hRange
  replace hType : (State.handleParts h).1 = 3 := hType
  have hLease : exec (.lease e d a) s = .next ((s.takeLease e h).2.finishLease e d 3 h false (s.takeLease e h).1) :=
    congrArg Host.Outcome.next ((issue_plainForm _ hReady hFetched le_rfl).trans
      (leaseInstr_here (release := false) hReady hReturned hType hDistrict))
  have hRange' : s.leaseRange 3 (State.handleParts h).2.1 (State.handleParts h).2.2 = true := hRange
  refine ⟨fun hFree hFew => ?_, fun l hHeld hOther => ?_, fun l hHeld hMine => ?_⟩
  · have hCode : s.leaseCode e h = Code.ok := by
      have hFree' : s.leaseOf 3 (State.handleParts h).2.1 (State.handleParts h).2.2 = none := hFree
      simp [leaseCode, hRange', hFree', hType, firstCode, Nat.not_le.mpr hFew]
    obtain ⟨hOk, hLeases, hEng⟩ := takeLease_lock hType hCode
    obtain ⟨hReg, hSame, hId⟩ := finishLease_spec (s := (s.takeLease e h).2) (e := e) 3 h false (s.takeLease e h).1 hd
    refine ⟨_, hLease, ?_, ?_, hSame.trans hLeases⟩
    · rw [hReg, hOk]
      rfl
    · rw [hId, hOk, if_pos ⟨rfl, rfl⟩]
      exact BitVec.ofNat_toNat _ _ |>.trans (BitVec.setWidth_eq _)
  · have hCode : s.leaseCode e h = Code.busy := by
      have hHeld' : s.leaseOf 3 (State.handleParts h).2.1 (State.handleParts h).2.2 = some l := hHeld
      simp [leaseCode, hRange', hHeld', hType, firstCode, hOther]
    rw [takeLease_refused (by rw [hCode]; decide), hCode] at hLease
    obtain ⟨hReg, hSame, hId⟩ := finishLease_spec (s := s) (e := e) 3 h false Code.busy hd
    exact ⟨_, hLease, hReg, hSame, hId.trans (if_neg (fun h => absurd h.1 (by decide)))⟩
  · have hHeld' : s.leaseOf 3 (State.handleParts h).2.1 (State.handleParts h).2.2 = some l := hHeld
    have hGive : (s.giveLease e h).1 = Code.ok ∧ (s.giveLease e h).2.leases = (s.dropLease 3 p.2.1 p.2.2).leases := by
      simp [giveLease, hRange', hHeld', hType, firstCode, hMine]
      rfl
    obtain ⟨hOk, hLeases⟩ := hGive
    obtain ⟨hReg, hSame, -⟩ := finishLease_spec (s := (s.giveLease e h).2) (e := e) 3 h true (s.giveLease e h).1 hd
    refine ⟨_, congrArg Host.Outcome.next ((issue_plainForm _ hReady hFetched le_rfl).trans
      (leaseInstr_here (release := true) hReady hReturned hType hDistrict)), ?_, ?_⟩
    · refine hReg.trans ?_
      rw [hOk]
      rfl
    · refine Eq.trans ?_ (leaseOf_dropLease s 3 p.2.1 p.2.2)
      rw [leaseOf, leaseOf, ← hLeases, ← hSame]
      rfl

end

section
/-!
PROOF. O25: a held result, and the watchdog's two expiries.
-/

namespace Sys2Proof.Machine.State

variable {s : State} {e : Nat}

/-- A load of district SRAM without an error reads its bytes. -/
theorem loadDistrict_sram {a n : Nat} (ha : a + n ≤ 0x400000) (hn : 0 < n) (hGood : s.sramBad (e / 12) a n = false) :
    s.loadDistrict e a n = .value (s.sramRead (e / 12) a n) (s.sramScrub (e / 12) a n) := by
  have hIn : a < sramSize := show a < 0x400000 by omega
  have hBad : ((s.sramScrub (e / 12) a n).dist (e / 12)).bad = (s.dist (e / 12)).bad := by
    unfold sramScrub
    dsimp only
    split
    · rfl
    · rw [count_dist, dist_setDist_same]
  have hGood' : (s.sramScrub (e / 12) a n).sramBad (e / 12) a n = false := by rw [sramBad, hBad]; exact hGood
  have hRead : (s.sramScrub (e / 12) a n).sramRead (e / 12) a n = s.sramRead (e / 12) a n := by
    rw [sramRead, sram_sramScrub, sramRead]
  rw [loadDistrict, if_pos hIn]
  simp only [hGood', Bool.false_eq_true, if_false, hRead]

/-- Records that await nothing take no result. -/
theorem fillRecords_none {a : Access} {remote : Bool} {r : HeldResult} {rs : List Record}
    (h : ∀ q ∈ rs, ∀ h ∈ q.held, h.result ≠ none) : fillRecords a remote r rs = none := by
  have hFirst (hs : List Held) (hAll : ∀ h ∈ hs, h.result ≠ none) : fillFirst a remote r hs = none := by
    induction hs with
    | nil => rfl
    | cons x xs ih =>
      rw [fillFirst, if_neg (fun hx => hAll x (by simp) hx.2.2), ih fun h hh => hAll h (by simp [hh])]
      rfl
  induction rs with
  | nil => rfl
  | cons q qs ih =>
    rw [fillRecords, ih fun p hp => h p (by simp [hp]), hFirst q.held (h q (by simp))]
    rfl

/-- Records that await nothing have no access under way. -/
theorem awaited_none {remote : Bool} {hs : List Held} (h : ∀ x ∈ hs, x.result ≠ none) : awaited remote hs = [] := by
  rw [awaited, List.filterMap_eq_nil_iff]
  intro x hx
  simp [h x hx]

end Sys2Proof.Machine.State

open Sys2Proof Sys2Proof.Machine Sys2Proof.Machine.State

/-- Settles O25: the only access under way is that of the innermost record; an armed watchdog at 0 expires. -/
theorem heldResultsAndWatchdog : Obligations.HeldResultsAndWatchdog := by
  intro s e a n r rest hRun
  refine ⟨fun hState hReturned hStack hHeld hRest ha hn hGood => ?_, fun hHalted hOrphans k => ?_, fun hAwake hEnabled hArmed hZero => ?_⟩
  · have hUnderWay : outstandingHeld (s.eng e) = [.load .district a n] := by
      have hLater : awaited false (rest.flatMap (·.held)) = [] := awaited_none fun x hx => by
        obtain ⟨q, hq, hxq⟩ := List.mem_flatMap.mp hx
        exact hRest q hq x hxq
      rw [outstandingHeld, allHeld, hReturned, hStack, List.flatMap_cons, hHeld, List.nil_append, awaited, List.filterMap_append]
      rw [awaited] at hLater
      rw [hLater]
      rfl
    have hPerform : s.performAccess e (.load .district a n) =
        some (.value (s.sramRead (e / 12) a n), s.sramScrub (e / 12) a n) := by
      have hSpace : ¬(Space.district = .image ∧ a < 0x40000000) := fun h => nomatch h.1
      simp only [performAccess, hSpace, if_false, loadAt, loadDistrict_sram ha hn hGood]
    have hEng := eng_sramScrub s (e / 12) a n e
    have hFill : fillRecords (.load .district a n) false (.value (s.sramRead (e / 12) a n)) (r :: rest) =
        some ({ r with held := [⟨.load .district a n, some (.value (s.sramRead (e / 12) a n)), false⟩] } :: rest) := by
      rw [fillRecords, fillRecords_none hRest, hHeld]
      simp [fillFirst]
    refine ⟨_, congrArg Host.Outcome.next (live_of_running hRun _), ?_⟩
    simp only [hState, if_false, hUnderWay, List.getElem?_cons_zero, hPerform, heldResult, hEng, hStack, hFill, Option.getD_some,
      eng_setEng_same]
  · refine congrArg Host.Outcome.next ((live_of_running hRun _).trans ?_)
    simp [hHalted, hOrphans]
  · refine ⟨_, congrArg Host.Outcome.next ((live_of_running hRun _).trans (if_pos ⟨hAwake, hEnabled, hArmed, hZero⟩)), ?_, ?_⟩
    · intro hFirst
      rw [hFirst, if_neg Bool.false_ne_true]
      exact ⟨by rw [eng_setEng_same], rfl⟩
    · intro hSecond
      rw [if_pos hSecond]
      exact ⟨engState_halt _ e 3, haltCause_halt _ e (by decide)⟩

end

section
/-!
SUPPORT. A value that every step of a fold keeps, and what the end of an identity's pins touches.
-/

namespace Sys2Proof.Machine

/-- A value that each step keeps is kept by the fold. -/
theorem foldl_keeps {α β γ : Type} {f : α → β → α} {l : List β} (p : α → γ) (h : ∀ x, ∀ y ∈ l, p (f x y) = p x) (x : α) :
    p (l.foldl f x) = p x := by
  induction l generalizing x with
  | nil => rfl
  | cons y l ih => exact (ih (fun x z hz => h x z (List.mem_cons_of_mem _ hz)) _).trans (h x y List.mem_cons_self)

namespace State

variable {s : State}

theorem reg_releasePin (s : State) {k a : Nat} (hk : k < 8) (ha : a < 0x700300 ∨ 0x700380 ≤ a) :
    (s.releasePin k).reg a = s.reg a := by
  unfold releasePin
  dsimp only
  rw [reg_setReg_ne, reg_setReg_ne, reg_setReg_ne, reg_setReg_ne]
  · rfl
  all_goals
    simp only [Reg.IMG_PIN_FIRST, Reg.IMG_PIN_COUNT, Reg.IMG_PIN_EPOCH, Reg.IMG_PIN_HOLDER]
    omega

theorem reg_showImg (s : State) {a : Nat} (ha : a ≠ Reg.IMG_STAT) : s.showImg.reg a = s.reg a :=
  (reg_setFld_ne _ _ ha).trans (reg_setFld_ne _ _ ha)

/-- The end of an identity's pins touches the image controller's registers alone. -/
theorem reg_endImgOf_false (s : State) (who : Ident) {a : Nat} (ha : a < 0x700000 ∨ 0x700380 ≤ a) :
    (s.endImgOf who false).reg a = s.reg a := by
  have hStat : a ≠ Reg.IMG_STAT := by
    unfold Reg.IMG_STAT
    omega
  unfold endImgOf
  dsimp only
  refine (reg_showImg _ hStat).trans ((foldl_keeps (fun t : State => t.reg a) (fun x t _ => ?_) _).trans
    (foldl_keeps (fun t : State => t.reg a) (fun x k hk => ?_) _))
  · rw [Bool.false_and, Bool.false_and, if_neg Bool.false_ne_true]
  · split
    · exact reg_releasePin x (List.mem_range.mp hk) (by omega)
    · rfl

theorem eng_endImgOf (s : State) (who : Ident) (txns : Bool) (e : Nat) : (s.endImgOf who txns).eng e = s.eng e := by
  have hKeeps : Keeps [.now, .regs, .leases, .img] s (s.endImgOf who txns) := .endImgOf .refl rfl
  rw [eng, show (s.endImgOf who txns).engines = s.engines from hKeeps.frame .engines rfl, eng]

end State
end Sys2Proof.Machine
end

section
/-!
PROOF. O28: the watchdog's registers, and the start and stop of an engine.
-/

namespace Sys2Proof.Machine.State

variable {s : State} {who : Ident} {e : Nat}

/-- The row of an engine's watchdog register. -/
theorem regRow_ceWdog : ∀ e < 96, regRow (Reg.CE_WDOG e) = some
    { base := 0x1010018, dims := [(0x100000, 8), (0x1000, 12)], rw := 0x3ffffff, w1c := 0, rc := [], wo := 0, ro := 0, reset := 0 } := by
  decide

theorem lt_96_of_hasEngine (h : s.hasEngine e = true) : e < 96 := by
  have he : e < 12 * s.variant.districts := of_decide_eq_true h
  have hd : s.variant.districts ≤ 8 := by cases s.variant <;> decide
  omega

/-- A field within the writable bits of a register holds what was written. -/
theorem fieldGet_written (old v m clear : Word) {lo width : Nat} (hm : ∀ i < width, m.getLsbD (lo + i) = true) :
    fieldGet ((old &&& ~~~m &&& clear) ||| (v &&& m)) lo width = fieldGet v lo width := by
  apply Nat.eq_of_testBit_eq
  intro i
  rw [testBit_fieldGet, testBit_fieldGet]
  by_cases hi : i < width
  · have hBit := hm i hi
    have hLow : lo + i < 32 := by
      by_contra hHigh
      rw [BitVec.getLsbD_of_ge _ _ (by omega)] at hBit
      exact absurd hBit Bool.false_ne_true
    have hElem : m[lo + i] = true := (BitVec.getLsbD_eq_getElem hLow).symm.trans hBit
    simp [hElem, hLow]
  · simp [hi]

theorem writeWdog_fields (v : Word) (h : e < 96) :
    (s.writePlain (Reg.CE_WDOG e) v).fld (Fld.CE_WDOG_PERIOD e) = fieldGet v 0 24 ∧
      (s.writePlain (Reg.CE_WDOG e) v).fld (Fld.CE_WDOG_EN e) = fieldGet v 24 1 := by
  rw [writePlain, regRow_ceWdog e h]
  dsimp only
  rw [writeRow', fld, fld]
  simp only [Fld.CE_WDOG_PERIOD, Fld.CE_WDOG_EN, reg_setReg_same]
  exact ⟨fieldGet_written _ v _ _ (by decide), fieldGet_written _ v _ _ (by decide)⟩

theorem runControl_runs (f : State → State) (hEngine : s.hasEngine e = true) (hNot : Ident.isEngine who = false)
    (hMay : Ident.isSup who = true ∨ s.mode = 1) : s.runControl who e f = f s := by
  unfold runControl
  rw [hEngine, hNot, Bool.not_true, if_neg Bool.false_ne_true, if_neg Bool.false_ne_true]
  exact if_pos hMay

theorem wbits_low (v : Word) : wbits v 0 24 = (v.setWidth 24).toNat := by
  apply Nat.eq_of_testBit_eq
  intro i
  rw [wbits, testBit_fieldGet, BitVec.testBit_toNat, BitVec.getLsbD_setWidth, Nat.zero_add]

theorem wbits_key (key : BitVec 16) : wbits (key.setWidth 32) 0 16 = key.toNat := by
  apply Nat.eq_of_testBit_eq
  intro i
  rw [wbits, testBit_fieldGet, BitVec.testBit_toNat, BitVec.getLsbD_setWidth, Nat.zero_add]
  by_cases hi : i < 16
  · simp [hi, show i < 32 by omega]
  · simp [hi, BitVec.getLsbD_of_ge _ _ (Nat.le_of_not_lt hi)]

theorem eng_kickWatchdog (s : State) (e p : Nat) : (s.kickWatchdog e p).eng e =
    { s.eng e with wdCount := p * 256, wdExpired := false, wdArmed := true } := eng_setEng_same s e _

@[simp] theorem fld_kickWatchdog (s : State) (e p : Nat) (f : Fld) : (s.kickWatchdog e p).fld f = s.fld f := rfl

theorem cfgErr_windowErr (s : State) (e : Nat) : (s.windowErr (.ce e)).flag (Fld.CE_STAT_CFG_ERR e) = true :=
  flag_setFlag_same s (Fld.CE_STAT_CFG_ERR e) true (show 31 + 1 ≤ 32 by decide) rfl

theorem reg_windowErr_ce (s : State) (e : Nat) {a : Nat} (h : a ≠ Reg.CE_STAT e) : (s.windowErr (.ce e)).reg a = s.reg a := by
  rw [windowErr, setFlag, reg_stampSet, reg_setFld_ne _ _ h]

theorem exec_ceWdog (v : Word) (hServes : s.serves who = true) (hEngine : s.hasEngine e = true)
    (hNot : Ident.isEngine who = false) (hMay : Ident.isSup who = true ∨ s.mode = 1) :
    exec (.ceWdog who e v) s = .next (s.writeWdog e v) := by
  refine congrArg Host.Outcome.next ((served_of_serves hServes _).trans ?_)
  rw [hNot, if_neg Bool.false_ne_true, runControl_runs _ hEngine hNot hMay]

theorem exec_ceWdogKick (key : BitVec 16) (hServes : s.serves who = true) (hEngine : s.hasEngine e = true)
    (hNot : Ident.isEngine who = false) :
    exec (.ceWdogKick who e key) s = .next (s.writeKick e (key.setWidth 32)) := by
  have hMay : s.mayWriteReg who (Reg.CE_WDOG_KICK e) = true := by rw [mayWriteReg, hNot]; rfl
  refine congrArg Host.Outcome.next ((served_of_serves hServes _).trans ?_)
  rw [hEngine, hMay, Bool.not_true, if_neg Bool.false_ne_true, if_neg Bool.false_ne_true]

/-- An engine that starts: its state, and the memories and watchdog it keeps. -/
theorem eng_startEngine (s : State) (e : Nat) : (s.startEngine e).eng e = { s.eng e with
    g := [], pc := 0, evtPend := 0, evtMask := 0xFFFFFFFF, leaseId := 0, arrival := [], stack := []
    returned := none, refused := [], watchPending := false, leasePending := false, leaseWait := none
    loadWait := none, wdExpired := false, midRep := false } := by
  unfold startEngine
  dsimp only
  rw [setFld_eng, setFld_eng, setFld_eng, eng_setEng_same]

theorem state_startEngine (s : State) (e : Nat) : (s.startEngine e).engState e = 1 ∧ (s.startEngine e).level e = 32 := by
  unfold startEngine
  refine ⟨?_, ?_⟩
  · rw [engState, fld_setFld_apart _ _ (apart_of_ge (show 0 + 2 ≤ 12 by decide)),
      fld_setFld_apart _ _ (apart_of_ge (show 0 + 2 ≤ 6 by decide)), fld_setFld_same _ _ _ (show 0 + 2 ≤ 32 by decide)]
    rfl
  · rw [level, fld_setFld_apart _ _ (apart_of_ge (show 6 + 6 ≤ 12 by decide)), fld_setFld_same _ _ _ (show 6 + 6 ≤ 32 by decide)]
    rfl

/-- With no lease to reclaim, the stop of an engine ends its station, its pins and its doorbells. -/
theorem holdEngine_leaseless (h : ∀ l ∈ s.leases, l.holder ≠ s.ident (0x10 + e)) : s.holdEngine e =
    (((((((s.setFlag (Fld.CE_CTRL_RUN e) false).stopEngine e).clearStation (e / 12) (e % 12 + 1))).endImgOf (s.ident (0x10 + e))
      false).setReg (Reg.MBX_DB (16 + e)) 0).setReg (Reg.MBX_DBMASK (16 + e)) 0xFFFFFFFF) := by
  have hNone : (((s.setFlag (Fld.CE_CTRL_RUN e) false).stopEngine e).clearStation (e / 12) (e % 12 + 1)).leases.filter
      (fun l => l.holder == s.ident (0x10 + e)) = [] := by
    rw [List.filter_eq_nil_iff]
    intro l hl
    simpa using h l hl
  unfold holdEngine
  dsimp only
  rw [reclaimAll, hNone]
  rfl

/-- A stopped engine keeps its posted stores and its memories. -/
theorem stopEngine_spec (s : State) (e : Nat) : ((s.stopEngine e).eng e).stack = [] ∧ ((s.stopEngine e).eng e).evtPend = 0 ∧
    ((s.stopEngine e).eng e).wdCount = 0 ∧ ((s.stopEngine e).eng e).posted = (s.eng e).posted ∧
    ((s.stopEngine e).eng e).data = (s.eng e).data := by
  unfold stopEngine
  dsimp only
  rw [setFld_eng, setFld_eng, eng_setEng_same]
  split <;> exact ⟨rfl, rfl, rfl, rfl, rfl⟩

theorem engState_stopEngine (s : State) (e : Nat) : (s.stopEngine e).fld (Fld.CE_STAT_STATE e) = 0 := by
  unfold stopEngine
  dsimp only
  rw [fld_setFld_apart _ _ (apart_of_ge (show 0 + 2 ≤ 6 by decide)), fld_setFld_same _ _ _ (show 0 + 2 ≤ 32 by decide)]
  rfl

theorem eng_clearStation (s : State) (d st e : Nat) : (s.clearStation d st).eng e = s.eng e := rfl

theorem reg_clearStation (s : State) (d st a : Nat) : (s.clearStation d st).reg a = s.reg a := rfl

/-- The registers of an engine's block that its stop leaves as its first steps left them. -/
theorem reg_holdEngine {a : Nat} (h : ∀ l ∈ s.leases, l.holder ≠ s.ident (0x10 + e)) (hWindow : 0x1000000 ≤ a) (he : e < 96) :
    (s.holdEngine e).reg a = ((s.setFlag (Fld.CE_CTRL_RUN e) false).stopEngine e).reg a := by
  have hDb : a ≠ Reg.MBX_DB (16 + e) := by
    simp only [Reg.MBX_DB]
    omega
  have hMask : a ≠ Reg.MBX_DBMASK (16 + e) := by
    simp only [Reg.MBX_DBMASK]
    omega
  rw [holdEngine_leaseless h, reg_setReg_ne _ _ hMask, reg_setReg_ne _ _ hDb, reg_endImgOf_false _ _ (by omega),
    reg_clearStation]

theorem fld_holdEngine {f : Fld} (h : ∀ l ∈ s.leases, l.holder ≠ s.ident (0x10 + e)) (hWindow : engBase e ≤ f.reg) (he : e < 96) :
    (s.holdEngine e).fld f = ((s.setFlag (Fld.CE_CTRL_RUN e) false).stopEngine e).fld f := by
  have hBase : 0x1000000 ≤ engBase e := by
    unfold engBase
    omega
  rw [fld, reg_holdEngine h (hBase.trans hWindow) he, fld]

/-- A stop touches the engine's status register alone. -/
theorem fld_stopEngine (s : State) (e : Nat) {f : Fld} (h : f.reg ≠ Reg.CE_STAT e) : (s.stopEngine e).fld f = s.fld f := by
  unfold stopEngine
  dsimp only
  rw [fld_setFld_apart _ _ (.inl h.symm), fld_setFld_apart _ _ (.inl h.symm), setEng_fld]

end Sys2Proof.Machine.State

open Sys2Proof Sys2Proof.Machine Sys2Proof.Machine.State

/-- Settles O28: the writes of the watchdog's registers, and the two edges of CE_CTRL.RUN. -/
theorem engineControl : Obligations.EngineControl := by
  intro s who e v key hServes hEngine hNot hMay
  have he := lt_96_of_hasEngine hEngine
  have hRun (f : State → State) : s.runControl who e f = f s := runControl_runs f hEngine hNot hMay
  have hKick := exec_ceWdogKick key hServes hEngine hNot
  refine ⟨fun hEn hPeriod => ?_, fun hEn hPeriod => ?_, fun hKey => ?_, fun hKey => ?_, fun hStopped => ?_, fun hRuns hLeases => ?_⟩
  · obtain ⟨hFldPeriod, hFldEn⟩ := writeWdog_fields (s := s) v he
    have hWrite : s.writeWdog e v = (s.writePlain (Reg.CE_WDOG e) v).kickWatchdog e (v.setWidth 24).toNat := by
      simp only [writeWdog, hEn, wbits_low, Bool.true_and, beq_iff_eq, hPeriod, if_false, if_true]
    rw [exec_ceWdog v hServes hEngine hNot hMay, hWrite]
    refine ⟨_, rfl, ?_, ?_, ?_⟩
    · rw [fld_kickWatchdog, hFldPeriod]
      exact wbits_low v
    · have hOne : fieldGet v 24 1 ≠ 0 := by
        intro hZero
        have hBit := testBit_fieldGet v 24 1 0
        rw [hZero, Nat.zero_testBit, Nat.add_zero, hEn] at hBit
        exact absurd hBit (by decide)
      rw [flag, fld_kickWatchdog, hFldEn]
      exact bne_iff_ne.mpr hOne
    · rw [eng_kickWatchdog, Nat.mul_comm]
  · have hWrite : s.writeWdog e v = s.windowErr (.ce e) := by
      simp only [writeWdog, hEn, wbits_low, Bool.true_and, beq_iff_eq, hPeriod, if_true]
    rw [exec_ceWdog v hServes hEngine hNot hMay, hWrite]
    exact ⟨_, rfl, cfgErr_windowErr s e, reg_windowErr_ce s e (by simp [Reg.CE_WDOG, Reg.CE_STAT]), rfl⟩
  · have hWrite : s.writeKick e (key.setWidth 32) = s.kickWatchdog e (s.fld (Fld.CE_WDOG_PERIOD e)) := by
      rw [writeKick, wbits_key, hKey]
      rfl
    rw [hKick, hWrite]
    refine ⟨_, rfl, ?_, ?_⟩
    · rw [eng_kickWatchdog, Nat.mul_comm]
    · rw [eng_kickWatchdog]
  · have hOther : key.toNat ≠ 0x4C41 := fun h => hKey (BitVec.eq_of_toNat_eq h)
    have hWrite : s.writeKick e (key.setWidth 32) = s.windowErr (.ce e) := by rw [writeKick, wbits_key, if_neg hOther]
    rw [hKick, hWrite]
    exact ⟨_, rfl, cfgErr_windowErr s e, rfl⟩
  · have hExec : exec (.engineStart who e) s = .next (s.runEngine e) := by
      refine congrArg Host.Outcome.next ((served_of_serves hServes _).trans ((hRun _).trans (if_neg ?_)))
      rw [hStopped]
      exact Bool.false_ne_true
    obtain ⟨hState, hLevel⟩ := state_startEngine (s.setFlag (Fld.CE_CTRL_RUN e) true) e
    have hEng := eng_startEngine (s.setFlag (Fld.CE_CTRL_RUN e) true) e
    refine ⟨_, hExec, hState, hLevel, ?_, fun r => ?_, ?_, ?_, ?_, ?_, ?_⟩
    · rw [pc, runEngine, hEng]
    · rw [greg, runEngine, hEng]
      split <;> rfl
    all_goals rw [runEngine, hEng]
    all_goals rfl
  · have hExec : exec (.engineHoldReset who e) s = .next (s.holdEngine e) :=
      congrArg Host.Outcome.next ((served_of_serves hServes _).trans ((hRun _).trans (if_pos hRuns)))
    obtain ⟨hStack, hPend, hCount, hPosted, hData⟩ := stopEngine_spec (s.setFlag (Fld.CE_CTRL_RUN e) false) e
    have hEng : (s.holdEngine e).eng e = ((s.setFlag (Fld.CE_CTRL_RUN e) false).stopEngine e).eng e := by
      rw [holdEngine_leaseless hLeases, setReg_eng, setReg_eng, eng_endImgOf, eng_clearStation]
    refine ⟨_, hExec, ?_, ?_, ?_, ?_, ?_, ?_, ?_, ?_⟩
    · rw [engState, fld_holdEngine hLeases (Nat.le_add_right _ _) he, engState_stopEngine]
    · rw [flag, fld_holdEngine hLeases (Nat.le_add_right _ _) he, fld_stopEngine _ _ (by simp [Fld.CE_CTRL_RUN, Reg.CE_STAT,
        Reg.CE_CTRL])]
      exact flag_setFlag_same s (Fld.CE_CTRL_RUN e) false (show 0 + 1 ≤ 32 by decide) rfl
    · rw [hEng, hStack]
    · rw [hEng, hPend]
    · rw [hEng, hCount]
    · rw [hEng, hPosted, setFlag_eng]
    · rw [hEng, hData, setFlag_eng]
    · rw [holdEngine_leaseless hLeases, reg_setReg_ne, reg_setReg_same]
      simp only [Reg.MBX_DB, Reg.MBX_DBMASK]
      omega

end

section
/-!
SUPPORT. Configuration transactions: the verb and outcome registers, the end of a transaction, and its shadow.
-/

namespace Sys2Proof.Machine.State

variable {s : State} {u : TxnUnit} {who : Ident}

/-- The outcome register of a unit stands at `code` for `who`. -/
def TxnStat (s : State) (u : TxnUnit) (code : Nat) (who : Ident) : Prop :=
  s.reg (txnCtrl u + 4) = BitVec.ofNat 32 (code + 65536 * who.toNat)

theorem txnCtrl_ge (u : TxnUnit) : 0x300010 ≤ txnCtrl u := by
  cases u <;> simp [txnCtrl, Reg.XING_TXN_CTRL, Reg.AVE_TXN_CTRL, Reg.RND_TXN_CTRL, Reg.ETH_TXN_CTRL, Reg.SRU_TXN_CTRL] <;> omega

theorem reg_countCode_ne (s : State) (who : Ident) (code : Nat) {a : Nat} (h : a ≠ Reg.SYS_WRONG_STATE_CNT) :
    (s.countCode who code).reg a = s.reg a := (countCode_frame s who code).2.2 h

/-- An outcome leaves every register but its own and the count of refusals. -/
theorem reg_txnResult_ne (s : State) (u : TxnUnit) (who : Ident) (code : Nat) {a : Nat} (hStat : a ≠ txnCtrl u + 4)
    (hCount : a ≠ Reg.SYS_WRONG_STATE_CNT) : (s.txnResult u who code).reg a = s.reg a := by
  rw [txnResult, reg_countCode_ne _ _ _ hCount, reg_setReg_ne _ _ hStat]

theorem txnStat_txnResult (s : State) (u : TxnUnit) (who : Ident) (code : Nat) : (s.txnResult u who code).TxnStat u code who := by
  have hCount : txnCtrl u + 4 ≠ Reg.SYS_WRONG_STATE_CNT := by
    have := txnCtrl_ge u
    unfold Reg.SYS_WRONG_STATE_CNT
    omega
  rw [TxnStat, txnResult, reg_countCode_ne _ _ _ hCount, reg_setReg_same, Nat.mul_comm 65536]

theorem reg_ctrl_txnResult (s : State) (u : TxnUnit) (who : Ident) (code : Nat) :
    (s.txnResult u who code).reg (txnCtrl u) = s.reg (txnCtrl u) := by
  refine reg_txnResult_ne s u who code (by omega) ?_
  have := txnCtrl_ge u
  unfold Reg.SYS_WRONG_STATE_CNT
  omega

@[simp] theorem txnState_txnResult (s : State) (u : TxnUnit) (who : Ident) (code : Nat) :
    (s.txnResult u who code).txnState u = s.txnState u := by rw [txnState, reg_ctrl_txnResult, txnState]

@[simp] theorem txnHolder_txnResult (s : State) (u : TxnUnit) (who : Ident) (code : Nat) :
    (s.txnResult u who code).txnHolder u = s.txnHolder u := by rw [txnHolder, reg_ctrl_txnResult, txnHolder]

@[simp] theorem leases_countCode (s : State) (who : Ident) (code : Nat) : (s.countCode who code).leases = s.leases :=
  (countCode_rest s who code).2

@[simp] theorem shadow_countCode (s : State) (who : Ident) (code : Nat) : (s.countCode who code).shadow = s.shadow := by
  unfold countCode
  split <;> rfl

@[simp] theorem leases_txnResult (s : State) (u : TxnUnit) (who : Ident) (code : Nat) :
    (s.txnResult u who code).leases = s.leases := by rw [txnResult, leases_countCode]; rfl

@[simp] theorem shadow_txnResult (s : State) (u : TxnUnit) (who : Ident) (code : Nat) :
    (s.txnResult u who code).shadow = s.shadow := by rw [txnResult, shadow_countCode]; rfl

@[simp] theorem leaseOf_txnResult (s : State) (u : TxnUnit) (who : Ident) (code t d i : Nat) :
    (s.txnResult u who code).leaseOf t d i = s.leaseOf t d i := by rw [leaseOf, leases_txnResult, leaseOf]

/-- STATE and HOLDER as they are written. -/
theorem txn_setTxn (s : State) (u : TxnUnit) {state : Nat} (who : Ident) (h : state < 4) :
    (s.setTxn u state who).txnState u = state ∧ (s.setTxn u state who).txnHolder u = who := by
  rw [txnState, txnHolder, setTxn, reg_setReg_same]
  have hWord : (BitVec.ofNat 32 (state * 4 + who.toNat * 65536)).toNat = state * 4 + who.toNat * 65536 := by
    have := who.isLt
    exact Nat.mod_eq_of_lt (by omega)
  have hGet (lo n : Nat) : fieldGet (BitVec.ofNat 32 (state * 4 + who.toNat * 65536)) lo n =
      (state * 4 + who.toNat * 65536) / 2 ^ lo % 2 ^ n := by
    rw [fieldGet, BitVec.extractLsb'_toNat, hWord, Nat.shiftRight_eq_div_pow]
  have hHolder := who.isLt
  refine ⟨?_, BitVec.eq_of_toNat_eq ?_⟩
  · rw [hGet]
    omega
  · rw [hGet, BitVec.toNat_ofNat]
    omega

/-- A transaction that ends is IDLE and holds no lease. -/
theorem closeTxn_spec (s : State) (u : TxnUnit) : (s.closeTxn u).txnState u = 0 ∧
    (s.closeTxn u).leaseOf 8 (txnLease u).1 (txnLease u).2 = none ∧ (s.closeTxn u).shadow = s.shadow ∧
    ∀ a, a ≠ txnCtrl u → (s.closeTxn u).reg a = s.reg a :=
  ⟨(txn_setTxn s u 0 (by decide)).1, leaseOf_dropLease _ _ _ _, rfl, fun _ h => reg_setReg_ne s _ h⟩

/-! ### The shadow of a reduction unit -/

theorem inBlock_iff {a lo n : Nat} : inBlock a lo n = true ↔ lo ≤ a ∧ a < lo + n := decide_eq_true_iff

/-- The shadowed registers of a reduction unit lie beyond its verb and outcome registers. -/
theorem lt_of_covers_sru {d a : Nat} (h : txnCovers (.sru d) a = true) : txnCtrl (.sru d) + 4 < a := by
  simp only [txnCovers, Bool.or_eq_true, beq_iff_eq, inBlock_iff, Reg.SRU_EXPORT, Reg.SRU_MINDT, Reg.SRU_IN,
    Reg.SRU_PS_W0] at h
  simp only [txnCtrl, Reg.SRU_TXN_CTRL]
  omega

/-- A shadow that becomes live changes no register it does not cover. -/
theorem reg_applyShadow_ne (s : State) (u : TxnUnit) {a : Nat} (h : txnCovers u a = false) :
    (s.applyShadow u).reg a = s.reg a := by
  unfold applyShadow
  refine (foldl_keeps (l := s.shadow) (fun t : State => t.reg a) (fun t p _ => ?_) s)
  split
  · rename_i hCovers
    split
    · refine reg_setReg_ne t _ fun hEq => ?_
      rw [← hEq, h] at hCovers
      exact Bool.false_ne_true hCovers
    · rfl
  · rfl

theorem reg_applyShadow_sru (s : State) {d a : Nat} (h : a ≤ txnCtrl (.sru d) + 4) :
    (s.applyShadow (.sru d)).reg a = s.reg a := by
  refine reg_applyShadow_ne s _ ?_
  rw [Bool.eq_false_iff]
  intro hCovers
  exact absurd (lt_of_covers_sru hCovers) (Nat.not_lt.mpr h)

/-- What the end of an application leaves: the transaction IDLE, its lease gone, and OK where PENDING stood. -/
theorem endApply_spec (s : State) (u : TxnUnit) : (s.endApply u).txnState u = 0 ∧
    (s.endApply u).leaseOf 8 (txnLease u).1 (txnLease u).2 = none ∧ (s.endApply u).shadow = s.shadow ∧
    (∀ a, a ≠ txnCtrl u → a ≠ txnCtrl u + 4 → (s.endApply u).reg a = s.reg a) ∧
    (s.TxnStat u 1 (s.txnHolder u) → (s.endApply u).TxnStat u 0 (s.txnHolder u)) := by
  obtain ⟨hState, hLease, hShadow, hReg⟩ := closeTxn_spec s u
  unfold endApply
  dsimp only
  split
  · refine ⟨by rw [txnState_txnResult, hState], by rw [leaseOf_txnResult, hLease], by rw [shadow_txnResult, hShadow], ?_, ?_⟩
    · intro a hCtrl hStat
      rw [txnResult, countCode, if_neg (by decide), reg_setReg_ne _ _ hStat, hReg a hCtrl]
    · exact fun _ => txnStat_txnResult _ _ _ _
  · rename_i hPending
    refine ⟨hState, hLease, hShadow, fun a hCtrl _ => hReg a hCtrl, fun hStat => absurd ?_ hPending⟩
    rw [TxnStat, Nat.mul_comm 65536] at hStat
    exact hStat

/-- The holder's window and outcome registers are not shadowed, so an application leaves them. -/
theorem applyTxn_sru (s : State) (d : Nat) : s.applyTxn (.sru d) = (s.applyShadow (.sru d)).endApply (.sru d) := rfl

/-! ### The verbs -/

theorem txnReach_reaches {a : Nat} (f : State → State) (hPresent : txnPresent s.variant u = true) (hMay : s.txnRefuses u who = false) :
    s.txnReach u who a f = f s := by
  rw [txnReach, hPresent, hMay, Bool.not_true, if_neg Bool.false_ne_true, if_neg Bool.false_ne_true]

theorem applyFirst_none (h : s.txnState u = 2 → s.boundaryNow u = false) : s.applyFirst u = s := by
  refine if_neg fun hDue => ?_
  rw [h hDue.1] at hDue
  exact Bool.false_ne_true hDue.2

/-- BEGIN of an IDLE transaction opens it with its lease. -/
theorem beginTxn_opens (hMode : s.mode ≠ 0) (hIdle : s.txnState u = 0) : ∃ l, (s.beginTxn u who).txnState u = 1 ∧
    (s.beginTxn u who).txnHolder u = who ∧ (s.beginTxn u who).leaseOf 8 (txnLease u).1 (txnLease u).2 = some l ∧
    l.holder = who ∧ (s.beginTxn u who).TxnStat u 0 who ∧ (s.beginTxn u who).shadow = s.shadow := by
  have hBoot : (s.mode == Mode.boot) = false := beq_eq_false_iff_ne.mpr hMode
  have hBegin : s.beginTxn u who = ((s.setTxn u 1 who).addLease
      { type := 8, district := (txnLease u).1, index := (txnLease u).2, holder := who }).txnResult u who Code.ok := by
    simp [beginTxn, firstCode, hBoot, hIdle]
  obtain ⟨hState, hHolder⟩ := txn_setTxn s u who (state := 1) (by decide)
  rw [hBegin]
  refine ⟨{ type := 8, district := (txnLease u).1, index := (txnLease u).2, holder := who }, ?_, ?_, ?_, rfl,
    txnStat_txnResult _ _ _ _, ?_⟩
  · rw [txnState_txnResult]; exact hState
  · rw [txnHolder_txnResult]; exact hHolder
  · rw [leaseOf_txnResult, leaseOf, addLease, List.find?_cons_of_pos (by simp)]
  · rw [shadow_txnResult]; rfl

theorem beginTxn_busy (hMode : s.mode ≠ 0) (hOpen : s.txnState u ≠ 0) : s.beginTxn u who = s.txnResult u who Code.busy := by
  have hBoot : (s.mode == Mode.boot) = false := beq_eq_false_iff_ne.mpr hMode
  have hBusy : (s.txnState u != 0) = true := bne_iff_ne.mpr hOpen
  have hCode : ¬Code.busy = Code.ok := by decide
  simp only [beginTxn, firstCode, hBoot, hBusy, Bool.false_eq_true, if_false, if_true, hCode]

theorem rollbackTxn_spec (s : State) (u : TxnUnit) : (s.rollbackTxn u).txnState u = 0 ∧
    (s.rollbackTxn u).leaseOf 8 (txnLease u).1 (txnLease u).2 = none ∧
    ∀ p ∈ (s.rollbackTxn u).shadow, txnCovers u p.1 = false := by
  obtain ⟨hState, hLease, -, -⟩ := closeTxn_spec (s.clearShadow u) u
  have hShadow : ∀ p ∈ ((s.clearShadow u).closeTxn u).shadow, txnCovers u p.1 = false := by
    intro p hp
    have hKept := (List.mem_filter.mp hp).2
    rwa [Bool.not_eq_true'] at hKept
  unfold rollbackTxn
  dsimp only
  split
  · rename_i hXing
    subst hXing
    refine ⟨?_, hLease, hShadow⟩
    rw [← hState, txnState, txnState, setFlag, reg_stampSet, reg_setFld_ne _ _ (by decide)]
    rfl
  · exact ⟨hState, hLease, hShadow⟩

/-- The CFG_ERR of a unit stands in no register that the unit shadows. -/
theorem reg_txnErr {a : Nat} (h : txnCovers u a = true) : (s.txnErr u).reg a = s.reg a := by
  have hFlag (f : Fld) (hf : a ≠ f.reg) : (s.setFlag f true).reg a = s.reg a := by
    rw [setFlag, reg_stampSet, reg_setFld_ne _ _ hf]
  cases u with
  | xing =>
    refine hFlag _ ?_
    simp only [txnCovers, Bool.or_eq_true, beq_iff_eq, Reg.XING_BUF_CFG, Reg.XING_ALLEY] at h
    simp only [Fld.XING_STAT_CFG_ERR, Reg.XING_STAT]
    omega
  | ave =>
    refine hFlag _ ?_
    simp only [txnCovers, Bool.or_eq_true, Bool.and_eq_true, beq_iff_eq, inBlock_iff, Reg.AVE_SCHED, Reg.AVE_APPLY,
      Reg.AVE_ID, Reg.AVE_SLOT] at h
    simp only [Fld.AVE_STAT_CFG_ERR, Reg.AVE_STAT]
    omega
  | rnd d =>
    refine hFlag _ ?_
    simp only [txnCovers, Bool.or_eq_true, beq_iff_eq, inBlock_iff, Reg.RND_PERIOD, Reg.RND_BIND_ETH0,
      Reg.RND_SLICE, Reg.RND_COMMON_CFG, Reg.RND_LOCK] at h
    simp only [Fld.RND_STAT_CFG_ERR, Reg.RND_STAT]
    omega
  | eth n =>
    refine hFlag _ ?_
    simp only [txnCovers, Bool.or_eq_true, beq_iff_eq, Reg.ETH_CFG, Reg.ETH_PLCA, Reg.ETH_HOLD, Reg.ETH_THRU] at h
    simp only [Fld.ETH_STAT_CFG_ERR, Reg.ETH_STAT]
    omega
  | sru d =>
    refine hFlag _ ?_
    have hBeyond := lt_of_covers_sru h
    simp only [txnCtrl, Reg.SRU_TXN_CTRL] at hBeyond
    simp only [Fld.SRU_STAT_CFG_ERR, Reg.SRU_STAT]
    omega

/-- The transaction named for a register shadows it. -/
theorem covers_of_txnAt {a : Nat} (h : txnAt a = some u) : txnCovers u a = true := by
  unfold txnAt at h
  dsimp only at h
  split_ifs at h with h1 h2 h3 h4 h5 h6 h7 h8 h9 <;> cases h <;> assumption

end Sys2Proof.Machine.State
end

section
/-!
PROOF. O29: configuration transactions.
-/

open Sys2Proof Sys2Proof.Machine Sys2Proof.Machine.State

/-- Settles O29: a verb acts on the unit's two registers, its lease and its shadow, after an application that is due. -/
theorem transactions : Obligations.Transactions := by
  intro s who u a v hServes hPresent hMay lease stat unapplied
  obtain ⟨⟨hRun, -⟩, -⟩ : (s.inReset = false ∧ _) ∧ _ := by simpa [serves] using hServes
  have hVerb (f : State → State) {b : Nat} : s.served who (fun s => s.txnReach u who b f) = f s :=
    (served_of_serves hServes _).trans (txnReach_reaches f hPresent hMay)
  have hBegin : exec (.begin u who) s = .next ((s.applyFirst u).beginTxn u who) := congrArg _ (hVerb _)
  have hCommit : exec (.commit u who) s = .next ((s.applyFirst u).commitTxn u who) := congrArg _ (hVerb _)
  have hRollback : exec (.rollback u who) s = .next ((s.applyFirst u).rollback u who) := congrArg _ (hVerb _)
  have hOpen (h : s.txnState u = 1) : s.applyFirst u = s := applyFirst_none fun h2 => absurd (h.symm.trans h2) (by decide)
  refine ⟨fun hMode hIdle => ?_, fun hMode hBusy hUn => ?_, fun hState hHolder hCode => ?_, fun d hu hState hHolder hCode hDue => ?_,
    fun hOther hUn => ?_, fun d hu hMode hState => ?_, fun hState hHolder => ?_, fun d hu hState hStat hShadow hCovers => ?_,
    fun hAt hGone hState hHolder hRoom => ?_, fun hAt hGone => ?_, fun hAt hGone hOther => ?_⟩
  · rw [hBegin, applyFirst_none fun h => absurd (hIdle.symm.trans h) (by decide)]
    obtain ⟨l, hOpens⟩ := beginTxn_opens (who := who) hMode hIdle
    exact ⟨_, l, rfl, hOpens⟩
  · rw [hBegin, applyFirst_none hUn, beginTxn_busy hMode hBusy]
    exact ⟨_, rfl, txnState_txnResult _ _ _ _, txnHolder_txnResult _ _ _ _, txnStat_txnResult _ _ _ _, leases_txnResult _ _ _ _⟩
  · have hRefused : s.commitTxn u who = s.txnResult u who (s.commitCode u) := by
      rw [commitTxn, if_neg (by simp [hState, hHolder])]
      exact if_pos hCode
    rw [hCommit, hOpen hState, hRefused]
    exact ⟨_, rfl, txnStat_txnResult _ _ _ _, (txnState_txnResult _ _ _ _).trans hState, shadow_txnResult _ _ _ _⟩
  · subst hu
    have hLater : ((s.setTxn (.rnd d) 2 who).txnResult (.rnd d) who Code.pending).atBoundary (.rnd d) = false := by
      have hSome : (s.dist d).due.isNone = false := by
        rw [Option.isNone_eq_false_iff, Option.isSome_iff_ne_none]
        exact hDue
      refine (congrArg (· && (s.dist d).flight.isNone) hSome).trans ?_
      rw [Bool.false_and]
    have hPends : s.commitTxn (.rnd d) who = (s.setTxn (.rnd d) 2 who).txnResult (.rnd d) who Code.pending := by
      rw [commitTxn, if_neg (by simp [hState, hHolder])]
      simp only [hCode, ne_eq, reduceCtorEq, if_false, hLater, Bool.false_eq_true]
      exact if_neg (fun h => h rfl)
    rw [hCommit, hOpen hState, hPends]
    exact ⟨_, rfl, txnStat_txnResult _ _ _ _, (txnState_txnResult _ _ _ _).trans (txn_setTxn s _ who (by decide)).1,
      shadow_txnResult _ _ _ _⟩
  · rw [hCommit, applyFirst_none hUn, commitTxn, if_pos (.inr hOther)]
    exact ⟨_, rfl, txnStat_txnResult _ _ _ _, txnState_txnResult _ _ _ _, shadow_txnResult _ _ _ _⟩
  · subst hu
    have hFirst : s.applyFirst (.sru d) = (s.applyShadow (.sru d)).endApply (.sru d) := if_pos ⟨hState, rfl⟩
    obtain ⟨hIdle, -, -, hReg, -⟩ := endApply_spec (s.applyShadow (.sru d)) (.sru d)
    have hCtrl := txnCtrl_ge (.sru d)
    have hMode' : ((s.applyShadow (.sru d)).endApply (.sru d)).mode ≠ 0 := by
      have hBelow : Fld.SYS_MODE_MODE.reg < 0x300010 := by decide
      rw [mode, fld, hReg _ (by omega) (by omega), reg_applyShadow_sru _ (by omega)]
      exact hMode
    obtain ⟨l, hState', hHolder', hLease', hOwner, hStat', -⟩ := beginTxn_opens (who := who) hMode' hIdle
    rw [hBegin, hFirst]
    exact ⟨_, l, rfl, hState', hHolder', hLease', hOwner, hStat'⟩
  · obtain ⟨hIdle, hLease, hShadow⟩ := rollbackTxn_spec s u
    rw [hRollback, hOpen hState, State.rollback, if_pos ⟨hState, hHolder⟩]
    exact ⟨_, rfl, (txnState_txnResult _ _ _ _).trans hIdle, (leaseOf_txnResult _ _ _ _ _ _ _).trans hLease,
      txnStat_txnResult _ _ _ _, by rw [shadow_txnResult]; exact hShadow⟩
  · subst hu
    have hApply : exec (.txnApply (.sru d)) s = .next ((s.applyShadow (.sru d)).endApply (.sru d)) :=
      congrArg Host.Outcome.next ((live_of_running hRun _).trans (if_pos ⟨hState, rfl⟩))
    obtain ⟨hIdle, hLease, hKept, hReg, hOk⟩ := endApply_spec (s.applyShadow (.sru d)) (.sru d)
    have hBeyond := lt_of_covers_sru hCovers
    have hLive : s.applyShadow (.sru d) = (s.setReg a v).clearShadow (.sru d) := by
      rw [applyShadow, hShadow, List.foldl_cons, List.foldl_nil, if_pos hCovers]
    have hHolder : (s.applyShadow (.sru d)).txnHolder (.sru d) = s.txnHolder (.sru d) := by
      rw [txnHolder, reg_applyShadow_sru _ (by omega), txnHolder]
    have hPending : (s.applyShadow (.sru d)).TxnStat (.sru d) 1 ((s.applyShadow (.sru d)).txnHolder (.sru d)) := by
      rw [TxnStat, hHolder, reg_applyShadow_sru _ (by omega)]
      exact hStat
    refine ⟨_, hApply, ?_, hIdle, hLease, ?_, ?_⟩
    · rw [hReg a (by omega) (by omega), hLive]
      exact reg_setReg_same s a v
    · rw [hKept, hLive, clearShadow, setReg]
      simp [hShadow, hCovers]
    · rw [← hHolder]
      exact hOk hPending
  all_goals
    have hShadow : exec (.shadowWrite who a v) s = .next (if State.gatewayGone s.variant a then s.absentHit a true
        else s.writeShadow u who a v) := by
      refine congrArg Host.Outcome.next ((served_of_serves hServes _).trans ?_)
      simp only [hAt, txnReach_reaches _ hPresent hMay]
    rw [hShadow, hGone]
  · have hWrite : s.writeShadow u who a v = s.setShadow a (v &&& State.writeMask s.variant a) := by
      rw [writeShadow, if_pos ⟨hState, hHolder⟩, hRoom]
      exact if_neg Bool.false_ne_true
    refine ⟨_, congrArg _ ((if_neg Bool.false_ne_true).trans hWrite), ?_, rfl⟩
    rw [shadowReg, setShadow, Store.get_set_same]
    rfl
  · exact ⟨_, rfl, rfl⟩
  · have hErr : s.writeShadow u who a v = s.txnErr u := if_neg fun h => hOther h.2
    refine ⟨_, congrArg _ ((if_neg Bool.false_ne_true).trans hErr), ?_, reg_txnErr (covers_of_txnAt hAt), rfl⟩
    cases u <;> rfl

end

section
/-!
PROOF. O30: the device's resets.
-/

namespace Sys2Proof.Machine.State

variable {s : State} {who : Ident}

/-- The state that a reset with no row write in progress leaves, but for the registers it keeps. -/
def cleared (s : State) : State :=
  { State.reset with
    pending := s.pending, variant := s.variant, cycle := s.cycle, free := s.free, out := s.out, notices := s.notices
    bootSel := s.bootSel, mram := s.mram, keyHash := s.keyHash, jtag := s.jtag, porstLow := s.porstLow
    coreReset := s.coreReset, island := s.islandThrough }

/-- Registers that keep their values across a reset. -/
def keptRegs (s t : State) : State := mirrorRegs.foldl (fun (t : State) a => t.setReg a (s.reg a)) t

/-- No row write is in progress, neither a command's nor the supervisor's. -/
def NoRowWrite (s : State) : Prop := s.nv = none ∧ s.sup.started = none

theorem deviceReset_quiet (h : s.NoRowWrite) (cause : Nat) : s.deviceReset cause =
    (((keptRegs s s.cleared).setReg Reg.SYS_RESET_CAUSE
      (if cause = 0 then 1 else s.reg Reg.SYS_RESET_CAUSE ||| (1#32 <<< cause))).setReg Reg.NV_OTP_STAT
        (s.reg Reg.NV_OTP_STAT)).setReg Reg.PWR_STAT (s.reg Reg.PWR_STAT &&& 0xF) := by
  obtain ⟨hNv, hSup⟩ := h
  have hQuiet : s.nvInterrupted = s := by
    simp only [nvInterrupted, hSup, Option.any_none, Bool.false_eq_true, if_false, hNv]
  rw [deviceReset, hQuiet]
  rfl

theorem reg_keptRegs_ne (s t : State) {a : Nat} (h : a ∉ mirrorRegs) : (keptRegs s t).reg a = t.reg a :=
  foldl_keeps (fun t : State => t.reg a) (fun t _ hb => reg_setReg_ne t _ fun hEq => h (hEq ▸ hb)) t

theorem mode_cleared (s : State) : s.cleared.reg Reg.SYS_MODE = 0 := by
  have hRegs (v : Variant) : Store.get (regReset v) State.reset.regs Reg.SYS_MODE = 0 := by cases v <;> decide
  exact hRegs s.variant

/-- What a value of the state that no register changes is after a reset. -/
theorem keptRegs_keeps {α : Type} (p : State → α) (h : ∀ t a v, p (State.setReg t a v) = p t) (s t : State) :
    p (keptRegs s t) = p t :=
  foldl_keeps p (fun t a _ => h t a _) t

theorem keeps_deviceReset {α : Type} (h : s.NoRowWrite) (cause : Nat) (p : State → α)
    (hp : ∀ t a v, p (State.setReg t a v) = p t) : p (s.deviceReset cause) = p s.cleared := by
  rw [deviceReset_quiet h, hp, hp, hp, keptRegs_keeps p hp]

/-- What a reset leaves. -/
structure ColdFrom (s t : State) (cause : Word) (low held : Bool) : Prop where
  mode : t.mode = 0
  engines : t.engines = []
  leases : t.leases = []
  shadow : t.shadow = []
  mram : t.mram = s.mram
  keyHash : t.keyHash = s.keyHash
  variant : t.variant = s.variant
  cause : t.reg Reg.SYS_RESET_CAUSE = cause
  porstLow : t.porstLow = low
  coreReset : t.coreReset = held

/-- MRAM, key hashes and variant are all of the state before that a reset's outcome names. -/
theorem ColdFrom.of_kept {s' t : State} {cause : Word} {low held : Bool} (h : ColdFrom s' t cause low held)
    (hMram : s'.mram = s.mram) (hKey : s'.keyHash = s.keyHash) (hVariant : s'.variant = s.variant) :
    ColdFrom s t cause low held :=
  { h with mram := h.mram.trans hMram, keyHash := h.keyHash.trans hKey, variant := h.variant.trans hVariant }

theorem ColdFrom.held_low {t : State} {cause : Word} {low held : Bool} (h : ColdFrom s t cause low held) (b : Bool) :
    ColdFrom s { t with porstLow := b } cause b held :=
  ⟨h.mode, h.engines, h.leases, h.shadow, h.mram, h.keyHash, h.variant, h.cause, rfl, h.coreReset⟩

theorem ColdFrom.held_core {t : State} {cause : Word} {low held : Bool} (h : ColdFrom s t cause low held) (b : Bool) :
    ColdFrom s { t with coreReset := b } cause low b :=
  ⟨h.mode, h.engines, h.leases, h.shadow, h.mram, h.keyHash, h.variant, h.cause, h.porstLow, rfl⟩

theorem deviceReset_cold (h : s.NoRowWrite) (cause : Nat) : ColdFrom s (s.deviceReset cause)
    (if cause = 0 then 1 else s.reg Reg.SYS_RESET_CAUSE ||| (1#32 <<< cause)) s.porstLow s.coreReset := by
  constructor
  case mode =>
    rw [deviceReset_quiet h, mode, fld, show Fld.SYS_MODE_MODE.reg = Reg.SYS_MODE from rfl, reg_setReg_ne _ _ (by decide), reg_setReg_ne _ _ (by decide),
      reg_setReg_ne _ _ (by decide), reg_keptRegs_ne _ _ (by decide), mode_cleared]
    rfl
  case cause =>
    rw [deviceReset_quiet h, reg_setReg_ne _ _ (by decide), reg_setReg_ne _ _ (by decide), reg_setReg_same]
  case engines => exact keeps_deviceReset h cause State.engines (fun _ _ _ => rfl)
  case leases => exact keeps_deviceReset h cause State.leases (fun _ _ _ => rfl)
  case shadow => exact keeps_deviceReset h cause State.shadow (fun _ _ _ => rfl)
  case mram => exact keeps_deviceReset h cause State.mram (fun _ _ _ => rfl)
  case keyHash => exact keeps_deviceReset h cause State.keyHash (fun _ _ _ => rfl)
  case variant => exact keeps_deviceReset h cause State.variant (fun _ _ _ => rfl)
  case porstLow => exact keeps_deviceReset h cause State.porstLow (fun _ _ _ => rfl)
  case coreReset => exact keeps_deviceReset h cause State.coreReset (fun _ _ _ => rfl)

theorem free_deviceReset (h : s.NoRowWrite) (cause : Nat) : (s.deviceReset cause).free = s.free :=
  keeps_deviceReset h cause State.free (fun _ _ _ => rfl)

/-! ### Mode commands -/

/-- A mode command has been taken in this cycle. -/
def modeTaken (s : State) : State := { s with now := { s.now with commands := Reg.SYS_MODE_CMD :: s.now.commands } }

theorem automatic_none (h : s.noTransition = true) : s.automatic = s := by
  simp only [noTransition, Bool.and_eq_true, Bool.not_eq_true'] at h
  obtain ⟨hReport, hForced⟩ := h
  have hForce (k : Nat) (hk : k ∈ [0, 3, 4]) : s.forceDue k = false := by
    rw [List.any_eq_false] at hForced
    exact Bool.eq_false_iff.mpr (hForced k hk)
  simp only [automatic, hReport, Bool.false_eq_true, if_false, List.foldl_cons, List.foldl_nil, hForce 0 (by simp),
    hForce 3 (by simp), hForce 4 (by simp)]

/-- Who may command the modes reaches SYS_MODE_CMD. -/
theorem modeCommand_of_asks (h : s.asks who = true) (body : State → State) : s.live (fun s => s.modeCommand who body) =
    s.oneAtATime Reg.SYS_MODE_CMD (s.flag Fld.SYS_MODE_CMD_BUSY) Fld.SYS_MODE_RESULT_LOST fun s => body s.automatic := by
  simp only [asks, Bool.and_eq_true, Bool.not_eq_true', Bool.or_eq_true] at h
  obtain ⟨⟨hRun, hReach⟩, hWho⟩ := h
  have hEngine : Ident.isEngine who = false := by
    simp only [Ident.isHost, Ident.isSup, Ident.isEngine, decide_eq_true_eq, beq_iff_eq, decide_eq_false_iff_not] at hWho ⊢
    omega
  rw [live_of_running hRun, modeCommand, hostWrite, hEngine, if_neg Bool.false_ne_true, if_pos (hWho.imp_right .inl),
    overHclk_of_reaches hReach]

/-- The first mode command of a cycle runs after the automatic transitions. -/
theorem modeCommand_first (hAsks : s.asks who = true) (hIdle : s.flag Fld.SYS_MODE_CMD_BUSY = false)
    (hFirst : s.took Reg.SYS_MODE_CMD = false) (body : State → State) :
    s.live (fun s => s.modeCommand who body) = body s.modeTaken.automatic := by
  rw [modeCommand_of_asks hAsks, oneAtATime, hIdle, hFirst]
  rfl

theorem modeCommand_runs (hAsks : s.asks who = true) (hIdle : s.flag Fld.SYS_MODE_CMD_BUSY = false)
    (hFirst : s.took Reg.SYS_MODE_CMD = false) (hNone : s.noTransition = true) (body : State → State) :
    s.live (fun s => s.modeCommand who body) = body s.modeTaken := by
  rw [modeCommand_first hAsks hIdle hFirst, automatic_none (s := s.modeTaken) hNone]

end Sys2Proof.Machine.State

open Sys2Proof Sys2Proof.Machine Sys2Proof.Machine.State

/-- Settles O30: every cause that passes runs the same reset (`deviceReset_cold`). -/
theorem deviceResets : Obligations.DeviceResets := by
  intro s who tag ns hNv hSup cold old
  have hCold {i : Instr} {t : State} {cause : Word} {low held : Bool} (hi : exec i s = .next t) (h : ColdFrom s t cause low held) :
      cold i cause low held :=
    ⟨t, hi, h.mode, h.engines, h.leases, h.shadow, h.mram, h.keyHash, h.variant, h.cause, h.porstLow, h.coreReset⟩
  have hReset (c : Nat) := deviceReset_cold (s := s) ⟨hNv, hSup⟩ c
  refine ⟨fun hLow => ?_, fun hHigh => ?_, fun hFree => ?_, fun hHeld hHigh => ?_, fun hRun => ?_⟩
  · have hRelease := deviceReset_cold (s := { s with porstLow := false }) ⟨hNv, hSup⟩ 0
    exact hCold (congrArg Host.Outcome.next (if_pos hLow)) (hRelease.of_kept rfl rfl rfl)
  · refine hCold (t := { s.deviceReset 0 with porstLow := true }) ?_ ((hReset 0).held_low true)
    refine congrArg Host.Outcome.next (if_neg ?_)
    rw [hHigh]
    exact Bool.false_ne_true
  · refine hCold (t := { s.deviceReset 2 with coreReset := true }) ?_ ((hReset 2).held_core true)
    refine congrArg Host.Outcome.next (if_neg ?_)
    rw [hFree]
    exact Bool.false_ne_true
  · refine ⟨_, rfl, ?_, rfl⟩
    rw [inReset, hHigh]
    rfl
  · have hOut : s.porstLow = false ∧ s.coreReset = false := by simpa [inReset] using hRun
    obtain ⟨hPorst, hCore⟩ := hOut
    have hBy (c : Nat) : s.resetBy c = s.deviceReset c := if_neg (by rw [hRun]; exact Bool.false_ne_true)
    have hLive (c : Nat) : s.live (fun s => s.resetBy c) = s.deviceReset c := (live_of_running hRun _).trans (hBy c)
    rw [hPorst, hCore] at hReset
    refine ⟨fun hLong => ?_, fun hShort => ?_, fun hLow hHigh => ?_, ?_, ?_, ?_, fun hAsks hIdle hFirst hNone => ?_⟩
    · exact hCold (congrArg Host.Outcome.next ((if_neg (by omega)).trans ((if_pos hLong).trans (hBy 1)))) (hReset 1)
    · exact congrArg Host.Outcome.next (if_pos hShort)
    · refine ⟨_, congrArg Host.Outcome.next ((if_neg (by omega)).trans (if_neg (by omega))), ?_⟩
      split
      · rfl
      · rw [resetBy, if_neg (show ¬s.draw.inReset = true by rw [show s.draw.inReset = s.inReset from rfl, hRun]; decide)]
        exact free_deviceReset (s := s.draw) ⟨hNv, hSup⟩ 1
    · refine hCold (congrArg Host.Outcome.next ((if_neg ?_).trans (if_pos rfl))) (hReset 3)
      rw [hRun]
      exact Bool.false_ne_true
    · exact hCold (congrArg Host.Outcome.next (hLive 4)) (hReset 4)
    · exact hCold (congrArg Host.Outcome.next (hLive 5)) (hReset 5)
    · have hSoft := deviceReset_cold (s := s.modeTaken) ⟨hNv, hSup⟩ 6
      rw [show s.modeTaken.porstLow = false from hPorst, show s.modeTaken.coreReset = false from hCore] at hSoft
      exact hCold (congrArg Host.Outcome.next ((modeCommand_runs hAsks hIdle hFirst hNone _).trans (if_pos rfl))) (hSoft.of_kept rfl rfl rfl)

end

section
/-!
SUPPORT. What the end of an identity's transactions, the loss of a link and the end of a mode command leave of the registers.
-/

namespace Sys2Proof.Machine.State

variable {s : State} {a : Nat}

theorem reg_freeSlot (s : State) {t : Nat} (h : a ≠ Reg.IMG_SLOT t) : (s.freeSlot t).reg a = s.reg a :=
  reg_setReg_ne (s.setImgTxn t {}) 0 h

theorem imgBlk_ge (b : Nat) : 0x701000 ≤ imgBlk b := by
  unfold imgBlk
  split <;> omega

theorem reg_unselect (s : State) (who : Ident) (t : Nat) (h : a < 0x700000) : (s.unselect who t).reg a = s.reg a := by
  have hSel : a ≠ (Fld.IMG_TXN_SEL_SEL (imgBlock who)).reg := by
    have hBlock := imgBlk_ge (imgBlock who)
    simp only [Fld.IMG_TXN_SEL_SEL, Reg.IMG_TXN_SEL]
    omega
  unfold unselect
  dsimp only
  split
  · exact reg_setFlag_ne s _ hSel
  · rfl

theorem reg_rollbackSlot (s : State) (t : Nat) (h : a < 0x700000) : (s.rollbackSlot t).reg a = s.reg a := by
  have hStat : a ≠ Reg.IMG_STAT := by
    unfold Reg.IMG_STAT
    omega
  have hSlot : a ≠ Reg.IMG_SLOT t := by
    unfold Reg.IMG_SLOT
    omega
  exact (reg_showImg _ hStat).trans ((reg_unselect _ _ t h).trans (reg_freeSlot s hSlot))

/-- The end of an identity's pins and transactions touches the image controller's registers alone. -/
theorem reg_endImgOf (s : State) (who : Ident) (txns : Bool) (h : a < 0x700000) : (s.endImgOf who txns).reg a = s.reg a := by
  have hStat : a ≠ Reg.IMG_STAT := by
    unfold Reg.IMG_STAT
    omega
  unfold endImgOf
  dsimp only
  refine (reg_showImg _ hStat).trans ((foldl_keeps (fun t : State => t.reg a) (fun x t _ => ?_) _).trans
    (foldl_keeps (fun t : State => t.reg a) (fun x k hk => ?_) _))
  · split
    · exact reg_rollbackSlot x t h
    · rfl
  · split
    · exact reg_releasePin x (List.mem_range.mp hk) (by omega)
    · rfl

theorem leases_releasePin (s : State) (k : Nat) : (s.releasePin k).leases = s.leases := rfl

theorem leases_unselect (s : State) (who : Ident) (t : Nat) : (s.unselect who t).leases = s.leases := by
  have hKeeps : Keeps [.now, .regs] s (s.unselect who t) := .unselect .refl rfl
  exact hKeeps.frame .leases rfl

theorem leases_freeSlot (s : State) (t : Nat) (h : s.leases = []) : (s.freeSlot t).leases = [] := by
  change s.leases.filter _ = []
  rw [h, List.filter_nil]

theorem leases_rollbackSlot (s : State) (t : Nat) (h : s.leases = []) : (s.rollbackSlot t).leases = [] := by
  change ((s.freeSlot t).unselect (s.imgHolder t) t).leases = []
  rw [leases_unselect, leases_freeSlot s t h]

theorem leases_endImgOf (s : State) (who : Ident) (txns : Bool) (h : s.leases = []) : (s.endImgOf who txns).leases = [] := by
  have hPins : ((List.range 8).foldl (fun s k => if s.pinHeld k && s.pinHolder k == who then s.releasePin k else s) s).leases = [] :=
    (foldl_keeps (fun t : State => t.leases) (fun x k _ => by
      split
      · exact leases_releasePin x k
      · rfl) s).trans h
  unfold endImgOf
  dsimp only
  generalize List.foldl _ s (List.range 8) = x at hPins ⊢
  change State.leases (List.foldl _ x (List.range 64)) = []
  refine List.foldlRecOn (motive := fun t : State => t.leases = []) _ _ hPins fun x hx t _ => ?_
  split
  · exact leases_rollbackSlot x t hx
  · exact hx

theorem reg_wilernDown (s : State) (n : Nat) (h : a < 0x600000) : (s.wilernDown n).reg a = s.reg a := by
  have hState : a ≠ (Fld.AVE_WLN_STAT_STATE n).reg := by
    simp only [Fld.AVE_WLN_STAT_STATE, Reg.AVE_WLN_STAT]
    omega
  have hSet (t : State) (x : Avenue) : (t.setAve x).reg a = t.reg a := rfl
  unfold wilernDown
  rw [hSet, reg_setFld_ne _ _ (show a ≠ (Fld.AVE_WLN_STAT_LANE_LOCK n).reg from hState), reg_setFld_ne _ _ hState]

theorem reg_aloneMap (s : State) (broken : Bool) (h : a < 0x600000) : (s.aloneMap broken).reg a = s.reg a := by
  have hRing : a ≠ Reg.AVE_RING_STAT := by
    unfold Reg.AVE_RING_STAT
    omega
  have hStat : a ≠ Reg.AVE_STAT := by
    unfold Reg.AVE_STAT
    omega
  unfold aloneMap
  dsimp only
  rw [reg_setFlag_ne _ _ hStat, reg_setFlag_ne _ _ hStat, reg_setFld_ne _ _ hRing, reg_setFlag_ne _ _ hRing,
    reg_setFlag_ne _ _ hRing, reg_setFld_ne _ _ hRing, reg_setFld_ne _ _ hRing]
  rfl

theorem reg_wilernLoss (s : State) (n : Nat) (h : a < 0x600000) : (s.wilernLoss n).reg a = s.reg a := by
  have hState : a ≠ (Fld.AVE_WLN_STAT_DOWN_CNT n).reg := by
    simp only [Fld.AVE_WLN_STAT_DOWN_CNT, Reg.AVE_WLN_STAT]
    omega
  have hRing : a ≠ Reg.AVE_RING_STAT := by
    unfold Reg.AVE_RING_STAT
    omega
  have hCount : ((s.wilernDown n).count (Fld.AVE_WLN_STAT_DOWN_CNT n)).reg a = s.reg a :=
    (reg_count_ne _ _ hState).trans (reg_wilernDown s n h)
  unfold wilernLoss
  dsimp only
  split
  · split
    · exact (reg_setFlag_ne _ _ hRing).trans hCount
    · exact (reg_aloneMap _ _ h).trans hCount
  · rfl

theorem reg_signalMsix (s : State) (fn vec : Nat) : (s.signalMsix fn vec).reg a = s.reg a := by
  unfold signalMsix
  split <;> rfl

theorem reg_raiseIrq_ne (s : State) (src : Nat) (h : a ≠ irqReg src) : (s.raiseIrq src).reg a = s.reg a := by
  unfold raiseIrq
  dsimp only
  split
  · rfl
  · split
    · split
      · exact reg_setReg_ne _ _ h
      · exact (reg_signalMsix ..).trans (reg_setReg_ne _ _ h)
    · exact reg_setReg_ne _ _ h

end Sys2Proof.Machine.State
end

section
/-!
PROOF. O31: the resets of the host's functions, the clocks, the forced LOAD and the synchronisers.
-/

namespace Sys2Proof.Machine.State

variable {s : State} {f : Nat}

/-- What a function's reset leaves of its doorbells (R454). -/
def FnEnded (s : State) (f : Nat) : Prop := s.reg (Reg.MBX_DB f) = 0 ∧ s.reg (Reg.MBX_DBMASK f) = 0xFFFFFFFF

theorem resetFunction_ended (s : State) (f : Nat) : (s.resetFunction f).FnEnded f :=
  ⟨(reg_setReg_ne _ _ (by unfold Reg.MBX_DB Reg.MBX_DBMASK; omega)).trans (reg_setReg_same ..), reg_setReg_same ..⟩

theorem msixPba_setReg (s : State) (a : Nat) (v : Word) : (s.setReg a v).msixPba = s.msixPba := rfl

theorem leases_setReg (s : State) (a : Nat) (v : Word) : (s.setReg a v).leases = s.leases := rfl

theorem msixPba_resetFunction (s : State) (f : Nat) : ∀ p ∈ (s.resetFunction f).msixPba, p.1 / 64 ≠ f := by
  intro p hp
  have hWith (t : State) (p : Store Bool) (r : List HostRead) : { t with msixPba := p, hostReads := r }.msixPba = p := rfl
  unfold resetFunction at hp
  dsimp only at hp
  rw [msixPba_setReg, msixPba_setReg, hWith] at hp
  exact bne_iff_ne.mp (List.mem_filter.mp hp).2

theorem reclaimAll_none (who : Ident) (h : s.leases = []) : s.reclaimAll who = s := by
  rw [reclaimAll, h]
  rfl

theorem leases_resetFunction (f : Nat) (h : s.leases = []) : (s.resetFunction f).leases = [] := by
  have hWith (t : State) (p : Store Bool) (r : List HostRead) : { t with msixPba := p, hostReads := r }.leases = t.leases := rfl
  unfold resetFunction
  dsimp only
  rw [leases_setReg, leases_setReg, hWith, reclaimAll_none _ (leases_endImgOf s _ true h)]
  exact leases_endImgOf s _ true h

theorem reg_resetFunction_ne {a : Nat} (hLeases : s.leases = []) (ha : a < 0x700000) (hDb : a ≠ Reg.MBX_DB f)
    (hMask : a ≠ Reg.MBX_DBMASK f) : (s.resetFunction f).reg a = s.reg a := by
  have hWith (t : State) (p : Store Bool) (r : List HostRead) : { t with msixPba := p, hostReads := r }.reg a = t.reg a := rfl
  unfold resetFunction
  dsimp only
  rw [reg_setReg_ne _ _ hMask, reg_setReg_ne _ _ hDb, reclaimAll_none _ (leases_endImgOf s _ true hLeases)]
  exact (hWith _ _ _).trans (reg_endImgOf s _ true ha)

/-- With no lease held, the reset of every function ends each of them. -/
theorem resetFunctions_ended (hLeases : s.leases = []) (n : Nat) (hn : n ≤ 7) :
    ((List.range n).foldl (fun s f => s.resetFunction f) s).leases = [] ∧
    ∀ f < n, ((List.range n).foldl (fun s f => s.resetFunction f) s).FnEnded f := by
  induction n with
  | zero => exact ⟨hLeases, fun f hf => absurd hf (Nat.not_lt_zero f)⟩
  | succ n ih =>
    obtain ⟨hNone, hEnded⟩ := ih (by omega)
    rw [List.range_succ, List.foldl_append]
    refine ⟨leases_resetFunction n hNone, fun f hf => ?_⟩
    by_cases hLast : f = n
    · subst hLast
      exact resetFunction_ended _ f
    · obtain ⟨hDb, hMask⟩ := hEnded f (by omega)
      refine ⟨(reg_resetFunction_ne hNone ?_ ?_ ?_).trans hDb, (reg_resetFunction_ne hNone ?_ ?_ ?_).trans hMask⟩
      all_goals
        simp only [Reg.MBX_DB, Reg.MBX_DBMASK]
        omega

theorem resetHost_ended (hLeases : s.leases = []) (hf : f < 7) :
    s.resetHost.FnEnded f ∧ s.resetHost.nfn = s.fld Fld.MBX_HOST_CFG_NFN :=
  ⟨(resetFunctions_ended (s := { s with nfn := s.fld Fld.MBX_HOST_CFG_NFN }) hLeases 7 (le_refl 7)).2 f hf,
    (Keeps.refl.resetFunctions rfl : Keeps [.now, .regs, .shadow, .leases, .engines, .msixPba, .districts, .ave, .xing, .ports, .cans,
      .img, .hostReads, .channels, .island, .notices] { s with nfn := s.fld Fld.MBX_HOST_CFG_NFN } _).frame .nfn rfl⟩

theorem clockBits_clkStat (s : State) (k : Nat) (lock loss : Bool) (hk : k < 6) :
    ((s.clockBits k lock loss).reg Reg.SYS_CLK_STAT).getLsbD k = lock ∧
    (loss = true → ((s.clockBits k lock loss).reg Reg.SYS_CLK_STAT).getLsbD (8 + k) = true) := by
  have hApart : decide (8 + k = k) = false := decide_eq_false (by omega)
  unfold clockBits
  cases loss <;> cases lock <;> simp [reg_setReg_same] <;> omega

theorem clockGone_set (s : State) (k : Nat) (x : Option Nat) :
    { s with clockLost := Store.set (fun _ => none) s.clockLost k x }.clockGone k = x.isSome := by
  unfold clockGone
  rw [Store.get_set_same]

theorem clockGone_congr {s t : State} (h : t.clockLost = s.clockLost) (k : Nat) : t.clockGone k = s.clockGone k := by
  rw [clockGone, clockGone, h]

end Sys2Proof.Machine.State
end

section
namespace Sys2Proof.Machine.State

variable {s : State} {k l : Nat}

theorem reg_modeResult_ne (s : State) (who : Ident) (tag code : Nat) (done : Bool) {a : Nat} (hResult : a ≠ Reg.SYS_MODE_RESULT)
    (hCount : a ≠ Reg.SYS_WRONG_STATE_CNT) (hIrq : a ≠ irqReg 0) : (s.modeResult who tag code done).reg a = s.reg a := by
  unfold modeResult
  rw [reg_raiseIrq_ne _ _ hIrq, reg_countCode_ne _ _ _ hCount, reg_setFlag_ne _ _ hResult, reg_setFld_ne _ _ hResult,
    reg_setFld_ne _ _ hResult]

/-- The end of a mode command leaves SYS_MODE's fields but CMD_BUSY. -/
theorem fld_endMode (s : State) (code : Nat) {f : Fld} (hReg : f.reg = Reg.SYS_MODE) (hBusy : Fld.SYS_MODE_CMD_BUSY.apart f) :
    (s.endMode code).fld f = s.fld f := by
  unfold endMode
  split
  · rw [fld_of_reg (reg_modeResult_ne _ _ _ _ _ (hReg ▸ by decide) (hReg ▸ by decide) (hReg ▸ by decide))]
    exact fld_setFlag_apart _ _ hBusy
  · rfl

theorem fld_modeOverrun (s : State) {f : Fld} (hReg : f.reg = Reg.SYS_MODE) (hBusy : Fld.SYS_MODE_CMD_BUSY.apart f) :
    s.modeOverrun.fld f = s.fld f := by
  unfold modeOverrun
  split
  · exact fld_endMode _ _ hReg hBusy
  · rfl

theorem forceLoad_fields (s : State) (k : Nat) : (s.forceLoad k).fld Fld.SYS_MODE_FORCED = 1 ∧
    (s.forceLoad k).fld Fld.SYS_MODE_FORCE_CAUSE = forceCause k := by
  have hCause : forceCause k < 4 := by
    unfold forceCause
    split <;> decide
  unfold forceLoad
  generalize s.enterLoad = t
  constructor
  · rw [fld_modeOverrun _ rfl (.inr (by decide)), fld_setFld_apart _ _ (.inr (by decide)), setFlag, fld_stampSet,
      fld_setFld_same _ _ _ (by decide)]
    rfl
  · rw [fld_modeOverrun _ rfl (.inr (by decide)), fld_setFld_same _ _ _ (by decide)]
    exact Nat.mod_eq_of_lt (Nat.lt_of_lt_of_le hCause (by decide))

theorem forceCause_of_due (h : s.forceDue k = true) : forceCause k = if k = 0 then 1 else if k = 3 then 2 else 3 := by
  have hCause : forceCause k ≠ 0 := by
    unfold forceDue at h
    simp only [Bool.and_eq_true, bne_iff_ne] at h
    exact h.1.1
  unfold forceCause at hCause ⊢
  split at hCause <;> simp_all

theorem syncLine_setSyncLine (s : State) (l v : Nat) : (s.setSyncLine l v).syncLine l = v := Store.get_set_same s.syncs l v

theorem syncLine_fire (s : State) (kind index l : Nat) : (s.fire kind index).syncLine l = s.syncLine l := by
  have hKeeps : Keeps [.now, .regs, .engines] s (s.fire kind index) := .fire .refl rfl
  rw [syncLine, syncLine, hKeeps.frame .syncs rfl]

/-- The registers below the Avenue's, the notices and the losses of the clocks survive the loss of both links. -/
theorem wilernLoss_both (s : State) : ((s.wilernLoss 0).wilernLoss 1).reg Reg.SYS_CLK_STAT = s.reg Reg.SYS_CLK_STAT ∧
    ((s.wilernLoss 0).wilernLoss 1).notices = s.notices ∧ ((s.wilernLoss 0).wilernLoss 1).clockLost = s.clockLost := by
  have hKeeps : Keeps [.now, .regs, .ave] s ((s.wilernLoss 0).wilernLoss 1) := .wilernLoss (.wilernLoss .refl rfl) rfl
  exact ⟨(reg_wilernLoss _ 1 (by decide)).trans (reg_wilernLoss s 0 (by decide)), hKeeps.frame .notices rfl,
    hKeeps.frame .clockLost rfl⟩

/-- What the loss of a clock leaves behind, whatever else stops with it. -/
def clockMarked (s : State) (k : Nat) : State :=
  ({ s with clockLost := Store.set (fun _ => none) s.clockLost k (some s.cycle) }.clockBits k false true).notify (.clockLoss k)

theorem clockMarked_spec (s : State) (hk : k < 6) : ((s.clockMarked k).reg Reg.SYS_CLK_STAT).getLsbD k = false ∧
    ((s.clockMarked k).reg Reg.SYS_CLK_STAT).getLsbD (8 + k) = true ∧ (s.clockMarked k).clockGone k = true ∧
    .clockLoss k ∈ (s.clockMarked k).notices := by
  obtain ⟨hLock, hLoss⟩ := clockBits_clkStat { s with clockLost := Store.set (fun _ => none) s.clockLost k (some s.cycle) } k false
    true hk
  exact ⟨hLock, hLoss rfl, clockGone_set s k (some s.cycle), List.mem_cons_self⟩

end Sys2Proof.Machine.State

open Sys2Proof Sys2Proof.Machine Sys2Proof.Machine.State

/-- Settles O31: each command's effect is read off its registers, with what follows it kept apart. -/
theorem hostResetsAndClocks : Obligations.HostResetsAndClocks := by
  intro s f k l hRun ended
  have hLive (g : State → State) : s.live g = g s := live_of_running hRun g
  have hOut : ¬s.inReset = true := by rw [hRun]; exact Bool.false_ne_true
  refine ⟨fun hf => ?_, fun hLeases hf => ?_, fun hk h1 h2 hLock => ?_, fun hk => ?_, fun hDue => ?_, fun h => ?_, fun h => ?_,
    fun h hKind => ?_⟩
  · exact ⟨_, congrArg Host.Outcome.next ((hLive _).trans (if_pos hf)), resetFunction_ended s f, msixPba_resetFunction s f⟩
  · have hEnds := resetHost_ended hLeases hf
    exact ⟨⟨_, congrArg Host.Outcome.next (hLive _), hEnds⟩, ⟨_, congrArg Host.Outcome.next (hLive _), hEnds⟩⟩
  · obtain ⟨hOff, hLost, hGone, hTold⟩ := clockMarked_spec s hk
    have hRuns : s.clockLoss k = if k = 0 then ((s.clockMarked k).wilernLoss 0).wilernLoss 1 else s.clockMarked k := by
      unfold clockLoss
      rw [if_neg hOut, if_neg (by omega), if_neg (by rw [hLock]; simp; omega)]
      dsimp only
      rw [if_neg h1, if_neg h2]
      rfl
    refine ⟨_, rfl, ?_⟩
    rw [hRuns]
    by_cases h0 : k = 0
    · obtain ⟨hReg, hNotices, hClocks⟩ := wilernLoss_both (s.clockMarked k)
      rw [if_pos h0, hReg, hNotices, clockGone_congr hClocks]
      exact ⟨hOff, hLost, hGone, hTold⟩
    · rw [if_neg h0]
      exact ⟨hOff, hLost, hGone, hTold⟩
  · refine ⟨_, rfl, ?_⟩
    unfold clockReturn
    rw [if_neg (by rw [hRun]; simp; omega)]
    exact ⟨(clockBits_clkStat _ k true false hk).1, clockGone_set s k none⟩
  · obtain ⟨hForced, hCause⟩ := forceLoad_fields s k
    refine ⟨_, congrArg Host.Outcome.next ((hLive _).trans (if_pos hDue)), ?_, hCause.trans (forceCause_of_due hDue)⟩
    rw [flag, hForced]
    rfl
  · refine ⟨_, congrArg Host.Outcome.next ((hLive _).trans ((if_neg ?_).trans (if_pos h))), syncLine_setSyncLine s l 0⟩
    omega
  · exact congrArg Host.Outcome.next ((hLive _).trans (if_pos h))
  · refine ⟨_, congrArg Host.Outcome.next ((hLive _).trans ((if_neg ?_).trans (if_neg ?_))), ?_⟩
    · omega
    · omega
    · unfold crossHeld
      dsimp only
      rw [if_neg (by omega), if_neg (by omega), if_neg (by omega), if_pos hKind, syncLine_fire, syncLine_setSyncLine]

end

section
/-!
SUPPORT. What leaves the system registers, those below 0x100000, as they were: the counterpart of `Keeps` for the mode commands.
-/

namespace Sys2Proof.Machine.State

/-- `s` agrees with `r` in the system registers. -/
structure SysKept (r s : State) : Prop where
  reg : ∀ a < 0x100000, s.reg a = r.reg a

namespace SysKept

variable {r s t : State}

theorem refl : SysKept s s := ⟨fun _ _ => rfl⟩

theorem trans (h : SysKept r s) (h' : SysKept s t) : SysKept r t := ⟨fun a ha => (h'.reg a ha).trans (h.reg a ha)⟩

theorem bind (ht : SysKept r s → SysKept r t) (h : SysKept r s) : SysKept r t := ht h

theorem ite {c : Prop} [Decidable c] (hs : SysKept r s) (ht : SysKept r t) : SysKept r (if c then s else t) := by
  split
  · exact hs
  · exact ht

theorem foldl {α : Type} {f : State → α → State} {l : List α} (h : SysKept r s) (hf : ∀ t x, SysKept r t → SysKept r (f t x)) :
    SysKept r (l.foldl f s) :=
  List.foldlRecOn (motive := SysKept r) l f h fun t ht x _ => hf t x ht

/-- A step that touches no register. -/
theorem other (h : SysKept r s) (ht : ∀ a, t.reg a = s.reg a) : SysKept r t :=
  ⟨fun a ha => (ht a).trans (h.reg a ha)⟩

theorem setReg {a : Nat} {v : Word} (h : SysKept r s) (ha : 0x100000 ≤ a) : SysKept r (s.setReg a v) :=
  ⟨fun b hb => (reg_setReg_ne s v (by omega)).trans (h.reg b hb)⟩

/-- A register of an indexed unit, at an offset from the unit's window. -/
theorem setRegAt {a base off : Nat} {v : Word} (h : SysKept r s) (ha : a = base + off)
    (hb : 0x100000 ≤ base) : SysKept r (s.setReg a v) :=
  h.setReg (ha ▸ Nat.le_add_right_of_le hb)

theorem setFld {f : Fld} {v : Nat} (h : SysKept r s) (hf : 0x100000 ≤ f.reg) : SysKept r (s.setFld f v) :=
  h.setReg hf

theorem setFldAt {f : Fld} {v base off : Nat} (h : SysKept r s) (hf : f.reg = base + off)
    (hb : 0x100000 ≤ base) : SysKept r (s.setFld f v) :=
  h.setRegAt hf hb

theorem setFlag {f : Fld} {b : Bool} (h : SysKept r s) (hf : 0x100000 ≤ f.reg) : SysKept r (s.setFlag f b) :=
  (h.setFld hf).other (by exact fun _ => rfl)

theorem setFlagAt {f : Fld} {b : Bool} {base off : Nat} (h : SysKept r s) (hf : f.reg = base + off)
    (hb : 0x100000 ≤ base) : SysKept r (s.setFlag f b) :=
  (h.setFldAt hf hb).other (by exact fun _ => rfl)

theorem count {f : Fld} {k : Nat} (h : SysKept r s) (hf : 0x100000 ≤ f.reg) : SysKept r (s.count f k) :=
  .setFld (s := s.stampRaise f k) (h.other (by exact fun _ => rfl)) hf

theorem countAt {f : Fld} {k base off : Nat} (h : SysKept r s) (hf : f.reg = base + off)
    (hb : 0x100000 ≤ base) : SysKept r (s.count f k) :=
  h.count (hf ▸ Nat.le_add_right_of_le hb)

theorem le_engBase (e : Nat) : 0x100000 ≤ engBase e := Nat.le_add_right_of_le (Nat.le_add_right_of_le (by decide))

theorem le_irqReg (src : Nat) : 0x100000 ≤ irqReg src := by
  unfold irqReg
  split <;> decide

/-- The two half-full registers of a port's counters. -/
theorem le_halfReg (n i : Nat) : 0x100000 ≤ (if i < 32 then Reg.ETH_CNT_HALF0 n else Reg.ETH_CNT_HALF1 n) := by
  split <;> exact Nat.le_add_right_of_le (by decide)

theorem stampSet {a : Nat} {w : Word} (h : SysKept r s) : SysKept r (s.stampSet a w) := h.other (by exact fun _ => rfl)

theorem setEng {e : Nat} {x : Engine} (h : SysKept r s) : SysKept r (s.setEng e x) := h.other (by exact fun _ => rfl)

theorem setXing {x : Crossing} (h : SysKept r s) : SysKept r (s.setXing x) := h.other (by exact fun _ => rfl)

theorem setSer {n : Nat} {x : Serial} (h : SysKept r s) : SysKept r (s.setSer n x) := h.other (by exact fun _ => rfl)

theorem stampRaise {f : Fld} {k : Nat} (h : SysKept r s) : SysKept r (s.stampRaise f k) :=
  h.trans (.other .refl (by exact fun _ => rfl))


theorem emit {o : Out} (h : SysKept r s) : SysKept r (s.emit o) :=
  h.trans (.other .refl (by exact fun _ => rfl))


theorem notify {n : Notice} (h : SysKept r s) : SysKept r (s.notify n) :=
  h.trans (.other .refl (by exact fun _ => rfl))


theorem lineArrives {e n : Nat} (h : SysKept r s) : SysKept r (s.lineArrives e n) :=
  h.trans (.ite .refl (.bind (fun h1 => .ite (.setFldAt (.countAt h1 (by exact rfl) (hb := le_engBase e)) (by exact rfl) (hb := le_engBase e)) (.setEng h1)) (.other .refl (by exact fun _ => rfl))))


theorem fireIn {kind index : Nat} {pick : Nat → Bool} (h : SysKept r s) : SysKept r (s.fireIn kind index pick) :=
  h.trans (.foldl .refl (fun _ _ h1 => .lineArrives h1))


theorem fire {kind index : Nat} (h : SysKept r s) : SysKept r (s.fire kind index) :=
  h.trans (.fireIn .refl)


theorem signalMsix {fn vec : Nat} (h : SysKept r s) : SysKept r (s.signalMsix fn vec) :=
  h.trans (.ite (.other .refl (by exact fun _ => rfl)) (.emit .refl))


theorem raiseIrq {src : Nat} (h : SysKept r s) : SysKept r (s.raiseIrq src) :=
  h.trans (.bind (fun h1 => .ite h1 (.bind (fun h2 => .ite (.ite h2 (.signalMsix h2)) h2) (.setReg h1 (le_irqReg src)))) (.stampSet .refl))


theorem halt {e cause : Nat} (h : SysKept r s) : SysKept r (s.halt e cause) :=
  h.trans (.notify (.setFldAt (.setFldAt (.setEng .refl) (by exact rfl) (hb := le_engBase e)) (by exact rfl) (hb := le_engBase e)))


theorem enter {e : Nat} {r' : Record} {level : Option Nat} (h : SysKept r s) : SysKept r (s.enter e r' level) := by
  refine h.trans ?_
  unfold State.enter
  dsimp only
  split
  · exact .setFldAt (.setFldAt (.setEng .refl) (by exact rfl) (hb := le_engBase e)) (by exact rfl) (hb := le_engBase e)
  · exact .setFldAt (.setEng .refl) (by exact rfl) (hb := le_engBase e)


theorem raiseEntry {e : Nat} {r' : Record} {level : Option Nat} {haltsIn : Nat → Bool} (h : SysKept r s) : SysKept r (s.raiseEntry e r' level haltsIn) :=
  h.trans (.ite (.halt .refl) (.ite (.halt .refl) (.enter .refl)))


theorem exception {e vector cause : Nat} {retPC : Word} (h : SysKept r s) : SysKept r (s.exception e vector cause retPC) :=
  h.trans (.raiseEntry .refl)


theorem illegal {e reason byte : Nat} (h : SysKept r s) : SysKept r (s.illegal e reason byte) :=
  h.trans (.exception .refl)


theorem setAve {a : Avenue} (h : SysKept r s) : SysKept r (s.setAve a) :=
  h.trans (.other .refl (by exact fun _ => rfl))


theorem setAveState {n : Nat} (h : SysKept r s) : SysKept r (s.setAveState n) :=
  h.trans (.bind (fun h1 => .ite (.notify h1) h1) (.setFld .refl (by decide)))


theorem startListening (h : SysKept r s) : SysKept r (s.startListening) :=
  h.trans (.ite (.setAve .refl) .refl)


theorem aveBegin (h : SysKept r s) : SysKept r (s.aveBegin) :=
  h.trans (.ite .refl (.startListening (.setAveState (.setAve .refl))))


theorem setRed {r' : Redundancy} (h : SysKept r s) : SysKept r (s.setRed r') :=
  h.trans (.other .refl (by exact fun _ => rfl))


theorem setPair {p : Nat} {x : Pair} (h : SysKept r s) : SysKept r (s.setPair p x) :=
  h.trans (.setRed .refl)


theorem setFree {n : Nat} (h : SysKept r s) : SysKept r (s.setFree n) :=
  h.trans (.setFld (.setFld .refl (by decide)) (by decide))


theorem xingFatal (h : SysKept r s) : SysKept r (s.xingFatal) :=
  h.trans (.notify (.setFlag .refl (by decide)))


theorem giveCells {cs : List Nat} (h : SysKept r s) : SysKept r (s.giveCells cs) :=
  h.trans (.bind (fun h1 => .ite h1 (.xingFatal h1)) (.setFree (.setXing .refl)))


theorem loseCells {cs : List Nat} {reclaimed : Bool} (h : SysKept r s) : SysKept r (s.loseCells cs reclaimed) :=
  h.trans (.setXing .refl)


theorem setFrame {f : Nat} {x : Option Frame} (h : SysKept r s) : SysKept r (s.setFrame f x) :=
  h.trans (.setXing .refl)


theorem leaveFlight {gen : Nat} (h : SysKept r s) : SysKept r (s.leaveFlight gen) :=
  h.trans (.ite (.setFld .refl (by decide)) .refl)


theorem settleFrame {f : Nat} (h : SysKept r s) : SysKept r (s.settleFrame f) := by
  refine h.trans ?_
  unfold State.settleFrame
  dsimp only
  split
  · refine .ite ?_ ?_
    · exact .bind (fun h1 => .ite (.setFrame h1) (.setFrame h1)) (.ite (.loseCells .refl) (.giveCells .refl))
    · exact .refl
  · exact .refl


theorem endCopy {f : Nat} {onChip : Bool} (h : SysKept r s) : SysKept r (s.endCopy f onChip) := by
  refine h.trans ?_
  unfold State.endCopy
  dsimp only
  split
  · exact .bind (fun h1 => .settleFrame (.ite (.leaveFlight h1) h1)) (.setFrame .refl)
  · exact .refl


theorem drop {reason source queue : Nat} (h : SysKept r s) : SysKept r (s.drop reason source queue) :=
  h.trans (.bind (fun h1 => .ite (.setFlag h1 (by decide)) (.setFlag (.setReg (.setXing h1) (by decide)) (by decide))) (.ite (.count .refl (by decide)) (.countAt .refl (by exact rfl) (by decide))))


theorem assignBucket {g b m : Nat} (h : SysKept r s) : SysKept r (s.assignBucket g b m) :=
  h.trans (.setXing .refl)


theorem showLag {g : Nat} (h : SysKept r s) : SysKept r (s.showLag g) :=
  h.trans (.setFldAt .refl (by exact rfl) (by decide))


theorem lagDown {g m : Nat} (h : SysKept r s) : SysKept r (s.lagDown g m) :=
  h.trans (.bind (fun h1 => .ite h1 (.foldl h1 (fun _ _ h2 => .assignBucket h2))) (.ite .refl (.countAt .refl (by exact rfl) (by decide))))


theorem lagReturn {g m : Nat} (h : SysKept r s) : SysKept r (s.lagReturn g m) :=
  h.trans (.foldl ((.ite .refl (.countAt .refl (by exact rfl) (by decide)))) (fun _ _ h2 => .assignBucket h2))


theorem lagLink {n : Nat} {up : Bool} (h : SysKept r s) : SysKept r (s.lagLink n up) := by
  refine h.trans ?_
  unfold State.lagLink
  dsimp only
  exact .foldl .refl (fun _ _ h1 => by
    split
    · exact .showLag (.ite (.lagReturn h1) (.lagDown h1))
    · exact h1)


theorem showDepth {q : Nat} (h : SysKept r s) : SysKept r (s.showDepth q) :=
  h.trans (.ite (.setRegAt .refl (by exact rfl) (by decide)) .refl)


theorem setQueue {q : Nat} {x : Queue} (h : SysKept r s) : SysKept r (s.setQueue q x) :=
  h.trans (.showDepth (.setXing .refl))


theorem setPort {n : Nat} {x : Port} (h : SysKept r s) : SysKept r (s.setPort n x) :=
  h.trans (.other .refl (by exact fun _ => rfl))


theorem ethCount {n i k : Nat} (h : SysKept r s) : SysKept r (s.ethCount n i k) :=
  h.trans (.bind (fun h1 => .ite h1 (.bind (fun h2 => .ite (.raiseIrq h2) h2) (.stampSet (.setReg h1 (le_halfReg n i)))))
    (.setRegAt .refl (by exact rfl) (hb := Nat.le_add_right_of_le (by decide))))


theorem dropCopy {c : Copy} {reason : Nat} {onChip : Bool} (h : SysKept r s) : SysKept r (s.dropCopy c reason onChip) := by
  refine h.trans ?_
  unfold State.dropCopy
  split
  · exact .endCopy (.drop .refl)
  · exact .refl


theorem freeSpill {x : Spilled} (h : SysKept r s) : SysKept r (s.freeSpill x) :=
  h.trans (.setXing .refl)


theorem flushDest {dest : Nat} (h : SysKept r s) : SysKept r (s.flushDest dest) :=
  h.trans (.foldl ((.setXing ((.foldl .refl (fun _ _ h2 => .foldl ((.foldl ((.setQueue h2)) (fun _ _ h5 => .dropCopy h5))) (fun _ _ h5 => .dropCopy (.freeSpill h5))))))) (fun _ _ h3 => .dropCopy ((.ite (.setXing h3) h3))))


theorem settleHeads {q n : Nat} (h : SysKept r s) :
    SysKept r (State.settleHeads q n s) := by
  refine h.trans ?_
  clear h
  induction n generalizing s with
  | zero => exact .refl
  | succ n ih =>
    unfold State.settleHeads
    split
    · exact .refl
    · split
      · exact (SysKept.dropCopy (.setQueue .refl)).trans ih
      · exact .refl


theorem settleQueue {q : Nat} (h : SysKept r s) : SysKept r (s.settleQueue q) :=
  h.trans (.settleHeads .refl)


theorem clearSending {n : Nat} (h : SysKept r s) : SysKept r (s.clearSending n) := by
  refine h.trans ?_
  unfold State.clearSending
  dsimp only
  split
  · exact .showDepth ((.setPort .refl))
  · exact (.setPort .refl)


theorem cutOff {n : Nat} (h : SysKept r s) : SysKept r (s.cutOff n) := by
  refine h.trans ?_
  unfold State.cutOff
  split
  · exact .emit (.endCopy (.ethCount (.clearSending .refl)))
  · exact .refl


theorem cutThruFrom {n m : Nat} (h : SysKept r s) : SysKept r (s.cutThruFrom n m) := by
  refine h.trans ?_
  unfold State.cutThruFrom
  dsimp only
  split
  · refine .ite ?_ ?_
    · exact .emit (.setPort ((.foldl (.setPort .refl) (fun _ _ h2 => .ite (.emit h2) h2))))
    · exact (.foldl (.setPort .refl) (fun _ _ h2 => .ite (.emit h2) h2))
  · exact (.foldl (.setPort .refl) (fun _ _ h2 => .ite (.emit h2) h2))


theorem cutThru {n : Nat} (h : SysKept r s) : SysKept r (s.cutThru n) :=
  h.trans (.foldl .refl (fun _ _ h1 => .cutThruFrom h1))


theorem linkRise {n speed : Nat} (h : SysKept r s) : SysKept r (s.linkRise n speed) :=
  h.trans (.foldl ((.fire (.lagLink ((.setPort (.setFlagAt ((.setFlagAt (.setFldAt (.setFlagAt .refl (by exact rfl) (by decide)) (by exact rfl) (by decide)) (by exact rfl) (by decide))) (by exact rfl) (by decide))))))) (fun _ _ h4 => .settleQueue h4))


theorem linkFall {n : Nat} (h : SysKept r s) : SysKept r (s.linkFall n) :=
  h.trans (.fire (.lagLink (.ethCount (.setFlagAt (.setPort .refl) (by exact rfl) (by decide)))))


theorem linkEnd {n : Nat} (h : SysKept r s) : SysKept r (s.linkEnd n) :=
  h.trans (.flushDest (.setFlagAt (.setFlagAt ((.setPort (.cutOff (.cutThru ((.ite (.linkFall .refl) .refl)))))) (by exact rfl) (by decide)) (by exact rfl) (by decide)))


theorem t1sOwnLink {n : Nat} (h : SysKept r s) : SysKept r (s.t1sOwnLink n) :=
  h.trans (.ite (.linkRise .refl) .refl)


theorem setCan {n : Nat} {x : Can} (h : SysKept r s) : SysKept r (s.setCan n x) :=
  h.trans (.other .refl (by exact fun _ => rfl))


theorem setTxObj {n t' : Nat} {x : TxObj} (h : SysKept r s) : SysKept r (s.setTxObj n t' x) :=
  h.trans (.setCan .refl)


theorem setCanOp {n op : Nat} (h : SysKept r s) : SysKept r (s.setCanOp n op) := by
  refine h.trans ?_
  unfold State.setCanOp
  dsimp only
  refine .ite ?_ ?_
  · exact .refl
  · exact .bind (fun h2 => .fire (.ite (.setFlagAt h2 (by exact rfl) (by decide)) h2)) (.setFldAt ((.ite .refl (.setCan .refl))) (by exact rfl) (by decide))


theorem canFollow {n : Nat} (h : SysKept r s) : SysKept r (s.canFollow n) := by
  refine h.trans ?_
  unfold State.canFollow
  dsimp only
  refine .ite ?_ ?_
  · exact .ite .refl (.ite (.setFlagAt .refl (by exact rfl) (by decide)) (.setCanOp .refl))
  · exact .ite (.ite (.setCanOp .refl) .refl) (.ite .refl (.setCanOp .refl))


theorem canLoad {n : Nat} (h : SysKept r s) : SysKept r (s.canLoad n) := by
  refine h.trans ?_
  unfold State.canLoad
  dsimp only
  exact .setCanOp (.setCan ((by
    split
    · exact .ite (.fire (.setTxObj .refl)) (.setTxObj .refl)
    · exact .refl)))


theorem driveDe {n : Nat} {de : Bool} (h : SysKept r s) : SysKept r (s.driveDe n de) :=
  h.trans (.ite .refl (.emit (.setSer .refl)))


theorem serKick {n : Nat} (h : SysKept r s) : SysKept r (s.serKick n) :=
  h.trans (.ite (.bind (fun h1 => .ite (.driveDe h1) h1) (.setSer .refl)) .refl)


theorem fallDe {n : Nat} (h : SysKept r s) : SysKept r (s.fallDe n) :=
  h.trans (.bind (fun h1 => .ite (.fire h1) h1) (.driveDe (.setSer .refl)))


theorem serQuiet {n : Nat} (h : SysKept r s) : SysKept r (s.serQuiet n) :=
  h.trans (.bind (fun h1 => .ite h1 (.fallDe h1)) (.setSer .refl))


theorem serFollow {n : Nat} (h : SysKept r s) : SysKept r (s.serFollow n) := by
  refine h.trans ?_
  unfold State.serFollow
  dsimp only
  refine .ite ?_ ?_
  · exact .refl
  · exact .bind (fun h1 => .bind (fun h2 => .bind (fun h3 => .serKick ((.ite (.driveDe h3) h3))) (.ite h2 (.serQuiet h2))) (.ite (.setSer h1) (.setSer h1))) (.setFldAt .refl (by exact rfl) (by decide))


theorem serLoad {n : Nat} (h : SysKept r s) : SysKept r (s.serLoad n) :=
  h.trans (.setFldAt (.driveDe (.setSer .refl)) (by exact rfl) (by decide))


theorem setBeat {e : Nat} {b : Beat} (h : SysKept r s) : SysKept r (s.setBeat e b) :=
  h.trans (.setRed .refl)


theorem showMon (h : SysKept r s) : SysKept r (s.showMon) :=
  h.trans (.foldl .refl (fun _ _ h1 => .ite h1 (.setFlagAt h1 (by exact rfl) (by decide))))


theorem startMonitoring (h : SysKept r s) : SysKept r (s.startMonitoring) :=
  h.trans (.showMon (.setRed ((.foldl ((.foldl .refl (fun _ _ h2 => .setBeat (.setFldAt (.setFldAt h2 (by exact rfl) (by decide)) (by exact rfl) (by decide))))) (fun _ _ h3 => .setPair h3)))))


theorem stopMonitoring (h : SysKept r s) : SysKept r (s.stopMonitoring) :=
  h.trans (.showMon (.setRed .refl))


theorem followMode (h : SysKept r s) : SysKept r (s.followMode) :=
  h.trans (.foldl ((.foldl ((.foldl .refl (fun _ _ h2 => .t1sOwnLink h2))) (fun _ _ h3 => .ite (.canFollow h3) h3))) (fun _ _ h3 => .ite (.serFollow h3) h3))


/-- What a command does after the change of mode leaves the system registers as the change left them. -/
theorem enterLoad (s : State) : SysKept (s.setMode Mode.load) s.enterLoad :=
  .stopMonitoring (.foldl (.foldl (.foldl .refl fun _ _ h => .ite (.linkEnd h) h) fun _ _ h => .ite (.canLoad h) h)
    fun _ _ h => .ite (.serLoad h) h)

theorem enterCommission (s : State) : SysKept (s.setMode Mode.commission) s.enterCommission := by
  have hBegun : SysKept (s.setMode Mode.commission) (s.setMode Mode.commission).aveBegin := .aveBegin .refl
  unfold State.enterCommission
  exact .followMode (.ite hBegun (.startMonitoring hBegun))

end SysKept
end Sys2Proof.Machine.State
end

section
/-!
PROOF. O32: the mode commands.
-/

namespace Sys2Proof.Machine.State

variable {s t : State} {who : Ident} {tag code : Nat} {done : Bool}

theorem fieldGet_lt (w : Word) (lo width : Nat) : fieldGet w lo width < 2 ^ width := BitVec.isLt _

/-- The result register a mode command leaves. -/
structure ModeAnswer (t : State) (tag code : Nat) (done : Bool) : Prop where
  code : t.fld Fld.SYS_MODE_RESULT_CODE = code
  done : t.flag Fld.SYS_MODE_RESULT_DONE = done
  tag : t.fld Fld.SYS_MODE_RESULT_TAG = tag % 256

theorem modeResult_answers (s : State) (who : Ident) (tag : Nat) (done : Bool) (hCode : code < 65536) :
    (s.modeResult who tag code done).ModeAnswer tag code done := by
  have hLast (x : State) : ((x.countCode who code).raiseIrq 0).reg Reg.SYS_MODE_RESULT = x.reg Reg.SYS_MODE_RESULT := by
    rw [reg_raiseIrq_ne _ _ (by decide), reg_countCode_ne _ _ _ (by decide)]
  unfold modeResult
  refine ⟨(fld_of_reg (hLast _)).trans ?_, (flag_of_reg (hLast _)).trans ?_, (fld_of_reg (hLast _)).trans ?_⟩
  · rw [fld_setFlag_apart _ _ (.inr (.inr (by decide))), fld_setFld_apart _ _ (.inr (.inr (by decide))),
      fld_setFld_same _ _ _ (by decide)]
    exact Nat.mod_eq_of_lt hCode
  · exact flag_setFlag_same _ _ _ (by decide) rfl
  · rw [fld_setFlag_apart _ _ (.inr (.inr (by decide))), fld_setFld_same _ _ _ (by decide)]
    rfl

theorem mode_of_reg (h : t.reg Reg.SYS_MODE = s.reg Reg.SYS_MODE) : t.mode = s.mode := fld_of_reg h

theorem reg_mode_modeResult (s : State) (who : Ident) (tag code : Nat) (done : Bool) :
    (s.modeResult who tag code done).reg Reg.SYS_MODE = s.reg Reg.SYS_MODE :=
  reg_modeResult_ne s who tag code done (by decide) (by decide) (by decide)

theorem mode_setMode (s : State) {m : Nat} (h : m < 8) : (s.setMode m).mode = m := by
  unfold setMode mode
  rw [fld_setFld_apart _ _ (.inr (.inr (by decide))), fld_setFlag_apart _ _ (.inr (.inr (by decide))), countWrap,
    fld_setFld_apart _ _ (.inr (.inr (by decide))), fld_setFld_same _ _ _ (by decide)]
  exact Nat.mod_eq_of_lt h

theorem busy_setMode (s : State) (m : Nat) : (s.setMode m).flag Fld.SYS_MODE_CMD_BUSY = s.flag Fld.SYS_MODE_CMD_BUSY := by
  unfold setMode
  rw [flag_setFld_apart _ _ (.inr (.inr (by decide))), flag_setFlag_apart _ _ (.inr (.inr (by decide))), countWrap,
    flag_setFld_apart _ _ (.inr (.inr (by decide))), flag_setFld_apart _ _ (.inr (.inl (by decide))),
    flag_setFld_apart _ _ (.inr (.inr (by decide)))]

theorem prevMode_setMode (s : State) (m : Nat) : (s.setMode m).fld Fld.SYS_MODE_PREV_MODE = s.mode := by
  unfold setMode
  rw [fld_setFld_apart _ _ (.inr (.inr (by decide))), fld_setFlag_apart _ _ (.inr (.inl (by decide))), countWrap,
    fld_setFld_apart _ _ (.inr (.inr (by decide))), fld_setFld_apart _ _ (.inr (.inl (by decide))),
    fld_setFld_same _ _ _ (by decide)]
  exact Nat.mod_eq_of_lt (fieldGet_lt ..)

theorem transCnt_setMode (s : State) (m : Nat) :
    (s.setMode m).fld Fld.SYS_MODE_TRANS_CNT = (s.fld Fld.SYS_MODE_TRANS_CNT + 1) % 4096 := by
  unfold setMode
  rw [fld_setFld_apart _ _ (.inr (.inl (by decide))), fld_setFlag_apart _ _ (.inr (.inl (by decide))), countWrap,
    fld_setFld_same _ _ _ (by decide), fld_setFld_apart _ _ (.inr (.inl (by decide))),
    fld_setFld_apart _ _ (.inr (.inl (by decide)))]
  rfl

/-- The mode, the result and the busy bit a mode command leaves. -/
structure ModeLeft (t : State) (mode tag code : Nat) (done : Bool) : Prop where
  mode : t.mode = mode
  answer : t.ModeAnswer tag code done
  busy : t.flag Fld.SYS_MODE_CMD_BUSY = !done

/-- A result leaves the mode and the busy bit of the state it is written in. -/
theorem modeLeft_result (who : Ident) {m : Nat} (hCode : code < 65536) (hMode : s.mode = m)
    (hBusy : s.flag Fld.SYS_MODE_CMD_BUSY = !done) : (s.modeResult who tag code done).ModeLeft m tag code done :=
  ⟨(mode_of_reg (reg_mode_modeResult ..)).trans hMode, modeResult_answers s who tag done hCode,
    (flag_of_reg (reg_mode_modeResult s who tag code done)).trans hBusy⟩

theorem modeLeft_refuse (who : Ident) {m : Nat} (hMode : s.mode = m)
    (hIdle : s.flag Fld.SYS_MODE_CMD_BUSY = false) : (s.modeRefuse who tag).ModeLeft m tag 5 true :=
  modeLeft_result who (by decide) hMode hIdle

theorem modeLeft_badArg (f : State → State) {arg : Nat} (hArg : arg ≠ 0)
    (hIdle : s.flag Fld.SYS_MODE_CMD_BUSY = false) : (s.argChecked who tag arg f).ModeLeft s.mode tag 3 true := by
  rw [argChecked, if_pos hArg]
  exact modeLeft_result who (by decide) rfl hIdle

theorem modeLeft_begin (c : ModeCmd) : (s.beginMode c).ModeLeft s.mode c.tag 1 false :=
  modeLeft_result c.who (by decide) (fld_setFlag_apart _ _ (.inr (.inr (by decide)))) (flag_setFlag_same _ _ _ (by decide) rfl)

theorem ModeLeft.setAve {m : Nat} (x : Avenue) (h : t.ModeLeft m tag code done) : (t.setAve x).ModeLeft m tag code done :=
  ⟨h.mode, ⟨h.answer.code, h.answer.done, h.answer.tag⟩, h.busy⟩

/-- A change of mode whose work leaves the system registers alone. -/
theorem modeLeft_change (who : Ident) {m : Nat} (hm : m < 8) (hWork : SysKept (s.setMode m) t)
    (hIdle : s.flag Fld.SYS_MODE_CMD_BUSY = false) : (t.modeResult who tag Code.ok true).ModeLeft m tag 0 true :=
  modeLeft_result who (by decide) ((mode_of_reg (hWork.reg _ (by decide))).trans (mode_setMode s hm))
    ((flag_of_reg (hWork.reg _ (by decide))).trans ((busy_setMode s m).trans hIdle))

/-- The end of the command in progress answers it. -/
theorem endMode_answers {c : ModeCmd} (hCmd : s.modeCmd = some c) (hCode : code < 65536) :
    (s.endMode code).fld Fld.SYS_MODE_RESULT_CODE = code ∧ (s.endMode code).flag Fld.SYS_MODE_RESULT_DONE = true ∧
    (s.endMode code).mode = s.mode ∧ (s.endMode code).modeCmd = none := by
  have hKeeps (x : State) : Keeps [.now, .regs, .msixPba, .out] x (x.modeResult c.who c.tag code true) := .modeResult .refl rfl
  unfold endMode
  rw [hCmd]
  dsimp only
  generalize hx : { s with modeCmd := none }.setFlag Fld.SYS_MODE_CMD_BUSY false = x
  have hAnswer := modeResult_answers x c.who c.tag true hCode
  refine ⟨hAnswer.code, hAnswer.done, (mode_of_reg (reg_mode_modeResult ..)).trans ?_, ((hKeeps x).frame .modeCmd rfl).trans ?_⟩
  · rw [← hx]
    exact fld_setFlag_apart { s with modeCmd := none } _ (.inr (.inr (by decide)))
  · rw [← hx]
    rfl

/-- The first mode command of a cycle in which no transition is due finds the state as it was. -/
theorem modeTaken_same (s : State) : s.modeTaken.mode = s.mode ∧
    s.modeTaken.flag Fld.SYS_MODE_CMD_BUSY = s.flag Fld.SYS_MODE_CMD_BUSY ∧ s.modeTaken.anyTxnOpen = s.anyTxnOpen :=
  ⟨rfl, rfl, rfl⟩

theorem forceDue_congr (hs : Mode.commission ≤ s.mode) (ht : Mode.commission ≤ t.mode) (hLost : t.clockLost = s.clockLost)
    (hCycle : t.cycle = s.cycle) (k : Nat) : t.forceDue k = s.forceDue k := by
  rw [forceDue, forceDue, decide_eq_true hs, decide_eq_true ht, hLost, hCycle]

theorem runCode_lt (s : State) : s.runCode < 65536 := by
  unfold runCode firstCode
  split
  · decide
  · unfold firstCode
    split <;> decide

/-- A report that waits in RUN or DEGRADED brings SAFE_HOLD, and no forced LOAD after it. -/
theorem automatic_report (hReport : s.island.report = true) (hMode : s.mode = 3 ∨ s.mode = 4) (hForce : ∀ k, s.forceDue k = false) :
    s.automatic = s.takeReport ∧ s.takeReport = (s.setIsland { s.island with report := false }).setMode Mode.safeHold := by
  have hTakes : s.takeReport = (s.setIsland { s.island with report := false }).setMode Mode.safeHold := if_pos hMode
  have hAfter (k : Nat) : s.takeReport.forceDue k = false := by
    have h2 : Mode.commission ≤ s.takeReport.mode := by
      rw [hTakes, mode_setMode _ (by decide)]
      decide
    have h2' : Mode.commission ≤ s.mode := by
      rcases hMode with h | h <;> rw [h] <;> decide
    have hKeeps : Keeps [.now, .regs, .island] s s.takeReport := .takeReport .refl rfl
    exact (forceDue_congr h2' h2 (hKeeps.frame .clockLost rfl) hKeeps.cycle k).trans (hForce k)
  refine ⟨?_, hTakes⟩
  have hTaken : (s.island.report && (s.mode == Mode.run || s.mode == Mode.degraded)) = true := by
    rcases hMode with h | h <;> rw [hReport, h] <;> rfl
  simp only [automatic, hTaken, if_true, List.foldl_cons, List.foldl_nil, hAfter, Bool.false_eq_true, if_false]

end Sys2Proof.Machine.State

open Sys2Proof Sys2Proof.Machine Sys2Proof.Machine.State

/-- Settles O32: each command is its body on the state the automatic transitions leave, and each body ends in a result
(`modeLeft_result`). -/
theorem modeCommands : Obligations.ModeCommands := by
  intro s who tag arg hAsks hTag result left
  have hRun : s.inReset = false := by
    simp only [asks, Bool.and_eq_true, Bool.not_eq_true'] at hAsks
    exact hAsks.1.1
  have hLive (g : State → State) : s.live g = g s := live_of_running hRun g
  have hLeft {t : State} {m code : Nat} {done : Bool} (h : t.ModeLeft m tag code done) : left t m code done :=
    ⟨h.mode, ⟨h.answer.code, h.answer.done⟩, h.answer.tag.trans (Nat.mod_eq_of_lt hTag), h.busy⟩
  refine ⟨fun hIdle hFirst hNone => ?_, fun hBusy => ?_, fun hIdle hFirst hReport hMode hForce => ?_, fun c hCmd hKind hDone hMode => ?_,
    fun hDue hCode => ?_, fun hDue hCode => ?_, fun hReport hMode => ?_⟩
  · have hRuns (body : State → State) : s.live (fun s => s.modeCommand who body) = body s.modeTaken :=
      modeCommand_runs hAsks hIdle hFirst hNone body
    have hArg (f : State → State) (h : arg ≠ 0) : (s.modeTaken.argChecked who tag arg f).ModeLeft s.mode tag 3 true :=
      modeLeft_badArg f h hIdle
    have hZero (x : State) (f : State → State) : x.argChecked who tag 0 f = f x := if_neg (fun h => h rfl)
    have hRefused {m : Nat} (h : s.mode = m) : (s.modeTaken.modeRefuse who tag).ModeLeft m tag 5 true := modeLeft_refuse who h hIdle
    refine ⟨fun hm _ => ?_, fun hm => ?_, fun h => ⟨?_, ?_, ?_, fun hIsland => ?_⟩, fun hm hTxn => ?_, fun hm hTxn => ?_, fun hTxn => ?_,
      fun hm => ?_, fun hm => ?_, fun hIsland hm hReady => ?_, fun hIsland hm => ?_, fun hIsland => ?_⟩
    · exact ⟨_, congrArg Host.Outcome.next ((hRuns _).trans ((hZero _ _).trans (if_neg (Nat.not_le.mpr hm)))),
        hLeft (modeLeft_change who (by decide) (.enterLoad s.modeTaken) hIdle)⟩
    · exact ⟨_, congrArg Host.Outcome.next ((hRuns _).trans ((hZero _ _).trans (if_pos hm))), hLeft (hRefused rfl)⟩
    · exact ⟨_, congrArg Host.Outcome.next (hRuns _), hLeft (hArg _ h)⟩
    · exact ⟨_, congrArg Host.Outcome.next (hRuns _), hLeft (hArg _ h)⟩
    · exact ⟨_, congrArg Host.Outcome.next (hRuns _), hLeft (hArg _ h)⟩
    · refine ⟨_, congrArg Host.Outcome.next ((hRuns _).trans (if_neg ?_)), hLeft (hArg _ h)⟩
      rw [show s.modeTaken.variant = s.variant from rfl, hIsland]
      exact Bool.false_ne_true
    · refine ⟨_, congrArg Host.Outcome.next ((hRuns _).trans ((hZero _ _).trans ((if_neg ?_).trans (if_pos hm)))),
        hLeft (hm ▸ modeLeft_begin (s := s.modeTaken) { cmd := 2, tag := tag, who := who })⟩
      change ¬(s.mode = _ ∨ s.mode = _ ∨ s.mode = _ ∨ s.anyTxnOpen = true)
      rw [hm, hTxn]
      decide
    · refine ⟨_, congrArg Host.Outcome.next ((hRuns _).trans ((hZero _ _).trans ((if_neg ?_).trans (if_neg ?_)))),
        hLeft (modeLeft_change who (by decide) (.enterCommission s.modeTaken) hIdle)⟩
      · change ¬(s.mode = _ ∨ s.mode = _ ∨ s.mode = _ ∨ s.anyTxnOpen = true)
        rw [hTxn]
        rcases hm with hm | hm <;> rw [hm] <;> decide
      · change ¬s.mode = _
        rcases hm with hm | hm <;> rw [hm] <;> decide
    · exact ⟨_, congrArg Host.Outcome.next ((hRuns _).trans ((hZero _ _).trans (if_pos (.inr (.inr (.inr hTxn)))))), hLeft (hRefused rfl)⟩
    · refine ⟨_, congrArg Host.Outcome.next ((hRuns _).trans ((hZero _ _).trans (if_neg ?_))),
        hLeft (.setAve _ (hm ▸ modeLeft_begin (s := s.modeTaken) { cmd := 3, tag := tag, who := who }))⟩
      exact fun h => h hm
    · exact ⟨_, congrArg Host.Outcome.next ((hRuns _).trans ((hZero _ _).trans (if_pos hm))), hLeft (hRefused rfl)⟩
    · have hMode : (s.modeTaken.setMode s.modeTaken.runMode).mode = if s.flag Fld.SYS_MODE_TWIN_MISSING then 4 else 3 := by
        rw [mode_setMode]
        · rfl
        · unfold runMode
          split <;> decide
      refine ⟨_, congrArg Host.Outcome.next ((hRuns _).trans ((if_neg ?_).trans ((hZero _ _).trans (if_pos ⟨hm, hReady⟩)))),
        hLeft (modeLeft_result who (by decide) hMode ((busy_setMode _ _).trans hIdle))⟩
      rw [show s.modeTaken.variant = s.variant from rfl, hIsland]
      exact Bool.false_ne_true
    · refine ⟨_, congrArg Host.Outcome.next ((hRuns _).trans ((if_neg ?_).trans ((hZero _ _).trans (if_neg fun h => hm h.1)))),
        hLeft (hRefused rfl)⟩
      rw [show s.modeTaken.variant = s.variant from rfl, hIsland]
      exact Bool.false_ne_true
    · refine ⟨_, congrArg Host.Outcome.next ((hRuns _).trans (if_pos ?_)), hLeft (modeLeft_result who (by decide) rfl hIdle)⟩
      rw [show s.modeTaken.variant = s.variant from rfl, hIsland]
      rfl
  · refine ⟨_, congrArg Host.Outcome.next (modeCommand_of_asks hAsks _), ?_⟩
    rw [oneAtATime, if_pos (Bool.or_eq_true_iff.mpr hBusy)]
    exact ⟨mode_of_reg (reg_setFlag_ne _ _ (by decide)), flag_setFlag_same _ _ _ (by decide) rfl⟩
  · obtain ⟨hAutomatic, hTakes⟩ := automatic_report (s := s.modeTaken) hReport hMode hForce
    have hNow : s.modeTaken.automatic.mode = 5 := by
      rw [hAutomatic, hTakes, mode_setMode _ (by decide)]
      rfl
    have hIdleNow : s.modeTaken.automatic.flag Fld.SYS_MODE_CMD_BUSY = false := by
      rw [hAutomatic, hTakes, busy_setMode]
      exact hIdle
    exact ⟨_, congrArg Host.Outcome.next ((modeCommand_first hAsks hIdle hFirst _).trans ((if_neg (fun h => h rfl)).trans
      (if_pos (.inr (.inr (.inl hNow)))))), hLeft (modeLeft_refuse who hNow hIdleNow)⟩
  · have hWork := SysKept.enterCommission s
    have hKeeps : Keeps [.now, .regs, .engines, .ave, .red, .xing, .ports, .cans, .serials, .notices, .out] s s.enterCommission :=
      .enterCommission .refl rfl
    obtain ⟨hAnswer, hEnds, hSame, _⟩ := endMode_answers (s := s.enterCommission) (code := Code.ok)
      ((hKeeps.frame .modeCmd rfl).trans hCmd) (by decide)
    refine ⟨_, congrArg Host.Outcome.next ((hLive _).trans ((if_pos ?_).trans (if_pos hMode))), ⟨hAnswer, hEnds⟩, ?_⟩
    · rw [hCmd, hDone, Option.any_some, hKind]
      rfl
    · rw [hSame, mode_of_reg (hWork.reg _ (by decide)), mode_setMode _ (by decide)]
      rfl
  · obtain ⟨c, hCmd⟩ : ∃ c, s.modeCmd = some c := by
      cases h : s.modeCmd with
      | none => simp [runDue, h] at hDue
      | some c => exact ⟨c, rfl⟩
    obtain ⟨hAnswer, hEnds, hSame, hNone⟩ := endMode_answers (code := s.runCode)
      (s := s.setAve { s.ave with runAsked := none, runNext := s.runCode == Code.ok }) hCmd s.runCode_lt
    exact ⟨_, congrArg Host.Outcome.next ((hLive _).trans ((if_pos hDue).trans (if_neg hCode))), ⟨hAnswer, hEnds⟩, hSame, hNone⟩
  · refine ⟨_, congrArg Host.Outcome.next ((hLive _).trans ((if_pos hDue).trans (if_pos hCode))), ?_, rfl, rfl⟩
    exact beq_iff_eq.mpr hCode
  · refine ⟨_, congrArg Host.Outcome.next ((hLive _).trans ((if_pos hReport).trans (if_pos hMode))), mode_setMode _ (by decide), ?_, ?_⟩
    · exact prevMode_setMode ..
    · exact transCnt_setMode ..

end

section
/-!
SUPPORT. Reading a field after a write of another, with the side condition a computation: `simp (disch := rfl)` takes a
read through a chain of writes.
-/

namespace Sys2Proof.Machine

/-- Two fields share no bit, by computation: the bits first, then the registers. -/
def Fld.off (f g : Fld) : Bool := decide (f.lo + f.width ≤ g.lo) || (decide (g.lo + g.width ≤ f.lo) || (f.reg != g.reg))

/-- A field lies within its word, by computation. -/
def Fld.fits (f : Fld) : Bool := decide (f.lo + f.width ≤ 32)

theorem Fld.apart_of_off {f g : Fld} (h : f.off g = true) : f.apart g := by
  simp only [Fld.off, Bool.or_eq_true, decide_eq_true_eq, bne_iff_ne] at h
  rcases h with h | h | h
  · exact .inr (.inl h)
  · exact .inr (.inr h)
  · exact .inl h

theorem Fld.le_of_fits {f : Fld} (h : f.fits = true) : f.lo + f.width ≤ 32 := of_decide_eq_true h

namespace State

variable {f g : Fld}

theorem fld_setFld_off (s : State) (v : Nat) (h : f.off g = true) : (s.setFld f v).fld g = s.fld g :=
  fld_setFld_apart s v (Fld.apart_of_off h)

theorem flag_setFld_off (s : State) (v : Nat) (h : f.off g = true) : (s.setFld f v).flag g = s.flag g :=
  flag_setFld_apart s v (Fld.apart_of_off h)

theorem fld_setFlag_off (s : State) (b : Bool) (h : f.off g = true) : (s.setFlag f b).fld g = s.fld g :=
  fld_setFlag_apart s b (Fld.apart_of_off h)

theorem flag_setFlag_off (s : State) (b : Bool) (h : f.off g = true) : (s.setFlag f b).flag g = s.flag g :=
  flag_setFlag_apart s b (Fld.apart_of_off h)

theorem fld_count_off (s : State) (k : Nat) (h : f.off g = true) : (s.count f k).fld g = s.fld g :=
  fld_setFld_apart (s.stampRaise f k) _ (Fld.apart_of_off h)

theorem flag_count_off (s : State) (k : Nat) (h : f.off g = true) : (s.count f k).flag g = s.flag g :=
  flag_count_apart s k (Fld.apart_of_off h)

theorem fld_setFld_on (s : State) (v : Nat) (h : f.fits = true) : (s.setFld f v).fld f = v % 2 ^ f.width :=
  fld_setFld_same s f v (Fld.le_of_fits h)

theorem flag_setFld_on (s : State) (v : Nat) (h : f.fits = true) : (s.setFld f v).flag f = (v % 2 ^ f.width != 0) := by
  rw [flag, fld_setFld_on s v h]

theorem flag_setFlag_on (s : State) (b : Bool) (h : f.fits = true) (hw : (f.width == 1) = true) : (s.setFlag f b).flag f = b :=
  flag_setFlag_same s f b (Fld.le_of_fits h) (beq_iff_eq.mp hw)

theorem fld_setFlag_on (s : State) (b : Bool) (h : f.fits = true) (hw : (f.width == 1) = true) : (s.setFlag f b).fld f = bit b := by
  rw [setFlag, fld_stampSet, fld_setFld_on s _ h, beq_iff_eq.mp hw]
  cases b <;> rfl

theorem fld_count_on (s : State) (k : Nat) (h : f.fits = true) : (s.count f k).fld f = min (2 ^ f.width - 1) (s.fld f + k) :=
  fld_count_same s f k (Fld.le_of_fits h)

theorem fld_setReg_off (s : State) {a : Nat} (v : Word) (h : (f.reg == a) = false) : (s.setReg a v).fld f = s.fld f :=
  fld_setReg_ne s v (beq_eq_false_iff_ne.mp h)

theorem flag_setReg_off (s : State) {a : Nat} (v : Word) (h : (f.reg == a) = false) : (s.setReg a v).flag f = s.flag f :=
  flag_of_reg (reg_setReg_ne s v (beq_eq_false_iff_ne.mp h))

theorem fld_setReg_on (s : State) (v : Word) : (s.setReg f.reg v).fld f = fieldGet v f.lo f.width := by
  rw [fld, reg_setReg_same]

theorem reg_setReg_off (s : State) {a b : Nat} (v : Word) (h : (b == a) = false) : (s.setReg a v).reg b = s.reg b :=
  reg_setReg_ne s v (beq_eq_false_iff_ne.mp h)

theorem reg_setFld_off (s : State) {a : Nat} (v : Nat) (h : (a == f.reg) = false) : (s.setFld f v).reg a = s.reg a :=
  reg_setFld_ne s v (beq_eq_false_iff_ne.mp h)

theorem reg_setFlag_off (s : State) {a : Nat} (b : Bool) (h : (a == f.reg) = false) : (s.setFlag f b).reg a = s.reg a :=
  reg_setFlag_ne s b (beq_eq_false_iff_ne.mp h)

theorem reg_count_off (s : State) {a : Nat} (k : Nat) (h : (a == f.reg) = false) : (s.count f k).reg a = s.reg a :=
  reg_count_ne s k (beq_eq_false_iff_ne.mp h)

/-! Interrupts, refusals and event lines leave the fields of the other units. -/

theorem fld_raiseIrq_off (s : State) (src : Nat) (h : (f.reg == irqReg src) = false) : (s.raiseIrq src).fld f = s.fld f :=
  fld_of_reg (reg_raiseIrq_ne s src (beq_eq_false_iff_ne.mp h))

theorem flag_raiseIrq_off (s : State) (src : Nat) (h : (f.reg == irqReg src) = false) : (s.raiseIrq src).flag f = s.flag f :=
  flag_of_reg (reg_raiseIrq_ne s src (beq_eq_false_iff_ne.mp h))

theorem reg_raiseIrq_off (s : State) {a : Nat} (src : Nat) (h : (a == irqReg src) = false) : (s.raiseIrq src).reg a = s.reg a :=
  reg_raiseIrq_ne s src (beq_eq_false_iff_ne.mp h)

theorem fld_countCode_off (s : State) (who : Ident) (c : Nat) (h : (f.reg == Reg.SYS_WRONG_STATE_CNT) = false) :
    (s.countCode who c).fld f = s.fld f :=
  fld_of_reg (reg_countCode_ne s who c (beq_eq_false_iff_ne.mp h))

theorem flag_countCode_off (s : State) (who : Ident) (c : Nat) (h : (f.reg == Reg.SYS_WRONG_STATE_CNT) = false) :
    (s.countCode who c).flag f = s.flag f :=
  flag_of_reg (reg_countCode_ne s who c (beq_eq_false_iff_ne.mp h))

theorem reg_countCode_off (s : State) {a : Nat} (who : Ident) (c : Nat) (h : (a == Reg.SYS_WRONG_STATE_CNT) = false) :
    (s.countCode who c).reg a = s.reg a :=
  reg_countCode_ne s who c (beq_eq_false_iff_ne.mp h)

/-! ### One command at a time -/

/-- A command of register `a` has been taken in this cycle. -/
def taken (s : State) (a : Nat) : State := { s with now := { s.now with commands := a :: s.now.commands } }

theorem oneAtATime_first {s : State} {a : Nat} {busy : Bool} {lost : Fld} (hIdle : busy = false) (hFirst : s.took a = false)
    (f : State → State) : s.oneAtATime a busy lost f = f (s.taken a) := by
  rw [oneAtATime, hIdle, hFirst]
  rfl

theorem oneAtATime_lost {s : State} {a : Nat} {busy : Bool} {lost : Fld} (h : busy = true ∨ s.took a = true)
    (f : State → State) : s.oneAtATime a busy lost f = s.setFlag lost true := by
  rw [oneAtATime, Bool.or_eq_true_iff.mpr h, if_pos rfl]

theorem reg_taken (s : State) (a b : Nat) : (s.taken a).reg b = s.reg b := rfl
theorem fld_taken (s : State) (a : Nat) (f : Fld) : (s.taken a).fld f = s.fld f := rfl
theorem flag_taken (s : State) (a : Nat) (f : Fld) : (s.taken a).flag f = s.flag f := rfl

end State
end Sys2Proof.Machine
end

section
/-!
PROOF. O33: boot attempts, the host's push, the supervisor's start, and the package commands.
-/

namespace Sys2Proof.Machine.State

variable {s t : State} {who : Ident} {tag code : Nat} {done : Bool}

/-- Who may command the device reaches a system register. -/
theorem hostWrite_of_asks (h : s.asks who = true) (a : Nat) (f : State → State) :
    s.live (fun s => s.hostWrite who a f) = f s := by
  simp only [asks, Bool.and_eq_true, Bool.not_eq_true', Bool.or_eq_true] at h
  obtain ⟨⟨hRun, hReach⟩, hWho⟩ := h
  have hEngine : Ident.isEngine who = false := by
    simp only [Ident.isHost, Ident.isSup, Ident.isEngine, decide_eq_true_eq, beq_iff_eq, decide_eq_false_iff_not] at hWho ⊢
    omega
  rw [live_of_running hRun, hostWrite, hEngine, if_neg Bool.false_ne_true, if_pos (hWho.imp_right .inl),
    overHclk_of_reaches hReach]

/-- An image's check rests on the key slots and floors alone. -/
theorem bootCheck_congr (hOtp : t.reg Reg.NV_OTP_STAT = s.reg Reg.NV_OTP_STAT) (hHash : t.keyHash = s.keyHash) (b : List Byte) :
    t.bootCheck b = s.bootCheck b := by
  have hFloor (k : Nat) : t.fld (floorFld k) = s.fld (floorFld k) := by
    unfold floorFld
    split <;> exact fld_of_reg hOtp
  have hKey : t.keyOk b = s.keyOk b := by
    simp only [keyOk, slotUsable, slotValid, slotRevoked, slotDamaged, slotHash, hOtp, hHash]
  rw [bootCheck, bootCheck, authenticate, authenticate, hKey, hFloor]

/-! ### The boot's outcome -/

/-- What an attempt from source `src` with result `r` leaves in SYS_BOOT_STAT, after `n` attempts, at stage `stage`. -/
structure Booted (t : State) (src : Nat) (r : Nat × Nat) (n stage : Nat) : Prop where
  source : t.fld Fld.SYS_BOOT_STAT_SOURCE = src
  result : t.fld Fld.SYS_BOOT_STAT_RESULT = r.1 % 65536
  reason : t.fld Fld.SYS_BOOT_STAT_REASON = r.2 % 16
  attempts : t.fld Fld.SYS_BOOT_STAT_ATTEMPTS = n
  stage : t.fld Fld.SYS_BOOT_STAT_STAGE = stage

theorem bootOutcome_booted (s : State) {src : Nat} (r : Nat × Nat) (hSrc : src < 4) :
    (s.bootOutcome src r.1 r.2).Booted src r (s.fld Fld.SYS_BOOT_STAT_ATTEMPTS)
      (if r.1 = 0 then 3 else s.fld Fld.SYS_BOOT_STAT_STAGE) := by
  have hSource : src % 2 ^ 2 = src := Nat.mod_eq_of_lt hSrc
  unfold bootOutcome
  by_cases hOk : r.1 = 0
  · rw [if_pos hOk]
    dsimp only
    rw [if_pos (show r.1 = Code.ok from hOk)]
    constructor <;> simp (disch := exact of_decide_eq_true rfl) only [fld_setFld_off, fld_setFld_on]
    case source => exact hSource
    all_goals rfl
  · rw [if_neg hOk]
    dsimp only
    rw [if_neg (show ¬r.1 = Code.ok from hOk)]
    constructor <;> simp (disch := exact of_decide_eq_true rfl) only [fld_setFld_off, fld_setFld_on]
    case source => exact hSource
    all_goals rfl

theorem attempts_attempt (s : State) :
    s.attempt.fld Fld.SYS_BOOT_STAT_ATTEMPTS = min 15 (s.fld Fld.SYS_BOOT_STAT_ATTEMPTS + 1) :=
  fld_count_on s 1 rfl

/-! ### Package commands -/

/-- What a package command's result shows. -/
structure PkgDone (t : State) (code tag : Nat) (done : Bool) : Prop where
  result : t.fld Fld.SYS_PKG_RES_RESULT = code % 65536
  tag : t.fld Fld.SYS_PKG_RES_TAG = tag % 256
  done : t.flag Fld.SYS_PKG_RES_DONE = done

theorem pkgResult_done (s : State) (code tag : Nat) (done : Bool) : (s.pkgResult code tag done).PkgDone code tag done := by
  unfold pkgResult
  constructor <;> simp (disch := exact of_decide_eq_true rfl) only [fld_raiseIrq_off, flag_raiseIrq_off, fld_setFlag_off,
    flag_setFlag_on, fld_setFld_off, fld_setFld_on]
  all_goals rfl

theorem pkgEnd_done (s : State) (who : Ident) (code tag : Nat) : (s.pkgEnd who code tag).PkgDone code tag true := by
  obtain ⟨hResult, hTag, hDone⟩ := pkgResult_done s code tag true
  unfold pkgEnd
  constructor <;> simp (disch := exact of_decide_eq_true rfl) only [fld_countCode_off, flag_countCode_off, hResult, hTag, hDone]

/-- A package command of who may command the device runs, or is lost. -/
theorem pkgCommand_of_asks (h : s.asks who = true) (f : State → State) : s.live (fun s => s.pkgCommand who f) =
    s.oneAtATime Reg.SYS_PKG_CMD (!s.flag Fld.SYS_PKG_RES_DONE) Fld.SYS_PKG_RES_LOST f := by
  unfold pkgCommand
  exact hostWrite_of_asks h _ _

theorem engines_pkgEnd (s : State) (who : Ident) (code tag : Nat) : (s.pkgEnd who code tag).engines = s.engines := by
  have hKeeps : Keeps [.now, .regs, .msixPba, .out] s (s.pkgEnd who code tag) := .pkgEnd .refl rfl
  exact hKeeps.frame .engines rfl

theorem engines_pkgResult (s : State) (code tag : Nat) (done : Bool) : (s.pkgResult code tag done).engines = s.engines := by
  have hKeeps : Keeps [.now, .regs, .msixPba, .out] s (s.pkgResult code tag done) := .pkgResult .refl rfl
  exact hKeeps.frame .engines rfl

/-- The memories of an engine after the load of an engine. -/
theorem eng_loadEngine (s : State) (e x : Nat) (i d : List Byte) : (s.loadEngine e i d).eng x =
    if x = e then { s.eng e with instr := Mem.writeBytes [] 0 i, data := Mem.writeBytes [] 0 d } else s.eng x := by
  unfold loadEngine
  split
  · next h => rw [h, eng_setEng_same]
  · next h => rw [eng_setEng_ne _ _ h]

theorem reg_loadEngine (s : State) (e a : Nat) (i d : List Byte) : (s.loadEngine e i d).reg a = s.reg a := rfl

/-- Every engine loaded with nothing has empty memories. -/
theorem loadEngines_empty (s : State) (n x : Nat) (hx : x < n) :
    (((List.range n).foldl (fun (s : State) e => s.loadEngine e [] []) s).eng x).instr = [] ∧
    (((List.range n).foldl (fun (s : State) e => s.loadEngine e [] []) s).eng x).data = [] := by
  induction n with
  | zero => exact absurd hx (Nat.not_lt_zero x)
  | succ n ih =>
    rw [List.range_succ, List.foldl_append, List.foldl_cons, List.foldl_nil, eng_loadEngine]
    split
    · exact ⟨rfl, rfl⟩
    · next h => exact ih (by omega)

/-- Every district's SRAM cleared. -/
theorem clearDistricts_empty (s : State) (n d : Nat) (hd : d < n) :
    (((List.range n).foldl (fun (s : State) d => s.setDist d { s.dist d with sram := [], bad := [], soft := [] }) s).dist d).sram =
      [] := by
  induction n with
  | zero => exact absurd hd (Nat.not_lt_zero d)
  | succ n ih =>
    rw [List.range_succ, List.foldl_append, List.foldl_cons, List.foldl_nil]
    by_cases h : d = n
    · rw [h, dist_setDist_same]
    · rw [dist_setDist_ne _ _ h]
      exact ih (by omega)

theorem eng_clearDistricts (s : State) (l : List Nat) (x : Nat) :
    (l.foldl (fun (s : State) d => s.setDist d { s.dist d with sram := [], bad := [], soft := [] }) s).eng x = s.eng x := by
  have hSet (t : State) (d : Nat) (y : District) : (t.setDist d y).eng x = t.eng x := rfl
  exact foldl_keeps (fun t : State => t.eng x) (fun t d _ => hSet t d _) s

/-- SRAM of every district cleared, then of every engine. -/
def sramCleared (s : State) : State :=
  (List.range 8).foldl (fun (s : State) d => s.setDist d { s.dist d with sram := [], bad := [], soft := [] })
    ((List.range 96).foldl (fun (s : State) e => s.loadEngine e [] []) s)

/-- The supervisor's start reaches LOAD with cleared memories (R43). -/
theorem startSupervisor_spec (hRun : s.inReset = false) (hMode : s.mode = 0) (hStage : s.fld Fld.SYS_BOOT_STAT_STAGE = 3) :
    s.startSupervisor.mode = 1 ∧ (∀ x, x < 96 → (s.startSupervisor.eng x).instr = [] ∧ (s.startSupervisor.eng x).data = []) ∧
    ∀ d, d < 8 → (s.startSupervisor.dist d).sram = [] := by
  have hStarts : s.mode = Mode.boot ∧ s.fld Fld.SYS_BOOT_STAT_STAGE = 3 ∧ (!s.inReset) = true := ⟨hMode, hStage, by rw [hRun]; rfl⟩
  have hStart : s.startSupervisor = s.sramCleared.setMode Mode.load := by
    unfold startSupervisor
    split
    · unfold sramCleared
      dsimp only
    · next h => exact absurd hStarts h
  have hKeeps (t : State) : Keeps [.now, .regs] t (t.setMode Mode.load) := .setMode .refl rfl
  have hEng (t : State) (x : Nat) : (t.setMode Mode.load).eng x = t.eng x := by
    rw [eng, eng, (hKeeps t).frame .engines rfl]
  have hDist (t : State) (d : Nat) : (t.setMode Mode.load).dist d = t.dist d := by
    rw [dist, dist, (hKeeps t).frame .districts rfl]
  rw [hStart]
  refine ⟨mode_setMode _ (by decide), fun x hx => ?_, fun d hd => ?_⟩
  · rw [hEng, sramCleared, eng_clearDistricts]
    exact loadEngines_empty s 96 x hx
  · rw [hDist, sramCleared]
    exact clearDistricts_empty _ 8 d hd

/-- The first attempt of BOOT_SEL 3 is one from MRAM. -/
theorem bootAttempt_mram (flash : List Byte) (hRun : s.inReset = false) (hMode : s.mode = 0) (hStage : s.fld Fld.SYS_BOOT_STAT_STAGE = 0)
    (hSel : s.bootSel = 3) (hNone : s.fld Fld.SYS_BOOT_STAT_ATTEMPTS = 0) : s.bootAttempt flash false =
    ((s.setFld Fld.SYS_BOOT_STAT_BOOT_SEL 3).attempt.setFld Fld.SYS_BOOT_STAT_STAGE 1).bootOutcome 0
      (s.bootCheck (State.imageAt s.mram)).1 (s.bootCheck (State.imageAt s.mram)).2 := by
  have hOrder : bootOrder ((s.setFld Fld.SYS_BOOT_STAT_BOOT_SEL 3).fld Fld.SYS_BOOT_STAT_BOOT_SEL) = [0, 1] := by
    rw [fld_setFld_on _ _ rfl]
    rfl
  have hCheck (t : State) (ht : t.reg Reg.NV_OTP_STAT = s.reg Reg.NV_OTP_STAT) (hHash : t.keyHash = s.keyHash) (hm : t.mram = s.mram) :
      t.bootCheck (State.imageAt t.mram) = s.bootCheck (State.imageAt s.mram) := by
    rw [bootCheck_congr ht hHash, hm]
  unfold bootAttempt
  dsimp only
  rw [if_neg (by rw [hMode, hRun, hStage]; decide), if_pos hStage, hSel, hOrder, fld_setFld_off _ _ rfl, hNone]
  dsimp only [List.getElem?_cons_zero]
  rw [if_neg Bool.false_ne_true, if_pos rfl, hCheck, if_pos (.inr (by decide))]
  · unfold attempt
    simp (disch := exact of_decide_eq_true rfl) only [reg_setFld_off, reg_count_off]
  · rfl
  · rfl

/-- The job of a LOAD from the boot window (R330). -/
def loadJob (s : State) (e role tag : Nat) : PkgJob :=
  let b := State.imageAt s.bootMem
  { pkgId := if imgType b = 2 then 0xFFFF else imgAt b 0x100 2, role := role, first := e, tag := tag,
    images := (List.range (State.instEngines b role)).map (State.engineImages b role) }

/-- The code of an UNLOAD (R332). -/
def unloadCode (s : State) (e : Nat) : Nat :=
  firstCode [(s.absentEngine e, Code.absent),
    (!(s.reg (Reg.SYS_PKG_ENG e) != 0 && s.fld (Fld.SYS_PKG_ENG_FIRST e) == e && decide (e < 96)), Code.badArg),
    (s.mode != Mode.load, Code.wrongState)]

theorem unloadCode_ok {e : Nat} (hMode : s.mode = 1) (hEngine : s.hasEngine e = true) (hReg : s.reg (Reg.SYS_PKG_ENG e) ≠ 0)
    (hFirst : s.fld (Fld.SYS_PKG_ENG_FIRST e) = e) : s.unloadCode e = Code.ok := by
  have hPresent : s.absentEngine e = false := by rw [absentEngine, hEngine, Bool.not_true, Bool.and_false]
  have hLoad : (s.mode != Mode.load) = false := by rw [hMode]; rfl
  unfold unloadCode
  rw [hPresent, hLoad, bne_iff_ne.mpr hReg, beq_iff_eq.mpr hFirst, decide_eq_true (lt_96_of_hasEngine hEngine)]
  rfl

/-- The unload of an instance of one stopped engine. -/
theorem unload_one {e : Nat} (hSame : s.sameLoad e = [e]) (hStop : s.flag (Fld.CE_CTRL_RUN e) = false) :
    (s.sameLoad e).foldl (fun (s : State) k =>
      ((if s.flag (Fld.CE_CTRL_RUN k) then s.holdEngine k else s).loadEngine k [] []).setReg (Reg.SYS_PKG_ENG k) 0) s =
    (s.loadEngine e [] []).setReg (Reg.SYS_PKG_ENG e) 0 := by
  rw [hSame, List.foldl_cons, List.foldl_nil, hStop, if_neg Bool.false_ne_true]

/-- The state with a package job. -/
def pkgOpened (s : State) (j : PkgJob) : State := { s with pkg := some j }

/-- The state with no package job. -/
def pkgClosed (s : State) : State := { s with pkg := none }

theorem finishPkgLoad_eq (s : State) (j : PkgJob) : s.finishPkgLoad j = (((List.range j.images.length).foldl
    (fun (s : State) i => s.runEngine (j.first + i)) (j.images.zipIdx.foldl (fun (s : State) p =>
      (s.loadEngine (j.first + p.2) p.1.1 p.1.2).setReg (Reg.SYS_PKG_ENG (j.first + p.2))
        (BitVec.ofNat 32 (j.pkgId + 2 ^ 16 * j.role + 2 ^ 20 * p.2 + 2 ^ 24 * j.first)))
      ((List.range j.images.length).foldl (fun (s : State) i =>
        if s.flag (Fld.CE_CTRL_RUN (j.first + i)) then s.holdEngine (j.first + i) else s) s))).pkgClosed).pkgResult Code.ok j.tag true := rfl

/-- One engine's image loaded: the engine holds it, runs, and the job is over (R331). -/
theorem finishPkgLoad_one {j : PkgJob} {instr data : List Byte} (hImages : j.images = [(instr, data)])
    (hStop : s.flag (Fld.CE_CTRL_RUN j.first) = false) : s.finishPkgLoad j =
    ((((s.loadEngine j.first instr data).setReg (Reg.SYS_PKG_ENG j.first)
      (BitVec.ofNat 32 (j.pkgId + 2 ^ 16 * j.role + 2 ^ 20 * 0 + 2 ^ 24 * j.first))).runEngine j.first).pkgClosed).pkgResult
      Code.ok j.tag true := by
  have hHold : (List.range 1).foldl (fun (s : State) i =>
      if s.flag (Fld.CE_CTRL_RUN (j.first + i)) then s.holdEngine (j.first + i) else s) s = s := by
    rw [show List.range 1 = [0] from rfl, List.foldl_cons, List.foldl_nil, Nat.add_zero, hStop, if_neg Bool.false_ne_true]
  rw [finishPkgLoad_eq, hImages, List.length_singleton, hHold]
  rfl

/-- What runs after the load of one engine: its image, its state and its PC. -/
theorem runEngine_loaded (s : State) (e a : Nat) (v : Word) (instr data : List Byte) :
    let t := ((s.loadEngine e instr data).setReg a v).runEngine e
    t.engState e = 1 ∧ (t.eng e).pc = 0 ∧ (t.eng e).instr = Mem.writeBytes [] 0 instr ∧ (t.eng e).data = Mem.writeBytes [] 0 data := by
  intro t
  have hEng : t.eng e = { ((((s.loadEngine e instr data).setReg a v).setFlag (Fld.CE_CTRL_RUN e) true).eng e) with
      g := [], pc := 0, evtPend := 0, evtMask := 0xFFFFFFFF, leaseId := 0, arrival := [], stack := []
      returned := none, refused := [], watchPending := false, leasePending := false, leaseWait := none
      loadWait := none, wdExpired := false, midRep := false } := eng_startEngine _ e
  have hLoaded : (((s.loadEngine e instr data).setReg a v).setFlag (Fld.CE_CTRL_RUN e) true).eng e =
      { s.eng e with instr := Mem.writeBytes [] 0 instr, data := Mem.writeBytes [] 0 data } :=
    (eng_loadEngine s e e instr data).trans (if_pos rfl)
  rw [hEng, hLoaded]
  exact ⟨(state_startEngine _ e).1, rfl, rfl, rfl⟩

theorem eng_pkgClosed (s : State) (e : Nat) : s.pkgClosed.eng e = s.eng e := rfl

theorem modeCmd_pkgClosed (s : State) : s.pkgClosed.modeCmd = s.modeCmd := rfl

theorem fld_pkgClosed (s : State) (f : Fld) : s.pkgClosed.fld f = s.fld f := rfl

theorem eng_pkgResult_closed (s : State) (code tag e : Nat) (done : Bool) :
    (s.pkgClosed.pkgResult code tag done).eng e = s.eng e := by
  rw [← eng_pkgClosed s, eng, engines_pkgResult, eng]

theorem afterPkg_none (h : s.modeCmd = none) : s.afterPkg = s := by
  unfold afterPkg
  rw [h]

theorem modeCmd_pkgResult (s : State) (code tag : Nat) (done : Bool) : (s.pkgResult code tag done).modeCmd = s.modeCmd := by
  have hKeeps : Keeps [.now, .regs, .msixPba, .out] s (s.pkgResult code tag done) := .pkgResult .refl rfl
  exact hKeeps.frame .modeCmd rfl

theorem pkg_pkgResult (s : State) (code tag : Nat) (done : Bool) : (s.pkgResult code tag done).pkg = s.pkg := by
  have hKeeps : Keeps [.now, .regs, .msixPba, .out] s (s.pkgResult code tag done) := .pkgResult .refl rfl
  exact hKeeps.frame .pkg rfl

theorem reg_pkgResult_ne {a : Nat} (s : State) (code tag : Nat) (done : Bool) (hRes : a ≠ Reg.SYS_PKG_RES) (hIrq : a ≠ irqReg 1) :
    (s.pkgResult code tag done).reg a = s.reg a := by
  unfold pkgResult
  rw [reg_raiseIrq_ne _ _ hIrq, reg_setFlag_ne _ _ hRes, reg_setFld_ne _ _ hRes, reg_setFld_ne _ _ hRes]

/-- Without a source to try, the boot stage waits for a push. -/
theorem bootAttempt_push (flash : List Byte) (hRun : s.inReset = false) (hMode : s.mode = 0) (hStage : s.fld Fld.SYS_BOOT_STAT_STAGE = 0)
    (hSel : s.bootSel = 2) : s.bootAttempt flash false = (s.setFld Fld.SYS_BOOT_STAT_BOOT_SEL 2).waitPush := by
  have hOrder : bootOrder ((s.setFld Fld.SYS_BOOT_STAT_BOOT_SEL 2).fld Fld.SYS_BOOT_STAT_BOOT_SEL) = [] := by
    rw [fld_setFld_on _ _ rfl]
    rfl
  unfold bootAttempt
  dsimp only
  rw [if_neg (by rw [hMode, hRun, hStage]; decide), if_pos hStage, hSel, hOrder, List.getElem?_nil]

theorem fld_pkgResult_high {f : Fld} (s : State) (code tag : Nat) (done : Bool) (h : 0x1000000 ≤ f.reg) :
    (s.pkgResult code tag done).fld f = s.fld f := by
  refine fld_of_reg (reg_pkgResult_ne s code tag done ?_ ?_)
  · unfold Reg.SYS_PKG_RES
    omega
  · have hEq : irqReg 1 = 0x100040 := rfl
    omega

/-- The load of one engine's image ends with the engine running it. -/
theorem pkgLoad_finishes {j : PkgJob} {instr data : List Byte} (hImages : j.images = [(instr, data)])
    (hStop : s.flag (Fld.CE_CTRL_RUN j.first) = false) (hCmd : s.modeCmd = none) : ∃ t, (s.finishPkgLoad j).afterPkg = t ∧
    t.PkgDone Code.ok j.tag true ∧ t.pkg = none ∧ t.engState j.first = 1 ∧ t.pc j.first = 0 ∧
    (t.eng j.first).instr = Mem.writeBytes [] 0 instr ∧ (t.eng j.first).data = Mem.writeBytes [] 0 data := by
  rw [finishPkgLoad_one hImages hStop]
  generalize BitVec.ofNat 32 (j.pkgId + 2 ^ 16 * j.role + 2 ^ 20 * 0 + 2 ^ 24 * j.first) = v
  obtain ⟨hRuns, hPc, hInstr, hData⟩ := runEngine_loaded s j.first (Reg.SYS_PKG_ENG j.first) v instr data
  have hKeeps : Keeps [.now, .regs, .engines, .gregs, .sram] s
      (((s.loadEngine j.first instr data).setReg (Reg.SYS_PKG_ENG j.first) v).runEngine j.first) :=
    .runEngine (.setReg (.loadEngine .refl rfl) rfl) rfl
  have hCmdx := (hKeeps.frame .modeCmd rfl).trans hCmd
  generalize ((s.loadEngine j.first instr data).setReg (Reg.SYS_PKG_ENG j.first) v).runEngine j.first = x at hRuns hPc hInstr hData hCmdx
  have hEng (e : Nat) : (x.pkgClosed.pkgResult Code.ok j.tag true).eng e = x.eng e := eng_pkgResult_closed ..
  have hHigh : 0x1000000 ≤ (Fld.CE_STAT_STATE j.first).reg :=
    Nat.le_add_right_of_le (Nat.le_add_right_of_le (Nat.le_add_right_of_le (by decide)))
  have hNone : (x.pkgClosed.pkgResult Code.ok j.tag true).modeCmd = none := by
    rw [modeCmd_pkgResult, modeCmd_pkgClosed, hCmdx]
  refine ⟨_, afterPkg_none hNone, pkgResult_done .., pkg_pkgResult .., ?_, ?_, ?_, ?_⟩
  · rw [engState, fld_pkgResult_high _ _ _ _ hHigh, fld_pkgClosed]
    exact hRuns
  · rw [pc, hEng]
    exact hPc
  · rw [hEng, hInstr]
  · rw [hEng, hData]

end Sys2Proof.Machine.State

open Sys2Proof Sys2Proof.Machine Sys2Proof.Machine.State

/-- Settles O33: an attempt is its outcome on the state with the attempt counted, a package command its body. -/
theorem bootAndPackages : Obligations.BootAndPackages := by
  intro s who flash e role tag hRun hTag booted done
  have hLive (g : State → State) : s.live g = g s := live_of_running hRun g
  have hOut : ¬s.inReset = true := by rw [hRun]; exact Bool.false_ne_true
  have hDone {t : State} {code : Nat} {d : Bool} (h : t.PkgDone code tag d) : done t (code % 65536) d :=
    ⟨h.result, h.tag.trans (Nat.mod_eq_of_lt hTag), h.done⟩
  refine ⟨fun hMode hStage hSel hNone => ?_, fun hMode hStage hSel => ?_, fun hAsks hStage => ?_, fun hMode hStage => ?_,
    fun hAsks hBusy => ?_, fun hAsks hIdle hFirst => ?_, fun j instr data hPkg hImages he heLt hCmd hStop hjTag => ?_,
    fun hAsks hIdle hFirst hMode hEngine hReg hFirstOf hSame hStop => ?_⟩
  · have hCounted : ((s.setFld Fld.SYS_BOOT_STAT_BOOT_SEL 3).attempt.setFld Fld.SYS_BOOT_STAT_STAGE 1).fld Fld.SYS_BOOT_STAT_ATTEMPTS =
        min 15 (s.fld Fld.SYS_BOOT_STAT_ATTEMPTS + 1) := by
      rw [fld_setFld_off _ _ rfl, attempts_attempt, fld_setFld_off _ _ rfl]
    have hLooking : ((s.setFld Fld.SYS_BOOT_STAT_BOOT_SEL 3).attempt.setFld Fld.SYS_BOOT_STAT_STAGE 1).fld Fld.SYS_BOOT_STAT_STAGE = 1 := by
      rw [fld_setFld_on _ _ rfl]
      rfl
    obtain ⟨hSource, hResult, hReason, hAttempts, hAt⟩ := bootOutcome_booted
      ((s.setFld Fld.SYS_BOOT_STAT_BOOT_SEL 3).attempt.setFld Fld.SYS_BOOT_STAT_STAGE 1) (src := 0)
      (s.bootCheck (State.imageAt s.mram)) (by decide)
    refine ⟨_, congrArg Host.Outcome.next ((hLive _).trans (bootAttempt_mram flash hRun hMode hStage hSel hNone)),
      ⟨hSource, hResult, hReason, hAttempts.trans hCounted⟩, ?_⟩
    rw [hAt, hLooking]
  · refine ⟨_, congrArg Host.Outcome.next ((hLive _).trans (bootAttempt_push flash hRun hMode hStage hSel)), ?_, ?_⟩
    · rw [waitPush, fld_setFld_off _ _ rfl, fld_setFld_off _ _ rfl]
    · exact (fld_setFld_on _ _ rfl).trans rfl
  · obtain ⟨hSource, hResult, hReason, hAttempts, hAt⟩ := bootOutcome_booted s.attempt (src := 2)
      (s.bootCheck (State.imageAt s.bootMem)) (by decide)
    have hCheck : s.attempt.bootCheck (State.imageAt s.attempt.bootMem) = s.bootCheck (State.imageAt s.bootMem) := by
      exact bootCheck_congr (reg_count_off _ _ rfl) (count_keyHash ..) _
    have hPush : s.hostPush who = s.attempt.bootOutcome 2 (s.bootCheck (State.imageAt s.bootMem)).1
        (s.bootCheck (State.imageAt s.bootMem)).2 := by
      unfold hostPush
      rw [if_neg (fun h => h hStage)]
      dsimp only
      rw [hCheck]
    refine ⟨_, congrArg Host.Outcome.next ((hostWrite_of_asks hAsks _ _).trans hPush),
      ⟨hSource, hResult, hReason, hAttempts.trans (attempts_attempt s)⟩, ?_⟩
    rw [hAt, show s.attempt.fld Fld.SYS_BOOT_STAT_STAGE = 4 from (fld_count_off _ _ rfl).trans hStage]
  · obtain ⟨hNow, hEngines, hDistricts⟩ := startSupervisor_spec hRun hMode hStage
    exact ⟨_, congrArg Host.Outcome.next (hLive _), hNow, hEngines, hDistricts⟩
  · refine ⟨_, congrArg Host.Outcome.next (pkgCommand_of_asks hAsks _), ?_⟩
    rw [oneAtATime_lost (hBusy.imp_left fun h => by rw [h]; rfl)]
    exact ⟨flag_setFlag_on _ _ rfl rfl, rfl⟩
  · have hRuns (f : State → State) : s.live (fun s => s.pkgCommand who f) = f (s.taken Reg.SYS_PKG_CMD) :=
      (pkgCommand_of_asks hAsks f).trans (oneAtATime_first (by rw [hIdle]; rfl) hFirst f)
    by_cases hCode : s.loadCode (State.imageAt s.bootMem) e role = 0
    · have hAnswer := pkgResult_done ((s.taken Reg.SYS_PKG_CMD).pkgOpened (loadJob s e role tag)) Code.pending tag false
      refine ⟨_, congrArg Host.Outcome.next ((hRuns _).trans (if_neg (fun h => h hCode))), ?_, engines_pkgResult .., fun _ =>
        ⟨_, pkg_pkgResult .., rfl, rfl⟩⟩
      rw [hCode]
      exact hDone hAnswer
    · refine ⟨_, congrArg Host.Outcome.next ((hRuns _).trans (if_pos hCode)), ?_, engines_pkgEnd .., fun h => absurd h hCode⟩
      rw [if_neg hCode, show (s.loadCode (State.imageAt s.bootMem) e role != 0) = true from bne_iff_ne.mpr hCode]
      exact hDone (pkgEnd_done (s.taken Reg.SYS_PKG_CMD) who _ tag)
  · subst he hjTag
    obtain ⟨x, hFinish, hAnswer, hPkgNone, hRuns, hPc, hInstr, hData⟩ := pkgLoad_finishes hImages hStop hCmd
    refine ⟨x, congrArg Host.Outcome.next ((hLive _).trans ?_), hDone hAnswer, hPkgNone, hRuns, hPc, hInstr, hData⟩
    rw [hPkg]
    exact hFinish
  · have hRuns (f : State → State) : s.live (fun s => s.pkgCommand who f) = f (s.taken Reg.SYS_PKG_CMD) :=
      (pkgCommand_of_asks hAsks f).trans (oneAtATime_first (by rw [hIdle]; rfl) hFirst f)
    have he : e < 96 := lt_96_of_hasEngine hEngine
    have hCode := unloadCode_ok hMode hEngine hReg hFirstOf
    have hUnload := unload_one (s := s.taken Reg.SYS_PKG_CMD) hSame hStop
    have hEng : (((s.taken Reg.SYS_PKG_CMD).loadEngine e [] []).setReg (Reg.SYS_PKG_ENG e) 0).eng e =
        { s.eng e with instr := Mem.writeBytes [] 0 [], data := Mem.writeBytes [] 0 [] } :=
      (eng_loadEngine (s.taken Reg.SYS_PKG_CMD) e e [] []).trans (if_pos rfl)
    refine ⟨_, congrArg Host.Outcome.next ((hRuns _).trans ((if_neg (fun h => h hCode)).trans (congrArg (pkgResult · Code.ok tag true) hUnload))),
      hDone (pkgResult_done _ Code.ok tag true), ?_, ?_⟩
    · rw [reg_pkgResult_ne]
      · exact reg_setReg_same ..
      · unfold Reg.SYS_PKG_ENG Reg.SYS_PKG_RES
        omega
      · have hIrq : irqReg 1 = 0x100040 := rfl
        unfold Reg.SYS_PKG_ENG
        omega
    · rw [eng, engines_pkgResult]
      exact ⟨congrArg Engine.instr hEng, congrArg Engine.data hEng⟩

end

section
/-!
SUPPORT. A write of one part of the block read through another part's accessor: registers through the units' updates,
and units through the registers' updates.
-/

namespace Sys2Proof.Machine.State

variable (s : State)

@[simp] theorem reg_setDist (d : Nat) (x : District) (a : Nat) : (s.setDist d x).reg a = s.reg a := rfl
@[simp] theorem fld_setDist (d : Nat) (x : District) (g : Fld) : (s.setDist d x).fld g = s.fld g := rfl
@[simp] theorem flag_setDist (d : Nat) (x : District) (g : Fld) : (s.setDist d x).flag g = s.flag g := rfl
@[simp] theorem reg_setPort (n : Nat) (x : Port) (a : Nat) : (s.setPort n x).reg a = s.reg a := rfl
@[simp] theorem fld_setPort (n : Nat) (x : Port) (g : Fld) : (s.setPort n x).fld g = s.fld g := rfl
@[simp] theorem flag_setPort (n : Nat) (x : Port) (g : Fld) : (s.setPort n x).flag g = s.flag g := rfl
@[simp] theorem reg_setXing (x : Crossing) (a : Nat) : (s.setXing x).reg a = s.reg a := rfl
@[simp] theorem fld_setXing (x : Crossing) (g : Fld) : (s.setXing x).fld g = s.fld g := rfl
@[simp] theorem flag_setXing (x : Crossing) (g : Fld) : (s.setXing x).flag g = s.flag g := rfl
@[simp] theorem reg_setCan (n : Nat) (x : Can) (a : Nat) : (s.setCan n x).reg a = s.reg a := rfl
@[simp] theorem fld_setCan (n : Nat) (x : Can) (g : Fld) : (s.setCan n x).fld g = s.fld g := rfl
@[simp] theorem flag_setCan (n : Nat) (x : Can) (g : Fld) : (s.setCan n x).flag g = s.flag g := rfl
@[simp] theorem reg_setSer (n : Nat) (x : Serial) (a : Nat) : (s.setSer n x).reg a = s.reg a := rfl
@[simp] theorem fld_setSer (n : Nat) (x : Serial) (g : Fld) : (s.setSer n x).fld g = s.fld g := rfl
@[simp] theorem flag_setSer (n : Nat) (x : Serial) (g : Fld) : (s.setSer n x).flag g = s.flag g := rfl
@[simp] theorem reg_setAve (x : Avenue) (a : Nat) : (s.setAve x).reg a = s.reg a := rfl
@[simp] theorem fld_setAve (x : Avenue) (g : Fld) : (s.setAve x).fld g = s.fld g := rfl
@[simp] theorem flag_setAve (x : Avenue) (g : Fld) : (s.setAve x).flag g = s.flag g := rfl
@[simp] theorem reg_setTb (x : TimeBase) (a : Nat) : (s.setTb x).reg a = s.reg a := rfl
@[simp] theorem fld_setTb (x : TimeBase) (g : Fld) : (s.setTb x).fld g = s.fld g := rfl
@[simp] theorem flag_setTb (x : TimeBase) (g : Fld) : (s.setTb x).flag g = s.flag g := rfl
@[simp] theorem reg_setRed (x : Redundancy) (a : Nat) : (s.setRed x).reg a = s.reg a := rfl
@[simp] theorem fld_setRed (x : Redundancy) (g : Fld) : (s.setRed x).fld g = s.fld g := rfl
@[simp] theorem flag_setRed (x : Redundancy) (g : Fld) : (s.setRed x).flag g = s.flag g := rfl
@[simp] theorem reg_setImg (x : Image) (a : Nat) : (s.setImg x).reg a = s.reg a := rfl
@[simp] theorem fld_setImg (x : Image) (g : Fld) : (s.setImg x).fld g = s.fld g := rfl
@[simp] theorem flag_setImg (x : Image) (g : Fld) : (s.setImg x).flag g = s.flag g := rfl
@[simp] theorem reg_setSru (d : Nat) (x : Sru) (a : Nat) : (s.setSru d x).reg a = s.reg a := rfl
@[simp] theorem fld_setSru (d : Nat) (x : Sru) (g : Fld) : (s.setSru d x).fld g = s.fld g := rfl
@[simp] theorem flag_setSru (d : Nat) (x : Sru) (g : Fld) : (s.setSru d x).flag g = s.flag g := rfl
@[simp] theorem reg_setChannel (c : Nat) (x : Channel) (a : Nat) : (s.setChannel c x).reg a = s.reg a := rfl
@[simp] theorem fld_setChannel (c : Nat) (x : Channel) (g : Fld) : (s.setChannel c x).fld g = s.fld g := rfl
@[simp] theorem flag_setChannel (c : Nat) (x : Channel) (g : Fld) : (s.setChannel c x).flag g = s.flag g := rfl
@[simp] theorem reg_setIsland (x : Island) (a : Nat) : (s.setIsland x).reg a = s.reg a := rfl
@[simp] theorem fld_setIsland (x : Island) (g : Fld) : (s.setIsland x).fld g = s.fld g := rfl
@[simp] theorem flag_setIsland (x : Island) (g : Fld) : (s.setIsland x).flag g = s.flag g := rfl
@[simp] theorem reg_setSyncLine (l v : Nat) (a : Nat) : (s.setSyncLine l v).reg a = s.reg a := rfl
@[simp] theorem fld_setSyncLine (l v : Nat) (g : Fld) : (s.setSyncLine l v).fld g = s.fld g := rfl
@[simp] theorem flag_setSyncLine (l v : Nat) (g : Fld) : (s.setSyncLine l v).flag g = s.flag g := rfl
@[simp] theorem reg_setShadow (b : Nat) (v : Word) (a : Nat) : (s.setShadow b v).reg a = s.reg a := rfl
@[simp] theorem fld_setShadow (b : Nat) (v : Word) (g : Fld) : (s.setShadow b v).fld g = s.fld g := rfl
@[simp] theorem flag_setShadow (b : Nat) (v : Word) (g : Fld) : (s.setShadow b v).flag g = s.flag g := rfl
@[simp] theorem reg_addLease (l : Lease) (a : Nat) : (s.addLease l).reg a = s.reg a := rfl
@[simp] theorem fld_addLease (l : Lease) (g : Fld) : (s.addLease l).fld g = s.fld g := rfl
@[simp] theorem flag_addLease (l : Lease) (g : Fld) : (s.addLease l).flag g = s.flag g := rfl
@[simp] theorem reg_dropLease (x d i : Nat) (a : Nat) : (s.dropLease x d i).reg a = s.reg a := rfl
@[simp] theorem fld_dropLease (x d i : Nat) (g : Fld) : (s.dropLease x d i).fld g = s.fld g := rfl
@[simp] theorem flag_dropLease (x d i : Nat) (g : Fld) : (s.dropLease x d i).flag g = s.flag g := rfl
@[simp] theorem reg_stampRaise (f : Fld) (k : Nat) (a : Nat) : (s.stampRaise f k).reg a = s.reg a := rfl
@[simp] theorem fld_stampRaise (f : Fld) (k : Nat) (g : Fld) : (s.stampRaise f k).fld g = s.fld g := rfl
@[simp] theorem flag_stampRaise (f : Fld) (k : Nat) (g : Fld) : (s.stampRaise f k).flag g = s.flag g := rfl
@[simp] theorem reg_draw (a : Nat) : (s.draw).reg a = s.reg a := rfl
@[simp] theorem fld_draw (g : Fld) : (s.draw).fld g = s.fld g := rfl
@[simp] theorem flag_draw (g : Fld) : (s.draw).flag g = s.flag g := rfl

@[simp] theorem eng_setFlag (g : Fld) (b : Bool) (e : Nat) : (s.setFlag g b).eng e = s.eng e := rfl
@[simp] theorem eng_count (g : Fld) (k : Nat) (e : Nat) : (s.count g k).eng e = s.eng e := rfl
@[simp] theorem dist_setReg (a : Nat) (v : Word) (d : Nat) : (s.setReg a v).dist d = s.dist d := rfl
@[simp] theorem dist_setFld (g : Fld) (v : Nat) (d : Nat) : (s.setFld g v).dist d = s.dist d := rfl
@[simp] theorem dist_setFlag (g : Fld) (b : Bool) (d : Nat) : (s.setFlag g b).dist d = s.dist d := rfl
@[simp] theorem dist_count (g : Fld) (k : Nat) (d : Nat) : (s.count g k).dist d = s.dist d := rfl
@[simp] theorem dist_notify (n : Notice) (i : Nat) : (s.notify n).dist i = s.dist i := rfl
@[simp] theorem dist_emit (o : Out) (d : Nat) : (s.emit o).dist d = s.dist d := rfl
@[simp] theorem sru_setFld (g : Fld) (v : Nat) (d : Nat) : (s.setFld g v).sru d = s.sru d := rfl
@[simp] theorem sru_setFlag (g : Fld) (b : Bool) (d : Nat) : (s.setFlag g b).sru d = s.sru d := rfl
@[simp] theorem sru_count (g : Fld) (k : Nat) (d : Nat) : (s.count g k).sru d = s.sru d := rfl
@[simp] theorem sru_notify (n : Notice) (i : Nat) : (s.notify n).sru i = s.sru i := rfl
@[simp] theorem sru_emit (o : Out) (d : Nat) : (s.emit o).sru d = s.sru d := rfl
@[simp] theorem port_setReg (a : Nat) (v : Word) (i : Nat) : (s.setReg a v).port i = s.port i := rfl
@[simp] theorem port_setFld (g : Fld) (v : Nat) (i : Nat) : (s.setFld g v).port i = s.port i := rfl
@[simp] theorem port_setFlag (g : Fld) (b : Bool) (i : Nat) : (s.setFlag g b).port i = s.port i := rfl
@[simp] theorem port_count (g : Fld) (k : Nat) (i : Nat) : (s.count g k).port i = s.port i := rfl
@[simp] theorem port_notify (n : Notice) (i : Nat) : (s.notify n).port i = s.port i := rfl
@[simp] theorem port_emit (o : Out) (i : Nat) : (s.emit o).port i = s.port i := rfl
@[simp] theorem can_setReg (a : Nat) (v : Word) (i : Nat) : (s.setReg a v).can i = s.can i := rfl
@[simp] theorem can_setFld (g : Fld) (v : Nat) (i : Nat) : (s.setFld g v).can i = s.can i := rfl
@[simp] theorem can_setFlag (g : Fld) (b : Bool) (i : Nat) : (s.setFlag g b).can i = s.can i := rfl
@[simp] theorem can_count (g : Fld) (k : Nat) (i : Nat) : (s.count g k).can i = s.can i := rfl
@[simp] theorem can_notify (n : Notice) (i : Nat) : (s.notify n).can i = s.can i := rfl
@[simp] theorem can_emit (o : Out) (i : Nat) : (s.emit o).can i = s.can i := rfl
@[simp] theorem channel_setReg (a : Nat) (v : Word) (c : Nat) : (s.setReg a v).channel c = s.channel c := rfl
@[simp] theorem channel_setFld (g : Fld) (v : Nat) (c : Nat) : (s.setFld g v).channel c = s.channel c := rfl
@[simp] theorem channel_setFlag (g : Fld) (b : Bool) (c : Nat) : (s.setFlag g b).channel c = s.channel c := rfl
@[simp] theorem channel_count (g : Fld) (k : Nat) (c : Nat) : (s.count g k).channel c = s.channel c := rfl
@[simp] theorem channel_notify (n : Notice) (i : Nat) : (s.notify n).channel i = s.channel i := rfl
@[simp] theorem channel_emit (o : Out) (c : Nat) : (s.emit o).channel c = s.channel c := rfl
@[simp] theorem ser_setReg (a : Nat) (v : Word) (i : Nat) : (s.setReg a v).ser i = s.ser i := rfl
@[simp] theorem ser_setFld (g : Fld) (v : Nat) (i : Nat) : (s.setFld g v).ser i = s.ser i := rfl
@[simp] theorem ser_setFlag (g : Fld) (b : Bool) (i : Nat) : (s.setFlag g b).ser i = s.ser i := rfl
@[simp] theorem ser_count (g : Fld) (k : Nat) (i : Nat) : (s.count g k).ser i = s.ser i := rfl
@[simp] theorem ser_notify (n : Notice) (i : Nat) : (s.notify n).ser i = s.ser i := rfl
@[simp] theorem ser_emit (o : Out) (i : Nat) : (s.emit o).ser i = s.ser i := rfl
@[simp] theorem queue_setReg (a : Nat) (v : Word) (q : Nat) : (s.setReg a v).queue q = s.queue q := rfl
@[simp] theorem queue_setFld (g : Fld) (v : Nat) (q : Nat) : (s.setFld g v).queue q = s.queue q := rfl
@[simp] theorem queue_setFlag (g : Fld) (b : Bool) (q : Nat) : (s.setFlag g b).queue q = s.queue q := rfl
@[simp] theorem queue_count (g : Fld) (k : Nat) (q : Nat) : (s.count g k).queue q = s.queue q := rfl
@[simp] theorem queue_notify (n : Notice) (i : Nat) : (s.notify n).queue i = s.queue i := rfl
@[simp] theorem queue_emit (o : Out) (q : Nat) : (s.emit o).queue q = s.queue q := rfl
@[simp] theorem frame_setReg (a : Nat) (v : Word) (f : Nat) : (s.setReg a v).frame f = s.frame f := rfl
@[simp] theorem frame_setFld (g : Fld) (v : Nat) (f : Nat) : (s.setFld g v).frame f = s.frame f := rfl
@[simp] theorem frame_setFlag (g : Fld) (b : Bool) (f : Nat) : (s.setFlag g b).frame f = s.frame f := rfl
@[simp] theorem frame_count (g : Fld) (k : Nat) (f : Nat) : (s.count g k).frame f = s.frame f := rfl
@[simp] theorem frame_notify (n : Notice) (i : Nat) : (s.notify n).frame i = s.frame i := rfl
@[simp] theorem frame_emit (o : Out) (f : Nat) : (s.emit o).frame f = s.frame f := rfl

end Sys2Proof.Machine.State
end

section
/-!
PROOF. O34: starting, stopping and running a Round.
-/

namespace Sys2Proof.Machine.State

variable {s : State} {who : Ident} {d st : Nat}

theorem roundRun_spec (s : State) (d : Nat) : (s.roundRun d).flag (Fld.RND_STAT_RUNNING d) = true ∧
    (s.roundRun d).dist d = { s.dist d with
      due := some (if s.flag (Fld.RND_PERIOD_SYNC d) && s.ave.started then s.phasePoint d (s.cycle + 1) else s.cycle + 16) } := by
  unfold roundRun
  dsimp only
  refine ⟨?_, dist_setDist_same ..⟩
  rw [flag_setDist, flag_setFlag_off _ _ rfl, flag_setFlag_on _ _ rfl rfl]

theorem roundStop_spec (s : State) (d : Nat) : (s.roundStop d).flag (Fld.RND_STAT_RUNNING d) = false ∧
    (s.roundStop d).dist d = { s.dist d with due := none } := by
  unfold roundStop
  refine ⟨?_, dist_setDist_same ..⟩
  rw [flag_setDist, flag_setFlag_off _ _ rfl, flag_setFlag_on _ _ rfl rfl]

theorem reg_roundStop (s : State) {d a : Nat} (hCtrl : a ≠ Reg.RND_CTRL d) (hStat : a ≠ Reg.RND_STAT d) :
    (s.roundStop d).reg a = s.reg a := by
  unfold roundStop
  rw [reg_setDist, reg_setFlag_ne _ _ hStat, reg_setFlag_ne _ _ hStat, reg_setFlag_ne _ _ hCtrl]

theorem dist_congr {s t : State} (h : t.districts = s.districts) (d : Nat) : t.dist d = s.dist d := by
  unfold State.dist
  rw [h]

/-- With no commit waiting, the stop of a Round ends it and no more. -/
theorem stopRound_quiet (h : s.txnState (.rnd d) ≠ 2) : s.stopRound d = s.roundStop d := by
  have hState : (s.roundStop d).txnState (.rnd d) = s.txnState (.rnd d) := by
    unfold txnState
    rw [reg_roundStop s]
    all_goals
      simp only [txnCtrl, Reg.RND_CTRL, Reg.RND_STAT, Reg.RND_TXN_CTRL]
      omega
  unfold stopRound
  dsimp only
  exact if_neg fun hc => h (hState ▸ hc.1)

theorem wrongState_counts (s : State) (who : Ident) : (s.wrongState who).fld Fld.SYS_WRONG_STATE_CNT_COUNT =
    min 65535 (s.fld Fld.SYS_WRONG_STATE_CNT_COUNT + 1) := by
  unfold wrongState
  rw [fld_setFld_off _ _ rfl, fld_setFld_off _ _ rfl, fld_count_on _ _ rfl]
  rfl

theorem loadRecord_none (h : s.records d = []) : s.loadRecord d = s := by
  unfold loadRecord
  rw [h]

/-- The header sends its own word first. -/
theorem headerFrame_first (s : State) (d : Nat) : Store.get (fun _ => 0) (s.headerFrame d) 0 = s.headerWord d := by
  unfold headerFrame
  dsimp only
  refine (foldl_keeps (fun f : Store Word => Store.get (fun _ => 0) f 0) (fun f w hw => ?_) _).trans (Store.get_set_same _ _ _)
  obtain ⟨k, _, rfl⟩ := List.mem_map.mp hw
  split
  · exact Store.get_set_ne _ _ (by omega)
  · rfl

theorem dist_showFrame (s : State) (d x : Nat) (f : Store Word) : (s.showFrame d f).dist x = s.dist x :=
  foldl_keeps (fun t : State => t.dist x) (fun t _ _ => dist_setReg t _ _ x) s

theorem dist_fireDistrict (s : State) (kind index d x : Nat) : (s.fireDistrict kind index d).dist x = s.dist x := by
  have hKeeps : Keeps [.now, .regs, .engines] s (s.fireDistrict kind index d) := .fireDistrict .refl rfl
  rw [dist, dist, hKeeps.frame .districts rfl]

/-- The start after the one of this cycle. -/
def startAfter (s : State) (d : Nat) : Nat :=
  if (s.dist d).moved && s.flag (Fld.RND_PERIOD_SYNC d) && s.ave.started then s.phasePoint d (s.cycle + 160) else s.nextStart d

theorem roundStart_eq (s : State) (d : Nat) (errors : List RingError) (hTxn : s.txnState (.rnd d) ≠ 2) (hRecord : s.loadRecord d = s) :
    s.roundStart d errors = ((s.showFrame d (s.headerFrame d)).setDist d { s.dist d with
      round := (s.dist d).round + 1, lastStart := s.cycle, moved := false, due := some (s.startAfter d)
      flight := some { start := s.cycle, pass := { words := s.headerFrame d, poison := [], marks := [] }, errors := errors }
      }).fireDistrict 0x10 0 d := by
  unfold roundStart
  rw [if_neg hTxn]
  dsimp only
  rw [hRecord]
  rfl

/-- A station's own word that it left pending, taken at its deadline. -/
theorem takePending_own {v : Word} (hPend : (s.dist d).pendW = [(st * 64 + st, some v)]) (hOp : (s.dist d).pendOp = []) (hst : st < 13) :
    s.takePending d st = s.setDist d { s.dist d with
      pendW := [], pendOp := [], takenW := [(st * 64 + st, some v)], takenOp := [] } := by
  have hKey : ((st * 64 + st) / 64 == st) = true := beq_iff_eq.mpr (by omega)
  have hOther : ((st * 64 + st) / 64 != st) = false := by rw [bne, hKey]; rfl
  unfold takePending
  dsimp only
  rw [hPend, hOp]
  simp [ofStation, notOf, hKey, hOther, hst]

/-- A station whose engine is not in RESET writes its own word as it took it. -/
theorem stationWrite_own {v : Word} {x : District} (old : Word) (hTaken : x.takenW = [(st * 64 + st, some v)])
    (h1 : 1 ≤ st) (hst : st ≤ 12) (hLive : s.engState (d * 12 + (st - 1)) ≠ 0) :
    (s.setDist d x).stationWrite d st st old = some v := by
  have hQuiet : (s.setDist d x).quiet d st = false := by
    unfold quiet
    rw [engState, fld_setDist, show (s.fld (Fld.CE_STAT_STATE (d * 12 + (st - 1))) == 0) = false from beq_eq_false_iff_ne.mpr hLive,
      Bool.and_false]
  have hOwn : (s.setDist d x).mayWriteWord d st st = true := by
    unfold mayWriteWord
    rw [if_neg (by omega), if_pos (by omega), beq_self_eq_true]
  have hGet : Store.get (fun _ => none) ((s.setDist d x).dist d).takenW (st * 64 + st) = some v := by
    rw [dist_setDist_same, hTaken]
    simp [Store.get]
  unfold stationWrite
  rw [hQuiet, if_neg Bool.false_ne_true, if_neg (by omega), hGet]
  dsimp only
  rw [if_pos hOwn]

/-- Its own word leaves such a station with what the station took. -/
theorem passStation_own {v : Word} {x : District} (p : Passage) (hTaken : x.takenW = [(st * 64 + st, some v)]) (hOp : x.takenOp = [])
    (h1 : 1 ≤ st) (hst : st ≤ 12) (hLive : s.engState (d * 12 + (st - 1)) ≠ 0) :
    passWord (passStation d st [] (s.setDist d x, p) st).2 st = v ∧
    (passStation d st [] (s.setDist d x, p) st).1.dist d = { x with
      takenW := [], takenOp := [], leaving := Store.set (fun _ => 0) x.leaving (st * 64 + st) v } := by
  have hWrite := stationWrite_own (passWord p st) hTaken h1 hst hLive
  have hErase : Store.erase x.takenW (st * 64 + st) = [] := by
    rw [hTaken]
    simp [Store.erase]
  have hClean : (p.poison.filter (· != st)).contains st = false := by simp
  have hWord (poison marks : List Nat) : passWord { words := Store.set (fun _ => 0) p.words st v, poison := poison, marks := marks } st = v :=
    Store.get_set_same _ _ _
  have hNone : Store.get (fun _ => (none : Option PendOp)) [] (st * 64 + st) = none := rfl
  unfold passStation
  dsimp only [List.filter_nil, List.any_nil]
  simp only [Bool.false_eq_true, if_false, hWrite, dist_setDist_same, hOp, hErase, hNone, hWord, hClean]
  exact ⟨trivial, rfl⟩

end Sys2Proof.Machine.State

open Sys2Proof Sys2Proof.Machine Sys2Proof.Machine.State

/-- Settles O34: the run, the stop and the start each as the update of the district's Round; a station's own word as it passes. -/
theorem rounds : Obligations.Rounds := by
  intro s who d st v hRun hd hDistrict
  have hLive (g : State → State) : s.live g = g s := live_of_running hRun g
  have hPresent : txnPresent s.variant (.rnd d) = true := decide_eq_true hDistrict
  refine ⟨fun hStopped => ?_, fun hServes hMay hMode hTxn => ?_, fun hServes hMay hMode => ?_, fun hServes hMay => ?_,
    fun x hDue hLate => ?_, fun hFlight => ?_, fun x hDue hTime hFlight hTxn hRecords => ?_, fun p hPend hOp h1 h12 hEngine => ?_⟩
  · obtain ⟨hRunning, hDist⟩ := roundRun_spec s d
    refine ⟨_, congrArg Host.Outcome.next ((hLive _).trans ((if_neg (Nat.not_le.mpr hDistrict)).trans (if_neg ?_))), hRunning, ?_⟩
    · rw [hStopped]
      exact Bool.false_ne_true
    · rw [hDist]
      refine ⟨fun hSync => ?_, rfl, rfl⟩
      rw [hSync, Bool.false_and, if_neg Bool.false_ne_true]
  · obtain ⟨hRunning, hDist⟩ := roundStop_spec s d
    refine ⟨s.roundStop d, congrArg Host.Outcome.next ((served_of_serves hServes _).trans ((txnReach_reaches _ hPresent hMay).trans
      ((if_pos hMode).trans (stopRound_quiet hTxn)))), hRunning, ?_⟩
    rw [hDist]
    exact ⟨rfl, rfl, rfl⟩
  · have hKeeps : Keeps [.now, .regs] s (s.wrongState who) := .wrongState .refl rfl
    refine ⟨_, congrArg Host.Outcome.next ((served_of_serves hServes _).trans ((txnReach_reaches _ hPresent hMay).trans (if_neg hMode))),
      ?_, wrongState_counts s who⟩
    exact dist_congr (hKeeps.frame .districts rfl) d
  · have hKeeps : Keeps [.engines] s (s.refuseStore who (Reg.RND_CTRL d)) := .refuseStore .refl rfl
    have hRefused : s.txnReach (.rnd d) who (Reg.RND_CTRL d)
        (fun s => if s.mode = Mode.load then s.stopRound d else s.wrongState who) = s.refuseStore who (Reg.RND_CTRL d) := by
      rw [txnReach, hPresent, hMay, Bool.not_true, if_neg Bool.false_ne_true, if_pos rfl]
    refine ⟨_, congrArg Host.Outcome.next ((served_of_serves hServes _).trans hRefused), ?_, hKeeps.frame .regs rfl⟩
    exact dist_congr (hKeeps.frame .districts rfl) d
  · refine congrArg Host.Outcome.next ((hLive _).trans (if_neg ?_))
    simp [hDue, hLate]
  · refine congrArg Host.Outcome.next ((hLive _).trans (if_neg ?_))
    simp [Option.isNone_iff_eq_none, hFlight]
  · have hStart := roundStart_eq s d [] hTxn (loadRecord_none hRecords)
    have hDist : (s.roundStart d []).dist d = { s.dist d with
        round := (s.dist d).round + 1, lastStart := s.cycle, moved := false, due := some (s.startAfter d)
        flight := some { start := s.cycle, pass := { words := s.headerFrame d, poison := [], marks := [] }, errors := [] } } := by
      rw [hStart, dist_fireDistrict, dist_setDist_same]
    refine ⟨_, congrArg Host.Outcome.next ((hLive _).trans (if_pos ?_)), ?_⟩
    · rw [hFlight, hDue, Option.any_some, decide_eq_true hTime]
      rfl
    · rw [hDist]
      exact ⟨rfl, rfl, rfl, _, rfl, rfl, headerFrame_first s d⟩
  · have hTake := takePending_own hPend hOp (show st < 13 by omega)
    obtain ⟨hWord, hDist⟩ := passStation_own (s := s) (d := d) (x := { s.dist d with
      pendW := [], pendOp := [], takenW := [(st * 64 + st, some v)], takenOp := [] }) p rfl rfl h1 h12 hEngine
    intro r
    have hr : r = passStation d st [] (s.setDist d { s.dist d with
        pendW := [], pendOp := [], takenW := [(st * 64 + st, some v)], takenOp := [] }, p) st := by rw [← hTake]
    rw [hr, hDist]
    exact ⟨hWord, Store.get_set_same _ _ _, rfl, rfl⟩

end

section
/-!
PROOF. O36: JTAG instructions, the BAR2 windows and the management SPI.
-/

namespace Sys2Proof.Machine.State

variable {s : State} {who : Ident} {a n : Nat}

/-! ### BAR2 -/

theorem bar2At_boot (v : Variant) (h : a < 0x200000) : bar2At v a = .boot a := if_pos h

/-- The data SRAM of an engine lies behind its instruction SRAM. -/
theorem bar2At_data (v : Variant) {e : Nat} (he : e < v.engines) (he96 : e < 96) (ha : a < 0x10000) :
    bar2At v (0x4010000 + e * 0x20000 + a) = .data e a := by
  have hIndex : (0x4010000 + e * 0x20000 + a - 0x4000000) / 0x20000 = e := by omega
  have hOffset : (0x4010000 + e * 0x20000 + a) % 0x10000 = a := by omega
  unfold bar2At
  rw [if_neg (by omega), if_neg (by omega), if_pos (by omega), hIndex, if_pos he, if_neg (by omega), hOffset]

theorem bar2_reaches (hRun : s.inReset = false) (hReach : s.reaches who = true) (f : State → State) :
    s.live (fun s => s.overHclk who f) = f s := by
  rw [live_of_running hRun, overHclk_of_reaches hReach]

/-- A read that finds the image controller idle for its reader, and none of the reader's before it, is answered. -/
theorem hostRead_answers (r : HostRead) (h : s.readsAtOnce r.who = true) : s.hostRead r = s.answerRead r := by
  rw [readsAtOnce_iff] at h
  exact if_neg fun hc => h hc.2

theorem bootOpen_of_mode (h : s.mode ≤ 1) : s.bootOpen = true := by
  unfold bootOpen Mode.boot Mode.load
  have : s.mode = 0 ∨ s.mode = 1 := by omega
  rcases this with h | h <;> rw [h] <;> rfl

theorem bootOpen_of_later (h : 1 < s.mode) : s.bootOpen = false := by
  unfold bootOpen Mode.boot Mode.load
  rw [beq_eq_false_iff_ne.mpr (by omega : s.mode ≠ 0), beq_eq_false_iff_ne.mpr (by omega : s.mode ≠ 1)]
  rfl

/-- The boot window as a write leaves it, or as the refusal of one. -/
theorem bar2Write_boot (v : Nat) (ha : a < 0x200000) : s.bar2Write who a n v =
    if s.bootOpen then { s with bootMem := s.bootMem.writeLE a n v } else s.bar2Refused := by
  unfold bar2Write
  rw [bar2At_boot _ ha]

theorem bootMem_bar2Refused (s : State) : s.bar2Refused.bootMem = s.bootMem := by
  have hKeeps : Keeps [.now, .regs] s s.bar2Refused := .bar2Refused .refl rfl
  exact hKeeps.frame .bootMem rfl

theorem refused_bar2Refused (s : State) : s.bar2Refused.fld Fld.MBX_HOST_STAT_BAR2_REFUSED =
    min 32767 (s.fld Fld.MBX_HOST_STAT_BAR2_REFUSED + 1) := by
  unfold bar2Refused mbxErr
  rw [fld_setFlag_off _ _ rfl, fld_count_on _ _ rfl]
  rfl

theorem bootMem_bar2Miss (s : State) : s.bar2Miss.bootMem = s.bootMem := by
  have hKeeps : Keeps [.now, .regs] s s.bar2Miss := .bar2Miss .refl rfl
  exact hKeeps.frame .bootMem rfl

/-- A read of the boot window gives its bytes while it is open, and some value later (log entry 72). -/
theorem answerRead_boot (ha : a < 0x200000) : s.answerRead { who := who, bar2 := true, addr := a, bytes := n } =
    if s.bootOpen then s.bar2Data who a (s.bootMem.readLE a n) else s.draw.bar2Data who a (s.drawn % 256 ^ n) := by
  unfold answerRead bar2Read
  rw [if_pos rfl, bar2At_boot _ ha]

/-! ### The system registers over the management SPI -/

theorem spiIdent_host (s : State) : Ident.isHost s.spiIdent = true ∧ Ident.isEngine s.spiIdent = false := by
  have hSrc : Ident.src s.spiIdent = 7 := by
    unfold spiIdent ident Ident.src
    rw [BitVec.toNat_ofNat]
    omega
  unfold Ident.isHost Ident.isEngine
  rw [hSrc]
  exact ⟨rfl, rfl⟩

/-- A write of a system register with no command behind it acts under the access codes of its row. -/
theorem writeReg_sys {r : RegRow} (w : Word) (hRun : s.inReset = false) (ha : a < 0x100000) (hMode : a ≠ Reg.SYS_MODE_CMD)
    (hPkg : a ≠ Reg.SYS_PKG_CMD) (hBoot : a ≠ Reg.SYS_BOOT_CTRL) (hAbsent : a ≠ Reg.SYS_ABSENT_HIT) (hRow : regRow a = some r) :
    s.writeReg s.spiIdent a 0 4 w = s.writeRow' r a w := by
  have hMay : s.mayWriteReg s.spiIdent a = true := by
    unfold mayWriteReg
    rw [s.spiIdent_host.2]
    rfl
  simp only [writeReg, live_of_running hRun, windowOf_sys ha, regHere_sys s.variant ha, foreignBlock_sys s.spiIdent ha, hMay,
    writeWindow, txnAt_sys ha, Window.inBoot, Bool.not_true, Bool.and_false, Bool.false_eq_true, if_false, Nat.lt_irrefl]
  rw [writeSys_plain s _ w hMode hPkg hBoot hAbsent, writePlain_of_row w hRow]

/-- The word a read of a system register returns when no counter of it has been raised in this cycle. -/
theorem readReg_sysRow {r : RegRow} (hRun : s.inReset = false) (ha : a < 0x100000) (hRow : regRow a = some r)
    (hRaised : ∀ f ∈ r.rc, s.raisedNow a f = none) :
    s.readReg s.spiIdent a 0 4 = (s.reg a &&& readable r, s.afterRead a 0 4) := by
  have hBefore (w : Word) : s.beforeRaises a w = w := by
    unfold beforeRaises
    rw [hRow]
    exact foldl_keeps (fun x : Word => x) (fun x f hf => by rw [hRaised f hf]) w
  rw [readReg_sys 0 4 hRun ha, hBefore, plainWord_of_row hRow]

theorem out_afterRead (s : State) (a lo n : Nat) : (s.afterRead a lo n).out = s.out := by
  have hKeeps : Keeps [.now, .regs, .srus, .latch] s (s.afterRead a lo n) := .afterRead .refl rfl
  exact hKeeps.frame .out rfl

end Sys2Proof.Machine.State

open Sys2Proof Sys2Proof.Machine Sys2Proof.Machine.State

/-- Settles O36: each access as the one branch that its address and the mode leave. -/
theorem pinsAndHostWindows : Obligations.PinsAndHostWindows := by
  intro s who low a n v w instr
  refine ⟨fun hHigh => ?_, fun hLow => ?_, ⟨_, rfl, rfl, fun h => if_pos h⟩, fun hRun hReach hFunction hAtOnce hEnd => ⟨fun hMode => ?_, fun hMode hn => ?_⟩,
    fun e hRun hReach hFunction hEngine hMode hStop hEnd hn => ?_, fun hRun hAligned ha hMode hPkg hBoot hAbsent r hRow => ⟨?_, fun hRaised => ?_⟩⟩
  · have hActs (k : Nat) : jtagInstr s k = { s with jtag := { s.jtag with instr := if k < 2 ∨ s.porstLow then k else 0 } } :=
      if_neg (by rw [hHigh]; exact Bool.false_ne_true)
    have hFree (k : Nat) (hk : k < 2) : (if k < 2 ∨ s.porstLow then k else 0) = k := if_pos (.inl hk)
    have hPins (k : Nat) (hk : ¬k < 2) : (if k < 2 ∨ s.porstLow then k else 0) = if s.porstLow then k else 0 := by
      simp only [hk, false_or]
    exact ⟨⟨_, congrArg Host.Outcome.next (hActs 0), hFree 0 (by decide), rfl⟩,
      ⟨_, congrArg Host.Outcome.next (hActs 1), hFree 1 (by decide), rfl⟩,
      ⟨_, congrArg Host.Outcome.next (hActs 2), hPins 2 (by decide), rfl⟩, ⟨_, congrArg Host.Outcome.next (hActs 3), hPins 3 (by decide), rfl⟩⟩
  · have hHeld (k : Nat) : jtagInstr s k = s := if_pos hLow
    exact ⟨⟨s, congrArg Host.Outcome.next (hHeld 0), rfl, rfl⟩, ⟨s, congrArg Host.Outcome.next (hHeld 3), rfl, rfl⟩⟩
  · refine ⟨⟨_, congrArg Host.Outcome.next ((bar2_reaches hRun hReach _).trans (if_pos hFunction)), ?_⟩, fun hn => ?_⟩
    · rcases Nat.lt_or_ge a 0x200000 with ha | ha
      · rw [bar2Write_boot v ha, if_pos (bootOpen_of_mode hMode)]
        exact ⟨Mem.readLE_writeLE n s.bootMem a v, fun x hx => Mem.read_writeLE_outside n s.bootMem a v hx⟩
      · have hn0 : n = 0 := by omega
        have hSame : (s.bar2Write who a n v).bootMem = s.bootMem := by
          rw [show a = 0x200000 by omega]
          exact bootMem_bar2Miss s
        rw [hSame, hn0]
        exact ⟨(Nat.mod_one v).symm, fun _ _ => rfl⟩
    · refine ⟨_, congrArg Host.Outcome.next ((bar2_reaches hRun hReach _).trans ((if_pos hFunction).trans
        (hostRead_answers _ hAtOnce))), ?_⟩
      rw [answerRead_boot (by omega), if_pos (bootOpen_of_mode hMode)]
      rfl
  · have ha : a < 0x200000 := by omega
    refine ⟨⟨_, congrArg Host.Outcome.next ((bar2_reaches hRun hReach _).trans (if_pos hFunction)), ?_⟩,
      ⟨_, s.drawn % 256 ^ n, congrArg Host.Outcome.next ((bar2_reaches hRun hReach _).trans ((if_pos hFunction).trans
        (hostRead_answers _ hAtOnce))), ?_⟩⟩
    · rw [bar2Write_boot v ha, bootOpen_of_later hMode, if_neg Bool.false_ne_true]
      exact ⟨bootMem_bar2Refused s, refused_bar2Refused s⟩
    · rw [answerRead_boot ha, bootOpen_of_later hMode, if_neg Bool.false_ne_true]
      exact ⟨rfl, Nat.mod_lt _ (Nat.pow_pos (by decide)), rfl, rfl⟩
  · have hWrite : s.bar2Write who (0x4010000 + e * 0x20000 + a) n v =
        s.setEng e { s.eng e with data := (s.eng e).data.writeLE a n v } := by
      unfold bar2Write
      rw [bar2At_data s.variant (of_decide_eq_true hEngine) (lt_96_of_hasEngine hEngine) (by omega)]
      dsimp only
      exact if_pos ⟨hMode, by rw [hStop]; rfl⟩
    refine ⟨_, congrArg Host.Outcome.next ((bar2_reaches hRun hReach _).trans ((if_pos hFunction).trans hWrite)), ?_⟩
    rw [eng_setEng_same]
    exact ⟨rfl, rfl⟩
  · have hWrite : s.spiWrites a [w] = s.writeRow' r a w := writeReg_sys w hRun ha hMode hPkg hBoot hAbsent hRow
    refine ⟨_, congrArg Host.Outcome.next ((live_of_running hRun _).trans ((if_neg (by simp [hAligned])).trans
      ((if_neg Bool.false_ne_true).trans hWrite))), ?_⟩
    exact reg_setReg_same ..
  · have hRead := readReg_sysRow hRun ha hRow hRaised
    have hReads : s.spiReads a [0xA5] 1 = ([0xA5, (s.reg a &&& readable r).extractLsb' 24 8, (s.reg a &&& readable r).extractLsb' 16 8,
        (s.reg a &&& readable r).extractLsb' 8 8, (s.reg a &&& readable r).extractLsb' 0 8], s.afterRead a 0 4) := by
      unfold spiReads
      rw [hRead]
      rfl
    refine ⟨_, congrArg Host.Outcome.next ((live_of_running hRun _).trans ((if_neg (by simp [hAligned])).trans (if_neg Bool.false_ne_true))), ?_⟩
    rw [hReads]
    exact congrArg _ (out_afterRead s a 0 4)

end

section
/-!
PROOF (O39). A filed claim is a field of the Avenue; a claim's evaluation enters the claimant as the owner of its slot.
-/

namespace Sys2Proof.Machine.State

theorem ave_taken (s : State) (a : Nat) : (s.taken a).ave = s.ave := rfl

theorem ave_countCode (s : State) (who : Ident) (code : Nat) : (s.countCode who code).ave = s.ave := by
  unfold countCode
  split <;> rfl

/-! ### Filing -/

/-- The code of a claim of slot `slot` for local node `l` (R199). -/
def claimCode (s : State) (slot l : Nat) (release : Bool) : Nat :=
  firstCode
    [(decide (l < 13) && !s.hasLocal l, Code.absent),
      (decide (13 ≤ l) || !(slot == 0x3F && !release || s.spareSlots.contains slot), Code.badArg),
      (s.aveState != 4, Code.wrongState)]

/-- The Avenue with a claim filed. -/
def claimFiled (s : State) (slot l : Nat) (release : Bool) : Avenue :=
  { s.ave with
    claim := some { claim := { node := s.aveNode l, slot := slot, release := release }, sent := none, filed := s.cycle } }

/-- What AVE_CLAIM_STAT tells of a claim. -/
def claimTold (s : State) (code : Nat) (done : Bool) : State :=
  (s.setFld Fld.AVE_CLAIM_STAT_RESULT code).setFlag Fld.AVE_CLAIM_STAT_DONE done

theorem result_claimTold (s : State) (code : Nat) (done : Bool) :
    (s.claimTold code done).fld Fld.AVE_CLAIM_STAT_RESULT = code % 65536 := by
  rw [claimTold, fld_setFlag_off _ _ rfl, fld_setFld_on _ _ rfl]
  rfl

theorem done_claimTold (s : State) (code : Nat) (done : Bool) :
    (s.claimTold code done).flag Fld.AVE_CLAIM_STAT_DONE = done := flag_setFlag_on _ _ rfl rfl

variable {s : State} {who : Ident} {slot l : Nat} {release : Bool}

theorem fileClaim_first (hWho : Ident.isEngine who = false) (hNone : s.ave.claim = none) (hFirst : s.took Reg.AVE_CLAIM = false) :
    s.fileClaim who slot l release =
      let u := s.taken Reg.AVE_CLAIM
      if s.claimCode slot l release = Code.ok then (u.setAve (s.claimFiled slot l release)).claimTold Code.pending false
      else (u.claimTold (s.claimCode slot l release) true).countCode who (s.claimCode slot l release) := by
  unfold fileClaim
  rw [if_neg (by rw [hWho]; exact Bool.false_ne_true), oneAtATime_first (by rw [hNone]; rfl) hFirst]
  rfl

theorem fileClaim_lost (hWho : Ident.isEngine who = false) (hWaits : s.ave.claim.isSome = true) :
    s.fileClaim who slot l release = s.setFlag Fld.AVE_CLAIM_STAT_LOST true := by
  unfold fileClaim
  rw [if_neg (by rw [hWho]; exact Bool.false_ne_true), oneAtATime_lost (.inl hWaits)]

theorem claimCode_spare (hl : l < 13) (hLocal : s.hasLocal l = true) (hSpare : s.spareSlots.contains slot = true) :
    s.claimCode slot l release = if s.aveState = 4 then Code.ok else Code.wrongState := by
  simp only [claimCode, firstCode, hLocal, hSpare, Nat.not_le.mpr hl, Bool.not_true, Bool.and_false, Bool.or_true,
    decide_false, Bool.or_self, Bool.false_eq_true, if_false, bne_iff_ne, ne_eq, ite_not]

/-! ### The master's table -/

theorem spareOwner_cons (x : SpareEntry) (t : List SpareEntry) (k : Nat) :
    spareOwner (x :: t) k = if (x.valid && x.slot == k) = true then x.owner else spareOwner t k := by
  unfold spareOwner
  rw [List.find?_cons]
  by_cases h : (x.valid && x.slot == k) = true
  · rw [h, if_pos rfl]
  · rw [Bool.eq_false_iff.mpr h, if_neg Bool.false_ne_true]

theorem spareOwner_setOwner {t : List SpareEntry} {k : Nat} (o : Nat) (h : ∃ x ∈ t, x.slot = k ∧ x.valid = true) :
    spareOwner (setOwner t k o) k = o := by
  induction t with
  | nil =>
    obtain ⟨x, hx, -⟩ := h
    cases hx
  | cons y ys ih =>
    have hCons : setOwner (y :: ys) k o = (if y.slot = k then { y with owner := o } else y) :: setOwner ys k o := rfl
    rw [hCons, spareOwner_cons]
    by_cases hy : y.slot = k ∧ y.valid = true
    · rw [if_pos hy.1, if_pos (by rw [hy.1, hy.2]; simp)]
    · rw [if_neg (by split <;> simp_all), ih]
      obtain ⟨x, hx, hxk⟩ := h
      rcases List.mem_cons.mp hx with rfl | hx
      · exact absurd hxk hy
      · exact ⟨x, hx, hxk⟩

/-- One claim of a free spare makes its node the owner. -/
theorem spareOwner_evalClaims {t : List SpareEntry} {c : Claim} (hClaim : c.release = false) (hNamed : c.slot ≠ 0x3F)
    (hFree : ∃ x ∈ t, x.slot = c.slot ∧ x.valid = true ∧ x.owner = 0xFF) :
    spareOwner (evalClaims t [c]) c.slot = c.node := by
  have hAny : (t.any fun x => x.slot == c.slot && x.owner == 0xFF) = true := by
    obtain ⟨x, hx, hk, -, ho⟩ := hFree
    exact List.any_eq_true.mpr ⟨x, hx, by rw [hk, ho]; simp⟩
  have hEval : evalClaims t [c] = setOwner t c.slot c.node := by
    simp [evalClaims, hClaim, evalClaim, hNamed, hAny]
  rw [hEval]
  exact spareOwner_setOwner _ (hFree.imp fun x h => ⟨h.1, h.2.1, h.2.2.1⟩)

theorem any_sameChip {cs : List Claim} {k : Nat} :
    (cs.any fun x => nodeChip x.node == k) = true ↔ ∃ x ∈ cs, nodeChip x.node = k := by
  simp [List.any_eq_true]

theorem takeClaim_master {c : Claim} (hMaster : s.isMaster = true) (hNew : ∀ x ∈ s.ave.claims, nodeChip x.node ≠ nodeChip c.node) :
    s.takeClaim c = s.setAve { s.ave with claims := s.ave.claims ++ [c] } := by
  have hAny : ¬(s.ave.claims.any fun x => nodeChip x.node == nodeChip c.node) = true := by
    rw [any_sameChip]
    exact fun ⟨x, hx, h⟩ => hNew x hx h
  rw [takeClaim, hMaster, Bool.eq_false_iff.mpr hAny]
  rfl

theorem takeClaim_second {c : Claim} (h : ∃ x ∈ s.ave.claims, nodeChip x.node = nodeChip c.node) : s.takeClaim c = s := by
  rw [takeClaim, any_sameChip.mpr h, Bool.not_true, Bool.and_false, if_neg Bool.false_ne_true]

theorem takeClaim_follower {c : Claim} (h : s.isMaster = false) : s.takeClaim c = s := by
  rw [takeClaim, h, Bool.false_and, if_neg Bool.false_ne_true]

/-- The Avenue with the claim that waits sent in the running cycle. -/
def claimSent (s : State) (c : Claim) (f : Nat) : Avenue :=
  { s.ave with claim := some { claim := c, sent := some (s.fld Fld.AVE_CYCLE_NUM_CYCLE), filed := f } }

theorem takeClaim_sent {c : Claim} (f : Nat) (hNew : ∀ x ∈ s.ave.claims, nodeChip x.node ≠ nodeChip c.node) :
    let t := ((s.setAve (s.claimSent c f)).emit (.claimMsg c)).takeClaim c
    t.out = .claimMsg c :: s.out ∧ t.ave.claim = (s.claimSent c f).claim ∧
      t.ave.claims = if s.isMaster then s.ave.claims ++ [c] else s.ave.claims := by
  intro t
  have hAve : ((s.setAve (s.claimSent c f)).emit (.claimMsg c)).isMaster = s.isMaster := rfl
  by_cases hMaster : s.isMaster = true
  · have ht : t = _ := takeClaim_master (hAve.trans hMaster) hNew
    rw [ht, if_pos hMaster]
    exact ⟨rfl, rfl, rfl⟩
  · have ht : t = _ := takeClaim_follower (hAve.trans (Bool.eq_false_iff.mpr hMaster))
    rw [ht, if_neg hMaster]
    exact ⟨rfl, rfl, rfl⟩

end Sys2Proof.Machine.State

open Sys2Proof Sys2Proof.Machine Sys2Proof.Machine.State

/-- Settles O39: a claim's code when it is filed, the conditions of its mini-slot, and the evaluation of one claim. -/
theorem spareSlotClaims : Obligations.SpareSlotClaims := by
  intro s who slot l f c hServes hWho hFirst result files
  have hRun : s.inReset = false := by
    simp only [serves, Bool.and_eq_true, Bool.not_eq_true'] at hServes
    exact hServes.1.1
  have hLive (g : State → State) : s.live g = g s := live_of_running hRun g
  have hServed (g : State → State) : s.served who g = g s := served_of_serves hServes g
  refine ⟨fun hNone hl hLocal hSpare => ?_, fun hWaits => ?_, fun hClaim hSlot hStarted hState hAgree => ?_, fun hMaster => ?_,
    fun n hClaim hLate => ?_⟩
  · have hCode (release : Bool) := claimCode_spare (s := s) (release := release) hl hLocal hSpare
    have hFiled (hState : s.aveState = 4) (release : Bool) : s.fileClaim who slot l release =
        ((s.taken Reg.AVE_CLAIM).setAve (s.claimFiled slot l release)).claimTold Code.pending false :=
      (fileClaim_first hWho hNone hFirst).trans (if_pos (by rw [hCode, if_pos hState]))
    refine ⟨fun hState => ⟨?_, ?_⟩, fun hState => ?_⟩
    · exact ⟨_, congrArg Host.Outcome.next ((hServed _).trans (hFiled hState false)),
        ⟨result_claimTold _ _ _, done_claimTold _ _ _⟩, rfl⟩
    · exact ⟨_, congrArg Host.Outcome.next ((hServed _).trans (hFiled hState true)),
        ⟨result_claimTold _ _ _, done_claimTold _ _ _⟩, rfl⟩
    · have hRefused : s.claimCode slot l false = Code.wrongState := by rw [hCode, if_neg hState]
      refine ⟨_, congrArg Host.Outcome.next ((hServed _).trans ((fileClaim_first hWho hNone hFirst).trans
        (if_neg (by rw [hRefused]; decide)))), ⟨?_, ?_⟩, ave_countCode ..⟩
      · rw [fld_countCode_off _ _ _ rfl, result_claimTold, hRefused]
        rfl
      · rw [flag_countCode_off _ _ _ rfl, done_claimTold]
  · exact ⟨_, congrArg Host.Outcome.next ((hServed _).trans (fileClaim_lost hWho hWaits)), flag_setFlag_on _ _ rfl rfl, rfl⟩
  · refine ⟨fun hHeld hNow hNew => ?_, fun hNow => ?_, fun hHeld => ?_⟩
    · have hSent := takeClaim_sent (s := s) f hNew
      refine ⟨_, congrArg Host.Outcome.next ((hLive _).trans ?_), hSent⟩
      rw [hClaim]
      exact if_pos ⟨rfl, hSlot, hStarted, hState, hAgree, rfl, hHeld, hNow⟩
    · refine congrArg Host.Outcome.next ((hLive _).trans ?_)
      rw [hClaim]
      exact if_neg fun ⟨_, _, _, _, _, _, _, h⟩ => hNow h
    · refine congrArg Host.Outcome.next ((hLive _).trans ?_)
      rw [hClaim]
      exact if_neg fun ⟨_, _, _, _, _, _, h, _⟩ => absurd h (Nat.not_le.mpr hHeld)
  · refine ⟨fun hNew => ?_, fun hSecond => ?_, fun hNow => ?_, fun hNow hClaims hRelease hNamed hFree => ?_⟩
    · exact ⟨_, congrArg Host.Outcome.next ((hLive _).trans (takeClaim_master hMaster hNew)), rfl⟩
    · exact congrArg Host.Outcome.next ((hLive _).trans (takeClaim_second hSecond))
    · exact congrArg Host.Outcome.next ((hLive _).trans (if_neg fun h => hNow h.2))
    · refine ⟨_, congrArg Host.Outcome.next ((hLive _).trans (if_pos ⟨hMaster, hNow⟩)), rfl, ?_, ?_⟩
      · rw [hClaims]
        exact spareOwner_evalClaims hRelease hNamed hFree
      · rw [hClaims]
        simp [setAve]
  · refine ⟨s.claimResult Code.busy 0, congrArg Host.Outcome.next ((hLive _).trans ?_), rfl, ?_, flag_setFlag_on _ _ rfl rfl⟩
    · rw [hClaim]
      exact if_pos hLate
    · rw [claimResult, fld_setFlag_off _ _ rfl, fld_setFld_off _ _ rfl, fld_setFld_on _ _ rfl]
      rfl

end

section
/-!
PROOF (O43). A table command loads or stores one entry and answers in XING_TBL_CMD; the Lamplighter takes one cell at a time.
-/

namespace Sys2Proof.Machine.State

theorem clocked_of_runs {s : State} {k : Nat} (hRun : s.inReset = false) (hClock : s.clockGone k = false) (f : State → State) :
    s.clocked k f = f s := by
  rw [clocked, live_of_running hRun, hClock, if_neg Bool.false_ne_true]

/-! ### Table commands -/

theorem xing_countCode (s : State) (who : Ident) (code : Nat) : (s.countCode who code).xing = s.xing := by
  unfold countCode
  split <;> rfl

theorem xing_tblResult (s : State) (who : Ident) (code : Nat) : (s.tblResult who code).xing = s.xing := xing_countCode ..

theorem reg_tblResult (s : State) (who : Ident) (code : Nat) :
    (s.tblResult who code).reg Reg.XING_TBL_CMD = BitVec.ofNat 32 (4 + 65536 * code) :=
  (reg_countCode_off _ _ _ rfl).trans (reg_setReg_same ..)

theorem flag_tblResult_off {f : Fld} (s : State) (who : Ident) (code : Nat) (hCmd : (f.reg == Reg.XING_TBL_CMD) = false)
    (hCnt : (f.reg == Reg.SYS_WRONG_STATE_CNT) = false) : (s.tblResult who code).flag f = s.flag f :=
  (flag_countCode_off _ _ _ hCnt).trans (flag_setReg_off _ _ hCmd)

theorem reg_tblResult_off {a : Nat} (s : State) (who : Ident) (code : Nat) (hCmd : (a == Reg.XING_TBL_CMD) = false)
    (hCnt : (a == Reg.SYS_WRONG_STATE_CNT) = false) : (s.tblResult who code).reg a = s.reg a :=
  (reg_countCode_off _ _ _ hCnt).trans (reg_setReg_off _ _ hCmd)

theorem tblData_tblResult (s : State) (who : Ident) (code : Nat) : (s.tblResult who code).tblData = s.tblData := by
  unfold tblData
  rw [reg_tblResult_off _ _ _ rfl rfl, reg_tblResult_off _ _ _ rfl rfl, reg_tblResult_off _ _ _ rfl rfl,
    reg_tblResult_off _ _ _ rfl rfl]

theorem tblData_loadTblData (s : State) (e : Entry) : (s.loadTblData e).tblData = e := by
  unfold tblData loadTblData
  rw [reg_setReg_off _ _ rfl, reg_setReg_off _ _ rfl, reg_setReg_off _ _ rfl, reg_setReg_same, reg_setReg_off _ _ rfl,
    reg_setReg_off _ _ rfl, reg_setReg_same, reg_setReg_off _ _ rfl, reg_setReg_same, reg_setReg_same]

/-! ### The Lamplighter -/

theorem lampNext_within {s : State} (h : s.xing.lamp + 1 < 32768) :
    s.lampNext = s.setXing { s.xing with lamp := s.xing.lamp + 1 } := if_pos h

theorem examine_held {s : State} {c : Nat} (h : s.xing.cells.find? (fun p => p.1 == c) = none) : s.examine c = s := by
  unfold examine
  rw [h]

theorem examine_unmarked {s : State} {c : Nat} {r : Bool} (h : s.xing.cells.find? (fun p => p.1 == c) = some (c, .lost r false)) :
    s.examine c = s.setXing { s.xing with cells := Store.insert s.xing.cells c (.lost r true) } := by
  unfold examine
  rw [h]

/-- A freed cell, counted by what had held it. -/
theorem examine_marked {s : State} {c : Nat} {r : Bool} (h : s.xing.cells.find? (fun p => p.1 == c) = some (c, .lost r true)) :
    s.examine c = ((s.setXing { s.xing with cells := Store.erase s.xing.cells c }).setFree (s.freeCells + 1)).count
      (if r then Fld.XING_LAMP_STAT_LEASE_FREED else Fld.XING_LAMP_STAT_ORPHAN) := by
  unfold examine
  rw [h]

theorem freeCells_setFree (s : State) {n : Nat} (h : n < 65536) : (s.setFree n).freeCells = n := by
  unfold setFree freeCells
  rw [fld_setFld_off _ _ rfl, fld_setFld_on _ _ rfl]
  exact Nat.mod_eq_of_lt h

theorem freeCells_lampCount (s : State) (r : Bool) :
    (s.count (if r then Fld.XING_LAMP_STAT_LEASE_FREED else Fld.XING_LAMP_STAT_ORPHAN)).freeCells = s.freeCells := by
  unfold freeCells
  cases r
  · exact fld_count_off _ _ rfl
  · exact fld_count_off _ _ rfl

end Sys2Proof.Machine.State

open Sys2Proof Sys2Proof.Machine Sys2Proof.Machine.State

/-- Settles O43: each command's condition selects its branch, and one entry or one cell changes. -/
theorem crossingTables : Obligations.CrossingTables := by
  intro s who r hRun i k result
  have hServed (hServes : s.serves who = true) (g : State → State) : s.served who g = g s := served_of_serves hServes g
  refine ⟨fun hClock hLive => ⟨fun hNone => ?_, fun hSome => ?_, ?_⟩, fun hClock hDead hAt => ?_, fun hServes hIn hOther hNew => ?_,
    fun hServes hPast => ⟨?_, ?_⟩, fun hServes hIn hOther => ?_, fun hServes hIn hHolder hRoom => ?_, fun hClock hLamp => ?_⟩
  · exact ⟨_, congrArg Host.Outcome.next ((clocked_of_runs hRun hClock _).trans (if_pos ⟨hLive, hNone⟩)),
      flag_setFlag_on _ _ rfl rfl, rfl⟩
  · exact congrArg Host.Outcome.next ((clocked_of_runs hRun hClock _).trans (if_neg fun h => hSome h.2))
  · refine congrArg Host.Outcome.next ((clocked_of_runs hRun hClock _).trans (if_neg fun h => ?_))
    rw [hLive] at h
    exact Bool.false_ne_true h.1
  · exact ⟨_, congrArg Host.Outcome.next ((clocked_of_runs hRun hClock _).trans (if_pos ⟨by rw [hDead]; rfl, hAt⟩)),
      flag_setFlag_on _ _ rfl rfl⟩
  · have hIn' : ¬tableSize k ≤ i := Nat.not_le.mpr hIn
    have hOther' : ¬s.holdsXing who = true := by rw [hOther]; exact Bool.false_ne_true
    have hNew' : ¬s.flag Fld.XING_TBL_ADDR_OLD = true := by rw [hNew]; exact Bool.false_ne_true
    refine ⟨_, congrArg Host.Outcome.next ((hServed hServes _).trans ((if_neg hIn').trans ((if_neg hOther').trans
      (if_neg fun h => hNew' h.1)))), reg_tblResult .., ?_, xing_tblResult ..⟩
    rw [tblData_tblResult, tblData_loadTblData, if_neg hNew']
  · exact ⟨_, congrArg Host.Outcome.next ((hServed hServes _).trans (if_pos hPast)), reg_tblResult .., xing_tblResult ..⟩
  · exact ⟨_, congrArg Host.Outcome.next ((hServed hServes _).trans (if_pos hPast)), reg_tblResult .., xing_tblResult ..⟩
  · refine ⟨_, congrArg Host.Outcome.next ((hServed hServes _).trans ((if_neg (Nat.not_le.mpr hIn)).trans
      (if_pos (by rw [hOther]; rfl)))), reg_tblResult .., ?_, xing_tblResult ..⟩
    rw [flag_tblResult_off _ _ _ rfl rfl, flag_setFlag_on _ _ rfl rfl]
  · refine ⟨_, congrArg Host.Outcome.next ((hServed hServes _).trans ((if_neg (Nat.not_le.mpr hIn)).trans
      ((if_neg (by rw [hHolder]; exact Bool.false_ne_true)).trans (if_neg fun h => absurd h.1 (Nat.not_le.mpr hRoom))))),
      reg_tblResult .., ?_, ?_⟩
    · rw [xing_tblResult]
      rfl
    · rw [xing_tblResult]
      exact Store.get_set_same s.xing.shadow (k * 65536 + i) (some s.tblData)
  · intro found
    have hStep (g : State) (hg : s.examine s.xing.lamp = g) (hLampg : g.xing.lamp = s.xing.lamp) :
        exec .lamplighterExamine s = .next (g.setXing { g.xing with lamp := s.xing.lamp + 1 }) := by
      refine congrArg Host.Outcome.next ((clocked_of_runs hRun hClock _).trans ?_)
      rw [hg, lampNext_within (by rw [hLampg]; exact hLamp), hLampg]
    refine ⟨fun h => ?_, fun h => ?_, fun h hFree => ?_⟩
    · exact ⟨_, hStep s (examine_held h) rfl, rfl, rfl, rfl⟩
    · exact ⟨_, hStep _ (examine_unmarked h) rfl, rfl, rfl, rfl⟩
    · refine ⟨_, hStep _ (examine_marked h) rfl, rfl, ?_, rfl⟩
      have hCount := freeCells_lampCount ((s.setXing { s.xing with cells := Store.erase s.xing.cells s.xing.lamp }).setFree
        (s.freeCells + 1)) r
      exact hCount.trans (freeCells_setFree _ (by omega))

end

section
/-!
PROOF (O49). A time command answers with its code; what its body leaves of the time base is read back through the
flags and counters it sets on the way.
-/

namespace Sys2Proof.Machine.State

/-! ### The answer -/

theorem tb_countCode (s : State) (who : Ident) (code : Nat) : (s.countCode who code).tb = s.tb := by
  unfold countCode
  split <;> rfl

theorem tb_timeResult (s : State) (who : Ident) (tag code : Nat) : (s.timeResult who tag code).tb = s.tb := tb_countCode ..

/-- A time command's result, with DONE set. -/
structure TimeDone (t : State) (code tag : Nat) : Prop where
  result : t.fld Fld.TIME_CMD_RES_RESULT = code % 65536
  tag : t.fld Fld.TIME_CMD_RES_TAG = tag % 256
  done : t.flag Fld.TIME_CMD_RES_DONE = true

theorem timeResult_done (s : State) (who : Ident) (tag code : Nat) : (s.timeResult who tag code).TimeDone code tag where
  result := by
    rw [timeResult, fld_countCode_off _ _ _ rfl, fld_setFlag_off _ _ rfl, fld_setFld_off _ _ rfl, fld_setFld_on _ _ rfl]
    rfl
  tag := by
    rw [timeResult, fld_countCode_off _ _ _ rfl, fld_setFlag_off _ _ rfl, fld_setFld_on _ _ rfl]
    rfl
  done := by rw [timeResult, flag_countCode_off _ _ _ rfl, flag_setFlag_on _ _ rfl rfl]

theorem reg_timeResult_off {a : Nat} (s : State) (who : Ident) (tag code : Nat) (hRes : (a == Reg.TIME_CMD_RES) = false)
    (hCnt : (a == Reg.SYS_WRONG_STATE_CNT) = false) : (s.timeResult who tag code).reg a = s.reg a := by
  rw [timeResult, reg_countCode_off _ _ _ hCnt, reg_setFlag_off _ _ hRes, reg_setFld_off _ _ hRes, reg_setFld_off _ _ hRes]

theorem fld_timeResult_off {f : Fld} (s : State) (who : Ident) (tag code : Nat) (hRes : (f.reg == Reg.TIME_CMD_RES) = false)
    (hCnt : (f.reg == Reg.SYS_WRONG_STATE_CNT) = false) : (s.timeResult who tag code).fld f = s.fld f :=
  fld_of_reg (reg_timeResult_off s who tag code hRes hCnt)

theorem flag_timeResult_off {f : Fld} (s : State) (who : Ident) (tag code : Nat) (hRes : (f.reg == Reg.TIME_CMD_RES) = false)
    (hCnt : (f.reg == Reg.SYS_WRONG_STATE_CNT) = false) : (s.timeResult who tag code).flag f = s.flag f :=
  flag_of_reg (reg_timeResult_off s who tag code hRes hCnt)

section
variable {s : State} {who : Ident} {tag : Nat} {codes : List (Bool × Nat)} {body : State → State}

theorem timeCommand_lost (h : s.flag Fld.TIME_CMD_RES_DONE = false ∨ s.took Reg.TIME_CMD = true) :
    s.timeCommand who tag codes body = s.setFlag Fld.TIME_CMD_RES_LOST true :=
  oneAtATime_lost (h.imp_left fun h => by rw [h]; rfl) _

theorem timeCommand_refused {code : Nat} (hDone : s.flag Fld.TIME_CMD_RES_DONE = true) (hFirst : s.took Reg.TIME_CMD = false)
    (hCode : (if s.tclkLost && firstCode codes != Code.badArg then Code.wrongState else firstCode codes) = code)
    (hBad : code ≠ Code.ok) : s.timeCommand who tag codes body = (s.taken Reg.TIME_CMD).timeResult who tag code := by
  subst hCode
  exact (oneAtATime_first (by rw [hDone]; rfl) hFirst _).trans (if_neg hBad)

theorem timeCommand_runs (hDone : s.flag Fld.TIME_CMD_RES_DONE = true) (hFirst : s.took Reg.TIME_CMD = false)
    (hRuns : s.tclkLost = false) (hCode : firstCode codes = Code.ok) :
    s.timeCommand who tag codes body = (body (s.taken Reg.TIME_CMD)).timeResult who tag Code.ok := by
  have hOk : (if s.tclkLost && firstCode codes != Code.badArg then Code.wrongState else firstCode codes) = Code.ok := by
    rw [hRuns, Bool.false_and, if_neg Bool.false_ne_true, hCode]
  have hIf : (if (s.taken Reg.TIME_CMD).tclkLost && firstCode codes != Code.badArg then Code.wrongState else firstCode codes) = Code.ok :=
    hOk
  refine (oneAtATime_first (by rw [hDone]; rfl) hFirst _).trans ?_
  dsimp only
  rw [hIf, if_pos rfl]

end

/-! ### Flags on the way -/

section
variable {f : Fld} (s : State)

theorem fld_showActive_off (h0 : (Fld.TIME_DOM_STAT_ACTIVE 0).off f = true) (h1 : (Fld.TIME_DOM_STAT_ACTIVE 1).off f = true) :
    s.showActive.fld f = s.fld f := (fld_setFlag_off _ _ h1).trans (fld_setFlag_off _ _ h0)

theorem fld_setLocked_off (x : Nat) (b : Bool) (h : (Fld.TIME_DOM_STAT_LOCKED x).off f = true) :
    (s.setLocked x b).fld f = s.fld f := by
  unfold setLocked
  split
  · rfl
  · rw [fld_notify, fld_setFlag_off _ _ h]

theorem fld_endHoldover_off (x : Nat) (h : (Fld.TIME_DOM_STAT_HOLDOVER x).off f = true) :
    (s.setHoldover x false).fld f = s.fld f := by
  unfold setHoldover
  split
  · rfl
  · rw [if_neg Bool.false_ne_true, fld_notify, fld_setFlag_off _ _ h]

theorem fld_showSlew_off (h0 : Fld.TIME_STAT_SLEWING.off f = true) (h1 : Fld.TIME_STAT_EXACT.off f = true) :
    s.showSlew.fld f = s.fld f := by
  unfold showSlew
  split
  · exact (fld_setFlag_off _ _ h1).trans (fld_setFlag_off _ _ h0)
  · exact (fld_setFlag_off _ _ h1).trans (fld_setFlag_off _ _ h0)

theorem fld_missEdges_off (k t : Nat) (h : (Fld.TIME_OUT_CTRL_MISSED k).off f = true) : (s.missEdges k t).fld f = s.fld f := by
  unfold missEdges
  dsimp only
  split
  · split
    · exact fld_setFlag_off _ _ h
    · rfl
  · rfl

theorem fld_countWrap_off {g : Fld} (n : Nat) (h : g.off f = true) : (s.countWrap g n).fld f = s.fld f :=
  fld_setFld_off _ _ h

theorem tb_showActive : s.showActive.tb = s.tb := rfl

theorem tb_setLocked (x : Nat) (b : Bool) : (s.setLocked x b).tb = s.tb := by
  unfold setLocked
  split <;> rfl

theorem tb_endHoldover (x : Nat) : (s.setHoldover x false).tb = s.tb := by
  unfold setHoldover
  split <;> rfl

theorem tb_showSlew : s.showSlew.tb = s.tb := by
  unfold showSlew
  split <;> rfl

theorem locked_setLocked (x : Nat) (b : Bool) : (s.setLocked x b).flag (Fld.TIME_DOM_STAT_LOCKED x) = b := by
  unfold setLocked
  split
  · assumption
  · rw [flag_notify, flag_setFlag_on _ _ rfl rfl]

theorem holdover_endHoldover (x : Nat) : (s.setHoldover x false).flag (Fld.TIME_DOM_STAT_HOLDOVER x) = false := by
  unfold setHoldover
  split
  · assumption
  · rw [if_neg Bool.false_ne_true, flag_notify, flag_setFlag_on _ _ rfl rfl]

end

/-! ### Steps of line time -/

/-- The domains and line time of two states agree, and so do the fields apart from what outputs miss. -/
structure StepsKept (s t : State) : Prop where
  domains : t.tb.domains = s.tb.domains
  line : t.tb.line = s.tb.line
  fld : ∀ f : Fld, (∀ k < 4, (Fld.TIME_OUT_CTRL_MISSED k).off f = true) → t.fld f = s.fld f

theorem StepsKept.refl (s : State) : StepsKept s s := ⟨rfl, rfl, fun _ _ => rfl⟩

theorem StepsKept.trans {s t u : State} (h : StepsKept s t) (k : StepsKept t u) : StepsKept s u :=
  ⟨k.domains.trans h.domains, k.line.trans h.line, fun f hf => (k.fld f hf).trans (h.fld f hf)⟩

theorem missEdges_stepsKept (s : State) {k : Nat} (t : Nat) (hk : k < 4) : StepsKept s (s.missEdges k t) where
  domains := by
    unfold missEdges
    dsimp only
    split
    · split <;> rfl
    · rfl
  line := by
    unfold missEdges
    dsimp only
    split
    · split <;> rfl
    · rfl
  fld f hf := fld_missEdges_off s k t (hf k hk)

/-- One output's part of a step of line time. -/
def stepOutput (old : Instant) (later : Nat) (s : State) (k : Nat) : State :=
  let o := s.pulseOut k
  match o.next with
  | some n =>
    if n ≤ s.tb.line then s.missEdges k later
    else if s.tb.line < old ∧ o.periodic then
      let s1 := s.setPulseOut k { o with next := some (gridFrom o.start o.period later) }
      if gridFrom o.start o.period s.tb.line < later then s1.setFlag (Fld.TIME_OUT_CTRL_MISSED k) true else s1
    else s
  | none => s

theorem stepOutput_stepsKept (old : Instant) (later : Nat) (s : State) {k : Nat} (hk : k < 4) :
    StepsKept s (stepOutput old later s k) := by
  unfold stepOutput
  dsimp only
  split
  · split
    · exact missEdges_stepsKept s later hk
    · split
      · split
        · exact ⟨rfl, rfl, fun f hf => fld_setFlag_off _ _ (hf k hk)⟩
        · exact ⟨rfl, rfl, fun _ _ => rfl⟩
      · exact .refl s
  · exact .refl s

theorem stepOutputs_stepsKept (s : State) (old : Instant) : StepsKept s (s.stepOutputs old) := by
  have hFold : s.stepOutputs old = (List.range 4).foldl (stepOutput old (s.tb.line + 1000 * Instant.nano)) s := rfl
  rw [hFold]
  refine List.foldlRecOn (List.range 4) _ (.refl s) fun t ht k hk => ht.trans ?_
  exact stepOutput_stepsKept _ _ t (List.mem_range.mp hk)

/-- A step of line time: the new value, the domains and every field but the counter and what outputs missed. -/
theorem line_stepLine (s : State) (t : Instant) : (s.stepLine t).tb.line = t :=
  (stepOutputs_stepsKept ((s.setTb { s.tb with line := t, stepDue := true }).countWrap Fld.TIME_STAT_LINE_STEPS) s.tb.line).line

theorem domains_stepLine (s : State) (t : Instant) : (s.stepLine t).tb.domains = s.tb.domains :=
  (stepOutputs_stepsKept ((s.setTb { s.tb with line := t, stepDue := true }).countWrap Fld.TIME_STAT_LINE_STEPS) s.tb.line).domains

theorem fld_stepLine_off {f : Fld} (s : State) (t : Instant) (hCnt : Fld.TIME_STAT_LINE_STEPS.off f = true)
    (hOuts : ∀ k < 4, (Fld.TIME_OUT_CTRL_MISSED k).off f = true) : (s.stepLine t).fld f = s.fld f :=
  ((stepOutputs_stepsKept _ s.tb.line).fld f hOuts).trans
    (fld_countWrap_off (s.setTb { s.tb with line := t, stepDue := true }) _ hCnt)

theorem dom_congr {s t : State} (h : t.tb.domains = s.tb.domains) (x : Nat) : t.dom x = s.dom x := by
  unfold dom
  rw [h]

theorem dom_setDom (s : State) (x : Nat) (d : Domain) : (s.setDom x d).dom x = d :=
  Store.get_set_same s.tb.domains x d

theorem fld_setDom_off {f : Fld} (s : State) (x : Nat) (d : Domain) (hLo : (f.reg == Reg.TIME_DOM_RATE_LO x) = false)
    (hHi : (f.reg == Reg.TIME_DOM_RATE_HI x) = false) : (s.setDom x d).fld f = s.fld f :=
  (fld_setReg_off _ _ hHi).trans (fld_setReg_off _ _ hLo)

end Sys2Proof.Machine.State
end

section
/-! PROOF (O49). The bodies of INIT, STEP, SWITCH and SNAP, and the obligation. -/

namespace Sys2Proof.Machine.State

section
variable (s : State) {x : Nat} (hx : x < 2)
include hx

theorem activeDom_setDom (d : Domain) : (s.setDom x d).activeDom = s.activeDom :=
  fld_setDom_off s x d (by interval_cases x <;> rfl) (by interval_cases x <;> rfl)

theorem domState_setDom (d : Domain) : (s.setDom x d).domState x = s.domState x :=
  fld_setDom_off s x d (by interval_cases x <;> rfl) (by interval_cases x <;> rfl)

theorem domState_showSlew : s.showSlew.domState x = s.domState x :=
  fld_showSlew_off s (by interval_cases x <;> rfl) (by interval_cases x <;> rfl)

theorem domState_stepLine (t : Instant) : (s.stepLine t).domState x = s.domState x :=
  fld_stepLine_off s t (by interval_cases x <;> rfl) (by intro k hk; interval_cases x <;> interval_cases k <;> rfl)

end

/-! ### INIT -/

/-- INIT's domain: the value taken, UNSET, with nothing locked, held or counted. -/
def initTaken (s : State) (x : Nat) (v : Instant) : State :=
  let s := ((s.setDom x { s.dom x with value := v, rate := 0, integ := 0, since := s.cycle, measured := false }).setFld
    (Fld.TIME_DOM_STAT_STATE x) 1).showActive
  let s := (s.setLocked x false).setHoldover x false
  (s.setFld (Fld.TIME_DOM_STAT_GOOD x) 0).setFld (Fld.TIME_DOM_STAT_MISS x) 0

/-- INIT's line time, which steps with the active domain. -/
def initLine (s : State) (x : Nat) (v : Instant) (off : Prop) [Decidable off] : State :=
  if s.activeDom = x ∧ off then (s.stepLine v).setFlag Fld.TIME_STAT_FREE false else s

theorem initDomain_eq (s : State) (x : Nat) :
    s.initDomain x = ((s.initTaken x s.initValue).initLine x s.initValue (s.domState x = 0)).showSlew := rfl

theorem tb_initTaken (s : State) (x : Nat) (v : Instant) : (s.initTaken x v).tb =
    (s.setDom x { s.dom x with value := v, rate := 0, integ := 0, since := s.cycle, measured := false }).tb :=
  (tb_endHoldover _ x).trans ((tb_setLocked _ x false).trans rfl)

theorem fld_initTaken_off {f : Fld} (s : State) (x : Nat) (v : Instant)
    (hGood : (Fld.TIME_DOM_STAT_GOOD x).off f = true) (hMiss : (Fld.TIME_DOM_STAT_MISS x).off f = true)
    (hHold : (Fld.TIME_DOM_STAT_HOLDOVER x).off f = true) (hLock : (Fld.TIME_DOM_STAT_LOCKED x).off f = true)
    (h0 : (Fld.TIME_DOM_STAT_ACTIVE 0).off f = true) (h1 : (Fld.TIME_DOM_STAT_ACTIVE 1).off f = true) :
    (s.initTaken x v).fld f = ((s.setDom x { s.dom x with value := v, rate := 0, integ := 0, since := s.cycle, measured := false }).setFld
      (Fld.TIME_DOM_STAT_STATE x) 1).fld f := by
  rw [initTaken, fld_setFld_off _ _ hMiss, fld_setFld_off _ _ hGood, fld_endHoldover_off _ x hHold, fld_setLocked_off _ x false hLock,
    fld_showActive_off _ h0 h1]

theorem domState_initTaken (s : State) {x : Nat} (v : Instant) (hx : x < 2) : (s.initTaken x v).domState x = 1 := by
  unfold domState
  rw [fld_initTaken_off s x v (by interval_cases x <;> rfl) (by interval_cases x <;> rfl) (by interval_cases x <;> rfl)
    (by interval_cases x <;> rfl) (by interval_cases x <;> rfl) (by interval_cases x <;> rfl), fld_setFld_on _ _ rfl]
  rfl

theorem activeDom_initTaken (s : State) {x : Nat} (v : Instant) (hx : x < 2) : (s.initTaken x v).activeDom = s.activeDom := by
  unfold activeDom
  rw [fld_initTaken_off s x v (by interval_cases x <;> rfl) (by interval_cases x <;> rfl) (by interval_cases x <;> rfl)
    (by interval_cases x <;> rfl) rfl rfl, fld_setFld_off _ _ (by interval_cases x <;> rfl)]
  exact activeDom_setDom s hx _

/-- What INIT leaves of its domain, and of line time where the domain is active. -/
theorem initDomain_spec (s : State) {x : Nat} (hx : x < 2) (hOff : s.activeDom ≠ x ∨ s.domState x = 0) :
    let t := s.initDomain x
    t.domState x = 1 ∧ (t.dom x).value = s.initValue ∧ (t.dom x).rate = 0 ∧ (t.dom x).integ = 0 ∧
      (s.activeDom = x → t.tb.line = s.initValue ∧ t.flag Fld.TIME_STAT_FREE = false) := by
  have hTaken := domState_initTaken s s.initValue hx
  have hActive := activeDom_initTaken s s.initValue hx
  have hDom : (s.initTaken x s.initValue).dom x = _ := (dom_congr (congrArg TimeBase.domains (tb_initTaken s x s.initValue)) x).trans (dom_setDom s x _)
  intro t
  have ht : t = ((s.initTaken x s.initValue).initLine x s.initValue (s.domState x = 0)).showSlew := initDomain_eq s x
  rw [ht]
  generalize s.initTaken x s.initValue = w at hTaken hActive hDom
  have hState : (w.initLine x s.initValue (s.domState x = 0)).domState x = 1 := by
    unfold initLine
    split
    · have hFree : ((w.stepLine s.initValue).setFlag Fld.TIME_STAT_FREE false).domState x = (w.stepLine s.initValue).domState x :=
        fld_setFlag_off _ _ (by interval_cases x <;> rfl)
      rw [hFree, domState_stepLine _ hx, hTaken]
    · exact hTaken
  have hDoms : (w.initLine x s.initValue (s.domState x = 0)).dom x = w.dom x := by
    unfold initLine
    split
    · exact dom_congr (domains_stepLine w s.initValue) x
    · rfl
  have hShown : ((w.initLine x s.initValue (s.domState x = 0)).showSlew).dom x = w.dom x :=
    (dom_congr (congrArg TimeBase.domains (tb_showSlew _)) x).trans hDoms
  refine ⟨(domState_showSlew _ hx).trans hState, ?_, ?_, ?_, fun hOwn => ?_⟩
  · rw [hShown, hDom]
  · rw [hShown, hDom]
  · rw [hShown, hDom]
  · have hSteps : w.initLine x s.initValue (s.domState x = 0) = (w.stepLine s.initValue).setFlag Fld.TIME_STAT_FREE false :=
      if_pos ⟨hActive.trans hOwn, hOff.resolve_left fun h => h hOwn⟩
    rw [hSteps, tb_showSlew]
    refine ⟨line_stepLine w s.initValue, ?_⟩
    have hFree : ((w.stepLine s.initValue).setFlag Fld.TIME_STAT_FREE false).showSlew.fld Fld.TIME_STAT_FREE = 0 :=
      (fld_showSlew_off _ rfl rfl).trans (fld_setFlag_on _ _ rfl rfl)
    rw [flag, hFree]
    rfl

/-! ### STEP -/

/-- STEP's domain. -/
def stepTaken (s : State) (x : Nat) (d : Int) : State :=
  (s.setDom x { s.dom x with value := Instant.shift (s.dom x).value d }).setFld (Fld.TIME_DOM_STAT_STATE x) 2

theorem stepDomain_eq (s : State) (x : Nat) (d : Int) : s.stepDomain x d =
    if s.activeDom = x then (s.stepTaken x d).stepLine (Instant.shift s.tb.line d) else s.stepTaken x d := rfl

theorem stepDomain_spec (s : State) {x : Nat} (hx : x < 2) (d : Int) :
    let t := (s.stepDomain x d).showSlew
    t.domState x = 2 ∧ (t.dom x).value = Instant.shift (s.dom x).value d ∧
      (s.activeDom = x → t.tb.line = Instant.shift s.tb.line d) ∧ (s.activeDom ≠ x → t.tb.line = s.tb.line) := by
  have hTaken : (s.stepTaken x d).domState x = 2 := (fld_setFld_on _ _ rfl).trans rfl
  have hDom : (s.stepTaken x d).dom x = { s.dom x with value := Instant.shift (s.dom x).value d } := dom_setDom s x _
  have hLine : (s.stepTaken x d).tb.line = s.tb.line := rfl
  have hState : (s.stepDomain x d).domState x = 2 := by
    rw [stepDomain_eq]
    split
    · rw [domState_stepLine _ hx, hTaken]
    · exact hTaken
  have hDoms : (s.stepDomain x d).dom x = (s.stepTaken x d).dom x := by
    rw [stepDomain_eq]
    split
    · exact dom_congr (domains_stepLine ..) x
    · rfl
  intro t
  have hShown : t.dom x = (s.stepTaken x d).dom x := (dom_congr (congrArg TimeBase.domains (tb_showSlew _)) x).trans hDoms
  refine ⟨(domState_showSlew _ hx).trans hState, ?_, fun hOwn => ?_, fun hOther => ?_⟩
  · rw [hShown, hDom]
  · have ht : t.tb = (s.stepDomain x d).tb := tb_showSlew _
    rw [ht, stepDomain_eq, if_pos hOwn]
    exact line_stepLine ..
  · have ht : t.tb = (s.stepDomain x d).tb := tb_showSlew _
    rw [ht, stepDomain_eq, if_neg hOther]
    exact hLine

/-! ### SWITCH -/

theorem switchTo_spec (s : State) {x : Nat} (hx : x < 2) :
    let t := (s.switchTo x).showSlew
    t.activeDom = x ∧ t.tb = s.tb ∧ t.fld Fld.TIME_STAT_SWITCHES = (s.fld Fld.TIME_STAT_SWITCHES + 1) % 256 := by
  intro t
  have htb : t.tb = (s.switchTo x).tb := tb_showSlew _
  have ht : t = (s.switchTo x).showSlew := rfl
  have hKept : (s.switchTo x).tb = s.tb := by rw [switchTo, notify_tb, countWrap, setFld_tb, setActive, tb_showActive, setFld_tb]
  refine ⟨?_, htb.trans hKept, ?_⟩
  all_goals rw [ht]
  · unfold activeDom switchTo
    rw [fld_showSlew_off _ rfl rfl, fld_notify, fld_countWrap_off _ _ rfl, setActive, fld_showActive_off _ rfl rfl, fld_setFld_on _ _ rfl]
    exact Nat.mod_eq_of_lt hx
  · unfold switchTo
    rw [fld_showSlew_off _ rfl rfl, fld_notify, countWrap, fld_setFld_on _ _ rfl, setActive, fld_showActive_off _ rfl rfl,
      fld_setFld_off _ _ rfl]
    rfl

/-! ### SNAP -/

/-- The registers of snapshot `v` show a time. -/
def SnapShows (s : State) (v : Nat) (d : Instant) : Prop :=
  s.reg (Reg.TIME_SNAP_SEC_LO v) = BitVec.ofNat 32 (Instant.sec d) ∧
    s.reg (Reg.TIME_SNAP_SEC_HI v) = BitVec.ofNat 32 (Instant.sec d / 2 ^ 32) ∧
    s.reg (Reg.TIME_SNAP_NS v) = BitVec.ofNat 32 (Instant.ns d) ∧
    s.reg (Reg.TIME_SNAP_SUB v) = BitVec.ofNat 32 (Instant.sub d)

theorem SnapShows.congr {s t : State} {v : Nat} {d : Instant} (h : s.SnapShows v d)
    (hRegs : ∀ a, Reg.TIME_SNAP_SEC_LO v ≤ a → a ≤ Reg.TIME_SNAP_SUB v → t.reg a = s.reg a) : t.SnapShows v d := by
  obtain ⟨hLo, hHi, hNs, hSub⟩ := h
  refine ⟨(hRegs _ ?_ ?_).trans hLo, (hRegs _ ?_ ?_).trans hHi, (hRegs _ ?_ ?_).trans hNs, (hRegs _ ?_ ?_).trans hSub⟩ <;>
    · simp only [Reg.TIME_SNAP_SEC_LO, Reg.TIME_SNAP_SEC_HI, Reg.TIME_SNAP_NS, Reg.TIME_SNAP_SUB]
      omega

theorem snapshot_shows (s : State) (v : Nat) (d : Instant) : (s.snapshot v d).SnapShows v d := by
  have hLoHi : Reg.TIME_SNAP_SEC_LO v ≠ Reg.TIME_SNAP_SEC_HI v := by unfold Reg.TIME_SNAP_SEC_LO Reg.TIME_SNAP_SEC_HI; omega
  have hLoNs : Reg.TIME_SNAP_SEC_LO v ≠ Reg.TIME_SNAP_NS v := by unfold Reg.TIME_SNAP_SEC_LO Reg.TIME_SNAP_NS; omega
  have hLoSub : Reg.TIME_SNAP_SEC_LO v ≠ Reg.TIME_SNAP_SUB v := by unfold Reg.TIME_SNAP_SEC_LO Reg.TIME_SNAP_SUB; omega
  have hHiNs : Reg.TIME_SNAP_SEC_HI v ≠ Reg.TIME_SNAP_NS v := by unfold Reg.TIME_SNAP_SEC_HI Reg.TIME_SNAP_NS; omega
  have hHiSub : Reg.TIME_SNAP_SEC_HI v ≠ Reg.TIME_SNAP_SUB v := by unfold Reg.TIME_SNAP_SEC_HI Reg.TIME_SNAP_SUB; omega
  have hNsSub : Reg.TIME_SNAP_NS v ≠ Reg.TIME_SNAP_SUB v := by unfold Reg.TIME_SNAP_NS Reg.TIME_SNAP_SUB; omega
  refine ⟨?_, ?_, ?_, reg_setReg_same ..⟩
  · rw [snapshot, reg_setReg_ne _ _ hLoSub, reg_setReg_ne _ _ hLoNs, reg_setReg_ne _ _ hLoHi, reg_setReg_same]
  · rw [snapshot, reg_setReg_ne _ _ hHiSub, reg_setReg_ne _ _ hHiNs, reg_setReg_same]
  · rw [snapshot, reg_setReg_ne _ _ hNsSub, reg_setReg_same]

theorem reg_snapshot_off (s : State) {v a : Nat} (d : Instant) (h : a < Reg.TIME_SNAP_SEC_LO v) :
    (s.snapshot v d).reg a = s.reg a := by
  have hLo : a ≠ Reg.TIME_SNAP_SEC_LO v := Nat.ne_of_lt h
  have hHi : a ≠ Reg.TIME_SNAP_SEC_HI v := Nat.ne_of_lt (h.trans (by unfold Reg.TIME_SNAP_SEC_LO Reg.TIME_SNAP_SEC_HI; omega))
  have hNs : a ≠ Reg.TIME_SNAP_NS v := Nat.ne_of_lt (h.trans (by unfold Reg.TIME_SNAP_SEC_LO Reg.TIME_SNAP_NS; omega))
  have hSub : a ≠ Reg.TIME_SNAP_SUB v := Nat.ne_of_lt (h.trans (by unfold Reg.TIME_SNAP_SEC_LO Reg.TIME_SNAP_SUB; omega))
  rw [snapshot, reg_setReg_ne _ _ hSub, reg_setReg_ne _ _ hNs, reg_setReg_ne _ _ hHi, reg_setReg_ne _ _ hLo]

/-- The registers of a later snapshot lie behind. -/
theorem snapshot_keeps {s : State} {v w : Nat} {d : Instant} (e : Instant) (h : s.SnapShows v d) (hvw : v < w) :
    (s.snapshot w e).SnapShows v d :=
  h.congr fun a _ hhi => reg_snapshot_off s e (by
    simp only [Reg.TIME_SNAP_SUB, Reg.TIME_SNAP_SEC_LO] at hhi ⊢
    omega)

/-- The snapshots of SNAP. -/
def snapshots (s : State) (d0 d1 d2 : Instant) : State := ((s.snapshot 0 d0).snapshot 1 d1).snapshot 2 d2

theorem tb_snapshots (s : State) (d0 d1 d2 : Instant) : (s.snapshots d0 d1 d2).tb = s.tb := by
  simp only [snapshots, snapshot, setReg_tb]

theorem snapshots_show (s : State) (d0 d1 d2 : Instant) :
    (s.snapshots d0 d1 d2).SnapShows 0 d0 ∧ (s.snapshots d0 d1 d2).SnapShows 1 d1 ∧ (s.snapshots d0 d1 d2).SnapShows 2 d2 :=
  ⟨snapshot_keeps d2 (snapshot_keeps d1 (snapshot_shows s 0 d0) (by decide)) (by decide),
    snapshot_keeps d2 (snapshot_shows _ 1 d1) (by decide), snapshot_shows _ 2 d2⟩

/-! ### The commands of a writer that is served -/

/-- The codes of a rate's bounds (R344). -/
def rateCodes (s : State) (x : Nat) : List (Bool × Nat) :=
  [(decide (rateLimit < s.rateArg ∨ s.rateArg < -rateLimit), Code.badArg), (s.domState x == 0 || s.liveSrc x != 0, Code.wrongState)]

/-- The codes of INIT (R342). -/
def initCodes (s : State) (x : Nat) : List (Bool × Nat) :=
  [(decide (999999999 < s.timeArg 0 % 2 ^ 30), Code.badArg), (s.activeDom == x && s.domState x != 0, Code.wrongState)]

/-- RATE's domain. -/
def rateTaken (x : Nat) (s : State) : State := (s.setDom x { s.dom x with rate := s.rateArg, since := s.cycle }).setHoldover x false

/-- SWITCH's effect. -/
def switchTaken (x : Nat) (s : State) : State := if s.activeDom = x then s else (s.switchTo x).showSlew

section
variable {s : State} {who : Ident} (h : s.serves who = true) (x tag : Nat)
include h

theorem exec_timeInit : exec (.timeInit x tag who) s = .next (s.timeCommand who tag (s.initCodes x) fun s => s.initDomain x) :=
  congrArg Host.Outcome.next (served_of_serves h _)

theorem exec_timeStep : exec (.timeStep x tag who) s =
    .next (s.timeCommand who tag [(!s.mayStep x, Code.wrongState)] fun s => (s.stepDomain x s.stepOffset).showSlew) :=
  congrArg Host.Outcome.next (served_of_serves h _)

theorem exec_timeRate : exec (.timeRate x tag who) s = .next (s.timeCommand who tag (s.rateCodes x) (rateTaken x)) :=
  congrArg Host.Outcome.next (served_of_serves h _)

theorem exec_timeLock : exec (.timeLock x tag who) s = .next (s.timeCommand who tag
    [(s.domState x == 0 || s.liveSrc x != 0 || s.flag (Fld.TIME_DOM_STAT_HOLDOVER x), Code.wrongState)] fun s => s.setLocked x true) :=
  congrArg Host.Outcome.next (served_of_serves h _)

theorem exec_timeUnlock : exec (.timeUnlock x tag who) s = .next (s.timeCommand who tag
    [(s.domState x == 0 || s.liveSrc x != 0, Code.wrongState)] fun s => s.setLocked x false) :=
  congrArg Host.Outcome.next (served_of_serves h _)

theorem exec_timeSwitch : exec (.timeSwitch x tag who) s = .next (s.timeCommand who tag
    [(s.domState x == 0, Code.wrongState)] (switchTaken x)) :=
  congrArg Host.Outcome.next (served_of_serves h _)

theorem exec_timeSnap : exec (.timeSnap tag who) s = .next (s.timeCommand who tag []
    fun s => s.snapshots s.tb.line (s.domSnap 0) (s.domSnap 1)) :=
  congrArg Host.Outcome.next (served_of_serves h _)

end

theorem TimeDone.ends {t : State} {code tag c : Nat} (h : t.TimeDone code tag) (hTag : tag < 256) (hc : code % 65536 = c) :
    t.fld Fld.TIME_CMD_RES_RESULT = c ∧ t.fld Fld.TIME_CMD_RES_TAG = tag ∧ t.flag Fld.TIME_CMD_RES_DONE = true :=
  ⟨h.result.trans hc, h.tag.trans (Nat.mod_eq_of_lt hTag), h.done⟩

end Sys2Proof.Machine.State

open Sys2Proof Sys2Proof.Machine Sys2Proof.Machine.State

/-- Settles O49: a command is lost, refused with the code of its failing condition, or its body with the answer. -/
theorem timeCommands : Obligations.TimeCommands := by
  intro s x tag who hServes hx hTag ends same all
  have hInit := exec_timeInit hServes x tag
  have hStep := exec_timeStep hServes x tag
  have hRate := exec_timeRate hServes x tag
  have hLock := exec_timeLock hServes x tag
  have hUnlock := exec_timeUnlock hServes x tag
  have hSwitch := exec_timeSwitch hServes x tag
  have hSnap := exec_timeSnap hServes tag
  have hRefuse {i : Instr} {codes : List (Bool × Nat)} {body : State → State} {code : Nat}
      (hi : exec i s = .next (s.timeCommand who tag codes body)) (hDone : s.flag Fld.TIME_CMD_RES_DONE = true)
      (hFirst : s.took Reg.TIME_CMD = false)
      (hCode : (if s.tclkLost && firstCode codes != Code.badArg then Code.wrongState else firstCode codes) = code)
      (hBad : code = 3 ∨ code = 5) : ends i code same := by
    have hAnswer := timeResult_done (s.taken Reg.TIME_CMD) who tag code
    obtain ⟨hr, ht, hd⟩ := hAnswer.ends hTag (c := code) (by omega)
    exact ⟨_, hi.trans (congrArg Host.Outcome.next (timeCommand_refused hDone hFirst hCode (by rcases hBad with rfl | rfl <;> decide))),
      hr, ht, hd, tb_timeResult ..⟩
  have hRuns {i : Instr} {codes : List (Bool × Nat)} {body : State → State} {post : State → Prop}
      (hi : exec i s = .next (s.timeCommand who tag codes body)) (hDone : s.flag Fld.TIME_CMD_RES_DONE = true)
      (hFirst : s.took Reg.TIME_CMD = false) (hClock : s.tclkLost = false) (hCode : firstCode codes = Code.ok)
      (hPost : post ((body (s.taken Reg.TIME_CMD)).timeResult who tag Code.ok)) : ends i 0 post := by
    obtain ⟨hr, ht, hd⟩ := (timeResult_done (body (s.taken Reg.TIME_CMD)) who tag Code.ok).ends hTag (c := 0) rfl
    exact ⟨_, hi.trans (congrArg Host.Outcome.next (timeCommand_runs hDone hFirst hClock hCode)), hr, ht, hd, hPost⟩
  refine ⟨fun hLost i hi => ?_, fun hDone hFirst hGone => ⟨fun i hi hNotInit hNotRate => ?_, ?_, ?_⟩, fun hDone hFirst hClock => ?_⟩
  · have hSet {codes : List (Bool × Nat)} {body : State → State} (h : exec i s = .next (s.timeCommand who tag codes body)) :
        ∃ t, exec i s = .next t ∧ t.flag Fld.TIME_CMD_RES_LOST = true ∧ same t :=
      ⟨_, h.trans (congrArg Host.Outcome.next (timeCommand_lost hLost)), flag_setFlag_on _ _ rfl rfl, setFlag_tb ..⟩
    simp only [all, List.mem_cons, List.not_mem_nil, or_false] at hi
    rcases hi with rfl | rfl | rfl | rfl | rfl | rfl | rfl
    exacts [hSet hInit, hSet hStep, hSet hRate, hSet hLock, hSet hUnlock, hSet hSwitch, hSet hSnap]
  · have hOne (b : Bool) : (if s.tclkLost && firstCode [(b, Code.wrongState)] != Code.badArg then Code.wrongState
        else firstCode [(b, Code.wrongState)]) = 5 := by
      rw [hGone]
      cases b <;> rfl
    simp only [all, List.mem_cons, List.not_mem_nil, or_false] at hi
    rcases hi with rfl | rfl | rfl | rfl | rfl | rfl | rfl
    · exact absurd rfl hNotInit
    · exact hRefuse hStep hDone hFirst (hOne _) (.inr rfl)
    · exact absurd rfl hNotRate
    · exact hRefuse hLock hDone hFirst (hOne _) (.inr rfl)
    · exact hRefuse hUnlock hDone hFirst (hOne _) (.inr rfl)
    · exact hRefuse hSwitch hDone hFirst (hOne _) (.inr rfl)
    · exact hRefuse hSnap hDone hFirst (by rw [hGone]; rfl) (.inr rfl)
  · by_cases hBad : 999999999 < s.timeArg 0 % 2 ^ 30
    · rw [if_pos hBad]
      exact hRefuse hInit hDone hFirst (by rw [hGone, initCodes, firstCode, decide_eq_true hBad]; rfl) (.inl rfl)
    · rw [if_neg hBad]
      refine hRefuse hInit hDone hFirst ?_ (.inr rfl)
      rw [hGone, initCodes, firstCode, decide_eq_false hBad]
      cases (s.activeDom == x && s.domState x != 0) <;> rfl
  · by_cases hBad : rateLimit < s.rateArg ∨ s.rateArg < -rateLimit
    · rw [if_pos hBad]
      exact hRefuse hRate hDone hFirst (by rw [hGone, rateCodes, firstCode, decide_eq_true hBad]; rfl) (.inl rfl)
    · rw [if_neg hBad]
      refine hRefuse hRate hDone hFirst ?_ (.inr rfl)
      rw [hGone, rateCodes, firstCode, decide_eq_false hBad]
      cases (s.domState x == 0 || s.liveSrc x != 0) <;> rfl
  · have hCodes (codes : List (Bool × Nat)) : (if s.tclkLost && firstCode codes != Code.badArg then Code.wrongState
        else firstCode codes) = firstCode codes := by
      rw [hClock, Bool.false_and, if_neg Bool.false_ne_true]
    have hOff {f : Fld} (hRes : (f.reg == Reg.TIME_CMD_RES) = false) (hCnt : (f.reg == Reg.SYS_WRONG_STATE_CNT) = false) (t : State) :
        (t.timeResult who tag Code.ok).fld f = t.fld f := fld_timeResult_off t who tag Code.ok hRes hCnt
    have hStat (t : State) : (t.timeResult who tag Code.ok).domState x = t.domState x :=
      hOff (by interval_cases x <;> rfl) (by interval_cases x <;> rfl) t
    have hDom (t : State) : (t.timeResult who tag Code.ok).dom x = t.dom x :=
      dom_congr (congrArg TimeBase.domains (tb_timeResult ..)) x
    refine ⟨fun hBad => ?_, fun hArg hOwn hOn => ?_, fun hArg hOff' => ?_, fun hNo => ?_, fun hMay => ?_, fun hBad => ?_,
      fun hLow hHigh hNo => ?_, fun hLow hHigh hOn hSoft => ?_, fun hOn hSoft => ⟨fun hHold => ?_, fun hHold => ?_, ?_⟩,
      fun hOffDom => ⟨?_, ?_, ?_⟩, fun hOn hOther => ?_, ?_⟩
    · exact hRefuse hInit hDone hFirst (by rw [hCodes, initCodes, firstCode, decide_eq_true hBad]; rfl) (.inl rfl)
    · refine hRefuse hInit hDone hFirst ?_ (.inr rfl)
      rw [hCodes, initCodes, firstCode, decide_eq_false (Nat.not_lt.mpr hArg), firstCode, hOwn, bne_iff_ne.mpr hOn, beq_self_eq_true]
      rfl
    · have hCode : firstCode (s.initCodes x) = Code.ok := by
        have hEither : (s.activeDom == x && s.domState x != 0) = false := by
          rw [Bool.and_eq_false_iff, beq_eq_false_iff_ne, bne_eq_false_iff_eq]
          exact hOff'
        rw [initCodes, firstCode, decide_eq_false (Nat.not_lt.mpr hArg), firstCode, hEither]
        rfl
      obtain ⟨hState, hValue, hRate0, hInteg, hLine⟩ := initDomain_spec (s.taken Reg.TIME_CMD) hx hOff'
      refine hRuns hInit hDone hFirst hClock hCode ⟨(hStat _).trans hState, ?_, ?_, ?_, fun hOwn => ?_⟩
      · rw [hDom]
        exact hValue
      · rw [hDom, hRate0]
      · rw [hDom, hInteg]
      · obtain ⟨hTime, hFree⟩ := hLine hOwn
        rw [tb_timeResult, flag_timeResult_off _ _ _ _ rfl rfl]
        exact ⟨hTime, hFree⟩
    · exact hRefuse hStep hDone hFirst (by rw [hCodes, hNo]; rfl) (.inr rfl)
    · obtain ⟨hState, hValue, hOwnLine, hOtherLine⟩ := stepDomain_spec (s.taken Reg.TIME_CMD) hx (s.taken Reg.TIME_CMD).stepOffset
      refine hRuns hStep hDone hFirst hClock (by rw [hMay]; rfl) ⟨(hStat _).trans hState, ?_, ?_, ?_⟩
      · rw [hDom]
        exact hValue
      · rw [tb_timeResult]
        exact hOwnLine
      · rw [tb_timeResult]
        exact hOtherLine
    · exact hRefuse hRate hDone hFirst (by rw [hCodes, rateCodes, firstCode, decide_eq_true hBad]; rfl) (.inl rfl)
    · have hIn : ¬(rateLimit < s.rateArg ∨ s.rateArg < -rateLimit) := by omega
      have hEither : (s.domState x == 0 || s.liveSrc x != 0) = true := by
        rw [Bool.or_eq_true, beq_iff_eq, bne_iff_ne]
        exact hNo
      refine hRefuse hRate hDone hFirst ?_ (.inr rfl)
      rw [hCodes, rateCodes, firstCode, decide_eq_false hIn, firstCode, hEither]
      rfl
    · have hIn : ¬(rateLimit < s.rateArg ∨ s.rateArg < -rateLimit) := by omega
      have hCode : firstCode (s.rateCodes x) = Code.ok := by
        rw [rateCodes, firstCode, decide_eq_false hIn, firstCode, beq_eq_false_iff_ne.mpr hOn, bne_eq_false_iff_eq.mpr hSoft]
        rfl
      refine hRuns hRate hDone hFirst hClock hCode ⟨?_, ?_⟩
      · rw [hDom, rateTaken, dom_congr (congrArg TimeBase.domains (tb_endHoldover ..)) x, dom_setDom]
        rfl
      · rw [flag_timeResult_off _ _ _ _ (by interval_cases x <;> rfl) (by interval_cases x <;> rfl), rateTaken, holdover_endHoldover]
    · have hCode : firstCode [(s.domState x == 0 || s.liveSrc x != 0 || s.flag (Fld.TIME_DOM_STAT_HOLDOVER x), Code.wrongState)] = Code.ok := by
        rw [beq_eq_false_iff_ne.mpr hOn, bne_eq_false_iff_eq.mpr hSoft, hHold]
        rfl
      refine hRuns hLock hDone hFirst hClock hCode ⟨?_, ?_⟩
      · rw [flag_timeResult_off _ _ _ _ (by interval_cases x <;> rfl) (by interval_cases x <;> rfl), locked_setLocked]
      · exact (tb_timeResult ..).trans (tb_setLocked ..)
    · exact hRefuse hLock hDone hFirst (by rw [hCodes, hHold, Bool.or_true]; rfl) (.inr rfl)
    · have hCode : firstCode [(s.domState x == 0 || s.liveSrc x != 0, Code.wrongState)] = Code.ok := by
        rw [beq_eq_false_iff_ne.mpr hOn, bne_eq_false_iff_eq.mpr hSoft]
        rfl
      refine hRuns hUnlock hDone hFirst hClock hCode ⟨?_, ?_⟩
      · rw [flag_timeResult_off _ _ _ _ (by interval_cases x <;> rfl) (by interval_cases x <;> rfl), locked_setLocked]
      · exact (tb_timeResult ..).trans (tb_setLocked ..)
    · exact hRefuse hLock hDone hFirst (by rw [hCodes, hOffDom]; rfl) (.inr rfl)
    · exact hRefuse hUnlock hDone hFirst (by rw [hCodes, hOffDom]; rfl) (.inr rfl)
    · exact hRefuse hSwitch hDone hFirst (by rw [hCodes, hOffDom]; rfl) (.inr rfl)
    · have hCode : firstCode [(s.domState x == 0, Code.wrongState)] = Code.ok := by
        rw [beq_eq_false_iff_ne.mpr hOn]
        rfl
      have hTaken : switchTaken x (s.taken Reg.TIME_CMD) = ((s.taken Reg.TIME_CMD).switchTo x).showSlew := if_neg hOther
      obtain ⟨hActive, hTb, hCount⟩ := switchTo_spec (s.taken Reg.TIME_CMD) hx
      refine hRuns hSwitch hDone hFirst hClock hCode ⟨?_, ?_, ?_⟩
      · rw [hTaken]
        exact (hOff rfl rfl _).trans hActive
      · rw [hTaken]
        exact (tb_timeResult ..).trans hTb
      · rw [hTaken]
        exact (hOff rfl rfl _).trans hCount
    · obtain ⟨h0, h1, h2⟩ := snapshots_show (s.taken Reg.TIME_CMD) s.tb.line (s.domSnap 0) (s.domSnap 1)
      have hShows {t : State} {v : Nat} {d : Instant} (hv : v < 3) (h : t.SnapShows v d) : (t.timeResult who tag Code.ok).SnapShows v d :=
        h.congr fun a hlo hhi => by
          simp only [Reg.TIME_SNAP_SEC_LO, Reg.TIME_SNAP_SUB] at hlo hhi
          refine reg_timeResult_off t who tag Code.ok (beq_eq_false_iff_ne.mpr ?_) (beq_eq_false_iff_ne.mpr ?_)
          · unfold Reg.TIME_CMD_RES
            omega
          · unfold Reg.SYS_WRONG_STATE_CNT
            omega
      refine hRuns hSnap hDone hFirst hClock rfl ⟨?_, fun v d hvd => ?_⟩
      · exact (tb_timeResult ..).trans (tb_snapshots ..)
      · rcases hvd with ⟨rfl, rfl⟩ | ⟨rfl, rfl⟩ | ⟨rfl, rfl⟩
        · exact hShows (by decide) h0
        · exact hShows (by decide) h1
        · exact hShows (by decide) h2

end

section
/-!
PROOF (O52). A reduction unit's commands and samples: the unit's queue and ledger, the registers that count, and the
points that an export writes.
-/

namespace Sys2Proof.Machine

/-! ### A version written into a point -/

theorem Point.cur_written (x : Point) (v : Ver) (e : Nat) : (x.written v none e).cur = .version v := by
  unfold Point.written
  dsimp only
  split <;> simp [Point.cur, Point.inSlot0, Point.inSlot1]

namespace State

/-! ### Registers of a unit -/

/-- The register at `k` of unit `d`'s window is no merge register of an engine. -/
theorem sruReg_ne_merge (d : Nat) {k : Nat} (hlo : 0x1020000 ≤ k) (hhi : k < 0x1100000) (e : Nat) :
    k + d * 0x100000 ≠ Reg.CE_EVT_OVR e := ne_mergeRegister (.inr (.inl (by omega))) e

theorem sruReg_ne_gstat (d : Nat) {k : Nat} (hlo : 0x1020000 ≤ k) : k + d * 0x100000 ≠ Reg.SRU_GSTAT := by
  unfold Reg.SRU_GSTAT
  omega

theorem reg_showSru_ne (s : State) (d : Nat) {a : Nat} (hStat : a ≠ Reg.SRU_STAT d) (hAll : a ≠ Reg.SRU_GSTAT) :
    (s.showSru d).reg a = s.reg a := by
  unfold showSru
  dsimp only
  split
  · rw [reg_setFld_ne _ _ hStat, reg_setFld_ne _ _ hStat]
  · rw [reg_setReg_ne _ _ hAll, reg_setFld_ne _ _ hStat, reg_setFld_ne _ _ hStat]

theorem tb_showSru (s : State) (d : Nat) : (s.showSru d).tb = s.tb := by
  unfold showSru
  dsimp only
  split <;> rfl

theorem out_showSru (s : State) (d : Nat) : (s.showSru d).out = s.out := by
  unfold showSru
  dsimp only
  split <;> rfl

theorem sru_fireDistrict (s : State) (kind index d x : Nat) : (s.fireDistrict kind index d).sru x = s.sru x := by
  have hKeeps : Keeps [.now, .regs, .engines] s (s.fireDistrict kind index d) := .fireDistrict .refl rfl
  rw [sru, hKeeps.frame .srus rfl, sru]

theorem ledger_congr {s t : State} {d : Nat} (h : t.sru d = s.sru d) (n : Nat) : t.ledger d n = s.ledger d n := by
  unfold ledger
  rw [h]

theorem ledger_setLedger (s : State) (d n m : Nat) (l : Ledger) :
    (s.setLedger d n l).ledger d m = if m = n then l else s.ledger d m := by
  rw [ledger, setLedger, sru_setSru_same]
  exact Store.get_set ..

theorem inq_setLedger (s : State) (d n : Nat) (l : Ledger) : ((s.setLedger d n l).sru d).inq = (s.sru d).inq := by
  rw [setLedger, sru_setSru_same]

theorem eosq_setLedger (s : State) (d n : Nat) (l : Ledger) : ((s.setLedger d n l).sru d).eosq = (s.sru d).eosq := by
  rw [setLedger, sru_setSru_same]

end State
end Sys2Proof.Machine
end

section
/-! PROOF (O52). Exports: direct writes of the unit that nothing makes wait. -/

namespace Sys2Proof.Machine.State

/-- Nothing waits in the image controller for `who`, and no pin holds a point. -/
structure ImgIdle (s : State) (who : Ident) : Prop where
  waiting : s.img.waiting = []
  own : s.ownCmd who = false
  pins : ∀ k, k < 8 → s.pinHeld k = false

section
variable {s : State} {who : Ident}

theorem cowNeed_of_idle (h : s.ImgIdle who) (p : Nat) : s.cowNeed p = [] := by
  refine List.filter_eq_nil_iff.mpr fun k hk => ?_
  have hPin := h.pins k (List.mem_range.mp hk)
  rw [pinCovers, hPin]
  simp

theorem cowCopy_of_idle (h : s.ImgIdle who) (p : Nat) : s.cowCopy p = s := by
  rw [cowCopy, cowNeed_of_idle h p]
  rfl

/-- A direct write to point `p` alone. -/
structure WritesPoint (s t : State) (p : Nat) (v : Ver) : Prop where
  cur : (t.point p).cur = .version v
  other : ∀ q, q ≠ p → t.point q = s.point q
  reg : ∀ a, t.reg a = s.reg a
  waiting : t.img.waiting = s.img.waiting
  own : ∀ w, t.ownCmd w = s.ownCmd w
  srus : t.srus = s.srus

theorem putVersion_writes (s : State) (p : Nat) (v : Ver) (e : Nat) : WritesPoint s (s.putVersion p v none e) p v where
  cur := by
    have hPoint : (s.putVersion p v none e).point p = (s.point p).written v none e := Store.get_set_same s.img.points p _
    rw [hPoint, Point.cur_written]
  other q hq := Store.get_set_ne s.img.points _ hq
  reg _ := rfl
  waiting := rfl
  own _ := rfl
  srus := rfl

theorem applyWrite_writes (h : s.ImgIdle who) (p : Nat) (w : Write) : WritesPoint s (s.applyWrite p w) p (s.stamped w) := by
  have hPut := putVersion_writes s p (s.stamped w) s.img.epoch
  unfold applyWrite
  rw [cowCopy_of_idle h]
  dsimp only
  generalize s.putVersion p (s.stamped w) none s.img.epoch = t at hPut
  split
  · rename_i r hRun
    split
    · refine ⟨hPut.cur, hPut.other, hPut.reg, hPut.waiting, fun x => (Eq.trans ?_ (hPut.own x)), hPut.srus⟩
      simp [ownCmd, setImg, hRun]
    · exact hPut
  · exact hPut

theorem request_writes (h : s.ImgIdle who) (p : Nat) (w : Write) :
    WritesPoint s (s.request who (.write p w none)) p (s.stamped w) := by
  have hReady : s.cowReady p = true := by rw [cowReady, cowNeed_of_idle h p]; rfl
  have hTry : s.tryReq who (.write p w none) = some (s.applyWrite p w) := by
    rw [tryReq, tryWrite]
    simp [hReady]
  have hReq : s.request who (.write p w none) = s.applyWrite p w := by
    unfold request
    dsimp only
    rw [h.waiting, h.own, hTry]
    rfl
  rw [hReq]
  exact applyWrite_writes h p w

theorem WritesPoint.idle {t : State} {p : Nat} {v : Ver} (h : s.ImgIdle who) (hw : WritesPoint s t p v) : t.ImgIdle who where
  waiting := hw.waiting.trans h.waiting
  own := (hw.own who).trans h.own
  pins k hk := (flag_of_reg (hw.reg _)).trans (h.pins k hk)

end

/-- The write of offset `k` of an export. -/
def exportWrite (d n : Nat) (l : Ledger) (stamp q : Nat) (s : State) (k : Nat) : State :=
  s.request (s.ident (0xD0 + d))
    (.write (64 * (s.fld (Fld.SRU_EXPORT_BASE64 d) + n) + k)
      { ver := { value := exportValue l k, stamp := stamp, quality := q, user := 0 }, auto := false } none)

/-- The entry with the stamp of its export. -/
def exportMarked (s : State) (d n : Nat) : State :=
  if (s.ledger d n).state = 1 then s.setLedger d n { s.ledger d n with exported := some (s.ledger d n).stamp } else s

/-- STAMP of an export's versions. -/
def exportStamp (s : State) (l : Ledger) : Nat :=
  let base : Int := s.fld Fld.IMG_BASE_SEC_LO_SEC + 2 ^ 32 * s.fld Fld.IMG_BASE_SEC_HI_SEC
  ofSigned 48 (l.stamp / 4 - base * 1000000000)

/-- QUALITY of an export's versions. -/
def exportQuality (l : Ledger) : Nat := bit (l.qsat || l.esat || l.hsat) + 2 * bit l.gap + 4 * bit (l.state == 2)

theorem exportEntry_writes (s : State) (d n : Nat) (hist : Bool) : s.exportEntry d n hist =
    (exportOffsets hist).foldl
      (exportWrite d n (s.ledger d n) ((s.exportMarked d n).exportStamp (s.ledger d n)) (exportQuality (s.ledger d n)))
      (s.exportMarked d n) := by
  unfold exportEntry exportMarked exportStamp exportQuality exportWrite
  rfl

/-- What a list of writes of an export leaves. -/
structure Exported (s t : State) (d n : Nat) (l : Ledger) (ks : List Nat) : Prop where
  shown : ∀ k ∈ ks, ∃ v, (t.point (64 * (s.fld (Fld.SRU_EXPORT_BASE64 d) + n) + k)).cur = .version v ∧ v.value = exportValue l k
  other : ∀ q, (∀ k ∈ ks, q ≠ 64 * (s.fld (Fld.SRU_EXPORT_BASE64 d) + n) + k) → t.point q = s.point q
  reg : ∀ a, t.reg a = s.reg a
  srus : t.srus = s.srus

theorem ident_congr {s t : State} (h : ∀ a, t.reg a = s.reg a) (i : Nat) : t.ident i = s.ident i := by
  have hChip : t.fld Fld.AVE_ID_CHIP = s.fld Fld.AVE_ID_CHIP := fld_of_reg (h _)
  rw [ident, chip, hChip, ident, chip]

theorem foldl_exportWrite {s : State} {d n : Nat} (l : Ledger) (stamp q : Nat) (ks : List Nat)
    (h : s.ImgIdle (s.ident (0xD0 + d))) : Exported s (ks.foldl (exportWrite d n l stamp q) s) d n l ks := by
  induction ks generalizing s with
  | nil => exact ⟨fun _ h => (List.not_mem_nil h).elim, fun _ _ => rfl, fun _ => rfl, rfl⟩
  | cons k ks ih =>
    have hw : WritesPoint s (exportWrite d n l stamp q s k) (64 * (s.fld (Fld.SRU_EXPORT_BASE64 d) + n) + k)
        { value := exportValue l k, stamp := stamp, quality := q, user := 0 } := request_writes h _ _
    rw [List.foldl_cons]
    generalize exportWrite d n l stamp q s k = u at hw
    have hIdle := hw.idle h
    rw [← ident_congr hw.reg (0xD0 + d)] at hIdle
    have hRest := ih hIdle
    have hBase : u.fld (Fld.SRU_EXPORT_BASE64 d) = s.fld (Fld.SRU_EXPORT_BASE64 d) := fld_of_reg (hw.reg _)
    have hOther := hRest.other
    have hShown := hRest.shown
    rw [hBase] at hOther hShown
    refine ⟨fun j hj => ?_, fun p hp => ?_, fun a => (hRest.reg a).trans (hw.reg a), hRest.srus.trans hw.srus⟩
    · by_cases hMem : j ∈ ks
      · exact hShown j hMem
      · obtain rfl : j = k := (List.mem_cons.mp hj).resolve_right hMem
        refine ⟨_, (congrArg Point.cur (hOther _ fun i hi h => hMem ?_)).trans hw.cur, rfl⟩
        have hij : i = j := by omega
        exact hij ▸ hi
    · exact (hOther p fun i hi => hp i (List.mem_cons_of_mem k hi)).trans (hw.other p (hp k List.mem_cons_self))

end Sys2Proof.Machine.State
end

section
/-! PROOF (O52). Samples, commands and the obligation. -/

namespace Sys2Proof.Machine.State

/-! ### Exports -/

theorem srus_ledger {s t : State} (h : t.srus = s.srus) (d n : Nat) : t.ledger d n = s.ledger d n := by
  rw [ledger, sru, h, ledger, sru]

theorem ledger_exportMarked (s : State) (d n m : Nat) : (s.exportMarked d n).ledger d m =
    if m = n then (if (s.ledger d n).state = 1 then { s.ledger d n with exported := some (s.ledger d n).stamp } else s.ledger d n)
    else s.ledger d m := by
  unfold exportMarked
  by_cases hState : (s.ledger d n).state = 1
  · rw [if_pos hState, if_pos hState, ledger_setLedger]
  · rw [if_neg hState, if_neg hState]
    split
    · rename_i h
      rw [h]
    · rfl

theorem inq_exportMarked (s : State) (d n : Nat) : ((s.exportMarked d n).sru d).inq = (s.sru d).inq := by
  unfold exportMarked
  split
  · rw [inq_setLedger]
  · rfl

theorem eosq_exportMarked (s : State) (d n : Nat) : ((s.exportMarked d n).sru d).eosq = (s.sru d).eosq := by
  unfold exportMarked
  split
  · rw [eosq_setLedger]
  · rfl

theorem reg_exportMarked (s : State) (d n a : Nat) : (s.exportMarked d n).reg a = s.reg a := by
  unfold exportMarked
  split <;> rfl

theorem img_exportMarked (s : State) (d n : Nat) : (s.exportMarked d n).img = s.img := by
  unfold exportMarked
  split <;> rfl

theorem ImgIdle.exportMarked {s : State} {who : Ident} (h : s.ImgIdle who) (d n : Nat) : (s.exportMarked d n).ImgIdle who where
  waiting := by rw [img_exportMarked, h.waiting]
  own := by
    have hOwn := h.own
    unfold ownCmd at hOwn ⊢
    rw [img_exportMarked]
    exact hOwn
  pins k hk := (flag_of_reg (reg_exportMarked ..)).trans (h.pins k hk)

/-- An export writes its points, with the entry marked and no register changed. -/
theorem exportEntry_spec {s : State} {d n : Nat} (hist : Bool) (h : s.ImgIdle (s.ident (0xD0 + d))) :
    Exported (s.exportMarked d n) (s.exportEntry d n hist) d n (s.ledger d n) (exportOffsets hist) := by
  rw [exportEntry_writes]
  refine foldl_exportWrite _ _ _ _ ?_
  rw [ident_congr (fun a => reg_exportMarked s d n a) (0xD0 + d)]
  exact h.exportMarked d n

/-! ### Accepted samples -/

/-- What a step's first sample sets, which the end test, the curve and an export leave. -/
structure SameStep (l m : Ledger) : Prop where
  volt : m.volt = l.volt
  curr : m.curr = l.curr
  stamp : m.stamp = l.stamp
  start : m.start = l.start
  step : m.step = l.step
  samples : m.samples = l.samples
  vmin : m.vmin = l.vmin
  vmax : m.vmax = l.vmax

theorem SameStep.refl (l : Ledger) : SameStep l l := ⟨rfl, rfl, rfl, rfl, rfl, rfl, rfl, rfl⟩

theorem SameStep.trans {l m k : Ledger} (h : SameStep l m) (g : SameStep m k) : SameStep l k :=
  ⟨g.volt.trans h.volt, g.curr.trans h.curr, g.stamp.trans h.stamp, g.start.trans h.start, g.step.trans h.step,
    g.samples.trans h.samples, g.vmin.trans h.vmin, g.vmax.trans h.vmax⟩

theorem endStep_sameStep (s : State) (d : Nat) (l : Ledger) (x : Sample) : SameStep l (s.endStep d l x).1 := by
  unfold endStep
  dsimp only
  split
  · exact ⟨rfl, rfl, rfl, rfl, rfl, rfl, rfl, rfl⟩
  · exact ⟨rfl, rfl, rfl, rfl, rfl, rfl, rfl, rfl⟩

theorem keepCurve_sameStep (s : State) (l : Ledger) (x : Sample) (a b c : Bool) : SameStep l (s.keepCurve l x a b c).1 :=
  ⟨rfl, rfl, rfl, rfl, rfl, rfl, rfl, rfl⟩

/-- A unit's queue, one of its entries and its count of accepted samples. -/
structure UnitKept (s t : State) (d n : Nat) : Prop where
  inq : (t.sru d).inq = (s.sru d).inq
  entry : SameStep (s.ledger d n) (t.ledger d n)
  accepted : t.reg (Reg.SRU_CNT2 d) = s.reg (Reg.SRU_CNT2 d)

theorem UnitKept.refl (s : State) (d n : Nat) : UnitKept s s d n := ⟨rfl, .refl _, rfl⟩

theorem UnitKept.trans {s t u : State} {d n : Nat} (h : UnitKept s t d n) (g : UnitKept t u d n) : UnitKept s u d n :=
  ⟨g.inq.trans h.inq, h.entry.trans g.entry, g.accepted.trans h.accepted⟩

theorem UnitKept.of_srus {s t : State} {d n : Nat} (h : t.srus = s.srus) (hReg : t.reg (Reg.SRU_CNT2 d) = s.reg (Reg.SRU_CNT2 d)) :
    UnitKept s t d n :=
  ⟨by rw [sru, h, sru], by rw [srus_ledger h]; exact .refl _, hReg⟩

theorem reg_cowCopy_ne (s : State) (p : Nat) {a : Nat} (h : a ≠ Reg.IMG_COW_STAT) : (s.cowCopy p).reg a = s.reg a := by
  unfold cowCopy
  dsimp only
  split
  · rfl
  · exact (reg_setFld_ne _ _ h).trans rfl

theorem reg_applyWrite_ne (s : State) (p : Nat) (w : Write) {a : Nat} (h : a ≠ Reg.IMG_COW_STAT) :
    (s.applyWrite p w).reg a = s.reg a := by
  have hPut : ((s.cowCopy p).putVersion p (s.stamped w) none s.img.epoch).reg a = s.reg a := reg_cowCopy_ne s p h
  unfold applyWrite
  dsimp only
  generalize (s.cowCopy p).putVersion p (s.stamped w) none s.img.epoch = t at hPut
  split
  · split
    · exact hPut
    · exact hPut
  · exact hPut

theorem reg_request_write_ne (s : State) (who : Ident) (p : Nat) (w : Write) {a : Nat} (h : a ≠ Reg.IMG_COW_STAT) :
    (s.request who (.write p w none)).reg a = s.reg a := by
  have hTry (t : State) (ht : s.tryWrite p w none = some t) : t.reg a = s.reg a := by
    unfold tryWrite at ht
    dsimp only at ht
    rw [if_neg (by decide)] at ht
    split at ht
    · rw [← Option.some.inj ht]
      exact reg_applyWrite_ne s p w h
    · cases ht
  unfold request
  dsimp only
  split
  · rfl
  · split
    · rename_i t ht
      exact hTry t ht
    · rfl

theorem sruReg_ne_cow (d : Nat) {k : Nat} (hlo : 0x1020000 ≤ k) : k + d * 0x100000 ≠ Reg.IMG_COW_STAT := by
  unfold Reg.IMG_COW_STAT
  omega

/-- Requests of the image controller leave the unit. -/
theorem request_unitKept (s : State) (who : Ident) (p : Nat) (w : Write) (d n : Nat) :
    UnitKept s (s.request who (.write p w none)) d n := by
  have hKeeps : Keeps [.now, .regs, .leases, .engines, .red, .img] s (s.request who (.write p w none)) := .request .refl rfl
  exact .of_srus (hKeeps.frame .srus rfl) (reg_request_write_ne s who p w (sruReg_ne_cow d (by decide)))

theorem exportEntry_unitKept (s : State) (d n : Nat) (hist : Bool) : UnitKept s (s.exportEntry d n hist) d n := by
  have hMarked : UnitKept s (s.exportMarked d n) d n := by
    refine ⟨inq_exportMarked s d n, ?_, reg_exportMarked ..⟩
    rw [ledger_exportMarked, if_pos rfl]
    split
    · exact ⟨rfl, rfl, rfl, rfl, rfl, rfl, rfl, rfl⟩
    · exact .refl _
  rw [exportEntry_writes]
  exact List.foldlRecOn (motive := fun t => UnitKept s t d n) _ _ hMarked fun t ht k _ => ht.trans (request_unitKept t _ _ _ d n)

theorem reg_fireDistrict_sru (s : State) (kind index x d : Nat) {k : Nat} (hlo : 0x1020000 ≤ k) (hhi : k < 0x1100000) :
    (s.fireDistrict kind index x).reg (k + d * 0x100000) = s.reg (k + d * 0x100000) :=
  reg_fireIn s kind index _ (sruReg_ne_merge d hlo hhi)

theorem reg_showSru_sru (s : State) (d : Nat) {k : Nat} (hlo : 0x1020000 ≤ k) (hne : k ≠ 0x1020004) :
    (s.showSru d).reg (k + d * 0x100000) = s.reg (k + d * 0x100000) :=
  reg_showSru_ne s d (by unfold Reg.SRU_STAT; omega) (sruReg_ne_gstat d hlo)

theorem stepEnded_unitKept (s : State) (d channel e n : Nat) : UnitKept s (s.stepEnded d channel e) d n := by
  have hFired (t : State) (ht : UnitKept s t d n) : UnitKept s (t.fireDistrict 0x18 0 d) d n :=
    ht.trans ⟨by rw [sru_fireDistrict], by rw [ledger_congr (sru_fireDistrict ..)]; exact .refl _,
      reg_fireDistrict_sru t 0x18 0 d d (by decide) (by decide)⟩
  unfold stepEnded
  dsimp only
  split
  · refine hFired _ (.of_srus rfl (reg_count_ne _ _ ?_))
    simp only [Fld.SRU_CNT1_EOS_DROP, Reg.SRU_CNT1, Reg.SRU_CNT2]
    omega
  · refine hFired _ ⟨?_, ?_, reg_showSru_sru _ d (by decide) (by decide)⟩
    · rw [sru_showSru, sru_setSru_same]
    · rw [ledger_congr (sru_showSru ..), ledger, ledger, sru_setSru_same]
      exact .refl _

/-- The end of an accepted sample: the entry is put back, an end of step is told and an export written. -/
def sampleKept (s : State) (d n channel e : Nat) (hist periodic : Bool) (l : Ledger) : State :=
  let s := s.setLedger d n l
  let s := if e = 0 then s else s.stepEnded d channel e
  if s.flag (Fld.SRU_EXPORT_EN d) then
    if e ≠ 0 then s.exportEntry d n hist else if periodic then s.exportEntry d n false else s
  else s

theorem sampleKept_unitKept (s : State) (d n channel e : Nat) (hist periodic : Bool) (l : Ledger) :
    UnitKept (s.setLedger d n l) (s.sampleKept d n channel e hist periodic l) d n := by
  unfold sampleKept
  dsimp only
  generalize s.setLedger d n l = t
  have hEnd : UnitKept t (if e = 0 then t else t.stepEnded d channel e) d n := by
    split
    · exact .refl ..
    · exact stepEnded_unitKept ..
  generalize (if e = 0 then t else t.stepEnded d channel e) = u at hEnd
  split
  · split
    · exact hEnd.trans (exportEntry_unitKept ..)
    · split
      · exact hEnd.trans (exportEntry_unitKept ..)
      · exact hEnd
  · exact hEnd

/-- The entry of a step's first sample. -/
def firstEntry (s : State) (d n : Nat) (x : Sample) : Ledger :=
  extremes (s.psFld d (startStep (s.ledger d n) x).pset 8 0 32) (startStep (s.ledger d n) x) x s.drawn

/-- The state in which the first sample's end is tested: a slope with no time to it is drawn. -/
def firstDrawn (s : State) (d n : Nat) (x : Sample) : State :=
  if slopeDue (s.psFld d (startStep (s.ledger d n) x).pset 8 0 32) (startStep (s.ledger d n) x) x &&
      x.at' == (startStep (s.ledger d n) x).anchorT then s.draw else s

theorem firstDrawn_unitKept (s : State) (d n : Nat) (x : Sample) : UnitKept s (s.firstDrawn d n x) d n := by
  unfold firstDrawn
  split
  · exact .of_srus rfl rfl
  · exact .refl ..

theorem keepCurve_unitKept (s : State) (l : Ledger) (x : Sample) (a b c : Bool) (d n : Nat) :
    UnitKept s (s.keepCurve l x a b c).2 d n := by
  have hKeeps : Keeps [.now, .regs, .curve] s (s.keepCurve l x a b c).2 := .keepCurve .refl rfl
  refine .of_srus (hKeeps.frame .srus rfl) ?_
  unfold keepCurve through
  dsimp only
  split
  · refine reg_count_ne _ _ ?_
    simp only [Fld.SYS_CLK_STAT_DISCARD_CNT, Reg.SYS_CLK_STAT, Reg.SRU_CNT2]
    omega
  · rfl

/-- The entry and the state after the end test `e` of a sample, with the curve kept where R411 asks for it. -/
def curveOf (s : State) (d : Nat) (x : Sample) (e : Ledger × Nat) : Ledger × State :=
  let keep := s.keepCases d e.1 x (e.2 != 0) false
  if keep.1 || keep.2 then s.keepCurve e.1 x (e.2 != 0) false (!keep.2) else (e.1, s)

theorem curveOf_sameStep (s : State) (d : Nat) (x : Sample) (e : Ledger × Nat) : SameStep e.1 (s.curveOf d x e).1 := by
  unfold curveOf
  dsimp only
  split
  · exact keepCurve_sameStep ..
  · exact .refl _

theorem curveOf_unitKept (s : State) (d : Nat) (x : Sample) (e : Ledger × Nat) (n : Nat) : UnitKept s (s.curveOf d x e).2 d n := by
  unfold curveOf
  dsimp only
  split
  · exact keepCurve_unitKept ..
  · exact .refl ..

/-- A parameter set takes part in the histogram. -/
def histOf (s : State) (d : Nat) (l : Ledger) : Bool := s.psFld d l.pset 0 5 1 == 1

/-- A periodic export is due after a sample. -/
def exportDue (s : State) (d : Nat) (l : Ledger) (x : Sample) (e : Nat) (m : Ledger) : Bool :=
  e == 0 && decide (s.psFld d l.pset 9 0 32 ≠ 0 ∧
    ((s.psFld d l.pset 9 0 32 * 4000000 : Nat) : Int) ≤ x.at' - m.exported.getD m.start)

/-- A first sample accepted, through its stages. -/
theorem acceptSample_first (s : State) (d n : Nat) {x : Sample} (hNew : x.newStep = true) :
    let s0 := s.countReg (Reg.SRU_CNT2 d)
    let l := startStep (s0.ledger d n) x
    let u := s0.firstDrawn d n x
    let e := u.endStep d (s0.firstEntry d n x) x
    let c := u.curveOf d x e
    s.acceptSample d n x = c.2.sampleKept d n x.channel e.2 (s0.histOf d l) (s0.exportDue d l x e.2 c.1) c.1 := by
  intro s0 l u e c
  unfold acceptSample
  simp only [hNew, if_true, Bool.not_true, Bool.and_false, Bool.false_and, Bool.false_eq_true, if_false]
  rfl

theorem acceptSample_first_spec (s : State) (d n : Nat) {x : Sample} (hNew : x.newStep = true) :
    ((s.acceptSample d n x).sru d).inq = (s.sru d).inq ∧
      (s.acceptSample d n x).reg (Reg.SRU_CNT2 d) = s.reg (Reg.SRU_CNT2 d) + 1 ∧
      SameStep ((s.countReg (Reg.SRU_CNT2 d)).firstEntry d n x) ((s.acceptSample d n x).ledger d n) := by
  have hStages := acceptSample_first s d n hNew
  dsimp only at hStages
  rw [hStages]
  have hDrawn := firstDrawn_unitKept (s.countReg (Reg.SRU_CNT2 d)) d n x
  have hEnd := endStep_sameStep ((s.countReg (Reg.SRU_CNT2 d)).firstDrawn d n x) d ((s.countReg (Reg.SRU_CNT2 d)).firstEntry d n x) x
  generalize (s.countReg (Reg.SRU_CNT2 d)).firstDrawn d n x = u at hDrawn hEnd
  generalize u.endStep d ((s.countReg (Reg.SRU_CNT2 d)).firstEntry d n x) x = e at hEnd
  have hCurve := hDrawn.trans (curveOf_unitKept u d x e n)
  have hEntry := hEnd.trans (curveOf_sameStep u d x e)
  generalize u.curveOf d x e = c at hCurve hEntry
  have hTail := sampleKept_unitKept c.2 d n x.channel e.2 ((s.countReg (Reg.SRU_CNT2 d)).histOf d (startStep ((s.countReg (Reg.SRU_CNT2 d)).ledger d n) x))
    ((s.countReg (Reg.SRU_CNT2 d)).exportDue d (startStep ((s.countReg (Reg.SRU_CNT2 d)).ledger d n) x) x e.2 c.1) c.1
  refine ⟨?_, ?_, ?_⟩
  · rw [hTail.inq, inq_setLedger, hCurve.inq]
    rfl
  · rw [hTail.accepted]
    exact hCurve.accepted.trans (reg_setReg_same ..)
  · have hPut := hTail.entry
    rw [ledger_setLedger, if_pos rfl] at hPut
    exact hEntry.trans hPut

/-- The fields of a step's first entry. -/
theorem firstEntry_fields (s : State) (d n : Nat) (x : Sample) :
    let l := s.firstEntry d n x
    l.volt = x.volt ∧ l.curr = x.curr ∧ l.stamp = x.at' ∧ l.start = x.at' ∧ l.step = ((s.ledger d n).step + 1) % 65536 ∧
      l.samples = 1 ∧ l.vmin = x.volt ∧ l.vmax = x.volt :=
  ⟨rfl, rfl, rfl, rfl, rfl, rfl, Nat.min_self _, Nat.max_self _⟩

/-! ### A sample leaves the queue -/

/-- The state after a sample has left the queue for its tests. -/
def sampleLeft (s : State) (d : Nat) (rest : List (List Word)) : State :=
  let x := s.sru d
  let ready := x.owed && decide (rest.length ≤ 32)
  let s1 := (s.setSru d { x with inq := rest, owed := x.owed && !ready, nextSample := s.cycle + 64 }).showSru d
  if ready then s1.fireDistrict 0x19 0 d else s1

theorem sampleLeft_spec (s : State) (d : Nat) (rest : List (List Word)) :
    ((s.sampleLeft d rest).sru d).inq = rest ∧ ((s.sampleLeft d rest).sru d).ledger = (s.sru d).ledger ∧
      (s.sampleLeft d rest).tb = s.tb ∧
      ∀ k, 0x1020000 ≤ k → k < 0x1100000 → k ≠ 0x1020004 →
        (s.sampleLeft d rest).reg (k + d * 0x100000) = s.reg (k + d * 0x100000) := by
  have hFired (t : State) : (t.fireDistrict 0x19 0 d).tb = t.tb := by
    have hKeeps : Keeps [.now, .regs, .engines] t (t.fireDistrict 0x19 0 d) := .fireDistrict .refl rfl
    exact hKeeps.frame .tb rfl
  unfold sampleLeft
  dsimp only
  split
  · rw [sru_fireDistrict, sru_showSru, sru_setSru_same, hFired, tb_showSru]
    refine ⟨rfl, rfl, rfl, fun k hlo hhi hne => ?_⟩
    rw [reg_fireDistrict_sru _ _ _ _ _ hlo hhi, reg_showSru_sru _ _ hlo hne]
    rfl
  · rw [sru_showSru, sru_setSru_same, tb_showSru]
    refine ⟨rfl, rfl, rfl, fun k hlo hhi hne => ?_⟩
    rw [reg_showSru_sru _ _ hlo hne]
    rfl

theorem fault_sampleLeft (s : State) (d : Nat) (rest : List (List Word)) :
    (s.sampleLeft d rest).flag (Fld.SRU_STAT_FAULT d) = s.flag (Fld.SRU_STAT_FAULT d) := by
  have hShown (t : State) : (t.showSru d).reg (Reg.SRU_STAT d) =
      ((t.setFld (Fld.SRU_STAT_INQ d) (t.sru d).inq.length).setFld (Fld.SRU_STAT_EOSQ d) (t.sru d).eosq.length).reg (Reg.SRU_STAT d) := by
    unfold showSru
    dsimp only
    split
    · rfl
    · exact reg_setReg_ne _ _ (sruReg_ne_gstat d (k := 0x1020004) (by decide))
  have hFault (t : State) : (t.showSru d).flag (Fld.SRU_STAT_FAULT d) = t.flag (Fld.SRU_STAT_FAULT d) :=
    (flag_of_reg (hShown t)).trans ((flag_setFld_off _ _ rfl).trans (flag_setFld_off _ _ rfl))
  unfold sampleLeft
  dsimp only
  split
  · have hFired (t : State) : (t.fireDistrict 0x19 0 d).flag (Fld.SRU_STAT_FAULT d) = t.flag (Fld.SRU_STAT_FAULT d) :=
      flag_of_reg (reg_fireDistrict_sru t 0x19 0 d d (k := 0x1020004) (by decide) (by decide))
    rw [hFired, hFault]
    rfl
  · rw [hFault]
    rfl

theorem sampleOf_congr {s t : State} (h : t.tb = s.tb) (d : Nat) (ws : List Word) : t.sampleOf d ws = s.sampleOf d ws := by
  have hTime : t.repeaterTime d = s.repeaterTime d := by
    unfold repeaterTime repeater
    rw [h]
  unfold sampleOf
  rw [hTime]

section
variable {s : State} {d : Nat} {ws : List Word} {rest : List (List Word)} (hRun : s.inReset = false)
include hRun

theorem exec_sample_none (h : (s.sru d).inq = []) : exec (.sampleProcessing d false) s = .next s := by
  refine congrArg Host.Outcome.next ((live_of_running hRun _).trans ?_)
  dsimp only
  rw [h]

theorem exec_sample_waits (h : s.sruStall d = true ∨ s.cycle < (s.sru d).nextSample) :
    exec (.sampleProcessing d false) s = .next s := by
  refine congrArg Host.Outcome.next ((live_of_running hRun _).trans ?_)
  dsimp only
  split
  · rfl
  · exact if_pos h

theorem exec_sample_takes (hInq : (s.sru d).inq = ws :: rest) (hStall : s.sruStall d = false)
    (hTime : (s.sru d).nextSample ≤ s.cycle) :
    exec (.sampleProcessing d false) s = .next ((s.sampleLeft d rest).takeSample d false ws) := by
  have hNow : ¬(s.sruStall d = true ∨ s.cycle < (s.sru d).nextSample) := by
    rw [hStall]
    exact fun h => h.elim Bool.false_ne_true fun h => absurd h (Nat.not_lt.mpr hTime)
  refine congrArg Host.Outcome.next ((live_of_running hRun _).trans ?_)
  dsimp only
  rw [hInq]
  dsimp only
  rw [if_neg hNow]
  rfl

end

theorem takeSample_owned {s : State} {d : Nat} {ws : List Word} (hEn : s.fld (Fld.SRU_CTRL_EN d) = 1)
    (hFault : s.flag (Fld.SRU_STAT_FAULT d) = false) : s.takeSample d false ws =
      if (s.sampleOf d ws).channel / 16384 ≠ d then s.count (Fld.SRU_CNT0_NOT_OWNED d)
      else if (s.sampleOf d ws).bad then s.count (Fld.SRU_CNT0_BAD d)
      else s.testEntry d ((s.sampleOf d ws).channel % 16384) (s.sampleOf d ws) := by
  have hOn : ¬(s.fld (Fld.SRU_CTRL_EN d) = 0 ∨ s.flag (Fld.SRU_STAT_FAULT d) = true) := by
    rw [hEn, hFault]
    decide
  unfold takeSample
  dsimp only
  rw [if_neg hOn]
  rfl

theorem testEntry_free {s : State} {d n : Nat} {x : Sample} (h : (s.ledger d n).state = 0) : s.testEntry d n x =
    if x.newStep = false then s.count (Fld.SRU_CNT0_NO_STEP d) else s.acceptSample d n x := by
  unfold testEntry
  dsimp only
  rw [h, if_neg (fun h => absurd h.1 (by decide))]
  by_cases hNew : x.newStep = false
  · rw [if_pos ⟨rfl, hNew⟩, if_pos hNew]
  · rw [if_neg (fun h => hNew h.2), if_neg (fun h => hNew h.2), if_neg (fun h => hNew h.2), if_neg hNew]

/-! ### Ledger commands -/

section
variable {s : State} {who : Ident} {d code : Nat} (hSru : s.variant.hasSru = true) (hd : d < s.variant.districts)
  (hWho : Ident.isHost who = true ∨ Ident.isSup who = true)
include hSru hd hWho

theorem ledgerCommand_eq (f : State → State) : s.ledgerCommand who d code f =
    s.oneAtATime (Reg.SRU_CMD d) (!s.flag (Fld.SRU_CMD_RES_DONE d)) (Fld.SRU_CMD_RES_LOST d) fun s =>
      ((if code = Code.ok then f s else s).setFld (Fld.SRU_CMD_RES_RESULT d) code).countCode who code := by
  have hWriter : s.sruWriter who d = true := by
    rw [sruWriter]
    rcases hWho with h | h <;> simp [h]
  rw [ledgerCommand, if_neg (by rw [hSru, decide_eq_true hd]; decide), hWriter, Bool.not_true, if_neg Bool.false_ne_true]

end

theorem result_ledgerCommand (s : State) (who : Ident) (d code : Nat) :
    ((s.setFld (Fld.SRU_CMD_RES_RESULT d) code).countCode who code).fld (Fld.SRU_CMD_RES_RESULT d) = code % 65536 := by
  have hNe : (Fld.SRU_CMD_RES_RESULT d).reg ≠ Reg.SYS_WRONG_STATE_CNT := by
    simp only [Fld.SRU_CMD_RES_RESULT, Reg.SRU_CMD_RES, Reg.SYS_WRONG_STATE_CNT]
    omega
  rw [fld_countCode_off _ _ _ (beq_eq_false_iff_ne.mpr hNe), fld_setFld_on _ _ rfl]
  rfl

theorem srus_countCode (s : State) (who : Ident) (code : Nat) : (s.countCode who code).srus = s.srus := by
  unfold countCode
  split <;> rfl

/-- The code of EXPORT. -/
def exportCode (s : State) (d : Nat) : Nat := if s.flag (Fld.SRU_EXPORT_EN d) then Code.ok else Code.wrongState

theorem img_countCode (s : State) (who : Ident) (code : Nat) : (s.countCode who code).img = s.img := by
  unfold countCode
  split <;> rfl

theorem point_congr {s t : State} (h : t.img = s.img) (p : Nat) : t.point p = s.point p := by
  rw [point, h, point]

/-- The registers of a latch. -/
def latchRegs (d : Nat) (s : State) (ws : List (Word × Nat)) : State := ws.foldl (fun s w => s.setReg (Reg.SRU_LATCH d w.2) w.1) s

theorem latchRegs_srus (d : Nat) (s : State) (ws : List (Word × Nat)) : (s.latchRegs d ws).srus = s.srus :=
  List.foldlRecOn (motive := fun (t : State) => t.srus = s.srus) ws _ rfl fun _ ht _ _ => ht

theorem reg_latchRegs_ne (d : Nat) (s : State) (ws : List (Word × Nat)) {a : Nat} (h : ∀ w ∈ ws, a ≠ Reg.SRU_LATCH d w.2) :
    (s.latchRegs d ws).reg a = s.reg a :=
  List.foldlRecOn (motive := fun (t : State) => t.reg a = s.reg a) ws _ rfl fun _ ht w hw => (reg_setReg_ne _ _ (h w hw)).trans ht

/-- Word `i` of a list from number `k` on is in its latch register. -/
theorem reg_latchRegs (d : Nat) (s : State) (ws : List Word) (k : Nat) {i : Nat} {w : Word} (hw : ws[i]? = some w) :
    (latchRegs d s (ws.zipIdx k)).reg (Reg.SRU_LATCH d (k + i)) = w := by
  induction ws generalizing s k i with
  | nil => cases hw
  | cons v vs ih =>
    rw [List.zipIdx_cons]
    cases i with
    | zero =>
      obtain rfl : v = w := Option.some.inj hw
      refine (reg_latchRegs_ne d (s.setReg (Reg.SRU_LATCH d k) v) (vs.zipIdx (k + 1)) fun p hp => ?_).trans (reg_setReg_same ..)
      have hIdx := (List.mem_zipIdx hp).1
      unfold Reg.SRU_LATCH
      omega
    | succ j =>
      have hNext := ih (s.setReg (Reg.SRU_LATCH d k) v) (k + 1) (i := j) hw
      rw [show k + (j + 1) = k + 1 + j by omega]
      exact hNext

/-- LATCH's effect. -/
def latchShown (d n : Nat) (s : State) : State := s.latchRegs d (latchWords (s.ledger d n)).zipIdx

section
variable {s : State} {who : Ident} (h : s.serves who = true) (d n : Nat)
include h

theorem exec_sruExport : exec (.sruExport who d n) s =
    .next (s.ledgerCommand who d (s.exportCode d) fun s => s.exportEntry d n true) :=
  congrArg Host.Outcome.next (served_of_serves h _)

theorem exec_clear : exec (.clear who d n) s = .next (s.ledgerCommand who d Code.ok fun s => s.setLedger d n {}) :=
  congrArg Host.Outcome.next (served_of_serves h _)

theorem exec_latch : exec (.latch who d n) s = .next (s.ledgerCommand who d Code.ok (latchShown d n)) :=
  congrArg Host.Outcome.next (served_of_serves h _)

end

end Sys2Proof.Machine.State

open Sys2Proof Sys2Proof.Machine Sys2Proof.Machine.State

/-- Settles O52: a sample's test or its step's first entry, and each command's effect. -/
theorem reductionUnits : Obligations.ReductionUnits := by
  intro s who d n c e en ws hRun hSru hd hn x y l done
  have hLive (g : State → State) : s.live g = g s := live_of_running hRun g
  have hUnit : ¬(!s.variant.hasSru || !decide (d < s.variant.districts)) = true := by rw [hSru, decide_eq_true hd]; decide
  refine ⟨exec_sample_none hRun, exec_sample_waits hRun, fun rest hInq hStall hTime => ?_, fun hAsks hServes => ?_,
    fun hServes rest hEos => ?_, ?_⟩
  · intro takes
    obtain ⟨hRest, hLedger, hTb, hRegs⟩ := sampleLeft_spec s d rest
    have hTakes := exec_sample_takes hRun hInq hStall hTime
    have hOf := sampleOf_congr hTb d ws
    have hEntry (m : Nat) : (s.sampleLeft d rest).ledger d m = s.ledger d m := by
      unfold ledger
      rw [hLedger]
    have hCnt0 {f : Fld} (h : f.reg = Reg.SRU_CNT0 d) : (s.sampleLeft d rest).fld f = s.fld f :=
      fld_of_reg (h ▸ hRegs 0x1020040 (by decide) (by decide) (by decide))
    have hCnt3 {f : Fld} (h : f.reg = Reg.SRU_CNT3 d) : (s.sampleLeft d rest).fld f = s.fld f :=
      fld_of_reg (h ▸ hRegs 0x102004c (by decide) (by decide) (by decide))
    have hEn : (s.sampleLeft d rest).fld (Fld.SRU_CTRL_EN d) = s.fld (Fld.SRU_CTRL_EN d) :=
      fld_of_reg (hRegs 0x1020000 (by decide) (by decide) (by decide))
    have hAcc : (s.sampleLeft d rest).reg (Reg.SRU_CNT2 d) = s.reg (Reg.SRU_CNT2 d) :=
      hRegs 0x1020048 (by decide) (by decide) (by decide)
    have hFlt := fault_sampleLeft s d rest
    generalize s.sampleLeft d rest = u at hRest hLedger hTakes hOf hEntry hCnt0 hCnt3 hEn hAcc hFlt
    refine ⟨fun hOff => ?_, fun hOn hFault => ?_⟩
    · have hDrop : u.takeSample d false ws = u.count (Fld.SRU_CNT3_OFF_DROP d) := if_pos (.inl (hEn.trans hOff))
      rw [hDrop] at hTakes
      exact ⟨_, hTakes, hRest, hLedger, (fld_count_on _ _ rfl).trans (by rw [hCnt3 rfl]; rfl)⟩
    · have hTest := takeSample_owned (ws := ws) (hEn.trans hOn) (hFlt.trans hFault)
      rw [hOf] at hTest
      rw [hTest] at hTakes
      refine ⟨fun hOther => ?_, fun hOwn hBad => ?_, fun hOwn hGood hFree hOld => ?_, fun hOwn hGood hFree hNew => ?_⟩
      · rw [if_pos hOther] at hTakes
        exact ⟨_, hTakes, hRest, hLedger, (fld_count_on _ _ rfl).trans (by rw [hCnt0 rfl]; rfl)⟩
      · rw [if_neg (fun h => h hOwn), if_pos hBad] at hTakes
        exact ⟨_, hTakes, hRest, hLedger, (fld_count_on _ _ rfl).trans (by rw [hCnt0 rfl]; rfl)⟩
      · rw [if_neg (fun h => h hOwn), if_neg (by rw [hGood]; exact Bool.false_ne_true),
          testEntry_free ((congrArg Ledger.state (hEntry _)).trans hFree), if_pos hOld] at hTakes
        exact ⟨_, hTakes, hRest, hLedger, (fld_count_on _ _ rfl).trans (by rw [hCnt0 rfl]; rfl)⟩
      · rw [if_neg (fun h => h hOwn), if_neg (by rw [hGood]; exact Bool.false_ne_true),
          testEntry_free ((congrArg Ledger.state (hEntry _)).trans hFree), if_neg (by rw [hNew]; decide)] at hTakes
        obtain ⟨hInq', hCount, hStep⟩ := acceptSample_first_spec u d (y.channel % 16384) hNew
        obtain ⟨hVolt, hCurr, hStamp, hStart, hNext, hSamples, hMin, hMax⟩ :=
          firstEntry_fields (u.countReg (Reg.SRU_CNT2 d)) d (y.channel % 16384) y
        refine ⟨_, hTakes, hInq'.trans hRest, hCount.trans (congrArg (· + 1) hAcc), hStep.volt.trans hVolt, hStep.curr.trans hCurr,
          hStep.stamp.trans hStamp, hStep.start.trans hStart, hStep.step.trans (hNext.trans ?_), hStep.samples.trans hSamples,
          hStep.vmin.trans hMin, hStep.vmax.trans hMax⟩
        have hSame : (u.countReg (Reg.SRU_CNT2 d)).ledger d (y.channel % 16384) = l := hEntry _
        rw [hSame]
  · have hWho : Ident.isHost who = true ∨ Ident.isSup who = true := by
      simp only [asks, Bool.and_eq_true, Bool.or_eq_true] at hAsks
      exact hAsks.2
    have hServed (g : State → State) : s.served who g = g s := served_of_serves hServes g
    have hCmd (code : Nat) (f : State → State) := ledgerCommand_eq (s := s) (code := code) hSru hd hWho f
    have hWriter : s.sruWriter who d = true := by
      rw [sruWriter]
      rcases hWho with h | h <;> simp [h]
    refine ⟨?_, fun hBusy i hi => ?_, fun hDone hFirst => ⟨?_, ?_, fun hNoExp => ?_, fun hExp hWait hOwn hPins => ?_⟩⟩
    · exact ⟨_, congrArg Host.Outcome.next ((hServed _).trans ((if_neg hUnit).trans (if_pos hWriter))), flag_setFlag_on _ _ rfl rfl⟩
    · have hLost {code : Nat} {f : State → State} {i : Instr} (h : exec i s = .next (s.ledgerCommand who d code f)) :
          ∃ t, exec i s = .next t ∧ t.flag (Fld.SRU_CMD_RES_LOST d) = true ∧ t.sru d = x := by
        refine ⟨_, h.trans (congrArg Host.Outcome.next ((hCmd code f).trans (oneAtATime_lost ?_ _))), flag_setFlag_on _ _ rfl rfl, rfl⟩
        refine hBusy.imp_left fun h => ?_
        rw [flag, h]
        rfl
      simp only [List.mem_cons, List.not_mem_nil, or_false] at hi
      rcases hi with rfl | rfl | rfl
      exacts [hLost (exec_sruExport hServes d n), hLost (exec_clear hServes d n), hLost (exec_latch hServes d n)]
    all_goals
      have hIdle : (!s.flag (Fld.SRU_CMD_RES_DONE d)) = false := by
        rw [flag, hDone]
        rfl
      have hOk (f : State → State) : s.ledgerCommand who d Code.ok f =
          ((f (s.taken (Reg.SRU_CMD d))).setFld (Fld.SRU_CMD_RES_RESULT d) Code.ok).countCode who Code.ok :=
        (hCmd Code.ok f).trans ((oneAtATime_first hIdle hFirst _).trans (by rw [if_pos rfl]))
    · refine ⟨_, (exec_clear hServes d n).trans (congrArg Host.Outcome.next (hOk _)), result_ledgerCommand .., ?_⟩
      rw [srus_ledger (srus_countCode ..)]
      exact (ledger_setLedger (s.taken (Reg.SRU_CMD d)) d n n {}).trans (if_pos rfl)
    · refine ⟨_, (exec_latch hServes d n).trans (congrArg Host.Outcome.next (hOk _)), result_ledgerCommand .., ?_, fun i w hw => ?_⟩
      · rw [sru, srus_countCode]
        exact congrArg (fun m => Store.get (fun _ => {}) m d) (latchRegs_srus ..)
      · have hCnt : Reg.SRU_LATCH d i ≠ Reg.SYS_WRONG_STATE_CNT := by
          unfold Reg.SRU_LATCH Reg.SYS_WRONG_STATE_CNT
          omega
        have hRes : Reg.SRU_LATCH d i ≠ (Fld.SRU_CMD_RES_RESULT d).reg := by
          simp only [Reg.SRU_LATCH, Fld.SRU_CMD_RES_RESULT, Reg.SRU_CMD_RES]
          omega
        rw [reg_countCode_ne _ _ _ hCnt, reg_setFld_ne _ _ hRes]
        have hLatch := reg_latchRegs d (s.taken (Reg.SRU_CMD d)) (State.latchWords (s.ledger d n)) 0 hw
        rw [Nat.zero_add] at hLatch
        exact hLatch
    · have hCode : s.exportCode d = 5 := by
        rw [exportCode, hNoExp]
        rfl
      have hRefused : s.ledgerCommand who d 5 (fun s => s.exportEntry d n true) =
          ((s.taken (Reg.SRU_CMD d)).setFld (Fld.SRU_CMD_RES_RESULT d) 5).countCode who 5 :=
        (hCmd 5 _).trans ((oneAtATime_first hIdle hFirst _).trans (by rw [if_neg (by decide)]))
      have hExec := exec_sruExport hServes d n
      rw [hCode, hRefused] at hExec
      exact ⟨_, hExec, result_ledgerCommand .., img_countCode ..⟩
    · have hCode : s.exportCode d = Code.ok := by
        rw [exportCode, hExp]
        rfl
      have hIdleImg : (s.taken (Reg.SRU_CMD d)).ImgIdle ((s.taken (Reg.SRU_CMD d)).ident (0xD0 + d)) := ⟨hWait, hOwn, hPins⟩
      have hSpec := exportEntry_spec true hIdleImg (n := n)
      have hExec := exec_sruExport hServes d n
      rw [hCode, hOk] at hExec
      have hEntry (m : Nat) : ((s.taken (Reg.SRU_CMD d)).exportMarked d n).ledger d m = if m = n then (if (s.ledger d n).state = 1 then
          { s.ledger d n with exported := some (s.ledger d n).stamp } else s.ledger d n) else s.ledger d m := ledger_exportMarked ..
      have hInq := inq_exportMarked (s.taken (Reg.SRU_CMD d)) d n
      have hEosq := eosq_exportMarked (s.taken (Reg.SRU_CMD d)) d n
      have hBase : ((s.taken (Reg.SRU_CMD d)).exportMarked d n).fld (Fld.SRU_EXPORT_BASE64 d) = s.fld (Fld.SRU_EXPORT_BASE64 d) :=
        fld_of_reg (reg_exportMarked ..)
      have hShown := hSpec.shown
      rw [hBase] at hShown
      have hSrus := hSpec.srus
      generalize (s.taken (Reg.SRU_CMD d)).exportMarked d n = m at hSrus hEntry hInq hEosq
      generalize (s.taken (Reg.SRU_CMD d)).exportEntry d n true = u at hExec hShown hSrus
      have hAll := (srus_countCode (u.setFld (Fld.SRU_CMD_RES_RESULT d) Code.ok) who Code.ok).trans (Eq.trans rfl hSrus)
      have hSame : ((u.setFld (Fld.SRU_CMD_RES_RESULT d) Code.ok).countCode who Code.ok).sru d = m.sru d := by
        rw [sru, hAll, sru]
      refine ⟨_, hExec, result_ledgerCommand .., ?_, ?_, fun k hk => ?_, ?_, fun k hk => ?_⟩
      · rw [hSame]
        exact hInq
      · rw [hSame]
        exact hEosq
      · rw [srus_ledger hAll, hEntry, if_neg hk]
      · rw [srus_ledger hAll, hEntry, if_pos rfl]
      · rw [point_congr (img_countCode ..)]
        exact hShown k hk
  · have hTake : s.takeEos d = (BitVec.ofNat 32 (c + 2 ^ 17 * e + 2 ^ 31), (s.setSru d { s.sru d with eosq := rest }).showSru d) := by
      unfold takeEos
      rw [show (s.sru d).eosq = (c, e) :: rest from hEos]
    have hExec : exec (.sruEosQRead who d) s =
        .next ((s.takeEos d).2.emit (.readData who (Reg.SRU_EOS_Q d) (s.takeEos d).1.toNat)) :=
      congrArg Host.Outcome.next ((served_of_serves hServes _).trans (if_neg hUnit))
    rw [hTake] at hExec
    refine ⟨_, hExec, ?_, ?_⟩
    · rw [sru_emit, sru_showSru, sru_setSru_same]
    · have hOut := out_showSru (s.setSru d { s.sru d with eosq := rest }) d
      exact congrArg (List.cons _) hOut
  · have hHas : (s.variant.hasSru && decide (d < s.variant.districts)) = true := by rw [hSru, decide_eq_true hd]; rfl
    refine ⟨_, congrArg Host.Outcome.next ((hLive _).trans (if_pos hHas)), ?_, rfl⟩
    have hNe : (Fld.SRU_STAT_FAULT d).reg ≠ Reg.SRU_GSTAT := sruReg_ne_gstat d (k := 0x1020004) (by decide)
    rw [flag_setReg_off _ _ (beq_eq_false_iff_ne.mpr hNe), flag_setFlag_on _ _ rfl rfl]

end

section
/-!
PROOF (O53). The twin unit's commands: registers of the unit's window that the stop of engines and the count of pairs leave,
the two ways a pair is formed and dissolved, and a member declared failed.
-/

namespace Sys2Proof.Machine.State

/-! ### Registers of the window, kept -/

/-- A register of the twin unit's window. -/
def inRed (a : Nat) : Prop := 0x800000 ≤ a ∧ a < 0x900000

theorem reg_holdEngine_red {s : State} {e a : Nat} (hLeases : s.leases = []) (he : e < 96) (ha : inRed a) :
    (s.holdEngine e).reg a = s.reg a := by
  obtain ⟨hlo, hhi⟩ := ha
  have hNone : ∀ l ∈ s.leases, l.holder ≠ s.ident (0x10 + e) := by
    rw [hLeases]
    exact fun l hl => (List.not_mem_nil hl).elim
  have hDb : a ≠ Reg.MBX_DB (16 + e) := by unfold Reg.MBX_DB; omega
  have hMask : a ≠ Reg.MBX_DBMASK (16 + e) := by unfold Reg.MBX_DBMASK; omega
  have hStat : a ≠ Reg.CE_STAT e := by unfold Reg.CE_STAT engBase; omega
  have hCtrl : a ≠ Reg.CE_CTRL e := by unfold Reg.CE_CTRL engBase; omega
  rw [holdEngine_leaseless hNone, reg_setReg_ne _ _ hMask, reg_setReg_ne _ _ hDb, reg_endImgOf_false _ _ (by omega), reg_clearStation]
  unfold stopEngine
  dsimp only
  rw [reg_setFld_ne _ _ hStat, reg_setFld_ne _ _ hStat, reg_setEng, reg_setFlag_ne _ _ hCtrl]

theorem leases_holdEngine {s : State} (e : Nat) (hLeases : s.leases = []) : (s.holdEngine e).leases = [] := by
  have hNone : ∀ l ∈ s.leases, l.holder ≠ s.ident (0x10 + e) := by
    rw [hLeases]
    exact fun l hl => (List.not_mem_nil hl).elim
  rw [holdEngine_leaseless hNone, setReg_leases, setReg_leases]
  exact leases_endImgOf _ _ _ hLeases

theorem red_holdEngine (s : State) (e : Nat) : (s.holdEngine e).red = s.red := by
  have hKeeps : Keeps [.now, .regs, .shadow, .leases, .engines, .districts, .ave, .xing, .ports, .cans, .img, .channels, .island,
    .notices] s (s.holdEngine e) := .holdEngine .refl rfl
  exact hKeeps.frame .red rfl

theorem variant_holdEngine (s : State) (e : Nat) : (s.holdEngine e).variant = s.variant := by
  have hKeeps : Keeps [.now, .regs, .shadow, .leases, .engines, .districts, .ave, .xing, .ports, .cans, .img, .channels, .island,
    .notices] s (s.holdEngine e) := .holdEngine .refl rfl
  exact hKeeps.variant

/-- The unit's registers and state, and no lease: what the stop of engines leaves of it. -/
structure TwinHeld (s t : State) : Prop where
  reg : ∀ a, inRed a → t.reg a = s.reg a
  red : t.red = s.red
  leases : t.leases = []
  variant : t.variant = s.variant

theorem TwinHeld.hold {s t : State} {e : Nat} (h : TwinHeld s t) (he : e < 96) : TwinHeld s (t.holdEngine e) where
  reg a ha := (reg_holdEngine_red h.leases he ha).trans (h.reg a ha)
  red := (red_holdEngine t e).trans h.red
  leases := leases_holdEngine e h.leases
  variant := (variant_holdEngine t e).trans h.variant

theorem reg_setMode_ne (s : State) (m : Nat) {a : Nat} (h : a ≠ Reg.SYS_MODE) (hTrans : a ≠ Reg.SYS_MODE) : (s.setMode m).reg a = s.reg a := by
  unfold setMode countWrap
  rw [reg_setFld_ne _ _ h, reg_setFlag_ne _ _ h, reg_setFld_ne _ _ hTrans, reg_setFld_ne _ _ h, reg_setFld_ne _ _ h]

/-- The counts of pairs and the mode that follows them leave the other registers. -/
theorem reg_followTwins_ne (s : State) {a : Nat} (hStat : a ≠ Reg.RED_STAT) (hMode : a ≠ Reg.SYS_MODE) :
    s.followTwins.reg a = s.reg a := by
  unfold followTwins
  dsimp only
  split
  · rw [reg_setMode_ne _ _ hMode hMode, reg_setFlag_ne _ _ hMode, reg_setFld_ne _ _ hStat, reg_setFld_ne _ _ hStat, reg_setFld_ne _ _ hStat,
      reg_setFld_ne _ _ hStat]
  · split
    · rw [reg_setMode_ne _ _ hMode hMode, reg_setFlag_ne _ _ hMode, reg_setFld_ne _ _ hStat, reg_setFld_ne _ _ hStat,
        reg_setFld_ne _ _ hStat, reg_setFld_ne _ _ hStat]
    · rw [reg_setFlag_ne _ _ hMode, reg_setFld_ne _ _ hStat, reg_setFld_ne _ _ hStat, reg_setFld_ne _ _ hStat, reg_setFld_ne _ _ hStat]

theorem red_followTwins (s : State) : s.followTwins.red = s.red := by
  have hKeeps : Keeps [.now, .regs] s s.followTwins := .followTwins .refl rfl
  exact hKeeps.frame .red rfl

theorem variant_followTwins (s : State) : s.followTwins.variant = s.variant := by
  have hKeeps : Keeps [.now, .regs] s s.followTwins := .followTwins .refl rfl
  exact hKeeps.variant

/-! ### Pairs -/

theorem pair_congr {s t : State} (h : t.red = s.red) (p : Nat) : t.pair p = s.pair p := by
  rw [pair, h, pair]

theorem pair_setPair (s : State) (p : Nat) (x : Pair) : (s.setPair p x).pair p = x := Store.get_set_same s.red.pairs p x

theorem reg_setPair (s : State) (p : Nat) (x : Pair) (a : Nat) : (s.setPair p x).reg a = s.reg a := rfl

/-- A pair as its registers and the unit's state show it. -/
theorem pairState_of_reg {s t : State} {p : Nat} (h : t.reg (Reg.RED_PSTAT p) = s.reg (Reg.RED_PSTAT p)) :
    t.pairState p = s.pairState p := fld_of_reg h

theorem inForce_of_reg {s t : State} {p m : Nat} (h : t.reg (Reg.RED_PSTAT p) = s.reg (Reg.RED_PSTAT p)) :
    t.inForce p m = s.inForce p m := by
  have hFailed : t.flag (failedFld p m) = s.flag (failedFld p m) := by
    unfold failedFld
    split
    · exact flag_of_reg h
    · exact flag_of_reg h
  rw [inForce, pairState_of_reg h, hFailed, inForce]

/-- LANTERN registers cleared. -/
def clearLanterns (s : State) (es : List Nat) : State := es.foldl (fun s e => s.setReg (Reg.RED_LANT e) 0) s

theorem red_clearLanterns (s : State) (es : List Nat) : (s.clearLanterns es).red = s.red :=
  List.foldlRecOn (motive := fun (t : State) => t.red = s.red) es _ rfl fun _ ht _ _ => ht

theorem reg_clearLanterns (s : State) (es : List Nat) {a : Nat} (h : a < 0x800800) : (s.clearLanterns es).reg a = s.reg a :=
  List.foldlRecOn (motive := fun (t : State) => t.reg a = s.reg a) es _ rfl fun _ ht e _ =>
    (reg_setReg_ne _ _ (by unfold Reg.RED_LANT; omega)).trans ht

end Sys2Proof.Machine.State
end

section
/-! PROOF (O53). The bodies of the commands and the obligation. -/

namespace Sys2Proof.Machine.State

/-! ### The answer -/

/-- A command's body answered. -/
def redAnswered (t : State) (who : Ident) (tag code : Nat) : State :=
  ((t.setFld Fld.RED_CMD_RES_RESULT code).setFld Fld.RED_CMD_RES_TAG tag).countCode who code

theorem red_countCode (s : State) (who : Ident) (code : Nat) : (s.countCode who code).red = s.red := by
  unfold countCode
  split <;> rfl

theorem red_redAnswered (t : State) (who : Ident) (tag code : Nat) : (t.redAnswered who tag code).red = t.red := red_countCode ..

theorem reg_redAnswered_ne (t : State) (who : Ident) (tag code : Nat) {a : Nat} (hRes : a ≠ Reg.RED_CMD_RES)
    (hCnt : a ≠ Reg.SYS_WRONG_STATE_CNT) : (t.redAnswered who tag code).reg a = t.reg a := by
  rw [redAnswered, reg_countCode_ne _ _ _ hCnt, reg_setFld_ne _ _ hRes, reg_setFld_ne _ _ hRes]

/-- The result of a command whose body leaves DONE. -/
theorem redAnswered_ends {t : State} (who : Ident) {tag code : Nat} (hDone : t.flag Fld.RED_CMD_RES_DONE = true) (hTag : tag < 256)
    (hCode : code % 65536 = code) : (t.redAnswered who tag code).fld Fld.RED_CMD_RES_RESULT = code ∧
      (t.redAnswered who tag code).fld Fld.RED_CMD_RES_TAG = tag ∧ (t.redAnswered who tag code).flag Fld.RED_CMD_RES_DONE = true := by
  refine ⟨?_, ?_, ?_⟩
  · rw [redAnswered, fld_countCode_off _ _ _ rfl, fld_setFld_off _ _ rfl, fld_setFld_on _ _ rfl]
    exact hCode
  · rw [redAnswered, fld_countCode_off _ _ _ rfl, fld_setFld_on _ _ rfl]
    exact Nat.mod_eq_of_lt hTag
  · rw [redAnswered, flag_countCode_off _ _ _ rfl, flag_setFld_off _ _ rfl, flag_setFld_off _ _ rfl, hDone]

section
variable {s : State} {who : Ident} {tag : Nat} {body : State → Nat × State} (hAsks : s.asks who = true)
  (hTwin : s.variant.hasTwin = true)
include hAsks hTwin

theorem redCommand_eq : s.redCommand who tag body =
    s.oneAtATime Reg.RED_CMD (!s.flag Fld.RED_CMD_RES_DONE) Fld.RED_CMD_RES_LOST fun s =>
      (body s).2.redAnswered who tag (body s).1 := by
  have hRun : s.inReset = false := by
    simp only [asks, Bool.and_eq_true, Bool.not_eq_true'] at hAsks
    exact hAsks.1.1
  unfold redCommand
  rw [hTwin, Bool.not_true, if_neg Bool.false_ne_true]
  exact (live_of_running hRun _).symm.trans (hostWrite_of_asks hAsks _ _)

theorem redCommand_lost (h : s.flag Fld.RED_CMD_RES_DONE = false ∨ s.took Reg.RED_CMD = true) :
    s.redCommand who tag body = s.setFlag Fld.RED_CMD_RES_LOST true :=
  (redCommand_eq hAsks hTwin).trans (oneAtATime_lost (h.imp_left fun h => by rw [h]; rfl) _)

theorem redCommand_runs (hDone : s.flag Fld.RED_CMD_RES_DONE = true) (hFirst : s.took Reg.RED_CMD = false) :
    s.redCommand who tag body = (body (s.taken Reg.RED_CMD)).2.redAnswered who tag (body (s.taken Reg.RED_CMD)).1 :=
  (redCommand_eq hAsks hTwin).trans (oneAtATime_first (by rw [hDone]; rfl) hFirst _)

end

/-! ### The bodies -/

/-- PAIR's body. -/
def pairBody (s : State) : Nat × State :=
  let p := s.argPair
  let remote := if (s.reg Reg.RED_ARG1).getLsbD 9 then some (fieldGet (s.reg Reg.RED_ARG1) 6 3) else none
  let code := firstCode
    [(remote.isSome && !s.variant.hasWilern, Code.absent), (s.pairBad p remote, Code.badArg),
      (s.mode != Mode.load, Code.wrongState)]
  (code, if code = Code.ok then s.formPair p remote else s)

/-- UNPAIR's body. -/
def unpairBody (s : State) : Nat × State :=
  let code := firstCode [(decide (s.variant.pairs ≤ s.argPair), Code.badArg), (s.mode != Mode.load, Code.wrongState)]
  (code, if code = Code.ok then s.dissolve s.argPair else s)

/-- RESYNC's body. -/
def resyncBody (s : State) : Nat × State := (Code.ok, s.resetFlow (fieldGet (s.reg Reg.RED_ARG1) 0 12))

/-- RECLAIM's body. -/
def reclaimBody (s : State) : Nat × State :=
  let h := (s.reg Reg.RED_ARG0).toNat
  let q := handleParts h
  if q.1 = 0 ∨ 8 < q.1 then (Code.badArg, s)
  else
    match s.leaseOf q.1 q.2.1 q.2.2 with
    | some l => (Code.ok, s.reclaim l)
    | none => (Code.wrongState, s)

/-- FAIL's body. -/
def failBody (s : State) : Nat × State :=
  let code := firstCode
    [(decide (s.variant.pairs ≤ s.argPair), Code.badArg),
      (s.mode == Mode.load || !s.inForce s.argPair s.argSlot, Code.wrongState)]
  (code, if code = Code.ok then s.declareSlot s.argPair s.argSlot 4 else s)

/-- CKPT_LOAD's body. -/
def ckptBody (s : State) : Nat × State :=
  let code := firstCode
    [(decide (s.variant.pairs ≤ s.argPair ∨ 32 ≤ 2 * s.argPair + s.argSlot) || s.pairState s.argPair == 0 ||
        s.isRemote s.argPair s.argSlot || !s.mramValid s.argPair s.argSlot, Code.badArg),
      (s.mode != Mode.load, Code.wrongState)]
  (code, if code = Code.ok then s.loadCheckpoint s.argPair s.argSlot else s)

section
variable {s : State} {who : Ident} (h : s.serves who = true) (tag : Nat)
include h

theorem exec_pair : exec (.pair who tag) s = .next (s.redCommand who tag pairBody) :=
  congrArg Host.Outcome.next (served_of_serves h _)
theorem exec_unpair : exec (.unpair who tag) s = .next (s.redCommand who tag unpairBody) :=
  congrArg Host.Outcome.next (served_of_serves h _)
theorem exec_resync : exec (.resync who tag) s = .next (s.redCommand who tag resyncBody) :=
  congrArg Host.Outcome.next (served_of_serves h _)
theorem exec_reclaim : exec (.reclaim who tag) s = .next (s.redCommand who tag reclaimBody) :=
  congrArg Host.Outcome.next (served_of_serves h _)
theorem exec_fail : exec (.fail who tag) s = .next (s.redCommand who tag failBody) :=
  congrArg Host.Outcome.next (served_of_serves h _)
theorem exec_ckptLoad : exec (.ckptLoad who tag) s = .next (s.redCommand who tag ckptBody) :=
  congrArg Host.Outcome.next (served_of_serves h _)

end

/-! ### PAIR and UNPAIR -/

/-- The engines that a body stops. -/
def holdAll (s : State) (es : List Nat) : State := es.foldl (fun s x => s.holdEngine x) s

theorem holdAll_held {s : State} (es : List Nat) (hLeases : s.leases = []) (h : ∀ e ∈ es, e < 96) : TwinHeld s (s.holdAll es) :=
  List.foldlRecOn (motive := fun (t : State) => TwinHeld s t) es _ ⟨fun _ _ => rfl, rfl, hLeases, rfl⟩ fun _ ht e he => ht.hold (h e he)

/-- A local pair formed of the engines of RED_ARG0. -/
theorem formPair_local (s : State) (p : Nat) : s.formPair p none =
    (((((s.holdAll (s.pairArgs.1.2.toList ++ s.pairArgs.2.2.toList)).setPair p
      { slot0 := { engine := some s.pairArgs.1.1, spare := s.pairArgs.1.2 }
        slot1 := { engine := some s.pairArgs.2.1, spare := s.pairArgs.2.2 }, remote := none }).setReg (Reg.RED_PAIR p)
        ((s.holdAll (s.pairArgs.1.2.toList ++ s.pairArgs.2.2.toList)).reg Reg.RED_ARG0)).setReg (Reg.RED_PSTAT p)
        (BitVec.ofNat 32 1)).clearLanterns
          ((s.pairArgs.1.2.toList ++ s.pairArgs.2.2.toList) ++ [s.pairArgs.1.1] ++ [s.pairArgs.2.1])).followTwins := rfl

theorem argPair_lt (s : State) : s.argPair < 64 := fieldGet_lt _ 0 6

/-- The engines of a pair that may be formed are present. -/
theorem hasEngine_of_pairGood {s : State} {p : Nat} (h : s.pairBad p none = false) :
    ∀ e ∈ s.pairArgs.1.1 :: s.pairArgs.1.2.toList ++ (s.pairArgs.2.1 :: s.pairArgs.2.2.toList), s.hasEngine e = true := by
  intro e he
  simp only [pairBad, Bool.or_eq_false_iff] at h
  obtain ⟨⟨⟨⟨⟨⟨⟨⟨⟨⟨_, _⟩, hAny⟩, _⟩, _⟩, _⟩, _⟩, _⟩, _⟩, _⟩, _⟩ := h
  have hNot := (List.any_eq_false.mp hAny) e he
  cases hHas : s.hasEngine e
  · exact absurd (by rw [hHas]; rfl) hNot
  · rfl

/-- What PAIR leaves of pair `p`, and the command's register. -/
theorem formPair_spec {s : State} {p : Nat} (hp : p < 64) (hLeases : s.leases = []) (hGood : s.pairBad p none = false) :
    (s.formPair p none).reg (Reg.RED_PSTAT p) = BitVec.ofNat 32 1 ∧ (s.formPair p none).reg (Reg.RED_PAIR p) = s.reg Reg.RED_ARG0 ∧
      (s.formPair p none).reg Reg.RED_CMD_RES = s.reg Reg.RED_CMD_RES ∧
      (s.formPair p none).pair p = { slot0 := { engine := some s.pairArgs.1.1, spare := s.pairArgs.1.2 }
                                     slot1 := { engine := some s.pairArgs.2.1, spare := s.pairArgs.2.2 }, remote := none } := by
  have hAll := hasEngine_of_pairGood hGood
  have hSpares : ∀ e ∈ s.pairArgs.1.2.toList ++ s.pairArgs.2.2.toList, e < 96 := by
    intro e he
    refine lt_96_of_hasEngine (hAll e ?_)
    rcases List.mem_append.mp he with h | h
    · exact List.mem_append_left _ (List.mem_cons_of_mem _ h)
    · exact List.mem_append_right _ (List.mem_cons_of_mem _ h)
  have hHeld := holdAll_held _ hLeases hSpares
  rw [formPair_local]
  generalize s.holdAll (s.pairArgs.1.2.toList ++ s.pairArgs.2.2.toList) = u at hHeld
  have hLow {a : Nat} (ha : inRed a) (hlt : a < 0x800800) (hStat : a ≠ Reg.RED_STAT) (v : State) (es : List Nat) :
      (v.clearLanterns es).followTwins.reg a = v.reg a := by
    have hMode : a ≠ Reg.SYS_MODE := by
      have hge := ha.1
      unfold Reg.SYS_MODE
      omega
    rw [reg_followTwins_ne _ hStat hMode, reg_clearLanterns _ _ hlt]
  have hPair : inRed (Reg.RED_PAIR p) ∧ Reg.RED_PAIR p < 0x800800 ∧ Reg.RED_PAIR p ≠ Reg.RED_STAT := by
    unfold inRed Reg.RED_PAIR Reg.RED_STAT
    omega
  have hPstat : inRed (Reg.RED_PSTAT p) ∧ Reg.RED_PSTAT p < 0x800800 ∧ Reg.RED_PSTAT p ≠ Reg.RED_STAT := by
    unfold inRed Reg.RED_PSTAT Reg.RED_STAT
    omega
  have hApart : Reg.RED_PAIR p ≠ Reg.RED_PSTAT p := by
    unfold Reg.RED_PAIR Reg.RED_PSTAT
    omega
  have hCmd : inRed Reg.RED_CMD_RES ∧ Reg.RED_CMD_RES < 0x800800 ∧ Reg.RED_CMD_RES ≠ Reg.RED_STAT := by
    unfold inRed Reg.RED_CMD_RES Reg.RED_STAT
    omega
  have hCmdPair : Reg.RED_CMD_RES ≠ Reg.RED_PAIR p := by
    unfold Reg.RED_CMD_RES Reg.RED_PAIR
    omega
  have hCmdPstat : Reg.RED_CMD_RES ≠ Reg.RED_PSTAT p := by
    unfold Reg.RED_CMD_RES Reg.RED_PSTAT
    omega
  refine ⟨?_, ?_, ?_, ?_⟩
  · rw [hLow hPstat.1 hPstat.2.1 hPstat.2.2, reg_setReg_same]
  · rw [hLow hPair.1 hPair.2.1 hPair.2.2, reg_setReg_ne _ _ hApart, reg_setReg_same]
    exact hHeld.reg _ (by unfold inRed Reg.RED_ARG0; omega)
  · rw [hLow hCmd.1 hCmd.2.1 hCmd.2.2, reg_setReg_ne _ _ hCmdPstat, reg_setReg_ne _ _ hCmdPair, reg_setPair]
    exact hHeld.reg _ hCmd.1
  · rw [pair_congr (red_followTwins _), pair_congr (red_clearLanterns _ _), pair_congr (setReg_red ..), pair_congr (setReg_red ..),
      pair_setPair]

/-- The engines of pair `p` that UNPAIR stops. -/
def pairEngines (s : State) (p : Nat) : List Nat :=
  let x := s.pair p
  x.slot0.engine.toList ++ x.slot0.spare.toList ++ x.slot0.was.toList ++
    (if x.remote.isSome then [] else x.slot1.engine.toList ++ x.slot1.spare.toList ++ x.slot1.was.toList)

/-- The stop of those engines that are present. -/
def holdPresent (s : State) (es : List Nat) : State := es.foldl (fun s e => if s.hasEngine e then s.holdEngine e else s) s

theorem holdPresent_held {s : State} (es : List Nat) (hLeases : s.leases = []) : TwinHeld s (s.holdPresent es) := by
  refine List.foldlRecOn (motive := fun (t : State) => TwinHeld s t) es _ ⟨fun _ _ => rfl, rfl, hLeases, rfl⟩ fun t ht e _ => ?_
  split
  · rename_i h
    exact ht.hold (lt_96_of_hasEngine h)
  · exact ht

theorem dissolve_eq (s : State) (p : Nat) : s.dissolve p =
    ((((s.holdPresent (s.pairEngines p).dedup).setPair p {}).setReg (Reg.RED_PAIR p) 0).setReg (Reg.RED_PSTAT p) 0).followTwins := rfl

theorem dissolve_spec {s : State} {p : Nat} (hp : p < 64) (hLeases : s.leases = []) :
    (s.dissolve p).reg (Reg.RED_PSTAT p) = 0 ∧ (s.dissolve p).reg (Reg.RED_PAIR p) = 0 ∧
      (s.dissolve p).reg Reg.RED_CMD_RES = s.reg Reg.RED_CMD_RES ∧ (s.dissolve p).pair p = {} := by
  have hHeld := holdPresent_held (s.pairEngines p).dedup hLeases
  rw [dissolve_eq]
  generalize s.holdPresent (s.pairEngines p).dedup = u at hHeld
  have hPair : Reg.RED_PAIR p ≠ Reg.RED_STAT ∧ Reg.RED_PAIR p ≠ Reg.SYS_MODE := by
    unfold Reg.RED_PAIR Reg.RED_STAT Reg.SYS_MODE
    omega
  have hPstat : Reg.RED_PSTAT p ≠ Reg.RED_STAT ∧ Reg.RED_PSTAT p ≠ Reg.SYS_MODE := by
    unfold Reg.RED_PSTAT Reg.RED_STAT Reg.SYS_MODE
    omega
  have hApart : Reg.RED_PAIR p ≠ Reg.RED_PSTAT p := by
    unfold Reg.RED_PAIR Reg.RED_PSTAT
    omega
  have hCmdPair : Reg.RED_CMD_RES ≠ Reg.RED_PAIR p := by
    unfold Reg.RED_CMD_RES Reg.RED_PAIR
    omega
  have hCmdPstat : Reg.RED_CMD_RES ≠ Reg.RED_PSTAT p := by
    unfold Reg.RED_CMD_RES Reg.RED_PSTAT
    omega
  refine ⟨?_, ?_, ?_, ?_⟩
  · rw [reg_followTwins_ne _ hPstat.1 hPstat.2, reg_setReg_same]
  · rw [reg_followTwins_ne _ hPair.1 hPair.2, reg_setReg_ne _ _ hApart, reg_setReg_same]
  · rw [reg_followTwins_ne _ (by decide) (by decide), reg_setReg_ne _ _ hCmdPstat, reg_setReg_ne _ _ hCmdPair, reg_setPair]
    exact hHeld.reg _ (by unfold inRed Reg.RED_CMD_RES; omega)
  · rw [pair_congr (red_followTwins _), pair_congr (setReg_red ..), pair_congr (setReg_red ..), pair_setPair]

/-! ### FAIL -/

/-- What a declaration's later steps leave: the slot's FAILED bit, the count of declarations and DONE. -/
structure DeclKept (s t : State) (p m : Nat) : Prop where
  failed : t.flag (failedFld p m) = s.flag (failedFld p m)
  declared : t.fld Fld.RED_CNT1_DECLARED = s.fld Fld.RED_CNT1_DECLARED
  done : t.flag Fld.RED_CMD_RES_DONE = s.flag Fld.RED_CMD_RES_DONE

theorem DeclKept.refl (s : State) (p m : Nat) : DeclKept s s p m := ⟨rfl, rfl, rfl⟩

theorem DeclKept.trans {s t u : State} {p m : Nat} (h : DeclKept s t p m) (g : DeclKept t u p m) : DeclKept s u p m :=
  ⟨g.failed.trans h.failed, g.declared.trans h.declared, g.done.trans h.done⟩

theorem failedFld_reg (p m : Nat) : (failedFld p m).reg = Reg.RED_PSTAT p := by
  unfold failedFld
  split <;> rfl

/-- Where the three registers are left. -/
theorem DeclKept.of_regs {s t : State} {p m : Nat} (hPstat : t.reg (Reg.RED_PSTAT p) = s.reg (Reg.RED_PSTAT p))
    (hCnt : t.reg Reg.RED_CNT1 = s.reg Reg.RED_CNT1) (hRes : t.reg Reg.RED_CMD_RES = s.reg Reg.RED_CMD_RES) : DeclKept s t p m :=
  ⟨flag_of_reg (by rw [failedFld_reg]; exact hPstat), fld_of_reg hCnt, flag_of_reg hRes⟩

namespace DeclKept

variable {s t : State} {p m : Nat}

theorem keep_regs {u : State} (h : DeclKept s t p m) (hPstat : u.reg (Reg.RED_PSTAT p) = t.reg (Reg.RED_PSTAT p))
    (hCnt : u.reg Reg.RED_CNT1 = t.reg Reg.RED_CNT1) (hRes : u.reg Reg.RED_CMD_RES = t.reg Reg.RED_CMD_RES) : DeclKept s u p m :=
  h.trans (.of_regs hPstat hCnt hRes)

theorem setPairSlot {q j : Nat} {x : PairSlot} (h : DeclKept s t p m) : DeclKept s (t.setPairSlot q j x) p m :=
  h.keep_regs rfl rfl rfl

theorem followTwins (hp : p < 64) (h : DeclKept s t p m) : DeclKept s t.followTwins p m := by
  have hStat : Reg.RED_PSTAT p ≠ Reg.RED_STAT := by unfold Reg.RED_PSTAT Reg.RED_STAT; omega
  have hMode : Reg.RED_PSTAT p ≠ Reg.SYS_MODE := by unfold Reg.RED_PSTAT Reg.SYS_MODE; omega
  exact h.keep_regs (reg_followTwins_ne _ hStat hMode) (reg_followTwins_ne _ (by decide) (by decide))
    (reg_followTwins_ne _ (by decide) (by decide))

theorem setState (hp : p < 64) (st : Nat) (h : DeclKept s t p m) : DeclKept s (t.setFld (Fld.RED_PSTAT_STATE p) st) p m := by
  have hCnt : Reg.RED_CNT1 ≠ Reg.RED_PSTAT p := by unfold Reg.RED_PSTAT Reg.RED_CNT1; omega
  have hRes : Reg.RED_CMD_RES ≠ Reg.RED_PSTAT p := by unfold Reg.RED_PSTAT Reg.RED_CMD_RES; omega
  refine h.trans ⟨?_, fld_of_reg (reg_setFld_ne _ _ hCnt), flag_of_reg (reg_setFld_ne _ _ hRes)⟩
  unfold failedFld
  split
  · exact flag_setFld_off _ _ rfl
  · exact flag_setFld_off _ _ rfl

theorem setPairState (hp : p < 64) {st : Nat} (h : DeclKept s t p m) : DeclKept s (t.setPairState p st) p m :=
  followTwins hp (setState hp st h)

theorem redNote (hp : p < 64) {q j : Nat} (h : DeclKept s t p m) : DeclKept s (t.redNote q j) p m := by
  have hFire {a : Nat} (ha : a < 0x1010000) (e : Nat) : (t.fireEngine 0x1C 0 e).reg a = t.reg a :=
    reg_fireIn t 0x1C 0 _ (ne_mergeRegister (.inl ha))
  unfold State.redNote
  split
  · split
    · exact h
    · exact h.keep_regs (hFire (by unfold Reg.RED_PSTAT; omega) _) (hFire (by decide) _) (hFire (by decide) _)
  · exact h

theorem setLantern (hp : p < 64) {f : Fld} {b : Bool} (hf : 0x800800 ≤ f.reg) (h : DeclKept s t p m) : DeclKept s (t.setFlag f b) p m := by
  refine h.keep_regs (reg_setFlag_ne _ _ ?_) (reg_setFlag_ne _ _ ?_) (reg_setFlag_ne _ _ ?_)
  · unfold Reg.RED_PSTAT
    omega
  · unfold Reg.RED_CNT1
    omega
  · unfold Reg.RED_CMD_RES
    omega

end DeclKept

/-- The first step of a declaration: the slot fails, and is counted. -/
def declareMark (s : State) (p m cause : Nat) : State :=
  let e := (s.pairSlot p m).engine.getD 0
  let s := s.setFlag (failedFld p m) true
  let s := s.setReg Reg.RED_LAST (BitVec.ofNat 32 (e + 2 ^ 8 * cause + 2 ^ 16 * p + 2 ^ 22 * m))
  (s.count Fld.RED_CNT1_DECLARED).notify (.declared e)

/-- The second step: the other member is told. -/
def declareTell (s : State) (p m : Nat) : State :=
  if s.inForce p (1 - m) && !s.isRemote p (1 - m) then s.redNote p (1 - m) else s

/-- The last step: the pair's state, or the failed engine's register. -/
def declareShow (s : State) (p m e : Nat) : State :=
  if s.isRemote p m then
    if s.inForce p 0 then s.setPairState p 2
    else (s.setPairSlot p 0 { s.pairSlot p 0 with joinBy := none }).setPairState p 4
  else ((s.setFlag (Fld.RED_LANT_FAILED e) true).setFlag (Fld.RED_LANT_MON e) false).followTwins

theorem declareSlot_steps (s : State) (p m cause : Nat) : ∃ x : PairSlot, s.declareSlot p m cause =
    (((s.declareMark p m cause).declareTell p m).setPairSlot p m x).declareShow p m ((s.pairSlot p m).engine.getD 0) := ⟨_, rfl⟩

theorem declareShow_declKept (s : State) {p : Nat} (m e : Nat) (hp : p < 64) : DeclKept s (s.declareShow p m e) p m := by
  have hLant : 0x800800 ≤ Reg.RED_LANT e := by unfold Reg.RED_LANT; omega
  have hFailed : 0x800800 ≤ (Fld.RED_LANT_FAILED e).reg := hLant
  have hMon : 0x800800 ≤ (Fld.RED_LANT_MON e).reg := hLant
  unfold declareShow
  split
  · split
    · exact .setPairState hp (.refl s p m)
    · exact .setPairState hp (.setPairSlot (.refl s p m))
  · exact .followTwins hp (.setLantern hp hMon (.setLantern hp hFailed (.refl s p m)))

theorem declareTell_declKept (s : State) {p : Nat} (m : Nat) (hp : p < 64) : DeclKept s (s.declareTell p m) p m := by
  unfold declareTell
  split
  · exact .redNote hp (.refl s p m)
  · exact .refl ..

theorem failed_on (s : State) (p m : Nat) : (s.setFlag (failedFld p m) true).flag (failedFld p m) = true := by
  unfold failedFld
  split
  · exact flag_setFlag_on _ _ rfl rfl
  · exact flag_setFlag_on _ _ rfl rfl

theorem declareMark_marks (s : State) {p : Nat} (m cause : Nat) (hp : p < 64) :
    (s.declareMark p m cause).flag (failedFld p m) = true ∧
      (s.declareMark p m cause).fld Fld.RED_CNT1_DECLARED = min 255 (s.fld Fld.RED_CNT1_DECLARED + 1) ∧
      (s.declareMark p m cause).flag Fld.RED_CMD_RES_DONE = s.flag Fld.RED_CMD_RES_DONE := by
  have hCnt : Reg.RED_CNT1 ≠ Reg.RED_PSTAT p := by unfold Reg.RED_PSTAT Reg.RED_CNT1; omega
  have hRes : Reg.RED_CMD_RES ≠ Reg.RED_PSTAT p := by unfold Reg.RED_PSTAT Reg.RED_CMD_RES; omega
  have hLast : Reg.RED_PSTAT p ≠ Reg.RED_LAST := by unfold Reg.RED_PSTAT Reg.RED_LAST; omega
  have hOn := failed_on s p m
  have hKept {a : Nat} (h : a ≠ Reg.RED_PSTAT p) : (s.setFlag (failedFld p m) true).reg a = s.reg a :=
    reg_setFlag_ne _ _ (by rw [failedFld_reg]; exact h)
  unfold declareMark
  dsimp only
  generalize s.setFlag (failedFld p m) true = u at hOn hKept
  generalize BitVec.ofNat 32 ((s.pairSlot p m).engine.getD 0 + 2 ^ 8 * cause + 2 ^ 16 * p + 2 ^ 22 * m) = v
  refine ⟨?_, ?_, ?_⟩
  · have hReg : ((u.setReg Reg.RED_LAST v).count Fld.RED_CNT1_DECLARED).reg (Reg.RED_PSTAT p) = u.reg (Reg.RED_PSTAT p) :=
      (reg_count_ne _ _ hCnt.symm).trans (reg_setReg_ne _ _ hLast)
    have hFlag : ((u.setReg Reg.RED_LAST v).count Fld.RED_CNT1_DECLARED).flag (failedFld p m) = u.flag (failedFld p m) :=
      flag_of_reg (by rw [failedFld_reg]; exact hReg)
    rw [flag_notify, hFlag, hOn]
  · have hSame : u.fld Fld.RED_CNT1_DECLARED = s.fld Fld.RED_CNT1_DECLARED := fld_of_reg (hKept hCnt)
    rw [fld_notify, fld_count_on _ _ rfl, fld_setReg_off _ _ rfl, hSame]
    rfl
  · rw [flag_notify, flag_count_off _ _ rfl, flag_setReg_off _ _ rfl, flag_of_reg (hKept hRes)]

theorem declareSlot_spec (s : State) {p : Nat} (m cause : Nat) (hp : p < 64) :
    (s.declareSlot p m cause).flag (failedFld p m) = true ∧ (s.declareSlot p m cause).inForce p m = false ∧
      (s.declareSlot p m cause).fld Fld.RED_CNT1_DECLARED = min 255 (s.fld Fld.RED_CNT1_DECLARED + 1) ∧
      (s.declareSlot p m cause).flag Fld.RED_CMD_RES_DONE = s.flag Fld.RED_CMD_RES_DONE := by
  obtain ⟨x, hSteps⟩ := declareSlot_steps s p m cause
  obtain ⟨hFailed, hCount, hDone⟩ := declareMark_marks s m cause hp
  rw [hSteps]
  generalize s.declareMark p m cause = u at hFailed hCount hDone
  have hTell := (declareTell_declKept u m hp).setPairSlot (q := p) (j := m) (x := x)
  generalize (u.declareTell p m).setPairSlot p m x = v at hTell
  have hShow := hTell.trans (declareShow_declKept v m ((s.pairSlot p m).engine.getD 0) hp)
  refine ⟨hShow.failed.trans hFailed, ?_, hShow.declared.trans hCount, hShow.done.trans hDone⟩
  rw [inForce, hShow.failed, hFailed, Bool.not_true, Bool.and_false]

/-! ### RESYNC and RECLAIM -/

/-- A store without the entries of some keys. -/
theorem get_filter {V : Type} (dflt : Nat → V) (q : Nat → Bool) (l : Store V) (j : Nat) :
    Store.get dflt (l.filter fun p => q p.1) j = if q j then Store.get dflt l j else dflt j := by
  induction l with
  | nil => split <;> rfl
  | cons p l ih =>
    obtain ⟨a, x⟩ := p
    by_cases ha : q a = true
    · by_cases haj : a = j
      · subst haj
        simp [ha, Store.get]
      · simpa [ha, haj, Store.get] using ih
    · by_cases haj : a = j
      · subst haj
        simpa [ha] using ih
      · simpa [ha, haj, Store.get] using ih

theorem flowCtx_resetFlow (s : State) {flow : Nat} (hFlow : flow < 4096) :
    (∀ k, (s.resetFlow flow).flowCtx k flow = none) ∧
      ∀ k f, f < 4096 → f ≠ flow → (s.resetFlow flow).flowCtx k f = s.flowCtx k f := by
  have hGet (j : Nat) := get_filter (fun _ => none) (fun k => k % 4096 != flow) s.red.flows j
  refine ⟨fun k => (hGet (k * 4096 + flow)).trans (if_neg ?_), fun k f hf hne => (hGet (k * 4096 + f)).trans (if_pos ?_)⟩
  · rw [bne_iff_ne, not_not]
    omega
  · rw [bne_iff_ne]
    omega

/-- A reclaim recorded at an engine leaves the leases and DONE. -/
theorem recordReclaim_kept (s : State) (e h : Nat) : ((s.recordReclaim e h).showHeld e).leases = s.leases ∧
    ((s.recordReclaim e h).showHeld e).reg Reg.RED_CMD_RES = s.reg Reg.RED_CMD_RES := by
  have hKeeps : Keeps [.now, .regs, .engines] s ((s.recordReclaim e h).showHeld e) := .showHeld (.recordReclaim .refl rfl) rfl
  have hCount : Reg.RED_CMD_RES ≠ (Fld.CE_LEASE_STAT_COUNT e).reg := by
    simp only [Reg.RED_CMD_RES, Fld.CE_LEASE_STAT_COUNT, Reg.CE_LEASE_STAT, engBase]
    omega
  have hHeld : Reg.RED_CMD_RES ≠ (Fld.CE_LEASE_STAT_HELD e).reg := by
    simp only [Reg.RED_CMD_RES, Fld.CE_LEASE_STAT_HELD, Reg.CE_LEASE_STAT, engBase]
    omega
  have hLost : Reg.RED_CMD_RES ≠ Reg.CE_LEASE_LOST e := by
    simp only [Reg.RED_CMD_RES, Reg.CE_LEASE_LOST, engBase]
    omega
  have hFirst : (if s.fld (Fld.CE_LEASE_STAT_COUNT e) = 0 then s.setReg (Reg.CE_LEASE_LOST e) (BitVec.ofNat 32 h) else s).reg
      Reg.RED_CMD_RES = s.reg Reg.RED_CMD_RES := by
    split
    · exact reg_setReg_ne _ _ hLost
    · rfl
  refine ⟨hKeeps.frame .leases rfl, ?_⟩
  rw [showHeld, reg_setFld_ne _ _ hHeld]
  unfold recordReclaim
  dsimp only
  generalize (if s.fld (Fld.CE_LEASE_STAT_COUNT e) = 0 then s.setReg (Reg.CE_LEASE_LOST e) (BitVec.ofNat 32 h) else s) = u at hFirst
  split
  · rw [reg_setEng, reg_count_ne _ _ hCount, hFirst]
  · rw [reg_count_ne _ _ hCount, hFirst]

/-- A reclaimed LOCK lease is gone, and DONE stays. -/
theorem reclaim_lock (s : State) {l : Lease} (hType : l.type = 3) :
    (s.reclaim l).leaseOf 3 l.district l.index = none ∧ (s.reclaim l).reg Reg.RED_CMD_RES = s.reg Reg.RED_CMD_RES := by
  have hEffect : s.reclaimEffect l = (s.dropLease 3 l.district l.index).showLock l.district l.index none := by
    rw [reclaimEffect, hType, if_neg (by decide), if_neg (by decide), if_pos rfl]
  have hHold : Reg.RED_CMD_RES ≠ Reg.RND_LOCK_HOLD l.district l.index := by
    simp only [Reg.RED_CMD_RES, Reg.RND_LOCK_HOLD]
    omega
  have hGone : (s.reclaimEffect l).leaseOf 3 l.district l.index = none := by
    have hLeases : (s.reclaimEffect l).leases = (s.dropLease 3 l.district l.index).leases := by
      rw [hEffect]
      exact setReg_leases ..
    rw [leaseOf, hLeases]
    exact leaseOf_dropLease s 3 l.district l.index
  have hReg : (s.reclaimEffect l).reg Reg.RED_CMD_RES = s.reg Reg.RED_CMD_RES := by
    rw [hEffect, showLock, reg_setReg_ne _ _ hHold, reg_dropLease]
  unfold reclaim
  dsimp only
  generalize s.reclaimEffect l = u at hGone hReg
  split
  · obtain ⟨hLeases, hRes⟩ := recordReclaim_kept u (Ident.engine l.holder) l.handle
    exact ⟨by rw [leaseOf, hLeases]; exact hGone, hRes.trans hReg⟩
  · exact ⟨hGone, hReg⟩

/-! ### CKPT_LOAD -/

theorem readLE_congr {m m' : Mem} (n : Nat) {a : Nat} (h : ∀ i < n, m.read (a + i) = m'.read (a + i)) : m.readLE a n = m'.readLE a n := by
  induction n generalizing a with
  | zero => rfl
  | succ n ih =>
    have hHead := h 0 (Nat.succ_pos n)
    rw [Nat.add_zero] at hHead
    simp only [Mem.readLE]
    rw [hHead, ih fun i hi => ?_]
    have hNext := h (i + 1) (Nat.succ_lt_succ hi)
    rwa [show a + (i + 1) = a + 1 + i by omega] at hNext

theorem readLE_zero {m : Mem} (n : Nat) {a : Nat} (h : ∀ i < n, m.read (a + i) = 0) : m.readLE a n = 0 := by
  induction n generalizing a with
  | zero => rfl
  | succ n ih =>
    have hHead := h 0 (Nat.succ_pos n)
    rw [Nat.add_zero] at hHead
    simp only [Mem.readLE]
    rw [hHead, ih fun i hi => ?_]
    · rfl
    · have hNext := h (i + 1) (Nat.succ_lt_succ hi)
      rwa [show a + (i + 1) = a + 1 + i by omega] at hNext

/-- A byte of a cleared range is 0. -/
theorem read_cleared (m : Mem) {lo hi x : Nat} (h : lo ≤ x ∧ x < hi) :
    Mem.read (m.filter fun q => !decide (lo ≤ q.1 ∧ q.1 < hi)) x = 0 := by
  refine (get_filter (fun _ => 0) (fun k => !decide (lo ≤ k ∧ k < hi)) m x).trans (if_neg ?_)
  rw [decide_eq_true h]
  exact Bool.false_ne_true

/-- The header of a checkpoint put back: its magic number, buffer A, and the rest behind. -/
theorem readLE_restored (m : Mem) {a n : Nat} (desc body : List Byte) (hn : 8 ≤ n) :
    let w := (((Mem.writeLE (m.filter fun q => !decide (a ≤ q.1 ∧ q.1 < a + n)) a 4 0x31504B43).writeBytes (a + 0x10) desc).writeBytes
      (a + 0x100) body)
    w.readLE a 4 = 0x31504B43 ∧ w.readLE (a + 4) 4 = 0 := by
  intro w
  have hHeader (i : Nat) (hi : i < 8) : w.read (a + i) =
      (Mem.writeLE (m.filter fun q => !decide (a ≤ q.1 ∧ q.1 < a + n)) a 4 0x31504B43).read (a + i) := by
    rw [Mem.read_writeBytes_outside _ _ _ (.inl (by omega)), Mem.read_writeBytes_outside _ _ _ (.inl (by omega))]
  refine ⟨?_, ?_⟩
  · rw [readLE_congr 4 fun i hi => hHeader i (by omega), Mem.readLE_writeLE]
    exact Nat.mod_eq_of_lt (by decide)
  · refine readLE_zero 4 fun i hi => ?_
    rw [Nat.add_assoc, hHeader (4 + i) (by omega), Mem.read_writeLE_outside _ _ _ _ (.inr (by omega))]
    exact read_cleared m (by omega)

theorem loadCheckpoint_spec (s : State) (p m : Nat) (hSize : s.fld (Fld.RED_CKPT_SIZE p m) ≠ 0) :
    ((s.loadCheckpoint p m).dist (s.slotDistrict p m)).sram.readLE (s.ckptArea p m).1 4 = 0x31504B43 ∧
      ((s.loadCheckpoint p m).dist (s.slotDistrict p m)).sram.readLE ((s.ckptArea p m).1 + 4) 4 = 0 := by
  have hArea : 8 ≤ (s.ckptArea p m).2.1 := by
    have hEq : (s.ckptArea p m).2.1 = s.fld (Fld.RED_CKPT_SIZE p m) * 256 := rfl
    omega
  unfold loadCheckpoint
  dsimp only
  rw [dist_setDist_same]
  exact readLE_restored _ _ _ hArea

/-! ### What each body answers -/

section
variable {s : State}

theorem pairBody_local (hLocal : (s.reg Reg.RED_ARG1).getLsbD 9 = false) {code : Nat}
    (hCode : firstCode [(s.pairBad s.argPair none, Code.badArg), (s.mode != Mode.load, Code.wrongState)] = code) :
    s.pairBody = (code, if code = Code.ok then s.formPair s.argPair none else s) := by
  subst hCode
  unfold pairBody
  rw [hLocal]
  rfl

theorem unpairBody_code {code : Nat}
    (hCode : firstCode [(decide (s.variant.pairs ≤ s.argPair), Code.badArg), (s.mode != Mode.load, Code.wrongState)] = code) :
    s.unpairBody = (code, if code = Code.ok then s.dissolve s.argPair else s) := by
  subst hCode
  rfl

theorem failBody_code {code : Nat} (hCode : firstCode [(decide (s.variant.pairs ≤ s.argPair), Code.badArg),
      (s.mode == Mode.load || !s.inForce s.argPair s.argSlot, Code.wrongState)] = code) :
    s.failBody = (code, if code = Code.ok then s.declareSlot s.argPair s.argSlot 4 else s) := by
  subst hCode
  rfl

theorem ckptBody_code {code : Nat} (hCode : firstCode
    [(decide (s.variant.pairs ≤ s.argPair ∨ 32 ≤ 2 * s.argPair + s.argSlot) || s.pairState s.argPair == 0 ||
        s.isRemote s.argPair s.argSlot || !s.mramValid s.argPair s.argSlot, Code.badArg),
      (s.mode != Mode.load, Code.wrongState)] = code) :
    s.ckptBody = (code, if code = Code.ok then s.loadCheckpoint s.argPair s.argSlot else s) := by
  subst hCode
  rfl

/-- The parts of the handle that RECLAIM names. -/
def argHandle (s : State) : Nat × Nat × Nat := handleParts (s.reg Reg.RED_ARG0).toNat

theorem reclaimBody_bad (h : s.argHandle.1 = 0 ∨ 8 < s.argHandle.1) : s.reclaimBody = (Code.badArg, s) := if_pos h

theorem reclaimBody_none (hType : 1 ≤ s.argHandle.1 ∧ s.argHandle.1 ≤ 8)
    (hNone : s.leaseOf s.argHandle.1 s.argHandle.2.1 s.argHandle.2.2 = none) : s.reclaimBody = (Code.wrongState, s) := by
  refine (if_neg (c := s.argHandle.1 = 0 ∨ 8 < s.argHandle.1) (by omega)).trans ?_
  show (match s.leaseOf s.argHandle.1 s.argHandle.2.1 s.argHandle.2.2 with
    | some l => (Code.ok, s.reclaim l)
    | none => (Code.wrongState, s)) = _
  rw [hNone]

theorem reclaimBody_some (hType : 1 ≤ s.argHandle.1 ∧ s.argHandle.1 ≤ 8) {l : Lease}
    (hSome : s.leaseOf s.argHandle.1 s.argHandle.2.1 s.argHandle.2.2 = some l) : s.reclaimBody = (Code.ok, s.reclaim l) := by
  refine (if_neg (c := s.argHandle.1 = 0 ∨ 8 < s.argHandle.1) (by omega)).trans ?_
  show (match s.leaseOf s.argHandle.1 s.argHandle.2.1 s.argHandle.2.2 with
    | some l => (Code.ok, s.reclaim l)
    | none => (Code.wrongState, s)) = _
  rw [hSome]

/-- A lease found is of the type, district and index looked for. -/
theorem leaseOf_parts {x d i : Nat} {l : Lease} (h : s.leaseOf x d i = some l) : l.type = x ∧ l.district = d ∧ l.index = i := by
  have hFound := List.find?_some h
  simpa [and_assoc] using hFound

/-- PAIR with good arguments in LOAD. -/
theorem pairBody_forms (hLocal : (s.reg Reg.RED_ARG1).getLsbD 9 = false) (hGood : s.pairBad s.argPair none = false)
    (hMode : s.mode = Mode.load) (hNone : s.leases = []) : ∃ u, s.pairBody = (0, u) ∧
      u.reg (Reg.RED_PSTAT s.argPair) = BitVec.ofNat 32 1 ∧ u.reg (Reg.RED_PAIR s.argPair) = s.reg Reg.RED_ARG0 ∧
      u.reg Reg.RED_CMD_RES = s.reg Reg.RED_CMD_RES ∧
      u.pair s.argPair = { slot0 := { engine := some s.pairArgs.1.1, spare := s.pairArgs.1.2 }
                           slot1 := { engine := some s.pairArgs.2.1, spare := s.pairArgs.2.2 }, remote := none } := by
  have hBody := pairBody_local (code := 0) hLocal (by
    rw [hGood, hMode]
    rfl)
  rw [if_pos (show (0 : Nat) = Code.ok from rfl)] at hBody
  exact ⟨_, hBody, formPair_spec (argPair_lt s) hNone hGood⟩

/-- UNPAIR of a pair of the variant in LOAD. -/
theorem unpairBody_dissolves (hIn : s.argPair < s.variant.pairs) (hMode : s.mode = Mode.load) (hNone : s.leases = []) :
    ∃ u, s.unpairBody = (0, u) ∧ u.reg (Reg.RED_PSTAT s.argPair) = 0 ∧ u.reg (Reg.RED_PAIR s.argPair) = 0 ∧
      u.reg Reg.RED_CMD_RES = s.reg Reg.RED_CMD_RES ∧ u.pair s.argPair = {} := by
  have hBody := unpairBody_code (s := s) (code := 0) (by
    rw [decide_eq_false (Nat.not_le.mpr hIn), hMode]
    rfl)
  rw [if_pos (show (0 : Nat) = Code.ok from rfl)] at hBody
  exact ⟨_, hBody, dissolve_spec (argPair_lt s) hNone⟩

/-- FAIL of a slot in force outside LOAD. -/
theorem failBody_declares (hIn : s.argPair < s.variant.pairs) (hMode : s.mode ≠ Mode.load)
    (hForce : s.inForce s.argPair s.argSlot = true) : ∃ u, s.failBody = (0, u) ∧
      u.flag (failedFld s.argPair s.argSlot) = true ∧ u.inForce s.argPair s.argSlot = false ∧
      u.fld Fld.RED_CNT1_DECLARED = min 255 (s.fld Fld.RED_CNT1_DECLARED + 1) ∧
      u.flag Fld.RED_CMD_RES_DONE = s.flag Fld.RED_CMD_RES_DONE := by
  have hBody := failBody_code (s := s) (code := 0) (by
    rw [decide_eq_false (Nat.not_le.mpr hIn), hForce, beq_eq_false_iff_ne.mpr hMode]
    rfl)
  rw [if_pos (show (0 : Nat) = Code.ok from rfl)] at hBody
  exact ⟨_, hBody, declareSlot_spec s s.argSlot 4 (argPair_lt s)⟩

/-- CKPT_LOAD of a valid checkpoint of a local slot in LOAD. -/
theorem ckptBody_loads (hIn : ¬(s.variant.pairs ≤ s.argPair ∨ 32 ≤ 2 * s.argPair + s.argSlot)) (hFormed : s.pairState s.argPair ≠ 0)
    (hOwn : s.isRemote s.argPair s.argSlot = false) (hValid : s.mramValid s.argPair s.argSlot = true) (hMode : s.mode = Mode.load)
    (hSize : s.fld (Fld.RED_CKPT_SIZE s.argPair s.argSlot) ≠ 0) : ∃ u, s.ckptBody = (0, u) ∧
      (u.dist (s.slotDistrict s.argPair s.argSlot)).sram.readLE (s.ckptArea s.argPair s.argSlot).1 4 = 0x31504B43 ∧
      (u.dist (s.slotDistrict s.argPair s.argSlot)).sram.readLE ((s.ckptArea s.argPair s.argSlot).1 + 4) 4 = 0 ∧
      u.reg Reg.RED_CMD_RES = s.reg Reg.RED_CMD_RES ∧ u.mram = s.mram := by
  have hBody := ckptBody_code (s := s) (code := 0) (by
    rw [decide_eq_false hIn, beq_eq_false_iff_ne.mpr hFormed, hOwn, hValid, hMode]
    rfl)
  rw [if_pos (show (0 : Nat) = Code.ok from rfl)] at hBody
  obtain ⟨hMagic, hBuffer⟩ := loadCheckpoint_spec s s.argPair s.argSlot hSize
  exact ⟨_, hBody, hMagic, hBuffer, rfl, rfl⟩

end

/-- A pair as it stands after the answer. -/
theorem reg_redAnswered_pair (t : State) (who : Ident) (tag code : Nat) {p : Nat} (hp : p < 64) :
    (t.redAnswered who tag code).reg (Reg.RED_PAIR p) = t.reg (Reg.RED_PAIR p) ∧
      (t.redAnswered who tag code).reg (Reg.RED_PSTAT p) = t.reg (Reg.RED_PSTAT p) := by
  refine ⟨reg_redAnswered_ne t who tag code ?_ ?_, reg_redAnswered_ne t who tag code ?_ ?_⟩
  · unfold Reg.RED_PAIR Reg.RED_CMD_RES; omega
  · unfold Reg.RED_PAIR Reg.SYS_WRONG_STATE_CNT; omega
  · unfold Reg.RED_PSTAT Reg.RED_CMD_RES; omega
  · unfold Reg.RED_PSTAT Reg.SYS_WRONG_STATE_CNT; omega

theorem keeps_redAnswered (t : State) (who : Ident) (tag code : Nat) : Keeps [.now, .regs] t (t.redAnswered who tag code) :=
  .countCode (.setFld (.setFld .refl rfl) rfl) rfl

/-- A pair just formed. -/
theorem inForce_of_pstat {s : State} {p : Nat} (h : s.reg (Reg.RED_PSTAT p) = BitVec.ofNat 32 1) (m : Nat) :
    s.pairState p = 1 ∧ s.inForce p m = true := by
  have hState : s.pairState p = 1 := by
    show fieldGet (s.reg (Reg.RED_PSTAT p)) _ _ = 1
    rw [h]
    rfl
  refine ⟨hState, ?_⟩
  have hFailed : s.flag (failedFld p m) = false := by
    unfold failedFld
    split
    · show (fieldGet (s.reg (Reg.RED_PSTAT p)) _ _ != 0) = false
      rw [h]
      rfl
    · show (fieldGet (s.reg (Reg.RED_PSTAT p)) _ _ != 0) = false
      rw [h]
      rfl
  rw [inForce, hState, hFailed]
  rfl

end Sys2Proof.Machine.State

open Sys2Proof Sys2Proof.Machine Sys2Proof.Machine.State

/-- Settles O53: a command is lost, or its body's code and effect, with DONE left as it was. -/
theorem twinCommands : Obligations.TwinCommands := by
  intro s who tag e hAsks hServes hTwin hTag p m ends same all
  have hp : p < 64 := argPair_lt s
  have hLostOf {i : Instr} {body : State → Nat × State} (hi : exec i s = .next (s.redCommand who tag body))
      (hLost : s.flag Fld.RED_CMD_RES_DONE = false ∨ s.took Reg.RED_CMD = true) :
      ∃ t, exec i s = .next t ∧ t.flag Fld.RED_CMD_RES_LOST = true ∧ same t :=
    ⟨_, hi.trans (congrArg Host.Outcome.next (redCommand_lost hAsks hTwin hLost)), flag_setFlag_on _ _ rfl rfl, setFlag_red ..⟩
  have hEndsFlag {i : Instr} {body : State → Nat × State} {code : Nat} {t : State} {post : State → Prop}
      (hi : exec i s = .next (s.redCommand who tag body)) (hDone : s.flag Fld.RED_CMD_RES_DONE = true)
      (hFirst : s.took Reg.RED_CMD = false) (hBody : body (s.taken Reg.RED_CMD) = (code, t)) (hCode : code % 65536 = code)
      (hKept : t.flag Fld.RED_CMD_RES_DONE = s.flag Fld.RED_CMD_RES_DONE) (hPost : post (t.redAnswered who tag code)) :
      ends i code post := by
    have hRuns := redCommand_runs (body := body) (tag := tag) hAsks hTwin hDone hFirst
    rw [hBody] at hRuns
    obtain ⟨hr, ht, hd⟩ := redAnswered_ends (t := t) who (hKept.trans hDone) hTag hCode
    exact ⟨_, hi.trans (congrArg Host.Outcome.next hRuns), hr, ht, hd, hPost⟩
  have hEnds {i : Instr} {body : State → Nat × State} {code : Nat} {t : State} {post : State → Prop}
      (hi : exec i s = .next (s.redCommand who tag body)) (hDone : s.flag Fld.RED_CMD_RES_DONE = true)
      (hFirst : s.took Reg.RED_CMD = false) (hBody : body (s.taken Reg.RED_CMD) = (code, t)) (hCode : code % 65536 = code)
      (hKept : t.reg Reg.RED_CMD_RES = s.reg Reg.RED_CMD_RES) (hPost : post (t.redAnswered who tag code)) : ends i code post :=
    hEndsFlag hi hDone hFirst hBody hCode (flag_of_reg hKept) hPost
  have hRefuse {i : Instr} {body : State → Nat × State} {code : Nat} (hi : exec i s = .next (s.redCommand who tag body))
      (hDone : s.flag Fld.RED_CMD_RES_DONE = true) (hFirst : s.took Reg.RED_CMD = false)
      (hBody : body (s.taken Reg.RED_CMD) = (code, s.taken Reg.RED_CMD)) (hCode : code % 65536 = code) : ends i code same :=
    hEnds hi hDone hFirst hBody hCode rfl (red_redAnswered ..)
  refine ⟨fun hLost i hi => ?_, fun hDone hFirst => ⟨fun hLocal => ⟨fun hBad => ?_, fun hGood hMode => ?_, fun hGood hMode hNone => ?_⟩,
    fun hPast => ⟨?_, ?_, ?_⟩, fun hIn hMode hNone => ?_, fun hIn hMode => ?_, ?_, ?_, fun hIn hNot => ?_, fun hIn hMode hForce hEng hHas => ?_,
    fun hIn hMram hBad => ?_, fun hIn hMram hFormed hOwn hValid hMode hSize => ?_⟩⟩
  · rcases List.mem_cons.mp hi with rfl | hi
    · exact hLostOf (exec_pair hServes tag) hLost
    rcases List.mem_cons.mp hi with rfl | hi
    · exact hLostOf (exec_unpair hServes tag) hLost
    rcases List.mem_cons.mp hi with rfl | hi
    · exact hLostOf (exec_resync hServes tag) hLost
    rcases List.mem_cons.mp hi with rfl | hi
    · exact hLostOf (exec_reclaim hServes tag) hLost
    rcases List.mem_cons.mp hi with rfl | hi
    · exact hLostOf (exec_fail hServes tag) hLost
    rcases List.mem_cons.mp hi with rfl | hi
    · exact hLostOf (exec_ckptLoad hServes tag) hLost
    · exact (List.not_mem_nil hi).elim
  · exact hRefuse (exec_pair hServes tag) hDone hFirst (pairBody_local (s := s.taken Reg.RED_CMD) (code := 3) hLocal (by
      show firstCode [(s.pairBad p none, _), _] = _
      rw [hBad]
      rfl)) rfl
  · exact hRefuse (exec_pair hServes tag) hDone hFirst (pairBody_local (s := s.taken Reg.RED_CMD) (code := 5) hLocal (by
      show firstCode [(s.pairBad p none, _), (s.mode != Mode.load, _)] = _
      rw [hGood, bne_iff_ne.mpr hMode]
      rfl)) rfl
  · obtain ⟨u, hBody, hPstat, hPair, hRes, hSlots⟩ := pairBody_forms (s := s.taken Reg.RED_CMD) hLocal hGood hMode hNone
    change u.pair p = _ at hSlots
    refine hEnds (exec_pair hServes tag) hDone hFirst hBody rfl hRes ?_
    obtain ⟨hPair', hPstat'⟩ := reg_redAnswered_pair u who tag 0 hp
    have hRed : (u.redAnswered who tag 0).pair p = u.pair p := pair_congr (red_redAnswered ..) p
    refine ⟨(inForce_of_pstat (hPstat'.trans hPstat) 0).1, hPair'.trans hPair, (inForce_of_pstat (hPstat'.trans hPstat) 0).2,
      (inForce_of_pstat (hPstat'.trans hPstat) 1).2, ?_, ?_⟩
    · rw [pairSlot, if_pos rfl, hRed, hSlots]
      rfl
    · rw [pairSlot, if_neg (by decide), hRed, hSlots]
      rfl
  · exact hRefuse (exec_unpair hServes tag) hDone hFirst (unpairBody_code (code := 3) (by
      show firstCode [(decide (s.variant.pairs ≤ p), _), _] = _
      rw [decide_eq_true hPast]
      rfl)) rfl
  · exact hRefuse (exec_fail hServes tag) hDone hFirst (failBody_code (code := 3) (by
      show firstCode [(decide (s.variant.pairs ≤ p), _), _] = _
      rw [decide_eq_true hPast]
      rfl)) rfl
  · exact hRefuse (exec_ckptLoad hServes tag) hDone hFirst (ckptBody_code (code := 3) (by
      show firstCode [(decide (s.variant.pairs ≤ p ∨ 32 ≤ 2 * p + m) || _ || _ || _, _), _] = _
      rw [decide_eq_true (Or.inl hPast)]
      rfl)) rfl
  · obtain ⟨u, hBody, hPstat, hPair, hRes, hSlots⟩ := unpairBody_dissolves (s := s.taken Reg.RED_CMD) hIn hMode hNone
    change u.reg (Reg.RED_PSTAT p) = _ at hPstat
    refine hEnds (exec_unpair hServes tag) hDone hFirst hBody rfl hRes ?_
    obtain ⟨hPair', hPstat'⟩ := reg_redAnswered_pair u who tag 0 hp
    refine ⟨?_, (pair_congr (red_redAnswered ..) p).trans hSlots, hPair'.trans hPair⟩
    show fieldGet ((u.redAnswered who tag 0).reg (Reg.RED_PSTAT p)) _ _ = 0
    rw [hPstat', hPstat]
    rfl
  · exact hRefuse (exec_unpair hServes tag) hDone hFirst (unpairBody_code (code := 5) (by
      show firstCode [(decide (s.variant.pairs ≤ p), _), (s.mode != Mode.load, _)] = _
      rw [decide_eq_false (Nat.not_le.mpr hIn), bne_iff_ne.mpr hMode]
      rfl)) rfl
  · obtain ⟨hNoneOf, hOther⟩ := flowCtx_resetFlow (s.taken Reg.RED_CMD) (flow := fieldGet (s.reg Reg.RED_ARG1) 0 12)
      (fieldGet_lt _ 0 12)
    refine hEnds (exec_resync hServes tag) hDone hFirst (t := (s.taken Reg.RED_CMD).resetFlow (fieldGet (s.reg Reg.RED_ARG1) 0 12)) rfl rfl rfl ?_
    generalize (s.taken Reg.RED_CMD).resetFlow (fieldGet (s.reg Reg.RED_ARG1) 0 12) = u at hNoneOf hOther
    have hRed : (u.redAnswered who tag 0).red = u.red := red_redAnswered ..
    have hCtx (k f : Nat) : (u.redAnswered who tag 0).flowCtx k f = u.flowCtx k f := by
      rw [flowCtx, hRed, flowCtx]
    exact ⟨fun k => (hCtx k _).trans (hNoneOf k), fun k f hf hne => (hCtx k f).trans (hOther k f hf hne)⟩
  · refine ⟨fun hBad => ?_, fun hLow hHigh hNone => ?_, fun l hType hDistrict hIndex hSome => ?_⟩
    · exact hRefuse (exec_reclaim hServes tag) hDone hFirst (reclaimBody_bad hBad) rfl
    · exact hRefuse (exec_reclaim hServes tag) hDone hFirst (reclaimBody_none ⟨hLow, hHigh⟩ hNone) rfl
    · obtain ⟨hlType, hlDistrict, hlIndex⟩ := leaseOf_parts hSome
      have hBody : (s.taken Reg.RED_CMD).reclaimBody = (Code.ok, (s.taken Reg.RED_CMD).reclaim l) := by
        refine reclaimBody_some (s := s.taken Reg.RED_CMD) ?_ ?_
        · exact ⟨hType ▸ by decide, hType ▸ by decide⟩
        · show s.leaseOf (handleParts (s.reg Reg.RED_ARG0).toNat).1 _ _ = _
          rw [hType]
          exact hSome
      obtain ⟨hGone, hRes⟩ := reclaim_lock (s.taken Reg.RED_CMD) hlType
      refine hEnds (exec_reclaim hServes tag) hDone hFirst hBody rfl hRes ?_
      clear hBody
      rw [hlDistrict, hlIndex] at hGone
      generalize (s.taken Reg.RED_CMD).reclaim l = u at hGone
      rw [leaseOf, (keeps_redAnswered u who tag 0).frame .leases rfl]
      exact hGone
  · refine hRefuse (exec_fail hServes tag) hDone hFirst (failBody_code (code := 5) ?_) rfl
    show firstCode [(decide (s.variant.pairs ≤ p), _), (s.mode == Mode.load || !s.inForce p m, _)] = _
    rw [decide_eq_false (Nat.not_le.mpr hIn)]
    rcases hNot with h | h
    · rw [h]
      rfl
    · rw [h, Bool.not_false, Bool.or_true]
      rfl
  · obtain ⟨u, hBody, hFailed, hOut, hCount, hKept⟩ := failBody_declares (s := s.taken Reg.RED_CMD) hIn hMode hForce
    refine hEndsFlag (exec_fail hServes tag) hDone hFirst hBody rfl hKept ?_
    obtain ⟨_, hPstat'⟩ := reg_redAnswered_pair u who tag 0 hp
    exact ⟨(flag_of_reg (by rw [failedFld_reg]; exact hPstat')).trans hFailed, (inForce_of_reg hPstat').trans hOut,
      (fld_of_reg (reg_redAnswered_ne u who tag 0 (by decide) (by decide))).trans hCount⟩
  · refine hRefuse (exec_ckptLoad hServes tag) hDone hFirst (ckptBody_code (code := 3) ?_) rfl
    show firstCode [(_ || _ || _ || !s.mramValid p m, _), _] = _
    rw [hBad, Bool.not_false, Bool.or_true]
    rfl
  · obtain ⟨u, hBody, hMagic, hBuffer, hRes, hMramKept⟩ :=
      ckptBody_loads (s := s.taken Reg.RED_CMD) (by show ¬(s.variant.pairs ≤ p ∨ 32 ≤ 2 * p + m); omega) hFormed hOwn hValid hMode hSize
    refine hEnds (exec_ckptLoad hServes tag) hDone hFirst hBody rfl hRes ?_
    have hDist : (u.redAnswered who tag 0).dist (s.slotDistrict p m) = u.dist (s.slotDistrict p m) := by
      rw [State.dist, (keeps_redAnswered u who tag 0).frame .districts rfl, State.dist]
    refine ⟨?_, ?_, ((keeps_redAnswered u who tag 0).frame .mram rfl).trans hMramKept⟩
    · show Mem.readLE (((u.redAnswered who tag 0).dist (s.slotDistrict p m)).sram) _ _ = _
      rw [hDist]
      exact hMagic
    · rw [hDist]
      exact hBuffer

end

section
/-!
PROOF. O40: static slots, receipts, dynamic offers and the pointers of a gateway's rings.
-/

namespace Sys2Proof.Machine.State

variable {s : State}

/-! ### Static slots -/

/-- One message of a node that is no gateway, in a ring-scope slot that it fits. -/
theorem nodeFrame_single {l : Nat} {m : Msg} (hNode : 8 ≤ l) (hQueue : s.nodeQueue l = [m]) (hFits : msgBeats m ≤ 64) :
    s.nodeFrame l true = ([m], s.setNodeQueue l []) := by
  have hFit : takeFit 64 [m] = ([m], [], 64 - msgBeats m) := by
    rw [takeFit, if_pos hFits]
    rfl
  unfold nodeFrame
  rw [if_neg (by omega), if_pos rfl, hQueue, hFit]

theorem nodeQueue_setNodeQueue (s : State) (l : Nat) (q : List Msg) : (s.setNodeQueue l q).nodeQueue l = q :=
  Store.get_set_same s.ave.queues l q

/-- What a node's frame of its whole queue leaves. -/
theorem sent_spec (u : State) (l k : Nat) (o : Out) (msgs : List Msg) :
    let t := ((u.setNodeQueue l []).emit o).putOnAir k msgs
    t.out = o :: u.out ∧ t.nodeQueue l = [] ∧ t.ave.slotDone = u.ave.slotDone ∧
      t.ave.air = u.ave.air ++ [{ slot := k, at' := u.cycle, msgs := msgs }] :=
  ⟨rfl, nodeQueue_setNodeQueue u l [], rfl, rfl⟩

/-- The owner's slot, as `sendSlot` has it after the slot is marked done. -/
theorem sendSlot_own {k : Nat} {m : Msg} (hOwned : s.slotOwner k ≠ 0xFF) (hHere : nodeChip (s.slotOwner k) = s.chip)
    (hNode : 8 ≤ s.slotOwner k % 16) (hLocal : s.hasLocal (s.slotOwner k % 16) = true) (hRing : s.slotRing k = true)
    (hMay : s.maySend true = true) (hQueue : s.nodeQueue (s.slotOwner k % 16) = [m]) (hFits : msgBeats m ≤ 64) :
    s.sendSlot k = (((s.setAve { s.ave with slotDone := k :: s.ave.slotDone }).setNodeQueue (s.slotOwner k % 16) []).emit
      (.slotFrame k true (frameBeats [m]))).putOnAir k [m] := by
  have hDone : (s.setAve { s.ave with slotDone := k :: s.ave.slotDone }).nodeQueue (s.slotOwner k % 16) = [m] := hQueue
  have hOwner : (s.setAve { s.ave with slotDone := k :: s.ave.slotDone }).slotOwner k = s.slotOwner k := rfl
  have hScope : (s.setAve { s.ave with slotDone := k :: s.ave.slotDone }).slotRing k = true := hRing
  have hOpen : ((s.setAve { s.ave with slotDone := k :: s.ave.slotDone }).maySend true &&
      (s.setAve { s.ave with slotDone := k :: s.ave.slotDone }).hasLocal (s.slotOwner k % 16)) = true := by
    rw [Bool.and_eq_true]
    exact ⟨hMay, hLocal⟩
  have hChip : nodeChip (s.slotOwner k) = (s.setAve { s.ave with slotDone := k :: s.ave.slotDone }).chip := hHere
  unfold sendSlot
  generalize s.setAve { s.ave with slotDone := k :: s.ave.slotDone } = u at hDone hOwner hScope hOpen hChip
  dsimp only
  rw [hOwner, hScope, if_pos ⟨hOwned, hChip⟩, if_pos hOpen, nodeFrame_single hNode hDone hFits]
  rfl

theorem exec_staticSlot_sends {k : Nat} (hRun : s.inReset = false) (hStarted : s.ave.started = true)
    (hIn : k < s.fld Fld.AVE_SCHED_NSTATIC) (hPoint : s.cycle = s.actionPoint k) (hFirst : s.ave.slotDone.contains k = false) :
    exec (.staticSlot k) s = .next (s.sendSlot k) := by
  refine congrArg Host.Outcome.next ((live_of_running hRun _).trans (if_pos ?_))
  rw [hStarted, decide_eq_true hIn, hFirst, beq_iff_eq.mpr hPoint]
  rfl

theorem exec_staticSlot_done {k : Nat} (hRun : s.inReset = false) (hDone : s.ave.slotDone.contains k = true) :
    exec (.staticSlot k) s = .next s := by
  refine congrArg Host.Outcome.next ((live_of_running hRun _).trans (if_neg ?_))
  rw [hDone, Bool.not_true, Bool.and_false]
  exact Bool.false_ne_true

/-! ### Receipts -/

/-- What a receipt does with the oldest frame on the Avenue, once it is whole. -/
theorem exec_slotFrameReceipt {f : AirFrame} {rest : List AirFrame} {m : Msg} (hRun : s.inReset = false) (hAir : s.ave.air = f :: rest)
    (hOne : f.msgs = [m]) (hWhole : f.at' + msgBeats m + 15 ≤ s.cycle) (off : Int) (bad : Bool) :
    exec (.slotFrameReceipt off bad) s = .next
      (if 8 < off.natAbs then (s.setAve { s.ave with air := rest }).count Fld.AVE_CNT0_WINDOW
        else if bad then (s.setAve { s.ave with air := rest }).count Fld.AVE_CNT0_CHECK
        else (s.setAve { s.ave with air := rest }).deliverMsg m) := by
  refine congrArg Host.Outcome.next ((live_of_running hRun _).trans ?_)
  have hSum : (f.msgs.map msgBeats).sum = msgBeats m := by
    rw [hOne]
    exact List.sum_singleton
  rw [hAir]
  dsimp only
  rw [hSum, if_neg (by omega), hOne]
  rfl

/-! ### Dynamic offers -/

theorem dropBad_above {l : Nat} (hNode : 8 ≤ l) (fuel : Nat) (s : State) : dropBad l fuel s = s := by
  cases fuel with
  | zero => rfl
  | succ fuel =>
    rw [dropBad]
    exact if_neg fun h => absurd h.1 (by omega)

theorem dropBad_good {l : Nat} {s : State} (hGood : s.txBad 0 (s.ringMsg l 0 (s.fld (Fld.AVE_GW_PTR_HEAD l 0))) = false) (fuel : Nat) :
    dropBad l fuel s = s := by
  cases fuel with
  | zero => rfl
  | succ fuel =>
    rw [dropBad]
    refine if_neg fun h => ?_
    obtain ⟨_, _, _, hBad⟩ := h
    rw [hGood] at hBad
    exact Bool.false_ne_true hBad

/-- A message picked at an offer is the good one at the front of the ring, and only the ring's head moves on. -/
theorem pickOffer_some {l : Nat} {m : Msg} {t : State} (h : s.pickOffer l = some (m, t)) :
    s.txBad 0 (s.ringMsg l 0 (s.fld (Fld.AVE_GW_PTR_HEAD l 0))) = false ∧ t.ave = s.ave := by
  unfold pickOffer at h
  split at h
  · dsimp only at h
    split at h
    · exact nomatch h
    · split at h
      · exact nomatch h
      · rename_i hGood
        rw [Bool.not_eq_true] at hGood
        rw [Option.some.injEq, Prod.mk.injEq] at h
        exact ⟨hGood, h.2 ▸ setFld_ave ..⟩
  · exact nomatch h

theorem pickOffer_above {l : Nat} (hNode : 8 ≤ l) : s.pickOffer l = none := if_neg fun h => absurd h.1 (by omega)

theorem exec_dynamicOffer (hRun : s.inReset = false) (hStarted : s.ave.started = true) (hTime : s.nextOffer.1 ≤ s.cycle)
    (hEnd : s.cycle < s.dynEnd) : exec .dynamicOffer s = .next s.offer := by
  refine congrArg Host.Outcome.next ((live_of_running hRun _).trans (if_pos ?_))
  rw [hStarted, decide_eq_true ⟨hTime, hEnd⟩]
  rfl

theorem offer_passes (hNode : 8 ≤ s.nextOffer.2) :
    s.offer = s.setAve { s.ave with turn := (s.nextOffer.2 + 1) % 13, dynFree := s.nextOffer.1 + 8 } := by
  unfold offer
  dsimp only
  rw [dropBad_above hNode, pickOffer_above hNode]

theorem offer_used {m : Msg} {t : State} (hPick : s.pickOffer s.nextOffer.2 = some (m, t))
    (hFits : s.nextOffer.1 + msgBeats m ≤ s.dynEnd - 15) :
    s.offer = (t.setAve { t.ave with
      turn := (s.nextOffer.2 + 1) % 13, dynFree := s.nextOffer.1 + 8 * ((msgBeats m + 15) / 8)
      dynAir := t.ave.dynAir ++ [(s.nextOffer.1 + msgBeats m + 15, m)] }).emit
        (.dynamicMsg (s.aveNode s.nextOffer.2) (frameBeats [m])) := by
  obtain ⟨hGood, _⟩ := pickOffer_some hPick
  unfold offer
  dsimp only
  rw [dropBad_good hGood, hPick]
  exact if_pos hFits

theorem holdDynamic_single {c : Nat} {m : Msg} (hAir : s.ave.dynAir = [(c, m)]) (hCome : c ≤ s.cycle) :
    s.holdDynamic = (s.setAve { s.ave with dynAir := [] }).deliverMsg m := by
  have hNow : s.ave.dynAir.filter (fun p => decide (p.1 ≤ s.cycle)) = [(c, m)] := by
    rw [hAir, List.filter_cons, if_pos (decide_eq_true hCome), List.filter_nil]
  have hLeft : s.ave.dynAir.filter (fun p => !decide (p.1 ≤ s.cycle)) = [] := by
    rw [hAir, List.filter_cons, if_neg (by rw [decide_eq_true hCome]; exact Bool.false_ne_true), List.filter_nil]
  unfold holdDynamic
  rw [hNow, hLeft]
  rfl

/-! ### Ring pointers -/

theorem fieldGet_high (v : Word) : fieldGet v 16 16 = v.toNat / 65536 := by
  rw [fieldGet_eq_div_mod]
  exact Nat.mod_eq_of_lt (by omega)

section
variable {d q : Nat} {v : Word} (hRun : s.inReset = false) (hIn : d < s.variant.districts) (hq : q < 2)
include hRun hIn hq

theorem exec_aveGwPtr_taken
    (hFits : beatsBetween (s.fld (Fld.AVE_GW_PTR_HEAD d q)) (v.toNat / 65536) ≤ s.ringBytes d q / 32) :
    exec (.aveGwPtr d q v) s =
      .next ((s.noteTail d q (fieldGet v 16 16)).setFld (Fld.AVE_GW_PTR_TAIL d q) (fieldGet v 16 16)) := by
  refine congrArg Host.Outcome.next ((live_of_running hRun _).trans ?_)
  have hTail : fieldGet v 16 16 = v.toNat / 65536 := fieldGet_high v
  dsimp only
  rw [if_neg (Nat.not_le.mpr hIn), if_pos hq, hTail, if_pos hFits]

theorem exec_aveGwPtr_refused
    (hFull : s.ringBytes d q / 32 < beatsBetween (s.fld (Fld.AVE_GW_PTR_HEAD d q)) (v.toNat / 65536)) :
    exec (.aveGwPtr d q v) s = .next (s.setFlag Fld.AVE_STAT_CFG_ERR true) := by
  refine congrArg Host.Outcome.next ((live_of_running hRun _).trans ?_)
  have hTail : fieldGet v 16 16 = v.toNat / 65536 := fieldGet_high v
  dsimp only
  rw [if_neg (Nat.not_le.mpr hIn), if_pos hq, hTail, if_neg (Nat.not_le.mpr hFull)]

end

end Sys2Proof.Machine.State

open Sys2Proof Sys2Proof.Machine Sys2Proof.Machine.State

/-- Settles O40: slots, offers and pointers by the branch of the model that each clause's conditions choose. -/
theorem slotsAndOffers : Obligations.SlotsAndOffers := by
  intro s k d q m off v hRun
  refine ⟨fun hStarted hIn hPoint hFirst hOwned hHere hNode hLocal hRing hMay hQueue hFits => ?_,
    exec_staticSlot_done hRun, fun f rest hAir hOne hWhole => ⟨fun hOff bad => ?_, fun hOff => ?_, fun hOff hType => ?_⟩,
    fun hStarted hTime hEnd => ⟨fun hNode => ?_, fun t hPick hFits => ?_⟩, fun c hAir hCome => holdDynamic_single hAir hCome,
    fun hd hIn hq hFits => ?_, fun hd hIn hq hFull => ?_⟩
  · rw [exec_staticSlot_sends hRun hStarted hIn hPoint hFirst, sendSlot_own hOwned hHere hNode hLocal hRing hMay hQueue hFits]
    exact ⟨_, rfl, sent_spec (s.setAve { s.ave with slotDone := k :: s.ave.slotDone }) (s.slotOwner k % 16) k
      (.slotFrame k true (frameBeats [m])) [m]⟩
  · rw [exec_slotFrameReceipt hRun hAir hOne hWhole, if_pos hOff]
    exact ⟨_, rfl, rfl, fld_count_on _ _ rfl⟩
  · rw [exec_slotFrameReceipt hRun hAir hOne hWhole, if_neg (Nat.not_lt.mpr hOff), if_pos rfl]
    exact ⟨_, rfl, rfl, fld_count_on _ _ rfl⟩
  · rw [exec_slotFrameReceipt hRun hAir hOne hWhole, if_neg (Nat.not_lt.mpr hOff), if_neg Bool.false_ne_true]
    exact (congrArg Host.Outcome.next ((live_of_running (s := s.setAve { s.ave with air := rest }) hRun _).trans (if_pos hType))).symm
  · rw [exec_dynamicOffer hRun hStarted hTime hEnd, offer_passes hNode]
    exact ⟨_, rfl, rfl, rfl, rfl⟩
  · rw [exec_dynamicOffer hRun hStarted hTime hEnd, offer_used hPick hFits]
    exact ⟨_, rfl, List.mem_cons_self, rfl, by rw [← (pickOffer_some hPick).2]; rfl⟩
  · rw [exec_aveGwPtr_taken hRun hIn hq hFits]
    refine ⟨_, rfl, ?_, ?_⟩
    · rw [fld_setFld_on _ _ rfl, fieldGet_high]
      exact Nat.mod_eq_of_lt (by show v.toNat / 65536 < 65536; omega)
    · rw [fld_setFld_off _ _ rfl]
      rfl
  · rw [exec_aveGwPtr_refused hRun hIn hq hFull]
    refine ⟨_, rfl, flag_setFlag_on _ _ rfl rfl, reg_setFlag_ne _ _ ?_⟩
    show Reg.AVE_GW_PTR d q ≠ Reg.AVE_STAT
    unfold Reg.AVE_GW_PTR Reg.AVE_STAT
    omega

end

section
/-!
PROOF. O41: what the node named by DEST does with a message of each type.
-/

namespace Sys2Proof.Machine.State

variable {s : State} {m : Msg} {d : Nat}

/-! ### Delivery -/

theorem deliverMsg_takes {l : Nat} (hHere : nodeChip m.dest = s.chip) (hLow : m.dest < 0x80) (hNode : m.dest % 16 = l)
    (hLocal : s.hasLocal l = true) (hAccepts : accepts l m.type = true) : s.deliverMsg m = s.takeMsg l m := by
  unfold deliverMsg
  rw [if_neg (Nat.not_le.mpr hLow), if_neg (not_not_intro hHere), hNode, hLocal, hAccepts]
  rfl

theorem hasLocal_district (hd : d < 8) (hIn : d < s.variant.districts) : s.hasLocal d = true :=
  (if_pos hd).trans (decide_eq_true hIn)

section
variable (hRun : s.inReset = false)
include hRun

theorem exec_engine (h : m.type = 3) : exec (.engine m) s = .next (s.deliverMsg m) :=
  congrArg Host.Outcome.next ((live_of_running hRun _).trans (if_pos h))
theorem exec_slice (h : m.type = 4) : exec (.slice m) s = .next (s.deliverMsg m) :=
  congrArg Host.Outcome.next ((live_of_running hRun _).trans (if_pos h))
theorem exec_frame (h : m.type = 5) : exec (.frame m) s = .next (s.deliverMsg m) :=
  congrArg Host.Outcome.next ((live_of_running hRun _).trans (if_pos h))
theorem exec_image (h : m.type = 6) : exec (.image m) s = .next (s.deliverMsg m) :=
  congrArg Host.Outcome.next ((live_of_running hRun _).trans (if_pos h))
theorem exec_mailbox (h : m.type = 7) : exec (.mailbox m) s = .next (s.deliverMsg m) :=
  congrArg Host.Outcome.next ((live_of_running hRun _).trans (if_pos h))
theorem exec_leaseMessage (h : m.type = 8) : exec (.leaseMessage m) s = .next (s.deliverMsg m) :=
  congrArg Host.Outcome.next ((live_of_running hRun _).trans (if_pos h))
theorem exec_lantern (h : m.type = 9) : exec (.lantern m) s = .next (s.deliverMsg m) :=
  congrArg Host.Outcome.next ((live_of_running hRun _).trans (if_pos h))
theorem exec_super (h : m.type = 0xA) : exec (.super m) s = .next (s.deliverMsg m) :=
  congrArg Host.Outcome.next ((live_of_running hRun _).trans (if_pos h))

end

/-! ### ENGINE -/

theorem fld_ringStore_tail (s : State) {d n : Nat} (p : Nat) (bs : List Byte) (hd : d < 8) (hn : n < 3) :
    (s.ringStore d 2 p bs).fld (Fld.AVE_GW_PTR_TAIL d n) = s.fld (Fld.AVE_GW_PTR_TAIL d n) := by
  unfold ringStore
  dsimp only
  split
  · exact fld_setDist ..
  · refine fld_of_reg (reg_count_ne _ _ ?_)
    show Reg.AVE_GW_PTR d n ≠ Reg.RND_SRAM_ERR d
    unfold Reg.AVE_GW_PTR Reg.RND_SRAM_ERR
    omega

theorem takeEngineMsg_fits (hd : d < 8) (hSub : m.sub ≤ 11)
    (hFits : beatsBetween (s.fld (Fld.AVE_GW_PTR_HEAD d 2)) (s.fld (Fld.AVE_GW_PTR_TAIL d 2)) + msgBeats m ≤ s.ringBytes d 2 / 32) :
    (s.takeEngineMsg d m).fld (Fld.AVE_GW_PTR_TAIL d 2) = (s.fld (Fld.AVE_GW_PTR_TAIL d 2) + msgBeats m) % 65536 := by
  have hLow : (Fld.AVE_GW_PTR_TAIL d 2).reg < 0x1010000 := by
    show Reg.AVE_GW_PTR d 2 < 0x1010000
    unfold Reg.AVE_GW_PTR
    omega
  unfold takeEngineMsg
  rw [if_neg (Nat.not_lt.mpr hSub)]
  dsimp only
  rw [if_neg (Nat.not_lt.mpr hFits)]
  exact (fld_fireIn _ 0x13 0 _ (ne_mergeRegister (.inl hLow))).trans (fld_setFld_on _ _ rfl)

theorem takeEngineMsg_full (hSub : m.sub ≤ 11)
    (hFull : s.ringBytes d 2 / 32 < beatsBetween (s.fld (Fld.AVE_GW_PTR_HEAD d 2)) (s.fld (Fld.AVE_GW_PTR_TAIL d 2)) + msgBeats m) :
    s.takeEngineMsg d m = (s.count Fld.AVE_CNT1_RX_DROP).count (Fld.AVE_GW_CNT_RX_FULL d) := by
  unfold takeEngineMsg
  rw [if_neg (Nat.not_lt.mpr hSub)]
  exact if_pos hFull

/-! ### SLICE -/

/-- A message of one word and no flow. -/
theorem takeSlice_single {w x : Word} (hFlow : m.flowv = false) (hWords : m.payload = [w, x]) (hOne : fieldGet w 8 6 = 1) :
    s.takeSlice d m = if 16 ≤ fieldGet w 0 6 ∧ fieldGet w 0 6 < 48 ∧ s.sliceOwner d (fieldGet w 0 6) = 14 then
      s.pendWrite d 14 (fieldGet w 0 6) x else s.count (Fld.AVE_GW_CNT_SLICE_REJ d) := by
  have hFirst : (m.payload[0]?).getD 0 = w := by rw [hWords]; rfl
  have hLength : m.payload.length = 2 := by rw [hWords]; rfl
  have hSecond : (m.payload[0 + 1]?).getD 0 = x := by rw [hWords]; rfl
  unfold takeSlice
  rw [hFlow]
  dsimp only
  rw [if_neg Bool.false_ne_true, if_neg (by exact Bool.false_ne_true), hFirst, hOne, hLength]
  have hRange : List.range 1 = [0] := rfl
  rw [hRange, List.foldl_cons, List.foldl_nil, hSecond, Nat.add_zero]
  refine if_congr ?_ rfl rfl
  simp [and_assoc]

/-! ### FRAME -/

theorem takeFrameMsg_gone (h : s.clockGone 0 = true) : s.takeFrameMsg m = s.count Fld.SYS_CLK_STAT_DISCARD_CNT := if_pos h

/-- The bytes of a frame of one word. -/
def oneWordFrame (x : Word) : List Byte := (wordsBytes [x]).map fun b => BitVec.ofNat 8 b

theorem length_oneWordFrame (x : Word) : (oneWordFrame x).length = 4 := List.length_map ..

/-- What the Crossing makes of FRAME's words. -/
def msgFrame (m : Msg) (w : Word) (n : Nat) : Frame :=
  { cells := [], len := n, source := 43, vid := fieldGet w 0 12, prio := fieldGet w 12 3
    tag := if m.flowv then some (m.flow, m.seq) else none }

theorem takeFrameMsg_word {w x : Word} (hClock : s.clockGone 0 = false) (hFatal : s.flag Fld.XING_STAT_FATAL = false)
    (hCell : 1 ≤ s.freeCells) (hWords : m.payload = [w, x]) (hLen : 4 ≤ fieldGet w 21 11) :
    s.takeFrameMsg m = s.offerFrame (oneWordFrame x) (msgFrame m w 4) := by
  have hFirst : (m.payload[0]?).getD 0 = w := by rw [hWords]; rfl
  have hBytes : ((wordsBytes (m.payload.drop 1)).take (fieldGet w 21 11)).map (fun b => BitVec.ofNat 8 b) = oneWordFrame x := by
    rw [hWords, List.drop_one, List.tail_cons, List.take_of_length_le (by exact hLen)]
    rfl
  unfold takeFrameMsg through
  rw [hClock, if_neg Bool.false_ne_true]
  dsimp only
  rw [hFirst, hBytes]
  refine congrArg₂ (fun (s : State) (x : Frame) => s.offerFrame _ x) (if_neg ?_) rfl
  rw [hFatal]
  rintro (h | h)
  · exact Bool.false_ne_true h
  · rw [length_oneWordFrame] at h
    exact absurd h (Nat.not_lt.mpr hCell)

/-- One cell taken. -/
theorem takeCells_one (s : State) (f : Nat) : ((takeCells f 1 s).2.freeCells = s.freeCells - 1) ∧
    (takeCells f 1 s).2.xing.arrived = s.xing.arrived := by
  have hLt : s.freeCells < 65536 := fieldGet_lt ..
  exact ⟨freeCells_setFree _ (by omega), rfl⟩

theorem frame_setFrame (s : State) (f : Nat) (x : Option Frame) : (s.setFrame f x).frame f = x := Store.get_set_same s.xing.frames f x

theorem newFrame_small (s : State) {n : Nat} (x : Frame) (hSmall : cellsFor n = 1) :
    (s.newFrame n x).1 = s.xing.nextFrame ∧ (s.newFrame n x).2.freeCells = s.freeCells - 1 ∧
      (s.newFrame n x).2.xing.arrived = s.xing.arrived ∧ ∃ y, (s.newFrame n x).2.frame s.xing.nextFrame = some y := by
  obtain ⟨hFree, hArrived⟩ := takeCells_one s s.xing.nextFrame
  unfold newFrame
  dsimp only
  rw [hSmall]
  generalize takeCells s.xing.nextFrame 1 s = u at hFree hArrived
  exact ⟨rfl, hFree, hArrived, _, frame_setFrame _ _ _⟩

theorem storeFrame_small (s : State) {bs : List Byte} (x : Frame) (hSmall : cellsFor bs.length = 1) :
    (s.storeFrame bs x).1 = s.xing.nextFrame ∧ (s.storeFrame bs x).2.freeCells = s.freeCells - 1 ∧
      (s.storeFrame bs x).2.xing.arrived = s.xing.arrived := by
  obtain ⟨hNumber, hFree, hArrived, y, hFrame⟩ := newFrame_small s x hSmall
  unfold storeFrame
  dsimp only
  rw [hNumber, hFrame]
  generalize s.newFrame bs.length x = u at hFree hArrived
  exact ⟨rfl, hFree, hArrived⟩

/-- A frame of four bytes with cells takes one of them. -/
theorem offerFrame_small {bs : List Byte} {x : Frame} (hFatal : s.flag Fld.XING_STAT_FATAL = false) (hCell : 1 ≤ s.freeCells)
    (hLen : bs.length = 4) : (s.offerFrame bs x).xing.arrived = s.xing.arrived ++ [s.xing.nextFrame] ∧
      (s.offerFrame bs x).freeCells + 1 = s.freeCells := by
  have hSmall : cellsFor bs.length = 1 := by
    rw [hLen]
    rfl
  obtain ⟨hNumber, hFree, hArrived⟩ := storeFrame_small s { x with copies := 1, refs := 1, ready := s.cycle } hSmall
  unfold offerFrame
  rw [hFatal, if_neg Bool.false_ne_true, hSmall, if_neg (Nat.not_lt.mpr hCell)]
  dsimp only
  generalize s.storeFrame bs { x with copies := 1, refs := 1, ready := s.cycle } = u at hNumber hFree hArrived
  refine ⟨?_, ?_⟩
  · show u.2.xing.arrived ++ [u.1] = _
    rw [hArrived, hNumber]
  · show u.2.freeCells + 1 = _
    omega

/-! ### IMAGE -/

theorem ave_sawLost (s : State) (p : Nat) (x : Slotted) : (s.sawLost p x).ave = s.ave := by
  unfold sawLost
  split <;> rfl

/-- A load of another chip is answered with its words and the point's. -/
theorem takeImage_load {w x : Word} (hSub : m.sub = 0) (hWords : m.payload = [w, x]) : ∃ r : Msg,
    (s.takeImage m).nodeQueue 9 = s.nodeQueue 9 ++ [r] ∧ r.sub = 2 ∧ r.payload.take 2 = [w, x] ∧ r.payload.length = 6 := by
  have hFirst : (m.payload[0]?).getD 0 = w := by rw [hWords]; rfl
  have hSecond : (m.payload[1]?).getD 0 = x := by rw [hWords]; rfl
  have hPoint : BitVec.ofNat 32 w.toNat = w := BitVec.eq_of_toNat_eq (Nat.mod_eq_of_lt w.isLt)
  unfold takeImage
  dsimp only
  rw [if_pos hSub, hFirst, hSecond, hPoint]
  have hKept : (s.sawLost w.toNat (s.point w.toNat).cur).nodeQueue 9 = s.nodeQueue 9 := by
    rw [nodeQueue, ave_sawLost, nodeQueue]
  generalize s.sawLost w.toNat (s.point w.toNat).cur = u at hKept
  refine ⟨_, (nodeQueue_setNodeQueue u 9 _).trans (by rw [hKept]), rfl, rfl, rfl⟩

/-! ### MAILBOX -/

theorem reg_bellChange (s : State) (k : Nat) (before : Bool) {a : Nat} (hIrq : ∀ n, a ≠ irqReg n) (hMerge : ∀ e, a ≠ Reg.CE_EVT_OVR e) :
    (s.bellChange k before).reg a = s.reg a := by
  unfold bellChange
  split
  · split
    · exact reg_raiseIrq_ne s _ (hIrq _)
    · split
      · exact reg_fireIn s 0x1B 0 _ hMerge
      · rfl
  · rfl

theorem mbx_ne_irqReg (k n : Nat) : Reg.MBX_DB k ≠ irqReg n := by
  unfold Reg.MBX_DB irqReg Reg.MBX_IRQ_PEND0 Reg.MBX_IRQ_PEND1
  split <;> omega

/-- A doorbell of a host function that is rung. -/
theorem ringLocal_host (s : State) {src b : Nat} (hHost : src < 8) (hb : b < 32) :
    ((s.ringLocal src b).reg (Reg.MBX_DB src)).getLsbD b = true := by
  have hBlock : mbxBlock (BitVec.ofNat 16 src) = src := by
    have hSrc : Ident.src (BitVec.ofNat 16 src) = src := by
      unfold Ident.src
      rw [BitVec.toNat_ofNat]
      omega
    unfold mbxBlock Ident.isHost
    rw [hSrc, decide_eq_true hHost, if_pos rfl]
  have hMerge (e : Nat) : Reg.MBX_DB src ≠ Reg.CE_EVT_OVR e := ne_mergeRegister (.inl (by unfold Reg.MBX_DB; omega)) e
  unfold ringLocal
  rw [if_neg (by omega), hBlock]
  dsimp only
  rw [reg_bellChange _ _ _ (mbx_ne_irqReg src) hMerge, reg_setReg_same, BitVec.getLsbD_or, BitVec.getLsbD_shiftLeft]
  simp [hb]

theorem takeMail_ring {w : Word} (hSub : m.sub = 2) (hWords : m.payload = [w]) (hHost : Ident.isHost (w.setWidth 16) = true) :
    ((s.takeMail m).reg (Reg.MBX_DB (Ident.src (w.setWidth 16)))).getLsbD (fieldGet w 16 5) = true := by
  have hFirst : (m.payload[0]?).getD 0 = w := by rw [hWords]; rfl
  have hWho : BitVec.ofNat 16 (fieldGet w 0 16) = w.setWidth 16 := by
    apply BitVec.eq_of_toNat_eq
    rw [fieldGet_eq_div_mod, BitVec.toNat_ofNat, BitVec.toNat_setWidth]
    omega
  have hLow : Ident.src (w.setWidth 16) < 8 := of_decide_eq_true hHost
  have hReceiver : s.hasReceiver (Ident.src (w.setWidth 16)) = true := by
    unfold hasReceiver
    rw [decide_eq_true hLow]
    rfl
  unfold takeMail
  dsimp only
  rw [hFirst, hWho, if_neg (by rw [hSub]; decide), if_neg (by rw [hSub]; decide), hSub, hReceiver, if_pos (by rfl)]
  exact ringLocal_host s hLow (fieldGet_lt _ 16 5)

/-! ### LEASE -/

/-- A lease's outcome for an engine that waits for it. -/
theorem takeLeaseMsg_outcome {w x y : Word} (hSub : m.sub = 1) (hWords : m.payload = [w, x, y]) (hLease : w.getLsbD 16 = false)
    (hHeld : s.engState (fieldGet w 0 16) ≠ 3) (hDropped : (s.eng (fieldGet w 0 16)).dropped = [])
    (hReturned : (s.eng (fieldGet w 0 16)).returned = none) (hStack : ∀ q ∈ (s.eng (fieldGet w 0 16)).stack, q.held = [])
    {lw : LeaseWait} (hWait : (s.eng (fieldGet w 0 16)).leaseWait = some lw) (hHandle : lw.handle = x.toNat)
    (hRelease : lw.release = false) :
    s.takeLeaseMsg d m = s.finishLease (fieldGet w 0 16) lw.gd lw.len x.toNat false y.toNat := by
  have hFirst : (m.payload[0]?).getD 0 = w := by rw [hWords]; rfl
  have hSecond : (m.payload[1]?).getD 0 = x := by rw [hWords]; rfl
  have hThird : (m.payload[2]?).getD 0 = y := by rw [hWords]; rfl
  unfold takeLeaseMsg
  dsimp only
  rw [if_neg (by rw [hSub]; decide), hFirst, hSecond, hThird, hLease]
  generalize fieldGet w 0 16 = e at hHeld hDropped hReturned hStack hWait
  have hNone (a : Access) (r : HeldResult) : s.heldResult e a true r = none := by
    unfold heldResult
    dsimp only
    rw [fillRecords_none fun q hq h hh => absurd hh (by rw [hStack q hq]; exact List.not_mem_nil), hReturned]
    rfl
  unfold resultArrives
  dsimp only
  rw [hDropped, if_neg (by exact Bool.false_ne_true), if_neg hHeld, hNone, hWait]
  exact if_pos ⟨hHandle, hRelease⟩

theorem leaseWait_returned (s : State) (e len : Nat) (gd : GReg) (v : Word) (who : Ident) (code : Nat) :
    ((((s.setGreg e gd v).advance e len).countCode who code).eng e).leaseWait = (s.eng e).leaseWait := by
  obtain ⟨hEng, _⟩ := countCode_rest ((s.setGreg e gd v).advance e len) who code
  rw [hEng e, advance, goto, eng_setEng_same]
  dsimp only
  rw [eng_setGreg]

theorem finishLease_word (s : State) (e : Nat) {gd : GReg} (len : Nat) (x y : Word) (hgd : gd ≠ 0) :
    (s.finishLease e gd len x.toNat false y.toNat).greg e gd = y ∧
      ((s.finishLease e gd len x.toNat false y.toNat).eng e).leaseWait = none ∧
      (y = 0 → ((s.finishLease e gd len x.toNat false y.toNat).eng e).leaseId = x) := by
  have hWord (v : Word) : BitVec.ofNat 32 v.toNat = v := BitVec.eq_of_toNat_eq (Nat.mod_eq_of_lt v.isLt)
  obtain ⟨hReg, _, hId⟩ := finishLease_spec (s := s) (e := e) len x.toNat false y.toNat hgd
  refine ⟨hReg.trans (hWord y), ?_, fun hy => ?_⟩
  · exact (leaseWait_returned _ e len _ _ _ _).trans (by rw [eng_setEng_same])
  · rw [hId, hy, if_pos ⟨rfl, rfl⟩, hWord x]

/-! ### LANTERN -/

/-- The beats and the districts heard are left. -/
structure BeatsKept (s t : State) : Prop where
  beats : t.red.beats = s.red.beats
  heard : t.red.heard = s.red.heard

namespace BeatsKept

variable {s t u : State}

theorem refl (s : State) : BeatsKept s s := ⟨rfl, rfl⟩

theorem trans (h : BeatsKept s t) (g : BeatsKept t u) : BeatsKept s u := ⟨g.beats.trans h.beats, g.heard.trans h.heard⟩

theorem of_red (h : t.red = s.red) : BeatsKept s t := ⟨by rw [h], by rw [h]⟩

theorem setPairSlot (s : State) (p m : Nat) (x : PairSlot) : BeatsKept s (s.setPairSlot p m x) := ⟨rfl, rfl⟩

theorem redNote (s : State) (p m : Nat) : BeatsKept s (s.redNote p m) := by
  have hKeeps : Keeps [.now, .regs, .engines] s (s.redNote p m) := .redNote .refl rfl
  exact of_red (hKeeps.frame .red rfl)

theorem setPairState (s : State) (p st : Nat) : BeatsKept s (s.setPairState p st) := of_red (red_followTwins _)

theorem declareMark (s : State) (p m cause : Nat) : BeatsKept s (s.declareMark p m cause) := of_red rfl

theorem declareTell (s : State) (p m : Nat) : BeatsKept s (s.declareTell p m) := by
  unfold State.declareTell
  split
  · exact redNote ..
  · exact refl _

theorem declareShow (s : State) (p m e : Nat) : BeatsKept s (s.declareShow p m e) := by
  unfold State.declareShow
  split
  · split
    · exact setPairState ..
    · exact (setPairSlot ..).trans (setPairState ..)
  · exact of_red (red_followTwins _)

theorem declareSlot (s : State) (p m cause : Nat) : BeatsKept s (s.declareSlot p m cause) := by
  obtain ⟨x, hSteps⟩ := declareSlot_steps s p m cause
  rw [hSteps]
  exact (((declareMark s p m cause).trans (declareTell ..)).trans (setPairSlot ..)).trans (declareShow ..)

theorem judgeEngine (s : State) (e : Nat) : BeatsKept s (s.judgeEngine e) := by
  have hShown : BeatsKept s (if s.flag (Fld.RED_LANT_FAULT e) = s.faultReport e then s
      else s.setFlag (Fld.RED_LANT_FAULT e) (s.faultReport e)) := by
    split
    · exact refl s
    · exact of_red rfl
  unfold State.judgeEngine
  dsimp only
  generalize (if s.flag (Fld.RED_LANT_FAULT e) = s.faultReport e then s
      else s.setFlag (Fld.RED_LANT_FAULT e) (s.faultReport e)) = u at hShown
  refine hShown.trans ?_
  split
  · exact refl u
  · split
    · split
      · exact declareSlot ..
      · split
        · exact (of_red (t := u.count Fld.RED_CNT1_RESTORE_FAIL) (count_red ..)).trans (declareSlot ..)
        · exact of_red ((setFlag_red ..).trans (setFlag_red ..))
    · exact refl u

theorem showMon (s : State) : BeatsKept s s.showMon := by
  have hKeeps : Keeps [.now, .regs] s s.showMon := .showMon .refl rfl
  exact of_red (hKeeps.frame .red rfl)

theorem judgeEngines (es : List Nat) (s : State) : BeatsKept s (es.foldl (fun s e => s.judgeEngine e) s) := by
  induction es generalizing s with
  | nil => exact refl s
  | cons e es ih => exact (judgeEngine s e).trans (ih _)

theorem judgeBeats (s : State) : BeatsKept s s.judgeBeats := by
  unfold State.judgeBeats
  split
  · exact (judgeEngines s.monitoredEngines s).trans (showMon _)
  · exact refl s

end BeatsKept

/-- The word of one engine of a LANTERN message. -/
def heardWord (d : Nat) (words : List Word) (s : State) (i : Nat) : State :=
  let e := d * 12 + i
  let w := (words[i + 1]?).getD 0
  let b := s.beat e
  let new := fieldGet w 0 8
  let s := s.setBeat e { b with lantern := new, changed := b.changed || new != b.lantern, fault := w.getLsbD 8 }
  if new = b.lantern then s else s.setFld (Fld.RED_LANT_MISS1 e) 0

theorem beat_setBeat_same (s : State) (e : Nat) (b : Beat) : (s.setBeat e b).beat e = b := Store.get_set_same s.red.beats e b

theorem beat_setBeat_ne (s : State) {e e' : Nat} (b : Beat) (h : e' ≠ e) : (s.setBeat e b).beat e' = s.beat e' :=
  Store.get_set_ne _ _ h

theorem beat_heardWord_ne (d : Nat) (words : List Word) (s : State) {i e : Nat} (h : e ≠ d * 12 + i) :
    (heardWord d words s i).beat e = s.beat e := by
  unfold heardWord
  dsimp only
  split <;> exact beat_setBeat_ne s _ h

/-- The engine's word is shown. -/
theorem beat_heardWord_same (d : Nat) (words : List Word) (s : State) (i : Nat) {w : Word} (hWord : (words[i + 1]?).getD 0 = w) :
    ((heardWord d words s i).beat (d * 12 + i)).lantern = fieldGet w 0 8 ∧
      ((heardWord d words s i).beat (d * 12 + i)).fault = w.getLsbD 8 := by
  have hBeat : (heardWord d words s i).beat (d * 12 + i) = { s.beat (d * 12 + i) with
      lantern := fieldGet w 0 8
      changed := (s.beat (d * 12 + i)).changed || fieldGet w 0 8 != (s.beat (d * 12 + i)).lantern, fault := w.getLsbD 8 } := by
    unfold heardWord
    dsimp only
    rw [hWord]
    split <;> exact beat_setBeat_same ..
  rw [hBeat]
  exact ⟨rfl, rfl⟩

theorem beat_heardWords_ne (d : Nat) (words : List Word) {e : Nat} (l : List Nat) (s : State) (h : ∀ i ∈ l, e ≠ d * 12 + i) :
    (l.foldl (heardWord d words) s).beat e = s.beat e :=
  List.foldlRecOn (motive := fun (t : State) => t.beat e = s.beat e) l _ rfl fun t ht i hi =>
    (beat_heardWord_ne d words t (h i hi)).trans ht

/-- The words of a LANTERN message taken, and its district heard. -/
def heardDistrict (d : Nat) (s : State) : State :=
  (s.setRed { s.red with heard := d :: s.red.heard.filter (· != d) }).judgeBeats

theorem takeLantern_steps (s : State) (d : Nat) (words : List Word) :
    s.takeLantern d words = heardDistrict d ((List.range 12).foldl (heardWord d words) s) := rfl

theorem heardDistrict_spec (d : Nat) (s : State) (e : Nat) :
    (heardDistrict d s).beat e = s.beat e ∧ d ∈ (heardDistrict d s).red.heard := by
  obtain ⟨hBeats, hHeard⟩ := BeatsKept.judgeBeats (s.setRed { s.red with heard := d :: s.red.heard.filter (· != d) })
  refine ⟨?_, ?_⟩
  · rw [beat, heardDistrict, hBeats]
    rfl
  · rw [heardDistrict, hHeard]
    exact List.mem_cons_self

/-- A LANTERN message of a district: its first engine's word, and the district heard. -/
theorem takeLantern_spec (s : State) (d : Nat) (w x : Word) : ((s.takeLantern d [w, x]).beat (d * 12)).lantern = fieldGet x 0 8 ∧
    ((s.takeLantern d [w, x]).beat (d * 12)).fault = x.getLsbD 8 ∧ d ∈ (s.takeLantern d [w, x]).red.heard := by
  have hRange : List.range 12 = 0 :: (List.range 11).map Nat.succ := List.range_succ_eq_map
  have hFirst := beat_heardWord_same d [w, x] s 0 rfl
  have hRest := beat_heardWords_ne d [w, x] (e := d * 12 + 0) ((List.range 11).map Nat.succ) (heardWord d [w, x] s 0) (by
    intro i hi
    obtain ⟨j, _, rfl⟩ := List.mem_map.mp hi
    omega)
  rw [takeLantern_steps, hRange, List.foldl_cons]
  obtain ⟨hBeat, hHeard⟩ :=
    heardDistrict_spec d (((List.range 11).map Nat.succ).foldl (heardWord d [w, x]) (heardWord d [w, x] s 0)) (d * 12 + 0)
  rw [← hRest, ← hBeat] at hFirst
  exact ⟨hFirst.1, hFirst.2, hHeard⟩

/-! ### SUPER -/

/-- A word of a pair whose slot it does not declare failed clears the pair's silence. -/
theorem takeSuper_hears (s : State) {chip : Nat} {w : Word} (hFail : w.getLsbD 6 = false) (hBack : w.getLsbD 7 = false)
    (hFormed : s.pairState (fieldGet w 0 6) ≠ 0) (hRemote : (s.pair (fieldGet w 0 6)).remote = some chip) :
    s.takeSuper chip w = s.setPair (fieldGet w 0 6) { s.pair (fieldGet w 0 6) with silent := 0 } := by
  unfold takeSuper
  dsimp only
  rw [if_neg (by rintro (h | h); exacts [hFormed h, h hRemote]), hFail, hBack]
  rfl

end Sys2Proof.Machine.State

open Sys2Proof Sys2Proof.Machine Sys2Proof.Machine.State

/-- Settles O41: a message of each type reaches the node that DEST names, and what that node does with it. -/
theorem avenueMessages : Obligations.AvenueMessages := by
  intro s m w x y d hRun hHere hLow hIn hd
  have hUnit {l : Nat} (hl : l = 8 ∨ l = 9 ∨ l = 10) : s.hasLocal l = true := by
    rcases hl with rfl | rfl | rfl <;> rfl
  have hLocal := hasLocal_district hd hIn
  have hDistrict {n : Nat} (hType : m.type = n) (hNode : m.dest % 16 = d) (hn : n = 3 ∨ n = 4 ∨ n = 8) :
      s.deliverMsg m = s.takeMsg d m := by
    refine deliverMsg_takes hHere hLow hNode hLocal ?_
    rw [hType]
    rcases hn with rfl | rfl | rfl
    · exact decide_eq_true hd
    · exact decide_eq_true hd
    · exact (congrArg₂ (· || ·) rfl (decide_eq_true hd)).trans (Bool.or_true _)
  refine ⟨fun hType hNode hSub => ⟨fun hFits => ?_, fun hFull => ?_⟩, fun hType hNode hFlow hWords hOne => ⟨fun hFirst hLast hOwner => ?_,
    fun hPast => ?_⟩, fun hType hNode hWords hLen => ⟨fun hClock hFatal hCell => ?_, fun hClock => ?_⟩,
    fun hType hNode hSub hWords => ?_, fun hType hNode hSub hWords hHost => ?_,
    fun hType hNode hSub hWords hLease hHeld hDropped hReturned hStack lw hWait hHandle hRelease hgd => ?_,
    fun hType hNode hSrc hWords => ?_, fun hType hNode hWords hFail hBack hFormed hRemote => ?_⟩
  · rw [exec_engine hRun hType, hDistrict hType hNode (.inl rfl), takeMsg, if_pos hType]
    exact ⟨_, rfl, takeEngineMsg_fits hd hSub hFits⟩
  · rw [exec_engine hRun hType, hDistrict hType hNode (.inl rfl), takeMsg, if_pos hType, takeEngineMsg_full hSub hFull]
    have hCnt1 : Reg.AVE_CNT1 ≠ Reg.AVE_GW_CNT d := by unfold Reg.AVE_CNT1 Reg.AVE_GW_CNT; omega
    have hPtrCnt : Reg.AVE_GW_PTR d 2 ≠ Reg.AVE_GW_CNT d := by unfold Reg.AVE_GW_PTR Reg.AVE_GW_CNT; omega
    have hPtrCnt1 : Reg.AVE_GW_PTR d 2 ≠ Reg.AVE_CNT1 := by unfold Reg.AVE_GW_PTR Reg.AVE_CNT1; omega
    refine ⟨_, rfl, fld_of_reg ((reg_count_ne _ _ hPtrCnt).trans (reg_count_ne _ _ hPtrCnt1)), ?_⟩
    exact (fld_of_reg (reg_count_ne _ _ hCnt1)).trans (fld_count_on _ _ rfl)
  · rw [exec_slice hRun hType, hDistrict hType hNode (.inr (.inl rfl)), takeMsg, if_neg (by omega), if_pos hType,
      takeSlice_single hFlow hWords hOne, if_pos ⟨hFirst, hLast, hOwner⟩]
    exact ⟨_, rfl, pendW_pendWrite ..⟩
  · rw [exec_slice hRun hType, hDistrict hType hNode (.inr (.inl rfl)), takeMsg, if_neg (by omega), if_pos hType,
      takeSlice_single hFlow hWords hOne, if_neg fun h => absurd h.2.1 (Nat.not_lt.mpr hPast)]
    exact ⟨_, rfl, rfl, fld_count_on _ _ rfl⟩
  · rw [exec_frame hRun hType, deliverMsg_takes hHere hLow hNode (hUnit (.inl rfl)) (by rw [hType]; rfl), takeMsg, if_neg (by omega),
      if_neg (by omega), if_pos hType, if_pos rfl, takeFrameMsg_word hClock hFatal hCell hWords hLen]
    exact ⟨_, rfl, offerFrame_small hFatal hCell (length_oneWordFrame x)⟩
  · rw [exec_frame hRun hType, deliverMsg_takes hHere hLow hNode (hUnit (.inl rfl)) (by rw [hType]; rfl), takeMsg, if_neg (by omega),
      if_neg (by omega), if_pos hType, if_pos rfl, takeFrameMsg_gone hClock]
    exact ⟨_, rfl, rfl, fld_count_on _ _ rfl⟩
  · obtain ⟨r, hQueue, hReply, hTake, hLength⟩ := takeImage_load (s := s) hSub hWords
    rw [exec_image hRun hType, deliverMsg_takes hHere hLow hNode (hUnit (.inr (.inl rfl))) (by rw [hType]; rfl), takeMsg,
      if_neg (by omega), if_neg (by omega), if_neg (by omega), if_pos hType, if_pos rfl]
    exact ⟨_, r, rfl, hQueue, hReply, hTake, hLength⟩
  · rw [exec_mailbox hRun hType, deliverMsg_takes hHere hLow hNode (hUnit (.inr (.inr rfl))) (by rw [hType]; rfl), takeMsg,
      if_neg (by omega), if_neg (by omega), if_neg (by omega), if_neg (by omega), if_pos hType, if_pos rfl]
    exact ⟨_, rfl, takeMail_ring hSub hWords hHost⟩
  · rw [exec_leaseMessage hRun hType, hDistrict hType hNode (.inr (.inr rfl)), takeMsg,
      if_neg (by omega), if_neg (by omega), if_neg (by omega), if_neg (by omega), if_neg (by omega), if_pos hType, if_pos hd,
      takeLeaseMsg_outcome hSub hWords hLease hHeld hDropped hReturned hStack hWait hHandle hRelease]
    exact ⟨_, rfl, finishLease_word s _ _ x y hgd⟩
  · have hSrcNode : m.src % 16 = d := by omega
    have hSrcChip : nodeChip m.src = s.chip := by
      unfold nodeChip
      omega
    rw [exec_lantern hRun hType, deliverMsg_takes hHere hLow hNode (hUnit (.inr (.inr rfl))) (by rw [hType]; rfl), takeMsg,
      if_neg (by omega), if_neg (by omega), if_neg (by omega), if_neg (by omega), if_neg (by omega), if_neg (by omega), if_pos hType,
      if_pos ⟨by omega, hSrcChip⟩, hSrcNode, hWords]
    exact ⟨_, rfl, takeLantern_spec s d w x⟩
  · rw [exec_super hRun hType, deliverMsg_takes hHere hLow hNode (hUnit (.inr (.inr rfl))) (by rw [hType]; rfl), takeMsg,
      if_neg (by omega), if_neg (by omega), if_neg (by omega), if_neg (by omega), if_neg (by omega), if_neg (by omega),
      if_neg (by omega), if_pos hType, if_pos rfl, hWords, List.foldl_cons, List.foldl_nil,
      takeSuper_hears s hFail hBack hFormed hRemote]
    exact ⟨_, rfl, by rw [pair_setPair], rfl⟩

end

section
/-!
PROOF. O38: the ring links: training in its steps, loss, retry and the relay of frames.
-/

namespace Sys2Proof.Machine.State

variable {s : State} {n : Nat}

/-! ### Training -/

theorem training_setTraining (s : State) (n j : Nat) : (s.setTraining n j).training n = { step := j, began := s.cycle } :=
  Store.get_set_same s.ave.training n _

theorem wilernState_setTraining (s : State) (n j i : Nat) : (s.setTraining n j).wilernState i = s.wilernState i := rfl

theorem startTraining_spec (s : State) (n : Nat) : (s.startTraining n).wilernState n = 1 ∧
    (s.startTraining n).training n = { step := 0, began := s.cycle } :=
  ⟨fld_setFld_on _ _ rfl, training_setTraining s n 0⟩

theorem wilernEnabled_startTraining (s : State) (n : Nat) : (s.startTraining n).wilernEnabled n = s.wilernEnabled n := by
  have hCtrl : Reg.AVE_CTRL ≠ Reg.AVE_WLN_STAT n := by
    unfold Reg.AVE_CTRL Reg.AVE_WLN_STAT
    omega
  have hReg : (s.startTraining n).reg Reg.AVE_CTRL = s.reg Reg.AVE_CTRL := reg_setFld_ne (s.setTraining n 0) _ hCtrl
  have hW0 : (s.startTraining n).flag Fld.AVE_CTRL_W0_EN = s.flag Fld.AVE_CTRL_W0_EN := flag_of_reg hReg
  have hW1 : (s.startTraining n).flag Fld.AVE_CTRL_W1_EN = s.flag Fld.AVE_CTRL_W1_EN := flag_of_reg hReg
  rw [wilernEnabled, hW0, hW1, wilernEnabled]

/-- A port's enable bit set. -/
def setWilernEnable (s : State) (n : Nat) : State :=
  if n = 0 then s.setFlag Fld.AVE_CTRL_W0_EN true else s.setFlag Fld.AVE_CTRL_W1_EN true

theorem wilernEnabled_setWilernEnable (s : State) (n : Nat) : (s.setWilernEnable n).wilernEnabled n = true := by
  unfold setWilernEnable wilernEnabled
  split <;> exact flag_setFlag_on _ _ rfl rfl

theorem cycle_setWilernEnable (s : State) (n : Nat) : (s.setWilernEnable n).cycle = s.cycle := by
  unfold setWilernEnable
  split <;> rfl

theorem exec_wilernEnable (hRun : s.inReset = false) (hn : n < 2) (hHas : s.variant.hasWilern = true) (hMode : s.mode ≠ 0)
    (hDown : s.wilernState n = 0) : exec (.wilernEnable n) s = .next ((s.setWilernEnable n).startTraining n) := by
  refine congrArg Host.Outcome.next ((live_of_running hRun _).trans ?_)
  rw [hHas, decide_eq_true hn]
  exact (if_pos rfl).trans (if_pos ⟨hMode, hDown⟩)

/-- A step in its order of a port in training. -/
theorem exec_trainingStepDone {i : TrainStep} {j : Nat} (hRun : s.inReset = false) (hOrder : trainOrder i = some j)
    (hState : s.wilernState n = 1) (hStep : (s.training n).step = j) :
    exec (.trainingStepDone n i) s = .next (s.trainStep n i) := by
  refine congrArg Host.Outcome.next ((live_of_running hRun _).trans ?_)
  have hRight : s.wilernState n = 1 ∧ trainOrder i = some (s.training n).step := ⟨hState, by rw [hOrder, hStep]⟩
  cases i with
  | map _ _ _ => exact nomatch hOrder
  | failed => exact nomatch hOrder
  | clockRecovery _ => exact if_pos hRight
  | blockLock _ => exact if_pos hRight
  | deskew _ => exact if_pos hRight
  | peer _ _ _ _ => exact if_pos hRight
  | echoes _ => exact if_pos hRight

theorem exec_trainingStepDone_failed (hRun : s.inReset = false) (hState : s.wilernState n = 1) :
    exec (.trainingStepDone n .failed) s = .next (s.wilernDown n) :=
  congrArg Host.Outcome.next ((live_of_running hRun _).trans (if_pos hState))

theorem exec_trainingStepDone_echoes_early (hRun : s.inReset = false) (least : Nat) (hStep : (s.training n).step ≠ 4) :
    exec (.trainingStepDone n (.echoes least)) s = .next s := by
  refine congrArg Host.Outcome.next ((live_of_running hRun _).trans (if_neg fun h => hStep ?_))
  exact (Option.some.inj h.2).symm

theorem wilernState_wilernDown (s : State) (n : Nat) : (s.wilernDown n).wilernState n = 0 := by
  unfold wilernDown wilernState
  rw [fld_setAve, fld_setFld_off _ _ rfl, fld_setFld_on _ _ rfl]
  rfl

theorem lockLanes_spec (s : State) (n : Nat) : let t := (s.setFld (Fld.AVE_WLN_STAT_LANE_LOCK n) 0xF).setTraining n 2
    t.wilernState n = s.wilernState n ∧ t.training n = { step := 2, began := s.cycle } ∧
      t.fld (Fld.AVE_WLN_STAT_LANE_LOCK n) = 0xF :=
  ⟨fld_setFld_off s 0xF rfl, training_setTraining .., fld_setFld_on s 0xF rfl⟩

theorem medium_shown (s : State) (n : Nat) {m : Nat} (h : m ≤ 255) :
    (s.setFld (Fld.AVE_WLN_STAT_MEDIUM n) m).fld (Fld.AVE_WLN_STAT_MEDIUM n) = m :=
  (fld_setFld_on s m rfl).trans (Nat.mod_eq_of_lt (Nat.lt_succ_of_le h))

theorem wilernUp_spec (s : State) (n : Nat) : (s.wilernUp n).fld (Fld.AVE_WLN_STAT_MEDIUM n) = s.fld (Fld.AVE_WLN_STAT_MEDIUM n) ∧
    (s.wilernUp n).wilernState n = 2 ∧ (s.ave.started = true → (s.wilernUp n).wilernUsed n = false) := by
  refine ⟨fld_setFld_off s 2 rfl, fld_setFld_on s 2 rfl, fun hStarted => ?_⟩
  have hFresh : (s.wilernUp n).ave.fresh = n :: s.ave.fresh := if_pos hStarted
  rw [wilernUsed, hFresh, List.contains_cons, beq_self_eq_true, Bool.true_or, Bool.not_true, Bool.and_false]

theorem wilernError_spec (s : State) (n : Nat) : let t := s.setFld (Fld.AVE_WLN_STAT_STATE n) 3
    t.fld (Fld.AVE_WLN_STAT_MEDIUM n) = s.fld (Fld.AVE_WLN_STAT_MEDIUM n) ∧ t.wilernState n = 3 ∧ t.wilernUsed n = false := by
  have hError : (s.setFld (Fld.AVE_WLN_STAT_STATE n) 3).fld (Fld.AVE_WLN_STAT_STATE n) = 3 := fld_setFld_on s 3 rfl
  refine ⟨fld_setFld_off s 3 rfl, hError, ?_⟩
  rw [wilernUsed, hError]
  rfl

/-- The state that the echoes of a short medium leave: UP or ERROR, and in ERROR or not in use where cycles run. -/
theorem trainStep_echoes (s : State) (n : Nat) {least : Nat} (hShort : (least - 192 + 1) / 2 ≤ 255) :
    (s.trainStep n (.echoes least)).fld (Fld.AVE_WLN_STAT_MEDIUM n) = (least - 192 + 1) / 2 ∧
      ((s.trainStep n (.echoes least)).wilernState n = 2 ∨ (s.trainStep n (.echoes least)).wilernState n = 3) ∧
      (s.ave.started = true → (s.trainStep n (.echoes least)).wilernUsed n = false) := by
  have hMedium := medium_shown s n hShort
  have hAve : (s.setFld (Fld.AVE_WLN_STAT_MEDIUM n) ((least - 192 + 1) / 2)).ave = s.ave := setFld_ave ..
  unfold trainStep
  dsimp only
  rw [if_neg (Nat.not_lt.mpr hShort)]
  generalize (least - 192 + 1) / 2 = m at hMedium hAve
  generalize s.setFld (Fld.AVE_WLN_STAT_MEDIUM n) m = u at hMedium hAve
  rw [← hAve]
  split
  · obtain ⟨hKept, hUp, hFresh⟩ := wilernUp_spec u n
    exact ⟨hKept.trans hMedium, .inl hUp, hFresh⟩
  · obtain ⟨hKept, hError, hIdle⟩ := wilernError_spec u n
    exact ⟨hKept.trans hMedium, .inr hError, fun _ => hIdle⟩

/-! ### Retry and loss -/

theorem exec_trainingRetry_due (hRun : s.inReset = false) (hEnabled : s.wilernEnabled n = true) (hMode : s.mode ≠ 0)
    (hDown : s.wilernState n = 0) (hDue : Store.get (fun _ => 0) s.ave.retryAt n ≤ s.cycle) :
    exec (.trainingRetry n) s = .next (s.startTraining n) :=
  congrArg Host.Outcome.next ((live_of_running hRun _).trans (if_pos ⟨hEnabled, hMode, hDown, hDue⟩))

theorem exec_trainingRetry_early (hRun : s.inReset = false) (hEarly : s.cycle < Store.get (fun _ => 0) s.ave.retryAt n) :
    exec (.trainingRetry n) s = .next s := by
  refine congrArg Host.Outcome.next ((live_of_running hRun _).trans (if_neg fun h => ?_))
  obtain ⟨_, _, _, hDue⟩ := h
  omega

theorem retryAt_wilernDown (s : State) (n : Nat) : Store.get (fun _ => 0) (s.wilernDown n).ave.retryAt n = s.cycle + 800000 :=
  Store.get_set_same s.ave.retryAt n (s.cycle + usCycles 1000)

/-- What the loss of a link leaves, before the ring's map is judged. -/
theorem countedDown_spec (s : State) (n : Nat) :
    let u := (s.wilernDown n).count (Fld.AVE_WLN_STAT_DOWN_CNT n)
    u.wilernState n = 0 ∧ u.fld (Fld.AVE_WLN_STAT_DOWN_CNT n) = min 255 (s.fld (Fld.AVE_WLN_STAT_DOWN_CNT n) + 1) ∧
      Store.get (fun _ => 0) u.ave.retryAt n = s.cycle + 800000 := by
  have hSame : (s.wilernDown n).fld (Fld.AVE_WLN_STAT_DOWN_CNT n) = s.fld (Fld.AVE_WLN_STAT_DOWN_CNT n) := by
    unfold wilernDown
    rw [fld_setAve, fld_setFld_off _ _ rfl, fld_setFld_off _ _ rfl]
  refine ⟨(fld_count_off _ _ rfl).trans (wilernState_wilernDown s n), ?_, ?_⟩
  · rw [fld_count_on _ _ rfl, hSame]
    rfl
  · exact retryAt_wilernDown s n

theorem reg_aloneMap_wln (s : State) (n : Nat) (b : Bool) :
    (s.aloneMap b).reg (Reg.AVE_WLN_STAT n) = s.reg (Reg.AVE_WLN_STAT n) := by
  have hRing : Reg.AVE_WLN_STAT n ≠ Reg.AVE_RING_STAT := by unfold Reg.AVE_WLN_STAT Reg.AVE_RING_STAT; omega
  have hStat : Reg.AVE_WLN_STAT n ≠ Reg.AVE_STAT := by unfold Reg.AVE_WLN_STAT Reg.AVE_STAT; omega
  unfold aloneMap
  dsimp only
  rw [reg_setFlag_ne _ _ hStat, reg_setFlag_ne _ _ hStat, reg_setFld_ne _ _ hRing, reg_setFlag_ne _ _ hRing, reg_setFlag_ne _ _ hRing,
    reg_setFld_ne _ _ hRing, reg_setFld_ne _ _ hRing, reg_setAve]

theorem broken_aloneMap (s : State) (b : Bool) : (s.aloneMap b).flag Fld.AVE_RING_STAT_BROKEN = b := by
  unfold aloneMap
  dsimp only
  rw [flag_setFlag_off _ _ rfl, flag_setFlag_off _ _ rfl, flag_setFld_off _ _ rfl]
  exact flag_setFlag_on _ _ rfl rfl

theorem retryAt_aloneMap (s : State) (b : Bool) : (s.aloneMap b).ave.retryAt = s.ave.retryAt := rfl

theorem exec_wilernLinkDown (hRun : s.inReset = false) : exec (.wilernLinkDown n) s = .next (s.wilernLoss n) :=
  congrArg Host.Outcome.next (live_of_running hRun _)

/-- A link UP that is lost. -/
theorem wilernLoss_spec (hUp : s.wilernState n = 2) : (s.wilernLoss n).wilernState n = 0 ∧
    (s.wilernLoss n).fld (Fld.AVE_WLN_STAT_DOWN_CNT n) = min 255 (s.fld (Fld.AVE_WLN_STAT_DOWN_CNT n) + 1) ∧
    (s.wilernLoss n).flag Fld.AVE_RING_STAT_BROKEN = true ∧
    Store.get (fun _ => 0) (s.wilernLoss n).ave.retryAt n = s.cycle + 800000 := by
  obtain ⟨hState, hCount, hRetry⟩ := countedDown_spec s n
  unfold wilernLoss
  rw [if_pos hUp]
  dsimp only
  generalize (s.wilernDown n).count (Fld.AVE_WLN_STAT_DOWN_CNT n) = u at hState hCount hRetry
  split
  · have hReg : (u.setFlag Fld.AVE_RING_STAT_BROKEN true).reg (Reg.AVE_WLN_STAT n) = u.reg (Reg.AVE_WLN_STAT n) :=
      reg_setFlag_ne _ _ (by show Reg.AVE_WLN_STAT n ≠ Reg.AVE_RING_STAT; unfold Reg.AVE_WLN_STAT Reg.AVE_RING_STAT; omega)
    exact ⟨(fld_of_reg hReg).trans hState, (fld_of_reg hReg).trans hCount, flag_setFlag_on _ _ rfl rfl, hRetry⟩
  · have hReg := reg_aloneMap_wln u n true
    exact ⟨(fld_of_reg hReg).trans hState, (fld_of_reg hReg).trans hCount, broken_aloneMap u true, by rw [retryAt_aloneMap]; exact hRetry⟩

/-! ### The relay -/

theorem out_checkRelay (s : State) (n : Nat) (f : RelayFrame) : (s.checkRelay n f).out = s.out := by
  have hKeeps : Keeps [.now, .regs, .ave] s (s.checkRelay n f) := .checkRelay .refl rfl
  exact hKeeps.frame .out rfl

theorem exec_relayFrame {origin : Nat} (hRun : s.inReset = false) (hIn : s.wilernUsed n = true) (hOut : s.wilernUsed (1 - n) = true)
    (hOther : origin ≠ s.chip) (hPeer : s.fld (Fld.AVE_WLN_STAT_PEER_CHIP (1 - n)) ≠ origin) (f : RelayFrame) :
    exec (.relayFrame n origin f) s = .next ((s.emit (.relayed (1 - n) f)).checkRelay n f) := by
  refine congrArg Host.Outcome.next ((live_of_running hRun _).trans ?_)
  rw [if_neg (by rintro (h | h); exacts [absurd h (by rw [hIn]; exact Bool.false_ne_true), hOther h])]
  exact congrArg (fun t : State => t.checkRelay n f) (if_pos ⟨hOut, hPeer⟩)

theorem exec_relayFrame_own (hRun : s.inReset = false) (f : RelayFrame) : exec (.relayFrame n s.chip f) s = .next s :=
  congrArg Host.Outcome.next ((live_of_running hRun _).trans (if_pos (.inr rfl)))

/-- A copy of a slot's frame is held for its replay. -/
theorem holdReplay_slot (s : State) (k port : Nat) (msgs : List Msg) : ∃ r ∈ (s.holdReplay k port msgs).ave.replayNext, r.slot = k := by
  unfold holdReplay
  split
  · next hAny =>
    obtain ⟨r, hMem, hSlot⟩ := List.any_eq_true.mp hAny
    refine ⟨_, List.mem_map.mpr ⟨r, hMem, rfl⟩, ?_⟩
    split
    · exact beq_iff_eq.mp hSlot
    · exact beq_iff_eq.mp hSlot
  · exact ⟨_, List.mem_append_right _ List.mem_cons_self, rfl⟩

end Sys2Proof.Machine.State

open Sys2Proof Sys2Proof.Machine Sys2Proof.Machine.State

/-- Settles O38: a step of training in its order and time leads to the next, and a link lost, retried or relayed over does as given. -/
theorem wilernLinks : Obligations.WilernLinks := by
  intro s n origin k least ps off msgs f hRun hn medium step began trained
  have hTrained {i : TrainStep} {j j' : Nat} (hState : s.wilernState n = 1) (hOrder : trainOrder i = some j) (hStep : step = j)
      (hNext : s.trainStep n i = s.setTraining n j') : trained i j' := by
    rw [show trained i j' = (∃ t, exec (.trainingStepDone n i) s = .next t ∧ t.wilernState n = 1 ∧
      t.training n = { step := j', began := s.cycle }) from rfl, exec_trainingStepDone hRun hOrder hState hStep, hNext]
    exact ⟨_, rfl, hState, training_setTraining ..⟩
  refine ⟨fun hHas hMode hDown => ?_, fun hState => ⟨fun hStep hTime => ?_, fun hStep hTime => ?_, fun hStep hSkew => ?_,
    exec_trainingStepDone_echoes_early hRun least, ?_, fun hStep hLong => ?_, fun hStep hShort => ?_⟩,
    fun hEnabled hMode hDown => ⟨fun hDue => ?_, exec_trainingRetry_early hRun⟩, fun hUp => ?_,
    fun hIn hOut hOther hPeer => ⟨?_, fun hOff => ?_⟩, exec_relayFrame_own hRun f⟩
  · obtain ⟨hOne, hTraining⟩ := startTraining_spec (s.setWilernEnable n) n
    rw [cycle_setWilernEnable] at hTraining
    rw [exec_wilernEnable hRun hn hHas hMode hDown]
    exact ⟨_, rfl, hOne, (wilernEnabled_startTraining ..).trans (wilernEnabled_setWilernEnable s n), hTraining⟩
  · exact hTrained hState rfl hStep (if_pos ⟨rfl, hTime⟩)
  · have hLocked : s.trainStep n (.blockLock 0xF) = (s.setFld (Fld.AVE_WLN_STAT_LANE_LOCK n) 0xF).setTraining n 2 :=
      if_pos ⟨rfl, hTime⟩
    rw [show trained (.blockLock 0xF) 2 = (∃ t, exec (.trainingStepDone n (.blockLock 0xF)) s = .next t ∧ t.wilernState n = 1 ∧
      t.training n = { step := 2, began := s.cycle }) from rfl, exec_trainingStepDone hRun rfl hState hStep, hLocked]
    obtain ⟨hKept, hTraining, hLanes⟩ := lockLanes_spec s n
    exact ⟨⟨_, rfl, hKept.trans hState, hTraining⟩, _, rfl, hLanes⟩
  · exact hTrained hState rfl hStep (if_pos hSkew)
  · rw [exec_trainingStepDone_failed hRun hState]
    exact ⟨_, rfl, wilernState_wilernDown s n⟩
  · have hError : s.trainStep n (.echoes least) = s.setFld (Fld.AVE_WLN_STAT_STATE n) 3 := if_pos hLong
    rw [exec_trainingStepDone hRun rfl hState hStep, hError]
    exact ⟨_, rfl, fld_setFld_on _ _ rfl⟩
  · rw [exec_trainingStepDone hRun rfl hState hStep]
    exact ⟨_, rfl, trainStep_echoes s n hShort⟩
  · rw [exec_trainingRetry_due hRun hEnabled hMode hDown hDue]
    exact ⟨_, rfl, (startTraining_spec s n).1⟩
  · rw [exec_wilernLinkDown hRun]
    exact ⟨_, rfl, wilernLoss_spec hUp⟩
  · rw [exec_relayFrame hRun hIn hOut hOther hPeer]
    exact ⟨_, rfl, out_checkRelay ..⟩
  · have hHeld : (s.emit (.relayed (1 - n) (.slot k off true msgs))).checkRelay n (.slot k off true msgs) =
        (s.emit (.relayed (1 - n) (.slot k off true msgs))).holdReplay k n msgs :=
      (if_neg (Nat.not_lt.mpr hOff)).trans (if_neg (by exact Bool.false_ne_true))
    rw [exec_relayFrame hRun hIn hOut hOther hPeer, hHeld]
    exact ⟨_, rfl, holdReplay_slot ..⟩

end

section
/-!
PROOF. O47: received frames, the update of receive objects, and their read lock.
-/

namespace Sys2Proof.Machine.State

variable {s t u : State} {n o : Nat}

/-! ### Controllers through updates of other parts -/

theorem lt_16_of_hasCan (h : s.variant.hasCan n = true) : n < 16 := by
  rw [Variant.hasCan, Bool.and_eq_true] at h
  exact of_decide_eq_true h.1

theorem can_of_cans (h : t.cans = s.cans) (n : Nat) : t.can n = s.can n := by rw [can, h, can]

theorem can_fire (s : State) (kind i n : Nat) : (s.fire kind i).can n = s.can n := by
  have hKeeps : Keeps [.now, .regs, .engines] s (s.fire kind i) := .fire .refl rfl
  exact can_of_cans (hKeeps.frame .cans rfl) n

theorem can_setCan (s : State) (n : Nat) (x : Can) : (s.setCan n x).can n = x := Store.get_set_same s.cans n x

theorem rxObj_congr (h : t.can n = s.can n) (o : Nat) : t.rxObj n o = s.rxObj n o := by rw [rxObj, h, rxObj]

theorem lockHolder_congr (h : t.leases = s.leases) (n o : Nat) : t.lockHolder n o = s.lockHolder n o := by
  rw [lockHolder, h, lockHolder]

theorem rxObj_setRxObj (s : State) (n o : Nat) (x : RxObj) : (s.setRxObj n o x).rxObj n o = x := by
  rw [rxObj, setRxObj, can_setCan]
  exact Store.get_set_same (s.can n).rx o x

/-! ### Error counters and the operating state -/

/-- The two counters and the state they give. -/
def errState (s : State) (n tec rec' conf : Nat) (warn : Bool) : State :=
  (((s.setFld (Fld.CAN_ECNT_TEC n) tec).setFld (Fld.CAN_ECNT_REC n) rec').setFld (Fld.CAN_STAT_CONF n) conf).setFlag
    (Fld.CAN_STAT_WARN n) warn

/-- A new state counted where it is bus-off, and its event. -/
def errTold (s : State) (n : Nat) (off changed : Prop) [Decidable off] [Decidable changed] : State :=
  if changed then (if off then s.count (Fld.CAN_CNT1_BUSOFF n) else s).fire 0x0B n
  else if off then s.count (Fld.CAN_CNT1_BUSOFF n) else s

theorem setErr_told (s : State) (n tec rec' : Nat) : s.setErr n tec rec' = (s.errState n tec rec'
    (if s.busOff n then 2 else if 255 < tec then 2 else if 128 ≤ tec ∨ 128 ≤ rec' then 1 else 0)
    (decide (96 ≤ tec ∨ 96 ≤ rec'))).errTold n
    ((if s.busOff n then 2 else if 255 < tec then 2 else if 128 ≤ tec ∨ 128 ≤ rec' then 1 else 0) = 2 ∧ !s.busOff n)
    (s.fld (Fld.CAN_STAT_CONF n) != (if s.busOff n then 2 else if 255 < tec then 2 else if 128 ≤ tec ∨ 128 ≤ rec' then 1 else 0) ||
      s.flag (Fld.CAN_STAT_WARN n) != decide (96 ≤ tec ∨ 96 ≤ rec')) := rfl

theorem reg_errState_ne {a : Nat} (tec rec' conf : Nat) (warn : Bool) (hEcnt : a ≠ Reg.CAN_ECNT n) (hStat : a ≠ Reg.CAN_STAT n) :
    (s.errState n tec rec' conf warn).reg a = s.reg a := by
  rw [errState, reg_setFlag_ne _ _ hStat, reg_setFld_ne _ _ hStat, reg_setFld_ne _ _ hEcnt, reg_setFld_ne _ _ hEcnt]

theorem reg_errTold_ne {a : Nat} (off changed : Prop) [Decidable off] [Decidable changed] (hCnt : a ≠ Reg.CAN_CNT1 n)
    (hMerge : ∀ e, a ≠ Reg.CE_EVT_OVR e) : (s.errTold n off changed).reg a = s.reg a := by
  have hOff : (if off then s.count (Fld.CAN_CNT1_BUSOFF n) else s).reg a = s.reg a := by
    split
    · exact reg_count_ne _ _ hCnt
    · rfl
  unfold errTold
  split
  · exact (reg_fireIn _ 0x0B n _ hMerge).trans hOff
  · exact hOff

theorem reg_setErr_ne {a : Nat} (tec rec' : Nat) (hEcnt : a ≠ Reg.CAN_ECNT n) (hStat : a ≠ Reg.CAN_STAT n)
    (hCnt : a ≠ Reg.CAN_CNT1 n) (hMerge : ∀ e, a ≠ Reg.CE_EVT_OVR e) : (s.setErr n tec rec').reg a = s.reg a := by
  rw [setErr_told, reg_errTold_ne _ _ hCnt hMerge, reg_errState_ne _ _ _ _ hEcnt hStat]

/-- A receiver's step of its error counter leaves the count of frames that match no object. -/
theorem nomatch_setErr (hn : n < 16) (tec rec' : Nat) :
    (s.setErr n tec rec').fld (Fld.CAN_CNT1_NOMATCH n) = s.fld (Fld.CAN_CNT1_NOMATCH n) := by
  have hEcnt : Reg.CAN_CNT1 n ≠ Reg.CAN_ECNT n := by unfold Reg.CAN_CNT1 Reg.CAN_ECNT; omega
  have hStat : Reg.CAN_CNT1 n ≠ Reg.CAN_STAT n := by unfold Reg.CAN_CNT1 Reg.CAN_STAT; omega
  have hMerge (e : Nat) : Reg.CAN_CNT1 n ≠ Reg.CE_EVT_OVR e := ne_mergeRegister (.inl (by unfold Reg.CAN_CNT1; omega)) e
  have hTold (v : State) (off changed : Prop) [Decidable off] [Decidable changed] :
      (v.errTold n off changed).fld (Fld.CAN_CNT1_NOMATCH n) = v.fld (Fld.CAN_CNT1_NOMATCH n) := by
    have hOff : (if off then v.count (Fld.CAN_CNT1_BUSOFF n) else v).fld (Fld.CAN_CNT1_NOMATCH n) = v.fld (Fld.CAN_CNT1_NOMATCH n) := by
      split
      · exact fld_count_off _ _ rfl
      · rfl
    unfold errTold
    split
    · exact (fld_fireIn _ 0x0B n _ hMerge).trans hOff
    · exact hOff
  rw [setErr_told, hTold]
  exact fld_of_reg (f := Fld.CAN_CNT1_NOMATCH n) (reg_errState_ne _ _ _ _ hEcnt hStat)

/-- What the end of a frame and a change of state leave of a controller: its receive objects and waiting updates, and CAN_CNT1. -/
structure RxKept (s t : State) (n : Nat) : Prop where
  busy : (t.can n).busy = (s.can n).busy
  rx : (t.can n).rx = (s.can n).rx
  due : (t.can n).due = (s.can n).due
  cnt1 : t.reg (Reg.CAN_CNT1 n) = s.reg (Reg.CAN_CNT1 n)

theorem RxKept.refl (s : State) (n : Nat) : RxKept s s n := ⟨rfl, rfl, rfl, rfl⟩

theorem RxKept.trans (h : RxKept s t n) (g : RxKept t u n) : RxKept s u n :=
  ⟨g.busy.trans h.busy, g.rx.trans h.rx, g.due.trans h.due, g.cnt1.trans h.cnt1⟩

theorem RxKept.of_can (hCan : t.can n = s.can n) (hReg : t.reg (Reg.CAN_CNT1 n) = s.reg (Reg.CAN_CNT1 n)) : RxKept s t n :=
  ⟨by rw [hCan], by rw [hCan], by rw [hCan], hReg⟩

theorem RxKept.fire (s : State) (kind i : Nat) (hn : n < 16) : RxKept s (s.fire kind i) n :=
  .of_can (can_fire ..) (reg_fireIn s kind i _ (ne_mergeRegister (.inl (by unfold Reg.CAN_CNT1; omega))))

theorem stat_ne_cnt1 (n : Nat) : Reg.CAN_CNT1 n ≠ Reg.CAN_STAT n := by
  unfold Reg.CAN_CNT1 Reg.CAN_STAT
  omega

theorem RxKept.setStat (s : State) {f : Fld} (v : Nat) (hf : f.reg = Reg.CAN_STAT n) : RxKept s (s.setFld f v) n :=
  .of_can rfl (reg_setFld_ne _ _ (by rw [hf]; exact stat_ne_cnt1 n))

theorem RxKept.setStatFlag (s : State) {f : Fld} (b : Bool) (hf : f.reg = Reg.CAN_STAT n) : RxKept s (s.setFlag f b) n :=
  .of_can rfl (reg_setFlag_ne _ _ (by rw [hf]; exact stat_ne_cnt1 n))

theorem RxKept.forgetChosen (s : State) (n : Nat) : RxKept s (s.setCan n { s.can n with chosen := none }) n :=
  ⟨by rw [can_setCan], by rw [can_setCan], by rw [can_setCan], rfl⟩

theorem RxKept.setCanOp (s : State) (op : Nat) (hn : n < 16) : RxKept s (s.setCanOp n op) n := by
  unfold State.setCanOp
  split
  · exact .refl s n
  · have hChosen : RxKept s (if op = 3 then s else s.setCan n { s.can n with chosen := none }) n := by
      split
      · exact .refl s n
      · exact .forgetChosen s n
    dsimp only
    generalize (if op = 3 then s else s.setCan n { s.can n with chosen := none }) = u at hChosen
    have hStat := hChosen.trans (.setStat u (f := Fld.CAN_STAT_OPSTATE n) op rfl)
    generalize u.setFld (Fld.CAN_STAT_OPSTATE n) op = v at hStat
    refine .trans ?_ (.fire _ _ _ hn)
    split
    · exact hStat.trans (.setStatFlag v false rfl)
    · exact hStat

theorem RxKept.canFollow (s : State) (hn : n < 16) : RxKept s (s.canFollow n) n := by
  unfold State.canFollow
  dsimp only
  split
  · split
    · exact .refl s n
    · split
      · exact .setStatFlag s true rfl
      · exact .setCanOp s 1 hn
  · split
    · split
      · exact .setCanOp s 0 hn
      · exact .refl s n
    · split
      · exact .refl s n
      · exact .setCanOp s _ hn

/-- After a frame its controller is not busy, with the objects and updates it had. -/
theorem frameEnd_spec (s : State) (suspend : Bool) (hn : n < 16) : ((s.frameEnd n suspend).can n).busy = false ∧
    ((s.frameEnd n suspend).can n).rx = (s.can n).rx ∧ ((s.frameEnd n suspend).can n).due = (s.can n).due ∧
    (s.frameEnd n suspend).reg (Reg.CAN_CNT1 n) = s.reg (Reg.CAN_CNT1 n) := by
  unfold frameEnd
  dsimp only
  generalize s.cycle + (if suspend = true ∧ s.fld (Fld.CAN_STAT_CONF n) = 1 then 11 else 3) * s.nominalBit n * 10 = c
  obtain ⟨hBusy, hRx, hDue, hReg⟩ := RxKept.canFollow (s.setCan n { s.can n with busy := false, suspendUntil := c }) hn
  rw [can_setCan] at hBusy hRx hDue
  exact ⟨hBusy, hRx, hDue, hReg⟩

/-! ### A valid frame -/

/-- The acknowledgement of a valid frame, and REC after it. -/
def validSeen (s : State) (n : Nat) : State := (if s.canOp n = 3 then s.emit (.canAck n) else s).goodRx n

/-- The object of a valid frame, or the count of those without one. -/
def validMatched (s : State) (n : Nat) (f : CanFrame) (words : List Word) : State :=
  match s.rxMatch n f with
  | some o =>
    let s := match s.districtOf boundCan n with
      | some d => s.proxyCan d n o words
      | none => s
    s.setCan n { s.can n with due := (s.can n).due ++ [(o, words)] }
  | none => s.count (Fld.CAN_CNT1_NOMATCH n)

theorem exec_frameValid {f : CanFrame} (hRun : s.inReset = false) (hHas : s.variant.hasCan n = true) (hClock : s.clockGone 4 = false)
    (hOp : 2 ≤ s.canOp n) (hBus : s.busOff n = false) (hExcepted : (s.can n).excepted = false) (hIdle : s.activeObj n = none)
    (hClassic : f.fdf = false) (hListed : listedForm f = true) :
    exec (.frameValid n f) s = .next ((validMatched (s.validSeen n) n f (canFrameWords f (s.can n).stamp (s.can n).stampLost
      (s.fld (Fld.CAN_SOF_CNT_COUNT n)))).frameEnd n false) := by
  refine congrArg Host.Outcome.next ((live_of_running hRun _).trans ?_)
  dsimp only
  rw [hHas, Bool.not_true, if_neg Bool.false_ne_true, through, hClock, if_neg Bool.false_ne_true, hBus,
    if_neg Bool.false_ne_true, if_pos]
  · rfl
  · refine ⟨hOp, ?_, ?_, ?_, hListed⟩
    · rw [hExcepted]
      rfl
    · rw [hIdle]
      rfl
    · rw [hClassic]
      rfl

theorem can_goodRx (s : State) (n : Nat) : (s.goodRx n).can n = s.can n := by
  have hKeeps : Keeps [.now, .regs, .engines] s (s.goodRx n) := .goodRx .refl rfl
  exact can_of_cans (hKeeps.frame .cans rfl) n

theorem can_validSeen (s : State) (n : Nat) : (s.validSeen n).can n = s.can n := by
  rw [validSeen, can_goodRx]
  split <;> rfl

theorem out_validSeen (hNormal : s.canOp n = 3) : Out.canAck n ∈ (s.validSeen n).out := by
  have hKeeps : Keeps [.now, .regs, .engines] (s.emit (.canAck n)) ((s.emit (.canAck n)).goodRx n) := .goodRx .refl rfl
  rw [validSeen, if_pos hNormal, hKeeps.frame .out rfl]
  exact List.mem_cons_self

theorem nomatch_validSeen (hn : n < 16) : (s.validSeen n).fld (Fld.CAN_CNT1_NOMATCH n) = s.fld (Fld.CAN_CNT1_NOMATCH n) := by
  have hEmit : (if s.canOp n = 3 then s.emit (.canAck n) else s).fld (Fld.CAN_CNT1_NOMATCH n) = s.fld (Fld.CAN_CNT1_NOMATCH n) := by
    split <;> rfl
  unfold validSeen
  generalize (if s.canOp n = 3 then s.emit (.canAck n) else s) = u at hEmit
  unfold goodRx
  split
  · rw [nomatch_setErr hn, hEmit]
  · exact hEmit

theorem rxid_validSeen (hn : n < 16) {j : Nat} (hj : j < 256) : (s.validSeen n).reg (Reg.CAN_RXID n j) = s.reg (Reg.CAN_RXID n j) := by
  have hEcnt : Reg.CAN_RXID n j ≠ Reg.CAN_ECNT n := by unfold Reg.CAN_RXID Reg.CAN_ECNT; omega
  have hStat : Reg.CAN_RXID n j ≠ Reg.CAN_STAT n := by unfold Reg.CAN_RXID Reg.CAN_STAT; omega
  have hCnt : Reg.CAN_RXID n j ≠ Reg.CAN_CNT1 n := by unfold Reg.CAN_RXID Reg.CAN_CNT1; omega
  have hMerge (e : Nat) : Reg.CAN_RXID n j ≠ Reg.CE_EVT_OVR e := ne_mergeRegister (.inl (by unfold Reg.CAN_RXID; omega)) e
  have hEmit : (if s.canOp n = 3 then s.emit (.canAck n) else s).reg (Reg.CAN_RXID n j) = s.reg (Reg.CAN_RXID n j) := by
    split <;> rfl
  unfold validSeen
  generalize (if s.canOp n = 3 then s.emit (.canAck n) else s) = u at hEmit
  unfold goodRx
  split
  · rw [reg_setErr_ne _ _ hEcnt hStat hCnt hMerge, hEmit]
  · exact hEmit

/-- The match of a frame, by the objects' identifiers. -/
theorem rxMatch_congr (h : ∀ j < 256, t.reg (Reg.CAN_RXID n j) = s.reg (Reg.CAN_RXID n j)) (f : CanFrame) :
    t.rxMatch n f = s.rxMatch n f := by
  unfold rxMatch
  refine List.find?_congr fun j hj => ?_
  have hReg := h j (List.mem_range.mp hj)
  have hEn : t.flag (Fld.CAN_RXID_EN n j) = s.flag (Fld.CAN_RXID_EN n j) := flag_of_reg hReg
  have hIde : t.flag (Fld.CAN_RXID_IDE n j) = s.flag (Fld.CAN_RXID_IDE n j) := flag_of_reg hReg
  have hId : t.fld (Fld.CAN_RXID_ID n j) = s.fld (Fld.CAN_RXID_ID n j) := fld_of_reg hReg
  rw [hEn, hIde, hId]

theorem rxMatch_validSeen (hn : n < 16) (f : CanFrame) : (s.validSeen n).rxMatch n f = s.rxMatch n f :=
  rxMatch_congr (fun _ hj => rxid_validSeen hn hj) f

theorem out_validMatched (s : State) (n : Nat) (f : CanFrame) (words : List Word) : (validMatched s n f words).out = s.out := by
  unfold validMatched
  split
  · dsimp only
    split
    · next o _ _ d _ =>
      have hKeeps : Keeps [.now, .regs, .red] s (s.proxyCan d n o words) := .proxyCan .refl rfl
      exact hKeeps.frame .out rfl
    · rfl
  · rfl

theorem validMatched_none {f : CanFrame} (words : List Word) (h : s.rxMatch n f = none) :
    validMatched s n f words = s.count (Fld.CAN_CNT1_NOMATCH n) := by
  unfold validMatched
  rw [h]

/-- A frame of object `o` waits for the end of its cycle. -/
theorem can_validMatched_some {f : CanFrame} (words : List Word) (h : s.rxMatch n f = some o) :
    (validMatched s n f words).can n = { s.can n with due := (s.can n).due ++ [(o, words)] } := by
  have hProxy : (match s.districtOf boundCan n with
      | some d => s.proxyCan d n o words
      | none => s).can n = s.can n := by
    split
    · next d _ =>
      have hKeeps : Keeps [.now, .regs, .red] s (s.proxyCan d n o words) := .proxyCan .refl rfl
      exact can_of_cans (hKeeps.frame .cans rfl) n
    · rfl
  unfold validMatched
  rw [h]
  dsimp only
  rw [can_setCan, hProxy]

theorem out_frameEnd (s : State) (n : Nat) (b : Bool) : (s.frameEnd n b).out = s.out := by
  have hKeeps : Keeps [.now, .regs, .engines, .cans] s (s.frameEnd n b) := .frameEnd .refl rfl
  exact hKeeps.frame .out rfl

/-! ### Updates -/

/-- What an update makes of an object. -/
def updatedRx (x : RxObj) (words : List Word) (lost : Bool) : RxObj :=
  { x with new := true, lost := lost, updates := (x.updates + 1) % 65536, words := words }

/-- An update changes its object alone, and no lease. -/
theorem applyRx_spec (s : State) (n o : Nat) (words : List Word) (lost : Bool) :
    (s.applyRx n o words lost).rxObj n o = updatedRx (s.rxObj n o) words lost ∧
      (s.applyRx n o words lost).leases = s.leases := by
  have hObj : ((s.setRxObj n o (updatedRx (s.rxObj n o) words lost)).count (Fld.CAN_CNT0_RX_OK n)).rxObj n o =
      updatedRx (s.rxObj n o) words lost := (rxObj_congr rfl o).trans (rxObj_setRxObj s n o _)
  have hKeeps : Keeps [.now, .regs, .engines, .cans] s (s.applyRx n o words lost) := .applyRx .refl rfl
  refine ⟨?_, hKeeps.frame .leases rfl⟩
  show (if ((s.setRxObj n o (updatedRx (s.rxObj n o) words lost)).count (Fld.CAN_CNT0_RX_OK n)).flag (Fld.CAN_RXID_IE n o) = true then
    ((s.setRxObj n o (updatedRx (s.rxObj n o) words lost)).count (Fld.CAN_CNT0_RX_OK n)).fire 0x09 n
    else (s.setRxObj n o (updatedRx (s.rxObj n o) words lost)).count (Fld.CAN_CNT0_RX_OK n)).rxObj n o = _
  generalize (s.setRxObj n o (updatedRx (s.rxObj n o) words lost)).count (Fld.CAN_CNT0_RX_OK n) = v at hObj
  split
  · exact (rxObj_congr (can_fire ..) o).trans hObj
  · exact hObj

/-- An update leaves the updates that wait. -/
theorem due_applyRx (s : State) (n o : Nat) (words : List Word) (lost : Bool) :
    ((s.applyRx n o words lost).can n).due = (s.can n).due := by
  have hDue (x : RxObj) : (((s.setRxObj n o x).count (Fld.CAN_CNT0_RX_OK n)).can n).due = (s.can n).due := by
    show ((s.setRxObj n o x).can n).due = _
    rw [setRxObj, can_setCan]
  show ((if ((s.setRxObj n o (updatedRx (s.rxObj n o) words lost)).count (Fld.CAN_CNT0_RX_OK n)).flag (Fld.CAN_RXID_IE n o) = true then
    ((s.setRxObj n o (updatedRx (s.rxObj n o) words lost)).count (Fld.CAN_CNT0_RX_OK n)).fire 0x09 n
    else (s.setRxObj n o (updatedRx (s.rxObj n o) words lost)).count (Fld.CAN_CNT0_RX_OK n)).can n).due = _
  have hUpdated := hDue (updatedRx (s.rxObj n o) words lost)
  generalize (s.setRxObj n o (updatedRx (s.rxObj n o) words lost)).count (Fld.CAN_CNT0_RX_OK n) = v at hUpdated
  split
  · rw [can_fire, hUpdated]
  · exact hUpdated

/-- An update touches the counters of its controller and the merge registers. -/
theorem reg_applyRx_ne {a : Nat} (words : List Word) (lost : Bool) (hCnt : a ≠ Reg.CAN_CNT0 n) (hMerge : ∀ e, a ≠ Reg.CE_EVT_OVR e) :
    (s.applyRx n o words lost).reg a = s.reg a := by
  have hReg (x : RxObj) : ((s.setRxObj n o x).count (Fld.CAN_CNT0_RX_OK n)).reg a = s.reg a :=
    reg_count_ne _ 1 hCnt
  have hUpdated := hReg (updatedRx (s.rxObj n o) words lost)
  show (if ((s.setRxObj n o (updatedRx (s.rxObj n o) words lost)).count (Fld.CAN_CNT0_RX_OK n)).flag (Fld.CAN_RXID_IE n o) = true then
    ((s.setRxObj n o (updatedRx (s.rxObj n o) words lost)).count (Fld.CAN_CNT0_RX_OK n)).fire 0x09 n
    else (s.setRxObj n o (updatedRx (s.rxObj n o) words lost)).count (Fld.CAN_CNT0_RX_OK n)).reg a = _
  generalize (s.setRxObj n o (updatedRx (s.rxObj n o) words lost)).count (Fld.CAN_CNT0_RX_OK n) = v at hUpdated
  split
  · exact (reg_fireIn v 0x09 n _ hMerge).trans hUpdated
  · exact hUpdated

/-- The identity of a source, by the register of the chip number. -/
theorem ident_of_reg (h : t.reg Reg.AVE_ID = s.reg Reg.AVE_ID) (src : Nat) : t.ident src = s.ident src := by
  have hChip : t.chip = s.chip := fld_of_reg (f := Fld.AVE_ID_CHIP) h
  rw [ident, hChip, ident]

theorem ident_updateRx_unlocked (hFree : s.lockHolder n o = none) (words : List Word) (src : Nat) :
    (s.updateRx n o words).ident src = s.ident src := by
  refine ident_of_reg ?_ src
  have hApply := reg_applyRx_ne (s := s) (n := n) (o := o) (a := Reg.AVE_ID) words (s.rxObj n o).new
    (by unfold Reg.AVE_ID Reg.CAN_CNT0; omega) (ne_mergeRegister (.inl (by decide)))
  unfold updateRx
  rw [hFree]
  dsimp only
  rw [if_neg (by exact Bool.false_ne_true)]
  split
  · exact (reg_count_ne _ _ (by show Reg.AVE_ID ≠ Reg.CAN_CNT1 n; unfold Reg.AVE_ID Reg.CAN_CNT1; omega)).trans hApply
  · exact hApply

theorem updateRx_unlocked (hFree : s.lockHolder n o = none) (words : List Word) :
    (s.updateRx n o words).rxObj n o = updatedRx (s.rxObj n o) words (s.rxObj n o).new ∧ (s.updateRx n o words).leases = s.leases := by
  obtain ⟨hObj, hLeases⟩ := applyRx_spec s n o words (s.rxObj n o).new
  unfold updateRx
  rw [hFree]
  dsimp only
  rw [if_neg (by exact Bool.false_ne_true)]
  split
  · exact ⟨(rxObj_congr rfl o).trans hObj, hLeases⟩
  · exact ⟨hObj, hLeases⟩

theorem updateRx_locked (hHeld : (s.lockHolder n o).isSome = true) (words : List Word) : (s.updateRx n o words).rxObj n o =
    { s.rxObj n o with pend := some { words := words, lost := (s.rxObj n o).pend.isSome } } := by
  unfold updateRx
  rw [hHeld]
  dsimp only
  rw [if_pos rfl]
  split
  · exact (rxObj_congr rfl o).trans (rxObj_setRxObj ..)
  · exact rxObj_setRxObj ..

/-- The controller whose waiting updates are taken out. -/
theorem rxObj_takeDue (s : State) (n : Nat) (due : List (Nat × List Word)) (o : Nat) :
    (s.setCan n { s.can n with due := due }).rxObj n o = s.rxObj n o := by rw [rxObj, can_setCan, rxObj]

theorem settleCan_single {words : List Word} (hDue : (s.can n).due = [(o, words)]) :
    s.settleCan n = (s.setCan n { s.can n with due := [] }).updateRx n o words := by
  rw [settleCan, hDue]
  rfl

theorem applyDue_single {words : List Word} (hDue : (s.can n).due = [(o, words)]) :
    s.applyDue n o = (s.setCan n { s.can n with due := [] }).updateRx n o words := by
  have hTaken : [(o, words)].filter (fun p => p.1 == o) = [(o, words)] := by simp
  have hLeft : [(o, words)].filter (fun p => p.1 != o) = [] := by simp
  unfold applyDue
  dsimp only
  rw [hDue, hTaken, hLeft]
  rfl

/-- With no update for the object, the queue is only gone through. -/
theorem applyDue_others (hOther : ∀ p ∈ (s.can n).due, p.1 ≠ o) :
    s.applyDue n o = s.setCan n { s.can n with due := (s.can n).due.filter (·.1 != o) } := by
  have hNone : (s.can n).due.filter (fun p => p.1 == o) = [] := by
    rw [List.filter_eq_nil_iff]
    intro p hp h
    exact hOther p hp (beq_iff_eq.mp h)
  unfold applyDue
  dsimp only
  rw [hNone]
  rfl

/-! ### The read lock -/

theorem lockHolder_lockRx (s : State) (e n o : Nat) : (s.lockRx e n o).lockHolder n o = some (s.ident (0x10 + e)) := by
  unfold lockRx lockHolder addLease
  rw [List.find?_cons_of_pos (by simp)]
  rfl

theorem touchWord0_free {e : Nat} (hFree : s.lockHolder n o = none) : s.touchWord0 e n o = (s.applyDue n o).lockRx e n o := by
  unfold touchWord0
  rw [hFree]
  dsimp only
  rw [openRx, hFree]
  rfl

theorem touchWord0_other {e : Nat} {h : Ident} (hHeld : s.lockHolder n o = some h) (hne : h ≠ s.ident (0x10 + e)) :
    s.touchWord0 e n o = s := by
  unfold touchWord0
  rw [hHeld]
  exact if_neg hne

theorem touchWord0_own {e : Nat} (hHeld : s.lockHolder n o = some (s.ident (0x10 + e))) :
    (s.touchWord0 e n o).cans = s.cans ∧ (s.touchWord0 e n o).leases = s.leases := by
  unfold touchWord0
  rw [hHeld]
  dsimp only
  rw [if_pos rfl]
  exact ⟨rfl, rfl⟩

theorem touchWord19_other {e : Nat} {h : Ident} (hHeld : s.lockHolder n o = some h) (hne : h ≠ s.ident (0x10 + e)) :
    s.touchWord19 e n o = s := by
  refine if_neg ?_
  rw [hHeld, Option.some.injEq]
  exact hne

/-- The lock released, before a frame that waited in its buffer is applied. -/
def releasedRx (s : State) (n o : Nat) : State :=
  ({ s with leases := s.leases.filter fun l => !(l.type == 4 && l.index == n * 256 + o) } : State).setRxObj n o
    { s.rxObj n o with new := false, lost := false, pend := none }

theorem lockHolder_releasedRx (s : State) (n o : Nat) : (s.releasedRx n o).lockHolder n o = none := by
  have hNone : (s.leases.filter fun l => !(l.type == 4 && l.index == n * 256 + o)).find?
      (fun l => l.type == 4 && l.index == n * 256 + o) = none := by
    rw [List.find?_eq_none]
    intro l hl h
    have hKept := (List.mem_filter.mp hl).2
    rw [h] at hKept
    exact Bool.false_ne_true hKept
  show ((s.leases.filter fun l => !(l.type == 4 && l.index == n * 256 + o)).find?
    (fun l => l.type == 4 && l.index == n * 256 + o)).map (·.holder) = none
  rw [hNone]
  rfl

theorem rxObj_releasedRx (s : State) (n o : Nat) :
    (s.releasedRx n o).rxObj n o = { s.rxObj n o with new := false, lost := false, pend := none } := rxObj_setRxObj ..

theorem releaseRx_eq (s : State) (n o : Nat) : s.releaseRx n o = match (s.rxObj n o).pend with
    | some p => (s.releasedRx n o).applyRx n o p.words p.lost
    | none => s.releasedRx n o := rfl

/-- What the release of a lock leaves. -/
theorem releaseRx_spec (s : State) (n o : Nat) : (s.releaseRx n o).lockHolder n o = none ∧
    ((s.releaseRx n o).rxObj n o).pend = none ∧
    ((s.rxObj n o).pend = none → (s.releaseRx n o).rxObj n o = { s.rxObj n o with new := false, lost := false }) ∧
    ∀ p, (s.rxObj n o).pend = some p → ((s.releaseRx n o).rxObj n o).words = p.words ∧ ((s.releaseRx n o).rxObj n o).new = true ∧
      ((s.releaseRx n o).rxObj n o).lost = p.lost := by
  have hLock := lockHolder_releasedRx s n o
  have hReleased := rxObj_releasedRx s n o
  rw [releaseRx_eq]
  generalize s.releasedRx n o = u at hLock hReleased
  cases hPend : (s.rxObj n o).pend with
  | none =>
    dsimp only
    refine ⟨hLock, by rw [hReleased], fun _ => ?_, fun p hp => nomatch hp⟩
    rw [hReleased]
    generalize s.rxObj n o = x at hPend
    cases x
    cases hPend
    rfl
  | some q =>
    obtain ⟨hObj, hLeases⟩ := applyRx_spec u n o q.words q.lost
    dsimp only
    rw [hObj, hReleased]
    refine ⟨(lockHolder_congr hLeases n o).trans hLock, rfl, fun hNone => ?_, fun p hp => ?_⟩
    · cases hNone
    · cases hp
      exact ⟨rfl, rfl, rfl⟩

/-- The release of a lock leaves the updates that wait. -/
theorem due_releaseRx (s : State) (n o : Nat) : ((s.releaseRx n o).can n).due = (s.can n).due := by
  have hReleased : ((s.releasedRx n o).can n).due = (s.can n).due := by
    rw [releasedRx, setRxObj, can_setCan]
    rfl
  rw [releaseRx_eq]
  split
  · rw [due_applyRx, hReleased]
  · exact hReleased

end Sys2Proof.Machine.State

open Sys2Proof Sys2Proof.Machine Sys2Proof.Machine.State

/-- Settles O47: a frame's object is updated at the end of its cycle or by the read that takes its lock, and the lock's release
applies what waited. -/
theorem canObjects : Obligations.CanObjects := by
  intro s n o e f ws hRun hHas ho x words me updated
  have hn := lt_16_of_hasCan hHas
  have hWord0 (hOwns : s.ownsCan e n = true) : exec (.objectWord0Read e n o) s = .next (s.touchWord0 e n o) :=
    congrArg Host.Outcome.next ((live_of_running hRun _).trans (if_pos ⟨hOwns, ho⟩))
  have hWord19 (hOwns : s.ownsCan e n = true) : exec (.objectWord19Read e n o) s = .next (s.touchWord19 e n o) :=
    congrArg Host.Outcome.next ((live_of_running hRun _).trans (if_pos ⟨hOwns, ho⟩))
  refine ⟨fun hClock hOp hBus hExcepted hIdle hClassic hListed => ?_, fun hDue => ⟨fun hFree => ?_, fun hHeld => ?_⟩,
    fun hOwns hOther => ⟨fun hFree => ?_, fun h hHeld hne => ?_, fun hHeld => ?_, fun hHeld => ?_⟩, fun hNot => ?_⟩
  · have hExec := exec_frameValid hRun hHas hClock hOp hBus hExcepted hIdle hClassic hListed
    obtain ⟨hBusy, hRx, hDues, hCnt⟩ := frameEnd_spec (validMatched (s.validSeen n) n f words) false hn
    refine ⟨fun hNormal => ⟨_, hExec, ?_⟩, fun hNone => ⟨_, hExec, hBusy, ?_⟩, fun hSome => ⟨_, hExec, hBusy, ?_⟩⟩
    · rw [out_frameEnd, out_validMatched]
      exact out_validSeen hNormal
    · have hCount := validMatched_none words ((rxMatch_validSeen hn f).trans hNone)
      refine ⟨hRx.trans ?_, (fld_of_reg (f := Fld.CAN_CNT1_NOMATCH n) hCnt).trans ?_⟩
      · rw [hCount, can_count, can_validSeen]
      · rw [hCount, fld_count_on _ _ rfl, nomatch_validSeen hn]
        rfl
    · have hCan := can_validMatched_some words ((rxMatch_validSeen hn f).trans hSome)
      rw [can_validSeen] at hCan
      exact ⟨hRx.trans (by rw [hCan]), hDues.trans (by rw [hCan])⟩
  · have hFree' : (s.setCan n { s.can n with due := [] }).lockHolder n o = none := hFree
    obtain ⟨hObj, hLeases⟩ := updateRx_unlocked hFree' ws
    rw [rxObj_takeDue] at hObj
    refine ⟨?_, fun hOwns => ⟨_, hWord0 hOwns, ?_, ?_⟩⟩
    · rw [settleCan_single hDue]
      exact hObj
    · rw [touchWord0_free hFree, applyDue_single hDue]
      exact hObj
    · rw [touchWord0_free hFree, applyDue_single hDue]
      have hChip : ((s.setCan n { s.can n with due := [] }).updateRx n o ws).ident (0x10 + e) = me :=
        ident_updateRx_unlocked hFree' ws _
      rw [lockHolder_lockRx, hChip]
  · have hHeld' : ((s.setCan n { s.can n with due := [] }).lockHolder n o).isSome = true := hHeld
    rw [settleCan_single hDue, updateRx_locked hHeld', rxObj_takeDue]
  · rw [hWord0 hOwns, touchWord0_free hFree, applyDue_others hOther]
    exact ⟨_, rfl, lockHolder_lockRx .., fun j => rxObj_takeDue s n _ j⟩
  · rw [hWord0 hOwns, hWord19 hOwns, touchWord0_other hHeld hne, touchWord19_other hHeld hne]
    exact ⟨rfl, rfl⟩
  · exact ⟨_, hWord0 hOwns, touchWord0_own hHeld⟩
  · obtain ⟨hLock, hPend, hPlain, hWaited⟩ := releaseRx_spec s n o
    have hTouch : s.touchWord19 e n o = (s.releaseRx n o).applyDue n o := if_pos hHeld
    have hOthers : ∀ p ∈ ((s.releaseRx n o).can n).due, p.1 ≠ o := by
      rw [due_releaseRx]
      exact hOther
    rw [hWord19 hOwns, hTouch, applyDue_others hOthers]
    generalize s.releaseRx n o = u at hLock hPend hPlain hWaited hOthers
    have hObj := rxObj_takeDue u n ((u.can n).due.filter (·.1 != o)) o
    refine ⟨_, rfl, hLock, ?_, fun hNone => hObj.trans (hPlain hNone), fun p hp => ?_⟩
    · rw [hObj]
      exact hPend
    · rw [hObj]
      exact hWaited p hp
  · have hOut (i : Prop) : ¬(s.ownsCan e n = true ∧ i) := by
      rw [hNot]
      exact fun h => Bool.false_ne_true h.1
    exact ⟨congrArg Host.Outcome.next ((live_of_running hRun _).trans (if_neg (hOut _))),
      congrArg Host.Outcome.next ((live_of_running hRun _).trans (if_neg (hOut _)))⟩

end

section
/-!
PROOF. O54: heartbeat periods, declarations and their reclaim, joining, checkpoint copies, proxy records and remote members.
-/

namespace Sys2Proof.Machine.State

variable {s t u : State} {p m e d k : Nat}

theorem lt_64_of_pairs (h : p < s.variant.pairs) : p < 64 := by
  have hPairs : s.variant.pairs ≤ 48 := by cases s.variant <;> decide
  omega

theorem lt_pairs_of_slots {q : Nat × Nat} (h : q ∈ s.slots) : q.1 < s.variant.pairs := by
  obtain ⟨p, hp, hq⟩ := List.mem_flatMap.mp h
  have hFst : q.1 = p := by
    rcases List.mem_cons.mp hq with rfl | hq
    · rfl
    · rw [List.mem_singleton.mp hq]
  rw [hFst]
  exact List.mem_range.mp hp

theorem spareOutFld_reg (p m : Nat) : (spareOutFld p m).reg = Reg.RED_PSTAT p := by
  unfold spareOutFld
  split <;> rfl

/-! ### A heartbeat period -/

/-- The count of path 2 misses of engine `e` and the start of the period are left. -/
structure PeriodKept (e : Nat) (s t : State) : Prop where
  start : t.red.periodStart = s.red.periodStart
  miss : t.fld (Fld.RED_LANT_MISS2 e) = s.fld (Fld.RED_LANT_MISS2 e)

namespace PeriodKept

theorem refl (s : State) : PeriodKept e s s := ⟨rfl, rfl⟩

theorem trans (h : PeriodKept e s t) (g : PeriodKept e t u) : PeriodKept e s u := ⟨g.start.trans h.start, g.miss.trans h.miss⟩

theorem of_reg (hRed : t.red = s.red) (hReg : t.reg (Reg.RED_LANT e) = s.reg (Reg.RED_LANT e)) : PeriodKept e s t :=
  ⟨by rw [hRed], fld_of_reg hReg⟩

theorem setPairSlot (s : State) (p m : Nat) (x : PairSlot) : PeriodKept e s (s.setPairSlot p m x) := ⟨rfl, rfl⟩

/-- A flag beside the count of misses. -/
theorem setFlag (s : State) {f : Fld} (b : Bool) (h : 8 ≤ f.lo ∨ f.reg ≠ Reg.RED_LANT e) : PeriodKept e s (s.setFlag f b) := by
  refine ⟨congrArg Redundancy.periodStart (setFlag_red ..), ?_⟩
  refine fld_setFlag_apart s b ?_
  rcases h with h | h
  · exact .inr (.inr h)
  · exact .inl h

theorem count (s : State) {f : Fld} (h : Reg.RED_LANT e ≠ f.reg) : PeriodKept e s (s.count f) :=
  of_reg (count_red ..) (reg_count_ne _ _ h)

theorem followTwins (s : State) : PeriodKept e s s.followTwins :=
  of_reg (red_followTwins s) (reg_followTwins_ne _ (by unfold Reg.RED_LANT Reg.RED_STAT; omega)
    (by unfold Reg.RED_LANT Reg.SYS_MODE; omega))

theorem pstat_ne (hp : p < 64) (e : Nat) : Reg.RED_LANT e ≠ Reg.RED_PSTAT p := by
  unfold Reg.RED_LANT Reg.RED_PSTAT
  omega

theorem setPairState (s : State) (st : Nat) (hp : p < 64) : PeriodKept e s (s.setPairState p st) :=
  trans (of_reg (t := s.setFld (Fld.RED_PSTAT_STATE p) st) rfl (reg_setFld_ne _ _ (pstat_ne hp e))) (followTwins _)

theorem redNote (s : State) (p m : Nat) (he : e < 96) : PeriodKept e s (s.redNote p m) := by
  have hKeeps : Keeps [.now, .regs, .engines] s (s.redNote p m) := .redNote .refl rfl
  refine of_reg (hKeeps.frame .red rfl) ?_
  unfold State.redNote
  split
  · split
    · rfl
    · exact reg_fireIn s 0x1C 0 _ (ne_mergeRegister (.inl (by unfold Reg.RED_LANT; omega)))
  · rfl

theorem declareMark (s : State) (m cause : Nat) (hp : p < 64) : PeriodKept e s (s.declareMark p m cause) := by
  have hFailed : (failedFld p m).reg ≠ Reg.RED_LANT e := by
    rw [failedFld_reg]
    exact (pstat_ne hp e).symm
  have hLast (v : Word) (x : State) : PeriodKept e x (x.setReg Reg.RED_LAST v) :=
    of_reg rfl (reg_setReg_ne _ _ (by unfold Reg.RED_LANT Reg.RED_LAST; omega))
  have hCnt (x : State) : PeriodKept e x (x.count Fld.RED_CNT1_DECLARED) :=
    count x (by show Reg.RED_LANT e ≠ Reg.RED_CNT1; unfold Reg.RED_LANT Reg.RED_CNT1; omega)
  have hTold (x : State) (n : Notice) : PeriodKept e x (x.notify n) := ⟨rfl, rfl⟩
  exact (((setFlag s true (.inr hFailed)).trans (hLast _ _)).trans (hCnt _)).trans (hTold _ _)

theorem declareTell (s : State) (p m : Nat) (he : e < 96) : PeriodKept e s (s.declareTell p m) := by
  unfold State.declareTell
  split
  · exact redNote _ _ _ he
  · exact refl _

theorem declareShow (s : State) (m e' : Nat) (hp : p < 64) : PeriodKept e s (s.declareShow p m e') := by
  unfold State.declareShow
  split
  · split
    · exact setPairState _ _ hp
    · exact (setPairSlot ..).trans (setPairState _ _ hp)
  · exact ((setFlag s true (.inl (by show 8 ≤ 10; decide))).trans (setFlag _ false (.inl (by show 8 ≤ 9; decide)))).trans (followTwins _)

theorem declareSlot (s : State) (m cause : Nat) (hp : p < 64) (he : e < 96) : PeriodKept e s (s.declareSlot p m cause) := by
  obtain ⟨x, hSteps⟩ := declareSlot_steps s p m cause
  rw [hSteps]
  exact (((declareMark s m cause hp).trans (declareTell _ p m he)).trans (setPairSlot _ p m x)).trans (declareShow _ m _ hp)

theorem judgeEngine (s : State) (e' : Nat) (he : e < 96) : PeriodKept e s (s.judgeEngine e') := by
  have hShown : PeriodKept e s (if s.flag (Fld.RED_LANT_FAULT e') = s.faultReport e' then s
      else s.setFlag (Fld.RED_LANT_FAULT e') (s.faultReport e')) := by
    split
    · exact refl s
    · exact setFlag s _ (.inl (by show 8 ≤ 8; decide))
  unfold State.judgeEngine
  dsimp only
  generalize (if s.flag (Fld.RED_LANT_FAULT e') = s.faultReport e' then s
      else s.setFlag (Fld.RED_LANT_FAULT e') (s.faultReport e')) = u at hShown
  refine hShown.trans ?_
  split
  · exact refl u
  · split
    · next q hq =>
      have hp : q.1 < 64 := lt_64_of_pairs (lt_pairs_of_slots (List.mem_of_find?_eq_some hq))
      split
      · exact declareSlot u _ _ hp he
      · split
        · refine (count u ?_).trans (declareSlot _ _ _ hp he)
          show Reg.RED_LANT e ≠ Reg.RED_CNT1
          unfold Reg.RED_LANT Reg.RED_CNT1
          omega
        · refine (setFlag u true (.inr ?_)).trans (setFlag _ true (.inl (by show 8 ≤ 10; decide)))
          rw [spareOutFld_reg]
          exact (pstat_ne hp e).symm
    · exact refl u

theorem showMon (s : State) : PeriodKept e s s.showMon := by
  unfold State.showMon
  generalize List.range s.variant.engines = es
  induction es generalizing s with
  | nil => exact refl s
  | cons x es ih =>
    refine trans ?_ (ih _)
    dsimp only
    split
    · exact refl s
    · exact setFlag s _ (.inl (by show 8 ≤ 9; decide))

theorem judgeEngines (he : e < 96) (es : List Nat) (s : State) : PeriodKept e s (es.foldl (fun s e => s.judgeEngine e) s) := by
  induction es generalizing s with
  | nil => exact refl s
  | cons x es ih => exact (judgeEngine s x he).trans (ih _)

theorem judgeBeats (s : State) (he : e < 96) : PeriodKept e s s.judgeBeats := by
  unfold State.judgeBeats
  split
  · exact (judgeEngines he s.monitoredEngines s).trans (showMon _)
  · exact refl s

end PeriodKept

/-- What the end of a period counts of an engine. -/
def periodCounted (s : State) (e : Nat) : State :=
  let s1 := if (s.beat e).pulse then s else s.setFld (Fld.RED_LANT_MISS2 e) (min 15 (s.fld (Fld.RED_LANT_MISS2 e) + 1))
  s1.setBeat e { s1.beat e with pulse := false }

theorem endPeriod_single (h : s.monitoredEngines = [e]) : s.endPeriod =
    ((s.periodCounted e).setRed { (s.periodCounted e).red with
      periodStart := (s.periodCounted e).red.periodStart + (s.periodCounted e).heartbeat }).judgeBeats := by
  unfold endPeriod
  rw [h]
  rfl

theorem periodCounted_spec (s : State) (e : Nat) : ((s.periodCounted e).beat e).pulse = false ∧
    (s.periodCounted e).red.periodStart = s.red.periodStart ∧ (s.periodCounted e).heartbeat = s.heartbeat ∧
    (s.periodCounted e).fld (Fld.RED_LANT_MISS2 e) =
      if (s.beat e).pulse then s.fld (Fld.RED_LANT_MISS2 e) else min 15 (s.fld (Fld.RED_LANT_MISS2 e) + 1) := by
  unfold periodCounted
  dsimp only
  split
  · exact ⟨by rw [beat_setBeat_same], rfl, rfl, rfl⟩
  · refine ⟨by rw [beat_setBeat_same], rfl, ?_, ?_⟩
    · have hCfg : (s.setFld (Fld.RED_LANT_MISS2 e) (min 15 (s.fld (Fld.RED_LANT_MISS2 e) + 1))).fld Fld.RED_CFG_HB_US =
          s.fld Fld.RED_CFG_HB_US :=
        fld_of_reg (reg_setFld_ne _ _ (by show Reg.RED_CFG ≠ Reg.RED_LANT e; unfold Reg.RED_CFG Reg.RED_LANT; omega))
      exact congrArg (· * 800) hCfg
    · refine (fld_setFld_on (f := Fld.RED_LANT_MISS2 e) s _ rfl).trans (Nat.mod_eq_of_lt ?_)
      show min 15 _ < 16
      omega

/-- The end of a period for the one monitored engine. -/
theorem endPeriod_spec (h : s.monitoredEngines = [e]) (he : e < 96) : s.endPeriod.red.periodStart = s.red.periodStart + s.heartbeat ∧
    (s.endPeriod.beat e).pulse = false ∧ s.endPeriod.fld (Fld.RED_LANT_MISS2 e) =
      if (s.beat e).pulse then s.fld (Fld.RED_LANT_MISS2 e) else min 15 (s.fld (Fld.RED_LANT_MISS2 e) + 1) := by
  obtain ⟨hPulse, hStart, hBeat, hMiss⟩ := periodCounted_spec s e
  rw [endPeriod_single h]
  generalize s.periodCounted e = u at hPulse hStart hBeat hMiss
  have hBeats := BeatsKept.judgeBeats (u.setRed { u.red with periodStart := u.red.periodStart + u.heartbeat })
  have hPeriod := PeriodKept.judgeBeats (u.setRed { u.red with periodStart := u.red.periodStart + u.heartbeat }) he
  generalize (u.setRed { u.red with periodStart := u.red.periodStart + u.heartbeat }).judgeBeats = v at hBeats hPeriod
  refine ⟨?_, ?_, hPeriod.miss.trans hMiss⟩
  · rw [hPeriod.start, ← hStart, ← hBeat]
    rfl
  · rw [beat, hBeats.beats]
    exact hPulse

theorem lt_96_of_monitored (h : s.monitoredEngines = [e]) : e < 96 := by
  have hMem : e ∈ s.monitoredEngines := by rw [h]; exact List.mem_singleton.mpr rfl
  have hRange := List.mem_range.mp (List.mem_of_mem_filter hMem)
  have hEngines : s.variant.engines ≤ 96 := by cases s.variant <;> decide
  omega

/-! ### A declaration and its reclaim -/

theorem pairSlot_setPairSlot (s : State) (p m : Nat) (x : PairSlot) : (s.setPairSlot p m x).pairSlot p m = x := by
  rw [pairSlot, setPairSlot, pair_setPair]
  split
  · rfl
  · rfl

theorem pairSlot_setPairSlot_ne (s : State) (x : PairSlot) {m j : Nat} (h : ¬(m = 0 ↔ j = 0)) :
    (s.setPairSlot p j x).pairSlot p m = s.pairSlot p m := by
  rw [pairSlot, setPairSlot, pair_setPair, pairSlot]
  split
  · next hm => rw [if_neg fun hj => h ⟨fun _ => hj, fun _ => hm⟩]
  · next hm =>
    have hj : j = 0 := by
      by_contra hj
      exact h ⟨fun h0 => absurd h0 hm, fun h0 => absurd h0 hj⟩
    rw [if_pos hj]

theorem pairSlot_congr (h : t.red = s.red) (p m : Nat) : t.pairSlot p m = s.pairSlot p m := by
  rw [pairSlot, pair_congr h, pairSlot]

theorem red_setPairState (s : State) (p st : Nat) : (s.setPairState p st).red = s.red := red_followTwins _

theorem pairState_setPairState (s : State) {st : Nat} (hp : p < 64) (hst : st < 8) : (s.setPairState p st).pairState p = st := by
  have hReg : (s.setPairState p st).pairState p = (s.setFld (Fld.RED_PSTAT_STATE p) st).pairState p :=
    pairState_of_reg (reg_followTwins_ne _ (by unfold Reg.RED_PSTAT Reg.RED_STAT; omega) (by unfold Reg.RED_PSTAT Reg.SYS_MODE; omega))
  rw [hReg]
  exact (fld_setFld_on (f := Fld.RED_PSTAT_STATE p) s st rfl).trans (Nat.mod_eq_of_lt hst)

theorem endSingle_spec (s : State) (hp : p < 64) (hm : m < 2) : ((s.endSingle p m).pairSlot p m).reclaiming = false ∧
    (s.endSingle p m).pairState p = if s.inForce p (1 - m) then 2 else 4 := by
  have hSlot := pairSlot_setPairSlot s p m { s.pairSlot p m with reclaiming := false }
  have hForce : (s.setPairSlot p m { s.pairSlot p m with reclaiming := false }).inForce p (1 - m) = s.inForce p (1 - m) := rfl
  unfold endSingle
  dsimp only
  generalize s.setPairSlot p m { s.pairSlot p m with reclaiming := false } = u at hSlot hForce
  rw [hForce]
  split
  · rw [pairSlot_congr (red_setPairState ..), hSlot]
    exact ⟨rfl, pairState_setPairState _ hp (by decide)⟩
  · rw [pairSlot_congr (red_setPairState ..), pairSlot_setPairSlot_ne _ _ (by omega), hSlot]
    exact ⟨rfl, pairState_setPairState _ hp (by decide)⟩

/-- With no lease to take back and no spare, the reclaim ends the slot. -/
theorem completeReclaim_single (hp : p < 64) (hLeases : s.leases = []) (hEngine : (s.pairSlot p m).engine = some e) (hHas : s.hasEngine e = true)
    (hSpare : s.spareOf p m = none) : ∃ u, TwinHeld s u ∧ s.completeReclaim p m = u.endSingle p m := by
  have hHeld : TwinHeld s (if s.engState e = 3 ∧ s.flag Fld.RED_CFG_KEEP_HALTED = true then s else s.holdEngine e) := by
    have hRefl : TwinHeld s s := ⟨fun _ _ => rfl, rfl, hLeases, rfl⟩
    split
    · exact hRefl
    · exact hRefl.hold (lt_96_of_hasEngine hHas)
  have hAll : s.reclaimAll (s.ident (0x10 + e)) = s := by
    rw [reclaimAll, hLeases]
    rfl
  unfold completeReclaim
  dsimp only
  rw [hEngine, hSpare, Option.getD_some]
  dsimp only
  rw [hAll, hLeases, List.any_nil, if_neg Bool.false_ne_true]
  generalize (if s.engState e = 3 ∧ s.flag Fld.RED_CFG_KEEP_HALTED = true then s else s.holdEngine e) = u at hHeld
  have hSpare' : u.spareOf p m = none := by
    have hOut : u.flag (spareOutFld p m) = s.flag (spareOutFld p m) := by
      refine flag_of_reg (hHeld.reg _ ?_)
      rw [spareOutFld_reg]
      unfold inRed Reg.RED_PSTAT
      omega
    have hRemote : u.isRemote p m = s.isRemote p m := by rw [isRemote, pair_congr hHeld.red, isRemote]
    rw [spareOf, hOut, hRemote, pairSlot_congr hHeld.red]
    exact hSpare
  rw [hSpare']
  exact ⟨u, hHeld, rfl⟩

/-! ### A declaration's slot -/

/-- The slot that a declaration leaves, and the state of a pair whose remote member fails. -/
theorem declareSlot_slot (s : State) (cause : Nat) (hp : p < 64) (hm : m < 2) : ((s.declareSlot p m cause).pairSlot p m).joinBy = none := by
  have hX : ∃ x : PairSlot, x.joinBy = none ∧ s.declareSlot p m cause =
      (((s.declareMark p m cause).declareTell p m).setPairSlot p m x).declareShow p m ((s.pairSlot p m).engine.getD 0) :=
    ⟨_, rfl, rfl⟩
  obtain ⟨x, hJoin, hSteps⟩ := hX
  rw [hSteps]
  have hSlot := pairSlot_setPairSlot ((s.declareMark p m cause).declareTell p m) p m x
  generalize ((s.declareMark p m cause).declareTell p m).setPairSlot p m x = u at hSlot
  unfold declareShow
  split
  · next hRemote =>
    have hOne : m = 1 := by
      rw [isRemote, Bool.and_eq_true] at hRemote
      exact beq_iff_eq.mp hRemote.1
    split
    · rw [pairSlot_congr (red_setPairState ..), hSlot, hJoin]
    · rw [pairSlot_congr (red_setPairState ..), pairSlot_setPairSlot_ne _ _ (by omega), hSlot, hJoin]
  · rw [pairSlot_congr (red_followTwins _), pairSlot_congr (setFlag_red ..), pairSlot_congr (setFlag_red ..), hSlot, hJoin]

theorem failSpare_spec (s : State) (cause : Nat) (hp : p < 64) (hm : m < 2) :
    (s.failSpare p m cause).flag (failedFld p m) = true ∧ ((s.failSpare p m cause).pairSlot p m).joinBy = none := by
  obtain ⟨hFailed, _⟩ := declareSlot_spec (s.count Fld.RED_CNT1_RESTORE_FAIL) m cause hp
  exact ⟨hFailed, declareSlot_slot _ cause hp hm⟩

/-! ### The count of failed restorations -/

/-- The count of spares that failed is left. -/
def RestoresKept (s t : State) : Prop := t.fld Fld.RED_CNT1_RESTORE_FAIL = s.fld Fld.RED_CNT1_RESTORE_FAIL

theorem restores_of_reg (h : t.reg Reg.RED_CNT1 = s.reg Reg.RED_CNT1) : RestoresKept s t := fld_of_reg (f := Fld.RED_CNT1_RESTORE_FAIL) h

theorem restores_setPairState (s : State) (p st : Nat) (hp : p < 64) : RestoresKept s (s.setPairState p st) :=
  restores_of_reg ((reg_followTwins_ne _ (by decide) (by decide)).trans
    (reg_setFld_ne _ _ (by show Reg.RED_CNT1 ≠ Reg.RED_PSTAT p; unfold Reg.RED_CNT1 Reg.RED_PSTAT; omega)))

theorem restores_declareMark (s : State) (p m cause : Nat) : RestoresKept s (s.declareMark p m cause) := by
  have hFailed : RestoresKept s (s.setFlag (failedFld p m) true) :=
    restores_of_reg (reg_setFlag_ne _ _ (by rw [failedFld_reg]; unfold Reg.RED_CNT1 Reg.RED_PSTAT; omega))
  unfold declareMark RestoresKept
  dsimp only
  generalize s.setFlag (failedFld p m) true = u at hFailed
  generalize BitVec.ofNat 32 ((s.pairSlot p m).engine.getD 0 + 2 ^ 8 * cause + 2 ^ 16 * p + 2 ^ 22 * m) = v
  rw [fld_notify, fld_count_off _ _ rfl, fld_setReg_off _ _ rfl]
  exact hFailed

theorem restores_declareTell (s : State) (p m : Nat) : RestoresKept s (s.declareTell p m) := by
  unfold declareTell redNote
  split
  · split
    · split
      · rfl
      · exact restores_of_reg (reg_fireIn s 0x1C 0 _ (ne_mergeRegister (.inl (by decide))))
    · rfl
  · rfl

theorem restores_declareShow (s : State) (p m e : Nat) (hp : p < 64) : RestoresKept s (s.declareShow p m e) := by
  unfold declareShow
  split
  · split
    · exact restores_setPairState _ _ _ hp
    · exact restores_setPairState (s.setPairSlot p 0 { s.pairSlot p 0 with joinBy := none }) _ _ hp
  · have hLant (x : State) {f : Fld} (b : Bool) (hf : f.reg = Reg.RED_LANT e) : (x.setFlag f b).reg Reg.RED_CNT1 = x.reg Reg.RED_CNT1 :=
      reg_setFlag_ne _ _ (by rw [hf]; unfold Reg.RED_CNT1 Reg.RED_LANT; omega)
    exact restores_of_reg ((reg_followTwins_ne _ (by decide) (by decide)).trans ((hLant _ _ rfl).trans (hLant _ _ rfl)))

theorem restores_declareSlot (s : State) (m cause : Nat) (hp : p < 64) : RestoresKept s (s.declareSlot p m cause) := by
  obtain ⟨x, hSteps⟩ := declareSlot_steps s p m cause
  rw [hSteps]
  exact (restores_declareShow _ _ _ _ hp).trans ((restores_declareTell (s.declareMark p m cause) p m).trans (restores_declareMark s p m cause))

theorem restores_failSpare (s : State) (m cause : Nat) (hp : p < 64) :
    (s.failSpare p m cause).fld Fld.RED_CNT1_RESTORE_FAIL = min 255 (s.fld Fld.RED_CNT1_RESTORE_FAIL + 1) := by
  have hCounted := fld_count_on (f := Fld.RED_CNT1_RESTORE_FAIL) s 1 rfl
  exact (restores_declareSlot _ m cause hp).trans hCounted

/-! ### A remote member -/

theorem failed_other_off (p m : Nat) (hm : m < 2) : (failedFld p m).off (failedFld p (1 - m)) = true := by
  rcases (by omega : m = 0 ∨ m = 1) with rfl | rfl <;> rfl

theorem state_failed_off (p m : Nat) : (failedFld p m).off (Fld.RED_PSTAT_STATE p) = true := by
  unfold failedFld
  split <;> rfl

/-- The other slot is in force as before while one is marked. -/
theorem inForce_declareMark (s : State) (cause : Nat) (hp : p < 64) (hm : m < 2) :
    (s.declareMark p m cause).inForce p (1 - m) = s.inForce p (1 - m) := by
  have hCnt : Reg.RED_PSTAT p ≠ Reg.RED_CNT1 := by unfold Reg.RED_CNT1 Reg.RED_PSTAT; omega
  have hLast : Reg.RED_PSTAT p ≠ Reg.RED_LAST := by unfold Reg.RED_LAST Reg.RED_PSTAT; omega
  have hState : (s.setFlag (failedFld p m) true).pairState p = s.pairState p := fld_setFlag_off _ _ (state_failed_off p m)
  have hForce : (s.setFlag (failedFld p m) true).inForce p (1 - m) = s.inForce p (1 - m) := by
    rw [inForce, hState, flag_setFlag_off _ _ (failed_other_off p m hm), inForce]
  unfold declareMark
  dsimp only
  generalize s.setFlag (failedFld p m) true = u at hForce
  generalize BitVec.ofNat 32 ((s.pairSlot p m).engine.getD 0 + 2 ^ 8 * cause + 2 ^ 16 * p + 2 ^ 22 * m) = v
  have hReg : ((u.setReg Reg.RED_LAST v).count Fld.RED_CNT1_DECLARED).reg (Reg.RED_PSTAT p) = u.reg (Reg.RED_PSTAT p) :=
    (reg_count_ne _ _ hCnt).trans (reg_setReg_ne _ _ hLast)
  have hCounted := inForce_of_reg (m := 1 - m) hReg
  generalize (u.setReg Reg.RED_LAST v).count Fld.RED_CNT1_DECLARED = w at hCounted
  exact hCounted.trans hForce

theorem inForce_setPairSlot (s : State) (p j : Nat) (x : PairSlot) (q m : Nat) : (s.setPairSlot p j x).inForce q m = s.inForce q m := rfl

theorem red_declareMark (s : State) (p m cause : Nat) : (s.declareMark p m cause).red = s.red := by
  have hFailed : (s.setFlag (failedFld p m) true).red = s.red := setFlag_red ..
  unfold declareMark
  dsimp only
  generalize s.setFlag (failedFld p m) true = u at hFailed
  have hCount (v : Word) (n : Notice) : (((u.setReg Reg.RED_LAST v).count Fld.RED_CNT1_DECLARED).notify n).red = u.red := rfl
  rw [hCount, hFailed]

theorem reg_declareTell_pstat (s : State) (m : Nat) (hp : p < 64) : (s.declareTell p m).reg (Reg.RED_PSTAT p) = s.reg (Reg.RED_PSTAT p) := by
  unfold declareTell redNote
  split
  · split
    · split
      · rfl
      · exact reg_fireIn s 0x1C 0 _ (ne_mergeRegister (.inl (by unfold Reg.RED_PSTAT; omega)))
    · rfl
  · rfl

theorem red_declareTell (s : State) (p m : Nat) : (s.declareTell p m).red = s.red := by
  unfold declareTell
  split
  · have hKeeps : Keeps [.now, .regs, .engines] s (s.redNote p (1 - m)) := .redNote .refl rfl
    exact hKeeps.frame .red rfl
  · rfl

theorem isRemote_setPairSlot (s : State) (p j : Nat) (x : PairSlot) (m : Nat) : (s.setPairSlot p j x).isRemote p m = s.isRemote p m := by
  rw [isRemote, setPairSlot, pair_setPair, isRemote]
  split <;> rfl

/-- A remote member declared failed leaves its pair SINGLE or LOST. -/
theorem declareSlot_remote (s : State) (cause : Nat) (hp : p < 64) (hRemote : s.isRemote p 1 = true) :
    (s.declareSlot p 1 cause).pairState p = if s.inForce p 0 then 2 else 4 := by
  obtain ⟨x, hSteps⟩ := declareSlot_steps s p 1 cause
  rw [hSteps]
  have hMarked := inForce_declareMark s cause hp (m := 1) (by decide)
  have hRed := red_declareMark s p 1 cause
  generalize s.declareMark p 1 cause = u at hMarked hRed
  have hForce : ((u.declareTell p 1).setPairSlot p 1 x).inForce p 0 = s.inForce p 0 :=
    (inForce_setPairSlot ..).trans <| (inForce_of_reg (reg_declareTell_pstat u 1 hp)).trans hMarked
  have hTold : ((u.declareTell p 1).setPairSlot p 1 x).isRemote p 1 = true := by
    rw [isRemote_setPairSlot, isRemote, pair_congr ((red_declareTell u p 1).trans hRed)]
    exact hRemote
  generalize (u.declareTell p 1).setPairSlot p 1 x = v at hForce hTold
  rw [declareShow, if_pos hTold, hForce]
  split
  · exact pairState_setPairState _ hp (by decide)
  · exact pairState_setPairState _ hp (by decide)

/-! ### Joining -/

/-- The answer in RED_SELF's JRES. -/
def joinAnswered (s : State) (e code : Nat) : State :=
  (s.setRed { s.red with jres := Store.set (fun _ => 0) s.red.jres e code }).countCode (s.ident (0x10 + e)) code

theorem red_joinAnswered (s : State) (e code : Nat) :
    (s.joinAnswered e code).red = { s.red with jres := Store.set (fun _ => 0) s.red.jres e code } := red_countCode ..

theorem jres_joinAnswered (s : State) (e code : Nat) : Store.get (fun _ => 0) (s.joinAnswered e code).red.jres e = code := by
  rw [red_joinAnswered]
  exact Store.get_set_same s.red.jres e code

theorem reg_joinAnswered_pstat (s : State) (e code p : Nat) : (s.joinAnswered e code).reg (Reg.RED_PSTAT p) = s.reg (Reg.RED_PSTAT p) :=
  reg_countCode_ne _ _ _ (by unfold Reg.RED_PSTAT Reg.SYS_WRONG_STATE_CNT; omega)

theorem pairSlot_joinAnswered (s : State) (e code p m : Nat) : (s.joinAnswered e code).pairSlot p m = s.pairSlot p m := by
  have hPair : (s.joinAnswered e code).pair p = s.pair p := by
    rw [pair, red_joinAnswered]
    rfl
  rw [pairSlot, hPair, pairSlot]

/-- The slot's restoration ended in time. -/
def slotJoined (s : State) (q : Nat × Nat) : State :=
  let x := s.pairSlot q.1 q.2
  let s := s.setPairSlot q.1 q.2 { x with joinBy := none, joined := true }
  let s := s.setFlag (failedFld q.1 q.2) false
  s.setFld (Fld.RED_PSTAT_RESTORE_10US q.1) (min 0xFFFF ((s.cycle - x.declared) / 8000))

theorem join_none (h : s.roleSlot e = none) : s.join e = s.joinAnswered e Code.wrongState := by
  unfold join
  rw [h]
  rfl

theorem join_late {v : Nat} (hSlot : s.roleSlot e = some (p, m)) (hRole : s.roleIn e (p, m) = 3)
    (hBy : (s.pairSlot p m).joinBy = some v) (hLate : v < s.cycle) : s.join e = (s.failSpare p m 5).joinAnswered e Code.wrongState := by
  unfold join
  rw [hSlot]
  dsimp only
  rw [if_pos hRole, hBy, Option.any_some, if_pos (decide_eq_true hLate)]
  rfl

/-- The other member told, and the pair's state after the join. -/
def joinTold (s : State) (q : Nat × Nat) : State := if s.isRemote q.1 (1 - q.2) then s else s.redNote q.1 (1 - q.2)

theorem join_inTime {v : Nat} (hSlot : s.roleSlot e = some (p, m)) (hRole : s.roleIn e (p, m) = 3)
    (hBy : (s.pairSlot p m).joinBy = some v) (hTime : s.cycle ≤ v)
    (hForce : ((s.slotJoined (p, m)).joinTold (p, m)).inForce p (1 - m) = true) :
    s.join e = (((s.slotJoined (p, m)).joinTold (p, m)).setPairState p 1).joinAnswered e Code.ok := by
  unfold join
  rw [hSlot]
  dsimp only
  rw [if_pos hRole, hBy, Option.any_some, if_neg (by simp; omega)]
  refine Eq.trans (b := (((s.slotJoined (p, m)).joinTold (p, m)).setPairState p
    (if ((s.slotJoined (p, m)).joinTold (p, m)).inForce p (1 - m) then 1 else
      if (((s.slotJoined (p, m)).joinTold (p, m)).pairSlot p (1 - m)).joinBy.isSome then 3 else 2)).joinAnswered e Code.ok) rfl ?_
  rw [if_pos hForce]

theorem slotJoined_spec (s : State) (hm : m < 2) : (s.slotJoined (p, m)).flag (failedFld p m) = false ∧
    (s.slotJoined (p, m)).inForce p (1 - m) = s.inForce p (1 - m) ∧ ((s.slotJoined (p, m)).pairSlot p m).joinBy = none := by
  have hFld (f : Fld) (hf : f = Fld.RED_PSTAT_STATE p ∨ f = failedFld p m ∨ f = failedFld p (1 - m)) :
      (Fld.RED_PSTAT_RESTORE_10US p).off f = true := by
    have hFailed (j : Nat) : (Fld.RED_PSTAT_RESTORE_10US p).off (failedFld p j) = true := by
      unfold failedFld
      split <;> rfl
    rcases hf with rfl | rfl | rfl
    · rfl
    · exact hFailed m
    · exact hFailed (1 - m)
  have hSlot := pairSlot_setPairSlot s p m { s.pairSlot p m with joinBy := none, joined := true }
  have hSame : (s.setPairSlot p m { s.pairSlot p m with joinBy := none, joined := true }).inForce p (1 - m) = s.inForce p (1 - m) := rfl
  unfold slotJoined
  dsimp only
  generalize s.setPairSlot p m { s.pairSlot p m with joinBy := none, joined := true } = u at hSlot hSame
  generalize min 0xFFFF (((u.setFlag (failedFld p m) false).cycle - (s.pairSlot p m).declared) / 8000) = v
  refine ⟨?_, ?_, ?_⟩
  · rw [flag_setFld_off _ _ (hFld _ (.inr (.inl rfl)))]
    unfold failedFld
    split
    · exact flag_setFlag_on _ _ rfl rfl
    · exact flag_setFlag_on _ _ rfl rfl
  · have hState : ((u.setFlag (failedFld p m) false).setFld (Fld.RED_PSTAT_RESTORE_10US p) v).pairState p = u.pairState p :=
      (fld_setFld_off _ _ (hFld _ (.inl rfl))).trans (fld_setFlag_off _ _ (state_failed_off p m))
    rw [inForce, hState, flag_setFld_off _ _ (hFld _ (.inr (.inr rfl))), flag_setFlag_off _ _ (failed_other_off p m hm), ← inForce, hSame]
  · rw [pairSlot_congr (setFld_red ..), pairSlot_congr (setFlag_red ..), hSlot]

theorem red_joinTold (s : State) (q : Nat × Nat) : (s.joinTold q).red = s.red := by
  unfold joinTold
  split
  · rfl
  · have hKeeps : Keeps [.now, .regs, .engines] s (s.redNote q.1 (1 - q.2)) := .redNote .refl rfl
    exact hKeeps.frame .red rfl

theorem reg_joinTold (s : State) (q : Nat × Nat) (hp : p < 64) : (s.joinTold q).reg (Reg.RED_PSTAT p) = s.reg (Reg.RED_PSTAT p) := by
  unfold joinTold redNote
  split
  · rfl
  · split
    · split
      · rfl
      · exact reg_fireIn s 0x1C 0 _ (ne_mergeRegister (.inl (by unfold Reg.RED_PSTAT; omega)))
    · rfl

/-- A join in time, its pair whole again. -/
theorem join_whole {v : Nat} (hp : p < 64) (hm : m < 2) (hSlot : s.roleSlot e = some (p, m)) (hRole : s.roleIn e (p, m) = 3)
    (hOther : s.inForce p (1 - m) = true) (hBy : (s.pairSlot p m).joinBy = some v) (hTime : s.cycle ≤ v) :
    (s.join e).pairState p = 1 ∧ (s.join e).flag (failedFld p m) = false ∧ ((s.join e).pairSlot p m).joinBy = none ∧
      Store.get (fun _ => 0) (s.join e).red.jres e = 0 := by
  obtain ⟨hFailed, hForce, hJoin⟩ := slotJoined_spec (p := p) s hm
  have hTold : ((s.slotJoined (p, m)).joinTold (p, m)).inForce p (1 - m) = true := by
    rw [inForce_of_reg (reg_joinTold _ _ hp), hForce]
    exact hOther
  rw [join_inTime hSlot hRole hBy hTime hTold]
  have hReg := reg_joinTold (s.slotJoined (p, m)) (p, m) hp
  have hRed := red_joinTold (s.slotJoined (p, m)) (p, m)
  generalize s.slotJoined (p, m) = u at hFailed hForce hJoin hTold hReg hRed
  generalize u.joinTold (p, m) = w at hTold hReg hRed
  refine ⟨?_, ?_, ?_, jres_joinAnswered _ e _⟩
  · rw [pairState_of_reg (reg_joinAnswered_pstat _ e _ p)]
    exact pairState_setPairState w hp (by decide)
  · have hKept := (DeclKept.refl w p m).setPairState hp (st := 1)
    have hAnswer : ((w.setPairState p 1).joinAnswered e Code.ok).flag (failedFld p m) = (w.setPairState p 1).flag (failedFld p m) :=
      flag_of_reg (by rw [failedFld_reg]; exact reg_joinAnswered_pstat _ e _ p)
    have hBefore : w.flag (failedFld p m) = u.flag (failedFld p m) := flag_of_reg (by rw [failedFld_reg]; exact hReg)
    rw [hAnswer, hKept.failed, hBefore, hFailed]
  · rw [pairSlot_joinAnswered, pairSlot_congr (red_setPairState ..), pairSlot_congr hRed, hJoin]

/-! ### Checkpoint copies -/

/-- The supervisor's first row starts where none is being written. -/
theorem startRow_first (hNv : s.nv = none) (hNone : s.sup.started = none) (hBlock : s.nvBlocked = false) (hRows : s.sup.rows ≠ []) :
    s.startRow = { s with sup := { s.sup with started := some s.cycle } } := by
  have hGoes : s.nvRowGoes = false := by rw [nvRowGoes, hNv]; rfl
  have hSome : s.sup.rows.isEmpty = false := List.isEmpty_eq_false_iff.mpr hRows
  have hLow : (if s.nvBlocked ∧ !s.sup.rows.isEmpty then s.supLow else s) = s := if_neg (by simp [hBlock])
  unfold startRow
  dsimp only
  rw [hGoes, hNone, if_neg (by simp), hLow, hSome]
  rfl

/-- Rows offered to a supervisor that writes none. -/
theorem offerRows_idle {rows : List SupRow} (hNv : s.nv = none) (hSup : s.sup = {}) (hBlock : s.nvBlocked = false) (hRows : rows ≠ []) :
    s.offerRows rows = { s with sup := { rows := rows, started := some s.cycle } } := by
  have hOffered : s.offerRows rows = ({ s with sup := { rows := rows } } : State).startRow := by
    unfold offerRows
    dsimp only
    rw [hSup]
    split
    · next h => exact nomatch h.symm.trans hNv
    · rfl
  exact hOffered.trans (startRow_first (s := { s with sup := { rows := rows } }) hNv rfl hBlock hRows)

theorem copyRows_ne_nil (s : State) (p m act gen : Nat) : s.copyRows p m act gen ≠ [] := by
  unfold copyRows
  exact List.append_ne_nil_of_right_ne_nil _ (List.cons_ne_nil _ _)

/-- A valid checkpoint that MRAM does not hold yet is offered. -/
theorem copyCheckpoint_new (hValid : ckptValid (s.dist (s.slotDistrict p m)).sram (s.ckptArea p m).1
      (fun x => (s.ckptArea p m).1 + 0x100 + x * (s.ckptArea p m).2.2) (s.ckptArea p m).2.2 = true)
    (hNew : (s.pairSlot p m).copied ≠ some ((s.dist (s.slotDistrict p m)).sram.readLE ((s.ckptArea p m).1 + 0x10 +
      0x20 * (s.dist (s.slotDistrict p m)).sram.readLE ((s.ckptArea p m).1 + 4) 4) 4))
    (hSmall : (s.ckptArea p m).2.2 ≤ 61184) (hBlock : s.nvBlocked = false) (hNv : s.nv = none) (hSup : s.sup = {}) :
    s.copyCheckpoint p m = { s with sup :=
      { rows := s.copyRows p m ((s.dist (s.slotDistrict p m)).sram.readLE ((s.ckptArea p m).1 + 4) 4)
          ((s.dist (s.slotDistrict p m)).sram.readLE ((s.ckptArea p m).1 + 0x10 +
            0x20 * (s.dist (s.slotDistrict p m)).sram.readLE ((s.ckptArea p m).1 + 4) 4) 4)
        started := some s.cycle } } := by
  have hNone : s.sup.rows.any (fun r => r.pair == p && r.slot == m) = false := by
    rw [hSup]
    rfl
  unfold copyCheckpoint
  dsimp only
  rw [hValid, bne_iff_ne.mpr hNew, decide_eq_true hSmall, hBlock, hNone, if_pos (by rfl)]
  exact offerRows_idle hNv hSup hBlock (copyRows_ne_nil s p m _ _)

/-- What a copy of slot `m` reads. -/
structure CopySame (s t : State) (p m : Nat) : Prop where
  slot : t.pairSlot p m = s.pairSlot p m
  area : t.ckptArea p m = s.ckptArea p m
  dist : ∀ d, t.dist d = s.dist d

theorem CopySame.district (h : CopySame s t p m) : t.slotDistrict p m = s.slotDistrict p m := by
  rw [slotDistrict, h.slot, slotDistrict]

theorem CopySame.rows (h : CopySame s t p m) (act gen : Nat) : t.copyRows p m act gen = s.copyRows p m act gen := by
  unfold copyRows
  rw [h.area, h.district, h.dist]

theorem copySame_mramAt (s : State) (p m : Nat) : CopySame s (s.setRed { s.red with mramAt := s.cycle }) p m := ⟨rfl, rfl, fun _ => rfl⟩

/-- The copy of the only slot that asks for one, at its interval. -/
theorem copyDue_spec (hValid : ckptValid (s.dist (s.slotDistrict p m)).sram (s.ckptArea p m).1
      (fun x => (s.ckptArea p m).1 + 0x100 + x * (s.ckptArea p m).2.2) (s.ckptArea p m).2.2 = true)
    (hNew : (s.pairSlot p m).copied ≠ some ((s.dist (s.slotDistrict p m)).sram.readLE ((s.ckptArea p m).1 + 0x10 +
      0x20 * (s.dist (s.slotDistrict p m)).sram.readLE ((s.ckptArea p m).1 + 4) 4) 4))
    (hSmall : (s.ckptArea p m).2.2 ≤ 61184) (hBlock : s.nvBlocked = false) (hNv : s.nv = none) (hSup : s.sup = {}) :
    ((s.setRed { s.red with mramAt := s.cycle }).copyCheckpoint p m).red.mramAt = s.cycle ∧
    ((s.setRed { s.red with mramAt := s.cycle }).copyCheckpoint p m).sup =
      { rows := s.copyRows p m ((s.dist (s.slotDistrict p m)).sram.readLE ((s.ckptArea p m).1 + 4) 4)
          ((s.dist (s.slotDistrict p m)).sram.readLE ((s.ckptArea p m).1 + 0x10 +
            0x20 * (s.dist (s.slotDistrict p m)).sram.readLE ((s.ckptArea p m).1 + 4) 4) 4)
        started := some s.cycle } ∧
    ((s.setRed { s.red with mramAt := s.cycle }).copyCheckpoint p m).mram = s.mram := by
  have hSame := copySame_mramAt s p m
  have hRest : (s.setRed { s.red with mramAt := s.cycle }).nvBlocked = false ∧ (s.setRed { s.red with mramAt := s.cycle }).nv = none ∧
      (s.setRed { s.red with mramAt := s.cycle }).sup = {} ∧ (s.setRed { s.red with mramAt := s.cycle }).cycle = s.cycle ∧
      (s.setRed { s.red with mramAt := s.cycle }).mram = s.mram ∧ (s.setRed { s.red with mramAt := s.cycle }).red.mramAt = s.cycle :=
    ⟨hBlock, hNv, hSup, rfl, rfl, rfl⟩
  generalize s.setRed { s.red with mramAt := s.cycle } = v at hSame hRest
  obtain ⟨hBlock', hNv', hSup', hCycle, hMram, hAt⟩ := hRest
  rw [← hSame.area, ← hSame.district, ← hSame.dist] at hValid hNew
  rw [← hSame.slot] at hNew
  rw [← hSame.area] at hSmall
  rw [copyCheckpoint_new hValid hNew hSmall hBlock' hNv' hSup', hSame.rows, hSame.area, hSame.district, hSame.dist, hCycle]
  exact ⟨hAt, rfl, hMram⟩

/-! ### Proxy records -/

theorem flushProxy_records (h : (s.proxy d k).gathered ≠ []) (hRoom : (s.records d).length < 16) : ∃ r,
    (s.flushProxy d k).records d = s.records d ++ [r] ∧ r.first = s.fld (Fld.RED_PROXY_FIRST d k) ∧
      ((s.flushProxy d k).proxy d k).gathered = [] ∧ ((s.flushProxy d k).proxy d k).seq = ((s.proxy d k).seq + 1) % 65536 := by
  have hSome : (s.proxy d k).gathered.isEmpty = false := by
    rw [List.isEmpty_eq_false_iff]
    exact h
  refine ⟨⟨s.fld (Fld.RED_PROXY_FIRST d k), BitVec.ofNat 32 ((s.proxy d k).seq + (s.proxy d k).gathered.length * 65536) ::
    pairWords (s.proxy d k).gathered⟩, ?_, rfl, ?_⟩
  · unfold flushProxy
    dsimp only
    rw [hSome, if_neg Bool.false_ne_true, queueRecord]
    dsimp only
    rw [if_neg (by omega)]
    exact Store.get_set_same s.red.records d _
  · unfold flushProxy
    dsimp only
    rw [hSome, if_neg Bool.false_ne_true, queueRecord]
    dsimp only
    rw [if_neg (by omega)]
    have hProxy (x : Proxy) (rs : Store (List ProxyRecord)) :
        ((s.setProxy d k x).setRed { (s.setProxy d k x).red with records := rs }).proxy d k = x :=
      Store.get_set_same s.red.proxies (d * 8 + k) x
    rw [hProxy]
    exact ⟨rfl, rfl⟩

/-! ### Instructions -/

theorem exec_heartbeatPeriodEnd (hRun : s.inReset = false) : exec .heartbeatPeriodEnd s =
    .next (if s.red.monitoring && decide (s.red.periodStart + s.heartbeat ≤ s.cycle) then s.endPeriod else s) :=
  congrArg Host.Outcome.next (live_of_running hRun _)

theorem exec_reclaimComplete (hRun : s.inReset = false) (p m : Nat) : exec (.reclaimComplete p m) s =
    .next (if (s.pairSlot p m).reclaiming then s.completeReclaim p m else s) := congrArg Host.Outcome.next (live_of_running hRun _)

theorem exec_join (hRun : s.inReset = false) (e : Nat) : exec (.join e) s =
    .next (if s.variant.hasTwin && s.hasEngine e then s.join e else s) := congrArg Host.Outcome.next (live_of_running hRun _)

theorem exec_restoreTimeout (hRun : s.inReset = false) (p m : Nat) : exec (.restoreTimeout p m) s =
    .next (if (s.pairSlot p m).joinBy.any fun t => decide (t ≤ s.cycle) then s.failSpare p m 5 else s) :=
  congrArg Host.Outcome.next (live_of_running hRun _)

theorem exec_proxySerialFlush (hRun : s.inReset = false) (d k : Nat) : exec (.proxySerialFlush d k) s =
    .next (if !(s.proxy d k).gathered.isEmpty &&
      decide ((s.proxy d k).last + s.charTime (s.fld (Fld.RED_PROXY_UNIT d k)) ≤ s.cycle) then s.flushProxy d k else s) :=
  congrArg Host.Outcome.next (live_of_running hRun _)

theorem exec_checkpointCopy (hRun : s.inReset = false) : exec .checkpointCopy s =
    .next (if s.fld Fld.RED_CFG_MRAM_100MS * 80000000 ≠ 0 ∧ s.red.mramAt + s.fld Fld.RED_CFG_MRAM_100MS * 80000000 ≤ s.cycle then
      (s.slots.filter fun q => s.pairState q.1 != 0 && !s.isRemote q.1 q.2 && decide (2 * q.1 + q.2 < 32)).foldl
        (fun s q => s.copyCheckpoint q.1 q.2) (s.setRed { s.red with mramAt := s.cycle }) else s) :=
  congrArg Host.Outcome.next (live_of_running hRun _)

theorem exec_wilernHeartbeatTimeout_silent (hRun : s.inReset = false) {c : Nat} (hRemote : (s.pair p).remote = some c)
    (hMon : s.red.monitoring = true) (hForce : s.inForce p 1 = true) (hSilent : 3 * s.window1 ≤ (s.pair p).silent) :
    exec (.wilernHeartbeatTimeout p) s = .next (s.declareSlot p 1 6) := by
  refine congrArg Host.Outcome.next ((live_of_running hRun _).trans ?_)
  rw [hRemote]
  refine if_pos ?_
  rw [hMon, hForce, decide_eq_true hSilent, Bool.true_or]
  rfl

theorem exec_wilernHeartbeatTimeout_off (hRun : s.inReset = false) (hNot : (s.pair p).remote = none ∨ s.red.monitoring = false) :
    exec (.wilernHeartbeatTimeout p) s = .next s := by
  refine congrArg Host.Outcome.next ((live_of_running hRun _).trans ?_)
  rcases hNot with h | h
  · rw [h]
  · rw [h]
    split <;> rfl

end Sys2Proof.Machine.State

open Sys2Proof Sys2Proof.Machine Sys2Proof.Machine.State

/-- Settles O54: periods, reclaims, joins, checkpoint copies, proxy records and remote members, each at its time. -/
theorem twinEvents : Obligations.TwinEvents := by
  intro s p m e d k u hRun hp hm hd hk x due
  have hp64 := lt_64_of_pairs hp
  have hPeriod := exec_heartbeatPeriodEnd hRun
  have hReclaim := exec_reclaimComplete hRun p m
  have hJoin := exec_join hRun e
  have hRestore := exec_restoreTimeout hRun p m
  have hFlush := exec_proxySerialFlush hRun d k
  refine ⟨fun hMon => ⟨fun hEarly => ?_, fun hDue hOne => ?_⟩, fun hOff => ?_, fun hNot => ?_, fun hReclaiming hNone hEngine hHas hSpare => ?_,
    fun hTwin hHas => ⟨fun hNone => ?_, fun hSlot hRole hForce hBy => ⟨fun hLate => ?_, fun hTime => ?_⟩⟩,
    fun hBy => ⟨fun hEarly => ?_, fun hDue hEngine hHas => ?_⟩, ?_, ⟨fun hNot => ?_, fun hSome hEnds hRoom => ?_⟩,
    fun c hRemote hMon hForce hSilent => ?_, fun hNot => ?_⟩
  · rw [hPeriod, decide_eq_false (Nat.not_le.mpr hEarly), Bool.and_false]
    rfl
  · rw [hPeriod, hMon, decide_eq_true hDue]
    exact ⟨_, rfl, endPeriod_spec hOne (lt_96_of_monitored hOne)⟩
  · rw [hPeriod, hOff]
    rfl
  · rw [hReclaim, hNot]
    rfl
  · obtain ⟨v, hHeld, hEq⟩ := completeReclaim_single hp64 hNone hEngine hHas hSpare
    obtain ⟨hDone, hState⟩ := endSingle_spec v hp64 hm
    rw [hReclaim, hReclaiming, if_pos rfl, hEq]
    refine ⟨_, rfl, hDone, hState.trans ?_⟩
    rw [inForce_of_reg (hHeld.reg _ (by unfold inRed Reg.RED_PSTAT; omega))]
  · rw [hJoin, hTwin, hHas, Bool.and_true, if_pos rfl, join_none hNone]
    exact ⟨_, rfl, by rw [red_joinAnswered], jres_joinAnswered s e _⟩
  · rw [hJoin, hTwin, hHas, Bool.and_true, if_pos rfl, join_late hSlot hRole hBy hLate]
    obtain ⟨hFailed, hDone⟩ := failSpare_spec s 5 hp64 hm
    generalize s.failSpare p m 5 = v at hFailed hDone
    refine ⟨_, rfl, ?_, ?_, jres_joinAnswered v e _⟩
    · exact (flag_of_reg (by rw [failedFld_reg]; exact reg_joinAnswered_pstat v e _ p)).trans hFailed
    · rw [pairSlot_joinAnswered, hDone]
  · rw [hJoin, hTwin, hHas, Bool.and_true, if_pos rfl]
    exact ⟨_, rfl, join_whole hp64 hm hSlot hRole hForce hBy hTime⟩
  · rw [hRestore, show (s.pairSlot p m).joinBy = some u from hBy, Option.any_some, if_neg (by simp; omega)]
  · rw [hRestore, show (s.pairSlot p m).joinBy = some u from hBy, Option.any_some, if_pos (decide_eq_true hDue)]
    obtain ⟨hFailed, hDone⟩ := failSpare_spec s 5 hp64 hm
    exact ⟨_, rfl, hFailed, hDone, restores_failSpare s m 5 hp64⟩
  · intro every a sram act gen
    have hExec := exec_checkpointCopy hRun
    refine ⟨fun hNot => ?_, fun hEvery hDue hOnly hValid hNew hSmall hBlock hNv hSup => ?_⟩
    · rw [hExec, if_neg]
      rintro ⟨hEvery, hDue⟩
      rcases hNot with h | h
      · exact hEvery h
      · exact absurd hDue (Nat.not_le.mpr h)
    · rw [hExec, if_pos ⟨hEvery, hDue⟩, hOnly, List.foldl_cons, List.foldl_nil]
      exact ⟨_, rfl, copyDue_spec hValid hNew hSmall hBlock hNv hSup⟩
  · rw [hFlush]
    rcases hNot with h | h
    · rw [show (s.proxy d k).gathered = [] from h]
      rfl
    · rw [decide_eq_false (Nat.not_le.mpr h), Bool.and_false]
      rfl
  · obtain ⟨r, hRecords, hFirst, hGathered, hSeq⟩ := flushProxy_records hSome hRoom
    have hSome' : (s.proxy d k).gathered.isEmpty = false := List.isEmpty_eq_false_iff.mpr hSome
    rw [hFlush, hSome', decide_eq_true hEnds]
    exact ⟨_, r, rfl, hRecords, hFirst, hGathered, hSeq⟩
  · obtain ⟨hFailed, _⟩ := declareSlot_spec s 1 6 hp64
    rw [exec_wilernHeartbeatTimeout_silent hRun hRemote hMon hForce hSilent]
    exact ⟨_, rfl, hFailed, declareSlot_remote s 6 hp64 (by rw [isRemote, hRemote]; rfl)⟩
  · exact exec_wilernHeartbeatTimeout_off hRun hNot

end

section
/-!
PROOF. O55: mailbox channels, sends and their ends, doorbells, and the host's ring pointers.
-/

namespace Sys2Proof.Machine.State

variable {s t : State} {who : Ident} {c : Nat}

/-! ### Channels -/

theorem channel_congr (h : t.channels = s.channels) (c : Nat) : t.channel c = s.channel c := by rw [channel, h, channel]

theorem channel_setChannel (s : State) (c : Nat) (x : Channel) : (s.setChannel c x).channel c = x := Store.get_set_same s.channels c x

theorem channel_setChannel_ne (s : State) (x : Channel) {c c' : Nat} (h : c ≠ c') : (s.setChannel c' x).channel c = s.channel c :=
  Store.get_set_ne _ _ h

theorem leaseOf_congr (h : t.leases = s.leases) (type d i : Nat) : t.leaseOf type d i = s.leaseOf type d i := by
  rw [leaseOf, h, leaseOf]

/-- A sender's end leaves the channels and the leases. -/
theorem finishSend_keeps (s : State) (src : Ident) (slot code : Nat) (dup : Bool) :
    (s.finishSend src slot code dup).channels = s.channels ∧ (s.finishSend src slot code dup).leases = s.leases := by
  have hKeeps : Keeps [.now, .regs, .ave, .island] s (s.finishSend src slot code dup) := .finishSend .refl rfl
  exact ⟨hKeeps.frame .channels rfl, hKeeps.frame .leases rfl⟩

theorem freeChannel_spec (s : State) (c : Nat) : (s.freeChannel c).channel c = {} ∧ (s.freeChannel c).leaseOf 6 0 c = none := by
  have hFreed (u : State) (b : Bool) (hChannel : u.channel c = {}) (hLease : u.leaseOf 6 0 c = none) (i : Island) :
      (if b then { u with island := i } else u).channel c = {} ∧ (if b then { u with island := i } else u).leaseOf 6 0 c = none := by
    split
    · exact ⟨hChannel, hLease⟩
    · exact ⟨hChannel, hLease⟩
  have hEnds (q : List MbxMsg) (f : State → MbxMsg → Nat) (u : State) (hChannel : u.channel c = {}) (hLease : u.leaseOf 6 0 c = none) :
      (q.foldl (fun s m => s.finishSend m.src m.slot (f s m) false) u).channel c = {} ∧
        (q.foldl (fun s m => s.finishSend m.src m.slot (f s m) false) u).leaseOf 6 0 c = none := by
    induction q generalizing u with
    | nil => exact ⟨hChannel, hLease⟩
    | cons m q ih =>
      obtain ⟨hChannels, hLeases⟩ := finishSend_keeps u m.src m.slot (f u m) false
      exact ih _ ((channel_congr hChannels c).trans hChannel) ((leaseOf_congr hLeases 6 0 c).trans hLease)
  have hEnded : (((s.setChannel c {}).dropLease 6 0 c).noteEnded c (s.channel c)).channel c = {} ∧
      (((s.setChannel c {}).dropLease 6 0 c).noteEnded c (s.channel c)).leaseOf 6 0 c = none :=
    ⟨channel_setChannel s c {}, leaseOf_dropLease (s.setChannel c {}) 6 0 c⟩
  unfold freeChannel
  dsimp only
  generalize ((s.setChannel c {}).dropLease 6 0 c).noteEnded c (s.channel c) = u at hEnded
  obtain ⟨hChannel, hLease⟩ := hFreed u ((s.channel c).holder.any (fun h => Ident.isIsland h) && decide (c < 62)) hEnded.1 hEnded.2 u.island.loseAll
  exact hEnds (s.channel c).queue (fun t m => if (t.sentNow c m).isSome then Code.wrongState else Code.revoked) _ hChannel hLease

/-! ### The commands of a block -/

/-- The outcome in the block, with the channels left. -/
theorem mbxResult_spec (t : State) (who : Ident) {code : Nat} (hCode : code < 65536) :
    (t.mbxResult who code).fld (Fld.MBX_CMD_RES_RESULT (mbxBlock who)) = code ∧
      (t.mbxResult who code).flag (Fld.MBX_CMD_RES_DONE (mbxBlock who)) = true ∧
      (t.mbxResult who code).channels = t.channels ∧ (t.mbxResult who code).leases = t.leases := by
  have hReg : Reg.MBX_CMD_RES (mbxBlock who) ≠ Reg.SYS_WRONG_STATE_CNT := by
    unfold Reg.MBX_CMD_RES Reg.SYS_WRONG_STATE_CNT
    omega
  have hKeeps : Keeps [.now, .regs] t (t.mbxResult who code) := .mbxResult .refl rfl
  refine ⟨?_, ?_, hKeeps.frame .channels rfl, hKeeps.frame .leases rfl⟩
  · rw [mbxResult, fld_countCode_off _ _ _ (beq_eq_false_iff_ne.mpr hReg), fld_setFlag_off _ _ rfl, fld_setFld_on _ _ rfl]
    exact Nat.mod_eq_of_lt hCode
  · rw [mbxResult, flag_countCode_off _ _ _ (beq_eq_false_iff_ne.mpr hReg), flag_setFlag_on _ _ rfl rfl]

theorem mbxCommand_runs (hStamp : s.mayStamp who = true) (hDone : s.flag (Fld.MBX_CMD_RES_DONE (mbxBlock who)) = true)
    (hFirst : s.took (Reg.MBX_CMD (mbxBlock who)) = false) (f : State → State) :
    s.mbxCommand who f = f (s.taken (Reg.MBX_CMD (mbxBlock who))) :=
  (if_pos hStamp).trans (oneAtATime_first (by rw [hDone]; rfl) hFirst f)

theorem mbxCommand_lost (hStamp : s.mayStamp who = true) (h : s.flag (Fld.MBX_CMD_RES_DONE (mbxBlock who)) = false ∨
    s.took (Reg.MBX_CMD (mbxBlock who)) = true) (f : State → State) :
    s.mbxCommand who f = s.setFlag (Fld.MBX_CMD_RES_LOST (mbxBlock who)) true :=
  (if_pos hStamp).trans (oneAtATime_lost (h.imp_left fun h => by rw [h]; rfl) f)

/-- CLOSE's body. -/
def closeBody (who : Ident) (c : Nat) (s : State) : State :=
  if (s.channel c).holder = some who then (s.freeChannel c).mbxResult who Code.ok else s.mbxResult who Code.wrongState

/-- REVOKE's body. -/
def revokeBody (who : Ident) (c : Nat) (s : State) : State :=
  if !Ident.isSup who then s.mbxResult who Code.authFail
  else if (s.channel c).holder.isNone then s.mbxResult who Code.wrongState
  else (s.freeChannel c).mbxResult who Code.ok

section
variable (h : s.serves who = true) (hc : c < 64)
include h hc

theorem exec_mbxOpen (depth b : Nat) (any : Bool) (target : Ident) : exec (.mbxOpen who c depth b any target) s =
    .next (s.mbxCommand who fun s => s.openChannel who c (depth % 4 + 1) (b % 32) any target) := by
  refine (congrArg Host.Outcome.next (served_of_serves h _)).trans ?_
  rw [Nat.mod_eq_of_lt hc]

theorem exec_close : exec (.close who c) s = .next (s.mbxCommand who (closeBody who c)) := by
  refine (congrArg Host.Outcome.next (served_of_serves h _)).trans ?_
  rw [Nat.mod_eq_of_lt hc]
  rfl

theorem exec_revoke : exec (.revoke who c) s = .next (s.mbxCommand who (revokeBody who c)) := by
  refine (congrArg Host.Outcome.next (served_of_serves h _)).trans ?_
  rw [Nat.mod_eq_of_lt hc]
  rfl

theorem exec_send_local (len : Nat) : exec (.send who c len none) s = .next (if s.mayStamp who then s.send who c len none else s) := by
  refine (congrArg Host.Outcome.next (served_of_serves h _)).trans ?_
  rw [Nat.mod_eq_of_lt hc]

theorem exec_ack (code : BitVec 16) : exec (.ack who c code) s = .next (s.ackChannel who c code.toNat) := by
  refine (congrArg Host.Outcome.next (served_of_serves h _)).trans ?_
  rw [Nat.mod_eq_of_lt hc]

end

/-- A FREE channel taken. -/
theorem openChannel_free (hFree : (s.channel c).holder = none) (depth b : Nat) (any : Bool) (target : Ident) :
    s.openChannel who c depth b any target = (s.takeChannel who c depth b any target).mbxResult who Code.ok := by
  unfold openChannel
  rw [hFree]

theorem openChannel_busy (hHeld : (s.channel c).holder.isSome = true) (hNone : s.now.opened = []) (depth b : Nat) (any : Bool)
    (target : Ident) : s.openChannel who c depth b any target = s.mbxResult who Code.busy := by
  obtain ⟨h, hh⟩ := Option.isSome_iff_exists.mp hHeld
  unfold openChannel
  rw [hh]
  dsimp only
  rw [hNone, if_neg]
  simp

theorem takeChannel_spec (s : State) (who : Ident) (c depth b : Nat) (any : Bool) (target : Ident) :
    (s.takeChannel who c depth b any target).channel c =
        { holder := some who, depth := depth, dbit := b, any := any, allow := target, queue := [] } ∧
      (s.takeChannel who c depth b any target).leaseOf 6 0 c = some { type := 6, district := 0, index := c, holder := who } := by
  have hSet := channel_setChannel { s with now := { s.now with opened := (c, who) :: s.now.opened } } c
    { holder := some who, depth := depth, dbit := b, any := any, allow := target, queue := [] }
  refine ⟨hSet, ?_⟩
  unfold leaseOf takeChannel addLease
  rw [List.find?_cons_of_pos (by simp)]

/-! ### SEND -/

/-- What a block shows of its send. -/
theorem showSend_spec (t : State) (who : Ident) {code : Nat} (dup : Bool) (hCode : code < 65536) :
    (t.showSend who code dup).fld (Fld.MBX_SEND_RES_RESULT (mbxBlock who)) = code ∧
      (t.showSend who code dup).fld (Fld.MBX_SEND_RES_DONE (mbxBlock who)) = bit (code != Code.pending) ∧
      (t.showSend who code dup).channels = t.channels := by
  refine ⟨?_, ?_, rfl⟩
  · unfold showSend
    dsimp only
    rw [fld_setFlag_off _ _ rfl, fld_setFlag_off _ _ rfl, fld_setFld_on _ _ rfl]
    exact Nat.mod_eq_of_lt hCode
  · unfold showSend
    dsimp only
    rw [fld_setFlag_off _ _ rfl, fld_setFlag_on _ _ rfl rfl]

theorem channels_ringLocal (s : State) (src b : Nat) : (s.ringLocal src b).channels = s.channels := by
  have hKeeps : Keeps [.now, .regs, .engines, .msixPba, .island, .out] s (s.ringLocal src b) := .ringLocal .refl rfl
  exact hKeeps.frame .channels rfl

/-- A message that may be sent joins its channel's queue. -/
theorem arrive_ok {slot : Nat} {bs : List Byte} (hOk : s.sendCode who c = Code.ok) : ∃ u,
    s.arrive who slot c bs none = (Code.pending, false, u) ∧
      (u.channel c).queue = (s.channel c).queue ++ [{ src := who, slot := slot, data := bs }] := by
  have hNot : ¬Code.ok = Code.busy := by decide
  unfold arrive
  rw [hOk, if_neg hNot]
  dsimp only
  rw [hOk, if_neg (by simp), if_neg (by simp)]
  refine ⟨_, rfl, ?_⟩
  split
  · rw [channel_congr (channels_ringLocal ..)]
    exact congrArg Channel.queue (channel_setChannel s c _)
  · exact congrArg Channel.queue (channel_setChannel s c _)

/-- A message refused in a cycle that has queued no other. -/
theorem arrive_refused {slot : Nat} {bs : List Byte} (hNot : s.sendCode who c ≠ Code.ok) (hNone : s.now.sent = []) :
    s.arrive who slot c bs none = (s.sendCode who c, false, s.countCode who (s.sendCode who c)) := by
  have hSent (m : MbxMsg) : s.sentNow c m = none := by
    rw [sentNow, hNone]
    rfl
  have hPlace : (if s.sendCode who c = Code.busy then s.givePlace who c else s) = s := by
    split
    · have hLater : (s.channel c).queue.filter (fun m => (s.sentNow c m).isSome && decide (sendRank who < sendRank m.src)) = [] := by
        rw [List.filter_eq_nil_iff]
        intro m _ h
        rw [hSent m] at h
        exact Bool.false_ne_true h
      unfold givePlace
      dsimp only
      rw [hLater]
      rfl
    · rfl
  unfold arrive
  rw [hPlace]
  dsimp only
  rw [if_pos hNot]

theorem firstCode_mem (l : List (Bool × Nat)) : firstCode l = Code.ok ∨ firstCode l ∈ l.map Prod.snd := by
  induction l with
  | nil => exact .inl rfl
  | cons p l ih =>
    obtain ⟨b, code⟩ := p
    cases b with
    | true => exact .inr List.mem_cons_self
    | false => exact ih.imp id (List.mem_cons_of_mem _)

/-- The codes of a send. -/
theorem sendCode_lt (s : State) (who : Ident) (c : Nat) : s.sendCode who c < 65536 ∧ s.sendCode who c ≠ Code.pending := by
  have hMem : s.sendCode who c = Code.ok ∨ s.sendCode who c ∈ [Code.authFail, Code.authFail, Code.wrongState, Code.busy] :=
    firstCode_mem _
  simp only [List.mem_cons, List.not_mem_nil, or_false] at hMem
  rcases hMem with h | h | h | h | h <;> rw [h] <;> decide

theorem send_runs {len : Nat} (hLen : len ≤ 256) (hDone : s.fld (Fld.MBX_SEND_RES_DONE (mbxBlock who)) = 1)
    (hFirst : s.took (Reg.MBX_SEND (mbxBlock who)) = false) (hFlow : s.sendFlow (mbxBlock who) = none) :
    s.send who c len none =
      ((s.taken (Reg.MBX_SEND (mbxBlock who))).arrive who 0 c (s.sdata (mbxBlock who) len) none).2.2.showSend who
        ((s.taken (Reg.MBX_SEND (mbxBlock who))).arrive who 0 c (s.sdata (mbxBlock who) len) none).1
        ((s.taken (Reg.MBX_SEND (mbxBlock who))).arrive who 0 c (s.sdata (mbxBlock who) len) none).2.1 := by
  have hFlow' : (s.taken (Reg.MBX_SEND (mbxBlock who))).sendFlow (mbxBlock who) = none := hFlow
  unfold send
  dsimp only
  rw [if_neg (by omega), oneAtATime_first (by rw [hDone]; rfl) hFirst, hFlow']
  rfl

theorem send_lost {len : Nat} (hLen : len ≤ 256) (h : s.fld (Fld.MBX_SEND_RES_DONE (mbxBlock who)) = 0 ∨
    s.took (Reg.MBX_SEND (mbxBlock who)) = true) : s.send who c len none = s.setFlag (Fld.MBX_SEND_RES_LOST (mbxBlock who)) true := by
  unfold send
  dsimp only
  rw [if_neg (by omega)]
  exact oneAtATime_lost (h.imp_left fun h => by rw [h]; rfl) _

theorem send_long {len : Nat} (hLen : 256 < len) : s.send who c len none = s.mbxErr := if_pos hLen

/-! ### Ends of sends -/

/-- The end of a local sender's message. -/
theorem finishSend_local {src : Ident} {slot code : Nat} {dup : Bool} (hChip : Ident.chip src = s.chip)
    (hIsland : Ident.isIsland src = false) (hCode : code < 65536) :
    (s.finishSend src slot code dup).fld (Fld.MBX_SEND_RES_RESULT (mbxBlock src)) = code ∧
      (s.finishSend src slot code dup).fld (Fld.MBX_SEND_RES_DONE (mbxBlock src)) = 1 := by
  have hReg : Reg.MBX_SEND_RES (mbxBlock src) ≠ Reg.SYS_WRONG_STATE_CNT := by
    unfold Reg.MBX_SEND_RES Reg.SYS_WRONG_STATE_CNT
    omega
  unfold finishSend
  rw [if_neg (not_not.mpr hChip), hIsland, if_neg Bool.false_ne_true]
  dsimp only
  refine ⟨?_, ?_⟩
  · rw [fld_countCode_off _ _ _ (beq_eq_false_iff_ne.mpr hReg), fld_setFlag_off _ _ rfl, fld_setFlag_off _ _ rfl, fld_setFld_on _ _ rfl]
    exact Nat.mod_eq_of_lt hCode
  · rw [fld_countCode_off _ _ _ (beq_eq_false_iff_ne.mpr hReg), fld_setFlag_off _ _ rfl, fld_setFlag_on _ _ rfl rfl]
    rfl

theorem endedFor_none (h : s.now.ended = []) : s.endedFor who c = none := by
  rw [endedFor, h]
  rfl

theorem ackChannel_front {code : Nat} {m : MbxMsg} {rest : List MbxMsg} (hEnded : s.now.ended = [])
    (hHolder : (s.channel c).holder = some who) (hCode : code ≠ Code.pending) (hQueue : (s.channel c).queue = m :: rest) :
    s.ackChannel who c code = (s.setChannel c { s.channel c with queue := rest }).finishSend m.src m.slot code false := by
  unfold ackChannel
  rw [endedFor_none hEnded]
  dsimp only [Option.map_none, Option.getD_none]
  rw [hQueue]
  dsimp only
  rw [if_pos ⟨hHolder, hCode⟩]

theorem ackChannel_refused {code : Nat} (hEnded : s.now.ended = [])
    (h : (s.channel c).holder ≠ some who ∨ (s.channel c).queue = [] ∨ code = Code.pending) : s.ackChannel who c code = s.mbxErr := by
  unfold ackChannel
  rw [endedFor_none hEnded]
  dsimp only [Option.map_none, Option.getD_none]
  split
  · next m rest hQueue =>
    refine if_neg fun hBoth => ?_
    rcases h with h | h | h
    · exact h hBoth.1
    · rw [h] at hQueue
      cases hQueue
    · exact hBoth.2 h
  · rfl

/-! ### MBX_ABORT -/

/-- A channel without the messages of a sender. -/
def dropOne (src : Ident) (s : State) (c : Nat) : State :=
  let x := s.channel c
  let s := match x.queue with
    | m :: _ => if m.src = src then s.noteEnded c { x with queue := [m] } else s
    | [] => s
  s.setChannel c { x with queue := x.queue.filter fun m => m.src != src }

theorem channel_dropOne (src : Ident) (s : State) (c : Nat) :
    (dropOne src s c).channel c = { s.channel c with queue := (s.channel c).queue.filter fun m => m.src != src } :=
  channel_setChannel _ c _

theorem channel_dropOne_ne (src : Ident) (s : State) {c c' : Nat} (h : c ≠ c') : (dropOne src s c').channel c = s.channel c := by
  unfold dropOne
  dsimp only
  rw [channel_setChannel_ne _ _ h]
  split
  · split <;> rfl
  · rfl

theorem dropMessages_none (s : State) (src : Ident) (hc : c < 64) : ∀ y ∈ ((s.dropMessages src).channel c).queue, y.src ≠ src := by
  have hDropped (u : State) : ∀ y ∈ ((dropOne src u c).channel c).queue, y.src ≠ src := by
    rw [channel_dropOne]
    intro y hy
    exact bne_iff_ne.mp (List.mem_filter.mp hy).2
  have hKept (l : List Nat) (u : State) (hu : ∀ y ∈ (u.channel c).queue, y.src ≠ src) :
      ∀ y ∈ ((l.foldl (dropOne src) u).channel c).queue, y.src ≠ src := by
    induction l generalizing u with
    | nil => exact hu
    | cons c' l ih =>
      refine ih _ ?_
      by_cases hcc : c = c'
      · rw [← hcc]
        exact hDropped u
      · rw [channel_dropOne_ne src u hcc]
        exact hu
  have hAll (l : List Nat) (u : State) (hMem : c ∈ l) : ∀ y ∈ ((l.foldl (dropOne src) u).channel c).queue, y.src ≠ src := by
    induction l generalizing u with
    | nil => cases hMem
    | cons c' l ih =>
      rcases List.mem_cons.mp hMem with rfl | hMem
      · exact hKept l _ (hDropped u)
      · exact ih _ hMem
  exact hAll (List.range 64) s (List.mem_range.mpr hc)

/-- The identity of a block, and the block of its identity. -/
theorem blockSrc_spec (s : State) {k : Nat} (hk : k < 8 ∨ (16 ≤ k ∧ k ≤ 112)) : Ident.chip (s.ident (blockSrc k)) = s.chip ∧
    Ident.isIsland (s.ident (blockSrc k)) = false ∧ mbxBlock (s.ident (blockSrc k)) = k := by
  have hChip : s.chip < 8 := fieldGet_lt _ _ _
  have hSrc : blockSrc k < 256 ∧ (k < 112 → blockSrc k = k) ∧ (k = 112 → blockSrc k = 0xF0) := by
    unfold blockSrc
    split
    · omega
    · split <;> omega
  have hNat : (s.ident (blockSrc k)).toNat = s.chip * 8192 + blockSrc k := by
    rw [ident, BitVec.toNat_ofNat]
    omega
  have hIdent : Ident.src (s.ident (blockSrc k)) = blockSrc k := by
    rw [Ident.src, hNat]
    omega
  refine ⟨?_, ?_, ?_⟩
  · rw [Ident.chip, hNat]
    omega
  · rw [Ident.isIsland, hIdent, beq_eq_false_iff_ne]
    omega
  · unfold mbxBlock Ident.isHost Ident.isEngine Ident.engine
    rw [hIdent]
    simp only [decide_eq_true_eq]
    split
    · omega
    · split <;> omega

/-! ### Doorbells and notes -/

/-- A doorbell of a host function is set, beside those that were. -/
theorem reg_ringLocal_host (s : State) {src b : Nat} (hHost : src < 8) :
    (s.ringLocal src b).reg (Reg.MBX_DB src) = s.reg (Reg.MBX_DB src) ||| (1#32 <<< b) := by
  have hSrc : Ident.src (BitVec.ofNat 16 src) = src := by
    unfold Ident.src
    rw [BitVec.toNat_ofNat]
    omega
  have hBlock : mbxBlock (BitVec.ofNat 16 src) = src := by
    unfold mbxBlock Ident.isHost
    rw [hSrc, decide_eq_true hHost, if_pos rfl]
  have hMerge (e : Nat) : Reg.MBX_DB src ≠ Reg.CE_EVT_OVR e := ne_mergeRegister (.inl (by unfold Reg.MBX_DB; omega)) e
  unfold ringLocal
  rw [if_neg (by omega), hBlock]
  dsimp only
  rw [reg_bellChange _ _ _ (mbx_ne_irqReg src) hMerge, reg_setReg_same]

theorem mask_ne_irqReg (k n : Nat) : Reg.MBX_DBMASK k ≠ irqReg n := by
  unfold Reg.MBX_DBMASK irqReg Reg.MBX_IRQ_PEND0 Reg.MBX_IRQ_PEND1
  split <;> omega

theorem mbxBlock_le (who : Ident) : mbxBlock who ≤ 112 := by
  unfold mbxBlock Ident.isHost Ident.isEngine Ident.engine
  split
  · next h =>
    have hSrc : Ident.src who < 8 := of_decide_eq_true h
    omega
  · split
    · next h =>
      have hSrc := of_decide_eq_true h
      omega
    · exact Nat.le_refl _

/-- An interrupt source of the first word is pending. -/
theorem raiseIrq_pends (s : State) {src : Nat} (h : src < 32) : ((s.raiseIrq src).reg Reg.MBX_IRQ_PEND0).getLsbD src = true := by
  have hReg : irqReg src = Reg.MBX_IRQ_PEND0 := if_pos h
  have hMod : src % 32 = src := Nat.mod_eq_of_lt h
  have hSet (u : State) : ((u.setReg Reg.MBX_IRQ_PEND0 (u.reg Reg.MBX_IRQ_PEND0 ||| (1#32 <<< src))).reg Reg.MBX_IRQ_PEND0).getLsbD src = true := by
    rw [reg_setReg_same, BitVec.getLsbD_or, BitVec.getLsbD_shiftLeft]
    simp [h]
  have hMsix (u : State) (fn vec : Nat) : (u.signalMsix fn vec).reg Reg.MBX_IRQ_PEND0 = u.reg Reg.MBX_IRQ_PEND0 := by
    unfold signalMsix
    split <;> rfl
  unfold raiseIrq
  dsimp only
  rw [hReg, hMod]
  generalize s.stampSet Reg.MBX_IRQ_PEND0 (1#32 <<< src) = u
  split
  · next hPend => exact hPend
  · split
    · split
      · exact hSet u
      · rw [hMsix]
        exact hSet u
    · exact hSet u

section
variable (h : s.serves who = true)
include h

theorem exec_mbxAbort (k : Nat) : exec (.mbxAbort who k) s = .next (if !Ident.isSup who then s.mbxErr
    else if !decide (k < 8 ∨ (16 ≤ k ∧ k ≤ 112)) then s.mbxErr
    else if s.fld (Fld.MBX_SEND_RES_DONE k) = 0 then
      (s.dropMessages (s.ident (blockSrc k))).finishSend (s.ident (blockSrc k)) 0 Code.revoked false
    else s) := congrArg Host.Outcome.next (served_of_serves h _)

theorem exec_mbxRing (target : Ident) (b : Nat) : exec (.mbxRing who target b) s =
    .next (if (Ident.isHost who || Ident.isSup who) && s.targetPresent target then s.ring target (b % 32) else s.mbxErr) :=
  congrArg Host.Outcome.next (served_of_serves h _)

theorem exec_mbxDbmask (v : Word) : exec (.mbxDbmask who v) s =
    .next ((s.setReg (Reg.MBX_DBMASK (mbxBlock who)) v).bellChange (mbxBlock who) (s.bellDue (mbxBlock who))) :=
  congrArg Host.Outcome.next (served_of_serves h _)

theorem exec_mbxSupNote (v : Word) : exec (.mbxSupNote who v) s =
    .next (if Ident.isSup who then (s.setReg Reg.MBX_SUP_NOTE v).raiseIrq 4
      else if Ident.isEngine who then s.refuseStore who Reg.MBX_SUP_NOTE else s.mbxErr) :=
  congrArg Host.Outcome.next (served_of_serves h _)

theorem exec_mbxHrxHead (v : Word) : exec (.mbxHrxHead who v) s =
    .next (if s.ringOwner who && decide ((fieldGet v 0 11 + 2048 - s.fld Fld.MBX_HRX_HEAD_HEAD) % 2048 ≤
        (s.fld Fld.MBX_HRX_TAIL_TAIL + 2048 - s.fld Fld.MBX_HRX_HEAD_HEAD) % 2048)
      then s.setFld Fld.MBX_HRX_HEAD_HEAD (fieldGet v 0 11) else s.mbxErr) := congrArg Host.Outcome.next (served_of_serves h _)

theorem exec_mbxHtxTail (v : Word) : exec (.mbxHtxTail who v) s =
    .next (if s.ringOwner who && decide ((fieldGet v 0 11 + 2048 - s.fld Fld.MBX_HTX_TAIL_TAIL) % 2048 ≤
        2047 - (s.fld Fld.MBX_HTX_TAIL_TAIL + 2048 - s.fld Fld.MBX_HTX_HEAD_HEAD) % 2048)
      then s.setFld Fld.MBX_HTX_TAIL_TAIL (fieldGet v 0 11) else s.mbxErr) := congrArg Host.Outcome.next (served_of_serves h _)

end

/-! ### MBX_HOST_CFG -/

/-- NFN taken in LOAD, and left elsewhere. -/
def nfnWritten (s : State) (who : Ident) (v : Word) : State :=
  if s.mode == Mode.load then s.setFld Fld.MBX_HOST_CFG_NFN (fieldGet v 0 3)
  else if fieldGet v 0 3 = s.fld Fld.MBX_HOST_CFG_NFN then s else s.wrongState who

/-- The ring's switch: its change returns the pointers to 0. -/
def ringSwitched (s : State) (on : Nat) : State :=
  if s.fld Fld.MBX_HOST_CFG_HRING_EN = on then s
  else ((((s.setFld Fld.MBX_HOST_CFG_HRING_EN on).setReg Reg.MBX_HRX_TAIL 0).setReg Reg.MBX_HRX_HEAD 0).setReg Reg.MBX_HTX_HEAD 0).setReg
    Reg.MBX_HTX_TAIL 0

theorem exec_mbxHostCfg (h : s.serves who = true) (v : Word) : exec (.mbxHostCfg who v) s = .next (if fieldGet v 0 3 = 0 then s.mbxErr
    else ((s.nfnWritten who v).setFld Fld.MBX_HOST_CFG_HRING_FN (fieldGet v 8 3)).ringSwitched (fieldGet v 11 1)) :=
  congrArg Host.Outcome.next (served_of_serves h _)

theorem nfnWritten_spec (s : State) (who : Ident) (v : Word) :
    (s.nfnWritten who v).fld Fld.MBX_HOST_CFG_NFN = (if s.mode = Mode.load then fieldGet v 0 3 else s.fld Fld.MBX_HOST_CFG_NFN) ∧
      (s.nfnWritten who v).fld Fld.MBX_HOST_CFG_HRING_EN = s.fld Fld.MBX_HOST_CFG_HRING_EN := by
  unfold nfnWritten
  by_cases hLoad : s.mode = Mode.load
  · rw [if_pos (beq_iff_eq.mpr hLoad), if_pos hLoad]
    exact ⟨(fld_setFld_on (f := Fld.MBX_HOST_CFG_NFN) s _ rfl).trans (Nat.mod_eq_of_lt (fieldGet_lt v 0 3)), fld_setFld_off _ _ rfl⟩
  · rw [if_neg (by rw [beq_iff_eq]; exact hLoad), if_neg hLoad]
    split
    · exact ⟨rfl, rfl⟩
    · have hReg : (s.wrongState who).reg Reg.MBX_HOST_CFG = s.reg Reg.MBX_HOST_CFG := reg_countCode_ne s who Code.wrongState (by decide)
      exact ⟨fld_of_reg hReg, fld_of_reg hReg⟩

theorem ringSwitched_spec (s : State) {on : Nat} (hOn : on < 2) :
    (s.ringSwitched on).fld Fld.MBX_HOST_CFG_NFN = s.fld Fld.MBX_HOST_CFG_NFN ∧
      (s.ringSwitched on).fld Fld.MBX_HOST_CFG_HRING_FN = s.fld Fld.MBX_HOST_CFG_HRING_FN ∧
      (s.ringSwitched on).fld Fld.MBX_HOST_CFG_HRING_EN = on ∧
      (s.fld Fld.MBX_HOST_CFG_HRING_EN ≠ on → (s.ringSwitched on).reg Reg.MBX_HRX_HEAD = 0 ∧ (s.ringSwitched on).reg Reg.MBX_HRX_TAIL = 0 ∧
        (s.ringSwitched on).reg Reg.MBX_HTX_HEAD = 0 ∧ (s.ringSwitched on).reg Reg.MBX_HTX_TAIL = 0) := by
  unfold ringSwitched
  by_cases hSame : s.fld Fld.MBX_HOST_CFG_HRING_EN = on
  · rw [if_pos hSame]
    exact ⟨rfl, rfl, hSame, fun h => absurd hSame h⟩
  · rw [if_neg hSame]
    have hNfn : (s.setFld Fld.MBX_HOST_CFG_HRING_EN on).fld Fld.MBX_HOST_CFG_NFN = s.fld Fld.MBX_HOST_CFG_NFN := fld_setFld_off _ _ rfl
    have hFn : (s.setFld Fld.MBX_HOST_CFG_HRING_EN on).fld Fld.MBX_HOST_CFG_HRING_FN = s.fld Fld.MBX_HOST_CFG_HRING_FN :=
      fld_setFld_off _ _ rfl
    have hEn : (s.setFld Fld.MBX_HOST_CFG_HRING_EN on).fld Fld.MBX_HOST_CFG_HRING_EN = on :=
      (fld_setFld_on (f := Fld.MBX_HOST_CFG_HRING_EN) s on rfl).trans (Nat.mod_eq_of_lt hOn)
    generalize s.setFld Fld.MBX_HOST_CFG_HRING_EN on = u at hNfn hFn hEn
    refine ⟨?_, ?_, ?_, fun _ => ⟨?_, ?_, ?_, ?_⟩⟩
    · rw [fld_setReg_off _ _ rfl, fld_setReg_off _ _ rfl, fld_setReg_off _ _ rfl, fld_setReg_off _ _ rfl, hNfn]
    · rw [fld_setReg_off _ _ rfl, fld_setReg_off _ _ rfl, fld_setReg_off _ _ rfl, fld_setReg_off _ _ rfl, hFn]
    · rw [fld_setReg_off _ _ rfl, fld_setReg_off _ _ rfl, fld_setReg_off _ _ rfl, fld_setReg_off _ _ rfl, hEn]
    · rw [reg_setReg_ne _ _ (by decide), reg_setReg_ne _ _ (by decide), reg_setReg_same]
    · rw [reg_setReg_ne _ _ (by decide), reg_setReg_ne _ _ (by decide), reg_setReg_ne _ _ (by decide), reg_setReg_same]
    · rw [reg_setReg_ne _ _ (by decide), reg_setReg_same]
    · rw [reg_setReg_same]

/-- What a write of MBX_HOST_CFG leaves. -/
theorem hostCfg_spec (s : State) (who : Ident) (v : Word) :
    let t := ((s.nfnWritten who v).setFld Fld.MBX_HOST_CFG_HRING_FN (fieldGet v 8 3)).ringSwitched (fieldGet v 11 1)
    t.fld Fld.MBX_HOST_CFG_NFN = (if s.mode = Mode.load then fieldGet v 0 3 else s.fld Fld.MBX_HOST_CFG_NFN) ∧
      t.fld Fld.MBX_HOST_CFG_HRING_FN = fieldGet v 8 3 ∧ t.fld Fld.MBX_HOST_CFG_HRING_EN = fieldGet v 11 1 ∧
      (s.fld Fld.MBX_HOST_CFG_HRING_EN ≠ fieldGet v 11 1 → t.reg Reg.MBX_HRX_HEAD = 0 ∧ t.reg Reg.MBX_HRX_TAIL = 0 ∧
        t.reg Reg.MBX_HTX_HEAD = 0 ∧ t.reg Reg.MBX_HTX_TAIL = 0) := by
  obtain ⟨hNfn, hEn⟩ := nfnWritten_spec s who v
  dsimp only
  generalize s.nfnWritten who v = u at hNfn hEn
  have hNfn' : (u.setFld Fld.MBX_HOST_CFG_HRING_FN (fieldGet v 8 3)).fld Fld.MBX_HOST_CFG_NFN = u.fld Fld.MBX_HOST_CFG_NFN :=
    fld_setFld_off _ _ rfl
  have hEn' : (u.setFld Fld.MBX_HOST_CFG_HRING_FN (fieldGet v 8 3)).fld Fld.MBX_HOST_CFG_HRING_EN = u.fld Fld.MBX_HOST_CFG_HRING_EN :=
    fld_setFld_off _ _ rfl
  have hFn : (u.setFld Fld.MBX_HOST_CFG_HRING_FN (fieldGet v 8 3)).fld Fld.MBX_HOST_CFG_HRING_FN = fieldGet v 8 3 :=
    (fld_setFld_on (f := Fld.MBX_HOST_CFG_HRING_FN) u _ rfl).trans (Nat.mod_eq_of_lt (fieldGet_lt v 8 3))
  generalize u.setFld Fld.MBX_HOST_CFG_HRING_FN (fieldGet v 8 3) = w at hNfn' hEn' hFn
  obtain ⟨hN, hF, hE, hZero⟩ := ringSwitched_spec w (fieldGet_lt v 11 1)
  exact ⟨hN.trans (hNfn'.trans hNfn), hF.trans hFn, hE, fun h => hZero (by rw [hEn', hEn]; exact h)⟩

end Sys2Proof.Machine.State

open Sys2Proof Sys2Proof.Machine Sys2Proof.Machine.State

/-- Settles O55: the commands of a block, sends and their ends, doorbells, notes and the host's ring pointers. -/
theorem mailboxesAndRings : Obligations.MailboxesAndRings := by
  intro s who target c k b depth len any v code m hServes hc own x err ends same
  have hErr : err s.mbxErr := ⟨flag_setFlag_on _ _ rfl rfl, rfl⟩
  have hEnds {i : Instr} {f : State → State} {u : State} {r : Nat} {post : State → Prop} (hi : exec i s = .next (s.mbxCommand who f))
      (hStamp : s.mayStamp who = true) (hDone : s.flag (Fld.MBX_CMD_RES_DONE own) = true) (hFirst : s.took (Reg.MBX_CMD own) = false)
      (hBody : f (s.taken (Reg.MBX_CMD own)) = u.mbxResult who r) (hr : r < 65536)
      (hPost : (u.mbxResult who r).channels = u.channels → (u.mbxResult who r).leases = u.leases → post (u.mbxResult who r)) :
      ends i r post := by
    obtain ⟨hResult, hBit, hChannels, hLeases⟩ := mbxResult_spec u who hr
    exact ⟨_, hi.trans (congrArg Host.Outcome.next ((mbxCommand_runs hStamp hDone hFirst f).trans hBody)), hResult, hBit,
      hPost hChannels hLeases⟩
  have hSend := exec_send_local hServes hc
  have hAck := exec_ack hServes hc code
  refine ⟨fun hStamp hLost i hi => ?_, fun hStamp hDone hFirst => ⟨fun hFree => ?_, fun hHeld hNone => ?_, fun hOwn => ?_, fun hNot => ?_,
      fun hNotSup => ?_, fun hSup hHeld => ?_, fun hSup hFree => ?_⟩, fun hNot => ?_,
    fun hStamp => ⟨fun hLong => ?_, fun hLen hLost => ?_, fun hLen hDone hFirst hFlow => ⟨fun hOk => ?_, fun hNotOk hNone => ?_⟩⟩,
    fun hEnded => ⟨fun hHolder hCode rest hQueue hChip hIsland => ?_, fun hNot => ?_⟩, ?_⟩
  · have hLostOf {f : State → State} (hi : exec i s = .next (s.mbxCommand who f)) :
        ∃ t, exec i s = .next t ∧ t.flag (Fld.MBX_CMD_RES_LOST own) = true ∧ same t :=
      ⟨_, hi.trans (congrArg Host.Outcome.next (mbxCommand_lost hStamp hLost f)), flag_setFlag_on _ _ rfl rfl, rfl⟩
    rcases List.mem_cons.mp hi with rfl | hi
    · exact hLostOf (exec_mbxOpen hServes hc depth b any target)
    rcases List.mem_cons.mp hi with rfl | hi
    · exact hLostOf (exec_close hServes hc)
    rcases List.mem_cons.mp hi with rfl | hi
    · exact hLostOf (exec_revoke hServes hc)
    · cases hi
  · obtain ⟨hChannel, hLease⟩ := takeChannel_spec (s.taken (Reg.MBX_CMD own)) who c (depth % 4 + 1) (b % 32) any target
    refine hEnds (exec_mbxOpen hServes hc depth b any target) hStamp hDone hFirst (openChannel_free (s := s.taken (Reg.MBX_CMD own)) hFree ..)
      (by decide) ?_
    intro hChannels hLeases
    exact ⟨(channel_congr hChannels c).trans hChannel, (leaseOf_congr hLeases 6 0 c).trans hLease⟩
  · exact hEnds (exec_mbxOpen hServes hc depth b any target) hStamp hDone hFirst
      (openChannel_busy (s := s.taken (Reg.MBX_CMD own)) hHeld hNone ..) (by decide) fun hChannels _ => hChannels
  · obtain ⟨hChannel, hLease⟩ := freeChannel_spec (s.taken (Reg.MBX_CMD own)) c
    refine hEnds (exec_close hServes hc) hStamp hDone hFirst (if_pos hOwn) (by decide) fun hChannels hLeases => ?_
    exact ⟨(channel_congr hChannels c).trans hChannel, (leaseOf_congr hLeases 6 0 c).trans hLease⟩
  · exact hEnds (exec_close hServes hc) hStamp hDone hFirst (if_neg hNot) (by decide) fun hChannels _ => hChannels
  · exact hEnds (exec_revoke hServes hc) hStamp hDone hFirst (if_pos (by rw [hNotSup]; rfl)) (by decide) fun hChannels _ => hChannels
  · obtain ⟨hChannel, _⟩ := freeChannel_spec (s.taken (Reg.MBX_CMD own)) c
    have hSome : ((s.taken (Reg.MBX_CMD own)).channel c).holder.isNone = false := by
      obtain ⟨w, hw⟩ := Option.isSome_iff_exists.mp hHeld
      show (s.channel c).holder.isNone = false
      rw [show (s.channel c).holder = some w from hw]
      rfl
    refine hEnds (exec_revoke hServes hc) hStamp hDone hFirst (u := (s.taken (Reg.MBX_CMD own)).freeChannel c) ?_ (by decide)
      fun hChannels _ => (channel_congr hChannels c).trans hChannel
    change _ = State.mbxResult _ who Code.ok
    rw [revokeBody, hSup, if_neg (by decide), hSome, if_neg Bool.false_ne_true]
  · refine hEnds (exec_revoke hServes hc) hStamp hDone hFirst (u := s.taken (Reg.MBX_CMD own)) ?_ (by decide) fun hChannels _ => hChannels
    have hNone : ((s.taken (Reg.MBX_CMD own)).channel c).holder.isNone = true := by
      show (s.channel c).holder.isNone = true
      rw [show (s.channel c).holder = none from hFree]
      rfl
    change _ = State.mbxResult _ who Code.wrongState
    rw [revokeBody, hSup, if_neg (by decide), hNone, if_pos rfl]
  · rw [hSend, hNot]
    rfl
  · rw [hSend, if_pos hStamp, send_long hLong]
    exact ⟨_, rfl, hErr⟩
  · rw [hSend, if_pos hStamp, send_lost hLen hLost]
    exact ⟨_, rfl, rfl, flag_setFlag_on _ _ rfl rfl⟩
  · obtain ⟨u, hArrive, hQueue⟩ := arrive_ok (s := s.taken (Reg.MBX_SEND own)) (slot := 0) (bs := s.sdata own len) hOk
    rw [hSend, if_pos hStamp, send_runs hLen hDone hFirst hFlow, hArrive]
    obtain ⟨hResult, hBit, hChannels⟩ := showSend_spec u who (code := Code.pending) false (by decide)
    exact ⟨_, rfl, (congrArg Channel.queue (channel_congr hChannels c)).trans hQueue, hResult, hBit⟩
  · have hRefused := arrive_refused (s := s.taken (Reg.MBX_SEND own)) (slot := 0) (bs := s.sdata own len) hNotOk hNone
    obtain ⟨hLt, hNe⟩ := sendCode_lt (s.taken (Reg.MBX_SEND own)) who c
    rw [hSend, if_pos hStamp, send_runs hLen hDone hFirst hFlow, hRefused]
    obtain ⟨hResult, hBit, hChannels⟩ := showSend_spec ((s.taken (Reg.MBX_SEND own)).countCode who ((s.taken (Reg.MBX_SEND own)).sendCode who c))
      who false hLt
    refine ⟨_, rfl, hChannels.trans ?_, hResult, hBit.trans ?_⟩
    · have hKeeps : Keeps [.now, .regs] (s.taken (Reg.MBX_SEND own))
        ((s.taken (Reg.MBX_SEND own)).countCode who ((s.taken (Reg.MBX_SEND own)).sendCode who c)) := .countCode .refl rfl
      exact hKeeps.frame .channels rfl
    · rw [bne_iff_ne.mpr hNe]
      rfl
  · have hNotPending : code.toNat ≠ Code.pending := fun h => hCode (BitVec.eq_of_toNat_eq h)
    obtain ⟨hResult, hBit⟩ := finishSend_local (s := s.setChannel c { s.channel c with queue := rest }) (slot := m.slot) (dup := false)
      hChip hIsland code.isLt
    obtain ⟨hChannels, _⟩ := finishSend_keeps (s.setChannel c { s.channel c with queue := rest }) m.src m.slot code.toNat false
    rw [hAck, ackChannel_front hEnded hHolder hNotPending hQueue]
    refine ⟨_, rfl, ?_, hResult, hBit⟩
    rw [channel_congr hChannels, channel_setChannel]
  · rw [hAck, ackChannel_refused hEnded (hNot.imp_right (Or.imp_right fun h => by rw [h]; rfl))]
    exact ⟨_, rfl, hErr⟩
  · refine ⟨fun hNotSup => ?_, fun hSup hk hOpen => ?_, fun hAsks hPresent hChip hLow => ?_, fun hAbsent => ?_, ?_, fun hSup => ?_, fun hHost => ?_,
      ⟨fun hOwner => ⟨fun hFits => ?_, fun hFits => ?_⟩, fun hOther => ⟨?_, ?_⟩⟩, fun hZero => ?_, fun hNfn => ?_⟩
    · rw [exec_mbxAbort hServes, hNotSup]
      exact ⟨_, rfl, hErr⟩
    · have hKeeps : Keeps [.now, .channels] s (s.dropMessages (s.ident (blockSrc k))) := .dropMessages .refl rfl
      obtain ⟨hChip, hIsland, hBlock⟩ := blockSrc_spec s hk
      have hDropped := dropMessages_none s (s.ident (blockSrc k)) hc
      have hChip' : Ident.chip (s.ident (blockSrc k)) = (s.dropMessages (s.ident (blockSrc k))).chip := by
        rw [hChip, State.chip, State.chip]
        exact (fld_congr (hKeeps.frame .regs rfl) hKeeps.variant Fld.AVE_ID_CHIP).symm
      rw [exec_mbxAbort hServes, hSup, if_neg (by decide), decide_eq_true hk, if_neg (by decide), if_pos hOpen]
      generalize s.dropMessages (s.ident (blockSrc k)) = u at hDropped hChip'
      obtain ⟨hResult, hBit⟩ := finishSend_local (slot := 0) (dup := false) (code := Code.revoked) hChip' hIsland (by decide)
      obtain ⟨hChannels, _⟩ := finishSend_keeps u (s.ident (blockSrc k)) 0 Code.revoked false
      rw [hBlock] at hResult hBit
      refine ⟨_, rfl, hResult, hBit, ?_⟩
      rw [channel_congr hChannels]
      exact hDropped
    · have hWho : (Ident.isHost who || Ident.isSup who) = true := by
        simp only [asks, Bool.and_eq_true] at hAsks
        exact hAsks.2
      rw [exec_mbxRing hServes, hWho, hPresent]
      exact ⟨_, rfl, (congrArg (fun t : State => t.reg (Reg.MBX_DB (Ident.src target))) (if_pos hChip)).trans (reg_ringLocal_host s hLow)⟩
    · rw [exec_mbxRing hServes, hAbsent, Bool.and_false]
      exact ⟨_, rfl, hErr⟩
    · have hLow := mbxBlock_le who
      rw [exec_mbxDbmask hServes]
      refine ⟨_, rfl, ?_⟩
      rw [reg_bellChange _ _ _ (mask_ne_irqReg own) (ne_mergeRegister (.inl (by unfold Reg.MBX_DBMASK; omega))), reg_setReg_same]
    · rw [exec_mbxSupNote hServes, if_pos hSup]
      refine ⟨_, rfl, ?_, raiseIrq_pends _ (by decide)⟩
      rw [reg_raiseIrq_ne _ 4 (by decide), reg_setReg_same]
    · have hSrc : Ident.src who < 8 := of_decide_eq_true hHost
      have hNotSup : Ident.isSup who = false := beq_eq_false_iff_ne.mpr (by omega)
      have hNotEngine : Ident.isEngine who = false := decide_eq_false (by omega)
      rw [exec_mbxSupNote hServes, hNotSup, if_neg Bool.false_ne_true, hNotEngine, if_neg Bool.false_ne_true]
      exact ⟨_, rfl, hErr, reg_setFlag_ne _ _ (by decide)⟩
    · rw [exec_mbxHrxHead hServes, hOwner, decide_eq_true hFits]
      exact ⟨_, rfl, (fld_setFld_on (f := Fld.MBX_HRX_HEAD_HEAD) s _ rfl).trans (Nat.mod_eq_of_lt (fieldGet_lt v 0 11))⟩
    · rw [exec_mbxHtxTail hServes, hOwner, decide_eq_true hFits]
      exact ⟨_, rfl, (fld_setFld_on (f := Fld.MBX_HTX_TAIL_TAIL) s _ rfl).trans (Nat.mod_eq_of_lt (fieldGet_lt v 0 11))⟩
    · rw [exec_mbxHrxHead hServes, hOther, Bool.false_and]
      exact ⟨_, rfl, hErr, fld_setFlag_off _ _ rfl⟩
    · rw [exec_mbxHtxTail hServes, hOther, Bool.false_and]
      exact ⟨_, rfl, hErr, fld_setFlag_off _ _ rfl⟩
    · rw [exec_mbxHostCfg hServes, if_pos hZero]
      exact ⟨_, rfl, hErr, reg_setFlag_ne _ _ (by decide)⟩
    · rw [exec_mbxHostCfg hServes, if_neg hNfn]
      exact ⟨_, rfl, hostCfg_spec s who v⟩

end

section
/-!
PROOF. O51: the process image. A version in its line, results of commands, the age limit, and the end of a COMMIT.
-/

namespace Sys2Proof.Machine

/-! ### A version in its line -/

/-- What a version written into a line makes of it, with or without a transaction. -/
theorem Point.written_spec (x : Point) (v : Ver) (txn : Option Nat) (e : Nat) :
    (x.written v txn e).cur = .version v ∧ (x.written v txn e).prev = x.cur ∧ (x.written v txn e).last = e ∧
      (x.written v txn e).lost = false := by
  generalize hOld : x.cur = old
  unfold Point.written
  dsimp only
  rw [hOld]
  generalize x.settled = y
  cases txn with
  | none => split <;> simp [Point.cur, Point.prev, Point.inSlot0, Point.inSlot1]
  | some t =>
    split
    · next h => simp [Point.cur, Point.prev, Point.inSlot0, Point.inSlot1]
    · simp [Point.cur, Point.prev, Point.inSlot0, Point.inSlot1]

/-- Settling keeps the current version. -/
theorem Point.cur_settled (x : Point) : x.settled.cur = x.cur := by
  unfold Point.settled
  cases h0 : x.slot0.txn with
  | some t =>
    rw [if_pos (by rfl)]
    simp [Point.cur, Point.inSlot0, h0]
  | none =>
    rw [if_neg (by simp)]
    cases h1 : x.slot1.txn with
    | some t =>
      rw [if_pos (by rfl)]
      simp [Point.cur, Point.inSlot0, Point.inSlot1, h0, h1]
    | none => rw [if_neg (by simp)]

namespace State

variable {s t u : State} {who : Ident} {p k n : Nat}

/-! ### Registers of a block -/

theorem imgBlock_le (who : Ident) : imgBlock who ≤ 111 := by
  unfold imgBlock Ident.isHost Ident.isEngine Ident.engine
  split
  · next h =>
    have hSrc : Ident.src who < 8 := of_decide_eq_true h
    omega
  · split
    · next h =>
      have hSrc := of_decide_eq_true h
      omega
    · omega

/-- RES of a block is no other unit's register, and none of the controller's own. -/
theorem imgRes_apart {b : Nat} (hb : b ≤ 111) : Reg.IMG_RES b ≠ Reg.SYS_WRONG_STATE_CNT ∧ (∀ e, Reg.IMG_RES b ≠ Reg.CE_EVT_OVR e) ∧
    0x701000 ≤ Reg.IMG_RES b := by
  refine ⟨?_, fun e => ne_mergeRegister ?_ e, ?_⟩
  · unfold Reg.IMG_RES imgBlk Reg.SYS_WRONG_STATE_CNT
    split <;> omega
  · unfold Reg.IMG_RES imgBlk
    split <;> omega
  · unfold Reg.IMG_RES imgBlk
    split <;> omega

/-- A register of the controller below its blocks. -/
def imgOwn (a : Nat) : Prop := 0x700000 ≤ a ∧ a < 0x700380

theorem imgOwn_apart {a : Nat} (h : imgOwn a) (b : Nat) : a ≠ Reg.IMG_RES b ∧ a ≠ Reg.SYS_WRONG_STATE_CNT ∧ (∀ e, a ≠ Reg.CE_EVT_OVR e) := by
  obtain ⟨hlo, hhi⟩ := h
  refine ⟨?_, ?_, fun e => ne_mergeRegister (.inl (by omega)) e⟩
  · unfold Reg.IMG_RES imgBlk
    split <;> omega
  · unfold Reg.SYS_WRONG_STATE_CNT
    omega

/-! ### Results -/

theorem reg_imgDone_ne (s : State) (who : Ident) (code : Nat) {a : Nat} (hRes : a ≠ Reg.IMG_RES (imgBlock who))
    (hCnt : a ≠ Reg.SYS_WRONG_STATE_CNT) (hMerge : ∀ e, a ≠ Reg.CE_EVT_OVR e) : (s.imgDone who code).reg a = s.reg a := by
  have hShown : (((s.setFld (Fld.IMG_RES_RESULT (imgBlock who)) code).setFlag (Fld.IMG_RES_DONE (imgBlock who)) true).countCode who code).reg a =
      s.reg a := by
    rw [reg_countCode_ne _ _ _ hCnt, reg_setFlag_ne _ _ hRes, reg_setFld_ne _ _ hRes]
  unfold imgDone
  dsimp only
  generalize ((s.setFld (Fld.IMG_RES_RESULT (imgBlock who)) code).setFlag (Fld.IMG_RES_DONE (imgBlock who)) true).countCode who code = u at hShown
  split
  · exact (reg_fireIn u 0x1A 0 _ hMerge).trans hShown
  · exact hShown

theorem img_imgDone (s : State) (who : Ident) (code : Nat) : (s.imgDone who code).img = s.img := by
  have hKeeps : Keeps [.now, .regs, .engines] s (s.imgDone who code) := .imgDone .refl rfl
  exact hKeeps.frame .img rfl

/-- The final result of a command, beside the number it shows. -/
theorem imgDone_res (s : State) (who : Ident) {code : Nat} (hCode : code < 65536) :
    (s.imgDone who code).fld (Fld.IMG_RES_RESULT (imgBlock who)) = code ∧ (s.imgDone who code).flag (Fld.IMG_RES_DONE (imgBlock who)) = true ∧
      (s.imgDone who code).fld (Fld.IMG_RES_SLOT (imgBlock who)) = s.fld (Fld.IMG_RES_SLOT (imgBlock who)) ∧
      (s.imgDone who code).fld (Fld.IMG_RES_PIN (imgBlock who)) = s.fld (Fld.IMG_RES_PIN (imgBlock who)) := by
  obtain ⟨hCnt, hMerge, _⟩ := imgRes_apart (imgBlock_le who)
  have hShown : (s.imgDone who code).reg (Reg.IMG_RES (imgBlock who)) =
      ((s.setFld (Fld.IMG_RES_RESULT (imgBlock who)) code).setFlag (Fld.IMG_RES_DONE (imgBlock who)) true).reg (Reg.IMG_RES (imgBlock who)) := by
    have hCounted := reg_countCode_ne ((s.setFld (Fld.IMG_RES_RESULT (imgBlock who)) code).setFlag (Fld.IMG_RES_DONE (imgBlock who)) true) who
      code hCnt
    unfold imgDone
    dsimp only
    generalize ((s.setFld (Fld.IMG_RES_RESULT (imgBlock who)) code).setFlag (Fld.IMG_RES_DONE (imgBlock who)) true).countCode who code = u
      at hCounted
    split
    · exact (reg_fireIn u 0x1A 0 _ hMerge).trans hCounted
    · exact hCounted
  refine ⟨(fld_of_reg hShown).trans ?_, (flag_of_reg hShown).trans ?_, (fld_of_reg hShown).trans ?_, (fld_of_reg hShown).trans ?_⟩
  · exact (fld_setFlag_off _ _ rfl).trans ((fld_setFld_on _ _ rfl).trans (Nat.mod_eq_of_lt hCode))
  · exact flag_setFlag_on _ _ rfl rfl
  · exact (fld_setFlag_off _ _ rfl).trans (fld_setFld_off _ _ rfl)
  · exact (fld_setFlag_off _ _ rfl).trans (fld_setFld_off _ _ rfl)

/-! ### The age limit -/

/-- Registers that the end of slots and pins by age may change. -/
def agedReg (a : Nat) : Prop := (0x700100 ≤ a ∧ a < 0x700380) ∨ a = Reg.IMG_STAT ∨ ∃ b, b ≤ 111 ∧ a = Reg.IMG_TXN_SEL b

/-- What the age limit leaves: the versions, the queue of commands, and slots and pins that are not old. -/
structure Aged (s t : State) : Prop where
  points : t.img.points = s.img.points
  epoch : t.img.epoch = s.img.epoch
  queue : t.img.cmds = s.img.cmds ∧ t.img.waiting = s.img.waiting ∧ t.img.run = s.img.run
  reg : ∀ a, ¬agedReg a → t.reg a = s.reg a
  slot : ∀ n, n < 64 → s.imgSlot n ≠ 1 ∨ s.img.epoch < (s.imgTxn n).begin + 2 ^ 30 →
    t.reg (Reg.IMG_SLOT n) = s.reg (Reg.IMG_SLOT n) ∧ t.imgTxn n = s.imgTxn n
  pin : ∀ k, k < 8 → s.img.epoch < s.pinEpoch k + 2 ^ 30 → t.reg (Reg.IMG_PIN_FIRST k) = s.reg (Reg.IMG_PIN_FIRST k) ∧
    t.reg (Reg.IMG_PIN_HOLDER k) = s.reg (Reg.IMG_PIN_HOLDER k) ∧ t.pinEpoch k = s.pinEpoch k

theorem Aged.refl (s : State) : Aged s s := ⟨rfl, rfl, ⟨rfl, rfl, rfl⟩, fun _ _ => rfl, fun _ _ _ => ⟨rfl, rfl⟩, fun _ _ _ => ⟨rfl, rfl, rfl⟩⟩

theorem Aged.trans (h : Aged s t) (g : Aged t u) : Aged s u where
  points := g.points.trans h.points
  epoch := g.epoch.trans h.epoch
  queue := ⟨g.queue.1.trans h.queue.1, g.queue.2.1.trans h.queue.2.1, g.queue.2.2.trans h.queue.2.2⟩
  reg a ha := (g.reg a ha).trans (h.reg a ha)
  slot n hn hSafe := by
    obtain ⟨hReg, hTxn⟩ := h.slot n hn hSafe
    have hState : t.imgSlot n = s.imgSlot n := fld_of_reg hReg
    obtain ⟨hReg', hTxn'⟩ := g.slot n hn (by rw [hState, hTxn, h.epoch]; exact hSafe)
    exact ⟨hReg'.trans hReg, hTxn'.trans hTxn⟩
  pin k hk hSafe := by
    obtain ⟨hFirst, hHolder, hEpoch⟩ := h.pin k hk hSafe
    obtain ⟨hFirst', hHolder', hEpoch'⟩ := g.pin k hk (by rw [hEpoch, h.epoch]; exact hSafe)
    exact ⟨hFirst'.trans hFirst, hHolder'.trans hHolder, hEpoch'.trans hEpoch⟩

theorem Aged.of_reg (hImg : t.img = s.img) {b : Nat} (hReg : ∀ a, a ≠ b → t.reg a = s.reg a) (hb : agedReg b)
    (hSlot : ∀ n, n < 64 → Reg.IMG_SLOT n ≠ b) (hPin : ∀ k, k < 8 → Reg.IMG_PIN_FIRST k ≠ b ∧ Reg.IMG_PIN_HOLDER k ≠ b) : Aged s t where
  points := by rw [hImg]
  epoch := by rw [hImg]
  queue := by rw [hImg]; exact ⟨rfl, rfl, rfl⟩
  reg a ha := hReg a fun h => ha (h ▸ hb)
  slot n hn _ := ⟨hReg _ (hSlot n hn), by rw [imgTxn, hImg, imgTxn]⟩
  pin k hk _ := ⟨hReg _ (hPin k hk).1, hReg _ (hPin k hk).2, by rw [pinEpoch, hImg, pinEpoch]⟩

theorem Aged.showImg (s : State) : Aged s s.showImg := by
  refine .of_reg (b := Reg.IMG_STAT) rfl (fun a ha => reg_showImg s ha) (.inr (.inl rfl)) (fun n _ => ?_) fun k _ => ⟨?_, ?_⟩
  · unfold Reg.IMG_SLOT Reg.IMG_STAT
    omega
  · unfold Reg.IMG_PIN_FIRST Reg.IMG_STAT
    omega
  · unfold Reg.IMG_PIN_HOLDER Reg.IMG_STAT
    omega

theorem Aged.unselect (s : State) (who : Ident) (n : Nat) : Aged s (s.unselect who n) := by
  unfold State.unselect
  dsimp only
  split
  · refine .of_reg (b := Reg.IMG_TXN_SEL (imgBlock who)) (setFlag_img ..) (fun a ha => reg_setFlag_ne _ _ ha)
      (.inr (.inr ⟨_, imgBlock_le who, rfl⟩)) (fun n hn => ?_) fun k hk => ⟨?_, ?_⟩
    · unfold Reg.IMG_SLOT Reg.IMG_TXN_SEL imgBlk
      split <;> omega
    · unfold Reg.IMG_PIN_FIRST Reg.IMG_TXN_SEL imgBlk
      split <;> omega
    · unfold Reg.IMG_PIN_HOLDER Reg.IMG_TXN_SEL imgBlk
      split <;> omega
  · exact .refl s

/-- A slot that is not looked at, freed. -/
structure Freed (s t : State) (n : Nat) : Prop where
  points : t.img.points = s.img.points
  epoch : t.img.epoch = s.img.epoch
  queue : t.img.cmds = s.img.cmds ∧ t.img.waiting = s.img.waiting ∧ t.img.run = s.img.run
  reg : ∀ a, a ≠ Reg.IMG_SLOT n → t.reg a = s.reg a
  free : t.reg (Reg.IMG_SLOT n) = 0 ∧ t.imgTxn n = {}
  txn : ∀ j, j ≠ n → t.imgTxn j = s.imgTxn j
  pin : ∀ k, t.pinEpoch k = s.pinEpoch k

theorem imgTxn_setImgTxn_ne (s : State) (x : ImgTxn) {j : Nat} (h : j ≠ n) : (s.setImgTxn n x).imgTxn j = s.imgTxn j :=
  Store.get_set_ne _ _ h

theorem freeSlot_freed (s : State) (n : Nat) : Freed s (s.freeSlot n) n where
  points := rfl
  epoch := rfl
  queue := ⟨rfl, rfl, rfl⟩
  reg a ha := reg_setReg_ne (s.setImgTxn n {}) _ ha
  free := ⟨reg_setReg_same (s.setImgTxn n {}) _ _, Store.get_set_same s.img.txns n {}⟩
  txn j hj := imgTxn_setImgTxn_ne s {} hj
  pin _ := rfl

/-- A slot rolled back is FREE with an empty journal. -/
theorem rollbackSlot_freed (s : State) (hn : n < 64) : (s.rollbackSlot n).img.points = s.img.points ∧
    (s.rollbackSlot n).img.epoch = s.img.epoch ∧
    ((s.rollbackSlot n).img.cmds = s.img.cmds ∧ (s.rollbackSlot n).img.waiting = s.img.waiting ∧ (s.rollbackSlot n).img.run = s.img.run) ∧
    (∀ a, ¬agedReg a → (s.rollbackSlot n).reg a = s.reg a) ∧
    ((s.rollbackSlot n).reg (Reg.IMG_SLOT n) = 0 ∧ (s.rollbackSlot n).imgTxn n = {}) ∧
    (∀ j, j < 64 → j ≠ n → (s.rollbackSlot n).reg (Reg.IMG_SLOT j) = s.reg (Reg.IMG_SLOT j) ∧ (s.rollbackSlot n).imgTxn j = s.imgTxn j) ∧
    (∀ k, k < 8 → (s.rollbackSlot n).reg (Reg.IMG_PIN_FIRST k) = s.reg (Reg.IMG_PIN_FIRST k) ∧
      (s.rollbackSlot n).reg (Reg.IMG_PIN_HOLDER k) = s.reg (Reg.IMG_PIN_HOLDER k) ∧ (s.rollbackSlot n).pinEpoch k = s.pinEpoch k) := by
  have hFreed := freeSlot_freed s n
  unfold rollbackSlot
  dsimp only
  generalize s.freeSlot n = f at hFreed
  have hRest := (Aged.unselect f (s.imgHolder n) n).trans (.showImg _)
  have hImg : ((f.unselect (s.imgHolder n) n).showImg).img = f.img := by
    have hUnselected : (f.unselect (s.imgHolder n) n).img = f.img := by
      unfold State.unselect
      dsimp only
      split
      · exact setFlag_img ..
      · rfl
    exact hUnselected
  have hTxn (j : Nat) : ((f.unselect (s.imgHolder n) n).showImg).imgTxn j = f.imgTxn j := by rw [imgTxn, hImg, imgTxn]
  have hKept : ∀ a, (∀ b, b ≤ 111 → a ≠ Reg.IMG_TXN_SEL b) → a ≠ Reg.IMG_STAT → ((f.unselect (s.imgHolder n) n).showImg).reg a = f.reg a := by
    intro a hSel hStat
    refine (reg_showImg _ hStat).trans ?_
    unfold State.unselect
    dsimp only
    split
    · exact reg_setFlag_ne _ _ (hSel _ (imgBlock_le _))
    · rfl
  generalize (f.unselect (s.imgHolder n) n).showImg = g at hRest hImg hTxn hKept
  have hLow {a : Nat} (h : imgOwn a) (hStat : a ≠ Reg.IMG_STAT) : g.reg a = f.reg a := by
    refine hKept a (fun b hb => ?_) hStat
    have hlt := h.2
    unfold Reg.IMG_TXN_SEL imgBlk
    split <;> omega
  have hSlotReg {j : Nat} (hj : j < 64) : g.reg (Reg.IMG_SLOT j) = f.reg (Reg.IMG_SLOT j) :=
    hLow (by unfold imgOwn Reg.IMG_SLOT; omega) (by unfold Reg.IMG_SLOT Reg.IMG_STAT; omega)
  refine ⟨by rw [hImg, hFreed.points], by rw [hImg, hFreed.epoch], by rw [hImg]; exact hFreed.queue, fun a ha => ?_, ⟨?_, ?_⟩, fun j hj hne => ⟨?_, ?_⟩,
    fun k hk => ⟨?_, ?_, ?_⟩⟩
  · refine (hRest.reg a ha).trans (hFreed.reg a fun h => ha (.inl ?_))
    rw [h]
    unfold Reg.IMG_SLOT
    omega
  · exact (hSlotReg hn).trans hFreed.free.1
  · exact (hTxn n).trans hFreed.free.2
  · refine (hSlotReg hj).trans (hFreed.reg _ fun h => hne ?_)
    unfold Reg.IMG_SLOT at h
    omega
  · exact (hTxn j).trans (hFreed.txn j hne)
  · refine (hLow (by unfold imgOwn Reg.IMG_PIN_FIRST; omega) (by unfold Reg.IMG_PIN_FIRST Reg.IMG_STAT; omega)).trans (hFreed.reg _ ?_)
    unfold Reg.IMG_PIN_FIRST Reg.IMG_SLOT
    omega
  · refine (hLow (by unfold imgOwn Reg.IMG_PIN_HOLDER; omega) (by unfold Reg.IMG_PIN_HOLDER Reg.IMG_STAT; omega)).trans (hFreed.reg _ ?_)
    unfold Reg.IMG_PIN_HOLDER Reg.IMG_SLOT
    omega
  · rw [pinEpoch, hImg]
    exact hFreed.pin k

/-- One slot by age. -/
def ageSlot (s : State) (n : Nat) : State :=
  if s.imgSlot n == 1 && decide ((s.imgTxn n).begin + 2 ^ 30 ≤ s.img.epoch) then
    (s.markAged n (some (s.imgHolder n))).rollbackSlot n
  else s

/-- One pin by age. -/
def agePin (s : State) (k : Nat) : State :=
  if s.pinHeld k && decide (s.pinEpoch k + 2 ^ 30 ≤ s.img.epoch) then
    (s.markAged (64 + k) (some (s.pinHolder k))).releasePin k
  else s

theorem Aged.ageSlot (s : State) (hn : n < 64) : Aged s (s.ageSlot n) := by
  unfold State.ageSlot
  split
  · next h =>
    rw [Bool.and_eq_true, beq_iff_eq, decide_eq_true_eq] at h
    obtain ⟨hPoints, hEpoch, hQueue, hReg, _, hSlot, hPin⟩ := rollbackSlot_freed (s.markAged n (some (s.imgHolder n))) hn
    refine ⟨hPoints, hEpoch, hQueue, hReg, fun j hj hSafe => hSlot j hj fun hne => ?_, fun k hk _ => hPin k hk⟩
    subst hne
    rcases hSafe with hSafe | hSafe
    · exact hSafe h.1
    · exact absurd h.2 (Nat.not_le.mpr hSafe)
  · exact .refl s

/-- A pin's release, in the controller's state and its registers. -/
theorem releasePin_img (s : State) (k : Nat) : (s.releasePin k).img.points = s.img.points ∧ (s.releasePin k).img.epoch = s.img.epoch ∧
    ((s.releasePin k).img.cmds = s.img.cmds ∧ (s.releasePin k).img.waiting = s.img.waiting ∧ (s.releasePin k).img.run = s.img.run) ∧
    (s.releasePin k).img.txns = s.img.txns ∧ (s.releasePin k).img.pins = Store.erase s.img.pins k :=
  ⟨rfl, rfl, ⟨rfl, rfl, rfl⟩, rfl, rfl⟩

theorem reg_releasePin_ne (s : State) (k : Nat) {a : Nat} (hFirst : a ≠ Reg.IMG_PIN_FIRST k) (hCount : a ≠ Reg.IMG_PIN_COUNT k)
    (hEpoch : a ≠ Reg.IMG_PIN_EPOCH k) (hHolder : a ≠ Reg.IMG_PIN_HOLDER k) : (s.releasePin k).reg a = s.reg a := by
  unfold releasePin
  dsimp only
  rw [reg_setReg_ne _ _ hHolder, reg_setReg_ne _ _ hEpoch, reg_setReg_ne _ _ hCount, reg_setReg_ne _ _ hFirst]
  rfl

theorem Aged.releasePin (s : State) (hk : k < 8) (hOld : s.pinEpoch k + 2 ^ 30 ≤ s.img.epoch) : Aged s (s.releasePin k) := by
  obtain ⟨hPoints, hEpoch, hQueue, hTxns, hPins⟩ := releasePin_img s k
  have hReg (a : Nat) (ha : a ≠ Reg.IMG_PIN_FIRST k ∧ a ≠ Reg.IMG_PIN_COUNT k ∧ a ≠ Reg.IMG_PIN_EPOCH k ∧ a ≠ Reg.IMG_PIN_HOLDER k) :
      (s.releasePin k).reg a = s.reg a := reg_releasePin_ne s k ha.1 ha.2.1 ha.2.2.1 ha.2.2.2
  generalize s.releasePin k = t at hPoints hEpoch hQueue hTxns hPins hReg
  refine ⟨hPoints, hEpoch, hQueue, fun a ha => hReg a ?_, fun j hj _ => ⟨hReg _ ?_, by rw [imgTxn, hTxns, imgTxn]⟩, fun j hj hSafe => ?_⟩
  · refine ⟨fun h => ha (.inl ?_), fun h => ha (.inl ?_), fun h => ha (.inl ?_), fun h => ha (.inl ?_)⟩
    · rw [h]; unfold Reg.IMG_PIN_FIRST; omega
    · rw [h]; unfold Reg.IMG_PIN_COUNT; omega
    · rw [h]; unfold Reg.IMG_PIN_EPOCH; omega
    · rw [h]; unfold Reg.IMG_PIN_HOLDER; omega
  · unfold Reg.IMG_SLOT Reg.IMG_PIN_FIRST Reg.IMG_PIN_COUNT Reg.IMG_PIN_EPOCH Reg.IMG_PIN_HOLDER
    omega
  · have hne : j ≠ k := fun hEq => absurd (hEq ▸ hOld) (Nat.not_le.mpr hSafe)
    refine ⟨hReg _ ?_, hReg _ ?_, ?_⟩
    · unfold Reg.IMG_PIN_FIRST Reg.IMG_PIN_COUNT Reg.IMG_PIN_EPOCH Reg.IMG_PIN_HOLDER
      omega
    · unfold Reg.IMG_PIN_FIRST Reg.IMG_PIN_COUNT Reg.IMG_PIN_EPOCH Reg.IMG_PIN_HOLDER
      omega
    · rw [pinEpoch, hPins, pinEpoch]
      exact Store.get_erase_ne _ hne

theorem Aged.agePin (s : State) (hk : k < 8) : Aged s (s.agePin k) := by
  unfold State.agePin
  split
  · next h =>
    rw [Bool.and_eq_true, decide_eq_true_eq] at h
    have hMarked : Aged s (s.markAged (64 + k) (some (s.pinHolder k))) :=
      ⟨rfl, rfl, ⟨rfl, rfl, rfl⟩, fun _ _ => rfl, fun _ _ _ => ⟨rfl, rfl⟩, fun _ _ _ => ⟨rfl, rfl, rfl⟩⟩
    exact hMarked.trans (.releasePin (s.markAged (64 + k) (some (s.pinHolder k))) hk h.2)
  · exact .refl s

/-- The age limit, slot by slot and pin by pin. -/
theorem Aged.ageOut (s : State) : Aged s s.ageOut := by
  have hPins (l : List Nat) (hl : ∀ k ∈ l, k < 8) (u : State) : Aged u (l.foldl (fun s k => s.agePin k) u) := by
    induction l generalizing u with
    | nil => exact .refl u
    | cons k l ih => exact (Aged.agePin u (hl k List.mem_cons_self)).trans (ih (fun j hj => hl j (List.mem_cons_of_mem _ hj)) _)
  have hSlots (l : List Nat) (hl : ∀ n ∈ l, n < 64) (u : State) : Aged u (l.foldl (fun s n => s.ageSlot n) u) := by
    induction l generalizing u with
    | nil => exact .refl u
    | cons n l ih => exact (Aged.ageSlot u (hl n List.mem_cons_self)).trans (ih (fun j hj => hl j (List.mem_cons_of_mem _ hj)) _)
  have hAll := (hPins (List.range 8) (fun k hk => List.mem_range.mp hk) s).trans
    (hSlots (List.range 64) (fun n hn => List.mem_range.mp hn) _)
  exact hAll.trans (.showImg _)

end State
end Sys2Proof.Machine

end

section
/-!
PROOF. O51: the commands of an identity on a controller in which nothing waits, and the processing of a COMMIT.
-/

namespace Sys2Proof.Machine.State

variable {s t u : State} {who : Ident} {p k n : Nat}

theorem point_of_points (h : t.img.points = s.img.points) (q : Nat) : t.point q = s.point q := by rw [point, h, point]

theorem imgSlot_of_reg (h : t.reg (Reg.IMG_SLOT n) = s.reg (Reg.IMG_SLOT n)) : t.imgSlot n = s.imgSlot n := fld_of_reg h

theorem imgHolder_of_reg (h : t.reg (Reg.IMG_SLOT n) = s.reg (Reg.IMG_SLOT n)) : t.imgHolder n = s.imgHolder n := by
  rw [imgHolder, fld_of_reg (f := Fld.IMG_SLOT_HOLDER n) h, imgHolder]

theorem pinHeld_of_reg (h : t.reg (Reg.IMG_PIN_FIRST k) = s.reg (Reg.IMG_PIN_FIRST k)) : t.pinHeld k = s.pinHeld k := flag_of_reg h

theorem pinHolder_of_reg (h : t.reg (Reg.IMG_PIN_HOLDER k) = s.reg (Reg.IMG_PIN_HOLDER k)) : t.pinHolder k = s.pinHolder k := by
  rw [pinHolder, fld_of_reg (f := Fld.IMG_PIN_HOLDER_HOLDER k) h, pinHolder]

/-! ### A command reaches the controller -/

/-- The controller in which nothing waits and no command is due. -/
structure ImgFree (s : State) : Prop where
  run : s.img.run = none
  waiting : s.img.waiting = []
  cmds : s.img.cmds = []
  next : s.img.nextCmd ≤ s.cycle

theorem ownCmd_free (h : ImgFree s) (who : Ident) : s.ownCmd who = false := by
  rw [ownCmd, h.run, h.cmds]
  rfl

/-- What the block and the controller hold when a command's processing begins. -/
structure CmdBegun (s u : State) (who : Ident) : Prop where
  reg : ∀ a, a ≠ Reg.IMG_RES (imgBlock who) → u.reg a = s.reg a
  img : u.img = { s.img with nextCmd := s.cycle + 64 }
  variant : u.variant = s.variant

/-- The state in which the processing of a command begins. -/
def cmdBegun (s : State) (who : Ident) : State :=
  ((s.taken (Reg.IMG_RES (imgBlock who))).imgPending (imgBlock who)).setImg { s.img with nextCmd := s.cycle + 64 }

theorem reg_imgPending_ne (s : State) {a b : Nat} (h : a ≠ Reg.IMG_RES b) : (s.imgPending b).reg a = s.reg a := by
  rw [imgPending, reg_setFlag_ne _ _ h, reg_setFlag_ne _ _ h, reg_setFld_ne _ _ h]

theorem variant_imgPending (s : State) (b : Nat) : (s.imgPending b).variant = s.variant := by
  rw [imgPending, setFlag_variant, setFlag_variant, setFld_variant]

theorem img_setImg (s : State) (x : Image) : (s.setImg x).img = x := rfl
theorem variant_taken (s : State) (a : Nat) : (s.taken a).variant = s.variant := rfl

theorem cmdBegun_spec (s : State) (who : Ident) : CmdBegun s (s.cmdBegun who) who where
  reg a ha := by rw [cmdBegun, reg_setImg, reg_imgPending_ne _ ha, reg_taken]
  img := by rw [cmdBegun, img_setImg]
  variant := by rw [cmdBegun, setImg_variant, variant_imgPending, variant_taken]

/-- The commands that are processed as they reach a free controller. -/
def ImgCmd.now : ImgCmd → Bool
  | .commit _ _ => false
  | _ => true

/-- The one command of the queue is processed. -/
theorem runCmds_one {c : ImgCmd} (hCmds : s.img.cmds = [(who, c)]) (hFree : s.cmdFree = true) (hc : ImgCmd.now c = true) :
    s.runCmds = (s.setImg { s.img with cmds := [], nextCmd := s.cycle + 64 }).runImgCmd who c := by
  unfold runCmds
  rw [hCmds]
  cases c with
  | commit t f => cases hc
  | begin r => exact if_pos hFree
  | rollback t => exact if_pos hFree
  | pin f n => exact if_pos hFree
  | unpin j => exact if_pos hFree

theorem setImg_setImg (s : State) (x y : Image) : (s.setImg x).setImg y = s.setImg y := rfl

theorem reachCmd_free (h : ImgFree s) {c : ImgCmd} (hc : ImgCmd.now c = true) :
    s.reachCmd who c = (s.setImg { s.img with nextCmd := s.cycle + 64 }).runImgCmd who c := by
  have hFree : (s.setImg { s.img with cmds := [(who, c)] }).cmdFree = true := by
    show (s.img.run.isNone && decide (s.img.nextCmd ≤ s.cycle)) = true
    rw [h.run, decide_eq_true h.next]
    rfl
  have hImg : ({ s.img with cmds := [], nextCmd := s.cycle + 64 } : Image) = { s.img with nextCmd := s.cycle + 64 } := by
    rw [← h.cmds]
  have hRuns := runCmds_one (s := s.setImg { s.img with cmds := [(who, c)] }) rfl hFree hc
  rw [setImg_setImg] at hRuns
  rw [reachCmd, h.cmds, List.nil_append, hRuns, ← hImg]
  rfl

theorem reachCmd_commit (h : ImgFree s) (n : Nat) (f : Option (Nat × Nat)) :
    s.reachCmd who (.commit n f) = s.setImg { s.img with cmds := [(who, .commit n f)] } := by
  rw [reachCmd, h.cmds]
  rfl

theorem request_cmd (h : ImgFree s) (c : ImgCmd) : s.request who (.cmd c) = s.reachCmd who c := by
  unfold request
  dsimp only
  rw [h.waiting, ownCmd_free h]
  rfl

theorem imgFree_taken (h : ImgFree s) (b : Nat) : ImgFree ((s.taken (Reg.IMG_RES b)).imgPending b) := ⟨h.run, h.waiting, h.cmds, h.next⟩

theorem imgCommand_runs (h : ImgFree s) (hDone : s.flag (Fld.IMG_RES_DONE (imgBlock who)) = true)
    (hFirst : s.took (Reg.IMG_RES (imgBlock who)) = false) {c : ImgCmd} (hc : ImgCmd.now c = true) :
    s.imgCommand who c = (s.cmdBegun who).runImgCmd who c := by
  have hBegun := (request_cmd (who := who) (imgFree_taken h (imgBlock who)) c).trans (reachCmd_free (imgFree_taken h (imgBlock who)) hc)
  unfold imgCommand
  dsimp only
  rw [oneAtATime_first (by rw [hDone]; rfl) hFirst, hBegun]
  cases c with
  | commit t f => cases hc
  | begin r => rfl
  | rollback t => rfl
  | pin f n => rfl
  | unpin j => rfl

theorem imgCommand_commit (h : ImgFree s) (hDone : s.flag (Fld.IMG_RES_DONE (imgBlock who)) = true)
    (hFirst : s.took (Reg.IMG_RES (imgBlock who)) = false) (n : Nat) (f : Option (Nat × Nat)) :
    s.imgCommand who (.commit n f) = (((s.taken (Reg.IMG_RES (imgBlock who))).imgPending (imgBlock who)).setImg
      { s.img with cmds := [(who, .commit n f)] }).advanceSeq (imgBlock who) := by
  have hBegun := (request_cmd (who := who) (imgFree_taken h (imgBlock who)) (.commit n f)).trans
    (reachCmd_commit (imgFree_taken h (imgBlock who)) n f)
  unfold imgCommand
  dsimp only
  rw [oneAtATime_first (by rw [hDone]; rfl) hFirst, hBegun]
  rfl

theorem imgCommand_lost (h : s.flag (Fld.IMG_RES_DONE (imgBlock who)) = false ∨ s.took (Reg.IMG_RES (imgBlock who)) = true) (c : ImgCmd) :
    s.imgCommand who c = s.setFlag (Fld.IMG_RES_LOST (imgBlock who)) true := by
  unfold imgCommand
  exact oneAtATime_lost (h.imp_left fun h => by rw [h]; rfl) _

theorem imgPending_shows (s : State) (b : Nat) :
    (s.imgPending b).fld (Fld.IMG_RES_RESULT b) = 1 ∧ (s.imgPending b).flag (Fld.IMG_RES_DONE b) = false := by
  refine ⟨?_, ?_⟩
  · rw [imgPending, fld_setFlag_off _ _ rfl, fld_setFlag_off _ _ rfl, fld_setFld_on _ _ rfl]
    rfl
  · rw [imgPending, flag_setFlag_off _ _ rfl, flag_setFlag_on _ _ rfl rfl]

theorem advanceSeq_keeps (s : State) (b : Nat) :
    (s.advanceSeq b).img = s.img ∧ (s.advanceSeq b).reg (Reg.IMG_RES b) = s.reg (Reg.IMG_RES b) := by
  unfold advanceSeq
  split
  · exact ⟨rfl, reg_setFld_ne _ _ (by show Reg.IMG_RES b ≠ Reg.IMG_FLOWSEQ b; unfold Reg.IMG_RES Reg.IMG_FLOWSEQ; omega)⟩
  · exact ⟨rfl, rfl⟩

/-- A COMMIT waits for its processing, its result PENDING. -/
theorem commitWaits_spec (s : State) (b : Nat) (x : Image) : (((s.imgPending b).setImg x).advanceSeq b).img = x ∧
    (((s.imgPending b).setImg x).advanceSeq b).fld (Fld.IMG_RES_RESULT b) = 1 ∧
    (((s.imgPending b).setImg x).advanceSeq b).flag (Fld.IMG_RES_DONE b) = false := by
  obtain ⟨hResult, hDone⟩ := imgPending_shows s b
  generalize s.imgPending b = u at hResult hDone
  obtain ⟨hImg, hReg⟩ := advanceSeq_keeps (u.setImg x) b
  refine ⟨hImg, ?_, ?_⟩
  · rw [fld_of_reg (f := Fld.IMG_RES_RESULT b) hReg, fld_setImg, hResult]
  · have hFlag : ((u.setImg x).advanceSeq b).flag (Fld.IMG_RES_DONE b) = (u.setImg x).flag (Fld.IMG_RES_DONE b) := flag_of_reg hReg
    rw [hFlag, flag_setImg, hDone]

/-! ### The commands -/

/-- A command refused. -/
theorem imgDone_refused (h : u.img = { s.img with nextCmd := s.cycle + 64 }) (who : Ident) {code : Nat} (hCode : code < 65536) :
    (u.imgDone who code).fld (Fld.IMG_RES_RESULT (imgBlock who)) = code ∧ (u.imgDone who code).flag (Fld.IMG_RES_DONE (imgBlock who)) = true ∧
      (u.imgDone who code).img = { s.img with nextCmd := s.cycle + 64 } := by
  obtain ⟨hResult, hDone, _⟩ := imgDone_res u who hCode
  exact ⟨hResult, hDone, (img_imgDone u who code).trans h⟩

/-- A result shown after the age limit: the slot and the pin are those of the state before it. -/
theorem epochDone_spec (u : State) (who : Ident) (e : Nat) :
    let t := ((u.setEpoch e).ageOut).imgDone who Code.ok
    t.fld (Fld.IMG_RES_RESULT (imgBlock who)) = 0 ∧ t.flag (Fld.IMG_RES_DONE (imgBlock who)) = true ∧ t.img.epoch = e ∧
      t.fld (Fld.IMG_RES_SLOT (imgBlock who)) = u.fld (Fld.IMG_RES_SLOT (imgBlock who)) ∧
      t.fld (Fld.IMG_RES_PIN (imgBlock who)) = u.fld (Fld.IMG_RES_PIN (imgBlock who)) ∧
      (∀ n, n < 64 → e < (u.imgTxn n).begin + 2 ^ 30 → t.reg (Reg.IMG_SLOT n) = u.reg (Reg.IMG_SLOT n) ∧ t.imgTxn n = u.imgTxn n) ∧
      (∀ k, k < 8 → e < u.pinEpoch k + 2 ^ 30 → t.reg (Reg.IMG_PIN_FIRST k) = u.reg (Reg.IMG_PIN_FIRST k) ∧
        t.reg (Reg.IMG_PIN_HOLDER k) = u.reg (Reg.IMG_PIN_HOLDER k) ∧ t.pinEpoch k = u.pinEpoch k) := by
  have hb := imgBlock_le who
  have hEpochReg (a : Nat) (hLo : a ≠ Reg.IMG_EPOCH_LO) (hHi : a ≠ Reg.IMG_EPOCH_HI) : (u.setEpoch e).reg a = u.reg a := by
    rw [setEpoch, reg_setReg_ne _ _ hHi, reg_setReg_ne _ _ hLo]
    rfl
  have hEpochImg : (u.setEpoch e).img = { u.img with epoch := e } := rfl
  generalize u.setEpoch e = v at hEpochReg hEpochImg
  have hAged := Aged.ageOut v
  dsimp only
  generalize v.ageOut = w at hAged
  obtain ⟨hResult, hDone, hSlot, hPin⟩ := imgDone_res w who (code := Code.ok) (by decide)
  have hImg := img_imgDone w who Code.ok
  have hReg {a : Nat} (ha : imgOwn a) : (w.imgDone who Code.ok).reg a = w.reg a := by
    obtain ⟨hRes, hCnt, hMerge⟩ := imgOwn_apart ha (imgBlock who)
    exact reg_imgDone_ne w who Code.ok hRes hCnt hMerge
  generalize w.imgDone who Code.ok = t at hResult hDone hSlot hPin hImg hReg
  have hRes : w.reg (Reg.IMG_RES (imgBlock who)) = u.reg (Reg.IMG_RES (imgBlock who)) := by
    obtain ⟨_, _, hLow⟩ := imgRes_apart hb
    refine (hAged.reg _ ?_).trans (hEpochReg _ ?_ ?_)
    · rintro (h | h | ⟨j, hj, h⟩)
      · omega
      · unfold Reg.IMG_STAT at h
        omega
      · unfold Reg.IMG_RES Reg.IMG_TXN_SEL imgBlk at h
        split at h <;> split at h <;> omega
    · unfold Reg.IMG_EPOCH_LO
      omega
    · unfold Reg.IMG_EPOCH_HI
      omega
  refine ⟨hResult, hDone, ?_, hSlot.trans (fld_of_reg hRes), hPin.trans (fld_of_reg hRes), fun n hn hSafe => ?_, fun k hk hSafe => ?_⟩
  · rw [hImg, hAged.epoch, hEpochImg]
  · have hTxn : v.imgTxn n = u.imgTxn n := by rw [imgTxn, hEpochImg, imgTxn]
    obtain ⟨hRegA, hTxnA⟩ := hAged.slot n hn (.inr (by rw [hTxn, hEpochImg]; exact hSafe))
    refine ⟨(hReg (by unfold imgOwn Reg.IMG_SLOT; omega)).trans (hRegA.trans (hEpochReg _ ?_ ?_)), ?_⟩
    · unfold Reg.IMG_SLOT Reg.IMG_EPOCH_LO
      omega
    · unfold Reg.IMG_SLOT Reg.IMG_EPOCH_HI
      omega
    · rw [imgTxn, hImg, ← imgTxn, hTxnA, hTxn]
  · have hPinE : v.pinEpoch k = u.pinEpoch k := by rw [pinEpoch, hEpochImg, pinEpoch]
    obtain ⟨hFirst, hHolder, hEpoch⟩ := hAged.pin k hk (by rw [hPinE, hEpochImg]; exact hSafe)
    refine ⟨(hReg (by unfold imgOwn Reg.IMG_PIN_FIRST; omega)).trans (hFirst.trans (hEpochReg _ ?_ ?_)),
      (hReg (by unfold imgOwn Reg.IMG_PIN_HOLDER; omega)).trans (hHolder.trans (hEpochReg _ ?_ ?_)), ?_⟩
    · unfold Reg.IMG_PIN_FIRST Reg.IMG_EPOCH_LO
      omega
    · unfold Reg.IMG_PIN_FIRST Reg.IMG_EPOCH_HI
      omega
    · unfold Reg.IMG_PIN_HOLDER Reg.IMG_EPOCH_LO
      omega
    · unfold Reg.IMG_PIN_HOLDER Reg.IMG_EPOCH_HI
      omega
    · rw [pinEpoch, hImg, ← pinEpoch, hEpoch, hPinE]

/-- The slot that BEGIN opens, before E rises. -/
def begunSlot (s : State) (who : Ident) (n : Nat) (recipe : Bool) : State :=
  let e := s.img.epoch
  let s := ((s.setImgTxn n { begin := e }).markAged n none).setReg (Reg.IMG_SLOT n)
    (BitVec.ofNat 32 (1 + 4 * bit recipe + 65536 * who.toNat))
  let s := s.addLease { type := 2, district := 0, index := n, holder := who }
  ((s.setFld (Fld.IMG_RES_SLOT (imgBlock who)) n).imgResEpoch who e).setReg (Reg.IMG_TXN_SEL (imgBlock who)) (BitVec.ofNat 32 (64 + n))

theorem runBegin_free {recipe : Bool} (hMode : recipe = false ∨ s.mode ≠ Mode.safeHold)
    (hFind : ((List.range s.variant.imgSlots).find? fun t => s.imgSlot t == 0) = some n) :
    s.runBegin who recipe = (((s.begunSlot who n recipe).setEpoch (s.img.epoch + 1)).ageOut).imgDone who Code.ok := by
  have hNot : (recipe && s.mode == Mode.safeHold) = false := by
    rcases hMode with h | h
    · rw [h]
      rfl
    · rw [beq_eq_false_iff_ne.mpr h, Bool.and_false]
  unfold runBegin
  dsimp only
  rw [hNot, if_neg Bool.false_ne_true, hFind]
  rfl

/-- A word of a slot in state OPEN. -/
theorem slotWord_spec (recipe : Bool) (who : Ident) :
    fieldGet (BitVec.ofNat 32 (1 + 4 * bit recipe + 65536 * who.toNat)) 0 2 = 1 ∧
      BitVec.ofNat 16 (fieldGet (BitVec.ofNat 32 (1 + 4 * bit recipe + 65536 * who.toNat)) 16 16) = who := by
  have hWho : who.toNat < 65536 := who.isLt
  have hBit : bit recipe ≤ 1 := by cases recipe <;> decide
  refine ⟨?_, BitVec.eq_of_toNat_eq ?_⟩
  · rw [fieldGet_eq_div_mod, BitVec.toNat_ofNat]
    omega
  · rw [BitVec.toNat_ofNat, fieldGet_eq_div_mod, BitVec.toNat_ofNat]
    omega

theorem begunSlot_spec (s : State) (who : Ident) (recipe : Bool) (hn : n < 64) :
    (s.begunSlot who n recipe).reg (Reg.IMG_SLOT n) = BitVec.ofNat 32 (1 + 4 * bit recipe + 65536 * who.toNat) ∧
      (s.begunSlot who n recipe).imgTxn n = { begin := s.img.epoch } ∧
      (s.begunSlot who n recipe).fld (Fld.IMG_RES_SLOT (imgBlock who)) = n := by
  have hb := imgBlock_le who
  have hOpened : ((((s.setImgTxn n { begin := s.img.epoch }).markAged n none).setReg (Reg.IMG_SLOT n)
      (BitVec.ofNat 32 (1 + 4 * bit recipe + 65536 * who.toNat))).addLease { type := 2, district := 0, index := n, holder := who }).reg
        (Reg.IMG_SLOT n) = BitVec.ofNat 32 (1 + 4 * bit recipe + 65536 * who.toNat) :=
    reg_setReg_same ((s.setImgTxn n { begin := s.img.epoch }).markAged n none) _ _
  have hTxn : ((((s.setImgTxn n { begin := s.img.epoch }).markAged n none).setReg (Reg.IMG_SLOT n)
      (BitVec.ofNat 32 (1 + 4 * bit recipe + 65536 * who.toNat))).addLease { type := 2, district := 0, index := n, holder := who }).imgTxn n =
        { begin := s.img.epoch } := Store.get_set_same s.img.txns n _
  unfold begunSlot
  dsimp only
  generalize (((s.setImgTxn n { begin := s.img.epoch }).markAged n none).setReg (Reg.IMG_SLOT n)
      (BitVec.ofNat 32 (1 + 4 * bit recipe + 65536 * who.toNat))).addLease { type := 2, district := 0, index := n, holder := who } = u
    at hOpened hTxn
  unfold imgResEpoch
  refine ⟨?_, hTxn, ?_⟩
  · rw [reg_setReg_ne, reg_setReg_ne, reg_setReg_ne, reg_setFld_ne, hOpened]
    · show Reg.IMG_SLOT n ≠ Reg.IMG_RES (imgBlock who)
      unfold Reg.IMG_SLOT Reg.IMG_RES imgBlk
      split <;> omega
    · unfold Reg.IMG_SLOT Reg.IMG_RES_EPOCH_LO imgBlk
      split <;> omega
    · unfold Reg.IMG_SLOT Reg.IMG_RES_EPOCH_HI imgBlk
      split <;> omega
    · unfold Reg.IMG_SLOT Reg.IMG_TXN_SEL imgBlk
      split <;> omega
  · rw [fld_setReg_off, fld_setReg_off, fld_setReg_off, fld_setFld_on _ _ rfl]
    · exact Nat.mod_eq_of_lt hn
    · exact beq_eq_false_iff_ne.mpr (by show Reg.IMG_RES _ ≠ _; unfold Reg.IMG_RES Reg.IMG_RES_EPOCH_LO; omega)
    · exact beq_eq_false_iff_ne.mpr (by show Reg.IMG_RES _ ≠ _; unfold Reg.IMG_RES Reg.IMG_RES_EPOCH_HI; omega)
    · exact beq_eq_false_iff_ne.mpr (by show Reg.IMG_RES _ ≠ _; unfold Reg.IMG_RES Reg.IMG_TXN_SEL; omega)

/-- BEGIN of a FREE slot. -/
theorem runBegin_spec {recipe : Bool} (hMode : recipe = false ∨ s.mode ≠ Mode.safeHold)
    (hFind : ((List.range s.variant.imgSlots).find? fun t => s.imgSlot t == 0) = some n) :
    (s.runBegin who recipe).fld (Fld.IMG_RES_RESULT (imgBlock who)) = 0 ∧ (s.runBegin who recipe).flag (Fld.IMG_RES_DONE (imgBlock who)) = true ∧
      (s.runBegin who recipe).imgSlot n = 1 ∧ (s.runBegin who recipe).imgHolder n = who ∧
      (s.runBegin who recipe).imgTxn n = { begin := s.img.epoch } ∧ (s.runBegin who recipe).img.epoch = s.img.epoch + 1 ∧
      (s.runBegin who recipe).fld (Fld.IMG_RES_SLOT (imgBlock who)) = n := by
  have hn : n < 64 := by
    have hRange := List.mem_range.mp (List.mem_of_find?_eq_some hFind)
    have hSlots : s.variant.imgSlots ≤ 64 := by cases s.variant <;> decide
    omega
  obtain ⟨hWord, hTxn, hRes⟩ := begunSlot_spec s who recipe hn
  rw [runBegin_free hMode hFind]
  generalize s.begunSlot who n recipe = u at hWord hTxn hRes
  obtain ⟨hResult, hDone, hEpoch, hSlot, _, hKept, _⟩ := epochDone_spec u who (s.img.epoch + 1)
  obtain ⟨hReg, hTxn'⟩ := hKept n hn (by rw [hTxn]; show s.img.epoch + 1 < s.img.epoch + 2 ^ 30; omega)
  generalize ((u.setEpoch (s.img.epoch + 1)).ageOut).imgDone who Code.ok = t at hResult hDone hEpoch hSlot hReg hTxn'
  obtain ⟨hState, hHolder⟩ := slotWord_spec recipe who
  refine ⟨hResult, hDone, ?_, ?_, hTxn'.trans hTxn, hEpoch, hSlot.trans hRes⟩
  · show fieldGet (t.reg (Reg.IMG_SLOT n)) 0 2 = 1
    rw [hReg, hWord, hState]
  · show BitVec.ofNat 16 (fieldGet (t.reg (Reg.IMG_SLOT n)) 16 16) = who
    rw [hReg, hWord, hHolder]

theorem runBegin_safe (h : s.mode = Mode.safeHold) : s.runBegin who true = s.imgDone who Code.wrongState := by
  unfold runBegin
  dsimp only
  rw [h, if_pos (by rfl)]

theorem runBegin_full {recipe : Bool} (hMode : recipe = false ∨ s.mode ≠ Mode.safeHold)
    (hFull : ∀ n, n < s.variant.imgSlots → s.imgSlot n ≠ 0 ∧ s.imgSlot n ≠ 3) : s.runBegin who recipe = s.imgDone who Code.noResource := by
  have hNot : (recipe && s.mode == Mode.safeHold) = false := by
    rcases hMode with h | h
    · rw [h]
      rfl
    · rw [beq_eq_false_iff_ne.mpr h, Bool.and_false]
  have hNone : ((List.range s.variant.imgSlots).find? fun t => s.imgSlot t == 0) = none := by
    rw [List.find?_eq_none]
    intro t ht h
    exact (hFull t (List.mem_range.mp ht)).1 (beq_iff_eq.mp h)
  have hSettling : ((List.range s.variant.imgSlots).any fun t => s.imgSlot t == 3) = false := by
    rw [List.any_eq_false]
    intro t ht h
    exact (hFull t (List.mem_range.mp ht)).2 (beq_iff_eq.mp h)
  unfold runBegin
  dsimp only
  rw [hNot, if_neg Bool.false_ne_true, hNone]
  dsimp only
  rw [hSettling, if_neg Bool.false_ne_true]

/-! ### ROLLBACK -/

theorem runRollback_open (hk : k < s.variant.imgSlots) (hAged : s.isAged k who = false) (hOpen : s.imgSlot k = 1)
    (hHolder : s.imgHolder k = who) : s.runRollback who k = ((s.setFld (Fld.IMG_RES_SLOT (imgBlock who)) k).rollbackSlot k).imgDone who Code.ok := by
  have hReg : (s.setFld (Fld.IMG_RES_SLOT (imgBlock who)) k).reg (Reg.IMG_SLOT k) = s.reg (Reg.IMG_SLOT k) := by
    refine reg_setFld_ne _ _ ?_
    have hSlots : s.variant.imgSlots ≤ 64 := by cases s.variant <;> decide
    show Reg.IMG_SLOT k ≠ Reg.IMG_RES (imgBlock who)
    unfold Reg.IMG_SLOT Reg.IMG_RES imgBlk
    split <;> omega
  have hOpen' := (imgSlot_of_reg hReg).trans hOpen
  have hHolder' := (imgHolder_of_reg hReg).trans hHolder
  have hAged' : (s.setFld (Fld.IMG_RES_SLOT (imgBlock who)) k).isAged k who = false := hAged
  have hVariant : (s.setFld (Fld.IMG_RES_SLOT (imgBlock who)) k).variant = s.variant := rfl
  unfold runRollback
  dsimp only
  generalize s.setFld (Fld.IMG_RES_SLOT (imgBlock who)) k = u at hOpen' hHolder' hAged' hVariant
  rw [hVariant, decide_eq_false (Nat.not_le.mpr hk), hAged', hOpen', hHolder']
  have hCode : firstCode [(false, Code.badArg), (false, Code.stale), (1 != 1 || (who != who && !Ident.isSup who), Code.wrongState)] = Code.ok := by
    rw [show (who != who) = false from bne_self_eq_false who]
    rfl
  rw [hCode, if_pos rfl]

theorem runRollback_refused (hk : k < s.variant.imgSlots) (hAged : s.isAged k who = false) (hNot : s.imgSlot k ≠ 1) :
    s.runRollback who k = (s.setFld (Fld.IMG_RES_SLOT (imgBlock who)) k).imgDone who Code.wrongState := by
  have hReg : (s.setFld (Fld.IMG_RES_SLOT (imgBlock who)) k).reg (Reg.IMG_SLOT k) = s.reg (Reg.IMG_SLOT k) := by
    refine reg_setFld_ne _ _ ?_
    have hSlots : s.variant.imgSlots ≤ 64 := by cases s.variant <;> decide
    show Reg.IMG_SLOT k ≠ Reg.IMG_RES (imgBlock who)
    unfold Reg.IMG_SLOT Reg.IMG_RES imgBlk
    split <;> omega
  have hNot' : (s.setFld (Fld.IMG_RES_SLOT (imgBlock who)) k).imgSlot k ≠ 1 := by rw [imgSlot_of_reg hReg]; exact hNot
  have hAged' : (s.setFld (Fld.IMG_RES_SLOT (imgBlock who)) k).isAged k who = false := hAged
  have hVariant : (s.setFld (Fld.IMG_RES_SLOT (imgBlock who)) k).variant = s.variant := rfl
  unfold runRollback
  dsimp only
  generalize s.setFld (Fld.IMG_RES_SLOT (imgBlock who)) k = u at hNot' hAged' hVariant
  have hCode : firstCode [(decide (u.variant.imgSlots ≤ k), Code.badArg), (u.isAged k who, Code.stale),
      (u.imgSlot k != 1 || (u.imgHolder k != who && !Ident.isSup who), Code.wrongState)] = Code.wrongState := by
    rw [hVariant, decide_eq_false (Nat.not_le.mpr hk), hAged', bne_iff_ne.mpr hNot']
    rfl
  rw [hCode, if_neg (by decide)]

/-! ### PIN and UNPIN -/

/-- The pin taken, before E rises. -/
def pinned (s : State) (who : Ident) (k first count : Nat) : State :=
  let e := s.img.epoch
  let s := (s.setImg { s.img with pins := Store.set (fun _ => 0) s.img.pins k e }).markAged (64 + k) none
  let s := (s.setReg (Reg.IMG_PIN_FIRST k) (BitVec.ofNat 32 (first + 2 ^ 31))).setReg (Reg.IMG_PIN_COUNT k) (BitVec.ofNat 32 count)
  let s := (s.setReg (Reg.IMG_PIN_EPOCH k) (BitVec.ofNat 32 e)).setReg (Reg.IMG_PIN_HOLDER k) (BitVec.ofNat 32 who.toNat)
  (s.setFld (Fld.IMG_RES_PIN (imgBlock who)) k).imgResEpoch who e

theorem runPin_free {first count : Nat} (hIn : first + count ≤ s.variant.points) (hCount : count ≠ 0)
    (hFind : ((List.range 8).find? fun k => !s.pinHeld k) = some k) :
    s.runPin who first count = (((s.pinned who k first count).setEpoch (s.img.epoch + 1)).ageOut).imgDone who Code.ok := by
  unfold runPin
  rw [if_neg (Nat.not_lt.mpr hIn), hFind]
  dsimp only
  rw [if_neg hCount, if_neg hCount]
  rfl

theorem runPin_past {first count : Nat} (h : s.variant.points < first + count) : s.runPin who first count = s.imgDone who Code.badArg := if_pos h

theorem pinned_spec (s : State) (who : Ident) {first count : Nat} (hk : k < 8) (hFirst : first < 2 ^ 31) :
    (s.pinned who k first count).pinHeld k = true ∧ (s.pinned who k first count).pinHolder k = who ∧
      (s.pinned who k first count).pinEpoch k = s.img.epoch ∧ (s.pinned who k first count).fld (Fld.IMG_RES_PIN (imgBlock who)) = k := by
  have hb := imgBlock_le who
  have hEpoch : (s.pinned who k first count).pinEpoch k = s.img.epoch := by
    have hSet : ((s.setImg { s.img with pins := Store.set (fun _ => 0) s.img.pins k s.img.epoch }).markAged (64 + k) none).pinEpoch k =
        s.img.epoch := Store.get_set_same s.img.pins k _
    unfold pinned
    dsimp only
    generalize (s.setImg { s.img with pins := Store.set (fun _ => 0) s.img.pins k s.img.epoch }).markAged (64 + k) none = u at hSet
    rw [pinEpoch, imgResEpoch, setReg_img, setReg_img, setFld_img, setReg_img, setReg_img, setReg_img, setReg_img, ← pinEpoch, hSet]
  refine ⟨?_, ?_, hEpoch, ?_⟩
  all_goals
    unfold pinned imgResEpoch
    dsimp only
    generalize (s.setImg { s.img with pins := Store.set (fun _ => 0) s.img.pins k s.img.epoch }).markAged (64 + k) none = u
  · show (fieldGet (State.reg _ (Reg.IMG_PIN_FIRST k)) 31 1 != 0) = true
    rw [reg_setReg_ne, reg_setReg_ne, reg_setFld_ne, reg_setReg_ne, reg_setReg_ne, reg_setReg_ne, reg_setReg_same, bne_iff_ne,
      fieldGet_eq_div_mod, BitVec.toNat_ofNat]
    · omega
    · unfold Reg.IMG_PIN_FIRST Reg.IMG_PIN_COUNT; omega
    · unfold Reg.IMG_PIN_FIRST Reg.IMG_PIN_EPOCH; omega
    · unfold Reg.IMG_PIN_FIRST Reg.IMG_PIN_HOLDER; omega
    · show Reg.IMG_PIN_FIRST k ≠ Reg.IMG_RES (imgBlock who)
      unfold Reg.IMG_PIN_FIRST Reg.IMG_RES imgBlk
      split <;> omega
    · unfold Reg.IMG_PIN_FIRST Reg.IMG_RES_EPOCH_LO imgBlk
      split <;> omega
    · unfold Reg.IMG_PIN_FIRST Reg.IMG_RES_EPOCH_HI imgBlk
      split <;> omega
  · show BitVec.ofNat 16 (fieldGet (State.reg _ (Reg.IMG_PIN_HOLDER k)) 0 16) = who
    rw [reg_setReg_ne, reg_setReg_ne, reg_setFld_ne, reg_setReg_same]
    · have hWho : who.toNat < 65536 := who.isLt
      apply BitVec.eq_of_toNat_eq
      rw [BitVec.toNat_ofNat, fieldGet_eq_div_mod, BitVec.toNat_ofNat]
      omega
    · show Reg.IMG_PIN_HOLDER k ≠ Reg.IMG_RES (imgBlock who)
      unfold Reg.IMG_PIN_HOLDER Reg.IMG_RES imgBlk
      split <;> omega
    · unfold Reg.IMG_PIN_HOLDER Reg.IMG_RES_EPOCH_LO imgBlk
      split <;> omega
    · unfold Reg.IMG_PIN_HOLDER Reg.IMG_RES_EPOCH_HI imgBlk
      split <;> omega
  · rw [fld_setReg_off, fld_setReg_off, fld_setFld_on _ _ rfl]
    · exact Nat.mod_eq_of_lt hk
    · exact beq_eq_false_iff_ne.mpr (by show Reg.IMG_RES _ ≠ _; unfold Reg.IMG_RES Reg.IMG_RES_EPOCH_LO; omega)
    · exact beq_eq_false_iff_ne.mpr (by show Reg.IMG_RES _ ≠ _; unfold Reg.IMG_RES Reg.IMG_RES_EPOCH_HI; omega)

/-- PIN of a range with a pin free. -/
theorem runPin_spec {first count : Nat} (hIn : first + count ≤ s.variant.points) (hCount : count ≠ 0)
    (hFind : ((List.range 8).find? fun k => !s.pinHeld k) = some k) :
    (s.runPin who first count).fld (Fld.IMG_RES_RESULT (imgBlock who)) = 0 ∧ (s.runPin who first count).flag (Fld.IMG_RES_DONE (imgBlock who)) = true ∧
      (s.runPin who first count).pinHeld k = true ∧ (s.runPin who first count).pinHolder k = who ∧
      (s.runPin who first count).pinEpoch k = s.img.epoch ∧ (s.runPin who first count).img.epoch = s.img.epoch + 1 ∧
      (s.runPin who first count).fld (Fld.IMG_RES_PIN (imgBlock who)) = k := by
  have hk : k < 8 := List.mem_range.mp (List.mem_of_find?_eq_some hFind)
  have hFirst : first < 2 ^ 31 := by
    have hPoints : s.variant.points ≤ 33554432 := by cases s.variant <;> decide
    omega
  obtain ⟨hHeld, hHolder, hEpoch, hRes⟩ := pinned_spec s who (count := count) hk hFirst
  rw [runPin_free hIn hCount hFind]
  generalize s.pinned who k first count = u at hHeld hHolder hEpoch hRes
  obtain ⟨hResult, hDone, hNow, _, hPin, _, hKept⟩ := epochDone_spec u who (s.img.epoch + 1)
  obtain ⟨hFirst', hHolder', hEpoch'⟩ := hKept k hk (by rw [hEpoch]; omega)
  exact ⟨hResult, hDone, (pinHeld_of_reg hFirst').trans hHeld, (pinHolder_of_reg hHolder').trans hHolder, hEpoch'.trans hEpoch, hNow,
    hPin.trans hRes⟩

theorem reg_setResPin (s : State) (who : Ident) (k : Nat) {a : Nat} (ha : imgOwn a) : (s.setFld (Fld.IMG_RES_PIN (imgBlock who)) k).reg a = s.reg a :=
  reg_setFld_ne _ _ (imgOwn_apart ha (imgBlock who)).1

theorem runUnpin_held (hk : k < 8) (hAged : s.isAged (64 + k) who = false) (hHeld : s.pinHeld k = true) (hHolder : s.pinHolder k = who) :
    s.runUnpin who k = (((s.setFld (Fld.IMG_RES_PIN (imgBlock who)) k).releasePin k).showImg).imgDone who Code.ok := by
  have hHeld' := (pinHeld_of_reg (reg_setResPin s who k (a := Reg.IMG_PIN_FIRST k) (by unfold imgOwn Reg.IMG_PIN_FIRST; omega))).trans hHeld
  have hHolder' := (pinHolder_of_reg (reg_setResPin s who k (a := Reg.IMG_PIN_HOLDER k) (by unfold imgOwn Reg.IMG_PIN_HOLDER; omega))).trans hHolder
  have hAged' : (s.setFld (Fld.IMG_RES_PIN (imgBlock who)) k).isAged (64 + k) who = false := hAged
  unfold runUnpin
  dsimp only
  generalize s.setFld (Fld.IMG_RES_PIN (imgBlock who)) k = u at hHeld' hHolder' hAged'
  rw [hAged', if_neg Bool.false_ne_true, hHeld', hHolder', show (who != who) = false from bne_self_eq_false who, if_neg]
  simp

theorem runUnpin_refused (hk : k < 8) (hAged : s.isAged (64 + k) who = false) (hNot : s.pinHeld k = false) :
    s.runUnpin who k = (s.setFld (Fld.IMG_RES_PIN (imgBlock who)) k).imgDone who Code.wrongState := by
  have hNot' := (pinHeld_of_reg (reg_setResPin s who k (a := Reg.IMG_PIN_FIRST k) (by unfold imgOwn Reg.IMG_PIN_FIRST; omega))).trans hNot
  have hAged' : (s.setFld (Fld.IMG_RES_PIN (imgBlock who)) k).isAged (64 + k) who = false := hAged
  unfold runUnpin
  dsimp only
  generalize s.setFld (Fld.IMG_RES_PIN (imgBlock who)) k = u at hNot' hAged'
  rw [hAged', if_neg Bool.false_ne_true, hNot', if_pos (by rfl)]

theorem pinHeld_releasePin (s : State) (hk : k < 8) (who : Ident) (code : Nat) : (((s.releasePin k).showImg).imgDone who code).pinHeld k = false := by
  have hZero : (s.releasePin k).reg (Reg.IMG_PIN_FIRST k) = 0 := by
    unfold releasePin
    dsimp only
    rw [reg_setReg_ne, reg_setReg_ne, reg_setReg_ne, reg_setReg_same]
    · unfold Reg.IMG_PIN_FIRST Reg.IMG_PIN_COUNT; omega
    · unfold Reg.IMG_PIN_FIRST Reg.IMG_PIN_EPOCH; omega
    · unfold Reg.IMG_PIN_FIRST Reg.IMG_PIN_HOLDER; omega
  have hOwn : imgOwn (Reg.IMG_PIN_FIRST k) := by unfold imgOwn Reg.IMG_PIN_FIRST; omega
  obtain ⟨hRes, hCnt, hMerge⟩ := imgOwn_apart hOwn (imgBlock who)
  have hShown : (((s.releasePin k).showImg).imgDone who code).reg (Reg.IMG_PIN_FIRST k) = 0 :=
    (reg_imgDone_ne _ who code hRes hCnt hMerge).trans ((reg_showImg _ (by unfold Reg.IMG_PIN_FIRST Reg.IMG_STAT; omega)).trans hZero)
  show (fieldGet (State.reg _ (Reg.IMG_PIN_FIRST k)) 31 1 != 0) = false
  rw [hShown]
  rfl

end Sys2Proof.Machine.State

end

section
/-!
PROOF. O51: direct writes and write sets, settling, and the processing of a COMMIT.
-/

namespace Sys2Proof.Machine.State

variable {s t u : State} {who : Ident} {p k n : Nat}

/-! ### Direct writes and write sets -/

theorem cowCopy_none (h : s.cowNeed p = []) : s.cowCopy p = s := by
  unfold cowCopy
  rw [h]
  rfl

theorem point_putVersion (s : State) (p : Nat) (v : Ver) (txn : Option Nat) (e : Nat) :
    (s.putVersion p v txn e).point p = (s.point p).written v txn e := Store.get_set_same s.img.points p _

theorem point_putVersion_ne (s : State) (v : Ver) (txn : Option Nat) (e : Nat) {q : Nat} (h : q ≠ p) :
    (s.putVersion p v txn e).point q = s.point q := Store.get_set_ne s.img.points _ h

/-- A direct write that need not wait. -/
theorem request_write_ready (h : ImgFree s) (hNeed : s.cowNeed p = []) (w : Write) :
    s.request who (.write p w none) = s.putVersion p (s.stamped w) none s.img.epoch := by
  have hReady : s.cowReady p = true := by
    rw [cowReady, hNeed]
    rfl
  have hApply : s.applyWrite p w = s.putVersion p (s.stamped w) none s.img.epoch := by
    have hRun : (s.putVersion p (s.stamped w) none s.img.epoch).img.run = none := h.run
    unfold applyWrite
    rw [cowCopy_none hNeed]
    dsimp only
    rw [hRun]
  unfold request
  dsimp only
  rw [h.waiting, ownCmd_free h, tryReq, tryWrite]
  simp only [hReady, hApply]
  rfl

/-- A direct write that waits for a record. -/
theorem request_write_waits (h : ImgFree s) (hNeed : s.cowNeed p ≠ []) (hFull : s.fld Fld.IMG_COW_STAT_FREE = 0) (w : Write) :
    s.request who (.write p w none) = s.setImg { s.img with waiting := [{ who := who, req := .write p w none, since := s.cycle }] } := by
  have hReady : s.cowReady p = false := by
    rw [cowReady, hFull, List.isEmpty_eq_false_iff.mpr hNeed]
    rfl
  unfold request
  dsimp only
  rw [h.waiting, ownCmd_free h, tryReq, tryWrite]
  simp only [hReady]
  rfl

theorem advanceSeq_none {b : Nat} (h : s.carriedFlow b = none) (hFlag : t.flag (Fld.IMG_FLOWSEQ_FLOWV b) = s.flag (Fld.IMG_FLOWSEQ_FLOWV b)) :
    t.advanceSeq b = t := by
  unfold advanceSeq
  rw [hFlag]
  unfold carriedFlow at h
  split at h
  · cases h
  · next hOff => exact if_neg hOff

theorem imgStore_write (hLocal : s.readsRemote who = false) (hSel : s.flag (Fld.IMG_TXN_SEL_SEL (imgBlock who)) = false)
    (hIn : p < s.variant.points) (hFlow : s.carriedFlow (imgBlock who) = none) (v : Nat) :
    s.imgStore who p v = (s.request who (.write p (s.stagedWrite (imgBlock who) v) none)).advanceSeq (imgBlock who) := by
  unfold readsRemote at hLocal
  unfold imgStore
  dsimp only
  rw [hLocal, if_neg Bool.false_ne_true, if_neg (Nat.not_le.mpr hIn), hSel, if_neg Bool.false_ne_true, hFlow]

theorem imgStore_past (hLocal : s.readsRemote who = false) (hPast : s.variant.points ≤ p) (v : Nat) : s.imgStore who p v = s := by
  unfold readsRemote at hLocal
  unfold imgStore
  dsimp only
  rw [hLocal, if_neg Bool.false_ne_true, if_pos hPast]

theorem imgStore_add (h : ImgFree s) (hLocal : s.readsRemote who = false) (hSel : s.flag (Fld.IMG_TXN_SEL_SEL (imgBlock who)) = true)
    (hIn : p < s.variant.points) (v : Nat) : s.imgStore who p v =
      s.addToSet who (s.fld (Fld.IMG_TXN_SEL_SLOT (imgBlock who))) p (s.stagedWrite (imgBlock who) v) := by
  unfold readsRemote at hLocal
  unfold imgStore
  dsimp only
  rw [hLocal, if_neg Bool.false_ne_true, if_neg (Nat.not_le.mpr hIn), hSel, if_pos rfl, request]
  dsimp only
  rw [h.waiting, ownCmd_free h]
  rfl

theorem exec_directWrite (hServes : s.serves who = true) (hLocal : s.readsRemote who = false)
    (hSel : s.flag (Fld.IMG_TXN_SEL_SEL (imgBlock who)) = false) (v : Nat) :
    exec (.directWrite who p v) s = .next (s.imgStore who p (v % 2 ^ 64)) := by
  refine congrArg Host.Outcome.next ((served_of_serves hServes _).trans ?_)
  rw [hSel, hLocal]
  rfl

theorem exec_writeSetAdd (hServes : s.serves who = true) (hLocal : s.readsRemote who = false)
    (hSel : s.flag (Fld.IMG_TXN_SEL_SEL (imgBlock who)) = true) (hIn : p < s.variant.points) (v : Nat) :
    exec (.writeSetAdd who p v) s = .next (s.imgStore who p (v % 2 ^ 64)) := by
  refine congrArg Host.Outcome.next ((served_of_serves hServes _).trans ?_)
  rw [hSel, hLocal, decide_eq_true hIn]
  rfl

theorem addToSet_open {w : Write} (hOpen : s.imgSlot n = 1) (hHolder : s.imgHolder n = who) (hRoom : (s.imgTxn n).set.length < 65536) :
    (s.addToSet who n p w).img.points = s.img.points ∧ Store.get (fun _ => none) ((s.addToSet who n p w).imgTxn n).set p = some w := by
  have hAdd : s.addToSet who n p w = s.setImgTxn n { s.imgTxn n with set := Store.set (fun _ => none) (s.imgTxn n).set p (some w) } := by
    unfold addToSet
    dsimp only
    rw [if_neg (by rintro (h | h); exacts [h hOpen, h hHolder]), if_neg (by omega)]
  have hTxn (x : ImgTxn) : (s.setImgTxn n x).imgTxn n = x := Store.get_set_same s.img.txns n x
  rw [hAdd, hTxn]
  exact ⟨rfl, Store.get_set_same (s.imgTxn n).set p (some w)⟩

theorem imgErr_keeps (s : State) (who : Ident) : (s.imgErr who).img = s.img ∧ (s.imgErr who).reg Reg.IMG_ERR = s.reg Reg.IMG_ERR := by
  unfold imgErr
  split
  · refine ⟨setFlag_img .., reg_setFlag_ne _ _ ?_⟩
    show Reg.IMG_ERR ≠ Reg.IMG_RES (imgBlock who)
    unfold Reg.IMG_ERR Reg.IMG_RES imgBlk
    split <;> omega
  · exact ⟨rfl, rfl⟩

theorem addToSet_refused {w : Write} (h : s.imgSlot n ≠ 1 ∨ s.imgHolder n ≠ who) : (s.addToSet who n p w).img = s.img ∧
    (s.addToSet who n p w).fld Fld.IMG_ERR_TXN_REFUSED = min 255 (s.fld Fld.IMG_ERR_TXN_REFUSED + 1) := by
  obtain ⟨hImg, hReg⟩ := imgErr_keeps s who
  have hAdd : s.addToSet who n p w = (s.imgErr who).count Fld.IMG_ERR_TXN_REFUSED := if_pos h
  rw [hAdd]
  generalize s.imgErr who = u at hImg hReg
  refine ⟨hImg, (fld_count_on (f := Fld.IMG_ERR_TXN_REFUSED) u 1 rfl).trans ?_⟩
  rw [fld_of_reg (f := Fld.IMG_ERR_TXN_REFUSED) hReg]
  rfl

/-! ### Settling -/

/-- The points of a settled slot, as a map of the store. -/
theorem get_map_points (f : Point → Point) (hf : f {} = {}) (l : Store Point) (q : Nat) :
    Store.get (fun _ => ({} : Point)) (l.map fun p => (p.1, f p.2)) q = f (Store.get (fun _ => {}) l q) := by
  induction l with
  | nil => exact hf.symm
  | cons a l ih =>
    obtain ⟨i, x⟩ := a
    by_cases hi : i = q
    · subst hi
      simp [Store.get]
    · simpa [Store.get, hi] using ih

/-- What settling slot `n` makes of a point. -/
def settledFor (n : Nat) (x : Point) : Point := if x.slot0.txn = some n ∨ x.slot1.txn = some n then x.settled else x

theorem cur_settledFor (n : Nat) (x : Point) : (settledFor n x).cur = x.cur := by
  unfold settledFor
  split
  · exact Point.cur_settled x
  · rfl

theorem cur_settleTxn (s : State) (n q : Nat) : ((s.settleTxn n).point q).cur = (s.point q).cur := by
  have hPoint : (s.settleTxn n).point q = settledFor n (s.point q) := get_map_points (settledFor n) rfl s.img.points q
  rw [hPoint, cur_settledFor]

theorem exec_settleComplete (hRun : s.inReset = false) (n : Nat) :
    exec (.settleComplete n) s = .next (if s.imgSlot n = 3 then (s.settleTxn n).freeSlot n else s) :=
  congrArg Host.Outcome.next (live_of_running hRun _)

theorem settled_spec (s : State) (n : Nat) : ((s.settleTxn n).freeSlot n).imgSlot n = 0 ∧
    ∀ q, (((s.settleTxn n).freeSlot n).point q).cur = (s.point q).cur := by
  have hCur := cur_settleTxn s n
  generalize s.settleTxn n = u at hCur
  have hFreed := freeSlot_freed u n
  refine ⟨?_, fun q => ?_⟩
  · show fieldGet ((u.freeSlot n).reg (Reg.IMG_SLOT n)) 0 2 = 0
    rw [hFreed.free.1]
    rfl
  · rw [point_of_points hFreed.points, hCur]

/-! ### Records that return -/

theorem retry_nil (drop : ImgWait → Bool) (s : State) (kept : List ImgWait) (seen : List Ident) :
    s.retry drop kept seen [] = s.setImg { s.img with waiting := kept } := rfl

theorem exec_cowRecordsFreed (hRun : s.inReset = false) (hWaiting : s.img.waiting = []) : exec .cowRecordsFreed s =
    .next (((s.setFld Fld.IMG_COW_STAT_FREE (s.fld Fld.IMG_COW_STAT_FREE + s.img.freed)).setImg { s.img with freed := 0 }).setImg
      { s.img with freed := 0, waiting := [] }) := by
  refine congrArg Host.Outcome.next ((live_of_running hRun _).trans ?_)
  dsimp only
  rw [img_setImg, hWaiting, retry_nil, img_setImg]

/-! ### The end of a COMMIT -/

/-- What the end of a COMMIT with nothing behind it leaves. -/
theorem endCommit_spec (s : State) (who : Ident) {code : Nat} (hCmds : s.img.cmds = []) (hWaiting : s.img.waiting = []) (hCode : code < 65536) :
    (s.endCommit who code).fld (Fld.IMG_RES_RESULT (imgBlock who)) = code ∧
      (s.endCommit who code).img.points = s.img.points ∧ (s.endCommit who code).img.epoch = s.img.epoch ∧
      ∀ a, imgOwn a → a ≠ Reg.IMG_STAT → (s.endCommit who code).reg a = s.reg a := by
  have hb := imgBlock_le who
  have hOff (a : Nat) (ha : a ≠ Reg.IMG_STAT) : ((s.setImg { s.img with run := none }).setFlag Fld.IMG_STAT_COMMITTING false).reg a = s.reg a :=
    reg_setFlag_ne _ _ ha
  have hImg : ((s.setImg { s.img with run := none }).setFlag Fld.IMG_STAT_COMMITTING false).img = { s.img with run := none } := rfl
  have hEnd : s.endCommit who code = let u := ((((s.setImg { s.img with run := none }).setFlag Fld.IMG_STAT_COMMITTING false).imgDone who code).showImg).runCmds
      u.retry (fun _ => false) [] [] u.img.waiting := rfl
  rw [hEnd]
  generalize (s.setImg { s.img with run := none }).setFlag Fld.IMG_STAT_COMMITTING false = u at hOff hImg
  obtain ⟨hResult, _⟩ := imgDone_res u who hCode
  have hDoneImg := img_imgDone u who code
  have hDoneReg (a : Nat) (ha : imgOwn a) : (u.imgDone who code).reg a = u.reg a := by
    obtain ⟨hRes, hCnt, hMerge⟩ := imgOwn_apart ha (imgBlock who)
    exact reg_imgDone_ne u who code hRes hCnt hMerge
  generalize u.imgDone who code = v at hResult hDoneImg hDoneReg
  have hShowReg (a : Nat) (ha : a ≠ Reg.IMG_STAT) := reg_showImg v ha
  have hShowImg : v.showImg.img = v.img := rfl
  generalize v.showImg = w at hShowReg hShowImg
  have hWImg : w.img = { s.img with run := none } := by rw [hShowImg, hDoneImg, hImg]
  have hRuns : w.runCmds = w := by
    unfold runCmds
    rw [hWImg]
    dsimp only
    rw [hCmds]
  have hRetry : w.retry (fun _ => false) [] [] w.img.waiting = w.setImg { w.img with waiting := [] } := by
    rw [hWImg]
    dsimp only
    rw [hWaiting, retry_nil, hWImg]
  dsimp only
  rw [hRuns, hRetry]
  refine ⟨?_, ?_, ?_, fun a ha hStat => ?_⟩
  · rw [fld_setImg, fld_of_reg (f := Fld.IMG_RES_RESULT (imgBlock who)) (hShowReg _ ?_), hResult]
    show Reg.IMG_RES (imgBlock who) ≠ Reg.IMG_STAT
    have hLow := (imgRes_apart hb).2.2
    unfold Reg.IMG_STAT
    omega
  · rw [img_setImg, hWImg]
  · rw [img_setImg, hWImg]
  · rw [reg_setImg, hShowReg a hStat, hDoneReg a ha, hOff a hStat]

/-! ### The processing of a COMMIT -/

/-- What the image controller holds of points, pins and stamps. -/
structure ImgSame (s t : State) : Prop where
  points : t.img.points = s.img.points
  epoch : t.img.epoch = s.img.epoch
  txns : t.img.txns = s.img.txns
  pins : t.img.pins = s.img.pins
  cow : t.img.cow = s.img.cow
  aged : t.img.aged = s.img.aged
  tb : t.tb = s.tb
  reg : ∀ a, imgOwn a → a ≠ Reg.IMG_STAT → (∀ n, n < 64 → a ≠ Reg.IMG_SLOT n) → t.reg a = s.reg a

theorem ImgSame.trans (h : ImgSame s t) (g : ImgSame t u) : ImgSame s u :=
  ⟨g.points.trans h.points, g.epoch.trans h.epoch, g.txns.trans h.txns, g.pins.trans h.pins, g.cow.trans h.cow, g.aged.trans h.aged,
    g.tb.trans h.tb, fun a ha hStat hSlot => (g.reg a ha hStat hSlot).trans (h.reg a ha hStat hSlot)⟩

theorem ImgSame.txn (h : ImgSame s t) (n : Nat) : t.imgTxn n = s.imgTxn n := by rw [imgTxn, h.txns, imgTxn]

theorem ImgSame.pinReg (h : ImgSame s t) {a : Nat} (hlo : 0x700300 ≤ a) (hhi : a < 0x700380) : t.reg a = s.reg a := by
  refine h.reg a ⟨by omega, hhi⟩ (by unfold Reg.IMG_STAT; omega) fun n hn => ?_
  unfold Reg.IMG_SLOT
  omega

theorem ImgSame.cowNeed (h : ImgSame s t) (p : Nat) : t.cowNeed p = s.cowNeed p := by
  refine List.filter_congr fun k hk => ?_
  have hk8 := List.mem_range.mp hk
  have hFirst : t.reg (Reg.IMG_PIN_FIRST k) = s.reg (Reg.IMG_PIN_FIRST k) :=
    h.pinReg (by unfold Reg.IMG_PIN_FIRST; omega) (by unfold Reg.IMG_PIN_FIRST; omega)
  have hCount : t.reg (Reg.IMG_PIN_COUNT k) = s.reg (Reg.IMG_PIN_COUNT k) :=
    h.pinReg (by unfold Reg.IMG_PIN_COUNT; omega) (by unfold Reg.IMG_PIN_COUNT; omega)
  have hCovers : t.pinCovers k p = s.pinCovers k p := by
    rw [pinCovers, pinHeld_of_reg hFirst, fld_of_reg (f := Fld.IMG_PIN_FIRST_FIRST k) hFirst,
      fld_of_reg (f := Fld.IMG_PIN_COUNT_COUNT k) hCount, pinCovers]
  have hEpoch : t.pinEpoch k = s.pinEpoch k := by rw [pinEpoch, h.pins, pinEpoch]
  have hCow : t.cowOf k p = s.cowOf k p := by rw [cowOf, h.cow, cowOf]
  rw [hCovers, hEpoch, hCow, point_of_points h.points]

theorem ImgSame.stamped (h : ImgSame s t) (w : Write) : t.stamped w = s.stamped w := by
  have hLow : t.fld Fld.IMG_BASE_SEC_LO_SEC = s.fld Fld.IMG_BASE_SEC_LO_SEC :=
    fld_of_reg (h.reg Reg.IMG_BASE_SEC_LO (by unfold imgOwn Reg.IMG_BASE_SEC_LO; omega) (by decide)
      fun n _ => by unfold Reg.IMG_BASE_SEC_LO Reg.IMG_SLOT; omega)
  have hHigh : t.fld Fld.IMG_BASE_SEC_HI_SEC = s.fld Fld.IMG_BASE_SEC_HI_SEC :=
    fld_of_reg (h.reg Reg.IMG_BASE_SEC_HI (by unfold imgOwn Reg.IMG_BASE_SEC_HI; omega) (by decide)
      fun n _ => by unfold Reg.IMG_BASE_SEC_HI Reg.IMG_SLOT; omega)
  have hTime : t.repeaterTime 8 = s.repeaterTime 8 := by
    unfold repeaterTime repeater
    rw [h.tb]
  have hStamp (i : Instant) : t.imgStamp i = s.imgStamp i := by
    unfold imgStamp
    rw [hLow, hHigh]
  rw [State.stamped, hTime, hStamp, State.stamped]

/-- The COMMIT at the front taken from the queue. -/
def commitTaken (s : State) (who : Ident) (n : Nat) : State :=
  (s.setImg { s.img with cmds := [], nextCmd := s.cycle + 64 }).setFld (Fld.IMG_RES_SLOT (imgBlock who)) n

theorem commitTaken_same (s : State) (who : Ident) (n : Nat) : ImgSame s (s.commitTaken who n) :=
  ⟨rfl, rfl, rfl, rfl, rfl, rfl, rfl, fun a ha _ _ => (reg_setFld_ne _ _ (imgOwn_apart ha (imgBlock who)).1).trans (reg_setImg ..)⟩

theorem commitTaken_rest (s : State) (who : Ident) (n : Nat) : (s.commitTaken who n).img.cmds = [] ∧
    (s.commitTaken who n).img.waiting = s.img.waiting ∧ (s.commitTaken who n).img.run = s.img.run ∧
    (s.commitTaken who n).variant = s.variant ∧ ∀ a, imgOwn a → (s.commitTaken who n).reg a = s.reg a :=
  ⟨rfl, rfl, rfl, rfl, fun _ ha => (reg_setFld_ne _ _ (imgOwn_apart ha (imgBlock who)).1).trans (reg_setImg ..)⟩

/-- The COMMIT in processing. -/
def commitRuns (s : State) (who : Ident) (n : Nat) : State :=
  let s := (s.setFld (Fld.IMG_SLOT_STATE n) 2).setFlag Fld.IMG_STAT_COMMITTING true
  (s.setImg { s.img with run := some { who := who, slot := n, flow := none, since := s.cycle, hit := false } }).showImg

section
variable (hn : n < s.variant.imgSlots) (hAged : s.isAged n who = false) (hOpen : s.imgSlot n = 1) (hHolder : s.imgHolder n = who)
  (hRecipe : s.flag (Fld.IMG_SLOT_RECIPE n) = false) (hOvf : s.flag (Fld.IMG_SLOT_OVF n) = false)
include hn hAged hOpen hHolder hRecipe hOvf

theorem checkCommit_eq : (s.setImg { s.img with cmds := [(who, .commit n none)] }).checkCommit =
    if (s.imgTxn n).set.any fun p => decide ((s.imgTxn n).begin < (s.point p.1).last) then (s.commitTaken who n).conflictCommit who n
    else (s.commitTaken who n).commitRuns who n := by
  have hSlots : s.variant.imgSlots ≤ 64 := by cases s.variant <;> decide
  have hSame := commitTaken_same s who n
  obtain ⟨_, _, _, hVariant, hReg⟩ := commitTaken_rest s who n
  have hSlotReg := hReg (Reg.IMG_SLOT n) (by unfold imgOwn Reg.IMG_SLOT; omega)
  have hCheck : (s.setImg { s.img with cmds := [(who, .commit n none)] }).checkCommit = let u := s.commitTaken who n
      if u.variant.imgSlots ≤ n then u.endCommit who Code.badArg
      else if u.isAged n who then u.endCommit who Code.stale
      else if u.imgSlot n ≠ 1 ∨ u.imgHolder n ≠ who ∨ (u.flag (Fld.IMG_SLOT_RECIPE n) ∧ u.mode = Mode.safeHold) then
        u.endCommit who Code.wrongState
      else if u.flag (Fld.IMG_SLOT_OVF n) then u.endCommit who Code.noResource
      else if (u.imgTxn n).set.any fun p => decide ((u.imgTxn n).begin < (u.point p.1).last) then u.conflictCommit who n
      else u.commitRuns who n := rfl
  rw [hCheck]
  generalize s.commitTaken who n = u at hSame hVariant hSlotReg
  have hAged' : u.isAged n who = false := by rw [isAged, hSame.aged, ← isAged, hAged]
  have hRecipe' : u.flag (Fld.IMG_SLOT_RECIPE n) = false := (flag_of_reg hSlotReg).trans hRecipe
  have hOvf' : u.flag (Fld.IMG_SLOT_OVF n) = false := (flag_of_reg hSlotReg).trans hOvf
  have hPoint (q : Nat) : u.point q = s.point q := point_of_points hSame.points q
  dsimp only
  rw [hVariant, if_neg (Nat.not_le.mpr hn), hAged', if_neg Bool.false_ne_true, imgSlot_of_reg hSlotReg, imgHolder_of_reg hSlotReg, if_neg,
    hOvf', if_neg Bool.false_ne_true, hSame.txn]
  · simp only [hPoint]
  · rintro (h | h | h)
    · exact h hOpen
    · exact h hHolder
    · rw [hRecipe'] at h
      exact Bool.false_ne_true h.1

end

/-- A conflict ends the transaction. -/
theorem conflictCommit_spec (s : State) (who : Ident) (hn : n < 64) (hCmds : s.img.cmds = []) (hWaiting : s.img.waiting = []) :
    (s.conflictCommit who n).imgSlot n = 0 ∧ (s.conflictCommit who n).img.points = s.img.points ∧
      (s.conflictCommit who n).fld (Fld.IMG_RES_RESULT (imgBlock who)) = 6 := by
  obtain ⟨hPoints, _, ⟨hCmds', hWaiting', _⟩, _, ⟨hZero, _⟩, _⟩ := rollbackSlot_freed s hn
  have hOwn : imgOwn (Reg.IMG_SLOT n) := by unfold imgOwn Reg.IMG_SLOT; omega
  have hNotStat : Reg.IMG_SLOT n ≠ Reg.IMG_STAT := by unfold Reg.IMG_SLOT Reg.IMG_STAT; omega
  unfold conflictCommit
  generalize s.rollbackSlot n = u at hPoints hCmds' hWaiting' hZero
  have hCounted : (u.count Fld.IMG_TXN_CNT_CONFLICTS).img = u.img := count_img ..
  have hReg : (u.count Fld.IMG_TXN_CNT_CONFLICTS).reg (Reg.IMG_SLOT n) = 0 := by
    rw [reg_count_ne _ _ (by show Reg.IMG_SLOT n ≠ Reg.IMG_TXN_CNT; unfold Reg.IMG_SLOT Reg.IMG_TXN_CNT; omega), hZero]
  generalize u.count Fld.IMG_TXN_CNT_CONFLICTS = v at hCounted hReg
  obtain ⟨hResult, hPoints', _, hKept⟩ := endCommit_spec v who (code := Code.conflict) (by rw [hCounted, hCmds', hCmds])
    (by rw [hCounted, hWaiting', hWaiting]) (by decide)
  refine ⟨?_, by rw [hPoints', hCounted, hPoints], hResult⟩
  show fieldGet (State.reg _ (Reg.IMG_SLOT n)) 0 2 = 0
  rw [hKept _ hOwn hNotStat, hReg]
  rfl

/-- A COMMIT in processing, its slot APPLYING. -/
theorem commitRuns_spec (s : State) (who : Ident) (hn : n < 64) : (s.commitRuns who n).imgSlot n = 2 ∧
    (s.commitRuns who n).img.run = some { who := who, slot := n, flow := none, since := s.cycle, hit := false } ∧
    (s.commitRuns who n).flag Fld.IMG_STAT_COMMITTING = true ∧ (s.commitRuns who n).img.cmds = s.img.cmds ∧
    (s.commitRuns who n).img.waiting = s.img.waiting ∧ ImgSame s (s.commitRuns who n) := by
  have hSlot : ((s.setFld (Fld.IMG_SLOT_STATE n) 2).setFlag Fld.IMG_STAT_COMMITTING true).fld (Fld.IMG_SLOT_STATE n) = 2 := by
    have hReg : ((s.setFld (Fld.IMG_SLOT_STATE n) 2).setFlag Fld.IMG_STAT_COMMITTING true).reg (Reg.IMG_SLOT n) =
        (s.setFld (Fld.IMG_SLOT_STATE n) 2).reg (Reg.IMG_SLOT n) :=
      reg_setFlag_ne _ _ (by show Reg.IMG_SLOT n ≠ Reg.IMG_STAT; unfold Reg.IMG_SLOT Reg.IMG_STAT; omega)
    rw [fld_of_reg (f := Fld.IMG_SLOT_STATE n) hReg, fld_setFld_on _ _ rfl]
    rfl
  have hCommitting : ((s.setFld (Fld.IMG_SLOT_STATE n) 2).setFlag Fld.IMG_STAT_COMMITTING true).flag Fld.IMG_STAT_COMMITTING = true :=
    flag_setFlag_on _ _ rfl rfl
  have hImg : ((s.setFld (Fld.IMG_SLOT_STATE n) 2).setFlag Fld.IMG_STAT_COMMITTING true).img = s.img := rfl
  have hTb : ((s.setFld (Fld.IMG_SLOT_STATE n) 2).setFlag Fld.IMG_STAT_COMMITTING true).tb = s.tb := rfl
  have hCycle : ((s.setFld (Fld.IMG_SLOT_STATE n) 2).setFlag Fld.IMG_STAT_COMMITTING true).cycle = s.cycle := rfl
  have hReg (a : Nat) (hStat : a ≠ Reg.IMG_STAT) (hNot : a ≠ Reg.IMG_SLOT n) :
      ((s.setFld (Fld.IMG_SLOT_STATE n) 2).setFlag Fld.IMG_STAT_COMMITTING true).reg a = s.reg a := by
    rw [reg_setFlag_ne _ _ hStat, reg_setFld_ne _ _ hNot]
  unfold commitRuns
  dsimp only
  generalize (s.setFld (Fld.IMG_SLOT_STATE n) 2).setFlag Fld.IMG_STAT_COMMITTING true = u at hSlot hCommitting hImg hTb hCycle hReg
  rw [hImg, hCycle]
  have hShown (x : Image) : (u.setImg x).showImg.img = x := rfl
  have hShownReg (x : Image) {a : Nat} (ha : a ≠ Reg.IMG_STAT) : (u.setImg x).showImg.reg a = u.reg a :=
    (reg_showImg _ ha).trans (reg_setImg ..)
  refine ⟨?_, by rw [hShown], ?_, by rw [hShown], by rw [hShown], ?_⟩
  · have hSlotReg := hShownReg { s.img with run := some { who := who, slot := n, flow := none, since := s.cycle, hit := false } }
      (a := Reg.IMG_SLOT n) (by unfold Reg.IMG_SLOT Reg.IMG_STAT; omega)
    rw [imgSlot_of_reg hSlotReg]
    exact hSlot
  · rw [showImg, flag_setFld_off _ _ rfl, flag_setFld_off _ _ rfl, flag_setImg, hCommitting]
  · refine ⟨by rw [hShown], by rw [hShown], by rw [hShown], by rw [hShown], by rw [hShown], by rw [hShown], ?_, fun a _ hStat hSlots => ?_⟩
    · exact hTb
    · rw [hShownReg _ hStat, hReg a hStat (hSlots n hn)]

/-! ### The commit point -/

/-- A version of a COMMIT put in place, E raised and its slot SETTLING. -/
def commitPlaced (s : State) (p : Nat) (w : Write) (r : ImgRun) : State :=
  let e := s.img.epoch + 1
  let s := ((s.putVersion p (s.stamped w) (some r.slot) e).setEpoch e).setFld (Fld.IMG_SLOT_STATE r.slot) 3
  ((s.dropLease 2 0 r.slot).count Fld.IMG_TXN_CNT_COMMITS).imgResEpoch r.who e

theorem commitPoint_single {w : Write} {r : ImgRun} (hFlow : r.flow = none) (hSet : (s.imgTxn r.slot).set = [(p, some w)])
    (hNeed : s.cowNeed p = []) : s.commitPoint r = ((s.commitPlaced p w r).ageOut).endCommit r.who Code.ok := by
  unfold commitPoint
  rw [hFlow]
  dsimp only
  rw [hSet]
  simp only [List.foldl_cons, List.foldl_nil]
  rw [cowCopy_none hNeed]
  rfl

end Sys2Proof.Machine.State

end

section
/-!
PROOF. O51: the commit point, and the obligation.
-/

namespace Sys2Proof.Machine.State

variable {s t u : State} {who : Ident} {p k n : Nat}

theorem point_setEpoch (s : State) (e : Nat) : (s.setEpoch e).img = { s.img with epoch := e } := rfl

/-- The controller after a version is put in place. -/
theorem commitPlaced_img (s : State) (p : Nat) (w : Write) (r : ImgRun) : (s.commitPlaced p w r).img =
    { (s.putVersion p (s.stamped w) (some r.slot) (s.img.epoch + 1)).img with epoch := s.img.epoch + 1 } := rfl

theorem commitPlaced_spec (s : State) (p : Nat) (w : Write) (r : ImgRun) (hSlot : r.slot < 64) :
    (s.commitPlaced p w r).imgSlot r.slot = 3 ∧ (s.commitPlaced p w r).img.epoch = s.img.epoch + 1 ∧
      (s.commitPlaced p w r).point p = (s.point p).written (s.stamped w) (some r.slot) (s.img.epoch + 1) ∧
      (s.commitPlaced p w r).img.cmds = s.img.cmds ∧ (s.commitPlaced p w r).img.waiting = s.img.waiting := by
  have hImg := commitPlaced_img s p w r
  refine ⟨?_, by rw [hImg], ?_, by rw [hImg]; rfl, by rw [hImg]; rfl⟩
  · unfold commitPlaced imgResEpoch
    dsimp only
    generalize (s.putVersion p (s.stamped w) (some r.slot) (s.img.epoch + 1)).setEpoch (s.img.epoch + 1) = u
    show fieldGet (State.reg _ (Reg.IMG_SLOT r.slot)) 0 2 = 3
    rw [reg_setReg_ne, reg_setReg_ne, reg_count_ne]
    · have hReg : ((u.setFld (Fld.IMG_SLOT_STATE r.slot) 3).dropLease 2 0 r.slot).reg (Reg.IMG_SLOT r.slot) =
          (u.setFld (Fld.IMG_SLOT_STATE r.slot) 3).reg (Reg.IMG_SLOT r.slot) := rfl
      rw [hReg]
      exact fld_setFld_on (f := Fld.IMG_SLOT_STATE r.slot) u 3 rfl
    · show Reg.IMG_SLOT r.slot ≠ Reg.IMG_TXN_CNT
      unfold Reg.IMG_SLOT Reg.IMG_TXN_CNT
      omega
    · unfold Reg.IMG_SLOT Reg.IMG_RES_EPOCH_LO imgBlk
      split <;> omega
    · unfold Reg.IMG_SLOT Reg.IMG_RES_EPOCH_HI imgBlk
      split <;> omega
  · rw [point, hImg]
    exact point_putVersion s p (s.stamped w) (some r.slot) (s.img.epoch + 1)

/-- The commit point of a set of one write. -/
theorem commitPoint_spec {w : Write} {r : ImgRun} (hFlow : r.flow = none) (hSet : (s.imgTxn r.slot).set = [(p, some w)])
    (hNeed : s.cowNeed p = []) (hSlot : r.slot < 64) (hCmds : s.img.cmds = []) (hWaiting : s.img.waiting = []) :
    (s.commitPoint r).imgSlot r.slot = 3 ∧ (s.commitPoint r).img.epoch = s.img.epoch + 1 ∧
      (s.commitPoint r).point p = (s.point p).written (s.stamped w) (some r.slot) (s.img.epoch + 1) ∧
      (s.commitPoint r).fld (Fld.IMG_RES_RESULT (imgBlock r.who)) = 0 := by
  obtain ⟨hState, hEpoch, hPoint, hCmds', hWaiting'⟩ := commitPlaced_spec s p w r hSlot
  rw [commitPoint_single hFlow hSet hNeed]
  generalize s.commitPlaced p w r = u at hState hEpoch hPoint hCmds' hWaiting'
  have hAged := Aged.ageOut u
  generalize u.ageOut = v at hAged
  obtain ⟨hCmdsA, hWaitingA, _⟩ := hAged.queue
  obtain ⟨hResult, hPointsE, hEpochE, hReg⟩ := endCommit_spec v r.who (code := Code.ok) (by rw [hCmdsA, hCmds', hCmds])
    (by rw [hWaitingA, hWaiting', hWaiting]) (by decide)
  have hOwn : imgOwn (Reg.IMG_SLOT r.slot) := by unfold imgOwn Reg.IMG_SLOT; omega
  refine ⟨?_, by rw [hEpochE, hAged.epoch, hEpoch], ?_, hResult⟩
  · rw [imgSlot_of_reg (hReg _ hOwn (by unfold Reg.IMG_SLOT Reg.IMG_STAT; omega)),
      imgSlot_of_reg (hAged.slot r.slot hSlot (.inl (by rw [hState]; decide))).1, hState]
  · rw [point_of_points hPointsE, point_of_points hAged.points, hPoint]

theorem commitNeed_single {w : Write} (hSet : (s.imgTxn n).set = [(p, some w)]) (hNeed : s.cowNeed p = []) : s.commitNeed n = 0 := by
  rw [commitNeed, hSet, List.filter_cons_of_neg, List.filter_nil, List.length_nil]
  rw [hNeed]
  exact Bool.false_ne_true

theorem finishCommit_eq {r : ImgRun} (hRun : s.img.run = some r) (hHit : r.hit = false) (hNeed : s.commitNeed r.slot = 0) :
    s.finishCommit = s.commitPoint r := by
  unfold finishCommit
  rw [hRun]
  dsimp only
  rw [hHit, if_neg Bool.false_ne_true, hNeed, if_neg (Nat.not_lt_zero _)]

theorem exec_commitProcessing (hRun : s.inReset = false) (hFree : s.cmdFree = true) (whole : Bool) :
    exec (.commitProcessing whole) s = .next (if whole then s.checkCommit.finishCommit else s.checkCommit) := by
  refine congrArg Host.Outcome.next ((live_of_running hRun _).trans ?_)
  dsimp only
  rw [hFree, if_pos rfl]

theorem cmdFree_front (h : ImgFree s) (l : List (Ident × ImgCmd)) : (s.setImg { s.img with cmds := l }).cmdFree = true := by
  show (s.img.run.isNone && decide (s.img.nextCmd ≤ s.cycle)) = true
  rw [h.run, decide_eq_true h.next]
  rfl

theorem exec_commitFront (hRun : s.inReset = false) (h : ImgFree s) (l : List (Ident × ImgCmd)) (whole : Bool) :
    exec (.commitProcessing whole) (s.setImg { s.img with cmds := l }) = .next (if whole then
      (s.setImg { s.img with cmds := l }).checkCommit.finishCommit else (s.setImg { s.img with cmds := l }).checkCommit) := by
  have hFree := cmdFree_front h l
  have hReset : (s.setImg { s.img with cmds := l }).inReset = false := hRun
  generalize s.setImg { s.img with cmds := l } = u at hFree hReset
  exact exec_commitProcessing hReset hFree whole

/-! ### A write that waited too long -/

theorem retry_dropped (drop : ImgWait → Bool) (s : State) (c : ImgWait) (hOwn : s.ownCmd c.who = false) (hDrop : drop c = true) :
    s.retry drop [] [] [c] = ((s.count Fld.IMG_ERR_COW_DROP).imgErr c.who).setImg
      { ((s.count Fld.IMG_ERR_COW_DROP).imgErr c.who).img with waiting := [] } := by
  unfold retry
  dsimp only
  rw [List.any_nil, if_neg Bool.false_ne_true, hOwn, if_neg Bool.false_ne_true, hDrop]
  rfl

theorem dropped_spec (s : State) (who : Ident) :
    ((s.count Fld.IMG_ERR_COW_DROP).imgErr who).img.points = s.img.points ∧
      ((s.count Fld.IMG_ERR_COW_DROP).imgErr who).fld Fld.IMG_ERR_COW_DROP = min 255 (s.fld Fld.IMG_ERR_COW_DROP + 1) := by
  obtain ⟨hImg, hReg⟩ := imgErr_keeps (s.count Fld.IMG_ERR_COW_DROP) who
  refine ⟨by rw [hImg, count_img], ?_⟩
  rw [fld_of_reg (f := Fld.IMG_ERR_COW_DROP) hReg]
  exact fld_count_on (f := Fld.IMG_ERR_COW_DROP) s 1 rfl

theorem exec_cowWaitTimeout (hRun : s.inReset = false) (hNone : s.img.run = none) : exec .cowWaitTimeout s =
    .next (s.retry (fun w => decide (w.since + s.cowWait ≤ s.cycle) &&
      (match w.req with | .write _ _ _ => true | .add _ _ _ | .cmd _ => false)) [] [] s.img.waiting) := by
  refine congrArg Host.Outcome.next ((live_of_running hRun _).trans ?_)
  dsimp only
  rw [hNone] <;> rfl

/-- A direct write past the longest wait. -/
theorem cowWaitTimeout_spec (hRun : s.inReset = false) (h : ImgFree s) {c : ImgWait} {w : Write}
    (hDue : c.since + s.fld Fld.IMG_COW_WAIT_WAIT_US * 800 ≤ s.cycle) (hReq : c.req = .write p w none) :
    ∃ t, exec .cowWaitTimeout (s.setImg { s.img with waiting := [c] }) = .next t ∧ t.img.waiting = [] ∧
      t.img.points = s.img.points ∧ t.fld Fld.IMG_ERR_COW_DROP = min 255 (s.fld Fld.IMG_ERR_COW_DROP + 1) := by
  have hOwn : (s.setImg { s.img with waiting := [c] }).ownCmd c.who = false := ownCmd_free h c.who
  have hNone : (s.setImg { s.img with waiting := [c] }).img.run = none := h.run
  have hReset : (s.setImg { s.img with waiting := [c] }).inReset = false := hRun
  have hWait : c.since + (s.setImg { s.img with waiting := [c] }).cowWait ≤ (s.setImg { s.img with waiting := [c] }).cycle := hDue
  have hWaiting : (s.setImg { s.img with waiting := [c] }).img.waiting = [c] := rfl
  have hPoints : (s.setImg { s.img with waiting := [c] }).img.points = s.img.points := rfl
  have hErr : (s.setImg { s.img with waiting := [c] }).fld Fld.IMG_ERR_COW_DROP = s.fld Fld.IMG_ERR_COW_DROP := rfl
  generalize s.setImg { s.img with waiting := [c] } = u at hOwn hNone hReset hWait hWaiting hPoints hErr
  obtain ⟨hPoints', hErr'⟩ := dropped_spec u c.who
  refine ⟨_, exec_cowWaitTimeout hReset hNone, ?_⟩
  rw [hWaiting, retry_dropped _ _ _ hOwn (by rw [decide_eq_true hWait, hReq]; rfl)]
  generalize (u.count Fld.IMG_ERR_COW_DROP).imgErr c.who = v at hPoints' hErr'
  exact ⟨rfl, hPoints'.trans hPoints, hErr'.trans (by rw [hErr])⟩

/-! ### The commands of an identity -/

theorem exec_clearSweepDone (hRun : s.inReset = false) (hMode : s.mode ≠ Mode.boot) :
    exec .clearSweepDone s = .next (s.setFlag Fld.IMG_STAT_READY true) :=
  congrArg Host.Outcome.next ((live_of_running hRun _).trans (if_neg hMode))

theorem exec_imgBegin (h : s.serves who = true) (recipe : Bool) : exec (.imgBegin who recipe) s = .next (s.imgCommand who (.begin recipe)) :=
  congrArg Host.Outcome.next (served_of_serves h _)

theorem exec_imgCommit (h : s.serves who = true) (n : Nat) :
    exec (.imgCommit who n) s = .next (s.imgCommand who (.commit n (s.carriedFlow (imgBlock who)))) :=
  congrArg Host.Outcome.next (served_of_serves h _)

theorem exec_imgRollback (h : s.serves who = true) (n : Nat) : exec (.imgRollback who n) s = .next (s.imgCommand who (.rollback n)) :=
  congrArg Host.Outcome.next (served_of_serves h _)

theorem exec_pin (h : s.serves who = true) : exec (.pin who) s = .next (s.imgCommand who
    (.pin (s.fld (Fld.IMG_ARG0_FIRST (imgBlock who))) (s.fld (Fld.IMG_ARG1_COUNT (imgBlock who))))) :=
  congrArg Host.Outcome.next (served_of_serves h _)

theorem exec_unpin (h : s.serves who = true) (n : Nat) : exec (.unpin who n) s = .next (s.imgCommand who (.unpin n)) :=
  congrArg Host.Outcome.next (served_of_serves h _)

/-- A command while one is in progress, or after one of the same cycle. -/
theorem exec_imgCommand_lost (h : s.serves who = true)
    (hLost : s.flag (Fld.IMG_RES_DONE (imgBlock who)) = false ∨ s.took (Reg.IMG_RES (imgBlock who)) = true) (recipe : Bool) (k : Nat)
    {i : Instr} (hi : i ∈ [Instr.imgBegin who recipe, .imgCommit who k, .imgRollback who k, .pin who, .unpin who k]) :
    ∃ t, exec i s = .next t ∧ t.flag (Fld.IMG_RES_LOST (imgBlock who)) = true ∧ t.img = s.img := by
  have hSpec : (s.setFlag (Fld.IMG_RES_LOST (imgBlock who)) true).flag (Fld.IMG_RES_LOST (imgBlock who)) = true ∧
      (s.setFlag (Fld.IMG_RES_LOST (imgBlock who)) true).img = s.img := ⟨flag_setFlag_on _ _ rfl rfl, setFlag_img ..⟩
  simp only [List.mem_cons, List.not_mem_nil, or_false] at hi
  rcases hi with rfl | rfl | rfl | rfl | rfl
  · exact ⟨_, (exec_imgBegin h recipe).trans (congrArg _ (imgCommand_lost hLost _)), hSpec⟩
  · exact ⟨_, (exec_imgCommit h k).trans (congrArg _ (imgCommand_lost hLost _)), hSpec⟩
  · exact ⟨_, (exec_imgRollback h k).trans (congrArg _ (imgCommand_lost hLost _)), hSpec⟩
  · exact ⟨_, (exec_pin h).trans (congrArg _ (imgCommand_lost hLost _)), hSpec⟩
  · exact ⟨_, (exec_unpin h k).trans (congrArg _ (imgCommand_lost hLost _)), hSpec⟩

/-! ### What a command finds as its processing begins -/

section
variable (h : CmdBegun s u who)
include h

theorem CmdBegun.own {a : Nat} (ha : imgOwn a) : u.reg a = s.reg a := h.reg a (imgOwn_apart ha (imgBlock who)).1

theorem CmdBegun.slotReg (hn : n < 64) : u.reg (Reg.IMG_SLOT n) = s.reg (Reg.IMG_SLOT n) := h.own (by unfold imgOwn Reg.IMG_SLOT; omega)

theorem CmdBegun.slot (hn : n < 64) : u.imgSlot n = s.imgSlot n := imgSlot_of_reg (h.slotReg hn)

theorem CmdBegun.holder (hn : n < 64) : u.imgHolder n = s.imgHolder n := imgHolder_of_reg (h.slotReg hn)

theorem CmdBegun.pin (hk : k < 8) : u.pinHeld k = s.pinHeld k := pinHeld_of_reg (h.own (by unfold imgOwn Reg.IMG_PIN_FIRST; omega))

theorem CmdBegun.pinOwner (hk : k < 8) : u.pinHolder k = s.pinHolder k :=
  pinHolder_of_reg (h.own (by unfold imgOwn Reg.IMG_PIN_HOLDER; omega))

theorem CmdBegun.aged (n : Nat) : u.isAged n who = s.isAged n who := by rw [isAged, h.img, isAged]

theorem CmdBegun.mode : u.mode = s.mode := fld_of_reg (h.reg Reg.SYS_MODE (by
  have hLow := (imgRes_apart (imgBlock_le who)).2.2
  unfold Reg.SYS_MODE
  omega))

theorem CmdBegun.freeSlot : ((List.range u.variant.imgSlots).find? fun t => u.imgSlot t == 0) =
    (List.range s.variant.imgSlots).find? fun t => s.imgSlot t == 0 := by
  have hSlots : s.variant.imgSlots ≤ 64 := by cases s.variant <;> decide
  rw [h.variant]
  exact List.find?_congr fun t ht => by rw [h.slot (Nat.lt_of_lt_of_le (List.mem_range.mp ht) hSlots)]

theorem CmdBegun.freePin : ((List.range 8).find? fun k => !u.pinHeld k) = (List.range 8).find? fun k => !s.pinHeld k :=
  List.find?_congr fun k hk => by rw [h.pin (List.mem_range.mp hk)]

end

/-! ### The command clauses -/

section
variable (hServes : s.serves who = true) (hFree : ImgFree s) (hDone : s.flag (Fld.IMG_RES_DONE (imgBlock who)) = true)
  (hFirst : s.took (Reg.IMG_RES (imgBlock who)) = false)
include hServes hFree hDone hFirst

theorem exec_imgBegin_runs (recipe : Bool) : exec (.imgBegin who recipe) s = .next ((s.cmdBegun who).runBegin who recipe) :=
  (exec_imgBegin hServes recipe).trans (congrArg _ (imgCommand_runs hFree hDone hFirst rfl))

theorem exec_imgRollback_runs (n : Nat) : exec (.imgRollback who n) s = .next ((s.cmdBegun who).runRollback who n) :=
  (exec_imgRollback hServes n).trans (congrArg _ (imgCommand_runs hFree hDone hFirst rfl))

theorem exec_pin_runs : exec (.pin who) s = .next ((s.cmdBegun who).runPin who (s.fld (Fld.IMG_ARG0_FIRST (imgBlock who)))
    (s.fld (Fld.IMG_ARG1_COUNT (imgBlock who)))) :=
  (exec_pin hServes).trans (congrArg _ (imgCommand_runs hFree hDone hFirst rfl))

theorem exec_unpin_runs (n : Nat) : exec (.unpin who n) s = .next ((s.cmdBegun who).runUnpin who n) :=
  (exec_unpin hServes n).trans (congrArg _ (imgCommand_runs hFree hDone hFirst rfl))

theorem imgCommit_pending (n : Nat) : ∃ t, exec (.imgCommit who n) s = .next t ∧
    t.img.cmds = [(who, .commit n (s.carriedFlow (imgBlock who)))] ∧ t.fld (Fld.IMG_RES_RESULT (imgBlock who)) = 1 ∧
      t.flag (Fld.IMG_RES_DONE (imgBlock who)) = false := by
  obtain ⟨hImg, hResult, hNot⟩ := commitWaits_spec (s.taken (Reg.IMG_RES (imgBlock who))) (imgBlock who)
    { s.img with cmds := [(who, .commit n (s.carriedFlow (imgBlock who)))] }
  exact ⟨_, (exec_imgCommit hServes n).trans (congrArg _ (imgCommand_commit hFree hDone hFirst n _)), by rw [hImg], hResult, hNot⟩

end

/-- ROLLBACK of an open slot of its own. -/
theorem runRollback_spec (hk : k < s.variant.imgSlots) (hAged : s.isAged k who = false) (hOpen : s.imgSlot k = 1)
    (hHolder : s.imgHolder k = who) :
    (s.runRollback who k).fld (Fld.IMG_RES_RESULT (imgBlock who)) = 0 ∧
      (s.runRollback who k).flag (Fld.IMG_RES_DONE (imgBlock who)) = true ∧ (s.runRollback who k).imgSlot k = 0 ∧
      (s.runRollback who k).imgTxn k = {} ∧ (s.runRollback who k).img.points = s.img.points := by
  have hk64 : k < 64 := by
    have hSlots : s.variant.imgSlots ≤ 64 := by cases s.variant <;> decide
    omega
  obtain ⟨hPoints, _, _, _, ⟨hZero, hTxn⟩, _⟩ := rollbackSlot_freed (s.setFld (Fld.IMG_RES_SLOT (imgBlock who)) k) hk64
  rw [runRollback_open hk hAged hOpen hHolder]
  have hPoints' : (s.setFld (Fld.IMG_RES_SLOT (imgBlock who)) k).img.points = s.img.points := rfl
  rw [hPoints'] at hPoints
  generalize (s.setFld (Fld.IMG_RES_SLOT (imgBlock who)) k).rollbackSlot k = u at hPoints hZero hTxn
  obtain ⟨hResult, hDone, _⟩ := imgDone_res u who (code := Code.ok) (by decide)
  have hImg := img_imgDone u who Code.ok
  obtain ⟨hRes, hCnt, hMerge⟩ := imgOwn_apart (a := Reg.IMG_SLOT k) (by unfold imgOwn Reg.IMG_SLOT; omega) (imgBlock who)
  refine ⟨hResult, hDone, ?_, by rw [imgTxn, hImg, ← imgTxn, hTxn], by rw [hImg, hPoints]⟩
  rw [imgSlot_of_reg (reg_imgDone_ne u who Code.ok hRes hCnt hMerge)]
  show fieldGet (u.reg (Reg.IMG_SLOT k)) 0 2 = 0
  rw [hZero]
  rfl

/-! ### The processing of a COMMIT that passes its checks -/

theorem stamped_wrote {w : Ver} {e : Nat} {x : Option Nat} (h : t.point p = (s.point p).written w x e) :
    (t.point p).cur = .version w ∧ (t.point p).prev = (s.point p).cur ∧ (t.point p).last = e ∧ (t.point p).lost = false := by
  rw [h]
  exact Point.written_spec (s.point p) w x e

/-- The conflict check of a set of one write. -/
theorem no_conflict {set : Store (Option Write)} {w : Write} (hSet : set = [(p, some w)]) {b : Nat} (hOld : (s.point p).last ≤ b) :
    (set.any fun q => decide (b < (s.point q.1).last)) = false := by
  rw [hSet, List.any_cons, List.any_nil, decide_eq_false (Nat.not_lt.mpr hOld)]
  rfl

section
variable (hRun : s.inReset = false) (hFree : ImgFree s) (hk : k < s.variant.imgSlots) (hAged : s.isAged k who = false)
  (hOpen : s.imgSlot k = 1) (hHolder : s.imgHolder k = who) (hRecipe : s.flag (Fld.IMG_SLOT_RECIPE k) = false)
  (hOvf : s.flag (Fld.IMG_SLOT_OVF k) = false)
include hRun hFree hk hAged hOpen hHolder hRecipe hOvf

theorem exec_commit_conflict
    (hConflict : ((s.imgTxn k).set.any fun q => decide ((s.imgTxn k).begin < (s.point q.1).last)) = true) :
    ∃ t, exec (.commitProcessing false) (s.setImg { s.img with cmds := [(who, .commit k none)] }) = .next t ∧ t.imgSlot k = 0 ∧
      t.img.points = s.img.points ∧ t.fld (Fld.IMG_RES_RESULT (imgBlock who)) = 6 := by
  have hSlots : s.variant.imgSlots ≤ 64 := by cases s.variant <;> decide
  obtain ⟨hCmds, hWaiting, _⟩ := commitTaken_rest s who k
  obtain ⟨hSlot, hPoints, hResult⟩ := conflictCommit_spec (s.commitTaken who k) who (Nat.lt_of_lt_of_le hk hSlots) hCmds
    (hWaiting.trans hFree.waiting)
  refine ⟨_, exec_commitFront hRun hFree _ false, ?_⟩
  rw [if_neg Bool.false_ne_true, checkCommit_eq hk hAged hOpen hHolder hRecipe hOvf, if_pos hConflict]
  exact ⟨hSlot, hPoints.trans (commitTaken_same s who k).points, hResult⟩

theorem exec_commit_runs
    (hNone : ((s.imgTxn k).set.any fun q => decide ((s.imgTxn k).begin < (s.point q.1).last)) = false) :
    ∃ t r, exec (.commitProcessing false) (s.setImg { s.img with cmds := [(who, .commit k none)] }) = .next t ∧ t.imgSlot k = 2 ∧
      t.img.run = some r ∧ r.slot = k ∧ r.who = who ∧ t.flag Fld.IMG_STAT_COMMITTING = true ∧ t.img.points = s.img.points := by
  have hSlots : s.variant.imgSlots ≤ 64 := by cases s.variant <;> decide
  obtain ⟨hSlot, hRuns, hFlag, _, _, hSame⟩ := commitRuns_spec (s.commitTaken who k) who (Nat.lt_of_lt_of_le hk hSlots)
  have hExec := exec_commitFront hRun hFree [(who, .commit k none)] false
  rw [if_neg Bool.false_ne_true, checkCommit_eq hk hAged hOpen hHolder hRecipe hOvf, if_neg (by rw [hNone]; exact Bool.false_ne_true)] at hExec
  exact ⟨_, _, hExec, hSlot, hRuns, rfl, rfl, hFlag, hSame.points.trans (commitTaken_same s who k).points⟩

theorem exec_commit_whole {w : Write} (hSet : (s.imgTxn k).set = [(p, some w)]) (hOld : (s.point p).last ≤ (s.imgTxn k).begin)
    (hNeed : s.cowNeed p = []) :
    ∃ t, exec (.commitProcessing true) (s.setImg { s.img with cmds := [(who, .commit k none)] }) = .next t ∧ t.imgSlot k = 3 ∧
      t.img.epoch = s.img.epoch + 1 ∧ ((t.point p).cur = .version (s.stamped w) ∧ (t.point p).prev = (s.point p).cur ∧
        (t.point p).last = s.img.epoch + 1 ∧ (t.point p).lost = false) ∧ t.fld (Fld.IMG_RES_RESULT (imgBlock who)) = 0 := by
  have hSlots : s.variant.imgSlots ≤ 64 := by cases s.variant <;> decide
  have hk64 := Nat.lt_of_lt_of_le hk hSlots
  obtain ⟨hCmds, hWaiting, _⟩ := commitTaken_rest s who k
  obtain ⟨_, hRuns, _, hCmdsR, hWaitingR, hSame⟩ := commitRuns_spec (s.commitTaken who k) who hk64
  have hAll := (commitTaken_same s who k).trans hSame
  have hCheck := checkCommit_eq hk hAged hOpen hHolder hRecipe hOvf
  rw [if_neg (by rw [no_conflict hSet hOld]; exact Bool.false_ne_true)] at hCheck
  have hExec := exec_commitFront hRun hFree [(who, .commit k none)] true
  rw [if_pos rfl, hCheck] at hExec
  generalize (s.commitTaken who k).commitRuns who k = u at hRuns hCmdsR hWaitingR hAll hExec
  have hSetU : (u.imgTxn k).set = [(p, some w)] := by rw [hAll.txn, hSet]
  have hNeedU : u.cowNeed p = [] := by rw [hAll.cowNeed, hNeed]
  rw [finishCommit_eq hRuns rfl (commitNeed_single hSetU hNeedU)] at hExec
  obtain ⟨hSlot, hEpoch, hPoint, hResult⟩ := commitPoint_spec (s := u)
    (r := { who := who, slot := k, flow := none, since := (s.commitTaken who k).cycle, hit := false }) rfl hSetU hNeedU hk64
    (hCmdsR.trans hCmds) (hWaitingR.trans (hWaiting.trans hFree.waiting))
  refine ⟨_, hExec, hSlot, hEpoch.trans (by rw [hAll.epoch]), stamped_wrote (x := some k) ?_, hResult⟩
  rw [hPoint, hAll.stamped, hAll.epoch, point_of_points hAll.points]

end

end Sys2Proof.Machine.State

open Sys2Proof Sys2Proof.Machine Sys2Proof.Machine.State

/-- Settles O51: a command of a free controller is processed as it comes; its result is read past the age limit's sweep, and
the commit point follows from the one version it puts in place. -/
theorem processImage : Obligations.ProcessImage := by
  unfold Obligations.ProcessImage
  intro s who p v k recipe w hServes hRunNone hWaiting hCmds hNext hk
  dsimp only
  have hFree : ImgFree s := ⟨hRunNone, hWaiting, hCmds, hNext⟩
  obtain ⟨⟨hRun, -⟩, -⟩ : (s.inReset = false ∧ _) ∧ _ := by simpa [serves] using hServes
  have hk64 : k < 64 := by
    have hSlots : s.variant.imgSlots ≤ 64 := by cases s.variant <;> decide
    omega
  have hBegun := cmdBegun_spec s who
  refine ⟨fun hLocal hSel => ⟨fun hIn hFlow => ⟨fun hNeed => ?_, fun hNeed hFull => ?_⟩, fun hPast => ?_⟩,
    fun hLocal hSel hIn => ⟨fun hOpen hHolder hRoom => ?_, fun hNot => ?_⟩, fun hMode => ?_, fun hLost i hi => ?_, fun hDone hFirst => ?_,
    fun hSettling => ?_, fun hNot => ?_, ?_, fun hAged hOpen hHolder hRecipe hOvf => ⟨?_, ?_, ?_⟩, fun c hDue hReq => ?_⟩
  · have hAdvance := advanceSeq_none (s := s) (t := s.request who (.write p (s.stagedWrite (imgBlock who) (v % 2 ^ 64)) none)) hFlow
      (by rw [request_write_ready hFree hNeed]; rfl)
    refine ⟨_, exec_directWrite hServes hLocal hSel v, ?_⟩
    rw [imgStore_write hLocal hSel hIn hFlow, hAdvance, request_write_ready hFree hNeed]
    exact ⟨stamped_wrote (point_putVersion s p _ none _), fun q hq => point_putVersion_ne s _ none _ hq⟩
  · have hAdvance := advanceSeq_none (s := s) (t := s.request who (.write p (s.stagedWrite (imgBlock who) (v % 2 ^ 64)) none)) hFlow
      (by rw [request_write_waits hFree hNeed hFull]; rfl)
    refine ⟨_, exec_directWrite hServes hLocal hSel v, ?_⟩
    rw [imgStore_write hLocal hSel hIn hFlow, hAdvance, request_write_waits hFree hNeed hFull]
    exact ⟨rfl, rfl⟩
  · rw [exec_directWrite hServes hLocal hSel, imgStore_past hLocal hPast]
  · refine ⟨_, exec_writeSetAdd hServes hLocal hSel hIn v, ?_⟩
    rw [imgStore_add hFree hLocal hSel hIn]
    exact addToSet_open hOpen hHolder hRoom
  · refine ⟨_, exec_writeSetAdd hServes hLocal hSel hIn v, ?_⟩
    rw [imgStore_add hFree hLocal hSel hIn]
    exact addToSet_refused hNot
  · exact ⟨_, exec_clearSweepDone hRun hMode, flag_setFlag_on _ _ rfl rfl⟩
  · exact exec_imgCommand_lost hServes hLost recipe k hi
  · refine ⟨fun hSafe => ?_, fun n hFind hMode => ?_, fun hFull hMode => ?_, imgCommit_pending hServes hFree hDone hFirst k,
      fun hAged hOpen hHolder => ?_, fun hAged hNot => ?_, fun n hFind hCount hIn => ?_, fun hPast => ?_, fun hk8 hAged =>
        ⟨fun hHeld hHolder => ?_, fun hNot => ?_⟩⟩
    · refine ⟨_, exec_imgBegin_runs hServes hFree hDone hFirst true, ?_⟩
      rw [runBegin_safe (hBegun.mode.trans hSafe)]
      exact imgDone_refused hBegun.img who (by decide)
    · obtain ⟨hResult, hShown, hOpen, hHolder, hTxn, hEpoch, hSlot⟩ := runBegin_spec (s := s.cmdBegun who) (who := who) (recipe := recipe)
        (hMode.imp_right fun hm => by rw [hBegun.mode]; exact hm) (hBegun.freeSlot.trans hFind)
      rw [hBegun.img] at hTxn hEpoch
      exact ⟨_, exec_imgBegin_runs hServes hFree hDone hFirst recipe, hResult, hShown, hOpen, hHolder, hTxn, hEpoch, hSlot⟩
    · refine ⟨_, exec_imgBegin_runs hServes hFree hDone hFirst recipe, ?_⟩
      rw [runBegin_full (hMode.imp_right fun hm => by rw [hBegun.mode]; exact hm) fun n hn => ?_]
      · exact imgDone_refused hBegun.img who (by decide)
      · rw [hBegun.variant] at hn
        have hSlots : s.variant.imgSlots ≤ 64 := by cases s.variant <;> decide
        rw [hBegun.slot (Nat.lt_of_lt_of_le hn hSlots)]
        exact hFull n hn
    · obtain ⟨hResult, hShown, hSlot, hTxn, hPoints⟩ := runRollback_spec (s := s.cmdBegun who) (by rw [hBegun.variant]; exact hk)
        ((hBegun.aged k).trans hAged) ((hBegun.slot hk64).trans hOpen) ((hBegun.holder hk64).trans hHolder)
      rw [hBegun.img] at hPoints
      exact ⟨_, exec_imgRollback_runs hServes hFree hDone hFirst k, hResult, hShown, hSlot, hTxn, hPoints⟩
    · refine ⟨_, exec_imgRollback_runs hServes hFree hDone hFirst k, ?_⟩
      rw [runRollback_refused (by rw [hBegun.variant]; exact hk) ((hBegun.aged k).trans hAged) (by rw [hBegun.slot hk64]; exact hNot)]
      exact imgDone_refused ((setFld_img ..).trans hBegun.img) who (by decide)
    · obtain ⟨hResult, hShown, hHeld, hHolder, hPin, hEpoch, hSlot⟩ := runPin_spec (s := s.cmdBegun who) (who := who)
        (by rw [hBegun.variant]; exact hIn) hCount (hBegun.freePin.trans hFind)
      rw [hBegun.img] at hPin hEpoch
      exact ⟨_, exec_pin_runs hServes hFree hDone hFirst, hResult, hShown, hHeld, hHolder, hPin, hEpoch, hSlot⟩
    · refine ⟨_, exec_pin_runs hServes hFree hDone hFirst, ?_⟩
      rw [runPin_past (by rw [hBegun.variant]; exact hPast)]
      exact imgDone_refused hBegun.img who (by decide)
    · refine ⟨_, exec_unpin_runs hServes hFree hDone hFirst k, ?_⟩
      rw [runUnpin_held hk8 ((hBegun.aged _).trans hAged) ((hBegun.pin hk8).trans hHeld) ((hBegun.pinOwner hk8).trans hHolder)]
      obtain ⟨hResult, hShown, _⟩ := imgDone_res ((((s.cmdBegun who).setFld (Fld.IMG_RES_PIN (imgBlock who)) k).releasePin k).showImg) who
        (code := Code.ok) (by decide)
      exact ⟨hResult, hShown, pinHeld_releasePin _ hk8 who Code.ok⟩
    · refine ⟨_, exec_unpin_runs hServes hFree hDone hFirst k, ?_⟩
      rw [runUnpin_refused hk8 ((hBegun.aged _).trans hAged) ((hBegun.pin hk8).trans hNot)]
      exact imgDone_refused ((setFld_img ..).trans hBegun.img) who (by decide)
  · refine ⟨_, exec_settleComplete hRun k, ?_⟩
    rw [if_pos hSettling]
    exact settled_spec s k
  · rw [exec_settleComplete hRun, if_neg hNot]
  · refine ⟨_, exec_cowRecordsFreed hRun hWaiting, rfl, ?_⟩
    rw [fld_setImg, fld_setImg]
    exact fld_setFld_on _ _ rfl
  · exact exec_commit_conflict hRun hFree hk hAged hOpen hHolder hRecipe hOvf
  · exact exec_commit_runs hRun hFree hk hAged hOpen hHolder hRecipe hOvf
  · exact exec_commit_whole hRun hFree hk hAged hOpen hHolder hRecipe hOvf
  · exact cowWaitTimeout_spec hRun hFree hDue hReq

end

section
/-!
SUPPORT. What leaves the registers of the units between the Crossing and the districts as they were, and the Ethernet ports' own
operations: their counters, their links and the copies that end with them.
-/

namespace Sys2Proof.Machine.State

/-- `s` agrees with `r` in the registers of the units from the ports to the image, 0x310000 to 0x1000000. -/
structure WindowsKept (r s : State) : Prop where
  reg : ∀ a, 0x310000 ≤ a → a < 0x1000000 → s.reg a = r.reg a

namespace WindowsKept

variable {r s t : State}

theorem refl : WindowsKept s s := ⟨fun _ _ _ => rfl⟩

theorem trans (h : WindowsKept r s) (h' : WindowsKept s t) : WindowsKept r t :=
  ⟨fun a hlo hhi => (h'.reg a hlo hhi).trans (h.reg a hlo hhi)⟩

theorem ite {c : Prop} [Decidable c] (hs : WindowsKept r s) (ht : WindowsKept r t) : WindowsKept r (if c then s else t) := by
  split
  · exact hs
  · exact ht

theorem foldl {α : Type} {f : State → α → State} (l : List α) (hf : ∀ t x, WindowsKept t (f t x)) (s : State) : WindowsKept s (l.foldl f s) :=
  List.foldlRecOn (motive := WindowsKept s) l f refl fun _ ht x _ => ht.trans (hf _ x)

/-- A step that touches no register. -/
theorem other (ht : ∀ a, t.reg a = s.reg a) : WindowsKept s t := ⟨fun a _ _ => ht a⟩

theorem setReg (s : State) {a : Nat} (v : Word) (ha : a < 0x310000 ∨ 0x1000000 ≤ a) : WindowsKept s (s.setReg a v) :=
  ⟨fun b hlo hhi => reg_setReg_ne s v (by omega)⟩

theorem setFld (s : State) (f : Fld) (v : Nat) (hf : f.reg < 0x310000) : WindowsKept s (s.setFld f v) := setReg s _ (.inl hf)

theorem setFlag (s : State) (f : Fld) (b : Bool) (hf : f.reg < 0x310000) : WindowsKept s (s.setFlag f b) :=
  ⟨fun a hlo _ => reg_setFlag_ne s b (by omega)⟩

theorem count (s : State) (f : Fld) (k : Nat) (hf : f.reg < 0x310000) : WindowsKept s (s.count f k) :=
  ⟨fun a hlo _ => reg_count_ne s k (by omega)⟩

theorem fire (s : State) (kind index : Nat) : WindowsKept s (s.fire kind index) :=
  ⟨fun _ _ hhi => reg_fireIn s kind index _ (ne_mergeRegister (.inl (by omega)))⟩

theorem irqReg_lt (src : Nat) : irqReg src < 0x310000 := by
  unfold irqReg
  split <;> decide

theorem raiseIrq (s : State) (src : Nat) : WindowsKept s (s.raiseIrq src) :=
  ⟨fun a hlo _ => reg_raiseIrq_ne s src (by have := irqReg_lt src; omega)⟩

/-! ### The Crossing's cells, frames, queues and groups -/

theorem setFree (s : State) (n : Nat) : WindowsKept s (s.setFree n) :=
  (setFld s _ _ (by decide)).trans (setFld _ Fld.XING_BUF_STAT_MIN_FREE _ (by decide))

theorem takeCell (s : State) (f : Nat) : WindowsKept s (s.takeCell f).2 := trans (other (by exact fun _ => rfl)) (setFree _ _)

theorem takeCells (f n : Nat) (s : State) : WindowsKept s (State.takeCells f n s).2 := by
  induction n generalizing s with
  | zero => exact refl
  | succ n ih => exact (takeCell s f).trans (ih _)

theorem newFrame (s : State) (n : Nat) (x : Frame) : WindowsKept s (s.newFrame n x).2 :=
  (takeCells s.xing.nextFrame (cellsFor n) s).trans (other (by exact fun _ => rfl))

theorem storeFrame (s : State) (bs : List Byte) (x : Frame) : WindowsKept s (s.storeFrame bs x).2 := by
  unfold State.storeFrame
  dsimp only
  split
  · exact (newFrame s bs.length x).trans (other (by exact fun _ => rfl))
  · exact newFrame s bs.length x

theorem xingFatal (s : State) : WindowsKept s s.xingFatal := (setFlag s Fld.XING_STAT_FATAL true (by decide)).trans (other (by exact fun _ => rfl))

theorem giveCells (s : State) (cs : List Nat) : WindowsKept s (s.giveCells cs) := by
  have hFree (u : State) (m : Nat) (hu : ∀ a, u.reg a = s.reg a) : WindowsKept s (u.setFree m) := (other hu).trans (setFree u m)
  unfold State.giveCells
  dsimp only
  split
  · exact hFree _ _ (by exact fun _ => rfl)
  · exact (hFree _ _ (by exact fun _ => rfl)).trans (xingFatal _)

theorem leaveFlight (s : State) (gen : Nat) : WindowsKept s (s.leaveFlight gen) := ite (setFld s _ _ (by decide)) refl

theorem settleFrame (s : State) (f : Nat) : WindowsKept s (s.settleFrame f) := by
  unfold State.settleFrame
  dsimp only
  split
  · next x _ =>
    have hGiven : WindowsKept s (if x.reclaimed then s.loseCells x.cells true else s.giveCells x.cells) :=
      ite (other (by exact fun _ => rfl)) (giveCells s _)
    exact ite (ite (hGiven.trans (other (by exact fun _ => rfl))) (hGiven.trans (other (by exact fun _ => rfl)))) refl
  · exact refl

theorem endCopy (s : State) (f : Nat) (onChip : Bool) : WindowsKept s (s.endCopy f onChip) := by
  unfold State.endCopy
  dsimp only
  split
  · next x _ =>
    have hSet (y : Option Frame) : WindowsKept s (s.setFrame f y) := other (by exact fun _ => rfl)
    exact trans (ite ((hSet _).trans (leaveFlight _ _)) (hSet _)) (settleFrame _ f)
  · exact refl

theorem xing_drop_lt (reason : Nat) (h : reason < 256) : Reg.XING_DROP reason < 0x310000 := by
  unfold Reg.XING_DROP
  omega

/-- A drop with one of the reason codes of Table XING-7. -/
theorem drop (s : State) (reason source queue : Nat) (h : reason < 256) : WindowsKept s (s.drop reason source queue) := by
  have hCount : WindowsKept s (if reason = 5 then s.count Fld.XING_DUP_DROP_COUNT else s.count (Fld.XING_DROP_COUNT reason)) :=
    ite (count s _ _ (by decide)) (count s _ _ (xing_drop_lt reason h))
  unfold State.drop
  dsimp only
  generalize (if reason = 5 then s.count Fld.XING_DUP_DROP_COUNT else s.count (Fld.XING_DROP_COUNT reason)) = u at hCount
  have hNoted (w : Word) (x : Crossing) : WindowsKept s (((u.setXing x).setReg Reg.XING_DROP_LAST w).setFlag Fld.XING_DROP_LAST_VALID true) :=
    (hCount.trans (trans (other (by exact fun _ => rfl)) (setReg (u.setXing x) w (.inl (by decide))))).trans (setFlag _ _ _ (by decide))
  exact ite (hCount.trans (setFlag _ _ _ (by decide))) (hNoted _ _)

theorem dropCopy (s : State) (c : Copy) (reason : Nat) (onChip : Bool) (h : reason < 256) : WindowsKept s (s.dropCopy c reason onChip) := by
  unfold State.dropCopy
  split
  · exact (drop s _ _ _ h).trans (endCopy _ _ _)
  · exact refl

theorem showDepth (s : State) (q : Nat) : WindowsKept s (s.showDepth q) := by
  unfold State.showDepth
  dsimp only
  split
  · exact setReg s _ (.inl (by unfold Reg.XING_QDEPTH; omega))
  · exact refl

theorem setQueue (s : State) (q : Nat) (x : Queue) : WindowsKept s (s.setQueue q x) := trans (other (by exact fun _ => rfl)) (showDepth _ q)

theorem headReason_lt {s : State} {q : Nat} {c : Copy} {reason : Nat} (h : s.headReason q c = some reason) : reason < 256 := by
  unfold State.headReason at h
  dsimp only at h
  split at h
  · cases h
    decide
  · split at h
    · cases h
      decide
    · cases h

theorem settleHeads (q n : Nat) (s : State) : WindowsKept s (State.settleHeads q n s) := by
  induction n generalizing s with
  | zero => exact refl
  | succ n ih =>
    unfold State.settleHeads
    split
    · exact refl
    · split
      · next hReason => exact ((setQueue s _ _).trans (dropCopy _ _ _ _ (headReason_lt hReason))).trans (ih _)
      · exact refl

theorem settleQueue (s : State) (q : Nat) : WindowsKept s (s.settleQueue q) := settleHeads q _ s

theorem flushDest (s : State) (dest : Nat) : WindowsKept s (s.flushDest dest) := by
  have hChip (t : State) (l : List Copy) : WindowsKept t (l.foldl (fun s c => s.dropCopy c 0x0D true) t) :=
    foldl l (fun t c => dropCopy t c 0x0D true (by decide)) t
  have hSpilled (t : State) (l : List Spilled) :
      WindowsKept t (l.foldl (fun s y => (s.freeSpill y).dropCopy y.copy 0x0D y.bytes.isNone) t) :=
    foldl l (fun t y => trans (other (t := t.freeSpill y) (by exact fun _ => rfl)) (dropCopy _ y.copy 0x0D _ (by decide))) t
  have hQueues (t : State) (l : List Nat) : WindowsKept t (l.foldl (fun s q =>
      let x := s.queue q
      let s := s.setQueue q { copies := x.copies.filter (·.dest != dest)
                              spill := x.spill.filter (·.copy.dest != dest), deficit := 0 }
      let s := (x.copies.filter (·.dest == dest)).foldl (fun s c => s.dropCopy c 0x0D true) s
      (x.spill.filter (·.copy.dest == dest)).foldl (fun s y => (s.freeSpill y).dropCopy y.copy 0x0D y.bytes.isNone) s) t) :=
    foldl l (fun t _ => ((setQueue t _ _).trans (hChip _ _)).trans (hSpilled _ _)) t
  have hQueued := hQueues s (s.queuesOf dest)
  unfold State.flushDest
  dsimp only at hQueued ⊢
  refine (hQueued.trans (other (by exact fun _ => rfl))).trans (foldl _ (fun t p => ?_) _)
  exact trans (ite (other (by exact fun _ => rfl)) refl) (dropCopy _ p.1 0x0D true (by decide))

theorem lag_lt {g : Nat} (h : g < 8) : Reg.XING_LAG_STAT g < 0x310000 := by
  unfold Reg.XING_LAG_STAT
  omega

theorem lagMoved (s : State) {g : Nat} (hg : g < 8) (k : Nat) (c : Prop) [Decidable c] :
    WindowsKept s (if c then s else s.count (Fld.XING_LAG_STAT_MOVES g) k) := ite refl (count s _ _ (lag_lt hg))

theorem lagReturn (s : State) {g : Nat} (hg : g < 8) (m : Nat) : WindowsKept s (s.lagReturn g m) :=
  (lagMoved s hg 1 _).trans (foldl _ (fun _ _ => other (by exact fun _ => rfl)) _)

theorem lagDown (s : State) {g : Nat} (hg : g < 8) (m : Nat) : WindowsKept s (s.lagDown g m) := by
  unfold State.lagDown
  dsimp only
  exact ite (lagMoved s hg 1 _) ((lagMoved s hg 1 _).trans (foldl _ (fun _ _ => other (by exact fun _ => rfl)) _))

theorem lagLink (s : State) (n : Nat) (up : Bool) : WindowsKept s (s.lagLink n up) := by
  unfold State.lagLink
  dsimp only
  refine List.foldlRecOn (motive := WindowsKept s) _ _ refl fun t ht g hg => ht.trans ?_
  have hg8 := List.mem_range.mp hg
  split
  · exact (ite (lagReturn t hg8 _) (lagDown t hg8 _)).trans (setFld _ _ _ (lag_lt hg8))
  · exact refl

end WindowsKept

end Sys2Proof.Machine.State
end

section
/-!
SUPPORT. The counters, the links and the transmission of an Ethernet port.
-/

namespace Sys2Proof.Machine.State

variable {s t u : State} {n i : Nat}

/-! ### Counters -/

/-- A register of a port that holds or marks its counters. -/
def cntReg (n a : Nat) : Prop := 0x400034 + n * 0x1000 ≤ a ∧ a < 0x400200 + n * 0x1000

/-- Everything of the ports but ETH_STAT and the counters of port `n` is kept, and those counters but the ones listed. -/
structure PortStep (n : Nat) (l : List Nat) (s t : State) : Prop where
  reg : ∀ a, 0x310000 ≤ a → a < 0x1000000 → a ≠ Reg.ETH_STAT n → ¬cntReg n a → t.reg a = s.reg a
  cnt : ∀ j < 48, j ∉ l → t.reg (Reg.ETH_CNT n j) = s.reg (Reg.ETH_CNT n j)

theorem PortStep.refl (l : List Nat) (s : State) : PortStep n l s s := ⟨fun _ _ _ _ _ => rfl, fun _ _ _ => rfl⟩

theorem PortStep.trans {l : List Nat} (h : PortStep n l s t) (g : PortStep n l t u) : PortStep n l s u :=
  ⟨fun a hlo hhi hStat hCnt => (g.reg a hlo hhi hStat hCnt).trans (h.reg a hlo hhi hStat hCnt),
    fun j hj hNot => (g.cnt j hj hNot).trans (h.cnt j hj hNot)⟩

theorem PortStep.mono {l m : List Nat} (h : PortStep n l s t) (hl : l ⊆ m) : PortStep n m s t :=
  ⟨h.reg, fun j hj hNot => h.cnt j hj fun hIn => hNot (hl hIn)⟩

theorem cnt_range (hn : n < 34) (hi : i < 48) : 0x310000 ≤ Reg.ETH_CNT n i ∧ Reg.ETH_CNT n i < 0x1000000 := by
  unfold Reg.ETH_CNT
  omega

theorem WindowsKept.step (h : WindowsKept s t) (hn : n < 34) (l : List Nat) : PortStep n l s t :=
  ⟨fun a hlo hhi _ _ => h.reg a hlo hhi, fun _ hj _ => h.reg _ (cnt_range hn hj).1 (cnt_range hn hj).2⟩

theorem WindowsKept.stat (h : WindowsKept s t) (hn : n < 34) : t.reg (Reg.ETH_STAT n) = s.reg (Reg.ETH_STAT n) :=
  h.reg _ (by unfold Reg.ETH_STAT; omega) (by unfold Reg.ETH_STAT; omega)

theorem PortStep.of_regs (l : List Nat) (h : ∀ a, t.reg a = s.reg a) : PortStep n l s t := ⟨fun a _ _ _ _ => h a, fun _ _ _ => h _⟩

/-- A field of ETH_STAT written. -/
theorem PortStep.setFld (l : List Nat) (s : State) {f : Fld} (v : Nat) (hf : f.reg = Reg.ETH_STAT n) : PortStep n l s (s.setFld f v) :=
  ⟨fun _ _ _ hStat _ => reg_setFld_ne s v (hf ▸ hStat),
    fun j _ _ => reg_setFld_ne s v (by rw [hf]; unfold Reg.ETH_CNT Reg.ETH_STAT; omega)⟩

theorem PortStep.setFlag (l : List Nat) (s : State) {f : Fld} (b : Bool) (hf : f.reg = Reg.ETH_STAT n) : PortStep n l s (s.setFlag f b) :=
  ⟨fun _ _ _ hStat _ => reg_setFlag_ne s b (hf ▸ hStat),
    fun j _ _ => reg_setFlag_ne s b (by rw [hf]; unfold Reg.ETH_CNT Reg.ETH_STAT; omega)⟩

theorem reg_ethCount_ne (s : State) (n i k : Nat) {a : Nat} (hIrq : a ≠ irqReg (16 + n)) (hCnt : a ≠ Reg.ETH_CNT n i)
    (hHalf0 : a ≠ Reg.ETH_CNT_HALF0 n) (hHalf1 : a ≠ Reg.ETH_CNT_HALF1 n) : (s.ethCount n i k).reg a = s.reg a := by
  have hHalf : a ≠ if i < 32 then Reg.ETH_CNT_HALF0 n else Reg.ETH_CNT_HALF1 n := by
    split
    · exact hHalf0
    · exact hHalf1
  unfold ethCount
  dsimp only
  generalize (if i < 32 then Reg.ETH_CNT_HALF0 n else Reg.ETH_CNT_HALF1 n) = half at hHalf
  generalize (if i < 32 then Reg.ETH_CNT_IEN0 n else Reg.ETH_CNT_IEN1 n) = ien
  split
  · exact reg_setReg_ne _ _ hCnt
  · split
    · rw [reg_raiseIrq_ne _ _ hIrq, reg_stampSet, reg_setReg_ne _ _ hHalf, reg_setReg_ne _ _ hCnt]
    · rw [reg_stampSet, reg_setReg_ne _ _ hHalf, reg_setReg_ne _ _ hCnt]

theorem ne_irqReg_of_le {a : Nat} (h : 0x310000 ≤ a) (src : Nat) : a ≠ irqReg src := by
  have := WindowsKept.irqReg_lt src
  omega

theorem reg_ethCount_same (s : State) (hi : i < 48) (hn : n < 34) (k : Nat) :
    (s.ethCount n i k).reg (Reg.ETH_CNT n i) = s.reg (Reg.ETH_CNT n i) + BitVec.ofNat 32 k := by
  have hHalf : Reg.ETH_CNT n i ≠ if i < 32 then Reg.ETH_CNT_HALF0 n else Reg.ETH_CNT_HALF1 n := by
    unfold Reg.ETH_CNT Reg.ETH_CNT_HALF0 Reg.ETH_CNT_HALF1
    split <;> omega
  have hIrq := ne_irqReg_of_le (cnt_range hn hi).1 (16 + n)
  unfold ethCount
  dsimp only
  generalize (if i < 32 then Reg.ETH_CNT_HALF0 n else Reg.ETH_CNT_HALF1 n) = half at hHalf
  generalize (if i < 32 then Reg.ETH_CNT_IEN0 n else Reg.ETH_CNT_IEN1 n) = ien
  split
  · exact reg_setReg_same ..
  · split
    · rw [reg_raiseIrq_ne _ _ hIrq, reg_stampSet, reg_setReg_ne _ _ hHalf, reg_setReg_same]
    · rw [reg_stampSet, reg_setReg_ne _ _ hHalf, reg_setReg_same]

theorem cnt_ne_half (n i j : Nat) (hi : i < 48) (hij : j ≠ i) :
    Reg.ETH_CNT n j ≠ Reg.ETH_CNT n i ∧ Reg.ETH_CNT n j ≠ Reg.ETH_CNT_HALF0 n ∧ Reg.ETH_CNT n j ≠ Reg.ETH_CNT_HALF1 n := by
  unfold Reg.ETH_CNT Reg.ETH_CNT_HALF0 Reg.ETH_CNT_HALF1
  omega

theorem reg_ethCount_stat (s : State) (n i k : Nat) : (s.ethCount n i k).reg (Reg.ETH_STAT n) = s.reg (Reg.ETH_STAT n) := by
  refine reg_ethCount_ne s n i k (ne_irqReg_of_le ?_ _) ?_ ?_ ?_
  · unfold Reg.ETH_STAT
    omega
  · unfold Reg.ETH_STAT Reg.ETH_CNT
    omega
  · unfold Reg.ETH_STAT Reg.ETH_CNT_HALF0
    omega
  · unfold Reg.ETH_STAT Reg.ETH_CNT_HALF1
    omega

theorem PortStep.ethCount {l : List Nat} (s : State) (hi : i < 48) (hl : i ∈ l) (k : Nat) : PortStep n l s (s.ethCount n i k) := by
  refine ⟨fun a hlo _ _ hCnt => reg_ethCount_ne s n i k (ne_irqReg_of_le hlo _) (fun h => hCnt ?_) (fun h => hCnt ?_) (fun h => hCnt ?_), fun j hj hNot => ?_⟩
  · subst h
    unfold cntReg Reg.ETH_CNT
    omega
  · subst h
    unfold cntReg Reg.ETH_CNT_HALF0
    omega
  · subst h
    unfold cntReg Reg.ETH_CNT_HALF1
    omega
  · have hne : j ≠ i := fun h => hNot (h ▸ hl)
    obtain ⟨hCnt, hHalf0, hHalf1⟩ := cnt_ne_half n i j hi hne
    exact reg_ethCount_ne s n i k (ne_irqReg_of_le (by unfold Reg.ETH_CNT; omega) _) hCnt hHalf0 hHalf1

section
variable {l : List Nat} (h : PortStep n l s t) (hn : n < 34)
include h hn

theorem PortStep.ctrl : t.reg (Reg.ETH_CTRL n) = s.reg (Reg.ETH_CTRL n) := by
  refine h.reg _ ?_ ?_ ?_ ?_
  · unfold Reg.ETH_CTRL
    omega
  · unfold Reg.ETH_CTRL
    omega
  · unfold Reg.ETH_CTRL Reg.ETH_STAT
    omega
  · unfold Reg.ETH_CTRL cntReg
    omega

theorem PortStep.cfg : t.reg (Reg.ETH_CFG n) = s.reg (Reg.ETH_CFG n) := by
  refine h.reg _ ?_ ?_ ?_ ?_
  · unfold Reg.ETH_CFG
    omega
  · unfold Reg.ETH_CFG
    omega
  · unfold Reg.ETH_CFG Reg.ETH_STAT
    omega
  · unfold Reg.ETH_CFG cntReg
    omega

theorem PortStep.hold : t.reg (Reg.ETH_HOLD n) = s.reg (Reg.ETH_HOLD n) := by
  refine h.reg _ ?_ ?_ ?_ ?_
  · unfold Reg.ETH_HOLD
    omega
  · unfold Reg.ETH_HOLD
    omega
  · unfold Reg.ETH_HOLD Reg.ETH_STAT
    omega
  · unfold Reg.ETH_HOLD cntReg
    omega

theorem PortStep.thru : t.reg (Reg.ETH_THRU n) = s.reg (Reg.ETH_THRU n) := by
  refine h.reg _ ?_ ?_ ?_ ?_
  · unfold Reg.ETH_THRU
    omega
  · unfold Reg.ETH_THRU
    omega
  · unfold Reg.ETH_THRU Reg.ETH_STAT
    omega
  · unfold Reg.ETH_THRU cntReg
    omega

end

theorem port_of_ports (h : t.ports = s.ports) (n : Nat) : t.port n = s.port n := by rw [port, h, port]

theorem ports_ethCount (s : State) (n i k : Nat) : (s.ethCount n i k).ports = s.ports := by
  have hKeeps : Keeps [.now, .regs, .msixPba, .out] s (s.ethCount n i k) := .ethCount .refl rfl
  exact hKeeps.frame .ports rfl

theorem cycle_ethCount (s : State) (n i k : Nat) : (s.ethCount n i k).cycle = s.cycle := by
  have hKeeps : Keeps [.now, .regs, .msixPba, .out] s (s.ethCount n i k) := .ethCount .refl rfl
  exact hKeeps.cycle

theorem xing_ethCount (s : State) (n i k : Nat) : (s.ethCount n i k).xing = s.xing := by
  have hKeeps : Keeps [.now, .regs, .msixPba, .out] s (s.ethCount n i k) := .ethCount .refl rfl
  exact hKeeps.frame .xing rfl

/-! ### Reception -/

theorem arrived_takeCells (f k : Nat) (s : State) : (takeCells f k s).2.xing.arrived = s.xing.arrived := by
  induction k generalizing s with
  | zero => rfl
  | succ k ih => exact ih (s.takeCell f).2

theorem storeFrame_arrived (s : State) (bs : List Byte) (x : Frame) :
    (s.storeFrame bs x).1 = s.xing.nextFrame ∧ (s.storeFrame bs x).2.xing.arrived = s.xing.arrived := by
  have hNew : (s.newFrame bs.length x).1 = s.xing.nextFrame ∧ (s.newFrame bs.length x).2.xing.arrived = s.xing.arrived :=
    ⟨rfl, arrived_takeCells s.xing.nextFrame (cellsFor bs.length) s⟩
  unfold storeFrame
  dsimp only
  generalize s.newFrame bs.length x = r at hNew
  split
  · exact hNew
  · exact hNew

theorem offerFrame_stores {bs : List Byte} {x : Frame} (hFatal : s.flag Fld.XING_STAT_FATAL = false)
    (hRoom : cellsFor bs.length ≤ s.freeCells) :
    (s.offerFrame bs x).xing.arrived = s.xing.arrived ++ [s.xing.nextFrame] ∧ WindowsKept s (s.offerFrame bs x) := by
  obtain ⟨hNumber, hArrived⟩ := storeFrame_arrived s bs { x with copies := 1, refs := 1, ready := s.cycle }
  have hKept := WindowsKept.storeFrame s bs { x with copies := 1, refs := 1, ready := s.cycle }
  unfold offerFrame
  rw [hFatal, if_neg Bool.false_ne_true, if_neg (Nat.not_lt.mpr hRoom)]
  dsimp only
  generalize s.storeFrame bs { x with copies := 1, refs := 1, ready := s.cycle } = r at hNumber hArrived hKept
  refine ⟨?_, hKept.trans (.other (by exact fun _ => rfl))⟩
  show r.2.xing.arrived ++ [r.1] = _
  rw [hArrived, hNumber]

theorem castOf_le (bs : List Byte) : castOf bs ≤ 2 := by
  unfold castOf
  split
  · decide
  · split <;> decide

theorem sizeBin_le (l : Nat) : sizeBin l ≤ 6 := by
  unfold sizeBin
  repeat' split
  all_goals decide

/-- What counting of a received frame leaves to the Crossing. -/
structure CrossingSame (s t : State) : Prop where
  xing : t.xing = s.xing
  stat : t.reg Reg.XING_STAT = s.reg Reg.XING_STAT
  buf : t.reg Reg.XING_BUF_STAT = s.reg Reg.XING_BUF_STAT

theorem CrossingSame.trans (h : CrossingSame s t) (g : CrossingSame t u) : CrossingSame s u :=
  ⟨g.xing.trans h.xing, g.stat.trans h.stat, g.buf.trans h.buf⟩

theorem CrossingSame.ethCount (s : State) (n i k : Nat) : CrossingSame s (s.ethCount n i k) := by
  have hLow (a : Nat) (hIrq : a ≠ irqReg (16 + n)) (ha : a < 0x400000) : (s.ethCount n i k).reg a = s.reg a := by
    refine reg_ethCount_ne s n i k hIrq ?_ ?_ ?_
    · unfold Reg.ETH_CNT
      omega
    · unfold Reg.ETH_CNT_HALF0
      omega
    · unfold Reg.ETH_CNT_HALF1
      omega
  refine ⟨xing_ethCount s n i k, hLow _ ?_ (by decide), hLow _ ?_ (by decide)⟩ <;>
  · unfold irqReg
    split <;> decide

/-- The counters of a good frame, RX_OK among them. -/
theorem countRx_spec (s : State) (hn : n < 34) (bs : List Byte) :
    (s.countRx n bs).reg (Reg.ETH_CNT n 0) = s.reg (Reg.ETH_CNT n 0) + 1 ∧ CrossingSame s (s.countRx n bs) := by
  have hCast := castOf_le bs
  have hSize := sizeBin_le bs.length
  have hKept (t : State) {i : Nat} (hi : i < 48) (h0 : i ≠ 0) (k : Nat) : (t.ethCount n i k).reg (Reg.ETH_CNT n 0) = t.reg (Reg.ETH_CNT n 0) :=
    (PortStep.ethCount (l := [i]) t hi List.mem_cons_self k).cnt 0 (by decide) (by rw [List.mem_singleton]; exact h0.symm)
  have hFirst := reg_ethCount_same s (i := 0) (by decide) hn 1
  have hSame := (((CrossingSame.ethCount s n 0 1).trans (.ethCount _ n 1 bs.length)).trans (.ethCount _ n (2 + castOf bs) 1)).trans
    (.ethCount _ n (5 + sizeBin bs.length) 1)
  have hCnt : ((((s.ethCount n 0).ethCount n 1 bs.length).ethCount n (2 + castOf bs)).ethCount n (5 + sizeBin bs.length)).reg
      (Reg.ETH_CNT n 0) = s.reg (Reg.ETH_CNT n 0) + 1 := by
    rw [hKept _ (by omega) (by omega), hKept _ (by omega) (by omega), hKept _ (by decide) (by decide), hFirst]
    rfl
  unfold countRx
  dsimp only
  generalize (((s.ethCount n 0).ethCount n 1 bs.length).ethCount n (2 + castOf bs)).ethCount n (5 + sizeBin bs.length) = v at hCnt hSame
  split
  · exact ⟨(hKept v (by decide) (by decide) 1).trans hCnt, hSame.trans (.ethCount v n 19 1)⟩
  · exact ⟨hCnt, hSame⟩

section
variable (hRun : s.inReset = false) (hClock : s.clockGone 0 = false) (hActive : s.ethActive n = true) (hThru : s.isThru n = false)
include hRun hClock hActive hThru

theorem exec_receiveFrame (bs : List Byte) : exec (.receiveFrame n bs false 0) s = .next (
    let p := s.port n
    let r := (s.setPort n { p with stamp := none, stampLost := false, receiving := false }).macReceive n bs false 0
    if r.2 then r.1.offerFrame bs { cells := [], len := bs.length, source := n, stamp := p.stamp, stampLost := p.stampLost } else r.1) := by
  refine congrArg Host.Outcome.next ((live_of_running hRun _).trans ?_)
  rw [through, hClock, if_neg Bool.false_ne_true, hActive, hThru, if_pos ⟨rfl, rfl⟩]

end

/-- What the MAC makes of a frame of an allowed length without alignment or code errors. -/
theorem macReceive_plain (s : State) (n : Nat) {bs : List Byte} (hMax : bs.length ≤ s.maxLen n) :
    (64 ≤ bs.length → goodFcs bs = true → wire16 bs 12 ≠ 0x8808 → s.macReceive n bs false 0 = (s.countRx n bs, true)) ∧
      (64 ≤ bs.length → goodFcs bs = false → s.macReceive n bs false 0 = (s.ethCount n 12, false)) ∧
      (bs.length < 64 → goodFcs bs = true → s.macReceive n bs false 0 = (s.ethCount n 14, false)) := by
  unfold macReceive
  refine ⟨fun hLen hGood hPause => ?_, fun hLen hBad => ?_, fun hShort hGood => ?_⟩
  · rw [hGood]
    dsimp only [Bool.not_false, Bool.and_true]
    rw [if_pos rfl, if_neg (Nat.not_lt.mpr hLen), if_neg (Nat.not_lt.mpr hMax), if_neg (by decide), if_neg hPause]
  · rw [hBad]
    dsimp only [Bool.not_false, Bool.and_true]
    rw [if_pos rfl, if_neg (Nat.not_lt.mpr hLen), if_neg (Nat.not_lt.mpr hMax), if_pos (by decide), if_neg (by rintro ⟨h, -⟩; cases h)]
  · rw [hGood]
    dsimp only [Bool.not_false, Bool.and_true]
    rw [if_pos rfl, if_pos hShort, if_pos (by rfl)]

/-! ### Links -/

theorem linkUp_of_stat (h : t.reg (Reg.ETH_STAT n) = s.reg (Reg.ETH_STAT n)) : t.linkUp n = s.linkUp n := flag_of_reg h

theorem isThru_of_thru (h : t.reg (Reg.ETH_THRU n) = s.reg (Reg.ETH_THRU n)) : t.isThru n = s.isThru n := flag_of_reg h

/-- The heads of the queues settled after a link's return. -/
theorem settleQueues_kept (l : List Nat) (s : State) : WindowsKept s (l.foldl (fun s q => s.settleQueue q) s) ∧
    (l.foldl (fun s q => s.settleQueue q) s).ports = s.ports := by
  refine ⟨.foldl l (fun t q => .settleQueue t q) s, ?_⟩
  have hKeeps : Keeps [.now, .regs, .xing, .notices] s (l.foldl (fun s q => s.settleQueue q) s) :=
    .foldl .refl (fun _ _ h => .settleQueue h rfl)
  exact hKeeps.frame .ports rfl

/-- A link's change as the groups and the lines learn it. -/
theorem linkTold_kept (s : State) (n : Nat) (up : Bool) : WindowsKept s ((s.lagLink n up).fire 6 n) ∧
    ((s.lagLink n up).fire 6 n).ports = s.ports := by
  have hKeeps : Keeps [.now, .regs, .engines, .xing] s ((s.lagLink n up).fire 6 n) := .fire (.lagLink .refl rfl) rfl
  exact ⟨(WindowsKept.lagLink s n up).trans (.fire _ 6 n), hKeeps.frame .ports rfl⟩

/-- ETH_STAT of a link that rises. -/
def linkFlags (s : State) (n speed : Nat) : State :=
  ((s.setFlag (Fld.ETH_STAT_LINK n) true).setFld (Fld.ETH_STAT_SPEED_ACT n) speed).setFlag (Fld.ETH_STAT_HOLDING n) false

/-- The link shown up, before the groups learn it. -/
def linkShown (s : State) (n speed : Nat) : State :=
  ((s.linkFlags n speed).setFlag (Fld.ETH_STAT_FLUSHED n) false).setPort n { (s.linkFlags n speed).port n with holdUntil := none }

theorem linkRise_eq (s : State) (n speed : Nat) : s.linkRise n speed =
    let t := ((s.linkShown n speed).lagLink n true).fire 6 n
    (t.queuesOf n).foldl (fun s q => s.settleQueue q) t := rfl

theorem linkShown_spec (s : State) (n : Nat) {speed : Nat} (hSpeed : speed < 4) :
    (s.linkShown n speed).linkUp n = true ∧ (s.linkShown n speed).fld (Fld.ETH_STAT_SPEED_ACT n) = speed ∧
      (s.linkShown n speed).flag (Fld.ETH_STAT_HOLDING n) = false ∧ (s.linkShown n speed).flag (Fld.ETH_STAT_FLUSHED n) = false ∧
      (s.linkShown n speed).port n = { s.port n with holdUntil := none } ∧ PortStep n [] s (s.linkShown n speed) := by
  have hFlags : (s.linkFlags n speed).linkUp n = true ∧ (s.linkFlags n speed).fld (Fld.ETH_STAT_SPEED_ACT n) = speed ∧
      (s.linkFlags n speed).flag (Fld.ETH_STAT_HOLDING n) = false := by
    unfold linkFlags linkUp
    refine ⟨?_, ?_, flag_setFlag_on _ _ rfl rfl⟩
    · rw [flag_setFlag_off _ _ rfl, flag_setFld_off _ _ rfl, flag_setFlag_on _ _ rfl rfl]
    · rw [fld_setFlag_off _ _ rfl, fld_setFld_on _ _ rfl]
      exact Nat.mod_eq_of_lt hSpeed
  have hPort : (s.linkFlags n speed).port n = s.port n := by
    unfold linkFlags
    rw [port_setFlag, port_setFld, port_setFlag]
  have hStep : PortStep n [] s (s.linkFlags n speed) :=
    ((PortStep.setFlag [] s true rfl).trans (.setFld [] _ speed rfl)).trans (.setFlag [] _ false rfl)
  unfold linkShown
  generalize s.linkFlags n speed = u at hFlags hPort hStep
  obtain ⟨hUp, hSpeed', hHolding⟩ := hFlags
  rw [hPort, linkUp, flag_setPort, fld_setPort, flag_setPort, flag_setPort, port_setPort_same]
  refine ⟨?_, ?_, ?_, flag_setFlag_on _ _ rfl rfl, rfl, (hStep.trans (.setFlag [] u false rfl)).trans (.of_regs [] (reg_setPort _ n _))⟩
  · rw [flag_setFlag_off _ _ rfl]
    exact hUp
  · rw [fld_setFlag_off _ _ rfl, hSpeed']
  · rw [flag_setFlag_off _ _ rfl, hHolding]

/-- A link that rises. -/
theorem linkRise_spec (s : State) (hn : n < 34) {speed : Nat} (hSpeed : speed < 4) :
    (s.linkRise n speed).linkUp n = true ∧ (s.linkRise n speed).fld (Fld.ETH_STAT_SPEED_ACT n) = speed ∧
      (s.linkRise n speed).flag (Fld.ETH_STAT_HOLDING n) = false ∧ (s.linkRise n speed).flag (Fld.ETH_STAT_FLUSHED n) = false ∧
      (s.linkRise n speed).port n = { s.port n with holdUntil := none } ∧ PortStep n [] s (s.linkRise n speed) := by
  obtain ⟨hUp, hSpeed', hHolding, hFlushed, hPort, hStep⟩ := linkShown_spec s n hSpeed
  rw [linkRise_eq]
  dsimp only
  generalize s.linkShown n speed = u at hUp hSpeed' hHolding hFlushed hPort hStep
  obtain ⟨hTold, hToldPorts⟩ := linkTold_kept u n true
  generalize (u.lagLink n true).fire 6 n = v at hTold hToldPorts
  obtain ⟨hSettled, hSettledPorts⟩ := settleQueues_kept (v.queuesOf n) v
  generalize (v.queuesOf n).foldl (fun s q => s.settleQueue q) v = w at hSettled hSettledPorts
  have hKept := hTold.trans hSettled
  have hStat := hKept.stat hn
  have hHolding' : w.flag (Fld.ETH_STAT_HOLDING n) = u.flag (Fld.ETH_STAT_HOLDING n) := flag_of_reg hStat
  have hFlushed' : w.flag (Fld.ETH_STAT_FLUSHED n) = u.flag (Fld.ETH_STAT_FLUSHED n) := flag_of_reg hStat
  exact ⟨(linkUp_of_stat hStat).trans hUp, (fld_of_reg (f := Fld.ETH_STAT_SPEED_ACT n) hStat).trans hSpeed', hHolding'.trans hHolding,
    hFlushed'.trans hFlushed, by rw [port_of_ports hSettledPorts, port_of_ports hToldPorts, hPort], hStep.trans (hKept.step hn [])⟩

theorem linkFall_eq (s : State) (n : Nat) : s.linkFall n =
    ((((s.setPort n { s.port n with receiving := false }).setFlag (Fld.ETH_STAT_LINK n) false).ethCount n 44).lagLink n false).fire 6 n := rfl

/-- A link that falls. -/
theorem linkFall_spec (s : State) (hn : n < 34) : (s.linkFall n).linkUp n = false ∧
    (s.linkFall n).reg (Reg.ETH_CNT n 44) = s.reg (Reg.ETH_CNT n 44) + 1 ∧ PortStep n [44] s (s.linkFall n) := by
  have hShown : ((s.setPort n { s.port n with receiving := false }).setFlag (Fld.ETH_STAT_LINK n) false).linkUp n = false :=
    flag_setFlag_on _ _ rfl rfl
  have hStep : PortStep n [44] s ((s.setPort n { s.port n with receiving := false }).setFlag (Fld.ETH_STAT_LINK n) false) :=
    (PortStep.of_regs [44] (by exact fun _ => rfl)).trans (.setFlag [44] (s.setPort n { s.port n with receiving := false }) false rfl)
  have hOld : ((s.setPort n { s.port n with receiving := false }).setFlag (Fld.ETH_STAT_LINK n) false).reg (Reg.ETH_CNT n 44) =
      s.reg (Reg.ETH_CNT n 44) := by
    rw [reg_setFlag_ne _ _ (by show Reg.ETH_CNT n 44 ≠ Reg.ETH_STAT n; unfold Reg.ETH_CNT Reg.ETH_STAT; omega), reg_setPort]
  rw [linkFall_eq]
  generalize (s.setPort n { s.port n with receiving := false }).setFlag (Fld.ETH_STAT_LINK n) false = u at hShown hStep hOld
  have hCount := reg_ethCount_same u (i := 44) (by decide) hn 1
  have hCountStat := reg_ethCount_stat u n 44 1
  have hCountStep := PortStep.ethCount (n := n) (l := [44]) u (i := 44) (by decide) List.mem_cons_self 1
  generalize u.ethCount n 44 = v at hCount hCountStat hCountStep
  obtain ⟨hTold, _⟩ := linkTold_kept v n false
  generalize (v.lagLink n false).fire 6 n = w at hTold
  refine ⟨?_, ?_, (hStep.trans hCountStep).trans (hTold.step hn [44])⟩
  · rw [linkUp_of_stat (hTold.stat hn), linkUp_of_stat hCountStat, hShown]
  · rw [hTold.reg _ (cnt_range hn (by decide)).1 (cnt_range hn (by decide)).2, hCount, hOld]
    rfl

/-- Frames on the through-path cut off touch no register. -/
theorem reg_cutThru (s : State) (n a : Nat) : (s.cutThru n).reg a = s.reg a := by
  have hKeeps : Keeps [.ports, .out] s (s.cutThru n) := .cutThru .refl rfl
  rw [State.reg, hKeeps.frame .regs rfl, hKeeps.variant, ← State.reg]

theorem cycle_cutThru (s : State) (n : Nat) : (s.cutThru n).cycle = s.cycle := by
  have hKeeps : Keeps [.ports, .out] s (s.cutThru n) := .cutThru .refl rfl
  exact hKeeps.cycle

theorem clearSending_kept (s : State) (n : Nat) : WindowsKept s (s.clearSending n) := by
  unfold clearSending
  dsimp only
  split
  · exact .trans (.other (by exact fun _ => rfl)) (.showDepth _ _)
  · exact .other (by exact fun _ => rfl)

theorem cutOff_eq (s : State) (n : Nat) : s.cutOff n = match (s.port n).sending with
    | some c => (((s.clearSending n).ethCount n 32).endCopy c.frame true).emit (.cutOff n)
    | none => s := rfl

/-- A frame in transmission cut off. -/
theorem cutOff_step (s : State) (hn : n < 34) : PortStep n [32] s (s.cutOff n) ∧
    (s.cutOff n).reg (Reg.ETH_STAT n) = s.reg (Reg.ETH_STAT n) ∧ (s.cutOff n).cycle = s.cycle := by
  have hKeeps : Keeps [.now, .regs, .msixPba, .xing, .ports, .notices, .out] s (s.cutOff n) := .cutOff .refl rfl
  have hCycle := hKeeps.cycle
  rw [cutOff_eq] at hCycle ⊢
  cases hSending : (s.port n).sending with
  | none => exact ⟨.refl _ _, rfl, rfl⟩
  | some c =>
    rw [hSending] at hCycle
    dsimp only at hCycle ⊢
    have hCleared := clearSending_kept s n
    generalize s.clearSending n = u at hCleared hCycle
    have hStep := PortStep.ethCount (n := n) (l := [32]) u (i := 32) (by decide) List.mem_cons_self 1
    have hStat := reg_ethCount_stat u n 32 1
    generalize u.ethCount n 32 = v at hStep hStat hCycle
    have hEnd : WindowsKept v ((v.endCopy c.frame true).emit (.cutOff n)) :=
      (WindowsKept.endCopy v c.frame true).trans (.other (by exact fun _ => rfl))
    exact ⟨((hCleared.step hn [32]).trans hStep).trans (hEnd.step hn [32]), (hEnd.stat hn).trans (hStat.trans (hCleared.stat hn)), hCycle⟩

theorem flushDest_kept (s : State) (n : Nat) : (s.flushDest n).ports = s.ports := by
  have hKeeps : Keeps [.now, .regs, .xing, .notices] s (s.flushDest n) := .flushDest .refl rfl
  exact hKeeps.frame .ports rfl

theorem ports_fire (s : State) (kind i : Nat) : (s.fire kind i).ports = s.ports := by
  have hKeeps : Keeps [.now, .regs, .engines] s (s.fire kind i) := .fire .refl rfl
  exact hKeeps.frame .ports rfl

theorem expireHold_eq (s : State) (n : Nat) : s.expireHold n =
    (((((s.setPort n { s.port n with holdUntil := none }).setFlag (Fld.ETH_STAT_HOLDING n) false).flushDest n).setFlag
      (Fld.ETH_STAT_FLUSHED n) true).ethCount n 45).fire 6 n := rfl

/-- A hold that expires. -/
theorem expireHold_spec (s : State) (hn : n < 34) : (s.expireHold n).flag (Fld.ETH_STAT_HOLDING n) = false ∧
    (s.expireHold n).flag (Fld.ETH_STAT_FLUSHED n) = true ∧ ((s.expireHold n).port n).holdUntil = none ∧
    (s.expireHold n).reg (Reg.ETH_CNT n 45) = s.reg (Reg.ETH_CNT n 45) + 1 ∧ (s.expireHold n).linkUp n = s.linkUp n ∧
    PortStep n [45] s (s.expireHold n) := by
  have hCntStat : Reg.ETH_CNT n 45 ≠ Reg.ETH_STAT n := by
    unfold Reg.ETH_CNT Reg.ETH_STAT
    omega
  have hEnded : ((s.setPort n { s.port n with holdUntil := none }).setFlag (Fld.ETH_STAT_HOLDING n) false).flag (Fld.ETH_STAT_HOLDING n) =
        false ∧ (((s.setPort n { s.port n with holdUntil := none }).setFlag (Fld.ETH_STAT_HOLDING n) false).port n).holdUntil = none ∧
      ((s.setPort n { s.port n with holdUntil := none }).setFlag (Fld.ETH_STAT_HOLDING n) false).linkUp n = s.linkUp n ∧
      ((s.setPort n { s.port n with holdUntil := none }).setFlag (Fld.ETH_STAT_HOLDING n) false).reg (Reg.ETH_CNT n 45) =
        s.reg (Reg.ETH_CNT n 45) ∧
      PortStep n [45] s ((s.setPort n { s.port n with holdUntil := none }).setFlag (Fld.ETH_STAT_HOLDING n) false) := by
    refine ⟨flag_setFlag_on _ _ rfl rfl, ?_, ?_, ?_, ?_⟩
    · rw [port_setFlag, port_setPort_same]
    · rw [linkUp, flag_setFlag_off _ _ rfl, flag_setPort, ← linkUp]
    · rw [reg_setFlag_ne _ _ hCntStat, reg_setPort]
    · exact (PortStep.of_regs [45] (reg_setPort _ n _)).trans (.setFlag [45] _ false rfl)
  rw [expireHold_eq]
  generalize (s.setPort n { s.port n with holdUntil := none }).setFlag (Fld.ETH_STAT_HOLDING n) false = u at hEnded
  obtain ⟨hHolding, hUntil, hLink, hCnt, hStep⟩ := hEnded
  have hFlushKept := WindowsKept.flushDest u n
  have hFlushPorts := flushDest_kept u n
  generalize u.flushDest n = v at hFlushKept hFlushPorts
  have hHoldingV : v.flag (Fld.ETH_STAT_HOLDING n) = u.flag (Fld.ETH_STAT_HOLDING n) := flag_of_reg (hFlushKept.stat hn)
  have hMarked : (v.setFlag (Fld.ETH_STAT_FLUSHED n) true).flag (Fld.ETH_STAT_FLUSHED n) = true ∧
      (v.setFlag (Fld.ETH_STAT_FLUSHED n) true).flag (Fld.ETH_STAT_HOLDING n) = false ∧
      (v.setFlag (Fld.ETH_STAT_FLUSHED n) true).linkUp n = s.linkUp n ∧
      (v.setFlag (Fld.ETH_STAT_FLUSHED n) true).reg (Reg.ETH_CNT n 45) = s.reg (Reg.ETH_CNT n 45) ∧
      PortStep n [45] s (v.setFlag (Fld.ETH_STAT_FLUSHED n) true) ∧
      (v.setFlag (Fld.ETH_STAT_FLUSHED n) true).ports = u.ports := by
    refine ⟨flag_setFlag_on _ _ rfl rfl, ?_, ?_, ?_, ?_, hFlushPorts⟩
    · rw [flag_setFlag_off _ _ rfl, hHoldingV, hHolding]
    · rw [linkUp, flag_setFlag_off _ _ rfl, ← linkUp, linkUp_of_stat (hFlushKept.stat hn), hLink]
    · rw [reg_setFlag_ne _ _ hCntStat, hFlushKept.reg _ (cnt_range hn (by decide)).1 (cnt_range hn (by decide)).2, hCnt]
    · exact (hStep.trans (hFlushKept.step hn [45])).trans (.setFlag [45] v true rfl)
  generalize v.setFlag (Fld.ETH_STAT_FLUSHED n) true = w at hMarked
  obtain ⟨hFlushedW, hHoldingW, hLinkW, hCntW, hStepW, hPortsW⟩ := hMarked
  have hCount := reg_ethCount_same w (i := 45) (by decide) hn 1
  have hCountStat := reg_ethCount_stat w n 45 1
  have hCountStep := PortStep.ethCount (n := n) (l := [45]) w (i := 45) (by decide) List.mem_cons_self 1
  have hCountPorts := ports_ethCount w n 45 1
  generalize w.ethCount n 45 = x at hCount hCountStat hCountStep hCountPorts
  have hFire := WindowsKept.fire x 6 n
  have hFirePorts := ports_fire x 6 n
  generalize x.fire 6 n = y at hFire hFirePorts
  have hStat := (hFire.stat hn).trans hCountStat
  have hHoldingY : y.flag (Fld.ETH_STAT_HOLDING n) = w.flag (Fld.ETH_STAT_HOLDING n) := flag_of_reg hStat
  have hFlushedY : y.flag (Fld.ETH_STAT_FLUSHED n) = w.flag (Fld.ETH_STAT_FLUSHED n) := flag_of_reg hStat
  refine ⟨hHoldingY.trans hHoldingW, hFlushedY.trans hFlushedW, ?_, ?_, (linkUp_of_stat hStat).trans hLinkW,
    (hStepW.trans hCountStep).trans (hFire.step hn [45])⟩
  · rw [port_of_ports (hFirePorts.trans (hCountPorts.trans hPortsW)), hUntil]
  · rw [hFire.reg _ (cnt_range hn (by decide)).1 (cnt_range hn (by decide)).2, hCount, hCntW]
    rfl

end Sys2Proof.Machine.State
end

section
/-!
PROOF. O44: what an Ethernet port's link, its hold and its transmission do, and the obligation.
-/

namespace Sys2Proof.Machine.State

variable {s t u : State} {who : Ident} {n i : Nat}

/-! ### A link lost -/

theorem cnt_ne_stat (n i : Nat) : Reg.ETH_CNT n i ≠ Reg.ETH_STAT n := by
  unfold Reg.ETH_CNT Reg.ETH_STAT
  omega

theorem mem_loss (i : Nat) (h : i = 44 ∨ i = 32 ∨ i = 45) : i ∈ [44, 32, 45] := by
  rcases h with rfl | rfl | rfl <;> decide

/-- What a link that falls leaves on its through-path. -/
theorem linkFallCut_spec (s : State) (hn : n < 34) : ((s.linkFall n).cutThru n).linkUp n = false ∧
    ((s.linkFall n).cutThru n).reg (Reg.ETH_CNT n 44) = s.reg (Reg.ETH_CNT n 44) + 1 ∧
    ((s.linkFall n).cutThru n).cycle = s.cycle ∧ PortStep n [44, 32, 45] s ((s.linkFall n).cutThru n) := by
  have hKeeps : Keeps [.now, .regs, .engines, .msixPba, .xing, .ports, .out] s (s.linkFall n) := .linkFall .refl rfl
  have hCycle := hKeeps.cycle
  obtain ⟨hDown, hCnt, hStep⟩ := linkFall_spec s hn
  generalize s.linkFall n = u at hDown hCnt hStep hCycle
  have hReg := reg_cutThru u n
  refine ⟨(linkUp_of_stat (hReg _)).trans hDown, (hReg _).trans hCnt, (cycle_cutThru u n).trans hCycle, ?_⟩
  exact (hStep.mono (List.cons_subset_cons 44 (List.nil_subset _))).trans (.of_regs _ hReg)

/-- The hold begins. -/
theorem holdBegun_spec (s : State) (hn : n < 34) : ((s.cutOff n).setFlag (Fld.ETH_STAT_HOLDING n) true).linkUp n = s.linkUp n ∧
    ((s.cutOff n).setFlag (Fld.ETH_STAT_HOLDING n) true).flag (Fld.ETH_STAT_HOLDING n) = true ∧
    ((s.cutOff n).setFlag (Fld.ETH_STAT_HOLDING n) true).cycle = s.cycle ∧
    PortStep n [32] s ((s.cutOff n).setFlag (Fld.ETH_STAT_HOLDING n) true) := by
  obtain ⟨hStep, hStat, hCycle⟩ := cutOff_step s hn
  generalize s.cutOff n = u at hStep hStat hCycle
  refine ⟨?_, flag_setFlag_on _ _ rfl rfl, hCycle, hStep.trans (.setFlag [32] u true rfl)⟩
  rw [linkUp, flag_setFlag_off _ _ rfl, ← linkUp, linkUp_of_stat hStat]

theorem linkLoss_thru (hUp : s.linkUp n = true) (hThru : ((s.linkFall n).cutThru n).isThru n = true) :
    s.linkLoss n = (s.linkFall n).cutThru n := by
  unfold linkLoss
  dsimp only
  rw [hUp, if_pos rfl, hThru, if_pos rfl]

theorem linkLoss_eq (hUp : s.linkUp n = true) (hThru : ((s.linkFall n).cutThru n).isThru n = false) : s.linkLoss n =
    let t := (((s.linkFall n).cutThru n).cutOff n).setFlag (Fld.ETH_STAT_HOLDING n) true
    if t.fld (Fld.ETH_HOLD_HOLD_MS n) = 0 then t.expireHold n
    else t.setPort n { t.port n with holdUntil := some (t.cycle + t.fld (Fld.ETH_HOLD_HOLD_MS n) * 800000) } := by
  unfold linkLoss
  dsimp only
  rw [hUp, if_pos rfl, hThru, if_neg Bool.false_ne_true]

/-- A link lost outside through-path mode, with its hold. -/
theorem linkLoss_hold (hn : n < 34) (hUp : s.linkUp n = true) (hThru : s.isThru n = false) :
    (s.linkLoss n).linkUp n = false ∧ (s.linkLoss n).reg (Reg.ETH_CNT n 44) = s.reg (Reg.ETH_CNT n 44) + 1 ∧
      PortStep n [44, 32, 45] s (s.linkLoss n) ∧
      (s.fld (Fld.ETH_HOLD_HOLD_MS n) = 0 → (s.linkLoss n).flag (Fld.ETH_STAT_FLUSHED n) = true ∧
        (s.linkLoss n).flag (Fld.ETH_STAT_HOLDING n) = false) ∧
      (s.fld (Fld.ETH_HOLD_HOLD_MS n) ≠ 0 → (s.linkLoss n).flag (Fld.ETH_STAT_HOLDING n) = true ∧
        ((s.linkLoss n).port n).holdUntil = some (s.cycle + s.fld (Fld.ETH_HOLD_HOLD_MS n) * 800000)) := by
  obtain ⟨hDown, hCnt, hCycle, hStep⟩ := linkFallCut_spec s hn
  have hEq := linkLoss_eq hUp ((isThru_of_thru (hStep.thru hn)).trans hThru)
  rw [hEq]
  generalize (s.linkFall n).cutThru n = u at hDown hCnt hCycle hStep
  obtain ⟨hLink, hHolding, hCycle', hBegun⟩ := holdBegun_spec u hn
  dsimp only
  generalize (u.cutOff n).setFlag (Fld.ETH_STAT_HOLDING n) true = v at hLink hHolding hCycle' hBegun
  have hCntV : v.reg (Reg.ETH_CNT n 44) = s.reg (Reg.ETH_CNT n 44) + 1 := (hBegun.cnt 44 (by decide) (by decide)).trans hCnt
  have hStepV : PortStep n [44, 32, 45] s v := hStep.trans (hBegun.mono (by intro i hi; rw [List.mem_singleton] at hi; exact mem_loss i (.inr (.inl hi))))
  have hMs : v.fld (Fld.ETH_HOLD_HOLD_MS n) = s.fld (Fld.ETH_HOLD_HOLD_MS n) := fld_of_reg (hStepV.hold hn)
  rw [hMs]
  split
  · next hZero =>
    obtain ⟨hHoldingX, hFlushedX, _, _, hLinkX, hStepX⟩ := expireHold_spec v hn
    refine ⟨hLinkX.trans (hLink.trans hDown), (hStepX.cnt 44 (by decide) (by decide)).trans hCntV, hStepV.trans
      (hStepX.mono (by intro i hi; rw [List.mem_singleton] at hi; exact mem_loss i (.inr (.inr hi)))),
      fun _ => ⟨hFlushedX, hHoldingX⟩, fun h => absurd hZero h⟩
  · next hNonzero =>
    refine ⟨?_, ?_, hStepV.trans (.of_regs _ (reg_setPort _ n _)), fun h => absurd h hNonzero, fun _ => ⟨?_, ?_⟩⟩
    · rw [linkUp_of_stat (reg_setPort _ n _ _), hLink, hDown]
    · rw [reg_setPort, hCntV]
    · rw [flag_setPort, hHolding]
    · rw [port_setPort_same, hCycle', hCycle]

/-- A link lost, in through-path mode or not. -/
theorem linkLoss_spec (hn : n < 34) (hUp : s.linkUp n = true) : (s.linkLoss n).linkUp n = false ∧ PortStep n [44, 32, 45] s (s.linkLoss n) := by
  cases hThru : s.isThru n with
  | false =>
    obtain ⟨hDown, _, hStep, _⟩ := linkLoss_hold hn hUp hThru
    exact ⟨hDown, hStep⟩
  | true =>
    obtain ⟨hDown, _, _, hStep⟩ := linkFallCut_spec s hn
    rw [linkLoss_thru hUp ((isThru_of_thru (hStep.thru hn)).trans hThru)]
    exact ⟨hDown, hStep⟩

/-! ### A port enabled and disabled -/

theorem unitWrite_of_asks (h : s.asks who = true) (bound : State → Nat → Nat → Bool) (k a : Nat) (f : State → State) :
    s.unitWrite who bound k a f = f s := by
  simp only [asks, Bool.and_eq_true, Bool.not_eq_true', Bool.or_eq_true] at h
  obtain ⟨-, hWho⟩ := h
  have hEngine : Ident.isEngine who = false := by
    simp only [Ident.isHost, Ident.isSup, Ident.isEngine, decide_eq_true_eq, beq_iff_eq, decide_eq_false_iff_not] at hWho ⊢
    omega
  rw [unitWrite, hEngine, if_neg Bool.false_ne_true, if_pos hWho]

theorem t1sOwnLink_enabled (s : State) (hn : n < 34) : (s.t1sOwnLink n).flag (Fld.ETH_CTRL_EN n) = s.flag (Fld.ETH_CTRL_EN n) := by
  unfold t1sOwnLink
  split
  · obtain ⟨-, -, -, -, -, hStep⟩ := linkRise_spec s hn (speed := 0) (by decide)
    exact flag_of_reg (hStep.ctrl hn)
  · rfl

/-- The link ends with its port. -/
theorem linkEnd_spec (hn : n < 34) (hOff : s.flag (Fld.ETH_CTRL_EN n) = false) :
    (s.linkEnd n).flag (Fld.ETH_CTRL_EN n) = false ∧ (s.linkEnd n).linkUp n = false := by
  have hFallen : (if s.linkUp n && !s.csmaLink n then s.linkFall n else s).linkUp n = false ∧
      PortStep n [44, 32, 45] s (if s.linkUp n && !s.csmaLink n then s.linkFall n else s) := by
    have hCsma : s.csmaLink n = false := by rw [csmaLink, hOff, Bool.and_false]
    cases hUp : s.linkUp n with
    | false => exact ⟨hUp, .refl _ _⟩
    | true =>
      obtain ⟨hDown, -, hStep⟩ := linkFall_spec s hn
      rw [hCsma]
      exact ⟨hDown, hStep.mono (List.cons_subset_cons 44 (List.nil_subset _))⟩
  unfold linkEnd
  dsimp only
  generalize (if s.linkUp n && !s.csmaLink n then s.linkFall n else s) = u at hFallen
  obtain ⟨hDown, hStep⟩ := hFallen
  have hCut := reg_cutThru u n
  generalize u.cutThru n = v at hCut
  obtain ⟨hOffStep, hOffStat, _⟩ := cutOff_step v hn
  generalize v.cutOff n = w at hOffStep hOffStat
  have hDownW : w.linkUp n = false := (linkUp_of_stat (hOffStat.trans (hCut _))).trans hDown
  have hCtrlW : w.flag (Fld.ETH_CTRL_EN n) = false := by
    have hCtrl : w.flag (Fld.ETH_CTRL_EN n) = s.flag (Fld.ETH_CTRL_EN n) :=
      flag_of_reg ((hOffStep.ctrl hn).trans ((hCut _).trans (hStep.ctrl hn)))
    exact hCtrl.trans hOff
  have hShown (x : Port) : ((((w.setPort n x).setFlag (Fld.ETH_STAT_HOLDING n) false).setFlag (Fld.ETH_STAT_FLUSHED n) false).linkUp n = false) ∧
      (((w.setPort n x).setFlag (Fld.ETH_STAT_HOLDING n) false).setFlag (Fld.ETH_STAT_FLUSHED n) false).flag (Fld.ETH_CTRL_EN n) = false := by
    refine ⟨?_, ?_⟩
    · rw [linkUp, flag_setFlag_off _ _ rfl, flag_setFlag_off _ _ rfl, flag_setPort]
      exact hDownW
    · have hNe : Reg.ETH_CTRL n ≠ Reg.ETH_STAT n := by
        unfold Reg.ETH_CTRL Reg.ETH_STAT
        omega
      have hReg : (((w.setPort n x).setFlag (Fld.ETH_STAT_HOLDING n) false).setFlag (Fld.ETH_STAT_FLUSHED n) false).reg (Reg.ETH_CTRL n) =
          w.reg (Reg.ETH_CTRL n) := by
        rw [reg_setFlag_ne _ _ hNe, reg_setFlag_ne _ _ hNe, reg_setPort]
      exact (flag_of_reg (f := Fld.ETH_CTRL_EN n) hReg).trans hCtrlW
  have hFlushed (x : Port) :
      ((((w.setPort n x).setFlag (Fld.ETH_STAT_HOLDING n) false).setFlag (Fld.ETH_STAT_FLUSHED n) false).flushDest n).flag (Fld.ETH_CTRL_EN n) =
        false ∧
      ((((w.setPort n x).setFlag (Fld.ETH_STAT_HOLDING n) false).setFlag (Fld.ETH_STAT_FLUSHED n) false).flushDest n).linkUp n = false := by
    obtain ⟨hDownX, hCtrlX⟩ := hShown x
    generalize ((w.setPort n x).setFlag (Fld.ETH_STAT_HOLDING n) false).setFlag (Fld.ETH_STAT_FLUSHED n) false = y at hDownX hCtrlX
    have hKept := WindowsKept.flushDest y n
    have hCtrlY : (y.flushDest n).flag (Fld.ETH_CTRL_EN n) = y.flag (Fld.ETH_CTRL_EN n) :=
      flag_of_reg (((hKept.step hn []).ctrl hn))
    exact ⟨hCtrlY.trans hCtrlX, (linkUp_of_stat (hKept.stat hn)).trans hDownX⟩
  exact hFlushed _

/-! ### The counters read together -/

/-- The first `k` counters copied to the snap registers. -/
theorem snapped (s : State) (n k : Nat) (hk : k ≤ 48) :
    (∀ i < k, ((List.range k).foldl (fun s i => s.setReg (Reg.ETH_SNAP_CNT n i) (s.reg (Reg.ETH_CNT n i))) s).reg (Reg.ETH_SNAP_CNT n i) =
      s.reg (Reg.ETH_CNT n i)) ∧
    ∀ i < 48, ((List.range k).foldl (fun s i => s.setReg (Reg.ETH_SNAP_CNT n i) (s.reg (Reg.ETH_CNT n i))) s).reg (Reg.ETH_CNT n i) =
      s.reg (Reg.ETH_CNT n i) := by
  induction k with
  | zero => exact ⟨fun i hi => absurd hi (Nat.not_lt_zero i), fun _ _ => rfl⟩
  | succ k ih =>
    obtain ⟨hSnap, hCnt⟩ := ih (by omega)
    rw [List.range_succ, List.foldl_append]
    generalize (List.range k).foldl (fun s i => s.setReg (Reg.ETH_SNAP_CNT n i) (s.reg (Reg.ETH_CNT n i))) s = u at hSnap hCnt
    dsimp only [List.foldl_cons, List.foldl_nil]
    refine ⟨fun i hi => ?_, fun i hi => ?_⟩
    · by_cases hik : i = k
      · subst hik
        rw [reg_setReg_same, hCnt i (by omega)]
      · rw [reg_setReg_ne _ _ (by unfold Reg.ETH_SNAP_CNT; omega), hSnap i (by omega)]
    · rw [reg_setReg_ne _ _ (by unfold Reg.ETH_CNT Reg.ETH_SNAP_CNT; omega), hCnt i hi]

/-! ### A frame given up -/

theorem endCopy_ports (s : State) (f : Nat) (onChip : Bool) : (s.endCopy f onChip).ports = s.ports := by
  have hKeeps : Keeps [.now, .regs, .xing, .notices] s (s.endCopy f onChip) := .endCopy .refl rfl
  exact hKeeps.frame .ports rfl

theorem ports_showDepth (s : State) (q : Nat) : (s.showDepth q).ports = s.ports := by
  have hKeeps : Keeps [.regs] s (s.showDepth q) := .showDepth .refl rfl
  exact hKeeps.frame .ports rfl

theorem sending_clearSending (s : State) (n : Nat) : ((s.clearSending n).port n).sending = none := by
  unfold clearSending
  dsimp only
  split
  · rw [port_of_ports (ports_showDepth _ _), port_setPort_same]
  · rw [port_setPort_same]

theorem giveUp_spec {c : Copy} (hn : n < 34) (hi : i < 48) (hSending : (s.port n).sending = some c) :
    ((giveUp s n).port n).sending = none ∧ (giveUp s n).reg (Reg.ETH_CNT n i) = s.reg (Reg.ETH_CNT n i) := by
  have hCleared := clearSending_kept s n
  have hNone := sending_clearSending s n
  unfold giveUp
  rw [hSending]
  dsimp only
  generalize s.clearSending n = u at hCleared hNone
  have hEnded := WindowsKept.endCopy u c.frame true
  have hPorts := endCopy_ports u c.frame true
  refine ⟨by rw [port_of_ports hPorts, hNone], (hCleared.trans hEnded).reg _ (cnt_range hn hi).1 (cnt_range hn hi).2⟩

/-! ### The commands -/

/-- A start of frame crosses a free line. -/
theorem raiseLine_free {l : Nat} (hFree : s.syncLine l = 0) (cross : State → State) : s.raiseLine l cross = cross (s.setSyncLine l 1) := if_pos hFree

theorem syncLine_of_syncs (h : t.syncs = s.syncs) (l : Nat) : t.syncLine l = s.syncLine l := by rw [syncLine, h, syncLine]

/-- A start of frame of a port without STAMPQ. -/
theorem rxSof_spec (hOff : s.flag (Fld.ETH_CFG_STAMPQ n) = false) (hn : n < 34) (held : Nat) :
    ((s.rxSof n held).port n).stamp = none ∧ ((s.rxSof n held).port n).stampLost = false ∧ (s.rxSof n held).syncs = s.syncs := by
  have hKeeps : Keeps [.now, .regs, .engines] s (s.fire 1 n) := .fire .refl rfl
  have hSyncs := hKeeps.frame .syncs rfl
  have hCfg : (s.fire 1 n).flag (Fld.ETH_CFG_STAMPQ n) = false := by
    have hReg : (s.fire 1 n).flag (Fld.ETH_CFG_STAMPQ n) = s.flag (Fld.ETH_CFG_STAMPQ n) :=
      flag_of_reg (((WindowsKept.fire s 1 n).step hn []).cfg hn)
    exact hReg.trans hOff
  have hStart : s.startOfFrame n false held = (s.fire 1 n, none) := by
    unfold startOfFrame
    dsimp only
    rw [if_neg Bool.false_ne_true, hCfg, if_neg Bool.false_ne_true]
  unfold rxSof
  rw [hStart]
  dsimp only
  generalize s.fire 1 n = u at hSyncs
  rw [port_setPort_same]
  exact ⟨rfl, rfl, hSyncs⟩

theorem syncs_startOfFrame (s : State) (n : Nat) (tx : Bool) (held : Nat) : (s.startOfFrame n tx held).1.syncs = s.syncs := by
  have hKeeps : Keeps [.now, .regs, .engines, .tb] s (s.startOfFrame n tx held).1 := .startOfFrame .refl rfl
  exact hKeeps.frame .syncs rfl

end Sys2Proof.Machine.State
end

section
/-!
PROOF. O44: the obligation's clauses.
-/

namespace Sys2Proof.Machine.State

variable {s t u : State} {who : Ident} {n i : Nat}

section
variable (hRun : s.inReset = false) (hClock : s.clockGone 0 = false)
include hRun hClock

theorem ethRxSof_spec (hn : n < 34) (hActive : s.ethActive n = true) (hOff : s.flag (Fld.ETH_CFG_STAMPQ n) = false)
    (hLine : s.syncLine (64 + n) = 0) : ∃ t, exec (.ethRxSof n) s = .next t ∧ (t.port n).stamp = none ∧ (t.port n).stampLost = false ∧
      t.syncLine (64 + n) = 1 := by
  have hExec : exec (.ethRxSof n) s = .next (((s.setPort n { s.port n with receiving := !s.isThru n }).setSyncLine (64 + n) 1).rxSof n 0) := by
    refine congrArg Host.Outcome.next ((clocked_of_runs hRun hClock _).trans ((if_pos hActive).trans ?_))
    exact raiseLine_free (s := s.setPort n _) (l := 64 + n) hLine _
  refine ⟨_, hExec, ?_⟩
  have hOff' : ((s.setPort n { s.port n with receiving := !s.isThru n }).setSyncLine (64 + n) 1).flag (Fld.ETH_CFG_STAMPQ n) = false := hOff
  have hSet := syncLine_setSyncLine (s.setPort n { s.port n with receiving := !s.isThru n }) (64 + n) 1
  generalize (s.setPort n { s.port n with receiving := !s.isThru n }).setSyncLine (64 + n) 1 = u at hOff' hSet
  obtain ⟨hStamp, hLost, hSyncs⟩ := rxSof_spec hOff' hn 0
  exact ⟨hStamp, hLost, (syncLine_of_syncs hSyncs _).trans hSet⟩

theorem ethTxSof_spec (hSend : s.ethMaySend n = true) (hLine : s.syncLine (128 + n) = 0) :
    ∃ t, exec (.ethTxSof n) s = .next t ∧ t.syncLine (128 + n) = 1 := by
  have hExec : exec (.ethTxSof n) s = .next ((s.setSyncLine (128 + n) 1).startOfFrame n true 0).1 := by
    refine congrArg Host.Outcome.next ((clocked_of_runs hRun hClock _).trans ((if_pos hSend).trans ?_))
    exact raiseLine_free (l := 128 + n) hLine _
  refine ⟨_, hExec, ?_⟩
  rw [syncLine_of_syncs (syncs_startOfFrame _ n true 0), syncLine_setSyncLine]

theorem receiveFrame_spec {bs : List Byte} (hn : n < 34) (hActive : s.ethActive n = true) (hThru : s.isThru n = false)
    (hMax : bs.length ≤ s.maxLen n) :
    (64 ≤ bs.length → goodFcs bs = true → wire16 bs 12 ≠ 0x8808 → s.flag Fld.XING_STAT_FATAL = false →
      cellsFor bs.length ≤ s.freeCells → ∃ t, exec (.receiveFrame n bs false 0) s = .next t ∧
        t.reg (Reg.ETH_CNT n 0) = s.reg (Reg.ETH_CNT n 0) + 1 ∧ t.xing.arrived = s.xing.arrived ++ [s.xing.nextFrame]) ∧
    (64 ≤ bs.length → goodFcs bs = false → ∃ t, exec (.receiveFrame n bs false 0) s = .next t ∧
      t.reg (Reg.ETH_CNT n 12) = s.reg (Reg.ETH_CNT n 12) + 1 ∧ t.xing = s.xing) ∧
    (bs.length < 64 → goodFcs bs = true → ∃ t, exec (.receiveFrame n bs false 0) s = .next t ∧
      t.reg (Reg.ETH_CNT n 14) = s.reg (Reg.ETH_CNT n 14) + 1 ∧ t.xing = s.xing) := by
  have hExec := exec_receiveFrame hRun hClock hActive hThru bs
  dsimp only at hExec
  have hSame (x : Port) : (s.setPort n x).xing = s.xing ∧ (s.setPort n x).maxLen n = s.maxLen n ∧
      (s.setPort n x).flag Fld.XING_STAT_FATAL = s.flag Fld.XING_STAT_FATAL ∧ (s.setPort n x).freeCells = s.freeCells ∧
      ∀ a, (s.setPort n x).reg a = s.reg a := ⟨rfl, rfl, rfl, rfl, fun _ => rfl⟩
  obtain ⟨hXing, hMaxLen, hFatal', hFree', hReg⟩ := hSame { s.port n with stamp := none, stampLost := false, receiving := false }
  generalize s.setPort n { s.port n with stamp := none, stampLost := false, receiving := false } = u at hExec hXing hMaxLen hFatal' hFree' hReg
  obtain ⟨hGoodFrame, hBadFrame, hShortFrame⟩ := macReceive_plain u n (bs := bs) (by rw [hMaxLen]; exact hMax)
  refine ⟨fun hLen hGood hPause hFatal hRoom => ?_, fun hLen hBad => ?_, fun hShort hGood => ?_⟩
  · rw [hGoodFrame hLen hGood hPause, if_pos rfl] at hExec
    obtain ⟨hCnt, hCrossing⟩ := countRx_spec u hn bs
    generalize u.countRx n bs = v at hCnt hCrossing hExec
    have hFatalV : v.flag Fld.XING_STAT_FATAL = u.flag Fld.XING_STAT_FATAL := flag_of_reg hCrossing.stat
    have hFreeV : v.freeCells = u.freeCells := fld_of_reg hCrossing.buf
    obtain ⟨hArrived, hKept⟩ := offerFrame_stores (s := v) (bs := bs)
      (x := { cells := [], len := bs.length, source := n, stamp := (s.port n).stamp, stampLost := (s.port n).stampLost })
      (by rw [hFatalV, hFatal', hFatal]) (by rw [hFreeV, hFree']; exact hRoom)
    refine ⟨_, hExec, ?_, ?_⟩
    · rw [hKept.reg _ (cnt_range hn (by decide)).1 (cnt_range hn (by decide)).2, hCnt, hReg]
    · rw [hArrived, hCrossing.xing, hXing]
  · rw [hBadFrame hLen hBad, if_neg Bool.false_ne_true] at hExec
    refine ⟨_, hExec, ?_, ?_⟩
    · rw [reg_ethCount_same u (by decide) hn 1, hReg]
      rfl
    · rw [xing_ethCount, hXing]
  · rw [hShortFrame hShort hGood, if_neg Bool.false_ne_true] at hExec
    refine ⟨_, hExec, ?_, ?_⟩
    · rw [reg_ethCount_same u (by decide) hn 1, hReg]
      rfl
    · rw [xing_ethCount, hXing]

/-! ### 10BASE-T1S -/

theorem exec_plcaCycle (hT1s : isT1s n = true) (hMode : s.t1sMode n = 1) (hSend : s.ethMaySend n = true) :
    exec (.plcaCycle n) s = .next ((s.setPort n { s.port n with opp := 0, burst := 0 }).emit (.beacon n)) :=
  congrArg Host.Outcome.next ((clocked_of_runs hRun hClock _).trans (if_pos ⟨hT1s, hMode, hSend⟩))

/-- An opportunity of another node. -/
theorem exec_transmitOpportunity_other (hT1s : isT1s n = true) (hActive : s.ethActive n = true)
    (hMode : s.t1sMode n = 0 ∨ (s.t1sMode n = 1 ∧ s.ethMaySend n = true ∧ (s.port n).opp < s.fld (Fld.ETH_PLCA_NODE_CNT n)))
    (hOther : (s.port n).opp ≠ s.fld (Fld.ETH_PLCA_NODE_ID n)) :
    exec (.transmitOpportunity n) s = .next (s.setPort n { s.port n with opp := (s.port n).opp + 1, burst := 0 }) := by
  refine congrArg Host.Outcome.next ((clocked_of_runs hRun hClock _).trans ((if_pos ⟨hT1s, hActive, hMode⟩).trans (if_neg ?_)))
  rintro ⟨h, -⟩
  exact hOther h

/-- The node's own opportunity with a frame that waits. -/
theorem exec_transmitOpportunity_own {c : Copy} (hT1s : isT1s n = true) (hActive : s.ethActive n = true) (hSend : s.ethMaySend n = true)
    (hMode : s.t1sMode n = 1 ∧ (s.port n).opp < s.fld (Fld.ETH_PLCA_NODE_CNT n)) (hOwn : (s.port n).opp = s.fld (Fld.ETH_PLCA_NODE_ID n))
    (hSending : (s.port n).sending = some c) :
    ∃ t, exec (.transmitOpportunity n) s = .next t ∧ (t.port n).opp = (s.port n).opp + 1 ∧ (t.port n).deferred = false ∧
      (t.port n).burst = s.fld (Fld.ETH_PLCA_BURST_CNT n) := by
  refine ⟨_, congrArg Host.Outcome.next ((clocked_of_runs hRun hClock _).trans ((if_pos ⟨hT1s, hActive, .inr ⟨hMode.1, hSend, hMode.2⟩⟩).trans
    ((if_pos ⟨hOwn, hSend⟩).trans (if_pos ?_)))), ?_⟩
  · rw [hSending]
    rfl
  · rw [port_setPort_same, port_setPort_same]
    exact ⟨rfl, rfl, rfl⟩

theorem exec_beaconReceipt (hHas : s.variant.hasPort n = true) (hT1s : isT1s n = true) (hOn : s.flag (Fld.ETH_CTRL_EN n) = true)
    (hMode : Mode.commission ≤ s.mode) : exec (.beaconReceipt n) s = .next (
    if s.t1sMode n = 1 then s.ethCount n 42
    else if s.t1sMode n = 0 then
      let p := s.port n
      let k := if s.cycle < p.lastBeacon + beaconTime s n then p.beacons + 1 else 1
      let s1 := s.setPort n { p with beacons := min 2 k, lastBeacon := s.cycle, opp := 0, burst := 0 }
      if 2 ≤ k ∧ !s.linkUp n then s1.linkRise n 0 else s1
    else s) :=
  congrArg Host.Outcome.next ((clocked_of_runs hRun hClock _).trans (if_pos ⟨hHas, hT1s, hOn, hMode⟩))

/-- A follower hears a beacon. -/
theorem beaconReceipt_follower (hn : n < 34) (hHas : s.variant.hasPort n = true) (hT1s : isT1s n = true)
    (hOn : s.flag (Fld.ETH_CTRL_EN n) = true) (hMode : Mode.commission ≤ s.mode) (hT1sMode : s.t1sMode n = 0) :
    ∃ t, exec (.beaconReceipt n) s = .next t ∧ (t.port n).lastBeacon = s.cycle ∧ (t.port n).opp = 0 ∧
      (s.cycle < (s.port n).lastBeacon + beaconTime s n → 1 ≤ (s.port n).beacons → s.linkUp n = false → t.linkUp n = true) := by
  refine ⟨_, exec_beaconReceipt hRun hClock hHas hT1s hOn hMode, ?_⟩
  rw [hT1sMode, if_neg (by decide), if_pos rfl]
  dsimp only
  generalize hk : (if s.cycle < (s.port n).lastBeacon + beaconTime s n then (s.port n).beacons + 1 else 1) = k
  have hPort := port_setPort_same s n { s.port n with beacons := min 2 k, lastBeacon := s.cycle, opp := 0, burst := 0 }
  generalize s.setPort n { s.port n with beacons := min 2 k, lastBeacon := s.cycle, opp := 0, burst := 0 } = u at hPort
  split
  · obtain ⟨hUp, -, -, -, hPort', -⟩ := linkRise_spec u hn (speed := 0) (by decide)
    rw [hPort', hPort]
    exact ⟨rfl, rfl, fun _ _ _ => hUp⟩
  · next hNot =>
    rw [hPort]
    refine ⟨rfl, rfl, fun hSoon hSecond hDown => absurd ⟨?_, ?_⟩ hNot⟩
    · rw [if_pos hSoon] at hk
      omega
    · rw [hDown]
      rfl

theorem exec_beaconTimeout_due (hT1s : isT1s n = true) (hMode : s.t1sMode n = 0) (hUp : s.linkUp n = true)
    (hDue : (s.port n).lastBeacon + beaconTime s n ≤ s.cycle) : exec (.beaconTimeout n) s =
      .next (let t := (s.linkLoss n).ethCount n 42
        t.setPort n { t.port n with beacons := 0 }) :=
  congrArg Host.Outcome.next ((clocked_of_runs hRun hClock _).trans (if_pos ⟨hT1s, hMode, hUp, hDue⟩))

theorem beaconTimeout_spec (hn : n < 34) (hT1s : isT1s n = true) (hMode : s.t1sMode n = 0) (hUp : s.linkUp n = true)
    (hDue : (s.port n).lastBeacon + beaconTime s n ≤ s.cycle) : ∃ t, exec (.beaconTimeout n) s = .next t ∧ t.linkUp n = false ∧
      (t.port n).beacons = 0 ∧ t.reg (Reg.ETH_CNT n 42) = s.reg (Reg.ETH_CNT n 42) + 1 := by
  obtain ⟨hDown, hStep⟩ := linkLoss_spec hn hUp
  refine ⟨_, exec_beaconTimeout_due hRun hClock hT1s hMode hUp hDue, ?_⟩
  dsimp only
  generalize s.linkLoss n = u at hDown hStep
  have hCount := reg_ethCount_same u (i := 42) (by decide) hn 1
  have hStat := reg_ethCount_stat u n 42 1
  generalize u.ethCount n 42 = v at hCount hStat
  refine ⟨?_, by rw [port_setPort_same], ?_⟩
  · rw [linkUp_of_stat (reg_setPort _ n _ _), linkUp_of_stat hStat, hDown]
  · rw [reg_setPort, hCount, hStep.cnt 42 (by decide) (by decide)]
    rfl

/-! ### Collisions -/

/-- A collision on a port that sends. -/
theorem exec_collision {c : Copy} (hSend : s.ethMaySend n = true) (hT1s : isT1s n = true) (hSending : (s.port n).sending = some c)
    (hNow : (s.port n).deferred = false) (late : Bool) : exec (.collision n late) s = .next (
      if s.t1sMode n = 2 then
        let t := s.ethCount n 39
        if late then giveUp (t.ethCount n 40) n
        else if 16 ≤ (s.port n).attempts + 1 then giveUp (t.ethCount n 41) n
        else (t.setPort n { t.port n with
          attempts := (s.port n).attempts + 1, deferred := true
          backoff := some (t.cycle + t.drawn % 2 ^ min ((s.port n).attempts + 1) 10 * 40960) }).draw
      else
        let t := s.ethCount n 43
        if 16 ≤ (s.port n).attempts + 1 then giveUp (t.ethCount n 41) n
        else t.setPort n { t.port n with attempts := (s.port n).attempts + 1, deferred := true }) := by
  refine congrArg Host.Outcome.next ((clocked_of_runs hRun hClock _).trans (if_pos ⟨hSend, hT1s, ?_, ?_⟩))
  · rw [hSending]
    rfl
  · rw [hNow]
    rfl

end

/-- A frame given up after its collision was counted. -/
theorem giveUp_counted {c : Copy} (hn : n < 34) (hSending : (s.port n).sending = some c) {i j : Nat} (hi : i < 48) (hj : j < 48) (hij : i ≠ j) :
    ((giveUp ((s.ethCount n j).ethCount n i) n).port n).sending = none ∧
      (giveUp ((s.ethCount n j).ethCount n i) n).reg (Reg.ETH_CNT n i) = s.reg (Reg.ETH_CNT n i) + 1 := by
  have hFirst : (s.ethCount n j).reg (Reg.ETH_CNT n i) = s.reg (Reg.ETH_CNT n i) :=
    (PortStep.ethCount (l := [j]) s hj List.mem_cons_self 1).cnt i hi (by rw [List.mem_singleton]; exact hij)
  have hPorts := ports_ethCount s n j 1
  generalize s.ethCount n j = u at hFirst hPorts
  have hSecond := reg_ethCount_same u hi hn 1
  have hPorts' := ports_ethCount u n i 1
  generalize u.ethCount n i = v at hSecond hPorts'
  obtain ⟨hNone, hCnt⟩ := giveUp_spec (s := v) (c := c) hn hi (by rw [port_of_ports (hPorts'.trans hPorts), hSending])
  exact ⟨hNone, by rw [hCnt, hSecond, hFirst]; rfl⟩

theorem port_draw (s : State) (n : Nat) : s.draw.port n = s.port n := rfl

theorem ethActive_of_maySend (h : s.ethMaySend n = true) : s.ethActive n = true := by
  rw [ethMaySend, Bool.and_eq_true] at h
  exact h.1

theorem exec_linkUp {speed : Nat} (hRun : s.inReset = false) (hHas : s.variant.hasPort n = true) (hn : n < 26)
    (hOn : s.flag (Fld.ETH_CTRL_EN n) = true) (hDown : s.linkUp n = false) (hMode : Mode.commission ≤ s.mode)
    (hSpeed : s.speedAllowed n speed = true) : exec (.linkUp n speed) s = .next (s.linkRise n speed) := by
  refine congrArg Host.Outcome.next ((live_of_running hRun _).trans (if_pos ⟨hHas, hn, hOn, ?_, hMode, hSpeed⟩))
  rw [hDown]
  rfl

theorem speed_lt {speed : Nat} (h : s.speedAllowed n speed = true) : speed < 4 := by
  have hCfg : s.fld (Fld.ETH_CFG_SPEED n) < 4 := fieldGet_lt ..
  unfold speedAllowed at h
  split at h
  · rw [beq_iff_eq] at h
    omega
  · split at h
    · rw [decide_eq_true_eq] at h
      omega
    · rw [beq_iff_eq] at h
      omega

end Sys2Proof.Machine.State

open Sys2Proof Sys2Proof.Machine Sys2Proof.Machine.State

/-- Settles O44: a port's counters and link are followed through the Crossing's operations that touch no register of the ports. -/
theorem ethernetPorts : Obligations.EthernetPorts := by
  unfold Obligations.EthernetPorts
  intro s who n speed u bs c hRun hHas hn
  dsimp only
  refine ⟨fun hClock hActive hThru hMax => receiveFrame_spec hRun hClock hn hActive hThru hMax,
    fun hClock hActive hOff hLine => ethRxSof_spec hRun hClock hn hActive hOff hLine,
    fun hClock hSend hLine => ethTxSof_spec hRun hClock hSend hLine, fun hNot => ?_, fun hAsks hServes => ⟨?_, ?_, ?_⟩,
    fun hn26 hOn hDown hMode hSpeed => ?_, fun hn26 hUp hThru => ?_, fun hHold => ⟨fun hDue => ?_, fun hNot => ?_⟩,
    fun hClock hT1s => ⟨fun hMode hSend => ?_, fun hMode hSend hLess => ⟨fun hOther => ?_, fun hOwn hSending => ?_⟩,
      fun hMode hActive hOther => ?_, fun hOn hMode => ⟨fun hT1sMode => ?_, fun hT1sMode => ?_⟩,
      fun hMode hUp => ⟨fun hDue => ?_, fun hNot => ?_⟩, fun hSend hSending hNow => ⟨fun hMode hFew => ?_, fun hMode => ?_,
        fun hMode hFew late => ?_, fun hMany => ?_⟩, fun hSend hBackoff => ⟨fun hDue => ?_, fun hNot => ?_⟩⟩⟩
  · have hNotSend : s.ethMaySend n = false := by rw [ethMaySend, hNot, Bool.false_and]
    cases hClock : s.clockGone 0 with
    | true =>
      refine ⟨congrArg Host.Outcome.next ?_, congrArg Host.Outcome.next ?_⟩ <;>
      · rw [clocked, live_of_running hRun, hClock, if_pos rfl]
    | false =>
      refine ⟨congrArg Host.Outcome.next ((clocked_of_runs hRun hClock _).trans (if_neg ?_)),
        congrArg Host.Outcome.next ((clocked_of_runs hRun hClock _).trans (if_neg ?_))⟩
      · rw [hNot]
        exact Bool.false_ne_true
      · rw [hNotSend]
        exact Bool.false_ne_true
  · refine ⟨_, congrArg Host.Outcome.next ((served_of_serves hServes _).trans ((if_pos hHas).trans (unitWrite_of_asks hAsks _ n _ _))), ?_⟩
    rw [t1sOwnLink_enabled _ hn]
    exact flag_setFlag_on _ _ rfl rfl
  · refine ⟨_, congrArg Host.Outcome.next ((served_of_serves hServes _).trans ((if_pos hHas).trans (unitWrite_of_asks hAsks _ n _ _))), ?_⟩
    cases hOn : s.flag (Fld.ETH_CTRL_EN n) with
    | false =>
      rw [if_neg Bool.false_ne_true]
      exact ⟨hOn, fun h => absurd h Bool.false_ne_true⟩
    | true =>
      rw [if_pos rfl]
      obtain ⟨hOff, hDown⟩ := linkEnd_spec (s := s.setFlag (Fld.ETH_CTRL_EN n) false) hn (flag_setFlag_on _ _ rfl rfl)
      exact ⟨hOff, fun _ => hDown⟩
  · refine ⟨_, congrArg Host.Outcome.next ((served_of_serves hServes _).trans ((if_pos hHas).trans (unitWrite_of_asks hAsks _ n _ _))), ?_⟩
    obtain ⟨hSnap, -⟩ := snapped (n := n) s 48 (Nat.le_refl 48)
    refine ⟨flag_setFlag_on _ _ rfl rfl, fun i hi => ?_⟩
    rw [reg_setFlag_ne _ _ (by show Reg.ETH_SNAP_CNT n i ≠ Reg.ETH_SNAP n; unfold Reg.ETH_SNAP_CNT Reg.ETH_SNAP; omega), hSnap i hi]
  · obtain ⟨hUp, hSpeed', hHolding, hFlushed, -⟩ := linkRise_spec s hn (speed_lt hSpeed)
    exact ⟨_, exec_linkUp hRun hHas hn26 hOn hDown hMode hSpeed, hUp, hSpeed', hHolding, hFlushed⟩
  · obtain ⟨hDown, hCnt, -, hZero, hSome⟩ := linkLoss_hold hn hUp hThru
    exact ⟨_, congrArg Host.Outcome.next ((live_of_running hRun _).trans (if_pos ⟨hHas, hn26⟩)), hDown, hCnt, hZero, hSome⟩
  · obtain ⟨hHolding, hFlushed, hNone, hCnt, -⟩ := expireHold_spec s hn
    refine ⟨_, congrArg Host.Outcome.next ((live_of_running hRun _).trans ?_), hHolding, hFlushed, hNone, hCnt⟩
    rw [hHold]
    exact if_pos hDue
  · refine congrArg Host.Outcome.next ((live_of_running hRun _).trans ?_)
    rw [hHold]
    exact if_neg (Nat.not_lt.mpr hNot)
  · refine ⟨_, exec_plcaCycle hRun hClock hT1s hMode hSend, ?_, rfl⟩
    rw [port_emit, port_setPort_same]
  · refine ⟨_, exec_transmitOpportunity_other hRun hClock hT1s (ethActive_of_maySend hSend) (.inr ⟨hMode, hSend, hLess⟩) hOther, ?_⟩
    rw [port_setPort_same]
    exact ⟨rfl, rfl⟩
  · exact exec_transmitOpportunity_own hRun hClock hT1s (ethActive_of_maySend hSend) hSend ⟨hMode, hLess⟩ hOwn hSending
  · refine ⟨_, exec_transmitOpportunity_other hRun hClock hT1s hActive (.inl hMode) hOther, ?_⟩
    rw [port_setPort_same]
    exact ⟨rfl, rfl⟩
  · refine ⟨_, exec_beaconReceipt hRun hClock hHas hT1s hOn hMode, ?_⟩
    rw [if_pos hT1sMode, reg_ethCount_same s (by decide) hn 1]
    rfl
  · exact beaconReceipt_follower hRun hClock hn hHas hT1s hOn hMode hT1sMode
  · exact beaconTimeout_spec hRun hClock hn hT1s hMode hUp hDue
  · refine congrArg Host.Outcome.next ((clocked_of_runs hRun hClock _).trans (if_neg ?_))
    rintro ⟨-, -, -, h⟩
    omega
  · refine ⟨_, s.drawn % 2 ^ min ((s.port n).attempts + 1) 10, exec_collision hRun hClock hSend hT1s hSending hNow false, ?_⟩
    have hDrawn : (s.ethCount n 39).drawn = s.drawn := by
      have hKeeps : Keeps [.now, .regs, .msixPba, .out] s (s.ethCount n 39) := .ethCount .refl rfl
      rw [State.drawn, hKeeps.frame .free rfl, ← State.drawn]
    rw [if_pos hMode]
    dsimp only
    rw [if_neg Bool.false_ne_true, if_neg (by omega), hDrawn, cycle_ethCount]
    have hCount := reg_ethCount_same s (i := 39) (by decide) hn 1
    generalize s.ethCount n 39 = v at hCount
    rw [reg_draw, reg_setPort, hCount, port_draw, port_setPort_same]
    exact ⟨rfl, rfl, Nat.mod_lt _ (Nat.two_pow_pos _), rfl, rfl⟩
  · refine ⟨_, exec_collision hRun hClock hSend hT1s hSending hNow true, ?_⟩
    rw [if_pos hMode]
    exact giveUp_counted hn hSending (by decide) (by decide) (by decide)
  · refine ⟨_, exec_collision hRun hClock hSend hT1s hSending hNow late, ?_⟩
    have hCount := reg_ethCount_same s (i := 43) (by decide) hn 1
    have hPorts := ports_ethCount s n 43 1
    rw [if_neg hMode]
    dsimp only
    rw [if_neg (by omega)]
    generalize s.ethCount n 43 = v at hCount hPorts
    rw [reg_setPort, hCount, port_setPort_same, port_of_ports hPorts]
    exact ⟨rfl, hSending, rfl⟩
  · refine ⟨_, exec_collision hRun hClock hSend hT1s hSending hNow false, ?_⟩
    dsimp only
    rw [if_neg Bool.false_ne_true, if_pos hMany, if_pos hMany]
    split
    · exact giveUp_counted hn hSending (by decide) (by decide) (by decide)
    · exact giveUp_counted hn hSending (by decide) (by decide) (by decide)
  · refine ⟨s.setPort n { s.port n with backoff := none, deferred := false },
      congrArg Host.Outcome.next ((clocked_of_runs hRun hClock _).trans ?_), ?_⟩
    · rw [hBackoff]
      exact if_pos ⟨hDue, hSend⟩
    · rw [port_setPort_same]
      exact ⟨rfl, rfl⟩
  · refine congrArg Host.Outcome.next ((clocked_of_runs hRun hClock _).trans ?_)
    rw [hBackoff]
    refine if_neg ?_
    rintro ⟨h, -⟩
    omega

end

section
/-!
SUPPORT. What the end of a copy and a drop leave of the Crossing: its queues, the frames that wait, and its counters.
-/

namespace Sys2Proof.Machine.State

/-- The queues, what waits before them, and the registers from the drop counters on are kept. -/
structure FlowKept (s t : State) : Prop where
  queues : t.xing.queues = s.xing.queues
  arrived : t.xing.arrived = s.xing.arrived
  admitted : t.xing.admitted = s.xing.admitted
  reg : ∀ a, 0x300050 ≤ a → t.reg a = s.reg a

namespace FlowKept

variable {s t u : State}

theorem refl : FlowKept s s := ⟨rfl, rfl, rfl, fun _ _ => rfl⟩

theorem trans (h : FlowKept s t) (g : FlowKept t u) : FlowKept s u :=
  ⟨g.queues.trans h.queues, g.arrived.trans h.arrived, g.admitted.trans h.admitted, fun a ha => (g.reg a ha).trans (h.reg a ha)⟩

theorem ite {c : Prop} [Decidable c] (hs : FlowKept s t) (ht : FlowKept s u) : FlowKept s (if c then t else u) := by
  split
  · exact hs
  · exact ht

theorem setFld (s : State) (f : Fld) (v : Nat) (hf : f.reg < 0x300050) : FlowKept s (s.setFld f v) :=
  ⟨rfl, rfl, rfl, fun _ ha => reg_setFld_ne s v (by omega)⟩

theorem setXing {s : State} {x : Crossing} (hQueues : x.queues = s.xing.queues) (hArrived : x.arrived = s.xing.arrived)
    (hAdmitted : x.admitted = s.xing.admitted) : FlowKept s (s.setXing x) := ⟨hQueues, hArrived, hAdmitted, fun _ _ => rfl⟩

theorem setFree (s : State) (n : Nat) : FlowKept s (s.setFree n) :=
  (setFld s Fld.XING_BUF_STAT_FREE n (by decide)).trans (setFld _ Fld.XING_BUF_STAT_MIN_FREE _ (by decide))

theorem takeCell (s : State) (f : Nat) : FlowKept s (s.takeCell f).2 := by
  have hFree (u : State) (m : Nat) (h : FlowKept s u) : FlowKept s (u.setFree m) := h.trans (setFree u m)
  exact hFree _ _ ⟨rfl, rfl, rfl, fun _ _ => rfl⟩

theorem takeCells (f n : Nat) (s : State) : FlowKept s (State.takeCells f n s).2 := by
  induction n generalizing s with
  | zero => exact refl
  | succ n ih => exact (takeCell s f).trans (ih _)

theorem setFrame (s : State) (f : Nat) (x : Option Frame) : FlowKept s (s.setFrame f x) := ⟨rfl, rfl, rfl, fun _ _ => rfl⟩

theorem frameWrite (s : State) (x : Frame) (i : Nat) (bs : List Byte) : FlowKept s (s.frameWrite x i bs) := ⟨rfl, rfl, rfl, fun _ _ => rfl⟩

theorem freeSpill (s : State) (y : Spilled) : FlowKept s (s.freeSpill y) := ⟨rfl, rfl, rfl, fun _ _ => rfl⟩

theorem xingFatal (s : State) : FlowKept s s.xingFatal :=
  ⟨rfl, rfl, rfl, fun _ ha => reg_setFlag_ne s true (by show _ ≠ Reg.XING_STAT; unfold Reg.XING_STAT; omega)⟩

theorem giveCells (s : State) (cs : List Nat) : FlowKept s (s.giveCells cs) := by
  have hFree (x : Crossing) (m : Nat) (h : FlowKept s (s.setXing x)) : FlowKept s ((s.setXing x).setFree m) := h.trans (setFree _ m)
  have hFatal (x : Crossing) (m : Nat) (h : FlowKept s (s.setXing x)) : FlowKept s (((s.setXing x).setFree m).xingFatal) :=
    (hFree x m h).trans (xingFatal _)
  unfold State.giveCells
  dsimp only
  split
  · exact hFree _ _ (setXing rfl rfl rfl)
  · exact hFatal _ _ (setXing rfl rfl rfl)

theorem leaveFlight (s : State) (gen : Nat) : FlowKept s (s.leaveFlight gen) := ite (setFld s _ _ (by decide)) refl

theorem settleFrame (s : State) (f : Nat) : FlowKept s (s.settleFrame f) := by
  unfold State.settleFrame
  dsimp only
  split
  · next x _ =>
    have hGiven : FlowKept s (if x.reclaimed then s.loseCells x.cells true else s.giveCells x.cells) :=
      ite ⟨rfl, rfl, rfl, fun _ _ => rfl⟩ (giveCells s _)
    exact ite (ite (hGiven.trans (setFrame _ f _)) (hGiven.trans (setFrame _ f _))) refl
  · exact refl

theorem dropRef (s : State) (f : Nat) : FlowKept s (s.dropRef f) := by
  unfold State.dropRef
  split
  · exact (setFrame s f _).trans (settleFrame _ f)
  · exact refl

theorem endCopy (s : State) (f : Nat) (onChip : Bool) : FlowKept s (s.endCopy f onChip) := by
  unfold State.endCopy
  dsimp only
  split
  · exact trans (ite ((setFrame s f _).trans (leaveFlight _ _)) (setFrame s f _)) (settleFrame _ f)
  · exact refl

theorem queue (h : FlowKept s t) (q : Nat) : t.queue q = s.queue q := by rw [State.queue, h.queues, State.queue]

end FlowKept

variable {s t u : State} {q f : Nat} {c : Copy} {x : Frame}

/-! ### Drops -/

/-- A drop counted under its reason. -/
def dropCount (s : State) (reason : Nat) : State := s.count (Fld.XING_DROP_COUNT reason)

/-- A counted drop recorded in XING_DROP_LAST. -/
def dropNoted (s : State) (reason source queue now : Nat) : State :=
  ((s.setXing { s.xing with dropAt := some now }).setReg Reg.XING_DROP_LAST
    (BitVec.ofNat 32 (reason + 2 ^ 8 * source + 2 ^ 16 * queue))).setFlag Fld.XING_DROP_LAST_VALID true

theorem drop_eq (s : State) {reason : Nat} (h : reason ≠ 5) (source queue : Nat) : s.drop reason source queue =
    if s.xing.dropAt = some (s.cycle * 5 / 8) ∧ s.fld Fld.XING_DROP_LAST_REASON < reason then
      (s.dropCount reason).setFlag Fld.XING_DROP_LAST_VALID true
    else (s.dropCount reason).dropNoted reason source queue (s.cycle * 5 / 8) := by
  unfold State.drop
  dsimp only
  rw [if_neg h]
  rfl

theorem dropReg_ne_last (r : Nat) : Reg.XING_DROP r ≠ Reg.XING_DROP_LAST := by
  unfold Reg.XING_DROP Reg.XING_DROP_LAST
  omega

theorem dropNoted_spec (s : State) (reason source queue now : Nat) :
    (s.dropNoted reason source queue now).xing = { s.xing with dropAt := some now } ∧
      ∀ r, (s.dropNoted reason source queue now).reg (Reg.XING_DROP r) = s.reg (Reg.XING_DROP r) := by
  unfold dropNoted
  refine ⟨by rw [setFlag_xing, setReg_xing]; rfl, fun r => ?_⟩
  have hNe : Reg.XING_DROP r ≠ Fld.reg Fld.XING_DROP_LAST_VALID := dropReg_ne_last r
  rw [reg_setFlag_ne _ _ hNe, reg_setReg_ne _ _ (dropReg_ne_last r), reg_setXing]

/-- What a drop leaves. -/
theorem drop_spec (s : State) {reason : Nat} (h : reason ≠ 5) (source queue : Nat) :
    (s.drop reason source queue).fld (Fld.XING_DROP_COUNT reason) = min (2 ^ 32 - 1) (s.fld (Fld.XING_DROP_COUNT reason) + 1) ∧
      (s.drop reason source queue).xing.queues = s.xing.queues ∧ (s.drop reason source queue).xing.arrived = s.xing.arrived ∧
      (s.drop reason source queue).xing.admitted = s.xing.admitted ∧ (s.drop reason source queue).xing.frames = s.xing.frames := by
  have hCount : (s.dropCount reason).fld (Fld.XING_DROP_COUNT reason) = min (2 ^ 32 - 1) (s.fld (Fld.XING_DROP_COUNT reason) + 1) :=
    fld_count_on (f := Fld.XING_DROP_COUNT reason) s 1 rfl
  have hXing : (s.dropCount reason).xing = s.xing := count_xing ..
  rw [drop_eq s h]
  generalize s.dropCount reason = u at hCount hXing
  split
  · refine ⟨?_, by rw [setFlag_xing, hXing], by rw [setFlag_xing, hXing], by rw [setFlag_xing, hXing], by rw [setFlag_xing, hXing]⟩
    have hReg : (u.setFlag Fld.XING_DROP_LAST_VALID true).reg (Reg.XING_DROP reason) = u.reg (Reg.XING_DROP reason) :=
      reg_setFlag_ne u true (dropReg_ne_last reason)
    rw [fld_of_reg (f := Fld.XING_DROP_COUNT reason) hReg, hCount]
  · obtain ⟨hNotedXing, hNotedReg⟩ := dropNoted_spec u reason source queue (s.cycle * 5 / 8)
    refine ⟨?_, by rw [hNotedXing, hXing], by rw [hNotedXing, hXing], by rw [hNotedXing, hXing], by rw [hNotedXing, hXing]⟩
    rw [fld_of_reg (f := Fld.XING_DROP_COUNT reason) (hNotedReg reason), hCount]

/-- The record of a drop that is the cycle's first or has a lower code. -/
theorem drop_last (s : State) {reason : Nat} (h : reason ≠ 5) (source queue : Nat)
    (hFirst : s.xing.dropAt = some (s.cycle * 5 / 8) → ¬s.fld Fld.XING_DROP_LAST_REASON < reason) :
    (s.drop reason source queue).reg Reg.XING_DROP_LAST =
      fieldSet (BitVec.ofNat 32 (reason + 2 ^ 8 * source + 2 ^ 16 * queue)) 31 1 1 := by
  rw [drop_eq s h, if_neg fun hBoth => hFirst hBoth.1 hBoth.2]
  generalize s.dropCount reason = u
  unfold dropNoted
  have hFlag (v : State) : (v.setFlag Fld.XING_DROP_LAST_VALID true).reg Reg.XING_DROP_LAST = fieldSet (v.reg Reg.XING_DROP_LAST) 31 1 1 :=
    reg_setReg_same v _ _
  rw [hFlag, reg_setReg_same]

end Sys2Proof.Machine.State
end

section
/-!
PROOF. O42: classification, the queues and their scheduler.
-/

namespace Sys2Proof.Machine.State

variable {s t u : State} {q f n : Nat} {c : Copy} {x : Frame} {d : Direct}

/-! ### Classification -/

theorem vlanStep_gen (s : State) (x : Frame) (g : Nat) : s.vlanStep { x with gen := g } = s.vlanStep x := rfl

theorem vlanStep_setFrame (s : State) (f : Nat) (y : Option Frame) (x : Frame) : (s.setFrame f y).vlanStep x = s.vlanStep x := rfl

theorem vlanStep_taken (s : State) (l : List Nat) (k : Nat) (x : Frame) :
    (s.setXing { s.xing with arrived := l, lastSource := k }).vlanStep x = s.vlanStep x := rfl

/-- The frame whose classification starts leaves the list. -/
def frameTaken (s : State) (f : Nat) : State :=
  s.setXing { s.xing with arrived := s.xing.arrived.filter (· != f), lastSource := s.sourceOf f }

theorem exec_classification (hRun : s.inReset = false) (hClock : s.clockGone 0 = false) (hNext : s.nextArrived = some f) :
    exec .classification s = .next ((s.frameTaken f).classify f) := by
  refine congrArg Host.Outcome.next ((clocked_of_runs hRun hClock _).trans ?_)
  rw [hNext]
  rfl

/-- A frame without VLAN is dropped. -/
theorem classify_noVlan (hFrame : s.frame f = some x) (hFatal : s.flag Fld.XING_STAT_FATAL = false) (hDirect : x.direct = none)
    (hVlan : s.vlanStep x = none) : s.classify f = (s.setFrame f (some { x with gen := s.curGen })).dropFrame f 0x01 := by
  have hFatal' : (s.setFrame f (some { x with gen := s.curGen })).flag Fld.XING_STAT_FATAL = false := hFatal
  have hVlan' : (s.setFrame f (some { x with gen := s.curGen })).vlanStep { x with gen := s.curGen } = none := by
    rw [vlanStep_gen, vlanStep_setFrame, hVlan]
  unfold classify
  rw [hFrame]
  dsimp only
  rw [hFatal', if_neg Bool.false_ne_true]
  split
  · next hSome => exact absurd (hDirect.symm.trans hSome) (by simp)
  · split
    · rfl
    · next hSome => exact absurd (hVlan'.symm.trans hSome) (by simp)

theorem dropFrame_eq (hFrame : s.frame f = some x) (reason : Nat) :
    s.dropFrame f reason = (s.drop reason x.source 0x1FF).endCopy f true := by
  rw [dropFrame, hFrame]

theorem fieldSet_top {w : Word} (h : w.toNat < 2 ^ 31) : fieldSet w 31 1 1 = BitVec.ofNat 32 (w.toNat + 2 ^ 31) := by
  apply BitVec.eq_of_getLsbD_eq
  intro i hi
  rw [getLsbD_fieldSet, BitVec.getLsbD_ofNat, decide_eq_true hi, Bool.true_and, Bool.true_and, Nat.add_comm w.toNat]
  by_cases hTop : i = 31
  · subst hTop
    rw [if_pos ⟨Nat.le_refl _, by decide⟩, Nat.testBit_two_pow_add_eq, Nat.testBit_lt_two_pow h]
    rfl
  · rw [if_neg (by omega), Nat.testBit_two_pow_add_gt (by omega), BitVec.testBit_toNat]

/-- A frame without VLAN, dropped and recorded. -/
theorem classification_noVlan (hRun : s.inReset = false) (hClock : s.clockGone 0 = false) (hNext : s.nextArrived = some f)
    (hFrame : s.frame f = some x) (hFatal : s.flag Fld.XING_STAT_FATAL = false) (hDirect : x.direct = none)
    (hVlan : s.vlanStep x = none) (hSource : x.source < 256) :
    ∃ t, exec .classification s = .next t ∧ t.xing.arrived = s.xing.arrived.filter (· != f) ∧ t.xing.admitted = s.xing.admitted ∧
      t.fld (Fld.XING_DROP_COUNT 1) = min (2 ^ 32 - 1) (s.fld (Fld.XING_DROP_COUNT 1) + 1) ∧
      ((s.xing.dropAt = some (s.cycle * 5 / 8) → 1 ≤ s.fld Fld.XING_DROP_LAST_REASON) →
        t.reg Reg.XING_DROP_LAST = BitVec.ofNat 32 (1 + 2 ^ 8 * x.source + 2 ^ 16 * 0x1FF + 2 ^ 31)) := by
  refine ⟨_, exec_classification hRun hClock hNext, ?_⟩
  have hTaken : (s.frameTaken f).frame f = some x := hFrame
  rw [classify_noVlan hTaken hFatal hDirect hVlan, dropFrame_eq (frame_setFrame _ f _)]
  dsimp only
  have hSame (y : Frame) : ((s.frameTaken f).setFrame f (some y)).xing.arrived = s.xing.arrived.filter (· != f) ∧
      ((s.frameTaken f).setFrame f (some y)).xing.admitted = s.xing.admitted ∧
      ((s.frameTaken f).setFrame f (some y)).xing.dropAt = s.xing.dropAt ∧
      ((s.frameTaken f).setFrame f (some y)).cycle = s.cycle ∧
      ∀ g, ((s.frameTaken f).setFrame f (some y)).fld g = s.fld g := ⟨rfl, rfl, rfl, rfl, fun _ => rfl⟩
  obtain ⟨hArrived, hAdmitted, hDropAt, hCycle, hFld⟩ := hSame { x with gen := (s.frameTaken f).curGen }
  generalize (s.frameTaken f).setFrame f (some { x with gen := (s.frameTaken f).curGen }) = u at hArrived hAdmitted hDropAt hCycle hFld
  obtain ⟨hCount, -, hArrived', hAdmitted', -⟩ := drop_spec u (reason := 1) (by decide) x.source 0x1FF
  have hLast := drop_last u (reason := 1) (by decide) x.source 0x1FF
  generalize u.drop 1 x.source 0x1FF = v at hCount hArrived' hAdmitted' hLast
  have hEnd := FlowKept.endCopy v f true
  refine ⟨hEnd.arrived.trans (hArrived'.trans hArrived), hEnd.admitted.trans (hAdmitted'.trans hAdmitted), ?_, fun hFirst => ?_⟩
  · rw [fld_of_reg (f := Fld.XING_DROP_COUNT 1) (hEnd.reg _ (by decide)), hCount, hFld]
  · rw [hEnd.reg _ (by decide), hLast ?_, fieldSet_top]
    · rw [BitVec.toNat_ofNat, Nat.mod_eq_of_lt (by omega)]
    · rw [BitVec.toNat_ofNat]
      omega
    · rw [hDropAt, hCycle, hFld]
      intro hNow
      have := hFirst hNow
      omega

/-! ### A directed frame -/

/-- What a directed frame takes in place of a lookup. -/
def noLookup : Lookup := { drop := false, mask := 0, prio := none, mirror := false, flow := none, tag := 0, filter := none }

theorem classify_direct (hFrame : s.frame f = some x) (hFatal : s.flag Fld.XING_STAT_FATAL = false) (hDirect : x.direct = some d) :
    s.classify f = ((s.setFrame f (some { x with gen := s.curGen })).setFrame f
      (some { x with gen := s.curGen, vid := d.vid, prio := d.prio })).classifyTail f
        { x with gen := s.curGen, vid := d.vid, prio := d.prio } noLookup := by
  have hFatal' : (s.setFrame f (some { x with gen := s.curGen })).flag Fld.XING_STAT_FATAL = false := hFatal
  unfold classify
  rw [hFrame]
  dsimp only
  rw [hFatal', if_neg Bool.false_ne_true]
  split
  · next hSome =>
    obtain rfl : d = _ := Option.some.inj (hDirect.symm.trans hSome)
    rfl
  · next hNone => exact absurd (hDirect.symm.trans hNone) (by simp)

theorem destinations_direct (hDirect : x.direct = some d) (l : Lookup) (hLow : 34 ≤ d.dest) (hHigh : d.dest < 43)
    (hValid : fieldGet (s.tbl 4 (d.dest * 8 + x.prio)).d0 9 1 = 1) : s.destinations x l = ([d.dest], []) := by
  unfold destinations
  rw [hDirect]
  dsimp only [Option.isSome]
  simp only [Bool.true_or, if_true, List.filterMap_cons, List.filterMap_nil]
  rw [if_neg (by omega)]
  simp [hLow, hValid]
  omega

theorem classifyTail_direct (hDirect : x.direct = some d) (hTag : x.tag = none) (hLow : 34 ≤ d.dest) (hHigh : d.dest < 43)
    (hValid : fieldGet (s.tbl 4 (d.dest * 8 + x.prio)).d0 9 1 = 1) : s.classifyTail f x noLookup =
      ((s.setFrame f (some { x with flow := none })).offerCopy f d.dest).endCopy f true := by
  have hFlow : s.flowOf x noLookup.flow = (none, false) := by
    unfold flowOf
    rw [hDirect, hTag]
    rfl
  have hDest := destinations_direct (s := s.setFrame f (some { x with flow := none })) (x := { x with flow := none }) hDirect noLookup
    hLow hHigh hValid
  unfold classifyTail
  rw [hFlow]
  dsimp only
  have hNoAlley : x.direct.isNone = false := by
    rw [hDirect]
    rfl
  rw [if_neg Bool.false_ne_true, if_neg (by decide)]
  simp only [hNoAlley, Bool.false_and, Bool.false_eq_true, if_false, hDest, List.foldl_nil, List.isEmpty_cons, List.foldl_cons]

/-- A copy for a destination that is no port, of a queue without spill and with room. -/
theorem offerCopy_admits {dest : Nat} (hFrame : s.frame f = some x) (hGen : x.gen = s.curGen) (hLow : 34 ≤ dest)
    (hQueue : fieldGet (s.tbl 4 (dest * 8 + x.prio)).d0 0 9 = q) (hReserve : s.fld Fld.XING_BUF_CFG_HI_RESERVE ≤ s.freeCells)
    (hChip : fieldGet (s.tbl 5 q).d0 13 1 = 0) (hRoom : s.queueCells q + x.cells.length ≤ fieldGet (s.tbl 5 q).d1 0 16) :
    ∃ k : Copy, k.frame = f ∧ k.dest = dest ∧ k.queue = q ∧ (s.offerCopy f dest).xing.admitted = s.xing.admitted ++ [(k, false)] ∧
      (s.offerCopy f dest).xing.arrived = s.xing.arrived := by
  have hTbl : s.tblOf x.gen 4 (dest * 8 + x.prio) = s.tbl 4 (dest * 8 + x.prio) := if_pos hGen
  have hMode : s.modeBars x dest = false := by
    rw [modeBars, decide_eq_false (by omega)]
    rfl
  refine ⟨{ frame := f, dest := dest, queue := q, alley := false, size := x.len, cells := x.cells.length, gen := x.gen, enqueued := 0 },
    rfl, rfl, rfl, ?_⟩
  unfold offerCopy
  rw [hFrame]
  dsimp only
  rw [hTbl, hQueue, hMode, if_neg Bool.false_ne_true, if_neg (by omega), if_neg (by omega), if_neg ?_]
  · exact ⟨rfl, rfl⟩
  · rintro (h | ⟨⟨h, -⟩, -⟩)
    · omega
    · omega

/-- Only frames differ. -/
structure FramesOnly (s t : State) : Prop where
  arrived : t.xing.arrived = s.xing.arrived
  admitted : t.xing.admitted = s.xing.admitted
  gen : t.curGen = s.curGen
  tbl : ∀ i j, t.tbl i j = s.tbl i j
  fld : ∀ g, t.fld g = s.fld g
  cells : ∀ q, t.queueCells q = s.queueCells q

theorem FramesOnly.setFrame (s : State) (f : Nat) (y : Option Frame) : FramesOnly s (s.setFrame f y) :=
  ⟨rfl, rfl, rfl, fun _ _ => rfl, fun _ => rfl, fun _ => rfl⟩

theorem FramesOnly.trans (h : FramesOnly s t) (g : FramesOnly t u) : FramesOnly s u :=
  ⟨g.arrived.trans h.arrived, g.admitted.trans h.admitted, g.gen.trans h.gen, fun i j => (g.tbl i j).trans (h.tbl i j),
    fun k => (g.fld k).trans (h.fld k), fun k => (g.cells k).trans (h.cells k)⟩

/-- A directed frame at a mapped queue with room is admitted. -/
theorem classification_direct (hRun : s.inReset = false) (hClock : s.clockGone 0 = false) (hNext : s.nextArrived = some f)
    (hFrame : s.frame f = some x) (hFatal : s.flag Fld.XING_STAT_FATAL = false) (hDirect : x.direct = some d) (hTag : x.tag = none)
    (hLow : 34 ≤ d.dest) (hHigh : d.dest < 43) (hQueue : fieldGet (s.tbl 4 (d.dest * 8 + d.prio)).d0 0 9 = q)
    (hValid : fieldGet (s.tbl 4 (d.dest * 8 + d.prio)).d0 9 1 = 1) (hReserve : s.fld Fld.XING_BUF_CFG_HI_RESERVE ≤ s.freeCells)
    (hChip : fieldGet (s.tbl 5 q).d0 13 1 = 0) (hRoom : s.queueCells q + x.cells.length ≤ fieldGet (s.tbl 5 q).d1 0 16) :
    ∃ t k, exec .classification s = .next t ∧ t.xing.arrived = s.xing.arrived.filter (· != f) ∧
      t.xing.admitted = s.xing.admitted ++ [(k, false)] ∧ k.frame = f ∧ k.dest = d.dest ∧ k.queue = q := by
  have hTaken : (s.frameTaken f).frame f = some x := hFrame
  have hStart : FramesOnly (s.frameTaken f) ((s.frameTaken f).setFrame f (some { x with gen := s.curGen })) := .setFrame _ f _
  have hKnown : FramesOnly (s.frameTaken f) (((s.frameTaken f).setFrame f (some { x with gen := s.curGen })).setFrame f
      (some { x with gen := s.curGen, vid := d.vid, prio := d.prio })) := hStart.trans (.setFrame _ f _)
  have hExec := exec_classification hRun hClock hNext
  rw [classify_direct hTaken hFatal hDirect] at hExec
  have hFinal : FramesOnly (s.frameTaken f) ((((s.frameTaken f).setFrame f (some { x with gen := s.curGen })).setFrame f
      (some { x with gen := s.curGen, vid := d.vid, prio := d.prio })).setFrame f
        (some { x with gen := s.curGen, vid := d.vid, prio := d.prio, flow := none })) := hKnown.trans (.setFrame _ f _)
  have hTail := classifyTail_direct (f := f) (s := ((s.frameTaken f).setFrame f (some { x with gen := s.curGen })).setFrame f
    (some { x with gen := s.curGen, vid := d.vid, prio := d.prio })) (x := { x with gen := s.curGen, vid := d.vid, prio := d.prio })
    hDirect hTag hLow hHigh (by rw [hKnown.tbl]; exact hValid)
  have hNow := frame_setFrame (((s.frameTaken f).setFrame f (some { x with gen := s.curGen })).setFrame f
    (some { x with gen := s.curGen, vid := d.vid, prio := d.prio })) f (some { x with gen := s.curGen, vid := d.vid, prio := d.prio, flow := none })
  have hExec' := hExec.trans (congrArg Host.Outcome.next hTail)
  dsimp only at hExec'
  generalize (((s.frameTaken f).setFrame f (some { x with gen := s.curGen })).setFrame f
    (some { x with gen := s.curGen, vid := d.vid, prio := d.prio })).setFrame f
      (some { x with gen := s.curGen, vid := d.vid, prio := d.prio, flow := none }) = u at hFinal hNow hExec'
  obtain ⟨k, hFrameK, hDestK, hQueueK, hAdmitted, hArrived⟩ := offerCopy_admits (q := q) hNow hFinal.gen.symm hLow
    (by rw [hFinal.tbl]; exact hQueue) (by rw [hFinal.fld, freeCells, hFinal.fld]; exact hReserve) (by rw [hFinal.tbl]; exact hChip)
    (by rw [hFinal.tbl, hFinal.cells]; exact hRoom)
  have hEnd := FlowKept.endCopy (u.offerCopy f d.dest) f true
  exact ⟨_, k, hExec', hEnd.arrived.trans (hArrived.trans hFinal.arrived),
    hEnd.admitted.trans (hAdmitted.trans (by rw [hFinal.admitted]; rfl)), hFrameK, hDestK, hQueueK⟩

end Sys2Proof.Machine.State
end

section
/-!
PROOF. O42: enqueueing, the scheduler's choice, gates and spill, and the obligation.
-/

namespace Sys2Proof.Machine.State

variable {s t u : State} {q f n : Nat} {c : Copy} {x : Frame} {y : Spilled}

/-! ### A queue written -/

/-- What writing a queue keeps beside it. -/
structure QueueSet (s t : State) (q : Nat) (x : Queue) : Prop where
  queue : t.queue q = x
  frames : t.xing.frames = s.xing.frames
  admitted : t.xing.admitted = s.xing.admitted
  tables : t.xing.tables = s.xing.tables
  buffer : t.xing.buffer = s.xing.buffer
  ports : t.ports = s.ports
  reg : ∀ a, (∀ q < 512, a ≠ Reg.XING_QDEPTH q) → t.reg a = s.reg a

theorem QueueSet.of_setQueue (s : State) (q : Nat) (x : Queue) : QueueSet s (s.setQueue q x) q x := by
  have hDepth (u : State) : (u.showDepth q).xing = u.xing ∧ (u.showDepth q).ports = u.ports ∧
      ∀ a, (∀ q < 512, a ≠ Reg.XING_QDEPTH q) → (u.showDepth q).reg a = u.reg a := by
    unfold showDepth
    dsimp only
    split
    · next hq => exact ⟨rfl, rfl, fun a ha => reg_setReg_ne u _ (ha q hq)⟩
    · exact ⟨rfl, rfl, fun _ _ => rfl⟩
  obtain ⟨hXing, hPorts, hReg⟩ := hDepth (s.setXing { s.xing with queues := Store.set (fun _ => {}) s.xing.queues q x })
  unfold setQueue
  generalize (s.setXing { s.xing with queues := Store.set (fun _ => {}) s.xing.queues q x }).showDepth q = t at hXing hPorts hReg
  refine ⟨?_, by rw [hXing]; rfl, by rw [hXing]; rfl, by rw [hXing]; rfl, by rw [hXing]; rfl, hPorts, hReg⟩
  rw [State.queue, hXing]
  exact Store.get_set_same s.xing.queues q x

theorem QueueSet.fld {x : Queue} (h : QueueSet s t q x) {g : Fld} (hg : g.reg < 0x301000 ∨ 0x301800 ≤ g.reg) : t.fld g = s.fld g :=
  fld_of_reg (h.reg _ fun q hq => by unfold Reg.XING_QDEPTH; omega)

theorem QueueSet.flag {x : Queue} (h : QueueSet s t q x) {g : Fld} (hg : g.reg < 0x301000 ∨ 0x301800 ≤ g.reg) : t.flag g = s.flag g :=
  flag_of_reg (h.reg _ fun q hq => by unfold Reg.XING_QDEPTH; omega)

theorem QueueSet.tbl {x : Queue} (h : QueueSet s t q x) (i j : Nat) : t.tbl i j = s.tbl i j := by rw [State.tbl, h.tables, State.tbl]

theorem QueueSet.frame {x : Queue} (h : QueueSet s t q x) (f : Nat) : t.frame f = s.frame f := by rw [State.frame, h.frames, State.frame]

/-! ### Heads that may stay -/

/-- The head of a queue has no reason to go. -/
theorem headReason_none (hPort : c.dest < 34 → s.flag (Fld.ETH_CTRL_EN c.dest) = true ∧ s.flag (Fld.ETH_STAT_FLUSHED c.dest) = false ∧
    s.isThru c.dest = false) (hRes : fieldGet (s.tbl 5 q).d1 16 16 = 0) : s.headReason q c = none := by
  unfold headReason
  dsimp only
  rw [if_neg, if_neg (fun h => h.1 hRes)]
  rintro ⟨hLow, hBad⟩
  obtain ⟨hOn, hFlushed, hThru⟩ := hPort hLow
  rw [hOn, hFlushed, hThru] at hBad
  exact Bool.false_ne_true hBad

theorem settleQueue_nil (h : (s.queue q).copies = []) : s.settleQueue q = s := by
  unfold settleQueue
  rw [h]
  rfl

theorem settleQueue_single (h : (s.queue q).copies = [c]) (hStay : s.headReason q c = none) : s.settleQueue q = s := by
  unfold settleQueue
  rw [h]
  show settleHeads q 1 s = s
  unfold settleHeads
  rw [h]
  dsimp only
  rw [hStay]

theorem settleHead_single (was : Option Copy) (h : (s.queue q).copies = [c]) (hStay : s.headReason q c = none) : s.settleHead q was = s := by
  unfold settleHead
  split
  · rfl
  · exact settleQueue_single h hStay

/-! ### Enqueueing -/

theorem exec_copyEnqueue (hRun : s.inReset = false) (hClock : s.clockGone 0 = false) : exec .copyEnqueue s = .next s.enqueue :=
  congrArg Host.Outcome.next (clocked_of_runs hRun hClock _)

theorem enqueue_chip {rest : List (Copy × Bool)} (hAdmitted : s.xing.admitted = (c, false) :: rest) (hQueue : (s.queue c.queue).copies = [])
    (hRes : fieldGet (s.tbl 5 c.queue).d1 16 16 = 0)
    (hPort : c.dest < 34 → s.flag (Fld.ETH_CTRL_EN c.dest) = true ∧ s.flag (Fld.ETH_STAT_FLUSHED c.dest) = false ∧ s.isThru c.dest = false) :
    s.enqueue.xing.admitted = rest ∧
      (s.enqueue.queue c.queue).copies = [{ c with enqueued := s.cycle, joined := s.lineTime, seq := s.xing.nextSeq }] := by
  have hEnqueue : s.enqueue = ((s.setXing { s.xing with admitted := rest, nextSeq := s.xing.nextSeq + 1 }).setQueue c.queue
      { s.queue c.queue with copies := [{ c with enqueued := s.cycle, joined := s.lineTime, seq := s.xing.nextSeq }] }).settleHead
        c.queue none := by
    unfold enqueue
    rw [hAdmitted]
    dsimp only
    rw [if_neg Bool.false_ne_true]
    have hSame : (s.setXing { s.xing with admitted := rest, nextSeq := s.xing.nextSeq + 1 }).queue c.queue = s.queue c.queue := rfl
    rw [hSame, hQueue]
    rfl
  have hSet := QueueSet.of_setQueue (s.setXing { s.xing with admitted := rest, nextSeq := s.xing.nextSeq + 1 }) c.queue
    { s.queue c.queue with copies := [{ c with enqueued := s.cycle, joined := s.lineTime, seq := s.xing.nextSeq }] }
  rw [hEnqueue]
  generalize (s.setXing { s.xing with admitted := rest, nextSeq := s.xing.nextSeq + 1 }).setQueue c.queue
    { s.queue c.queue with copies := [{ c with enqueued := s.cycle, joined := s.lineTime, seq := s.xing.nextSeq }] } = v at hSet
  have hCopies : (v.queue c.queue).copies = [{ c with enqueued := s.cycle, joined := s.lineTime, seq := s.xing.nextSeq }] := by
    rw [hSet.queue]
  have hStay : v.headReason c.queue { c with enqueued := s.cycle, joined := s.lineTime, seq := s.xing.nextSeq } = none := by
    refine headReason_none (fun hLow => ?_) ((congrArg (fun e : Entry => fieldGet e.d1 16 16) (hSet.tbl 5 c.queue)).trans hRes)
    obtain ⟨hOn, hFlushed, hThru⟩ := hPort hLow
    refine ⟨(hSet.flag (.inr ?_)).trans hOn, (hSet.flag (.inr ?_)).trans hFlushed, (hSet.flag (.inr ?_)).trans hThru⟩
    · show 0x301800 ≤ Reg.ETH_CTRL c.dest
      unfold Reg.ETH_CTRL
      omega
    · show 0x301800 ≤ Reg.ETH_STAT c.dest
      unfold Reg.ETH_STAT
      omega
    · show 0x301800 ≤ Reg.ETH_THRU c.dest
      unfold Reg.ETH_THRU
      omega
  rw [settleHead_single none hCopies hStay]
  exact ⟨hSet.admitted, hCopies⟩

/-! ### The scheduler -/

theorem eligibleHead_single (hCopies : (s.queue q).copies = [c]) (hSpill : (s.queue q).spill = []) (hDest : c.dest = n)
    (hGate : s.gatePasses q c = true) : s.eligibleHead q n = some c := by
  unfold eligibleHead
  rw [hCopies]
  dsimp only
  rw [hSpill, if_pos ⟨hDest, hGate, rfl⟩]

theorem level_found (s : State) (q : Nat) :
    ([7, 6, 5, 4, 3, 2, 1, 0].find? fun l => [q].any fun q => s.qLevel q == l) = some (s.qLevel q) := by
  have hLevel : s.qLevel q < 8 := fieldGet_lt ..
  simp only [List.any_cons, List.any_nil, Bool.or_false]
  generalize s.qLevel q = l at hLevel
  interval_cases l <;> rfl

/-- The rotation's queue written after its head is taken. -/
def headTaken (s : State) (q key size : Nat) : State :=
  let s := (s.setQueue q { s.queue q with deficit := (s.queue q).deficit - size }).takeHead q
  s.setXing { s.xing with turn := Store.set (fun _ => 0) s.xing.turn key q }

theorem roundRobin_first {qs : List Nat} {key k : Nat} (hHead : s.eligibleHead q n = some c) (hDeficit : c.size ≤ (s.queue q).deficit) :
    roundRobin qs n key (k + 1) q s = some (c, s.headTaken q key c.size) := by
  unfold roundRobin
  rw [hHead]
  dsimp only
  rw [if_neg (Nat.not_lt.mpr hDeficit)]
  rfl

theorem choose_single (hQueues : s.queuesOf n = [q]) (hHead : s.eligibleHead q n = some c) (hAlley : s.isAlleyQueue q n = false)
    (hDeficit : c.size ≤ (s.queue q).deficit) : ∃ key, s.choose n = some (c, s.headTaken q key c.size) := by
  have hEligible : ((s.queuesOf n).filter fun q => (s.eligibleHead q n).isSome) = [q] := by
    rw [hQueues, List.filter_cons_of_pos (by rw [hHead]; rfl), List.filter_nil]
  have hReady : ([q].filter fun q => !s.isAlleyQueue q n) = [q] := by
    rw [List.filter_cons_of_pos (by rw [hAlley]; rfl), List.filter_nil]
  have hLevel : ([q].filter fun k => s.qLevel k == s.qLevel q) = [q] := by
    rw [List.filter_cons_of_pos (by rw [beq_iff_eq]), List.filter_nil]
  have hFirst (last : Nat) : (if [q].contains last then last else nextInTurn [q] last) = q := by
    by_cases h : last = q
    · rw [h, if_pos (by simp)]
    · rw [if_neg (by simpa using h), nextInTurn, List.find?_cons]
      split
      · next hFound =>
        split at hFound
        · exact (Option.some.inj hFound).symm
        · cases hFound
      · rfl
  refine ⟨n * 8 + s.qLevel q, ?_⟩
  unfold choose
  dsimp only
  rw [hEligible, hReady, level_found]
  dsimp only
  rw [hLevel, hFirst]
  exact roundRobin_first hHead hDeficit

theorem QueueSet.trans {x y : Queue} (h : QueueSet s t q x) (g : QueueSet t u q y) : QueueSet s u q y :=
  ⟨g.queue, g.frames.trans h.frames, g.admitted.trans h.admitted, g.tables.trans h.tables, g.buffer.trans h.buffer, g.ports.trans h.ports,
    fun a ha => (g.reg a ha).trans (h.reg a ha)⟩

theorem takeHead_set (hCopies : (s.queue q).copies = [c]) (hSpill : (s.queue q).spill = []) : QueueSet s (s.takeHead q) q {} := by
  have hTaken : s.takeHead q = s.setQueue q {} := by
    unfold takeHead
    dsimp only
    rw [hCopies, hSpill]
    rfl
  rw [hTaken]
  exact .of_setQueue s q {}

theorem headTaken_set {key size : Nat} (hCopies : (s.queue q).copies = [c]) (hSpill : (s.queue q).spill = []) :
    QueueSet s (s.headTaken q key size) q {} := by
  have hDeficit := QueueSet.of_setQueue s q { s.queue q with deficit := (s.queue q).deficit - size }
  unfold headTaken
  dsimp only
  generalize s.setQueue q { s.queue q with deficit := (s.queue q).deficit - size } = u at hDeficit
  have hHead := hDeficit.trans (takeHead_set (s := u) (c := c) (by rw [hDeficit.queue]; exact hCopies) (by rw [hDeficit.queue]; exact hSpill))
  generalize u.takeHead q = v at hHead
  exact ⟨hHead.queue, hHead.frames, hHead.admitted, hHead.tables, hHead.buffer, hHead.ports, hHead.reg⟩

theorem QueueSet.copyBarred {x : Queue} (h : QueueSet s t q x) (c : Copy) : t.copyBarred c = s.copyBarred c := by
  have hByte (x : Frame) (i : Nat) : t.frameByte x i = s.frameByte x i := by rw [frameByte, h.buffer, frameByte]
  have hTwo (x : Frame) (i : Nat) : t.frame16 x i = s.frame16 x i := by rw [frame16, hByte, hByte, frame16]
  have hType (x : Frame) : t.etherType x = s.etherType x := by
    rw [etherType, etherOffset, isTagged, hTwo, hTwo, etherType, etherOffset, isTagged]
  have hMode : t.mode = s.mode := h.fld (.inl (by decide))
  rw [State.copyBarred, h.frame, State.copyBarred]
  cases s.frame c.frame with
  | none => rfl
  | some x =>
    dsimp only
    rw [modeBars, hMode, hType, modeBars]

theorem serve_single (hQueues : s.queuesOf n = [q]) (hCopies : (s.queue q).copies = [c]) (hSpill : (s.queue q).spill = [])
    (hDest : c.dest = n) (hQueue : c.queue = q) (hAlley : s.isAlleyQueue q n = false) (hGate : s.gatePasses q c = true)
    (hDeficit : c.size ≤ (s.queue q).deficit) :
    ∃ v, QueueSet s v q {} ∧ s.serve n = (if s.copyBarred c then v.dropCopy c 0x08 true else v.deliver c).settleQueue q := by
  obtain ⟨key, hChoose⟩ := choose_single hQueues (eligibleHead_single hCopies hSpill hDest hGate) hAlley hDeficit
  have hSet := headTaken_set (key := key) (size := c.size) hCopies hSpill
  refine ⟨_, hSet, ?_⟩
  unfold serve
  rw [hChoose]
  dsimp only
  rw [hSet.copyBarred, hQueue]

theorem queue_showDepth (s : State) (k q : Nat) : (s.showDepth k).queue q = s.queue q := by
  unfold showDepth
  dsimp only
  split <;> rfl

/-- A copy's drop leaves the queues and counts its reason. -/
theorem dropCopy_spec {reason : Nat} (hFrame : s.frame c.frame = some x) (hReason : reason ≠ 5) (onChip : Bool) (q : Nat) :
    (s.dropCopy c reason onChip).queue q = s.queue q ∧
      (s.dropCopy c reason onChip).fld (Fld.XING_DROP_COUNT reason) = min (2 ^ 32 - 1) (s.fld (Fld.XING_DROP_COUNT reason) + 1) := by
  obtain ⟨hCount, hQueues, -⟩ := drop_spec s hReason x.source c.queue
  have hDrop : s.dropCopy c reason onChip = (s.drop reason x.source c.queue).endCopy c.frame onChip := by rw [dropCopy, hFrame]
  rw [hDrop]
  generalize s.drop reason x.source c.queue = u at hCount hQueues
  have hEnd := FlowKept.endCopy u c.frame onChip
  refine ⟨by rw [hEnd.queue, State.queue, hQueues, State.queue], ?_⟩
  rw [fld_of_reg (f := Fld.XING_DROP_COUNT reason) (hEnd.reg _ (by show 0x300050 ≤ Reg.XING_DROP reason; unfold Reg.XING_DROP; omega)), hCount]

theorem ports_dropCopy (s : State) (c : Copy) (reason : Nat) (onChip : Bool) : (s.dropCopy c reason onChip).ports = s.ports := by
  have hKeeps : Keeps [.now, .regs, .xing, .notices] s (s.dropCopy c reason onChip) := .dropCopy .refl rfl
  exact hKeeps.frame .ports rfl

theorem QueueSet.dropCount {x : Queue} (h : QueueSet s t q x) {reason : Nat} (hr : reason < 256) :
    t.fld (Fld.XING_DROP_COUNT reason) = s.fld (Fld.XING_DROP_COUNT reason) :=
  h.fld (.inl (by show Reg.XING_DROP reason < 0x301000; unfold Reg.XING_DROP; omega))

theorem exec_destinationChoice (hRun : s.inReset = false) (hClock : s.clockGone 0 = false) (hn : n < 34) (hFree : s.macFree n = true)
    (hT1s : isT1s n = false) : exec (.destinationChoice n) s = .next (s.serve n) := by
  refine congrArg Host.Outcome.next ((clocked_of_runs hRun hClock _).trans ((if_pos hn).trans ((if_pos hFree).trans (if_neg ?_))))
  rw [hT1s]
  exact fun h => Bool.false_ne_true h.1

section
variable (hRun : s.inReset = false) (hClock : s.clockGone 0 = false) (hn : n < 34) (hQueues : s.queuesOf n = [q])
  (hCopies : (s.queue q).copies = [c]) (hSpill : (s.queue q).spill = []) (hDest : c.dest = n) (hQueue : c.queue = q)
  (hAlley : s.isAlleyQueue q n = false) (hGate : s.gatePasses q c = true) (hDeficit : c.size ≤ (s.queue q).deficit)
  (hFree : s.macFree n = true) (hT1s : isT1s n = false)
include hRun hClock hn hQueues hCopies hSpill hDest hQueue hAlley hGate hDeficit hFree hT1s

theorem destinationChoice_sends (hBarred : s.copyBarred c = false) :
    ∃ t, exec (.destinationChoice n) s = .next t ∧ (t.port n).sending = some c ∧ (t.queue q).copies = [] := by
  obtain ⟨v, hSet, hServe⟩ := serve_single hQueues hCopies hSpill hDest hQueue hAlley hGate hDeficit
  refine ⟨_, exec_destinationChoice hRun hClock hn hFree hT1s, ?_⟩
  have hDeliver : v.deliver c = (v.setPort n { v.port n with sending := some c, attempts := 0, deferred := false }).showDepth q := by
    unfold deliver
    rw [hDest, if_pos hn, hQueue]
  have hEmpty : ((v.deliver c).queue q).copies = [] := by
    rw [hDeliver, queue_showDepth]
    exact (congrArg Queue.copies hSet.queue)
  rw [hServe, hBarred, if_neg Bool.false_ne_true, settleQueue_nil hEmpty]
  refine ⟨?_, hEmpty⟩
  rw [hDeliver, port_of_ports (ports_showDepth _ _), port_setPort_same]

theorem destinationChoice_barred (hBarred : s.copyBarred c = true) :
    ∃ t, exec (.destinationChoice n) s = .next t ∧ (t.port n).sending = none ∧ (t.queue q).copies = [] ∧
      t.fld (Fld.XING_DROP_COUNT 0x08) = min (2 ^ 32 - 1) (s.fld (Fld.XING_DROP_COUNT 0x08) + 1) := by
  obtain ⟨v, hSet, hServe⟩ := serve_single hQueues hCopies hSpill hDest hQueue hAlley hGate hDeficit
  refine ⟨_, exec_destinationChoice hRun hClock hn hFree hT1s, ?_⟩
  have hFrame : ∃ x, s.frame c.frame = some x := by
    rw [copyBarred] at hBarred
    cases hFrame : s.frame c.frame with
    | none =>
      rw [hFrame] at hBarred
      exact absurd hBarred Bool.false_ne_true
    | some x => exact ⟨x, rfl⟩
  obtain ⟨x, hFrame⟩ := hFrame
  obtain ⟨hKept, hCount⟩ := dropCopy_spec (s := v) (c := c) (reason := 0x08) (by rw [hSet.frame]; exact hFrame) (by decide) true q
  have hEmpty : ((v.dropCopy c 0x08 true).queue q).copies = [] := by
    rw [hKept, hSet.queue]
  rw [hServe, hBarred, if_pos rfl, settleQueue_nil hEmpty]
  have hIdle : (s.port n).sending = none := by
    rw [macFree, Bool.and_eq_true] at hFree
    exact Option.isNone_iff_eq_none.mp hFree.2
  refine ⟨?_, hEmpty, by rw [hCount, hSet.dropCount (by decide)]⟩
  rw [port_of_ports ((ports_dropCopy v c 0x08 true).trans hSet.ports), hIdle]

end

theorem serve_idle (h : s.queuesOf n = []) : s.serve n = s := by
  unfold serve choose
  rw [h]
  rfl

/-! ### The end of a transmission -/

theorem out_endCopy (s : State) (f : Nat) (onChip : Bool) : (s.endCopy f onChip).out = s.out := by
  have hKeeps : Keeps [.now, .regs, .xing, .notices] s (s.endCopy f onChip) := .endCopy .refl rfl
  exact hKeeps.frame .out rfl

theorem ports_countTx (s : State) (n : Nat) (bs : List Byte) : (s.countTx n bs).ports = s.ports := by
  have hKeeps : Keeps [.now, .regs, .msixPba, .out] s (s.countTx n bs) := .countTx .refl rfl
  exact hKeeps.frame .ports rfl

theorem transmitEnd_spec (hRun : s.inReset = false) (hClock : s.clockGone 0 = false) (hSending : (s.port n).sending = some c)
    (hNow : (s.port n).deferred = false) (hFrame : s.frame c.frame = some x) :
    ∃ t, exec (.transmitEnd n) s = .next t ∧ Out.frame n (s.egressBytes x c) ∈ t.out ∧ (t.port n).sending = none := by
  have hExec : exec (.transmitEnd n) s = .next ((((s.clearSending n).countTx n (s.egressBytes x c)).emit
      (.frame n (s.egressBytes x c))).endCopy c.frame true) := by
    refine congrArg Host.Outcome.next ((clocked_of_runs hRun hClock _).trans ?_)
    dsimp only
    rw [hSending, hNow]
    dsimp only
    rw [if_neg Bool.false_ne_true, hFrame]
  refine ⟨_, hExec, ?_, ?_⟩
  · rw [out_endCopy]
    exact List.mem_cons_self
  · rw [port_of_ports (endCopy_ports _ _ _), port_emit, port_of_ports (ports_countTx _ _ _), sending_clearSending]

/-! ### Gates -/

/-- The schedules of a port kept once those before the one in force are forgotten. -/
def gatesKept (s : State) (n : Nat) (p : Instant × GateSched) : State :=
  let kept : Gates := { line := p :: (s.gates n).line.filter fun p => !decide (p.1 ≤ s.lineTime) }
  s.setXing { s.xing with gates := Store.set (fun _ => {}) s.xing.gates n kept }

theorem gates_gatesKept (s : State) (n : Nat) (p : Instant × GateSched) :
    ((s.gatesKept n p).gates n).line = p :: (s.gates n).line.filter fun p => !decide (p.1 ≤ s.lineTime) := by
  have hStored (x : Gates) : (s.setXing { s.xing with gates := Store.set (fun _ => {}) s.xing.gates n x }).gates n = x :=
    Store.get_set_same s.xing.gates n x
  unfold gatesKept
  dsimp only
  rw [hStored]

section
variable (hRun : s.inReset = false) (hClock : s.clockGone 0 = false)
include hRun hClock

theorem exec_gateEvent_some {p : Instant × GateSched}
    (hPast : ((s.gates n).line.filter fun p => decide (p.1 ≤ s.lineTime)).getLast? = some p) :
    exec (.gateEvent n) s = .next (if s.looksBack n p.1 then s else s.gatesKept n p) := by
  refine congrArg Host.Outcome.next ((clocked_of_runs hRun hClock _).trans ?_)
  dsimp only
  rw [hPast]
  rfl

theorem exec_gateEvent_none (hPast : ((s.gates n).line.filter fun p => decide (p.1 ≤ s.lineTime)).getLast? = none) :
    exec (.gateEvent n) s = .next s := by
  refine congrArg Host.Outcome.next ((clocked_of_runs hRun hClock _).trans ?_)
  dsimp only
  rw [hPast]

end

theorem past_two (now a b : Instant) (g h : GateSched) : ([(a, g), (b, h)].filter fun p => decide (p.1 ≤ now)) =
    (if a ≤ now then [(a, g)] else []) ++ if b ≤ now then [(b, h)] else [] := by
  simp only [List.filter_cons, List.filter_nil, decide_eq_true_eq]
  split <;> rfl

theorem later_two (now a b : Instant) (g h : GateSched) : ([(a, g), (b, h)].filter fun p => !decide (p.1 ≤ now)) =
    (if a ≤ now then [] else [(a, g)]) ++ if b ≤ now then [] else [(b, h)] := by
  simp only [List.filter_cons, List.filter_nil, Bool.not_eq_true', decide_eq_false_iff_not]
  by_cases ha : a ≤ now <;> by_cases hb : b ≤ now <;> simp [ha, hb]

section
variable {g h : GateSched} {a b : Instant} (hRun : s.inReset = false) (hClock : s.clockGone 0 = false)
  (hLine : (s.gates n).line = [(a, g), (b, h)]) (hOrder : a ≤ b)
include hRun hClock hLine hOrder

theorem gateEvent_second (hCome : b ≤ s.lineTime) : s.sched n = h ∧
    (s.looksBack n b = false → ∃ t, exec (.gateEvent n) s = .next t ∧ (t.gates n).line = [(b, h)]) ∧
    (s.looksBack n b = true → exec (.gateEvent n) s = .next s) := by
  have hFirst : a ≤ s.lineTime := Nat.le_trans hOrder hCome
  have hPast : ((s.gates n).line.filter fun p => decide (p.1 ≤ s.lineTime)).getLast? = some (b, h) := by
    rw [hLine, past_two, if_pos hFirst, if_pos hCome]
    rfl
  have hExec := exec_gateEvent_some hRun hClock hPast
  refine ⟨?_, fun hNone => ?_, fun hBack => ?_⟩
  · rw [sched, schedAt, hPast]
  · rw [hNone, if_neg Bool.false_ne_true] at hExec
    refine ⟨_, hExec, ?_⟩
    rw [gates_gatesKept, hLine, later_two, if_pos hFirst, if_pos hCome]
    rfl
  · rw [hExec, hBack, if_pos rfl]

omit hOrder in
theorem gateEvent_first (hWait : s.lineTime < b) : (a ≤ s.lineTime → s.sched n = g) ∧
    ∃ t, exec (.gateEvent n) s = .next t ∧ t.gates n = s.gates n := by
  have hLater : ¬b ≤ s.lineTime := Nat.not_le.mpr hWait
  by_cases hCome : a ≤ s.lineTime
  · have hPast : ((s.gates n).line.filter fun p => decide (p.1 ≤ s.lineTime)).getLast? = some (a, g) := by
      rw [hLine, past_two, if_pos hCome, if_neg hLater]
      rfl
    have hKept : ((s.gatesKept n (a, g)).gates n).line = (s.gates n).line := by
      rw [gates_gatesKept, hLine, later_two, if_pos hCome, if_neg hLater]
      rfl
    refine ⟨fun _ => by rw [sched, schedAt, hPast], _, exec_gateEvent_some hRun hClock hPast, ?_⟩
    split
    · rfl
    · cases hOld : s.gates n with
      | mk l =>
        cases hNew : (s.gatesKept n (a, g)).gates n with
        | mk m =>
          rw [hOld, hNew] at hKept
          exact congrArg Gates.mk hKept
  · have hPast : ((s.gates n).line.filter fun p => decide (p.1 ≤ s.lineTime)).getLast? = none := by
      rw [hLine, past_two, if_neg hCome, if_neg hLater]
      rfl
    exact ⟨fun h => absurd h hCome, _, exec_gateEvent_none hRun hClock hPast, rfl⟩

end

/-- The copy of a closed window is dropped. -/
theorem gateWindowClose_spec (hRun : s.inReset = false) (hClock : s.clockGone 0 = false) (hCopies : (s.queue q).copies = [c])
    (hClosed : s.windowClosed q c = true) (hFrame : s.frame c.frame = some x) :
    ∃ t, exec (.gateWindowClose q) s = .next t ∧ (t.queue q).copies = [] ∧
      t.fld (Fld.XING_DROP_COUNT 0x0C) = min (2 ^ 32 - 1) (s.fld (Fld.XING_DROP_COUNT 0x0C) + 1) := by
  have hExec : exec (.gateWindowClose q) s = .next (((s.setQueue q { s.queue q with copies := [] }).dropCopy c 0x0C true).settleHead q (some c)) := by
    refine congrArg Host.Outcome.next ((clocked_of_runs hRun hClock _).trans ?_)
    dsimp only
    rw [hCopies, List.filter_cons_of_pos hClosed, List.filter_cons_of_neg (by rw [hClosed]; exact Bool.false_ne_true), List.filter_nil]
    rfl
  refine ⟨_, hExec, ?_⟩
  have hSet := QueueSet.of_setQueue s q { s.queue q with copies := [] }
  generalize s.setQueue q { s.queue q with copies := [] } = u at hSet
  obtain ⟨hKept, hCount⟩ := dropCopy_spec (s := u) (c := c) (reason := 0x0C) (by rw [hSet.frame]; exact hFrame) (by decide) true q
  generalize u.dropCopy c 0x0C true = v at hKept hCount
  have hEmpty : (v.queue q).copies = [] := by rw [hKept, hSet.queue]
  have hSettled : v.settleHead q (some c) = v := by
    unfold settleHead
    split
    · rfl
    · exact settleQueue_nil hEmpty
  rw [hSettled]
  exact ⟨hEmpty, by rw [hCount, hSet.dropCount (by decide)]⟩

/-! ### Spill -/

/-- A write to spill completes. -/
theorem spillWriteDone_spec (hRun : s.inReset = false) (hClock : s.clockGone 0 = false) (hMclk : s.clockGone 3 = false)
    (hSpill : (s.queue q).spill = [y]) (hFrame : s.frame y.copy.frame = some x) (hBytes : y.bytes = none) :
    ∃ t, exec (.spillWriteDone q) s = .next t ∧ (t.queue q).spill = [{ y with bytes := some (s.frameBytes x) }] := by
  have hWritten : s.spillWritten q = (s.setQueue q { s.queue q with spill := [{ y with bytes := some (s.frameBytes x) }] }).dropRef
      y.copy.frame := by
    unfold spillWritten
    dsimp only
    rw [hSpill, List.find?_cons_of_pos (by rw [hBytes]; rfl)]
    dsimp only
    rw [hFrame]
    dsimp only
    rw [hMclk, if_neg Bool.false_ne_true, List.map_cons, List.map_nil, if_pos (beq_self_eq_true y)]
  refine ⟨_, congrArg Host.Outcome.next (clocked_of_runs hRun hClock _), ?_⟩
  have hSet := QueueSet.of_setQueue s q { s.queue q with spill := [{ y with bytes := some (s.frameBytes x) }] }
  rw [hWritten, (FlowKept.dropRef _ _).queue, hSet.queue]

/-- The front of the spill store read: its place in spill and in the store is free. -/
def spillRead (s : State) (q : Nat) (y : Spilled) : State := (s.setQueue q { s.queue q with spill := [] }).freeSpill y

theorem spillRead_set (s : State) (q : Nat) (y : Spilled) : QueueSet s (s.spillRead q y) q { s.queue q with spill := [] } := by
  have hSet := QueueSet.of_setQueue s q { s.queue q with spill := [] }
  unfold spillRead
  generalize s.setQueue q { s.queue q with spill := [] } = u at hSet
  exact ⟨hSet.queue, hSet.frames, hSet.admitted, hSet.tables, hSet.buffer, hSet.ports, hSet.reg⟩

theorem clockGone_setQueue (s : State) (q : Nat) (x : Queue) (y : Spilled) : ((s.setQueue q x).freeSpill y).clockGone 3 = s.clockGone 3 := by
  have hKeeps : Keeps [.regs, .xing] s ((s.setQueue q x).freeSpill y) := .freeSpill (.setQueue .refl rfl) rfl
  rw [clockGone, hKeeps.frame .clockLost rfl, ← clockGone]

/-- The cells of a frame without references read back into it. -/
def cellsBack (s : State) (y : Spilled) (x : Frame) (bs : List Byte) : State :=
  let t := takeCells y.copy.frame (cellsFor bs.length) s
  let z := { x with cells := t.1, refs := 1 }
  (t.2.setFrame y.copy.frame (some z)).frameWrite z 0 bs

theorem cellsBack_kept (s : State) (y : Spilled) (x : Frame) (bs : List Byte) : FlowKept s (s.cellsBack y x bs) ∧
    (s.cellsBack y x bs).xing.tables = s.xing.tables := by
  have hTables (k : Nat) (u : State) : (takeCells y.copy.frame k u).2.xing.tables = u.xing.tables := by
    induction k generalizing u with
    | zero => rfl
    | succ k ih => exact ih (u.takeCell y.copy.frame).2
  unfold cellsBack
  dsimp only
  have hTaken := FlowKept.takeCells y.copy.frame (cellsFor bs.length) s
  have hTab := hTables (cellsFor bs.length) s
  generalize takeCells y.copy.frame (cellsFor bs.length) s = r at hTaken hTab
  exact ⟨(hTaken.trans (.setFrame _ _ _)).trans (.frameWrite _ _ 0 bs), hTab⟩

section
variable {bs : List Byte} (hRun : s.inReset = false) (hClock : s.clockGone 0 = false) (hMclk : s.clockGone 3 = false)
  (hSpill : (s.queue q).spill = [y]) (hFrame : s.frame y.copy.frame = some x) (hBytes : y.bytes = some bs)
  (hLow : s.queueCells q < fieldGet (s.tbl 5 q).d1 0 16 / 2)
include hRun hClock hMclk hSpill hFrame hBytes hLow

/-- Without free cells the copy read back is dropped. -/
theorem spillReadBack_full (hFull : s.freeCells < cellsFor bs.length) : ∃ t, exec (.spillReadBack q) s = .next t ∧ (t.queue q).spill = [] ∧
    t.fld (Fld.XING_DROP_COUNT 0x0E) = min (2 ^ 32 - 1) (s.fld (Fld.XING_DROP_COUNT 0x0E) + 1) := by
  have hSet := spillRead_set s q y
  have hFullU : (s.spillRead q y).freeCells < cellsFor bs.length := by
    rw [freeCells, hSet.fld (.inl (by decide)), ← freeCells]
    exact hFull
  have hBack : s.readBack q = (s.spillRead q y).dropCopy y.copy 0x0E false := by
    unfold readBack
    dsimp only
    rw [hSpill]
    dsimp only
    rw [hBytes]
    dsimp only
    rw [if_pos hLow, clockGone_setQueue, hMclk, if_neg Bool.false_ne_true, if_pos]
    · rfl
    · exact .inl hFullU
  refine ⟨_, congrArg Host.Outcome.next (clocked_of_runs hRun hClock _), ?_⟩
  rw [hBack]
  obtain ⟨hKept, hCount⟩ := dropCopy_spec (s := s.spillRead q y) (c := y.copy) (reason := 0x0E) (by rw [hSet.frame]; exact hFrame)
    (by decide) false q
  exact ⟨by rw [hKept, hSet.queue], by rw [hCount, hSet.dropCount (by decide)]⟩

/-- With free cells the copy takes its place again. -/
theorem spillReadBack_joins (hRoom : cellsFor bs.length ≤ s.freeCells) (hFatal : s.flag Fld.XING_STAT_FATAL = false) (hRefs : x.refs = 0)
    (hLeases : x.leases = 0) (hCopies : (s.queue q).copies = []) (hDest : 34 ≤ y.copy.dest) (hRes : fieldGet (s.tbl 5 q).d1 16 16 = 0) :
    ∃ t, exec (.spillReadBack q) s = .next t ∧ (t.queue q).spill = [] ∧ (t.queue q).copies = [y.copy] := by
  have hSet := spillRead_set s q y
  have hRoomU : ¬((s.spillRead q y).freeCells < cellsFor bs.length ∨ (s.spillRead q y).flag Fld.XING_STAT_FATAL = true) := by
    rw [freeCells, hSet.fld (.inl (by decide)), ← freeCells, hSet.flag (.inl (by decide)), hFatal]
    rintro (h | h)
    · omega
    · exact Bool.false_ne_true h
  have hFrameU : (s.spillRead q y).frame y.copy.frame = some x := by rw [hSet.frame, hFrame]
  have hBack : s.readBack q = (((s.spillRead q y).cellsBack y x bs).rejoin q y.copy).settleHead q none := by
    unfold readBack
    dsimp only
    rw [hSpill]
    dsimp only
    rw [hBytes]
    dsimp only
    rw [if_pos hLow, clockGone_setQueue, hMclk, if_neg Bool.false_ne_true, ← spillRead, if_neg hRoomU, hFrameU]
    dsimp only
    rw [if_pos ⟨hRefs, hLeases⟩, hCopies]
    rfl
  refine ⟨_, congrArg Host.Outcome.next (clocked_of_runs hRun hClock _), ?_⟩
  rw [hBack]
  generalize s.spillRead q y = u at hSet
  obtain ⟨hFlow, hTables⟩ := cellsBack_kept u y x bs
  generalize u.cellsBack y x bs = v at hFlow hTables
  have hQueueV : v.queue q = { s.queue q with spill := [] } := by rw [hFlow.queue, hSet.queue]
  have hRejoin : v.rejoin q y.copy = v.setQueue q { s.queue q with spill := [], copies := [y.copy] } := by
    unfold rejoin
    dsimp only
    rw [hQueueV]
    dsimp only
    rw [hCopies]
    rfl
  have hJoined := QueueSet.of_setQueue v q { s.queue q with spill := [], copies := [y.copy] }
  rw [hRejoin]
  generalize v.setQueue q { s.queue q with spill := [], copies := [y.copy] } = w at hJoined
  have hCopiesW : (w.queue q).copies = [y.copy] := by rw [hJoined.queue]
  have hStay : w.headReason q y.copy = none := by
    refine headReason_none (fun h => absurd h (by omega)) ?_
    rw [hJoined.tbl, State.tbl, hTables, ← State.tbl, hSet.tbl, hRes]
  rw [settleHead_single none hCopiesW hStay]
  exact ⟨by rw [hJoined.queue], hCopiesW⟩

end

end Sys2Proof.Machine.State

open Sys2Proof Sys2Proof.Machine Sys2Proof.Machine.State

/-- Settles O42: each command is followed through the queue it writes; drops and the ends of copies keep the queues. -/
theorem crossingFrames : Obligations.CrossingFrames := by
  unfold Obligations.CrossingFrames
  intro s f q n x d c y hRun hClock hq hn
  dsimp only
  refine ⟨fun hNext hFrame hFatal => ⟨fun hDirect hVlan hSource => ?_, fun hDirect hTag hLow hHigh hValid hReserve hChip hRoom => ?_⟩,
    fun rest hAdmitted hq' hQueue hRes hPort => ?_,
    fun hQueues hCopies hSpill hDest hQueue hAlley hGate hDeficit hFree hT1s => ⟨fun hBarred => ?_, fun hBarred => ?_⟩, fun hIdle => ?_,
    fun hSending hNow hFrame => ?_, fun g u h v hLine hOrder => ⟨fun hCome => ?_, fun hWait => ?_⟩, fun hCopies hClosed hFrame => ?_,
    fun hMclk hSpill hFrame => ⟨fun hBytes => ?_, fun bs hBytes hLess => ⟨fun hFull => ?_, fun hRoom hFatal hRefs hLeases hCopies hDest hRes => ?_⟩⟩⟩
  · exact classification_noVlan hRun hClock hNext hFrame hFatal hDirect hVlan hSource
  · exact classification_direct hRun hClock hNext hFrame hFatal hDirect hTag hLow hHigh rfl hValid hReserve hChip hRoom
  · exact ⟨_, exec_copyEnqueue hRun hClock, enqueue_chip hAdmitted hQueue hRes hPort⟩
  · exact destinationChoice_sends hRun hClock hn hQueues hCopies hSpill hDest hQueue hAlley hGate hDeficit hFree hT1s hBarred
  · exact destinationChoice_barred hRun hClock hn hQueues hCopies hSpill hDest hQueue hAlley hGate hDeficit hFree hT1s hBarred
  · refine congrArg Host.Outcome.next ((clocked_of_runs hRun hClock _).trans ((if_neg (by decide)).trans ((if_pos rfl).trans ?_)))
    exact serve_idle hIdle
  · exact transmitEnd_spec hRun hClock hSending hNow hFrame
  · exact gateEvent_second hRun hClock hLine hOrder hCome
  · exact gateEvent_first hRun hClock hLine hWait
  · exact gateWindowClose_spec hRun hClock hCopies hClosed hFrame
  · exact spillWriteDone_spec hRun hClock hMclk hSpill hFrame hBytes
  · exact spillReadBack_full hRun hClock hMclk hSpill hFrame hBytes hLess hFull
  · exact spillReadBack_joins hRun hClock hMclk hSpill hFrame hBytes hLess hRoom hFatal hRefs hLeases hCopies hDest hRes

end

section
/-!
SUPPORT. What the shared operations of a serial line leave of its registers, its rings and its state (chapter 10).
-/

namespace Sys2Proof.Machine.State

variable {r s t : State} {n : Nat}

theorem lt_16_of_hasSer (h : s.variant.hasSer n = true) : n < 16 := by
  rw [Variant.hasSer, Bool.and_eq_true] at h
  exact of_decide_eq_true h.1

theorem ser_of_serials (h : t.serials = s.serials) (n : Nat) : t.ser n = s.ser n := by rw [ser, h, ser]

theorem ser_setSer (s : State) (n : Nat) (x : Serial) : (s.setSer n x).ser n = x := Store.get_set_same s.serials n x

theorem ser_fire (s : State) (kind i n : Nat) : (s.fire kind i).ser n = s.ser n := by
  have hKeeps : Keeps [.now, .regs, .engines] s (s.fire kind i) := .fire .refl rfl
  exact ser_of_serials (hKeeps.frame .serials rfl) n

theorem ser_countCode (s : State) (who : Ident) (c n : Nat) : (s.countCode who c).ser n = s.ser n := by
  have hKeeps : Keeps [.now, .regs] s (s.countCode who c) := .countCode .refl rfl
  exact ser_of_serials (hKeeps.frame .serials rfl) n

theorem ser_proxySerial (s : State) (d n char entry : Nat) : (s.proxySerial d n char entry).ser n = s.ser n := by
  have hKeeps : Keeps [.now, .regs, .red] s (s.proxySerial d n char entry) := .proxySerial .refl rfl
  exact ser_of_serials (hKeeps.frame .serials rfl) n

/-! ### The registers, the cycle and the outputs -/

/-- The registers of the serial lines and the cycle are as in `r`, and no output is lost. -/
structure LinesKept (r s : State) : Prop where
  reg : ∀ a, 0x580000 ≤ a → a < 0x584000 → s.reg a = r.reg a
  cycle : s.cycle = r.cycle
  out : r.out ⊆ s.out

namespace LinesKept

theorem refl : LinesKept s s := ⟨fun _ _ _ => rfl, rfl, fun _ h => h⟩

theorem trans (h : LinesKept r s) (h' : LinesKept s t) : LinesKept r t :=
  ⟨fun a hlo hhi => (h'.reg a hlo hhi).trans (h.reg a hlo hhi), h'.cycle.trans h.cycle, fun _ ho => h'.out (h.out ho)⟩

theorem ite {c : Prop} [Decidable c] (hs : LinesKept r s) (ht : LinesKept r t) : LinesKept r (if c then s else t) := by
  split
  · exact hs
  · exact ht

theorem setSer (s : State) (n : Nat) (x : Serial) : LinesKept s (s.setSer n x) := ⟨fun _ _ _ => rfl, rfl, fun _ h => h⟩

theorem emit (s : State) (o : Out) : LinesKept s (s.emit o) := ⟨fun _ _ _ => rfl, rfl, fun _ h => List.mem_cons_of_mem _ h⟩

theorem fire (s : State) (kind i : Nat) : LinesKept s (s.fire kind i) := by
  have hKeeps : Keeps [.now, .regs, .engines] s (s.fire kind i) := .fire .refl rfl
  exact ⟨fun a hlo hhi => (WindowsKept.fire s kind i).reg a (by omega) (by omega), hKeeps.cycle,
    fun _ h => (hKeeps.frame .out rfl) ▸ h⟩

theorem countCode (s : State) (who : Ident) (c : Nat) : LinesKept s (s.countCode who c) := by
  have hKeeps : Keeps [.now, .regs] s (s.countCode who c) := .countCode .refl rfl
  refine ⟨fun a hlo _ => reg_countCode_ne s who c ?_, hKeeps.cycle, fun _ h => (hKeeps.frame .out rfl) ▸ h⟩
  unfold Reg.SYS_WRONG_STATE_CNT
  omega

theorem fireGap (s : State) (n : Nat) : LinesKept s (s.fireGap n) := by
  unfold State.fireGap raiseLine
  refine ite ?_ (ite ⟨fun _ _ _ => rfl, rfl, fun _ h => h⟩ ⟨fun _ _ _ => rfl, rfl, fun _ h => h⟩)
  exact trans (s := s.setSyncLine (0x0C * 64 + n) 1) ⟨fun _ _ _ => rfl, rfl, fun _ h => h⟩ (fire _ _ _)

theorem driveDe (s : State) (n : Nat) (de : Bool) : LinesKept s (s.driveDe n de) := by
  unfold State.driveDe
  exact ite refl ((setSer s n _).trans (emit _ _))

theorem fallDe (s : State) (n : Nat) : LinesKept s (s.fallDe n) := by
  unfold State.fallDe
  have hDown := (setSer s n { s.ser n with deFall := none, dataDue := false }).trans (driveDe _ n false)
  dsimp only
  generalize (s.setSer n { s.ser n with deFall := none, dataDue := false }).driveDe n false = u at hDown
  exact ite (hDown.trans (fire _ _ _)) hDown

theorem startGap (s : State) (n : Nat) : LinesKept s (s.startGap n) := by
  unfold State.startGap
  exact ite (setSer s n _) refl

theorem serKick (s : State) (n : Nat) : LinesKept s (s.serKick n) := by
  unfold State.serKick
  dsimp only
  refine ite ?_ refl
  refine ite ?_ (setSer s n _)
  exact (setSer s n _).trans (driveDe _ n true)

theorem serResult (s : State) (n e code : Nat) : LinesKept s (s.serResult n e code) := by
  unfold State.serResult
  exact (setSer s n _).trans (countCode _ _ _)

theorem fld (h : LinesKept s t) {f : Fld} (hlo : 0x580000 ≤ f.reg) (hhi : f.reg < 0x584000) : t.fld f = s.fld f :=
  fld_of_reg (h.reg _ hlo hhi)

theorem stat (h : LinesKept s t) (hn : n < 16) : t.reg (Reg.SER_STAT n) = s.reg (Reg.SER_STAT n) :=
  h.reg _ (by unfold Reg.SER_STAT; omega) (by unfold Reg.SER_STAT; omega)

theorem cfg (h : LinesKept s t) (hn : n < 16) : t.reg (Reg.SER_CFG n) = s.reg (Reg.SER_CFG n) :=
  h.reg _ (by unfold Reg.SER_CFG; omega) (by unfold Reg.SER_CFG; omega)

theorem gap (h : LinesKept s t) (hn : n < 16) : t.reg (Reg.SER_GAP n) = s.reg (Reg.SER_GAP n) :=
  h.reg _ (by unfold Reg.SER_GAP; omega) (by unfold Reg.SER_GAP; omega)

theorem cnt (h : LinesKept s t) (hn : n < 16) : t.reg (Reg.SER_CNT n) = s.reg (Reg.SER_CNT n) :=
  h.reg _ (by unfold Reg.SER_CNT; omega) (by unfold Reg.SER_CNT; omega)

theorem serOp (h : LinesKept s t) (hn : n < 16) : t.serOp n = s.serOp n := fld_of_reg (f := Fld.SER_STAT_OPSTATE n) (h.stat hn)

theorem serMode (h : LinesKept s t) (hn : n < 16) : t.serMode n = s.serMode n := fld_of_reg (f := Fld.SER_CFG_MODE n) (h.cfg hn)

theorem t15 (h : LinesKept s t) (hn : n < 16) : t.t15 n = s.t15 n := by
  rw [State.t15, fld_of_reg (f := Fld.SER_GAP_T15 n) (h.gap hn), State.t15]

theorem t35 (h : LinesKept s t) (hn : n < 16) : t.t35 n = s.t35 n := by
  rw [State.t35, fld_of_reg (f := Fld.SER_GAP_T35 n) (h.gap hn), State.t35]

theorem half (h : LinesKept s t) (hn : n < 16) : t.flag (Fld.SER_CFG_HALF n) = s.flag (Fld.SER_CFG_HALF n) :=
  flag_of_reg (f := Fld.SER_CFG_HALF n) (h.cfg hn)

end LinesKept

/-! ### A line's own state -/

/-- Of a line's state only its transmission and its DE ball differ. -/
def SendOnly (x y : Serial) : Prop :=
  y = { x with sending := y.sending, txFrom := y.txFrom, deFall := y.deFall, dataDue := y.dataDue, de := y.de }

theorem SendOnly.refl (x : Serial) : SendOnly x x := rfl

theorem SendOnly.trans {x y z : Serial} (h : SendOnly x y) (h' : SendOnly y z) : SendOnly x z :=
  Eq.trans h' (congrArg (fun w : Serial => { w with sending := z.sending, txFrom := z.txFrom, deFall := z.deFall, dataDue := z.dataDue, de := z.de }) h)

theorem ser_fireGap (s : State) (n : Nat) : (s.fireGap n).ser n = s.ser n := by
  unfold fireGap raiseLine
  split
  · exact (ser_fire _ _ _ _).trans rfl
  · split <;> rfl

theorem de_driveDe (s : State) (n : Nat) (de : Bool) : ((s.driveDe n de).ser n).de = de := by
  unfold driveDe
  split
  · assumption
  · rw [ser_emit, ser_setSer]

theorem sendOnly_driveDe (s : State) (n : Nat) (de : Bool) : SendOnly (s.ser n) ((s.driveDe n de).ser n) ∧
    ((s.driveDe n de).ser n).sending = (s.ser n).sending := by
  unfold driveDe
  split
  · exact ⟨.refl _, rfl⟩
  · rw [ser_emit, ser_setSer]
    exact ⟨rfl, rfl⟩

theorem fallDe_spec (s : State) (n : Nat) : SendOnly (s.ser n) ((s.fallDe n).ser n) ∧
    ((s.fallDe n).ser n).sending = (s.ser n).sending ∧ ((s.fallDe n).ser n).de = false := by
  have hStart : SendOnly (s.ser n) ((s.setSer n { s.ser n with deFall := none, dataDue := false }).ser n) := by
    rw [ser_setSer]
    exact rfl
  have hSend : ((s.setSer n { s.ser n with deFall := none, dataDue := false }).ser n).sending = (s.ser n).sending := by rw [ser_setSer]
  obtain ⟨hOnly, hSending⟩ := sendOnly_driveDe (s.setSer n { s.ser n with deFall := none, dataDue := false }) n false
  have hDe := de_driveDe (s.setSer n { s.ser n with deFall := none, dataDue := false }) n false
  unfold fallDe
  dsimp only
  generalize (s.setSer n { s.ser n with deFall := none, dataDue := false }).driveDe n false = u at hOnly hSending hDe
  have hFired : (if (s.ser n).dataDue = true then u.fire 0x0D n else u).ser n = u.ser n := by
    split
    · exact ser_fire u 0x0D n n
    · rfl
  rw [hFired]
  exact ⟨hStart.trans hOnly, hSending.trans hSend, hDe⟩

theorem sendOnly_serKick (s : State) (n : Nat) : SendOnly (s.ser n) ((s.serKick n).ser n) := by
  unfold serKick
  dsimp only
  split
  · split
    · exact SendOnly.trans (y := _) (by rw [ser_setSer]; exact rfl) (sendOnly_driveDe _ n true).1
    · rw [ser_setSer]
      exact rfl
  · exact .refl _

/-- A line with nothing to send does nothing. -/
theorem serKick_empty (h : s.txCount n = 0) : s.serKick n = s := if_neg fun hc => hc.2.2.1 h

/-- With HALF a line that may send begins with DE high. -/
theorem serKick_half (hHalf : s.flag (Fld.SER_CFG_HALF n) = true) (hOp : s.serOp n = 2) (hMode : s.serMode n ≠ 2) (hTx : s.txCount n ≠ 0)
    (hSending : (s.ser n).sending = false) (hWurq : (s.ser n).wurq = none) (hIdle : s.rxIdle n = true) :
    ((s.serKick n).ser n).sending = true ∧ ((s.serKick n).ser n).de = true := by
  have hUses : s.usesDe n = true := by rw [usesDe, hHalf, Bool.true_or]
  have hGo : s.serOp n = 2 ∧ s.serMode n ≠ 2 ∧ s.txCount n ≠ 0 ∧ (!(s.ser n).sending) = true ∧ (s.ser n).wurq.isNone = true ∧
      s.rxIdle n = true := ⟨hOp, hMode, hTx, by rw [hSending]; rfl, by rw [hWurq]; rfl, hIdle⟩
  unfold serKick
  dsimp only
  rw [if_pos hGo, if_pos hUses]
  refine ⟨?_, de_driveDe _ _ _⟩
  rw [(sendOnly_driveDe _ n true).2, ser_setSer]

theorem serKick_done (hTx : s.txCount n = 0) (hSending : (s.ser n).sending = false) : ((s.serKick n).ser n).sending = false := by
  rw [serKick_empty hTx, hSending]

/-- The end of a stop bit changes of a line's state its gap timer. -/
theorem ser_startGap (s : State) (n : Nat) : (s.startGap n).ser n = { s.ser n with
    gapFrom := ((s.startGap n).ser n).gapFrom, gap15 := ((s.startGap n).ser n).gap15, gap35 := ((s.startGap n).ser n).gap35 } := by
  unfold startGap
  split
  · rw [ser_setSer]
  · rfl

theorem serResult_spec (s : State) (n e code : Nat) : (s.serResult n e code).ser n = { s.ser n with cmdRes := code } := by
  rw [serResult, ser_countCode, ser_setSer]

end Sys2Proof.Machine.State
end

section
/-!
PROOF. O48: the commands of a serial line and the events of its characters, its gaps, its SSI transfers and its wake-up
requests, and the obligation.
-/

namespace Sys2Proof.Machine.State

variable {s t : State} {n : Nat}

/-! ### Enabling -/

theorem LinesKept.serQuiet (s : State) (n : Nat) : LinesKept s (s.serQuiet n) := by
  unfold State.serQuiet
  exact .ite (.setSer s n _) ((LinesKept.setSer s n _).trans (.fallDe _ n))

/-- The operating state that EN and the mode ask for (R319). -/
def serTarget (s : State) (n : Nat) : Nat :=
  if !s.flag (Fld.SER_CTRL_EN n) ∨ s.mode < Mode.commission then 0 else if s.mode = Mode.commission then 1 else 2

theorem serTarget_lt (s : State) (n : Nat) : s.serTarget n < 4 := by
  unfold serTarget
  split
  · decide
  · split <;> decide

/-- What a line does at a change of its operating state to `k`. -/
def serMoved (s : State) (n k : Nat) : State :=
  let s1 := if k = 0 then s.setSer n { s.ser n with gapFrom := none } else s.setSer n { s.ser n with first := true }
  let s1 := if k = 2 then s1 else s1.serQuiet n
  let s1 := if s1.serMode n = 2 then s1.driveDe n (k == 2) else s1
  s1.serKick n

theorem LinesKept.serMoved (s : State) (n k : Nat) : LinesKept s (s.serMoved n k) := by
  unfold State.serMoved
  have h1 : LinesKept s (if k = 0 then s.setSer n { s.ser n with gapFrom := none } else s.setSer n { s.ser n with first := true }) :=
    .ite (.setSer s n _) (.setSer s n _)
  dsimp only
  generalize (if k = 0 then s.setSer n { s.ser n with gapFrom := none } else s.setSer n { s.ser n with first := true }) = u at h1
  have h2 : LinesKept s (if k = 2 then u else u.serQuiet n) := .ite h1 (h1.trans (.serQuiet u n))
  generalize (if k = 2 then u else u.serQuiet n) = v at h2
  have h3 : LinesKept s (if v.serMode n = 2 then v.driveDe n (k == 2) else v) := .ite (h2.trans (.driveDe v n _)) h2
  exact h3.trans (.serKick _ n)

theorem serFollow_eq (s : State) (n : Nat) : s.serFollow n =
    if s.serOp n = s.serTarget n then s else (s.setFld (Fld.SER_STAT_OPSTATE n) (s.serTarget n)).serMoved n (s.serTarget n) := rfl

theorem serFollow_spec (s : State) (hn : n < 16) : (s.serFollow n).serOp n = s.serTarget n ∧
    (s.serFollow n).flag (Fld.SER_CTRL_EN n) = s.flag (Fld.SER_CTRL_EN n) := by
  rw [serFollow_eq]
  split
  case isTrue h => exact ⟨h, rfl⟩
  case isFalse h =>
    have hKept := LinesKept.serMoved (s.setFld (Fld.SER_STAT_OPSTATE n) (s.serTarget n)) n (s.serTarget n)
    have hOp : (s.setFld (Fld.SER_STAT_OPSTATE n) (s.serTarget n)).serOp n = s.serTarget n := by
      rw [serOp, fld_setFld_on _ _ rfl]
      exact Nat.mod_eq_of_lt (serTarget_lt s n)
    have hEn : (s.setFld (Fld.SER_STAT_OPSTATE n) (s.serTarget n)).flag (Fld.SER_CTRL_EN n) = s.flag (Fld.SER_CTRL_EN n) :=
      flag_of_reg (reg_setFld_ne s _ (by show Reg.SER_CTRL n ≠ Reg.SER_STAT n; unfold Reg.SER_CTRL Reg.SER_STAT; omega))
    generalize s.setFld (Fld.SER_STAT_OPSTATE n) (s.serTarget n) = u at hKept hOp hEn
    refine ⟨(hKept.serOp hn).trans hOp, (flag_of_reg (hKept.reg _ ?_ ?_)).trans hEn⟩
    · show 0x580000 ≤ Reg.SER_CTRL n
      unfold Reg.SER_CTRL
      omega
    · show Reg.SER_CTRL n < 0x584000
      unfold Reg.SER_CTRL
      omega

/-- A write of EN. -/
theorem serEnabled_spec (s : State) (hn : n < 16) (en : Bool) :
    ((s.setFlag (Fld.SER_CTRL_EN n) en).serFollow n).flag (Fld.SER_CTRL_EN n) = en ∧
      (en = false → ((s.setFlag (Fld.SER_CTRL_EN n) en).serFollow n).serOp n = 0) ∧
      (en = true → s.mode = Mode.commission → ((s.setFlag (Fld.SER_CTRL_EN n) en).serFollow n).serOp n = 1) ∧
      (en = true → Mode.commission < s.mode → ((s.setFlag (Fld.SER_CTRL_EN n) en).serFollow n).serOp n = 2) := by
  obtain ⟨hOp, hEn⟩ := serFollow_spec (s.setFlag (Fld.SER_CTRL_EN n) en) hn
  have hFlag : (s.setFlag (Fld.SER_CTRL_EN n) en).flag (Fld.SER_CTRL_EN n) = en := flag_setFlag_on _ _ rfl rfl
  have hMode : (s.setFlag (Fld.SER_CTRL_EN n) en).mode = s.mode :=
    fld_setFlag_apart _ _ (.inl (by show Reg.SER_CTRL n ≠ Reg.SYS_MODE; unfold Reg.SER_CTRL Reg.SYS_MODE; omega))
  refine ⟨hEn.trans hFlag, fun h => ?_, fun h hCom => ?_, fun h hRun => ?_⟩
  · rw [hOp, serTarget, hFlag, h]
    exact if_pos (.inl rfl)
  · rw [hOp, serTarget, hFlag, hMode, h, hCom]
    rfl
  · rw [hOp, serTarget, hFlag, hMode, h, if_neg (fun hc => ?_), if_neg (by omega)]
    rcases hc with hc | hc
    · exact Bool.false_ne_true hc
    · omega

/-! ### The gap timer -/

/-- Of a line's state only the thresholds the gap timer has signalled and the mark of a first character differ. -/
def GapOnly (x y : Serial) : Prop := y = { x with gap15 := y.gap15, gap35 := y.gap35, first := y.first }

theorem GapOnly.trans {x y z : Serial} (h : GapOnly x y) (h' : GapOnly y z) : GapOnly x z :=
  Eq.trans h' (congrArg (fun w : Serial => { w with gap15 := z.gap15, gap35 := z.gap35, first := z.first }) h)

/-- A threshold signalled, as `y` marks it. -/
theorem gapSignalled (s : State) (n : Nat) {y : Serial} (hy : GapOnly (s.ser n) y) :
    ((s.setSer n y).fireGap n).ser n = y ∧ GapOnly (s.ser n) (((s.setSer n y).fireGap n).ser n) ∧
      LinesKept s ((s.setSer n y).fireGap n) := by
  have hSer : ((s.setSer n y).fireGap n).ser n = y := by rw [ser_fireGap, ser_setSer]
  exact ⟨hSer, by rw [hSer]; exact hy, (LinesKept.setSer s n y).trans (.fireGap _ n)⟩

theorem passGaps_spec (s : State) (n : Nat) : GapOnly (s.ser n) ((s.passGaps n).ser n) ∧ LinesKept s (s.passGaps n) := by
  have hStage (u : State) {c : Prop} [Decidable c] {y : Serial} (hy : GapOnly (u.ser n) y) :
      GapOnly (u.ser n) ((if c then (u.setSer n y).fireGap n else u).ser n) ∧ LinesKept u (if c then (u.setSer n y).fireGap n else u) := by
    split
    · exact (gapSignalled u n hy).2
    · exact ⟨rfl, .refl⟩
  unfold passGaps
  dsimp only
  obtain ⟨hGap, hKept⟩ := hStage s (c := (!(s.ser n).gap15) = true ∧ s.gapReached n (s.t15 n) = true)
    (y := { s.ser n with gap15 := true }) rfl
  generalize (if (!(s.ser n).gap15) = true ∧ s.gapReached n (s.t15 n) = true then (s.setSer n { s.ser n with gap15 := true }).fireGap n
    else s) = u at hGap hKept
  obtain ⟨hGap', hKept'⟩ := hStage u (c := (!(u.ser n).gap35) = true ∧ u.gapReached n (u.t35 n) = true)
    (y := { u.ser n with gap35 := true, first := true }) rfl
  exact ⟨hGap.trans hGap', hKept.trans hKept'⟩

theorem gapReached_running {u limit : Nat} (hFrom : (s.ser n).gapFrom = some u) (hSending : (s.ser n).sending = false) :
    s.gapReached n limit = decide (u + limit ≤ s.cycle) := by
  rw [gapReached]
  rw [hFrom]
  dsimp only
  rw [hSending, if_neg Bool.false_ne_true]

theorem gapReached_stopped {limit : Nat} (hFrom : (s.ser n).gapFrom = none) : s.gapReached n limit = false := by
  rw [gapReached]
  rw [hFrom]

/-- A start bit on the RX ball. -/
theorem rxStart_spec (s : State) (hn : n < 16) : ((s.rxStart n).ser n).receiving = true ∧ ((s.rxStart n).ser n).rxDe = (s.ser n).de ∧
    ((s.rxStart n).ser n).gapFrom = none ∧
    ((s.ser n).gapFrom = none → ((s.rxStart n).ser n).rxGap15 = false) ∧
    (∀ u, (s.ser n).gapFrom = some u → (s.ser n).sending = false → u + s.t15 n ≤ s.cycle → s.cycle < u + s.t35 n →
      ((s.rxStart n).ser n).rxGap15 = true) := by
  obtain ⟨hGap, hKept⟩ := passGaps_spec s n
  unfold GapOnly at hGap
  unfold rxStart
  dsimp only
  generalize s.passGaps n = v at hGap hKept
  rw [ser_setSer]
  have hFrom : (v.ser n).gapFrom = (s.ser n).gapFrom := (congrArg Serial.gapFrom hGap).trans rfl
  refine ⟨rfl, (congrArg Serial.de hGap).trans rfl, rfl, fun h => ?_, fun u h hSending h15 h35 => ?_⟩
  · show (v.gapReached n (v.t15 n) && !v.gapReached n (v.t35 n)) = false
    rw [gapReached_stopped (hFrom.trans h), Bool.false_and]
  · show (v.gapReached n (v.t15 n) && !v.gapReached n (v.t35 n)) = true
    have hQuiet : (v.ser n).sending = false := ((congrArg Serial.sending hGap).trans rfl).trans hSending
    rw [gapReached_running (hFrom.trans h) hQuiet, gapReached_running (hFrom.trans h) hQuiet, hKept.t15 hn, hKept.t35 hn, hKept.cycle,
      decide_eq_true h15, decide_eq_false (Nat.not_le.mpr h35)]
    rfl

/-! ### Characters received -/

theorem LinesKept.serData (h : LinesKept s t) (hn : n < 16) : t.serData n = s.serData n := by
  rw [State.serData, h.serMode hn, fld_of_reg (f := Fld.SER_CFG_DATA n) (h.cfg hn), State.serData]

theorem rxCount_of_ser (h : t.ser n = s.ser n) : t.rxCount n = s.rxCount n := by rw [rxCount, h, rxCount]

theorem txCount_of_ser (h : t.ser n = s.ser n) : t.txCount n = s.txCount n := by rw [txCount, h, txCount]

/-- A good character counted by its gap. -/
def gapCounted (s : State) (n : Nat) : State := if (s.ser n).rxGap15 then s.count (Fld.SER_CNT_GAP15 n) else s

theorem gapCounted_spec (s : State) (n : Nat) : (s.gapCounted n).ser n = s.ser n ∧
    (s.gapCounted n).fld (Fld.SER_CNT_RX_OVR n) = s.fld (Fld.SER_CNT_RX_OVR n) := by
  unfold gapCounted
  split
  · exact ⟨ser_count .., fld_count_off _ _ rfl⟩
  · exact ⟨rfl, rfl⟩

theorem rxStore_eq (s : State) (n : Nat) (data : Byte) : s.rxStore n data false false false =
    let x := (s.gapCounted n).ser n
    if (s.gapCounted n).rxCount n = 1023 then ((s.gapCounted n).count (Fld.SER_CNT_RX_OVR n)).setSer n { x with first := false, ovr := true }
    else
      let t := (s.gapCounted n).setSer n { x with
        rx := Store.set (fun _ => 0) x.rx x.rxTail (BitVec.ofNat 32 (s.serEntry n data false false false))
        rxTail := (x.rxTail + 1) % 1024, first := false, ovr := false }
      let t := if t.rxCount n = t.fld (Fld.SER_CFG_RX_THRESH n) then t.fire 0x0D n else t
      match t.districtOf boundSer n with
      | some d => t.proxySerial d n (t.charTime n) (s.serEntry n data false false false)
      | none => t := rfl

/-- A character that finds the ring full. -/
theorem rxStore_full (hFull : s.rxCount n = 1023) (data : Byte) :
    (s.rxStore n data false false false).ser n = { s.ser n with first := false, ovr := true } ∧
      (s.rxStore n data false false false).fld (Fld.SER_CNT_RX_OVR n) = min 255 (s.fld (Fld.SER_CNT_RX_OVR n) + 1) := by
  obtain ⟨hSer, hCnt⟩ := gapCounted_spec s n
  rw [rxStore_eq]
  dsimp only
  generalize s.gapCounted n = u at hSer hCnt
  rw [if_pos ((rxCount_of_ser hSer).trans hFull), ser_setSer, hSer]
  refine ⟨rfl, ?_⟩
  show (u.count (Fld.SER_CNT_RX_OVR n)).fld (Fld.SER_CNT_RX_OVR n) = _
  rw [fld_count_on _ _ rfl, hCnt]
  rfl

/-- A character that the ring takes. -/
theorem rxStore_room (hRoom : s.rxCount n ≠ 1023) (data : Byte) :
    (s.rxStore n data false false false).ser n = { s.ser n with
      rx := Store.set (fun _ => 0) (s.ser n).rx (s.ser n).rxTail (BitVec.ofNat 32 (s.serEntry n data false false false))
      rxTail := ((s.ser n).rxTail + 1) % 1024, first := false, ovr := false } := by
  obtain ⟨hSer, -⟩ := gapCounted_spec s n
  rw [rxStore_eq]
  dsimp only
  generalize s.gapCounted n = u at hSer
  rw [if_neg (fun h => hRoom ((rxCount_of_ser hSer).symm.trans h)), hSer]
  have hSet := ser_setSer u n { s.ser n with
    rx := Store.set (fun _ => 0) (s.ser n).rx (s.ser n).rxTail (BitVec.ofNat 32 (s.serEntry n data false false false))
    rxTail := ((s.ser n).rxTail + 1) % 1024, first := false, ovr := false }
  generalize u.setSer n { s.ser n with
    rx := Store.set (fun _ => 0) (s.ser n).rx (s.ser n).rxTail (BitVec.ofNat 32 (s.serEntry n data false false false))
    rxTail := ((s.ser n).rxTail + 1) % 1024, first := false, ovr := false } = v at hSet
  have hFired : (if v.rxCount n = v.fld (Fld.SER_CFG_RX_THRESH n) then v.fire 0x0D n else v).ser n = v.ser n := by
    split
    · exact ser_fire v 0x0D n n
    · rfl
  generalize (if v.rxCount n = v.fld (Fld.SER_CFG_RX_THRESH n) then v.fire 0x0D n else v) = w at hFired
  split
  · rw [ser_proxySerial, hFired, hSet]
  · rw [hFired, hSet]

/-- The character on the RX ball has ended. -/
def rxEnded (s : State) (n : Nat) : State := (s.setSer n { s.ser n with receiving := false, lastRx := s.cycle }).startGap n

theorem rxEnded_spec (s : State) (n : Nat) : LinesKept s (s.rxEnded n) ∧ (s.rxEnded n).ser n = { s.ser n with
    receiving := false, lastRx := s.cycle, gapFrom := ((s.rxEnded n).ser n).gapFrom, gap15 := ((s.rxEnded n).ser n).gap15
    gap35 := ((s.rxEnded n).ser n).gap35 } := by
  have hSet := ser_setSer s n { s.ser n with receiving := false, lastRx := s.cycle }
  have hGap := ser_startGap (s.setSer n { s.ser n with receiving := false, lastRx := s.cycle }) n
  rw [hSet] at hGap
  exact ⟨(LinesKept.setSer s n _).trans (.startGap _ n), hGap⟩

theorem exec_characterReceived (hRun : s.inReset = false) (hHas : s.variant.hasSer n = true) (hMode : s.serMode n ≠ 2)
    (hClock : s.clockGone 4 = false) (hRx : (s.ser n).receiving = true) (data : Byte) :
    exec (.characterReceived n (.char data) false false false) s =
      .next (if (!(s.ser n).rxDe && !(s.ser n).de) || s.flag (Fld.SER_CFG_ECHO n) then (s.rxEnded n).rxStore n data false false false
        else s.rxEnded n) := by
  refine congrArg Host.Outcome.next ((live_of_running hRun _).trans ((if_neg ?_).trans ?_))
  · rw [hHas]
    exact fun h => h.elim Bool.false_ne_true hMode
  · dsimp only
    rw [hRx, if_neg (by decide), through, hClock, if_neg Bool.false_ne_true]
    rfl

theorem exec_startBit (hRun : s.inReset = false) (hHas : s.variant.hasSer n = true) (hMode : s.serMode n ≠ 2)
    (hClock : s.clockGone 4 = false) (hOp : 1 ≤ s.serOp n) :
    exec (.characterReceived n .startBit false false false) s = .next (s.rxStart n) := by
  refine congrArg Host.Outcome.next ((live_of_running hRun _).trans ((if_neg ?_).trans ((if_neg ?_).trans rfl)))
  · rw [hHas]
    exact fun h => h.elim Bool.false_ne_true hMode
  · rw [hClock]
    exact fun h => h.elim Bool.false_ne_true (by omega)

/-! ### Characters sent -/

/-- What follows the last stop bit of a character. -/
def charNext (s : State) (n : Nat) : State :=
  let empty := s.txCount n == 0
  if !empty ∧ s.serOp n = 2 then s.setSer n { s.ser n with sending := true, txFrom := s.cycle, gapFrom := none }
  else
    let half := s.flag (Fld.SER_CFG_HALF n)
    let s := if empty ∧ !half then s.fire 0x0D n else s
    if s.usesDe n then
      let s := s.setSer n { s.ser n with dataDue := empty && half }
      if s.serOp n = 2 then s.setSer n { s.ser n with deFall := some (s.cycle + s.fld (Fld.SER_DE_LAG n) * 10) }
      else s.fallDe n
    else s

theorem charNext_spec (s : State) (n : Nat) : ((s.charNext n).ser n).txHead = (s.ser n).txHead ∧ s.out ⊆ (s.charNext n).out ∧
    (s.txCount n = 0 → ((s.charNext n).ser n).sending = (s.ser n).sending) := by
  unfold charNext
  dsimp only
  split
  case isTrue h =>
    refine ⟨by rw [ser_setSer], fun _ ho => ho, fun hEmpty => absurd h.1 ?_⟩
    rw [hEmpty]
    decide
  case isFalse h =>
    have hFired : (if (s.txCount n == 0) = true ∧ (!s.flag (Fld.SER_CFG_HALF n)) = true then s.fire 0x0D n else s).ser n = s.ser n ∧
        LinesKept s (if (s.txCount n == 0) = true ∧ (!s.flag (Fld.SER_CFG_HALF n)) = true then s.fire 0x0D n else s) := by
      split
      · exact ⟨ser_fire s 0x0D n n, .fire s 0x0D n⟩
      · exact ⟨rfl, .refl⟩
    obtain ⟨hSer, hKept⟩ := hFired
    generalize (if (s.txCount n == 0) = true ∧ (!s.flag (Fld.SER_CFG_HALF n)) = true then s.fire 0x0D n else s) = u at hSer hKept
    split
    · have hSet := ser_setSer u n { u.ser n with dataDue := (s.txCount n == 0) && s.flag (Fld.SER_CFG_HALF n) }
      have hKept' := hKept.trans (.setSer u n { u.ser n with dataDue := (s.txCount n == 0) && s.flag (Fld.SER_CFG_HALF n) })
      rw [hSer] at hSet hKept' ⊢
      generalize u.setSer n { s.ser n with dataDue := (s.txCount n == 0) && s.flag (Fld.SER_CFG_HALF n) } = v at hSet hKept'
      split
      · rw [ser_setSer, hSet]
        exact ⟨rfl, (hKept'.trans (.setSer v n _)).out, fun _ => rfl⟩
      · obtain ⟨hOnly, hSending, -⟩ := fallDe_spec v n
        have hHead : ((v.fallDe n).ser n).txHead = (v.ser n).txHead := (congrArg Serial.txHead hOnly).trans rfl
        rw [hHead, hSending, hSet]
        exact ⟨rfl, (hKept'.trans (.fallDe v n)).out, fun _ => rfl⟩
    · rw [hSer]
      exact ⟨rfl, hKept.out, fun _ => rfl⟩

/-- A character leaves the transmit ring. -/
def txEnded (s : State) (n : Nat) : State :=
  let x := s.ser n
  ((s.emit (.character n ((x.tx.read x.txHead).toNat % 2 ^ s.serData n))).setSer n
    { x with txHead := (x.txHead + 1) % 1792, sending := false }).startGap n

theorem txEnded_spec (s : State) (n : Nat) : ((s.txEnded n).ser n).txHead = ((s.ser n).txHead + 1) % 1792 ∧
    ((s.txEnded n).ser n).txTail = (s.ser n).txTail ∧ ((s.txEnded n).ser n).sending = false ∧
    Out.character n (((s.ser n).tx.read (s.ser n).txHead).toNat % 2 ^ s.serData n) ∈ (s.txEnded n).out := by
  unfold txEnded
  dsimp only
  have hSet := ser_setSer (s.emit (.character n (((s.ser n).tx.read (s.ser n).txHead).toNat % 2 ^ s.serData n))) n
    { s.ser n with txHead := ((s.ser n).txHead + 1) % 1792, sending := false }
  have hOut : Out.character n (((s.ser n).tx.read (s.ser n).txHead).toNat % 2 ^ s.serData n) ∈
      ((s.emit (.character n (((s.ser n).tx.read (s.ser n).txHead).toNat % 2 ^ s.serData n))).setSer n
        { s.ser n with txHead := ((s.ser n).txHead + 1) % 1792, sending := false }).out := List.mem_cons_self
  generalize (s.emit (.character n (((s.ser n).tx.read (s.ser n).txHead).toNat % 2 ^ s.serData n))).setSer n
    { s.ser n with txHead := ((s.ser n).txHead + 1) % 1792, sending := false } = u at hSet hOut
  rw [ser_startGap u n, hSet]
  exact ⟨rfl, rfl, rfl, (LinesKept.startGap u n).out hOut⟩

theorem exec_characterSent (hRun : s.inReset = false) (hClock : s.clockGone 4 = false) (hSending : (s.ser n).sending = true)
    (hDue : (s.ser n).txFrom + s.charTime n ≤ s.cycle) : exec (.characterSent n) s = .next ((s.txEnded n).charNext n) :=
  congrArg Host.Outcome.next ((clocked_of_runs hRun hClock _).trans ((if_pos ⟨hSending, hDue⟩).trans rfl))

/-- An emptied ring sends no more. -/
theorem charSent_spec (s : State) (n : Nat) : (((s.txEnded n).charNext n).ser n).txHead = ((s.ser n).txHead + 1) % 1792 ∧
    Out.character n (((s.ser n).tx.read (s.ser n).txHead).toNat % 2 ^ s.serData n) ∈ ((s.txEnded n).charNext n).out ∧
    ((s.ser n).txTail = ((s.ser n).txHead + 1) % 1792 → (((s.txEnded n).charNext n).ser n).sending = false) := by
  obtain ⟨hHead, hTail, hSending, hOut⟩ := txEnded_spec s n
  obtain ⟨hHead', hOut', hQuiet⟩ := charNext_spec (s.txEnded n) n
  refine ⟨hHead'.trans hHead, hOut' hOut, fun h => (hQuiet ?_).trans hSending⟩
  rw [txCount, hTail, hHead, ← h, Nat.add_sub_cancel_left]

end Sys2Proof.Machine.State
end

section
/-!
PROOF. O48: a line's rings, its timers, its SSI transfers and wake-up requests, and the obligation.
-/

namespace Sys2Proof.Machine.State

variable {s t : State} {n e v u : Nat}

/-! ### The rings -/

theorem serTxTail_taken (hRun : s.inReset = false) (hOwn : s.ownsSer e n = true) (hIn : v % 2048 < 1792)
    (hRoom : (v % 2048 + 1792 - (s.ser n).txTail) % 1792 ≤ 1791 - s.txCount n) :
    ∃ t, exec (.serTxTail n e v) s = .next t ∧ (t.ser n).txTail = v % 2048 ∧ (t.ser n).tx = (s.ser n).tx := by
  refine ⟨_, congrArg Host.Outcome.next ((live_of_running hRun _).trans ((if_pos hOwn).trans (if_neg (by omega)))), ?_⟩
  have hKick := sendOnly_serKick (s.setSer n { s.ser n with txTail := v % 2048 }) n
  rw [ser_setSer] at hKick
  exact ⟨(congrArg Serial.txTail hKick).trans rfl, (congrArg Serial.tx hKick).trans rfl⟩

theorem serTxTail_refused (hRun : s.inReset = false) (hOwn : s.ownsSer e n = true) (hOut : 1792 ≤ v % 2048) :
    ∃ t, exec (.serTxTail n e v) s = .next t ∧ t.serials = s.serials ∧ t.flag (Fld.SER_STAT_CFG_ERR n) = true :=
  ⟨_, congrArg Host.Outcome.next ((live_of_running hRun _).trans ((if_pos hOwn).trans (if_pos (.inl hOut)))), rfl,
    flag_setFlag_on _ _ rfl rfl⟩

theorem serRxHead_taken (hRun : s.inReset = false) (hOwn : s.ownsSer e n = true)
    (hRoom : (v % 1024 + 1024 - (s.ser n).rxHead) % 1024 ≤ s.rxCount n) :
    ∃ t, exec (.serRxHead n e v) s = .next t ∧ (t.ser n).rxHead = v % 1024 :=
  ⟨_, congrArg Host.Outcome.next ((live_of_running hRun _).trans ((if_pos hOwn).trans (if_neg (Nat.not_lt.mpr hRoom)))),
    by rw [ser_setSer]⟩

theorem serRxHead_refused (hRun : s.inReset = false) (hOwn : s.ownsSer e n = true)
    (hFull : s.rxCount n < (v % 1024 + 1024 - (s.ser n).rxHead) % 1024) :
    ∃ t, exec (.serRxHead n e v) s = .next t ∧ t.serials = s.serials ∧ t.flag (Fld.SER_STAT_CFG_ERR n) = true :=
  ⟨_, congrArg Host.Outcome.next ((live_of_running hRun _).trans ((if_pos hOwn).trans (if_pos hFull))), rfl, flag_setFlag_on _ _ rfl rfl⟩

/-! ### The Modbus gaps -/

theorem exec_gapT15 (hRun : s.inReset = false) (hClock : s.clockGone 4 = false) (hFrom : (s.ser n).gapFrom = some u)
    (hSending : (s.ser n).sending = false) (hMode : s.serMode n = 1) (hOp : 1 ≤ s.serOp n) :
    ((s.ser n).gap15 = false → u + s.t15 n ≤ s.cycle → ∃ t, exec (.gapT15 n) s = .next t ∧ (t.ser n).gap15 = true) ∧
      (s.cycle < u + s.t15 n → exec (.gapT15 n) s = .next s) := by
  have hReached := gapReached_running (limit := s.t15 n) hFrom hSending
  refine ⟨fun hGap hDue => ?_, fun hNot => ?_⟩
  · have hGo : s.serMode n = 1 ∧ 1 ≤ s.serOp n ∧ (!(s.ser n).gap15) = true ∧ s.gapReached n (s.t15 n) = true :=
      ⟨hMode, hOp, by rw [hGap]; rfl, by rw [hReached, decide_eq_true hDue]⟩
    refine ⟨_, congrArg Host.Outcome.next ((clocked_of_runs hRun hClock _).trans (if_pos hGo)), ?_⟩
    exact (congrArg Serial.gap15 (gapSignalled s n (y := { s.ser n with gap15 := true }) rfl).1).trans rfl
  · refine congrArg Host.Outcome.next ((clocked_of_runs hRun hClock _).trans (if_neg fun h => ?_))
    obtain ⟨-, -, -, hLate⟩ := h
    rw [hReached, decide_eq_false (Nat.not_le.mpr hNot)] at hLate
    exact Bool.false_ne_true hLate

theorem exec_gapT35 (hRun : s.inReset = false) (hClock : s.clockGone 4 = false) (hFrom : (s.ser n).gapFrom = some u)
    (hSending : (s.ser n).sending = false) (hMode : s.serMode n = 1) (hOp : 1 ≤ s.serOp n) :
    ((s.ser n).gap35 = false → u + s.t35 n ≤ s.cycle →
        ∃ t, exec (.gapT35 n) s = .next t ∧ (t.ser n).gap35 = true ∧ (t.ser n).first = true) ∧
      (s.cycle < u + s.t35 n → exec (.gapT35 n) s = .next s) := by
  have hReached := gapReached_running (limit := s.t35 n) hFrom hSending
  refine ⟨fun hGap hDue => ?_, fun hNot => ?_⟩
  · have hGo : s.serMode n = 1 ∧ 1 ≤ s.serOp n ∧ (!(s.ser n).gap35) = true ∧ s.gapReached n (s.t35 n) = true :=
      ⟨hMode, hOp, by rw [hGap]; rfl, by rw [hReached, decide_eq_true hDue]⟩
    refine ⟨_, congrArg Host.Outcome.next ((clocked_of_runs hRun hClock _).trans (if_pos hGo)), ?_⟩
    obtain ⟨hSer, -⟩ := gapSignalled s n (y := { s.ser n with gap35 := true, first := true }) rfl
    generalize (s.setSer n { s.ser n with gap35 := true, first := true }).fireGap n = w at hSer
    have hKick := sendOnly_serKick w n
    rw [hSer] at hKick
    exact ⟨(congrArg Serial.gap35 hKick).trans rfl, (congrArg Serial.first hKick).trans rfl⟩
  · refine congrArg Host.Outcome.next ((clocked_of_runs hRun hClock _).trans (if_neg fun h => ?_))
    obtain ⟨-, -, -, hLate⟩ := h
    rw [hReached, decide_eq_false (Nat.not_le.mpr hNot)] at hLate
    exact Bool.false_ne_true hLate

/-! ### SSI transfers -/

theorem ssiStart_wrongMode (hRun : s.inReset = false) (hOwn : s.ownsSer e n = true) (hMode : s.serMode n ≠ 2) :
    ∃ t, exec (.ssiStart n e) s = .next t ∧ (t.ser n).cmdRes = 5 ∧ (t.ser n).ssi = (s.ser n).ssi := by
  refine ⟨_, congrArg Host.Outcome.next ((live_of_running hRun _).trans ((if_pos hOwn).trans (if_pos (.inl hMode)))), ?_⟩
  rw [serResult_spec]
  exact ⟨rfl, rfl⟩

theorem ssiStart_busy (hRun : s.inReset = false) (hOwn : s.ownsSer e n = true) (hMode : s.serMode n = 2) (hOp : s.serOp n = 2)
    (hBusy : s.flag (Fld.SER_STAT_SSI_BUSY n) = true) :
    ∃ t, exec (.ssiStart n e) s = .next t ∧ (t.ser n).cmdRes = Code.busy ∧ (t.ser n).ssi = (s.ser n).ssi := by
  refine ⟨_, congrArg Host.Outcome.next ((live_of_running hRun _).trans ((if_pos hOwn).trans
    ((if_neg fun h => h.elim (· hMode) (· hOp)).trans (if_pos hBusy)))), ?_⟩
  rw [serResult_spec]
  exact ⟨rfl, rfl⟩

/-- The clock of an SSI transfer begins. -/
def ssiBegun (s : State) (n : Nat) : State :=
  ((s.setSer n { s.ser n with ssi := some s.cycle, pause := none }).setFlag (Fld.SER_STAT_SSI_BUSY n) true).emit
    (.ssiClock n (s.fld (Fld.SER_CFG_SSI_BITS n) + 2) (s.serBit16 n))

theorem ssiBegun_spec (s : State) (n : Nat) : ((s.ssiBegun n).ser n).ssi = some s.cycle ∧
    (s.ssiBegun n).flag (Fld.SER_STAT_SSI_BUSY n) = true ∧
    Out.ssiClock n (s.fld (Fld.SER_CFG_SSI_BITS n) + 2) (s.serBit16 n) ∈ (s.ssiBegun n).out := by
  unfold ssiBegun
  refine ⟨?_, ?_, List.mem_cons_self⟩
  · rw [ser_emit, ser_setFlag, ser_setSer]
  · exact flag_setFlag_on (s.setSer n { s.ser n with ssi := some s.cycle, pause := none }) true rfl rfl

theorem ssiStart_starts (hRun : s.inReset = false) (hOwn : s.ownsSer e n = true) (hn : n < 16) (hMode : s.serMode n = 2) (hOp : s.serOp n = 2)
    (hBusy : s.flag (Fld.SER_STAT_SSI_BUSY n) = false) :
    ∃ t, exec (.ssiStart n e) s = .next t ∧ (t.ser n).cmdRes = 1 ∧ (t.ser n).ssi = some s.cycle ∧
      t.flag (Fld.SER_STAT_SSI_BUSY n) = true ∧ Out.ssiClock n (s.fld (Fld.SER_CFG_SSI_BITS n) + 2) (s.serBit16 n) ∈ t.out := by
  refine ⟨((s.ssiBegun n).fireGap n).serResult n e Code.pending, congrArg Host.Outcome.next ((live_of_running hRun _).trans
    ((if_pos hOwn).trans ((if_neg fun h => h.elim (· hMode) (· hOp)).trans ((if_neg ?_).trans rfl)))), ?_⟩
  · rw [hBusy]
    exact Bool.false_ne_true
  obtain ⟨hSsi, hFlag, hOut⟩ := ssiBegun_spec s n
  generalize s.ssiBegun n = w at hSsi hFlag hOut
  have hKept : LinesKept w ((w.fireGap n).serResult n e Code.pending) := (LinesKept.fireGap w n).trans (.serResult _ n e _)
  have hBusy' : ((w.fireGap n).serResult n e Code.pending).flag (Fld.SER_STAT_SSI_BUSY n) = w.flag (Fld.SER_STAT_SSI_BUSY n) :=
    flag_of_reg (hKept.stat hn)
  refine ⟨?_, ?_, hBusy'.trans hFlag, hKept.out hOut⟩
  · rw [serResult_spec]
    rfl
  · rw [serResult_spec, ser_fireGap]
    exact hSsi

theorem ssiTransferDone_ends {k : Nat} (hRun : s.inReset = false) (hClock : s.clockGone 4 = false)
    (hk : k = s.fld (Fld.SER_CFG_SSI_BITS n) + 1) (hSsi : (s.ser n).ssi = some u) (hGray : s.flag (Fld.SER_CFG_GRAY n) = false)
    (hDue : u + k * s.serBit16 n * 10 / 16 ≤ s.cycle) (bits : Word) :
    ∃ t, exec (.ssiTransferDone n bits) s = .next t ∧ (t.ser n).ssi = none ∧ (t.ser n).cmdRes = 0 ∧
      (t.ser n).ssiCnt = ((s.ser n).ssiCnt + 1) % 65536 ∧ (t.ser n).ssiData = BitVec.ofNat 32 (bits.toNat % 2 ^ k) ∧
      (t.ser n).pause = some (u + k * s.serBit16 n * 10 / 16) := by
  subst hk
  refine ⟨(s.setSer n { s.ser n with
      ssi := none, pause := some (u + (s.fld (Fld.SER_CFG_SSI_BITS n) + 1) * s.serBit16 n * 10 / 16)
      ssiData := BitVec.ofNat 32 (bits.toNat % 2 ^ (s.fld (Fld.SER_CFG_SSI_BITS n) + 1))
      ssiCnt := ((s.ser n).ssiCnt + 1) % 65536, cmdRes := Code.ok }).fire 0x0D n,
    congrArg Host.Outcome.next ((live_of_running hRun _).trans ?_), ?_⟩
  · dsimp only
    rw [hSsi]
    dsimp only
    rw [if_pos hDue, through, hClock, if_neg Bool.false_ne_true, hGray, if_neg Bool.false_ne_true]
  · rw [ser_fire, ser_setSer]
    exact ⟨rfl, rfl, rfl, rfl, rfl⟩

theorem exec_ssiPauseEnd (hRun : s.inReset = false) (hClock : s.clockGone 4 = false) (hPause : (s.ser n).pause = some u) :
    (u + s.t35 n ≤ s.cycle → ∃ t, exec (.ssiPauseEnd n) s = .next t ∧ (t.ser n).pause = none ∧
        t.flag (Fld.SER_STAT_SSI_BUSY n) = false) ∧
      (s.cycle < u + s.t35 n → exec (.ssiPauseEnd n) s = .next s) := by
  refine ⟨fun hDue => ⟨(s.setSer n { s.ser n with pause := none }).setFlag (Fld.SER_STAT_SSI_BUSY n) false,
    congrArg Host.Outcome.next ((clocked_of_runs hRun hClock _).trans ?_), ?_, flag_setFlag_on _ _ rfl rfl⟩,
    fun hNot => congrArg Host.Outcome.next ((clocked_of_runs hRun hClock _).trans ?_)⟩
  · rw [hPause]
    exact if_pos hDue
  · rw [ser_setFlag, ser_setSer]
  · rw [hPause]
    exact if_neg (Nat.not_le.mpr hNot)

/-! ### Wake-up requests -/

theorem wurq_wrongMode {w : Word} (hRun : s.inReset = false) (hOwn : s.ownsSer e n = true) (hCmd : fieldGet w 0 2 = 2) (hMode : s.serMode n ≠ 3) :
    ∃ t, exec (.wurq n e w) s = .next t ∧ (t.ser n).cmdRes = 5 ∧ (t.ser n).wurq = (s.ser n).wurq := by
  refine ⟨_, congrArg Host.Outcome.next ((live_of_running hRun _).trans ((if_pos ⟨hOwn, hCmd⟩).trans (if_pos (.inl hMode)))), ?_⟩
  rw [serResult_spec]
  exact ⟨rfl, rfl⟩

theorem wurq_starts {w : Word} (hRun : s.inReset = false) (hOwn : s.ownsSer e n = true) (hCmd : fieldGet w 0 2 = 2) (hMode : s.serMode n = 3)
    (hOp : s.serOp n = 2) (hSending : (s.ser n).sending = false) (hRx : (s.ser n).receiving = false) (hWurq : (s.ser n).wurq = none) :
    ∃ t, exec (.wurq n e w) s = .next t ∧ (t.ser n).cmdRes = 0 ∧ (t.ser n).wurq = some (s.cycle + 64000) ∧
      (t.ser n).de = true ∧ t.out = .driver n true true :: s.out := by
  refine ⟨((s.setSer n { s.ser n with wurq := some (s.cycle + 64000), de := true, deFall := none }).emit
      (.driver n true true)).serResult n e Code.ok, congrArg Host.Outcome.next ((live_of_running hRun _).trans
    ((if_pos ⟨hOwn, hCmd⟩).trans ((if_neg fun h => h.elim (· hMode) (· hOp)).trans (if_neg ?_)))), ?_, ?_, ?_, ?_⟩
  · rw [hSending, hRx, hWurq]
    decide
  · rw [serResult_spec]
    rfl
  · rw [serResult_spec, ser_emit, ser_setSer]
  · rw [serResult_spec, ser_emit, ser_setSer]
  · rfl

theorem exec_wurqEnd (hRun : s.inReset = false) (hClock : s.clockGone 4 = false) (hWurq : (s.ser n).wurq = some u) :
    (u ≤ s.cycle → ∃ t, exec (.wurqEnd n) s = .next t ∧ (t.ser n).wurq = none ∧ (s.txCount n = 0 → (t.ser n).de = false)) ∧
      (s.cycle < u → exec (.wurqEnd n) s = .next s) := by
  refine ⟨fun hDue => ⟨((s.setSer n { s.ser n with wurq := none }).fallDe n).serKick n,
    congrArg Host.Outcome.next ((clocked_of_runs hRun hClock _).trans ?_), ?_⟩,
    fun hNot => congrArg Host.Outcome.next ((clocked_of_runs hRun hClock _).trans ?_)⟩
  · rw [hWurq]
    exact if_pos hDue
  · obtain ⟨hOnly, -, hDe⟩ := fallDe_spec (s.setSer n { s.ser n with wurq := none }) n
    rw [ser_setSer] at hOnly
    generalize (s.setSer n { s.ser n with wurq := none }).fallDe n = w at hOnly hDe
    refine ⟨((congrArg Serial.wurq (sendOnly_serKick w n)).trans rfl).trans ((congrArg Serial.wurq hOnly).trans rfl), fun hEmpty => ?_⟩
    have hHead : (w.ser n).txHead = (s.ser n).txHead := (congrArg Serial.txHead hOnly).trans rfl
    have hTail : (w.ser n).txTail = (s.ser n).txTail := (congrArg Serial.txTail hOnly).trans rfl
    have hCount : w.txCount n = 0 := by rw [txCount, hHead, hTail, ← txCount, hEmpty]
    rw [serKick_empty hCount, hDe]
  · rw [hWurq]
    exact if_neg (Nat.not_le.mpr hNot)

end Sys2Proof.Machine.State

open Sys2Proof Sys2Proof.Machine Sys2Proof.Machine.State

/-- Settles O48: each operation of a line leaves the lines' registers and cycle, and of the line's state all but the fields it
names; so a result read after the operations that follow (a kick, a fall of DE, an event) is the one its own step wrote. -/
theorem serialLines : Obligations.SerialLines := by
  unfold Obligations.SerialLines
  intro s n e v u who data bits w hRun hHas
  have hn := lt_16_of_hasSer hHas
  dsimp only
  refine ⟨fun hAsks hServes => ⟨?_, ?_⟩, fun hClock hMode hOp => ⟨fun hFrom => ?_, fun _ hFrom hSending h15 h35 => ?_⟩,
    fun hClock hMode hRx => ⟨fun hHeard hEcho => ?_, fun hDe hRxDe => ⟨fun hRoom => ?_, fun hFull => ?_⟩⟩, fun hOff => ?_, fun hIdle => ?_,
    fun hOwn => ⟨serTxTail_taken hRun hOwn, serTxTail_refused hRun hOwn, serRxHead_taken hRun hOwn, serRxHead_refused hRun hOwn,
      ssiStart_wrongMode hRun hOwn, fun hMode hOp => ⟨ssiStart_busy hRun hOwn hMode hOp, ssiStart_starts hRun hOwn hn hMode hOp⟩,
      wurq_wrongMode hRun hOwn, wurq_starts hRun hOwn⟩,
    fun hClock => ⟨fun hSending hDue => ?_, fun hNot => ?_, fun hFrom hSending hMode hOp => ?_, fun hMode hHalf hOp => ⟨?_, ?_⟩,
      fun k hk hSsi hGray hDue => ssiTransferDone_ends hRun hClock hk hSsi hGray hDue bits, exec_ssiPauseEnd hRun hClock,
      exec_wurqEnd hRun hClock⟩⟩
  · refine ⟨_, congrArg Host.Outcome.next ((served_of_serves hServes _).trans ((if_pos hHas).trans (unitWrite_of_asks hAsks _ n _ _))), ?_⟩
    obtain ⟨hEn, hZero, -, -⟩ := serEnabled_spec s hn false
    exact ⟨hEn, hZero rfl⟩
  · refine ⟨_, congrArg Host.Outcome.next ((served_of_serves hServes _).trans ((if_pos hHas).trans (unitWrite_of_asks hAsks _ n _ _))), ?_⟩
    obtain ⟨hEn, -, hOne, hTwo⟩ := serEnabled_spec s hn true
    exact ⟨hEn, hOne rfl, hTwo rfl⟩
  · obtain ⟨hRx, hDe, -, hNone, -⟩ := rxStart_spec s hn
    exact ⟨_, exec_startBit hRun hHas hMode hClock hOp, hRx, hNone hFrom, hDe⟩
  · obtain ⟨hRx, -, hStopped, -, hSome⟩ := rxStart_spec s hn
    exact ⟨_, exec_startBit hRun hHas hMode hClock hOp, hRx, hSome u hFrom hSending h15 h35, hStopped⟩
  · obtain ⟨-, hSer⟩ := rxEnded_spec s n
    refine ⟨s.rxEnded n, ?_, ?_⟩
    · rw [exec_characterReceived hRun hHas hMode hClock hRx, hEcho, Bool.or_false, if_neg]
      rcases hHeard with h | h <;> rw [h]
      · rw [Bool.not_true, Bool.and_false]
        exact Bool.false_ne_true
      · rw [Bool.not_true, Bool.false_and]
        exact Bool.false_ne_true
    · rw [hSer]
      exact ⟨rfl, rfl, rfl, rfl⟩
  · obtain ⟨hKept, hSer⟩ := rxEnded_spec s n
    have hExec := exec_characterReceived hRun hHas hMode hClock hRx data
    rw [hDe, hRxDe, if_pos (by rfl)] at hExec
    refine ⟨_, hExec, ?_⟩
    have hEntry : (s.rxEnded n).serEntry n data false false false = data.toNat % 2 ^ s.serData n + 2 ^ 11 * bit (s.ser n).rxGap15 +
        2 ^ 12 * bit (s.ser n).first + 2 ^ 13 * bit (s.ser n).ovr := by
      rw [serEntry, hKept.serData hn, hSer]
      rfl
    have hHeld : (s.rxEnded n).rxCount n ≠ 1023 := by
      rw [rxCount, hSer]
      exact hRoom
    rw [rxStore_room hHeld, hEntry, hSer]
    exact ⟨rfl, Store.get_set_same _ _ _, rfl, rfl, rfl, rfl⟩
  · obtain ⟨hKept, hSer⟩ := rxEnded_spec s n
    have hExec := exec_characterReceived hRun hHas hMode hClock hRx data
    rw [hDe, hRxDe, if_pos (by rfl)] at hExec
    refine ⟨_, hExec, ?_⟩
    have hHeld : (s.rxEnded n).rxCount n = 1023 := by
      rw [rxCount, hSer]
      exact hFull
    have hCnt : (s.rxEnded n).fld (Fld.SER_CNT_RX_OVR n) = s.fld (Fld.SER_CNT_RX_OVR n) := fld_of_reg (hKept.cnt hn)
    obtain ⟨hStored, hOvr⟩ := rxStore_full hHeld data
    rw [hStored, hOvr, hCnt, hSer]
    exact ⟨rfl, rfl, rfl⟩
  · refine congrArg Host.Outcome.next ((live_of_running hRun _).trans ?_)
    split
    · rfl
    · exact if_pos (.inr hOff)
  · refine congrArg Host.Outcome.next ((live_of_running hRun _).trans ?_)
    split
    · rfl
    · dsimp only
      rw [hIdle]
      exact if_pos rfl
  · exact ⟨_, exec_characterSent hRun hClock hSending hDue, charSent_spec s n⟩
  · refine congrArg Host.Outcome.next ((clocked_of_runs hRun hClock _).trans (if_neg fun h => ?_))
    rcases hNot with hNot | hNot
    · exact Bool.false_ne_true (hNot.symm.trans h.1)
    · exact Nat.not_le.mpr hNot h.2
  · obtain ⟨h15, h15Not⟩ := exec_gapT15 hRun hClock hFrom hSending hMode hOp
    obtain ⟨h35, h35Not⟩ := exec_gapT35 hRun hClock hFrom hSending hMode hOp
    exact ⟨h15, h15Not, h35, h35Not⟩
  · exact fun hMode2 hTx hSending hWurq hIdle => ⟨_, congrArg Host.Outcome.next ((clocked_of_runs hRun hClock _).trans
      (if_pos ⟨hHas, hMode, hHalf⟩)), serKick_half hHalf hOp hMode2 hTx hSending hWurq hIdle⟩
  · exact fun hEmpty => congrArg Host.Outcome.next ((clocked_of_runs hRun hClock _).trans
      ((if_pos ⟨hHas, hMode, hHalf⟩).trans (serKick_empty hEmpty)))
end

section
/-!
SUPPORT. What the shared operations of a CAN controller leave of its registers and of its transmit objects (chapter 09).
-/

namespace Sys2Proof.Machine.State

variable {r s t u : State} {n k : Nat}

/-! ### Objects -/

theorem txObj_congr (h : (t.can n).tx = (s.can n).tx) (k : Nat) : t.txObj n k = s.txObj n k := by rw [txObj, h, txObj]

theorem txObj_setTxObj (s : State) (n k : Nat) (x : TxObj) : (s.setTxObj n k x).txObj n k = x := by
  rw [txObj, setTxObj, can_setCan]
  exact Store.get_set_same (s.can n).tx k x

theorem can_setTxObj (s : State) (n k : Nat) (x : TxObj) :
    (s.setTxObj n k x).can n = { s.can n with tx := Store.set (fun _ => {}) (s.can n).tx k x } := can_setCan ..

theorem txObjWord_congr (h : t.txObj n k = s.txObj n k) (w : Nat) : t.txObjWord n k w = s.txObjWord n k w := by
  rw [txObjWord, h, txObjWord]

theorem activeObj_congr (h : (t.can n).tx = (s.can n).tx) : t.activeObj n = s.activeObj n := by
  simp only [activeObj, txObj_congr h]

/-! ### Registers -/

/-- The registers of the CAN controllers but CAN_STAT of controller `n` are as in `r`, and no output is lost. -/
structure CansKept (n : Nat) (r s : State) : Prop where
  reg : ∀ a, 0x500000 ≤ a → a < 0x510000 → a ≠ Reg.CAN_STAT n → s.reg a = r.reg a
  conf : s.fld (Fld.CAN_STAT_CONF n) = r.fld (Fld.CAN_STAT_CONF n)
  settled : r.flag (Fld.CAN_STAT_RECOVERING n) = false → s.flag (Fld.CAN_STAT_RECOVERING n) = false
  out : r.out ⊆ s.out

namespace CansKept

theorem refl : CansKept n s s := ⟨fun _ _ _ _ => rfl, rfl, id, fun _ h => h⟩

theorem trans (h : CansKept n r s) (h' : CansKept n s t) : CansKept n r t :=
  ⟨fun a hlo hhi hne => (h'.reg a hlo hhi hne).trans (h.reg a hlo hhi hne), h'.conf.trans h.conf, fun hr => h'.settled (h.settled hr),
    fun _ ho => h'.out (h.out ho)⟩

theorem ite {c : Prop} [Decidable c] (hs : CansKept n r s) (ht : CansKept n r t) : CansKept n r (if c then s else t) := by
  split
  · exact hs
  · exact ht

/-- A step that touches no register and no output. -/
theorem other (hReg : ∀ a, t.reg a = s.reg a) (hOut : t.out = s.out) : CansKept n s t := by
  have hStat : t.flag (Fld.CAN_STAT_RECOVERING n) = s.flag (Fld.CAN_STAT_RECOVERING n) := flag_of_reg (hReg _)
  exact ⟨fun a _ _ _ => hReg a, fld_of_reg (hReg _), fun h => hStat.trans h, fun _ h => hOut ▸ h⟩

theorem setCan (s : State) (n m : Nat) (x : Can) : CansKept n s (s.setCan m x) := other (fun _ => rfl) rfl

theorem stat_range (hn : n < 16) : 0x310000 ≤ Reg.CAN_STAT n ∧ Reg.CAN_STAT n < 0x1000000 := by
  unfold Reg.CAN_STAT
  omega

theorem fire (s : State) (hn : n < 16) (kind i : Nat) : CansKept n s (s.fire kind i) := by
  have hKeeps : Keeps [.now, .regs, .engines] s (s.fire kind i) := .fire .refl rfl
  have hWindow := WindowsKept.fire s kind i
  obtain ⟨hlo, hhi⟩ := stat_range hn
  have hStat := hWindow.reg _ hlo hhi
  have hFlag : (s.fire kind i).flag (Fld.CAN_STAT_RECOVERING n) = s.flag (Fld.CAN_STAT_RECOVERING n) := flag_of_reg hStat
  exact ⟨fun a hlo hhi _ => hWindow.reg a (by omega) (by omega), fld_of_reg (f := Fld.CAN_STAT_CONF n) hStat, fun h => hFlag.trans h,
    fun _ h => (hKeeps.frame .out rfl) ▸ h⟩

theorem setOp (s : State) (n op : Nat) : CansKept n s (s.setFld (Fld.CAN_STAT_OPSTATE n) op) :=
  ⟨fun _ _ _ hne => reg_setFld_ne s op hne, fld_setFld_off _ _ rfl, fun h => (flag_setFld_off _ _ rfl).trans h, fun _ h => h⟩

theorem settle (s : State) (n : Nat) : CansKept n s (s.setFlag (Fld.CAN_STAT_RECOVERING n) false) :=
  ⟨fun _ _ _ hne => reg_setFlag_ne s false hne, fld_setFlag_off _ _ rfl, fun _ => flag_setFlag_on _ _ rfl rfl, fun _ h => h⟩

theorem setCfgErr (s : State) (n : Nat) : CansKept n s (s.setFlag (Fld.CAN_STAT_CFG_ERR n) true) :=
  ⟨fun _ _ _ hne => reg_setFlag_ne s true hne, fld_setFlag_off _ _ rfl, fun h => (flag_setFlag_off _ _ rfl).trans h, fun _ h => h⟩

end CansKept

/-! ### The operating state -/

/-- What a change of operating state leaves of a controller's own state: all but the object chosen. -/
structure CanStill (n : Nat) (s t : State) : Prop extends CansKept n s t where
  own : t.can n = { s.can n with chosen := (t.can n).chosen }

theorem CanStill.refl : CanStill n s s := ⟨.refl, rfl⟩

theorem CanStill.trans (h : CanStill n s t) (h' : CanStill n t u) : CanStill n s u :=
  ⟨h.toCansKept.trans h'.toCansKept, h'.own.trans (congrArg (fun x : Can => { x with chosen := (u.can n).chosen }) h.own)⟩

theorem CanStill.of_can (h : CansKept n s t) (hCan : t.can n = s.can n) : CanStill n s t := ⟨h, by rw [hCan]⟩

/-- The stages of a new operating state. -/
theorem setCanOp_spec (s : State) (hn : n < 16) {op : Nat} (hop : op < 4) :
    CanStill n s (s.setCanOp n op) ∧ (s.setCanOp n op).canOp n = op := by
  unfold setCanOp
  split
  case isTrue h => exact ⟨.refl, h⟩
  case isFalse h =>
    have hChosen : CanStill n s (if op = 3 then s else s.setCan n { s.can n with chosen := none }) := by
      split
      · exact .refl
      · exact ⟨.setCan s n n _, by rw [can_setCan]⟩
    dsimp only
    generalize (if op = 3 then s else s.setCan n { s.can n with chosen := none }) = u at hChosen
    have hOp : (u.setFld (Fld.CAN_STAT_OPSTATE n) op).canOp n = op := by
      rw [canOp, fld_setFld_on _ _ rfl]
      exact Nat.mod_eq_of_lt hop
    have hSet := hChosen.trans (.of_can (.setOp u n op) rfl)
    generalize u.setFld (Fld.CAN_STAT_OPSTATE n) op = v at hSet hOp
    have hOff : CanStill n s (if op = 0 then v.setFlag (Fld.CAN_STAT_RECOVERING n) false else v) ∧
        (if op = 0 then v.setFlag (Fld.CAN_STAT_RECOVERING n) false else v).canOp n = op := by
      split
      · exact ⟨hSet.trans (.of_can (.settle v n) rfl), (fld_setFlag_off _ _ rfl).trans hOp⟩
      · exact ⟨hSet, hOp⟩
    obtain ⟨hKept, hOp'⟩ := hOff
    generalize (if op = 0 then v.setFlag (Fld.CAN_STAT_RECOVERING n) false else v) = w at hKept hOp'
    obtain ⟨hlo, hhi⟩ := CansKept.stat_range hn
    exact ⟨hKept.trans (.of_can (.fire w hn _ _) (can_fire ..)),
      (fld_of_reg (f := Fld.CAN_STAT_OPSTATE n) ((WindowsKept.fire w _ _).reg _ hlo hhi)).trans hOp'⟩

theorem canTarget_lt (s : State) (n : Nat) : s.canTarget n < 4 := by
  unfold canTarget
  split
  · decide
  · split <;> decide

theorem canFollow_still (s : State) (hn : n < 16) : CanStill n s (s.canFollow n) := by
  unfold canFollow
  dsimp only
  split
  · split
    · exact .refl
    · split
      · exact .of_can (.setCfgErr s n) rfl
      · exact (setCanOp_spec s hn (by decide)).1
  · split
    · split
      · exact (setCanOp_spec s hn (by decide)).1
      · exact .refl
    · split
      · exact .refl
      · exact (setCanOp_spec s hn (canTarget_lt s n)).1

/-- OFF at once when no frame is in progress. -/
theorem canFollow_off (hn : n < 16) (hTarget : s.canTarget n = 0) (hBusy : (s.can n).busy = false) : (s.canFollow n).canOp n = 0 := by
  unfold canFollow
  dsimp only
  have hNot : ¬((s.can n).busy = true ∧ (!s.busOff n) = true) := fun hc => Bool.false_ne_true (hBusy.symm.trans hc.1)
  have hZero := (setCanOp_spec s hn (op := 0) (by decide)).2
  rw [if_pos hTarget, if_neg hNot, hTarget, if_pos rfl]
  split
  · assumption
  · split <;> exact hZero

/-- Integration begins where the bit timing allows it. -/
theorem canFollow_begin (hn : n < 16) (hOff : s.canOp n = 0) (hTarget : s.canTarget n ≠ 0) :
    (s.dataBit n ≤ s.nominalBit n → (s.canFollow n).canOp n = 1) ∧
      (s.nominalBit n < s.dataBit n → s.canFollow n = s.setFlag (Fld.CAN_STAT_CFG_ERR n) true) := by
  unfold canFollow
  dsimp only
  rw [if_pos hOff, if_neg hTarget]
  refine ⟨fun h => ?_, fun h => if_pos h⟩
  rw [if_neg (Nat.not_lt.mpr h)]
  exact (setCanOp_spec s hn (by decide)).2

/-- The end of a frame: the controller is not busy, with its objects, registers and outputs. -/
theorem frameEnd_kept (s : State) (hn : n < 16) (suspend : Bool) : CansKept n s (s.frameEnd n suspend) ∧
    ((s.frameEnd n suspend).can n).tx = (s.can n).tx ∧ ((s.frameEnd n suspend).can n).busy = false := by
  unfold frameEnd
  dsimp only
  generalize s.cycle + (if suspend = true ∧ s.fld (Fld.CAN_STAT_CONF n) = 1 then 11 else 3) * s.nominalBit n * 10 = c
  obtain ⟨hKept, hOwn⟩ := canFollow_still (s.setCan n { s.can n with busy := false, suspendUntil := c }) hn
  rw [can_setCan] at hOwn
  exact ⟨(CansKept.setCan s n n _).trans hKept, (congrArg Can.tx hOwn).trans rfl, (congrArg Can.busy hOwn).trans rfl⟩

theorem busIdle_kept (s : State) (hn : n < 16) : CansKept n s (s.busIdle n) ∧ ((s.busIdle n).can n).excepted = false ∧
    ((s.busIdle n).can n).busy = false := by
  unfold busIdle
  obtain ⟨hKept, hOwn⟩ := canFollow_still (s.setCan n { s.can n with busy := false, excepted := false }) hn
  rw [can_setCan] at hOwn
  exact ⟨(CansKept.setCan s n n _).trans hKept, (congrArg Can.excepted hOwn).trans rfl, (congrArg Can.busy hOwn).trans rfl⟩

/-! ### Objects that end -/

/-- An object ended: its state, and nothing of the registers. -/
theorem endTx_spec (s : State) (hn : n < 16) (k state : Nat) : ((s.endTx n k state).txObj n k).state = state ∧
    CansKept n s (s.endTx n k state) := by
  unfold endTx
  refine ⟨?_, (CansKept.setCan s n n _).trans (.fire _ hn _ _)⟩
  rw [txObj_congr (congrArg Can.tx (can_fire _ _ _ _)), txObj_setTxObj]

/-- The state an attempt that fails leaves its object in. -/
theorem failAttempt_spec (s : State) (hn : n < 16) (k : Nat) (first : Bool) : ((s.failAttempt n k first).txObj n k).state =
      (if (s.txObj n k).cancelReq then 4 else if (s.txObjWord n k 2).getLsbD 5 then 5 else 1) ∧
    CansKept n s (s.failAttempt n k first) := by
  unfold failAttempt
  dsimp only
  split
  · exact endTx_spec s hn k 4
  · split
    · exact endTx_spec s hn k 5
    · rw [txObj_setTxObj]
      exact ⟨rfl, .setCan s n n _⟩

/-! ### The error counters -/

theorem canReg_ne_merge {a : Nat} (hhi : a < 0x510000) (e : Nat) : a ≠ Reg.CE_EVT_OVR e := ne_mergeRegister (.inl (by omega)) e

theorem errTold_kept (s : State) (off changed : Prop) [Decidable off] [Decidable changed] {a : Nat} (hhi : a < 0x510000) (hCnt : a ≠ Reg.CAN_CNT1 n) : (s.errTold n off changed).reg a = s.reg a :=
  reg_errTold_ne off changed hCnt (canReg_ne_merge hhi)

/-- CONF as the counters give it. -/
def errConf (s : State) (n tec rec' : Nat) : Nat :=
  if s.busOff n then 2 else if 255 < tec then 2 else if 128 ≤ tec ∨ 128 ≤ rec' then 1 else 0

theorem errConf_lt (s : State) (n tec rec' : Nat) : s.errConf n tec rec' < 4 := by
  unfold errConf
  split
  · decide
  · split
    · decide
    · split <;> decide

theorem can_setErr (s : State) (n tec rec' : Nat) : (s.setErr n tec rec').can n = s.can n := by
  have hKeeps : Keeps [.now, .regs, .engines] s (s.setErr n tec rec') := .setErr .refl rfl
  exact can_of_cans (hKeeps.frame .cans rfl) n

theorem out_setErr (s : State) (n tec rec' : Nat) : (s.setErr n tec rec').out = s.out := by
  have hKeeps : Keeps [.now, .regs, .engines] s (s.setErr n tec rec') := .setErr .refl rfl
  exact hKeeps.frame .out rfl

theorem setErr_spec (s : State) (hn : n < 16) {tec rec' : Nat} (hTec : tec < 512) (hRec : rec' < 256) :
    (s.setErr n tec rec').fld (Fld.CAN_ECNT_TEC n) = tec ∧ (s.setErr n tec rec').fld (Fld.CAN_ECNT_REC n) = rec' ∧
      (s.setErr n tec rec').fld (Fld.CAN_STAT_CONF n) = s.errConf n tec rec' := by
  have hEcnt : Reg.CAN_ECNT n ≠ Reg.CAN_STAT n := by unfold Reg.CAN_ECNT Reg.CAN_STAT; omega
  have hTold (v : State) (off changed : Prop) [Decidable off] [Decidable changed] :
      (v.errTold n off changed).reg (Reg.CAN_ECNT n) = v.reg (Reg.CAN_ECNT n) ∧
        (v.errTold n off changed).reg (Reg.CAN_STAT n) = v.reg (Reg.CAN_STAT n) :=
    ⟨errTold_kept v off changed (by unfold Reg.CAN_ECNT; omega) (by unfold Reg.CAN_ECNT Reg.CAN_CNT1; omega),
      errTold_kept v off changed (by unfold Reg.CAN_STAT; omega) (stat_ne_cnt1 n).symm⟩
  have hState (warn : Bool) : (s.errState n tec rec' (s.errConf n tec rec') warn).fld (Fld.CAN_ECNT_TEC n) = tec ∧
      (s.errState n tec rec' (s.errConf n tec rec') warn).fld (Fld.CAN_ECNT_REC n) = rec' ∧
      (s.errState n tec rec' (s.errConf n tec rec') warn).fld (Fld.CAN_STAT_CONF n) = s.errConf n tec rec' := by
    unfold errState
    refine ⟨?_, ?_, ?_⟩
    · rw [fld_setFlag_apart _ _ (.inl hEcnt.symm), fld_setFld_apart _ _ (.inl hEcnt.symm), fld_setFld_off _ _ rfl, fld_setFld_on _ _ rfl]
      exact Nat.mod_eq_of_lt hTec
    · rw [fld_setFlag_apart _ _ (.inl hEcnt.symm), fld_setFld_apart _ _ (.inl hEcnt.symm), fld_setFld_on _ _ rfl]
      exact Nat.mod_eq_of_lt hRec
    · rw [fld_setFlag_off _ _ rfl, fld_setFld_on _ _ rfl]
      exact Nat.mod_eq_of_lt (errConf_lt s n tec rec')
  rw [setErr_told]
  obtain ⟨hTec', hRec', hConf⟩ := hState (decide (96 ≤ tec ∨ 96 ≤ rec'))
  unfold errConf at hTec' hRec' hConf ⊢
  generalize s.errState n tec rec' (if s.busOff n then 2 else if 255 < tec then 2 else if 128 ≤ tec ∨ 128 ≤ rec' then 1 else 0)
    (decide (96 ≤ tec ∨ 96 ≤ rec')) = v at hTec' hRec' hConf
  obtain ⟨hE, hS⟩ := hTold v ((if s.busOff n then 2 else if 255 < tec then 2 else if 128 ≤ tec ∨ 128 ≤ rec' then 1 else 0) = 2 ∧
    (!s.busOff n) = true) ((s.fld (Fld.CAN_STAT_CONF n) !=
      (if s.busOff n then 2 else if 255 < tec then 2 else if 128 ≤ tec ∨ 128 ≤ rec' then 1 else 0) ||
      s.flag (Fld.CAN_STAT_WARN n) != decide (96 ≤ tec ∨ 96 ≤ rec')) = true)
  exact ⟨(fld_of_reg (f := Fld.CAN_ECNT_TEC n) hE).trans hTec', (fld_of_reg (f := Fld.CAN_ECNT_REC n) hE).trans hRec',
    (fld_of_reg (f := Fld.CAN_STAT_CONF n) hS).trans hConf⟩

/-! ### The result of a command -/

theorem canResult_spec (s : State) (hn : n < 16) (who : Ident) {cmd code : Nat} (hCmd : cmd < 256) (hCode : code < 65536) :
    (s.canResult n cmd code who).fld (Fld.CAN_CMD_RES_RESULT n) = code ∧ (s.canResult n cmd code who).fld (Fld.CAN_CMD_RES_CMD n) = cmd ∧
      (s.canResult n cmd code who).flag (Fld.CAN_CMD_RES_DONE n) = true ∧ (s.canResult n cmd code who).cans = s.cans ∧
      ∀ a, a ≠ Reg.CAN_CMD_RES n → a ≠ Reg.SYS_WRONG_STATE_CNT → (s.canResult n cmd code who).reg a = s.reg a := by
  have hLost : s.fld (Fld.CAN_CMD_RES_LOST n) < 2 := fieldGet_lt _ _ 1
  have hNe : Reg.CAN_CMD_RES n ≠ Reg.SYS_WRONG_STATE_CNT := by unfold Reg.CAN_CMD_RES Reg.SYS_WRONG_STATE_CNT; omega
  have hReg : (s.canResult n cmd code who).reg (Reg.CAN_CMD_RES n) =
      BitVec.ofNat 32 (code + 65536 * cmd + 2 ^ 24 + 2 ^ 25 * s.fld (Fld.CAN_CMD_RES_LOST n)) :=
    (reg_countCode_ne _ _ _ hNe).trans (reg_setReg_same ..)
  have hKeeps : Keeps [.now, .regs] s (s.canResult n cmd code who) := .canResult .refl rfl
  have hWord : code + 65536 * cmd + 2 ^ 24 + 2 ^ 25 * s.fld (Fld.CAN_CMD_RES_LOST n) < 2 ^ 32 := by omega
  have hFld (f : Fld) (hf : f.reg = Reg.CAN_CMD_RES n) : (s.canResult n cmd code who).fld f =
      (code + 65536 * cmd + 2 ^ 24 + 2 ^ 25 * s.fld (Fld.CAN_CMD_RES_LOST n)) / 2 ^ f.lo % 2 ^ f.width := by
    rw [fld, hf, hReg, fieldGet_eq_div_mod, BitVec.toNat_ofNat, Nat.mod_eq_of_lt hWord]
  refine ⟨(hFld _ rfl).trans ?_, (hFld _ rfl).trans ?_, ?_, hKeeps.frame .cans rfl,
    fun a hRes hCnt => (reg_countCode_ne _ _ _ hCnt).trans (reg_setReg_ne _ _ hRes)⟩
  · show (code + 65536 * cmd + 2 ^ 24 + 2 ^ 25 * s.fld (Fld.CAN_CMD_RES_LOST n)) / 2 ^ 0 % 2 ^ 16 = code
    omega
  · show (code + 65536 * cmd + 2 ^ 24 + 2 ^ 25 * s.fld (Fld.CAN_CMD_RES_LOST n)) / 2 ^ 16 % 2 ^ 8 = cmd
    omega
  · have hDone : (s.canResult n cmd code who).fld (Fld.CAN_CMD_RES_DONE n) = 1 := by
      refine (hFld _ rfl).trans ?_
      show (code + 65536 * cmd + 2 ^ 24 + 2 ^ 25 * s.fld (Fld.CAN_CMD_RES_LOST n)) / 2 ^ 24 % 2 ^ 1 = 1
      omega
    rw [flag, hDone]
    rfl

end Sys2Proof.Machine.State
end

section
/-!
PROOF. O46: the commands of a CAN controller, its starts and ends of frame, its bus errors, and the obligation.
-/

namespace Sys2Proof.Machine.State

variable {s t u : State} {n k : Nat} {who : Ident}

/-! ### Enabling -/

theorem reg_ctrl_ne_stat (n : Nat) : Reg.CAN_CTRL n ≠ Reg.CAN_STAT n := by
  unfold Reg.CAN_CTRL Reg.CAN_STAT
  omega

theorem canCtrl_kept (h : CansKept n s t) (hn : n < 16) : t.flag (Fld.CAN_CTRL_EN n) = s.flag (Fld.CAN_CTRL_EN n) := by
  refine flag_of_reg (h.reg _ ?_ ?_ (reg_ctrl_ne_stat n))
  · show 0x500000 ≤ Reg.CAN_CTRL n
    unfold Reg.CAN_CTRL
    omega
  · show Reg.CAN_CTRL n < 0x510000
    unfold Reg.CAN_CTRL
    omega

/-- EN written: the flag, and what of the state OPSTATE follows from. -/
theorem canCtrlSet (s : State) (hn : n < 16) (en : Bool) : (s.setFlag (Fld.CAN_CTRL_EN n) en).flag (Fld.CAN_CTRL_EN n) = en ∧
    (s.setFlag (Fld.CAN_CTRL_EN n) en).canOp n = s.canOp n ∧ (s.setFlag (Fld.CAN_CTRL_EN n) en).mode = s.mode ∧
    (s.setFlag (Fld.CAN_CTRL_EN n) en).nominalBit n = s.nominalBit n ∧ (s.setFlag (Fld.CAN_CTRL_EN n) en).dataBit n = s.dataBit n := by
  have hFld {f : Fld} (h : f.reg ≠ Reg.CAN_CTRL n) : (s.setFlag (Fld.CAN_CTRL_EN n) en).fld f = s.fld f :=
    fld_setFlag_apart s en (.inl h.symm)
  have hNbt : Reg.CAN_NBT n ≠ Reg.CAN_CTRL n := by unfold Reg.CAN_NBT Reg.CAN_CTRL; omega
  have hDbt : Reg.CAN_DBT n ≠ Reg.CAN_CTRL n := by unfold Reg.CAN_DBT Reg.CAN_CTRL; omega
  refine ⟨flag_setFlag_on _ _ rfl rfl, hFld (reg_ctrl_ne_stat n).symm, hFld ?_, ?_, ?_⟩
  · show Reg.SYS_MODE ≠ Reg.CAN_CTRL n
    unfold Reg.SYS_MODE Reg.CAN_CTRL
    omega
  · rw [nominalBit, hFld hNbt, hFld hNbt, hFld hNbt, nominalBit]
  · rw [dataBit, hFld hDbt, hFld hDbt, hFld hDbt, dataBit]

theorem canEnabled_spec (hn : n < 16) (hOff : s.canOp n = 0) (hMode : Mode.commission ≤ s.mode) :
    (s.dataBit n ≤ s.nominalBit n → ((s.setFlag (Fld.CAN_CTRL_EN n) true).canFollow n).flag (Fld.CAN_CTRL_EN n) = true ∧
      ((s.setFlag (Fld.CAN_CTRL_EN n) true).canFollow n).canOp n = 1) ∧
    (s.nominalBit n < s.dataBit n → ((s.setFlag (Fld.CAN_CTRL_EN n) true).canFollow n).flag (Fld.CAN_STAT_CFG_ERR n) = true ∧
      ((s.setFlag (Fld.CAN_CTRL_EN n) true).canFollow n).canOp n = 0) := by
  obtain ⟨hEn, hOp, hMode', hNominal, hData⟩ := canCtrlSet s hn true
  generalize s.setFlag (Fld.CAN_CTRL_EN n) true = u at hEn hOp hMode' hNominal hData
  have hTarget : u.canTarget n ≠ 0 := by
    unfold canTarget
    rw [hEn, hMode', if_neg fun h => h.elim Bool.false_ne_true (Nat.not_lt.mpr hMode)]
    split <;> decide
  obtain ⟨hGood, hBad⟩ := canFollow_begin hn (hOp.trans hOff) hTarget
  rw [hNominal, hData] at hGood hBad
  refine ⟨fun h => ⟨(canCtrl_kept (canFollow_still u hn).toCansKept hn).trans hEn, hGood h⟩, fun h => ?_⟩
  rw [hBad h]
  exact ⟨flag_setFlag_on _ _ rfl rfl, (fld_setFlag_off _ _ rfl).trans (hOp.trans hOff)⟩

theorem canDisabled_spec (hn : n < 16) (hBusy : (s.can n).busy = false) :
    ((s.setFlag (Fld.CAN_CTRL_EN n) false).canFollow n).flag (Fld.CAN_CTRL_EN n) = false ∧
      ((s.setFlag (Fld.CAN_CTRL_EN n) false).canFollow n).canOp n = 0 := by
  obtain ⟨hEn, -⟩ := canCtrlSet s hn false
  have hBusy' : ((s.setFlag (Fld.CAN_CTRL_EN n) false).can n).busy = false := hBusy
  generalize s.setFlag (Fld.CAN_CTRL_EN n) false = u at hEn hBusy'
  have hTarget : u.canTarget n = 0 := by
    unfold canTarget
    rw [hEn]
    exact if_pos (.inl rfl)
  exact ⟨(canCtrl_kept (canFollow_still u hn).toCansKept hn).trans hEn, canFollow_off hn hTarget hBusy'⟩

/-! ### Commands -/

section
variable (hAsks : s.asks who = true) (hServes : s.serves who = true) (hHas : s.variant.hasCan n = true)
include hAsks hServes hHas

theorem canCommand_runs (hDone : s.flag (Fld.CAN_CMD_RES_DONE n) = true) (hFirst : s.took (Reg.CAN_CMD n) = false) (f : State → State) :
    (s.served who fun s => s.canCommand who n f) = f (s.taken (Reg.CAN_CMD n)) :=
  (served_of_serves hServes _).trans ((if_pos hHas).trans ((unitWrite_of_asks hAsks _ n _ _).trans
    (oneAtATime_first (by rw [hDone]; rfl) hFirst f)))

theorem canCommand_lost (h : s.flag (Fld.CAN_CMD_RES_DONE n) = false ∨ s.took (Reg.CAN_CMD n) = true) (f : State → State) :
    (s.served who fun s => s.canCommand who n f) = s.setFlag (Fld.CAN_CMD_RES_LOST n) true :=
  (served_of_serves hServes _).trans ((if_pos hHas).trans ((unitWrite_of_asks hAsks _ n _ _).trans
    (oneAtATime_lost (h.imp_left fun h => by rw [h]; rfl) f)))

end

/-- The result of a command of a controller. -/
def CanAnswered (t : State) (n cmd code : Nat) : Prop :=
  t.fld (Fld.CAN_CMD_RES_RESULT n) = code ∧ t.fld (Fld.CAN_CMD_RES_CMD n) = cmd ∧ t.flag (Fld.CAN_CMD_RES_DONE n) = true

theorem canAnswered (u : State) (hn : n < 16) (who : Ident) {cmd code : Nat} (hCmd : cmd < 256) (hCode : code < 65536) :
    CanAnswered (u.canResult n cmd code who) n cmd code ∧ ∀ j, (u.canResult n cmd code who).txObj n j = u.txObj n j := by
  obtain ⟨hResult, hTag, hDone, hCans, -⟩ := canResult_spec u hn who hCmd hCode
  exact ⟨⟨hResult, hTag, hDone⟩, fun j => txObj_congr (congrArg Can.tx (can_of_cans hCans n)) j⟩

section
variable (hAsks : s.asks who = true) (hServes : s.serves who = true) (hHas : s.variant.hasCan n = true) (hk : k < 32)
  (hDone : s.flag (Fld.CAN_CMD_RES_DONE n) = true) (hFirst : s.took (Reg.CAN_CMD n) = false)
include hAsks hServes hHas hk hDone hFirst

theorem exec_txRequest {code : Nat} {u : State} (h : (s.taken (Reg.CAN_CMD n)).txRequest n k = (code, u)) :
    exec (.txRequest n k who) s = .next (u.canResult n 2 code who) := by
  refine congrArg Host.Outcome.next ((canCommand_runs hAsks hServes hHas hDone hFirst _).trans ?_)
  rw [Nat.mod_eq_of_lt hk, h]

theorem exec_txCancel {code : Nat} {u : State} (h : (s.taken (Reg.CAN_CMD n)).txCancel n k = (code, u)) :
    exec (.txCancel n k who) s = .next (u.canResult n 3 code who) := by
  refine congrArg Host.Outcome.next ((canCommand_runs hAsks hServes hHas hDone hFirst _).trans ?_)
  rw [Nat.mod_eq_of_lt hk, h]

omit hk in
theorem exec_boffRecover : exec (.boffRecover n who) s = .next (if s.busOff n ∧ !s.flag (Fld.CAN_STAT_RECOVERING n) ∧
    s.flag (Fld.CAN_CTRL_EN n) ∧ Mode.commission ≤ s.mode then
      (((s.taken (Reg.CAN_CMD n)).setFlag (Fld.CAN_STAT_RECOVERING n) true).fire 0x0B n).canResult n 1 Code.ok who
    else (s.taken (Reg.CAN_CMD n)).canResult n 1 Code.wrongState who) :=
  congrArg Host.Outcome.next (canCommand_runs hAsks hServes hHas hDone hFirst _)

theorem txRequest_refused (hBad : s.txBadArg n k = true) :
    ∃ t, exec (.txRequest n k who) s = .next t ∧ (t.txObj n k).state = 5 ∧ CanAnswered t n 2 3 := by
  have hn := lt_16_of_hasCan hHas
  obtain ⟨hResult, hObj⟩ := canAnswered ((s.taken (Reg.CAN_CMD n)).endTx n k 5) hn who (cmd := 2) (code := Code.badArg) (by decide) (by decide)
  exact ⟨_, exec_txRequest hAsks hServes hHas hk hDone hFirst (if_pos hBad), by rw [hObj, (endTx_spec _ hn k 5).1], hResult⟩

theorem txRequest_taken (hIdle : (s.txObj n k).state = 0) (hGood : s.txBadArg n k = false) :
    ∃ t, exec (.txRequest n k who) s = .next t ∧ (t.txObj n k).state = 1 ∧ CanAnswered t n 2 0 := by
  have hn := lt_16_of_hasCan hHas
  have hBody : (s.taken (Reg.CAN_CMD n)).txRequest n k =
      (Code.ok, (s.taken (Reg.CAN_CMD n)).setTxObj n k { s.txObj n k with state := 1, attempts := 0 }) :=
    (if_neg (fun h => Bool.false_ne_true (hGood.symm.trans h))).trans (if_neg (by
      show ¬((s.txObj n k).state = 1 ∨ (s.txObj n k).state = 2)
      rw [hIdle]
      decide))
  obtain ⟨hResult, hObj⟩ := canAnswered ((s.taken (Reg.CAN_CMD n)).setTxObj n k { s.txObj n k with state := 1, attempts := 0 }) hn who
    (cmd := 2) (code := Code.ok) (by decide) (by decide)
  exact ⟨_, exec_txRequest hAsks hServes hHas hk hDone hFirst hBody, by rw [hObj, txObj_setTxObj], hResult⟩

theorem txRequest_pending (hPending : (s.txObj n k).state = 1) (hGood : s.txBadArg n k = false) :
    ∃ t, exec (.txRequest n k who) s = .next t ∧ t.cans = s.cans ∧ CanAnswered t n 2 5 := by
  have hn := lt_16_of_hasCan hHas
  have hBody : (s.taken (Reg.CAN_CMD n)).txRequest n k = (Code.wrongState, s.taken (Reg.CAN_CMD n)) :=
    (if_neg (fun h => Bool.false_ne_true (hGood.symm.trans h))).trans (if_pos (.inl hPending))
  obtain ⟨hResult, hTag, hDone', hCans, -⟩ := canResult_spec (s.taken (Reg.CAN_CMD n)) hn who (cmd := 2) (code := Code.wrongState) (by decide)
    (by decide)
  exact ⟨_, exec_txRequest hAsks hServes hHas hk hDone hFirst hBody, hCans, hResult, hTag, hDone'⟩

theorem txCancel_none (hIdle : (s.txObj n k).state = 0) :
    ∃ t, exec (.txCancel n k who) s = .next t ∧ t.cans = s.cans ∧ CanAnswered t n 3 5 := by
  have hn := lt_16_of_hasCan hHas
  have hNot (i : Nat) (hi : i ≠ 0) : ((s.taken (Reg.CAN_CMD n)).txObj n k).state ≠ i := fun h => hi (h.symm.trans hIdle)
  have hBody : (s.taken (Reg.CAN_CMD n)).txCancel n k = (Code.wrongState, s.taken (Reg.CAN_CMD n)) :=
    (if_neg (hNot 1 (by decide))).trans (if_neg (hNot 2 (by decide)))
  obtain ⟨hResult, hTag, hDone', hCans, -⟩ := canResult_spec (s.taken (Reg.CAN_CMD n)) hn who (cmd := 3) (code := Code.wrongState) (by decide)
    (by decide)
  exact ⟨_, exec_txCancel hAsks hServes hHas hk hDone hFirst hBody, hCans, hResult, hTag, hDone'⟩

theorem txCancel_pending (hPending : (s.txObj n k).state = 1) :
    ∃ t, exec (.txCancel n k who) s = .next t ∧ (t.txObj n k).state = 4 ∧ CanAnswered t n 3 0 := by
  have hn := lt_16_of_hasCan hHas
  obtain ⟨hResult, hObj⟩ := canAnswered ((s.taken (Reg.CAN_CMD n)).endTx n k 4) hn who (cmd := 3) (code := Code.ok) (by decide) (by decide)
  exact ⟨_, exec_txCancel hAsks hServes hHas hk hDone hFirst (if_pos hPending), by rw [hObj, (endTx_spec _ hn k 4).1], hResult⟩

theorem txCancel_active (hActive : (s.txObj n k).state = 2) :
    ∃ t, exec (.txCancel n k who) s = .next t ∧ (t.txObj n k).cancelReq = true ∧ (t.txObj n k).state = 2 ∧ CanAnswered t n 3 1 := by
  have hn := lt_16_of_hasCan hHas
  have hBody : (s.taken (Reg.CAN_CMD n)).txCancel n k =
      (Code.pending, (s.taken (Reg.CAN_CMD n)).setTxObj n k { s.txObj n k with cancelReq := true }) :=
    (if_neg (fun h => absurd (hActive.symm.trans h) (by decide))).trans (if_pos hActive)
  obtain ⟨hResult, hObj⟩ := canAnswered ((s.taken (Reg.CAN_CMD n)).setTxObj n k { s.txObj n k with cancelReq := true }) hn who
    (cmd := 3) (code := Code.pending) (by decide) (by decide)
  refine ⟨_, exec_txCancel hAsks hServes hHas hk hDone hFirst hBody, ?_, ?_, hResult⟩
  · rw [hObj, txObj_setTxObj]
  · rw [hObj, txObj_setTxObj]
    exact hActive

omit hk in
theorem boffRecover_starts (hOff : s.busOff n = true) (hIdle : s.flag (Fld.CAN_STAT_RECOVERING n) = false)
    (hEn : s.flag (Fld.CAN_CTRL_EN n) = true) (hMode : Mode.commission ≤ s.mode) :
    ∃ t, exec (.boffRecover n who) s = .next t ∧ t.flag (Fld.CAN_STAT_RECOVERING n) = true ∧ CanAnswered t n 1 0 := by
  have hn := lt_16_of_hasCan hHas
  refine ⟨_, (exec_boffRecover hAsks hServes hHas hDone hFirst).trans (congrArg Host.Outcome.next (if_pos ⟨hOff, by rw [hIdle]; rfl, hEn, hMode⟩)), ?_⟩
  have hFlag : ((s.taken (Reg.CAN_CMD n)).setFlag (Fld.CAN_STAT_RECOVERING n) true).flag (Fld.CAN_STAT_RECOVERING n) = true :=
    flag_setFlag_on _ _ rfl rfl
  generalize (s.taken (Reg.CAN_CMD n)).setFlag (Fld.CAN_STAT_RECOVERING n) true = u at hFlag
  obtain ⟨hlo, hhi⟩ := CansKept.stat_range hn
  have hFired : (u.fire 0x0B n).flag (Fld.CAN_STAT_RECOVERING n) = u.flag (Fld.CAN_STAT_RECOVERING n) :=
    flag_of_reg ((WindowsKept.fire u _ _).reg _ hlo hhi)
  generalize u.fire 0x0B n = v at hFired
  obtain ⟨hResult, hTag, hDone', -, hReg⟩ := canResult_spec v hn who (cmd := 1) (code := Code.ok) (by decide) (by decide)
  have hRec : (v.canResult n 1 Code.ok who).flag (Fld.CAN_STAT_RECOVERING n) = v.flag (Fld.CAN_STAT_RECOVERING n) :=
    flag_of_reg (hReg _ (by show Reg.CAN_STAT n ≠ Reg.CAN_CMD_RES n; unfold Reg.CAN_STAT Reg.CAN_CMD_RES; omega)
      (by show Reg.CAN_STAT n ≠ Reg.SYS_WRONG_STATE_CNT; unfold Reg.CAN_STAT Reg.SYS_WRONG_STATE_CNT; omega))
  exact ⟨hRec.trans (hFired.trans hFlag), hResult, hTag, hDone'⟩

omit hk in
theorem boffRecover_refused (hOn : s.busOff n = false) :
    ∃ t, exec (.boffRecover n who) s = .next t ∧ CanAnswered t n 1 5 ∧ t.cans = s.cans := by
  have hn := lt_16_of_hasCan hHas
  obtain ⟨hResult, hTag, hDone', hCans, -⟩ := canResult_spec (s.taken (Reg.CAN_CMD n)) hn who (cmd := 1) (code := Code.wrongState) (by decide)
    (by decide)
  exact ⟨_, (exec_boffRecover hAsks hServes hHas hDone hFirst).trans (congrArg Host.Outcome.next (if_neg fun h =>
    Bool.false_ne_true (hOn.symm.trans h.1))), ⟨hResult, hTag, hDone'⟩, hCans⟩

end

end Sys2Proof.Machine.State
end

section
/-!
PROOF. O46: what happens on a CAN controller's bus, and the obligation.
-/

namespace Sys2Proof.Machine.State

variable {s t u : State} {n k : Nat}

/-! ### Starts of frame -/

theorem txObj_setTxObj_ne (s : State) {j : Nat} (n : Nat) (x : TxObj) (h : j ≠ k) : (s.setTxObj n k x).txObj n j = s.txObj n j := by
  rw [txObj, setTxObj, can_setCan]
  exact Store.get_set_ne (s.can n).tx x h

theorem can_raiseLine_busy (h : s.syncLine k ≠ 0) (cross : State → State) : (s.raiseLine k cross).cans = s.cans ∧
    ∀ a, (s.raiseLine k cross).reg a = s.reg a := by
  unfold raiseLine
  rw [if_neg h]
  split <;> exact ⟨rfl, fun _ => rfl⟩

theorem startAttempt_some (hChosen : s.chosenObj n = some k) : (s.startAttempt n).txObj n k =
    { s.txObj n k with state := 2, first := false, attempts := satAdd 255 (s.txObj n k).attempts 1 } := by
  unfold startAttempt
  rw [hChosen]
  exact txObj_setTxObj ..

theorem startAttempt_kept (s : State) (n : Nat) : (∀ a, (s.startAttempt n).reg a = s.reg a) ∧ (s.startAttempt n).syncs = s.syncs := by
  unfold startAttempt
  split <;> exact ⟨fun _ => rfl, rfl⟩

/-- A start of frame counted, its attempt begun. -/
def sofCounted (s : State) (n : Nat) : State := (s.startAttempt n).countWrap (Fld.CAN_SOF_CNT_COUNT n)

theorem sofCounted_spec (s : State) (n : Nat) :
    (s.sofCounted n).fld (Fld.CAN_SOF_CNT_COUNT n) = (s.fld (Fld.CAN_SOF_CNT_COUNT n) + 1) % 65536 ∧
      (s.sofCounted n).reg (Reg.CAN_CFG n) = s.reg (Reg.CAN_CFG n) ∧ (s.sofCounted n).syncs = s.syncs ∧
      (s.chosenObj n = some k → ((s.sofCounted n).txObj n k).state = 2 ∧
        ((s.sofCounted n).txObj n k).attempts = min 255 ((s.txObj n k).attempts + 1)) := by
  obtain ⟨hReg, hSyncs⟩ := startAttempt_kept s n
  have hObj := startAttempt_some (s := s) (n := n) (k := k)
  have hCount : (s.startAttempt n).fld (Fld.CAN_SOF_CNT_COUNT n) = s.fld (Fld.CAN_SOF_CNT_COUNT n) := fld_of_reg (hReg _)
  unfold sofCounted countWrap
  generalize s.startAttempt n = u at hReg hSyncs hObj hCount
  refine ⟨?_, ?_, hSyncs, fun h => ?_⟩
  · rw [fld_setFld_on _ _ rfl, hCount]
    rfl
  · rw [reg_setFld_ne _ _ (by show Reg.CAN_CFG n ≠ Reg.CAN_SOF_CNT n; unfold Reg.CAN_CFG Reg.CAN_SOF_CNT; omega), hReg]
  · show (u.txObj n k).state = 2 ∧ (u.txObj n k).attempts = _
    rw [hObj h]
    exact ⟨rfl, rfl⟩

/-- The count noted in the object on the bus. -/
def sofNoted (s : State) (n : Nat) : State :=
  match s.activeObj n with
  | some t => s.setTxObj n t { s.txObj n t with sofCnt := s.fld (Fld.CAN_SOF_CNT_COUNT n) }
  | none => s

theorem sofNoted_spec (s : State) (n k : Nat) : (∀ a, (s.sofNoted n).reg a = s.reg a) ∧ (s.sofNoted n).syncs = s.syncs ∧
    ((s.sofNoted n).txObj n k).state = (s.txObj n k).state ∧ ((s.sofNoted n).txObj n k).attempts = (s.txObj n k).attempts := by
  unfold sofNoted
  split
  case h_1 j _ =>
    by_cases h : k = j
    · subst h
      rw [txObj_setTxObj]
      exact ⟨fun _ => rfl, rfl, rfl, rfl⟩
    · rw [txObj_setTxObj_ne _ _ _ h]
      exact ⟨fun _ => rfl, rfl, rfl, rfl⟩
  case h_2 => exact ⟨fun _ => rfl, rfl, rfl, rfl⟩

/-- The controller busy with the frame that starts. -/
def sofBusy (s : State) (n cnt : Nat) : State :=
  let x := s.can n
  s.setCan n { x with
    busy := true, stamp := none, stampLost := false, sofHeld := if s.syncLine (8 * 64 + n) = 1 then cnt else x.sofHeld }

theorem exec_canSof (hRun : s.inReset = false) (hClock : s.clockGone 4 = false) (hHas : s.variant.hasCan n = true) (hOp : 2 ≤ s.canOp n) :
    exec (.canSof n) s = .next ((((s.sofCounted n).sofNoted n).sofBusy n ((s.sofCounted n).fld (Fld.CAN_SOF_CNT_COUNT n))).raiseLine
      (512 + n) fun u => Sys2Proof.Machine.canSof u n 0 ((s.sofCounted n).fld (Fld.CAN_SOF_CNT_COUNT n))) :=
  congrArg Host.Outcome.next ((clocked_of_runs hRun hClock _).trans ((if_pos ⟨hHas, hOp⟩).trans rfl))

theorem sofBusy_spec (s : State) (n cnt : Nat) : ((s.sofBusy n cnt).can n).tx = (s.can n).tx ∧ ((s.sofBusy n cnt).can n).busy = true ∧
    (∀ a, (s.sofBusy n cnt).reg a = s.reg a) ∧ (s.sofBusy n cnt).syncs = s.syncs := by
  unfold sofBusy
  dsimp only
  refine ⟨?_, ?_, fun _ => rfl, rfl⟩ <;> rw [can_setCan]

/-- The crossing of a start of frame leaves the transmit objects. -/
theorem canSof_tx (s : State) (n held cnt : Nat) : ((Sys2Proof.Machine.canSof s n held cnt).can n).tx = (s.can n).tx := by
  have hFired : ((s.fire 0x08 n).can n).tx = (s.can n).tx := by rw [can_fire]
  unfold Sys2Proof.Machine.canSof
  dsimp only
  generalize s.fire 0x08 n = u at hFired
  split
  case h_1 d _ =>
    have hKeeps : Keeps [.now, .regs, .engines, .tb] u (u.tsqHardware d 8 n cnt (61 + held)).1 := .tsqHardware .refl rfl
    rw [can_setCan]
    exact (congrArg Can.tx (can_of_cans (hKeeps.frame .cans rfl) n)).trans hFired
  case h_2 =>
    rw [can_setCan]
    exact hFired

/-- Without a time-stamp queue the frame has no stamp. -/
theorem canSof_unstamped (hn : n < 16) (hOff : s.flag (Fld.CAN_CFG_STAMPQ n) = false) (held cnt : Nat) :
    Sys2Proof.Machine.canSof s n held cnt =
      (s.fire 0x08 n).setCan n { (s.fire 0x08 n).can n with stamp := none, stampLost := false } := by
  have hFired : (s.fire 0x08 n).flag (Fld.CAN_CFG_STAMPQ n) = false := by
    refine (flag_of_reg ((WindowsKept.fire s 0x08 n).reg _ ?_ ?_)).trans hOff
    · show 0x310000 ≤ Reg.CAN_CFG n
      unfold Reg.CAN_CFG
      omega
    · show Reg.CAN_CFG n < 0x1000000
      unfold Reg.CAN_CFG
      omega
  unfold Sys2Proof.Machine.canSof
  dsimp only
  rw [hFired, if_neg Bool.false_ne_true]

section
variable (hRun : s.inReset = false) (hClock : s.clockGone 4 = false) (hHas : s.variant.hasCan n = true) (hOp : 2 ≤ s.canOp n)
include hRun hClock hHas hOp

theorem canSof_crosses (hFree : s.syncLine (512 + n) = 0) (hStampq : s.flag (Fld.CAN_CFG_STAMPQ n) = false) :
    ∃ t, exec (.canSof n) s = .next t ∧ (t.can n).busy = true ∧ (t.can n).stamp = none ∧
      t.fld (Fld.CAN_SOF_CNT_COUNT n) = (s.fld (Fld.CAN_SOF_CNT_COUNT n) + 1) % 65536 := by
  have hn := lt_16_of_hasCan hHas
  refine ⟨_, exec_canSof hRun hClock hHas hOp, ?_⟩
  obtain ⟨hCount, hCfg, hSyncs, -⟩ := sofCounted_spec (k := 0) s n
  generalize s.sofCounted n = u at hCount hCfg hSyncs
  obtain ⟨hRegs, hSyncs', -, -⟩ := sofNoted_spec u n 0
  generalize u.sofNoted n = v at hRegs hSyncs'
  obtain ⟨-, hBusy, hRegs'', hSyncs''⟩ := sofBusy_spec v n (u.fld (Fld.CAN_SOF_CNT_COUNT n))
  generalize v.sofBusy n (u.fld (Fld.CAN_SOF_CNT_COUNT n)) = w at hBusy hRegs'' hSyncs''
  have hLine : w.syncLine (512 + n) = 0 := by rw [syncLine, hSyncs'', hSyncs', hSyncs, ← syncLine, hFree]
  have hReg (a : Nat) : (w.setSyncLine (512 + n) 1).reg a = u.reg a := by
    show w.reg a = u.reg a
    rw [hRegs'', hRegs]
  have hOff : (w.setSyncLine (512 + n) 1).flag (Fld.CAN_CFG_STAMPQ n) = false :=
    (flag_of_reg (f := Fld.CAN_CFG_STAMPQ n) ((hReg _).trans hCfg)).trans hStampq
  have hBusy' : ((w.setSyncLine (512 + n) 1).can n).busy = true := hBusy
  have hCount' : (w.setSyncLine (512 + n) 1).fld (Fld.CAN_SOF_CNT_COUNT n) = u.fld (Fld.CAN_SOF_CNT_COUNT n) := fld_of_reg (hReg _)
  rw [raiseLine_free (s := w) hLine]
  generalize w.setSyncLine (512 + n) 1 = x at hOff hBusy' hCount'
  rw [canSof_unstamped hn hOff]
  refine ⟨?_, ?_, ?_⟩
  · rw [can_setCan]
    show ((x.fire 0x08 n).can n).busy = true
    rw [can_fire, hBusy']
  · rw [can_setCan]
  · have hFired : (x.fire 0x08 n).fld (Fld.CAN_SOF_CNT_COUNT n) = x.fld (Fld.CAN_SOF_CNT_COUNT n) := by
      refine fld_of_reg ((WindowsKept.fire x 0x08 n).reg _ ?_ ?_)
      · show 0x310000 ≤ Reg.CAN_SOF_CNT n
        unfold Reg.CAN_SOF_CNT
        omega
      · show Reg.CAN_SOF_CNT n < 0x1000000
        unfold Reg.CAN_SOF_CNT
        omega
    exact hFired.trans (hCount'.trans hCount)

theorem canSof_held (hHeld : s.syncLine (512 + n) ≠ 0) :
    ∃ t, exec (.canSof n) s = .next t ∧ t.fld (Fld.CAN_SOF_CNT_COUNT n) = (s.fld (Fld.CAN_SOF_CNT_COUNT n) + 1) % 65536 := by
  refine ⟨_, exec_canSof hRun hClock hHas hOp, ?_⟩
  obtain ⟨hCount, -, hSyncs, -⟩ := sofCounted_spec (k := 0) s n
  generalize s.sofCounted n = u at hCount hSyncs
  obtain ⟨hRegs, hSyncs', -, -⟩ := sofNoted_spec u n 0
  generalize u.sofNoted n = v at hRegs hSyncs'
  obtain ⟨-, -, hRegs'', hSyncs''⟩ := sofBusy_spec v n (u.fld (Fld.CAN_SOF_CNT_COUNT n))
  generalize v.sofBusy n (u.fld (Fld.CAN_SOF_CNT_COUNT n)) = w at hRegs'' hSyncs''
  have hLine : w.syncLine (512 + n) ≠ 0 := by rwa [syncLine, hSyncs'', hSyncs', hSyncs, ← syncLine]
  obtain ⟨-, hRaised⟩ := can_raiseLine_busy hLine fun x => Sys2Proof.Machine.canSof x n 0 (u.fld (Fld.CAN_SOF_CNT_COUNT n))
  have hReg (a : Nat) : (w.raiseLine (512 + n) fun x => Sys2Proof.Machine.canSof x n 0 (u.fld (Fld.CAN_SOF_CNT_COUNT n))).reg a = u.reg a := by
    rw [hRaised, hRegs'', hRegs]
  exact (fld_of_reg (f := Fld.CAN_SOF_CNT_COUNT n) (hReg _)).trans hCount

theorem canSof_starts (hChosen : s.chosenObj n = some k) :
    ∃ t, exec (.canSof n) s = .next t ∧ (t.txObj n k).state = 2 ∧ (t.txObj n k).attempts = min 255 ((s.txObj n k).attempts + 1) := by
  refine ⟨_, exec_canSof hRun hClock hHas hOp, ?_⟩
  obtain ⟨-, -, -, hObj⟩ := sofCounted_spec (k := k) s n
  generalize s.sofCounted n = u at hObj
  obtain ⟨-, -, hState, hAttempts⟩ := sofNoted_spec u n k
  generalize u.sofNoted n = v at hState hAttempts
  obtain ⟨hTx, -, -, -⟩ := sofBusy_spec v n (u.fld (Fld.CAN_SOF_CNT_COUNT n))
  generalize v.sofBusy n (u.fld (Fld.CAN_SOF_CNT_COUNT n)) = w at hTx
  have hRaised : ((w.raiseLine (512 + n) fun x => Sys2Proof.Machine.canSof x n 0 (u.fld (Fld.CAN_SOF_CNT_COUNT n))).can n).tx = (w.can n).tx := by
    by_cases hFree : w.syncLine (512 + n) = 0
    · rw [raiseLine_free (s := w) hFree]
      exact (canSof_tx (w.setSyncLine (512 + n) 1) n 0 _).trans rfl
    · rw [can_of_cans (can_raiseLine_busy hFree _).1]
  have hSame := txObj_congr (hRaised.trans hTx) k
  obtain ⟨hTwo, hUp⟩ := hObj hChosen
  rw [hSame]
  exact ⟨hState.trans hTwo, hAttempts.trans hUp⟩

end

/-! ### Attempts -/

theorem measureTdc_spec (s : State) (n k : Nat) (tdc : Option Nat) : (s.measureTdc n k tdc).cans = s.cans ∧
    (∀ a, a ≠ Reg.CAN_TDC_STAT n → (s.measureTdc n k tdc).reg a = s.reg a) ∧
    (tdc = none → s.measureTdc n k tdc = s) ∧
    (∀ d, tdc = some d → (s.txObjWord n k 1).getLsbD 31 = true → (s.txObjWord n k 2).getLsbD 4 = true →
      s.flag (Fld.CAN_DBT_TDC_EN n) = true → (s.measureTdc n k tdc).fld (Fld.CAN_TDC_STAT_TDCV n) = min 63 d) := by
  cases tdc with
  | none => exact ⟨rfl, fun _ _ => rfl, fun _ => rfl, fun _ h => absurd h (by exact nofun)⟩
  | some d =>
    unfold measureTdc
    dsimp only
    refine ⟨?_, fun a ha => ?_, fun h => absurd h (by exact nofun), fun d' h hFdf hBrs hEn => ?_⟩
    · split <;> rfl
    · split
      · exact reg_setFld_ne _ _ ha
      · rfl
    · cases h
      rw [if_pos ⟨hFdf, hBrs, hEn⟩, fld_setFld_on _ _ rfl]
      exact Nat.mod_eq_of_lt (show min 63 d < 64 by omega)

theorem goodTx_spec (s : State) (hn : n < 16) : (s.goodTx n).can n = s.can n ∧ (s.goodTx n).out = s.out ∧
    (s.goodTx n).reg (Reg.CAN_TDC_STAT n) = s.reg (Reg.CAN_TDC_STAT n) := by
  unfold goodTx
  split
  · refine ⟨can_setErr .., out_setErr .., ?_⟩
    exact reg_setErr_ne _ _ (by unfold Reg.CAN_TDC_STAT Reg.CAN_ECNT; omega) (by unfold Reg.CAN_TDC_STAT Reg.CAN_STAT; omega)
      (by unfold Reg.CAN_TDC_STAT Reg.CAN_CNT1; omega) (canReg_ne_merge (by unfold Reg.CAN_TDC_STAT; omega))
  · exact ⟨rfl, rfl, rfl⟩

/-- The frame that an object sends. -/
def txFrameWords (s : State) (n k : Nat) : List Word :=
  [1, 2, 4, 5, 6, 7, 8, 9, 10, 11, 12, 13, 14, 15, 16, 17, 18, 19].map fun w => s.txObjWord n k w

/-- A success that ends object `k`. -/
def txDone (s : State) (n k : Nat) (tdc : Option Nat) : State :=
  ((((s.measureTdc n k tdc).endTx n k 3).count (Fld.CAN_CNT0_TX_OK n)).emit (.canFrame n ((s.measureTdc n k tdc).txFrameWords n k))).goodTx n

theorem tdcReg_range (hn : n < 16) : 0x500000 ≤ Reg.CAN_TDC_STAT n ∧ Reg.CAN_TDC_STAT n < 0x510000 ∧
    Reg.CAN_TDC_STAT n ≠ Reg.CAN_STAT n ∧ Reg.CAN_TDC_STAT n ≠ Reg.CAN_CNT0 n := by
  unfold Reg.CAN_TDC_STAT Reg.CAN_STAT Reg.CAN_CNT0
  omega

theorem txDone_spec (s : State) (hn : n < 16) (k : Nat) (tdc : Option Nat) : ((s.txDone n k tdc).txObj n k).state = 3 ∧
    Out.canFrame n ((s.measureTdc n k tdc).txFrameWords n k) ∈ (s.txDone n k tdc).out ∧
    (s.txDone n k tdc).reg (Reg.CAN_TDC_STAT n) = (s.measureTdc n k tdc).reg (Reg.CAN_TDC_STAT n) := by
  unfold txDone
  generalize s.measureTdc n k tdc = u
  obtain ⟨hState, hKept⟩ := endTx_spec u hn k 3
  generalize u.endTx n k 3 = v at hState hKept
  obtain ⟨hlo, hhi, hStat, hCnt⟩ := tdcReg_range hn
  have hSent : ((v.count (Fld.CAN_CNT0_TX_OK n)).emit (.canFrame n (u.txFrameWords n k))).reg (Reg.CAN_TDC_STAT n) = u.reg (Reg.CAN_TDC_STAT n) :=
    (reg_count_ne _ _ hCnt).trans (hKept.reg _ hlo hhi hStat)
  have hObj : (((v.count (Fld.CAN_CNT0_TX_OK n)).emit (.canFrame n (u.txFrameWords n k))).txObj n k).state = 3 := hState
  have hOut : Out.canFrame n (u.txFrameWords n k) ∈ ((v.count (Fld.CAN_CNT0_TX_OK n)).emit (.canFrame n (u.txFrameWords n k))).out :=
    List.mem_cons_self
  generalize (v.count (Fld.CAN_CNT0_TX_OK n)).emit (.canFrame n (u.txFrameWords n k)) = w at hSent hObj hOut
  obtain ⟨hCan, hOut', hTdc⟩ := goodTx_spec w hn
  rw [txObj_congr (congrArg Can.tx hCan), hOut', hTdc]
  exact ⟨hObj, hOut, hSent⟩

section
variable (hRun : s.inReset = false) (hClock : s.clockGone 4 = false) (hActive : s.activeObj n = some k)
include hRun hClock hActive

theorem exec_attemptSuccess (tdc : Option Nat) : exec (.attemptEnd n .success tdc) s = .next ((s.txDone n k tdc).frameEnd n true) := by
  refine congrArg Host.Outcome.next ((clocked_of_runs hRun hClock _).trans ?_)
  rw [hActive]
  rfl

theorem exec_attemptLost (tdc : Option Nat) : exec (.attemptEnd n .lost tdc) s = .next (s.failAttempt n k false) := by
  refine congrArg Host.Outcome.next ((clocked_of_runs hRun hClock _).trans ?_)
  rw [hActive]
  rfl

theorem exec_attemptError (tdc : Option Nat) : exec (.attemptEnd n .error tdc) s =
    .next (((s.measureTdc n k tdc).failAttempt n k false).frameEnd n true) := by
  refine congrArg Host.Outcome.next ((clocked_of_runs hRun hClock _).trans ?_)
  rw [hActive]
  rfl

theorem attemptEnd_success (hn : n < 16) (tdc : Option Nat) (d : Nat) :
    ∃ t ws, exec (.attemptEnd n .success tdc) s = .next t ∧ (t.txObj n k).state = 3 ∧ Out.canFrame n ws ∈ t.out ∧
      (t.can n).busy = false ∧
      (tdc = none → t.fld (Fld.CAN_TDC_STAT_TDCV n) = s.fld (Fld.CAN_TDC_STAT_TDCV n)) ∧
      (tdc = some d → (s.txObjWord n k 1).getLsbD 31 = true → (s.txObjWord n k 2).getLsbD 4 = true →
        s.flag (Fld.CAN_DBT_TDC_EN n) = true → t.fld (Fld.CAN_TDC_STAT_TDCV n) = min 63 d) := by
  refine ⟨_, (s.measureTdc n k tdc).txFrameWords n k, exec_attemptSuccess hRun hClock hActive tdc, ?_⟩
  obtain ⟨hState, hOut, hTdc⟩ := txDone_spec s hn k tdc
  generalize s.txDone n k tdc = u at hState hOut hTdc
  obtain ⟨hKept, hTx, hBusy⟩ := frameEnd_kept u hn true
  obtain ⟨hlo, hhi, hStat, -⟩ := tdcReg_range hn
  have hEnd : (u.frameEnd n true).fld (Fld.CAN_TDC_STAT_TDCV n) = (s.measureTdc n k tdc).fld (Fld.CAN_TDC_STAT_TDCV n) :=
    fld_of_reg ((hKept.reg _ hlo hhi hStat).trans hTdc)
  obtain ⟨-, -, hNone, hSome⟩ := measureTdc_spec s n k tdc
  refine ⟨by rw [txObj_congr hTx, hState], hKept.out hOut, hBusy, fun h => hEnd.trans (by rw [hNone h]), fun h hFdf hBrs hEn =>
    hEnd.trans (hSome d h hFdf hBrs hEn)⟩

theorem attemptEnd_lost (hn : n < 16) (tdc : Option Nat) : ∃ t, exec (.attemptEnd n .lost tdc) s = .next t ∧ (t.txObj n k).state =
    (if (s.txObj n k).cancelReq then 4 else if (s.txObjWord n k 2).getLsbD 5 then 5 else 1) :=
  ⟨_, exec_attemptLost hRun hClock hActive tdc, (failAttempt_spec s hn k false).1⟩

theorem attemptEnd_error (hn : n < 16) (tdc : Option Nat) : ∃ t, exec (.attemptEnd n .error tdc) s = .next t ∧ (t.txObj n k).state =
    (if (s.txObj n k).cancelReq then 4 else if (s.txObjWord n k 2).getLsbD 5 then 5 else 1) ∧ (t.can n).busy = false := by
  refine ⟨_, exec_attemptError hRun hClock hActive tdc, ?_⟩
  obtain ⟨hCans, -, -, -⟩ := measureTdc_spec s n k tdc
  have hObj : (s.measureTdc n k tdc).txObj n k = s.txObj n k := txObj_congr (congrArg Can.tx (can_of_cans hCans n)) k
  obtain ⟨hState, -⟩ := failAttempt_spec (s.measureTdc n k tdc) hn k false
  rw [txObjWord_congr hObj, hObj] at hState
  obtain ⟨-, hTx, hBusy⟩ := frameEnd_kept ((s.measureTdc n k tdc).failAttempt n k false) hn true
  exact ⟨by rw [txObj_congr hTx, hState], hBusy⟩

end

/-! ### Bus errors -/

/-- A CRC error signalled and logged. -/
def crcLogged (s : State) (n : Nat) (dir : Bool) : State :=
  ((((if s.canOp n = 3 then s.emit (.canErrorFrame n) else s).setFld (Fld.CAN_ERRLOG_CODE n) 6).setFlag (Fld.CAN_ERRLOG_PHASE n) true).setFlag
    (Fld.CAN_ERRLOG_DIR n) dir).count (Fld.CAN_ERRLOG_COUNT n)

/-- The step of the error counters. -/
def errStepped (s : State) (n : Nat) (active : Option Nat) (more : Nat) : State :=
  if s.canOp n ≠ 3 then s
  else if active.isSome then s.setErr n (min 511 (s.fld (Fld.CAN_ECNT_TEC n) + 8 + 8 * more)) (s.fld (Fld.CAN_ECNT_REC n))
  else s.setErr n (s.fld (Fld.CAN_ECNT_TEC n)) (min 255 (s.fld (Fld.CAN_ECNT_REC n) + 1 + 8 * more))

/-- What an error makes of the frame on the bus. -/
def errEnded (s : State) (n : Nat) (active : Option Nat) : State :=
  match active with
  | some t => if s.busOff n then (s.failAttempt n t true).frameEnd n false else s
  | none => s.frameEnd n false

/-- The loop delay of a frame the controller sends. -/
def errMeasured (s : State) (n : Nat) (tdc : Option Nat) : State :=
  match s.activeObj n with
  | some t => s.measureTdc n t tdc
  | none => s

theorem errMeasured_spec (s : State) (n : Nat) (tdc : Option Nat) : ∀ a, a ≠ Reg.CAN_TDC_STAT n → (s.errMeasured n tdc).reg a = s.reg a := by
  unfold errMeasured
  split
  case h_1 j _ => exact (measureTdc_spec s n j tdc).2.1
  case h_2 => exact fun _ _ => rfl

theorem crcLogged_spec (s : State) (n : Nat) (dir : Bool) : (s.crcLogged n dir).fld (Fld.CAN_ERRLOG_CODE n) = 6 ∧
    (s.crcLogged n dir).flag (Fld.CAN_ERRLOG_PHASE n) = true ∧ (s.crcLogged n dir).flag (Fld.CAN_ERRLOG_DIR n) = dir ∧
    ∀ a, a ≠ Reg.CAN_ERRLOG n → (s.crcLogged n dir).reg a = s.reg a := by
  have hEmit (a : Nat) : (if s.canOp n = 3 then s.emit (.canErrorFrame n) else s).reg a = s.reg a := by
    split <;> rfl
  unfold crcLogged
  generalize (if s.canOp n = 3 then s.emit (.canErrorFrame n) else s) = u at hEmit
  refine ⟨?_, ?_, ?_, fun a ha => ?_⟩
  · rw [fld_count_off _ _ rfl, fld_setFlag_off _ _ rfl, fld_setFlag_off _ _ rfl, fld_setFld_on _ _ rfl]
    rfl
  · rw [flag_count_off _ _ rfl, flag_setFlag_off _ _ rfl, flag_setFlag_on _ _ rfl rfl]
  · rw [flag_count_off _ _ rfl, flag_setFlag_on _ _ rfl rfl]
  · rw [reg_count_ne _ _ ha, reg_setFlag_ne _ _ ha, reg_setFlag_ne _ _ ha, reg_setFld_ne _ _ ha, hEmit]

theorem errStepped_errlog (s : State) (hn : n < 16) (active : Option Nat) (more : Nat) :
    (s.errStepped n active more).reg (Reg.CAN_ERRLOG n) = s.reg (Reg.CAN_ERRLOG n) := by
  have hErr (tec rec' : Nat) : (s.setErr n tec rec').reg (Reg.CAN_ERRLOG n) = s.reg (Reg.CAN_ERRLOG n) :=
    reg_setErr_ne _ _ (by unfold Reg.CAN_ERRLOG Reg.CAN_ECNT; omega) (by unfold Reg.CAN_ERRLOG Reg.CAN_STAT; omega)
      (by unfold Reg.CAN_ERRLOG Reg.CAN_CNT1; omega) (canReg_ne_merge (by unfold Reg.CAN_ERRLOG; omega))
  unfold errStepped
  split
  · rfl
  · split
    · exact hErr _ _
    · exact hErr _ _

theorem errStepped_spec (hn : n < 16) (hOp : s.canOp n = 3) (hBus : s.busOff n = false) (more : Nat) :
    (∀ j, (s.errStepped n (some j) more).fld (Fld.CAN_ECNT_TEC n) = min 511 (s.fld (Fld.CAN_ECNT_TEC n) + 8 + 8 * more) ∧
      (s.errStepped n (some j) more).fld (Fld.CAN_ECNT_REC n) = s.fld (Fld.CAN_ECNT_REC n) ∧
      (255 < s.fld (Fld.CAN_ECNT_TEC n) + 8 + 8 * more → (s.errStepped n (some j) more).fld (Fld.CAN_STAT_CONF n) = 2)) ∧
    (s.errStepped n none more).fld (Fld.CAN_ECNT_TEC n) = s.fld (Fld.CAN_ECNT_TEC n) ∧
    (s.errStepped n none more).fld (Fld.CAN_ECNT_REC n) = min 255 (s.fld (Fld.CAN_ECNT_REC n) + 1 + 8 * more) := by
  have hTec : s.fld (Fld.CAN_ECNT_TEC n) < 512 := fieldGet_lt _ _ 9
  have hRec : s.fld (Fld.CAN_ECNT_REC n) < 256 := fieldGet_lt _ _ 8
  have hIn : ¬s.canOp n ≠ 3 := fun h => h hOp
  refine ⟨fun j => ?_, ?_⟩
  · have hStep : s.errStepped n (some j) more =
        s.setErr n (min 511 (s.fld (Fld.CAN_ECNT_TEC n) + 8 + 8 * more)) (s.fld (Fld.CAN_ECNT_REC n)) := (if_neg hIn).trans (if_pos rfl)
    obtain ⟨hT, hR, hC⟩ := setErr_spec s hn (tec := min 511 (s.fld (Fld.CAN_ECNT_TEC n) + 8 + 8 * more)) (rec' := s.fld (Fld.CAN_ECNT_REC n))
      (by omega) hRec
    rw [hStep]
    refine ⟨hT, hR, fun h => hC.trans ?_⟩
    rw [errConf, hBus, if_neg Bool.false_ne_true, if_pos (by omega)]
  · have hStep : s.errStepped n none more =
        s.setErr n (s.fld (Fld.CAN_ECNT_TEC n)) (min 255 (s.fld (Fld.CAN_ECNT_REC n) + 1 + 8 * more)) :=
      (if_neg hIn).trans (if_neg Bool.false_ne_true)
    obtain ⟨hT, hR, -⟩ := setErr_spec s hn (tec := s.fld (Fld.CAN_ECNT_TEC n)) (rec' := min 255 (s.fld (Fld.CAN_ECNT_REC n) + 1 + 8 * more))
      hTec (by omega)
    rw [hStep]
    exact ⟨hT, hR⟩

theorem errEnded_kept (s : State) (hn : n < 16) (active : Option Nat) : CansKept n s (s.errEnded n active) := by
  unfold errEnded
  split
  · exact .ite ((failAttempt_spec s hn _ true).2.trans (frameEnd_kept _ hn false).1) .refl
  · exact (frameEnd_kept s hn false).1

section
variable (hRun : s.inReset = false) (hClock : s.clockGone 4 = false) (hHas : s.variant.hasCan n = true) (hOp : 2 ≤ s.canOp n)
  (hBus : s.busOff n = false)
include hRun hClock hHas hOp hBus

theorem busError_excepted (hExcepted : (s.can n).excepted = true) (err : CanError) (spot : ErrorSpot) (exempt : Bool) (more : Nat) :
    exec (.busError n err spot exempt more) s = .next s := by
  refine congrArg Host.Outcome.next ((clocked_of_runs hRun hClock _).trans ?_)
  rw [hBus, if_neg Bool.false_ne_true, if_neg]
  rw [hExcepted]
  exact fun h => Bool.false_ne_true h.2.2

theorem exec_busError_crc (hIn : (s.can n).excepted = false) (tdc : Option Nat) (point more : Nat) :
    exec (.busError n .crc ⟨true, tdc, point⟩ false more) s =
      .next ((((s.errMeasured n tdc).crcLogged n (s.activeObj n).isSome).errStepped n (s.activeObj n) more).errEnded n (s.activeObj n)) := by
  refine congrArg Host.Outcome.next ((clocked_of_runs hRun hClock _).trans ?_)
  rw [hBus, if_neg Bool.false_ne_true, if_pos ⟨hHas, hOp, by rw [hIn]; rfl⟩]
  exact (if_neg fun h => absurd h.1 (by decide)).trans (if_neg (by exact Bool.false_ne_true))

theorem busError_unchecked (hIn : (s.can n).excepted = false) {point : Nat} (hActive : s.activeObj n = some k) (hPoint : point ≠ s.checkPoint n)
    (more : Nat) : exec (.busError n .bitDominant ⟨true, none, point⟩ false more) s = .next s := by
  refine congrArg Host.Outcome.next ((clocked_of_runs hRun hClock _).trans ?_)
  rw [hBus, if_neg Bool.false_ne_true, if_pos ⟨hHas, hOp, by rw [hIn]; rfl⟩, hActive]
  refine (if_neg fun h => absurd h.1 (by decide)).trans (if_pos ?_)
  show s.unchecked n .bitDominant true point = true
  rw [unchecked, hActive, bne_iff_ne.mpr hPoint]
  rfl

theorem busError_excepts (hIn : (s.can n).excepted = false) (hPxe : s.flag (Fld.CAN_CFG_PXE n) = true) (hIdle : s.activeObj n = none)
    (tdc : Option Nat) (point more : Nat) :
    ∃ t, exec (.busError n .formatBit ⟨false, tdc, point⟩ false more) s = .next t ∧ (t.can n).excepted = true ∧
      t.fld (Fld.CAN_CNT1_PEX n) = min 255 (s.fld (Fld.CAN_CNT1_PEX n) + 1) ∧ t.fld (Fld.CAN_ECNT_TEC n) = s.fld (Fld.CAN_ECNT_TEC n) := by
  refine ⟨(s.count (Fld.CAN_CNT1_PEX n)).setCan n { (s.count (Fld.CAN_CNT1_PEX n)).can n with busy := true, excepted := true },
    congrArg Host.Outcome.next ((clocked_of_runs hRun hClock _).trans ?_), ?_, ?_, ?_⟩
  · rw [hBus, if_neg Bool.false_ne_true, if_pos ⟨hHas, hOp, by rw [hIn]; rfl⟩, hIdle]
    exact if_pos ⟨rfl, hPxe, rfl⟩
  · rw [can_setCan]
  · exact fld_count_on s 1 rfl
  · exact fld_of_reg (reg_count_ne s 1 (by show Reg.CAN_ECNT n ≠ Reg.CAN_CNT1 n; unfold Reg.CAN_ECNT Reg.CAN_CNT1; omega))

theorem busError_crc (hIn : (s.can n).excepted = false) (tdc : Option Nat) (point more : Nat) :
    ∃ t, exec (.busError n .crc ⟨true, tdc, point⟩ false more) s = .next t ∧ t.fld (Fld.CAN_ERRLOG_CODE n) = 6 ∧
      t.flag (Fld.CAN_ERRLOG_PHASE n) = true ∧ t.flag (Fld.CAN_ERRLOG_DIR n) = (s.activeObj n).isSome ∧
      (s.canOp n = 3 → s.activeObj n = some k → t.fld (Fld.CAN_ECNT_TEC n) = min 511 (s.fld (Fld.CAN_ECNT_TEC n) + 8 + 8 * more) ∧
        t.fld (Fld.CAN_ECNT_REC n) = s.fld (Fld.CAN_ECNT_REC n) ∧ (255 < s.fld (Fld.CAN_ECNT_TEC n) + 8 + 8 * more → t.busOff n = true)) ∧
      (s.canOp n = 3 → s.activeObj n = none → t.fld (Fld.CAN_ECNT_TEC n) = s.fld (Fld.CAN_ECNT_TEC n) ∧
        t.fld (Fld.CAN_ECNT_REC n) = min 255 (s.fld (Fld.CAN_ECNT_REC n) + 1 + 8 * more)) := by
  have hn := lt_16_of_hasCan hHas
  refine ⟨_, exec_busError_crc hRun hClock hHas hOp hBus hIn tdc point more, ?_⟩
  have hMeasured := errMeasured_spec s n tdc
  generalize s.errMeasured n tdc = u at hMeasured
  obtain ⟨hCode, hPhase, hDir, hLogged⟩ := crcLogged_spec u n (s.activeObj n).isSome
  generalize u.crcLogged n (s.activeObj n).isSome = v at hCode hPhase hDir hLogged
  have hStat : v.reg (Reg.CAN_STAT n) = s.reg (Reg.CAN_STAT n) :=
    (hLogged _ (by unfold Reg.CAN_STAT Reg.CAN_ERRLOG; omega)).trans (hMeasured _ (by unfold Reg.CAN_STAT Reg.CAN_TDC_STAT; omega))
  have hEcnt : v.reg (Reg.CAN_ECNT n) = s.reg (Reg.CAN_ECNT n) :=
    (hLogged _ (by unfold Reg.CAN_ECNT Reg.CAN_ERRLOG; omega)).trans (hMeasured _ (by unfold Reg.CAN_ECNT Reg.CAN_TDC_STAT; omega))
  have hOp' : v.canOp n = s.canOp n := fld_of_reg (f := Fld.CAN_STAT_OPSTATE n) hStat
  have hBus' : v.busOff n = false := by
    rw [busOff, fld_of_reg (f := Fld.CAN_STAT_CONF n) hStat]
    exact hBus
  have hTec : v.fld (Fld.CAN_ECNT_TEC n) = s.fld (Fld.CAN_ECNT_TEC n) := fld_of_reg hEcnt
  have hRec : v.fld (Fld.CAN_ECNT_REC n) = s.fld (Fld.CAN_ECNT_REC n) := fld_of_reg hEcnt
  have hLog := errStepped_errlog v hn (s.activeObj n) more
  have hCounters (hNormal : s.canOp n = 3) := errStepped_spec hn (hOp'.trans hNormal) hBus' more
  have hEnd := errEnded_kept (v.errStepped n (s.activeObj n) more) hn (s.activeObj n)
  have hLog' : ((v.errStepped n (s.activeObj n) more).errEnded n (s.activeObj n)).reg (Reg.CAN_ERRLOG n) = v.reg (Reg.CAN_ERRLOG n) :=
    (hEnd.reg _ (by unfold Reg.CAN_ERRLOG; omega) (by unfold Reg.CAN_ERRLOG; omega) (by unfold Reg.CAN_ERRLOG Reg.CAN_STAT; omega)).trans hLog
  have hEcnt' := hEnd.reg (Reg.CAN_ECNT n) (by unfold Reg.CAN_ECNT; omega) (by unfold Reg.CAN_ECNT; omega)
    (by unfold Reg.CAN_ECNT Reg.CAN_STAT; omega)
  have hTecEnd : ((v.errStepped n (s.activeObj n) more).errEnded n (s.activeObj n)).fld (Fld.CAN_ECNT_TEC n) =
    (v.errStepped n (s.activeObj n) more).fld (Fld.CAN_ECNT_TEC n) := fld_of_reg hEcnt'
  have hRecEnd : ((v.errStepped n (s.activeObj n) more).errEnded n (s.activeObj n)).fld (Fld.CAN_ECNT_REC n) =
    (v.errStepped n (s.activeObj n) more).fld (Fld.CAN_ECNT_REC n) := fld_of_reg hEcnt'
  refine ⟨(fld_of_reg (f := Fld.CAN_ERRLOG_CODE n) hLog').trans hCode, (flag_of_reg (f := Fld.CAN_ERRLOG_PHASE n) hLog').trans hPhase,
    (flag_of_reg (f := Fld.CAN_ERRLOG_DIR n) hLog').trans hDir, fun hNormal hActive => ?_, fun hNormal hIdle => ?_⟩
  · obtain ⟨hSome, -⟩ := hCounters hNormal
    obtain ⟨hT, hR, hC⟩ := hSome k
    rw [hTec] at hT hC
    rw [hRec] at hR
    refine ⟨hTecEnd.trans (by rw [hActive]; exact hT), hRecEnd.trans (by rw [hActive]; exact hR), fun h => ?_⟩
    rw [busOff, hEnd.conf, hActive, hC h]
    rfl
  · obtain ⟨-, hT, hR⟩ := hCounters hNormal
    rw [hTec] at hT
    rw [hRec] at hR
    exact ⟨hTecEnd.trans (by rw [hIdle]; exact hT), hRecEnd.trans (by rw [hIdle]; exact hR)⟩

end

/-! ### Recovery -/

/-- The counters and the state after the 128th occurrence. -/
def recovered (s : State) (n : Nat) : State :=
  ((((s.setFlag (Fld.CAN_STAT_RECOVERING n) false).setFld (Fld.CAN_STAT_CONF n) 0).setFlag (Fld.CAN_STAT_WARN n) false).setFld
    (Fld.CAN_ECNT_TEC n) 0).setFld (Fld.CAN_ECNT_REC n) 0

theorem recovered_spec (s : State) (n : Nat) : (s.recovered n).flag (Fld.CAN_STAT_RECOVERING n) = false ∧
    (s.recovered n).fld (Fld.CAN_STAT_CONF n) = 0 ∧ (s.recovered n).fld (Fld.CAN_ECNT_TEC n) = 0 ∧
    (s.recovered n).fld (Fld.CAN_ECNT_REC n) = 0 := by
  have hNe : Reg.CAN_ECNT n ≠ Reg.CAN_STAT n := by unfold Reg.CAN_ECNT Reg.CAN_STAT; omega
  unfold recovered
  refine ⟨?_, ?_, ?_, ?_⟩
  · rw [flag_setFld_apart _ _ (.inl hNe), flag_setFld_apart _ _ (.inl hNe), flag_setFlag_off _ _ rfl, flag_setFld_off _ _ rfl,
      flag_setFlag_on _ _ rfl rfl]
  · rw [fld_setFld_apart _ _ (.inl hNe), fld_setFld_apart _ _ (.inl hNe), fld_setFlag_off _ _ rfl, fld_setFld_on _ _ rfl]
    rfl
  · rw [fld_setFld_off _ _ rfl, fld_setFld_on _ _ rfl]
    rfl
  · rw [fld_setFld_on _ _ rfl]
    rfl

theorem recoveryDone_ends (hRun : s.inReset = false) (hClock : s.clockGone 4 = false) (hn : n < 16)
    (hRec : s.flag (Fld.CAN_STAT_RECOVERING n) = true) :
    ∃ t, exec (.recoveryDone n) s = .next t ∧ t.flag (Fld.CAN_STAT_RECOVERING n) = false ∧ t.fld (Fld.CAN_STAT_CONF n) = 0 ∧
      t.fld (Fld.CAN_ECNT_TEC n) = 0 ∧ t.fld (Fld.CAN_ECNT_REC n) = 0 := by
  refine ⟨((s.recovered n).fire 0x0B n).busIdle n,
    congrArg Host.Outcome.next ((clocked_of_runs hRun hClock _).trans ((if_pos hRec).trans rfl)), ?_⟩
  obtain ⟨hFlag, hConf, hTec, hRec'⟩ := recovered_spec s n
  generalize s.recovered n = u at hFlag hConf hTec hRec'
  have hKept := (CansKept.fire u hn 0x0B n).trans (busIdle_kept (u.fire 0x0B n) hn).1
  have hEcnt := hKept.reg (Reg.CAN_ECNT n) (by unfold Reg.CAN_ECNT; omega) (by unfold Reg.CAN_ECNT; omega)
    (by unfold Reg.CAN_ECNT Reg.CAN_STAT; omega)
  exact ⟨hKept.settled hFlag, hKept.conf.trans hConf, (fld_of_reg (f := Fld.CAN_ECNT_TEC n) hEcnt).trans hTec,
    (fld_of_reg (f := Fld.CAN_ECNT_REC n) hEcnt).trans hRec'⟩

end Sys2Proof.Machine.State
end

section
/-!
PROOF. O46: the rest of a CAN controller's commands, and the obligation.
-/

namespace Sys2Proof.Machine.State

variable {s t : State} {n k : Nat} {who : Ident} {v : Word}

theorem exec_canRxid (hAsks : s.asks who = true) (hServes : s.serves who = true) (hHas : s.variant.hasCan n = true) (hk : k < 32) :
    exec (.canRxid n k v who) s = .next (if !v.getLsbD 29 ∧ fieldGet v 11 18 ≠ 0 then s.setFlag (Fld.CAN_STAT_CFG_ERR n) true
      else (s.setReg (Reg.CAN_RXID n k) v).setRxObj n k { s.rxObj n k with new := false, lost := false, pend := none }) := by
  have hMod : k % 256 = k := Nat.mod_eq_of_lt (by omega)
  refine congrArg Host.Outcome.next ((served_of_serves hServes _).trans ((if_pos hHas).trans ?_))
  dsimp only
  rw [hMod]
  exact unitWrite_of_asks hAsks _ n _ _

theorem canRxid_refused (hAsks : s.asks who = true) (hServes : s.serves who = true) (hHas : s.variant.hasCan n = true) (hk : k < 32)
    (hBase : v.getLsbD 29 = false) (hHigh : fieldGet v 11 18 ≠ 0) :
    ∃ t, exec (.canRxid n k v who) s = .next t ∧ t.flag (Fld.CAN_STAT_CFG_ERR n) = true ∧
      t.reg (Reg.CAN_RXID n k) = s.reg (Reg.CAN_RXID n k) :=
  ⟨_, (exec_canRxid hAsks hServes hHas hk).trans (congrArg Host.Outcome.next (if_pos ⟨by rw [hBase]; rfl, hHigh⟩)),
    flag_setFlag_on _ _ rfl rfl, reg_setFlag_ne _ _ (by show Reg.CAN_RXID n k ≠ Reg.CAN_STAT n; unfold Reg.CAN_RXID Reg.CAN_STAT; omega)⟩

theorem canRxid_taken (hAsks : s.asks who = true) (hServes : s.serves who = true) (hHas : s.variant.hasCan n = true) (hk : k < 32)
    (hGood : v.getLsbD 29 = true ∨ fieldGet v 11 18 = 0) :
    ∃ t, exec (.canRxid n k v who) s = .next t ∧ t.reg (Reg.CAN_RXID n k) = v ∧ (t.rxObj n k).new = false ∧ (t.rxObj n k).pend = none := by
  have hNot : ¬((!v.getLsbD 29) = true ∧ fieldGet v 11 18 ≠ 0) := fun h => hGood.elim
    (fun hExt => absurd h.1 (by rw [hExt]; exact Bool.false_ne_true)) h.2
  refine ⟨_, (exec_canRxid hAsks hServes hHas hk).trans (congrArg Host.Outcome.next (if_neg hNot)), reg_setReg_same s (Reg.CAN_RXID n k) v, ?_, ?_⟩ <;>
    rw [rxObj_setRxObj]

/-- A command written before the last has its result, or as the second of its cycle. -/
theorem txRequest_lost (hAsks : s.asks who = true) (hServes : s.serves who = true) (hHas : s.variant.hasCan n = true)
    (h : s.flag (Fld.CAN_CMD_RES_DONE n) = false ∨ s.took (Reg.CAN_CMD n) = true) :
    ∃ t, exec (.txRequest n k who) s = .next t ∧ t.cans = s.cans ∧ t.flag (Fld.CAN_CMD_RES_LOST n) = true :=
  ⟨_, congrArg Host.Outcome.next (canCommand_lost hAsks hServes hHas h _), rfl, flag_setFlag_on _ _ rfl rfl⟩

/-! ### Integration and the choice -/

theorem integrationDone_ends (hRun : s.inReset = false) (hClock : s.clockGone 4 = false) (hn : n < 16) (hOp : s.canOp n = 1) :
    ∃ t, exec (.integrationDone n) s = .next t ∧ t.canOp n = s.canTarget n := by
  refine ⟨_, congrArg Host.Outcome.next ((clocked_of_runs hRun hClock _).trans (if_pos hOp)), ?_⟩
  exact (setCanOp_spec (s.setCan n { s.can n with busy := false }) hn (canTarget_lt s n)).2

theorem integrationDone_idle (hRun : s.inReset = false) (hClock : s.clockGone 4 = false) (hOp : s.canOp n ≠ 1)
    (hIn : (s.can n).excepted = false) : exec (.integrationDone n) s = .next s :=
  congrArg Host.Outcome.next ((clocked_of_runs hRun hClock _).trans ((if_neg hOp).trans (if_neg fun h => Bool.false_ne_true (hIn.symm.trans h))))

theorem integrationDone_waits (hRun : s.inReset = false) (hClock : s.clockGone 4 = false) (hn : n < 16) (hOp : s.canOp n ≠ 1)
    (hExcepted : (s.can n).excepted = true) :
    ∃ t, exec (.integrationDone n) s = .next t ∧ (t.can n).excepted = false ∧ (t.can n).busy = false :=
  ⟨_, congrArg Host.Outcome.next ((clocked_of_runs hRun hClock _).trans ((if_neg hOp).trans (if_pos hExcepted))), (busIdle_kept s hn).2⟩

theorem arbitrationChoice_chooses (hRun : s.inReset = false) (hClock : s.clockGone 4 = false) (hOp : s.canOp n = 3) (hBus : s.busOff n = false)
    (hBusy : (s.can n).busy = false) (hActive : s.activeObj n = none) (hChosen : s.chosenObj n = none)
    (hTime : (s.can n).suspendUntil ≤ s.cycle + s.nominalBit n * 10) (hChoice : s.txChoice n = some k) :
    ∃ t, exec (.arbitrationChoice n) s = .next t ∧ (t.can n).chosen = some k ∧ ∀ j, t.txObj n j = s.txObj n j := by
  have hGo : s.canOp n = 3 ∧ (!s.busOff n) = true ∧ (!(s.can n).busy) = true ∧ (s.activeObj n).isNone = true ∧
      (s.chosenObj n).isNone = true ∧ (s.can n).suspendUntil ≤ s.cycle + s.nominalBit n * 10 :=
    ⟨hOp, by rw [hBus]; rfl, by rw [hBusy]; rfl, by rw [hActive]; rfl, by rw [hChosen]; rfl, hTime⟩
  refine ⟨_, congrArg Host.Outcome.next ((clocked_of_runs hRun hClock _).trans (if_pos hGo)), ?_, fun j => txObj_congr ?_ j⟩
  · rw [can_setCan]
    exact hChoice
  · rw [can_setCan]

end Sys2Proof.Machine.State

open Sys2Proof Sys2Proof.Machine Sys2Proof.Machine.State

/-- Settles O46: a change of operating state touches CAN_STAT and the chosen object alone, and an object's end or its failed attempt
that object alone; so what a command or an event of the bus wrote before it is what its result shows. -/
theorem canControl : Obligations.CanControl := by
  unfold Obligations.CanControl
  intro s n k more point d tdc v who hRun hHas hk
  have hn := lt_16_of_hasCan hHas
  dsimp only
  refine ⟨fun hAsks hServes => ⟨fun hOff hMode => ?_, fun hBusy => ?_, canRxid_refused hAsks hServes hHas hk,
      canRxid_taken hAsks hServes hHas hk, txRequest_lost hAsks hServes hHas, fun hDone hFirst =>
      ⟨txRequest_refused hAsks hServes hHas hk hDone hFirst,
        fun hIdle => ⟨txRequest_taken hAsks hServes hHas hk hDone hFirst hIdle, txCancel_none hAsks hServes hHas hk hDone hFirst hIdle⟩,
        fun hPending => ⟨txRequest_pending hAsks hServes hHas hk hDone hFirst hPending,
          txCancel_pending hAsks hServes hHas hk hDone hFirst hPending⟩,
        txCancel_active hAsks hServes hHas hk hDone hFirst, boffRecover_starts hAsks hServes hHas hDone hFirst,
        boffRecover_refused hAsks hServes hHas hDone hFirst⟩⟩,
    fun hClock => ⟨integrationDone_ends hRun hClock hn, integrationDone_idle hRun hClock, integrationDone_waits hRun hClock hn,
      canSof_crosses hRun hClock hHas, canSof_held hRun hClock hHas, canSof_starts hRun hClock hHas,
      arbitrationChoice_chooses hRun hClock, fun hActive => ?_, fun hOp hBus hExcepted err data exempt =>
        busError_excepted hRun hClock hHas hOp hBus hExcepted err _ exempt more,
      fun hOp hBus hIn => ⟨fun hActive hPoint => busError_unchecked hRun hClock hHas hOp hBus hIn hActive hPoint more,
        fun hPxe hIdle => busError_excepts hRun hClock hHas hOp hBus hIn hPxe hIdle tdc point more,
        busError_crc hRun hClock hHas hOp hBus hIn tdc point more⟩,
      recoveryDone_ends hRun hClock hn⟩⟩
  · obtain ⟨hGood, hBad⟩ := canEnabled_spec hn hOff hMode
    have hExec : exec (.canEnable n who) s = .next ((s.setFlag (Fld.CAN_CTRL_EN n) true).canFollow n) :=
      congrArg Host.Outcome.next ((served_of_serves hServes _).trans ((if_pos hHas).trans (unitWrite_of_asks hAsks _ n _ _)))
    exact ⟨fun h => ⟨_, hExec, hGood h⟩, fun h => ⟨_, hExec, hBad h⟩⟩
  · exact ⟨_, congrArg Host.Outcome.next ((served_of_serves hServes _).trans ((if_pos hHas).trans (unitWrite_of_asks hAsks _ n _ _))),
      canDisabled_spec hn hBusy⟩
  · refine ⟨attemptEnd_success hRun hClock hActive hn tdc d, fun hCancel hOne => ⟨?_, ?_⟩, fun hCancel hOne => ?_, fun hCancel => ?_⟩
    · obtain ⟨t, hExec, hState⟩ := attemptEnd_lost hRun hClock hActive hn tdc
      rw [hCancel, hOne] at hState
      exact ⟨t, hExec, hState⟩
    · obtain ⟨t, hExec, hState, hBusy⟩ := attemptEnd_error hRun hClock hActive hn tdc
      rw [hCancel, hOne] at hState
      exact ⟨t, hExec, hState, hBusy⟩
    · obtain ⟨t, hExec, hState⟩ := attemptEnd_lost hRun hClock hActive hn tdc
      rw [hCancel, hOne] at hState
      exact ⟨t, hExec, hState⟩
    · obtain ⟨t, hExec, hState, -⟩ := attemptEnd_error hRun hClock hActive hn tdc
      rw [hCancel] at hState
      exact ⟨t, hExec, hState⟩
end
